-- ==== Sys2Proof/Word.lean ====
section
/-!
DEFINITION. The word types of the register space: a register is one 32-bit word (R41), memories hold bytes.
-/
namespace Sys2Proof

/-- One 32-bit register word of the DRS (R41). -/
abbrev Word := BitVec 32

/-- One byte of a memory. -/
abbrev Byte := BitVec 8

end Sys2Proof
end

