-- ==== Sys2Proof/Syntax.lean ====
section
/-!
DEFINITION. The commands of the block: one constructor of `Instr` per row of spec/opcode_table.json, with the row's
operands. What comes from outside the block (pages from a line partner, measured margins, data read from a host,
levels of pins) is an operand of the command that brings it.
-/
namespace Sys2Proof

/-- A port; a segment port k is port 56 + k (R20). -/
abbrev Port := Fin 64
abbrev SegPort := Fin 8
abbrev Head := Fin 4
/-- A queue pair (R29). -/
abbrev Qp := Fin 512

/-- The paths that reach the register space (R41): a head through BAR0, the Gaffer, the keeper through SPI. -/
inductive Path where
  | head (h : Fin 4)
  | gaffer
  | keeper
deriving DecidableEq, Repr

/-- The two rings of a queue pair (chapter 13). -/
inductive Dir where | rx | tx
deriving DecidableEq, Repr

/-- A set of calibrated elements (R260): kind, family, values, residuals (R267); `short` tells that a sub-ADC has more
than two failed comparators or the DAC fewer than 64 healthy cells (R269), `spares` is the number of healthy spare DAC
cells. -/
structure CalSet where
  kind : Nat
  family : Nat
  vals : List Int
  resid : List Nat
  short : Bool
  spares : Nat
deriving DecidableEq, Repr

/-- The boundaries of R271 at which a pending set may come into force. -/
inductive Boundary where | quiet | lpi | idleGap | codeword
deriving DecidableEq, Repr

/-- What a converged training has measured besides its margin: the echo profile in 1/4,096 (R302), the insertion-loss
estimate and the clause's limit in 0.1 dB (R300), new calibration sets (R261, R265), and whether a shelf write that it
causes succeeds (R305). -/
structure TrainData where
  profile : List Int
  loss : Nat
  limit : Nat
  sets : List CalSet
  shelfOk : Bool
deriving DecidableEq, Repr

/-- What a TDR or a sweep member has captured (R296 to R298): clean windows out of those sent, reflections as (distance
in 0.01 m, ρ in 1/1,024), the profile in 1/4,096, and whether a shelf write that it causes succeeds. -/
structure TdrData where
  clean : Nat
  windows : Nat
  reflections : List (Nat × Int)
  profile : List Int
  shelfOk : Bool
deriving DecidableEq, Repr

/-- One directed pair of a sweep (R309): aggressor and victim positions, peak loss in 0.1 dB, nearest and farthest
distance in 0.1 m, whether the measurement is noisy. -/
structure Coupling where
  a : Fin 8
  v : Fin 8
  loss : Nat
  near : Nat
  far : Nat
  noisy : Bool
deriving DecidableEq, Repr

/-- A frame as a MAC receives it (chapter 4, 7, 13): bytes from the destination address to the last payload byte, whether
its FCS is good, whether it was cut off (R189, R421), how long ago its first bit crossed the MDI in 0.25 ns (R341), the
latency of R441 in ns, on a segment its margin (R252) and the opportunity in which it began (R250); `ecc` tells of its
cellar cells: 0 = no error, 1 = corrected, 2 = uncorrectable, with syndrome and cell. -/
structure MacFrame where
  bytes : List Byte
  fcsOk : Bool
  cut : Bool
  age : Nat
  latency : Nat
  margin : Nat
  opportunity : Nat
  ecc : Nat
  syndrome : Nat
  cell : Nat
  lane : Nat
deriving DecidableEq, Repr

/-- What a driver has set in configuration space and in the MSI-X table before it attaches (R399, step 4): Bus Master
Enable, ATS Enable, the MSI-X function mask, the vectors that are not masked. -/
structure HostCfg where
  bme : Bool
  ats : Bool
  fnMask : Bool
  vecs : List (Fin 512)
deriving DecidableEq, Repr

/-- SPDM requests over DOE (R387 to R389): those of SPDM 1.2 that the responder serves, and the IDE_KM key programming of
a secure session. -/
inductive SpdmReq where
  | getVersion | getCapabilities | negotiateAlgorithms | getDigests | getCertificate
  | getMeasurements (index : Fin 256)
  | challenge | keyExchange | finish | endSession
  | ideKeyProg (io cache : Bool)
  | other (code : Fin 256)
deriving DecidableEq, Repr

/-- What a vote of a triplicated word finds: the bits that have flipped in each of the three copies (R70). -/
structure Upset where
  a : BitVec 32
  b : BitVec 32
  c : BitVec 32
deriving DecidableEq, Repr

/-- An auto-negotiation page (R122, R123, R168, R180): the base page with its modes by mode code, its role and its EEE
ability; the answer to the message page; the X50 ability page; the cane page; the identifier page. -/
inductive AnPage where
  | base (modes : BitVec 8) (role : BitVec 2) (eee : Bool)
  | vendor
  | x50 (word : BitVec 11)
  | cane (tag : BitVec 16) (members : BitVec 3) (lane : BitVec 2) (modes : BitVec 8) (policy : BitVec 1)
  | ident (id : BitVec 64)
deriving DecidableEq, Repr

/-- The causes of a head reset (R392, R393). -/
inductive ResetCause where | perst | hotReset | linkDisable | linkDown | flr | ide
deriving DecidableEq, Repr

/-- A read of a head that lacks its completion (R402): of a ring, its descriptors or its data, or of a DMA channel. -/
inductive HeadRead where
  | ring (q : Fin 512) (d : Dir) (data : Bool)
  | channel (ch : Fin 16)
deriving DecidableEq, Repr

/-- The four 64-bit words of a descriptor (R411, R445). -/
structure DescWords where
  w0 : BitVec 64
  w1 : BitVec 64
  w2 : BitVec 64
  w3 : BitVec 64
deriving DecidableEq, Repr

/-- What the outside gives a DMA descriptor (chapter 14): list entries that hosts return, data that hosts return (source
and destination side), the byte after which a read of the device's own memories fails, the byte after which a flash program
fails. -/
structure MdmaData where
  srcList : List (Nat × Nat)
  dstList : List (Nat × Nat)
  src : List Byte
  dst : List Byte
  readFail : Option Nat
  writeFail : Option Nat
deriving DecidableEq, Repr

/-- The clock switches (R507). -/
inductive ClockSwitch where | fabric | gaffer | slck
deriving DecidableEq, Repr

/-- A write to a clock switch (R508): CLK.SEL_CORE with its two selections, or AON.SLCK_CFG. -/
inductive SwitchWrite where
  | core (fabric gaffer : BitVec 1)
  | slck (src : BitVec 1)
deriving DecidableEq, Repr

/-- Fault injection (R555): the write of FLT.INJ_CTL, or the read that meets the corrupted word. -/
inductive Inject where
  | write (path : Path) (checker bit : BitVec 8) (double start : Bool)
  | read (at_ syndrome : BitVec 8) (w1 : Word)
deriving DecidableEq, Repr

/-- The commands: one constructor per row of the table, in its order. -/
inductive Instr where
  /-- REGISTER_WRITE. A write of `size` bytes at an address (R41, R42, R46, R76). -/
  | registerWrite (path : Path) (addr : BitVec 26) (size : Nat) (data : BitVec 64)
  /-- SEQ_WRITE_BACK. SEQ is written back to an SQ register (R62, R64). -/
  | seqWriteBack (path : Path) (off : BitVec 26) (seq : BitVec 8)
  /-- AC_WRITE_LAND. The oldest queued always-on write lands (R68). -/
  | acWriteLand
  /-- TMR_SCRUB. The scrubber visits a word (R70, R71). -/
  | tmrScrub (off : BitVec 26) (upset : Upset)
  /-- COMMIT. A write of GLB.COMMIT (R56, R57, R59). -/
  | commit (path : Path) (mask : Word)
  /-- COMMIT_LATE_APPLY. A block, numbered as in LG[g].TARGET, reaches its boundary (R58, R361, R363). Nothing staged is applied in SAFE (R545). -/
  | commitLateApply (block : Fin 88)
  /-- MOULD_LOAD_START. A write of MLD.LOAD_CTL.start (R97). -/
  | mouldLoadStart (path : Path) (kind : BitVec 2)
  /-- MOULD_LOAD_DONE. A full load ends (R101 to R103, R94, R102). `host` is what host memory held, for a load from there. -/
  | mouldLoadDone (readOk : Bool) (host : List Byte)
  /-- REMOULD_START. A write of MLD.REMOULD_CTL.start (R105). -/
  | remouldStart (path : Path) (kind : BitVec 1) (cg : BitVec 5) (hold : BitVec 8)
  /-- REMOULD_CHECK_DONE. The checks of a partial image end (R107). -/
  | remouldCheckDone (readOk : Bool)
  /-- REMOULD_EXPIRE. hold_ms has passed (R110). -/
  | remouldExpire
  /-- REMOULD_CANCEL. A write of cancel (R110). -/
  | remouldCancel (path : Path)
  /-- ADOPT_START. A write of MLD.ADOPT_CTL.start (R113). -/
  | adoptStart (path : Path) (slot : BitVec 1)
  /-- ADOPT_CHECK_DONE. The adoption comparison ends (R113). -/
  | adoptCheckDone (readOk : Bool)
  /-- KEY_PROG_START. A write of MLD.KEY_PROG_CTL.start (R92); outside FACTORY it is refused. -/
  | keyProgStart (path : Path) (slot : BitVec 2)
  /-- KEY_PROG_DONE. The key fuse operation ends (R92). -/
  | keyProgDone (verified : Bool)
  /-- PORT_ADMIN_WRITE. A write of CTL.admin (R132, R19). -/
  | portAdminWrite (path : Path) (p : Port) (admin : BitVec 2)
  /-- PORT_RESTART. A write of CTL.restart (R129, R132, R141). -/
  | portRestart (path : Path) (p : Port)
  /-- PORT_RESET. A write of CTL.reset (R159). -/
  | portReset (path : Path) (p : Port)
  /-- PORT_RESET_END. The 50 µs of a port reset end (R159), and a commit that waited applies (R360). -/
  | portResetEnd (p : Port)
  /-- LISTEN_WAIT_END. The wait in LISTEN ends (R137, R241). -/
  | listenWaitEnd (p : Port)
  /-- AN_PAGE_RECEIVED. A valid auto-negotiation page arrives (R122, R128, R144, R168, R180). -/
  | anPageReceived (p : Port) (page : AnPage) (last : Bool) (seedMaster : Bool)
  /-- AN_TIMEOUT. No valid page within an_timeout_ms (R132). -/
  | anTimeout (p : Port)
  /-- TRAIN_COMPLETE. Training converges (R132, R145, R261, R265, R304). -/
  | trainComplete (p : Port) (margin : BitVec 16) (found : TrainData)
  /-- TRAIN_STORED_TIMEOUT. Training from stored coefficients takes too long (R140). -/
  | trainStoredTimeout (p : Port)
  /-- TRAIN_TIMEOUT. Training takes too long (R129, R139). -/
  | trainTimeout (p : Port)
  /-- BLOCK_LOCK. The lock timer expires (R142, R143, R620). `uncLast` counts the uncorrectable codewords of the last 1 ms. -/
  | blockLock (p : Port) (uncLast : BitVec 16)
  /-- FEC_BURST. n uncorrectable codewords within 1 ms (R142). -/
  | fecBurst (p : Port) (n : BitVec 16)
  /-- SQI_LOW. SQI has been below sqi_drop for drop_ms (R142). -/
  | sqiLow (p : Port) (uncLast : BitVec 16)
  /-- PARTNER_DOWN. The partner signals link down (R142). -/
  | partnerDown (p : Port) (uncLast : BitVec 16)
  /-- FLAP_HOLD_EXPIRE. flap_hold_s has passed (R141). -/
  | flapHoldExpire (p : Port)
  /-- LINK_QUAL_INTERVAL. A 100 µs interval ends with its margin and its codeword counts (R147 to R149). -/
  | linkQualInterval (p : Port) (margin : BitVec 16) (corrected : Nat) (uncorrected : Nat)
  /-- MAC_FRAME_RECEIVE. The MAC receives a frame (R24, R151, R156, R422, R428, R441). -/
  | macFrameReceive (p : Port) (frame : MacFrame)
  /-- COUNTER_CLEAR. A write of CNT_CTL.clear (R155). -/
  | counterClear (path : Path) (p : Port)
  /-- TRAINING_FRAME. An X50 training frame arrives (R170, R174): its 48 bits. -/
  | trainingFrame (p : Port) (body : BitVec 48)
  /-- PAM6_SWITCH. pam6_count reaches 0 (R170). -/
  | pam6Switch (p : Port)
  /-- TAP_WRITE. A write of TAP_MAN or TAP_STD (R175). -/
  | tapWrite (path : Path) (p : Port) (man : Bool) (taps : BitVec 18)
  /-- TAP_APPLY. The boundary at which new taps come into force (R176). -/
  | tapApply (p : Port)
  /-- ALIGNMENT_MARKER. An alignment marker arrives (R181, R184, R185, R187, R188): its arrival in 0.1 ns, the bit errors of its BIP. -/
  | alignmentMarker (p : Port) (lane : BitVec 2) (tag : BitVec 16) (map : BitVec 4) (rxOk : BitVec 4) (arrival : Nat) (bipErrors : Nat)
  /-- MARKER_MISS. Two consecutive markers are missed (R184). -/
  | markerMiss (p : Port)
  /-- FORM_WAIT_EXPIRE. form_wait_ms has passed (R183). -/
  | formWaitExpire (k : Fin 4)
  /-- REJOIN_HOLD_EXPIRE. rejoin_hold_ms has passed (R184). -/
  | rejoinHoldExpire (p : Port)
  /-- LOOP_START. A write of LOOP_CTL.start (R196, R197). -/
  | loopStart (path : Path) (p : Port) (kind : BitVec 2) (source : BitVec 2) (force : BitVec 1) (noWait : BitVec 1) (mode : BitVec 4)
  /-- LOOP_STOP. A write of LOOP_CTL.stop (R199). -/
  | loopStop (path : Path) (p : Port)
  /-- LOOP_DURATION_EXPIRE. duration_ms has passed, with the bits compared and their errors (R198, R199). -/
  | loopDurationExpire (p : Port) (bits : Nat) (errs : Nat)
  /-- POT_RETURN_DONE. The slots of a sleeping port are copied, gated and marked returned (R218); a slot map that waited for it applies (R213). -/
  | potReturnDone (p : Port)
  /-- POT_RECLAIM_DONE. Quarter q has loaded the slots of the port (R219, R220); a slot map that waited for it applies (R213). -/
  | potReclaimDone (p : Port) (q : Fin 4)
  /-- POT_SELFTEST_START. A write of FUR.SELFTEST.start (R225). -/
  | potSelftestStart (path : Path) (quarters : BitVec 4)
  /-- POT_SELFTEST_DONE. A pot self-test ends with the pots that failed (R221). -/
  | potSelftestDone (q : Fin 4) (failed : BitVec 32) (spareFailed : Bool)
  /-- ECC_CORR. A corrected error of a pot coefficient memory (R223). -/
  | eccCorr (pot : Fin 128) (syndrome : BitVec 8) (addr : BitVec 32)
  /-- ECC_UNCORR. An uncorrectable error of a pot (R224). -/
  | eccUncorr (pot : Fin 128) (syndrome : BitVec 8)
  /-- CANCELLER_DEPTH_INTERVAL. A 100 µs interval of a canceller ends with its depth (R231, R232). -/
  | cancellerDepthInterval (b : Fin 16) (pair : Fin 56) (depth : BitVec 16)
  /-- CONVERGENCE_MAX_EXPIRE. The maximum convergence time has passed (R231, R235). -/
  | convergenceMaxExpire (b : Fin 16) (pair : Fin 56)
  /-- BUNDLE_RESTART. A write of BND[b].CTL.restart (R233). -/
  | bundleRestart (path : Path) (b : Fin 16) (freeze : BitVec 1)
  /-- BEACON_RECEIVED. A valid beacon arrives (R241, R242); `us` is the length of the cycle that it ends. -/
  | beaconReceived (p : SegPort) (us : Nat)
  /-- PLCA_CYCLE_START. A coordinator starts a cycle (R241). -/
  | plcaCycleStart (p : SegPort) (us : Nat)
  /-- TRANSMIT_OPPORTUNITY. The own transmit opportunity arrives (R246). -/
  | transmitOpportunity (p : SegPort)
  /-- BEACON_LOSS. No beacon for loss_ms (R242). -/
  | beaconLoss (p : SegPort) (uncLast : BitVec 16)
  /-- FOREIGN_BEACON. A coordinator receives a foreign beacon (R243). -/
  | foreignBeacon (p : SegPort)
  /-- COLLISION. A collision in the first 64 bytes, in opportunity n (R247, R249); `own`: the port was sending. -/
  | collision (p : SegPort) (n : BitVec 8) (own : Bool)
  /-- LATE_COLLISION. A collision after 64 bytes (R248). -/
  | lateCollision (p : SegPort) (n : BitVec 8) (own : Bool)
  /-- SEGMENT_SLEEP. The frame in progress has ended (R245). -/
  | segmentSleep (p : SegPort)
  /-- CENSUS_WINDOW_END. A census window ends (R251). -/
  | censusWindowEnd (p : SegPort)
  /-- CENSUS_CLEAR. A write of SEG_CENSUS_CTL.clear (R251). -/
  | censusClear (path : Path) (p : SegPort) (window : BitVec 16)
  /-- SEG_QUAL_INTERVAL. A 100 ms interval ends (R252). -/
  | segQualInterval (p : SegPort)
  /-- CONVERTER_STAGE_DONE. A converter stage ends with its sets (R263). -/
  | converterStageDone (p : Port) (sets : List CalSet)
  /-- BACKGROUND_ANNEAL_OFFER. The background anneal offers new sets (R266). -/
  | backgroundAnnealOffer (p : Port) (sets : List CalSet)
  /-- PENDING_SET_APPLY. A boundary at which a pending set may come into force (R271). -/
  | pendingSetApply (p : Port) (at_ : Boundary)
  /-- STRUCT_WAIT. A set has waited struct_wait_s (R272). -/
  | structWait (p : Port) (kind : BitVec 4) (family : BitVec 2)
  /-- PORT_ANNEAL_START. A write of CAL.PORT_CTL.start (R275). -/
  | portAnnealStart (path : Path) (p : Port) (noWait : BitVec 1) (force : BitVec 1)
  /-- PORT_ANNEAL_STOP. A write of CAL.PORT_CTL.stop (R276). -/
  | portAnnealStop (path : Path) (p : Port)
  /-- PORT_ANNEAL_DONE. A foreground anneal ends with its sets (R276, R277). -/
  | portAnnealDone (p : Port) (sets : List CalSet)
  /-- ATTIC_WRITE. A write of CAL.ATTIC_CTL.write (R281). -/
  | atticWrite (path : Path)
  /-- ATTIC_WRITE_DONE. An attic write completes (R281, R282). -/
  | atticWriteDone (ok : Bool)
  /-- TDR_START. A write of DIAG.TDR_CTL.start (R294). -/
  | tdrStart (path : Path) (p : Port) (noWait : BitVec 1) (force : BitVec 1)
  /-- TDR_STOP. A write of TDR_CTL.stop (R291). -/
  | tdrStop (path : Path) (p : Port)
  /-- TDR_DONE. A TDR ends with what it captured (R296 to R299, R304 to R306). -/
  | tdrDone (p : Port) (found : TdrData)
  /-- IL_ESTIMATE. The insertion loss and the limit of its clause, 0.1 dB (R300). -/
  | ilEstimate (p : Port) (loss : BitVec 16) (limit : BitVec 16)
  /-- FP_CAPTURE. A write of FP_CTL.capture (R303). -/
  | fpCapture (path : Path) (p : Port)
  /-- FP_CLEAR. A write of FP_CTL.clear (R303). -/
  | fpClear (path : Path) (p : Port)
  /-- SWEEP_START. A write of SWEEP_CTL.start (R307, R308). -/
  | sweepStart (path : Path) (cg : BitVec 5) (noWait : BitVec 1) (force : BitVec 1)
  /-- SWEEP_ARM. A write of SWEEP_CTL.arm (R308). -/
  | sweepArm (path : Path) (cg : BitVec 5) (noWait : BitVec 1) (force : BitVec 1)
  /-- SWEEP_STOP. A write of SWEEP_CTL.stop (R291). -/
  | sweepStop (path : Path)
  /-- SWEEP_DONE. A sweep ends (R309). -/
  | sweepDone (pairs : List Coupling) (profiles : List (Fin 8 × TdrData))
  /-- FLASH_BOOK_REQUEST. A write of FLASH_BOOK.request (R286, R289). -/
  | flashBookRequest (path : Path)
  /-- FLASH_BOOK_RELEASE. A write of FLASH_BOOK.release (R286). -/
  | flashBookRelease (path : Path)
  /-- LPI_ENTRY. The transmit direction has been idle for idle_us (R312, R316). -/
  | lpiEntry (p : Port)
  /-- LPI_EARLY_EXIT. A known release lies one exit maximum ahead (R313). -/
  | lpiEarlyExit (p : Port)
  /-- LPI_WAKE_SIGNAL. The partner sends its wake signal (R314). -/
  | lpiWakeSignal (p : Port)
  /-- QUICK_REFRESH. A quick refresh is due (R315). -/
  | quickRefresh (p : Port)
  /-- DEEP_LPI_ENTRY. deep_ms have passed in LPI (R318). -/
  | deepLpiEntry (p : Port)
  /-- LPI_EXIT_TIMEOUT. The exit maximum has passed (R310). -/
  | lpiExitTimeout (p : Port)
  /-- SLEEP_REPLY_RECEIVED. The partner acknowledges or rejects (R320). -/
  | sleepReplyReceived (p : Port) (ack : Bool)
  /-- PARTNER_SILENCE. The partner is silent (R320, R322). -/
  | partnerSilence (p : Port)
  /-- SLEEP_TIMEOUT. sleep_timeout_ms has passed (R320). -/
  | sleepTimeout (p : Port)
  /-- SLEEP_REQUEST_RECEIVED. The partner asks to sleep (R321). -/
  | sleepRequestReceived (p : Port)
  /-- PARTNER_SLEEP_TIMEOUT. 1 ms after an accepted partner request (R321). -/
  | partnerSleepTimeout (p : Port)
  /-- WUP_QUALIFIED. A wake-up pulse is qualified (R324, R477, R483). -/
  | wupQualified (p : Port)
  /-- WUR_RECEIVED. A WUR arrives (R328). -/
  | wurReceived (p : Port)
  /-- WAKE_IN_EDGE. The chosen edge on WAKE_IN i (R328). -/
  | wakeInEdge (i : Fin 4)
  /-- WAKE_SERVE. A pending port is served (R323, R330). -/
  | wakeServe (p : Port)
  /-- WUP_END. A sent WUP ends (R330). -/
  | wupEnd (p : Port)
  /-- PULSE_SPACING_RELEASE. The spacing has passed (R331). -/
  | pulseSpacingRelease (p : Port)
  /-- WUP_RETRY. The partner has not answered a WUP (R332). -/
  | wupRetry (p : Port)
  /-- TB_SET. The highest word of TB.SET is written; the lower ones are held (R75, R338). -/
  | tbSet (path : Path) (high : BitVec 16)
  /-- TB_STEP. A write of TB.STEP, signed ns (R338). -/
  | tbStep (path : Path) (step : Word)
  /-- TB_ADJ. A write of TB.ADJ, signed 1/1,024 ppb (R338). -/
  | tbAdj (path : Path) (rate : Word)
  /-- SYNC_RECEIVED. A Sync arrives (R346 to R350): the offset in 2^-16 ns, the domain rate, the rate that the servo asks for. -/
  | syncReceived (d : Fin 4) (p : Port) (offset : Int) (domRate : Int) (servo : Int)
  /-- SYNC_TIMEOUT. No Sync for 3 intervals (R349). -/
  | syncTimeout (d : Fin 4)
  /-- HOLDOVER_EXPIRE. holdover_s have passed (R349). -/
  | holdoverExpire
  /-- GM_CHANGE. The grandmaster of a domain changes (R345, R349). -/
  | gmChange (d : Fin 4) (slave : Option Port) (masters : BitVec 64) (steps : BitVec 16) (gmId : BitVec 64)
  /-- SYNC_SEND. logSyncInterval has passed (R348). In SAFE gPTP sends nothing (R545). -/
  | syncSend (d : Fin 4)
  /-- PDELAY_MEASURE. The peer delay is measured, 2^-4 ns (R347). In SAFE gPTP sends nothing (R545). -/
  | pdelayMeasure (p : Port) (delay : BitVec 32)
  /-- PPS_OUT. The timebase reaches a whole second (R351). In SAFE the pin stays low (R545). -/
  | ppsOut
  /-- PPS_IN. A PPS_IN edge (R352); `servo` is the rate that a disciplined timebase takes. -/
  | ppsIn (servo : Int)
  /-- LAUNCH_IN. A LAUNCH_IN edge (R353). -/
  | launchIn
  /-- LG_ARM. A write of LG[g].CTL.arm (R355 to R357). -/
  | lgArm (path : Path) (g : Fin 16) (src : BitVec 2) (kind : BitVec 1) (out : BitVec 1)
  /-- LG_DISARM. A write of LG[g].CTL.disarm (R355). -/
  | lgDisarm (path : Path) (g : Fin 16)
  /-- LG_FIRE. The timebase reaches TIME of the groups of a mask (R357 to R366). -/
  | lgFire (groups : BitVec 16)
  /-- GCL_ENTRY_BOUNDARY. A gate control list moves to its next entry or cycle (R368). -/
  | gclEntryBoundary (p : Port)
  /-- LINK_L0. The link reaches L0 (R372, R391). -/
  | linkL0 (h : Head) (rate : BitVec 2) (width : BitVec 5)
  /-- HEAD_RESET. PERST, hot reset, link disable, DL_Down, FLR or an IDE failure (R392, R393). -/
  | headReset (h : Head) (cause : ResetCause)
  /-- HEAD_RESET_END. The head reset ends and waiting commits apply (R392). -/
  | headResetEnd (h : Head)
  /-- DRAIN_DONE. The discard after a head loss completes (R394). -/
  | drainDone (h : Head)
  /-- DETACH. A write of ATTACH.detach (R391). -/
  | detach (path : Path) (h : Head)
  /-- HEARTBEAT_EXPIRE. hb_ms pass without a kick (R396). -/
  | heartbeatExpire (h : Head)
  /-- HB_KICK. A write of HB_KICK (R396). -/
  | hbKick (path : Path) (h : Head)
  /-- BME_CLEAR. Bus Master Enable is cleared (R391). -/
  | bmeClear (h : Head)
  /-- ATTACH. A write of ATTACH.attach (R399), with what the driver set before it. -/
  | attach (path : Path) (h : Head) (cfg : HostCfg)
  /-- DOORBELL. A BAR2 doorbell write (R378, R412, R413). In SAFE it is dropped (R545). -/
  | doorbell (h : Head) (q : Qp) (d : Dir) (v : Word)
  /-- CXL_MEM_REQUEST. A CXL.mem request (R376). -/
  | cxlMemRequest (h : Head)
  /-- INVALIDATE_REQUEST. An ATS Invalidate Request (R384). -/
  | invalidateRequest (h : Head) (addr : BitVec 64) (len : Nat)
  /-- INVALIDATE_COMPLETE. The writes before an invalidation have been observed (R384). -/
  | invalidateComplete (h : Head)
  /-- TRANSLATION_COMPLETION. A translation completion arrives (R382, R383). -/
  | translationCompletion (h : Head) (addr : BitVec 64) (len : Nat) (write : Bool)
  /-- ATC_FLUSH. A write of ATC_CTL.flush (R385). -/
  | atcFlush (path : Path) (h : Head)
  /-- ATS_ENABLE_CHANGE. ATS Enable changes (R385). -/
  | atsEnableChange (h : Head) (on : Bool)
  /-- SPDM_REQUEST. An SPDM request over DOE (R387 to R389). -/
  | spdmRequest (h : Head) (req : SpdmReq)
  /-- MSIX_UNMASK. A vector, or the function, is unmasked (R380). -/
  | msixUnmask (h : Head) (vec : Option (Fin 512))
  /-- IRQ_REARM. A write of IRQ_REARM (R381). -/
  | irqRearm (path : Path) (h : Head)
  /-- COMPLETION_TIMEOUT. A CXL.io read lacks its completion (R402, R437, R438). -/
  | completionTimeout (h : Head) (read : HeadRead) (tag : BitVec 16)
  /-- GO_RESPONSE. A global-observation response arrives (R432). -/
  | goResponse (q : Qp) (d : Dir)
  /-- MBX_POST. A write of MBX_CTL.post (R404); mailbox 4 is the keeper's. -/
  | mbxPost (path : Path) (m : Fin 5)
  /-- MBX_TAKE. The Gaffer takes a posted request (R404). -/
  | mbxTake (m : Fin 5)
  /-- MBX_REPLY. The Gaffer writes a reply that has no row of its own (R404, R406 to R408). -/
  | mbxReply (m : Fin 5)
  /-- MBX_ACK. A write of MBX_CTL.ack (R404). -/
  | mbxAck (path : Path) (m : Fin 5)
  /-- MBX_ABORT. A write of MBX_CTL.abort (R405). -/
  | mbxAbort (path : Path) (m : Fin 5)
  /-- NO_FW. A request has been POSTED for 10 ms (R405). -/
  | noFw (m : Fin 5)
  /-- GET_INFO. The mailbox command GET_INFO (R407). -/
  | getInfo (m : Fin 5)
  /-- MODE_VOTE. The mailbox command MODE_VOTE (R407). -/
  | modeVote (m : Fin 5)
  /-- PORT_ANNEAL. The mailbox command PORT_ANNEAL (R407). -/
  | portAnneal (m : Fin 5)
  /-- PORT_TDR. The mailbox command PORT_TDR (R407). -/
  | portTdr (m : Fin 5)
  /-- LAUNCH. The mailbox command LAUNCH (R408). -/
  | launch (m : Fin 5)
  /-- ECHO. The mailbox command ECHO (R407). -/
  | echo (m : Fin 5)
  /-- DESCRIPTOR_FETCH_DONE. Descriptors arrive (R413, R417, R437, R438). -/
  | descriptorFetchDone (q : Qp) (d : Dir) (failed : Bool) (descs : List DescWords)
  /-- OWN_RECHECK. 10 µs after the last read (R413). -/
  | ownRecheck (q : Qp) (d : Dir)
  /-- DATA_READ_COMPLETION. Transmit data arrives (R437). -/
  | dataReadCompletion (q : Qp) (failed : Bool) (bytes : List Byte)
  /-- TX_FRAME_FETCHED. A whole transmit frame is in the cellar (R419). -/
  | txFrameFetched (q : Qp)
  /-- TX_FRAME_START. The frame that may be sent is started (R246, R369, R419, R421). -/
  | txFrameStart (p : Port) (ecc : Fin 3) (syndrome : BitVec 8) (cell : BitVec 18)
  /-- LAUNCH_TIME. A held frame reaches its launch time (R420). -/
  | launchTime (p : Port)
  /-- TX_FRAME_SENT. The frame completes on the line (R341, R416); `age` is the time since its first bit crossed the MDI, 0.25 ns. -/
  | txFrameSent (p : Port) (age : Nat)
  /-- MODERATION_TIMER. The moderation timer expires (R435). -/
  | moderationTimer (q : Qp) (d : Dir)
  /-- RING_ACK. A write of RX_ACK or TX_ACK (R436). -/
  | ringAck (path : Path) (q : Qp) (d : Dir) (ack : BitVec 15)
  /-- RING_ENABLE. A write of CTL.en = 1 (R107, R440). -/
  | ringEnable (path : Path) (q : Qp) (d : Dir)
  /-- RING_DISABLE. A write of CTL.en = 0 (R439). -/
  | ringDisable (path : Path) (q : Qp) (d : Dir)
  /-- RING_STOPPED. A stopping ring has drained (R439). -/
  | ringStopped (q : Qp) (d : Dir)
  /-- CEL_CFG_WRITE. A write of CEL.CFG (R426). -/
  | celCfgWrite (path : Path) (kcells : BitVec 8)
  /-- CEL_SHARE_WRITE. A write of a head's cellar share (R427). -/
  | celShareWrite (path : Path) (h : Head) (d : Dir) (max_ : BitVec 10) (guar : BitVec 10)
  /-- MCH_ENABLE. A write of MCH[c].CTL.en = 1 (R460). -/
  | mchEnable (path : Path) (ch : Fin 16)
  /-- MCH_DISABLE. A write of MCH[c].CTL.en = 0 (R466). -/
  | mchDisable (path : Path) (ch : Fin 16)
  /-- MCH_DOORBELL. A write of MCH[c].DOORBELL (R461, R463); `host` is the next pointer that a host returns for the tail, none where that read fails. -/
  | mchDoorbell (path : Path) (ch : Fin 16) (host : Option (BitVec 64))
  /-- MDMA_DESC_FETCHED. A descriptor arrives (R451, R465). -/
  | mdmaDescFetched (ch : Fin 16) (failed : Bool) (words : DescWords)
  /-- MDMA_DESC_COMPLETE. The descriptor in progress moves its data and completes (R446 to R459, R463, R464, R468). -/
  | mdmaDescComplete (ch : Fin 16) (data : MdmaData) (wbFail : Bool) (host : Option (BitVec 64))
  /-- MDMA_SYNC_COMPLETION. A zero-length sync read completes (R458). -/
  | mdmaSyncCompletion (ch : Fin 16) (h : Head) (failed : Bool) (wbFail : Bool) (host : Option (BitVec 64))
  /-- MODE_REQ_WRITE. A write of PWR.MODE_REQ.target (R474). -/
  | modeReqWrite (path : Path) (target : BitVec 3)
  /-- MODE_ENTRY_WFI. A Gaffer WFI with a lower target (R292, R473). -/
  | modeEntryWfi
  /-- STANDBY_ENTRY_DONE. STANDBY entry completes (R475, R477). -/
  | standbyEntryDone
  /-- PARK_ENTRY_DONE. PARK entry completes (R476, R477). -/
  | parkEntryDone
  /-- MIN_OFF_EXPIRE. min_off_ms have passed in PARK (R477). -/
  | minOffExpire
  /-- HOST_REQ_WRITE. A write of PWR.HOST_REQ (R409). -/
  | hostReqWrite (path : Path) (vote : BitVec 3)
  /-- KEEPER_REQ_WRITE. A write of PWR.KEEPER_REQ (R409). -/
  | keeperReqWrite (path : Path) (vote : BitVec 3) (force : Bool)
  /-- POLICY_SETTLE. A lower target has held for settle_s (R327, R470). -/
  | policySettle
  /-- DOM_REQ_WRITE. A write of PWR.DOM_REQ (R17, R478). -/
  | domReqWrite (path : Path) (domains : BitVec 24)
  /-- DOMAIN_POWER_GOOD. A domain reaches power good (R217, R478); `sealOk`: the store seal of a quarter holds. -/
  | domainPowerGood (d : Fin 22) (sealOk : Bool)
  /-- DOMAIN_SWITCH_OFF. The off condition of a pending domain holds (R478). -/
  | domainSwitchOff (d : Fin 22)
  /-- DOM_FORCE_WRITE. A write of PWR.DOM_FORCE (R479). -/
  | domForceWrite (path : Path) (domains : BitVec 24)
  /-- AVS_ACK. The PMIC reports the new level (R481); `want` is the level in mV that the timing monitors ask for in RUN. -/
  | avsAck (want : Nat)
  /-- AVS_TIMEOUT. An AVSBus access is not acknowledged (R482). -/
  | avsTimeout
  /-- AVS_RETRY. The retry of a failed AVSBus write (R482). -/
  | avsRetry
  /-- CS_WAKE. HSPI_CS_N low for 200 µs without SCK (R483). -/
  | csWake
  /-- ALARM_MATCH. AON.SECONDS matches the alarm (R484). -/
  | alarmMatch
  /-- VMAIN_OK_RISE. VMAIN_OK rises (R485, R555, R618, R621). -/
  | vmainOkRise
  /-- VMAIN_TIMEOUT. VMAIN_OK has not risen within vmain_ms (R485, R499). -/
  | vmainTimeout
  /-- WAKE_TABLE_ACTION. A wake-table entry has reached its instant (R486, R487). -/
  | wakeTableAction (i : Fin 16)
  /-- RETENTION_CHECK_DONE. The seal check of the retained banks ends with the banks that failed (R100, R112, R264, R491). -/
  | retentionCheckDone (lost : BitVec 16)
  /-- FIRMWARE_VERIFIED. The boot ROM has checked the firmware slots: generation and digest of each that verifies (R95, R497, R569). -/
  | firmwareVerified (a : Option (BitVec 32 × List Byte)) (b : Option (BitVec 32 × List Byte))
  /-- GAFFER_RESET_RELEASE. The Gaffer's reset is released (R280, R488). -/
  | gafferResetRelease
  /-- START_OK. A write of AON.START_CTL.ok lands (R498). -/
  | startOk (path : Path)
  /-- DEADLINE. The start deadline passes (R499). -/
  | deadline
  /-- CLOCK_READY. A start count or a lock completes (R501, R502); `crystal` names the source of SLCK. -/
  | clockReady (i : Fin 12) (crystal : Bool)
  /-- RCLK_READY. A full window of the recovered clock, offset in 0.01 ppm (R503). -/
  | rclkReady (offset : Int)
  /-- CLOCK_SWITCH_WRITE. A write to a clock switch (R508). -/
  | clockSwitchWrite (path : Path) (sw : SwitchWrite)
  /-- SWITCH_COMPLETE. A switch finishes (R507). -/
  | switchComplete (sw : ClockSwitch)
  /-- SWITCH_FORCED. A switch is forced (R509). -/
  | switchForced (sw : ClockSwitch)
  /-- LREF_SELECT. A write of CLK.SEL_LINE (R504, R506). -/
  | lrefSelect (path : Path) (rclkOut : BitVec 2) (lref : BitVec 1)
  /-- CLOCK_LOSS. A source is judged lost (R506, R513, R549). -/
  | clockLoss (i : Fin 4)
  /-- PLL_UNLOCK. A loop loses lock (R513). -/
  | pllUnlock (i : Fin 12)
  /-- PLL_RELOCK. A loop relocks (R513). -/
  | pllRelock (i : Fin 12)
  /-- GATE_WRITE. A write of CLK.GATE (R511, R512). -/
  | gateWrite (path : Path) (gates : BitVec 21)
  /-- PLL_EN_WRITE. A write of CLK.PLL_EN (R511). -/
  | pllEnWrite (path : Path) (loops : BitVec 8)
  /-- POWER_ON. VAON rises (R514, R581): the board's straps, TEST_MODE, and what the board's flash holds where the state's does not. -/
  | powerOn (headcfg : BitVec 2) (bootsrc : BitVec 1) (testMode : Bool) (flash : List (BitVec 27 × List Byte))
  /-- VAON_FALL. VAON falls (R581). -/
  | vaonFall
  /-- MAIN_RAIL_LOSS. VMAIN_OK falls (R514, R517). -/
  | mainRailLoss
  /-- RESET_N. RESET_N is held low for 2 µs (R515). -/
  | resetN
  /-- RESET_N_RELEASE. RESET_N is released (R516). -/
  | resetNRelease
  /-- CHIP_RESET. A write of RST.CHIP (R515, R516, R546). -/
  | chipReset (path : Path) (key : BitVec 8) (go : Bool)
  /-- BLOCK_RESET. A write of RST.BLOCK (R518). -/
  | blockReset (path : Path) (source : BitVec 7) (go : Bool)
  /-- BLOCK_RESET_END. The hold time of a block reset ends (R518). -/
  | blockResetEnd (source : BitVec 7)
  /-- FAULT_MESSAGE. The collector takes a message (R524 to R536, R541). -/
  | faultMessage (src : BitVec 7) (kind : BitVec 8) (cls : Fin 5) (detail : BitVec 13) (w1 : Word)
  /-- REACT_RESET_WINDOW. 60 s pass without a chip reset by reaction (R536). -/
  | reactResetWindow
  /-- COLLECTOR_SELF. A collector self-fault (R548). -/
  | collectorSelf (part : BitVec 2)
  /-- SUPPLY. A main rail is outside its range (R528). -/
  | supply (rail : BitVec 3)
  /-- OVERTEMP. The temperature read (R529): eight sensors, °C plus 64. -/
  | overtemp (tj : List Byte)
  /-- ALIVE_TOGGLE. Every 16th SLCK edge (R537). -/
  | aliveToggle
  /-- WATCHDOG_KICK. A write of FLT.WDOG_KICK (R538, R539). -/
  | watchdogKick (path : Path) (key : BitVec 16)
  /-- WATCHDOG. The watchdog expires (R539). -/
  | watchdog
  /-- LOCKSTEP. The lockstep comparator finds a difference (R540). -/
  | lockstep (pc : Word)
  /-- LOG_CLEAR. A write of FLT.LOG_CTL.clear (R541). -/
  | logClear (path : Path)
  /-- FAULT_RECORD_REQUEST. A write of FLT.REC_CTL.write (R542). -/
  | faultRecordRequest (path : Path)
  /-- FAULT_RECORD_DONE. The record at the head of the wait is programmed or skipped (R542, R543). -/
  | faultRecordDone (failed : Bool)
  /-- REC_NEXT_WRITE. A write of FLT.REC_NEXT (R543). -/
  | recNextWrite (path : Path) (sector : BitVec 6)
  /-- FLT_IRQ_REARM. A write of FLT.IRQ_REARM (R535). -/
  | fltIrqRearm (path : Path)
  /-- CHECKER_TEST_START. A write of FLT.CHK_CTL.start (R551). -/
  | checkerTestStart (path : Path) (checker : BitVec 8) (count : BitVec 8) (limit : BitVec 8)
  /-- CHECKER_TEST. A check of the checker under test (R551, R552). -/
  | checkerTest (detected : Bool) (corr : Bool) (at_ : BitVec 8) (w1 : Word)
  /-- CHECKER_TEST_TIMEOUT. limit_ms have passed (R552). -/
  | checkerTestTimeout
  /-- MBIST_START. A write of FLT.MBIST_CTL.start (R553). -/
  | mbistStart (path : Path) (noWait : BitVec 1)
  /-- MBIST_STOP. A write of FLT.MBIST_CTL.stop (R554). -/
  | mbistStop (path : Path)
  /-- MBIST_DONE. The march test ends (R554). -/
  | mbistDone (fails : Nat) (first : BitVec 18)
  /-- FAULT_INJECT. A write of FLT.INJ_CTL in the factory test state, or the read that meets the corrupted word (R555). -/
  | faultInject (what : Inject)
  /-- READ. A READ frame of so many bytes after the command byte (R557 to R562). -/
  | read (addr : BitVec 24) (clocked : Nat) (done : Bool) (ahead : Bool) (upsets : List Upset)
  /-- READ_CRC. A READ_CRC frame (R557 to R562, R564). -/
  | readCrc (addr : BitVec 24) (clocked : Nat) (done : Bool) (ahead : Bool) (upsets : List Upset)
  /-- WRITE. A WRITE frame: the bytes after its command byte (R557, R562, R563). -/
  | write (bytes : List Byte) (midByte : Bool)
  /-- WRITE_CRC. A WRITE_CRC frame (R562 to R564). -/
  | writeCrc (bytes : List Byte) (midByte : Bool)
  /-- STATUS. A STATUS frame (R557, R558, R565). -/
  | status (clocked : Nat)
  /-- UNKNOWN_COMMAND. A frame with an unknown command (R557, R565). -/
  | unknownCommand (cmd : Byte) (clocked : Nat)
  /-- FLASH_WINDOW_READ. A read of the flash window (R571, R573). -/
  | flashWindowRead (addr : BitVec 27) (len : Nat) (ok : Bool)
  /-- FLASH_WINDOW_WRITE. A write into the flash window (R572). -/
  | flashWindowWrite (addr : BitVec 27) (bytes : List Byte)
  /-- PAGE_PROGRAM. 1 µs without a write (R572). -/
  | pageProgram
  /-- FSPI_FLUSH. A write of FSPI.CTL.flush (R572). -/
  | fspiFlush (path : Path)
  /-- PROGRAM_COMPLETE. Write-in-progress clears (R577). -/
  | programComplete (failed : Bool)
  /-- FLASH_TIMEOUT. prog_ms or erase_ms have passed (R577). -/
  | flashTimeout
  /-- ERASE. A write of FSPI.ERASE_CTL.go (R574). -/
  | erase (path : Path) (size : BitVec 2)
  /-- ERASE_SUSPEND. A reader has waited 50 µs behind an erase (R576). -/
  | eraseSuspend
  /-- ERASE_RESUME. 10 µs after the last read (R576). -/
  | eraseResume
  /-- LIFECYCLE_ADVANCE. A write of GLB.LIFECYCLE_CTL.go (R613). -/
  | lifecycleAdvance (path : Path) (key : BitVec 16) (target : BitVec 2)
  /-- LIFECYCLE_FUSE_DONE. The lifecycle fuse ends (R613). -/
  | lifecycleFuseDone (verified : Bool)
  /-- REGISTER_READ. A read of `size` bytes at an address, with what the votes of its words find (R41, R42, R46, R70, R74, R76). -/
  | registerRead (path : Path) (addr : BitVec 26) (size : Nat) (upset : Upset) (upsetHigh : Upset)
  /-- LPI_EXIT_COMPLETE. The exit completes (R310). -/
  | lpiExitComplete (p : Port)
  /-- RECEIVE_QUIET. The partner enters LPI (R312). -/
  | receiveQuiet (p : Port)
  /-- PARTNER_RESTART. The partner restarts during TRAIN (R132). -/
  | partnerRestart (p : Port)
  /-- H2D_SNOOP. A CXL.cache snoop (R375). -/
  | h2dSnoop (h : Head) (addr : BitVec 64)
  /-- LAUNCH_REPLY_TIMEOUT. One second has passed since the launch fired (R408). -/
  | launchReplyTimeout (m : Fin 5)
deriving DecidableEq, Repr

end Sys2Proof
end

