-- ==== Sys2Proof/Decode.lean ====
section
/-!
DEFINITION. Decoding. The block takes commands, not instruction words: spec/opcode_table.json gives no row any bits, so no
word spells a command.
-/
namespace Sys2Proof

/-- The command that a word of the table's bits spells: none, for the table gives no row any bits. -/
def decodeTableWord (_nbits _w : Nat) : Option Instr := none

end Sys2Proof
end

