-- ==== Sys2Proof/Config.lean ====
section
/-!
DEFINITION. What one part fixes and the spec leaves open: the free values (opaque constants without a body), and the
two cryptographic functions that the spec takes from their own standards.
-/
namespace Sys2Proof.Config

/-- A value that the spec calls undefined or does not state, after which the device goes on: the n-th such value of a
run. Nothing is known of it (log entry 1). -/
opaque freeWord : Nat → Word

/-- Byte i of the n-th memory content that the spec leaves undefined (a failed program or erase, a copy cut short). Nothing
is known of it (log entry 1). -/
opaque freeByte : Nat → Nat → Byte

/-- The vendor identifier that GLB.VENDOR shows: assigned, and given in no file (R3; log entry 4). -/
opaque vendorId : BitVec 16

/-- The OTP unique identifier (R279, R543; log entry 4). -/
opaque uid : BitVec 64

/-- The OTP trim that CAL.BANDGAP shows (log entry 4). -/
opaque bandgap : BitVec 16

/-- The firmware version that GET_INFO returns for a firmware generation (R407): its form is not stated (log entry 5). -/
opaque fwVersion : Nat → Word

/-- How START_FAIL's word 1 [7:0] holds the two counts of failed starts, cold and warm (R499): their places are not stated
(log entry 6). -/
opaque failCounts : Nat → Nat → BitVec 8

/-- The 256 bits behind bit 0 of an X50 block with control characters (R162), by what it holds: the places of its characters
are not stated (log entry 166). -/
opaque pcsControl : Nat → Nat → Nat

/-- The 30 parity symbols of an RS(544,514) message (R162): the field and the generator are not stated (log entry 166). -/
opaque rsParity : Nat → Nat

/-- SHA-384 of a byte string, as 48 bytes (R89, R91). The spec names the function and takes it from its own standard
(log entry 2). -/
opaque sha384 : List Byte → List Byte

/-- ECDSA P-384 verification (R90): public key, digest, signature. Taken from its own standard (log entry 2). -/
opaque ecdsaVerify : List Byte → List Byte → List Byte → Bool

end Sys2Proof.Config
end

