-- ==== Sys2Proof/Machine/RegTable.lean ====
section
/-!
DEFINITION. The register tables of the device register space, row by row as the register tables of the chapters of
spec/ give them: name, block offset, strides, words, owner class (R48) and fields with their access codes (R49-R76).
A reset entry that the spec derives from the mould, a strap, the OTP or the boot header stands as 0 here and is
written when that source is put in force.
-/
namespace Sys2Proof.Machine

/-- The access codes of R52 to R66. -/
inductive Acc where | ro | rw | rv | ws | sq | lv
deriving DecidableEq, Repr

/-- The owner classes of R48; `mch` is the owner of a management DMA channel: firmware for channels 0 to 7, steward
for channels 8 to 15 (chapter 14, MDMA registers). -/
inductive Owner where | firmware | steward | head | keeper | mch
deriving DecidableEq, Repr

/-- One field of one 32-bit word of a register: bits, access code, whether it is triplicated (R70), reset value. -/
structure FieldRow where
  hi : Nat
  lo : Nat
  acc : Acc
  tv : Bool
  reset : Nat
deriving DecidableEq, Repr

/-- The registers of the map, one name per register table of spec/. -/
inductive RegId where
  | GLB_ID | GLB_VENDOR | GLB_LIFECYCLE | GLB_STRAPS | GLB_MODE | GLB_LIFECYCLE_CTL | GLB_COMMIT | GLB_COMMIT_STAT
  | GLB_EVENT | GLB_EVENT_MASK | GLB_SUMMARY | PWR_MODE_REQ | PWR_MODE_STAT | PWR_HOST_REQ | PWR_KEEPER_REQ
  | PWR_VOTES | PWR_WAKE_LATCH | PWR_RET_STATUS | PWR_DOM_REQ | PWR_DOM_STAT | PWR_DOM_PEND | PWR_DOM_FORCE
  | PWR_STBY_OFF | PWR_POLICY | PWR_AVS_STAT | PWR_EVENT | PWR_EVENT_MASK | CLK_READY | CLK_SEL_CORE | CLK_SEL_LINE
  | CLK_RLOOP_STAT | CLK_REF_LOST | CLK_SWITCH_FORCED | CLK_SW_STAT | CLK_PLL_EN | CLK_GATE | CLK_EVENT
  | CLK_EVENT_MASK | RST_CAUSE | RST_CHIP | RST_BLOCK | RST_BLOCK_STAT | RST_COUNT | RST_EVENT | RST_EVENT_MASK
  | FLT_STAT | FLT_LOG_STAT | FLT_LOG_CTL | FLT_FIRST | FLT_IRQ_CFG | FLT_IRQ_REARM | FLT_WDOG_CFG | FLT_WDOG_KICK
  | FLT_WDOG_STAT | FLT_CHK_CTL | FLT_CHK_STAT | FLT_MBIST_CTL | FLT_MBIST_STAT | FLT_MBIST_FAIL | FLT_REC_NEXT
  | FLT_REC_STAT | FLT_REC_CTL | FLT_THERM | FLT_INJ_CTL | FLT_EVENT | FLT_EVENT_MASK | FLT_REACT | FLT_LOG
  | TB_NOW | TB_NOW64 | TB_STAT | TB_CFG | TB_SET | TB_STEP | TB_ADJ | TB_PPS_CFG | TB_PPS_IN | TB_PPS_IN_OFS
  | TB_EVENT | TB_EVENT_MASK | TB_DOM_STAT | TB_DOM_OFFSET | TB_DOM_RATE | TB_DOM_GM_ID | TB_PORT_ADJ
  | TB_PORT_ROLES | TB_PORT_PDELAY | LCH_LG_CTL | LCH_LG_MASK | LCH_LG_TIME | LCH_LG_STAT | LCH_LG_FIRED_AT
  | LCH_LG_TARGET | LCH_LG_APPLIED | LCH_LG_LATE | LCH_EVENT | LCH_EVENT_MASK | LCH_GCL_CFG_CTRL
  | LCH_GCL_CFG_CYCLE | LCH_GCL_CFG_BASE | LCH_GCL_STAT | LCH_GCL | MLD_STATUS | MLD_ERR_DETAIL | MLD_WARN
  | MLD_ACTIVE_GEN | MLD_ACTIVE_DIGEST | MLD_LOAD_SRC | MLD_LOAD_CTL | MLD_REMOULD_SRC | MLD_REMOULD_CTL
  | MLD_REMOULD_STAT | MLD_ADOPT_CTL | MLD_ADOPT_STAT | MLD_EVENT | MLD_EVENT_MASK | MLD_KEYS | MLD_KEY_PROG_DATA
  | MLD_KEY_PROG_CTL | MLD_GOV_TXEN | MLD_GOV_AMP | MLD_GOV_WAKE | MLD_GOV_TIME | MLD_GOV_STEP
  | MLD_GOV_CLAMP_COUNT | MLD_GOV_WIN_BASE | MLD_GOV_WIN_LIMIT | MLD_GOV_WIN_FLAGS | MLD_GOV_WIN_RSV | FUR_QTR_STAT
  | FUR_QTR_SPARE | FUR_QTR_DEAD | FUR_QTR_STORE | FUR_SELFTEST | FUR_EVENT | FUR_EVENT_MASK | FUR_PSLOT | FUR_PUSE
  | FUR_ADAPT | FUR_RETURN | POT_STAT | POT_ECC | FUR_SLOT | CAL_CFG | CAL_STAT | CAL_ATTIC_GEN | CAL_ATTIC_CTL
  | CAL_BANDGAP | CAL_REJECTS | CAL_EVENT | CAL_EVENT_MASK | CAL_ELEM_SEL | CAL_ELEM_DATA | CAL_PORT_CTL
  | CAL_PORT_STAT | CAL_PORT_QUAL | CAL_PORT_TIME | DIAG_LEDGER_STAT | DIAG_FLASH_BOOK | DIAG_EVENT
  | DIAG_EVENT_MASK | DIAG_TDR_CFG | DIAG_FP_CFG | DIAG_IL_CFG | DIAG_SWEEP_CTL | DIAG_SWEEP_SET_LO
  | DIAG_SWEEP_SET_HI | DIAG_SWEEP_CFG | DIAG_SWEEP_STAT | DIAG_BOOK | DIAG_QUEUE | DIAG_MAP | DIAG_TDR_CTL
  | DIAG_TDR_STAT | DIAG_TDR_EVT | DIAG_IL | DIAG_FP_STAT | DIAG_FP_CTL | MDMA_STAT | MCH_CTL | MCH_DOORBELL
  | MCH_CFG | MCH_HOP_MAX | MCH_FIRST | MCH_CUR | MCH_STAT | MCH_HOPS | MCH_REMAIN | MCH_DONE | MCH_BYTES
  | MCH_IRQ_COUNT | MCH_CMP_OFS | MCH_LAST_BAD | MCH_EVENT | MCH_EVENT_MASK | FSPI_CFG | FSPI_STAT | FSPI_CTL
  | FSPI_FAIL_CFG | FSPI_ERASE_ADDR | FSPI_ERASE_CTL | FSPI_CMDS | FSPI_EVENT | FSPI_EVENT_MASK | HSPI_CFG
  | HSPI_LAST | HSPI_COUNT | HSPI_KEVENT | HSPI_KEVENT_MASK | HSPI_MBX_CTL | HSPI_MBX_STAT | HSPI_MBX_REQ
  | HSPI_MBX_RSP | CEL_CFG | CEL_STAT | CEL_RX_USED | CEL_TX_USED | CEL_HEAD_RX | CEL_HEAD_TX | CEL_QP_MAX
  | CEL_DROPS | CEL_ECC | CEL_EVENT | CEL_EVENT_MASK | PKT_LAT_CFG | PKT_LAT_MINMAX | PKT_LAT_OVER
  | PKT_LAT_MEASURED | PKT_EVENT | PKT_EVENT_MASK | PKT_PORT_DEF | PKT_NOMATCH | PKT_CLS_HIT | PKT_CLS | HEAD_STAT
  | HEAD_LANES | HEAD_ATTACH | HEAD_HB_CFG | HEAD_HB_KICK | HEAD_REQ_CFG | HEAD_REQ_STAT | HEAD_IRQ_CFG
  | HEAD_IRQ_SUM_MASK | HEAD_IRQ_REARM | HEAD_ATC_STAT | HEAD_ATC_CTL | HEAD_MEM_REJ | HEAD_EVENT | HEAD_EVENT_MASK
  | HEAD_MBX_CTL | HEAD_MBX_STAT | HEAD_MBX_REQ | HEAD_MBX_RSP | BND_CFG | BND_MEMBERS_LO | BND_MEMBERS_HI
  | BND_STAT | BND_CTL | BND_EVENT | BND_EVENT_MASK | BND_PAIR_CFG | BND_PAIR_STAT | CANE_CFG | CANE_CTL
  | CANE_STAT | CANE_SKEW_A | CANE_SKEW_B | CANE_EVENT | CANE_EVENT_MASK | CANE_LOSS_FRAMES | CANE_AM_ERR
  | WAKE_CFG | WAKE_IN_CFG | WAKE_DET_EN | WAKE_PENDING | WAKE_CAUSE | WAKE_EVENT | WAKE_EVENT_MASK | WAKE_PARK_DET
  | WAKE_PGROUP | WAKE_TABLE | WAKE_FWD_MASK | WAKE_PCOUNT | AON_MODE | AON_WR_PEND | AON_START_CTL
  | AON_START_STAT | AON_START_CFG | AON_PARK_CFG | AON_SECONDS | AON_ALARM | AON_ALARM_CTL | AON_RET_SEAL
  | AON_FW_GEN | AON_SLCK_CFG | AON_SAFE_STAT | AON_REACT_RESETS | AON_RET_CRC | AON_MOULD_DIGEST | PORT_CTL
  | PORT_STATE | PORT_MODE_CFG | PORT_ADV | PORT_TIMERS | PORT_TIMERS2 | PORT_TX_AMP | PORT_LOCAL_ID
  | PORT_PARTNER_ABIL | PORT_PARTNER_FLAGS | PORT_PARTNER_ID | PORT_PARTNER_REF_ABIL | PORT_PARTNER_REF_FLAGS
  | PORT_PARTNER_REF_ID | PORT_LINK_QUAL | PORT_QUAL_CFG | PORT_MSE_REF | PORT_FEC_CORR | PORT_FEC_UNCORR
  | PORT_DROP_COUNT | PORT_DROP_HIST_IDX | PORT_DROP_HIST | PORT_EVENT | PORT_EVENT_MASK | PORT_MAC_CFG
  | PORT_RX_FRAMES | PORT_RX_BYTES | PORT_RX_FCS_ERR | PORT_RX_RUNT | PORT_RX_OVERSIZE | PORT_RX_ORPHAN_DROP
  | PORT_RX_PAUSE | PORT_TX_FRAMES | PORT_TX_BYTES | PORT_TX_OVERSIZE | PORT_CNT_CTL | PORT_TAP_CTL | PORT_TAP_MAN
  | PORT_TAP_STD | PORT_TAP_ACTIVE | PORT_TAP_STAT | PORT_X50_STAT | PORT_AM_STAT | PORT_TRK_EVENT
  | PORT_TRK_EVENT_MASK | PORT_LOOP_CTL | PORT_LOOP_TIME | PORT_LOOP_STAT | PORT_LOOP_BITS | PORT_LOOP_ERRS
  | PORT_SEG_CFG | PORT_SEG_TIMING | PORT_SEG_STAT | PORT_SEG_CYCLE | PORT_SEG_COLL | PORT_SEG_LATE
  | PORT_SEG_EXCESS | PORT_SEG_CENSUS_CTL | PORT_SEG_CENSUS | PORT_SEG_EVENT | PORT_SEG_EVENT_MASK | PORT_LPI_CFG
  | PORT_LPI_STAT | PORT_LPI_ENTRIES | PORT_LPI_TIME | PORT_TC10_CFG | PORT_TC10_STAT | PORT_TC10_EVENT
  | PORT_TC10_EVENT_MASK | QP_RX_BASE | QP_RX_CFG | QP_RX_CTL | QP_RX_HEAD_IDX | QP_RX_ACK | QP_RX_MOD | QP_RX_STAT
  | QP_RX_STATE | QP_RX_FRAMES | QP_RX_DROPS | QP_RX_BAD | QP_TX_BASE | QP_TX_CFG | QP_TX_CTL | QP_TX_HEAD_IDX
  | QP_TX_ACK | QP_TX_MOD | QP_TX_STAT | QP_TX_STATE | QP_TX_FRAMES | QP_TX_DROPS | QP_TX_BAD | QP_EVENT
  | QP_EVENT_MASK | QP_SUM
deriving DecidableEq, Repr

/-- One register table: its name, the DRS offset of its first instance, strides and counts of its indices, the fields
of each of its words (word 0 first), and its owner class. -/
structure RegRow where
  id : RegId
  base : Nat
  dims : List (Nat × Nat)
  owner : Owner
  words : List (List FieldRow)
deriving DecidableEq, Repr

def rowsGlb : List RegRow := [
  ⟨.GLB_ID, 0x0, [], .firmware,
    [[⟨31, 16, .ro, false, 0x6450⟩, ⟨15, 0, .ro, false, 0xb0⟩]]⟩,
  ⟨.GLB_VENDOR, 0x4, [], .firmware,
    [[⟨31, 16, .ro, false, 0⟩, ⟨15, 0, .ro, false, 0⟩]]⟩,
  ⟨.GLB_LIFECYCLE, 0x8, [], .firmware,
    [[⟨31, 5, .rv, false, 0⟩, ⟨4, 4, .ro, false, 0⟩, ⟨3, 2, .rv, false, 0⟩, ⟨1, 0, .ro, false, 0⟩]]⟩,
  ⟨.GLB_STRAPS, 0xc, [], .firmware,
    [[⟨31, 3, .rv, false, 0⟩, ⟨2, 2, .ro, false, 0⟩, ⟨1, 0, .ro, false, 0⟩]]⟩,
  ⟨.GLB_MODE, 0x10, [], .firmware,
    [[⟨31, 18, .rv, false, 0⟩, ⟨17, 17, .ro, false, 0⟩, ⟨16, 16, .ro, false, 0⟩, ⟨15, 14, .rv, false, 0⟩, ⟨13, 12, .ro, true, 0⟩, ⟨11, 10, .ro, true, 0⟩, ⟨9, 8, .ro, true, 0⟩, ⟨7, 3, .rv, false, 0⟩, ⟨2, 0, .ro, true, 3⟩]]⟩,
  ⟨.GLB_LIFECYCLE_CTL, 0x18, [], .firmware,
    [[⟨31, 16, .rw, false, 0⟩, ⟨15, 10, .rv, false, 0⟩, ⟨9, 8, .ro, false, 0⟩, ⟨7, 3, .rv, false, 0⟩, ⟨2, 2, .rw, false, 0⟩, ⟨1, 0, .rw, false, 0⟩]]⟩,
  ⟨.GLB_COMMIT, 0x20, [], .head,
    [[⟨31, 0, .rw, false, 0⟩]]⟩,
  ⟨.GLB_COMMIT_STAT, 0x24, [], .firmware,
    [[⟨31, 15, .rv, false, 0⟩, ⟨14, 12, .ro, false, 0⟩, ⟨11, 10, .rv, false, 0⟩, ⟨9, 9, .lv, false, 0⟩, ⟨8, 8, .lv, false, 0⟩, ⟨7, 0, .ro, false, 0⟩]]⟩,
  ⟨.GLB_EVENT, 0x30, [], .steward,
    [[⟨31, 24, .sq, false, 0⟩, ⟨23, 4, .rv, false, 0⟩, ⟨3, 3, .sq, false, 0⟩, ⟨2, 2, .sq, false, 0⟩, ⟨1, 1, .sq, false, 0⟩, ⟨0, 0, .sq, false, 0⟩]]⟩,
  ⟨.GLB_EVENT_MASK, 0x34, [], .steward,
    [[⟨31, 4, .rv, false, 0⟩, ⟨3, 0, .rw, false, 0xe⟩]]⟩,
  ⟨.GLB_SUMMARY, 0x40, [], .firmware,
    [[⟨31, 23, .rv, false, 0⟩, ⟨22, 22, .lv, false, 0⟩, ⟨21, 21, .lv, false, 0⟩, ⟨20, 20, .lv, false, 0⟩, ⟨19, 0, .lv, false, 0⟩]]⟩]

def rowsPwr : List RegRow := [
  ⟨.PWR_MODE_REQ, 0x10000, [], .firmware,
    [[⟨31, 3, .rv, false, 0⟩, ⟨2, 0, .rw, true, 0⟩]]⟩,
  ⟨.PWR_MODE_STAT, 0x10004, [], .firmware,
    [[⟨31, 24, .rv, false, 0⟩, ⟨23, 16, .ro, false, 0⟩, ⟨15, 10, .rv, false, 0⟩, ⟨9, 8, .ro, false, 0⟩, ⟨7, 3, .rv, false, 0⟩, ⟨2, 0, .lv, false, 0⟩]]⟩,
  ⟨.PWR_HOST_REQ, 0x10008, [], .steward,
    [[⟨31, 3, .rv, false, 0⟩, ⟨2, 0, .rw, false, 4⟩]]⟩,
  ⟨.PWR_KEEPER_REQ, 0x1000c, [], .keeper,
    [[⟨31, 9, .rv, false, 0⟩, ⟨8, 8, .rw, false, 0⟩, ⟨7, 3, .rv, false, 0⟩, ⟨2, 0, .rw, false, 4⟩]]⟩,
  ⟨.PWR_VOTES, 0x10010, [], .firmware,
    [[⟨31, 29, .ro, false, 4⟩, ⟨28, 28, .ro, false, 0⟩, ⟨27, 27, .rv, false, 0⟩, ⟨26, 24, .ro, false, 4⟩, ⟨23, 16, .rv, false, 0⟩, ⟨15, 0, .ro, false, 0⟩]]⟩,
  ⟨.PWR_WAKE_LATCH, 0x10014, [], .firmware,
    [[⟨31, 31, .ro, false, 0⟩, ⟨30, 28, .ro, false, 0⟩, ⟨27, 14, .rv, false, 0⟩, ⟨13, 8, .ro, false, 0⟩, ⟨7, 0, .ro, false, 0⟩]]⟩,
  ⟨.PWR_RET_STATUS, 0x10018, [], .firmware,
    [[⟨31, 16, .ro, false, 0⟩, ⟨15, 0, .ro, false, 0⟩]]⟩,
  ⟨.PWR_DOM_REQ, 0x10020, [], .steward,
    [[⟨31, 24, .rv, false, 0⟩, ⟨23, 0, .rw, false, 0⟩]]⟩,
  ⟨.PWR_DOM_STAT, 0x10024, [], .firmware,
    [[⟨31, 24, .rv, false, 0⟩, ⟨23, 0, .lv, false, 0⟩]]⟩,
  ⟨.PWR_DOM_PEND, 0x10028, [], .firmware,
    [[⟨31, 24, .rv, false, 0⟩, ⟨23, 0, .lv, false, 0⟩]]⟩,
  ⟨.PWR_DOM_FORCE, 0x1002c, [], .steward,
    [[⟨31, 24, .rv, false, 0⟩, ⟨23, 0, .rw, false, 0⟩]]⟩,
  ⟨.PWR_STBY_OFF, 0x10030, [], .steward,
    [[⟨31, 24, .rv, false, 0⟩, ⟨23, 0, .rw, false, 0x3fffff⟩]]⟩,
  ⟨.PWR_POLICY, 0x10034, [], .steward,
    [[⟨31, 8, .rv, false, 0⟩, ⟨7, 0, .rw, false, 5⟩]]⟩,
  ⟨.PWR_AVS_STAT, 0x10040, [], .firmware,
    [[⟨31, 31, .lv, false, 0⟩, ⟨30, 30, .lv, false, 0⟩, ⟨29, 10, .rv, false, 0⟩, ⟨9, 0, .ro, false, 0x2ee⟩]]⟩,
  ⟨.PWR_EVENT, 0x100f0, [], .steward,
    [[⟨31, 24, .sq, false, 0⟩, ⟨23, 7, .rv, false, 0⟩, ⟨6, 6, .sq, false, 0⟩, ⟨5, 5, .sq, false, 0⟩, ⟨4, 4, .sq, false, 0⟩, ⟨3, 3, .sq, false, 0⟩, ⟨2, 2, .sq, false, 0⟩, ⟨1, 1, .sq, false, 0⟩, ⟨0, 0, .sq, false, 0⟩]]⟩,
  ⟨.PWR_EVENT_MASK, 0x100f4, [], .steward,
    [[⟨31, 7, .rv, false, 0⟩, ⟨6, 0, .rw, false, 0x7f⟩]]⟩]

def rowsClk : List RegRow := [
  ⟨.CLK_READY, 0x20000, [], .firmware,
    [[⟨31, 12, .rv, false, 0⟩, ⟨11, 0, .lv, false, 0⟩]]⟩,
  ⟨.CLK_SEL_CORE, 0x20004, [], .firmware,
    [[⟨31, 2, .rv, false, 0⟩, ⟨1, 1, .rw, true, 0⟩, ⟨0, 0, .rw, true, 0⟩]]⟩,
  ⟨.CLK_SEL_LINE, 0x20008, [], .steward,
    [[⟨31, 10, .rv, false, 0⟩, ⟨9, 8, .rw, false, 0⟩, ⟨7, 1, .rv, false, 0⟩, ⟨0, 0, .rw, true, 0⟩]]⟩,
  ⟨.CLK_RLOOP_STAT, 0x2000c, [], .firmware,
    [[⟨31, 30, .ro, false, 0⟩, ⟨29, 16, .rv, false, 0⟩, ⟨15, 0, .ro, false, 0⟩]]⟩,
  ⟨.CLK_REF_LOST, 0x20010, [], .firmware,
    [[⟨31, 1, .rv, false, 0⟩, ⟨0, 0, .lv, false, 0⟩]]⟩,
  ⟨.CLK_SWITCH_FORCED, 0x20014, [], .firmware,
    [[⟨31, 2, .rv, false, 0⟩, ⟨1, 1, .ro, false, 0⟩, ⟨0, 0, .ro, false, 0⟩]]⟩,
  ⟨.CLK_SW_STAT, 0x20018, [], .firmware,
    [[⟨31, 12, .rv, false, 0⟩, ⟨11, 8, .ro, false, 0⟩, ⟨7, 3, .rv, false, 0⟩, ⟨2, 0, .ro, false, 0⟩]]⟩,
  ⟨.CLK_PLL_EN, 0x20020, [], .firmware,
    [[⟨31, 12, .rv, false, 0⟩, ⟨11, 4, .rw, false, 0⟩, ⟨3, 0, .rv, false, 0⟩]]⟩,
  ⟨.CLK_GATE, 0x20030, [], .firmware,
    [[⟨31, 21, .rv, false, 0⟩, ⟨20, 0, .rw, false, 0⟩]]⟩,
  ⟨.CLK_EVENT, 0x200f0, [], .steward,
    [[⟨31, 24, .sq, false, 0⟩, ⟨23, 7, .rv, false, 0⟩, ⟨6, 6, .sq, false, 0⟩, ⟨5, 5, .sq, false, 0⟩, ⟨4, 4, .sq, false, 0⟩, ⟨3, 3, .sq, false, 0⟩, ⟨2, 2, .sq, false, 0⟩, ⟨1, 1, .sq, false, 0⟩, ⟨0, 0, .sq, false, 0⟩]]⟩,
  ⟨.CLK_EVENT_MASK, 0x200f4, [], .steward,
    [[⟨31, 7, .rv, false, 0⟩, ⟨6, 0, .rw, false, 0x7f⟩]]⟩]

def rowsRst : List RegRow := [
  ⟨.RST_CAUSE, 0x30000, [], .firmware,
    [[⟨31, 24, .rv, false, 0⟩, ⟨23, 16, .ro, false, 0⟩, ⟨15, 8, .rv, false, 0⟩, ⟨7, 7, .ro, false, 0⟩, ⟨6, 4, .rv, false, 0⟩, ⟨3, 0, .ro, false, 0⟩]]⟩,
  ⟨.RST_CHIP, 0x30004, [], .steward,
    [[⟨31, 16, .rv, false, 0⟩, ⟨15, 8, .rw, false, 0⟩, ⟨7, 1, .rv, false, 0⟩, ⟨0, 0, .rw, false, 0⟩]]⟩,
  ⟨.RST_BLOCK, 0x30008, [], .firmware,
    [[⟨31, 31, .rw, false, 0⟩, ⟨30, 7, .rv, false, 0⟩, ⟨6, 0, .rw, false, 0⟩]]⟩,
  ⟨.RST_BLOCK_STAT, 0x3000c, [], .firmware,
    [[⟨31, 10, .rv, false, 0⟩, ⟨9, 9, .lv, false, 0⟩, ⟨8, 8, .ro, false, 0⟩, ⟨7, 7, .rv, false, 0⟩, ⟨6, 0, .ro, false, 0⟩]]⟩,
  ⟨.RST_COUNT, 0x30010, [], .firmware,
    [[⟨31, 24, .rv, false, 0⟩, ⟨23, 16, .ro, false, 0⟩, ⟨15, 8, .ro, false, 0⟩, ⟨7, 0, .ro, false, 0⟩]]⟩,
  ⟨.RST_EVENT, 0x300f0, [], .steward,
    [[⟨31, 24, .sq, false, 0⟩, ⟨23, 2, .rv, false, 0⟩, ⟨1, 1, .sq, false, 0⟩, ⟨0, 0, .sq, false, 0⟩]]⟩,
  ⟨.RST_EVENT_MASK, 0x300f4, [], .steward,
    [[⟨31, 2, .rv, false, 0⟩, ⟨1, 0, .rw, false, 3⟩]]⟩]

def rowsFlt : List RegRow := [
  ⟨.FLT_STAT, 0x40000, [], .firmware,
    [[⟨31, 31, .lv, false, 0⟩, ⟨30, 28, .ro, false, 0⟩, ⟨27, 24, .ro, false, 0⟩, ⟨23, 23, .ro, false, 0⟩, ⟨22, 16, .rv, false, 0⟩, ⟨15, 0, .ro, false, 0⟩]]⟩,
  ⟨.FLT_LOG_STAT, 0x40004, [], .firmware,
    [[⟨31, 31, .ro, false, 0⟩, ⟨30, 25, .rv, false, 0⟩, ⟨24, 16, .ro, false, 0⟩, ⟨15, 0, .ro, false, 0⟩]]⟩,
  ⟨.FLT_LOG_CTL, 0x40008, [], .steward,
    [[⟨31, 1, .rv, false, 0⟩, ⟨0, 0, .rw, false, 0⟩]]⟩,
  ⟨.FLT_FIRST, 0x40010, [], .firmware,
    List.replicate 4 [⟨31, 0, .ro, false, 0⟩]⟩,
  ⟨.FLT_IRQ_CFG, 0x40020, [], .steward,
    [[⟨31, 9, .rv, false, 0⟩, ⟨8, 0, .rw, false, 0⟩]]⟩,
  ⟨.FLT_IRQ_REARM, 0x40024, [], .steward,
    [[⟨31, 1, .rv, false, 0⟩, ⟨0, 0, .rw, false, 0⟩]]⟩,
  ⟨.FLT_WDOG_CFG, 0x40030, [], .firmware,
    [[⟨31, 31, .rw, false, 0⟩, ⟨30, 16, .rv, false, 0⟩, ⟨15, 0, .rw, false, 0x64⟩]]⟩,
  ⟨.FLT_WDOG_KICK, 0x40034, [], .firmware,
    [[⟨31, 16, .rv, false, 0⟩, ⟨15, 0, .rw, false, 0⟩]]⟩,
  ⟨.FLT_WDOG_STAT, 0x40038, [], .firmware,
    [[⟨31, 31, .lv, false, 0⟩, ⟨30, 16, .rv, false, 0⟩, ⟨15, 0, .ro, false, 0x64⟩]]⟩,
  ⟨.FLT_CHK_CTL, 0x40040, [], .steward,
    [[⟨31, 25, .rv, false, 0⟩, ⟨24, 24, .rw, false, 0⟩, ⟨23, 16, .rw, false, 0x64⟩, ⟨15, 8, .rw, false, 1⟩, ⟨7, 0, .rw, false, 0⟩]]⟩,
  ⟨.FLT_CHK_STAT, 0x40044, [], .firmware,
    [[⟨31, 30, .lv, false, 0⟩, ⟨29, 27, .ro, false, 0⟩, ⟨26, 16, .rv, false, 0⟩, ⟨15, 8, .ro, false, 0⟩, ⟨7, 0, .ro, false, 0⟩]]⟩,
  ⟨.FLT_MBIST_CTL, 0x40050, [], .steward,
    [[⟨31, 3, .rv, false, 0⟩, ⟨2, 2, .rw, false, 0⟩, ⟨1, 1, .rw, false, 0⟩, ⟨0, 0, .rw, false, 0⟩]]⟩,
  ⟨.FLT_MBIST_STAT, 0x40054, [], .firmware,
    [[⟨31, 14, .ro, false, 0⟩, ⟨13, 11, .rv, false, 0⟩, ⟨10, 8, .ro, false, 0⟩, ⟨7, 3, .rv, false, 0⟩, ⟨2, 0, .lv, false, 0⟩]]⟩,
  ⟨.FLT_MBIST_FAIL, 0x40058, [], .firmware,
    [[⟨31, 18, .rv, false, 0⟩, ⟨17, 0, .ro, false, 0⟩]]⟩,
  ⟨.FLT_REC_NEXT, 0x40060, [], .firmware,
    [[⟨31, 6, .rv, false, 0⟩, ⟨5, 0, .rw, false, 0⟩]]⟩,
  ⟨.FLT_REC_STAT, 0x40064, [], .firmware,
    [[⟨31, 31, .ro, false, 0⟩, ⟨30, 28, .rv, false, 0⟩, ⟨27, 24, .ro, false, 0⟩, ⟨23, 16, .ro, false, 0⟩, ⟨15, 0, .ro, false, 0⟩]]⟩,
  ⟨.FLT_REC_CTL, 0x40068, [], .firmware,
    [[⟨31, 1, .rv, false, 0⟩, ⟨0, 0, .rw, false, 0⟩]]⟩,
  ⟨.FLT_THERM, 0x40070, [], .firmware,
    [[⟨31, 19, .rv, false, 0⟩, ⟨18, 16, .ro, false, 0⟩, ⟨15, 8, .ro, false, 0⟩, ⟨7, 0, .ro, false, 0⟩]]⟩,
  ⟨.FLT_INJ_CTL, 0x40080, [], .firmware,
    [[⟨31, 25, .rv, false, 0⟩, ⟨24, 24, .rw, false, 0⟩, ⟨23, 17, .rv, false, 0⟩, ⟨16, 16, .rw, false, 0⟩, ⟨15, 8, .rw, false, 0⟩, ⟨7, 0, .rw, false, 0⟩]]⟩,
  ⟨.FLT_EVENT, 0x400f0, [], .steward,
    [[⟨31, 24, .sq, false, 0⟩, ⟨23, 6, .rv, false, 0⟩, ⟨5, 5, .sq, false, 0⟩, ⟨4, 4, .sq, false, 0⟩, ⟨3, 3, .sq, false, 0⟩, ⟨2, 2, .sq, false, 0⟩, ⟨1, 1, .sq, false, 0⟩, ⟨0, 0, .sq, false, 0⟩]]⟩,
  ⟨.FLT_EVENT_MASK, 0x400f4, [], .steward,
    [[⟨31, 6, .rv, false, 0⟩, ⟨5, 0, .rw, false, 0x3f⟩]]⟩,
  ⟨.FLT_REACT, 0x40400, [(0x4, 128)], .firmware,
    [[⟨31, 0, .ro, true, 0⟩]]⟩,
  ⟨.FLT_LOG, 0x42000, [(0x20, 512)], .firmware,
    [[⟨31, 0, .ro, false, 0⟩], [⟨31, 0, .ro, false, 0⟩], [⟨31, 0, .ro, false, 0⟩], [⟨31, 0, .ro, false, 0⟩], [⟨31, 16, .rv, false, 0⟩, ⟨15, 0, .ro, false, 0⟩], [⟨31, 31, .ro, false, 0⟩, ⟨30, 20, .rv, false, 0⟩, ⟨19, 0, .ro, false, 0⟩], [⟨31, 0, .rv, false, 0⟩], [⟨31, 0, .rv, false, 0⟩]]⟩]

def rowsTb : List RegRow := [
  ⟨.TB_NOW, 0x50000, [], .firmware,
    [[⟨31, 16, .rv, false, 0⟩, ⟨15, 0, .ro, false, 0⟩], [⟨31, 0, .ro, false, 0⟩], [⟨31, 0, .ro, false, 0⟩], [⟨31, 16, .rv, false, 0⟩, ⟨15, 0, .ro, false, 0⟩]]⟩,
  ⟨.TB_NOW64, 0x50010, [], .firmware,
    List.replicate 2 [⟨31, 0, .ro, false, 0⟩]⟩,
  ⟨.TB_STAT, 0x50020, [], .firmware,
    [[⟨31, 26, .ro, false, 0⟩, ⟨25, 25, .ro, false, 0⟩, ⟨24, 9, .rv, false, 0⟩, ⟨8, 8, .ro, false, 0⟩, ⟨7, 3, .rv, false, 0⟩, ⟨2, 0, .ro, false, 0⟩]]⟩,
  ⟨.TB_CFG, 0x50024, [], .steward,
    [[⟨31, 24, .rw, false, 0⟩, ⟨23, 10, .rv, false, 0⟩, ⟨9, 8, .ro, false, 0⟩, ⟨7, 2, .rv, false, 0⟩, ⟨1, 1, .rw, false, 0⟩, ⟨0, 0, .ro, false, 0⟩]]⟩,
  ⟨.TB_SET, 0x50030, [], .steward,
    [[⟨31, 16, .rv, false, 0⟩, ⟨15, 0, .rw, false, 0⟩], [⟨31, 0, .rw, false, 0⟩], [⟨31, 0, .rw, false, 0⟩], [⟨31, 16, .rv, false, 0⟩, ⟨15, 0, .rw, false, 0⟩]]⟩,
  ⟨.TB_STEP, 0x50040, [], .steward,
    [[⟨31, 0, .rw, false, 0⟩]]⟩,
  ⟨.TB_ADJ, 0x50044, [], .steward,
    [[⟨31, 0, .rw, false, 0⟩]]⟩,
  ⟨.TB_PPS_CFG, 0x50050, [], .steward,
    [[⟨31, 16, .rv, false, 0⟩, ⟨15, 4, .rw, false, 0x64⟩, ⟨3, 2, .rv, false, 0⟩, ⟨1, 1, .rw, false, 0⟩, ⟨0, 0, .rw, false, 0⟩]]⟩,
  ⟨.TB_PPS_IN, 0x50058, [], .firmware,
    List.replicate 2 [⟨31, 0, .ro, false, 0⟩]⟩,
  ⟨.TB_PPS_IN_OFS, 0x50060, [], .firmware,
    [[⟨31, 0, .ro, false, 0⟩]]⟩,
  ⟨.TB_EVENT, 0x500f0, [], .steward,
    [[⟨31, 24, .sq, false, 0⟩, ⟨23, 9, .rv, false, 0⟩, ⟨8, 8, .sq, false, 0⟩, ⟨7, 7, .sq, false, 0⟩, ⟨6, 6, .sq, false, 0⟩, ⟨5, 5, .sq, false, 0⟩, ⟨4, 4, .sq, false, 0⟩, ⟨3, 3, .sq, false, 0⟩, ⟨2, 2, .sq, false, 0⟩, ⟨1, 1, .sq, false, 0⟩, ⟨0, 0, .sq, false, 0⟩]]⟩,
  ⟨.TB_EVENT_MASK, 0x500f4, [], .steward,
    [[⟨31, 9, .rv, false, 0⟩, ⟨8, 0, .rw, false, 0x1ff⟩]]⟩,
  ⟨.TB_DOM_STAT, 0x50100, [(0x20, 4)], .firmware,
    [[⟨31, 31, .ro, false, 0⟩, ⟨30, 30, .lv, false, 0⟩, ⟨29, 28, .ro, false, 0⟩, ⟨27, 23, .rv, false, 0⟩, ⟨22, 16, .ro, false, 0⟩, ⟨15, 8, .ro, false, 0⟩, ⟨7, 7, .rv, false, 0⟩, ⟨6, 6, .ro, false, 0⟩, ⟨5, 0, .ro, false, 0⟩]]⟩,
  ⟨.TB_DOM_OFFSET, 0x50108, [(0x20, 4)], .firmware,
    List.replicate 2 [⟨31, 0, .ro, false, 0⟩]⟩,
  ⟨.TB_DOM_RATE, 0x50110, [(0x20, 4)], .firmware,
    [[⟨31, 0, .ro, false, 0⟩]]⟩,
  ⟨.TB_DOM_GM_ID, 0x50118, [(0x20, 4)], .firmware,
    List.replicate 2 [⟨31, 0, .ro, false, 0⟩]⟩,
  ⟨.TB_PORT_ADJ, 0x51000, [(0x10, 64)], .steward,
    [[⟨31, 16, .rw, false, 0⟩, ⟨15, 0, .rw, false, 0⟩]]⟩,
  ⟨.TB_PORT_ROLES, 0x51004, [(0x10, 64)], .firmware,
    [[⟨31, 8, .rv, false, 0⟩, ⟨7, 0, .ro, false, 0⟩]]⟩,
  ⟨.TB_PORT_PDELAY, 0x51008, [(0x10, 64)], .firmware,
    [[⟨31, 31, .ro, false, 0⟩, ⟨30, 0, .ro, false, 0⟩]]⟩]

def rowsLch : List RegRow := [
  ⟨.LCH_LG_CTL, 0x60000, [(0x80, 16)], .steward,
    [[⟨31, 15, .rv, false, 0⟩, ⟨14, 12, .ro, false, 0⟩, ⟨11, 9, .rv, false, 0⟩, ⟨8, 8, .rw, false, 0⟩, ⟨7, 7, .rv, false, 0⟩, ⟨6, 6, .rw, false, 0⟩, ⟨5, 4, .rw, false, 0⟩, ⟨3, 2, .rv, false, 0⟩, ⟨1, 1, .rw, false, 0⟩, ⟨0, 0, .rw, false, 0⟩]]⟩,
  ⟨.LCH_LG_MASK, 0x60004, [(0x80, 16)], .steward,
    [[⟨31, 0, .rw, false, 0⟩]]⟩,
  ⟨.LCH_LG_TIME, 0x60010, [(0x80, 16)], .steward,
    [[⟨31, 16, .rv, false, 0⟩, ⟨15, 0, .rw, false, 0⟩], [⟨31, 0, .rw, false, 0⟩], [⟨31, 0, .rw, false, 0⟩], [⟨31, 16, .rv, false, 0⟩, ⟨15, 0, .rw, false, 0⟩]]⟩,
  ⟨.LCH_LG_STAT, 0x60020, [(0x80, 16)], .firmware,
    [[⟨31, 24, .ro, false, 0⟩, ⟨23, 16, .ro, false, 0⟩, ⟨15, 9, .rv, false, 0⟩, ⟨8, 8, .ro, false, 0⟩, ⟨7, 3, .rv, false, 0⟩, ⟨2, 0, .lv, false, 0⟩]]⟩,
  ⟨.LCH_LG_FIRED_AT, 0x60028, [(0x80, 16)], .firmware,
    List.replicate 2 [⟨31, 0, .ro, false, 0⟩]⟩,
  ⟨.LCH_LG_TARGET, 0x60030, [(0x80, 16)], .firmware,
    List.replicate 4 [⟨31, 0, .lv, false, 0⟩]⟩,
  ⟨.LCH_LG_APPLIED, 0x60040, [(0x80, 16)], .firmware,
    List.replicate 4 [⟨31, 0, .lv, false, 0⟩]⟩,
  ⟨.LCH_LG_LATE, 0x60050, [(0x80, 16)], .firmware,
    List.replicate 4 [⟨31, 0, .ro, false, 0⟩]⟩,
  ⟨.LCH_EVENT, 0x60800, [], .steward,
    [[⟨31, 24, .sq, false, 0⟩, ⟨23, 6, .rv, false, 0⟩, ⟨5, 5, .sq, false, 0⟩, ⟨4, 4, .sq, false, 0⟩, ⟨3, 3, .sq, false, 0⟩, ⟨2, 2, .sq, false, 0⟩, ⟨1, 1, .sq, false, 0⟩, ⟨0, 0, .sq, false, 0⟩]]⟩,
  ⟨.LCH_EVENT_MASK, 0x60804, [], .steward,
    [[⟨31, 6, .rv, false, 0⟩, ⟨5, 0, .rw, false, 0x3f⟩]]⟩,
  ⟨.LCH_GCL_CFG_CTRL, 0x61000, [(0x20, 64)], .steward,
    [[⟨31, 15, .rv, false, 0⟩, ⟨14, 8, .ws, false, 1⟩, ⟨7, 7, .rv, false, 0⟩, ⟨6, 4, .ws, false, 6⟩, ⟨3, 1, .rv, false, 0⟩, ⟨0, 0, .ws, false, 0⟩]]⟩,
  ⟨.LCH_GCL_CFG_CYCLE, 0x61004, [(0x20, 64)], .steward,
    [[⟨31, 0, .ws, false, 0⟩]]⟩,
  ⟨.LCH_GCL_CFG_BASE, 0x61008, [(0x20, 64)], .steward,
    [[⟨31, 0, .ws, false, 0⟩], [⟨31, 0, .ws, false, 0⟩], [⟨31, 16, .rv, false, 0⟩, ⟨15, 0, .ws, false, 0⟩]]⟩,
  ⟨.LCH_GCL_STAT, 0x61014, [(0x20, 64)], .firmware,
    [[⟨31, 16, .ro, false, 0⟩, ⟨15, 14, .rv, false, 0⟩, ⟨13, 8, .ro, false, 0⟩, ⟨7, 1, .rv, false, 0⟩, ⟨0, 0, .lv, false, 0⟩]]⟩,
  ⟨.LCH_GCL, 0x62000, [(0x100, 64), (0x4, 64)], .steward,
    [[⟨31, 24, .ws, false, 0⟩, ⟨23, 0, .ws, false, 0⟩]]⟩]

def rowsMld0 : List RegRow := [
  ⟨.MLD_STATUS, 0x70000, [], .firmware,
    [[⟨31, 19, .rv, false, 0⟩, ⟨18, 16, .ro, false, 0⟩, ⟨15, 14, .rv, false, 0⟩, ⟨13, 8, .ro, false, 0⟩, ⟨7, 3, .rv, false, 0⟩, ⟨2, 0, .lv, false, 0⟩]]⟩,
  ⟨.MLD_ERR_DETAIL, 0x70004, [], .firmware,
    [[⟨31, 16, .ro, false, 0⟩, ⟨15, 0, .ro, false, 0⟩]]⟩,
  ⟨.MLD_WARN, 0x70008, [], .firmware,
    [[⟨31, 4, .rv, false, 0⟩, ⟨3, 0, .ro, false, 0⟩]]⟩,
  ⟨.MLD_ACTIVE_GEN, 0x7000c, [], .firmware,
    List.replicate 2 [⟨31, 0, .ro, false, 0⟩]⟩,
  ⟨.MLD_ACTIVE_DIGEST, 0x70020, [], .firmware,
    List.replicate 12 [⟨31, 0, .ro, false, 0⟩]⟩,
  ⟨.MLD_LOAD_SRC, 0x70050, [], .steward,
    List.replicate 2 [⟨31, 0, .rw, false, 0⟩]⟩,
  ⟨.MLD_LOAD_CTL, 0x70058, [], .steward,
    [[⟨31, 3, .rv, false, 0⟩, ⟨2, 1, .rw, false, 0⟩, ⟨0, 0, .rw, false, 0⟩]]⟩,
  ⟨.MLD_REMOULD_SRC, 0x70060, [], .steward,
    List.replicate 2 [⟨31, 0, .rw, false, 0⟩]⟩,
  ⟨.MLD_REMOULD_CTL, 0x70068, [], .steward,
    [[⟨31, 24, .rv, false, 0⟩, ⟨23, 16, .rw, false, 0xa⟩, ⟨15, 13, .rv, false, 0⟩, ⟨12, 8, .rw, false, 0⟩, ⟨7, 3, .rv, false, 0⟩, ⟨2, 2, .rw, false, 0⟩, ⟨1, 1, .rw, false, 0⟩, ⟨0, 0, .rw, false, 0⟩]]⟩,
  ⟨.MLD_REMOULD_STAT, 0x7006c, [], .firmware,
    [[⟨31, 14, .rv, false, 0⟩, ⟨13, 8, .ro, false, 0⟩, ⟨7, 3, .rv, false, 0⟩, ⟨2, 0, .lv, false, 0⟩]]⟩,
  ⟨.MLD_ADOPT_CTL, 0x70070, [], .steward,
    [[⟨31, 2, .rv, false, 0⟩, ⟨1, 1, .rw, false, 0⟩, ⟨0, 0, .rw, false, 0⟩]]⟩,
  ⟨.MLD_ADOPT_STAT, 0x70074, [], .firmware,
    [[⟨31, 20, .rv, false, 0⟩, ⟨19, 16, .lv, false, 0⟩, ⟨15, 14, .rv, false, 0⟩, ⟨13, 8, .ro, false, 0⟩, ⟨7, 3, .rv, false, 0⟩, ⟨2, 0, .lv, false, 0⟩]]⟩,
  ⟨.MLD_EVENT, 0x70080, [], .steward,
    [[⟨31, 24, .sq, false, 0⟩, ⟨23, 6, .rv, false, 0⟩, ⟨5, 5, .sq, false, 0⟩, ⟨4, 4, .sq, false, 0⟩, ⟨3, 3, .sq, false, 0⟩, ⟨2, 2, .sq, false, 0⟩, ⟨1, 1, .sq, false, 0⟩, ⟨0, 0, .sq, false, 0⟩]]⟩,
  ⟨.MLD_EVENT_MASK, 0x70084, [], .steward,
    [[⟨31, 6, .rv, false, 0⟩, ⟨5, 0, .rw, false, 0x3f⟩]]⟩,
  ⟨.MLD_KEYS, 0x70090, [], .firmware,
    [[⟨31, 10, .rv, false, 0⟩, ⟨9, 8, .ro, false, 0⟩, ⟨7, 4, .ro, false, 0⟩, ⟨3, 0, .ro, false, 0⟩]]⟩,
  ⟨.MLD_KEY_PROG_DATA, 0x700a0, [], .firmware,
    List.replicate 12 [⟨31, 0, .rw, false, 0⟩]⟩,
  ⟨.MLD_KEY_PROG_CTL, 0x700d0, [], .firmware,
    [[⟨31, 10, .rv, false, 0⟩, ⟨9, 8, .ro, false, 0⟩, ⟨7, 3, .rv, false, 0⟩, ⟨2, 1, .rw, false, 0⟩, ⟨0, 0, .rw, false, 0⟩]]⟩,
  ⟨.MLD_GOV_TXEN, 0x70100, [], .firmware,
    List.replicate 2 [⟨31, 0, .ro, true, 0⟩]⟩,
  ⟨.MLD_GOV_AMP, 0x70200, [(0x4, 64)], .firmware,
    [[⟨31, 10, .rv, false, 0⟩, ⟨9, 0, .ro, true, 0⟩]]⟩,
  ⟨.MLD_GOV_WAKE, 0x70300, [], .firmware,
    [[⟨31, 14, .rv, false, 0⟩, ⟨13, 0, .ro, true, 0⟩]]⟩,
  ⟨.MLD_GOV_TIME, 0x70304, [], .firmware,
    [[⟨31, 24, .ro, true, 0⟩, ⟨23, 18, .rv, false, 0⟩, ⟨17, 0, .ro, true, 0⟩]]⟩,
  ⟨.MLD_GOV_STEP, 0x70308, [], .firmware,
    [[⟨31, 16, .rv, false, 0⟩, ⟨15, 0, .ro, true, 0⟩]]⟩,
  ⟨.MLD_GOV_CLAMP_COUNT, 0x7030c, [], .firmware,
    [[⟨31, 0, .ro, false, 0⟩]]⟩,
  ⟨.MLD_GOV_WIN_BASE, 0x71000, [(0x200, 4), (0x20, 16)], .firmware,
    List.replicate 2 [⟨31, 0, .ro, true, 0⟩]⟩]

def rowsMld1 : List RegRow := [
  ⟨.MLD_GOV_WIN_LIMIT, 0x71008, [(0x200, 4), (0x20, 16)], .firmware,
    List.replicate 2 [⟨31, 0, .ro, true, 0⟩]⟩,
  ⟨.MLD_GOV_WIN_FLAGS, 0x71010, [(0x200, 4), (0x20, 16)], .firmware,
    [[⟨31, 4, .rv, false, 0⟩, ⟨3, 3, .ro, true, 0⟩, ⟨2, 2, .ro, true, 0⟩, ⟨1, 1, .ro, true, 0⟩, ⟨0, 0, .ro, true, 0⟩]]⟩,
  ⟨.MLD_GOV_WIN_RSV, 0x71014, [(0x200, 4), (0x20, 16)], .firmware,
    [[⟨31, 0, .rv, false, 0⟩]]⟩]

def rowsMld : List RegRow := rowsMld0 ++ rowsMld1

def rowsFur : List RegRow := [
  ⟨.FUR_QTR_STAT, 0x80000, [(0x10, 4)], .firmware,
    [[⟨31, 31, .lv, false, 0⟩, ⟨30, 30, .lv, false, 1⟩, ⟨29, 24, .ro, false, 0⟩, ⟨23, 22, .ro, false, 0⟩, ⟨21, 18, .rv, false, 0⟩, ⟨17, 9, .ro, false, 0⟩, ⟨8, 0, .ro, false, 0⟩]]⟩,
  ⟨.FUR_QTR_SPARE, 0x80004, [(0x10, 4)], .firmware,
    [[⟨31, 8, .rv, false, 0⟩, ⟨7, 7, .ro, false, 0⟩, ⟨6, 5, .rv, false, 0⟩, ⟨4, 0, .ro, false, 0⟩]]⟩,
  ⟨.FUR_QTR_DEAD, 0x80008, [(0x10, 4)], .firmware,
    [[⟨31, 0, .ro, false, 0⟩]]⟩,
  ⟨.FUR_QTR_STORE, 0x8000c, [(0x10, 4)], .firmware,
    [[⟨31, 25, .rv, false, 0⟩, ⟨24, 16, .ro, false, 0⟩, ⟨15, 2, .rv, false, 0⟩, ⟨1, 1, .ro, false, 0⟩, ⟨0, 0, .ro, false, 0⟩]]⟩,
  ⟨.FUR_SELFTEST, 0x80080, [], .steward,
    [[⟨31, 16, .rv, false, 0⟩, ⟨15, 12, .ro, false, 0⟩, ⟨11, 8, .ro, false, 0⟩, ⟨7, 4, .lv, false, 0⟩, ⟨3, 0, .rw, false, 0⟩]]⟩,
  ⟨.FUR_EVENT, 0x800f0, [], .steward,
    [[⟨31, 24, .sq, false, 0⟩, ⟨23, 7, .rv, false, 0⟩, ⟨6, 6, .sq, false, 0⟩, ⟨5, 5, .sq, false, 0⟩, ⟨4, 4, .sq, false, 0⟩, ⟨3, 3, .sq, false, 0⟩, ⟨2, 2, .sq, false, 0⟩, ⟨1, 1, .sq, false, 0⟩, ⟨0, 0, .sq, false, 0⟩]]⟩,
  ⟨.FUR_EVENT_MASK, 0x800f4, [], .steward,
    [[⟨31, 7, .rv, false, 0⟩, ⟨6, 0, .rw, false, 0x7f⟩]]⟩,
  ⟨.FUR_PSLOT, 0x81000, [(0x10, 56)], .firmware,
    [[⟨31, 24, .ro, false, 0⟩, ⟨23, 22, .rv, false, 0⟩, ⟨21, 20, .ro, false, 0⟩, ⟨19, 12, .ro, false, 0⟩, ⟨11, 10, .rv, false, 0⟩, ⟨9, 8, .ro, false, 0⟩, ⟨7, 7, .rv, false, 0⟩, ⟨6, 6, .lv, false, 0⟩, ⟨5, 5, .lv, false, 0⟩, ⟨4, 4, .lv, false, 0⟩, ⟨3, 3, .lv, false, 0⟩, ⟨2, 0, .rv, false, 0⟩]]⟩,
  ⟨.FUR_PUSE, 0x81004, [(0x10, 56)], .firmware,
    [[⟨31, 24, .rv, false, 0⟩, ⟨23, 16, .ro, false, 0⟩, ⟨15, 8, .ro, false, 0⟩, ⟨7, 0, .ro, false, 0⟩]]⟩,
  ⟨.FUR_ADAPT, 0x81008, [(0x10, 56)], .steward,
    [[⟨31, 15, .rv, false, 0⟩, ⟨14, 12, .rw, false, 3⟩, ⟨11, 4, .rv, false, 0⟩, ⟨3, 3, .rw, false, 0⟩, ⟨2, 2, .rw, false, 0⟩, ⟨1, 1, .rw, false, 0⟩, ⟨0, 0, .rw, false, 0⟩]]⟩,
  ⟨.FUR_RETURN, 0x8100c, [(0x10, 56)], .steward,
    [[⟨31, 2, .rv, false, 0⟩, ⟨1, 1, .rw, false, 0⟩, ⟨0, 0, .rw, false, 1⟩]]⟩,
  ⟨.POT_STAT, 0x82000, [(0x10, 128)], .firmware,
    [[⟨31, 18, .rv, false, 0⟩, ⟨17, 17, .ro, false, 0⟩, ⟨16, 16, .ro, false, 0⟩, ⟨15, 8, .ro, false, 0xff⟩, ⟨7, 0, .ro, false, 0⟩]]⟩,
  ⟨.POT_ECC, 0x82004, [(0x10, 128)], .firmware,
    [[⟨31, 16, .ro, false, 0⟩, ⟨15, 0, .ro, false, 0⟩]]⟩,
  ⟨.FUR_SLOT, 0x84000, [(0x4, 512)], .steward,
    [[⟨31, 30, .ws, false, 0⟩, ⟨29, 26, .rv, false, 0⟩, ⟨25, 16, .ws, false, 0⟩, ⟨15, 14, .ws, false, 0⟩, ⟨13, 10, .rv, false, 0⟩, ⟨9, 0, .ws, false, 0⟩]]⟩]

def rowsCal : List RegRow := [
  ⟨.CAL_CFG, 0x90000, [], .steward,
    [[⟨31, 24, .rw, false, 0x3c⟩, ⟨23, 16, .rw, false, 0x3c⟩, ⟨15, 8, .rw, false, 0x18⟩, ⟨7, 0, .rw, false, 0xa⟩]]⟩,
  ⟨.CAL_STAT, 0x90004, [], .firmware,
    [[⟨31, 23, .rv, false, 0⟩, ⟨22, 16, .ro, false, 0⟩, ⟨15, 12, .rv, false, 0⟩, ⟨11, 10, .ro, false, 3⟩, ⟨9, 8, .ro, false, 0⟩, ⟨7, 3, .rv, false, 0⟩, ⟨2, 0, .ro, false, 0⟩]]⟩,
  ⟨.CAL_ATTIC_GEN, 0x90008, [], .firmware,
    [[⟨31, 0, .ro, false, 0⟩]]⟩,
  ⟨.CAL_ATTIC_CTL, 0x9000c, [], .steward,
    [[⟨31, 10, .rv, false, 0⟩, ⟨9, 8, .ro, false, 0⟩, ⟨7, 1, .rv, false, 0⟩, ⟨0, 0, .rw, false, 0⟩]]⟩,
  ⟨.CAL_BANDGAP, 0x90010, [], .firmware,
    [[⟨31, 16, .rv, false, 0⟩, ⟨15, 0, .ro, false, 0⟩]]⟩,
  ⟨.CAL_REJECTS, 0x90014, [], .firmware,
    [[⟨31, 0, .ro, false, 0⟩]]⟩,
  ⟨.CAL_EVENT, 0x90020, [], .steward,
    [[⟨31, 24, .sq, false, 0⟩, ⟨23, 8, .rv, false, 0⟩, ⟨7, 7, .sq, false, 0⟩, ⟨6, 6, .sq, false, 0⟩, ⟨5, 5, .sq, false, 0⟩, ⟨4, 4, .sq, false, 0⟩, ⟨3, 3, .sq, false, 0⟩, ⟨2, 2, .sq, false, 0⟩, ⟨1, 1, .sq, false, 0⟩, ⟨0, 0, .sq, false, 0⟩]]⟩,
  ⟨.CAL_EVENT_MASK, 0x90024, [], .steward,
    [[⟨31, 8, .rv, false, 0⟩, ⟨7, 0, .rw, false, 0xff⟩]]⟩,
  ⟨.CAL_ELEM_SEL, 0x90040, [], .steward,
    [[⟨31, 30, .rw, false, 0⟩, ⟨29, 28, .rw, false, 0⟩, ⟨27, 24, .rw, false, 1⟩, ⟨23, 14, .rw, false, 0⟩, ⟨13, 6, .rv, false, 0⟩, ⟨5, 0, .rw, false, 0⟩]]⟩,
  ⟨.CAL_ELEM_DATA, 0x90044, [], .firmware,
    [[⟨31, 16, .ro, false, 0xffff⟩, ⟨15, 0, .ro, false, 0⟩]]⟩,
  ⟨.CAL_PORT_CTL, 0x91000, [(0x10, 64)], .steward,
    [[⟨31, 4, .rv, false, 0⟩, ⟨3, 3, .rw, false, 0⟩, ⟨2, 2, .rw, false, 0⟩, ⟨1, 1, .rw, false, 0⟩, ⟨0, 0, .rw, false, 0⟩]]⟩,
  ⟨.CAL_PORT_STAT, 0x91004, [(0x10, 64)], .firmware,
    [[⟨31, 27, .rv, false, 0⟩, ⟨26, 24, .ro, false, 0⟩, ⟨23, 22, .rv, false, 0⟩, ⟨21, 21, .lv, false, 0⟩, ⟨20, 20, .lv, false, 0⟩, ⟨19, 16, .ro, false, 0⟩, ⟨15, 3, .rv, false, 0⟩, ⟨2, 0, .lv, false, 0⟩]]⟩,
  ⟨.CAL_PORT_QUAL, 0x91008, [(0x10, 64)], .firmware,
    [[⟨31, 16, .ro, false, 0xffff⟩, ⟨15, 12, .ro, false, 0⟩, ⟨11, 8, .ro, false, 0⟩, ⟨7, 6, .ro, false, 0⟩, ⟨5, 0, .rv, false, 0⟩]]⟩,
  ⟨.CAL_PORT_TIME, 0x9100c, [(0x10, 64)], .firmware,
    [[⟨31, 0, .ro, false, 0⟩]]⟩]

def rowsDiag : List RegRow := [
  ⟨.DIAG_LEDGER_STAT, 0xa0000, [], .firmware,
    [[⟨31, 28, .rv, false, 0⟩, ⟨27, 24, .lv, false, 0⟩, ⟨23, 22, .rv, false, 0⟩, ⟨21, 16, .lv, false, 0⟩, ⟨15, 8, .ro, false, 0⟩, ⟨7, 2, .rv, false, 0⟩, ⟨1, 0, .ro, false, 0⟩]]⟩,
  ⟨.DIAG_FLASH_BOOK, 0xa0010, [], .firmware,
    [[⟨31, 3, .rv, false, 0⟩, ⟨2, 2, .lv, false, 0⟩, ⟨1, 1, .rw, false, 0⟩, ⟨0, 0, .rw, false, 0⟩]]⟩,
  ⟨.DIAG_EVENT, 0xa0020, [], .steward,
    [[⟨31, 24, .sq, false, 0⟩, ⟨23, 7, .rv, false, 0⟩, ⟨6, 6, .sq, false, 0⟩, ⟨5, 5, .sq, false, 0⟩, ⟨4, 4, .sq, false, 0⟩, ⟨3, 3, .sq, false, 0⟩, ⟨2, 2, .sq, false, 0⟩, ⟨1, 1, .sq, false, 0⟩, ⟨0, 0, .sq, false, 0⟩]]⟩,
  ⟨.DIAG_EVENT_MASK, 0xa0024, [], .steward,
    [[⟨31, 7, .rv, false, 0⟩, ⟨6, 0, .rw, false, 0x7f⟩]]⟩,
  ⟨.DIAG_TDR_CFG, 0xa0040, [], .steward,
    [[⟨31, 22, .rw, false, 0x2b9⟩, ⟨21, 12, .rw, false, 0x52⟩, ⟨11, 0, .rw, false, 0x100⟩]]⟩,
  ⟨.DIAG_FP_CFG, 0xa0044, [], .steward,
    [[⟨31, 22, .rw, false, 0x39a⟩, ⟨21, 12, .rw, false, 0xb4⟩, ⟨11, 4, .rw, false, 1⟩, ⟨3, 1, .rv, false, 0⟩, ⟨0, 0, .rw, false, 1⟩]]⟩,
  ⟨.DIAG_IL_CFG, 0xa0048, [], .steward,
    [[⟨31, 8, .rv, false, 0⟩, ⟨7, 0, .rw, false, 0x14⟩]]⟩,
  ⟨.DIAG_SWEEP_CTL, 0xa0080, [], .steward,
    [[⟨31, 13, .rv, false, 0⟩, ⟨12, 8, .rw, false, 0⟩, ⟨7, 5, .rv, false, 0⟩, ⟨4, 4, .rw, false, 0⟩, ⟨3, 3, .rw, false, 0⟩, ⟨2, 2, .rw, false, 0⟩, ⟨1, 1, .rw, false, 0⟩, ⟨0, 0, .rw, false, 0⟩]]⟩,
  ⟨.DIAG_SWEEP_SET_LO, 0xa0084, [], .steward,
    [[⟨7, 7, .rw, false, 0⟩, ⟨6, 6, .rv, false, 0⟩, ⟨5, 0, .rw, false, 0⟩, ⟨15, 15, .rw, false, 0⟩, ⟨14, 14, .rv, false, 0⟩, ⟨13, 8, .rw, false, 0⟩, ⟨23, 23, .rw, false, 0⟩, ⟨22, 22, .rv, false, 0⟩, ⟨21, 16, .rw, false, 0⟩, ⟨31, 31, .rw, false, 0⟩, ⟨30, 30, .rv, false, 0⟩, ⟨29, 24, .rw, false, 0⟩]]⟩,
  ⟨.DIAG_SWEEP_SET_HI, 0xa0088, [], .steward,
    [[⟨7, 7, .rw, false, 0⟩, ⟨6, 6, .rv, false, 0⟩, ⟨5, 0, .rw, false, 0⟩, ⟨15, 15, .rw, false, 0⟩, ⟨14, 14, .rv, false, 0⟩, ⟨13, 8, .rw, false, 0⟩, ⟨23, 23, .rw, false, 0⟩, ⟨22, 22, .rv, false, 0⟩, ⟨21, 16, .rw, false, 0⟩, ⟨31, 31, .rw, false, 0⟩, ⟨30, 30, .rv, false, 0⟩, ⟨29, 24, .rw, false, 0⟩]]⟩,
  ⟨.DIAG_SWEEP_CFG, 0xa008c, [], .steward,
    [[⟨31, 16, .rw, false, 0x1f4⟩, ⟨15, 8, .rw, false, 0x40⟩, ⟨7, 0, .rv, false, 0⟩]]⟩,
  ⟨.DIAG_SWEEP_STAT, 0xa0090, [], .firmware,
    [[⟨31, 27, .rv, false, 0⟩, ⟨26, 24, .ro, false, 0⟩, ⟨23, 20, .rv, false, 0⟩, ⟨19, 16, .ro, false, 0⟩, ⟨15, 3, .rv, false, 0⟩, ⟨2, 0, .lv, false, 0⟩]]⟩,
  ⟨.DIAG_BOOK, 0xa0100, [(0x8, 32)], .firmware,
    [[⟨31, 31, .ro, false, 0⟩, ⟨30, 28, .ro, false, 0⟩, ⟨27, 4, .rv, false, 0⟩, ⟨3, 0, .ro, false, 0⟩], [⟨31, 22, .rv, false, 0⟩, ⟨21, 21, .ro, false, 0⟩, ⟨20, 20, .ro, false, 0⟩, ⟨19, 16, .ro, false, 0⟩, ⟨15, 13, .rv, false, 0⟩, ⟨12, 8, .ro, false, 0⟩, ⟨7, 0, .ro, false, 0⟩]]⟩,
  ⟨.DIAG_QUEUE, 0xa0200, [(0x8, 8)], .firmware,
    [[⟨31, 31, .ro, false, 0⟩, ⟨30, 28, .ro, false, 0⟩, ⟨27, 4, .rv, false, 0⟩, ⟨3, 0, .ro, false, 0⟩], [⟨31, 22, .rv, false, 0⟩, ⟨21, 21, .ro, false, 0⟩, ⟨20, 20, .ro, false, 0⟩, ⟨19, 16, .ro, false, 0⟩, ⟨15, 13, .rv, false, 0⟩, ⟨12, 8, .ro, false, 0⟩, ⟨7, 0, .ro, false, 0⟩]]⟩,
  ⟨.DIAG_MAP, 0xa0400, [(0x8, 64)], .firmware,
    [[⟨31, 16, .ro, false, 0⟩, ⟨15, 2, .rv, false, 0⟩, ⟨1, 0, .ro, false, 0⟩], [⟨31, 16, .ro, false, 0⟩, ⟨15, 0, .ro, false, 0⟩]]⟩,
  ⟨.DIAG_TDR_CTL, 0xa1000, [(0x40, 64)], .steward,
    [[⟨31, 4, .rv, false, 0⟩, ⟨3, 3, .rw, false, 0⟩, ⟨2, 2, .rw, false, 0⟩, ⟨1, 1, .rw, false, 0⟩, ⟨0, 0, .rw, false, 0⟩]]⟩,
  ⟨.DIAG_TDR_STAT, 0xa1004, [(0x40, 64)], .firmware,
    [[⟨31, 24, .ro, false, 0⟩, ⟨23, 20, .rv, false, 0⟩, ⟨19, 16, .ro, false, 0⟩, ⟨15, 12, .ro, false, 0⟩, ⟨11, 8, .ro, false, 0⟩, ⟨7, 3, .rv, false, 0⟩, ⟨2, 0, .lv, false, 0⟩]]⟩,
  ⟨.DIAG_TDR_EVT, 0xa1010, [(0x40, 64), (0x4, 8)], .firmware,
    [[⟨31, 16, .ro, false, 0⟩, ⟨15, 12, .ro, false, 0⟩, ⟨11, 0, .ro, false, 0⟩]]⟩,
  ⟨.DIAG_IL, 0xa1030, [(0x40, 64)], .firmware,
    [[⟨31, 16, .ro, false, 0⟩, ⟨15, 15, .ro, false, 0⟩, ⟨14, 0, .ro, false, 0⟩]]⟩,
  ⟨.DIAG_FP_STAT, 0xa1034, [(0x40, 64)], .firmware,
    [[⟨31, 22, .ro, false, 0⟩, ⟨21, 14, .ro, false, 0⟩, ⟨13, 3, .rv, false, 0⟩, ⟨2, 2, .ro, false, 0⟩, ⟨1, 0, .ro, false, 0⟩]]⟩,
  ⟨.DIAG_FP_CTL, 0xa1038, [(0x40, 64)], .steward,
    [[⟨31, 2, .rv, false, 0⟩, ⟨1, 1, .rw, false, 0⟩, ⟨0, 0, .rw, false, 0⟩]]⟩]

def rowsMdma : List RegRow := [
  ⟨.MDMA_STAT, 0xb0000, [], .firmware,
    [[⟨31, 16, .lv, false, 0⟩, ⟨15, 0, .lv, false, 0⟩]]⟩,
  ⟨.MCH_CTL, 0xb1000, [(0x100, 16)], .mch,
    [[⟨31, 1, .rv, false, 0⟩, ⟨0, 0, .rw, false, 0⟩]]⟩,
  ⟨.MCH_DOORBELL, 0xb1004, [(0x100, 16)], .mch,
    [[⟨31, 0, .rw, false, 0⟩]]⟩,
  ⟨.MCH_CFG, 0xb1008, [(0x100, 16)], .mch,
    [[⟨31, 6, .rv, false, 0⟩, ⟨5, 5, .rw, false, 0⟩, ⟨4, 4, .rw, false, 0⟩, ⟨3, 2, .rv, false, 0⟩, ⟨1, 0, .rw, false, 0⟩]]⟩,
  ⟨.MCH_HOP_MAX, 0xb100c, [(0x100, 16)], .mch,
    [[⟨31, 20, .rv, false, 0⟩, ⟨19, 0, .rw, false, 0x1000⟩]]⟩,
  ⟨.MCH_FIRST, 0xb1010, [(0x100, 16)], .mch,
    List.replicate 2 [⟨31, 0, .rw, false, 0⟩]⟩,
  ⟨.MCH_CUR, 0xb1018, [(0x100, 16)], .firmware,
    List.replicate 2 [⟨31, 0, .ro, false, 0⟩]⟩,
  ⟨.MCH_STAT, 0xb1020, [(0x100, 16)], .mch,
    [[⟨31, 16, .rv, false, 0⟩, ⟨15, 8, .ro, false, 0⟩, ⟨7, 4, .ro, false, 0⟩, ⟨3, 2, .rv, false, 0⟩, ⟨1, 0, .lv, false, 0⟩]]⟩,
  ⟨.MCH_HOPS, 0xb1024, [(0x100, 16)], .firmware,
    [[⟨31, 20, .rv, false, 0⟩, ⟨19, 0, .ro, false, 0⟩]]⟩,
  ⟨.MCH_REMAIN, 0xb1028, [(0x100, 16)], .firmware,
    [[⟨31, 0, .ro, false, 0⟩]]⟩,
  ⟨.MCH_DONE, 0xb1030, [(0x100, 16)], .firmware,
    List.replicate 2 [⟨31, 0, .ro, false, 0⟩]⟩,
  ⟨.MCH_BYTES, 0xb1038, [(0x100, 16)], .firmware,
    List.replicate 2 [⟨31, 0, .ro, false, 0⟩]⟩,
  ⟨.MCH_IRQ_COUNT, 0xb1040, [(0x100, 16)], .firmware,
    [[⟨31, 0, .ro, false, 0⟩]]⟩,
  ⟨.MCH_CMP_OFS, 0xb1044, [(0x100, 16)], .firmware,
    [[⟨31, 0, .ro, false, 0⟩]]⟩,
  ⟨.MCH_LAST_BAD, 0xb1048, [(0x100, 16)], .firmware,
    List.replicate 2 [⟨31, 0, .ro, false, 0⟩]⟩,
  ⟨.MCH_EVENT, 0xb1080, [(0x100, 16)], .mch,
    [[⟨31, 24, .sq, false, 0⟩, ⟨23, 6, .rv, false, 0⟩, ⟨5, 5, .sq, false, 0⟩, ⟨4, 4, .sq, false, 0⟩, ⟨3, 3, .sq, false, 0⟩, ⟨2, 2, .sq, false, 0⟩, ⟨1, 1, .sq, false, 0⟩, ⟨0, 0, .sq, false, 0⟩]]⟩,
  ⟨.MCH_EVENT_MASK, 0xb1084, [(0x100, 16)], .mch,
    [[⟨31, 6, .rv, false, 0⟩, ⟨5, 0, .rw, false, 0x3d⟩]]⟩]

def rowsFspi : List RegRow := [
  ⟨.FSPI_CFG, 0xc0000, [], .firmware,
    [[⟨31, 24, .rw, false, 0xfa⟩, ⟨23, 16, .rw, false, 5⟩, ⟨15, 15, .rw, false, 0⟩, ⟨14, 10, .rw, false, 0⟩, ⟨9, 8, .ro, false, 0⟩, ⟨7, 6, .rv, false, 0⟩, ⟨5, 2, .ro, false, 0⟩, ⟨1, 0, .ro, false, 0⟩]]⟩,
  ⟨.FSPI_STAT, 0xc0004, [], .firmware,
    [[⟨31, 11, .rv, false, 0⟩, ⟨10, 8, .lv, false, 0⟩, ⟨7, 3, .rv, false, 0⟩, ⟨2, 2, .lv, false, 0⟩, ⟨1, 1, .lv, false, 0⟩, ⟨0, 0, .lv, false, 0⟩]]⟩,
  ⟨.FSPI_CTL, 0xc0008, [], .firmware,
    [[⟨31, 1, .rv, false, 0⟩, ⟨0, 0, .rw, false, 0⟩]]⟩,
  ⟨.FSPI_FAIL_CFG, 0xc000c, [], .firmware,
    [[⟨31, 8, .rv, false, 0⟩, ⟨7, 0, .rw, false, 0⟩]]⟩,
  ⟨.FSPI_ERASE_ADDR, 0xc0010, [], .firmware,
    [[⟨31, 27, .rv, false, 0⟩, ⟨26, 0, .rw, false, 0⟩]]⟩,
  ⟨.FSPI_ERASE_CTL, 0xc0014, [], .firmware,
    [[⟨31, 11, .rv, false, 0⟩, ⟨10, 8, .ro, false, 0⟩, ⟨7, 3, .rv, false, 0⟩, ⟨2, 1, .rw, false, 0⟩, ⟨0, 0, .rw, false, 0⟩]]⟩,
  ⟨.FSPI_CMDS, 0xc0020, [], .firmware,
    List.replicate 4 [⟨31, 0, .rw, false, 0⟩]⟩,
  ⟨.FSPI_EVENT, 0xc00f0, [], .firmware,
    [[⟨31, 24, .sq, false, 0⟩, ⟨23, 4, .rv, false, 0⟩, ⟨3, 3, .sq, false, 0⟩, ⟨2, 2, .sq, false, 0⟩, ⟨1, 1, .sq, false, 0⟩, ⟨0, 0, .sq, false, 0⟩]]⟩,
  ⟨.FSPI_EVENT_MASK, 0xc00f4, [], .firmware,
    [[⟨31, 4, .rv, false, 0⟩, ⟨3, 0, .rw, false, 0xf⟩]]⟩]

def rowsHspi : List RegRow := [
  ⟨.HSPI_CFG, 0xd0000, [], .keeper,
    [[⟨31, 1, .rv, false, 0⟩, ⟨0, 0, .rw, false, 0⟩]]⟩,
  ⟨.HSPI_LAST, 0xd0004, [], .firmware,
    [[⟨31, 24, .ro, false, 0⟩, ⟨23, 8, .rv, false, 0⟩, ⟨7, 4, .ro, false, 0⟩, ⟨3, 0, .rv, false, 0⟩]]⟩,
  ⟨.HSPI_COUNT, 0xd0008, [], .firmware,
    [[⟨31, 16, .ro, false, 0⟩, ⟨15, 0, .ro, false, 0⟩]]⟩,
  ⟨.HSPI_KEVENT, 0xd00f0, [], .keeper,
    [[⟨31, 24, .sq, false, 0⟩, ⟨23, 5, .rv, false, 0⟩, ⟨4, 4, .sq, false, 0⟩, ⟨3, 3, .sq, false, 0⟩, ⟨2, 2, .sq, false, 0⟩, ⟨1, 1, .sq, false, 0⟩, ⟨0, 0, .sq, false, 0⟩]]⟩,
  ⟨.HSPI_KEVENT_MASK, 0xd00f4, [], .keeper,
    [[⟨31, 5, .rv, false, 0⟩, ⟨4, 0, .rw, false, 0x1f⟩]]⟩,
  ⟨.HSPI_MBX_CTL, 0xd1000, [], .keeper,
    [[⟨31, 3, .rv, false, 0⟩, ⟨2, 2, .rw, false, 0⟩, ⟨1, 1, .rw, false, 0⟩, ⟨0, 0, .rw, false, 0⟩]]⟩,
  ⟨.HSPI_MBX_STAT, 0xd1004, [], .firmware,
    [[⟨31, 16, .rv, false, 0⟩, ⟨15, 8, .ro, false, 0⟩, ⟨7, 2, .rv, false, 0⟩, ⟨1, 0, .lv, false, 0⟩]]⟩,
  ⟨.HSPI_MBX_REQ, 0xd1100, [(0x4, 64)], .keeper,
    [[⟨31, 0, .rw, false, 0⟩]]⟩,
  ⟨.HSPI_MBX_RSP, 0xd1200, [(0x4, 64)], .firmware,
    [[⟨31, 0, .ro, false, 0⟩]]⟩]

def rowsCel : List RegRow := [
  ⟨.CEL_CFG, 0xe0000, [], .steward,
    [[⟨31, 8, .rv, false, 0⟩, ⟨7, 0, .rw, false, 0x60⟩]]⟩,
  ⟨.CEL_STAT, 0xe0004, [], .firmware,
    [[⟨31, 31, .ro, false, 0⟩, ⟨30, 0, .rv, false, 0⟩]]⟩,
  ⟨.CEL_RX_USED, 0xe0008, [], .firmware,
    [[⟨31, 18, .rv, false, 0⟩, ⟨17, 0, .ro, false, 0⟩]]⟩,
  ⟨.CEL_TX_USED, 0xe000c, [], .firmware,
    [[⟨31, 18, .rv, false, 0⟩, ⟨17, 0, .ro, false, 0⟩]]⟩,
  ⟨.CEL_HEAD_RX, 0xe0020, [(0x8, 4)], .steward,
    [[⟨31, 26, .rv, false, 0⟩, ⟨25, 16, .rw, false, 0⟩, ⟨15, 10, .rv, false, 0⟩, ⟨9, 0, .rw, false, 0⟩]]⟩,
  ⟨.CEL_HEAD_TX, 0xe0040, [(0x8, 4)], .steward,
    [[⟨31, 26, .rv, false, 0⟩, ⟨25, 16, .rw, false, 0⟩, ⟨15, 10, .rv, false, 0⟩, ⟨9, 0, .rw, false, 0⟩]]⟩,
  ⟨.CEL_QP_MAX, 0xe0060, [], .steward,
    [[⟨31, 10, .rv, false, 0⟩, ⟨9, 0, .rw, false, 0x40⟩]]⟩,
  ⟨.CEL_DROPS, 0xe0080, [(0x8, 4)], .firmware,
    List.replicate 2 [⟨31, 0, .ro, false, 0⟩]⟩,
  ⟨.CEL_ECC, 0xe00a0, [], .firmware,
    [[⟨31, 16, .ro, false, 0⟩, ⟨15, 0, .ro, false, 0⟩]]⟩,
  ⟨.CEL_EVENT, 0xe00f0, [], .steward,
    [[⟨31, 24, .sq, false, 0⟩, ⟨23, 3, .rv, false, 0⟩, ⟨2, 2, .sq, false, 0⟩, ⟨1, 1, .sq, false, 0⟩, ⟨0, 0, .sq, false, 0⟩]]⟩,
  ⟨.CEL_EVENT_MASK, 0xe00f4, [], .steward,
    [[⟨31, 3, .rv, false, 0⟩, ⟨2, 0, .rw, false, 7⟩]]⟩]

def rowsPkt : List RegRow := [
  ⟨.PKT_LAT_CFG, 0xf0000, [], .steward,
    [[⟨31, 17, .rv, false, 0⟩, ⟨16, 16, .rw, false, 0⟩, ⟨15, 0, .rw, false, 0x320⟩]]⟩,
  ⟨.PKT_LAT_MINMAX, 0xf0010, [(0x10, 4)], .firmware,
    [[⟨31, 16, .ro, false, 0xffff⟩, ⟨15, 0, .ro, false, 0⟩]]⟩,
  ⟨.PKT_LAT_OVER, 0xf0014, [(0x10, 4)], .firmware,
    [[⟨31, 0, .ro, false, 0⟩]]⟩,
  ⟨.PKT_LAT_MEASURED, 0xf0018, [(0x10, 4)], .firmware,
    [[⟨31, 0, .ro, false, 0⟩]]⟩,
  ⟨.PKT_EVENT, 0xf0100, [], .steward,
    [[⟨31, 24, .sq, false, 0⟩, ⟨23, 2, .rv, false, 0⟩, ⟨1, 1, .sq, false, 0⟩, ⟨0, 0, .sq, false, 0⟩]]⟩,
  ⟨.PKT_EVENT_MASK, 0xf0104, [], .steward,
    [[⟨31, 2, .rv, false, 0⟩, ⟨1, 0, .rw, false, 3⟩]]⟩,
  ⟨.PKT_PORT_DEF, 0xf1000, [(0x4, 64)], .firmware,
    [[⟨31, 31, .ro, false, 0⟩, ⟨30, 9, .rv, false, 0⟩, ⟨8, 0, .ro, false, 0⟩]]⟩,
  ⟨.PKT_NOMATCH, 0xf1100, [(0x4, 64)], .firmware,
    [[⟨31, 0, .ro, false, 0⟩]]⟩,
  ⟨.PKT_CLS_HIT, 0xf2000, [(0x4, 2048)], .firmware,
    [[⟨31, 0, .ro, false, 0⟩]]⟩,
  ⟨.PKT_CLS, 0xf8000, [(0x10, 2048)], .firmware,
    List.replicate 4 [⟨31, 0, .ro, false, 0⟩]⟩]

def rowsHead : List RegRow := [
  ⟨.HEAD_STAT, 0x100000, [(0x10000, 4)], .firmware,
    [[⟨31, 24, .ro, false, 0⟩, ⟨23, 22, .ro, false, 0⟩, ⟨21, 17, .ro, false, 0⟩, ⟨16, 16, .ro, false, 0⟩, ⟨15, 15, .ro, false, 0⟩, ⟨14, 14, .ro, false, 0⟩, ⟨13, 13, .lv, false, 0⟩, ⟨12, 12, .ro, false, 0⟩, ⟨11, 11, .ro, false, 0⟩, ⟨10, 10, .lv, false, 0⟩, ⟨9, 8, .rv, false, 0⟩, ⟨7, 4, .ro, false, 0⟩, ⟨3, 3, .rv, false, 0⟩, ⟨2, 0, .ro, false, 0⟩]]⟩,
  ⟨.HEAD_LANES, 0x100004, [(0x10000, 4)], .firmware,
    [[⟨31, 13, .rv, false, 0⟩, ⟨12, 8, .ro, false, 0⟩, ⟨7, 4, .rv, false, 0⟩, ⟨3, 0, .ro, false, 0⟩]]⟩,
  ⟨.HEAD_ATTACH, 0x100010, [(0x10000, 4)], .head,
    [[⟨31, 11, .rv, false, 0⟩, ⟨10, 8, .ro, false, 0⟩, ⟨7, 2, .rv, false, 0⟩, ⟨1, 1, .rw, false, 0⟩, ⟨0, 0, .rw, false, 0⟩]]⟩,
  ⟨.HEAD_HB_CFG, 0x100014, [(0x10000, 4)], .head,
    [[⟨31, 16, .rv, false, 0⟩, ⟨15, 0, .rw, false, 0⟩]]⟩,
  ⟨.HEAD_HB_KICK, 0x100018, [(0x10000, 4)], .head,
    [[⟨31, 0, .rw, false, 0⟩]]⟩,
  ⟨.HEAD_REQ_CFG, 0x100020, [(0x10000, 4)], .head,
    [[⟨31, 24, .rw, false, 0x32⟩, ⟨23, 13, .rv, false, 0⟩, ⟨12, 0, .ws, false, 0⟩]]⟩,
  ⟨.HEAD_REQ_STAT, 0x100024, [(0x10000, 4)], .firmware,
    [[⟨31, 29, .rv, false, 0⟩, ⟨28, 16, .ro, false, 0⟩, ⟨15, 13, .rv, false, 0⟩, ⟨12, 0, .ro, false, 0⟩]]⟩,
  ⟨.HEAD_IRQ_CFG, 0x100030, [(0x10000, 4)], .head,
    [[⟨31, 25, .rv, false, 0⟩, ⟨24, 16, .rw, false, 1⟩, ⟨15, 9, .rv, false, 0⟩, ⟨8, 0, .rw, false, 0⟩]]⟩,
  ⟨.HEAD_IRQ_SUM_MASK, 0x100034, [(0x10000, 4)], .head,
    [[⟨31, 0, .rw, false, 0x700000⟩]]⟩,
  ⟨.HEAD_IRQ_REARM, 0x100038, [(0x10000, 4)], .head,
    [[⟨31, 1, .rv, false, 0⟩, ⟨0, 0, .rw, false, 0⟩]]⟩,
  ⟨.HEAD_ATC_STAT, 0x100040, [(0x10000, 4)], .firmware,
    [[⟨31, 28, .rv, false, 0⟩, ⟨27, 16, .ro, false, 0⟩, ⟨15, 0, .ro, false, 0⟩]]⟩,
  ⟨.HEAD_ATC_CTL, 0x100044, [(0x10000, 4)], .head,
    [[⟨31, 1, .rv, false, 0⟩, ⟨0, 0, .rw, false, 0⟩]]⟩,
  ⟨.HEAD_MEM_REJ, 0x100050, [(0x10000, 4)], .firmware,
    [[⟨31, 0, .ro, false, 0⟩]]⟩,
  ⟨.HEAD_EVENT, 0x100060, [(0x10000, 4)], .head,
    [[⟨31, 24, .sq, false, 0⟩, ⟨23, 8, .rv, false, 0⟩, ⟨7, 7, .sq, false, 0⟩, ⟨6, 6, .sq, false, 0⟩, ⟨5, 5, .sq, false, 0⟩, ⟨4, 4, .sq, false, 0⟩, ⟨3, 3, .sq, false, 0⟩, ⟨2, 2, .sq, false, 0⟩, ⟨1, 1, .sq, false, 0⟩, ⟨0, 0, .sq, false, 0⟩]]⟩,
  ⟨.HEAD_EVENT_MASK, 0x100064, [(0x10000, 4)], .head,
    [[⟨31, 8, .rv, false, 0⟩, ⟨7, 0, .rw, false, 0xff⟩]]⟩,
  ⟨.HEAD_MBX_CTL, 0x100100, [(0x10000, 4)], .head,
    [[⟨31, 3, .rv, false, 0⟩, ⟨2, 2, .rw, false, 0⟩, ⟨1, 1, .rw, false, 0⟩, ⟨0, 0, .rw, false, 0⟩]]⟩,
  ⟨.HEAD_MBX_STAT, 0x100104, [(0x10000, 4)], .firmware,
    [[⟨31, 16, .rv, false, 0⟩, ⟨15, 8, .ro, false, 0⟩, ⟨7, 2, .rv, false, 0⟩, ⟨1, 0, .lv, false, 0⟩]]⟩,
  ⟨.HEAD_MBX_REQ, 0x100200, [(0x10000, 4), (0x4, 64)], .head,
    [[⟨31, 0, .rw, false, 0⟩]]⟩,
  ⟨.HEAD_MBX_RSP, 0x100300, [(0x10000, 4), (0x4, 64)], .firmware,
    [[⟨31, 0, .ro, false, 0⟩]]⟩]

def rowsBnd : List RegRow := [
  ⟨.BND_CFG, 0x140000, [(0x400, 16)], .firmware,
    [[⟨31, 23, .rv, false, 0⟩, ⟨22, 16, .ro, false, 0⟩, ⟨15, 14, .rv, false, 0⟩, ⟨13, 12, .ro, false, 0⟩, ⟨11, 8, .ro, false, 0⟩, ⟨7, 1, .rv, false, 0⟩, ⟨0, 0, .ro, false, 0⟩]]⟩,
  ⟨.BND_MEMBERS_LO, 0x140004, [(0x400, 16)], .firmware,
    [[⟨7, 7, .ro, false, 0⟩, ⟨6, 6, .rv, false, 0⟩, ⟨5, 0, .ro, false, 0⟩, ⟨15, 15, .ro, false, 0⟩, ⟨14, 14, .rv, false, 0⟩, ⟨13, 8, .ro, false, 0⟩, ⟨23, 23, .ro, false, 0⟩, ⟨22, 22, .rv, false, 0⟩, ⟨21, 16, .ro, false, 0⟩, ⟨31, 31, .ro, false, 0⟩, ⟨30, 30, .rv, false, 0⟩, ⟨29, 24, .ro, false, 0⟩]]⟩,
  ⟨.BND_MEMBERS_HI, 0x140008, [(0x400, 16)], .firmware,
    [[⟨7, 7, .ro, false, 0⟩, ⟨6, 6, .rv, false, 0⟩, ⟨5, 0, .ro, false, 0⟩, ⟨15, 15, .ro, false, 0⟩, ⟨14, 14, .rv, false, 0⟩, ⟨13, 8, .ro, false, 0⟩, ⟨23, 23, .ro, false, 0⟩, ⟨22, 22, .rv, false, 0⟩, ⟨21, 16, .ro, false, 0⟩, ⟨31, 31, .ro, false, 0⟩, ⟨30, 30, .rv, false, 0⟩, ⟨29, 24, .ro, false, 0⟩]]⟩,
  ⟨.BND_STAT, 0x14000c, [(0x400, 16)], .firmware,
    [[⟨31, 24, .lv, false, 0⟩, ⟨23, 16, .lv, false, 0⟩, ⟨15, 12, .rv, false, 0⟩, ⟨11, 8, .ro, false, 0⟩, ⟨7, 3, .rv, false, 0⟩, ⟨2, 0, .lv, false, 1⟩]]⟩,
  ⟨.BND_CTL, 0x140010, [(0x400, 16)], .steward,
    [[⟨31, 2, .rv, false, 0⟩, ⟨1, 1, .rw, false, 0⟩, ⟨0, 0, .rw, false, 0⟩]]⟩,
  ⟨.BND_EVENT, 0x140020, [(0x400, 16)], .steward,
    [[⟨31, 24, .sq, false, 0⟩, ⟨23, 6, .rv, false, 0⟩, ⟨5, 5, .sq, false, 0⟩, ⟨4, 4, .sq, false, 0⟩, ⟨3, 3, .sq, false, 0⟩, ⟨2, 2, .sq, false, 0⟩, ⟨1, 1, .sq, false, 0⟩, ⟨0, 0, .sq, false, 0⟩]]⟩,
  ⟨.BND_EVENT_MASK, 0x140024, [(0x400, 16)], .steward,
    [[⟨31, 6, .rv, false, 0⟩, ⟨5, 0, .rw, false, 0x3f⟩]]⟩,
  ⟨.BND_PAIR_CFG, 0x140100, [(0x400, 16), (0x8, 56)], .steward,
    [[⟨31, 25, .rv, false, 0⟩, ⟨24, 24, .ws, false, 1⟩, ⟨23, 18, .rv, false, 0⟩, ⟨17, 16, .ro, false, 0⟩, ⟨15, 11, .rv, false, 0⟩, ⟨10, 8, .ro, false, 0⟩, ⟨7, 3, .rv, false, 0⟩, ⟨2, 0, .ro, false, 0⟩]]⟩,
  ⟨.BND_PAIR_STAT, 0x140104, [(0x400, 16), (0x8, 56)], .firmware,
    [[⟨31, 16, .ro, false, 0⟩, ⟨15, 8, .ro, false, 0⟩, ⟨7, 4, .rv, false, 0⟩, ⟨3, 3, .ro, false, 0⟩, ⟨2, 0, .ro, false, 1⟩]]⟩]

def rowsCane : List RegRow := [
  ⟨.CANE_CFG, 0x150000, [(0x100, 4)], .firmware,
    [[⟨31, 12, .rv, false, 0⟩, ⟨11, 8, .ro, false, 0⟩, ⟨7, 5, .rv, false, 0⟩, ⟨4, 4, .ro, false, 0⟩, ⟨3, 1, .rv, false, 0⟩, ⟨0, 0, .ro, false, 0⟩]]⟩,
  ⟨.CANE_CTL, 0x150004, [(0x100, 4)], .steward,
    [[⟨31, 16, .rw, false, 0xc8⟩, ⟨15, 0, .rw, false, 0x64⟩]]⟩,
  ⟨.CANE_STAT, 0x150008, [(0x100, 4)], .firmware,
    [[⟨31, 28, .rv, false, 0⟩, ⟨27, 24, .ro, false, 0⟩, ⟨23, 20, .ro, false, 0⟩, ⟨19, 16, .rv, false, 0⟩, ⟨15, 12, .ro, false, 0⟩, ⟨11, 3, .rv, false, 0⟩, ⟨2, 0, .lv, false, 0⟩]]⟩,
  ⟨.CANE_SKEW_A, 0x150010, [(0x100, 4)], .firmware,
    [[⟨31, 26, .rv, false, 0⟩, ⟨25, 16, .ro, false, 0x3ff⟩, ⟨15, 10, .rv, false, 0⟩, ⟨9, 0, .ro, false, 0x3ff⟩]]⟩,
  ⟨.CANE_SKEW_B, 0x150014, [(0x100, 4)], .firmware,
    [[⟨31, 26, .rv, false, 0⟩, ⟨25, 16, .ro, false, 0x3ff⟩, ⟨15, 10, .rv, false, 0⟩, ⟨9, 0, .ro, false, 0x3ff⟩]]⟩,
  ⟨.CANE_EVENT, 0x150020, [(0x100, 4)], .steward,
    [[⟨31, 24, .sq, false, 0⟩, ⟨23, 9, .rv, false, 0⟩, ⟨8, 8, .sq, false, 0⟩, ⟨7, 7, .sq, false, 0⟩, ⟨6, 6, .sq, false, 0⟩, ⟨5, 5, .sq, false, 0⟩, ⟨4, 4, .sq, false, 0⟩, ⟨3, 3, .sq, false, 0⟩, ⟨2, 2, .sq, false, 0⟩, ⟨1, 1, .sq, false, 0⟩, ⟨0, 0, .sq, false, 0⟩]]⟩,
  ⟨.CANE_EVENT_MASK, 0x150024, [(0x100, 4)], .steward,
    [[⟨31, 9, .rv, false, 0⟩, ⟨8, 0, .rw, false, 0x1ff⟩]]⟩,
  ⟨.CANE_LOSS_FRAMES, 0x150030, [(0x100, 4)], .firmware,
    List.replicate 2 [⟨31, 0, .ro, false, 0⟩]⟩,
  ⟨.CANE_AM_ERR, 0x150040, [(0x100, 4), (0x4, 4)], .firmware,
    [[⟨31, 0, .ro, false, 0⟩]]⟩]

def rowsWake : List RegRow := [
  ⟨.WAKE_CFG, 0x160000, [], .steward,
    [[⟨31, 24, .rw, false, 0⟩, ⟨23, 14, .rv, false, 0⟩, ⟨13, 0, .rw, false, 0⟩]]⟩,
  ⟨.WAKE_IN_CFG, 0x160004, [], .firmware,
    [[⟨7, 4, .ro, true, 0⟩, ⟨3, 2, .rv, false, 0⟩, ⟨1, 1, .ro, true, 0⟩, ⟨0, 0, .ro, true, 0⟩, ⟨15, 12, .ro, true, 0⟩, ⟨11, 10, .rv, false, 0⟩, ⟨9, 9, .ro, true, 0⟩, ⟨8, 8, .ro, true, 0⟩, ⟨23, 20, .ro, true, 0⟩, ⟨19, 18, .rv, false, 0⟩, ⟨17, 17, .ro, true, 0⟩, ⟨16, 16, .ro, true, 0⟩, ⟨31, 28, .ro, true, 0⟩, ⟨27, 26, .rv, false, 0⟩, ⟨25, 25, .ro, true, 0⟩, ⟨24, 24, .ro, true, 0⟩]]⟩,
  ⟨.WAKE_DET_EN, 0x160008, [], .steward,
    List.replicate 2 [⟨31, 0, .rw, false, 0⟩]⟩,
  ⟨.WAKE_PENDING, 0x160010, [], .firmware,
    List.replicate 2 [⟨31, 0, .lv, false, 0⟩]⟩,
  ⟨.WAKE_CAUSE, 0x160018, [], .firmware,
    [[⟨31, 28, .ro, false, 0⟩, ⟨27, 27, .ro, false, 0⟩, ⟨26, 14, .rv, false, 0⟩, ⟨13, 8, .ro, false, 0⟩, ⟨7, 0, .rv, false, 0⟩]]⟩,
  ⟨.WAKE_EVENT, 0x160020, [], .steward,
    [[⟨31, 24, .sq, false, 0⟩, ⟨23, 6, .rv, false, 0⟩, ⟨5, 5, .sq, false, 0⟩, ⟨4, 4, .sq, false, 0⟩, ⟨3, 3, .sq, false, 0⟩, ⟨2, 2, .sq, false, 0⟩, ⟨1, 1, .sq, false, 0⟩, ⟨0, 0, .sq, false, 0⟩]]⟩,
  ⟨.WAKE_EVENT_MASK, 0x160024, [], .steward,
    [[⟨31, 6, .rv, false, 0⟩, ⟨5, 0, .rw, false, 0x3f⟩]]⟩,
  ⟨.WAKE_PARK_DET, 0x160040, [(0x4, 16)], .firmware,
    [[⟨31, 8, .rv, false, 0⟩, ⟨7, 7, .ro, true, 0⟩, ⟨6, 6, .rv, false, 0⟩, ⟨5, 0, .ro, true, 0⟩]]⟩,
  ⟨.WAKE_PGROUP, 0x160080, [(0x4, 8)], .firmware,
    [[⟨31, 0, .ro, true, 0⟩]]⟩,
  ⟨.WAKE_TABLE, 0x160100, [(0x4, 16)], .firmware,
    [[⟨31, 28, .ro, true, 0⟩, ⟨27, 22, .rv, false, 0⟩, ⟨21, 16, .ro, true, 0⟩, ⟨15, 0, .ro, true, 0⟩]]⟩,
  ⟨.WAKE_FWD_MASK, 0x160208, [(0x8, 15)], .firmware,
    List.replicate 2 [⟨31, 0, .ro, true, 0⟩]⟩,
  ⟨.WAKE_PCOUNT, 0x160400, [(0x4, 64)], .firmware,
    [[⟨31, 24, .ro, false, 0⟩, ⟨23, 16, .ro, false, 0⟩, ⟨15, 8, .ro, false, 0⟩, ⟨7, 0, .ro, false, 0⟩]]⟩]

def rowsAon : List RegRow := [
  ⟨.AON_MODE, 0x170000, [], .firmware,
    [[⟨31, 9, .rv, false, 0⟩, ⟨8, 8, .ro, false, 0⟩, ⟨7, 4, .rv, false, 0⟩, ⟨3, 3, .ro, false, 0⟩, ⟨2, 0, .ro, true, 3⟩]]⟩,
  ⟨.AON_WR_PEND, 0x170004, [], .firmware,
    [[⟨31, 3, .rv, false, 0⟩, ⟨2, 0, .ro, false, 0⟩]]⟩,
  ⟨.AON_START_CTL, 0x170010, [], .firmware,
    [[⟨31, 2, .rv, false, 0⟩, ⟨1, 1, .rw, false, 0⟩, ⟨0, 0, .rw, false, 0⟩]]⟩,
  ⟨.AON_START_STAT, 0x170014, [], .firmware,
    [[⟨31, 28, .ro, false, 0⟩, ⟨27, 10, .rv, false, 0⟩, ⟨9, 8, .ro, false, 0⟩, ⟨7, 2, .rv, false, 0⟩, ⟨1, 0, .ro, false, 0⟩]]⟩,
  ⟨.AON_START_CFG, 0x170018, [], .firmware,
    [[⟨31, 16, .rv, false, 0⟩, ⟨15, 8, .rw, false, 0x64⟩, ⟨7, 0, .rw, false, 0x14⟩]]⟩,
  ⟨.AON_PARK_CFG, 0x17001c, [], .firmware,
    [[⟨31, 16, .rv, false, 0⟩, ⟨15, 8, .rw, false, 2⟩, ⟨7, 2, .rv, false, 0⟩, ⟨1, 1, .rw, false, 1⟩, ⟨0, 0, .rw, false, 1⟩]]⟩,
  ⟨.AON_SECONDS, 0x170020, [], .firmware,
    [[⟨31, 0, .ro, false, 0⟩], [⟨31, 16, .rv, false, 0⟩, ⟨15, 0, .ro, false, 0⟩]]⟩,
  ⟨.AON_ALARM, 0x170028, [], .firmware,
    [[⟨31, 0, .rw, false, 0⟩]]⟩,
  ⟨.AON_ALARM_CTL, 0x17002c, [], .firmware,
    [[⟨31, 1, .rv, false, 0⟩, ⟨0, 0, .rw, false, 0⟩]]⟩,
  ⟨.AON_RET_SEAL, 0x170030, [], .firmware,
    [[⟨31, 31, .ro, false, 0⟩, ⟨30, 16, .rv, false, 0⟩, ⟨15, 0, .ro, false, 0⟩]]⟩,
  ⟨.AON_FW_GEN, 0x170034, [], .firmware,
    [[⟨31, 0, .ro, false, 0⟩]]⟩,
  ⟨.AON_SLCK_CFG, 0x170040, [], .firmware,
    [[⟨31, 10, .rv, false, 0⟩, ⟨9, 9, .ro, false, 0⟩, ⟨8, 8, .ro, false, 0⟩, ⟨7, 2, .rv, false, 0⟩, ⟨1, 1, .ro, false, 0⟩, ⟨0, 0, .rw, true, 0⟩]]⟩,
  ⟨.AON_SAFE_STAT, 0x170050, [], .firmware,
    [[⟨31, 31, .ro, false, 0⟩, ⟨30, 28, .ro, false, 0⟩, ⟨27, 24, .ro, false, 0⟩, ⟨23, 16, .ro, false, 0⟩, ⟨15, 8, .ro, false, 0⟩, ⟨7, 5, .rv, false, 0⟩, ⟨4, 4, .ro, false, 0⟩, ⟨3, 0, .ro, false, 0⟩]]⟩,
  ⟨.AON_REACT_RESETS, 0x170054, [], .firmware,
    [[⟨31, 3, .rv, false, 0⟩, ⟨2, 0, .ro, false, 0⟩]]⟩,
  ⟨.AON_RET_CRC, 0x170080, [(0x4, 16)], .firmware,
    [[⟨31, 0, .ro, false, 0⟩]]⟩,
  ⟨.AON_MOULD_DIGEST, 0x170100, [], .firmware,
    List.replicate 12 [⟨31, 0, .ro, false, 0⟩]⟩]

def rowsPort0 : List RegRow := [
  ⟨.PORT_CTL, 0x1000000, [(0x10000, 64)], .head,
    [[⟨31, 6, .rv, false, 0⟩, ⟨5, 5, .rw, false, 0⟩, ⟨4, 4, .rw, false, 0⟩, ⟨3, 2, .rv, false, 0⟩, ⟨1, 0, .rw, false, 0⟩]]⟩,
  ⟨.PORT_STATE, 0x1000004, [(0x10000, 64)], .firmware,
    [[⟨31, 24, .ro, false, 0⟩, ⟨23, 16, .ro, false, 0⟩, ⟨15, 15, .rv, false, 0⟩, ⟨14, 14, .ro, false, 0⟩, ⟨13, 13, .lv, false, 0⟩, ⟨12, 12, .lv, false, 0⟩, ⟨11, 10, .rv, false, 0⟩, ⟨9, 8, .ro, false, 0⟩, ⟨7, 4, .ro, false, 0⟩, ⟨3, 3, .rv, false, 0⟩, ⟨2, 0, .ro, false, 0⟩]]⟩,
  ⟨.PORT_MODE_CFG, 0x1000010, [(0x10000, 64)], .head,
    [[⟨31, 16, .rv, false, 0⟩, ⟨15, 14, .ws, false, 0⟩, ⟨13, 13, .rv, false, 0⟩, ⟨12, 12, .ws, false, 0⟩, ⟨11, 8, .ws, false, 0⟩, ⟨7, 4, .ro, false, 0⟩, ⟨3, 0, .ro, false, 0⟩]]⟩,
  ⟨.PORT_ADV, 0x1000014, [(0x10000, 64)], .head,
    [[⟨31, 8, .rv, false, 0⟩, ⟨7, 1, .ws, false, 0⟩, ⟨0, 0, .rv, false, 0⟩]]⟩,
  ⟨.PORT_TIMERS, 0x1000018, [(0x10000, 64)], .head,
    [[⟨31, 24, .rw, false, 0x1e⟩, ⟨23, 20, .rw, false, 6⟩, ⟨19, 16, .rw, false, 5⟩, ⟨15, 8, .rw, false, 0xa⟩, ⟨7, 0, .rw, false, 4⟩]]⟩,
  ⟨.PORT_TIMERS2, 0x100001c, [(0x10000, 64)], .head,
    [[⟨31, 20, .rv, false, 0⟩, ⟨19, 16, .rw, false, 3⟩, ⟨15, 0, .rw, false, 0x1f4⟩]]⟩,
  ⟨.PORT_TX_AMP, 0x1000020, [(0x10000, 64)], .head,
    [[⟨31, 26, .rv, false, 0⟩, ⟨25, 16, .ro, false, 0⟩, ⟨15, 15, .rw, false, 0⟩, ⟨14, 10, .rv, false, 0⟩, ⟨9, 0, .rw, false, 0⟩]]⟩,
  ⟨.PORT_LOCAL_ID, 0x1000028, [(0x10000, 64)], .firmware,
    List.replicate 2 [⟨31, 0, .ro, false, 0⟩]⟩,
  ⟨.PORT_PARTNER_ABIL, 0x1000030, [(0x10000, 64)], .firmware,
    [[⟨31, 12, .rv, false, 0⟩, ⟨11, 11, .ro, false, 0⟩, ⟨10, 10, .ro, false, 0⟩, ⟨9, 8, .ro, false, 0⟩, ⟨7, 1, .ro, false, 0⟩, ⟨0, 0, .rv, false, 0⟩]]⟩,
  ⟨.PORT_PARTNER_FLAGS, 0x1000034, [(0x10000, 64)], .firmware,
    [[⟨31, 4, .rv, false, 0⟩, ⟨3, 3, .ro, false, 0⟩, ⟨2, 1, .ro, false, 0⟩, ⟨0, 0, .ro, false, 0⟩]]⟩,
  ⟨.PORT_PARTNER_ID, 0x1000038, [(0x10000, 64)], .firmware,
    List.replicate 2 [⟨31, 0, .ro, false, 0⟩]⟩,
  ⟨.PORT_PARTNER_REF_ABIL, 0x1000040, [(0x10000, 64)], .firmware,
    [[⟨31, 12, .rv, false, 0⟩, ⟨11, 11, .rw, false, 0⟩, ⟨10, 10, .rw, false, 0⟩, ⟨9, 8, .rw, false, 0⟩, ⟨7, 1, .rw, false, 0⟩, ⟨0, 0, .rv, false, 0⟩]]⟩,
  ⟨.PORT_PARTNER_REF_FLAGS, 0x1000044, [(0x10000, 64)], .head,
    [[⟨31, 4, .rv, false, 0⟩, ⟨3, 3, .rw, false, 0⟩, ⟨2, 1, .rw, false, 0⟩, ⟨0, 0, .rw, false, 0⟩]]⟩,
  ⟨.PORT_PARTNER_REF_ID, 0x1000048, [(0x10000, 64)], .firmware,
    List.replicate 2 [⟨31, 0, .rw, false, 0⟩]⟩,
  ⟨.PORT_LINK_QUAL, 0x1000060, [(0x10000, 64)], .head,
    [[⟨31, 16, .ro, false, 0x8000⟩, ⟨15, 7, .rv, false, 0⟩, ⟨6, 4, .rw, false, 7⟩, ⟨3, 3, .rv, false, 0⟩, ⟨2, 0, .ro, false, 0⟩]]⟩,
  ⟨.PORT_QUAL_CFG, 0x1000064, [(0x10000, 64)], .head,
    [[⟨31, 16, .rv, false, 0⟩, ⟨15, 8, .rw, false, 0x10⟩, ⟨7, 7, .rv, false, 0⟩, ⟨6, 4, .rw, false, 1⟩, ⟨3, 3, .rv, false, 0⟩, ⟨2, 0, .rw, false, 3⟩]]⟩,
  ⟨.PORT_MSE_REF, 0x1000068, [(0x10000, 64)], .firmware,
    [[⟨31, 16, .rv, false, 0⟩, ⟨15, 0, .ro, false, 0⟩]]⟩,
  ⟨.PORT_FEC_CORR, 0x1000070, [(0x10000, 64)], .firmware,
    List.replicate 2 [⟨31, 0, .ro, false, 0⟩]⟩,
  ⟨.PORT_FEC_UNCORR, 0x1000078, [(0x10000, 64)], .firmware,
    List.replicate 2 [⟨31, 0, .ro, false, 0⟩]⟩,
  ⟨.PORT_DROP_COUNT, 0x1000080, [(0x10000, 64)], .firmware,
    [[⟨31, 0, .ro, false, 0⟩]]⟩,
  ⟨.PORT_DROP_HIST_IDX, 0x1000084, [(0x10000, 64)], .firmware,
    [[⟨31, 9, .rv, false, 0⟩, ⟨8, 8, .ro, false, 0⟩, ⟨7, 3, .rv, false, 0⟩, ⟨2, 0, .ro, false, 0⟩]]⟩,
  ⟨.PORT_DROP_HIST, 0x1000090, [(0x10000, 64), (0x10, 8)], .firmware,
    [[⟨31, 0, .ro, false, 0⟩], [⟨31, 0, .ro, false, 0⟩], [⟨31, 17, .rv, false, 0⟩, ⟨16, 16, .ro, false, 0⟩, ⟨15, 15, .ro, false, 0⟩, ⟨14, 12, .ro, false, 0⟩, ⟨11, 8, .ro, false, 0⟩, ⟨7, 0, .ro, false, 0⟩], [⟨31, 16, .ro, false, 0⟩, ⟨15, 0, .ro, false, 0⟩]]⟩,
  ⟨.PORT_EVENT, 0x1000110, [(0x10000, 64)], .head,
    [[⟨31, 24, .sq, false, 0⟩, ⟨23, 15, .rv, false, 0⟩, ⟨14, 14, .sq, false, 0⟩, ⟨13, 13, .sq, false, 0⟩, ⟨12, 12, .sq, false, 0⟩, ⟨11, 11, .sq, false, 0⟩, ⟨10, 10, .sq, false, 0⟩, ⟨9, 9, .sq, false, 0⟩, ⟨8, 8, .sq, false, 0⟩, ⟨7, 7, .sq, false, 0⟩, ⟨6, 6, .sq, false, 0⟩, ⟨5, 5, .sq, false, 0⟩, ⟨4, 4, .sq, false, 0⟩, ⟨3, 3, .sq, false, 0⟩, ⟨2, 2, .sq, false, 0⟩, ⟨1, 1, .sq, false, 0⟩, ⟨0, 0, .sq, false, 0⟩]]⟩,
  ⟨.PORT_EVENT_MASK, 0x1000114, [(0x10000, 64)], .head,
    [[⟨31, 15, .rv, false, 0⟩, ⟨14, 0, .rw, false, 0x7fff⟩]]⟩]

def rowsPort1 : List RegRow := [
  ⟨.PORT_MAC_CFG, 0x1000120, [(0x10000, 64)], .head,
    [[⟨31, 17, .rv, false, 0⟩, ⟨16, 16, .rw, false, 0⟩, ⟨15, 14, .rv, false, 0⟩, ⟨13, 0, .rw, false, 0x5f2⟩]]⟩,
  ⟨.PORT_RX_FRAMES, 0x1000130, [(0x10000, 64)], .firmware,
    List.replicate 2 [⟨31, 0, .ro, false, 0⟩]⟩,
  ⟨.PORT_RX_BYTES, 0x1000138, [(0x10000, 64)], .firmware,
    List.replicate 2 [⟨31, 0, .ro, false, 0⟩]⟩,
  ⟨.PORT_RX_FCS_ERR, 0x1000140, [(0x10000, 64)], .firmware,
    List.replicate 2 [⟨31, 0, .ro, false, 0⟩]⟩,
  ⟨.PORT_RX_RUNT, 0x1000148, [(0x10000, 64)], .firmware,
    List.replicate 2 [⟨31, 0, .ro, false, 0⟩]⟩,
  ⟨.PORT_RX_OVERSIZE, 0x1000150, [(0x10000, 64)], .firmware,
    List.replicate 2 [⟨31, 0, .ro, false, 0⟩]⟩,
  ⟨.PORT_RX_ORPHAN_DROP, 0x1000158, [(0x10000, 64)], .firmware,
    List.replicate 2 [⟨31, 0, .ro, false, 0⟩]⟩,
  ⟨.PORT_RX_PAUSE, 0x1000160, [(0x10000, 64)], .firmware,
    List.replicate 2 [⟨31, 0, .ro, false, 0⟩]⟩,
  ⟨.PORT_TX_FRAMES, 0x1000168, [(0x10000, 64)], .firmware,
    List.replicate 2 [⟨31, 0, .ro, false, 0⟩]⟩,
  ⟨.PORT_TX_BYTES, 0x1000170, [(0x10000, 64)], .firmware,
    List.replicate 2 [⟨31, 0, .ro, false, 0⟩]⟩,
  ⟨.PORT_TX_OVERSIZE, 0x1000178, [(0x10000, 64)], .firmware,
    List.replicate 2 [⟨31, 0, .ro, false, 0⟩]⟩,
  ⟨.PORT_CNT_CTL, 0x1000180, [(0x10000, 64)], .head,
    [[⟨31, 1, .rv, false, 0⟩, ⟨0, 0, .rw, false, 0⟩]]⟩,
  ⟨.PORT_TAP_CTL, 0x1000200, [(0x10000, 64)], .head,
    [[⟨31, 2, .rv, false, 0⟩, ⟨1, 1, .rw, false, 1⟩, ⟨0, 0, .rw, false, 0⟩]]⟩,
  ⟨.PORT_TAP_MAN, 0x1000204, [(0x10000, 64)], .head,
    [[⟨31, 18, .rv, false, 0⟩, ⟨17, 12, .rw, false, 0⟩, ⟨11, 6, .rw, false, 0x3f⟩, ⟨5, 0, .rw, false, 0⟩]]⟩,
  ⟨.PORT_TAP_STD, 0x1000208, [(0x10000, 64)], .head,
    [[⟨31, 18, .rv, false, 0⟩, ⟨17, 12, .rw, false, 0⟩, ⟨11, 6, .rw, false, 0x3f⟩, ⟨5, 0, .rw, false, 0⟩]]⟩,
  ⟨.PORT_TAP_ACTIVE, 0x100020c, [(0x10000, 64)], .firmware,
    [[⟨31, 20, .rv, false, 0⟩, ⟨19, 18, .ro, false, 2⟩, ⟨17, 0, .ro, false, 0xfc0⟩]]⟩,
  ⟨.PORT_TAP_STAT, 0x1000210, [(0x10000, 64)], .firmware,
    [[⟨31, 16, .rv, false, 0⟩, ⟨15, 8, .ro, false, 0⟩, ⟨7, 0, .ro, false, 0⟩]]⟩,
  ⟨.PORT_X50_STAT, 0x1000220, [(0x10000, 64)], .firmware,
    [[⟨31, 16, .rv, false, 0⟩, ⟨15, 8, .ro, false, 0⟩, ⟨7, 5, .rv, false, 0⟩, ⟨4, 4, .ro, false, 0⟩, ⟨3, 3, .ro, false, 0⟩, ⟨2, 2, .ro, false, 0⟩, ⟨1, 1, .ro, false, 0⟩, ⟨0, 0, .ro, false, 0⟩]]⟩,
  ⟨.PORT_AM_STAT, 0x1000230, [(0x10000, 64)], .firmware,
    [[⟨31, 16, .ro, false, 0⟩, ⟨15, 12, .ro, false, 0⟩, ⟨11, 8, .ro, false, 0⟩, ⟨7, 6, .ro, false, 0⟩, ⟨5, 3, .rv, false, 0⟩, ⟨2, 2, .lv, false, 0⟩, ⟨1, 1, .lv, false, 0⟩, ⟨0, 0, .lv, false, 0⟩]]⟩,
  ⟨.PORT_TRK_EVENT, 0x10002f0, [(0x10000, 64)], .head,
    [[⟨31, 24, .sq, false, 0⟩, ⟨23, 4, .rv, false, 0⟩, ⟨3, 3, .sq, false, 0⟩, ⟨2, 2, .sq, false, 0⟩, ⟨1, 1, .sq, false, 0⟩, ⟨0, 0, .sq, false, 0⟩]]⟩,
  ⟨.PORT_TRK_EVENT_MASK, 0x10002f4, [(0x10000, 64)], .head,
    [[⟨31, 4, .rv, false, 0⟩, ⟨3, 0, .rw, false, 0xf⟩]]⟩,
  ⟨.PORT_LOOP_CTL, 0x1000300, [(0x10000, 64)], .head,
    [[⟨31, 12, .rv, false, 0⟩, ⟨11, 8, .rw, false, 0⟩, ⟨7, 7, .rw, false, 0⟩, ⟨6, 6, .rw, false, 0⟩, ⟨5, 4, .rw, false, 0⟩, ⟨3, 2, .rw, false, 0⟩, ⟨1, 1, .rw, false, 0⟩, ⟨0, 0, .rw, false, 0⟩]]⟩,
  ⟨.PORT_LOOP_TIME, 0x1000304, [(0x10000, 64)], .head,
    [[⟨31, 0, .rw, false, 0x3e8⟩]]⟩,
  ⟨.PORT_LOOP_STAT, 0x1000308, [(0x10000, 64)], .firmware,
    [[⟨31, 12, .rv, false, 0⟩, ⟨11, 8, .ro, false, 0⟩, ⟨7, 3, .rv, false, 0⟩, ⟨2, 0, .lv, false, 0⟩]]⟩]

def rowsPort2 : List RegRow := [
  ⟨.PORT_LOOP_BITS, 0x1000310, [(0x10000, 64)], .firmware,
    List.replicate 2 [⟨31, 0, .ro, false, 0⟩]⟩,
  ⟨.PORT_LOOP_ERRS, 0x1000318, [(0x10000, 64)], .firmware,
    List.replicate 2 [⟨31, 0, .ro, false, 0⟩]⟩,
  ⟨.PORT_SEG_CFG, 0x1000400, [(0x10000, 64)], .head,
    [[⟨31, 24, .ws, false, 0⟩, ⟨23, 16, .ws, false, 0⟩, ⟨15, 10, .rv, false, 0⟩, ⟨9, 9, .rw, false, 1⟩, ⟨8, 8, .rw, false, 0⟩, ⟨7, 5, .rv, false, 0⟩, ⟨4, 4, .rw, false, 0⟩, ⟨3, 2, .rv, false, 0⟩, ⟨1, 1, .ws, false, 0⟩, ⟨0, 0, .ws, false, 0⟩]]⟩,
  ⟨.PORT_SEG_TIMING, 0x1000404, [(0x10000, 64)], .head,
    [[⟨31, 24, .rw, false, 0x32⟩, ⟨23, 16, .ws, false, 0x80⟩, ⟨15, 8, .ws, false, 0⟩, ⟨7, 0, .ws, false, 0⟩]]⟩,
  ⟨.PORT_SEG_STAT, 0x1000408, [(0x10000, 64)], .firmware,
    [[⟨31, 24, .ro, false, 0⟩, ⟨23, 14, .rv, false, 0⟩, ⟨13, 8, .ro, false, 0⟩, ⟨7, 3, .rv, false, 0⟩, ⟨2, 2, .lv, false, 0⟩, ⟨1, 1, .lv, false, 0⟩, ⟨0, 0, .lv, false, 0⟩]]⟩,
  ⟨.PORT_SEG_CYCLE, 0x100040c, [(0x10000, 64)], .firmware,
    [[⟨31, 16, .ro, false, 0⟩, ⟨15, 0, .ro, false, 0⟩]]⟩,
  ⟨.PORT_SEG_COLL, 0x1000410, [(0x10000, 64)], .firmware,
    List.replicate 2 [⟨31, 0, .ro, false, 0⟩]⟩,
  ⟨.PORT_SEG_LATE, 0x1000418, [(0x10000, 64)], .firmware,
    List.replicate 2 [⟨31, 0, .ro, false, 0⟩]⟩,
  ⟨.PORT_SEG_EXCESS, 0x1000420, [(0x10000, 64)], .firmware,
    List.replicate 2 [⟨31, 0, .ro, false, 0⟩]⟩,
  ⟨.PORT_SEG_CENSUS_CTL, 0x1000430, [(0x10000, 64)], .head,
    [[⟨31, 16, .rw, false, 0x3e8⟩, ⟨15, 1, .rv, false, 0⟩, ⟨0, 0, .rw, false, 0⟩]]⟩,
  ⟨.PORT_SEG_CENSUS, 0x1000440, [(0x10000, 64), (0x4, 32)], .firmware,
    [[⟨31, 31, .ro, false, 0⟩, ⟨30, 30, .ro, false, 0⟩, ⟨29, 29, .ro, false, 0⟩, ⟨28, 27, .rv, false, 0⟩, ⟨26, 24, .ro, false, 0⟩, ⟨23, 16, .rv, false, 0⟩, ⟨15, 0, .ro, false, 0⟩]]⟩,
  ⟨.PORT_SEG_EVENT, 0x10004f0, [(0x10000, 64)], .head,
    [[⟨31, 24, .sq, false, 0⟩, ⟨23, 6, .rv, false, 0⟩, ⟨5, 5, .sq, false, 0⟩, ⟨4, 4, .sq, false, 0⟩, ⟨3, 3, .sq, false, 0⟩, ⟨2, 2, .sq, false, 0⟩, ⟨1, 1, .sq, false, 0⟩, ⟨0, 0, .sq, false, 0⟩]]⟩,
  ⟨.PORT_SEG_EVENT_MASK, 0x10004f4, [(0x10000, 64)], .head,
    [[⟨31, 6, .rv, false, 0⟩, ⟨5, 0, .rw, false, 0x3f⟩]]⟩,
  ⟨.PORT_LPI_CFG, 0x1000500, [(0x10000, 64)], .head,
    [[⟨31, 16, .rw, false, 0x3e8⟩, ⟨15, 8, .rw, false, 0x10⟩, ⟨7, 3, .rv, false, 0⟩, ⟨2, 2, .rw, false, 0⟩, ⟨1, 1, .ws, false, 1⟩, ⟨0, 0, .ws, false, 1⟩]]⟩,
  ⟨.PORT_LPI_STAT, 0x1000504, [(0x10000, 64)], .firmware,
    [[⟨31, 8, .rv, false, 0⟩, ⟨7, 7, .ro, false, 0⟩, ⟨6, 6, .ro, false, 0⟩, ⟨5, 3, .rv, false, 0⟩, ⟨2, 2, .lv, false, 0⟩, ⟨1, 1, .lv, false, 0⟩, ⟨0, 0, .lv, false, 0⟩]]⟩,
  ⟨.PORT_LPI_ENTRIES, 0x1000508, [(0x10000, 64)], .firmware,
    [[⟨31, 0, .ro, false, 0⟩]]⟩,
  ⟨.PORT_LPI_TIME, 0x1000510, [(0x10000, 64)], .firmware,
    List.replicate 2 [⟨31, 0, .ro, false, 0⟩]⟩,
  ⟨.PORT_TC10_CFG, 0x1000520, [(0x10000, 64)], .head,
    [[⟨31, 16, .rv, false, 0⟩, ⟨15, 8, .rw, false, 0x10⟩, ⟨7, 3, .rv, false, 0⟩, ⟨2, 2, .rw, false, 1⟩, ⟨1, 1, .rv, false, 0⟩, ⟨0, 0, .rw, false, 1⟩]]⟩,
  ⟨.PORT_TC10_STAT, 0x1000524, [(0x10000, 64)], .firmware,
    [[⟨31, 11, .rv, false, 0⟩, ⟨10, 8, .ro, false, 0⟩, ⟨7, 2, .rv, false, 0⟩, ⟨1, 0, .lv, false, 0⟩]]⟩,
  ⟨.PORT_TC10_EVENT, 0x10005f0, [(0x10000, 64)], .head,
    [[⟨31, 24, .sq, false, 0⟩, ⟨23, 7, .rv, false, 0⟩, ⟨6, 6, .sq, false, 0⟩, ⟨5, 5, .sq, false, 0⟩, ⟨4, 4, .sq, false, 0⟩, ⟨3, 3, .sq, false, 0⟩, ⟨2, 2, .sq, false, 0⟩, ⟨1, 1, .sq, false, 0⟩, ⟨0, 0, .sq, false, 0⟩]]⟩,
  ⟨.PORT_TC10_EVENT_MASK, 0x10005f4, [(0x10000, 64)], .head,
    [[⟨31, 7, .rv, false, 0⟩, ⟨6, 0, .rw, false, 0x7f⟩]]⟩]

def rowsPort : List RegRow := rowsPort0 ++ rowsPort1 ++ rowsPort2

def rowsQp0 : List RegRow := [
  ⟨.QP_RX_BASE, 0x2000000, [(0x1000, 512)], .head,
    [[⟨31, 6, .rw, false, 0⟩, ⟨5, 0, .rv, false, 0⟩], [⟨31, 0, .rw, false, 0⟩]]⟩,
  ⟨.QP_RX_CFG, 0x2000008, [(0x1000, 512)], .head,
    [[⟨31, 30, .rv, false, 0⟩, ⟨29, 24, .ro, false, 0⟩, ⟨23, 23, .rv, false, 0⟩, ⟨22, 20, .ro, false, 0⟩, ⟨19, 18, .rv, false, 0⟩, ⟨17, 16, .ro, false, 0⟩, ⟨15, 15, .ro, false, 0⟩, ⟨14, 13, .rv, false, 0⟩, ⟨12, 9, .ro, false, 0⟩, ⟨8, 0, .rw, false, 0⟩]]⟩,
  ⟨.QP_RX_CTL, 0x200000c, [(0x1000, 512)], .head,
    [[⟨31, 1, .rv, false, 0⟩, ⟨0, 0, .rw, false, 0⟩]]⟩,
  ⟨.QP_RX_HEAD_IDX, 0x2000010, [(0x1000, 512)], .head,
    [[⟨31, 31, .rv, false, 0⟩, ⟨30, 16, .ro, false, 0⟩, ⟨15, 15, .rv, false, 0⟩, ⟨14, 0, .rw, false, 0⟩]]⟩,
  ⟨.QP_RX_ACK, 0x2000014, [(0x1000, 512)], .head,
    [[⟨31, 15, .rv, false, 0⟩, ⟨14, 0, .rw, false, 0⟩]]⟩,
  ⟨.QP_RX_MOD, 0x2000018, [(0x1000, 512)], .head,
    [[⟨31, 26, .rv, false, 0⟩, ⟨25, 16, .rw, false, 0⟩, ⟨15, 8, .rv, false, 0⟩, ⟨7, 0, .rw, false, 0⟩]]⟩,
  ⟨.QP_RX_STAT, 0x200001c, [(0x1000, 512)], .firmware,
    [[⟨31, 28, .ro, false, 0⟩, ⟨27, 24, .ro, false, 0⟩, ⟨23, 20, .rv, false, 0⟩, ⟨19, 16, .ro, false, 0⟩, ⟨15, 15, .lv, false, 0⟩, ⟨14, 3, .rv, false, 0⟩, ⟨2, 2, .ro, false, 0⟩, ⟨1, 1, .lv, false, 0⟩, ⟨0, 0, .rv, false, 0⟩]]⟩,
  ⟨.QP_RX_STATE, 0x2000020, [(0x1000, 512)], .firmware,
    [[⟨31, 2, .rv, false, 0⟩, ⟨1, 0, .lv, false, 0⟩]]⟩,
  ⟨.QP_RX_FRAMES, 0x2000028, [(0x1000, 512)], .firmware,
    List.replicate 2 [⟨31, 0, .ro, false, 0⟩]⟩,
  ⟨.QP_RX_DROPS, 0x2000030, [(0x1000, 512)], .firmware,
    List.replicate 2 [⟨31, 0, .ro, false, 0⟩]⟩,
  ⟨.QP_RX_BAD, 0x2000038, [(0x1000, 512)], .firmware,
    [[⟨31, 0, .ro, false, 0⟩]]⟩,
  ⟨.QP_TX_BASE, 0x2000100, [(0x1000, 512)], .head,
    [[⟨31, 6, .rw, false, 0⟩, ⟨5, 0, .rv, false, 0⟩], [⟨31, 0, .rw, false, 0⟩]]⟩,
  ⟨.QP_TX_CFG, 0x2000108, [(0x1000, 512)], .head,
    [[⟨31, 30, .rv, false, 0⟩, ⟨29, 24, .rw, false, 0⟩, ⟨23, 23, .rv, false, 0⟩, ⟨22, 20, .rw, false, 0⟩, ⟨19, 18, .rv, false, 0⟩, ⟨17, 16, .ro, false, 0⟩, ⟨15, 15, .ro, false, 0⟩, ⟨14, 13, .rv, false, 0⟩, ⟨12, 9, .ro, false, 0⟩, ⟨8, 0, .rw, false, 0⟩]]⟩,
  ⟨.QP_TX_CTL, 0x200010c, [(0x1000, 512)], .head,
    [[⟨31, 1, .rv, false, 0⟩, ⟨0, 0, .rw, false, 0⟩]]⟩,
  ⟨.QP_TX_HEAD_IDX, 0x2000110, [(0x1000, 512)], .head,
    [[⟨31, 31, .rv, false, 0⟩, ⟨30, 16, .ro, false, 0⟩, ⟨15, 15, .rv, false, 0⟩, ⟨14, 0, .rw, false, 0⟩]]⟩,
  ⟨.QP_TX_ACK, 0x2000114, [(0x1000, 512)], .head,
    [[⟨31, 15, .rv, false, 0⟩, ⟨14, 0, .rw, false, 0⟩]]⟩,
  ⟨.QP_TX_MOD, 0x2000118, [(0x1000, 512)], .head,
    [[⟨31, 26, .rv, false, 0⟩, ⟨25, 16, .rw, false, 0⟩, ⟨15, 8, .rv, false, 0⟩, ⟨7, 0, .rw, false, 0⟩]]⟩,
  ⟨.QP_TX_STAT, 0x200011c, [(0x1000, 512)], .firmware,
    [[⟨31, 28, .ro, false, 0⟩, ⟨27, 24, .ro, false, 0⟩, ⟨23, 20, .rv, false, 0⟩, ⟨19, 16, .ro, false, 0⟩, ⟨15, 15, .lv, false, 0⟩, ⟨14, 3, .rv, false, 0⟩, ⟨2, 2, .ro, false, 0⟩, ⟨1, 1, .lv, false, 0⟩, ⟨0, 0, .rv, false, 0⟩]]⟩,
  ⟨.QP_TX_STATE, 0x2000120, [(0x1000, 512)], .firmware,
    [[⟨31, 2, .rv, false, 0⟩, ⟨1, 0, .lv, false, 0⟩]]⟩,
  ⟨.QP_TX_FRAMES, 0x2000128, [(0x1000, 512)], .firmware,
    List.replicate 2 [⟨31, 0, .ro, false, 0⟩]⟩,
  ⟨.QP_TX_DROPS, 0x2000130, [(0x1000, 512)], .firmware,
    List.replicate 2 [⟨31, 0, .ro, false, 0⟩]⟩,
  ⟨.QP_TX_BAD, 0x2000138, [(0x1000, 512)], .firmware,
    [[⟨31, 0, .ro, false, 0⟩]]⟩,
  ⟨.QP_EVENT, 0x2000200, [(0x1000, 512)], .head,
    [[⟨31, 24, .sq, false, 0⟩, ⟨23, 8, .rv, false, 0⟩, ⟨7, 7, .sq, false, 0⟩, ⟨6, 6, .sq, false, 0⟩, ⟨5, 5, .sq, false, 0⟩, ⟨4, 4, .sq, false, 0⟩, ⟨3, 3, .sq, false, 0⟩, ⟨2, 2, .sq, false, 0⟩, ⟨1, 1, .sq, false, 0⟩, ⟨0, 0, .sq, false, 0⟩]]⟩,
  ⟨.QP_EVENT_MASK, 0x2000204, [(0x1000, 512)], .head,
    [[⟨31, 8, .rv, false, 0⟩, ⟨7, 0, .rw, false, 3⟩]]⟩]

def rowsQp1 : List RegRow := [
  ⟨.QP_SUM, 0x2000208, [(0x1000, 512)], .firmware,
    [[⟨31, 1, .rv, false, 0⟩, ⟨0, 0, .lv, false, 0⟩]]⟩]

def rowsQp : List RegRow := rowsQp0 ++ rowsQp1

end Sys2Proof.Machine
end

