-- ==== Sys2Proof/Machine/Fields.lean ====
section
/-!
DEFINITION. The DRS offset of every register (R.…) and the place of every field (F.…), from the register tables of
spec/. Indices are arguments; a field of a value wider than 32 bits lies in the word that holds it.
-/
namespace Sys2Proof.Machine

/-- A field: the DRS byte offset of its word, its highest and its lowest bit. -/
structure Field where
  off : Nat
  hi : Nat
  lo : Nat
deriving DecidableEq, Repr

/-- An offset past the end of the register space, which names no register. -/
def outside : Nat := 0x4000000

/-- The offset of element i of n like registers; past the last there is none. -/
def at1 (base stride n i : Nat) : Nat := if i < n then base + i * stride else outside

/-- The offset of element (i, j) of n rows of m like registers. -/
def at2 (base stride n stride2 m i j : Nat) : Nat := if i < n ∧ j < m then base + i * stride + j * stride2 else outside

def R.GLB_ID : Nat := 0x0
def F.GLB_ID_part : Field := ⟨R.GLB_ID, 31, 16⟩
def F.GLB_ID_rev : Field := ⟨R.GLB_ID, 15, 0⟩
def R.GLB_VENDOR : Nat := 0x4
def F.GLB_VENDOR_vendor_id : Field := ⟨R.GLB_VENDOR, 15, 0⟩
def R.GLB_LIFECYCLE : Nat := 0x8
def F.GLB_LIFECYCLE_test_mode_seen : Field := ⟨R.GLB_LIFECYCLE, 4, 4⟩
def F.GLB_LIFECYCLE_state : Field := ⟨R.GLB_LIFECYCLE, 1, 0⟩
def R.GLB_STRAPS : Nat := 0xc
def F.GLB_STRAPS_bootsrc : Field := ⟨R.GLB_STRAPS, 2, 2⟩
def F.GLB_STRAPS_headcfg : Field := ⟨R.GLB_STRAPS, 1, 0⟩
def R.GLB_MODE : Nat := 0x10
def F.GLB_MODE_start_kind : Field := ⟨R.GLB_MODE, 17, 17⟩
def F.GLB_MODE_mould_ok : Field := ⟨R.GLB_MODE, 16, 16⟩
def F.GLB_MODE_holder : Field := ⟨R.GLB_MODE, 13, 12⟩
def F.GLB_MODE_deputy : Field := ⟨R.GLB_MODE, 11, 10⟩
def F.GLB_MODE_steward : Field := ⟨R.GLB_MODE, 9, 8⟩
def F.GLB_MODE_mode : Field := ⟨R.GLB_MODE, 2, 0⟩
def R.GLB_LIFECYCLE_CTL : Nat := 0x18
def F.GLB_LIFECYCLE_CTL_key : Field := ⟨R.GLB_LIFECYCLE_CTL, 31, 16⟩
def F.GLB_LIFECYCLE_CTL_result : Field := ⟨R.GLB_LIFECYCLE_CTL, 9, 8⟩
def F.GLB_LIFECYCLE_CTL_go : Field := ⟨R.GLB_LIFECYCLE_CTL, 2, 2⟩
def F.GLB_LIFECYCLE_CTL_target : Field := ⟨R.GLB_LIFECYCLE_CTL, 1, 0⟩
def R.GLB_COMMIT : Nat := 0x20
def F.GLB_COMMIT_mask : Field := ⟨R.GLB_COMMIT, 31, 0⟩
def R.GLB_COMMIT_STAT : Nat := 0x24
def F.GLB_COMMIT_STAT_last_path : Field := ⟨R.GLB_COMMIT_STAT, 14, 12⟩
def F.GLB_COMMIT_STAT_late : Field := ⟨R.GLB_COMMIT_STAT, 9, 9⟩
def F.GLB_COMMIT_STAT_pending : Field := ⟨R.GLB_COMMIT_STAT, 8, 8⟩
def F.GLB_COMMIT_STAT_commit_seq : Field := ⟨R.GLB_COMMIT_STAT, 7, 0⟩
def R.GLB_EVENT : Nat := 0x30
def F.GLB_EVENT_seq : Field := ⟨R.GLB_EVENT, 31, 24⟩
def F.GLB_EVENT_mould_change : Field := ⟨R.GLB_EVENT, 3, 3⟩
def F.GLB_EVENT_steward_change : Field := ⟨R.GLB_EVENT, 2, 2⟩
def F.GLB_EVENT_commit_late : Field := ⟨R.GLB_EVENT, 1, 1⟩
def F.GLB_EVENT_commit_done : Field := ⟨R.GLB_EVENT, 0, 0⟩
def R.GLB_EVENT_MASK : Nat := 0x34
def F.GLB_EVENT_MASK_enable : Field := ⟨R.GLB_EVENT_MASK, 3, 0⟩
def R.GLB_SUMMARY : Nat := 0x40
def F.GLB_SUMMARY_head : Field := ⟨R.GLB_SUMMARY, 22, 22⟩
def F.GLB_SUMMARY_qp : Field := ⟨R.GLB_SUMMARY, 21, 21⟩
def F.GLB_SUMMARY_port : Field := ⟨R.GLB_SUMMARY, 20, 20⟩
def F.GLB_SUMMARY_block : Field := ⟨R.GLB_SUMMARY, 19, 0⟩
def R.PWR_MODE_REQ : Nat := 0x10000
def F.PWR_MODE_REQ_target : Field := ⟨R.PWR_MODE_REQ, 2, 0⟩
def R.PWR_MODE_STAT : Nat := 0x10004
def F.PWR_MODE_STAT_entries : Field := ⟨R.PWR_MODE_STAT, 23, 16⟩
def F.PWR_MODE_STAT_last_refusal : Field := ⟨R.PWR_MODE_STAT, 9, 8⟩
def F.PWR_MODE_STAT_entering : Field := ⟨R.PWR_MODE_STAT, 2, 0⟩
def R.PWR_HOST_REQ : Nat := 0x10008
def F.PWR_HOST_REQ_vote : Field := ⟨R.PWR_HOST_REQ, 2, 0⟩
def R.PWR_KEEPER_REQ : Nat := 0x1000c
def F.PWR_KEEPER_REQ_force : Field := ⟨R.PWR_KEEPER_REQ, 8, 8⟩
def F.PWR_KEEPER_REQ_vote : Field := ⟨R.PWR_KEEPER_REQ, 2, 0⟩
def R.PWR_VOTES : Nat := 0x10010
def F.PWR_VOTES_target : Field := ⟨R.PWR_VOTES, 31, 29⟩
def F.PWR_VOTES_keeper_force : Field := ⟨R.PWR_VOTES, 28, 28⟩
def F.PWR_VOTES_keeper : Field := ⟨R.PWR_VOTES, 26, 24⟩
def F.PWR_VOTES_heads : Field := ⟨R.PWR_VOTES, 15, 0⟩
def R.PWR_WAKE_LATCH : Nat := 0x10014
def F.PWR_WAKE_LATCH_valid : Field := ⟨R.PWR_WAKE_LATCH, 31, 31⟩
def F.PWR_WAKE_LATCH_kind : Field := ⟨R.PWR_WAKE_LATCH, 30, 28⟩
def F.PWR_WAKE_LATCH_index : Field := ⟨R.PWR_WAKE_LATCH, 13, 8⟩
def F.PWR_WAKE_LATCH_count : Field := ⟨R.PWR_WAKE_LATCH, 7, 0⟩
def R.PWR_RET_STATUS : Nat := 0x10018
def F.PWR_RET_STATUS_sealed : Field := ⟨R.PWR_RET_STATUS, 31, 16⟩
def F.PWR_RET_STATUS_lost : Field := ⟨R.PWR_RET_STATUS, 15, 0⟩
def R.PWR_DOM_REQ : Nat := 0x10020
def F.PWR_DOM_REQ_domains : Field := ⟨R.PWR_DOM_REQ, 23, 0⟩
def R.PWR_DOM_STAT : Nat := 0x10024
def F.PWR_DOM_STAT_domains : Field := ⟨R.PWR_DOM_STAT, 23, 0⟩
def R.PWR_DOM_PEND : Nat := 0x10028
def F.PWR_DOM_PEND_domains : Field := ⟨R.PWR_DOM_PEND, 23, 0⟩
def R.PWR_DOM_FORCE : Nat := 0x1002c
def F.PWR_DOM_FORCE_domains : Field := ⟨R.PWR_DOM_FORCE, 23, 0⟩
def R.PWR_STBY_OFF : Nat := 0x10030
def F.PWR_STBY_OFF_mask : Field := ⟨R.PWR_STBY_OFF, 23, 0⟩
def R.PWR_POLICY : Nat := 0x10034
def F.PWR_POLICY_settle_s : Field := ⟨R.PWR_POLICY, 7, 0⟩
def R.PWR_AVS_STAT : Nat := 0x10040
def F.PWR_AVS_STAT_bus_fail : Field := ⟨R.PWR_AVS_STAT, 31, 31⟩
def F.PWR_AVS_STAT_loop : Field := ⟨R.PWR_AVS_STAT, 30, 30⟩
def F.PWR_AVS_STAT_target_mv : Field := ⟨R.PWR_AVS_STAT, 9, 0⟩
def R.PWR_EVENT : Nat := 0x100f0
def F.PWR_EVENT_seq : Field := ⟨R.PWR_EVENT, 31, 24⟩
def F.PWR_EVENT_retention_lost : Field := ⟨R.PWR_EVENT, 6, 6⟩
def F.PWR_EVENT_alarm : Field := ⟨R.PWR_EVENT, 5, 5⟩
def F.PWR_EVENT_avs_fail : Field := ⟨R.PWR_EVENT, 4, 4⟩
def F.PWR_EVENT_domain_forced : Field := ⟨R.PWR_EVENT, 3, 3⟩
def F.PWR_EVENT_wake_replayed : Field := ⟨R.PWR_EVENT, 2, 2⟩
def F.PWR_EVENT_refused : Field := ⟨R.PWR_EVENT, 1, 1⟩
def F.PWR_EVENT_mode_done : Field := ⟨R.PWR_EVENT, 0, 0⟩
def R.PWR_EVENT_MASK : Nat := 0x100f4
def F.PWR_EVENT_MASK_enable : Field := ⟨R.PWR_EVENT_MASK, 6, 0⟩
def R.CLK_READY : Nat := 0x20000
def F.CLK_READY_ready : Field := ⟨R.CLK_READY, 11, 0⟩
def R.CLK_SEL_CORE : Nat := 0x20004
def F.CLK_SEL_CORE_gaffer : Field := ⟨R.CLK_SEL_CORE, 1, 1⟩
def F.CLK_SEL_CORE_fabric : Field := ⟨R.CLK_SEL_CORE, 0, 0⟩
def R.CLK_SEL_LINE : Nat := 0x20008
def F.CLK_SEL_LINE_rclk_out : Field := ⟨R.CLK_SEL_LINE, 9, 8⟩
def F.CLK_SEL_LINE_lref : Field := ⟨R.CLK_SEL_LINE, 0, 0⟩
def R.CLK_RLOOP_STAT : Nat := 0x2000c
def F.CLK_RLOOP_STAT_state : Field := ⟨R.CLK_RLOOP_STAT, 31, 30⟩
def F.CLK_RLOOP_STAT_offset : Field := ⟨R.CLK_RLOOP_STAT, 15, 0⟩
def R.CLK_REF_LOST : Nat := 0x20010
def F.CLK_REF_LOST_lost : Field := ⟨R.CLK_REF_LOST, 0, 0⟩
def R.CLK_SWITCH_FORCED : Nat := 0x20014
def F.CLK_SWITCH_FORCED_gaffer : Field := ⟨R.CLK_SWITCH_FORCED, 1, 1⟩
def F.CLK_SWITCH_FORCED_fabric : Field := ⟨R.CLK_SWITCH_FORCED, 0, 0⟩
def R.CLK_SW_STAT : Nat := 0x20018
def F.CLK_SW_STAT_refused_id : Field := ⟨R.CLK_SW_STAT, 11, 8⟩
def F.CLK_SW_STAT_refused_sw : Field := ⟨R.CLK_SW_STAT, 2, 0⟩
def R.CLK_PLL_EN : Nat := 0x20020
def F.CLK_PLL_EN_en : Field := ⟨R.CLK_PLL_EN, 11, 4⟩
def R.CLK_GATE : Nat := 0x20030
def F.CLK_GATE_gate : Field := ⟨R.CLK_GATE, 20, 0⟩
def R.CLK_EVENT : Nat := 0x200f0
def F.CLK_EVENT_seq : Field := ⟨R.CLK_EVENT, 31, 24⟩
def F.CLK_EVENT_relocked : Field := ⟨R.CLK_EVENT, 6, 6⟩
def F.CLK_EVENT_gate_refused : Field := ⟨R.CLK_EVENT, 5, 5⟩
def F.CLK_EVENT_pll_unlock : Field := ⟨R.CLK_EVENT, 4, 4⟩
def F.CLK_EVENT_source_lost : Field := ⟨R.CLK_EVENT, 3, 3⟩
def F.CLK_EVENT_ref_lost : Field := ⟨R.CLK_EVENT, 2, 2⟩
def F.CLK_EVENT_switch_forced : Field := ⟨R.CLK_EVENT, 1, 1⟩
def F.CLK_EVENT_switch_refused : Field := ⟨R.CLK_EVENT, 0, 0⟩
def R.CLK_EVENT_MASK : Nat := 0x200f4
def F.CLK_EVENT_MASK_enable : Field := ⟨R.CLK_EVENT_MASK, 6, 0⟩
def R.RST_CAUSE : Nat := 0x30000
def F.RST_CAUSE_source : Field := ⟨R.RST_CAUSE, 23, 16⟩
def F.RST_CAUSE_start_kind : Field := ⟨R.RST_CAUSE, 7, 7⟩
def F.RST_CAUSE_cause : Field := ⟨R.RST_CAUSE, 3, 0⟩
def R.RST_CHIP : Nat := 0x30004
def F.RST_CHIP_key : Field := ⟨R.RST_CHIP, 15, 8⟩
def F.RST_CHIP_go : Field := ⟨R.RST_CHIP, 0, 0⟩
def R.RST_BLOCK : Nat := 0x30008
def F.RST_BLOCK_go : Field := ⟨R.RST_BLOCK, 31, 31⟩
def F.RST_BLOCK_source : Field := ⟨R.RST_BLOCK, 6, 0⟩
def R.RST_BLOCK_STAT : Nat := 0x3000c
def F.RST_BLOCK_STAT_busy : Field := ⟨R.RST_BLOCK_STAT, 9, 9⟩
def F.RST_BLOCK_STAT_refused : Field := ⟨R.RST_BLOCK_STAT, 8, 8⟩
def F.RST_BLOCK_STAT_source : Field := ⟨R.RST_BLOCK_STAT, 6, 0⟩
def R.RST_COUNT : Nat := 0x30010
def F.RST_COUNT_main_loss : Field := ⟨R.RST_COUNT, 23, 16⟩
def F.RST_COUNT_reset_n : Field := ⟨R.RST_COUNT, 15, 8⟩
def F.RST_COUNT_chip : Field := ⟨R.RST_COUNT, 7, 0⟩
def R.RST_EVENT : Nat := 0x300f0
def F.RST_EVENT_seq : Field := ⟨R.RST_EVENT, 31, 24⟩
def F.RST_EVENT_block_refused : Field := ⟨R.RST_EVENT, 1, 1⟩
def F.RST_EVENT_block_done : Field := ⟨R.RST_EVENT, 0, 0⟩
def R.RST_EVENT_MASK : Nat := 0x300f4
def F.RST_EVENT_MASK_enable : Field := ⟨R.RST_EVENT_MASK, 1, 0⟩
def R.FLT_STAT : Nat := 0x40000
def F.FLT_STAT_safe : Field := ⟨R.FLT_STAT, 31, 31⟩
def F.FLT_STAT_safe_class : Field := ⟨R.FLT_STAT, 30, 28⟩
def F.FLT_STAT_safe_reason : Field := ⟨R.FLT_STAT, 27, 24⟩
def F.FLT_STAT_self_fault : Field := ⟨R.FLT_STAT, 23, 23⟩
def F.FLT_STAT_total : Field := ⟨R.FLT_STAT, 15, 0⟩
def R.FLT_LOG_STAT : Nat := 0x40004
def F.FLT_LOG_STAT_wrapped : Field := ⟨R.FLT_LOG_STAT, 31, 31⟩
def F.FLT_LOG_STAT_next : Field := ⟨R.FLT_LOG_STAT, 24, 16⟩
def F.FLT_LOG_STAT_since_clear : Field := ⟨R.FLT_LOG_STAT, 15, 0⟩
def R.FLT_LOG_CTL : Nat := 0x40008
def F.FLT_LOG_CTL_clear : Field := ⟨R.FLT_LOG_CTL, 0, 0⟩
def R.FLT_FIRST : Nat := 0x40010
def F.FLT_FIRST_w1 : Field := ⟨R.FLT_FIRST + 0x4, 31, 0⟩
def F.FLT_FIRST_w0 : Field := ⟨R.FLT_FIRST, 31, 0⟩
def R.FLT_IRQ_CFG : Nat := 0x40020
def F.FLT_IRQ_CFG_vec : Field := ⟨R.FLT_IRQ_CFG, 8, 0⟩
def R.FLT_IRQ_REARM : Nat := 0x40024
def F.FLT_IRQ_REARM_rearm : Field := ⟨R.FLT_IRQ_REARM, 0, 0⟩
def R.FLT_WDOG_CFG : Nat := 0x40030
def F.FLT_WDOG_CFG_lock : Field := ⟨R.FLT_WDOG_CFG, 31, 31⟩
def F.FLT_WDOG_CFG_timeout_ms : Field := ⟨R.FLT_WDOG_CFG, 15, 0⟩
def R.FLT_WDOG_KICK : Nat := 0x40034
def F.FLT_WDOG_KICK_key : Field := ⟨R.FLT_WDOG_KICK, 15, 0⟩
def R.FLT_WDOG_STAT : Nat := 0x40038
def F.FLT_WDOG_STAT_expired : Field := ⟨R.FLT_WDOG_STAT, 31, 31⟩
def F.FLT_WDOG_STAT_left_ms : Field := ⟨R.FLT_WDOG_STAT, 15, 0⟩
def R.FLT_CHK_CTL : Nat := 0x40040
def F.FLT_CHK_CTL_start : Field := ⟨R.FLT_CHK_CTL, 24, 24⟩
def F.FLT_CHK_CTL_limit_ms : Field := ⟨R.FLT_CHK_CTL, 23, 16⟩
def F.FLT_CHK_CTL_count : Field := ⟨R.FLT_CHK_CTL, 15, 8⟩
def F.FLT_CHK_CTL_checker : Field := ⟨R.FLT_CHK_CTL, 7, 0⟩
def R.FLT_CHK_STAT : Nat := 0x40044
def F.FLT_CHK_STAT_state : Field := ⟨R.FLT_CHK_STAT, 31, 30⟩
def F.FLT_CHK_STAT_result : Field := ⟨R.FLT_CHK_STAT, 29, 27⟩
def F.FLT_CHK_STAT_detected : Field := ⟨R.FLT_CHK_STAT, 15, 8⟩
def F.FLT_CHK_STAT_remaining : Field := ⟨R.FLT_CHK_STAT, 7, 0⟩
def R.FLT_MBIST_CTL : Nat := 0x40050
def F.FLT_MBIST_CTL_no_wait : Field := ⟨R.FLT_MBIST_CTL, 2, 2⟩
def F.FLT_MBIST_CTL_stop : Field := ⟨R.FLT_MBIST_CTL, 1, 1⟩
def F.FLT_MBIST_CTL_start : Field := ⟨R.FLT_MBIST_CTL, 0, 0⟩
def R.FLT_MBIST_STAT : Nat := 0x40054
def F.FLT_MBIST_STAT_fail_cells : Field := ⟨R.FLT_MBIST_STAT, 31, 14⟩
def F.FLT_MBIST_STAT_result : Field := ⟨R.FLT_MBIST_STAT, 10, 8⟩
def F.FLT_MBIST_STAT_state : Field := ⟨R.FLT_MBIST_STAT, 2, 0⟩
def R.FLT_MBIST_FAIL : Nat := 0x40058
def F.FLT_MBIST_FAIL_cell : Field := ⟨R.FLT_MBIST_FAIL, 17, 0⟩
def R.FLT_REC_NEXT : Nat := 0x40060
def F.FLT_REC_NEXT_sector : Field := ⟨R.FLT_REC_NEXT, 5, 0⟩
def R.FLT_REC_STAT : Nat := 0x40064
def F.FLT_REC_STAT_used : Field := ⟨R.FLT_REC_STAT, 31, 31⟩
def F.FLT_REC_STAT_result : Field := ⟨R.FLT_REC_STAT, 27, 24⟩
def F.FLT_REC_STAT_skipped : Field := ⟨R.FLT_REC_STAT, 23, 16⟩
def F.FLT_REC_STAT_sequence : Field := ⟨R.FLT_REC_STAT, 15, 0⟩
def R.FLT_REC_CTL : Nat := 0x40068
def F.FLT_REC_CTL_write : Field := ⟨R.FLT_REC_CTL, 0, 0⟩
def R.FLT_THERM : Nat := 0x40070
def F.FLT_THERM_sensor : Field := ⟨R.FLT_THERM, 18, 16⟩
def F.FLT_THERM_max_tj : Field := ⟨R.FLT_THERM, 15, 8⟩
def F.FLT_THERM_now_tj : Field := ⟨R.FLT_THERM, 7, 0⟩
def R.FLT_INJ_CTL : Nat := 0x40080
def F.FLT_INJ_CTL_start : Field := ⟨R.FLT_INJ_CTL, 24, 24⟩
def F.FLT_INJ_CTL_double : Field := ⟨R.FLT_INJ_CTL, 16, 16⟩
def F.FLT_INJ_CTL_bit : Field := ⟨R.FLT_INJ_CTL, 15, 8⟩
def F.FLT_INJ_CTL_checker : Field := ⟨R.FLT_INJ_CTL, 7, 0⟩
def R.FLT_EVENT : Nat := 0x400f0
def F.FLT_EVENT_seq : Field := ⟨R.FLT_EVENT, 31, 24⟩
def F.FLT_EVENT_record : Field := ⟨R.FLT_EVENT, 5, 5⟩
def F.FLT_EVENT_mbist_done : Field := ⟨R.FLT_EVENT, 4, 4⟩
def F.FLT_EVENT_chk_done : Field := ⟨R.FLT_EVENT, 3, 3⟩
def F.FLT_EVENT_wrapped : Field := ⟨R.FLT_EVENT, 2, 2⟩
def F.FLT_EVENT_c3 : Field := ⟨R.FLT_EVENT, 1, 1⟩
def F.FLT_EVENT_react : Field := ⟨R.FLT_EVENT, 0, 0⟩
def R.FLT_EVENT_MASK : Nat := 0x400f4
def F.FLT_EVENT_MASK_enable : Field := ⟨R.FLT_EVENT_MASK, 5, 0⟩
def R.FLT_REACT (s : Nat) : Nat := at1 0x40400 0x4 128 s
def F.FLT_REACT_bytes (s : Nat) : Field := ⟨R.FLT_REACT s, 31, 0⟩
def R.FLT_LOG (i : Nat) : Nat := at1 0x42000 0x20 512 i
def F.FLT_LOG_valid (i : Nat) : Field := ⟨R.FLT_LOG i + 0x14, 31, 31⟩
def F.FLT_LOG_total (i : Nat) : Field := ⟨R.FLT_LOG i + 0x14, 19, 0⟩
def F.FLT_LOG_repeats (i : Nat) : Field := ⟨R.FLT_LOG i + 0x10, 15, 0⟩
def F.FLT_LOG_w1 (i : Nat) : Field := ⟨R.FLT_LOG i + 0x4, 31, 0⟩
def F.FLT_LOG_w0 (i : Nat) : Field := ⟨R.FLT_LOG i, 31, 0⟩
def R.TB_NOW : Nat := 0x50000
def F.TB_NOW_ns : Field := ⟨R.TB_NOW + 0x4, 31, 0⟩
def F.TB_NOW_frac : Field := ⟨R.TB_NOW, 15, 0⟩
def R.TB_NOW64 : Nat := 0x50010
def R.TB_STAT : Nat := 0x50020
def F.TB_STAT_slave_port : Field := ⟨R.TB_STAT, 31, 26⟩
def F.TB_STAT_slave_valid : Field := ⟨R.TB_STAT, 25, 25⟩
def F.TB_STAT_set_done : Field := ⟨R.TB_STAT, 8, 8⟩
def F.TB_STAT_state : Field := ⟨R.TB_STAT, 2, 0⟩
def R.TB_CFG : Nat := 0x50024
def F.TB_CFG_holdover_s : Field := ⟨R.TB_CFG, 31, 24⟩
def F.TB_CFG_work_domain : Field := ⟨R.TB_CFG, 9, 8⟩
def F.TB_CFG_pps_discipline : Field := ⟨R.TB_CFG, 1, 1⟩
def F.TB_CFG_gptp_en : Field := ⟨R.TB_CFG, 0, 0⟩
def R.TB_SET : Nat := 0x50030
def F.TB_SET_ns : Field := ⟨R.TB_SET + 0x4, 31, 0⟩
def F.TB_SET_frac : Field := ⟨R.TB_SET, 15, 0⟩
def R.TB_STEP : Nat := 0x50040
def F.TB_STEP_step_ns : Field := ⟨R.TB_STEP, 31, 0⟩
def R.TB_ADJ : Nat := 0x50044
def F.TB_ADJ_rate : Field := ⟨R.TB_ADJ, 31, 0⟩
def R.TB_PPS_CFG : Nat := 0x50050
def F.TB_PPS_CFG_width_us : Field := ⟨R.TB_PPS_CFG, 15, 4⟩
def F.TB_PPS_CFG_pps_in_en : Field := ⟨R.TB_PPS_CFG, 1, 1⟩
def F.TB_PPS_CFG_pps_out_en : Field := ⟨R.TB_PPS_CFG, 0, 0⟩
def R.TB_PPS_IN : Nat := 0x50058
def R.TB_PPS_IN_OFS : Nat := 0x50060
def F.TB_PPS_IN_OFS_ofs : Field := ⟨R.TB_PPS_IN_OFS, 31, 0⟩
def R.TB_EVENT : Nat := 0x500f0
def F.TB_EVENT_seq : Field := ⟨R.TB_EVENT, 31, 24⟩
def F.TB_EVENT_launch_in : Field := ⟨R.TB_EVENT, 8, 8⟩
def F.TB_EVENT_pps_in : Field := ⟨R.TB_EVENT, 7, 7⟩
def F.TB_EVENT_gm_change : Field := ⟨R.TB_EVENT, 6, 6⟩
def F.TB_EVENT_free : Field := ⟨R.TB_EVENT, 5, 5⟩
def F.TB_EVENT_holdover : Field := ⟨R.TB_EVENT, 4, 4⟩
def F.TB_EVENT_locked : Field := ⟨R.TB_EVENT, 3, 3⟩
def F.TB_EVENT_clamp : Field := ⟨R.TB_EVENT, 2, 2⟩
def F.TB_EVENT_step : Field := ⟨R.TB_EVENT, 1, 1⟩
def F.TB_EVENT_set : Field := ⟨R.TB_EVENT, 0, 0⟩
def R.TB_EVENT_MASK : Nat := 0x500f4
def F.TB_EVENT_MASK_enable : Field := ⟨R.TB_EVENT_MASK, 8, 0⟩
def R.TB_DOM_STAT (d : Nat) : Nat := at1 0x50100 0x20 4 d
def F.TB_DOM_STAT_valid (d : Nat) : Field := ⟨R.TB_DOM_STAT d, 31, 31⟩
def F.TB_DOM_STAT_synced (d : Nat) : Field := ⟨R.TB_DOM_STAT d, 30, 30⟩
def F.TB_DOM_STAT_role (d : Nat) : Field := ⟨R.TB_DOM_STAT d, 29, 28⟩
def F.TB_DOM_STAT_domainNumber (d : Nat) : Field := ⟨R.TB_DOM_STAT d, 22, 16⟩
def F.TB_DOM_STAT_stepsRemoved (d : Nat) : Field := ⟨R.TB_DOM_STAT d, 15, 8⟩
def F.TB_DOM_STAT_slave_valid (d : Nat) : Field := ⟨R.TB_DOM_STAT d, 6, 6⟩
def F.TB_DOM_STAT_slave_port (d : Nat) : Field := ⟨R.TB_DOM_STAT d, 5, 0⟩
def R.TB_DOM_OFFSET (d : Nat) : Nat := at1 0x50108 0x20 4 d
def R.TB_DOM_RATE (d : Nat) : Nat := at1 0x50110 0x20 4 d
def F.TB_DOM_RATE_rate (d : Nat) : Field := ⟨R.TB_DOM_RATE d, 31, 0⟩
def R.TB_DOM_GM_ID (d : Nat) : Nat := at1 0x50118 0x20 4 d
def R.TB_PORT_ADJ (p : Nat) : Nat := at1 0x51000 0x10 64 p
def F.TB_PORT_ADJ_tx_adj (p : Nat) : Field := ⟨R.TB_PORT_ADJ p, 31, 16⟩
def F.TB_PORT_ADJ_rx_adj (p : Nat) : Field := ⟨R.TB_PORT_ADJ p, 15, 0⟩
def R.TB_PORT_ROLES (p : Nat) : Nat := at1 0x51004 0x10 64 p
def F.TB_PORT_ROLES_roles (p : Nat) : Field := ⟨R.TB_PORT_ROLES p, 7, 0⟩
def R.TB_PORT_PDELAY (p : Nat) : Nat := at1 0x51008 0x10 64 p
def F.TB_PORT_PDELAY_valid (p : Nat) : Field := ⟨R.TB_PORT_PDELAY p, 31, 31⟩
def F.TB_PORT_PDELAY_delay (p : Nat) : Field := ⟨R.TB_PORT_PDELAY p, 30, 0⟩
def R.LCH_LG_CTL (g : Nat) : Nat := at1 0x60000 0x80 16 g
def F.LCH_LG_CTL_armer (g : Nat) : Field := ⟨R.LCH_LG_CTL g, 14, 12⟩
def F.LCH_LG_CTL_out_ (g : Nat) : Field := ⟨R.LCH_LG_CTL g, 8, 8⟩
def F.LCH_LG_CTL_kind (g : Nat) : Field := ⟨R.LCH_LG_CTL g, 6, 6⟩
def F.LCH_LG_CTL_src (g : Nat) : Field := ⟨R.LCH_LG_CTL g, 5, 4⟩
def F.LCH_LG_CTL_disarm (g : Nat) : Field := ⟨R.LCH_LG_CTL g, 1, 1⟩
def F.LCH_LG_CTL_arm (g : Nat) : Field := ⟨R.LCH_LG_CTL g, 0, 0⟩
def R.LCH_LG_MASK (g : Nat) : Nat := at1 0x60004 0x80 16 g
def F.LCH_LG_MASK_groups (g : Nat) : Field := ⟨R.LCH_LG_MASK g, 31, 0⟩
def R.LCH_LG_TIME (g : Nat) : Nat := at1 0x60010 0x80 16 g
def F.LCH_LG_TIME_ns (g : Nat) : Field := ⟨R.LCH_LG_TIME g + 0x4, 31, 0⟩
def F.LCH_LG_TIME_frac (g : Nat) : Field := ⟨R.LCH_LG_TIME g, 15, 0⟩
def R.LCH_LG_STAT (g : Nat) : Nat := at1 0x60020 0x80 16 g
def F.LCH_LG_STAT_late_count (g : Nat) : Field := ⟨R.LCH_LG_STAT g, 31, 24⟩
def F.LCH_LG_STAT_commit_seq (g : Nat) : Field := ⟨R.LCH_LG_STAT g, 23, 16⟩
def F.LCH_LG_STAT_missed (g : Nat) : Field := ⟨R.LCH_LG_STAT g, 8, 8⟩
def F.LCH_LG_STAT_state (g : Nat) : Field := ⟨R.LCH_LG_STAT g, 2, 0⟩
def R.LCH_LG_FIRED_AT (g : Nat) : Nat := at1 0x60028 0x80 16 g
def R.LCH_LG_TARGET (g : Nat) : Nat := at1 0x60030 0x80 16 g
def R.LCH_LG_APPLIED (g : Nat) : Nat := at1 0x60040 0x80 16 g
def R.LCH_LG_LATE (g : Nat) : Nat := at1 0x60050 0x80 16 g
def R.LCH_EVENT : Nat := 0x60800
def F.LCH_EVENT_seq : Field := ⟨R.LCH_EVENT, 31, 24⟩
def F.LCH_EVENT_disarmed : Field := ⟨R.LCH_EVENT, 5, 5⟩
def F.LCH_EVENT_rolled_back : Field := ⟨R.LCH_EVENT, 4, 4⟩
def F.LCH_EVENT_missed : Field := ⟨R.LCH_EVENT, 3, 3⟩
def F.LCH_EVENT_late : Field := ⟨R.LCH_EVENT, 2, 2⟩
def F.LCH_EVENT_done : Field := ⟨R.LCH_EVENT, 1, 1⟩
def F.LCH_EVENT_fired : Field := ⟨R.LCH_EVENT, 0, 0⟩
def R.LCH_EVENT_MASK : Nat := 0x60804
def F.LCH_EVENT_MASK_enable : Field := ⟨R.LCH_EVENT_MASK, 5, 0⟩
def R.LCH_GCL_CFG_CTRL (p : Nat) : Nat := at1 0x61000 0x20 64 p
def F.LCH_GCL_CFG_CTRL_length (p : Nat) : Field := ⟨R.LCH_GCL_CFG_CTRL p, 14, 8⟩
def F.LCH_GCL_CFG_CTRL_unit (p : Nat) : Field := ⟨R.LCH_GCL_CFG_CTRL p, 6, 4⟩
def F.LCH_GCL_CFG_CTRL_en (p : Nat) : Field := ⟨R.LCH_GCL_CFG_CTRL p, 0, 0⟩
def R.LCH_GCL_CFG_CYCLE (p : Nat) : Nat := at1 0x61004 0x20 64 p
def F.LCH_GCL_CFG_CYCLE_cycle (p : Nat) : Field := ⟨R.LCH_GCL_CFG_CYCLE p, 31, 0⟩
def R.LCH_GCL_CFG_BASE (p : Nat) : Nat := at1 0x61008 0x20 64 p
def F.LCH_GCL_CFG_BASE_ns (p : Nat) : Field := ⟨R.LCH_GCL_CFG_BASE p, 31, 0⟩
def R.LCH_GCL_STAT (p : Nat) : Nat := at1 0x61014 0x20 64 p
def F.LCH_GCL_STAT_too_long (p : Nat) : Field := ⟨R.LCH_GCL_STAT p, 31, 16⟩
def F.LCH_GCL_STAT_entry (p : Nat) : Field := ⟨R.LCH_GCL_STAT p, 13, 8⟩
def F.LCH_GCL_STAT_running (p : Nat) : Field := ⟨R.LCH_GCL_STAT p, 0, 0⟩
def R.LCH_GCL (p : Nat) (e : Nat) : Nat := at2 0x62000 0x100 64 0x4 64 p e
def F.LCH_GCL_gates (p : Nat) (e : Nat) : Field := ⟨R.LCH_GCL p e, 31, 24⟩
def F.LCH_GCL_interval (p : Nat) (e : Nat) : Field := ⟨R.LCH_GCL p e, 23, 0⟩
def R.MLD_STATUS : Nat := 0x70000
def F.MLD_STATUS_src : Field := ⟨R.MLD_STATUS, 18, 16⟩
def F.MLD_STATUS_err : Field := ⟨R.MLD_STATUS, 13, 8⟩
def F.MLD_STATUS_state : Field := ⟨R.MLD_STATUS, 2, 0⟩
def R.MLD_ERR_DETAIL : Nat := 0x70004
def F.MLD_ERR_DETAIL_section : Field := ⟨R.MLD_ERR_DETAIL, 31, 16⟩
def F.MLD_ERR_DETAIL_record : Field := ⟨R.MLD_ERR_DETAIL, 15, 0⟩
def R.MLD_WARN : Nat := 0x70008
def F.MLD_WARN_head_over : Field := ⟨R.MLD_WARN, 3, 0⟩
def R.MLD_ACTIVE_GEN : Nat := 0x7000c
def F.MLD_ACTIVE_GEN_partial_gen : Field := ⟨R.MLD_ACTIVE_GEN + 0x4, 31, 0⟩
def F.MLD_ACTIVE_GEN_full_gen : Field := ⟨R.MLD_ACTIVE_GEN, 31, 0⟩
def R.MLD_ACTIVE_DIGEST : Nat := 0x70020
def R.MLD_LOAD_SRC : Nat := 0x70050
def R.MLD_LOAD_CTL : Nat := 0x70058
def F.MLD_LOAD_CTL_kind : Field := ⟨R.MLD_LOAD_CTL, 2, 1⟩
def F.MLD_LOAD_CTL_start : Field := ⟨R.MLD_LOAD_CTL, 0, 0⟩
def R.MLD_REMOULD_SRC : Nat := 0x70060
def R.MLD_REMOULD_CTL : Nat := 0x70068
def F.MLD_REMOULD_CTL_hold_ms : Field := ⟨R.MLD_REMOULD_CTL, 23, 16⟩
def F.MLD_REMOULD_CTL_cg : Field := ⟨R.MLD_REMOULD_CTL, 12, 8⟩
def F.MLD_REMOULD_CTL_kind : Field := ⟨R.MLD_REMOULD_CTL, 2, 2⟩
def F.MLD_REMOULD_CTL_cancel : Field := ⟨R.MLD_REMOULD_CTL, 1, 1⟩
def F.MLD_REMOULD_CTL_start : Field := ⟨R.MLD_REMOULD_CTL, 0, 0⟩
def R.MLD_REMOULD_STAT : Nat := 0x7006c
def F.MLD_REMOULD_STAT_err : Field := ⟨R.MLD_REMOULD_STAT, 13, 8⟩
def F.MLD_REMOULD_STAT_state : Field := ⟨R.MLD_REMOULD_STAT, 2, 0⟩
def R.MLD_ADOPT_CTL : Nat := 0x70070
def F.MLD_ADOPT_CTL_slot : Field := ⟨R.MLD_ADOPT_CTL, 1, 1⟩
def F.MLD_ADOPT_CTL_start : Field := ⟨R.MLD_ADOPT_CTL, 0, 0⟩
def R.MLD_ADOPT_STAT : Nat := 0x70074
def F.MLD_ADOPT_STAT_heads_left : Field := ⟨R.MLD_ADOPT_STAT, 19, 16⟩
def F.MLD_ADOPT_STAT_err : Field := ⟨R.MLD_ADOPT_STAT, 13, 8⟩
def F.MLD_ADOPT_STAT_state : Field := ⟨R.MLD_ADOPT_STAT, 2, 0⟩
def R.MLD_EVENT : Nat := 0x70080
def F.MLD_EVENT_seq : Field := ⟨R.MLD_EVENT, 31, 24⟩
def F.MLD_EVENT_partials_lost : Field := ⟨R.MLD_EVENT, 5, 5⟩
def F.MLD_EVENT_adopt_done : Field := ⟨R.MLD_EVENT, 4, 4⟩
def F.MLD_EVENT_expired : Field := ⟨R.MLD_EVENT, 3, 3⟩
def F.MLD_EVENT_applied : Field := ⟨R.MLD_EVENT, 2, 2⟩
def F.MLD_EVENT_refused : Field := ⟨R.MLD_EVENT, 1, 1⟩
def F.MLD_EVENT_load_done : Field := ⟨R.MLD_EVENT, 0, 0⟩
def R.MLD_EVENT_MASK : Nat := 0x70084
def F.MLD_EVENT_MASK_enable : Field := ⟨R.MLD_EVENT_MASK, 5, 0⟩
def R.MLD_KEYS : Nat := 0x70090
def F.MLD_KEYS_used : Field := ⟨R.MLD_KEYS, 9, 8⟩
def F.MLD_KEYS_revoked : Field := ⟨R.MLD_KEYS, 7, 4⟩
def F.MLD_KEYS_programmed : Field := ⟨R.MLD_KEYS, 3, 0⟩
def R.MLD_KEY_PROG_DATA : Nat := 0x700a0
def R.MLD_KEY_PROG_CTL : Nat := 0x700d0
def F.MLD_KEY_PROG_CTL_result : Field := ⟨R.MLD_KEY_PROG_CTL, 9, 8⟩
def F.MLD_KEY_PROG_CTL_slot : Field := ⟨R.MLD_KEY_PROG_CTL, 2, 1⟩
def F.MLD_KEY_PROG_CTL_start : Field := ⟨R.MLD_KEY_PROG_CTL, 0, 0⟩
def R.MLD_GOV_TXEN : Nat := 0x70100
def R.MLD_GOV_AMP (p : Nat) : Nat := at1 0x70200 0x4 64 p
def F.MLD_GOV_AMP_ceiling (p : Nat) : Field := ⟨R.MLD_GOV_AMP p, 9, 0⟩
def R.MLD_GOV_WAKE : Nat := 0x70300
def F.MLD_GOV_WAKE_spacing_ms : Field := ⟨R.MLD_GOV_WAKE, 13, 0⟩
def R.MLD_GOV_TIME : Nat := 0x70304
def F.MLD_GOV_TIME_interval_ms : Field := ⟨R.MLD_GOV_TIME, 31, 24⟩
def F.MLD_GOV_TIME_freq_ppb : Field := ⟨R.MLD_GOV_TIME, 17, 0⟩
def R.MLD_GOV_STEP : Nat := 0x70308
def F.MLD_GOV_STEP_step_us : Field := ⟨R.MLD_GOV_STEP, 15, 0⟩
def R.MLD_GOV_CLAMP_COUNT : Nat := 0x7030c
def F.MLD_GOV_CLAMP_COUNT_count : Field := ⟨R.MLD_GOV_CLAMP_COUNT, 31, 0⟩
def R.MLD_GOV_WIN_BASE (h : Nat) (w : Nat) : Nat := at2 0x71000 0x200 4 0x20 16 h w
def R.MLD_GOV_WIN_LIMIT (h : Nat) (w : Nat) : Nat := at2 0x71008 0x200 4 0x20 16 h w
def R.MLD_GOV_WIN_FLAGS (h : Nat) (w : Nat) : Nat := at2 0x71010 0x200 4 0x20 16 h w
def F.MLD_GOV_WIN_FLAGS_cache (h : Nat) (w : Nat) : Field := ⟨R.MLD_GOV_WIN_FLAGS h w, 3, 3⟩
def F.MLD_GOV_WIN_FLAGS_io (h : Nat) (w : Nat) : Field := ⟨R.MLD_GOV_WIN_FLAGS h w, 2, 2⟩
def F.MLD_GOV_WIN_FLAGS_write (h : Nat) (w : Nat) : Field := ⟨R.MLD_GOV_WIN_FLAGS h w, 1, 1⟩
def F.MLD_GOV_WIN_FLAGS_read (h : Nat) (w : Nat) : Field := ⟨R.MLD_GOV_WIN_FLAGS h w, 0, 0⟩
def R.MLD_GOV_WIN_RSV (h : Nat) (w : Nat) : Nat := at2 0x71014 0x200 4 0x20 16 h w
def R.FUR_QTR_STAT (q : Nat) : Nat := at1 0x80000 0x10 4 q
def F.FUR_QTR_STAT_on (q : Nat) : Field := ⟨R.FUR_QTR_STAT q, 31, 31⟩
def F.FUR_QTR_STAT_idle (q : Nat) : Field := ⟨R.FUR_QTR_STAT q, 30, 30⟩
def F.FUR_QTR_STAT_pots_gated (q : Nat) : Field := ⟨R.FUR_QTR_STAT q, 29, 24⟩
def F.FUR_QTR_STAT_spare (q : Nat) : Field := ⟨R.FUR_QTR_STAT q, 23, 22⟩
def F.FUR_QTR_STAT_returned (q : Nat) : Field := ⟨R.FUR_QTR_STAT q, 17, 9⟩
def F.FUR_QTR_STAT_used (q : Nat) : Field := ⟨R.FUR_QTR_STAT q, 8, 0⟩
def R.FUR_QTR_SPARE (q : Nat) : Nat := at1 0x80004 0x10 4 q
def F.FUR_QTR_SPARE_mapped (q : Nat) : Field := ⟨R.FUR_QTR_SPARE q, 7, 7⟩
def F.FUR_QTR_SPARE_pot (q : Nat) : Field := ⟨R.FUR_QTR_SPARE q, 4, 0⟩
def R.FUR_QTR_DEAD (q : Nat) : Nat := at1 0x80008 0x10 4 q
def F.FUR_QTR_DEAD_dead (q : Nat) : Field := ⟨R.FUR_QTR_DEAD q, 31, 0⟩
def R.FUR_QTR_STORE (q : Nat) : Nat := at1 0x8000c 0x10 4 q
def F.FUR_QTR_STORE_records (q : Nat) : Field := ⟨R.FUR_QTR_STORE q, 24, 16⟩
def F.FUR_QTR_STORE_seal_fail (q : Nat) : Field := ⟨R.FUR_QTR_STORE q, 1, 1⟩
def F.FUR_QTR_STORE_sealed (q : Nat) : Field := ⟨R.FUR_QTR_STORE q, 0, 0⟩
def R.FUR_SELFTEST : Nat := 0x80080
def F.FUR_SELFTEST_refused : Field := ⟨R.FUR_SELFTEST, 15, 12⟩
def F.FUR_SELFTEST_failed : Field := ⟨R.FUR_SELFTEST, 11, 8⟩
def F.FUR_SELFTEST_busy : Field := ⟨R.FUR_SELFTEST, 7, 4⟩
def F.FUR_SELFTEST_start : Field := ⟨R.FUR_SELFTEST, 3, 0⟩
def R.FUR_EVENT : Nat := 0x800f0
def F.FUR_EVENT_seq : Field := ⟨R.FUR_EVENT, 31, 24⟩
def F.FUR_EVENT_selftest_done : Field := ⟨R.FUR_EVENT, 6, 6⟩
def F.FUR_EVENT_live_change : Field := ⟨R.FUR_EVENT, 5, 5⟩
def F.FUR_EVENT_store_lost : Field := ⟨R.FUR_EVENT, 4, 4⟩
def F.FUR_EVENT_unplaced : Field := ⟨R.FUR_EVENT, 3, 3⟩
def F.FUR_EVENT_pot_dead : Field := ⟨R.FUR_EVENT, 2, 2⟩
def F.FUR_EVENT_spare_mapped : Field := ⟨R.FUR_EVENT, 1, 1⟩
def F.FUR_EVENT_pot_failed : Field := ⟨R.FUR_EVENT, 0, 0⟩
def R.FUR_EVENT_MASK : Nat := 0x800f4
def F.FUR_EVENT_MASK_enable : Field := ⟨R.FUR_EVENT_MASK, 6, 0⟩
def R.FUR_PSLOT (p : Nat) : Nat := at1 0x81000 0x10 56 p
def F.FUR_PSLOT_slots_b (p : Nat) : Field := ⟨R.FUR_PSLOT p, 31, 24⟩
def F.FUR_PSLOT_quarter_b (p : Nat) : Field := ⟨R.FUR_PSLOT p, 21, 20⟩
def F.FUR_PSLOT_slots_a (p : Nat) : Field := ⟨R.FUR_PSLOT p, 19, 12⟩
def F.FUR_PSLOT_quarter_a (p : Nat) : Field := ⟨R.FUR_PSLOT p, 9, 8⟩
def F.FUR_PSLOT_third_quarter (p : Nat) : Field := ⟨R.FUR_PSLOT p, 6, 6⟩
def F.FUR_PSLOT_short (p : Nat) : Field := ⟨R.FUR_PSLOT p, 5, 5⟩
def F.FUR_PSLOT_returned (p : Nat) : Field := ⟨R.FUR_PSLOT p, 4, 4⟩
def F.FUR_PSLOT_reclaiming (p : Nat) : Field := ⟨R.FUR_PSLOT p, 3, 3⟩
def R.FUR_PUSE (p : Nat) : Nat := at1 0x81004 0x10 56 p
def F.FUR_PUSE_idle (p : Nat) : Field := ⟨R.FUR_PUSE p, 23, 16⟩
def F.FUR_PUSE_boost (p : Nat) : Field := ⟨R.FUR_PUSE p, 15, 8⟩
def F.FUR_PUSE_cost (p : Nat) : Field := ⟨R.FUR_PUSE p, 7, 0⟩
def R.FUR_ADAPT (p : Nat) : Nat := at1 0x81008 0x10 56 p
def F.FUR_ADAPT_track_mu (p : Nat) : Field := ⟨R.FUR_ADAPT p, 14, 12⟩
def F.FUR_ADAPT_blw_freeze (p : Nat) : Field := ⟨R.FUR_ADAPT p, 3, 3⟩
def F.FUR_ADAPT_dfe_freeze (p : Nat) : Field := ⟨R.FUR_ADAPT p, 2, 2⟩
def F.FUR_ADAPT_ffe_freeze (p : Nat) : Field := ⟨R.FUR_ADAPT p, 1, 1⟩
def F.FUR_ADAPT_ec_freeze (p : Nat) : Field := ⟨R.FUR_ADAPT p, 0, 0⟩
def R.FUR_RETURN (p : Nat) : Nat := at1 0x8100c 0x10 56 p
def F.FUR_RETURN_on_deep_lpi (p : Nat) : Field := ⟨R.FUR_RETURN p, 1, 1⟩
def F.FUR_RETURN_on_sleep (p : Nat) : Field := ⟨R.FUR_RETURN p, 0, 0⟩
def R.POT_STAT (n : Nat) : Nat := at1 0x82000 0x10 128 n
def F.POT_STAT_dead (n : Nat) : Field := ⟨R.POT_STAT n, 17, 17⟩
def F.POT_STAT_spare (n : Nat) : Field := ⟨R.POT_STAT n, 16, 16⟩
def F.POT_STAT_gated (n : Nat) : Field := ⟨R.POT_STAT n, 15, 8⟩
def F.POT_STAT_active (n : Nat) : Field := ⟨R.POT_STAT n, 7, 0⟩
def R.POT_ECC (n : Nat) : Nat := at1 0x82004 0x10 128 n
def F.POT_ECC_uncorr (n : Nat) : Field := ⟨R.POT_ECC n, 31, 16⟩
def F.POT_ECC_corr (n : Nat) : Field := ⟨R.POT_ECC n, 15, 0⟩
def R.FUR_SLOT (w : Nat) : Nat := at1 0x84000 0x4 512 w
def F.FUR_SLOT_kind_hi (w : Nat) : Field := ⟨R.FUR_SLOT w, 31, 30⟩
def F.FUR_SLOT_index_hi (w : Nat) : Field := ⟨R.FUR_SLOT w, 25, 16⟩
def F.FUR_SLOT_kind_lo (w : Nat) : Field := ⟨R.FUR_SLOT w, 15, 14⟩
def F.FUR_SLOT_index_lo (w : Nat) : Field := ⟨R.FUR_SLOT w, 9, 0⟩
def R.CAL_CFG : Nat := 0x90000
def F.CAL_CFG_struct_wait_s : Field := ⟨R.CAL_CFG, 31, 24⟩
def F.CAL_CFG_current_min : Field := ⟨R.CAL_CFG, 23, 16⟩
def F.CAL_CFG_attic_min_h : Field := ⟨R.CAL_CFG, 15, 8⟩
def F.CAL_CFG_bg_period : Field := ⟨R.CAL_CFG, 7, 0⟩
def R.CAL_STAT : Nat := 0x90004
def F.CAL_STAT_ports_done : Field := ⟨R.CAL_STAT, 22, 16⟩
def F.CAL_STAT_attic_copy : Field := ⟨R.CAL_STAT, 11, 10⟩
def F.CAL_STAT_attic_state : Field := ⟨R.CAL_STAT, 9, 8⟩
def F.CAL_STAT_anneal : Field := ⟨R.CAL_STAT, 2, 0⟩
def R.CAL_ATTIC_GEN : Nat := 0x90008
def F.CAL_ATTIC_GEN_gen : Field := ⟨R.CAL_ATTIC_GEN, 31, 0⟩
def R.CAL_ATTIC_CTL : Nat := 0x9000c
def F.CAL_ATTIC_CTL_result : Field := ⟨R.CAL_ATTIC_CTL, 9, 8⟩
def F.CAL_ATTIC_CTL_write : Field := ⟨R.CAL_ATTIC_CTL, 0, 0⟩
def R.CAL_BANDGAP : Nat := 0x90010
def F.CAL_BANDGAP_trim : Field := ⟨R.CAL_BANDGAP, 15, 0⟩
def R.CAL_REJECTS : Nat := 0x90014
def F.CAL_REJECTS_count : Field := ⟨R.CAL_REJECTS, 31, 0⟩
def R.CAL_EVENT : Nat := 0x90020
def F.CAL_EVENT_seq : Field := ⟨R.CAL_EVENT, 31, 24⟩
def F.CAL_EVENT_fg_done : Field := ⟨R.CAL_EVENT, 7, 7⟩
def F.CAL_EVENT_attic_fail : Field := ⟨R.CAL_EVENT, 6, 6⟩
def F.CAL_EVENT_attic_written : Field := ⟨R.CAL_EVENT, 5, 5⟩
def F.CAL_EVENT_struct_wait : Field := ⟨R.CAL_EVENT, 4, 4⟩
def F.CAL_EVENT_aging : Field := ⟨R.CAL_EVENT, 3, 3⟩
def F.CAL_EVENT_reject : Field := ⟨R.CAL_EVENT, 2, 2⟩
def F.CAL_EVENT_verify_done : Field := ⟨R.CAL_EVENT, 1, 1⟩
def F.CAL_EVENT_full_done : Field := ⟨R.CAL_EVENT, 0, 0⟩
def R.CAL_EVENT_MASK : Nat := 0x90024
def F.CAL_EVENT_MASK_enable : Field := ⟨R.CAL_EVENT_MASK, 7, 0⟩
def R.CAL_ELEM_SEL : Nat := 0x90040
def F.CAL_ELEM_SEL_bank : Field := ⟨R.CAL_ELEM_SEL, 31, 30⟩
def F.CAL_ELEM_SEL_family : Field := ⟨R.CAL_ELEM_SEL, 29, 28⟩
def F.CAL_ELEM_SEL_kind : Field := ⟨R.CAL_ELEM_SEL, 27, 24⟩
def F.CAL_ELEM_SEL_index : Field := ⟨R.CAL_ELEM_SEL, 23, 14⟩
def F.CAL_ELEM_SEL_port : Field := ⟨R.CAL_ELEM_SEL, 5, 0⟩
def R.CAL_ELEM_DATA : Nat := 0x90044
def F.CAL_ELEM_DATA_resid : Field := ⟨R.CAL_ELEM_DATA, 31, 16⟩
def F.CAL_ELEM_DATA_value : Field := ⟨R.CAL_ELEM_DATA, 15, 0⟩
def R.CAL_PORT_CTL (p : Nat) : Nat := at1 0x91000 0x10 64 p
def F.CAL_PORT_CTL_stop (p : Nat) : Field := ⟨R.CAL_PORT_CTL p, 3, 3⟩
def F.CAL_PORT_CTL_no_wait (p : Nat) : Field := ⟨R.CAL_PORT_CTL p, 2, 2⟩
def F.CAL_PORT_CTL_force (p : Nat) : Field := ⟨R.CAL_PORT_CTL p, 1, 1⟩
def F.CAL_PORT_CTL_start (p : Nat) : Field := ⟨R.CAL_PORT_CTL p, 0, 0⟩
def R.CAL_PORT_STAT (p : Nat) : Nat := at1 0x91004 0x10 64 p
def F.CAL_PORT_STAT_families (p : Nat) : Field := ⟨R.CAL_PORT_STAT p, 26, 24⟩
def F.CAL_PORT_STAT_pending_struct (p : Nat) : Field := ⟨R.CAL_PORT_STAT p, 21, 21⟩
def F.CAL_PORT_STAT_pending (p : Nat) : Field := ⟨R.CAL_PORT_STAT p, 20, 20⟩
def F.CAL_PORT_STAT_result (p : Nat) : Field := ⟨R.CAL_PORT_STAT p, 19, 16⟩
def F.CAL_PORT_STAT_state (p : Nat) : Field := ⟨R.CAL_PORT_STAT p, 2, 0⟩
def R.CAL_PORT_QUAL (p : Nat) : Nat := at1 0x91008 0x10 64 p
def F.CAL_PORT_QUAL_worst_resid (p : Nat) : Field := ⟨R.CAL_PORT_QUAL p, 31, 16⟩
def F.CAL_PORT_QUAL_worst_kind (p : Nat) : Field := ⟨R.CAL_PORT_QUAL p, 15, 12⟩
def F.CAL_PORT_QUAL_dac_spares (p : Nat) : Field := ⟨R.CAL_PORT_QUAL p, 11, 8⟩
def F.CAL_PORT_QUAL_comp_spares_min (p : Nat) : Field := ⟨R.CAL_PORT_QUAL p, 7, 6⟩
def R.CAL_PORT_TIME (p : Nat) : Nat := at1 0x9100c 0x10 64 p
def F.CAL_PORT_TIME_accept_s (p : Nat) : Field := ⟨R.CAL_PORT_TIME p, 31, 0⟩
def R.DIAG_LEDGER_STAT : Nat := 0xa0000
def F.DIAG_LEDGER_STAT_queued : Field := ⟨R.DIAG_LEDGER_STAT, 27, 24⟩
def F.DIAG_LEDGER_STAT_running : Field := ⟨R.DIAG_LEDGER_STAT, 21, 16⟩
def F.DIAG_LEDGER_STAT_full_count : Field := ⟨R.DIAG_LEDGER_STAT, 15, 8⟩
def F.DIAG_LEDGER_STAT_last_refusal : Field := ⟨R.DIAG_LEDGER_STAT, 1, 0⟩
def R.DIAG_FLASH_BOOK : Nat := 0xa0010
def F.DIAG_FLASH_BOOK_granted : Field := ⟨R.DIAG_FLASH_BOOK, 2, 2⟩
def F.DIAG_FLASH_BOOK_release : Field := ⟨R.DIAG_FLASH_BOOK, 1, 1⟩
def F.DIAG_FLASH_BOOK_request : Field := ⟨R.DIAG_FLASH_BOOK, 0, 0⟩
def R.DIAG_EVENT : Nat := 0xa0020
def F.DIAG_EVENT_seq : Field := ⟨R.DIAG_EVENT, 31, 24⟩
def F.DIAG_EVENT_shelf_fail : Field := ⟨R.DIAG_EVENT, 6, 6⟩
def F.DIAG_EVENT_refused_full : Field := ⟨R.DIAG_EVENT, 5, 5⟩
def F.DIAG_EVENT_il_high : Field := ⟨R.DIAG_EVENT, 4, 4⟩
def F.DIAG_EVENT_wear : Field := ⟨R.DIAG_EVENT, 3, 3⟩
def F.DIAG_EVENT_fp_mismatch : Field := ⟨R.DIAG_EVENT, 2, 2⟩
def F.DIAG_EVENT_sweep_done : Field := ⟨R.DIAG_EVENT, 1, 1⟩
def F.DIAG_EVENT_tdr_done : Field := ⟨R.DIAG_EVENT, 0, 0⟩
def R.DIAG_EVENT_MASK : Nat := 0xa0024
def F.DIAG_EVENT_MASK_enable : Field := ⟨R.DIAG_EVENT_MASK, 6, 0⟩
def R.DIAG_TDR_CFG : Nat := 0xa0040
def F.DIAG_TDR_CFG_nvp : Field := ⟨R.DIAG_TDR_CFG, 31, 22⟩
def F.DIAG_TDR_CFG_step_thresh : Field := ⟨R.DIAG_TDR_CFG, 21, 12⟩
def F.DIAG_TDR_CFG_avg : Field := ⟨R.DIAG_TDR_CFG, 11, 0⟩
def R.DIAG_FP_CFG : Nat := 0xa0044
def F.DIAG_FP_CFG_match_thresh : Field := ⟨R.DIAG_FP_CFG, 31, 22⟩
def F.DIAG_FP_CFG_horizon_d : Field := ⟨R.DIAG_FP_CFG, 21, 12⟩
def F.DIAG_FP_CFG_trend_min_h : Field := ⟨R.DIAG_FP_CFG, 11, 4⟩
def F.DIAG_FP_CFG_auto : Field := ⟨R.DIAG_FP_CFG, 0, 0⟩
def R.DIAG_IL_CFG : Nat := 0xa0048
def F.DIAG_IL_CFG_margin : Field := ⟨R.DIAG_IL_CFG, 7, 0⟩
def R.DIAG_SWEEP_CTL : Nat := 0xa0080
def F.DIAG_SWEEP_CTL_cg : Field := ⟨R.DIAG_SWEEP_CTL, 12, 8⟩
def F.DIAG_SWEEP_CTL_arm : Field := ⟨R.DIAG_SWEEP_CTL, 4, 4⟩
def F.DIAG_SWEEP_CTL_stop : Field := ⟨R.DIAG_SWEEP_CTL, 3, 3⟩
def F.DIAG_SWEEP_CTL_no_wait : Field := ⟨R.DIAG_SWEEP_CTL, 2, 2⟩
def F.DIAG_SWEEP_CTL_force : Field := ⟨R.DIAG_SWEEP_CTL, 1, 1⟩
def F.DIAG_SWEEP_CTL_start : Field := ⟨R.DIAG_SWEEP_CTL, 0, 0⟩
def R.DIAG_SWEEP_SET_LO : Nat := 0xa0084
def F.DIAG_SWEEP_SET_LO_valid0 : Field := ⟨R.DIAG_SWEEP_SET_LO, 7, 7⟩
def F.DIAG_SWEEP_SET_LO_port0 : Field := ⟨R.DIAG_SWEEP_SET_LO, 5, 0⟩
def F.DIAG_SWEEP_SET_LO_valid1 : Field := ⟨R.DIAG_SWEEP_SET_LO, 15, 15⟩
def F.DIAG_SWEEP_SET_LO_port1 : Field := ⟨R.DIAG_SWEEP_SET_LO, 13, 8⟩
def F.DIAG_SWEEP_SET_LO_valid2 : Field := ⟨R.DIAG_SWEEP_SET_LO, 23, 23⟩
def F.DIAG_SWEEP_SET_LO_port2 : Field := ⟨R.DIAG_SWEEP_SET_LO, 21, 16⟩
def F.DIAG_SWEEP_SET_LO_valid3 : Field := ⟨R.DIAG_SWEEP_SET_LO, 31, 31⟩
def F.DIAG_SWEEP_SET_LO_port3 : Field := ⟨R.DIAG_SWEEP_SET_LO, 29, 24⟩
def R.DIAG_SWEEP_SET_HI : Nat := 0xa0088
def F.DIAG_SWEEP_SET_HI_valid0 : Field := ⟨R.DIAG_SWEEP_SET_HI, 7, 7⟩
def F.DIAG_SWEEP_SET_HI_port0 : Field := ⟨R.DIAG_SWEEP_SET_HI, 5, 0⟩
def F.DIAG_SWEEP_SET_HI_valid1 : Field := ⟨R.DIAG_SWEEP_SET_HI, 15, 15⟩
def F.DIAG_SWEEP_SET_HI_port1 : Field := ⟨R.DIAG_SWEEP_SET_HI, 13, 8⟩
def F.DIAG_SWEEP_SET_HI_valid2 : Field := ⟨R.DIAG_SWEEP_SET_HI, 23, 23⟩
def F.DIAG_SWEEP_SET_HI_port2 : Field := ⟨R.DIAG_SWEEP_SET_HI, 21, 16⟩
def F.DIAG_SWEEP_SET_HI_valid3 : Field := ⟨R.DIAG_SWEEP_SET_HI, 31, 31⟩
def F.DIAG_SWEEP_SET_HI_port3 : Field := ⟨R.DIAG_SWEEP_SET_HI, 29, 24⟩
def R.DIAG_SWEEP_CFG : Nat := 0xa008c
def F.DIAG_SWEEP_CFG_share_db : Field := ⟨R.DIAG_SWEEP_CFG, 31, 16⟩
def F.DIAG_SWEEP_CFG_reps : Field := ⟨R.DIAG_SWEEP_CFG, 15, 8⟩
def R.DIAG_SWEEP_STAT : Nat := 0xa0090
def F.DIAG_SWEEP_STAT_bad_pos : Field := ⟨R.DIAG_SWEEP_STAT, 26, 24⟩
def F.DIAG_SWEEP_STAT_result : Field := ⟨R.DIAG_SWEEP_STAT, 19, 16⟩
def F.DIAG_SWEEP_STAT_state : Field := ⟨R.DIAG_SWEEP_STAT, 2, 0⟩
def R.DIAG_BOOK (i : Nat) : Nat := at1 0xa0100 0x8 32 i
def F.DIAG_BOOK_valid (i : Nat) : Field := ⟨R.DIAG_BOOK i, 31, 31⟩
def F.DIAG_BOOK_requester (i : Nat) : Field := ⟨R.DIAG_BOOK i, 30, 28⟩
def F.DIAG_BOOK_activity (i : Nat) : Field := ⟨R.DIAG_BOOK i, 3, 0⟩
def F.DIAG_BOOK_cellar (i : Nat) : Field := ⟨R.DIAG_BOOK i + 0x4, 21, 21⟩
def F.DIAG_BOOK_flash (i : Nat) : Field := ⟨R.DIAG_BOOK i + 0x4, 20, 20⟩
def F.DIAG_BOOK_qtr (i : Nat) : Field := ⟨R.DIAG_BOOK i + 0x4, 19, 16⟩
def F.DIAG_BOOK_bundle (i : Nat) : Field := ⟨R.DIAG_BOOK i + 0x4, 12, 8⟩
def F.DIAG_BOOK_port (i : Nat) : Field := ⟨R.DIAG_BOOK i + 0x4, 7, 0⟩
def R.DIAG_QUEUE (i : Nat) : Nat := at1 0xa0200 0x8 8 i
def F.DIAG_QUEUE_valid (i : Nat) : Field := ⟨R.DIAG_QUEUE i, 31, 31⟩
def F.DIAG_QUEUE_requester (i : Nat) : Field := ⟨R.DIAG_QUEUE i, 30, 28⟩
def F.DIAG_QUEUE_activity (i : Nat) : Field := ⟨R.DIAG_QUEUE i, 3, 0⟩
def F.DIAG_QUEUE_cellar (i : Nat) : Field := ⟨R.DIAG_QUEUE i + 0x4, 21, 21⟩
def F.DIAG_QUEUE_flash (i : Nat) : Field := ⟨R.DIAG_QUEUE i + 0x4, 20, 20⟩
def F.DIAG_QUEUE_qtr (i : Nat) : Field := ⟨R.DIAG_QUEUE i + 0x4, 19, 16⟩
def F.DIAG_QUEUE_bundle (i : Nat) : Field := ⟨R.DIAG_QUEUE i + 0x4, 12, 8⟩
def F.DIAG_QUEUE_port (i : Nat) : Field := ⟨R.DIAG_QUEUE i + 0x4, 7, 0⟩
def R.DIAG_MAP (a : Nat) : Nat := at1 0xa0400 0x8 64 a
def F.DIAG_MAP_peak (a : Nat) : Field := ⟨R.DIAG_MAP a, 31, 16⟩
def F.DIAG_MAP_class_ (a : Nat) : Field := ⟨R.DIAG_MAP a, 1, 0⟩
def F.DIAG_MAP_far (a : Nat) : Field := ⟨R.DIAG_MAP a + 0x4, 31, 16⟩
def F.DIAG_MAP_near (a : Nat) : Field := ⟨R.DIAG_MAP a + 0x4, 15, 0⟩
def R.DIAG_TDR_CTL (p : Nat) : Nat := at1 0xa1000 0x40 64 p
def F.DIAG_TDR_CTL_stop (p : Nat) : Field := ⟨R.DIAG_TDR_CTL p, 3, 3⟩
def F.DIAG_TDR_CTL_no_wait (p : Nat) : Field := ⟨R.DIAG_TDR_CTL p, 2, 2⟩
def F.DIAG_TDR_CTL_force (p : Nat) : Field := ⟨R.DIAG_TDR_CTL p, 1, 1⟩
def F.DIAG_TDR_CTL_start (p : Nat) : Field := ⟨R.DIAG_TDR_CTL p, 0, 0⟩
def R.DIAG_TDR_STAT (p : Nat) : Nat := at1 0xa1004 0x40 64 p
def F.DIAG_TDR_STAT_clean_pct (p : Nat) : Field := ⟨R.DIAG_TDR_STAT p, 31, 24⟩
def F.DIAG_TDR_STAT_result (p : Nat) : Field := ⟨R.DIAG_TDR_STAT p, 19, 16⟩
def F.DIAG_TDR_STAT_summary (p : Nat) : Field := ⟨R.DIAG_TDR_STAT p, 15, 12⟩
def F.DIAG_TDR_STAT_events (p : Nat) : Field := ⟨R.DIAG_TDR_STAT p, 11, 8⟩
def F.DIAG_TDR_STAT_state (p : Nat) : Field := ⟨R.DIAG_TDR_STAT p, 2, 0⟩
def R.DIAG_TDR_EVT (p : Nat) (e : Nat) : Nat := at2 0xa1010 0x40 64 0x4 8 p e
def F.DIAG_TDR_EVT_distance (p : Nat) (e : Nat) : Field := ⟨R.DIAG_TDR_EVT p e, 31, 16⟩
def F.DIAG_TDR_EVT_class_ (p : Nat) (e : Nat) : Field := ⟨R.DIAG_TDR_EVT p e, 15, 12⟩
def F.DIAG_TDR_EVT_rho (p : Nat) (e : Nat) : Field := ⟨R.DIAG_TDR_EVT p e, 11, 0⟩
def R.DIAG_IL (p : Nat) : Nat := at1 0xa1030 0x40 64 p
def F.DIAG_IL_limit (p : Nat) : Field := ⟨R.DIAG_IL p, 31, 16⟩
def F.DIAG_IL_valid (p : Nat) : Field := ⟨R.DIAG_IL p, 15, 15⟩
def F.DIAG_IL_estimate (p : Nat) : Field := ⟨R.DIAG_IL p, 14, 0⟩
def R.DIAG_FP_STAT (p : Nat) : Nat := at1 0xa1034 0x40 64 p
def F.DIAG_FP_STAT_correlation (p : Nat) : Field := ⟨R.DIAG_FP_STAT p, 31, 22⟩
def F.DIAG_FP_STAT_worst (p : Nat) : Field := ⟨R.DIAG_FP_STAT p, 21, 14⟩
def F.DIAG_FP_STAT_ref (p : Nat) : Field := ⟨R.DIAG_FP_STAT p, 2, 2⟩
def F.DIAG_FP_STAT_match_ (p : Nat) : Field := ⟨R.DIAG_FP_STAT p, 1, 0⟩
def R.DIAG_FP_CTL (p : Nat) : Nat := at1 0xa1038 0x40 64 p
def F.DIAG_FP_CTL_clear (p : Nat) : Field := ⟨R.DIAG_FP_CTL p, 1, 1⟩
def F.DIAG_FP_CTL_capture (p : Nat) : Field := ⟨R.DIAG_FP_CTL p, 0, 0⟩
def R.MDMA_STAT : Nat := 0xb0000
def F.MDMA_STAT_halted : Field := ⟨R.MDMA_STAT, 31, 16⟩
def F.MDMA_STAT_running : Field := ⟨R.MDMA_STAT, 15, 0⟩
def R.MCH_CTL (c : Nat) : Nat := at1 0xb1000 0x100 16 c
def F.MCH_CTL_en (c : Nat) : Field := ⟨R.MCH_CTL c, 0, 0⟩
def R.MCH_DOORBELL (c : Nat) : Nat := at1 0xb1004 0x100 16 c
def F.MCH_DOORBELL_ring (c : Nat) : Field := ⟨R.MCH_DOORBELL c, 31, 0⟩
def R.MCH_CFG (c : Nat) : Nat := at1 0xb1008 0x100 16 c
def F.MCH_CFG_sync (c : Nat) : Field := ⟨R.MCH_CFG c, 5, 5⟩
def F.MCH_CFG_halt_mismatch (c : Nat) : Field := ⟨R.MCH_CFG c, 4, 4⟩
def F.MCH_CFG_pri (c : Nat) : Field := ⟨R.MCH_CFG c, 1, 0⟩
def R.MCH_HOP_MAX (c : Nat) : Nat := at1 0xb100c 0x100 16 c
def F.MCH_HOP_MAX_limit (c : Nat) : Field := ⟨R.MCH_HOP_MAX c, 19, 0⟩
def R.MCH_FIRST (c : Nat) : Nat := at1 0xb1010 0x100 16 c
def R.MCH_CUR (c : Nat) : Nat := at1 0xb1018 0x100 16 c
def R.MCH_STAT (c : Nat) : Nat := at1 0xb1020 0x100 16 c
def F.MCH_STAT_bad_reason (c : Nat) : Field := ⟨R.MCH_STAT c, 15, 8⟩
def F.MCH_STAT_halt_cause (c : Nat) : Field := ⟨R.MCH_STAT c, 7, 4⟩
def F.MCH_STAT_state (c : Nat) : Field := ⟨R.MCH_STAT c, 1, 0⟩
def R.MCH_HOPS (c : Nat) : Nat := at1 0xb1024 0x100 16 c
def F.MCH_HOPS_hops (c : Nat) : Field := ⟨R.MCH_HOPS c, 19, 0⟩
def R.MCH_REMAIN (c : Nat) : Nat := at1 0xb1028 0x100 16 c
def F.MCH_REMAIN_bytes (c : Nat) : Field := ⟨R.MCH_REMAIN c, 31, 0⟩
def R.MCH_DONE (c : Nat) : Nat := at1 0xb1030 0x100 16 c
def R.MCH_BYTES (c : Nat) : Nat := at1 0xb1038 0x100 16 c
def R.MCH_IRQ_COUNT (c : Nat) : Nat := at1 0xb1040 0x100 16 c
def F.MCH_IRQ_COUNT_count (c : Nat) : Field := ⟨R.MCH_IRQ_COUNT c, 31, 0⟩
def R.MCH_CMP_OFS (c : Nat) : Nat := at1 0xb1044 0x100 16 c
def F.MCH_CMP_OFS_ofs (c : Nat) : Field := ⟨R.MCH_CMP_OFS c, 31, 0⟩
def R.MCH_LAST_BAD (c : Nat) : Nat := at1 0xb1048 0x100 16 c
def R.MCH_EVENT (c : Nat) : Nat := at1 0xb1080 0x100 16 c
def F.MCH_EVENT_seq (c : Nat) : Field := ⟨R.MCH_EVENT c, 31, 24⟩
def F.MCH_EVENT_chain_loop (c : Nat) : Field := ⟨R.MCH_EVENT c, 5, 5⟩
def F.MCH_EVENT_fetch_fault (c : Nat) : Field := ⟨R.MCH_EVENT c, 4, 4⟩
def F.MCH_EVENT_mismatch (c : Nat) : Field := ⟨R.MCH_EVENT c, 3, 3⟩
def F.MCH_EVENT_bad (c : Nat) : Field := ⟨R.MCH_EVENT c, 2, 2⟩
def F.MCH_EVENT_at_end (c : Nat) : Field := ⟨R.MCH_EVENT c, 1, 1⟩
def F.MCH_EVENT_desc_irq (c : Nat) : Field := ⟨R.MCH_EVENT c, 0, 0⟩
def R.MCH_EVENT_MASK (c : Nat) : Nat := at1 0xb1084 0x100 16 c
def F.MCH_EVENT_MASK_enable (c : Nat) : Field := ⟨R.MCH_EVENT_MASK c, 5, 0⟩
def R.FSPI_CFG : Nat := 0xc0000
def F.FSPI_CFG_erase_ms : Field := ⟨R.FSPI_CFG, 31, 24⟩
def F.FSPI_CFG_prog_ms : Field := ⟨R.FSPI_CFG, 23, 16⟩
def F.FSPI_CFG_suspend_en : Field := ⟨R.FSPI_CFG, 15, 15⟩
def F.FSPI_CFG_dummy : Field := ⟨R.FSPI_CFG, 14, 10⟩
def F.FSPI_CFG_page_log2 : Field := ⟨R.FSPI_CFG, 9, 8⟩
def F.FSPI_CFG_size_log2 : Field := ⟨R.FSPI_CFG, 5, 2⟩
def F.FSPI_CFG_proto : Field := ⟨R.FSPI_CFG, 1, 0⟩
def R.FSPI_STAT : Nat := 0xc0004
def F.FSPI_STAT_client : Field := ⟨R.FSPI_STAT, 10, 8⟩
def F.FSPI_STAT_suspended : Field := ⟨R.FSPI_STAT, 2, 2⟩
def F.FSPI_STAT_buffered : Field := ⟨R.FSPI_STAT, 1, 1⟩
def F.FSPI_STAT_wip : Field := ⟨R.FSPI_STAT, 0, 0⟩
def R.FSPI_CTL : Nat := 0xc0008
def F.FSPI_CTL_flush : Field := ⟨R.FSPI_CTL, 0, 0⟩
def R.FSPI_FAIL_CFG : Nat := 0xc000c
def F.FSPI_FAIL_CFG_fail_bit : Field := ⟨R.FSPI_FAIL_CFG, 7, 0⟩
def R.FSPI_ERASE_ADDR : Nat := 0xc0010
def F.FSPI_ERASE_ADDR_addr : Field := ⟨R.FSPI_ERASE_ADDR, 26, 0⟩
def R.FSPI_ERASE_CTL : Nat := 0xc0014
def F.FSPI_ERASE_CTL_result : Field := ⟨R.FSPI_ERASE_CTL, 10, 8⟩
def F.FSPI_ERASE_CTL_size : Field := ⟨R.FSPI_ERASE_CTL, 2, 1⟩
def F.FSPI_ERASE_CTL_go : Field := ⟨R.FSPI_ERASE_CTL, 0, 0⟩
def R.FSPI_CMDS : Nat := 0xc0020
def R.FSPI_EVENT : Nat := 0xc00f0
def F.FSPI_EVENT_seq : Field := ⟨R.FSPI_EVENT, 31, 24⟩
def F.FSPI_EVENT_unbooked : Field := ⟨R.FSPI_EVENT, 3, 3⟩
def F.FSPI_EVENT_timeout : Field := ⟨R.FSPI_EVENT, 2, 2⟩
def F.FSPI_EVENT_prog_fail : Field := ⟨R.FSPI_EVENT, 1, 1⟩
def F.FSPI_EVENT_erase_done : Field := ⟨R.FSPI_EVENT, 0, 0⟩
def R.FSPI_EVENT_MASK : Nat := 0xc00f4
def F.FSPI_EVENT_MASK_enable : Field := ⟨R.FSPI_EVENT_MASK, 3, 0⟩
def R.HSPI_CFG : Nat := 0xd0000
def F.HSPI_CFG_crc_req : Field := ⟨R.HSPI_CFG, 0, 0⟩
def R.HSPI_LAST : Nat := 0xd0004
def F.HSPI_LAST_words : Field := ⟨R.HSPI_LAST, 31, 24⟩
def F.HSPI_LAST_reason : Field := ⟨R.HSPI_LAST, 7, 4⟩
def R.HSPI_COUNT : Nat := 0xd0008
def F.HSPI_COUNT_rejected : Field := ⟨R.HSPI_COUNT, 31, 16⟩
def F.HSPI_COUNT_frames : Field := ⟨R.HSPI_COUNT, 15, 0⟩
def R.HSPI_KEVENT : Nat := 0xd00f0
def F.HSPI_KEVENT_seq : Field := ⟨R.HSPI_KEVENT, 31, 24⟩
def F.HSPI_KEVENT_safe : Field := ⟨R.HSPI_KEVENT, 4, 4⟩
def F.HSPI_KEVENT_fault : Field := ⟨R.HSPI_KEVENT, 3, 3⟩
def F.HSPI_KEVENT_mode_change : Field := ⟨R.HSPI_KEVENT, 2, 2⟩
def F.HSPI_KEVENT_start_done : Field := ⟨R.HSPI_KEVENT, 1, 1⟩
def F.HSPI_KEVENT_mbx_done : Field := ⟨R.HSPI_KEVENT, 0, 0⟩
def R.HSPI_KEVENT_MASK : Nat := 0xd00f4
def F.HSPI_KEVENT_MASK_enable : Field := ⟨R.HSPI_KEVENT_MASK, 4, 0⟩
def R.HSPI_MBX_CTL : Nat := 0xd1000
def F.HSPI_MBX_CTL_abort : Field := ⟨R.HSPI_MBX_CTL, 2, 2⟩
def F.HSPI_MBX_CTL_ack : Field := ⟨R.HSPI_MBX_CTL, 1, 1⟩
def F.HSPI_MBX_CTL_post : Field := ⟨R.HSPI_MBX_CTL, 0, 0⟩
def R.HSPI_MBX_STAT : Nat := 0xd1004
def F.HSPI_MBX_STAT_tag : Field := ⟨R.HSPI_MBX_STAT, 15, 8⟩
def F.HSPI_MBX_STAT_state : Field := ⟨R.HSPI_MBX_STAT, 1, 0⟩
def R.HSPI_MBX_REQ (i : Nat) : Nat := at1 0xd1100 0x4 64 i
def F.HSPI_MBX_REQ_data (i : Nat) : Field := ⟨R.HSPI_MBX_REQ i, 31, 0⟩
def R.HSPI_MBX_RSP (i : Nat) : Nat := at1 0xd1200 0x4 64 i
def F.HSPI_MBX_RSP_data (i : Nat) : Field := ⟨R.HSPI_MBX_RSP i, 31, 0⟩
def R.CEL_CFG : Nat := 0xe0000
def F.CEL_CFG_rx_kcells : Field := ⟨R.CEL_CFG, 7, 0⟩
def R.CEL_STAT : Nat := 0xe0004
def F.CEL_STAT_init_done : Field := ⟨R.CEL_STAT, 31, 31⟩
def R.CEL_RX_USED : Nat := 0xe0008
def F.CEL_RX_USED_cells : Field := ⟨R.CEL_RX_USED, 17, 0⟩
def R.CEL_TX_USED : Nat := 0xe000c
def F.CEL_TX_USED_cells : Field := ⟨R.CEL_TX_USED, 17, 0⟩
def R.CEL_HEAD_RX (h : Nat) : Nat := at1 0xe0020 0x8 4 h
def F.CEL_HEAD_RX_max (h : Nat) : Field := ⟨R.CEL_HEAD_RX h, 25, 16⟩
def F.CEL_HEAD_RX_guar (h : Nat) : Field := ⟨R.CEL_HEAD_RX h, 9, 0⟩
def R.CEL_HEAD_TX (h : Nat) : Nat := at1 0xe0040 0x8 4 h
def F.CEL_HEAD_TX_max (h : Nat) : Field := ⟨R.CEL_HEAD_TX h, 25, 16⟩
def F.CEL_HEAD_TX_guar (h : Nat) : Field := ⟨R.CEL_HEAD_TX h, 9, 0⟩
def R.CEL_QP_MAX : Nat := 0xe0060
def F.CEL_QP_MAX_max : Field := ⟨R.CEL_QP_MAX, 9, 0⟩
def R.CEL_DROPS (h : Nat) : Nat := at1 0xe0080 0x8 4 h
def R.CEL_ECC : Nat := 0xe00a0
def F.CEL_ECC_uncorr : Field := ⟨R.CEL_ECC, 31, 16⟩
def F.CEL_ECC_corr : Field := ⟨R.CEL_ECC, 15, 0⟩
def R.CEL_EVENT : Nat := 0xe00f0
def F.CEL_EVENT_seq : Field := ⟨R.CEL_EVENT, 31, 24⟩
def F.CEL_EVENT_ecc_uncorr : Field := ⟨R.CEL_EVENT, 2, 2⟩
def F.CEL_EVENT_drop : Field := ⟨R.CEL_EVENT, 1, 1⟩
def F.CEL_EVENT_init_done : Field := ⟨R.CEL_EVENT, 0, 0⟩
def R.CEL_EVENT_MASK : Nat := 0xe00f4
def F.CEL_EVENT_MASK_enable : Field := ⟨R.CEL_EVENT_MASK, 2, 0⟩
def R.PKT_LAT_CFG : Nat := 0xf0000
def F.PKT_LAT_CFG_clear : Field := ⟨R.PKT_LAT_CFG, 16, 16⟩
def F.PKT_LAT_CFG_threshold_ns : Field := ⟨R.PKT_LAT_CFG, 15, 0⟩
def R.PKT_LAT_MINMAX (h : Nat) : Nat := at1 0xf0010 0x10 4 h
def F.PKT_LAT_MINMAX_min_ns (h : Nat) : Field := ⟨R.PKT_LAT_MINMAX h, 31, 16⟩
def F.PKT_LAT_MINMAX_max_ns (h : Nat) : Field := ⟨R.PKT_LAT_MINMAX h, 15, 0⟩
def R.PKT_LAT_OVER (h : Nat) : Nat := at1 0xf0014 0x10 4 h
def F.PKT_LAT_OVER_over (h : Nat) : Field := ⟨R.PKT_LAT_OVER h, 31, 0⟩
def R.PKT_LAT_MEASURED (h : Nat) : Nat := at1 0xf0018 0x10 4 h
def F.PKT_LAT_MEASURED_measured (h : Nat) : Field := ⟨R.PKT_LAT_MEASURED h, 31, 0⟩
def R.PKT_EVENT : Nat := 0xf0100
def F.PKT_EVENT_seq : Field := ⟨R.PKT_EVENT, 31, 24⟩
def F.PKT_EVENT_nomatch : Field := ⟨R.PKT_EVENT, 1, 1⟩
def F.PKT_EVENT_lat_over : Field := ⟨R.PKT_EVENT, 0, 0⟩
def R.PKT_EVENT_MASK : Nat := 0xf0104
def F.PKT_EVENT_MASK_enable : Field := ⟨R.PKT_EVENT_MASK, 1, 0⟩
def R.PKT_PORT_DEF (p : Nat) : Nat := at1 0xf1000 0x4 64 p
def F.PKT_PORT_DEF_valid (p : Nat) : Field := ⟨R.PKT_PORT_DEF p, 31, 31⟩
def F.PKT_PORT_DEF_qp (p : Nat) : Field := ⟨R.PKT_PORT_DEF p, 8, 0⟩
def R.PKT_NOMATCH (p : Nat) : Nat := at1 0xf1100 0x4 64 p
def F.PKT_NOMATCH_count (p : Nat) : Field := ⟨R.PKT_NOMATCH p, 31, 0⟩
def R.PKT_CLS_HIT (e : Nat) : Nat := at1 0xf2000 0x4 2048 e
def F.PKT_CLS_HIT_count (e : Nat) : Field := ⟨R.PKT_CLS_HIT e, 31, 0⟩
def R.PKT_CLS (e : Nat) : Nat := at1 0xf8000 0x10 2048 e
def R.HEAD_STAT (h : Nat) : Nat := at1 0x100000 0x10000 4 h
def F.HEAD_STAT_epoch (h : Nat) : Field := ⟨R.HEAD_STAT h, 31, 24⟩
def F.HEAD_STAT_rate (h : Nat) : Field := ⟨R.HEAD_STAT h, 23, 22⟩
def F.HEAD_STAT_width (h : Nat) : Field := ⟨R.HEAD_STAT h, 21, 17⟩
def F.HEAD_STAT_ats_en (h : Nat) : Field := ⟨R.HEAD_STAT h, 16, 16⟩
def F.HEAD_STAT_ide_cache (h : Nat) : Field := ⟨R.HEAD_STAT h, 15, 15⟩
def F.HEAD_STAT_ide_io (h : Nat) : Field := ⟨R.HEAD_STAT h, 14, 14⟩
def F.HEAD_STAT_rights (h : Nat) : Field := ⟨R.HEAD_STAT h, 13, 13⟩
def F.HEAD_STAT_deputy (h : Nat) : Field := ⟨R.HEAD_STAT h, 12, 12⟩
def F.HEAD_STAT_steward (h : Nat) : Field := ⟨R.HEAD_STAT h, 11, 11⟩
def F.HEAD_STAT_draining (h : Nat) : Field := ⟨R.HEAD_STAT h, 10, 10⟩
def F.HEAD_STAT_lost_cause (h : Nat) : Field := ⟨R.HEAD_STAT h, 7, 4⟩
def F.HEAD_STAT_state (h : Nat) : Field := ⟨R.HEAD_STAT h, 2, 0⟩
def R.HEAD_LANES (h : Nat) : Nat := at1 0x100004 0x10000 4 h
def F.HEAD_LANES_strap_width (h : Nat) : Field := ⟨R.HEAD_LANES h, 12, 8⟩
def F.HEAD_LANES_first_lane (h : Nat) : Field := ⟨R.HEAD_LANES h, 3, 0⟩
def R.HEAD_ATTACH (h : Nat) : Nat := at1 0x100010 0x10000 4 h
def F.HEAD_ATTACH_result (h : Nat) : Field := ⟨R.HEAD_ATTACH h, 10, 8⟩
def F.HEAD_ATTACH_detach (h : Nat) : Field := ⟨R.HEAD_ATTACH h, 1, 1⟩
def F.HEAD_ATTACH_attach (h : Nat) : Field := ⟨R.HEAD_ATTACH h, 0, 0⟩
def R.HEAD_HB_CFG (h : Nat) : Nat := at1 0x100014 0x10000 4 h
def F.HEAD_HB_CFG_hb_ms (h : Nat) : Field := ⟨R.HEAD_HB_CFG h, 15, 0⟩
def R.HEAD_HB_KICK (h : Nat) : Nat := at1 0x100018 0x10000 4 h
def F.HEAD_HB_KICK_kick (h : Nat) : Field := ⟨R.HEAD_HB_KICK h, 31, 0⟩
def R.HEAD_REQ_CFG (h : Nat) : Nat := at1 0x100020 0x10000 4 h
def F.HEAD_REQ_CFG_cpl_timeout_ms (h : Nat) : Field := ⟨R.HEAD_REQ_CFG h, 31, 24⟩
def F.HEAD_REQ_CFG_max_out (h : Nat) : Field := ⟨R.HEAD_REQ_CFG h, 12, 0⟩
def R.HEAD_REQ_STAT (h : Nat) : Nat := at1 0x100024 0x10000 4 h
def F.HEAD_REQ_STAT_peak (h : Nat) : Field := ⟨R.HEAD_REQ_STAT h, 28, 16⟩
def F.HEAD_REQ_STAT_now (h : Nat) : Field := ⟨R.HEAD_REQ_STAT h, 12, 0⟩
def R.HEAD_IRQ_CFG (h : Nat) : Nat := at1 0x100030 0x10000 4 h
def F.HEAD_IRQ_CFG_mbx_vec (h : Nat) : Field := ⟨R.HEAD_IRQ_CFG h, 24, 16⟩
def F.HEAD_IRQ_CFG_sum_vec (h : Nat) : Field := ⟨R.HEAD_IRQ_CFG h, 8, 0⟩
def R.HEAD_IRQ_SUM_MASK (h : Nat) : Nat := at1 0x100034 0x10000 4 h
def F.HEAD_IRQ_SUM_MASK_mask (h : Nat) : Field := ⟨R.HEAD_IRQ_SUM_MASK h, 31, 0⟩
def R.HEAD_IRQ_REARM (h : Nat) : Nat := at1 0x100038 0x10000 4 h
def F.HEAD_IRQ_REARM_rearm (h : Nat) : Field := ⟨R.HEAD_IRQ_REARM h, 0, 0⟩
def R.HEAD_ATC_STAT (h : Nat) : Nat := at1 0x100040 0x10000 4 h
def F.HEAD_ATC_STAT_valid (h : Nat) : Field := ⟨R.HEAD_ATC_STAT h, 27, 16⟩
def F.HEAD_ATC_STAT_invals (h : Nat) : Field := ⟨R.HEAD_ATC_STAT h, 15, 0⟩
def R.HEAD_ATC_CTL (h : Nat) : Nat := at1 0x100044 0x10000 4 h
def F.HEAD_ATC_CTL_flush (h : Nat) : Field := ⟨R.HEAD_ATC_CTL h, 0, 0⟩
def R.HEAD_MEM_REJ (h : Nat) : Nat := at1 0x100050 0x10000 4 h
def F.HEAD_MEM_REJ_count (h : Nat) : Field := ⟨R.HEAD_MEM_REJ h, 31, 0⟩
def R.HEAD_EVENT (h : Nat) : Nat := at1 0x100060 0x10000 4 h
def F.HEAD_EVENT_seq (h : Nat) : Field := ⟨R.HEAD_EVENT h, 31, 24⟩
def F.HEAD_EVENT_ide_fail (h : Nat) : Field := ⟨R.HEAD_EVENT h, 7, 7⟩
def F.HEAD_EVENT_mem_attempt (h : Nat) : Field := ⟨R.HEAD_EVENT h, 6, 6⟩
def F.HEAD_EVENT_cpl_timeout (h : Nat) : Field := ⟨R.HEAD_EVENT h, 5, 5⟩
def F.HEAD_EVENT_mbx_reply (h : Nat) : Field := ⟨R.HEAD_EVENT h, 4, 4⟩
def F.HEAD_EVENT_rights_lose (h : Nat) : Field := ⟨R.HEAD_EVENT h, 3, 3⟩
def F.HEAD_EVENT_rights_gain (h : Nat) : Field := ⟨R.HEAD_EVENT h, 2, 2⟩
def F.HEAD_EVENT_lost (h : Nat) : Field := ⟨R.HEAD_EVENT h, 1, 1⟩
def F.HEAD_EVENT_attach (h : Nat) : Field := ⟨R.HEAD_EVENT h, 0, 0⟩
def R.HEAD_EVENT_MASK (h : Nat) : Nat := at1 0x100064 0x10000 4 h
def F.HEAD_EVENT_MASK_enable (h : Nat) : Field := ⟨R.HEAD_EVENT_MASK h, 7, 0⟩
def R.HEAD_MBX_CTL (h : Nat) : Nat := at1 0x100100 0x10000 4 h
def F.HEAD_MBX_CTL_abort (h : Nat) : Field := ⟨R.HEAD_MBX_CTL h, 2, 2⟩
def F.HEAD_MBX_CTL_ack (h : Nat) : Field := ⟨R.HEAD_MBX_CTL h, 1, 1⟩
def F.HEAD_MBX_CTL_post (h : Nat) : Field := ⟨R.HEAD_MBX_CTL h, 0, 0⟩
def R.HEAD_MBX_STAT (h : Nat) : Nat := at1 0x100104 0x10000 4 h
def F.HEAD_MBX_STAT_tag (h : Nat) : Field := ⟨R.HEAD_MBX_STAT h, 15, 8⟩
def F.HEAD_MBX_STAT_state (h : Nat) : Field := ⟨R.HEAD_MBX_STAT h, 1, 0⟩
def R.HEAD_MBX_REQ (h : Nat) (i : Nat) : Nat := at2 0x100200 0x10000 4 0x4 64 h i
def F.HEAD_MBX_REQ_word (h : Nat) (i : Nat) : Field := ⟨R.HEAD_MBX_REQ h i, 31, 0⟩
def R.HEAD_MBX_RSP (h : Nat) (i : Nat) : Nat := at2 0x100300 0x10000 4 0x4 64 h i
def F.HEAD_MBX_RSP_word (h : Nat) (i : Nat) : Field := ⟨R.HEAD_MBX_RSP h i, 31, 0⟩
def R.BND_CFG (b : Nat) : Nat := at1 0x140000 0x400 16 b
def F.BND_CFG_pairs (b : Nat) : Field := ⟨R.BND_CFG b, 22, 16⟩
def F.BND_CFG_quarter (b : Nat) : Field := ⟨R.BND_CFG b, 13, 12⟩
def F.BND_CFG_mode (b : Nat) : Field := ⟨R.BND_CFG b, 11, 8⟩
def F.BND_CFG_valid (b : Nat) : Field := ⟨R.BND_CFG b, 0, 0⟩
def R.BND_MEMBERS_LO (b : Nat) : Nat := at1 0x140004 0x400 16 b
def F.BND_MEMBERS_LO_valid0 (b : Nat) : Field := ⟨R.BND_MEMBERS_LO b, 7, 7⟩
def F.BND_MEMBERS_LO_port0 (b : Nat) : Field := ⟨R.BND_MEMBERS_LO b, 5, 0⟩
def F.BND_MEMBERS_LO_valid1 (b : Nat) : Field := ⟨R.BND_MEMBERS_LO b, 15, 15⟩
def F.BND_MEMBERS_LO_port1 (b : Nat) : Field := ⟨R.BND_MEMBERS_LO b, 13, 8⟩
def F.BND_MEMBERS_LO_valid2 (b : Nat) : Field := ⟨R.BND_MEMBERS_LO b, 23, 23⟩
def F.BND_MEMBERS_LO_port2 (b : Nat) : Field := ⟨R.BND_MEMBERS_LO b, 21, 16⟩
def F.BND_MEMBERS_LO_valid3 (b : Nat) : Field := ⟨R.BND_MEMBERS_LO b, 31, 31⟩
def F.BND_MEMBERS_LO_port3 (b : Nat) : Field := ⟨R.BND_MEMBERS_LO b, 29, 24⟩
def R.BND_MEMBERS_HI (b : Nat) : Nat := at1 0x140008 0x400 16 b
def F.BND_MEMBERS_HI_valid0 (b : Nat) : Field := ⟨R.BND_MEMBERS_HI b, 7, 7⟩
def F.BND_MEMBERS_HI_port0 (b : Nat) : Field := ⟨R.BND_MEMBERS_HI b, 5, 0⟩
def F.BND_MEMBERS_HI_valid1 (b : Nat) : Field := ⟨R.BND_MEMBERS_HI b, 15, 15⟩
def F.BND_MEMBERS_HI_port1 (b : Nat) : Field := ⟨R.BND_MEMBERS_HI b, 13, 8⟩
def F.BND_MEMBERS_HI_valid2 (b : Nat) : Field := ⟨R.BND_MEMBERS_HI b, 23, 23⟩
def F.BND_MEMBERS_HI_port2 (b : Nat) : Field := ⟨R.BND_MEMBERS_HI b, 21, 16⟩
def F.BND_MEMBERS_HI_valid3 (b : Nat) : Field := ⟨R.BND_MEMBERS_HI b, 31, 31⟩
def F.BND_MEMBERS_HI_port3 (b : Nat) : Field := ⟨R.BND_MEMBERS_HI b, 29, 24⟩
def R.BND_STAT (b : Nat) : Nat := at1 0x14000c 0x400 16 b
def F.BND_STAT_held (b : Nat) : Field := ⟨R.BND_STAT b, 31, 24⟩
def F.BND_STAT_agreeing (b : Nat) : Field := ⟨R.BND_STAT b, 23, 16⟩
def F.BND_STAT_mode (b : Nat) : Field := ⟨R.BND_STAT b, 11, 8⟩
def F.BND_STAT_state (b : Nat) : Field := ⟨R.BND_STAT b, 2, 0⟩
def R.BND_CTL (b : Nat) : Nat := at1 0x140010 0x400 16 b
def F.BND_CTL_restart (b : Nat) : Field := ⟨R.BND_CTL b, 1, 1⟩
def F.BND_CTL_freeze (b : Nat) : Field := ⟨R.BND_CTL b, 0, 0⟩
def R.BND_EVENT (b : Nat) : Nat := at1 0x140020 0x400 16 b
def F.BND_EVENT_seq (b : Nat) : Field := ⟨R.BND_EVENT b, 31, 24⟩
def F.BND_EVENT_selection (b : Nat) : Field := ⟨R.BND_EVENT b, 5, 5⟩
def F.BND_EVENT_weak (b : Nat) : Field := ⟨R.BND_EVENT b, 4, 4⟩
def F.BND_EVENT_no_slots (b : Nat) : Field := ⟨R.BND_EVENT b, 3, 3⟩
def F.BND_EVENT_frozen (b : Nat) : Field := ⟨R.BND_EVENT b, 2, 2⟩
def F.BND_EVENT_disabled (b : Nat) : Field := ⟨R.BND_EVENT b, 1, 1⟩
def F.BND_EVENT_active (b : Nat) : Field := ⟨R.BND_EVENT b, 0, 0⟩
def R.BND_EVENT_MASK (b : Nat) : Nat := at1 0x140024 0x400 16 b
def F.BND_EVENT_MASK_enable (b : Nat) : Field := ⟨R.BND_EVENT_MASK b, 5, 0⟩
def R.BND_PAIR_CFG (b : Nat) (i : Nat) : Nat := at2 0x140100 0x400 16 0x8 56 b i
def F.BND_PAIR_CFG_en (b : Nat) (i : Nat) : Field := ⟨R.BND_PAIR_CFG b i, 24, 24⟩
def F.BND_PAIR_CFG_kind (b : Nat) (i : Nat) : Field := ⟨R.BND_PAIR_CFG b i, 17, 16⟩
def F.BND_PAIR_CFG_victim (b : Nat) (i : Nat) : Field := ⟨R.BND_PAIR_CFG b i, 10, 8⟩
def F.BND_PAIR_CFG_aggressor (b : Nat) (i : Nat) : Field := ⟨R.BND_PAIR_CFG b i, 2, 0⟩
def R.BND_PAIR_STAT (b : Nat) (i : Nat) : Nat := at2 0x140104 0x400 16 0x8 56 b i
def F.BND_PAIR_STAT_depth (b : Nat) (i : Nat) : Field := ⟨R.BND_PAIR_STAT b i, 31, 16⟩
def F.BND_PAIR_STAT_slots (b : Nat) (i : Nat) : Field := ⟨R.BND_PAIR_STAT b i, 15, 8⟩
def F.BND_PAIR_STAT_stored (b : Nat) (i : Nat) : Field := ⟨R.BND_PAIR_STAT b i, 3, 3⟩
def F.BND_PAIR_STAT_state (b : Nat) (i : Nat) : Field := ⟨R.BND_PAIR_STAT b i, 2, 0⟩
def R.CANE_CFG (k : Nat) : Nat := at1 0x150000 0x100 4 k
def F.CANE_CFG_members (k : Nat) : Field := ⟨R.CANE_CFG k, 11, 8⟩
def F.CANE_CFG_policy (k : Nat) : Field := ⟨R.CANE_CFG k, 4, 4⟩
def F.CANE_CFG_valid (k : Nat) : Field := ⟨R.CANE_CFG k, 0, 0⟩
def R.CANE_CTL (k : Nat) : Nat := at1 0x150004 0x100 4 k
def F.CANE_CTL_form_wait_ms (k : Nat) : Field := ⟨R.CANE_CTL k, 31, 16⟩
def F.CANE_CTL_rejoin_hold_ms (k : Nat) : Field := ⟨R.CANE_CTL k, 15, 0⟩
def R.CANE_STAT (k : Nat) : Nat := at1 0x150008 0x100 4 k
def F.CANE_STAT_up_lanes (k : Nat) : Field := ⟨R.CANE_STAT k, 27, 24⟩
def F.CANE_STAT_admitted (k : Nat) : Field := ⟨R.CANE_STAT k, 23, 20⟩
def F.CANE_STAT_mode (k : Nat) : Field := ⟨R.CANE_STAT k, 15, 12⟩
def F.CANE_STAT_state (k : Nat) : Field := ⟨R.CANE_STAT k, 2, 0⟩
def R.CANE_SKEW_A (k : Nat) : Nat := at1 0x150010 0x100 4 k
def F.CANE_SKEW_A_odd_lane (k : Nat) : Field := ⟨R.CANE_SKEW_A k, 25, 16⟩
def F.CANE_SKEW_A_even_lane (k : Nat) : Field := ⟨R.CANE_SKEW_A k, 9, 0⟩
def R.CANE_SKEW_B (k : Nat) : Nat := at1 0x150014 0x100 4 k
def F.CANE_SKEW_B_odd_lane (k : Nat) : Field := ⟨R.CANE_SKEW_B k, 25, 16⟩
def F.CANE_SKEW_B_even_lane (k : Nat) : Field := ⟨R.CANE_SKEW_B k, 9, 0⟩
def R.CANE_EVENT (k : Nat) : Nat := at1 0x150020 0x100 4 k
def F.CANE_EVENT_seq (k : Nat) : Field := ⟨R.CANE_EVENT k, 31, 24⟩
def F.CANE_EVENT_map_change (k : Nat) : Field := ⟨R.CANE_EVENT k, 8, 8⟩
def F.CANE_EVENT_partner_mismatch (k : Nat) : Field := ⟨R.CANE_EVENT k, 7, 7⟩
def F.CANE_EVENT_miswire (k : Nat) : Field := ⟨R.CANE_EVENT k, 6, 6⟩
def F.CANE_EVENT_skew_excess (k : Nat) : Field := ⟨R.CANE_EVENT k, 5, 5⟩
def F.CANE_EVENT_single (k : Nat) : Field := ⟨R.CANE_EVENT k, 4, 4⟩
def F.CANE_EVENT_down (k : Nat) : Field := ⟨R.CANE_EVENT k, 3, 3⟩
def F.CANE_EVENT_restored (k : Nat) : Field := ⟨R.CANE_EVENT k, 2, 2⟩
def F.CANE_EVENT_degraded (k : Nat) : Field := ⟨R.CANE_EVENT k, 1, 1⟩
def F.CANE_EVENT_formed (k : Nat) : Field := ⟨R.CANE_EVENT k, 0, 0⟩
def R.CANE_EVENT_MASK (k : Nat) : Nat := at1 0x150024 0x100 4 k
def F.CANE_EVENT_MASK_enable (k : Nat) : Field := ⟨R.CANE_EVENT_MASK k, 8, 0⟩
def R.CANE_LOSS_FRAMES (k : Nat) : Nat := at1 0x150030 0x100 4 k
def R.CANE_AM_ERR (k : Nat) (j : Nat) : Nat := at2 0x150040 0x100 4 0x4 4 k j
def F.CANE_AM_ERR_bip_errors (k : Nat) (j : Nat) : Field := ⟨R.CANE_AM_ERR k j, 31, 0⟩
def R.WAKE_CFG : Nat := 0x160000
def F.WAKE_CFG_retries : Field := ⟨R.WAKE_CFG, 31, 24⟩
def F.WAKE_CFG_spacing_ms : Field := ⟨R.WAKE_CFG, 13, 0⟩
def R.WAKE_IN_CFG : Nat := 0x160004
def F.WAKE_IN_CFG_group0 : Field := ⟨R.WAKE_IN_CFG, 7, 4⟩
def F.WAKE_IN_CFG_edge0 : Field := ⟨R.WAKE_IN_CFG, 1, 1⟩
def F.WAKE_IN_CFG_en0 : Field := ⟨R.WAKE_IN_CFG, 0, 0⟩
def F.WAKE_IN_CFG_group1 : Field := ⟨R.WAKE_IN_CFG, 15, 12⟩
def F.WAKE_IN_CFG_edge1 : Field := ⟨R.WAKE_IN_CFG, 9, 9⟩
def F.WAKE_IN_CFG_en1 : Field := ⟨R.WAKE_IN_CFG, 8, 8⟩
def F.WAKE_IN_CFG_group2 : Field := ⟨R.WAKE_IN_CFG, 23, 20⟩
def F.WAKE_IN_CFG_edge2 : Field := ⟨R.WAKE_IN_CFG, 17, 17⟩
def F.WAKE_IN_CFG_en2 : Field := ⟨R.WAKE_IN_CFG, 16, 16⟩
def F.WAKE_IN_CFG_group3 : Field := ⟨R.WAKE_IN_CFG, 31, 28⟩
def F.WAKE_IN_CFG_edge3 : Field := ⟨R.WAKE_IN_CFG, 25, 25⟩
def F.WAKE_IN_CFG_en3 : Field := ⟨R.WAKE_IN_CFG, 24, 24⟩
def R.WAKE_DET_EN : Nat := 0x160008
def R.WAKE_PENDING : Nat := 0x160010
def R.WAKE_CAUSE : Nat := 0x160018
def F.WAKE_CAUSE_kind : Field := ⟨R.WAKE_CAUSE, 31, 28⟩
def F.WAKE_CAUSE_from_park : Field := ⟨R.WAKE_CAUSE, 27, 27⟩
def F.WAKE_CAUSE_index : Field := ⟨R.WAKE_CAUSE, 13, 8⟩
def R.WAKE_EVENT : Nat := 0x160020
def F.WAKE_EVENT_seq : Field := ⟨R.WAKE_EVENT, 31, 24⟩
def F.WAKE_EVENT_retries_out : Field := ⟨R.WAKE_EVENT, 5, 5⟩
def F.WAKE_EVENT_park_exit : Field := ⟨R.WAKE_EVENT, 4, 4⟩
def F.WAKE_EVENT_suppressed : Field := ⟨R.WAKE_EVENT, 3, 3⟩
def F.WAKE_EVENT_held : Field := ⟨R.WAKE_EVENT, 2, 2⟩
def F.WAKE_EVENT_forwarded : Field := ⟨R.WAKE_EVENT, 1, 1⟩
def F.WAKE_EVENT_wake : Field := ⟨R.WAKE_EVENT, 0, 0⟩
def R.WAKE_EVENT_MASK : Nat := 0x160024
def F.WAKE_EVENT_MASK_enable : Field := ⟨R.WAKE_EVENT_MASK, 5, 0⟩
def R.WAKE_PARK_DET (i : Nat) : Nat := at1 0x160040 0x4 16 i
def F.WAKE_PARK_DET_valid (i : Nat) : Field := ⟨R.WAKE_PARK_DET i, 7, 7⟩
def F.WAKE_PARK_DET_port (i : Nat) : Field := ⟨R.WAKE_PARK_DET i, 5, 0⟩
def R.WAKE_PGROUP (w : Nat) : Nat := at1 0x160080 0x4 8 w
def F.WAKE_PGROUP_groups (w : Nat) : Field := ⟨R.WAKE_PGROUP w, 31, 0⟩
def R.WAKE_TABLE (i : Nat) : Nat := at1 0x160100 0x4 16 i
def F.WAKE_TABLE_action (i : Nat) : Field := ⟨R.WAKE_TABLE i, 31, 28⟩
def F.WAKE_TABLE_target (i : Nat) : Field := ⟨R.WAKE_TABLE i, 21, 16⟩
def F.WAKE_TABLE_delay (i : Nat) : Field := ⟨R.WAKE_TABLE i, 15, 0⟩
def R.WAKE_FWD_MASK (g : Nat) : Nat := at1 0x160208 0x8 15 g
def R.WAKE_PCOUNT (p : Nat) : Nat := at1 0x160400 0x4 64 p
def F.WAKE_PCOUNT_held (p : Nat) : Field := ⟨R.WAKE_PCOUNT p, 31, 24⟩
def F.WAKE_PCOUNT_suppressed (p : Nat) : Field := ⟨R.WAKE_PCOUNT p, 23, 16⟩
def F.WAKE_PCOUNT_sent (p : Nat) : Field := ⟨R.WAKE_PCOUNT p, 15, 8⟩
def F.WAKE_PCOUNT_received (p : Nat) : Field := ⟨R.WAKE_PCOUNT p, 7, 0⟩
def R.AON_MODE : Nat := 0x170000
def F.AON_MODE_start_kind : Field := ⟨R.AON_MODE, 8, 8⟩
def F.AON_MODE_entering : Field := ⟨R.AON_MODE, 3, 3⟩
def F.AON_MODE_mode : Field := ⟨R.AON_MODE, 2, 0⟩
def R.AON_WR_PEND : Nat := 0x170004
def F.AON_WR_PEND_count : Field := ⟨R.AON_WR_PEND, 2, 0⟩
def R.AON_START_CTL : Nat := 0x170010
def F.AON_START_CTL_force_cold : Field := ⟨R.AON_START_CTL, 1, 1⟩
def F.AON_START_CTL_ok : Field := ⟨R.AON_START_CTL, 0, 0⟩
def R.AON_START_STAT : Nat := 0x170014
def F.AON_START_STAT_last_reason : Field := ⟨R.AON_START_STAT, 31, 28⟩
def F.AON_START_STAT_cold_fails : Field := ⟨R.AON_START_STAT, 9, 8⟩
def F.AON_START_STAT_warm_fails : Field := ⟨R.AON_START_STAT, 1, 0⟩
def R.AON_START_CFG : Nat := 0x170018
def F.AON_START_CFG_deadline : Field := ⟨R.AON_START_CFG, 15, 8⟩
def F.AON_START_CFG_vmain_ms : Field := ⟨R.AON_START_CFG, 7, 0⟩
def R.AON_PARK_CFG : Nat := 0x17001c
def F.AON_PARK_CFG_min_off_ms : Field := ⟨R.AON_PARK_CFG, 15, 8⟩
def F.AON_PARK_CFG_alarm_wake : Field := ⟨R.AON_PARK_CFG, 1, 1⟩
def F.AON_PARK_CFG_cs_wake : Field := ⟨R.AON_PARK_CFG, 0, 0⟩
def R.AON_SECONDS : Nat := 0x170020
def R.AON_ALARM : Nat := 0x170028
def F.AON_ALARM_seconds : Field := ⟨R.AON_ALARM, 31, 0⟩
def R.AON_ALARM_CTL : Nat := 0x17002c
def F.AON_ALARM_CTL_en : Field := ⟨R.AON_ALARM_CTL, 0, 0⟩
def R.AON_RET_SEAL : Nat := 0x170030
def F.AON_RET_SEAL_valid : Field := ⟨R.AON_RET_SEAL, 31, 31⟩
def F.AON_RET_SEAL_mask : Field := ⟨R.AON_RET_SEAL, 15, 0⟩
def R.AON_FW_GEN : Nat := 0x170034
def F.AON_FW_GEN_gen : Field := ⟨R.AON_FW_GEN, 31, 0⟩
def R.AON_SLCK_CFG : Nat := 0x170040
def F.AON_SLCK_CFG_xtal_ok : Field := ⟨R.AON_SLCK_CFG, 9, 9⟩
def F.AON_SLCK_CFG_rc_ok : Field := ⟨R.AON_SLCK_CFG, 8, 8⟩
def F.AON_SLCK_CFG_forced : Field := ⟨R.AON_SLCK_CFG, 1, 1⟩
def F.AON_SLCK_CFG_src : Field := ⟨R.AON_SLCK_CFG, 0, 0⟩
def R.AON_SAFE_STAT : Nat := 0x170050
def F.AON_SAFE_STAT_safe : Field := ⟨R.AON_SAFE_STAT, 31, 31⟩
def F.AON_SAFE_STAT_class_ : Field := ⟨R.AON_SAFE_STAT, 30, 28⟩
def F.AON_SAFE_STAT_reason : Field := ⟨R.AON_SAFE_STAT, 27, 24⟩
def F.AON_SAFE_STAT_source : Field := ⟨R.AON_SAFE_STAT, 23, 16⟩
def F.AON_SAFE_STAT_kind : Field := ⟨R.AON_SAFE_STAT, 15, 8⟩
def F.AON_SAFE_STAT_pending : Field := ⟨R.AON_SAFE_STAT, 4, 4⟩
def F.AON_SAFE_STAT_detail : Field := ⟨R.AON_SAFE_STAT, 3, 0⟩
def R.AON_REACT_RESETS : Nat := 0x170054
def F.AON_REACT_RESETS_count : Field := ⟨R.AON_REACT_RESETS, 2, 0⟩
def R.AON_RET_CRC (n : Nat) : Nat := at1 0x170080 0x4 16 n
def F.AON_RET_CRC_seal (n : Nat) : Field := ⟨R.AON_RET_CRC n, 31, 0⟩
def R.AON_MOULD_DIGEST : Nat := 0x170100
def R.PORT_CTL (p : Nat) : Nat := at1 0x1000000 0x10000 64 p
def F.PORT_CTL_reset (p : Nat) : Field := ⟨R.PORT_CTL p, 5, 5⟩
def F.PORT_CTL_restart (p : Nat) : Field := ⟨R.PORT_CTL p, 4, 4⟩
def F.PORT_CTL_admin (p : Nat) : Field := ⟨R.PORT_CTL p, 1, 0⟩
def R.PORT_STATE (p : Nat) : Nat := at1 0x1000004 0x10000 64 p
def F.PORT_STATE_fail_count (p : Nat) : Field := ⟨R.PORT_STATE p, 31, 24⟩
def F.PORT_STATE_excluded (p : Nat) : Field := ⟨R.PORT_STATE p, 23, 16⟩
def F.PORT_STATE_coeff_stored (p : Nat) : Field := ⟨R.PORT_STATE p, 14, 14⟩
def F.PORT_STATE_held (p : Nat) : Field := ⟨R.PORT_STATE p, 13, 13⟩
def F.PORT_STATE_orphan (p : Nat) : Field := ⟨R.PORT_STATE p, 12, 12⟩
def F.PORT_STATE_role (p : Nat) : Field := ⟨R.PORT_STATE p, 9, 8⟩
def F.PORT_STATE_mode (p : Nat) : Field := ⟨R.PORT_STATE p, 7, 4⟩
def F.PORT_STATE_state (p : Nat) : Field := ⟨R.PORT_STATE p, 2, 0⟩
def R.PORT_MODE_CFG (p : Nat) : Nat := at1 0x1000010 0x10000 64 p
def F.PORT_MODE_CFG_role (p : Nat) : Field := ⟨R.PORT_MODE_CFG p, 15, 14⟩
def F.PORT_MODE_CFG_an_en (p : Nat) : Field := ⟨R.PORT_MODE_CFG p, 12, 12⟩
def F.PORT_MODE_CFG_forced_mode (p : Nat) : Field := ⟨R.PORT_MODE_CFG p, 11, 8⟩
def F.PORT_MODE_CFG_ramp_mode (p : Nat) : Field := ⟨R.PORT_MODE_CFG p, 7, 4⟩
def F.PORT_MODE_CFG_top_mode (p : Nat) : Field := ⟨R.PORT_MODE_CFG p, 3, 0⟩
def R.PORT_ADV (p : Nat) : Nat := at1 0x1000014 0x10000 64 p
def F.PORT_ADV_modes (p : Nat) : Field := ⟨R.PORT_ADV p, 7, 1⟩
def R.PORT_TIMERS (p : Nat) : Nat := at1 0x1000018 0x10000 64 p
def F.PORT_TIMERS_flap_hold_s (p : Nat) : Field := ⟨R.PORT_TIMERS p, 31, 24⟩
def F.PORT_TIMERS_flap_window (p : Nat) : Field := ⟨R.PORT_TIMERS p, 23, 20⟩
def F.PORT_TIMERS_flap_limit (p : Nat) : Field := ⟨R.PORT_TIMERS p, 19, 16⟩
def F.PORT_TIMERS_drop_ms (p : Nat) : Field := ⟨R.PORT_TIMERS p, 15, 8⟩
def F.PORT_TIMERS_holdoff_ms (p : Nat) : Field := ⟨R.PORT_TIMERS p, 7, 0⟩
def R.PORT_TIMERS2 (p : Nat) : Nat := at1 0x100001c 0x10000 64 p
def F.PORT_TIMERS2_train_fail_limit (p : Nat) : Field := ⟨R.PORT_TIMERS2 p, 19, 16⟩
def F.PORT_TIMERS2_an_timeout_ms (p : Nat) : Field := ⟨R.PORT_TIMERS2 p, 15, 0⟩
def R.PORT_TX_AMP (p : Nat) : Nat := at1 0x1000020 0x10000 64 p
def F.PORT_TX_AMP_amp_default (p : Nat) : Field := ⟨R.PORT_TX_AMP p, 25, 16⟩
def F.PORT_TX_AMP_override (p : Nat) : Field := ⟨R.PORT_TX_AMP p, 15, 15⟩
def F.PORT_TX_AMP_amp (p : Nat) : Field := ⟨R.PORT_TX_AMP p, 9, 0⟩
def R.PORT_LOCAL_ID (p : Nat) : Nat := at1 0x1000028 0x10000 64 p
def R.PORT_PARTNER_ABIL (p : Nat) : Nat := at1 0x1000030 0x10000 64 p
def F.PORT_PARTNER_ABIL_vendor_page (p : Nat) : Field := ⟨R.PORT_PARTNER_ABIL p, 11, 11⟩
def F.PORT_PARTNER_ABIL_an_seen (p : Nat) : Field := ⟨R.PORT_PARTNER_ABIL p, 10, 10⟩
def F.PORT_PARTNER_ABIL_role_adv (p : Nat) : Field := ⟨R.PORT_PARTNER_ABIL p, 9, 8⟩
def F.PORT_PARTNER_ABIL_modes (p : Nat) : Field := ⟨R.PORT_PARTNER_ABIL p, 7, 1⟩
def R.PORT_PARTNER_FLAGS (p : Nat) : Nat := at1 0x1000034 0x10000 64 p
def F.PORT_PARTNER_FLAGS_valid (p : Nat) : Field := ⟨R.PORT_PARTNER_FLAGS p, 3, 3⟩
def F.PORT_PARTNER_FLAGS_fp_match (p : Nat) : Field := ⟨R.PORT_PARTNER_FLAGS p, 2, 1⟩
def F.PORT_PARTNER_FLAGS_id_valid (p : Nat) : Field := ⟨R.PORT_PARTNER_FLAGS p, 0, 0⟩
def R.PORT_PARTNER_ID (p : Nat) : Nat := at1 0x1000038 0x10000 64 p
def R.PORT_PARTNER_REF_ABIL (p : Nat) : Nat := at1 0x1000040 0x10000 64 p
def F.PORT_PARTNER_REF_ABIL_vendor_page (p : Nat) : Field := ⟨R.PORT_PARTNER_REF_ABIL p, 11, 11⟩
def F.PORT_PARTNER_REF_ABIL_an_seen (p : Nat) : Field := ⟨R.PORT_PARTNER_REF_ABIL p, 10, 10⟩
def F.PORT_PARTNER_REF_ABIL_role_adv (p : Nat) : Field := ⟨R.PORT_PARTNER_REF_ABIL p, 9, 8⟩
def F.PORT_PARTNER_REF_ABIL_modes (p : Nat) : Field := ⟨R.PORT_PARTNER_REF_ABIL p, 7, 1⟩
def R.PORT_PARTNER_REF_FLAGS (p : Nat) : Nat := at1 0x1000044 0x10000 64 p
def F.PORT_PARTNER_REF_FLAGS_valid (p : Nat) : Field := ⟨R.PORT_PARTNER_REF_FLAGS p, 3, 3⟩
def F.PORT_PARTNER_REF_FLAGS_fp_match (p : Nat) : Field := ⟨R.PORT_PARTNER_REF_FLAGS p, 2, 1⟩
def F.PORT_PARTNER_REF_FLAGS_id_valid (p : Nat) : Field := ⟨R.PORT_PARTNER_REF_FLAGS p, 0, 0⟩
def R.PORT_PARTNER_REF_ID (p : Nat) : Nat := at1 0x1000048 0x10000 64 p
def R.PORT_LINK_QUAL (p : Nat) : Nat := at1 0x1000060 0x10000 64 p
def F.PORT_LINK_QUAL_mse_margin (p : Nat) : Field := ⟨R.PORT_LINK_QUAL p, 31, 16⟩
def F.PORT_LINK_QUAL_sqi_min (p : Nat) : Field := ⟨R.PORT_LINK_QUAL p, 6, 4⟩
def F.PORT_LINK_QUAL_sqi (p : Nat) : Field := ⟨R.PORT_LINK_QUAL p, 2, 0⟩
def R.PORT_QUAL_CFG (p : Nat) : Nat := at1 0x1000064 0x10000 64 p
def F.PORT_QUAL_CFG_unc_burst (p : Nat) : Field := ⟨R.PORT_QUAL_CFG p, 15, 8⟩
def F.PORT_QUAL_CFG_sqi_drop (p : Nat) : Field := ⟨R.PORT_QUAL_CFG p, 6, 4⟩
def F.PORT_QUAL_CFG_sqi_warn (p : Nat) : Field := ⟨R.PORT_QUAL_CFG p, 2, 0⟩
def R.PORT_MSE_REF (p : Nat) : Nat := at1 0x1000068 0x10000 64 p
def F.PORT_MSE_REF_ref (p : Nat) : Field := ⟨R.PORT_MSE_REF p, 15, 0⟩
def R.PORT_FEC_CORR (p : Nat) : Nat := at1 0x1000070 0x10000 64 p
def R.PORT_FEC_UNCORR (p : Nat) : Nat := at1 0x1000078 0x10000 64 p
def R.PORT_DROP_COUNT (p : Nat) : Nat := at1 0x1000080 0x10000 64 p
def F.PORT_DROP_COUNT_count (p : Nat) : Field := ⟨R.PORT_DROP_COUNT p, 31, 0⟩
def R.PORT_DROP_HIST_IDX (p : Nat) : Nat := at1 0x1000084 0x10000 64 p
def F.PORT_DROP_HIST_IDX_wrapped (p : Nat) : Field := ⟨R.PORT_DROP_HIST_IDX p, 8, 8⟩
def F.PORT_DROP_HIST_IDX_next (p : Nat) : Field := ⟨R.PORT_DROP_HIST_IDX p, 2, 0⟩
def R.PORT_DROP_HIST (p : Nat) (i : Nat) : Nat := at2 0x1000090 0x10000 64 0x10 8 p i
def F.PORT_DROP_HIST_unc_last_ms (p : Nat) (i : Nat) : Field := ⟨R.PORT_DROP_HIST p i + 0xc, 31, 16⟩
def F.PORT_DROP_HIST_mse_margin (p : Nat) (i : Nat) : Field := ⟨R.PORT_DROP_HIST p i + 0xc, 15, 0⟩
def F.PORT_DROP_HIST_flap (p : Nat) (i : Nat) : Field := ⟨R.PORT_DROP_HIST p i + 0x8, 16, 16⟩
def F.PORT_DROP_HIST_in_lpi (p : Nat) (i : Nat) : Field := ⟨R.PORT_DROP_HIST p i + 0x8, 15, 15⟩
def F.PORT_DROP_HIST_sqi (p : Nat) (i : Nat) : Field := ⟨R.PORT_DROP_HIST p i + 0x8, 14, 12⟩
def F.PORT_DROP_HIST_mode (p : Nat) (i : Nat) : Field := ⟨R.PORT_DROP_HIST p i + 0x8, 11, 8⟩
def F.PORT_DROP_HIST_cause (p : Nat) (i : Nat) : Field := ⟨R.PORT_DROP_HIST p i + 0x8, 7, 0⟩
def R.PORT_EVENT (p : Nat) : Nat := at1 0x1000110 0x10000 64 p
def F.PORT_EVENT_seq (p : Nat) : Field := ⟨R.PORT_EVENT p, 31, 24⟩
def F.PORT_EVENT_mode_applied (p : Nat) : Field := ⟨R.PORT_EVENT p, 14, 14⟩
def F.PORT_EVENT_fault_enter (p : Nat) : Field := ⟨R.PORT_EVENT p, 13, 13⟩
def F.PORT_EVENT_amp_clamped (p : Nat) : Field := ⟨R.PORT_EVENT p, 12, 12⟩
def F.PORT_EVENT_orphan_exit (p : Nat) : Field := ⟨R.PORT_EVENT p, 11, 11⟩
def F.PORT_EVENT_orphan_enter (p : Nat) : Field := ⟨R.PORT_EVENT p, 10, 10⟩
def F.PORT_EVENT_flap_fault (p : Nat) : Field := ⟨R.PORT_EVENT p, 9, 9⟩
def F.PORT_EVENT_downshift (p : Nat) : Field := ⟨R.PORT_EVENT p, 8, 8⟩
def F.PORT_EVENT_role_conflict (p : Nat) : Field := ⟨R.PORT_EVENT p, 7, 7⟩
def F.PORT_EVENT_train_fail (p : Nat) : Field := ⟨R.PORT_EVENT p, 6, 6⟩
def F.PORT_EVENT_an_fail (p : Nat) : Field := ⟨R.PORT_EVENT p, 5, 5⟩
def F.PORT_EVENT_sqi_low (p : Nat) : Field := ⟨R.PORT_EVENT p, 4, 4⟩
def F.PORT_EVENT_partner_changed (p : Nat) : Field := ⟨R.PORT_EVENT p, 3, 3⟩
def F.PORT_EVENT_partner_new (p : Nat) : Field := ⟨R.PORT_EVENT p, 2, 2⟩
def F.PORT_EVENT_link_down (p : Nat) : Field := ⟨R.PORT_EVENT p, 1, 1⟩
def F.PORT_EVENT_link_up (p : Nat) : Field := ⟨R.PORT_EVENT p, 0, 0⟩
def R.PORT_EVENT_MASK (p : Nat) : Nat := at1 0x1000114 0x10000 64 p
def F.PORT_EVENT_MASK_enable (p : Nat) : Field := ⟨R.PORT_EVENT_MASK p, 14, 0⟩
def R.PORT_MAC_CFG (p : Nat) : Nat := at1 0x1000120 0x10000 64 p
def F.PORT_MAC_CFG_stag_en (p : Nat) : Field := ⟨R.PORT_MAC_CFG p, 16, 16⟩
def F.PORT_MAC_CFG_max_len (p : Nat) : Field := ⟨R.PORT_MAC_CFG p, 13, 0⟩
def R.PORT_RX_FRAMES (p : Nat) : Nat := at1 0x1000130 0x10000 64 p
def R.PORT_RX_BYTES (p : Nat) : Nat := at1 0x1000138 0x10000 64 p
def R.PORT_RX_FCS_ERR (p : Nat) : Nat := at1 0x1000140 0x10000 64 p
def R.PORT_RX_RUNT (p : Nat) : Nat := at1 0x1000148 0x10000 64 p
def R.PORT_RX_OVERSIZE (p : Nat) : Nat := at1 0x1000150 0x10000 64 p
def R.PORT_RX_ORPHAN_DROP (p : Nat) : Nat := at1 0x1000158 0x10000 64 p
def R.PORT_RX_PAUSE (p : Nat) : Nat := at1 0x1000160 0x10000 64 p
def R.PORT_TX_FRAMES (p : Nat) : Nat := at1 0x1000168 0x10000 64 p
def R.PORT_TX_BYTES (p : Nat) : Nat := at1 0x1000170 0x10000 64 p
def R.PORT_TX_OVERSIZE (p : Nat) : Nat := at1 0x1000178 0x10000 64 p
def R.PORT_CNT_CTL (p : Nat) : Nat := at1 0x1000180 0x10000 64 p
def F.PORT_CNT_CTL_clear (p : Nat) : Field := ⟨R.PORT_CNT_CTL p, 0, 0⟩
def R.PORT_TAP_CTL (p : Nat) : Nat := at1 0x1000200 0x10000 64 p
def F.PORT_TAP_CTL_train_en (p : Nat) : Field := ⟨R.PORT_TAP_CTL p, 1, 1⟩
def F.PORT_TAP_CTL_override (p : Nat) : Field := ⟨R.PORT_TAP_CTL p, 0, 0⟩
def R.PORT_TAP_MAN (p : Nat) : Nat := at1 0x1000204 0x10000 64 p
def F.PORT_TAP_MAN_post (p : Nat) : Field := ⟨R.PORT_TAP_MAN p, 17, 12⟩
def F.PORT_TAP_MAN_main (p : Nat) : Field := ⟨R.PORT_TAP_MAN p, 11, 6⟩
def F.PORT_TAP_MAN_pre (p : Nat) : Field := ⟨R.PORT_TAP_MAN p, 5, 0⟩
def R.PORT_TAP_STD (p : Nat) : Nat := at1 0x1000208 0x10000 64 p
def F.PORT_TAP_STD_post (p : Nat) : Field := ⟨R.PORT_TAP_STD p, 17, 12⟩
def F.PORT_TAP_STD_main (p : Nat) : Field := ⟨R.PORT_TAP_STD p, 11, 6⟩
def F.PORT_TAP_STD_pre (p : Nat) : Field := ⟨R.PORT_TAP_STD p, 5, 0⟩
def R.PORT_TAP_ACTIVE (p : Nat) : Nat := at1 0x100020c 0x10000 64 p
def F.PORT_TAP_ACTIVE_src (p : Nat) : Field := ⟨R.PORT_TAP_ACTIVE p, 19, 18⟩
def F.PORT_TAP_ACTIVE_taps (p : Nat) : Field := ⟨R.PORT_TAP_ACTIVE p, 17, 0⟩
def R.PORT_TAP_STAT (p : Nat) : Nat := at1 0x1000210 0x10000 64 p
def F.PORT_TAP_STAT_limit_hits (p : Nat) : Field := ⟨R.PORT_TAP_STAT p, 15, 8⟩
def F.PORT_TAP_STAT_exchanges (p : Nat) : Field := ⟨R.PORT_TAP_STAT p, 7, 0⟩
def R.PORT_X50_STAT (p : Nat) : Nat := at1 0x1000220 0x10000 64 p
def F.PORT_X50_STAT_boost_slots (p : Nat) : Field := ⟨R.PORT_X50_STAT p, 15, 8⟩
def F.PORT_X50_STAT_p_fast_exit (p : Nat) : Field := ⟨R.PORT_X50_STAT p, 4, 4⟩
def F.PORT_X50_STAT_p_quick_refresh (p : Nat) : Field := ⟨R.PORT_X50_STAT p, 3, 3⟩
def F.PORT_X50_STAT_p_tap_train (p : Nat) : Field := ⟨R.PORT_X50_STAT p, 2, 2⟩
def F.PORT_X50_STAT_p_reach_15 (p : Nat) : Field := ⟨R.PORT_X50_STAT p, 1, 1⟩
def F.PORT_X50_STAT_p_x50 (p : Nat) : Field := ⟨R.PORT_X50_STAT p, 0, 0⟩
def R.PORT_AM_STAT (p : Nat) : Nat := at1 0x1000230 0x10000 64 p
def F.PORT_AM_STAT_tag_rx (p : Nat) : Field := ⟨R.PORT_AM_STAT p, 31, 16⟩
def F.PORT_AM_STAT_rx_ok_rx (p : Nat) : Field := ⟨R.PORT_AM_STAT p, 15, 12⟩
def F.PORT_AM_STAT_map_rx (p : Nat) : Field := ⟨R.PORT_AM_STAT p, 11, 8⟩
def F.PORT_AM_STAT_lane_rx (p : Nat) : Field := ⟨R.PORT_AM_STAT p, 7, 6⟩
def F.PORT_AM_STAT_admitted (p : Nat) : Field := ⟨R.PORT_AM_STAT p, 2, 2⟩
def F.PORT_AM_STAT_tag_ok (p : Nat) : Field := ⟨R.PORT_AM_STAT p, 1, 1⟩
def F.PORT_AM_STAT_am_lock (p : Nat) : Field := ⟨R.PORT_AM_STAT p, 0, 0⟩
def R.PORT_TRK_EVENT (p : Nat) : Nat := at1 0x10002f0 0x10000 64 p
def F.PORT_TRK_EVENT_seq (p : Nat) : Field := ⟨R.PORT_TRK_EVENT p, 31, 24⟩
def F.PORT_TRK_EVENT_x50_refused (p : Nat) : Field := ⟨R.PORT_TRK_EVENT p, 3, 3⟩
def F.PORT_TRK_EVENT_tap_limit (p : Nat) : Field := ⟨R.PORT_TRK_EVENT p, 2, 2⟩
def F.PORT_TRK_EVENT_am_lock_lost (p : Nat) : Field := ⟨R.PORT_TRK_EVENT p, 1, 1⟩
def F.PORT_TRK_EVENT_tap_refused (p : Nat) : Field := ⟨R.PORT_TRK_EVENT p, 0, 0⟩
def R.PORT_TRK_EVENT_MASK (p : Nat) : Nat := at1 0x10002f4 0x10000 64 p
def F.PORT_TRK_EVENT_MASK_enable (p : Nat) : Field := ⟨R.PORT_TRK_EVENT_MASK p, 3, 0⟩
def R.PORT_LOOP_CTL (p : Nat) : Nat := at1 0x1000300 0x10000 64 p
def F.PORT_LOOP_CTL_mode (p : Nat) : Field := ⟨R.PORT_LOOP_CTL p, 11, 8⟩
def F.PORT_LOOP_CTL_no_wait (p : Nat) : Field := ⟨R.PORT_LOOP_CTL p, 7, 7⟩
def F.PORT_LOOP_CTL_force (p : Nat) : Field := ⟨R.PORT_LOOP_CTL p, 6, 6⟩
def F.PORT_LOOP_CTL_source (p : Nat) : Field := ⟨R.PORT_LOOP_CTL p, 5, 4⟩
def F.PORT_LOOP_CTL_kind (p : Nat) : Field := ⟨R.PORT_LOOP_CTL p, 3, 2⟩
def F.PORT_LOOP_CTL_stop (p : Nat) : Field := ⟨R.PORT_LOOP_CTL p, 1, 1⟩
def F.PORT_LOOP_CTL_start (p : Nat) : Field := ⟨R.PORT_LOOP_CTL p, 0, 0⟩
def R.PORT_LOOP_TIME (p : Nat) : Nat := at1 0x1000304 0x10000 64 p
def F.PORT_LOOP_TIME_duration_ms (p : Nat) : Field := ⟨R.PORT_LOOP_TIME p, 31, 0⟩
def R.PORT_LOOP_STAT (p : Nat) : Nat := at1 0x1000308 0x10000 64 p
def F.PORT_LOOP_STAT_result (p : Nat) : Field := ⟨R.PORT_LOOP_STAT p, 11, 8⟩
def F.PORT_LOOP_STAT_state (p : Nat) : Field := ⟨R.PORT_LOOP_STAT p, 2, 0⟩
def R.PORT_LOOP_BITS (p : Nat) : Nat := at1 0x1000310 0x10000 64 p
def R.PORT_LOOP_ERRS (p : Nat) : Nat := at1 0x1000318 0x10000 64 p
def R.PORT_SEG_CFG (p : Nat) : Nat := at1 0x1000400 0x10000 64 p
def F.PORT_SEG_CFG_node_count (p : Nat) : Field := ⟨R.PORT_SEG_CFG p, 31, 24⟩
def F.PORT_SEG_CFG_node_id (p : Nat) : Field := ⟨R.PORT_SEG_CFG p, 23, 16⟩
def F.PORT_SEG_CFG_fallback (p : Nat) : Field := ⟨R.PORT_SEG_CFG p, 9, 9⟩
def F.PORT_SEG_CFG_wake_any (p : Nat) : Field := ⟨R.PORT_SEG_CFG p, 8, 8⟩
def F.PORT_SEG_CFG_term (p : Nat) : Field := ⟨R.PORT_SEG_CFG p, 4, 4⟩
def F.PORT_SEG_CFG_coordinator (p : Nat) : Field := ⟨R.PORT_SEG_CFG p, 1, 1⟩
def F.PORT_SEG_CFG_plca_en (p : Nat) : Field := ⟨R.PORT_SEG_CFG p, 0, 0⟩
def R.PORT_SEG_TIMING (p : Nat) : Nat := at1 0x1000404 0x10000 64 p
def F.PORT_SEG_TIMING_loss_ms (p : Nat) : Field := ⟨R.PORT_SEG_TIMING p, 31, 24⟩
def F.PORT_SEG_TIMING_burst_timer (p : Nat) : Field := ⟨R.PORT_SEG_TIMING p, 23, 16⟩
def F.PORT_SEG_TIMING_max_burst (p : Nat) : Field := ⟨R.PORT_SEG_TIMING p, 15, 8⟩
def F.PORT_SEG_TIMING_to_timer (p : Nat) : Field := ⟨R.PORT_SEG_TIMING p, 7, 0⟩
def R.PORT_SEG_STAT (p : Nat) : Nat := at1 0x1000408 0x10000 64 p
def F.PORT_SEG_STAT_foreign_beacons (p : Nat) : Field := ⟨R.PORT_SEG_STAT p, 31, 24⟩
def F.PORT_SEG_STAT_nodes_seen (p : Nat) : Field := ⟨R.PORT_SEG_STAT p, 13, 8⟩
def F.PORT_SEG_STAT_csma (p : Nat) : Field := ⟨R.PORT_SEG_STAT p, 2, 2⟩
def F.PORT_SEG_STAT_beacon_ok (p : Nat) : Field := ⟨R.PORT_SEG_STAT p, 1, 1⟩
def F.PORT_SEG_STAT_plca_active (p : Nat) : Field := ⟨R.PORT_SEG_STAT p, 0, 0⟩
def R.PORT_SEG_CYCLE (p : Nat) : Nat := at1 0x100040c 0x10000 64 p
def F.PORT_SEG_CYCLE_max_us (p : Nat) : Field := ⟨R.PORT_SEG_CYCLE p, 31, 16⟩
def F.PORT_SEG_CYCLE_last_us (p : Nat) : Field := ⟨R.PORT_SEG_CYCLE p, 15, 0⟩
def R.PORT_SEG_COLL (p : Nat) : Nat := at1 0x1000410 0x10000 64 p
def R.PORT_SEG_LATE (p : Nat) : Nat := at1 0x1000418 0x10000 64 p
def R.PORT_SEG_EXCESS (p : Nat) : Nat := at1 0x1000420 0x10000 64 p
def R.PORT_SEG_CENSUS_CTL (p : Nat) : Nat := at1 0x1000430 0x10000 64 p
def F.PORT_SEG_CENSUS_CTL_window_ms (p : Nat) : Field := ⟨R.PORT_SEG_CENSUS_CTL p, 31, 16⟩
def F.PORT_SEG_CENSUS_CTL_clear (p : Nat) : Field := ⟨R.PORT_SEG_CENSUS_CTL p, 0, 0⟩
def R.PORT_SEG_CENSUS (p : Nat) (n : Nat) : Nat := at2 0x1000440 0x10000 64 0x4 32 p n
def F.PORT_SEG_CENSUS_seen (p : Nat) (n : Nat) : Field := ⟨R.PORT_SEG_CENSUS p n, 31, 31⟩
def F.PORT_SEG_CENSUS_silent (p : Nat) (n : Nat) : Field := ⟨R.PORT_SEG_CENSUS p n, 30, 30⟩
def F.PORT_SEG_CENSUS_duplicate (p : Nat) (n : Nat) : Field := ⟨R.PORT_SEG_CENSUS p n, 29, 29⟩
def F.PORT_SEG_CENSUS_sqi (p : Nat) (n : Nat) : Field := ⟨R.PORT_SEG_CENSUS p n, 26, 24⟩
def F.PORT_SEG_CENSUS_frames (p : Nat) (n : Nat) : Field := ⟨R.PORT_SEG_CENSUS p n, 15, 0⟩
def R.PORT_SEG_EVENT (p : Nat) : Nat := at1 0x10004f0 0x10000 64 p
def F.PORT_SEG_EVENT_seq (p : Nat) : Field := ⟨R.PORT_SEG_EVENT p, 31, 24⟩
def F.PORT_SEG_EVENT_beacon_lost (p : Nat) : Field := ⟨R.PORT_SEG_EVENT p, 5, 5⟩
def F.PORT_SEG_EVENT_fallback (p : Nat) : Field := ⟨R.PORT_SEG_EVENT p, 4, 4⟩
def F.PORT_SEG_EVENT_foreign_beacon (p : Nat) : Field := ⟨R.PORT_SEG_EVENT p, 3, 3⟩
def F.PORT_SEG_EVENT_duplicate (p : Nat) : Field := ⟨R.PORT_SEG_EVENT p, 2, 2⟩
def F.PORT_SEG_EVENT_node_lost (p : Nat) : Field := ⟨R.PORT_SEG_EVENT p, 1, 1⟩
def F.PORT_SEG_EVENT_node_new (p : Nat) : Field := ⟨R.PORT_SEG_EVENT p, 0, 0⟩
def R.PORT_SEG_EVENT_MASK (p : Nat) : Nat := at1 0x10004f4 0x10000 64 p
def F.PORT_SEG_EVENT_MASK_enable (p : Nat) : Field := ⟨R.PORT_SEG_EVENT_MASK p, 5, 0⟩
def R.PORT_LPI_CFG (p : Nat) : Nat := at1 0x1000500 0x10000 64 p
def F.PORT_LPI_CFG_deep_ms (p : Nat) : Field := ⟨R.PORT_LPI_CFG p, 31, 16⟩
def F.PORT_LPI_CFG_idle_us (p : Nat) : Field := ⟨R.PORT_LPI_CFG p, 15, 8⟩
def F.PORT_LPI_CFG_deep_en (p : Nat) : Field := ⟨R.PORT_LPI_CFG p, 2, 2⟩
def F.PORT_LPI_CFG_eee_adv (p : Nat) : Field := ⟨R.PORT_LPI_CFG p, 1, 1⟩
def F.PORT_LPI_CFG_lpi_allow (p : Nat) : Field := ⟨R.PORT_LPI_CFG p, 0, 0⟩
def R.PORT_LPI_STAT (p : Nat) : Nat := at1 0x1000504 0x10000 64 p
def F.PORT_LPI_STAT_partner_eee (p : Nat) : Field := ⟨R.PORT_LPI_STAT p, 7, 7⟩
def F.PORT_LPI_STAT_quick (p : Nat) : Field := ⟨R.PORT_LPI_STAT p, 6, 6⟩
def F.PORT_LPI_STAT_deep (p : Nat) : Field := ⟨R.PORT_LPI_STAT p, 2, 2⟩
def F.PORT_LPI_STAT_rx_lpi (p : Nat) : Field := ⟨R.PORT_LPI_STAT p, 1, 1⟩
def F.PORT_LPI_STAT_tx_lpi (p : Nat) : Field := ⟨R.PORT_LPI_STAT p, 0, 0⟩
def R.PORT_LPI_ENTRIES (p : Nat) : Nat := at1 0x1000508 0x10000 64 p
def F.PORT_LPI_ENTRIES_entries (p : Nat) : Field := ⟨R.PORT_LPI_ENTRIES p, 31, 0⟩
def R.PORT_LPI_TIME (p : Nat) : Nat := at1 0x1000510 0x10000 64 p
def R.PORT_TC10_CFG (p : Nat) : Nat := at1 0x1000520 0x10000 64 p
def F.PORT_TC10_CFG_sleep_timeout_ms (p : Nat) : Field := ⟨R.PORT_TC10_CFG p, 15, 8⟩
def F.PORT_TC10_CFG_wur_fwd (p : Nat) : Field := ⟨R.PORT_TC10_CFG p, 2, 2⟩
def F.PORT_TC10_CFG_accept_sleep (p : Nat) : Field := ⟨R.PORT_TC10_CFG p, 0, 0⟩
def R.PORT_TC10_STAT (p : Nat) : Nat := at1 0x1000524 0x10000 64 p
def F.PORT_TC10_STAT_last_sleep (p : Nat) : Field := ⟨R.PORT_TC10_STAT p, 10, 8⟩
def F.PORT_TC10_STAT_hs (p : Nat) : Field := ⟨R.PORT_TC10_STAT p, 1, 0⟩
def R.PORT_TC10_EVENT (p : Nat) : Nat := at1 0x10005f0 0x10000 64 p
def F.PORT_TC10_EVENT_seq (p : Nat) : Field := ⟨R.PORT_TC10_EVENT p, 31, 24⟩
def F.PORT_TC10_EVENT_deep_enter (p : Nat) : Field := ⟨R.PORT_TC10_EVENT p, 6, 6⟩
def F.PORT_TC10_EVENT_lpi_enter (p : Nat) : Field := ⟨R.PORT_TC10_EVENT p, 5, 5⟩
def F.PORT_TC10_EVENT_wur_rx (p : Nat) : Field := ⟨R.PORT_TC10_EVENT p, 4, 4⟩
def F.PORT_TC10_EVENT_sleep_refused (p : Nat) : Field := ⟨R.PORT_TC10_EVENT p, 3, 3⟩
def F.PORT_TC10_EVENT_sleep_rejected (p : Nat) : Field := ⟨R.PORT_TC10_EVENT p, 2, 2⟩
def F.PORT_TC10_EVENT_sleep_timeout (p : Nat) : Field := ⟨R.PORT_TC10_EVENT p, 1, 1⟩
def F.PORT_TC10_EVENT_sleep_done (p : Nat) : Field := ⟨R.PORT_TC10_EVENT p, 0, 0⟩
def R.PORT_TC10_EVENT_MASK (p : Nat) : Nat := at1 0x10005f4 0x10000 64 p
def F.PORT_TC10_EVENT_MASK_enable (p : Nat) : Field := ⟨R.PORT_TC10_EVENT_MASK p, 6, 0⟩
def R.QP_RX_BASE (q : Nat) : Nat := at1 0x2000000 0x1000 512 q
def R.QP_RX_CFG (q : Nat) : Nat := at1 0x2000008 0x1000 512 q
def F.QP_RX_CFG_port (q : Nat) : Field := ⟨R.QP_RX_CFG q, 29, 24⟩
def F.QP_RX_CFG_tclass (q : Nat) : Field := ⟨R.QP_RX_CFG q, 22, 20⟩
def F.QP_RX_CFG_pri (q : Nat) : Field := ⟨R.QP_RX_CFG q, 17, 16⟩
def F.QP_RX_CFG_landing (q : Nat) : Field := ⟨R.QP_RX_CFG q, 15, 15⟩
def F.QP_RX_CFG_size_log2 (q : Nat) : Field := ⟨R.QP_RX_CFG q, 12, 9⟩
def F.QP_RX_CFG_vec (q : Nat) : Field := ⟨R.QP_RX_CFG q, 8, 0⟩
def R.QP_RX_CTL (q : Nat) : Nat := at1 0x200000c 0x1000 512 q
def F.QP_RX_CTL_en (q : Nat) : Field := ⟨R.QP_RX_CTL q, 0, 0⟩
def R.QP_RX_HEAD_IDX (q : Nat) : Nat := at1 0x2000010 0x1000 512 q
def F.QP_RX_HEAD_IDX_tail (q : Nat) : Field := ⟨R.QP_RX_HEAD_IDX q, 30, 16⟩
def F.QP_RX_HEAD_IDX_head (q : Nat) : Field := ⟨R.QP_RX_HEAD_IDX q, 14, 0⟩
def R.QP_RX_ACK (q : Nat) : Nat := at1 0x2000014 0x1000 512 q
def F.QP_RX_ACK_ack (q : Nat) : Field := ⟨R.QP_RX_ACK q, 14, 0⟩
def R.QP_RX_MOD (q : Nat) : Nat := at1 0x2000018 0x1000 512 q
def F.QP_RX_MOD_timer_us (q : Nat) : Field := ⟨R.QP_RX_MOD q, 25, 16⟩
def F.QP_RX_MOD_count (q : Nat) : Field := ⟨R.QP_RX_MOD q, 7, 0⟩
def R.QP_RX_STAT (q : Nat) : Nat := at1 0x200001c 0x1000 512 q
def F.QP_RX_STAT_fault_cause (q : Nat) : Field := ⟨R.QP_RX_STAT q, 31, 28⟩
def F.QP_RX_STAT_refused (q : Nat) : Field := ⟨R.QP_RX_STAT q, 27, 24⟩
def F.QP_RX_STAT_prefetched (q : Nat) : Field := ⟨R.QP_RX_STAT q, 19, 16⟩
def F.QP_RX_STAT_own_wait (q : Nat) : Field := ⟨R.QP_RX_STAT q, 15, 15⟩
def F.QP_RX_STAT_armed (q : Nat) : Field := ⟨R.QP_RX_STAT q, 2, 2⟩
def F.QP_RX_STAT_due (q : Nat) : Field := ⟨R.QP_RX_STAT q, 1, 1⟩
def R.QP_RX_STATE (q : Nat) : Nat := at1 0x2000020 0x1000 512 q
def F.QP_RX_STATE_state (q : Nat) : Field := ⟨R.QP_RX_STATE q, 1, 0⟩
def R.QP_RX_FRAMES (q : Nat) : Nat := at1 0x2000028 0x1000 512 q
def R.QP_RX_DROPS (q : Nat) : Nat := at1 0x2000030 0x1000 512 q
def R.QP_RX_BAD (q : Nat) : Nat := at1 0x2000038 0x1000 512 q
def F.QP_RX_BAD_count (q : Nat) : Field := ⟨R.QP_RX_BAD q, 31, 0⟩
def R.QP_TX_BASE (q : Nat) : Nat := at1 0x2000100 0x1000 512 q
def R.QP_TX_CFG (q : Nat) : Nat := at1 0x2000108 0x1000 512 q
def F.QP_TX_CFG_port (q : Nat) : Field := ⟨R.QP_TX_CFG q, 29, 24⟩
def F.QP_TX_CFG_tclass (q : Nat) : Field := ⟨R.QP_TX_CFG q, 22, 20⟩
def F.QP_TX_CFG_pri (q : Nat) : Field := ⟨R.QP_TX_CFG q, 17, 16⟩
def F.QP_TX_CFG_landing (q : Nat) : Field := ⟨R.QP_TX_CFG q, 15, 15⟩
def F.QP_TX_CFG_size_log2 (q : Nat) : Field := ⟨R.QP_TX_CFG q, 12, 9⟩
def F.QP_TX_CFG_vec (q : Nat) : Field := ⟨R.QP_TX_CFG q, 8, 0⟩
def R.QP_TX_CTL (q : Nat) : Nat := at1 0x200010c 0x1000 512 q
def F.QP_TX_CTL_en (q : Nat) : Field := ⟨R.QP_TX_CTL q, 0, 0⟩
def R.QP_TX_HEAD_IDX (q : Nat) : Nat := at1 0x2000110 0x1000 512 q
def F.QP_TX_HEAD_IDX_tail (q : Nat) : Field := ⟨R.QP_TX_HEAD_IDX q, 30, 16⟩
def F.QP_TX_HEAD_IDX_head (q : Nat) : Field := ⟨R.QP_TX_HEAD_IDX q, 14, 0⟩
def R.QP_TX_ACK (q : Nat) : Nat := at1 0x2000114 0x1000 512 q
def F.QP_TX_ACK_ack (q : Nat) : Field := ⟨R.QP_TX_ACK q, 14, 0⟩
def R.QP_TX_MOD (q : Nat) : Nat := at1 0x2000118 0x1000 512 q
def F.QP_TX_MOD_timer_us (q : Nat) : Field := ⟨R.QP_TX_MOD q, 25, 16⟩
def F.QP_TX_MOD_count (q : Nat) : Field := ⟨R.QP_TX_MOD q, 7, 0⟩
def R.QP_TX_STAT (q : Nat) : Nat := at1 0x200011c 0x1000 512 q
def F.QP_TX_STAT_fault_cause (q : Nat) : Field := ⟨R.QP_TX_STAT q, 31, 28⟩
def F.QP_TX_STAT_refused (q : Nat) : Field := ⟨R.QP_TX_STAT q, 27, 24⟩
def F.QP_TX_STAT_prefetched (q : Nat) : Field := ⟨R.QP_TX_STAT q, 19, 16⟩
def F.QP_TX_STAT_own_wait (q : Nat) : Field := ⟨R.QP_TX_STAT q, 15, 15⟩
def F.QP_TX_STAT_armed (q : Nat) : Field := ⟨R.QP_TX_STAT q, 2, 2⟩
def F.QP_TX_STAT_due (q : Nat) : Field := ⟨R.QP_TX_STAT q, 1, 1⟩
def R.QP_TX_STATE (q : Nat) : Nat := at1 0x2000120 0x1000 512 q
def F.QP_TX_STATE_state (q : Nat) : Field := ⟨R.QP_TX_STATE q, 1, 0⟩
def R.QP_TX_FRAMES (q : Nat) : Nat := at1 0x2000128 0x1000 512 q
def R.QP_TX_DROPS (q : Nat) : Nat := at1 0x2000130 0x1000 512 q
def R.QP_TX_BAD (q : Nat) : Nat := at1 0x2000138 0x1000 512 q
def F.QP_TX_BAD_count (q : Nat) : Field := ⟨R.QP_TX_BAD q, 31, 0⟩
def R.QP_EVENT (q : Nat) : Nat := at1 0x2000200 0x1000 512 q
def F.QP_EVENT_seq (q : Nat) : Field := ⟨R.QP_EVENT q, 31, 24⟩
def F.QP_EVENT_own_wait (q : Nat) : Field := ⟨R.QP_EVENT q, 7, 7⟩
def F.QP_EVENT_tx_stopped (q : Nat) : Field := ⟨R.QP_EVENT q, 6, 6⟩
def F.QP_EVENT_rx_stopped (q : Nat) : Field := ⟨R.QP_EVENT q, 5, 5⟩
def F.QP_EVENT_rx_drop (q : Nat) : Field := ⟨R.QP_EVENT q, 4, 4⟩
def F.QP_EVENT_tx_bad (q : Nat) : Field := ⟨R.QP_EVENT q, 3, 3⟩
def F.QP_EVENT_rx_bad (q : Nat) : Field := ⟨R.QP_EVENT q, 2, 2⟩
def F.QP_EVENT_tx_fault (q : Nat) : Field := ⟨R.QP_EVENT q, 1, 1⟩
def F.QP_EVENT_rx_fault (q : Nat) : Field := ⟨R.QP_EVENT q, 0, 0⟩
def R.QP_EVENT_MASK (q : Nat) : Nat := at1 0x2000204 0x1000 512 q
def F.QP_EVENT_MASK_enable (q : Nat) : Field := ⟨R.QP_EVENT_MASK q, 7, 0⟩
def R.QP_SUM (q : Nat) : Nat := at1 0x2000208 0x1000 512 q
def F.QP_SUM_any (q : Nat) : Field := ⟨R.QP_SUM q, 0, 0⟩

end Sys2Proof.Machine
end

