-- ==== Sys2Proof/Machine/Store.lean ====
section
/-!
DEFINITION. The sparse store: a list of (key, value) pairs with strictly rising keys. It holds the registers by DRS
byte offset and every collection of like things that the spec indexes; an unlisted key has the default its reader
names.
-/
namespace Sys2Proof.Machine

/-- A sparse map from numbers to values, keys strictly rising. -/
abbrev SMap (α : Type) := List (Nat × α)

/-- The value at a key, where the map lists it. -/
def SMap.get? {α : Type} : SMap α → Nat → Option α
  | [], _ => none
  | (j, v) :: t, k => if k = j then some v else if k < j then none else SMap.get? t k

/-- The value at a key, or the default. -/
def SMap.getD {α : Type} (m : SMap α) (k : Nat) (d : α) : α := (m.get? k).getD d

/-- The map with one key set. -/
def SMap.put {α : Type} : SMap α → Nat → α → SMap α
  | [], k, v => [(k, v)]
  | (j, w) :: t, k, v =>
    if k = j then (k, v) :: t else if k < j then (k, v) :: (j, w) :: t else (j, w) :: SMap.put t k v

/-- The map with one key removed. -/
def SMap.del {α : Type} : SMap α → Nat → SMap α
  | [], _ => []
  | (j, w) :: t, k => if k = j then t else if k < j then (j, w) :: t else (j, w) :: SMap.del t k

/-- The map with one key set, keeping no entry that equals the default: so that equal contents are equal maps. -/
def SMap.putD {α : Type} [DecidableEq α] (m : SMap α) (k : Nat) (v d : α) : SMap α :=
  if v = d then m.del k else m.put k v

/-- The keys strictly rise. -/
def SMap.sorted {α : Type} : SMap α → Bool
  | [] => true
  | [_] => true
  | (j, _) :: (k, w) :: t => decide (j < k) && SMap.sorted ((k, w) :: t)

/-- The entries whose key lies in [lo, hi). -/
def SMap.within {α : Type} (m : SMap α) (lo hi : Nat) : SMap α := m.filter fun e => decide (lo ≤ e.1 ∧ e.1 < hi)

/-- The entries whose key lies outside [lo, hi). -/
def SMap.without {α : Type} (m : SMap α) (lo hi : Nat) : SMap α := m.filter fun e => !decide (lo ≤ e.1 ∧ e.1 < hi)

end Sys2Proof.Machine
end

