-- ==== Sys2Proof/Machine/Mem.lean ====
section
/-!
DEFINITION. Byte memories: sparse lists of (address, byte) with rising addresses and no entry equal to what an unlisted
address reads as.
-/
namespace Sys2Proof.Machine

/-- A byte memory. -/
abbrev Memory := List Host.Cell

/-- The canonical form: addresses strictly rising, no entry equal to the default byte. -/
def Memory.wf (d : Byte) (m : Memory) : Bool := SMap.sorted m && m.all fun e => e.2 != d

/-- The byte at an address. -/
def Memory.get (d : Byte) (m : Memory) (a : Nat) : Byte := SMap.getD m a d

/-- Write one byte. -/
def Memory.put (d : Byte) (m : Memory) (a : Nat) (b : Byte) : Memory := SMap.putD m a b d

/-- n bytes from address a out of the listed cells from a on. -/
def Memory.run (d : Byte) : Nat → Nat → Memory → List Byte
  | _, 0, _ => []
  | a, n + 1, [] => d :: Memory.run d (a + 1) n []
  | a, n + 1, (k, b) :: t => if k = a then b :: Memory.run d (a + 1) n t else d :: Memory.run d (a + 1) n ((k, b) :: t)

/-- n bytes from address a. -/
def Memory.readBytes (d : Byte) (m : Memory) (a n : Nat) : List Byte := Memory.run d a n (SMap.within m a (a + n))

/-- Consecutive cells from an address, those of the default byte left out. -/
def cellsFrom (d : Byte) : Nat → List Byte → Memory
  | _, [] => []
  | a, b :: t => if b = d then cellsFrom d (a + 1) t else (a, b) :: cellsFrom d (a + 1) t

/-- Write consecutive bytes. -/
def Memory.writeBytes (d : Byte) (m : Memory) (a : Nat) (l : List Byte) : Memory :=
  m.filter (fun e => decide (e.1 < a)) ++ cellsFrom d a l ++ m.filter (fun e => decide (a + l.length ≤ e.1))

/-- Return [a, a + n) to the default byte. -/
def Memory.clear (m : Memory) (a n : Nat) : Memory := SMap.without m a (a + n)

/-- What an erased byte of the flash reads as (R572: programming can only clear bits). -/
def erased : Byte := 0xFF

/-- What a byte of the SRAM or of the cellar that nothing has written reads as (log entry 3). -/
def blank : Byte := 0

/-- Program bytes: bits can only be cleared (R572). -/
def Memory.program (m : Memory) (a : Nat) (l : List Byte) : Memory :=
  m.writeBytes erased a (List.zipWith (fun x y => x &&& y) (m.readBytes erased a l.length) l)

end Sys2Proof.Machine
end

