-- ==== Sys2Proof/Machine/State.lean ====
section
/-!
DEFINITION. The state of the block as plain data. Every software-visible field lives in the register store, at its DRS
offset; beside it stand the pieces of state that the spec gives the machine without a register of their own (copies,
queues, tables, running operations), one structure per part of the device.
-/
namespace Sys2Proof.Machine

/-- Why a command stops the machine. -/
inductive Fault where
  /-- Raised by a register write (REGISTER_WRITE, WRITE, WRITE_CRC) that would give an RV field another value than it
  holds: R53 calls the device's behaviour from then on undefined. Safe: no claim is made past it. -/
  | reservedField (off : Nat)
deriving DecidableEq, Repr

/-- Why a command has no meaning. -/
inductive Refusal where
  /-- Raised by an arm of `exec` for a command that has no meaning yet. Safe. -/
  | notModelled (mnemonic : String)
deriving DecidableEq, Repr

/-- A fault message (R524): source, kind, class, detail and word 1. -/
structure Msg where
  src : Nat
  kind : Nat
  cls : Nat
  detail : Nat
  w1 : Nat
deriving DecidableEq, Repr

/-- What leaves the block, oldest first in `State.out`. -/
inductive Out where
  /-- an MSI-X message of head h on a vector (R380) -/
  | msix (h vec : Nat)
  /-- data returned to a path's register read, one word -/
  | readData (path off : Nat) (w : Word)
  /-- a line transmission of a port: a named signal with a value -/
  | line (port : Nat) (signal : String) (value : Nat)
  /-- a frame sent on a port's line -/
  | frame (port : Nat) (bytes : List Byte)
  /-- the PAM6 symbols of a codeword on a trunk's line in X50, as pairs of level indices (R162, R163) -/
  | symbols (port : Nat) (pairs : List (Nat × Nat))
  /-- an alignment marker on a lane, as the 257 bits of its block; whether it is an extra one (R185, R186) -/
  | marker (port block : Nat) (extra : Bool)
  /-- a relayed Sync of a domain leaves on a port: its residence time in 2^-16 ns, steps of the timebase removed (R340, R347) -/
  | relayed (port domain : Nat) (residence : Int)
  /-- a frame handed to the Gaffer (R24) -/
  | toGaffer (port : Nat) (bytes : List Byte)
  /-- a write to a host's memory, with the landing: true = CXL.cache -/
  | hostWrite (h addr : Nat) (bytes : List Byte) (cache : Bool)
  /-- a read request to a host's memory -/
  | hostRead (h addr len : Nat)
  /-- a protocol message of a head's link: a named message with a value -/
  | cxl (h : Nat) (message : String) (value : Nat)
  /-- an output pin takes a level or gives a pulse -/
  | pin (name : String) (level : Nat)
  /-- bytes returned on the keeper's SPI frame -/
  | spi (bytes : List Byte)
  /-- a command sent to the flash device -/
  | flash (command : String) (addr len : Nat)
  /-- an AVSBus write to the PMIC -/
  | avs (rail target : Nat)
  /-- an interrupt or trap of the Gaffer -/
  | gaffer (line : String)
  /-- bytes of the flash window returned to the Gaffer -/
  | window (addr : Nat) (bytes : List Byte)
  /-- an SPDM response of a head, with what it carries -/
  | spdm (h : Nat) (response : String) (bytes : List Byte)
deriving DecidableEq, Repr

/-- A write queued for an always-on register (R68): path, offset and word. -/
structure AcWrite where
  path : Nat
  off : Nat
  w : Word
deriving DecidableEq, Repr

/-- A transmit frame offered to a port (R419, R420): its queue pair and the number it has there (none once its ring has
been reset), class, bytes without FCS, launch time (TB64), whether it has been looked at as the first of its class,
whether its launch time had then passed, whether it waits for its launch time; whether a segment's gate has released it to the MAC
(R255); the collisions it has met (R247); for a gPTP frame of the Gaffer (R24), what it is: 0 to 3 a Sync of that domain, 4 to 7 its
Follow_Up, 8 a Pdelay_Req; for a relayed one, when its Sync came, on the timebase without its steps (R340). -/
structure TxFrame where
  owner : Option (Nat × Nat)
  cls : Nat
  bytes : List Byte
  launch : Option Nat
  seen : Bool := false
  late : Bool := false
  waiting : Bool := false
  released : Bool := false
  tries : Nat := 0
  gptp : Option Nat := none
  ingress : Option Int := none
deriving DecidableEq, Repr

/-- What a port holds beside its registers (chapters 4, 5, 7, 8, 10). -/
structure PortX where
  /-- the wait of R137 runs: `some true` counts the restart hold-off too -/
  wait : Option Bool := none
  /-- the converter stage of R263 waits or runs in LISTEN; a foreground anneal runs (R276) -/
  stage : Bool := false
  fg : Bool := false
  /-- consecutive failed trainings in each mode (R129), by mode code -/
  trainFails : SMap Nat := []
  /-- EVENT.an_fail of R130 has been raised since LISTEN was entered -/
  noModeRaised : Bool := false
  /-- an exit from SLEEP is asked for and held (R135), and whether a wake asked for it (R323) -/
  leaving : Bool := false
  byWake : Bool := false
  /-- a wake arrived during a sleep handshake or a near-end loop and is latched (R134, R198) -/
  wakeLatched : Bool := false
  /-- a port or block reset holds the port in FAULT (R159) -/
  resetting : Bool := false
  /-- the flap guard holds the port in FAULT (R141) -/
  flapHold : Bool := false
  /-- times of the link drops the flap guard counts, newest first (R141) -/
  dropTimes : List Nat := []
  /-- EVENT.sqi_low may be raised again (R149) -/
  sqiArmed : Bool := true
  /-- training started from stored coefficients (R140) -/
  fromStored : Bool := false
  /-- the partner's X50 tap request last answered, and its reply codes (R170) -/
  tapReply : Nat := 0
  /-- trained taps stored with the X50 coefficients (R174), if any -/
  trainedTaps : Option Nat := none
  /-- taps waiting for their boundary (R176), with their source code -/
  tapNext : Option (Nat × Nat) := none
  /-- a partner request for the initial taps, or a limit, was met in this X50 TRAIN (R174) -/
  tapLimit : Bool := false
  /-- pam6_count of the training frames (R170); 255 = not yet set -/
  pam6Count : Nat := 255
  /-- rx_ready received from the partner, and sent by this side (R170) -/
  rxReady : Bool := false
  ownReady : Bool := false
  /-- both sides have switched to PAM6 (R170) -/
  pam6 : Bool := false
  /-- X50 training frames of this side (R170): the tap requests that the partner has not yet answered, the next sequence
  number, whether a frame of the partner has been heard in this TRAIN -/
  ownReq : Nat := 0
  txSeq : Nat := 0
  heard : Bool := false
  /-- the X50 transmit PCS: the last 58 bits of its scrambler (R162), the index of the codeword on the line within its lane, the
  number of markers sent on it (R185) -/
  scram : Nat := 0
  cw : Nat := 0
  markers : Nat := 0
  /-- uncorrectable codewords of the last intervals: when each ended, and how many (R143) -/
  unc : List (Nat × Nat) := []
  /-- the partner's cane page: tag, member count, lane, bond modes offered, policy (R180), and its place in the order in which such pages came -/
  canePage : Option (Nat × Nat × Nat × Nat × Nat) := none
  pageAt : Nat := 0
  /-- good markers, and bad markers, in a row (R184, R169) -/
  goodRow : Nat := 0
  badRow : Nat := 0
  /-- the rejoin hold of R184: 0 = not running, 1 = running, 2 = ended -/
  rejoin : Nat := 0
  /-- the port was stopped from bonding by a forced test loop (R184) -/
  loopHeld : Bool := false
  /-- a near-end or far-end loop runs (R198): its kind code -/
  loop : Nat := 0
  /-- the mode in which the port's slots hold trained coefficients; 0 = none (R214) -/
  coeffMode : Nat := 0
  /-- the port's pots are returned (R218), and the quarters that have not yet reclaimed them (R220) -/
  returned : Bool := false
  reclaimLeft : List Nat := []
  /-- the saved set of R521 while the domain is off: offset in block, word -/
  saved : Option (SMap Word) := none
  /-- TC10 and wake state of chapter 10 -/
  forwarded : Bool := false
  wupRunning : Bool := false
  retriesLeft : Nat := 0
  lastPulse : Option Nat := none
  pulseHeld : Bool := false
  lastClamp : Option Nat := none
  localSleep : Bool := false
  partnerSleep : Bool := false
  /-- LPI state of chapter 10: receive quiet, deep, quick-refresh agreed, EEE agreed with the partner -/
  rxQuiet : Bool := false
  txQuiet : Bool := false
  exiting : Bool := false
  partnerEee : Bool := false
  /-- the LPI refresh that is received runs until this time (R207, R315, R317); sections that have stopped adapting (R206) -/
  refreshUntil : Nat := 0
  frozen : Nat := 0
  /-- what the always-on domain holds while the port's domain is off: the port sleeps, with wake_any (R256); its termination
  is applied (R237) -/
  offSleep : Option Bool := none
  term : Bool := false
  /-- segment state of chapter 7: frames the running opportunity still allows and the time until which one may start, the
  lowest margin of the interval (as a signed number plus 2^15), a sleep request that waits, census masks -/
  opportunity : Nat := 0
  startBy : Nat := 0
  windowMin : Option Nat := none
  sleepWait : Bool := false
  censusSeen : Nat := 0
  censusPrev : Nat := 0
  censusEver : Nat := 0
  /-- frames offered to the port by its transmit classes, oldest first, and the frame started on the line (R419) -/
  txq : List TxFrame := []
  sending : Option TxFrame := none
deriving DecidableEq, Repr

/-- What a cane holds beside its registers (chapter 5). -/
structure CaneX where
  /-- the bond mode set by the first member admitted since DOWN (R179); 0 = none -/
  bond : Nat := 0
  /-- the transmit map (R187) -/
  txMap : Nat := 0
  /-- the form wait of R183 runs -/
  formWait : Bool := false
  /-- frames are discarded until the partner's new map (R189), which holds none of these lost lanes -/
  lossWait : Bool := false
  lostLanes : Nat := 0
  /-- rx_ok of the partner's latest marker (R187) -/
  rxOk : Nat := 0
  /-- the cane entered DOWN: its members are admitted on the next edge (R183) -/
  readmit : Bool := false
  /-- the position in the transmit map of the next block (R179) -/
  next : Nat := 0
  /-- skew of each lane against lane 0's clock, 0.1 ns units, as measured -/
  arrival : SMap Nat := []
deriving DecidableEq, Repr

/-- What the canceller of one pair holds (chapter 6): the mode in which its slots hold adapted coefficients (0 = none),
whether its last start was from its record (R231), whether its criterion is met since, its depths at the last two intervals. -/
structure PairX where
  adapted : Nat := 0
  started : Bool := false
  fromRecord : Bool := false
  met : Bool := false
  depths : List Nat := []
deriving DecidableEq, Repr

/-- What a bundle holds beside its registers: its pairs by index, and whether a remould holds it in DISAGREE for the
edge of R234. -/
structure BndX where
  pairs : SMap PairX := []
  hold : Bool := false
deriving DecidableEq, Repr

/-- What the furnace holds beside its registers: the coefficient store as (quarter × 2^16 + owner) to mode, where an
owner is a port p or 2^12 + (b × 64 + i); the reclaims queued in each quarter (R220); the quarters whose pot
self-test runs (R221, R225); the taps stored with the X50 coefficients of each trunk (R174). -/
structure FurX where
  records : SMap Nat := []
  reclaims : SMap (List Nat) := []
  testing : List Nat := []
  untested : List Nat := []
  taps : SMap Nat := []
deriving DecidableEq, Repr

/-- A booking of the ledger, or a request in its queue (R285 to R288): requester, activity code, lowest port (0xFF =
none), bundle (0x1F = none), and the resources it names. -/
structure Booking where
  req : Nat
  act : Nat
  port : Nat
  bundle : Nat
  ports : List Nat
  blines : List Nat
  qtrs : List Nat
  flash : Bool
  cellar : Bool
deriving DecidableEq, Repr

/-- The maintenance ledger: bookings held and requests queued, oldest first. -/
structure LedgerX where
  books : List Booking := []
  queue : List Booking := []
deriving DecidableEq, Repr

/-- What the OTP holds of one key slot (R91). -/
structure KeySlot where
  programmed : Bool := false
  revoked : Bool := false
  digest : List Byte := []
deriving DecidableEq, Repr

/-- The OTP (R91, R613): the lifecycle state, the key slots, and the certificate chain of SPDM slot 0 (R387). -/
structure OtpX where
  lifecycle : Nat := 0
  keys : List KeySlot := [{}, {}, {}, {}]
  chain : List Byte := []
deriving DecidableEq, Repr

/-- The mould loader beside its registers (chapter 3). -/
structure MldX where
  /-- the sections of the mould in force, applied partials included (type to payload; none before a load) -/
  active : SMap (List Byte) := []
  /-- the sections of the active full image, and its header fields flags and min_rev (R113) -/
  full : SMap (List Byte) := []
  fullKey : Nat × Nat := (0, 0)
  /-- the head records and classifier entries in force of each head (R114), entries with their index -/
  headRec : SMap (List Byte) := []
  cls : SMap (List (Nat × List Byte)) := []
  /-- digest, generations, signing slot and source of the mould in force -/
  digest : List Byte := []
  gen : Nat := 0
  partialInForce : Nat := 0
  used : Nat := 0
  src : Nat := 0
  /-- the load under way: kind, address, path code of its owner; the slots still to be tried (R95); a reload (R100) -/
  load : Option (Nat × Nat × Nat) := none
  loadLeft : List Nat := []
  reload : Bool := false
  /-- the partial image staged or under check (R105, R107): sections, generation, source kind and address -/
  partialImage : SMap (List Byte) := []
  partialGen : Nat := 0
  partialSrc : Nat × Nat := (0, 0)
  /-- an applied WAKE section waits for its SLCK edge (R109) -/
  wakeDue : Bool := false
  /-- the image of a pending adoption (R113, R114): sections, generation, digest, signing slot, source slot, header -/
  adoptImage : SMap (List Byte) := []
  adoptGen : Nat := 0
  adoptDigest : List Byte := []
  adoptUsed : Nat := 0
  adoptSlot : Nat := 0
  adoptKey : Nat × Nat := (0, 0)
deriving DecidableEq, Repr

/-- The timebase (R335): seconds, nanoseconds, fraction in 2^-16 ns, and the part of a fraction that the rate adjustment
has accumulated, in 1/(1024·10^9) of 2^-16 ns; the time of the last step (R115), the Sync intervals in a row within 50 ns
(R349), the times of the last counted PPS_IN and LAUNCH_IN edges (R352, R353), and all that its settings and steps have
added, in 2^-16 ns (R340). -/
structure TbX where
  sec : Nat := 0
  ns : Nat := 0
  frac : Nat := 0
  rest : Nat := 0
  lastStep : Option Nat := none
  good : Nat := 0
  lastPps : Option Nat := none
  lastLaunch : Option Nat := none
  moved : Int := 0
deriving DecidableEq, Repr

/-- Calibration (chapter 8): the sets by key (`calKey`: bank, port, kind, family), the pending sets for which struct_wait
has been raised, the elements noted as aging, the ports that refine their sets in their next TRAIN (R265), the
sequencers' ports in order (R262), the ports of the full anneal still to end, the generation of each attic record, the
newer copy, the Gaffer's copy of CAL.ELEM_SEL, whether the write after the full anneal is due and when the latest attic write
began (R281). -/
structure CalX where
  sets : SMap CalSet := []
  waited : List Nat := []
  aged : List Nat := []
  refine : List Nat := []
  verify : List Nat := []
  seqs : SMap (List Nat) := []
  full : List Nat := []
  recGen : SMap Nat := []
  newer : Nat := 1
  selGaffer : Word := 0x01000000
  atticDue : Bool := false
  atticAt : Option Nat := none
deriving DecidableEq, Repr

/-- A reference profile (R302): source, mode, profile in 1/4,096, generation, seconds, partner, loss estimate, nvp. -/
structure FpRef where
  source : Nat
  mode : Nat
  bins : List Int
  gen : Nat
  sec : Nat
  partner : Nat
  loss : Nat
  nvp : Nat
deriving DecidableEq, Repr

/-- One entry of the trend log (R302, R305): seconds, bin of largest change, change at it. -/
structure Trend where
  sec : Nat
  bin : Nat
  change : Int
deriving DecidableEq, Repr

/-- Diagnostics (chapter 9): the reference cache, the trend entries of each port newest first and how many it has
written, the copy of the reference in force (0 = A), ports already logged for wear, ports above the insertion-loss
level, the sweep that is booked (its positions and ports) and whether it has fired. -/
structure DiagX where
  refs : SMap FpRef := []
  trend : SMap (List Trend) := []
  written : SMap Nat := []
  copy : SMap Nat := []
  worn : List Nat := []
  high : List Nat := []
  sweep : List (Nat × Nat) := []
  fired : Bool := false
deriving DecidableEq, Repr

/-- Commits that have not yet come into force (R58, R363, R365): blocks pending with the sequence number they will take,
blocks whose domain is off with a rollback recorded and its sequence number, the blocks that each commit still waits for
by its sequence number. Blocks are numbered as in LG[g].TARGET (R359). -/
structure CommitX where
  pend : SMap Nat := []
  rolls : SMap Nat := []
  opens : SMap (List Nat) := []
deriving DecidableEq, Repr

/-- What a head holds beside its registers (chapter 12); index 4 is the keeper's mailbox. -/
structure HeadX where
  /-- a head reset runs (R392) -/
  resetting : Bool := false
  /-- Bus Master Enable, the MSI-X function mask, vectors unmasked, vectors pending (R380) -/
  bme : Bool := false
  fnMask : Bool := false
  openVecs : List Nat := []
  pendVecs : List Nat := []
  /-- the translation cache, most recently used first: base and length of each range (R382) -/
  atc : List (Nat × Nat) := []
  /-- an Invalidate Request that waits for its completion (R384) -/
  invalidating : Bool := false
  /-- the rings whose cache-landing writes were on their way when it came (R384) -/
  invRings : List (Nat × Nat) := []
  /-- the SPDM secure session: 0 = none, 1 = keys exchanged, 2 = established (R389) -/
  session : Nat := 0
  /-- the rings that the packet engine served last, by direction, as 2 q + d (R430) -/
  turnRx : Nat := 0
  turnTx : Nat := 0
  /-- the mailbox request whose reply waits for an activity of a port (command, port), or for a launch group (R407,
  R408) -/
  waitPort : Option (Nat × Nat) := none
  waitLaunch : Option Nat := none
  /-- the PCI device ID and the class code that the head presents; they never change (R3) -/
  device : BitVec 16 := 0x6450
  classCode : BitVec 24 := 0x020000
  /-- when the heartbeat interval last began (R396) -/
  hb : Nat := 0
deriving DecidableEq, Repr

/-- A descriptor that the engine holds (R414, R416): its four words, or the cause of a failed read (R437; 0 = none). -/
structure DescX where
  w0 : Nat
  w1 : Nat
  w2 : Nat
  w3 : Nat
  bad : Nat := 0
deriving DecidableEq, Repr

/-- A received frame in the cellar: port, bytes without FCS, bits [31:16] of word 1 of its write-back, EtherType, entry
that steered it, ingress timestamp (TB64), status known so far, latency as measured and when, in ns (R414, R441). -/
structure RxFrameX where
  port : Nat
  bytes : List Byte
  tag : Nat
  etype : Nat
  entry : Nat
  ts : Nat
  status : Nat
  lat : Nat
  at_ : Nat
deriving DecidableEq, Repr

/-- A write-back on a cache-landing ring that has not left the engine (R432): ring index, and the 32 bytes of each
descriptor. -/
structure WbX where
  idx : Nat
  descs : List (List Byte)
deriving DecidableEq, Repr

/-- A transmit frame from its fetch to its write-back: number, ring index of its first descriptor, descriptors, bytes,
status once known, egress timestamp, port. -/
structure FlightX where
  id : Nat
  idx : Nat
  descs : List DescX
  bytes : List Byte
  status : Option Nat
  ts : Nat
  port : Nat
deriving DecidableEq, Repr

/-- What a ring holds beside its registers (chapter 13). -/
structure RingX where
  /-- descriptors asked for and not yet arrived; prefetched descriptors in ring order; descriptors in use beyond head -/
  fetching : Nat := 0
  descs : List DescX := []
  taken : Nat := 0
  /-- received frames that wait in the cellar -/
  frames : List RxFrameX := []
  /-- cache landing: write-backs held, whether a global-observation response is awaited and for how many units, the
  address whose translation is awaited -/
  held : List WbX := []
  goWait : Bool := false
  units : Nat := 0
  translating : Option Nat := none
  /-- the moderation timer: 0 stopped, 1 running, 2 passed (R435) -/
  timer : Nat := 0
  /-- the transmit frame being gathered: descriptors, bytes, a failed part, more than 16 descriptors, budget units of the
  data read that is out, the frame is whole and waits for TX_FRAME_FETCHED -/
  cur : List DescX := []
  data : List Byte := []
  err : Bool := false
  skip : Bool := false
  reading : Nat := 0
  whole : Bool := false
  /-- the transmit port and class since the latest enable (R418) -/
  port : Nat := 0
  cls : Nat := 0
  /-- transmit frames fetched and not yet written back, in ring order, and the number of the next -/
  flights : List FlightX := []
  nextId : Nat := 0
deriving DecidableEq, Repr
/-- What a management DMA channel holds beside its registers (chapter 14): the address of a descriptor to be fetched,
whether its read is out, the descriptor in progress (address and words), the tail (address), the next pointer that a
doorbell re-read found behind it, budget units of its data reads by head and those it still waits for, whether such a read failed, the heads whose
sync reads are awaited with the result that then completes the descriptor (status, reason, bytes). -/
structure ChanX where
  want : Option Nat := none
  fetching : Bool := false
  cur : Option (Nat × DescX) := none
  tail : Option Nat := none
  next : Option Nat := none
  units : List (Nat × Nat) := []
  due : List (Nat × Nat) := []
  lost : Bool := false
  sync : List Nat := []
  result : Nat × Nat × Nat := (0, 0, 0)
deriving DecidableEq, Repr

/-- A program (`erase` = false) or an erase in progress in the flash: offset, bytes programmed, bytes erased; `late` once
it has timed out (R577). -/
structure FlashOp where
  erase : Bool
  addr : Nat
  bytes : List Byte
  len : Nat
  late : Bool := false
deriving DecidableEq, Repr

/-- The flash port (R571 to R577): page buffers in order (the last still gathers while `gather`), the operation in
progress, whether it is suspended, an erase that waits, reads of the window that wait, whether the boot header marks
erase suspend as supported. -/
structure FlashX where
  bufs : List (Nat × List Byte) := []
  gather : Bool := true
  op : Option FlashOp := none
  suspended : Bool := false
  eraseWait : Option (Nat × Nat) := none
  reads : List (Nat × Nat) := []
  canSuspend : Bool := false
deriving DecidableEq, Repr

/-- The power controller (chapter 15) and the starts: pins VAON (above its threshold), PWR_EN, VMAIN_OK, RESET_N held;
the stage of the start (`stOff` ...), a start that waits for PWR_EN to have been low (its cause), wakes latched during an
entry (kind, index, group), a reset latched during an entry (cause, and 16 times the source), detectors armed in PARK, wake-table
entries still to act and whether port starts are skipped, switch-ons in queue order, the target VDD_CORE steps toward, the
AVSBus write that is out, the firmware image in force (generation, digest), the PARTNER_REF copies of the state bank
(R146), the ports in SLEEP at the last PARK entry, whether the start began as a wake from PARK (R495), whether the Gaffer runs, is held, has halted, has kicked its watchdog. -/
structure PowerX where
  vaon : Bool := false
  pwrEn : Bool := false
  vmainOk : Bool := false
  resetN : Bool := false
  stage : Nat := 0
  offWait : Option Nat := none
  latch : List (Nat × Nat × Nat) := []
  resetLatched : Option Nat := none
  armed : List Nat := []
  table : List Nat := []
  tableCold : Bool := false
  switching : List Nat := []
  avsGoal : Nat := 750
  avsOut : Option Nat := none
  fwGen : Nat := 0
  fwDigest : List Byte := []
  partnerRefs : SMap Word := []
  asleep : List Nat := []
  park : Bool := false
  gaffer : Bool := false
  halted : Bool := false
  kicked : Bool := false
deriving DecidableEq, Repr

/-- The clock tree beside its registers (chapter 16): switches under way (1 fabric, 2 Gaffer, 4 SLCK), the offset of the
anchor in 0.01 ppm, whether SLCK runs. -/
structure ClockX where
  switching : List Nat := []
  anchor : Int := 0
  slck : Bool := true
deriving DecidableEq, Repr

/-- A fault record that is being written (R542): occasion, class of its message, and what follows it: 0 nothing, 1 a chip
reset by reaction, 2 a retry of R499; the source that caused it. -/
structure RecordX where
  occasion : Nat
  cls : Nat
  andThen : Nat
  source : Nat
deriving DecidableEq, Repr

/-- The fault collector beside its registers (chapter 17): messages that AON holds (R618), when the newest log entry was
taken, the records being written in order, the sequence of the last record since power-on (R543), sources in a block reset, the level of ALIVE and whether a reaction stopped it, when the
watchdog was last started, sensors above a threshold (sensor, 2 or 3), the checker under test, a SAFE that waits for the
end of a STANDBY entry, whether FLT's summary was set (for the edge of KEVENT.fault), whether HSPI_INT_N is
driven low (R567). -/
structure FaultX where
  held : List Msg := []
  newest : Option Nat := none
  recWait : List RecordX := []
  seq : Nat := 0
  resets : List Nat := []
  alive : Bool := false
  stopped : Bool := false
  wdog : Option Nat := none
  hot : List (Nat × Nat) := []
  checker : Nat := 0
  safeDue : Option Nat := none
  fltSum : Bool := false
  intLow : Bool := false
deriving DecidableEq, Repr

/-- What the board ties (R608, R555): HEADCFG, BOOTSRC, TEST_MODE. -/
structure PinX where
  headcfg : Nat := 0
  bootsrc : Nat := 0
  testMode : Bool := false
deriving DecidableEq, Repr
/-- The whole state. -/
structure State where
  /-- the commands waiting, first in first out -/
  pending : List Instr := []
  /-- time since power-on, ns -/
  now : Nat := 0
  /-- active register words by DRS byte offset; an unlisted offset holds its reset word -/
  regs : SMap Word := []
  /-- staged words of WS registers (R54); an unlisted offset is staged at its active word -/
  staged : SMap Word := []
  /-- undo shadows (R56): words active before the last commit, and the blocks whose undo is valid -/
  undo : SMap Word := []
  undoBlocks : List Nat := []
  /-- the three copies of a triplicated word where they differ (R70) -/
  tv : SMap (Word × Word × Word) := []
  /-- multi-word snapshots (R74): key = path × 2^26 + offset of the word -/
  snaps : SMap Word := []
  /-- lower words held of a multi-word write (R75) -/
  held : SMap Word := []
  /-- start of the running 1 µs window of an SQ register (R61) -/
  sqWin : SMap Nat := []
  /-- queued always-on writes, oldest first (R68), and the copies heads and the Gaffer read (R67) -/
  acQueue : List AcWrite := []
  acCopy : SMap Word := []
  ports : SMap PortX := []
  canes : SMap CaneX := []
  bnds : SMap BndX := []
  fur : FurX := {}
  ledger : LedgerX := {}
  mld : MldX := {}
  otp : OtpX := {}
  tb : TbX := {}
  cal : CalX := {}
  diag : DiagX := {}
  /-- the external flash (R570), the Gaffer's SRAM (R444), the cellar (R426) -/
  flash : Memory := []
  sram : Memory := []
  cellar : Memory := []
  commit : CommitX := {}
  heads : SMap HeadX := []
  /-- the rings: key 2q for the receive ring of queue pair q, 2q + 1 for its transmit ring -/
  rings : SMap RingX := []
  /-- the management DMA channels, and the intervals of 64-byte cellar units that engine writes have filled (R468) -/
  chans : SMap ChanX := []
  filled : List (Nat × Nat) := []
  fport : FlashX := {}
  power : PowerX := {}
  clock : ClockX := {}
  fault : FaultX := {}
  pins : PinX := {}
  /-- the keeper frame interface: the previous frame was rejected (R565) -/
  spiRejected : Bool := false
  /-- fault messages raised on this edge and not yet taken (R526) -/
  intake : List Msg := []
  /-- what left the block, oldest first -/
  out : List Out := []
  /-- the number of free values drawn so far: the model's own counter (log entry 1) -/
  free : Nat := 0
deriving DecidableEq, Repr

/-- The block right after reset: every register word at its reset value, nothing in any queue or memory, the always-on rail
down (R36, R514, R523). POWER_ON is what starts it (log entry 28). -/
def State.reset : State := {}

end Sys2Proof.Machine
end

