-- ==== Sys2Proof/Machine/Operands.lean ====
section
/-!
DEFINITION. Operand forms: the fields of a word, values of several words, signed readings, path codes, class and quarter
of a port, check words.
-/
namespace Sys2Proof.Machine

/-- Bits hi..lo of a word, as a number. -/
def bits (w : Word) (hi lo : Nat) : Nat := w.toNat / 2 ^ lo % 2 ^ (hi + 1 - lo)

/-- The word with bits hi..lo replaced by a number (its low bits). -/
def putBits (w : Word) (hi lo v : Nat) : Word :=
  BitVec.ofNat 32 (w.toNat - bits w hi lo * 2 ^ lo + v % 2 ^ (hi + 1 - lo) * 2 ^ lo)

/-- Bit i of a number. -/
def bitOf (n i : Nat) : Bool := n / 2 ^ i % 2 == 1

/-- The number with bit i set. -/
def setBit (n i : Nat) : Nat := if bitOf n i then n else n + 2 ^ i

/-- The number with bit i cleared. -/
def clrBit (n i : Nat) : Nat := if bitOf n i then n - 2 ^ i else n

/-- 1 or 0. -/
def b2n (b : Bool) : Nat := if b then 1 else 0

/-- A number read as two's complement of n bits. -/
def signed (n v : Nat) : Int := if v % 2 ^ n < 2 ^ (n - 1) then (v % 2 ^ n : Nat) else (v % 2 ^ n : Nat) - (2 ^ n : Nat)

/-- An integer as two's complement of n bits. -/
def unsigned (n : Nat) (i : Int) : Nat := (i % (2 ^ n : Nat)).toNat

/-- How many of the low n bits are set. -/
def popcount (n v : Nat) : Nat := ((List.range n).filter fun i => bitOf v i).length

/-- The indices below n whose bit is set, rising. -/
def bitList (n v : Nat) : List Nat := (List.range n).filter fun i => bitOf v i

/-- The code of a path in GLB.COMMIT_STAT.last_path, with 6 for the keeper (R527). -/
def pathCode : Path → Nat
  | .head h => h.val
  | .gaffer => 4
  | .keeper => 6

/-- The little-endian number of a byte list. -/
def leNat : List Byte → Nat
  | [] => 0
  | b :: t => b.toNat + 256 * leNat t

/-- n little-endian bytes of a number. -/
def leBytes : Nat → Nat → List Byte
  | 0, _ => []
  | n + 1, v => BitVec.ofNat 8 v :: leBytes n (v / 256)

/-- One bit of CRC-32C in reflected form. -/
def crc32cBit (c : Nat) : Nat := if c % 2 = 1 then Nat.xor (c / 2) 0x82F63B78 else c / 2

/-- One byte of CRC-32C. -/
def crc32cByte (c : Nat) (b : Byte) : Nat :=
  let x := Nat.xor c b.toNat
  crc32cBit (crc32cBit (crc32cBit (crc32cBit (crc32cBit (crc32cBit (crc32cBit (crc32cBit x)))))))

/-- CRC-32C of a byte string (R279): polynomial 0x1EDC6F41, reflected, initial and final all ones. -/
def crc32c (l : List Byte) : Nat := Nat.xor (l.foldl crc32cByte 0xFFFFFFFF) 0xFFFFFFFF

/-- One byte of the CRC-32 of an Ethernet FCS: polynomial 0x04C11DB7, reflected (PRESUMED: log entry 166). -/
def fcsByte (c : Nat) (b : Byte) : Nat :=
  (List.range 8).foldl (fun x _ => if x % 2 = 1 then Nat.xor (x / 2) 0xEDB88320 else x / 2) (Nat.xor c b.toNat)

/-- The FCS that the MAC adds to a frame (R153). -/
def fcs (l : List Byte) : Nat := Nat.xor (l.foldl fcsByte 0xFFFFFFFF) 0xFFFFFFFF

/-- One bit of CRC-8 with polynomial 0x2F. -/
def crc8Bit (c : Nat) : Nat := if c ≥ 128 then Nat.xor (c * 2 % 256) 0x2F else c * 2 % 256

/-- One byte of CRC-8 with polynomial 0x2F, most significant bit first. -/
def crc8Byte (c : Nat) (b : Byte) : Nat :=
  crc8Bit (crc8Bit (crc8Bit (crc8Bit (crc8Bit (crc8Bit (crc8Bit (crc8Bit (Nat.xor c b.toNat))))))))

/-- CRC-8 of a byte string from an initial value (R564: initial and final 0xFF). -/
def crc8 (init : Nat) (l : List Byte) : Nat := l.foldl crc8Byte init

/-- The three port classes of R20. -/
inductive PortClass where | trunk | branch | segment
deriving DecidableEq, Repr

/-- The class of a port (R20). -/
def portClass (p : Nat) : PortClass := if p < 8 then .trunk else if p < 56 then .branch else .segment

/-- The home quarter of a multi-gig port (R20). -/
def homeQuarter (p : Nat) : Nat :=
  if p < 8 then p / 2 else if p < 20 then 0 else if p < 32 then 1 else if p < 44 then 2 else 3

/-- The domain of a port, as its bit of PWR.DOM_STAT in the order of R39: TRK0-7, BRG0-5, T1S. -/
def portDomain (p : Nat) : Nat :=
  if p < 8 then p else if p < 16 then 8 else if p < 24 then 9 else if p < 32 then 10 else if p < 40 then 11
  else if p < 48 then 12 else if p < 56 then 13 else 14

/-- The modes a class supports, as a mask of mode codes (R119). -/
def classModes : PortClass → Nat
  | .trunk => 0xF8
  | .branch => 0x3E
  | .segment => 0x100

/-- Every mode of the port's class from the lowest up to a mode, as an ADV mask of bits 7 to 1 (R121). -/
def modesUpTo (p top : Nat) : Nat := (classModes (portClass p) % 2 ^ (top + 1)) / 2 * 2 % 256

/-- The highest set bit below n, if any: the resolution order of R122 is the order of the mode codes. -/
def highBit : Nat → Nat → Option Nat
  | 0, _ => none
  | n + 1, v => if bitOf v n then some n else highBit n v

/-- The lowest set bit below n, if any. -/
def lowBit (n v : Nat) : Option Nat := (bitList n v).head?

end Sys2Proof.Machine
end

