-- ==== Sys2Proof/Machine/Ops.lean ====
section
/-!
DEFINITION. The named operations over the state. A meaning is a program (`Prog`) over a closed list of actions (`Act`);
`run` gives the state after it. Everything a command can do to the state is therefore said once, by `apply`.
-/
namespace Sys2Proof.Machine

/-! Finding the register at an offset (R44, R45). -/

/-- The register rows of the block that holds an offset (R44). -/
def rowsAt (off : Nat) : List RegRow :=
  match off / 0x10000 with
  | 0x00 => rowsGlb | 0x01 => rowsPwr | 0x02 => rowsClk | 0x03 => rowsRst | 0x04 => rowsFlt | 0x05 => rowsTb
  | 0x06 => rowsLch | 0x07 => rowsMld | 0x08 => rowsFur | 0x09 => rowsCal | 0x0A => rowsDiag | 0x0B => rowsMdma
  | 0x0C => rowsFspi | 0x0D => rowsHspi | 0x0E => rowsCel | 0x0F => rowsPkt | 0x14 => rowsBnd | 0x15 => rowsCane
  | 0x16 => rowsWake | 0x17 => rowsAon
  | b => if b < 0x14 then rowsHead else if 0x100 ≤ b ∧ b < 0x140 then rowsPort
         else if 0x200 ≤ b ∧ b < 0x220 then rowsQp else []

/-- The indices and the word of a register at a distance from its base. -/
def locate : List (Nat × Nat) → Nat → Nat → Option (List Nat × Nat)
  | [], words, d => if d % 4 = 0 ∧ d / 4 < words then some ([], d / 4) else none
  | (st, n) :: t, words, d =>
    if d / st < n then (locate t words (d % st)).map fun r => (d / st :: r.1, r.2) else none

/-- A register found at an offset: its row, its indices, which of its words. -/
structure Loc where
  row : RegRow
  idx : List Nat
  word : Nat
deriving DecidableEq, Repr

/-- The fields of the word found. -/
def Loc.fields (l : Loc) : List FieldRow := (l.row.words[l.word]?).getD []

/-- The first row of a list that holds an offset. -/
def findIn : List RegRow → Nat → Option Loc
  | [], _ => none
  | r :: t, off =>
    if r.base ≤ off then
      match locate r.dims r.words.length (off - r.base) with
      | some (ix, w) => some ⟨r, ix, w⟩
      | none => findIn t off
    else findIn t off

/-- The register at an offset, the common block header aside. -/
def findReg (off : Nat) : Option Loc := findIn (rowsAt off) off

/-- The word a list of fields resets to. -/
def fieldsReset : List FieldRow → Nat
  | [] => 0
  | f :: t => f.reset * 2 ^ f.lo + fieldsReset t

/-- The reset word of an offset as the register tables give it; 0 where nothing is implemented, and where the reset
entry names the mould, a strap, the OTP or the boot header. -/
def resetWord (off : Nat) : Word :=
  match findReg off with
  | some l => BitVec.ofNat 32 (fieldsReset l.fields)
  | none => 0

/-- Whether a word of the space holds a WS field, which lives in the shadow view too (R54). -/
def isWs (off : Nat) : Bool :=
  match findReg off with
  | some l => l.fields.any fun f => decide (f.acc = .ws)
  | none => false

/-! Reading the state. -/

/-- The active word at an offset. -/
def State.reg (s : State) (off : Nat) : Word := s.regs.getD off (resetWord off)

/-- The staged word at an offset (R54). -/
def State.stagedWord (s : State) (off : Nat) : Word := s.staged.getD off (s.reg off)

/-- A field of an active word. -/
def State.f (s : State) (F : Field) : Nat := bits (s.reg F.off) F.hi F.lo

/-- A field of a staged word. -/
def State.fs (s : State) (F : Field) : Nat := bits (s.stagedWord F.off) F.hi F.lo

/-- One bit of a field. -/
def State.bit (s : State) (F : Field) : Bool := s.f F == 1

/-- A value of n consecutive words, least significant first (R74). -/
def State.wide (s : State) (off : Nat) : Nat → Nat
  | 0 => 0
  | n + 1 => (s.reg off).toNat + 2 ^ 32 * State.wide s (off + 4) n

def State.port (s : State) (p : Nat) : PortX := s.ports.getD p {}
def State.cane (s : State) (k : Nat) : CaneX := s.canes.getD k {}

def State.head (s : State) (h : Nat) : HeadX := s.heads.getD h {}

def State.tbSec (s : State) : Nat := s.tb.sec
def State.tbNs (s : State) : Nat := s.tb.ns
def State.bnd (s : State) (b : Nat) : BndX := s.bnds.getD b {}

/-- Whether two bookings cannot be held together: a PORT, BLINE, FLASH or CELLAR resource in both, or a QTR resource in
both that they do not share (R285). Activities 3 and 4 share a quarter. -/
def Booking.clashes (b c : Booking) : Bool :=
  b.ports.any (fun p => c.ports.contains p) || b.blines.any (fun p => c.blines.contains p) ||
  (b.flash && c.flash) || (b.cellar && c.cellar) ||
  (b.qtrs.any (fun q => c.qtrs.contains q) && !((b.act == 3 || b.act == 4) && (c.act == 3 || c.act == 4)))

/-! Actions. -/

/-- What a command can do to the state. -/
inductive Act where
  | reg (off : Nat) (w : Word)
  | stage (off : Nat) (w : Word)
  | unstage (off : Nat)
  | undoSave (b : Nat) (words : SMap Word)
  | undoKeep (off : Nat) (w : Word)
  | undoDrop (b : Nat)
  | tvSet (off : Nat) (c : Word × Word × Word)
  | tvClear (off : Nat)
  | snap (key : Nat) (w : Word)
  | hold (off : Nat) (w : Word)
  | unhold (off : Nat)
  | win (off : Nat) (t : Option Nat)
  | acPush (q : AcWrite)
  | acPop
  | acRefresh
  | port (p : Nat) (x : PortX)
  | cane (k : Nat) (x : CaneX)
  | bnd (b : Nat) (x : BndX)
  | fur (x : FurX)
  | grant (b : Booking)
  | release (b : Booking)
  | enqueue (b : Booking)
  | dequeue (b : Booking)
  | mld (x : MldX)
  | tb (x : TbX)
  | cal (x : CalX)
  | diag (x : DiagX)
  | flashProgram (a : Nat) (l : List Byte)
  | flashErase (a n : Nat)
  | flashReplace (a : Nat) (l : List Byte)
  | sramWrite (a : Nat) (l : List Byte)
  | sramClear (a n : Nat)
  | cellarWrite (a : Nat) (l : List Byte)
  | cellarClear (a n : Nat)
  | fuseKey (i : Nat) (d : List Byte)
  | revokeKeys (mask : Nat)
  | lifecycle (v : Nat)
  | commit (x : CommitX)
  | head (h : Nat) (x : HeadX)
  | ring (k : Nat) (x : RingX)
  | chan (c : Nat) (x : ChanX)
  | filled (l : List (Nat × Nat))
  | fport (x : FlashX)
  | power (x : PowerX)
  | clock (x : ClockX)
  | fault (x : FaultX)
  | pins (x : PinX)
  | spiRejected (b : Bool)
  | chain (l : List Byte)
  | snapDrop
  | emit (m : Msg)
  | take
  | out (o : Out)
  | draw
deriving DecidableEq, Repr

/-- The words of the always-on blocks WAKE and AON, and of PWR.WAKE_LATCH and PWR.RET_STATUS, as a copy holds them (R67). -/
def aonWords (m : SMap Word) : SMap Word := m.filter fun e => decide (0x160000 ≤ e.1 ∧ e.1 < 0x180000 ∨ e.1 = 0x10014 ∨ e.1 = 0x10018)

/-- The state after one action. An action that would break a rule of the spec about the state as a whole (a fifth
queued always-on write, a second holder of a ledger resource, a fused key changed) leaves the state as it is. -/
def apply (a : Act) (s : State) : State :=
  match a with
  | .reg off w => { s with regs := s.regs.putD off w (resetWord off), tv := s.tv.del off }
  | .stage off w => { s with staged := s.staged.put off w }
  | .unstage off => { s with staged := s.staged.del off }
  | .undoSave b words =>
    { s with undo := words.foldl (fun m e => m.put e.1 e.2) (s.undo.without (b * 0x10000) (b * 0x10000 + 0x10000)), undoBlocks := if b ∈ s.undoBlocks then s.undoBlocks else b :: s.undoBlocks }
  | .undoKeep off w => { s with undo := s.undo.put off w }
  | .undoDrop b =>
    { s with undo := s.undo.without (b * 0x10000) (b * 0x10000 + 0x10000), undoBlocks := s.undoBlocks.erase b }
  | .tvSet off c => { s with tv := s.tv.put off c }
  | .tvClear off => { s with tv := s.tv.del off }
  | .snap key w => { s with snaps := s.snaps.put key w }
  | .hold off w => { s with held := s.held.put off w }
  | .unhold off => { s with held := s.held.del off }
  | .win off t => { s with sqWin := match t with | some v => s.sqWin.put off v | none => s.sqWin.del off }
  | .acPush q => if s.acQueue.length < 4 then { s with acQueue := s.acQueue ++ [q] } else s
  | .acPop => { s with acQueue := s.acQueue.tail }
  | .acRefresh => { s with acCopy := aonWords s.regs }
  | .port p x => { s with ports := s.ports.putD p x {} }
  | .cane k x => { s with canes := s.canes.putD k x {} }
  | .bnd b x => { s with bnds := s.bnds.putD b x {} }
  | .fur x => { s with fur := x }
  | .grant b =>
    if s.ledger.books.all (fun c => !b.clashes c) ∧ s.ledger.books.length < 32 then
      { s with ledger := { s.ledger with books := s.ledger.books ++ [b] } } else s
  | .release b => { s with ledger := { s.ledger with books := s.ledger.books.erase b } }
  | .enqueue b =>
    if s.ledger.queue.length < 8 then { s with ledger := { s.ledger with queue := s.ledger.queue ++ [b] } } else s
  | .dequeue b => { s with ledger := { s.ledger with queue := s.ledger.queue.erase b } }
  | .mld x => { s with mld := x }
  | .tb x => { s with tb := x }
  | .cal x => { s with cal := x }
  | .diag x => { s with diag := x }
  | .flashProgram a l => { s with flash := s.flash.program a l }
  | .flashErase a n => { s with flash := s.flash.clear a n }
  | .flashReplace a l => { s with flash := s.flash.writeBytes erased a l }
  | .sramWrite a l => { s with sram := s.sram.writeBytes blank a l }
  | .sramClear a n => { s with sram := s.sram.clear a n }
  | .cellarWrite a l => { s with cellar := s.cellar.writeBytes blank a l }
  | .cellarClear a n => { s with cellar := s.cellar.clear a n }
  | .fuseKey i d =>
    { s with otp := { s.otp with keys := s.otp.keys.zipIdx.map fun e => if e.2 = i ∧ !e.1.programmed then { e.1 with programmed := true, digest := d } else e.1 } }
  | .revokeKeys mask =>
    { s with otp := { s.otp with keys := s.otp.keys.zipIdx.map fun e => { e.1 with revoked := e.1.revoked || bitOf mask e.2 } } }
  | .lifecycle v => { s with otp := { s.otp with lifecycle := max s.otp.lifecycle v } }
  | .commit x => { s with commit := x }
  | .head h x => { s with heads := s.heads.putD h x {} }
  | .ring k x => { s with rings := s.rings.putD k x {} }
  | .chan c x => { s with chans := s.chans.putD c x {} }
  | .filled l => { s with filled := l }
  | .fport x => { s with fport := x }
  | .power x => { s with power := x }
  | .clock x => { s with clock := x }
  | .fault x => { s with fault := x }
  | .pins x => { s with pins := x }
  | .spiRejected b => { s with spiRejected := b }
  | .chain l => { s with otp := { s.otp with chain := l } }
  | .snapDrop => { s with snaps := [], held := [] }
  | .emit m => { s with intake := s.intake ++ [m] }
  | .take => { s with intake := [] }
  | .out o => { s with out := s.out ++ [o] }
  | .draw => { s with free := s.free + 1 }

/-! Programs. -/

/-- A program: nothing, one action, one program after another, or a program chosen by the state it finds. -/
inductive Prog where
  | skip
  | act (a : Act)
  | seq (p q : Prog)
  | read (k : State → Prog)

/-- The state after a program. -/
def run : Prog → State → State
  | .skip, s => s
  | .act a, s => apply a s
  | .seq p q, s => run q (run p s)
  | .read k, s => run (k s) s

/-- Programs one after another. -/
def block : List Prog → Prog
  | [] => .skip
  | p :: t => .seq p (block t)

/-- A program under a condition. -/
def when (c : Bool) (p : Prog) : Prog := if c then p else .skip

/-- A program for each element of a list, in order. -/
def each {α : Type} (l : List α) (f : α → Prog) : Prog := block (l.map f)

/-- A program for the value of an option. -/
def ifSome {α : Type} (o : Option α) (f : α → Prog) : Prog :=
  match o with
  | some v => f v
  | none => .skip

/-- Every action that a program can take meets a condition. -/
def Prog.All (C : Act → Prop) : Prog → Prop
  | .skip => True
  | .act a => C a
  | .seq p q => Prog.All C p ∧ Prog.All C q
  | .read k => ∀ s, Prog.All C (k s)

/-! Small programs. -/

/-- Write a whole active word. -/
def setReg (off : Nat) (w : Word) : Prog := .act (.reg off w)

/-- Write a field of an active word. -/
def setF (F : Field) (v : Nat) : Prog := .read fun s => setReg F.off (putBits (s.reg F.off) F.hi F.lo v)

/-- Write a field of a staged word. -/
def stageF (F : Field) (v : Nat) : Prog := .read fun s => .act (.stage F.off (putBits (s.stagedWord F.off) F.hi F.lo v))

/-- Write an active WS word otherwise than by a commit: a valid undo shadow keeps the value it stands for (R56). -/
def setActiveF (F : Field) (v : Nat) : Prog := .read fun s =>
  block [when (decide (F.off / 0x10000 ∈ s.undoBlocks) && (s.undo.get? F.off).isNone) (.act (.undoKeep F.off (s.reg F.off))),
         when (s.staged.get? F.off).isNone (.act (.stage F.off (s.reg F.off))),
         setF F v]

/-- Write a value of n consecutive words. -/
def setWide (off : Nat) : Nat → Nat → Prog
  | 0, _ => .skip
  | n + 1, v => .seq (setReg off (BitVec.ofNat 32 v)) (setWide (off + 4) n (v / 2 ^ 32))

/-- Add to a value of n words, wrapping. -/
def addWide (off n k : Nat) : Prog := .read fun s => setWide off n (s.wide off n + k)

/-- Add to a field, saturating at its largest value. -/
def satAdd (F : Field) (k : Nat) : Prog := .read fun s => setF F (min (s.f F + k) (2 ^ (F.hi + 1 - F.lo) - 1))

/-- Add to a field, wrapping. -/
def wrapAdd (F : Field) (k : Nat) : Prog := .read fun s => setF F (s.f F + k)

/-- Set or clear bit i of a field. -/
def setFBit (F : Field) (i : Nat) (b : Bool) : Prog := setF ⟨F.off, F.lo + i, F.lo + i⟩ (b2n b)

/-- Change what a port holds. -/
def updPort (p : Nat) (g : PortX → PortX) : Prog := .read fun s => .act (.port p (g (s.port p)))

/-- Change what a cane holds. -/
def updCane (k : Nat) (g : CaneX → CaneX) : Prog := .read fun s => .act (.cane k (g (s.cane k)))

/-- Change what a bundle holds. -/
def updBnd (b : Nat) (g : BndX → BndX) : Prog := .read fun s => .act (.bnd b (g (s.bnd b)))

/-- Change what the furnace holds. -/
def updFur (g : FurX → FurX) : Prog := .read fun s => .act (.fur (g s.fur))

/-- Change what the mould loader holds. -/
def updMld (g : MldX → MldX) : Prog := .read fun s => .act (.mld (g s.mld))

/-- Change what the timebase holds. -/
def updTb (g : TbX → TbX) : Prog := .read fun s => .act (.tb (g s.tb))

/-- Change what calibration holds. -/
def updCal (g : CalX → CalX) : Prog := .read fun s => .act (.cal (g s.cal))

/-- Change what diagnostics hold. -/
def updDiag (g : DiagX → DiagX) : Prog := .read fun s => .act (.diag (g s.diag))

/-- Change what the commit machinery holds. -/
def updCommit (g : CommitX → CommitX) : Prog := .read fun s => .act (.commit (g s.commit))

/-- Change what a head holds. -/
def updHead (h : Nat) (g : HeadX → HeadX) : Prog := .read fun s => .act (.head h (g (s.head h)))

/-- Change what a ring holds. -/
def updRing (k : Nat) (g : RingX → RingX) : Prog := .read fun s => .act (.ring k (g (s.rings.getD k {})))

/-- Change what a DMA channel holds. -/
def updChan (c : Nat) (g : ChanX → ChanX) : Prog := .read fun s => .act (.chan c (g (s.chans.getD c {})))

/-- Change what the flash port holds. -/
def updFlash (g : FlashX → FlashX) : Prog := .read fun s => .act (.fport (g s.fport))

/-- Change what the power controller holds. -/
def updPower (g : PowerX → PowerX) : Prog := .read fun s => .act (.power (g s.power))

/-- Change what the clock tree holds. -/
def updClock (g : ClockX → ClockX) : Prog := .read fun s => .act (.clock (g s.clock))

/-- Change what the fault collector holds. -/
def updFault (g : FaultX → FaultX) : Prog := .read fun s => .act (.fault (g s.fault))

/-- Raise a fault message (R524). -/
def emit (src kind cls detail w1 : Nat) : Prog := .act (.emit ⟨src, kind, cls, detail, w1⟩)

/-- Something leaves the block. -/
def send (o : Out) : Prog := .act (.out o)

/-- Use a free value (log entry 1). -/
def withFree (k : Word → Prog) : Prog := .read fun s => .seq (.act .draw) (k (Config.freeWord s.free))

/-- n bytes of undefined content. -/
def freeBytes (k n : Nat) : List Byte := (List.range n).map (Config.freeByte k)

/-- Return a word to its reset value. -/
def resetReg (off : Nat) : Prog := block [setReg off (resetWord off), .act (.unstage off), .act (.win off none)]

/-- The DRS base of a block of the map of R359. -/
def blockBase (b : Nat) : Nat :=
  if b < 64 then 0x1000000 + b * 0x10000
  else if b < 68 then 0x100000 + (b - 64) * 0x10000
  else if b < 84 then (b - 68) * 0x10000
  else 0x140000 + (b - 84) * 0x10000

/-- Every register of a range returns to its reset value, but for those that `keep` names: active and staged words,
copies, held words, running windows. -/
def resetRange (base len : Nat) (keep : Nat → Bool) : Prog := .read fun s =>
  let offs := fun (m : List Nat) => m.filter fun o => !keep o
  block [each (offs ((s.regs.within base (base + len)).map (·.1))) resetReg,
    each (offs ((s.staged.within base (base + len)).map (·.1))) fun o => .act (.unstage o),
    each (offs ((s.tv.within base (base + len)).map (·.1))) fun o => .act (.tvClear o),
    each (offs ((s.held.within base (base + len)).map (·.1))) fun o => .act (.unhold o),
    each (offs ((s.sqWin.within base (base + len)).map (·.1))) fun o => .act (.win o none)]

end Sys2Proof.Machine
end

