-- ==== Sys2Proof/Machine/Flags.lean ====
section
/-!
DEFINITION. Event and summary flags: SQ registers (R60 to R64), block summaries and GLB.SUMMARY (R65, R66).
-/
namespace Sys2Proof.Machine

/-- The mask register of an SQ register stands at the next offset (R66). -/
def sqMaskOff (off : Nat) : Nat := off + 4

/-- The sequence number after a new event: 1 to 255 and again 1; an event within the running 1 µs window keeps it
(R60, R61). -/
def sqNext (s : State) (off : Nat) : Nat :=
  let seq := bits (s.reg off) 31 24
  let inWindow := match s.sqWin.get? off with
    | some t => decide (s.now < t + 1000)
    | none => false
  if inWindow && seq != 0 then seq else if seq = 255 then 1 else seq + 1

/-- Whether an event opens a window of R61. -/
def sqOpens (s : State) (off : Nat) : Bool :=
  match s.sqWin.get? off with
  | some t => decide (t + 1000 ≤ s.now) || bits (s.reg off) 31 24 == 0
  | none => true

/-- Raise an event bit of the SQ register at an offset (R60, R61). -/
def raise (off bit : Nat) : Prog := .read fun s =>
  block [when (sqOpens s off) (.act (.win off (some s.now))),
         setReg off (putBits (putBits (s.reg off) bit bit 1) 31 24 (sqNext s off))]

/-- A write to an SQ register: all event bits clear where the written SEQ equals the current one (R62). Bits
that `still` gives, whose causes persist, are raised again at once, with a new SEQ (R64). -/
def sqWriteBack (off : Nat) (data : Word) (still : State → Nat) : Prog := .read fun s =>
  if bits data 31 24 = bits (s.reg off) 31 24 then
    block [setReg off (putBits (s.reg off) 23 0 0), when (still s % 2 ^ 24 != 0) (.act (.win off none)),
      each (bitList 24 (still s)) fun b => raise off b]
  else .skip

/-- Whether an SQ register holds an unmasked event (R65, R66). -/
def sqAny (s : State) (off : Nat) : Bool :=
  Nat.land (bits (s.reg off) 23 0) (bits (s.reg (sqMaskOff off)) 23 0) != 0

/-- The SQ registers of the 64 KiB block that begins at an offset, in table order (R45). -/
def sqRegs (base : Nat) : List Nat :=
  match base / 0x10000 with
  | 0x00 => [R.GLB_EVENT] | 0x01 => [R.PWR_EVENT] | 0x02 => [R.CLK_EVENT] | 0x03 => [R.RST_EVENT]
  | 0x04 => [R.FLT_EVENT] | 0x05 => [R.TB_EVENT] | 0x06 => [R.LCH_EVENT] | 0x07 => [R.MLD_EVENT]
  | 0x08 => [R.FUR_EVENT] | 0x09 => [R.CAL_EVENT] | 0x0A => [R.DIAG_EVENT]
  | 0x0B => (List.range 16).map R.MCH_EVENT
  | 0x0C => [R.FSPI_EVENT] | 0x0D => [R.HSPI_KEVENT] | 0x0E => [R.CEL_EVENT] | 0x0F => [R.PKT_EVENT]
  | 0x14 => (List.range 16).map R.BND_EVENT
  | 0x15 => (List.range 4).map R.CANE_EVENT
  | 0x16 => [R.WAKE_EVENT]
  | 0x17 => []
  | b =>
    if b < 0x14 then [base + 0x60]
    else if b < 0x108 then [base + 0x110, base + 0x2F0, base + 0x5F0]
    else if b < 0x138 then [base + 0x110, base + 0x5F0]
    else if b < 0x140 then [base + 0x110, base + 0x4F0, base + 0x5F0]
    else []

/-- The number with bit i as the i-th element of a list tells. -/
def maskOf : List Bool → Nat
  | [] => 0
  | b :: t => b2n b + 2 * maskOf t

/-- BLK_SUM of the block at a base (R45, R65). -/
def blkSum (s : State) (base : Nat) : Nat := maskOf ((sqRegs base).map (sqAny s))

end Sys2Proof.Machine
end

