-- ==== Sys2Proof/Machine/MouldView.lean ====
section
/-!
DEFINITION. What the mould in force says (R79 to R89): the bytes of its sections, the port records, the head that holds
a port or a queue pair, the stewards, the governors.
-/
namespace Sys2Proof.Machine

/-- The payload of a section of the mould in force (R81); empty before a load. -/
def State.sec (s : State) (t : Nat) : List Byte := s.mld.active.getD t []

/-- One byte of a byte string, 0 beyond its end. -/
def byteAt (l : List Byte) (i : Nat) : Nat := ((l[i]?).getD 0).toNat

/-- A little-endian number of n bytes at an index. -/
def leAt (l : List Byte) (i n : Nat) : Nat := leNat ((l.drop i).take n)

/-- Byte i of the PORTS record of port p (R82). -/
def State.portByte (s : State) (p i : Nat) : Nat := byteAt (s.sec 0x0001) (16 * p + i)

/-- GLB.MODE.mould_ok: a mould is loaded and checked (R29). -/
def State.mouldOk (s : State) : Bool := s.bit F.GLB_MODE_mould_ok

/-- Whether PORTS enables a port (R19). -/
def State.portEnabled (s : State) (p : Nat) : Bool := s.portByte p 0 % 2 == 1

/-- The PORTS orphan policy: true = SLEEP, false = DROP (R82). -/
def State.orphanSleep (s : State) (p : Nat) : Bool := s.portByte p 0 / 8 % 2 == 1

/-- The PORTS role (R82): 0 = master, 1 = slave, 2 = negotiated. -/
def State.portsRole (s : State) (p : Nat) : Nat := s.portByte p 0 / 16 % 4

/-- The top mode of a port (R82). -/
def State.topMode (s : State) (p : Nat) : Nat := s.portByte p 1 % 16

/-- The ramp mode of a port, the top mode where it is higher (R121). -/
def State.rampMode (s : State) (p : Nat) : Nat := min (s.portByte p 1 / 16) (s.topMode p)

/-- start_admin (R82, R138). -/
def State.startAdmin (s : State) (p : Nat) : Nat := s.portByte p 9 % 4

/-- The MODE_CFG.role value that a PORTS role loads as (R126). -/
def roleLoad (r : Nat) : Nat := if r = 2 then 2 else r

/-- The port mask of a per-head record (R86). -/
def recPorts (r : List Byte) : Nat := leAt r 2 8

/-- Whether a per-head record holds queue pair q (R86). -/
def recHasQp (r : List Byte) (q : Nat) : Bool :=
  decide (leAt r 10 2 ≤ q) && decide (q < leAt r 10 2 + leAt r 12 2) && !r.isEmpty

/-- The head record in force of a head. -/
def State.headRec (s : State) (h : Nat) : List Byte := s.mld.headRec.getD h []

/-- Heads whose new record of a pending adoption is not yet in force (R114). -/
def State.headsLeft (s : State) : Nat := s.f F.MLD_ADOPT_STAT_heads_left

/-- The head that holds a port (R31). While an adoption is pending, a port that changes head joins its new head at the
later of the two resets, so a head not yet reset keeps what its old record names (R114). -/
def State.portHead (s : State) (p : Nat) : Option Nat :=
  match (List.range 4).find? fun h => bitOf s.headsLeft h && bitOf (recPorts (s.headRec h)) p with
  | some h => some h
  | none => (List.range 4).find? fun h => bitOf (recPorts (s.headRec h)) p

/-- The head that holds a queue pair (R31, R114). -/
def State.qpHead (s : State) (q : Nat) : Option Nat :=
  match (List.range 4).find? fun h => bitOf s.headsLeft h && recHasQp (s.headRec h) q with
  | some h => some h
  | none => (List.range 4).find? fun h => recHasQp (s.headRec h) q

/-- The default queue pair of a port in the record of its head (R86): the override that names it, else the head
default. -/
def recDefault (r : List Byte) (p : Nat) : Option Nat :=
  let v := match (List.range 16).find? fun i => byteAt r (16 + 3 * i) == p && byteAt r (16 + 3 * i) != 0xFF with
    | some i => leAt r (17 + 3 * i) 2
    | none => leAt r 14 2
  if v = 0xFFFF then none else some v

/-- Ports below 64. -/
def allPorts : List Nat := List.range 64

/-- The governors of R115. -/
def State.mayTransmit (s : State) (p : Nat) : Bool :=
  bitOf (s.wide R.MLD_GOV_TXEN 2) p && !s.bit F.FLT_STAT_safe && !(s.fault.recWait.any fun r => r.andThen != 0)
def State.ampCeiling (s : State) (p : Nat) : Nat := s.f (F.MLD_GOV_AMP_ceiling p)

/-- The source ID that reports for a DRS offset (R525). Registers of FUR that belong to no quarter report as quarter 0
(log entry 8), an offset outside every block as GLB (log entry 29). -/
def srcOf (s : State) (off : Nat) : Nat :=
  match off / 0x10000 with
  | 0x00 => 0x00 | 0x01 => 0x04 | 0x02 => 0x03 | 0x03 => 0x00 | 0x04 => 0x01 | 0x05 => 0x02 | 0x06 => 0x16
  | 0x07 => 0x05
  | 0x08 => if 0x82000 ≤ off ∧ off < 0x82800 then 0x10 + (off - 0x82000) / 0x200
            else if off < 0x80040 then 0x10 + (off - 0x80000) / 0x10 else 0x10
  | 0x09 => 0x14 | 0x0A => 0x15 | 0x0B => 0x08 | 0x0C => 0x07 | 0x0D => 0x06 | 0x0E => 0x0A | 0x0F => 0x0B
  | 0x14 => 0x10 + s.f (F.BND_CFG_quarter ((off - 0x140000) / 0x400 % 16))
  | 0x15 => 0x40 + 2 * ((off - 0x150000) / 0x100 % 4)
  | 0x16 => 0x17 | 0x17 => 0x17
  | b => if b < 0x14 then 0x0C + (b - 0x10) else if b < 0x100 then 0x00
      else if b < 0x140 then 0x40 + (b - 0x100) else if 0x200 ≤ b ∧ b < 0x220 then 0x0B else 0x00

/-- Fault kinds (R527) that several families raise. -/
def kEccCorr : Nat := 0x01
def kEccUncorr : Nat := 0x02
def kParity : Nat := 0x03
def kTmrDisagree : Nat := 0x04
def kTmrLost : Nat := 0x05
def kAccessOff : Nat := 0x08
def kAccessDenied : Nat := 0x09
def kGovernorClamp : Nat := 0x0A
def kBusError : Nat := 0x0B
def kDescBad : Nat := 0x0C
def kLinkDrop : Nat := 0x14
def kSelftestFail : Nat := 0x1C

/-- An access refused for lack of rights (R46): C0 ACCESS_DENIED of the accessed block. -/
def denied (path off : Nat) (write : Bool) : Prog := .read fun s =>
  emit (srcOf s off) kAccessDenied 0 (path + 8 * b2n write) off

/-- A governor held a value back (R116): governor in the row order of R115, governed index. -/
def governorClamp (off governor index : Nat) : Prog := .read fun s =>
  emit (srcOf s off) kGovernorClamp 2 governor index

end Sys2Proof.Machine
end

