-- ==== Sys2Proof/Machine/PortCore.lean ====
section
/-!
DEFINITION. One port by itself: its state and what entering and leaving a state does to its own registers (chapter 4).
What a change does to canes, bundles and pots stands in the files of those.
-/
namespace Sys2Proof.Machine

/-- The port states of R131. -/
def stDisabled : Nat := 0
def stSleep : Nat := 1
def stListen : Nat := 2
def stNegotiate : Nat := 3
def stTrain : Nat := 4
def stUp : Nat := 5
def stLpi : Nat := 6
def stFault : Nat := 7

/-- The state of a port. -/
def State.pst (s : State) (p : Nat) : Nat := s.f (F.PORT_STATE_state p)

/-- Whether a port is in UP or LPI. -/
def State.linkUp (s : State) (p : Nat) : Bool := s.pst p == stUp || s.pst p == stLpi

/-- The mode a port uses (R131, PORT[p].STATE.mode). -/
def State.pmode (s : State) (p : Nat) : Nat := s.f (F.PORT_STATE_mode p)

/-- The advertised modes of the port's class after exclusions (R119, R129), before the slots are looked at (R204). -/
def State.offered (s : State) (p : Nat) : Nat :=
  let adv := Nat.land (s.f (F.PORT_ADV_modes p) * 2) (classModes (portClass p))
  (List.range 8).foldl (fun m i => if bitOf (s.f (F.PORT_STATE_excluded p)) i then clrBit m i else m) adv

/-- MSE_REF of a mode, in 0.1 dB units as a signed 16-bit value (R147); 0 where no mode is in use. -/
def mseRef (mode : Nat) : Nat :=
  if mode = 7 then unsigned 16 (-260) else if 3 ≤ mode ∧ mode ≤ 6 then unsigned 16 (-215)
  else if mode = 2 then unsigned 16 (-170) else if mode = 1 then unsigned 16 (-160) else 0

/-- SQI of a signed margin in 0.1 dB units (R148). -/
def sqiOf (m : Int) : Nat := if m < 0 then 0 else min 7 (1 + m.toNat / 10)

/-- The link quality fields outside UP and LPI (R147). -/
def qualIdle (p : Nat) : Prog :=
  block [setF (F.PORT_LINK_QUAL_mse_margin p) 0x8000, setF (F.PORT_LINK_QUAL_sqi p) 0]

/-- The partner record is cleared (R144). -/
def clearPartner (p : Nat) : Prog :=
  block [setReg (R.PORT_PARTNER_ABIL p) 0, setReg (R.PORT_PARTNER_FLAGS p) 0, setWide (R.PORT_PARTNER_ID p) 2 0,
    when (decide (p < 8)) (block [setF (F.PORT_X50_STAT_p_fast_exit p) 0, setF (F.PORT_X50_STAT_p_quick_refresh p) 0,
      setF (F.PORT_X50_STAT_p_tap_train p) 0, setF (F.PORT_X50_STAT_p_reach_15 p) 0, setF (F.PORT_X50_STAT_p_x50 p) 0]),
    updPort p fun x => { x with canePage := none, partnerEee := false }]

/-- The mode and role fields of PORT[p].STATE and MSE_REF. -/
def setMode (p mode role : Nat) : Prog :=
  block [setF (F.PORT_STATE_mode p) mode, setF (F.PORT_STATE_role p) role, setF (F.PORT_MSE_REF_ref p) (mseRef mode)]

/-- Enter LISTEN (R137): the partner record is cleared, no mode is in use, the wait begins. `afterFailure` counts the
restart hold-off: after a link drop, a failed negotiation or a failed training. -/
def enterListen (p : Nat) (afterFailure : Bool) : Prog :=
  block [setF (F.PORT_STATE_state p) stListen, setMode p 0 0, qualIdle p, clearPartner p,
    updPort p fun x => { x with wait := some afterFailure, noModeRaised := false, fromStored := false, pam6 := false, exiting := false, rxQuiet := false, txQuiet := false }]

/-- Enter a state that uses no mode and waits for nothing: DISABLED, SLEEP or FAULT. -/
def enterRest (p st : Nat) : Prog :=
  block [setF (F.PORT_STATE_state p) st, setMode p 0 0, qualIdle p,
    updPort p fun x => { x with wait := none, fromStored := false, pam6 := false, exiting := false, rxQuiet := false, txQuiet := false },
    when (decide (st = stFault)) (raise (R.PORT_EVENT p) 13)]

/-- STATE.excluded and the failed-training counts clear on every exit from SLEEP or DISABLED, on CTL.restart and on a
port reset (R129). -/
def clearExcluded (p : Nat) : Prog :=
  block [setF (F.PORT_STATE_excluded p) 0, updPort p fun x => { x with trainFails := [] }]

/-- TB64 of the timebase (R336): seconds above, nanoseconds below. -/
def State.tb64 (s : State) : Nat := s.tbSec % 2 ^ 32 * 2 ^ 32 + s.tbNs

/-- The entry that a link drop writes in DROP_HIST, and the index after it (R143). -/
def dropEntry (p cause uncLast : Nat) (flap : Bool) : Prog := .read fun s =>
  let i := s.f (F.PORT_DROP_HIST_IDX_next p)
  block [setWide (R.PORT_DROP_HIST p i) 2 s.tb64,
    setReg (R.PORT_DROP_HIST p i + 8) (BitVec.ofNat 32 (cause + 2 ^ 8 * s.pmode p + 2 ^ 12 * s.f (F.PORT_LINK_QUAL_sqi p)
      + 2 ^ 15 * b2n (s.pst p == stLpi) + 2 ^ 16 * b2n flap)),
    setReg (R.PORT_DROP_HIST p i + 12) (BitVec.ofNat 32 (s.f (F.PORT_LINK_QUAL_mse_margin p)
      + 2 ^ 16 * min uncLast 0xFFFF)),
    setF (F.PORT_DROP_HIST_IDX_next p) (i + 1),
    when (decide (i = 7)) (setF (F.PORT_DROP_HIST_IDX_wrapped p) 1)]

/-- The flap window in ns (R141): units of 10 s, 0 read as 1. -/
def State.flapWindow (s : State) (p : Nat) : Nat := max 1 (s.f (F.PORT_TIMERS_flap_window p)) * 10000000000

/-- The drops that the flap guard counts now, a new one included (R141). -/
def State.flapDrops (s : State) (p : Nat) : List Nat :=
  s.now :: (s.port p).dropTimes.filter fun t => decide (s.now < t + s.flapWindow p)

/-- Whether a drop with this cause trips the flap guard (R141): RESTART (7) and PORT_RESET (9) do not count. -/
def State.flapTrips (s : State) (p cause : Nat) : Bool :=
  cause != 7 && cause != 9 && s.f (F.PORT_TIMERS_flap_limit p) != 0
    && decide (s.f (F.PORT_TIMERS_flap_limit p) ≤ (s.flapDrops p).length)

/-- The record of a link drop of one port (R143): history, count, event, message; the flap guard counts it (R141). -/
def dropRecord (p cause uncLast : Nat) : Prog := .read fun s =>
  let trip := s.flapTrips p cause
  let counts := cause != 7 && cause != 9
  block [dropEntry p cause uncLast trip, satAdd (F.PORT_DROP_COUNT_count p) 1, raise (R.PORT_EVENT p) 1,
    emit (0x40 + p) kLinkDrop 0 (cause + 256 * b2n trip) p,
    updPort p fun x => { x with dropTimes := if trip then [] else if counts then s.flapDrops p else x.dropTimes, flapHold := x.flapHold || trip }]

/-- The pending bit of a port in WAKE.PENDING (R330). -/
def State.pendingWake (s : State) (p : Nat) : Bool := bitOf (s.wide R.WAKE_PENDING 2) p
def setPending (p : Nat) (b : Bool) : Prog :=
  setFBit ⟨if p < 32 then R.WAKE_PENDING else if p < 64 then R.WAKE_PENDING + 4 else outside, 31, 0⟩ (p % 32) b

/-- A port by itself enters SLEEP: CTL.admin reads 0b01 (R323), a latched wake becomes pending (R134). -/
def sleepRest (p : Nat) : Prog := .read fun s =>
  block [enterRest p stSleep, setF (F.PORT_CTL_admin p) 1,
    when (s.port p).wakeLatched (block [setPending p true, updPort p fun x => { x with wakeLatched := false }])]

/-- The uncorrectable codewords of the last 1 ms (R143), as the intervals of the port have counted them. -/
def State.uncLast (s : State) (p : Nat) : Nat :=
  ((s.port p).unc.filter fun e => decide (s.now < e.1 + 1000000)).foldl (fun n e => n + e.2) 0

/-- A link drop of one port by itself (R142, R143): to LISTEN, or to FAULT where it trips the flap guard. A drop during a
sleep handshake takes the port to SLEEP and is not recorded (R134). -/
def dropCore (p cause uncLast : Nat) : Prog := .read fun s =>
  if (s.port p).localSleep || (s.port p).partnerSleep then
    block [updPort p fun x => { x with localSleep := false, partnerSleep := false }, sleepRest p]
  else
    block [dropRecord p cause uncLast,
      if s.flapTrips p cause then block [raise (R.PORT_EVENT p) 9, enterRest p stFault] else enterListen p true]

/-! Segments (chapter 7). -/

/-- PLCA settings within R239, or CSMA/CD alone. -/
def State.segValid (s : State) (p : Nat) : Bool :=
  let id := s.f (F.PORT_SEG_CFG_node_id p)
  let n := s.f (F.PORT_SEG_CFG_node_count p)
  !s.bit (F.PORT_SEG_CFG_plca_en p) ||
    (decide (2 ≤ n ∧ n ≤ 32) && decide (1 ≤ s.f (F.PORT_SEG_TIMING_burst_timer p)) &&
      decide (32 ≤ s.f (F.PORT_SEG_TIMING_to_timer p)) &&
      (if s.bit (F.PORT_SEG_CFG_coordinator p) then id == 0 else decide (1 ≤ id ∧ id < n)))

/-- The segment leaves PLCA and CSMA/CD with its link. -/
def segIdle (p : Nat) : Prog :=
  block [setF (F.PORT_SEG_STAT_plca_active p) 0, setF (F.PORT_SEG_STAT_csma p) 0, setF (F.PORT_SEG_STAT_beacon_ok p) 0,
    updPort p fun x => { x with opportunity := 0, windowMin := none }]

/-- The census is zeroed and a new window starts (R251). -/
def censusClear (p : Nat) : Prog :=
  block [each (List.range 32) fun n => setReg (R.PORT_SEG_CENSUS p n) 0, setReg (R.PORT_SEG_CYCLE p) 0,
    setF (F.PORT_SEG_STAT_nodes_seen p) 0,
    updPort p fun x => { x with censusSeen := 0, censusPrev := 0, censusEver := 0 }]

end Sys2Proof.Machine
end

