-- ==== Sys2Proof/Machine/Pcs.lean ====
section
/-!
DEFINITION. The X50 PCS (R161 to R164): 257-bit blocks, the scrambler, codewords, PAM6 symbols and what a receiver makes of
them; the alignment markers (R185). A block, a codeword and a marker are numbers whose bit 0 is the first bit sent.
-/
namespace Sys2Proof.Machine

/-! Blocks (R162, step 1). -/

/-- An all-data block: bit 0 is 1, then 32 bytes (R162). The first byte is sent first, its bit 0 first (PRESUMED: log entry
166). -/
def dataBlock (l : List Byte) : Nat := 1 + 2 * (leNat l % 2 ^ 256)

/-- A block that holds control characters: bit 0 is 0 (R162). The places of its characters and bytes are not stated: a free
value of what it holds, 0 idle, 1 a start, 2 an end with the last bytes of a frame (log entry 166). -/
def controlBlock (kind : Nat) (l : List Byte) : Nat := 2 * (Config.pcsControl kind (leNat l) % 2 ^ 256)

/-- The bytes of a frame in blocks of 32; the last block, which is not full, holds control characters as well. -/
def bodyBlocks : Nat → List Byte → List Nat
  | 0, _ => []
  | n + 1, l => if l.length < 32 then [controlBlock 2 l] else dataBlock (l.take 32) :: bodyBlocks n (l.drop 32)

/-- The blocks of a frame: the one that starts it, its bytes, the one that ends it. -/
def frameBlocks (l : List Byte) : List Nat := controlBlock 1 [] :: bodyBlocks (l.length + 1) l

/-! The scrambler (R162, step 2): 1 + x^39 + x^58, self-synchronising. Its state is the last 58 bits sent, newest in bit 0. -/

/-- One bit: the bit sent and the state after it. -/
def scrambleBit (st d : Nat) : Nat × Nat :=
  let o := (d + st / 2 ^ 38 + st / 2 ^ 57) % 2
  (o, (2 * st + o) % 2 ^ 58)

/-- The low n bits of a number, bit 0 first. -/
def scrambleBits : Nat → Nat → Nat → Nat × Nat
  | 0, st, _ => (0, st)
  | n + 1, st, v =>
    let b := scrambleBit st (v % 2)
    let r := scrambleBits n b.2 (v / 2)
    (b.1 + 2 * r.1, r.2)

/-- One bit received: the bit recovered and the state after it. -/
def descrambleBit (st d : Nat) : Nat × Nat := ((d + st / 2 ^ 38 + st / 2 ^ 57) % 2, (2 * st + d % 2) % 2 ^ 58)

/-- The low n bits of a received number, bit 0 first. -/
def descrambleBits : Nat → Nat → Nat → Nat × Nat
  | 0, st, _ => (0, st)
  | n + 1, st, v =>
    let b := descrambleBit st (v % 2)
    let r := descrambleBits n b.2 (v / 2)
    (b.1 + 2 * r.1, r.2)

/-- Bits [256:1] of a block are scrambled, bit 0 is not (R162). -/
def scrambleBlock (st block : Nat) : Nat × Nat :=
  let r := scrambleBits 256 st (block / 2)
  (block % 2 + 2 * r.1, r.2)

/-- A received block is recovered. -/
def descrambleBlock (st block : Nat) : Nat × Nat :=
  let r := descrambleBits 256 st (block / 2)
  (block % 2 + 2 * r.1, r.2)

/-- Blocks one after another. -/
def scrambleAll : Nat → List Nat → List Nat × Nat
  | st, [] => ([], st)
  | st, b :: t =>
    let r := scrambleBlock st b
    let u := scrambleAll r.2 t
    (r.1 :: u.1, u.2)

/-! Codewords (R161, R162, steps 3 and 4). -/

/-- The message of a codeword: its blocks, bit 0 of the first in bit 0; 20 blocks fill the 514 symbols (R161). -/
def pcsMessage : List Nat → Nat
  | [] => 0
  | b :: t => b % 2 ^ 257 + 2 ^ 257 * pcsMessage t

/-- The 5,440 bits of the RS(544,514) codeword of a message: the 514 message symbols, then the 30 parity symbols, which the
spec does not compute: a free value of the message (log entry 166). -/
def codeword (message : Nat) : Nat := message % 2 ^ 5140 + 2 ^ 5140 * (Config.rsParity (message % 2 ^ 5140) % 2 ^ 300)

/-- The 1,088 groups of 5 bits of a codeword, least significant bit first (R162). -/
def pcsGroups (cw : Nat) : List Nat := (List.range 1088).map fun i => cw / 2 ^ (5 * i) % 32

/-! PAM6 (R163, R164). -/

/-- The level of a level index (R163). -/
def pamLevel (i : Nat) : Int := 2 * (i : Int) - 5

/-- The pair of level indices that a 5-bit group is sent as (R163). -/
def pamPair (v : Nat) : Nat × Nat :=
  if v < 4 then (0, v + 1) else if v < 28 then ((v - 4) / 6 + 1, (v - 4) % 6) else (5, v - 27)

/-- The sum of the level distances of two pairs (R164). -/
def pamDistance (x y : Nat × Nat) : Nat :=
  (pamLevel x.1 - pamLevel y.1).natAbs + (pamLevel x.2 - pamLevel y.2).natAbs

/-- The value of a received pair: that of the nearest valid pair, a tie to the lower value (R164). -/
def pamValue (x : Nat × Nat) : Nat :=
  (List.range 32).foldl (fun b v => if pamDistance (pamPair v) x < pamDistance (pamPair b) x then v else b) 0

/-- One of the four corner pairs, which are never sent (R163). -/
def pamCorner (x : Nat × Nat) : Bool := (x.1 == 0 || x.1 == 5) && (x.2 == 0 || x.2 == 5)

/-- The symbol pairs of a codeword, in the order they are sent (R162, R163). -/
def codewordPairs (cw : Nat) : List (Nat × Nat) := (pcsGroups cw).map pamPair

/-- A received codeword: its bits, and the RS symbols marked as erasures, which corner pairs touched (R164). Two pairs make a
10-bit symbol. -/
def receivedCodeword (pairs : List (Nat × Nat)) : Nat × List Nat :=
  (pairs.foldr (fun x n => pamValue x + 32 * n) 0,
   ((pairs.zipIdx.filter fun e => pamCorner e.1).map fun e => e.2 / 2).eraseDups)

/-- The blocks of a received codeword's message, still scrambled. -/
def messageBlocks (cw : Nat) : List Nat := (List.range 20).map fun i => cw / 2 ^ (257 * i) % 2 ^ 257

/-! Round robin over the lanes of a cane (R179). -/

/-- The blocks that position i of n lanes gets when blocks are handed out in turn, from a first position. -/
def dealt {α : Type} (n i first : Nat) (l : List α) : List α :=
  (l.zipIdx.filter fun e => (first + e.2) % n == i).map (·.1)

/-- The blocks of n lanes merged in the same order. -/
def merged {α : Type} (first : Nat) (lanes : List (List α)) (count : Nat) : List α :=
  (List.range count).filterMap fun i =>
    let n := lanes.length
    let at_ := (first + i) % n
    (lanes.getD at_ [])[(i - (at_ + n - first % n) % n) / n]?

/-! Alignment markers (R185). -/

/-- Bits of PRBS9, the newest of its nine bits in bit 0 of the state; x^9 + x^5 + 1 (PRESUMED: log entry 167). -/
def prbs9 : Nat → Nat → Nat
  | 0, _ => 0
  | n + 1, st => st / 2 ^ 8 % 2 + 2 * prbs9 n ((2 * st + (st / 2 ^ 8 + st / 2 ^ 4) % 2) % 2 ^ 9)

/-- The marker block of R185. -/
def markerBlock (lane tag map rxOk count bip : Nat) : Nat :=
  2 * 0xA5 + 2 ^ 9 * (lane % 4) + 2 ^ 11 * (tag % 2 ^ 16) + 2 ^ 27 * (map % 16) + 2 ^ 31 * (rxOk % 16) + 2 ^ 35 * (count % 256)
    + 2 ^ 43 * (bip % 256) + 2 ^ 51 * prbs9 206 0x1FF

/-- LOCAL_ID of a port (R124). -/
def localId (p : Nat) : Nat := 0x6450 * 2 ^ 48 + Config.uid.toNat % 2 ^ 40 * 2 ^ 8 + p

/-- The cane tag that cane k sends (R180). -/
def caneTag (k : Nat) : Nat := localId (2 * k) / 2 ^ 8 % 2 ^ 14 * 4 + k

/-! Sending. -/

/-- The codewords that carry the blocks of a lane, the last one filled with idle; `n` bounds their number. -/
def laneSend (p : Nat) : Nat → List Nat → Prog
  | 0, _ => .skip
  | n + 1, l => .read fun s =>
    let b := (l.take 20) ++ List.replicate (20 - (l.take 20).length) (controlBlock 0 [])
    let r := scrambleAll (s.port p).scram b
    block [updPort p fun x => { x with scram := r.2 }, send (.symbols p (codewordPairs (codeword (pcsMessage r.1)))),
      when (decide (20 < l.length)) (laneSend p n (l.drop 20))]

/-- A frame goes through the PCS of the lanes that carry it, the first block on position `first` (R162, R179). -/
def pcsSend (lanes : List Nat) (first : Nat) (bytes : List Byte) : Prog :=
  let l := frameBlocks bytes
  each lanes.zipIdx fun e => let mine := dealt lanes.length e.2 first l
    when (!mine.isEmpty) (laneSend e.1 (mine.length / 20 + 1) mine)

end Sys2Proof.Machine
end

