-- ==== Sys2Proof/Machine/Canes.lean ====
section
/-!
DEFINITION. Canes: admission of members, the cane states and the lane maps (R178 to R191).
-/
namespace Sys2Proof.Machine

/-- The cane states of R182. -/
def cnDown : Nat := 0
def cnSingle : Nat := 1
def cnForming : Nat := 2
def cnUp : Nat := 3
def cnDegraded : Nat := 4

/-- The state of cane k. -/
def State.cst (s : State) (k : Nat) : Nat := s.f (F.CANE_STAT_state k)

/-- The lanes of a cane's members (R178). -/
def State.caneLanes (s : State) (k : Nat) : List Nat := bitList 4 (s.f (F.CANE_CFG_members k))

/-- The cane and lane of a trunk, where it is a member (R178). -/
def State.caneOf (s : State) (p : Nat) : Option (Nat × Nat) :=
  if p < 8 then
    ((List.range 4).find? fun k => s.bit (F.CANE_CFG_valid k) && decide (2 * k ≤ p) &&
      bitOf (s.f (F.CANE_CFG_members k)) (p - 2 * k) && decide (p - 2 * k < 4)).map fun k => (k, p - 2 * k)
  else none

/-- The port whose MAC carries a port's frames (R22): the lowest member of its cane, else the port itself. -/
def State.macPort (s : State) (p : Nat) : Nat :=
  match s.caneOf p with
  | some (k, _) => 2 * k
  | none => p

/-- Admitted lanes of a cane, as a mask. -/
def State.admitted (s : State) (k : Nat) : Nat := s.f (F.CANE_STAT_admitted k)

/-- Whether a mode is a bond mode (R179): 25GBASE-T1 or X50. -/
def bondMode (m : Nat) : Bool := m == 6 || m == 7

/-- The cane page of lane j's partner, where its member count equals the local one and it offers a mode (R180). The page is
(tag, count, lane, modes offered, policy). -/
def State.pageFits (s : State) (k j mode : Nat) : Bool :=
  match (s.port (2 * k + j)).canePage with
  | some (_, count, _, modes, _) => count == popcount 4 (s.f (F.CANE_CFG_members k)) && bitOf modes mode
  | none => false

/-- The tag of lane j's cane page. -/
def State.pageTag (s : State) (k j : Nat) : Nat := ((s.port (2 * k + j)).canePage.map fun g => g.1).getD 0

/-- A partner's cane page is valid for a mode (R180): it fits, and its tag equals that of the pages of other members which
were already valid. Of pages with different tags, those that came first stand; `pageAt` numbers them in order. -/
def State.pageValid (s : State) (k j mode : Nat) : Bool :=
  s.pageFits k j mode &&
  (s.caneLanes k).all fun i => i == j || !s.pageFits k i (s.pmode (2 * k + i)) ||
    s.pageTag k i == s.pageTag k j || decide ((s.port (2 * k + j)).pageAt < (s.port (2 * k + i)).pageAt)

/-- The conditions of R181 for lane j of cane k, the skew limit of R188 aside. -/
def State.laneMeets (s : State) (k j : Nat) : Bool :=
  let p := 2 * k + j
  let bond := (s.cane k).bond
  s.pst p == stUp && bondMode (s.pmode p) && (bond == 0 || bond == s.pmode p) && s.pageValid k j (s.pmode p)
    && s.bit (F.PORT_AM_STAT_am_lock p) && s.bit (F.PORT_AM_STAT_tag_ok p) && !(s.port p).loopHeld

/-- Whether lane j would keep the spread of arrivals across admitted lanes within 64 ns (R188). -/
def State.skewFits (s : State) (k j : Nat) : Bool :=
  let a := (s.cane k).arrival
  (bitList 4 (s.admitted k)).all fun i => decide (a.getD i 0 ≤ a.getD j 0 + 640 ∧ a.getD j 0 ≤ a.getD i 0 + 640)

/-- The transmit map (R187): admitted lanes that the rx_ok of the partner's latest marker includes. -/
def State.wantMap (s : State) (k : Nat) : Nat := Nat.land (s.admitted k) ((s.cane k).rxOk % 16)

/-- A marker leaves on lane j of cane k (R185, R186). Its BIP covers codewords that the model does not show: a free value (log
entry 167). An extra marker does not change the marker count. -/
def sendMarker (k j : Nat) (extra : Bool) : Prog := .read fun s => withFree fun v =>
  block [send (.marker (2 * k + j) (markerBlock j (caneTag k) (s.cane k).txMap (s.admitted k) (s.port (2 * k + j)).markers (v.toNat % 256)) extra),
    when (!extra) (updPort (2 * k + j) fun x => { x with markers := (x.markers + 1) % 256 })]

/-- The map takes its value; a change places extra markers on every lane of the new map and raises map_change (R186,
R187). -/
def remap (k : Nat) : Prog := .read fun s =>
  when (s.wantMap k != (s.cane k).txMap)
    (block [updCane k fun x => { x with txMap := s.wantMap k, next := 0 }, raise (R.CANE_EVENT k) 8,
      each (bitList 4 (s.wantMap k)) fun j => sendMarker k j true])

/-- The skew reports of R188: each admitted lane against the earliest admitted lane. -/
def reportSkew (k : Nat) : Prog := .read fun s =>
  let a := (s.cane k).arrival
  let adm := bitList 4 (s.admitted k)
  let first := adm.foldl (fun m j => min m (a.getD j 0)) (adm.foldl (fun m j => max m (a.getD j 0)) 0)
  each adm fun j =>
    let v := min (a.getD j 0 - first) 0x3FE
    match j with
    | 0 => setF (F.CANE_SKEW_A_even_lane k) v
    | 1 => setF (F.CANE_SKEW_A_odd_lane k) v
    | 2 => setF (F.CANE_SKEW_B_even_lane k) v
    | _ => setF (F.CANE_SKEW_B_odd_lane k) v

/-- Lanes in UP in the bond mode, or in either bond mode while none is set (CANE[k].STAT.up_lanes). -/
def upLanes (k : Nat) : Prog := .read fun s =>
  setF (F.CANE_STAT_up_lanes k) (maskOf ((List.range 4).map fun j => bitOf (s.f (F.CANE_CFG_members k)) j &&
    s.pst (2 * k + j) == stUp && bondMode (s.pmode (2 * k + j)) &&
    ((s.cane k).bond == 0 || (s.cane k).bond == s.pmode (2 * k + j))))

/-- Set the state of a cane, with the event of its entry. From DOWN, its members are admitted on the next edge (R183); a map
that held lanes has changed (R186). -/
def setCane (k st : Nat) : Prog := .read fun s =>
  block [setF (F.CANE_STAT_state k) st,
    if st = cnDown then
      block [raise (R.CANE_EVENT k) 3, when ((s.cane k).txMap != 0) (raise (R.CANE_EVENT k) 8), setF (F.CANE_STAT_mode k) 0,
        each (bitList 4 (s.admitted k)) fun j => setF (F.PORT_AM_STAT_admitted (2 * k + j)) 0,
        setF (F.CANE_STAT_admitted k) 0,
        updCane k fun x => { x with bond := 0, txMap := 0, formWait := false, lossWait := false, lostLanes := 0, readmit := true }]
    else if st = cnSingle then block [raise (R.CANE_EVENT k) 4, setF (F.CANE_STAT_mode k) (s.pmode (2 * k))]
    else if st = cnDegraded then block [raise (R.CANE_EVENT k) 1, updCane k fun x => { x with formWait := false }]
    else if st = cnUp then
      block [raise (R.CANE_EVENT k) (if s.cst k = cnDegraded then 2 else 0), updCane k fun x => { x with formWait := false }]
    else updCane k fun x => { x with formWait := true }]

/-- Lane j is admitted (R181) and the cane moves under R183. -/
def admitLane (k j : Nat) : Prog := .read fun s =>
  block [setF (F.CANE_STAT_admitted k) (setBit (s.admitted k) j), setF (F.PORT_AM_STAT_admitted (2 * k + j)) 1,
    updPort (2 * k + j) fun x => { x with rejoin := 0 },
    updCane k fun x => { x with lostLanes := clrBit x.lostLanes j },
    when ((s.cane k).bond == 0) (block [updCane k fun x => { x with bond := s.pmode (2 * k + j) },
      setF (F.CANE_STAT_mode k) (s.pmode (2 * k + j))]),
    when (s.cst k == cnDown) (setCane k cnForming),
    .read fun t => when (t.admitted k == t.f (F.CANE_CFG_members k)) (setCane k cnUp),
    upLanes k, reportSkew k, remap k]

/-- Lane j is admitted where every condition holds; a lane that would exceed the skew limit is refused with
skew_excess (R188). -/
def tryAdmit (k j : Nat) : Prog := .read fun s =>
  when (s.laneMeets k j && !bitOf (s.admitted k) j && s.cst k != cnSingle)
    (if s.skewFits k j then admitLane k j else raise (R.CANE_EVENT k) 5)

/-- The edge after a cane entered DOWN: every member that meets every condition is admitted (R183). -/
def caneEdge (k : Nat) : Prog := .read fun s =>
  when (s.cane k).readmit
    (block [updCane k fun x => { x with readmit := false },
      when (s.cst k == cnDown) (each (s.caneLanes k) fun j => tryAdmit k j)])

/-- A lane loses admission (R184) and the cane moves under R183; under the policy down every other member in UP drops
its link with cause 0x06 (R190), which `drop` does, and so loses its admission. -/
def loseLane (k j : Nat) (drop : Nat → Prog) : Prog := .read fun s =>
  when (bitOf (s.admitted k) j)
    (block [setF (F.CANE_STAT_admitted k) (clrBit (s.admitted k) j), setF (F.PORT_AM_STAT_admitted (2 * k + j)) 0,
      updPort (2 * k + j) fun x => { x with rejoin := 0 },
      updCane k fun x => { x with lossWait := true, lostLanes := setBit x.lostLanes j },
      if s.bit (F.CANE_CFG_policy k) || clrBit (s.admitted k) j == 0 then setCane k cnDown
      else when (s.cst k == cnUp) (setCane k cnDegraded),
      when (s.bit (F.CANE_CFG_policy k))
        (each (s.caneLanes k) fun i => .read fun t => when (i != j && t.linkUp (2 * k + i)) (drop (2 * k + i))),
      remap k, upLanes k])

/-- What a member loses with its link: marker lock, and its place among the lanes in UP. -/
def laneDark (p : Nat) : Prog := .read fun s =>
  ifSome (s.caneOf p) fun kj =>
    block [setF (F.PORT_AM_STAT_am_lock p) 0, setF (F.PORT_AM_STAT_tag_ok p) 0,
      updPort p fun x => { x with goodRow := 0, badRow := 0, rejoin := 0 }, upLanes kj.1]

/-- A member's port has left UP (R183, R184). In LPI the member stays admitted, since its state UP or LPI carries the
link (R192). -/
def caneLeftUp (p : Nat) (drop : Nat → Prog) : Prog := .read fun s =>
  ifSome (s.caneOf p) fun kj =>
    block [when (s.cst kj.1 == cnSingle && kj.2 == 0) (setCane kj.1 cnDown), loseLane kj.1 kj.2 drop, laneDark p]

/-- A member's port has entered UP (R181, R183). -/
def caneEnteredUp (p : Nat) : Prog := .read fun s =>
  ifSome (s.caneOf p) fun kj =>
    let k := kj.1
    let j := kj.2
    let bonds := bondMode (s.pmode p) && s.pageValid k j (s.pmode p)
    block [when (!bonds) (raise (R.CANE_EVENT k) 7),
      if s.cst k == cnDown && j == 0 && !bonds then setCane k cnSingle
      else when (s.cst k == cnDown || s.cst k == cnForming) (tryAdmit k j),
      .read fun t => when ((t.cst k == cnUp || t.cst k == cnDegraded) && t.laneMeets k j && !bitOf (t.admitted k) j)
        (updPort p fun x => { x with rejoin := 1 }),
      upLanes k]

/-- A commit changed the mode fields of a member (R183, first row). -/
def caneModeCommit (p : Nat) : Prog := .read fun s =>
  ifSome (s.caneOf p) fun kj => when (s.cst kj.1 != cnDown) (setCane kj.1 cnDown)

/-- A valid alignment marker on a lane (R181, R184, R185, R188): lane index, tag, map, rx_ok, arrival in 0.1 ns, bit
errors of the BIP. Two good markers in a row give marker lock (R169, log entry 12); two bad ones in a row lose it. The spread
of the admitted lanes is checked again (R188; log entry 168). Frames flow again with the first marker whose map holds none of
the lanes lost (R189). -/
def alignmentMarker (p lane tag map rxOk arrival bipErrors : Nat) (drop : Nat → Prog) : Prog := .read fun s =>
  ifSome (s.caneOf p) fun kj =>
    let k := kj.1
    let j := kj.2
    let pageTag := (s.port p).canePage.map fun g => g.1
    let pageLane := (s.port p).canePage.map fun g => g.2.2.1
    let tagOk := decide (pageTag = some tag)
    let good := tagOk && decide (pageLane = some lane)
    when ((s.pst p == stTrain || s.linkUp p) && bondMode (s.pmode p))
      (block [setF (F.PORT_AM_STAT_tag_rx p) tag, setF (F.PORT_AM_STAT_rx_ok_rx p) rxOk,
        setF (F.PORT_AM_STAT_map_rx p) map, setF (F.PORT_AM_STAT_lane_rx p) lane,
        setF (F.PORT_AM_STAT_tag_ok p) (b2n tagOk),
        satAdd (F.CANE_AM_ERR_bip_errors k j) bipErrors,
        updCane k fun x => { x with arrival := x.arrival.put j arrival, rxOk := if good then rxOk else x.rxOk },
        when (good && Nat.land map (s.cane k).lostLanes == 0) (updCane k fun x => { x with lossWait := false, lostLanes := 0 }),
        when (!tagOk) (raise (R.CANE_EVENT k) 6),
        if good then
          block [updPort p fun x => { x with goodRow := min 2 (x.goodRow + 1), badRow := 0 },
            when (decide ((s.port p).goodRow ≥ 1)) (setF (F.PORT_AM_STAT_am_lock p) 1)]
        else
          block [updPort p fun x => { x with goodRow := 0, badRow := min 2 (x.badRow + 1) },
            when (decide ((s.port p).badRow ≥ 1))
              (block [when (s.bit (F.PORT_AM_STAT_am_lock p))
                  (block [setF (F.PORT_AM_STAT_am_lock p) 0, raise (R.PORT_TRK_EVENT p) 1]), loseLane k j drop])],
        .read fun t => when (bitOf (t.admitted k) j && !t.skewFits k j) (block [raise (R.CANE_EVENT k) 5, loseLane k j drop]),
        .read fun t =>
          if t.cst k == cnDown || t.cst k == cnForming then when (t.pst p == stUp) (tryAdmit k j)
          else when (t.laneMeets k j && !bitOf (t.admitted k) j && t.cst k != cnSingle)
            (if (t.port p).rejoin = 2 then tryAdmit k j
             else when ((t.port p).rejoin == 0) (updPort p fun x => { x with rejoin := 1 })),
        .read fun t => when (!t.laneMeets k j) (updPort p fun x => { x with rejoin := 0 }),
        reportSkew k, remap k])

/-- Two consecutive markers of a lane are missed (R184): marker lock and admission are lost. -/
def markerMiss (p : Nat) (drop : Nat → Prog) : Prog := .read fun s =>
  ifSome (s.caneOf p) fun kj =>
    when (s.bit (F.PORT_AM_STAT_am_lock p))
      (block [setF (F.PORT_AM_STAT_am_lock p) 0, raise (R.PORT_TRK_EVENT p) 1,
        updPort p fun x => { x with goodRow := 0, badRow := 0, rejoin := 0 }, loseLane kj.1 kj.2 drop])

/-- form_wait_ms has elapsed in FORMING (R183): under the policy degrade the cane goes DEGRADED. -/
def formWaitExpire (k : Nat) : Prog := .read fun s =>
  when (s.cst k == cnForming && (s.cane k).formWait && !s.bit (F.CANE_CFG_policy k)) (setCane k cnDegraded)

/-- The rejoin hold of a member ends (R184): it is readmitted at its next marker. -/
def rejoinHoldExpire (p : Nat) : Prog := .read fun s =>
  ifSome (s.caneOf p) fun kj =>
    when ((s.port p).rejoin == 1 && s.laneMeets kj.1 kj.2) (updPort p fun x => { x with rejoin := 2 })

end Sys2Proof.Machine
end

