-- ==== Sys2Proof/Machine/Furnace.lean ====
section
/-!
DEFINITION. The furnace: slot map, usable slots, coefficient store, allocator (R200 to R226), and the bundle cancellers
(R227 to R235).
-/
namespace Sys2Proof.Machine

/-- Port cost of a mode in slots (R201). -/
def portCost (m : Nat) : Nat :=
  match m with
  | 7 => 48 | 6 => 24 | 5 => 8 | 4 => 4 | 3 => 2 | 2 => 1 | 1 => 1 | _ => 0

/-- Boost limit and boost step of a mode in slots (R201). -/
def boostLimit (m : Nat) : Nat :=
  match m with
  | 7 => 24 | 6 => 12 | 5 => 4 | 4 => 2 | 3 => 1 | _ => 0
def boostStep (m : Nat) : Nat :=
  match m with
  | 7 => 8 | 6 => 4 | _ => 1

/-- Canceller cost of a victim's mode in slots (R201). -/
def cancelCost (m : Nat) : Nat :=
  match m with
  | 7 => 8 | 6 => 4 | 5 => 2 | _ => 1

/-- The owner codes of the slot map and the store: port p, or 4096 + (b × 64 + i) for pair i of bundle b. -/
def cancelOwner (b i : Nat) : Nat := 4096 + b * 64 + i

/-- The owner that a half word of FUR.SLOT names (R208). -/
def ownerOf (kind index : Nat) : Option Nat :=
  if kind = 1 then some index else if kind = 2 then some (4096 + index) else none

/-- The owner is a port or a canceller: a written map can name port indices that no port has (R211). -/
def realOwner (o : Nat) : Bool := decide (o < 64 ∨ 4096 ≤ o)

/-- The slots that name an owner in a list of FUR.SLOT words: slot number and owner (R208). -/
def slotsIn (m : SMap Word) : List (Nat × Nat) :=
  m.foldr (fun e t =>
    let n := (e.1 - 0x84000) / 4 * 2
    let lo := (ownerOf (bits e.2 15 14) (bits e.2 9 0)).map fun o => (n, o)
    let hi := (ownerOf (bits e.2 31 30) (bits e.2 25 16)).map fun o => (n + 1, o)
    lo.toList ++ hi.toList ++ t) []

/-- The slot map in force: the listed words of FUR.SLOT, since an unlisted word is free. -/
def State.slots (s : State) : List (Nat × Nat) := slotsIn (s.regs.within 0x84000 0x84800)

/-- Whether a slot lies on a dead pot (R221). -/
def State.slotDead (s : State) (n : Nat) : Bool := bitOf (s.f (F.FUR_QTR_DEAD_dead (n / 256))) (n % 256 / 8)

/-- Slots of an owner in a quarter of a slot map, dead pots left out. -/
def countIn (s : State) (map : List (Nat × Nat)) (owner q : Nat) : Nat :=
  (map.filter fun e => e.2 == owner && e.1 / 256 == q && !s.slotDead e.1).length

/-- The at most two quarters whose slots count for a port (R202): those that hold most, a tie to the lower. -/
def twoQuarters (counts : List (Nat × Nat)) : List (Nat × Nat) :=
  let held := counts.filter fun c => decide (c.2 > 0)
  held.filter fun c => decide ((held.filter fun d => decide (d.2 > c.2 ∨ (d.2 = c.2 ∧ d.1 < c.1))).length < 2)

/-- The quarters of a port's usable slots with their counts, rising, on a slot map (R202). -/
def usableOn (s : State) (map : List (Nat × Nat)) (owner : Nat) : List (Nat × Nat) :=
  twoQuarters ((List.range 4).map fun q => (q, countIn s map owner q))

/-- The quarters of a port's usable slots in force (R202). -/
def State.usable (s : State) (p : Nat) : List (Nat × Nat) := usableOn s s.slots p

/-- A port's usable slots (R202). -/
def State.usableTotal (s : State) (p : Nat) : Nat := (s.usable p).foldl (fun n c => n + c.2) 0

/-- A mode fits a port (R204); a segment needs no slots. -/
def State.fits (s : State) (p m : Nat) : Bool := decide (portCost m ≤ s.usableTotal p)

/-- The boost in force in a mode (R203). -/
def State.boost (s : State) (p m : Nat) : Nat :=
  if s.fits p m then min (s.usableTotal p - portCost m) (boostLimit m) / boostStep m * boostStep m else 0

/-- The advertised modes that also fit (R129, R204). -/
def State.offeredFit (s : State) (p : Nat) : Nat :=
  (List.range 8).foldl (fun m i => if bitOf m i && !s.fits p i then clrBit m i else m) (s.offered p)

/-- The forced mode of R125 after R119, R129 and R204; 0 where the class lacks it, it is excluded or it does not fit. -/
def State.forcedFit (s : State) (p : Nat) : Nat :=
  let m := s.f (F.PORT_MODE_CFG_forced_mode p)
  if !bitOf (classModes (portClass p)) m || bitOf (s.f (F.PORT_STATE_excluded p)) m || !s.fits p m then 0 else m

/-- The usable slots of canceller i of bundle b: those in its quarter (R202). -/
def State.pairSlots (s : State) (b i : Nat) : Nat := countIn s s.slots (cancelOwner b i) (s.f (F.BND_CFG_quarter b))

/-! The coefficient store (R214 to R217). -/

/-- The mode of an owner's record in a quarter, if it has one. -/
def State.record (s : State) (q owner : Nat) : Option Nat := s.fur.records.get? (q * 65536 + owner)

/-- The mode in which a port has stored coefficients (R214): every quarter of its usable slots holds a record of it in
that mode. -/
def State.storedMode (s : State) (p : Nat) : Option Nat :=
  match s.usable p with
  | [] => none
  | c :: t =>
    match s.record c.1 p with
    | some m => if t.all fun d => s.record d.1 p == some m then some m else none
    | none => none

/-- Write an owner's record in the quarters that hold its slots. -/
def writeRecord (owner mode : Nat) (quarters : List Nat) : Prog :=
  updFur fun x => { x with records := quarters.foldl (fun m q => m.put (q * 65536 + owner) mode) x.records }

/-- Clear an owner's record in every quarter. -/
def clearRecord (owner : Nat) : Prog :=
  updFur fun x => { x with records := x.records.filter fun e => e.1 % 65536 != owner }

/-- Clear every record of a quarter (R216). -/
def clearQuarter (q : Nat) : Prog :=
  updFur fun x => { x with records := x.records.without (q * 65536) (q * 65536 + 65536) }

/-! Bundles. -/

/-- The port at position k of bundle b, where occupied (R227). -/
def State.member (s : State) (b k : Nat) : Option Nat :=
  let w := s.reg (if k < 4 then R.BND_MEMBERS_LO b else R.BND_MEMBERS_HI b)
  if bits w (8 * (k % 4) + 7) (8 * (k % 4) + 7) = 1 then some (bits w (8 * (k % 4) + 5) (8 * (k % 4))) else none

/-- The members of a bundle: position and port. -/
def State.members (s : State) (b : Nat) : List (Nat × Nat) :=
  (List.range 8).filterMap fun k => (s.member b k).map fun p => (k, p)

/-- The bundle of a port, if any. -/
def State.bundleOf (s : State) (p : Nat) : Option Nat :=
  (List.range 16).find? fun b => s.bit (F.BND_CFG_valid b) && (s.members b).any fun m => m.2 == p

/-- Whether a ledger booking of a TDR, a sweep, a near-end loop or a converter stage holds a port (R229, R263). -/
def State.heldByLedger (s : State) (p : Nat) : Bool :=
  s.ledger.books.any fun b => (b.act == 1 || b.act == 2 || b.act == 3 || b.act == 4 || b.act == 5) && b.ports.contains p

/-- Whether a port is asleep for its bundle (R229). -/
def State.asleep (s : State) (p : Nat) : Bool := s.pst p == stSleep || s.pst p == stDisabled

/-- The bundle states of R229, as BND[b].STAT.state codes. -/
def bnDisagree : Nat := 0
def bnOff : Nat := 1
def bnFrozen : Nat := 2
def bnConverging : Nat := 3
def bnActive : Nat := 4

/-- What R229 finds of a bundle: held and agreeing positions, and the modes of members in UP or LPI. -/
structure BundleView where
  held : Nat
  up : Nat
  modes : List Nat
  disagree : Bool

/-- Sort the members of a bundle (R229). A member held by the ledger is held in any port state. -/
def State.bundleView (s : State) (b : Nat) : BundleView :=
  let ms := s.members b
  let held := ms.filter fun m => s.heldByLedger m.2
  let rest := ms.filter fun m => !s.heldByLedger m.2 && !s.asleep m.2
  let ups := rest.filter fun m => s.linkUp m.2
  { held := held.foldl (fun n m => setBit n m.1) 0
    up := ups.foldl (fun n m => setBit n m.1) 0
    modes := ups.map fun m => s.pmode m.2
    disagree := rest.any (fun m => !s.linkUp m.2) || match ups with
      | [] => false
      | m :: t => t.any fun n => s.pmode n.2 != s.pmode m.2 }

/-- The common mode of a bundle (R229); 0 = none. -/
def BundleView.common (v : BundleView) : Nat := if v.disagree then 0 else v.modes.headD 0

/-- The bundle state before its cancellers are looked at: CONVERGING stands for CONVERGING or ACTIVE. -/
def State.bundleBase (s : State) (b : Nat) : Nat :=
  let v := s.bundleView b
  if v.disagree then bnDisagree
  else if popcount 8 v.held + popcount 8 v.up < 2 then bnOff
  else if v.held != 0 || s.bit (F.BND_CTL_freeze b) then bnFrozen
  else bnConverging

/-- A port is in LPI quiet in one direction or both, outside a refresh (R207, R230, R312, R317). -/
def State.portQuiet (s : State) (p : Nat) : Bool :=
  s.linkUp p && (s.bit (F.PORT_LPI_STAT_tx_lpi p) || s.bit (F.PORT_LPI_STAT_rx_lpi p)) && decide ((s.port p).refreshUntil ≤ s.now)

/-- A port's receiver is in LPI quiet: rx_lpi outside a refresh (R207, R317). -/
def State.receiverQuiet (s : State) (p : Nat) : Bool :=
  s.linkUp p && s.bit (F.PORT_LPI_STAT_rx_lpi p) && decide ((s.port p).refreshUntil ≤ s.now)

/-- Section i of a port adapts (R206, R207): 0 = echo canceller, 1 = FFE, 2 = DFE, 3 = baseline wander, as the freeze bits of FUR.ADAPT
that are in effect. It does in TRAIN, and in UP and LPI while the receiver is not quiet. A frozen section keeps its coefficients. -/
def State.sectionAdapts (s : State) (p i : Nat) : Bool :=
  (s.pst p == stTrain || s.linkUp p) && !(s.port p).returned && !bitOf (s.port p).frozen i && !s.receiverQuiet p

/-- The exponent n of the step size 2^-n with which a port's sections track in UP and in LPI refresh (R206); in TRAIN the training
sequence of the mode gives the step sizes. -/
def State.trackExponent (s : State) (p : Nat) : Option Nat :=
  if s.linkUp p && !s.receiverQuiet p then some (12 + s.f (F.FUR_ADAPT_track_mu p)) else none

/-- The slots that serve a port in its mode: of its usable slots as many as cost and boost say, the lowest numbers (log entry 139);
the rest stay idle (R203). -/
def State.serving (s : State) (p : Nat) : List Nat :=
  let u := (s.usable p).map (·.1)
  ((s.slots.filter fun e => e.2 == p && u.contains (e.1 / 256) && !s.slotDead e.1).map (·.1)).take (portCost (s.pmode p) + s.boost p (s.pmode p))

/-- The slots that serve canceller i of bundle b in the common mode: its usable slots, as many as the mode costs (R201, R202, R230). -/
def State.pairServing (s : State) (b i : Nat) : List Nat :=
  ((s.slots.filter fun e => e.2 == cancelOwner b i && e.1 / 256 == s.f (F.BND_CFG_quarter b) && !s.slotDead e.1).map (·.1)).take
    (cancelCost (s.bundleView b).common)

/-- The canceller states of R230, as PAIR_STAT.state codes. -/
def pcNone : Nat := 0
def pcDisabled : Nat := 1
def pcNoSlots : Nat := 2
def pcIdle : Nat := 3
def pcHeld : Nat := 4
def pcFrozen : Nat := 5
def pcConverging : Nat := 6
def pcActive : Nat := 7

/-- The state of canceller i of bundle b (R230): the first row that applies. -/
def State.pairState (s : State) (b i : Nat) : Nat :=
  let base := s.bundleBase b
  let common := (s.bundleView b).common
  let agg := (s.member b (s.f (F.BND_PAIR_CFG_aggressor b i))).getD 64
  let vic := (s.member b (s.f (F.BND_PAIR_CFG_victim b i))).getD 64
  let x := (s.bnd b).pairs.getD i {}
  if s.f (F.BND_PAIR_CFG_kind b i) = 0 then pcNone
  else if base = bnDisagree ∨ base = bnOff then pcDisabled
  else if common ≠ 0 ∧ s.pairSlots b i < cancelCost common then pcNoSlots
  else if (s.asleep agg && !s.heldByLedger agg) || (s.asleep vic && !s.heldByLedger vic) || !s.bit (F.BND_PAIR_CFG_en b i)
    then pcIdle
  else if s.heldByLedger agg || s.heldByLedger vic then pcHeld
  else if base = bnFrozen || s.portQuiet agg || s.portQuiet vic then pcFrozen
  else if x.started && x.met then pcActive
  else pcConverging

/-- Canceller i takes its state (R230, R231, R233): a canceller that leaves DISABLED or NO_SLOTS starts anew, from its record where
that is tagged with the common mode and from zero otherwise; in IDLE, HELD or FROZEN it keeps its coefficients. -/
def refreshPair (b i : Nat) : Prog := .read fun s =>
  let st := s.pairState b i
  let old := s.f (F.BND_PAIR_STAT_state b i)
  let common := (s.bundleView b).common
  let x := (s.bnd b).pairs.getD i {}
  let x' : PairX :=
    if st = pcDisabled ∨ st = pcNoSlots ∨ st = pcNone then { x with started := false, met := false, depths := [] }
    else if st = pcConverging then
      if x.started then { x with adapted := common }
      else { adapted := common, started := true, fromRecord := s.record (s.f (F.BND_CFG_quarter b)) (cancelOwner b i) == some common, met := false, depths := [] }
    else x
  block [setF (F.BND_PAIR_STAT_state b i) st,
    when (st != pcConverging && st != pcActive && st != pcFrozen) (setF (F.BND_PAIR_STAT_depth b i) 0),
    when (decide (st = pcNoSlots) && old != pcNoSlots) (raise (R.BND_EVENT b) 3),
    updBnd b fun y => { y with pairs := y.pairs.putD i x' {} }]

/-- A bundle that leaves ACTIVE, CONVERGING or FROZEN for DISAGREE writes the records of its cancellers that hold
coefficients of the common mode of that moment (R215). -/
def recordBundle (b mode : Nat) : Prog := .read fun s =>
  each (List.range (s.f (F.BND_CFG_pairs b))) fun i =>
    let st := s.f (F.BND_PAIR_STAT_state b i)
    let x := (s.bnd b).pairs.getD i {}
    when ((st == pcHeld || st == pcFrozen || st == pcConverging || st == pcActive ||
        (st == pcIdle && x.adapted == mode && mode != 0)) && mode != 0)
      (writeRecord (cancelOwner b i) mode [s.f (F.BND_CFG_quarter b)])

/-- The longest time a start of a canceller takes (R231), in µs, by the victim's mode and whether it began from the record. -/
def convergeUs (mode : Nat) (fromRecord : Bool) : Nat :=
  let t := if 6 ≤ mode then 4000 else if 3 ≤ mode then 6000 else 10000
  if fromRecord then t / 10 else t

/-- The records of the cancellers whose slots lie in a quarter are written, each in the mode its coefficients adapted in, DISABLED
cancellers included (R215). -/
def recordQuarter (q : Nat) : Prog := .read fun s =>
  each (List.range 16) fun b => when (s.bit (F.BND_CFG_valid b) && s.f (F.BND_CFG_quarter b) == q)
    (each (List.range (s.f (F.BND_CFG_pairs b))) fun i =>
      let m := ((s.bnd b).pairs.getD i {}).adapted
      when (m != 0 && decide (0 < s.pairSlots b i)) (writeRecord (cancelOwner b i) m [q]))

/-- A bundle and its cancellers take the states that R229 and R230 give at this edge. -/
def refreshBundle (b : Nat) : Prog := .read fun s =>
  when (s.bit (F.BND_CFG_valid b) && !(s.bnd b).hold)
    (let base := s.bundleBase b
     let v := s.bundleView b
     let old := s.f (F.BND_STAT_state b)
     block [when (decide (base = bnDisagree) && (old == bnActive || old == bnConverging || old == bnFrozen))
         (recordBundle b (s.f (F.BND_STAT_mode b))),
       each (List.range (s.f (F.BND_CFG_pairs b))) (refreshPair b),
       .read fun t =>
         let now := if base = bnConverging then
             (if (List.range (t.f (F.BND_CFG_pairs b))).any fun i => t.f (F.BND_PAIR_STAT_state b i) == pcConverging
              then bnConverging else bnActive)
           else base
         block [setF (F.BND_STAT_state b) now, setF (F.BND_STAT_held b) v.held,
           setF (F.BND_STAT_agreeing b) (if v.modes.all (fun m => m == v.modes.headD 0) then v.up else 0),
           setF (F.BND_STAT_mode b) (if now = bnDisagree ∨ now = bnOff then 0 else v.common),
           when (now != old && decide (now = bnActive)) (raise (R.BND_EVENT b) 0),
           when (now != old && (decide (now = bnDisagree) || decide (now = bnOff))) (raise (R.BND_EVENT b) 1),
           when (now != old && decide (now = bnFrozen)) (raise (R.BND_EVENT b) 2)]])

/-- The edge of R234 is over: the bundle follows R229 again. -/
def bundleEdge (b : Nat) : Prog := .read fun s =>
  when (s.bnd b).hold (block [updBnd b fun y => { y with hold := false }, refreshBundle b])

/-- Every bundle takes its state. -/
def refreshBundles : Prog := each (List.range 16) refreshBundle

/-- The bundle of a port takes its state. -/
def refreshBundleOf (p : Nat) : Prog := .read fun s => ifSome (s.bundleOf p) refreshBundle

end Sys2Proof.Machine
end

