-- ==== Sys2Proof/Machine/CalSets.lean ====
section
/-!
DEFINITION. Calibration sets: their limits, their acceptance, and how they come into force (R258 to R274, R283).
-/
namespace Sys2Proof.Machine

/-- The banks of a set: in force, pending (R271), the attic image, the birth values, accepted for another family (R274),
the image that a running attic write programs (R282). -/
def bkActive : Nat := 0
def bkPending : Nat := 1
def bkAttic : Nat := 2
def bkBirth : Nat := 3
def bkStore : Nat := 4
def bkWriting : Nat := 5

/-- The store key of a set. -/
def calKey (bank p kind fam : Nat) : Nat := ((bank * 64 + p) * 16 + kind) * 4 + fam

/-- The family of a mode (R259); 3 = none. -/
def familyOf (mode : Nat) : Nat :=
  if mode = 7 ∨ mode = 6 then 0 else if 3 ≤ mode ∧ mode ≤ 5 then 1 else if mode = 1 ∨ mode = 2 then 2 else 3

/-- The per-family kinds of R258. -/
def perFamily (kind : Nat) : Bool := kind == 3 || kind == 6

/-- The numeric kinds; 0x4 and 0x5 are structural. -/
def numericKind (kind : Nat) : Bool := kind != 4 && kind != 5

/-- The number of elements of a kind on a port (R258). -/
def elements (p kind : Nat) : Nat :=
  match portClass p, kind with
  | .segment, 8 => 1
  | .segment, _ => 0
  | c, k =>
    let n := if c = .trunk then 32 else 8
    if k = 1 ∨ k = 2 ∨ k = 3 then n else if k = 4 then 17 * n else if k = 5 then 72 else if k = 6 ∨ k = 7 then 1 else 0

/-- The limits of a kind (R267): plausible range, full-anneal change, verify change, background step, residual. -/
structure KindLimits where
  lo : Int
  hi : Int
  full : Int
  verify : Int
  step : Int
  resid : Nat

def kindLimits (kind : Nat) : KindLimits :=
  match kind with
  | 1 => ⟨-512, 512, 64, 16, 4, 4⟩
  | 2 => ⟨-328, 328, 41, 8, 2, 6⟩
  | 3 => ⟨-160, 160, 20, 6, 2, 6⟩
  | 4 => ⟨0, 1, 0, 0, 0, 8⟩
  | 5 => ⟨0, 1, 0, 0, 0, 8⟩
  | 6 => ⟨8, 56, 8, 3, 1, 320⟩
  | 7 => ⟨4, 27, 4, 2, 1, 48⟩
  | _ => ⟨-256, 256, 32, 8, 4, 8⟩

/-- Which change limit applies (R267). -/
inductive CalPhase where | full | verify | background
deriving DecidableEq, Repr

/-- The default value of element i of a kind (R268). -/
def calDefault (kind i : Nat) : Int :=
  match kind with
  | 4 => if i % 17 < 15 then 1 else 0
  | 5 => if i < 64 then 1 else 0
  | 6 => 32
  | 7 => 16
  | _ => 0

/-- Element i of a set. -/
def setVal (c : CalSet) (i : Nat) : Int := (c.vals[i]?).getD 0

/-- The elements in which two value lists differ. -/
def differing (a b : List Int) : List Nat := (List.range a.length).filter fun i => (a[i]?).getD 0 != (b[i]?).getD 0

/-- Whether element i meets its plausible range (R267). A sub-ADC's map is judged at its comparator 0, the cell map at
cell 0. -/
def setPlausible (c : CalSet) (i : Nat) : Bool :=
  let l := kindLimits c.kind
  decide (l.lo ≤ setVal c i ∧ setVal c i ≤ l.hi) &&
    (if c.kind = 4 ∧ i % 17 = 0 then ((c.vals.drop i).take 17).sum == 15
     else if c.kind = 5 ∧ i = 0 then c.vals.sum == 64 else true)

/-- Whether element i meets its change limit against a reference (R267). -/
def setChangeOk (c : CalSet) (phase : CalPhase) (ref : List Int) (i : Nat) : Bool :=
  let l := kindLimits c.kind
  if numericKind c.kind then
    decide ((setVal c i - (ref[i]?).getD 0).natAbs ≤ (match phase with
      | .full => l.full | .verify => l.verify | .background => l.step).toNat)
  else match phase with
    | .full => true
    | .verify => setVal c i == (ref[i]?).getD 0
    | .background => decide ((differing c.vals ref).length ≤ 2) || (differing c.vals ref).head? != some i

/-- The reason code for which element i fails (R268, R270), if it does. -/
def setElemFail (c : CalSet) (phase : CalPhase) (ref : Option (List Int)) (i : Nat) : Option Nat :=
  if !setPlausible c i then some 1
  else if (match ref with | some r => !setChangeOk c phase r i | none => false) then some 2
  else if !(c.short && phase == .full) && decide ((kindLimits c.kind).resid < (c.resid[i]?).getD 0) then some 3
  else none

/-- The first failing element of a set and its reason. -/
def setFailure (c : CalSet) (phase : CalPhase) (ref : Option (List Int)) : Option (Nat × Nat) :=
  (List.range c.vals.length).findSome? fun i => (setElemFail c phase ref i).map fun r => (i, r)

/-- The set of a bank, if it has one. -/
def State.calSet (s : State) (bank p kind fam : Nat) : Option CalSet :=
  s.cal.sets.get? (calKey bank p kind (if perFamily kind then fam else 0))

/-- The values in force of a kind: its active set, or the default. -/
def State.calActive (s : State) (p kind fam : Nat) : List Int :=
  match s.calSet bkActive p kind fam with
  | some c => c.vals
  | none => (List.range (elements p kind)).map (calDefault kind)

/-- A set is hitless against the one in force (R271). -/
def State.hitless (s : State) (p : Nat) (c : CalSet) : Bool :=
  numericKind c.kind && (List.range c.vals.length).all fun i => setChangeOk c .background (s.calActive p c.kind c.family) i

/-- The sets of a bank of a port: their keys and values. -/
def State.bankSets (s : State) (bank p : Nat) : List (Nat × CalSet) :=
  s.cal.sets.within (calKey bank p 0 0) (calKey bank p 0 0 + 64)

/-- The largest of a list of (residual fraction, kind), the first of equals. -/
def worstOf : List (Nat × Nat) → Nat × Nat
  | [] => (0, 0)
  | x :: t => let y := worstOf t; if y.1 ≤ x.1 then x else y

/-- CAL.PORT_QUAL and the pending bits of CAL.PORT_STAT follow the banks. -/
def calRefresh (p : Nat) : Prog := .read fun s =>
  let act := s.bankSets bkActive p
  let pend := s.bankSets bkPending p
  let worst := worstOf (act.map fun e =>
    (e.2.resid.foldl max 0 * 256 / (kindLimits e.2.kind).resid, e.2.kind))
  let comps := match s.calSet bkActive p 4 0 with
    | some c => (List.range (c.vals.length / 17)).map fun k => 2 - (setVal c (17 * k + 15) + setVal c (17 * k + 16)).toNat
    | none => []
  block [
    setF (F.CAL_PORT_QUAL_worst_resid p) (if act.isEmpty then 0xFFFF else min worst.1 0xFFFE),
    setF (F.CAL_PORT_QUAL_worst_kind p) (if act.isEmpty then 0 else worst.2),
    ifSome (s.calSet bkActive p 5 0) fun c => setF (F.CAL_PORT_QUAL_dac_spares p) (min 8 c.spares),
    when (!comps.isEmpty) (setF (F.CAL_PORT_QUAL_comp_spares_min p) (comps.foldl min 2)),
    setF (F.CAL_PORT_STAT_pending p) (b2n (!pend.isEmpty)),
    setF (F.CAL_PORT_STAT_pending_struct p) (b2n (pend.any fun e => !s.hitless p e.2))]

/-- Word 1 of CAL_REJECT and AGING (R270). -/
def calWord1 (p : Nat) (c : CalSet) (i : Nat) : Nat :=
  i * 2 ^ 18 + (if perFamily c.kind then c.family else 0) * 2 ^ 16 + p

/-- A rejection (R268, R270). -/
def calReject (p : Nat) (c : CalSet) (i reason : Nat) : Prog :=
  block [emit 0x14 0x13 1 (reason * 512 + c.kind * 32) (calWord1 p c i), satAdd F.CAL_REJECTS_count 1, raise R.CAL_EVENT 2]

/-- An aging note, once per element and condition in a power cycle (R283). -/
def calAge (p : Nat) (c : CalSet) (i reason : Nat) : Prog := .read fun s =>
  let key := (calKey reason p c.kind (if perFamily c.kind then c.family else 0)) * 1024 + i
  when (!s.cal.aged.contains key)
    (block [updCal fun x => { x with aged := key :: x.aged },
      emit 0x14 0x17 0 (reason * 512 + c.kind * 32) (calWord1 p c i), raise R.CAL_EVENT 3])

/-- The aging conditions of a set (R283). -/
def calAging (p : Nat) (c : CalSet) : Prog :=
  let l := kindLimits c.kind
  if numericKind c.kind then
    each (List.range c.vals.length) fun i =>
      when (decide (3 * (l.hi - l.lo) < 4 * (2 * setVal c i - (l.lo + l.hi)).natAbs)) (calAge p c i 1)
  else if c.kind = 5 then when (decide (c.spares ≤ 2)) (calAge p c 0 2)
  else each (List.range (c.vals.length / 17)) fun k =>
    when (setVal c (17 * k + 15) == 1 && setVal c (17 * k + 16) == 1) (calAge p c (17 * k) 3)

/-- An accepted set takes its bank (R271 to R274): in force outside UP and LPI, pending in UP and LPI, kept for the next
TRAIN where its family is not the one in use. -/
def calPlace (p : Nat) (c : CalSet) : Prog := .read fun s =>
  let fam := if perFamily c.kind then c.family else 0
  let other := perFamily c.kind && s.pmode p != 0 && familyOf (s.pmode p) != c.family
  let bank := if other then bkStore else if s.linkUp p then bkPending else bkActive
  block [updCal fun x => { x with
      sets := (if bank = bkActive then x.sets.del (calKey bkPending p c.kind fam) else x.sets).put (calKey bank p c.kind fam) c,
      waited := x.waited.filter fun k => k != calKey bkPending p c.kind fam },
    calRefresh p]

/-- Flash offset of an attic copy. -/
def atticBase (copy : Nat) : Nat := if copy = 0 then 0x600000 else 0x620000

/-- Copy one bank of every port to another. -/
def bankCopy (src dst : Nat) : Prog := updCal fun x => { x with
  sets := ((x.sets.within (calKey src 0 0 0) (calKey (src + 1) 0 0 0)).foldl
    (fun m e => m.put (e.1 - calKey src 0 0 0 + calKey dst 0 0 0) e.2)
    (x.sets.without (calKey dst 0 0 0) (calKey (dst + 1) 0 0 0))) }

/-- ATTIC_WRITE (R281, R282): the sets in force are taken, the older copy is erased. -/
def atticWrite : Prog := .read fun s =>
  when (!s.bit F.CAL_ATTIC_CTL_write)
    (block [setF F.CAL_ATTIC_CTL_write 1, updCal fun x => { x with atticAt := some s.now }, bankCopy bkActive bkWriting,
      .act (.flashErase (atticBase (1 - s.cal.newer)) 0x20000)])

/-- The firmware, while it runs, writes the attic on an occasion of its own (R281). -/
def atticOccasion : Prog := .read fun s => when (s.power.gaffer && !s.power.halted) atticWrite

/-- Whether a set in force differs from the newer copy (R281). -/
def State.atticStale (s : State) : Bool :=
  (s.cal.sets.within (calKey bkActive 0 0 0) (calKey (bkActive + 1) 0 0 0)).any fun e =>
    (s.cal.sets.get? (e.1 - calKey bkActive 0 0 0 + calKey bkAttic 0 0 0)).map (·.vals) != some e.2.vals

/-- The occasion after a full anneal (R281): it is done, and the line stage of every enabled port's top family has ended. -/
def atticAfterAnneal : Prog := .read fun s =>
  when (s.cal.atticDue && s.f F.CAL_STAT_anneal == 2 && allPorts.all fun p => !s.portEnabled p || portClass p == .segment
      || bitOf (s.f (F.CAL_PORT_STAT_families p)) (familyOf (s.topMode p)))
    (block [updCal fun x => { x with atticDue := false }, atticOccasion])

/-- The occasion after an accepted structural set (R281), at most once every attic_min_h hours. -/
def atticAfterStruct : Prog := .read fun s =>
  when (s.f F.CAL_STAT_anneal != 1 && !s.cal.atticDue && (match s.cal.atticAt with
      | some t => decide (t + s.f F.CAL_CFG_attic_min_h * 3600 * 10 ^ 9 ≤ s.now)
      | none => true)) atticOccasion

/-- A measured set is checked whole (R267, R268) and accepted or rejected; a full anneal takes the best map of R269
without the residual check and notes it. A set that does not belong to the port is no measurement. -/
def calOffer (p : Nat) (phase : CalPhase) (ref : Option (List Int)) (c : CalSet) : Prog := .read fun s =>
  let fam := if perFamily c.kind then c.family else 0
  when (decide (0 < elements p c.kind) && c.vals.length == elements p c.kind && decide (fam < 3))
    (match setFailure c phase ref with
     | some (i, r) => calReject p c i r
     | none => block [
         when (c.short && phase == .full) (emit 0x14 0x13 2 (4 * 512 + c.kind * 32) (calWord1 p c 0)),
         when ((s.calSet bkBirth p c.kind fam).isNone)
           (updCal fun x => { x with sets := x.sets.put (calKey bkBirth p c.kind fam) c }),
         setF (F.CAL_PORT_TIME_accept_s p) (s.tbSec % 2 ^ 32), calAging p c, calPlace p c,
         when (!numericKind c.kind) atticAfterStruct])

/-- Whether every set of a list would be accepted. -/
def allAccepted (l : List CalSet) (phase : CalPhase) (ref : CalSet → Option (List Int)) : Bool :=
  l.all fun c => (setFailure c phase (ref c)).isNone

/-- Sets of a bank that meet a condition come into force. -/
def calMove (p bank : Nat) (c : State → CalSet → Bool) : Prog := .read fun s =>
  let l := (s.bankSets bank p).filter fun e => c s e.2
  when (!l.isEmpty)
    (block [updCal fun x => { x with
        sets := l.foldl (fun m e => (m.del e.1).put (e.1 - calKey bank p 0 0 + calKey bkActive p 0 0) e.2) x.sets,
        waited := x.waited.filter fun k => !l.any fun e => e.1 == k },
      calRefresh p])

/-- The quiet boundary of R271: outside UP and LPI every pending set comes into force at once (R273). -/
def calQuiet (p : Nat) : Prog := .read fun s => when (!s.linkUp p) (calMove p bkPending fun _ _ => true)

/-- A port that trains in a family takes the sets kept for it (R274). -/
def calFamily (p mode : Nat) : Prog := calMove p bkStore fun _ c => c.family == familyOf mode

/-- PENDING_SET_APPLY (R271): a boundary comes, and the pending sets it admits come into force. -/
def pendingSetApply (p : Nat) (b : Boundary) : Prog := .read fun s =>
  match b with
  | .quiet => calQuiet p
  | .lpi => when (s.pst p == stLpi) (calMove p bkPending fun _ _ => true)
  | .idleGap => when (s.pst p == stUp) (calMove p bkPending fun _ _ => true)
  | .codeword => when (s.pst p == stUp) (calMove p bkPending fun t c => t.hitless p c)

/-- STRUCT_WAIT (R272): a non-hitless pending set has waited struct_wait_s; raised once for it. -/
def structWait (p kind fam : Nat) : Prog := .read fun s =>
  let k := calKey bkPending p kind (if perFamily kind then fam else 0)
  match s.cal.sets.get? k with
  | some c => when (!s.hitless p c && !s.cal.waited.contains k)
      (block [raise R.CAL_EVENT 4, updCal fun x => { x with waited := k :: x.waited }])
  | none => .skip

/-- BACKGROUND_ANNEAL_OFFER (R266): one new set per kind for the family in use, on a port in UP or in LPI refresh that
no booking holds. -/
def backgroundOffer (p : Nat) (sets : List CalSet) : Prog := .read fun s =>
  when (s.linkUp p && !s.heldByLedger p && !s.portQuiet p)
    (each (sets.filter fun c => !perFamily c.kind || c.family == familyOf (s.pmode p)) fun c => .read fun t =>
      calOffer p .background (some (t.calActive p c.kind c.family)) c)

/-- The verify anneal of a warm start begins (R264): it ends once every enabled port has been checked. -/
def verifyBegin : Prog := .read fun s =>
  let ps := allPorts.filter s.portEnabled
  block [updCal fun x => { x with verify := ps }, setF F.CAL_STAT_anneal (if ps.isEmpty then 4 else 3), when ps.isEmpty (raise R.CAL_EVENT 1)]

/-- A port has been checked (R264). -/
def verifyEnds (p : Nat) : Prog := .read fun s =>
  when (s.cal.verify.contains p)
    (block [updCal fun x => { x with verify := x.verify.erase p },
      when (s.cal.verify == [p]) (block [setF F.CAL_STAT_anneal 4, raise R.CAL_EVENT 1])])

/-- The families whose line kinds are stored (R265): their first TRAIN refines them against what is stored. -/
def State.storedFamilies (s : State) (p : Nat) : Nat :=
  maskOf ((List.range 3).map fun f => (s.calSet bkActive p 6 f).isSome && (s.calSet bkActive p 7 0).isSome)

/-- The sets that a TRAIN has measured (R261, R265): a line stage that is still due for the family, and the refinement
after a verify anneal. They come into force at once, the port not being in UP. -/
def trainSets (p mode : Nat) (sets : List CalSet) : Prog := .read fun s =>
  let fam := familyOf mode
  let due := !bitOf (s.f (F.CAL_PORT_STAT_families p)) fam
  block [each (sets.filter fun c => !perFamily c.kind || c.family == fam) fun c => .read fun t =>
      if (c.kind == 6 || c.kind == 7) && due then
        calOffer p .full ((t.calSet bkAttic p c.kind fam).map (·.vals)) c
      else when (s.cal.refine.contains p && numericKind c.kind)
        (calOffer p .verify (some (t.calActive p c.kind fam)) c),
    when (decide (fam < 3)) (setFBit (F.CAL_PORT_STAT_families p) fam true),
    updCal fun x => { x with refine := x.refine.filter fun q => q != p }, atticAfterAnneal]

end Sys2Proof.Machine
end

