-- ==== Sys2Proof/Machine/Shelf.lean ====
section
/-!
DEFINITION. Insertion loss, fingerprints and the shelf (R300 to R306).
-/
namespace Sys2Proof.Machine

/-! Insertion loss. -/

/-- The X50 limit of R167 for a boost, 0.1 dB. -/
def x50Limit (boost : Nat) : Nat :=
  if boost < 8 then 220 else if boost < 16 then 247 else if boost < 24 then 273 else 300

/-- An insertion-loss estimate is written with its limit; il_high is raised when it rises above the level (R300). The
limit of a standard mode is that of its clause, given with the estimate. -/
def ilWrite (p loss clauseLimit : Nat) : Prog := .read fun s =>
  let limit := if s.pmode p = 7 then x50Limit (s.boost p 7) else clauseLimit
  let high := decide (limit < loss + s.f F.DIAG_IL_CFG_margin)
  when (decide (portClass p ≠ .segment))
    (block [setF (F.DIAG_IL_estimate p) loss, setF (F.DIAG_IL_limit p) limit, setF (F.DIAG_IL_valid p) 1,
      when (high && !s.diag.high.contains p) (raise R.DIAG_EVENT 4),
      updDiag fun x => { x with high := if high then p :: x.high.filter (· != p) else x.high.filter (· != p) }])

/-- IL_ESTIMATE (R300): every second in UP. -/
def ilEstimate (p loss clauseLimit : Nat) : Prog := .read fun s =>
  when (s.pst p == stUp) (ilWrite p loss clauseLimit)

/-! Records of the shelf (R301, R302). -/

def shelfBase (p : Nat) : Nat := 0x640000 + p * 0x4000

/-- Two's-complement bytes of an integer. -/
def intBytes (n : Nat) (v : Int) : List Byte := leBytes n (unsigned (8 * n) v)

/-- A record with its CRC-32C behind it. -/
def withCrc (l : List Byte) : List Byte := l ++ leBytes 4 (crc32c l)

/-- The reference record of R302. -/
def refRecord (p : Nat) (r : FpRef) : List Byte :=
  withCrc (leBytes 4 0x50464458 ++ leBytes 1 p ++ leBytes 1 r.source ++ leBytes 1 r.mode ++ leBytes 1 r.bins.length
    ++ leBytes 4 r.gen ++ leBytes 4 r.sec ++ leBytes 8 r.partner ++ leBytes 2 r.loss ++ leBytes 2 r.nvp ++ leBytes 4 0
    ++ ((List.range 256).map fun i => intBytes 2 ((r.bins[i]?).getD 0)).flatten ++ leBytes 476 0)

/-- The reference that a valid record holds. -/
def readRef (p : Nat) (l : List Byte) : Option FpRef :=
  if leAt l 0 4 = 0x50464458 ∧ leAt l 4 1 = p ∧ leAt l 1020 4 = crc32c (l.take 1020) then
    some { source := leAt l 5 1, mode := leAt l 6 1, gen := leAt l 8 4, sec := leAt l 12 4, partner := leAt l 16 8,
           loss := leAt l 24 2, nvp := leAt l 26 2,
           bins := (List.range (leAt l 7 1)).map fun i => signed 16 (leAt l (32 + 2 * i) 2) }
  else none

/-- A trend entry of R302. -/
def trendRecord (t : Trend) (corr rms loss source sqi margin : Nat) : List Byte :=
  withCrc (leBytes 4 t.sec ++ leBytes 2 corr ++ leBytes 2 rms ++ leBytes 2 loss ++ leBytes 1 t.bin ++ leBytes 1 source
    ++ intBytes 2 t.change ++ leBytes 1 sqi ++ leBytes 1 0 ++ leBytes 2 margin ++ leBytes 10 0)

/-- The insertion-loss estimate of a port as the records hold it: 0xFFFF = none. -/
def State.lossNow (s : State) (p : Nat) : Nat := if s.bit (F.DIAG_IL_valid p) then s.f (F.DIAG_IL_estimate p) else 0xFFFF

/-! Comparison (R304 to R306). -/

/-- The largest k with k² ≤ v, from 11 bits. -/
def sqrt11 (v : Nat) : Nat :=
  [10, 9, 8, 7, 6, 5, 4, 3, 2, 1, 0].foldl (fun k i => if (k + 2 ^ i) * (k + 2 ^ i) ≤ v then k + 2 ^ i else k) 0

/-- The largest k < 2^16 with k² ≤ v. -/
def sqrt16 (v : Nat) : Nat :=
  (List.range 16).foldr (fun i k => if (k + 2 ^ i) * (k + 2 ^ i) ≤ v then k + 2 ^ i else k) 0

/-- Normalised correlation in 1/1,024, rounded down; none where a profile is zero, the correlation is negative or is
1, which its ten bits do not hold. -/
def correlation (a b : List Int) : Option Nat :=
  let ab := (List.zipWith (· * ·) a b).sum
  let n := ((List.zipWith (· * ·) a a).sum * (List.zipWith (· * ·) b b).sum).natAbs
  let k := sqrt11 ((1024 * ab.natAbs) * (1024 * ab.natAbs) / n)
  if n = 0 ∨ ab < 0 ∨ 1023 < k then none else some k

/-- The bin of largest change and the change at it. -/
def largestChange (d : List Int) : Nat × Int :=
  (List.range d.length).foldl (fun b i => if b.2.natAbs < ((d[i]?).getD 0).natAbs then (i, (d[i]?).getD 0) else b) (0, 0)

/-- Points (seconds before the latest entry, change) of the wear fit: the last 16 entries whose bin lies within 3 of the
latest (R306). -/
def wearPoints (l : List Trend) : List (Int × Int) :=
  match l with
  | [] => []
  | h :: _ => ((l.filter fun t => decide (t.bin ≤ h.bin + 3 ∧ h.bin ≤ t.bin + 3)).take 16).map fun t =>
      ((t.sec : Int) - h.sec, t.change)

/-- Whether the least-squares line through the points reaches a threshold between the latest entry and a horizon later
(R306). A line needs two different times. -/
def wearReaches (pts : List (Int × Int)) (thresh horizon : Nat) : Bool :=
  let n : Int := pts.length
  let sx := (pts.map (·.1)).sum
  let sy := (pts.map (·.2)).sum
  let sxx := (pts.map fun q => q.1 * q.1).sum
  let sxy := (pts.map fun q => q.1 * q.2).sum
  let den := n * sxx - sx * sx
  let slope := n * sxy - sx * sy
  let at0 := sy * den - slope * sx
  let reach := fun (y : Int) => decide ((thresh : Int) * (n * den) ≤ y.natAbs)
  decide (0 < den) && (reach at0 || reach (at0 + slope * n * horizon))

/-- Wear (R306): logged at most once per port and power cycle. -/
def wearCheck (p : Nat) : Prog := .read fun s =>
  let l := s.diag.trend.getD p []
  when (!s.diag.worn.contains p &&
      wearReaches (wearPoints l) (4 * s.f F.DIAG_TDR_CFG_step_thresh) (s.f F.DIAG_FP_CFG_horizon_d * 86400))
    (block [raise R.DIAG_EVENT 3, emit 0x15 0x17 0 (4 * 512 + ((l.headD ⟨0, 0, 0⟩).bin % 256)) p,
      updDiag fun x => { x with worn := p :: x.worn }])

/-- A BUS_ERROR whose detail and word 1 the spec does not lay out (R281, R305): free values. -/
def busErrorOpen (src : Nat) : Prog := withFree fun d => withFree fun w => emit src kBusError 1 (d.toNat % 8192) w.toNat

/-- A shelf write fails (R305). -/
def shelfFail : Prog := block [raise R.DIAG_EVENT 6, busErrorOpen 0x15]

/-- A trend entry is appended (R301, R305): the sector it begins is erased first. -/
def trendAppend (p corr rms source sqi margin : Nat) (bin : Nat) (change : Int) (ok : Bool) : Prog := .read fun s =>
  let n := s.diag.written.getD p 0
  let t : Trend := ⟨s.tbSec % 2 ^ 32, bin, change⟩
  let a := shelfBase p + 0x2000 + n % 256 * 32
  if ok then
    block [when (decide (n % 128 = 0)) (.act (.flashErase a 4096)),
      .act (.flashProgram a (trendRecord t corr rms (s.lossNow p) source sqi margin)),
      updDiag fun x => { x with trend := x.trend.put p ((t :: x.trend.getD p []).take 256), written := x.written.put p (n + 1) },
      wearCheck p]
  else shelfFail

/-- The comparison of a profile with the reference (R304, R305): FP_STAT, fp_mismatch, the trend log. `k` goes on with
the match code. -/
def fpCompare (p : Nat) (bins : List Int) (source sqi margin : Nat) (ok : Bool) (k : Nat → Prog) : Prog := .read fun s =>
  match s.diag.refs.get? p with
  | none => block [setF (F.DIAG_FP_STAT_match_ p) 0, k 0]
  | some r =>
    let n := min bins.length r.bins.length
    if n < 32 then block [setF (F.DIAG_FP_STAT_match_ p) 0, k 0]
    else
      let a := bins.take n
      let b := r.bins.take n
      let diff := List.zipWith (· - ·) a b
      let big := largestChange diff
      let rms := sqrt16 ((diff.map fun x => x * x).sum.natAbs / n)
      let step := decide (4 * s.f F.DIAG_TDR_CFG_step_thresh ≤ big.2.natAbs)
      let due := match (s.diag.trend.getD p []).head? with
        | some t => decide (t.sec + 3600 * s.f F.DIAG_FP_CFG_trend_min_h ≤ s.tbSec % 2 ^ 32)
        | none => true
      let go := fun (c : Nat) =>
        let m := if decide (s.f F.DIAG_FP_CFG_match_thresh ≤ c) && !step then 1 else 2
        block [setF (F.DIAG_FP_STAT_correlation p) c, setF (F.DIAG_FP_STAT_worst p) big.1,
          setF (F.DIAG_FP_STAT_match_ p) m, when (decide (m = 2)) (raise R.DIAG_EVENT 2),
          when (decide (m = 2) || due) (trendAppend p c rms source sqi margin big.1 big.2 ok), k m]
      match correlation a b with
      | some c => go c
      | none => withFree fun w => go (w.toNat % 1024)

/-- A new reference is taken (R303): written to the older copy, then the cache is updated. -/
def takeReference (p : Nat) (bins : List Int) (source mode : Nat) (ok : Bool) : Prog := .read fun s =>
  let gen := match s.diag.refs.get? p with
    | some r => r.gen + 1
    | none => 1
  let old := s.diag.copy.getD p 1
  let r : FpRef :=
    { source := source, mode := mode, bins := bins.take 255, gen := gen, sec := s.tbSec % 2 ^ 32, loss := s.lossNow p,
      partner := if s.bit (F.PORT_PARTNER_FLAGS_id_valid p) then s.wide (R.PORT_PARTNER_ID p) 2 else 0,
      nvp := s.f F.DIAG_TDR_CFG_nvp }
  if ok then
    block [.act (.flashErase (shelfBase p + (1 - old) * 0x1000) 4096),
      .act (.flashProgram (shelfBase p + (1 - old) * 0x1000) (refRecord p r)),
      updDiag fun x => { x with refs := x.refs.put p r, copy := x.copy.put p (1 - old) },
      setF (F.DIAG_FP_STAT_ref p) 1, setF (F.DIAG_FP_CTL_capture p) 0]
  else shelfFail

/-- A profile has completed: compared, then taken as reference where R303 asks for it. -/
def profileDone (p : Nat) (bins : List Int) (source mode sqi margin : Nat) (always ok : Bool) (k : Nat → Prog) : Prog :=
  .read fun s =>
    block [fpCompare p bins source sqi margin ok k,
      when (!bins.isEmpty && (always || s.bit (F.DIAG_FP_CTL_capture p) ||
          ((s.diag.refs.get? p).isNone && s.bit F.DIAG_FP_CFG_auto)))
        (takeReference p bins source mode ok)]

/-- FP_CLEAR (R303): the reference leaves the cache and both copies become invalid. -/
def fpClear (p : Nat) : Prog :=
  block [updDiag fun x => { x with refs := x.refs.del p, copy := x.copy.del p }, setF (F.DIAG_FP_STAT_ref p) 0,
    .act (.flashErase (shelfBase p) 0x2000)]

/-- At a start firmware loads the reference profiles (R303): of two valid copies the one of higher generation. -/
def shelfLoad (p : Nat) : Prog := .read fun s =>
  let a := readRef p (s.flash.readBytes erased (shelfBase p) 1024)
  let b := readRef p (s.flash.readBytes erased (shelfBase p + 0x1000) 1024)
  let pick := match a, b with
    | some x, some y => if x.gen < y.gen then some (1, y) else some (0, x)
    | some x, none => some (0, x)
    | none, some y => some (1, y)
    | none, none => none
  ifSome pick fun c => block [
    updDiag fun x => { x with refs := x.refs.put p c.2, copy := x.copy.put p c.1 }, setF (F.DIAG_FP_STAT_ref p) 1]

end Sys2Proof.Machine
end

