-- ==== Sys2Proof/Machine/Timebase.lean ====
section
/-!
DEFINITION. The timebase, time sync and the time pins (R335 to R352).
-/
namespace Sys2Proof.Machine

/-- States of TB.STAT.state (R349). -/
def tsFree : Nat := 0
def tsLocking : Nat := 1
def tsLocked : Nat := 2
def tsGm : Nat := 3
def tsHoldover : Nat := 4

/-- The timebase in 2^-16 ns. -/
def TbX.total (x : TbX) : Nat := (x.sec * 1000000000 + x.ns) * 65536 + x.frac

/-- The timebase without its settings and steps (R340). -/
def TbX.steady (x : TbX) : Int := x.total - x.moved

/-- The timebase moved by so many 2^-16 ns; seconds wrap at 2^48 (R335). -/
def TbX.move (x : TbX) (d : Int) : TbX :=
  let t := ((x.total : Int) + d).emod (281474976710656 * 1000000000 * 65536)
  let n := t.toNat
  { x with frac := n % 65536, ns := n / 65536 % 1000000000, sec := n / 65536 / 1000000000 }

/-- One 2 ns tick (R335): 2 ns × (1 + rate), the rate in 1/1,024 ppb; the part below 2^-16 ns is carried. -/
def TbX.tick (x : TbX) (rate : Int) : TbX :=
  let unit : Int := 1024 * 1000000000
  let n := (x.rest : Int) + 131072 * (unit + rate)
  { x.move (n / unit) with rest := (n % unit).toNat }

/-- The signed rate in force. -/
def State.tbRate (s : State) : Int := signed 32 (s.reg R.TB_ADJ).toNat

/-- A clamp of a step or an adjustment is logged (R116) and raised (R350). The governed index is 0. -/
def tbClamp (governor : Nat) : Prog := block [governorClamp R.TB_STEP governor 0, raise R.TB_EVENT 2]

/-- A step by d in 2^-16 ns under the governors (R115, R338): inside the interval it is dropped, above the maximum it is
applied at the maximum with its sign. -/
def tbStep (d : Int) : Prog := .read fun s =>
  let limit : Int := s.f F.MLD_GOV_STEP_step_us * 1000 * 65536
  let early := match s.tb.lastStep with
    | some t => decide (s.now < t + s.f F.MLD_GOV_TIME_interval_ms * 1000000)
    | none => false
  if early then tbClamp 5
  else
    let e := max (-limit) (min limit d)
    block [when (decide (e ≠ d)) (tbClamp 4),
      updTb fun x => { x.move e with lastStep := some s.now, moved := x.moved + e },
      setReg R.TB_STEP (BitVec.ofNat 32 (unsigned 32 (e.tdiv 65536))), raise R.TB_EVENT 1]

/-- A new rate under its governor (R115, R338). -/
def tbAdjust (rate : Int) : Prog := .read fun s =>
  let limit : Int := s.f F.MLD_GOV_TIME_freq_ppb * 1024
  let r := max (-limit) (min limit rate)
  block [when (decide (r ≠ rate)) (tbClamp 6), setReg R.TB_ADJ (BitVec.ofNat 32 (unsigned 32 r))]

/-- TB_SET (R338): the 128-bit value has been completed by its highest word. -/
def tbSet (v : Nat) : Prog := .read fun s =>
  let x : TbX := { s.tb with frac := v % 65536, ns := v / 2 ^ 32 % 2 ^ 32, sec := v / 2 ^ 64 % 2 ^ 48, rest := 0 }
  if s.bit F.TB_STAT_set_done then tbStep ((x.total : Int) - s.tb.total)
  else block [updTb fun y => { y with frac := x.frac, ns := x.ns, sec := x.sec, rest := 0, moved := y.moved + x.total - y.total },
    setF F.TB_STAT_set_done 1, raise R.TB_EVENT 0]

/-- The timebase takes a state, with the event of its entry. -/
def tbState (st : Nat) : Prog := .read fun s =>
  when (s.f F.TB_STAT_state != st)
    (block [setF F.TB_STAT_state st, updTb fun x => { x with good := 0 },
      when (decide (st = tsLocked)) (raise R.TB_EVENT 3), when (decide (st = tsHoldover)) (raise R.TB_EVENT 4),
      when (decide (st = tsFree)) (raise R.TB_EVENT 5)])

/-- HOLDOVER is entered; a holdover time of 0 ends it at once (R349). -/
def tbHoldover : Prog := .read fun s =>
  when (s.f F.TB_STAT_state == tsLocking || s.f F.TB_STAT_state == tsLocked)
    (block [tbState tsHoldover, when (s.f F.TB_CFG_holdover_s == 0) (tbState tsFree)])

/-- The work domain's record index. -/
def State.workDomain (s : State) : Nat := s.f F.TB_CFG_work_domain

/-- A domain runs: gPTP is enabled and its record is valid. -/
def State.domainOn (s : State) (d : Nat) : Bool := s.bit F.TB_CFG_gptp_en && s.bit (F.TB_DOM_STAT_valid d)

/-- The slave port of the work domain is lost (R349). -/
def tbPortLost (p : Nat) : Prog := .read fun s =>
  when (s.bit F.TB_STAT_slave_valid && s.f F.TB_STAT_slave_port == p) tbHoldover

/-- The role of a port in a domain (R345): 0 disabled, 1 master, 2 slave, 3 passive. -/
def State.gptpRole (s : State) (p d : Nat) : Nat := s.f (F.TB_PORT_ROLES_roles p) / 2 ^ (2 * d) % 4

/-- The master ports of a domain that carry a link. -/
def State.masterPorts (s : State) (d : Nat) : List Nat := allPorts.filter fun p => s.gptpRole p d == 1 && s.linkUp p

/-- A port that may run gPTP (R7, R254, R345): no segment, and no cane member but the lowest. -/
def State.gptpPort (s : State) (p : Nat) : Bool := decide (portClass p ≠ .segment) && s.macPort p == p

/-- The Gaffer sends a gPTP frame of n bytes on a port (R24): it enters ahead of the MAC, in the class gptp_class of TIME (R344,
R367). What IEEE 802.1AS puts into it is not shown, and its length is PRESUMED (log entry 170). -/
def gptpSend (p kind n : Nat) (ingress : Option Int) : Prog := .read fun s =>
  updPort p fun x => { x with txq := x.txq ++ [{ owner := none, cls := byteAt (s.sec 0x0007) 2 % 8, bytes := List.replicate n 0, launch := none, gptp := some kind, ingress := ingress }] }

/-- A Sync and its Follow_Up on a port (R347: two-step messages only); a relayed one came at `ingress`. -/
def syncOn (d : Nat) (ingress : Option Int) (p : Nat) : Prog := block [gptpSend p d 58 ingress, gptpSend p (4 + d) 90 none]

/-- SYNC_RECEIVED (R346 to R350): on the slave port of domain d, with the offset measured (grandmaster minus timebase,
2^-16 ns), the domain's rate, and the rate that the servo asks for. The servo steps while LOCKING where the offset exceeds
1 µs and steers otherwise; the message is relayed on the domain's master ports. -/
def syncReceived (d port : Nat) (offset domRate servo : Int) : Prog := .read fun s =>
  let st := s.f F.TB_STAT_state
  let off := offset.natAbs
  when (s.domainOn d && s.bit (F.TB_DOM_STAT_slave_valid d) && s.f (F.TB_DOM_STAT_slave_port d) == port && s.linkUp port && s.gptpPort port)
    (block [setF (F.TB_DOM_STAT_synced d) 1, setF (F.TB_DOM_STAT_role d) 1,
      if d = s.workDomain then
        block [
          if st = tsFree ∨ st = tsHoldover ∨ st = tsGm then tbState tsLocking
          else if st = tsLocked ∧ 65536000 < off then tbState tsLocking
          else .skip,
          .read fun t =>
            if t.f F.TB_STAT_state = tsLocking ∧ 65536000 < off then
              block [tbStep offset, updTb fun x => { x with good := 0 }]
            else block [tbAdjust servo,
              updTb fun x => { x with good := if off ≤ 3276800 then x.good + 1 else 0 }],
          .read fun t => when (t.f F.TB_STAT_state == tsLocking && decide (8 ≤ t.tb.good)) (tbState tsLocked)]
      else block [setWide (R.TB_DOM_OFFSET d) 2 (unsigned 64 offset),
        setF (F.TB_DOM_RATE_rate d) (unsigned 32 domRate)],
      each (s.masterPorts d) (syncOn d (some s.tb.steady))])

/-- SYNC_TIMEOUT (R349): no Sync for three intervals. -/
def syncTimeout (d : Nat) : Prog := .read fun s =>
  when (s.domainOn d)
    (block [setF (F.TB_DOM_STAT_synced d) 0,
      when (s.f (F.TB_DOM_STAT_role d) == 1) (setF (F.TB_DOM_STAT_role d) 3),
      when (d == s.workDomain) tbHoldover])

/-- HOLDOVER_EXPIRE (R349). -/
def holdoverExpire : Prog := .read fun s => when (s.f F.TB_STAT_state == tsHoldover) (tbState tsFree)

/-- The record of domain d in TIME (R344). -/
def State.timeRec (s : State) (d : Nat) : List Byte := ((s.sec 0x0007).drop (8 + 32 * d)).take 32

/-- The role that TIME's map gives a port in a domain (R344, R345); the map is ignored for segments and for cane members
other than the lowest. -/
def State.timeRole (s : State) (d p : Nat) : Nat :=
  if portClass p = .segment ∨ s.macPort p ≠ p then 0 else byteAt (s.timeRec d) (8 + p / 4) / 4 ^ (p % 4) % 4

/-- Set the role of a port in a domain. -/
def setRole (d p role : Nat) : Prog := .read fun s =>
  setF (F.TB_PORT_ROLES_roles p) (s.f (F.TB_PORT_ROLES_roles p) - s.gptpRole p d * 4 ^ d + role * 4 ^ d)

/-- GM_CHANGE (R345, R349): the grandmaster of a domain changes: its identity, steps removed, the slave port towards it
(none where the device itself is grandmaster; a port that runs no gPTP is no slave port), and under BMCA the ports it makes masters. -/
def gmChange (d : Nat) (slave : Option Nat) (masters steps gmId : Nat) : Prog := .read fun s =>
  let moved := match slave with
    | some p => s.bit F.TB_STAT_slave_valid && s.f F.TB_STAT_slave_port != p
    | none => false
  when (s.domainOn d && slave.all s.gptpPort)
    (block [setWide (R.TB_DOM_GM_ID d) 2 gmId, setF (F.TB_DOM_STAT_stepsRemoved d) steps,
      when (byteAt (s.timeRec d) 2 == 1) (each allPorts fun p =>
        when (s.timeRole d p != 0) (setRole d p (if slave = some p then 2 else if bitOf masters p then 1 else 3))),
      setF (F.TB_DOM_STAT_slave_valid d) (b2n slave.isSome), setF (F.TB_DOM_STAT_slave_port d) (slave.getD 0),
      setF (F.TB_DOM_STAT_role d) (if slave.isNone then 2 else 3),
      when (d == s.workDomain)
        (block [setF F.TB_STAT_slave_valid (b2n slave.isSome), setF F.TB_STAT_slave_port (slave.getD 0),
          raise R.TB_EVENT 6, if slave.isNone then tbState tsGm else when moved tbHoldover])])

/-- SYNC_SEND (R348): the device is grandmaster of the domain. -/
def syncSend (d : Nat) : Prog := .read fun s =>
  when (s.domainOn d && s.f (F.TB_DOM_STAT_role d) == 2) (each (s.masterPorts d) (syncOn d none))

/-- PDELAY_MEASURE (R347): the mean link delay of a port, 2^-4 ns; gPTP is not run on segments (R254). -/
def pdelayMeasure (p delay : Nat) : Prog := .read fun s =>
  when (s.bit F.TB_CFG_gptp_en && s.gptpPort p && s.linkUp p && s.f (F.TB_PORT_ROLES_roles p) != 0)
    (block [setF (F.TB_PORT_PDELAY_valid p) 1, setF (F.TB_PORT_PDELAY_delay p) delay, gptpSend p 8 68 none])

/-- PPS_OUT (R351): the timebase reaches a whole second. -/
def ppsOut : Prog := .read fun s =>
  when (s.bit F.TB_PPS_CFG_pps_out_en) (send (.pin "PPS_OUT" (max 1 (s.f F.TB_PPS_CFG_width_us))))

/-- PPS_IN (R348, R352): the edge is timestamped; exactly between two seconds the nearest is not stated. As grandmaster
with pps_discipline the timebase follows it: by a step where the offset exceeds 1 µs, else by the servo's rate. -/
def ppsIn (servo : Int) : Prog := .read fun s =>
  let q := s.tb.ns * 4 + s.tb.frac / 16384
  let early := match s.tb.lastPps with
    | some t => decide (s.now < t + 500000000)
    | none => false
  let go := fun (ofs : Int) =>
    block [setWide R.TB_PPS_IN 2 s.tb64, setReg R.TB_PPS_IN_OFS (BitVec.ofNat 32 (unsigned 32 ofs)), raise R.TB_EVENT 7,
      updTb fun x => { x with lastPps := some s.now },
      when (s.bit F.TB_CFG_pps_discipline && s.f F.TB_STAT_state == tsGm)
        (if 4000 < ofs.natAbs then tbStep (-ofs * 16384) else tbAdjust servo)]
  when (s.bit F.TB_PPS_CFG_pps_in_en && !early)
    (if q < 2000000000 then go q
     else if q = 2000000000 then withFree fun w => go (if w.toNat % 2 = 0 then 2000000000 else -2000000000)
     else go ((q : Int) - 4000000000))

/-! Gate control lists (R367 to R370). -/

/-- The interval of entry e of a port's list, ns. -/
def State.gclInterval (s : State) (p e : Nat) : Nat :=
  s.f (F.LCH_GCL_interval p e) * 2 ^ s.f (F.LCH_GCL_CFG_CTRL_unit p)

/-- The phase of a port's list: ns since the start of its cycle (R368, R370). -/
def State.gclPhase (s : State) (p : Nat) : Nat :=
  let base : Int := (s.wide (R.LCH_GCL_CFG_BASE p) 3 / 2 ^ 32 % 2 ^ 48) * 1000000000 + s.f (F.LCH_GCL_CFG_BASE_ns p)
  (((s.tb.sec * 1000000000 + s.tb.ns : Nat) - base : Int) % (max 1 (s.f (F.LCH_GCL_CFG_CYCLE_cycle p)) : Nat)).toNat

/-- Walk the entries e.. with `left` to go until the one that covers a phase; the last lasts to the end of the cycle. -/
def gclWalk (s : State) (p : Nat) : Nat → Nat → Nat → Nat
  | 0, e, _ => e
  | n + 1, e, phase =>
    let i := s.gclInterval p e
    if n = 0 ∨ phase < i then e else gclWalk s p n (e + 1) (phase - i)

/-- The entry in force of a port's list. -/
def State.gclEntry (s : State) (p : Nat) : Nat := gclWalk s p (s.f (F.LCH_GCL_CFG_CTRL_length p)) 0 (s.gclPhase p)

/-- A port's list takes its entry; without a list every gate is open. -/
def gclRefresh (p : Nat) : Prog := .read fun s =>
  if s.bit (F.LCH_GCL_CFG_CTRL_en p) then
    block [setF (F.LCH_GCL_STAT_running p) 1, setF (F.LCH_GCL_STAT_entry p) (s.gclEntry p)]
  else block [setF (F.LCH_GCL_STAT_running p) 0, setF (F.LCH_GCL_STAT_entry p) 0]

/-- How long a class's gate stays open from a phase on, counted over the entries of at most two cycles; `max` where it
never closes. -/
def gclOpen (s : State) (p cls : Nat) : Nat → Nat → Nat → Nat
  | 0, _, acc => acc
  | n + 1, phase, acc =>
    let cycle := max 1 (s.f (F.LCH_GCL_CFG_CYCLE_cycle p))
    let e := gclWalk s p (s.f (F.LCH_GCL_CFG_CTRL_length p)) 0 phase
    let start := ((List.range e).map (s.gclInterval p)).sum
    let stop := if e + 1 = s.f (F.LCH_GCL_CFG_CTRL_length p) then cycle else min cycle (start + s.gclInterval p e)
    if bitOf (s.f (F.LCH_GCL_gates p e)) cls then
      gclOpen s p cls n (if stop < cycle then max stop (phase + 1) else 0) (acc + (stop - phase))
    else acc

/-- The open time a class has left now; none = no list is in force. -/
def State.gateLeft (s : State) (p cls : Nat) : Option Nat :=
  if s.bit (F.LCH_GCL_CFG_CTRL_en p) then some (gclOpen s p cls 130 (s.gclPhase p) 0) else none

/-- The longest run of open time of a class in the list in force (R369). -/
def State.longestOpen (s : State) (p cls : Nat) : Option Nat :=
  if s.bit (F.LCH_GCL_CFG_CTRL_en p) then
    some ((List.range (s.f (F.LCH_GCL_CFG_CTRL_length p))).foldl (fun m e =>
      max m (gclOpen s p cls 130 (min (((List.range e).map (s.gclInterval p)).sum) (s.f (F.LCH_GCL_CFG_CYCLE_cycle p) - 1)) 0)) 0)
  else none

end Sys2Proof.Machine
end

