-- ==== Sys2Proof/Machine/Ports.lean ====
section
/-!
DEFINITION. Port transitions with what they do to loops, canes and bundles (chapters 4, 5), and the ports' own commands.
-/
namespace Sys2Proof.Machine

/-! Domains (R21, R39): bit numbers of PWR.DOM_STAT. -/

def domFur (q : Nat) : Nat := 15 + q
def domCxp : Nat := 19
def domCxc : Nat := 20
def domPkt : Nat := 21
def domMgt : Nat := 22
def domTbc : Nat := 23

/-- A switched domain is on. -/
def State.domOn (s : State) (d : Nat) : Bool := bitOf (s.f F.PWR_DOM_STAT_domains) d

/-- The domains a port needs to leave SLEEP are on (R21). -/
def State.portPowered (s : State) (p : Nat) : Bool :=
  s.domOn (portDomain p) && s.domOn domTbc && (s.usable p).all fun c => s.domOn (domFur c.1)

/-- The port is held in SLEEP by a STAGED remould that changes its POTS record (R107). -/
def State.heldByRemould (s : State) (p : Nat) : Bool :=
  s.f F.MLD_REMOULD_STAT_state == 2 && match s.mld.partialImage.get? 0x0002 with
    | some l => (l.drop (8 * p)).take 8 != ((s.sec 0x0002).drop (8 * p)).take 8
    | none => false

/-- The port is held in SLEEP by its orphan policy (R157); a cane follows that of its lowest member (R158). -/
def State.heldByOrphan (s : State) (p : Nat) : Bool := s.bit (F.PORT_STATE_orphan p) && s.orphanSleep (s.macPort p)

/-! Trunk taps in force (R173, R176). -/

/-- The taps in force and their source (R173): TAP_MAN under override, in X50 the trained taps, else TAP_STD. -/
def State.tapWanted (s : State) (p : Nat) : Nat × Nat :=
  if s.bit (F.PORT_TAP_CTL_override p) then ((s.reg (R.PORT_TAP_MAN p)).toNat % 2 ^ 18, 3)
  else if s.pmode p = 7 then
    (match (s.port p).trainedTaps with
     | some t => (t, if (s.port p).fromStored then 1 else 0)
     | none => (0xFC0, 0))
  else ((s.reg (R.PORT_TAP_STD p)).toNat % 2 ^ 18, 2)

/-- A change of taps or of their source waits for its boundary (R176). -/
def tapQueue (p : Nat) : Prog := .read fun s =>
  when (decide (p < 8)) (updPort p fun x => { x with tapNext := some (s.tapWanted p) })

/-! Loops that end with the port's life (R199). -/

/-- The booking of a port's loop. -/
def State.loopBooking (s : State) (p : Nat) : Option Booking :=
  s.ledger.books.find? fun b => (b.act == 4 || b.act == 5 || b.act == 6) && b.ports.contains p

/-- A loop ends with a result (R199): its booking is released; after a near-end loop LISTEN begins again with the settle
wait, after which a latched wake is served. -/
def endLoop (p result : Nat) : Prog := .read fun s =>
  when ((s.port p).loop != 0)
    (block [setF (F.PORT_LOOP_STAT_state p) 3, setF (F.PORT_LOOP_STAT_result p) result,
      ifSome (s.loopBooking p) fun b => .act (.release b),
      when ((s.port p).loop != 3 && s.pst p == stListen) (updPort p fun x => { x with wait := some false }),
      updPort p fun x => { x with loop := 0, loopHeld := false }])

/-- The counters of a PRBS31 loop that is stopped: it has counted bits and bit errors (R195), how many is not known: free
values (log entry 169). -/
def loopCounted (p : Nat) : Prog := .read fun s =>
  when (((s.port p).loop == 1 || (s.port p).loop == 2) && s.f (F.PORT_LOOP_CTL_source p) == 0)
    (withFree fun v => withFree fun w => block [setWide (R.PORT_LOOP_BITS p) 2 v.toNat, setWide (R.PORT_LOOP_ERRS p) 2 w.toNat])

/-- A loop that waits in the queue is withdrawn, a loop that runs ends ABORTED (R199). -/
def abortLoop (p : Nat) : Prog := .read fun s =>
  block [loopCounted p, endLoop p 2,
    when (s.f (F.PORT_LOOP_STAT_state p) == 1)
      (block [setF (F.PORT_LOOP_STAT_state p) 3, setF (F.PORT_LOOP_STAT_result p) 2,
        ifSome (s.ledger.queue.find? fun b => (b.act == 4 || b.act == 5 || b.act == 6) && b.ports.contains p)
          fun b => .act (.dequeue b)])]

/-- A foreground anneal that runs or waits ends ABORTED (R276): its results are discarded, its booking is released, the
settle wait begins. -/
def annealAbort (p : Nat) : Prog := .read fun s =>
  block [
    when (s.port p).fg
      (block [updPort p fun x => { x with fg := false, loopHeld := false, wait := if s.pst p = stListen then some false else x.wait },
        setF (F.CAL_PORT_STAT_state p) 3, setF (F.CAL_PORT_STAT_result p) 7, raise R.CAL_EVENT 7,
        ifSome (s.ledger.books.find? fun b => b.act == 3 && b.ports.contains p) fun b => .act (.release b)]),
    when (s.f (F.CAL_PORT_STAT_state p) == 1)
      (block [setF (F.CAL_PORT_STAT_state p) 3, setF (F.CAL_PORT_STAT_result p) 7,
        ifSome (s.ledger.queue.find? fun b => b.act == 3 && b.ports.contains p) fun b => .act (.dequeue b)]),
    refreshBundleOf p]

/-! Leaving and entering the link. -/

/-- The quarters of a port's returned slots are asked to reclaim them, each in the order of the requests (R219, R220). -/
def reclaimAsk (p : Nat) : Prog := .read fun s =>
  when ((s.port p).returned && (s.port p).reclaimLeft.isEmpty)
    (if (s.usable p).isEmpty then updPort p fun x => { x with returned := false }
     else block [updPort p fun x => { x with reclaimLeft := (s.usable p).map (·.1) },
       each (s.usable p) fun c => updFur fun x => { x with reclaims := x.reclaims.put c.1 ((x.reclaims.getD c.1 []) ++ [p]) }])

/-- What a port itself loses with its link: its LPI and handshake state, a far-end loop. Pots returned in deep LPI are asked
back, unless the port comes to rest (R218 to R220). -/
def linkDark (p : Nat) : Prog := .read fun s =>
  block [when ((s.port p).loop == 3) (endLoop p 2),
    setF (F.PORT_LPI_STAT_tx_lpi p) 0, setF (F.PORT_LPI_STAT_rx_lpi p) 0, setF (F.PORT_LPI_STAT_deep p) 0,
    setF (F.PORT_LPI_STAT_quick p) 0, setF (F.PORT_TC10_STAT_hs p) 0,
    updPort p fun x => { x with localSleep := false, partnerSleep := false },
    when (decide (56 ≤ p)) (segIdle p), calQuiet p, tbPortLost p,
    .read fun t => when (t.pst p != stSleep && t.pst p != stDisabled) (reclaimAsk p)]

/-- A member drops its link because its cane goes down (R190): cause 0x06. -/
def caneDrop (p : Nat) : Prog := .read fun s =>
  block [dropCore p 6 (s.uncLast p), linkDark p, laneDark p, when (s.pmode p == 7) (tapQueue p), refreshBundleOf p]

/-- What a port loses with its link, its place in its cane included. -/
def linkLost (p : Nat) : Prog := block [linkDark p, caneLeftUp p caneDrop]

/-- Every bundle that a port or a cane mate of it belongs to takes its state. -/
def refreshNear (p : Nat) : Prog := .read fun s =>
  match s.caneOf p with
  | some (k, _) => each (s.caneLanes k) fun j => refreshBundleOf (2 * k + j)
  | none => refreshBundleOf p

/-- Run a change of a port's state, then what follows where the port has left UP and LPI by it, or X50 (R173). -/
def movePort (p : Nat) (change : Prog) : Prog := .read fun s =>
  block [change, .read fun t => when (s.linkUp p && !t.linkUp p) (linkLost p),
    .read fun t => when (s.pmode p == 7 && t.pmode p != 7) (tapQueue p), refreshNear p]

/-- A link drop (R142, R143). -/
def portDrop (p cause uncLast : Nat) : Prog := .read fun s => when (s.linkUp p) (movePort p (dropCore p cause uncLast))

/-- A link drop whose cause comes with no count of its own: DROP_HIST takes the one of the last 1 ms (R143). -/
def portDropNow (p cause : Nat) : Prog := .read fun s => portDrop p cause (s.uncLast p)

/-- The port goes to LISTEN without a drop record. -/
def toListen (p : Nat) (afterFailure : Bool) : Prog := movePort p (enterListen p afterFailure)

/-- The port goes to DISABLED; a pending wake bit clears (R330). On an exit from SLEEP the excluded modes clear (R129). -/
def toDisabled (p : Nat) : Prog := .read fun s =>
  block [when (s.pst p == stSleep) (clearExcluded p), movePort p (enterRest p stDisabled), setPending p false,
    setF (F.PORT_STATE_held p) 0, updPort p fun x => { x with leaving := false, byWake := false }]

/-- The port goes to SLEEP (R134, R323). On an exit from DISABLED the excluded modes clear (R129). -/
def toSleep (p lastSleep : Nat) : Prog := .read fun s =>
  block [when (s.pst p == stDisabled) (clearExcluded p), movePort p (sleepRest p), setF (F.PORT_TC10_STAT_last_sleep p) lastSleep]

/-- The port leaves SLEEP for LISTEN (R132, R323): the pending bit clears (R330), a wake writes CTL.admin = 0b10. -/
def exitSleep (p : Nat) : Prog := .read fun s =>
  block [when (s.port p).byWake (setF (F.PORT_CTL_admin p) 2), clearExcluded p, toListen p false,
    setPending p false, setF (F.PORT_STATE_held p) 0,
    updPort p fun x => { x with leaving := false, byWake := false }]

/-- A port that asks to leave SLEEP does so where nothing holds it; otherwise it is held, and its pots are asked back
where they were returned (R135, R219). -/
def tryLeave (p : Nat) : Prog := .read fun s =>
  when ((s.port p).leaving && s.pst p == stSleep)
    (if s.heldByRemould p || s.heldByOrphan p || !s.portPowered p || s.heldByLedger p then setF (F.PORT_STATE_held p) 1
     else if (s.port p).returned && !(s.usable p).isEmpty then block [setF (F.PORT_STATE_held p) 1, reclaimAsk p]
     else block [reclaimAsk p, if (s.port p).wupRunning then setF (F.PORT_STATE_held p) 1 else exitSleep p])

/-- An exit from SLEEP is asked for by a write of CTL.admin or by a wake. -/
def askLeave (p : Nat) (wake : Bool) : Prog :=
  block [updPort p fun x => { x with leaving := true, byWake := x.byWake || wake }, tryLeave p]

/-- The partner record differs from the reference on a compared item (R145). -/
def State.partnerDiffers (s : State) (p : Nat) : Bool :=
  s.f (F.PORT_PARTNER_ABIL_modes p) != s.f (F.PORT_PARTNER_REF_ABIL_modes p)
  || s.f (F.PORT_PARTNER_ABIL_role_adv p) != s.f (F.PORT_PARTNER_REF_ABIL_role_adv p)
  || s.f (F.PORT_PARTNER_FLAGS_id_valid p) != s.f (F.PORT_PARTNER_REF_FLAGS_id_valid p)
  || (s.bit (F.PORT_PARTNER_FLAGS_id_valid p) && s.bit (F.PORT_PARTNER_REF_FLAGS_id_valid p)
      && s.wide (R.PORT_PARTNER_ID p) 2 != s.wide (R.PORT_PARTNER_REF_ID p) 2)
  || (s.f (F.PORT_PARTNER_FLAGS_fp_match p) != 0 && s.f (F.PORT_PARTNER_REF_FLAGS_fp_match p) != 0
      && s.f (F.PORT_PARTNER_FLAGS_fp_match p) != s.f (F.PORT_PARTNER_REF_FLAGS_fp_match p))

/-- The offsets of the partner reference in a port's block. -/
def partnerOffs (p : Nat) : List Nat :=
  [R.PORT_PARTNER_REF_ABIL p, R.PORT_PARTNER_REF_FLAGS p, R.PORT_PARTNER_REF_ID p, R.PORT_PARTNER_REF_ID p + 4]

/-- The copy of PARTNER_REF in the state bank follows partner_new and partner_changed (R146). -/
def keepPartner (p : Nat) : Prog := .read fun s =>
  updPower fun x => { x with partnerRefs := (partnerOffs p).foldl (fun m o => m.put o (s.reg o)) x.partnerRefs }

/-- On every entry to UP the record is compared with PARTNER_REF and copied into it (R145). -/
def comparePartner (p : Nat) : Prog := .read fun s =>
  block [
    if !s.bit (F.PORT_PARTNER_REF_FLAGS_valid p) then raise (R.PORT_EVENT p) 2
    else when (s.partnerDiffers p) (raise (R.PORT_EVENT p) 3),
    setReg (R.PORT_PARTNER_REF_ABIL p) (s.reg (R.PORT_PARTNER_ABIL p)),
    setReg (R.PORT_PARTNER_REF_FLAGS p) (putBits (s.reg (R.PORT_PARTNER_FLAGS p)) 3 3 1),
    setWide (R.PORT_PARTNER_REF_ID p) 2 (s.wide (R.PORT_PARTNER_ID p) 2),
    when (!s.bit (F.PORT_PARTNER_REF_FLAGS_valid p) || s.partnerDiffers p) (keepPartner p)]

/-- A port in LPI is in UP again, which is an entry to UP (R145). -/
def lpiToUp (p : Nat) : Prog := .read fun s =>
  when (s.pst p == stLpi) (block [setF (F.PORT_STATE_state p) stUp, comparePartner p])

/-- A local sleep request starts (R320); on an admitted member every admitted member runs it together (R322). -/
def startHandshake (p : Nat) : Prog := .read fun s =>
  let group := match s.caneOf p with
    | some (k, j) => if bitOf (s.admitted k) j then (bitList 4 (s.admitted k)).map (2 * k + ·) else [p]
    | none => [p]
  each group fun g => .read fun t => when (t.linkUp g && !(t.port g).localSleep)
    (block [lpiToUp g, setF (F.PORT_LPI_STAT_tx_lpi g) 0, setF (F.PORT_LPI_STAT_deep g) 0,
      setF (F.PORT_TC10_STAT_hs g) 1, updPort g fun x => { x with localSleep := true, partnerSleep := false },
      send (.line g "sleep_request" 0), refreshBundleOf g])

/-- A write of CTL.admin moves the port (R132); an orphan under the policy SLEEP goes no further than SLEEP (R157). A segment goes to SLEEP without a handshake, after any frame in
progress (R245), which SEGMENT_SLEEP ends. -/
def adminMove (p a : Nat) : Prog := .read fun s =>
  let st := s.pst p
  if a = 0 || !s.portEnabled p then toDisabled p
  else if a = 1 then
    if st = stDisabled then toSleep p (s.f (F.PORT_TC10_STAT_last_sleep p))
    else if st = stUp ∨ st = stLpi then
      (if portClass p = .segment then updPort p fun x => { x with sleepWait := true } else startHandshake p)
    else if st = stListen ∧ (s.port p).stage then .skip
    else if st = stListen ∨ st = stNegotiate ∨ st = stTrain then
      toSleep p (if portClass p = .segment then 5 else s.f (F.PORT_TC10_STAT_last_sleep p))
    else .skip
  else
    if st = stDisabled then
      when (!(s.port p).resetting) (block [clearExcluded p, updPort p fun x => { x with returned := false },
        if s.heldByOrphan p then toSleep p 5 else toListen p false])
    else if st = stSleep then askLeave p false
    else updPort p fun x => { x with sleepWait := false }

/-- The port moves from FAULT to the state that CTL.admin names (R132), unless a reset still holds it there. An orphan under
the policy SLEEP goes to SLEEP (R157). -/
def leaveFault (p : Nat) : Prog := .read fun s =>
  when (s.pst p == stFault && !(s.port p).resetting)
    (match s.f (F.PORT_CTL_admin p) with
      | 0 => toDisabled p
      | 1 => toSleep p (s.f (F.PORT_TC10_STAT_last_sleep p))
      | _ => if s.heldByOrphan p then toSleep p 5 else toListen p false)

/-- The flap guard's hold ends and its count starts again from zero (R141). -/
def flapRelease (p : Nat) : Prog := .read fun s =>
  when (s.port p).flapHold (updPort p fun x => { x with flapHold := false, dropTimes := [] })

/-- PORT_ADMIN_WRITE (R132, R199): CTL.admin takes its value; a loop on the port ends; the port moves. -/
def portAdminWrite (p a : Nat) : Prog :=
  block [setF (F.PORT_CTL_admin p) a, abortLoop p, annealAbort p, adminMove p a]

/-- PORT_RESTART (R129, R132, R141): a link drops with cause RESTART, an attempt ends, a flap hold ends. R137 lists no hold-off
for an attempt that a restart ends: LISTEN waits for the settle time (DESIGN CHOICE: log entry 165). -/
def portRestart (p : Nat) : Prog := .read fun s =>
  block [clearExcluded p,
    if s.linkUp p then portDropNow p 7
    else if s.pst p = stNegotiate ∨ s.pst p = stTrain then toListen p false
    else block [flapRelease p, leaveFault p]]

/-- The counters of the MAC and of the segment clear on one edge (R155). -/
def clearCounters (p : Nat) : Prog :=
  block [setWide (R.PORT_RX_FRAMES p) 2 0, setWide (R.PORT_RX_BYTES p) 2 0, setWide (R.PORT_RX_FCS_ERR p) 2 0,
    setWide (R.PORT_RX_RUNT p) 2 0, setWide (R.PORT_RX_OVERSIZE p) 2 0, setWide (R.PORT_RX_ORPHAN_DROP p) 2 0,
    setWide (R.PORT_RX_PAUSE p) 2 0, setWide (R.PORT_TX_FRAMES p) 2 0, setWide (R.PORT_TX_BYTES p) 2 0, setWide (R.PORT_TX_OVERSIZE p) 2 0,
    when (decide (56 ≤ p)) (block [setWide (R.PORT_SEG_COLL p) 2 0, setWide (R.PORT_SEG_LATE p) 2 0,
      setWide (R.PORT_SEG_EXCESS p) 2 0])]

/-- ADV.modes and forced_mode load from the ramp mode, their shadows from the top mode (R121). -/
def loadModes (p : Nat) : Prog := .read fun s =>
  block [setActiveF (F.PORT_ADV_modes p) (modesUpTo p (s.rampMode p) / 2),
    setActiveF (F.PORT_MODE_CFG_forced_mode p) (s.rampMode p),
    stageF (F.PORT_ADV_modes p) (modesUpTo p (s.topMode p) / 2),
    stageF (F.PORT_MODE_CFG_forced_mode p) (s.topMode p)]

/-- A port reset begins (R159), from CTL.reset or a block reset: FAULT, a drop with cause 0x09 where the link was up. -/
def portResetBegin (p : Nat) : Prog := .read fun s =>
  when (!(s.port p).resetting)
    (block [abortLoop p, annealAbort p,
      movePort p (block [when (s.linkUp p) (dropRecord p 9 (s.uncLast p)),
        when (s.pst p != stDisabled) (enterRest p stFault)]),
      clearCounters p, resetReg (R.PORT_LPI_ENTRIES p), setWide (R.PORT_LPI_TIME p) 2 0, when (decide (56 ≤ p)) (censusClear p), setWide (R.PORT_FEC_CORR p) 2 0, setWide (R.PORT_FEC_UNCORR p) 2 0, clearPartner p, clearExcluded p,
      setF (F.PORT_STATE_fail_count p) 0, setF (F.PORT_LINK_QUAL_sqi_min p) 7, qualIdle p, loadModes p,
      setF (F.PORT_CTL_reset p) 1, updPort p fun x => { x with resetting := true, sqiArmed := true }])

/-- The 50 µs of a port reset end (R159): the port moves as CTL.admin names, unless the flap guard still holds it; one that
lay in DISABLED, where the reset does not reach FAULT, moves as a write of CTL.admin moves it (R132). -/
def portResetEnd (p : Nat) : Prog := .read fun s =>
  when (s.port p).resetting
    (block [setF (F.PORT_CTL_reset p) 0, updPort p fun x => { x with resetting := false },
      if s.pst p = stDisabled then when (s.portEnabled p && s.f (F.PORT_CTL_admin p) != 0) (adminMove p (s.f (F.PORT_CTL_admin p)))
      else when (!(s.port p).flapHold) (leaveFault p)])

/-- flap_hold_s expires (R141); a hold time of 0 never does. During a port reset the hold ends and the port stays in FAULT
until the reset ends. -/
def flapHoldExpire (p : Nat) : Prog := .read fun s =>
  when ((s.port p).flapHold && s.f (F.PORT_TIMERS_flap_hold_s p) != 0) (block [flapRelease p, leaveFault p])

/-- A write of CTL.reset with a value of CTL.admin: a move to DISABLED comes first, then the reset (R133). -/
def portResetWrite (p a : Nat) : Prog := .read fun s =>
  block [setF (F.PORT_CTL_admin p) a, when (a == 0 && s.pst p != stDisabled) (portAdminWrite p 0), portResetBegin p]

/-! Trunk taps (R171 to R176). -/

/-- A tap word as (pre, main, post). -/
def tapOf (w : Nat) : Int × Nat × Int := (signed 6 (w % 64), w / 64 % 64, signed 6 (w / 4096 % 64))

/-- R172: |pre| + main + |post| ≤ 63 and main ≥ 24. -/
def tapOk (w : Nat) : Bool :=
  let t := tapOf w
  decide (t.1.natAbs + t.2.1 + t.2.2.natAbs ≤ 63) && decide (24 ≤ t.2.1)

/-- R175: the word stored for a written tap word: as written, with main lowered by the excess, or none where the write is
refused. -/
def tapStore (w : Nat) : Option Nat :=
  let t := tapOf w
  let sum := t.1.natAbs + t.2.1 + t.2.2.natAbs
  if t.2.1 < 24 then none
  else if sum ≤ 63 then some w
  else if 24 ≤ t.2.1 - (sum - 63) ∧ sum - 63 ≤ t.2.1 then some (w - (sum - 63) * 64)
  else none

/-- TAP_APPLY: the boundary comes and the taps are in force (R176). -/
def tapApply (p : Nat) : Prog := .read fun s =>
  ifSome (s.port p).tapNext fun t =>
    block [setF (F.PORT_TAP_ACTIVE_taps p) t.1, setF (F.PORT_TAP_ACTIVE_src p) t.2,
      updPort p fun x => { x with tapNext := none }]

/-- TAP_WRITE (R175): a write of TAP_MAN or TAP_STD is stored, lowered, or refused with tap_refused. -/
def tapWrite (p : Nat) (man : Bool) (w : Nat) : Prog :=
  match tapStore (w % 2 ^ 18) with
  | some v => block [setReg (if man then R.PORT_TAP_MAN p else R.PORT_TAP_STD p) (BitVec.ofNat 32 v), tapQueue p]
  | none => raise (R.PORT_TRK_EVENT p) 0

/-! Negotiation and training. -/

/-- A page of the partner (R122 to R124, R168, R180). -/
abbrev PageWord := Nat

/-- TRAIN is entered in a mode and role (R132, R140, R169). X50 starts from (0, 63, 0), or from the taps stored with the
coefficients (R174). -/
def enterTrain (p mode role : Nat) : Prog := .read fun s =>
  block [setF (F.PORT_STATE_state p) stTrain, setMode p mode role,
    updPort p fun x => { x with wait := none, fromStored := s.storedMode p == some mode, pam6 := false, pam6Count := 255, rxReady := false, ownReady := false, tapLimit := false, tapReply := 0, ownReq := 0, heard := false, cw := 0 },
    when (decide (p < 8) && mode == 7) (block [setReg (R.PORT_TAP_STAT p) 0,
      updPort p fun x => { x with trainedTaps := some (if s.storedMode p = some 7 then s.fur.taps.getD p 0xFC0 else 0xFC0) }]),
    calFamily p mode, tapQueue p]

/-- R130: no mode to offer; the port stays in LISTEN and raises an_fail once. -/
def noMode (p : Nat) : Prog := .read fun s =>
  when (!(s.port p).noModeRaised)
    (block [raise (R.PORT_EVENT p) 5, updPort p fun x => { x with noModeRaised := true }])

/-- The X50 ability page of a port (R168): version 1, reach_15, tap_train (R174), quick_refresh (R311), fast_exit. -/
def State.x50Page (s : State) (p : Nat) : Nat :=
  1 + 2 ^ 4 * b2n (s.boost p 7 == 24) + 2 ^ 5 * b2n (s.bit (F.PORT_TAP_CTL_train_en p) && !s.bit (F.PORT_TAP_CTL_override p))
    + 2 ^ 6 * s.f (F.PORT_LPI_CFG_eee_adv p) + 2 ^ 7

/-- The pages that follow the base page, in order (R123): the message page with Plyndo's identifier, the X50 ability page
(R168), the cane page (R180) with tag, member count, lane, bond modes offered and policy, the identifier page (R124). -/
def sendPages (p : Nat) : Prog := .read fun s =>
  let offer := s.offeredFit p
  block [send (.line p "message_page" Config.vendorId.toNat),
    when (decide (p < 8) && bitOf offer 7) (send (.line p "x50_page" (s.x50Page p))),
    ifSome (s.caneOf p) fun kj => send (.line p "cane_page" (caneTag kj.1 + 2 ^ 16 * popcount 4 (s.f (F.CANE_CFG_members kj.1))
      + 2 ^ 19 * kj.2 + 2 ^ 21 * (Nat.land offer 0xC0) + 2 ^ 29 * s.f (F.CANE_CFG_policy kj.1))),
    send (.line p "identifier_page" (localId p))]

/-- Start an attempt (R122, R125, R132): NEGOTIATE with the base page and the pages behind it sent, or TRAIN in the forced
mode. -/
def startAttempt (p : Nat) : Prog := .read fun s =>
  if s.bit (F.PORT_MODE_CFG_an_en p) then
    if s.offeredFit p = 0 then noMode p
    else block [setF (F.PORT_STATE_state p) stNegotiate, updPort p fun x => { x with wait := none },
      send (.line p "base_page" (s.offeredFit p % 128 + 2 ^ 8 * s.f (F.PORT_MODE_CFG_role p)
        + 2 ^ 10 * s.f (F.PORT_LPI_CFG_eee_adv p))), sendPages p]
  else
    if s.forcedFit p = 0 then noMode p
    else block [enterTrain p (s.forcedFit p) (if s.f (F.PORT_MODE_CFG_role p) % 2 = 0 then 1 else 2),
      setReg (R.PORT_PARTNER_ABIL p) (BitVec.ofNat 32 (2 ^ s.forcedFit p)), setF (F.PORT_PARTNER_FLAGS_valid p) 1]

/-- The line clocks a port needs are ready (R501, R513): the LPLL of its home quarter and of every quarter that holds its
usable slots; RLOOP for a segment. -/
def State.lineClock (s : State) (p : Nat) : Bool :=
  let ready := s.f F.CLK_READY_ready
  if portClass p = .segment then bitOf ready 4
  else bitOf ready (7 + homeQuarter p) && (s.usable p).all fun c => bitOf ready (7 + c.1)

/-- LISTEN_WAIT_END (R137): the wait ends and the port starts. Near-end loops, TDRs and anneals hold it (R198,
R263, R276, R295); so do domains that it needs (R21, R39) and pots that have not come back (R219, R220). -/
def listenWaitEnd (p : Nat) : Prog := .read fun s =>
  when (s.pst p == stListen && (s.port p).wait.isSome && !s.heldByLedger p && !(s.port p).stage
      && s.lineClock p && s.portPowered p && !(s.port p).returned && decide (portClass p ≠ .segment))
    (movePort p (startAttempt p))

/-- A failed negotiation: an_fail, back to LISTEN with the hold-off (R132, R137). -/
def anFail (p : Nat) : Prog :=
  block [raise (R.PORT_EVENT p) 5, satAdd (F.PORT_STATE_fail_count p) 1, toListen p true]

/-- The role that resolution gives (R126): 1 = master, 2 = slave, 0 = conflict. Role codes: 0 forced master, 1 forced
slave, 2 prefer master, 3 prefer slave. -/
def resolveRole (mine partner : Nat) (seedMaster : Bool) : Nat :=
  if mine < 2 then (if partner < 2 ∧ partner = mine then 0 else mine + 1)
  else if partner < 2 then 2 - partner
  else if mine ≠ partner then mine - 1
  else if seedMaster then 1 else 2

/-- Resolution on the exchanged pages (R122, R123, R128, R132, R168). -/
def resolve (p : Nat) (seedMaster : Bool) : Prog := .read fun s =>
  let offer := s.offeredFit p
  let theirs := s.f (F.PORT_PARTNER_ABIL_modes p) * 2 % 128
  let x50 := decide (p < 8) && s.bit (F.PORT_X50_STAT_p_x50 p) && s.bit (F.PORT_PARTNER_ABIL_vendor_page p)
  let common := Nat.land offer theirs + (if x50 && bitOf offer 7 then 128 else 0)
  let role := resolveRole (s.f (F.PORT_MODE_CFG_role p)) (s.f (F.PORT_PARTNER_ABIL_role_adv p)) seedMaster
  block [when (decide (p < 8) && bitOf offer 7 && !x50) (raise (R.PORT_TRK_EVENT p) 3),
    if role = 0 then block [raise (R.PORT_EVENT p) 7, anFail p]
    else match highBit 8 common with
      | none => anFail p
      | some m => movePort p (enterTrain p m role)]

/-- AN_PAGE_RECEIVED with a base page: modes offered (bits 7 to 1), role, EEE ability. -/
def anBase (p modes role : Nat) (eee : Bool) : Prog :=
  block [setReg (R.PORT_PARTNER_ABIL p) (BitVec.ofNat 32 (modes / 2 * 2 % 128 + 2 ^ 8 * (role % 4) + 2 ^ 10)),
    setF (F.PORT_PARTNER_FLAGS_valid p) 1, updPort p fun x => { x with partnerEee := eee }]

/-- AN_PAGE_RECEIVED with the X50 ability page (R168). -/
def anX50 (p w : Nat) : Prog :=
  block [setFBit (F.PORT_PARTNER_ABIL_modes p) 6 true,
    setF (F.PORT_X50_STAT_p_x50 p) 1, setF (F.PORT_X50_STAT_p_reach_15 p) (w / 16 % 2),
    setF (F.PORT_X50_STAT_p_tap_train p) (w / 32 % 2), setF (F.PORT_X50_STAT_p_quick_refresh p) (w / 64 % 2),
    setF (F.PORT_X50_STAT_p_fast_exit p) (w / 128 % 2)]

/-- AN_TIMEOUT (R132): no valid page within an_timeout_ms. -/
def anTimeout (p : Nat) : Prog := .read fun s => when (s.pst p == stNegotiate) (anFail p)

/-- A failed training (R129, R132): train_fail, the count of the mode, its exclusion at the limit. -/
def trainFail (p : Nat) : Prog := .read fun s =>
  let m := s.pmode p
  let n := (s.port p).trainFails.getD m 0 + 1
  let limit := s.f (F.PORT_TIMERS2_train_fail_limit p)
  let keeps := if s.bit (F.PORT_MODE_CFG_an_en p) then lowBit 8 (s.f (F.PORT_ADV_modes p) * 2) == some m else true
  block [raise (R.PORT_EVENT p) 6, satAdd (F.PORT_STATE_fail_count p) 1,
    when (limit != 0) (updPort p fun x => { x with trainFails := x.trainFails.put m n }),
    when (limit != 0 && decide (limit ≤ n) && !keeps && !bitOf (s.f (F.PORT_STATE_excluded p)) m)
      (block [setF (F.PORT_STATE_excluded p) (setBit (s.f (F.PORT_STATE_excluded p)) m), raise (R.PORT_EVENT p) 8]),
    toListen p true]

/-- TRAIN_TIMEOUT (R139). -/
def trainTimeout (p : Nat) : Prog := .read fun s => when (s.pst p == stTrain) (trainFail p)

/-- PARTNER_RESTART (R132): in TRAIN the port returns to LISTEN with train_fail, in NEGOTIATE with an_fail. -/
def partnerRestart (p : Nat) : Prog := .read fun s =>
  if s.pst p = stTrain then trainFail p else when (s.pst p == stNegotiate) (anFail p)

/-- TRAIN_STORED_TIMEOUT (R140): training goes on from defaults in the same TRAIN. -/
def trainStoredTimeout (p : Nat) : Prog := .read fun s =>
  when (s.pst p == stTrain && (s.port p).fromStored)
    (block [updPort p fun x => { x with fromStored := false, trainedTaps := if s.pmode p = 7 then some 0xFC0 else x.trainedTaps },
      tapQueue p])

/-- The link quality of a measured margin (R147 to R149). -/
def setQuality (p margin : Nat) : Prog := .read fun s =>
  let q := sqiOf (signed 16 margin)
  let warn := s.f (F.PORT_QUAL_CFG_sqi_warn p)
  block [setF (F.PORT_LINK_QUAL_mse_margin p) margin, setF (F.PORT_LINK_QUAL_sqi p) q,
    setF (F.PORT_LINK_QUAL_sqi_min p) (min q (s.f (F.PORT_LINK_QUAL_sqi_min p))),
    when (decide (q < warn) && (s.port p).sqiArmed)
      (block [raise (R.PORT_EVENT p) 4, updPort p fun x => { x with sqiArmed := false }]),
    when (decide (warn ≤ q)) (updPort p fun x => { x with sqiArmed := true })]

/-- LPI agreed with the partner (R311): quick_refresh of both sides in X50, EEE of both sides in standard modes. -/
def State.lpiAgreed (s : State) (p : Nat) : Bool :=
  if s.pmode p = 7 then s.bit (F.PORT_X50_STAT_p_quick_refresh p) && s.bit (F.PORT_LPI_CFG_eee_adv p)
  else decide (2 ≤ s.pmode p ∧ s.pmode p ≤ 6) && (s.port p).partnerEee && s.bit (F.PORT_LPI_CFG_eee_adv p)

/-- TRAIN_COMPLETE (R132, R140, R145, R169): margin and profile as measured. In X50 both sides have switched to PAM6, and a cane
member with a valid page has marker lock. Before UP the line stage ends (R261), the refined sets come into force (R265), the profile is
compared (R304) and the insertion loss written (R300). -/
def trainComplete (p margin : Nat) (d : TrainData) : Prog := .read fun s =>
  let m := s.pmode p
  let q := sqiOf (signed 16 margin)
  let lockNeeded := match s.caneOf p with
    | some (k, j) => m == 7 && s.pageValid k j m
    | none => false
  when (s.pst p == stTrain && (m != 7 || (s.port p).pam6) && decide (s.f (F.PORT_QUAL_CFG_sqi_drop p) ≤ q)
      && (!lockNeeded || s.bit (F.PORT_AM_STAT_am_lock p)))
    (block [trainSets p m d.sets, ilWrite p d.loss d.limit,
      profileDone p d.profile 1 m q margin false d.shelfOk fun c => setF (F.PORT_PARTNER_FLAGS_fp_match p) c,
      setF (F.PORT_STATE_state p) stUp, setF (F.PORT_STATE_fail_count p) 0,
      updPort p fun x => { x with trainFails := x.trainFails.del m, coeffMode := m, unc := [] },
      when (decide (p < 8) && m == 7) (updFur fun x => { x with taps := x.taps.put p ((s.port p).trainedTaps.getD 0xFC0) }),
      writeRecord p m ((s.usable p).map (·.1)),
      raise (R.PORT_EVENT p) 0, comparePartner p, setQuality p margin,
      when (decide (p < 8) && m == 7 && (s.port p).tapLimit) (raise (R.PORT_TRK_EVENT p) 2),
      .read fun t => block [
        setF (F.PORT_LPI_STAT_partner_eee p) (b2n (if m = 7 then t.bit (F.PORT_X50_STAT_p_quick_refresh p) else (t.port p).partnerEee)),
        setF (F.PORT_LPI_STAT_quick p) (b2n (m == 7 && t.lpiAgreed p))],
      tapQueue p, caneEnteredUp p, refreshNear p])

/-- LINK_QUAL_INTERVAL (R147 to R150): the margin of the interval, and codewords corrected and uncorrectable in it. -/
def linkQualInterval (p margin corr uncorr : Nat) : Prog := .read fun s =>
  when (s.linkUp p && decide (portClass p ≠ .segment))
    (block [setQuality p margin,
      when (s.pmode p != 1) (block [addWide (R.PORT_FEC_CORR p) 2 corr, addWide (R.PORT_FEC_UNCORR p) 2 uncorr,
        updPort p fun x => { x with unc := (s.now, uncorr) :: x.unc.filter fun e => decide (s.now < e.1 + 1000000) }])])

/-- BLOCK_LOCK (R142, R620); on a segment cause 0x01 comes only from beacon loss. -/
def blockLock (p uncLast : Nat) : Prog := when (decide (portClass p ≠ .segment)) (portDrop p 1 uncLast)

/-- FEC_BURST (R142): n uncorrectable codewords within 1 ms. A segment has no such cause (R244). -/
def fecBurst (p n : Nat) : Prog := .read fun s =>
  when (decide (portClass p ≠ .segment) && s.f (F.PORT_QUAL_CFG_unc_burst p) != 0 && decide (s.f (F.PORT_QUAL_CFG_unc_burst p) ≤ n)) (portDrop p 2 n)

/-- SQI_LOW (R142): SQI below sqi_drop for drop_ms. On a segment sqi_drop has no effect (R253). -/
def sqiLow (p uncLast : Nat) : Prog := .read fun s =>
  when (decide (portClass p ≠ .segment) && decide (s.f (F.PORT_LINK_QUAL_sqi p) < s.f (F.PORT_QUAL_CFG_sqi_drop p))) (portDrop p 3 uncLast)

/-- PARTNER_DOWN (R142). A segment has no such cause (R244). -/
def partnerDown (p uncLast : Nat) : Prog := when (decide (portClass p ≠ .segment)) (portDrop p 4 uncLast)

/-- COUNTER_CLEAR (R155). -/
def counterClear (p : Nat) : Prog := clearCounters p

/-- A commit changed the port's mode fields (R132, R136): mode_applied, the cane goes DOWN, an attempt starts again. A
segment leaves UP for LISTEN (R244). -/
def modeCommitted (p : Nat) : Prog := .read fun s =>
  block [raise (R.PORT_EVENT p) 14, caneModeCommit p,
    when (decide (portClass p = .segment) && s.pst p == stListen)
      (block [updPort p fun x => { x with noModeRaised := false, wait := some (x.wait.getD false) },
        when (!s.segValid p) (noMode p)]),
    when (decide (stNegotiate ≤ s.pst p ∧ s.pst p ≤ stLpi))
      (if portClass p = .segment then toListen p false
       else movePort p (block [setMode p 0 0, qualIdle p, clearPartner p, setF (F.PORT_STATE_state p) stListen, startAttempt p,
         .read fun t => when (t.pst p == stListen) (updPort p fun x => { x with wait := some false })]))]

/-- A port becomes orphaned (R157, R158). -/
def orphanEnter (p : Nat) : Prog := .read fun s =>
  when (!s.bit (F.PORT_STATE_orphan p))
    (block [setF (F.PORT_STATE_orphan p) 1, raise (R.PORT_EVENT p) 10,
      when (s.orphanSleep (s.macPort p))
        (if s.linkUp p then
           (if portClass p = .segment then updPort p fun x => { x with sleepWait := true } else startHandshake p)
         else when (s.pst p == stListen || s.pst p == stNegotiate || s.pst p == stTrain)
           (toSleep p 5))])

/-- The orphan state ends and the port does not change state: under the policy SLEEP it stays in SLEEP until it is woken
(R158). -/
def orphanExit (p : Nat) : Prog := .read fun s =>
  when (s.bit (F.PORT_STATE_orphan p))
    (block [setF (F.PORT_STATE_orphan p) 0, raise (R.PORT_EVENT p) 11,
      when (s.heldByOrphan p && s.pst p == stSleep && (s.port p).leaving)
        (block [updPort p fun x => { x with leaving := false, byWake := false }, setF (F.PORT_STATE_held p) 0])])

/-- An orphan under the policy SLEEP that has come to LISTEN, NEGOTIATE or TRAIN goes straight to SLEEP (R157). -/
def orphanEdge : Prog := .read fun s =>
  each (allPorts.filter fun p => s.heldByOrphan p && decide (stListen ≤ s.pst p ∧ s.pst p ≤ stTrain)) fun p => toSleep p 5

/-- The launch amplitude of a port (R160), in 4 mV: amp under override, else amp_default, bounded by its governor. -/
def State.launchAmp (s : State) (p : Nat) : Nat :=
  min (if s.bit (F.PORT_TX_AMP_override p) then s.f (F.PORT_TX_AMP_amp p) else s.f (F.PORT_TX_AMP_amp_default p)) (s.ampCeiling p)

/-- The weight of a tap coefficient at the line, in 4 mV / 63 (R171). -/
def State.tapWeight (s : State) (p : Nat) (c : Int) : Int := c * s.launchAmp p

/-- The slice launches at its amplitude. -/
def launchSet (p : Nat) : Prog := .read fun s => send (.line p "amplitude" (s.launchAmp p))

/-- A write of TX_AMP (R115, R160): an amplitude above the ceiling is stored at it, with C2 GOVERNOR_CLAMP and
amp_clamped. -/
def txAmpWrite (p amp : Nat) (override : Bool) : Prog := .read fun s =>
  let beyond := decide (s.ampCeiling p < amp)
  block [setF (F.PORT_TX_AMP_amp p) (min amp (s.ampCeiling p)), setF (F.PORT_TX_AMP_override p) (b2n override),
    when beyond (block [governorClamp (R.PORT_TX_AMP p) 0 p, raise (R.PORT_EVENT p) 12]), launchSet p]

/-! Training frames of X50 (R170, R174). -/

/-- One tap step: coefficient, request code, width sign; answers the new value or none where the range ends. -/
def tapStep (v : Int) (req : Nat) (lo hi initial : Int) : Option Int :=
  let n := if req = 1 then v + 1 else if req = 2 then v - 1 else if req = 3 then initial else v
  if lo ≤ n ∧ n ≤ hi then some n else none

/-- The tap word of three coefficients. -/
def tapWord (pre main post : Int) : Nat := unsigned 6 pre + 64 * unsigned 6 main + 4096 * unsigned 6 post

/-- The body of a training frame (R170), its CRC included. -/
def frameBody (req rep : Nat) (ready : Bool) (count seq : Nat) : Nat :=
  let b := req % 64 + 2 ^ 6 * (rep % 64) + 2 ^ 12 * b2n ready + 2 ^ 13 * (count % 256) + 2 ^ 32 * (seq % 256)
  b + 2 ^ 40 * crc8 0 (leBytes 5 b)

/-- This side sends a training frame (R170). What its receiver asks of the partner's taps, and when it needs no more, the
device's equaliser decides: free values; a request that was not answered is repeated (log entry 164). With rx_ready of both
sides the master counts 8 frames down to the switch; the slave sends the count it has received. -/
def sendTraining (p : Nat) : Prog := .read fun s => withFree fun v =>
  let x := s.port p
  let req := if x.ownReady then 0 else if x.ownReq ≠ 0 then x.ownReq else v.toNat % 64
  let ready := x.ownReady || (req == 0 && x.ownReq == 0)
  let master := s.f (F.PORT_STATE_role p) == 1
  let count := if !master then x.pam6Count
    else if x.pam6Count = 255 then (if ready && x.rxReady then 8 else 255) else x.pam6Count - 1
  block [updPort p fun y => { y with ownReq := req, ownReady := ready, pam6Count := count, txSeq := (y.txSeq + 1) % 256 },
    send (.line p "training_frame" (frameBody req x.tapReply ready count x.txSeq))]

/-- A port sends training frames in X50 TRAIN until the switch: the master from the entry, the slave once it has acquired the
master's (R169, R170). -/
def State.sendsTraining (s : State) (p : Nat) : Bool :=
  s.pst p == stTrain && s.pmode p == 7 && !(s.port p).pam6 && (s.f (F.PORT_STATE_role p) == 1 || (s.port p).heard)

/-- The requests of a frame that the partner's replies answer (R170): one bit pair at a time. -/
def unanswered (req rep : Nat) : Nat :=
  let left := fun (i : Nat) => if rep / 4 ^ i % 4 = 0 then req / 4 ^ i % 4 * 4 ^ i else 0
  left 0 + left 1 + left 2

/-- A training frame without CRC error is acted on (R170, R174): one request at a time for pre, main and post, replies,
rx_ready and pam6_count. A request for the initial taps means (0, 63, 0), also after a start from stored taps (DESIGN CHOICE: log
entry 163). -/
def trainingFrame (p body : Nat) : Prog := .read fun s =>
  let x := s.port p
  let crcOk := crc8 0 (leBytes 5 (body % 2 ^ 40)) == body / 2 ^ 40 % 256
  let allowed := s.bit (F.PORT_TAP_CTL_train_en p) && !s.bit (F.PORT_TAP_CTL_override p)
  let t := tapOf (x.trainedTaps.getD 0xFC0)
  let rPre := body % 4
  let rMain := body / 4 % 4
  let rPost := body / 16 % 4
  let pre := (tapStep t.1 rPre (-32) 31 0).getD t.1
  let preOk := (tapStep t.1 rPre (-32) 31 0).isSome && tapOk (tapWord pre t.2.1 t.2.2)
  let pre' := if preOk then pre else t.1
  let main := (tapStep t.2.1 rMain 0 63 63).getD t.2.1
  let mainOk := (tapStep t.2.1 rMain 0 63 63).isSome && tapOk (tapWord pre' main t.2.2)
  let main' := if mainOk then main else t.2.1
  let post := (tapStep t.2.2 rPost (-32) 31 0).getD t.2.2
  let postOk := (tapStep t.2.2 rPost (-32) 31 0).isSome && tapOk (tapWord pre' main' post)
  let post' := if postOk then post else t.2.2
  let rep := fun (req : Nat) (ok : Bool) => if !allowed ∨ req = 0 then 0 else if ok then 1 else 2
  let reply := rep rPre preOk + 4 * rep rMain mainOk + 16 * rep rPost postOk
  let limits := b2n (rep rPre preOk == 2) + b2n (rep rMain mainOk == 2) + b2n (rep rPost postOk == 2)
  let asked := rPre + rMain + rPost != 0
  let count := body / 2 ^ 13 % 256
  when (s.pst p == stTrain && s.pmode p == 7 && crcOk && decide (p < 8))
    (block [
      when allowed (updPort p fun y => { y with trainedTaps := some (tapWord pre' main' post') }),
      updPort p fun y => { y with tapReply := reply, heard := true, ownReq := unanswered y.ownReq (body / 2 ^ 6 % 64), rxReady := y.rxReady || bitOf body 12, pam6Count := if count ≠ 255 ∧ s.f (F.PORT_STATE_role p) ≠ 1 then count else y.pam6Count, tapLimit := y.tapLimit || decide (0 < limits) },
      when asked (satAdd (F.PORT_TAP_STAT_exchanges p) 1),
      satAdd (F.PORT_TAP_STAT_limit_hits p) limits, tapQueue p])

/-- PAM6_SWITCH (R170): both sides have sent rx_ready and pam6_count reaches 0; both switch. -/
def pam6Switch (p : Nat) : Prog := .read fun s =>
  let x := s.port p
  when (s.pst p == stTrain && s.pmode p == 7 && x.rxReady && x.ownReady && x.pam6Count != 255)
    (updPort p fun y => { y with pam6 := true, pam6Count := 0 })

end Sys2Proof.Machine
end

