-- ==== Sys2Proof/Machine/Ledger.lean ====
section
/-!
DEFINITION. The maintenance ledger (R285 to R293), the test loops (R195 to R199), and the pot commands (R218 to R225).
-/
namespace Sys2Proof.Machine

/-- Whether two requests name a common resource, shared or not (R288: an entry waits for every older entry that needs
one of its resources). -/
def Booking.overlaps (b c : Booking) : Bool :=
  b.ports.any (fun p => c.ports.contains p) || b.blines.any (fun p => c.blines.contains p) ||
  (b.flash && c.flash) || (b.cellar && c.cellar) || b.qtrs.any (fun q => c.qtrs.contains q)

/-- A request can be booked at once (R287, R288, R290): nothing held clashes, a booking entry is free, no older queued
request needs one of its resources. -/
def grantable (books older : List Booking) (b : Booking) : Bool :=
  books.all (fun c => !b.clashes c) && decide (books.length < 32) && older.all fun c => !b.overlaps c

/-- A request to the ledger (R287 to R290): granted at once, queued, or refused with CONFLICT or FULL. -/
def ledgerRequest (b : Booking) (noWait : Bool) (granted queued refused : Prog) : Prog := .read fun s =>
  if grantable s.ledger.books s.ledger.queue b then block [.act (.grant b), granted]
  else if noWait then block [setF F.DIAG_LEDGER_STAT_last_refusal 1, refused]
  else if s.ledger.queue.length ≥ 8 then
    block [setF F.DIAG_LEDGER_STAT_last_refusal 2, satAdd F.DIAG_LEDGER_STAT_full_count 1, raise R.DIAG_EVENT 5, refused]
  else block [.act (.enqueue b), queued]

/-- The quarters of a port's usable slots. -/
def State.portQuarters (s : State) (p : Nat) : List Nat := (s.usable p).map (·.1)

/-- The booking of a one-port activity (R286). -/
def portBooking (s : State) (req act p : Nat) : Booking :=
  { req := req, act := act, port := p, bundle := (s.bundleOf p).getD 0x1F, ports := [p]
    blines := if act = 1 then (s.bundleOf p).toList else []
    qtrs := if act = 3 ∨ act = 4 then s.portQuarters p else []
    flash := false, cellar := false }

/-! Loops. -/

/-- The activity of a loop kind: 1 serial, 2 parallel, 3 far-end. -/
def loopAct (kind : Nat) : Nat := 3 + kind

/-- The mode a loop runs in (R195): LOOP_CTL.mode, or the top mode where that is 0. -/
def State.loopMode (s : State) (p : Nat) : Nat :=
  if s.f (F.PORT_LOOP_CTL_mode p) = 0 then s.topMode p else s.f (F.PORT_LOOP_CTL_mode p)

/-- Why a loop may not start (R196), the ledger aside; 0 = it may. -/
def State.loopRefusal (s : State) (p : Nat) : Nat :=
  let kind := s.f (F.PORT_LOOP_CTL_kind p)
  let force := s.bit (F.PORT_LOOP_CTL_force p)
  let st := s.pst p
  let near := kind == 1 || kind == 2
  let member := match s.caneOf p with
    | some (k, j) => bitOf (s.admitted k) j && (s.cst k == cnUp || s.cst k == cnDegraded)
    | none => false
  if near && decide (3 ≤ st ∧ st ≤ 6) && !force then 3
  else if (near && (st == stDisabled || st == stSleep || st == stFault)) || (kind == 3 && st != stUp) then 4
  else if kind == 1 && ((s.port p).returned || (s.usable p).isEmpty) then 5
  else if member && !force then 6
  else if !bitOf (classModes (portClass p)) (s.loopMode p) || decide (s.topMode p < s.loopMode p) then 8
  else 0

/-- A granted loop starts (R195, R196, R198). -/
def loopRun (p : Nat) : Prog := .read fun s =>
  let kind := s.f (F.PORT_LOOP_CTL_kind p)
  block [
    when (kind != 3 && s.linkUp p) (portDropNow p 7),
    when (kind != 3 && (s.pst p == stNegotiate || s.pst p == stTrain)) (toListen p true),
    updPort p fun x => { x with loop := kind, loopHeld := true },
    .read fun t => ifSome (t.caneOf p) fun kj => loseLane kj.1 kj.2 caneDrop,
    setWide (R.PORT_LOOP_BITS p) 2 0, setWide (R.PORT_LOOP_ERRS p) 2 0, setF (F.PORT_LOOP_STAT_state p) 2, setF (F.PORT_LOOP_STAT_result p) 0,
    refreshNear p]

/-- LOOP_START (R196, R197): refused with its code, queued, or run. A kind of 0 names no loop and does nothing. -/
def loopStart (req p : Nat) : Prog := .read fun s =>
  let kind := s.f (F.PORT_LOOP_CTL_kind p)
  let why := s.loopRefusal p
  let refuse := fun (c : Nat) => block [setF (F.PORT_LOOP_STAT_state p) 4, setF (F.PORT_LOOP_STAT_result p) c]
  when (kind != 0 && (s.port p).loop == 0 && s.f (F.PORT_LOOP_STAT_state p) != 1 && decide (portClass p ≠ .segment))
    (if why ≠ 0 then refuse why
     else ledgerRequest (portBooking s req (loopAct kind) p) (s.bit (F.PORT_LOOP_CTL_no_wait p)) (loopRun p)
       (setF (F.PORT_LOOP_STAT_state p) 1) (refuse 7))

/-- LOOP_STOP and LOOP_DURATION_EXPIRE (R199). A duration of 0 never expires. -/
def loopStop (p : Nat) : Prog := block [abortLoop p, refreshNear p]
def loopDurationExpire (p bits errs : Nat) : Prog := .read fun s =>
  when ((s.port p).loop != 0 && (s.reg (R.PORT_LOOP_TIME p)).toNat != 0)
    (block [when ((s.port p).loop != 3 && s.f (F.PORT_LOOP_CTL_source p) == 0)
        (block [addWide (R.PORT_LOOP_BITS p) 2 bits, addWide (R.PORT_LOOP_ERRS p) 2 errs]),
      endLoop p 1, refreshNear p])

/-! Pots. -/

/-- POT_RETURN_DONE (R218): a sleeping port with on_sleep, or a port in deep LPI with on_deep_lpi, has its slots copied
to the store, gated, and marked returned. -/
def potReturnDone (p : Nat) : Prog := .read fun s =>
  let asleep := s.pst p == stSleep && s.bit (F.FUR_RETURN_on_sleep p)
  let deep := s.pst p == stLpi && s.bit (F.PORT_LPI_STAT_deep p) && s.bit (F.FUR_RETURN_on_deep_lpi p)
  when ((asleep || deep) && !(s.port p).returned && !(s.usable p).isEmpty && !(s.port p).leaving)
    (block [when ((s.port p).coeffMode != 0) (writeRecord p (s.port p).coeffMode (s.portQuarters p)),
      updPort p fun x => { x with returned := true, reclaimLeft := [] }])

/-- POT_RECLAIM_DONE (R219, R220): quarter q has loaded the slots of the port at the head of its queue; with the last
quarter the slots are back and the port leaves SLEEP. -/
def potReclaimDone (p q : Nat) : Prog := .read fun s =>
  when ((s.fur.reclaims.getD q []).head? == some p && s.portPowered p && !s.heldByRemould p)
    (block [updFur fun x => { x with reclaims := x.reclaims.put q ((x.reclaims.getD q []).tail) },
      updPort p fun x => { x with reclaimLeft := x.reclaimLeft.erase q },
      .read fun t => when ((t.port p).reclaimLeft.isEmpty)
        (block [updPort p fun x => { x with returned := false, coeffMode := (t.storedMode p).getD 0 }, tryLeave p])])

/-- Slots of a port or canceller on a pot have been lost (R212 with the usable counts changed): its record is cleared
and it restarts. -/
def ownerLost (o : Nat) : Prog := .read fun s =>
  if o < 64 then
    block [clearRecord o, updPort o fun x => { x with coeffMode := 0 },
      if s.linkUp o then portDropNow o 8
      else when (s.pst o == stNegotiate || s.pst o == stTrain) (portRestart o)]
  else if 4096 ≤ o then
    block [clearRecord o, updBnd ((o - 4096) / 64) fun y => { y with pairs := y.pairs.del ((o - 4096) % 64) },
      refreshBundle ((o - 4096) / 64)]
  else .skip

/-- The owners with slots on pot n. -/
def State.potOwners (s : State) (n : Nat) : List Nat :=
  ((s.slots.filter fun e => e.1 / 8 == n).map (·.2)).eraseDups

/-- ECC_CORR of pot n (R223). -/
def eccCorr (n syndrome addr : Nat) : Prog :=
  block [satAdd (F.POT_ECC_corr n) 1, emit (0x10 + n / 32) kEccCorr 1 (syndrome % 256) addr]

/-- ECC_UNCORR of pot n (R224): the spare is mapped in, or the pot is marked dead; its owners restart. -/
def eccUncorr (n syndrome : Nat) : Prog := .read fun s =>
  let q := n / 32
  block [satAdd (F.POT_ECC_uncorr n) 1, raise R.FUR_EVENT 0, emit (0x10 + q) kEccUncorr 2 (syndrome % 256) n,
    if s.f (F.FUR_QTR_STAT_spare q) = 0 then
      block [setF (F.FUR_QTR_STAT_spare q) 1, setF (F.FUR_QTR_SPARE_mapped q) 1, setF (F.FUR_QTR_SPARE_pot q) (n % 32),
        setF (F.POT_STAT_spare n) 1, raise R.FUR_EVENT 1]
    else block [setFBit (F.FUR_QTR_DEAD_dead q) (n % 32) true, setF (F.POT_STAT_dead n) 1, raise R.FUR_EVENT 2],
    each (s.potOwners n) ownerLost]

/-- The ports and cancellers that bar a pot self-test of a quarter (R225). -/
def State.quarterBusy (s : State) (q : Nat) : Bool :=
  (s.slots.filter fun e => e.1 / 256 == q).any fun e => realOwner e.2 &&
    if e.2 < 64 then !(s.pst e.2 == stSleep || s.pst e.2 == stDisabled)
    else
      let st := s.f (F.BND_PAIR_STAT_state ((e.2 - 4096) / 64) ((e.2 - 4096) % 64))
      st == pcConverging || st == pcActive || st == pcFrozen

/-- A granted self-test of quarter q runs. -/
def selftestRun (q : Nat) : Prog :=
  block [updFur fun x => { x with testing := if x.testing.contains q then x.testing else q :: x.testing },
    setFBit F.FUR_SELFTEST_busy q true, setFBit F.FUR_SELFTEST_refused q false]

/-- The booking of a pot self-test (R286). -/
def selftestBooking (req q : Nat) : Booking :=
  { req := req, act := 7, port := 0xFF, bundle := 0x1F, ports := [], blines := [], qtrs := [q], flash := false, cellar := false }

/-- POT_SELFTEST_START (R225): each quarter of the mask is refused, queued or tested. -/
def potSelftestStart (req mask : Nat) : Prog :=
  each (bitList 4 mask) fun q => .read fun s =>
    let refuse := setFBit F.FUR_SELFTEST_refused q true
    let waiting := (s.ledger.books ++ s.ledger.queue).any fun b => b.act == 7 && b.qtrs.contains q
    when (!waiting)
      (if s.quarterBusy q then refuse else ledgerRequest (selftestBooking req q) false (selftestRun q) .skip refuse)

/-- The failures of a self-test of quarter q (R221): failed physical pots among those in service (local numbers) and the
spare. The spare takes the place of the lowest-numbered failed pot, every further one is dead. -/
def selftestMarks (q failed : Nat) (spareFailed : Bool) : Prog := .read fun s =>
  let fails := (bitList 32 failed).filter fun i => !bitOf (s.f (F.FUR_QTR_DEAD_dead q)) i
  let spareFree := s.f (F.FUR_QTR_STAT_spare q) == 0 && !spareFailed
  block [when (spareFailed && s.f (F.FUR_QTR_STAT_spare q) == 0)
      (block [setF (F.FUR_QTR_STAT_spare q) 2, emit (0x10 + q) kSelftestFail 1 0 (0x80 + q)]),
    each fails fun i =>
      if spareFree && fails.head? == some i then
        block [setF (F.FUR_QTR_STAT_spare q) 1, setF (F.FUR_QTR_SPARE_mapped q) 1, setF (F.FUR_QTR_SPARE_pot q) i,
          setF (F.POT_STAT_spare (32 * q + i)) 1, emit (0x10 + q) kSelftestFail 1 0 (32 * q + i)]
      else
        block [setFBit (F.FUR_QTR_DEAD_dead q) i true, setF (F.POT_STAT_dead (32 * q + i)) 1, raise R.FUR_EVENT 2,
          emit (0x10 + q) kSelftestFail 2 0 (32 * q + i)]]

/-- POT_SELFTEST_DONE of quarter q (R216, R221, R225): the records clear, failures are marked, and the cancellers of the quarter
take their states; a requested test releases its booking, raises selftest_done and tells whether it found a new failure. -/
def potSelftestDone (q failed : Nat) (spareFailed : Bool) : Prog := .read fun s =>
  let fresh := (bitList 32 failed).any (fun i => !bitOf (s.f (F.FUR_QTR_DEAD_dead q)) i)
    || (spareFailed && s.f (F.FUR_QTR_STAT_spare q) == 0)
  when (s.fur.testing.contains q && s.domOn (domFur q)) <| block [updFur fun x => { x with testing := x.testing.erase q }, clearQuarter q,
    each allPorts fun p => .read fun t => when ((t.portQuarters p).contains q) (updPort p fun x => { x with coeffMode := 0 }),
    selftestMarks q failed spareFailed,
    when (bitOf (s.f F.FUR_SELFTEST_busy) q)
      (block [setFBit F.FUR_SELFTEST_busy q false, setFBit F.FUR_SELFTEST_failed q fresh,
        raise R.FUR_EVENT 6,
        ifSome (s.ledger.books.find? fun b => b.act == 7 && b.qtrs.contains q) fun b => .act (.release b)]),
    refreshBundles]

/-! Cancellers. -/

/-- The depth minimum of a canceller in 0.1 dB (R235): victim mode, whether the pair has a FEXT section. -/
def depthMin (mode : Nat) (fext : Bool) : Nat :=
  if 6 ≤ mode then (if fext then 150 else 200) else if 3 ≤ mode then (if fext then 140 else 180)
  else (if fext then 120 else 160)

/-- A canceller becomes ACTIVE (R231): weak where its depth is below the minimum. -/
def cancellerActive (b i depth : Nat) : Prog := .read fun s =>
  block [updBnd b fun y => { y with pairs := y.pairs.put i { (y.pairs.getD i {}) with met := true } },
    when (decide (depth < depthMin (s.f (F.BND_STAT_mode b)) (s.f (F.BND_PAIR_CFG_kind b i) == 3)))
      (raise (R.BND_EVENT b) 4),
    refreshBundle b]

/-- CANCELLER_DEPTH_INTERVAL (R231, R232): the depth of the interval; the criterion is a change below 0.3 dB over two
consecutive intervals. -/
def cancellerDepth (b i depth : Nat) : Prog := .seq (bundleEdge b) <| .read fun s =>
  let st := s.f (F.BND_PAIR_STAT_state b i)
  let old := ((s.bnd b).pairs.getD i {}).depths
  let near := fun (x y : Nat) => decide (x < y + 3 ∧ y < x + 3)
  let met := match old with
    | d1 :: d2 :: _ => near depth d1 && near d1 d2
    | _ => false
  when (st == pcConverging || st == pcActive || st == pcFrozen)
    (block [setF (F.BND_PAIR_STAT_depth b i) depth,
      updBnd b fun y => { y with pairs := y.pairs.put i { (y.pairs.getD i {}) with depths := (depth :: old).take 2 } },
      when (st == pcConverging && met) (cancellerActive b i depth)])

/-- CONVERGENCE_MAX_EXPIRE (R231). -/
def convergenceMax (b i : Nat) : Prog := .seq (bundleEdge b) <| .read fun s =>
  when (s.f (F.BND_PAIR_STAT_state b i) == pcConverging) (cancellerActive b i (s.f (F.BND_PAIR_STAT_depth b i)))

/-- BUNDLE_RESTART (R233, BND[b].CTL.restart): every record of the bundle is cleared, its cancellers restart from
zero. -/
def bundleRestart (b : Nat) : Prog := .seq (bundleEdge b) <| .read fun s =>
  when (s.bit (F.BND_CFG_valid b))
    (block [each (List.range (s.f (F.BND_CFG_pairs b))) fun i => clearRecord (cancelOwner b i),
      updBnd b fun _ => {}, refreshBundle b])

end Sys2Proof.Machine
end

