-- ==== Sys2Proof/Machine/Sleep.lean ====
section
/-!
DEFINITION. Low-power idle, sleep and wake of links (chapter 10).
-/
namespace Sys2Proof.Machine

/-! LPI. -/

/-- The members that enter and leave LPI with a port (R316): the admitted members of its cane in a bond mode. -/
def State.lpiGroup (s : State) (p : Nat) : List Nat :=
  match s.caneOf p with
  | some (k, j) =>
    if bitOf (s.admitted k) j && bondMode (s.pmode p) then (bitList 4 (s.admitted k)).map (2 * k + ·) else [p]
  | none => [p]

/-- A port is in state LPI while both directions are quiet (R312); its bundle sees the quiet (R230, R317). -/
def lpiState (p : Nat) : Prog := .read fun s =>
  let both := s.bit (F.PORT_LPI_STAT_tx_lpi p) && s.bit (F.PORT_LPI_STAT_rx_lpi p)
  if both && s.pst p == stUp then
    block [setF (F.PORT_STATE_state p) stLpi, satAdd (F.PORT_LPI_ENTRIES_entries p) 1, raise (R.PORT_TC10_EVENT p) 5,
      refreshBundleOf p]
  else refreshBundleOf p

/-- LPI_ENTRY (R310 to R312, R316): the transmit direction has been idle for idle_us with nothing queued. -/
def lpiEntry (p : Nat) : Prog := .read fun s =>
  let ok := fun (g : Nat) => s.pst g == stUp && s.bit (F.PORT_LPI_CFG_lpi_allow g) && s.lpiAgreed g
    && !(s.port g).localSleep && !(s.port g).partnerSleep && !(s.port g).exiting
    && (s.port g).txq.isEmpty && (s.port g).sending.isNone
  when (decide (portClass p ≠ .segment) && (s.lpiGroup p).all ok)
    (each (s.lpiGroup p) fun g => block [setF (F.PORT_LPI_STAT_tx_lpi g) 1, send (.line g "lpi" 1), lpiState g])

/-- RECEIVE_QUIET (R312): the partner enters LPI. -/
def receiveQuiet (p : Nat) : Prog := .read fun s =>
  when (s.pst p == stUp && s.lpiAgreed p && decide (portClass p ≠ .segment))
    (each (s.lpiGroup p) fun g => block [setF (F.PORT_LPI_STAT_rx_lpi g) 1, lpiState g])

/-- The wake signal of a mode: in X50 a PAM2 burst of 2 µs, then PAM6 idle (R193). -/
def wakeSignal (p : Nat) : Prog := .read fun s =>
  if s.pmode p = 7 then block [send (.line p "pam2_burst" 2000), send (.line p "pam6_idle" 0)] else send (.line p "wake" 1)

/-- An exit from LPI begins (R313, R314): the exit runs until LPI_EXIT_COMPLETE. Pots returned in deep LPI are asked back (R318,
R220). -/
def lpiExitBegin (p : Nat) : Prog := .read fun s =>
  each (s.lpiGroup p) fun g => when (s.linkUp g && s.bit (F.PORT_LPI_STAT_tx_lpi g))
    (block [setF (F.PORT_LPI_STAT_tx_lpi g) 0, updPort g fun x => { x with exiting := true }, wakeSignal g, reclaimAsk g,
      refreshBundleOf g])

/-- LPI_EARLY_EXIT (R313). -/
def lpiEarlyExit (p : Nat) : Prog := lpiExitBegin p

/-- LPI_WAKE_SIGNAL (R314): the partner's wake signal ends the receive quiet and begins the exit. A port in LPI is
leaving it; a port in UP with a quiet receive direction hears the partner again. -/
def lpiWakeSignal (p : Nat) : Prog := .read fun s =>
  each (s.lpiGroup p) fun g => when (s.linkUp g && s.bit (F.PORT_LPI_STAT_rx_lpi g))
    (block [setF (F.PORT_LPI_STAT_rx_lpi g) 0,
      when (s.pst g == stLpi) (block [setF (F.PORT_LPI_STAT_tx_lpi g) 0, updPort g fun x => { x with exiting := true }, reclaimAsk g]),
      refreshBundleOf g])

/-- LPI_EXIT_COMPLETE (R310): frames may flow again and the port is in UP. The pots that a member returned in deep LPI must have
been reclaimed (R318). -/
def lpiExitComplete (p : Nat) : Prog := .read fun s =>
  when ((s.lpiGroup p).all fun g => !(s.port g).returned)
    (each (s.lpiGroup p) fun g => when (s.linkUp g && (s.port g).exiting)
      (block [updPort g fun x => { x with exiting := false }, setF (F.PORT_LPI_STAT_deep g) 0, setF (F.PORT_LPI_STAT_tx_lpi g) 0,
        lpiToUp g, refreshBundleOf g]))

/-- LPI_EXIT_TIMEOUT (R194, R310): the port drops with cause 0x05. -/
def lpiExitTimeout (p : Nat) : Prog := .read fun s =>
  when (s.linkUp p && (s.port p).exiting) (portDropNow p 5)

/-- The ports that refresh on the instants of p (R317): the members of its bundle in LPI in its mode, the lowest position first. -/
def State.refreshWith (s : State) (p : Nat) : List Nat :=
  match s.bundleOf p with
  | some b => ((s.members b).filter fun m => s.pst m.2 == stLpi && s.pmode m.2 == s.pmode p).map (·.2)
  | none => [p]

/-- QUICK_REFRESH (R207, R315 to R318): training tone and idle codewords on the line for 6 codewords, in which the receiver refines
its timing and equalisers and the cancellers track. In deep LPI the port ignores what it receives. The instants are those of the
lowest position of the bundle that is in LPI: what is due at another member only goes out with them. -/
def quickRefresh (p : Nat) : Prog := .read fun s =>
  when (s.pst p == stLpi && s.pmode p == 7 && s.bit (F.PORT_LPI_STAT_quick p) && (s.refreshWith p).head? == some p)
    (each (s.refreshWith p) fun g => block [send (.line g "quick_refresh" 6),
      when (!s.bit (F.PORT_LPI_STAT_deep g)) (updPort g fun x => { x with refreshUntil := s.now + 615 }), refreshBundleOf g])

/-- A refresh has ended: the port is quiet again. -/
def refreshEnd (p : Nat) : Prog := .read fun s =>
  when ((s.port p).refreshUntil != 0 && decide ((s.port p).refreshUntil ≤ s.now))
    (block [updPort p fun x => { x with refreshUntil := 0 }, refreshBundleOf p])

/-- DEEP_LPI_ENTRY (R318). -/
def deepLpiEntry (p : Nat) : Prog := .read fun s =>
  when (s.pst p == stLpi && s.bit (F.PORT_LPI_CFG_deep_en p) && !s.bit (F.PORT_LPI_STAT_deep p))
    (block [setF (F.PORT_LPI_STAT_deep p) 1, raise (R.PORT_TC10_EVENT p) 6])

/-! TC10 sleep. -/

/-- The members that run a handshake with a port (R322). -/
def State.sleepGroup (s : State) (p : Nat) : List Nat :=
  match s.caneOf p with
  | some (k, j) => if bitOf (s.admitted k) j then (bitList 4 (s.admitted k)).map (2 * k + ·) else [p]
  | none => [p]

/-- SLEEP_REPLY_RECEIVED (R320): an acknowledgement or a rejection; the transmitter goes silent either way. -/
def sleepReplyReceived (p : Nat) (ack : Bool) : Prog := .read fun s =>
  when ((s.port p).localSleep && s.f (F.PORT_TC10_STAT_hs p) == 1)
    (block [setF (F.PORT_TC10_STAT_hs p) 3, setF (F.PORT_TC10_STAT_last_sleep p) (if ack then 1 else 3),
      when (!ack) (raise (R.PORT_TC10_EVENT p) 2), send (.line p "silent" 0)])

/-- The ports of a group enter SLEEP by the handshake on one edge. -/
def groupSleep (g : List Nat) (last : Nat → Nat) (timeout : Bool) : Prog :=
  each g fun m => .read fun t => when (t.linkUp m)
    (block [toSleep m (last m), raise (R.PORT_TC10_EVENT m) 0, when timeout (raise (R.PORT_TC10_EVENT m) 1)])

/-- PARTNER_SILENCE (R320, R321): SLEEP, on every member that runs the handshake. A partner that falls silent outside a
handshake drops the link by its lock timer, not here. -/
def partnerSilence (p : Nat) : Prog := .read fun s =>
  let x := s.port p
  when ((x.localSleep && s.f (F.PORT_TC10_STAT_hs p) == 3) || x.partnerSleep)
    (groupSleep (s.sleepGroup p) (fun m => if (s.port m).partnerSleep then 4 else s.f (F.PORT_TC10_STAT_last_sleep m)) false)

/-- SLEEP_TIMEOUT (R320): sleep_timeout_ms after the request. -/
def sleepTimeout (p : Nat) : Prog := .read fun s =>
  when (s.port p).localSleep (groupSleep (s.sleepGroup p) (fun _ => 2) true)

/-- SLEEP_REQUEST_RECEIVED (R321, R322): acknowledged, or refused with sleep_refused. A segment runs no handshake (R245). -/
def sleepRequestReceived (p : Nat) : Prog := .read fun s =>
  when (s.linkUp p && decide (portClass p ≠ .segment))
    (if s.bit (F.PORT_TC10_CFG_accept_sleep p) then
      each (s.sleepGroup p) fun g => .read fun t => when (t.linkUp g)
        (block [lpiToUp g, setF (F.PORT_LPI_STAT_tx_lpi g) 0, setF (F.PORT_LPI_STAT_rx_lpi g) 0, setF (F.PORT_TC10_STAT_hs g) 2,
          updPort g fun x => { x with partnerSleep := true }, send (.line g "sleep_ack" 1), send (.line g "silent" 150), refreshBundleOf g])
     else block [send (.line p "sleep_reject" 0), raise (R.PORT_TC10_EVENT p) 3])

/-- PARTNER_SLEEP_TIMEOUT (R321): 1 ms after an accepted request. -/
def partnerSleepTimeout (p : Nat) : Prog := .read fun s =>
  when (s.port p).partnerSleep (groupSleep (s.sleepGroup p) (fun _ => 4) false)

/-! Wakes and their forwarding. -/

/-- The group of a port (R328). -/
def State.portGroup (s : State) (p : Nat) : Nat := bits (s.reg (R.WAKE_PGROUP (p / 8))) (4 * (p % 8) + 3) (4 * (p % 8))

/-- The spacing in force, ms (R331): the larger of WAKE.CFG.spacing_ms and the governor. -/
def State.spacing (s : State) : Nat := max (s.f F.WAKE_CFG_spacing_ms) (s.f F.MLD_GOV_WAKE_spacing_ms)

/-- A pulse of a port is due (R331): sent, or held where the spacing has not elapsed. The C2 GOVERNOR_CLAMP of a held
pulse is logged at most once per port and second (R116). -/
def pulse (p : Nat) (wup : Bool) : Prog := .read fun s =>
  let x := s.port p
  let early := match x.lastPulse with
    | some t => decide (s.now < t + s.spacing * 1000000)
    | none => false
  if !s.mayTransmit p then .skip
  else if x.pulseHeld then .skip
  else if early then
    block [updPort p fun y => { y with pulseHeld := true }, satAdd (F.WAKE_PCOUNT_held p) 1,
      satAdd F.MLD_GOV_CLAMP_COUNT_count 1, raise R.WAKE_EVENT 2,
      when (match x.lastClamp with | some t => decide (t + 1000000000 ≤ s.now) | none => true)
        (block [governorClamp R.WAKE_CFG 2 p, updPort p fun y => { y with lastClamp := some s.now }])]
  else block [updPort p fun y => { y with lastPulse := some s.now, wupRunning := y.wupRunning || wup },
    satAdd (F.WAKE_PCOUNT_sent p) 1, send (.line p (if wup then "wup" else "wur") 1)]

/-- A port is asleep, as the always-on domain knows it while the port's domain is off (R256, R325). -/
def State.sleeps (s : State) (p : Nat) : Bool := if s.domOn (portDomain p) then s.pst p == stSleep else (s.port p).offSleep.isSome

/-- A near-end loop runs on the port (R198). -/
def State.nearLoop (s : State) (p : Nat) : Bool := (s.port p).loop == 1 || (s.port p).loop == 2

/-- A wake sets the pending bit of a sleeping port, and STATE.held where a staged remould holds it (R135); a wake during a
handshake or a near-end loop is latched (R134, R198, R329). -/
def markPending (p : Nat) (byForward : Bool) : Prog := .read fun s =>
  if s.sleeps p then
    block [setPending p true, when byForward (updPort p fun x => { x with forwarded := true }),
      when (s.heldByRemould p) (setF (F.PORT_STATE_held p) 1)]
  else when ((s.port p).localSleep || (s.port p).partnerSleep || s.heldByLedger p)
    (updPort p fun x => { x with wakeLatched := true, forwarded := x.forwarded || byForward })

/-- A wake of a cane member wakes every member, as a forwarded wake that is not forwarded again (R322). -/
def markCane (p : Nat) : Prog := .read fun s =>
  ifSome (s.caneOf p) fun kj => each ((s.caneLanes kj.1).filter fun j => j != kj.2) fun j =>
    .read fun t => when (t.sleeps (2 * kj.1 + j) && !t.pendingWake (2 * kj.1 + j)) (markPending (2 * kj.1 + j) true)

/-- A forwarded wake acts on one target (R329); a near-end loop latches it (R198). -/
def forwardTo (p : Nat) : Prog := .read fun s =>
  if s.sleeps p then
    if s.heldByOrphan p then block [satAdd (F.WAKE_PCOUNT_suppressed p) 1, raise R.WAKE_EVENT 3]
    else block [markPending p true, markCane p]
  else if s.nearLoop p then markPending p true
  else if s.pst p = stUp then block [pulse p false, markPending p true]
  else when (s.pst p == stLpi) (block [lpiExitBegin p, pulse p false])

/-- A group's mask is applied (R328); group 0 forwards nothing. -/
def forwardGroup (g : Nat) : Prog := .read fun s =>
  when (g != 0)
    (block [raise R.WAKE_EVENT 1, each (bitList 64 (s.wide (R.WAKE_FWD_MASK (g - 1)) 2)) forwardTo])

/-- A wake is qualified: WAKE.CAUSE and WAKE.EVENT.wake. -/
def wakeCause (kind index : Nat) : Prog :=
  block [setF F.WAKE_CAUSE_kind kind, setF F.WAKE_CAUSE_index index, setF F.WAKE_CAUSE_from_park 0, raise R.WAKE_EVENT 0]

/-- The device is in a mode entry: wakes are latched and replayed (R38, R477). -/
def State.entering (s : State) : Bool := s.f F.PWR_MODE_STAT_entering != 0

/-- The detector of a port is armed (R325). -/
def State.detectorArmed (s : State) (p : Nat) : Bool := s.sleeps p && bitOf (s.wide R.WAKE_DET_EN 2) p

/-- What a wake of the device's own input does outside PARK: its pending bits and its forwarding. -/
def wakeActs (detector : Option Nat) (group : Nat) : Prog :=
  block [ifSome detector fun p => block [markPending p false, updPort p fun x => { x with forwarded := false },
      satAdd (F.WAKE_PCOUNT_received p) 1, markCane p],
    forwardGroup group]

/-- A wake during an entry is recorded (R477): kind, index, and what it is to do. -/
def latchWake (kind index group : Nat) : Prog := .read fun s =>
  block [when (!s.bit F.PWR_WAKE_LATCH_valid)
      (block [setF F.PWR_WAKE_LATCH_valid 1, setF F.PWR_WAKE_LATCH_kind kind, setF F.PWR_WAKE_LATCH_index index]),
    satAdd F.PWR_WAKE_LATCH_count 1, updPower fun x => { x with latch := x.latch ++ [(kind, index, group)] }]

/-- WUR_RECEIVED (R324, R328); during a mode entry the wake is latched (R38, R477). -/
def wurReceived (p : Nat) : Prog := .read fun s =>
  when (s.pst p == stUp)
    (block [raise (R.PORT_TC10_EVENT p) 4, satAdd (F.WAKE_PCOUNT_received p) 1,
      when (s.bit (F.PORT_TC10_CFG_wur_fwd p))
        (if s.entering then latchWake 5 p (s.portGroup p) else block [wakeCause 5 p, forwardGroup (s.portGroup p)])])

/-- WAKE_SERVE (R330): a pending port is served once the hold of R107 has ended and its domain is on; a forwarded wake
starts a WUP. A port with a held loop or an orphan SLEEP hold stays. -/
def wakeServe (p : Nat) : Prog := .read fun s =>
  if s.heldByRemould p then when (s.pendingWake p && s.pst p == stSleep) (setF (F.PORT_STATE_held p) 1)
  else when (s.pendingWake p && s.pst p == stSleep && !s.heldByOrphan p && s.domOn (portDomain p)
      && !(s.port p).leaving && !s.heldByLedger p)
    (block [when (s.port p).forwarded
        (block [updPort p fun x => { x with retriesLeft := s.f F.WAKE_CFG_retries, forwarded := false }, pulse p true]),
      askLeave p true])

/-- WUP_END (R330): the pulse ends, and the port enters LISTEN once its reclaim has ended. -/
def wupEnd (p : Nat) : Prog := .read fun s =>
  when (s.port p).wupRunning (block [updPort p fun x => { x with wupRunning := false }, tryLeave p])

/-- PULSE_SPACING_RELEASE (R331): the held pulse is sent. -/
def pulseSpacingRelease (p : Nat) : Prog := .read fun s =>
  when (s.port p).pulseHeld
    (block [updPort p fun x => { x with pulseHeld := false, lastPulse := none },
      pulse p (s.pst p == stSleep || s.pst p == stListen || s.pst p == stNegotiate)])

/-- WUP_RETRY (R332): no page and no energy from the partner; another WUP, or retries_out. -/
def wupRetry (p : Nat) : Prog := .read fun s =>
  when ((s.pst p == stListen || s.pst p == stNegotiate) && !s.bit (F.PORT_PARTNER_FLAGS_valid p))
    (if (s.port p).retriesLeft = 0 then raise R.WAKE_EVENT 5
     else block [updPort p fun x => { x with retriesLeft := x.retriesLeft - 1 }, pulse p true,
       updPort p fun x => { x with wupRunning := false }])

end Sys2Proof.Machine
end

