-- ==== Sys2Proof/Machine/Segments.lean ====
section
/-!
DEFINITION. The multidrop segments (chapter 7, R236 to R256).
-/
namespace Sys2Proof.Machine

/-- A segment enters UP (R241): link_up, mode 10BASE-T1S, PLCA or CSMA/CD in force. -/
def segUp (p : Nat) (plca : Bool) : Prog :=
  block [setF (F.PORT_STATE_state p) stUp, setMode p 8 0, setF (F.PORT_STATE_fail_count p) 0,
    setF (F.PORT_SEG_STAT_plca_active p) (b2n plca), setF (F.PORT_SEG_STAT_csma p) (b2n (!plca)),
    setF (F.PORT_SEG_STAT_beacon_ok p) (b2n plca), raise (R.PORT_EVENT p) 0]

/-- LISTEN_WAIT_END of a segment (R137, R240, R241): CSMA/CD enters UP at once, PLCA waits for a beacon, settings that
break R239 keep the port in LISTEN with an_fail once. -/
def segWaitEnd (p : Nat) : Prog := .read fun s =>
  when (s.pst p == stListen && (s.port p).wait.isSome && !(s.port p).stage && s.lineClock p && s.portPowered p
      && decide (portClass p = .segment))
    (if !s.segValid p then noMode p
     else block [updPort p fun x => { x with wait := none }, when (!s.bit (F.PORT_SEG_CFG_plca_en p)) (segUp p false)])

/-- A wake latched while a near-end loop held the port is served once LISTEN's settle wait has ended (R199): a forwarded wake
sends its pulse; the port has left SLEEP already. -/
def serveLatched (p : Nat) : Prog := .read fun s =>
  when ((s.port p).wakeLatched && s.pst p == stListen && (s.port p).wait.isSome && !s.heldByLedger p)
    (block [updPort p fun x => { x with wakeLatched := false, forwarded := false }, when (s.port p).forwarded (pulse p true)])

/-- LISTEN_WAIT_END (R137). -/
def anyWaitEnd (p : Nat) : Prog := if portClass p = .segment then segWaitEnd p else block [serveLatched p, listenWaitEnd p]

/-- A segment in LISTEN whose waits have ended and whose PLCA settings are valid. -/
def State.segReady (s : State) (p : Nat) (coordinator : Bool) : Bool :=
  decide (portClass p = .segment) && s.pst p == stListen && (s.port p).wait.isNone && !(s.port p).stage && s.segValid p
    && s.bit (F.PORT_SEG_CFG_plca_en p) && s.bit (F.PORT_SEG_CFG_coordinator p) == coordinator

/-- A complete PLCA cycle of so many µs has passed. -/
def segCycle (p us : Nat) : Prog := .read fun s =>
  when (s.linkUp p && s.bit (F.PORT_SEG_STAT_plca_active p))
    (block [setF (F.PORT_SEG_CYCLE_last_us p) (min us 0xFFFF),
      setF (F.PORT_SEG_CYCLE_max_us p) (max (s.f (F.PORT_SEG_CYCLE_max_us p)) (min us 0xFFFF))])

/-- BEACON_RECEIVED (R241, R242): a follower enters UP, or returns from CSMA/CD. `us` is the length of the cycle that the
beacon ends. -/
def beaconReceived (p us : Nat) : Prog := .read fun s =>
  if s.segReady p false then segUp p true
  else when (decide (portClass p = .segment) && s.pst p == stUp && s.bit (F.PORT_SEG_CFG_plca_en p)
      && !s.bit (F.PORT_SEG_CFG_coordinator p))
    (block [segCycle p us, setF (F.PORT_SEG_STAT_csma p) 0, setF (F.PORT_SEG_STAT_plca_active p) 1,
      setF (F.PORT_SEG_STAT_beacon_ok p) 1, updPort p fun x => { x with opportunity := 0 }])

/-- PLCA_CYCLE_START (R241): a coordinator sends a beacon; its first one takes it to UP. -/
def plcaCycleStart (p us : Nat) : Prog := .read fun s =>
  if s.segReady p true then block [segUp p true, send (.line p "beacon" 20)]
  else when (decide (portClass p = .segment) && s.pst p == stUp && s.bit (F.PORT_SEG_CFG_plca_en p)
      && s.bit (F.PORT_SEG_CFG_coordinator p))
    (block [segCycle p us, send (.line p "beacon" 20), updPort p fun x => { x with opportunity := 0 }])

/-- TRANSMIT_OPPORTUNITY (R246): the port may start one frame and max_burst further ones. -/
def transmitOpportunity (p : Nat) : Prog := .read fun s =>
  when (s.pst p == stUp && s.bit (F.PORT_SEG_STAT_plca_active p))
    (updPort p fun x => { x with opportunity := 1 + s.f (F.PORT_SEG_TIMING_max_burst p), startBy := s.now + 100 * s.f (F.PORT_SEG_TIMING_to_timer p) })

/-- BEACON_LOSS (R242): a follower falls back to CSMA/CD, or drops its link with cause 0x01. -/
def beaconLoss (p uncLast : Nat) : Prog := .read fun s =>
  when (decide (portClass p = .segment) && s.pst p == stUp && s.bit (F.PORT_SEG_STAT_plca_active p)
      && !s.bit (F.PORT_SEG_CFG_coordinator p))
    (block [setF (F.PORT_SEG_STAT_beacon_ok p) 0, raise (R.PORT_SEG_EVENT p) 5,
      if s.bit (F.PORT_SEG_CFG_fallback p) then
        block [setF (F.PORT_SEG_STAT_csma p) 1, setF (F.PORT_SEG_STAT_plca_active p) 0, raise (R.PORT_SEG_EVENT p) 4]
      else portDrop p 1 uncLast])

/-- FOREIGN_BEACON (R243). -/
def foreignBeacon (p : Nat) : Prog := .read fun s =>
  when (decide (portClass p = .segment) && s.pst p == stUp && s.bit (F.PORT_SEG_STAT_plca_active p)
      && s.bit (F.PORT_SEG_CFG_coordinator p))
    (block [satAdd (F.PORT_SEG_STAT_foreign_beacons p) 1, raise (R.PORT_SEG_EVENT p) 3])

/-- The number of census entries with seen = 1. -/
def countSeen (p : Nat) : Prog := .read fun s =>
  setF (F.PORT_SEG_STAT_nodes_seen p) ((List.range 32).filter fun n => s.bit (F.PORT_SEG_CENSUS_seen p n)).length

/-- A frame starts in opportunity n (R250, R251). -/
def censusRecord (p n sqi : Nat) : Prog := .read fun s =>
  when (s.bit (F.PORT_SEG_STAT_plca_active p) && decide (n < 32))
    (block [satAdd (F.PORT_SEG_CENSUS_frames p n) 1, setF (F.PORT_SEG_CENSUS_sqi p n) sqi,
      setF (F.PORT_SEG_CENSUS_seen p n) 1, setF (F.PORT_SEG_CENSUS_silent p n) 0,
      when (!bitOf (s.port p).censusEver n) (raise (R.PORT_SEG_EVENT p) 0),
      updPort p fun x => { x with censusSeen := setBit x.censusSeen n, censusEver := setBit x.censusEver n },
      countSeen p])

/-- CENSUS_WINDOW_END (R251). -/
def censusWindowEnd (p : Nat) : Prog := .read fun s =>
  when (decide (portClass p = .segment) && s.bit (F.PORT_SEG_STAT_plca_active p))
    (block [each (List.range 32) fun n =>
        block [setF (F.PORT_SEG_CENSUS_seen p n) (b2n (bitOf (s.port p).censusSeen n)),
          when (!bitOf (s.port p).censusSeen n && bitOf (s.port p).censusPrev n)
            (block [setF (F.PORT_SEG_CENSUS_silent p n) 1, raise (R.PORT_SEG_EVENT p) 1])],
      updPort p fun x => { x with censusPrev := x.censusSeen, censusSeen := 0 }, countSeen p])

/-- A collision under PLCA marks its opportunity (R249). -/
def markDuplicate (p n : Nat) : Prog := .read fun s =>
  when (s.bit (F.PORT_SEG_STAT_plca_active p) && decide (n < 32))
    (block [setF (F.PORT_SEG_CENSUS_duplicate p n) 1, raise (R.PORT_SEG_EVENT p) 2])

/-- COLLISION (R247, R249): counted; the port's own frame, if one is on the bus, is tried again, and given up after its 16th
attempt, when `discard` ends it. -/
def collision (p n : Nat) (own : Bool) (requeue discard : Prog) : Prog := .read fun s =>
  when (decide (portClass p = .segment) && s.pst p == stUp)
    (block [addWide (R.PORT_SEG_COLL p) 2 1, markDuplicate p n,
      when own
        (block [send (.line p "jam" 0),
          updPort p fun x => { x with opportunity := 0 },
          if ((s.port p).sending.map (·.tries)).getD 0 + 1 < 16 then requeue
          else block [addWide (R.PORT_SEG_EXCESS p) 2 1, discard]])])

/-- LATE_COLLISION (R248, R249): the frame is given up without retry. -/
def lateCollision (p n : Nat) (own : Bool) (discard : Prog) : Prog := .read fun s =>
  when (decide (portClass p = .segment) && s.pst p == stUp)
    (block [markDuplicate p n,
      when own (block [addWide (R.PORT_SEG_LATE p) 2 1, addWide (R.PORT_SEG_EXCESS p) 2 1,
        updPort p fun x => { x with opportunity := 0 }, discard])])

/-- SEGMENT_SLEEP (R245, R323): the frame in progress has ended and the sleep request is served. -/
def segmentSleep (p : Nat) : Prog := .read fun s =>
  when ((s.port p).sleepWait && decide (portClass p = .segment) && s.pst p == stUp)
    (block [updPort p fun x => { x with sleepWait := false }, toSleep p 5])

/-- SEG_QUAL_INTERVAL (R252): the lowest margin of the frames of the interval; an interval without one keeps the
values. -/
def segQualInterval (p : Nat) : Prog := .read fun s =>
  when (decide (portClass p = .segment) && s.pst p == stUp)
    (block [ifSome (s.port p).windowMin fun m => setQuality p (unsigned 16 ((m : Int) - 32768)),
      updPort p fun x => { x with windowMin := none }])

/-- The margin of a received frame enters the interval's lowest (R252). -/
def segMargin (p margin : Nat) : Prog :=
  let v := (signed 16 margin + 32768).toNat
  updPort p fun x => { x with windowMin := some (match x.windowMin with | some m => min m v | none => v) }

end Sys2Proof.Machine
end

