-- ==== Sys2Proof/Machine/Anneal.lean ====
section
/-!
DEFINITION. The anneals and the attic (R261 to R266, R275 to R282).
-/
namespace Sys2Proof.Machine

/-! Foreground anneals (R275 to R277). -/

/-- Why a foreground anneal may not start (R275), as a CAL.PORT_STAT.result code; 0 = it may. -/
def State.annealRefusal (s : State) (p : Nat) : Nat :=
  let st := s.pst p
  if st = stSleep ∨ st = stFault ∨ !s.domOn (portDomain p) then 4
  else if stNegotiate ≤ st ∧ st ≤ stLpi ∧ !s.bit (F.CAL_PORT_CTL_force p) then 3
  else if portClass p ≠ .segment ∧ ((s.port p).returned ∨ (s.usable p).isEmpty) then 5
  else 0

/-- A refused anneal. -/
def annealRefused (p code : Nat) : Prog := block [setF (F.CAL_PORT_STAT_state p) 4, setF (F.CAL_PORT_STAT_result p) code]

/-- A forced activity takes a live port out of its link with cause 0x07 and out of its cane (R275, R294, R184). -/
def forceListen (p : Nat) : Prog := .read fun s =>
  block [when (s.linkUp p) (portDropNow p 7),
    when (s.pst p == stNegotiate || s.pst p == stTrain) (toListen p true),
    updPort p fun x => { x with loopHeld := true },
    ifSome (s.caneOf p) fun kj => loseLane kj.1 kj.2 caneDrop]

/-- A granted anneal runs. -/
def annealRun (p : Nat) : Prog :=
  block [forceListen p, updPort p fun x => { x with fg := true },
    setF (F.CAL_PORT_STAT_state p) 2, setF (F.CAL_PORT_STAT_result p) 0, refreshNear p]

/-- PORT_ANNEAL_START (R275, R276). -/
def annealStart (req p : Nat) : Prog := .read fun s =>
  let st := s.f (F.CAL_PORT_STAT_state p)
  let why := s.annealRefusal p
  when (st != 1 && st != 2)
    (if why ≠ 0 then annealRefused p why
     else ledgerRequest (portBooking s req 3 p) (s.bit (F.CAL_PORT_CTL_no_wait p)) (annealRun p)
       (block [setF (F.CAL_PORT_STAT_state p) 1, setF (F.CAL_PORT_STAT_result p) 0]) (annealRefused p 6))

/-- An activity on a port has ended (R198, R295): in LISTEN the settle wait begins, a held exit from SLEEP goes on. -/
def portFreed (p : Nat) : Prog := .read fun s =>
  block [updPort p fun x => { x with loopHeld := false },
    when (s.pst p == stListen && decide (portClass p ≠ .segment)) (updPort p fun x => { x with wait := some false }),
    when (s.port p).wakeLatched (block [updPort p fun x => { x with wakeLatched := false },
      when (s.pst p == stSleep) (setPending p true)]),
    tryLeave p, refreshNear p]

/-- The booking of an activity on a port. -/
def State.booked (s : State) (act p : Nat) : Option Booking :=
  s.ledger.books.find? fun b => b.act == act && b.ports.contains p

/-- The queue entry of an activity on a port. -/
def State.queued (s : State) (act p : Nat) : Option Booking :=
  s.ledger.queue.find? fun b => b.act == act && b.ports.contains p

/-- PORT_ANNEAL_DONE (R276, R277): every set checked against the active sets; ACCEPTED or PARTIAL. -/
def annealDone (p : Nat) (sets : List CalSet) : Prog := .read fun s =>
  let ref := fun (c : CalSet) => (s.calSet bkActive p c.kind c.family).map (·.vals)
  when (s.port p).fg
    (block [each sets fun c => calOffer p .full (ref c) c,
      setF (F.CAL_PORT_STAT_state p) 3, setF (F.CAL_PORT_STAT_result p) (if allAccepted sets .full ref then 1 else 2),
      updPort p fun x => { x with fg := false },
      ifSome (s.booked 3 p) fun b => .act (.release b), raise R.CAL_EVENT 7, portFreed p])

/-! Converter stages (R261 to R264). -/

/-- The sequencer that serves a port (R262): its quarter's, or the one for segments. -/
def seqOf (p : Nat) : Nat := if portClass p = .segment then 4 else homeQuarter p

/-- A granted converter stage runs; at a cold start the port enters LISTEN for it (R138). -/
def stageRun (p : Nat) : Prog := .read fun s =>
  block [setF (F.CAL_PORT_STAT_state p) 2, when (s.cal.full.contains p && s.pst p == stDisabled) (toListen p false)]

/-- A converter stage of a port can be asked for (R261, R263, R264): its domains are on, its quarters' self-tests have ended, the
port is in LISTEN, or waits for its full anneal in DISABLED, and the ledger has room. -/
def State.stageReady (s : State) (p : Nat) : Bool :=
  (s.booked 3 p).isNone && (s.queued 3 p).isNone && s.portPowered p && !(s.portQuarters p).any s.fur.testing.contains
    && (s.pst p == stListen || (s.cal.full.contains p && s.pst p == stDisabled)) && decide (s.ledger.queue.length < 8)

/-- A sequencer serves its next port (R262, R263): the ports of a full anneal in their order; a port that is checked again outside one
(R264) only stands in line once it is in LISTEN. -/
def stageBegin (k : Nat) : Prog := .read fun s =>
  let l := s.cal.seqs.getD k []
  when (l.all fun p => (s.booked 3 p).isNone && (s.queued 3 p).isNone)
    (ifSome (l.dropWhile fun p => !s.cal.full.contains p && !s.stageReady p).head? fun p => when (s.stageReady p)
      (ledgerRequest (portBooking s 6 3 p) false (stageRun p) (setF (F.CAL_PORT_STAT_state p) 1) .skip))

/-- A port's converter stage has ended, one way or the other: its booking is released, its sequencer goes on, and with the last
port the full anneal is done (R263). -/
def stageEnds (p : Nat) : Prog := .read fun s =>
  let counts := s.cal.full.contains p
  block [ifSome (s.booked 3 p) fun b => .act (.release b), ifSome (s.queued 3 p) fun b => .act (.dequeue b),
    updCal fun x => { x with full := x.full.filter (· != p), seqs := x.seqs.map fun e => (e.1, e.2.filter (· != p)) },
    when counts (satAdd F.CAL_STAT_ports_done 1),
    .read fun t => when (counts && t.cal.full.isEmpty) (block [setF F.CAL_STAT_anneal 2, raise R.CAL_EVENT 0, atticAfterAnneal])]

/-- A port whose domain goes off leaves its sequencer. -/
def stageDrop (p : Nat) : Prog := .read fun s => when (s.port p).stage (stageEnds p)

/-- The full anneal of a cold start begins on the ports of a list, in the order of R262. -/
def fullAnneal (order : List Nat) : Prog :=
  block [updCal fun x => { x with full := order, atticDue := true, seqs := (List.range 5).map fun k => (k, order.filter fun p => seqOf p == k) },
    each order fun p => updPort p fun x => { x with stage := true },
    setF F.CAL_STAT_anneal (if order.isEmpty then 2 else 1), setF F.CAL_STAT_ports_done 0,
    when order.isEmpty (block [raise R.CAL_EVENT 0, atticAfterAnneal]),
    each (List.range 5) stageBegin]

/-- A converter stage joins its sequencer outside the full anneal (R264). -/
def stageAdd (p : Nat) : Prog := .read fun s =>
  when (!(s.port p).stage)
    (block [updPort p fun x => { x with stage := true },
      updCal fun x => { x with seqs := x.seqs.put (seqOf p) (x.seqs.getD (seqOf p) [] ++ [p]) }, stageBegin (seqOf p)])

/-- CONVERTER_STAGE_DONE (R263): the sets are checked against the attic, the port proceeds under CTL.admin with the settle
wait, the sequencer goes on, and the last stage ends the full anneal. -/
def converterStageDone (p : Nat) (sets : List CalSet) : Prog := .read fun s =>
  let ref := fun (c : CalSet) => (s.calSet bkAttic p c.kind c.family).map (·.vals)
  when ((s.port p).stage && (s.ledger.books.any fun b => b.act == 3 && b.req == 6 && b.ports.contains p) && s.pst p == stListen)
    (block [each sets fun c => calOffer p .full (ref c) c,
      setF (F.CAL_PORT_STAT_state p) 3, setF (F.CAL_PORT_STAT_result p) (if allAccepted sets .full ref then 1 else 2),
      updPort p fun x => { x with stage := false, wait := some false }, stageEnds p,
      when (decide (s.f (F.PORT_CTL_admin p) < 2)) (adminMove p (s.f (F.PORT_CTL_admin p))),
      refreshNear p, stageBegin (seqOf p)])

/-- The first implausible element of a set. -/
def firstImplausible (c : CalSet) : Option Nat := (List.range c.vals.length).find? fun i => !setPlausible c i

/-- The verify anneal of a port (R264): stored sets outside their plausible ranges leave; a lost converter kind asks for a
converter stage, a lost line kind for a line stage; the rest is in force and is refined in the next TRAIN. -/
def verifyPort (p : Nat) : Prog := .seq (.read fun s => setF (F.CAL_PORT_STAT_families p) (Nat.lor (s.f (F.CAL_PORT_STAT_families p)) (s.storedFamilies p))) <| .read fun s =>
  let bad := (s.bankSets bkActive p).filterMap fun e => (firstImplausible e.2).map fun i => (e, i)
  block [each bad fun b => block [updCal fun x => { x with sets := x.sets.del b.1.1 }, calReject p b.1.2 b.2 5,
      when (b.1.2.kind == 6) (setFBit (F.CAL_PORT_STAT_families p) b.1.2.family false),
      when (b.1.2.kind == 7) (setF (F.CAL_PORT_STAT_families p) 0)],
    when (bad.any fun b => b.1.2.kind != 6 && b.1.2.kind != 7) (stageAdd p),
    updCal fun x => { x with refine := p :: x.refine.filter (· != p) }, calRefresh p, verifyEnds p]

/-- A port's sets are current (R278). -/
def State.setsCurrent (s : State) (p : Nat) : Bool :=
  decide ((s.tbSec + 2 ^ 32 - s.f (F.CAL_PORT_TIME_accept_s p)) % 2 ^ 32 ≤ 60 * s.f F.CAL_CFG_current_min)

/-- The firmware, while it runs, verifies the enabled ports whose sets are not current before a move from STANDBY to RUN (R36, R278). -/
def verifyStale : Prog := .read fun s =>
  when (s.power.gaffer && !s.power.halted) (each (allPorts.filter fun p => s.portEnabled p && !s.setsCurrent p) verifyPort)

/-! The attic (R279 to R282). -/

/-- The values that a bank or the default gives for a record. -/
def atticVals (s : State) (bank p kind fam : Nat) : List Int :=
  match s.calSet bank p kind fam with
  | some c => c.vals
  | none => (List.range (elements p kind)).map (calDefault kind)

/-- n signed 16-bit values, zero beyond the list. -/
def int16s (n : Nat) (l : List Int) : List Byte := ((List.range n).map fun i => intBytes 2 ((l[i]?).getD 0)).flatten

/-- The number whose bits are a 0/1 list. -/
def bitsOf (l : List Int) : Nat := maskOf (l.map fun v => v == 1)

/-- The numeric fields of a record (R279, offsets 16 to 335 and 480 to 495). -/
def atticLow (s : State) (bank p : Nat) : List Byte :=
  int16s 32 (atticVals s bank p 1 0) ++ int16s 32 (atticVals s bank p 2 0) ++
    ((List.range 3).map fun f => int16s 32 (atticVals s bank p 3 f)).flatten
def atticHigh (s : State) (bank p : Nat) : List Byte :=
  ((List.range 3).map fun f => int16s 1 (atticVals s bank p 6 f)).flatten ++ int16s 1 (atticVals s bank p 7 0) ++ leBytes 8 0

/-- The record of a port (R279). -/
def atticRecord (s : State) (p gen : Nat) : List Byte :=
  let b := bkWriting
  let fams := maskOf ((List.range 3).map fun f => (s.calSet b p 3 f).isSome || (s.calSet b p 6 f).isSome)
  let comp := atticVals s b p 4 0
  withCrc (leBytes 1 p ++ leBytes 1 fams ++ leBytes 2 0 ++ leBytes 4 gen ++ leBytes 4 (s.reg (R.CAL_PORT_TIME p)).toNat
    ++ leBytes 4 0 ++ atticLow s b p
    ++ ((List.range 32).map fun k => leBytes 4 (bitsOf ((comp.drop (17 * k)).take 17))).flatten
    ++ leBytes 16 (bitsOf (atticVals s b p 5 0)) ++ atticHigh s b p ++ int16s 1 (atticVals s b p 8 0) ++ leBytes 6 0
    ++ atticLow s bkBirth p ++ atticHigh s bkBirth p ++ leBytes 180 0)

/-- The header of a copy (R279). -/
def atticHeader (gen uid : Nat) : List Byte :=
  withCrc (leBytes 4 0x54414458 ++ leBytes 2 1 ++ leBytes 2 0 ++ leBytes 4 gen ++ leBytes 5 uid ++ leBytes 3 0
    ++ leBytes 2 64 ++ leBytes 2 1024 ++ leBytes 36 0)

/-- The generation under which a record is written: that of the newer copy where its content is the same (R279). -/
def State.recordGen (s : State) (p gen : Nat) : Nat :=
  let same := (s.bankSets bkWriting p).map (fun e => (e.1 - calKey bkWriting 0 0 0, e.2.vals))
    == (s.bankSets bkAttic p).map (fun e => (e.1 - calKey bkAttic 0 0 0, e.2.vals))
  if same then s.cal.recGen.getD p gen else gen

/-- ATTIC_WRITE_DONE (R281): the records, then the header, one generation on; or FAIL. -/
def atticWriteDone (ok : Bool) (uid : Nat) : Prog := .read fun s =>
  let copy := 1 - s.cal.newer
  let gen := (s.reg R.CAL_ATTIC_GEN).toNat + 1
  let gens := (List.range 64).map fun p => (p, s.recordGen p gen)
  when (s.bit F.CAL_ATTIC_CTL_write)
    (block [setF F.CAL_ATTIC_CTL_write 0,
      if ok then
        block [each (List.range 64) fun p =>
            .act (.flashProgram (atticBase copy + 64 + p * 1024) (atticRecord s p (s.recordGen p gen))),
          .act (.flashProgram (atticBase copy) (atticHeader gen uid)),
          bankCopy bkWriting bkAttic, updCal fun x => { x with newer := copy, recGen := gens },
          setF F.CAL_ATTIC_CTL_result 1, setF F.CAL_ATTIC_GEN_gen gen, setF F.CAL_STAT_attic_copy copy,
          setF F.CAL_STAT_attic_state 1, raise R.CAL_EVENT 5]
      else block [setF F.CAL_ATTIC_CTL_result 2, raise R.CAL_EVENT 6, busErrorOpen 0x14]])

/-- What a copy is (R280): none where it is not valid, else whether its identifier is this device's, and its
generation. -/
def atticCopy (s : State) (copy uid : Nat) : Option (Bool × Nat) :=
  let h := s.flash.readBytes erased (atticBase copy) 64
  if leAt h 0 4 = 0x54414458 ∧ leAt h 4 2 = 1 ∧ leAt h 60 4 = crc32c (h.take 60) then
    some (leAt h 12 5 == uid % 2 ^ 40, leAt h 8 4)
  else none

/-- n signed values of a record. -/
def signedsAt (l : List Byte) (off n : Nat) : List Int := (List.range n).map fun i => signed 16 (leAt l (off + 2 * i) 2)

/-- The sets that a record holds for a port, as (kind, family, values); `low` and `high` are the offsets of its numeric
fields. -/
def numericSets (l : List Byte) (p low high fams : Nat) : List (Nat × Nat × List Int) :=
  [(1, 0, signedsAt l low (elements p 1)), (2, 0, signedsAt l (low + 64) (elements p 2))]
    ++ ((List.range 3).filter (bitOf fams)).flatMap (fun f =>
      [(3, f, signedsAt l (low + 128 + 64 * f) (elements p 3)), (6, f, signedsAt l (high + 2 * f) (elements p 6))])
    ++ [(7, 0, signedsAt l (high + 6) (elements p 7))]

/-- All sets of a record. -/
def recordSets (l : List Byte) (p : Nat) : List (Nat × Nat × List Int) :=
  let bitsAt := fun (off n : Nat) => (List.range n).map fun i => ((leAt l (off + i / 8) 1 / 2 ^ (i % 8) % 2 : Nat) : Int)
  numericSets l p 16 480 (leAt l 1 1)
    ++ [(4, 0, ((List.range (elements p 4 / 17)).map fun k => bitsAt (336 + 4 * k) 17).flatten),
        (5, 0, bitsAt 464 (elements p 5)), (8, 0, signedsAt l 496 (elements p 8))]

/-- Store sets of a record in a bank. -/
def loadSets (p bank : Nat) (l : List (Nat × Nat × List Int)) : Prog :=
  updCal fun x => { x with sets := (l.filter fun c => !c.2.2.isEmpty).foldl (fun m c => m.put (calKey bank p c.1 c.2.1) ⟨c.1, c.2.1, c.2.2, [], false, 8⟩) x.sets }

/-- A good record of a port in a copy. -/
def atticGood (s : State) (copy p : Nat) : Option (List Byte) :=
  let l := s.flash.readBytes erased (atticBase copy + 64 + p * 1024) 1024
  if leAt l 1020 4 = crc32c (l.take 1020) ∧ leAt l 0 1 = p then some l else none

/-- ATTIC_READ (R280): the copies are validated and the records of every port loaded into the attic image, in force and
as birth values. -/
def atticRead (uid : Nat) : Prog := .read fun s =>
  let c0 := atticCopy s 0 uid
  let c1 := atticCopy s 1 uid
  let gen := fun (c : Option (Bool × Nat)) => match c with
    | some (true, g) => some g
    | _ => none
  let newer := match gen c0, gen c1 with
    | some a, some b => if a < b then some (1, true) else some (0, true)
    | some _, none => some (0, false)
    | none, some _ => some (1, false)
    | none, none => none
  let foreign := fun (c : Option (Bool × Nat)) => match c with | some (false, _) => true | _ => false
  let note := emit 0x14 0x13 1 (7 * 512) 0xFF
  block [when (foreign c0) note, when (foreign c1) note,
    match newer with
    | none => block [setF F.CAL_STAT_attic_copy 3, setF F.CAL_ATTIC_GEN_gen 0,
        setF F.CAL_STAT_attic_state (if foreign c0 || foreign c1 then 3 else 0)]
    | some (n, both) =>
      let rec1 := fun (p : Nat) => atticGood s n p
      let rec2 := fun (p : Nat) => if both then atticGood s (1 - n) p else none
      block [updCal fun x => { x with newer := n },
        setF F.CAL_ATTIC_GEN_gen ((gen (if n = 0 then c0 else c1)).getD 0),
        setF F.CAL_STAT_attic_state (if allPorts.all fun p => (rec1 p).isSome || (rec2 p).isSome then 1 else 2),
        setF F.CAL_STAT_attic_copy (if allPorts.any fun p => (rec1 p).isNone && (rec2 p).isSome then 2 else n),
        each allPorts fun p =>
          match (rec1 p).or (rec2 p) with
          | some l => block [loadSets p bkAttic (recordSets l p), loadSets p bkActive (recordSets l p),
              loadSets p bkBirth (numericSets l p 504 824 (leAt l 1 1)),
              updCal fun x => { x with recGen := x.recGen.put p (leAt l 4 4) }, calRefresh p]
          | none => emit 0x14 0x13 1 (6 * 512) p]]

/-! CAL.ELEM_SEL and CAL.ELEM_DATA. -/

/-- What ELEM_DATA reads for a selection: value and residual of the selected element. -/
def State.elemData (s : State) (sel : Word) : Word :=
  let kind := bits sel 27 24
  match s.calSet (bits sel 31 30) (bits sel 5 0) kind (bits sel 29 28) with
  | some c =>
    match c.vals[bits sel 23 14]? with
    | some v => BitVec.ofNat 32 (unsigned 16 v + 2 ^ 16 * (c.resid[bits sel 23 14]?).getD 0xFFFF)
    | none => 0xFFFF0000
  | none => 0xFFFF0000

end Sys2Proof.Machine
end

