-- ==== Sys2Proof/Machine/Diagnose.lean ====
section
/-!
DEFINITION. Time-domain reflectometry, the bundle sweep and the FLASH booking (R286, R294 to R299, R303, R307 to R309).
-/
namespace Sys2Proof.Machine

/-- Why a TDR may not run on a port (R294), as a result code; 0 = it may. An admitted member of a cane in UP or DEGRADED
without force is refused CANE, the more special row, before BUSY (log entry 13). A TDR needs no pots (R295). -/
def State.tdrRefusal (s : State) (p : Nat) (force : Bool) : Nat :=
  let st := s.pst p
  let member := match s.caneOf p with
    | some (k, j) => bitOf (s.admitted k) j && (s.cst k == cnUp || s.cst k == cnDegraded)
    | none => false
  if st = stFault ∨ !s.domOn (portDomain p) ∨ !s.mayTransmit p then 4
  else if member && !force then 6
  else if stNegotiate ≤ st ∧ st ≤ stLpi ∧ !force then 3
  else 0

/-- A granted TDR runs (R299, step 1). -/
def tdrRun (p : Nat) : Prog :=
  block [forceListen p, setF (F.DIAG_TDR_STAT_state p) 2, setF (F.DIAG_TDR_STAT_result p) 0, refreshNear p]

def tdrRefused (p code : Nat) : Prog := block [setF (F.DIAG_TDR_STAT_state p) 4, setF (F.DIAG_TDR_STAT_result p) code]

/-- TDR_START (R294). -/
def tdrStart (req p : Nat) : Prog := .read fun s =>
  let why := s.tdrRefusal p (s.bit (F.DIAG_TDR_CTL_force p))
  let st := s.f (F.DIAG_TDR_STAT_state p)
  when (st != 1 && st != 2)
    (if why ≠ 0 then tdrRefused p why
     else ledgerRequest (portBooking s req 1 p) (s.bit (F.DIAG_TDR_CTL_no_wait p)) (tdrRun p)
       (block [setF (F.DIAG_TDR_STAT_state p) 1, setF (F.DIAG_TDR_STAT_result p) 0]) (tdrRefused p 7))

/-- TDR_STOP (R291): a queued or running TDR ends ABORTED. -/
def tdrStop (p : Nat) : Prog := .read fun s =>
  let abort := block [setF (F.DIAG_TDR_STAT_state p) 3, setF (F.DIAG_TDR_STAT_result p) 2]
  if s.f (F.DIAG_TDR_STAT_state p) = 1 then
    block [abort, ifSome (s.queued 1 p) fun b => .act (.dequeue b)]
  else when (s.f (F.DIAG_TDR_STAT_state p) == 2)
    (block [abort, ifSome (s.booked 1 p) fun b => .act (.release b), portFreed p])

/-- The class of a reflection (R297), from ρ in 1/1,024 and the step threshold; 0 = none. -/
def tdrClass (rho : Int) (step : Nat) : Nat :=
  if 6144 ≤ rho * 10 then 1 else if rho * 10 ≤ -6144 then 2
  else if (step : Int) ≤ rho then 3 else if rho ≤ -(step : Int) then 4 else 0

/-- The distance reported for a reflection: an open or short nearer than 0.3 m is at 0 (R296). -/
def tdrDistance (cls d : Nat) : Nat := if (cls = 1 ∨ cls = 2) ∧ d < 30 then 0 else d

/-- Insert a reflection by distance. -/
def insertRefl (x : Nat × Int) : List (Nat × Int) → List (Nat × Int)
  | [] => [x]
  | y :: t => if x.1 < y.1 then x :: y :: t else y :: insertRefl x t

/-- The events up to and with the first OPEN or SHORT, as (distance, class, ρ). -/
def untilEnd (step : Nat) : List (Nat × Int) → List (Nat × Nat × Int)
  | [] => []
  | x :: t =>
    let c := tdrClass x.2 step
    if c = 0 then untilEnd step t
    else if c ≤ 2 then [(tdrDistance c x.1, c, x.2)] else (x.1, c, x.2) :: untilEnd step t

/-- The events of a capture (R297): classified, in order of distance, at most 8. -/
def tdrEvents (step : Nat) (l : List (Nat × Int)) : List (Nat × Nat × Int) :=
  (untilEnd step (l.foldr insertRefl [])).take 8

/-- The summary of R298: 1 OK, 2 OPEN, 3 SHORT, 4 STEP. -/
def tdrSummary (l : List (Nat × Nat × Int)) : Nat :=
  if l.any fun e => e.2.1 == 2 then 3 else if l.any fun e => e.2.1 == 1 then 2 else if l.isEmpty then 1 else 4

/-- A capture is written as the TDR result of a port (R298, R299, R303, R304). -/
def tdrResult (p : Nat) (d : TdrData) : Prog := .read fun s =>
  let noisy := decide (2 * d.clean < d.windows)
  let ev := if noisy then [] else tdrEvents (s.f F.DIAG_TDR_CFG_step_thresh) d.reflections
  let sum := if noisy then 5 else tdrSummary ev
  block [setF (F.DIAG_TDR_STAT_clean_pct p) (if d.windows = 0 then 0 else min 100 (100 * d.clean / d.windows)),
    setF (F.DIAG_TDR_STAT_summary p) sum, setF (F.DIAG_TDR_STAT_events p) ev.length,
    each (List.range 8) fun e => match ev[e]? with
      | some x => setReg (R.DIAG_TDR_EVT p e) (BitVec.ofNat 32 (unsigned 12 x.2.2 + 2 ^ 12 * x.2.1 + 2 ^ 16 * min x.1 0xFFFF))
      | none => setReg (R.DIAG_TDR_EVT p e) 0,
    setF (F.DIAG_TDR_STAT_state p) 3, setF (F.DIAG_TDR_STAT_result p) 1,
    when (!noisy) (profileDone p d.profile 0 0 0 (s.f (F.PORT_LINK_QUAL_mse_margin p)) (decide (sum = 1 ∨ sum = 4))
      d.shelfOk fun _ => .skip)]

/-- TDR_DONE (R299). -/
def tdrDone (p : Nat) (d : TdrData) : Prog := .read fun s =>
  when (s.f (F.DIAG_TDR_STAT_state p) == 2)
    (block [tdrResult p d, ifSome (s.booked 1 p) fun b => .act (.release b), raise R.DIAG_EVENT 0, portFreed p])

/-! The bundle sweep. -/

/-- The sweep set: position and port (R307). -/
def State.sweepSet (s : State) : List (Nat × Nat) :=
  (List.range 8).filterMap fun k =>
    let w := s.reg (if k < 4 then R.DIAG_SWEEP_SET_LO else R.DIAG_SWEEP_SET_HI)
    let i := 8 * (k % 4)
    if bits w (i + 7) (i + 7) = 1 then some (k, bits w (i + 5) i) else none

/-- The booking of a sweep (R286). -/
def State.sweepBooking (s : State) (req : Nat) : Booking :=
  let ps := s.sweepSet.map (·.2)
  let bl := (ps.filterMap s.bundleOf).eraseDups
  { req := req, act := 2, port := ps.foldl min 0xFF, bundle := bl.foldl min 0x1F, ports := ps, blines := bl, qtrs := []
    flash := false, cellar := false }

/-- The first position whose port may not be swept, with its code (R307). -/
def State.sweepRefusal (s : State) : Option (Nat × Nat) :=
  s.sweepSet.findSome? fun m =>
    let c := s.tdrRefusal m.2 (s.bit F.DIAG_SWEEP_CTL_force)
    if c = 0 then none else some (m.1, c)

/-- A sweep set is 2 to 8 ports from indices 0 to 55 (R307). -/
def State.sweepSetOk (s : State) : Bool :=
  decide (2 ≤ s.sweepSet.length) && s.sweepSet.all fun m => decide (m.2 < 56)

/-- A granted sweep: every member is taken out of service; one that was started fires, one that was armed waits for its
commit (R308). -/
def sweepRun : Prog := .read fun s =>
  block [each s.sweepSet fun m => forceListen m.2,
    updDiag fun x => { x with sweep := s.sweepSet, fired := !s.bit F.DIAG_SWEEP_CTL_arm },
    setF F.DIAG_SWEEP_STAT_state 2, setF F.DIAG_SWEEP_STAT_result 0, each s.sweepSet fun m => refreshNear m.2]

def sweepRefused (pos code : Nat) : Prog :=
  block [setF F.DIAG_SWEEP_STAT_state 4, setF F.DIAG_SWEEP_STAT_result code, setF F.DIAG_SWEEP_STAT_bad_pos pos,
    setF F.DIAG_SWEEP_CTL_arm 0]

/-- SWEEP_START and SWEEP_ARM (R307, R308). A set that R307 does not allow starts nothing (log entry 14). -/
def sweepStart (req : Nat) (arm : Bool) : Prog := .read fun s =>
  let st := s.f F.DIAG_SWEEP_STAT_state
  when (st != 1 && st != 2 && s.sweepSetOk)
    (block [setF F.DIAG_SWEEP_CTL_arm (b2n arm),
      match s.sweepRefusal with
      | some (k, c) => sweepRefused k c
      | none => ledgerRequest (s.sweepBooking req) (s.bit F.DIAG_SWEEP_CTL_no_wait) sweepRun
          (block [setF F.DIAG_SWEEP_STAT_state 1, setF F.DIAG_SWEEP_STAT_result 0]) (sweepRefused 0 7)])

/-- The sweep's members are free again. -/
def sweepFree : Prog := .read fun s =>
  block [ifSome (s.ledger.books.find? fun b => b.act == 2) fun b => .act (.release b),
    each s.diag.sweep fun m => portFreed m.2, updDiag fun x => { x with sweep := [], fired := false },
    setF F.DIAG_SWEEP_CTL_arm 0]

/-- SWEEP_STOP (R291). -/
def sweepStop : Prog := .read fun s =>
  let abort := block [setF F.DIAG_SWEEP_STAT_state 3, setF F.DIAG_SWEEP_STAT_result 2, setF F.DIAG_SWEEP_CTL_arm 0]
  if s.f F.DIAG_SWEEP_STAT_state = 1 then
    block [abort, ifSome (s.ledger.queue.find? fun b => b.act == 2) fun b => .act (.dequeue b)]
  else when (s.f F.DIAG_SWEEP_STAT_state == 2) (block [abort, sweepFree])

/-- A commit with the sweep's group fires an armed sweep (R308). -/
def sweepFire (groups : Nat) : Prog := .read fun s =>
  when (s.f F.DIAG_SWEEP_STAT_state == 2 && !s.diag.fired && bitOf groups (s.f F.DIAG_SWEEP_CTL_cg))
    (block [updDiag fun x => { x with fired := true }, setF F.DIAG_SWEEP_CTL_arm 0])

/-- One entry of the map (R309). -/
def mapWrite (share : Nat) (c : Coupling) : Prog :=
  let weak := decide (600 < c.loss)
  let cls := if c.noisy then 3 else if weak ∨ share < c.loss then 1 else 2
  let i := c.a.val * 8 + c.v.val
  block [setReg (R.DIAG_MAP i) (BitVec.ofNat 32 (cls + 2 ^ 16 * (if weak then 0xFFFF else c.loss))),
    setReg (R.DIAG_MAP i + 4) (BitVec.ofNat 32 (if weak then 0 else c.near % 2 ^ 16 + 2 ^ 16 * (c.far % 2 ^ 16)))]

/-- SWEEP_DONE (R309): the map of the pairs measured, and the members' profiles by position. -/
def sweepDone (pairs : List Coupling) (profiles : List (Fin 8 × TdrData)) : Prog := .read fun s =>
  when (s.f F.DIAG_SWEEP_STAT_state == 2 && s.diag.fired)
    (block [each (List.range 64) fun i => block [setReg (R.DIAG_MAP i) 0, setReg (R.DIAG_MAP i + 4) 0],
      each pairs (mapWrite (s.f F.DIAG_SWEEP_CFG_share_db)),
      each profiles fun e => ifSome (s.diag.sweep.find? fun m => m.1 == e.1.val) fun m => tdrResult m.2 e.2,
      setF F.DIAG_SWEEP_STAT_state 3, setF F.DIAG_SWEEP_STAT_result 1, sweepFree, raise R.DIAG_EVENT 1])

/-! The FLASH booking (R286). -/

/-- The booking of flash programming, for the Gaffer. -/
def flashBooking : Booking :=
  { req := 4, act := 9, port := 0xFF, bundle := 0x1F, ports := [], blines := [], qtrs := [], flash := true, cellar := false }

/-- The Gaffer holds the FLASH booking. -/
def State.flashBooked (s : State) : Bool := s.ledger.books.any fun b => b.flash

/-- FLASH_BOOK_REQUEST: queued under R288. -/
def flashBookRequest : Prog := .read fun s =>
  when (!s.bit F.DIAG_FLASH_BOOK_request)
    (block [setF F.DIAG_FLASH_BOOK_request 1,
      ledgerRequest flashBooking false (setF F.DIAG_FLASH_BOOK_granted 1) .skip (setF F.DIAG_FLASH_BOOK_request 0)])

/-- FLASH_BOOK_RELEASE: the booking, or the queued request, is given up. -/
def flashBookRelease : Prog :=
  block [setF F.DIAG_FLASH_BOOK_request 0, setF F.DIAG_FLASH_BOOK_granted 0,
    .act (.release flashBooking), .act (.dequeue flashBooking)]

end Sys2Proof.Machine
end

