-- ==== Sys2Proof/Machine/MouldImage.lean ====
section
/-!
DEFINITION. The mould image: its format and its load checks (R79 to R91, R101, R106, R617).
-/
namespace Sys2Proof.Machine

/-- The check that an image fails: code of R101, section and record of R617. -/
structure BadMould where
  code : Nat
  sect : Nat
  index : Nat
deriving DecidableEq, Repr

/-- The first failure of two. -/
def orBad (a : Option BadMould) (b : Option BadMould) : Option BadMould :=
  match a with
  | some x => some x
  | none => b

/-- The first failure of a list. -/
def firstBad : List (Option BadMould) → Option BadMould
  | [] => none
  | a :: t => orBad a (firstBad t)

/-- A failure under a condition. -/
def badIf (c : Bool) (code sec rec : Nat) : Option BadMould := if c then some ⟨code, sec, rec⟩ else none

/-- Section types (R81). -/
def scPorts : Nat := 1
def scPots : Nat := 2
def scBundles : Nat := 3
def scCanes : Nat := 4
def scHeads : Nat := 5
def scQueues : Nat := 6
def scTime : Nat := 7
def scWake : Nat := 8
def scReactions : Nat := 9
def scGovernors : Nat := 10
def scRetention : Nat := 11
def scSignature : Nat := 0xFFFF

/-- The longest image (R79). -/
def maxImage : Nat := 524288

/-- Header fields (R79). -/
def imgMagic (l : List Byte) : Nat := leAt l 0 4
def imgFormat (l : List Byte) : Nat := leAt l 4 2
def imgFlags (l : List Byte) : Nat := leAt l 6 2
def imgLength (l : List Byte) : Nat := leAt l 8 4
def imgGen (l : List Byte) : Nat := leAt l 12 4
def imgPart (l : List Byte) : Nat := leAt l 16 2
def imgMinRev (l : List Byte) : Nat := leAt l 18 2
def imgSections (l : List Byte) : Nat := leAt l 20 2
def imgRevoke (l : List Byte) : Nat := byteAt l 22
def imgBase (l : List Byte) : List Byte := (l.drop 24).take 48
def imgPartial (l : List Byte) : Bool := imgFlags l % 2 == 1

/-- A length that R79 admits. -/
def lengthOk (n : Nat) : Bool := decide (96 ≤ n) && n % 8 == 0 && decide (n ≤ maxImage)

/-- The bytes of a string from a to b are zero. -/
def zeroAt (l : List Byte) (a n : Nat) : Bool := ((l.drop a).take n).all fun b => b == 0

/-- Padded with zeros: nothing but zeros after the first (R79, profile). -/
def padded : List Byte → Bool
  | [] => true
  | b :: t => if b = 0 then t.all (fun c => c == 0) else padded t

/-- The sections of an image from an offset on: type and payload in order; none where the sequence breaks R80. The
fuel bounds the number of sections. -/
def parseSections : Nat → Nat → List Byte → Option (List (Nat × List Byte))
  | _, _, [] => some []
  | 0, _, _ :: _ => none
  | f + 1, prev, l@(_ :: _) =>
    let t := leAt l 0 2
    let n := leAt l 4 4
    let m := (n + 7) / 8 * 8
    if l.length < 8 + m ∨ leAt l 2 2 ≠ 1 ∨ t ≤ prev ∨ !zeroAt l (8 + n) (m - n) then none
    else (parseSections f t (l.drop (8 + m))).map fun r => (t, (l.drop 8).take n) :: r

/-- The sections of an image. -/
def imgSecs (l : List Byte) : Option (List (Nat × List Byte)) := parseSections 16 0 (l.drop 96)

/-- Section types a full image must carry, may carry besides, and those a partial image may carry (R81). -/
def requiredSecs : List Nat := [1, 2, 5, 6, 7, 8, 9, 10, 11, 0xFFFF]
def optionalSecs : List Nat := [3, 4]
def liveSecs : List Nat := [2, 3, 6, 8]

/-- Whether the set of sections fits the kind of image (R81). -/
def secSetOk (part : Bool) (ts : List Nat) : Bool :=
  ts.getLast? == some scSignature &&
  (if part then ts.all (fun t => liveSecs.contains t || t == scSignature) && decide (2 ≤ ts.length)
   else requiredSecs.all (fun t => ts.contains t) && ts.all fun t => requiredSecs.contains t || optionalSecs.contains t)

/-- Check 3 in the header and in the sequence of sections. -/
def headerOk (part : Bool) (l : List Byte) (secs : List (Nat × List Byte)) : Bool :=
  imgFormat l == 1 && imgFlags l / 4 == 0 && imgPartial l == part && lengthOk (imgLength l) &&
  imgLength l == l.length && imgGen l != 0 && imgSections l == secs.length && byteAt l 23 == 0 &&
  (part || zeroAt l 24 48) && padded ((l.drop 72).take 16) && zeroAt l 88 8 && secSetOk part (secs.map (·.1))

/-- Records of a payload: n records of `size` bytes from offset a. -/
def recordsAt (l : List Byte) (a size n : Nat) : List (List Byte) :=
  (List.range n).map fun i => (l.drop (a + i * size)).take size

/-- The first record that fails a test. -/
def badRecord (code sec first : Nat) (bad : List Byte → Bool) (rs : List (List Byte)) : Option BadMould :=
  firstBad (rs.zipIdx.map fun r => badIf (bad r.1) code sec (first + r.2))

/-- Check 3 of a fixed payload: the first byte whose zero bits (a mask) are not zero (R617). -/
def badBytes (sec : Nat) (l : List Byte) (spans : List (Nat × Nat)) : Option BadMould :=
  match spans.find? fun e => Nat.land (byteAt l e.1) e.2 != 0 with
  | some e => some ⟨3, sec, e.1⟩
  | none => none

/-- Bytes [a, a + n) all zero, as spans. -/
def zeroSpan (a n : Nat) : List (Nat × Nat) := (List.range n).map fun i => (a + i, 0xFF)

/-- PORTS, check 3 (R82). -/
def formPorts (l : List Byte) : Option BadMould :=
  firstBad ((List.range 64).map fun p =>
    let r := (l.drop (16 * p)).take 16
    badIf ((byteAt r 0 % 2 == 0 && !zeroAt r 0 16) || decide (byteAt r 0 ≥ 64) || decide (byteAt r 3 ≥ 4) ||
      (if p < 56 then !zeroAt r 4 5 else decide (byteAt r 4 ≥ 4)) || decide (byteAt r 9 ≥ 4) || !zeroAt r 10 6) 3 1 p)

/-- POTS, check 3 (R83). `on` tells which ports are enabled: segments and disabled ports carry zero records. -/
def formPots (on : Nat → Bool) (l : List Byte) : Option BadMould :=
  firstBad ((List.range 64).map fun p =>
    let r := (l.drop (8 * p)).take 8
    badIf (decide (byteAt r 0 ≥ 4) || decide (byteAt r 2 ≥ 4) || !zeroAt r 5 3 || ((decide (56 ≤ p) || !on p) && !zeroAt r 0 8)) 3 2 p)

/-- The bundle records, and their pair records bundle by bundle (R84). -/
def bundleCount (l : List Byte) : Nat := byteAt l 10
def bundleRecs (l : List Byte) : List (List Byte) := recordsAt l 0 16 (bundleCount l)
def pairTotal (rs : List (List Byte)) : Nat := rs.foldl (fun n r => n + byteAt r 9) 0

/-- The pair records of each bundle in turn. -/
def splitPairs : List (List Byte) → List Byte → List (List (List Byte))
  | [], _ => []
  | r :: t, l => recordsAt l 0 4 (byteAt r 9) :: splitPairs t (l.drop (4 * byteAt r 9))
def bundlePairs (l : List Byte) : List (List (List Byte)) :=
  splitPairs (bundleRecs l) (l.drop (16 * bundleCount l))

/-- The members of a bundle record: position and port. -/
def recMembers (r : List Byte) : List (Nat × Nat) :=
  (List.range 8).filterMap fun k => if byteAt r k ≥ 128 then some (k, byteAt r k % 64) else none

/-- BUNDLES, check 3 (R84). -/
def formBundles (l : List Byte) : Option BadMould :=
  let rs := bundleRecs l
  if bundleCount l = 0 ∨ l.length < 16 * bundleCount l ∨ l.length ≠ 16 * bundleCount l + 4 * pairTotal rs then
    some ⟨3, 3, 0⟩
  else orBad
    (badRecord 3 3 0 (fun r => byteAt r 10 != bundleCount l || decide (byteAt r 8 ≥ 4) || !zeroAt r 11 5 ||
      (List.range 8).any (fun k => byteAt r k / 64 % 2 == 1) ||
      (recMembers r).zipIdx.any (fun m => m.1.1 != m.2)) rs)
    (badRecord 3 3 (bundleCount l) (fun r => decide (byteAt r 0 ≥ 8) || decide (byteAt r 1 ≥ 8) || byteAt r 3 != 0)
      (bundlePairs l).flatten)

/-- CANES, check 3 (R85). -/
def caneRecs (l : List Byte) : List (List Byte) := recordsAt l 0 8 (l.length / 8)
def formCanes (l : List Byte) : Option BadMould :=
  let rs := caneRecs l
  if l.length % 8 ≠ 0 then some ⟨3, 4, 0⟩ else
    firstBad (rs.zipIdx.map fun r =>
      badIf (decide (byteAt r.1 2 ≥ 2) || !zeroAt r.1 3 5 ||
        (decide (0 < r.2) && decide (byteAt r.1 0 < byteAt ((rs[r.2 - 1]?).getD []) 0))) 3 4 r.2)

/-- The per-head records and the classifier entries of HEADS (R86, R423). -/
def headCount (l : List Byte) : Nat := byteAt l 2
def clsCount (l : List Byte) : Nat := leAt l 4 2
def headRecs (l : List Byte) : List (List Byte) := recordsAt l 32 64 (headCount l)
def clsRecs (l : List Byte) : List (List Byte) := recordsAt l (32 + 64 * headCount l) 16 (clsCount l)

/-- HEADS, check 3 (R86, R423). -/
def formHeads (l : List Byte) : Option BadMould :=
  let rs := headRecs l
  if l.length < 32 ∨ byteAt l 3 ≠ 0 ∨ !zeroAt l 6 26 ∨ headCount l = 0 ∨ 4 < headCount l ∨ 2048 < clsCount l ∨
      l.length ≠ 32 + 64 * headCount l + 16 * clsCount l then some ⟨3, 5, 0⟩
  else orBad
    (firstBad (rs.zipIdx.map fun r =>
      badIf (decide (0 < r.2) && decide (byteAt r.1 0 ≤ byteAt ((rs[r.2 - 1]?).getD []) 0)) 3 5 (1 + r.2)))
    (badRecord 3 5 (1 + headCount l) (fun r => decide (byteAt r 9 ≥ 128) || decide (byteAt r 11 ≥ 64) ||
      decide (byteAt r 13 ≥ 2) || byteAt r 15 != 0) (clsRecs l))

/-- QUEUES, check 3 (R442). -/
def queueRecs (l : List Byte) : List (List Byte) := recordsAt l 0 16 (l.length / 16)
def sizeOk (n : Nat) : Bool := n == 0 || (decide (6 ≤ n) && decide (n ≤ 15))
def formQueues (l : List Byte) : Option BadMould :=
  let rs := queueRecs l
  if l.length % 16 ≠ 0 then some ⟨3, 6, 0⟩ else
    firstBad (rs.zipIdx.map fun r =>
      badIf (decide (byteAt r.1 1 ≥ 2) || decide (byteAt r.1 4 ≥ 64) || byteAt r.1 5 != 0 || !sizeOk (byteAt r.1 2) ||
        !sizeOk (byteAt r.1 3) || (decide (0 < r.2) && decide (leAt r.1 0 2 ≤ leAt ((rs[r.2 - 1]?).getD []) 0 2))) 3 6 r.2)

/-- TIME, WAKE, REACTIONS, GOVERNORS, RETENTION, signature block, check 3 (R344, R333, R89, R87, R88, R81). `heads` are those that the
strap creates: the windows of the others are zero. DEDUCED (log entry 160): bit 6 of an armed-detector byte and the bits of a
wake-table entry that belong to no field must be zero too. -/
def formFixed (heads : List Nat) (t : Nat) (l : List Byte) : Option BadMould :=
  if t = scTime then
    if l.length ≠ 256 then some ⟨3, t, 0⟩ else
      badBytes t l ([(0, 0xF0)] ++ zeroSpan 5 3 ++
        ((List.range 4).map fun d => (8 + 32 * d + 7, 0xFF) :: zeroSpan (8 + 32 * d + 24) 8).flatten ++ zeroSpan 148 108)
  else if t = scWake then
    if l.length ≠ 256 then some ⟨3, t, 0⟩ else
      badBytes t l ([(3, 0xFF)] ++ ((List.range 4).map fun i => (4 + i, 0x0C)) ++ zeroSpan 8 8 ++
        ((List.range 16).map fun i => [(18 + 4 * i, 0xC0), (19 + 4 * i, 0x0F)]).flatten ++
        ((List.range 16).map fun i => (80 + i, 0x40)) ++ zeroSpan 248 8)
  else if t = scReactions then
    if l.length ≠ 512 then some ⟨3, t, 0⟩ else badBytes t l ((List.range 512).map fun i => (i, 0xC0))
  else if t = scGovernors then
    if l.length ≠ 2328 then some ⟨3, t, 0⟩ else
      badBytes t l (((List.range 64).map fun p => (9 + 2 * p, 0xFC)) ++ [(140, 0xFC), (141, 0xFF)] ++ zeroSpan 145 135 ++
        ((List.range 64).map fun k => (if heads.contains (k / 16) then [] else zeroSpan (280 + 32 * k) 16) ++ (296 + 32 * k, 0xF0) :: zeroSpan (297 + 32 * k) 15).flatten)
  else if t = scRetention then
    if l.length ≠ 16 then some ⟨3, t, 0⟩ else badBytes t l (zeroSpan 4 12)
  else
    if l.length ≠ 200 then some ⟨3, t, 0⟩ else badBytes t l (zeroSpan 1 7)

/-- Check 3 of one section. DESIGN CHOICE (log entry 158): a payload of the wrong length names its section with record 0. -/
def formSection (heads : List Nat) (on : Nat → Bool) (t : Nat) (l : List Byte) : Option BadMould :=
  if t = scPorts then orBad (badIf (l.length != 1024) 3 1 0) (formPorts l)
  else if t = scPots then orBad (badIf (l.length != 512) 3 2 0) (formPots on l)
  else if t = scBundles then formBundles l
  else if t = scCanes then formCanes l
  else if t = scHeads then formHeads l
  else if t = scQueues then formQueues l
  else formFixed heads t l

/-- The signature block's public key and signature, and the key slot it names (R81, R90). -/
def sigSlot (b : List Byte) : Nat := byteAt b 0
def sigKey (b : List Byte) : List Byte := (b.drop 8).take 96
def sigValue (b : List Byte) : List Byte := (b.drop 104).take 96

/-- Checks 5 to 8 of R101. The signed bytes end before the header of the signature block (R90). -/
def checkKeys (keys : List KeySlot) (l sig : List Byte) : Option BadMould :=
  let k := (keys[sigSlot sig]?).getD {}
  if !keys.any (·.programmed) then some ⟨5, 0, 0⟩
  else if !k.programmed || k.digest != Config.sha384 (sigKey sig) then some ⟨6, 0, 0⟩
  else if k.revoked then some ⟨7, 0, 0⟩
  else badIf (!Config.ecdsaVerify (sigKey sig) (Config.sha384 (l.take (l.length - 208))) (sigValue sig)) 8 0 0

/-! Checks 9 to 22, on the sections of the mould that would result. -/

/-- The heads that a strap creates, with their widths (R371). -/
def strapHeads (headcfg : Nat) : List (Nat × Nat) :=
  match headcfg with
  | 0 => [(0, 16)]
  | 1 => [(0, 8), (1, 8)]
  | 2 => [(0, 4), (1, 4), (2, 4), (3, 4)]
  | _ => [(0, 8), (1, 4), (2, 4)]

/-- The first lane of a head (R371). -/
def firstLane (headcfg h : Nat) : Nat :=
  match headcfg with
  | 0 => 0 | 1 => 8 * h | 2 => 4 * h
  | _ => if h = 0 then 0 else 4 + 4 * h

/-- One record of PORTS or POTS. -/
def mPort (m : SMap (List Byte)) (p : Nat) : List Byte := ((m.getD scPorts []).drop (16 * p)).take 16
def mPot (m : SMap (List Byte)) (p : Nat) : List Byte := ((m.getD scPots []).drop (8 * p)).take 8
def mOn (m : SMap (List Byte)) (p : Nat) : Bool := byteAt (mPort m p) 0 % 2 == 1
def mTop (m : SMap (List Byte)) (p : Nat) : Nat := byteAt (mPort m p) 1 % 16
def mRole (m : SMap (List Byte)) (p : Nat) : Nat := byteAt (mPort m p) 0 / 16 % 4
def mHeads (m : SMap (List Byte)) : List (List Byte) := headRecs (m.getD scHeads [])
def mCls (m : SMap (List Byte)) : List (List Byte) := clsRecs (m.getD scHeads [])

/-- The heads whose mask holds a port. -/
def mOwners (m : SMap (List Byte)) (p : Nat) : List Nat :=
  ((mHeads m).filter fun r => bitOf (recPorts r) p).map fun r => byteAt r 0

/-- Checks 2 to 8 of R101 on an image; the sections where all pass. The ports are those that PORTS of the image enables, of the mould in
force for a partial image. -/
def checkImage (part : Bool) (headcfg : Nat) (active : SMap (List Byte)) (keys : List KeySlot) (l : List Byte) :
    Except BadMould (List (Nat × List Byte)) :=
  if imgMagic l ≠ 0x4F4D4458 then .error ⟨2, 0, 0⟩
  else
    match imgSecs l with
    | none => .error ⟨3, 0, 0⟩
    | some secs =>
      if !headerOk part l secs then .error ⟨3, 0, 0⟩
      else
        match firstBad (secs.map fun e => formSection ((strapHeads headcfg).map (·.1)) (mOn (if part then active else secs)) e.1 e.2) with
        | some b => .error b
        | none =>
          if imgPart l ≠ 0x6450 ∨ 0x00B0 < imgMinRev l then .error ⟨4, 0, 0⟩
          else
            match checkKeys keys l (SMap.getD secs scSignature []) with
            | some b => .error b
            | none => .ok secs

/-- PLCA settings of a PORTS record within R239. -/
def plcaOk (r : List Byte) : Bool :=
  let id := byteAt r 5
  let n := byteAt r 6
  decide (2 ≤ n) && decide (n ≤ 32) && decide (32 ≤ byteAt r 7) &&
    (if byteAt r 0 / 16 % 4 = 0 then id == 0 else decide (1 ≤ id) && decide (id < n))

/-- Check 9 (R82, R101, R119, R238, R616). -/
def check9 (m : SMap (List Byte)) : Option BadMould :=
  let anchor := byteAt (m.getD scTime []) 1
  orBad
    (firstBad (allPorts.map fun p =>
      let r := mPort m p
      let modes := classModes (portClass p)
      badIf (mOn m p && (!bitOf modes (mTop m p) || !bitOf modes (byteAt r 1 / 16) || mRole m p == 3 ||
        (decide (56 ≤ p) && (mRole m p == 2 || byteAt r 0 / 4 % 2 == 1 || (byteAt r 4 % 2 == 1 && !plcaOk r))))) 9 1 p))
    (badIf (anchor != 0xFF && !(decide (anchor < 56) && mOn m anchor && mRole m anchor == 1)) 9 7 1)

/-- The members of a CANES record (R85). -/
def caneMembers (r : List Byte) : List Nat := (List.range (byteAt r 1)).map fun i => byteAt r 0 + i

/-- Check 10 (R85, R101). -/
def check10 (m : SMap (List Byte)) : Option BadMould :=
  let rs := caneRecs (m.getD scCanes [])
  firstBad (rs.zipIdx.map fun e =>
    let r := e.1
    let lo := byteAt r 0
    let shape := (byteAt r 1 == 2 && lo % 2 == 0 && decide (lo ≤ 6)) || (byteAt r 1 == 4 && (lo == 0 || lo == 4))
    let ms := caneMembers r
    badIf (!shape || (rs.take e.2).any (fun q => (caneMembers q).any fun p => ms.contains p) ||
      ms.any (fun p => !mOn m p) || !(ms.all (fun p => mTop m p == 7) || ms.all (fun p => mTop m p == 6)) ||
      ms.any (fun p => mOwners m p != mOwners m lo)) 10 4 e.2)

/-- A pair that check 14 passes: both positions valid members, different, enabled, kind 0, 1 or 3. -/
def pairOk (m : SMap (List Byte)) (ms : List (Nat × Nat)) (r : List Byte) : Bool :=
  let on := fun k => match ms.find? fun e => e.1 == k with
    | some e => mOn m e.2
    | none => false
  byteAt r 0 != byteAt r 1 && on (byteAt r 0) && on (byteAt r 1) &&
    (byteAt r 2 == 0 || byteAt r 2 == 1 || byteAt r 2 == 3)

/-- The top mode of a pair's victim. -/
def victimTop (m : SMap (List Byte)) (ms : List (Nat × Nat)) (r : List Byte) : Nat :=
  match ms.find? fun e => e.1 == byteAt r 1 with
  | some e => mTop m e.2
  | none => 0

/-- One owner of check 11: the slots it takes in up to two quarters, whether its own slots are wrong, its record. -/
structure Claim where
  qa : Nat
  na : Nat
  qb : Nat
  nb : Nat
  wrong : Bool
  sect : Nat
  index : Nat

/-- Walk the claims in the order of R209 with the slots used so far in each quarter. -/
def walkClaims : List Claim → (Nat → Nat) → Option BadMould
  | [], _ => none
  | c :: t, used =>
    let used' := fun q => used q + (if q = c.qa then c.na else 0) + (if q = c.qb then c.nb else 0)
    if c.wrong ∨ 256 < used' c.qa ∨ 256 < used' c.qb then some ⟨11, c.sect, c.index⟩ else walkClaims t used'

/-- The claims of the ports; a disabled port claims nothing and its record is zero (R83). -/
def portClaims (m : SMap (List Byte)) : List Claim :=
  allPorts.map fun p =>
    let r := mPot m p
    let cost := if mOn m p then portCost (mTop m p) else 0
    ⟨byteAt r 0, byteAt r 1, byteAt r 2, byteAt r 3,
     byteAt r 1 + byteAt r 3 != cost + byteAt r 4 || (!mOn m p && !zeroAt r 0 8), 2, p⟩

/-- The bundles of a mould with their pair records and the section-wide number of their first pair record. -/
def mBundles (m : SMap (List Byte)) : List (List Byte × List (List Byte)) :=
  let l := m.getD scBundles []
  if l.isEmpty then [] else (bundleRecs l).zip (bundlePairs l)
def firstPair (bs : List (List Byte × List (List Byte))) (b : Nat) : Nat :=
  bs.length + pairTotal ((bs.take b).map (·.1))

/-- The claims of the cancellers: pairs that check 14 fails and pairs of kind 0 are left out. -/
def cancelClaims (m : SMap (List Byte)) : List Claim :=
  let bs := mBundles m
  (bs.zipIdx.map fun e =>
    let ms := recMembers e.1.1
    (e.1.2.zipIdx.map fun r =>
      if pairOk m ms r.1 && byteAt r.1 2 != 0 then
        [Claim.mk (byteAt e.1.1 8) (cancelCost (victimTop m ms r.1)) 4 0 (victimTop m ms r.1 == 8) 3
          (firstPair bs e.2 + r.2)]
      else []).flatten).flatten

/-- Check 11. -/
def check11 (m : SMap (List Byte)) : Option BadMould := walkClaims (portClaims m ++ cancelClaims m) fun _ => 0

/-- Checks 12 and 13. -/
def check12 (m : SMap (List Byte)) : Option BadMould :=
  firstBad (allPorts.map fun p => badIf (byteAt (mPot m p) 3 != 0 && byteAt (mPot m p) 2 == byteAt (mPot m p) 0) 12 2 p)
def check13 (m : SMap (List Byte)) : Option BadMould :=
  firstBad (allPorts.map fun p => badIf (mOn m p && decide (portCost (mTop m p) / 2 < byteAt (mPot m p) 4)) 13 2 p)

/-- Check 14: a seventeenth bundle is itself at fault. -/
def check14 (m : SMap (List Byte)) : Option BadMould :=
  let bs := mBundles m
  orBad
    (firstBad (bs.zipIdx.map fun e =>
      let ports := (recMembers e.1.1).map (·.2)
      let before := ((bs.take e.2).map fun c => (recMembers c.1).map (·.2)).flatten
      badIf (decide (16 ≤ e.2) || decide (56 < byteAt e.1.1 9) || ports.any (fun p => before.contains p || !mOn m p) || !decide ports.Nodup)
        14 3 e.2))
    (firstBad (bs.zipIdx.map fun e =>
      badRecord 14 3 (firstPair bs e.2) (fun r => !pairOk m (recMembers e.1.1) r) e.1.2))

/-- Check 15. -/
def check15 (m : SMap (List Byte)) : Option BadMould :=
  firstBad ((mBundles m).zipIdx.map fun e =>
    let tops := (recMembers e.1.1).map fun x => mTop m x.2
    badIf (tops.any fun t => t != tops.headD 0) 15 3 e.2)
/-- Check 16. DESIGN CHOICE (log entry 158): it names the bundle record, which holds the members that are no masters. -/
def check16 (m : SMap (List Byte)) : Option BadMould :=
  firstBad ((mBundles m).zipIdx.map fun e =>
    badIf (e.1.2.any (fun r => byteAt r 2 == 3) && (recMembers e.1.1).any (fun x => mRole m x.2 != 0)) 16 3 e.2)

/-- Check 17 (R30, R371). -/
def check17 (headcfg : Nat) (m : SMap (List Byte)) : Option BadMould :=
  firstBad ((mHeads m).zipIdx.map fun e =>
    badIf (!(strapHeads headcfg).contains (byteAt e.1 0, byteAt e.1 1)) 17 5 (1 + e.2))

/-- The queue-pair range of a head record. -/
def recFirst (r : List Byte) : Nat := leAt r 10 2
def recCount (r : List Byte) : Nat := leAt r 12 2

/-- The overrides of a head record that are used: port and queue pair. -/
def overrides (r : List Byte) : List (Nat × Nat) :=
  (List.range 16).filterMap fun i =>
    if byteAt r (16 + 3 * i) = 0xFF then none else some (byteAt r (16 + 3 * i), leAt r (17 + 3 * i) 2)

/-- Check 18 (R31, R86). DESIGN CHOICE (log entry 158): an enabled port on no head or on two is named by its PORTS record. DEDUCED (log
entry 159): a range whose first index is above 512 runs past QP[511] even where it is empty. -/
def check18 (headcfg : Nat) (m : SMap (List Byte)) : Option BadMould :=
  let g := m.getD scHeads []
  let rs := mHeads m
  let created := (strapHeads headcfg).map (·.1)
  firstBad [
    firstBad (allPorts.map fun p => badIf (mOn m p && (mOwners m p).length != 1) 18 1 p),
    badIf (!created.contains (byteAt g 0) || !created.contains (byteAt g 1) ||
      (decide (2 ≤ created.length) && byteAt g 0 == byteAt g 1)) 18 5 0,
    firstBad (rs.zipIdx.map fun e =>
      let r := e.1
      badIf (allPorts.any (fun p => bitOf (recPorts r) p && !mOn m p) || decide (512 < recCount r) ||
        decide (512 < recFirst r + recCount r) ||
        (rs.take e.2).any (fun q => decide (0 < recCount q) && decide (0 < recCount r) &&
          decide (recFirst r < recFirst q + recCount q) && decide (recFirst q < recFirst r + recCount r)) ||
        (overrides r).any (fun o => !bitOf (recPorts r) o.1)) 18 5 (1 + e.2))]

/-- The head whose record holds a queue pair. -/
def mQpHead (m : SMap (List Byte)) (q : Nat) : Option Nat :=
  ((mHeads m).find? fun r => recHasQp r q).map fun r => byteAt r 0

/-- Check 19 (R32, R86, R422). -/
def check19 (m : SMap (List Byte)) : Option BadMould :=
  let n := (mHeads m).length
  orBad
    (badRecord 19 5 1 (fun r => (leAt r 14 2 :: (overrides r).map (·.2)).any fun q => q != 0xFFFF && !recHasQp r q) (mHeads m))
    (badRecord 19 5 (1 + n) (fun r => byteAt r 11 % 2 == 1 &&
      (match mQpHead m (leAt r 12 2) with
       | none => true
       | some h => byteAt r 10 != 0xFF && mOwners m (byteAt r 10) != [h])) (mCls m))

/-- The hardware limit of an amplitude governor, 4 mV units (R115). -/
def ampLimit (p : Nat) : Nat := if 8 ≤ p ∧ p < 56 then 550 else 300

/-- Check 20 (R87, R115); a window fault is named by its base or its limit. -/
def check20 (m : SMap (List Byte)) : Option BadMould :=
  let g := m.getD scGovernors []
  firstBad [
    firstBad (allPorts.map fun p => badIf (decide (ampLimit p < leAt g (8 + 2 * p) 2)) 20 10 (8 + 2 * p)),
    badIf (decide (leAt g 136 2 < 10) || decide (10000 < leAt g 136 2)) 20 10 136,
    badIf (decide (200000 < leAt g 138 4)) 20 10 138,
    badIf (leAt g 142 2 == 0) 20 10 142,
    badIf (byteAt g 144 == 0) 20 10 144,
    firstBad ((List.range 64).map fun k =>
      let w := (g.drop (280 + 32 * k)).take 32
      let base := leAt w 0 8
      let limit := leAt w 8 8
      if zeroAt w 0 32 then none else
        orBad (badIf (base % 4096 != 0) 20 10 (280 + 32 * k))
          (badIf ((limit + 1) % 4096 != 0 || decide (limit ≤ base)) 20 10 (288 + 32 * k)))]

/-- Check 21. -/
def check21 (m : SMap (List Byte)) : Option BadMould :=
  let g := m.getD scGovernors []
  let sp := leAt (m.getD scWake []) 0 2
  firstBad [
    firstBad (allPorts.map fun p => badIf (mOn m p && decide (leAt g (8 + 2 * p) 2 < leAt (mPort m p) 2 2)) 21 1 p),
    badIf (decide (sp < leAt g 136 2) || decide (sp < 10) || decide (10000 < sp)) 21 8 0,
    badIf (leAt g 0 8 != (allPorts.filter (mOn m)).foldl (fun n p => n + 2 ^ p) 0) 21 10 0]

/-- Targets of a wake action (R334); none = the action fails check 22. -/
def wakeTargets (a : Nat) : Option Nat :=
  match a with
  | 0 => some 64 | 1 => some 24 | 2 => some 4 | 3 => some 8 | 4 => some 64
  | _ => none

/-- Check 22 (R88, R334). -/
def check22 (m : SMap (List Byte)) : Option BadMould :=
  let w := m.getD scWake []
  let r := m.getD scRetention []
  let mask := leAt r 0 2
  let mb := byteAt r 2
  let sb := byteAt r 3
  firstBad [
    firstBad ((List.range 16).map fun i =>
      let v := leAt w (16 + 4 * i) 4
      let a := v / 2 ^ 28
      let t := v / 2 ^ 16 % 64
      badIf (match wakeTargets a with
        | none => true
        | some n => decide (n ≤ t) || (a == 4 && !mOn m t)) 22 8 (16 + 4 * i)),
    badIf (!(decide (mb ≤ 14) && bitOf mask mb && bitOf mask (mb + 1))) 22 11 2,
    badIf (!(decide (sb ≤ 15) && bitOf mask sb) || sb == mb || sb == mb + 1) 22 11 3]

/-- Checks 9 to 22 in order. -/
def checkMould (headcfg : Nat) (m : SMap (List Byte)) : Option BadMould :=
  firstBad [check9 m, check10 m, check11 m, check12 m, check13 m, check14 m, check15 m, check16 m, check17 headcfg m,
    check18 headcfg m, check19 m, check20 m, check21 m, check22 m]

/-- Top rate of a mode in Mb/s (R119). -/
def modeRate (m : Nat) : Nat :=
  match m with
  | 1 => 100 | 2 => 1000 | 3 => 2500 | 4 => 5000 | 5 => 10000 | 6 => 25000 | 7 => 50000 | 8 => 10 | _ => 0

/-- Heads whose line sum exceeds their capacity of 55.0 Gb/s per lane (R26, R27, R102). -/
def headOver (headcfg : Nat) (m : SMap (List Byte)) : Nat :=
  (mHeads m).foldl (fun n r =>
    let lanes := SMap.getD (strapHeads headcfg) (byteAt r 0) 0
    let sum := ((allPorts.filter fun p => bitOf (recPorts r) p).map fun p => modeRate (mTop m p)).foldl (· + ·) 0
    if 55000 * lanes < sum then setBit n (byteAt r 0) else n) 0

/-- The mould that a partial image would give (R101): its sections in place of the active ones; its QUEUES records
replace those of the queue pairs they name (log entry 21). -/
def insertQueue (r : List Byte) : List (List Byte) → List (List Byte)
  | [] => [r]
  | q :: t => if leAt r 0 2 < leAt q 0 2 then r :: q :: t else if leAt r 0 2 = leAt q 0 2 then r :: t
              else q :: insertQueue r t
def mergeQueues (old new : List Byte) : List Byte :=
  ((queueRecs new).foldl (fun l r => insertQueue r l) (queueRecs old)).flatten
def mergeMould (active part : SMap (List Byte)) : SMap (List Byte) :=
  part.foldl (fun m e =>
    if e.1 = scSignature then m
    else if e.1 = scQueues then m.put e.1 (mergeQueues (m.getD scQueues []) e.2)
    else m.put e.1 e.2) active

/-- A full image apart from its signature block, as the sections to hold. -/
def holdSections (secs : List (Nat × List Byte)) : SMap (List Byte) := secs.filter fun e => e.1 != scSignature

end Sys2Proof.Machine
end

