-- ==== Sys2Proof/Machine/MouldLoad.lean ====
section
/-!
DEFINITION. The mould put in force: the values that each block derives from it (R99, R209, R520).
-/
namespace Sys2Proof.Machine

/-- Load a field from the mould: the active field, and the staged field where the word is staged. -/
def loadF (F : Field) (v : Nat) : Prog := .read fun s =>
  .seq (when (s.staged.get? F.off).isSome (stageF F v)) (setF F v)

/-- The heads and widths of the strap (R371). -/
def State.created (s : State) : List (Nat × Nat) := strapHeads (s.f F.GLB_STRAPS_headcfg)
def State.headExists (s : State) (h : Nat) : Bool := (s.created.map (·.1)).contains h
def State.strapWidth (s : State) (h : Nat) : Nat := SMap.getD s.created h 0

/-- The request budget of a head: 256 units per strap lane (R401). -/
def State.budget (s : State) (h : Nat) : Nat := 256 * s.strapWidth h

/-- PORT[p] from PORTS (R121, R126, R138, R160, R238). A port that PORTS does not enable keeps zeros. -/
def derivePort (p : Nat) : Prog := .read fun s =>
  when (s.portEnabled p)
    (let r := mPort s.mld.active p
     block [loadF (F.PORT_CTL_admin p) (s.startAdmin p),
       loadF (F.PORT_MODE_CFG_role p) (roleLoad (s.portsRole p)), loadF (F.PORT_MODE_CFG_an_en p) (byteAt r 0 / 4 % 2),
       loadF (F.PORT_MODE_CFG_top_mode p) (s.topMode p), loadF (F.PORT_MODE_CFG_ramp_mode p) (s.rampMode p),
       loadModes p,
       loadF (F.PORT_TX_AMP_amp_default p) (leAt r 2 2), loadF (F.PORT_TX_AMP_amp p) (leAt r 2 2), when (s.domOn (portDomain p)) (launchSet p),
       when (decide (56 ≤ p)) (block [
         loadF (F.PORT_SEG_CFG_node_count p) (byteAt r 6), loadF (F.PORT_SEG_CFG_node_id p) (byteAt r 5),
         loadF (F.PORT_SEG_CFG_term p) (byteAt r 4 / 2 % 2), loadF (F.PORT_SEG_CFG_coordinator p) (b2n (s.portsRole p == 0)),
         loadF (F.PORT_SEG_CFG_plca_en p) (byteAt r 4 % 2), loadF (F.PORT_SEG_TIMING_max_burst p) (byteAt r 8),
         loadF (F.PORT_SEG_TIMING_to_timer p) (byteAt r 7)])])

/-- CANE[k] from CANES (R85, R178): cane k has its lowest member at T(2k). -/
def deriveCane (k : Nat) : Prog := .read fun s =>
  ifSome ((caneRecs (s.sec scCanes)).find? fun r => byteAt r 0 == 2 * k) fun r =>
    block [setF (F.CANE_CFG_valid k) 1, setF (F.CANE_CFG_policy k) (byteAt r 2 % 2),
      setF (F.CANE_CFG_members k) (2 ^ byteAt r 1 - 1)]

/-- A pair of kind 0b00 has no canceller; one that gets a kind has a disabled one (R230). -/
def derivePair (b i : Nat) : Prog := .read fun s =>
  let st := s.f (F.BND_PAIR_STAT_state b i)
  if s.f (F.BND_PAIR_CFG_kind b i) = 0 then setF (F.BND_PAIR_STAT_state b i) pcNone
  else when (st == pcNone) (setF (F.BND_PAIR_STAT_state b i) pcDisabled)

/-- BND[b] from BUNDLES (R84, R227). -/
def deriveBnd (b : Nat) : Prog := .read fun s =>
  block [ifSome ((mBundles s.mld.active)[b]?) fun e =>
    block [setF (F.BND_CFG_valid b) 1, setF (F.BND_CFG_quarter b) (byteAt e.1 8), setF (F.BND_CFG_pairs b) (byteAt e.1 9),
      setF (F.BND_CFG_mode b) (match recMembers e.1 with
        | x :: _ => s.topMode x.2
        | [] => 0),
      setReg (R.BND_MEMBERS_LO b) (BitVec.ofNat 32 (leAt e.1 0 4)), setReg (R.BND_MEMBERS_HI b) (BitVec.ofNat 32 (leAt e.1 4 4)),
      each e.2.zipIdx fun r =>
        block [loadF (F.BND_PAIR_CFG_aggressor b r.2) (byteAt r.1 0), loadF (F.BND_PAIR_CFG_victim b r.2) (byteAt r.1 1),
          loadF (F.BND_PAIR_CFG_kind b r.2) (byteAt r.1 2)]],
    each (List.range 56) (derivePair b)]

/-! The allocator (R209, R210). -/

/-- The lowest n free slots of a quarter that are not on a dead pot. -/
def State.freeSlots (s : State) (used : List (Nat × Nat)) (q n : Nat) : Option (List Nat) :=
  let l := ((List.range 256).filter fun i => !s.slotDead (256 * q + i) && !used.any fun e => e.1 == 256 * q + i).take n
  if l.length = n then some (l.map fun i => 256 * q + i) else none

/-- An owner, what it asks of each of at most two quarters, and for a canceller its pair record's aggressor, victim and kind. -/
structure Want where
  owner : Nat
  parts : List (Nat × Nat)
  pair : List Byte := []

/-- Place an owner in full, or not at all: the slots with their owner, and whether it was placed. -/
def placeParts (s : State) (o : Nat) : List (Nat × Nat) → List (Nat × Nat) → Option (List (Nat × Nat))
  | [], used => some used
  | (q, n) :: t, used =>
    match s.freeSlots used q n with
    | some l => placeParts s o t (used ++ l.map fun x => (x, o))
    | none => none

/-- Place owners in order: the map, and whether any was left unplaced. -/
def placeAll (s : State) : List Want → List (Nat × Nat) → List (Nat × Nat) × Bool
  | [], used => (used, false)
  | w :: t, used =>
    match placeParts s w.owner w.parts used with
    | some u => placeAll s t u
    | none => ((placeAll s t used).1, true)

/-- The owners of a mould in the order of R209. -/
def portWants (m : SMap (List Byte)) : List Want :=
  (allPorts.filter (mOn m)).map fun p =>
    let r := mPot m p
    ⟨p, [(byteAt r 0, byteAt r 1), (byteAt r 2, byteAt r 3)], []⟩
def cancelWants (m : SMap (List Byte)) : List Want :=
  ((mBundles m).zipIdx.map fun e =>
    (e.1.2.zipIdx.map fun r =>
      if byteAt r.1 2 = 0 then [] else
        [Want.mk (cancelOwner e.2 r.2) [(byteAt e.1.1 8, cancelCost (victimTop m (recMembers e.1.1) r.1))] (r.1.take 3)]).flatten).flatten

/-- The half word of FUR.SLOT that names an owner (R208). -/
def slotHalf (o : Option Nat) : Nat :=
  match o with
  | none => 0
  | some p => if p < 4096 then 0x4000 + p else 0x8000 + (p - 4096)

/-- The slot map as words. -/
def slotWord (map : List (Nat × Nat)) (w : Nat) : Nat :=
  let at_ := fun n => (map.find? fun e => e.1 == n).map (·.2)
  slotHalf (at_ (2 * w)) + 65536 * slotHalf (at_ (2 * w + 1))

/-- The slot map derived at a start (R209). -/
def deriveFur : Prog := .read fun s =>
  let r := placeAll s (portWants s.mld.active ++ cancelWants s.mld.active) []
  block [each (List.range 512) fun w =>
      block [setReg (R.FUR_SLOT w) (BitVec.ofNat 32 (slotWord r.1 w)), .act (.unstage (R.FUR_SLOT w))],
    when r.2 (raise R.FUR_EVENT 3)]

/-! Queue pairs, heads, classifier. -/

/-- The QUEUES record of a queue pair. -/
def State.queueRec (s : State) (q : Nat) : List Byte :=
  ((queueRecs (s.sec scQueues)).find? fun r => leAt r 0 2 == q).getD []

/-- QP[q] from QUEUES (R410, R442). -/
def deriveQp (q : Nat) : Prog := .read fun s =>
  let r := s.queueRec q
  when (!r.isEmpty)
    (block [setF (F.QP_RX_CFG_size_log2 q) (byteAt r 2), setF (F.QP_TX_CFG_size_log2 q) (byteAt r 3),
      setF (F.QP_RX_CFG_landing q) (byteAt r 4 % 2), setF (F.QP_TX_CFG_landing q) (byteAt r 4 / 2 % 2),
      setF (F.QP_RX_CFG_pri q) (byteAt r 4 / 4 % 4), setF (F.QP_TX_CFG_pri q) (byteAt r 4 / 16 % 4),
      setF (F.QP_RX_MOD_count q) (byteAt r 6), setF (F.QP_TX_MOD_count q) (byteAt r 7),
      setF (F.QP_RX_MOD_timer_us q) (leAt r 8 2), setF (F.QP_TX_MOD_timer_us q) (leAt r 10 2),
      setF (F.QP_RX_CFG_vec q) (leAt r 12 2), setF (F.QP_TX_CFG_vec q) (leAt r 14 2)])

/-- HEAD[h] from the strap and HEADS (R86, R371, R401). -/
def deriveHead (h : Nat) : Prog := .read fun s =>
  when (s.headExists h)
    (block [setF (F.HEAD_LANES_strap_width h) (s.strapWidth h),
      setF (F.HEAD_LANES_first_lane h) (firstLane (s.f F.GLB_STRAPS_headcfg) h),
      loadF (F.HEAD_REQ_CFG_max_out h) (s.budget h),
      when s.mouldOk (block [setF (F.HEAD_STAT_steward h) (b2n (byteAt (s.sec scHeads) 0 == h)),
        setF (F.HEAD_STAT_deputy h) (b2n (byteAt (s.sec scHeads) 1 == h))])])

/-- PKT.PORT_DEF[p] (R86). -/
def derivePortDef (p : Nat) : Prog := .read fun s =>
  match (s.portHead p).bind fun h => recDefault (s.headRec h) p with
  | some q => block [setF (F.PKT_PORT_DEF_valid p) 1, setF (F.PKT_PORT_DEF_qp p) q]
  | none => setReg (R.PKT_PORT_DEF p) 0

/-- PKT.CLS shows the entries of the active mould (R114, R423). -/
def deriveCls : Prog := .read fun s =>
  let rs := mCls s.mld.active
  each (List.range 2048) fun e =>
    match rs[e]? with
    | some r => setWide (R.PKT_CLS e) 4 (leAt r 0 16)
    | none => setWide (R.PKT_CLS e) 4 0

/-- The shares of the cellar for the created heads (CEL.HEAD_RX, CEL.HEAD_TX). -/
def deriveCel : Prog := .read fun s =>
  each (List.range 4) fun h => when (s.headExists h)
    (block [setF (F.CEL_HEAD_RX_max h) 384, setF (F.CEL_HEAD_RX_guar h) 96,
      setF (F.CEL_HEAD_TX_max h) 384, setF (F.CEL_HEAD_TX_guar h) 96])

/-! Timebase, gate lists, wake block, reactions, governors. -/

/-- The slave port of a domain under external port configuration (R345). -/
def State.timeSlave (s : State) (d : Nat) : Option Nat := allPorts.find? fun p => s.timeRole d p == 2

/-- TB from TIME (R344, R345): under BMCA the roles follow GM_CHANGE. -/
def deriveTb : Prog := .read fun s =>
  let l := s.sec scTime
  block ([setF F.TB_CFG_gptp_en (byteAt l 0 % 2), setF F.TB_CFG_work_domain (byteAt l 0 / 2 % 4),
    setF F.TB_PPS_CFG_pps_out_en (byteAt l 0 / 8 % 2), setF F.TB_CFG_holdover_s (byteAt l 3)] ++
    (List.range 4).map fun d =>
      let r := s.timeRec d
      let ext := byteAt r 2 == 0
      let sl := if ext then s.timeSlave d else none
      block [setF (F.TB_DOM_STAT_valid d) (byteAt r 0 % 2), setF (F.TB_DOM_STAT_domainNumber d) (byteAt r 1),
        setF (F.TB_DOM_STAT_role d) (if byteAt r 0 % 2 = 1 then 3 else 0),
        setF (F.TB_DOM_STAT_slave_valid d) (b2n sl.isSome), setF (F.TB_DOM_STAT_slave_port d) (sl.getD 0),
        when (d == byteAt l 0 / 2 % 4 && byteAt r 0 % 2 == 1)
          (block [setF F.TB_STAT_slave_valid (b2n sl.isSome), setF F.TB_STAT_slave_port (sl.getD 0)]),
        each allPorts fun p =>
          setRole d p (if !ext then 0 else if s.timeRole d p = 2 ∧ sl ≠ some p then 3 else s.timeRole d p)])

/-- LCH.GCL_CFG and LCH.GCL from TIME (R344, R367): the default cycle, and an all-open entry as long as it. -/
def deriveLch : Prog := .read fun s =>
  let l := s.sec scTime
  each allPorts fun p =>
    block [loadF (F.LCH_GCL_CFG_CTRL_en p) (b2n (bitOf (leAt l 136 8) p)),
      loadF (F.LCH_GCL_CFG_CYCLE_cycle p) (leAt l 144 4),
      loadF (F.LCH_GCL_gates p 0) 0xFF, loadF (F.LCH_GCL_interval p 0) (leAt l 144 4 / 64), gclRefresh p]

/-- WAKE from its section (R333, R334). -/
def deriveWake : Prog := .read fun s =>
  let l := s.sec scWake
  block [setF F.WAKE_CFG_spacing_ms (leAt l 0 2), setF F.WAKE_CFG_retries (byteAt l 2),
    setReg R.WAKE_IN_CFG (BitVec.ofNat 32 (leAt l 4 4)),
    each (List.range 16) fun i => block [setReg (R.WAKE_TABLE i) (BitVec.ofNat 32 (leAt l (16 + 4 * i) 4)),
      setReg (R.WAKE_PARK_DET i) (BitVec.ofNat 32 (byteAt l (80 + i)))],
    each (List.range 8) fun w => setReg (R.WAKE_PGROUP w) (BitVec.ofNat 32 (leAt l (96 + 4 * w) 4)),
    each (List.range 15) fun g => setWide (R.WAKE_FWD_MASK g) 2 (leAt l (128 + 8 * g) 8)]

/-- WAKE.DET_EN resets to the enabled ports. -/
def deriveDetEn : Prog := .read fun s =>
  setWide R.WAKE_DET_EN 2 ((allPorts.filter fun p => s.portEnabled p).foldl (fun n p => n + 2 ^ p) 0)

/-- FLT.REACT from REACTIONS (R530). -/
def deriveFlt : Prog := .read fun s =>
  each (List.range 128) fun i => setReg (F.FLT_REACT_bytes i).off (BitVec.ofNat 32 (leAt (s.sec scReactions) (4 * i) 4))

/-- MLD: governors, keys, generation, digest, state (R87, R99, R102, R115). -/
def deriveMld : Prog := .read fun s =>
  let g := s.sec scGovernors
  let beyond := headOver (s.f F.GLB_STRAPS_headcfg) s.mld.active
  when (!s.mld.active.isEmpty) (block [
    setWide R.MLD_GOV_TXEN 2 (leAt g 0 8),
    each allPorts fun p => setReg (R.MLD_GOV_AMP p) (BitVec.ofNat 32 (leAt g (8 + 2 * p) 2)),
    setF F.MLD_GOV_WAKE_spacing_ms (leAt g 136 2), setF F.MLD_GOV_TIME_freq_ppb (leAt g 138 4),
    setF F.MLD_GOV_TIME_interval_ms (byteAt g 144), setF F.MLD_GOV_STEP_step_us (leAt g 142 2),
    each (List.range 64) fun k =>
      block [setWide (R.MLD_GOV_WIN_BASE (k / 16) (k % 16)) 2 (leAt g (280 + 32 * k) 8),
        setWide (R.MLD_GOV_WIN_LIMIT (k / 16) (k % 16)) 2 (leAt g (288 + 32 * k) 8),
        setReg (R.MLD_GOV_WIN_FLAGS (k / 16) (k % 16)) (BitVec.ofNat 32 (byteAt g (296 + 32 * k)))],
    setF F.MLD_ACTIVE_GEN_full_gen s.mld.gen, setF F.MLD_ACTIVE_GEN_partial_gen s.mld.partialInForce,
    setWide R.MLD_ACTIVE_DIGEST 12 (leNat s.mld.digest), setF F.MLD_KEYS_used s.mld.used,
    setF F.MLD_WARN_head_over beyond, setF F.MLD_STATUS_state (if beyond = 0 then 2 else 3), setF F.MLD_STATUS_src s.mld.src])

/-- MLD.KEYS shows the OTP (R91). -/
def deriveKeys : Prog := .read fun s =>
  block [setF F.MLD_KEYS_programmed (maskOf (s.otp.keys.map (·.programmed))),
    setF F.MLD_KEYS_revoked (maskOf (s.otp.keys.map (·.revoked)))]

/-- GLB.MODE from HEADS (R34). -/
def deriveGlb : Prog := .read fun s =>
  when s.mouldOk (block [setF F.GLB_MODE_steward (byteAt (s.sec scHeads) 0), setF F.GLB_MODE_deputy (byteAt (s.sec scHeads) 1)])

/-- Every block takes its values from the mould in force (R99, R520). -/
def deriveAll : Prog :=
  block [deriveMld, deriveGlb, deriveFlt, deriveTb, deriveFur, each (List.range 4) deriveCane,
    each (List.range 16) deriveBnd, each allPorts derivePort, each (List.range 4) deriveHead,
    each (List.range 512) deriveQp, each allPorts derivePortDef, deriveCls, deriveLch, deriveWake, deriveDetEn]

end Sys2Proof.Machine
end

