-- ==== Sys2Proof/Machine/Mould.lean ====
section
/-!
DEFINITION. The mould loader: full loads, partial remoulds up to STAGED, adoption, key programming (R92 to R114).
-/
namespace Sys2Proof.Machine

/-- The flash offset of a mould slot (R95). -/
def slotBase (slot : Nat) : Nat := if slot = 0 then 0x500000 else 0x580000

/-- The bytes of one Gaffer bank. -/
def bankSize : Nat := 0x40000

/-- An image read from a byte reader: its header, then as many bytes as a length within R79 says. -/
def readImage (rd : Nat → Nat → List Byte) : List Byte :=
  let h := rd 0 96
  if lengthOk (imgLength h) then rd 0 (imgLength h) else h

/-- The image in a flash at an offset. -/
def State.flashImage (s : State) (a : Nat) : List Byte := readImage fun o n => s.flash.readBytes erased (a + o) n

/-- The image in a Gaffer bank: bank in [63:60], offset in [17:0] (MLD.LOAD_SRC). -/
def State.bankImage (s : State) (addr : Nat) : List Byte :=
  readImage fun o n => s.sram.readBytes blank (addr / 2 ^ 60 % 16 * bankSize + addr % 2 ^ 18 + o) n

/-- A failed full load (R101, R103): C2 with the code and the source of the attempt. -/
def loadFails (b : BadMould) (src : Nat) : Prog :=
  block [setF F.MLD_STATUS_err b.code, setF F.MLD_STATUS_src src,
    setF F.MLD_ERR_DETAIL_section b.sect, setF F.MLD_ERR_DETAIL_record b.index,
    emit 0x05 0x19 2 (b.code + 64 * src) (b.sect * 65536 + b.index)]

/-- A load ends. -/
def loadEnds : Prog :=
  block [setF F.MLD_LOAD_CTL_start 0, updMld fun x => { x with load := none, loadLeft := [], reload := false },
    raise R.MLD_EVENT 0]

/-- A slot whose header makes it a candidate (R95): the first check that its header fails, none for a candidate. -/
def candidateFault (h : List Byte) : Option Nat :=
  if imgMagic h ≠ 0x4F4D4458 then some 2
  else if imgFormat h ≠ 1 ∨ imgPartial h then some 3
  else if imgPart h ≠ 0x6450 then some 4
  else none

/-- A load from a list of slots starts with the first. -/
def loadSlots (slots : List Nat) : Prog :=
  match slots with
  | [] => .skip
  | k :: t => block [setF F.MLD_STATUS_state 1, setF F.MLD_LOAD_CTL_start 1,
      updMld fun x => { x with load := some (k, 0, 4), loadLeft := t }]

/-- MOULD_LOAD (R95): the loader of a cold start picks its slots, the higher generation first. -/
def mouldColdLoad : Prog := .read fun s =>
  let hd := fun k => s.flash.readBytes erased (slotBase k) 96
  let cand := [0, 1].filter fun k => (candidateFault (hd k)).isNone
  match cand with
  | [] => block [loadFails ⟨(candidateFault (hd 0)).getD 2, 0, 0⟩ 0, setF F.MLD_STATUS_state 4, loadEnds]
  | [k] => loadSlots [k]
  | _ => loadSlots (if imgGen (hd 0) < imgGen (hd 1) then [1, 0] else [0, 1])

/-- MOULD_LOAD_START (R97): a write of MLD.LOAD_CTL that passed the access checks, from a path. For kind 0b11 the loader reads the
image from the head's host memory with CXL.io requests, first its header (R98). DEDUCED (log entry 161): while a load runs every other
start is dropped without a log, one of the Gaffer with kind 0b11 too. -/
def mouldLoadStart (path kind : Nat) (start : Bool) : Prog := .read fun s =>
  if s.mouldOk then denied path R.MLD_LOAD_CTL true
  else if start && s.mld.load.isSome then .skip
  else if start && kind == 3 && decide (4 ≤ path) then denied path R.MLD_LOAD_CTL true
  else if !start then when s.mld.load.isNone (setF F.MLD_LOAD_CTL_kind kind)
  else block [setF F.MLD_LOAD_CTL_kind kind, setF F.MLD_LOAD_CTL_start 1, setF F.MLD_STATUS_state 1,
    updMld fun x => { x with load := some (kind, s.wide R.MLD_LOAD_SRC 2, path), loadLeft := [] },
    when (kind == 3) (send (.hostRead path (s.wide R.MLD_LOAD_SRC 2) 96))]

/-- The head records and the classifier entries of each head of a mould. -/
def headTable (m : SMap (List Byte)) : SMap (List Byte) := (mHeads m).foldl (fun t r => t.put (byteAt r 0) r) []
def headCls (m : SMap (List Byte)) (h : Nat) : List (Nat × List Byte) :=
  (mCls m).zipIdx.filterMap fun e => if mQpHead m (leAt e.1 12 2) = some h then some (e.2, e.1) else none
def clsTable (m : SMap (List Byte)) : SMap (List (Nat × List Byte)) :=
  (List.range 4).filterMap fun h => let l := headCls m h; if l.isEmpty then none else some (h, l)

/-- The two banks that hold the mould (R88). -/
def State.mouldBank (s : State) : Nat := byteAt (s.sec scRetention) 2

/-- A section as it stands in an image (R80). -/
def sectionBytes (e : Nat × List Byte) : List Byte :=
  leBytes 2 e.1 ++ leBytes 2 1 ++ leBytes 4 e.2.length ++ e.2 ++ List.replicate ((8 - e.2.length % 8) % 8) 0

/-- The applied sections are written over the mould banks (R111). -/
def writeBanks : Prog := .read fun s =>
  .act (.sramWrite (s.mouldBank * bankSize + 96) ((s.mld.active.map sectionBytes).flatten))

/-- A mould that passed every check is put in force (R94, R99, R102). The image goes into its banks, its digest into MLD
and AON. -/
def installMould (l : List Byte) (secs : List (Nat × List Byte)) (src : Nat) : Prog :=
  let m := holdSections secs
  let slot := sigSlot (SMap.getD secs scSignature [])
  block [
    updMld fun x => { x with active := m, full := m, fullKey := (imgFlags l, imgMinRev l), headRec := headTable m, cls := clsTable m, digest := Config.sha384 l, gen := imgGen l, partialInForce := 0, used := slot, src := src },
    setF F.MLD_STATUS_err 0, setReg R.MLD_ERR_DETAIL 0, .read fun s => .act (.sramWrite (s.mouldBank * bankSize) l),
    .read fun s => setWide R.AON_MOULD_DIGEST 12 (leNat s.mld.digest),
    setF F.GLB_MODE_mould_ok 1, when (imgFlags l / 2 % 2 == 1) (.act (.revokeKeys (clrBit (imgRevoke l % 16) slot))),
    deriveKeys, deriveAll, .read fun s => setF F.GLB_MODE_holder (s.f F.GLB_MODE_deputy),
    raise R.GLB_EVENT 3]

/-- What the blocks had from the mould is gone: governors, canes, bundles, ports, queue pairs (R87, R99, R520). -/
def underive : Prog :=
  block [resetRange R.MLD_GOV_TXEN 8 fun _ => false, each allPorts fun p => resetReg (R.MLD_GOV_AMP p),
    resetReg (F.MLD_GOV_WAKE_spacing_ms).off, resetReg (F.MLD_GOV_TIME_freq_ppb).off, resetReg (F.MLD_GOV_TIME_interval_ms).off,
    resetReg (F.MLD_GOV_STEP_step_us).off,
    each (List.range 64) fun k => block [resetRange (R.MLD_GOV_WIN_BASE (k / 16) (k % 16)) 8 fun _ => false,
      resetRange (R.MLD_GOV_WIN_LIMIT (k / 16) (k % 16)) 8 fun _ => false, resetReg (R.MLD_GOV_WIN_FLAGS (k / 16) (k % 16))],
    resetReg (F.MLD_ACTIVE_GEN_full_gen).off, resetReg (F.MLD_ACTIVE_GEN_partial_gen).off, resetRange R.MLD_ACTIVE_DIGEST 48 fun _ => false,
    setF F.MLD_KEYS_used 0, setF F.MLD_WARN_head_over 0, setF F.MLD_STATUS_state 0,
    setF F.GLB_MODE_steward 0, setF F.GLB_MODE_deputy 0, setF F.GLB_MODE_holder 0,
    each (List.range 4) fun h => block [setF (F.HEAD_STAT_steward h) 0, setF (F.HEAD_STAT_deputy h) 0, resetReg (R.CANE_CFG h)],
    resetRange (blockBase 84) 0x10000 fun _ => false, resetRange 0x1000000 0x400000 fun _ => false,
    resetRange 0x2000000 0x200000 fun _ => false]

/-- A start decided warm continues as a cold start (R100, R614): what a cold start clears is cleared (R138, R216, R492,
R495), and the ports wait for the full anneal. -/
def turnCold : Prog := .read fun s =>
  let (on, off) := (List.range 4).partition fun q => s.domOn (domFur q)
  block [setF F.GLB_MODE_start_kind 0, setF F.AON_MODE_start_kind 0, setF F.RST_CAUSE_start_kind 0,
    setF F.AON_START_STAT_warm_fails 0, setF F.AON_START_CTL_force_cold 0, setF F.AON_RET_SEAL_valid 0,
    updPower fun x => { x with tableCold := true, partnerRefs := [] }, updFur fun x => { x with records := [], taps := [], untested := off, testing := on },
    each allPorts toDisabled, .act (.cal {}), setF F.CAL_STAT_anneal 0, setF F.GLB_MODE_mould_ok 0, underive,
    updMld fun x => { x with active := [], full := [], headRec := [], cls := [], digest := [], gen := 0, partialInForce := 0, used := 0 }, deriveAll]

/-- MOULD_LOAD_DONE (R95, R100 to R103): the read and the checks end. `readOk` tells that the source could be read,
`host` is what host memory held for kind 0b11. -/
def mouldLoadDone (readOk : Bool) (host : List Byte) : Prog := .read fun s =>
  match s.mld.load with
  | none => .skip
  | some (kind, addr, _) =>
    let l := if kind < 2 then s.flashImage (slotBase kind) else if kind = 2 then s.bankImage addr
             else readImage fun o n => (host.drop o).take n
    let r := if !readOk then Except.error ⟨1, 0, 0⟩ else
      match checkImage false (s.f F.GLB_STRAPS_headcfg) [] s.otp.keys l with
      | .error b => Except.error b
      | .ok secs => match checkMould (s.f F.GLB_STRAPS_headcfg) (holdSections secs) with
        | some b => .error b
        | none => .ok secs
    match r with
    | .ok secs => block [installMould l secs kind, when s.mld.reload (block [raise R.MLD_EVENT 5, verifyBegin]), loadEnds]
    | .error b =>
      block [loadFails b kind,
        if s.mld.reload then block [loadEnds, turnCold, mouldColdLoad]
        else match s.mld.loadLeft with
          | [] => block [setF F.MLD_STATUS_state 4, loadEnds]
          | t => loadSlots t]

/-- MOULD_RELOAD (R100): the full image is read again from the slot whose digest AON holds. -/
def mouldReload : Prog := .read fun s =>
  match [0, 1].find? fun k => leNat (Config.sha384 (s.flashImage (slotBase k))) == s.wide R.AON_MOULD_DIGEST 12 with
  | some k => block [loadSlots [k], updMld fun x => { x with reload := true }]
  | none => block [turnCold, mouldColdLoad]

/-! Partial remoulds (R105 to R110). -/

/-- A partial remould or an adoption is refused (R103): C0 with the code. -/
def refusedMould (b : BadMould) : Prog :=
  block [emit 0x05 0x19 0 b.code (b.sect * 65536 + b.index), raise R.MLD_EVENT 1]

/-- A remould start that takes the state REFUSED (R105). -/
def remouldRefused (b : BadMould) : Prog :=
  block [setF F.MLD_REMOULD_STAT_state 4, setF F.MLD_REMOULD_STAT_err b.code,
    setF F.MLD_ERR_DETAIL_section b.sect, setF F.MLD_ERR_DETAIL_record b.index, refusedMould b]

def remouldIdle : Nat := 0
def remouldChecking : Nat := 1
def remouldStaged : Nat := 2

/-- REMOULD_START (R105): a write of MLD.REMOULD_CTL with start = 1. A BUSY refusal changes only err. -/
def remouldStart (kind cg hold : Nat) : Prog := .read fun s =>
  let st := s.f F.MLD_REMOULD_STAT_state
  if st = remouldChecking ∨ st = remouldStaged ∨ s.f F.MLD_ADOPT_STAT_state = 2 then
    block [setF F.MLD_REMOULD_STAT_err 0x1B, refusedMould ⟨0x1B, 0, 0⟩]
  else
    let addr := s.wide R.MLD_REMOULD_SRC 2
    let bank := addr / 2 ^ 60 % 16
    block [setF F.MLD_REMOULD_CTL_kind kind, setF F.MLD_REMOULD_CTL_cg cg, setF F.MLD_REMOULD_CTL_hold_ms hold,
      if s.mouldOk && kind == 1 && (bank == s.mouldBank || bank == s.mouldBank + 1) then remouldRefused ⟨1, 0, 0⟩
      else block [setF F.MLD_REMOULD_STAT_state remouldChecking, setF F.MLD_REMOULD_STAT_err 0,
        updMld fun x => { x with partialSrc := (kind, addr) }]]

/-- The refusals of R106, in the order of its table. -/
def liveFault (s : State) (l : List Byte) (m : SMap (List Byte)) : Option BadMould :=
  let old := s.mld.active
  let qs := (queueRecs (m.getD scQueues [])).map fun r => leAt r 0 2
  let mem := fun (x : SMap (List Byte)) => (mBundles x).map fun e => (e.1.take 8).map fun b => if b.toNat < 128 then 0 else b
  let olds := mem old
  let news := mem m
  firstBad [
    badIf (!s.mouldOk || imgBase l != s.mld.digest) 0x17 0 0,
    badIf (decide (imgGen l ≤ s.f F.MLD_ACTIVE_GEN_partial_gen)) 0x17 0 0,
    badIf (let hs := qs.filterMap fun q => s.qpHead q
      hs.any fun h => h != hs.headD 0) 0x12 6 0,
    if (m.get? scBundles).isNone then none else
      badIf (olds != news) 0x18 3 (((List.range 16).find? fun i => olds[i]? != news[i]?).getD 0),
    if (m.get? scPots).isNone then none else
      firstBad (allPorts.map fun p => badIf (mPot m p != mPot old p && s.pst p != stSleep && s.pst p != stDisabled) 0x1B 2 p),
    firstBad (qs.zipIdx.map fun e => badIf (s.bit (F.QP_RX_CTL_en e.1) || s.bit (F.QP_TX_CTL_en e.1)) 0x1B 6 e.2)]

/-- REMOULD_CHECK_DONE (R101, R105 to R107). -/
def remouldCheckDone (readOk : Bool) : Prog := .read fun s =>
  when (s.f F.MLD_REMOULD_STAT_state == remouldChecking)
    (let l := if s.mld.partialSrc.1 = 0 then s.flashImage (s.mld.partialSrc.2 % 2 ^ 32) else s.bankImage s.mld.partialSrc.2
     let r := if !readOk then Except.error ⟨1, 0, 0⟩ else
       match checkImage true (s.f F.GLB_STRAPS_headcfg) s.mld.active s.otp.keys l with
       | .error b => Except.error b
       | .ok secs =>
         match orBad (liveFault s l (holdSections secs))
             (checkMould (s.f F.GLB_STRAPS_headcfg) (mergeMould s.mld.active (holdSections secs))) with
         | some b => .error b
         | none => .ok secs
     match r with
     | .error b => remouldRefused b
     | .ok secs => block [setF F.MLD_REMOULD_STAT_state remouldStaged,
         updMld fun x => { x with partialImage := holdSections secs, partialGen := imgGen l }])

/-- The ports whose POTS record a staged remould changes. -/
def State.remouldPorts (s : State) : List Nat :=
  if (s.mld.partialImage.get? scPots).isNone then [] else
    allPorts.filter fun p => mPot s.mld.partialImage p != mPot s.mld.active p

/-- The state leaves STAGED, in which the wakes of these ports were latched: they are served at once (R107). -/
def leaveStaged (st : Nat) (ps : List Nat) : Prog :=
  block [setF F.MLD_REMOULD_STAT_state st, updMld fun x => { x with partialImage := [], partialGen := 0 },
    each ps fun p => .read fun t =>
      if t.pendingWake p then wakeServe p else when (t.port p).leaving (tryLeave p)]

/-- REMOULD_EXPIRE and REMOULD_CANCEL (R110). -/
def remouldExpire : Prog := .read fun s =>
  when (s.f F.MLD_REMOULD_STAT_state == remouldStaged) (block [leaveStaged 6 s.remouldPorts, raise R.MLD_EVENT 3])
def remouldCancel : Prog := .read fun s =>
  when (s.f F.MLD_REMOULD_STAT_state == remouldStaged) (block [leaveStaged 5 s.remouldPorts, raise R.MLD_EVENT 3])

/-- A queue pair that a staged remould names (R107). -/
def State.remouldNames (s : State) (q : Nat) : Bool :=
  s.f F.MLD_REMOULD_STAT_state == remouldStaged &&
  (queueRecs (s.mld.partialImage.getD scQueues [])).any fun r => leAt r 0 2 == q

/-! Adoption (R113, R114). -/

/-- ADOPT_START (R113). A start while an adoption is CHECKING or PENDING has no effect (log entry 22). -/
def adoptStart (slot : Nat) : Prog := .read fun s =>
  when (s.f F.MLD_ADOPT_STAT_state != 1 && s.f F.MLD_ADOPT_STAT_state != 2)
    (block [setF F.MLD_ADOPT_CTL_slot slot, setF F.MLD_ADOPT_STAT_state 1, setF F.MLD_ADOPT_STAT_err 0,
      updMld fun x => { x with adoptSlot := slot }])

/-- The heads whose record or classifier entries differ between two moulds (R113). -/
def headsDiffer (a b : SMap (List Byte)) : Nat :=
  maskOf ((List.range 4).map fun h =>
    (headTable a).get? h != (headTable b).get? h || (headCls a h).map (·.2) != (headCls b h).map (·.2))

/-- Whether anything but the per-head records differs (R113). -/
def restDiffers (a b : SMap (List Byte)) : Bool :=
  (a.filter fun e => e.1 != scHeads) != (b.filter fun e => e.1 != scHeads) ||
  (let ga := a.getD scHeads []
   let gb := b.getD scHeads []
   ga.take 3 != gb.take 3)

/-- ADOPT_CHECK_DONE (R113). -/
def adoptCheckDone (readOk : Bool) : Prog := .read fun s =>
  when (s.f F.MLD_ADOPT_STAT_state == 1)
    (let l := s.flashImage (slotBase s.mld.adoptSlot)
     let done := fun st => block [setF F.MLD_ADOPT_STAT_state st, raise R.MLD_EVENT 4]
     let r := if !readOk then Except.error ⟨1, 0, 0⟩ else
       match checkImage false (s.f F.GLB_STRAPS_headcfg) [] s.otp.keys l with
       | .error b => Except.error b
       | .ok secs => match checkMould (s.f F.GLB_STRAPS_headcfg) (holdSections secs) with
         | some b => .error b
         | none => .ok secs
     match r with
     | .error b => block [setF F.MLD_ADOPT_STAT_err b.code, setF F.MLD_ERR_DETAIL_section b.sect,
         setF F.MLD_ERR_DETAIL_record b.index, refusedMould b, done 4]
     | .ok secs =>
       let m := holdSections secs
       if restDiffers s.mld.full m || (imgFlags l, imgMinRev l) != s.mld.fullKey then done 5
       else if headsDiffer s.mld.full m = 0 then done 6
       else block [setF F.MLD_ADOPT_STAT_state 2, setF F.MLD_ADOPT_STAT_heads_left (headsDiffer s.mld.full m),
         updMld fun x => { x with adoptImage := m, adoptGen := imgGen l, adoptDigest := Config.sha384 l, adoptUsed := sigSlot (SMap.getD secs scSignature []), adoptKey := (imgFlags l, imgMinRev l) }])

/-- The last head of a pending adoption has reset: the image becomes the active mould (R114). DEDUCED (log entry 157): an adoption is no
full load, so it revokes no key slot (R94). -/
def adoptFinish : Prog := .read fun s =>
  when (s.f F.MLD_ADOPT_STAT_state == 2 && s.f F.MLD_ADOPT_STAT_heads_left == 0)
    (block [
      updMld fun x => { x with active := x.active.put scHeads (x.adoptImage.getD scHeads []), full := x.adoptImage, fullKey := x.adoptKey, digest := x.adoptDigest, gen := x.adoptGen, used := x.adoptUsed, src := x.adoptSlot, adoptImage := [] },
      .read fun t => updMld fun x => { x with headRec := headTable t.mld.active, cls := clsTable t.mld.active },
      .read fun t => setWide R.AON_MOULD_DIGEST 12 (leNat t.mld.digest),
      writeBanks, deriveMld, deriveCls, each (List.range 2048) fun e => setReg (R.PKT_CLS_HIT e) 0,
      setF F.MLD_ADOPT_STAT_state 3, raise R.MLD_EVENT 4])

/-- The new record of a head, with its classifier entries, is put in force at its reset (R114). -/
def adoptHead (h : Nat) : Prog := .read fun s =>
  when (s.f F.MLD_ADOPT_STAT_state == 2 && bitOf s.headsLeft h)
    (block [
      updMld fun x => { x with headRec := match (headTable x.adoptImage).get? h with | some r => x.headRec.put h r | none => x.headRec.del h, cls := x.cls.put h (headCls x.adoptImage h) },
      setF F.MLD_ADOPT_STAT_heads_left (clrBit s.headsLeft h), each allPorts derivePortDef])

/-! Keys (R92). -/

/-- KEY_PROG_START: a Gaffer write of MLD.KEY_PROG_CTL in FACTORY. -/
def keyProgStart (slot : Nat) (start : Bool) : Prog := .read fun s =>
  when (!s.bit F.MLD_KEY_PROG_CTL_start)
    (block [setF F.MLD_KEY_PROG_CTL_slot slot,
      when start (if ((s.otp.keys[slot]?).getD {}).programmed then setF F.MLD_KEY_PROG_CTL_result 2
        else block [setF F.MLD_KEY_PROG_CTL_start 1, setF F.MLD_KEY_PROG_CTL_result 0])])

/-- KEY_PROG_DONE: the fuse ends; a failed verify leaves the slot unprogrammed (log entry 23). -/
def keyProgDone (verified : Bool) : Prog := .read fun s =>
  when (s.bit F.MLD_KEY_PROG_CTL_start)
    (block [setF F.MLD_KEY_PROG_CTL_start 0,
      if verified then block [
        .act (.fuseKey (s.f F.MLD_KEY_PROG_CTL_slot) (leBytes 48 (s.wide R.MLD_KEY_PROG_DATA 12))),
        deriveKeys, setF F.MLD_KEY_PROG_CTL_result 1]
      else setF F.MLD_KEY_PROG_CTL_result 3])

end Sys2Proof.Machine
end

