-- ==== Sys2Proof/Machine/Commit.lean ====
section
/-!
DEFINITION. Commits and launch groups (R54 to R59, R136, R212, R213, R353 to R366), and the partial remould applied at a
commit edge (R108 to R111, R210, R234).
-/
namespace Sys2Proof.Machine

/-! Blocks, numbered as in LG[g].TARGET (R359). -/

def blkHead (h : Nat) : Nat := 64 + h
def blkLch : Nat := 74
def blkFur : Nat := 76
def blkBnd : Nat := 84

/-- The blocks that hold WS fields (has_ws = 1): PORT[p], HEAD[h], LCH, FUR, BND. -/
def wsBlocks : List Nat := List.range 68 ++ [blkLch, blkFur, blkBnd]

/-- CG_SEL and BLK_COMMIT of the block at a base (R45). -/
def cgSelOff (base : Nat) : Nat := base + 0x7F04
def blkCommitOff (base : Nat) : Nat := base + 0x7F08
/-- The commit groups of a block. A port that is switched off by request is a member by its saved set (R360, R521). -/
def State.cgSel (s : State) (b : Nat) : Nat :=
  match if b < 64 then (s.port b).saved else none with
  | some m => (m.getD 0x7F04 0).toNat
  | none => (s.reg (cgSelOff (blockBase b))).toNat

/-- A head is ATTACHED, and holds stewardship (R391, R397). -/
def State.attached (s : State) (h : Nat) : Bool := s.f (F.HEAD_STAT_state h) == 2
def State.holder (s : State) : Nat := s.f F.GLB_MODE_holder

/-- Whether a commit from a path reaches a block (R59): path 0 to 3 a head, 4 the Gaffer. -/
def State.reaches (s : State) (path b : Nat) : Bool :=
  if path ≥ 4 then true
  else if b < 64 then s.portHead b == some path
  else if b < 68 then b == blkHead path
  else s.holder == path

/-- The mask in effect (R59): bits [31:24] count only from the Gaffer. -/
def effMask (path mask : Nat) : Nat := if path ≥ 4 then mask else mask % 2 ^ 24

/-- The blocks that a mask from a path targets. -/
def State.targets (s : State) (path mask : Nat) : List Nat :=
  wsBlocks.filter fun b => s.reaches path b && Nat.land (s.cgSel b) mask != 0

/-- A block map as a 128-bit number. -/
def blockMap (bs : List Nat) : Nat := bs.foldl (fun n b => setBit n b) 0

/-! What keeps a block from applying on the edge (R360). -/

/-- A return or reclaim of a port's pots is running (R213, R218, R219). -/
def State.potBusy (s : State) (p : Nat) : Bool :=
  !(s.port p).reclaimLeft.isEmpty ||
  (!(s.port p).returned && !(s.port p).leaving && !(s.usable p).isEmpty &&
    ((s.pst p == stSleep && s.bit (F.FUR_RETURN_on_sleep p)) ||
     (s.pst p == stLpi && s.bit (F.PORT_LPI_STAT_deep p) && s.bit (F.FUR_RETURN_on_deep_lpi p))))

/-- A block as a whole cannot apply on the edge. -/
def State.cannotApply (s : State) (b : Nat) : Bool :=
  if b < 64 then !s.domOn (portDomain b) || (s.port b).resetting
  else if b < 68 then !s.domOn domCxc || (s.head (b - 64)).resetting
  else false

/-! Applying a block. -/

/-- The bits of a word that are WS fields. -/
def wsMask (fs : List FieldRow) : Nat :=
  fs.foldl (fun n f => if f.acc = .ws then n + (2 ^ (f.hi + 1) - 2 ^ f.lo) else n) 0

/-- The WS bits of a word at an offset. -/
def wsBits (off : Nat) : Nat :=
  match findReg off with
  | some l => wsMask l.fields
  | none => 0

/-- A word with its WS bits taken from another. -/
def mergeWs (off : Nat) (active staged : Word) : Word :=
  let m := BitVec.ofNat 32 (wsBits off)
  (active &&& ~~~m) ||| (staged &&& m)

/-- The staged words of a block. -/
def State.stagedOf (s : State) (b : Nat) : SMap Word := s.staged.within (blockBase b) (blockBase b + 0x10000)

/-- Whether the change of one half of a FUR.SLOT word, from bit lo up, waits for a port whose pots are returned or reclaimed:
the slot's owner before or after the change (R213). -/
def State.slotHeld (s : State) (off : Nat) (w : Word) (lo : Nat) : Bool :=
  let owner := fun (v : Word) => ownerOf (bits v (lo + 15) (lo + 14)) (bits v (lo + 9) lo)
  bits (s.reg off) (lo + 15) lo != bits w (lo + 15) lo
    && ((owner (s.reg off)).toList ++ (owner w).toList).any fun o => decide (o < 64) && s.potBusy o

/-- The half words of a FUR.SLOT word that can take their staged value now. -/
def State.slotNow (s : State) (off : Nat) (w : Word) : Word :=
  let a := if s.slotHeld off w 0 then s.reg off else putBits (s.reg off) 15 0 (bits w 15 0)
  if s.slotHeld off w 16 then a else putBits a 31 16 (bits w 31 16)

/-- The words that a block takes from its shadow now: offset, new word, whether the shadow is then empty. In FUR the slots
of a port whose pots move wait. -/
def State.takes (s : State) (b : Nat) : List (Nat × Word × Bool) :=
  (s.stagedOf b).map fun e =>
    let w := mergeWs e.1 (s.reg e.1) e.2
    if b = blkFur ∧ 0x84000 ≤ e.1 ∧ e.1 < 0x84800 then
      let n := s.slotNow e.1 w
      (e.1, n, n == w)
    else (e.1, w, true)

/-! The slot map (R212). -/

/-- The slots of an owner in a map. -/
def slotSet (map : List (Nat × Nat)) (o : Nat) : List Nat := (map.filter fun e => e.2 == o).map (·.1)

/-- The usable counts of an owner on a map (R202). -/
def usableCounts (s : State) (map : List (Nat × Nat)) (o : Nat) : List (Nat × Nat) :=
  if o < 64 then usableOn s map o
  else let q := s.f (F.BND_CFG_quarter ((o - 4096) / 64)); [(q, countIn s map o q)]

/-- One owner at an edge that changed the slot map (R212). -/
def ownerChanged (old : List (Nat × Nat)) (o : Nat) : Prog := .read fun s =>
  let new := s.slots
  when (realOwner o && slotSet old o != slotSet new o)
    (block [when (decide (o < 64) && s.pst o != stSleep && s.pst o != stDisabled) (raise R.FUR_EVENT 5),
      if usableCounts s old o ≠ usableCounts s new o then ownerLost o
      else if o < 64 then
        (if s.linkUp o then portDropNow o 8
         else when (s.pst o == stNegotiate || s.pst o == stTrain) (portRestart o))
      else
        let b := (o - 4096) / 64
        let i := (o - 4096) % 64
        block [updBnd b fun y => { y with pairs := y.pairs.putD i { y.pairs.getD i {} with started := false, met := false, depths := [], adapted := (s.record (s.f (F.BND_CFG_quarter b)) o).getD 0 } {} },
          refreshBundle b]])

/-- Every owner of the old and of the new map (R212). -/
def slotMapChanged (old : List (Nat × Nat)) : Prog := .read fun s =>
  each (((old ++ s.slots).map (·.2)).eraseDups) (ownerChanged old)

/-! Mode fields (R136, R244). -/

/-- The mode fields of a port. -/
def State.modeFields (s : State) (p : Nat) : List Nat :=
  [s.f (F.PORT_ADV_modes p), s.f (F.PORT_MODE_CFG_forced_mode p), s.f (F.PORT_MODE_CFG_an_en p), s.f (F.PORT_MODE_CFG_role p)] ++
  (if p < 56 then [] else [s.f (F.PORT_SEG_CFG_node_count p), s.f (F.PORT_SEG_CFG_node_id p), s.f (F.PORT_SEG_CFG_coordinator p),
    s.f (F.PORT_SEG_CFG_plca_en p), bits (s.reg (R.PORT_SEG_TIMING p)) 15 0, s.f (F.PORT_SEG_TIMING_burst_timer p)])

/-- What a change of a block's active fields brings, given the state before it. -/
def blockEffects (b : Nat) (before : State) : Prog := .read fun s =>
  if b < 64 then
    block [when (before.modeFields b != s.modeFields b) (modeCommitted b),
      when (!s.bit (F.PORT_LPI_CFG_lpi_allow b) && s.bit (F.PORT_LPI_STAT_tx_lpi b)) (lpiExitBegin b)]
  else if b = blkLch then each allPorts gclRefresh
  else if b = blkFur then slotMapChanged before.slots
  else if b = blkBnd then refreshBundles
  else .skip

/-- The words of a block are written, the words they replace go to the undo shadow (R56, R364), and what follows from
the change follows. `kept` are values that the same commit edge has already put there. -/
def writeBlock (b : Nat) (kept : SMap Word) (ws : List (Nat × Word × Bool)) : Prog := .read fun s =>
  block [.act (.undoSave (blockBase b / 0x10000) ((ws.map fun e => (e.1, s.reg e.1)) ++ kept)),
    each ws fun e => block [setReg e.1 e.2.1, when e.2.2 (.act (.unstage e.1))],
    blockEffects b s]

/-- BLK_COMMIT of a block (R45). -/
def blkCommit (b seq : Nat) (late pending : Bool) : Prog :=
  setReg (blkCommitOff (blockBase b)) (BitVec.ofNat 32 (seq % 256 * 65536 + b2n late * 512 + b2n pending * 256))

/-- COMMIT_STAT.pending and late: some block has not yet applied the last commit. -/
def commitStat : Prog := .read fun s =>
  let waits := b2n (s.commit.opens.get? (s.f F.GLB_COMMIT_STAT_commit_seq)).isSome
  block [setF F.GLB_COMMIT_STAT_pending waits, setF F.GLB_COMMIT_STAT_late waits]

/-- The end of a commit edge: commit_done at once, or the commit stays open for the blocks that wait (R58, GLB.EVENT). -/
def commitClose (seq : Nat) : Prog := .read fun s =>
  let waits := ((s.commit.pend ++ s.commit.rolls).filter fun e => e.2 == seq).map (·.1)
  block [if waits.isEmpty then block [updCommit fun x => { x with opens := x.opens.del seq }, raise R.GLB_EVENT 0]
    else updCommit fun x => { x with opens := x.opens.put seq waits }, commitStat]

/-- A block no longer waits: each commit that waited for it alone is done. -/
def blockClosed (b : Nat) : Prog := .read fun s =>
  block [each (s.commit.opens.filter fun e => e.2.contains b) (fun e =>
      let left := e.2.filter fun c => c != b
      if left.isEmpty then block [updCommit fun x => { x with opens := x.opens.del e.1 }, raise R.GLB_EVENT 0]
      else updCommit fun x => { x with opens := x.opens.put e.1 left }), commitStat]

/-- A target applies at the commit edge, or waits for its boundary (R58, R360). In FUR a part may wait. -/
def applyTarget (seq : Nat) (b : Nat) : Prog := .read fun s =>
  let hold := block [updCommit fun x => { x with pend := x.pend.put b seq },
    setF ⟨blkCommitOff (blockBase b), 8, 8⟩ 1]
  if s.cannotApply b then hold
  else
    let ws := s.takes b
    block [writeBlock b [] ws,
      if ws.any fun e => !e.2.2 then hold
      else block [blkCommit b seq false false, updCommit fun x => { x with pend := x.pend.del b }]]

/-! Launch groups that wait for a block. -/

def lgIdle : Nat := 0
def lgArmed : Nat := 1
def lgApplying : Nat := 2
def lgDone : Nat := 3
def lgDoneLate : Nat := 4

/-- A block has applied late: every group that waits for it counts it (R355, R363, R365). -/
def groupsCount (b : Nat) : Prog :=
  each (List.range 16) fun g => .read fun s =>
    let late := s.wide (R.LCH_LG_LATE g) 4
    let done := s.wide (R.LCH_LG_APPLIED g) 4
    when (bitOf late b && !bitOf done b)
      (block [setWide (R.LCH_LG_APPLIED g) 4 (setBit done b),
        when (s.f (F.LCH_LG_STAT_state g) == lgApplying && setBit done b == s.wide (R.LCH_LG_TARGET g) 4)
          (block [setF (F.LCH_LG_STAT_state g) lgDoneLate, raise R.LCH_EVENT 1])])

/-- The undo shadow of a block becomes its active values and its shadow, and is then empty (R365). -/
def undoBlock (b : Nat) : Prog := .read fun s =>
  let n := blockBase b / 0x10000
  let ws := (s.undo.within (blockBase b) (blockBase b + 0x10000)).map fun e => (e.1, mergeWs e.1 (s.reg e.1) e.2)
  when (decide (n ∈ s.undoBlocks))
    (block [each (s.stagedOf b) (fun e => .act (.unstage e.1)),
      each ws fun e => setReg e.1 e.2, .act (.undoDrop n), blockEffects b s])

/-- A rollback reaches a block (R365). A block still pending drops what it had to apply. A block whose domain is off
records the rollback. -/
def rollBlock (seq : Nat) (b : Nat) : Prog := .read fun s =>
  if (s.commit.pend.get? b).isSome then
    block [each (s.stagedOf b) (fun e => .act (.unstage e.1)), updCommit fun x => { x with pend := x.pend.del b },
      setF ⟨blkCommitOff (blockBase b), 8, 8⟩ (b2n (s.commit.rolls.get? b).isSome),
      when (s.commit.rolls.get? b).isNone (block [groupsCount b, blockClosed b])]
  else if b < 64 ∧ !s.domOn (portDomain b) ∨ 64 ≤ b ∧ b < 68 ∧ !s.domOn domCxc then
    block [updCommit fun x => { x with rolls := x.rolls.put b seq }, setF ⟨blkCommitOff (blockBase b), 8, 8⟩ 1]
  else block [undoBlock b, blkCommit b seq false false]

/-- The staged words of a pending block come into force at its boundary (R361). -/
def pendingApply (b : Nat) : Prog := .read fun s =>
  let ws := s.takes b
  block [each ws fun e => block [setReg e.1 e.2.1, when e.2.2 (.act (.unstage e.1))],
    .act (.undoSave (blockBase b / 0x10000)
      ((if b = blkFur then s.undo.within (blockBase b) (blockBase b + 0x10000) else []) ++ ws.filterMap fun e =>
        if b = blkFur ∧ (s.undo.get? e.1).isSome then none else some (e.1, s.reg e.1))),
    blockEffects b s,
    when (ws.all fun e => e.2.2) (updCommit fun x => { x with pend := x.pend.del b })]

/-- COMMIT_LATE_APPLY (R58, R360, R361, R365): a block reaches its boundary. A rollback recorded for it acts first, then
the commit that came after it; the block then takes the last sequence number and every commit that waited counts it. -/
def lateApply (b : Nat) : Prog := .read fun s =>
  let seq := match s.commit.pend.get? b with
    | some n => some n
    | none => s.commit.rolls.get? b
  when (!s.cannotApply b)
    (block [
      ifSome (s.commit.rolls.get? b) fun _ => block [undoBlock b, updCommit fun x => { x with rolls := x.rolls.del b }],
      ifSome (s.commit.pend.get? b) fun _ => pendingApply b,
      ifSome seq fun n => .read fun t => when (t.commit.pend.get? b).isNone
        (block [blkCommit b n true false, raise R.GLB_EVENT 1, groupsCount b, blockClosed b])])

/-! The partial remould at its commit edge (R108, R111, R210, R234). -/

/-- The owners whose records two moulds give differently (R210): a port's POTS record, a pair's aggressor, victim and kind. -/
def wantsChanged (old new : List Want) : List Nat :=
  ((old ++ new).map (·.owner)).eraseDups.filter fun o =>
    let of := fun (l : List Want) => (l.find? fun w => w.owner == o).map fun w => (w.parts, w.pair)
    of old != of new

/-- The slot map after a remould: the changed owners are released and placed anew in the lowest free slots (R210). -/
def remouldMap (s : State) (old new : SMap (List Byte)) : List (Nat × Nat) × Bool :=
  let o := portWants old ++ cancelWants old
  let n := portWants new ++ cancelWants new
  let ch := wantsChanged o n
  placeAll s (n.filter fun w => ch.contains w.owner) (s.slots.filter fun e => !ch.contains e.2)

/-- The pairs of a bundle whose aggressor, victim or kind differ between two moulds. -/
def pairsChanged (old new : SMap (List Byte)) (b : Nat) : List Nat :=
  let o := (((mBundles old)[b]?).map (·.2)).getD []
  let n := (((mBundles new)[b]?).map (·.2)).getD []
  (List.range 56).filter fun i => (o[i]?).map (·.take 3) != (n[i]?).map (·.take 3)

/-- A bundle whose pair set or kinds change (R234): DISAGREE on this edge, every canceller DISABLED. -/
def bundleRemould (old new : SMap (List Byte)) (b : Nat) : Prog := .read fun s =>
  let ch := pairsChanged old new b
  let st := s.f (F.BND_STAT_state b)
  when (!ch.isEmpty)
    (block [when (st == bnActive || st == bnConverging || st == bnFrozen) (recordBundle b (s.f (F.BND_STAT_mode b))),
      each ch fun i => block [clearRecord (cancelOwner b i), setReg (R.BND_PAIR_CFG b i) (putBits (s.reg (R.BND_PAIR_CFG b i)) 17 0 0),
        updBnd b fun y => { y with pairs := y.pairs.del i }],
      updBnd b fun y => { y with hold := true, pairs := y.pairs.map fun e => (e.1, { e.2 with started := false, met := false, depths := [] }) },
      each (List.range 56) fun i => when (s.f (F.BND_PAIR_STAT_state b i) != pcNone)
        (block [setF (F.BND_PAIR_STAT_state b i) pcDisabled, setF (F.BND_PAIR_STAT_depth b i) 0]),
      setF (F.BND_STAT_state b) bnDisagree, setF (F.BND_STAT_mode b) 0, raise (R.BND_EVENT b) 1, raise (R.BND_EVENT b) 5])

/-- What a block's undo shadow holds. -/
def State.undoOf (s : State) (b : Nat) : SMap Word := s.undo.within (blockBase b) (blockBase b + 0x10000)

/-- The shadow of a FUR.SLOT word that a remould sets: the halves it changes take its value, the others keep theirs (R108). -/
def State.slotShadow (s : State) (off : Nat) (v : Word) : Word :=
  let half := fun (w : Word) (lo : Nat) =>
    if bits (s.reg off) (lo + 15) lo = bits v (lo + 15) lo then w else putBits w (lo + 15) lo (bits v (lo + 15) lo)
  half (half (s.stagedWord off) 0) 16

/-- A remould's slot map comes into force (R108, R210): in the slots it changes, and once their pots have come to rest. -/
def remouldSlots (kept : SMap Word) (words : List (Nat × Word)) : Prog := .read fun s =>
  block [each words fun e => .act (.stage e.1 (s.slotShadow e.1 e.2)),
    .read fun t => writeBlock blkFur kept (words.map fun e => (e.1, t.slotNow e.1 e.2, t.slotNow e.1 e.2 == t.stagedWord e.1)),
    .read fun t => let seq := t.f F.GLB_COMMIT_STAT_commit_seq
      if words.any fun e => t.reg e.1 != e.2 then
        block [updCommit fun x => { x with pend := x.pend.put blkFur seq }, setF ⟨blkCommitOff (blockBase blkFur), 8, 8⟩ 1]
      else when ((t.commit.pend.get? blkFur).isNone) (blkCommit blkFur seq false false)]

/-- REMOULD_APPLY: the staged remould applies to every block it names, on the commit edge. `done` are the blocks that have applied
staged fields on this edge. -/
def remouldApply (done : List Nat) : Prog := .read fun s =>
  let kept := fun b => if done.contains b then s.undoOf b else []
  let ports := s.remouldPorts
  let old := s.mld.active
  let part := s.mld.partialImage
  let new := mergeMould old part
  let fur := (part.get? scPots).isSome || (part.get? scBundles).isSome
  let r := remouldMap s old new
  let words := if fur then (List.range 512).filterMap fun w =>
      let v := BitVec.ofNat 32 (slotWord r.1 w)
      if s.reg (R.FUR_SLOT w) = v then none else some (R.FUR_SLOT w, v) else []
  block [
    updMld fun x => { x with active := new, partialInForce := x.partialGen, wakeDue := x.wakeDue || (part.get? scWake).isSome },
    each (List.range 16) (bundleRemould old new),
    each (List.range 16) deriveBnd,
    when fur (.seq (remouldSlots (kept blkFur) words) (when r.2 (raise R.FUR_EVENT 3))),
    when ((part.get? scBundles).isSome) (.read fun t => .seq (.act (.undoSave (blockBase blkBnd / 0x10000)
      ((((List.range 16).map fun b => (List.range 56).map fun i => (R.BND_PAIR_CFG b i, s.reg (R.BND_PAIR_CFG b i))).flatten.filter
        fun e => t.reg e.1 != e.2) ++ kept blkBnd))) (blkCommit blkBnd (t.f F.GLB_COMMIT_STAT_commit_seq) false false)),
    each (queueRecs (part.getD scQueues [])) fun q => deriveQp (leAt q 0 2),
    writeBanks, setF F.MLD_ACTIVE_GEN_partial_gen s.mld.partialGen,
    leaveStaged 3 ports, raise R.MLD_EVENT 2, raise R.GLB_EVENT 3]

/-- The WAKE block applies what a remould left it, on an SLCK edge (R109). -/
def wakeLand : Prog := .read fun s =>
  when s.mld.wakeDue (block [deriveWake, updMld fun x => { x with wakeDue := false }])

/-- Whether a commit from a path with a mask triggers the staged remould, and the sweep that waits for its group (R108,
R308). -/
def State.authority (s : State) (path : Nat) : Bool := decide (path ≥ 4) || s.holder == path

/-- The commit edge for masks from paths (path, mask), under one sequence number. Blocks that a STAGED remould names apply
its values with the commit. -/
def commitEdge (ms : List (Nat × Nat)) (seq : Nat) (bs : List Nat) : Prog := .read fun s =>
  let groups := (ms.filter fun m => s.authority m.1).foldl (fun n m => Nat.lor n m.2) 0
  let due := s.f F.MLD_REMOULD_STAT_state == remouldStaged && bitOf groups (s.f F.MLD_REMOULD_CTL_cg)
  block [each bs (applyTarget seq), when due (remouldApply bs), sweepFire groups]

/-- COMMIT (R56, R59): a write of GLB.COMMIT from a path. -/
def commit (path mask : Nat) : Prog := .read fun s =>
  let m := effMask path mask
  let seq := (s.f F.GLB_COMMIT_STAT_commit_seq + 1) % 256
  block [setF F.GLB_COMMIT_STAT_commit_seq seq, setF F.GLB_COMMIT_STAT_last_path path,
    commitEdge [(path, m)] seq (s.targets path m), commitClose seq]

/-! Launch groups (R353 to R366). -/

/-- TB64 of a TIME register (R336). -/
def State.lgTime (s : State) (g : Nat) : Nat := s.wide (R.LCH_LG_TIME g) 4

/-- A time in TB.NOW layout as 2^-16 ns: frac [15:0], ns [63:32], seconds from bit 64 (chapter 11). -/
def layoutTotal (v : Nat) : Nat := (v / 2 ^ 64 % 2 ^ 48 * 1000000000 + v / 2 ^ 32 % 2 ^ 32) * 65536 + v % 65536

/-- How far the timebase stands past the group's TIME, 2^-16 ns; none = TIME not reached. -/
def State.lgPast (s : State) (g : Nat) : Option Nat :=
  if layoutTotal (s.lgTime g) ≤ s.tb.total then some (s.tb.total - layoutTotal (s.lgTime g)) else none

/-- Groups that fire on one edge (R357 to R362): `missed` as decided by the cause. Rollback groups and commit groups do
not fire on one edge together. -/
def fireGroups (gs : List (Nat × Bool)) (stamp : Nat) : Prog := .read fun s =>
  let roll := gs.any fun g => s.bit (F.LCH_LG_CTL_kind g.1)
  let seq := (s.f F.GLB_COMMIT_STAT_commit_seq + 1) % 256
  let maskOfG := fun g => effMask (s.f (F.LCH_LG_CTL_armer g)) (s.reg (R.LCH_LG_MASK g)).toNat
  let tgt := fun g =>
    let l := s.targets (s.f (F.LCH_LG_CTL_armer g)) (maskOfG g)
    if roll then l.filter fun b => decide (blockBase b / 0x10000 ∈ s.undoBlocks) else l
  let all := (gs.map fun g => tgt g.1).flatten.eraseDups
  block [
    setF F.GLB_COMMIT_STAT_commit_seq seq, setF F.GLB_COMMIT_STAT_last_path 5,
    each gs fun g => block [setF (F.LCH_LG_STAT_state g.1) lgApplying, setF (F.LCH_LG_STAT_commit_seq g.1) seq,
      setWide (R.LCH_LG_FIRED_AT g.1) 2 stamp, setWide (R.LCH_LG_TARGET g.1) 4 (blockMap (tgt g.1)),
      setWide (R.LCH_LG_APPLIED g.1) 4 0, setWide (R.LCH_LG_LATE g.1) 4 0],
    if roll then each all (rollBlock seq)
    else commitEdge (gs.map fun g => (s.f (F.LCH_LG_CTL_armer g.1), maskOfG g.1)) seq all,
    .read fun t =>
      let waits := fun b => (if roll then t.commit.rolls else t.commit.pend).get? b == some seq
      each gs fun g =>
        let late := (tgt g.1).filter waits
        let n := min late.length 255
        block [setWide (R.LCH_LG_LATE g.1) 4 (blockMap late),
          setWide (R.LCH_LG_APPLIED g.1) 4 (blockMap ((tgt g.1).filter fun b => !waits b)),
          setF (F.LCH_LG_STAT_late_count g.1) n, setF (F.LCH_LG_STAT_missed g.1) (b2n g.2),
          setF (F.LCH_LG_STAT_state g.1) (if late.isEmpty then lgDone else lgApplying),
          raise R.LCH_EVENT 0, when late.isEmpty (raise R.LCH_EVENT 1), when (!late.isEmpty) (raise R.LCH_EVENT 2),
          when g.2 (raise R.LCH_EVENT 3), when roll (raise R.LCH_EVENT 4),
          when (g.2 || !late.isEmpty)
            (emit 0x16 0x15 1 ((if g.2 then 512 else 1024) + n) ((late.headD 0) * 256 + g.1)),
          when (s.bit (F.LCH_LG_CTL_out_ g.1)) (send (.pin "LAUNCH_OUT" 1))],
    commitClose seq]

/-- Groups due on one edge: the rollbacks apply on that edge, the commits on the next (R358). -/
def fireDue (gs : List (Nat × Bool)) : Prog := .read fun s =>
  let rolls := gs.filter fun g => s.bit (F.LCH_LG_CTL_kind g.1)
  let cms := gs.filter fun g => !s.bit (F.LCH_LG_CTL_kind g.1)
  block [when (!rolls.isEmpty) (fireGroups rolls s.tb64), when (!cms.isEmpty) (fireGroups cms s.tb64)]

/-- A group is ARMED with a source. -/
def State.lgWaits (s : State) (g src : Nat) : Bool := s.f (F.LCH_LG_STAT_state g) == lgArmed && s.f (F.LCH_LG_CTL_src g) == src

/-- LG_FIRE (R357): every group of the mask whose TIME the timebase has reached fires on this edge; an edge more than 1 µs
after TIME is missed. -/
def lgFire (groups : Nat) : Prog := .read fun s =>
  fireDue ((bitList 16 groups).filterMap fun g =>
    if s.lgWaits g 0 then (s.lgPast g).map fun d => (g, decide (65536000 < d)) else none)

/-- LAUNCH_IN (R353): the edge fires every group armed with that source. -/
def launchIn : Prog := .read fun s =>
  when (match s.tb.lastLaunch with
      | some t => decide (t + 1000 ≤ s.now)
      | none => true)
    (block [updTb fun x => { x with lastLaunch := some s.now }, raise R.TB_EVENT 8,
      fireDue ((List.range 16).filterMap fun g => if s.lgWaits g 1 then some (g, false) else none)])

/-- The fields of LG[g].CTL that a write stores (src 0b11 is stored as 0b10). -/
def lgFields (g src kind out : Nat) : Prog :=
  block [setF (F.LCH_LG_CTL_src g) (if src = 3 then 2 else src), setF (F.LCH_LG_CTL_kind g) kind, setF (F.LCH_LG_CTL_out_ g) out]

/-- A group is ARMED or APPLYING: its settings are locked (R355). -/
def State.lgLocked (s : State) (g : Nat) : Bool :=
  s.f (F.LCH_LG_STAT_state g) == lgArmed || s.f (F.LCH_LG_STAT_state g) == lgApplying

/-- LG_ARM (R355 to R357): a write of LG[g].CTL with arm = 1 from a path. While ARMED or APPLYING it is dropped and
logged. A group that is due at once fires at once. -/
def lgArm (path g src kind out : Nat) : Prog := .read fun s =>
  if s.lgLocked g then denied path (R.LCH_LG_CTL g) true
  else block [lgFields g src kind out, setF (F.LCH_LG_CTL_armer g) path,
    when (decide (path < 4)) (setF (F.LCH_LG_MASK_groups g) ((s.reg (R.LCH_LG_MASK g)).toNat % 2 ^ 24)),
    setF (F.LCH_LG_STAT_state g) lgArmed,
    .read fun t =>
      if t.f (F.LCH_LG_CTL_src g) = 2 then fireDue [(g, false)]
      else if t.f (F.LCH_LG_CTL_src g) = 0 ∧ (t.lgPast g).isSome then fireDue [(g, decide (0 < (t.lgPast g).getD 0))]
      else .skip]

/-- LG_DISARM (R355): a write of disarm. -/
def lgDisarm (g : Nat) : Prog := .read fun s =>
  let st := s.f (F.LCH_LG_STAT_state g)
  if st = lgArmed then setF (F.LCH_LG_STAT_state g) lgIdle
  else when (st == lgApplying) (block [setF (F.LCH_LG_STAT_state g) lgDoneLate, raise R.LCH_EVENT 1])

/-- The groups that a head armed are disarmed by its loss of stewardship or its reset (R355). -/
def disarmHead (h : Nat) : Prog :=
  each (List.range 16) fun g => .read fun s =>
    when (s.f (F.LCH_LG_STAT_state g) == lgArmed && s.f (F.LCH_LG_CTL_armer g) == h)
      (block [setF (F.LCH_LG_STAT_state g) lgIdle, raise R.LCH_EVENT 5])

/-- Every launch group returns to IDLE (R355: a block reset of source 0x16, SAFE entry). -/
def lgAllIdle : Prog := each (List.range 16) fun g => setF (F.LCH_LG_STAT_state g) lgIdle

/-- Pot boundaries for a slot map that waits (R213): a return or a reclaim of a port has ended. -/
def furBoundary : Prog := .read fun s => when (s.commit.pend.get? blkFur).isSome (lateApply blkFur)

end Sys2Proof.Machine
end

