-- ==== Sys2Proof/Machine/Rings.lean ====
section
/-!
DEFINITION. Queue pairs and the packet engine (chapter 13): rings, descriptors, budget, windows, translations,
write-backs, interrupts, stopping. A ring is named by its queue pair q and d = 0 (receive) or 1 (transmit); its registers
lie at the receive offsets plus 0x100 × d.
-/
namespace Sys2Proof.Machine

/-! Naming. -/

/-- The offset of a transmit ring's register, from that of its receive ring's. -/
def ringOff (off d : Nat) : Nat := if d = 0 then off else off + 0x100

/-- A field of ring (q, d) from the field of the receive ring. -/
def rf (F : Nat → Field) (q d : Nat) : Field := ⟨ringOff (F q).off d, (F q).hi, (F q).lo⟩

def State.ring (s : State) (q d : Nat) : RingX := s.rings.getD (2 * q + d) {}
def updQ (q d : Nat) (g : RingX → RingX) : Prog := updRing (2 * q + d) g

/-- The states of a ring (RX_STATE.state). -/
def rgStopped : Nat := 0
def rgRunning : Nat := 1
def rgStopping : Nat := 2
def rgFault : Nat := 3
def State.rgState (s : State) (q d : Nat) : Nat := s.f (rf F.QP_RX_STATE_state q d)
def setRg (q d v : Nat) : Prog := setF (rf F.QP_RX_STATE_state q d) v

/-- Ring size; 0 = no ring (R410). -/
def State.ringSize (s : State) (q d : Nat) : Nat :=
  let l := s.f (rf F.QP_RX_CFG_size_log2 q d)
  if l = 0 then 0 else 2 ^ l

def State.ringHead (s : State) (q d : Nat) : Nat := s.f (rf F.QP_RX_HEAD_IDX_head q d)
def State.ringTail (s : State) (q d : Nat) : Nat := s.f (rf F.QP_RX_HEAD_IDX_tail q d)
def State.cacheLanding (s : State) (q d : Nat) : Bool := s.bit (rf F.QP_RX_CFG_landing q d)

/-- The address of descriptor i of a ring. -/
def State.descAddr (s : State) (q d i : Nat) : Nat := s.wide (ringOff (R.QP_RX_BASE q) d) 2 + 32 * i

/-- The head index moved on by n. -/
def State.ringIdx (s : State) (q d n : Nat) : Nat := (s.ringHead q d + n) % max 1 (s.ringSize q d)

/-- The rings that hold something, as (q, d). -/
def State.liveRings (s : State) : List (Nat × Nat) := s.rings.map fun e => (e.1 / 2, e.1 % 2)

/-! Request budget (R401). -/

/-- Units a head may still take. -/
def State.unitsFree (s : State) (h : Nat) : Nat := s.f (F.HEAD_REQ_CFG_max_out h) - s.f (F.HEAD_REQ_STAT_now h)

/-- The budget units of n bytes; a transfer larger than the whole budget counts as the whole budget. -/
def State.unitsOf (s : State) (h n : Nat) : Nat := min ((n + 63) / 64) (s.f (F.HEAD_REQ_CFG_max_out h))

def takeUnits (h n : Nat) : Prog := .read fun s =>
  let now := s.f (F.HEAD_REQ_STAT_now h) + n
  block [setF (F.HEAD_REQ_STAT_now h) now, setF (F.HEAD_REQ_STAT_peak h) (max now (s.f (F.HEAD_REQ_STAT_peak h)))]

def freeUnits (h n : Nat) : Prog := .read fun s => setF (F.HEAD_REQ_STAT_now h) (s.f (F.HEAD_REQ_STAT_now h) - n)

/-! DMA windows (R115, R386): checked against untranslated addresses. -/

/-- Some window of the head admits the whole access: its limit is its last byte. -/
def State.winOk (s : State) (h addr len : Nat) (write cache : Bool) : Bool :=
  (List.range 16).any fun w =>
    decide (s.wide (R.MLD_GOV_WIN_BASE h w) 2 ≤ addr) && decide (addr + len ≤ s.wide (R.MLD_GOV_WIN_LIMIT h w) 2 + 1) &&
    s.bit (if write then F.MLD_GOV_WIN_FLAGS_write h w else F.MLD_GOV_WIN_FLAGS_read h w) &&
    s.bit (if cache then F.MLD_GOV_WIN_FLAGS_cache h w else F.MLD_GOV_WIN_FLAGS_io h w)

/-- An access that no window admits is not issued (R115, R116): governor 3, index the head. -/
def winClamp (off h : Nat) : Prog := governorClamp off 3 h

/-! Translations (R382 to R385). -/

/-- The entry of the translation cache that holds an address. -/
def State.atcFind (s : State) (h a : Nat) : Option (Nat × Nat) :=
  (s.head h).atc.find? fun e => decide (e.1 ≤ a ∧ a < e.1 + e.2)

def atcShow (h : Nat) : Prog := .read fun s => setF (F.HEAD_ATC_STAT_valid h) (s.head h).atc.length

/-- The entry used last stands first; 2,048 entries are kept. -/
def atcUse (h : Nat) (e : Nat × Nat) : Prog :=
  block [updHead h fun x => { x with atc := (e :: x.atc.erase e).take 2048 }, atcShow h]

def atcFlush (h : Nat) : Prog := block [updHead h fun x => { x with atc := [] }, atcShow h]

/-- The first address of [a, a + n) that the cache does not translate. -/
def atcMiss (s : State) (h : Nat) : Nat → Nat → Nat → Option Nat
  | 0, _, _ => none
  | fuel + 1, a, stop =>
    if a ≥ stop then none
    else match s.atcFind h a with
      | none => some a
      | some e => atcMiss s h fuel (e.1 + e.2) stop

/-- Run a write of n bytes at an address on a cache-landing ring: translated at once, or after a Translation Request for
the first address that misses (R383). -/
def translate (q d h addr n : Nat) (go : Prog) : Prog := .read fun s =>
  match atcMiss s h (n / 4096 + 2) addr (addr + n) with
  | none => block [ifSome (s.atcFind h addr) (atcUse h), go]
  | some a => block [updQ q d fun x => { x with translating := some a }, takeUnits h 1,
      send (.cxl h "translation_request" (a / 4096 * 4096))]

/-! Interrupts (R380, R435, R436). -/

/-- A message of a head falls due on a vector (R380). -/
def msix (h vec : Nat) : Prog := .read fun s =>
  let x := s.head h
  when (s.attached h && x.bme)
    (if x.fnMask || !x.openVecs.contains vec then
       updHead h fun y => { y with pendVecs := if y.pendVecs.contains vec then y.pendVecs else vec :: y.pendVecs }
     else send (.msix h vec))

/-- The unacknowledged count of a ring (R435). -/
def State.unacked (s : State) (q d : Nat) : Nat :=
  let n := s.ringSize q d
  if n = 0 then 0 else (s.ringHead q d + n - s.f (rf F.QP_RX_ACK_ack q d) % n) % n

/-- STAT.due (R435). -/
def State.ringDue (s : State) (q d : Nat) : Bool :=
  let c := s.unacked q d
  let m := s.f (rf F.QP_RX_MOD_count q d)
  m != 0 && decide (0 < c) && (decide (m ≤ c) || (s.ring q d).timer == 2)

/-- STAT.due takes its value; an armed ring that is due sends its message and disarms (R436). -/
def ringIrq (q d : Nat) : Prog := .read fun s =>
  block [setF (rf F.QP_RX_STAT_due q d) (b2n (s.ringDue q d)),
    when (s.ringDue q d && s.bit (rf F.QP_RX_STAT_armed q d))
      (block [setF (rf F.QP_RX_STAT_armed q d) 0, ifSome (s.qpHead q) fun h => msix h (s.f (rf F.QP_RX_CFG_vec q d))])]

/-- n write-backs have left the engine: the head moves, the moderation timer starts (R435). -/
def completed (q d n : Nat) : Prog := .read fun s =>
  block [when (s.unacked q d == 0 && s.f (rf F.QP_RX_MOD_timer_us q d) != 0) (updQ q d fun x => { x with timer := 1 }),
    setF (rf F.QP_RX_HEAD_IDX_head q d) (s.ringIdx q d n),
    updQ q d fun x => { x with taken := x.taken - n },
    addWide (ringOff (R.QP_RX_FRAMES q) d) 2 n, ringIrq q d]

/-- MODERATION_TIMER (R435). -/
def moderationTimer (q d : Nat) : Prog := .read fun s =>
  when ((s.ring q d).timer == 1 && s.f (rf F.QP_RX_MOD_timer_us q d) != 0)
    (block [updQ q d fun x => { x with timer := 2 }, ringIrq q d])

/-- RING_ACK (R435, R436): the acknowledge index takes its value, the interrupt is armed, the timer starts where the
count stays above 0. -/
def ringAck (q d ack : Nat) : Prog :=
  block [setF (rf F.QP_RX_ACK_ack q d) ack, setF (rf F.QP_RX_STAT_armed q d) 1,
    .read fun s => updQ q d fun x => { x with timer := if 0 < s.unacked q d ∧ s.f (rf F.QP_RX_MOD_timer_us q d) ≠ 0 then 1 else 0 },
    ringIrq q d]

/-! Statuses and write-backs (R421, R431, R432). -/

def stOk : Nat := 0x00
def stFcsErr : Nat := 0x01
def stTruncated : Nat := 0x02
def stDataErr : Nat := 0x03
def stAborted : Nat := 0x04
def stBadDesc : Nat := 0x05
def stCellEcc : Nat := 0x06
def stOversize : Nat := 0x10
def stCollisions : Nat := 0x11
def stGateTooLong : Nat := 0x12
def stNotSent : Nat := 0x13
def stSentLate : Nat := 0x14
def stBadLaunch : Nat := 0x15

/-- The statuses in the order of R421: where more than one applies, the first counts. -/
def statusOrder : List Nat :=
  [stCellEcc, stDataErr, stBadDesc, stAborted, stFcsErr, stTruncated, stOversize, stCollisions, stGateTooLong, stBadLaunch,
   stNotSent, stSentLate, stOk]

/-- The status of a frame to which several apply (R421). -/
def firstStatus (l : List Nat) : Nat := (statusOrder.find? fun x => l.contains x).getD stOk

/-- A frame's status other than OK and SENT_LATE (R421): n write-backs counted as bad, C0 DESC_BAD. -/
def badStatus (q d status n : Nat) : Prog :=
  when (status != stOk && status != stSentLate)
    (block [satAdd (rf F.QP_RX_BAD_count q d) n, raise (R.QP_EVENT q) (2 + d),
      emit 0x0B kDescBad 0 status (q + 2 ^ 15 * d)])

/-- The write of a write-back's descriptors to host memory, one after the other around the end of the ring. -/
def writeDescs (s : State) (q d h : Nat) (w : WbX) (cache : Bool) : Prog :=
  each w.descs.zipIdx fun e =>
    send (.hostWrite h (s.descAddr q d ((w.idx + e.2) % max 1 (s.ringSize q d))) e.1 cache)

/-- The oldest held write-back of a cache-landing ring leaves, where no response and no translation is awaited (R432). -/
def wbTry (q d : Nat) : Prog := .read fun s =>
  let x := s.ring q d
  match x.held, s.qpHead q with
  | w :: t, some h =>
    when (!x.goWait && x.translating.isNone)
      (translate q d h (s.descAddr q d w.idx) 32
        (block [writeDescs s q d h w true, takeUnits h w.descs.length,
          updQ q d fun y => { y with held := t, goWait := true, units := y.units + w.descs.length },
          completed q d w.descs.length]))
  | _, _ => .skip

/-- A frame's write-back is ready: on io landing it is issued, on cache landing it waits its turn (R431, R432). A
write-back that no window admits is not issued (R115). -/
def writeBack (q d : Nat) (w : WbX) : Prog := .read fun s =>
  ifSome (s.qpHead q) fun h =>
    let cache := s.cacheLanding q d
    if !(w.descs.zipIdx.all fun e => s.winOk h (s.descAddr q d ((w.idx + e.2) % max 1 (s.ringSize q d))) 32 true cache) then
      block [winClamp (R.QP_RX_BASE q) h, completed q d w.descs.length]
    else if cache then block [updQ q d fun x => { x with held := x.held ++ [w] }, wbTry q d]
    else block [writeDescs s q d h w false, completed q d w.descs.length]

/-- The 32 bytes of a descriptor. -/
def descBytes (w0 w1 w2 w3 : Nat) : List Byte := leBytes 8 w0 ++ leBytes 8 w1 ++ leBytes 8 w2 ++ leBytes 8 w3

/-! Cellar shares (R426 to R429). -/

/-- Cells of n bytes. -/
def cellsOf (n : Nat) : Nat := (n + 127) / 128

/-- Cells that a ring uses: received frames without FCS and one FCS each, or transmit frames. -/
def RingX.rxCells (x : RingX) : Nat := (x.frames.map fun f => cellsOf (f.bytes.length + 4)).sum
def RingX.txCells (x : RingX) : Nat := cellsOf x.data.length + (x.flights.map fun f => cellsOf f.bytes.length).sum

/-- Cells in use by a head in the receive (d = 0) or transmit half. -/
def State.headCells (s : State) (h d : Nat) : Nat :=
  ((s.rings.filter fun e => e.1 % 2 == d && s.qpHead (e.1 / 2) == some h).map fun e =>
    if d = 0 then e.2.rxCells else e.2.txCells).sum

/-- Cells in use in a half. -/
def State.halfCells (s : State) (d : Nat) : Nat :=
  ((s.rings.filter fun e => e.1 % 2 == d).map fun e => if d = 0 then e.2.rxCells else e.2.txCells).sum

/-- The cells of a half (R426). -/
def State.half (s : State) (d : Nat) : Nat :=
  let r := s.f F.CEL_CFG_rx_kcells * 1024
  if d = 0 then r else 196608 - r

def State.shareMax (s : State) (h d : Nat) : Nat := 128 * s.f (if d = 0 then F.CEL_HEAD_RX_max h else F.CEL_HEAD_TX_max h)
def State.shareGuar (s : State) (h d : Nat) : Nat := 128 * s.f (if d = 0 then F.CEL_HEAD_RX_guar h else F.CEL_HEAD_TX_guar h)

/-- The free shared cells of a half (R427). -/
def State.freeShared (s : State) (d : Nat) : Nat :=
  s.half d - ((List.range 4).map fun h => max (s.headCells h d) (s.shareGuar h d)).sum

/-- A head may take `need` more cells of a half (R428, R429). -/
def State.headAdmits (s : State) (h d need : Nat) : Bool :=
  let use := s.headCells h d
  decide (use + need ≤ s.shareMax h d) && (decide (use + need ≤ s.shareGuar h d) || decide (need ≤ s.freeShared d))

/-- The receive half admits a frame of a ring (R428). -/
def State.rxAdmits (s : State) (h q need : Nat) : Bool :=
  decide ((s.ring q 0).rxCells + need ≤ 128 * s.f F.CEL_QP_MAX_max) && s.headAdmits h 0 need

/-! Fetching descriptors (R413, R430). -/

/-- STAT.prefetched. -/
def showPrefetched (q d : Nat) : Prog := .read fun s => setF (rf F.QP_RX_STAT_prefetched q d) (s.ring q d).descs.length

/-- A RUNNING ring asks for more descriptors: up to 8 prefetched, in ring order, within the windows and the budget.
`again` reads a descriptor with OWN = 0 once more. -/
def fetchMore (q d : Nat) (again : Bool) : Prog := .read fun s =>
  let x := s.ring q d
  let size := s.ringSize q d
  let start := s.ringIdx q d (x.taken + x.descs.length)
  let posted := (s.ringTail q d + size - start) % max 1 size
  let want := min posted (min (8 - x.descs.length) (size - start))
  when (s.rgState q d == rgRunning && x.fetching == 0 && decide (0 < want) && (again || !s.bit (rf F.QP_RX_STAT_own_wait q d))
      && !x.descs.any fun e => e.bad != 0)
    (ifSome (s.qpHead q) fun h =>
      if !s.winOk h (s.descAddr q d start) 32 false false then
        block [winClamp (R.QP_RX_BASE q) h, updQ q d fun y => { y with descs := y.descs ++ [⟨0, 0, 0, 0, 1⟩] }, showPrefetched q d]
      else
        let fits := (List.range want).takeWhile fun i => s.winOk h (s.descAddr q d (start + i)) 32 false false
        let n := min fits.length (2 * s.unitsFree h)
        when (decide (0 < n))
          (block [takeUnits h ((n + 1) / 2), updQ q d fun y => { y with fetching := n },
            send (.hostRead h (s.descAddr q d start) (32 * n))]))

/-! Faults and stopping (R437 to R439). -/

/-- Frames of a transmit ring that wait at their port, not started. -/
def dropQueued (q : Nat) : Prog := .read fun s =>
  each (s.ports.map (·.1)) fun p =>
    updPort p fun x => { x with txq := x.txq.filter fun f => match f.owner with | some (o, _) => o != q | none => true }

/-- The frame of a ring that has started on a line, by its number. -/
def State.startedOf (s : State) (q : Nat) : Option Nat :=
  (s.ports.findSome? fun e => match e.2.sending with
    | some f => (match f.owner with | some (o, i) => if o = q then some i else none | none => none)
    | none => none)

/-- What a ring fetched and has not finished is discarded, but for a transmit frame that has started; the frames are
counted in DROPS where `count` says so. -/
def discardFetched (q d : Nat) (count : Bool) : Prog := .read fun s =>
  let x := s.ring q d
  let keep := if d = 1 then s.startedOf q else none
  let gone := if d = 0 then x.frames.length
    else (x.flights.filter fun f => some f.id != keep && f.status.isNone).length + b2n x.whole
  block [when (d == 1) (dropQueued q),
    when (count && decide (0 < gone)) (addWide (ringOff (R.QP_RX_DROPS q) d) 2 gone),
    updQ q d fun y => { y with frames := [], descs := [], cur := [], data := [], err := false, skip := false, whole := false, flights := y.flights.filter fun f => some f.id == keep || f.status.isSome },
    setF (rf F.QP_RX_STAT_prefetched q d) 0, setF (rf F.QP_RX_STAT_own_wait q d) 0]

/-- A ring enters FAULT with a cause (R438). -/
def ringFault (q d cause : Nat) : Prog :=
  block [setRg q d rgFault, setF (rf F.QP_RX_STAT_fault_cause q d) cause, discardFetched q d true,
    updQ q d fun x => { x with held := [], taken := 0, flights := [] },
    raise (R.QP_EVENT q) d, emit 0x0B 0x1A 2 (cause + 16 * d) q]

/-- RING_DISABLE (R439): a RUNNING or FAULT ring goes to STOPPING. -/
def ringDisable (q d : Nat) : Prog := .read fun s =>
  when (s.rgState q d == rgRunning || s.rgState q d == rgFault)
    (block [setF (rf F.QP_RX_CTL_en q d) 0, setRg q d rgStopping, discardFetched q d (d == 1)])

/-- RING_STOPPED (R439): no write-back and no started frame is left. -/
def ringStopped (q d : Nat) : Prog := .read fun s =>
  let x := s.ring q d
  when (s.rgState q d == rgStopping && x.held.isEmpty && x.flights.isEmpty)
    (block [ifSome (s.qpHead q) fun h => freeUnits h ((x.fetching + 1) / 2 + x.reading + x.units),
      setRg q d rgStopped, updQ q d fun y => { nextId := y.nextId }, raise (R.QP_EVENT q) (5 + d)])

/-- Why an enable is refused (R418, R440); 0 = it is not. -/
def State.enableRefusal (s : State) (q d : Nat) : Nat :=
  let p := s.f (F.QP_TX_CFG_port q)
  if s.ringSize q d = 0 then 1
  else if s.cacheLanding q d && !(match s.qpHead q with | some h => s.bit (F.HEAD_STAT_ats_en h) | none => false) then 2
  else if d = 1 && (s.portHead p != s.qpHead q || s.macPort p != p) then 3
  else if !s.bit F.CEL_STAT_init_done then 4
  else 0

/-- RING_ENABLE (R436, R440). A STAGED remould that names the queue pair drops the write (R107). -/
def ringEnable (q d : Nat) : Prog := .read fun s =>
  let why := s.enableRefusal q d
  when (s.rgState q d == rgStopped && !s.remouldNames q)
    (if why ≠ 0 then block [setF (rf F.QP_RX_STAT_refused q d) why, setF (rf F.QP_RX_CTL_en q d) 0]
     else block [setF (rf F.QP_RX_STAT_refused q d) 0, setF (rf F.QP_RX_CTL_en q d) 1, setRg q d rgRunning,
       setF (rf F.QP_RX_STAT_own_wait q d) 0,
       updQ q d fun y => { nextId := y.nextId, port := s.f (F.QP_TX_CFG_port q), cls := s.f (F.QP_TX_CFG_tclass q) }, setF (rf F.QP_RX_STAT_armed q d) 1, ringIrq q d, fetchMore q d false])

/-- Frames of a queue pair no longer belong to it: those that wait at a port are gone, one that has started is sent
without a write-back (R394). -/
def unlinkQp (q : Nat) : Prog := .read fun s =>
  let mine := fun (f : TxFrame) => match f.owner with | some (o, _) => o == q | none => false
  each ((s.ports.filter fun e => e.2.txq.any mine || e.2.sending.any mine).map (·.1)) fun p =>
    updPort p fun x => { x with txq := x.txq.filter fun f => !mine f, sending := x.sending.map fun f => if mine f then { f with owner := none } else f }

/-- The registers of one ring return to reset. -/
def resetRing (q d : Nat) : Prog :=
  block [resetReg (ringOff (R.QP_RX_BASE q) d), resetReg (ringOff (R.QP_RX_BASE q) d + 4), resetReg (ringOff (R.QP_RX_CFG q) d),
    resetReg (ringOff (R.QP_RX_CTL q) d), resetReg (ringOff (R.QP_RX_HEAD_IDX q) d), resetReg (ringOff (R.QP_RX_ACK q) d),
    resetReg (ringOff (R.QP_RX_MOD q) d), resetReg (ringOff (R.QP_RX_STAT q) d), resetReg (ringOff (R.QP_RX_STATE q) d),
    resetReg (ringOff (R.QP_RX_FRAMES q) d), resetReg (ringOff (R.QP_RX_FRAMES q) d + 4),
    resetReg (ringOff (R.QP_RX_DROPS q) d), resetReg (ringOff (R.QP_RX_DROPS q) d + 4), resetReg (ringOff (R.QP_RX_BAD q) d)]

/-- The registers and the engine state of a queue pair return to reset (R394, R442, PKT reset). -/
def resetQp (q : Nat) : Prog :=
  block [unlinkQp q, resetRing q 0, resetRing q 1,
    resetReg (R.QP_EVENT q), resetReg (R.QP_EVENT_MASK q), deriveQp q, .act (.ring (2 * q) {}), .act (.ring (2 * q + 1) {})]

/-! Receive service (R414, R415, R441). -/

/-- PKT.LAT[h] takes a measured latency (R441), for the modes of R28. -/
def latency (h p ns : Nat) : Prog := .read fun s =>
  when (decide (5 ≤ s.pmode p ∧ s.pmode p ≤ 7))
    (block [satAdd (F.PKT_LAT_MEASURED_measured h) 1,
      setF (F.PKT_LAT_MINMAX_min_ns h) (min (s.f (F.PKT_LAT_MINMAX_min_ns h)) ns),
      setF (F.PKT_LAT_MINMAX_max_ns h) (min 0xFFFF (max (s.f (F.PKT_LAT_MINMAX_max_ns h)) ns)),
      when (decide (s.f F.PKT_LAT_CFG_threshold_ns < ns)) (block [satAdd (F.PKT_LAT_OVER_over h) 1, raise R.PKT_EVENT 0])])

/-- The write-back of a receive descriptor (R414). -/
def rxWb (f : RxFrameX) (len status : Nat) : List Byte :=
  descBytes f.ts (len % 2 ^ 16 + 2 ^ 16 * f.tag + 2 ^ 32 * f.entry) f.etype (status + 2 ^ 8 * f.port)

/-- The oldest waiting frame of a receive ring is completed with a status. -/
def rxComplete (q h : Nat) (f : RxFrameX) (len status : Nat) : Prog := .read fun s =>
  block [updQ q 0 fun x => { x with frames := x.frames.tail, descs := x.descs.tail, taken := x.taken + 1 },
    showPrefetched q 0, latency h f.port (f.lat + (s.now - f.at_)), badStatus q 0 status 1,
    writeBack q 0 ⟨s.ringIdx q 0 (s.ring q 0).taken, [rxWb f len status]⟩]

/-- The oldest frame of a receive ring meets its next descriptor. The buffer of a frame whose FCS failed after its writes had
begun is undefined (R23): free bytes. -/
def rxOne (q : Nat) (refused : Bool) : Prog := .read fun s =>
  let x := s.ring q 0
  match x.frames, x.descs, s.qpHead q with
  | f :: _, e :: _, some h =>
    let cache := s.cacheLanding q 0
    let size := e.w1 % 2 ^ 16
    let n := min f.bytes.length size
    let full := if f.bytes.length ≤ size then stOk else stTruncated
    if e.bad ≠ 0 then when (x.taken == 0) (ringFault q 0 e.bad)
    else if size = 0 then rxComplete q h f 0 (firstStatus [f.status, stBadDesc])
    else if refused then rxComplete q h f 0 (firstStatus [f.status, stDataErr])
    else if !s.winOk h e.w0 n true cache then
      block [winClamp (R.QP_RX_BASE q) h, rxComplete q h f 0 (firstStatus [f.status, stDataErr])]
    else
      let undef := f.status == stFcsErr
      let go := block [when undef (.act .draw), send (.hostWrite h e.w0 (if undef then freeBytes s.free n else f.bytes.take n) cache),
        when cache (let u := s.unitsOf h n
          block [takeUnits h u, updQ q 0 fun y => { y with goWait := true, units := y.units + u }]),
        rxComplete q h f f.bytes.length (firstStatus [f.status, full])]
      if cache then translate q 0 h e.w0 n go else go
  | _, e :: _, _ => when (e.bad != 0 && x.taken == 0) (ringFault q 0 e.bad)
  | _, _, _ => .skip

/-- Serve a receive ring: as many frames as descriptors and translations allow. -/
def rxServe (q : Nat) : Nat → Prog
  | 0 => .skip
  | n + 1 => .read fun s =>
    let x := s.ring q 0
    when ((s.rgState q 0 == rgRunning) && x.translating.isNone && !x.descs.isEmpty)
      (block [rxOne q false, fetchMore q 0 false,
        .read fun t => when ((t.ring q 0).frames.length < x.frames.length) (rxServe q n)])

/-- Serve a receive ring until nothing more can be done. -/
def rxServeAll (q : Nat) : Prog := .read fun s => rxServe q ((s.ring q 0).frames.length + 1)

/-! Transmit fetch (R416, R417, R429, R437). -/

/-- Finished frames at the front of a transmit ring are written back, in ring order (R432). -/
def txFlush (q : Nat) : Nat → Prog
  | 0 => .skip
  | n + 1 => .read fun s =>
    match (s.ring q 1).flights with
    | f :: t =>
      ifSome f.status fun st =>
        let last := f.descs.length - 1
        block [updQ q 1 fun x => { x with flights := t }, badStatus q 1 st f.descs.length,
          writeBack q 1 ⟨f.idx, f.descs.zipIdx.map fun e =>
            descBytes e.1.w0 e.1.w1 (if e.2 = last ∧ (st = stOk ∨ st = stSentLate) then f.ts else e.1.w2)
              (st + 2 ^ 8 * f.port + 2 ^ 62 * (e.1.w3 / 2 ^ 62 % 2))⟩,
          txFlush q n]
    | [] => .skip

def txFlushAll (q : Nat) : Prog := .read fun s => txFlush q (s.ring q 1).flights.length

/-- The frame being gathered becomes a flight, with a status where it is not to be sent. -/
def txGathered (q : Nat) (status : Option Nat) : Prog := .read fun s =>
  let x := s.ring q 1
  block [updQ q 1 fun y => { y with flights := y.flights ++ [⟨y.nextId, s.ringIdx q 1 (y.taken - y.cur.length), y.cur, if status.isSome then [] else y.data, status, 0, x.port⟩], nextId := y.nextId + 1, cur := [], data := [], err := false, skip := false, whole := false },
    when (x.err || x.skip || status.isSome) (txFlushAll q)]

/-- The descriptor last taken ends its frame. -/
def isLast (e : DescX) : Bool := e.w3 / 2 ^ 62 % 2 == 1

/-- A transmit ring goes on gathering its frame: takes descriptors, asks for data, ends a frame that is whole or bad. -/
def txGather (q : Nat) : Nat → Prog
  | 0 => .skip
  | n + 1 => .read fun s =>
    let x := s.ring q 1
    when (s.rgState q 1 == rgRunning && x.reading == 0 && !x.whole)
      (match x.descs, s.qpHead q with
       | e :: t, some h =>
         let len := e.w1 % 2 ^ 16
         let need := cellsOf (x.data.length + len) - cellsOf x.data.length
         let take := block [updQ q 1 fun y => { y with descs := t, taken := y.taken + 1, cur := y.cur ++ [e] }, showPrefetched q 1, fetchMore q 1 false]
         let after := .read fun u =>
           let y := u.ring q 1
           if isLast e then
             (if y.skip then block [txGathered q (some stBadDesc), txGather q n]
              else if y.err then block [txGathered q (some stDataErr), txGather q n]
              else when (y.reading == 0) (updQ q 1 fun z => { z with whole := true }))
           else when (y.reading == 0) (txGather q n)
         if e.bad ≠ 0 then
           when (x.flights.isEmpty && x.held.isEmpty)
             (block [setF (rf F.QP_RX_HEAD_IDX_head q 1) (s.ringIdx q 1 x.taken), ringFault q 1 e.bad])
         else if x.cur.length ≥ 16 ∨ x.skip then
           block [updQ q 1 fun y => { y with skip := true, data := [] }, take, after]
         else if len = 0 ∨ x.err then block [take, after]
         else if !s.winOk h e.w0 len false false then
           block [winClamp (R.QP_RX_BASE q) h, updQ q 1 fun y => { y with err := true }, take, after]
         else when (s.headAdmits h 1 need && decide (s.unitsOf h len ≤ s.unitsFree h))
           (block [take, takeUnits h (s.unitsOf h len), updQ q 1 fun y => { y with reading := s.unitsOf h len },
             send (.hostRead h e.w0 len)])
       | _, _ => .skip)

def txServe (q : Nat) : Prog := .read fun s => txGather q ((s.ring q 1).descs.length + 16)

/-- Serve a ring of either direction. -/
def serve (q d : Nat) : Prog := if d = 0 then rxServeAll q else txServe q

/-- The rings of a head in the order of service (R430): the highest priority first, among equals in round robin after the ring that its
direction served last. -/
def State.ringTurn (s : State) (h : Nat) : List (Nat × Nat) :=
  let l := s.liveRings.filter fun r => s.qpHead r.1 == some h
  let after := fun (r : Nat × Nat) => decide ((if r.2 = 0 then (s.head h).turnRx else (s.head h).turnTx) < 2 * r.1 + r.2)
  [3, 2, 1, 0].flatMap fun p =>
    let g := l.filter fun r => s.f (rf F.QP_RX_CFG_pri r.1 r.2) == p
    g.filter after ++ g.filter fun r => !after r

/-- A ring of a head goes on with what it waited for; where it found work, its direction has served it. -/
def serveRing (h : Nat) (r : Nat × Nat) : Prog := .read fun s =>
  block [fetchMore r.1 r.2 false, serve r.1 r.2, .read fun t => when (t.ring r.1 r.2 != s.ring r.1 r.2)
    (updHead h fun x => if r.2 = 0 then { x with turnRx := 2 * r.1 + r.2 } else { x with turnTx := 2 * r.1 + r.2 })]

/-- Budget has come free on a head: every ring of it that waited goes on, in its turn. -/
def serveHead (h : Nat) : Prog := .read fun s => each (s.ringTurn h) (serveRing h)

/-! Completions. -/

/-- DESCRIPTOR_FETCH_DONE (R413, R437): descriptors arrive, or the read ends with an error or poisoned data. -/
def descriptorFetchDone (q d : Nat) (failed : Bool) (ds : List (Nat × Nat × Nat × Nat)) : Prog := .read fun s =>
  let x := s.ring q d
  let got := (ds.take x.fetching).map fun e => DescX.mk e.1 e.2.1 e.2.2.1 e.2.2.2 0
  let good := got.takeWhile fun e => e.w3 / 2 ^ 63 % 2 == 1
  let own := decide (good.length < got.length)
  when (x.fetching != 0)
    (ifSome (s.qpHead q) fun h =>
      block [freeUnits h ((x.fetching + 1) / 2), updQ q d fun y => { y with fetching := 0 },
        when (s.rgState q d == rgRunning)
          (if failed then updQ q d fun y => { y with descs := y.descs ++ [⟨0, 0, 0, 0, 3⟩] }
           else block [updQ q d fun y => { y with descs := y.descs ++ good },
             when (own && !s.bit (rf F.QP_RX_STAT_own_wait q d)) (raise (R.QP_EVENT q) 7),
             when (own || !got.isEmpty) (setF (rf F.QP_RX_STAT_own_wait q d) (b2n own))]),
        showPrefetched q d, fetchMore q d false, serve q d, serveHead h])

/-- OWN_RECHECK (R413). -/
def ownRecheck (q d : Nat) : Prog := .read fun s => when (s.bit (rf F.QP_RX_STAT_own_wait q d)) (fetchMore q d true)

/-- DOORBELL (R378, R412, R413): a write to BAR2 of head h. -/
def doorbell (h q d v : Nat) : Prog := .read fun s =>
  when (s.attached h)
    (if s.qpHead q ≠ some h then emit (0x0C + h) kAccessDenied 0 (h + 8) q
     else when (s.domOn domPkt && decide (0 < s.ringSize q d))
       (block [setF (rf F.QP_RX_HEAD_IDX_tail q d) (v % 2 ^ 15 % s.ringSize q d),
         fetchMore q d true, serve q d]))

/-- DATA_READ_COMPLETION (R437): the data of the part being read, or a failure. -/
def dataReadCompletion (q : Nat) (failed : Bool) (bytes : List Byte) : Prog := .read fun s =>
  let x := s.ring q 1
  let want := match x.cur.getLast? with
    | some e => e.w1 % 2 ^ 16
    | none => 0
  let part := (bytes ++ List.replicate (want - bytes.length) 0).take want
  when (x.reading != 0)
    (ifSome (s.qpHead q) fun h =>
      block [freeUnits h x.reading, updQ q 1 fun y => { y with reading := 0 },
        when (!x.cur.isEmpty)
          (block [if failed then updQ q 1 fun y => { y with err := true } else updQ q 1 fun y => { y with data := y.data ++ part },
            match x.cur.getLast? with
            | some e => when (isLast e)
                (if failed then txGathered q (some stDataErr) else updQ q 1 fun y => { y with whole := true })
            | none => .skip]),
        txServe q, serveHead h])

/-- GO_RESPONSE (R401, R432): the response that a cache-landing ring awaits arrives; its next held write-back is issued. -/
def goResponse (q d : Nat) : Prog := .read fun s =>
  let x := s.ring q d
  when x.goWait
    (ifSome (s.qpHead q) fun h =>
      block [freeUnits h x.units, updQ q d fun y => { y with goWait := false, units := 0 },
        updHead h fun y => { y with invRings := y.invRings.filter fun r => r != (q, d) }, wbTry q d, serve q d, serveHead h])

/-- A translation that a ring awaits has come (R383): a refusal fails the data write, or the write-back where that waits. -/
def translated (q d : Nat) (ok : Bool) : Prog := .read fun s =>
  let x := s.ring q d
  block [updQ q d fun y => { y with translating := none },
    if ok then .skip
    else match x.held with
      | w :: t => if x.goWait then when (d == 0) (rxOne q true)
        else block [updQ q d fun y => { y with held := t }, badStatus q d stDataErr w.descs.length, completed q d w.descs.length]
      | [] => when (d == 0) (rxOne q true),
    wbTry q d, serve q d]

/-- TRANSLATION_COMPLETION (R382, R383): a range with or without write permission. A larger one is held as the 1 GiB range
that contains the address. -/
def translationCompletion (h addr len : Nat) (write : Bool) : Prog := .read fun s =>
  let rs := s.liveRings.filter fun r => s.qpHead r.1 == some h && (s.ring r.1 r.2).translating.any fun a =>
    decide (addr ≤ a ∧ a < addr + len)
  let a := ((rs.head?.bind fun r => (s.ring r.1 r.2).translating).getD addr)
  let e := if 2 ^ 30 < len then (a / 2 ^ 30 * 2 ^ 30, 2 ^ 30) else (addr, len)
  when (!rs.isEmpty)
    (block [when write (atcUse h e), freeUnits h rs.length, each rs fun r => translated r.1 r.2 write, serveHead h])

/-- COMPLETION_TIMEOUT (R402, R437): a read of a head lacks its completion: the descriptor read of a ring, or the data read
of a transmit ring. -/
def ringTimeout (h q d : Nat) (data : Bool) (tag : Nat) : Prog := .read fun s =>
  let x := s.ring q d
  when (s.qpHead q == some h && (if data then d == 1 && x.reading != 0 else x.fetching != 0))
    (block [emit (0x0C + h) kBusError 2 0 tag, raise (R.HEAD_EVENT h) 5,
      if data then dataReadCompletion q true []
      else block [freeUnits h ((x.fetching + 1) / 2), updQ q d fun y => { y with fetching := 0 },
        when (s.rgState q d == rgRunning)
          (block [updQ q d fun y => { y with descs := y.descs ++ [⟨0, 0, 0, 0, 2⟩] }, showPrefetched q d, serve q d]),
        serveHead h]])

/-- A running cache-landing ring of a head stops as on a descriptor fetch fault (R385, R437). -/
def atsOffRings (h : Nat) : Prog := .read fun s =>
  each (List.range 512) fun q => when (s.qpHead q == some h)
    (each [0, 1] fun d => when (s.cacheLanding q d && s.rgState q d == rgRunning) (ringFault q d 4))

/-- CEL_CFG_WRITE (R426): a write of CEL.CFG from a path. -/
def celCfgWrite (path kcells : Nat) : Prog := .read fun s =>
  let idle := (List.range 512).all fun q => !s.bit (F.QP_RX_CTL_en q) && !s.bit (F.QP_TX_CTL_en q)
  if idle && s.halfCells 0 == 0 && s.halfCells 1 == 0 then setF F.CEL_CFG_rx_kcells (max 16 (min 176 kcells))
  else denied path R.CEL_CFG true

/-- CEL_SHARE_WRITE (R427): a write of CEL.HEAD_RX[h] or CEL.HEAD_TX[h] from a path. -/
def celShareWrite (path h d max_ guar : Nat) : Prog := .read fun s =>
  let sum := ((List.range 4).map fun k => if k = h then 128 * guar else s.shareGuar k d).sum
  let off := if d = 0 then R.CEL_HEAD_RX h else R.CEL_HEAD_TX h
  if s.half d < sum then denied path off true
  else block [setF ⟨off, 25, 16⟩ max_, setF ⟨off, 9, 0⟩ guar]

end Sys2Proof.Machine
end

