-- ==== Sys2Proof/Machine/Frames.lean ====
section
/-!
DEFINITION. Frames on the line and in the rings: the MAC's receive side (R151 to R156), the classifier (R422 to R425),
transmit frames from their fetch to the line (R153, R369, R419, R420).
-/
namespace Sys2Proof.Machine

/-! Time stamps (R336, R341, R342). -/

/-- TB64 of an instant `age` quarter nanoseconds ago, moved by an adjustment in 0.25 ns. -/
def State.stamp (s : State) (age : Nat) (adj : Int) : Nat :=
  let t := ((s.tb.total : Int) + (adj - age) * 16384).emod (281474976710656 * 1000000000 * 65536)
  let n := t.toNat / 65536
  n / 1000000000 % 2 ^ 32 * 2 ^ 32 + n % 1000000000

/-- Nanoseconds from one TB64 instant to another, the shorter way round 2^32 s (R336). -/
def tbAhead (a b : Nat) : Int :=
  let w : Int := 2 ^ 32 * 1000000000
  let ns := fun (x : Nat) => ((x / 2 ^ 32 * 1000000000 + x % 2 ^ 32 : Nat) : Int)
  let d := (ns b - ns a).emod w
  if d * 2 < w then d else d - w

/-! What a frame says of itself (R152). -/

/-- A big-endian half word of a frame. -/
def beAt (l : List Byte) (i : Nat) : Nat := 256 * byteAt l i + byteAt l (i + 1)

/-- Offset of the EtherType after the recognised tags, and the outermost recognised tag. -/
def frameTag (stag : Bool) (l : List Byte) : Nat × Option Nat :=
  let t0 := beAt l 12
  if stag ∧ t0 = 0x88A8 then (if beAt l 16 = 0x8100 then 20 else 16, some (beAt l 14))
  else if t0 = 0x8100 then (16, some (beAt l 14))
  else (12, none)

/-- Bits [31:16] of word 1 of a receive write-back (R414): VLAN ID, PCP, tagged. -/
def tagBits (t : Option Nat) : Nat :=
  match t with
  | some v => v % 4096 + v / 2 ^ 13 % 8 * 4096 + 2 ^ 15
  | none => 0

/-! The classifier (R422 to R424). -/

/-- The first n bits of two byte strings agree. -/
def prefixEq : Nat → List Byte → List Byte → Bool
  | n, a :: s, b :: t =>
    if n = 0 then true
    else if n < 8 then a.toNat / 2 ^ (8 - n) == b.toNat / 2 ^ (8 - n)
    else a == b && prefixEq (n - 8) s t
  | n, _, _ => n == 0

/-- An entry matches a frame of port p (R422, R423). -/
def entryMatches (e : List Byte) (p : Nat) (bytes : List Byte) (etype : Nat) (tag : Option Nat) : Bool :=
  let fl := byteAt e 11
  let v := leAt e 8 2
  bitOf fl 0 && (byteAt e 10 == p || byteAt e 10 == 0xFF) &&
  (!bitOf fl 1 || (match tag with | some t => v % 4096 == t % 4096 | none => v % 4096 == 0xFFF)) &&
  (!bitOf fl 2 || (match tag with | some t => v / 4096 % 8 == t / 2 ^ 13 % 8 | none => false)) &&
  (!bitOf fl 3 || leAt e 6 2 == etype) &&
  prefixEq (byteAt e 14) (e.take 6) bytes

/-- The entry of the port's head that steers a frame: index and bytes. A frame that goes to the Gaffer is taken only by an
entry with proto_copy (R424). -/
def State.classify (s : State) (p : Nat) (bytes : List Byte) (etype : Nat) (tag : Option Nat) (proto : Bool) :
    Option (Nat × List Byte) :=
  match s.portHead p with
  | none => none
  | some h => (s.mld.cls.getD h []).find? fun e =>
      entryMatches e.2 p bytes etype tag && (!proto || bitOf (byteAt e.2 11) 5)

/-- gPTP frames of a port go to the Gaffer (R24, R254). -/
def State.isProto (s : State) (p etype : Nat) : Bool :=
  etype == 0x88F7 && s.bit F.TB_CFG_gptp_en && (List.range 4).any fun d => s.domainOn d && s.timeRole d p != 0

/-! Receiving (R151, R156, R189, R198, R425, R428). -/

/-- The MAC of a port carries frames: its link is up, its cane is SINGLE, UP or DEGRADED (R182), or a near-end loop passes MAC frames (R195). -/
def State.macUp (s : State) (p : Nat) : Bool :=
  let loop := s.port p
  if loop.loop = 1 ∨ loop.loop = 2 then s.f (F.PORT_LOOP_CTL_source p) == 1
  else match s.caneOf p with
    | some (k, _) => s.cst k == cnUp || s.cst k == cnDegraded || (s.cst k == cnSingle && s.linkUp p)
    | none => s.linkUp p

/-- A cellar error met by a frame (R421, R527): C1 or C2 from source 0x0A. -/
def cellError (ecc syndrome cell : Nat) : Prog :=
  if ecc = 1 then block [satAdd F.CEL_ECC_corr 1, emit 0x0A kEccCorr 1 (syndrome % 256) cell]
  else when (ecc == 2) (block [satAdd F.CEL_ECC_uncorr 1, raise R.CEL_EVENT 2, emit 0x0A kEccUncorr 2 (syndrome % 256) cell])

/-- A frame of a receive ring is dropped (R425, R428). -/
def rxDrop (q : Nat) : Prog := block [addWide (R.QP_RX_DROPS q) 2 1, raise (R.QP_EVENT q) 4]

/-- A frame goes to a queue pair (R425, R428): admitted and served, or dropped. -/
def toRing (q p need : Nat) (f : RxFrameX) (e : MacFrame) : Prog := .read fun s =>
  match s.qpHead q with
  | none => rxDrop q
  | some h =>
    if s.rgState q 0 ≠ rgRunning then rxDrop q
    else if !s.rxAdmits h q need then
      block [rxDrop q, addWide (R.CEL_DROPS h) 2 1, raise R.CEL_EVENT 1]
    else block [cellError e.ecc e.syndrome e.cell, updQ q 0 fun x => { x with frames := x.frames ++ [{ f with port := p }] }, rxServeAll q]

/-- Host writes of a frame that goes to a queue pair begin before its end (R23): 256 bytes are in the cellar and the ring
has a descriptor at hand whose buffer a window admits. -/
def State.writesBegun (s : State) (q : Nat) (len need : Nat) : Bool :=
  match s.qpHead q with
  | some h => decide (256 ≤ len) && s.rgState q 0 == rgRunning && s.rxAdmits h q need && (s.ring q 0).frames.isEmpty
      && (s.ring q 0).translating.isNone && ((s.ring q 0).descs.head?.any fun d => d.bad == 0 && d.w1 % 2 ^ 16 != 0
        && s.winOk h d.w0 (min (len - 4) (d.w1 % 2 ^ 16)) true (s.cacheLanding q 0))
  | none => false

/-- The lane whose port's line a frame's first block crosses, and its skew in 0.25 ns (R191): the lane's arrival after the
earliest admitted lane (DEDUCED: log entry 171). -/
def State.rxLane (s : State) (p lane : Nat) : Nat × Nat :=
  match s.caneOf p with
  | some (k, _) =>
    let skew := s.f (if lane = 0 then F.CANE_SKEW_A_even_lane k else if lane = 1 then F.CANE_SKEW_A_odd_lane k
      else if lane = 2 then F.CANE_SKEW_B_even_lane k else F.CANE_SKEW_B_odd_lane k)
    if bitOf (s.admitted k) lane then (2 * k + lane, skew * 4 / 10) else (p, 0)
  | none => (p, 0)

/-- The ingress timestamp of a frame (R191, R341, R342). -/
def State.rxStamp (s : State) (p : Nat) (f : MacFrame) : Nat :=
  let l := s.rxLane p f.lane
  s.stamp f.age (signed 16 (s.f (F.TB_PORT_ADJ_rx_adj l.1)) + l.2)

/-- The frame is delivered to the classifier (R422 to R425, R24). `status` is ABORTED or FCS_ERR for a frame whose host
writes had begun. -/
def deliver (p : Nat) (f : MacFrame) (status : Nat) : Prog := .read fun s =>
  let t := frameTag (s.bit (F.PORT_MAC_CFG_stag_en p)) f.bytes
  let etype := beAt f.bytes t.1
  let proto := s.isProto p etype
  let need := cellsOf (s.f (F.PORT_MAC_CFG_max_len p))
  let x := fun (entry : Nat) => RxFrameX.mk p f.bytes (tagBits t.2) etype entry (s.rxStamp p f)
    (if f.ecc = 2 then stCellEcc else status) f.latency s.now
  block [addWide (R.PORT_RX_FRAMES p) 2 1, addWide (R.PORT_RX_BYTES p) 2 (f.bytes.length + 4),
    when (etype == 0x8808) (addWide (R.PORT_RX_PAUSE p) 2 1),
    when proto (send (.toGaffer p f.bytes)),
    when (s.domOn domPkt)
      (match s.classify p f.bytes etype t.2 proto with
       | some (i, e) => block [satAdd (F.PKT_CLS_HIT_count i) 1,
           when (!bitOf (byteAt e 11) 4) (toRing (leAt e 12 2 % 512) p need (x i) f)]
       | none => when (!proto)
           (if s.bit (F.PKT_PORT_DEF_valid p) then toRing (s.f (F.PKT_PORT_DEF_qp p)) p need (x 0xFFFF) f
            else block [satAdd (F.PKT_NOMATCH_count p) 1, raise R.PKT_EVENT 1]))]

/-- The queue pair a frame would go to. -/
def State.target (s : State) (p : Nat) (f : MacFrame) : Option Nat :=
  let t := frameTag (s.bit (F.PORT_MAC_CFG_stag_en p)) f.bytes
  let etype := beAt f.bytes t.1
  let proto := s.isProto p etype
  match s.classify p f.bytes etype t.2 proto with
  | some (_, e) => if bitOf (byteAt e 11) 4 then none else some (leAt e 12 2 % 512)
  | none => if !proto ∧ s.bit (F.PKT_PORT_DEF_valid p) then some (s.f (F.PKT_PORT_DEF_qp p)) else none

/-- MAC_FRAME_RECEIVE. In a far-end loop the port sends what it receives back to its partner (R9, R195), and nothing else happens.
An orphaned DROP port discards every frame but those of the protocol that the device runs itself (R24, R156). -/
def macFrameReceive (p : Nat) (f : MacFrame) : Prog := .read fun s =>
  let len := f.bytes.length + 4
  let maxLen := s.f (F.PORT_MAC_CFG_max_len p)
  let lost := match s.caneOf p with
    | some (k, _) => (s.cane k).lossWait || f.cut
    | none => false
  let begun := match s.target p f with
    | some q => !s.bit (F.PORT_STATE_orphan p) && s.domOn domPkt && s.writesBegun q len (cellsOf maxLen)
    | none => false
  let gptp := s.isProto p (beAt f.bytes (frameTag (s.bit (F.PORT_MAC_CFG_stag_en p)) f.bytes).1)
  if (s.port p).loop = 3 then when (s.linkUp p) (send (.frame p f.bytes))
  else when (s.macPort p == p && (s.macUp p || f.cut))
    (block [
      when (decide (portClass p = .segment)) (block [censusRecord p f.opportunity (sqiOf (signed 16 f.margin)), segMargin p f.margin]),
      when lost (ifSome (s.caneOf p) fun kj => addWide (R.CANE_LOSS_FRAMES kj.1) 2 1),
      if len < 64 then addWide (R.PORT_RX_RUNT p) 2 1
      else if maxLen < len then addWide (R.PORT_RX_OVERSIZE p) 2 1
      else if lost && !(f.cut && begun) then .skip
      else if (!f.fcsOk || f.cut) && !begun then addWide (R.PORT_RX_FCS_ERR p) 2 1
      else if s.bit (F.PORT_STATE_orphan p) then (if gptp then send (.toGaffer p f.bytes) else addWide (R.PORT_RX_ORPHAN_DROP p) 2 1)
      else block [when (!f.fcsOk && !f.cut) (addWide (R.PORT_RX_FCS_ERR p) 2 1),
        deliver p f (if f.cut then stAborted else if f.fcsOk then stOk else stFcsErr)]])

/-! Transmitting. -/

/-- The number of lanes that a port's rate counts (R182): the admitted lanes of a cane in UP or DEGRADED. -/
def State.lanesOf (s : State) (p : Nat) : Nat :=
  match s.caneOf p with
  | some (k, _) => if s.cst k = cnUp ∨ s.cst k = cnDegraded then max 1 (popcount 4 (s.admitted k)) else 1
  | none => 1

/-- The ports on which a port's frames go out, in lane order (R179): those of the transmit map of its cane in a bond mode. -/
def State.txPorts (s : State) (p : Nat) : List Nat :=
  match s.caneOf p with
  | some (k, _) => if s.cst k = cnUp ∨ s.cst k = cnDegraded then (bitList 4 (s.cane k).txMap).map (2 * k + ·) else [p]
  | none => [p]

/-- The position among those ports of the next block. -/
def State.txPos (s : State) (p : Nat) : Nat :=
  match s.caneOf p with
  | some (k, _) => (s.cane k).next
  | none => 0

/-- The port whose line carries the first block of the frame now sent (R191). -/
def State.txFirst (s : State) (p : Nat) : Nat := (s.txPorts p).getD (s.txPos p % (s.txPorts p).length) p

/-- The length of a host frame on the line, FCS included (R153). -/
def txLen (l : List Byte) : Nat := max 60 l.length + 4

/-- The time a frame of n bytes takes on the line, preamble included, ns. -/
def State.wireNs (s : State) (p n : Nat) : Nat :=
  let mode := if (s.port p).loop = 1 ∨ (s.port p).loop = 2 then s.f (F.PORT_LOOP_CTL_mode p) else s.pmode p
  let rate := max 1 (modeRate (if mode = 0 then s.topMode p else mode) * s.lanesOf p)
  ((n + 8) * 8000 + rate - 1) / rate

/-- The port's MAC sends (R155, R198): it is no idle MAC of a cane member, it is up, no far-end loop holds it. -/
def State.macSends (s : State) (p : Nat) : Bool :=
  s.macPort p == p && s.macUp p && (s.port p).loop != 3 && s.mayTransmit p

/-- The port sends a frame (R24, R156): an orphaned port sends none of a host. -/
def State.sendsFrame (s : State) (p : Nat) (f : TxFrame) : Bool :=
  s.macSends p && (f.gptp.isSome || !s.bit (F.PORT_STATE_orphan p))

/-- A frame of a ring has its final status: its write-back follows in ring order, its cells are free. -/
def txFinish (owner : Option (Nat × Nat)) (status ts : Nat) : Prog :=
  ifSome owner fun o =>
    block [updQ o.1 1 fun x => { x with flights := x.flights.map fun f => if f.id = o.2 then { f with status := some status, ts := ts, bytes := [] } else f },
      txFlushAll o.1, txServe o.1]

/-- The statuses that end a frame at the head of its class before it is sent (R153, R369, R420, R421). -/
def State.txVerdict (s : State) (p : Nat) (f : TxFrame) : Nat :=
  let n := txLen f.bytes
  let tooLong := match s.longestOpen p f.cls with
    | some t => decide (t < s.wireNs p n)
    | none => false
  firstStatus ([if s.f (F.PORT_MAC_CFG_max_len p) < n then stOversize else stOk,
    if tooLong then stGateTooLong else stOk,
    if !f.seen ∧ f.launch.any (fun t => decide (1000000000 < tbAhead s.tb64 t)) then stBadLaunch else stOk,
    if s.sendsFrame p f then stOk else stNotSent])

/-- The frame at the head of a class of a port (R419). -/
def State.classHead (s : State) (p c : Nat) : Option TxFrame := (s.port p).txq.find? fun f => f.cls == c

/-- The frames that come to the head of a class are looked at: discarded with their status, held for their launch time,
or free to start (R420). -/
def txHeads (p c : Nat) : Nat → Prog
  | 0 => .skip
  | n + 1 => .read fun s =>
    ifSome (s.classHead p c) fun f =>
      let v := s.txVerdict p f
      if v ≠ stOk then
        block [updPort p fun x => { x with txq := x.txq.erase f },
          when (v == stOversize) (addWide (R.PORT_TX_OVERSIZE p) 2 1),
          when (v == stGateTooLong) (satAdd (F.LCH_GCL_STAT_too_long p) 1),
          txFinish f.owner v 0, txHeads p c n]
      else when (!f.seen)
        (let ahead : Int := match f.launch with
           | some t => tbAhead s.tb64 t
           | none => 0
         updPort p fun x => { x with txq := x.txq.map fun g => if g = f then { g with seen := true, late := decide (ahead < 0), waiting := decide (0 < ahead) } else g })

/-- A frame that has started when its port loses its link, or when a far-end loop begins (R198), is not sent. -/
def txLost (p : Nat) : Prog := .read fun s =>
  ifSome (s.port p).sending fun f =>
    when (!s.macUp p || (s.port p).loop == 3) (block [updPort p fun x => { x with sending := none }, txFinish f.owner stNotSent 0])

/-- The gate of a class lets a frame of the port start now (R369). -/
def State.gateFits (s : State) (p : Nat) (f : TxFrame) : Bool :=
  match s.gateLeft p f.cls with
  | some t => decide (s.wireNs p (txLen f.bytes) ≤ t)
  | none => true

/-- On a segment an open gate releases the frames at the heads of its classes to the MAC, where they wait for the bus (R255). -/
def gateRelease (p : Nat) : Prog := .read fun s =>
  when (decide (portClass p = .segment) && !(s.port p).txq.isEmpty)
    (each (List.range 8) fun c => ifSome (s.classHead p c) fun f =>
      when (f.seen && !f.waiting && !f.released && s.gateFits p f)
        (updPort p fun x => { x with txq := x.txq.map fun g => if g = f then { g with released := true } else g }))

/-- Every class of a port, and the exit from LPI for a frame that is free to start (R312, R314). -/
def txLook (p : Nat) : Prog := .read fun s =>
  block [txLost p, each (List.range 8) fun c => txHeads p c ((s.port p).txq.length + 1), gateRelease p,
    .read fun t => when ((t.port p).txq.any fun f => f.seen && !f.waiting) (lpiExitBegin p)]

/-- Every port that holds transmit frames. -/
def txLookAll : Prog := .read fun s =>
  each ((s.ports.filter fun e => !e.2.txq.isEmpty || e.2.sending.isSome).map (·.1)) txLook

/-- TX_FRAME_FETCHED (R419): the whole frame of a ring is in the cellar and is offered to its port. -/
def txFrameFetched (q : Nat) : Prog := .read fun s =>
  let x := s.ring q 1
  let p := x.port
  let launch := match x.cur.head? with
    | some e => if e.w1 / 2 ^ 16 % 2 = 1 then some e.w2 else none
    | none => none
  when (x.whole && s.rgState q 1 == rgRunning)
    (block [txGathered q none,
      updPort p fun y => { y with txq := y.txq ++ [{ owner := some (q, x.nextId), cls := x.cls, bytes := x.data, launch := launch }] },
      txLook p, txServe q])

/-- The frame that starts next on a port (R369, R419): highest class, gate open long enough, not held. On a segment its gate
has released it before (R255). -/
def State.txNext (s : State) (p : Nat) : Option TxFrame :=
  [7, 6, 5, 4, 3, 2, 1, 0].findSome? fun c =>
    match s.classHead p c with
    | some f =>
      let fits := if portClass p = .segment then f.released else s.gateFits p f
      if f.seen && !f.waiting && fits then some f else none
    | none => none

/-- TX_FRAME_START (R246, R369, R419): under PLCA in the port's own opportunity, the first frame before its timer ends, another
within burst_timer of the end of the one before; in a bond mode, where the map has a lane. `ecc` tells of the frame's cellar cells; an uncorrectable error ends the frame
(R421). -/
def txFrameStart (p ecc syndrome cell : Nat) : Prog := .seq (txLook p) <| .read fun s =>
  let plca := s.bit (F.PORT_SEG_STAT_plca_active p)
  when ((s.port p).sending.isNone && s.macSends p && !(s.port p).exiting && !s.bit (F.PORT_LPI_STAT_tx_lpi p)
      && !(s.txPorts p).isEmpty && (!plca || decide (0 < (s.port p).opportunity ∧ s.now ≤ (s.port p).startBy)))
    (ifSome (s.txNext p) fun f =>
      block [updPort p fun x => { x with txq := x.txq.erase f }, cellError ecc syndrome cell,
        if ecc = 2 then txFinish f.owner stCellEcc 0
        else block [updPort p fun x => { x with sending := some f, opportunity := x.opportunity - 1 },
          when plca (censusRecord p (s.f (F.PORT_SEG_CFG_node_id p)) 0)]])

/-- What a frame of the Gaffer is, on the line. -/
def gptpName (kind : Nat) : String := if kind < 4 then "sync" else if kind < 8 then "follow_up" else "pdelay_req"

/-- A frame leaves on the line, preamble and FCS added (R153): in X50 through the PCS, its blocks handed out over the lanes of the
map (R162, R179). -/
def toLine (p : Nat) (f : TxFrame) (bytes : List Byte) : Prog := .read fun s =>
  let whole := List.replicate 7 0x55 ++ [0xD5#8] ++ bytes ++ leBytes 4 (fcs bytes)
  block [match f.gptp with
      | some k => block [send (.line p (gptpName k) (k % 4)), ifSome f.ingress fun i => send (.relayed p (k % 4) (s.tb.steady - i))]
      | none => send (.frame p bytes),
    when (s.pmode (s.txFirst p) == 7) (pcsSend (s.txPorts p) (s.txPos p) whole),
    ifSome (s.caneOf p) fun kj => updCane kj.1 fun x => { x with next := (x.next + (frameBlocks whole).length) % max 1 (s.txPorts p).length }]

/-- The frame that a near-end loop of MAC frames returns to the port's receive side (R195). -/
def loopFrame (bytes : List Byte) (age : Nat) : MacFrame :=
  { bytes := bytes, fcsOk := true, cut := false, age := age, latency := 0, margin := 0, opportunity := 0, ecc := 0, syndrome := 0, cell := 0, lane := 0 }

/-- TX_FRAME_SENT (R153, R195, R341, R416): the frame completes on the line, or in a near-end loop at the receive side, the line
silent. Its timestamp is that of the line of its first block (R191). Under PLCA the time for a further one starts (R246). -/
def txFrameSent (p age : Nat) : Prog := .read fun s =>
  ifSome (s.port p).sending fun f =>
    let bytes := f.bytes ++ List.replicate (60 - f.bytes.length) 0
    when (s.macUp p)
      (block [updPort p fun x => { x with sending := none, startBy := s.now + 100 * s.f (F.PORT_SEG_TIMING_burst_timer p) },
        addWide (R.PORT_TX_FRAMES p) 2 1, addWide (R.PORT_TX_BYTES p) 2 (txLen f.bytes),
        if (s.port p).loop = 0 then toLine p f bytes else macFrameReceive p (loopFrame bytes age),
        txFinish f.owner (if f.late then stSentLate else stOk) (s.stamp age (signed 16 (s.f (F.TB_PORT_ADJ_tx_adj (s.txFirst p))))), txLook p])

/-- LAUNCH_TIME (R420): held frames whose launch time has come are released. -/
def launchTime (p : Nat) : Prog := .read fun s =>
  block [updPort p fun x => { x with txq := x.txq.map fun f => if f.waiting && f.launch.any (fun t => decide (tbAhead s.tb64 t ≤ 0)) then { f with waiting := false } else f },
    txLook p]

/-- COLLISION and LATE_COLLISION (R247, R248) of the frame on the bus. -/
def collisionAt (p n : Nat) (own late : Bool) : Prog := .read fun s =>
  let o := own && (s.port p).sending.isSome
  let back := ifSome (s.port p).sending fun f => updPort p fun x => { x with sending := none, txq := { f with tries := f.tries + 1 } :: x.txq }
  let drop := ifSome (s.port p).sending fun f =>
    block [updPort p fun x => { x with sending := none }, txFinish f.owner stCollisions 0, txLook p]
  if late then lateCollision p n o drop else collision p n o back drop

end Sys2Proof.Machine
end

