-- ==== Sys2Proof/Machine/FlashPort.lean ====
section
/-!
DEFINITION. The flash port (chapter 18): the page buffer of the window, programs, erases, suspension, failures.
-/
namespace Sys2Proof.Machine

/-- The size of the flash and of its pages (FSPI.CFG). -/
def State.flashSize (s : State) : Nat := 2 ^ (24 + s.f F.FSPI_CFG_size_log2)
def State.pageSize (s : State) : Nat := 2 ^ (8 + s.f F.FSPI_CFG_page_log2)

/-- C2 BUS_ERROR of the flash port, with the offset (R571, R577). -/
def flashError (a : Nat) : Prog := emit 0x07 kBusError 2 0 a

/-- No program and no erase keeps other accesses away from the flash. -/
def State.flashFree (s : State) : Bool := s.fport.op.isNone || s.fport.suspended

/-- FSPI.STAT shows what the port does (R575): the client now granted, a suspended erase, buffered data, an operation. -/
def flashShow (client : Nat) : Prog := .read fun s =>
  block [setF F.FSPI_STAT_client client, setF F.FSPI_STAT_suspended (b2n s.fport.suspended),
    setF F.FSPI_STAT_buffered (b2n !s.fport.bufs.isEmpty), setF F.FSPI_STAT_wip (b2n s.fport.op.isSome)]

/-- A read touches the page of a buffer (R572, R573). -/
def State.readHits (s : State) (r : Nat × Nat) (b : Nat × List Byte) : Bool :=
  decide (r.1 / s.pageSize ≤ b.1 / s.pageSize) && decide (b.1 / s.pageSize ≤ (r.1 + r.2 - 1) / s.pageSize)

/-- A read touches the page of data that is still in a buffer (R573). -/
def State.readHeld (s : State) (r : Nat × Nat) : Bool := s.fport.bufs.any (s.readHits r)

/-- The reads that wait are served, but those of a page whose data is still in a buffer (R573, R575, R576). -/
def flashReads : Prog := .read fun s =>
  block [updFlash fun x => { x with reads := x.reads.filter s.readHeld },
    each (s.fport.reads.filter fun r => !s.readHeld r) fun r => send (.window r.1 (s.flash.readBytes erased r.1 r.2))]

/-- An operation starts in the flash. -/
def flashBegin (o : FlashOp) : Prog :=
  block [updFlash fun x => { x with op := some o },
    if o.erase then send (.flash "erase" o.addr o.len) else block [send (.flash "write_enable" 0 0), send (.flash "program" o.addr o.len)],
    flashShow (if o.erase then 6 else 5)]

/-- The port is free: reads first, then the oldest page buffer that no longer gathers, then an erase (R575). -/
def flashNext : Prog := .seq (.read fun s => when s.flashFree flashReads) <| .read fun s =>
  let x := s.fport
  if x.op.isSome then flashShow (if x.suspended then 3 else s.f F.FSPI_STAT_client)
  else match x.bufs, x.eraseWait with
    | b :: t, e =>
      if t.isEmpty && x.gather then (match e with
        | some w => block [updFlash fun y => { y with eraseWait := none }, flashBegin ⟨true, w.1, [], w.2, false⟩]
        | none => flashShow 0)
      else block [updFlash fun y => { y with bufs := t, gather := t.isEmpty || y.gather }, flashBegin ⟨false, b.1, b.2, b.2.length, false⟩]
    | [], some w => block [updFlash fun y => { y with eraseWait := none }, flashBegin ⟨true, w.1, [], w.2, false⟩]
    | [], none => flashShow 0

/-- The page buffer no longer gathers: it is due (R572). -/
def flashDue : Prog := .read fun s =>
  when (!s.fport.bufs.isEmpty) (block [updFlash fun x => { x with gather := false }, flashNext])

/-- One byte of an accepted window write (R572): it joins the buffer where it is consecutive with the last and in the same
page; otherwise that buffer is due and a new one begins. -/
def windowByte (a : Nat) (b : Byte) : Prog := .read fun s =>
  let x := s.fport
  match x.bufs.getLast? with
  | some l =>
    if x.gather ∧ a = l.1 + l.2.length ∧ a / s.pageSize = l.1 / s.pageSize then
      updFlash fun y => { y with bufs := y.bufs.dropLast ++ [(l.1, l.2 ++ [b])] }
    else updFlash fun y => { y with bufs := y.bufs ++ [(a, [b])], gather := true }
  | none => updFlash fun y => { y with bufs := [(a, [b])], gather := true }

/-- FLASH_WINDOW_WRITE (R572): a write of the Gaffer into the window. -/
def flashWindowWrite (a : Nat) (l : List Byte) : Prog := .read fun s =>
  if !s.domOn domMgt then .skip
  else if !s.flashBooked then block [emit 0x07 kAccessDenied 0 (4 + 8) a, raise R.FSPI_EVENT 3]
  else block [each l.zipIdx fun e => windowByte (a + e.2) e.1, flashNext]

/-- FLASH_WINDOW_READ (R571, R573): a read of the Gaffer; `ok` = no completion error. -/
def flashWindowRead (a n : Nat) (ok : Bool) : Prog := .read fun s =>
  if !s.domOn domMgt then .skip
  else if s.flashSize < a + n ∨ !ok then block [flashError a, send (.gaffer "bus_error")]
  else block [updFlash fun x => { x with reads := x.reads ++ [(a, n)] },
    if s.fport.bufs.getLast?.any (s.readHits (a, n)) then flashDue else flashNext]

/-- PAGE_PROGRAM (R572): 1 µs without a write, or a write that is not consecutive, or a read of the page. -/
def pageProgram : Prog := flashDue

/-- FSPI_FLUSH (R572). -/
def fspiFlush : Prog := flashDue

/-- ERASE (R574): a write of FSPI.ERASE_CTL with size and go. -/
def flashErase (size : Nat) (go : Bool) : Prog := .read fun s =>
  let sz := if size = 1 then 1 else 0
  let len := if sz = 1 then 65536 else 4096
  let a := s.f F.FSPI_ERASE_ADDR_addr
  let refuse := fun (r : Nat) => block [setF F.FSPI_ERASE_CTL_result r, setF F.FSPI_ERASE_CTL_go 0]
  block [setF F.FSPI_ERASE_CTL_size sz,
    when (go && !s.bit F.FSPI_ERASE_CTL_go)
      (if !s.flashBooked then block [refuse 3, raise R.FSPI_EVENT 3]
       else if a % len ≠ 0 then refuse 4
       else if a < 4096 ∧ s.otp.lifecycle ≠ 0 then refuse 5
       else block [setF F.FSPI_ERASE_CTL_result 0, setF F.FSPI_ERASE_CTL_go 1,
         updFlash fun x => { x with eraseWait := some (a, len) }, flashNext])]

/-- What an operation leaves in the flash: done, or undefined bytes where it failed. -/
def flashEffect (o : FlashOp) (ok : Bool) : Prog := .read fun s =>
  if !ok then block [.act .draw, .act (.flashReplace o.addr (freeBytes s.free o.len))]
  else if o.erase then .act (.flashErase o.addr o.len) else .act (.flashProgram o.addr o.bytes)

/-- An erase ends with a result. -/
def eraseEnds (result : Nat) : Prog :=
  block [setF F.FSPI_ERASE_CTL_result result, setF F.FSPI_ERASE_CTL_go 0, raise R.FSPI_EVENT 0]

/-- PROGRAM_COMPLETE (R577): write-in-progress clears; `failed` = the fail bit of the status register is set. -/
def programComplete (failed : Bool) : Prog := .read fun s =>
  let bad := failed && s.f F.FSPI_FAIL_CFG_fail_bit != 0xFF
  ifSome s.fport.op fun o =>
    when (!s.fport.suspended)
      (block [updFlash fun x => { x with op := none },
        when (!o.late) (block [flashEffect o !bad, when bad (block [flashError o.addr, raise R.FSPI_EVENT 1]),
          when o.erase (eraseEnds (if bad then 2 else 1))]),
        flashNext])

/-- FLASH_TIMEOUT (R577): write-in-progress has not cleared; the flash may still be busy, and each later access that waits
for it may fail in the same way. -/
def flashTimeout : Prog := .read fun s =>
  ifSome s.fport.op fun o =>
    when (!s.fport.suspended)
      (block [flashError o.addr, raise R.FSPI_EVENT 2,
        when (!o.late) (block [flashEffect o false, when o.erase (eraseEnds 2), updFlash fun x => { x with op := some { o with late := true } }])])

/-- ERASE_SUSPEND (R576): a reader has waited 50 µs behind an erase. -/
def eraseSuspend : Prog := .read fun s =>
  ifSome s.fport.op fun o =>
    when (o.erase && !o.late && !s.fport.suspended && s.bit F.FSPI_CFG_suspend_en && s.fport.canSuspend)
      (block [updFlash fun x => { x with suspended := true }, send (.flash "suspend" o.addr 0), flashNext])

/-- ERASE_RESUME (R576): 10 µs after the last such read. -/
def eraseResume : Prog := .read fun s =>
  ifSome s.fport.op fun o =>
    when s.fport.suspended (block [updFlash fun x => { x with suspended := false }, send (.flash "resume" o.addr 0), flashShow 6])

/-- A block reset of the flash port (R518): the command in progress ends with a bus error to its requester; what it leaves
in the flash is not stated. -/
def flashReset : Prog := .read fun s =>
  block [ifSome s.fport.op fun o => when (!o.late) (block [flashEffect o false, send (.gaffer "bus_error")]),
    when (!s.fport.reads.isEmpty) (send (.gaffer "bus_error")),
    updFlash fun x => { canSuspend := x.canSuspend }]

end Sys2Proof.Machine
end

