-- ==== Sys2Proof/Machine/Mdma.lean ====
section
/-!
DEFINITION. Management DMA (chapter 14): channels, engine addresses, descriptors, scatter/gather lists, appending, errors,
the cellar's written bits. A descriptor moves its data in the one command that completes it.
-/
namespace Sys2Proof.Machine

def State.chan (s : State) (c : Nat) : ChanX := s.chans.getD c {}

/-- The states of a channel (R460). -/
def mcOff : Nat := 0
def mcRunning : Nat := 1
def mcAtEnd : Nat := 2
def mcHalted : Nat := 3
def State.mcState (s : State) (c : Nat) : Nat := s.f (F.MCH_STAT_state c)

/-- Channels 8 to 15 are the steward's (R443). -/
def stewardChan (c : Nat) : Bool := decide (8 ≤ c)

/-! Engine addresses (R444). -/

def regionOf (a : Nat) : Nat := a / 2 ^ 56 % 256
def offsetOf (a : Nat) : Nat := a % 2 ^ 56

/-- The size of a region; 0 = there is none. -/
def regionSize (r : Nat) : Nat :=
  if r = 0 then 0x400000 else if r = 1 then 0x1800000 else if r = 2 then 0x8000000
  else if 0x10 ≤ r ∧ r < 0x14 then 2 ^ 56 else 0

/-- The head of a host region. -/
def hostOf (a : Nat) : Option Nat := if 0x10 ≤ regionOf a ∧ regionOf a < 0x14 then some (regionOf a - 0x10) else none

/-- An access to host memory may be issued (R452, R454). -/
def State.hostOpen (s : State) (h a n : Nat) (write : Bool) : Bool :=
  s.attached h && (s.head h).bme && s.winOk h (offsetOf a) n write false

/-- A ledger booking of CELLAR is held (R453). -/
def State.cellarBooked (s : State) : Bool := s.ledger.books.any fun b => b.cellar

/-- No ring of any queue pair is enabled. -/
def State.noRing (s : State) : Bool :=
  (List.range 512).all fun q => !s.bit (F.QP_RX_CTL_en q) && !s.bit (F.QP_TX_CTL_en q)

/-- The reasons of a BAD descriptor (R464). -/
def mdRange : Nat := 1
def mdWindow : Nat := 2
def mdRegion : Nat := 3
def mdCellarBusy : Nat := 4
def mdUnbooked : Nat := 5
def mdReadErr : Nat := 6
def mdWriteErr : Nat := 7
def mdFormat : Nat := 8

/-- Why a data access is refused (R444, R453, R454, R464); none = it is not. -/
def State.dataRefusal (s : State) (c a n : Nat) (write : Bool) : Option Nat :=
  let r := regionOf a
  if regionSize r < offsetOf a + n then some mdRange
  else if (r = 0 ∨ r = 2) ∧ stewardChan c then some mdRegion
  else if r = 1 then (if s.cellarBooked || (write && !s.noRing) then some mdCellarBusy else none)
  else if r = 2 then (if write && !s.flashBooked then some mdUnbooked else none)
  else match hostOf a with
    | some h => if s.hostOpen h a n write then none else some mdWindow
    | none => none

/-- Why a list entry cannot be read (R444, R450, R464). -/
def State.listRefusal (s : State) (c a : Nat) : Option Nat :=
  let r := regionOf a
  if regionSize r < offsetOf a + 16 then some mdRange
  else if r = 1 ∨ r = 2 ∨ (r = 0 ∧ stewardChan c) then some mdRegion
  else match hostOf a with
    | some h => if s.hostOpen h a 16 false then none else some mdWindow
    | none => none

/-- A host access that the windows refuse is logged as GOVERNOR_CLAMP too (R116, R464). -/
def windowClamp (s : State) (c a n : Nat) (write : Bool) : Prog :=
  ifSome (hostOf a) fun h => when (!s.winOk h (offsetOf a) n write false) (winClamp (R.MCH_CTL c) h)

/-! Fetching (R461 to R465). -/

/-- The channel's budget units come free. -/
def chanFree (c : Nat) : Prog := .read fun s =>
  block [each (s.chan c).units fun u => freeUnits u.1 u.2, updChan c fun x => { x with units := [], due := [] }]

/-- The channel halts with a cause at an address (R460, R463, R465). -/
def chanHalt (c cause addr : Nat) : Prog :=
  block [chanFree c, setF (F.MCH_STAT_state c) mcHalted, setF (F.MCH_STAT_halt_cause c) cause,
    setWide (R.MCH_CUR c) 2 addr, updChan c fun _ => {}]

/-- A fetch fault (R465). -/
def chanFault (c sub addr : Nat) : Prog :=
  block [chanHalt c sub addr, raise (R.MCH_EVENT c) 4, emit 0x08 0x1A 2 sub c]

/-- Why a descriptor address cannot be used (R444, R453, R465): the sub-cause. -/
def State.descRefusal (s : State) (c a n : Nat) (write : Bool) : Option Nat :=
  let r := regionOf a
  if regionSize r < offsetOf a + n ∨ r = 1 ∨ r = 2 ∨ (r = 0 ∧ stewardChan c) then some 2
  else match hostOf a with
    | some h => if s.hostOpen h a n write then none else some 3
    | none => none

/-- The hop limit (R463). -/
def State.hopMax (s : State) (c : Nat) : Nat :=
  let l := s.f (F.MCH_HOP_MAX_limit c)
  if l = 0 then 4096 else l

/-- The channel is about to fetch the descriptor at an address: the hop limit, the checks, then the read, which waits for
the head's budget. -/
def chanFetch (c a : Nat) : Prog := .read fun s =>
  if s.hopMax c ≤ s.f (F.MCH_HOPS_hops c) then
    block [chanHalt c 8 a, raise (R.MCH_EVENT c) 5, emit 0x08 0x0D 2 0 c]
  else if a % 32 ≠ 0 then chanFault c 1 a
  else match s.descRefusal c a 32 false with
    | some sub => block [when (sub == 3) (windowClamp s c a 32 false), chanFault c sub a]
    | none => match hostOf a with
      | some h =>
        if s.unitsFree h = 0 then updChan c fun x => { x with want := some a, cur := none }
        else block [updChan c fun x => { x with want := some a, fetching := true, cur := none, units := [(h, 1)] },
          takeUnits h 1, send (.hostRead h (offsetOf a) 32)]
      | none => updChan c fun x => { x with want := some a, fetching := true, cur := none }

/-- A descriptor of 32 bytes in the Gaffer's SRAM. -/
def State.sramDesc (s : State) (a : Nat) : DescX :=
  let l := s.sram.readBytes blank (offsetOf a) 32
  ⟨leAt l 0 8, leAt l 8 8, leAt l 16 8, leAt l 24 8, 0⟩

/-- Data reads of a descriptor from one head count against its budget, up to the channel's 2 KiB buffer (R401, R454,
R456): those of a copy's source, of both sides of a compare. -/
def chanUnits (d : DescX) : List (Nat × Nat) :=
  let mode := d.w2 / 2 ^ 32 % 16
  let n := min 32 ((d.w2 % 2 ^ 32 + 63) / 64)
  let side := fun (a : Nat) (sg : Bool) => match hostOf a with
    | some h => if sg || n = 0 then [] else [(h, n)]
    | none => []
  if mode = 0 then side d.w0 (bitOf d.w2 38)
  else if mode = 2 then side d.w0 (bitOf d.w2 38) ++ side d.w1 (bitOf d.w2 39)
  else []

/-- A channel takes the units it waits for where the budgets have room, and waits on where they have not (R401). -/
def chanTake (c : Nat) : Prog := .read fun s =>
  each (s.chan c).due fun u => .read fun t => when (decide (u.2 ≤ t.unitsFree u.1))
    (block [takeUnits u.1 u.2, updChan c fun y => { y with due := y.due.erase u, units := u :: y.units }])

/-- MDMA_DESC_FETCHED (R451, R461, R465): the descriptor read ends. `words` is what a host returned; in the Gaffer's SRAM
the descriptor is what the SRAM holds. -/
def mdmaDescFetched (c : Nat) (failed : Bool) (words : Nat × Nat × Nat × Nat) : Prog := .read fun s =>
  let x := s.chan c
  ifSome x.want fun a => when (x.fetching && s.mcState c == mcRunning)
    (let d := if (hostOf a).isSome then DescX.mk words.1 words.2.1 words.2.2.1 words.2.2.2 0 else s.sramDesc a
     if failed then chanFault c 4 a
     else if d.w3 / 4 % 8 ≠ 0 then chanFault c 1 a
     else block [chanFree c,
       setF (F.MCH_HOPS_hops c) (s.f (F.MCH_HOPS_hops c) + 1), setWide (R.MCH_CUR c) 2 a,
       setF (F.MCH_REMAIN_bytes c) (d.w2 % 2 ^ 32),
       updChan c fun y => { y with want := none, fetching := false, cur := some (a, d), tail := if d.w3 % 2 = 1 then some a else none, next := none, lost := false },
       updChan c fun y => { y with due := chanUnits d }, chanTake c])

/-! Moving data (R447 to R453). -/

/-- One side of a descriptor: its pieces (engine address, bytes) in order, and a reason met after them. -/
structure Side where
  pieces : List (Nat × Nat)
  bad : Option Nat
deriving DecidableEq, Repr

/-- A scatter/gather list, entry by entry (R450, R451): in SRAM what it holds, in host memory what the host returned. -/
def listSide (s : State) (c : Nat) (host : List (Nat × Nat)) : Nat → Nat → Nat → Side
  | 0, _, left => ⟨[], if left = 0 then none else some mdFormat⟩
  | n + 1, a, left =>
    if left = 0 then ⟨[], none⟩
    else match s.listRefusal c a with
      | some r => ⟨[], some r⟩
      | none =>
        let entry := if (hostOf a).isSome then host.head?
          else (let l := s.sram.readBytes blank (offsetOf a) 12
            some (leAt l 0 8, leAt l 8 4))
        match entry with
        | none => ⟨[], some mdReadErr⟩
        | some e =>
          let use := min e.2 left
          let rest := listSide s c host.tail n (a + 16) (left - use)
          ⟨if use = 0 then rest.pieces else (e.1, use) :: rest.pieces, rest.bad⟩

/-- A side by its pattern (R449). -/
def sideOf (s : State) (c a len : Nat) (fixed sg : Bool) (host : List (Nat × Nat)) : Side :=
  if sg then listSide s c host 65536 a len
  else if fixed then ⟨List.replicate (len / 8) (a, 8), none⟩
  else ⟨[(a, len)], none⟩

/-- A piece cut where a 4 KiB page of its region ends. -/
def cutPages : Nat → Nat → Nat → List (Nat × Nat)
  | 0, _, _ => []
  | fuel + 1, a, n =>
    if n = 0 then [] else
      let m := min n (4096 - a % 4096)
      (a, m) :: cutPages fuel (a + m) (n - m)

/-- The pieces of a side, cut by pages, after the check that each whole piece lies in its region. -/
def Side.cut (x : Side) : List (Nat × Nat × Bool) :=
  (x.pieces.map fun p =>
    let beyond := decide (regionSize (regionOf p.1) < offsetOf p.1 + p.2)
    if beyond then [(p.1, p.2, true)] else (cutPages (p.2 / 4096 + 2) p.1 p.2).map fun q => (q.1, q.2, false)).flatten

/-- Two sides in step: runs with a source address, a destination address and a length that crosses no page of either. A
reason ends the transfer at its place. -/
inductive Run where
  | move (src dst n : Nat)
  | stop (reason : Nat)
deriving DecidableEq, Repr

def zipRuns (bs bd : Option Nat) : Nat → List (Nat × Nat × Bool) → List (Nat × Nat × Bool) → List Run
  | 0, _, _ => []
  | fuel + 1, (a, n, oa) :: ta, (b, m, ob) :: tb =>
    if oa ∨ ob then [.stop mdRange] else
      let k := min n m
      .move a b k :: zipRuns bs bd fuel (if n = k then ta else (a + k, n - k, oa) :: ta)
        (if m = k then tb else (b + k, m - k, ob) :: tb)
  | _ + 1, [], _ => match bs with
    | some r => [.stop r]
    | none => []
  | _ + 1, _, [] => match bd with
    | some r => [.stop r]
    | none => []

/-- The bytes that a region of the device holds. -/
def State.regionBytes (s : State) (a n : Nat) : List Byte :=
  if regionOf a = 0 then s.sram.readBytes blank (offsetOf a) n
  else if regionOf a = 1 then s.cellar.readBytes blank (offsetOf a) n
  else s.flash.readBytes erased (offsetOf a) n

/-- Data written to a region (R446, R452); a flash page program ends in the flash at once. -/
def regionWrite (a : Nat) (l : List Byte) : Prog :=
  match hostOf a with
  | some h => send (.hostWrite h (offsetOf a) l false)
  | none =>
    if regionOf a = 0 then .act (.sramWrite (offsetOf a) l)
    else if regionOf a = 1 then .act (.cellarWrite (offsetOf a) l)
    else block [send (.flash "program" (offsetOf a) l.length), .act (.flashProgram (offsetOf a) l)]

/-- The source of a fill: the constant, repeated from the first byte (R447). -/
def fillBytes (k from_ n : Nat) : List Byte := (List.range n).map fun i => BitVec.ofNat 8 (k / 256 ^ ((from_ + i) % 8))

/-- Read a piece: from the device's memory, or from the data the host returned, which is used up. -/
def readPiece (s : State) (c a n : Nat) (host : List Byte) (fail : Option Nat) (done : Nat) :
    Except Nat (List Byte) × List Byte :=
  match s.dataRefusal c a n false with
  | some r => (.error r, host)
  | none =>
    if fail.any fun k => decide (k < done + n) then (.error mdReadErr, host)
    else if (hostOf a).isSome then
      (if host.length < n then (.error mdReadErr, host) else (.ok (host.take n), host.drop n))
    else if regionOf a = 2 ∧ s.flashSize < offsetOf a + n then (.error mdReadErr, host)
    else (.ok (s.regionBytes a n), host)

/-- The first byte in which two strings differ. -/
def firstDiff : List Byte → List Byte → Option Nat
  | a :: t, b :: u => if a = b then (firstDiff t u).map (· + 1) else some 0
  | _, _ => none

/-- What is left of the window clamp and the flash's bus error after a refused access (R116, R571). -/
def refusedNote (s : State) (c a n reason : Nat) (write : Bool) : Prog :=
  block [when (reason == mdWindow) (windowClamp s c a n write),
    when (reason == mdReadErr && regionOf a == 2 && decide (s.flashSize < offsetOf a + n)) (flashError (offsetOf a))]

/-- Run a descriptor's transfer from byte `done` on; `k` takes the status (1 OK, 2 BAD, 3 MISMATCH), the reason and the
bytes done. -/
def mdmaMove (c mode : Nat) (k : Nat → Nat → Nat → Prog) (w0 : Nat) (x : MdmaData) :
    List Run → List Byte → List Byte → Nat → Prog
  | [], _, _, done => k 1 0 done
  | .stop r :: _, _, _, done => k 2 r done
  | .move a b n :: t, hs, hd, done => .read fun s =>
    let rd := if mode = 1 then (Except.ok (fillBytes w0 done n), hs) else readPiece s c a n hs x.readFail done
    match rd.1 with
    | .error r => block [refusedNote s c a n r false, k 2 r done]
    | .ok bytes =>
      if mode = 2 then
        let other := readPiece s c b n hd x.readFail done
        match other.1 with
        | .error r => block [refusedNote s c b n r false, k 2 r done]
        | .ok l => match firstDiff bytes l with
          | some i => k 3 0 (done + i)
          | none => mdmaMove c mode k w0 x t rd.2 other.2 (done + n)
      else match s.dataRefusal c b n true with
        | some r => block [refusedNote s c b n r true, k 2 r done]
        | none =>
          if regionOf b = 2 ∧ (x.writeFail.any fun f => decide (f < done + n)) then
            block [flashError (offsetOf b), raise R.FSPI_EVENT 1, .act .draw, .act (.flashReplace (offsetOf b) (freeBytes s.free n)),
              k 2 mdWriteErr done]
          else block [regionWrite b bytes, mdmaMove c mode k w0 x t rd.2 hd (done + n)]

/-! The cellar's written bits (R468). -/

/-- Join an interval to a sorted list of disjoint intervals. -/
def joinInterval (lo hi : Nat) : List (Nat × Nat) → List (Nat × Nat)
  | [] => [(lo, hi)]
  | (a, b) :: t =>
    if hi < a then (lo, hi) :: (a, b) :: t
    else if b < lo then (a, b) :: joinInterval lo hi t
    else joinInterval (min lo a) (max hi b) t

/-- All 384 regions are written. -/
def State.cellarFull (s : State) : Bool := s.filled == [(0, 393216)]

/-- Whole 64-byte units of the cellar have been written. -/
def cellarFilled (a n : Nat) : Prog := .read fun s =>
  let lo := (a + 63) / 64
  let hi := (a + n) / 64
  when (decide (lo < hi) && s.domOn domPkt)
    (block [.act (.filled (joinInterval lo hi s.filled)),
      .read fun t => when (t.cellarFull && !t.bit F.CEL_STAT_init_done)
        (block [setF F.CEL_STAT_init_done 1, raise R.CEL_EVENT 0])])

/-- The written bits of what a descriptor has written, piece by piece. -/
def sideFilled : List (Nat × Nat) → Nat → Prog
  | [], _ => .skip
  | (a, n) :: t, done =>
    let m := min n done
    block [when (regionOf a == 1) (cellarFilled (offsetOf a) m), sideFilled t (done - m)]

/-! Completion (R446, R455 to R465). -/

/-- A format error of R451 that shows in the descriptor itself. -/
def descFormatBad (d : DescX) : Bool :=
  let mode := d.w2 / 2 ^ 32 % 16
  let len := d.w2 % 2 ^ 32
  let sf := bitOf d.w2 36
  let df := bitOf d.w2 37
  let sg := bitOf d.w2 38
  let dg := bitOf d.w2 39
  let fill := mode == 1
  decide (2 < mode) || (!fill && sf && sg) || (df && dg) ||
  (!fill && sf && (d.w0 % 8 != 0 || len % 8 != 0)) || (df && (d.w1 % 8 != 0 || len % 8 != 0)) ||
  (!fill && sg && d.w0 % 16 != 0) || (dg && d.w1 % 16 != 0) ||
  d.w2 / 2 ^ 40 % 16 != 0 || d.w2 / 2 ^ 48 != 0

/-- The next pointer of word 3. -/
def nextPtr (w3 : Nat) : Nat := w3 / 32 * 32

/-- The engine reads a tail's word 3 again (R461): what SRAM holds, or what the host returned (none = the read failed);
`k` takes the next pointer where `end` = 0. -/
def reread (c a : Nat) (host : Option Nat) (k : Option Nat → Prog) : Prog := .read fun s =>
  let w := if (hostOf a).isSome then host else some (s.sramDesc a).w3
  match s.descRefusal c a 32 false, w with
  | some sub, _ => chanFault c sub a
  | none, none => chanFault c 4 a
  | none, some w3 => k (if w3 % 2 = 1 then none else some (nextPtr w3))

/-- The descriptor is over: its successor, or AT_END (R460, R461). -/
def chanNext (c a : Nat) (d : DescX) (host : Option Nat) : Prog := .read fun s =>
  let x := s.chan c
  if d.w3 % 2 = 0 then chanFetch c (nextPtr d.w3)
  else match x.next with
    | some n => chanFetch c n
    | none => reread c a host fun o => match o with
      | some n => chanFetch c n
      | none => block [setF (F.MCH_STAT_state c) mcAtEnd, raise (R.MCH_EVENT c) 1,
          updChan c fun y => { y with cur := none, want := none }]

/-- A descriptor's status is written and its completion counted (R446, R448, R459, R464). -/
def chanFinish (c status reason done : Nat) (wbFail : Bool) (host : Option Nat) : Prog := .read fun s =>
  ifSome (s.chan c).cur fun ad =>
    let a := ad.1
    let d := ad.2
    block [chanFree c,
      when (status == 2) (block [setF (F.MCH_STAT_bad_reason c) reason, setWide (R.MCH_LAST_BAD c) 2 a,
        raise (R.MCH_EVENT c) 2, emit 0x08 kDescBad 0 reason (a % 2 ^ 32)]),
      when (status == 3) (block [setF (F.MCH_CMP_OFS_ofs c) done, setWide (R.MCH_LAST_BAD c) 2 a, raise (R.MCH_EVENT c) 3]),
      addWide (R.MCH_BYTES c) 2 done, setF (F.MCH_REMAIN_bytes c) (d.w2 % 2 ^ 32 - done),
      .read fun t =>
        match (if wbFail then some 5 else (t.descRefusal c a 32 true).map fun _ => 5) with
        | some sub => chanFault c sub a
        | none => block [regionWrite (a + 21) [BitVec.ofNat 8 (status * 16)],
            addWide (R.MCH_DONE c) 2 1,
            when (bitOf d.w3 1) (block [raise (R.MCH_EVENT c) 0, wrapAdd (F.MCH_IRQ_COUNT_count c) 1,
              when (!stewardChan c) (send (.gaffer "mdma"))]),
            if status = 3 ∧ s.bit (F.MCH_CFG_halt_mismatch c) then chanHalt c 9 a
            else chanNext c a d host]]

/-- The heads whose host memory a descriptor has written. -/
def sideHosts (l : List (Nat × Nat)) : List Nat := (l.filterMap fun p => hostOf p.1).eraseDups

/-- The data has moved: with CFG.sync, a zero-length read to each head written comes before the status (R458). -/
def chanMoved (c : Nat) (dst : Side) (wbFail : Bool) (host : Option Nat) (status reason done : Nat) : Prog := .read fun s =>
  let hs := if s.bit (F.MCH_CFG_sync c) && decide (0 < done) then sideHosts dst.pieces else []
  block [sideFilled dst.pieces done,
    if hs.isEmpty then chanFinish c status reason done wbFail host
    else block [updChan c fun x => { x with sync := hs, result := (status, reason, done) },
      each hs fun h => block [takeUnits h 1, send (.hostRead h 0 0)]]]

/-- MDMA_DESC_COMPLETE (R446 to R459, R464): the descriptor in progress moves its data and completes. A descriptor that
touches the flash waits until no program, erase or buffered page keeps the port. -/
def mdmaDescComplete (c : Nat) (x : MdmaData) (wbFail : Bool) (host : Option Nat) : Prog := .read fun s =>
  let ch := s.chan c
  ifSome ch.cur fun ad =>
    let d := ad.2
    let len := d.w2 % 2 ^ 32
    let mode := d.w2 / 2 ^ 32 % 16
    let src := if mode = 1 then ⟨[(2 ^ 56, len)], none⟩ else sideOf s c d.w0 len (bitOf d.w2 36) (bitOf d.w2 38) x.srcList
    let dst := sideOf s c d.w1 len (bitOf d.w2 37) (bitOf d.w2 39) x.dstList
    let flash := (src.pieces ++ dst.pieces).any fun p => regionOf p.1 == 2
    when (s.mcState c == mcRunning && ch.sync.isEmpty && (ch.due.isEmpty || ch.lost) && (!flash || (s.fport.op.isNone && s.fport.bufs.isEmpty)))
      (if descFormatBad d then chanMoved c ⟨[], none⟩ wbFail host 2 mdFormat 0
       else if len = 0 then chanMoved c ⟨[], none⟩ wbFail host 1 0 0
       else if ch.lost then chanMoved c ⟨[], none⟩ wbFail host 2 mdReadErr 0
       else
         let a := if mode = 1 then (dst.cut.map fun p => (2 ^ 56, p.2.1, false)) else src.cut
         let runs := zipRuns src.bad dst.bad (src.cut.length + dst.cut.length + 2) a dst.cut
         mdmaMove c mode (chanMoved c (if mode = 2 then ⟨[], none⟩ else dst) wbFail host) d.w0 x runs x.src x.dst 0)

/-- MDMA_SYNC_COMPLETION (R458): the zero-length read to a head completes, or fails as a data read does. -/
def mdmaSyncCompletion (c h : Nat) (failed wbFail : Bool) (host : Option Nat) : Prog := .read fun s =>
  let x := s.chan c
  when (x.sync.contains h)
    (block [freeUnits h 1,
      updChan c fun y => { y with sync := y.sync.erase h, result := if failed then (2, mdReadErr, y.result.2.2) else y.result },
      .read fun t => when (t.chan c).sync.isEmpty
        (let r := (t.chan c).result
         chanFinish c r.1 r.2.1 r.2.2 wbFail host)])

/-! Control (R460, R461, R466, R467). -/

/-- MCH_ENABLE (R460): a write of CTL.en = 1. -/
def mchEnable (c : Nat) : Prog := .read fun s =>
  when (s.mcState c == mcOff)
    (block [setF (F.MCH_CTL_en c) 1, setF (F.MCH_STAT_state c) mcRunning, setF (F.MCH_STAT_halt_cause c) 0,
      setWide (R.MCH_CUR c) 2 (s.wide (R.MCH_FIRST c) 2), setWide (R.MCH_DONE c) 2 0, setWide (R.MCH_BYTES c) 2 0,
      setF (F.MCH_HOPS_hops c) 0, setF (F.MCH_REMAIN_bytes c) 0, updChan c fun _ => {}, chanFetch c (s.wide (R.MCH_FIRST c) 2)])

/-- A register takes an undefined value (log entry 1). -/
def freeReg (off : Nat) : Prog := withFree fun w => setReg off w

/-- The destination bytes of a descriptor in progress are undefined after a disable (R466): every piece of the device's
memories that it could have reached. -/
def undefinedDst (c : Nat) (d : DescX) : Prog := .read fun s =>
  let mode := d.w2 / 2 ^ 32 % 16
  let dst := sideOf s c d.w1 (d.w2 % 2 ^ 32) (bitOf d.w2 37) (bitOf d.w2 39) []
  when (mode != 2 && !descFormatBad d)
    (each dst.pieces fun p => .read fun t =>
      when ((hostOf p.1).isNone && (t.dataRefusal c p.1 p.2 true).isNone)
        (block [.act .draw,
          if regionOf p.1 = 2 then .act (.flashReplace (offsetOf p.1) (freeBytes t.free p.2))
          else if regionOf p.1 = 1 then .act (.cellarWrite (offsetOf p.1) (freeBytes t.free p.2))
          else .act (.sramWrite (offsetOf p.1) (freeBytes t.free p.2))]))

/-- MCH_DISABLE (R460, R466): a write of CTL.en = 0. -/
def mchDisable (c : Nat) : Prog := .read fun s =>
  let x := s.chan c
  block [setF (F.MCH_CTL_en c) 0, chanFree c, each x.sync fun h => freeUnits h 1,
    when (s.mcState c == mcRunning)
      (block [ifSome x.cur fun ad => undefinedDst c ad.2,
        freeReg (R.MCH_CUR c), freeReg (R.MCH_CUR c + 4), freeReg (R.MCH_REMAIN c), freeReg (R.MCH_DONE c),
        freeReg (R.MCH_DONE c + 4), freeReg (R.MCH_BYTES c), freeReg (R.MCH_BYTES c + 4),
        withFree fun w => setF (F.MCH_HOPS_hops c) w.toNat]),
    setF (F.MCH_STAT_state c) mcOff, setF (F.MCH_STAT_halt_cause c) 0, updChan c fun _ => {}]

/-- Every channel is disabled (R467). -/
def mdmaStop : Prog := .read fun s =>
  each (List.range 16) fun c => when (s.bit (F.MCH_CTL_en c) || s.mcState c != mcOff) (mchDisable c)

/-- MCH_DOORBELL (R461, R463). -/
def mchDoorbell (c : Nat) (host : Option Nat) : Prog := .read fun s =>
  let x := s.chan c
  when (s.mcState c == mcRunning || s.mcState c == mcAtEnd)
    (block [setF (F.MCH_HOPS_hops c) 0,
      ifSome x.tail fun a => reread c a host fun o => ifSome o fun n =>
        if s.mcState c = mcAtEnd then block [setF (F.MCH_STAT_state c) mcRunning, chanFetch c n]
        else updChan c fun y => { y with next := some n }])

/-- A channel's read lacks its completion (R402): a descriptor read faults the channel, a data read fails. -/
def mdmaTimeout (c h tag : Nat) : Prog := .read fun s =>
  let x := s.chan c
  let out := x.units.any fun u => u.1 == h
  when (out || x.sync.contains h)
    (block [emit (0x0C + h) kBusError 2 0 tag, raise (R.HEAD_EVENT h) 5,
      if x.fetching then chanFault c 4 (x.want.getD 0)
      else if x.sync.contains h then mdmaSyncCompletion c h true false none
      else block [chanFree c, updChan c fun y => { y with lost := true }]])

/-- A head is lost (R394, R454): the channel reads still outstanding to it fail. -/
def mdmaHeadLost (h : Nat) : Prog := .read fun s =>
  each (List.range 16) fun c =>
    let x := s.chan c
    block [when (x.fetching && x.units.any fun u => u.1 == h) (chanFault c 4 (x.want.getD 0)),
      when (!x.fetching && x.units.any fun u => u.1 == h) (block [chanFree c, updChan c fun y => { y with lost := true }]),
      when (x.sync.contains h) (mdmaSyncCompletion c h true false none)]

/-- The channels in the order of service (R456): the highest priority first. -/
def State.chanTurn (s : State) : List Nat :=
  [3, 2, 1, 0].flatMap fun p => (List.range 16).filter fun c => s.f (F.MCH_CFG_pri c) == p

/-- Channels that wait for budget go on once it is there. -/
def mdmaServe : Prog := .read fun s =>
  each s.chanTurn fun c => .read fun t =>
    let x := t.chan c
    when (s.mcState c == mcRunning) (block [chanTake c, when (!x.fetching) (ifSome x.want fun a => chanFetch c a)])

/-- The MDMA.STAT view: channels HALTED above, RUNNING below. -/
def State.mdmaStat (s : State) : Nat :=
  maskOf ((List.range 16).map fun c => s.mcState c == mcRunning) + 2 ^ 16 * maskOf ((List.range 16).map fun c => s.mcState c == mcHalted)

end Sys2Proof.Machine
end

