-- ==== Sys2Proof/Machine/Heads.lean ====
section
/-!
DEFINITION. Host heads and the service mailboxes (chapter 12): head states, loss, attach, stewardship, votes, address
translation, SPDM, the mailbox commands.
-/
namespace Sys2Proof.Machine

/-- The states of a head (R391). -/
def hdDown : Nat := 0
def hdLink : Nat := 1
def hdAttached : Nat := 2
def hdLostDown : Nat := 3
def hdLostLink : Nat := 4
def State.hdState (s : State) (h : Nat) : Nat := s.f (F.HEAD_STAT_state h)

/-! Resetting ranges of registers. -/

/-- A 64 KiB block returns to its reset values. -/
def resetBlock (b : Nat) (keep : Nat → Bool) : Prog := block [resetRange (b * 0x10000) 0x10000 keep, .act (.undoDrop b)]

/-! Votes (R37, R409, R469). -/

/-- A vote: any value but PARK, STANDBY and RUN counts as RUN (R469). -/
def voteOf (v : Nat) : Nat := if v = 1 ∨ v = 2 then v else 4

/-- The target: the highest-power vote, or the keeper's where it carries force (R409). -/
def State.voteTarget (s : State) : Nat :=
  let keeper := s.f F.PWR_VOTES_keeper
  let heads := (List.range 4).filterMap fun h =>
    let n := s.f F.PWR_VOTES_heads / 16 ^ h % 16
    if 8 ≤ n then some (n % 8) else none
  if s.bit F.PWR_VOTES_keeper_force then keeper else heads.foldl max keeper

def voteShow : Prog := .read fun s => setF F.PWR_VOTES_target s.voteTarget

/-- A head's nibble: its vote, or none. -/
def setVote (h : Nat) (v : Option Nat) : Prog :=
  block [setF ⟨F.PWR_VOTES_heads.off, F.PWR_VOTES_heads.lo + 4 * h + 3, F.PWR_VOTES_heads.lo + 4 * h⟩
      (match v with | some x => 8 + x | none => 0), voteShow]

/-- HOST_REQ_WRITE (R409, R469): the holder's vote. -/
def hostReqWrite (v : Nat) : Prog := .read fun s =>
  block [setF F.PWR_HOST_REQ_vote (voteOf v), when (s.attached s.holder) (setVote s.holder (some (voteOf v)))]

/-- KEEPER_REQ_WRITE (R409, R469). In SAFE mode requests are refused (R37, R545): the register is stored, the vote is not
taken. -/
def keeperReqWrite (v : Nat) (force : Bool) : Prog := .read fun s =>
  block [setF F.PWR_KEEPER_REQ_vote (voteOf v), setF F.PWR_KEEPER_REQ_force (b2n force),
    when (!s.bit F.FLT_STAT_safe)
      (block [setF F.PWR_VOTES_keeper (voteOf v), setF F.PWR_VOTES_keeper_force (b2n force), voteShow])]

/-! Stewardship (R34, R397, R615). -/

/-- The head that is to hold stewardship now. -/
def State.holderNow (s : State) : Nat :=
  if s.f F.GLB_STRAPS_headcfg = 0 then 0
  else if s.attached (s.f F.GLB_MODE_steward) then s.f F.GLB_MODE_steward else s.f F.GLB_MODE_deputy

/-- STAT.rights of every head. -/
def rightsShow : Prog := .read fun s =>
  each (List.range 4) fun h => setF (F.HEAD_STAT_rights h) (b2n (s.attached h && s.holder == h && s.mouldOk))

/-- The holder takes its first value with a mould, without an event. -/
def holderInit : Prog := .read fun s =>
  when s.mouldOk (block [setF F.GLB_MODE_holder s.holderNow, rightsShow])

/-- The holder changes on one edge (R397, R615): the launch groups of the old holder are disarmed (R398). -/
def holderUpdate : Prog := .read fun s =>
  let new := s.holderNow
  block [when (s.mouldOk && new != s.holder)
      (block [setF F.GLB_MODE_holder new, raise R.GLB_EVENT 2, raise (R.HEAD_EVENT s.holder) 3, raise (R.HEAD_EVENT new) 2,
        disarmHead s.holder, setF F.FLT_IRQ_REARM_rearm (b2n (s.attached new))]),
    rightsShow]

/-! The mailbox (R403 to R408): index 0 to 3 for the heads, 4 for the keeper. -/

def mbxBase (m : Nat) : Nat := if m < 4 then R.HEAD_MBX_CTL m else R.HSPI_MBX_CTL
def mbxState (m : Nat) : Field := if m < 4 then F.HEAD_MBX_STAT_state m else F.HSPI_MBX_STAT_state
def mbxTag (m : Nat) : Field := if m < 4 then F.HEAD_MBX_STAT_tag m else F.HSPI_MBX_STAT_tag
def mbxReq (m i : Nat) : Nat := if m < 4 then R.HEAD_MBX_REQ m i else R.HSPI_MBX_REQ i
def mbxRsp (m i : Nat) : Nat := if m < 4 then R.HEAD_MBX_RSP m i else R.HSPI_MBX_RSP i
def mbIdle : Nat := 0
def mbPosted : Nat := 1
def mbBusy : Nat := 2
def mbDone : Nat := 3
def State.mbx (s : State) (m : Nat) : Nat := s.f (mbxState m)

/-- Status codes of a reply (R406). -/
def rsOk : Nat := 0
def rsBusy : Nat := 2
def rsDenied : Nat := 3
def rsUnknown : Nat := 4
def rsBadArg : Nat := 5
def rsState : Nat := 6
def rsConflict : Nat := 7
def rsAborted : Nat := 8
def rsNoFw : Nat := 9

/-- The command, length and payload words of a request (R406). -/
def State.mbxCmd (s : State) (m : Nat) : Nat := bits (s.reg (mbxReq m 0)) 15 0
def State.mbxLen (s : State) (m : Nat) : Nat := bits (s.reg (mbxReq m 0)) 23 16
def State.mbxArg (s : State) (m i : Nat) : Nat := (s.reg (mbxReq m i)).toNat

/-- A reply: status and payload; the state becomes DONE and the mailbox message is raised (R381, R404, R567). -/
def mbxReply (m status : Nat) (payload : List Word) : Prog := .read fun s =>
  block [setReg (mbxRsp m 0) (BitVec.ofNat 32 (status + 2 ^ 16 * payload.length + 2 ^ 24 * bits (s.reg (mbxReq m 0)) 31 24)),
    each payload.zipIdx fun e => setReg (mbxRsp m (e.2 + 1)) e.1,
    setF (mbxState m) mbDone, updHead m fun x => { x with waitPort := none, waitLaunch := none },
    if m < 4 then block [raise (R.HEAD_EVENT m) 4, msix m (s.f (F.HEAD_IRQ_CFG_mbx_vec m))] else raise R.HSPI_KEVENT 0]

/-- MBX_POST (R404): a write of post from a path. -/
def mbxPost (path m : Nat) : Prog := .read fun s =>
  if s.mbx m = mbIdle then block [setF (mbxState m) mbPosted, setF (mbxTag m) (bits (s.reg (mbxReq m 0)) 31 24)]
  else denied path (mbxBase m) true

/-- MBX_ACK (R404). -/
def mbxAck (path m : Nat) : Prog := .read fun s =>
  if s.mbx m = mbDone then setF (mbxState m) mbIdle else denied path (mbxBase m) true

/-- A request ends ABORTED; a launch group that it armed is disarmed (R405, R408). -/
def mbxEnds (m : Nat) : Prog := .read fun s =>
  when (s.mbx m == mbPosted || s.mbx m == mbBusy)
    (block [ifSome (s.head m).waitLaunch fun g => lgDisarm g, mbxReply m rsAborted []])

/-- MBX_ABORT (R405). -/
def mbxAbort (m : Nat) : Prog := mbxEnds m

/-- NO_FW (R405): a request still POSTED after 10 ms. -/
def mbxNoFw (m : Nat) : Prog := .read fun s => when (s.mbx m == mbPosted) (mbxReply m rsNoFw [])

/-- Firmware runs and answers. -/
def State.fwRuns (s : State) : Bool := s.power.gaffer && !s.power.halted

/-- MBX_TAKE (R404): the Gaffer takes a posted request. -/
def mbxTake (m : Nat) : Prog := .read fun s => when (s.mbx m == mbPosted && s.fwRuns) (setF (mbxState m) mbBusy)

/-! Losing and resetting a head (R390 to R395). -/

/-- The ports of a head's partition. -/
def State.headPorts (s : State) (h : Nat) : List Nat := allPorts.filter fun p => s.portHead p == some h

/-- The loss of an ATTACHED head (R394): rings, reads, mailbox, ports, vote, rights. -/
def headLost (h cause newState : Nat) : Prog := .read fun s =>
  block [setF (F.HEAD_STAT_state h) newState, setF (F.HEAD_STAT_lost_cause h) cause, setF (F.HEAD_STAT_draining h) 1,
    each (List.range 512) fun q => when (s.qpHead q == some h) (resetQp q),
    setF (F.HEAD_REQ_STAT_now h) 0, mdmaHeadLost h, mbxEnds h,
    each (s.headPorts h) orphanEnter, setVote h none,
    emit (0x0C + h) kLinkDrop 0 cause h,
    when (newState == hdLostLink) (raise (R.HEAD_EVENT h) 1), holderUpdate]

/-- DETACH, HEARTBEAT_EXPIRE and BME_CLEAR take an ATTACHED head to LOST_LINK (R391). -/
def detach (h : Nat) : Prog := .read fun s => when (s.attached h) (headLost h 7 hdLostLink)
def heartbeatExpire (h : Nat) : Prog := .read fun s =>
  when (s.attached h && s.f (F.HEAD_HB_CFG_hb_ms h) != 0) (headLost h 8 hdLostLink)
def bmeClear (h : Nat) : Prog := .read fun s =>
  when (s.head h).bme (block [updHead h fun x => { x with bme := false }, when (s.attached h) (headLost h 9 hdLostLink)])

/-- The interval of R396 begins again. -/
def hbRestart (h : Nat) : Prog := .read fun s => updHead h fun x => { x with hb := s.now }

/-- HB_KICK (R396). -/
def hbKick (h : Nat) : Prog := hbRestart h

/-- The bits of HEAD[h].STAT that a head reset keeps: epoch and lost cause (R523). -/
def headKept (h off : Nat) : Bool := off == R.HEAD_MEM_REJ h

/-- The HEAD[h] block returns to its reset values (R392, R523), and what the head holds beside it. -/
def headRegs (h : Nat) (keep : Bool) : Prog := .read fun s =>
  block [resetRange (0x100000 + h * 0x10000) 0x10000 fun o => keep && headKept h o, .act (.undoDrop (0x10 + h)),
    when keep (block [setF (F.HEAD_STAT_epoch h) (s.f (F.HEAD_STAT_epoch h)),
      setF (F.HEAD_STAT_lost_cause h) (s.f (F.HEAD_STAT_lost_cause h))]),
    .act (.head h {}), deriveHead h]

/-- A head reset (R392, R393): LOST_DOWN from ATTACHED and the lost states, DOWN from LINK. -/
def headReset (h cause : Nat) : Prog := .seq
  (.read fun s => when (s.attached h) (headLost h cause hdLostDown)) <| .read fun s =>
  let st := s.hdState h
  let before := (List.range 64).map fun p => (p, s.portHead p)
  when (s.headExists h && s.domOn domCxc)
    (block [
      headRegs h true, setF (F.HEAD_STAT_state h) (if st = hdLostDown ∨ st = hdLostLink then hdLostDown else hdDown),
      when (st == hdLostDown || st == hdLostLink) (setF (F.HEAD_STAT_lost_cause h) cause),
      setF (F.HEAD_STAT_draining h) (s.f (F.HEAD_STAT_draining h)),
      disarmHead h, adoptHead h,
      .read fun t => each before fun e =>
        let now := t.portHead e.1
        block [when (e.2 == some h && now.isNone) (orphanEnter e.1),
          ifSome now fun k => when (e.2 != now && t.attached k) (orphanExit e.1)],
      .read fun t => each (List.range 512) fun q => when (s.qpHead q == some h && t.qpHead q != some h) (resetQp q),
      adoptFinish, updHead h fun x => { x with resetting := true }, holderUpdate])

/-- HEAD_RESET (R390, R392): an IDE failure is logged before. -/
def headResetEvent (h cause : Nat) : Prog := .read fun s =>
  block [when (cause == 6 && s.domOn domCxc) (block [emit (0x0C + h) kBusError 2 0x100 0, raise (R.HEAD_EVENT h) 7]),
    headReset h cause, when (cause == 6 && s.domOn domCxc) (raise (R.HEAD_EVENT h) 7)]

/-- HEAD_RESET_END (R360, R392): a commit that waited for it applies. -/
def headResetEnd (h : Nat) : Prog := .read fun s =>
  when (s.head h).resetting (block [updHead h fun x => { x with resetting := false }, lateApply (blkHead h)])

/-- DRAIN_DONE (R394). -/
def drainDone (h : Nat) : Prog := setF (F.HEAD_STAT_draining h) 0

/-- LINK_L0 (R372, R391): the link is up, with a rate code and a width that the strap allows. -/
def linkL0 (h rate width : Nat) : Prog := .read fun s =>
  let st := s.hdState h
  when (s.headExists h && s.domOn domCxp && s.domOn domCxc && !(s.head h).resetting && (st == hdDown || st == hdLostDown)
      && decide (1 ≤ rate ∧ rate ≤ 3) && [1, 2, 4, 8, 16].contains width && decide (width ≤ s.strapWidth h))
    (block [setF (F.HEAD_STAT_state h) (if st = hdDown then hdLink else hdLostLink), setF (F.HEAD_STAT_rate h) rate,
      setF (F.HEAD_STAT_width h) width])

/-! Attach (R399, R400). -/

/-- What the driver has set in configuration space, outside ATTACHED. -/
def hostCfg (h : Nat) (bme ats fnMask : Bool) (vecs : List Nat) : Prog :=
  block [updHead h fun x => { x with bme := bme, fnMask := fnMask, openVecs := vecs }, setF (F.HEAD_STAT_ats_en h) (b2n ats)]

/-- What a head presents to its host (R3): vendor identifier, device ID and class code. -/
def State.identity (s : State) (h : Nat) : Nat × Nat × Nat :=
  (Config.vendorId.toNat, (s.head h).device.toNat, (s.head h).classCode.toNat)

/-- ATTACH: a write of HEAD[h].ATTACH.attach. -/
def attach (h : Nat) (bme ats fnMask : Bool) (vecs : List Nat) : Prog := .seq
  (.read fun s => when (s.hdState h == hdLink || s.hdState h == hdLostLink) (hostCfg h bme ats fnMask vecs)) <| .read fun s =>
  let st := s.hdState h
  let result := fun (r : Nat) => setF (F.HEAD_ATTACH_result h) r
  if st ≠ hdLink ∧ st ≠ hdLostLink then result 2
  else if !s.mouldOk then result 3
  else if !(s.head h).bme then result 4
  else if s.bit (F.HEAD_STAT_draining h) then result 5
  else block [result 1, wrapAdd (F.HEAD_STAT_epoch h) 1, setF (F.HEAD_STAT_state h) hdAttached,
    setF (F.HEAD_IRQ_REARM_rearm h) 1, setF (F.HEAD_REQ_STAT_peak h) 0, setF (F.HEAD_REQ_STAT_now h) 0,
    setVote h (some 4), hbRestart h, raise (R.HEAD_EVENT h) 0, each (s.headPorts h) orphanExit, holderUpdate,
    .read fun t => when (t.holder == h) (setF F.FLT_IRQ_REARM_rearm 1)]

/-! The link's protocol (R375, R376, R380, R384, R385). -/

/-- A head's link is up. -/
def State.linkTrained (s : State) (h : Nat) : Bool :=
  s.hdState h == hdLink || s.hdState h == hdAttached || s.hdState h == hdLostLink

/-- CXL_MEM_REQUEST (R10, R376). -/
def cxlMemRequest (h : Nat) : Prog := .read fun s =>
  when (s.linkTrained h) (block [satAdd (F.HEAD_MEM_REJ_count h) 1, raise (R.HEAD_EVENT h) 6, send (.cxl h "unsupported_request" 0)])

/-- H2D_SNOOP (R375). -/
def h2dSnoop (h addr : Nat) : Prog := .read fun s => when (s.linkTrained h) (send (.cxl h "RspIHitI" addr))

/-- INVALIDATE_REQUEST (R384). -/
def invalidateRequest (h addr len : Nat) : Prog := .read fun s =>
  when (s.linkTrained h)
    (block [updHead h fun x => { x with
        invalidating := true
        invRings := s.liveRings.filter (fun r => s.qpHead r.1 == some h && (s.ring r.1 r.2).goWait)
        atc := x.atc.filter fun e => !(decide (e.1 < addr + len) && decide (addr < e.1 + e.2)) },
      atcShow h])

/-- INVALIDATE_COMPLETE (R384): every cache-landing write issued before has its response. -/
def invalidateComplete (h : Nat) : Prog := .read fun s =>
  when ((s.head h).invalidating && (s.head h).invRings.all fun r => s.qpHead r.1 != some h || !(s.ring r.1 r.2).goWait)
    (block [updHead h fun x => { x with invalidating := false, invRings := [] }, satAdd (F.HEAD_ATC_STAT_invals h) 1,
      send (.cxl h "invalidate_completion" 0)])

/-- ATC_FLUSH (R385). -/
def atcFlushWrite (h : Nat) : Prog := atcFlush h

/-- ATS_ENABLE_CHANGE (R385). -/
def atsEnableChange (h : Nat) (on : Bool) : Prog := .read fun s =>
  when (s.linkTrained h && s.bit (F.HEAD_STAT_ats_en h) != on)
    (block [setF (F.HEAD_STAT_ats_en h) (b2n on), atcFlush h, when (!on) (atsOffRings h)])

/-- MSIX_UNMASK (R380): a vector, or with none the function, is unmasked; pending messages are sent. -/
def msixUnmask (h : Nat) (vec : Option Nat) : Prog := .read fun s =>
  let x := s.head h
  let opens := match vec with
    | some v => if x.openVecs.contains v then x.openVecs else v :: x.openVecs
    | none => x.openVecs
  let fn := if vec.isNone then false else x.fnMask
  let due := if fn then [] else x.pendVecs.filter fun v => opens.contains v
  when (s.linkTrained h)
    (block [updHead h fun y => { y with openVecs := opens, fnMask := fn, pendVecs := y.pendVecs.filter fun v => !due.contains v },
      when (s.attached h && x.bme) (each due fun v => send (.msix h v))])

/-! The summary interrupt (R65, R66, R381). -/

/-- The SQ registers of a queue pair hold an unmasked event. -/
def State.qpAny (s : State) (q : Nat) : Bool := sqAny s (R.QP_EVENT q)

/-- The global blocks of GLB.SUMMARY, in its order. -/
def sumBlocks : List Nat :=
  [0x00, 0x01, 0x02, 0x03, 0x04, 0x05, 0x06, 0x07, 0x08, 0x09, 0x0A, 0x0B, 0x0C, 0x0D, 0x0E, 0x0F, 0x14, 0x15, 0x16, 0x17]

/-- GLB.SUMMARY as a path reads it: a head sees its own partition in bits 20 to 22. -/
def State.summary (s : State) (path : Nat) : Nat :=
  let mine := fun (o : Option Nat) => decide (4 ≤ path) || o == some path
  maskOf (sumBlocks.map fun b => blkSum s (b * 0x10000) != 0)
    + 2 ^ 20 * b2n (allPorts.any fun p => mine (s.portHead p) && blkSum s (0x1000000 + p * 0x10000) != 0)
    + 2 ^ 21 * b2n ((List.range 512).any fun q => mine (s.qpHead q) && s.qpAny q)
    + 2 ^ 22 * b2n ((List.range 4).any fun h => (decide (4 ≤ path) || h == path) && blkSum s (0x100000 + h * 0x10000) != 0)

/-- Each attached head whose summary interrupt is armed and due sends its message and disarms (R381). DESIGN CHOICE (log entry 156): no
rule arms or masks a summary interrupt to the Gaffer (R66), so none is raised; the Gaffer reads GLB.SUMMARY. -/
def summaryIrq : Prog := .read fun s =>
  each (List.range 4) fun h =>
    when (s.attached h && s.bit (F.HEAD_IRQ_REARM_rearm h) && (s.head h).bme
        && Nat.land (s.summary h) (s.f (F.HEAD_IRQ_SUM_MASK_mask h)) != 0)
      (block [setF (F.HEAD_IRQ_REARM_rearm h) 0, msix h (s.f (F.HEAD_IRQ_CFG_sum_vec h))])

/-- IRQ_REARM (R381). -/
def irqRearm (h : Nat) : Prog := setF (F.HEAD_IRQ_REARM_rearm h) 1

/-! SPDM (R387 to R389). -/

/-- A measurement (R388). -/
def State.measurement (s : State) (h i : Nat) : Option (List Byte) :=
  let zero := fun (n : Nat) => List.replicate n (0 : Byte)
  let words := fun (l : List Nat) => (l.map fun o => leBytes 4 (s.reg o).toNat).flatten
  if i = 1 then some (s.power.fwDigest ++ zero (48 - s.power.fwDigest.length))
  else if i = 2 then some (if s.mouldOk then leBytes 48 (s.wide R.MLD_ACTIVE_DIGEST 12) else zero 48)
  else if i = 3 then some (if s.mouldOk then leBytes 8 (s.wide R.MLD_ACTIVE_GEN 2) else zero 8)
  else if i = 4 then some (words [R.GLB_ID, R.GLB_LIFECYCLE, R.GLB_STRAPS, R.MLD_KEYS])
  else if i = 5 then some (if s.mouldOk then
      Config.sha384 (s.headRec h ++ ((s.mld.cls.getD h []).map (·.2)).flatten) else zero 48)
  else none

/-- SPDM_REQUEST over DOE, answered by the Gaffer whenever the head's link is trained; in SAFE only the named requests. -/
def spdmRequest (h : Nat) (r : SpdmReq) : Prog := .read fun s =>
  let safe := s.bit F.FLT_STAT_safe
  let answer := fun (name : String) (l : List Byte) => send (.spdm h name l)
  let late := fun (p : Prog) => if safe then answer "ERROR" [] else p
  when (s.linkTrained h && s.fwRuns)
    (match r with
     | .getVersion => answer "VERSION" []
     | .getCapabilities => answer "CAPABILITIES" []
     | .negotiateAlgorithms => answer "ALGORITHMS" []
     | .getDigests => answer "DIGESTS" (if s.otp.chain.isEmpty then [] else Config.sha384 s.otp.chain)
     | .getCertificate => answer "CERTIFICATE" s.otp.chain
     | .getMeasurements i => (match s.measurement h i.val with
        | some l => answer "MEASUREMENTS" l
        | none => answer "ERROR" [])
     | .challenge => late (answer "CHALLENGE_AUTH" [])
     | .keyExchange => late (block [updHead h fun x => { x with session := 1 }, answer "KEY_EXCHANGE_RSP" []])
     | .finish => late (if (s.head h).session = 1 then block [updHead h fun x => { x with session := 2 }, answer "FINISH_RSP" []] else answer "ERROR" [])
     | .endSession => late (if (s.head h).session = 2 then block [updHead h fun x => { x with session := 0 }, answer "END_SESSION_ACK" []] else answer "ERROR" [])
     | .ideKeyProg io cache => late (if (s.head h).session ≠ 2 then answer "ERROR" [] else block [setF (F.HEAD_STAT_ide_io h) (b2n (io || s.bit (F.HEAD_STAT_ide_io h))),
         setF (F.HEAD_STAT_ide_cache h) (b2n (cache || s.bit (F.HEAD_STAT_ide_cache h))), answer "KP_ACK" []])
     | .other _ => answer "ERROR" [])

/-! Mailbox commands (R407, R408). -/

def cmGetInfo : Nat := 0x0001
def cmModeVote : Nat := 0x0010
def cmAnneal : Nat := 0x0020
def cmTdr : Nat := 0x0021
def cmLaunch : Nat := 0x0030
def cmEcho : Nat := 0x00F0

/-- A command of a BUSY mailbox is carried out by firmware; a length above 63 is answered with BAD_ARG (R406), a command
for heads only from the keeper with DENIED (R407), and in SAFE everything but GET_INFO and ECHO with STATE (R545). -/
def mbxRun (m cmd : Nat) (headsOnly inSafe : Bool) (k : State → Prog) : Prog := .read fun s =>
  when (s.mbx m == mbBusy && s.mbxCmd m == cmd && s.fwRuns && (s.head m).waitPort.isNone && (s.head m).waitLaunch.isNone)
    (if 63 < s.mbxLen m then mbxReply m rsBadArg []
     else if s.bit F.FLT_STAT_safe && !inSafe then mbxReply m rsState []
     else if headsOnly && m == 4 then mbxReply m rsDenied []
     else k s)

/-- GET_INFO (R407). -/
def mbxGetInfo (m : Nat) : Prog := mbxRun m cmGetInfo false true fun s =>
  mbxReply m rsOk (Config.fwVersion s.power.fwGen :: s.reg R.GLB_MODE :: (List.range 12).map fun i => s.reg (R.MLD_ACTIVE_DIGEST + 4 * i))

/-- MODE_VOTE (R407, R409). -/
def mbxModeVote (m : Nat) : Prog := mbxRun m cmModeVote false false fun s =>
  let v := s.mbxArg m 1 % 8
  let force := bitOf (s.mbxArg m 1) 8
  if s.mbxLen m = 0 ∨ (v ≠ 1 ∧ v ≠ 2 ∧ v ≠ 4) then mbxReply m rsBadArg []
  else if m < 4 ∧ force then mbxReply m rsDenied []
  else block [
    if m < 4 then setVote m (some v)
    else block [setF F.PWR_VOTES_keeper v, setF F.PWR_VOTES_keeper_force (b2n force), voteShow],
    .read fun t => mbxReply m rsOk [BitVec.ofNat 32 (t.voteTarget + 2 ^ 8 * t.f F.GLB_MODE_mode)]]

/-- The words of TDR_EVT of a port. -/
def State.tdrWords (s : State) (p : Nat) : List Word := (List.range 8).map fun i => s.reg (R.DIAG_TDR_EVT p i)

/-- The reply to a port command whose activity has ended or been refused: state 3 = ended, 4 = refused (chapters 8, 9); a
refusal by the ledger is BUSY. -/
def portReply (m cmd p : Nat) : Prog := .read fun s =>
  let st := if cmd = cmAnneal then s.f (F.CAL_PORT_STAT_state p) else s.f (F.DIAG_TDR_STAT_state p)
  let res := if cmd = cmAnneal then s.f (F.CAL_PORT_STAT_result p) else s.f (F.DIAG_TDR_STAT_result p)
  let ledger := if cmd = cmAnneal then 6 else 7
  let aborted := if cmd = cmAnneal then 7 else 2
  let pay := if cmd = cmAnneal then [s.reg (R.CAL_PORT_STAT p)] else s.reg (R.DIAG_TDR_STAT p) :: s.tdrWords p
  if st = 1 ∨ st = 2 then updHead m fun x => { x with waitPort := some (cmd, p) }
  else mbxReply m (if st = 4 then (if res = ledger then rsBusy else rsState) else if res = aborted then rsAborted else rsOk) pay

/-- PORT_ANNEAL and PORT_TDR act as the steward's writes to CAL.PORT_CTL[p] and DIAG.TDR_CTL[p] (R407). -/
def mbxPort (m cmd : Nat) : Prog := mbxRun m cmd true false fun s =>
  let p := s.mbxArg m 1 % 64
  let force := b2n (bitOf (s.mbxArg m 1) 8)
  let noWait := b2n (bitOf (s.mbxArg m 1) 9)
  let running := if cmd = cmAnneal then s.f (F.CAL_PORT_STAT_state p) else s.f (F.DIAG_TDR_STAT_state p)
  if s.mbxLen m = 0 then mbxReply m rsBadArg []
  else if s.portHead p ≠ some m then mbxReply m rsDenied []
  else if running = 1 ∨ running = 2 then mbxReply m rsBusy []
  else if cmd = cmAnneal then
    block [setF (F.CAL_PORT_CTL_force p) force, setF (F.CAL_PORT_CTL_no_wait p) noWait, annealStart m p, portReply m cmd p]
  else block [setF (F.DIAG_TDR_CTL_force p) force, setF (F.DIAG_TDR_CTL_no_wait p) noWait, tdrStart m p, portReply m cmd p]

def mbxPortAnneal (m : Nat) : Prog := mbxPort m cmAnneal
def mbxPortTdr (m : Nat) : Prog := mbxPort m cmTdr

/-- A block of a head's partition: its ports and its own HEAD block (R31). -/
def State.inPartition (s : State) (h b : Nat) : Bool := if b < 64 then s.portHead b == some h else b == blkHead h

/-- Whether a launch mask reaches beyond a head's partition, or would trigger an activity (R408). -/
def State.launchConflict (s : State) (h mask : Nat) : Bool :=
  (wsBlocks.any fun b => !s.inPartition h b && Nat.land (s.cgSel b) mask != 0) ||
  ((s.f F.MLD_REMOULD_STAT_state == 1 || s.f F.MLD_REMOULD_STAT_state == 2) && bitOf mask (s.f F.MLD_REMOULD_CTL_cg)) ||
  (s.f F.DIAG_SWEEP_STAT_state == 2 && !s.diag.fired && bitOf mask (s.f F.DIAG_SWEEP_CTL_cg))

/-- The lowest launch group that is free. -/
def State.freeGroup (s : State) : Option Nat := (List.range 16).find? fun g =>
  let st := s.f (F.LCH_LG_STAT_state g)
  st == lgIdle || st == lgDone || st == lgDoneLate

/-- LAUNCH (R408). -/
def mbxLaunch (m : Nat) : Prog := mbxRun m cmLaunch true false fun s =>
  let mask := s.mbxArg m 1
  if s.mbxLen m < 6 ∨ mask / 2 ^ 24 ≠ 0 then mbxReply m rsBadArg []
  else if s.launchConflict m mask then mbxReply m rsConflict []
  else match s.freeGroup with
    | none => mbxReply m rsBusy []
    | some g => block [setF (F.LCH_LG_MASK_groups g) mask,
        setWide (R.LCH_LG_TIME g) 4 (s.wide (mbxReq m 2) 4),
        updHead m fun x => { x with waitLaunch := some g },
        lgArm 4 g 0 (b2n (bitOf (s.mbxArg m 6) 1)) (b2n (bitOf (s.mbxArg m 6) 0))]

/-- The reply to LAUNCH: LG.STAT, TARGET, APPLIED, LATE. -/
def launchReply (m g : Nat) : Prog := .read fun s =>
  mbxReply m rsOk (s.reg (R.LCH_LG_STAT g) :: ((List.range 4).map fun i => s.reg (R.LCH_LG_TARGET g + 4 * i))
    ++ ((List.range 4).map fun i => s.reg (R.LCH_LG_APPLIED g + 4 * i)) ++ (List.range 4).map fun i => s.reg (R.LCH_LG_LATE g + 4 * i))

/-- A group has fired and ended, and no targeted port is in NEGOTIATE or TRAIN (R408). -/
def State.launchSettled (s : State) (g : Nat) : Bool :=
  let st := s.f (F.LCH_LG_STAT_state g)
  (st == lgDone || st == lgDoneLate) &&
    (bitList 64 (s.wide (R.LCH_LG_TARGET g) 2)).all fun p => s.pst p != stNegotiate && s.pst p != stTrain

/-- LAUNCH_REPLY_TIMEOUT (R408): one second after the fire. -/
def launchReplyTimeout (m : Nat) : Prog := .read fun s =>
  ifSome (s.head m).waitLaunch fun g =>
    let st := s.f (F.LCH_LG_STAT_state g)
    when (s.mbx m == mbBusy && (st == lgApplying || st == lgDone || st == lgDoneLate)) (launchReply m g)

/-- ECHO (R407). -/
def mbxEcho (m : Nat) : Prog := mbxRun m cmEcho false true fun s =>
  mbxReply m rsOk ((List.range (s.mbxLen m)).map fun i => s.reg (mbxReq m (i + 1)))

/-- MBX_REPLY (R404, R406 to R408): the Gaffer answers what has a reply due and no row of its own: a deferred command
whose activity has ended, an unknown command, a length above 63. -/
def mbxReplyDue (m : Nat) : Prog := .read fun s =>
  let x := s.head m
  let known := [cmGetInfo, cmModeVote, cmAnneal, cmTdr, cmLaunch, cmEcho].contains (s.mbxCmd m)
  when (s.mbx m == mbBusy && s.fwRuns)
    (match x.waitPort, x.waitLaunch with
     | some (cmd, p), _ => portReply m cmd p
     | none, some g => if s.launchSettled g then launchReply m g
         else when (s.f (F.LCH_LG_STAT_state g) == lgIdle) (mbxReply m rsAborted [])
     | none, none => if 63 < s.mbxLen m then mbxReply m rsBadArg []
         else when (!known) (mbxReply m (if s.bit F.FLT_STAT_safe then rsState else rsUnknown) []))

end Sys2Proof.Machine
end

