-- ==== Sys2Proof/Machine/Collector.lean ====
section
/-!
DEFINITION. The fault collector's own parts (chapter 17): the log, FIRST, the effective reaction, the fault record as it
stands in flash.
-/
namespace Sys2Proof.Machine

/-! Kinds of R527 that the earlier files do not name. -/

def kLockstep : Nat := 0x06
def kWatchdog : Nat := 0x07
def kClockLoss : Nat := 0x0E
def kPllUnlock : Nat := 0x0F
def kSupply : Nat := 0x10
def kOvertemp : Nat := 0x11
def kRetentionLost : Nat := 0x12
def kCheckerTest : Nat := 0x16
def kCollectorSelf : Nat := 0x18
def kStartFail : Nat := 0x1B
def kTestPin : Nat := 0x1D

/-- Word 0 of a message (R524). -/
def Msg.word0 (m : Msg) : Nat := m.src * 2 ^ 24 + m.kind % 256 * 2 ^ 16 + m.cls % 8 * 2 ^ 13 + m.detail % 2 ^ 13

/-- One message is written to the log (R541): a C0 or C1 message equal to the newest entry within 1 ms counts as its repeat;
FIRST takes the first C2, C3 or C4 entry. -/
def logMsg (m : Msg) : Prog := .read fun s =>
  let next := s.f F.FLT_LOG_STAT_next
  let last := (next + 511) % 512
  let same := decide (m.cls ≤ 1) && (s.reg (R.FLT_LOG last)).toNat == m.word0 % 2 ^ 32
    && (s.reg (R.FLT_LOG last + 4)).toNat == m.w1 % 2 ^ 32
    && match s.fault.newest with
       | some t => decide (s.now ≤ t + 1000000)
       | none => false
  let full := s.bit (F.FLT_LOG_valid next)
  let words := fun (off : Nat) => block [setReg off (BitVec.ofNat 32 m.word0), setReg (off + 4) (BitVec.ofNat 32 m.w1),
    setReg (off + 8) (BitVec.ofNat 32 s.tb64), setReg (off + 12) (BitVec.ofNat 32 (s.tb64 / 2 ^ 32))]
  block [satAdd F.FLT_STAT_total 1,
    if same then satAdd (F.FLT_LOG_repeats last) 1
    else block [
      when full (block [setF F.FLT_LOG_STAT_wrapped 1, raise R.FLT_EVENT 2]),
      words (R.FLT_LOG next), setReg (R.FLT_LOG next + 16) 0, setF (F.FLT_LOG_valid next) 1,
      .read fun t => setF (F.FLT_LOG_total next) (t.f F.FLT_STAT_total),
      setF F.FLT_LOG_STAT_next (next + 1), satAdd F.FLT_LOG_STAT_since_clear 1,
      updFault fun x => { x with newest := some s.now },
      when (decide (2 ≤ m.cls) && s.reg R.FLT_FIRST == 0) (words R.FLT_FIRST)],
    when (m.cls == 3) (raise R.FLT_EVENT 1)]

/-- LOG_CLEAR (R541): the log and FIRST are empty. -/
def logClear : Prog :=
  block [each (List.range 512) fun i => setWide (R.FLT_LOG i) 8 0,
    setWide R.FLT_FIRST 4 0, setReg R.FLT_LOG_STAT 0, updFault fun x => { x with newest := none }]

/-! Reactions (R531 to R533). -/

/-- An effective reaction: an action (0 none, 1 block reset, 2 chip reset, 3 SAFE), interrupt, trap, stop ALIVE. -/
structure Reaction where
  action : Nat
  irq : Bool
  trap : Bool
  stop : Bool
deriving DecidableEq, Repr

/-- The effective reaction of a message (R531); a checker test runs none (R551). -/
def State.reaction (s : State) (m : Msg) : Reaction :=
  let b := if m.cls < 4 then bits (s.reg (F.FLT_REACT_bytes (m.src % 128)).off) (8 * m.cls + 7) (8 * m.cls) else 0
  let act0 := if 4 ≤ b / 8 % 8 then 2 else b / 8 % 8
  let trapOk := m.kind != kLockstep
  if m.kind = kCheckerTest then ⟨0, false, false, false⟩
  else if 4 ≤ m.cls then ⟨3, false, false, true⟩
  else if m.cls = 3 then ⟨if act0 < 2 then 2 else act0, true, trapOk, bitOf b 2⟩
  else ⟨if act0 = 3 then 1 else act0, bitOf b 0 || m.cls == 2, bitOf b 1 && trapOk, bitOf b 2⟩

/-! The fault record (R542, R543). -/

/-- The bytes of a log entry, or zeros. -/
def State.logBytes (s : State) (i : Nat) : List Byte :=
  ((List.range 8).map fun w => leBytes 4 (s.reg (R.FLT_LOG i + 4 * w)).toNat).flatten

/-- The 2,116 bytes of a fault record (R543). -/
def State.recordBytes (s : State) (occasion cls : Nat) : List Byte :=
  let next := s.f F.FLT_LOG_STAT_next
  let held := ((List.range 64).map fun k => (next + 511 - k) % 512).filter fun i => s.bit (F.FLT_LOG_valid i)
  let zero := fun (n : Nat) => List.replicate n (0 : Byte)
  withCrc (leBytes 4 0x52464458 ++ leBytes 2 1 ++ leBytes 1 occasion ++ leBytes 1 cls ++ leBytes 4 (s.fault.seq + 1)
    ++ leBytes 8 s.tb64 ++ leBytes 4 (s.reg R.GLB_MODE).toNat ++ leBytes 4 (s.reg R.AON_START_STAT).toNat
    ++ leBytes 5 Config.uid.toNat ++ zero 3 ++ leBytes 2 held.length ++ zero 26
    ++ (held.map s.logBytes).flatten ++ zero (32 * (64 - held.length)))

/-- A fault record is to be written (R542). -/
def recordBegin (r : RecordX) : Prog := updFault fun x => { x with recWait := x.recWait ++ [r] }

/-- A reaction's fault record is being written: messages are logged and nothing more (R534). -/
def State.reacting (s : State) : Bool := s.fault.recWait.any fun r => r.andThen != 0

/-- The sector of the next record. -/
def State.recordAddr (s : State) : Nat := 0x740000 + s.f F.FLT_REC_NEXT_sector * 0x1000

/-- The record at the head of the wait is written or skipped (R542): USED, BUSY after 8 ms, PROGRAM_FAIL, or WRITTEN. -/
def recordWrite (r : RecordX) (failed : Bool) : Prog := .read fun s =>
  let skip := fun (result : Nat) => block [setF F.FLT_REC_STAT_result result, satAdd F.FLT_REC_STAT_skipped 1]
  block [
    if s.bit F.FLT_REC_STAT_used then skip 3
    else if s.fport.op.isSome && !s.fport.suspended then skip 2
    else if failed then block [.act .draw, .act (.flashReplace s.recordAddr (freeBytes s.free 2116)), skip 4]
    else block [.act (.flashProgram s.recordAddr (s.recordBytes r.occasion r.cls)),
      send (.flash "program" s.recordAddr 2116), setF F.FLT_REC_STAT_result 1, setF F.FLT_REC_STAT_used 1,
      setF F.FLT_REC_STAT_sequence (s.fault.seq + 1), updFault fun x => { x with seq := x.seq + 1 }],
    when (r.occasion == 3) (setF F.FLT_REC_CTL_write 0), raise R.FLT_EVENT 5]

/-- FAULT_RECORD_REQUEST (R542): a write of FLT.REC_CTL.write. -/
def recordRequest : Prog := .read fun s =>
  when (!s.bit F.FLT_REC_CTL_write) (block [setF F.FLT_REC_CTL_write 1, recordBegin ⟨3, 0, 0, 0⟩])

/-- REC_NEXT_WRITE (R543). -/
def recNextWrite (sector : Nat) : Prog := block [setF F.FLT_REC_NEXT_sector sector, setF F.FLT_REC_STAT_used 0]

end Sys2Proof.Machine
end

