-- ==== Sys2Proof/Machine/Resets.lean ====
section
/-!
DEFINITION. The mode fields, the core voltage, SAFE, and the block resets of R518 (chapters 15 to 17).
-/
namespace Sys2Proof.Machine

/-! Modes (R36): the codes of GLB.MODE.mode. -/

def mdPark : Nat := 1
def mdStandby : Nat := 2
def mdRamp : Nat := 3
def mdRun : Nat := 4
def mdSafe : Nat := 5
def State.devMode (s : State) : Nat := s.f F.AON_MODE_mode

/-- The mode fields take a value; the keeper sees a change (HSPI.KEVENT.mode_change). -/
def deviceMode (m : Nat) : Prog := .read fun s =>
  block [setF F.GLB_MODE_mode m, setF F.AON_MODE_mode m, when (s.devMode != m && s.domOn domMgt) (raise R.HSPI_KEVENT 2)]

/-! The core voltage (R480 to R482). -/

/-- One AVSBus write moves the target by at most 10 mV toward the goal (R481). -/
def avsStep : Prog := .read fun s =>
  let t := s.f F.PWR_AVS_STAT_target_mv
  let g := s.power.avsGoal
  let next := if t < g then min g (t + 10) else max g (t - 10)
  when (s.power.avsOut.isNone && t != g && !s.bit F.PWR_AVS_STAT_bus_fail)
    (block [updPower fun x => { x with avsOut := some next }, send (.avs 1 next)])

/-- A mode asks for a fixed target, the loop off. -/
def avsFixed (mv : Nat) : Prog :=
  block [setF F.PWR_AVS_STAT_loop 0, updPower fun x => { x with avsGoal := mv }, avsStep]

/-- AVS_ACK (R481, R482): the write or read that is out is acknowledged; in RUN the timing monitors want a level within the
range of R480. The first acknowledgement after a failure clears bus_fail and resumes the loop. -/
def avsAck (want : Nat) : Prog := .read fun s =>
  when (s.domOn domMgt) (block [
    ifSome s.power.avsOut fun v => setF F.PWR_AVS_STAT_target_mv v, updPower fun x => { x with avsOut := none },
    setF F.PWR_AVS_STAT_bus_fail 0, when (s.devMode == mdRun) (setF F.PWR_AVS_STAT_loop 1),
    when (s.devMode == mdRun) (updPower fun x => { x with avsGoal := max 680 (min 820 want) }), avsStep])

/-- AVS_TIMEOUT (R482): no acknowledgement within 1 ms. -/
def avsTimeout : Prog := .read fun s =>
  when (s.domOn domMgt && !s.bit F.PWR_AVS_STAT_bus_fail && (s.power.avsOut.isSome || s.bit F.PWR_AVS_STAT_loop))
    (block [updPower fun x => { x with avsOut := none }, setF F.PWR_AVS_STAT_bus_fail 1, setF F.PWR_AVS_STAT_loop 0,
      raise R.PWR_EVENT 4, emit 0x04 kSupply 2 0 0])

/-- AVS_RETRY (R482): once every second. -/
def avsRetry : Prog := .read fun s =>
  let t := s.f F.PWR_AVS_STAT_target_mv
  let g := s.power.avsGoal
  let next := if t < g then min g (t + 10) else max g (t - 10)
  when (s.domOn domMgt && s.bit F.PWR_AVS_STAT_bus_fail && s.power.avsOut.isNone)
    (block [updPower fun x => { x with avsOut := some next }, send (.avs 1 next)])

/-! Ending activities. -/

/-- A memory self-test of the cellar ends ABORTED (R554): every written bit clears. -/
def mbistAborted : Prog := .read fun s =>
  block [when (s.f F.FLT_MBIST_STAT_state == 2) (block [.act (.filled []), setF F.CEL_STAT_init_done 0]),
    setF F.FLT_MBIST_STAT_state 3, setF F.FLT_MBIST_STAT_result 3, raise R.FLT_EVENT 4]

/-- The converter stages end ABORTED (R292): the ports go on under CTL.admin with the settle wait, and a full anneal is done
(R263). -/
def stagesAborted : Prog := .read fun s =>
  each allPorts fun p => when (s.port p).stage
      (block [updPort p fun x => { x with stage := false, wait := if s.pst p = stListen then some false else x.wait },
        setF (F.CAL_PORT_STAT_state p) 3, setF (F.CAL_PORT_STAT_result p) 7, stageEnds p,
        when (s.pst p == stListen && decide (s.f (F.PORT_CTL_admin p) < 2)) (adminMove p (s.f (F.PORT_CTL_admin p)))])

/-- An activity that runs or waits ends ABORTED (R291, R292). -/
def activityAbort (b : Booking) : Prog := .seq
  (if b.act = 1 then tdrStop b.port
   else if b.act = 2 then sweepStop
   else if b.act = 3 then (if b.req = 6 then .skip else annealAbort b.port)
   else if b.act = 4 ∨ b.act = 5 ∨ b.act = 6 then block [abortLoop b.port, refreshNear b.port]
   else if b.act = 7 then each b.qtrs fun q => .read fun s => when (bitOf (s.f F.FUR_SELFTEST_busy) q)
     (block [clearQuarter q, updFur fun x => { x with testing := x.testing.erase q }, setFBit F.FUR_SELFTEST_busy q false, raise R.FUR_EVENT 6])
   else if b.act = 8 then mbistAborted
   else block [setF F.DIAG_FLASH_BOOK_request 0, setF F.DIAG_FLASH_BOOK_granted 0])
  (block [.act (.release b), .act (.dequeue b)])

/-- LEDGER_ABORT_ALL (R292): every running activity but flash programming, and the queue. -/
def ledgerAbortAll : Prog := .read fun s =>
  block [each (s.ledger.books.filter fun b => b.act != 9) activityAbort, each s.ledger.queue activityAbort, stagesAborted]

/-! SAFE (R544, R621). -/

/-- The packet reset of R518: every ring stops without write-back, its frames are freed and counted in DROPS, every QP[q]
returns to its reset values. -/
def packetReset : Prog := .read fun s =>
  each (List.range 512) fun q =>
    let frames := (s.ring q 0).frames.length
    let flights := (s.ring q 1).flights.length + b2n (s.ring q 1).whole
    let old := fun (d : Nat) => s.wide (ringOff (R.QP_RX_DROPS q) d) 2
    block [ifSome (s.qpHead q) fun h =>
        freeUnits h ([0, 1].foldl (fun n d => n + ((s.ring q d).fetching + 1) / 2 + (s.ring q d).reading + (s.ring q d).units) 0),
      resetQp q, when (decide (0 < frames)) (setWide (R.QP_RX_DROPS q) 2 (old 0 + frames)),
      when (decide (0 < flights)) (setWide (R.QP_TX_DROPS q) 2 (old 1 + flights))]

/-- Class and reason of a SAFE entry are recorded and ALIVE stops (R537, R621). -/
def safeStat (cls reason src kind detail : Nat) : Prog :=
  block [setF F.AON_SAFE_STAT_class_ cls, setF F.AON_SAFE_STAT_reason reason, setF F.AON_SAFE_STAT_source src,
    setF F.AON_SAFE_STAT_kind kind, setF F.AON_SAFE_STAT_detail detail,
    setF F.FLT_STAT_safe_class cls, setF F.FLT_STAT_safe_reason reason, updFault fun x => { x with stopped := true }]

/-- A port is silenced: CTL.admin = 0b00, DISABLED, no record (R544, step 2). A port whose domain is off keeps that value in
its saved set (R522). -/
def safePort (p : Nat) : Prog := .read fun s =>
  if s.domOn (portDomain p) then portAdminWrite p 0
  else ifSome (s.port p).saved fun m => match m.get? 0 with
    | some w => updPort p fun x => { x with saved := some (m.put 0 (putBits w 1 0 0)) }
    | none => .skip

/-- Steps 1 to 5 of R544. -/
def safeSteps : Prog := .read fun s =>
  let cls := s.f F.AON_SAFE_STAT_class_
  let reason := s.f F.AON_SAFE_STAT_reason
  block [setF F.AON_SAFE_STAT_safe 1, setF F.AON_SAFE_STAT_pending 0, deviceMode mdSafe,
    when (s.domOn domMgt) (block [
      setF F.FLT_STAT_safe 1, raise R.HSPI_KEVENT 4,
      each allPorts safePort, packetReset, mdmaStop, lgAllIdle,
      each (List.range 4) fun h => when (s.attached h && (s.head h).bme) (send (.msix h (s.f (F.HEAD_IRQ_CFG_sum_vec h)))),
      when (cls == 4) (updPower fun x => { x with gaffer := false }),
      avsFixed 750, send (.pin "LAUNCH_OUT" 0), send (.pin "PPS_OUT" 0),
      when (reason != 4) (recordBegin ⟨1, cls, 0, 0⟩)])]

/-- SAFE is decided (R534, R544, R621): in SAFE only a C4 changes its class; during a mode entry it is recorded and waits. -/
def enterSafe (cls reason src kind detail : Nat) : Prog := .read fun s =>
  if s.bit F.AON_SAFE_STAT_safe then
    when (cls == 4) (block [setF F.FLT_STAT_safe_class 4, setF F.AON_SAFE_STAT_class_ 4])
  else if s.entering then
    when (s.fault.safeDue.isNone || (cls == 4 && s.fault.safeDue != some 4))
      (block [safeStat cls reason src kind detail, updFault fun x => { x with safeDue := some cls }])
  else block [safeStat cls reason src kind detail, safeSteps]

/-! Block resets (R518). -/

/-- The sources that R518 names (R525). -/
def resettable (src : Nat) : Bool := decide (src ≤ 0x17) || decide (0x40 ≤ src ∧ src < 0x80)

/-- The sources whose block reset is a chip reset. -/
def chipSource (src : Nat) : Bool := [0x00, 0x01, 0x03, 0x04, 0x17].contains src

/-- A common block header is kept by the reset of a global block. -/
def headerKept (off : Nat) : Bool := decide (0x7F00 ≤ off % 0x10000 ∧ off % 0x10000 < 0x7F10)

/-- A quarter datapath reset: every owner of a slot in the quarter restarts, its record kept. -/
def quarterReset (q : Nat) : Prog := .read fun s =>
  each (((s.slots.filter fun e => e.1 / 256 == q).map (·.2)).eraseDups) fun o =>
    if o < 64 then
      (if s.linkUp o then portDropNow o 8
       else when (s.pst o == stNegotiate || s.pst o == stTrain) (portRestart o))
    else
      let b := (o - 4096) / 64
      let i := (o - 4096) % 64
      block [updBnd b fun y => { y with pairs := y.pairs.putD i { y.pairs.getD i {} with started := false, met := false, depths := [], adapted := (s.record q o).getD 0 } {} },
        refreshBundle b]

/-- What the reset of one block does, chip resets aside (R518, R520, R522). -/
def blockEffect (src : Nat) : Prog := .read fun s =>
  if 0x40 ≤ src then when (s.domOn (portDomain (src - 0x40))) (portResetBegin (src - 0x40))
  else if 0x10 ≤ src ∧ src < 0x14 then when (s.domOn (domFur (src - 0x10))) (quarterReset (src - 0x10))
  else if 0x0C ≤ src ∧ src < 0x10 then headReset (src - 0x0C) 2
  else match src with
  | 0x0A => packetReset
  | 0x0B => packetReset
  | 0x08 => block [mdmaStop, resetBlock 0x0B headerKept, each (List.range 16) fun c => .act (.chan c {})]
  | 0x07 => block [flashReset, resetBlock 0x0C headerKept]
  | 0x06 => block [resetBlock 0x0D fun o => headerKept o || decide (R.HSPI_MBX_CTL ≤ o), mbxEnds 4, .act (.spiRejected true)]
  | 0x14 => block [each s.ledger.books fun b => when (b.act == 3) (activityAbort b),
      each s.ledger.queue fun b => when (b.act == 3) (activityAbort b), stagesAborted,
      resetBlock 0x09 fun o => headerKept o || (List.range 64).any fun p => o == R.CAL_PORT_STAT p,
      setF F.CAL_BANDGAP_trim Config.bandgap.toNat]
  | 0x15 => block [each s.ledger.books fun b => when (b.act == 1 || b.act == 2) (activityAbort b),
      each s.ledger.queue activityAbort,
      resetBlock 0x0A fun o => headerKept o || o == R.DIAG_FLASH_BOOK || o == R.DIAG_SWEEP_STAT
        || (List.range 64).any fun p => o == R.DIAG_TDR_STAT p]
  | 0x16 => block [resetBlock 0x06 fun o => o == blkCommitOff 0x60000, deriveLch, lgAllIdle]
  | 0x02 => block [resetBlock 0x05 headerKept, deriveTb, tbState tsFree, updTb fun x => { x with good := 0 }]
  | 0x05 => block [
      when (s.f F.MLD_REMOULD_STAT_state == remouldStaged) (leaveStaged remouldIdle s.remouldPorts),
      setF F.MLD_REMOULD_STAT_state remouldIdle, when s.mld.load.isSome (updMld fun x => { x with load := none, loadLeft := [], reload := false }),
      setF F.MLD_LOAD_CTL_start 0, resetReg R.MLD_STATUS, resetReg R.MLD_ERR_DETAIL, resetReg R.MLD_EVENT,
      resetReg R.MLD_EVENT_MASK, deriveMld]
  | _ => .skip

/-- A block reset begins; one for a block already in a block reset merges with it (R533). A source of R518 whose row is a
chip reset takes the program given. -/
def blockReset (src : Nat) (chip : Prog) : Prog := .read fun s =>
  if chipSource src then chip
  else when (!s.fault.resets.contains src)
    (block [updFault fun x => { x with resets := x.resets ++ [src] }, setF F.RST_BLOCK_STAT_busy 1,
      setF F.RST_BLOCK_STAT_source src, blockEffect src])

/-- BLOCK_RESET_END (R360, R518): a commit that waited for it applies; a Gaffer reset starts the watchdog (R539). -/
def blockResetEnd (src : Nat) : Prog := .read fun s =>
  when (s.fault.resets.contains src)
    (block [updFault fun x => { x with resets := x.resets.erase src },
      when (s.fault.resets.length == 1) (setF F.RST_BLOCK_STAT_busy 0), raise R.RST_EVENT 0,
      if 0x40 ≤ src then block [portResetEnd (src - 0x40), lateApply (src - 0x40)]
      else if 0x0C ≤ src ∧ src < 0x10 then headResetEnd (src - 0x0C)
      else if src = 0x16 then lateApply blkLch
      else if src = 0x09 then updFault fun x => { x with wdog := some s.now }
      else .skip])

end Sys2Proof.Machine
end

