-- ==== Sys2Proof/Machine/Power.lean ====
section
/-!
DEFINITION. Switched domains: what a domain loses and gets back (R39, R478, R479, R519 to R523, R619).
-/
namespace Sys2Proof.Machine

/-- The gates of a domain (R510, R512). -/
def gatesOf (d : Nat) : List Nat :=
  if d = domMgt then [0, 1, 2, 3, 4]
  else if d = domTbc then [8, 9, 10, 11, 12, 18, 19, 20]
  else if 15 ≤ d ∧ d < 19 then [13 + (d - 15)]
  else if d = domPkt then [5, 6]
  else if d = domCxc then [7]
  else if d = 14 then [17]
  else []

/-- The gates of a domain turn on or off. -/
def domainGates (d : Nat) (on : Bool) : Prog := each (gatesOf d) fun g => setFBit F.CLK_GATE_gate g on

/-- The ports of a domain. -/
def portsOf (d : Nat) : List Nat := allPorts.filter fun p => portDomain p == d

/-- The domains that a domain needs (R39), in the table's order. -/
def State.needs (s : State) (d : Nat) : List Nat :=
  if d < 15 then
    [domTbc] ++ (List.range 4).filterMap fun q =>
      if (portsOf d).any fun p => (s.usable p).any fun c => c.1 == q then some (domFur q) else none
  else if d < 19 then [domTbc]
  else if d = domCxc then [domCxp]
  else if d = domPkt then [domTbc]
  else []

/-! What a domain-off by request saves (R521). -/

/-- The RW and WS bits of a word. -/
def rwBits (off : Nat) : Nat :=
  match findReg off with
  | some l => l.fields.foldl (fun n f => if f.acc = .rw ∨ f.acc = .ws then n + (2 ^ (f.hi + 1) - 2 ^ f.lo) else n) 0
  | none => 0

/-- Registers that are saved whole: DROP_HIST, its index and count, the MAC, FEC, segment and LPI counters. -/
def savedWhole (p off : Nat) : Bool :=
  let within := fun (base n : Nat) => decide (base ≤ off ∧ off < base + n)
  within (R.PORT_DROP_HIST p 0) 128 || within (R.PORT_DROP_HIST_IDX p) 4 || within (R.PORT_DROP_COUNT p) 4
    || within (R.PORT_RX_FRAMES p) 80 || within (R.PORT_FEC_CORR p) 16
    || within (R.PORT_LPI_ENTRIES p) 4 || within (R.PORT_LPI_TIME p) 8
    || (decide (56 ≤ p) && (within (R.PORT_SEG_COLL p) 8 || within (R.PORT_SEG_LATE p) 8 || within (R.PORT_SEG_EXCESS p) 8))

/-- The key of a staged word in a saved set. -/
def savedStaged (off : Nat) : Nat := off + 2 ^ 20

/-- The saved set of a port (R521): offsets in its block, staged words beyond 2^20. The partner reference is not in it. -/
def State.savedSet (s : State) (p : Nat) : SMap Word :=
  let base := blockBase p
  let word := fun (off : Nat) (w : Word) =>
    if savedWhole p off then w
    else
      let m := rwBits off
      BitVec.ofNat 32 (Nat.land w.toNat m + Nat.land (resetWord off).toNat (Nat.xor m 0xFFFFFFFF))
  let keep := fun (off : Nat) => !(partnerOffs p).contains off && (savedWhole p off || rwBits off != 0)
  let act := (s.regs.within base (base + 0x10000)).filter fun e => keep e.1
  let stg := (s.staged.within base (base + 0x10000)).filter fun e => keep e.1
  (act.map fun e => (e.1 - base, word e.1 e.2)) ++ stg.map fun e => (savedStaged (e.1 - base), e.2)

/-- A word with its RW and WS fields from the saved set. -/
def restored (off : Nat) (now saved : Word) : Word :=
  let m := BitVec.ofNat 32 (rwBits off)
  (now &&& ~~~m) ||| (saved &&& m)

/-- The saved set is written over what the mould gives (R521): a register that the set does not list was at its reset
value, and the fields that are not saved stay as the mould gives them. -/
def restoreSet (p : Nat) (m : SMap Word) : Prog := .read fun s =>
  let base := blockBase p
  let given := (s.regs.within base (base + 0x10000)).filter fun e =>
    rwBits e.1 != 0 && !savedWhole p e.1 && !(partnerOffs p).contains e.1 && (m.get? (e.1 - base)).isNone
  block [each given (fun e => setReg e.1 (restored e.1 e.2 (resetWord e.1))),
    each m fun e =>
      if e.1 < 2 ^ 20 then setReg (base + e.1) (if savedWhole p (base + e.1) then e.2 else restored (base + e.1) (s.reg (base + e.1)) e.2)
      else .act (.stage (base + (e.1 - 2 ^ 20)) e.2)]

/-! Ports. -/

/-- What a port holds in the always-on domain. -/
def PortX.aon (x : PortX) : PortX := { forwarded := x.forwarded, lastPulse := x.lastPulse, lastClamp := x.lastClamp, offSleep := x.offSleep, term := x.term }

/-- A port's domain is about to go off: the always-on domain takes over whether the port sleeps, with wake_any, and its
termination (R237, R256). -/
def portHold (p : Nat) : Prog := .read fun s =>
  when (s.domOn (portDomain p)) (updPort p fun x => { x with offSleep := if s.pst p = stSleep then some (decide (56 ≤ p) && s.bit (F.PORT_SEG_CFG_wake_any p)) else none, term := decide (56 ≤ p) && s.bit (F.PORT_SEG_CFG_term p) })

/-- The termination of a segment slice is applied (R237). -/
def State.terminated (s : State) (p : Nat) : Bool :=
  if s.domOn (portDomain p) then s.bit (F.PORT_SEG_CFG_term p) else (s.port p).term

/-- A port's domain goes off: what follows for canes and bundles is as for SLEEP; the block is lost but for what is saved,
and the orphan flag stays (R395). The undo shadow stays with the saved set (DEDUCED, entry 30: R365 gives a rollback of a
block whose domain is off). -/
def portOff (p : Nat) (keep : Bool) : Prog := .read fun s =>
  let set := if keep then some (s.savedSet p) else none
  let orphan := s.f (F.PORT_STATE_orphan p)
  block [abortLoop p, annealAbort p,
    when (s.linkUp p) (movePort p (enterRest p stSleep)), portHold p, stageDrop p,
    resetRange (blockBase p) 0x10000 fun _ => false, when (!keep) (.act (.undoDrop (blockBase p / 0x10000))),
    setF (F.PORT_STATE_orphan p) orphan,
    updPort p fun x => { x.aon with saved := set, returned := x.returned, reclaimLeft := x.reclaimLeft, coeffMode := x.coeffMode }, refreshNear p]

/-- The start is cold and its converter stages have not ended (R138). -/
def State.coldAnneal (s : State) : Bool := !s.bit F.AON_MODE_start_kind && s.f F.CAL_STAT_anneal != 2

/-- A port's domain reports on (R138, R264, R361, R520, R521, R619). -/
def portOn (p : Nat) : Prog := .read fun s =>
  let set := (s.port p).saved
  block [derivePort p, derivePortDef p, updPort p fun x => { x with saved := none, offSleep := none }, ifSome set (restoreSet p),
    each (partnerOffs p) fun o => ifSome (s.power.partnerRefs.get? o) fun w => setReg o w,
    .read fun t => when (t.portEnabled p && !t.coldAnneal)
      (block [if t.f (F.PORT_CTL_admin p) = 0 then setF (F.PORT_STATE_state p) stDisabled
          else block [setF (F.PORT_STATE_state p) stSleep, setF (F.PORT_CTL_admin p) 1],
        verifyPort p]),
    lateApply p, refreshNear p]

/-! Quarters. -/

/-- The records of the owners of slots in a quarter are written before it goes off by request (R215). -/
def quarterRecords (q : Nat) : Prog := .read fun s =>
  block [each allPorts fun p => when ((s.port p).coeffMode != 0 && !(s.port p).returned && (s.portQuarters p).contains q)
      (writeRecord p (s.port p).coeffMode [q]), recordQuarter q]

/-- A quarter's domain goes off; the store is sealed (R217). What its cancellers held is gone; ports with slots there lose
their link where the switch is forced (R40). -/
def quarterOff (q : Nat) (forced : Bool) : Prog := .read fun s =>
  let owners := allPorts.filter fun p => (s.portQuarters p).contains q
  block [when (!forced) (quarterRecords q), setF (F.FUR_QTR_STORE_sealed q) 1,
    when forced (each owners fun p => block [
      if s.linkUp p then portDropNow p 8 else when (s.pst p == stNegotiate || s.pst p == stTrain) (toListen p true)]),
    each owners fun p => updPort p fun x => { x with coeffMode := if forced then 0 else x.coeffMode },
    each (List.range 16) fun b => when (s.bit (F.BND_CFG_valid b) && s.f (F.BND_CFG_quarter b) == q)
      (block [updBnd b fun y => { hold := y.hold }, refreshBundle b]),
    each (List.range 32) fun i => resetReg (R.POT_ECC (32 * q + i)),
    updFur fun x => { x with testing := x.testing.erase q }]

/-- A quarter's domain reports on (R217, R221, R222): the store seal is checked; at a cold start, and after a failed seal,
its pots are tested, whenever in that start its domain comes on. -/
def quarterOn (q : Nat) (sealOk : Bool) : Prog := .read fun s =>
  let test := block [updFur fun x => { x with testing := if x.testing.contains q then x.testing else q :: x.testing, untested := x.untested.erase q },
    resetReg (R.FUR_QTR_SPARE q), resetReg (R.FUR_QTR_DEAD q), setF (F.FUR_QTR_STAT_spare q) 0,
    each (List.range 32) fun i => resetReg (R.POT_STAT (32 * q + i))]
  block [setF (F.FUR_QTR_STORE_sealed q) 0, setF (F.FUR_QTR_STORE_seal_fail q) (b2n (!sealOk)),
    when (!sealOk) (block [clearQuarter q, each allPorts fun p => .read fun t => when ((t.portQuarters p).contains q) (updPort p fun x => { x with coeffMode := 0 }), emit (0x10 + q) kRetentionLost 1 0 q, raise R.FUR_EVENT 4]),
    when (!sealOk || s.fur.untested.contains q) test, refreshBundles]

/-! Heads and the packet engine. -/

/-- CXC goes off: every head is in DOWN, which is not a loss (R391, R395). -/
def headsOff : Prog := .read fun s =>
  block [each (List.range 4) fun h => block [each (List.range 512) fun q => when (s.qpHead q == some h) (resetQp q),
      mdmaHeadLost h, headRegs h false, setVote h none],
    holderUpdate]

/-- PKT goes off: the rings and the cellar are lost (R468). -/
def packetOff : Prog :=
  block [packetReset, each (List.range 512) fun q => resetRange (0x2000000 + 0x1000 * q) 0x1000 fun _ => false,
    resetBlock 0x0E fun _ => false, resetBlock 0x0F fun _ => false, .act (.filled []), .act (.cellarClear 0 25165824),
    each allPorts fun p => updPort p fun x => { x with txq := [], sending := none }]

/-- PKT reports on: what the mould gives it (R520). -/
def packetOn : Prog := block [deriveCel, deriveCls, each allPorts derivePortDef, each (List.range 512) deriveQp]

/-! Switching. -/

/-- A domain goes off (R478, R479, R522). With CXP every link that is up goes down (R39). -/
def domainOff (d : Nat) (forced : Bool) : Prog :=
  block [domainGates d false,
    if d < 15 then each (portsOf d) fun p => portOff p (!forced)
    else if d < 19 then quarterOff (d - 15) forced
    else if d = domCxp then .seq (setFBit F.CLK_READY_ready 11 false) <| .read fun s =>
      each (List.range 4) fun h => when (s.linkTrained h) (headResetEvent h 4)
    else if d = domCxc then headsOff
    else if d = domPkt then packetOff else .skip,
    setFBit F.PWR_DOM_STAT_domains d false, updPower fun x => { x with switching := x.switching.erase d }]

/-- A domain and what it needs are queued to switch on (R478); one that is forced off waits, and with it those that need it (R39,
R479). -/
def domainWant (d : Nat) : Prog := .read fun s =>
  each (s.needs d ++ [d]) fun n =>
    .read fun t => when (!t.domOn n)
      (if bitOf (t.f F.PWR_DOM_FORCE_domains) n || ((t.needs n).any fun m => !t.domOn m && bitOf (t.f F.PWR_DOM_FORCE_domains) m) then setFBit F.PWR_DOM_PEND_domains n true
       else when (!t.power.switching.contains n) (updPower fun x => { x with switching := x.switching ++ [n] }))

/-- DOM_REQ_WRITE (R17, R478). -/
def domReqWrite (path v : Nat) : Prog := .read fun s =>
  block [when (v / 2 ^ 22 % 4 != 3) (denied path R.PWR_DOM_REQ true),
    setF F.PWR_DOM_REQ_domains (v % 2 ^ 22 + 3 * 2 ^ 22),
    each (List.range 22) fun d => when (!bitOf v d)
      (block [updPower fun x => { x with switching := x.switching.erase d }, setFBit F.PWR_DOM_PEND_domains d (s.domOn d)]),
    each (List.range 22) fun d => when (bitOf v d) (if s.domOn d then setFBit F.PWR_DOM_PEND_domains d false else domainWant d)]

/-- DOMAIN_POWER_GOOD (R39, R478): one of the two domains that switch on reports power good, once those it needs are on. -/
def domainPowerGood (d : Nat) (sealOk : Bool) : Prog := .read fun s =>
  when ((s.power.switching.take 2).contains d && (s.needs d).all s.domOn)
    (block [updPower fun x => { x with switching := x.switching.erase d }, setFBit F.PWR_DOM_STAT_domains d true,
      setFBit F.PWR_DOM_PEND_domains d false, domainGates d true,
      if d < 15 then each (portsOf d) portOn
      else if d < 19 then quarterOn (d - 15) sealOk
      else if d = domPkt then packetOn
      else if d = domCxc then block [each (List.range 4) deriveHead, each (List.range 4) fun h => lateApply (blkHead h)]
      else .skip,
      .read fun t => each allPorts fun p => when ((t.port p).leaving) (tryLeave p)])

/-- The condition of R478 for switching a domain off. -/
def State.mayGoOff (s : State) (d : Nat) : Bool :=
  let needed := (List.range 22).any fun n => s.domOn n && n != d && (s.needs n).contains d
  !needed &&
  (if d < 15 then (portsOf d).all fun p => (s.pst p == stSleep || s.pst p == stDisabled)
      && (!s.bit (F.FUR_RETURN_on_sleep p) || s.pst p == stDisabled || (s.port p).returned || (s.usable p).isEmpty)
   else if d < 19 then !s.quarterBusy (d - 15)
   else if d = domCxp ∨ d = domCxc then (List.range 4).all fun h => s.hdState h == hdDown || s.hdState h == hdLostDown
   else if d = domPkt then s.noRing
   else false)

/-- A domain is on, but every port or engine in it is asleep, gated or disabled (R480). -/
def State.domainIdle (s : State) (d : Nat) : Bool :=
  s.domOn d &&
  (if d < 15 then (portsOf d).all fun p => s.pst p == stSleep || s.pst p == stDisabled
   else if d < 19 then !s.quarterBusy (d - 15)
   else if d = domCxp ∨ d = domCxc then (List.range 4).all fun h => !s.linkTrained h
   else if d = domPkt then s.noRing
   else false)

/-- The back-gate bias of a domain is reverse, else neutral (R480): in STANDBY on idle domains. -/
def State.reverseBias (s : State) (d : Nat) : Bool := s.devMode == mdStandby && s.domainIdle d

/-- The SRAM read assist and write assist (R480). -/
def State.sramAssist (s : State) : Bool × Bool :=
  if s.devMode = mdPark then (false, false) else if s.devMode = mdStandby then (false, true) else (true, true)

/-- DOMAIN_SWITCH_OFF (R478). -/
def domainSwitchOff (d : Nat) : Prog := .read fun s =>
  when (bitOf (s.f F.PWR_DOM_PEND_domains) d && !bitOf (s.f F.PWR_DOM_REQ_domains) d && s.domOn d && s.mayGoOff d)
    (block [domainOff d false, setFBit F.PWR_DOM_PEND_domains d false])

/-- DOM_FORCE_WRITE (R479): bits that become 1 switch their domains off at once; a bit written back to 0 lets a pending
switch-on go ahead. -/
def domForceWrite (path v : Nat) : Prog := .read fun s =>
  let force := v % 2 ^ 22
  block [when (v / 2 ^ 22 % 4 != 0) (denied path R.PWR_DOM_FORCE true), setF F.PWR_DOM_FORCE_domains force,
    each (bitList 22 force) fun d => block [
      when (s.domOn d || s.power.switching.contains d) (block [domainOff d true, raise R.PWR_EVENT 3]),
      setFBit F.PWR_DOM_PEND_domains d false],
    each (List.range 22) fun d => when (!bitOf force d && bitOf (s.f F.PWR_DOM_PEND_domains) d
        && bitOf (s.f F.PWR_DOM_REQ_domains) d && !s.domOn d) (domainWant d)]

end Sys2Proof.Machine
end

