-- ==== Sys2Proof/Machine/Starts.lean ====
section
/-!
DEFINITION. Resets of the device, starts, mode entries and wakes from PARK (chapters 15, 16, 20).
-/
namespace Sys2Proof.Machine

/-! Stages of a start (`PowerX.stage`). -/

def sgOff : Nat := 0
/-- PWR_EN is high and VMAIN_OK is awaited. -/
def sgRails : Nat := 1
/-- the retention check of a warm start -/
def sgCheck : Nat := 2
/-- the boot ROM loads firmware -/
def sgBoot : Nat := 3
/-- the Gaffer's reset is about to be released -/
def sgHeld : Nat := 4
/-- firmware runs, START_CTL.ok is awaited -/
def sgFirmware : Nat := 5
def sgUp : Nat := 6
def sgPark : Nat := 7
/-- PWR_EN is held low for min_off_ms before a start -/
def sgMinOff : Nat := 8
/-- RESET_N is held low -/
def sgReset : Nat := 9
/-- SAFE on C4 with the main rails lost -/
def sgDead : Nat := 10

/-! What a reset clears (R519, R522, R523). -/

/-- Registers that AON backs, and in PARK the registers that the quarter stores hold. -/
def resetKeeps (park : Bool) (off : Nat) : Bool :=
  [R.PWR_WAKE_LATCH, R.PWR_RET_STATUS, R.RST_CAUSE, R.RST_COUNT].contains off
    || (park && (decide (0x80000 ≤ off ∧ off < 0x80040) ||
        (decide (0x82000 ≤ off ∧ off < 0x82000 + 128 * 16) && decide (off % 16 = 0))))

/-- Every main-rail domain loses its state. `park` keeps what the retention rail holds: the banks of the RETENTION mask,
the quarter stores, the images and sets that lie in the banks. A flash operation that is cut short leaves undefined bytes. -/
def clearMain (park : Bool) : Prog := .read fun s =>
  let mask := leAt (s.sec scRetention) 0 2
  block [
    ifSome s.fport.op fun o => when (!o.late) (flashEffect o false), when s.fault.alive (send (.pin "ALIVE" 0)),
    resetRange 0 0x160000 (resetKeeps park), resetRange 0x180000 0x2080000 fun _ => false,
    each s.undoBlocks fun b => .act (.undoDrop b), .act .snapDrop,
    each (s.ports.map (·.1)) fun p => updPort p fun x => if park then x.aon else { x.aon with offSleep := none }, each (s.canes.map (·.1)) fun k => .act (.cane k {}),
    each (s.bnds.map (·.1)) fun b => .act (.bnd b {}), updFur fun x => if park then { records := x.records, taps := x.taps } else { untested := [0, 1, 2, 3] },
    each s.ledger.books fun b => .act (.release b), each s.ledger.queue fun b => .act (.dequeue b),
    updMld fun x => if park then { x with load := none, loadLeft := [], reload := false, partialImage := [], partialGen := 0, wakeDue := false, adoptImage := [], adoptGen := 0 } else {},
    .act (.tb {}), updCal fun x => if park then { sets := x.sets.filter fun e => e.1 / 4096 != bkPending && e.1 / 4096 != bkWriting, recGen := x.recGen, newer := x.newer } else {},
    .act (.diag {}), .act (.commit {}), each (s.heads.map (·.1)) fun h => .act (.head h {}),
    each (s.rings.map (·.1)) fun k => .act (.ring k {}), each (s.chans.map (·.1)) fun c => .act (.chan c {}),
    .act (.filled []), .act (.cellarClear 0 25165824), .act (.fport {}),
    each (List.range 16) fun n => when (!(park && bitOf mask n)) (.act (.sramClear (n * bankSize) bankSize)),
    updClock fun x => { slck := x.slck }, updFault fun x => { held := x.held, seq := x.seq },
    updPower fun x => { x with switching := [], table := [], avsGoal := 750, avsOut := none, gaffer := false, halted := false, kicked := false, partnerRefs := if park then x.partnerRefs else [] }]

/-- The domains' registers while the main rails are off. -/
def rails (on : Bool) : Prog := block [updPower fun x => { x with pwrEn := on }, send (.pin "PWR_EN" (b2n on))]

/-! Starts. -/

/-- Causes of RST.CAUSE. -/
def rcPowerOn : Nat := 1
def rcMainLoss : Nat := 2
def rcResetN : Nat := 3
def rcChipWrite : Nat := 4
def rcChipReaction : Nat := 5
def rcRetry : Nat := 6
def rcParkWake : Nat := 7

/-- The start is warm (R495). -/
def State.startsWarm (s : State) (park : Bool) : Bool :=
  park && s.bit F.AON_RET_SEAL_valid && decide (s.f F.AON_START_STAT_warm_fails < 2) && !s.bit F.AON_START_CTL_force_cold
    && !s.bit F.AON_SAFE_STAT_pending

/-- A start begins: its kind is decided, its cause is recorded in AON, the mode is RAMP, the wake table runs where it began
as a wake from PARK (R36, R487, R492, R495, R514, R547). -/
def beginStart (cause src : Nat) : Prog := .read fun s =>
  let park := cause == rcParkWake || (cause == rcRetry && s.power.park)
  let warm := s.startsWarm park
  let w := b2n warm
  block [clearMain warm,
    when (!warm) (block [setF F.AON_START_STAT_warm_fails 0, setF F.AON_START_CTL_force_cold 0, setF F.AON_RET_SEAL_valid 0]),
    setF F.AON_START_CTL_ok 0, setReg R.RST_CAUSE (BitVec.ofNat 32 (cause + 2 ^ 7 * w + 2 ^ 16 * src)),
    setF F.AON_MODE_start_kind w, setF F.AON_MODE_mode mdRamp, setF F.AON_MODE_entering 0,
    when (!s.bit F.AON_SAFE_STAT_pending) (setF F.AON_SAFE_STAT_safe 0), setF F.PWR_RET_STATUS_lost 0,
    updPower fun x => { x with stage := sgRails, offWait := none, latch := [], resetLatched := none, armed := [], park := park, tableCold := !warm, table := if cause = rcParkWake then (List.range 16).filter fun i => s.f (F.WAKE_TABLE_action i) != 0 else [] }]

/-- The collector comes up and takes the messages that AON held (R618): they are logged; a C4 leads to SAFE. -/
def heldTaken : Prog := .read fun s =>
  block [updFault fun x => { x with held := [] },
    each s.fault.held fun m => block [logMsg m,
      when (m.cls == 4) (enterSafe 4 3 m.src m.kind 0)]]

/-- MGT and TBC are powered (R4, R257, R337, R485, R512, R520): straps and OTP are read, the timebase starts, held messages
are taken, a pending SAFE is entered (R621). `fresh` tells that the rails have just come up. -/
def bringUp (fresh : Bool) : Prog := .read fun s =>
  let warm := s.bit F.AON_MODE_start_kind
  let field := s.otp.lifecycle == 1
  block [
    setF F.PWR_DOM_STAT_domains (3 * 2 ^ 22), setF F.PWR_DOM_REQ_domains (3 * 2 ^ 22),
    domainGates domMgt true, domainGates domTbc true,
    setF F.CLK_READY_ready (b2n s.clock.slck), setF F.CLK_PLL_EN_en 6,
    setF F.GLB_STRAPS_headcfg s.pins.headcfg, setF F.GLB_STRAPS_bootsrc s.pins.bootsrc,
    setF F.GLB_LIFECYCLE_state s.otp.lifecycle, setF F.FSPI_CFG_proto s.pins.bootsrc,
    setF F.GLB_LIFECYCLE_test_mode_seen (if fresh then b2n s.pins.testMode else s.f F.GLB_LIFECYCLE_test_mode_seen),
    setF F.CAL_BANDGAP_trim Config.bandgap.toNat, deriveKeys,
    setF F.GLB_MODE_mode mdRamp, setF F.GLB_MODE_start_kind (b2n warm),
    updTb fun x => { x with sec := s.wide R.AON_SECONDS 2 % 2 ^ 48 },
    updPower fun x => { x with stage := if warm then sgCheck else sgBoot },
    when (warm && !s.mld.active.isEmpty) (block [setF F.GLB_MODE_mould_ok 1, deriveAll, holderInit, verifyBegin]),
    each (List.range 4) deriveHead, heldTaken,
    when (fresh && field && s.pins.testMode) (emit 0x00 kTestPin 0 0 0),
    when (s.bit F.AON_SAFE_STAT_pending) (block [
      safeStat (s.f F.AON_SAFE_STAT_class_) (s.f F.AON_SAFE_STAT_reason) (s.f F.AON_SAFE_STAT_source)
        (s.f F.AON_SAFE_STAT_kind) (s.f F.AON_SAFE_STAT_detail), safeSteps]),
    avsStep]

/-- A chip reset of any cause (R514 to R516): rails kept, a new start at once; one that was latched in an entry to PARK raises
PWR_EN for its start. -/
def chipReset (cause src : Nat) : Prog := .read fun s =>
  let seen := s.f F.GLB_LIFECYCLE_test_mode_seen
  block [satAdd F.RST_COUNT_chip 1, beginStart cause src, setF F.GLB_LIFECYCLE_test_mode_seen seen,
    if s.power.pwrEn && s.power.vmainOk then bringUp false else when (!s.power.pwrEn) (rails true)]

/-- Word 1 of START_FAIL (R499). -/
def State.startCounts (s : State) : Nat :=
  (Config.failCounts (s.f F.AON_START_STAT_cold_fails) (s.f F.AON_START_STAT_warm_fails)).toNat

/-- A start fails (R499, R500). No start fails in SAFE, which such a failure does not leave (R36, R546). -/
def failStart (code : Nat) : Prog := .read fun s =>
  let warm := s.bit F.AON_MODE_start_kind
  when (!s.bit F.AON_SAFE_STAT_safe) <| block [
    if warm then setF F.AON_START_STAT_warm_fails (min 2 (s.f F.AON_START_STAT_warm_fails + 1))
    else setF F.AON_START_STAT_cold_fails (min 3 (s.f F.AON_START_STAT_cold_fails + 1)),
    setF F.AON_START_STAT_last_reason code,
    .read fun t =>
      if !warm && t.f F.AON_START_STAT_cold_fails == 3 then
        block [when (t.domOn domMgt) (logMsg ⟨0x17, kStartFail, 4, code, t.startCounts⟩),
          updPower fun x => { x with stage := sgDead }, enterSafe 4 5 0x17 kStartFail 0]
      else block [
        updFault fun x => { x with held := if x.held.length < 8 then x.held ++ [⟨0x17, kStartFail, 1, code, t.startCounts⟩] else x.held },
        if code = 1 then block [rails false, updPower fun x => { x with stage := sgMinOff, offWait := some rcRetry }]
        else chipReset rcRetry 0]]

/-- POWER_ON (R36, R514, R581): VAON rises through its threshold; the pins are as the board ties them. -/
def powerOn (headcfg bootsrc : Nat) (testMode : Bool) (flash : List (Nat × List Byte)) : Prog := .read fun s =>
  when (!s.power.vaon)
    (block [.act (.pins ⟨headcfg, bootsrc, testMode⟩), each flash fun e => .act (.flashReplace e.1 e.2),
      updPower fun _ => { vaon := true }, updClock fun _ => {}, beginStart rcPowerOn 0, rails true])

/-- VAON_FALL (R36, R581): the device is OFF and nothing but the OTP and the flash keeps its contents. -/
def vaonFall : Prog := .read fun s =>
  when s.power.vaon
    (block [clearMain false, resetRange 0 0x2200000 fun _ => false, each (s.ports.map (·.1)) fun p => .act (.port p {}),
      each (List.range 4) fun _ => .act .acPop, .act .acRefresh, .act (.power {}), .act (.clock {}), .act (.fault {}),
      .act (.mld {}), .act (.spiRejected false), send (.pin "PWR_EN" 0)])

/-- VMAIN_OK_RISE (R485): where the start waits for it. -/
def vmainOkRise : Prog := .read fun s =>
  when (s.power.vaon && s.power.pwrEn)
    (block [updPower fun x => { x with vmainOk := true }, when (s.power.stage == sgRails) (bringUp true)])

/-- VMAIN_TIMEOUT (R485, R499). -/
def vmainTimeout : Prog := .read fun s => when (s.power.stage == sgRails && !s.power.vmainOk) (failStart 1)

/-- MIN_OFF_EXPIRE (R477, R499, R517): PWR_EN has been low long enough. -/
def minOffExpire : Prog := .read fun s =>
  ifSome s.power.offWait fun cause =>
    when (s.power.stage == sgPark || s.power.stage == sgMinOff) (block [
      when (cause == rcParkWake) (ifSome s.power.latch.head? fun w =>
        block [setF F.WAKE_CAUSE_kind w.1, setF F.WAKE_CAUSE_index w.2.1, setF F.WAKE_CAUSE_from_park 1, raise R.WAKE_EVENT 0]),
      beginStart cause 0, rails true])

/-- MAIN_RAIL_LOSS (R514, R517, R584): VMAIN_OK falls while PWR_EN is high. -/
def mainRailLoss : Prog := .read fun s =>
  when (s.power.pwrEn && s.power.vmainOk && s.f F.PWR_MODE_STAT_entering != mdPark)
    (if s.bit F.AON_SAFE_STAT_safe && s.f F.AON_SAFE_STAT_class_ == 4 then
       block [clearMain false, updPower fun x => { x with vmainOk := false, stage := sgDead }]
     else block [satAdd F.RST_COUNT_main_loss 1, clearMain false, rails false,
       setF F.AON_MODE_entering 0,
       updPower fun x => { x with vmainOk := false, stage := sgMinOff, park := false, offWait := some rcMainLoss }])

/-- A reset by RESET_N takes effect. -/
def resetNow : Prog := .read fun s =>
  block [satAdd F.RST_COUNT_reset_n 1,
    when (s.power.stage != sgPark) (clearMain false),
    updPower fun x => { x with stage := sgReset, resetN := true, park := false, offWait := none }]

/-- SAFE that was entered on C4, which only VAON leaves (R38, R546). -/
def State.deadSafe (s : State) : Bool := s.bit F.AON_SAFE_STAT_safe && s.f F.AON_SAFE_STAT_class_ == 4

/-- RESET_N (R515): held low for 2 µs or longer. -/
def resetN : Prog := .read fun s =>
  when (s.power.vaon && !s.deadSafe && !s.power.resetN)
    (if s.entering then updPower fun x => { x with resetN := true, resetLatched := some rcResetN } else resetNow)

/-- The start after RESET_N has been released (R515, R516). -/
def resetRelease : Prog := .read fun s =>
  block [beginStart rcResetN 0,
    if s.power.pwrEn then when s.power.vmainOk (bringUp false) else rails true]

/-- RESET_N_RELEASE (R515, R516). -/
def resetNRelease : Prog := .read fun s =>
  when s.power.resetN
    (block [updPower fun x => { x with resetN := false }, when (s.power.stage == sgReset) resetRelease])

/-- CHIP_RESET: a write of RST.CHIP from a path, past the access checks (R515, R546): a wrong key is dropped and logged. In SAFE
only the Gaffer's write acts, on C4 none; during a mode entry it is latched. -/
def chipWrite (path key : Nat) (go : Bool) : Prog := .read fun s =>
  when go
    (if key ≠ 0xC3 then denied path R.RST_CHIP true
     else if s.deadSafe || (s.bit F.FLT_STAT_safe && path != 4) then .skip
     else if s.entering then updPower fun x => { x with resetLatched := some rcChipWrite }
     else chipReset rcChipWrite 0)

/-! Firmware (R488, R491, R497, R498, R609, R614). -/

/-- The enabled ports in the order of R262: those that the wake table names, every member of a cane with them (R486), then the
rest. -/
def State.annealOrder (s : State) : List Nat :=
  let table := (List.range 16).filterMap fun i =>
    if s.f (F.WAKE_TABLE_action i) = 4 then some (s.f (F.WAKE_TABLE_target i)) else none
  let named := table.flatMap fun p => match s.caneOf p with
    | some (k, _) => (s.caneLanes k).map (2 * k + ·)
    | none => [p]
  let en := allPorts.filter s.portEnabled
  en.filter named.contains ++ en.filter fun p => !named.contains p

/-- The full anneal of a cold start begins once the mould is in force and firmware runs (R138, R262). -/
def annealBegins : Prog := .read fun s =>
  when (s.mouldOk && s.power.gaffer && !s.bit F.AON_MODE_start_kind && s.f F.CAL_STAT_anneal == 0)
    (fullAnneal s.annealOrder)

/-- RETENTION_CHECK_DONE (R491): the banks of the mask that failed their check. -/
def retentionCheckDone (lost : Nat) : Prog := .read fun s =>
  let gone := Nat.land lost (s.f F.AON_RET_SEAL_mask)
  let bank := byteAt (s.sec scRetention) 2
  let state := byteAt (s.sec scRetention) 3
  let mould := bitOf gone bank || bitOf gone (bank + 1)
  let firmware := (bitList 16 gone).any fun n => n != bank && n != bank + 1 && n != state
  when (s.power.stage == sgCheck)
    (block [setF F.PWR_RET_STATUS_lost gone,
      each (bitList 16 gone) fun n => block [emit 0x17 kRetentionLost 1 0 n, .act (.sramClear (n * bankSize) bankSize)],
      when (gone != 0) (raise R.PWR_EVENT 6),
      updPower fun x => { x with stage := if firmware then sgBoot else sgHeld },
      when (bitOf gone state) (block [updPower fun x => { x with partnerRefs := [] },
        each allPorts fun p => setF (F.PORT_PARTNER_REF_FLAGS_valid p) 0, .act (.cal {}), atticRead Config.uid.toNat]),
      when mould mouldReload,
      .read fun t => when (!t.bit F.AON_MODE_start_kind) (updPower fun x => { x with stage := sgBoot })])

/-- The boot header is good (R569). -/
def bootHeaderOk (l : List Byte) : Bool :=
  leAt l 0 4 == 0x48424458 && leAt l 4 2 == 1 && crc32c (l.take 60) == leAt l 60 4

/-- FIRMWARE_VERIFIED (R95, R497, R569, R614): of each firmware slot, its generation and digest where it verifies. -/
def firmwareVerified (a b : Option (Nat × List Byte)) : Prog := .read fun s =>
  let h := s.flash.readBytes erased 0 64
  let pick := match a, b with
    | some x, some y => if x.1 < y.1 then some y else some x
    | some x, none => some x
    | none, y => y
  when (s.power.stage == sgBoot && s.domOn domMgt)
    (match bootHeaderOk h, pick with
     | true, some (gen, digest) => block [
         setF F.FSPI_CFG_proto (byteAt h 6 % 4), setF F.FSPI_CFG_suspend_en (byteAt h 6 / 4 % 2),
         updFlash fun x => { x with canSuspend := byteAt h 6 / 4 % 2 == 1 },
         setF F.FSPI_CFG_dummy (byteAt h 7), setF F.FSPI_CFG_size_log2 (byteAt h 8 - 24),
         setF F.FSPI_CFG_page_log2 (byteAt h 9 - 8), setF F.FSPI_FAIL_CFG_fail_bit (byteAt h 10),
         setWide R.FSPI_CMDS 4 (leAt h 12 16),
         updPower fun x => { x with stage := sgHeld, fwGen := gen, fwDigest := digest },
         if s.bit F.AON_MODE_start_kind then when (s.f F.AON_FW_GEN_gen != gen) (block [turnCold, mouldColdLoad])
         else when (s.mld.load.isNone && !s.mouldOk && s.f F.MLD_STATUS_state != 4) mouldColdLoad]
     | _, _ => failStart 2)

/-- GAFFER_RESET_RELEASE (R280, R488, R538, R539, R609): firmware runs; the shelf's references and, at a cold start, the
attic are read. -/
def gafferResetRelease : Prog := .read fun s =>
  let warm := s.bit F.AON_MODE_start_kind
  when (s.power.stage == sgHeld)
    (block [updPower fun x => { x with stage := sgFirmware, gaffer := true, halted := false, kicked := false },
      updFault fun x => { x with wdog := some s.now },
      if warm && (check17 (s.f F.GLB_STRAPS_headcfg) s.mld.active).isSome && !s.mld.active.isEmpty then chipReset rcChipWrite 0
      else block [each allPorts shelfLoad, when (!warm) <| block [atticRead Config.uid.toNat, annealBegins]]])

/-- The provisioning record of R611, where it is good: the certificate chain. -/
def State.provisionedChain (s : State) : Option (List Byte) :=
  let l := s.flash.readBytes erased 0x780000 4096
  let n := leAt l 200 2
  if leAt l 0 4 = 0x56504458 ∧ leAt l 4 2 = 1 ∧ crc32c (l.take 4092) = leAt l 4092 4 ∧ 1 ≤ n ∧ n ≤ 3888 then
    some ((l.drop 204).take n) else none

/-- START_OK (R492, R498, R612, R614): AON.START_CTL.ok is written 1. Firmware that provisions the device has written the
certificate chain before; at a warm start it then starts the ports that wait in SLEEP (R138). -/
def startOk : Prog := .read fun s =>
  let warm := s.bit F.AON_MODE_start_kind
  when (s.power.stage == sgFirmware)
    (block [setF F.AON_START_CTL_ok 1, setF F.AON_START_STAT_warm_fails 0, setF F.AON_START_STAT_cold_fails 0,
      setF F.AON_RET_SEAL_valid 0, setF F.AON_FW_GEN_gen s.power.fwGen, raise R.HSPI_KEVENT 1,
      updPower fun x => { x with stage := sgUp, park := false },
      when (s.otp.lifecycle == 0 && s.otp.keys.any (·.programmed) && s.otp.chain.isEmpty)
        (ifSome s.provisionedChain fun l => .act (.chain l)),
      when warm (each allPorts fun p => .read fun t =>
        when (t.domOn (portDomain p) && t.pst p == stSleep && decide (2 ≤ t.startAdmin p)) (portAdminWrite p (t.startAdmin p)))])

/-- DEADLINE (R499). -/
def deadline : Prog := .read fun s => when (s.power.stage == sgFirmware && !s.bit F.AON_START_CTL_ok) (failStart 3)

/-! Mode entries (R471 to R477). -/

/-- MODE_REQ_WRITE (R473, R474). -/
def modeReqWrite (target : Nat) : Prog := .read fun s =>
  let m := s.devMode
  let refuse := fun (why : Nat) => block [setF F.PWR_MODE_STAT_last_refusal why, raise R.PWR_EVENT 1]
  if s.entering then refuse 2
  else if target = mdRun ∧ (m = mdRamp ∨ m = mdStandby) then
    block [setF F.PWR_MODE_REQ_target target, when (m == mdStandby) verifyStale, deviceMode mdRun, raise R.PWR_EVENT 0, setF F.PWR_AVS_STAT_loop 1]
  else if (m = mdRun ∧ (target = mdStandby ∨ target = mdPark)) ∨ (m = mdStandby ∧ target = mdPark) then
    block [setF F.PWR_MODE_REQ_target target, when s.atticStale atticOccasion]
  else block [setF F.PWR_MODE_REQ_target 0, refuse 1]

/-- MODE_ENTRY_WFI (R292, R467, R473, R475): a WFI of the Gaffer with a lower target that R36 permits starts the entry. -/
def modeEntryWfi : Prog := .read fun s =>
  let t := s.f F.PWR_MODE_REQ_target
  let m := s.devMode
  when (s.fwRuns && !s.entering && ((m == mdRun && (t == mdStandby || t == mdPark)) || (m == mdStandby && t == mdPark)))
    (block [setF F.PWR_MODE_STAT_entering t, setF F.AON_MODE_entering 1, setReg R.PWR_WAKE_LATCH 0,
      updPower fun x => { x with latch := [] }, ledgerAbortAll, when (t == mdPark) mdmaStop,
      when (t == mdStandby) (each (List.range 22) fun d => .read fun u =>
        when (bitOf (u.f F.PWR_STBY_OFF_mask) d && u.domOn d && u.mayGoOff d) (domainOff d false))])

/-- A latched wake takes effect after a STANDBY entry (R477). -/
def replayWake (w : Nat × Nat × Nat) : Prog :=
  block [wakeCause w.1 w.2.1, wakeActs (if w.1 = 1 then some w.2.1 else none) w.2.2]

/-- A reset latched during an entry acts once the entry has completed (R38, R515), but not in SAFE on C4. -/
def latchedReset : Prog := .read fun s =>
  ifSome s.power.resetLatched fun c => block [updPower fun x => { x with resetLatched := none },
    if s.deadSafe then .skip
    else if c = rcResetN then block [resetNow, updPower fun x => { x with resetN := s.power.resetN },
      when (!s.power.resetN) resetRelease]
    else chipReset (c % 16) (c / 16)]

/-- STANDBY_ENTRY_DONE (R475, R477, R481, R621). -/
def standbyEntryDone : Prog := .read fun s =>
  when (s.f F.PWR_MODE_STAT_entering == mdStandby)
    (block [setF F.PWR_MODE_STAT_entering 0, setF F.AON_MODE_entering 0, wrapAdd F.PWR_MODE_STAT_entries 1,
      if s.fault.safeDue.isSome then block [updFault fun x => { x with safeDue := none }, safeSteps]
      else block [deviceMode mdStandby, avsFixed 720],
      raise R.PWR_EVENT 0,
      when (!s.power.latch.isEmpty) (block [updPower fun x => { x with latch := [] },
        when s.fault.safeDue.isNone (each s.power.latch replayWake), raise R.PWR_EVENT 2]),
      latchedReset])

/-- A wake marks ports in PARK (R328 to R330): the ports that slept at the entry. -/
def parkMark (p : Nat) (fwd : Bool) : Prog := .read fun s =>
  when (s.power.asleep.contains p) (block [
    when (fwd && !s.pendingWake p) (updPort p fun x => { x with forwarded := true }),
    when (!fwd) (updPort p fun x => { x with forwarded := false }), setPending p true])

/-- A wake of PARK marks its port and its group's targets, with their cane mates (R322, R328). -/
def parkActs (kind index group : Nat) : Prog := .read fun s =>
  let mates := fun (p : Nat) => match s.caneOf p with
    | some (k, j) => ((s.caneLanes k).filter fun i => i != j).map (2 * k + ·)
    | none => []
  let withMates := fun (p : Nat) (fwd : Bool) => block [parkMark p fwd, each (mates p) fun q => .read fun t =>
    when (!t.pendingWake q) (parkMark q true)]
  block [when (kind == 1) (block [satAdd (F.WAKE_PCOUNT_received index) 1, withMates index false]),
    when (group != 0) (block [raise R.WAKE_EVENT 1, each (bitList 64 (s.wide (R.WAKE_FWD_MASK (group - 1)) 2)) fun p => withMates p true])]

/-- A qualified wake in PARK (R483, R485): PWR_EN high, the cause, the wake table. While PWR_EN is still held low for a latched
wake, it only marks its ports. -/
def parkWake (kind index group : Nat) : Prog := .read fun s =>
  block [parkActs kind index group,
    when (s.power.offWait.isNone) (block [setF F.WAKE_CAUSE_kind kind, setF F.WAKE_CAUSE_index index,
      setF F.WAKE_CAUSE_from_park 1, raise R.WAKE_EVENT 0, beginStart rcParkWake 0, rails true])]

/-- PARK_ENTRY_DONE (R326, R476, R477, R621): quarter stores written, retained banks sealed, rails off, detectors armed. -/
def parkEntryDone : Prog := .read fun s =>
  let mask := leAt (s.sec scRetention) 0 2
  let asleep := allPorts.filter s.sleeps
  let armed := (List.range 16).filterMap fun i =>
    let p := s.f (F.WAKE_PARK_DET_port i)
    if s.bit (F.WAKE_PARK_DET_valid i) && asleep.contains p then some p else none
  when (s.f F.PWR_MODE_STAT_entering == mdPark)
    (block [each (List.range 4) fun q => when (s.domOn (domFur q)) (block [quarterRecords q, setF (F.FUR_QTR_STORE_sealed q) 1]), each allPorts portHold,
      each (List.range 16) fun n => when (bitOf mask n)
        (setReg (R.AON_RET_CRC n) (BitVec.ofNat 32 (crc32c (s.sram.readBytes blank (n * bankSize) bankSize)))),
      setF F.AON_RET_SEAL_valid 1, setF F.AON_RET_SEAL_mask mask, setF F.PWR_RET_STATUS_sealed mask,
      clearMain true, rails false,
      setF F.AON_MODE_mode mdPark, setF F.AON_MODE_entering 0,
      when (s.fault.safeDue.isSome) (setF F.AON_SAFE_STAT_pending 1),
      updPower fun x => { x with stage := sgPark, vmainOk := false, asleep := asleep, armed := armed, offWait := if x.latch.isEmpty then none else some rcParkWake },
      each s.power.latch fun w => parkActs w.1 w.2.1 w.2.2, latchedReset])

/-- POLICY_SETTLE (R327, R470, R471): the target has stayed; firmware prepares the ports for the lower mode: those that are
not watch ports for STANDBY, every enabled port for PARK. -/
def policySettle : Prog := .read fun s =>
  let t := s.voteTarget
  let lower := (s.devMode == mdRun && (t == mdStandby || t == mdPark)) || (s.devMode == mdStandby && t == mdPark)
  when (s.fwRuns && !s.entering && lower)
    (each allPorts fun p => when (s.portEnabled p && s.domOn (portDomain p)
        && (t == mdPark || s.portByte p 0 / 2 % 2 == 0) && s.pst p != stSleep && s.pst p != stDisabled) (portAdminWrite p 1))

/-! Wake sources (R324, R325, R483, R484). -/

/-- The device is in PARK. -/
def State.parked (s : State) : Bool := s.power.stage == sgPark

/-- WUP_QUALIFIED (R295, R324 to R326): at an armed detector; a near-end loop latches it (R198). -/
def wupQualified (p : Nat) : Prog := .read fun s =>
  if s.parked then when (s.power.armed.contains p) (parkWake 1 p (s.portGroup p))
  else if s.nearLoop p then when (bitOf (s.wide R.WAKE_DET_EN 2) p) (markPending p false)
  else when (s.detectorArmed p)
    (if s.entering then latchWake 1 p (s.portGroup p) else block [wakeCause 1 p, wakeActs (some p) (s.portGroup p)])

/-- A carrier of 2 µs or more on a segment's bus: with wake_any it fires the detector of a sleeping segment (R256). -/
def carrierWake (p : Nat) : Prog := .read fun s =>
  when (decide (portClass p = .segment) && if s.domOn (portDomain p) then s.bit (F.PORT_SEG_CFG_wake_any p) && s.pst p == stSleep
      else (s.port p).offSleep == some true) (wupQualified p)

/-- The fields of WAKE_IN[i] in WAKE.IN_CFG: enable and group. -/
def State.wakeIn (s : State) (i : Nat) : Bool × Nat :=
  let w := s.reg R.WAKE_IN_CFG
  (bits w (8 * i) (8 * i) == 1, bits w (8 * i + 7) (8 * i + 4))

/-- WAKE_IN_EDGE (R326, R328): the chosen edge of an enabled input. -/
def wakeInEdge (i : Nat) : Prog := .read fun s =>
  when (s.wakeIn i).1
    (if s.parked then parkWake 2 i (s.wakeIn i).2
     else if s.entering then latchWake 2 i (s.wakeIn i).2
     else when (s.domOn domMgt) (block [wakeCause 2 i, wakeActs none (s.wakeIn i).2]))

/-- CS_WAKE (R483): armed in PARK only; during a PARK entry it is latched. -/
def csWake : Prog := .read fun s =>
  when (s.bit F.AON_PARK_CFG_cs_wake)
    (if s.parked then parkWake 3 0 0
     else when (s.f F.PWR_MODE_STAT_entering == mdPark) (latchWake 3 0 0))

/-- ALARM_MATCH (R483, R484): AON.SECONDS equals AON.ALARM. Outside PARK it raises PWR.EVENT.alarm and wakes nothing. -/
def alarmMatch : Prog := .read fun s =>
  when (s.power.vaon && s.bit F.AON_ALARM_CTL_en && s.wide R.AON_SECONDS 2 % 2 ^ 32 == s.f F.AON_ALARM_seconds)
    (if s.parked then when (s.bit F.AON_PARK_CFG_alarm_wake) (parkWake 4 0 0)
     else block [when (s.domOn domMgt) (raise R.PWR_EVENT 5),
       when (s.f F.PWR_MODE_STAT_entering == mdPark && s.bit F.AON_PARK_CFG_alarm_wake) (latchWake 4 0 0)])

/-! The wake table (R486, R487). -/

/-- The domains and the loop a port start needs. -/
def State.portStarts (s : State) (p : Nat) : Bool := s.portPowered p && s.lineClock p

/-- A loop is asked to run. -/
def pllWant (i : Nat) : Prog := setFBit F.CLK_PLL_EN_en (i - 4) true

/-- A wake-table action on a domain: it is powered and stays on. -/
def tableDomain (d : Nat) : Prog := block [setFBit F.PWR_DOM_REQ_domains d true, domainWant d]

/-- WAKE_TABLE_ACTION (R322, R486, R487): entry i has reached its instant. A port start first asks for what is off and acts once
it is on; port starts are skipped at a cold start. -/
def wakeTableAction (i : Nat) : Prog := .read fun s =>
  let delay := s.f (F.WAKE_TABLE_delay i)
  let act := s.f (F.WAKE_TABLE_action i)
  let t := s.f (F.WAKE_TABLE_target i)
  let earlier := s.power.table.any fun j => decide (j < i) && s.f (F.WAKE_TABLE_delay j) == delay
  let done := updPower fun x => { x with table := x.table.erase i }
  let ready := fun (k : Nat) => bitOf (s.f F.CLK_READY_ready) k
  when (s.power.table.contains i && !earlier && s.domOn domMgt)
    (if act = 1 then block [done, tableDomain t]
     else if act = 2 then block [done, tableDomain (domFur t)]
     else if act = 3 then
       (if t < 3 then when (ready 2) (block [done, pllWant (t + 4)])
        else if t < 7 then when (ready 4) (block [done, pllWant (t + 4)])
        else when (s.domOn domCxp) (block [done, pllWant 11]))
     else if act = 4 ∧ !s.power.tableCold then
       let ps := match s.caneOf t with
         | some (k, _) => (s.caneLanes k).map (2 * k + ·)
         | none => [t]
       if ps.all s.portStarts then
         block [done, each ps fun p => block [
           .read fun u => when (!u.pendingWake p) (block [setPending p true, updPort p fun x => { x with forwarded := true }]),
           wakeServe p]]
       else each ps fun p => block [tableDomain (portDomain p), each (s.portQuarters p) fun q => tableDomain (domFur q),
         when (ready 4 && decide (p < 56)) (pllWant (7 + homeQuarter p))]
     else done)

end Sys2Proof.Machine
end

