-- ==== Sys2Proof/Machine/Clocks.lean ====
section
/-!
DEFINITION. Clock sources, loops, switches and gates (chapter 16).
-/
namespace Sys2Proof.Machine

/-- Identifiers of R501. -/
def ckSlck : Nat := 0
def ckFrc : Nat := 1
def ckXo : Nat := 2
def ckRclk : Nat := 3
def ckRloop : Nat := 4
def ckSpll : Nat := 5
def ckTpll : Nat := 6
def ckCxl : Nat := 11

/-- CLK.READY of a clock. -/
def State.clkReady (s : State) (i : Nat) : Bool := bitOf (s.f F.CLK_READY_ready) i
def setReady (i : Nat) (b : Bool) : Prog := setFBit F.CLK_READY_ready i b

/-- The main rails are on and CLK is powered. -/
def State.clkOn (s : State) : Bool := s.domOn domTbc

/-- The reference of a loop is there, and the loop runs (R486, R501). -/
def State.loopRuns (s : State) (i : Nat) : Bool :=
  bitOf (s.f F.CLK_PLL_EN_en) (i - 4) &&
    (if i ≤ 6 then s.clkReady ckXo else if i < 11 then s.clkReady ckRloop else s.domOn domCxp)

/-- CLOCK_READY (R501, R502): a source has been counted, or a loop has locked for the first time. `crystal` names the source of
SLCK. -/
def clockReady (i : Nat) (crystal : Bool) : Prog := .read fun s =>
  if i = ckSlck then when s.power.vaon
    (block [if crystal then setF F.AON_SLCK_CFG_xtal_ok 1 else setF F.AON_SLCK_CFG_rc_ok 1,
      when (s.bit F.AON_SLCK_CFG_src == crystal) (block [updClock fun x => { x with slck := true }, when s.clkOn (setReady 0 true)])])
  else when (s.clkOn && (i == ckFrc || i == ckXo || (decide (4 ≤ i ∧ i ≤ 11) && s.loopRuns i))) (setReady i true)

/-! RCLK and RLOOP (R503 to R506). -/

/-- The anchor port, where the mould names one (R503). -/
def State.anchor (s : State) : Option Nat :=
  let p := byteAt (s.sec scTime) 1
  if s.mouldOk ∧ p < 64 then some p else none

def rlXo : Nat := 0
def rlTrack : Nat := 1
def rlCoast : Nat := 2

/-- A clock is judged lost: READY falls, the loss is logged, source_lost is raised (R513). -/
def sourceLost (i cls : Nat) : Prog :=
  block [setReady i false, raise R.CLK_EVENT 3, emit 0x03 kClockLoss cls i 0]

/-- RCLK is lost (R506, R513): COAST where RLOOP tracks it. -/
def rclkLost : Prog := .read fun s =>
  block [sourceLost ckRclk 1, when (s.f F.CLK_RLOOP_STAT_state == rlTrack)
    (block [setF F.CLK_RLOOP_STAT_state rlCoast, setF F.CLK_REF_LOST_lost 1, raise R.CLK_EVENT 2])]

/-- R503 no longer holds once the anchor has left UP. -/
def rclkWatch : Prog := .read fun s =>
  when (s.clkReady ckRclk && (match s.anchor with | some p => s.pst p != stUp | none => true)) rclkLost

/-- RCLK_READY (R503): the recovered frequency of the anchor over a 1 ms window, in 0.01 ppm of XO. -/
def rclkReady (offset : Int) : Prog := .read fun s =>
  let near := decide (-10000 ≤ offset ∧ offset ≤ 10000)
  ifSome s.anchor fun p => when (s.clkOn && s.pst p == stUp)
    (if near then block [setReady ckRclk true, updClock fun x => { x with anchor := offset }]
     else when (s.clkReady ckRclk) rclkLost)

/-- A refused switch (R508). -/
def switchRefused (sw id : Nat) : Prog :=
  block [raise R.CLK_EVENT 0, setF F.CLK_SW_STAT_refused_sw sw, setF F.CLK_SW_STAT_refused_id id]

/-- LREF_SELECT (R504, R508): a write of CLK.SEL_LINE. -/
def lrefSelect (rclkOut lref : Nat) : Prog := .read fun s =>
  let st := s.f F.CLK_RLOOP_STAT_state
  block [setF F.CLK_SEL_LINE_rclk_out (if rclkOut = 3 then 0 else rclkOut),
    if lref = 0 then when (st != rlXo)
      (block [setF F.CLK_SEL_LINE_lref 0, setF F.CLK_RLOOP_STAT_state rlXo, setF F.CLK_REF_LOST_lost 0])
    else if st = rlTrack then .skip
    else if s.clkReady ckRclk then
      block [setF F.CLK_SEL_LINE_lref 1, setF F.CLK_RLOOP_STAT_state rlTrack, setF F.CLK_REF_LOST_lost 0]
    else switchRefused 3 ckRclk]

/-- The offset that RLOOP moves toward, in 0.01 ppm (R505). -/
def State.rloopGoal (s : State) : Int :=
  let st := s.f F.CLK_RLOOP_STAT_state
  if st = rlTrack then s.clock.anchor else if st = rlCoast then -10000 else 0

/-- One step of 0.01 ppm of the slew (R505): 2 ppm per ms is one such step every 5 µs. -/
def rloopSlew : Prog := .read fun s =>
  let now := signed 16 (s.f F.CLK_RLOOP_STAT_offset)
  let next := if now < s.rloopGoal then now + 1 else if s.rloopGoal < now then now - 1 else now
  when (next != now) (setF F.CLK_RLOOP_STAT_offset (unsigned 16 next))

/-! Switches (R507 to R509): 1 fabric, 2 Gaffer, 4 SLCK. -/

/-- A switch starts. -/
def switchStart (sw : Nat) : Prog := updClock fun x => { x with switching := if x.switching.contains sw then x.switching else sw :: x.switching }

/-- The record of the latest switch of a switch: forced or not. -/
def switchMark (sw : Nat) (forced : Bool) : Prog :=
  if sw = 4 then setF F.AON_SLCK_CFG_forced (b2n forced) else setFBit ⟨R.CLK_SWITCH_FORCED, 1, 0⟩ (sw - 1) forced

/-- One bit of a write of CLK.SEL_CORE. -/
def coreSwitch (sw v : Nat) : Prog := .read fun s =>
  let fld : Field := ⟨R.CLK_SEL_CORE, sw - 1, sw - 1⟩
  let src := if v = 1 then ckSpll else ckFrc
  when (s.f fld != v) (if s.clkReady src then block [setF fld v, switchStart sw] else switchRefused sw src)

/-- CLOCK_SWITCH_WRITE of the core switches (R508). -/
def clockSwitchWrite (fabric gaffer : Nat) : Prog := block [coreSwitch 1 fabric, coreSwitch 2 gaffer]

/-- A write of AON.SLCK_CFG.src lands (R508). -/
def slckSwitch (src : Nat) : Prog := .read fun s =>
  let ready := if src = 1 then s.bit F.AON_SLCK_CFG_xtal_ok else s.bit F.AON_SLCK_CFG_rc_ok
  when (s.f F.AON_SLCK_CFG_src != src)
    (if ready then block [setF F.AON_SLCK_CFG_src src, switchStart 4] else when s.clkOn (switchRefused 4 ckSlck))

/-- SWITCH_COMPLETE (R507). -/
def switchComplete (sw : Nat) : Prog := .read fun s =>
  when (s.clock.switching.contains sw) (block [updClock fun x => { x with switching := x.switching.erase sw }, switchMark sw false])

/-- SWITCH_FORCED (R509): the old source had stopped. -/
def switchForced (sw : Nat) : Prog := .read fun s =>
  when (s.clock.switching.contains sw)
    (block [updClock fun x => { x with switching := x.switching.erase sw }, switchMark sw true, when s.clkOn (raise R.CLK_EVENT 1)])

/-! Losing a clock (R513). -/

/-- The ports that use a line clock leave UP and TRAIN and wait in LISTEN. A segment leaves UP without a drop record: cause 0x01
arises on it from beacon loss alone (R244, R620). -/
def lineDrop (uses : Nat → Bool) : Prog :=
  each allPorts fun p => .read fun s => when (uses p)
    (if s.linkUp p && portClass p != .segment then portDropNow p 1
     else when (s.linkUp p || s.pst p == stTrain) (toListen p true))

/-- The ports homed on a quarter or with usable slots in it. -/
def State.usesQuarter (s : State) (q p : Nat) : Bool :=
  decide (p < 56) && (homeQuarter p == q || (s.portQuarters p).contains q)

/-- Fabric and Gaffer go to FRC. -/
def coreToFrc (forced : Bool) : Prog := .read fun s =>
  each [1, 2] fun sw => when (bits (s.reg R.CLK_SEL_CORE) (sw - 1) (sw - 1) == 1)
    (block [setF ⟨R.CLK_SEL_CORE, sw - 1, sw - 1⟩ 0, updClock fun x => { x with switching := x.switching.erase sw },
      switchMark sw forced, when forced (raise R.CLK_EVENT 1)])

/-- CLOCK_LOSS of a source (R506, R513, R549): SLCK, FRC, XO, RCLK. The collector cannot log the loss of the clock that it runs
on. -/
def clockLoss (i : Nat) : Prog := .read fun s =>
  when (s.clkOn && s.clkReady i)
    (if i = ckSlck then
       (if s.bit F.AON_SLCK_CFG_src then
          block [sourceLost 0 1, setF F.AON_SLCK_CFG_xtal_ok 0, setF F.AON_SLCK_CFG_src 0, switchMark 4 true, raise R.CLK_EVENT 1,
            setReady 0 (s.bit F.AON_SLCK_CFG_rc_ok)]
        else block [sourceLost 0 3, setF F.AON_SLCK_CFG_rc_ok 0, updClock fun x => { x with slck := false }])
     else if i = ckFrc then
       (if s.bit F.CLK_SEL_CORE_fabric then sourceLost 1 3
        else block [setReady 1 false, raise R.CLK_EVENT 3, updFault fun x => { x with stopped := true }])
     else if i = ckXo then block [sourceLost 2 3, coreToFrc true]
     else if i = ckRclk then rclkLost else .skip)

/-- What the loss of a loop's output does. -/
def loopGone (i : Nat) : Prog := .read fun s =>
  block [setReady i false,
    if i = ckRloop then block [each [7, 8, 9, 10] fun k => setReady k false, lineDrop fun _ => true]
    else if i = ckSpll then coreToFrc false
    else if i = ckTpll then tbState tsFree
    else if i = ckCxl then each (List.range 4) fun h => headReset h 4
    else lineDrop (s.usesQuarter (i - 7))]

/-- PLL_UNLOCK (R513). -/
def pllUnlock (i : Nat) : Prog := .read fun s =>
  when (decide (4 ≤ i ∧ i ≤ 11) && s.clkOn && s.clkReady i)
    (block [raise R.CLK_EVENT 4, emit 0x03 kPllUnlock (if i ≤ 6 then 3 else 2) i 0, loopGone i])

/-- PLL_RELOCK (R513). -/
def pllRelock (i : Nat) : Prog := .read fun s =>
  when (decide (4 ≤ i ∧ i ≤ 11) && s.clkOn && !s.clkReady i && s.loopRuns i) (block [setReady i true, raise R.CLK_EVENT 6])

/-! Gates and loop enables (R510, R511). -/

/-- The parent of a gate (R510). -/
def gateParent (g : Nat) : Option Nat :=
  if g = 1 ∨ g = 2 ∨ g = 3 ∨ g = 4 ∨ g = 5 ∨ g = 7 then some 0
  else if g = 6 then some 5
  else if (9 ≤ g ∧ g ≤ 12) ∨ g = 17 ∨ g = 18 then some 8
  else if 13 ≤ g ∧ g ≤ 16 then some (g - 4)
  else if g = 20 then some 19
  else none

/-- A gate bit of a write is refused, judged against the values that the write leaves. -/
def gateRefused (old new g : Nat) : Bool :=
  (bitOf old g && !bitOf new g && (List.range 21).any fun c => gateParent c == some g && bitOf new c) ||
  (!bitOf old g && bitOf new g && match gateParent g with | some p => !bitOf new p | none => false)

/-- One round of refusals: refused bits keep their old value. -/
def gateRound (old new : Nat) : Nat :=
  (List.range 21).foldl (fun n g => if gateRefused old new g then (if bitOf old g then setBit n g else clrBit n g) else n) new

/-- What a write of CLK.GATE leaves: a refusal can bring another one, four deep at most. -/
def gateResult (old want : Nat) : Nat :=
  let w := setBit (setBit (setBit (want % 2 ^ 21) 0) 1) 19
  gateRound old (gateRound old (gateRound old (gateRound old w)))

/-- GATE_WRITE (R511, R512). -/
def gateWrite (v : Nat) : Prog := .read fun s =>
  let old := s.f F.CLK_GATE_gate
  let want := setBit (setBit (setBit (v % 2 ^ 21) 0) 1) 19
  let new := gateResult old want
  let off := fun (g : Nat) => bitOf old g && !bitOf new g
  block [setF F.CLK_GATE_gate new, when (new != want) (raise R.CLK_EVENT 5),
    each (List.range 4) fun q => block [when (off (9 + q)) (lineDrop fun p => decide (p < 56) && homeQuarter p == q),
      when (off (13 + q)) (lineDrop fun p => (s.portQuarters p).contains q)],
    when (off 17) (lineDrop fun p => decide (56 ≤ p))]

/-- PLL_EN_WRITE (R511): a loop that a switch selects, or that feeds a loop which stays on, is not turned off. -/
def pllEnWrite (v : Nat) : Prog := .read fun s =>
  let old := s.f F.CLK_PLL_EN_en
  let spll := bitOf old 1 && !bitOf v 1 && (s.bit F.CLK_SEL_CORE_fabric || s.bit F.CLK_SEL_CORE_gaffer)
  let rloop := bitOf old 0 && !bitOf v 0 && v / 8 % 16 != 0
  let v1 := if spll then setBit (v % 256) 1 else v % 256
  let new := if rloop then setBit v1 0 else v1
  block [setF F.CLK_PLL_EN_en new, when (spll || rloop) (raise R.CLK_EVENT 5),
    each (List.range 8) fun k => when (bitOf old k && !bitOf new k && s.clkReady (k + 4)) (loopGone (k + 4))]

end Sys2Proof.Machine
end

