-- ==== Sys2Proof/Machine/Faults.lean ====
section
/-!
DEFINITION. The collector at work: taking messages, reactions, the fault record, the watchdog, monitors, checker tests, the
cellar's self-test, fault injection, block resets by register (chapter 17, R518).
-/
namespace Sys2Proof.Machine

/-! Taking messages (R526, R531 to R536, R549, R618). -/

/-- A message placed after those of its source and of lower ones (R526). -/
def insertMsg (m : Msg) : List Msg → List Msg
  | [] => [m]
  | x :: t => if m.src < x.src then m :: x :: t else x :: insertMsg m t

/-- The messages of one edge in the order they are taken. -/
def sortMsgs (l : List Msg) : List Msg := l.foldl (fun acc m => insertMsg m acc) []

/-- The collector can take a message (R549): the fabric has its clock and SLCK runs; the loss of SLCK itself is still
taken (R513). -/
def State.takes1 (s : State) (m : Msg) : Bool :=
  (s.clkReady ckFrc || s.bit F.CLK_SEL_CORE_fabric || !s.fault.stopped) &&
  (s.clock.slck || (m.kind == kClockLoss && m.detail == 0))

/-- A WATCHDOG or LOCKSTEP message before AON.START_CTL.ok is the failed start GAFFER_FAULT (R499). -/
def State.gafferFault (s : State) (m : Msg) : Bool :=
  (m.kind == kWatchdog || m.kind == kLockstep) && !s.bit F.AON_START_CTL_ok && s.power.stage == sgFirmware

/-- The action that a message asks for: a block reset of a source whose row is a chip reset is one (R518). -/
def State.action (s : State) (m : Msg) : Nat :=
  let a := (s.reaction m).action
  if s.gafferFault m then 2 else if a = 1 ∧ chipSource m.src then 2
  else if a = 1 ∧ !resettable m.src then 0 else a

/-- The interrupt reaction (R535). -/
def faultInterrupt : Prog := .read fun s =>
  let h := s.holder
  block [raise R.FLT_EVENT 0, send (.gaffer "fault"),
    when (s.mouldOk && s.attached h && (s.head h).bme && s.bit F.FLT_IRQ_REARM_rearm)
      (block [msix h (s.f F.FLT_IRQ_CFG_vec), setF F.FLT_IRQ_REARM_rearm 0])]

/-- Every DMA engine stops for a reaction's record (R532). -/
def dmaStop : Prog := .read fun s =>
  block [mdmaStop, each s.liveRings fun r => block [ringDisable r.1 r.2, ringStopped r.1 r.2]]

/-- A chip reset by reaction (R532, R536): the fourth within 60 s enters SAFE. -/
def chipReaction (m : Msg) : Prog := .read fun s =>
  if s.gafferFault m then block [recordBegin ⟨2, m.cls, 2, m.src⟩, dmaStop]
  else if 3 ≤ s.f F.AON_REACT_RESETS_count then enterSafe 3 2 m.src m.kind 0
  else block [recordBegin ⟨2, m.cls, 1, m.src⟩, dmaStop]

/-- The reactions of messages taken on one edge (R533, R534). -/
def react (ms : List Msg) : Prog := .read fun s =>
  if s.bit F.AON_SAFE_STAT_safe || s.reacting then
    when (s.bit F.AON_SAFE_STAT_safe && ms.any fun m => decide (4 ≤ m.cls)) (enterSafe 4 3 0 0 0)
  else block [
    when (ms.any fun m => (s.reaction m).irq) faultInterrupt,
    when (ms.any fun m => (s.reaction m).trap) (send (.gaffer "nmi")),
    when (ms.any fun m => (s.reaction m).stop) (updFault fun x => { x with stopped := true }),
    match ms.find? fun m => s.action m == 3 with
    | some m => if 4 ≤ m.cls then enterSafe 4 3 m.src m.kind 0 else enterSafe 3 1 m.src m.kind 0
    | none => match ms.find? fun m => s.action m == 2 with
      | some m => chipReaction m
      | none => each ((ms.filter fun m => s.action m == 1).map (·.src)).eraseDups fun i => blockReset i .skip]

/-- The messages raised are taken (R526, R531); while MGT is off only those of AON are kept, up to eight (R618). -/
def takeMessages : Prog := .read fun s =>
  let ms := sortMsgs s.intake
  if !s.domOn domMgt then
    block [.act .take, updFault fun x => { x with held := (x.held ++ ms.filter fun m => m.src == 0x17).take 8 }]
  else
    let ok := ms.filter s.takes1
    block [.act .take, each ok logMsg, react ok]

/-- Messages are taken until none is left; reactions can raise more. -/
def collect : Nat → Prog
  | 0 => .skip
  | n + 1 => .read fun s => if s.intake.isEmpty then .skip else .seq takeMessages (collect n)

/-- FLT's BLK_SUM becomes non-zero: HSPI.KEVENT.fault. -/
def faultEdge : Prog := .read fun s =>
  let now := blkSum s 0x40000 != 0
  block [when (now && !s.fault.fltSum) (raise R.HSPI_KEVENT 3),
    when (now != s.fault.fltSum) (updFault fun x => { x with fltSum := now })]

/-- HSPI_INT_N follows KEVENT and its mask; it is released while MGT is off (R567). -/
def keeperPin : Prog := .read fun s =>
  let low := s.domOn domMgt && sqAny s R.HSPI_KEVENT
  when (low != s.fault.intLow) (block [updFault fun x => { x with intLow := low }, send (.pin "HSPI_INT_N" (b2n (!low)))])

/-- What every command ends with: the collector takes what was raised, and the summary interrupts are sent. -/
def settle : Prog := block [collect 16, faultEdge, summaryIrq, keeperPin]

/-! The ledger's queue (R288, R291). -/

/-- Why the cellar's self-test may not run (R553); 0 = it may. -/
def State.mbistRefusal (s : State) : Nat :=
  if s.devMode ≠ mdStandby then 4 else if !s.domOn domPkt || !s.noRing then 5 else 0

/-- A granted self-test of the cellar runs. -/
def mbistRun : Prog := block [setF F.FLT_MBIST_STAT_state 2, setF F.FLT_MBIST_STAT_result 0]

/-- A self-test of the cellar is refused. -/
def mbistRefused (why : Nat) : Prog := block [setF F.FLT_MBIST_STAT_state 4, setF F.FLT_MBIST_STAT_result why]

/-- A queued request comes to be granted: its start conditions are checked again (R291). -/
def grantQueued (b : Booking) : Prog := .read fun s =>
  let go := fun (p : Prog) => block [.act (.grant b), p]
  let code := fun (why : Nat) (refuse : Nat → Prog) (p : Prog) => if why ≠ 0 then refuse why else go p
  .seq (.act (.dequeue b))
    (if b.act = 1 then code (s.tdrRefusal b.port (s.bit (F.DIAG_TDR_CTL_force b.port))) (tdrRefused b.port) (tdrRun b.port)
     else if b.act = 2 then (match s.sweepRefusal with
       | some (pos, why) => sweepRefused pos why
       | none => go sweepRun)
     else if b.act = 3 then
       (if b.req = 6 then go (stageRun b.port) else code (s.annealRefusal b.port) (annealRefused b.port) (annealRun b.port))
     else if b.act = 4 ∨ b.act = 5 ∨ b.act = 6 then
       code (s.loopRefusal b.port) (fun w => block [setF (F.PORT_LOOP_STAT_state b.port) 4, setF (F.PORT_LOOP_STAT_result b.port) w])
         (loopRun b.port)
     else if b.act = 7 then each b.qtrs fun q => if s.quarterBusy q then setFBit F.FUR_SELFTEST_refused q true else go (selftestRun q)
     else if b.act = 8 then code s.mbistRefusal mbistRefused mbistRun
     else go (setF F.DIAG_FLASH_BOOK_granted 1))

/-- The first request of the queue that can be granted now. -/
def firstGrantable (books : List Booking) : List Booking → List Booking → Option Booking
  | _, [] => none
  | older, b :: t => if grantable books older b then some b else firstGrantable books (older ++ [b]) t

/-- The queue is examined, oldest first, until nothing more can be granted (R288). -/
def ledgerServe : Nat → Prog
  | 0 => .skip
  | n + 1 => .read fun s =>
    match firstGrantable s.ledger.books [] s.ledger.queue with
    | some b => .seq (grantQueued b) (ledgerServe n)
    | none => .skip

/-- What the block does by itself once a command has had its effect. -/
def pump : Prog := block [txLookAll, mdmaServe, rclkWatch, ledgerServe 8, each (List.range 5) stageBegin, each (List.range 4) caneEdge, orphanEdge]

/-! The record (R542) and the counts (R536). -/

/-- FAULT_RECORD_DONE (R542): the record at the head of the wait is written or skipped, and what it precedes follows. A chip
reset during a mode entry waits for its end (R515). -/
def faultRecordDone (failed : Bool) : Prog := .read fun s =>
  ifSome s.fault.recWait.head? fun r => when (s.domOn domMgt)
    (block [recordWrite r failed, updFault fun x => { x with recWait := x.recWait.tail },
      if r.andThen = 2 then failStart 4
      else when (r.andThen == 1 && !s.bit F.AON_SAFE_STAT_safe) (block [satAdd F.AON_REACT_RESETS_count 1,
        if s.entering then updPower fun x => { x with resetLatched := some (rcChipReaction + 16 * r.source) }
        else chipReset rcChipReaction r.source])])

/-- REACT_RESET_WINDOW (R536): 60 s without a chip reset by reaction. -/
def reactWindow : Prog := .read fun s => when s.power.vaon (setF F.AON_REACT_RESETS_count 0)

/-- COLLECTOR_SELF (R548): part 1 log memory, 2 control state, 3 reaction engine. -/
def collectorSelf (part : Nat) : Prog := .read fun s =>
  when (s.domOn domMgt) (block [setF F.FLT_STAT_self_fault 1, enterSafe 4 4 0x01 kCollectorSelf part])

/-! Monitors (R528, R529). -/

/-- SUPPLY (R528). -/
def supplyFault (rail : Nat) : Prog := .read fun s => when (s.domOn domMgt) (emit 0x04 kSupply 3 rail 0)

/-- One threshold of one sensor. -/
def thermCross (i v thr cls : Nat) : Prog := .read fun s =>
  let on := s.fault.hot.contains (i, cls)
  block [when (decide (thr ≤ v) && !on) (block [emit 0x04 kOvertemp cls v i, updFault fun x => { x with hot := (i, cls) :: x.hot }]),
    when (decide (v + 5 ≤ thr) && on) (updFault fun x => { x with hot := x.hot.erase (i, cls) })]

/-- The hottest of a list of readings: sensor and value. -/
def hottest : List (Nat × Nat) → Nat × Nat
  | [] => (0, 0)
  | (v, i) :: t => let r := hottest t; if r.2 ≤ v then (i, v) else r

/-- OVERTEMP (R529): the eight sensors are read, in °C plus 64. -/
def overtemp (tj : List Nat) : Prog := .read fun s =>
  let h := hottest tj.zipIdx
  when (s.domOn domMgt) (block [setF F.FLT_THERM_sensor h.1, setF F.FLT_THERM_now_tj h.2,
    setF F.FLT_THERM_max_tj (max h.2 (s.f F.FLT_THERM_max_tj)),
    each tj.zipIdx fun e => block [thermCross e.2 e.1 189 2, thermCross e.2 e.1 199 3]])

/-! ALIVE, watchdog, lockstep (R537 to R540). -/

/-- ALIVE_TOGGLE (R537, R538). -/
def aliveToggle : Prog := .read fun s =>
  when (s.power.kicked && !s.fault.stopped && !s.bit F.AON_SAFE_STAT_safe && s.clock.slck && s.domOn domMgt
      && !s.bit F.FLT_STAT_self_fault)
    (block [updFault fun x => { x with alive := !x.alive }, send (.pin "ALIVE" (b2n (!s.fault.alive)))])

/-- The watchdog expires (R539). -/
def watchdogExpire : Prog := .read fun s =>
  when s.fault.wdog.isSome
    (block [updFault fun x => { x with wdog := none, stopped := true }, setF F.FLT_WDOG_STAT_expired 1,
      emit 0x09 kWatchdog 3 0 (s.f F.FLT_WDOG_CFG_timeout_ms)])

/-- WATCHDOG_KICK (R538, R539): a write of FLT.WDOG_KICK. -/
def watchdogKick (key : Nat) : Prog := .read fun s =>
  if key = 0x7A91 then block [when s.fault.wdog.isSome (updFault fun x => { x with wdog := some s.now }),
    updPower fun x => { x with kicked := x.kicked || x.gaffer }]
  else watchdogExpire

/-- LOCKSTEP (R540): both cores halt. -/
def lockstep (pc : Nat) : Prog := .read fun s =>
  when s.fwRuns (block [updPower fun x => { x with halted := true }, emit 0x09 kLockstep 3 0 pc])

/-- FLT.WDOG_STAT.left_ms as read. -/
def State.wdogLeft (s : State) : Nat :=
  let t := max 1 (s.f F.FLT_WDOG_CFG_timeout_ms)
  match s.fault.wdog with
  | some k => t - (s.now - k) / 1000000
  | none => if s.bit F.FLT_WDOG_STAT_expired then 0 else t

/-! Checker tests (R550 to R552). -/

/-- The source that reports for a checker; `at_` names the head, block or port where the checker has several. -/
def checkerSource (c at_ : Nat) : Nat :=
  if c < 0x10 then 0x09 else if c < 0x14 then c
  else if c = 0x14 then 0x0A else if c = 0x15 then 0x08 else if c = 0x16 then 0x0B
  else if c = 0x17 then 0x0C + at_ % 4 else if c = 0x18 then at_ % 128
  else if c = 0x19 then 0x40 + at_ % 64 else if c = 0x1A then 0x09 else 0x01

/-- The kind that a checker would have raised. -/
def checkerKind (c : Nat) (corr : Bool) : Nat :=
  if c < 0x16 then (if corr then kEccCorr else kEccUncorr)
  else if c = 0x18 then (if corr then kTmrDisagree else kTmrLost)
  else if c = 0x1A then kLockstep
  else if c = 0x1B then (if corr then kEccCorr else kCollectorSelf)
  else kParity

def ctRunning : Nat := 1

/-- A checker test ends. -/
def checkerEnd (result : Nat) : Prog :=
  block [setF F.FLT_CHK_STAT_state 2, setF F.FLT_CHK_STAT_result result, setF F.FLT_CHK_STAT_remaining 0, raise R.FLT_EVENT 3]

/-- CHECKER_TEST_START (R551): a write of FLT.CHK_CTL. -/
def checkerStart (checker count limit : Nat) (start : Bool) : Prog := .read fun s =>
  let busy := s.f F.FLT_CHK_STAT_state == ctRunning
  block [setF F.FLT_CHK_CTL_checker checker, setF F.FLT_CHK_CTL_count count, setF F.FLT_CHK_CTL_limit_ms limit,
    when start
      (if busy then setF F.FLT_CHK_STAT_result 4
       else if checker == 0x14 && s.cellarBooked then block [setF F.FLT_CHK_STAT_state 2, setF F.FLT_CHK_STAT_result 4]
       else block [setF F.FLT_CHK_STAT_state ctRunning, setF F.FLT_CHK_STAT_result 0, setF F.FLT_CHK_STAT_detected 0,
         setF F.FLT_CHK_STAT_remaining (max 1 count), updFault fun x => { x with checker := checker }])]

/-- CHECKER_TEST (R551, R552): one check of the checker under test, detected or passed. -/
def checkerTest (detected corr : Bool) (at_ w1 : Nat) : Prog := .read fun s =>
  let c := s.fault.checker
  when (s.f F.FLT_CHK_STAT_state == ctRunning)
    (if detected then block [emit (checkerSource c at_) kCheckerTest 0 (checkerKind c corr * 256 + c) w1,
        satAdd F.FLT_CHK_STAT_detected 1, setF F.FLT_CHK_STAT_remaining (s.f F.FLT_CHK_STAT_remaining - 1),
        when (s.f F.FLT_CHK_STAT_remaining == 1) (checkerEnd 1)]
     else block [emit (checkerSource c at_) kSelftestFail 2 c 0, checkerEnd 2])

/-- CHECKER_TEST_TIMEOUT (R552). -/
def checkerTimeout : Prog := .read fun s => when (s.f F.FLT_CHK_STAT_state == ctRunning) (checkerEnd 3)

/-! The cellar's self-test (R553, R554). -/

/-- The booking of the self-test (R286). -/
def mbistBooking (req : Nat) : Booking :=
  { req := req, act := 8, port := 0xFF, bundle := 0x1F, ports := [], blines := [], qtrs := [], flash := false, cellar := true }

/-- MBIST_START (R553). -/
def mbistStart (req : Nat) (noWait : Bool) : Prog := .read fun s =>
  let st := s.f F.FLT_MBIST_STAT_state
  when (st != 1 && st != 2)
    (block [setF F.FLT_MBIST_CTL_no_wait (b2n noWait),
      if s.mbistRefusal ≠ 0 then mbistRefused s.mbistRefusal
      else ledgerRequest (mbistBooking req) noWait mbistRun
        (block [setF F.FLT_MBIST_STAT_state 1, setF F.FLT_MBIST_STAT_result 0]) (mbistRefused 6)])

/-- MBIST_STOP (R291, R554). -/
def mbistStop : Prog := .read fun s =>
  let st := s.f F.FLT_MBIST_STAT_state
  when (st == 1 || st == 2) (ifSome ((s.ledger.books ++ s.ledger.queue).find? fun b => b.act == 8) activityAbort)

/-- MBIST_DONE (R554): every cell is zero, every written bit is set; failing cells are counted. -/
def mbistDone (fails first : Nat) : Prog := .read fun s =>
  when (s.f F.FLT_MBIST_STAT_state == 2)
    (block [setF F.FLT_MBIST_STAT_state 3, setF F.FLT_MBIST_STAT_result (if fails = 0 then 1 else 2),
      setF F.FLT_MBIST_STAT_fail_cells (min fails (2 ^ 18 - 1)), when (fails != 0) (setF F.FLT_MBIST_FAIL_cell first),
      .act (.cellarClear 0 25165824), .act (.filled [(0, 393216)]), setF F.CEL_STAT_init_done 1,
      when (fails != 0) (emit 0x0A kSelftestFail 2 0 first), raise R.FLT_EVENT 4,
      ifSome (s.ledger.books.find? fun b => b.act == 8) fun b => .act (.release b)])

/-! Fault injection (R555). -/

/-- The factory test state (R4). DESIGN CHOICE (log entry 154): R4 gives only what it needs; here TEST_MODE high with a lifecycle of
FACTORY or RETURN is enough, and the mode field goes on showing the operating mode. -/
def State.factoryTest (s : State) : Bool := s.pins.testMode && (s.otp.lifecycle == 0 || s.otp.lifecycle == 2)

/-- FAULT_INJECT, as a write of FLT.INJ_CTL from a path: it works only in the factory test state. -/
def injectWrite (path checker bit : Nat) (double start : Bool) : Prog := .read fun s =>
  if !s.factoryTest then denied path R.FLT_INJ_CTL true
  else block [setF F.FLT_INJ_CTL_checker checker, setF F.FLT_INJ_CTL_bit bit, setF F.FLT_INJ_CTL_double (b2n double),
    when start (setF F.FLT_INJ_CTL_start 1)]

/-- FAULT_INJECT, as the read that meets the corrupted word: the checker reports it as a true error (R223, R224, R527, R540,
R548). -/
def injectRead (at_ syndrome w1 : Nat) : Prog := .read fun s =>
  let c := s.f F.FLT_INJ_CTL_checker
  let double := s.bit F.FLT_INJ_CTL_double
  when (s.bit F.FLT_INJ_CTL_start)
    (block [setF F.FLT_INJ_CTL_start 0,
      if 0x10 ≤ c ∧ c < 0x14 then
        (let n := 32 * (c - 0x10) + at_ % 32
         if double then eccUncorr n syndrome else eccCorr n syndrome w1)
      else if c < 0x16 then
        emit (checkerSource c at_) (if double then kEccUncorr else kEccCorr)
          (if !double then 1 else if c < 0x10 then 3 else 2) (syndrome % 256) w1
      else if c = 0x18 then emit (srcOf s w1) kTmrDisagree 1 0 w1
      else if c = 0x1A then lockstep w1
      else if c = 0x1B then (if double then collectorSelf 1 else satAdd F.FLT_STAT_total 1)
      else emit (checkerSource c at_) kParity 2 0 w1])

/-! Block resets by register (R518). -/

/-- BLOCK_RESET: a write of RST.BLOCK. -/
def blockWrite (src : Nat) (go : Bool) : Prog := .read fun s =>
  block [setF F.RST_BLOCK_source src,
    when go
      (if !resettable src then block [setF F.RST_BLOCK_STAT_refused 1, raise R.RST_EVENT 1]
       else block [setF F.RST_BLOCK_STAT_refused 0, blockReset src
         (if s.deadSafe then .skip
          else if s.entering then updPower fun x => { x with resetLatched := some rcChipWrite }
          else chipReset rcChipWrite 0)])]

end Sys2Proof.Machine
end

