-- ==== Sys2Proof/Machine/Views.lean ====
section
/-!
DEFINITION. What a read finds in a word of the register space, once the checks of R46 have passed it: stored words, words
that the device computes, the shadow view, always-on copies (R41 to R76).
-/
namespace Sys2Proof.Machine

/-! The register at an offset. -/

/-- A range of PORT[p] that does not apply to the port's class is unimplemented (R118). -/
def classHas (off : Nat) : Bool :=
  if 0x1000000 ≤ off ∧ off < 0x1400000 then
    let p := (off - 0x1000000) / 0x10000
    let o := off % 0x10000
    if 0x200 ≤ o ∧ o < 0x300 then decide (p < 8) else if 0x300 ≤ o ∧ o < 0x400 then decide (p < 56)
    else if 0x400 ≤ o ∧ o < 0x500 then decide (56 ≤ p) else true
  else true

/-- Whether a 64 KiB block with the common header lies at a base (R44, R45). -/
def isBlock (b : Nat) : Bool := decide (b < 0x18 ∨ (0x100 ≤ b ∧ b < 0x140))

/-- has_ws of the block that holds an offset (R45). -/
def hasWs (off : Nat) : Bool :=
  let b := off / 0x10000
  [0x06, 0x08, 0x10, 0x11, 0x12, 0x13, 0x14].contains b || decide (0x100 ≤ b ∧ b < 0x140)

/-- Whether an offset lies in the shadow view of its block, and the offset of its register (R54). -/
def isShadow (off : Nat) : Bool := hasWs off && decide (0x8000 ≤ off % 0x10000)
def plainOff (off : Nat) : Nat := if isShadow off then off - 0x8000 else off

/-- The register of a table at a plain offset. -/
def tableReg (off : Nat) : Option Loc := if classHas off then findReg off else none

/-- A register of the common header at a plain offset (R45). -/
def isHeader (off : Nat) : Bool := isBlock (off / 0x10000) && [0x7F00, 0x7F04, 0x7F08, 0x7F0C].contains (off % 0x10000)

/-- An offset is implemented (R44): a register of a table or, in the normal view, of the common header. -/
def implemented (off : Nat) : Bool := (tableReg (plainOff off)).isSome || (isHeader off && !isShadow off)

/-- Fields of the common header (R45). -/
def headerFields (off : Nat) : List FieldRow :=
  match off % 0x10000 with
  | 0x7F00 => [⟨31, 24, .ro, false, 0xB1⟩, ⟨23, 16, .ro, false, 0⟩, ⟨15, 8, .ro, false, 0⟩, ⟨7, 7, .ro, false, 0⟩, ⟨6, 0, .rv, false, 0⟩]
  | 0x7F04 => [⟨31, 0, .rw, false, 0⟩]
  | 0x7F08 => [⟨31, 24, .rv, false, 0⟩, ⟨23, 16, .ro, false, 0⟩, ⟨15, 10, .rv, false, 0⟩, ⟨9, 9, .lv, false, 0⟩, ⟨8, 8, .lv, false, 0⟩, ⟨7, 0, .rv, false, 0⟩]
  | _ => [⟨31, 0, .lv, false, 0⟩]

/-- The fields of the word at a plain offset. -/
def fieldsAt (off : Nat) : List FieldRow :=
  match tableReg off with
  | some l => l.fields
  | none => if isHeader off then headerFields off else []

/-- The owner class of the register at a plain offset (R45, R48). -/
def ownerAt (off : Nat) : Option Owner :=
  match tableReg off with
  | some l => some l.row.owner
  | none =>
    if !isHeader off then none
    else if off % 0x10000 = 0x7F04 then
      some (if decide (0x100 ≤ off / 0x10000) || decide (0x10 ≤ off / 0x10000 ∧ off / 0x10000 < 0x14) then .head else .steward)
    else some .firmware

/-- The bits of a word that belong to fields with some property. -/
def bitsWhere (l : List FieldRow) (c : FieldRow → Bool) : Nat :=
  l.foldl (fun n f => if c f then n + (2 ^ (f.hi + 1) - 2 ^ f.lo) else n) 0

/-! Values that the device computes. -/

/-- BLK_INFO (R45): the tag, the type in the order of the block map, the instance, has_ws. -/
def blkInfo (base : Nat) : Word :=
  let b := base / 0x10000
  let type := if b < 0x10 then b else if b < 0x14 then 0x10 else if b < 0x18 then b - 3 else 0x15
  let inst := if 0x10 ≤ b ∧ b < 0x14 then b - 0x10 else if 0x100 ≤ b then b - 0x100 else 0
  BitVec.ofNat 32 (0xB1 * 2 ^ 24 + type * 2 ^ 16 + inst * 2 ^ 8 + b2n (hasWs base) * 2 ^ 7)

/-- The two words of a ledger entry as BOOK[i] and QUEUE[i] show it. -/
def bookWord (b : Option Booking) (w : Nat) : Nat :=
  match b with
  | none => 0
  | some b =>
    if w = 0 then 2 ^ 31 + b.req * 2 ^ 28 + b.act
    else b2n b.cellar * 2 ^ 21 + b2n b.flash * 2 ^ 20 + maskOf ((List.range 4).map fun q => b.qtrs.contains q) * 2 ^ 16
      + b.bundle % 32 * 2 ^ 8 + b.port % 256

/-- The owner of a slot, if any. -/
def State.slotOwner (s : State) (n : Nat) : Option Nat := (s.slots.find? fun e => e.1 == n).map (·.2)

/-- The state of the canceller that an owner code names. -/
def State.ownerPair (s : State) (o : Nat) : Nat := s.f (F.BND_PAIR_STAT_state ((o - 4096) / 64) ((o - 4096) % 64))

/-- A slot is clock-gated (R226). -/
def State.slotGated (s : State) (n : Nat) : Bool :=
  match s.slotOwner n with
  | none => true
  | some o => if o < 4096 then (s.port o).returned else [pcNone, pcDisabled, pcIdle].contains (s.ownerPair o)

/-- A slot adapts or applies coefficients: one that serves its owner (R203, R230), a port's only while its receiver is not quiet (R207). -/
def State.slotActive (s : State) (n : Nat) : Bool :=
  match s.slotOwner n with
  | none => false
  | some o =>
    if o < 4096 then decide (stTrain ≤ s.pst o ∧ s.pst o ≤ stLpi) && !(s.port o).returned && !s.receiverQuiet o && (s.serving o).contains n
    else [pcFrozen, pcConverging, pcActive].contains (s.ownerPair o) && (s.pairServing ((o - 4096) / 64) ((o - 4096) % 64)).contains n

/-- POT[n].STAT. -/
def State.potStat (s : State) (n : Nat) : Nat :=
  let each8 := fun (f : Nat → Bool) => maskOf ((List.range 8).map fun i => f (8 * n + i))
  b2n (bitOf (s.f (F.FUR_QTR_DEAD_dead (n / 32))) (n % 32)) * 2 ^ 17 + s.f (F.POT_STAT_spare n) * 2 ^ 16
    + each8 s.slotGated * 2 ^ 8 + each8 s.slotActive

/-- FUR.QTR_STAT[q]. Of the 33 physical pots of a quarter, one serves no logical pot and is gated (log entry 9). -/
def State.qtrStat (s : State) (q : Nat) : Nat :=
  let mine := s.slots.filter fun e => e.1 / 256 == q
  let gated := 1 + ((List.range 32).filter fun i => (List.range 8).all fun j => s.slotGated (256 * q + 8 * i + j)).length
  b2n (s.domOn (domFur q)) * 2 ^ 31 + b2n (!s.quarterBusy q) * 2 ^ 30 + gated * 2 ^ 24 + s.f (F.FUR_QTR_STAT_spare q) * 2 ^ 22
    + (mine.filter fun e => decide (e.2 < 64) && (s.port e.2).returned).length * 2 ^ 9 + min mine.length 256

/-- FUR.PSLOT[p]. -/
def State.pslot (s : State) (p : Nat) : Nat :=
  let u := s.usable p
  let a := u.headD (0, 0)
  let b := (u.tail).headD (a.1, 0)
  let third := decide (2 < ((List.range 4).filter fun q => s.slots.any fun e => e.2 == p && e.1 / 256 == q).length)
  let short := s.portEnabled p && !((List.range 8).any fun m => bitOf (classModes (portClass p)) m && decide (m ≤ s.topMode p) && s.fits p m)
  let claim := s.fur.reclaims.any fun e => e.2.contains p
  b.2 * 2 ^ 24 + b.1 * 2 ^ 20 + a.2 * 2 ^ 12 + a.1 * 2 ^ 8 + b2n third * 2 ^ 6 + b2n short * 2 ^ 5
    + b2n (s.port p).returned * 2 ^ 4 + b2n (claim || !(s.port p).reclaimLeft.isEmpty) * 2 ^ 3

/-- FUR.PUSE[p]. -/
def State.puse (s : State) (p : Nat) : Nat :=
  if stTrain ≤ s.pst p ∧ s.pst p ≤ stLpi then
    let m := s.pmode p
    (s.usableTotal p - portCost m - s.boost p m) * 2 ^ 16 + s.boost p m * 2 ^ 8 + portCost m
  else 0

/-- The words that the device computes when they are read: by register, indices and word; `path` is the reader. -/
def State.computed (s : State) (path : Nat) (l : Loc) : Option Nat :=
  let i := l.idx.headD 0
  match l.row.id with
  | .GLB_VENDOR => some Config.vendorId.toNat
  | .GLB_COMMIT => some 0
  | .GLB_SUMMARY => some (s.summary path)
  | .FLT_WDOG_STAT => some (s.f F.FLT_WDOG_STAT_expired * 2 ^ (F.FLT_WDOG_STAT_expired).lo + s.wdogLeft * 2 ^ (F.FLT_WDOG_STAT_left_ms).lo)
  | .FLT_INJ_CTL => if s.factoryTest then none else some 0
  | .TB_NOW => some (match l.word with | 0 => s.tb.frac | 1 => s.tb.ns | 2 => s.tb.sec % 2 ^ 32 | _ => s.tb.sec / 2 ^ 32)
  | .TB_NOW64 => some (if l.word = 0 then s.tb64 % 2 ^ 32 else s.tb64 / 2 ^ 32)
  | .MLD_KEY_PROG_DATA | .MLD_KEY_PROG_CTL => if s.otp.lifecycle = 0 then none else some 0
  | .FUR_QTR_STAT => some (s.qtrStat i)
  | .FUR_QTR_STORE => some ((s.fur.records.within (i * 65536) (i * 65536 + 65536)).length * 2 ^ 16
      + s.f (F.FUR_QTR_STORE_seal_fail i) * 2 + s.f (F.FUR_QTR_STORE_sealed i))
  | .FUR_PSLOT => some (s.pslot i)
  | .FUR_PUSE => some (s.puse i)
  | .POT_STAT => some (s.potStat i)
  | .CAL_ELEM_SEL => if path = 4 then some s.cal.selGaffer.toNat else none
  | .CAL_ELEM_DATA => some (s.elemData (if path = 4 then s.cal.selGaffer else s.reg R.CAL_ELEM_SEL)).toNat
  | .DIAG_LEDGER_STAT => some (min s.ledger.queue.length 8 * 2 ^ 24 + s.ledger.books.length * 2 ^ 16
      + s.f F.DIAG_LEDGER_STAT_full_count * 2 ^ 8 + s.f F.DIAG_LEDGER_STAT_last_refusal)
  | .DIAG_BOOK => some (bookWord s.ledger.books[i]? l.word)
  | .DIAG_QUEUE => some (bookWord s.ledger.queue[i]? l.word)
  | .MDMA_STAT => some s.mdmaStat
  | .CEL_RX_USED => some (s.halfCells 0)
  | .CEL_TX_USED => some (s.halfCells 1)
  | .BND_PAIR_STAT =>
    let k := l.idx.getD 1 0
    let o := cancelOwner i k
    some (s.f (F.BND_PAIR_STAT_depth i k) * 2 ^ 16 + min (s.pairSlots i k) 255 * 2 ^ 8
      + b2n ((s.record (s.f (F.BND_CFG_quarter i)) o).isSome) * 2 ^ 3 + s.f (F.BND_PAIR_STAT_state i k))
  | .AON_WR_PEND => some s.acQueue.length
  | .PORT_STATE => some (putBits (s.reg (R.PORT_STATE i)) (F.PORT_STATE_coeff_stored i).hi (F.PORT_STATE_coeff_stored i).lo
      (b2n (s.storedMode i).isSome)).toNat
  | .PORT_LOCAL_ID =>
    let id := 0x6450 * 2 ^ 48 + Config.uid.toNat % 2 ^ 40 * 2 ^ 8 + i
    some (if l.word = 0 then id % 2 ^ 32 else id / 2 ^ 32)
  | .PORT_X50_STAT => some (putBits (s.reg (R.PORT_X50_STAT i)) (F.PORT_X50_STAT_boost_slots i).hi (F.PORT_X50_STAT_boost_slots i).lo
      (s.boost i 7)).toNat
  | .QP_SUM => some (b2n (s.qpAny i))
  | _ => none

/-- A register whose words together are one value (R74, R75). FSPI.CMDS holds eight commands, not one value (log entry 10). -/
def isWide (l : Loc) : Bool := decide (1 < l.row.words.length) && decide (l.row.id ≠ .FSPI_CMDS)

/-- Blocks and registers that a head or the Gaffer reads from the always-on copy (R67). -/
def fromCopy (path off : Nat) : Bool :=
  (decide (path ≠ 6) && decide (0x160000 ≤ off ∧ off < 0x180000)) || off == R.PWR_WAKE_LATCH || off == R.PWR_RET_STATUS

/-- A word of a bundle that the mould does not define, CFG apart: it reads zero (the register section of chapter 6). -/
def State.undefinedBundle (s : State) (off : Nat) : Bool :=
  decide (0x140000 ≤ off ∧ off < 0x144000 ∧ off % 0x400 ≠ 0) && !s.bit (F.BND_CFG_valid ((off - 0x140000) / 0x400))

/-- A word of the normal or of the shadow view as a path reads it. BLK_SUM of an always-on block is that of its copy (R67). -/
def State.wordAt (s : State) (path off : Nat) : Word :=
  let o := plainOff off
  if s.undefinedBundle o then 0
  else if isShadow off then BitVec.ofNat 32 (Nat.land (s.stagedWord o).toNat (bitsWhere (fieldsAt o) fun f => decide (f.acc = .ws)))
  else if isHeader o then
    match o % 0x10000 with
    | 0x7F00 => blkInfo o
    | 0x7F04 => if hasWs o then s.reg o else 0
    | 0x7F08 => s.reg o
    | _ => BitVec.ofNat 32 (blkSum (if fromCopy path o then { s with regs := s.acCopy } else s) (o / 0x10000 * 0x10000))
  else match tableReg o with
    | none => 0
    | some l => match s.computed path l with
      | some v => BitVec.ofNat 32 v
      | none => if fromCopy path o then s.acCopy.getD o (resetWord o) else s.reg o

/-- The key of a snapshot (R74). -/
def snapKey (path off : Nat) : Nat := path * 2 ^ 26 + off

/-- A word that passed the checks is read: the lowest word of a wide value latches the upper ones, an upper word gives the
snapshot of the reading path (R74). -/
def readWord (path off : Nat) (k : Word → Prog) : Prog := .read fun s =>
  match tableReg (plainOff off) with
  | none => k (s.wordAt path off)
  | some l =>
    if !isWide l then k (s.wordAt path off)
    else if l.word = 0 then
      .seq (each (List.range (l.row.words.length - 1)) fun i => .act (.snap (snapKey path (off + 4 * (i + 1))) (s.wordAt path (off + 4 * (i + 1)))))
        (k (s.wordAt path off))
    else k (s.snaps.getD (snapKey path off) 0)

end Sys2Proof.Machine
end

