-- ==== Sys2Proof/Machine/Route.lean ====
section
/-!
DEFINITION. Accesses to the register space: the order of checks (R46), owner classes (R48), what a written word does
(R50 to R55, R62, R68, R75), reads and the votes of triplicated fields (R70, R71).
-/
namespace Sys2Proof.Machine

/-! The order of checks. -/

/-- The register side answers (R558): MGT is on and not held in reset. -/
def State.ready (s : State) : Bool := s.domOn domMgt

/-- A switchable block is powered and clocked (R16, R46 check 6, R512). -/
def State.blockOn (s : State) (off : Nat) : Bool :=
  let gate := fun (g : Nat) => bitOf (s.f F.CLK_GATE_gate) g
  let b := off / 0x10000
  if b < 0x08 then (if b = 0x02 ∨ b = 0x05 ∨ b = 0x06 then s.domOn domTbc else true)
  else if b = 0x08 then
    (if 0x2000 ≤ off % 0x10000 ∧ off % 0x10000 < 0x2800 then
      let q := (off % 0x10000 - 0x2000) / 0x200
      s.domOn (domFur q) && gate (13 + q)
    else true)
  else if b = 0x09 ∨ b = 0x0A then gate 4
  else if b = 0x0B then gate 3
  else if b = 0x0C then gate 2
  else if b = 0x0E then s.domOn domPkt && gate 6
  else if b = 0x0F ∨ (0x200 ≤ b ∧ b < 0x220) then s.domOn domPkt && gate 5
  else if 0x10 ≤ b ∧ b < 0x14 then s.domOn domCxc && gate 7
  else if 0x100 ≤ b ∧ b < 0x140 then
    let p := b - 0x100
    s.domOn (portDomain p) && gate (if p < 56 then 9 + homeQuarter p else 17)
  else true

/-- The target lies outside the head's partition (R33). -/
def State.foreign (s : State) (h off : Nat) : Bool :=
  let b := off / 0x10000
  if 0x10 ≤ b ∧ b < 0x14 then b != 0x10 + h
  else if 0x100 ≤ b ∧ b < 0x140 then s.portHead (b - 0x100) != some h
  else if 0x200 ≤ b ∧ b < 0x220 then s.qpHead ((off - 0x2000000) / 0x1000) != some h
  else false

/-- MLD.LOAD_SRC and MLD.LOAD_CTL while no mould is loaded (R97). -/
def State.loadOpen (s : State) (off : Nat) : Bool :=
  !s.mouldOk && (off == R.MLD_LOAD_SRC || off == R.MLD_LOAD_SRC + 4 || off == R.MLD_LOAD_CTL)

/-- A path may write a register of an owner class (R48, R398). -/
def State.ownerOk (s : State) (path : Nat) (o : Owner) (i : Nat) : Bool :=
  let steward := decide (path = 4) || (decide (path < 4) && s.holder == path)
  match o with
  | .firmware => decide (path = 4)
  | .steward => steward
  | .head => decide (path ≤ 4)
  | .keeper => decide (path = 6)
  | .mch => if i < 8 then decide (path = 4) else steward

/-- A head may not change the timebase while it follows the grandmaster (R339). -/
def State.tbClosed (s : State) (path off : Nat) : Bool :=
  decide (path < 4) && (s.f F.TB_STAT_state == tsLocking || s.f F.TB_STAT_state == tsLocked) &&
    (decide (R.TB_SET ≤ off ∧ off < R.TB_SET + 16) || off == R.TB_STEP || off == R.TB_ADJ)

/-- The outcome of the checks. -/
inductive Answer where
  /-- the off pattern, with or without ACCESS_OFF -/
  | off (log : Bool)
  /-- zero, dropped, and ACCESS_DENIED -/
  | refused
  /-- zero, dropped, no log entry -/
  | silent
  | granted
deriving DecidableEq, Repr

/-- The checks of R46 in order, with those of R339, R379 and R545, for an access of a path to an offset. A register of the
common header has no place in the shadow view, so no owner there. -/
def State.judge (s : State) (path off : Nat) (write : Bool) : Answer :=
  let b := off / 0x10000
  let head := decide (path < 4)
  let o := plainOff off
  if head && s.bit F.FLT_STAT_safe && !(off == 0 || off == 4 || b == 0x04) then .off false
  else if path == 6 && !s.ready && !(b == 0x16 || b == 0x17) then .off false
  else if path != 6 && !s.ready then .silent
  else if head && !s.mouldOk && !(b == 0x00 || b == 0x07 || b == 0x04) then .refused
  else if head && s.foreign path off then .refused
  else if write && head && !s.attached path && !s.loadOpen o && off != R.HEAD_ATTACH path then .refused
  else if write && !s.loadOpen o && !(isShadow off && isHeader o) && (match ownerAt o with
      | some c => !s.ownerOk path c ((tableReg o).elim 0 fun l => l.idx.headD 0)
      | none => false) then .refused
  else if write && s.loadOpen o && path == 6 then .refused
  else if !s.blockOn off then .off true
  else if write && path == 4 && s.bit F.FLT_STAT_safe && !(List.contains [0x04, 0x0C, 0x0D, 0x03, 0x02] b) then .silent
  else if write && s.tbClosed path o then .refused
  else if !implemented off then .silent
  else .granted

/-- A block that is off was accessed (R46, check 6). -/
def accessOff (path off : Nat) : Prog := .read fun s => emit (srcOf s off) kAccessOff 0 path off

/-- A write that passes the checks does something; one that does not is dropped with the log entry that its check gives. -/
def access (path off : Nat) (p : Prog) : Prog := .read fun s =>
  match s.judge path off true with
  | .granted => p
  | .refused => denied path off true
  | .off true => accessOff path off
  | _ => .skip

/-- A write would give an RV field another value than it holds (R13, R53). Writes to SQ registers ignore bits [23:0] (R62),
and the shadow view has WS fields only (R55). -/
def State.breaksRv (s : State) (path off : Nat) (w : Word) : Bool :=
  let o := plainOff off
  let fs := fieldsAt o
  s.judge path off true == .granted && !isShadow off && !(fs.any fun f => decide (f.acc = .sq)) &&
    fs.any fun f => decide (f.acc = .rv) && bits w f.hi f.lo != bits (s.reg o) f.hi f.lo

/-! What a value is stored as. -/

/-- A port whose MODE_CFG.role is read-only (R127). -/
def State.roleFixed (s : State) (p : Nat) : Bool :=
  s.anchor == some p || match s.bundleOf p with
    | some b => (List.range (s.f (F.BND_CFG_pairs b))).any fun i => s.f (F.BND_PAIR_CFG_kind b i) == 3
    | none => false

/-- A written word as the device stores it, where a rule bounds a field without any other effect (R120, R125, R127, R208, R356,
R368, R401, R475). -/
def State.storedAs (s : State) (path : Nat) (l : Loc) (w : Word) : Word :=
  let i := l.idx.headD 0
  match l.row.id with
  | .PORT_MODE_CFG =>
    let w0 := if portClass i = .segment then putBits w (F.PORT_MODE_CFG_an_en i).hi (F.PORT_MODE_CFG_an_en i).lo 0 else w
    let w1 := if s.topMode i < bits w0 11 8 then putBits w0 11 8 (s.topMode i) else w0
    if s.roleFixed i then putBits w1 15 14 (s.fs (F.PORT_MODE_CFG_role i)) else w1
  | .PORT_ADV => putBits w 7 1 (bits w 7 1 % 2 ^ s.topMode i)
  | .PORT_MAC_CFG => putBits w 13 0 (max 64 (min 9216 (bits w 13 0)))
  | .PORT_SEG_TIMING => putBits w 7 0 (max 32 (bits w 7 0))
  | .FUR_SLOT =>
    let w1 := if bits w 31 30 = 3 then putBits w 31 30 0 else w
    if bits w1 15 14 = 3 then putBits w1 15 14 0 else w1
  | .LCH_GCL_CFG_CTRL => putBits (putBits w 14 8 (max 1 (min 64 (bits w 14 8)))) 6 4 (min 6 (bits w 6 4))
  | .LCH_GCL_CFG_CYCLE => BitVec.ofNat 32 (max 1000 (min 1000000000 w.toNat))
  | .LCH_LG_MASK => if path < 4 then putBits w 31 24 0 else w
  | .HEAD_REQ_CFG => putBits w 12 0 (max 64 (min (s.budget i) (bits w 12 0)))
  | .PWR_STBY_OFF => putBits w 23 22 0
  | _ => w

/-- Store a word: RW fields at once, WS fields in their shadow, every other field unchanged (R50, R52, R54, R55). A port's
change is told to what stands on it. -/
def storeWord (o : Nat) (shadow : Bool) (w : Word) : Prog := .read fun s =>
  let fs := fieldsAt o
  let put := fun (old : Word) (m : Nat) => BitVec.ofNat 32 (Nat.lor (Nat.land old.toNat (Nat.xor m 0xFFFFFFFF)) (Nat.land w.toNat m))
  let rw := bitsWhere fs fun f => decide (f.acc = .rw)
  let ws := bitsWhere fs fun f => decide (f.acc = .ws)
  block [when (rw != 0 && !shadow) (setReg o (put (s.reg o) rw)),
    when (ws != 0) (.act (.stage o (put (s.stagedWord o) ws)))]

/-! What a write of a register does besides being stored. -/

/-- Event bits whose cause lasts (R64): a failed AVSBus, a lost reference (log entry 11). -/
def lasting (off : Nat) (s : State) : Nat :=
  if off = R.PWR_EVENT then 2 ^ 4 * s.f F.PWR_AVS_STAT_bus_fail
  else if off = R.CLK_EVENT then 2 ^ 2 * s.f F.CLK_REF_LOST_lost
  else 0

/-- PORT_ADMIN_WRITE, as a path writes CTL.admin: a transmit enable (0b10, 0b11) for a port outside the transmit-enable mask is
stored as 0 (R19, R115; log entry 24). -/
def portAdminAsk (p a : Nat) : Prog := .read fun s =>
  if 2 ≤ a && !bitOf (s.wide R.MLD_GOV_TXEN 2) p then block [governorClamp (R.PORT_CTL p) 1 p, portAdminWrite p 0]
  else portAdminWrite p a

/-- A write of PORT[p].CTL (R132, R159). -/
def portCtlWrite (p : Nat) (w : Word) : Prog := .read fun s =>
  let a := bits w 1 0
  let beyond := 2 ≤ a && !bitOf (s.wide R.MLD_GOV_TXEN 2) p
  if bits w 5 5 = 1 then block [when beyond (governorClamp (R.PORT_CTL p) 1 p), portResetWrite p (if beyond then 0 else a)]
  else if bits w 4 4 = 1 then block [when (s.f (F.PORT_CTL_admin p) != a) (portAdminAsk p a), portRestart p]
  else portAdminAsk p a

/-- A write of LG[g].CTL (R355): disarm acts first; in ARMED and APPLYING the settings are locked. -/
def lgCtlWrite (path g : Nat) (w : Word) : Prog := .read fun s =>
  let start := lgArm path g (bits w 5 4) (bits w 6 6) (bits w 8 8)
  if bits w 1 1 = 1 then block [lgDisarm g, if bits w 0 0 = 1 then start else when (!s.lgLocked g) (lgFields g (bits w 5 4) (bits w 6 6) (bits w 8 8))]
  else if bits w 0 0 = 1 then start
  else if s.lgLocked g then denied path (R.LCH_LG_CTL g) true
  else lgFields g (bits w 5 4) (bits w 6 6) (bits w 8 8)

/-- A write of MLD.REMOULD_CTL (R105, R110). Without start, kind, cg and hold_ms of a remould that is CHECKING or STAGED
stay as its start wrote them (DESIGN CHOICE: log entry 155). -/
def remouldCtlWrite (w : Word) : Prog :=
  block [when (bits w 1 1 == 1) remouldCancel,
    if bits w 0 0 = 1 then remouldStart (bits w 2 2) (bits w 12 8) (bits w 23 16)
    else .read fun s => when (s.f F.MLD_REMOULD_STAT_state != remouldChecking && s.f F.MLD_REMOULD_STAT_state != remouldStaged)
      (block [setF F.MLD_REMOULD_CTL_kind (bits w 2 2), setF F.MLD_REMOULD_CTL_cg (bits w 12 8), setF F.MLD_REMOULD_CTL_hold_ms (bits w 23 16)])]

/-- A write of CAL.PORT_CTL[p], DIAG.TDR_CTL[p], DIAG.SWEEP_CTL, PORT[p].LOOP_CTL, FLT.MBIST_CTL: the settings are stored,
stop acts, then start. -/
def annealCtlWrite (path p noWait force : Nat) (start stop : Bool) : Prog :=
  block [when stop (annealAbort p), setF (F.CAL_PORT_CTL_no_wait p) noWait, setF (F.CAL_PORT_CTL_force p) force, when start (annealStart path p)]
def tdrCtlWrite (path p noWait force : Nat) (start stop : Bool) : Prog :=
  block [when stop (tdrStop p), setF (F.DIAG_TDR_CTL_no_wait p) noWait, setF (F.DIAG_TDR_CTL_force p) force, when start (tdrStart path p)]
def sweepCtlWrite (path cg noWait force : Nat) (start arm stop : Bool) : Prog :=
  block [when stop sweepStop, setF F.DIAG_SWEEP_CTL_cg cg, setF F.DIAG_SWEEP_CTL_no_wait noWait, setF F.DIAG_SWEEP_CTL_force force,
    when (start || arm) (sweepStart path (arm && !start))]
def loopCtlWrite (path p mode noWait force source kind : Nat) (start stop : Bool) : Prog := .read fun s =>
  block [when stop (loopStop p),
    when ((s.port p).loop == 0 || stop) (block [setF (F.PORT_LOOP_CTL_mode p) mode, setF (F.PORT_LOOP_CTL_no_wait p) noWait,
      setF (F.PORT_LOOP_CTL_force p) force, setF (F.PORT_LOOP_CTL_source p) source, setF (F.PORT_LOOP_CTL_kind p) kind]),
    when start (loopStart path p)]
def mbistCtlWrite (path noWait : Nat) (start stop : Bool) : Prog :=
  block [when stop mbistStop, if start then mbistStart path (noWait == 1) else setF F.FLT_MBIST_CTL_no_wait noWait]

/-- FP_CAPTURE and FP_CLEAR (R303). -/
def fpCtlWrite (p : Nat) (capture clear : Bool) : Prog :=
  block [when clear (fpClear p), when capture (setF (F.DIAG_FP_CTL_capture p) 1)]

/-- A write of a mailbox's MBX_CTL (R404, R405). -/
def mbxCtlWrite (path m : Nat) (w : Word) : Prog :=
  block [when (bits w 2 2 == 1) (mbxAbort m), when (bits w 1 1 == 1) (mbxAck path m), when (bits w 0 0 == 1) (mbxPost path m)]

/-- A write of a ring's CTL (R107, R439, R440). -/
def ringCtlWrite (path q d en : Nat) : Prog := .read fun s =>
  if en = 0 then ringDisable q d
  else if s.rgState q d == rgStopped && s.remouldNames q then denied path (ringOff (R.QP_RX_CTL q) d) true
  else ringEnable q d

/-- A write of FLT.WDOG_CFG (R539). -/
def wdogCfgWrite (lock timeout : Nat) : Prog := .read fun s =>
  when (!s.bit F.FLT_WDOG_CFG_lock) (block [setF F.FLT_WDOG_CFG_timeout_ms timeout, setF F.FLT_WDOG_CFG_lock lock])

/-- A write of WAKE.CFG lands: a spacing below its governor is stored at it (R51, R115). -/
def wakeCfgWrite (retries spacing : Nat) : Prog := .read fun s =>
  let least := s.f F.MLD_GOV_WAKE_spacing_ms
  block [setF F.WAKE_CFG_retries retries, setF F.WAKE_CFG_spacing_ms (max spacing least),
    when (decide (spacing < least)) (governorClamp R.WAKE_CFG 2 0)]

/-- A write of PKT.LAT_CFG: clear zeroes every PKT.LAT[h]. -/
def latCfgWrite (threshold : Nat) (clear : Bool) : Prog :=
  block [setF F.PKT_LAT_CFG_threshold_ns threshold,
    when clear (each (List.range 4) fun h => block [resetReg (R.PKT_LAT_MINMAX h), resetReg (R.PKT_LAT_OVER h), resetReg (R.PKT_LAT_MEASURED h)])]

/-- A write of QUAL_CFG: EVENT.sqi_low is raised where the new warning level lies above the present SQI (R149). -/
def qualCfgWrite (p : Nat) (w : Word) : Prog :=
  block [storeWord (R.PORT_QUAL_CFG p) false w, .read fun s =>
    let warn := s.f (F.PORT_QUAL_CFG_sqi_warn p)
    let q := s.f (F.PORT_LINK_QUAL_sqi p)
    when (s.linkUp p)
      (block [when (decide (q < warn) && (s.port p).sqiArmed) (block [raise (R.PORT_EVENT p) 4, updPort p fun x => { x with sqiArmed := false }]),
        when (decide (warn ≤ q)) (updPort p fun x => { x with sqiArmed := true })])]

/-- A write whose state does not admit it: dropped and logged, or ignored (R92, R97, R355, R404, R440, R613). -/
def State.closed (s : State) (path off : Nat) (l : Loc) : Option Prog :=
  let i := l.idx.headD 0
  let no := some (denied path off true)
  let mute := fun (d : Nat) => if s.rgState i d == rgStopped || s.rgState i d == rgFault then none else some .skip
  match l.row.id with
  | .LCH_LG_MASK | .LCH_LG_TIME => if s.lgLocked i then no else none
  | .MLD_LOAD_SRC => if s.mouldOk then no else none
  | .MLD_KEY_PROG_DATA | .MLD_KEY_PROG_CTL => if s.otp.lifecycle = 0 then none else no
  | .HEAD_MBX_REQ => if s.mbx i = mbIdle then none else no
  | .HSPI_MBX_REQ => if s.mbx 4 = mbIdle then none else no
  | .QP_RX_BASE | .QP_RX_HEAD_IDX => mute 0
  | .QP_TX_BASE | .QP_TX_HEAD_IDX => mute 1
  | _ => none

/-- LIFECYCLE_ADVANCE: a write of GLB.LIFECYCLE_CTL (R613). A write without go only stores the target; a wrong key drops
the write. -/
def lifecycleWrite (path key target : Nat) (go : Bool) : Prog := .read fun s =>
  let forward := (s.otp.lifecycle == 0 && target == 1) || (s.otp.lifecycle == 1 && target == 2)
  let fieldOk := target != 1 || (s.otp.keys.any (·.programmed) && !s.otp.chain.isEmpty && !s.bit F.GLB_LIFECYCLE_test_mode_seen)
  if !go then when (!s.bit F.GLB_LIFECYCLE_CTL_go) (setF F.GLB_LIFECYCLE_CTL_target target)
  else when (key == 0x5A3C && !s.bit F.GLB_LIFECYCLE_CTL_go)
    (block [setF F.GLB_LIFECYCLE_CTL_target target,
      if forward && fieldOk then
        block [setF F.GLB_LIFECYCLE_CTL_go 1, setF F.GLB_LIFECYCLE_CTL_result 0, .act (.lifecycle target), setF F.GLB_LIFECYCLE_state target]
      else block [setF F.GLB_LIFECYCLE_CTL_result 2, denied path R.GLB_LIFECYCLE_CTL true]])

/-- LIFECYCLE_FUSE_DONE (R613). -/
def lifecycleFuseDone (verified : Bool) : Prog := .read fun s =>
  when (s.bit F.GLB_LIFECYCLE_CTL_go)
    (block [setF F.GLB_LIFECYCLE_CTL_go 0, setF F.GLB_LIFECYCLE_CTL_result (if verified then 1 else 3)])

/-- A head attaches by a plain write of ATTACH: the configuration that its host has set so far stands. -/
def attachWrite (h : Nat) (w : Word) : Prog := .read fun s =>
  let x := s.head h
  block [when (bits w 1 1 == 1) (detach h),
    when (bits w 0 0 == 1) (attach h x.bme (s.bit (F.HEAD_STAT_ats_en h)) x.fnMask x.openVecs)]

/-- What a write of one word does where the register is a control, from a path; none where it is only stored. -/
def control (path off : Nat) (l : Loc) (w : Word) : Option Prog :=
  let i := l.idx.headD 0
  let b := fun (hi lo : Nat) => bits w hi lo
  let t := fun (k : Nat) => bits w k k == 1
  match l.row.id with
  | .GLB_LIFECYCLE_CTL => some (lifecycleWrite path (b 31 16) (b 1 0) (t 2))
  | .GLB_COMMIT => some (commit path w.toNat)
  | .PWR_MODE_REQ => some (modeReqWrite (b 2 0))
  | .PWR_HOST_REQ => some (hostReqWrite (b 2 0))
  | .PWR_KEEPER_REQ => some (keeperReqWrite (b 2 0) (t 8))
  | .PWR_DOM_REQ => some (domReqWrite path (b 23 0))
  | .PWR_DOM_FORCE => some (domForceWrite path (b 23 0))
  | .CLK_SEL_CORE => some (clockSwitchWrite (b 0 0) (b 1 1))
  | .CLK_SEL_LINE => some (lrefSelect (b 9 8) (b 0 0))
  | .CLK_PLL_EN => some (pllEnWrite (b 11 4))
  | .CLK_GATE => some (gateWrite (b 20 0))
  | .RST_CHIP => some (chipWrite path (b 15 8) (t 0))
  | .RST_BLOCK => some (blockWrite (b 6 0) (t 31))
  | .FLT_LOG_CTL => some (when (t 0) logClear)
  | .FLT_IRQ_REARM => some (when (t 0) (setF F.FLT_IRQ_REARM_rearm 1))
  | .FLT_WDOG_CFG => some (wdogCfgWrite (b 31 31) (b 15 0))
  | .FLT_WDOG_KICK => some (watchdogKick (b 15 0))
  | .FLT_CHK_CTL => some (checkerStart (b 7 0) (b 15 8) (b 23 16) (t 24))
  | .FLT_MBIST_CTL => some (mbistCtlWrite path (b 2 2) (t 0) (t 1))
  | .FLT_REC_NEXT => some (recNextWrite (b 5 0))
  | .FLT_REC_CTL => some (when (t 0) recordRequest)
  | .FLT_INJ_CTL => some (injectWrite path (b 7 0) (b 15 8) (t 16) (t 24))
  | .TB_STEP => some (tbStep (signed 32 w.toNat * 65536))
  | .TB_ADJ => some (tbAdjust (signed 32 w.toNat))
  | .LCH_LG_CTL => some (lgCtlWrite path i w)
  | .MLD_LOAD_CTL => some (mouldLoadStart path (b 2 1) (t 0))
  | .MLD_REMOULD_CTL => some (remouldCtlWrite w)
  | .MLD_ADOPT_CTL => some (if t 0 then adoptStart (b 1 1) else setF F.MLD_ADOPT_CTL_slot (b 1 1))
  | .MLD_KEY_PROG_CTL => some (keyProgStart (b 2 1) (t 0))
  | .FUR_SELFTEST => some (potSelftestStart path (b 3 0))
  | .CAL_ATTIC_CTL => some (when (t 0) atticWrite)
  | .CAL_ELEM_SEL => if path = 4 then some (updCal fun x => { x with selGaffer := w }) else none
  | .CAL_PORT_CTL => some (annealCtlWrite path i (b 2 2) (b 1 1) (t 0) (t 3))
  | .DIAG_FLASH_BOOK => some (block [when (t 1) flashBookRelease, when (t 0) flashBookRequest])
  | .DIAG_TDR_CTL => some (tdrCtlWrite path i (b 2 2) (b 1 1) (t 0) (t 3))
  | .DIAG_SWEEP_CTL => some (sweepCtlWrite path (b 12 8) (b 2 2) (b 1 1) (t 0) (t 4) (t 3))
  | .DIAG_FP_CTL => some (fpCtlWrite i (t 0) (t 1))
  | .MCH_CTL => some (if t 0 then mchEnable i else mchDisable i)
  | .MCH_DOORBELL => some (withFree fun v => mchDoorbell i (some v.toNat))
  | .FSPI_CTL => some (when (t 0) fspiFlush)
  | .FSPI_ERASE_CTL => some (flashErase (b 2 1) (t 0))
  | .HSPI_MBX_CTL => some (mbxCtlWrite path 4 w)
  | .CEL_CFG => some (celCfgWrite path (b 7 0))
  | .CEL_HEAD_RX => some (celShareWrite path i 0 (b 25 16) (b 9 0))
  | .CEL_HEAD_TX => some (celShareWrite path i 1 (b 25 16) (b 9 0))
  | .PKT_LAT_CFG => some (latCfgWrite (b 15 0) (t 16))
  | .HEAD_ATTACH => some (attachWrite i w)
  | .HEAD_HB_CFG => some (block [storeWord off false w, hbRestart i])
  | .HEAD_HB_KICK => some (hbKick i)
  | .HEAD_IRQ_REARM => some (when (t 0) (irqRearm i))
  | .HEAD_ATC_CTL => some (when (t 0) (atcFlushWrite i))
  | .HEAD_MBX_CTL => some (mbxCtlWrite path i w)
  | .BND_CTL => some (block [setF (F.BND_CTL_freeze i) (b 0 0), if t 1 then bundleRestart i else refreshBundle i])
  | .PORT_CTL => some (portCtlWrite i w)
  | .PORT_TX_AMP => some (txAmpWrite i (b 9 0) (t 15))
  | .PORT_QUAL_CFG => some (qualCfgWrite i w)
  | .PORT_CNT_CTL => some (when (t 0) (counterClear i))
  | .PORT_TAP_CTL => some (block [storeWord off false w, tapQueue i])
  | .PORT_TAP_MAN => some (tapWrite i true w.toNat)
  | .PORT_TAP_STD => some (tapWrite i false w.toNat)
  | .PORT_LOOP_CTL => some (loopCtlWrite path i (b 11 8) (b 7 7) (b 6 6) (b 5 4) (b 3 2) (t 0) (t 1))
  | .PORT_SEG_CENSUS_CTL => some (block [setF (F.PORT_SEG_CENSUS_CTL_window_ms i) (b 31 16), when (t 0) (censusClear i)])
  | .QP_RX_CTL => some (ringCtlWrite path i 0 (b 0 0))
  | .QP_TX_CTL => some (ringCtlWrite path i 1 (b 0 0))
  | .QP_RX_ACK => some (ringAck i 0 (b 14 0))
  | .QP_TX_ACK => some (ringAck i 1 (b 14 0))
  | .QP_RX_MOD => some (block [storeWord off false w, ringIrq i 0])
  | .QP_TX_MOD => some (block [storeWord off false w, ringIrq i 1])
  | .WAKE_CFG => some (wakeCfgWrite (b 31 24) (b 13 0))
  | .AON_START_CTL => some (block [setF F.AON_START_CTL_force_cold (b 1 1), when (t 0) startOk])
  | .AON_SLCK_CFG => some (slckSwitch (b 0 0))
  | _ => none

/-- A wide value has its highest word (R75): words lowest first; what the value does, where it is not only stored. -/
def wideDone (o : Nat) (l : Loc) (shadow : Bool) (ws : List Word) : Prog :=
  let v := ws.foldr (fun w n => w.toNat + 2 ^ 32 * n) 0
  match l.row.id with
  | .TB_SET => block [each ws.zipIdx fun e => storeWord (o + 4 * e.2) shadow e.1, tbSet v]
  | _ => each ws.zipIdx fun e => storeWord (o + 4 * e.2) shadow e.1

/-- One word of a wide value: lower words are held until the highest is written (R75). Words written in either view of a WS
value go to its one shadow (R54). -/
def wideWrite (off : Nat) (l : Loc) (w : Word) : Prog := .read fun s =>
  let n := l.row.words.length
  if isShadow off && !(l.row.words.any fun fs => fs.any fun f => decide (f.acc = .ws)) then .skip
  else if l.word + 1 < n then .act (.hold (plainOff off) w)
  else
    let o := plainOff off - 4 * l.word
    let old := fun (i : Nat) => if hasWs o && (fieldsAt (o + 4 * i)).any (fun f => decide (f.acc = .ws)) then s.stagedWord (o + 4 * i) else s.reg (o + 4 * i)
    block [each (List.range (n - 1)) fun i => .act (.unhold (o + 4 * i)),
      wideDone o l (isShadow off) (((List.range (n - 1)).map fun i => s.held.getD (o + 4 * i) (old i)) ++ [w])]

/-- A word that passed the checks is written, at once (R50 to R55, R62, R75). -/
def writeWord (path off : Nat) (w : Word) : Prog := .read fun s =>
  let o := plainOff off
  match tableReg o with
  | none => when (o % 0x10000 == 0x7F04 && hasWs o) (setReg o w)
  | some l =>
    if l.fields.any fun f => decide (f.acc = .sq) then when (!isShadow off) (sqWriteBack o w (lasting o))
    else match s.closed path off l with
      | some p => p
      | none =>
        if isWide l then wideWrite off l w
        else match if isShadow off then none else control path off l w with
          | some p => p
          | none => storeWord o (isShadow off) (s.storedAs path l w)

/-- A write to an always-on register is queued; a fifth is dropped and logged (R68). The keeper owns none of them. -/
def acWrite (path off : Nat) (w : Word) : Prog := .read fun s =>
  if s.acQueue.length < 4 then .act (.acPush ⟨path, off, w⟩) else denied path off true

/-- A write that passed the checks. -/
def grantedWrite (path off : Nat) (w : Word) : Prog :=
  if 0x160000 ≤ off ∧ off < 0x180000 then acWrite path off w else writeWord path off w

/-- One 32-bit write of a path. -/
def regWrite (path off : Nat) (w : Word) : Prog := access path off (grantedWrite path off w)

/-- AC_WRITE_LAND (R68, R69): the oldest queued write lands on an SLCK edge that also refreshes the copies. -/
def acWriteLand : Prog := .read fun s =>
  match s.acQueue with
  | [] => .skip
  | q :: _ => when s.clock.slck (block [wakeLand, .act .acPop, writeWord q.path q.off q.w, .act .acRefresh])

/-! Reads and votes. -/

/-- The vote of one field of three copies: the majority, if any two agree. -/
def majority (a b c : Nat) : Option Nat := if a = b ∨ a = c then some a else if b = c then some b else none

/-- A vote of a field finds one copy that disagrees, or three (R71). -/
def voteField (off : Nat) (f : FieldRow) (c : Word × Word × Word) : Prog := .read fun s =>
  let g := fun (w : Word) => bits w f.hi f.lo
  match majority (g c.1) (g c.2.1) (g c.2.2) with
  | some v => block [setF ⟨off, f.hi, f.lo⟩ v,
      when (!(g c.1 == g c.2.1 && g c.1 == g c.2.2)) (emit (srcOf s off) kTmrDisagree 1 0 off)]
  | none => withFree fun w => block [setF ⟨off, f.hi, f.lo⟩ w.toNat,
      if off / 0x10000 = 0x04 then collectorSelf (if 0x400 ≤ off % 0x10000 ∧ off % 0x10000 < 0x600 then 3 else 2)
      else emit (srcOf s off) kTmrLost 4 0 off]

/-- Copies in which every field that has a majority is rewritten with it (R71). -/
def agreed (fs : List FieldRow) (c : Word × Word × Word) : Word × Word × Word :=
  fs.foldl (fun c f =>
    match majority (bits c.1 f.hi f.lo) (bits c.2.1 f.hi f.lo) (bits c.2.2 f.hi f.lo) with
    | some v => (putBits c.1 f.hi f.lo v, putBits c.2.1 f.hi f.lo v, putBits c.2.2 f.hi f.lo v)
    | none => c) c

/-- The triplicated fields of a word are voted (R70, R71): `u` holds the bits that have flipped in each copy since the last
vote. Copies of a field that has no majority stay as they are. -/
def vote (off : Nat) (u : Word × Word × Word) : Prog := .read fun s =>
  let fs := (fieldsAt off).filter (·.tv)
  let c0 := s.tv.getD off (s.reg off, s.reg off, s.reg off)
  let c := (c0.1 ^^^ u.1, c0.2.1 ^^^ u.2.1, c0.2.2 ^^^ u.2.2)
  let lost := fs.any fun f => (majority (bits c.1 f.hi f.lo) (bits c.2.1 f.hi f.lo) (bits c.2.2 f.hi f.lo)).isNone
  when (!fs.isEmpty && decide (c ≠ (s.reg off, s.reg off, s.reg off)))
    (block [each fs fun f => voteField off f c, when lost (.act (.tvSet off (agreed fs c)))])

/-- TMR_SCRUB (R70): the scrubber visits a word of a powered block. -/
def tmrScrub (off : Nat) (u : Word × Word × Word) : Prog := .read fun s =>
  when (implemented off && !isShadow off && (s.ready || decide (0x160000 ≤ off ∧ off < 0x180000)) && s.blockOn off) (vote off u)

/-- One 32-bit read of a path: the word it returns, and whether that is the off pattern of R46 (R559). -/
def fetch (path off : Nat) (u : Word × Word × Word) (k : Word → Bool → Prog) : Prog := .read fun s =>
  match s.judge path off false with
  | .off log => .seq (when log (accessOff path off)) (k 0xD0FFD0FF true)
  | .refused => .seq (denied path off false) (k 0 false)
  | .silent => k 0 false
  | .granted => .seq (when (!isShadow off) (vote off u)) (readWord path off fun w => k w false)

/-- One 32-bit read of a head or the Gaffer, answered on its bus. -/
def regRead (path off : Nat) (u : Word × Word × Word) : Prog := .read fun s =>
  when (s.ready || path == 6) (fetch path off u fun w _ => send (.readData path off w))

end Sys2Proof.Machine
end

