-- ==== Sys2Proof/Machine/Serial.lean ====
section
/-!
DEFINITION. The keeper's SPI frames (R556 to R567): the status bytes, frames that read, frames that write, rejection.
-/
namespace Sys2Proof.Machine

/-- What follows a command's own effect on the same edge: what waited for it goes on (frames, DMA channels, the ledger's
queue), the collector takes what was raised and its reactions run, the summary interrupts are sent. -/
def aftermath (s : State) : State := run settle (run pump s)

/-- The status byte (R558), as sampled when select falls. -/
def State.spiStatus (s : State) : Byte :=
  let fault := s.ready && (s.bit F.FLT_STAT_safe || blkSum s 0x40000 != 0)
  let wake := s.wide R.WAKE_PENDING 2 != 0 || s.power.park
  BitVec.ofNat 8 (b2n s.ready * 128 + b2n fault * 64 + b2n s.spiRejected * 32 + s.f F.AON_MODE_mode * 4 + b2n wake * 2 + 1)

/-- The fetch status byte (R559). -/
def fetchStatus (done off : Bool) : Byte := BitVec.ofNat 8 (b2n done * 128 + b2n off * 64 + 1)

/-- A word as it travels: bits [31:24] first (R557). -/
def beBytes (w : Word) : List Byte := (leBytes 4 w.toNat).reverse

/-- The number whose most significant byte comes first. -/
def beNat (l : List Byte) : Nat := leNat l.reverse

/-- The CRC-8 of the frame interface: final XOR 0xFF (R564). -/
def spiCrc (l : List Byte) : Byte := BitVec.ofNat 8 (Nat.xor (crc8 0xFF l) 0xFF)

/-- Reasons of R565. -/
def rejIncomplete : Nat := 1
def rejCrc : Nat := 2
def rejCrcMissing : Nat := 3
def rejTop : Nat := 4
def rejLong : Nat := 5
def rejCommand : Nat := 6

/-- The word address past the last (R562). -/
def topWord : Nat := 2 ^ 24

/-- A frame ends (R565): the bytes it returned, its data words, the reasons for which it is rejected. Which of several reasons
HSPI.LAST then shows is not stated: a free value picks one (log entry 25). -/
def frameEnds (miso : List Byte) (words : Nat) (reasons : List Nat) : Prog := .read fun s =>
  block [send (.spi miso), .act (.spiRejected !reasons.isEmpty),
    when s.ready (block [wrapAdd F.HSPI_COUNT_frames 1, setF F.HSPI_LAST_words (min words 255),
      when (!reasons.isEmpty) (satAdd F.HSPI_COUNT_rejected 1),
      match reasons with
      | [] => .skip
      | [r] => setF F.HSPI_LAST_reason r
      | l => withFree fun v => setF F.HSPI_LAST_reason (l.getD (v.toNat % l.length) 0)])]

/-- n words from a word address, each a 32-bit read, with what their votes find; beyond the last word nothing is fetched. -/
def fetchWords (n a : Nat) (ups : List (Word × Word × Word)) (k : List (Word × Bool) → Prog) : Prog :=
  match n with
  | 0 => k []
  | n + 1 =>
    if a < topWord then fetch 6 (4 * a) (ups.headD (0, 0, 0)) fun w o => fetchWords n (a + 1) ups.tail fun l => k ((w, o) :: l)
    else fetchWords n (a + 1) ups.tail fun l => k ((0, false) :: l)

/-- A READ or READ_CRC frame: word address, bytes clocked after the command byte, whether the first fetch was done in time,
whether the fetch of the word after the last one clocked had begun (R560), what the votes find. -/
def readFrame (crc : Bool) (a clocked : Nat) (done ahead : Bool) (ups : List (Word × Word × Word)) : Prog := .read fun s =>
  let st := s.spiStatus
  let per := if crc then 5 else 4
  let data := clocked - 4
  let words := (data + per - 1) / per
  let fetches := if clocked < 4 then 0 else max 1 (words + b2n (ahead && decide (0 < data)))
  let own := 0x160000 ≤ 4 * a ∧ 4 * a < 0x180000
  let ok := done || decide own || !s.ready
  fetchWords fetches a ups fun l =>
    let bytes := (l.map fun e =>
      let b := if ok then beBytes e.1 else [0xFF, 0xFF, 0xFF, 0xFF]
      b ++ if crc then [spiCrc b] else []).flatten
    let top := decide (topWord < a + words)
    frameEnds (st :: ([0, 0, 0, fetchStatus ok ((l.headD (0, false)).2)] ++ bytes).take clocked) (data / per) (if top then [rejTop] else [])

/-- What is wrong with a write frame (R562 to R565): its bytes after the command byte, and whether it ended mid-byte. -/
def State.writeFaults (s : State) (cmd : Byte) (crc : Bool) (bytes : List Byte) (midByte : Bool) : List Nat :=
  let len := bytes.length - 3 - b2n crc
  let whole := !midByte && decide (4 ≤ len) && len % 4 == 0
  let a := beNat (bytes.take 3)
  (if whole then [] else [rejIncomplete]) ++
  (if whole && crc && bytes.getLast? != some (spiCrc (cmd :: bytes.dropLast)) then [rejCrc] else []) ++
  (if !crc && s.ready && s.bit F.HSPI_CFG_crc_req then [rejCrcMissing] else []) ++
  (if topWord < a + len / 4 then [rejTop] else []) ++
  (if 64 < len / 4 then [rejLong] else [])

/-- The data words of a write frame. -/
def frameWords : List Byte → List Word
  | a :: b :: c :: d :: t => BitVec.ofNat 32 (beNat [a, b, c, d]) :: frameWords t
  | _ => []

/-- A WRITE or WRITE_CRC frame ends: what it returned, whether it is rejected. -/
def writeEnds (cmd : Byte) (crc : Bool) (bytes : List Byte) (midByte : Bool) : Prog := .read fun s =>
  frameEnds (s.spiStatus :: List.replicate bytes.length 0) ((bytes.length - 3 - b2n crc) / 4) (s.writeFaults cmd crc bytes midByte)

/-- Words in address order, each a write of its own (R563). One that would change an RV field stops the machine (R53). -/
def writeAll (a : Nat) : List Word → State → Host.Outcome State Fault Refusal
  | [], s => .next s
  | w :: t, s => if s.breaksRv 6 (4 * a) w then .fault (.reservedField (4 * a)) else writeAll (a + 1) t (aftermath (run (regWrite 6 (4 * a) w) s))

/-- A whole write frame: with the always-on rail down nothing answers. -/
def writeFrame (cmd : Byte) (crc : Bool) (bytes : List Byte) (midByte : Bool) (s : State) : Host.Outcome State Fault Refusal :=
  if !s.power.vaon then .next s
  else
    let s1 := aftermath (run (writeEnds cmd crc bytes midByte) s)
    if s.writeFaults cmd crc bytes midByte = [] then
      writeAll (beNat (bytes.take 3)) (frameWords ((bytes.drop 3).take (bytes.length - 3 - b2n crc))) s1
    else .next s1

/-- A STATUS frame, or one with an unknown command: bytes clocked after the command byte. -/
def statusFrame (clocked : Nat) (reasons : List Nat) : Prog := .read fun s =>
  frameEnds (s.spiStatus :: List.replicate clocked 0) 0 reasons

/-- A frame is answered only while the always-on rail is up. -/
def framed (p : Prog) : Prog := .read fun s => when s.power.vaon p

end Sys2Proof.Machine
end

