-- ==== Sys2Proof/Machine/Entry.lean ====
section
/-!
DEFINITION. How a command runs: its program, then what the block does by itself; a write of a register through its checks;
what every family needs of the operands.
-/
namespace Sys2Proof.Machine

/-- A command: its own effect, then what follows it. -/
def finish (p : Prog) (s : State) : Host.Outcome State Fault Refusal := .next (aftermath (run p s))

/-- A command that is a write of one register by a path: it acts where the checks of R46 let it. -/
def wrote (path : Path) (off : Nat) (p : Nat → Prog) (s : State) : Host.Outcome State Fault Refusal :=
  finish (access (pathCode path) off (p (pathCode path))) s

/-- What SAFE stops (R545). -/
def outsideSafe (p : Prog) : Prog := .read fun s => when (!s.bit F.FLT_STAT_safe) p

/-- A write that only the FACTORY state admits (R92). -/
def inFactory (c off : Nat) (p : Prog) : Prog := .read fun s => if s.otp.lifecycle = 0 then p else denied c off true

/-- The two rings of a queue pair: 0 receive, 1 transmit. -/
def dirCode : Dir → Nat
  | .rx => 0
  | .tx => 1

/-- The three copies of a triplicated word. -/
def copiesOf (u : Upset) : Word × Word × Word := (u.a, u.b, u.c)

/-- The words of a descriptor as numbers. -/
def descNats (d : DescWords) : Nat × Nat × Nat × Nat := (d.w0.toNat, d.w1.toNat, d.w2.toNat, d.w3.toNat)

/-- The code of R393. -/
def resetCode : ResetCause → Nat
  | .perst => 1
  | .hotReset => 2
  | .linkDisable => 3
  | .linkDown => 4
  | .flr => 5
  | .ide => 6

/-- The mask code of a clock switch. -/
def switchCode : ClockSwitch → Nat
  | .fabric => 1
  | .gaffer => 2
  | .slck => 4

end Sys2Proof.Machine
end

