-- ==== Sys2Proof/Machine/Access.lean ====
section
/-!
DEFINITION. The meanings of reads and writes of the register space, of always-on writes, votes and commits (chapter 2).
-/
namespace Sys2Proof.Machine

/-- An access that the path does not accept: narrower than a word where it writes, not aligned to its own width, 64 bits wide
from another path than a head; the keeper moves whole words (R41, R42). -/
def badAccess (path addr size : Nat) (write : Bool) : Bool :=
  addr % size != 0 || (write && decide (size < 4)) || (size == 8 && decide (4 ≤ path)) || (path == 6 && size != 4)

/-- It is dropped and logged. -/
def badlyFormed (path addr : Nat) (write : Bool) : Prog := .read fun s => when s.ready (denied path addr write)

/-- A 32-bit write as a step of a wider one: it stops the machine where it would change an RV field (R53). -/
def wordThen (path off : Nat) (w : Word) (s : State) (k : State → Host.Outcome State Fault Refusal) : Host.Outcome State Fault Refusal :=
  if s.breaksRv path off w then .fault (.reservedField off) else k (aftermath (run (regWrite path off w) s))

/-- A write of `size` bytes; 64 bits are two words, low word first (R41, R76). -/
def registerWrite (path addr size data : Nat) (s : State) : Host.Outcome State Fault Refusal :=
  if badAccess path addr size true then finish (badlyFormed path addr true) s
  else if size = 8 then
    wordThen path addr (BitVec.ofNat 32 data) s fun t => wordThen path (addr + 4) (BitVec.ofNat 32 (data / 2 ^ 32)) t .next
  else wordThen path addr (BitVec.ofNat 32 data) s .next

/-- A read narrower than a word returns its bytes of the word, and does what a read of the word does (R42). -/
def narrowRead (path addr size : Nat) (u : Word × Word × Word) : Prog := .read fun s =>
  when (s.ready || path == 6) (fetch path (addr / 4 * 4) u fun w _ =>
    send (.readData path addr (BitVec.ofNat 32 (w.toNat / 256 ^ (addr % 4) % 256 ^ size))))

/-- A read of `size` bytes. What a dropped read returns is not stated: a free value (log entry 26). -/
def registerRead (path addr size : Nat) (u v : Word × Word × Word) (s : State) : Host.Outcome State Fault Refusal :=
  if badAccess path addr size false then
    finish (block [badlyFormed path addr false, .read fun t => when t.ready (withFree fun w => send (.readData path addr w))]) s
  else if size = 8 then finish (block [regRead path addr u, pump, settle, regRead path (addr + 4) v]) s
  else if size = 4 then finish (regRead path addr u) s
  else finish (narrowRead path addr size u) s

/-- An offset is that of an SQ register in the normal view (R60). -/
def isSq (off : Nat) : Bool := !isShadow off && (fieldsAt off).any fun f => decide (f.acc = .sq)

/-- REGISTER_WRITE. A write of `size` bytes at an address (R41, R42, R46, R76). -/
def execRegisterWrite (path : Path) (addr : BitVec 26) (size : Nat) (data : BitVec 64) (s : State) : Host.Outcome State Fault Refusal :=
  registerWrite (pathCode path) addr.toNat size data.toNat s

/-- SEQ_WRITE_BACK. SEQ is written back to an SQ register (R62, R64). -/
def execSeqWriteBack (path : Path) (off : BitVec 26) (seq : BitVec 8) (s : State) : Host.Outcome State Fault Refusal :=
  finish (when (isSq off.toNat) (regWrite (pathCode path) off.toNat (BitVec.ofNat 32 (seq.toNat * 2 ^ 24)))) s

/-- AC_WRITE_LAND. The oldest queued always-on write lands (R68). -/
def execAcWriteLand (s : State) : Host.Outcome State Fault Refusal :=
  finish acWriteLand s

/-- TMR_SCRUB. The scrubber visits a word (R70, R71). -/
def execTmrScrub (off : BitVec 26) (upset : Upset) (s : State) : Host.Outcome State Fault Refusal :=
  finish (tmrScrub off.toNat (copiesOf upset)) s

/-- COMMIT. A write of GLB.COMMIT (R56, R57, R59). -/
def execCommit (path : Path) (mask : Word) (s : State) : Host.Outcome State Fault Refusal :=
  wrote path (R.GLB_COMMIT) (fun c => commit c mask.toNat) s

/-- COMMIT_LATE_APPLY. A block, numbered as in LG[g].TARGET, reaches its boundary (R58, R361, R363). Nothing staged is applied in SAFE (R545). -/
def execCommitLateApply (block : Fin 88) (s : State) : Host.Outcome State Fault Refusal :=
  finish (outsideSafe (lateApply block)) s

/-- REGISTER_READ. A read of `size` bytes at an address, with what the votes of its words find (R41, R42, R46, R70, R74, R76). -/
def execRegisterRead (path : Path) (addr : BitVec 26) (size : Nat) (upset : Upset) (upsetHigh : Upset) (s : State) : Host.Outcome State Fault Refusal :=
  registerRead (pathCode path) addr.toNat size (copiesOf upset) (copiesOf upsetHigh) s

end Sys2Proof.Machine
end

