-- ==== Sys2Proof/Machine/Beacons.lean ====
section
/-!
DEFINITION. The meanings of the segment commands (chapter 7).
-/
namespace Sys2Proof.Machine

/-- BEACON_RECEIVED. A valid beacon arrives (R241, R242); `us` is the length of the cycle that it ends. -/
def execBeaconReceived (p : SegPort) (us : Nat) (s : State) : Host.Outcome State Fault Refusal :=
  finish (block [beaconReceived (56 + p.val) us, carrierWake (56 + p.val)]) s

/-- PLCA_CYCLE_START. A coordinator starts a cycle (R241). -/
def execPlcaCycleStart (p : SegPort) (us : Nat) (s : State) : Host.Outcome State Fault Refusal :=
  finish (plcaCycleStart (56 + p.val) us) s

/-- TRANSMIT_OPPORTUNITY. The own transmit opportunity arrives (R246). -/
def execTransmitOpportunity (p : SegPort) (s : State) : Host.Outcome State Fault Refusal :=
  finish (transmitOpportunity (56 + p.val)) s

/-- BEACON_LOSS. No beacon for loss_ms (R242). -/
def execBeaconLoss (p : SegPort) (uncLast : BitVec 16) (s : State) : Host.Outcome State Fault Refusal :=
  finish (beaconLoss (56 + p.val) uncLast.toNat) s

/-- FOREIGN_BEACON. A coordinator receives a foreign beacon (R243). -/
def execForeignBeacon (p : SegPort) (s : State) : Host.Outcome State Fault Refusal :=
  finish (foreignBeacon (56 + p.val)) s

/-- COLLISION. A collision in the first 64 bytes, in opportunity n (R247, R249); `own`: the port was sending. -/
def execCollision (p : SegPort) (n : BitVec 8) (own : Bool) (s : State) : Host.Outcome State Fault Refusal :=
  finish (collisionAt (56 + p.val) n.toNat own false) s

/-- LATE_COLLISION. A collision after 64 bytes (R248). -/
def execLateCollision (p : SegPort) (n : BitVec 8) (own : Bool) (s : State) : Host.Outcome State Fault Refusal :=
  finish (collisionAt (56 + p.val) n.toNat own true) s

/-- SEGMENT_SLEEP. The frame in progress has ended (R245). -/
def execSegmentSleep (p : SegPort) (s : State) : Host.Outcome State Fault Refusal :=
  finish (segmentSleep (56 + p.val)) s

/-- CENSUS_WINDOW_END. A census window ends (R251). -/
def execCensusWindowEnd (p : SegPort) (s : State) : Host.Outcome State Fault Refusal :=
  finish (censusWindowEnd (56 + p.val)) s

/-- CENSUS_CLEAR. A write of SEG_CENSUS_CTL.clear (R251). -/
def execCensusClear (path : Path) (p : SegPort) (window : BitVec 16) (s : State) : Host.Outcome State Fault Refusal :=
  wrote path (R.PORT_SEG_CENSUS_CTL (56 + p.val)) (fun _ => block [setF (F.PORT_SEG_CENSUS_CTL_window_ms (56 + p.val)) window.toNat, censusClear (56 + p.val)]) s

/-- SEG_QUAL_INTERVAL. A 100 ms interval ends (R252). -/
def execSegQualInterval (p : SegPort) (s : State) : Host.Outcome State Fault Refusal :=
  finish (segQualInterval (56 + p.val)) s

end Sys2Proof.Machine
end

