-- ==== Sys2Proof/Machine/Cables.lean ====
section
/-!
DEFINITION. The meanings of the cable diagnostics commands (chapter 9).
-/
namespace Sys2Proof.Machine

/-- TDR_START. A write of DIAG.TDR_CTL.start (R294). -/
def execTdrStart (path : Path) (p : Port) (noWait : BitVec 1) (force : BitVec 1) (s : State) : Host.Outcome State Fault Refusal :=
  wrote path (R.DIAG_TDR_CTL p) (fun c => tdrCtlWrite c p noWait.toNat force.toNat true false) s

/-- TDR_STOP. A write of TDR_CTL.stop (R291). -/
def execTdrStop (path : Path) (p : Port) (s : State) : Host.Outcome State Fault Refusal :=
  wrote path (R.DIAG_TDR_CTL p) (fun _ => tdrStop p) s

/-- TDR_DONE. A TDR ends with what it captured (R296 to R299, R304 to R306). -/
def execTdrDone (p : Port) (found : TdrData) (s : State) : Host.Outcome State Fault Refusal :=
  finish (tdrDone p found) s

/-- IL_ESTIMATE. The insertion loss and the limit of its clause, 0.1 dB (R300). -/
def execIlEstimate (p : Port) (loss : BitVec 16) (limit : BitVec 16) (s : State) : Host.Outcome State Fault Refusal :=
  finish (ilEstimate p loss.toNat limit.toNat) s

/-- FP_CAPTURE. A write of FP_CTL.capture (R303). -/
def execFpCapture (path : Path) (p : Port) (s : State) : Host.Outcome State Fault Refusal :=
  wrote path (R.DIAG_FP_CTL p) (fun _ => fpCtlWrite p true false) s

/-- FP_CLEAR. A write of FP_CTL.clear (R303). -/
def execFpClear (path : Path) (p : Port) (s : State) : Host.Outcome State Fault Refusal :=
  wrote path (R.DIAG_FP_CTL p) (fun _ => fpCtlWrite p false true) s

/-- SWEEP_START. A write of SWEEP_CTL.start (R307, R308). -/
def execSweepStart (path : Path) (cg : BitVec 5) (noWait : BitVec 1) (force : BitVec 1) (s : State) : Host.Outcome State Fault Refusal :=
  wrote path (R.DIAG_SWEEP_CTL) (fun c => sweepCtlWrite c cg.toNat noWait.toNat force.toNat true false false) s

/-- SWEEP_ARM. A write of SWEEP_CTL.arm (R308). -/
def execSweepArm (path : Path) (cg : BitVec 5) (noWait : BitVec 1) (force : BitVec 1) (s : State) : Host.Outcome State Fault Refusal :=
  wrote path (R.DIAG_SWEEP_CTL) (fun c => sweepCtlWrite c cg.toNat noWait.toNat force.toNat false true false) s

/-- SWEEP_STOP. A write of SWEEP_CTL.stop (R291). -/
def execSweepStop (path : Path) (s : State) : Host.Outcome State Fault Refusal :=
  wrote path (R.DIAG_SWEEP_CTL) (fun _ => sweepStop) s

/-- SWEEP_DONE. A sweep ends (R309). -/
def execSweepDone (pairs : List Coupling) (profiles : List (Fin 8 × TdrData)) (s : State) : Host.Outcome State Fault Refusal :=
  finish (sweepDone pairs profiles) s

/-- FLASH_BOOK_REQUEST. A write of FLASH_BOOK.request (R286, R289). -/
def execFlashBookRequest (path : Path) (s : State) : Host.Outcome State Fault Refusal :=
  wrote path (R.DIAG_FLASH_BOOK) (fun _ => flashBookRequest) s

/-- FLASH_BOOK_RELEASE. A write of FLASH_BOOK.release (R286). -/
def execFlashBookRelease (path : Path) (s : State) : Host.Outcome State Fault Refusal :=
  wrote path (R.DIAG_FLASH_BOOK) (fun _ => flashBookRelease) s

end Sys2Proof.Machine
end

