-- ==== Sys2Proof/Machine/Channels.lean ====
section
/-!
DEFINITION. The meanings of the management DMA commands (chapter 14).
-/
namespace Sys2Proof.Machine

/-- MCH_ENABLE. A write of MCH[c].CTL.en = 1 (R460). -/
def execMchEnable (path : Path) (ch : Fin 16) (s : State) : Host.Outcome State Fault Refusal :=
  wrote path (R.MCH_CTL ch) (fun _ => mchEnable ch) s

/-- MCH_DISABLE. A write of MCH[c].CTL.en = 0 (R466). -/
def execMchDisable (path : Path) (ch : Fin 16) (s : State) : Host.Outcome State Fault Refusal :=
  wrote path (R.MCH_CTL ch) (fun _ => mchDisable ch) s

/-- MCH_DOORBELL. A write of MCH[c].DOORBELL (R461, R463); `host` is the next pointer that a host returns for the tail, none where that read fails. -/
def execMchDoorbell (path : Path) (ch : Fin 16) (host : Option (BitVec 64)) (s : State) : Host.Outcome State Fault Refusal :=
  wrote path (R.MCH_DOORBELL ch) (fun _ => mchDoorbell ch (host.map (·.toNat))) s

/-- MDMA_DESC_FETCHED. A descriptor arrives (R451, R465). -/
def execMdmaDescFetched (ch : Fin 16) (failed : Bool) (words : DescWords) (s : State) : Host.Outcome State Fault Refusal :=
  finish (mdmaDescFetched ch failed (descNats words)) s

/-- MDMA_DESC_COMPLETE. The descriptor in progress moves its data and completes (R446 to R459, R463, R464, R468). -/
def execMdmaDescComplete (ch : Fin 16) (data : MdmaData) (wbFail : Bool) (host : Option (BitVec 64)) (s : State) : Host.Outcome State Fault Refusal :=
  finish (mdmaDescComplete ch data wbFail (host.map (·.toNat))) s

/-- MDMA_SYNC_COMPLETION. A zero-length sync read completes (R458). -/
def execMdmaSyncCompletion (ch : Fin 16) (h : Head) (failed : Bool) (wbFail : Bool) (host : Option (BitVec 64)) (s : State) : Host.Outcome State Fault Refusal :=
  finish (mdmaSyncCompletion ch h failed wbFail (host.map (·.toNat))) s

end Sys2Proof.Machine
end

