-- ==== Sys2Proof/Machine/Collects.lean ====
section
/-!
DEFINITION. The meanings of the fault commands (chapter 17).
-/
namespace Sys2Proof.Machine

/-- The write of FLT.INJ_CTL, or the read that meets the corrupted word. -/
def inject : Inject → Prog
  | .write path checker bit double start =>
    access (pathCode path) R.FLT_INJ_CTL (injectWrite (pathCode path) checker.toNat bit.toNat double start)
  | .read at_ syndrome w1 => injectRead at_.toNat syndrome.toNat w1.toNat

/-- FAULT_MESSAGE. The collector takes a message (R524 to R536, R541). -/
def execFaultMessage (src : BitVec 7) (kind : BitVec 8) (cls : Fin 5) (detail : BitVec 13) (w1 : Word) (s : State) : Host.Outcome State Fault Refusal :=
  finish (emit src.toNat kind.toNat cls detail.toNat w1.toNat) s

/-- REACT_RESET_WINDOW. 60 s pass without a chip reset by reaction (R536). -/
def execReactResetWindow (s : State) : Host.Outcome State Fault Refusal :=
  finish reactWindow s

/-- COLLECTOR_SELF. A collector self-fault (R548). -/
def execCollectorSelf (part : BitVec 2) (s : State) : Host.Outcome State Fault Refusal :=
  finish (collectorSelf part.toNat) s

/-- SUPPLY. A main rail is outside its range (R528). -/
def execSupply (rail : BitVec 3) (s : State) : Host.Outcome State Fault Refusal :=
  finish (supplyFault rail.toNat) s

/-- OVERTEMP. The temperature read (R529): eight sensors, °C plus 64. -/
def execOvertemp (tj : List Byte) (s : State) : Host.Outcome State Fault Refusal :=
  finish (overtemp (tj.map (·.toNat))) s

/-- ALIVE_TOGGLE. Every 16th SLCK edge (R537). -/
def execAliveToggle (s : State) : Host.Outcome State Fault Refusal :=
  finish aliveToggle s

/-- WATCHDOG_KICK. A write of FLT.WDOG_KICK (R538, R539). -/
def execWatchdogKick (path : Path) (key : BitVec 16) (s : State) : Host.Outcome State Fault Refusal :=
  wrote path (R.FLT_WDOG_KICK) (fun _ => watchdogKick key.toNat) s

/-- WATCHDOG. The watchdog expires (R539). -/
def execWatchdog (s : State) : Host.Outcome State Fault Refusal :=
  finish watchdogExpire s

/-- LOCKSTEP. The lockstep comparator finds a difference (R540). -/
def execLockstep (pc : Word) (s : State) : Host.Outcome State Fault Refusal :=
  finish (lockstep pc.toNat) s

/-- LOG_CLEAR. A write of FLT.LOG_CTL.clear (R541). -/
def execLogClear (path : Path) (s : State) : Host.Outcome State Fault Refusal :=
  wrote path (R.FLT_LOG_CTL) (fun _ => logClear) s

/-- FAULT_RECORD_REQUEST. A write of FLT.REC_CTL.write (R542). -/
def execFaultRecordRequest (path : Path) (s : State) : Host.Outcome State Fault Refusal :=
  wrote path (R.FLT_REC_CTL) (fun _ => recordRequest) s

/-- FAULT_RECORD_DONE. The record at the head of the wait is programmed or skipped (R542, R543). -/
def execFaultRecordDone (failed : Bool) (s : State) : Host.Outcome State Fault Refusal :=
  finish (faultRecordDone failed) s

/-- REC_NEXT_WRITE. A write of FLT.REC_NEXT (R543). -/
def execRecNextWrite (path : Path) (sector : BitVec 6) (s : State) : Host.Outcome State Fault Refusal :=
  wrote path (R.FLT_REC_NEXT) (fun _ => recNextWrite sector.toNat) s

/-- FLT_IRQ_REARM. A write of FLT.IRQ_REARM (R535). -/
def execFltIrqRearm (path : Path) (s : State) : Host.Outcome State Fault Refusal :=
  wrote path (R.FLT_IRQ_REARM) (fun _ => setF F.FLT_IRQ_REARM_rearm 1) s

/-- CHECKER_TEST_START. A write of FLT.CHK_CTL.start (R551). -/
def execCheckerTestStart (path : Path) (checker : BitVec 8) (count : BitVec 8) (limit : BitVec 8) (s : State) : Host.Outcome State Fault Refusal :=
  wrote path (R.FLT_CHK_CTL) (fun _ => checkerStart checker.toNat count.toNat limit.toNat true) s

/-- CHECKER_TEST. A check of the checker under test (R551, R552). -/
def execCheckerTest (detected : Bool) (corr : Bool) (at_ : BitVec 8) (w1 : Word) (s : State) : Host.Outcome State Fault Refusal :=
  finish (checkerTest detected corr at_.toNat w1.toNat) s

/-- CHECKER_TEST_TIMEOUT. limit_ms have passed (R552). -/
def execCheckerTestTimeout (s : State) : Host.Outcome State Fault Refusal :=
  finish checkerTimeout s

/-- MBIST_START. A write of FLT.MBIST_CTL.start (R553). -/
def execMbistStart (path : Path) (noWait : BitVec 1) (s : State) : Host.Outcome State Fault Refusal :=
  wrote path (R.FLT_MBIST_CTL) (fun c => mbistCtlWrite c noWait.toNat true false) s

/-- MBIST_STOP. A write of FLT.MBIST_CTL.stop (R554). -/
def execMbistStop (path : Path) (s : State) : Host.Outcome State Fault Refusal :=
  wrote path (R.FLT_MBIST_CTL) (fun _ => mbistStop) s

/-- MBIST_DONE. The march test ends (R554). -/
def execMbistDone (fails : Nat) (first : BitVec 18) (s : State) : Host.Outcome State Fault Refusal :=
  finish (mbistDone fails first.toNat) s

/-- FAULT_INJECT. A write of FLT.INJ_CTL in the factory test state, or the read that meets the corrupted word (R555). -/
def execFaultInject (what : Inject) (s : State) : Host.Outcome State Fault Refusal :=
  finish (inject what) s

end Sys2Proof.Machine
end

