-- ==== Sys2Proof/Machine/Keeper.lean ====
section
/-!
DEFINITION. The meanings of the keeper frame commands (chapter 18).
-/
namespace Sys2Proof.Machine

/-- The commands of R557. -/
def frameCommands : List Byte := [0x03, 0x83, 0x02, 0x82, 0x05]

/-- READ. A READ frame of so many bytes after the command byte (R557 to R562). -/
def execRead (addr : BitVec 24) (clocked : Nat) (done : Bool) (ahead : Bool) (upsets : List Upset) (s : State) : Host.Outcome State Fault Refusal :=
  finish (framed (readFrame false addr.toNat clocked done ahead (upsets.map copiesOf))) s

/-- READ_CRC. A READ_CRC frame (R557 to R562, R564). -/
def execReadCrc (addr : BitVec 24) (clocked : Nat) (done : Bool) (ahead : Bool) (upsets : List Upset) (s : State) : Host.Outcome State Fault Refusal :=
  finish (framed (readFrame true addr.toNat clocked done ahead (upsets.map copiesOf))) s

/-- WRITE. A WRITE frame: the bytes after its command byte (R557, R562, R563). -/
def execWrite (bytes : List Byte) (midByte : Bool) (s : State) : Host.Outcome State Fault Refusal :=
  writeFrame 0x02 false bytes midByte s

/-- WRITE_CRC. A WRITE_CRC frame (R562 to R564). -/
def execWriteCrc (bytes : List Byte) (midByte : Bool) (s : State) : Host.Outcome State Fault Refusal :=
  writeFrame 0x82 true bytes midByte s

/-- STATUS. A STATUS frame (R557, R558, R565). -/
def execStatus (clocked : Nat) (s : State) : Host.Outcome State Fault Refusal :=
  finish (framed (statusFrame clocked [])) s

/-- UNKNOWN_COMMAND. A frame with an unknown command (R557, R565). -/
def execUnknownCommand (cmd : Byte) (clocked : Nat) (s : State) : Host.Outcome State Fault Refusal :=
  finish (framed (statusFrame clocked (if cmd ∈ frameCommands then [] else [rejCommand]))) s

end Sys2Proof.Machine
end

