-- ==== Sys2Proof/Machine/Lines.lean ====
section
/-!
DEFINITION. The meanings of the line port commands (chapter 4).
-/
namespace Sys2Proof.Machine

/-- A page is taken in NEGOTIATE (R144). Without the answer to the message page the partner supports none of the pages that
follow it (R123). The last page ends in the resolution (R122). -/
def anPage (p : Nat) (page : AnPage) (last seedMaster : Bool) : Prog := .read fun s =>
  let answered := s.bit (F.PORT_PARTNER_ABIL_vendor_page p)
  when (s.pst p == stNegotiate)
    (block [
      (match page with
        | .base modes role eee => anBase p modes.toNat role.toNat eee
        | .vendor => setF (F.PORT_PARTNER_ABIL_vendor_page p) 1
        | .x50 word => when (answered && decide (p < 8)) (anX50 p word.toNat)
        | .cane tag members lane modes policy => when answered (updPort p fun x => { x with canePage := some (tag.toNat, members.toNat, lane.toNat, modes.toNat, policy.toNat), pageAt := 1 + (List.range 8).foldl (fun n i => max n (s.port i).pageAt) 0 })
        | .ident id => when answered (block [setWide (R.PORT_PARTNER_ID p) 2 id.toNat, setF (F.PORT_PARTNER_FLAGS_id_valid p) 1])),
      when last (resolve p seedMaster)])

/-- PORT_ADMIN_WRITE. A write of CTL.admin (R132, R19). -/
def execPortAdminWrite (path : Path) (p : Port) (admin : BitVec 2) (s : State) : Host.Outcome State Fault Refusal :=
  wrote path (R.PORT_CTL p) (fun _ => portAdminAsk p admin.toNat) s

/-- PORT_RESTART. A write of CTL.restart (R129, R132, R141). -/
def execPortRestart (path : Path) (p : Port) (s : State) : Host.Outcome State Fault Refusal :=
  wrote path (R.PORT_CTL p) (fun _ => portRestart p) s

/-- PORT_RESET. A write of CTL.reset (R159). -/
def execPortReset (path : Path) (p : Port) (s : State) : Host.Outcome State Fault Refusal :=
  wrote path (R.PORT_CTL p) (fun _ => portResetBegin p) s

/-- PORT_RESET_END. The 50 µs of a port reset end (R159), and a commit that waited applies (R360). -/
def execPortResetEnd (p : Port) (s : State) : Host.Outcome State Fault Refusal :=
  finish (block [portResetEnd p, outsideSafe (lateApply p)]) s

/-- LISTEN_WAIT_END. The wait in LISTEN ends (R137, R241). -/
def execListenWaitEnd (p : Port) (s : State) : Host.Outcome State Fault Refusal :=
  finish (anyWaitEnd p) s

/-- AN_PAGE_RECEIVED. A valid auto-negotiation page arrives (R122, R128, R144, R168, R180). -/
def execAnPageReceived (p : Port) (page : AnPage) (last : Bool) (seedMaster : Bool) (s : State) : Host.Outcome State Fault Refusal :=
  finish (anPage p page last seedMaster) s

/-- AN_TIMEOUT. No valid page within an_timeout_ms (R132). -/
def execAnTimeout (p : Port) (s : State) : Host.Outcome State Fault Refusal :=
  finish (anTimeout p) s

/-- TRAIN_COMPLETE. Training converges (R132, R145, R261, R265, R304). -/
def execTrainComplete (p : Port) (margin : BitVec 16) (found : TrainData) (s : State) : Host.Outcome State Fault Refusal :=
  finish (trainComplete p margin.toNat found) s

/-- TRAIN_STORED_TIMEOUT. Training from stored coefficients takes too long (R140). -/
def execTrainStoredTimeout (p : Port) (s : State) : Host.Outcome State Fault Refusal :=
  finish (trainStoredTimeout p) s

/-- TRAIN_TIMEOUT. Training takes too long (R129, R139). -/
def execTrainTimeout (p : Port) (s : State) : Host.Outcome State Fault Refusal :=
  finish (trainTimeout p) s

/-- BLOCK_LOCK. The lock timer expires (R142, R143, R620). `uncLast` counts the uncorrectable codewords of the last 1 ms. -/
def execBlockLock (p : Port) (uncLast : BitVec 16) (s : State) : Host.Outcome State Fault Refusal :=
  finish (blockLock p uncLast.toNat) s

/-- FEC_BURST. n uncorrectable codewords within 1 ms (R142). -/
def execFecBurst (p : Port) (n : BitVec 16) (s : State) : Host.Outcome State Fault Refusal :=
  finish (fecBurst p n.toNat) s

/-- SQI_LOW. SQI has been below sqi_drop for drop_ms (R142). -/
def execSqiLow (p : Port) (uncLast : BitVec 16) (s : State) : Host.Outcome State Fault Refusal :=
  finish (sqiLow p uncLast.toNat) s

/-- PARTNER_DOWN. The partner signals link down (R142). -/
def execPartnerDown (p : Port) (uncLast : BitVec 16) (s : State) : Host.Outcome State Fault Refusal :=
  finish (partnerDown p uncLast.toNat) s

/-- FLAP_HOLD_EXPIRE. flap_hold_s has passed (R141). -/
def execFlapHoldExpire (p : Port) (s : State) : Host.Outcome State Fault Refusal :=
  finish (flapHoldExpire p) s

/-- LINK_QUAL_INTERVAL. A 100 µs interval ends with its margin and its codeword counts (R147 to R149). -/
def execLinkQualInterval (p : Port) (margin : BitVec 16) (corrected : Nat) (uncorrected : Nat) (s : State) : Host.Outcome State Fault Refusal :=
  finish (linkQualInterval p margin.toNat corrected uncorrected) s

/-- MAC_FRAME_RECEIVE. The MAC receives a frame (R24, R151, R156, R422, R428, R441); its carrier may wake a segment (R256). -/
def execMacFrameReceive (p : Port) (frame : MacFrame) (s : State) : Host.Outcome State Fault Refusal :=
  finish (block [macFrameReceive p frame, carrierWake p]) s

/-- COUNTER_CLEAR. A write of CNT_CTL.clear (R155). -/
def execCounterClear (path : Path) (p : Port) (s : State) : Host.Outcome State Fault Refusal :=
  wrote path (R.PORT_CNT_CTL p) (fun _ => counterClear p) s

/-- PARTNER_RESTART. The partner restarts during TRAIN (R132). -/
def execPartnerRestart (p : Port) (s : State) : Host.Outcome State Fault Refusal :=
  finish (partnerRestart p) s

end Sys2Proof.Machine
end

