-- ==== Sys2Proof/Machine/Links.lean ====
section
/-!
DEFINITION. The meanings of the host head commands (chapter 12).
-/
namespace Sys2Proof.Machine

/-- A read of a head lacks its completion. -/
def readTimeout (h : Nat) (r : HeadRead) (tag : Nat) : Prog :=
  match r with
  | .ring q d data => ringTimeout h q (dirCode d) data tag
  | .channel ch => mdmaTimeout ch h tag

/-- LINK_L0. The link reaches L0 (R372, R391). -/
def execLinkL0 (h : Head) (rate : BitVec 2) (width : BitVec 5) (s : State) : Host.Outcome State Fault Refusal :=
  finish (linkL0 h rate.toNat width.toNat) s

/-- HEAD_RESET. PERST, hot reset, link disable, DL_Down, FLR or an IDE failure (R392, R393). -/
def execHeadReset (h : Head) (cause : ResetCause) (s : State) : Host.Outcome State Fault Refusal :=
  finish (headResetEvent h (resetCode cause)) s

/-- HEAD_RESET_END. The head reset ends and waiting commits apply (R392). -/
def execHeadResetEnd (h : Head) (s : State) : Host.Outcome State Fault Refusal :=
  finish (headResetEnd h) s

/-- DRAIN_DONE. The discard after a head loss completes (R394). -/
def execDrainDone (h : Head) (s : State) : Host.Outcome State Fault Refusal :=
  finish (drainDone h) s

/-- DETACH. A write of ATTACH.detach (R391). -/
def execDetach (path : Path) (h : Head) (s : State) : Host.Outcome State Fault Refusal :=
  wrote path (R.HEAD_ATTACH h) (fun _ => detach h) s

/-- HEARTBEAT_EXPIRE. hb_ms pass without a kick (R396). -/
def execHeartbeatExpire (h : Head) (s : State) : Host.Outcome State Fault Refusal :=
  finish (heartbeatExpire h) s

/-- HB_KICK. A write of HB_KICK (R396). -/
def execHbKick (path : Path) (h : Head) (s : State) : Host.Outcome State Fault Refusal :=
  wrote path (R.HEAD_HB_KICK h) (fun _ => hbKick h) s

/-- BME_CLEAR. Bus Master Enable is cleared (R391). -/
def execBmeClear (h : Head) (s : State) : Host.Outcome State Fault Refusal :=
  finish (bmeClear h) s

/-- ATTACH. A write of ATTACH.attach (R399), with what the driver set before it. -/
def execAttach (path : Path) (h : Head) (cfg : HostCfg) (s : State) : Host.Outcome State Fault Refusal :=
  wrote path (R.HEAD_ATTACH h) (fun _ => attach h cfg.bme cfg.ats cfg.fnMask (cfg.vecs.map (·.val))) s

/-- CXL_MEM_REQUEST. A CXL.mem request (R376). -/
def execCxlMemRequest (h : Head) (s : State) : Host.Outcome State Fault Refusal :=
  finish (cxlMemRequest h) s

/-- INVALIDATE_REQUEST. An ATS Invalidate Request (R384). -/
def execInvalidateRequest (h : Head) (addr : BitVec 64) (len : Nat) (s : State) : Host.Outcome State Fault Refusal :=
  finish (invalidateRequest h addr.toNat len) s

/-- INVALIDATE_COMPLETE. The writes before an invalidation have been observed (R384). -/
def execInvalidateComplete (h : Head) (s : State) : Host.Outcome State Fault Refusal :=
  finish (invalidateComplete h) s

/-- TRANSLATION_COMPLETION. A translation completion arrives (R382, R383). -/
def execTranslationCompletion (h : Head) (addr : BitVec 64) (len : Nat) (write : Bool) (s : State) : Host.Outcome State Fault Refusal :=
  finish (translationCompletion h addr.toNat len write) s

/-- ATC_FLUSH. A write of ATC_CTL.flush (R385). -/
def execAtcFlush (path : Path) (h : Head) (s : State) : Host.Outcome State Fault Refusal :=
  wrote path (R.HEAD_ATC_CTL h) (fun _ => atcFlushWrite h) s

/-- ATS_ENABLE_CHANGE. ATS Enable changes (R385). -/
def execAtsEnableChange (h : Head) (on : Bool) (s : State) : Host.Outcome State Fault Refusal :=
  finish (atsEnableChange h on) s

/-- SPDM_REQUEST. An SPDM request over DOE (R387 to R389). -/
def execSpdmRequest (h : Head) (req : SpdmReq) (s : State) : Host.Outcome State Fault Refusal :=
  finish (spdmRequest h req) s

/-- MSIX_UNMASK. A vector, or the function, is unmasked (R380). -/
def execMsixUnmask (h : Head) (vec : Option (Fin 512)) (s : State) : Host.Outcome State Fault Refusal :=
  finish (msixUnmask h (vec.map (·.val))) s

/-- IRQ_REARM. A write of IRQ_REARM (R381). -/
def execIrqRearm (path : Path) (h : Head) (s : State) : Host.Outcome State Fault Refusal :=
  wrote path (R.HEAD_IRQ_REARM h) (fun _ => irqRearm h) s

/-- COMPLETION_TIMEOUT. A CXL.io read lacks its completion (R402, R437, R438). -/
def execCompletionTimeout (h : Head) (read : HeadRead) (tag : BitVec 16) (s : State) : Host.Outcome State Fault Refusal :=
  finish (readTimeout h read tag.toNat) s

/-- GO_RESPONSE. A global-observation response arrives (R432). -/
def execGoResponse (q : Qp) (d : Dir) (s : State) : Host.Outcome State Fault Refusal :=
  finish (goResponse q (dirCode d)) s

/-- H2D_SNOOP. A CXL.cache snoop (R375). -/
def execH2dSnoop (h : Head) (addr : BitVec 64) (s : State) : Host.Outcome State Fault Refusal :=
  finish (h2dSnoop h addr.toNat) s

end Sys2Proof.Machine
end

