-- ==== Sys2Proof/Machine/Loops.lean ====
section
/-!
DEFINITION. The meanings of the clock commands (chapter 16).
-/
namespace Sys2Proof.Machine

/-- A write to a clock switch: the core switches at once, the switch of SLCK through the queue of its block (R68, R508). -/
def switchWrite (c : Nat) : SwitchWrite → Prog
  | .core fabric gaffer => access c R.CLK_SEL_CORE (clockSwitchWrite fabric.toNat gaffer.toNat)
  | .slck src => regWrite c R.AON_SLCK_CFG (BitVec.ofNat 32 src.toNat)

/-- CLOCK_READY. A start count or a lock completes (R501, R502); `crystal` names the source of SLCK. -/
def execClockReady (i : Fin 12) (crystal : Bool) (s : State) : Host.Outcome State Fault Refusal :=
  finish (clockReady i crystal) s

/-- RCLK_READY. A full window of the recovered clock, offset in 0.01 ppm (R503). -/
def execRclkReady (offset : Int) (s : State) : Host.Outcome State Fault Refusal :=
  finish (rclkReady offset) s

/-- CLOCK_SWITCH_WRITE. A write to a clock switch (R508). -/
def execClockSwitchWrite (path : Path) (sw : SwitchWrite) (s : State) : Host.Outcome State Fault Refusal :=
  finish (switchWrite (pathCode path) sw) s

/-- SWITCH_COMPLETE. A switch finishes (R507). -/
def execSwitchComplete (sw : ClockSwitch) (s : State) : Host.Outcome State Fault Refusal :=
  finish (switchComplete (switchCode sw)) s

/-- SWITCH_FORCED. A switch is forced (R509). -/
def execSwitchForced (sw : ClockSwitch) (s : State) : Host.Outcome State Fault Refusal :=
  finish (switchForced (switchCode sw)) s

/-- LREF_SELECT. A write of CLK.SEL_LINE (R504, R506). -/
def execLrefSelect (path : Path) (rclkOut : BitVec 2) (lref : BitVec 1) (s : State) : Host.Outcome State Fault Refusal :=
  wrote path (R.CLK_SEL_LINE) (fun _ => lrefSelect rclkOut.toNat lref.toNat) s

/-- CLOCK_LOSS. A source is judged lost (R506, R513, R549). -/
def execClockLoss (i : Fin 4) (s : State) : Host.Outcome State Fault Refusal :=
  finish (clockLoss i) s

/-- PLL_UNLOCK. A loop loses lock (R513). -/
def execPllUnlock (i : Fin 12) (s : State) : Host.Outcome State Fault Refusal :=
  finish (pllUnlock i) s

/-- PLL_RELOCK. A loop relocks (R513). -/
def execPllRelock (i : Fin 12) (s : State) : Host.Outcome State Fault Refusal :=
  finish (pllRelock i) s

/-- GATE_WRITE. A write of CLK.GATE (R511, R512). -/
def execGateWrite (path : Path) (gates : BitVec 21) (s : State) : Host.Outcome State Fault Refusal :=
  wrote path (R.CLK_GATE) (fun _ => gateWrite gates.toNat) s

/-- PLL_EN_WRITE. A write of CLK.PLL_EN (R511). -/
def execPllEnWrite (path : Path) (loops : BitVec 8) (s : State) : Host.Outcome State Fault Refusal :=
  wrote path (R.CLK_PLL_EN) (fun _ => pllEnWrite loops.toNat) s

end Sys2Proof.Machine
end

