-- ==== Sys2Proof/Machine/Mailboxes.lean ====
section
/-!
DEFINITION. The meanings of the service mailbox commands (chapter 12).
-/
namespace Sys2Proof.Machine

/-- MBX_POST. A write of MBX_CTL.post (R404); mailbox 4 is the keeper's. -/
def execMbxPost (path : Path) (m : Fin 5) (s : State) : Host.Outcome State Fault Refusal :=
  wrote path (mbxBase m) (fun c => mbxPost c m) s

/-- MBX_TAKE. The Gaffer takes a posted request (R404). -/
def execMbxTake (m : Fin 5) (s : State) : Host.Outcome State Fault Refusal :=
  finish (mbxTake m) s

/-- MBX_REPLY. The Gaffer writes a reply that has no row of its own (R404, R406 to R408). -/
def execMbxReply (m : Fin 5) (s : State) : Host.Outcome State Fault Refusal :=
  finish (mbxReplyDue m) s

/-- MBX_ACK. A write of MBX_CTL.ack (R404). -/
def execMbxAck (path : Path) (m : Fin 5) (s : State) : Host.Outcome State Fault Refusal :=
  wrote path (mbxBase m) (fun c => mbxAck c m) s

/-- MBX_ABORT. A write of MBX_CTL.abort (R405). -/
def execMbxAbort (path : Path) (m : Fin 5) (s : State) : Host.Outcome State Fault Refusal :=
  wrote path (mbxBase m) (fun _ => mbxAbort m) s

/-- NO_FW. A request has been POSTED for 10 ms (R405). -/
def execNoFw (m : Fin 5) (s : State) : Host.Outcome State Fault Refusal :=
  finish (mbxNoFw m) s

/-- GET_INFO. The mailbox command GET_INFO (R407). -/
def execGetInfo (m : Fin 5) (s : State) : Host.Outcome State Fault Refusal :=
  finish (mbxGetInfo m) s

/-- MODE_VOTE. The mailbox command MODE_VOTE (R407). -/
def execModeVote (m : Fin 5) (s : State) : Host.Outcome State Fault Refusal :=
  finish (mbxModeVote m) s

/-- PORT_ANNEAL. The mailbox command PORT_ANNEAL (R407). -/
def execPortAnneal (m : Fin 5) (s : State) : Host.Outcome State Fault Refusal :=
  finish (mbxPortAnneal m) s

/-- PORT_TDR. The mailbox command PORT_TDR (R407). -/
def execPortTdr (m : Fin 5) (s : State) : Host.Outcome State Fault Refusal :=
  finish (mbxPortTdr m) s

/-- LAUNCH. The mailbox command LAUNCH (R408). -/
def execLaunch (m : Fin 5) (s : State) : Host.Outcome State Fault Refusal :=
  finish (mbxLaunch m) s

/-- ECHO. The mailbox command ECHO (R407). -/
def execEcho (m : Fin 5) (s : State) : Host.Outcome State Fault Refusal :=
  finish (mbxEcho m) s

/-- LAUNCH_REPLY_TIMEOUT. One second has passed since the launch fired (R408). -/
def execLaunchReplyTimeout (m : Fin 5) (s : State) : Host.Outcome State Fault Refusal :=
  finish (launchReplyTimeout m) s

end Sys2Proof.Machine
end

