-- ==== Sys2Proof/Machine/Modes.lean ====
section
/-!
DEFINITION. The meanings of the power mode, domain and start commands (chapter 15).
-/
namespace Sys2Proof.Machine

/-- MODE_REQ_WRITE. A write of PWR.MODE_REQ.target (R474). -/
def execModeReqWrite (path : Path) (target : BitVec 3) (s : State) : Host.Outcome State Fault Refusal :=
  wrote path (R.PWR_MODE_REQ) (fun _ => modeReqWrite target.toNat) s

/-- MODE_ENTRY_WFI. A Gaffer WFI with a lower target (R292, R473). -/
def execModeEntryWfi (s : State) : Host.Outcome State Fault Refusal :=
  finish modeEntryWfi s

/-- STANDBY_ENTRY_DONE. STANDBY entry completes (R475, R477). -/
def execStandbyEntryDone (s : State) : Host.Outcome State Fault Refusal :=
  finish standbyEntryDone s

/-- PARK_ENTRY_DONE. PARK entry completes (R476, R477). -/
def execParkEntryDone (s : State) : Host.Outcome State Fault Refusal :=
  finish parkEntryDone s

/-- MIN_OFF_EXPIRE. min_off_ms have passed in PARK (R477). -/
def execMinOffExpire (s : State) : Host.Outcome State Fault Refusal :=
  finish minOffExpire s

/-- HOST_REQ_WRITE. A write of PWR.HOST_REQ (R409). -/
def execHostReqWrite (path : Path) (vote : BitVec 3) (s : State) : Host.Outcome State Fault Refusal :=
  wrote path (R.PWR_HOST_REQ) (fun _ => hostReqWrite vote.toNat) s

/-- KEEPER_REQ_WRITE. A write of PWR.KEEPER_REQ (R409). -/
def execKeeperReqWrite (path : Path) (vote : BitVec 3) (force : Bool) (s : State) : Host.Outcome State Fault Refusal :=
  wrote path (R.PWR_KEEPER_REQ) (fun _ => keeperReqWrite vote.toNat force) s

/-- POLICY_SETTLE. A lower target has held for settle_s (R327, R470). -/
def execPolicySettle (s : State) : Host.Outcome State Fault Refusal :=
  finish policySettle s

/-- DOM_REQ_WRITE. A write of PWR.DOM_REQ (R17, R478). -/
def execDomReqWrite (path : Path) (domains : BitVec 24) (s : State) : Host.Outcome State Fault Refusal :=
  wrote path (R.PWR_DOM_REQ) (fun c => domReqWrite c domains.toNat) s

/-- DOMAIN_POWER_GOOD. A domain reaches power good (R217, R478); `sealOk`: the store seal of a quarter holds. -/
def execDomainPowerGood (d : Fin 22) (sealOk : Bool) (s : State) : Host.Outcome State Fault Refusal :=
  finish (domainPowerGood d sealOk) s

/-- DOMAIN_SWITCH_OFF. The off condition of a pending domain holds (R478). -/
def execDomainSwitchOff (d : Fin 22) (s : State) : Host.Outcome State Fault Refusal :=
  finish (domainSwitchOff d) s

/-- DOM_FORCE_WRITE. A write of PWR.DOM_FORCE (R479). -/
def execDomForceWrite (path : Path) (domains : BitVec 24) (s : State) : Host.Outcome State Fault Refusal :=
  wrote path (R.PWR_DOM_FORCE) (fun c => domForceWrite c domains.toNat) s

/-- AVS_ACK. The PMIC reports the new level (R481); `want` is the level in mV that the timing monitors ask for in RUN. -/
def execAvsAck (want : Nat) (s : State) : Host.Outcome State Fault Refusal :=
  finish (avsAck want) s

/-- AVS_TIMEOUT. An AVSBus access is not acknowledged (R482). -/
def execAvsTimeout (s : State) : Host.Outcome State Fault Refusal :=
  finish avsTimeout s

/-- AVS_RETRY. The retry of a failed AVSBus write (R482). -/
def execAvsRetry (s : State) : Host.Outcome State Fault Refusal :=
  finish avsRetry s

/-- CS_WAKE. HSPI_CS_N low for 200 µs without SCK (R483). -/
def execCsWake (s : State) : Host.Outcome State Fault Refusal :=
  finish csWake s

/-- ALARM_MATCH. AON.SECONDS matches the alarm (R484). -/
def execAlarmMatch (s : State) : Host.Outcome State Fault Refusal :=
  finish alarmMatch s

/-- VMAIN_OK_RISE. VMAIN_OK rises (R485, R555, R618, R621). -/
def execVmainOkRise (s : State) : Host.Outcome State Fault Refusal :=
  finish vmainOkRise s

/-- VMAIN_TIMEOUT. VMAIN_OK has not risen within vmain_ms (R485, R499). -/
def execVmainTimeout (s : State) : Host.Outcome State Fault Refusal :=
  finish vmainTimeout s

/-- WAKE_TABLE_ACTION. A wake-table entry has reached its instant (R486, R487). -/
def execWakeTableAction (i : Fin 16) (s : State) : Host.Outcome State Fault Refusal :=
  finish (wakeTableAction i) s

/-- RETENTION_CHECK_DONE. The seal check of the retained banks ends with the banks that failed (R100, R112, R264, R491). -/
def execRetentionCheckDone (lost : BitVec 16) (s : State) : Host.Outcome State Fault Refusal :=
  finish (retentionCheckDone lost.toNat) s

/-- FIRMWARE_VERIFIED. The boot ROM has checked the firmware slots: generation and digest of each that verifies (R95, R497, R569). -/
def execFirmwareVerified (a : Option (BitVec 32 × List Byte)) (b : Option (BitVec 32 × List Byte)) (s : State) : Host.Outcome State Fault Refusal :=
  finish (firmwareVerified (a.map fun x => (x.1.toNat, x.2)) (b.map fun x => (x.1.toNat, x.2))) s

/-- GAFFER_RESET_RELEASE. The Gaffer's reset is released (R280, R488). -/
def execGafferResetRelease (s : State) : Host.Outcome State Fault Refusal :=
  finish gafferResetRelease s

/-- START_OK. A write of AON.START_CTL.ok lands (R498). -/
def execStartOk (path : Path) (s : State) : Host.Outcome State Fault Refusal :=
  wrote path (R.AON_START_CTL) (fun _ => startOk) s

/-- DEADLINE. The start deadline passes (R499). -/
def execDeadline (s : State) : Host.Outcome State Fault Refusal :=
  finish deadline s

end Sys2Proof.Machine
end

