-- ==== Sys2Proof/Machine/Moulds.lean ====
section
/-!
DEFINITION. The meanings of the mould, key and lifecycle commands (chapters 3 and 20).
-/
namespace Sys2Proof.Machine

/-- MOULD_LOAD_START. A write of MLD.LOAD_CTL.start (R97). -/
def execMouldLoadStart (path : Path) (kind : BitVec 2) (s : State) : Host.Outcome State Fault Refusal :=
  wrote path (R.MLD_LOAD_CTL) (fun c => mouldLoadStart c kind.toNat true) s

/-- MOULD_LOAD_DONE. A full load ends (R101 to R103, R94, R102). `host` is what host memory held, for a load from there. -/
def execMouldLoadDone (readOk : Bool) (host : List Byte) (s : State) : Host.Outcome State Fault Refusal :=
  finish (block [mouldLoadDone readOk host, holderInit, annealBegins]) s

/-- REMOULD_START. A write of MLD.REMOULD_CTL.start (R105). -/
def execRemouldStart (path : Path) (kind : BitVec 1) (cg : BitVec 5) (hold : BitVec 8) (s : State) : Host.Outcome State Fault Refusal :=
  wrote path (R.MLD_REMOULD_CTL) (fun _ => remouldStart kind.toNat cg.toNat hold.toNat) s

/-- REMOULD_CHECK_DONE. The checks of a partial image end (R107). -/
def execRemouldCheckDone (readOk : Bool) (s : State) : Host.Outcome State Fault Refusal :=
  finish (remouldCheckDone readOk) s

/-- REMOULD_EXPIRE. hold_ms has passed (R110). -/
def execRemouldExpire (s : State) : Host.Outcome State Fault Refusal :=
  finish remouldExpire s

/-- REMOULD_CANCEL. A write of cancel (R110). -/
def execRemouldCancel (path : Path) (s : State) : Host.Outcome State Fault Refusal :=
  wrote path (R.MLD_REMOULD_CTL) (fun _ => remouldCancel) s

/-- ADOPT_START. A write of MLD.ADOPT_CTL.start (R113). -/
def execAdoptStart (path : Path) (slot : BitVec 1) (s : State) : Host.Outcome State Fault Refusal :=
  wrote path (R.MLD_ADOPT_CTL) (fun _ => adoptStart slot.toNat) s

/-- ADOPT_CHECK_DONE. The adoption comparison ends (R113). -/
def execAdoptCheckDone (readOk : Bool) (s : State) : Host.Outcome State Fault Refusal :=
  finish (adoptCheckDone readOk) s

/-- KEY_PROG_START. A write of MLD.KEY_PROG_CTL.start (R92); outside FACTORY it is refused. -/
def execKeyProgStart (path : Path) (slot : BitVec 2) (s : State) : Host.Outcome State Fault Refusal :=
  wrote path (R.MLD_KEY_PROG_CTL) (fun c => inFactory c R.MLD_KEY_PROG_CTL (keyProgStart slot.toNat true)) s

/-- KEY_PROG_DONE. The key fuse operation ends (R92). -/
def execKeyProgDone (verified : Bool) (s : State) : Host.Outcome State Fault Refusal :=
  finish (keyProgDone verified) s

/-- LIFECYCLE_ADVANCE. A write of GLB.LIFECYCLE_CTL.go (R613). -/
def execLifecycleAdvance (path : Path) (key : BitVec 16) (target : BitVec 2) (s : State) : Host.Outcome State Fault Refusal :=
  wrote path (R.GLB_LIFECYCLE_CTL) (fun c => lifecycleWrite c key.toNat target.toNat true) s

/-- LIFECYCLE_FUSE_DONE. The lifecycle fuse ends (R613). -/
def execLifecycleFuseDone (verified : Bool) (s : State) : Host.Outcome State Fault Refusal :=
  finish (lifecycleFuseDone verified) s

end Sys2Proof.Machine
end

