-- ==== Sys2Proof/Machine/Pots.lean ====
section
/-!
DEFINITION. The meanings of the furnace and bundle commands (chapter 6).
-/
namespace Sys2Proof.Machine

/-- POT_RETURN_DONE. The slots of a sleeping port are copied, gated and marked returned (R218); a slot map that waited for it applies (R213). -/
def execPotReturnDone (p : Port) (s : State) : Host.Outcome State Fault Refusal :=
  finish (block [potReturnDone p, outsideSafe furBoundary]) s

/-- POT_RECLAIM_DONE. Quarter q has loaded the slots of the port (R219, R220); a slot map that waited for it applies (R213). -/
def execPotReclaimDone (p : Port) (q : Fin 4) (s : State) : Host.Outcome State Fault Refusal :=
  finish (block [potReclaimDone p q, outsideSafe furBoundary]) s

/-- POT_SELFTEST_START. A write of FUR.SELFTEST.start (R225). -/
def execPotSelftestStart (path : Path) (quarters : BitVec 4) (s : State) : Host.Outcome State Fault Refusal :=
  wrote path (R.FUR_SELFTEST) (fun c => potSelftestStart c quarters.toNat) s

/-- A self-test that a cold start runs: not a requested one, and the full anneal is not done (R221). -/
def State.startTest (s : State) (q : Nat) : Bool :=
  s.fur.testing.contains q && s.domOn (domFur q) && !bitOf (s.f F.FUR_SELFTEST_busy) q && s.coldAnneal && s.bit F.GLB_MODE_mould_ok

/-- POT_SELFTEST_DONE. A pot self-test ends with the pots that failed (R221). After that of a cold start the allocator derives the
slot map on the pots that are left (R209); later the map stays (DEDUCED, log entry 173). -/
def execPotSelftestDone (q : Fin 4) (failed : BitVec 32) (spareFailed : Bool) (s : State) : Host.Outcome State Fault Refusal :=
  finish (.seq (potSelftestDone q failed.toNat spareFailed) (when (s.startTest q) (.seq deriveFur refreshBundles))) s

/-- ECC_CORR. A corrected error of a pot coefficient memory (R223). -/
def execEccCorr (pot : Fin 128) (syndrome : BitVec 8) (addr : BitVec 32) (s : State) : Host.Outcome State Fault Refusal :=
  finish (.read fun t => when (t.domOn (domFur (pot.val / 32))) (eccCorr pot syndrome.toNat addr.toNat)) s

/-- ECC_UNCORR. An uncorrectable error of a pot (R224). -/
def execEccUncorr (pot : Fin 128) (syndrome : BitVec 8) (s : State) : Host.Outcome State Fault Refusal :=
  finish (.read fun t => when (t.domOn (domFur (pot.val / 32))) (eccUncorr pot syndrome.toNat)) s

/-- CANCELLER_DEPTH_INTERVAL. A 100 µs interval of a canceller ends with its depth (R231, R232). -/
def execCancellerDepthInterval (b : Fin 16) (pair : Fin 56) (depth : BitVec 16) (s : State) : Host.Outcome State Fault Refusal :=
  finish (cancellerDepth b pair depth.toNat) s

/-- CONVERGENCE_MAX_EXPIRE. The maximum convergence time has passed (R231, R235). -/
def execConvergenceMaxExpire (b : Fin 16) (pair : Fin 56) (s : State) : Host.Outcome State Fault Refusal :=
  finish (convergenceMax b pair) s

/-- BUNDLE_RESTART. A write of BND[b].CTL.restart (R233). -/
def execBundleRestart (path : Path) (b : Fin 16) (freeze : BitVec 1) (s : State) : Host.Outcome State Fault Refusal :=
  wrote path (R.BND_CTL b) (fun _ => block [setF (F.BND_CTL_freeze b) freeze.toNat, bundleRestart b]) s

end Sys2Proof.Machine
end

