-- ==== Sys2Proof/Machine/Queues.lean ====
section
/-!
DEFINITION. The meanings of the queue pair and cellar commands (chapter 13).
-/
namespace Sys2Proof.Machine

/-- DOORBELL. A BAR2 doorbell write (R378, R412, R413). In SAFE it is dropped (R545). -/
def execDoorbell (h : Head) (q : Qp) (d : Dir) (v : Word) (s : State) : Host.Outcome State Fault Refusal :=
  finish (outsideSafe (doorbell h q (dirCode d) v.toNat)) s

/-- DESCRIPTOR_FETCH_DONE. Descriptors arrive (R413, R417, R437, R438). -/
def execDescriptorFetchDone (q : Qp) (d : Dir) (failed : Bool) (descs : List DescWords) (s : State) : Host.Outcome State Fault Refusal :=
  finish (descriptorFetchDone q (dirCode d) failed (descs.map descNats)) s

/-- OWN_RECHECK. 10 µs after the last read (R413). -/
def execOwnRecheck (q : Qp) (d : Dir) (s : State) : Host.Outcome State Fault Refusal :=
  finish (ownRecheck q (dirCode d)) s

/-- DATA_READ_COMPLETION. Transmit data arrives (R437). -/
def execDataReadCompletion (q : Qp) (failed : Bool) (bytes : List Byte) (s : State) : Host.Outcome State Fault Refusal :=
  finish (dataReadCompletion q failed bytes) s

/-- TX_FRAME_FETCHED. A whole transmit frame is in the cellar (R419). -/
def execTxFrameFetched (q : Qp) (s : State) : Host.Outcome State Fault Refusal :=
  finish (txFrameFetched q) s

/-- TX_FRAME_START. The frame that may be sent is started (R246, R369, R419, R421). -/
def execTxFrameStart (p : Port) (ecc : Fin 3) (syndrome : BitVec 8) (cell : BitVec 18) (s : State) : Host.Outcome State Fault Refusal :=
  finish (txFrameStart p ecc syndrome.toNat cell.toNat) s

/-- LAUNCH_TIME. A held frame reaches its launch time (R420). -/
def execLaunchTime (p : Port) (s : State) : Host.Outcome State Fault Refusal :=
  finish (launchTime p) s

/-- TX_FRAME_SENT. The frame completes on the line (R341, R416); `age` is the time since its first bit crossed the MDI, 0.25 ns. -/
def execTxFrameSent (p : Port) (age : Nat) (s : State) : Host.Outcome State Fault Refusal :=
  finish (txFrameSent p age) s

/-- MODERATION_TIMER. The moderation timer expires (R435). -/
def execModerationTimer (q : Qp) (d : Dir) (s : State) : Host.Outcome State Fault Refusal :=
  finish (moderationTimer q (dirCode d)) s

/-- RING_ACK. A write of RX_ACK or TX_ACK (R436). -/
def execRingAck (path : Path) (q : Qp) (d : Dir) (ack : BitVec 15) (s : State) : Host.Outcome State Fault Refusal :=
  wrote path (ringOff (R.QP_RX_ACK q) (dirCode d)) (fun _ => ringAck q (dirCode d) ack.toNat) s

/-- RING_ENABLE. A write of CTL.en = 1 (R107, R440). -/
def execRingEnable (path : Path) (q : Qp) (d : Dir) (s : State) : Host.Outcome State Fault Refusal :=
  wrote path (ringOff (R.QP_RX_CTL q) (dirCode d)) (fun c => ringCtlWrite c q (dirCode d) 1) s

/-- RING_DISABLE. A write of CTL.en = 0 (R439). -/
def execRingDisable (path : Path) (q : Qp) (d : Dir) (s : State) : Host.Outcome State Fault Refusal :=
  wrote path (ringOff (R.QP_RX_CTL q) (dirCode d)) (fun _ => ringDisable q (dirCode d)) s

/-- RING_STOPPED. A stopping ring has drained (R439). -/
def execRingStopped (q : Qp) (d : Dir) (s : State) : Host.Outcome State Fault Refusal :=
  finish (ringStopped q (dirCode d)) s

/-- CEL_CFG_WRITE. A write of CEL.CFG (R426). -/
def execCelCfgWrite (path : Path) (kcells : BitVec 8) (s : State) : Host.Outcome State Fault Refusal :=
  wrote path (R.CEL_CFG) (fun c => celCfgWrite c kcells.toNat) s

/-- CEL_SHARE_WRITE. A write of a head's cellar share (R427). -/
def execCelShareWrite (path : Path) (h : Head) (d : Dir) (max_ : BitVec 10) (guar : BitVec 10) (s : State) : Host.Outcome State Fault Refusal :=
  wrote path (match d with | .rx => R.CEL_HEAD_RX h | .tx => R.CEL_HEAD_TX h) (fun c => celShareWrite c h (dirCode d) max_.toNat guar.toNat) s

end Sys2Proof.Machine
end

