-- ==== Sys2Proof/Machine/Rails.lean ====
section
/-!
DEFINITION. The meanings of the power-on and reset commands (chapter 16).
-/
namespace Sys2Proof.Machine

/-- POWER_ON. VAON rises (R514, R581): the board's straps, TEST_MODE, and what the board's flash holds where the state's does not. -/
def execPowerOn (headcfg : BitVec 2) (bootsrc : BitVec 1) (testMode : Bool) (flash : List (BitVec 27 × List Byte)) (s : State) : Host.Outcome State Fault Refusal :=
  finish (powerOn headcfg.toNat bootsrc.toNat testMode (flash.map fun e => (e.1.toNat, e.2))) s

/-- VAON_FALL. VAON falls (R581). -/
def execVaonFall (s : State) : Host.Outcome State Fault Refusal :=
  finish vaonFall s

/-- MAIN_RAIL_LOSS. VMAIN_OK falls (R514, R517). -/
def execMainRailLoss (s : State) : Host.Outcome State Fault Refusal :=
  finish mainRailLoss s

/-- RESET_N. RESET_N is held low for 2 µs (R515). -/
def execResetN (s : State) : Host.Outcome State Fault Refusal :=
  finish resetN s

/-- RESET_N_RELEASE. RESET_N is released (R516). -/
def execResetNRelease (s : State) : Host.Outcome State Fault Refusal :=
  finish resetNRelease s

/-- CHIP_RESET. A write of RST.CHIP (R515, R516, R546). -/
def execChipReset (path : Path) (key : BitVec 8) (go : Bool) (s : State) : Host.Outcome State Fault Refusal :=
  wrote path (R.RST_CHIP) (fun c => chipWrite c key.toNat go) s

/-- BLOCK_RESET. A write of RST.BLOCK (R518). -/
def execBlockReset (path : Path) (source : BitVec 7) (go : Bool) (s : State) : Host.Outcome State Fault Refusal :=
  wrote path (R.RST_BLOCK) (fun _ => blockWrite source.toNat go) s

/-- BLOCK_RESET_END. The hold time of a block reset ends (R518). -/
def execBlockResetEnd (source : BitVec 7) (s : State) : Host.Outcome State Fault Refusal :=
  finish (blockResetEnd source.toNat) s

end Sys2Proof.Machine
end

