-- ==== Sys2Proof/Machine/Times.lean ====
section
/-!
DEFINITION. The meanings of the timebase and launch commands (chapter 11).
-/
namespace Sys2Proof.Machine

/-- TB_SET. The highest word of TB.SET is written; the lower ones are held (R75, R338). -/
def execTbSet (path : Path) (high : BitVec 16) (s : State) : Host.Outcome State Fault Refusal :=
  wrote path (R.TB_SET + 12) (fun c => writeWord c (R.TB_SET + 12) (BitVec.ofNat 32 high.toNat)) s

/-- TB_STEP. A write of TB.STEP, signed ns (R338). -/
def execTbStep (path : Path) (step : Word) (s : State) : Host.Outcome State Fault Refusal :=
  wrote path (R.TB_STEP) (fun _ => tbStep (signed 32 step.toNat * 65536)) s

/-- TB_ADJ. A write of TB.ADJ, signed 1/1,024 ppb (R338). -/
def execTbAdj (path : Path) (rate : Word) (s : State) : Host.Outcome State Fault Refusal :=
  wrote path (R.TB_ADJ) (fun _ => tbAdjust (signed 32 rate.toNat)) s

/-- SYNC_RECEIVED. A Sync arrives (R346 to R350): the offset in 2^-16 ns, the domain rate, the rate that the servo asks for. -/
def execSyncReceived (d : Fin 4) (p : Port) (offset : Int) (domRate : Int) (servo : Int) (s : State) : Host.Outcome State Fault Refusal :=
  finish (syncReceived d p offset domRate servo) s

/-- SYNC_TIMEOUT. No Sync for 3 intervals (R349). -/
def execSyncTimeout (d : Fin 4) (s : State) : Host.Outcome State Fault Refusal :=
  finish (syncTimeout d) s

/-- HOLDOVER_EXPIRE. holdover_s have passed (R349). -/
def execHoldoverExpire (s : State) : Host.Outcome State Fault Refusal :=
  finish holdoverExpire s

/-- GM_CHANGE. The grandmaster of a domain changes (R345, R349). -/
def execGmChange (d : Fin 4) (slave : Option Port) (masters : BitVec 64) (steps : BitVec 16) (gmId : BitVec 64) (s : State) : Host.Outcome State Fault Refusal :=
  finish (gmChange d (slave.map (·.val)) masters.toNat steps.toNat gmId.toNat) s

/-- SYNC_SEND. logSyncInterval has passed (R348). In SAFE gPTP sends nothing (R545). -/
def execSyncSend (d : Fin 4) (s : State) : Host.Outcome State Fault Refusal :=
  finish (outsideSafe (syncSend d)) s

/-- PDELAY_MEASURE. The peer delay is measured, 2^-4 ns (R347). In SAFE gPTP sends nothing (R545). -/
def execPdelayMeasure (p : Port) (delay : BitVec 32) (s : State) : Host.Outcome State Fault Refusal :=
  finish (outsideSafe (pdelayMeasure p delay.toNat)) s

/-- PPS_OUT. The timebase reaches a whole second (R351). In SAFE the pin stays low (R545). -/
def execPpsOut (s : State) : Host.Outcome State Fault Refusal :=
  finish (outsideSafe ppsOut) s

/-- PPS_IN. A PPS_IN edge (R352); `servo` is the rate that a disciplined timebase takes. -/
def execPpsIn (servo : Int) (s : State) : Host.Outcome State Fault Refusal :=
  finish (ppsIn servo) s

/-- LAUNCH_IN. A LAUNCH_IN edge (R353). -/
def execLaunchIn (s : State) : Host.Outcome State Fault Refusal :=
  finish launchIn s

/-- LG_ARM. A write of LG[g].CTL.arm (R355 to R357). -/
def execLgArm (path : Path) (g : Fin 16) (src : BitVec 2) (kind : BitVec 1) (out : BitVec 1) (s : State) : Host.Outcome State Fault Refusal :=
  wrote path (R.LCH_LG_CTL g) (fun c => lgArm c g src.toNat kind.toNat out.toNat) s

/-- LG_DISARM. A write of LG[g].CTL.disarm (R355). -/
def execLgDisarm (path : Path) (g : Fin 16) (s : State) : Host.Outcome State Fault Refusal :=
  wrote path (R.LCH_LG_CTL g) (fun _ => lgDisarm g) s

/-- LG_FIRE. The timebase reaches TIME of the groups of a mask (R357 to R366). -/
def execLgFire (groups : BitVec 16) (s : State) : Host.Outcome State Fault Refusal :=
  finish (lgFire groups.toNat) s

/-- GCL_ENTRY_BOUNDARY. A gate control list moves to its next entry or cycle (R368). -/
def execGclEntryBoundary (p : Port) (s : State) : Host.Outcome State Fault Refusal :=
  finish (gclRefresh p) s

end Sys2Proof.Machine
end

