-- ==== Sys2Proof/Machine/Trims.lean ====
section
/-!
DEFINITION. The meanings of the calibration commands (chapter 8).
-/
namespace Sys2Proof.Machine

/-- CONVERTER_STAGE_DONE. A converter stage ends with its sets (R263). -/
def execConverterStageDone (p : Port) (sets : List CalSet) (s : State) : Host.Outcome State Fault Refusal :=
  finish (converterStageDone p sets) s

/-- BACKGROUND_ANNEAL_OFFER. The background anneal offers new sets (R266). -/
def execBackgroundAnnealOffer (p : Port) (sets : List CalSet) (s : State) : Host.Outcome State Fault Refusal :=
  finish (backgroundOffer p sets) s

/-- PENDING_SET_APPLY. A boundary at which a pending set may come into force (R271). -/
def execPendingSetApply (p : Port) (at_ : Boundary) (s : State) : Host.Outcome State Fault Refusal :=
  finish (pendingSetApply p at_) s

/-- STRUCT_WAIT. A set has waited struct_wait_s (R272). -/
def execStructWait (p : Port) (kind : BitVec 4) (family : BitVec 2) (s : State) : Host.Outcome State Fault Refusal :=
  finish (structWait p kind.toNat family.toNat) s

/-- PORT_ANNEAL_START. A write of CAL.PORT_CTL.start (R275). -/
def execPortAnnealStart (path : Path) (p : Port) (noWait : BitVec 1) (force : BitVec 1) (s : State) : Host.Outcome State Fault Refusal :=
  wrote path (R.CAL_PORT_CTL p) (fun c => annealCtlWrite c p noWait.toNat force.toNat true false) s

/-- PORT_ANNEAL_STOP. A write of CAL.PORT_CTL.stop (R276). -/
def execPortAnnealStop (path : Path) (p : Port) (s : State) : Host.Outcome State Fault Refusal :=
  wrote path (R.CAL_PORT_CTL p) (fun _ => annealAbort p) s

/-- PORT_ANNEAL_DONE. A foreground anneal ends with its sets (R276, R277). -/
def execPortAnnealDone (p : Port) (sets : List CalSet) (s : State) : Host.Outcome State Fault Refusal :=
  finish (annealDone p sets) s

/-- ATTIC_WRITE. A write of CAL.ATTIC_CTL.write (R281). -/
def execAtticWrite (path : Path) (s : State) : Host.Outcome State Fault Refusal :=
  wrote path (R.CAL_ATTIC_CTL) (fun _ => atticWrite) s

/-- ATTIC_WRITE_DONE. An attic write completes (R281, R282). -/
def execAtticWriteDone (ok : Bool) (s : State) : Host.Outcome State Fault Refusal :=
  finish (atticWriteDone ok Config.uid.toNat) s

end Sys2Proof.Machine
end

