-- ==== Sys2Proof/Machine/Trunks.lean ====
section
/-!
DEFINITION. The meanings of the X50, cane and test loop commands (chapter 5).
-/
namespace Sys2Proof.Machine

/-- TRAINING_FRAME. An X50 training frame arrives (R170, R174): its 48 bits. -/
def execTrainingFrame (p : Port) (body : BitVec 48) (s : State) : Host.Outcome State Fault Refusal :=
  finish (trainingFrame p body.toNat) s

/-- PAM6_SWITCH. pam6_count reaches 0 (R170). -/
def execPam6Switch (p : Port) (s : State) : Host.Outcome State Fault Refusal :=
  finish (pam6Switch p) s

/-- TAP_WRITE. A write of TAP_MAN or TAP_STD (R175). -/
def execTapWrite (path : Path) (p : Port) (man : Bool) (taps : BitVec 18) (s : State) : Host.Outcome State Fault Refusal :=
  wrote path (if man then R.PORT_TAP_MAN p else R.PORT_TAP_STD p) (fun _ => tapWrite p man taps.toNat) s

/-- TAP_APPLY. The boundary at which new taps come into force (R176). -/
def execTapApply (p : Port) (s : State) : Host.Outcome State Fault Refusal :=
  finish (tapApply p) s

/-- ALIGNMENT_MARKER. An alignment marker arrives (R181, R184, R185, R187, R188): its arrival in 0.1 ns, the bit errors of its BIP. -/
def execAlignmentMarker (p : Port) (lane : BitVec 2) (tag : BitVec 16) (map : BitVec 4) (rxOk : BitVec 4) (arrival : Nat) (bipErrors : Nat) (s : State) : Host.Outcome State Fault Refusal :=
  finish (alignmentMarker p lane.toNat tag.toNat map.toNat rxOk.toNat arrival bipErrors caneDrop) s

/-- MARKER_MISS. Two consecutive markers are missed (R184). -/
def execMarkerMiss (p : Port) (s : State) : Host.Outcome State Fault Refusal :=
  finish (markerMiss p caneDrop) s

/-- FORM_WAIT_EXPIRE. form_wait_ms has passed (R183). -/
def execFormWaitExpire (k : Fin 4) (s : State) : Host.Outcome State Fault Refusal :=
  finish (formWaitExpire k) s

/-- REJOIN_HOLD_EXPIRE. rejoin_hold_ms has passed (R184). -/
def execRejoinHoldExpire (p : Port) (s : State) : Host.Outcome State Fault Refusal :=
  finish (rejoinHoldExpire p) s

/-- LOOP_START. A write of LOOP_CTL.start (R196, R197). -/
def execLoopStart (path : Path) (p : Port) (kind : BitVec 2) (source : BitVec 2) (force : BitVec 1) (noWait : BitVec 1) (mode : BitVec 4) (s : State) : Host.Outcome State Fault Refusal :=
  wrote path (R.PORT_LOOP_CTL p) (fun c => loopCtlWrite c p mode.toNat noWait.toNat force.toNat source.toNat kind.toNat true false) s

/-- LOOP_STOP. A write of LOOP_CTL.stop (R199). -/
def execLoopStop (path : Path) (p : Port) (s : State) : Host.Outcome State Fault Refusal :=
  wrote path (R.PORT_LOOP_CTL p) (fun _ => loopStop p) s

/-- LOOP_DURATION_EXPIRE. duration_ms has passed, with the bits compared and their errors (R198, R199). -/
def execLoopDurationExpire (p : Port) (bits : Nat) (errs : Nat) (s : State) : Host.Outcome State Fault Refusal :=
  finish (loopDurationExpire p bits errs) s

end Sys2Proof.Machine
end

