-- ==== Sys2Proof/Machine/Wakes.lean ====
section
/-!
DEFINITION. The meanings of the idle, sleep and wake commands (chapter 10).
-/
namespace Sys2Proof.Machine

/-- LPI_ENTRY. The transmit direction has been idle for idle_us (R312, R316). -/
def execLpiEntry (p : Port) (s : State) : Host.Outcome State Fault Refusal :=
  finish (lpiEntry p) s

/-- LPI_EARLY_EXIT. A known release lies one exit maximum ahead (R313). -/
def execLpiEarlyExit (p : Port) (s : State) : Host.Outcome State Fault Refusal :=
  finish (lpiEarlyExit p) s

/-- LPI_WAKE_SIGNAL. The partner sends its wake signal (R314). -/
def execLpiWakeSignal (p : Port) (s : State) : Host.Outcome State Fault Refusal :=
  finish (lpiWakeSignal p) s

/-- QUICK_REFRESH. A quick refresh is due (R315). -/
def execQuickRefresh (p : Port) (s : State) : Host.Outcome State Fault Refusal :=
  finish (quickRefresh p) s

/-- DEEP_LPI_ENTRY. deep_ms have passed in LPI (R318). -/
def execDeepLpiEntry (p : Port) (s : State) : Host.Outcome State Fault Refusal :=
  finish (deepLpiEntry p) s

/-- LPI_EXIT_TIMEOUT. The exit maximum has passed (R310). -/
def execLpiExitTimeout (p : Port) (s : State) : Host.Outcome State Fault Refusal :=
  finish (lpiExitTimeout p) s

/-- SLEEP_REPLY_RECEIVED. The partner acknowledges or rejects (R320). -/
def execSleepReplyReceived (p : Port) (ack : Bool) (s : State) : Host.Outcome State Fault Refusal :=
  finish (sleepReplyReceived p ack) s

/-- PARTNER_SILENCE. The partner is silent (R320, R322). -/
def execPartnerSilence (p : Port) (s : State) : Host.Outcome State Fault Refusal :=
  finish (partnerSilence p) s

/-- SLEEP_TIMEOUT. sleep_timeout_ms has passed (R320). -/
def execSleepTimeout (p : Port) (s : State) : Host.Outcome State Fault Refusal :=
  finish (sleepTimeout p) s

/-- SLEEP_REQUEST_RECEIVED. The partner asks to sleep (R321). -/
def execSleepRequestReceived (p : Port) (s : State) : Host.Outcome State Fault Refusal :=
  finish (sleepRequestReceived p) s

/-- PARTNER_SLEEP_TIMEOUT. 1 ms after an accepted partner request (R321). -/
def execPartnerSleepTimeout (p : Port) (s : State) : Host.Outcome State Fault Refusal :=
  finish (partnerSleepTimeout p) s

/-- WUP_QUALIFIED. A wake-up pulse is qualified (R324, R477, R483). -/
def execWupQualified (p : Port) (s : State) : Host.Outcome State Fault Refusal :=
  finish (wupQualified p) s

/-- WUR_RECEIVED. A WUR arrives (R328). -/
def execWurReceived (p : Port) (s : State) : Host.Outcome State Fault Refusal :=
  finish (wurReceived p) s

/-- WAKE_IN_EDGE. The chosen edge on WAKE_IN i (R328). -/
def execWakeInEdge (i : Fin 4) (s : State) : Host.Outcome State Fault Refusal :=
  finish (wakeInEdge i) s

/-- WAKE_SERVE. A pending port is served (R323, R330). -/
def execWakeServe (p : Port) (s : State) : Host.Outcome State Fault Refusal :=
  finish (wakeServe p) s

/-- WUP_END. A sent WUP ends (R330). -/
def execWupEnd (p : Port) (s : State) : Host.Outcome State Fault Refusal :=
  finish (wupEnd p) s

/-- PULSE_SPACING_RELEASE. The spacing has passed (R331). -/
def execPulseSpacingRelease (p : Port) (s : State) : Host.Outcome State Fault Refusal :=
  finish (pulseSpacingRelease p) s

/-- WUP_RETRY. The partner has not answered a WUP (R332). -/
def execWupRetry (p : Port) (s : State) : Host.Outcome State Fault Refusal :=
  finish (wupRetry p) s

/-- LPI_EXIT_COMPLETE. The exit completes (R310). -/
def execLpiExitComplete (p : Port) (s : State) : Host.Outcome State Fault Refusal :=
  finish (lpiExitComplete p) s

/-- RECEIVE_QUIET. The partner enters LPI (R312). -/
def execReceiveQuiet (p : Port) (s : State) : Host.Outcome State Fault Refusal :=
  finish (receiveQuiet p) s

end Sys2Proof.Machine
end

