-- ==== Sys2Proof/Machine/Windows.lean ====
section
/-!
DEFINITION. The meanings of the flash commands (chapter 18).
-/
namespace Sys2Proof.Machine

/-- FLASH_WINDOW_READ. A read of the flash window (R571, R573). -/
def execFlashWindowRead (addr : BitVec 27) (len : Nat) (ok : Bool) (s : State) : Host.Outcome State Fault Refusal :=
  finish (flashWindowRead addr.toNat len ok) s

/-- FLASH_WINDOW_WRITE. A write into the flash window (R572). -/
def execFlashWindowWrite (addr : BitVec 27) (bytes : List Byte) (s : State) : Host.Outcome State Fault Refusal :=
  finish (flashWindowWrite addr.toNat bytes) s

/-- PAGE_PROGRAM. 1 µs without a write (R572). -/
def execPageProgram (s : State) : Host.Outcome State Fault Refusal :=
  finish pageProgram s

/-- FSPI_FLUSH. A write of FSPI.CTL.flush (R572). -/
def execFspiFlush (path : Path) (s : State) : Host.Outcome State Fault Refusal :=
  wrote path (R.FSPI_CTL) (fun _ => fspiFlush) s

/-- PROGRAM_COMPLETE. Write-in-progress clears (R577). -/
def execProgramComplete (failed : Bool) (s : State) : Host.Outcome State Fault Refusal :=
  finish (programComplete failed) s

/-- FLASH_TIMEOUT. prog_ms or erase_ms have passed (R577). -/
def execFlashTimeout (s : State) : Host.Outcome State Fault Refusal :=
  finish flashTimeout s

/-- ERASE. A write of FSPI.ERASE_CTL.go (R574). -/
def execErase (path : Path) (size : BitVec 2) (s : State) : Host.Outcome State Fault Refusal :=
  wrote path (R.FSPI_ERASE_CTL) (fun _ => flashErase size.toNat true) s

/-- ERASE_SUSPEND. A reader has waited 50 µs behind an erase (R576). -/
def execEraseSuspend (s : State) : Host.Outcome State Fault Refusal :=
  finish eraseSuspend s

/-- ERASE_RESUME. 10 µs after the last read (R576). -/
def execEraseResume (s : State) : Host.Outcome State Fault Refusal :=
  finish eraseResume s

end Sys2Proof.Machine
end

