-- ==== Sys2Proof/Machine/Dispatch.lean ====
section
/-!
DEFINITION. The meaning of each command: one arm per constructor, one call of its meaning.
-/
namespace Sys2Proof.Machine

/-- The effect of a command on everything but the queue. -/
def exec (i : Instr) (s : State) : Host.Outcome State Fault Refusal :=
  match i with
  | .registerWrite path addr size data => Sys2Proof.Machine.execRegisterWrite path addr size data s
  | .seqWriteBack path off seq => Sys2Proof.Machine.execSeqWriteBack path off seq s
  | .acWriteLand => Sys2Proof.Machine.execAcWriteLand s
  | .tmrScrub off upset => Sys2Proof.Machine.execTmrScrub off upset s
  | .commit path mask => Sys2Proof.Machine.execCommit path mask s
  | .commitLateApply block => Sys2Proof.Machine.execCommitLateApply block s
  | .mouldLoadStart path kind => Sys2Proof.Machine.execMouldLoadStart path kind s
  | .mouldLoadDone readOk host => Sys2Proof.Machine.execMouldLoadDone readOk host s
  | .remouldStart path kind cg hold => Sys2Proof.Machine.execRemouldStart path kind cg hold s
  | .remouldCheckDone readOk => Sys2Proof.Machine.execRemouldCheckDone readOk s
  | .remouldExpire => Sys2Proof.Machine.execRemouldExpire s
  | .remouldCancel path => Sys2Proof.Machine.execRemouldCancel path s
  | .adoptStart path slot => Sys2Proof.Machine.execAdoptStart path slot s
  | .adoptCheckDone readOk => Sys2Proof.Machine.execAdoptCheckDone readOk s
  | .keyProgStart path slot => Sys2Proof.Machine.execKeyProgStart path slot s
  | .keyProgDone verified => Sys2Proof.Machine.execKeyProgDone verified s
  | .portAdminWrite path p admin => Sys2Proof.Machine.execPortAdminWrite path p admin s
  | .portRestart path p => Sys2Proof.Machine.execPortRestart path p s
  | .portReset path p => Sys2Proof.Machine.execPortReset path p s
  | .portResetEnd p => Sys2Proof.Machine.execPortResetEnd p s
  | .listenWaitEnd p => Sys2Proof.Machine.execListenWaitEnd p s
  | .anPageReceived p page last seedMaster => Sys2Proof.Machine.execAnPageReceived p page last seedMaster s
  | .anTimeout p => Sys2Proof.Machine.execAnTimeout p s
  | .trainComplete p margin found => Sys2Proof.Machine.execTrainComplete p margin found s
  | .trainStoredTimeout p => Sys2Proof.Machine.execTrainStoredTimeout p s
  | .trainTimeout p => Sys2Proof.Machine.execTrainTimeout p s
  | .blockLock p uncLast => Sys2Proof.Machine.execBlockLock p uncLast s
  | .fecBurst p n => Sys2Proof.Machine.execFecBurst p n s
  | .sqiLow p uncLast => Sys2Proof.Machine.execSqiLow p uncLast s
  | .partnerDown p uncLast => Sys2Proof.Machine.execPartnerDown p uncLast s
  | .flapHoldExpire p => Sys2Proof.Machine.execFlapHoldExpire p s
  | .linkQualInterval p margin corrected uncorrected => Sys2Proof.Machine.execLinkQualInterval p margin corrected uncorrected s
  | .macFrameReceive p frame => Sys2Proof.Machine.execMacFrameReceive p frame s
  | .counterClear path p => Sys2Proof.Machine.execCounterClear path p s
  | .trainingFrame p body => Sys2Proof.Machine.execTrainingFrame p body s
  | .pam6Switch p => Sys2Proof.Machine.execPam6Switch p s
  | .tapWrite path p man taps => Sys2Proof.Machine.execTapWrite path p man taps s
  | .tapApply p => Sys2Proof.Machine.execTapApply p s
  | .alignmentMarker p lane tag map rxOk arrival bipErrors => Sys2Proof.Machine.execAlignmentMarker p lane tag map rxOk arrival bipErrors s
  | .markerMiss p => Sys2Proof.Machine.execMarkerMiss p s
  | .formWaitExpire k => Sys2Proof.Machine.execFormWaitExpire k s
  | .rejoinHoldExpire p => Sys2Proof.Machine.execRejoinHoldExpire p s
  | .loopStart path p kind source force noWait mode => Sys2Proof.Machine.execLoopStart path p kind source force noWait mode s
  | .loopStop path p => Sys2Proof.Machine.execLoopStop path p s
  | .loopDurationExpire p bits errs => Sys2Proof.Machine.execLoopDurationExpire p bits errs s
  | .potReturnDone p => Sys2Proof.Machine.execPotReturnDone p s
  | .potReclaimDone p q => Sys2Proof.Machine.execPotReclaimDone p q s
  | .potSelftestStart path quarters => Sys2Proof.Machine.execPotSelftestStart path quarters s
  | .potSelftestDone q failed spareFailed => Sys2Proof.Machine.execPotSelftestDone q failed spareFailed s
  | .eccCorr pot syndrome addr => Sys2Proof.Machine.execEccCorr pot syndrome addr s
  | .eccUncorr pot syndrome => Sys2Proof.Machine.execEccUncorr pot syndrome s
  | .cancellerDepthInterval b pair depth => Sys2Proof.Machine.execCancellerDepthInterval b pair depth s
  | .convergenceMaxExpire b pair => Sys2Proof.Machine.execConvergenceMaxExpire b pair s
  | .bundleRestart path b freeze => Sys2Proof.Machine.execBundleRestart path b freeze s
  | .beaconReceived p us => Sys2Proof.Machine.execBeaconReceived p us s
  | .plcaCycleStart p us => Sys2Proof.Machine.execPlcaCycleStart p us s
  | .transmitOpportunity p => Sys2Proof.Machine.execTransmitOpportunity p s
  | .beaconLoss p uncLast => Sys2Proof.Machine.execBeaconLoss p uncLast s
  | .foreignBeacon p => Sys2Proof.Machine.execForeignBeacon p s
  | .collision p n own => Sys2Proof.Machine.execCollision p n own s
  | .lateCollision p n own => Sys2Proof.Machine.execLateCollision p n own s
  | .segmentSleep p => Sys2Proof.Machine.execSegmentSleep p s
  | .censusWindowEnd p => Sys2Proof.Machine.execCensusWindowEnd p s
  | .censusClear path p window => Sys2Proof.Machine.execCensusClear path p window s
  | .segQualInterval p => Sys2Proof.Machine.execSegQualInterval p s
  | .converterStageDone p sets => Sys2Proof.Machine.execConverterStageDone p sets s
  | .backgroundAnnealOffer p sets => Sys2Proof.Machine.execBackgroundAnnealOffer p sets s
  | .pendingSetApply p at_ => Sys2Proof.Machine.execPendingSetApply p at_ s
  | .structWait p kind family => Sys2Proof.Machine.execStructWait p kind family s
  | .portAnnealStart path p noWait force => Sys2Proof.Machine.execPortAnnealStart path p noWait force s
  | .portAnnealStop path p => Sys2Proof.Machine.execPortAnnealStop path p s
  | .portAnnealDone p sets => Sys2Proof.Machine.execPortAnnealDone p sets s
  | .atticWrite path => Sys2Proof.Machine.execAtticWrite path s
  | .atticWriteDone ok => Sys2Proof.Machine.execAtticWriteDone ok s
  | .tdrStart path p noWait force => Sys2Proof.Machine.execTdrStart path p noWait force s
  | .tdrStop path p => Sys2Proof.Machine.execTdrStop path p s
  | .tdrDone p found => Sys2Proof.Machine.execTdrDone p found s
  | .ilEstimate p loss limit => Sys2Proof.Machine.execIlEstimate p loss limit s
  | .fpCapture path p => Sys2Proof.Machine.execFpCapture path p s
  | .fpClear path p => Sys2Proof.Machine.execFpClear path p s
  | .sweepStart path cg noWait force => Sys2Proof.Machine.execSweepStart path cg noWait force s
  | .sweepArm path cg noWait force => Sys2Proof.Machine.execSweepArm path cg noWait force s
  | .sweepStop path => Sys2Proof.Machine.execSweepStop path s
  | .sweepDone pairs profiles => Sys2Proof.Machine.execSweepDone pairs profiles s
  | .flashBookRequest path => Sys2Proof.Machine.execFlashBookRequest path s
  | .flashBookRelease path => Sys2Proof.Machine.execFlashBookRelease path s
  | .lpiEntry p => Sys2Proof.Machine.execLpiEntry p s
  | .lpiEarlyExit p => Sys2Proof.Machine.execLpiEarlyExit p s
  | .lpiWakeSignal p => Sys2Proof.Machine.execLpiWakeSignal p s
  | .quickRefresh p => Sys2Proof.Machine.execQuickRefresh p s
  | .deepLpiEntry p => Sys2Proof.Machine.execDeepLpiEntry p s
  | .lpiExitTimeout p => Sys2Proof.Machine.execLpiExitTimeout p s
  | .sleepReplyReceived p ack => Sys2Proof.Machine.execSleepReplyReceived p ack s
  | .partnerSilence p => Sys2Proof.Machine.execPartnerSilence p s
  | .sleepTimeout p => Sys2Proof.Machine.execSleepTimeout p s
  | .sleepRequestReceived p => Sys2Proof.Machine.execSleepRequestReceived p s
  | .partnerSleepTimeout p => Sys2Proof.Machine.execPartnerSleepTimeout p s
  | .wupQualified p => Sys2Proof.Machine.execWupQualified p s
  | .wurReceived p => Sys2Proof.Machine.execWurReceived p s
  | .wakeInEdge k => Sys2Proof.Machine.execWakeInEdge k s
  | .wakeServe p => Sys2Proof.Machine.execWakeServe p s
  | .wupEnd p => Sys2Proof.Machine.execWupEnd p s
  | .pulseSpacingRelease p => Sys2Proof.Machine.execPulseSpacingRelease p s
  | .wupRetry p => Sys2Proof.Machine.execWupRetry p s
  | .tbSet path high => Sys2Proof.Machine.execTbSet path high s
  | .tbStep path step => Sys2Proof.Machine.execTbStep path step s
  | .tbAdj path rate => Sys2Proof.Machine.execTbAdj path rate s
  | .syncReceived d p offset domRate servo => Sys2Proof.Machine.execSyncReceived d p offset domRate servo s
  | .syncTimeout d => Sys2Proof.Machine.execSyncTimeout d s
  | .holdoverExpire => Sys2Proof.Machine.execHoldoverExpire s
  | .gmChange d slave masters steps gmId => Sys2Proof.Machine.execGmChange d slave masters steps gmId s
  | .syncSend d => Sys2Proof.Machine.execSyncSend d s
  | .pdelayMeasure p delay => Sys2Proof.Machine.execPdelayMeasure p delay s
  | .ppsOut => Sys2Proof.Machine.execPpsOut s
  | .ppsIn servo => Sys2Proof.Machine.execPpsIn servo s
  | .launchIn => Sys2Proof.Machine.execLaunchIn s
  | .lgArm path g src kind out => Sys2Proof.Machine.execLgArm path g src kind out s
  | .lgDisarm path g => Sys2Proof.Machine.execLgDisarm path g s
  | .lgFire groups => Sys2Proof.Machine.execLgFire groups s
  | .gclEntryBoundary p => Sys2Proof.Machine.execGclEntryBoundary p s
  | .linkL0 h rate width => Sys2Proof.Machine.execLinkL0 h rate width s
  | .headReset h cause => Sys2Proof.Machine.execHeadReset h cause s
  | .headResetEnd h => Sys2Proof.Machine.execHeadResetEnd h s
  | .drainDone h => Sys2Proof.Machine.execDrainDone h s
  | .detach path h => Sys2Proof.Machine.execDetach path h s
  | .heartbeatExpire h => Sys2Proof.Machine.execHeartbeatExpire h s
  | .hbKick path h => Sys2Proof.Machine.execHbKick path h s
  | .bmeClear h => Sys2Proof.Machine.execBmeClear h s
  | .attach path h cfg => Sys2Proof.Machine.execAttach path h cfg s
  | .doorbell h q d v => Sys2Proof.Machine.execDoorbell h q d v s
  | .cxlMemRequest h => Sys2Proof.Machine.execCxlMemRequest h s
  | .invalidateRequest h addr len => Sys2Proof.Machine.execInvalidateRequest h addr len s
  | .invalidateComplete h => Sys2Proof.Machine.execInvalidateComplete h s
  | .translationCompletion h addr len write => Sys2Proof.Machine.execTranslationCompletion h addr len write s
  | .atcFlush path h => Sys2Proof.Machine.execAtcFlush path h s
  | .atsEnableChange h on => Sys2Proof.Machine.execAtsEnableChange h on s
  | .spdmRequest h req => Sys2Proof.Machine.execSpdmRequest h req s
  | .msixUnmask h vec => Sys2Proof.Machine.execMsixUnmask h vec s
  | .irqRearm path h => Sys2Proof.Machine.execIrqRearm path h s
  | .completionTimeout h read tag => Sys2Proof.Machine.execCompletionTimeout h read tag s
  | .goResponse q d => Sys2Proof.Machine.execGoResponse q d s
  | .mbxPost path m => Sys2Proof.Machine.execMbxPost path m s
  | .mbxTake m => Sys2Proof.Machine.execMbxTake m s
  | .mbxReply m => Sys2Proof.Machine.execMbxReply m s
  | .mbxAck path m => Sys2Proof.Machine.execMbxAck path m s
  | .mbxAbort path m => Sys2Proof.Machine.execMbxAbort path m s
  | .noFw m => Sys2Proof.Machine.execNoFw m s
  | .getInfo m => Sys2Proof.Machine.execGetInfo m s
  | .modeVote m => Sys2Proof.Machine.execModeVote m s
  | .portAnneal m => Sys2Proof.Machine.execPortAnneal m s
  | .portTdr m => Sys2Proof.Machine.execPortTdr m s
  | .launch m => Sys2Proof.Machine.execLaunch m s
  | .echo m => Sys2Proof.Machine.execEcho m s
  | .descriptorFetchDone q d failed descs => Sys2Proof.Machine.execDescriptorFetchDone q d failed descs s
  | .ownRecheck q d => Sys2Proof.Machine.execOwnRecheck q d s
  | .dataReadCompletion q failed bytes => Sys2Proof.Machine.execDataReadCompletion q failed bytes s
  | .txFrameFetched q => Sys2Proof.Machine.execTxFrameFetched q s
  | .txFrameStart p ecc syndrome cell => Sys2Proof.Machine.execTxFrameStart p ecc syndrome cell s
  | .launchTime p => Sys2Proof.Machine.execLaunchTime p s
  | .txFrameSent p age => Sys2Proof.Machine.execTxFrameSent p age s
  | .moderationTimer q d => Sys2Proof.Machine.execModerationTimer q d s
  | .ringAck path q d ack => Sys2Proof.Machine.execRingAck path q d ack s
  | .ringEnable path q d => Sys2Proof.Machine.execRingEnable path q d s
  | .ringDisable path q d => Sys2Proof.Machine.execRingDisable path q d s
  | .ringStopped q d => Sys2Proof.Machine.execRingStopped q d s
  | .celCfgWrite path kcells => Sys2Proof.Machine.execCelCfgWrite path kcells s
  | .celShareWrite path h d max_ guar => Sys2Proof.Machine.execCelShareWrite path h d max_ guar s
  | .mchEnable path ch => Sys2Proof.Machine.execMchEnable path ch s
  | .mchDisable path ch => Sys2Proof.Machine.execMchDisable path ch s
  | .mchDoorbell path ch host => Sys2Proof.Machine.execMchDoorbell path ch host s
  | .mdmaDescFetched ch failed words => Sys2Proof.Machine.execMdmaDescFetched ch failed words s
  | .mdmaDescComplete ch data wbFail host => Sys2Proof.Machine.execMdmaDescComplete ch data wbFail host s
  | .mdmaSyncCompletion ch h failed wbFail host => Sys2Proof.Machine.execMdmaSyncCompletion ch h failed wbFail host s
  | .modeReqWrite path target => Sys2Proof.Machine.execModeReqWrite path target s
  | .modeEntryWfi => Sys2Proof.Machine.execModeEntryWfi s
  | .standbyEntryDone => Sys2Proof.Machine.execStandbyEntryDone s
  | .parkEntryDone => Sys2Proof.Machine.execParkEntryDone s
  | .minOffExpire => Sys2Proof.Machine.execMinOffExpire s
  | .hostReqWrite path vote => Sys2Proof.Machine.execHostReqWrite path vote s
  | .keeperReqWrite path vote force => Sys2Proof.Machine.execKeeperReqWrite path vote force s
  | .policySettle => Sys2Proof.Machine.execPolicySettle s
  | .domReqWrite path domains => Sys2Proof.Machine.execDomReqWrite path domains s
  | .domainPowerGood d sealOk => Sys2Proof.Machine.execDomainPowerGood d sealOk s
  | .domainSwitchOff d => Sys2Proof.Machine.execDomainSwitchOff d s
  | .domForceWrite path domains => Sys2Proof.Machine.execDomForceWrite path domains s
  | .avsAck want => Sys2Proof.Machine.execAvsAck want s
  | .avsTimeout => Sys2Proof.Machine.execAvsTimeout s
  | .avsRetry => Sys2Proof.Machine.execAvsRetry s
  | .csWake => Sys2Proof.Machine.execCsWake s
  | .alarmMatch => Sys2Proof.Machine.execAlarmMatch s
  | .vmainOkRise => Sys2Proof.Machine.execVmainOkRise s
  | .vmainTimeout => Sys2Proof.Machine.execVmainTimeout s
  | .wakeTableAction k => Sys2Proof.Machine.execWakeTableAction k s
  | .retentionCheckDone lost => Sys2Proof.Machine.execRetentionCheckDone lost s
  | .firmwareVerified a b => Sys2Proof.Machine.execFirmwareVerified a b s
  | .gafferResetRelease => Sys2Proof.Machine.execGafferResetRelease s
  | .startOk path => Sys2Proof.Machine.execStartOk path s
  | .deadline => Sys2Proof.Machine.execDeadline s
  | .clockReady k crystal => Sys2Proof.Machine.execClockReady k crystal s
  | .rclkReady offset => Sys2Proof.Machine.execRclkReady offset s
  | .clockSwitchWrite path sw => Sys2Proof.Machine.execClockSwitchWrite path sw s
  | .switchComplete sw => Sys2Proof.Machine.execSwitchComplete sw s
  | .switchForced sw => Sys2Proof.Machine.execSwitchForced sw s
  | .lrefSelect path rclkOut lref => Sys2Proof.Machine.execLrefSelect path rclkOut lref s
  | .clockLoss k => Sys2Proof.Machine.execClockLoss k s
  | .pllUnlock k => Sys2Proof.Machine.execPllUnlock k s
  | .pllRelock k => Sys2Proof.Machine.execPllRelock k s
  | .gateWrite path gates => Sys2Proof.Machine.execGateWrite path gates s
  | .pllEnWrite path loops => Sys2Proof.Machine.execPllEnWrite path loops s
  | .powerOn headcfg bootsrc testMode flash => Sys2Proof.Machine.execPowerOn headcfg bootsrc testMode flash s
  | .vaonFall => Sys2Proof.Machine.execVaonFall s
  | .mainRailLoss => Sys2Proof.Machine.execMainRailLoss s
  | .resetN => Sys2Proof.Machine.execResetN s
  | .resetNRelease => Sys2Proof.Machine.execResetNRelease s
  | .chipReset path key go => Sys2Proof.Machine.execChipReset path key go s
  | .blockReset path source go => Sys2Proof.Machine.execBlockReset path source go s
  | .blockResetEnd source => Sys2Proof.Machine.execBlockResetEnd source s
  | .faultMessage src kind cls detail w1 => Sys2Proof.Machine.execFaultMessage src kind cls detail w1 s
  | .reactResetWindow => Sys2Proof.Machine.execReactResetWindow s
  | .collectorSelf part => Sys2Proof.Machine.execCollectorSelf part s
  | .supply rail => Sys2Proof.Machine.execSupply rail s
  | .overtemp tj => Sys2Proof.Machine.execOvertemp tj s
  | .aliveToggle => Sys2Proof.Machine.execAliveToggle s
  | .watchdogKick path key => Sys2Proof.Machine.execWatchdogKick path key s
  | .watchdog => Sys2Proof.Machine.execWatchdog s
  | .lockstep pc => Sys2Proof.Machine.execLockstep pc s
  | .logClear path => Sys2Proof.Machine.execLogClear path s
  | .faultRecordRequest path => Sys2Proof.Machine.execFaultRecordRequest path s
  | .faultRecordDone failed => Sys2Proof.Machine.execFaultRecordDone failed s
  | .recNextWrite path sector => Sys2Proof.Machine.execRecNextWrite path sector s
  | .fltIrqRearm path => Sys2Proof.Machine.execFltIrqRearm path s
  | .checkerTestStart path checker count limit => Sys2Proof.Machine.execCheckerTestStart path checker count limit s
  | .checkerTest detected corr at_ w1 => Sys2Proof.Machine.execCheckerTest detected corr at_ w1 s
  | .checkerTestTimeout => Sys2Proof.Machine.execCheckerTestTimeout s
  | .mbistStart path noWait => Sys2Proof.Machine.execMbistStart path noWait s
  | .mbistStop path => Sys2Proof.Machine.execMbistStop path s
  | .mbistDone fails first => Sys2Proof.Machine.execMbistDone fails first s
  | .faultInject what => Sys2Proof.Machine.execFaultInject what s
  | .read addr clocked done ahead upsets => Sys2Proof.Machine.execRead addr clocked done ahead upsets s
  | .readCrc addr clocked done ahead upsets => Sys2Proof.Machine.execReadCrc addr clocked done ahead upsets s
  | .write bytes midByte => Sys2Proof.Machine.execWrite bytes midByte s
  | .writeCrc bytes midByte => Sys2Proof.Machine.execWriteCrc bytes midByte s
  | .status clocked => Sys2Proof.Machine.execStatus clocked s
  | .unknownCommand cmd clocked => Sys2Proof.Machine.execUnknownCommand cmd clocked s
  | .flashWindowRead addr len ok => Sys2Proof.Machine.execFlashWindowRead addr len ok s
  | .flashWindowWrite addr bytes => Sys2Proof.Machine.execFlashWindowWrite addr bytes s
  | .pageProgram => Sys2Proof.Machine.execPageProgram s
  | .fspiFlush path => Sys2Proof.Machine.execFspiFlush path s
  | .programComplete failed => Sys2Proof.Machine.execProgramComplete failed s
  | .flashTimeout => Sys2Proof.Machine.execFlashTimeout s
  | .erase path size => Sys2Proof.Machine.execErase path size s
  | .eraseSuspend => Sys2Proof.Machine.execEraseSuspend s
  | .eraseResume => Sys2Proof.Machine.execEraseResume s
  | .lifecycleAdvance path key target => Sys2Proof.Machine.execLifecycleAdvance path key target s
  | .lifecycleFuseDone verified => Sys2Proof.Machine.execLifecycleFuseDone verified s
  | .registerRead path addr size upset upsetHigh => Sys2Proof.Machine.execRegisterRead path addr size upset upsetHigh s
  | .lpiExitComplete p => Sys2Proof.Machine.execLpiExitComplete p s
  | .receiveQuiet p => Sys2Proof.Machine.execReceiveQuiet p s
  | .partnerRestart p => Sys2Proof.Machine.execPartnerRestart p s
  | .h2dSnoop h addr => Sys2Proof.Machine.execH2dSnoop h addr s
  | .launchReplyTimeout m => Sys2Proof.Machine.execLaunchReplyTimeout m s

end Sys2Proof.Machine
end

