-- ==== Sys2Proof/Machine/Tick.lean ====
section
/-!
DEFINITION. What time alone does: the nanosecond that passes while no command waits (log entry 27).
-/
namespace Sys2Proof.Machine

/-- An instant at which an event of period n ns recurs. -/
def everyNs (n : Nat) (s : State) : Bool := s.now % n == 0

/-- SLCK, at 32,768 Hz, has an edge in the nanosecond just passed. -/
def State.slckEdge (s : State) : Bool := s.power.vaon && s.clock.slck && s.now * 32768 / 1000000000 != (s.now - 1) * 32768 / 1000000000

/-- The timebase advances on every 2 ns tick while TPLL runs (R335), and AON.SECONDS follows its whole seconds (R484). -/
def timebaseTick : Prog := .read fun s =>
  when (everyNs 2 s && s.domOn domTbc && bitOf (s.f F.CLK_READY_ready) ckTpll)
    (block [updTb fun x => x.tick s.tbRate,
      .read fun t => when (t.tb.sec != s.tb.sec) (setWide R.AON_SECONDS 2 t.tb.sec)])

/-- An SLCK edge: applied WAKE fields come into force (R109), the always-on copies are refreshed (R67), and with TBC off
32,768 ticks make a second (R484). -/
def slckTick : Prog := .read fun s =>
  when s.slckEdge
    (block [wakeLand,
      when (!s.domOn domTbc && decide (s.now * 32768 / 1000000000 % 32768 = 0)) (addWide R.AON_SECONDS 2 1),
      .act .acRefresh])

/-- A codeword of 102.4 ns begins (R161). -/
def State.codewordEdge (s : State) : Bool := s.now * 10 / 1024 != (s.now - 1) * 10 / 1024

/-- A lane's codeword count runs from its switch to PAM6 on, through electrical idle (R192). At every 8,192nd codeword a member of a
cane sends its marker, unless it is silent in LPI (R185, R315). -/
def codewordTick : Prog := .read fun s =>
  when s.codewordEdge (each (List.range 8) fun p =>
    when (s.pmode p == 7 && (s.linkUp p || (s.pst p == stTrain && (s.port p).pam6)))
      (block [updPort p fun x => { x with cw := (x.cw + 1) % 8192 },
        when ((s.port p).cw == 8191 && (s.port p).loop == 0 && !s.bit (F.PORT_LPI_STAT_tx_lpi p))
          (ifSome (s.caneOf p) fun kj => sendMarker kj.1 kj.2 false)]))

/-- Training frames leave every 150 µs (R170). -/
def trainingTick : Prog := .read fun s =>
  when (everyNs 150000 s) (each ((List.range 8).filter s.sendsTraining) sendTraining)

/-- At a 1 µs boundary of the timebase the sections of a port stop adapting that its freeze bits name (R206). -/
def freezeTick (before : TbX) : Prog := .read fun s =>
  when (before.ns / 1000 != s.tb.ns / 1000 || before.sec != s.tb.sec)
    (each (List.range 56) fun p => .read fun t => let m := (t.reg (R.FUR_ADAPT p)).toNat % 16
      when ((t.port p).frozen != m) (updPort p fun x => { x with frozen := m }))

/-- The gates of segments release frames (R255), and refreshes end. -/
def portTick : Prog := .read fun s => block [each (List.range 8) fun i => gateRelease (56 + i),
  each ((s.ports.filter fun e => e.2.refreshUntil != 0).map (·.1)) refreshEnd]

/-- LPI_TIME counts the microseconds that a port spends in LPI. -/
def lpiTick : Prog := .read fun s =>
  when (everyNs 1000 s) (each allPorts fun p => when (s.pst p == stLpi) (addWide (R.PORT_LPI_TIME p) 2 1))

/-- One nanosecond: the timebase, SLCK, codewords and training frames, the gates of segments, the slew of RLOOP (R505), the bundles held in DISAGREE for one edge (R234), LPI_TIME. -/
def tick : Prog := .read fun before => block [timebaseTick, freezeTick before.tb, slckTick, codewordTick, trainingTick, portTick,
  .read fun s => when (everyNs 5000 s) rloopSlew,
  .read fun s => each (s.bnds.map (·.1)) bundleEdge, lpiTick]

end Sys2Proof.Machine
end

