-- ==== Sys2Proof/Safety.lean ====
section
/-!
DEFINITION. What holds of every state that the block can be in, in the terms that claims use.
-/
namespace Sys2Proof.Machine

/-- No two bookings of the ledger clash (R285). -/
def exclusive : List Booking → Bool
  | [] => true
  | b :: t => t.all (fun c => !b.clashes c) && exclusive t

/-- The ledger holds at most 32 bookings, no two of which clash, and at most 8 requests (R285 to R289). -/
def LedgerX.ok (l : LedgerX) : Bool :=
  exclusive l.books && decide (l.books.length ≤ 32) && decide (l.queue.length ≤ 8)

/-- A register store is in canonical form: offsets rise, and no word stands at its reset value. -/
def regsOk (m : SMap Word) : Bool := m.sorted && m.all fun e => decide (e.2 ≠ resetWord e.1)

/-- The three memories are in canonical form. -/
def State.memoryOk (s : State) : Bool := s.flash.wf erased && s.sram.wf blank && s.cellar.wf blank

/-- At most four always-on writes wait (R68). -/
def State.queueOk (s : State) : Bool := decide (s.acQueue.length ≤ 4)

/-- Every collection that the state keeps by index has its keys rising. -/
def State.mapsOk (s : State) : Bool :=
  s.staged.sorted && s.undo.sorted && s.tv.sorted && s.snaps.sorted && s.held.sorted && s.sqWin.sorted && s.acCopy.sorted &&
  s.ports.sorted && s.canes.sorted && s.bnds.sorted && s.heads.sorted && s.rings.sorted && s.chans.sorted

/-- The invariant of the block: the ledger, the always-on queue, the memories, the register store, the collections. -/
def State.ok (s : State) : Bool := s.ledger.ok && s.queueOk && s.memoryOk && regsOk s.regs && s.mapsOk

/-! The registers that a change may touch. -/

/-- Every register table of the space, in the order of `RegId`. -/
def allRows : List RegRow :=
  rowsGlb ++ rowsPwr ++ rowsClk ++ rowsRst ++ rowsFlt ++ rowsTb ++ rowsLch ++ rowsMld ++ rowsFur ++ rowsCal ++ rowsDiag ++ rowsMdma ++
  rowsFspi ++ rowsHspi ++ rowsCel ++ rowsPkt ++ rowsHead ++ rowsBnd ++ rowsCane ++ rowsWake ++ rowsAon ++ rowsPort ++ rowsQp

/-- An offset is that of a word of a register of a table. -/
def RegRow.has (r : RegRow) (off : Nat) : Bool :=
  decide (r.base ≤ off) && (locate r.dims r.words.length (off - r.base)).isSome

/-- Every register word outside the tables named is as before; the words of the block headers are outside every table. -/
def OnlyRegs (ids : List RegId) (s u : State) : Prop :=
  ∀ off, off < outside → (∀ r ∈ allRows, r.id ∈ ids → r.has off = false) → u.reg off = s.reg off

/-- Every register word but those at the offsets named is as before. -/
def OnlyWords (offs : List Nat) (s u : State) : Prop := ∀ off, off ∉ offs → u.reg off = s.reg off

/-- Every register word is as before but those at the offsets named and those of the tables named. -/
def OnlyIn (offs : List Nat) (ids : List RegId) (s u : State) : Prop :=
  ∀ off, off < outside → off ∉ offs → (∀ r ∈ allRows, r.id ∈ ids → r.has off = false) → u.reg off = s.reg off

/-- No register in the block of another port changes. -/
def OnlyPort (p : Nat) (s u : State) : Prop :=
  ∀ off, 0x1000000 ≤ off → off < 0x1400000 → off / 0x10000 ≠ 0x100 + p → u.reg off = s.reg off

/-- The parts of the state beside the register words: the staged words and undo shadows, split votes, held words of wide
values, event windows, the always-on queue and copies, ports, canes, bundles, furnace, ledger, mould loader, timebase,
calibration, diagnostics, the three memories, OTP, open commits, heads, rings, DMA channels, cellar fills, flash port, power
controller, clock tree, collector, pins, the frame interface's status, messages not yet taken, what was sent, free values
drawn. -/
inductive Part where
  | shadows | votes | wide | windows | aonQueue | ports | canes | bundles | furnace | ledger | mould | timebase
  | calibration | diagnostics | flash | sram | cellar | otp | commits | heads | rings | channels | fills | flashPort
  | power | clocks | collector | pins | frames | messages | sent | draws
deriving DecidableEq, Repr

/-- A part of the state is as before; a memory, byte by byte; a word written ends the split of its copies. -/
def Part.same (q : Part) (s u : State) : Prop :=
  match q with
  | .shadows => u.staged = s.staged ∧ u.undo = s.undo ∧ u.undoBlocks = s.undoBlocks
  | .votes => ∀ off, u.tv.get? off = s.tv.get? off ∨ u.tv.get? off = none
  | .wide => u.snaps = s.snaps ∧ u.held = s.held
  | .windows => u.sqWin = s.sqWin
  | .aonQueue => u.acQueue = s.acQueue ∧ u.acCopy = s.acCopy
  | .ports => u.ports = s.ports
  | .canes => u.canes = s.canes
  | .bundles => u.bnds = s.bnds
  | .furnace => u.fur = s.fur
  | .ledger => u.ledger = s.ledger
  | .mould => u.mld = s.mld
  | .timebase => u.tb = s.tb
  | .calibration => u.cal = s.cal
  | .diagnostics => u.diag = s.diag
  | .flash => ∀ a, u.flash.get erased a = s.flash.get erased a
  | .sram => ∀ a, u.sram.get blank a = s.sram.get blank a
  | .cellar => ∀ a, u.cellar.get blank a = s.cellar.get blank a
  | .otp => u.otp = s.otp
  | .commits => u.commit = s.commit
  | .heads => u.heads = s.heads
  | .rings => u.rings = s.rings
  | .channels => u.chans = s.chans
  | .fills => u.filled = s.filled
  | .flashPort => u.fport = s.fport
  | .power => u.power = s.power
  | .clocks => u.clock = s.clock
  | .collector => u.fault = s.fault
  | .pins => u.pins = s.pins
  | .frames => u.spiRejected = s.spiRejected
  | .messages => u.intake = s.intake
  | .sent => u.out = s.out
  | .draws => u.free = s.free

/-- The queue and the time are as before, and so is every part of the state but those named. -/
def Keeps (parts : List Part) (s u : State) : Prop :=
  u.pending = s.pending ∧ u.now = s.now ∧ ∀ q, q ∉ parts → q.same s u

/-- What a change leaves as it was: every register outside the tables named, every part of the state but those named. -/
def Frame (ids : List RegId) (parts : List Part) (s u : State) : Prop := OnlyRegs ids s u ∧ Keeps parts s u

/-- Register tables. A link that ends and what ends with it: the port, its cane, its bundle, its anneal, the timebase. -/
def linkTables : List RegId :=
  [.TB_STAT, .TB_EVENT, .CAL_PORT_STAT, .CAL_PORT_QUAL, .BND_STAT, .BND_EVENT, .BND_PAIR_STAT, .CANE_STAT, .CANE_SKEW_A, .CANE_SKEW_B, .CANE_EVENT,
   .PORT_STATE, .PORT_PARTNER_ABIL, .PORT_PARTNER_FLAGS, .PORT_PARTNER_ID, .PORT_LINK_QUAL, .PORT_MSE_REF, .PORT_DROP_COUNT, .PORT_DROP_HIST_IDX,
   .PORT_DROP_HIST, .PORT_EVENT, .PORT_X50_STAT, .PORT_AM_STAT, .PORT_LOOP_STAT, .PORT_SEG_STAT, .PORT_LPI_STAT, .PORT_TC10_STAT]

/-- The parts of the state that go with them. -/
def linkParts : List Part :=
  [.windows, .ports, .canes, .bundles, .furnace, .ledger, .timebase, .calibration, .messages, .sent]

/-- Register tables. The rings, and the oversize and gate counters of the port that sends. -/
def ringTables : List RegId :=
  [.LCH_GCL_STAT, .HEAD_REQ_STAT, .HEAD_ATC_STAT, .PORT_TX_OVERSIZE, .PORT_LPI_STAT, .QP_RX_HEAD_IDX, .QP_RX_STAT, .QP_RX_STATE, .QP_RX_FRAMES,
   .QP_RX_DROPS, .QP_RX_BAD, .QP_TX_HEAD_IDX, .QP_TX_STAT, .QP_TX_STATE, .QP_TX_FRAMES, .QP_TX_DROPS, .QP_TX_BAD, .QP_EVENT]

/-- The parts of the state that go with them. -/
def ringParts : List Part :=
  [.windows, .ports, .heads, .rings, .messages, .sent]

/-- Register tables. A head that leaves: its links, rings, channels and mailbox, and the launch groups. -/
def detachTables : List RegId :=
  [.GLB_MODE, .GLB_EVENT, .PWR_VOTES, .FLT_IRQ_REARM, .TB_STAT, .TB_EVENT, .LCH_LG_STAT, .LCH_EVENT, .CAL_PORT_STAT, .CAL_PORT_QUAL, .MCH_CUR,
   .MCH_STAT, .MCH_REMAIN, .MCH_DONE, .MCH_BYTES, .MCH_IRQ_COUNT, .MCH_CMP_OFS, .MCH_LAST_BAD, .MCH_EVENT, .HSPI_KEVENT, .HSPI_MBX_STAT,
   .HSPI_MBX_RSP, .HEAD_STAT, .HEAD_REQ_STAT, .HEAD_EVENT, .HEAD_MBX_STAT, .HEAD_MBX_RSP, .BND_STAT, .BND_EVENT, .BND_PAIR_STAT, .CANE_STAT,
   .CANE_SKEW_A, .CANE_SKEW_B, .CANE_EVENT, .WAKE_PENDING, .PORT_CTL, .PORT_STATE, .PORT_PARTNER_ABIL, .PORT_PARTNER_FLAGS, .PORT_PARTNER_ID,
   .PORT_LINK_QUAL, .PORT_MSE_REF, .PORT_DROP_COUNT, .PORT_DROP_HIST_IDX, .PORT_DROP_HIST, .PORT_EVENT, .PORT_X50_STAT, .PORT_AM_STAT,
   .PORT_LOOP_STAT, .PORT_SEG_STAT, .PORT_LPI_STAT, .PORT_TC10_STAT, .QP_RX_BASE, .QP_RX_CFG, .QP_RX_CTL, .QP_RX_HEAD_IDX, .QP_RX_ACK, .QP_RX_MOD,
   .QP_RX_STAT, .QP_RX_STATE, .QP_RX_FRAMES, .QP_RX_DROPS, .QP_RX_BAD, .QP_TX_BASE, .QP_TX_CFG, .QP_TX_CTL, .QP_TX_HEAD_IDX, .QP_TX_ACK, .QP_TX_MOD,
   .QP_TX_STAT, .QP_TX_STATE, .QP_TX_FRAMES, .QP_TX_DROPS, .QP_TX_BAD, .QP_EVENT, .QP_EVENT_MASK]

/-- The parts of the state that go with them. -/
def detachParts : List Part :=
  [.shadows, .windows, .ports, .canes, .bundles, .furnace, .ledger, .timebase, .calibration, .flash, .sram, .cellar, .heads, .rings, .channels,
   .messages, .sent]

/-- Register tables. The entry to SAFE: links, rings and channels stop. -/
def safeTables : List RegId :=
  [.GLB_MODE, .PWR_AVS_STAT, .FLT_STAT, .TB_STAT, .TB_EVENT, .LCH_LG_STAT, .CAL_EVENT, .CAL_PORT_STAT, .CAL_PORT_QUAL, .MCH_CTL, .MCH_CUR, .MCH_STAT,
   .MCH_HOPS, .MCH_REMAIN, .MCH_DONE, .MCH_BYTES, .HSPI_KEVENT, .HEAD_REQ_STAT, .BND_STAT, .BND_EVENT, .BND_PAIR_STAT, .CANE_STAT, .CANE_SKEW_A,
   .CANE_SKEW_B, .CANE_EVENT, .WAKE_PENDING, .AON_MODE, .AON_SAFE_STAT, .PORT_CTL, .PORT_STATE, .PORT_PARTNER_ABIL, .PORT_PARTNER_FLAGS,
   .PORT_PARTNER_ID, .PORT_LINK_QUAL, .PORT_MSE_REF, .PORT_DROP_COUNT, .PORT_DROP_HIST_IDX, .PORT_DROP_HIST, .PORT_EVENT, .PORT_X50_STAT,
   .PORT_AM_STAT, .PORT_LOOP_STAT, .PORT_SEG_STAT, .PORT_LPI_STAT, .PORT_TC10_STAT, .QP_RX_BASE, .QP_RX_CFG, .QP_RX_CTL, .QP_RX_HEAD_IDX, .QP_RX_ACK,
   .QP_RX_MOD, .QP_RX_STAT, .QP_RX_STATE, .QP_RX_FRAMES, .QP_RX_DROPS, .QP_RX_BAD, .QP_TX_BASE, .QP_TX_CFG, .QP_TX_CTL, .QP_TX_HEAD_IDX, .QP_TX_ACK,
   .QP_TX_MOD, .QP_TX_STAT, .QP_TX_STATE, .QP_TX_FRAMES, .QP_TX_DROPS, .QP_TX_BAD, .QP_EVENT, .QP_EVENT_MASK]

/-- The parts of the state that go with them. -/
def safeParts : List Part :=
  [.shadows, .windows, .ports, .canes, .bundles, .furnace, .ledger, .timebase, .calibration, .flash, .sram, .cellar, .rings, .channels, .power,
   .collector, .messages, .sent, .draws]

/-- Every register word of a range reads its reset value but those that are kept. -/
def AtReset (lo hi : Nat) (keep : Nat → Bool) (u : State) : Prop := ∀ off, lo ≤ off → off < hi → keep off = false → u.reg off = resetWord off

/-- Every register word of a range but those named is as before. -/
def SameRegs (lo hi : Nat) (but : List Nat) (s u : State) : Prop := ∀ off, lo ≤ off → off < hi → off ∉ but → u.reg off = s.reg off

/-- Every byte of a memory outside a range reads as before; d is what an unlisted byte reads as. -/
def SameOutside (d : Byte) (lo n : Nat) (m w : Memory) : Prop := ∀ a, a < lo ∨ lo + n ≤ a → w.get d a = m.get d a

/-- Every byte of a memory outside the ranges named (first byte, length) reads as before. -/
def SameBut (d : Byte) (rs : List (Nat × Nat)) (m w : Memory) : Prop :=
  ∀ a, (∀ r ∈ rs, a < r.1 ∨ r.1 + r.2 ≤ a) → w.get d a = m.get d a

/-- Every byte of a range of the flash is erased. -/
def Erased (lo n : Nat) (m : Memory) : Prop := ∀ a, lo ≤ a → a < lo + n → m.get erased a = erased

/-- A command answers a next state: u is the state by the command's own effect, and the next state is u with what follows
on the same edge. -/
def Acts (c : Instr) (s : State) (Q : State → Prop) : Prop := ∃ u, exec c s = .next (aftermath u) ∧ Q u

/-- A bit of an event register is set. -/
def State.raised (s : State) (off bit : Nat) : Bool := bitOf (s.reg off).toNat bit

/-- A message has been raised on the way from s to u. -/
def Raised (m : Msg) (s u : State) : Prop := ∃ l, u.intake = s.intake ++ l ∧ m ∈ l

/-- Something has left the block on the way from s to u. -/
def Sent (o : Out) (s u : State) : Prop := ∃ l, u.out = s.out ++ l ∧ o ∈ l

/-- The checks of R46 let a path's write of a register through. -/
abbrev Granted (path : Path) (off : Nat) (s : State) : Prop := s.judge (pathCode path) off true = .granted

/-! Accesses to the register space. -/

/-- The word that a path's read of an offset finds once the checks let it through, where no copy of it has flipped (R74). -/
def State.found (s : State) (path off : Nat) : Word :=
  match tableReg (plainOff off) with
  | none => s.wordAt path off
  | some l => if isWide l && l.word != 0 then s.snaps.getD (snapKey path off) 0 else s.wordAt path off

/-- A write that the checks let through only stores its word: no SQ register, no control, no bound, no word of a wide value,
no state that refuses it. -/
def State.plain (s : State) (path off : Nat) (w : Word) : Bool :=
  match tableReg (plainOff off) with
  | none => false
  | some l => !(l.fields.any fun f => decide (f.acc = .sq)) && (s.closed path off l).isNone && !isWide l &&
    (isShadow off || (control path off l w).isNone) && s.storedAs path l w == w

/-- What a plain write leaves in the fields of its word: RW fields hold the data, the shadows of WS fields hold it, every
other field is as before; in the shadow view there are WS fields only (R50, R52, R54, R55). -/
abbrev Written (off : Nat) (w : Word) (s u : State) : Prop :=
  ∀ f ∈ fieldsAt (plainOff off),
    bits (u.reg (plainOff off)) f.hi f.lo = bits (if f.acc = .rw ∧ isShadow off = false then w else s.reg (plainOff off)) f.hi f.lo ∧
    (f.acc = .ws → bits (u.stagedWord (plainOff off)) f.hi f.lo = bits w f.hi f.lo)

/-- What the write of the highest word of a wide value leaves: that word, and every lower word that was held, as plain writes
of their own (R75). -/
abbrev WrittenWide (off : Nat) (w : Word) (s u : State) : Prop :=
  ∀ l ∈ (tableReg (plainOff off)).toList, Written off w s u ∧
    ∀ e ∈ s.held, off - 4 * l.word ≤ e.1 → e.1 < off → e.1 % 4 = 0 → Written e.1 e.2 s u

/-- The state once a write frame has ended and its status stands, before its words are written (R563, R565). -/
def State.received (s : State) (cmd : Byte) (crc : Bool) (bytes : List Byte) (midByte : Bool) : State :=
  aftermath (run (writeEnds cmd crc bytes midByte) s)

/-! Mould images. -/

/-- The bytes that the load under way reads: a slot, a Gaffer bank or host memory (R95, R97). -/
def State.loadBytes (s : State) (host : List Byte) : List Byte :=
  match s.mld.load with
  | none => []
  | some (kind, addr, _) => if kind < 2 then s.flashImage (slotBase kind) else if kind = 2 then s.bankImage addr
      else readImage fun o n => (host.drop o).take n

/-- The bytes of the partial image under check (R105). -/
def State.partialBytes (s : State) : List Byte :=
  if s.mld.partialSrc.1 = 0 then s.flashImage (s.mld.partialSrc.2 % 2 ^ 32) else s.bankImage s.mld.partialSrc.2

/-- The first check of R101 that a full image fails. -/
def State.fullFault (s : State) (readOk : Bool) (l : List Byte) : Option BadMould :=
  if !readOk then some ⟨1, 0, 0⟩ else
    match checkImage false (s.f F.GLB_STRAPS_headcfg) [] s.otp.keys l with
    | .error b => some b
    | .ok secs => checkMould (s.f F.GLB_STRAPS_headcfg) (holdSections secs)

/-- The first check of R101 and R106 that a partial image fails. -/
def State.partialFault (s : State) (readOk : Bool) (l : List Byte) : Option BadMould :=
  if !readOk then some ⟨1, 0, 0⟩ else
    match checkImage true (s.f F.GLB_STRAPS_headcfg) s.mld.active s.otp.keys l with
    | .error b => some b
    | .ok secs => orBad (liveFault s l (holdSections secs))
        (checkMould (s.f F.GLB_STRAPS_headcfg) (mergeMould s.mld.active (holdSections secs)))

/-- The sections of an image, by type. -/
def sectionsOf (l : List Byte) : SMap (List Byte) := holdSections ((imgSecs l).getD [])

/-- A run is safe while no step stops. -/
def State.safeStep (s : State) : Bool :=
  match step s with
  | .next _ => true
  | _ => false

end Sys2Proof.Machine
end

