-- ==== Sys2Proof/Certificates/Slice0/Obligations.lean ====
section
/-!
DEFINITION. The statements for the provers. Acts c s Q says that the command completes: u is the state by the
command's own effect, the answer is the aftermath of u. Every clause ends in its frame: what is not named is as before.
-/
open Sys2Proof Sys2Proof.Machine

/-- Administrative writes, restarts and resets move a port and leave the rest alone (R132, R159, R141, R129,
chapter 4). -/
def Obligations.PortAdminAndResets : Prop :=
  -- A granted write of CTL.admin: 0 gives DISABLED; 1 takes DISABLED to SLEEP; 2 or 3 takes DISABLED to LISTEN,
  -- but to SLEEP under the orphan policy SLEEP; a transmit enable outside the mask stores 0, disables the port and
  -- raises GOVERNOR_CLAMP.
  (∀ (path : Path) (p : Port) (admin : BitVec 2) (s : State),
    s.ok = true → Granted path (R.PORT_CTL p) s →
    Acts (.portAdminWrite path p admin) s fun u =>
      (admin.toNat = 0 → u.pst p = stDisabled ∧ u.f (F.PORT_CTL_admin p) = 0) ∧
      (admin.toNat = 1 → s.portEnabled p = true → s.pst p = stDisabled → u.pst p = stSleep ∧ u.f (F.PORT_CTL_admin p) = 1) ∧
      (2 ≤ admin.toNat → bitOf (s.wide R.MLD_GOV_TXEN 2) p = true → s.portEnabled p = true → s.pst p = stDisabled → (s.port p).resetting = false → u.pst p = (if s.heldByOrphan p then stSleep else stListen) ∧ (s.heldByOrphan p = false → u.f (F.PORT_CTL_admin p) = admin.toNat)) ∧
      (2 ≤ admin.toNat → bitOf (s.wide R.MLD_GOV_TXEN 2) p = false → u.pst p = stDisabled ∧ Raised ⟨0x40 + p, kGovernorClamp, 2, 1, p⟩ s u) ∧
      Frame [.TB_STAT, .TB_EVENT, .CAL_EVENT, .CAL_PORT_STAT, .CAL_PORT_QUAL, .BND_STAT, .BND_EVENT, .BND_PAIR_STAT, .CANE_STAT, .CANE_EVENT, .WAKE_PENDING, .PORT_CTL, .PORT_STATE, .PORT_PARTNER_ABIL, .PORT_PARTNER_FLAGS, .PORT_PARTNER_ID, .PORT_PARTNER_REF_ABIL, .PORT_PARTNER_REF_FLAGS, .PORT_PARTNER_REF_ID, .PORT_LINK_QUAL, .PORT_MSE_REF, .PORT_DROP_COUNT, .PORT_DROP_HIST_IDX, .PORT_DROP_HIST, .PORT_EVENT, .PORT_X50_STAT, .PORT_AM_STAT, .PORT_LOOP_STAT, .PORT_LOOP_BITS, .PORT_LOOP_ERRS, .PORT_SEG_STAT, .PORT_LPI_STAT, .PORT_TC10_STAT] (linkParts ++ [.power, .draws]) s u ∧ (s.caneOf p = none → OnlyPort p s u)) ∧
  -- PORT_RESTART clears STATE.excluded; an up link drops with cause RESTART and NEGOTIATE or TRAIN end, both in
  -- LISTEN.
  (∀ (path : Path) (p : Port) (s : State),
    s.ok = true → Granted path (R.PORT_CTL p) s → (s.port p).localSleep = false → (s.port p).partnerSleep = false →
    Acts (.portRestart path p) s fun u =>
      u.f (F.PORT_STATE_excluded p) = 0 ∧
      (s.linkUp p = true → s.caneOf p = none → u.pst p = stListen ∧ Raised ⟨0x40 + p, kLinkDrop, 0, 7, p⟩ s u) ∧
      (s.pst p = stNegotiate ∨ s.pst p = stTrain → u.pst p = stListen) ∧
      Frame [.TB_STAT, .TB_EVENT, .CAL_PORT_STAT, .CAL_PORT_QUAL, .BND_STAT, .BND_EVENT, .BND_PAIR_STAT, .CANE_STAT, .CANE_EVENT, .WAKE_PENDING, .PORT_CTL, .PORT_STATE, .PORT_PARTNER_ABIL, .PORT_PARTNER_FLAGS, .PORT_PARTNER_ID, .PORT_LINK_QUAL, .PORT_MSE_REF, .PORT_DROP_COUNT, .PORT_DROP_HIST_IDX, .PORT_DROP_HIST, .PORT_EVENT, .PORT_X50_STAT, .PORT_AM_STAT, .PORT_LOOP_STAT, .PORT_SEG_STAT, .PORT_LPI_STAT, .PORT_TC10_STAT] (linkParts ++ [.draws]) s u ∧ (s.caneOf p = none → OnlyPort p s u)) ∧
  -- PORT_RESET holds the port in FAULT (a DISABLED one stays) with its counters, fail_count and partner record
  -- cleared.
  (∀ (path : Path) (p : Port) (s : State),
    s.ok = true → Granted path (R.PORT_CTL p) s → (s.port p).resetting = false →
    Acts (.portReset path p) s fun u =>
      u.f (F.PORT_CTL_reset p) = 1 ∧
      (u.port p).resetting = true ∧
      u.f (F.PORT_STATE_fail_count p) = 0 ∧
      u.wide (R.PORT_RX_FRAMES p) 2 = 0 ∧
      u.wide (R.PORT_TX_BYTES p) 2 = 0 ∧
      (s.caneOf p = none → u.pst p = if s.pst p = stDisabled then stDisabled else stFault) ∧
      Frame [.TB_STAT, .TB_EVENT, .CAL_EVENT, .CAL_PORT_STAT, .CAL_PORT_QUAL, .BND_STAT, .BND_EVENT, .BND_PAIR_STAT, .CANE_STAT, .CANE_EVENT, .WAKE_PENDING, .PORT_CTL, .PORT_STATE, .PORT_MODE_CFG, .PORT_ADV, .PORT_PARTNER_ABIL, .PORT_PARTNER_FLAGS, .PORT_PARTNER_ID, .PORT_LINK_QUAL, .PORT_MSE_REF, .PORT_FEC_CORR, .PORT_FEC_UNCORR, .PORT_DROP_COUNT, .PORT_DROP_HIST_IDX, .PORT_DROP_HIST, .PORT_EVENT, .PORT_RX_FRAMES, .PORT_RX_BYTES, .PORT_RX_FCS_ERR, .PORT_RX_RUNT, .PORT_RX_OVERSIZE, .PORT_RX_ORPHAN_DROP, .PORT_RX_PAUSE, .PORT_TX_FRAMES, .PORT_TX_BYTES, .PORT_TX_OVERSIZE, .PORT_X50_STAT, .PORT_AM_STAT, .PORT_LOOP_STAT, .PORT_LOOP_BITS, .PORT_LOOP_ERRS, .PORT_SEG_STAT, .PORT_SEG_CYCLE, .PORT_SEG_COLL, .PORT_SEG_LATE, .PORT_SEG_EXCESS, .PORT_SEG_CENSUS, .PORT_LPI_STAT, .PORT_LPI_ENTRIES, .PORT_LPI_TIME, .PORT_TC10_STAT] (linkParts ++ [.shadows, .draws]) s u ∧ (s.caneOf p = none → OnlyPort p s u)) ∧
  -- PORT_RESET_END ends the reset; the port moves from FAULT as CTL.admin names.
  (∀ (p : Port) (s : State),
    s.ok = true → (s.port p).resetting = true → (s.port p).flapHold = false → s.pst p = stFault → s.f F.FLT_STAT_safe = 0 →
    s.commit.pend.get? p = none →
    Acts (.portResetEnd p) s fun u =>
      (u.port p).resetting = false ∧
      u.f (F.PORT_CTL_reset p) = 0 ∧
      (s.f (F.PORT_CTL_admin p) = 0 → u.pst p = stDisabled) ∧
      (s.f (F.PORT_CTL_admin p) = 1 → u.pst p = stSleep) ∧
      (2 ≤ s.f (F.PORT_CTL_admin p) → u.pst p = if s.heldByOrphan p then stSleep else stListen) ∧
      Keeps (linkParts ++ [.shadows, .commits, .power, .draws]) s u) ∧
  -- FLAP_HOLD_EXPIRE moves the port from FAULT as CTL.admin names.
  (∀ (p : Port) (s : State),
    s.ok = true → (s.port p).flapHold = true → (s.port p).resetting = false → s.f (F.PORT_TIMERS_flap_hold_s p) ≠ 0 → s.pst p = stFault →
    Acts (.flapHoldExpire p) s fun u =>
      (u.port p).flapHold = false ∧
      (s.f (F.PORT_CTL_admin p) = 0 → u.pst p = stDisabled) ∧
      (s.f (F.PORT_CTL_admin p) = 1 → u.pst p = stSleep) ∧
      (2 ≤ s.f (F.PORT_CTL_admin p) → u.pst p = if s.heldByOrphan p then stSleep else stListen) ∧
      Frame [.TB_STAT, .TB_EVENT, .CAL_PORT_STAT, .CAL_PORT_QUAL, .BND_STAT, .BND_EVENT, .BND_PAIR_STAT, .CANE_STAT, .CANE_EVENT, .WAKE_PENDING, .PORT_CTL, .PORT_STATE, .PORT_PARTNER_ABIL, .PORT_PARTNER_FLAGS, .PORT_PARTNER_ID, .PORT_LINK_QUAL, .PORT_MSE_REF, .PORT_DROP_COUNT, .PORT_DROP_HIST_IDX, .PORT_DROP_HIST, .PORT_EVENT, .PORT_X50_STAT, .PORT_AM_STAT, .PORT_LOOP_STAT, .PORT_SEG_STAT, .PORT_LPI_STAT, .PORT_TC10_STAT] (linkParts ++ [.draws]) s u ∧ (s.caneOf p = none → OnlyPort p s u))

/-- Waits, pages, timeouts and restarts of a negotiation or a training (R132, R137, R125, R144, R122, R129, R139). -/
def Obligations.NegotiationMovesPort : Prop :=
  -- LISTEN_WAIT_END of a port with auto-negotiation and a mode to offer: NEGOTIATE, the base page is sent.
  (∀ (p : Port) (s : State),
    s.ok = true → portClass p ≠ .segment → s.portPowered p = true → (s.port p).returned = false → s.pst p = stListen →
    (s.port p).wait.isSome = true → s.heldByLedger p = false → (s.port p).stage = false → s.lineClock p = true →
    s.f (F.PORT_MODE_CFG_an_en p) = 1 → s.offeredFit p ≠ 0 →
    Acts (.listenWaitEnd p) s fun u =>
      u.pst p = stNegotiate ∧
      (u.port p).wait = none ∧
      Sent (.line p "base_page" (s.offeredFit p % 128 + 2 ^ 8 * s.f (F.PORT_MODE_CFG_role p) + 2 ^ 10 * s.f (F.PORT_LPI_CFG_eee_adv p))) s u ∧
      Frame [.TB_STAT, .TB_EVENT, .MLD_GOV_CLAMP_COUNT, .CAL_PORT_STAT, .CAL_PORT_QUAL, .BND_STAT, .BND_EVENT, .BND_PAIR_STAT, .CANE_STAT, .CANE_EVENT, .WAKE_PENDING, .WAKE_EVENT, .WAKE_PCOUNT, .PORT_CTL, .PORT_STATE, .PORT_PARTNER_ABIL, .PORT_PARTNER_FLAGS, .PORT_PARTNER_ID, .PORT_LINK_QUAL, .PORT_MSE_REF, .PORT_DROP_COUNT, .PORT_DROP_HIST_IDX, .PORT_DROP_HIST, .PORT_EVENT, .PORT_TAP_STAT, .PORT_X50_STAT, .PORT_AM_STAT, .PORT_LOOP_STAT, .PORT_SEG_STAT, .PORT_LPI_STAT, .PORT_TC10_STAT] (linkParts ++ [.draws]) s u ∧ (s.caneOf p = none → OnlyPort p s u)) ∧
  -- AN_PAGE_RECEIVED, not the last page, fills the partner record: base page, message answer, identifier.
  (∀ (p : Port) (page : AnPage) (last : Bool) (seedMaster : Bool) (s : State),
    s.ok = true → s.pst p = stNegotiate → last = false →
    Acts (.anPageReceived p page last seedMaster) s fun u =>
      ((match page with | .base modes role eee => decide (u.reg (R.PORT_PARTNER_ABIL p) = BitVec.ofNat 32 (modes.toNat / 2 * 2 % 128 + 2 ^ 8 * role.toNat + 2 ^ 10) ∧ u.f (F.PORT_PARTNER_FLAGS_valid p) = 1 ∧ (u.port p).partnerEee = eee) | .ident id => !s.bit (F.PORT_PARTNER_ABIL_vendor_page p) || decide (u.wide (R.PORT_PARTNER_ID p) 2 = id.toNat ∧ u.f (F.PORT_PARTNER_FLAGS_id_valid p) = 1) | .vendor => u.bit (F.PORT_PARTNER_ABIL_vendor_page p) | _ => true) = true) ∧
      Frame [.TB_STAT, .TB_EVENT, .CAL_PORT_STAT, .CAL_PORT_QUAL, .BND_STAT, .BND_EVENT, .BND_PAIR_STAT, .CANE_STAT, .CANE_EVENT, .WAKE_PENDING, .PORT_CTL, .PORT_STATE, .PORT_PARTNER_ABIL, .PORT_PARTNER_FLAGS, .PORT_PARTNER_ID, .PORT_LINK_QUAL, .PORT_MSE_REF, .PORT_DROP_COUNT, .PORT_DROP_HIST_IDX, .PORT_DROP_HIST, .PORT_EVENT, .PORT_TAP_STAT, .PORT_X50_STAT, .PORT_AM_STAT, .PORT_TRK_EVENT, .PORT_LOOP_STAT, .PORT_SEG_STAT, .PORT_LPI_STAT, .PORT_TC10_STAT] (linkParts ++ [.draws]) s u ∧ (s.caneOf p = none → OnlyPort p s u)) ∧
  -- AN_TIMEOUT: LISTEN with the hold-off, fail_count + 1, an_fail.
  (∀ (p : Port) (s : State),
    s.ok = true → s.pst p = stNegotiate →
    Acts (.anTimeout p) s fun u =>
      u.pst p = stListen ∧
      u.f (F.PORT_STATE_fail_count p) = min (s.f (F.PORT_STATE_fail_count p) + 1) 255 ∧
      u.raised (R.PORT_EVENT p) 5 = true ∧
      (u.port p).wait = some true ∧
      Frame [.TB_STAT, .TB_EVENT, .CAL_PORT_STAT, .CAL_PORT_QUAL, .BND_STAT, .BND_EVENT, .BND_PAIR_STAT, .CANE_STAT, .CANE_EVENT, .WAKE_PENDING, .PORT_CTL, .PORT_STATE, .PORT_PARTNER_ABIL, .PORT_PARTNER_FLAGS, .PORT_PARTNER_ID, .PORT_LINK_QUAL, .PORT_MSE_REF, .PORT_DROP_COUNT, .PORT_DROP_HIST_IDX, .PORT_DROP_HIST, .PORT_EVENT, .PORT_X50_STAT, .PORT_AM_STAT, .PORT_LOOP_STAT, .PORT_SEG_STAT, .PORT_LPI_STAT, .PORT_TC10_STAT] (linkParts ++ [.draws]) s u ∧ (s.caneOf p = none → OnlyPort p s u)) ∧
  -- TRAIN_TIMEOUT: LISTEN, fail_count + 1, train_fail; with train_fail_limit not 0 the failures of the mode + 1.
  (∀ (p : Port) (s : State),
    s.ok = true → s.pst p = stTrain →
    Acts (.trainTimeout p) s fun u =>
      u.pst p = stListen ∧
      u.f (F.PORT_STATE_fail_count p) = min (s.f (F.PORT_STATE_fail_count p) + 1) 255 ∧
      u.raised (R.PORT_EVENT p) 6 = true ∧
      ((u.port p).trainFails.getD (s.pmode p) 0 = (s.port p).trainFails.getD (s.pmode p) 0 + if s.f (F.PORT_TIMERS2_train_fail_limit p) = 0 then 0 else 1) ∧
      Frame [.TB_STAT, .TB_EVENT, .CAL_PORT_STAT, .CAL_PORT_QUAL, .BND_STAT, .BND_EVENT, .BND_PAIR_STAT, .CANE_STAT, .CANE_EVENT, .WAKE_PENDING, .PORT_CTL, .PORT_STATE, .PORT_PARTNER_ABIL, .PORT_PARTNER_FLAGS, .PORT_PARTNER_ID, .PORT_LINK_QUAL, .PORT_MSE_REF, .PORT_DROP_COUNT, .PORT_DROP_HIST_IDX, .PORT_DROP_HIST, .PORT_EVENT, .PORT_X50_STAT, .PORT_AM_STAT, .PORT_LOOP_STAT, .PORT_SEG_STAT, .PORT_LPI_STAT, .PORT_TC10_STAT] (linkParts ++ [.draws]) s u ∧ (s.caneOf p = none → OnlyPort p s u)) ∧
  -- PARTNER_RESTART: LISTEN, fail_count + 1, train_fail in TRAIN and an_fail in NEGOTIATE.
  (∀ (p : Port) (s : State),
    s.ok = true → s.pst p = stNegotiate ∨ s.pst p = stTrain →
    Acts (.partnerRestart p) s fun u =>
      u.pst p = stListen ∧
      u.f (F.PORT_STATE_fail_count p) = min (s.f (F.PORT_STATE_fail_count p) + 1) 255 ∧
      (u.raised (R.PORT_EVENT p) (if s.pst p = stTrain then 6 else 5) = true) ∧
      Frame [.TB_STAT, .TB_EVENT, .CAL_PORT_STAT, .CAL_PORT_QUAL, .BND_STAT, .BND_EVENT, .BND_PAIR_STAT, .CANE_STAT, .CANE_EVENT, .WAKE_PENDING, .PORT_CTL, .PORT_STATE, .PORT_PARTNER_ABIL, .PORT_PARTNER_FLAGS, .PORT_PARTNER_ID, .PORT_LINK_QUAL, .PORT_MSE_REF, .PORT_DROP_COUNT, .PORT_DROP_HIST_IDX, .PORT_DROP_HIST, .PORT_EVENT, .PORT_X50_STAT, .PORT_AM_STAT, .PORT_LOOP_STAT, .PORT_SEG_STAT, .PORT_LPI_STAT, .PORT_TC10_STAT] (linkParts ++ [.draws]) s u ∧ (s.caneOf p = none → OnlyPort p s u))

/-- Training that converges, stored coefficients that fail, link quality, counters (R132, R140, R147, R148, R155). -/
def Obligations.TrainingEndsInUp : Prop :=
  -- TRAIN_COMPLETE at or above sqi_drop, outside a cane, in X50 after the PAM6 switch: UP, fail_count 0, link_up,
  -- margin and SQI as measured, PARTNER_REF valid.
  (∀ (p : Port) (margin : BitVec 16) (found : TrainData) (s : State),
    s.ok = true → s.pst p = stTrain → s.caneOf p = none → (s.pmode p = 7 → (s.port p).pam6 = true) →
    s.f (F.PORT_QUAL_CFG_sqi_drop p) ≤ sqiOf (signed 16 margin.toNat) →
    Acts (.trainComplete p margin found) s fun u =>
      u.pst p = stUp ∧
      u.f (F.PORT_STATE_fail_count p) = 0 ∧
      u.raised (R.PORT_EVENT p) 0 = true ∧
      u.f (F.PORT_LINK_QUAL_mse_margin p) = margin.toNat ∧
      u.f (F.PORT_LINK_QUAL_sqi p) = sqiOf (signed 16 margin.toNat) ∧
      u.f (F.PORT_PARTNER_REF_FLAGS_valid p) = 1 ∧
      u.f (F.PORT_PARTNER_REF_ABIL_modes p) = s.f (F.PORT_PARTNER_ABIL_modes p) ∧
      OnlyIn [R.CAL_ATTIC_CTL, R.CAL_REJECTS, R.CAL_EVENT, R.CAL_PORT_STAT p, R.CAL_PORT_QUAL p, R.CAL_PORT_TIME p, R.DIAG_EVENT, R.DIAG_IL p, R.DIAG_FP_STAT p, R.DIAG_FP_CTL p, R.PORT_STATE p, R.PORT_PARTNER_FLAGS p, R.PORT_PARTNER_REF_ABIL p, R.PORT_PARTNER_REF_FLAGS p, R.PORT_PARTNER_REF_ID p, R.PORT_PARTNER_REF_ID p + 4, R.PORT_LINK_QUAL p, R.PORT_EVENT p, R.PORT_AM_STAT p, R.PORT_TRK_EVENT p, R.PORT_LPI_STAT p] [.BND_STAT, .BND_EVENT, .BND_PAIR_STAT, .CANE_STAT, .CANE_SKEW_A, .CANE_SKEW_B, .CANE_EVENT] s u ∧ Keeps [.windows, .ports, .canes, .bundles, .furnace, .calibration, .diagnostics, .flash, .power, .messages, .sent, .draws] s u) ∧
  -- TRAIN_STORED_TIMEOUT: training goes on from defaults in TRAIN.
  (∀ (p : Port) (s : State),
    s.ok = true → s.pst p = stTrain → (s.port p).fromStored = true →
    Acts (.trainStoredTimeout p) s fun u =>
      (u.port p).fromStored = false ∧
      u.pst p = stTrain ∧
      (s.pmode p = 7 → (u.port p).trainedTaps = some 0xFC0) ∧
      OnlyWords [] s u ∧ Keeps [.ports] s u) ∧
  -- LINK_QUAL_INTERVAL in UP or LPI: margin, SQI, sqi_min, the FEC counters (not in mode 1).
  (∀ (p : Port) (margin : BitVec 16) (corrected : Nat) (uncorrected : Nat) (s : State),
    s.ok = true → s.linkUp p = true → portClass p ≠ .segment →
    Acts (.linkQualInterval p margin corrected uncorrected) s fun u =>
      u.f (F.PORT_LINK_QUAL_mse_margin p) = margin.toNat ∧
      u.f (F.PORT_LINK_QUAL_sqi p) = sqiOf (signed 16 margin.toNat) ∧
      u.f (F.PORT_LINK_QUAL_sqi_min p) = min (sqiOf (signed 16 margin.toNat)) (s.f (F.PORT_LINK_QUAL_sqi_min p)) ∧
      (s.pmode p ≠ 1 → u.wide (R.PORT_FEC_CORR p) 2 = (s.wide (R.PORT_FEC_CORR p) 2 + corrected) % 2 ^ 64 ∧ u.wide (R.PORT_FEC_UNCORR p) 2 = (s.wide (R.PORT_FEC_UNCORR p) 2 + uncorrected) % 2 ^ 64) ∧
      (s.pmode p = 1 → u.wide (R.PORT_FEC_CORR p) 2 = s.wide (R.PORT_FEC_CORR p) 2) ∧
      OnlyWords [R.PORT_LINK_QUAL p, R.PORT_FEC_CORR p, R.PORT_FEC_CORR p + 4, R.PORT_FEC_UNCORR p, R.PORT_FEC_UNCORR p + 4, R.PORT_EVENT p] s u ∧ Keeps [.windows, .ports] s u) ∧
  -- MAC_FRAME_RECEIVE on an up trunk or branch: runt, oversize and orphan counters (a gPTP frame of an orphan goes
  -- to the Gaffer and is not counted), else RX_FRAMES and RX_BYTES.
  (∀ (p : Port) (frame : MacFrame) (s : State),
    s.ok = true → portClass p ≠ .segment → s.caneOf p = none → s.macUp p = true → (s.port p).loop ≠ 3 → frame.cut = false →
    Acts (.macFrameReceive p frame) s fun u =>
      (frame.bytes.length + 4 < 64 → u.wide (R.PORT_RX_RUNT p) 2 = (s.wide (R.PORT_RX_RUNT p) 2 + 1) % 2 ^ 64) ∧
      (64 ≤ frame.bytes.length + 4 → s.f (F.PORT_MAC_CFG_max_len p) < frame.bytes.length + 4 → u.wide (R.PORT_RX_OVERSIZE p) 2 = (s.wide (R.PORT_RX_OVERSIZE p) 2 + 1) % 2 ^ 64) ∧
      (64 ≤ frame.bytes.length + 4 → frame.bytes.length + 4 ≤ s.f (F.PORT_MAC_CFG_max_len p) → frame.fcsOk = true → s.bit (F.PORT_STATE_orphan p) = true → if s.isProto p (beAt frame.bytes (frameTag (s.bit (F.PORT_MAC_CFG_stag_en p)) frame.bytes).1) then Sent (.toGaffer p frame.bytes) s u ∧ u.wide (R.PORT_RX_ORPHAN_DROP p) 2 = s.wide (R.PORT_RX_ORPHAN_DROP p) 2 else u.wide (R.PORT_RX_ORPHAN_DROP p) 2 = (s.wide (R.PORT_RX_ORPHAN_DROP p) 2 + 1) % 2 ^ 64) ∧
      (64 ≤ frame.bytes.length + 4 → frame.bytes.length + 4 ≤ s.f (F.PORT_MAC_CFG_max_len p) → frame.fcsOk = true → s.bit (F.PORT_STATE_orphan p) = false → u.wide (R.PORT_RX_FRAMES p) 2 = (s.wide (R.PORT_RX_FRAMES p) 2 + 1) % 2 ^ 64 ∧ u.wide (R.PORT_RX_BYTES p) 2 = (s.wide (R.PORT_RX_BYTES p) 2 + frame.bytes.length + 4) % 2 ^ 64) ∧
      Keeps (safeParts ++ [.votes, .wide, .mould, .diagnostics, .commits, .heads, .fills, .flashPort, .clocks]) s u) ∧
  -- COUNTER_CLEAR zeroes the MAC counters.
  (∀ (path : Path) (p : Port) (s : State),
    s.ok = true → Granted path (R.PORT_CNT_CTL p) s →
    Acts (.counterClear path p) s fun u =>
      u.wide (R.PORT_RX_FRAMES p) 2 = 0 ∧
      u.wide (R.PORT_RX_BYTES p) 2 = 0 ∧
      u.wide (R.PORT_RX_FCS_ERR p) 2 = 0 ∧
      u.wide (R.PORT_TX_FRAMES p) 2 = 0 ∧
      u.wide (R.PORT_TX_BYTES p) 2 = 0 ∧
      u.wide (R.PORT_RX_RUNT p) 2 = 0 ∧
      OnlyWords [R.PORT_RX_FRAMES p, R.PORT_RX_FRAMES p + 4, R.PORT_RX_BYTES p, R.PORT_RX_BYTES p + 4, R.PORT_RX_FCS_ERR p, R.PORT_RX_FCS_ERR p + 4, R.PORT_RX_RUNT p, R.PORT_RX_RUNT p + 4, R.PORT_RX_OVERSIZE p, R.PORT_RX_OVERSIZE p + 4, R.PORT_RX_ORPHAN_DROP p, R.PORT_RX_ORPHAN_DROP p + 4, R.PORT_RX_PAUSE p, R.PORT_RX_PAUSE p + 4, R.PORT_TX_FRAMES p, R.PORT_TX_FRAMES p + 4, R.PORT_TX_BYTES p, R.PORT_TX_BYTES p + 4, R.PORT_TX_OVERSIZE p, R.PORT_TX_OVERSIZE p + 4, R.PORT_SEG_COLL p, R.PORT_SEG_COLL p + 4, R.PORT_SEG_LATE p, R.PORT_SEG_LATE p + 4, R.PORT_SEG_EXCESS p, R.PORT_SEG_EXCESS p + 4] s u ∧ Keeps [.messages] s u)

/-- Each cause of a link drop gives its code, the count, the event, and LISTEN or FAULT (R142, R143, R141). -/
def Obligations.LinkDrops : Prop :=
  -- BLOCK_LOCK (cause 1), FEC_BURST at unc_burst (2), SQI_LOW below sqi_drop (3), PARTNER_DOWN (4) on an up trunk
  -- or branch outside a cane and outside a sleep handshake (a segment never drops by these, R244): message
  -- LINK_DROP with the cause, DROP_COUNT + 1 saturating, link_drop, LISTEN, or FAULT where the flap guard trips.
  (∀ (p : Port) (uncLast : BitVec 16) (s : State),
    s.ok = true → s.linkUp p = true → (s.port p).localSleep = false → (s.port p).partnerSleep = false → s.caneOf p = none →
    portClass p ≠ .segment →
    Acts (.blockLock p uncLast) s fun u =>
      ((s.flapTrips p 1 = true → u.pst p = stFault) ∧ (s.flapTrips p 1 = false → u.pst p = stListen)) ∧
      Raised ⟨0x40 + p, kLinkDrop, 0, 1 + 256 * b2n (s.flapTrips p 1), p⟩ s u ∧
      u.f (F.PORT_DROP_COUNT_count p) = min (s.f (F.PORT_DROP_COUNT_count p) + 1) (2 ^ 32 - 1) ∧
      u.raised (R.PORT_EVENT p) 1 = true ∧
      Frame [.TB_STAT, .TB_EVENT, .CAL_PORT_STAT, .CAL_PORT_QUAL, .BND_STAT, .BND_EVENT, .BND_PAIR_STAT, .CANE_STAT, .CANE_EVENT, .WAKE_PENDING, .PORT_CTL, .PORT_STATE, .PORT_PARTNER_ABIL, .PORT_PARTNER_FLAGS, .PORT_PARTNER_ID, .PORT_LINK_QUAL, .PORT_MSE_REF, .PORT_DROP_COUNT, .PORT_DROP_HIST_IDX, .PORT_DROP_HIST, .PORT_EVENT, .PORT_X50_STAT, .PORT_AM_STAT, .PORT_LOOP_STAT, .PORT_SEG_STAT, .PORT_LPI_STAT, .PORT_TC10_STAT] (linkParts ++ [.draws]) s u ∧ (s.caneOf p = none → OnlyPort p s u)) ∧
  (∀ (p : Port) (n : BitVec 16) (s : State),
    s.ok = true → s.linkUp p = true → (s.port p).localSleep = false → (s.port p).partnerSleep = false → s.caneOf p = none →
    portClass p ≠ .segment → s.f (F.PORT_QUAL_CFG_unc_burst p) ≠ 0 → s.f (F.PORT_QUAL_CFG_unc_burst p) ≤ n.toNat →
    Acts (.fecBurst p n) s fun u =>
      ((s.flapTrips p 2 = true → u.pst p = stFault) ∧ (s.flapTrips p 2 = false → u.pst p = stListen)) ∧
      Raised ⟨0x40 + p, kLinkDrop, 0, 2 + 256 * b2n (s.flapTrips p 2), p⟩ s u ∧
      u.f (F.PORT_DROP_COUNT_count p) = min (s.f (F.PORT_DROP_COUNT_count p) + 1) (2 ^ 32 - 1) ∧
      u.raised (R.PORT_EVENT p) 1 = true ∧
      Frame [.TB_STAT, .TB_EVENT, .CAL_PORT_STAT, .CAL_PORT_QUAL, .BND_STAT, .BND_EVENT, .BND_PAIR_STAT, .CANE_STAT, .CANE_EVENT, .WAKE_PENDING, .PORT_CTL, .PORT_STATE, .PORT_PARTNER_ABIL, .PORT_PARTNER_FLAGS, .PORT_PARTNER_ID, .PORT_LINK_QUAL, .PORT_MSE_REF, .PORT_DROP_COUNT, .PORT_DROP_HIST_IDX, .PORT_DROP_HIST, .PORT_EVENT, .PORT_X50_STAT, .PORT_AM_STAT, .PORT_LOOP_STAT, .PORT_SEG_STAT, .PORT_LPI_STAT, .PORT_TC10_STAT] (linkParts ++ [.draws]) s u ∧ (s.caneOf p = none → OnlyPort p s u)) ∧
  (∀ (p : Port) (uncLast : BitVec 16) (s : State),
    s.ok = true → s.linkUp p = true → (s.port p).localSleep = false → (s.port p).partnerSleep = false → s.caneOf p = none →
    portClass p ≠ .segment → s.f (F.PORT_LINK_QUAL_sqi p) < s.f (F.PORT_QUAL_CFG_sqi_drop p) →
    Acts (.sqiLow p uncLast) s fun u =>
      ((s.flapTrips p 3 = true → u.pst p = stFault) ∧ (s.flapTrips p 3 = false → u.pst p = stListen)) ∧
      Raised ⟨0x40 + p, kLinkDrop, 0, 3 + 256 * b2n (s.flapTrips p 3), p⟩ s u ∧
      u.f (F.PORT_DROP_COUNT_count p) = min (s.f (F.PORT_DROP_COUNT_count p) + 1) (2 ^ 32 - 1) ∧
      u.raised (R.PORT_EVENT p) 1 = true ∧
      Frame [.TB_STAT, .TB_EVENT, .CAL_PORT_STAT, .CAL_PORT_QUAL, .BND_STAT, .BND_EVENT, .BND_PAIR_STAT, .CANE_STAT, .CANE_EVENT, .WAKE_PENDING, .PORT_CTL, .PORT_STATE, .PORT_PARTNER_ABIL, .PORT_PARTNER_FLAGS, .PORT_PARTNER_ID, .PORT_LINK_QUAL, .PORT_MSE_REF, .PORT_DROP_COUNT, .PORT_DROP_HIST_IDX, .PORT_DROP_HIST, .PORT_EVENT, .PORT_X50_STAT, .PORT_AM_STAT, .PORT_LOOP_STAT, .PORT_SEG_STAT, .PORT_LPI_STAT, .PORT_TC10_STAT] (linkParts ++ [.draws]) s u ∧ (s.caneOf p = none → OnlyPort p s u)) ∧
  (∀ (p : Port) (uncLast : BitVec 16) (s : State),
    s.ok = true → s.linkUp p = true → (s.port p).localSleep = false → (s.port p).partnerSleep = false → s.caneOf p = none →
    portClass p ≠ .segment →
    Acts (.partnerDown p uncLast) s fun u =>
      ((s.flapTrips p 4 = true → u.pst p = stFault) ∧ (s.flapTrips p 4 = false → u.pst p = stListen)) ∧
      Raised ⟨0x40 + p, kLinkDrop, 0, 4 + 256 * b2n (s.flapTrips p 4), p⟩ s u ∧
      u.f (F.PORT_DROP_COUNT_count p) = min (s.f (F.PORT_DROP_COUNT_count p) + 1) (2 ^ 32 - 1) ∧
      u.raised (R.PORT_EVENT p) 1 = true ∧
      Frame [.TB_STAT, .TB_EVENT, .CAL_PORT_STAT, .CAL_PORT_QUAL, .BND_STAT, .BND_EVENT, .BND_PAIR_STAT, .CANE_STAT, .CANE_EVENT, .WAKE_PENDING, .PORT_CTL, .PORT_STATE, .PORT_PARTNER_ABIL, .PORT_PARTNER_FLAGS, .PORT_PARTNER_ID, .PORT_LINK_QUAL, .PORT_MSE_REF, .PORT_DROP_COUNT, .PORT_DROP_HIST_IDX, .PORT_DROP_HIST, .PORT_EVENT, .PORT_X50_STAT, .PORT_AM_STAT, .PORT_LOOP_STAT, .PORT_SEG_STAT, .PORT_LPI_STAT, .PORT_TC10_STAT] (linkParts ++ [.draws]) s u ∧ (s.caneOf p = none → OnlyPort p s u))

/-- X50 training frames, the PAM6 switch and the transmit taps (R170, R174, R175, R176, R140). -/
def Obligations.TrunkTapsAndTraining : Prop :=
  -- TRAINING_FRAME with a good CRC in X50 TRAIN: rx_ready, pam6_count as the slave, the own requests left to
  -- repeat, the reply kept for the next frame; without train_en no tap moves.
  (∀ (p : Port) (body : BitVec 48) (s : State),
    s.ok = true → s.pst p = stTrain → s.pmode p = 7 → p.val < 8 → crc8 0 (leBytes 5 (body.toNat % 2 ^ 40)) = body.toNat / 2 ^ 40 →
    Acts (.trainingFrame p body) s fun u =>
      ((u.port p).rxReady = ((s.port p).rxReady || bitOf body.toNat 12) ∧ (u.port p).heard = true) ∧
      ((u.port p).pam6Count = if body.toNat / 2 ^ 13 % 256 ≠ 255 ∧ s.f (F.PORT_STATE_role p) ≠ 1 then body.toNat / 2 ^ 13 % 256 else (s.port p).pam6Count) ∧
      (u.port p).ownReq = unanswered (s.port p).ownReq (body.toNat / 2 ^ 6 % 64) ∧
      (s.bit (F.PORT_TAP_CTL_train_en p) = false → (u.port p).trainedTaps = (s.port p).trainedTaps) ∧
      (s.bit (F.PORT_TAP_CTL_train_en p) = false → (u.port p).tapReply = 0) ∧
      (body.toNat % 64 = 0 → (u.port p).tapReply = 0) ∧
      OnlyWords [R.PORT_TAP_STAT p] s u ∧ Keeps [.ports] s u) ∧
  -- PAM6_SWITCH after rx_ready of both sides and a count: PAM6 is in force.
  (∀ (p : Port) (s : State),
    s.ok = true → s.pst p = stTrain → s.pmode p = 7 → (s.port p).rxReady = true → (s.port p).ownReady = true → (s.port p).pam6Count ≠ 255 →
    Acts (.pam6Switch p) s fun u =>
      (u.port p).pam6 = true ∧
      (u.port p).pam6Count = 0 ∧
      u.pst p = stTrain ∧
      OnlyWords [] s u ∧ Keeps [.ports] s u) ∧
  -- TAP_WRITE stores the word R175 gives and queues the taps, or is refused with tap_refused and nothing stored.
  (∀ (path : Path) (p : Port) (man : Bool) (taps : BitVec 18) (s : State),
    s.ok = true → (Granted path (if man then R.PORT_TAP_MAN p else R.PORT_TAP_STD p) s) → p.val < 8 →
    Acts (.tapWrite path p man taps) s fun u =>
      ((match tapStore taps.toNat with | some v => decide ((u.reg (if man then R.PORT_TAP_MAN p else R.PORT_TAP_STD p)).toNat = v) && (u.port p).tapNext.isSome | none => decide (u.raised (R.PORT_TRK_EVENT p) 0 = true ∧ u.reg (R.PORT_TAP_MAN p) = s.reg (R.PORT_TAP_MAN p) ∧ u.reg (R.PORT_TAP_STD p) = s.reg (R.PORT_TAP_STD p))) = true) ∧
      (u.reg (if man then R.PORT_TAP_STD p else R.PORT_TAP_MAN p) = s.reg (if man then R.PORT_TAP_STD p else R.PORT_TAP_MAN p)) ∧
      OnlyWords [R.PORT_TAP_MAN p, R.PORT_TAP_STD p, R.PORT_TRK_EVENT p] s u ∧ Keeps [.windows, .ports, .messages] s u) ∧
  -- TAP_APPLY: the queued taps and their source are in TAP_ACTIVE.
  (∀ (p : Port) (s : State),
    s.ok = true → (s.port p).tapNext.isSome = true →
    Acts (.tapApply p) s fun u =>
      u.f (F.PORT_TAP_ACTIVE_taps p) = ((s.port p).tapNext.getD (0, 0)).1 % 2 ^ 18 ∧
      u.f (F.PORT_TAP_ACTIVE_src p) = ((s.port p).tapNext.getD (0, 0)).2 % 4 ∧
      (u.port p).tapNext = none ∧
      OnlyWords [R.PORT_TAP_ACTIVE p] s u ∧ Keeps [.ports] s u)

/-- Alignment markers, their loss, and the waits of a cane (R169, R181, R183, R184, R185). -/
def Obligations.CaneLanesAndMarkers : Prop :=
  -- ALIGNMENT_MARKER on an up member in a bond mode: tag, lane, map and rx_ok as received; the second good one in
  -- a row locks.
  (∀ (p : Port) (lane : BitVec 2) (tag : BitVec 16) (map : BitVec 4) (rxOk : BitVec 4) (arrival : Nat) (bipErrors : Nat) (s : State),
    s.ok = true → s.caneOf p ≠ none → s.pst p = stUp → bondMode (s.pmode p) = true →
    Acts (.alignmentMarker p lane tag map rxOk arrival bipErrors) s fun u =>
      u.f (F.PORT_AM_STAT_tag_rx p) = tag.toNat ∧
      u.f (F.PORT_AM_STAT_lane_rx p) = lane.toNat ∧
      u.f (F.PORT_AM_STAT_map_rx p) = map.toNat ∧
      u.f (F.PORT_AM_STAT_rx_ok_rx p) = rxOk.toNat ∧
      (((s.port p).canePage.map fun g => (g.1, g.2.2.1)) = some (tag.toNat, lane.toNat) → (s.port p).goodRow ≥ 1 → u.f (F.PORT_AM_STAT_am_lock p) = 1) ∧
      Frame (linkTables ++ [.CANE_AM_ERR, .WAKE_PENDING, .PORT_CTL, .PORT_TRK_EVENT]) (linkParts ++ [.draws]) s u ∧ (s.caneOf p = none → OnlyPort p s u)) ∧
  -- MARKER_MISS: lock is lost with its event.
  (∀ (p : Port) (s : State),
    s.ok = true → s.caneOf p ≠ none → s.bit (F.PORT_AM_STAT_am_lock p) = true →
    Acts (.markerMiss p) s fun u =>
      u.f (F.PORT_AM_STAT_am_lock p) = 0 ∧
      u.raised (R.PORT_TRK_EVENT p) 1 = true ∧
      Frame [.TB_STAT, .TB_EVENT, .CAL_PORT_STAT, .CAL_PORT_QUAL, .BND_STAT, .BND_EVENT, .BND_PAIR_STAT, .CANE_STAT, .CANE_EVENT, .WAKE_PENDING, .PORT_CTL, .PORT_STATE, .PORT_PARTNER_ABIL, .PORT_PARTNER_FLAGS, .PORT_PARTNER_ID, .PORT_LINK_QUAL, .PORT_MSE_REF, .PORT_DROP_COUNT, .PORT_DROP_HIST_IDX, .PORT_DROP_HIST, .PORT_EVENT, .PORT_X50_STAT, .PORT_AM_STAT, .PORT_TRK_EVENT, .PORT_LOOP_STAT, .PORT_SEG_STAT, .PORT_LPI_STAT, .PORT_TC10_STAT] (linkParts ++ [.draws]) s u ∧ (s.caneOf p = none → OnlyPort p s u)) ∧
  -- FORM_WAIT_EXPIRE in FORMING under degrade: DEGRADED.
  (∀ (k : Fin 4) (s : State),
    s.ok = true → s.cst k = cnForming → (s.cane k).formWait = true → s.bit (F.CANE_CFG_policy k) = false →
    Acts (.formWaitExpire k) s fun u =>
      u.cst k = cnDegraded ∧
      (u.cane k).formWait = false ∧
      u.raised (R.CANE_EVENT k) 1 = true ∧
      OnlyIn [R.CANE_STAT k, R.CANE_EVENT k] [.PORT_AM_STAT] s u ∧ Keeps [.windows, .canes] s u) ∧
  -- REJOIN_HOLD_EXPIRE: the member waits for its next marker.
  (∀ (p : Port) (s : State),
    s.ok = true → (s.port p).rejoin = 1 → ((match s.caneOf p with | some kj => s.laneMeets kj.1 kj.2 | none => false) = true) →
    Acts (.rejoinHoldExpire p) s fun u =>
      (u.port p).rejoin = 2 ∧
      OnlyWords [] s u ∧ Keeps [.ports] s u)

/-- Test loops start, are refused, stop and run out (R195, R196, R197, R199). -/
def Obligations.TestLoops : Prop :=
  -- LOOP_START of a named kind on a free trunk or branch stores the settings and queues, runs (state 2, counters
  -- zero) or refuses (state 4 with a code; a far-end loop outside UP with code 4).
  (∀ (path : Path) (p : Port) (kind : BitVec 2) (source : BitVec 2) (force : BitVec 1) (noWait : BitVec 1) (mode : BitVec 4) (s : State),
    s.ok = true → Granted path (R.PORT_LOOP_CTL p) s → (s.port p).loop = 0 → s.f (F.PORT_LOOP_STAT_state p) ≠ 1 → portClass p ≠ .segment →
    kind.toNat ≠ 0 →
    Acts (.loopStart path p kind source force noWait mode) s fun u =>
      u.f (F.PORT_LOOP_CTL_kind p) = kind.toNat ∧
      u.f (F.PORT_LOOP_CTL_mode p) = mode.toNat ∧
      (u.f (F.PORT_LOOP_STAT_state p) = 1 ∨ (u.f (F.PORT_LOOP_STAT_state p) = 2 ∧ (u.port p).loop = kind.toNat ∧ u.wide (R.PORT_LOOP_BITS p) 2 = 0) ∨ (u.f (F.PORT_LOOP_STAT_state p) = 4 ∧ u.f (F.PORT_LOOP_STAT_result p) ≠ 0 ∧ (u.port p).loop = 0)) ∧
      (kind.toNat = 3 → s.pst p ≠ stUp → u.f (F.PORT_LOOP_STAT_state p) = 4 ∧ u.f (F.PORT_LOOP_STAT_result p) = 4) ∧
      Frame [.TB_STAT, .TB_EVENT, .CAL_PORT_STAT, .CAL_PORT_QUAL, .DIAG_LEDGER_STAT, .DIAG_EVENT, .BND_STAT, .BND_EVENT, .BND_PAIR_STAT, .CANE_STAT, .CANE_EVENT, .WAKE_PENDING, .PORT_CTL, .PORT_STATE, .PORT_PARTNER_ABIL, .PORT_PARTNER_FLAGS, .PORT_PARTNER_ID, .PORT_LINK_QUAL, .PORT_MSE_REF, .PORT_DROP_COUNT, .PORT_DROP_HIST_IDX, .PORT_DROP_HIST, .PORT_EVENT, .PORT_X50_STAT, .PORT_AM_STAT, .PORT_LOOP_CTL, .PORT_LOOP_STAT, .PORT_LOOP_BITS, .PORT_LOOP_ERRS, .PORT_SEG_STAT, .PORT_LPI_STAT, .PORT_TC10_STAT] (linkParts ++ [.draws]) s u ∧ (s.caneOf p = none → OnlyPort p s u)) ∧
  -- LOOP_STOP: a running or queued loop ends ABORTED.
  (∀ (path : Path) (p : Port) (s : State),
    s.ok = true → Granted path (R.PORT_LOOP_CTL p) s →
    Acts (.loopStop path p) s fun u =>
      ((s.port p).loop ≠ 0 → (u.port p).loop = 0 ∧ u.f (F.PORT_LOOP_STAT_state p) = 3 ∧ u.f (F.PORT_LOOP_STAT_result p) = 2) ∧
      (s.f (F.PORT_LOOP_STAT_state p) = 1 → u.f (F.PORT_LOOP_STAT_state p) = 3 ∧ u.f (F.PORT_LOOP_STAT_result p) = 2) ∧
      OnlyIn [R.PORT_LOOP_STAT p, R.PORT_LOOP_BITS p, R.PORT_LOOP_BITS p + 4, R.PORT_LOOP_ERRS p, R.PORT_LOOP_ERRS p + 4] [.BND_STAT, .BND_EVENT, .BND_PAIR_STAT] s u ∧ Keeps [.windows, .ports, .bundles, .furnace, .ledger, .messages, .draws] s u) ∧
  -- LOOP_DURATION_EXPIRE with a duration set: the loop ends DONE, its bits counted.
  (∀ (p : Port) (bits : Nat) (errs : Nat) (s : State),
    s.ok = true → (s.port p).loop ≠ 0 → s.reg (R.PORT_LOOP_TIME p) ≠ 0 →
    Acts (.loopDurationExpire p bits errs) s fun u =>
      (u.port p).loop = 0 ∧
      u.f (F.PORT_LOOP_STAT_state p) = 3 ∧
      u.f (F.PORT_LOOP_STAT_result p) = 1 ∧
      ((s.port p).loop ≠ 3 → s.f (F.PORT_LOOP_CTL_source p) = 0 → u.wide (R.PORT_LOOP_BITS p) 2 = (s.wide (R.PORT_LOOP_BITS p) 2 + bits) % 2 ^ 64) ∧
      OnlyIn [R.PORT_LOOP_STAT p, R.PORT_LOOP_BITS p, R.PORT_LOOP_BITS p + 4, R.PORT_LOOP_ERRS p, R.PORT_LOOP_ERRS p + 4] [.BND_STAT, .BND_EVENT, .BND_PAIR_STAT] s u ∧ Keeps [.windows, .ports, .bundles, .furnace, .ledger] s u) ∧
  -- POT_SELFTEST_START of one quarter: refused where a port or canceller uses it, else busy and tested where the
  -- ledger is empty.
  (∀ (path : Path) (quarters : BitVec 4) (s : State),
    s.ok = true → Granted path (R.FUR_SELFTEST) s → quarters.toNat = 2 ^ (quarters.toNat.log2) →
    Acts (.potSelftestStart path quarters) s fun u =>
      ((match lowBit 4 quarters.toNat with | some q => !(s.ledger.books ++ s.ledger.queue).any (fun b => b.act == 7 && b.qtrs.contains q) && s.quarterBusy q == true | none => false) = true → bitOf (u.f F.FUR_SELFTEST_refused) ((lowBit 4 quarters.toNat).getD 0) = true ∧ u.fur = s.fur) ∧
      ((match lowBit 4 quarters.toNat with | some q => s.ledger.books.isEmpty && s.ledger.queue.isEmpty && !s.quarterBusy q | none => false) = true → bitOf (u.f F.FUR_SELFTEST_busy) ((lowBit 4 quarters.toNat).getD 0) = true ∧ u.fur.testing.contains ((lowBit 4 quarters.toNat).getD 0) = true) ∧
      OnlyWords [R.FUR_SELFTEST, R.DIAG_LEDGER_STAT, R.DIAG_EVENT] s u ∧ Keeps [.windows, .furnace, .ledger, .messages] s u) ∧
  -- POT_SELFTEST_DONE: no longer busy, failed where a new failure was found, selftest_done.
  (∀ (q : Fin 4) (failed : BitVec 32) (spareFailed : Bool) (s : State),
    s.ok = true → s.fur.testing.contains q.val = true → s.fur.testing.Nodup → s.domOn (domFur q) = true →
    bitOf (s.f F.FUR_SELFTEST_busy) q = true →
    Acts (.potSelftestDone q failed spareFailed) s fun u =>
      u.fur.testing.contains q.val = false ∧
      bitOf (u.f F.FUR_SELFTEST_busy) q = false ∧
      (bitOf (u.f F.FUR_SELFTEST_failed) q = ((bitList 32 failed.toNat).any (fun i => !bitOf (s.f (F.FUR_QTR_DEAD_dead q)) i) || (spareFailed && s.f (F.FUR_QTR_STAT_spare q) == 0))) ∧
      u.raised R.FUR_EVENT 6 = true ∧
      OnlyIn [R.FUR_QTR_STAT q, R.FUR_QTR_SPARE q, R.FUR_QTR_DEAD q, R.FUR_SELFTEST, R.FUR_EVENT] [.POT_STAT, .FUR_SLOT, .BND_STAT, .BND_EVENT, .BND_PAIR_STAT] s u ∧ Keeps [.shadows, .windows, .ports, .bundles, .furnace, .ledger, .messages] s u)

/-- Pots come and go, correct and fail; bundle cancellers converge and restart (R215, R218, R219, R220, R223,
R224, R231, R232, R233). -/
def Obligations.PotsAndCancellers : Prop :=
  -- POT_RETURN_DONE of a sleeping port with on_sleep and slots: returned, its record written in each quarter that
  -- holds its slots where they hold coefficients, the slots kept in the map.
  (∀ (p : Port) (s : State),
    s.ok = true → s.pst p = stSleep → s.bit (F.FUR_RETURN_on_sleep p) = true → (s.port p).returned = false → (s.usable p).isEmpty = false →
    (s.port p).leaving = false →
    Acts (.potReturnDone p) s fun u =>
      ((u.port p).returned = true ∧ (u.port p).reclaimLeft = []) ∧
      u.pst p = stSleep ∧
      u.slots = s.slots ∧
      (∀ q ∈ s.portQuarters p, u.record q p = if (s.port p).coeffMode = 0 then s.record q p else some (s.port p).coeffMode) ∧
      Keeps (linkParts ++ [.shadows, .commits, .draws]) s u) ∧
  -- The same of a port in deep LPI with on_deep_lpi.
  (∀ (p : Port) (s : State),
    s.ok = true → s.pst p = stLpi → s.bit (F.PORT_LPI_STAT_deep p) = true → s.bit (F.FUR_RETURN_on_deep_lpi p) = true →
    (s.port p).returned = false → (s.usable p).isEmpty = false → (s.port p).leaving = false →
    Acts (.potReturnDone p) s fun u =>
      ((u.port p).returned = true ∧ (u.port p).reclaimLeft = []) ∧
      u.pst p = stLpi ∧
      u.slots = s.slots ∧
      (∀ q ∈ s.portQuarters p, u.record q p = if (s.port p).coeffMode = 0 then s.record q p else some (s.port p).coeffMode) ∧
      Keeps (linkParts ++ [.shadows, .commits, .draws]) s u) ∧
  -- POT_RECLAIM_DONE: the quarter goes on to its next port; with the last quarter the pots are back with the mode
  -- of the stored record, before it the port waits.
  (∀ (p : Port) (q : Fin 4) (s : State),
    s.ok = true → (s.fur.reclaims.getD q []).head? = some p.val → s.fur.reclaims.sorted = true → s.portPowered p = true →
    s.heldByRemould p = false →
    Acts (.potReclaimDone p q) s fun u =>
      u.fur.reclaims.getD q [] = (s.fur.reclaims.getD q []).tail ∧
      ((s.port p).reclaimLeft.erase q.val = [] → s.pst p ≠ stSleep → (u.port p).returned = false ∧ (u.port p).coeffMode = (s.storedMode p).getD 0) ∧
      ((s.port p).reclaimLeft.erase q.val ≠ [] → (u.port p).returned = (s.port p).returned ∧ u.pst p = s.pst p) ∧
      Keeps (linkParts ++ [.shadows, .commits, .draws]) s u) ∧
  -- ECC_CORR counts and raises a C1 message.
  (∀ (pot : Fin 128) (syndrome : BitVec 8) (addr : BitVec 32) (s : State),
    s.ok = true → s.domOn (domFur (pot.val / 32)) = true →
    Acts (.eccCorr pot syndrome addr) s fun u =>
      u.f (F.POT_ECC_corr pot) = min (s.f (F.POT_ECC_corr pot) + 1) (2 ^ 16 - 1) ∧
      Raised ⟨0x10 + pot / 32, kEccCorr, 1, syndrome.toNat, addr.toNat⟩ s u ∧
      Frame [.POT_ECC] [.messages] s u) ∧
  -- ECC_UNCORR counts, raises a C2 message and the event, and maps the spare or marks the pot dead; the ports with
  -- slots on it lose their records.
  (∀ (pot : Fin 128) (syndrome : BitVec 8) (s : State),
    s.ok = true → s.domOn (domFur (pot.val / 32)) = true →
    Acts (.eccUncorr pot syndrome) s fun u =>
      u.f (F.POT_ECC_uncorr pot) = min (s.f (F.POT_ECC_uncorr pot) + 1) (2 ^ 16 - 1) ∧
      u.raised R.FUR_EVENT 0 = true ∧
      Raised ⟨0x10 + pot / 32, kEccUncorr, 2, syndrome.toNat, pot⟩ s u ∧
      (s.f (F.FUR_QTR_STAT_spare (pot.val / 32)) = 0 → u.f (F.FUR_QTR_STAT_spare (pot.val / 32)) = 1 ∧ u.f (F.FUR_QTR_SPARE_pot (pot.val / 32)) = pot % 32 ∧ u.raised R.FUR_EVENT 1 = true) ∧
      (s.f (F.FUR_QTR_STAT_spare (pot.val / 32)) ≠ 0 → bitOf (u.f (F.FUR_QTR_DEAD_dead (pot.val / 32))) (pot % 32) = true ∧ u.raised R.FUR_EVENT 2 = true) ∧
      (∀ o ∈ s.potOwners pot, o < 64 → ∀ q : Fin 4, u.record q o = none) ∧
      Frame [.TB_STAT, .TB_EVENT, .FUR_QTR_STAT, .FUR_QTR_SPARE, .FUR_QTR_DEAD, .FUR_EVENT, .POT_STAT, .POT_ECC, .CAL_PORT_STAT, .CAL_PORT_QUAL, .BND_STAT, .BND_EVENT, .BND_PAIR_STAT, .CANE_STAT, .CANE_EVENT, .WAKE_PENDING, .PORT_CTL, .PORT_STATE, .PORT_PARTNER_ABIL, .PORT_PARTNER_FLAGS, .PORT_PARTNER_ID, .PORT_LINK_QUAL, .PORT_MSE_REF, .PORT_DROP_COUNT, .PORT_DROP_HIST_IDX, .PORT_DROP_HIST, .PORT_EVENT, .PORT_X50_STAT, .PORT_AM_STAT, .PORT_LOOP_STAT, .PORT_SEG_STAT, .PORT_LPI_STAT, .PORT_TC10_STAT] (linkParts ++ [.draws]) s u) ∧
  -- CANCELLER_DEPTH_INTERVAL of an active or frozen canceller writes its depth.
  (∀ (b : Fin 16) (pair : Fin 56) (depth : BitVec 16) (s : State),
    s.ok = true → (s.bnd b).hold = false → s.f (F.BND_PAIR_STAT_state b pair) = pcActive ∨ s.f (F.BND_PAIR_STAT_state b pair) = pcFrozen →
    Acts (.cancellerDepthInterval b pair depth) s fun u =>
      u.f (F.BND_PAIR_STAT_depth b pair) = depth.toNat ∧
      u.f (F.BND_PAIR_STAT_state b pair) = s.f (F.BND_PAIR_STAT_state b pair) ∧
      OnlyIn [R.BND_STAT b, R.BND_EVENT b] [.BND_PAIR_STAT] s u ∧ Keeps [.windows, .bundles, .furnace] s u) ∧
  -- CANCELLER_DEPTH_INTERVAL of a converging canceller writes its depth; at changes below 0.3 dB over two
  -- intervals the canceller is ACTIVE, weak below the minimum.
  (∀ (b : Fin 16) (pair : Fin 56) (depth : BitVec 16) (s : State),
    s.ok = true → (s.bnd b).hold = false → (s.bnd b).pairs.sorted = true → s.f (F.BND_PAIR_STAT_state b pair) = pcConverging →
    s.bit (F.BND_CFG_valid b) = true → pair.val < s.f (F.BND_CFG_pairs b) → s.pairState b pair = pcConverging →
    ((s.bnd b).pairs.getD pair {}).started = true →
    Acts (.cancellerDepthInterval b pair depth) s fun u =>
      u.f (F.BND_PAIR_STAT_depth b pair) = depth.toNat ∧
      ((match ((s.bnd b).pairs.getD pair {}).depths with | d1 :: d2 :: _ => decide (depth.toNat < d1 + 3 ∧ d1 < depth.toNat + 3 ∧ d1 < d2 + 3 ∧ d2 < d1 + 3) | _ => false) = true → u.f (F.BND_PAIR_STAT_state b pair) = pcActive ∧ (depth.toNat < depthMin (s.f (F.BND_STAT_mode b)) (s.f (F.BND_PAIR_CFG_kind b pair) == 3) → u.raised (R.BND_EVENT b) 4 = true)) ∧
      ((match ((s.bnd b).pairs.getD pair {}).depths with | d1 :: d2 :: _ => decide (depth.toNat < d1 + 3 ∧ d1 < depth.toNat + 3 ∧ d1 < d2 + 3 ∧ d2 < d1 + 3) | _ => false) = false → u.f (F.BND_PAIR_STAT_state b pair) = pcConverging) ∧
      OnlyIn [R.BND_STAT b, R.BND_EVENT b] [.BND_PAIR_STAT] s u ∧ Keeps [.windows, .bundles, .furnace] s u) ∧
  -- CONVERGENCE_MAX_EXPIRE of a converging canceller: ACTIVE all the same; a depth below the minimum raises weak.
  (∀ (b : Fin 16) (pair : Fin 56) (s : State),
    s.ok = true → (s.bnd b).hold = false → (s.bnd b).pairs.sorted = true → s.f (F.BND_PAIR_STAT_state b pair) = pcConverging →
    s.bit (F.BND_CFG_valid b) = true → pair.val < s.f (F.BND_CFG_pairs b) → s.pairState b pair = pcConverging →
    ((s.bnd b).pairs.getD pair {}).started = true →
    Acts (.convergenceMaxExpire b pair) s fun u =>
      u.f (F.BND_PAIR_STAT_state b pair) = pcActive ∧
      (s.f (F.BND_PAIR_STAT_depth b pair) < depthMin (s.f (F.BND_STAT_mode b)) (s.f (F.BND_PAIR_CFG_kind b pair) == 3) → u.raised (R.BND_EVENT b) 4 = true) ∧
      OnlyIn [R.BND_STAT b, R.BND_EVENT b] [.BND_PAIR_STAT] s u ∧ Keeps [.windows, .bundles, .furnace] s u) ∧
  -- BUNDLE_RESTART stores freeze and clears every coefficient record of the bundle.
  (∀ (path : Path) (b : Fin 16) (freeze : BitVec 1) (s : State),
    s.ok = true → Granted path (R.BND_CTL b) s → (s.bnd b).hold = false →
    Acts (.bundleRestart path b freeze) s fun u =>
      u.f (F.BND_CTL_freeze b) = freeze.toNat ∧
      (s.bit (F.BND_CFG_valid b) = true → ∀ i, i < s.f (F.BND_CFG_pairs b) → u.record (s.f (F.BND_CFG_quarter b)) (cancelOwner b i) = none) ∧
      OnlyIn [R.BND_STAT b, R.BND_CTL b, R.BND_EVENT b] [.BND_PAIR_STAT] s u ∧ Keeps [.windows, .bundles, .furnace, .messages] s u)

/-- PLCA on a segment: beacons, opportunities, loss and foreign beacons (R241, R242, R243, R246). -/
def Obligations.SegmentPlca : Prop :=
  -- BEACON_RECEIVED by an up follower: PLCA in force, the cycle measured.
  (∀ (p : SegPort) (us : Nat) (s : State),
    s.ok = true → s.pst (56 + p.val) = stUp → s.bit (F.PORT_SEG_CFG_plca_en (56 + p.val)) = true →
    s.bit (F.PORT_SEG_CFG_coordinator (56 + p.val)) = false →
    Acts (.beaconReceived p us) s fun u =>
      u.f (F.PORT_SEG_STAT_plca_active (56 + p.val)) = 1 ∧
      u.f (F.PORT_SEG_STAT_csma (56 + p.val)) = 0 ∧
      u.f (F.PORT_SEG_STAT_beacon_ok (56 + p.val)) = 1 ∧
      u.pst (56 + p.val) = stUp ∧
      (s.bit (F.PORT_SEG_STAT_plca_active (56 + p.val)) = true → u.f (F.PORT_SEG_CYCLE_last_us (56 + p.val)) = min us 0xFFFF) ∧
      Keeps (safeParts ++ [.votes, .wide, .mould, .diagnostics, .commits, .heads, .fills, .flashPort, .clocks]) s u) ∧
  -- PLCA_CYCLE_START of a ready coordinator: a beacon, UP in 10BASE-T1S, link_up.
  (∀ (p : SegPort) (us : Nat) (s : State),
    s.ok = true → s.pst (56 + p.val) = stListen → s.segReady (56 + p.val) true = true →
    Acts (.plcaCycleStart p us) s fun u =>
      u.pst (56 + p.val) = stUp ∧
      u.pmode (56 + p.val) = 8 ∧
      u.f (F.PORT_SEG_STAT_plca_active (56 + p.val)) = 1 ∧
      u.raised (R.PORT_EVENT (56 + p.val)) 0 = true ∧
      Sent (.line (56 + p.val) "beacon" 20) s u ∧
      OnlyWords [R.PORT_STATE (56 + p.val), R.PORT_MSE_REF (56 + p.val), R.PORT_EVENT (56 + p.val), R.PORT_SEG_STAT (56 + p.val), R.PORT_SEG_CYCLE (56 + p.val)] s u ∧ Keeps [.windows, .ports, .sent] s u) ∧
  -- TRANSMIT_OPPORTUNITY: 1 + max_burst frames may start.
  (∀ (p : SegPort) (s : State),
    s.ok = true → s.pst (56 + p.val) = stUp → s.bit (F.PORT_SEG_STAT_plca_active (56 + p.val)) = true →
    Acts (.transmitOpportunity p) s fun u =>
      (u.port (56 + p.val)).opportunity = 1 + s.f (F.PORT_SEG_TIMING_max_burst (56 + p.val)) ∧
      OnlyWords [] s u ∧ Keeps [.ports] s u) ∧
  -- BEACON_LOSS of an up follower: CSMA/CD with fallback, else a link drop with cause 1.
  (∀ (p : SegPort) (uncLast : BitVec 16) (s : State),
    s.ok = true → s.pst (56 + p.val) = stUp → s.bit (F.PORT_SEG_STAT_plca_active (56 + p.val)) = true →
    s.bit (F.PORT_SEG_CFG_coordinator (56 + p.val)) = false → (s.port (56 + p.val)).localSleep = false →
    (s.port (56 + p.val)).partnerSleep = false →
    Acts (.beaconLoss p uncLast) s fun u =>
      u.raised (R.PORT_SEG_EVENT (56 + p.val)) 5 = true ∧
      (s.bit (F.PORT_SEG_CFG_fallback (56 + p.val)) = true → u.f (F.PORT_SEG_STAT_csma (56 + p.val)) = 1 ∧ u.f (F.PORT_SEG_STAT_plca_active (56 + p.val)) = 0 ∧ u.pst (56 + p.val) = stUp) ∧
      (s.bit (F.PORT_SEG_CFG_fallback (56 + p.val)) = false → Raised ⟨0x40 + (56 + p.val), kLinkDrop, 0, 1 + 256 * b2n (s.flapTrips (56 + p.val) 1), (56 + p.val)⟩ s u ∧ u.pst (56 + p.val) = if s.flapTrips (56 + p.val) 1 then stFault else stListen) ∧
      Frame [.TB_STAT, .TB_EVENT, .CAL_PORT_STAT, .CAL_PORT_QUAL, .BND_STAT, .BND_EVENT, .BND_PAIR_STAT, .CANE_STAT, .CANE_EVENT, .WAKE_PENDING, .PORT_CTL, .PORT_STATE, .PORT_PARTNER_ABIL, .PORT_PARTNER_FLAGS, .PORT_PARTNER_ID, .PORT_LINK_QUAL, .PORT_MSE_REF, .PORT_DROP_COUNT, .PORT_DROP_HIST_IDX, .PORT_DROP_HIST, .PORT_EVENT, .PORT_X50_STAT, .PORT_AM_STAT, .PORT_LOOP_STAT, .PORT_SEG_STAT, .PORT_SEG_EVENT, .PORT_LPI_STAT, .PORT_TC10_STAT] (linkParts ++ [.draws]) s u ∧ (s.caneOf (56 + p.val) = none → OnlyPort (56 + p.val) s u)) ∧
  -- FOREIGN_BEACON heard by a coordinator is counted with its event.
  (∀ (p : SegPort) (s : State),
    s.ok = true → s.pst (56 + p.val) = stUp → s.bit (F.PORT_SEG_STAT_plca_active (56 + p.val)) = true →
    s.bit (F.PORT_SEG_CFG_coordinator (56 + p.val)) = true →
    Acts (.foreignBeacon p) s fun u =>
      (s.f (F.PORT_SEG_STAT_foreign_beacons (56 + p.val)) < 255 → u.f (F.PORT_SEG_STAT_foreign_beacons (56 + p.val)) = s.f (F.PORT_SEG_STAT_foreign_beacons (56 + p.val)) + 1) ∧
      u.raised (R.PORT_SEG_EVENT (56 + p.val)) 3 = true ∧
      OnlyWords [R.PORT_SEG_STAT (56 + p.val), R.PORT_SEG_EVENT (56 + p.val)] s u ∧ Keeps [.windows] s u)

/-- Collisions, the census, quality and sleep of a segment (R245, R247, R248, R249, R251, R252). -/
def Obligations.SegmentCollisionsAndCensus : Prop :=
  -- COLLISION counts; the port's own frame jams and goes back to the head of the queue with one try more, or after
  -- its sixteenth is given up; under PLCA the opportunity is marked.
  (∀ (p : SegPort) (n : BitVec 8) (own : Bool) (s : State),
    s.ok = true → s.pst (56 + p.val) = stUp →
    Acts (.collision p n own) s fun u =>
      u.wide (R.PORT_SEG_COLL (56 + p.val)) 2 = (s.wide (R.PORT_SEG_COLL (56 + p.val)) 2 + 1) % 2 ^ 64 ∧
      (own = true → ∀ f ∈ (s.port (56 + p.val)).sending.toList, Sent (.line (56 + p.val) "jam" 0) s u ∧ (u.port (56 + p.val)).sending = none ∧ (f.tries < 15 → (u.port (56 + p.val)).txq = { f with tries := f.tries + 1 } :: (s.port (56 + p.val)).txq) ∧ (15 ≤ f.tries → u.wide (R.PORT_SEG_EXCESS (56 + p.val)) 2 = (s.wide (R.PORT_SEG_EXCESS (56 + p.val)) 2 + 1) % 2 ^ 64)) ∧
      (s.bit (F.PORT_SEG_STAT_plca_active (56 + p.val)) = true → n.toNat < 32 → u.raised (R.PORT_SEG_EVENT (56 + p.val)) 2 = true) ∧
      OnlyIn [R.LCH_GCL_STAT (56 + p.val), R.PORT_TX_OVERSIZE (56 + p.val), R.PORT_TX_OVERSIZE (56 + p.val) + 4, R.PORT_SEG_COLL (56 + p.val), R.PORT_SEG_COLL (56 + p.val) + 4, R.PORT_SEG_LATE (56 + p.val), R.PORT_SEG_LATE (56 + p.val) + 4, R.PORT_SEG_EXCESS (56 + p.val), R.PORT_SEG_EXCESS (56 + p.val) + 4, R.PORT_SEG_EVENT (56 + p.val), R.PORT_LPI_STAT (56 + p.val)] [.HEAD_REQ_STAT, .HEAD_ATC_STAT, .BND_STAT, .BND_EVENT, .BND_PAIR_STAT, .PORT_SEG_CENSUS, .QP_RX_HEAD_IDX, .QP_RX_STAT, .QP_RX_STATE, .QP_RX_FRAMES, .QP_RX_DROPS, .QP_RX_BAD, .QP_TX_HEAD_IDX, .QP_TX_STAT, .QP_TX_STATE, .QP_TX_FRAMES, .QP_TX_DROPS, .QP_TX_BAD, .QP_EVENT] s u ∧ Keeps (ringParts ++ [.bundles, .furnace]) s u) ∧
  -- LATE_COLLISION of the own frame gives it up and counts.
  (∀ (p : SegPort) (n : BitVec 8) (own : Bool) (s : State),
    s.ok = true → s.pst (56 + p.val) = stUp →
    Acts (.lateCollision p n own) s fun u =>
      (own = true → (s.port (56 + p.val)).sending.isSome = true → u.wide (R.PORT_SEG_LATE (56 + p.val)) 2 = (s.wide (R.PORT_SEG_LATE (56 + p.val)) 2 + 1) % 2 ^ 64 ∧ u.wide (R.PORT_SEG_EXCESS (56 + p.val)) 2 = (s.wide (R.PORT_SEG_EXCESS (56 + p.val)) 2 + 1) % 2 ^ 64 ∧ (u.port (56 + p.val)).sending = none) ∧
      (s.bit (F.PORT_SEG_STAT_plca_active (56 + p.val)) = true → n.toNat < 32 → u.raised (R.PORT_SEG_EVENT (56 + p.val)) 2 = true) ∧
      (own = false → u.wide (R.PORT_SEG_LATE (56 + p.val)) 2 = s.wide (R.PORT_SEG_LATE (56 + p.val)) 2) ∧
      OnlyIn [R.LCH_GCL_STAT (56 + p.val), R.PORT_TX_OVERSIZE (56 + p.val), R.PORT_TX_OVERSIZE (56 + p.val) + 4, R.PORT_SEG_COLL (56 + p.val), R.PORT_SEG_COLL (56 + p.val) + 4, R.PORT_SEG_LATE (56 + p.val), R.PORT_SEG_LATE (56 + p.val) + 4, R.PORT_SEG_EXCESS (56 + p.val), R.PORT_SEG_EXCESS (56 + p.val) + 4, R.PORT_SEG_EVENT (56 + p.val), R.PORT_LPI_STAT (56 + p.val)] [.HEAD_REQ_STAT, .HEAD_ATC_STAT, .BND_STAT, .BND_EVENT, .BND_PAIR_STAT, .PORT_SEG_CENSUS, .QP_RX_HEAD_IDX, .QP_RX_STAT, .QP_RX_STATE, .QP_RX_FRAMES, .QP_RX_DROPS, .QP_RX_BAD, .QP_TX_HEAD_IDX, .QP_TX_STAT, .QP_TX_STATE, .QP_TX_FRAMES, .QP_TX_DROPS, .QP_TX_BAD, .QP_EVENT] s u ∧ Keeps (ringParts ++ [.bundles, .furnace]) s u) ∧
  -- SEGMENT_SLEEP with a waiting request: SLEEP, CTL.admin = 1, last_sleep = 5.
  (∀ (p : SegPort) (s : State),
    s.ok = true → (s.port (56 + p.val)).sleepWait = true → s.pst (56 + p.val) = stUp →
    Acts (.segmentSleep p) s fun u =>
      u.pst (56 + p.val) = stSleep ∧
      u.f (F.PORT_CTL_admin (56 + p.val)) = 1 ∧
      u.f (F.PORT_TC10_STAT_last_sleep (56 + p.val)) = 5 ∧
      (u.port (56 + p.val)).sleepWait = false ∧
      Frame [.TB_STAT, .TB_EVENT, .CAL_PORT_STAT, .CAL_PORT_QUAL, .BND_STAT, .BND_EVENT, .BND_PAIR_STAT, .CANE_STAT, .CANE_EVENT, .WAKE_PENDING, .PORT_CTL, .PORT_STATE, .PORT_PARTNER_ABIL, .PORT_PARTNER_FLAGS, .PORT_PARTNER_ID, .PORT_LINK_QUAL, .PORT_MSE_REF, .PORT_DROP_COUNT, .PORT_DROP_HIST_IDX, .PORT_DROP_HIST, .PORT_EVENT, .PORT_X50_STAT, .PORT_AM_STAT, .PORT_LOOP_STAT, .PORT_SEG_STAT, .PORT_LPI_STAT, .PORT_TC10_STAT] (linkParts ++ [.draws]) s u ∧ (s.caneOf (56 + p.val) = none → OnlyPort (56 + p.val) s u)) ∧
  -- CENSUS_WINDOW_END under PLCA: seen bits and nodes_seen of the window.
  (∀ (p : SegPort) (s : State),
    s.ok = true → s.bit (F.PORT_SEG_STAT_plca_active (56 + p.val)) = true →
    Acts (.censusWindowEnd p) s fun u =>
      (u.port (56 + p.val)).censusPrev = (s.port (56 + p.val)).censusSeen ∧
      (u.port (56 + p.val)).censusSeen = 0 ∧
      (∀ n : Fin 32, u.f (F.PORT_SEG_CENSUS_seen (56 + p.val) n) = b2n (bitOf (s.port (56 + p.val)).censusSeen n)) ∧
      u.f (F.PORT_SEG_STAT_nodes_seen (56 + p.val)) = popcount 32 (s.port (56 + p.val)).censusSeen ∧
      OnlyIn [R.PORT_SEG_STAT (56 + p.val), R.PORT_SEG_EVENT (56 + p.val)] [.PORT_SEG_CENSUS] s u ∧ Keeps [.windows, .ports] s u) ∧
  -- CENSUS_CLEAR zeroes the census and stores the window.
  (∀ (path : Path) (p : SegPort) (window : BitVec 16) (s : State),
    s.ok = true → Granted path (R.PORT_SEG_CENSUS_CTL (56 + p.val)) s →
    Acts (.censusClear path p window) s fun u =>
      u.f (F.PORT_SEG_CENSUS_CTL_window_ms (56 + p.val)) = window.toNat ∧
      (∀ n : Fin 32, u.reg (R.PORT_SEG_CENSUS (56 + p.val) n) = 0) ∧
      u.f (F.PORT_SEG_STAT_nodes_seen (56 + p.val)) = 0 ∧
      (u.port (56 + p.val)).censusEver = 0 ∧
      OnlyIn [R.PORT_SEG_STAT (56 + p.val), R.PORT_SEG_CYCLE (56 + p.val), R.PORT_SEG_CENSUS_CTL (56 + p.val)] [.PORT_SEG_CENSUS] s u ∧ Keeps [.ports, .messages] s u) ∧
  -- SEG_QUAL_INTERVAL: the lowest margin of the interval, or the values kept.
  (∀ (p : SegPort) (s : State),
    s.ok = true → s.pst (56 + p.val) = stUp →
    Acts (.segQualInterval p) s fun u =>
      (u.port (56 + p.val)).windowMin = none ∧
      ((s.port (56 + p.val)).windowMin.isSome = true → (u.f (F.PORT_LINK_QUAL_mse_margin (56 + p.val)) : Int) = unsigned 16 (((s.port (56 + p.val)).windowMin.getD 0 : Nat) - 32768 : Int)) ∧
      ((s.port (56 + p.val)).windowMin = none → u.reg (R.PORT_LINK_QUAL (56 + p.val)) = s.reg (R.PORT_LINK_QUAL (56 + p.val))) ∧
      OnlyWords [R.PORT_LINK_QUAL (56 + p.val), R.PORT_EVENT (56 + p.val)] s u ∧ Keeps [.windows, .ports] s u)

/-- Offered calibration sets are taken or rejected; pending ones come into force at their boundary (R263, R266,
R268, R271, R272). -/
def Obligations.CalibrationSets : Prop :=
  -- CONVERTER_STAGE_DONE of a booked stage: ACCEPTED where every set is accepted, else PARTIAL, the settle wait,
  -- the port leaves its sequencer, and after the last port of a full anneal CAL.STAT.anneal = 2.
  (∀ (p : Port) (sets : List CalSet) (s : State),
    s.ok = true → (s.port p).stage = true → ((s.ledger.books.any fun b => b.act == 3 && b.req == 6 && b.ports.contains p) = true) →
    s.pst p = stListen →
    Acts (.converterStageDone p sets) s fun u =>
      (u.port p).stage = false ∧
      (2 ≤ s.f (F.PORT_CTL_admin p) → (u.port p).wait = some false ∧ u.pst p = stListen) ∧
      (u.f (F.CAL_PORT_STAT_state p) = 3 ∧ u.f (F.CAL_PORT_STAT_result p) = if allAccepted sets .full (fun c => (s.calSet bkAttic p c.kind c.family).map (·.vals)) then 1 else 2) ∧
      u.cal.seqs.getD (seqOf p) [] = (s.cal.seqs.getD (seqOf p) []).filter (· != p.val) ∧
      (s.cal.full = [p.val] → u.f F.CAL_STAT_anneal = 2 ∧ u.raised R.CAL_EVENT 0 = true) ∧
      Frame [.TB_STAT, .TB_EVENT, .CAL_STAT, .CAL_ATTIC_CTL, .CAL_REJECTS, .CAL_EVENT, .CAL_PORT_STAT, .CAL_PORT_QUAL, .CAL_PORT_TIME, .DIAG_LEDGER_STAT, .DIAG_EVENT, .BND_STAT, .BND_EVENT, .BND_PAIR_STAT, .CANE_STAT, .CANE_EVENT, .WAKE_PENDING, .PORT_CTL, .PORT_STATE, .PORT_PARTNER_ABIL, .PORT_PARTNER_FLAGS, .PORT_PARTNER_ID, .PORT_PARTNER_REF_ABIL, .PORT_PARTNER_REF_FLAGS, .PORT_PARTNER_REF_ID, .PORT_LINK_QUAL, .PORT_MSE_REF, .PORT_DROP_COUNT, .PORT_DROP_HIST_IDX, .PORT_DROP_HIST, .PORT_EVENT, .PORT_X50_STAT, .PORT_AM_STAT, .PORT_LOOP_STAT, .PORT_SEG_STAT, .PORT_LPI_STAT, .PORT_TC10_STAT] (linkParts ++ [.flash, .power, .draws]) s u ∧ (s.caneOf p = none → OnlyPort p s u)) ∧
  -- BACKGROUND_ANNEAL_OFFER of one set on a live segment: pending, or rejected with CAL_REJECT, the count and the
  -- event.
  (∀ (p : Port) (sets : List CalSet) (s : State),
    s.ok = true → s.linkUp p = true → s.heldByLedger p = false → s.portQuiet p = false → portClass p = .segment → sets.length = 1 →
    Acts (.backgroundAnnealOffer p sets) s fun u =>
      ((match sets with | [c] => (perFamily c.kind || decide (elements p c.kind = 0) || decide (c.vals.length ≠ elements p c.kind) || decide (3 ≤ c.family && perFamily c.kind) || (match setFailure c .background (some (s.calActive p c.kind c.family)) with | some (i, r) => decide (u.f F.CAL_REJECTS_count = min (s.f F.CAL_REJECTS_count + 1) (2 ^ 32 - 1) ∧ u.raised R.CAL_EVENT 2 = true) && (u.intake.any fun m => m == ⟨0x14, 0x13, 1, r * 512 + c.kind * 32, calWord1 p c i⟩) | none => decide (u.calSet bkPending p c.kind c.family = some c))) | _ => true) = true) ∧
      OnlyWords [R.CAL_ATTIC_CTL, R.CAL_REJECTS, R.CAL_EVENT, R.CAL_PORT_STAT p, R.CAL_PORT_QUAL p, R.CAL_PORT_TIME p] s u ∧ Keeps [.windows, .calibration, .flash, .messages] s u) ∧
  -- BACKGROUND_ANNEAL_OFFER of any sets on any live port leaves it live; nothing of what is in force changes
  -- before its boundary.
  (∀ (p : Port) (sets : List CalSet) (s : State),
    s.ok = true → s.linkUp p = true → s.heldByLedger p = false → s.portQuiet p = false →
    Acts (.backgroundAnnealOffer p sets) s fun u =>
      u.pst p = s.pst p ∧
      s.f F.CAL_REJECTS_count ≤ u.f F.CAL_REJECTS_count ∧
      u.bankSets bkActive p = s.bankSets bkActive p ∧
      OnlyWords [R.CAL_ATTIC_CTL, R.CAL_REJECTS, R.CAL_EVENT, R.CAL_PORT_STAT p, R.CAL_PORT_QUAL p, R.CAL_PORT_TIME p] s u ∧ Keeps [.windows, .calibration, .flash, .messages] s u) ∧
  -- PENDING_SET_APPLY at a boundary of the port: every pending set is in force; at a codeword boundary those that
  -- are hitless.
  (∀ (p : Port) (at_ : Boundary) (s : State),
    s.ok = true →
    ((match at_ with | .quiet => decide (s.linkUp p = false) | .lpi => decide (s.pst p = stLpi) | .idleGap | .codeword => decide (s.pst p = stUp)) = true) →
    Acts (.pendingSetApply p at_) s fun u =>
      (s.bankSets bkPending p = [] → u.cal = s.cal) ∧
      (at_ ≠ .codeword → s.bankSets bkPending p ≠ [] → u.f (F.CAL_PORT_STAT_pending p) = 0) ∧
      (s.cal.sets.sorted = true → ∀ e ∈ s.bankSets bkPending p, (at_ ≠ .codeword ∨ s.hitless p e.2 = true) → u.cal.sets.get? (e.1 - calKey bkPending p 0 0 + calKey bkActive p 0 0) = some e.2) ∧
      OnlyWords [R.CAL_PORT_STAT p, R.CAL_PORT_QUAL p] s u ∧ Keeps [.calibration] s u) ∧
  -- STRUCT_WAIT of a set that is not hitless raises its event once.
  (∀ (p : Port) (kind : BitVec 4) (family : BitVec 2) (s : State),
    s.ok = true →
    ((match s.cal.sets.get? (calKey bkPending p kind.toNat (if perFamily kind.toNat then family.toNat else 0)) with | some c => !s.hitless p c && !s.cal.waited.contains (calKey bkPending p kind.toNat (if perFamily kind.toNat then family.toNat else 0)) | none => false) = true) →
    Acts (.structWait p kind family) s fun u =>
      u.raised R.CAL_EVENT 4 = true ∧
      (u.cal.waited = calKey bkPending p kind.toNat (if perFamily kind.toNat then family.toNat else 0) :: s.cal.waited) ∧
      OnlyWords [R.CAL_EVENT] s u ∧ Keeps [.windows, .calibration] s u)

/-- Foreground anneals and attic writes (R275, R276, R277, R281, R282). -/
def Obligations.AnnealsAndAttic : Prop :=
  -- PORT_ANNEAL_START stores its settings and is refused STATE in SLEEP or FAULT, BUSY in UP without force; a
  -- segment in LISTEN runs with the ledger empty.
  (∀ (path : Path) (p : Port) (noWait : BitVec 1) (force : BitVec 1) (s : State),
    s.ok = true → Granted path (R.CAL_PORT_CTL p) s → s.f (F.CAL_PORT_STAT_state p) ≠ 1 → s.f (F.CAL_PORT_STAT_state p) ≠ 2 →
    Acts (.portAnnealStart path p noWait force) s fun u =>
      u.f (F.CAL_PORT_CTL_force p) = force.toNat ∧
      u.f (F.CAL_PORT_CTL_no_wait p) = noWait.toNat ∧
      (s.pst p = stSleep ∨ s.pst p = stFault → u.f (F.CAL_PORT_STAT_state p) = 4 ∧ u.f (F.CAL_PORT_STAT_result p) = 4) ∧
      (s.pst p = stUp → s.domOn (portDomain p) = true → force.toNat = 0 → u.f (F.CAL_PORT_STAT_state p) = 4 ∧ u.f (F.CAL_PORT_STAT_result p) = 3) ∧
      (s.pst p = stListen → s.domOn (portDomain p) = true → portClass p = .segment → s.ledger.books = [] → s.ledger.queue = [] → u.f (F.CAL_PORT_STAT_state p) = 2 ∧ (u.port p).fg = true) ∧
      Frame [.TB_STAT, .TB_EVENT, .CAL_EVENT, .CAL_PORT_CTL, .CAL_PORT_STAT, .CAL_PORT_QUAL, .DIAG_LEDGER_STAT, .DIAG_EVENT, .BND_STAT, .BND_EVENT, .BND_PAIR_STAT, .CANE_STAT, .CANE_EVENT, .WAKE_PENDING, .PORT_CTL, .PORT_STATE, .PORT_PARTNER_ABIL, .PORT_PARTNER_FLAGS, .PORT_PARTNER_ID, .PORT_LINK_QUAL, .PORT_MSE_REF, .PORT_DROP_COUNT, .PORT_DROP_HIST_IDX, .PORT_DROP_HIST, .PORT_EVENT, .PORT_X50_STAT, .PORT_AM_STAT, .PORT_LOOP_STAT, .PORT_SEG_STAT, .PORT_LPI_STAT, .PORT_TC10_STAT] (linkParts ++ [.draws]) s u ∧ (s.caneOf p = none → OnlyPort p s u)) ∧
  -- PORT_ANNEAL_STOP: ABORTED.
  (∀ (path : Path) (p : Port) (s : State),
    s.ok = true → Granted path (R.CAL_PORT_CTL p) s →
    Acts (.portAnnealStop path p) s fun u =>
      ((s.port p).fg = true → (u.port p).fg = false ∧ u.raised R.CAL_EVENT 7 = true) ∧
      ((s.port p).fg = true ∨ s.f (F.CAL_PORT_STAT_state p) = 1 → u.f (F.CAL_PORT_STAT_state p) = 3 ∧ u.f (F.CAL_PORT_STAT_result p) = 7) ∧
      OnlyIn [R.CAL_EVENT, R.CAL_PORT_STAT p] [.BND_STAT, .BND_EVENT, .BND_PAIR_STAT] s u ∧ Keeps [.windows, .ports, .bundles, .furnace, .ledger, .messages] s u) ∧
  -- PORT_ANNEAL_DONE in DISABLED or LISTEN: ACCEPTED where every set is accepted, else PARTIAL, with its event.
  (∀ (p : Port) (sets : List CalSet) (s : State),
    s.ok = true → (s.port p).fg = true → s.pst p = stDisabled ∨ s.pst p = stListen →
    Acts (.portAnnealDone p sets) s fun u =>
      (u.port p).fg = false ∧
      u.f (F.CAL_PORT_STAT_state p) = 3 ∧
      (u.f (F.CAL_PORT_STAT_result p) = if allAccepted sets .full (fun c => (s.calSet bkActive p c.kind c.family).map (·.vals)) then 1 else 2) ∧
      u.raised R.CAL_EVENT 7 = true ∧
      Frame [.TB_STAT, .TB_EVENT, .CAL_ATTIC_CTL, .CAL_REJECTS, .CAL_EVENT, .CAL_PORT_STAT, .CAL_PORT_QUAL, .CAL_PORT_TIME, .BND_STAT, .BND_EVENT, .BND_PAIR_STAT, .CANE_STAT, .CANE_EVENT, .WAKE_PENDING, .PORT_CTL, .PORT_STATE, .PORT_PARTNER_ABIL, .PORT_PARTNER_FLAGS, .PORT_PARTNER_ID, .PORT_LINK_QUAL, .PORT_MSE_REF, .PORT_DROP_COUNT, .PORT_DROP_HIST_IDX, .PORT_DROP_HIST, .PORT_EVENT, .PORT_X50_STAT, .PORT_AM_STAT, .PORT_LOOP_STAT, .PORT_SEG_STAT, .PORT_LPI_STAT, .PORT_TC10_STAT] (linkParts ++ [.flash, .draws]) s u ∧ (s.caneOf p = none → OnlyPort p s u)) ∧
  -- ATTIC_WRITE begins: write reads 1, the older copy is erased.
  (∀ (path : Path) (s : State),
    s.ok = true → Granted path (R.CAL_ATTIC_CTL) s → s.bit F.CAL_ATTIC_CTL_write = false → s.cal.newer ≤ 1 →
    Acts (.atticWrite path) s fun u =>
      u.f F.CAL_ATTIC_CTL_write = 1 ∧
      Erased (atticBase (1 - s.cal.newer)) 0x20000 u.flash ∧
      SameOutside erased (atticBase (1 - s.cal.newer)) 0x20000 s.flash u.flash ∧
      OnlyWords [R.CAL_ATTIC_CTL] s u ∧ Keeps [.calibration, .flash, .messages] s u) ∧
  -- ATTIC_WRITE_DONE: OK with the generation on, or FAIL.
  (∀ (ok : Bool) (s : State),
    s.ok = true → s.bit F.CAL_ATTIC_CTL_write = true →
    Acts (.atticWriteDone ok) s fun u =>
      u.f F.CAL_ATTIC_CTL_write = 0 ∧
      (u.f F.CAL_ATTIC_CTL_result = if ok then 1 else 2) ∧
      (ok = true → u.reg R.CAL_ATTIC_GEN = s.reg R.CAL_ATTIC_GEN + 1 ∧ u.cal.newer = 1 - s.cal.newer ∧ u.raised R.CAL_EVENT 5 = true) ∧
      (ok = false → u.raised R.CAL_EVENT 6 = true ∧ u.reg R.CAL_ATTIC_GEN = s.reg R.CAL_ATTIC_GEN ∧ u.flash = s.flash) ∧
      SameOutside erased (atticBase (1 - s.cal.newer)) 0x20000 s.flash u.flash ∧
      OnlyWords [R.CAL_STAT, R.CAL_ATTIC_GEN, R.CAL_ATTIC_CTL, R.CAL_EVENT] s u ∧ Keeps [.windows, .calibration, .flash, .messages, .draws] s u)

/-- TDR, insertion loss and reference profiles (R294, R291, R299, R300, R303). -/
def Obligations.CableTests : Prop :=
  -- TDR_START: refused STATE in FAULT; runs in LISTEN outside a cane with the ledger empty.
  (∀ (path : Path) (p : Port) (noWait : BitVec 1) (force : BitVec 1) (s : State),
    s.ok = true → Granted path (R.DIAG_TDR_CTL p) s → s.f (F.DIAG_TDR_STAT_state p) ≠ 1 → s.f (F.DIAG_TDR_STAT_state p) ≠ 2 →
    Acts (.tdrStart path p noWait force) s fun u =>
      u.f (F.DIAG_TDR_CTL_force p) = force.toNat ∧
      (s.pst p = stFault → u.f (F.DIAG_TDR_STAT_state p) = 4 ∧ u.f (F.DIAG_TDR_STAT_result p) = 4) ∧
      (s.pst p = stListen → s.caneOf p = none → s.domOn (portDomain p) = true → s.mayTransmit p = true → s.ledger.books = [] → s.ledger.queue = [] → u.f (F.DIAG_TDR_STAT_state p) = 2 ∧ u.f (F.DIAG_TDR_STAT_result p) = 0) ∧
      Frame [.TB_STAT, .TB_EVENT, .CAL_PORT_STAT, .CAL_PORT_QUAL, .DIAG_LEDGER_STAT, .DIAG_EVENT, .DIAG_TDR_CTL, .DIAG_TDR_STAT, .BND_STAT, .BND_EVENT, .BND_PAIR_STAT, .CANE_STAT, .CANE_EVENT, .WAKE_PENDING, .PORT_CTL, .PORT_STATE, .PORT_PARTNER_ABIL, .PORT_PARTNER_FLAGS, .PORT_PARTNER_ID, .PORT_LINK_QUAL, .PORT_MSE_REF, .PORT_DROP_COUNT, .PORT_DROP_HIST_IDX, .PORT_DROP_HIST, .PORT_EVENT, .PORT_X50_STAT, .PORT_AM_STAT, .PORT_LOOP_STAT, .PORT_SEG_STAT, .PORT_LPI_STAT, .PORT_TC10_STAT] (linkParts ++ [.draws]) s u ∧ (s.caneOf p = none → OnlyPort p s u)) ∧
  -- TDR_STOP: ABORTED.
  (∀ (path : Path) (p : Port) (s : State),
    s.ok = true → Granted path (R.DIAG_TDR_CTL p) s → s.f (F.DIAG_TDR_STAT_state p) = 1 ∨ s.f (F.DIAG_TDR_STAT_state p) = 2 →
    Acts (.tdrStop path p) s fun u =>
      u.f (F.DIAG_TDR_STAT_state p) = 3 ∧
      u.f (F.DIAG_TDR_STAT_result p) = 2 ∧
      Frame [.TB_STAT, .TB_EVENT, .CAL_PORT_STAT, .CAL_PORT_QUAL, .DIAG_TDR_STAT, .BND_STAT, .BND_EVENT, .BND_PAIR_STAT, .CANE_STAT, .CANE_EVENT, .WAKE_PENDING, .PORT_CTL, .PORT_STATE, .PORT_PARTNER_ABIL, .PORT_PARTNER_FLAGS, .PORT_PARTNER_ID, .PORT_LINK_QUAL, .PORT_MSE_REF, .PORT_DROP_COUNT, .PORT_DROP_HIST_IDX, .PORT_DROP_HIST, .PORT_EVENT, .PORT_X50_STAT, .PORT_AM_STAT, .PORT_LOOP_STAT, .PORT_SEG_STAT, .PORT_LPI_STAT, .PORT_TC10_STAT] (linkParts ++ [.draws]) s u ∧ (s.caneOf p = none → OnlyPort p s u)) ∧
  -- TDR_DONE: OK with clean percentage, events and summary as captured; NOISY below half of the windows.
  (∀ (p : Port) (found : TdrData) (s : State),
    s.ok = true → s.f (F.DIAG_TDR_STAT_state p) = 2 →
    Acts (.tdrDone p found) s fun u =>
      u.f (F.DIAG_TDR_STAT_state p) = 3 ∧
      u.f (F.DIAG_TDR_STAT_result p) = 1 ∧
      (u.f (F.DIAG_TDR_STAT_clean_pct p) = if found.windows = 0 then 0 else min 100 (100 * found.clean / found.windows)) ∧
      (2 * found.clean < found.windows → u.f (F.DIAG_TDR_STAT_summary p) = 5 ∧ u.f (F.DIAG_TDR_STAT_events p) = 0) ∧
      (found.windows ≤ 2 * found.clean → u.f (F.DIAG_TDR_STAT_events p) = (tdrEvents (s.f F.DIAG_TDR_CFG_step_thresh) found.reflections).length) ∧
      (found.windows ≤ 2 * found.clean → u.f (F.DIAG_TDR_STAT_summary p) = tdrSummary (tdrEvents (s.f F.DIAG_TDR_CFG_step_thresh) found.reflections)) ∧
      u.raised R.DIAG_EVENT 0 = true ∧
      SameOutside erased (shelfBase p) 0x4000 s.flash u.flash ∧
      Frame [.TB_STAT, .TB_EVENT, .CAL_PORT_STAT, .CAL_PORT_QUAL, .DIAG_EVENT, .DIAG_TDR_STAT, .DIAG_TDR_EVT, .DIAG_FP_STAT, .DIAG_FP_CTL, .BND_STAT, .BND_EVENT, .BND_PAIR_STAT, .CANE_STAT, .CANE_EVENT, .WAKE_PENDING, .PORT_CTL, .PORT_STATE, .PORT_PARTNER_ABIL, .PORT_PARTNER_FLAGS, .PORT_PARTNER_ID, .PORT_LINK_QUAL, .PORT_MSE_REF, .PORT_DROP_COUNT, .PORT_DROP_HIST_IDX, .PORT_DROP_HIST, .PORT_EVENT, .PORT_X50_STAT, .PORT_AM_STAT, .PORT_LOOP_STAT, .PORT_SEG_STAT, .PORT_LPI_STAT, .PORT_TC10_STAT] (linkParts ++ [.diagnostics, .flash, .draws]) s u ∧ (s.caneOf p = none → OnlyPort p s u)) ∧
  -- IL_ESTIMATE in UP: estimate, limit, valid, and the event above the margin.
  (∀ (p : Port) (loss : BitVec 16) (limit : BitVec 16) (s : State),
    s.ok = true → s.pst p = stUp → portClass p ≠ .segment →
    Acts (.ilEstimate p loss limit) s fun u =>
      u.f (F.DIAG_IL_estimate p) = loss.toNat % 2 ^ 15 ∧
      u.f (F.DIAG_IL_valid p) = 1 ∧
      (s.pmode p ≠ 7 → u.f (F.DIAG_IL_limit p) = limit.toNat) ∧
      (s.pmode p ≠ 7 → limit.toNat < loss.toNat + s.f F.DIAG_IL_CFG_margin → s.diag.high.contains p.val = false → u.raised R.DIAG_EVENT 4 = true) ∧
      OnlyWords [R.DIAG_EVENT, R.DIAG_IL p] s u ∧ Keeps [.windows, .diagnostics] s u) ∧
  -- FP_CLEAR: no reference in cache or flash.
  (∀ (path : Path) (p : Port) (s : State),
    s.ok = true → Granted path (R.DIAG_FP_CTL p) s → s.diag.refs.sorted = true →
    Acts (.fpClear path p) s fun u =>
      u.f (F.DIAG_FP_STAT_ref p) = 0 ∧
      u.diag.refs.get? p = none ∧
      Erased (shelfBase p) 0x2000 u.flash ∧
      SameOutside erased (shelfBase p) 0x2000 s.flash u.flash ∧
      OnlyWords [R.DIAG_FP_STAT p, R.DIAG_FP_CTL p] s u ∧ Keeps [.diagnostics, .flash, .messages] s u) ∧
  -- FP_CAPTURE asks for the next profile.
  (∀ (path : Path) (p : Port) (s : State),
    s.ok = true → Granted path (R.DIAG_FP_CTL p) s →
    Acts (.fpCapture path p) s fun u =>
      u.f (F.DIAG_FP_CTL_capture p) = 1 ∧
      u.diag = s.diag ∧
      OnlyWords [R.DIAG_FP_STAT p, R.DIAG_FP_CTL p] s u ∧ Keeps [.diagnostics, .flash, .messages] s u)

/-- The bundle sweep and the FLASH booking (R286, R291, R307, R308, R309). -/
def Obligations.SweepsAndFlashBooking : Prop :=
  -- SWEEP_START of an allowed set: refused with position and code, or, with the ledger empty, running and fired.
  (∀ (path : Path) (cg : BitVec 5) (noWait : BitVec 1) (force : BitVec 1) (s : State),
    s.ok = true → Granted path (R.DIAG_SWEEP_CTL) s → s.f F.DIAG_SWEEP_STAT_state ≠ 1 → s.f F.DIAG_SWEEP_STAT_state ≠ 2 → s.sweepSetOk = true →
    Acts (.sweepStart path cg noWait force) s fun u =>
      u.f F.DIAG_SWEEP_CTL_cg = cg.toNat ∧
      ((match s.sweepRefusal with | some e => decide (force.toNat = s.f F.DIAG_SWEEP_CTL_force → u.f F.DIAG_SWEEP_STAT_state = 4 ∧ u.f F.DIAG_SWEEP_STAT_result = e.2 ∧ u.f F.DIAG_SWEEP_STAT_bad_pos = e.1) | none => decide (force.toNat = s.f F.DIAG_SWEEP_CTL_force → s.ledger.books = [] → s.ledger.queue = [] → u.f F.DIAG_SWEEP_STAT_state = 2 ∧ u.diag.sweep = s.sweepSet ∧ u.diag.fired = true)) = true) ∧
      Frame [.TB_STAT, .TB_EVENT, .CAL_PORT_STAT, .CAL_PORT_QUAL, .DIAG_LEDGER_STAT, .DIAG_EVENT, .DIAG_SWEEP_CTL, .DIAG_SWEEP_STAT, .BND_STAT, .BND_EVENT, .BND_PAIR_STAT, .CANE_STAT, .CANE_EVENT, .WAKE_PENDING, .PORT_CTL, .PORT_STATE, .PORT_PARTNER_ABIL, .PORT_PARTNER_FLAGS, .PORT_PARTNER_ID, .PORT_LINK_QUAL, .PORT_MSE_REF, .PORT_DROP_COUNT, .PORT_DROP_HIST_IDX, .PORT_DROP_HIST, .PORT_EVENT, .PORT_X50_STAT, .PORT_AM_STAT, .PORT_LOOP_STAT, .PORT_SEG_STAT, .PORT_LPI_STAT, .PORT_TC10_STAT] (linkParts ++ [.diagnostics, .draws]) s u) ∧
  -- SWEEP_ARM: the same, and an armed sweep is not yet fired.
  (∀ (path : Path) (cg : BitVec 5) (noWait : BitVec 1) (force : BitVec 1) (s : State),
    s.ok = true → Granted path (R.DIAG_SWEEP_CTL) s → s.f F.DIAG_SWEEP_STAT_state ≠ 1 → s.f F.DIAG_SWEEP_STAT_state ≠ 2 → s.sweepSetOk = true →
    Acts (.sweepArm path cg noWait force) s fun u =>
      u.f F.DIAG_SWEEP_CTL_cg = cg.toNat ∧
      ((match s.sweepRefusal with | some e => decide (force.toNat = s.f F.DIAG_SWEEP_CTL_force → u.f F.DIAG_SWEEP_STAT_state = 4 ∧ u.f F.DIAG_SWEEP_STAT_result = e.2 ∧ u.f F.DIAG_SWEEP_STAT_bad_pos = e.1) | none => decide (force.toNat = s.f F.DIAG_SWEEP_CTL_force → s.ledger.books = [] → s.ledger.queue = [] → u.f F.DIAG_SWEEP_STAT_state = 2 ∧ u.diag.sweep = s.sweepSet ∧ u.diag.fired = false)) = true) ∧
      Frame [.TB_STAT, .TB_EVENT, .CAL_PORT_STAT, .CAL_PORT_QUAL, .DIAG_LEDGER_STAT, .DIAG_EVENT, .DIAG_SWEEP_CTL, .DIAG_SWEEP_STAT, .BND_STAT, .BND_EVENT, .BND_PAIR_STAT, .CANE_STAT, .CANE_EVENT, .WAKE_PENDING, .PORT_CTL, .PORT_STATE, .PORT_PARTNER_ABIL, .PORT_PARTNER_FLAGS, .PORT_PARTNER_ID, .PORT_LINK_QUAL, .PORT_MSE_REF, .PORT_DROP_COUNT, .PORT_DROP_HIST_IDX, .PORT_DROP_HIST, .PORT_EVENT, .PORT_X50_STAT, .PORT_AM_STAT, .PORT_LOOP_STAT, .PORT_SEG_STAT, .PORT_LPI_STAT, .PORT_TC10_STAT] (linkParts ++ [.diagnostics, .draws]) s u) ∧
  -- SWEEP_STOP: ABORTED and disarmed.
  (∀ (path : Path) (s : State),
    s.ok = true → Granted path (R.DIAG_SWEEP_CTL) s → s.f F.DIAG_SWEEP_STAT_state = 1 ∨ s.f F.DIAG_SWEEP_STAT_state = 2 →
    Acts (.sweepStop path) s fun u =>
      u.f F.DIAG_SWEEP_STAT_state = 3 ∧
      u.f F.DIAG_SWEEP_STAT_result = 2 ∧
      u.f F.DIAG_SWEEP_CTL_arm = 0 ∧
      Frame [.TB_STAT, .TB_EVENT, .CAL_PORT_STAT, .CAL_PORT_QUAL, .DIAG_SWEEP_CTL, .DIAG_SWEEP_STAT, .BND_STAT, .BND_EVENT, .BND_PAIR_STAT, .CANE_STAT, .CANE_EVENT, .WAKE_PENDING, .PORT_CTL, .PORT_STATE, .PORT_PARTNER_ABIL, .PORT_PARTNER_FLAGS, .PORT_PARTNER_ID, .PORT_LINK_QUAL, .PORT_MSE_REF, .PORT_DROP_COUNT, .PORT_DROP_HIST_IDX, .PORT_DROP_HIST, .PORT_EVENT, .PORT_X50_STAT, .PORT_AM_STAT, .PORT_LOOP_STAT, .PORT_SEG_STAT, .PORT_LPI_STAT, .PORT_TC10_STAT] (linkParts ++ [.diagnostics, .draws]) s u) ∧
  -- SWEEP_DONE: OK, the map entry of the last pair as measured, entries not measured zero, the members free.
  (∀ (pairs : List Coupling) (profiles : List (Fin 8 × TdrData)) (s : State),
    s.ok = true → s.f F.DIAG_SWEEP_STAT_state = 2 → s.diag.fired = true →
    Acts (.sweepDone pairs profiles) s fun u =>
      u.f F.DIAG_SWEEP_STAT_state = 3 ∧
      u.f F.DIAG_SWEEP_STAT_result = 1 ∧
      u.raised R.DIAG_EVENT 1 = true ∧
      u.diag.sweep = [] ∧
      (∀ c ∈ pairs.getLast?.toList, u.reg (R.DIAG_MAP (c.a.val * 8 + c.v.val)) = BitVec.ofNat 32 ((if c.noisy then 3 else if 600 < c.loss ∨ s.f F.DIAG_SWEEP_CFG_share_db < c.loss then 1 else 2) + 2 ^ 16 * (if 600 < c.loss then 0xFFFF else c.loss))) ∧
      (∀ i : Fin 64, (pairs.any fun c => c.a.val * 8 + c.v.val == i.val) = false → u.reg (R.DIAG_MAP i) = 0 ∧ u.reg (R.DIAG_MAP i + 4) = 0) ∧
      Frame [.TB_STAT, .TB_EVENT, .CAL_PORT_STAT, .CAL_PORT_QUAL, .DIAG_EVENT, .DIAG_SWEEP_CTL, .DIAG_SWEEP_STAT, .DIAG_MAP, .DIAG_TDR_STAT, .DIAG_TDR_EVT, .DIAG_FP_STAT, .DIAG_FP_CTL, .BND_STAT, .BND_EVENT, .BND_PAIR_STAT, .CANE_STAT, .CANE_EVENT, .WAKE_PENDING, .PORT_CTL, .PORT_STATE, .PORT_PARTNER_ABIL, .PORT_PARTNER_FLAGS, .PORT_PARTNER_ID, .PORT_LINK_QUAL, .PORT_MSE_REF, .PORT_DROP_COUNT, .PORT_DROP_HIST_IDX, .PORT_DROP_HIST, .PORT_EVENT, .PORT_X50_STAT, .PORT_AM_STAT, .PORT_LOOP_STAT, .PORT_SEG_STAT, .PORT_LPI_STAT, .PORT_TC10_STAT] (linkParts ++ [.diagnostics, .flash, .draws]) s u) ∧
  -- FLASH_BOOK_REQUEST with the ledger empty is granted; with a booking that clashes it waits.
  (∀ (path : Path) (s : State),
    s.ok = true → Granted path (R.DIAG_FLASH_BOOK) s → s.bit F.DIAG_FLASH_BOOK_request = false →
    Acts (.flashBookRequest path) s fun u =>
      (s.ledger.books = [] → s.ledger.queue = [] → u.f F.DIAG_FLASH_BOOK_request = 1 ∧ u.f F.DIAG_FLASH_BOOK_granted = 1 ∧ u.ledger.books = [flashBooking]) ∧
      (s.ledger.books.any flashBooking.clashes = true → s.ledger.queue = [] → u.f F.DIAG_FLASH_BOOK_request = 1 ∧ u.ledger.books = s.ledger.books ∧ u.ledger.queue = [flashBooking]) ∧
      OnlyWords [R.DIAG_LEDGER_STAT, R.DIAG_FLASH_BOOK, R.DIAG_EVENT] s u ∧ Keeps [.windows, .ledger, .messages] s u) ∧
  -- FLASH_BOOK_RELEASE gives it up.
  (∀ (path : Path) (s : State),
    s.ok = true → Granted path (R.DIAG_FLASH_BOOK) s →
    Acts (.flashBookRelease path) s fun u =>
      u.f F.DIAG_FLASH_BOOK_request = 0 ∧
      u.f F.DIAG_FLASH_BOOK_granted = 0 ∧
      (s.ledger.books = [flashBooking] → u.ledger.books = []) ∧
      OnlyWords [R.DIAG_FLASH_BOOK] s u ∧ Keeps [.ledger, .messages] s u)

/-- Entry to and exit from LPI, outside a cane (R310, R311, R312, R313, R314, R315, R318). -/
def Obligations.LowPowerIdle : Prop :=
  -- LPI_ENTRY of an idle agreed port: transmit LPI, state LPI where both directions are quiet.
  (∀ (p : Port) (s : State),
    s.ok = true → s.lpiAgreed p = true → portClass p ≠ .segment → s.caneOf p = none → s.pst p = stUp →
    s.bit (F.PORT_LPI_CFG_lpi_allow p) = true → (s.port p).localSleep = false → (s.port p).partnerSleep = false → (s.port p).exiting = false →
    (s.port p).txq = [] → (s.port p).sending = none →
    Acts (.lpiEntry p) s fun u =>
      u.f (F.PORT_LPI_STAT_tx_lpi p) = 1 ∧
      Sent (.line p "lpi" 1) s u ∧
      (s.bit (F.PORT_LPI_STAT_rx_lpi p) = true → u.pst p = stLpi ∧ u.raised (R.PORT_TC10_EVENT p) 5 = true) ∧
      (s.bit (F.PORT_LPI_STAT_rx_lpi p) = false → u.pst p = stUp) ∧
      OnlyIn [R.PORT_STATE p, R.PORT_LPI_STAT p, R.PORT_LPI_ENTRIES p, R.PORT_TC10_EVENT p] [.BND_STAT, .BND_EVENT, .BND_PAIR_STAT] s u ∧ Keeps [.windows, .bundles, .furnace, .sent] s u) ∧
  -- RECEIVE_QUIET: receive LPI likewise.
  (∀ (p : Port) (s : State),
    s.ok = true → s.lpiAgreed p = true → portClass p ≠ .segment → s.caneOf p = none → s.pst p = stUp →
    Acts (.receiveQuiet p) s fun u =>
      u.f (F.PORT_LPI_STAT_rx_lpi p) = 1 ∧
      (s.bit (F.PORT_LPI_STAT_tx_lpi p) = true → u.pst p = stLpi) ∧
      (s.bit (F.PORT_LPI_STAT_tx_lpi p) = false → u.pst p = stUp) ∧
      OnlyIn [R.PORT_STATE p, R.PORT_LPI_STAT p, R.PORT_LPI_ENTRIES p, R.PORT_TC10_EVENT p] [.BND_STAT, .BND_EVENT, .BND_PAIR_STAT] s u ∧ Keeps [.windows, .bundles, .furnace] s u) ∧
  -- LPI_EARLY_EXIT: the wake signal of the mode is sent and the exit runs.
  (∀ (p : Port) (s : State),
    s.ok = true → s.caneOf p = none → s.linkUp p = true → s.bit (F.PORT_LPI_STAT_tx_lpi p) = true →
    Acts (.lpiEarlyExit p) s fun u =>
      u.f (F.PORT_LPI_STAT_tx_lpi p) = 0 ∧
      (u.port p).exiting = true ∧
      (s.pmode p = 7 → Sent (.line p "pam2_burst" 2000) s u ∧ Sent (.line p "pam6_idle" 0) s u) ∧
      (s.pmode p ≠ 7 → Sent (.line p "wake" 1) s u) ∧
      OnlyIn [R.PORT_LPI_STAT p] [.BND_STAT, .BND_EVENT, .BND_PAIR_STAT] s u ∧ Keeps [.windows, .ports, .bundles, .furnace, .sent] s u) ∧
  -- LPI_WAKE_SIGNAL ends receive LPI, and in LPI begins the exit.
  (∀ (p : Port) (s : State),
    s.ok = true → s.caneOf p = none → s.linkUp p = true → s.bit (F.PORT_LPI_STAT_rx_lpi p) = true →
    Acts (.lpiWakeSignal p) s fun u =>
      u.f (F.PORT_LPI_STAT_rx_lpi p) = 0 ∧
      (s.pst p = stLpi → (u.port p).exiting = true ∧ u.f (F.PORT_LPI_STAT_tx_lpi p) = 0) ∧
      OnlyIn [R.PORT_LPI_STAT p] [.BND_STAT, .BND_EVENT, .BND_PAIR_STAT] s u ∧ Keeps [.windows, .ports, .bundles, .furnace] s u) ∧
  -- LPI_EXIT_COMPLETE with the pots in place: UP, no longer deep.
  (∀ (p : Port) (s : State),
    s.ok = true → s.caneOf p = none → s.linkUp p = true → (s.port p).exiting = true → (s.port p).returned = false →
    Acts (.lpiExitComplete p) s fun u =>
      u.pst p = stUp ∧
      (u.port p).exiting = false ∧
      u.f (F.PORT_LPI_STAT_deep p) = 0 ∧
      u.f (F.PORT_LPI_STAT_tx_lpi p) = 0 ∧
      OnlyIn [R.PORT_STATE p, R.PORT_PARTNER_REF_ABIL p, R.PORT_PARTNER_REF_FLAGS p, R.PORT_PARTNER_REF_ID p, R.PORT_PARTNER_REF_ID p + 4, R.PORT_EVENT p, R.PORT_LPI_STAT p] [.BND_STAT, .BND_EVENT, .BND_PAIR_STAT] s u ∧ Keeps [.windows, .ports, .bundles, .furnace, .power] s u) ∧
  -- QUICK_REFRESH in X50 LPI sends the refresh of a port in no bundle, and that of every bundle member in X50 LPI
  -- on the instants of the lowest position.
  (∀ (p : Port) (s : State),
    s.ok = true → s.pst p = stLpi → s.pmode p = 7 → s.bit (F.PORT_LPI_STAT_quick p) = true →
    Acts (.quickRefresh p) s fun u =>
      (s.bundleOf p = none → Sent (.line p "quick_refresh" 6) s u) ∧
      ((s.refreshWith p).head? = some p.val → (∀ g ∈ s.refreshWith p, Sent (.line g "quick_refresh" 6) s u)) ∧
      Frame [.BND_STAT, .BND_EVENT, .BND_PAIR_STAT] [.windows, .ports, .bundles, .furnace, .sent] s u) ∧
  -- DEEP_LPI_ENTRY: deep with its event.
  (∀ (p : Port) (s : State),
    s.ok = true → s.pst p = stLpi → s.bit (F.PORT_LPI_CFG_deep_en p) = true → s.bit (F.PORT_LPI_STAT_deep p) = false →
    Acts (.deepLpiEntry p) s fun u =>
      u.f (F.PORT_LPI_STAT_deep p) = 1 ∧
      u.raised (R.PORT_TC10_EVENT p) 6 = true ∧
      u.pst p = stLpi ∧
      OnlyWords [R.PORT_LPI_STAT p, R.PORT_TC10_EVENT p] s u ∧ Keeps [.windows] s u) ∧
  -- LPI_EXIT_TIMEOUT: a link drop with cause 5.
  (∀ (p : Port) (s : State),
    s.ok = true → s.linkUp p = true → (s.port p).localSleep = false → (s.port p).partnerSleep = false → s.caneOf p = none →
    (s.port p).exiting = true →
    Acts (.lpiExitTimeout p) s fun u =>
      ((s.flapTrips p 5 = true → u.pst p = stFault) ∧ (s.flapTrips p 5 = false → u.pst p = stListen)) ∧
      Raised ⟨0x40 + p, kLinkDrop, 0, 5 + 256 * b2n (s.flapTrips p 5), p⟩ s u ∧
      u.f (F.PORT_DROP_COUNT_count p) = min (s.f (F.PORT_DROP_COUNT_count p) + 1) (2 ^ 32 - 1) ∧
      u.raised (R.PORT_EVENT p) 1 = true ∧
      Frame [.TB_STAT, .TB_EVENT, .CAL_PORT_STAT, .CAL_PORT_QUAL, .BND_STAT, .BND_EVENT, .BND_PAIR_STAT, .CANE_STAT, .CANE_EVENT, .WAKE_PENDING, .PORT_CTL, .PORT_STATE, .PORT_PARTNER_ABIL, .PORT_PARTNER_FLAGS, .PORT_PARTNER_ID, .PORT_LINK_QUAL, .PORT_MSE_REF, .PORT_DROP_COUNT, .PORT_DROP_HIST_IDX, .PORT_DROP_HIST, .PORT_EVENT, .PORT_X50_STAT, .PORT_AM_STAT, .PORT_LOOP_STAT, .PORT_SEG_STAT, .PORT_LPI_STAT, .PORT_TC10_STAT] (linkParts ++ [.draws]) s u ∧ (s.caneOf p = none → OnlyPort p s u))

/-- The sleep handshake, by its replies and timeouts, outside a cane (R320, R321, R322). -/
def Obligations.SleepHandshake : Prop :=
  -- SLEEP_REPLY_RECEIVED: silent, last_sleep 1 or 3 with rejected.
  (∀ (p : Port) (ack : Bool) (s : State),
    s.ok = true → (s.port p).localSleep = true → s.f (F.PORT_TC10_STAT_hs p) = 1 →
    Acts (.sleepReplyReceived p ack) s fun u =>
      u.f (F.PORT_TC10_STAT_hs p) = 3 ∧
      (u.f (F.PORT_TC10_STAT_last_sleep p) = if ack then 1 else 3) ∧
      Sent (.line p "silent" 0) s u ∧
      (ack = false → u.raised (R.PORT_TC10_EVENT p) 2 = true) ∧
      OnlyWords [R.PORT_TC10_STAT p, R.PORT_TC10_EVENT p] s u ∧ Keeps [.windows, .sent] s u) ∧
  -- PARTNER_SILENCE after the reply: SLEEP.
  (∀ (p : Port) (s : State),
    s.ok = true → s.caneOf p = none → s.linkUp p = true → (s.port p).localSleep = true → s.f (F.PORT_TC10_STAT_hs p) = 3 →
    Acts (.partnerSilence p) s fun u =>
      u.pst p = stSleep ∧
      u.f (F.PORT_CTL_admin p) = 1 ∧
      u.raised (R.PORT_TC10_EVENT p) 0 = true ∧
      Frame [.TB_STAT, .TB_EVENT, .CAL_PORT_STAT, .CAL_PORT_QUAL, .BND_STAT, .BND_EVENT, .BND_PAIR_STAT, .CANE_STAT, .CANE_EVENT, .WAKE_PENDING, .PORT_CTL, .PORT_STATE, .PORT_PARTNER_ABIL, .PORT_PARTNER_FLAGS, .PORT_PARTNER_ID, .PORT_LINK_QUAL, .PORT_MSE_REF, .PORT_DROP_COUNT, .PORT_DROP_HIST_IDX, .PORT_DROP_HIST, .PORT_EVENT, .PORT_X50_STAT, .PORT_AM_STAT, .PORT_LOOP_STAT, .PORT_SEG_STAT, .PORT_LPI_STAT, .PORT_TC10_STAT, .PORT_TC10_EVENT] (linkParts ++ [.draws]) s u ∧ (s.caneOf p = none → OnlyPort p s u)) ∧
  -- SLEEP_TIMEOUT: SLEEP, last_sleep 2.
  (∀ (p : Port) (s : State),
    s.ok = true → s.caneOf p = none → s.linkUp p = true → (s.port p).localSleep = true →
    Acts (.sleepTimeout p) s fun u =>
      u.pst p = stSleep ∧
      u.f (F.PORT_TC10_STAT_last_sleep p) = 2 ∧
      u.raised (R.PORT_TC10_EVENT p) 1 = true ∧
      Frame [.TB_STAT, .TB_EVENT, .CAL_PORT_STAT, .CAL_PORT_QUAL, .BND_STAT, .BND_EVENT, .BND_PAIR_STAT, .CANE_STAT, .CANE_EVENT, .WAKE_PENDING, .PORT_CTL, .PORT_STATE, .PORT_PARTNER_ABIL, .PORT_PARTNER_FLAGS, .PORT_PARTNER_ID, .PORT_LINK_QUAL, .PORT_MSE_REF, .PORT_DROP_COUNT, .PORT_DROP_HIST_IDX, .PORT_DROP_HIST, .PORT_EVENT, .PORT_X50_STAT, .PORT_AM_STAT, .PORT_LOOP_STAT, .PORT_SEG_STAT, .PORT_LPI_STAT, .PORT_TC10_STAT, .PORT_TC10_EVENT] (linkParts ++ [.draws]) s u ∧ (s.caneOf p = none → OnlyPort p s u)) ∧
  -- SLEEP_REQUEST_RECEIVED: acknowledged, or refused with sleep_refused.
  (∀ (p : Port) (s : State),
    s.ok = true → s.caneOf p = none → s.linkUp p = true → portClass p ≠ .segment →
    Acts (.sleepRequestReceived p) s fun u =>
      (s.bit (F.PORT_TC10_CFG_accept_sleep p) = true → u.f (F.PORT_TC10_STAT_hs p) = 2 ∧ (u.port p).partnerSleep = true ∧ u.pst p = stUp ∧ Sent (.line p "sleep_ack" 1) s u) ∧
      (s.bit (F.PORT_TC10_CFG_accept_sleep p) = false → Sent (.line p "sleep_reject" 0) s u ∧ u.raised (R.PORT_TC10_EVENT p) 3 = true ∧ (u.port p).partnerSleep = (s.port p).partnerSleep) ∧
      OnlyIn [R.PORT_STATE p, R.PORT_PARTNER_REF_ABIL p, R.PORT_PARTNER_REF_FLAGS p, R.PORT_PARTNER_REF_ID p, R.PORT_PARTNER_REF_ID p + 4, R.PORT_EVENT p, R.PORT_LPI_STAT p, R.PORT_TC10_STAT p, R.PORT_TC10_EVENT p] [.BND_STAT, .BND_EVENT, .BND_PAIR_STAT] s u ∧ Keeps [.windows, .ports, .bundles, .furnace, .power, .sent] s u) ∧
  -- PARTNER_SLEEP_TIMEOUT: SLEEP, last_sleep 4.
  (∀ (p : Port) (s : State),
    s.ok = true → s.caneOf p = none → s.linkUp p = true → (s.port p).partnerSleep = true →
    Acts (.partnerSleepTimeout p) s fun u =>
      u.pst p = stSleep ∧
      u.f (F.PORT_TC10_STAT_last_sleep p) = 4 ∧
      Frame [.TB_STAT, .TB_EVENT, .CAL_PORT_STAT, .CAL_PORT_QUAL, .BND_STAT, .BND_EVENT, .BND_PAIR_STAT, .CANE_STAT, .CANE_EVENT, .WAKE_PENDING, .PORT_CTL, .PORT_STATE, .PORT_PARTNER_ABIL, .PORT_PARTNER_FLAGS, .PORT_PARTNER_ID, .PORT_LINK_QUAL, .PORT_MSE_REF, .PORT_DROP_COUNT, .PORT_DROP_HIST_IDX, .PORT_DROP_HIST, .PORT_EVENT, .PORT_X50_STAT, .PORT_AM_STAT, .PORT_LOOP_STAT, .PORT_SEG_STAT, .PORT_LPI_STAT, .PORT_TC10_STAT, .PORT_TC10_EVENT] (linkParts ++ [.draws]) s u ∧ (s.caneOf p = none → OnlyPort p s u))

/-- Wakes received, served and sent (R324, R325, R328, R330, R331, R332). -/
def Obligations.WakesAndPulses : Prop :=
  -- WUP_QUALIFIED at an armed detector: the pending bit, WAKE.CAUSE and wake.
  (∀ (p : Port) (s : State),
    s.ok = true → s.detectorArmed p = true → s.nearLoop p = false → s.pst p = stSleep → s.heldByRemould p = false → s.caneOf p = none →
    s.portGroup p = 0 → s.parked = false → s.entering = false →
    Acts (.wupQualified p) s fun u =>
      u.pendingWake p = true ∧
      u.raised R.WAKE_EVENT 0 = true ∧
      u.f F.WAKE_CAUSE_index = p ∧
      u.pst p = stSleep ∧
      OnlyWords [R.WAKE_PENDING, R.WAKE_PENDING + 4, R.WAKE_CAUSE, R.WAKE_EVENT, R.WAKE_PCOUNT p] s u ∧ Keeps [.windows, .ports] s u) ∧
  -- WUR_RECEIVED in UP: counted with its event; with wur_fwd its cause, or in a mode entry the latched wake.
  (∀ (p : Port) (s : State),
    s.ok = true → s.pst p = stUp → s.portGroup p = 0 →
    Acts (.wurReceived p) s fun u =>
      u.raised (R.PORT_TC10_EVENT p) 4 = true ∧
      (s.bit (F.PORT_TC10_CFG_wur_fwd p) = true → s.entering = false → u.f F.WAKE_CAUSE_kind = 5 ∧ u.f F.WAKE_CAUSE_index = p) ∧
      (s.bit (F.PORT_TC10_CFG_wur_fwd p) = true → s.entering = true → u.bit F.PWR_WAKE_LATCH_valid = true ∧ u.power.latch = s.power.latch ++ [(5, p.val, 0)] ∧ u.reg R.WAKE_CAUSE = s.reg R.WAKE_CAUSE) ∧
      u.f (F.WAKE_PCOUNT_received p) = min (s.f (F.WAKE_PCOUNT_received p) + 1) 255 ∧
      OnlyIn [R.PWR_WAKE_LATCH, R.MLD_GOV_CLAMP_COUNT, R.WAKE_PENDING, R.WAKE_PENDING + 4, R.WAKE_CAUSE, R.WAKE_EVENT, R.PORT_STATE p, R.PORT_LPI_STAT p, R.PORT_TC10_EVENT p] [.BND_STAT, .BND_EVENT, .BND_PAIR_STAT, .WAKE_PCOUNT] s u ∧ Keeps [.windows, .ports, .bundles, .furnace, .power, .messages, .sent] s u) ∧
  -- WAKE_IN_EDGE of an enabled input without a group: WAKE.CAUSE and wake.
  (∀ (i : Fin 4) (s : State),
    s.ok = true → s.parked = false → s.entering = false → s.domOn domMgt = true → s.wakeIn i = (true, 0) →
    Acts (.wakeInEdge i) s fun u =>
      u.f F.WAKE_CAUSE_kind = 2 ∧
      u.f F.WAKE_CAUSE_index = i ∧
      u.raised R.WAKE_EVENT 0 = true ∧
      OnlyWords [R.WAKE_CAUSE, R.WAKE_EVENT] s u ∧ Keeps [.windows] s u) ∧
  -- WAKE_SERVE of a pending port that nothing holds: LISTEN, CTL.admin = 2.
  (∀ (p : Port) (s : State),
    s.ok = true → s.pendingWake p = true → s.pst p = stSleep → s.heldByRemould p = false → s.heldByOrphan p = false → s.portPowered p = true →
    (s.port p).leaving = false → s.heldByLedger p = false → (s.port p).forwarded = false → (s.port p).returned = false →
    (s.port p).wupRunning = false → s.caneOf p = none →
    Acts (.wakeServe p) s fun u =>
      u.pst p = stListen ∧
      u.f (F.PORT_CTL_admin p) = 2 ∧
      u.pendingWake p = false ∧
      Frame [.TB_STAT, .TB_EVENT, .MLD_GOV_CLAMP_COUNT, .CAL_PORT_STAT, .CAL_PORT_QUAL, .BND_STAT, .BND_EVENT, .BND_PAIR_STAT, .CANE_STAT, .CANE_EVENT, .WAKE_PENDING, .WAKE_EVENT, .WAKE_PCOUNT, .PORT_CTL, .PORT_STATE, .PORT_PARTNER_ABIL, .PORT_PARTNER_FLAGS, .PORT_PARTNER_ID, .PORT_LINK_QUAL, .PORT_MSE_REF, .PORT_DROP_COUNT, .PORT_DROP_HIST_IDX, .PORT_DROP_HIST, .PORT_EVENT, .PORT_X50_STAT, .PORT_AM_STAT, .PORT_LOOP_STAT, .PORT_SEG_STAT, .PORT_LPI_STAT, .PORT_TC10_STAT] (linkParts ++ [.draws]) s u ∧ (s.caneOf p = none → OnlyPort p s u)) ∧
  -- WUP_END: the pulse is over.
  (∀ (p : Port) (s : State),
    s.ok = true → (s.port p).wupRunning = true →
    Acts (.wupEnd p) s fun u =>
      (u.port p).wupRunning = false ∧
      ((s.port p).leaving = false → u.pst p = s.pst p) ∧
      Frame [.TB_STAT, .TB_EVENT, .CAL_PORT_STAT, .CAL_PORT_QUAL, .BND_STAT, .BND_EVENT, .BND_PAIR_STAT, .CANE_STAT, .CANE_EVENT, .WAKE_PENDING, .PORT_CTL, .PORT_STATE, .PORT_PARTNER_ABIL, .PORT_PARTNER_FLAGS, .PORT_PARTNER_ID, .PORT_LINK_QUAL, .PORT_MSE_REF, .PORT_DROP_COUNT, .PORT_DROP_HIST_IDX, .PORT_DROP_HIST, .PORT_EVENT, .PORT_X50_STAT, .PORT_AM_STAT, .PORT_LOOP_STAT, .PORT_SEG_STAT, .PORT_LPI_STAT, .PORT_TC10_STAT] (linkParts ++ [.draws]) s u ∧ (s.caneOf p = none → OnlyPort p s u)) ∧
  -- PULSE_SPACING_RELEASE sends the held pulse.
  (∀ (p : Port) (s : State),
    s.ok = true → (s.port p).pulseHeld = true → s.mayTransmit p = true →
    Acts (.pulseSpacingRelease p) s fun u =>
      (u.port p).pulseHeld = false ∧
      (u.port p).lastPulse = some s.now ∧
      (Sent (.line p (if s.pst p = stSleep ∨ s.pst p = stListen ∨ s.pst p = stNegotiate then "wup" else "wur") 1) s u) ∧
      OnlyIn [R.MLD_GOV_CLAMP_COUNT, R.WAKE_EVENT] [.WAKE_PCOUNT] s u ∧ Keeps [.windows, .ports, .messages, .sent] s u) ∧
  -- WUP_RETRY: another WUP, or retries_out.
  (∀ (p : Port) (s : State),
    s.ok = true → s.pst p = stListen → s.bit (F.PORT_PARTNER_FLAGS_valid p) = false →
    Acts (.wupRetry p) s fun u =>
      ((s.port p).retriesLeft = 0 → u.raised R.WAKE_EVENT 5 = true) ∧
      ((s.port p).retriesLeft ≠ 0 → (u.port p).retriesLeft = (s.port p).retriesLeft - 1) ∧
      ((s.port p).retriesLeft ≠ 0 → s.mayTransmit p = true → (s.port p).pulseHeld = false → (s.port p).lastPulse = none → Sent (.line p "wup" 1) s u) ∧
      OnlyIn [R.MLD_GOV_CLAMP_COUNT, R.WAKE_EVENT] [.WAKE_PCOUNT] s u ∧ Keeps [.windows, .ports, .messages, .sent] s u)

/-- Setting, stepping and steering the timebase, and its lost or changed sources (R335, R338, R115, R349, R350). -/
def Obligations.TimebaseSteering : Prop :=
  -- TB_SET, the first: the value is taken, set_done and its event.
  (∀ (path : Path) (high : BitVec 16) (s : State),
    s.ok = true → Granted path (R.TB_SET + 12) s → s.bit F.TB_STAT_set_done = false → s.f F.FLT_STAT_safe = 0 →
    Acts (.tbSet path high) s fun u =>
      u.f F.TB_STAT_set_done = 1 ∧
      u.raised R.TB_EVENT 0 = true ∧
      u.tb.sec / 2 ^ 32 = high.toNat ∧
      OnlyWords [R.TB_SET, R.TB_SET + 4, R.TB_SET + 8, R.TB_SET + 12, R.TB_STAT, R.TB_EVENT] s u ∧ Keeps [.wide, .windows, .timebase] s u) ∧
  -- TB_STEP moves the timebase by the step, held to the governor's maximum with GOVERNOR_CLAMP.
  (∀ (path : Path) (step : Word) (s : State),
    s.ok = true → Granted path (R.TB_STEP) s → s.tb.lastStep = none →
    Acts (.tbStep path step) s fun u =>
      (-((s.f F.MLD_GOV_STEP_step_us * 1000 * 65536 : Nat) : Int) ≤ (signed 32 step.toNat * 65536) → (signed 32 step.toNat * 65536) ≤ ((s.f F.MLD_GOV_STEP_step_us * 1000 * 65536 : Nat) : Int) → u.tb = { s.tb.move (signed 32 step.toNat * 65536) with lastStep := some s.now, moved := s.tb.moved + (signed 32 step.toNat * 65536) } ∧ u.reg R.TB_STEP = step) ∧
      (((s.f F.MLD_GOV_STEP_step_us * 1000 * 65536 : Nat) : Int) < (signed 32 step.toNat * 65536) → u.tb = { s.tb.move ((s.f F.MLD_GOV_STEP_step_us * 1000 * 65536 : Nat) : Int) with lastStep := some s.now, moved := s.tb.moved + ((s.f F.MLD_GOV_STEP_step_us * 1000 * 65536 : Nat) : Int) } ∧ Raised ⟨0x02, kGovernorClamp, 2, 4, 0⟩ s u ∧ u.raised R.TB_EVENT 2 = true) ∧
      ((signed 32 step.toNat * 65536) < -((s.f F.MLD_GOV_STEP_step_us * 1000 * 65536 : Nat) : Int) → u.tb = { s.tb.move (-((s.f F.MLD_GOV_STEP_step_us * 1000 * 65536 : Nat) : Int)) with lastStep := some s.now, moved := s.tb.moved - ((s.f F.MLD_GOV_STEP_step_us * 1000 * 65536 : Nat) : Int) } ∧ Raised ⟨0x02, kGovernorClamp, 2, 4, 0⟩ s u) ∧
      u.raised R.TB_EVENT 1 = true ∧
      OnlyWords [R.TB_STEP, R.TB_EVENT] s u ∧ Keeps [.windows, .timebase, .messages] s u) ∧
  -- TB_ADJ stores the rate, held to its governor.
  (∀ (path : Path) (rate : Word) (s : State),
    s.ok = true → Granted path (R.TB_ADJ) s →
    Acts (.tbAdj path rate) s fun u =>
      (-((s.f F.MLD_GOV_TIME_freq_ppb * 1024 : Nat) : Int) ≤ (signed 32 rate.toNat) → (signed 32 rate.toNat) ≤ ((s.f F.MLD_GOV_TIME_freq_ppb * 1024 : Nat) : Int) → u.reg R.TB_ADJ = rate) ∧
      (((s.f F.MLD_GOV_TIME_freq_ppb * 1024 : Nat) : Int) < (signed 32 rate.toNat) → u.reg R.TB_ADJ = BitVec.ofInt 32 ((s.f F.MLD_GOV_TIME_freq_ppb * 1024 : Nat) : Int) ∧ Raised ⟨0x02, kGovernorClamp, 2, 6, 0⟩ s u) ∧
      ((signed 32 rate.toNat) < -((s.f F.MLD_GOV_TIME_freq_ppb * 1024 : Nat) : Int) → u.reg R.TB_ADJ = BitVec.ofInt 32 (-((s.f F.MLD_GOV_TIME_freq_ppb * 1024 : Nat) : Int)) ∧ Raised ⟨0x02, kGovernorClamp, 2, 6, 0⟩ s u) ∧
      OnlyWords [R.TB_ADJ, R.TB_EVENT] s u ∧ Keeps [.windows, .messages] s u) ∧
  -- SYNC_RECEIVED on the slave port: synced and slave; another domain's offset and rate, or the servo steps or
  -- steers.
  (∀ (d : Fin 4) (p : Port) (offset : Int) (domRate : Int) (servo : Int) (s : State),
    s.ok = true → s.domainOn d = true → s.bit (F.TB_DOM_STAT_slave_valid d) = true → s.f (F.TB_DOM_STAT_slave_port d) = p → s.linkUp p = true →
    s.gptpPort p = true →
    Acts (.syncReceived d p offset domRate servo) s fun u =>
      u.f (F.TB_DOM_STAT_synced d) = 1 ∧
      u.f (F.TB_DOM_STAT_role d) = 1 ∧
      (d.val ≠ s.workDomain → u.wide (R.TB_DOM_OFFSET d) 2 = unsigned 64 offset ∧ u.f (F.TB_DOM_RATE_rate d) = unsigned 32 domRate ∧ u.tb = s.tb) ∧
      (d.val = s.workDomain → s.f F.TB_STAT_state = tsFree → 65536000 < offset.natAbs → s.tb.lastStep = none → u.f F.TB_STAT_state = tsLocking ∧ u.tb.lastStep = some s.now) ∧
      OnlyWords [R.TB_STAT, R.TB_STEP, R.TB_ADJ, R.TB_EVENT, R.TB_DOM_STAT d, R.TB_DOM_OFFSET d, R.TB_DOM_OFFSET d + 4, R.TB_DOM_RATE d] s u ∧ Keeps [.windows, .ports, .timebase, .messages] s u) ∧
  -- SYNC_TIMEOUT: not synced; the work domain goes to HOLDOVER.
  (∀ (d : Fin 4) (s : State),
    s.ok = true → s.domainOn d = true →
    Acts (.syncTimeout d) s fun u =>
      u.f (F.TB_DOM_STAT_synced d) = 0 ∧
      (s.f (F.TB_DOM_STAT_role d) = 1 → u.f (F.TB_DOM_STAT_role d) = 3) ∧
      (d.val = s.workDomain → s.f F.TB_STAT_state = tsLocked → s.f F.TB_CFG_holdover_s ≠ 0 → u.f F.TB_STAT_state = tsHoldover ∧ u.raised R.TB_EVENT 4 = true) ∧
      OnlyWords [R.TB_STAT, R.TB_EVENT, R.TB_DOM_STAT d] s u ∧ Keeps [.windows, .timebase] s u) ∧
  -- HOLDOVER_EXPIRE: FREE.
  (∀ (s : State),
    s.ok = true → s.f F.TB_STAT_state = tsHoldover →
    Acts .holdoverExpire s fun u =>
      u.f F.TB_STAT_state = tsFree ∧
      u.raised R.TB_EVENT 5 = true ∧
      OnlyWords [R.TB_STAT, R.TB_EVENT] s u ∧ Keeps [.windows, .timebase] s u) ∧
  -- GM_CHANGE: identity, slave port and role of the domain; GM where the device is grandmaster.
  (∀ (d : Fin 4) (slave : Option Port) (masters : BitVec 64) (steps : BitVec 16) (gmId : BitVec 64) (s : State),
    s.ok = true → s.domainOn d = true → (slave.all (fun p => s.gptpPort p) = true) →
    Acts (.gmChange d slave masters steps gmId) s fun u =>
      u.wide (R.TB_DOM_GM_ID d) 2 = gmId.toNat ∧
      u.f (F.TB_DOM_STAT_slave_valid d) = b2n slave.isSome ∧
      (u.f (F.TB_DOM_STAT_role d) = if slave.isNone then 2 else 3) ∧
      (d.val = s.workDomain → slave = none → u.f F.TB_STAT_state = tsGm ∧ u.raised R.TB_EVENT 6 = true) ∧
      OnlyIn [R.TB_STAT, R.TB_EVENT, R.TB_DOM_STAT d, R.TB_DOM_GM_ID d, R.TB_DOM_GM_ID d + 4] [.TB_PORT_ROLES] s u ∧ Keeps [.windows, .timebase] s u)

/-- gPTP messages and the PPS pins (R347, R348, R351, R352). -/
def Obligations.GptpAndPins : Prop :=
  -- SYNC_SEND of a grandmaster: each master port that carries a link has its Sync queued behind what waits there.
  (∀ (d : Fin 4) (s : State),
    s.ok = true → s.f F.FLT_STAT_safe = 0 → s.domainOn d = true → s.f (F.TB_DOM_STAT_role d) = 2 →
    Acts (.syncSend d) s fun u =>
      (∀ p ∈ s.masterPorts d, ((u.port p).txq.drop (s.port p).txq.length).isEmpty = false ∧ (u.port p).txq.take (s.port p).txq.length = (s.port p).txq) ∧
      OnlyWords [] s u ∧ Keeps [.ports] s u) ∧
  -- PDELAY_MEASURE: valid with the delay.
  (∀ (p : Port) (delay : BitVec 32) (s : State),
    s.ok = true → s.f F.FLT_STAT_safe = 0 → s.bit F.TB_CFG_gptp_en = true → s.gptpPort p = true → s.linkUp p = true →
    s.f (F.TB_PORT_ROLES_roles p) ≠ 0 →
    Acts (.pdelayMeasure p delay) s fun u =>
      u.f (F.TB_PORT_PDELAY_valid p) = 1 ∧
      u.f (F.TB_PORT_PDELAY_delay p) = delay.toNat % 2 ^ 31 ∧
      (u.port p).txq.take (s.port p).txq.length = (s.port p).txq ∧
      (u.port p).txq.length = (s.port p).txq.length + 1 ∧
      OnlyWords [R.TB_PORT_PDELAY p] s u ∧ Keeps [.ports] s u) ∧
  -- PPS_OUT pulses for width_us, 0 read as 1.
  (∀ (s : State),
    s.ok = true → s.f F.FLT_STAT_safe = 0 → s.bit F.TB_PPS_CFG_pps_out_en = true →
    Acts .ppsOut s fun u =>
      u.out = s.out ++ [.pin "PPS_OUT" (max 1 (s.f F.TB_PPS_CFG_width_us))] ∧
      OnlyWords [] s u ∧ Keeps [.sent] s u) ∧
  -- PPS_IN before the middle of a second: timestamp, offset in 0.25 ns, event.
  (∀ (servo : Int) (s : State),
    s.ok = true → s.bit F.TB_PPS_CFG_pps_in_en = true → s.tb.lastPps = none → s.tb.ns * 4 + s.tb.frac / 16384 < 2000000000 → s.tb.frac < 65536 →
    s.bit F.TB_CFG_pps_discipline = false →
    Acts (.ppsIn servo) s fun u =>
      u.wide R.TB_PPS_IN 2 = s.tb64 % 2 ^ 64 ∧
      u.reg R.TB_PPS_IN_OFS = BitVec.ofNat 32 (s.tb.ns * 4 + s.tb.frac / 16384) ∧
      u.raised R.TB_EVENT 7 = true ∧
      u.tb = { s.tb with lastPps := some s.now } ∧
      u.free = s.free ∧
      OnlyWords [R.TB_STEP, R.TB_ADJ, R.TB_PPS_IN, R.TB_PPS_IN + 4, R.TB_PPS_IN_OFS, R.TB_EVENT] s u ∧ Keeps [.windows, .timebase, .messages, .draws] s u) ∧
  -- GCL_ENTRY_BOUNDARY: running and the entry of the phase.
  (∀ (p : Port) (s : State),
    s.ok = true →
    Acts (.gclEntryBoundary p) s fun u =>
      (s.bit (F.LCH_GCL_CFG_CTRL_en p) = true → u.f (F.LCH_GCL_STAT_running p) = 1 ∧ u.f (F.LCH_GCL_STAT_entry p) = s.gclEntry p % 64) ∧
      (s.bit (F.LCH_GCL_CFG_CTRL_en p) = false → u.f (F.LCH_GCL_STAT_running p) = 0 ∧ u.f (F.LCH_GCL_STAT_entry p) = 0) ∧
      OnlyWords [R.LCH_GCL_STAT p] s u ∧ Keeps [] s u)

/-- Launch groups are armed, disarmed and fired (R353, R355, R356, R357, R358, R362). -/
def Obligations.LaunchGroups : Prop :=
  -- LAUNCH_IN with no group waiting for it is timestamped with its event.
  (∀ (s : State),
    s.ok = true → s.tb.lastLaunch = none → ((List.range 16).all (fun g => !s.lgWaits g 1) = true) →
    Acts .launchIn s fun u =>
      u.raised R.TB_EVENT 8 = true ∧
      u.tb = { s.tb with lastLaunch := some s.now } ∧
      OnlyWords [R.TB_EVENT] s u ∧ Keeps [.windows, .timebase] s u) ∧
  -- LG_ARM with the pin as source, or with a time that is not reached: ARMED by its path with its settings; a head
  -- arms no group above 23.
  (∀ (path : Path) (g : Fin 16) (src : BitVec 2) (kind : BitVec 1) (out : BitVec 1) (s : State),
    s.ok = true → Granted path (R.LCH_LG_CTL g) s → s.lgLocked g = false → src.toNat = 1 ∨ src.toNat = 0 ∧ s.lgPast g = none →
    Acts (.lgArm path g src kind out) s fun u =>
      u.f (F.LCH_LG_STAT_state g) = lgArmed ∧
      u.f (F.LCH_LG_CTL_armer g) = pathCode path ∧
      u.f (F.LCH_LG_CTL_src g) = src.toNat ∧
      u.f (F.LCH_LG_CTL_kind g) = kind.toNat ∧
      u.f (F.LCH_LG_CTL_out_ g) = out.toNat ∧
      (pathCode path < 4 → u.f (F.LCH_LG_MASK_groups g) < 2 ^ 24) ∧
      OnlyWords [R.LCH_LG_CTL g, R.LCH_LG_MASK g, R.LCH_LG_STAT g] s u ∧ Keeps [] s u) ∧
  -- LG_ARM of a group that is ARMED or APPLYING is dropped and logged.
  (∀ (path : Path) (g : Fin 16) (src : BitVec 2) (kind : BitVec 1) (out : BitVec 1) (s : State),
    s.ok = true → Granted path (R.LCH_LG_CTL g) s → s.lgLocked g = true →
    Acts (.lgArm path g src kind out) s fun u =>
      Raised ⟨srcOf s (R.LCH_LG_CTL g), kAccessDenied, 0, pathCode path + 8, R.LCH_LG_CTL g⟩ s u ∧
      OnlyWords [] s u ∧ Keeps [.messages] s u) ∧
  -- LG_DISARM: IDLE from ARMED, DONE_LATE from APPLYING.
  (∀ (path : Path) (g : Fin 16) (s : State),
    s.ok = true → Granted path (R.LCH_LG_CTL g) s →
    Acts (.lgDisarm path g) s fun u =>
      (s.f (F.LCH_LG_STAT_state g) = lgArmed → u.f (F.LCH_LG_STAT_state g) = lgIdle ∧ u.reg R.LCH_EVENT = s.reg R.LCH_EVENT) ∧
      (s.f (F.LCH_LG_STAT_state g) = lgApplying → u.f (F.LCH_LG_STAT_state g) = lgDoneLate ∧ u.raised R.LCH_EVENT 1 = true) ∧
      (s.f (F.LCH_LG_STAT_state g) ≠ lgArmed → s.f (F.LCH_LG_STAT_state g) ≠ lgApplying → u = s) ∧
      OnlyWords [R.LCH_LG_STAT g, R.LCH_EVENT] s u ∧ Keeps [.windows, .messages] s u) ∧
  -- LG_FIRE of one group, due since at most 1 µs and without targets: the commit sequence goes on, the group is
  -- DONE with its stamp and events, LAUNCH_OUT where asked.
  (∀ (groups : BitVec 16) (s : State),
    s.ok = true → groups.toNat = 2 ^ groups.toNat.log2 → s.lgWaits groups.toNat.log2 0 = true →
    ((s.lgPast groups.toNat.log2).any (fun d => decide (d ≤ 65536000)) = true) → s.bit (F.LCH_LG_CTL_kind groups.toNat.log2) = false →
    s.targets (s.f (F.LCH_LG_CTL_armer groups.toNat.log2)) (effMask (s.f (F.LCH_LG_CTL_armer groups.toNat.log2)) (s.reg (R.LCH_LG_MASK groups.toNat.log2)).toNat) = [] →
    s.commit.pend = [] → s.commit.rolls = [] → s.commit.opens = [] → s.f F.MLD_REMOULD_STAT_state ≠ remouldStaged →
    s.f F.DIAG_SWEEP_STAT_state ≠ 2 →
    Acts (.lgFire groups) s fun u =>
      u.f (F.LCH_LG_STAT_state groups.toNat.log2) = lgDone ∧
      u.f F.GLB_COMMIT_STAT_commit_seq = (s.f F.GLB_COMMIT_STAT_commit_seq + 1) % 256 ∧
      u.f F.GLB_COMMIT_STAT_last_path = 5 ∧
      u.wide (R.LCH_LG_FIRED_AT groups.toNat.log2) 2 = s.tb64 % 2 ^ 64 ∧
      u.raised R.LCH_EVENT 0 = true ∧
      u.raised R.LCH_EVENT 1 = true ∧
      u.raised R.GLB_EVENT 0 = true ∧
      (s.bit (F.LCH_LG_CTL_out_ groups.toNat.log2) = true → Sent (.pin "LAUNCH_OUT" 1) s u) ∧
      OnlyIn [R.GLB_COMMIT_STAT, R.GLB_EVENT, R.LCH_EVENT] [.LCH_LG_STAT, .LCH_LG_FIRED_AT, .LCH_LG_TARGET, .LCH_LG_APPLIED, .LCH_LG_LATE] s u ∧ Keeps [.windows, .commits, .sent] s u)

/-- A head's link comes up, is reset, drains and comes back (R391, R392, R394, R360). -/
def Obligations.HeadLinksAndResets : Prop :=
  -- LINK_L0 of an existing head that is down, at a rate and width it supports: LINK, or LOST_LINK after a loss.
  (∀ (h : Head) (rate : BitVec 2) (width : BitVec 5) (s : State),
    s.ok = true → s.headExists h = true → s.domOn domCxp = true → s.domOn domCxc = true → (s.head h).resetting = false →
    s.hdState h = hdDown ∨ s.hdState h = hdLostDown → 1 ≤ rate.toNat → [1, 2, 4, 8, 16].contains width.toNat = true →
    width.toNat ≤ s.strapWidth h →
    Acts (.linkL0 h rate width) s fun u =>
      (u.hdState h = if s.hdState h = hdDown then hdLink else hdLostLink) ∧
      u.f (F.HEAD_STAT_rate h) = rate.toNat ∧
      u.f (F.HEAD_STAT_width h) = width.toNat ∧
      OnlyWords [R.HEAD_STAT h] s u ∧ Keeps [] s u) ∧
  -- HEAD_RESET of a head in LINK: DOWN, registers at reset but epoch and MEM_REJ, the reset runs.
  (∀ (h : Head) (cause : ResetCause) (s : State),
    s.ok = true → s.hdState h = hdLink → s.headExists h = true → s.domOn domCxc = true → cause ≠ .ide → s.f F.MLD_ADOPT_STAT_heads_left = 0 →
    Acts (.headReset h cause) s fun u =>
      u.hdState h = hdDown ∧
      (u.head h).resetting = true ∧
      u.f (F.HEAD_STAT_epoch h) = s.f (F.HEAD_STAT_epoch h) ∧
      u.reg (R.HEAD_MEM_REJ h) = s.reg (R.HEAD_MEM_REJ h) ∧
      u.f (F.HEAD_HB_CFG_hb_ms h) = bits (resetWord (F.HEAD_HB_CFG_hb_ms h).off) (F.HEAD_HB_CFG_hb_ms h).hi (F.HEAD_HB_CFG_hb_ms h).lo ∧
      Keeps (detachParts ++ [.votes, .wide, .mould, .power, .draws]) s u) ∧
  -- HEAD_RESET_END with no commit waiting: the reset is over.
  (∀ (h : Head) (s : State),
    s.ok = true → (s.head h).resetting = true → s.commit.pend.get? (blkHead h) = none → s.commit.rolls.get? (blkHead h) = none →
    Acts (.headResetEnd h) s fun u =>
      (u.head h).resetting = false ∧
      OnlyWords [] s u ∧ Keeps [.heads] s u) ∧
  -- DRAIN_DONE: draining reads 0.
  (∀ (h : Head) (s : State),
    s.ok = true →
    Acts (.drainDone h) s fun u =>
      u.f (F.HEAD_STAT_draining h) = 0 ∧
      OnlyWords [R.HEAD_STAT h] s u ∧ Keeps [] s u)

/-- A head attaches, kicks its heartbeat, and is lost for each cause (R391, R394, R396, R397, R399, R409). -/
def Obligations.HeadLossAndAttach : Prop :=
  -- ATTACH in LINK with a mould, bus mastering and no drain: ATTACHED, result 1, the next epoch, its event, and
  -- with an empty summary mask the summary interrupt armed.
  (∀ (path : Path) (h : Head) (cfg : HostCfg) (s : State),
    s.ok = true → Granted path (R.HEAD_ATTACH h) s → s.hdState h = hdLink → s.mouldOk = true → cfg.bme = true →
    s.bit (F.HEAD_STAT_draining h) = false →
    Acts (.attach path h cfg) s fun u =>
      u.hdState h = hdAttached ∧
      u.f (F.HEAD_ATTACH_result h) = 1 ∧
      u.f (F.HEAD_STAT_epoch h) = (s.f (F.HEAD_STAT_epoch h) + 1) % 256 ∧
      u.raised (R.HEAD_EVENT h) 0 = true ∧
      (u.head h).bme = true ∧
      (s.f (F.HEAD_IRQ_SUM_MASK_mask h) = 0 → u.f (F.HEAD_IRQ_REARM_rearm h) = 1) ∧
      OnlyIn [R.GLB_MODE, R.GLB_EVENT, R.PWR_VOTES, R.FLT_IRQ_REARM, R.LCH_EVENT, R.HEAD_ATTACH h, R.HEAD_REQ_STAT h, R.HEAD_IRQ_REARM h] [.LCH_LG_STAT, .HEAD_STAT, .HEAD_EVENT, .PORT_STATE, .PORT_EVENT] s u ∧ Keeps [.windows, .ports, .heads, .messages] s u) ∧
  -- DETACH (7), HEARTBEAT_EXPIRE (8), BME_CLEAR (9) of an attached head: LOST_LINK with the cause, draining,
  -- LINK_DROP, link_lost.
  (∀ (path : Path) (h : Head) (s : State),
    s.ok = true → Granted path (R.HEAD_ATTACH h) s → s.attached h = true →
    Acts (.detach path h) s fun u =>
      (u.hdState h = hdLostLink ∧ u.f (F.HEAD_STAT_lost_cause h) = 7 ∧ u.f (F.HEAD_STAT_draining h) = 1 ∧ Raised ⟨0x0C + h, kLinkDrop, 0, 7, h⟩ s u ∧ u.raised (R.HEAD_EVENT h) 1 = true) ∧
      Frame [.GLB_MODE, .GLB_EVENT, .PWR_VOTES, .FLT_IRQ_REARM, .TB_STAT, .TB_EVENT, .LCH_LG_STAT, .LCH_EVENT, .CAL_PORT_STAT, .CAL_PORT_QUAL, .MCH_CUR, .MCH_STAT, .MCH_REMAIN, .MCH_DONE, .MCH_BYTES, .MCH_IRQ_COUNT, .MCH_CMP_OFS, .MCH_LAST_BAD, .MCH_EVENT, .HSPI_KEVENT, .HSPI_MBX_STAT, .HSPI_MBX_RSP, .HEAD_STAT, .HEAD_REQ_STAT, .HEAD_EVENT, .HEAD_MBX_STAT, .HEAD_MBX_RSP, .BND_STAT, .BND_EVENT, .BND_PAIR_STAT, .CANE_STAT, .CANE_EVENT, .WAKE_PENDING, .PORT_CTL, .PORT_STATE, .PORT_PARTNER_ABIL, .PORT_PARTNER_FLAGS, .PORT_PARTNER_ID, .PORT_PARTNER_REF_ABIL, .PORT_PARTNER_REF_FLAGS, .PORT_PARTNER_REF_ID, .PORT_LINK_QUAL, .PORT_MSE_REF, .PORT_DROP_COUNT, .PORT_DROP_HIST_IDX, .PORT_DROP_HIST, .PORT_EVENT, .PORT_X50_STAT, .PORT_AM_STAT, .PORT_LOOP_STAT, .PORT_SEG_STAT, .PORT_LPI_STAT, .PORT_TC10_STAT, .QP_RX_BASE, .QP_RX_CFG, .QP_RX_CTL, .QP_RX_HEAD_IDX, .QP_RX_ACK, .QP_RX_MOD, .QP_RX_STAT, .QP_RX_STATE, .QP_RX_FRAMES, .QP_RX_DROPS, .QP_RX_BAD, .QP_TX_BASE, .QP_TX_CFG, .QP_TX_CTL, .QP_TX_HEAD_IDX, .QP_TX_ACK, .QP_TX_MOD, .QP_TX_STAT, .QP_TX_STATE, .QP_TX_FRAMES, .QP_TX_DROPS, .QP_TX_BAD, .QP_EVENT, .QP_EVENT_MASK] (detachParts ++ [.power, .draws]) s u) ∧
  (∀ (h : Head) (s : State),
    s.ok = true → s.attached h = true → s.f (F.HEAD_HB_CFG_hb_ms h) ≠ 0 →
    Acts (.heartbeatExpire h) s fun u =>
      (u.hdState h = hdLostLink ∧ u.f (F.HEAD_STAT_lost_cause h) = 8 ∧ u.f (F.HEAD_STAT_draining h) = 1 ∧ Raised ⟨0x0C + h, kLinkDrop, 0, 8, h⟩ s u ∧ u.raised (R.HEAD_EVENT h) 1 = true) ∧
      Frame [.GLB_MODE, .GLB_EVENT, .PWR_VOTES, .FLT_IRQ_REARM, .TB_STAT, .TB_EVENT, .LCH_LG_STAT, .LCH_EVENT, .CAL_PORT_STAT, .CAL_PORT_QUAL, .MCH_CUR, .MCH_STAT, .MCH_REMAIN, .MCH_DONE, .MCH_BYTES, .MCH_IRQ_COUNT, .MCH_CMP_OFS, .MCH_LAST_BAD, .MCH_EVENT, .HSPI_KEVENT, .HSPI_MBX_STAT, .HSPI_MBX_RSP, .HEAD_STAT, .HEAD_REQ_STAT, .HEAD_EVENT, .HEAD_MBX_STAT, .HEAD_MBX_RSP, .BND_STAT, .BND_EVENT, .BND_PAIR_STAT, .CANE_STAT, .CANE_EVENT, .WAKE_PENDING, .PORT_CTL, .PORT_STATE, .PORT_PARTNER_ABIL, .PORT_PARTNER_FLAGS, .PORT_PARTNER_ID, .PORT_PARTNER_REF_ABIL, .PORT_PARTNER_REF_FLAGS, .PORT_PARTNER_REF_ID, .PORT_LINK_QUAL, .PORT_MSE_REF, .PORT_DROP_COUNT, .PORT_DROP_HIST_IDX, .PORT_DROP_HIST, .PORT_EVENT, .PORT_X50_STAT, .PORT_AM_STAT, .PORT_LOOP_STAT, .PORT_SEG_STAT, .PORT_LPI_STAT, .PORT_TC10_STAT, .QP_RX_BASE, .QP_RX_CFG, .QP_RX_CTL, .QP_RX_HEAD_IDX, .QP_RX_ACK, .QP_RX_MOD, .QP_RX_STAT, .QP_RX_STATE, .QP_RX_FRAMES, .QP_RX_DROPS, .QP_RX_BAD, .QP_TX_BASE, .QP_TX_CFG, .QP_TX_CTL, .QP_TX_HEAD_IDX, .QP_TX_ACK, .QP_TX_MOD, .QP_TX_STAT, .QP_TX_STATE, .QP_TX_FRAMES, .QP_TX_DROPS, .QP_TX_BAD, .QP_EVENT, .QP_EVENT_MASK] (detachParts ++ [.power, .draws]) s u) ∧
  (∀ (h : Head) (s : State),
    s.ok = true → (s.head h).bme = true →
    Acts (.bmeClear h) s fun u =>
      (u.head h).bme = false ∧
      (s.attached h = true → u.hdState h = hdLostLink ∧ u.f (F.HEAD_STAT_lost_cause h) = 9 ∧ u.f (F.HEAD_STAT_draining h) = 1 ∧ Raised ⟨0x0C + h, kLinkDrop, 0, 9, h⟩ s u ∧ u.raised (R.HEAD_EVENT h) 1 = true) ∧
      Frame [.GLB_MODE, .GLB_EVENT, .PWR_VOTES, .FLT_IRQ_REARM, .TB_STAT, .TB_EVENT, .LCH_LG_STAT, .LCH_EVENT, .CAL_PORT_STAT, .CAL_PORT_QUAL, .MCH_CUR, .MCH_STAT, .MCH_REMAIN, .MCH_DONE, .MCH_BYTES, .MCH_IRQ_COUNT, .MCH_CMP_OFS, .MCH_LAST_BAD, .MCH_EVENT, .HSPI_KEVENT, .HSPI_MBX_STAT, .HSPI_MBX_RSP, .HEAD_STAT, .HEAD_REQ_STAT, .HEAD_EVENT, .HEAD_MBX_STAT, .HEAD_MBX_RSP, .BND_STAT, .BND_EVENT, .BND_PAIR_STAT, .CANE_STAT, .CANE_EVENT, .WAKE_PENDING, .PORT_CTL, .PORT_STATE, .PORT_PARTNER_ABIL, .PORT_PARTNER_FLAGS, .PORT_PARTNER_ID, .PORT_PARTNER_REF_ABIL, .PORT_PARTNER_REF_FLAGS, .PORT_PARTNER_REF_ID, .PORT_LINK_QUAL, .PORT_MSE_REF, .PORT_DROP_COUNT, .PORT_DROP_HIST_IDX, .PORT_DROP_HIST, .PORT_EVENT, .PORT_X50_STAT, .PORT_AM_STAT, .PORT_LOOP_STAT, .PORT_SEG_STAT, .PORT_LPI_STAT, .PORT_TC10_STAT, .QP_RX_BASE, .QP_RX_CFG, .QP_RX_CTL, .QP_RX_HEAD_IDX, .QP_RX_ACK, .QP_RX_MOD, .QP_RX_STAT, .QP_RX_STATE, .QP_RX_FRAMES, .QP_RX_DROPS, .QP_RX_BAD, .QP_TX_BASE, .QP_TX_CFG, .QP_TX_CTL, .QP_TX_HEAD_IDX, .QP_TX_ACK, .QP_TX_MOD, .QP_TX_STAT, .QP_TX_STATE, .QP_TX_FRAMES, .QP_TX_DROPS, .QP_TX_BAD, .QP_EVENT, .QP_EVENT_MASK] (detachParts ++ [.power, .draws]) s u) ∧
  -- HB_KICK begins the interval again.
  (∀ (path : Path) (h : Head) (s : State),
    s.ok = true → Granted path (R.HEAD_HB_KICK h) s →
    Acts (.hbKick path h) s fun u =>
      (u.head h).hb = s.now ∧
      OnlyWords [] s u ∧ Keeps [.heads, .messages] s u)

/-- What a head answers on its link, and its translation cache (R375, R376, R384, R385, R380, R388). -/
def Obligations.HeadProtocol : Prop :=
  -- CXL_MEM_REQUEST: counted, mem_rej, answered as unsupported.
  (∀ (h : Head) (s : State),
    s.ok = true → s.linkTrained h = true →
    Acts (.cxlMemRequest h) s fun u =>
      u.f (F.HEAD_MEM_REJ_count h) = min (s.f (F.HEAD_MEM_REJ_count h) + 1) (2 ^ 32 - 1) ∧
      u.raised (R.HEAD_EVENT h) 6 = true ∧
      Sent (.cxl h "unsupported_request" 0) s u ∧
      OnlyWords [R.HEAD_MEM_REJ h, R.HEAD_EVENT h] s u ∧ Keeps [.windows, .sent] s u) ∧
  -- H2D_SNOOP: RspIHitI, nothing else.
  (∀ (h : Head) (addr : BitVec 64) (s : State),
    s.ok = true → s.linkTrained h = true →
    Acts (.h2dSnoop h addr) s fun u =>
      u.out = s.out ++ [.cxl h "RspIHitI" addr.toNat] ∧
      OnlyWords [] s u ∧ Keeps [.sent] s u) ∧
  -- INVALIDATE_REQUEST drops exactly the cached ranges that meet it.
  (∀ (h : Head) (addr : BitVec 64) (len : Nat) (s : State),
    s.ok = true → s.linkTrained h = true →
    Acts (.invalidateRequest h addr len) s fun u =>
      (u.head h).invalidating = true ∧
      ((u.head h).atc = (s.head h).atc.filter fun e => !(decide (e.1 < addr.toNat + len) && decide (addr.toNat < e.1 + e.2))) ∧
      OnlyWords [R.HEAD_ATC_STAT h] s u ∧ Keeps [.heads] s u) ∧
  -- INVALIDATE_COMPLETE: counted and answered.
  (∀ (h : Head) (s : State),
    s.ok = true → (s.head h).invalidating = true →
    (((s.head h).invRings.all fun r => s.qpHead r.1 != some h || !(s.ring r.1 r.2).goWait) = true) →
    Acts (.invalidateComplete h) s fun u =>
      (u.head h).invalidating = false ∧
      u.f (F.HEAD_ATC_STAT_invals h) = min (s.f (F.HEAD_ATC_STAT_invals h) + 1) (2 ^ ((F.HEAD_ATC_STAT_invals h).hi + 1 - (F.HEAD_ATC_STAT_invals h).lo) - 1) ∧
      Sent (.cxl h "invalidate_completion" 0) s u ∧
      OnlyWords [R.HEAD_ATC_STAT h] s u ∧ Keeps [.heads, .sent] s u) ∧
  -- ATC_FLUSH empties the cache.
  (∀ (path : Path) (h : Head) (s : State),
    s.ok = true → Granted path (R.HEAD_ATC_CTL h) s →
    Acts (.atcFlush path h) s fun u =>
      (u.head h).atc = [] ∧
      OnlyWords [R.HEAD_ATC_STAT h] s u ∧ Keeps [.heads, .messages] s u) ∧
  -- ATS_ENABLE_CHANGE: stored, the cache empty.
  (∀ (h : Head) (on : Bool) (s : State),
    s.ok = true → s.linkTrained h = true → s.bit (F.HEAD_STAT_ats_en h) ≠ on →
    Acts (.atsEnableChange h on) s fun u =>
      u.f (F.HEAD_STAT_ats_en h) = b2n on ∧
      (u.head h).atc = [] ∧
      OnlyIn [R.HEAD_STAT h, R.HEAD_ATC_STAT h] [.QP_RX_STAT, .QP_RX_STATE, .QP_RX_DROPS, .QP_TX_STAT, .QP_TX_STATE, .QP_TX_DROPS, .QP_EVENT] s u ∧ Keeps [.windows, .ports, .heads, .rings, .messages] s u) ∧
  -- SPDM_REQUEST while firmware runs: version, certificate, measurements as they stand, ERROR for what is not
  -- served.
  (∀ (h : Head) (req : SpdmReq) (s : State),
    s.ok = true → s.linkTrained h = true → s.fwRuns = true →
    Acts (.spdmRequest h req) s fun u =>
      ((match req with | .getVersion => u.out == s.out ++ [.spdm h "VERSION" []] | .getCertificate => u.out == s.out ++ [.spdm h "CERTIFICATE" s.otp.chain] | .getMeasurements i => decide (∀ l ∈ (s.measurement h i.val).toList, u.out = s.out ++ [.spdm h "MEASUREMENTS" l]) | .other _ => u.out == s.out ++ [.spdm h "ERROR" []] | .ideKeyProg io _ => s.bit F.FLT_STAT_safe || !io || (s.head h).session != 2 || u.bit (F.HEAD_STAT_ide_io h) | _ => true) = true) ∧
      OnlyWords [R.HEAD_STAT h] s u ∧ Keeps [.heads, .sent] s u) ∧
  -- MSIX_UNMASK opens the vector or the function; a pending message of an attached bus master is sent.
  (∀ (h : Head) (vec : Option (Fin 512)) (s : State),
    s.ok = true → s.linkTrained h = true →
    Acts (.msixUnmask h vec) s fun u =>
      (vec = none → (u.head h).fnMask = false) ∧
      ((match vec with | some v => (u.head h).openVecs.contains v.val | none => true) = true) ∧
      (s.attached h = true → (s.head h).bme = true → (s.head h).fnMask = false → ∀ v ∈ vec.toList, (s.head h).pendVecs.contains v.val = true → Sent (.msix h v.val) s u ∧ (u.head h).pendVecs.contains v.val = false) ∧
      OnlyWords [] s u ∧ Keeps [.heads, .sent] s u) ∧
  -- IRQ_REARM arms the summary interrupt.
  (∀ (path : Path) (h : Head) (s : State),
    s.ok = true → Granted path (R.HEAD_IRQ_REARM h) s →
    Acts (.irqRearm path h) s fun u =>
      u.f (F.HEAD_IRQ_REARM_rearm h) = 1 ∧
      OnlyWords [R.HEAD_IRQ_REARM h] s u ∧ Keeps [.messages] s u)

/-- A ring is enabled, posted to, fetches, acknowledges, stops and drains (R412, R413, R417, R435, R436, R437,
R438, R439, R440). -/
def Obligations.RingsRun : Prop :=
  -- DOORBELL by the owner: tail modulo the ring size, and a running ring with room, window and budget starts a
  -- descriptor read; by another head: ACCESS_DENIED, nothing stored.
  (∀ (h : Head) (q : Qp) (d : Dir) (v : Word) (s : State),
    s.ok = true → s.bit F.FLT_STAT_safe = false → s.attached h = true →
    Acts (.doorbell h q d v) s fun u =>
      (s.qpHead q ≠ some ↑h → Raised ⟨0x0C + h, kAccessDenied, 0, h + 8, q⟩ s u ∧ u.ringTail q (dirCode d) = s.ringTail q (dirCode d)) ∧
      (s.qpHead q = some ↑h → s.domOn domPkt = true → 0 < s.ringSize q (dirCode d) → u.ringTail q (dirCode d) = v.toNat % 2 ^ 15 % s.ringSize q (dirCode d)) ∧
      (s.qpHead q = some ↑h → s.domOn domPkt = true → s.rgState q (dirCode d) = rgRunning → (s.ring q (dirCode d)).fetching = 0 → (s.ring q (dirCode d)).descs = [] → (u.ringTail q (dirCode d) + s.ringSize q (dirCode d) - s.ringIdx q (dirCode d) (s.ring q (dirCode d)).taken) % s.ringSize q (dirCode d) ≠ 0 → s.winOk h (s.descAddr q (dirCode d) (s.ringIdx q (dirCode d) (s.ring q (dirCode d)).taken)) 32 false false = true → s.unitsFree h ≠ 0 → (u.ring q (dirCode d)).fetching ≠ 0) ∧
      OnlyIn [R.PKT_EVENT, R.HEAD_REQ_STAT h, R.HEAD_ATC_STAT h, ringOff (R.QP_RX_HEAD_IDX q) (dirCode d), ringOff (R.QP_RX_STAT q) (dirCode d), ringOff (R.QP_RX_STATE q) (dirCode d), ringOff (R.QP_RX_FRAMES q) (dirCode d), ringOff (R.QP_RX_FRAMES q) (dirCode d) + 4, ringOff (R.QP_RX_DROPS q) (dirCode d), ringOff (R.QP_RX_DROPS q) (dirCode d) + 4, ringOff (R.QP_RX_BAD q) (dirCode d), R.QP_EVENT q] [.PKT_LAT_MINMAX, .PKT_LAT_OVER, .PKT_LAT_MEASURED] s u ∧ Keeps (ringParts ++ [.draws]) s u) ∧
  -- DESCRIPTOR_FETCH_DONE with nothing in hand: a failed read faults the ring (cause 3); OWN = 0 sets own_wait
  -- with its event.
  (∀ (q : Qp) (d : Dir) (failed : Bool) (descs : List DescWords) (s : State),
    s.ok = true → (s.ring q (dirCode d)).fetching ≠ 0 → s.rgState q (dirCode d) = rgRunning → (s.ring q (dirCode d)).descs = [] →
    (s.ring q (dirCode d)).translating = none → (s.ring q (dirCode d)).taken = 0 → (s.ring q (dirCode d)).reading = 0 →
    (s.ring q (dirCode d)).whole = false → (s.ring q (dirCode d)).flights = [] → (s.ring q (dirCode d)).held = [] → (s.qpHead q).isSome = true →
    Acts (.descriptorFetchDone q d failed descs) s fun u =>
      (failed = true → u.rgState q (dirCode d) = rgFault ∧ u.f (rf F.QP_RX_STAT_fault_cause q (dirCode d)) = 3 ∧ u.raised (R.QP_EVENT q) (dirCode d) = true) ∧
      (failed = false → s.bit (rf F.QP_RX_STAT_own_wait q (dirCode d)) = false → (match descs with | e :: _ => decide (e.w3.toNat / 2 ^ 63 = 0) | [] => false) = true → u.f (rf F.QP_RX_STAT_own_wait q (dirCode d)) = 1 ∧ u.raised (R.QP_EVENT q) 7 = true ∧ (u.ring q (dirCode d)).descs = [] ∧ u.rgState q (dirCode d) = rgRunning) ∧
      OnlyIn [R.PKT_EVENT] [.PKT_LAT_MINMAX, .PKT_LAT_OVER, .PKT_LAT_MEASURED, .HEAD_REQ_STAT, .HEAD_ATC_STAT, .QP_RX_HEAD_IDX, .QP_RX_STAT, .QP_RX_STATE, .QP_RX_FRAMES, .QP_RX_DROPS, .QP_RX_BAD, .QP_TX_HEAD_IDX, .QP_TX_STAT, .QP_TX_STATE, .QP_TX_FRAMES, .QP_TX_DROPS, .QP_TX_BAD, .QP_EVENT] s u ∧ Keeps (ringParts ++ [.draws]) s u) ∧
  -- OWN_RECHECK of a ring that waits reads the descriptors again.
  (∀ (q : Qp) (d : Dir) (s : State),
    s.ok = true → s.bit (rf F.QP_RX_STAT_own_wait q (dirCode d)) = true → s.rgState q (dirCode d) = rgRunning →
    (s.ring q (dirCode d)).fetching = 0 → (s.ring q (dirCode d)).descs = [] →
    Acts (.ownRecheck q d) s fun u =>
      (∀ h ∈ (s.qpHead q).toList, s.winOk h (s.descAddr q (dirCode d) (s.ringIdx q (dirCode d) (s.ring q (dirCode d)).taken)) 32 false false = true → s.unitsFree h ≠ 0 → (s.ringTail q (dirCode d) + s.ringSize q (dirCode d) - s.ringIdx q (dirCode d) (s.ring q (dirCode d)).taken) % max 1 (s.ringSize q (dirCode d)) ≠ 0 → (u.ring q (dirCode d)).fetching ≠ 0) ∧
      OnlyIn [ringOff (R.QP_RX_STAT q) (dirCode d)] [.HEAD_REQ_STAT] s u ∧ Keeps [.rings, .messages, .sent] s u) ∧
  -- RING_ENABLE of a stopped ring: RUNNING and empty, or refused with the reason.
  (∀ (path : Path) (q : Qp) (d : Dir) (s : State),
    s.ok = true → Granted path (ringOff (R.QP_RX_CTL q) (dirCode d)) s → s.rgState q (dirCode d) = rgStopped → s.remouldNames q = false →
    Acts (.ringEnable path q d) s fun u =>
      (s.enableRefusal q (dirCode d) ≠ 0 → u.f (rf F.QP_RX_STAT_refused q (dirCode d)) = s.enableRefusal q (dirCode d) ∧ u.f (rf F.QP_RX_CTL_en q (dirCode d)) = 0 ∧ u.rgState q (dirCode d) = rgStopped) ∧
      (s.enableRefusal q (dirCode d) = 0 → u.rgState q (dirCode d) = rgRunning ∧ u.f (rf F.QP_RX_CTL_en q (dirCode d)) = 1 ∧ u.f (rf F.QP_RX_STAT_refused q (dirCode d)) = 0 ∧ (u.ring q (dirCode d)).taken = 0) ∧
      OnlyIn [ringOff (R.QP_RX_CTL q) (dirCode d), ringOff (R.QP_RX_STAT q) (dirCode d), ringOff (R.QP_RX_STATE q) (dirCode d), ringOff (R.QP_RX_DROPS q) (dirCode d), ringOff (R.QP_RX_DROPS q) (dirCode d) + 4] [.HEAD_REQ_STAT] s u ∧ Keeps [.ports, .heads, .rings, .messages, .sent] s u) ∧
  -- RING_DISABLE: STOPPING, what was fetched is discarded.
  (∀ (path : Path) (q : Qp) (d : Dir) (s : State),
    s.ok = true → Granted path (ringOff (R.QP_RX_CTL q) (dirCode d)) s →
    s.rgState q (dirCode d) = rgRunning ∨ s.rgState q (dirCode d) = rgFault →
    Acts (.ringDisable path q d) s fun u =>
      u.rgState q (dirCode d) = rgStopping ∧
      u.f (rf F.QP_RX_CTL_en q (dirCode d)) = 0 ∧
      (u.ring q (dirCode d)).descs = [] ∧
      u.f (rf F.QP_RX_STAT_prefetched q (dirCode d)) = 0 ∧
      OnlyWords [ringOff (R.QP_RX_CTL q) (dirCode d), ringOff (R.QP_RX_STAT q) (dirCode d), ringOff (R.QP_RX_STATE q) (dirCode d), ringOff (R.QP_RX_DROPS q) (dirCode d), ringOff (R.QP_RX_DROPS q) (dirCode d) + 4] s u ∧ Keeps [.ports, .rings, .messages] s u) ∧
  -- RING_STOPPED of a drained ring: STOPPED with its event.
  (∀ (q : Qp) (d : Dir) (s : State),
    s.ok = true → s.rgState q (dirCode d) = rgStopping → (s.ring q (dirCode d)).held = [] → (s.ring q (dirCode d)).flights = [] →
    Acts (.ringStopped q d) s fun u =>
      u.rgState q (dirCode d) = rgStopped ∧
      u.ring q (dirCode d) = { nextId := (s.ring q (dirCode d)).nextId } ∧
      u.raised (R.QP_EVENT q) (5 + dirCode d) = true ∧
      OnlyIn [ringOff (R.QP_RX_STATE q) (dirCode d), R.QP_EVENT q] [.HEAD_REQ_STAT] s u ∧ Keeps [.windows, .rings] s u) ∧
  -- RING_ACK: the index stored; armed unless the count is due already.
  (∀ (path : Path) (q : Qp) (d : Dir) (ack : BitVec 15) (s : State),
    s.ok = true → Granted path (ringOff (R.QP_RX_ACK q) (dirCode d)) s →
    Acts (.ringAck path q d ack) s fun u =>
      u.f (rf F.QP_RX_ACK_ack q (dirCode d)) = ack.toNat ∧
      u.f (rf F.QP_RX_STAT_due q (dirCode d)) = b2n (u.ringDue q (dirCode d)) ∧
      u.f (rf F.QP_RX_STAT_armed q (dirCode d)) = b2n (!u.ringDue q (dirCode d)) ∧
      OnlyWords [ringOff (R.QP_RX_ACK q) (dirCode d), ringOff (R.QP_RX_STAT q) (dirCode d)] s u ∧ Keeps [.heads, .rings, .messages, .sent] s u) ∧
  -- MODERATION_TIMER: passed, due shown.
  (∀ (q : Qp) (d : Dir) (s : State),
    s.ok = true → (s.ring q (dirCode d)).timer = 1 → s.f (rf F.QP_RX_MOD_timer_us q (dirCode d)) ≠ 0 →
    Acts (.moderationTimer q d) s fun u =>
      (u.ring q (dirCode d)).timer = 2 ∧
      u.f (rf F.QP_RX_STAT_due q (dirCode d)) = b2n (u.ringDue q (dirCode d)) ∧
      OnlyWords [ringOff (R.QP_RX_STAT q) (dirCode d)] s u ∧ Keeps [.heads, .rings, .sent] s u)

/-- Transmit data, frames and their path to the line (R416, R419, R420, R437, R341, R421). -/
def Obligations.TransmitFrames : Prop :=
  -- DATA_READ_COMPLETION of a frame's last part: its bytes are whole, or the frame ends DATA_ERR.
  (∀ (q : Qp) (failed : Bool) (bytes : List Byte) (s : State),
    s.ok = true → (s.ring q 1).reading ≠ 0 → s.rgState q 1 = rgRunning → (s.ring q 1).whole = false → (s.qpHead q).isSome = true →
    ((match (s.ring q 1).cur.getLast? with | some e => isLast e | none => false) = true) →
    Acts (.dataReadCompletion q failed bytes) s fun u =>
      (failed = false → (u.ring q 1).whole = true ∧ (u.ring q 1).reading = 0 ∧ ∀ e ∈ (s.ring q 1).cur.getLast?.toList, (u.ring q 1).data = (s.ring q 1).data ++ (bytes ++ List.replicate (e.w1 % 2 ^ 16 - bytes.length) 0).take (e.w1 % 2 ^ 16)) ∧
      (failed = true → (s.ring q 1).flights = [] → Raised ⟨0x0B, kDescBad, 0, stDataErr, q + 2 ^ 15⟩ s u ∧ u.raised (R.QP_EVENT q) 3 = true) ∧
      OnlyIn [R.PKT_EVENT] [.PKT_LAT_MINMAX, .PKT_LAT_OVER, .PKT_LAT_MEASURED, .HEAD_REQ_STAT, .HEAD_ATC_STAT, .QP_RX_HEAD_IDX, .QP_RX_STAT, .QP_RX_STATE, .QP_RX_FRAMES, .QP_RX_DROPS, .QP_RX_BAD, .QP_TX_HEAD_IDX, .QP_TX_STAT, .QP_TX_STATE, .QP_TX_FRAMES, .QP_TX_DROPS, .QP_TX_BAD, .QP_EVENT] s u ∧ Keeps (ringParts ++ [.draws]) s u) ∧
  -- TX_FRAME_FETCHED of a frame that may be sent: at the head of its class, counted as the next flight.
  (∀ (q : Qp) (s : State),
    s.ok = true → (s.ring q 1).whole = true → s.rgState q 1 = rgRunning → (s.ring q 1).descs = [] → (s.ring q 1).flights = [] →
    (s.port (s.ring q 1).port).txq = [] → (s.port (s.ring q 1).port).sending = none →
    ((match (s.ring q 1).cur.head? with | some e => decide (e.w1 / 2 ^ 16 % 2 = 0) | none => false) = true) →
    s.txVerdict (s.ring q 1).port { owner := some (q, (s.ring q 1).nextId), cls := (s.ring q 1).cls, bytes := (s.ring q 1).data, launch := none } = stOk →
    Acts (.txFrameFetched q) s fun u =>
      (u.port (s.ring q 1).port).txq = [{ owner := some (q, (s.ring q 1).nextId), cls := (s.ring q 1).cls, bytes := (s.ring q 1).data, launch := none, seen := true, released := ((u.port (s.ring q 1).port).txq.map (·.released)).headD false }] ∧
      (u.ring q 1).whole = false ∧
      (u.ring q 1).cur = [] ∧
      (u.ring q 1).nextId = (s.ring q 1).nextId + 1 ∧
      (u.ring q 1).flights.map (·.id) = [(s.ring q 1).nextId] ∧
      OnlyIn [R.QP_RX_HEAD_IDX q, R.QP_RX_STAT q, R.QP_RX_STATE q, R.QP_RX_FRAMES q, R.QP_RX_FRAMES q + 4, R.QP_RX_DROPS q, R.QP_RX_DROPS q + 4, R.QP_RX_BAD q, R.QP_TX_HEAD_IDX q, R.QP_TX_STAT q, R.QP_TX_STATE q, R.QP_TX_FRAMES q, R.QP_TX_FRAMES q + 4, R.QP_TX_DROPS q, R.QP_TX_DROPS q + 4, R.QP_TX_BAD q, R.QP_EVENT q] [.LCH_GCL_STAT, .HEAD_REQ_STAT, .HEAD_ATC_STAT, .BND_STAT, .BND_EVENT, .BND_PAIR_STAT, .PORT_TX_OVERSIZE, .PORT_LPI_STAT] s u ∧ Keeps (ringParts ++ [.bundles, .furnace]) s u) ∧
  -- TX_FRAME_START: the frame that may be sent is on the line.
  (∀ (p : Port) (ecc : Fin 3) (syndrome : BitVec 8) (cell : BitVec 18) (s : State),
    s.ok = true → ecc.val ≠ 2 → (s.port p).sending = none → s.macSends p = true → (s.port p).exiting = false →
    s.bit (F.PORT_LPI_STAT_tx_lpi p) = false → s.bit (F.PORT_SEG_STAT_plca_active p) = false →
    ((match (s.port p).txq with | [f] => f.seen && decide (s.txVerdict p f = stOk) | _ => false) = true) → (s.txNext p).isSome = true →
    Acts (.txFrameStart p ecc syndrome cell) s fun u =>
      (u.port p).sending = s.txNext p ∧
      (u.port p).txq = [] ∧
      OnlyIn [R.LCH_GCL_STAT p, R.CEL_ECC, R.CEL_EVENT, R.PORT_TX_OVERSIZE p, R.PORT_TX_OVERSIZE p + 4, R.PORT_SEG_STAT p, R.PORT_SEG_EVENT p, R.PORT_LPI_STAT p] [.HEAD_REQ_STAT, .HEAD_ATC_STAT, .BND_STAT, .BND_EVENT, .BND_PAIR_STAT, .PORT_SEG_CENSUS, .QP_RX_HEAD_IDX, .QP_RX_STAT, .QP_RX_STATE, .QP_RX_FRAMES, .QP_RX_DROPS, .QP_RX_BAD, .QP_TX_HEAD_IDX, .QP_TX_STAT, .QP_TX_STATE, .QP_TX_FRAMES, .QP_TX_DROPS, .QP_TX_BAD, .QP_EVENT] s u ∧ Keeps (ringParts ++ [.bundles, .furnace]) s u) ∧
  -- LAUNCH_TIME releases a held frame whose time has come.
  (∀ (p : Port) (s : State),
    s.ok = true →
    ((match (s.port p).txq with | [f] => f.seen && f.waiting && f.launch.any (fun t => decide (tbAhead s.tb64 t ≤ 0)) && decide (s.txVerdict p f = stOk) | _ => false) = true) →
    (s.port p).sending = none →
    Acts (.launchTime p) s fun u =>
      ((u.port p).txq = (s.port p).txq.map fun f => { f with waiting := false, released := ((u.port p).txq.map (·.released)).headD false }) ∧
      OnlyIn [R.LCH_GCL_STAT p, R.PORT_TX_OVERSIZE p, R.PORT_TX_OVERSIZE p + 4, R.PORT_LPI_STAT p] [.HEAD_REQ_STAT, .HEAD_ATC_STAT, .BND_STAT, .BND_EVENT, .BND_PAIR_STAT, .QP_RX_HEAD_IDX, .QP_RX_STAT, .QP_RX_STATE, .QP_RX_FRAMES, .QP_RX_DROPS, .QP_RX_BAD, .QP_TX_HEAD_IDX, .QP_TX_STAT, .QP_TX_STATE, .QP_TX_FRAMES, .QP_TX_DROPS, .QP_TX_BAD, .QP_EVENT] s u ∧ Keeps (ringParts ++ [.bundles, .furnace]) s u) ∧
  -- TX_FRAME_SENT: the padded frame has left; frames and bytes are counted.
  (∀ (p : Port) (age : Nat) (s : State),
    s.ok = true → s.macUp p = true → (s.port p).sending.isSome = true → (s.port p).txq = [] →
    Acts (.txFrameSent p age) s fun u =>
      (u.port p).sending = none ∧
      u.wide (R.PORT_TX_FRAMES p) 2 = (s.wide (R.PORT_TX_FRAMES p) 2 + 1) % 2 ^ 64 ∧
      (∀ f ∈ (s.port p).sending.toList, u.wide (R.PORT_TX_BYTES p) 2 = (s.wide (R.PORT_TX_BYTES p) 2 + txLen f.bytes) % 2 ^ 64 ∧ Sent (.frame p (f.bytes ++ List.replicate (60 - f.bytes.length) 0)) s u) ∧
      Frame (ringTables ++ [.CEL_DROPS, .CEL_ECC, .CEL_EVENT, .PKT_LAT_MINMAX, .PKT_LAT_OVER, .PKT_LAT_MEASURED, .PKT_EVENT, .PKT_NOMATCH, .PKT_CLS_HIT, .BND_STAT, .BND_EVENT, .BND_PAIR_STAT, .CANE_LOSS_FRAMES, .PORT_RX_FRAMES, .PORT_RX_BYTES, .PORT_RX_FCS_ERR, .PORT_RX_RUNT, .PORT_RX_OVERSIZE, .PORT_RX_ORPHAN_DROP, .PORT_RX_PAUSE, .PORT_TX_FRAMES, .PORT_TX_BYTES, .PORT_SEG_STAT, .PORT_SEG_CENSUS, .PORT_SEG_EVENT]) (ringParts ++ [.canes, .bundles, .furnace, .draws]) s u ∧ (s.caneOf p = none → OnlyPort p s u))

/-- Completions, responses and translations that rings await; the cellar's shares (R382, R383, R401, R402, R426,
R427, R432, R437). -/
def Obligations.HostReadsAndCellar : Prop :=
  -- GO_RESPONSE: the oldest held write-back leaves where its address is translated; with none held a receive ring
  -- waits no more.
  (∀ (q : Qp) (d : Dir) (s : State),
    s.ok = true → (s.ring q (dirCode d)).goWait = true → (s.ring q (dirCode d)).translating = none → (s.ring q (dirCode d)).frames = [] →
    (s.ring q (dirCode d)).flights = [] → (s.qpHead q).isSome = true →
    Acts (.goResponse q d) s fun u =>
      ((s.ring q (dirCode d)).held = [] → d = .rx → (u.ring q (dirCode d)).goWait = false) ∧
      (∀ w ∈ (s.ring q (dirCode d)).held.head?.toList, ∀ h ∈ (s.qpHead q).toList, ∀ b ∈ w.descs.head?.toList, atcMiss s h 2 (s.descAddr q (dirCode d) w.idx) (s.descAddr q (dirCode d) w.idx + 32) = none → (u.ring q (dirCode d)).goWait = true ∧ Sent (.hostWrite h (s.descAddr q (dirCode d) (w.idx % max 1 (s.ringSize q (dirCode d)))) b true) s u) ∧
      OnlyIn [R.PKT_EVENT] [.PKT_LAT_MINMAX, .PKT_LAT_OVER, .PKT_LAT_MEASURED, .HEAD_REQ_STAT, .HEAD_ATC_STAT, .QP_RX_HEAD_IDX, .QP_RX_STAT, .QP_RX_STATE, .QP_RX_FRAMES, .QP_RX_DROPS, .QP_RX_BAD, .QP_TX_HEAD_IDX, .QP_TX_STAT, .QP_TX_STATE, .QP_TX_FRAMES, .QP_TX_DROPS, .QP_TX_BAD, .QP_EVENT] s u ∧ Keeps (ringParts ++ [.draws]) s u) ∧
  -- TRANSLATION_COMPLETION: with write permission the range is cached; a receive ring with nothing else to write
  -- waits no more.
  (∀ (h : Head) (addr : BitVec 64) (len : Nat) (write : Bool) (s : State),
    s.ok = true → len ≤ 2 ^ 30 →
    ((s.liveRings.any fun r => s.qpHead r.1 == some h.val && (s.ring r.1 r.2).translating.any fun a => decide (addr.toNat ≤ a ∧ a < addr.toNat + len)) = true) →
    Acts (.translationCompletion h addr len write) s fun u =>
      (write = true → (addr.toNat, len) ∈ (u.head h).atc) ∧
      (∀ r ∈ s.liveRings, r.2 = 0 → s.qpHead r.1 = some h.val → (s.ring r.1 0).frames = [] → (s.ring r.1 0).held = [] → ((s.ring r.1 0).translating.any fun a => decide (addr.toNat ≤ a ∧ a < addr.toNat + len)) = true → (u.ring r.1 0).translating = none) ∧
      OnlyIn [R.PKT_EVENT, R.HEAD_REQ_STAT h, R.HEAD_ATC_STAT h] [.PKT_LAT_MINMAX, .PKT_LAT_OVER, .PKT_LAT_MEASURED, .QP_RX_HEAD_IDX, .QP_RX_STAT, .QP_RX_STATE, .QP_RX_FRAMES, .QP_RX_DROPS, .QP_RX_BAD, .QP_TX_HEAD_IDX, .QP_TX_STAT, .QP_TX_STATE, .QP_TX_FRAMES, .QP_TX_DROPS, .QP_TX_BAD, .QP_EVENT] s u ∧ Keeps (ringParts ++ [.draws]) s u) ∧
  -- CEL_CFG_WRITE with every ring off and the cellar empty: 16 to 176; with a ring on: denied.
  (∀ (path : Path) (kcells : BitVec 8) (s : State),
    s.ok = true → Granted path (R.CEL_CFG) s →
    Acts (.celCfgWrite path kcells) s fun u =>
      (((List.range 512).all fun q => !s.bit (F.QP_RX_CTL_en q) && !s.bit (F.QP_TX_CTL_en q)) = true → s.halfCells 0 = 0 → s.halfCells 1 = 0 → u.f F.CEL_CFG_rx_kcells = max 16 (min 176 kcells.toNat)) ∧
      (((List.range 512).all fun q => !s.bit (F.QP_RX_CTL_en q) && !s.bit (F.QP_TX_CTL_en q)) = false → u.reg R.CEL_CFG = s.reg R.CEL_CFG ∧ Raised ⟨srcOf s R.CEL_CFG, kAccessDenied, 0, pathCode path + 8, R.CEL_CFG⟩ s u) ∧
      OnlyWords [R.CEL_CFG] s u ∧ Keeps [.messages] s u) ∧
  -- CEL_SHARE_WRITE: stored, unless the guarantees exceed the half.
  (∀ (path : Path) (h : Head) (d : Dir) (max_ : BitVec 10) (guar : BitVec 10) (s : State),
    s.ok = true → (Granted path (match d with | .rx => R.CEL_HEAD_RX h | .tx => R.CEL_HEAD_TX h) s) →
    Acts (.celShareWrite path h d max_ guar) s fun u =>
      (s.half (dirCode d) < ((List.range 4).map fun k => if k = h.val then 128 * guar.toNat else s.shareGuar k (dirCode d)).sum → u.shareGuar h (dirCode d) = s.shareGuar h (dirCode d) ∧ u.shareMax h (dirCode d) = s.shareMax h (dirCode d)) ∧
      (((List.range 4).map fun k => if k = h.val then 128 * guar.toNat else s.shareGuar k (dirCode d)).sum ≤ s.half (dirCode d) → u.shareGuar h (dirCode d) = 128 * guar.toNat ∧ u.shareMax h (dirCode d) = 128 * max_.toNat) ∧
      Frame [.CEL_HEAD_RX, .CEL_HEAD_TX] [.messages] s u)

/-- Management DMA: enable, disable, doorbell, fetch, one copy inside the SRAM, sync (R446, R460, R461, R463,
R465, R466, R458, R451). -/
def Obligations.ManagementDma : Prop :=
  -- MCH_ENABLE of a channel that is off: counters 0, CUR = FIRST; RUNNING with its fetch, or HALTED for a
  -- misaligned or refused address.
  (∀ (path : Path) (ch : Fin 16) (s : State),
    s.ok = true → Granted path (R.MCH_CTL ch) s → s.mcState ch = mcOff →
    Acts (.mchEnable path ch) s fun u =>
      u.f (F.MCH_CTL_en ch) = 1 ∧
      u.wide (R.MCH_CUR ch) 2 = s.wide (R.MCH_FIRST ch) 2 ∧
      u.wide (R.MCH_DONE ch) 2 = 0 ∧
      u.wide (R.MCH_BYTES ch) 2 = 0 ∧
      u.f (F.MCH_HOPS_hops ch) = 0 ∧
      u.reg (R.MCH_REMAIN ch) = 0 ∧
      ((s.wide (R.MCH_FIRST ch) 2) % 32 = 0 → s.descRefusal ch (s.wide (R.MCH_FIRST ch) 2) 32 false = none → u.mcState ch = mcRunning ∧ (u.chan ch).want = some (s.wide (R.MCH_FIRST ch) 2)) ∧
      ((s.wide (R.MCH_FIRST ch) 2) % 32 ≠ 0 → u.mcState ch = mcHalted ∧ u.f (F.MCH_STAT_halt_cause ch) = 1 ∧ u.raised (R.MCH_EVENT ch) 4 = true) ∧
      ((s.wide (R.MCH_FIRST ch) 2) % 32 = 0 → ∀ e ∈ (s.descRefusal ch (s.wide (R.MCH_FIRST ch) 2) 32 false).toList, u.mcState ch = mcHalted ∧ u.f (F.MCH_STAT_halt_cause ch) = e) ∧
      OnlyIn [R.MCH_CTL ch, R.MCH_CUR ch, R.MCH_CUR ch + 4, R.MCH_STAT ch, R.MCH_HOPS ch, R.MCH_REMAIN ch, R.MCH_DONE ch, R.MCH_DONE ch + 4, R.MCH_BYTES ch, R.MCH_BYTES ch + 4, R.MCH_EVENT ch] [.HEAD_REQ_STAT] s u ∧ Keeps [.windows, .channels, .messages, .sent] s u) ∧
  -- MCH_DISABLE: off, no work left.
  (∀ (path : Path) (ch : Fin 16) (s : State),
    s.ok = true → Granted path (R.MCH_CTL ch) s →
    Acts (.mchDisable path ch) s fun u =>
      u.f (F.MCH_CTL_en ch) = 0 ∧
      u.mcState ch = mcOff ∧
      u.f (F.MCH_STAT_halt_cause ch) = 0 ∧
      u.chan ch = {} ∧
      OnlyIn [R.MCH_CTL ch, R.MCH_CUR ch, R.MCH_CUR ch + 4, R.MCH_STAT ch, R.MCH_HOPS ch, R.MCH_REMAIN ch, R.MCH_DONE ch, R.MCH_DONE ch + 4, R.MCH_BYTES ch, R.MCH_BYTES ch + 4] [.HEAD_REQ_STAT] s u ∧ Keeps [.flash, .sram, .cellar, .channels, .messages, .draws] s u) ∧
  -- MCH_DOORBELL: HOPS 0; at the end of a list the tail is read again and a successor fetched.
  (∀ (path : Path) (ch : Fin 16) (host : Option (BitVec 64)) (s : State),
    s.ok = true → Granted path (R.MCH_DOORBELL ch) s → s.mcState ch = mcRunning ∨ s.mcState ch = mcAtEnd →
    Acts (.mchDoorbell path ch host) s fun u =>
      u.f (F.MCH_HOPS_hops ch) = 0 ∧
      ((s.chan ch).tail = none → u.mcState ch = s.mcState ch ∧ u.chan ch = s.chan ch) ∧
      (s.mcState ch = mcAtEnd → ∀ a ∈ (s.chan ch).tail.toList, (hostOf a).isNone = true → s.descRefusal ch a 32 false = none → (s.sramDesc a).w3 % 2 = 0 → s.descRefusal ch (nextPtr (s.sramDesc a).w3) 32 false = none → u.mcState ch = mcRunning ∧ (u.chan ch).want = some (nextPtr (s.sramDesc a).w3)) ∧
      (s.mcState ch = mcAtEnd → ∀ a ∈ (s.chan ch).tail.toList, (hostOf a).isNone = true → s.descRefusal ch a 32 false = none → (s.sramDesc a).w3 % 2 = 1 → u.mcState ch = mcAtEnd) ∧
      OnlyIn [R.MCH_CUR ch, R.MCH_CUR ch + 4, R.MCH_STAT ch, R.MCH_HOPS ch, R.MCH_EVENT ch] [.HEAD_REQ_STAT] s u ∧ Keeps [.windows, .channels, .messages, .sent] s u) ∧
  -- MDMA_DESC_FETCHED: the descriptor is in progress with CUR and REMAIN, or a failed read halts the channel with
  -- cause 4.
  (∀ (ch : Fin 16) (failed : Bool) (words : DescWords) (s : State),
    s.ok = true → s.mcState ch = mcRunning → (s.chan ch).fetching = true → (s.chan ch).want.isSome = true →
    Acts (.mdmaDescFetched ch failed words) s fun u =>
      (failed = true → u.mcState ch = mcHalted ∧ u.f (F.MCH_STAT_halt_cause ch) = 4 ∧ u.raised (R.MCH_EVENT ch) 4 = true ∧ Raised ⟨0x08, 0x1A, 2, 4, ch⟩ s u) ∧
      (∀ a ∈ (s.chan ch).want.toList, failed = false → (if (hostOf a).isSome then words.w3.toNat else (s.sramDesc a).w3) / 4 % 8 = 0 → (u.chan ch).fetching = false ∧ u.wide (R.MCH_CUR ch) 2 = a % 2 ^ 64 ∧ u.f (F.MCH_REMAIN_bytes ch) = (if (hostOf a).isSome then words.w2.toNat else (s.sramDesc a).w2) % 2 ^ 32 ∧ (u.chan ch).cur.map (·.1) = some a) ∧
      OnlyIn [R.MCH_CUR ch, R.MCH_CUR ch + 4, R.MCH_STAT ch, R.MCH_HOPS ch, R.MCH_REMAIN ch, R.MCH_EVENT ch] [.HEAD_REQ_STAT] s u ∧ Keeps [.windows, .channels, .messages] s u) ∧
  -- MDMA_DESC_COMPLETE of a copy inside the SRAM, within a page: the bytes copied, the status byte OK, every other
  -- byte as before; BYTES, DONE and REMAIN counted.
  (∀ (ch : Fin 16) (data : MdmaData) (wbFail : Bool) (host : Option (BitVec 64)) (s : State),
    s.ok = true → s.mcState ch = mcRunning → (s.chan ch).sync = [] → (s.chan ch).lost = false → stewardChan ch = false → wbFail = false →
    data.readFail = none →
    ((match (s.chan ch).cur with | some (a, d) => decide (d.w2 / 2 ^ 32 = 0 ∧ 0 < d.w2 ∧ d.w2 ≤ 4096 ∧ d.w0 % 4096 + d.w2 ≤ 4096 ∧ d.w1 % 4096 + d.w2 ≤ 4096 ∧ d.w0 + d.w2 ≤ 0x400000 ∧ d.w1 + d.w2 ≤ 0x400000 ∧ a + 32 ≤ 0x400000 ∧ (a + 21 < d.w1 ∨ d.w1 + d.w2 ≤ a + 21)) | none => false) = true) →
    Acts (.mdmaDescComplete ch data wbFail host) s fun u =>
      (∀ e ∈ (s.chan ch).cur.toList, u.sram.readBytes blank e.2.w1 e.2.w2 = s.sram.readBytes blank e.2.w0 e.2.w2 ∧ u.sram.get blank (e.1 + 21) = 16 ∧ SameBut blank [(e.2.w1, e.2.w2), (e.1 + 21, 1)] s.sram u.sram ∧ u.wide (R.MCH_BYTES ch) 2 = (s.wide (R.MCH_BYTES ch) 2 + e.2.w2) % 2 ^ 64 ∧ u.f (F.MCH_REMAIN_bytes ch) = 0) ∧
      u.wide (R.MCH_DONE ch) 2 = (s.wide (R.MCH_DONE ch) 2 + 1) % 2 ^ 64 ∧
      OnlyIn [R.MCH_CUR ch, R.MCH_CUR ch + 4, R.MCH_STAT ch, R.MCH_REMAIN ch, R.MCH_DONE ch, R.MCH_DONE ch + 4, R.MCH_BYTES ch, R.MCH_BYTES ch + 4, R.MCH_IRQ_COUNT ch, R.MCH_EVENT ch] [.HEAD_REQ_STAT] s u ∧ Keeps [.windows, .sram, .channels, .messages, .sent] s u) ∧
  -- MDMA_SYNC_COMPLETION of the last sync read: the descriptor is finished and counted; a failed write-back halts
  -- with cause 5, a failed read counts it bad.
  (∀ (ch : Fin 16) (h : Head) (failed : Bool) (wbFail : Bool) (host : Option (BitVec 64)) (s : State),
    s.ok = true → (s.chan ch).sync = [h.val] →
    ((match (s.chan ch).cur with | some (a, _) => (s.descRefusal ch a 32 true).isNone | none => false) = true) →
    Acts (.mdmaSyncCompletion ch h failed wbFail host) s fun u =>
      (u.chan ch).sync = [] ∧
      (wbFail = false → u.wide (R.MCH_DONE ch) 2 = (s.wide (R.MCH_DONE ch) 2 + 1) % 2 ^ 64) ∧
      (wbFail = true → u.mcState ch = mcHalted ∧ u.f (F.MCH_STAT_halt_cause ch) = 5) ∧
      (failed = true → u.f (F.MCH_STAT_bad_reason ch) = 6 ∧ Raised ⟨0x08, kDescBad, 0, 6, (match (s.chan ch).cur with | some (a, _) => a % 2 ^ 32 | none => 0)⟩ s u) ∧
      OnlyIn [R.MCH_CUR ch, R.MCH_CUR ch + 4, R.MCH_STAT ch, R.MCH_REMAIN ch, R.MCH_DONE ch, R.MCH_DONE ch + 4, R.MCH_BYTES ch, R.MCH_BYTES ch + 4, R.MCH_IRQ_COUNT ch, R.MCH_CMP_OFS ch, R.MCH_LAST_BAD ch, R.MCH_LAST_BAD ch + 4, R.MCH_EVENT ch] [.HEAD_REQ_STAT] s u ∧ Keeps [.windows, .flash, .sram, .cellar, .channels, .messages, .sent] s u)

/-- A request is posted, taken, answered, acknowledged or ended (R404, R405, R406, R407, R409). -/
def Obligations.MailboxHandshake : Prop :=
  -- MBX_POST: IDLE to POSTED with the tag, else denied.
  (∀ (path : Path) (m : Fin 5) (s : State),
    s.ok = true → Granted path (mbxBase m) s →
    Acts (.mbxPost path m) s fun u =>
      (s.mbx m = mbIdle → u.mbx m = mbPosted ∧ u.f (mbxTag m) = bits (s.reg (mbxReq m 0)) 31 24) ∧
      (s.mbx m ≠ mbIdle → u.mbx m = s.mbx m ∧ Raised ⟨srcOf s (mbxBase m), kAccessDenied, 0, pathCode path + 8, mbxBase m⟩ s u) ∧
      OnlyIn [R.HSPI_MBX_STAT] [.HEAD_MBX_STAT] s u ∧ Keeps [.messages] s u) ∧
  -- MBX_TAKE: BUSY.
  (∀ (m : Fin 5) (s : State),
    s.ok = true → s.mbx m = mbPosted → s.fwRuns = true →
    Acts (.mbxTake m) s fun u =>
      u.mbx m = mbBusy ∧
      OnlyIn [R.HSPI_MBX_STAT] [.HEAD_MBX_STAT] s u ∧ Keeps [] s u) ∧
  -- MBX_REPLY to a command that has no row: UNKNOWN, or BAD_ARG for a length above 63; the state is DONE with its
  -- event.
  (∀ (m : Fin 5) (s : State),
    s.ok = true → s.mbx m = mbBusy → s.mbxCmd m = 0x0777 → s.fwRuns = true → (s.head m).waitPort = none → (s.head m).waitLaunch = none →
    Acts (.mbxReply m) s fun u =>
      (63 < s.mbxLen m → u.mbx m = mbDone ∧ u.reg (mbxRsp m 0) = BitVec.ofNat 32 (rsBadArg + 2 ^ 16 * 0 + 2 ^ 24 * bits (s.reg (mbxReq m 0)) 31 24)) ∧
      (s.mbxLen m ≤ 63 → s.bit F.FLT_STAT_safe = false → u.mbx m = mbDone ∧ u.reg (mbxRsp m 0) = BitVec.ofNat 32 (rsUnknown + 2 ^ 16 * 0 + 2 ^ 24 * bits (s.reg (mbxReq m 0)) 31 24)) ∧
      ((m.val < 4 → u.raised (R.HEAD_EVENT m) 4 = true) ∧ (m.val = 4 → u.raised R.HSPI_KEVENT 0 = true)) ∧
      OnlyIn [R.HSPI_KEVENT, R.HSPI_MBX_STAT] [.HSPI_MBX_RSP, .HEAD_EVENT, .HEAD_MBX_STAT, .HEAD_MBX_RSP] s u ∧ Keeps [.windows, .heads, .sent] s u) ∧
  -- MBX_ACK: DONE to IDLE.
  (∀ (path : Path) (m : Fin 5) (s : State),
    s.ok = true → Granted path (mbxBase m) s →
    Acts (.mbxAck path m) s fun u =>
      (s.mbx m = mbDone → u.mbx m = mbIdle) ∧
      (s.mbx m ≠ mbDone → u.mbx m = s.mbx m) ∧
      OnlyIn [R.HSPI_MBX_STAT] [.HEAD_MBX_STAT] s u ∧ Keeps [.messages] s u) ∧
  -- MBX_ABORT: a request that is posted or taken ends ABORTED.
  (∀ (path : Path) (m : Fin 5) (s : State),
    s.ok = true → Granted path (mbxBase m) s →
    Acts (.mbxAbort path m) s fun u =>
      (s.mbx m = mbPosted ∨ s.mbx m = mbBusy → u.mbx m = mbDone ∧ u.reg (mbxRsp m 0) = BitVec.ofNat 32 (rsAborted + 2 ^ 16 * 0 + 2 ^ 24 * bits (s.reg (mbxReq m 0)) 31 24) ∧ (u.head m).waitLaunch = none) ∧
      (s.mbx m = mbIdle ∨ s.mbx m = mbDone → u.mbx m = s.mbx m) ∧
      OnlyIn [R.LCH_EVENT, R.HSPI_KEVENT, R.HSPI_MBX_STAT] [.LCH_LG_STAT, .HSPI_MBX_RSP, .HEAD_EVENT, .HEAD_MBX_STAT, .HEAD_MBX_RSP] s u ∧ Keeps [.windows, .heads, .messages, .sent] s u) ∧
  -- NO_FW of a posted request: NO_FW.
  (∀ (m : Fin 5) (s : State),
    s.ok = true → s.mbx m = mbPosted →
    Acts (.noFw m) s fun u =>
      (u.mbx m = mbDone ∧ u.reg (mbxRsp m 0) = BitVec.ofNat 32 (rsNoFw + 2 ^ 16 * 0 + 2 ^ 24 * bits (s.reg (mbxReq m 0)) 31 24)) ∧
      ((m.val < 4 → u.raised (R.HEAD_EVENT m) 4 = true) ∧ (m.val = 4 → u.raised R.HSPI_KEVENT 0 = true)) ∧
      OnlyIn [R.HSPI_KEVENT, R.HSPI_MBX_STAT] [.HSPI_MBX_RSP, .HEAD_EVENT, .HEAD_MBX_STAT, .HEAD_MBX_RSP] s u ∧ Keeps [.windows, .heads, .sent] s u) ∧
  -- GET_INFO: 14 words with GLB.MODE and the active digest.
  (∀ (m : Fin 5) (s : State),
    s.ok = true → s.mbx m = mbBusy → s.mbxCmd m = cmGetInfo → s.fwRuns = true → (s.head m).waitPort = none → (s.head m).waitLaunch = none →
    s.mbxLen m ≤ 63 →
    Acts (.getInfo m) s fun u =>
      (u.mbx m = mbDone ∧ u.reg (mbxRsp m 0) = BitVec.ofNat 32 (rsOk + 2 ^ 16 * 14 + 2 ^ 24 * bits (s.reg (mbxReq m 0)) 31 24)) ∧
      u.reg (mbxRsp m 2) = s.reg R.GLB_MODE ∧
      (∀ i : Fin 12, u.reg (mbxRsp m (i.val + 3)) = s.reg (R.MLD_ACTIVE_DIGEST + 4 * i.val)) ∧
      OnlyIn [R.HSPI_KEVENT, R.HSPI_MBX_STAT] [.HSPI_MBX_RSP, .HEAD_EVENT, .HEAD_MBX_STAT, .HEAD_MBX_RSP] s u ∧ Keeps [.windows, .heads, .sent] s u) ∧
  -- ECHO returns the payload; a length above 63 is BAD_ARG.
  (∀ (m : Fin 5) (s : State),
    s.ok = true → s.mbx m = mbBusy → s.mbxCmd m = cmEcho → s.fwRuns = true → (s.head m).waitPort = none → (s.head m).waitLaunch = none →
    Acts (.echo m) s fun u =>
      (63 < s.mbxLen m → u.mbx m = mbDone ∧ u.reg (mbxRsp m 0) = BitVec.ofNat 32 (rsBadArg + 2 ^ 16 * 0 + 2 ^ 24 * bits (s.reg (mbxReq m 0)) 31 24)) ∧
      (s.mbxLen m ≤ 63 → u.mbx m = mbDone ∧ u.reg (mbxRsp m 0) = BitVec.ofNat 32 (rsOk + 2 ^ 16 * s.mbxLen m + 2 ^ 24 * bits (s.reg (mbxReq m 0)) 31 24)) ∧
      (s.mbxLen m ≤ 63 → ∀ i < s.mbxLen m, u.reg (mbxRsp m (i + 1)) = s.reg (mbxReq m (i + 1))) ∧
      OnlyIn [R.HSPI_KEVENT, R.HSPI_MBX_STAT] [.HSPI_MBX_RSP, .HEAD_EVENT, .HEAD_MBX_STAT, .HEAD_MBX_RSP] s u ∧ Keeps [.windows, .heads, .sent] s u) ∧
  -- MODE_VOTE: the vote is stored and the target returned; a bad vote is BAD_ARG, force from a head DENIED.
  (∀ (m : Fin 5) (s : State),
    s.ok = true → s.mbx m = mbBusy → s.mbxCmd m = cmModeVote → s.fwRuns = true → (s.head m).waitPort = none → (s.head m).waitLaunch = none →
    s.mbxLen m ≤ 63 → s.bit F.FLT_STAT_safe = false →
    Acts (.modeVote m) s fun u =>
      (s.mbxLen m = 0 ∨ (s.mbxArg m 1 % 8) = 0 ∨ (s.mbxArg m 1 % 8) = 3 ∨ 4 < (s.mbxArg m 1 % 8) → u.mbx m = mbDone ∧ u.reg (mbxRsp m 0) = BitVec.ofNat 32 (rsBadArg + 2 ^ 16 * 0 + 2 ^ 24 * bits (s.reg (mbxReq m 0)) 31 24) ∧ u.reg R.PWR_VOTES = s.reg R.PWR_VOTES) ∧
      (s.mbxLen m ≠ 0 → (s.mbxArg m 1 % 8) = 1 ∨ (s.mbxArg m 1 % 8) = 2 ∨ (s.mbxArg m 1 % 8) = 4 → m.val < 4 → bitOf (s.mbxArg m 1) 8 = true → u.mbx m = mbDone ∧ u.reg (mbxRsp m 0) = BitVec.ofNat 32 (rsDenied + 2 ^ 16 * 0 + 2 ^ 24 * bits (s.reg (mbxReq m 0)) 31 24) ∧ u.reg R.PWR_VOTES = s.reg R.PWR_VOTES) ∧
      (s.mbxLen m ≠ 0 → (s.mbxArg m 1 % 8) = 1 ∨ (s.mbxArg m 1 % 8) = 2 ∨ (s.mbxArg m 1 % 8) = 4 → m.val < 4 → bitOf (s.mbxArg m 1) 8 = false → u.f F.PWR_VOTES_heads / 16 ^ m.val % 16 = 8 + (s.mbxArg m 1 % 8) ∧ u.f F.PWR_VOTES_target = u.voteTarget ∧ u.mbx m = mbDone ∧ u.reg (mbxRsp m 0) = BitVec.ofNat 32 (rsOk + 2 ^ 16 * 1 + 2 ^ 24 * bits (s.reg (mbxReq m 0)) 31 24)) ∧
      (s.mbxLen m ≠ 0 → (s.mbxArg m 1 % 8) = 1 ∨ (s.mbxArg m 1 % 8) = 2 ∨ (s.mbxArg m 1 % 8) = 4 → m.val = 4 → u.f F.PWR_VOTES_keeper = (s.mbxArg m 1 % 8) ∧ u.bit F.PWR_VOTES_keeper_force = bitOf (s.mbxArg m 1) 8 ∧ u.mbx m = mbDone ∧ u.reg (mbxRsp m 0) = BitVec.ofNat 32 (rsOk + 2 ^ 16 * 1 + 2 ^ 24 * bits (s.reg (mbxReq m 0)) 31 24)) ∧
      OnlyIn [R.PWR_VOTES, R.HSPI_KEVENT, R.HSPI_MBX_STAT] [.HSPI_MBX_RSP, .HEAD_EVENT, .HEAD_MBX_STAT, .HEAD_MBX_RSP] s u ∧ Keeps [.windows, .heads, .sent] s u)

/-- Mailbox commands that start an activity; a lost completion (R402, R406, R407, R408). -/
def Obligations.MailboxActivities : Prop :=
  -- PORT_ANNEAL and PORT_TDR: BAD_ARG without an argument, DENIED for a port of another head, BUSY while one runs;
  -- else started as the port's own command (a segment in LISTEN; any port in LISTEN outside a cane), the reply
  -- waits.
  (∀ (m : Fin 5) (s : State),
    s.ok = true → s.mbx m = mbBusy → s.mbxCmd m = cmAnneal → s.fwRuns = true → (s.head m).waitPort = none → (s.head m).waitLaunch = none →
    m.val < 4 → s.mbxLen m ≤ 63 → s.bit F.FLT_STAT_safe = false →
    Acts (.portAnneal m) s fun u =>
      (s.mbxLen m = 0 → u.mbx m = mbDone ∧ u.reg (mbxRsp m 0) = BitVec.ofNat 32 (rsBadArg + 2 ^ 16 * 0 + 2 ^ 24 * bits (s.reg (mbxReq m 0)) 31 24)) ∧
      (s.mbxLen m ≠ 0 → s.portHead (s.mbxArg m 1 % 64) ≠ some m.val → u.mbx m = mbDone ∧ u.reg (mbxRsp m 0) = BitVec.ofNat 32 (rsDenied + 2 ^ 16 * 0 + 2 ^ 24 * bits (s.reg (mbxReq m 0)) 31 24)) ∧
      (s.mbxLen m ≠ 0 → s.portHead (s.mbxArg m 1 % 64) = some m.val → s.f (F.CAL_PORT_STAT_state (s.mbxArg m 1 % 64)) = 1 ∨ s.f (F.CAL_PORT_STAT_state (s.mbxArg m 1 % 64)) = 2 → u.mbx m = mbDone ∧ u.reg (mbxRsp m 0) = BitVec.ofNat 32 (rsBusy + 2 ^ 16 * 0 + 2 ^ 24 * bits (s.reg (mbxReq m 0)) 31 24)) ∧
      (s.mbxLen m ≠ 0 → s.portHead (s.mbxArg m 1 % 64) = some m.val → s.f (F.CAL_PORT_STAT_state (s.mbxArg m 1 % 64)) ≠ 1 → s.f (F.CAL_PORT_STAT_state (s.mbxArg m 1 % 64)) ≠ 2 → s.pst (s.mbxArg m 1 % 64) = stListen → s.domOn (portDomain (s.mbxArg m 1 % 64)) = true → portClass (s.mbxArg m 1 % 64) = .segment → s.ledger.books = [] → s.ledger.queue = [] → u.f (F.CAL_PORT_STAT_state (s.mbxArg m 1 % 64)) = 2 ∧ u.mbx m = mbBusy ∧ (u.head m).waitPort = some (cmAnneal, (s.mbxArg m 1 % 64))) ∧
      Frame [.TB_STAT, .TB_EVENT, .CAL_PORT_CTL, .CAL_PORT_STAT, .CAL_PORT_QUAL, .DIAG_LEDGER_STAT, .DIAG_EVENT, .DIAG_TDR_CTL, .DIAG_TDR_STAT, .HSPI_KEVENT, .HSPI_MBX_STAT, .HSPI_MBX_RSP, .HEAD_EVENT, .HEAD_MBX_STAT, .HEAD_MBX_RSP, .BND_STAT, .BND_EVENT, .BND_PAIR_STAT, .CANE_STAT, .CANE_EVENT, .WAKE_PENDING, .PORT_CTL, .PORT_STATE, .PORT_PARTNER_ABIL, .PORT_PARTNER_FLAGS, .PORT_PARTNER_ID, .PORT_LINK_QUAL, .PORT_MSE_REF, .PORT_DROP_COUNT, .PORT_DROP_HIST_IDX, .PORT_DROP_HIST, .PORT_EVENT, .PORT_X50_STAT, .PORT_AM_STAT, .PORT_LOOP_STAT, .PORT_SEG_STAT, .PORT_LPI_STAT, .PORT_TC10_STAT] (linkParts ++ [.heads, .draws]) s u) ∧
  (∀ (m : Fin 5) (s : State),
    s.ok = true → s.mbx m = mbBusy → s.mbxCmd m = cmTdr → s.fwRuns = true → (s.head m).waitPort = none → (s.head m).waitLaunch = none →
    m.val < 4 → s.mbxLen m ≤ 63 → s.bit F.FLT_STAT_safe = false →
    Acts (.portTdr m) s fun u =>
      (s.mbxLen m = 0 → u.mbx m = mbDone ∧ u.reg (mbxRsp m 0) = BitVec.ofNat 32 (rsBadArg + 2 ^ 16 * 0 + 2 ^ 24 * bits (s.reg (mbxReq m 0)) 31 24)) ∧
      (s.mbxLen m ≠ 0 → s.portHead (s.mbxArg m 1 % 64) ≠ some m.val → u.mbx m = mbDone ∧ u.reg (mbxRsp m 0) = BitVec.ofNat 32 (rsDenied + 2 ^ 16 * 0 + 2 ^ 24 * bits (s.reg (mbxReq m 0)) 31 24)) ∧
      (s.mbxLen m ≠ 0 → s.portHead (s.mbxArg m 1 % 64) = some m.val → s.f (F.DIAG_TDR_STAT_state (s.mbxArg m 1 % 64)) = 1 ∨ s.f (F.DIAG_TDR_STAT_state (s.mbxArg m 1 % 64)) = 2 → u.mbx m = mbDone ∧ u.reg (mbxRsp m 0) = BitVec.ofNat 32 (rsBusy + 2 ^ 16 * 0 + 2 ^ 24 * bits (s.reg (mbxReq m 0)) 31 24)) ∧
      (s.mbxLen m ≠ 0 → s.portHead (s.mbxArg m 1 % 64) = some m.val → s.f (F.DIAG_TDR_STAT_state (s.mbxArg m 1 % 64)) ≠ 1 → s.f (F.DIAG_TDR_STAT_state (s.mbxArg m 1 % 64)) ≠ 2 → s.pst (s.mbxArg m 1 % 64) = stListen → s.domOn (portDomain (s.mbxArg m 1 % 64)) = true → s.caneOf (s.mbxArg m 1 % 64) = none → s.mayTransmit (s.mbxArg m 1 % 64) = true → s.ledger.books = [] → s.ledger.queue = [] → u.f (F.DIAG_TDR_STAT_state (s.mbxArg m 1 % 64)) = 2 ∧ u.mbx m = mbBusy ∧ (u.head m).waitPort = some (cmTdr, (s.mbxArg m 1 % 64))) ∧
      Frame [.TB_STAT, .TB_EVENT, .CAL_PORT_CTL, .CAL_PORT_STAT, .CAL_PORT_QUAL, .DIAG_LEDGER_STAT, .DIAG_EVENT, .DIAG_TDR_CTL, .DIAG_TDR_STAT, .HSPI_KEVENT, .HSPI_MBX_STAT, .HSPI_MBX_RSP, .HEAD_EVENT, .HEAD_MBX_STAT, .HEAD_MBX_RSP, .BND_STAT, .BND_EVENT, .BND_PAIR_STAT, .CANE_STAT, .CANE_EVENT, .WAKE_PENDING, .PORT_CTL, .PORT_STATE, .PORT_PARTNER_ABIL, .PORT_PARTNER_FLAGS, .PORT_PARTNER_ID, .PORT_LINK_QUAL, .PORT_MSE_REF, .PORT_DROP_COUNT, .PORT_DROP_HIST_IDX, .PORT_DROP_HIST, .PORT_EVENT, .PORT_X50_STAT, .PORT_AM_STAT, .PORT_LOOP_STAT, .PORT_SEG_STAT, .PORT_LPI_STAT, .PORT_TC10_STAT] (linkParts ++ [.heads, .draws]) s u) ∧
  -- LAUNCH inside the partition, at a time to come: the lowest free group is armed by the Gaffer with mask, time,
  -- kind and pin, the reply waits.
  (∀ (m : Fin 5) (s : State),
    s.ok = true → s.mbx m = mbBusy → s.mbxCmd m = cmLaunch → s.fwRuns = true → (s.head m).waitPort = none → (s.head m).waitLaunch = none →
    m.val < 4 → s.mbxLen m ≤ 63 → s.bit F.FLT_STAT_safe = false → 6 ≤ s.mbxLen m → s.mbxArg m 1 / 2 ^ 24 = 0 →
    s.launchConflict m (s.mbxArg m 1) = false → s.freeGroup.isSome = true → s.tb.total < layoutTotal (s.wide (mbxReq m 2) 4) →
    Acts (.launch m) s fun u =>
      (∀ g ∈ s.freeGroup.toList, (u.head m).waitLaunch = some g ∧ u.f (F.LCH_LG_MASK_groups g) = s.mbxArg m 1 ∧ u.wide (R.LCH_LG_TIME g) 4 = s.wide (mbxReq m 2) 4 ∧ u.f (F.LCH_LG_STAT_state g) = lgArmed ∧ u.f (F.LCH_LG_CTL_armer g) = 4 ∧ u.f (F.LCH_LG_CTL_src g) = 0 ∧ u.bit (F.LCH_LG_CTL_out_ g) = bitOf (s.mbxArg m 6) 0 ∧ u.bit (F.LCH_LG_CTL_kind g) = bitOf (s.mbxArg m 6) 1) ∧
      u.mbx m = mbBusy ∧
      OnlyIn [] [.LCH_LG_MASK, .LCH_LG_TIME, .LCH_LG_CTL, .LCH_LG_STAT] s u ∧ Keeps [.heads] s u) ∧
  -- LAUNCH_REPLY_TIMEOUT: the reply holds the group's STAT, TARGET, APPLIED and LATE as they stand.
  (∀ (m : Fin 5) (s : State),
    s.ok = true → s.mbx m = mbBusy → (s.head m).waitLaunch.isSome = true →
    Acts (.launchReplyTimeout m) s fun u =>
      (∀ g ∈ (s.head m).waitLaunch.toList, s.f (F.LCH_LG_STAT_state g) = lgDone ∨ s.f (F.LCH_LG_STAT_state g) = lgDoneLate ∨ s.f (F.LCH_LG_STAT_state g) = lgApplying → u.mbx m = mbDone ∧ u.reg (mbxRsp m 0) = BitVec.ofNat 32 (rsOk + 2 ^ 16 * 13 + 2 ^ 24 * bits (s.reg (mbxReq m 0)) 31 24) ∧ u.reg (mbxRsp m 1) = s.reg (R.LCH_LG_STAT g) ∧ ∀ i : Fin 4, u.reg (mbxRsp m (i.val + 2)) = s.reg (R.LCH_LG_TARGET g + 4 * i.val) ∧ u.reg (mbxRsp m (i.val + 6)) = s.reg (R.LCH_LG_APPLIED g + 4 * i.val) ∧ u.reg (mbxRsp m (i.val + 10)) = s.reg (R.LCH_LG_LATE g + 4 * i.val)) ∧
      OnlyIn [R.HSPI_KEVENT, R.HSPI_MBX_STAT] [.HSPI_MBX_RSP, .HEAD_EVENT, .HEAD_MBX_STAT, .HEAD_MBX_RSP] s u ∧ Keeps [.windows, .heads, .sent] s u) ∧
  -- COMPLETION_TIMEOUT of a read that is out: BUS_ERROR with the tag and its event; a descriptor read of a channel
  -- halts it with cause 4.
  (∀ (h : Head) (read : HeadRead) (tag : BitVec 16) (s : State),
    s.ok = true →
    ((match read with | .ring q d data => s.qpHead q.val == some h.val && (if data then d == .tx && (s.ring q (dirCode d)).reading != 0 else (s.ring q (dirCode d)).fetching != 0) | .channel c => (s.chan c).units.any (fun x => x.1 == h.val) || (s.chan c).sync.contains h.val) = true) →
    Acts (.completionTimeout h read tag) s fun u =>
      Raised ⟨0x0C + h, kBusError, 2, 0, tag.toNat⟩ s u ∧
      u.raised (R.HEAD_EVENT h) 5 = true ∧
      ((match read with | .channel c => !(s.chan c).fetching || decide (u.mcState c = mcHalted ∧ u.f (F.MCH_STAT_halt_cause c) = 4) | .ring .. => true) = true) ∧
      OnlyIn [R.PKT_EVENT] [.MCH_CUR, .MCH_STAT, .MCH_REMAIN, .MCH_DONE, .MCH_BYTES, .MCH_IRQ_COUNT, .MCH_CMP_OFS, .MCH_LAST_BAD, .MCH_EVENT, .PKT_LAT_MINMAX, .PKT_LAT_OVER, .PKT_LAT_MEASURED, .HEAD_REQ_STAT, .HEAD_ATC_STAT, .HEAD_EVENT, .QP_RX_HEAD_IDX, .QP_RX_STAT, .QP_RX_STATE, .QP_RX_FRAMES, .QP_RX_DROPS, .QP_RX_BAD, .QP_TX_HEAD_IDX, .QP_TX_STAT, .QP_TX_STATE, .QP_TX_FRAMES, .QP_TX_DROPS, .QP_TX_BAD, .QP_EVENT] s u ∧ Keeps (ringParts ++ [.flash, .sram, .cellar, .channels, .draws]) s u)

/-- Mode requests, votes, and the start of a mode entry (R409, R469, R470, R473, R474, R475, R292). -/
def Obligations.ModeRequests : Prop :=
  -- MODE_REQ_WRITE: RUN from RAMP or STANDBY takes effect; a lower mode is stored; others are refused with code 1,
  -- during an entry with 2.
  (∀ (path : Path) (target : BitVec 3) (s : State),
    s.ok = true → Granted path (R.PWR_MODE_REQ) s →
    Acts (.modeReqWrite path target) s fun u =>
      (s.entering = true → u.f F.PWR_MODE_STAT_last_refusal = 2 ∧ u.raised R.PWR_EVENT 1 = true ∧ u.reg R.PWR_MODE_REQ = s.reg R.PWR_MODE_REQ ∧ u.devMode = s.devMode) ∧
      (s.entering = false → target.toNat = mdRun → s.devMode = mdRamp ∨ s.devMode = mdStandby → u.devMode = mdRun ∧ u.f F.GLB_MODE_mode = mdRun ∧ u.f F.PWR_MODE_REQ_target = mdRun ∧ u.raised R.PWR_EVENT 0 = true) ∧
      (s.entering = false → (s.devMode = mdRun ∧ (target.toNat = mdStandby ∨ target.toNat = mdPark)) ∨ (s.devMode = mdStandby ∧ target.toNat = mdPark) → u.f F.PWR_MODE_REQ_target = target.toNat ∧ u.devMode = s.devMode ∧ u.reg R.PWR_EVENT = s.reg R.PWR_EVENT) ∧
      (s.entering = false → target.toNat = s.devMode → u.f F.PWR_MODE_REQ_target = 0 ∧ u.f F.PWR_MODE_STAT_last_refusal = 1 ∧ u.raised R.PWR_EVENT 1 = true ∧ u.devMode = s.devMode) ∧
      Frame [.GLB_MODE, .PWR_MODE_REQ, .PWR_MODE_STAT, .PWR_AVS_STAT, .PWR_EVENT, .TB_STAT, .TB_EVENT, .CAL_STAT, .CAL_ATTIC_CTL, .CAL_REJECTS, .CAL_EVENT, .CAL_PORT_STAT, .CAL_PORT_QUAL, .DIAG_LEDGER_STAT, .DIAG_EVENT, .HSPI_KEVENT, .BND_STAT, .BND_EVENT, .BND_PAIR_STAT, .CANE_STAT, .CANE_EVENT, .WAKE_PENDING, .AON_MODE, .PORT_CTL, .PORT_STATE, .PORT_PARTNER_ABIL, .PORT_PARTNER_FLAGS, .PORT_PARTNER_ID, .PORT_LINK_QUAL, .PORT_MSE_REF, .PORT_DROP_COUNT, .PORT_DROP_HIST_IDX, .PORT_DROP_HIST, .PORT_EVENT, .PORT_X50_STAT, .PORT_AM_STAT, .PORT_LOOP_STAT, .PORT_SEG_STAT, .PORT_LPI_STAT, .PORT_TC10_STAT] (linkParts ++ [.flash, .draws]) s u) ∧
  -- HOST_REQ_WRITE: the vote of the attached holder.
  (∀ (path : Path) (vote : BitVec 3) (s : State),
    s.ok = true → Granted path (R.PWR_HOST_REQ) s →
    Acts (.hostReqWrite path vote) s fun u =>
      u.f F.PWR_HOST_REQ_vote = voteOf vote.toNat ∧
      (s.attached s.holder = true → u.f F.PWR_VOTES_heads / 16 ^ s.holder % 16 = 8 + voteOf vote.toNat ∧ u.f F.PWR_VOTES_target = u.voteTarget) ∧
      (s.attached s.holder = false → u.reg R.PWR_VOTES = s.reg R.PWR_VOTES) ∧
      OnlyWords [R.PWR_HOST_REQ, R.PWR_VOTES] s u ∧ Keeps [.messages] s u) ∧
  -- KEEPER_REQ_WRITE: stored; outside SAFE it votes.
  (∀ (path : Path) (vote : BitVec 3) (force : Bool) (s : State),
    s.ok = true → Granted path (R.PWR_KEEPER_REQ) s →
    Acts (.keeperReqWrite path vote force) s fun u =>
      u.f F.PWR_KEEPER_REQ_vote = voteOf vote.toNat ∧
      u.f F.PWR_KEEPER_REQ_force = b2n force ∧
      (s.bit F.FLT_STAT_safe = false → u.f F.PWR_VOTES_keeper = voteOf vote.toNat ∧ u.bit F.PWR_VOTES_keeper_force = force ∧ u.f F.PWR_VOTES_target = u.voteTarget) ∧
      (s.bit F.FLT_STAT_safe = true → u.reg R.PWR_VOTES = s.reg R.PWR_VOTES) ∧
      OnlyWords [R.PWR_KEEPER_REQ, R.PWR_VOTES] s u ∧ Keeps [.messages] s u) ∧
  -- POLICY_SETTLE toward PARK: every enabled port that is awake gets CTL.admin = 1.
  (∀ (s : State),
    s.ok = true → s.fwRuns = true → s.entering = false → s.devMode = mdRun → s.voteTarget = mdPark →
    Acts .policySettle s fun u =>
      (∀ p : Port, s.portEnabled p = true → s.domOn (portDomain p) = true → s.pst p ≠ stSleep → s.pst p ≠ stDisabled → u.f (F.PORT_CTL_admin p) = 1) ∧
      Frame [.TB_STAT, .TB_EVENT, .CAL_EVENT, .CAL_PORT_STAT, .CAL_PORT_QUAL, .BND_STAT, .BND_EVENT, .BND_PAIR_STAT, .CANE_STAT, .CANE_EVENT, .WAKE_PENDING, .PORT_CTL, .PORT_STATE, .PORT_PARTNER_ABIL, .PORT_PARTNER_FLAGS, .PORT_PARTNER_ID, .PORT_PARTNER_REF_ABIL, .PORT_PARTNER_REF_FLAGS, .PORT_PARTNER_REF_ID, .PORT_LINK_QUAL, .PORT_MSE_REF, .PORT_DROP_COUNT, .PORT_DROP_HIST_IDX, .PORT_DROP_HIST, .PORT_EVENT, .PORT_X50_STAT, .PORT_AM_STAT, .PORT_LOOP_STAT, .PORT_LOOP_BITS, .PORT_LOOP_ERRS, .PORT_SEG_STAT, .PORT_LPI_STAT, .PORT_TC10_STAT] (linkParts ++ [.power, .draws]) s u) ∧
  -- MODE_ENTRY_WFI toward PARK: entering, the wake latch clear, no activity but flash programming, every DMA
  -- channel off.
  (∀ (s : State),
    s.ok = true → s.fwRuns = true → s.entering = false → s.devMode = mdRun → s.f F.PWR_MODE_REQ_target = mdPark →
    Acts .modeEntryWfi s fun u =>
      u.f F.PWR_MODE_STAT_entering = mdPark ∧
      u.f F.AON_MODE_entering = 1 ∧
      u.reg R.PWR_WAKE_LATCH = 0 ∧
      u.power.latch = [] ∧
      u.devMode = mdRun ∧
      u.ledger.queue = [] ∧
      (∀ b ∈ u.ledger.books, b.act = 9) ∧
      (∀ c : Fin 16, u.mcState c = mcOff) ∧
      Keeps (detachParts ++ [.votes, .wide, .mould, .diagnostics, .fills, .power, .draws]) s u)

/-- Mode entries end; PARK is left (R36, R476, R477, R480, R483, R484, R485, R495). -/
def Obligations.StandbyAndPark : Prop :=
  -- STANDBY_ENTRY_DONE with nothing latched: STANDBY, counted, the core voltage goes to 720 mV.
  (∀ (s : State),
    s.ok = true → s.f F.PWR_MODE_STAT_entering = mdStandby → s.fault.safeDue = none → s.power.latch = [] → s.power.resetLatched = none →
    Acts .standbyEntryDone s fun u =>
      u.f F.PWR_MODE_STAT_entering = 0 ∧
      u.f F.AON_MODE_entering = 0 ∧
      u.f F.PWR_MODE_STAT_entries = (s.f F.PWR_MODE_STAT_entries + 1) % 256 ∧
      u.devMode = mdStandby ∧
      u.f F.GLB_MODE_mode = mdStandby ∧
      u.raised R.PWR_EVENT 0 = true ∧
      u.power.avsGoal = 720 ∧
      u.f F.PWR_AVS_STAT_loop = 0 ∧
      OnlyWords [R.GLB_MODE, R.PWR_MODE_STAT, R.PWR_AVS_STAT, R.PWR_EVENT, R.HSPI_KEVENT, R.AON_MODE] s u ∧ Keeps [.windows, .power, .sent] s u) ∧
  -- PARK_ENTRY_DONE with nothing latched: the retained banks sealed with their CRCs, the main rails off, every
  -- main-rail register that nothing retains at reset.
  (∀ (s : State),
    s.ok = true → s.f F.PWR_MODE_STAT_entering = mdPark → s.fault.safeDue = none → s.power.latch = [] → s.power.resetLatched = none →
    Acts .parkEntryDone s fun u =>
      u.power.stage = sgPark ∧
      u.power.pwrEn = false ∧
      u.devMode = mdPark ∧
      u.f F.AON_MODE_entering = 0 ∧
      u.f F.AON_RET_SEAL_valid = 1 ∧
      u.f F.AON_RET_SEAL_mask = leAt (s.sec scRetention) 0 2 ∧
      (∀ n : Fin 16, bitOf (leAt (s.sec scRetention) 0 2) n = true → u.reg (R.AON_RET_CRC n) = BitVec.ofNat 32 (crc32c (s.sram.readBytes blank (n.val * bankSize) bankSize))) ∧
      Sent (.pin "PWR_EN" 0) s u ∧
      AtReset 0 0x160000 (resetKeeps true) u ∧
      (AtReset 0x180000 0x2080000 (fun _ => false) u) ∧
      Keeps (safeParts ++ [.votes, .wide, .mould, .diagnostics, .commits, .heads, .fills, .flashPort, .clocks]) s u) ∧
  -- MIN_OFF_EXPIRE after a main-rail loss: PWR_EN high, a cold start with its cause.
  (∀ (s : State),
    s.ok = true → s.power.offWait = some rcMainLoss → s.power.stage = sgMinOff →
    Acts .minOffExpire s fun u =>
      u.power.stage = sgRails ∧
      u.power.offWait = none ∧
      u.power.pwrEn = true ∧
      (u.reg R.RST_CAUSE).toNat % 128 = rcMainLoss ∧
      u.f F.AON_MODE_start_kind = 0 ∧
      u.devMode = mdRamp ∧
      u.f F.AON_START_CTL_ok = 0 ∧
      Sent (.pin "PWR_EN" 1) s u ∧
      AtReset 0 0x160000 (resetKeeps false) u ∧
      Keeps [.shadows, .votes, .wide, .windows, .ports, .canes, .bundles, .furnace, .ledger, .mould, .timebase, .calibration, .diagnostics, .flash, .sram, .cellar, .commits, .heads, .rings, .channels, .fills, .flashPort, .power, .clocks, .collector, .sent, .draws] s u) ∧
  -- CS_WAKE and ALARM_MATCH, armed, in PARK: WAKE.CAUSE with from_park, a start, warm where R495 allows; outside
  -- PARK the chip select does nothing, the alarm raises its event.
  (∀ (s : State),
    s.ok = true → s.bit F.AON_PARK_CFG_cs_wake = true →
    Acts .csWake s fun u =>
      (s.parked = true → s.power.offWait = none → u.f F.WAKE_CAUSE_kind = 3 ∧ u.f F.WAKE_CAUSE_from_park = 1 ∧ u.power.stage = sgRails ∧ u.power.pwrEn = true ∧ (u.reg R.RST_CAUSE).toNat % 128 = rcParkWake ∧ u.f F.AON_MODE_start_kind = b2n (s.startsWarm true) ∧ u.devMode = mdRamp) ∧
      (s.parked = false → s.f F.PWR_MODE_STAT_entering ≠ mdPark → u = s) ∧
      Keeps [.shadows, .votes, .wide, .windows, .ports, .canes, .bundles, .furnace, .ledger, .mould, .timebase, .calibration, .diagnostics, .flash, .sram, .cellar, .commits, .heads, .rings, .channels, .fills, .flashPort, .power, .clocks, .collector, .sent, .draws] s u) ∧
  (∀ (s : State),
    s.ok = true → s.power.vaon = true → s.bit F.AON_ALARM_CTL_en = true → s.wide R.AON_SECONDS 2 % 2 ^ 32 = s.f F.AON_ALARM_seconds →
    s.bit F.AON_PARK_CFG_alarm_wake = true →
    Acts .alarmMatch s fun u =>
      (s.parked = true → s.power.offWait = none → u.f F.WAKE_CAUSE_kind = 4 ∧ u.f F.WAKE_CAUSE_from_park = 1 ∧ u.power.stage = sgRails ∧ u.power.pwrEn = true ∧ (u.reg R.RST_CAUSE).toNat % 128 = rcParkWake ∧ u.f F.AON_MODE_start_kind = b2n (s.startsWarm true) ∧ u.devMode = mdRamp) ∧
      (s.parked = false → s.f F.PWR_MODE_STAT_entering ≠ mdPark → s.domOn domMgt = true → u.raised R.PWR_EVENT 5 = true ∧ OnlyWords [R.PWR_EVENT] s u) ∧
      Keeps [.shadows, .votes, .wide, .windows, .ports, .canes, .bundles, .furnace, .ledger, .mould, .timebase, .calibration, .diagnostics, .flash, .sram, .cellar, .commits, .heads, .rings, .channels, .fills, .flashPort, .power, .clocks, .collector, .sent, .draws] s u)

/-- Domains are requested, power up, go off and are forced off (R17, R39, R478, R479, R521). -/
def Obligations.PowerDomains : Prop :=
  -- DOM_REQ_WRITE: MGT and TBC stay requested; a domain that is on is pending off where its bit is 0; one that is
  -- off queues to switch on where nothing that it needs is forced off, or waits while forced off.
  (∀ (path : Path) (domains : BitVec 24) (s : State),
    s.ok = true → Granted path (R.PWR_DOM_REQ) s →
    Acts (.domReqWrite path domains) s fun u =>
      u.f F.PWR_DOM_REQ_domains = domains.toNat % 2 ^ 22 + 3 * 2 ^ 22 ∧
      (domains.toNat / 2 ^ 22 ≠ 3 → Raised ⟨srcOf s R.PWR_DOM_REQ, kAccessDenied, 0, pathCode path + 8, R.PWR_DOM_REQ⟩ s u) ∧
      (∀ d : Fin 22, s.domOn d = true → bitOf (u.f F.PWR_DOM_PEND_domains) d = !bitOf domains.toNat d) ∧
      (∀ d : Fin 22, s.domOn d = false → bitOf domains.toNat d = true → bitOf (s.f F.PWR_DOM_FORCE_domains) d = true → bitOf (u.f F.PWR_DOM_PEND_domains) d = true) ∧
      (∀ d : Fin 22, s.domOn d = false → bitOf domains.toNat d = true → bitOf (s.f F.PWR_DOM_FORCE_domains) d = false → (∀ n ∈ s.needs d, s.domOn n = true ∨ bitOf (s.f F.PWR_DOM_FORCE_domains) n = false) → d.val ∈ u.power.switching) ∧
      OnlyWords [R.PWR_DOM_REQ, R.PWR_DOM_PEND] s u ∧ Keeps [.power, .messages] s u) ∧
  -- DOMAIN_POWER_GOOD while the domains it needs are on: on, with its gates; its ports have taken their saved
  -- sets.
  (∀ (d : Fin 22) (sealOk : Bool) (s : State),
    s.ok = true → (s.power.switching.take 2).contains d.val = true → (s.needs d).all s.domOn = true →
    Acts (.domainPowerGood d sealOk) s fun u =>
      u.domOn d = true ∧
      bitOf (u.f F.PWR_DOM_PEND_domains) d = false ∧
      (∀ g ∈ gatesOf d, bitOf (u.f F.CLK_GATE_gate) g = true) ∧
      (∀ p : Port, portDomain p = d.val → (u.port p).saved = none) ∧
      Keeps (linkParts ++ [.shadows, .commits, .power, .draws]) s u) ∧
  -- DOMAIN_SWITCH_OFF of a domain that may go off: off with its gates; its ports are saved.
  (∀ (d : Fin 22) (s : State),
    s.ok = true → bitOf (s.f F.PWR_DOM_PEND_domains) d = true → bitOf (s.f F.PWR_DOM_REQ_domains) d = false → s.domOn d = true →
    s.mayGoOff d = true →
    Acts (.domainSwitchOff d) s fun u =>
      u.domOn d = false ∧
      bitOf (u.f F.PWR_DOM_PEND_domains) d = false ∧
      (∀ p : Port, portDomain p = d.val → (u.port p).saved = some (s.savedSet p)) ∧
      (∀ g ∈ gatesOf d, bitOf (u.f F.CLK_GATE_gate) g = false) ∧
      Keeps (detachParts ++ [.votes, .wide, .mould, .fills, .power, .draws]) s u) ∧
  -- DOM_FORCE_WRITE: every domain named is off at once, with the event.
  (∀ (path : Path) (domains : BitVec 24) (s : State),
    s.ok = true → Granted path (R.PWR_DOM_FORCE) s →
    Acts (.domForceWrite path domains) s fun u =>
      u.f F.PWR_DOM_FORCE_domains = domains.toNat % 2 ^ 22 ∧
      (∀ d : Fin 22, bitOf domains.toNat d = true → u.domOn d = false ∧ bitOf (u.f F.PWR_DOM_PEND_domains) d = false) ∧
      (∀ d : Fin 22, bitOf domains.toNat d = true → s.domOn d = true → u.raised R.PWR_EVENT 3 = true) ∧
      Keeps (detachParts ++ [.votes, .wide, .mould, .fills, .power, .draws]) s u)

/-- The core voltage loop and its bus (R480, R481, R482). -/
def Obligations.CoreVoltage : Prop :=
  -- AVS_ACK: the level written is reported, the failure ends; in RUN the loop asks for a level within 680 to 820
  -- mV.
  (∀ (want : Nat) (s : State),
    s.ok = true → s.domOn domMgt = true →
    Acts (.avsAck want) s fun u =>
      (∀ v ∈ s.power.avsOut.toList, u.f F.PWR_AVS_STAT_target_mv = v % 1024) ∧
      u.f F.PWR_AVS_STAT_bus_fail = 0 ∧
      (s.devMode = mdRun → u.f F.PWR_AVS_STAT_loop = 1 ∧ u.power.avsGoal = max 680 (min 820 want)) ∧
      OnlyWords [R.PWR_AVS_STAT] s u ∧ Keeps [.power, .sent] s u) ∧
  -- AVS_TIMEOUT: bus_fail, the loop off, SUPPLY.
  (∀ (s : State),
    s.ok = true → s.domOn domMgt = true → s.bit F.PWR_AVS_STAT_bus_fail = false → s.power.avsOut.isSome = true →
    Acts .avsTimeout s fun u =>
      u.power.avsOut = none ∧
      u.f F.PWR_AVS_STAT_bus_fail = 1 ∧
      u.f F.PWR_AVS_STAT_loop = 0 ∧
      u.raised R.PWR_EVENT 4 = true ∧
      Raised ⟨0x04, kSupply, 2, 0, 0⟩ s u ∧
      OnlyWords [R.PWR_AVS_STAT, R.PWR_EVENT] s u ∧ Keeps [.windows, .power, .messages] s u) ∧
  -- AVS_RETRY: a write of at most 10 mV toward the goal is sent again.
  (∀ (s : State),
    s.ok = true → s.domOn domMgt = true → s.bit F.PWR_AVS_STAT_bus_fail = true → s.power.avsOut = none →
    Acts .avsRetry s fun u =>
      (∀ v ∈ u.power.avsOut.toList, Sent (.avs 1 v) s u ∧ (s.f F.PWR_AVS_STAT_target_mv < s.power.avsGoal → v = min s.power.avsGoal (s.f F.PWR_AVS_STAT_target_mv + 10)) ∧ (s.power.avsGoal ≤ s.f F.PWR_AVS_STAT_target_mv → v = max s.power.avsGoal (s.f F.PWR_AVS_STAT_target_mv - 10))) ∧
      u.power.avsOut.isSome = true ∧
      OnlyWords [] s u ∧ Keeps [.power, .sent] s u)

/-- Rails, retention check, firmware, START_CTL.ok, deadline and wake table (R485, R487, R491, R497, R498, R499,
R609). -/
def Obligations.Starts : Prop :=
  -- VMAIN_OK_RISE of a cold start: MGT and TBC on, straps and lifecycle shown, the boot ROM runs; TEST_MODE high
  -- in FIELD is logged.
  (∀ (s : State),
    s.ok = true → s.power.vaon = true → s.power.pwrEn = true → s.power.stage = sgRails → s.bit F.AON_SAFE_STAT_pending = false →
    s.fault.held = [] → s.bit F.AON_MODE_start_kind = false →
    Acts .vmainOkRise s fun u =>
      u.power.vmainOk = true ∧
      u.power.stage = sgBoot ∧
      u.f F.PWR_DOM_STAT_domains = 3 * 2 ^ 22 ∧
      u.f F.GLB_STRAPS_headcfg = s.pins.headcfg % 4 ∧
      u.f F.GLB_STRAPS_bootsrc = s.pins.bootsrc % 2 ∧
      u.f F.GLB_LIFECYCLE_state = s.otp.lifecycle % 4 ∧
      u.f F.GLB_MODE_mode = mdRamp ∧
      (s.otp.lifecycle = 1 → s.pins.testMode = true → Raised ⟨0x00, kTestPin, 0, 0, 0⟩ s u) ∧
      OnlyIn [R.GLB_MODE, R.GLB_STRAPS, R.GLB_LIFECYCLE, R.PWR_DOM_STAT, R.PWR_DOM_REQ, R.CLK_READY, R.CLK_PLL_EN, R.CLK_GATE, R.FSPI_CFG, R.CAL_BANDGAP, R.PWR_AVS_STAT] [.HEAD_STAT, .HEAD_LANES, .HEAD_REQ_CFG, .MLD_KEYS] s u ∧ Keeps [.timebase, .power, .messages, .sent] s u) ∧
  -- VMAIN_TIMEOUT outside SAFE, first or second cold failure: counted with reason 1, the rails off, a retry after
  -- min_off_ms.
  (∀ (s : State),
    s.ok = true → s.bit F.AON_SAFE_STAT_safe = false → s.power.stage = sgRails → s.power.vmainOk = false → s.bit F.AON_MODE_start_kind = false →
    s.f F.AON_START_STAT_cold_fails < 2 →
    Acts .vmainTimeout s fun u =>
      u.f F.AON_START_STAT_cold_fails = s.f F.AON_START_STAT_cold_fails + 1 ∧
      u.f F.AON_START_STAT_last_reason = 1 ∧
      u.power.stage = sgMinOff ∧
      u.power.offWait = some rcRetry ∧
      u.power.pwrEn = false ∧
      Sent (.pin "PWR_EN" 0) s u ∧
      OnlyWords [R.AON_START_STAT] s u ∧ Keeps [.power, .collector, .sent] s u) ∧
  -- RETENTION_CHECK_DONE with no retained bank lost: the Gaffer is about to be released.
  (∀ (lost : BitVec 16) (s : State),
    s.ok = true → s.power.stage = sgCheck → s.bit F.AON_MODE_start_kind = true → Nat.land lost.toNat (s.f F.AON_RET_SEAL_mask) = 0 →
    Acts (.retentionCheckDone lost) s fun u =>
      u.power.stage = sgHeld ∧
      u.f F.PWR_RET_STATUS_lost = 0 ∧
      OnlyWords [R.PWR_RET_STATUS] s u ∧ Keeps [.power] s u) ∧
  -- With bank 15 lost: RETENTION_LOST and its event, the bank is cleared.
  (∀ (lost : BitVec 16) (s : State),
    s.ok = true → s.power.stage = sgCheck → bitOf lost.toNat 15 = true → bitOf (s.f F.AON_RET_SEAL_mask) 15 = true →
    Acts (.retentionCheckDone lost) s fun u =>
      u.raised R.PWR_EVENT 6 = true ∧
      u.f F.PWR_RET_STATUS_lost = Nat.land lost.toNat (s.f F.AON_RET_SEAL_mask) ∧
      Raised ⟨0x17, kRetentionLost, 1, 0, 15⟩ s u ∧
      u.sram.readBytes blank (15 * bankSize) 64 = List.replicate 64 blank ∧
      Keeps (linkParts ++ [.shadows, .votes, .wide, .mould, .sram, .power, .draws]) s u) ∧
  -- FIRMWARE_VERIFIED with a good header and slot: generation and digest taken, the flash configured.
  (∀ (a : Option (BitVec 32 × List Byte)) (b : Option (BitVec 32 × List Byte)) (s : State),
    s.ok = true → s.power.stage = sgBoot → s.domOn domMgt = true → bootHeaderOk (s.flash.readBytes erased 0 64) = true → a.isSome = true →
    b = none →
    ((if s.bit F.AON_MODE_start_kind then (a.map fun x => x.1.toNat) == some (s.f F.AON_FW_GEN_gen) else (s.mld.load.isSome || s.mouldOk)) = true) →
    Acts (.firmwareVerified a b) s fun u =>
      u.power.stage = sgHeld ∧
      (∀ x ∈ a.toList, u.power.fwGen = x.1.toNat ∧ u.power.fwDigest = x.2) ∧
      u.f F.FSPI_CFG_dummy = byteAt (s.flash.readBytes erased 0 64) 7 % 2 ^ ((F.FSPI_CFG_dummy).hi + 1 - (F.FSPI_CFG_dummy).lo) ∧
      OnlyWords [R.FSPI_CFG, R.FSPI_FAIL_CFG, R.FSPI_CMDS, R.FSPI_CMDS + 4, R.FSPI_CMDS + 8, R.FSPI_CMDS + 12] s u ∧ Keeps [.power, .flashPort] s u) ∧
  -- GAFFER_RESET_RELEASE at a warm start without a mould: firmware runs, the watchdog starts.
  (∀ (s : State),
    s.ok = true → s.power.stage = sgHeld → s.bit F.AON_MODE_start_kind = true → s.mld.active = [] →
    Acts .gafferResetRelease s fun u =>
      u.power.stage = sgFirmware ∧
      u.power.gaffer = true ∧
      u.power.halted = false ∧
      u.fault.wdog = some s.now ∧
      Frame [.DIAG_FP_STAT] [.diagnostics, .power, .collector] s u) ∧
  -- START_OK of a cold start in the field: the start is over, its counts are 0, the generation is recorded.
  (∀ (path : Path) (s : State),
    s.ok = true → Granted path (R.AON_START_CTL) s → s.power.stage = sgFirmware → s.bit F.AON_MODE_start_kind = false → s.otp.lifecycle ≠ 0 →
    Acts (.startOk path) s fun u =>
      u.f F.AON_START_CTL_ok = 1 ∧
      u.f F.AON_START_STAT_warm_fails = 0 ∧
      u.f F.AON_START_STAT_cold_fails = 0 ∧
      u.f F.AON_RET_SEAL_valid = 0 ∧
      u.f F.AON_FW_GEN_gen = s.power.fwGen % 2 ^ 32 ∧
      u.raised R.HSPI_KEVENT 1 = true ∧
      u.power.stage = sgUp ∧
      OnlyWords [R.AON_START_CTL, R.AON_START_STAT, R.AON_RET_SEAL, R.AON_FW_GEN, R.HSPI_KEVENT] s u ∧ Keeps [.windows, .power, .messages] s u) ∧
  -- DEADLINE: the third cold failure ends in SAFE on C4 with reason 5; an earlier one is retried.
  (∀ (s : State),
    s.ok = true → s.power.stage = sgFirmware → s.bit F.AON_START_CTL_ok = false → s.bit F.AON_SAFE_STAT_safe = false → s.entering = false →
    Acts .deadline s fun u =>
      u.f F.AON_START_STAT_last_reason = 3 ∧
      (s.bit F.AON_MODE_start_kind = false → s.f F.AON_START_STAT_cold_fails = 2 → u.f F.AON_START_STAT_cold_fails = 3 ∧ u.power.stage = sgDead ∧ u.f F.AON_SAFE_STAT_safe = 1 ∧ u.f F.AON_SAFE_STAT_class_ = 4 ∧ u.f F.AON_SAFE_STAT_reason = 5) ∧
      (s.bit F.AON_MODE_start_kind = false → s.f F.AON_START_STAT_cold_fails < 2 → (u.reg R.RST_CAUSE).toNat % 128 = rcRetry ∧ u.f F.AON_START_STAT_cold_fails = s.f F.AON_START_STAT_cold_fails + 1) ∧
      Keeps (safeParts ++ [.votes, .wide, .mould, .diagnostics, .commits, .heads, .fills, .flashPort, .clocks]) s u) ∧
  -- WAKE_TABLE_ACTION: a domain is requested, a loop enabled once its reference is ready; the entry is done.
  (∀ (i : Fin 16) (s : State),
    s.ok = true → s.power.table.contains i.val = true →
    ((s.power.table.any fun j => decide (j < i.val) && s.f (F.WAKE_TABLE_delay j) == s.f (F.WAKE_TABLE_delay i)) = false) →
    s.domOn domMgt = true →
    Acts (.wakeTableAction i) s fun u =>
      (s.f (F.WAKE_TABLE_action i) = 1 → s.f (F.WAKE_TABLE_target i) < 22 → bitOf (u.f F.PWR_DOM_REQ_domains) (s.f (F.WAKE_TABLE_target i)) = true ∧ u.power.table = s.power.table.erase i.val) ∧
      (s.f (F.WAKE_TABLE_action i) = 3 → s.f (F.WAKE_TABLE_target i) < 3 → bitOf (s.f F.CLK_READY_ready) 2 = true → bitOf (u.f F.CLK_PLL_EN_en) (s.f (F.WAKE_TABLE_target i)) = true ∧ u.power.table = s.power.table.erase i.val) ∧
      Frame [.PWR_DOM_REQ, .PWR_DOM_PEND, .CLK_PLL_EN, .TB_STAT, .TB_EVENT, .MLD_GOV_CLAMP_COUNT, .CAL_PORT_STAT, .CAL_PORT_QUAL, .BND_STAT, .BND_EVENT, .BND_PAIR_STAT, .CANE_STAT, .CANE_EVENT, .WAKE_PENDING, .WAKE_EVENT, .WAKE_PCOUNT, .PORT_CTL, .PORT_STATE, .PORT_PARTNER_ABIL, .PORT_PARTNER_FLAGS, .PORT_PARTNER_ID, .PORT_LINK_QUAL, .PORT_MSE_REF, .PORT_DROP_COUNT, .PORT_DROP_HIST_IDX, .PORT_DROP_HIST, .PORT_EVENT, .PORT_X50_STAT, .PORT_AM_STAT, .PORT_LOOP_STAT, .PORT_SEG_STAT, .PORT_LPI_STAT, .PORT_TC10_STAT] (linkParts ++ [.power, .draws]) s u)

/-- Power on, VAON and main-rail loss, RESET_N, chip reset, block resets (R36, R38, R514, R515, R516, R517, R518,
R546, R581). -/
def Obligations.PowerOnAndResets : Prop :=
  -- POWER_ON: pins sampled, PWR_EN high, a cold start with cause 1, the main-rail registers at reset.
  (∀ (headcfg : BitVec 2) (bootsrc : BitVec 1) (testMode : Bool) (flash : List (BitVec 27 × List Byte)) (s : State),
    s.ok = true → s.power.vaon = false → flash = [] →
    Acts (.powerOn headcfg bootsrc testMode flash) s fun u =>
      u.power.vaon = true ∧
      u.power.pwrEn = true ∧
      u.power.stage = sgRails ∧
      u.pins = ⟨headcfg.toNat, bootsrc.toNat, testMode⟩ ∧
      (u.reg R.RST_CAUSE).toNat % 128 = rcPowerOn ∧
      u.devMode = mdRamp ∧
      u.f F.AON_MODE_start_kind = 0 ∧
      Sent (.pin "PWR_EN" 1) s u ∧
      AtReset 0 0x160000 (resetKeeps false) u ∧
      (AtReset 0x180000 0x2080000 (fun _ => false) u) ∧
      Keeps [.shadows, .votes, .wide, .windows, .ports, .canes, .bundles, .furnace, .ledger, .mould, .timebase, .calibration, .diagnostics, .flash, .sram, .cellar, .commits, .heads, .rings, .channels, .fills, .flashPort, .power, .clocks, .collector, .pins, .sent, .draws] s u) ∧
  -- VAON_FALL: every register at reset; flash (no operation running) and OTP keep their contents.
  (∀ (s : State),
    s.ok = true → s.power.vaon = true → s.fport.op = none → ((s.sram.all fun e => decide (e.1 < 16 * bankSize)) = true) →
    ((s.cellar.all fun e => decide (e.1 < 25165824)) = true) →
    Acts .vaonFall s fun u =>
      u.power = {} ∧
      u.clock = {} ∧
      u.fault = {} ∧
      u.mld = {} ∧
      u.acQueue = [] ∧
      u.ports = [] ∧
      u.sram = [] ∧
      u.cellar = [] ∧
      u.flash = s.flash ∧
      Sent (.pin "PWR_EN" 0) s u ∧
      (AtReset 0 0x2200000 (fun _ => false) u) ∧
      Keeps [.shadows, .votes, .wide, .windows, .aonQueue, .ports, .canes, .bundles, .furnace, .ledger, .mould, .timebase, .calibration, .diagnostics, .flash, .sram, .cellar, .commits, .heads, .rings, .channels, .fills, .flashPort, .power, .clocks, .collector, .frames, .sent, .draws] s u) ∧
  -- MAIN_RAIL_LOSS: counted, the rails off for min_off_ms, main-rail registers at reset, always-on ones as before.
  (∀ (s : State),
    s.ok = true → s.power.pwrEn = true → s.power.vmainOk = true → s.f F.PWR_MODE_STAT_entering ≠ mdPark → s.deadSafe = false →
    Acts .mainRailLoss s fun u =>
      u.f F.RST_COUNT_main_loss = min (s.f F.RST_COUNT_main_loss + 1) 255 ∧
      u.power.stage = sgMinOff ∧
      u.power.offWait = some rcMainLoss ∧
      u.power.pwrEn = false ∧
      u.power.vmainOk = false ∧
      AtReset 0 0x160000 (resetKeeps false) u ∧
      (AtReset 0x180000 0x2080000 (fun _ => false) u) ∧
      SameRegs 0x160000 0x180000 [R.AON_MODE] s u ∧
      Keeps [.shadows, .votes, .wide, .windows, .ports, .canes, .bundles, .furnace, .ledger, .mould, .timebase, .calibration, .diagnostics, .flash, .sram, .cellar, .commits, .heads, .rings, .channels, .fills, .flashPort, .power, .clocks, .collector, .sent, .draws] s u) ∧
  -- RESET_N: held, counted, the main rails' registers at reset; latched during a mode entry.
  (∀ (s : State),
    s.ok = true → s.power.vaon = true → s.deadSafe = false → s.power.resetN = false →
    Acts .resetN s fun u =>
      u.power.resetN = true ∧
      (s.entering = true → u.power.resetLatched = some rcResetN ∧ OnlyWords [] s u) ∧
      (s.entering = false → u.power.stage = sgReset ∧ u.f F.RST_COUNT_reset_n = min (s.f F.RST_COUNT_reset_n + 1) 255) ∧
      (s.entering = false → s.power.stage ≠ sgPark → AtReset 0 0x160000 (resetKeeps false) u ∧ SameRegs 0x160000 0x180000 [] s u) ∧
      Keeps [.shadows, .votes, .wide, .windows, .ports, .canes, .bundles, .furnace, .ledger, .mould, .timebase, .calibration, .diagnostics, .flash, .sram, .cellar, .commits, .heads, .rings, .channels, .fills, .flashPort, .power, .clocks, .collector, .sent, .draws] s u) ∧
  -- RESET_N_RELEASE: a cold start with cause 3, at once where the rails are up.
  (∀ (s : State),
    s.ok = true → s.power.resetN = true → s.power.stage = sgReset →
    Acts .resetNRelease s fun u =>
      u.power.resetN = false ∧
      (u.reg R.RST_CAUSE).toNat % 128 = rcResetN ∧
      u.f F.AON_MODE_start_kind = 0 ∧
      (s.power.pwrEn = false → u.power.pwrEn = true ∧ u.power.stage = sgRails ∧ Sent (.pin "PWR_EN" 1) s u) ∧
      (s.power.pwrEn = true → s.power.vmainOk = true → u.power.stage = sgBoot ∧ u.f F.PWR_DOM_STAT_domains = 3 * 2 ^ 22) ∧
      Keeps (safeParts ++ [.votes, .wide, .mould, .diagnostics, .commits, .heads, .fills, .flashPort, .clocks]) s u) ∧
  -- CHIP_RESET: a wrong key is denied; during an entry it is latched; else, with the main rails up, a cold start
  -- with cause 4 on the rails as they are.
  (∀ (path : Path) (key : BitVec 8) (go : Bool) (s : State),
    s.ok = true → Granted path (R.RST_CHIP) s →
    Acts (.chipReset path key go) s fun u =>
      (go = false → u = s) ∧
      (go = true → key.toNat ≠ 0xC3 → Raised ⟨srcOf s R.RST_CHIP, kAccessDenied, 0, pathCode path + 8, R.RST_CHIP⟩ s u ∧ u.regs = s.regs) ∧
      (go = true → key.toNat = 0xC3 → s.deadSafe = false → s.bit F.FLT_STAT_safe = false → s.entering = true → u.power.resetLatched = some rcChipWrite ∧ u.regs = s.regs) ∧
      (go = true → key.toNat = 0xC3 → s.deadSafe = false → s.bit F.FLT_STAT_safe = false → s.entering = false → s.power.pwrEn = true → s.power.vmainOk = true → (u.reg R.RST_CAUSE).toNat % 128 = rcChipWrite ∧ u.f F.RST_COUNT_chip = min (s.f F.RST_COUNT_chip + 1) 255 ∧ u.f F.AON_MODE_start_kind = 0 ∧ u.power.stage = sgBoot ∧ u.power.pwrEn = s.power.pwrEn ∧ u.f F.PWR_DOM_STAT_domains = 3 * 2 ^ 22) ∧
      Keeps (safeParts ++ [.votes, .wide, .mould, .diagnostics, .commits, .heads, .fills, .flashPort, .clocks]) s u) ∧
  -- BLOCK_RESET: the source stored; refused where it has no row; else busy, and the block is in reset: a port, the
  -- launch groups, the DMA channels.
  (∀ (path : Path) (source : BitVec 7) (go : Bool) (s : State),
    s.ok = true → Granted path (R.RST_BLOCK) s → s.fault.resets = [] → s.domOn (portDomain 9) = true → (s.port 9).resetting = false →
    Acts (.blockReset path source go) s fun u =>
      (go = false → u.f F.RST_BLOCK_source = source.toNat ∧ OnlyWords [R.RST_BLOCK] s u) ∧
      (go = true → resettable source.toNat = false → u.f F.RST_BLOCK_STAT_refused = 1 ∧ u.raised R.RST_EVENT 1 = true ∧ OnlyWords [R.RST_BLOCK, R.RST_BLOCK_STAT, R.RST_EVENT] s u) ∧
      (go = true → resettable source.toNat = true → chipSource source.toNat = false → u.f F.RST_BLOCK_STAT_busy = 1 ∧ u.f F.RST_BLOCK_STAT_refused = 0 ∧ u.f F.RST_BLOCK_STAT_source = source.toNat ∧ u.fault.resets = [source.toNat]) ∧
      (go = true → source.toNat = 0x49 → (u.port 9).resetting = true) ∧
      (go = true → source.toNat = 0x16 → ∀ g : Fin 16, u.f (F.LCH_LG_STAT_state g) = lgIdle) ∧
      (go = true → source.toNat = 0x08 → ∀ c : Fin 16, u.mcState c = mcOff) ∧
      Keeps (safeParts ++ [.votes, .wide, .mould, .diagnostics, .commits, .heads, .fills, .flashPort, .clocks, .frames]) s u) ∧
  -- BLOCK_RESET_END of the Gaffer or the packet engine: its event, not busy; the Gaffer's starts the watchdog.
  (∀ (source : BitVec 7) (s : State),
    s.ok = true → s.fault.resets.contains source.toNat = true → source.toNat = 0x09 ∨ source.toNat = 0x0A →
    Acts (.blockResetEnd source) s fun u =>
      u.raised R.RST_EVENT 0 = true ∧
      u.fault.resets = s.fault.resets.erase source.toNat ∧
      (s.fault.resets = [source.toNat] → u.f F.RST_BLOCK_STAT_busy = 0) ∧
      (source.toNat = 0x09 → u.fault.wdog = some s.now) ∧
      OnlyWords [R.RST_BLOCK_STAT, R.RST_EVENT] s u ∧ Keeps [.windows, .collector] s u)

/-- Clock sources and loops come, are lost and come back (R501, R502, R503, R506, R513, R549). -/
def Obligations.ClockSources : Prop :=
  -- CLOCK_READY: SLCK's source is counted, FRC, XO or a running loop is ready.
  (∀ (i : Fin 12) (crystal : Bool) (s : State),
    s.ok = true → s.clkOn = true → s.power.vaon = true →
    Acts (.clockReady i crystal) s fun u =>
      (i.val = 0 → (if crystal then u.bit F.AON_SLCK_CFG_xtal_ok else u.bit F.AON_SLCK_CFG_rc_ok) = true) ∧
      (i.val = 0 → s.bit F.AON_SLCK_CFG_src = crystal → u.clock.slck = true ∧ bitOf (u.f F.CLK_READY_ready) 0 = true) ∧
      (i.val = 1 ∨ i.val = 2 ∨ (4 ≤ i.val ∧ s.loopRuns i = true) → bitOf (u.f F.CLK_READY_ready) i = true) ∧
      OnlyWords [R.CLK_READY, R.AON_SLCK_CFG] s u ∧ Keeps [.clocks] s u) ∧
  -- RCLK_READY within 100 ppm: ready; beyond: lost, and a loop that tracks it coasts.
  (∀ (offset : Int) (s : State),
    s.ok = true → s.clkOn = true → ((match s.anchor with | some p => s.pst p == stUp | none => false) = true) →
    Acts (.rclkReady offset) s fun u =>
      (-10000 ≤ offset → offset ≤ 10000 → bitOf (u.f F.CLK_READY_ready) 3 = true ∧ u.clock.anchor = offset) ∧
      (offset < -10000 ∨ 10000 < offset → bitOf (u.f F.CLK_READY_ready) 3 = false ∧ (s.clkReady ckRclk = true → Raised ⟨0x03, kClockLoss, 1, 3, 0⟩ s u ∧ (s.f F.CLK_RLOOP_STAT_state = rlTrack → u.f F.CLK_RLOOP_STAT_state = rlCoast ∧ u.f F.CLK_REF_LOST_lost = 1))) ∧
      OnlyWords [R.CLK_READY, R.CLK_RLOOP_STAT, R.CLK_REF_LOST, R.CLK_EVENT] s u ∧ Keeps [.windows, .clocks, .messages] s u) ∧
  -- CLOCK_LOSS of a source that was ready: source_lost; XO takes fabric and Gaffer to FRC; SLCK falls back to RC
  -- or stops; FRC under the fabric stops ALIVE.
  (∀ (i : Fin 4) (s : State),
    s.ok = true → s.clkOn = true → s.clkReady i = true →
    Acts (.clockLoss i) s fun u =>
      (i.val = 2 → bitOf (u.f F.CLK_READY_ready) 2 = false ∧ Raised ⟨0x03, kClockLoss, 3, 2, 0⟩ s u ∧ u.f F.CLK_SEL_CORE_fabric = 0 ∧ u.f F.CLK_SEL_CORE_gaffer = 0) ∧
      (i.val = 3 → bitOf (u.f F.CLK_READY_ready) 3 = false ∧ Raised ⟨0x03, kClockLoss, 1, 3, 0⟩ s u) ∧
      (i.val = 1 → s.bit F.CLK_SEL_CORE_fabric = true → Raised ⟨0x03, kClockLoss, 3, 1, 0⟩ s u) ∧
      (i.val = 1 → s.bit F.CLK_SEL_CORE_fabric = false → u.fault.stopped = true ∧ u.intake = s.intake) ∧
      (i.val = 0 → s.bit F.AON_SLCK_CFG_src = true → u.f F.AON_SLCK_CFG_src = 0 ∧ Raised ⟨0x03, kClockLoss, 1, 0, 0⟩ s u) ∧
      (i.val = 0 → s.bit F.AON_SLCK_CFG_src = false → u.clock.slck = false ∧ Raised ⟨0x03, kClockLoss, 3, 0, 0⟩ s u) ∧
      u.raised R.CLK_EVENT 3 = true ∧
      OnlyWords [R.CLK_READY, R.CLK_SEL_CORE, R.CLK_RLOOP_STAT, R.CLK_REF_LOST, R.CLK_SWITCH_FORCED, R.CLK_EVENT, R.AON_SLCK_CFG] s u ∧ Keeps [.windows, .clocks, .collector, .messages] s u) ∧
  -- PLL_UNLOCK: not ready, PLL_UNLOCK with its class; SPLL takes the core to FRC, TPLL the timebase to FREE.
  (∀ (i : Fin 12) (s : State),
    s.ok = true → 4 ≤ i.val → s.clkOn = true → s.clkReady i = true →
    Acts (.pllUnlock i) s fun u =>
      bitOf (u.f F.CLK_READY_ready) i = false ∧
      u.raised R.CLK_EVENT 4 = true ∧
      (Raised ⟨0x03, kPllUnlock, if i.val ≤ 6 then 3 else 2, i, 0⟩ s u) ∧
      (i.val = 5 → u.f F.CLK_SEL_CORE_fabric = 0 ∧ u.f F.CLK_SEL_CORE_gaffer = 0 ∧ OnlyWords [R.CLK_READY, R.CLK_EVENT, R.CLK_SEL_CORE, R.CLK_SWITCH_FORCED] s u) ∧
      (i.val = 6 → u.f F.TB_STAT_state = tsFree) ∧
      Keeps (detachParts ++ [.votes, .wide, .mould, .power, .clocks, .draws]) s u) ∧
  -- PLL_RELOCK: ready with its event.
  (∀ (i : Fin 12) (s : State),
    s.ok = true → 4 ≤ i.val → s.clkOn = true → s.clkReady i = false → s.loopRuns i = true →
    Acts (.pllRelock i) s fun u =>
      bitOf (u.f F.CLK_READY_ready) i = true ∧
      u.raised R.CLK_EVENT 6 = true ∧
      OnlyWords [R.CLK_READY, R.CLK_EVENT] s u ∧ Keeps [.windows] s u)

/-- Clock switches, gates and loop enables (R504, R507, R508, R509, R510, R511). -/
def Obligations.SwitchesAndGates : Prop :=
  -- CLOCK_SWITCH_WRITE of the core: each switch whose new source is ready starts to switch, one whose source is
  -- not is refused with its event.
  (∀ (path : Path) (sw : SwitchWrite) (s : State),
    s.ok = true → Granted path R.CLK_SEL_CORE s → ((match sw with | .core .. => true | .slck _ => false) = true) →
    Acts (.clockSwitchWrite path sw) s fun u =>
      ((match sw with | .core f g => (if f.toNat = s.f F.CLK_SEL_CORE_fabric then decide (u.f F.CLK_SEL_CORE_fabric = f.toNat) else if s.clkReady (if f = 1 then ckSpll else ckFrc) then decide (u.f F.CLK_SEL_CORE_fabric = f.toNat) && u.clock.switching.contains 1 else decide (u.f F.CLK_SEL_CORE_fabric = s.f F.CLK_SEL_CORE_fabric) && u.raised R.CLK_EVENT 0) && (if g.toNat = s.f F.CLK_SEL_CORE_gaffer then decide (u.f F.CLK_SEL_CORE_gaffer = g.toNat) else if s.clkReady (if g = 1 then ckSpll else ckFrc) then decide (u.f F.CLK_SEL_CORE_gaffer = g.toNat) && u.clock.switching.contains 2 else decide (u.f F.CLK_SEL_CORE_gaffer = s.f F.CLK_SEL_CORE_gaffer) && u.raised R.CLK_EVENT 0) | .slck _ => true) = true) ∧
      OnlyWords [R.CLK_SEL_CORE, R.CLK_SW_STAT, R.CLK_EVENT] s u ∧ Keeps [.windows, .clocks, .messages] s u) ∧
  -- SWITCH_COMPLETE: over, not forced.
  (∀ (sw : ClockSwitch) (s : State),
    s.ok = true → s.clock.switching.contains (switchCode sw) = true →
    Acts (.switchComplete sw) s fun u =>
      u.clock.switching = s.clock.switching.erase (switchCode sw) ∧
      ((match sw with | .fabric => u.reg R.CLK_SWITCH_FORCED == clrBit (s.reg R.CLK_SWITCH_FORCED).toNat 0 | .gaffer => u.reg R.CLK_SWITCH_FORCED == clrBit (s.reg R.CLK_SWITCH_FORCED).toNat 1 | .slck => !u.bit F.AON_SLCK_CFG_forced) = true) ∧
      OnlyWords [R.CLK_SWITCH_FORCED, R.AON_SLCK_CFG] s u ∧ Keeps [.clocks] s u) ∧
  -- SWITCH_FORCED: over, forced with its event.
  (∀ (sw : ClockSwitch) (s : State),
    s.ok = true → s.clock.switching.contains (switchCode sw) = true → s.clkOn = true →
    Acts (.switchForced sw) s fun u =>
      u.clock.switching = s.clock.switching.erase (switchCode sw) ∧
      u.raised R.CLK_EVENT 1 = true ∧
      ((match sw with | .fabric => bitOf (u.reg R.CLK_SWITCH_FORCED).toNat 0 | .gaffer => bitOf (u.reg R.CLK_SWITCH_FORCED).toNat 1 | .slck => u.bit F.AON_SLCK_CFG_forced) = true) ∧
      OnlyWords [R.CLK_SWITCH_FORCED, R.CLK_EVENT, R.AON_SLCK_CFG] s u ∧ Keeps [.windows, .clocks] s u) ∧
  -- LREF_SELECT: XO at once; RCLK where it is ready, else refused.
  (∀ (path : Path) (rclkOut : BitVec 2) (lref : BitVec 1) (s : State),
    s.ok = true → Granted path (R.CLK_SEL_LINE) s →
    Acts (.lrefSelect path rclkOut lref) s fun u =>
      (u.f F.CLK_SEL_LINE_rclk_out = if rclkOut.toNat = 3 then 0 else rclkOut.toNat) ∧
      (lref.toNat = 0 → u.f F.CLK_RLOOP_STAT_state = rlXo) ∧
      (lref.toNat = 1 → s.f F.CLK_RLOOP_STAT_state ≠ rlTrack → s.clkReady ckRclk = true → u.f F.CLK_RLOOP_STAT_state = rlTrack ∧ u.f F.CLK_SEL_LINE_lref = 1 ∧ u.f F.CLK_REF_LOST_lost = 0) ∧
      (lref.toNat = 1 → s.f F.CLK_RLOOP_STAT_state ≠ rlTrack → s.clkReady ckRclk = false → u.f F.CLK_RLOOP_STAT_state = s.f F.CLK_RLOOP_STAT_state ∧ u.raised R.CLK_EVENT 0 = true ∧ u.f F.CLK_SW_STAT_refused_sw = 3 ∧ u.f F.CLK_SW_STAT_refused_id = 3) ∧
      OnlyWords [R.CLK_SEL_LINE, R.CLK_RLOOP_STAT, R.CLK_REF_LOST, R.CLK_SW_STAT, R.CLK_EVENT] s u ∧ Keeps [.windows, .messages] s u) ∧
  -- GATE_WRITE: gates 0, 1 and 19 stay on; a refused bit raises its event; no gate is left on under a parent that
  -- is off.
  (∀ (path : Path) (gates : BitVec 21) (s : State),
    s.ok = true → Granted path (R.CLK_GATE) s →
    Acts (.gateWrite path gates) s fun u =>
      u.f F.CLK_GATE_gate = gateResult (s.f F.CLK_GATE_gate) gates.toNat ∧
      bitOf (u.f F.CLK_GATE_gate) 0 = true ∧
      bitOf (u.f F.CLK_GATE_gate) 1 = true ∧
      bitOf (u.f F.CLK_GATE_gate) 19 = true ∧
      (gateResult (s.f F.CLK_GATE_gate) gates.toNat ≠ gates.toNat ||| 0x80003 → u.raised R.CLK_EVENT 5 = true) ∧
      (∀ g : Fin 21, ∀ q ∈ (gateParent g).toList, (∀ k : Fin 21, ∀ r ∈ (gateParent k).toList, bitOf (s.f F.CLK_GATE_gate) k = true → bitOf (s.f F.CLK_GATE_gate) r = true) → bitOf (s.f F.CLK_GATE_gate) 0 = true → bitOf (s.f F.CLK_GATE_gate) 19 = true → bitOf (u.f F.CLK_GATE_gate) g = true → bitOf (u.f F.CLK_GATE_gate) q = true) ∧
      Frame [.CLK_GATE, .CLK_EVENT, .TB_STAT, .TB_EVENT, .CAL_PORT_STAT, .CAL_PORT_QUAL, .BND_STAT, .BND_EVENT, .BND_PAIR_STAT, .CANE_STAT, .CANE_EVENT, .WAKE_PENDING, .PORT_CTL, .PORT_STATE, .PORT_PARTNER_ABIL, .PORT_PARTNER_FLAGS, .PORT_PARTNER_ID, .PORT_LINK_QUAL, .PORT_MSE_REF, .PORT_DROP_COUNT, .PORT_DROP_HIST_IDX, .PORT_DROP_HIST, .PORT_EVENT, .PORT_X50_STAT, .PORT_AM_STAT, .PORT_LOOP_STAT, .PORT_SEG_STAT, .PORT_LPI_STAT, .PORT_TC10_STAT] (linkParts ++ [.draws]) s u) ∧
  -- PLL_EN_WRITE: a loop that a switch selects or that feeds another stays on; a loop turned off is not ready.
  (∀ (path : Path) (loops : BitVec 8) (s : State),
    s.ok = true → Granted path (R.CLK_PLL_EN) s →
    Acts (.pllEnWrite path loops) s fun u =>
      (loops.toNat = s.f F.CLK_PLL_EN_en → u.f F.CLK_PLL_EN_en = loops.toNat ∧ OnlyWords [R.CLK_PLL_EN] s u) ∧
      (bitOf (s.f F.CLK_PLL_EN_en) 1 = true → bitOf loops.toNat 1 = false → s.bit F.CLK_SEL_CORE_fabric = true ∨ s.bit F.CLK_SEL_CORE_gaffer = true → bitOf (u.f F.CLK_PLL_EN_en) 1 = true ∧ u.raised R.CLK_EVENT 5 = true) ∧
      (bitOf (s.f F.CLK_PLL_EN_en) 0 = true → bitOf loops.toNat 0 = false → loops.toNat / 8 % 16 ≠ 0 → bitOf (u.f F.CLK_PLL_EN_en) 0 = true) ∧
      (bitOf loops.toNat 1 = true → bitOf loops.toNat 0 = true → u.f F.CLK_PLL_EN_en = loops.toNat) ∧
      (∀ k : Fin 8, bitOf (s.f F.CLK_PLL_EN_en) k = true → bitOf (u.f F.CLK_PLL_EN_en) k = false → bitOf (u.f F.CLK_READY_ready) (k + 4) = false) ∧
      Keeps (detachParts ++ [.votes, .wide, .mould, .power, .clocks, .draws]) s u)

/-- What raises a message, and what it leaves alone (R526, R528, R529, R537, R538, R539, R540, R548, R535, R536). -/
def Obligations.FaultSources : Prop :=
  -- FAULT_MESSAGE raises exactly that message.
  (∀ (src : BitVec 7) (kind : BitVec 8) (cls : Fin 5) (detail : BitVec 13) (w1 : Word) (s : State),
    s.ok = true →
    Acts (.faultMessage src kind cls detail w1) s fun u =>
      u.intake = s.intake ++ [⟨src.toNat, kind.toNat, cls, detail.toNat, w1.toNat⟩] ∧
      OnlyWords [] s u ∧ Keeps [.messages] s u) ∧
  -- REACT_RESET_WINDOW: the count is 0.
  (∀ (s : State),
    s.ok = true → s.power.vaon = true →
    Acts .reactResetWindow s fun u =>
      u.f F.AON_REACT_RESETS_count = 0 ∧
      OnlyWords [R.AON_REACT_RESETS] s u ∧ Keeps [] s u) ∧
  -- COLLECTOR_SELF: SAFE on C4 with reason 4: ports silenced, DMA off, the Gaffer held, ALIVE stopped.
  (∀ (part : BitVec 2) (s : State),
    s.ok = true → s.domOn domMgt = true → s.bit F.AON_SAFE_STAT_safe = false → s.entering = false →
    Acts (.collectorSelf part) s fun u =>
      u.f F.FLT_STAT_self_fault = 1 ∧
      u.f F.FLT_STAT_safe = 1 ∧
      u.f F.AON_SAFE_STAT_safe = 1 ∧
      u.f F.AON_SAFE_STAT_class_ = 4 ∧
      u.f F.AON_SAFE_STAT_reason = 4 ∧
      u.fault.stopped = true ∧
      u.power.gaffer = false ∧
      u.devMode = mdSafe ∧
      (∀ p : Port, s.domOn (portDomain p) = true → u.f (F.PORT_CTL_admin p) = 0) ∧
      (∀ c : Fin 16, u.mcState c = mcOff) ∧
      Frame [.GLB_MODE, .PWR_AVS_STAT, .FLT_STAT, .TB_STAT, .TB_EVENT, .LCH_LG_STAT, .CAL_EVENT, .CAL_PORT_STAT, .CAL_PORT_QUAL, .MCH_CTL, .MCH_CUR, .MCH_STAT, .MCH_HOPS, .MCH_REMAIN, .MCH_DONE, .MCH_BYTES, .HSPI_KEVENT, .HEAD_REQ_STAT, .BND_STAT, .BND_EVENT, .BND_PAIR_STAT, .CANE_STAT, .CANE_EVENT, .WAKE_PENDING, .AON_MODE, .AON_SAFE_STAT, .PORT_CTL, .PORT_STATE, .PORT_PARTNER_ABIL, .PORT_PARTNER_FLAGS, .PORT_PARTNER_ID, .PORT_PARTNER_REF_ABIL, .PORT_PARTNER_REF_FLAGS, .PORT_PARTNER_REF_ID, .PORT_LINK_QUAL, .PORT_MSE_REF, .PORT_DROP_COUNT, .PORT_DROP_HIST_IDX, .PORT_DROP_HIST, .PORT_EVENT, .PORT_X50_STAT, .PORT_AM_STAT, .PORT_LOOP_STAT, .PORT_LOOP_BITS, .PORT_LOOP_ERRS, .PORT_SEG_STAT, .PORT_LPI_STAT, .PORT_TC10_STAT, .QP_RX_BASE, .QP_RX_CFG, .QP_RX_CTL, .QP_RX_HEAD_IDX, .QP_RX_ACK, .QP_RX_MOD, .QP_RX_STAT, .QP_RX_STATE, .QP_RX_FRAMES, .QP_RX_DROPS, .QP_RX_BAD, .QP_TX_BASE, .QP_TX_CFG, .QP_TX_CTL, .QP_TX_HEAD_IDX, .QP_TX_ACK, .QP_TX_MOD, .QP_TX_STAT, .QP_TX_STATE, .QP_TX_FRAMES, .QP_TX_DROPS, .QP_TX_BAD, .QP_EVENT, .QP_EVENT_MASK] safeParts s u) ∧
  -- SUPPLY of a main rail: C3 with the rail.
  (∀ (rail : BitVec 3) (s : State),
    s.ok = true → s.domOn domMgt = true →
    Acts (.supply rail) s fun u =>
      u.intake = s.intake ++ [⟨0x04, kSupply, 3, rail.toNat, 0⟩] ∧
      OnlyWords [] s u ∧ Keeps [.messages] s u) ∧
  -- OVERTEMP of the eight sensors: the hottest and the maximum; C2 at 125 °C, C3 at 135 °C, once for each sensor;
  -- below 125 °C nothing is raised.
  (∀ (tj : List Byte) (s : State),
    s.ok = true → s.domOn domMgt = true → tj.length = 8 →
    Acts (.overtemp tj) s fun u =>
      (∀ t ∈ tj, t.toNat ≤ u.f F.FLT_THERM_now_tj) ∧
      ((tj.any fun t => t.toNat == u.f F.FLT_THERM_now_tj) = true) ∧
      u.f F.FLT_THERM_max_tj = max (u.f F.FLT_THERM_now_tj) (s.f F.FLT_THERM_max_tj) ∧
      (∀ i : Fin 8, 199 ≤ (tj.getD i 0).toNat → s.fault.hot.contains (i.val, 3) = false → Raised ⟨0x04, kOvertemp, 3, (tj.getD i 0).toNat, i⟩ s u) ∧
      (∀ i : Fin 8, 189 ≤ (tj.getD i 0).toNat → s.fault.hot.contains (i.val, 2) = false → Raised ⟨0x04, kOvertemp, 2, (tj.getD i 0).toNat, i⟩ s u) ∧
      ((tj.all fun t => decide (t.toNat < 189)) = true → u.intake = s.intake) ∧
      OnlyWords [R.FLT_THERM] s u ∧ Keeps [.collector, .messages] s u) ∧
  -- ALIVE_TOGGLE while nothing stops it: the pin changes.
  (∀ (s : State),
    s.ok = true → s.power.kicked = true → s.fault.stopped = false → s.bit F.AON_SAFE_STAT_safe = false → s.clock.slck = true →
    s.domOn domMgt = true → s.bit F.FLT_STAT_self_fault = false →
    Acts .aliveToggle s fun u =>
      u.fault.alive = !s.fault.alive ∧
      u.out = s.out ++ [.pin "ALIVE" (b2n (!s.fault.alive))] ∧
      OnlyWords [] s u ∧ Keeps [.collector, .sent] s u) ∧
  -- WATCHDOG_KICK with the key starts the watchdog again; a wrong key is its expiry.
  (∀ (path : Path) (key : BitVec 16) (s : State),
    s.ok = true → Granted path (R.FLT_WDOG_KICK) s →
    Acts (.watchdogKick path key) s fun u =>
      (key.toNat = 0x7A91 → s.fault.wdog.isSome = true → u.fault.wdog = some s.now ∧ OnlyWords [] s u) ∧
      (key.toNat = 0x7A91 → s.power.gaffer = true → u.power.kicked = true) ∧
      (key.toNat ≠ 0x7A91 → s.fault.wdog.isSome = true → u.fault.wdog = none ∧ u.fault.stopped = true ∧ Raised ⟨0x09, kWatchdog, 3, 0, s.f F.FLT_WDOG_CFG_timeout_ms⟩ s u) ∧
      OnlyWords [R.FLT_WDOG_STAT] s u ∧ Keeps [.power, .collector, .messages] s u) ∧
  -- WATCHDOG: expired, ALIVE stopped, C3.
  (∀ (s : State),
    s.ok = true → s.fault.wdog.isSome = true →
    Acts .watchdog s fun u =>
      u.fault.wdog = none ∧
      u.fault.stopped = true ∧
      u.f F.FLT_WDOG_STAT_expired = 1 ∧
      u.intake = s.intake ++ [⟨0x09, kWatchdog, 3, 0, s.f F.FLT_WDOG_CFG_timeout_ms⟩] ∧
      OnlyWords [R.FLT_WDOG_STAT] s u ∧ Keeps [.collector, .messages] s u) ∧
  -- LOCKSTEP: both cores halt, C3 with the pc.
  (∀ (pc : Word) (s : State),
    s.ok = true → s.fwRuns = true →
    Acts (.lockstep pc) s fun u =>
      u.power.halted = true ∧
      u.intake = s.intake ++ [⟨0x09, kLockstep, 3, 0, pc.toNat⟩] ∧
      OnlyWords [] s u ∧ Keeps [.power, .messages] s u) ∧
  -- FLT_IRQ_REARM arms the fault interrupt.
  (∀ (path : Path) (s : State),
    s.ok = true → Granted path (R.FLT_IRQ_REARM) s →
    Acts (.fltIrqRearm path) s fun u =>
      u.f F.FLT_IRQ_REARM_rearm = 1 ∧
      OnlyWords [R.FLT_IRQ_REARM] s u ∧ Keeps [.messages] s u)

/-- The log is cleared; fault records are asked for, written and skipped (R541, R542, R543). -/
def Obligations.LogAndRecords : Prop :=
  -- LOG_CLEAR: no entry is valid, FIRST and LOG_STAT are 0.
  (∀ (path : Path) (s : State),
    s.ok = true → Granted path (R.FLT_LOG_CTL) s →
    Acts (.logClear path) s fun u =>
      u.reg R.FLT_LOG_STAT = 0 ∧
      u.wide R.FLT_FIRST 4 = 0 ∧
      (∀ i : Fin 512, u.bit (F.FLT_LOG_valid i) = false) ∧
      u.fault.newest = none ∧
      OnlyIn [R.FLT_LOG_STAT, R.FLT_FIRST, R.FLT_FIRST + 4, R.FLT_FIRST + 8, R.FLT_FIRST + 12] [.FLT_LOG] s u ∧ Keeps [.collector, .messages] s u) ∧
  -- FAULT_RECORD_REQUEST: a record waits, write reads 1.
  (∀ (path : Path) (s : State),
    s.ok = true → Granted path (R.FLT_REC_CTL) s → s.bit F.FLT_REC_CTL_write = false →
    Acts (.faultRecordRequest path) s fun u =>
      u.f F.FLT_REC_CTL_write = 1 ∧
      u.fault.recWait = s.fault.recWait ++ [⟨3, 0, 0, 0⟩] ∧
      OnlyWords [R.FLT_REC_CTL] s u ∧ Keeps [.collector, .messages] s u) ∧
  -- FAULT_RECORD_DONE of the last record that nothing follows: USED, PROGRAM_FAIL, or WRITTEN with the header in
  -- its sector; every other byte of the flash is as before.
  (∀ (failed : Bool) (s : State),
    s.ok = true → s.domOn domMgt = true → ((match s.fault.recWait with | [r] => r.andThen == 0 | _ => false) = true) →
    Acts (.faultRecordDone failed) s fun u =>
      u.fault.recWait = [] ∧
      u.raised R.FLT_EVENT 5 = true ∧
      SameOutside erased s.recordAddr 2116 s.flash u.flash ∧
      (s.bit F.FLT_REC_STAT_used = true → u.f F.FLT_REC_STAT_result = 3 ∧ u.flash = s.flash) ∧
      (s.bit F.FLT_REC_STAT_used = false → s.fport.op = none → failed = true → u.f F.FLT_REC_STAT_result = 4) ∧
      (s.bit F.FLT_REC_STAT_used = false → s.fport.op = none → failed = false → u.f F.FLT_REC_STAT_result = 1 ∧ u.f F.FLT_REC_STAT_used = 1 ∧ u.fault.seq = s.fault.seq + 1 ∧ u.flash.readBytes erased s.recordAddr 12 = List.zipWith (fun x y => x &&& y) (s.flash.readBytes erased s.recordAddr 12) (leBytes 4 0x52464458 ++ leBytes 2 1 ++ (s.fault.recWait.map fun r => BitVec.ofNat 8 r.occasion) ++ (s.fault.recWait.map fun r => BitVec.ofNat 8 r.cls) ++ leBytes 4 (s.fault.seq + 1))) ∧
      OnlyWords [R.FLT_REC_STAT, R.FLT_REC_CTL, R.FLT_EVENT] s u ∧ Keeps [.windows, .flash, .collector, .sent, .draws] s u) ∧
  -- REC_NEXT_WRITE: the sector stored, unused.
  (∀ (path : Path) (sector : BitVec 6) (s : State),
    s.ok = true → Granted path (R.FLT_REC_NEXT) s →
    Acts (.recNextWrite path sector) s fun u =>
      u.f F.FLT_REC_NEXT_sector = sector.toNat ∧
      u.f F.FLT_REC_STAT_used = 0 ∧
      OnlyWords [R.FLT_REC_NEXT, R.FLT_REC_STAT] s u ∧ Keeps [.messages] s u)

/-- Checker tests, the cellar's self-test, fault injection (R550, R551, R552, R553, R554, R555). -/
def Obligations.CheckersAndMbist : Prop :=
  -- CHECKER_TEST_START: running with its count; a second start is refused BUSY.
  (∀ (path : Path) (checker : BitVec 8) (count : BitVec 8) (limit : BitVec 8) (s : State),
    s.ok = true → Granted path (R.FLT_CHK_CTL) s →
    Acts (.checkerTestStart path checker count limit) s fun u =>
      u.f F.FLT_CHK_CTL_checker = checker.toNat ∧
      u.f F.FLT_CHK_CTL_count = count.toNat ∧
      (s.f F.FLT_CHK_STAT_state = 1 → u.f F.FLT_CHK_STAT_state = 1 ∧ u.f F.FLT_CHK_STAT_result = 4) ∧
      (s.f F.FLT_CHK_STAT_state ≠ 1 → s.cellarBooked = false → u.f F.FLT_CHK_STAT_state = 1 ∧ u.f F.FLT_CHK_STAT_result = 0 ∧ u.f F.FLT_CHK_STAT_detected = 0 ∧ u.f F.FLT_CHK_STAT_remaining = max 1 count.toNat ∧ u.fault.checker = checker.toNat) ∧
      OnlyWords [R.FLT_CHK_CTL, R.FLT_CHK_STAT] s u ∧ Keeps [.collector, .messages] s u) ∧
  -- CHECKER_TEST: a detection is logged and counted, the last ends the test; a miss ends it with SELFTEST_FAIL.
  (∀ (detected : Bool) (corr : Bool) (at_ : BitVec 8) (w1 : Word) (s : State),
    s.ok = true → s.f F.FLT_CHK_STAT_state = 1 →
    Acts (.checkerTest detected corr at_ w1) s fun u =>
      (detected = true → Raised ⟨checkerSource s.fault.checker at_.toNat, kCheckerTest, 0, checkerKind s.fault.checker corr * 256 + s.fault.checker, w1.toNat⟩ s u ∧ u.f F.FLT_CHK_STAT_detected = min (s.f F.FLT_CHK_STAT_detected + 1) 255) ∧
      (detected = true → s.f F.FLT_CHK_STAT_remaining = 1 → u.f F.FLT_CHK_STAT_state = 2 ∧ u.f F.FLT_CHK_STAT_result = 1 ∧ u.raised R.FLT_EVENT 3 = true) ∧
      (detected = true → 1 < s.f F.FLT_CHK_STAT_remaining → u.f F.FLT_CHK_STAT_state = 1 ∧ u.f F.FLT_CHK_STAT_remaining = s.f F.FLT_CHK_STAT_remaining - 1) ∧
      (detected = false → Raised ⟨checkerSource s.fault.checker at_.toNat, kSelftestFail, 2, s.fault.checker, 0⟩ s u ∧ u.f F.FLT_CHK_STAT_state = 2 ∧ u.f F.FLT_CHK_STAT_result = 2) ∧
      OnlyWords [R.FLT_CHK_STAT, R.FLT_EVENT] s u ∧ Keeps [.windows, .messages] s u) ∧
  -- CHECKER_TEST_TIMEOUT ends it.
  (∀ (s : State),
    s.ok = true → s.f F.FLT_CHK_STAT_state = 1 →
    Acts .checkerTestTimeout s fun u =>
      u.f F.FLT_CHK_STAT_state = 2 ∧
      u.f F.FLT_CHK_STAT_result = 3 ∧
      u.f F.FLT_CHK_STAT_remaining = 0 ∧
      u.raised R.FLT_EVENT 3 = true ∧
      OnlyWords [R.FLT_CHK_STAT, R.FLT_EVENT] s u ∧ Keeps [.windows] s u) ∧
  -- MBIST_START: refused with its reason, or running with the cellar booked.
  (∀ (path : Path) (noWait : BitVec 1) (s : State),
    s.ok = true → Granted path (R.FLT_MBIST_CTL) s → s.f F.FLT_MBIST_STAT_state ≠ 1 → s.f F.FLT_MBIST_STAT_state ≠ 2 →
    Acts (.mbistStart path noWait) s fun u =>
      (s.mbistRefusal ≠ 0 → u.f F.FLT_MBIST_STAT_state = 4 ∧ u.f F.FLT_MBIST_STAT_result = s.mbistRefusal) ∧
      (s.mbistRefusal = 0 → s.ledger.books = [] → s.ledger.queue = [] → u.f F.FLT_MBIST_STAT_state = 2 ∧ u.f F.FLT_MBIST_STAT_result = 0 ∧ u.ledger.books.map (·.act) = [8]) ∧
      Frame [.FLT_MBIST_CTL, .FLT_MBIST_STAT, .FLT_EVENT, .TB_STAT, .TB_EVENT, .FUR_SELFTEST, .FUR_EVENT, .CAL_EVENT, .CAL_PORT_STAT, .CAL_PORT_QUAL, .DIAG_LEDGER_STAT, .DIAG_FLASH_BOOK, .DIAG_EVENT, .DIAG_SWEEP_CTL, .DIAG_SWEEP_STAT, .DIAG_TDR_STAT, .CEL_STAT, .BND_STAT, .BND_EVENT, .BND_PAIR_STAT, .CANE_STAT, .CANE_EVENT, .WAKE_PENDING, .PORT_CTL, .PORT_STATE, .PORT_PARTNER_ABIL, .PORT_PARTNER_FLAGS, .PORT_PARTNER_ID, .PORT_LINK_QUAL, .PORT_MSE_REF, .PORT_DROP_COUNT, .PORT_DROP_HIST_IDX, .PORT_DROP_HIST, .PORT_EVENT, .PORT_X50_STAT, .PORT_AM_STAT, .PORT_LOOP_STAT, .PORT_LOOP_BITS, .PORT_LOOP_ERRS, .PORT_SEG_STAT, .PORT_LPI_STAT, .PORT_TC10_STAT] (linkParts ++ [.diagnostics, .fills, .draws]) s u) ∧
  -- MBIST_STOP: ABORTED, no written bit is left.
  (∀ (path : Path) (s : State),
    s.ok = true → Granted path (R.FLT_MBIST_CTL) s → s.ledger.books = [mbistBooking 5] → s.f F.FLT_MBIST_STAT_state = 2 → s.ledger.queue = [] →
    Acts (.mbistStop path) s fun u =>
      u.f F.FLT_MBIST_STAT_state = 3 ∧
      u.f F.FLT_MBIST_STAT_result = 3 ∧
      u.filled = [] ∧
      u.f F.CEL_STAT_init_done = 0 ∧
      u.ledger.books = [] ∧
      u.raised R.FLT_EVENT 4 = true ∧
      Frame [.FLT_MBIST_STAT, .FLT_EVENT, .TB_STAT, .TB_EVENT, .FUR_SELFTEST, .FUR_EVENT, .CAL_EVENT, .CAL_PORT_STAT, .CAL_PORT_QUAL, .DIAG_FLASH_BOOK, .DIAG_SWEEP_CTL, .DIAG_SWEEP_STAT, .DIAG_TDR_STAT, .CEL_STAT, .BND_STAT, .BND_EVENT, .BND_PAIR_STAT, .CANE_STAT, .CANE_EVENT, .WAKE_PENDING, .PORT_CTL, .PORT_STATE, .PORT_PARTNER_ABIL, .PORT_PARTNER_FLAGS, .PORT_PARTNER_ID, .PORT_LINK_QUAL, .PORT_MSE_REF, .PORT_DROP_COUNT, .PORT_DROP_HIST_IDX, .PORT_DROP_HIST, .PORT_EVENT, .PORT_X50_STAT, .PORT_AM_STAT, .PORT_LOOP_STAT, .PORT_LOOP_BITS, .PORT_LOOP_ERRS, .PORT_SEG_STAT, .PORT_LPI_STAT, .PORT_TC10_STAT] (linkParts ++ [.diagnostics, .fills, .draws]) s u) ∧
  -- MBIST_DONE: OK or FAIL with the count and the first cell; the cellar is zero and written.
  (∀ (fails : Nat) (first : BitVec 18) (s : State),
    s.ok = true → s.f F.FLT_MBIST_STAT_state = 2 →
    Acts (.mbistDone fails first) s fun u =>
      u.f F.FLT_MBIST_STAT_state = 3 ∧
      (u.f F.FLT_MBIST_STAT_result = if fails = 0 then 1 else 2) ∧
      u.f F.FLT_MBIST_STAT_fail_cells = min fails (2 ^ 18 - 1) ∧
      u.filled = [(0, 393216)] ∧
      u.f F.CEL_STAT_init_done = 1 ∧
      u.raised R.FLT_EVENT 4 = true ∧
      (fails ≠ 0 → Raised ⟨0x0A, kSelftestFail, 2, 0, first.toNat⟩ s u ∧ u.f F.FLT_MBIST_FAIL_cell = first.toNat) ∧
      u.cellar.readBytes blank 0 64 = List.replicate 64 blank ∧
      OnlyWords [R.FLT_MBIST_STAT, R.FLT_MBIST_FAIL, R.FLT_EVENT, R.CEL_STAT] s u ∧ Keeps [.windows, .ledger, .cellar, .fills, .messages] s u) ∧
  -- FAULT_INJECT: a write works in the factory test state only; the read that meets the word is reported by the
  -- packet checker as a true error.
  (∀ (what : Inject) (s : State),
    s.ok = true →
    ((match what with | .write path _ _ _ _ => decide (Granted path R.FLT_INJ_CTL s) | _ => s.bit F.FLT_INJ_CTL_start && decide (s.f F.FLT_INJ_CTL_checker = 0x14)) = true) →
    Acts (.faultInject what) s fun u =>
      ((match what with | .write path c b d start => if s.factoryTest then decide (u.f F.FLT_INJ_CTL_checker = c.toNat ∧ u.f F.FLT_INJ_CTL_bit = b.toNat ∧ u.bit F.FLT_INJ_CTL_double = d) && (!start || u.bit F.FLT_INJ_CTL_start) else decide (u.regs = s.regs) | .read _ syn w => decide (u.f F.FLT_INJ_CTL_start = 0 ∧ u.intake = s.intake ++ [⟨0x0A, if s.bit F.FLT_INJ_CTL_double then kEccUncorr else kEccCorr, if s.bit F.FLT_INJ_CTL_double then 2 else 1, syn.toNat % 256, w.toNat⟩])) = true) ∧
      OnlyWords [R.FLT_INJ_CTL] s u ∧ Keeps [.messages] s u)

/-- READ and READ_CRC frames: the status byte, the fetch status byte and the words; what TOP rejects (R557, R558,
R559, R560, R562, R564, R565). -/
def Obligations.KeeperReads : Prop :=
  -- READ: a word of the register space most significant byte first; 0xD0FFD0FF with off = 1 where the checks give
  -- it; 0xFF while the fetch is not done; a frame beyond the last word is rejected with reason 4.
  (∀ (addr : BitVec 24) (clocked : Nat) (done : Bool) (ahead : Bool) (upsets : List Upset) (s : State),
    s.ok = true → s.power.vaon = true →
    Acts (.read addr clocked done ahead upsets) s fun u =>
      (clocked = 8 → ahead = false → upsets = [] → SMap.get? s.tv (4 * addr.toNat) = none → (done = true ∨ 0x160000 ≤ 4 * addr.toNat ∧ 4 * addr.toNat < 0x180000 ∨ s.ready = false) → s.judge 6 (4 * addr.toNat) false = .granted → Sent (.spi ([s.spiStatus, 0, 0, 0, 0x81] ++ beBytes (s.found 6 (4 * addr.toNat)))) s u) ∧
      (clocked = 8 → ahead = false → upsets = [] → SMap.get? s.tv (4 * addr.toNat) = none → (done = true ∨ 0x160000 ≤ 4 * addr.toNat ∧ 4 * addr.toNat < 0x180000 ∨ s.ready = false) → s.judge 6 (4 * addr.toNat) false = .off true ∨ s.judge 6 (4 * addr.toNat) false = .off false → Sent (.spi ([s.spiStatus, 0, 0, 0, 0xC1] ++ beBytes 0xD0FFD0FF)) s u) ∧
      (clocked = 8 → ahead = false → upsets = [] → SMap.get? s.tv (4 * addr.toNat) = none → done = false → (addr.toNat < 0x058000 ∨ 0x060000 ≤ addr.toNat) → s.ready = true → s.judge 6 (4 * addr.toNat) false = .granted → Sent (.spi ([s.spiStatus, 0, 0, 0, 0x01] ++ beBytes 0xFFFFFFFF)) s u) ∧
      u.spiRejected = decide (2 ^ 24 < addr.toNat + (clocked - 4 + 3) / 4) ∧
      (s.ready = true → u.f F.HSPI_COUNT_frames = (s.f F.HSPI_COUNT_frames + 1) % 65536 ∧ u.f F.HSPI_LAST_words = min ((clocked - 4) / 4) 255) ∧
      (addr.toNat + (clocked - 4 + 3) / 4 ≤ 2 ^ 24 → (s.ready = true → u.f F.HSPI_LAST_reason = s.f F.HSPI_LAST_reason ∧ u.f F.HSPI_COUNT_rejected = s.f F.HSPI_COUNT_rejected)) ∧
      (2 ^ 24 < addr.toNat + (clocked - 4 + 3) / 4 → (s.ready = true → u.f F.HSPI_LAST_reason = 4 ∧ u.f F.HSPI_COUNT_rejected = min (s.f F.HSPI_COUNT_rejected + 1) 65535)) ∧
      (upsets = [] → s.tv = [] → OnlyWords [R.HSPI_LAST, R.HSPI_COUNT] s u ∧ Keeps [.wide, .frames, .sent, .messages] s u) ∧
      Keeps (safeParts ++ [.votes, .wide, .frames]) s u) ∧
  -- READ_CRC: a word of the register space most significant byte first, with its CRC-8; 0xD0FFD0FF with off = 1
  -- where the checks give it; 0xFF while the fetch is not done; a frame beyond the last word is rejected with
  -- reason 4.
  (∀ (addr : BitVec 24) (clocked : Nat) (done : Bool) (ahead : Bool) (upsets : List Upset) (s : State),
    s.ok = true → s.power.vaon = true →
    Acts (.readCrc addr clocked done ahead upsets) s fun u =>
      (clocked = 9 → ahead = false → upsets = [] → SMap.get? s.tv (4 * addr.toNat) = none → (done = true ∨ 0x160000 ≤ 4 * addr.toNat ∧ 4 * addr.toNat < 0x180000 ∨ s.ready = false) → s.judge 6 (4 * addr.toNat) false = .granted → Sent (.spi ([s.spiStatus, 0, 0, 0, 0x81] ++ beBytes (s.found 6 (4 * addr.toNat)) ++ [spiCrc (beBytes (s.found 6 (4 * addr.toNat)))])) s u) ∧
      (clocked = 9 → ahead = false → upsets = [] → SMap.get? s.tv (4 * addr.toNat) = none → (done = true ∨ 0x160000 ≤ 4 * addr.toNat ∧ 4 * addr.toNat < 0x180000 ∨ s.ready = false) → s.judge 6 (4 * addr.toNat) false = .off true ∨ s.judge 6 (4 * addr.toNat) false = .off false → Sent (.spi ([s.spiStatus, 0, 0, 0, 0xC1] ++ beBytes 0xD0FFD0FF ++ [spiCrc (beBytes 0xD0FFD0FF)])) s u) ∧
      (clocked = 9 → ahead = false → upsets = [] → SMap.get? s.tv (4 * addr.toNat) = none → done = false → (addr.toNat < 0x058000 ∨ 0x060000 ≤ addr.toNat) → s.ready = true → s.judge 6 (4 * addr.toNat) false = .granted → Sent (.spi ([s.spiStatus, 0, 0, 0, 0x01] ++ beBytes 0xFFFFFFFF ++ [spiCrc (beBytes 0xFFFFFFFF)])) s u) ∧
      u.spiRejected = decide (2 ^ 24 < addr.toNat + (clocked - 4 + 4) / 5) ∧
      (s.ready = true → u.f F.HSPI_COUNT_frames = (s.f F.HSPI_COUNT_frames + 1) % 65536 ∧ u.f F.HSPI_LAST_words = min ((clocked - 4) / 5) 255) ∧
      (addr.toNat + (clocked - 4 + 4) / 5 ≤ 2 ^ 24 → (s.ready = true → u.f F.HSPI_LAST_reason = s.f F.HSPI_LAST_reason ∧ u.f F.HSPI_COUNT_rejected = s.f F.HSPI_COUNT_rejected)) ∧
      (2 ^ 24 < addr.toNat + (clocked - 4 + 4) / 5 → (s.ready = true → u.f F.HSPI_LAST_reason = 4 ∧ u.f F.HSPI_COUNT_rejected = min (s.f F.HSPI_COUNT_rejected + 1) 65535)) ∧
      (upsets = [] → s.tv = [] → OnlyWords [R.HSPI_LAST, R.HSPI_COUNT] s u ∧ Keeps [.wide, .frames, .sent, .messages] s u) ∧
      Keeps (safeParts ++ [.votes, .wide, .frames]) s u)

/-- WRITE and WRITE_CRC frames, applied whole or rejected whole; STATUS frames and unknown commands (R557, R558,
R562, R563, R564, R565). -/
def Obligations.KeeperWrites : Prop :=
  -- WRITE of one word that no reason rejects: the register is written as the keeper's own write of that word.
  (∀ (bytes : List Byte) (midByte : Bool) (s : State),
    s.ok = true → s.power.vaon = true → s.writeFaults 0x02 false bytes midByte = [] → bytes.length = 7 →
    (s.received 0x02 false bytes midByte).judge 6 (4 * beNat (bytes.take 3)) true = .granted →
    (s.received 0x02 false bytes midByte).breaksRv 6 (4 * beNat (bytes.take 3)) (BitVec.ofNat 32 (beNat ((bytes.drop 3).take 4))) = false →
    (s.received 0x02 false bytes midByte).plain 6 (4 * beNat (bytes.take 3)) (BitVec.ofNat 32 (beNat ((bytes.drop 3).take 4))) = true →
    Acts (.write bytes midByte) s fun u =>
      Written (4 * beNat (bytes.take 3)) (BitVec.ofNat 32 (beNat ((bytes.drop 3).take 4))) (s.received 0x02 false bytes midByte) u ∧
      OnlyWords [(4 * beNat (bytes.take 3))] (s.received 0x02 false bytes midByte) u ∧ Keeps [.shadows] (s.received 0x02 false bytes midByte) u) ∧
  -- A WRITE frame that is rejected writes nothing; the status bit, the count and the reason are set.
  (∀ (bytes : List Byte) (midByte : Bool) (s : State),
    s.ok = true → s.power.vaon = true → s.writeFaults 0x02 false bytes midByte ≠ [] →
    Acts (.write bytes midByte) s fun u =>
      u.spiRejected = true ∧
      Sent (.spi (s.spiStatus :: List.replicate bytes.length 0)) s u ∧
      (s.ready = true → u.f F.HSPI_COUNT_frames = (s.f F.HSPI_COUNT_frames + 1) % 65536 ∧ u.f F.HSPI_LAST_words = min ((bytes.length - 3) / 4) 255) ∧
      (s.ready = true → u.f F.HSPI_COUNT_rejected = min (s.f F.HSPI_COUNT_rejected + 1) 65535) ∧
      (s.ready = true → s.writeFaults 0x02 false bytes midByte = [u.f F.HSPI_LAST_reason] ∨ 2 ≤ (s.writeFaults 0x02 false bytes midByte).length) ∧
      OnlyWords [R.HSPI_LAST, R.HSPI_COUNT] s u ∧ Keeps [.frames, .sent, .draws] s u) ∧
  -- WRITE_CRC of one word that no reason rejects: the register is written as the keeper's own write of that word.
  (∀ (bytes : List Byte) (midByte : Bool) (s : State),
    s.ok = true → s.power.vaon = true → s.writeFaults 0x82 true bytes midByte = [] → bytes.length = 8 →
    (s.received 0x82 true bytes midByte).judge 6 (4 * beNat (bytes.take 3)) true = .granted →
    (s.received 0x82 true bytes midByte).breaksRv 6 (4 * beNat (bytes.take 3)) (BitVec.ofNat 32 (beNat ((bytes.drop 3).take 4))) = false →
    (s.received 0x82 true bytes midByte).plain 6 (4 * beNat (bytes.take 3)) (BitVec.ofNat 32 (beNat ((bytes.drop 3).take 4))) = true →
    Acts (.writeCrc bytes midByte) s fun u =>
      Written (4 * beNat (bytes.take 3)) (BitVec.ofNat 32 (beNat ((bytes.drop 3).take 4))) (s.received 0x82 true bytes midByte) u ∧
      OnlyWords [(4 * beNat (bytes.take 3))] (s.received 0x82 true bytes midByte) u ∧ Keeps [.shadows] (s.received 0x82 true bytes midByte) u) ∧
  -- A WRITE_CRC frame that is rejected writes nothing; the status bit, the count and the reason are set.
  (∀ (bytes : List Byte) (midByte : Bool) (s : State),
    s.ok = true → s.power.vaon = true → s.writeFaults 0x82 true bytes midByte ≠ [] →
    Acts (.writeCrc bytes midByte) s fun u =>
      u.spiRejected = true ∧
      Sent (.spi (s.spiStatus :: List.replicate bytes.length 0)) s u ∧
      (s.ready = true → u.f F.HSPI_COUNT_frames = (s.f F.HSPI_COUNT_frames + 1) % 65536 ∧ u.f F.HSPI_LAST_words = min ((bytes.length - 4) / 4) 255) ∧
      (s.ready = true → u.f F.HSPI_COUNT_rejected = min (s.f F.HSPI_COUNT_rejected + 1) 65535) ∧
      (s.ready = true → s.writeFaults 0x82 true bytes midByte = [u.f F.HSPI_LAST_reason] ∨ 2 ≤ (s.writeFaults 0x82 true bytes midByte).length) ∧
      OnlyWords [R.HSPI_LAST, R.HSPI_COUNT] s u ∧ Keeps [.frames, .sent, .draws] s u) ∧
  -- STATUS returns the status byte and zeros, and clears the rejected bit.
  (∀ (clocked : Nat) (s : State),
    s.ok = true → s.power.vaon = true →
    Acts (.status clocked) s fun u =>
      Sent (.spi (s.spiStatus :: List.replicate clocked 0)) s u ∧
      u.spiRejected = false ∧
      (s.ready = true → u.f F.HSPI_COUNT_frames = (s.f F.HSPI_COUNT_frames + 1) % 65536 ∧ u.f F.HSPI_LAST_words = min (0) 255) ∧
      (s.ready = true → u.f F.HSPI_LAST_reason = s.f F.HSPI_LAST_reason ∧ u.f F.HSPI_COUNT_rejected = s.f F.HSPI_COUNT_rejected) ∧
      OnlyWords [R.HSPI_LAST, R.HSPI_COUNT] s u ∧ Keeps [.frames, .sent] s u) ∧
  -- UNKNOWN_COMMAND is rejected with reason 6.
  (∀ (cmd : Byte) (clocked : Nat) (s : State),
    s.ok = true → s.power.vaon = true → cmd ∉ frameCommands →
    Acts (.unknownCommand cmd clocked) s fun u =>
      Sent (.spi (s.spiStatus :: List.replicate clocked 0)) s u ∧
      u.spiRejected = true ∧
      (s.ready = true → u.f F.HSPI_COUNT_frames = (s.f F.HSPI_COUNT_frames + 1) % 65536 ∧ u.f F.HSPI_LAST_words = min (0) 255) ∧
      (s.ready = true → u.f F.HSPI_LAST_reason = 6 ∧ u.f F.HSPI_COUNT_rejected = min (s.f F.HSPI_COUNT_rejected + 1) 65535) ∧
      OnlyWords [R.HSPI_LAST, R.HSPI_COUNT] s u ∧ Keeps [.frames, .sent] s u)

/-- Reads of the flash window, writes into its page buffer, and what makes the buffer due (R571, R572, R573, R575,
R576). -/
def Obligations.FlashWindow : Prop :=
  -- FLASH_WINDOW_READ returns the bytes of the flash; past its end it is a bus error with the offset; it waits
  -- behind an operation, and for the program of data that is still in the buffer.
  (∀ (addr : BitVec 27) (len : Nat) (ok : Bool) (s : State),
    s.ok = true → s.domOn domMgt = true →
    Acts (.flashWindowRead addr len ok) s fun u =>
      (s.flashSize < addr.toNat + len ∨ ok = false → Raised ⟨0x07, kBusError, 2, 0, addr.toNat⟩ s u ∧ Sent (.gaffer "bus_error") s u ∧ u.fport = s.fport) ∧
      (addr.toNat + len ≤ s.flashSize → ok = true → s.flashFree = true → s.readHeld (addr.toNat, len) = false → Sent (.window addr.toNat (s.flash.readBytes erased addr.toNat len)) s u) ∧
      (addr.toNat + len ≤ s.flashSize → ok = true → s.flashFree = false ∨ s.readHeld (addr.toNat, len) = true → (addr.toNat, len) ∈ u.fport.reads) ∧
      OnlyWords [R.FSPI_STAT] s u ∧ Keeps [.flashPort, .messages, .sent] s u) ∧
  -- FLASH_WINDOW_WRITE without the booking is dropped and logged; with it, the bytes begin a page buffer, or join
  -- it where they follow in its page.
  (∀ (addr : BitVec 27) (bytes : List Byte) (s : State),
    s.ok = true → s.domOn domMgt = true →
    Acts (.flashWindowWrite addr bytes) s fun u =>
      (s.flashBooked = false → Raised ⟨0x07, kAccessDenied, 0, 12, addr.toNat⟩ s u ∧ u.raised R.FSPI_EVENT 3 = true ∧ u.fport = s.fport) ∧
      (s.flashBooked = true → s.fport.bufs = [] → bytes ≠ [] → addr.toNat / s.pageSize = (addr.toNat + bytes.length - 1) / s.pageSize → u.fport.bufs = [(addr.toNat, bytes)] ∧ u.fport.gather = true) ∧
      (∀ b ∈ s.fport.bufs.getLast?.toList, s.flashBooked = true → s.fport.bufs = [b] → s.fport.gather = true → addr.toNat = b.1 + b.2.length → bytes ≠ [] → b.1 / s.pageSize = (addr.toNat + bytes.length - 1) / s.pageSize → u.fport.bufs = [(b.1, b.2 ++ bytes)] ∧ u.fport.gather = true) ∧
      OnlyWords [R.FSPI_STAT, R.FSPI_EVENT] s u ∧ Keeps [.windows, .flashPort, .messages, .sent] s u) ∧
  -- PAGE_PROGRAM and FSPI_FLUSH: the oldest buffer is programmed, write enable first, or is due while an operation
  -- runs.
  (∀ (s : State),
    s.ok = true →
    Acts .pageProgram s fun u =>
      (∀ b ∈ s.fport.bufs.head?.toList, s.fport.op = none → u.fport.op = some ⟨false, b.1, b.2, b.2.length, false⟩ ∧ u.fport.bufs = s.fport.bufs.tail ∧ Sent (.flash "write_enable" 0 0) s u ∧ Sent (.flash "program" b.1 b.2.length) s u) ∧
      (s.fport.bufs ≠ [] → s.fport.op ≠ none → u.fport.bufs = s.fport.bufs ∧ u.fport.op = s.fport.op ∧ u.fport.gather = false) ∧
      OnlyWords [R.FSPI_STAT] s u ∧ Keeps [.flashPort, .sent] s u) ∧
  (∀ (path : Path) (s : State),
    s.ok = true → Granted path (R.FSPI_CTL) s →
    Acts (.fspiFlush path) s fun u =>
      (∀ b ∈ s.fport.bufs.head?.toList, s.fport.op = none → u.fport.op = some ⟨false, b.1, b.2, b.2.length, false⟩ ∧ u.fport.bufs = s.fport.bufs.tail ∧ Sent (.flash "write_enable" 0 0) s u ∧ Sent (.flash "program" b.1 b.2.length) s u) ∧
      (s.fport.bufs ≠ [] → s.fport.op ≠ none → u.fport.bufs = s.fport.bufs ∧ u.fport.op = s.fport.op ∧ u.fport.gather = false) ∧
      OnlyWords [R.FSPI_STAT] s u ∧ Keeps [.flashPort, .messages, .sent] s u)

/-- Programs and erases of the flash: start, suspension, end, failure (R572, R574, R576, R577). -/
def Obligations.FlashOperations : Prop :=
  -- PROGRAM_COMPLETE: a program has cleared bits, an erase has set the range to ones with result 1 and its event;
  -- a failure raises BUS_ERROR with the offset and prog_fail, an erase then has result 2; no other byte of the
  -- flash changes; the reads that waited are answered from the flash as it now stands.
  (∀ (failed : Bool) (s : State),
    s.ok = true →
    Acts (.programComplete failed) s fun u =>
      (s.fport.op = none ∨ s.fport.suspended = true → u = s) ∧
      (∀ o ∈ s.fport.op.toList, s.fport.suspended = false → o.late = false → o.erase = false → (failed = false ∨ s.f F.FSPI_FAIL_CFG_fail_bit = 0xFF) → ∀ i, i < o.bytes.length → u.flash.get erased (o.addr + i) = s.flash.get erased (o.addr + i) &&& o.bytes.getD i 0) ∧
      (∀ o ∈ s.fport.op.toList, s.fport.suspended = false → o.late = false → o.erase = true → (failed = false ∨ s.f F.FSPI_FAIL_CFG_fail_bit = 0xFF) → Erased o.addr o.len u.flash ∧ u.f F.FSPI_ERASE_CTL_result = 1 ∧ u.bit F.FSPI_ERASE_CTL_go = false ∧ u.raised R.FSPI_EVENT 0 = true) ∧
      (∀ o ∈ s.fport.op.toList, s.fport.suspended = false → o.late = false → (failed = true ∧ s.f F.FSPI_FAIL_CFG_fail_bit ≠ 0xFF) → Raised ⟨0x07, kBusError, 2, 0, o.addr⟩ s u ∧ u.raised R.FSPI_EVENT 1 = true ∧ (o.erase = true → u.f F.FSPI_ERASE_CTL_result = 2 ∧ u.bit F.FSPI_ERASE_CTL_go = false)) ∧
      (∀ o ∈ s.fport.op.toList, s.fport.suspended = false → SameOutside erased o.addr (if o.erase = true ∧ (failed = false ∨ s.f F.FSPI_FAIL_CFG_fail_bit = 0xFF) then o.len else max o.len o.bytes.length) s.flash u.flash) ∧
      (∀ o ∈ s.fport.op.toList, s.fport.suspended = false → o.late = true → u.flash = s.flash) ∧
      (∀ o ∈ s.fport.op.toList, s.fport.suspended = false → ∀ r ∈ s.fport.reads, s.readHeld r = false → Sent (.window r.1 (u.flash.readBytes erased r.1 r.2)) s u) ∧
      OnlyWords [R.FSPI_STAT, R.FSPI_ERASE_CTL, R.FSPI_EVENT] s u ∧ Keeps [.windows, .flash, .flashPort, .messages, .sent, .draws] s u) ∧
  -- FLASH_TIMEOUT: BUS_ERROR with the offset and the timeout event, an erase has result 2; the operation still
  -- holds the port.
  (∀ (s : State),
    s.ok = true →
    Acts .flashTimeout s fun u =>
      (s.fport.op = none ∨ s.fport.suspended = true → u = s) ∧
      (∀ o ∈ s.fport.op.toList, s.fport.suspended = false → Raised ⟨0x07, kBusError, 2, 0, o.addr⟩ s u ∧ u.raised R.FSPI_EVENT 2 = true ∧ u.fport.op = some { o with late := true } ∧ SameOutside erased o.addr o.len s.flash u.flash) ∧
      (∀ o ∈ s.fport.op.toList, s.fport.suspended = false → o.late = false → o.erase = true → u.f F.FSPI_ERASE_CTL_result = 2 ∧ u.bit F.FSPI_ERASE_CTL_go = false) ∧
      OnlyWords [R.FSPI_ERASE_CTL, R.FSPI_EVENT] s u ∧ Keeps [.windows, .flash, .flashPort, .messages, .draws] s u) ∧
  -- ERASE is refused without the booking (3), misaligned (4), or on the boot header sector outside FACTORY (5);
  -- else it runs once the port is free.
  (∀ (path : Path) (size : BitVec 2) (s : State),
    s.ok = true → Granted path (R.FSPI_ERASE_CTL) s → s.bit F.FSPI_ERASE_CTL_go = false →
    Acts (.erase path size) s fun u =>
      (s.flashBooked = false → u.f F.FSPI_ERASE_CTL_result = 3 ∧ u.bit F.FSPI_ERASE_CTL_go = false ∧ u.fport = s.fport ∧ u.raised R.FSPI_EVENT 3 = true) ∧
      (s.flashBooked = true → s.f F.FSPI_ERASE_ADDR_addr % (if size.toNat = 1 then 65536 else 4096) ≠ 0 → u.f F.FSPI_ERASE_CTL_result = 4 ∧ u.bit F.FSPI_ERASE_CTL_go = false ∧ u.fport = s.fport) ∧
      (s.flashBooked = true → s.f F.FSPI_ERASE_ADDR_addr % (if size.toNat = 1 then 65536 else 4096) = 0 → s.f F.FSPI_ERASE_ADDR_addr < 4096 → s.otp.lifecycle ≠ 0 → u.f F.FSPI_ERASE_CTL_result = 5 ∧ u.bit F.FSPI_ERASE_CTL_go = false ∧ u.fport = s.fport) ∧
      (s.flashBooked = true → s.f F.FSPI_ERASE_ADDR_addr % (if size.toNat = 1 then 65536 else 4096) = 0 → 4096 ≤ s.f F.FSPI_ERASE_ADDR_addr ∨ s.otp.lifecycle = 0 → u.f F.FSPI_ERASE_CTL_result = 0 ∧ u.bit F.FSPI_ERASE_CTL_go = true ∧ (s.fport.op = none → s.fport.bufs = [] → u.fport.op = some ⟨true, s.f F.FSPI_ERASE_ADDR_addr, [], (if size.toNat = 1 then 65536 else 4096), false⟩ ∧ Sent (.flash "erase" (s.f F.FSPI_ERASE_ADDR_addr) (if size.toNat = 1 then 65536 else 4096)) s u) ∧ (s.fport.op ≠ none → u.fport.eraseWait = some (s.f F.FSPI_ERASE_ADDR_addr, (if size.toNat = 1 then 65536 else 4096)))) ∧
      OnlyWords [R.FSPI_STAT, R.FSPI_ERASE_CTL, R.FSPI_EVENT] s u ∧ Keeps [.windows, .flashPort, .messages, .sent] s u) ∧
  -- ERASE_SUSPEND, where supported and enabled: the erase stands still and the reads that wait are served.
  (∀ (s : State),
    s.ok = true → (s.fport.op.any (fun o => o.erase && !o.late) = true) → s.fport.suspended = false →
    Acts .eraseSuspend s fun u =>
      (s.bit F.FSPI_CFG_suspend_en = true → s.fport.canSuspend = true → u.fport.suspended = true ∧ ∀ r ∈ s.fport.reads, s.readHeld r = false → Sent (.window r.1 (s.flash.readBytes erased r.1 r.2)) s u) ∧
      (s.bit F.FSPI_CFG_suspend_en = false ∨ s.fport.canSuspend = false → u = s) ∧
      OnlyWords [R.FSPI_STAT] s u ∧ Keeps [.flashPort, .sent] s u) ∧
  -- ERASE_RESUME: the erase goes on.
  (∀ (s : State),
    s.ok = true → s.fport.op.isSome = true →
    Acts .eraseResume s fun u =>
      u.fport.suspended = false ∧
      u.fport.op = s.fport.op ∧
      (∀ o ∈ s.fport.op.toList, s.fport.suspended = true → Sent (.flash "resume" o.addr 0) s u) ∧
      OnlyWords [R.FSPI_STAT] s u ∧ Keeps [.flashPort, .sent] s u)

/-- A write of a register: RW fields at once, WS fields in the shadow, always-on writes queued (R42, R46, R50,
R52, R54, R55, R68, R75). -/
def Obligations.RegisterWrites : Prop :=
  -- REGISTER_WRITE of a word that is only stored, in the normal or the shadow view: RW fields take the data, the
  -- shadows of WS fields take it, every other field and word is as before.
  (∀ (path : Path) (addr : BitVec 26) (size : Nat) (data : BitVec 64) (s : State),
    s.ok = true → size = 4 → addr.toNat % 4 = 0 → Granted path addr.toNat s →
    s.breaksRv (pathCode path) addr.toNat (BitVec.ofNat 32 data.toNat) = false → (addr.toNat < 0x160000 ∨ 0x180000 ≤ addr.toNat) →
    s.plain (pathCode path) addr.toNat (BitVec.ofNat 32 data.toNat) = true →
    Acts (.registerWrite path addr size data) s fun u =>
      Written addr.toNat (BitVec.ofNat 32 data.toNat) s u ∧
      OnlyWords [plainOff addr.toNat] s u ∧ Keeps [.shadows] s u) ∧
  -- A word of a common header: CG_SEL is stored where the block has WS fields, nothing else is written.
  (∀ (path : Path) (addr : BitVec 26) (size : Nat) (data : BitVec 64) (s : State),
    s.ok = true → size = 4 → addr.toNat % 4 = 0 → Granted path addr.toNat s →
    s.breaksRv (pathCode path) addr.toNat (BitVec.ofNat 32 data.toNat) = false → tableReg (plainOff addr.toNat) = none →
    Acts (.registerWrite path addr size data) s fun u =>
      (addr.toNat % 0x10000 = 0x7F04 → hasWs addr.toNat = true → u.reg addr.toNat = (BitVec.ofNat 32 data.toNat)) ∧
      (addr.toNat % 0x10000 ≠ 0x7F04 ∨ hasWs addr.toNat = false → u = s) ∧
      OnlyWords [addr.toNat] s u ∧ Keeps [] s u) ∧
  -- A write of the always-on blocks joins the queue; the fifth is dropped and logged.
  (∀ (path : Path) (addr : BitVec 26) (size : Nat) (data : BitVec 64) (s : State),
    s.ok = true → size = 4 → addr.toNat % 4 = 0 → Granted path addr.toNat s →
    s.breaksRv (pathCode path) addr.toNat (BitVec.ofNat 32 data.toNat) = false → 0x160000 ≤ addr.toNat → addr.toNat < 0x180000 →
    Acts (.registerWrite path addr size data) s fun u =>
      (s.acQueue.length < 4 → u.acQueue = s.acQueue ++ [⟨(pathCode path), addr.toNat, (BitVec.ofNat 32 data.toNat)⟩] ∧ u.acCopy = s.acCopy ∧ u.intake = s.intake) ∧
      (s.acQueue.length = 4 → u.acQueue = s.acQueue ∧ Raised ⟨srcOf s addr.toNat, kAccessDenied, 0, (pathCode path) + 8, addr.toNat⟩ s u) ∧
      OnlyWords [] s u ∧ Keeps [.aonQueue, .messages] s u) ∧
  -- A word of a wide value is held until its highest word is written; then the whole value is stored.
  (∀ (path : Path) (addr : BitVec 26) (size : Nat) (data : BitVec 64) (s : State),
    s.ok = true → size = 4 → addr.toNat % 4 = 0 → Granted path addr.toNat s →
    s.breaksRv (pathCode path) addr.toNat (BitVec.ofNat 32 data.toNat) = false → (addr.toNat < 0x160000 ∨ 0x180000 ≤ addr.toNat) →
    ((tableReg (plainOff addr.toNat)).any (fun l => isWide l && (s.closed (pathCode path) addr.toNat l).isNone && !(l.fields.any fun f => decide (f.acc = .sq))) = true) →
    Acts (.registerWrite path addr size data) s fun u =>
      (∀ l ∈ (tableReg (plainOff addr.toNat)).toList, l.word + 1 < l.row.words.length → SMap.get? u.held addr.toNat = some (BitVec.ofNat 32 data.toNat) ∧ ∀ off ∈ [plainOff addr.toNat], u.reg off = s.reg off ∧ u.stagedWord off = s.stagedWord off) ∧
      ((tableReg (plainOff addr.toNat)).all (fun l => l.word + 1 = l.row.words.length) = true → WrittenWide addr.toNat (BitVec.ofNat 32 data.toNat) s u) ∧
      OnlyIn ((List.range ((tableReg (plainOff addr.toNat)).elim 0 fun l => l.word + 1)).map fun i => plainOff addr.toNat - 4 * i) [.TB_STAT, .TB_STEP, .TB_EVENT] s u ∧ Keeps [.wide, .shadows, .windows, .timebase, .power, .messages] s u) ∧
  -- A write that a check of R46 stops changes no register; it is logged as that check gives.
  (∀ (path : Path) (addr : BitVec 26) (size : Nat) (data : BitVec 64) (s : State),
    s.ok = true → size = 4 → addr.toNat % 4 = 0 → s.judge (pathCode path) addr.toNat true ≠ .granted →
    Acts (.registerWrite path addr size data) s fun u =>
      (s.judge (pathCode path) addr.toNat true = .refused → Raised ⟨srcOf s addr.toNat, kAccessDenied, 0, (pathCode path) + 8, addr.toNat⟩ s u) ∧
      (s.judge (pathCode path) addr.toNat true = .off true → Raised ⟨srcOf s addr.toNat, kAccessOff, 0, (pathCode path), addr.toNat⟩ s u) ∧
      (s.judge (pathCode path) addr.toNat true = .silent ∨ s.judge (pathCode path) addr.toNat true = .off false → u = s) ∧
      OnlyWords [] s u ∧ Keeps [.messages] s u) ∧
  -- A narrow or unaligned write is dropped and logged.
  (∀ (path : Path) (addr : BitVec 26) (size : Nat) (data : BitVec 64) (s : State),
    s.ok = true → badAccess (pathCode path) addr.toNat size true = true →
    Acts (.registerWrite path addr size data) s fun u =>
      (s.ready = true → Raised ⟨srcOf s addr.toNat, kAccessDenied, 0, (pathCode path) + 8, addr.toNat⟩ s u) ∧
      (s.ready = false → u = s) ∧
      OnlyWords [] s u ∧ Keeps [.messages] s u)

/-- A read returns the word, its addressed bytes, the off pattern or zero; votes repair or lose a copy (R42, R46,
R49, R70, R71, R74). -/
def Obligations.RegisterReads : Prop :=
  -- REGISTER_READ where no copy has flipped: the addressed bytes of the word, the off pattern or zero, as the
  -- checks of R46 give; a read alone changes no register.
  (∀ (path : Path) (addr : BitVec 26) (size : Nat) (upset : Upset) (upsetHigh : Upset) (s : State),
    s.ok = true → size = 1 ∨ size = 2 ∨ size = 4 → badAccess (pathCode path) addr.toNat size false = false → s.ready = true ∨ path = .keeper →
    (upset = ⟨0, 0, 0⟩ ∧ SMap.get? s.tv (addr.toNat / 4 * 4) = none ∨ ((fieldsAt (addr.toNat / 4 * 4)).any (fun f => f.tv)) = false) →
    Acts (.registerRead path addr size upset upsetHigh) s fun u =>
      (s.judge (pathCode path) (addr.toNat / 4 * 4) false = .granted → Sent (.readData (pathCode path) addr.toNat (BitVec.ofNat 32 ((s.found (pathCode path) (addr.toNat / 4 * 4) : Word).toNat / 256 ^ (addr.toNat % 4) % 256 ^ size))) s u ∧ u.intake = s.intake) ∧
      (s.judge (pathCode path) (addr.toNat / 4 * 4) false = .refused → Sent (.readData (pathCode path) addr.toNat (BitVec.ofNat 32 ((0 : Word).toNat / 256 ^ (addr.toNat % 4) % 256 ^ size))) s u ∧ Raised ⟨srcOf s (addr.toNat / 4 * 4), kAccessDenied, 0, (pathCode path), (addr.toNat / 4 * 4)⟩ s u) ∧
      (s.judge (pathCode path) (addr.toNat / 4 * 4) false = .silent → Sent (.readData (pathCode path) addr.toNat (BitVec.ofNat 32 ((0 : Word).toNat / 256 ^ (addr.toNat % 4) % 256 ^ size))) s u ∧ u.intake = s.intake) ∧
      (s.judge (pathCode path) (addr.toNat / 4 * 4) false = .off true → Sent (.readData (pathCode path) addr.toNat (BitVec.ofNat 32 ((0xD0FFD0FF : Word).toNat / 256 ^ (addr.toNat % 4) % 256 ^ size))) s u ∧ Raised ⟨srcOf s (addr.toNat / 4 * 4), kAccessOff, 0, (pathCode path), (addr.toNat / 4 * 4)⟩ s u) ∧
      (s.judge (pathCode path) (addr.toNat / 4 * 4) false = .off false → Sent (.readData (pathCode path) addr.toNat (BitVec.ofNat 32 ((0xD0FFD0FF : Word).toNat / 256 ^ (addr.toNat % 4) % 256 ^ size))) s u ∧ u.intake = s.intake) ∧
      OnlyWords [] s u ∧ Keeps [.wide, .sent, .messages] s u) ∧
  -- Where one copy has flipped, the read finds the majority value, the copy is rewritten and TMR_DISAGREE is
  -- logged.
  (∀ (path : Path) (addr : BitVec 26) (size : Nat) (upset : Upset) (upsetHigh : Upset) (s : State),
    s.ok = true → size = 4 → addr.toNat % 4 = 0 → s.ready = true ∨ path = .keeper → isShadow addr.toNat = false →
    s.judge (pathCode path) addr.toNat false = .granted → SMap.get? s.tv addr.toNat = none →
    (upset.a = 0 ∧ upset.b = 0 ∨ upset.a = 0 ∧ upset.c = 0 ∨ upset.b = 0 ∧ upset.c = 0) →
    ((fieldsAt addr.toNat).any (fun f => f.tv && (bits upset.a f.hi f.lo != 0 || bits upset.b f.hi f.lo != 0 || bits upset.c f.hi f.lo != 0)) = true) →
    ((tableReg addr.toNat).all (fun l => !isWide l) = true) →
    Acts (.registerRead path addr size upset upsetHigh) s fun u =>
      Raised ⟨srcOf s addr.toNat, kTmrDisagree, 1, 0, addr.toNat⟩ s u ∧
      SMap.get? u.tv addr.toNat = none ∧
      Sent (.readData (pathCode path) addr.toNat (s.wordAt (pathCode path) addr.toNat)) s u ∧
      OnlyWords [] s u ∧ Keeps [.votes, .sent, .messages] s u) ∧
  -- An unaligned read is dropped and logged (what it returns is a free value, log entry 26).
  (∀ (path : Path) (addr : BitVec 26) (size : Nat) (upset : Upset) (upsetHigh : Upset) (s : State),
    s.ok = true → badAccess (pathCode path) addr.toNat size false = true →
    Acts (.registerRead path addr size upset upsetHigh) s fun u =>
      (s.ready = false → u = s) ∧
      (s.ready = true → Raised ⟨srcOf s addr.toNat, kAccessDenied, 0, (pathCode path), addr.toNat⟩ s u ∧ u.free = s.free + 1) ∧
      OnlyWords [] s u ∧ Keeps [.messages, .sent, .draws] s u)

/-- Event clears, always-on landings and scrubber visits (R62, R68, R69, R70, R71). -/
def Obligations.LandingAndVotes : Prop :=
  -- SEQ_WRITE_BACK of the present SEQ clears every event bit whose cause does not stand, and keeps SEQ; any other
  -- value does nothing.
  (∀ (path : Path) (off : BitVec 26) (seq : BitVec 8) (s : State),
    s.ok = true → isSq off.toNat = true → Granted path off.toNat s → (off.toNat < 0x160000 ∨ 0x180000 ≤ off.toNat) →
    Acts (.seqWriteBack path off seq) s fun u =>
      (seq.toNat ≠ bits (s.reg off.toNat) 31 24 → u = s) ∧
      (seq.toNat = bits (s.reg off.toNat) 31 24 → lasting off.toNat s = 0 → u.reg off.toNat = putBits (s.reg off.toNat) 23 0 0) ∧
      (seq.toNat = bits (s.reg off.toNat) 31 24 → ∀ i : Fin 24, u.raised off.toNat i.val = bitOf (lasting off.toNat s) i.val) ∧
      OnlyWords [off.toNat] s u ∧ Keeps [.windows] s u) ∧
  (∀ (path : Path) (off : BitVec 26) (seq : BitVec 8) (s : State),
    s.ok = true → isSq off.toNat = true → Granted path off.toNat s → 0x160000 ≤ off.toNat → off.toNat < 0x180000 →
    Acts (.seqWriteBack path off seq) s fun u =>
      (s.acQueue.length < 4 → u.acQueue = s.acQueue ++ [⟨pathCode path, off.toNat, BitVec.ofNat 32 (seq.toNat * 2 ^ 24)⟩]) ∧
      OnlyWords [] s u ∧ Keeps [.aonQueue, .messages] s u) ∧
  -- AC_WRITE_LAND: the oldest queued write lands and the copies are refreshed.
  (∀ (s : State),
    s.ok = true →
    Acts .acWriteLand s fun u =>
      (s.acQueue = [] ∨ s.clock.slck = false → u = s) ∧
      (∀ q ∈ s.acQueue.head?.toList, s.clock.slck = true → u.acQueue = s.acQueue.tail ∧ u.acCopy = aonWords u.regs) ∧
      (∀ q ∈ s.acQueue.head?.toList, s.clock.slck = true → s.plain q.path q.off q.w = true → Written q.off q.w s u ∧ OnlyWords [plainOff q.off] s u) ∧
      Keeps (safeParts ++ [.votes, .wide, .aonQueue, .mould, .diagnostics, .otp, .commits, .heads, .fills, .flashPort, .clocks, .frames]) s u) ∧
  -- TMR_SCRUB: one copy that disagrees is rewritten with the majority and TMR_DISAGREE logged; three that differ
  -- are TMR_LOST, the field is a free value.
  (∀ (off : BitVec 26) (upset : Upset) (s : State),
    s.ok = true → implemented off.toNat = true → isShadow off.toNat = false → (s.ready = true ∨ 0x160000 ≤ off.toNat ∧ off.toNat < 0x180000) →
    s.blockOn off.toNat = true → SMap.get? s.tv off.toNat = none →
    Acts (.tmrScrub off upset) s fun u =>
      (((fieldsAt off.toNat).any (fun f => f.tv) = false ∨ upset = ⟨0, 0, 0⟩) → u = s) ∧
      ((upset.a = 0 ∧ upset.b = 0 ∨ upset.a = 0 ∧ upset.c = 0 ∨ upset.b = 0 ∧ upset.c = 0) → ((fieldsAt off.toNat).any (fun f => f.tv && (bits upset.a f.hi f.lo != 0 || bits upset.b f.hi f.lo != 0 || bits upset.c f.hi f.lo != 0)) = true) → Raised ⟨srcOf s off.toNat, kTmrDisagree, 1, 0, off.toNat⟩ s u ∧ SMap.get? u.tv off.toNat = none ∧ OnlyWords [] s u ∧ Keeps [.votes, .messages] s u) ∧
      ((∀ f ∈ (fieldsAt off.toNat).filter (fun f : FieldRow => f.tv), bits (s.reg off.toNat ^^^ upset.a) f.hi f.lo ≠ bits (s.reg off.toNat ^^^ upset.b) f.hi f.lo ∧ bits (s.reg off.toNat ^^^ upset.a) f.hi f.lo ≠ bits (s.reg off.toNat ^^^ upset.c) f.hi f.lo ∧ bits (s.reg off.toNat ^^^ upset.b) f.hi f.lo ≠ bits (s.reg off.toNat ^^^ upset.c) f.hi f.lo) → (fieldsAt off.toNat).any (fun f => f.tv) = true → off.toNat / 0x10000 ≠ 0x04 → Raised ⟨srcOf s off.toNat, kTmrLost, 4, 0, off.toNat⟩ s u ∧ s.free < u.free) ∧
      Keeps (safeParts ++ [.votes]) s u)

/-- A commit: every targeted block that can takes its staged values on the edge, the others at their boundary
(R55, R56, R57, R58, R59, R361, R363). -/
def Obligations.Commits : Prop :=
  -- COMMIT: the sequence number and the path; a targeted block that can apply has its staged WS fields active, its
  -- old values in the undo shadow and its BLK_COMMIT; one that cannot keeps them and is pending; a block outside
  -- the targets keeps its staged values. (FUR, whose slots may wait one by one, stands with the slot map.)
  (∀ (path : Path) (mask : Word) (s : State),
    s.ok = true → Granted path (R.GLB_COMMIT) s →
    Acts (.commit path mask) s fun u =>
      (u.f F.GLB_COMMIT_STAT_commit_seq = ((s.f F.GLB_COMMIT_STAT_commit_seq + 1) % 256) ∧ u.f F.GLB_COMMIT_STAT_last_path = (pathCode path)) ∧
      (s.f F.MLD_REMOULD_STAT_state ≠ 2 → ∀ b ∈ s.targets (pathCode path) (effMask (pathCode path) mask.toNat), s.cannotApply b = false → b ≠ blkFur → (∀ e ∈ s.stagedOf b, Nat.land (u.reg e.1).toNat (wsBits e.1) = Nat.land e.2.toNat (wsBits e.1) ∧ SMap.get? u.staged e.1 = none ∧ SMap.get? u.undo e.1 = some (s.reg e.1)) ∧ u.reg (blkCommitOff (blockBase b)) = BitVec.ofNat 32 (((s.f F.GLB_COMMIT_STAT_commit_seq + 1) % 256) * 65536)) ∧
      (s.f F.MLD_REMOULD_STAT_state ≠ 2 → ∀ b ∈ s.targets (pathCode path) (effMask (pathCode path) mask.toNat), s.cannotApply b = true → bitOf (u.reg (blkCommitOff (blockBase b))).toNat 8 = true ∧ SMap.get? u.commit.pend b = some ((s.f F.GLB_COMMIT_STAT_commit_seq + 1) % 256) ∧ ∀ e ∈ s.stagedOf b, SMap.get? u.staged e.1 = some e.2 ∧ Nat.land (u.reg e.1).toNat (wsBits e.1) = Nat.land (s.reg e.1).toNat (wsBits e.1)) ∧
      (s.f F.MLD_REMOULD_STAT_state ≠ 2 → ∀ b ∈ wsBlocks, b ∉ s.targets (pathCode path) (effMask (pathCode path) mask.toNat) → ∀ e ∈ s.stagedOf b, SMap.get? u.staged e.1 = some e.2 ∧ Nat.land (u.reg e.1).toNat (wsBits e.1) = Nat.land (s.reg e.1).toNat (wsBits e.1)) ∧
      (s.f F.MLD_REMOULD_STAT_state ≠ 2 → s.commit.pend = [] → s.commit.rolls = [] → (s.targets (pathCode path) (effMask (pathCode path) mask.toNat)).all (fun b => !s.cannotApply b && b != blkFur) = true → u.raised R.GLB_EVENT 0 = true) ∧
      (s.f F.MLD_REMOULD_STAT_state ≠ 2 → OnlyIn (s.staged.map (·.1) ++ wsBlocks.map (fun b => blkCommitOff (blockBase b))) [.GLB_COMMIT_STAT, .GLB_EVENT, .TB_STAT, .TB_EVENT, .LCH_GCL_STAT, .MLD_ACTIVE_GEN, .MLD_REMOULD_STAT, .MLD_EVENT, .MLD_GOV_CLAMP_COUNT, .FUR_EVENT, .CAL_PORT_STAT, .CAL_PORT_QUAL, .DIAG_SWEEP_CTL, .BND_CFG, .BND_MEMBERS_LO, .BND_MEMBERS_HI, .BND_STAT, .BND_EVENT, .BND_PAIR_CFG, .BND_PAIR_STAT, .CANE_STAT, .CANE_EVENT, .WAKE_PENDING, .WAKE_EVENT, .WAKE_PCOUNT, .PORT_CTL, .PORT_STATE, .PORT_PARTNER_ABIL, .PORT_PARTNER_FLAGS, .PORT_PARTNER_ID, .PORT_LINK_QUAL, .PORT_MSE_REF, .PORT_DROP_COUNT, .PORT_DROP_HIST_IDX, .PORT_DROP_HIST, .PORT_EVENT, .PORT_TAP_STAT, .PORT_X50_STAT, .PORT_AM_STAT, .PORT_LOOP_STAT, .PORT_SEG_STAT, .PORT_LPI_STAT, .PORT_TC10_STAT, .QP_RX_CFG, .QP_RX_MOD, .QP_TX_CFG, .QP_TX_MOD] s u) ∧
      Keeps (linkParts ++ [.shadows, .mould, .diagnostics, .sram, .commits, .draws]) s u) ∧
  -- COMMIT_LATE_APPLY: a pending block that can apply has its staged values active, BLK_COMMIT shows the sequence
  -- number and late, GLB.EVENT has commit_late; a block that nothing waits for does nothing.
  (∀ (block : Fin 88) (s : State),
    s.ok = true → s.bit F.FLT_STAT_safe = false →
    Acts (.commitLateApply block) s fun u =>
      (s.cannotApply block = true → u = s) ∧
      (SMap.get? s.commit.pend block.val = none → SMap.get? s.commit.rolls block.val = none → u = s) ∧
      (∀ n ∈ (SMap.get? s.commit.pend block.val).toList, SMap.get? s.commit.rolls block.val = none → s.cannotApply block = false → block.val ≠ blkFur → ∀ b ∈ [block.val], (∀ e ∈ s.stagedOf b, Nat.land (u.reg e.1).toNat (wsBits e.1) = Nat.land e.2.toNat (wsBits e.1) ∧ SMap.get? u.staged e.1 = none) ∧ u.reg (blkCommitOff (blockBase b)) = BitVec.ofNat 32 (n % 256 * 65536 + 512) ∧ SMap.get? u.commit.pend b = none ∧ u.raised R.GLB_EVENT 1 = true) ∧
      OnlyIn (s.staged.map (·.1) ++ s.undo.map (·.1) ++ [blkCommitOff (blockBase block)]) [.GLB_COMMIT_STAT, .GLB_EVENT, .TB_STAT, .TB_EVENT, .LCH_LG_STAT, .LCH_LG_APPLIED, .LCH_EVENT, .LCH_GCL_STAT, .FUR_EVENT, .CAL_PORT_STAT, .CAL_PORT_QUAL, .BND_STAT, .BND_EVENT, .BND_PAIR_STAT, .CANE_STAT, .CANE_EVENT, .WAKE_PENDING, .PORT_CTL, .PORT_STATE, .PORT_PARTNER_ABIL, .PORT_PARTNER_FLAGS, .PORT_PARTNER_ID, .PORT_LINK_QUAL, .PORT_MSE_REF, .PORT_DROP_COUNT, .PORT_DROP_HIST_IDX, .PORT_DROP_HIST, .PORT_EVENT, .PORT_TAP_STAT, .PORT_X50_STAT, .PORT_AM_STAT, .PORT_LOOP_STAT, .PORT_SEG_STAT, .PORT_LPI_STAT, .PORT_TC10_STAT] s u ∧
      Keeps (linkParts ++ [.shadows, .commits, .draws]) s u)

/-- Full loads: what starts one, and how it ends (R94, R95, R97, R99, R101, R102, R103). -/
def Obligations.MouldLoads : Prop :=
  -- MOULD_LOAD_START while no mould is loaded: the path owns the load; after a load, and kind 3 of the Gaffer, it
  -- is denied; while a load runs it does nothing.
  (∀ (path : Path) (kind : BitVec 2) (s : State),
    s.ok = true → Granted path (R.MLD_LOAD_CTL) s →
    Acts (.mouldLoadStart path kind) s fun u =>
      (s.mouldOk = true ∨ kind.toNat = 3 ∧ 4 ≤ (pathCode path) ∧ s.mld.load = none → Raised ⟨srcOf s R.MLD_LOAD_CTL, kAccessDenied, 0, (pathCode path) + 8, R.MLD_LOAD_CTL⟩ s u ∧ u.mld = s.mld) ∧
      (s.mouldOk = false → s.mld.load.isSome = true → u = s) ∧
      (s.mouldOk = false → s.mld.load = none → kind.toNat ≠ 3 ∨ (pathCode path) < 4 → u.mld.load = some (kind.toNat, s.wide R.MLD_LOAD_SRC 2, (pathCode path)) ∧ u.f F.MLD_STATUS_state = 1 ∧ u.f F.MLD_LOAD_CTL_kind = kind.toNat ∧ u.bit F.MLD_LOAD_CTL_start = true) ∧
      OnlyWords [R.MLD_STATUS, R.MLD_LOAD_CTL] s u ∧ Keeps [.mould, .messages, .sent] s u) ∧
  -- MOULD_LOAD_DONE: an image that fails no check is the mould in force, with its sections, digest and generation;
  -- one that fails leaves the mould in force, logs MOULD_INVALID and shows the check, and the other slot is tried
  -- where one is left.
  (∀ (readOk : Bool) (host : List Byte) (s : State),
    s.ok = true → s.mld.load.isSome = true →
    Acts (.mouldLoadDone readOk host) s fun u =>
      (s.fullFault readOk (s.loadBytes host) = none → u.mouldOk = true ∧ u.mld.active = sectionsOf (s.loadBytes host) ∧ u.mld.digest = Config.sha384 (s.loadBytes host) ∧ u.mld.gen = imgGen (s.loadBytes host) ∧ u.f F.MLD_STATUS_err = 0 ∧ u.mld.load = none ∧ u.bit F.MLD_LOAD_CTL_start = false ∧ u.raised R.MLD_EVENT 0 = true ∧ u.raised R.GLB_EVENT 3 = true) ∧
      (∀ x ∈ s.mld.load.toList, ∀ b ∈ (s.fullFault readOk (s.loadBytes host)).toList, Raised ⟨0x05, 0x19, 2, b.code + 64 * x.1, b.sect * 65536 + b.index⟩ s u) ∧
      (∀ x ∈ s.mld.load.toList, ∀ b ∈ (s.fullFault readOk (s.loadBytes host)).toList, s.mld.reload = false → u.mld.active = s.mld.active ∧ u.mouldOk = s.mouldOk ∧ u.f F.MLD_STATUS_err = b.code % 64 ∧ u.f F.MLD_STATUS_src = x.1 % 8 ∧ u.f F.MLD_ERR_DETAIL_section = b.sect % 65536 ∧ u.f F.MLD_ERR_DETAIL_record = b.index % 65536 ∧ (s.mld.loadLeft = [] → u.f F.MLD_STATUS_state = 4 ∧ u.mld.load = none ∧ u.raised R.MLD_EVENT 0 = true) ∧ (∀ k ∈ s.mld.loadLeft.head?.toList, u.f F.MLD_STATUS_state = 1 ∧ u.mld.load = some (k, 0, 4) ∧ u.mld.loadLeft = s.mld.loadLeft.tail)) ∧
      Keeps (linkParts ++ [.shadows, .votes, .wide, .mould, .flash, .sram, .otp, .power, .draws]) s u)

/-- Partial remoulds: start, check, cancel, expiry (R103, R105, R106, R107, R110). -/
def Obligations.Remoulds : Prop :=
  -- REMOULD_START: BUSY changes only err; a source in the mould banks is REFUSED with code 1; else CHECKING.
  (∀ (path : Path) (kind : BitVec 1) (cg : BitVec 5) (hold : BitVec 8) (s : State),
    s.ok = true → Granted path (R.MLD_REMOULD_CTL) s →
    Acts (.remouldStart path kind cg hold) s fun u =>
      ((s.f F.MLD_REMOULD_STAT_state = 1 ∨ s.f F.MLD_REMOULD_STAT_state = 2 ∨ s.f F.MLD_ADOPT_STAT_state = 2) → u.f F.MLD_REMOULD_STAT_err = 0x1B ∧ u.f F.MLD_REMOULD_STAT_state = s.f F.MLD_REMOULD_STAT_state ∧ Raised ⟨0x05, 0x19, 0, 0x1B, 0 * 65536 + 0⟩ s u ∧ u.raised R.MLD_EVENT 1 = true ∧ u.mld = s.mld) ∧
      (s.f F.MLD_REMOULD_STAT_state ≠ 1 → s.f F.MLD_REMOULD_STAT_state ≠ 2 → s.f F.MLD_ADOPT_STAT_state ≠ 2 → u.f F.MLD_REMOULD_CTL_kind = kind.toNat ∧ u.f F.MLD_REMOULD_CTL_cg = cg.toNat ∧ u.f F.MLD_REMOULD_CTL_hold_ms = hold.toNat) ∧
      (s.f F.MLD_REMOULD_STAT_state ≠ 1 → s.f F.MLD_REMOULD_STAT_state ≠ 2 → s.f F.MLD_ADOPT_STAT_state ≠ 2 → (s.mouldOk = true ∧ kind.toNat = 1 ∧ ((s.wide R.MLD_REMOULD_SRC 2 / 2 ^ 60 % 16) = s.mouldBank ∨ (s.wide R.MLD_REMOULD_SRC 2 / 2 ^ 60 % 16) = s.mouldBank + 1)) → u.f F.MLD_REMOULD_STAT_state = 4 ∧ u.f F.MLD_REMOULD_STAT_err = 1 ∧ Raised ⟨0x05, 0x19, 0, 1, 0 * 65536 + 0⟩ s u ∧ u.raised R.MLD_EVENT 1 = true) ∧
      (s.f F.MLD_REMOULD_STAT_state ≠ 1 → s.f F.MLD_REMOULD_STAT_state ≠ 2 → s.f F.MLD_ADOPT_STAT_state ≠ 2 → ¬ (s.mouldOk = true ∧ kind.toNat = 1 ∧ ((s.wide R.MLD_REMOULD_SRC 2 / 2 ^ 60 % 16) = s.mouldBank ∨ (s.wide R.MLD_REMOULD_SRC 2 / 2 ^ 60 % 16) = s.mouldBank + 1)) → u.f F.MLD_REMOULD_STAT_state = 1 ∧ u.f F.MLD_REMOULD_STAT_err = 0 ∧ u.mld.partialSrc = (kind.toNat, s.wide R.MLD_REMOULD_SRC 2)) ∧
      OnlyWords [R.MLD_ERR_DETAIL, R.MLD_REMOULD_CTL, R.MLD_REMOULD_STAT, R.MLD_EVENT] s u ∧ Keeps [.windows, .mould, .messages] s u) ∧
  -- REMOULD_CHECK_DONE: STAGED with the image held and the ports whose record changes held in SLEEP, or REFUSED
  -- with the first check that fails, a base or generation that does not fit with 0x17 before any check of the
  -- mould that would result; the mould in force is as before.
  (∀ (readOk : Bool) (s : State),
    s.ok = true → s.f F.MLD_REMOULD_STAT_state = 1 →
    Acts (.remouldCheckDone readOk) s fun u =>
      u.mld.active = s.mld.active ∧
      (s.partialFault readOk s.partialBytes = none → u.f F.MLD_REMOULD_STAT_state = 2 ∧ u.mld.partialImage = sectionsOf s.partialBytes ∧ u.mld.partialGen = imgGen s.partialBytes ∧ ∀ p ∈ u.remouldPorts, u.heldByRemould p = true) ∧
      (readOk = true → (match checkImage true (s.f F.GLB_STRAPS_headcfg) s.mld.active s.otp.keys s.partialBytes with | .ok _ => imgBase s.partialBytes != s.mld.digest || decide (imgGen s.partialBytes ≤ s.f F.MLD_ACTIVE_GEN_partial_gen) | .error _ => false) = true → u.f F.MLD_REMOULD_STAT_state = 4 ∧ u.f F.MLD_REMOULD_STAT_err = 0x17) ∧
      (∀ b ∈ (s.partialFault readOk s.partialBytes).toList, u.f F.MLD_REMOULD_STAT_state = 4 ∧ u.f F.MLD_REMOULD_STAT_err = b.code % 64 ∧ u.f F.MLD_ERR_DETAIL_section = b.sect % 65536 ∧ u.f F.MLD_ERR_DETAIL_record = b.index % 65536 ∧ Raised ⟨0x05, 0x19, 0, b.code, b.sect * 65536 + b.index⟩ s u ∧ u.raised R.MLD_EVENT 1 = true ∧ u.mld = s.mld) ∧
      OnlyWords [R.MLD_ERR_DETAIL, R.MLD_REMOULD_STAT, R.MLD_EVENT] s u ∧ Keeps [.windows, .mould, .messages] s u) ∧
  -- REMOULD_EXPIRE of a staged remould: nothing applies, the state is EXPIRED, no port is held for it; in any
  -- other state it does nothing.
  (∀ (s : State),
    s.ok = true →
    Acts .remouldExpire s fun u =>
      (s.f F.MLD_REMOULD_STAT_state ≠ 2 → u = s) ∧
      (s.f F.MLD_REMOULD_STAT_state = 2 → u.f F.MLD_REMOULD_STAT_state = 6 ∧ u.mld.partialImage = [] ∧ u.mld.active = s.mld.active ∧ u.raised R.MLD_EVENT 3 = true ∧ ∀ p : Port, u.heldByRemould p = false) ∧
      Frame [.TB_STAT, .TB_EVENT, .MLD_REMOULD_STAT, .MLD_EVENT, .MLD_GOV_CLAMP_COUNT, .CAL_PORT_STAT, .CAL_PORT_QUAL, .BND_STAT, .BND_EVENT, .BND_PAIR_STAT, .CANE_STAT, .CANE_EVENT, .WAKE_PENDING, .WAKE_EVENT, .WAKE_PCOUNT, .PORT_CTL, .PORT_STATE, .PORT_PARTNER_ABIL, .PORT_PARTNER_FLAGS, .PORT_PARTNER_ID, .PORT_LINK_QUAL, .PORT_MSE_REF, .PORT_DROP_COUNT, .PORT_DROP_HIST_IDX, .PORT_DROP_HIST, .PORT_EVENT, .PORT_X50_STAT, .PORT_AM_STAT, .PORT_LOOP_STAT, .PORT_SEG_STAT, .PORT_LPI_STAT, .PORT_TC10_STAT] (linkParts ++ [.mould, .draws]) s u) ∧
  -- The same of REMOULD_CANCEL, with the state CANCELLED.
  (∀ (path : Path) (s : State),
    s.ok = true → Granted path (R.MLD_REMOULD_CTL) s →
    Acts (.remouldCancel path) s fun u =>
      (s.f F.MLD_REMOULD_STAT_state ≠ 2 → u = s) ∧
      (s.f F.MLD_REMOULD_STAT_state = 2 → u.f F.MLD_REMOULD_STAT_state = 5 ∧ u.mld.partialImage = [] ∧ u.mld.active = s.mld.active ∧ u.raised R.MLD_EVENT 3 = true ∧ ∀ p : Port, u.heldByRemould p = false) ∧
      Frame [.TB_STAT, .TB_EVENT, .MLD_REMOULD_STAT, .MLD_EVENT, .MLD_GOV_CLAMP_COUNT, .CAL_PORT_STAT, .CAL_PORT_QUAL, .BND_STAT, .BND_EVENT, .BND_PAIR_STAT, .CANE_STAT, .CANE_EVENT, .WAKE_PENDING, .WAKE_EVENT, .WAKE_PCOUNT, .PORT_CTL, .PORT_STATE, .PORT_PARTNER_ABIL, .PORT_PARTNER_FLAGS, .PORT_PARTNER_ID, .PORT_LINK_QUAL, .PORT_MSE_REF, .PORT_DROP_COUNT, .PORT_DROP_HIST_IDX, .PORT_DROP_HIST, .PORT_EVENT, .PORT_X50_STAT, .PORT_AM_STAT, .PORT_LOOP_STAT, .PORT_SEG_STAT, .PORT_LPI_STAT, .PORT_TC10_STAT] (linkParts ++ [.mould, .draws]) s u)

/-- Adoption of a head layout, key programming, the lifecycle fuse (R92, R101, R113, R613). -/
def Obligations.AdoptionsKeysLifecycle : Prop :=
  -- ADOPT_START: CHECKING; no effect while one is CHECKING or PENDING (log entry 22).
  (∀ (path : Path) (slot : BitVec 1) (s : State),
    s.ok = true → Granted path (R.MLD_ADOPT_CTL) s →
    Acts (.adoptStart path slot) s fun u =>
      (s.f F.MLD_ADOPT_STAT_state = 1 ∨ s.f F.MLD_ADOPT_STAT_state = 2 → u = s) ∧
      (s.f F.MLD_ADOPT_STAT_state ≠ 1 → s.f F.MLD_ADOPT_STAT_state ≠ 2 → u.f F.MLD_ADOPT_STAT_state = 1 ∧ u.f F.MLD_ADOPT_STAT_err = 0 ∧ u.f F.MLD_ADOPT_CTL_slot = slot.toNat ∧ u.mld.adoptSlot = slot.toNat) ∧
      OnlyWords [R.MLD_ADOPT_CTL, R.MLD_ADOPT_STAT] s u ∧ Keeps [.mould, .messages] s u) ∧
  -- ADOPT_CHECK_DONE: refused with the first check that fails, COLD_NEEDED, NO_CHANGE, or PENDING with the heads
  -- whose records differ.
  (∀ (readOk : Bool) (s : State),
    s.ok = true → s.f F.MLD_ADOPT_STAT_state = 1 →
    Acts (.adoptCheckDone readOk) s fun u =>
      u.mld.active = s.mld.active ∧
      (∀ b ∈ (s.fullFault readOk (s.flashImage (slotBase s.mld.adoptSlot))).toList, u.f F.MLD_ADOPT_STAT_state = 4 ∧ u.f F.MLD_ADOPT_STAT_err = b.code % 64 ∧ u.f F.MLD_ERR_DETAIL_section = b.sect % 65536 ∧ u.f F.MLD_ERR_DETAIL_record = b.index % 65536 ∧ Raised ⟨0x05, 0x19, 0, b.code, b.sect * 65536 + b.index⟩ s u ∧ u.raised R.MLD_EVENT 1 = true ∧ u.mld = s.mld) ∧
      (s.fullFault readOk (s.flashImage (slotBase s.mld.adoptSlot)) = none → restDiffers s.mld.full (sectionsOf (s.flashImage (slotBase s.mld.adoptSlot))) = true ∨ ¬ ((imgFlags (s.flashImage (slotBase s.mld.adoptSlot)), imgMinRev (s.flashImage (slotBase s.mld.adoptSlot))) = s.mld.fullKey) → u.f F.MLD_ADOPT_STAT_state = 5 ∧ u.mld = s.mld) ∧
      (s.fullFault readOk (s.flashImage (slotBase s.mld.adoptSlot)) = none → restDiffers s.mld.full (sectionsOf (s.flashImage (slotBase s.mld.adoptSlot))) = false → ((imgFlags (s.flashImage (slotBase s.mld.adoptSlot)), imgMinRev (s.flashImage (slotBase s.mld.adoptSlot))) = s.mld.fullKey) → headsDiffer s.mld.full (sectionsOf (s.flashImage (slotBase s.mld.adoptSlot))) = 0 → u.f F.MLD_ADOPT_STAT_state = 6 ∧ u.mld = s.mld) ∧
      (s.fullFault readOk (s.flashImage (slotBase s.mld.adoptSlot)) = none → restDiffers s.mld.full (sectionsOf (s.flashImage (slotBase s.mld.adoptSlot))) = false → ((imgFlags (s.flashImage (slotBase s.mld.adoptSlot)), imgMinRev (s.flashImage (slotBase s.mld.adoptSlot))) = s.mld.fullKey) → headsDiffer s.mld.full (sectionsOf (s.flashImage (slotBase s.mld.adoptSlot))) ≠ 0 → u.f F.MLD_ADOPT_STAT_state = 2 ∧ u.f F.MLD_ADOPT_STAT_heads_left = headsDiffer s.mld.full (sectionsOf (s.flashImage (slotBase s.mld.adoptSlot))) ∧ u.mld.adoptImage = sectionsOf (s.flashImage (slotBase s.mld.adoptSlot))) ∧
      OnlyWords [R.MLD_ERR_DETAIL, R.MLD_ADOPT_STAT, R.MLD_EVENT] s u ∧ Keeps [.windows, .mould, .messages] s u) ∧
  -- KEY_PROG_START: denied outside FACTORY; refused for a slot that is programmed; else the fuse starts.
  (∀ (path : Path) (slot : BitVec 2) (s : State),
    s.ok = true → Granted path (R.MLD_KEY_PROG_CTL) s →
    Acts (.keyProgStart path slot) s fun u =>
      (s.otp.lifecycle ≠ 0 → Raised ⟨srcOf s R.MLD_KEY_PROG_CTL, kAccessDenied, 0, (pathCode path) + 8, R.MLD_KEY_PROG_CTL⟩ s u ∧ u.reg R.MLD_KEY_PROG_CTL = s.reg R.MLD_KEY_PROG_CTL) ∧
      (s.otp.lifecycle = 0 → s.bit F.MLD_KEY_PROG_CTL_start = true → u = s) ∧
      (s.otp.lifecycle = 0 → s.bit F.MLD_KEY_PROG_CTL_start = false → u.f F.MLD_KEY_PROG_CTL_slot = slot.toNat ∧ (((s.otp.keys[slot.toNat]?).any (fun k => k.programmed) = true) → u.f F.MLD_KEY_PROG_CTL_result = 2 ∧ u.bit F.MLD_KEY_PROG_CTL_start = false) ∧ (¬ ((s.otp.keys[slot.toNat]?).any (fun k => k.programmed) = true) → u.f F.MLD_KEY_PROG_CTL_result = 0 ∧ u.bit F.MLD_KEY_PROG_CTL_start = true)) ∧
      OnlyWords [R.MLD_KEY_PROG_CTL] s u ∧ Keeps [.messages] s u) ∧
  -- KEY_PROG_DONE: the slot is programmed with the digest, once; a verify failure shows result 3.
  (∀ (verified : Bool) (s : State),
    s.ok = true →
    Acts (.keyProgDone verified) s fun u =>
      (s.bit F.MLD_KEY_PROG_CTL_start = false → u = s) ∧
      (s.bit F.MLD_KEY_PROG_CTL_start = true → u.bit F.MLD_KEY_PROG_CTL_start = false) ∧
      (s.bit F.MLD_KEY_PROG_CTL_start = true → verified = false → u.f F.MLD_KEY_PROG_CTL_result = 3 ∧ u.otp = s.otp) ∧
      (s.bit F.MLD_KEY_PROG_CTL_start = true → verified = true → u.f F.MLD_KEY_PROG_CTL_result = 1 ∧ u.otp.chain = s.otp.chain ∧ u.otp.lifecycle = s.otp.lifecycle ∧ u.otp.keys.length = s.otp.keys.length ∧ u.f F.MLD_KEYS_programmed = maskOf (u.otp.keys.map (fun k => k.programmed)) % 16) ∧
      (s.bit F.MLD_KEY_PROG_CTL_start = true → verified = true → ∀ i : Fin 4, u.otp.keys[i.val]? = (s.otp.keys[i.val]?).map fun k => if i.val = s.f F.MLD_KEY_PROG_CTL_slot ∧ k.programmed = false then { k with programmed := true, digest := leBytes 48 (s.wide R.MLD_KEY_PROG_DATA 12) } else k) ∧
      OnlyWords [R.MLD_KEYS, R.MLD_KEY_PROG_CTL] s u ∧ Keeps [.otp] s u) ∧
  -- LIFECYCLE_ADVANCE: without the key it does nothing; FACTORY to FIELD (a key, a chain, test mode never seen)
  -- and FIELD to RETURN show at once; any other step is refused and logged.
  (∀ (path : Path) (key : BitVec 16) (target : BitVec 2) (s : State),
    s.ok = true → Granted path (R.GLB_LIFECYCLE_CTL) s → s.bit F.GLB_LIFECYCLE_CTL_go = false →
    Acts (.lifecycleAdvance path key target) s fun u =>
      (key.toNat ≠ 0x5A3C → u = s) ∧
      (key.toNat = 0x5A3C → (s.otp.lifecycle = 0 ∧ target.toNat = 1 ∧ s.otp.keys.any (fun k => k.programmed) = true ∧ s.otp.chain.isEmpty = false ∧ s.bit F.GLB_LIFECYCLE_test_mode_seen = false ∨ s.otp.lifecycle = 1 ∧ target.toNat = 2) → u.otp.lifecycle = target.toNat ∧ u.otp.keys = s.otp.keys ∧ u.f F.GLB_LIFECYCLE_state = target.toNat ∧ u.bit F.GLB_LIFECYCLE_CTL_go = true ∧ u.f F.GLB_LIFECYCLE_CTL_result = 0) ∧
      (key.toNat = 0x5A3C → ¬ (s.otp.lifecycle = 0 ∧ target.toNat = 1 ∧ s.otp.keys.any (fun k => k.programmed) = true ∧ s.otp.chain.isEmpty = false ∧ s.bit F.GLB_LIFECYCLE_test_mode_seen = false ∨ s.otp.lifecycle = 1 ∧ target.toNat = 2) → u.otp = s.otp ∧ u.f F.GLB_LIFECYCLE_CTL_result = 2 ∧ u.bit F.GLB_LIFECYCLE_CTL_go = false ∧ Raised ⟨srcOf s R.GLB_LIFECYCLE_CTL, kAccessDenied, 0, (pathCode path) + 8, R.GLB_LIFECYCLE_CTL⟩ s u) ∧
      OnlyWords [R.GLB_LIFECYCLE, R.GLB_LIFECYCLE_CTL] s u ∧ Keeps [.otp, .messages] s u) ∧
  -- LIFECYCLE_FUSE_DONE: the result of the fuse.
  (∀ (verified : Bool) (s : State),
    s.ok = true →
    Acts (.lifecycleFuseDone verified) s fun u =>
      (s.bit F.GLB_LIFECYCLE_CTL_go = false → u = s) ∧
      (s.bit F.GLB_LIFECYCLE_CTL_go = true → u.bit F.GLB_LIFECYCLE_CTL_go = false ∧ u.f F.GLB_LIFECYCLE_CTL_result = if verified = true then 1 else 3) ∧
      OnlyWords [R.GLB_LIFECYCLE_CTL] s u ∧ Keeps [] s u)

/-- A step runs the front command with the rest; with none waiting a nanosecond passes; commands complete in every
state (spec/00_scope.md). -/
def Obligations.StepRunsFront : Prop :=
  (∀ (c : Instr) (l : List Instr) (s : State), step { s with pending := c :: l } = exec c { s with pending := l }) ∧
  (∀ s : State, s.pending = [] → ∃ t, step s = .next t ∧ t.pending = [] ∧ t.now = s.now + 1) ∧
  (∀ (c : Instr) (s : State), (match c with | .registerWrite .. | .write .. | .writeCrc .. => False | _ => True) →
    ∃ t, exec c s = .next t ∧ t.pending = s.pending ∧ t.now = s.now)

/-- The state after reset: the invariant, the queue, and values that the spec gives (R1, R36). -/
def Obligations.ResetState : Prop :=
  State.reset.ok = true ∧ State.reset.pending = [] ∧
  State.reset.reg R.GLB_ID = 0x645000B0 ∧ State.reset.f F.AON_MODE_mode = 0 ∧
  (∀ p : Port, State.reset.pst p = stDisabled) ∧ State.reset.ledger.books = [] ∧ State.reset.acQueue = []

/-- Every step keeps the invariant of the block (R285, R286, R288, R68, spec/02_registers.md). -/
def Obligations.StepKeepsOk : Prop :=
  ∀ s t : State, s.ok = true → step s = .next t → t.ok = true

/-- No step takes back a fuse: the lifecycle goes forward only, keys stay programmed and revoked (R92, R94, R613). -/
def Obligations.FusesArePermanent : Prop :=
  ∀ s t : State, step s = .next t →
    s.otp.lifecycle ≤ t.otp.lifecycle ∧ t.otp.keys.length = s.otp.keys.length ∧
    ∀ (i : Nat) (k : KeySlot), s.otp.keys[i]? = some k → ∃ k', t.otp.keys[i]? = some k' ∧
      (k.revoked = true → k'.revoked = true) ∧ (k.programmed = true → k'.programmed = true ∧ k'.digest = k.digest)

/-- GLB.ID reads 0x6450_00B0: no step changes it, and every granted read returns it (R1). -/
def Obligations.DeviceIdentity : Prop :=
  (∀ s t : State, s.reg R.GLB_ID = 0x645000B0 → step s = .next t → t.reg R.GLB_ID = 0x645000B0) ∧
  State.reset.reg R.GLB_ID = 0x645000B0 ∧
  (∀ (path : Path) (s : State), s.reg R.GLB_ID = 0x645000B0 → s.judge (pathCode path) R.GLB_ID false = .granted →
    Acts (.registerRead path (BitVec.ofNat 26 R.GLB_ID) 4 ⟨0, 0, 0⟩ ⟨0, 0, 0⟩) s fun u =>
      Sent (.readData (pathCode path) R.GLB_ID 0x645000B0) s u) ∧
  bits (0x645000B0 : Word) 31 16 = 0x6450 ∧ bits (0x645000B0 : Word) 15 0 = 0x00B0

/-- A 64-bit access of a head is two 32-bit accesses, low word first; a wide value reads consistently (R76). -/
def Obligations.SplitAccesses : Prop :=
  (∀ (h : Head) (a : BitVec 26) (x y z : Upset) (s : State), a.toNat % 8 = 0 →
    exec (.registerRead (.head h) a 8 x y) s =
      match exec (.registerRead (.head h) a 4 x z) s with
      | .next t => exec (.registerRead (.head h) (a + 4) 4 y z) t
      | o => o) ∧
  (∀ (h : Head) (a : BitVec 26) (d : BitVec 64) (s : State), a.toNat % 8 = 0 →
    exec (.registerWrite (.head h) a 8 d) s =
      match exec (.registerWrite (.head h) a 4 (BitVec.ofNat 64 (d.toNat % 2 ^ 32))) s with
      | .next t => exec (.registerWrite (.head h) (a + 4) 4 (BitVec.ofNat 64 (d.toNat / 2 ^ 32))) t
      | o => o) ∧
  (∀ (h : Head) (a : BitVec 26) (s : State) (l : Loc), s.ready = true → a.toNat % 8 = 0 → tableReg (plainOff a.toNat) = some l →
    isWide l = true → l.word = 0 → s.judge h a.toNat false = .granted → SMap.get? s.tv a.toNat = none →
    Acts (.registerRead (.head h) a 4 ⟨0, 0, 0⟩ ⟨0, 0, 0⟩) s fun u =>
      ∀ i, 0 < i → i < l.row.words.length → u.snaps.getD (snapKey h (a.toNat + 4 * i)) 0 = s.wordAt h (a.toNat + 4 * i)) ∧
  (∀ (h : Head) (a : BitVec 26) (s : State) (l : Loc), s.ready = true → a.toNat % 4 = 0 → tableReg (plainOff a.toNat) = some l →
    isWide l = true → l.word ≠ 0 → s.judge h a.toNat false = .granted → SMap.get? s.tv a.toNat = none →
    Acts (.registerRead (.head h) a 4 ⟨0, 0, 0⟩ ⟨0, 0, 0⟩) s fun u =>
      Sent (.readData h a.toNat (s.snaps.getD (snapKey h a.toNat) 0)) s u)

/-- A read of a page in the buffer or being programmed waits, and returns the programmed data (R573). -/
def Obligations.BufferedPageReads : Prop :=
  (∀ (a : BitVec 27) (n : Nat) (s : State), s.domOn domMgt = true → a.toNat + n ≤ s.flashSize →
    s.readHeld (a.toNat, n) = true ∨ (∃ o, s.fport.op = some o ∧ o.erase = false ∧ s.fport.suspended = false) →
    Acts (.flashWindowRead a n true) s fun u =>
      u.fport.reads.count (a.toNat, n) = s.fport.reads.count (a.toNat, n) + 1 ∧ u.flash = s.flash) ∧
  (∀ (s : State) (o : FlashOp), s.fport.op = some o → o.erase = false → o.late = false → s.fport.suspended = false →
    Acts (.programComplete false) s fun u =>
      (∀ i, i < o.bytes.length → u.flash.get erased (o.addr + i) = s.flash.get erased (o.addr + i) &&& o.bytes.getD i 0) ∧
      ∀ r ∈ s.fport.reads, s.readHeld r = false → Sent (.window r.1 (u.flash.readBytes erased r.1 r.2)) s u)

/-- What the collector writes for a message, and what the end of every command leaves alone (R524, R541). -/
def Obligations.CollectorLogs : Prop :=
  (∀ (m : Msg) (s : State),
    let u := run (logMsg m) s
    let next := s.f F.FLT_LOG_STAT_next
    let last := (next + 511) % 512
    let repeats := m.cls ≤ 1 ∧ (s.reg (R.FLT_LOG last)).toNat = m.word0 % 2 ^ 32 ∧ (s.reg (R.FLT_LOG last + 4)).toNat = m.w1 % 2 ^ 32 ∧
      s.fault.newest.any (fun t => decide (s.now ≤ t + 1000000)) = true
    u.f F.FLT_STAT_total = min (s.f F.FLT_STAT_total + 1) (2 ^ 16 - 1) ∧
    (repeats → u.f (F.FLT_LOG_repeats last) = min (s.f (F.FLT_LOG_repeats last) + 1) (2 ^ 16 - 1) ∧ u.f F.FLT_LOG_STAT_next = next) ∧
    (¬ repeats → (u.reg (R.FLT_LOG next)).toNat = m.word0 % 2 ^ 32 ∧ (u.reg (R.FLT_LOG next + 4)).toNat = m.w1 % 2 ^ 32 ∧
      u.bit (F.FLT_LOG_valid next) = true ∧ u.f F.FLT_LOG_STAT_next = (next + 1) % 512 ∧
      (s.bit (F.FLT_LOG_valid next) = true → u.bit F.FLT_LOG_STAT_wrapped = true) ∧
      (2 ≤ m.cls → s.reg R.FLT_FIRST = 0 → (u.reg R.FLT_FIRST).toNat = m.word0 % 2 ^ 32 ∧ (u.reg (R.FLT_FIRST + 4)).toNat = m.w1 % 2 ^ 32)) ∧
    (m.cls < 2 ∨ s.reg R.FLT_FIRST ≠ 0 → u.reg R.FLT_FIRST = s.reg R.FLT_FIRST) ∧
    Frame [.FLT_STAT, .FLT_LOG_STAT, .FLT_FIRST, .FLT_EVENT, .FLT_LOG] [.windows, .collector] s u) ∧
  (∀ s : State, Keeps [.shadows, .votes, .wide, .windows, .ports, .canes, .bundles, .furnace, .ledger, .mould, .timebase, .calibration,
    .diagnostics, .flash, .sram, .cellar, .heads, .rings, .channels, .fills, .flashPort, .power, .collector, .frames, .messages, .sent, .draws]
    s (aftermath s))

/-- A reserved field stops the write; a control register's write is its command; a frame's words are writes of
their own (R42, R53, R56, R62, R563). -/
def Obligations.WritesAgree : Prop :=
  (∀ (path : Path) (a : BitVec 26) (d : BitVec 64) (s : State), a.toNat % 4 = 0 → s.breaksRv (pathCode path) a.toNat (BitVec.ofNat 32 d.toNat) = true →
    exec (.registerWrite path a 4 d) s = .fault (.reservedField a.toNat)) ∧
  (∀ (path : Path) (w : Word) (s : State), s.breaksRv (pathCode path) R.GLB_COMMIT w = false →
    exec (.registerWrite path (BitVec.ofNat 26 R.GLB_COMMIT) 4 (BitVec.ofNat 64 w.toNat)) s = exec (.commit path w) s) ∧
  (∀ (path : Path) (off : BitVec 26) (w : Word) (s : State), off.toNat % 4 = 0 → isSq off.toNat = true → (off.toNat < 0x160000 ∨ 0x180000 ≤ off.toNat) →
    exec (.registerWrite path off 4 (BitVec.ofNat 64 w.toNat)) s = exec (.seqWriteBack path off (BitVec.ofNat 8 (bits w 31 24))) s) ∧
  (∀ (bytes : List Byte) (midByte : Bool) (s : State), s.power.vaon = true → s.writeFaults 0x02 false bytes midByte = [] →
    exec (.write bytes midByte) s = writeAll (beNat (bytes.take 3)) (frameWords (bytes.drop 3)) (s.received 0x02 false bytes midByte)) ∧
  (∀ (bytes : List Byte) (midByte : Bool) (s : State), s.power.vaon = true → s.writeFaults 0x82 true bytes midByte = [] →
    exec (.writeCrc bytes midByte) s = writeAll (beNat (bytes.take 3)) (frameWords (bytes.drop 3).dropLast) (s.received 0x82 true bytes midByte)) ∧
  (∀ (a : Nat) (w : Word) (l : List Word) (s : State), a < 2 ^ 24 →
    writeAll a (w :: l) s = match exec (.registerWrite .keeper (BitVec.ofNat 26 (4 * a)) 4 (BitVec.ofNat 64 w.toNat)) s with
      | .next t => writeAll (a + 1) l t
      | o => o)
end

