-- ==== Sys2Proof/Laws/Rows.lean ====
section
/-!
SUPPORT. Which registers an offset is one of: a set of registers is a mask, with one bit for each table.
-/
set_option Elab.async false
namespace Sys2Proof.Machine

/-- Every bit of a mask is one of another. -/
def within (a k : Nat) : Bool := Nat.land a k == a

theorem testBit_within {k m i : Nat} (hk : within k m = true) (h : k.testBit i = true) : m.testBit i = true := by
  have e : k &&& m = k := beq_iff_eq.1 hk
  have : (k &&& m).testBit i = true := by rw [e]; exact h
  rw [Nat.testBit_and, Bool.and_eq_true] at this
  exact this.2

/-- A bit of a numeral, as the kernel computes it. -/
theorem tb {K n : Nat} (h : Nat.beq (Nat.land (Nat.shiftRight K n) 1) 1 = true) : K.testBit n = true := by
  have e : (K >>> n) &&& 1 = 1 := Nat.eq_of_beq_eq_true h
  rw [Nat.testBit, Nat.and_comm, e]; rfl

/-- An offset is that of a BLK header word (R45). -/
def inHeader (off : Nat) : Prop := 0x7F00 ≤ off % 0x10000 ∧ off % 0x10000 < 0x7F10

/-- A mask admits a write at an offset: bit 64 + k admits table k, bit 62 the block headers, bit 63 everything; an offset
outside the space is no register. -/
def lies (off K : Nat) : Prop :=
  outside ≤ off ∨ K.testBit 63 = true ∨ (K.testBit 62 = true ∧ inHeader off) ∨
    ∃ k r, K.testBit (64 + k) = true ∧ allRows[k]? = some r ∧ r.has off = true

theorem lies_mono {off k m : Nat} (hk : within k m = true) (h : lies off k) : lies off m := by
  rcases h with h | h | ⟨h, h'⟩ | ⟨n, r, h, h'⟩
  · exact .inl h
  · exact .inr (.inl (testBit_within hk h))
  · exact .inr (.inr (.inl ⟨testBit_within hk h, h'⟩))
  · exact .inr (.inr (.inr ⟨n, r, testBit_within hk h, h'⟩))

theorem lies_any {off K : Nat} (h : K.testBit 63 = true) : lies off K := .inr (.inl h)

theorem lies_outside {K w : Nat} : lies (outside + w) K := .inl (Nat.le_add_right _ _)

theorem lies_outside0 {K : Nat} : lies outside K := .inl (le_refl _)

theorem locate_nil {words w : Nat} (h4 : w % 4 = 0) (hw : w < 4 * words) : (locate [] words w).isSome = true := by
  have : w / 4 < words := by omega
  simp [locate, h4, this]

theorem locate_cons {st n words d x : Nat} {t : List (Nat × Nat)} (hx : x < n) (hd : d < st) (h : (locate t words d).isSome = true) :
    (locate ((st, n) :: t) words (x * st + d)).isSome = true := by
  have hs : 0 < st := by omega
  have e1 : (x * st + d) / st = x := by
    rw [Nat.mul_comm, Nat.mul_add_div hs, Nat.div_eq_of_lt hd, Nat.add_zero]
  have e2 : (x * st + d) % st = d := by
    rw [Nat.mul_comm, Nat.mul_add_mod, Nat.mod_eq_of_lt hd]
  unfold locate
  rw [e1, e2, if_pos hx]
  simpa using h

/-- The shape of a table: its first offset, its strides and counts, its words. -/
def RegRow.shape (r : RegRow) : Nat × List (Nat × Nat) × Nat := (r.base, r.dims, r.words.length)

theorem has_of_shape {r : RegRow} {base words d : Nat} {dims : List (Nat × Nat)} (hr : r.shape = (base, dims, words))
    (h : (locate dims words d).isSome = true) : r.has (base + d) = true := by
  unfold RegRow.shape at hr
  simp only [Prod.mk.injEq] at hr
  obtain ⟨hb, hd, hw⟩ := hr
  simp [RegRow.has, hb, hd, hw, h]

theorem lies_row {K k off : Nat} {s : Nat × List (Nat × Nat) × Nat} (hrow : allRows[k]?.map RegRow.shape = some s) (hk : K.testBit (64 + k) = true)
    (h : ∀ r : RegRow, r.shape = s → r.has off = true) : lies off K := by
  rcases hr : allRows[k]? with _ | r
  · rw [hr] at hrow; cases hrow
  · rw [hr] at hrow
    exact .inr (.inr (.inr ⟨k, r, hk, hr, h r (Option.some.inj hrow)⟩))

theorem lies_one {K k base words w : Nat} (hrow : allRows[k]?.map RegRow.shape = some (base, [], words)) (hk : K.testBit (64 + k) = true)
    (h4 : w % 4 = 0) (hw : w < 4 * words) : lies (base + w) K :=
  lies_row hrow hk fun _ hr => has_of_shape hr (locate_nil h4 hw)

theorem lies_at1 {K k base st n words i w : Nat} (hrow : allRows[k]?.map RegRow.shape = some (base, [(st, n)], words))
    (hk : K.testBit (64 + k) = true) (h4 : w % 4 = 0) (hw : w < 4 * words) (hs : 4 * words ≤ st) : lies (at1 base st n i + w) K := by
  unfold at1
  split
  · rename_i hi
    rw [Nat.add_assoc]
    exact lies_row hrow hk fun _ hr => has_of_shape hr (locate_cons hi (by omega) (locate_nil h4 hw))
  · exact lies_outside

theorem lies_at2 {K k base st n st2 m words i j w : Nat} (hrow : allRows[k]?.map RegRow.shape = some (base, [(st, n), (st2, m)], words))
    (hk : K.testBit (64 + k) = true) (h4 : w % 4 = 0) (hw : w < 4 * words) (hs2 : 4 * words ≤ st2) (hs : st2 * m ≤ st) :
    lies (at2 base st n st2 m i j + w) K := by
  unfold at2
  split
  · rename_i hi
    have h1 : st2 * (j + 1) ≤ st2 * m := Nat.mul_le_mul_left _ hi.2
    rw [Nat.mul_add, Nat.mul_one] at h1
    have h2 : j * st2 + w < st := by rw [Nat.mul_comm]; omega
    rw [Nat.add_assoc, Nat.add_assoc]
    exact lies_row hrow hk fun _ hr => has_of_shape hr (locate_cons hi.1 h2 (locate_cons hi.2 (by omega) (locate_nil h4 hw)))
  · exact lies_outside

theorem lies_ring {K k k' base base' words i d w : Nat} (hb : base' = base + 0x100)
    (hrow : allRows[k]?.map RegRow.shape = some (base, [(0x1000, 512)], words))
    (hrow' : allRows[k']?.map RegRow.shape = some (base', [(0x1000, 512)], words))
    (hk : K.testBit (64 + k) = true) (hk' : K.testBit (64 + k') = true) (h4 : w % 4 = 0) (hw : w < 4 * words) (hs : 4 * words ≤ 0x1000) :
    lies (ringOff (at1 base 0x1000 512 i) d + w) K := by
  unfold ringOff
  split
  · exact lies_at1 hrow hk h4 hw hs
  · have h := lies_at1 (i := i) hrow' hk' h4 hw hs
    subst hb
    unfold at1 at h ⊢
    split
    · rename_i hi
      rw [if_pos hi] at h
      rwa [show base + i * 0x1000 + 0x100 + w = base + 0x100 + i * 0x1000 + w by omega]
    · rw [Nat.add_assoc]; exact lies_outside

end Sys2Proof.Machine
end

