-- ==== Sys2Proof/Laws/Shapes.lean ====
section
/-!
SUPPORT. The shape of every table: its first offset, its strides and counts, how many words.
-/
set_option Elab.async false
namespace Sys2Proof.Machine

def shapes0 : List (Nat × List (Nat × Nat) × Nat) := [
  (0x0, [], 1), (0x4, [], 1), (0x8, [], 1), (0xc, [], 1), (0x10, [], 1),
  (0x18, [], 1), (0x20, [], 1), (0x24, [], 1), (0x30, [], 1), (0x34, [], 1),
  (0x40, [], 1), (0x10000, [], 1), (0x10004, [], 1), (0x10008, [], 1), (0x1000c, [], 1),
  (0x10010, [], 1), (0x10014, [], 1), (0x10018, [], 1), (0x10020, [], 1), (0x10024, [], 1),
  (0x10028, [], 1), (0x1002c, [], 1), (0x10030, [], 1), (0x10034, [], 1), (0x10040, [], 1),
  (0x100f0, [], 1), (0x100f4, [], 1), (0x20000, [], 1), (0x20004, [], 1), (0x20008, [], 1),
  (0x2000c, [], 1), (0x20010, [], 1), (0x20014, [], 1), (0x20018, [], 1), (0x20020, [], 1),
  (0x20030, [], 1), (0x200f0, [], 1), (0x200f4, [], 1), (0x30000, [], 1), (0x30004, [], 1)]

def shapes1 : List (Nat × List (Nat × Nat) × Nat) := [
  (0x30008, [], 1), (0x3000c, [], 1), (0x30010, [], 1), (0x300f0, [], 1), (0x300f4, [], 1),
  (0x40000, [], 1), (0x40004, [], 1), (0x40008, [], 1), (0x40010, [], 4), (0x40020, [], 1),
  (0x40024, [], 1), (0x40030, [], 1), (0x40034, [], 1), (0x40038, [], 1), (0x40040, [], 1),
  (0x40044, [], 1), (0x40050, [], 1), (0x40054, [], 1), (0x40058, [], 1), (0x40060, [], 1),
  (0x40064, [], 1), (0x40068, [], 1), (0x40070, [], 1), (0x40080, [], 1), (0x400f0, [], 1),
  (0x400f4, [], 1), (0x40400, [(0x4, 128)], 1), (0x42000, [(0x20, 512)], 8), (0x50000, [], 4), (0x50010, [], 2),
  (0x50020, [], 1), (0x50024, [], 1), (0x50030, [], 4), (0x50040, [], 1), (0x50044, [], 1),
  (0x50050, [], 1), (0x50058, [], 2), (0x50060, [], 1), (0x500f0, [], 1), (0x500f4, [], 1)]

def shapes2 : List (Nat × List (Nat × Nat) × Nat) := [
  (0x50100, [(0x20, 4)], 1), (0x50108, [(0x20, 4)], 2), (0x50110, [(0x20, 4)], 1), (0x50118, [(0x20, 4)], 2), (0x51000, [(0x10, 64)], 1),
  (0x51004, [(0x10, 64)], 1), (0x51008, [(0x10, 64)], 1), (0x60000, [(0x80, 16)], 1), (0x60004, [(0x80, 16)], 1), (0x60010, [(0x80, 16)], 4),
  (0x60020, [(0x80, 16)], 1), (0x60028, [(0x80, 16)], 2), (0x60030, [(0x80, 16)], 4), (0x60040, [(0x80, 16)], 4), (0x60050, [(0x80, 16)], 4),
  (0x60800, [], 1), (0x60804, [], 1), (0x61000, [(0x20, 64)], 1), (0x61004, [(0x20, 64)], 1), (0x61008, [(0x20, 64)], 3),
  (0x61014, [(0x20, 64)], 1), (0x62000, [(0x100, 64), (0x4, 64)], 1), (0x70000, [], 1), (0x70004, [], 1), (0x70008, [], 1),
  (0x7000c, [], 2), (0x70020, [], 12), (0x70050, [], 2), (0x70058, [], 1), (0x70060, [], 2),
  (0x70068, [], 1), (0x7006c, [], 1), (0x70070, [], 1), (0x70074, [], 1), (0x70080, [], 1),
  (0x70084, [], 1), (0x70090, [], 1), (0x700a0, [], 12), (0x700d0, [], 1), (0x70100, [], 2)]

def shapes3 : List (Nat × List (Nat × Nat) × Nat) := [
  (0x70200, [(0x4, 64)], 1), (0x70300, [], 1), (0x70304, [], 1), (0x70308, [], 1), (0x7030c, [], 1),
  (0x71000, [(0x200, 4), (0x20, 16)], 2), (0x71008, [(0x200, 4), (0x20, 16)], 2), (0x71010, [(0x200, 4), (0x20, 16)], 1), (0x71014, [(0x200, 4), (0x20, 16)], 1), (0x80000, [(0x10, 4)], 1),
  (0x80004, [(0x10, 4)], 1), (0x80008, [(0x10, 4)], 1), (0x8000c, [(0x10, 4)], 1), (0x80080, [], 1), (0x800f0, [], 1),
  (0x800f4, [], 1), (0x81000, [(0x10, 56)], 1), (0x81004, [(0x10, 56)], 1), (0x81008, [(0x10, 56)], 1), (0x8100c, [(0x10, 56)], 1),
  (0x82000, [(0x10, 128)], 1), (0x82004, [(0x10, 128)], 1), (0x84000, [(0x4, 512)], 1), (0x90000, [], 1), (0x90004, [], 1),
  (0x90008, [], 1), (0x9000c, [], 1), (0x90010, [], 1), (0x90014, [], 1), (0x90020, [], 1),
  (0x90024, [], 1), (0x90040, [], 1), (0x90044, [], 1), (0x91000, [(0x10, 64)], 1), (0x91004, [(0x10, 64)], 1),
  (0x91008, [(0x10, 64)], 1), (0x9100c, [(0x10, 64)], 1), (0xa0000, [], 1), (0xa0010, [], 1), (0xa0020, [], 1)]

def shapes4 : List (Nat × List (Nat × Nat) × Nat) := [
  (0xa0024, [], 1), (0xa0040, [], 1), (0xa0044, [], 1), (0xa0048, [], 1), (0xa0080, [], 1),
  (0xa0084, [], 1), (0xa0088, [], 1), (0xa008c, [], 1), (0xa0090, [], 1), (0xa0100, [(0x8, 32)], 2),
  (0xa0200, [(0x8, 8)], 2), (0xa0400, [(0x8, 64)], 2), (0xa1000, [(0x40, 64)], 1), (0xa1004, [(0x40, 64)], 1), (0xa1010, [(0x40, 64), (0x4, 8)], 1),
  (0xa1030, [(0x40, 64)], 1), (0xa1034, [(0x40, 64)], 1), (0xa1038, [(0x40, 64)], 1), (0xb0000, [], 1), (0xb1000, [(0x100, 16)], 1),
  (0xb1004, [(0x100, 16)], 1), (0xb1008, [(0x100, 16)], 1), (0xb100c, [(0x100, 16)], 1), (0xb1010, [(0x100, 16)], 2), (0xb1018, [(0x100, 16)], 2),
  (0xb1020, [(0x100, 16)], 1), (0xb1024, [(0x100, 16)], 1), (0xb1028, [(0x100, 16)], 1), (0xb1030, [(0x100, 16)], 2), (0xb1038, [(0x100, 16)], 2),
  (0xb1040, [(0x100, 16)], 1), (0xb1044, [(0x100, 16)], 1), (0xb1048, [(0x100, 16)], 2), (0xb1080, [(0x100, 16)], 1), (0xb1084, [(0x100, 16)], 1),
  (0xc0000, [], 1), (0xc0004, [], 1), (0xc0008, [], 1), (0xc000c, [], 1), (0xc0010, [], 1)]

def shapes5 : List (Nat × List (Nat × Nat) × Nat) := [
  (0xc0014, [], 1), (0xc0020, [], 4), (0xc00f0, [], 1), (0xc00f4, [], 1), (0xd0000, [], 1),
  (0xd0004, [], 1), (0xd0008, [], 1), (0xd00f0, [], 1), (0xd00f4, [], 1), (0xd1000, [], 1),
  (0xd1004, [], 1), (0xd1100, [(0x4, 64)], 1), (0xd1200, [(0x4, 64)], 1), (0xe0000, [], 1), (0xe0004, [], 1),
  (0xe0008, [], 1), (0xe000c, [], 1), (0xe0020, [(0x8, 4)], 1), (0xe0040, [(0x8, 4)], 1), (0xe0060, [], 1),
  (0xe0080, [(0x8, 4)], 2), (0xe00a0, [], 1), (0xe00f0, [], 1), (0xe00f4, [], 1), (0xf0000, [], 1),
  (0xf0010, [(0x10, 4)], 1), (0xf0014, [(0x10, 4)], 1), (0xf0018, [(0x10, 4)], 1), (0xf0100, [], 1), (0xf0104, [], 1),
  (0xf1000, [(0x4, 64)], 1), (0xf1100, [(0x4, 64)], 1), (0xf2000, [(0x4, 2048)], 1), (0xf8000, [(0x10, 2048)], 4), (0x100000, [(0x10000, 4)], 1),
  (0x100004, [(0x10000, 4)], 1), (0x100010, [(0x10000, 4)], 1), (0x100014, [(0x10000, 4)], 1), (0x100018, [(0x10000, 4)], 1), (0x100020, [(0x10000, 4)], 1)]

def shapes6 : List (Nat × List (Nat × Nat) × Nat) := [
  (0x100024, [(0x10000, 4)], 1), (0x100030, [(0x10000, 4)], 1), (0x100034, [(0x10000, 4)], 1), (0x100038, [(0x10000, 4)], 1), (0x100040, [(0x10000, 4)], 1),
  (0x100044, [(0x10000, 4)], 1), (0x100050, [(0x10000, 4)], 1), (0x100060, [(0x10000, 4)], 1), (0x100064, [(0x10000, 4)], 1), (0x100100, [(0x10000, 4)], 1),
  (0x100104, [(0x10000, 4)], 1), (0x100200, [(0x10000, 4), (0x4, 64)], 1), (0x100300, [(0x10000, 4), (0x4, 64)], 1), (0x140000, [(0x400, 16)], 1), (0x140004, [(0x400, 16)], 1),
  (0x140008, [(0x400, 16)], 1), (0x14000c, [(0x400, 16)], 1), (0x140010, [(0x400, 16)], 1), (0x140020, [(0x400, 16)], 1), (0x140024, [(0x400, 16)], 1),
  (0x140100, [(0x400, 16), (0x8, 56)], 1), (0x140104, [(0x400, 16), (0x8, 56)], 1), (0x150000, [(0x100, 4)], 1), (0x150004, [(0x100, 4)], 1), (0x150008, [(0x100, 4)], 1),
  (0x150010, [(0x100, 4)], 1), (0x150014, [(0x100, 4)], 1), (0x150020, [(0x100, 4)], 1), (0x150024, [(0x100, 4)], 1), (0x150030, [(0x100, 4)], 2),
  (0x150040, [(0x100, 4), (0x4, 4)], 1), (0x160000, [], 1), (0x160004, [], 1), (0x160008, [], 2), (0x160010, [], 2),
  (0x160018, [], 1), (0x160020, [], 1), (0x160024, [], 1), (0x160040, [(0x4, 16)], 1), (0x160080, [(0x4, 8)], 1)]

def shapes7 : List (Nat × List (Nat × Nat) × Nat) := [
  (0x160100, [(0x4, 16)], 1), (0x160208, [(0x8, 15)], 2), (0x160400, [(0x4, 64)], 1), (0x170000, [], 1), (0x170004, [], 1),
  (0x170010, [], 1), (0x170014, [], 1), (0x170018, [], 1), (0x17001c, [], 1), (0x170020, [], 2),
  (0x170028, [], 1), (0x17002c, [], 1), (0x170030, [], 1), (0x170034, [], 1), (0x170040, [], 1),
  (0x170050, [], 1), (0x170054, [], 1), (0x170080, [(0x4, 16)], 1), (0x170100, [], 12), (0x1000000, [(0x10000, 64)], 1),
  (0x1000004, [(0x10000, 64)], 1), (0x1000010, [(0x10000, 64)], 1), (0x1000014, [(0x10000, 64)], 1), (0x1000018, [(0x10000, 64)], 1), (0x100001c, [(0x10000, 64)], 1),
  (0x1000020, [(0x10000, 64)], 1), (0x1000028, [(0x10000, 64)], 2), (0x1000030, [(0x10000, 64)], 1), (0x1000034, [(0x10000, 64)], 1), (0x1000038, [(0x10000, 64)], 2),
  (0x1000040, [(0x10000, 64)], 1), (0x1000044, [(0x10000, 64)], 1), (0x1000048, [(0x10000, 64)], 2), (0x1000060, [(0x10000, 64)], 1), (0x1000064, [(0x10000, 64)], 1),
  (0x1000068, [(0x10000, 64)], 1), (0x1000070, [(0x10000, 64)], 2), (0x1000078, [(0x10000, 64)], 2), (0x1000080, [(0x10000, 64)], 1), (0x1000084, [(0x10000, 64)], 1)]

def shapes8 : List (Nat × List (Nat × Nat) × Nat) := [
  (0x1000090, [(0x10000, 64), (0x10, 8)], 4), (0x1000110, [(0x10000, 64)], 1), (0x1000114, [(0x10000, 64)], 1), (0x1000120, [(0x10000, 64)], 1), (0x1000130, [(0x10000, 64)], 2),
  (0x1000138, [(0x10000, 64)], 2), (0x1000140, [(0x10000, 64)], 2), (0x1000148, [(0x10000, 64)], 2), (0x1000150, [(0x10000, 64)], 2), (0x1000158, [(0x10000, 64)], 2),
  (0x1000160, [(0x10000, 64)], 2), (0x1000168, [(0x10000, 64)], 2), (0x1000170, [(0x10000, 64)], 2), (0x1000178, [(0x10000, 64)], 2), (0x1000180, [(0x10000, 64)], 1),
  (0x1000200, [(0x10000, 64)], 1), (0x1000204, [(0x10000, 64)], 1), (0x1000208, [(0x10000, 64)], 1), (0x100020c, [(0x10000, 64)], 1), (0x1000210, [(0x10000, 64)], 1),
  (0x1000220, [(0x10000, 64)], 1), (0x1000230, [(0x10000, 64)], 1), (0x10002f0, [(0x10000, 64)], 1), (0x10002f4, [(0x10000, 64)], 1), (0x1000300, [(0x10000, 64)], 1),
  (0x1000304, [(0x10000, 64)], 1), (0x1000308, [(0x10000, 64)], 1), (0x1000310, [(0x10000, 64)], 2), (0x1000318, [(0x10000, 64)], 2), (0x1000400, [(0x10000, 64)], 1),
  (0x1000404, [(0x10000, 64)], 1), (0x1000408, [(0x10000, 64)], 1), (0x100040c, [(0x10000, 64)], 1), (0x1000410, [(0x10000, 64)], 2), (0x1000418, [(0x10000, 64)], 2),
  (0x1000420, [(0x10000, 64)], 2), (0x1000430, [(0x10000, 64)], 1), (0x1000440, [(0x10000, 64), (0x4, 32)], 1), (0x10004f0, [(0x10000, 64)], 1), (0x10004f4, [(0x10000, 64)], 1)]

def shapes9 : List (Nat × List (Nat × Nat) × Nat) := [
  (0x1000500, [(0x10000, 64)], 1), (0x1000504, [(0x10000, 64)], 1), (0x1000508, [(0x10000, 64)], 1), (0x1000510, [(0x10000, 64)], 2), (0x1000520, [(0x10000, 64)], 1),
  (0x1000524, [(0x10000, 64)], 1), (0x10005f0, [(0x10000, 64)], 1), (0x10005f4, [(0x10000, 64)], 1), (0x2000000, [(0x1000, 512)], 2), (0x2000008, [(0x1000, 512)], 1),
  (0x200000c, [(0x1000, 512)], 1), (0x2000010, [(0x1000, 512)], 1), (0x2000014, [(0x1000, 512)], 1), (0x2000018, [(0x1000, 512)], 1), (0x200001c, [(0x1000, 512)], 1),
  (0x2000020, [(0x1000, 512)], 1), (0x2000028, [(0x1000, 512)], 2), (0x2000030, [(0x1000, 512)], 2), (0x2000038, [(0x1000, 512)], 1), (0x2000100, [(0x1000, 512)], 2),
  (0x2000108, [(0x1000, 512)], 1), (0x200010c, [(0x1000, 512)], 1), (0x2000110, [(0x1000, 512)], 1), (0x2000114, [(0x1000, 512)], 1), (0x2000118, [(0x1000, 512)], 1),
  (0x200011c, [(0x1000, 512)], 1), (0x2000120, [(0x1000, 512)], 1), (0x2000128, [(0x1000, 512)], 2), (0x2000130, [(0x1000, 512)], 2), (0x2000138, [(0x1000, 512)], 1),
  (0x2000200, [(0x1000, 512)], 1), (0x2000204, [(0x1000, 512)], 1), (0x2000208, [(0x1000, 512)], 1)]

/-- The shapes of all tables. -/
def shapes : List (Nat × List (Nat × Nat) × Nat) :=
  shapes0 ++ (shapes1 ++ (shapes2 ++ (shapes3 ++ (shapes4 ++ (shapes5 ++ (shapes6 ++ (shapes7 ++ (shapes8 ++ (shapes9)))))))))

theorem shapes_eq : allRows.map RegRow.shape = shapes := by decide +kernel

theorem shape_at (k : Nat) : allRows[k]?.map RegRow.shape = shapes[k]? := by rw [← List.getElem?_map, shapes_eq]

end Sys2Proof.Machine
end

