-- ==== Sys2Proof/Laws/Lies.lean ====
section
/-!
SUPPORT. Where each register lies: the masks that admit a write of it, of its words, and of either ring's register.
-/
set_option Elab.async false
namespace Sys2Proof.Machine

variable {K i j q d w : Nat}

theorem lies_GLB_ID (h : K.testBit 64 = true) : lies R.GLB_ID K :=
  lies_one (k := 0) (words := 1) (shape_at 0) h (w := 0) (by decide) (by decide)
theorem lies_GLB_VENDOR (h : K.testBit 65 = true) : lies R.GLB_VENDOR K :=
  lies_one (k := 1) (words := 1) (shape_at 1) h (w := 0) (by decide) (by decide)
theorem lies_GLB_LIFECYCLE (h : K.testBit 66 = true) : lies R.GLB_LIFECYCLE K :=
  lies_one (k := 2) (words := 1) (shape_at 2) h (w := 0) (by decide) (by decide)
theorem lies_GLB_STRAPS (h : K.testBit 67 = true) : lies R.GLB_STRAPS K :=
  lies_one (k := 3) (words := 1) (shape_at 3) h (w := 0) (by decide) (by decide)
theorem lies_GLB_MODE (h : K.testBit 68 = true) : lies R.GLB_MODE K :=
  lies_one (k := 4) (words := 1) (shape_at 4) h (w := 0) (by decide) (by decide)
theorem lies_GLB_LIFECYCLE_CTL (h : K.testBit 69 = true) : lies R.GLB_LIFECYCLE_CTL K :=
  lies_one (k := 5) (words := 1) (shape_at 5) h (w := 0) (by decide) (by decide)
theorem lies_GLB_COMMIT (h : K.testBit 70 = true) : lies R.GLB_COMMIT K :=
  lies_one (k := 6) (words := 1) (shape_at 6) h (w := 0) (by decide) (by decide)
theorem lies_GLB_COMMIT_STAT (h : K.testBit 71 = true) : lies R.GLB_COMMIT_STAT K :=
  lies_one (k := 7) (words := 1) (shape_at 7) h (w := 0) (by decide) (by decide)
theorem lies_GLB_EVENT (h : K.testBit 72 = true) : lies R.GLB_EVENT K :=
  lies_one (k := 8) (words := 1) (shape_at 8) h (w := 0) (by decide) (by decide)
theorem lies_GLB_EVENT_MASK (h : K.testBit 73 = true) : lies R.GLB_EVENT_MASK K :=
  lies_one (k := 9) (words := 1) (shape_at 9) h (w := 0) (by decide) (by decide)
theorem lies_GLB_SUMMARY (h : K.testBit 74 = true) : lies R.GLB_SUMMARY K :=
  lies_one (k := 10) (words := 1) (shape_at 10) h (w := 0) (by decide) (by decide)
theorem lies_PWR_MODE_REQ (h : K.testBit 75 = true) : lies R.PWR_MODE_REQ K :=
  lies_one (k := 11) (words := 1) (shape_at 11) h (w := 0) (by decide) (by decide)
theorem lies_PWR_MODE_STAT (h : K.testBit 76 = true) : lies R.PWR_MODE_STAT K :=
  lies_one (k := 12) (words := 1) (shape_at 12) h (w := 0) (by decide) (by decide)
theorem lies_PWR_HOST_REQ (h : K.testBit 77 = true) : lies R.PWR_HOST_REQ K :=
  lies_one (k := 13) (words := 1) (shape_at 13) h (w := 0) (by decide) (by decide)
theorem lies_PWR_KEEPER_REQ (h : K.testBit 78 = true) : lies R.PWR_KEEPER_REQ K :=
  lies_one (k := 14) (words := 1) (shape_at 14) h (w := 0) (by decide) (by decide)
theorem lies_PWR_VOTES (h : K.testBit 79 = true) : lies R.PWR_VOTES K :=
  lies_one (k := 15) (words := 1) (shape_at 15) h (w := 0) (by decide) (by decide)
theorem lies_PWR_WAKE_LATCH (h : K.testBit 80 = true) : lies R.PWR_WAKE_LATCH K :=
  lies_one (k := 16) (words := 1) (shape_at 16) h (w := 0) (by decide) (by decide)
theorem lies_PWR_RET_STATUS (h : K.testBit 81 = true) : lies R.PWR_RET_STATUS K :=
  lies_one (k := 17) (words := 1) (shape_at 17) h (w := 0) (by decide) (by decide)
theorem lies_PWR_DOM_REQ (h : K.testBit 82 = true) : lies R.PWR_DOM_REQ K :=
  lies_one (k := 18) (words := 1) (shape_at 18) h (w := 0) (by decide) (by decide)
theorem lies_PWR_DOM_STAT (h : K.testBit 83 = true) : lies R.PWR_DOM_STAT K :=
  lies_one (k := 19) (words := 1) (shape_at 19) h (w := 0) (by decide) (by decide)
theorem lies_PWR_DOM_PEND (h : K.testBit 84 = true) : lies R.PWR_DOM_PEND K :=
  lies_one (k := 20) (words := 1) (shape_at 20) h (w := 0) (by decide) (by decide)
theorem lies_PWR_DOM_FORCE (h : K.testBit 85 = true) : lies R.PWR_DOM_FORCE K :=
  lies_one (k := 21) (words := 1) (shape_at 21) h (w := 0) (by decide) (by decide)
theorem lies_PWR_STBY_OFF (h : K.testBit 86 = true) : lies R.PWR_STBY_OFF K :=
  lies_one (k := 22) (words := 1) (shape_at 22) h (w := 0) (by decide) (by decide)
theorem lies_PWR_POLICY (h : K.testBit 87 = true) : lies R.PWR_POLICY K :=
  lies_one (k := 23) (words := 1) (shape_at 23) h (w := 0) (by decide) (by decide)
theorem lies_PWR_AVS_STAT (h : K.testBit 88 = true) : lies R.PWR_AVS_STAT K :=
  lies_one (k := 24) (words := 1) (shape_at 24) h (w := 0) (by decide) (by decide)
theorem lies_PWR_EVENT (h : K.testBit 89 = true) : lies R.PWR_EVENT K :=
  lies_one (k := 25) (words := 1) (shape_at 25) h (w := 0) (by decide) (by decide)
theorem lies_PWR_EVENT_MASK (h : K.testBit 90 = true) : lies R.PWR_EVENT_MASK K :=
  lies_one (k := 26) (words := 1) (shape_at 26) h (w := 0) (by decide) (by decide)
theorem lies_CLK_READY (h : K.testBit 91 = true) : lies R.CLK_READY K :=
  lies_one (k := 27) (words := 1) (shape_at 27) h (w := 0) (by decide) (by decide)
theorem lies_CLK_SEL_CORE (h : K.testBit 92 = true) : lies R.CLK_SEL_CORE K :=
  lies_one (k := 28) (words := 1) (shape_at 28) h (w := 0) (by decide) (by decide)
theorem lies_CLK_SEL_LINE (h : K.testBit 93 = true) : lies R.CLK_SEL_LINE K :=
  lies_one (k := 29) (words := 1) (shape_at 29) h (w := 0) (by decide) (by decide)
theorem lies_CLK_RLOOP_STAT (h : K.testBit 94 = true) : lies R.CLK_RLOOP_STAT K :=
  lies_one (k := 30) (words := 1) (shape_at 30) h (w := 0) (by decide) (by decide)
theorem lies_CLK_REF_LOST (h : K.testBit 95 = true) : lies R.CLK_REF_LOST K :=
  lies_one (k := 31) (words := 1) (shape_at 31) h (w := 0) (by decide) (by decide)
theorem lies_CLK_SWITCH_FORCED (h : K.testBit 96 = true) : lies R.CLK_SWITCH_FORCED K :=
  lies_one (k := 32) (words := 1) (shape_at 32) h (w := 0) (by decide) (by decide)
theorem lies_CLK_SW_STAT (h : K.testBit 97 = true) : lies R.CLK_SW_STAT K :=
  lies_one (k := 33) (words := 1) (shape_at 33) h (w := 0) (by decide) (by decide)
theorem lies_CLK_PLL_EN (h : K.testBit 98 = true) : lies R.CLK_PLL_EN K :=
  lies_one (k := 34) (words := 1) (shape_at 34) h (w := 0) (by decide) (by decide)
theorem lies_CLK_GATE (h : K.testBit 99 = true) : lies R.CLK_GATE K :=
  lies_one (k := 35) (words := 1) (shape_at 35) h (w := 0) (by decide) (by decide)
theorem lies_CLK_EVENT (h : K.testBit 100 = true) : lies R.CLK_EVENT K :=
  lies_one (k := 36) (words := 1) (shape_at 36) h (w := 0) (by decide) (by decide)
theorem lies_CLK_EVENT_MASK (h : K.testBit 101 = true) : lies R.CLK_EVENT_MASK K :=
  lies_one (k := 37) (words := 1) (shape_at 37) h (w := 0) (by decide) (by decide)
theorem lies_RST_CAUSE (h : K.testBit 102 = true) : lies R.RST_CAUSE K :=
  lies_one (k := 38) (words := 1) (shape_at 38) h (w := 0) (by decide) (by decide)
theorem lies_RST_CHIP (h : K.testBit 103 = true) : lies R.RST_CHIP K :=
  lies_one (k := 39) (words := 1) (shape_at 39) h (w := 0) (by decide) (by decide)
theorem lies_RST_BLOCK (h : K.testBit 104 = true) : lies R.RST_BLOCK K :=
  lies_one (k := 40) (words := 1) (shape_at 40) h (w := 0) (by decide) (by decide)
theorem lies_RST_BLOCK_STAT (h : K.testBit 105 = true) : lies R.RST_BLOCK_STAT K :=
  lies_one (k := 41) (words := 1) (shape_at 41) h (w := 0) (by decide) (by decide)
theorem lies_RST_COUNT (h : K.testBit 106 = true) : lies R.RST_COUNT K :=
  lies_one (k := 42) (words := 1) (shape_at 42) h (w := 0) (by decide) (by decide)
theorem lies_RST_EVENT (h : K.testBit 107 = true) : lies R.RST_EVENT K :=
  lies_one (k := 43) (words := 1) (shape_at 43) h (w := 0) (by decide) (by decide)
theorem lies_RST_EVENT_MASK (h : K.testBit 108 = true) : lies R.RST_EVENT_MASK K :=
  lies_one (k := 44) (words := 1) (shape_at 44) h (w := 0) (by decide) (by decide)
theorem lies_FLT_STAT (h : K.testBit 109 = true) : lies R.FLT_STAT K :=
  lies_one (k := 45) (words := 1) (shape_at 45) h (w := 0) (by decide) (by decide)
theorem lies_FLT_LOG_STAT (h : K.testBit 110 = true) : lies R.FLT_LOG_STAT K :=
  lies_one (k := 46) (words := 1) (shape_at 46) h (w := 0) (by decide) (by decide)
theorem lies_FLT_LOG_CTL (h : K.testBit 111 = true) : lies R.FLT_LOG_CTL K :=
  lies_one (k := 47) (words := 1) (shape_at 47) h (w := 0) (by decide) (by decide)
theorem lies_FLT_FIRST_at (h : K.testBit 112 = true) (h4 : w % 4 = 0) (hw : w < 16) : lies (R.FLT_FIRST + w) K :=
  lies_one (k := 48) (words := 4) (shape_at 48) h h4 hw
theorem lies_FLT_FIRST (h : K.testBit 112 = true) : lies R.FLT_FIRST K := lies_FLT_FIRST_at (w := 0) h (by decide) (by decide)
theorem lies_FLT_FIRST_words (h : K.testBit 112 = true) {n : Nat} (hn : n ≤ 4) (m : Nat) (hm : m < n) : lies (R.FLT_FIRST + 4 * m) K :=
  lies_FLT_FIRST_at h (by omega) (by omega)
theorem lies_FLT_IRQ_CFG (h : K.testBit 113 = true) : lies R.FLT_IRQ_CFG K :=
  lies_one (k := 49) (words := 1) (shape_at 49) h (w := 0) (by decide) (by decide)
theorem lies_FLT_IRQ_REARM (h : K.testBit 114 = true) : lies R.FLT_IRQ_REARM K :=
  lies_one (k := 50) (words := 1) (shape_at 50) h (w := 0) (by decide) (by decide)
theorem lies_FLT_WDOG_CFG (h : K.testBit 115 = true) : lies R.FLT_WDOG_CFG K :=
  lies_one (k := 51) (words := 1) (shape_at 51) h (w := 0) (by decide) (by decide)
theorem lies_FLT_WDOG_KICK (h : K.testBit 116 = true) : lies R.FLT_WDOG_KICK K :=
  lies_one (k := 52) (words := 1) (shape_at 52) h (w := 0) (by decide) (by decide)
theorem lies_FLT_WDOG_STAT (h : K.testBit 117 = true) : lies R.FLT_WDOG_STAT K :=
  lies_one (k := 53) (words := 1) (shape_at 53) h (w := 0) (by decide) (by decide)
theorem lies_FLT_CHK_CTL (h : K.testBit 118 = true) : lies R.FLT_CHK_CTL K :=
  lies_one (k := 54) (words := 1) (shape_at 54) h (w := 0) (by decide) (by decide)
theorem lies_FLT_CHK_STAT (h : K.testBit 119 = true) : lies R.FLT_CHK_STAT K :=
  lies_one (k := 55) (words := 1) (shape_at 55) h (w := 0) (by decide) (by decide)
theorem lies_FLT_MBIST_CTL (h : K.testBit 120 = true) : lies R.FLT_MBIST_CTL K :=
  lies_one (k := 56) (words := 1) (shape_at 56) h (w := 0) (by decide) (by decide)
theorem lies_FLT_MBIST_STAT (h : K.testBit 121 = true) : lies R.FLT_MBIST_STAT K :=
  lies_one (k := 57) (words := 1) (shape_at 57) h (w := 0) (by decide) (by decide)
theorem lies_FLT_MBIST_FAIL (h : K.testBit 122 = true) : lies R.FLT_MBIST_FAIL K :=
  lies_one (k := 58) (words := 1) (shape_at 58) h (w := 0) (by decide) (by decide)
theorem lies_FLT_REC_NEXT (h : K.testBit 123 = true) : lies R.FLT_REC_NEXT K :=
  lies_one (k := 59) (words := 1) (shape_at 59) h (w := 0) (by decide) (by decide)
theorem lies_FLT_REC_STAT (h : K.testBit 124 = true) : lies R.FLT_REC_STAT K :=
  lies_one (k := 60) (words := 1) (shape_at 60) h (w := 0) (by decide) (by decide)
theorem lies_FLT_REC_CTL (h : K.testBit 125 = true) : lies R.FLT_REC_CTL K :=
  lies_one (k := 61) (words := 1) (shape_at 61) h (w := 0) (by decide) (by decide)
theorem lies_FLT_THERM (h : K.testBit 126 = true) : lies R.FLT_THERM K :=
  lies_one (k := 62) (words := 1) (shape_at 62) h (w := 0) (by decide) (by decide)
theorem lies_FLT_INJ_CTL (h : K.testBit 127 = true) : lies R.FLT_INJ_CTL K :=
  lies_one (k := 63) (words := 1) (shape_at 63) h (w := 0) (by decide) (by decide)
theorem lies_FLT_EVENT (h : K.testBit 128 = true) : lies R.FLT_EVENT K :=
  lies_one (k := 64) (words := 1) (shape_at 64) h (w := 0) (by decide) (by decide)
theorem lies_FLT_EVENT_MASK (h : K.testBit 129 = true) : lies R.FLT_EVENT_MASK K :=
  lies_one (k := 65) (words := 1) (shape_at 65) h (w := 0) (by decide) (by decide)
theorem lies_FLT_REACT (h : K.testBit 130 = true) : lies (R.FLT_REACT i) K :=
  lies_at1 (k := 66) (words := 1) (shape_at 66) h (w := 0) (by decide) (by decide) (by decide)
theorem lies_FLT_LOG_at (h : K.testBit 131 = true) (h4 : w % 4 = 0) (hw : w < 32) : lies (R.FLT_LOG i + w) K :=
  lies_at1 (k := 67) (words := 8) (shape_at 67) h h4 hw (by decide)
theorem lies_FLT_LOG (h : K.testBit 131 = true) : lies (R.FLT_LOG i) K := lies_FLT_LOG_at (w := 0) h (by decide) (by decide)
theorem lies_FLT_LOG_words (h : K.testBit 131 = true) {n : Nat} (hn : n ≤ 8) (m : Nat) (hm : m < n) : lies (R.FLT_LOG i + 4 * m) K :=
  lies_FLT_LOG_at h (by omega) (by omega)
theorem lies_TB_NOW_at (h : K.testBit 132 = true) (h4 : w % 4 = 0) (hw : w < 16) : lies (R.TB_NOW + w) K :=
  lies_one (k := 68) (words := 4) (shape_at 68) h h4 hw
theorem lies_TB_NOW (h : K.testBit 132 = true) : lies R.TB_NOW K := lies_TB_NOW_at (w := 0) h (by decide) (by decide)
theorem lies_TB_NOW_words (h : K.testBit 132 = true) {n : Nat} (hn : n ≤ 4) (m : Nat) (hm : m < n) : lies (R.TB_NOW + 4 * m) K :=
  lies_TB_NOW_at h (by omega) (by omega)
theorem lies_TB_NOW64_at (h : K.testBit 133 = true) (h4 : w % 4 = 0) (hw : w < 8) : lies (R.TB_NOW64 + w) K :=
  lies_one (k := 69) (words := 2) (shape_at 69) h h4 hw
theorem lies_TB_NOW64 (h : K.testBit 133 = true) : lies R.TB_NOW64 K := lies_TB_NOW64_at (w := 0) h (by decide) (by decide)
theorem lies_TB_NOW64_words (h : K.testBit 133 = true) {n : Nat} (hn : n ≤ 2) (m : Nat) (hm : m < n) : lies (R.TB_NOW64 + 4 * m) K :=
  lies_TB_NOW64_at h (by omega) (by omega)
theorem lies_TB_STAT (h : K.testBit 134 = true) : lies R.TB_STAT K :=
  lies_one (k := 70) (words := 1) (shape_at 70) h (w := 0) (by decide) (by decide)
theorem lies_TB_CFG (h : K.testBit 135 = true) : lies R.TB_CFG K :=
  lies_one (k := 71) (words := 1) (shape_at 71) h (w := 0) (by decide) (by decide)
theorem lies_TB_SET_at (h : K.testBit 136 = true) (h4 : w % 4 = 0) (hw : w < 16) : lies (R.TB_SET + w) K :=
  lies_one (k := 72) (words := 4) (shape_at 72) h h4 hw
theorem lies_TB_SET (h : K.testBit 136 = true) : lies R.TB_SET K := lies_TB_SET_at (w := 0) h (by decide) (by decide)
theorem lies_TB_SET_words (h : K.testBit 136 = true) {n : Nat} (hn : n ≤ 4) (m : Nat) (hm : m < n) : lies (R.TB_SET + 4 * m) K :=
  lies_TB_SET_at h (by omega) (by omega)
theorem lies_TB_STEP (h : K.testBit 137 = true) : lies R.TB_STEP K :=
  lies_one (k := 73) (words := 1) (shape_at 73) h (w := 0) (by decide) (by decide)
theorem lies_TB_ADJ (h : K.testBit 138 = true) : lies R.TB_ADJ K :=
  lies_one (k := 74) (words := 1) (shape_at 74) h (w := 0) (by decide) (by decide)
theorem lies_TB_PPS_CFG (h : K.testBit 139 = true) : lies R.TB_PPS_CFG K :=
  lies_one (k := 75) (words := 1) (shape_at 75) h (w := 0) (by decide) (by decide)
theorem lies_TB_PPS_IN_at (h : K.testBit 140 = true) (h4 : w % 4 = 0) (hw : w < 8) : lies (R.TB_PPS_IN + w) K :=
  lies_one (k := 76) (words := 2) (shape_at 76) h h4 hw
theorem lies_TB_PPS_IN (h : K.testBit 140 = true) : lies R.TB_PPS_IN K := lies_TB_PPS_IN_at (w := 0) h (by decide) (by decide)
theorem lies_TB_PPS_IN_words (h : K.testBit 140 = true) {n : Nat} (hn : n ≤ 2) (m : Nat) (hm : m < n) : lies (R.TB_PPS_IN + 4 * m) K :=
  lies_TB_PPS_IN_at h (by omega) (by omega)
theorem lies_TB_PPS_IN_OFS (h : K.testBit 141 = true) : lies R.TB_PPS_IN_OFS K :=
  lies_one (k := 77) (words := 1) (shape_at 77) h (w := 0) (by decide) (by decide)
theorem lies_TB_EVENT (h : K.testBit 142 = true) : lies R.TB_EVENT K :=
  lies_one (k := 78) (words := 1) (shape_at 78) h (w := 0) (by decide) (by decide)
theorem lies_TB_EVENT_MASK (h : K.testBit 143 = true) : lies R.TB_EVENT_MASK K :=
  lies_one (k := 79) (words := 1) (shape_at 79) h (w := 0) (by decide) (by decide)
theorem lies_TB_DOM_STAT (h : K.testBit 144 = true) : lies (R.TB_DOM_STAT i) K :=
  lies_at1 (k := 80) (words := 1) (shape_at 80) h (w := 0) (by decide) (by decide) (by decide)
theorem lies_TB_DOM_OFFSET_at (h : K.testBit 145 = true) (h4 : w % 4 = 0) (hw : w < 8) : lies (R.TB_DOM_OFFSET i + w) K :=
  lies_at1 (k := 81) (words := 2) (shape_at 81) h h4 hw (by decide)
theorem lies_TB_DOM_OFFSET (h : K.testBit 145 = true) : lies (R.TB_DOM_OFFSET i) K := lies_TB_DOM_OFFSET_at (w := 0) h (by decide) (by decide)
theorem lies_TB_DOM_OFFSET_words (h : K.testBit 145 = true) {n : Nat} (hn : n ≤ 2) (m : Nat) (hm : m < n) : lies (R.TB_DOM_OFFSET i + 4 * m) K :=
  lies_TB_DOM_OFFSET_at h (by omega) (by omega)
theorem lies_TB_DOM_RATE (h : K.testBit 146 = true) : lies (R.TB_DOM_RATE i) K :=
  lies_at1 (k := 82) (words := 1) (shape_at 82) h (w := 0) (by decide) (by decide) (by decide)
theorem lies_TB_DOM_GM_ID_at (h : K.testBit 147 = true) (h4 : w % 4 = 0) (hw : w < 8) : lies (R.TB_DOM_GM_ID i + w) K :=
  lies_at1 (k := 83) (words := 2) (shape_at 83) h h4 hw (by decide)
theorem lies_TB_DOM_GM_ID (h : K.testBit 147 = true) : lies (R.TB_DOM_GM_ID i) K := lies_TB_DOM_GM_ID_at (w := 0) h (by decide) (by decide)
theorem lies_TB_DOM_GM_ID_words (h : K.testBit 147 = true) {n : Nat} (hn : n ≤ 2) (m : Nat) (hm : m < n) : lies (R.TB_DOM_GM_ID i + 4 * m) K :=
  lies_TB_DOM_GM_ID_at h (by omega) (by omega)
theorem lies_TB_PORT_ADJ (h : K.testBit 148 = true) : lies (R.TB_PORT_ADJ i) K :=
  lies_at1 (k := 84) (words := 1) (shape_at 84) h (w := 0) (by decide) (by decide) (by decide)
theorem lies_TB_PORT_ROLES (h : K.testBit 149 = true) : lies (R.TB_PORT_ROLES i) K :=
  lies_at1 (k := 85) (words := 1) (shape_at 85) h (w := 0) (by decide) (by decide) (by decide)
theorem lies_TB_PORT_PDELAY (h : K.testBit 150 = true) : lies (R.TB_PORT_PDELAY i) K :=
  lies_at1 (k := 86) (words := 1) (shape_at 86) h (w := 0) (by decide) (by decide) (by decide)
theorem lies_LCH_LG_CTL (h : K.testBit 151 = true) : lies (R.LCH_LG_CTL i) K :=
  lies_at1 (k := 87) (words := 1) (shape_at 87) h (w := 0) (by decide) (by decide) (by decide)
theorem lies_LCH_LG_MASK (h : K.testBit 152 = true) : lies (R.LCH_LG_MASK i) K :=
  lies_at1 (k := 88) (words := 1) (shape_at 88) h (w := 0) (by decide) (by decide) (by decide)
theorem lies_LCH_LG_TIME_at (h : K.testBit 153 = true) (h4 : w % 4 = 0) (hw : w < 16) : lies (R.LCH_LG_TIME i + w) K :=
  lies_at1 (k := 89) (words := 4) (shape_at 89) h h4 hw (by decide)
theorem lies_LCH_LG_TIME (h : K.testBit 153 = true) : lies (R.LCH_LG_TIME i) K := lies_LCH_LG_TIME_at (w := 0) h (by decide) (by decide)
theorem lies_LCH_LG_TIME_words (h : K.testBit 153 = true) {n : Nat} (hn : n ≤ 4) (m : Nat) (hm : m < n) : lies (R.LCH_LG_TIME i + 4 * m) K :=
  lies_LCH_LG_TIME_at h (by omega) (by omega)
theorem lies_LCH_LG_STAT (h : K.testBit 154 = true) : lies (R.LCH_LG_STAT i) K :=
  lies_at1 (k := 90) (words := 1) (shape_at 90) h (w := 0) (by decide) (by decide) (by decide)
theorem lies_LCH_LG_FIRED_AT_at (h : K.testBit 155 = true) (h4 : w % 4 = 0) (hw : w < 8) : lies (R.LCH_LG_FIRED_AT i + w) K :=
  lies_at1 (k := 91) (words := 2) (shape_at 91) h h4 hw (by decide)
theorem lies_LCH_LG_FIRED_AT (h : K.testBit 155 = true) : lies (R.LCH_LG_FIRED_AT i) K := lies_LCH_LG_FIRED_AT_at (w := 0) h (by decide) (by decide)
theorem lies_LCH_LG_FIRED_AT_words (h : K.testBit 155 = true) {n : Nat} (hn : n ≤ 2) (m : Nat) (hm : m < n) : lies (R.LCH_LG_FIRED_AT i + 4 * m) K :=
  lies_LCH_LG_FIRED_AT_at h (by omega) (by omega)
theorem lies_LCH_LG_TARGET_at (h : K.testBit 156 = true) (h4 : w % 4 = 0) (hw : w < 16) : lies (R.LCH_LG_TARGET i + w) K :=
  lies_at1 (k := 92) (words := 4) (shape_at 92) h h4 hw (by decide)
theorem lies_LCH_LG_TARGET (h : K.testBit 156 = true) : lies (R.LCH_LG_TARGET i) K := lies_LCH_LG_TARGET_at (w := 0) h (by decide) (by decide)
theorem lies_LCH_LG_TARGET_words (h : K.testBit 156 = true) {n : Nat} (hn : n ≤ 4) (m : Nat) (hm : m < n) : lies (R.LCH_LG_TARGET i + 4 * m) K :=
  lies_LCH_LG_TARGET_at h (by omega) (by omega)
theorem lies_LCH_LG_APPLIED_at (h : K.testBit 157 = true) (h4 : w % 4 = 0) (hw : w < 16) : lies (R.LCH_LG_APPLIED i + w) K :=
  lies_at1 (k := 93) (words := 4) (shape_at 93) h h4 hw (by decide)
theorem lies_LCH_LG_APPLIED (h : K.testBit 157 = true) : lies (R.LCH_LG_APPLIED i) K := lies_LCH_LG_APPLIED_at (w := 0) h (by decide) (by decide)
theorem lies_LCH_LG_APPLIED_words (h : K.testBit 157 = true) {n : Nat} (hn : n ≤ 4) (m : Nat) (hm : m < n) : lies (R.LCH_LG_APPLIED i + 4 * m) K :=
  lies_LCH_LG_APPLIED_at h (by omega) (by omega)
theorem lies_LCH_LG_LATE_at (h : K.testBit 158 = true) (h4 : w % 4 = 0) (hw : w < 16) : lies (R.LCH_LG_LATE i + w) K :=
  lies_at1 (k := 94) (words := 4) (shape_at 94) h h4 hw (by decide)
theorem lies_LCH_LG_LATE (h : K.testBit 158 = true) : lies (R.LCH_LG_LATE i) K := lies_LCH_LG_LATE_at (w := 0) h (by decide) (by decide)
theorem lies_LCH_LG_LATE_words (h : K.testBit 158 = true) {n : Nat} (hn : n ≤ 4) (m : Nat) (hm : m < n) : lies (R.LCH_LG_LATE i + 4 * m) K :=
  lies_LCH_LG_LATE_at h (by omega) (by omega)
theorem lies_LCH_EVENT (h : K.testBit 159 = true) : lies R.LCH_EVENT K :=
  lies_one (k := 95) (words := 1) (shape_at 95) h (w := 0) (by decide) (by decide)
theorem lies_LCH_EVENT_MASK (h : K.testBit 160 = true) : lies R.LCH_EVENT_MASK K :=
  lies_one (k := 96) (words := 1) (shape_at 96) h (w := 0) (by decide) (by decide)
theorem lies_LCH_GCL_CFG_CTRL (h : K.testBit 161 = true) : lies (R.LCH_GCL_CFG_CTRL i) K :=
  lies_at1 (k := 97) (words := 1) (shape_at 97) h (w := 0) (by decide) (by decide) (by decide)
theorem lies_LCH_GCL_CFG_CYCLE (h : K.testBit 162 = true) : lies (R.LCH_GCL_CFG_CYCLE i) K :=
  lies_at1 (k := 98) (words := 1) (shape_at 98) h (w := 0) (by decide) (by decide) (by decide)
theorem lies_LCH_GCL_CFG_BASE_at (h : K.testBit 163 = true) (h4 : w % 4 = 0) (hw : w < 12) : lies (R.LCH_GCL_CFG_BASE i + w) K :=
  lies_at1 (k := 99) (words := 3) (shape_at 99) h h4 hw (by decide)
theorem lies_LCH_GCL_CFG_BASE (h : K.testBit 163 = true) : lies (R.LCH_GCL_CFG_BASE i) K := lies_LCH_GCL_CFG_BASE_at (w := 0) h (by decide) (by decide)
theorem lies_LCH_GCL_CFG_BASE_words (h : K.testBit 163 = true) {n : Nat} (hn : n ≤ 3) (m : Nat) (hm : m < n) : lies (R.LCH_GCL_CFG_BASE i + 4 * m) K :=
  lies_LCH_GCL_CFG_BASE_at h (by omega) (by omega)
theorem lies_LCH_GCL_STAT (h : K.testBit 164 = true) : lies (R.LCH_GCL_STAT i) K :=
  lies_at1 (k := 100) (words := 1) (shape_at 100) h (w := 0) (by decide) (by decide) (by decide)
theorem lies_LCH_GCL (h : K.testBit 165 = true) : lies (R.LCH_GCL i j) K :=
  lies_at2 (k := 101) (words := 1) (shape_at 101) h (w := 0) (by decide) (by decide) (by decide) (by decide)
theorem lies_MLD_STATUS (h : K.testBit 166 = true) : lies R.MLD_STATUS K :=
  lies_one (k := 102) (words := 1) (shape_at 102) h (w := 0) (by decide) (by decide)
theorem lies_MLD_ERR_DETAIL (h : K.testBit 167 = true) : lies R.MLD_ERR_DETAIL K :=
  lies_one (k := 103) (words := 1) (shape_at 103) h (w := 0) (by decide) (by decide)
theorem lies_MLD_WARN (h : K.testBit 168 = true) : lies R.MLD_WARN K :=
  lies_one (k := 104) (words := 1) (shape_at 104) h (w := 0) (by decide) (by decide)
theorem lies_MLD_ACTIVE_GEN_at (h : K.testBit 169 = true) (h4 : w % 4 = 0) (hw : w < 8) : lies (R.MLD_ACTIVE_GEN + w) K :=
  lies_one (k := 105) (words := 2) (shape_at 105) h h4 hw
theorem lies_MLD_ACTIVE_GEN (h : K.testBit 169 = true) : lies R.MLD_ACTIVE_GEN K := lies_MLD_ACTIVE_GEN_at (w := 0) h (by decide) (by decide)
theorem lies_MLD_ACTIVE_GEN_words (h : K.testBit 169 = true) {n : Nat} (hn : n ≤ 2) (m : Nat) (hm : m < n) : lies (R.MLD_ACTIVE_GEN + 4 * m) K :=
  lies_MLD_ACTIVE_GEN_at h (by omega) (by omega)
theorem lies_MLD_ACTIVE_DIGEST_at (h : K.testBit 170 = true) (h4 : w % 4 = 0) (hw : w < 48) : lies (R.MLD_ACTIVE_DIGEST + w) K :=
  lies_one (k := 106) (words := 12) (shape_at 106) h h4 hw
theorem lies_MLD_ACTIVE_DIGEST (h : K.testBit 170 = true) : lies R.MLD_ACTIVE_DIGEST K := lies_MLD_ACTIVE_DIGEST_at (w := 0) h (by decide) (by decide)
theorem lies_MLD_ACTIVE_DIGEST_words (h : K.testBit 170 = true) {n : Nat} (hn : n ≤ 12) (m : Nat) (hm : m < n) : lies (R.MLD_ACTIVE_DIGEST + 4 * m) K :=
  lies_MLD_ACTIVE_DIGEST_at h (by omega) (by omega)
theorem lies_MLD_LOAD_SRC_at (h : K.testBit 171 = true) (h4 : w % 4 = 0) (hw : w < 8) : lies (R.MLD_LOAD_SRC + w) K :=
  lies_one (k := 107) (words := 2) (shape_at 107) h h4 hw
theorem lies_MLD_LOAD_SRC (h : K.testBit 171 = true) : lies R.MLD_LOAD_SRC K := lies_MLD_LOAD_SRC_at (w := 0) h (by decide) (by decide)
theorem lies_MLD_LOAD_SRC_words (h : K.testBit 171 = true) {n : Nat} (hn : n ≤ 2) (m : Nat) (hm : m < n) : lies (R.MLD_LOAD_SRC + 4 * m) K :=
  lies_MLD_LOAD_SRC_at h (by omega) (by omega)
theorem lies_MLD_LOAD_CTL (h : K.testBit 172 = true) : lies R.MLD_LOAD_CTL K :=
  lies_one (k := 108) (words := 1) (shape_at 108) h (w := 0) (by decide) (by decide)
theorem lies_MLD_REMOULD_SRC_at (h : K.testBit 173 = true) (h4 : w % 4 = 0) (hw : w < 8) : lies (R.MLD_REMOULD_SRC + w) K :=
  lies_one (k := 109) (words := 2) (shape_at 109) h h4 hw
theorem lies_MLD_REMOULD_SRC (h : K.testBit 173 = true) : lies R.MLD_REMOULD_SRC K := lies_MLD_REMOULD_SRC_at (w := 0) h (by decide) (by decide)
theorem lies_MLD_REMOULD_SRC_words (h : K.testBit 173 = true) {n : Nat} (hn : n ≤ 2) (m : Nat) (hm : m < n) : lies (R.MLD_REMOULD_SRC + 4 * m) K :=
  lies_MLD_REMOULD_SRC_at h (by omega) (by omega)
theorem lies_MLD_REMOULD_CTL (h : K.testBit 174 = true) : lies R.MLD_REMOULD_CTL K :=
  lies_one (k := 110) (words := 1) (shape_at 110) h (w := 0) (by decide) (by decide)
theorem lies_MLD_REMOULD_STAT (h : K.testBit 175 = true) : lies R.MLD_REMOULD_STAT K :=
  lies_one (k := 111) (words := 1) (shape_at 111) h (w := 0) (by decide) (by decide)
theorem lies_MLD_ADOPT_CTL (h : K.testBit 176 = true) : lies R.MLD_ADOPT_CTL K :=
  lies_one (k := 112) (words := 1) (shape_at 112) h (w := 0) (by decide) (by decide)
theorem lies_MLD_ADOPT_STAT (h : K.testBit 177 = true) : lies R.MLD_ADOPT_STAT K :=
  lies_one (k := 113) (words := 1) (shape_at 113) h (w := 0) (by decide) (by decide)
theorem lies_MLD_EVENT (h : K.testBit 178 = true) : lies R.MLD_EVENT K :=
  lies_one (k := 114) (words := 1) (shape_at 114) h (w := 0) (by decide) (by decide)
theorem lies_MLD_EVENT_MASK (h : K.testBit 179 = true) : lies R.MLD_EVENT_MASK K :=
  lies_one (k := 115) (words := 1) (shape_at 115) h (w := 0) (by decide) (by decide)
theorem lies_MLD_KEYS (h : K.testBit 180 = true) : lies R.MLD_KEYS K :=
  lies_one (k := 116) (words := 1) (shape_at 116) h (w := 0) (by decide) (by decide)
theorem lies_MLD_KEY_PROG_DATA_at (h : K.testBit 181 = true) (h4 : w % 4 = 0) (hw : w < 48) : lies (R.MLD_KEY_PROG_DATA + w) K :=
  lies_one (k := 117) (words := 12) (shape_at 117) h h4 hw
theorem lies_MLD_KEY_PROG_DATA (h : K.testBit 181 = true) : lies R.MLD_KEY_PROG_DATA K := lies_MLD_KEY_PROG_DATA_at (w := 0) h (by decide) (by decide)
theorem lies_MLD_KEY_PROG_DATA_words (h : K.testBit 181 = true) {n : Nat} (hn : n ≤ 12) (m : Nat) (hm : m < n) : lies (R.MLD_KEY_PROG_DATA + 4 * m) K :=
  lies_MLD_KEY_PROG_DATA_at h (by omega) (by omega)
theorem lies_MLD_KEY_PROG_CTL (h : K.testBit 182 = true) : lies R.MLD_KEY_PROG_CTL K :=
  lies_one (k := 118) (words := 1) (shape_at 118) h (w := 0) (by decide) (by decide)
theorem lies_MLD_GOV_TXEN_at (h : K.testBit 183 = true) (h4 : w % 4 = 0) (hw : w < 8) : lies (R.MLD_GOV_TXEN + w) K :=
  lies_one (k := 119) (words := 2) (shape_at 119) h h4 hw
theorem lies_MLD_GOV_TXEN (h : K.testBit 183 = true) : lies R.MLD_GOV_TXEN K := lies_MLD_GOV_TXEN_at (w := 0) h (by decide) (by decide)
theorem lies_MLD_GOV_TXEN_words (h : K.testBit 183 = true) {n : Nat} (hn : n ≤ 2) (m : Nat) (hm : m < n) : lies (R.MLD_GOV_TXEN + 4 * m) K :=
  lies_MLD_GOV_TXEN_at h (by omega) (by omega)
theorem lies_MLD_GOV_AMP (h : K.testBit 184 = true) : lies (R.MLD_GOV_AMP i) K :=
  lies_at1 (k := 120) (words := 1) (shape_at 120) h (w := 0) (by decide) (by decide) (by decide)
theorem lies_MLD_GOV_WAKE (h : K.testBit 185 = true) : lies R.MLD_GOV_WAKE K :=
  lies_one (k := 121) (words := 1) (shape_at 121) h (w := 0) (by decide) (by decide)
theorem lies_MLD_GOV_TIME (h : K.testBit 186 = true) : lies R.MLD_GOV_TIME K :=
  lies_one (k := 122) (words := 1) (shape_at 122) h (w := 0) (by decide) (by decide)
theorem lies_MLD_GOV_STEP (h : K.testBit 187 = true) : lies R.MLD_GOV_STEP K :=
  lies_one (k := 123) (words := 1) (shape_at 123) h (w := 0) (by decide) (by decide)
theorem lies_MLD_GOV_CLAMP_COUNT (h : K.testBit 188 = true) : lies R.MLD_GOV_CLAMP_COUNT K :=
  lies_one (k := 124) (words := 1) (shape_at 124) h (w := 0) (by decide) (by decide)
theorem lies_MLD_GOV_WIN_BASE_at (h : K.testBit 189 = true) (h4 : w % 4 = 0) (hw : w < 8) : lies (R.MLD_GOV_WIN_BASE i j + w) K :=
  lies_at2 (k := 125) (words := 2) (shape_at 125) h h4 hw (by decide) (by decide)
theorem lies_MLD_GOV_WIN_BASE (h : K.testBit 189 = true) : lies (R.MLD_GOV_WIN_BASE i j) K := lies_MLD_GOV_WIN_BASE_at (w := 0) h (by decide) (by decide)
theorem lies_MLD_GOV_WIN_BASE_words (h : K.testBit 189 = true) {n : Nat} (hn : n ≤ 2) (m : Nat) (hm : m < n) : lies (R.MLD_GOV_WIN_BASE i j + 4 * m) K :=
  lies_MLD_GOV_WIN_BASE_at h (by omega) (by omega)
theorem lies_MLD_GOV_WIN_LIMIT_at (h : K.testBit 190 = true) (h4 : w % 4 = 0) (hw : w < 8) : lies (R.MLD_GOV_WIN_LIMIT i j + w) K :=
  lies_at2 (k := 126) (words := 2) (shape_at 126) h h4 hw (by decide) (by decide)
theorem lies_MLD_GOV_WIN_LIMIT (h : K.testBit 190 = true) : lies (R.MLD_GOV_WIN_LIMIT i j) K := lies_MLD_GOV_WIN_LIMIT_at (w := 0) h (by decide) (by decide)
theorem lies_MLD_GOV_WIN_LIMIT_words (h : K.testBit 190 = true) {n : Nat} (hn : n ≤ 2) (m : Nat) (hm : m < n) : lies (R.MLD_GOV_WIN_LIMIT i j + 4 * m) K :=
  lies_MLD_GOV_WIN_LIMIT_at h (by omega) (by omega)
theorem lies_MLD_GOV_WIN_FLAGS (h : K.testBit 191 = true) : lies (R.MLD_GOV_WIN_FLAGS i j) K :=
  lies_at2 (k := 127) (words := 1) (shape_at 127) h (w := 0) (by decide) (by decide) (by decide) (by decide)
theorem lies_MLD_GOV_WIN_RSV (h : K.testBit 192 = true) : lies (R.MLD_GOV_WIN_RSV i j) K :=
  lies_at2 (k := 128) (words := 1) (shape_at 128) h (w := 0) (by decide) (by decide) (by decide) (by decide)
theorem lies_FUR_QTR_STAT (h : K.testBit 193 = true) : lies (R.FUR_QTR_STAT i) K :=
  lies_at1 (k := 129) (words := 1) (shape_at 129) h (w := 0) (by decide) (by decide) (by decide)
theorem lies_FUR_QTR_SPARE (h : K.testBit 194 = true) : lies (R.FUR_QTR_SPARE i) K :=
  lies_at1 (k := 130) (words := 1) (shape_at 130) h (w := 0) (by decide) (by decide) (by decide)
theorem lies_FUR_QTR_DEAD (h : K.testBit 195 = true) : lies (R.FUR_QTR_DEAD i) K :=
  lies_at1 (k := 131) (words := 1) (shape_at 131) h (w := 0) (by decide) (by decide) (by decide)
theorem lies_FUR_QTR_STORE (h : K.testBit 196 = true) : lies (R.FUR_QTR_STORE i) K :=
  lies_at1 (k := 132) (words := 1) (shape_at 132) h (w := 0) (by decide) (by decide) (by decide)
theorem lies_FUR_SELFTEST (h : K.testBit 197 = true) : lies R.FUR_SELFTEST K :=
  lies_one (k := 133) (words := 1) (shape_at 133) h (w := 0) (by decide) (by decide)
theorem lies_FUR_EVENT (h : K.testBit 198 = true) : lies R.FUR_EVENT K :=
  lies_one (k := 134) (words := 1) (shape_at 134) h (w := 0) (by decide) (by decide)
theorem lies_FUR_EVENT_MASK (h : K.testBit 199 = true) : lies R.FUR_EVENT_MASK K :=
  lies_one (k := 135) (words := 1) (shape_at 135) h (w := 0) (by decide) (by decide)
theorem lies_FUR_PSLOT (h : K.testBit 200 = true) : lies (R.FUR_PSLOT i) K :=
  lies_at1 (k := 136) (words := 1) (shape_at 136) h (w := 0) (by decide) (by decide) (by decide)
theorem lies_FUR_PUSE (h : K.testBit 201 = true) : lies (R.FUR_PUSE i) K :=
  lies_at1 (k := 137) (words := 1) (shape_at 137) h (w := 0) (by decide) (by decide) (by decide)
theorem lies_FUR_ADAPT (h : K.testBit 202 = true) : lies (R.FUR_ADAPT i) K :=
  lies_at1 (k := 138) (words := 1) (shape_at 138) h (w := 0) (by decide) (by decide) (by decide)
theorem lies_FUR_RETURN (h : K.testBit 203 = true) : lies (R.FUR_RETURN i) K :=
  lies_at1 (k := 139) (words := 1) (shape_at 139) h (w := 0) (by decide) (by decide) (by decide)
theorem lies_POT_STAT (h : K.testBit 204 = true) : lies (R.POT_STAT i) K :=
  lies_at1 (k := 140) (words := 1) (shape_at 140) h (w := 0) (by decide) (by decide) (by decide)
theorem lies_POT_ECC (h : K.testBit 205 = true) : lies (R.POT_ECC i) K :=
  lies_at1 (k := 141) (words := 1) (shape_at 141) h (w := 0) (by decide) (by decide) (by decide)
theorem lies_FUR_SLOT (h : K.testBit 206 = true) : lies (R.FUR_SLOT i) K :=
  lies_at1 (k := 142) (words := 1) (shape_at 142) h (w := 0) (by decide) (by decide) (by decide)
theorem lies_CAL_CFG (h : K.testBit 207 = true) : lies R.CAL_CFG K :=
  lies_one (k := 143) (words := 1) (shape_at 143) h (w := 0) (by decide) (by decide)
theorem lies_CAL_STAT (h : K.testBit 208 = true) : lies R.CAL_STAT K :=
  lies_one (k := 144) (words := 1) (shape_at 144) h (w := 0) (by decide) (by decide)
theorem lies_CAL_ATTIC_GEN (h : K.testBit 209 = true) : lies R.CAL_ATTIC_GEN K :=
  lies_one (k := 145) (words := 1) (shape_at 145) h (w := 0) (by decide) (by decide)
theorem lies_CAL_ATTIC_CTL (h : K.testBit 210 = true) : lies R.CAL_ATTIC_CTL K :=
  lies_one (k := 146) (words := 1) (shape_at 146) h (w := 0) (by decide) (by decide)
theorem lies_CAL_BANDGAP (h : K.testBit 211 = true) : lies R.CAL_BANDGAP K :=
  lies_one (k := 147) (words := 1) (shape_at 147) h (w := 0) (by decide) (by decide)
theorem lies_CAL_REJECTS (h : K.testBit 212 = true) : lies R.CAL_REJECTS K :=
  lies_one (k := 148) (words := 1) (shape_at 148) h (w := 0) (by decide) (by decide)
theorem lies_CAL_EVENT (h : K.testBit 213 = true) : lies R.CAL_EVENT K :=
  lies_one (k := 149) (words := 1) (shape_at 149) h (w := 0) (by decide) (by decide)
theorem lies_CAL_EVENT_MASK (h : K.testBit 214 = true) : lies R.CAL_EVENT_MASK K :=
  lies_one (k := 150) (words := 1) (shape_at 150) h (w := 0) (by decide) (by decide)
theorem lies_CAL_ELEM_SEL (h : K.testBit 215 = true) : lies R.CAL_ELEM_SEL K :=
  lies_one (k := 151) (words := 1) (shape_at 151) h (w := 0) (by decide) (by decide)
theorem lies_CAL_ELEM_DATA (h : K.testBit 216 = true) : lies R.CAL_ELEM_DATA K :=
  lies_one (k := 152) (words := 1) (shape_at 152) h (w := 0) (by decide) (by decide)
theorem lies_CAL_PORT_CTL (h : K.testBit 217 = true) : lies (R.CAL_PORT_CTL i) K :=
  lies_at1 (k := 153) (words := 1) (shape_at 153) h (w := 0) (by decide) (by decide) (by decide)
theorem lies_CAL_PORT_STAT (h : K.testBit 218 = true) : lies (R.CAL_PORT_STAT i) K :=
  lies_at1 (k := 154) (words := 1) (shape_at 154) h (w := 0) (by decide) (by decide) (by decide)
theorem lies_CAL_PORT_QUAL (h : K.testBit 219 = true) : lies (R.CAL_PORT_QUAL i) K :=
  lies_at1 (k := 155) (words := 1) (shape_at 155) h (w := 0) (by decide) (by decide) (by decide)
theorem lies_CAL_PORT_TIME (h : K.testBit 220 = true) : lies (R.CAL_PORT_TIME i) K :=
  lies_at1 (k := 156) (words := 1) (shape_at 156) h (w := 0) (by decide) (by decide) (by decide)
theorem lies_DIAG_LEDGER_STAT (h : K.testBit 221 = true) : lies R.DIAG_LEDGER_STAT K :=
  lies_one (k := 157) (words := 1) (shape_at 157) h (w := 0) (by decide) (by decide)
theorem lies_DIAG_FLASH_BOOK (h : K.testBit 222 = true) : lies R.DIAG_FLASH_BOOK K :=
  lies_one (k := 158) (words := 1) (shape_at 158) h (w := 0) (by decide) (by decide)
theorem lies_DIAG_EVENT (h : K.testBit 223 = true) : lies R.DIAG_EVENT K :=
  lies_one (k := 159) (words := 1) (shape_at 159) h (w := 0) (by decide) (by decide)
theorem lies_DIAG_EVENT_MASK (h : K.testBit 224 = true) : lies R.DIAG_EVENT_MASK K :=
  lies_one (k := 160) (words := 1) (shape_at 160) h (w := 0) (by decide) (by decide)
theorem lies_DIAG_TDR_CFG (h : K.testBit 225 = true) : lies R.DIAG_TDR_CFG K :=
  lies_one (k := 161) (words := 1) (shape_at 161) h (w := 0) (by decide) (by decide)
theorem lies_DIAG_FP_CFG (h : K.testBit 226 = true) : lies R.DIAG_FP_CFG K :=
  lies_one (k := 162) (words := 1) (shape_at 162) h (w := 0) (by decide) (by decide)
theorem lies_DIAG_IL_CFG (h : K.testBit 227 = true) : lies R.DIAG_IL_CFG K :=
  lies_one (k := 163) (words := 1) (shape_at 163) h (w := 0) (by decide) (by decide)
theorem lies_DIAG_SWEEP_CTL (h : K.testBit 228 = true) : lies R.DIAG_SWEEP_CTL K :=
  lies_one (k := 164) (words := 1) (shape_at 164) h (w := 0) (by decide) (by decide)
theorem lies_DIAG_SWEEP_SET_LO (h : K.testBit 229 = true) : lies R.DIAG_SWEEP_SET_LO K :=
  lies_one (k := 165) (words := 1) (shape_at 165) h (w := 0) (by decide) (by decide)
theorem lies_DIAG_SWEEP_SET_HI (h : K.testBit 230 = true) : lies R.DIAG_SWEEP_SET_HI K :=
  lies_one (k := 166) (words := 1) (shape_at 166) h (w := 0) (by decide) (by decide)
theorem lies_DIAG_SWEEP_CFG (h : K.testBit 231 = true) : lies R.DIAG_SWEEP_CFG K :=
  lies_one (k := 167) (words := 1) (shape_at 167) h (w := 0) (by decide) (by decide)
theorem lies_DIAG_SWEEP_STAT (h : K.testBit 232 = true) : lies R.DIAG_SWEEP_STAT K :=
  lies_one (k := 168) (words := 1) (shape_at 168) h (w := 0) (by decide) (by decide)
theorem lies_DIAG_BOOK_at (h : K.testBit 233 = true) (h4 : w % 4 = 0) (hw : w < 8) : lies (R.DIAG_BOOK i + w) K :=
  lies_at1 (k := 169) (words := 2) (shape_at 169) h h4 hw (by decide)
theorem lies_DIAG_BOOK (h : K.testBit 233 = true) : lies (R.DIAG_BOOK i) K := lies_DIAG_BOOK_at (w := 0) h (by decide) (by decide)
theorem lies_DIAG_BOOK_words (h : K.testBit 233 = true) {n : Nat} (hn : n ≤ 2) (m : Nat) (hm : m < n) : lies (R.DIAG_BOOK i + 4 * m) K :=
  lies_DIAG_BOOK_at h (by omega) (by omega)
theorem lies_DIAG_QUEUE_at (h : K.testBit 234 = true) (h4 : w % 4 = 0) (hw : w < 8) : lies (R.DIAG_QUEUE i + w) K :=
  lies_at1 (k := 170) (words := 2) (shape_at 170) h h4 hw (by decide)
theorem lies_DIAG_QUEUE (h : K.testBit 234 = true) : lies (R.DIAG_QUEUE i) K := lies_DIAG_QUEUE_at (w := 0) h (by decide) (by decide)
theorem lies_DIAG_QUEUE_words (h : K.testBit 234 = true) {n : Nat} (hn : n ≤ 2) (m : Nat) (hm : m < n) : lies (R.DIAG_QUEUE i + 4 * m) K :=
  lies_DIAG_QUEUE_at h (by omega) (by omega)
theorem lies_DIAG_MAP_at (h : K.testBit 235 = true) (h4 : w % 4 = 0) (hw : w < 8) : lies (R.DIAG_MAP i + w) K :=
  lies_at1 (k := 171) (words := 2) (shape_at 171) h h4 hw (by decide)
theorem lies_DIAG_MAP (h : K.testBit 235 = true) : lies (R.DIAG_MAP i) K := lies_DIAG_MAP_at (w := 0) h (by decide) (by decide)
theorem lies_DIAG_MAP_words (h : K.testBit 235 = true) {n : Nat} (hn : n ≤ 2) (m : Nat) (hm : m < n) : lies (R.DIAG_MAP i + 4 * m) K :=
  lies_DIAG_MAP_at h (by omega) (by omega)
theorem lies_DIAG_TDR_CTL (h : K.testBit 236 = true) : lies (R.DIAG_TDR_CTL i) K :=
  lies_at1 (k := 172) (words := 1) (shape_at 172) h (w := 0) (by decide) (by decide) (by decide)
theorem lies_DIAG_TDR_STAT (h : K.testBit 237 = true) : lies (R.DIAG_TDR_STAT i) K :=
  lies_at1 (k := 173) (words := 1) (shape_at 173) h (w := 0) (by decide) (by decide) (by decide)
theorem lies_DIAG_TDR_EVT (h : K.testBit 238 = true) : lies (R.DIAG_TDR_EVT i j) K :=
  lies_at2 (k := 174) (words := 1) (shape_at 174) h (w := 0) (by decide) (by decide) (by decide) (by decide)
theorem lies_DIAG_IL (h : K.testBit 239 = true) : lies (R.DIAG_IL i) K :=
  lies_at1 (k := 175) (words := 1) (shape_at 175) h (w := 0) (by decide) (by decide) (by decide)
theorem lies_DIAG_FP_STAT (h : K.testBit 240 = true) : lies (R.DIAG_FP_STAT i) K :=
  lies_at1 (k := 176) (words := 1) (shape_at 176) h (w := 0) (by decide) (by decide) (by decide)
theorem lies_DIAG_FP_CTL (h : K.testBit 241 = true) : lies (R.DIAG_FP_CTL i) K :=
  lies_at1 (k := 177) (words := 1) (shape_at 177) h (w := 0) (by decide) (by decide) (by decide)
theorem lies_MDMA_STAT (h : K.testBit 242 = true) : lies R.MDMA_STAT K :=
  lies_one (k := 178) (words := 1) (shape_at 178) h (w := 0) (by decide) (by decide)
theorem lies_MCH_CTL (h : K.testBit 243 = true) : lies (R.MCH_CTL i) K :=
  lies_at1 (k := 179) (words := 1) (shape_at 179) h (w := 0) (by decide) (by decide) (by decide)
theorem lies_MCH_DOORBELL (h : K.testBit 244 = true) : lies (R.MCH_DOORBELL i) K :=
  lies_at1 (k := 180) (words := 1) (shape_at 180) h (w := 0) (by decide) (by decide) (by decide)
theorem lies_MCH_CFG (h : K.testBit 245 = true) : lies (R.MCH_CFG i) K :=
  lies_at1 (k := 181) (words := 1) (shape_at 181) h (w := 0) (by decide) (by decide) (by decide)
theorem lies_MCH_HOP_MAX (h : K.testBit 246 = true) : lies (R.MCH_HOP_MAX i) K :=
  lies_at1 (k := 182) (words := 1) (shape_at 182) h (w := 0) (by decide) (by decide) (by decide)
theorem lies_MCH_FIRST_at (h : K.testBit 247 = true) (h4 : w % 4 = 0) (hw : w < 8) : lies (R.MCH_FIRST i + w) K :=
  lies_at1 (k := 183) (words := 2) (shape_at 183) h h4 hw (by decide)
theorem lies_MCH_FIRST (h : K.testBit 247 = true) : lies (R.MCH_FIRST i) K := lies_MCH_FIRST_at (w := 0) h (by decide) (by decide)
theorem lies_MCH_FIRST_words (h : K.testBit 247 = true) {n : Nat} (hn : n ≤ 2) (m : Nat) (hm : m < n) : lies (R.MCH_FIRST i + 4 * m) K :=
  lies_MCH_FIRST_at h (by omega) (by omega)
theorem lies_MCH_CUR_at (h : K.testBit 248 = true) (h4 : w % 4 = 0) (hw : w < 8) : lies (R.MCH_CUR i + w) K :=
  lies_at1 (k := 184) (words := 2) (shape_at 184) h h4 hw (by decide)
theorem lies_MCH_CUR (h : K.testBit 248 = true) : lies (R.MCH_CUR i) K := lies_MCH_CUR_at (w := 0) h (by decide) (by decide)
theorem lies_MCH_CUR_words (h : K.testBit 248 = true) {n : Nat} (hn : n ≤ 2) (m : Nat) (hm : m < n) : lies (R.MCH_CUR i + 4 * m) K :=
  lies_MCH_CUR_at h (by omega) (by omega)
theorem lies_MCH_STAT (h : K.testBit 249 = true) : lies (R.MCH_STAT i) K :=
  lies_at1 (k := 185) (words := 1) (shape_at 185) h (w := 0) (by decide) (by decide) (by decide)
theorem lies_MCH_HOPS (h : K.testBit 250 = true) : lies (R.MCH_HOPS i) K :=
  lies_at1 (k := 186) (words := 1) (shape_at 186) h (w := 0) (by decide) (by decide) (by decide)
theorem lies_MCH_REMAIN (h : K.testBit 251 = true) : lies (R.MCH_REMAIN i) K :=
  lies_at1 (k := 187) (words := 1) (shape_at 187) h (w := 0) (by decide) (by decide) (by decide)
theorem lies_MCH_DONE_at (h : K.testBit 252 = true) (h4 : w % 4 = 0) (hw : w < 8) : lies (R.MCH_DONE i + w) K :=
  lies_at1 (k := 188) (words := 2) (shape_at 188) h h4 hw (by decide)
theorem lies_MCH_DONE (h : K.testBit 252 = true) : lies (R.MCH_DONE i) K := lies_MCH_DONE_at (w := 0) h (by decide) (by decide)
theorem lies_MCH_DONE_words (h : K.testBit 252 = true) {n : Nat} (hn : n ≤ 2) (m : Nat) (hm : m < n) : lies (R.MCH_DONE i + 4 * m) K :=
  lies_MCH_DONE_at h (by omega) (by omega)
theorem lies_MCH_BYTES_at (h : K.testBit 253 = true) (h4 : w % 4 = 0) (hw : w < 8) : lies (R.MCH_BYTES i + w) K :=
  lies_at1 (k := 189) (words := 2) (shape_at 189) h h4 hw (by decide)
theorem lies_MCH_BYTES (h : K.testBit 253 = true) : lies (R.MCH_BYTES i) K := lies_MCH_BYTES_at (w := 0) h (by decide) (by decide)
theorem lies_MCH_BYTES_words (h : K.testBit 253 = true) {n : Nat} (hn : n ≤ 2) (m : Nat) (hm : m < n) : lies (R.MCH_BYTES i + 4 * m) K :=
  lies_MCH_BYTES_at h (by omega) (by omega)
theorem lies_MCH_IRQ_COUNT (h : K.testBit 254 = true) : lies (R.MCH_IRQ_COUNT i) K :=
  lies_at1 (k := 190) (words := 1) (shape_at 190) h (w := 0) (by decide) (by decide) (by decide)
theorem lies_MCH_CMP_OFS (h : K.testBit 255 = true) : lies (R.MCH_CMP_OFS i) K :=
  lies_at1 (k := 191) (words := 1) (shape_at 191) h (w := 0) (by decide) (by decide) (by decide)
theorem lies_MCH_LAST_BAD_at (h : K.testBit 256 = true) (h4 : w % 4 = 0) (hw : w < 8) : lies (R.MCH_LAST_BAD i + w) K :=
  lies_at1 (k := 192) (words := 2) (shape_at 192) h h4 hw (by decide)
theorem lies_MCH_LAST_BAD (h : K.testBit 256 = true) : lies (R.MCH_LAST_BAD i) K := lies_MCH_LAST_BAD_at (w := 0) h (by decide) (by decide)
theorem lies_MCH_LAST_BAD_words (h : K.testBit 256 = true) {n : Nat} (hn : n ≤ 2) (m : Nat) (hm : m < n) : lies (R.MCH_LAST_BAD i + 4 * m) K :=
  lies_MCH_LAST_BAD_at h (by omega) (by omega)
theorem lies_MCH_EVENT (h : K.testBit 257 = true) : lies (R.MCH_EVENT i) K :=
  lies_at1 (k := 193) (words := 1) (shape_at 193) h (w := 0) (by decide) (by decide) (by decide)
theorem lies_MCH_EVENT_MASK (h : K.testBit 258 = true) : lies (R.MCH_EVENT_MASK i) K :=
  lies_at1 (k := 194) (words := 1) (shape_at 194) h (w := 0) (by decide) (by decide) (by decide)
theorem lies_FSPI_CFG (h : K.testBit 259 = true) : lies R.FSPI_CFG K :=
  lies_one (k := 195) (words := 1) (shape_at 195) h (w := 0) (by decide) (by decide)
theorem lies_FSPI_STAT (h : K.testBit 260 = true) : lies R.FSPI_STAT K :=
  lies_one (k := 196) (words := 1) (shape_at 196) h (w := 0) (by decide) (by decide)
theorem lies_FSPI_CTL (h : K.testBit 261 = true) : lies R.FSPI_CTL K :=
  lies_one (k := 197) (words := 1) (shape_at 197) h (w := 0) (by decide) (by decide)
theorem lies_FSPI_FAIL_CFG (h : K.testBit 262 = true) : lies R.FSPI_FAIL_CFG K :=
  lies_one (k := 198) (words := 1) (shape_at 198) h (w := 0) (by decide) (by decide)
theorem lies_FSPI_ERASE_ADDR (h : K.testBit 263 = true) : lies R.FSPI_ERASE_ADDR K :=
  lies_one (k := 199) (words := 1) (shape_at 199) h (w := 0) (by decide) (by decide)
theorem lies_FSPI_ERASE_CTL (h : K.testBit 264 = true) : lies R.FSPI_ERASE_CTL K :=
  lies_one (k := 200) (words := 1) (shape_at 200) h (w := 0) (by decide) (by decide)
theorem lies_FSPI_CMDS_at (h : K.testBit 265 = true) (h4 : w % 4 = 0) (hw : w < 16) : lies (R.FSPI_CMDS + w) K :=
  lies_one (k := 201) (words := 4) (shape_at 201) h h4 hw
theorem lies_FSPI_CMDS (h : K.testBit 265 = true) : lies R.FSPI_CMDS K := lies_FSPI_CMDS_at (w := 0) h (by decide) (by decide)
theorem lies_FSPI_CMDS_words (h : K.testBit 265 = true) {n : Nat} (hn : n ≤ 4) (m : Nat) (hm : m < n) : lies (R.FSPI_CMDS + 4 * m) K :=
  lies_FSPI_CMDS_at h (by omega) (by omega)
theorem lies_FSPI_EVENT (h : K.testBit 266 = true) : lies R.FSPI_EVENT K :=
  lies_one (k := 202) (words := 1) (shape_at 202) h (w := 0) (by decide) (by decide)
theorem lies_FSPI_EVENT_MASK (h : K.testBit 267 = true) : lies R.FSPI_EVENT_MASK K :=
  lies_one (k := 203) (words := 1) (shape_at 203) h (w := 0) (by decide) (by decide)
theorem lies_HSPI_CFG (h : K.testBit 268 = true) : lies R.HSPI_CFG K :=
  lies_one (k := 204) (words := 1) (shape_at 204) h (w := 0) (by decide) (by decide)
theorem lies_HSPI_LAST (h : K.testBit 269 = true) : lies R.HSPI_LAST K :=
  lies_one (k := 205) (words := 1) (shape_at 205) h (w := 0) (by decide) (by decide)
theorem lies_HSPI_COUNT (h : K.testBit 270 = true) : lies R.HSPI_COUNT K :=
  lies_one (k := 206) (words := 1) (shape_at 206) h (w := 0) (by decide) (by decide)
theorem lies_HSPI_KEVENT (h : K.testBit 271 = true) : lies R.HSPI_KEVENT K :=
  lies_one (k := 207) (words := 1) (shape_at 207) h (w := 0) (by decide) (by decide)
theorem lies_HSPI_KEVENT_MASK (h : K.testBit 272 = true) : lies R.HSPI_KEVENT_MASK K :=
  lies_one (k := 208) (words := 1) (shape_at 208) h (w := 0) (by decide) (by decide)
theorem lies_HSPI_MBX_CTL (h : K.testBit 273 = true) : lies R.HSPI_MBX_CTL K :=
  lies_one (k := 209) (words := 1) (shape_at 209) h (w := 0) (by decide) (by decide)
theorem lies_HSPI_MBX_STAT (h : K.testBit 274 = true) : lies R.HSPI_MBX_STAT K :=
  lies_one (k := 210) (words := 1) (shape_at 210) h (w := 0) (by decide) (by decide)
theorem lies_HSPI_MBX_REQ (h : K.testBit 275 = true) : lies (R.HSPI_MBX_REQ i) K :=
  lies_at1 (k := 211) (words := 1) (shape_at 211) h (w := 0) (by decide) (by decide) (by decide)
theorem lies_HSPI_MBX_RSP (h : K.testBit 276 = true) : lies (R.HSPI_MBX_RSP i) K :=
  lies_at1 (k := 212) (words := 1) (shape_at 212) h (w := 0) (by decide) (by decide) (by decide)
theorem lies_CEL_CFG (h : K.testBit 277 = true) : lies R.CEL_CFG K :=
  lies_one (k := 213) (words := 1) (shape_at 213) h (w := 0) (by decide) (by decide)
theorem lies_CEL_STAT (h : K.testBit 278 = true) : lies R.CEL_STAT K :=
  lies_one (k := 214) (words := 1) (shape_at 214) h (w := 0) (by decide) (by decide)
theorem lies_CEL_RX_USED (h : K.testBit 279 = true) : lies R.CEL_RX_USED K :=
  lies_one (k := 215) (words := 1) (shape_at 215) h (w := 0) (by decide) (by decide)
theorem lies_CEL_TX_USED (h : K.testBit 280 = true) : lies R.CEL_TX_USED K :=
  lies_one (k := 216) (words := 1) (shape_at 216) h (w := 0) (by decide) (by decide)
theorem lies_CEL_HEAD_RX (h : K.testBit 281 = true) : lies (R.CEL_HEAD_RX i) K :=
  lies_at1 (k := 217) (words := 1) (shape_at 217) h (w := 0) (by decide) (by decide) (by decide)
theorem lies_CEL_HEAD_TX (h : K.testBit 282 = true) : lies (R.CEL_HEAD_TX i) K :=
  lies_at1 (k := 218) (words := 1) (shape_at 218) h (w := 0) (by decide) (by decide) (by decide)
theorem lies_CEL_QP_MAX (h : K.testBit 283 = true) : lies R.CEL_QP_MAX K :=
  lies_one (k := 219) (words := 1) (shape_at 219) h (w := 0) (by decide) (by decide)
theorem lies_CEL_DROPS_at (h : K.testBit 284 = true) (h4 : w % 4 = 0) (hw : w < 8) : lies (R.CEL_DROPS i + w) K :=
  lies_at1 (k := 220) (words := 2) (shape_at 220) h h4 hw (by decide)
theorem lies_CEL_DROPS (h : K.testBit 284 = true) : lies (R.CEL_DROPS i) K := lies_CEL_DROPS_at (w := 0) h (by decide) (by decide)
theorem lies_CEL_DROPS_words (h : K.testBit 284 = true) {n : Nat} (hn : n ≤ 2) (m : Nat) (hm : m < n) : lies (R.CEL_DROPS i + 4 * m) K :=
  lies_CEL_DROPS_at h (by omega) (by omega)
theorem lies_CEL_ECC (h : K.testBit 285 = true) : lies R.CEL_ECC K :=
  lies_one (k := 221) (words := 1) (shape_at 221) h (w := 0) (by decide) (by decide)
theorem lies_CEL_EVENT (h : K.testBit 286 = true) : lies R.CEL_EVENT K :=
  lies_one (k := 222) (words := 1) (shape_at 222) h (w := 0) (by decide) (by decide)
theorem lies_CEL_EVENT_MASK (h : K.testBit 287 = true) : lies R.CEL_EVENT_MASK K :=
  lies_one (k := 223) (words := 1) (shape_at 223) h (w := 0) (by decide) (by decide)
theorem lies_PKT_LAT_CFG (h : K.testBit 288 = true) : lies R.PKT_LAT_CFG K :=
  lies_one (k := 224) (words := 1) (shape_at 224) h (w := 0) (by decide) (by decide)
theorem lies_PKT_LAT_MINMAX (h : K.testBit 289 = true) : lies (R.PKT_LAT_MINMAX i) K :=
  lies_at1 (k := 225) (words := 1) (shape_at 225) h (w := 0) (by decide) (by decide) (by decide)
theorem lies_PKT_LAT_OVER (h : K.testBit 290 = true) : lies (R.PKT_LAT_OVER i) K :=
  lies_at1 (k := 226) (words := 1) (shape_at 226) h (w := 0) (by decide) (by decide) (by decide)
theorem lies_PKT_LAT_MEASURED (h : K.testBit 291 = true) : lies (R.PKT_LAT_MEASURED i) K :=
  lies_at1 (k := 227) (words := 1) (shape_at 227) h (w := 0) (by decide) (by decide) (by decide)
theorem lies_PKT_EVENT (h : K.testBit 292 = true) : lies R.PKT_EVENT K :=
  lies_one (k := 228) (words := 1) (shape_at 228) h (w := 0) (by decide) (by decide)
theorem lies_PKT_EVENT_MASK (h : K.testBit 293 = true) : lies R.PKT_EVENT_MASK K :=
  lies_one (k := 229) (words := 1) (shape_at 229) h (w := 0) (by decide) (by decide)
theorem lies_PKT_PORT_DEF (h : K.testBit 294 = true) : lies (R.PKT_PORT_DEF i) K :=
  lies_at1 (k := 230) (words := 1) (shape_at 230) h (w := 0) (by decide) (by decide) (by decide)
theorem lies_PKT_NOMATCH (h : K.testBit 295 = true) : lies (R.PKT_NOMATCH i) K :=
  lies_at1 (k := 231) (words := 1) (shape_at 231) h (w := 0) (by decide) (by decide) (by decide)
theorem lies_PKT_CLS_HIT (h : K.testBit 296 = true) : lies (R.PKT_CLS_HIT i) K :=
  lies_at1 (k := 232) (words := 1) (shape_at 232) h (w := 0) (by decide) (by decide) (by decide)
theorem lies_PKT_CLS_at (h : K.testBit 297 = true) (h4 : w % 4 = 0) (hw : w < 16) : lies (R.PKT_CLS i + w) K :=
  lies_at1 (k := 233) (words := 4) (shape_at 233) h h4 hw (by decide)
theorem lies_PKT_CLS (h : K.testBit 297 = true) : lies (R.PKT_CLS i) K := lies_PKT_CLS_at (w := 0) h (by decide) (by decide)
theorem lies_PKT_CLS_words (h : K.testBit 297 = true) {n : Nat} (hn : n ≤ 4) (m : Nat) (hm : m < n) : lies (R.PKT_CLS i + 4 * m) K :=
  lies_PKT_CLS_at h (by omega) (by omega)
theorem lies_HEAD_STAT (h : K.testBit 298 = true) : lies (R.HEAD_STAT i) K :=
  lies_at1 (k := 234) (words := 1) (shape_at 234) h (w := 0) (by decide) (by decide) (by decide)
theorem lies_HEAD_LANES (h : K.testBit 299 = true) : lies (R.HEAD_LANES i) K :=
  lies_at1 (k := 235) (words := 1) (shape_at 235) h (w := 0) (by decide) (by decide) (by decide)
theorem lies_HEAD_ATTACH (h : K.testBit 300 = true) : lies (R.HEAD_ATTACH i) K :=
  lies_at1 (k := 236) (words := 1) (shape_at 236) h (w := 0) (by decide) (by decide) (by decide)
theorem lies_HEAD_HB_CFG (h : K.testBit 301 = true) : lies (R.HEAD_HB_CFG i) K :=
  lies_at1 (k := 237) (words := 1) (shape_at 237) h (w := 0) (by decide) (by decide) (by decide)
theorem lies_HEAD_HB_KICK (h : K.testBit 302 = true) : lies (R.HEAD_HB_KICK i) K :=
  lies_at1 (k := 238) (words := 1) (shape_at 238) h (w := 0) (by decide) (by decide) (by decide)
theorem lies_HEAD_REQ_CFG (h : K.testBit 303 = true) : lies (R.HEAD_REQ_CFG i) K :=
  lies_at1 (k := 239) (words := 1) (shape_at 239) h (w := 0) (by decide) (by decide) (by decide)
theorem lies_HEAD_REQ_STAT (h : K.testBit 304 = true) : lies (R.HEAD_REQ_STAT i) K :=
  lies_at1 (k := 240) (words := 1) (shape_at 240) h (w := 0) (by decide) (by decide) (by decide)
theorem lies_HEAD_IRQ_CFG (h : K.testBit 305 = true) : lies (R.HEAD_IRQ_CFG i) K :=
  lies_at1 (k := 241) (words := 1) (shape_at 241) h (w := 0) (by decide) (by decide) (by decide)
theorem lies_HEAD_IRQ_SUM_MASK (h : K.testBit 306 = true) : lies (R.HEAD_IRQ_SUM_MASK i) K :=
  lies_at1 (k := 242) (words := 1) (shape_at 242) h (w := 0) (by decide) (by decide) (by decide)
theorem lies_HEAD_IRQ_REARM (h : K.testBit 307 = true) : lies (R.HEAD_IRQ_REARM i) K :=
  lies_at1 (k := 243) (words := 1) (shape_at 243) h (w := 0) (by decide) (by decide) (by decide)
theorem lies_HEAD_ATC_STAT (h : K.testBit 308 = true) : lies (R.HEAD_ATC_STAT i) K :=
  lies_at1 (k := 244) (words := 1) (shape_at 244) h (w := 0) (by decide) (by decide) (by decide)
theorem lies_HEAD_ATC_CTL (h : K.testBit 309 = true) : lies (R.HEAD_ATC_CTL i) K :=
  lies_at1 (k := 245) (words := 1) (shape_at 245) h (w := 0) (by decide) (by decide) (by decide)
theorem lies_HEAD_MEM_REJ (h : K.testBit 310 = true) : lies (R.HEAD_MEM_REJ i) K :=
  lies_at1 (k := 246) (words := 1) (shape_at 246) h (w := 0) (by decide) (by decide) (by decide)
theorem lies_HEAD_EVENT (h : K.testBit 311 = true) : lies (R.HEAD_EVENT i) K :=
  lies_at1 (k := 247) (words := 1) (shape_at 247) h (w := 0) (by decide) (by decide) (by decide)
theorem lies_HEAD_EVENT_MASK (h : K.testBit 312 = true) : lies (R.HEAD_EVENT_MASK i) K :=
  lies_at1 (k := 248) (words := 1) (shape_at 248) h (w := 0) (by decide) (by decide) (by decide)
theorem lies_HEAD_MBX_CTL (h : K.testBit 313 = true) : lies (R.HEAD_MBX_CTL i) K :=
  lies_at1 (k := 249) (words := 1) (shape_at 249) h (w := 0) (by decide) (by decide) (by decide)
theorem lies_HEAD_MBX_STAT (h : K.testBit 314 = true) : lies (R.HEAD_MBX_STAT i) K :=
  lies_at1 (k := 250) (words := 1) (shape_at 250) h (w := 0) (by decide) (by decide) (by decide)
theorem lies_HEAD_MBX_REQ (h : K.testBit 315 = true) : lies (R.HEAD_MBX_REQ i j) K :=
  lies_at2 (k := 251) (words := 1) (shape_at 251) h (w := 0) (by decide) (by decide) (by decide) (by decide)
theorem lies_HEAD_MBX_RSP (h : K.testBit 316 = true) : lies (R.HEAD_MBX_RSP i j) K :=
  lies_at2 (k := 252) (words := 1) (shape_at 252) h (w := 0) (by decide) (by decide) (by decide) (by decide)
theorem lies_BND_CFG (h : K.testBit 317 = true) : lies (R.BND_CFG i) K :=
  lies_at1 (k := 253) (words := 1) (shape_at 253) h (w := 0) (by decide) (by decide) (by decide)
theorem lies_BND_MEMBERS_LO (h : K.testBit 318 = true) : lies (R.BND_MEMBERS_LO i) K :=
  lies_at1 (k := 254) (words := 1) (shape_at 254) h (w := 0) (by decide) (by decide) (by decide)
theorem lies_BND_MEMBERS_HI (h : K.testBit 319 = true) : lies (R.BND_MEMBERS_HI i) K :=
  lies_at1 (k := 255) (words := 1) (shape_at 255) h (w := 0) (by decide) (by decide) (by decide)
theorem lies_BND_STAT (h : K.testBit 320 = true) : lies (R.BND_STAT i) K :=
  lies_at1 (k := 256) (words := 1) (shape_at 256) h (w := 0) (by decide) (by decide) (by decide)
theorem lies_BND_CTL (h : K.testBit 321 = true) : lies (R.BND_CTL i) K :=
  lies_at1 (k := 257) (words := 1) (shape_at 257) h (w := 0) (by decide) (by decide) (by decide)
theorem lies_BND_EVENT (h : K.testBit 322 = true) : lies (R.BND_EVENT i) K :=
  lies_at1 (k := 258) (words := 1) (shape_at 258) h (w := 0) (by decide) (by decide) (by decide)
theorem lies_BND_EVENT_MASK (h : K.testBit 323 = true) : lies (R.BND_EVENT_MASK i) K :=
  lies_at1 (k := 259) (words := 1) (shape_at 259) h (w := 0) (by decide) (by decide) (by decide)
theorem lies_BND_PAIR_CFG (h : K.testBit 324 = true) : lies (R.BND_PAIR_CFG i j) K :=
  lies_at2 (k := 260) (words := 1) (shape_at 260) h (w := 0) (by decide) (by decide) (by decide) (by decide)
theorem lies_BND_PAIR_STAT (h : K.testBit 325 = true) : lies (R.BND_PAIR_STAT i j) K :=
  lies_at2 (k := 261) (words := 1) (shape_at 261) h (w := 0) (by decide) (by decide) (by decide) (by decide)
theorem lies_CANE_CFG (h : K.testBit 326 = true) : lies (R.CANE_CFG i) K :=
  lies_at1 (k := 262) (words := 1) (shape_at 262) h (w := 0) (by decide) (by decide) (by decide)
theorem lies_CANE_CTL (h : K.testBit 327 = true) : lies (R.CANE_CTL i) K :=
  lies_at1 (k := 263) (words := 1) (shape_at 263) h (w := 0) (by decide) (by decide) (by decide)
theorem lies_CANE_STAT (h : K.testBit 328 = true) : lies (R.CANE_STAT i) K :=
  lies_at1 (k := 264) (words := 1) (shape_at 264) h (w := 0) (by decide) (by decide) (by decide)
theorem lies_CANE_SKEW_A (h : K.testBit 329 = true) : lies (R.CANE_SKEW_A i) K :=
  lies_at1 (k := 265) (words := 1) (shape_at 265) h (w := 0) (by decide) (by decide) (by decide)
theorem lies_CANE_SKEW_B (h : K.testBit 330 = true) : lies (R.CANE_SKEW_B i) K :=
  lies_at1 (k := 266) (words := 1) (shape_at 266) h (w := 0) (by decide) (by decide) (by decide)
theorem lies_CANE_EVENT (h : K.testBit 331 = true) : lies (R.CANE_EVENT i) K :=
  lies_at1 (k := 267) (words := 1) (shape_at 267) h (w := 0) (by decide) (by decide) (by decide)
theorem lies_CANE_EVENT_MASK (h : K.testBit 332 = true) : lies (R.CANE_EVENT_MASK i) K :=
  lies_at1 (k := 268) (words := 1) (shape_at 268) h (w := 0) (by decide) (by decide) (by decide)
theorem lies_CANE_LOSS_FRAMES_at (h : K.testBit 333 = true) (h4 : w % 4 = 0) (hw : w < 8) : lies (R.CANE_LOSS_FRAMES i + w) K :=
  lies_at1 (k := 269) (words := 2) (shape_at 269) h h4 hw (by decide)
theorem lies_CANE_LOSS_FRAMES (h : K.testBit 333 = true) : lies (R.CANE_LOSS_FRAMES i) K := lies_CANE_LOSS_FRAMES_at (w := 0) h (by decide) (by decide)
theorem lies_CANE_LOSS_FRAMES_words (h : K.testBit 333 = true) {n : Nat} (hn : n ≤ 2) (m : Nat) (hm : m < n) : lies (R.CANE_LOSS_FRAMES i + 4 * m) K :=
  lies_CANE_LOSS_FRAMES_at h (by omega) (by omega)
theorem lies_CANE_AM_ERR (h : K.testBit 334 = true) : lies (R.CANE_AM_ERR i j) K :=
  lies_at2 (k := 270) (words := 1) (shape_at 270) h (w := 0) (by decide) (by decide) (by decide) (by decide)
theorem lies_WAKE_CFG (h : K.testBit 335 = true) : lies R.WAKE_CFG K :=
  lies_one (k := 271) (words := 1) (shape_at 271) h (w := 0) (by decide) (by decide)
theorem lies_WAKE_IN_CFG (h : K.testBit 336 = true) : lies R.WAKE_IN_CFG K :=
  lies_one (k := 272) (words := 1) (shape_at 272) h (w := 0) (by decide) (by decide)
theorem lies_WAKE_DET_EN_at (h : K.testBit 337 = true) (h4 : w % 4 = 0) (hw : w < 8) : lies (R.WAKE_DET_EN + w) K :=
  lies_one (k := 273) (words := 2) (shape_at 273) h h4 hw
theorem lies_WAKE_DET_EN (h : K.testBit 337 = true) : lies R.WAKE_DET_EN K := lies_WAKE_DET_EN_at (w := 0) h (by decide) (by decide)
theorem lies_WAKE_DET_EN_words (h : K.testBit 337 = true) {n : Nat} (hn : n ≤ 2) (m : Nat) (hm : m < n) : lies (R.WAKE_DET_EN + 4 * m) K :=
  lies_WAKE_DET_EN_at h (by omega) (by omega)
theorem lies_WAKE_PENDING_at (h : K.testBit 338 = true) (h4 : w % 4 = 0) (hw : w < 8) : lies (R.WAKE_PENDING + w) K :=
  lies_one (k := 274) (words := 2) (shape_at 274) h h4 hw
theorem lies_WAKE_PENDING (h : K.testBit 338 = true) : lies R.WAKE_PENDING K := lies_WAKE_PENDING_at (w := 0) h (by decide) (by decide)
theorem lies_WAKE_PENDING_words (h : K.testBit 338 = true) {n : Nat} (hn : n ≤ 2) (m : Nat) (hm : m < n) : lies (R.WAKE_PENDING + 4 * m) K :=
  lies_WAKE_PENDING_at h (by omega) (by omega)
theorem lies_WAKE_CAUSE (h : K.testBit 339 = true) : lies R.WAKE_CAUSE K :=
  lies_one (k := 275) (words := 1) (shape_at 275) h (w := 0) (by decide) (by decide)
theorem lies_WAKE_EVENT (h : K.testBit 340 = true) : lies R.WAKE_EVENT K :=
  lies_one (k := 276) (words := 1) (shape_at 276) h (w := 0) (by decide) (by decide)
theorem lies_WAKE_EVENT_MASK (h : K.testBit 341 = true) : lies R.WAKE_EVENT_MASK K :=
  lies_one (k := 277) (words := 1) (shape_at 277) h (w := 0) (by decide) (by decide)
theorem lies_WAKE_PARK_DET (h : K.testBit 342 = true) : lies (R.WAKE_PARK_DET i) K :=
  lies_at1 (k := 278) (words := 1) (shape_at 278) h (w := 0) (by decide) (by decide) (by decide)
theorem lies_WAKE_PGROUP (h : K.testBit 343 = true) : lies (R.WAKE_PGROUP i) K :=
  lies_at1 (k := 279) (words := 1) (shape_at 279) h (w := 0) (by decide) (by decide) (by decide)
theorem lies_WAKE_TABLE (h : K.testBit 344 = true) : lies (R.WAKE_TABLE i) K :=
  lies_at1 (k := 280) (words := 1) (shape_at 280) h (w := 0) (by decide) (by decide) (by decide)
theorem lies_WAKE_FWD_MASK_at (h : K.testBit 345 = true) (h4 : w % 4 = 0) (hw : w < 8) : lies (R.WAKE_FWD_MASK i + w) K :=
  lies_at1 (k := 281) (words := 2) (shape_at 281) h h4 hw (by decide)
theorem lies_WAKE_FWD_MASK (h : K.testBit 345 = true) : lies (R.WAKE_FWD_MASK i) K := lies_WAKE_FWD_MASK_at (w := 0) h (by decide) (by decide)
theorem lies_WAKE_FWD_MASK_words (h : K.testBit 345 = true) {n : Nat} (hn : n ≤ 2) (m : Nat) (hm : m < n) : lies (R.WAKE_FWD_MASK i + 4 * m) K :=
  lies_WAKE_FWD_MASK_at h (by omega) (by omega)
theorem lies_WAKE_PCOUNT (h : K.testBit 346 = true) : lies (R.WAKE_PCOUNT i) K :=
  lies_at1 (k := 282) (words := 1) (shape_at 282) h (w := 0) (by decide) (by decide) (by decide)
theorem lies_AON_MODE (h : K.testBit 347 = true) : lies R.AON_MODE K :=
  lies_one (k := 283) (words := 1) (shape_at 283) h (w := 0) (by decide) (by decide)
theorem lies_AON_WR_PEND (h : K.testBit 348 = true) : lies R.AON_WR_PEND K :=
  lies_one (k := 284) (words := 1) (shape_at 284) h (w := 0) (by decide) (by decide)
theorem lies_AON_START_CTL (h : K.testBit 349 = true) : lies R.AON_START_CTL K :=
  lies_one (k := 285) (words := 1) (shape_at 285) h (w := 0) (by decide) (by decide)
theorem lies_AON_START_STAT (h : K.testBit 350 = true) : lies R.AON_START_STAT K :=
  lies_one (k := 286) (words := 1) (shape_at 286) h (w := 0) (by decide) (by decide)
theorem lies_AON_START_CFG (h : K.testBit 351 = true) : lies R.AON_START_CFG K :=
  lies_one (k := 287) (words := 1) (shape_at 287) h (w := 0) (by decide) (by decide)
theorem lies_AON_PARK_CFG (h : K.testBit 352 = true) : lies R.AON_PARK_CFG K :=
  lies_one (k := 288) (words := 1) (shape_at 288) h (w := 0) (by decide) (by decide)
theorem lies_AON_SECONDS_at (h : K.testBit 353 = true) (h4 : w % 4 = 0) (hw : w < 8) : lies (R.AON_SECONDS + w) K :=
  lies_one (k := 289) (words := 2) (shape_at 289) h h4 hw
theorem lies_AON_SECONDS (h : K.testBit 353 = true) : lies R.AON_SECONDS K := lies_AON_SECONDS_at (w := 0) h (by decide) (by decide)
theorem lies_AON_SECONDS_words (h : K.testBit 353 = true) {n : Nat} (hn : n ≤ 2) (m : Nat) (hm : m < n) : lies (R.AON_SECONDS + 4 * m) K :=
  lies_AON_SECONDS_at h (by omega) (by omega)
theorem lies_AON_ALARM (h : K.testBit 354 = true) : lies R.AON_ALARM K :=
  lies_one (k := 290) (words := 1) (shape_at 290) h (w := 0) (by decide) (by decide)
theorem lies_AON_ALARM_CTL (h : K.testBit 355 = true) : lies R.AON_ALARM_CTL K :=
  lies_one (k := 291) (words := 1) (shape_at 291) h (w := 0) (by decide) (by decide)
theorem lies_AON_RET_SEAL (h : K.testBit 356 = true) : lies R.AON_RET_SEAL K :=
  lies_one (k := 292) (words := 1) (shape_at 292) h (w := 0) (by decide) (by decide)
theorem lies_AON_FW_GEN (h : K.testBit 357 = true) : lies R.AON_FW_GEN K :=
  lies_one (k := 293) (words := 1) (shape_at 293) h (w := 0) (by decide) (by decide)
theorem lies_AON_SLCK_CFG (h : K.testBit 358 = true) : lies R.AON_SLCK_CFG K :=
  lies_one (k := 294) (words := 1) (shape_at 294) h (w := 0) (by decide) (by decide)
theorem lies_AON_SAFE_STAT (h : K.testBit 359 = true) : lies R.AON_SAFE_STAT K :=
  lies_one (k := 295) (words := 1) (shape_at 295) h (w := 0) (by decide) (by decide)
theorem lies_AON_REACT_RESETS (h : K.testBit 360 = true) : lies R.AON_REACT_RESETS K :=
  lies_one (k := 296) (words := 1) (shape_at 296) h (w := 0) (by decide) (by decide)
theorem lies_AON_RET_CRC (h : K.testBit 361 = true) : lies (R.AON_RET_CRC i) K :=
  lies_at1 (k := 297) (words := 1) (shape_at 297) h (w := 0) (by decide) (by decide) (by decide)
theorem lies_AON_MOULD_DIGEST_at (h : K.testBit 362 = true) (h4 : w % 4 = 0) (hw : w < 48) : lies (R.AON_MOULD_DIGEST + w) K :=
  lies_one (k := 298) (words := 12) (shape_at 298) h h4 hw
theorem lies_AON_MOULD_DIGEST (h : K.testBit 362 = true) : lies R.AON_MOULD_DIGEST K := lies_AON_MOULD_DIGEST_at (w := 0) h (by decide) (by decide)
theorem lies_AON_MOULD_DIGEST_words (h : K.testBit 362 = true) {n : Nat} (hn : n ≤ 12) (m : Nat) (hm : m < n) : lies (R.AON_MOULD_DIGEST + 4 * m) K :=
  lies_AON_MOULD_DIGEST_at h (by omega) (by omega)
theorem lies_PORT_CTL (h : K.testBit 363 = true) : lies (R.PORT_CTL i) K :=
  lies_at1 (k := 299) (words := 1) (shape_at 299) h (w := 0) (by decide) (by decide) (by decide)
theorem lies_PORT_STATE (h : K.testBit 364 = true) : lies (R.PORT_STATE i) K :=
  lies_at1 (k := 300) (words := 1) (shape_at 300) h (w := 0) (by decide) (by decide) (by decide)
theorem lies_PORT_MODE_CFG (h : K.testBit 365 = true) : lies (R.PORT_MODE_CFG i) K :=
  lies_at1 (k := 301) (words := 1) (shape_at 301) h (w := 0) (by decide) (by decide) (by decide)
theorem lies_PORT_ADV (h : K.testBit 366 = true) : lies (R.PORT_ADV i) K :=
  lies_at1 (k := 302) (words := 1) (shape_at 302) h (w := 0) (by decide) (by decide) (by decide)
theorem lies_PORT_TIMERS (h : K.testBit 367 = true) : lies (R.PORT_TIMERS i) K :=
  lies_at1 (k := 303) (words := 1) (shape_at 303) h (w := 0) (by decide) (by decide) (by decide)
theorem lies_PORT_TIMERS2 (h : K.testBit 368 = true) : lies (R.PORT_TIMERS2 i) K :=
  lies_at1 (k := 304) (words := 1) (shape_at 304) h (w := 0) (by decide) (by decide) (by decide)
theorem lies_PORT_TX_AMP (h : K.testBit 369 = true) : lies (R.PORT_TX_AMP i) K :=
  lies_at1 (k := 305) (words := 1) (shape_at 305) h (w := 0) (by decide) (by decide) (by decide)
theorem lies_PORT_LOCAL_ID_at (h : K.testBit 370 = true) (h4 : w % 4 = 0) (hw : w < 8) : lies (R.PORT_LOCAL_ID i + w) K :=
  lies_at1 (k := 306) (words := 2) (shape_at 306) h h4 hw (by decide)
theorem lies_PORT_LOCAL_ID (h : K.testBit 370 = true) : lies (R.PORT_LOCAL_ID i) K := lies_PORT_LOCAL_ID_at (w := 0) h (by decide) (by decide)
theorem lies_PORT_LOCAL_ID_words (h : K.testBit 370 = true) {n : Nat} (hn : n ≤ 2) (m : Nat) (hm : m < n) : lies (R.PORT_LOCAL_ID i + 4 * m) K :=
  lies_PORT_LOCAL_ID_at h (by omega) (by omega)
theorem lies_PORT_PARTNER_ABIL (h : K.testBit 371 = true) : lies (R.PORT_PARTNER_ABIL i) K :=
  lies_at1 (k := 307) (words := 1) (shape_at 307) h (w := 0) (by decide) (by decide) (by decide)
theorem lies_PORT_PARTNER_FLAGS (h : K.testBit 372 = true) : lies (R.PORT_PARTNER_FLAGS i) K :=
  lies_at1 (k := 308) (words := 1) (shape_at 308) h (w := 0) (by decide) (by decide) (by decide)
theorem lies_PORT_PARTNER_ID_at (h : K.testBit 373 = true) (h4 : w % 4 = 0) (hw : w < 8) : lies (R.PORT_PARTNER_ID i + w) K :=
  lies_at1 (k := 309) (words := 2) (shape_at 309) h h4 hw (by decide)
theorem lies_PORT_PARTNER_ID (h : K.testBit 373 = true) : lies (R.PORT_PARTNER_ID i) K := lies_PORT_PARTNER_ID_at (w := 0) h (by decide) (by decide)
theorem lies_PORT_PARTNER_ID_words (h : K.testBit 373 = true) {n : Nat} (hn : n ≤ 2) (m : Nat) (hm : m < n) : lies (R.PORT_PARTNER_ID i + 4 * m) K :=
  lies_PORT_PARTNER_ID_at h (by omega) (by omega)
theorem lies_PORT_PARTNER_REF_ABIL (h : K.testBit 374 = true) : lies (R.PORT_PARTNER_REF_ABIL i) K :=
  lies_at1 (k := 310) (words := 1) (shape_at 310) h (w := 0) (by decide) (by decide) (by decide)
theorem lies_PORT_PARTNER_REF_FLAGS (h : K.testBit 375 = true) : lies (R.PORT_PARTNER_REF_FLAGS i) K :=
  lies_at1 (k := 311) (words := 1) (shape_at 311) h (w := 0) (by decide) (by decide) (by decide)
theorem lies_PORT_PARTNER_REF_ID_at (h : K.testBit 376 = true) (h4 : w % 4 = 0) (hw : w < 8) : lies (R.PORT_PARTNER_REF_ID i + w) K :=
  lies_at1 (k := 312) (words := 2) (shape_at 312) h h4 hw (by decide)
theorem lies_PORT_PARTNER_REF_ID (h : K.testBit 376 = true) : lies (R.PORT_PARTNER_REF_ID i) K := lies_PORT_PARTNER_REF_ID_at (w := 0) h (by decide) (by decide)
theorem lies_PORT_PARTNER_REF_ID_words (h : K.testBit 376 = true) {n : Nat} (hn : n ≤ 2) (m : Nat) (hm : m < n) : lies (R.PORT_PARTNER_REF_ID i + 4 * m) K :=
  lies_PORT_PARTNER_REF_ID_at h (by omega) (by omega)
theorem lies_PORT_LINK_QUAL (h : K.testBit 377 = true) : lies (R.PORT_LINK_QUAL i) K :=
  lies_at1 (k := 313) (words := 1) (shape_at 313) h (w := 0) (by decide) (by decide) (by decide)
theorem lies_PORT_QUAL_CFG (h : K.testBit 378 = true) : lies (R.PORT_QUAL_CFG i) K :=
  lies_at1 (k := 314) (words := 1) (shape_at 314) h (w := 0) (by decide) (by decide) (by decide)
theorem lies_PORT_MSE_REF (h : K.testBit 379 = true) : lies (R.PORT_MSE_REF i) K :=
  lies_at1 (k := 315) (words := 1) (shape_at 315) h (w := 0) (by decide) (by decide) (by decide)
theorem lies_PORT_FEC_CORR_at (h : K.testBit 380 = true) (h4 : w % 4 = 0) (hw : w < 8) : lies (R.PORT_FEC_CORR i + w) K :=
  lies_at1 (k := 316) (words := 2) (shape_at 316) h h4 hw (by decide)
theorem lies_PORT_FEC_CORR (h : K.testBit 380 = true) : lies (R.PORT_FEC_CORR i) K := lies_PORT_FEC_CORR_at (w := 0) h (by decide) (by decide)
theorem lies_PORT_FEC_CORR_words (h : K.testBit 380 = true) {n : Nat} (hn : n ≤ 2) (m : Nat) (hm : m < n) : lies (R.PORT_FEC_CORR i + 4 * m) K :=
  lies_PORT_FEC_CORR_at h (by omega) (by omega)
theorem lies_PORT_FEC_UNCORR_at (h : K.testBit 381 = true) (h4 : w % 4 = 0) (hw : w < 8) : lies (R.PORT_FEC_UNCORR i + w) K :=
  lies_at1 (k := 317) (words := 2) (shape_at 317) h h4 hw (by decide)
theorem lies_PORT_FEC_UNCORR (h : K.testBit 381 = true) : lies (R.PORT_FEC_UNCORR i) K := lies_PORT_FEC_UNCORR_at (w := 0) h (by decide) (by decide)
theorem lies_PORT_FEC_UNCORR_words (h : K.testBit 381 = true) {n : Nat} (hn : n ≤ 2) (m : Nat) (hm : m < n) : lies (R.PORT_FEC_UNCORR i + 4 * m) K :=
  lies_PORT_FEC_UNCORR_at h (by omega) (by omega)
theorem lies_PORT_DROP_COUNT (h : K.testBit 382 = true) : lies (R.PORT_DROP_COUNT i) K :=
  lies_at1 (k := 318) (words := 1) (shape_at 318) h (w := 0) (by decide) (by decide) (by decide)
theorem lies_PORT_DROP_HIST_IDX (h : K.testBit 383 = true) : lies (R.PORT_DROP_HIST_IDX i) K :=
  lies_at1 (k := 319) (words := 1) (shape_at 319) h (w := 0) (by decide) (by decide) (by decide)
theorem lies_PORT_DROP_HIST_at (h : K.testBit 384 = true) (h4 : w % 4 = 0) (hw : w < 16) : lies (R.PORT_DROP_HIST i j + w) K :=
  lies_at2 (k := 320) (words := 4) (shape_at 320) h h4 hw (by decide) (by decide)
theorem lies_PORT_DROP_HIST (h : K.testBit 384 = true) : lies (R.PORT_DROP_HIST i j) K := lies_PORT_DROP_HIST_at (w := 0) h (by decide) (by decide)
theorem lies_PORT_DROP_HIST_words (h : K.testBit 384 = true) {n : Nat} (hn : n ≤ 4) (m : Nat) (hm : m < n) : lies (R.PORT_DROP_HIST i j + 4 * m) K :=
  lies_PORT_DROP_HIST_at h (by omega) (by omega)
theorem lies_PORT_EVENT (h : K.testBit 385 = true) : lies (R.PORT_EVENT i) K :=
  lies_at1 (k := 321) (words := 1) (shape_at 321) h (w := 0) (by decide) (by decide) (by decide)
theorem lies_PORT_EVENT_MASK (h : K.testBit 386 = true) : lies (R.PORT_EVENT_MASK i) K :=
  lies_at1 (k := 322) (words := 1) (shape_at 322) h (w := 0) (by decide) (by decide) (by decide)
theorem lies_PORT_MAC_CFG (h : K.testBit 387 = true) : lies (R.PORT_MAC_CFG i) K :=
  lies_at1 (k := 323) (words := 1) (shape_at 323) h (w := 0) (by decide) (by decide) (by decide)
theorem lies_PORT_RX_FRAMES_at (h : K.testBit 388 = true) (h4 : w % 4 = 0) (hw : w < 8) : lies (R.PORT_RX_FRAMES i + w) K :=
  lies_at1 (k := 324) (words := 2) (shape_at 324) h h4 hw (by decide)
theorem lies_PORT_RX_FRAMES (h : K.testBit 388 = true) : lies (R.PORT_RX_FRAMES i) K := lies_PORT_RX_FRAMES_at (w := 0) h (by decide) (by decide)
theorem lies_PORT_RX_FRAMES_words (h : K.testBit 388 = true) {n : Nat} (hn : n ≤ 2) (m : Nat) (hm : m < n) : lies (R.PORT_RX_FRAMES i + 4 * m) K :=
  lies_PORT_RX_FRAMES_at h (by omega) (by omega)
theorem lies_PORT_RX_BYTES_at (h : K.testBit 389 = true) (h4 : w % 4 = 0) (hw : w < 8) : lies (R.PORT_RX_BYTES i + w) K :=
  lies_at1 (k := 325) (words := 2) (shape_at 325) h h4 hw (by decide)
theorem lies_PORT_RX_BYTES (h : K.testBit 389 = true) : lies (R.PORT_RX_BYTES i) K := lies_PORT_RX_BYTES_at (w := 0) h (by decide) (by decide)
theorem lies_PORT_RX_BYTES_words (h : K.testBit 389 = true) {n : Nat} (hn : n ≤ 2) (m : Nat) (hm : m < n) : lies (R.PORT_RX_BYTES i + 4 * m) K :=
  lies_PORT_RX_BYTES_at h (by omega) (by omega)
theorem lies_PORT_RX_FCS_ERR_at (h : K.testBit 390 = true) (h4 : w % 4 = 0) (hw : w < 8) : lies (R.PORT_RX_FCS_ERR i + w) K :=
  lies_at1 (k := 326) (words := 2) (shape_at 326) h h4 hw (by decide)
theorem lies_PORT_RX_FCS_ERR (h : K.testBit 390 = true) : lies (R.PORT_RX_FCS_ERR i) K := lies_PORT_RX_FCS_ERR_at (w := 0) h (by decide) (by decide)
theorem lies_PORT_RX_FCS_ERR_words (h : K.testBit 390 = true) {n : Nat} (hn : n ≤ 2) (m : Nat) (hm : m < n) : lies (R.PORT_RX_FCS_ERR i + 4 * m) K :=
  lies_PORT_RX_FCS_ERR_at h (by omega) (by omega)
theorem lies_PORT_RX_RUNT_at (h : K.testBit 391 = true) (h4 : w % 4 = 0) (hw : w < 8) : lies (R.PORT_RX_RUNT i + w) K :=
  lies_at1 (k := 327) (words := 2) (shape_at 327) h h4 hw (by decide)
theorem lies_PORT_RX_RUNT (h : K.testBit 391 = true) : lies (R.PORT_RX_RUNT i) K := lies_PORT_RX_RUNT_at (w := 0) h (by decide) (by decide)
theorem lies_PORT_RX_RUNT_words (h : K.testBit 391 = true) {n : Nat} (hn : n ≤ 2) (m : Nat) (hm : m < n) : lies (R.PORT_RX_RUNT i + 4 * m) K :=
  lies_PORT_RX_RUNT_at h (by omega) (by omega)
theorem lies_PORT_RX_OVERSIZE_at (h : K.testBit 392 = true) (h4 : w % 4 = 0) (hw : w < 8) : lies (R.PORT_RX_OVERSIZE i + w) K :=
  lies_at1 (k := 328) (words := 2) (shape_at 328) h h4 hw (by decide)
theorem lies_PORT_RX_OVERSIZE (h : K.testBit 392 = true) : lies (R.PORT_RX_OVERSIZE i) K := lies_PORT_RX_OVERSIZE_at (w := 0) h (by decide) (by decide)
theorem lies_PORT_RX_OVERSIZE_words (h : K.testBit 392 = true) {n : Nat} (hn : n ≤ 2) (m : Nat) (hm : m < n) : lies (R.PORT_RX_OVERSIZE i + 4 * m) K :=
  lies_PORT_RX_OVERSIZE_at h (by omega) (by omega)
theorem lies_PORT_RX_ORPHAN_DROP_at (h : K.testBit 393 = true) (h4 : w % 4 = 0) (hw : w < 8) : lies (R.PORT_RX_ORPHAN_DROP i + w) K :=
  lies_at1 (k := 329) (words := 2) (shape_at 329) h h4 hw (by decide)
theorem lies_PORT_RX_ORPHAN_DROP (h : K.testBit 393 = true) : lies (R.PORT_RX_ORPHAN_DROP i) K := lies_PORT_RX_ORPHAN_DROP_at (w := 0) h (by decide) (by decide)
theorem lies_PORT_RX_ORPHAN_DROP_words (h : K.testBit 393 = true) {n : Nat} (hn : n ≤ 2) (m : Nat) (hm : m < n) : lies (R.PORT_RX_ORPHAN_DROP i + 4 * m) K :=
  lies_PORT_RX_ORPHAN_DROP_at h (by omega) (by omega)
theorem lies_PORT_RX_PAUSE_at (h : K.testBit 394 = true) (h4 : w % 4 = 0) (hw : w < 8) : lies (R.PORT_RX_PAUSE i + w) K :=
  lies_at1 (k := 330) (words := 2) (shape_at 330) h h4 hw (by decide)
theorem lies_PORT_RX_PAUSE (h : K.testBit 394 = true) : lies (R.PORT_RX_PAUSE i) K := lies_PORT_RX_PAUSE_at (w := 0) h (by decide) (by decide)
theorem lies_PORT_RX_PAUSE_words (h : K.testBit 394 = true) {n : Nat} (hn : n ≤ 2) (m : Nat) (hm : m < n) : lies (R.PORT_RX_PAUSE i + 4 * m) K :=
  lies_PORT_RX_PAUSE_at h (by omega) (by omega)
theorem lies_PORT_TX_FRAMES_at (h : K.testBit 395 = true) (h4 : w % 4 = 0) (hw : w < 8) : lies (R.PORT_TX_FRAMES i + w) K :=
  lies_at1 (k := 331) (words := 2) (shape_at 331) h h4 hw (by decide)
theorem lies_PORT_TX_FRAMES (h : K.testBit 395 = true) : lies (R.PORT_TX_FRAMES i) K := lies_PORT_TX_FRAMES_at (w := 0) h (by decide) (by decide)
theorem lies_PORT_TX_FRAMES_words (h : K.testBit 395 = true) {n : Nat} (hn : n ≤ 2) (m : Nat) (hm : m < n) : lies (R.PORT_TX_FRAMES i + 4 * m) K :=
  lies_PORT_TX_FRAMES_at h (by omega) (by omega)
theorem lies_PORT_TX_BYTES_at (h : K.testBit 396 = true) (h4 : w % 4 = 0) (hw : w < 8) : lies (R.PORT_TX_BYTES i + w) K :=
  lies_at1 (k := 332) (words := 2) (shape_at 332) h h4 hw (by decide)
theorem lies_PORT_TX_BYTES (h : K.testBit 396 = true) : lies (R.PORT_TX_BYTES i) K := lies_PORT_TX_BYTES_at (w := 0) h (by decide) (by decide)
theorem lies_PORT_TX_BYTES_words (h : K.testBit 396 = true) {n : Nat} (hn : n ≤ 2) (m : Nat) (hm : m < n) : lies (R.PORT_TX_BYTES i + 4 * m) K :=
  lies_PORT_TX_BYTES_at h (by omega) (by omega)
theorem lies_PORT_TX_OVERSIZE_at (h : K.testBit 397 = true) (h4 : w % 4 = 0) (hw : w < 8) : lies (R.PORT_TX_OVERSIZE i + w) K :=
  lies_at1 (k := 333) (words := 2) (shape_at 333) h h4 hw (by decide)
theorem lies_PORT_TX_OVERSIZE (h : K.testBit 397 = true) : lies (R.PORT_TX_OVERSIZE i) K := lies_PORT_TX_OVERSIZE_at (w := 0) h (by decide) (by decide)
theorem lies_PORT_TX_OVERSIZE_words (h : K.testBit 397 = true) {n : Nat} (hn : n ≤ 2) (m : Nat) (hm : m < n) : lies (R.PORT_TX_OVERSIZE i + 4 * m) K :=
  lies_PORT_TX_OVERSIZE_at h (by omega) (by omega)
theorem lies_PORT_CNT_CTL (h : K.testBit 398 = true) : lies (R.PORT_CNT_CTL i) K :=
  lies_at1 (k := 334) (words := 1) (shape_at 334) h (w := 0) (by decide) (by decide) (by decide)
theorem lies_PORT_TAP_CTL (h : K.testBit 399 = true) : lies (R.PORT_TAP_CTL i) K :=
  lies_at1 (k := 335) (words := 1) (shape_at 335) h (w := 0) (by decide) (by decide) (by decide)
theorem lies_PORT_TAP_MAN (h : K.testBit 400 = true) : lies (R.PORT_TAP_MAN i) K :=
  lies_at1 (k := 336) (words := 1) (shape_at 336) h (w := 0) (by decide) (by decide) (by decide)
theorem lies_PORT_TAP_STD (h : K.testBit 401 = true) : lies (R.PORT_TAP_STD i) K :=
  lies_at1 (k := 337) (words := 1) (shape_at 337) h (w := 0) (by decide) (by decide) (by decide)
theorem lies_PORT_TAP_ACTIVE (h : K.testBit 402 = true) : lies (R.PORT_TAP_ACTIVE i) K :=
  lies_at1 (k := 338) (words := 1) (shape_at 338) h (w := 0) (by decide) (by decide) (by decide)
theorem lies_PORT_TAP_STAT (h : K.testBit 403 = true) : lies (R.PORT_TAP_STAT i) K :=
  lies_at1 (k := 339) (words := 1) (shape_at 339) h (w := 0) (by decide) (by decide) (by decide)
theorem lies_PORT_X50_STAT (h : K.testBit 404 = true) : lies (R.PORT_X50_STAT i) K :=
  lies_at1 (k := 340) (words := 1) (shape_at 340) h (w := 0) (by decide) (by decide) (by decide)
theorem lies_PORT_AM_STAT (h : K.testBit 405 = true) : lies (R.PORT_AM_STAT i) K :=
  lies_at1 (k := 341) (words := 1) (shape_at 341) h (w := 0) (by decide) (by decide) (by decide)
theorem lies_PORT_TRK_EVENT (h : K.testBit 406 = true) : lies (R.PORT_TRK_EVENT i) K :=
  lies_at1 (k := 342) (words := 1) (shape_at 342) h (w := 0) (by decide) (by decide) (by decide)
theorem lies_PORT_TRK_EVENT_MASK (h : K.testBit 407 = true) : lies (R.PORT_TRK_EVENT_MASK i) K :=
  lies_at1 (k := 343) (words := 1) (shape_at 343) h (w := 0) (by decide) (by decide) (by decide)
theorem lies_PORT_LOOP_CTL (h : K.testBit 408 = true) : lies (R.PORT_LOOP_CTL i) K :=
  lies_at1 (k := 344) (words := 1) (shape_at 344) h (w := 0) (by decide) (by decide) (by decide)
theorem lies_PORT_LOOP_TIME (h : K.testBit 409 = true) : lies (R.PORT_LOOP_TIME i) K :=
  lies_at1 (k := 345) (words := 1) (shape_at 345) h (w := 0) (by decide) (by decide) (by decide)
theorem lies_PORT_LOOP_STAT (h : K.testBit 410 = true) : lies (R.PORT_LOOP_STAT i) K :=
  lies_at1 (k := 346) (words := 1) (shape_at 346) h (w := 0) (by decide) (by decide) (by decide)
theorem lies_PORT_LOOP_BITS_at (h : K.testBit 411 = true) (h4 : w % 4 = 0) (hw : w < 8) : lies (R.PORT_LOOP_BITS i + w) K :=
  lies_at1 (k := 347) (words := 2) (shape_at 347) h h4 hw (by decide)
theorem lies_PORT_LOOP_BITS (h : K.testBit 411 = true) : lies (R.PORT_LOOP_BITS i) K := lies_PORT_LOOP_BITS_at (w := 0) h (by decide) (by decide)
theorem lies_PORT_LOOP_BITS_words (h : K.testBit 411 = true) {n : Nat} (hn : n ≤ 2) (m : Nat) (hm : m < n) : lies (R.PORT_LOOP_BITS i + 4 * m) K :=
  lies_PORT_LOOP_BITS_at h (by omega) (by omega)
theorem lies_PORT_LOOP_ERRS_at (h : K.testBit 412 = true) (h4 : w % 4 = 0) (hw : w < 8) : lies (R.PORT_LOOP_ERRS i + w) K :=
  lies_at1 (k := 348) (words := 2) (shape_at 348) h h4 hw (by decide)
theorem lies_PORT_LOOP_ERRS (h : K.testBit 412 = true) : lies (R.PORT_LOOP_ERRS i) K := lies_PORT_LOOP_ERRS_at (w := 0) h (by decide) (by decide)
theorem lies_PORT_LOOP_ERRS_words (h : K.testBit 412 = true) {n : Nat} (hn : n ≤ 2) (m : Nat) (hm : m < n) : lies (R.PORT_LOOP_ERRS i + 4 * m) K :=
  lies_PORT_LOOP_ERRS_at h (by omega) (by omega)
theorem lies_PORT_SEG_CFG (h : K.testBit 413 = true) : lies (R.PORT_SEG_CFG i) K :=
  lies_at1 (k := 349) (words := 1) (shape_at 349) h (w := 0) (by decide) (by decide) (by decide)
theorem lies_PORT_SEG_TIMING (h : K.testBit 414 = true) : lies (R.PORT_SEG_TIMING i) K :=
  lies_at1 (k := 350) (words := 1) (shape_at 350) h (w := 0) (by decide) (by decide) (by decide)
theorem lies_PORT_SEG_STAT (h : K.testBit 415 = true) : lies (R.PORT_SEG_STAT i) K :=
  lies_at1 (k := 351) (words := 1) (shape_at 351) h (w := 0) (by decide) (by decide) (by decide)
theorem lies_PORT_SEG_CYCLE (h : K.testBit 416 = true) : lies (R.PORT_SEG_CYCLE i) K :=
  lies_at1 (k := 352) (words := 1) (shape_at 352) h (w := 0) (by decide) (by decide) (by decide)
theorem lies_PORT_SEG_COLL_at (h : K.testBit 417 = true) (h4 : w % 4 = 0) (hw : w < 8) : lies (R.PORT_SEG_COLL i + w) K :=
  lies_at1 (k := 353) (words := 2) (shape_at 353) h h4 hw (by decide)
theorem lies_PORT_SEG_COLL (h : K.testBit 417 = true) : lies (R.PORT_SEG_COLL i) K := lies_PORT_SEG_COLL_at (w := 0) h (by decide) (by decide)
theorem lies_PORT_SEG_COLL_words (h : K.testBit 417 = true) {n : Nat} (hn : n ≤ 2) (m : Nat) (hm : m < n) : lies (R.PORT_SEG_COLL i + 4 * m) K :=
  lies_PORT_SEG_COLL_at h (by omega) (by omega)
theorem lies_PORT_SEG_LATE_at (h : K.testBit 418 = true) (h4 : w % 4 = 0) (hw : w < 8) : lies (R.PORT_SEG_LATE i + w) K :=
  lies_at1 (k := 354) (words := 2) (shape_at 354) h h4 hw (by decide)
theorem lies_PORT_SEG_LATE (h : K.testBit 418 = true) : lies (R.PORT_SEG_LATE i) K := lies_PORT_SEG_LATE_at (w := 0) h (by decide) (by decide)
theorem lies_PORT_SEG_LATE_words (h : K.testBit 418 = true) {n : Nat} (hn : n ≤ 2) (m : Nat) (hm : m < n) : lies (R.PORT_SEG_LATE i + 4 * m) K :=
  lies_PORT_SEG_LATE_at h (by omega) (by omega)
theorem lies_PORT_SEG_EXCESS_at (h : K.testBit 419 = true) (h4 : w % 4 = 0) (hw : w < 8) : lies (R.PORT_SEG_EXCESS i + w) K :=
  lies_at1 (k := 355) (words := 2) (shape_at 355) h h4 hw (by decide)
theorem lies_PORT_SEG_EXCESS (h : K.testBit 419 = true) : lies (R.PORT_SEG_EXCESS i) K := lies_PORT_SEG_EXCESS_at (w := 0) h (by decide) (by decide)
theorem lies_PORT_SEG_EXCESS_words (h : K.testBit 419 = true) {n : Nat} (hn : n ≤ 2) (m : Nat) (hm : m < n) : lies (R.PORT_SEG_EXCESS i + 4 * m) K :=
  lies_PORT_SEG_EXCESS_at h (by omega) (by omega)
theorem lies_PORT_SEG_CENSUS_CTL (h : K.testBit 420 = true) : lies (R.PORT_SEG_CENSUS_CTL i) K :=
  lies_at1 (k := 356) (words := 1) (shape_at 356) h (w := 0) (by decide) (by decide) (by decide)
theorem lies_PORT_SEG_CENSUS (h : K.testBit 421 = true) : lies (R.PORT_SEG_CENSUS i j) K :=
  lies_at2 (k := 357) (words := 1) (shape_at 357) h (w := 0) (by decide) (by decide) (by decide) (by decide)
theorem lies_PORT_SEG_EVENT (h : K.testBit 422 = true) : lies (R.PORT_SEG_EVENT i) K :=
  lies_at1 (k := 358) (words := 1) (shape_at 358) h (w := 0) (by decide) (by decide) (by decide)
theorem lies_PORT_SEG_EVENT_MASK (h : K.testBit 423 = true) : lies (R.PORT_SEG_EVENT_MASK i) K :=
  lies_at1 (k := 359) (words := 1) (shape_at 359) h (w := 0) (by decide) (by decide) (by decide)
theorem lies_PORT_LPI_CFG (h : K.testBit 424 = true) : lies (R.PORT_LPI_CFG i) K :=
  lies_at1 (k := 360) (words := 1) (shape_at 360) h (w := 0) (by decide) (by decide) (by decide)
theorem lies_PORT_LPI_STAT (h : K.testBit 425 = true) : lies (R.PORT_LPI_STAT i) K :=
  lies_at1 (k := 361) (words := 1) (shape_at 361) h (w := 0) (by decide) (by decide) (by decide)
theorem lies_PORT_LPI_ENTRIES (h : K.testBit 426 = true) : lies (R.PORT_LPI_ENTRIES i) K :=
  lies_at1 (k := 362) (words := 1) (shape_at 362) h (w := 0) (by decide) (by decide) (by decide)
theorem lies_PORT_LPI_TIME_at (h : K.testBit 427 = true) (h4 : w % 4 = 0) (hw : w < 8) : lies (R.PORT_LPI_TIME i + w) K :=
  lies_at1 (k := 363) (words := 2) (shape_at 363) h h4 hw (by decide)
theorem lies_PORT_LPI_TIME (h : K.testBit 427 = true) : lies (R.PORT_LPI_TIME i) K := lies_PORT_LPI_TIME_at (w := 0) h (by decide) (by decide)
theorem lies_PORT_LPI_TIME_words (h : K.testBit 427 = true) {n : Nat} (hn : n ≤ 2) (m : Nat) (hm : m < n) : lies (R.PORT_LPI_TIME i + 4 * m) K :=
  lies_PORT_LPI_TIME_at h (by omega) (by omega)
theorem lies_PORT_TC10_CFG (h : K.testBit 428 = true) : lies (R.PORT_TC10_CFG i) K :=
  lies_at1 (k := 364) (words := 1) (shape_at 364) h (w := 0) (by decide) (by decide) (by decide)
theorem lies_PORT_TC10_STAT (h : K.testBit 429 = true) : lies (R.PORT_TC10_STAT i) K :=
  lies_at1 (k := 365) (words := 1) (shape_at 365) h (w := 0) (by decide) (by decide) (by decide)
theorem lies_PORT_TC10_EVENT (h : K.testBit 430 = true) : lies (R.PORT_TC10_EVENT i) K :=
  lies_at1 (k := 366) (words := 1) (shape_at 366) h (w := 0) (by decide) (by decide) (by decide)
theorem lies_PORT_TC10_EVENT_MASK (h : K.testBit 431 = true) : lies (R.PORT_TC10_EVENT_MASK i) K :=
  lies_at1 (k := 367) (words := 1) (shape_at 367) h (w := 0) (by decide) (by decide) (by decide)
theorem lies_QP_RX_BASE_at (h : K.testBit 432 = true) (h4 : w % 4 = 0) (hw : w < 8) : lies (R.QP_RX_BASE i + w) K :=
  lies_at1 (k := 368) (words := 2) (shape_at 368) h h4 hw (by decide)
theorem lies_QP_RX_BASE (h : K.testBit 432 = true) : lies (R.QP_RX_BASE i) K := lies_QP_RX_BASE_at (w := 0) h (by decide) (by decide)
theorem lies_QP_RX_BASE_words (h : K.testBit 432 = true) {n : Nat} (hn : n ≤ 2) (m : Nat) (hm : m < n) : lies (R.QP_RX_BASE i + 4 * m) K :=
  lies_QP_RX_BASE_at h (by omega) (by omega)
theorem lies_QP_RX_CFG (h : K.testBit 433 = true) : lies (R.QP_RX_CFG i) K :=
  lies_at1 (k := 369) (words := 1) (shape_at 369) h (w := 0) (by decide) (by decide) (by decide)
theorem lies_QP_RX_CTL (h : K.testBit 434 = true) : lies (R.QP_RX_CTL i) K :=
  lies_at1 (k := 370) (words := 1) (shape_at 370) h (w := 0) (by decide) (by decide) (by decide)
theorem lies_QP_RX_HEAD_IDX (h : K.testBit 435 = true) : lies (R.QP_RX_HEAD_IDX i) K :=
  lies_at1 (k := 371) (words := 1) (shape_at 371) h (w := 0) (by decide) (by decide) (by decide)
theorem lies_QP_RX_ACK (h : K.testBit 436 = true) : lies (R.QP_RX_ACK i) K :=
  lies_at1 (k := 372) (words := 1) (shape_at 372) h (w := 0) (by decide) (by decide) (by decide)
theorem lies_QP_RX_MOD (h : K.testBit 437 = true) : lies (R.QP_RX_MOD i) K :=
  lies_at1 (k := 373) (words := 1) (shape_at 373) h (w := 0) (by decide) (by decide) (by decide)
theorem lies_QP_RX_STAT (h : K.testBit 438 = true) : lies (R.QP_RX_STAT i) K :=
  lies_at1 (k := 374) (words := 1) (shape_at 374) h (w := 0) (by decide) (by decide) (by decide)
theorem lies_QP_RX_STATE (h : K.testBit 439 = true) : lies (R.QP_RX_STATE i) K :=
  lies_at1 (k := 375) (words := 1) (shape_at 375) h (w := 0) (by decide) (by decide) (by decide)
theorem lies_QP_RX_FRAMES_at (h : K.testBit 440 = true) (h4 : w % 4 = 0) (hw : w < 8) : lies (R.QP_RX_FRAMES i + w) K :=
  lies_at1 (k := 376) (words := 2) (shape_at 376) h h4 hw (by decide)
theorem lies_QP_RX_FRAMES (h : K.testBit 440 = true) : lies (R.QP_RX_FRAMES i) K := lies_QP_RX_FRAMES_at (w := 0) h (by decide) (by decide)
theorem lies_QP_RX_FRAMES_words (h : K.testBit 440 = true) {n : Nat} (hn : n ≤ 2) (m : Nat) (hm : m < n) : lies (R.QP_RX_FRAMES i + 4 * m) K :=
  lies_QP_RX_FRAMES_at h (by omega) (by omega)
theorem lies_QP_RX_DROPS_at (h : K.testBit 441 = true) (h4 : w % 4 = 0) (hw : w < 8) : lies (R.QP_RX_DROPS i + w) K :=
  lies_at1 (k := 377) (words := 2) (shape_at 377) h h4 hw (by decide)
theorem lies_QP_RX_DROPS (h : K.testBit 441 = true) : lies (R.QP_RX_DROPS i) K := lies_QP_RX_DROPS_at (w := 0) h (by decide) (by decide)
theorem lies_QP_RX_DROPS_words (h : K.testBit 441 = true) {n : Nat} (hn : n ≤ 2) (m : Nat) (hm : m < n) : lies (R.QP_RX_DROPS i + 4 * m) K :=
  lies_QP_RX_DROPS_at h (by omega) (by omega)
theorem lies_QP_RX_BAD (h : K.testBit 442 = true) : lies (R.QP_RX_BAD i) K :=
  lies_at1 (k := 378) (words := 1) (shape_at 378) h (w := 0) (by decide) (by decide) (by decide)
theorem lies_QP_TX_BASE_at (h : K.testBit 443 = true) (h4 : w % 4 = 0) (hw : w < 8) : lies (R.QP_TX_BASE i + w) K :=
  lies_at1 (k := 379) (words := 2) (shape_at 379) h h4 hw (by decide)
theorem lies_QP_TX_BASE (h : K.testBit 443 = true) : lies (R.QP_TX_BASE i) K := lies_QP_TX_BASE_at (w := 0) h (by decide) (by decide)
theorem lies_QP_TX_BASE_words (h : K.testBit 443 = true) {n : Nat} (hn : n ≤ 2) (m : Nat) (hm : m < n) : lies (R.QP_TX_BASE i + 4 * m) K :=
  lies_QP_TX_BASE_at h (by omega) (by omega)
theorem lies_QP_TX_CFG (h : K.testBit 444 = true) : lies (R.QP_TX_CFG i) K :=
  lies_at1 (k := 380) (words := 1) (shape_at 380) h (w := 0) (by decide) (by decide) (by decide)
theorem lies_QP_TX_CTL (h : K.testBit 445 = true) : lies (R.QP_TX_CTL i) K :=
  lies_at1 (k := 381) (words := 1) (shape_at 381) h (w := 0) (by decide) (by decide) (by decide)
theorem lies_QP_TX_HEAD_IDX (h : K.testBit 446 = true) : lies (R.QP_TX_HEAD_IDX i) K :=
  lies_at1 (k := 382) (words := 1) (shape_at 382) h (w := 0) (by decide) (by decide) (by decide)
theorem lies_QP_TX_ACK (h : K.testBit 447 = true) : lies (R.QP_TX_ACK i) K :=
  lies_at1 (k := 383) (words := 1) (shape_at 383) h (w := 0) (by decide) (by decide) (by decide)
theorem lies_QP_TX_MOD (h : K.testBit 448 = true) : lies (R.QP_TX_MOD i) K :=
  lies_at1 (k := 384) (words := 1) (shape_at 384) h (w := 0) (by decide) (by decide) (by decide)
theorem lies_QP_TX_STAT (h : K.testBit 449 = true) : lies (R.QP_TX_STAT i) K :=
  lies_at1 (k := 385) (words := 1) (shape_at 385) h (w := 0) (by decide) (by decide) (by decide)
theorem lies_QP_TX_STATE (h : K.testBit 450 = true) : lies (R.QP_TX_STATE i) K :=
  lies_at1 (k := 386) (words := 1) (shape_at 386) h (w := 0) (by decide) (by decide) (by decide)
theorem lies_QP_TX_FRAMES_at (h : K.testBit 451 = true) (h4 : w % 4 = 0) (hw : w < 8) : lies (R.QP_TX_FRAMES i + w) K :=
  lies_at1 (k := 387) (words := 2) (shape_at 387) h h4 hw (by decide)
theorem lies_QP_TX_FRAMES (h : K.testBit 451 = true) : lies (R.QP_TX_FRAMES i) K := lies_QP_TX_FRAMES_at (w := 0) h (by decide) (by decide)
theorem lies_QP_TX_FRAMES_words (h : K.testBit 451 = true) {n : Nat} (hn : n ≤ 2) (m : Nat) (hm : m < n) : lies (R.QP_TX_FRAMES i + 4 * m) K :=
  lies_QP_TX_FRAMES_at h (by omega) (by omega)
theorem lies_QP_TX_DROPS_at (h : K.testBit 452 = true) (h4 : w % 4 = 0) (hw : w < 8) : lies (R.QP_TX_DROPS i + w) K :=
  lies_at1 (k := 388) (words := 2) (shape_at 388) h h4 hw (by decide)
theorem lies_QP_TX_DROPS (h : K.testBit 452 = true) : lies (R.QP_TX_DROPS i) K := lies_QP_TX_DROPS_at (w := 0) h (by decide) (by decide)
theorem lies_QP_TX_DROPS_words (h : K.testBit 452 = true) {n : Nat} (hn : n ≤ 2) (m : Nat) (hm : m < n) : lies (R.QP_TX_DROPS i + 4 * m) K :=
  lies_QP_TX_DROPS_at h (by omega) (by omega)
theorem lies_QP_TX_BAD (h : K.testBit 453 = true) : lies (R.QP_TX_BAD i) K :=
  lies_at1 (k := 389) (words := 1) (shape_at 389) h (w := 0) (by decide) (by decide) (by decide)
theorem lies_QP_EVENT (h : K.testBit 454 = true) : lies (R.QP_EVENT i) K :=
  lies_at1 (k := 390) (words := 1) (shape_at 390) h (w := 0) (by decide) (by decide) (by decide)
theorem lies_QP_EVENT_MASK (h : K.testBit 455 = true) : lies (R.QP_EVENT_MASK i) K :=
  lies_at1 (k := 391) (words := 1) (shape_at 391) h (w := 0) (by decide) (by decide) (by decide)
theorem lies_QP_SUM (h : K.testBit 456 = true) : lies (R.QP_SUM i) K :=
  lies_at1 (k := 392) (words := 1) (shape_at 392) h (w := 0) (by decide) (by decide) (by decide)
theorem lies_ring_QP_RX_BASE_at (h : K.testBit 432 = true) (h2 : K.testBit 443 = true) (h4 : w % 4 = 0) (hw : w < 8) : lies (ringOff (R.QP_RX_BASE q) d + w) K :=
  lies_ring (k := 368) (k' := 379) (words := 2) rfl (shape_at 368) (shape_at 379) h h2 h4 hw (by decide)
theorem lies_ring_QP_RX_BASE (h : K.testBit 432 = true) (h2 : K.testBit 443 = true) : lies (ringOff (R.QP_RX_BASE q) d) K := lies_ring_QP_RX_BASE_at (w := 0) h h2 (by decide) (by decide)
theorem lies_ring_QP_RX_BASE_words (h : K.testBit 432 = true) (h2 : K.testBit 443 = true) {n : Nat} (hn : n ≤ 2) (m : Nat) (hm : m < n) : lies (ringOff (R.QP_RX_BASE q) d + 4 * m) K :=
  lies_ring_QP_RX_BASE_at h h2 (by omega) (by omega)
theorem lies_ring_QP_RX_CFG (h : K.testBit 433 = true) (h2 : K.testBit 444 = true) : lies (ringOff (R.QP_RX_CFG q) d) K :=
  lies_ring (k := 369) (k' := 380) (words := 1) rfl (shape_at 369) (shape_at 380) h h2 (w := 0) (by decide) (by decide) (by decide)
theorem lies_ring_QP_RX_CTL (h : K.testBit 434 = true) (h2 : K.testBit 445 = true) : lies (ringOff (R.QP_RX_CTL q) d) K :=
  lies_ring (k := 370) (k' := 381) (words := 1) rfl (shape_at 370) (shape_at 381) h h2 (w := 0) (by decide) (by decide) (by decide)
theorem lies_ring_QP_RX_HEAD_IDX (h : K.testBit 435 = true) (h2 : K.testBit 446 = true) : lies (ringOff (R.QP_RX_HEAD_IDX q) d) K :=
  lies_ring (k := 371) (k' := 382) (words := 1) rfl (shape_at 371) (shape_at 382) h h2 (w := 0) (by decide) (by decide) (by decide)
theorem lies_ring_QP_RX_ACK (h : K.testBit 436 = true) (h2 : K.testBit 447 = true) : lies (ringOff (R.QP_RX_ACK q) d) K :=
  lies_ring (k := 372) (k' := 383) (words := 1) rfl (shape_at 372) (shape_at 383) h h2 (w := 0) (by decide) (by decide) (by decide)
theorem lies_ring_QP_RX_MOD (h : K.testBit 437 = true) (h2 : K.testBit 448 = true) : lies (ringOff (R.QP_RX_MOD q) d) K :=
  lies_ring (k := 373) (k' := 384) (words := 1) rfl (shape_at 373) (shape_at 384) h h2 (w := 0) (by decide) (by decide) (by decide)
theorem lies_ring_QP_RX_STAT (h : K.testBit 438 = true) (h2 : K.testBit 449 = true) : lies (ringOff (R.QP_RX_STAT q) d) K :=
  lies_ring (k := 374) (k' := 385) (words := 1) rfl (shape_at 374) (shape_at 385) h h2 (w := 0) (by decide) (by decide) (by decide)
theorem lies_ring_QP_RX_STATE (h : K.testBit 439 = true) (h2 : K.testBit 450 = true) : lies (ringOff (R.QP_RX_STATE q) d) K :=
  lies_ring (k := 375) (k' := 386) (words := 1) rfl (shape_at 375) (shape_at 386) h h2 (w := 0) (by decide) (by decide) (by decide)
theorem lies_ring_QP_RX_FRAMES_at (h : K.testBit 440 = true) (h2 : K.testBit 451 = true) (h4 : w % 4 = 0) (hw : w < 8) : lies (ringOff (R.QP_RX_FRAMES q) d + w) K :=
  lies_ring (k := 376) (k' := 387) (words := 2) rfl (shape_at 376) (shape_at 387) h h2 h4 hw (by decide)
theorem lies_ring_QP_RX_FRAMES (h : K.testBit 440 = true) (h2 : K.testBit 451 = true) : lies (ringOff (R.QP_RX_FRAMES q) d) K := lies_ring_QP_RX_FRAMES_at (w := 0) h h2 (by decide) (by decide)
theorem lies_ring_QP_RX_FRAMES_words (h : K.testBit 440 = true) (h2 : K.testBit 451 = true) {n : Nat} (hn : n ≤ 2) (m : Nat) (hm : m < n) : lies (ringOff (R.QP_RX_FRAMES q) d + 4 * m) K :=
  lies_ring_QP_RX_FRAMES_at h h2 (by omega) (by omega)
theorem lies_ring_QP_RX_DROPS_at (h : K.testBit 441 = true) (h2 : K.testBit 452 = true) (h4 : w % 4 = 0) (hw : w < 8) : lies (ringOff (R.QP_RX_DROPS q) d + w) K :=
  lies_ring (k := 377) (k' := 388) (words := 2) rfl (shape_at 377) (shape_at 388) h h2 h4 hw (by decide)
theorem lies_ring_QP_RX_DROPS (h : K.testBit 441 = true) (h2 : K.testBit 452 = true) : lies (ringOff (R.QP_RX_DROPS q) d) K := lies_ring_QP_RX_DROPS_at (w := 0) h h2 (by decide) (by decide)
theorem lies_ring_QP_RX_DROPS_words (h : K.testBit 441 = true) (h2 : K.testBit 452 = true) {n : Nat} (hn : n ≤ 2) (m : Nat) (hm : m < n) : lies (ringOff (R.QP_RX_DROPS q) d + 4 * m) K :=
  lies_ring_QP_RX_DROPS_at h h2 (by omega) (by omega)
theorem lies_ring_QP_RX_BAD (h : K.testBit 442 = true) (h2 : K.testBit 453 = true) : lies (ringOff (R.QP_RX_BAD q) d) K :=
  lies_ring (k := 378) (k' := 389) (words := 1) rfl (shape_at 378) (shape_at 389) h h2 (w := 0) (by decide) (by decide) (by decide)

theorem lies_mbxState {m : Nat} (h : K.testBit 314 = true) (h2 : K.testBit 274 = true) : lies (mbxState m).off K := by
  unfold mbxState
  split
  · exact lies_HEAD_MBX_STAT h
  · exact lies_HSPI_MBX_STAT h2
theorem lies_mbxTag {m : Nat} (h : K.testBit 314 = true) (h2 : K.testBit 274 = true) : lies (mbxTag m).off K := by
  unfold mbxTag
  split
  · exact lies_HEAD_MBX_STAT h
  · exact lies_HSPI_MBX_STAT h2
theorem lies_mbxRsp {m : Nat} (h : K.testBit 316 = true) (h2 : K.testBit 276 = true) : lies (mbxRsp m i) K := by
  unfold mbxRsp
  split
  · exact lies_HEAD_MBX_RSP h
  · exact lies_HSPI_MBX_RSP h2

end Sys2Proof.Machine
end

