-- ==== Sys2Proof/Laws/Apart.lean ====
section
/-!
SUPPORT. Two tables share no offset: a register that a mask does not have is not admitted by it.
-/
set_option Elab.async false
namespace Sys2Proof.Machine

/-- How far a table reaches from its base. -/
def reach : List (Nat × Nat) → Nat → Nat
  | [], words => 4 * words
  | (st, n) :: t, words => st * (n - 1) + reach t words

theorem locate_reach {dims : List (Nat × Nat)} {words d : Nat} (h : (locate dims words d).isSome = true) : d < reach dims words := by
  induction dims generalizing d with
  | nil =>
    simp only [locate] at h
    split at h
    · rename_i hc; simp only [reach]; omega
    · simp at h
  | cons e t ih =>
    obtain ⟨st, n⟩ := e
    simp only [locate] at h
    split at h
    · rename_i hc
      have h1 : (locate t words (d % st)).isSome = true := by simpa using h
      have h2 := ih h1
      have h3 : st * (d / st) ≤ st * (n - 1) := Nat.mul_le_mul_left _ (by omega)
      have h4 := Nat.div_add_mod d st
      simp only [reach]; omega
    · simp at h

theorem locate_step {st n words d : Nat} {t : List (Nat × Nat)} (h : (locate ((st, n) :: t) words d).isSome = true) :
    d = st * (d / st) + d % st ∧ (locate t words (d % st)).isSome = true := by
  simp only [locate] at h
  split at h
  · exact ⟨(Nat.div_add_mod d st).symm, by simpa using h⟩
  · simp at h

/-- The residue of an offset in the innermost array, where every stride is a multiple of its own. -/
def innerOk (g : Nat) : List (Nat × Nat) → Bool
  | [] => true
  | (st, _) :: t => decide (st % g = 0) && innerOk g t

theorem locate_inner {dims : List (Nat × Nat)} {words d g : Nat} (hg : innerOk g dims = true) (h : (locate dims words d).isSome = true) :
    ∃ m x, d = g * m + x ∧ x < 4 * words := by
  induction dims generalizing d with
  | nil =>
    refine ⟨0, d, by simp, ?_⟩
    have := locate_reach h
    simpa [reach] using this
  | cons e t ih =>
    obtain ⟨st, n⟩ := e
    simp only [innerOk, Bool.and_eq_true, decide_eq_true_eq] at hg
    obtain ⟨h1, h2⟩ := locate_step h
    obtain ⟨m, x, hx, hw⟩ := ih hg.2 h2
    obtain ⟨c, hc⟩ := Nat.dvd_of_mod_eq_zero hg.1
    refine ⟨c * (d / st) + m, x, ?_, hw⟩
    rw [Nat.mul_add, ← Nat.mul_assoc, ← hc]; omega

/-- The last stride. -/
def lastStride : List (Nat × Nat) → Nat
  | [] => 0
  | [(st, _)] => st
  | _ :: t => lastStride t

/-- Residue windows from two bases do not meet. -/
def windows (st a ea b eb : Nat) : Bool :=
  (decide (a + ea ≤ b) && decide (b + eb ≤ a + st)) || (decide (b + eb ≤ a) && decide (a + ea ≤ b + st))

theorem windows_sound {st a ea b eb i j x y : Nat} (h : windows st a ea b eb = true) (hx : x < ea) (hy : y < eb)
    (he : a + (st * i + x) = b + (st * j + y)) : False := by
  simp only [windows, Bool.or_eq_true, Bool.and_eq_true, decide_eq_true_eq] at h
  rcases h with h | h
  · have h1 : (st * i + x) % st = x := by rw [Nat.mul_add_mod]; exact Nat.mod_eq_of_lt (by omega)
    have h2 : (st * j + (b - a + y)) % st = b - a + y := by rw [Nat.mul_add_mod]; exact Nat.mod_eq_of_lt (by omega)
    have h3 : st * i + x = st * j + (b - a + y) := by omega
    rw [h3] at h1; omega
  · have h1 : (st * j + y) % st = y := by rw [Nat.mul_add_mod]; exact Nat.mod_eq_of_lt (by omega)
    have h2 : (st * i + (a - b + x)) % st = a - b + x := by rw [Nat.mul_add_mod]; exact Nat.mod_eq_of_lt (by omega)
    have h3 : st * j + y = st * i + (a - b + x) := by omega
    rw [h3] at h1; omega

abbrev Shape := Nat × List (Nat × Nat) × Nat

/-- The first stride and what lies inside it. -/
def outer : List (Nat × Nat) → Nat × List (Nat × Nat)
  | [] => (0, [])
  | (st, _) :: t => (st, t)

/-- Two shapes share no offset. -/
def sep (s t : Shape) : Bool :=
  decide (s.1 + reach s.2.1 s.2.2 ≤ t.1) || decide (t.1 + reach t.2.1 t.2.2 ≤ s.1) ||
  (decide (s.2.1 ≠ [] ∧ t.2.1 ≠ [] ∧ (outer s.2.1).1 = (outer t.2.1).1) &&
    windows (outer s.2.1).1 s.1 (reach (outer s.2.1).2 s.2.2) t.1 (reach (outer t.2.1).2 t.2.2)) ||
  (decide (lastStride s.2.1 = lastStride t.2.1) && innerOk (lastStride s.2.1) s.2.1 && innerOk (lastStride s.2.1) t.2.1 &&
    windows (lastStride s.2.1) s.1 (4 * s.2.2) t.1 (4 * t.2.2))

theorem sep_sound {s t : Shape} (h : sep s t = true) {d e : Nat} (hd : (locate s.2.1 s.2.2 d).isSome = true)
    (he : (locate t.2.1 t.2.2 e).isSome = true) : s.1 + d ≠ t.1 + e := by
  intro heq
  have r1 := locate_reach hd
  have r2 := locate_reach he
  obtain ⟨a, da, wa⟩ := s
  obtain ⟨b, db, wb⟩ := t
  simp only [sep, Bool.or_eq_true, Bool.and_eq_true, decide_eq_true_eq] at h hd he heq r1 r2
  rcases h with ((h | h) | h) | h
  · omega
  · omega
  · obtain ⟨⟨h1, h2, h3⟩, h4⟩ := h
    cases da with
    | nil => exact h1 rfl
    | cons x ta =>
      cases db with
      | nil => exact h2 rfl
      | cons y tb =>
        obtain ⟨s1, n1⟩ := x
        obtain ⟨s2, n2⟩ := y
        simp only [outer] at h3 h4
        subst h3
        obtain ⟨e1, l1⟩ := locate_step hd
        obtain ⟨e2, l2⟩ := locate_step he
        rw [e1, e2] at heq
        exact windows_sound h4 (locate_reach l1) (locate_reach l2) heq
  · obtain ⟨⟨⟨h1, h2⟩, h3⟩, h4⟩ := h
    obtain ⟨m, x, hx, hw⟩ := locate_inner h2 hd
    obtain ⟨m', y, hy, hw'⟩ := locate_inner h3 he
    rw [hx, hy] at heq
    exact windows_sound h4 hw hw' heq

/-- Table k shares no offset with any other. -/
def alone (k : Nat) : Bool :=
  match shapes[k]? with
  | none => false
  | some s => shapes.zipIdx.all fun e => e.2 == k || sep s e.1

theorem alone_sound {k j : Nat} {s : Shape} {r : RegRow} {d : Nat} (ha : alone k = true) (hk : shapes[k]? = some s) (hd : (locate s.2.1 s.2.2 d).isSome = true)
    (hj : allRows[j]? = some r) (hr : r.has (s.1 + d) = true) : j = k := by
  by_contra hne
  unfold alone at ha
  rw [hk] at ha
  simp only [List.all_eq_true] at ha
  have hsh : shapes[j]? = some r.shape := by rw [← shape_at, hj]; rfl
  have hm : (r.shape, j) ∈ shapes.zipIdx := by rw [List.mk_mem_zipIdx_iff_getElem?]; exact hsh
  have := ha _ hm
  simp only [Bool.or_eq_true, beq_iff_eq, hne, false_or] at this
  simp only [RegRow.has, Bool.and_eq_true, decide_eq_true_eq] at hr
  exact sep_sound this hd (e := s.1 + d - r.base) hr.2 (by show s.1 + d = r.base + _; omega)

variable {K : Nat}

theorem not_lies {k : Nat} {s : Shape} {d : Nat} (ha : alone k = true) (hk : shapes[k]? = some s)
    (hd : (locate s.2.1 s.2.2 d).isSome = true) (ho : s.1 + d < outside) (h62 : K.testBit 62 = false) (h63 : K.testBit 63 = false)
    (h : K.testBit (64 + k) = false) : ¬ lies (s.1 + d) K := by
  rintro (h' | h' | ⟨h', _⟩ | ⟨j, r, hj, hr, hh'⟩)
  · omega
  · simp [h63] at h'
  · simp [h62] at h'
  · have := alone_sound ha hk hd hr hh'
    subst this
    simp [h] at hj

theorem not_lies_one {k base words w : Nat} (ha : alone k = true) (hk : shapes[k]? = some (base, [], words)) (h4 : w % 4 = 0)
    (hw : w < 4 * words) (ho : base + 4 * words ≤ outside) (h62 : K.testBit 62 = false) (h63 : K.testBit 63 = false)
    (h : K.testBit (64 + k) = false) : ¬ lies (base + w) K :=
  not_lies ha hk (locate_nil h4 hw) (by show base + w < outside; omega) h62 h63 h

theorem not_lies_at1 {k base st n words i w : Nat} (ha : alone k = true) (hk : shapes[k]? = some (base, [(st, n)], words)) (hi : i < n)
    (h4 : w % 4 = 0) (hw : w < 4 * words) (hs : 4 * words ≤ st) (ho : base + st * n ≤ outside) (h62 : K.testBit 62 = false)
    (h63 : K.testBit 63 = false) (h : K.testBit (64 + k) = false) : ¬ lies (at1 base st n i + w) K := by
  unfold at1
  rw [if_pos hi, Nat.add_assoc]
  have h1 : st * (i + 1) ≤ st * n := Nat.mul_le_mul_left _ hi
  rw [Nat.mul_add, Nat.mul_one] at h1
  refine not_lies ha hk (locate_cons hi (by omega) (locate_nil h4 hw)) ?_ h62 h63 h
  show base + (i * st + w) < outside
  rw [Nat.mul_comm]; omega

theorem not_lies_at2 {k base st n st2 m words i j w : Nat} (ha : alone k = true) (hk : shapes[k]? = some (base, [(st, n), (st2, m)], words))
    (hi : i < n) (hj : j < m) (h4 : w % 4 = 0) (hw : w < 4 * words) (hs2 : 4 * words ≤ st2) (hs : st2 * m ≤ st)
    (ho : base + st * n ≤ outside) (h62 : K.testBit 62 = false) (h63 : K.testBit 63 = false) (h : K.testBit (64 + k) = false) :
    ¬ lies (at2 base st n st2 m i j + w) K := by
  unfold at2
  rw [if_pos ⟨hi, hj⟩, Nat.add_assoc, Nat.add_assoc]
  have h1 : st * (i + 1) ≤ st * n := Nat.mul_le_mul_left _ hi
  have h2 : st2 * (j + 1) ≤ st2 * m := Nat.mul_le_mul_left _ hj
  rw [Nat.mul_add, Nat.mul_one] at h1 h2
  refine not_lies ha hk (locate_cons hi ?_ (locate_cons hj (by omega) (locate_nil h4 hw))) ?_ h62 h63 h
  · rw [Nat.mul_comm j]; omega
  · show base + (i * st + (j * st2 + w)) < outside
    rw [Nat.mul_comm i, Nat.mul_comm j]; omega

end Sys2Proof.Machine
end

