-- ==== Sys2Proof/Laws/Aside.lean ====
section
/-!
SUPPORT. A register is not admitted by a mask that does not have its table.
-/
set_option Elab.async false
namespace Sys2Proof.Machine

variable {K i j w : Nat}

theorem alone_PORT_CTL : alone 299 = true := by decide +kernel
theorem apart_PORT_CTL (hi : i < 64) (h62 : K.testBit 62 = false) (h63 : K.testBit 63 = false) (h : K.testBit 363 = false) : ¬ lies (R.PORT_CTL i) K :=
  not_lies_at1 (k := 299) (words := 1) (w := 0) alone_PORT_CTL rfl hi (by decide) (by decide) (by decide) (by decide) h62 h63 h
theorem alone_PORT_STATE : alone 300 = true := by decide +kernel
theorem apart_PORT_STATE (hi : i < 64) (h62 : K.testBit 62 = false) (h63 : K.testBit 63 = false) (h : K.testBit 364 = false) : ¬ lies (R.PORT_STATE i) K :=
  not_lies_at1 (k := 300) (words := 1) (w := 0) alone_PORT_STATE rfl hi (by decide) (by decide) (by decide) (by decide) h62 h63 h
theorem alone_PORT_LINK_QUAL : alone 313 = true := by decide +kernel
theorem apart_PORT_LINK_QUAL (hi : i < 64) (h62 : K.testBit 62 = false) (h63 : K.testBit 63 = false) (h : K.testBit 377 = false) : ¬ lies (R.PORT_LINK_QUAL i) K :=
  not_lies_at1 (k := 313) (words := 1) (w := 0) alone_PORT_LINK_QUAL rfl hi (by decide) (by decide) (by decide) (by decide) h62 h63 h
theorem alone_PORT_DROP_COUNT : alone 318 = true := by decide +kernel
theorem apart_PORT_DROP_COUNT (hi : i < 64) (h62 : K.testBit 62 = false) (h63 : K.testBit 63 = false) (h : K.testBit 382 = false) : ¬ lies (R.PORT_DROP_COUNT i) K :=
  not_lies_at1 (k := 318) (words := 1) (w := 0) alone_PORT_DROP_COUNT rfl hi (by decide) (by decide) (by decide) (by decide) h62 h63 h
theorem alone_PORT_EVENT : alone 321 = true := by decide +kernel
theorem apart_PORT_EVENT (hi : i < 64) (h62 : K.testBit 62 = false) (h63 : K.testBit 63 = false) (h : K.testBit 385 = false) : ¬ lies (R.PORT_EVENT i) K :=
  not_lies_at1 (k := 321) (words := 1) (w := 0) alone_PORT_EVENT rfl hi (by decide) (by decide) (by decide) (by decide) h62 h63 h

end Sys2Proof.Machine
end

