-- ==== Sys2Proof/Laws/Bits.lean ====
section
/-!
SUPPORT. Laws of the fields of a word: a field written is the field read, and every other field is as before.
-/
set_option Elab.async false
namespace Sys2Proof.Machine

/-- The number that a field write leaves. -/
theorem putBits_toNat (w : Word) {hi lo : Nat} (v : Nat) (h : lo ≤ hi) (h32 : hi < 32) :
    (putBits w hi lo v).toNat =
      2 ^ lo * (2 ^ (hi + 1 - lo) * (w.toNat / 2 ^ (hi + 1)) + v % 2 ^ (hi + 1 - lo)) + w.toNat % 2 ^ lo := by
  have hp : 2 ^ (hi + 1) = 2 ^ lo * 2 ^ (hi + 1 - lo) := by rw [← pow_add]; congr 1; omega
  have hl := Nat.div_add_mod w.toNat (2 ^ lo)
  have hk := Nat.div_add_mod (w.toNat / 2 ^ lo) (2 ^ (hi + 1 - lo))
  rw [Nat.div_div_eq_div_mul, ← hp] at hk
  have hx : v % 2 ^ (hi + 1 - lo) < 2 ^ (hi + 1 - lo) := Nat.mod_lt _ (by positivity)
  have hc : w.toNat % 2 ^ lo < 2 ^ lo := Nat.mod_lt _ (by positivity)
  have hm : 2 ^ 32 = 2 ^ (hi + 1) * 2 ^ (31 - hi) := by rw [← pow_add]; congr 1; omega
  have hA : w.toNat / 2 ^ (hi + 1) < 2 ^ (31 - hi) := by
    rw [Nat.div_lt_iff_lt_mul (by positivity), mul_comm, ← hm]; exact w.isLt
  unfold putBits bits
  rw [BitVec.toNat_ofNat]
  generalize 2 ^ (hi + 1 - lo) = K at *
  generalize 2 ^ lo = L at *
  generalize 2 ^ (31 - hi) = M at *
  generalize w.toNat / 2 ^ (hi + 1) = A at *
  generalize hf : w.toNat / L % K = f at *
  generalize w.toNat % L = c at *
  generalize v % K = x at *
  have e : w.toNat - f * L + x * L = L * (K * A + x) + c := by
    have : w.toNat = L * (K * A + f) + c := by rw [hk]; exact hl.symm
    rw [this, Nat.mul_add, Nat.mul_add, Nat.mul_comm f L, Nat.mul_comm x L]
    omega
  rw [e, Nat.mod_eq_of_lt]
  rw [hm, hp]
  have h1 : K * A + x + 1 ≤ K * M := by
    calc K * A + x + 1 ≤ K * A + K := by omega
      _ = K * (A + 1) := by ring
      _ ≤ K * M := Nat.mul_le_mul_left K hA
  calc L * (K * A + x) + c < L * (K * A + x) + L := by omega
    _ = L * (K * A + x + 1) := by ring
    _ ≤ L * (K * M) := Nat.mul_le_mul_left L h1
    _ = L * K * M := by ring

/-- Each bit after a field write. -/
theorem testBit_putBits (w : Word) {hi lo : Nat} (v : Nat) (h : lo ≤ hi) (h32 : hi < 32) (j : Nat) :
    (putBits w hi lo v).toNat.testBit j =
      if lo ≤ j ∧ j ≤ hi then v.testBit (j - lo) else w.toNat.testBit j := by
  rw [putBits_toNat w v h h32, Nat.testBit_two_pow_mul_add _ (Nat.mod_lt _ (by positivity)),
    Nat.testBit_two_pow_mul_add _ (Nat.mod_lt _ (by positivity))]
  by_cases h1 : j < lo
  · simp [h1, Nat.testBit_mod_two_pow]
  · by_cases h2 : j - lo < hi + 1 - lo
    · have : lo ≤ j ∧ j ≤ hi := by omega
      simp [h1, h2, this, Nat.testBit_mod_two_pow]
    · have : ¬ (lo ≤ j ∧ j ≤ hi) := by omega
      simp only [h1, h2, this, if_false, Nat.testBit_div_two_pow]
      congr 1; omega

theorem testBit_bits (w : Word) (hi lo j : Nat) :
    (bits w hi lo).testBit j = (decide (j < hi + 1 - lo) && w.toNat.testBit (j + lo)) := by
  unfold bits
  rw [Nat.testBit_mod_two_pow, Nat.testBit_div_two_pow]

/-- The field written is the field read. -/
@[simp] theorem bits_putBits_same (w : Word) {hi lo : Nat} (v : Nat) (h : lo ≤ hi) (h32 : hi < 32) :
    bits (putBits w hi lo v) hi lo = v % 2 ^ (hi + 1 - lo) := by
  refine Nat.eq_of_testBit_eq fun j => ?_
  rw [testBit_bits, testBit_putBits w v h h32, Nat.testBit_mod_two_pow]
  by_cases hj : j < hi + 1 - lo
  · have : lo ≤ j + lo ∧ j + lo ≤ hi := by omega
    simp [hj, this]
  · simp [hj]

/-- A field that does not overlap is as before. -/
theorem bits_putBits_disjoint (w : Word) {hi lo hi' lo' : Nat} (v : Nat) (h : lo ≤ hi) (h32 : hi < 32)
    (hd : hi' < lo ∨ hi < lo') : bits (putBits w hi lo v) hi' lo' = bits w hi' lo' := by
  refine Nat.eq_of_testBit_eq fun j => ?_
  rw [testBit_bits, testBit_bits, testBit_putBits w v h h32]
  by_cases hj : j < hi' + 1 - lo'
  · have : ¬ (lo ≤ j + lo' ∧ j + lo' ≤ hi) := by omega
    simp [this]
  · simp [hj]

/-- Writing a field with what it holds changes nothing. -/
theorem putBits_self (w : Word) {hi lo : Nat} (h : lo ≤ hi) (h32 : hi < 32) : putBits w hi lo (bits w hi lo) = w := by
  apply BitVec.eq_of_toNat_eq
  refine Nat.eq_of_testBit_eq fun j => ?_
  rw [testBit_putBits w _ h h32, testBit_bits]
  by_cases hj : lo ≤ j ∧ j ≤ hi
  · have : j - lo < hi + 1 - lo := by omega
    have e : j - lo + lo = j := by omega
    simp [hj, this, e]
  · simp [hj]

theorem bits_lt (w : Word) (hi lo : Nat) : bits w hi lo < 2 ^ (hi + 1 - lo) := Nat.mod_lt _ (by positivity)

end Sys2Proof.Machine
end

