-- ==== Sys2Proof/Laws/Store.lean ====
section
/-!
SUPPORT. Laws of the sparse store: what a write does to a later read, and that every operation keeps the keys rising.
-/
set_option Elab.async false
namespace Sys2Proof.Machine

variable {α : Type}

@[simp] theorem SMap.get?_nil (k : Nat) : SMap.get? ([] : SMap α) k = none := rfl

/-- The keys of a sorted map lie above a bound. -/
def SMap.above (k : Nat) (m : SMap α) : Prop := ∀ e ∈ m, k < e.1

theorem SMap.sorted_cons (j : Nat) (v : α) (t : SMap α) :
    SMap.sorted ((j, v) :: t) = true ↔ SMap.above j t ∧ SMap.sorted t = true := by
  induction t generalizing j v with
  | nil => simp [SMap.sorted, SMap.above]
  | cons e t ih =>
    obtain ⟨k, w⟩ := e
    have hk := ih k w
    simp only [SMap.sorted, Bool.and_eq_true, decide_eq_true_eq, SMap.above, List.mem_cons, forall_eq_or_imp]
    constructor
    · rintro ⟨hjk, hs⟩
      exact ⟨⟨hjk, fun e he => Nat.lt_trans hjk ((hk.1 hs).1 e he)⟩, hs⟩
    · rintro ⟨⟨hjk, -⟩, hs⟩
      exact ⟨hjk, hs⟩

theorem SMap.sorted_tail {j : Nat} {v : α} {t : SMap α} (h : SMap.sorted ((j, v) :: t) = true) : SMap.sorted t = true :=
  ((SMap.sorted_cons j v t).1 h).2

/-- A key below every listed key is not listed. -/
theorem SMap.get?_above {k : Nat} {m : SMap α} (h : SMap.above k m) : m.get? k = none := by
  cases m with
  | nil => rfl
  | cons e t =>
    have hk : k < e.1 := h e List.mem_cons_self
    simp [SMap.get?, Nat.ne_of_lt hk, hk]

@[simp] theorem SMap.get?_put_same (m : SMap α) (k : Nat) (v : α) : (m.put k v).get? k = some v := by
  induction m with
  | nil => simp [SMap.put, SMap.get?]
  | cons e t ih =>
    unfold SMap.put
    split
    · simp [SMap.get?]
    · split
      · simp [SMap.get?]
      · rename_i h1 h2
        simp [SMap.get?, h1, h2, ih]

theorem SMap.get?_put_ne (m : SMap α) {k j : Nat} (h : j ≠ k) (v : α) : (m.put k v).get? j = m.get? j := by
  induction m with
  | nil => simp [SMap.put, SMap.get?, h]
  | cons e t ih =>
    obtain ⟨i, w⟩ := e
    simp only [SMap.put]
    split
    · subst_vars; simp only [SMap.get?, h, if_false]
    · split
      · simp only [SMap.get?, h, if_false]
        split
        · have : j ≠ i := by omega
          have : j < i := by omega
          simp [*]
        · rfl
      · simp only [SMap.get?, ih]

theorem SMap.get?_del_ne (m : SMap α) {k j : Nat} (h : j ≠ k) (hm : m.sorted = true) : (m.del k).get? j = m.get? j := by
  induction m with
  | nil => rfl
  | cons e t ih =>
    obtain ⟨i, w⟩ := e
    have ht := (SMap.sorted_cons i w t).1 hm
    simp only [SMap.del]
    split
    · subst_vars
      simp only [SMap.get?, h, if_false]
      split
      · exact SMap.get?_above fun e he => Nat.lt_trans (by assumption) (ht.1 e he)
      · rfl
    · split
      · rfl
      · simp only [SMap.get?, ih ht.2]

theorem SMap.get?_del_same (m : SMap α) (k : Nat) (hm : m.sorted = true) : (m.del k).get? k = none := by
  induction m with
  | nil => rfl
  | cons e t ih =>
    obtain ⟨i, w⟩ := e
    have ht := (SMap.sorted_cons i w t).1 hm
    simp only [SMap.del]
    split
    · subst_vars
      exact SMap.get?_above ht.1
    · split
      · simp [SMap.get?, *]
      · simp [SMap.get?, *, ih ht.2]

theorem SMap.above_put {m : SMap α} {j k : Nat} {v : α} (h : SMap.above j m) (hk : j < k) : SMap.above j (m.put k v) := by
  induction m with
  | nil => simpa [SMap.put, SMap.above] using hk
  | cons e t ih =>
    obtain ⟨i, w⟩ := e
    have hi := h _ List.mem_cons_self
    have ht : SMap.above j t := fun e he => h e (List.mem_cons_of_mem _ he)
    simp only [SMap.put]
    split
    · exact fun e he => by
        rcases List.mem_cons.1 he with rfl | he
        · exact hk
        · exact ht e he
    · split
      · exact fun e he => by
          rcases List.mem_cons.1 he with rfl | he
          · exact hk
          · exact h e he
      · exact fun e he => by
          rcases List.mem_cons.1 he with rfl | he
          · exact hi
          · exact ih ht e he

/-- A write keeps the keys rising. -/
theorem SMap.sorted_put (m : SMap α) (k : Nat) (v : α) (h : m.sorted = true) : (m.put k v).sorted = true := by
  induction m with
  | nil => rfl
  | cons e t ih =>
    obtain ⟨i, w⟩ := e
    have ht := (SMap.sorted_cons i w t).1 h
    simp only [SMap.put]
    split
    · subst_vars; exact (SMap.sorted_cons _ _ _).2 ht
    · split
      · exact (SMap.sorted_cons _ _ _).2 ⟨fun e he => by
          rcases List.mem_cons.1 he with rfl | he
          · assumption
          · exact Nat.lt_trans (by assumption) (ht.1 e he), h⟩
      · exact (SMap.sorted_cons _ _ _).2 ⟨SMap.above_put ht.1 (by omega), ih ht.2⟩

theorem SMap.mem_del {m : SMap α} {k : Nat} {e : Nat × α} (h : e ∈ m.del k) : e ∈ m := by
  induction m with
  | nil => exact h
  | cons d t ih =>
    obtain ⟨i, w⟩ := d
    simp only [SMap.del] at h
    split at h
    · exact List.mem_cons_of_mem _ h
    · split at h
      · exact h
      · rcases List.mem_cons.1 h with rfl | h
        · exact List.mem_cons_self
        · exact List.mem_cons_of_mem _ (ih h)

/-- A removal keeps the keys rising. -/
theorem SMap.sorted_del (m : SMap α) (k : Nat) (h : m.sorted = true) : (m.del k).sorted = true := by
  induction m with
  | nil => rfl
  | cons e t ih =>
    obtain ⟨i, w⟩ := e
    have ht := (SMap.sorted_cons i w t).1 h
    simp only [SMap.del]
    split
    · exact ht.2
    · split
      · exact h
      · exact (SMap.sorted_cons _ _ _).2 ⟨fun e he => ht.1 e (SMap.mem_del he), ih ht.2⟩

/-- A filter keeps the keys rising. -/
theorem SMap.sorted_filter (m : SMap α) (p : Nat × α → Bool) (h : m.sorted = true) : SMap.sorted (m.filter p) = true := by
  induction m with
  | nil => rfl
  | cons e t ih =>
    obtain ⟨i, w⟩ := e
    have ht := (SMap.sorted_cons i w t).1 h
    simp only [List.filter_cons]
    split
    · exact (SMap.sorted_cons _ _ _).2 ⟨fun e he => ht.1 e (List.mem_filter.1 he).1, ih ht.2⟩
    · exact ih ht.2

theorem SMap.sorted_putD [DecidableEq α] (m : SMap α) (k : Nat) (v d : α) (h : m.sorted = true) : (m.putD k v d).sorted = true := by
  unfold SMap.putD
  split
  · exact SMap.sorted_del m k h
  · exact SMap.sorted_put m k v h

theorem SMap.mem_put {m : SMap α} {k : Nat} {v : α} {e : Nat × α} (h : e ∈ m.put k v) : e = (k, v) ∨ e ∈ m := by
  induction m with
  | nil => exact .inl (List.mem_singleton.1 h)
  | cons d t ih =>
    obtain ⟨i, w⟩ := d
    simp only [SMap.put] at h
    split at h
    · rcases List.mem_cons.1 h with rfl | h
      · exact .inl rfl
      · exact .inr (List.mem_cons_of_mem _ h)
    · split at h
      · rcases List.mem_cons.1 h with rfl | h
        · exact .inl rfl
        · exact .inr h
      · rcases List.mem_cons.1 h with rfl | h
        · exact .inr List.mem_cons_self
        · rcases ih h with rfl | h
          · exact .inl rfl
          · exact .inr (List.mem_cons_of_mem _ h)

/-- A write of the default value lists nothing, and any other write lists no default. -/
theorem SMap.all_putD [DecidableEq α] {m : SMap α} {d : Nat → α} (k : Nat) (v : α) (h : ∀ e ∈ m, e.2 ≠ d e.1) :
    ∀ e ∈ m.putD k v (d k), e.2 ≠ d e.1 := by
  unfold SMap.putD
  split
  · exact fun e he => h e (SMap.mem_del he)
  · rename_i hv
    intro e he
    rcases SMap.mem_put he with rfl | he
    · exact hv
    · exact h e he

theorem SMap.getD_putD_same [DecidableEq α] (m : SMap α) (k : Nat) (v d : α) (h : m.sorted = true) :
    (m.putD k v d).getD k d = v := by
  unfold SMap.putD SMap.getD
  split
  · simp [SMap.get?_del_same m k h, *]
  · simp

theorem SMap.getD_putD_ne [DecidableEq α] (m : SMap α) {j k : Nat} (hjk : j ≠ k) (v d d' : α) (h : m.sorted = true) :
    (m.putD k v d).getD j d' = m.getD j d' := by
  unfold SMap.putD SMap.getD
  split
  · rw [SMap.get?_del_ne m hjk h]
  · rw [SMap.get?_put_ne m hjk]

end Sys2Proof.Machine
end

