-- ==== Sys2Proof/Laws/Memory.lean ====
section
/-!
SUPPORT. Laws of the byte memories: every operation keeps the canonical form, and a read after a write.
-/
set_option Elab.async false
namespace Sys2Proof.Machine

theorem Memory.wf_iff (d : Byte) (m : Memory) : m.wf d = true ↔ SMap.sorted m = true ∧ ∀ e ∈ m, e.2 ≠ d := by
  simp [Memory.wf, List.all_eq_true]

theorem Memory.wf_nil (d : Byte) : Memory.wf d [] = true := rfl

theorem Memory.wf_filter {d : Byte} {m : Memory} (p : Host.Cell → Bool) (h : m.wf d = true) : Memory.wf d (m.filter p) = true := by
  rw [Memory.wf_iff] at h ⊢
  exact ⟨SMap.sorted_filter m p h.1, fun e he => h.2 e (List.mem_filter.1 he).1⟩

/-- Clearing a range keeps the canonical form. -/
theorem Memory.wf_clear {d : Byte} {m : Memory} (a n : Nat) (h : m.wf d = true) : (m.clear a n).wf d = true :=
  Memory.wf_filter _ h

theorem Memory.wf_put {d : Byte} {m : Memory} (a : Nat) (b : Byte) (h : m.wf d = true) : (m.put d a b).wf d = true := by
  rw [Memory.wf_iff] at h ⊢
  exact ⟨SMap.sorted_putD m a b d h.1, SMap.all_putD (d := fun _ => d) a b h.2⟩

theorem cellsFrom_ge {d : Byte} {a : Nat} {l : List Byte} {e : Host.Cell} (h : e ∈ cellsFrom d a l) : a ≤ e.1 ∧ e.1 < a + l.length := by
  induction l generalizing a with
  | nil => cases h
  | cons b t ih =>
    unfold cellsFrom at h
    split at h
    · have := ih h; simp only [List.length_cons]; omega
    · rcases List.mem_cons.1 h with rfl | h
      · simp
      · have := ih h; simp only [List.length_cons]; omega

theorem cellsFrom_wf (d : Byte) (a : Nat) (l : List Byte) : Memory.wf d (cellsFrom d a l) = true := by
  induction l generalizing a with
  | nil => rfl
  | cons b t ih =>
    unfold cellsFrom
    have := (Memory.wf_iff d _).1 (ih (a + 1))
    split
    · exact ih (a + 1)
    · rw [Memory.wf_iff]
      refine ⟨(SMap.sorted_cons _ _ _).2 ⟨fun e he => ?_, this.1⟩, ?_⟩
      · exact (cellsFrom_ge he).1
      · intro e he
        rcases List.mem_cons.1 he with rfl | he
        · assumption
        · exact this.2 e he

/-- Two sorted maps, the first below the second, are sorted together. -/
theorem SMap.sorted_append {α : Type} {m n : SMap α} (hm : m.sorted = true) (hn : n.sorted = true)
    (h : ∀ e ∈ m, ∀ f ∈ n, e.1 < f.1) : SMap.sorted (m ++ n) = true := by
  induction m with
  | nil => exact hn
  | cons e t ih =>
    obtain ⟨i, w⟩ := e
    have ht := (SMap.sorted_cons i w t).1 hm
    refine (SMap.sorted_cons _ _ _).2 ⟨fun e he => ?_, ih ht.2 fun e he => h e (List.mem_cons_of_mem _ he)⟩
    rcases List.mem_append.1 he with he | he
    · exact ht.1 e he
    · exact h _ List.mem_cons_self e he

/-- Writing bytes keeps the canonical form. -/
theorem Memory.wf_writeBytes {d : Byte} {m : Memory} (a : Nat) (l : List Byte) (h : m.wf d = true) :
    (m.writeBytes d a l).wf d = true := by
  have lo := (Memory.wf_iff d _).1 (Memory.wf_filter (fun e => decide (e.1 < a)) h)
  have hi := (Memory.wf_iff d _).1 (Memory.wf_filter (fun e => decide (a + l.length ≤ e.1)) h)
  have mid := (Memory.wf_iff d _).1 (cellsFrom_wf d a l)
  rw [Memory.wf_iff]
  unfold Memory.writeBytes
  refine ⟨SMap.sorted_append (SMap.sorted_append lo.1 mid.1 ?_) hi.1 ?_, ?_⟩
  · intro e he f hf
    have := of_decide_eq_true (List.mem_filter.1 he).2
    have := cellsFrom_ge hf
    omega
  · intro e he f hf
    have hf := of_decide_eq_true (List.mem_filter.1 hf).2
    rcases List.mem_append.1 he with he | he
    · have := of_decide_eq_true (List.mem_filter.1 he).2; omega
    · have := cellsFrom_ge he; omega
  · intro e he
    rcases List.mem_append.1 he with he | he
    · rcases List.mem_append.1 he with he | he
      · exact lo.2 e he
      · exact mid.2 e he
    · exact hi.2 e he

/-- Programming bytes keeps the canonical form. -/
theorem Memory.wf_program {m : Memory} (a : Nat) (l : List Byte) (h : m.wf erased = true) : (m.program a l).wf erased = true :=
  Memory.wf_writeBytes a _ h

/-- A read after a write of one byte gives the byte written, and every other byte as before. -/
theorem Memory.get_put_same {d : Byte} {m : Memory} (a : Nat) (b : Byte) (h : m.wf d = true) : (m.put d a b).get d a = b :=
  SMap.getD_putD_same m a b d ((Memory.wf_iff d m).1 h).1

theorem Memory.get_put_ne {d : Byte} {m : Memory} {a c : Nat} (hc : c ≠ a) (b : Byte) (h : m.wf d = true) :
    (m.put d a b).get d c = m.get d c :=
  SMap.getD_putD_ne m hc b d d ((Memory.wf_iff d m).1 h).1

/-- A key that no entry has is not found. -/
theorem SMap.get?_none {α : Type} {m : SMap α} {k : Nat} (h : ∀ e ∈ m, e.1 ≠ k) : m.get? k = none := by
  induction m with
  | nil => rfl
  | cons e t ih =>
    have he : k ≠ e.1 := fun x => h e List.mem_cons_self x.symm
    simp only [SMap.get?, he, if_false]
    split
    · rfl
    · exact ih fun f hf => h f (List.mem_cons_of_mem _ hf)

/-- In a sorted map an entry is what its key finds. -/
theorem SMap.get?_mem {α : Type} {m : SMap α} {e : Nat × α} (hm : m.sorted = true) (h : e ∈ m) : m.get? e.1 = some e.2 := by
  induction m with
  | nil => cases h
  | cons f t ih =>
    obtain ⟨i, w⟩ := f
    have ht := (SMap.sorted_cons i w t).1 hm
    rcases List.mem_cons.1 h with rfl | h
    · simp [SMap.get?]
    · have := ht.1 e h
      have h1 : e.1 ≠ i := by omega
      have h2 : ¬ e.1 < i := by omega
      simp only [SMap.get?, h1, h2, if_false]
      exact ih ht.2 h

theorem SMap.mem_of_get? {α : Type} {m : SMap α} {k : Nat} {v : α} (h : m.get? k = some v) : (k, v) ∈ m := by
  induction m with
  | nil => simp at h
  | cons f t ih =>
    obtain ⟨i, w⟩ := f
    simp only [SMap.get?] at h
    split at h
    · simp_all
    · split at h
      · simp at h
      · exact List.mem_cons_of_mem _ (ih h)

/-- A filter that keeps a key keeps what it finds. -/
theorem SMap.get?_filter {α : Type} {m : SMap α} {k : Nat} (p : Nat × α → Bool) (hm : m.sorted = true)
    (hp : ∀ v, p (k, v) = true) : SMap.get? (m.filter p) k = m.get? k := by
  cases hk : m.get? k with
  | some v =>
    exact SMap.get?_mem (e := (k, v)) (SMap.sorted_filter m p hm) (List.mem_filter.2 ⟨SMap.mem_of_get? hk, hp v⟩)
  | none =>
    refine SMap.get?_none fun e he hek => ?_
    have := SMap.get?_mem hm (List.mem_filter.1 he).1
    rw [hek, hk] at this
    cases this

/-- Clearing a range leaves every byte outside it as it was, and returns the bytes within it to the default. -/
theorem Memory.get_clear {d : Byte} {m : Memory} (a n c : Nat) (h : m.wf d = true) :
    (m.clear a n).get d c = if a ≤ c ∧ c < a + n then d else m.get d c := by
  have hs := ((Memory.wf_iff d m).1 h).1
  simp only [Memory.get, Memory.clear, SMap.getD, SMap.without]
  split
  · rw [SMap.get?_none]
    · rfl
    · intro e he hc
      have := (List.mem_filter.1 he).2
      simp_all
  · rename_i hc
    rw [SMap.get?_filter _ hs]
    intro v
    simp only [Bool.not_eq_true', decide_eq_false_iff_not]
    exact hc

/-- Writing bytes leaves every byte outside them as it was. -/
theorem Memory.get_writeBytes_ne {d : Byte} {m : Memory} (a c : Nat) (l : List Byte) (h : m.wf d = true)
    (hc : c < a ∨ a + l.length ≤ c) : (m.writeBytes d a l).get d c = m.get d c := by
  have hs := ((Memory.wf_iff d m).1 h).1
  have hw := ((Memory.wf_iff d _).1 (Memory.wf_writeBytes a l h)).1
  simp only [Memory.get, SMap.getD]
  congr 1
  cases hk : SMap.get? m c with
  | some v =>
    refine SMap.get?_mem (e := (c, v)) hw ?_
    have := SMap.mem_of_get? hk
    unfold Memory.writeBytes
    simp only [List.mem_append, List.mem_filter, decide_eq_true_eq]
    rcases hc with hc | hc
    · exact .inl (.inl ⟨this, hc⟩)
    · exact .inr ⟨this, hc⟩
  | none =>
    refine SMap.get?_none fun e he hec => ?_
    unfold Memory.writeBytes at he
    rcases List.mem_append.1 he with he | he
    · rcases List.mem_append.1 he with he | he
      · have := SMap.get?_mem hs (List.mem_filter.1 he).1
        rw [hec, hk] at this; cases this
      · have := cellsFrom_ge he; omega
    · have := SMap.get?_mem hs (List.mem_filter.1 he).1
      rw [hec, hk] at this; cases this

end Sys2Proof.Machine
end

