-- ==== Sys2Proof/Laws/State.lean ====
section
/-!
SUPPORT. What each action does to each field of the state: a field's new value where the action is about it, and the old
value everywhere else.
-/
set_option Elab.async false
namespace Sys2Proof.Machine

@[simp] theorem apply_pending (a : Act) (s : State) : (apply a s).pending = s.pending := by
  cases a <;> first | rfl | (simp only [apply]; split <;> rfl)

@[simp] theorem apply_now (a : Act) (s : State) : (apply a s).now = s.now := by
  cases a <;> first | rfl | (simp only [apply]; split <;> rfl)

@[simp] theorem apply_regs (a : Act) (s : State) : (apply a s).regs = 
    match a with
    | .reg off w => s.regs.putD off w (resetWord off)
    | _ => s.regs := by
  cases a <;> first | rfl | (simp only [apply]; split <;> rfl)

@[simp] theorem apply_staged (a : Act) (s : State) : (apply a s).staged = 
    match a with
    | .stage off w => s.staged.put off w
    | .unstage off => s.staged.del off
    | _ => s.staged := by
  cases a <;> first | rfl | (simp only [apply]; split <;> rfl)

@[simp] theorem apply_undoBlocks (a : Act) (s : State) : (apply a s).undoBlocks = 
    match a with
    | .undoSave b _ => if b ∈ s.undoBlocks then s.undoBlocks else b :: s.undoBlocks
    | .undoDrop b => s.undoBlocks.erase b
    | _ => s.undoBlocks := by
  cases a <;> first | rfl | (simp only [apply]; split <;> rfl)

@[simp] theorem apply_undo (a : Act) (s : State) : (apply a s).undo = 
    match a with
    | .undoSave b words => words.foldl (fun m e => m.put e.1 e.2) (s.undo.without (b * 0x10000) (b * 0x10000 + 0x10000))
    | .undoKeep off w => s.undo.put off w
    | .undoDrop b => s.undo.without (b * 0x10000) (b * 0x10000 + 0x10000)
    | _ => s.undo := by
  cases a <;> first | rfl | (simp only [apply]; split <;> rfl)

@[simp] theorem apply_tv (a : Act) (s : State) : (apply a s).tv = 
    match a with
    | .reg off _ => s.tv.del off
    | .tvSet off c => s.tv.put off c
    | .tvClear off => s.tv.del off
    | _ => s.tv := by
  cases a <;> first | rfl | (simp only [apply]; split <;> rfl)

@[simp] theorem apply_snaps (a : Act) (s : State) : (apply a s).snaps = 
    match a with
    | .snap key w => s.snaps.put key w
    | .snapDrop => []
    | _ => s.snaps := by
  cases a <;> first | rfl | (simp only [apply]; split <;> rfl)

@[simp] theorem apply_held (a : Act) (s : State) : (apply a s).held = 
    match a with
    | .hold off w => s.held.put off w
    | .unhold off => s.held.del off
    | .snapDrop => []
    | _ => s.held := by
  cases a <;> first | rfl | (simp only [apply]; split <;> rfl)

@[simp] theorem apply_sqWin (a : Act) (s : State) : (apply a s).sqWin = 
    match a with
    | .win off t => (match t with | some v => s.sqWin.put off v | none => s.sqWin.del off)
    | _ => s.sqWin := by
  cases a <;> first | rfl | (simp only [apply]; split <;> rfl)

@[simp] theorem apply_acQueue (a : Act) (s : State) : (apply a s).acQueue = 
    match a with
    | .acPush q => if s.acQueue.length < 4 then s.acQueue ++ [q] else s.acQueue
    | .acPop => s.acQueue.tail
    | _ => s.acQueue := by
  cases a <;> first | rfl | (simp only [apply]; split <;> rfl)

@[simp] theorem apply_acCopy (a : Act) (s : State) : (apply a s).acCopy = 
    match a with
    | .acRefresh => aonWords s.regs
    | _ => s.acCopy := by
  cases a <;> first | rfl | (simp only [apply]; split <;> rfl)

@[simp] theorem apply_ports (a : Act) (s : State) : (apply a s).ports = 
    match a with
    | .port p x => s.ports.putD p x {}
    | _ => s.ports := by
  cases a <;> first | rfl | (simp only [apply]; split <;> rfl)

@[simp] theorem apply_canes (a : Act) (s : State) : (apply a s).canes = 
    match a with
    | .cane k x => s.canes.putD k x {}
    | _ => s.canes := by
  cases a <;> first | rfl | (simp only [apply]; split <;> rfl)

@[simp] theorem apply_bnds (a : Act) (s : State) : (apply a s).bnds = 
    match a with
    | .bnd b x => s.bnds.putD b x {}
    | _ => s.bnds := by
  cases a <;> first | rfl | (simp only [apply]; split <;> rfl)

@[simp] theorem apply_fur (a : Act) (s : State) : (apply a s).fur = 
    match a with
    | .fur x => x
    | _ => s.fur := by
  cases a <;> first | rfl | (simp only [apply]; split <;> rfl)

@[simp] theorem apply_mld (a : Act) (s : State) : (apply a s).mld = 
    match a with
    | .mld x => x
    | _ => s.mld := by
  cases a <;> first | rfl | (simp only [apply]; split <;> rfl)

@[simp] theorem apply_tb (a : Act) (s : State) : (apply a s).tb = 
    match a with
    | .tb x => x
    | _ => s.tb := by
  cases a <;> first | rfl | (simp only [apply]; split <;> rfl)

@[simp] theorem apply_cal (a : Act) (s : State) : (apply a s).cal = 
    match a with
    | .cal x => x
    | _ => s.cal := by
  cases a <;> first | rfl | (simp only [apply]; split <;> rfl)

@[simp] theorem apply_diag (a : Act) (s : State) : (apply a s).diag = 
    match a with
    | .diag x => x
    | _ => s.diag := by
  cases a <;> first | rfl | (simp only [apply]; split <;> rfl)

@[simp] theorem apply_flash (a : Act) (s : State) : (apply a s).flash = 
    match a with
    | .flashProgram a l => s.flash.program a l
    | .flashErase a n => s.flash.clear a n
    | .flashReplace a l => s.flash.writeBytes erased a l
    | _ => s.flash := by
  cases a <;> first | rfl | (simp only [apply]; split <;> rfl)

@[simp] theorem apply_sram (a : Act) (s : State) : (apply a s).sram = 
    match a with
    | .sramWrite a l => s.sram.writeBytes blank a l
    | .sramClear a n => s.sram.clear a n
    | _ => s.sram := by
  cases a <;> first | rfl | (simp only [apply]; split <;> rfl)

@[simp] theorem apply_cellar (a : Act) (s : State) : (apply a s).cellar = 
    match a with
    | .cellarWrite a l => s.cellar.writeBytes blank a l
    | .cellarClear a n => s.cellar.clear a n
    | _ => s.cellar := by
  cases a <;> first | rfl | (simp only [apply]; split <;> rfl)

@[simp] theorem apply_commit (a : Act) (s : State) : (apply a s).commit = 
    match a with
    | .commit x => x
    | _ => s.commit := by
  cases a <;> first | rfl | (simp only [apply]; split <;> rfl)

@[simp] theorem apply_heads (a : Act) (s : State) : (apply a s).heads = 
    match a with
    | .head h x => s.heads.putD h x {}
    | _ => s.heads := by
  cases a <;> first | rfl | (simp only [apply]; split <;> rfl)

@[simp] theorem apply_rings (a : Act) (s : State) : (apply a s).rings = 
    match a with
    | .ring k x => s.rings.putD k x {}
    | _ => s.rings := by
  cases a <;> first | rfl | (simp only [apply]; split <;> rfl)

@[simp] theorem apply_chans (a : Act) (s : State) : (apply a s).chans = 
    match a with
    | .chan c x => s.chans.putD c x {}
    | _ => s.chans := by
  cases a <;> first | rfl | (simp only [apply]; split <;> rfl)

@[simp] theorem apply_filled (a : Act) (s : State) : (apply a s).filled = 
    match a with
    | .filled l => l
    | _ => s.filled := by
  cases a <;> first | rfl | (simp only [apply]; split <;> rfl)

@[simp] theorem apply_fport (a : Act) (s : State) : (apply a s).fport = 
    match a with
    | .fport x => x
    | _ => s.fport := by
  cases a <;> first | rfl | (simp only [apply]; split <;> rfl)

@[simp] theorem apply_power (a : Act) (s : State) : (apply a s).power = 
    match a with
    | .power x => x
    | _ => s.power := by
  cases a <;> first | rfl | (simp only [apply]; split <;> rfl)

@[simp] theorem apply_clock (a : Act) (s : State) : (apply a s).clock = 
    match a with
    | .clock x => x
    | _ => s.clock := by
  cases a <;> first | rfl | (simp only [apply]; split <;> rfl)

@[simp] theorem apply_fault (a : Act) (s : State) : (apply a s).fault = 
    match a with
    | .fault x => x
    | _ => s.fault := by
  cases a <;> first | rfl | (simp only [apply]; split <;> rfl)

@[simp] theorem apply_pins (a : Act) (s : State) : (apply a s).pins = 
    match a with
    | .pins x => x
    | _ => s.pins := by
  cases a <;> first | rfl | (simp only [apply]; split <;> rfl)

@[simp] theorem apply_spiRejected (a : Act) (s : State) : (apply a s).spiRejected = 
    match a with
    | .spiRejected b => b
    | _ => s.spiRejected := by
  cases a <;> first | rfl | (simp only [apply]; split <;> rfl)

@[simp] theorem apply_intake (a : Act) (s : State) : (apply a s).intake = 
    match a with
    | .emit m => s.intake ++ [m]
    | .take => []
    | _ => s.intake := by
  cases a <;> first | rfl | (simp only [apply]; split <;> rfl)

@[simp] theorem apply_out (a : Act) (s : State) : (apply a s).out = 
    match a with
    | .out o => s.out ++ [o]
    | _ => s.out := by
  cases a <;> first | rfl | (simp only [apply]; split <;> rfl)

@[simp] theorem apply_free (a : Act) (s : State) : (apply a s).free = 
    match a with
    | .draw => s.free + 1
    | _ => s.free := by
  cases a <;> first | rfl | (simp only [apply]; split <;> rfl)

/-- A grant takes a booking where it clashes with none that is held (R285, R288). -/
@[simp] theorem apply_ledger (a : Act) (s : State) : (apply a s).ledger =
    match a with
    | .grant b => if s.ledger.books.all (fun c => !b.clashes c) ∧ s.ledger.books.length < 32 then { s.ledger with books := s.ledger.books ++ [b] } else s.ledger
    | .release b => { s.ledger with books := s.ledger.books.erase b }
    | .enqueue b => if s.ledger.queue.length < 8 then { s.ledger with queue := s.ledger.queue ++ [b] } else s.ledger
    | .dequeue b => { s.ledger with queue := s.ledger.queue.erase b }
    | _ => s.ledger := by
  cases a <;> first | rfl | (simp only [apply]; split <;> rfl)

@[simp] theorem apply_otp (a : Act) (s : State) : (apply a s).otp =
    match a with
    | .fuseKey i d => { s.otp with keys := s.otp.keys.zipIdx.map fun e => if e.2 = i ∧ !e.1.programmed then { e.1 with programmed := true, digest := d } else e.1 }
    | .revokeKeys mask => { s.otp with keys := s.otp.keys.zipIdx.map fun e => { e.1 with revoked := e.1.revoked || bitOf mask e.2 } }
    | .lifecycle v => { s.otp with lifecycle := max s.otp.lifecycle v }
    | .chain l => { s.otp with chain := l }
    | _ => s.otp := by
  cases a <;> first | rfl | (simp only [apply]; split <;> rfl)

end Sys2Proof.Machine
end

