-- ==== Sys2Proof/Laws/Prog.lean ====
section
/-!
SUPPORT. Laws of programs: how each form runs, and the induction that carries a fact about every action to every program.
-/
set_option Elab.async false
namespace Sys2Proof.Machine

@[simp] theorem run_skip (s : State) : run .skip s = s := rfl
@[simp] theorem run_act (a : Act) (s : State) : run (.act a) s = apply a s := rfl
@[simp] theorem run_seq (p q : Prog) (s : State) : run (.seq p q) s = run q (run p s) := rfl
@[simp] theorem run_read (k : State → Prog) (s : State) : run (.read k) s = run (k s) s := rfl
@[simp] theorem run_block_nil (s : State) : run (block []) s = s := rfl
@[simp] theorem run_block_cons (p : Prog) (t : List Prog) (s : State) : run (block (p :: t)) s = run (block t) (run p s) := rfl
@[simp] theorem run_when (c : Bool) (p : Prog) (s : State) : run (when c p) s = if c then run p s else s := by
  cases c <;> rfl
@[simp] theorem run_ite (c : Prop) [Decidable c] (p q : Prog) (s : State) :
    run (if c then p else q) s = if c then run p s else run q s := by split <;> rfl
@[simp] theorem run_each_nil {α : Type} (f : α → Prog) (s : State) : run (each [] f) s = s := rfl
@[simp] theorem run_each_cons {α : Type} (x : α) (l : List α) (f : α → Prog) (s : State) :
    run (each (x :: l) f) s = run (each l f) (run (f x) s) := rfl
@[simp] theorem run_ifSome_some {α : Type} (x : α) (f : α → Prog) (s : State) : run (ifSome (some x) f) s = run (f x) s := rfl
@[simp] theorem run_ifSome_none {α : Type} (f : α → Prog) (s : State) : run (ifSome none f) s = s := rfl

@[simp] theorem run_setReg (off : Nat) (w : Word) (s : State) : run (setReg off w) s = apply (.reg off w) s := rfl
@[simp] theorem run_setF (F : Field) (v : Nat) (s : State) :
    run (setF F v) s = apply (.reg F.off (putBits (s.reg F.off) F.hi F.lo v)) s := rfl
@[simp] theorem run_emit (src kind cls detail w1 : Nat) (s : State) :
    run (emit src kind cls detail w1) s = apply (.emit ⟨src, kind, cls, detail, w1⟩) s := rfl
@[simp] theorem run_send (o : Out) (s : State) : run (send o) s = apply (.out o) s := rfl
@[simp] theorem run_updPort (p : Nat) (g : PortX → PortX) (s : State) :
    run (updPort p g) s = apply (.port p (g (s.port p))) s := rfl
@[simp] theorem run_updHead (h : Nat) (g : HeadX → HeadX) (s : State) :
    run (updHead h g) s = apply (.head h (g (s.head h))) s := rfl
@[simp] theorem run_updPower (g : PowerX → PowerX) (s : State) : run (updPower g) s = apply (.power (g s.power)) s := rfl
@[simp] theorem run_updFault (g : FaultX → FaultX) (s : State) : run (updFault g) s = apply (.fault (g s.fault)) s := rfl
@[simp] theorem run_updClock (g : ClockX → ClockX) (s : State) : run (updClock g) s = apply (.clock (g s.clock)) s := rfl
@[simp] theorem run_updTb (g : TbX → TbX) (s : State) : run (updTb g) s = apply (.tb (g s.tb)) s := rfl
@[simp] theorem run_updMld (g : MldX → MldX) (s : State) : run (updMld g) s = apply (.mld (g s.mld)) s := rfl
@[simp] theorem run_updCal (g : CalX → CalX) (s : State) : run (updCal g) s = apply (.cal (g s.cal)) s := rfl
@[simp] theorem run_updDiag (g : DiagX → DiagX) (s : State) : run (updDiag g) s = apply (.diag (g s.diag)) s := rfl
@[simp] theorem run_updFlash (g : FlashX → FlashX) (s : State) : run (updFlash g) s = apply (.fport (g s.fport)) s := rfl
@[simp] theorem run_updFur (g : FurX → FurX) (s : State) : run (updFur g) s = apply (.fur (g s.fur)) s := rfl
@[simp] theorem run_updChan (c : Nat) (g : ChanX → ChanX) (s : State) :
    run (updChan c g) s = apply (.chan c (g (s.chans.getD c {}))) s := rfl

/-! Every action of a program meets a condition. -/

variable {C : Act → Prop}

@[simp] theorem all_skip : Prog.All C .skip ↔ True := Iff.rfl
@[simp] theorem all_act (a : Act) : Prog.All C (.act a) ↔ C a := Iff.rfl
@[simp] theorem all_seq (p q : Prog) : Prog.All C (.seq p q) ↔ Prog.All C p ∧ Prog.All C q := Iff.rfl
@[simp] theorem all_read (k : State → Prog) : Prog.All C (.read k) ↔ ∀ s, Prog.All C (k s) := Iff.rfl
@[simp] theorem all_block (l : List Prog) : Prog.All C (block l) ↔ ∀ p ∈ l, Prog.All C p := by
  induction l with
  | nil => simp [block]
  | cons p t ih => simp [block, ih]
@[simp] theorem all_when (c : Bool) (p : Prog) : Prog.All C (when c p) ↔ (c = true → Prog.All C p) := by
  cases c <;> simp [when]
@[simp] theorem all_ite (c : Prop) [Decidable c] (p q : Prog) :
    Prog.All C (if c then p else q) ↔ (c → Prog.All C p) ∧ (¬ c → Prog.All C q) := by
  split <;> simp [*]
@[simp] theorem all_each {α : Type} (l : List α) (f : α → Prog) : Prog.All C (each l f) ↔ ∀ x ∈ l, Prog.All C (f x) := by
  simp [each]
@[simp] theorem all_ifSome {α : Type} (o : Option α) (f : α → Prog) :
    Prog.All C (ifSome o f) ↔ ∀ x, o = some x → Prog.All C (f x) := by
  cases o <;> simp [ifSome]
@[simp] theorem all_setReg (off : Nat) (w : Word) : Prog.All C (setReg off w) ↔ C (.reg off w) := Iff.rfl
@[simp] theorem all_emit (src kind cls detail w1 : Nat) :
    Prog.All C (emit src kind cls detail w1) ↔ C (.emit ⟨src, kind, cls, detail, w1⟩) := Iff.rfl
@[simp] theorem all_send (o : Out) : Prog.All C (send o) ↔ C (.out o) := Iff.rfl

/-- A program whose actions all meet a condition holds, when it is run, whatever every such action keeps. -/
theorem run_keeps {P : State → Prop} (hC : ∀ a s, C a → P s → P (apply a s)) (p : Prog) (hp : Prog.All C p) (s : State) (hs : P s) :
    P (run p s) := by
  induction p generalizing s with
  | skip => exact hs
  | act a => exact hC a s hp hs
  | seq p q ihp ihq => exact ihq hp.2 _ (ihp hp.1 _ hs)
  | read k ih => exact ih s (hp s) s hs

/-- What every action keeps, every program keeps. -/
theorem run_always {P : State → Prop} (h : ∀ a s, P s → P (apply a s)) (p : Prog) (s : State) (hs : P s) : P (run p s) := by
  induction p generalizing s with
  | skip => exact hs
  | act a => exact h a s hs
  | seq p q ihp ihq => exact ihq _ (ihp _ hs)
  | read k ih => exact ih s s hs

/-- A part of the state that no action of a program touches is as before. -/
theorem run_frame {α : Type} (f : State → α) (hC : ∀ a s, C a → f (apply a s) = f s) (p : Prog) (hp : Prog.All C p) (s : State) :
    f (run p s) = f s :=
  run_keeps (P := fun t => f t = f s) (fun a t ha ht => (hC a t ha).trans ht) p hp s rfl

/-- No command touches the queue or the time. -/
@[simp] theorem run_pending (p : Prog) (s : State) : (run p s).pending = s.pending :=
  run_always (P := fun t => t.pending = s.pending) (fun a t h => by simpa using h) p s rfl
@[simp] theorem run_now (p : Prog) (s : State) : (run p s).now = s.now :=
  run_always (P := fun t => t.now = s.now) (fun a t h => by simpa using h) p s rfl

end Sys2Proof.Machine
end

