-- ==== Sys2Proof/Laws/Registers.lean ====
section
/-!
SUPPORT. Laws of the register file: a word written is the word read, a field written is the field read, and every other word
and field is as before.
-/
set_option Elab.async false
namespace Sys2Proof.Machine

/-- The offset of the word that an action writes, if it writes one. -/
def Act.writes (off : Nat) : Act → Prop
  | .reg o _ => o = off
  | _ => False

theorem reg_apply_same (off : Nat) (w : Word) (s : State) (h : s.regs.sorted = true) : (apply (.reg off w) s).reg off = w := by
  simp only [State.reg, apply_regs]
  exact SMap.getD_putD_same s.regs off w _ h

theorem reg_apply_ne (a : Act) (s : State) {off : Nat} (h : s.regs.sorted = true) (ha : ¬ a.writes off) :
    (apply a s).reg off = s.reg off := by
  unfold State.reg
  rw [apply_regs]
  split
  · rename_i o w
    exact SMap.getD_putD_ne s.regs (fun e => ha e.symm) w _ _ h
  · rfl

/-- A write keeps the register store sorted, as every action does. -/
theorem apply_regs_sorted (a : Act) (s : State) (h : s.regs.sorted = true) : (apply a s).regs.sorted = true := by
  rw [apply_regs]
  split
  · exact SMap.sorted_putD s.regs _ _ _ h
  · exact h

theorem run_regs_sorted (p : Prog) (s : State) (h : s.regs.sorted = true) : (run p s).regs.sorted = true :=
  run_always (P := fun t => t.regs.sorted = true) apply_regs_sorted p s h

/-- A register that no action of a program writes is as before. -/
theorem run_reg_frame (off : Nat) (p : Prog) (hp : Prog.All (fun a => ¬ a.writes off) p) (s : State) (h : s.regs.sorted = true) :
    (run p s).reg off = s.reg off :=
  (run_keeps (P := fun t => t.regs.sorted = true ∧ t.reg off = s.reg off)
    (fun a t ha ht => ⟨apply_regs_sorted a t ht.1, (reg_apply_ne a t ht.1 ha).trans ht.2⟩) p hp s ⟨h, rfl⟩).2

/-- A field is well placed in its word. -/
def Field.ok (F : Field) : Prop := F.lo ≤ F.hi ∧ F.hi < 32

/-- A field written reads as what was written, cut to its width. -/
theorem f_run_setF_same (F : Field) (v : Nat) (s : State) (hF : F.ok) (h : s.regs.sorted = true) :
    (run (setF F v) s).f F = v % 2 ^ (F.hi + 1 - F.lo) := by
  simp only [State.f, run_setF, reg_apply_same _ _ _ h, bits_putBits_same _ _ hF.1 hF.2]

/-- A field of another word, or one beside it in the same word, is as before. -/
theorem f_run_setF_ne (F G : Field) (v : Nat) (s : State) (hF : F.ok) (h : s.regs.sorted = true)
    (hne : F.off ≠ G.off ∨ G.hi < F.lo ∨ F.hi < G.lo) : (run (setF F v) s).f G = s.f G := by
  simp only [State.f, run_setF]
  by_cases ho : F.off = G.off
  · rw [← ho, reg_apply_same _ _ _ h, bits_putBits_disjoint _ _ hF.1 hF.2 (by tauto)]
  · rw [reg_apply_ne _ s h (by simpa [Act.writes] using ho)]

/-- A field is as before where no action writes its word. -/
theorem f_run_frame (G : Field) (p : Prog) (hp : Prog.All (fun a => ¬ a.writes G.off) p) (s : State) (h : s.regs.sorted = true) :
    (run p s).f G = s.f G := by
  simp only [State.f, run_reg_frame G.off p hp s h]

end Sys2Proof.Machine
end

