-- ==== Sys2Proof/Laws/Invariant.lean ====
section
/-!
SUPPORT. Every action keeps each part of the invariant.
-/
set_option Elab.async false
namespace Sys2Proof.Machine

/-- Clashing is symmetric. -/
theorem clashes_comm (b c : Booking) : b.clashes c = c.clashes b := by
  have h : ∀ l m : List Nat, l.any (fun p => m.contains p) = m.any (fun p => l.contains p) := by
    intro l m
    rw [Bool.eq_iff_iff]
    simp only [List.any_eq_true, List.contains_eq_mem, decide_eq_true_eq]
    exact ⟨fun ⟨x, hx, hy⟩ => ⟨x, hy, hx⟩, fun ⟨x, hx, hy⟩ => ⟨x, hy, hx⟩⟩
  unfold Booking.clashes
  rw [h b.ports, h b.blines, h b.qtrs, Bool.and_comm b.flash, Bool.and_comm b.cellar, Bool.and_comm (b.act == 3 || b.act == 4)]

theorem exclusive_append (l : List Booking) (b : Booking) (hl : exclusive l = true) (hb : l.all (fun c => !b.clashes c) = true) :
    exclusive (l ++ [b]) = true := by
  induction l with
  | nil => rfl
  | cons a t ih =>
    simp only [exclusive, List.cons_append, Bool.and_eq_true, List.all_append, List.all_cons, List.all_nil, Bool.and_true] at hl hb ⊢
    refine ⟨⟨hl.1, ?_⟩, ih hl.2 hb.2⟩
    rw [clashes_comm]; exact hb.1

theorem exclusive_erase (l : List Booking) (b : Booking) (hl : exclusive l = true) : exclusive (l.erase b) = true := by
  induction l with
  | nil => rfl
  | cons a t ih =>
    simp only [exclusive, Bool.and_eq_true] at hl
    rw [List.erase_cons]
    split
    · exact hl.2
    · simp only [exclusive, Bool.and_eq_true]
      refine ⟨?_, ih hl.2⟩
      rw [List.all_eq_true] at hl ⊢
      exact fun c hc => hl.1 c (List.mem_of_mem_erase hc)

theorem apply_ledger_ok (a : Act) (s : State) (h : s.ledger.ok = true) : (apply a s).ledger.ok = true := by
  simp only [LedgerX.ok, Bool.and_eq_true, decide_eq_true_eq] at h ⊢
  rw [apply_ledger]
  split
  · split
    · rename_i hg
      refine ⟨⟨exclusive_append _ _ h.1.1 hg.1, ?_⟩, h.2⟩
      simp only [List.length_append, List.length_cons, List.length_nil]; omega
    · exact h
  · exact ⟨⟨exclusive_erase _ _ h.1.1, le_trans List.length_erase_le h.1.2⟩, h.2⟩
  · split
    · refine ⟨h.1, ?_⟩
      simp only [List.length_append, List.length_cons, List.length_nil]; omega
    · exact h
  · exact ⟨h.1, le_trans List.length_erase_le h.2⟩
  · exact h

theorem apply_queue_ok (a : Act) (s : State) (h : s.queueOk = true) : (apply a s).queueOk = true := by
  simp only [State.queueOk, decide_eq_true_eq] at h ⊢
  rw [apply_acQueue]
  split
  · split
    · simp only [List.length_append, List.length_cons, List.length_nil]; omega
    · exact h
  · rw [List.length_tail]; omega
  · exact h

theorem apply_memory_ok (a : Act) (s : State) (h : s.memoryOk = true) : (apply a s).memoryOk = true := by
  simp only [State.memoryOk, Bool.and_eq_true] at h ⊢
  rw [apply_flash, apply_sram, apply_cellar]
  refine ⟨⟨?_, ?_⟩, ?_⟩
  · split
    · exact Memory.wf_program _ _ h.1.1
    · exact Memory.wf_clear _ _ h.1.1
    · exact Memory.wf_writeBytes _ _ h.1.1
    · exact h.1.1
  · split
    · exact Memory.wf_writeBytes _ _ h.1.2
    · exact Memory.wf_clear _ _ h.1.2
    · exact h.1.2
  · split
    · exact Memory.wf_writeBytes _ _ h.2
    · exact Memory.wf_clear _ _ h.2
    · exact h.2

theorem regsOk_iff (m : SMap Word) : regsOk m = true ↔ m.sorted = true ∧ ∀ e ∈ m, e.2 ≠ resetWord e.1 := by
  simp [regsOk, List.all_eq_true]

theorem apply_regs_ok (a : Act) (s : State) (h : regsOk s.regs = true) : regsOk (apply a s).regs = true := by
  rw [regsOk_iff] at h ⊢
  refine ⟨apply_regs_sorted a s h.1, ?_⟩
  rw [apply_regs]
  split
  · exact SMap.all_putD (d := resetWord) _ _ h.2
  · exact h.2

theorem sorted_foldl_put (words : SMap Word) (m : SMap Word) (h : m.sorted = true) :
    SMap.sorted (words.foldl (fun m e => m.put e.1 e.2) m) = true := by
  induction words generalizing m with
  | nil => exact h
  | cons e t ih => exact ih _ (SMap.sorted_put m _ _ h)

theorem apply_maps_ok (a : Act) (s : State) (h : s.mapsOk = true) (hr : s.regs.sorted = true) : (apply a s).mapsOk = true := by
  simp only [State.mapsOk, Bool.and_eq_true] at h ⊢
  obtain ⟨⟨⟨⟨⟨⟨⟨⟨⟨⟨⟨⟨h1, h2⟩, h3⟩, h4⟩, h5⟩, h6⟩, h7⟩, h8⟩, h9⟩, h10⟩, h11⟩, h12⟩, h13⟩ := h
  rw [apply_staged, apply_undo, apply_tv, apply_snaps, apply_held, apply_sqWin, apply_acCopy, apply_ports, apply_canes,
    apply_bnds, apply_heads, apply_rings, apply_chans]
  refine ⟨⟨⟨⟨⟨⟨⟨⟨⟨⟨⟨⟨?_, ?_⟩, ?_⟩, ?_⟩, ?_⟩, ?_⟩, ?_⟩, ?_⟩, ?_⟩, ?_⟩, ?_⟩, ?_⟩, ?_⟩
  · split
    · exact SMap.sorted_put _ _ _ h1
    · exact SMap.sorted_del _ _ h1
    · exact h1
  · split
    · exact sorted_foldl_put _ _ (SMap.sorted_filter _ _ h2)
    · exact SMap.sorted_put _ _ _ h2
    · exact SMap.sorted_filter _ _ h2
    · exact h2
  · split
    · exact SMap.sorted_del _ _ h3
    · exact SMap.sorted_put _ _ _ h3
    · exact SMap.sorted_del _ _ h3
    · exact h3
  · split
    · exact SMap.sorted_put _ _ _ h4
    · rfl
    · exact h4
  · split
    · exact SMap.sorted_put _ _ _ h5
    · exact SMap.sorted_del _ _ h5
    · rfl
    · exact h5
  · split
    · split
      · exact SMap.sorted_put _ _ _ h6
      · exact SMap.sorted_del _ _ h6
    · exact h6
  · split
    · exact SMap.sorted_filter _ _ hr
    · exact h7
  · split
    · exact SMap.sorted_putD _ _ _ _ h8
    · exact h8
  · split
    · exact SMap.sorted_putD _ _ _ _ h9
    · exact h9
  · split
    · exact SMap.sorted_putD _ _ _ _ h10
    · exact h10
  · split
    · exact SMap.sorted_putD _ _ _ _ h11
    · exact h11
  · split
    · exact SMap.sorted_putD _ _ _ _ h12
    · exact h12
  · split
    · exact SMap.sorted_putD _ _ _ _ h13
    · exact h13

/-- Every action keeps the invariant of the block. -/
theorem apply_ok (a : Act) (s : State) (h : s.ok = true) : (apply a s).ok = true := by
  simp only [State.ok, Bool.and_eq_true] at h ⊢
  obtain ⟨⟨⟨⟨hl, hq⟩, hm⟩, hr⟩, hp⟩ := h
  exact ⟨⟨⟨⟨apply_ledger_ok a s hl, apply_queue_ok a s hq⟩, apply_memory_ok a s hm⟩, apply_regs_ok a s hr⟩,
    apply_maps_ok a s hp ((regsOk_iff _).1 hr).1⟩

/-- So does every program. -/
theorem run_ok (p : Prog) (s : State) (h : s.ok = true) : (run p s).ok = true :=
  run_always (P := fun t => t.ok = true) apply_ok p s h

theorem State.ok_regs_sorted {s : State} (h : s.ok = true) : s.regs.sorted = true := by
  simp only [State.ok, Bool.and_eq_true] at h
  exact ((regsOk_iff _).1 h.1.2).1

theorem State.ok_maps {s : State} (h : s.ok = true) : s.mapsOk = true := by
  simp only [State.ok, Bool.and_eq_true] at h
  exact h.2

end Sys2Proof.Machine
end

