-- ==== Sys2Proof/Laws/Kinds.lean ====
section
/-!
SUPPORT. What an operation can touch. Every action is of one kind (a bit of a mask); a program whose actions are all of some
kinds leaves every other part of the state as it is.
-/
set_option Elab.async false
namespace Sys2Proof.Machine

/-- The action is of one of the kinds of a mask; a register that it writes is one that the mask admits. -/
def Act.among (K : Nat) : Act → Prop
  | .reg off _ => lies off K
  | .stage .. | .unstage .. | .undoSave .. | .undoKeep .. | .undoDrop .. => K.testBit 1 = true
  | .tvSet .. | .tvClear .. => K.testBit 2 = true
  | .snap .. | .hold .. | .unhold .. | .snapDrop => K.testBit 3 = true
  | .win .. => K.testBit 4 = true
  | .acPush .. | .acPop | .acRefresh => K.testBit 5 = true
  | .port .. => K.testBit 6 = true
  | .cane .. => K.testBit 7 = true
  | .bnd .. => K.testBit 8 = true
  | .fur .. => K.testBit 9 = true
  | .grant .. | .release .. | .enqueue .. | .dequeue .. => K.testBit 10 = true
  | .mld .. => K.testBit 11 = true
  | .tb .. => K.testBit 12 = true
  | .cal .. => K.testBit 13 = true
  | .diag .. => K.testBit 14 = true
  | .flashProgram .. | .flashErase .. | .flashReplace .. => K.testBit 15 = true
  | .sramWrite .. | .sramClear .. => K.testBit 16 = true
  | .cellarWrite .. | .cellarClear .. => K.testBit 17 = true
  | .fuseKey .. | .revokeKeys .. | .lifecycle .. | .chain .. => K.testBit 18 = true
  | .commit .. => K.testBit 19 = true
  | .head .. => K.testBit 20 = true
  | .ring .. => K.testBit 21 = true
  | .chan .. => K.testBit 22 = true
  | .filled .. => K.testBit 23 = true
  | .fport .. => K.testBit 24 = true
  | .power .. => K.testBit 25 = true
  | .clock .. => K.testBit 26 = true
  | .fault .. => K.testBit 27 = true
  | .pins .. => K.testBit 28 = true
  | .spiRejected .. => K.testBit 29 = true
  | .emit .. => K.testBit 30 = true
  | .take => K.testBit 31 = true
  | .out .. => K.testBit 32 = true
  | .draw => K.testBit 33 = true

theorem within_trans {j k m : Nat} (h : within j k = true) (hk : within k m = true) : within j m = true := by
  have e : j &&& k = j := beq_iff_eq.1 h
  have e' : k &&& m = k := beq_iff_eq.1 hk
  have : j &&& m = j := by rw [← e, Nat.and_assoc, e']
  exact beq_iff_eq.2 this

theorem among_mono {a : Act} {k m : Nat} (h : a.among k) (hk : within k m = true) : a.among m := by
  cases a
  case reg => exact lies_mono hk h
  all_goals exact testBit_within hk h

theorem Prog.All.imp {C D : Act → Prop} (h : ∀ a, C a → D a) : ∀ {p : Prog}, Prog.All C p → Prog.All D p
  | .skip, _ => trivial
  | .act a, hp => h a hp
  | .seq _ _, hp => ⟨Prog.All.imp h hp.1, Prog.All.imp h hp.2⟩
  | .read _, hp => fun s => Prog.All.imp h (hp s)

/-- A program of some kinds is a program of more kinds. -/
theorem Prog.All.mono {k m : Nat} {p : Prog} (hp : Prog.All (Act.among k) p) (hk : within k m = true) : Prog.All (Act.among m) p :=
  hp.imp fun _ ha => among_mono ha hk

theorem Prog.All.sub {k m : Nat} {p : Prog} (hp : Prog.All (Act.among k) p)
    (hk : within k m = true := by with_unfolding_all exact rfl) : Prog.All (Act.among m) p := hp.mono hk

variable {C : Act → Prop}

theorem all_skip_i : Prog.All C .skip := trivial
theorem all_nil : Prog.All C (block []) := trivial
theorem all_cons {p : Prog} {t : List Prog} (hp : Prog.All C p) (ht : Prog.All C (block t)) : Prog.All C (block (p :: t)) := ⟨hp, ht⟩
theorem all_append {l m : List Prog} (hl : Prog.All C (block l)) (hm : Prog.All C (block m)) : Prog.All C (block (l ++ m)) := by
  rw [all_block] at *
  intro p hp
  rcases List.mem_append.1 hp with h | h
  · exact hl p h
  · exact hm p h
theorem all_map {α : Type} {l : List α} {f : α → Prog} (h : ∀ x, Prog.All C (f x)) : Prog.All C (block (l.map f)) :=
  (all_each l f).2 fun x _ => h x
theorem all_seq_i {p q : Prog} (hp : Prog.All C p) (hq : Prog.All C q) : Prog.All C (.seq p q) := ⟨hp, hq⟩
theorem all_read_i {k : State → Prog} (h : ∀ s, Prog.All C (k s)) : Prog.All C (.read k) := h
theorem all_when_i {c : Bool} {p : Prog} (h : Prog.All C p) : Prog.All C (when c p) := by cases c <;> simp_all [when]
theorem all_each_i {α : Type} {l : List α} {f : α → Prog} (h : ∀ x, Prog.All C (f x)) : Prog.All C (each l f) :=
  (all_each l f).2 fun x _ => h x
theorem all_ifSome_i {α : Type} {o : Option α} {f : α → Prog} (h : ∀ x, Prog.All C (f x)) : Prog.All C (ifSome o f) :=
  (all_ifSome o f).2 fun x _ => h x

theorem all_leaf {a : Act} {K : Nat} (h : a.among K := by with_unfolding_all exact rfl) : Prog.All (Act.among K) (.act a) := h

variable {K : Nat}

theorem setReg_kinds (off : Nat) (w : Word) (h : lies off K) : Prog.All (Act.among K) (setReg off w) := h
theorem setF_kinds (F : Field) (v : Nat) (h : lies F.off K) : Prog.All (Act.among K) (setF F v) := fun _ => h
theorem satAdd_kinds (F : Field) (k : Nat) (h : lies F.off K) : Prog.All (Act.among K) (satAdd F k) := fun _ _ => h
theorem wrapAdd_kinds (F : Field) (k : Nat) (h : lies F.off K) : Prog.All (Act.among K) (wrapAdd F k) := fun _ _ => h
theorem setFBit_kinds (F : Field) (i : Nat) (b : Bool) (h : lies F.off K) : Prog.All (Act.among K) (setFBit F i b) := fun _ => h
theorem resetReg_kinds (off : Nat) (h1 : K.testBit 1 = true) (h4 : K.testBit 4 = true) (h : lies off K) :
    Prog.All (Act.among K) (resetReg off) := ⟨h, h1, h4, trivial⟩
theorem setActiveF_kinds (F : Field) (v : Nat) (h1 : K.testBit 1 = true) (h : lies F.off K) :
    Prog.All (Act.among K) (setActiveF F v) := fun s => by
  refine ⟨all_when_i h1, all_when_i h1, fun _ => h, trivial⟩
theorem setWide_kinds (off n v : Nat) (h : ∀ j, j < n → lies (off + 4 * j) K) : Prog.All (Act.among K) (setWide off n v) := by
  induction n generalizing off v with
  | zero => exact trivial
  | succ n ih =>
    refine ⟨h 0 (Nat.zero_lt_succ _), ih _ _ fun j hj => ?_⟩
    have := h (j + 1) (Nat.succ_lt_succ hj)
    rwa [Nat.mul_add, Nat.mul_one, Nat.add_comm (4 * j), ← Nat.add_assoc] at this
theorem addWide_kinds (off n k : Nat) (h : ∀ j, j < n → lies (off + 4 * j) K) : Prog.All (Act.among K) (addWide off n k) :=
  fun _ => setWide_kinds _ _ _ h
theorem raise_kinds (off bit : Nat) (h4 : K.testBit 4 = true) (h : lies off K) : Prog.All (Act.among K) (raise off bit) := fun _ =>
  ⟨all_when_i h4, h, trivial⟩
theorem sqWriteBack_kinds (off : Nat) (data : Word) (still : State → Nat) (h4 : K.testBit 4 = true) (h : lies off K) :
    Prog.All (Act.among K) (sqWriteBack off data still) := fun s => by
  dsimp only
  split
  · exact ⟨h, all_when_i h4, all_each_i fun _ => raise_kinds _ _ h4 h, trivial⟩
  · exact trivial

theorem withFree_among {k : Word → Prog} (hd : K.testBit 33 = true) (h : ∀ w, Prog.All (Act.among K) (k w)) :
    Prog.All (Act.among K) (withFree k) := fun _ => ⟨hd, h _⟩

theorem freeReg_kinds (off : Nat) (hd : K.testBit 33 = true) (h : lies off K) : Prog.All (Act.among K) (freeReg off) :=
  withFree_among hd fun _ => h
theorem loadF_kinds (F : Field) (v : Nat) (h1 : K.testBit 1 = true) (h : lies F.off K) : Prog.All (Act.among K) (loadF F v) := by
  unfold loadF
  exact fun _ => ⟨all_when_i fun _ => h1, fun _ => h⟩

theorem lies_commit {b : Nat} (h : K.testBit 62 = true) : lies (blkCommitOff (blockBase b)) K := by
  refine .inr (.inr (.inl ⟨h, ?_⟩))
  unfold inHeader blkCommitOff blockBase
  split_ifs <;> omega

end Sys2Proof.Machine
end

