-- ==== Sys2Proof/Laws/KindsLine.lean ====
section
/-!
SUPPORT. What each operation can touch. The line side: ports, canes, the furnace, calibration sets, the timebase, the ledger.
-/
set_option Elab.async false
namespace Sys2Proof.Machine

set_option linter.unusedTactic false
set_option linter.unreachableTactic false

theorem stageF_kinds (F : Field) (v : Nat) : Prog.All (Act.among 0x2) (stageF F v) := by
  unfold stageF
  repeat' with_reducible first | refine all_leaf ?_ | (show within _ _ = true; with_unfolding_all exact rfl) | (show Act.among _ _; with_unfolding_all exact tb rfl) | exact all_skip_i | refine all_cons ?_ ?_ | exact all_nil | refine all_seq_i ?_ ?_ | refine all_read_i fun _ => ?_ | refine all_when_i ?_ | refine all_each_i fun _ => ?_ | refine all_ifSome_i fun _ => ?_ | split | dsimp only | contradiction

theorem updPort_kinds (p : Nat) (g : PortX → PortX) : Prog.All (Act.among 0x40) (updPort p g) := by
  unfold updPort
  repeat' with_reducible first | refine all_leaf ?_ | (show within _ _ = true; with_unfolding_all exact rfl) | (show Act.among _ _; with_unfolding_all exact tb rfl) | exact all_skip_i | refine all_cons ?_ ?_ | exact all_nil | refine all_seq_i ?_ ?_ | refine all_read_i fun _ => ?_ | refine all_when_i ?_ | refine all_each_i fun _ => ?_ | refine all_ifSome_i fun _ => ?_ | split | dsimp only | contradiction

theorem updCane_kinds (k : Nat) (g : CaneX → CaneX) : Prog.All (Act.among 0x80) (updCane k g) := by
  unfold updCane
  repeat' with_reducible first | refine all_leaf ?_ | (show within _ _ = true; with_unfolding_all exact rfl) | (show Act.among _ _; with_unfolding_all exact tb rfl) | exact all_skip_i | refine all_cons ?_ ?_ | exact all_nil | refine all_seq_i ?_ ?_ | refine all_read_i fun _ => ?_ | refine all_when_i ?_ | refine all_each_i fun _ => ?_ | refine all_ifSome_i fun _ => ?_ | split | dsimp only | contradiction

theorem updBnd_kinds (b : Nat) (g : BndX → BndX) : Prog.All (Act.among 0x100) (updBnd b g) := by
  unfold updBnd
  repeat' with_reducible first | refine all_leaf ?_ | (show within _ _ = true; with_unfolding_all exact rfl) | (show Act.among _ _; with_unfolding_all exact tb rfl) | exact all_skip_i | refine all_cons ?_ ?_ | exact all_nil | refine all_seq_i ?_ ?_ | refine all_read_i fun _ => ?_ | refine all_when_i ?_ | refine all_each_i fun _ => ?_ | refine all_ifSome_i fun _ => ?_ | split | dsimp only | contradiction

theorem updFur_kinds (g : FurX → FurX) : Prog.All (Act.among 0x200) (updFur g) := by
  unfold updFur
  repeat' with_reducible first | refine all_leaf ?_ | (show within _ _ = true; with_unfolding_all exact rfl) | (show Act.among _ _; with_unfolding_all exact tb rfl) | exact all_skip_i | refine all_cons ?_ ?_ | exact all_nil | refine all_seq_i ?_ ?_ | refine all_read_i fun _ => ?_ | refine all_when_i ?_ | refine all_each_i fun _ => ?_ | refine all_ifSome_i fun _ => ?_ | split | dsimp only | contradiction

theorem updMld_kinds (g : MldX → MldX) : Prog.All (Act.among 0x800) (updMld g) := by
  unfold updMld
  repeat' with_reducible first | refine all_leaf ?_ | (show within _ _ = true; with_unfolding_all exact rfl) | (show Act.among _ _; with_unfolding_all exact tb rfl) | exact all_skip_i | refine all_cons ?_ ?_ | exact all_nil | refine all_seq_i ?_ ?_ | refine all_read_i fun _ => ?_ | refine all_when_i ?_ | refine all_each_i fun _ => ?_ | refine all_ifSome_i fun _ => ?_ | split | dsimp only | contradiction

theorem updTb_kinds (g : TbX → TbX) : Prog.All (Act.among 0x1000) (updTb g) := by
  unfold updTb
  repeat' with_reducible first | refine all_leaf ?_ | (show within _ _ = true; with_unfolding_all exact rfl) | (show Act.among _ _; with_unfolding_all exact tb rfl) | exact all_skip_i | refine all_cons ?_ ?_ | exact all_nil | refine all_seq_i ?_ ?_ | refine all_read_i fun _ => ?_ | refine all_when_i ?_ | refine all_each_i fun _ => ?_ | refine all_ifSome_i fun _ => ?_ | split | dsimp only | contradiction

theorem updCal_kinds (g : CalX → CalX) : Prog.All (Act.among 0x2000) (updCal g) := by
  unfold updCal
  repeat' with_reducible first | refine all_leaf ?_ | (show within _ _ = true; with_unfolding_all exact rfl) | (show Act.among _ _; with_unfolding_all exact tb rfl) | exact all_skip_i | refine all_cons ?_ ?_ | exact all_nil | refine all_seq_i ?_ ?_ | refine all_read_i fun _ => ?_ | refine all_when_i ?_ | refine all_each_i fun _ => ?_ | refine all_ifSome_i fun _ => ?_ | split | dsimp only | contradiction

theorem updDiag_kinds (g : DiagX → DiagX) : Prog.All (Act.among 0x4000) (updDiag g) := by
  unfold updDiag
  repeat' with_reducible first | refine all_leaf ?_ | (show within _ _ = true; with_unfolding_all exact rfl) | (show Act.among _ _; with_unfolding_all exact tb rfl) | exact all_skip_i | refine all_cons ?_ ?_ | exact all_nil | refine all_seq_i ?_ ?_ | refine all_read_i fun _ => ?_ | refine all_when_i ?_ | refine all_each_i fun _ => ?_ | refine all_ifSome_i fun _ => ?_ | split | dsimp only | contradiction

theorem updCommit_kinds (g : CommitX → CommitX) : Prog.All (Act.among 0x80000) (updCommit g) := by
  unfold updCommit
  repeat' with_reducible first | refine all_leaf ?_ | (show within _ _ = true; with_unfolding_all exact rfl) | (show Act.among _ _; with_unfolding_all exact tb rfl) | exact all_skip_i | refine all_cons ?_ ?_ | exact all_nil | refine all_seq_i ?_ ?_ | refine all_read_i fun _ => ?_ | refine all_when_i ?_ | refine all_each_i fun _ => ?_ | refine all_ifSome_i fun _ => ?_ | split | dsimp only | contradiction

theorem updHead_kinds (h : Nat) (g : HeadX → HeadX) : Prog.All (Act.among 0x100000) (updHead h g) := by
  unfold updHead
  repeat' with_reducible first | refine all_leaf ?_ | (show within _ _ = true; with_unfolding_all exact rfl) | (show Act.among _ _; with_unfolding_all exact tb rfl) | exact all_skip_i | refine all_cons ?_ ?_ | exact all_nil | refine all_seq_i ?_ ?_ | refine all_read_i fun _ => ?_ | refine all_when_i ?_ | refine all_each_i fun _ => ?_ | refine all_ifSome_i fun _ => ?_ | split | dsimp only | contradiction

theorem updRing_kinds (k : Nat) (g : RingX → RingX) : Prog.All (Act.among 0x200000) (updRing k g) := by
  unfold updRing
  repeat' with_reducible first | refine all_leaf ?_ | (show within _ _ = true; with_unfolding_all exact rfl) | (show Act.among _ _; with_unfolding_all exact tb rfl) | exact all_skip_i | refine all_cons ?_ ?_ | exact all_nil | refine all_seq_i ?_ ?_ | refine all_read_i fun _ => ?_ | refine all_when_i ?_ | refine all_each_i fun _ => ?_ | refine all_ifSome_i fun _ => ?_ | split | dsimp only | contradiction

theorem updChan_kinds (c : Nat) (g : ChanX → ChanX) : Prog.All (Act.among 0x400000) (updChan c g) := by
  unfold updChan
  repeat' with_reducible first | refine all_leaf ?_ | (show within _ _ = true; with_unfolding_all exact rfl) | (show Act.among _ _; with_unfolding_all exact tb rfl) | exact all_skip_i | refine all_cons ?_ ?_ | exact all_nil | refine all_seq_i ?_ ?_ | refine all_read_i fun _ => ?_ | refine all_when_i ?_ | refine all_each_i fun _ => ?_ | refine all_ifSome_i fun _ => ?_ | split | dsimp only | contradiction

theorem updFlash_kinds (g : FlashX → FlashX) : Prog.All (Act.among 0x1000000) (updFlash g) := by
  unfold updFlash
  repeat' with_reducible first | refine all_leaf ?_ | (show within _ _ = true; with_unfolding_all exact rfl) | (show Act.among _ _; with_unfolding_all exact tb rfl) | exact all_skip_i | refine all_cons ?_ ?_ | exact all_nil | refine all_seq_i ?_ ?_ | refine all_read_i fun _ => ?_ | refine all_when_i ?_ | refine all_each_i fun _ => ?_ | refine all_ifSome_i fun _ => ?_ | split | dsimp only | contradiction

theorem updPower_kinds (g : PowerX → PowerX) : Prog.All (Act.among 0x2000000) (updPower g) := by
  unfold updPower
  repeat' with_reducible first | refine all_leaf ?_ | (show within _ _ = true; with_unfolding_all exact rfl) | (show Act.among _ _; with_unfolding_all exact tb rfl) | exact all_skip_i | refine all_cons ?_ ?_ | exact all_nil | refine all_seq_i ?_ ?_ | refine all_read_i fun _ => ?_ | refine all_when_i ?_ | refine all_each_i fun _ => ?_ | refine all_ifSome_i fun _ => ?_ | split | dsimp only | contradiction

theorem updClock_kinds (g : ClockX → ClockX) : Prog.All (Act.among 0x4000000) (updClock g) := by
  unfold updClock
  repeat' with_reducible first | refine all_leaf ?_ | (show within _ _ = true; with_unfolding_all exact rfl) | (show Act.among _ _; with_unfolding_all exact tb rfl) | exact all_skip_i | refine all_cons ?_ ?_ | exact all_nil | refine all_seq_i ?_ ?_ | refine all_read_i fun _ => ?_ | refine all_when_i ?_ | refine all_each_i fun _ => ?_ | refine all_ifSome_i fun _ => ?_ | split | dsimp only | contradiction

theorem updFault_kinds (g : FaultX → FaultX) : Prog.All (Act.among 0x8000000) (updFault g) := by
  unfold updFault
  repeat' with_reducible first | refine all_leaf ?_ | (show within _ _ = true; with_unfolding_all exact rfl) | (show Act.among _ _; with_unfolding_all exact tb rfl) | exact all_skip_i | refine all_cons ?_ ?_ | exact all_nil | refine all_seq_i ?_ ?_ | refine all_read_i fun _ => ?_ | refine all_when_i ?_ | refine all_each_i fun _ => ?_ | refine all_ifSome_i fun _ => ?_ | split | dsimp only | contradiction

theorem emit_kinds (src kind cls detail w1 : Nat) : Prog.All (Act.among 0x40000000) (emit src kind cls detail w1) := by
  unfold emit
  repeat' with_reducible first | refine all_leaf ?_ | (show within _ _ = true; with_unfolding_all exact rfl) | (show Act.among _ _; with_unfolding_all exact tb rfl) | exact all_skip_i | refine all_cons ?_ ?_ | exact all_nil | refine all_seq_i ?_ ?_ | refine all_read_i fun _ => ?_ | refine all_when_i ?_ | refine all_each_i fun _ => ?_ | refine all_ifSome_i fun _ => ?_ | split | dsimp only | contradiction

theorem send_kinds (o : Out) : Prog.All (Act.among 0x100000000) (send o) := by
  unfold send
  repeat' with_reducible first | refine all_leaf ?_ | (show within _ _ = true; with_unfolding_all exact rfl) | (show Act.among _ _; with_unfolding_all exact tb rfl) | exact all_skip_i | refine all_cons ?_ ?_ | exact all_nil | refine all_seq_i ?_ ?_ | refine all_read_i fun _ => ?_ | refine all_when_i ?_ | refine all_each_i fun _ => ?_ | refine all_ifSome_i fun _ => ?_ | split | dsimp only | contradiction

theorem resetRange_kinds (base len : Nat) (keep : Nat → Bool) : Prog.All (Act.among 0x800000000000001E) (resetRange base len keep) := by
  unfold resetRange
  repeat' with_reducible first | refine all_leaf ?_ | (show within _ _ = true; with_unfolding_all exact rfl) | (show Act.among _ _; with_unfolding_all exact tb rfl) | refine resetReg_kinds _ (by exact tb rfl) (by exact tb rfl) ?_ | (show Nat.testBit _ _ = true; exact tb rfl) | (show lies _ _; first | refine lies_any ?_ | split) | exact all_skip_i | refine all_cons ?_ ?_ | exact all_nil | refine all_seq_i ?_ ?_ | refine all_read_i fun _ => ?_ | refine all_when_i ?_ | refine all_each_i fun _ => ?_ | refine all_ifSome_i fun _ => ?_ | split | dsimp only | contradiction

theorem denied_kinds (path off : Nat) (write : Bool) : Prog.All (Act.among 0x40000000) (denied path off write) := by
  unfold denied
  repeat' with_reducible first | refine all_leaf ?_ | (show within _ _ = true; with_unfolding_all exact rfl) | (show Act.among _ _; with_unfolding_all exact tb rfl) | refine (emit_kinds ..).mono ?_ | exact all_skip_i | refine all_cons ?_ ?_ | exact all_nil | refine all_seq_i ?_ ?_ | refine all_read_i fun _ => ?_ | refine all_when_i ?_ | refine all_each_i fun _ => ?_ | refine all_ifSome_i fun _ => ?_ | split | dsimp only | contradiction

theorem governorClamp_kinds (off governor index : Nat) : Prog.All (Act.among 0x40000000) (governorClamp off governor index) := by
  unfold governorClamp
  repeat' with_reducible first | refine all_leaf ?_ | (show within _ _ = true; with_unfolding_all exact rfl) | (show Act.among _ _; with_unfolding_all exact tb rfl) | refine (emit_kinds ..).mono ?_ | exact all_skip_i | refine all_cons ?_ ?_ | exact all_nil | refine all_seq_i ?_ ?_ | refine all_read_i fun _ => ?_ | refine all_when_i ?_ | refine all_each_i fun _ => ?_ | refine all_ifSome_i fun _ => ?_ | split | dsimp only | contradiction

theorem qualIdle_kinds (p : Nat) : Prog.All (Act.among 0x20000000000000000000000000000000000000000000000000000000000000000000000000000000000000000000000) (qualIdle p) := by
  unfold qualIdle
  repeat' with_reducible first | refine all_leaf ?_ | (show within _ _ = true; with_unfolding_all exact rfl) | (show Act.among _ _; with_unfolding_all exact tb rfl) | refine setF_kinds _ _ ?_ | (show Nat.testBit _ _ = true; exact tb rfl) | (show lies _ _; (try dsimp only [F.PORT_LINK_QUAL_mse_margin, F.PORT_LINK_QUAL_sqi]); first | refine lies_PORT_LINK_QUAL ?_ | split) | exact all_skip_i | refine all_cons ?_ ?_ | exact all_nil | refine all_seq_i ?_ ?_ | refine all_read_i fun _ => ?_ | refine all_when_i ?_ | refine all_each_i fun _ => ?_ | refine all_ifSome_i fun _ => ?_ | split | dsimp only | contradiction

theorem clearPartner_kinds (p : Nat) : Prog.All (Act.among 0x100000003800000000000000000000000000000000000000000000000000000000000000000000000000000000000000000040) (clearPartner p) := by
  unfold clearPartner
  repeat' with_reducible first | refine all_leaf ?_ | (show within _ _ = true; with_unfolding_all exact rfl) | (show Act.among _ _; with_unfolding_all exact tb rfl) | refine setF_kinds _ _ ?_ | refine setReg_kinds _ _ ?_ | refine setWide_kinds _ _ _ ?_ | refine (updPort_kinds ..).mono ?_ | refine lies_PORT_PARTNER_ID_words ?_ (by decide) | (show Nat.testBit _ _ = true; exact tb rfl) | (show lies _ _; (try dsimp only [F.PORT_X50_STAT_p_fast_exit, F.PORT_X50_STAT_p_quick_refresh, F.PORT_X50_STAT_p_reach_15, F.PORT_X50_STAT_p_tap_train, F.PORT_X50_STAT_p_x50]); first | refine lies_PORT_PARTNER_ABIL ?_ | refine lies_PORT_PARTNER_FLAGS ?_ | refine lies_PORT_PARTNER_ID ?_ | refine lies_PORT_PARTNER_ID_at ?_ (by decide) (by decide) | refine lies_PORT_X50_STAT ?_ | split) | exact all_skip_i | refine all_cons ?_ ?_ | exact all_nil | refine all_seq_i ?_ ?_ | refine all_read_i fun _ => ?_ | refine all_when_i ?_ | refine all_each_i fun _ => ?_ | refine all_ifSome_i fun _ => ?_ | split | dsimp only | contradiction

theorem setMode_kinds (p mode role : Nat) : Prog.All (Act.among 0x80010000000000000000000000000000000000000000000000000000000000000000000000000000000000000000000) (setMode p mode role) := by
  unfold setMode
  repeat' with_reducible first | refine all_leaf ?_ | (show within _ _ = true; with_unfolding_all exact rfl) | (show Act.among _ _; with_unfolding_all exact tb rfl) | refine setF_kinds _ _ ?_ | (show Nat.testBit _ _ = true; exact tb rfl) | (show lies _ _; (try dsimp only [F.PORT_MSE_REF_ref, F.PORT_STATE_mode, F.PORT_STATE_role]); first | refine lies_PORT_STATE ?_ | refine lies_PORT_MSE_REF ?_ | split) | exact all_skip_i | refine all_cons ?_ ?_ | exact all_nil | refine all_seq_i ?_ ?_ | refine all_read_i fun _ => ?_ | refine all_when_i ?_ | refine all_each_i fun _ => ?_ | refine all_ifSome_i fun _ => ?_ | split | dsimp only | contradiction

theorem enterListen_kinds (p : Nat) (afterFailure : Bool) : Prog.All (Act.among 0x1000000A3810000000000000000000000000000000000000000000000000000000000000000000000000000000000000000040) (enterListen p afterFailure) := by
  unfold enterListen
  repeat' with_reducible first | refine all_leaf ?_ | (show within _ _ = true; with_unfolding_all exact rfl) | (show Act.among _ _; with_unfolding_all exact tb rfl) | refine (clearPartner_kinds ..).mono ?_ | refine (qualIdle_kinds ..).mono ?_ | refine setF_kinds _ _ ?_ | refine (setMode_kinds ..).mono ?_ | refine (updPort_kinds ..).mono ?_ | (show Nat.testBit _ _ = true; exact tb rfl) | (show lies _ _; (try dsimp only [F.PORT_STATE_state]); first | refine lies_PORT_STATE ?_ | split) | exact all_skip_i | refine all_cons ?_ ?_ | exact all_nil | refine all_seq_i ?_ ?_ | refine all_read_i fun _ => ?_ | refine all_when_i ?_ | refine all_each_i fun _ => ?_ | refine all_ifSome_i fun _ => ?_ | split | dsimp only | contradiction

theorem enterRest_kinds (p st : Nat) : Prog.All (Act.among 0x20A0010000000000000000000000000000000000000000000000000000000000000000000000000000000000000000050) (enterRest p st) := by
  unfold enterRest
  repeat' with_reducible first | refine all_leaf ?_ | (show within _ _ = true; with_unfolding_all exact rfl) | (show Act.among _ _; with_unfolding_all exact tb rfl) | refine (qualIdle_kinds ..).mono ?_ | refine raise_kinds _ _ (by exact tb rfl) ?_ | refine setF_kinds _ _ ?_ | refine (setMode_kinds ..).mono ?_ | refine (updPort_kinds ..).mono ?_ | (show Nat.testBit _ _ = true; exact tb rfl) | (show lies _ _; (try dsimp only [F.PORT_STATE_state]); first | refine lies_PORT_STATE ?_ | refine lies_PORT_EVENT ?_ | split) | exact all_skip_i | refine all_cons ?_ ?_ | exact all_nil | refine all_seq_i ?_ ?_ | refine all_read_i fun _ => ?_ | refine all_when_i ?_ | refine all_each_i fun _ => ?_ | refine all_ifSome_i fun _ => ?_ | split | dsimp only | contradiction

theorem clearExcluded_kinds (p : Nat) : Prog.All (Act.among 0x10000000000000000000000000000000000000000000000000000000000000000000000000000000000000000040) (clearExcluded p) := by
  unfold clearExcluded
  repeat' with_reducible first | refine all_leaf ?_ | (show within _ _ = true; with_unfolding_all exact rfl) | (show Act.among _ _; with_unfolding_all exact tb rfl) | refine setF_kinds _ _ ?_ | refine (updPort_kinds ..).mono ?_ | (show Nat.testBit _ _ = true; exact tb rfl) | (show lies _ _; (try dsimp only [F.PORT_STATE_excluded]); first | refine lies_PORT_STATE ?_ | split) | exact all_skip_i | refine all_cons ?_ ?_ | exact all_nil | refine all_seq_i ?_ ?_ | refine all_read_i fun _ => ?_ | refine all_when_i ?_ | refine all_each_i fun _ => ?_ | refine all_ifSome_i fun _ => ?_ | split | dsimp only | contradiction

theorem dropEntry_kinds (p cause uncLast : Nat) (flap : Bool) : Prog.All (Act.among 0x1800000000000000000000000000000000000000000000000000000000000000000000000000000000000000000000000) (dropEntry p cause uncLast flap) := by
  unfold dropEntry
  repeat' with_reducible first | refine all_leaf ?_ | (show within _ _ = true; with_unfolding_all exact rfl) | (show Act.among _ _; with_unfolding_all exact tb rfl) | refine setF_kinds _ _ ?_ | refine setReg_kinds _ _ ?_ | refine setWide_kinds _ _ _ ?_ | refine lies_PORT_DROP_HIST_words ?_ (by decide) | (show Nat.testBit _ _ = true; exact tb rfl) | (show lies _ _; (try dsimp only [F.PORT_DROP_HIST_IDX_next, F.PORT_DROP_HIST_IDX_wrapped, F.PORT_LINK_QUAL_mse_margin, F.PORT_LINK_QUAL_sqi]); first | refine lies_PORT_DROP_HIST_IDX ?_ | refine lies_PORT_DROP_HIST ?_ | refine lies_PORT_DROP_HIST_at ?_ (by decide) (by decide) | split) | exact all_skip_i | refine all_cons ?_ ?_ | exact all_nil | refine all_seq_i ?_ ?_ | refine all_read_i fun _ => ?_ | refine all_when_i ?_ | refine all_each_i fun _ => ?_ | refine all_ifSome_i fun _ => ?_ | split | dsimp only | contradiction

theorem dropRecord_kinds (p cause uncLast : Nat) : Prog.All (Act.among 0x3C00000000000000000000000000000000000000000000000000000000000000000000000000000000000000040000050) (dropRecord p cause uncLast) := by
  unfold dropRecord
  repeat' with_reducible first | refine all_leaf ?_ | (show within _ _ = true; with_unfolding_all exact rfl) | (show Act.among _ _; with_unfolding_all exact tb rfl) | refine (dropEntry_kinds ..).mono ?_ | refine (emit_kinds ..).mono ?_ | refine raise_kinds _ _ (by exact tb rfl) ?_ | refine satAdd_kinds _ _ ?_ | refine (updPort_kinds ..).mono ?_ | (show Nat.testBit _ _ = true; exact tb rfl) | (show lies _ _; (try dsimp only [F.PORT_DROP_COUNT_count]); first | refine lies_PORT_DROP_COUNT ?_ | refine lies_PORT_EVENT ?_ | split) | exact all_skip_i | refine all_cons ?_ ?_ | exact all_nil | refine all_seq_i ?_ ?_ | refine all_read_i fun _ => ?_ | refine all_when_i ?_ | refine all_each_i fun _ => ?_ | refine all_ifSome_i fun _ => ?_ | split | dsimp only | contradiction

theorem setPending_kinds (p : Nat) (b : Bool) : Prog.All (Act.among 0x4000000000000000000000000000000000000000000000000000000000000000000000000000000000000) (setPending p b) := by
  unfold setPending
  repeat' with_reducible first | refine all_leaf ?_ | (show within _ _ = true; with_unfolding_all exact rfl) | (show Act.among _ _; with_unfolding_all exact tb rfl) | refine setFBit_kinds _ _ _ ?_ | refine lies_WAKE_PENDING_words ?_ (by decide) | (show Nat.testBit _ _ = true; exact tb rfl) | (show lies _ _; first | refine lies_WAKE_PENDING ?_ | refine lies_WAKE_PENDING_at ?_ (by decide) (by decide) | exact lies_outside0 | split) | exact all_skip_i | refine all_cons ?_ ?_ | exact all_nil | refine all_seq_i ?_ ?_ | refine all_read_i fun _ => ?_ | refine all_when_i ?_ | refine all_each_i fun _ => ?_ | refine all_ifSome_i fun _ => ?_ | split | dsimp only | contradiction

theorem sleepRest_kinds (p : Nat) : Prog.All (Act.among 0x20A0018000004000000000000000000000000000000000000000000000000000000000000000000000000000000000050) (sleepRest p) := by
  unfold sleepRest
  repeat' with_reducible first | refine all_leaf ?_ | (show within _ _ = true; with_unfolding_all exact rfl) | (show Act.among _ _; with_unfolding_all exact tb rfl) | refine (enterRest_kinds ..).mono ?_ | refine setF_kinds _ _ ?_ | refine (setPending_kinds ..).mono ?_ | refine (updPort_kinds ..).mono ?_ | (show Nat.testBit _ _ = true; exact tb rfl) | (show lies _ _; (try dsimp only [F.PORT_CTL_admin]); first | refine lies_PORT_CTL ?_ | split) | exact all_skip_i | refine all_cons ?_ ?_ | exact all_nil | refine all_seq_i ?_ ?_ | refine all_read_i fun _ => ?_ | refine all_when_i ?_ | refine all_each_i fun _ => ?_ | refine all_ifSome_i fun _ => ?_ | split | dsimp only | contradiction

theorem dropCore_kinds (p cause uncLast : Nat) : Prog.All (Act.among 0x100003CA3818000004000000000000000000000000000000000000000000000000000000000000000000000000000040000050) (dropCore p cause uncLast) := by
  unfold dropCore
  repeat' with_reducible first | refine all_leaf ?_ | (show within _ _ = true; with_unfolding_all exact rfl) | (show Act.among _ _; with_unfolding_all exact tb rfl) | refine (dropRecord_kinds ..).mono ?_ | refine (enterListen_kinds ..).mono ?_ | refine (enterRest_kinds ..).mono ?_ | refine raise_kinds _ _ (by exact tb rfl) ?_ | refine (sleepRest_kinds ..).mono ?_ | refine (updPort_kinds ..).mono ?_ | (show Nat.testBit _ _ = true; exact tb rfl) | (show lies _ _; first | refine lies_PORT_EVENT ?_ | split) | exact all_skip_i | refine all_cons ?_ ?_ | exact all_nil | refine all_seq_i ?_ ?_ | refine all_read_i fun _ => ?_ | refine all_when_i ?_ | refine all_each_i fun _ => ?_ | refine all_ifSome_i fun _ => ?_ | split | dsimp only | contradiction

theorem segIdle_kinds (p : Nat) : Prog.All (Act.among 0x80000000000000000000000000000000000000000000000000000000000000000000000000000000000000000000000000000040) (segIdle p) := by
  unfold segIdle
  repeat' with_reducible first | refine all_leaf ?_ | (show within _ _ = true; with_unfolding_all exact rfl) | (show Act.among _ _; with_unfolding_all exact tb rfl) | refine setF_kinds _ _ ?_ | refine (updPort_kinds ..).mono ?_ | (show Nat.testBit _ _ = true; exact tb rfl) | (show lies _ _; (try dsimp only [F.PORT_SEG_STAT_beacon_ok, F.PORT_SEG_STAT_csma, F.PORT_SEG_STAT_plca_active]); first | refine lies_PORT_SEG_STAT ?_ | split) | exact all_skip_i | refine all_cons ?_ ?_ | exact all_nil | refine all_seq_i ?_ ?_ | refine all_read_i fun _ => ?_ | refine all_when_i ?_ | refine all_each_i fun _ => ?_ | refine all_ifSome_i fun _ => ?_ | split | dsimp only | contradiction

theorem censusClear_kinds (p : Nat) : Prog.All (Act.among 0x2180000000000000000000000000000000000000000000000000000000000000000000000000000000000000000000000000000040) (censusClear p) := by
  unfold censusClear
  repeat' with_reducible first | refine all_leaf ?_ | (show within _ _ = true; with_unfolding_all exact rfl) | (show Act.among _ _; with_unfolding_all exact tb rfl) | refine setF_kinds _ _ ?_ | refine setReg_kinds _ _ ?_ | refine (updPort_kinds ..).mono ?_ | (show Nat.testBit _ _ = true; exact tb rfl) | (show lies _ _; (try dsimp only [F.PORT_SEG_STAT_nodes_seen]); first | refine lies_PORT_SEG_STAT ?_ | refine lies_PORT_SEG_CYCLE ?_ | refine lies_PORT_SEG_CENSUS ?_ | split) | exact all_skip_i | refine all_cons ?_ ?_ | exact all_nil | refine all_seq_i ?_ ?_ | refine all_read_i fun _ => ?_ | refine all_when_i ?_ | refine all_each_i fun _ => ?_ | refine all_ifSome_i fun _ => ?_ | split | dsimp only | contradiction

theorem laneSend_kinds (p n : Nat) (l : List Nat) : Prog.All (Act.among 0x100000040) (laneSend p n l) := by
  induction n generalizing l with
  | zero => unfold laneSend; exact all_skip_i
  | succ n ih =>
    unfold laneSend
    dsimp only
    refine all_read_i fun _ => ?_
    refine all_cons ?_ (all_cons ?_ (all_cons (all_when_i (ih _)) all_nil))
    · with_reducible refine (updPort_kinds ..).mono ?_
      with_unfolding_all exact rfl
    · with_reducible refine (send_kinds ..).mono ?_
      with_unfolding_all exact rfl

theorem pcsSend_kinds (lanes : List Nat) (first : Nat) (bytes : List Byte) : Prog.All (Act.among 0x100000040) (pcsSend lanes first bytes) := by
  unfold pcsSend
  repeat' with_reducible first | refine all_leaf ?_ | (show within _ _ = true; with_unfolding_all exact rfl) | (show Act.among _ _; with_unfolding_all exact tb rfl) | refine (laneSend_kinds ..).mono ?_ | exact all_skip_i | refine all_cons ?_ ?_ | exact all_nil | refine all_seq_i ?_ ?_ | refine all_read_i fun _ => ?_ | refine all_when_i ?_ | refine all_each_i fun _ => ?_ | refine all_ifSome_i fun _ => ?_ | split | dsimp only | contradiction

theorem sendMarker_kinds (k j : Nat) (extra : Bool) : Prog.All (Act.among 0x300000040) (sendMarker k j extra) := by
  unfold sendMarker
  repeat' with_reducible first | refine all_leaf ?_ | (show within _ _ = true; with_unfolding_all exact rfl) | (show Act.among _ _; with_unfolding_all exact tb rfl) | refine (send_kinds ..).mono ?_ | refine (updPort_kinds ..).mono ?_ | exact all_skip_i | refine all_cons ?_ ?_ | exact all_nil | refine all_seq_i ?_ ?_ | refine all_read_i fun _ => ?_ | refine all_when_i ?_ | refine all_each_i fun _ => ?_ | refine all_ifSome_i fun _ => ?_ | refine withFree_among ?_ fun _ => ?_ | (show Nat.testBit _ _ = true; exact tb rfl) | split | dsimp only | contradiction

theorem remap_kinds (k : Nat) : Prog.All (Act.among 0x800000000000000000000000000000000000000000000000000000000000000000000000003000000D0) (remap k) := by
  unfold remap
  repeat' with_reducible first | refine all_leaf ?_ | (show within _ _ = true; with_unfolding_all exact rfl) | (show Act.among _ _; with_unfolding_all exact tb rfl) | refine raise_kinds _ _ (by exact tb rfl) ?_ | refine (sendMarker_kinds ..).mono ?_ | refine (updCane_kinds ..).mono ?_ | (show Nat.testBit _ _ = true; exact tb rfl) | (show lies _ _; first | refine lies_CANE_EVENT ?_ | split) | exact all_skip_i | refine all_cons ?_ ?_ | exact all_nil | refine all_seq_i ?_ ?_ | refine all_read_i fun _ => ?_ | refine all_when_i ?_ | refine all_each_i fun _ => ?_ | refine all_ifSome_i fun _ => ?_ | split | dsimp only | contradiction

theorem reportSkew_kinds (k : Nat) : Prog.All (Act.among 0x60000000000000000000000000000000000000000000000000000000000000000000000000000000000) (reportSkew k) := by
  unfold reportSkew
  repeat' with_reducible first | refine all_leaf ?_ | (show within _ _ = true; with_unfolding_all exact rfl) | (show Act.among _ _; with_unfolding_all exact tb rfl) | refine setF_kinds _ _ ?_ | (show Nat.testBit _ _ = true; exact tb rfl) | (show lies _ _; (try dsimp only [F.CANE_SKEW_A_even_lane, F.CANE_SKEW_A_odd_lane, F.CANE_SKEW_B_even_lane, F.CANE_SKEW_B_odd_lane]); first | refine lies_CANE_SKEW_A ?_ | refine lies_CANE_SKEW_B ?_ | split) | exact all_skip_i | refine all_cons ?_ ?_ | exact all_nil | refine all_seq_i ?_ ?_ | refine all_read_i fun _ => ?_ | refine all_when_i ?_ | refine all_each_i fun _ => ?_ | refine all_ifSome_i fun _ => ?_ | split | dsimp only | contradiction

theorem upLanes_kinds (k : Nat) : Prog.All (Act.among 0x10000000000000000000000000000000000000000000000000000000000000000000000000000000000) (upLanes k) := by
  unfold upLanes
  repeat' with_reducible first | refine all_leaf ?_ | (show within _ _ = true; with_unfolding_all exact rfl) | (show Act.among _ _; with_unfolding_all exact tb rfl) | refine setF_kinds _ _ ?_ | (show Nat.testBit _ _ = true; exact tb rfl) | (show lies _ _; (try dsimp only [F.CANE_CFG_members, F.CANE_STAT_up_lanes]); first | refine lies_CANE_STAT ?_ | split) | exact all_skip_i | refine all_cons ?_ ?_ | exact all_nil | refine all_seq_i ?_ ?_ | refine all_read_i fun _ => ?_ | refine all_when_i ?_ | refine all_each_i fun _ => ?_ | refine all_ifSome_i fun _ => ?_ | split | dsimp only | contradiction

theorem setCane_kinds (k st : Nat) : Prog.All (Act.among 0x200000000000000000090000000000000000000000000000000000000000000000000000000000000000000000000000000090) (setCane k st) := by
  unfold setCane
  repeat' with_reducible first | refine all_leaf ?_ | (show within _ _ = true; with_unfolding_all exact rfl) | (show Act.among _ _; with_unfolding_all exact tb rfl) | refine raise_kinds _ _ (by exact tb rfl) ?_ | refine setF_kinds _ _ ?_ | refine (updCane_kinds ..).mono ?_ | (show Nat.testBit _ _ = true; exact tb rfl) | (show lies _ _; (try dsimp only [F.CANE_STAT_admitted, F.CANE_STAT_mode, F.CANE_STAT_state, F.PORT_AM_STAT_admitted]); first | refine lies_CANE_STAT ?_ | refine lies_CANE_EVENT ?_ | refine lies_PORT_AM_STAT ?_ | split) | exact all_skip_i | refine all_cons ?_ ?_ | exact all_nil | refine all_seq_i ?_ ?_ | refine all_read_i fun _ => ?_ | refine all_when_i ?_ | refine all_each_i fun _ => ?_ | refine all_ifSome_i fun _ => ?_ | split | dsimp only | contradiction

theorem admitLane_kinds (k j : Nat) : Prog.All (Act.among 0x2000000000000000000F00000000000000000000000000000000000000000000000000000000000000000000000003000000D0) (admitLane k j) := by
  unfold admitLane
  repeat' with_reducible first | refine all_leaf ?_ | (show within _ _ = true; with_unfolding_all exact rfl) | (show Act.among _ _; with_unfolding_all exact tb rfl) | refine (remap_kinds ..).mono ?_ | refine (reportSkew_kinds ..).mono ?_ | refine (setCane_kinds ..).mono ?_ | refine setF_kinds _ _ ?_ | refine (upLanes_kinds ..).mono ?_ | refine (updCane_kinds ..).mono ?_ | refine (updPort_kinds ..).mono ?_ | (show Nat.testBit _ _ = true; exact tb rfl) | (show lies _ _; (try dsimp only [F.CANE_CFG_members, F.CANE_STAT_admitted, F.CANE_STAT_mode, F.PORT_AM_STAT_admitted]); first | refine lies_CANE_STAT ?_ | refine lies_PORT_AM_STAT ?_ | split) | exact all_skip_i | refine all_cons ?_ ?_ | exact all_nil | refine all_seq_i ?_ ?_ | refine all_read_i fun _ => ?_ | refine all_when_i ?_ | refine all_each_i fun _ => ?_ | refine all_ifSome_i fun _ => ?_ | split | dsimp only | contradiction

theorem tryAdmit_kinds (k j : Nat) : Prog.All (Act.among 0x2000000000000000000F00000000000000000000000000000000000000000000000000000000000000000000000003000000D0) (tryAdmit k j) := by
  unfold tryAdmit
  repeat' with_reducible first | refine all_leaf ?_ | (show within _ _ = true; with_unfolding_all exact rfl) | (show Act.among _ _; with_unfolding_all exact tb rfl) | refine (admitLane_kinds ..).mono ?_ | refine raise_kinds _ _ (by exact tb rfl) ?_ | (show Nat.testBit _ _ = true; exact tb rfl) | (show lies _ _; first | refine lies_CANE_EVENT ?_ | split) | exact all_skip_i | refine all_cons ?_ ?_ | exact all_nil | refine all_seq_i ?_ ?_ | refine all_read_i fun _ => ?_ | refine all_when_i ?_ | refine all_each_i fun _ => ?_ | refine all_ifSome_i fun _ => ?_ | split | dsimp only | contradiction

theorem caneEdge_kinds (k : Nat) : Prog.All (Act.among 0x2000000000000000000F00000000000000000000000000000000000000000000000000000000000000000000000003000000D0) (caneEdge k) := by
  unfold caneEdge
  repeat' with_reducible first | refine all_leaf ?_ | (show within _ _ = true; with_unfolding_all exact rfl) | (show Act.among _ _; with_unfolding_all exact tb rfl) | refine (tryAdmit_kinds ..).mono ?_ | refine (updCane_kinds ..).mono ?_ | exact all_skip_i | refine all_cons ?_ ?_ | exact all_nil | refine all_seq_i ?_ ?_ | refine all_read_i fun _ => ?_ | refine all_when_i ?_ | refine all_each_i fun _ => ?_ | refine all_ifSome_i fun _ => ?_ | split | dsimp only | contradiction

theorem loseLane_kinds {K : Nat} (hK : within 0x2000000000000000000900000000000000000000000000000000000000000000000000000000000000000000000003000000D0 K = true) (k j : Nat) (drop : Nat → Prog) (h_drop : ∀ v0, Prog.All (Act.among K) (drop v0)) : Prog.All (Act.among K) (loseLane k j drop) := by
  unfold loseLane
  repeat' with_reducible first | refine all_leaf ?_ | (show Act.among _ _; with_unfolding_all exact testBit_within hK (tb rfl)) | exact within_trans (by with_unfolding_all exact rfl) hK | exact h_drop _ | refine (remap_kinds ..).mono ?_ | refine (setCane_kinds ..).mono ?_ | refine setF_kinds _ _ ?_ | refine (upLanes_kinds ..).mono ?_ | refine (updCane_kinds ..).mono ?_ | refine (updPort_kinds ..).mono ?_ | (show Nat.testBit _ _ = true; exact testBit_within hK (tb rfl)) | (show lies _ _; (try dsimp only [F.CANE_CFG_policy, F.CANE_STAT_admitted, F.PORT_AM_STAT_admitted]); first | refine lies_CANE_STAT ?_ | refine lies_PORT_AM_STAT ?_ | split) | exact all_skip_i | refine all_cons ?_ ?_ | exact all_nil | refine all_seq_i ?_ ?_ | refine all_read_i fun _ => ?_ | refine all_when_i ?_ | refine all_each_i fun _ => ?_ | refine all_ifSome_i fun _ => ?_ | split | dsimp only | contradiction

theorem laneDark_kinds (p : Nat) : Prog.All (Act.among 0x200000000000000000010000000000000000000000000000000000000000000000000000000000000000000000000000000040) (laneDark p) := by
  unfold laneDark
  repeat' with_reducible first | refine all_leaf ?_ | (show within _ _ = true; with_unfolding_all exact rfl) | (show Act.among _ _; with_unfolding_all exact tb rfl) | refine setF_kinds _ _ ?_ | refine (upLanes_kinds ..).mono ?_ | refine (updPort_kinds ..).mono ?_ | (show Nat.testBit _ _ = true; exact tb rfl) | (show lies _ _; (try dsimp only [F.PORT_AM_STAT_am_lock, F.PORT_AM_STAT_tag_ok]); first | refine lies_PORT_AM_STAT ?_ | split) | exact all_skip_i | refine all_cons ?_ ?_ | exact all_nil | refine all_seq_i ?_ ?_ | refine all_read_i fun _ => ?_ | refine all_when_i ?_ | refine all_each_i fun _ => ?_ | refine all_ifSome_i fun _ => ?_ | split | dsimp only | contradiction

theorem caneLeftUp_kinds {K : Nat} (hK : within 0x2000000000000000000900000000000000000000000000000000000000000000000000000000000000000000000003000000D0 K = true) (p : Nat) (drop : Nat → Prog) (h_drop : ∀ v0, Prog.All (Act.among K) (drop v0)) : Prog.All (Act.among K) (caneLeftUp p drop) := by
  unfold caneLeftUp
  repeat' with_reducible first | refine all_leaf ?_ | (show Act.among _ _; with_unfolding_all exact testBit_within hK (tb rfl)) | exact within_trans (by with_unfolding_all exact rfl) hK | exact h_drop _ | refine (laneDark_kinds ..).mono ?_ | refine loseLane_kinds (K := _) ?_ _ _ _ ?_ | refine (setCane_kinds ..).mono ?_ | exact all_skip_i | refine all_cons ?_ ?_ | exact all_nil | refine all_seq_i ?_ ?_ | refine all_read_i fun _ => ?_ | refine all_when_i ?_ | refine all_each_i fun _ => ?_ | refine all_ifSome_i fun _ => ?_ | intro _ | split | dsimp only | contradiction

theorem caneEnteredUp_kinds (p : Nat) : Prog.All (Act.among 0x2000000000000000000F00000000000000000000000000000000000000000000000000000000000000000000000003000000D0) (caneEnteredUp p) := by
  unfold caneEnteredUp
  repeat' with_reducible first | refine all_leaf ?_ | (show within _ _ = true; with_unfolding_all exact rfl) | (show Act.among _ _; with_unfolding_all exact tb rfl) | refine raise_kinds _ _ (by exact tb rfl) ?_ | refine (setCane_kinds ..).mono ?_ | refine (tryAdmit_kinds ..).mono ?_ | refine (upLanes_kinds ..).mono ?_ | refine (updPort_kinds ..).mono ?_ | (show Nat.testBit _ _ = true; exact tb rfl) | (show lies _ _; first | refine lies_CANE_EVENT ?_ | split) | exact all_skip_i | refine all_cons ?_ ?_ | exact all_nil | refine all_seq_i ?_ ?_ | refine all_read_i fun _ => ?_ | refine all_when_i ?_ | refine all_each_i fun _ => ?_ | refine all_ifSome_i fun _ => ?_ | split | dsimp only | contradiction

theorem caneModeCommit_kinds (p : Nat) : Prog.All (Act.among 0x200000000000000000090000000000000000000000000000000000000000000000000000000000000000000000000000000090) (caneModeCommit p) := by
  unfold caneModeCommit
  repeat' with_reducible first | refine all_leaf ?_ | (show within _ _ = true; with_unfolding_all exact rfl) | (show Act.among _ _; with_unfolding_all exact tb rfl) | refine (setCane_kinds ..).mono ?_ | exact all_skip_i | refine all_cons ?_ ?_ | exact all_nil | refine all_seq_i ?_ ?_ | refine all_read_i fun _ => ?_ | refine all_when_i ?_ | refine all_each_i fun _ => ?_ | refine all_ifSome_i fun _ => ?_ | split | dsimp only | contradiction

theorem alignmentMarker_kinds {K : Nat} (hK : within 0x6000000000000000004F00000000000000000000000000000000000000000000000000000000000000000000000003000000D0 K = true) (p lane tag map rxOk arrival bipErrors : Nat) (drop : Nat → Prog) (h_drop : ∀ v0, Prog.All (Act.among K) (drop v0)) : Prog.All (Act.among K) (alignmentMarker p lane tag map rxOk arrival bipErrors drop) := by
  unfold alignmentMarker
  repeat' with_reducible first | refine all_leaf ?_ | (show Act.among _ _; with_unfolding_all exact testBit_within hK (tb rfl)) | exact within_trans (by with_unfolding_all exact rfl) hK | exact h_drop _ | refine loseLane_kinds (K := _) ?_ _ _ _ ?_ | refine raise_kinds _ _ (by exact testBit_within hK (tb rfl)) ?_ | refine (remap_kinds ..).mono ?_ | refine (reportSkew_kinds ..).mono ?_ | refine satAdd_kinds _ _ ?_ | refine setF_kinds _ _ ?_ | refine (tryAdmit_kinds ..).mono ?_ | refine (updCane_kinds ..).mono ?_ | refine (updPort_kinds ..).mono ?_ | (show Nat.testBit _ _ = true; exact testBit_within hK (tb rfl)) | (show lies _ _; (try dsimp only [F.CANE_AM_ERR_bip_errors, F.PORT_AM_STAT_am_lock, F.PORT_AM_STAT_lane_rx, F.PORT_AM_STAT_map_rx, F.PORT_AM_STAT_rx_ok_rx, F.PORT_AM_STAT_tag_ok, F.PORT_AM_STAT_tag_rx]); first | refine lies_CANE_EVENT ?_ | refine lies_CANE_AM_ERR ?_ | refine lies_PORT_AM_STAT ?_ | refine lies_PORT_TRK_EVENT ?_ | split) | exact all_skip_i | refine all_cons ?_ ?_ | exact all_nil | refine all_seq_i ?_ ?_ | refine all_read_i fun _ => ?_ | refine all_when_i ?_ | refine all_each_i fun _ => ?_ | refine all_ifSome_i fun _ => ?_ | intro _ | split | dsimp only | contradiction

theorem markerMiss_kinds {K : Nat} (hK : within 0x6000000000000000000900000000000000000000000000000000000000000000000000000000000000000000000003000000D0 K = true) (p : Nat) (drop : Nat → Prog) (h_drop : ∀ v0, Prog.All (Act.among K) (drop v0)) : Prog.All (Act.among K) (markerMiss p drop) := by
  unfold markerMiss
  repeat' with_reducible first | refine all_leaf ?_ | (show Act.among _ _; with_unfolding_all exact testBit_within hK (tb rfl)) | exact within_trans (by with_unfolding_all exact rfl) hK | exact h_drop _ | refine loseLane_kinds (K := _) ?_ _ _ _ ?_ | refine raise_kinds _ _ (by exact testBit_within hK (tb rfl)) ?_ | refine setF_kinds _ _ ?_ | refine (updPort_kinds ..).mono ?_ | (show Nat.testBit _ _ = true; exact testBit_within hK (tb rfl)) | (show lies _ _; (try dsimp only [F.PORT_AM_STAT_am_lock]); first | refine lies_PORT_AM_STAT ?_ | refine lies_PORT_TRK_EVENT ?_ | split) | exact all_skip_i | refine all_cons ?_ ?_ | exact all_nil | refine all_seq_i ?_ ?_ | refine all_read_i fun _ => ?_ | refine all_when_i ?_ | refine all_each_i fun _ => ?_ | refine all_ifSome_i fun _ => ?_ | intro _ | split | dsimp only | contradiction

theorem formWaitExpire_kinds (k : Nat) : Prog.All (Act.among 0x200000000000000000090000000000000000000000000000000000000000000000000000000000000000000000000000000090) (formWaitExpire k) := by
  unfold formWaitExpire
  repeat' with_reducible first | refine all_leaf ?_ | (show within _ _ = true; with_unfolding_all exact rfl) | (show Act.among _ _; with_unfolding_all exact tb rfl) | refine (setCane_kinds ..).mono ?_ | exact all_skip_i | refine all_cons ?_ ?_ | exact all_nil | refine all_seq_i ?_ ?_ | refine all_read_i fun _ => ?_ | refine all_when_i ?_ | refine all_each_i fun _ => ?_ | refine all_ifSome_i fun _ => ?_ | split | dsimp only | contradiction

theorem rejoinHoldExpire_kinds (p : Nat) : Prog.All (Act.among 0x40) (rejoinHoldExpire p) := by
  unfold rejoinHoldExpire
  repeat' with_reducible first | refine all_leaf ?_ | (show within _ _ = true; with_unfolding_all exact rfl) | (show Act.among _ _; with_unfolding_all exact tb rfl) | refine (updPort_kinds ..).mono ?_ | exact all_skip_i | refine all_cons ?_ ?_ | exact all_nil | refine all_seq_i ?_ ?_ | refine all_read_i fun _ => ?_ | refine all_when_i ?_ | refine all_each_i fun _ => ?_ | refine all_ifSome_i fun _ => ?_ | split | dsimp only | contradiction

theorem writeRecord_kinds (owner mode : Nat) (quarters : List Nat) : Prog.All (Act.among 0x200) (writeRecord owner mode quarters) := by
  unfold writeRecord
  repeat' with_reducible first | refine all_leaf ?_ | (show within _ _ = true; with_unfolding_all exact rfl) | (show Act.among _ _; with_unfolding_all exact tb rfl) | refine (updFur_kinds ..).mono ?_ | exact all_skip_i | refine all_cons ?_ ?_ | exact all_nil | refine all_seq_i ?_ ?_ | refine all_read_i fun _ => ?_ | refine all_when_i ?_ | refine all_each_i fun _ => ?_ | refine all_ifSome_i fun _ => ?_ | split | dsimp only | contradiction

theorem clearRecord_kinds (owner : Nat) : Prog.All (Act.among 0x200) (clearRecord owner) := by
  unfold clearRecord
  repeat' with_reducible first | refine all_leaf ?_ | (show within _ _ = true; with_unfolding_all exact rfl) | (show Act.among _ _; with_unfolding_all exact tb rfl) | refine (updFur_kinds ..).mono ?_ | exact all_skip_i | refine all_cons ?_ ?_ | exact all_nil | refine all_seq_i ?_ ?_ | refine all_read_i fun _ => ?_ | refine all_when_i ?_ | refine all_each_i fun _ => ?_ | refine all_ifSome_i fun _ => ?_ | split | dsimp only | contradiction

theorem clearQuarter_kinds (q : Nat) : Prog.All (Act.among 0x200) (clearQuarter q) := by
  unfold clearQuarter
  repeat' with_reducible first | refine all_leaf ?_ | (show within _ _ = true; with_unfolding_all exact rfl) | (show Act.among _ _; with_unfolding_all exact tb rfl) | refine (updFur_kinds ..).mono ?_ | exact all_skip_i | refine all_cons ?_ ?_ | exact all_nil | refine all_seq_i ?_ ?_ | refine all_read_i fun _ => ?_ | refine all_when_i ?_ | refine all_each_i fun _ => ?_ | refine all_ifSome_i fun _ => ?_ | split | dsimp only | contradiction

theorem refreshPair_kinds (b i : Nat) : Prog.All (Act.among 0x2400000000000000000000000000000000000000000000000000000000000000000000000000000110) (refreshPair b i) := by
  unfold refreshPair
  repeat' with_reducible first | refine all_leaf ?_ | (show within _ _ = true; with_unfolding_all exact rfl) | (show Act.among _ _; with_unfolding_all exact tb rfl) | refine raise_kinds _ _ (by exact tb rfl) ?_ | refine setF_kinds _ _ ?_ | refine (updBnd_kinds ..).mono ?_ | (show Nat.testBit _ _ = true; exact tb rfl) | (show lies _ _; (try dsimp only [F.BND_CFG_quarter, F.BND_PAIR_STAT_depth, F.BND_PAIR_STAT_state]); first | refine lies_BND_EVENT ?_ | refine lies_BND_PAIR_STAT ?_ | split) | exact all_skip_i | refine all_cons ?_ ?_ | exact all_nil | refine all_seq_i ?_ ?_ | refine all_read_i fun _ => ?_ | refine all_when_i ?_ | refine all_each_i fun _ => ?_ | refine all_ifSome_i fun _ => ?_ | split | dsimp only | contradiction

theorem recordBundle_kinds (b mode : Nat) : Prog.All (Act.among 0x200) (recordBundle b mode) := by
  unfold recordBundle
  repeat' with_reducible first | refine all_leaf ?_ | (show within _ _ = true; with_unfolding_all exact rfl) | (show Act.among _ _; with_unfolding_all exact tb rfl) | refine (writeRecord_kinds ..).mono ?_ | exact all_skip_i | refine all_cons ?_ ?_ | exact all_nil | refine all_seq_i ?_ ?_ | refine all_read_i fun _ => ?_ | refine all_when_i ?_ | refine all_each_i fun _ => ?_ | refine all_ifSome_i fun _ => ?_ | split | dsimp only | contradiction

theorem recordQuarter_kinds (q : Nat) : Prog.All (Act.among 0x200) (recordQuarter q) := by
  unfold recordQuarter
  repeat' with_reducible first | refine all_leaf ?_ | (show within _ _ = true; with_unfolding_all exact rfl) | (show Act.among _ _; with_unfolding_all exact tb rfl) | refine (writeRecord_kinds ..).mono ?_ | exact all_skip_i | refine all_cons ?_ ?_ | exact all_nil | refine all_seq_i ?_ ?_ | refine all_read_i fun _ => ?_ | refine all_when_i ?_ | refine all_each_i fun _ => ?_ | refine all_ifSome_i fun _ => ?_ | split | dsimp only | contradiction

theorem refreshBundle_kinds (b : Nat) : Prog.All (Act.among 0x2500000000000000000000000000000000000000000000000000000000000000000000000000000310) (refreshBundle b) := by
  unfold refreshBundle
  repeat' with_reducible first | refine all_leaf ?_ | (show within _ _ = true; with_unfolding_all exact rfl) | (show Act.among _ _; with_unfolding_all exact tb rfl) | refine raise_kinds _ _ (by exact tb rfl) ?_ | refine (recordBundle_kinds ..).mono ?_ | refine (refreshPair_kinds ..).mono ?_ | refine setF_kinds _ _ ?_ | (show Nat.testBit _ _ = true; exact tb rfl) | (show lies _ _; (try dsimp only [F.BND_CFG_pairs, F.BND_CFG_valid, F.BND_PAIR_STAT_state, F.BND_STAT_agreeing, F.BND_STAT_held, F.BND_STAT_mode, F.BND_STAT_state]); first | refine lies_BND_STAT ?_ | refine lies_BND_EVENT ?_ | split) | exact all_skip_i | refine all_cons ?_ ?_ | exact all_nil | refine all_seq_i ?_ ?_ | refine all_read_i fun _ => ?_ | refine all_when_i ?_ | refine all_each_i fun _ => ?_ | refine all_ifSome_i fun _ => ?_ | split | dsimp only | contradiction

theorem bundleEdge_kinds (b : Nat) : Prog.All (Act.among 0x2500000000000000000000000000000000000000000000000000000000000000000000000000000310) (bundleEdge b) := by
  unfold bundleEdge
  repeat' with_reducible first | refine all_leaf ?_ | (show within _ _ = true; with_unfolding_all exact rfl) | (show Act.among _ _; with_unfolding_all exact tb rfl) | refine (refreshBundle_kinds ..).mono ?_ | refine (updBnd_kinds ..).mono ?_ | exact all_skip_i | refine all_cons ?_ ?_ | exact all_nil | refine all_seq_i ?_ ?_ | refine all_read_i fun _ => ?_ | refine all_when_i ?_ | refine all_each_i fun _ => ?_ | refine all_ifSome_i fun _ => ?_ | split | dsimp only | contradiction

theorem refreshBundles_kinds : Prog.All (Act.among 0x2500000000000000000000000000000000000000000000000000000000000000000000000000000310) (refreshBundles) := by
  unfold refreshBundles
  repeat' with_reducible first | refine all_leaf ?_ | (show within _ _ = true; with_unfolding_all exact rfl) | (show Act.among _ _; with_unfolding_all exact tb rfl) | refine (refreshBundle_kinds ..).mono ?_ | exact all_skip_i | refine all_cons ?_ ?_ | exact all_nil | refine all_seq_i ?_ ?_ | refine all_read_i fun _ => ?_ | refine all_when_i ?_ | refine all_each_i fun _ => ?_ | refine all_ifSome_i fun _ => ?_ | split | dsimp only | contradiction

theorem refreshBundleOf_kinds (p : Nat) : Prog.All (Act.among 0x2500000000000000000000000000000000000000000000000000000000000000000000000000000310) (refreshBundleOf p) := by
  unfold refreshBundleOf
  repeat' with_reducible first | refine all_leaf ?_ | (show within _ _ = true; with_unfolding_all exact rfl) | (show Act.among _ _; with_unfolding_all exact tb rfl) | refine (refreshBundle_kinds ..).mono ?_ | exact all_skip_i | refine all_cons ?_ ?_ | exact all_nil | refine all_seq_i ?_ ?_ | refine all_read_i fun _ => ?_ | refine all_when_i ?_ | refine all_each_i fun _ => ?_ | refine all_ifSome_i fun _ => ?_ | split | dsimp only | contradiction

theorem calRefresh_kinds (p : Nat) : Prog.All (Act.among 0xC000000000000000000000000000000000000000000000000000000) (calRefresh p) := by
  unfold calRefresh
  repeat' with_reducible first | refine all_leaf ?_ | (show within _ _ = true; with_unfolding_all exact rfl) | (show Act.among _ _; with_unfolding_all exact tb rfl) | refine setF_kinds _ _ ?_ | (show Nat.testBit _ _ = true; exact tb rfl) | (show lies _ _; (try dsimp only [F.CAL_PORT_QUAL_comp_spares_min, F.CAL_PORT_QUAL_dac_spares, F.CAL_PORT_QUAL_worst_kind, F.CAL_PORT_QUAL_worst_resid, F.CAL_PORT_STAT_pending, F.CAL_PORT_STAT_pending_struct]); first | refine lies_CAL_PORT_STAT ?_ | refine lies_CAL_PORT_QUAL ?_ | split) | exact all_skip_i | refine all_cons ?_ ?_ | exact all_nil | refine all_seq_i ?_ ?_ | refine all_read_i fun _ => ?_ | refine all_when_i ?_ | refine all_each_i fun _ => ?_ | refine all_ifSome_i fun _ => ?_ | split | dsimp only | contradiction

theorem calReject_kinds (p : Nat) (c : CalSet) (i reason : Nat) : Prog.All (Act.among 0x300000000000000000000000000000000000000000000040000010) (calReject p c i reason) := by
  unfold calReject
  repeat' with_reducible first | refine all_leaf ?_ | (show within _ _ = true; with_unfolding_all exact rfl) | (show Act.among _ _; with_unfolding_all exact tb rfl) | refine (emit_kinds ..).mono ?_ | refine raise_kinds _ _ (by exact tb rfl) ?_ | refine satAdd_kinds _ _ ?_ | (show Nat.testBit _ _ = true; exact tb rfl) | (show lies _ _; (try dsimp only [F.CAL_REJECTS_count]); first | refine lies_CAL_REJECTS ?_ | refine lies_CAL_EVENT ?_ | split) | exact all_skip_i | refine all_cons ?_ ?_ | exact all_nil | refine all_seq_i ?_ ?_ | refine all_read_i fun _ => ?_ | refine all_when_i ?_ | refine all_each_i fun _ => ?_ | refine all_ifSome_i fun _ => ?_ | split | dsimp only | contradiction

theorem calAge_kinds (p : Nat) (c : CalSet) (i reason : Nat) : Prog.All (Act.among 0x200000000000000000000000000000000000000000000040002010) (calAge p c i reason) := by
  unfold calAge
  repeat' with_reducible first | refine all_leaf ?_ | (show within _ _ = true; with_unfolding_all exact rfl) | (show Act.among _ _; with_unfolding_all exact tb rfl) | refine (emit_kinds ..).mono ?_ | refine raise_kinds _ _ (by exact tb rfl) ?_ | refine (updCal_kinds ..).mono ?_ | (show Nat.testBit _ _ = true; exact tb rfl) | (show lies _ _; first | refine lies_CAL_EVENT ?_ | split) | exact all_skip_i | refine all_cons ?_ ?_ | exact all_nil | refine all_seq_i ?_ ?_ | refine all_read_i fun _ => ?_ | refine all_when_i ?_ | refine all_each_i fun _ => ?_ | refine all_ifSome_i fun _ => ?_ | split | dsimp only | contradiction

theorem calAging_kinds (p : Nat) (c : CalSet) : Prog.All (Act.among 0x200000000000000000000000000000000000000000000040002010) (calAging p c) := by
  unfold calAging
  repeat' with_reducible first | refine all_leaf ?_ | (show within _ _ = true; with_unfolding_all exact rfl) | (show Act.among _ _; with_unfolding_all exact tb rfl) | refine (calAge_kinds ..).mono ?_ | exact all_skip_i | refine all_cons ?_ ?_ | exact all_nil | refine all_seq_i ?_ ?_ | refine all_read_i fun _ => ?_ | refine all_when_i ?_ | refine all_each_i fun _ => ?_ | refine all_ifSome_i fun _ => ?_ | split | dsimp only | contradiction

theorem calPlace_kinds (p : Nat) (c : CalSet) : Prog.All (Act.among 0xC000000000000000000000000000000000000000000000000002000) (calPlace p c) := by
  unfold calPlace
  repeat' with_reducible first | refine all_leaf ?_ | (show within _ _ = true; with_unfolding_all exact rfl) | (show Act.among _ _; with_unfolding_all exact tb rfl) | refine (calRefresh_kinds ..).mono ?_ | refine (updCal_kinds ..).mono ?_ | exact all_skip_i | refine all_cons ?_ ?_ | exact all_nil | refine all_seq_i ?_ ?_ | refine all_read_i fun _ => ?_ | refine all_when_i ?_ | refine all_each_i fun _ => ?_ | refine all_ifSome_i fun _ => ?_ | split | dsimp only | contradiction

theorem bankCopy_kinds (src dst : Nat) : Prog.All (Act.among 0x2000) (bankCopy src dst) := by
  unfold bankCopy
  repeat' with_reducible first | refine all_leaf ?_ | (show within _ _ = true; with_unfolding_all exact rfl) | (show Act.among _ _; with_unfolding_all exact tb rfl) | refine (updCal_kinds ..).mono ?_ | exact all_skip_i | refine all_cons ?_ ?_ | exact all_nil | refine all_seq_i ?_ ?_ | refine all_read_i fun _ => ?_ | refine all_when_i ?_ | refine all_each_i fun _ => ?_ | refine all_ifSome_i fun _ => ?_ | split | dsimp only | contradiction

theorem atticWrite_kinds : Prog.All (Act.among 0x4000000000000000000000000000000000000000000000000A000) (atticWrite) := by
  unfold atticWrite
  repeat' with_reducible first | refine all_leaf ?_ | (show within _ _ = true; with_unfolding_all exact rfl) | (show Act.among _ _; with_unfolding_all exact tb rfl) | refine (bankCopy_kinds ..).mono ?_ | refine setF_kinds _ _ ?_ | refine (updCal_kinds ..).mono ?_ | (show Nat.testBit _ _ = true; exact tb rfl) | (show lies _ _; (try dsimp only [F.CAL_ATTIC_CTL_write]); first | refine lies_CAL_ATTIC_CTL ?_ | split) | exact all_skip_i | refine all_cons ?_ ?_ | exact all_nil | refine all_seq_i ?_ ?_ | refine all_read_i fun _ => ?_ | refine all_when_i ?_ | refine all_each_i fun _ => ?_ | refine all_ifSome_i fun _ => ?_ | split | dsimp only | contradiction

theorem atticOccasion_kinds : Prog.All (Act.among 0x4000000000000000000000000000000000000000000000000A000) (atticOccasion) := by
  unfold atticOccasion
  repeat' with_reducible first | refine all_leaf ?_ | (show within _ _ = true; with_unfolding_all exact rfl) | (show Act.among _ _; with_unfolding_all exact tb rfl) | refine atticWrite_kinds.mono ?_ | exact all_skip_i | refine all_cons ?_ ?_ | exact all_nil | refine all_seq_i ?_ ?_ | refine all_read_i fun _ => ?_ | refine all_when_i ?_ | refine all_each_i fun _ => ?_ | refine all_ifSome_i fun _ => ?_ | split | dsimp only | contradiction

theorem atticAfterAnneal_kinds : Prog.All (Act.among 0x4000000000000000000000000000000000000000000000000A000) (atticAfterAnneal) := by
  unfold atticAfterAnneal
  repeat' with_reducible first | refine all_leaf ?_ | (show within _ _ = true; with_unfolding_all exact rfl) | (show Act.among _ _; with_unfolding_all exact tb rfl) | refine atticOccasion_kinds.mono ?_ | refine (updCal_kinds ..).mono ?_ | exact all_skip_i | refine all_cons ?_ ?_ | exact all_nil | refine all_seq_i ?_ ?_ | refine all_read_i fun _ => ?_ | refine all_when_i ?_ | refine all_each_i fun _ => ?_ | refine all_ifSome_i fun _ => ?_ | split | dsimp only | contradiction

theorem atticAfterStruct_kinds : Prog.All (Act.among 0x4000000000000000000000000000000000000000000000000A000) (atticAfterStruct) := by
  unfold atticAfterStruct
  repeat' with_reducible first | refine all_leaf ?_ | (show within _ _ = true; with_unfolding_all exact rfl) | (show Act.among _ _; with_unfolding_all exact tb rfl) | refine atticOccasion_kinds.mono ?_ | exact all_skip_i | refine all_cons ?_ ?_ | exact all_nil | refine all_seq_i ?_ ?_ | refine all_read_i fun _ => ?_ | refine all_when_i ?_ | refine all_each_i fun _ => ?_ | refine all_ifSome_i fun _ => ?_ | split | dsimp only | contradiction

theorem calOffer_kinds (p : Nat) (phase : CalPhase) (ref : Option (List Int)) (c : CalSet) : Prog.All (Act.among 0x1C34000000000000000000000000000000000000000000004000A010) (calOffer p phase ref c) := by
  unfold calOffer
  repeat' with_reducible first | refine all_leaf ?_ | (show within _ _ = true; with_unfolding_all exact rfl) | (show Act.among _ _; with_unfolding_all exact tb rfl) | refine atticAfterStruct_kinds.mono ?_ | refine (calAging_kinds ..).mono ?_ | refine (calPlace_kinds ..).mono ?_ | refine (calReject_kinds ..).mono ?_ | refine (emit_kinds ..).mono ?_ | refine setF_kinds _ _ ?_ | refine (updCal_kinds ..).mono ?_ | (show Nat.testBit _ _ = true; exact tb rfl) | (show lies _ _; (try dsimp only [F.CAL_PORT_TIME_accept_s]); first | refine lies_CAL_PORT_TIME ?_ | split) | exact all_skip_i | refine all_cons ?_ ?_ | exact all_nil | refine all_seq_i ?_ ?_ | refine all_read_i fun _ => ?_ | refine all_when_i ?_ | refine all_each_i fun _ => ?_ | refine all_ifSome_i fun _ => ?_ | split | dsimp only | contradiction

theorem calMove_kinds (p bank : Nat) (c : State → CalSet → Bool) : Prog.All (Act.among 0xC000000000000000000000000000000000000000000000000002000) (calMove p bank c) := by
  unfold calMove
  repeat' with_reducible first | refine all_leaf ?_ | (show within _ _ = true; with_unfolding_all exact rfl) | (show Act.among _ _; with_unfolding_all exact tb rfl) | refine (calRefresh_kinds ..).mono ?_ | refine (updCal_kinds ..).mono ?_ | exact all_skip_i | refine all_cons ?_ ?_ | exact all_nil | refine all_seq_i ?_ ?_ | refine all_read_i fun _ => ?_ | refine all_when_i ?_ | refine all_each_i fun _ => ?_ | refine all_ifSome_i fun _ => ?_ | split | dsimp only | contradiction

theorem calQuiet_kinds (p : Nat) : Prog.All (Act.among 0xC000000000000000000000000000000000000000000000000002000) (calQuiet p) := by
  unfold calQuiet
  repeat' with_reducible first | refine all_leaf ?_ | (show within _ _ = true; with_unfolding_all exact rfl) | (show Act.among _ _; with_unfolding_all exact tb rfl) | refine (calMove_kinds ..).mono ?_ | exact all_skip_i | refine all_cons ?_ ?_ | exact all_nil | refine all_seq_i ?_ ?_ | refine all_read_i fun _ => ?_ | refine all_when_i ?_ | refine all_each_i fun _ => ?_ | refine all_ifSome_i fun _ => ?_ | split | dsimp only | contradiction

theorem calFamily_kinds (p mode : Nat) : Prog.All (Act.among 0xC000000000000000000000000000000000000000000000000002000) (calFamily p mode) := by
  unfold calFamily
  repeat' with_reducible first | refine all_leaf ?_ | (show within _ _ = true; with_unfolding_all exact rfl) | (show Act.among _ _; with_unfolding_all exact tb rfl) | refine (calMove_kinds ..).mono ?_ | exact all_skip_i | refine all_cons ?_ ?_ | exact all_nil | refine all_seq_i ?_ ?_ | refine all_read_i fun _ => ?_ | refine all_when_i ?_ | refine all_each_i fun _ => ?_ | refine all_ifSome_i fun _ => ?_ | split | dsimp only | contradiction

theorem pendingSetApply_kinds (p : Nat) (b : Boundary) : Prog.All (Act.among 0xC000000000000000000000000000000000000000000000000002000) (pendingSetApply p b) := by
  unfold pendingSetApply
  repeat' with_reducible first | refine all_leaf ?_ | (show within _ _ = true; with_unfolding_all exact rfl) | (show Act.among _ _; with_unfolding_all exact tb rfl) | refine (calMove_kinds ..).mono ?_ | refine (calQuiet_kinds ..).mono ?_ | exact all_skip_i | refine all_cons ?_ ?_ | exact all_nil | refine all_seq_i ?_ ?_ | refine all_read_i fun _ => ?_ | refine all_when_i ?_ | refine all_each_i fun _ => ?_ | refine all_ifSome_i fun _ => ?_ | split | dsimp only | contradiction

theorem structWait_kinds (p kind fam : Nat) : Prog.All (Act.among 0x200000000000000000000000000000000000000000000000002010) (structWait p kind fam) := by
  unfold structWait
  repeat' with_reducible first | refine all_leaf ?_ | (show within _ _ = true; with_unfolding_all exact rfl) | (show Act.among _ _; with_unfolding_all exact tb rfl) | refine raise_kinds _ _ (by exact tb rfl) ?_ | refine (updCal_kinds ..).mono ?_ | (show Nat.testBit _ _ = true; exact tb rfl) | (show lies _ _; first | refine lies_CAL_EVENT ?_ | split) | exact all_skip_i | refine all_cons ?_ ?_ | exact all_nil | refine all_seq_i ?_ ?_ | refine all_read_i fun _ => ?_ | refine all_when_i ?_ | refine all_each_i fun _ => ?_ | refine all_ifSome_i fun _ => ?_ | split | dsimp only | contradiction

theorem backgroundOffer_kinds (p : Nat) (sets : List CalSet) : Prog.All (Act.among 0x1C34000000000000000000000000000000000000000000004000A010) (backgroundOffer p sets) := by
  unfold backgroundOffer
  repeat' with_reducible first | refine all_leaf ?_ | (show within _ _ = true; with_unfolding_all exact rfl) | (show Act.among _ _; with_unfolding_all exact tb rfl) | refine (calOffer_kinds ..).mono ?_ | exact all_skip_i | refine all_cons ?_ ?_ | exact all_nil | refine all_seq_i ?_ ?_ | refine all_read_i fun _ => ?_ | refine all_when_i ?_ | refine all_each_i fun _ => ?_ | refine all_ifSome_i fun _ => ?_ | split | dsimp only | contradiction

theorem verifyBegin_kinds : Prog.All (Act.among 0x210000000000000000000000000000000000000000000000002010) (verifyBegin) := by
  unfold verifyBegin
  repeat' with_reducible first | refine all_leaf ?_ | (show within _ _ = true; with_unfolding_all exact rfl) | (show Act.among _ _; with_unfolding_all exact tb rfl) | refine raise_kinds _ _ (by exact tb rfl) ?_ | refine setF_kinds _ _ ?_ | refine (updCal_kinds ..).mono ?_ | (show Nat.testBit _ _ = true; exact tb rfl) | (show lies _ _; (try dsimp only [F.CAL_STAT_anneal]); first | refine lies_CAL_STAT ?_ | refine lies_CAL_EVENT ?_ | split) | exact all_skip_i | refine all_cons ?_ ?_ | exact all_nil | refine all_seq_i ?_ ?_ | refine all_read_i fun _ => ?_ | refine all_when_i ?_ | refine all_each_i fun _ => ?_ | refine all_ifSome_i fun _ => ?_ | split | dsimp only | contradiction

theorem verifyEnds_kinds (p : Nat) : Prog.All (Act.among 0x210000000000000000000000000000000000000000000000002010) (verifyEnds p) := by
  unfold verifyEnds
  repeat' with_reducible first | refine all_leaf ?_ | (show within _ _ = true; with_unfolding_all exact rfl) | (show Act.among _ _; with_unfolding_all exact tb rfl) | refine raise_kinds _ _ (by exact tb rfl) ?_ | refine setF_kinds _ _ ?_ | refine (updCal_kinds ..).mono ?_ | (show Nat.testBit _ _ = true; exact tb rfl) | (show lies _ _; (try dsimp only [F.CAL_STAT_anneal]); first | refine lies_CAL_STAT ?_ | refine lies_CAL_EVENT ?_ | split) | exact all_skip_i | refine all_cons ?_ ?_ | exact all_nil | refine all_seq_i ?_ ?_ | refine all_read_i fun _ => ?_ | refine all_when_i ?_ | refine all_each_i fun _ => ?_ | refine all_ifSome_i fun _ => ?_ | split | dsimp only | contradiction

theorem trainSets_kinds (p mode : Nat) (sets : List CalSet) : Prog.All (Act.among 0x1C34000000000000000000000000000000000000000000004000A010) (trainSets p mode sets) := by
  unfold trainSets
  repeat' with_reducible first | refine all_leaf ?_ | (show within _ _ = true; with_unfolding_all exact rfl) | (show Act.among _ _; with_unfolding_all exact tb rfl) | refine atticAfterAnneal_kinds.mono ?_ | refine (calOffer_kinds ..).mono ?_ | refine setFBit_kinds _ _ _ ?_ | refine (updCal_kinds ..).mono ?_ | (show Nat.testBit _ _ = true; exact tb rfl) | (show lies _ _; (try dsimp only [F.CAL_PORT_STAT_families]); first | refine lies_CAL_PORT_STAT ?_ | split) | exact all_skip_i | refine all_cons ?_ ?_ | exact all_nil | refine all_seq_i ?_ ?_ | refine all_read_i fun _ => ?_ | refine all_when_i ?_ | refine all_each_i fun _ => ?_ | refine all_ifSome_i fun _ => ?_ | split | dsimp only | contradiction

theorem ilWrite_kinds (p loss clauseLimit : Nat) : Prog.All (Act.among 0x800080000000000000000000000000000000000000000000000000004010) (ilWrite p loss clauseLimit) := by
  unfold ilWrite
  repeat' with_reducible first | refine all_leaf ?_ | (show within _ _ = true; with_unfolding_all exact rfl) | (show Act.among _ _; with_unfolding_all exact tb rfl) | refine raise_kinds _ _ (by exact tb rfl) ?_ | refine setF_kinds _ _ ?_ | refine (updDiag_kinds ..).mono ?_ | (show Nat.testBit _ _ = true; exact tb rfl) | (show lies _ _; (try dsimp only [F.DIAG_IL_CFG_margin, F.DIAG_IL_estimate, F.DIAG_IL_limit, F.DIAG_IL_valid]); first | refine lies_DIAG_EVENT ?_ | refine lies_DIAG_IL ?_ | split) | exact all_skip_i | refine all_cons ?_ ?_ | exact all_nil | refine all_seq_i ?_ ?_ | refine all_read_i fun _ => ?_ | refine all_when_i ?_ | refine all_each_i fun _ => ?_ | refine all_ifSome_i fun _ => ?_ | split | dsimp only | contradiction

theorem ilEstimate_kinds (p loss clauseLimit : Nat) : Prog.All (Act.among 0x800080000000000000000000000000000000000000000000000000004010) (ilEstimate p loss clauseLimit) := by
  unfold ilEstimate
  repeat' with_reducible first | refine all_leaf ?_ | (show within _ _ = true; with_unfolding_all exact rfl) | (show Act.among _ _; with_unfolding_all exact tb rfl) | refine (ilWrite_kinds ..).mono ?_ | exact all_skip_i | refine all_cons ?_ ?_ | exact all_nil | refine all_seq_i ?_ ?_ | refine all_read_i fun _ => ?_ | refine all_when_i ?_ | refine all_each_i fun _ => ?_ | refine all_ifSome_i fun _ => ?_ | split | dsimp only | contradiction

theorem wearCheck_kinds (p : Nat) : Prog.All (Act.among 0x80000000000000000000000000000000000000000000000040004010) (wearCheck p) := by
  unfold wearCheck
  repeat' with_reducible first | refine all_leaf ?_ | (show within _ _ = true; with_unfolding_all exact rfl) | (show Act.among _ _; with_unfolding_all exact tb rfl) | refine (emit_kinds ..).mono ?_ | refine raise_kinds _ _ (by exact tb rfl) ?_ | refine (updDiag_kinds ..).mono ?_ | (show Nat.testBit _ _ = true; exact tb rfl) | (show lies _ _; (try dsimp only [F.DIAG_FP_CFG_horizon_d, F.DIAG_TDR_CFG_step_thresh]); first | refine lies_DIAG_EVENT ?_ | split) | exact all_skip_i | refine all_cons ?_ ?_ | exact all_nil | refine all_seq_i ?_ ?_ | refine all_read_i fun _ => ?_ | refine all_when_i ?_ | refine all_each_i fun _ => ?_ | refine all_ifSome_i fun _ => ?_ | split | dsimp only | contradiction

theorem busErrorOpen_kinds (src : Nat) : Prog.All (Act.among 0x240000000) (busErrorOpen src) := by
  unfold busErrorOpen
  repeat' with_reducible first | refine all_leaf ?_ | (show within _ _ = true; with_unfolding_all exact rfl) | (show Act.among _ _; with_unfolding_all exact tb rfl) | refine (emit_kinds ..).mono ?_ | exact all_skip_i | refine all_cons ?_ ?_ | exact all_nil | refine all_seq_i ?_ ?_ | refine all_read_i fun _ => ?_ | refine all_when_i ?_ | refine all_each_i fun _ => ?_ | refine all_ifSome_i fun _ => ?_ | refine withFree_among ?_ fun _ => ?_ | (show Nat.testBit _ _ = true; exact tb rfl) | split | dsimp only | contradiction

theorem shelfFail_kinds : Prog.All (Act.among 0x80000000000000000000000000000000000000000000000240000010) (shelfFail) := by
  unfold shelfFail
  repeat' with_reducible first | refine all_leaf ?_ | (show within _ _ = true; with_unfolding_all exact rfl) | (show Act.among _ _; with_unfolding_all exact tb rfl) | refine (busErrorOpen_kinds ..).mono ?_ | refine raise_kinds _ _ (by exact tb rfl) ?_ | (show Nat.testBit _ _ = true; exact tb rfl) | (show lies _ _; first | refine lies_DIAG_EVENT ?_ | split) | exact all_skip_i | refine all_cons ?_ ?_ | exact all_nil | refine all_seq_i ?_ ?_ | refine all_read_i fun _ => ?_ | refine all_when_i ?_ | refine all_each_i fun _ => ?_ | refine all_ifSome_i fun _ => ?_ | split | dsimp only | contradiction

theorem trendAppend_kinds (p corr rms source sqi margin : Nat) (bin : Nat) (change : Int) (ok : Bool) : Prog.All (Act.among 0x8000000000000000000000000000000000000000000000024000C010) (trendAppend p corr rms source sqi margin bin change ok) := by
  unfold trendAppend
  repeat' with_reducible first | refine all_leaf ?_ | (show within _ _ = true; with_unfolding_all exact rfl) | (show Act.among _ _; with_unfolding_all exact tb rfl) | refine shelfFail_kinds.mono ?_ | refine (updDiag_kinds ..).mono ?_ | refine (wearCheck_kinds ..).mono ?_ | exact all_skip_i | refine all_cons ?_ ?_ | exact all_nil | refine all_seq_i ?_ ?_ | refine all_read_i fun _ => ?_ | refine all_when_i ?_ | refine all_each_i fun _ => ?_ | refine all_ifSome_i fun _ => ?_ | split | dsimp only | contradiction

theorem fpCompare_kinds {K : Nat} (hK : within 0x100008000000000000000000000000000000000000000000000024000C010 K = true) (p : Nat) (bins : List Int) (source sqi margin : Nat) (ok : Bool) (k : Nat → Prog) (h_k : ∀ v0, Prog.All (Act.among K) (k v0)) : Prog.All (Act.among K) (fpCompare p bins source sqi margin ok k) := by
  unfold fpCompare
  repeat' with_reducible first | refine all_leaf ?_ | (show Act.among _ _; with_unfolding_all exact testBit_within hK (tb rfl)) | exact within_trans (by with_unfolding_all exact rfl) hK | exact h_k _ | refine raise_kinds _ _ (by exact testBit_within hK (tb rfl)) ?_ | refine setF_kinds _ _ ?_ | refine (trendAppend_kinds ..).mono ?_ | (show Nat.testBit _ _ = true; exact testBit_within hK (tb rfl)) | (show lies _ _; (try dsimp only [F.DIAG_FP_CFG_match_thresh, F.DIAG_FP_CFG_trend_min_h, F.DIAG_FP_STAT_correlation, F.DIAG_FP_STAT_match_, F.DIAG_FP_STAT_worst, F.DIAG_TDR_CFG_step_thresh]); first | refine lies_DIAG_EVENT ?_ | refine lies_DIAG_FP_STAT ?_ | split) | exact all_skip_i | refine all_cons ?_ ?_ | exact all_nil | refine all_seq_i ?_ ?_ | refine all_read_i fun _ => ?_ | refine all_when_i ?_ | refine all_each_i fun _ => ?_ | refine all_ifSome_i fun _ => ?_ | refine withFree_among ?_ fun _ => ?_ | (show Nat.testBit _ _ = true; exact testBit_within hK (tb rfl)) | split | dsimp only | contradiction

theorem takeReference_kinds (p : Nat) (bins : List Int) (source mode : Nat) (ok : Bool) : Prog.All (Act.among 0x300008000000000000000000000000000000000000000000000024000C010) (takeReference p bins source mode ok) := by
  unfold takeReference
  repeat' with_reducible first | refine all_leaf ?_ | (show within _ _ = true; with_unfolding_all exact rfl) | (show Act.among _ _; with_unfolding_all exact tb rfl) | refine setF_kinds _ _ ?_ | refine shelfFail_kinds.mono ?_ | refine (updDiag_kinds ..).mono ?_ | (show Nat.testBit _ _ = true; exact tb rfl) | (show lies _ _; (try dsimp only [F.DIAG_FP_CTL_capture, F.DIAG_FP_STAT_ref, F.DIAG_TDR_CFG_nvp, F.PORT_PARTNER_FLAGS_id_valid]); first | refine lies_DIAG_FP_STAT ?_ | refine lies_DIAG_FP_CTL ?_ | split) | exact all_skip_i | refine all_cons ?_ ?_ | exact all_nil | refine all_seq_i ?_ ?_ | refine all_read_i fun _ => ?_ | refine all_when_i ?_ | refine all_each_i fun _ => ?_ | refine all_ifSome_i fun _ => ?_ | split | dsimp only | contradiction

theorem profileDone_kinds {K : Nat} (hK : within 0x300008000000000000000000000000000000000000000000000024000C010 K = true) (p : Nat) (bins : List Int) (source mode sqi margin : Nat) (always ok : Bool) (k : Nat → Prog) (h_k : ∀ v0, Prog.All (Act.among K) (k v0)) : Prog.All (Act.among K) (profileDone p bins source mode sqi margin always ok k) := by
  unfold profileDone
  repeat' with_reducible first | refine all_leaf ?_ | (show Act.among _ _; with_unfolding_all exact testBit_within hK (tb rfl)) | exact within_trans (by with_unfolding_all exact rfl) hK | exact h_k _ | refine fpCompare_kinds (K := _) ?_ _ _ _ _ _ _ _ ?_ | refine (takeReference_kinds ..).mono ?_ | exact all_skip_i | refine all_cons ?_ ?_ | exact all_nil | refine all_seq_i ?_ ?_ | refine all_read_i fun _ => ?_ | refine all_when_i ?_ | refine all_each_i fun _ => ?_ | refine all_ifSome_i fun _ => ?_ | intro _ | split | dsimp only | contradiction

theorem fpClear_kinds (p : Nat) : Prog.All (Act.among 0x100000000000000000000000000000000000000000000000000000000C000) (fpClear p) := by
  unfold fpClear
  repeat' with_reducible first | refine all_leaf ?_ | (show within _ _ = true; with_unfolding_all exact rfl) | (show Act.among _ _; with_unfolding_all exact tb rfl) | refine setF_kinds _ _ ?_ | refine (updDiag_kinds ..).mono ?_ | (show Nat.testBit _ _ = true; exact tb rfl) | (show lies _ _; (try dsimp only [F.DIAG_FP_STAT_ref]); first | refine lies_DIAG_FP_STAT ?_ | split) | exact all_skip_i | refine all_cons ?_ ?_ | exact all_nil | refine all_seq_i ?_ ?_ | refine all_read_i fun _ => ?_ | refine all_when_i ?_ | refine all_each_i fun _ => ?_ | refine all_ifSome_i fun _ => ?_ | split | dsimp only | contradiction

theorem shelfLoad_kinds (p : Nat) : Prog.All (Act.among 0x1000000000000000000000000000000000000000000000000000000004000) (shelfLoad p) := by
  unfold shelfLoad
  repeat' with_reducible first | refine all_leaf ?_ | (show within _ _ = true; with_unfolding_all exact rfl) | (show Act.among _ _; with_unfolding_all exact tb rfl) | refine setF_kinds _ _ ?_ | refine (updDiag_kinds ..).mono ?_ | (show Nat.testBit _ _ = true; exact tb rfl) | (show lies _ _; (try dsimp only [F.DIAG_FP_STAT_ref]); first | refine lies_DIAG_FP_STAT ?_ | split) | exact all_skip_i | refine all_cons ?_ ?_ | exact all_nil | refine all_seq_i ?_ ?_ | refine all_read_i fun _ => ?_ | refine all_when_i ?_ | refine all_each_i fun _ => ?_ | refine all_ifSome_i fun _ => ?_ | split | dsimp only | contradiction

theorem tbClamp_kinds (governor : Nat) : Prog.All (Act.among 0x400000000000000000000000000040000010) (tbClamp governor) := by
  unfold tbClamp
  repeat' with_reducible first | refine all_leaf ?_ | (show within _ _ = true; with_unfolding_all exact rfl) | (show Act.among _ _; with_unfolding_all exact tb rfl) | refine (governorClamp_kinds ..).mono ?_ | refine raise_kinds _ _ (by exact tb rfl) ?_ | (show Nat.testBit _ _ = true; exact tb rfl) | (show lies _ _; first | refine lies_TB_EVENT ?_ | split) | exact all_skip_i | refine all_cons ?_ ?_ | exact all_nil | refine all_seq_i ?_ ?_ | refine all_read_i fun _ => ?_ | refine all_when_i ?_ | refine all_each_i fun _ => ?_ | refine all_ifSome_i fun _ => ?_ | split | dsimp only | contradiction

theorem tbStep_kinds (d : Int) : Prog.All (Act.among 0x420000000000000000000000000040001010) (tbStep d) := by
  unfold tbStep
  repeat' with_reducible first | refine all_leaf ?_ | (show within _ _ = true; with_unfolding_all exact rfl) | (show Act.among _ _; with_unfolding_all exact tb rfl) | refine raise_kinds _ _ (by exact tb rfl) ?_ | refine setReg_kinds _ _ ?_ | refine (tbClamp_kinds ..).mono ?_ | refine (updTb_kinds ..).mono ?_ | (show Nat.testBit _ _ = true; exact tb rfl) | (show lies _ _; (try dsimp only [F.MLD_GOV_STEP_step_us, F.MLD_GOV_TIME_interval_ms]); first | refine lies_TB_STEP ?_ | refine lies_TB_EVENT ?_ | split) | exact all_skip_i | refine all_cons ?_ ?_ | exact all_nil | refine all_seq_i ?_ ?_ | refine all_read_i fun _ => ?_ | refine all_when_i ?_ | refine all_each_i fun _ => ?_ | refine all_ifSome_i fun _ => ?_ | split | dsimp only | contradiction

theorem tbAdjust_kinds (rate : Int) : Prog.All (Act.among 0x440000000000000000000000000040000010) (tbAdjust rate) := by
  unfold tbAdjust
  repeat' with_reducible first | refine all_leaf ?_ | (show within _ _ = true; with_unfolding_all exact rfl) | (show Act.among _ _; with_unfolding_all exact tb rfl) | refine setReg_kinds _ _ ?_ | refine (tbClamp_kinds ..).mono ?_ | (show Nat.testBit _ _ = true; exact tb rfl) | (show lies _ _; (try dsimp only [F.MLD_GOV_TIME_freq_ppb]); first | refine lies_TB_ADJ ?_ | split) | exact all_skip_i | refine all_cons ?_ ?_ | exact all_nil | refine all_seq_i ?_ ?_ | refine all_read_i fun _ => ?_ | refine all_when_i ?_ | refine all_each_i fun _ => ?_ | refine all_ifSome_i fun _ => ?_ | split | dsimp only | contradiction

theorem tbSet_kinds (v : Nat) : Prog.All (Act.among 0x424000000000000000000000000040001010) (tbSet v) := by
  unfold tbSet
  repeat' with_reducible first | refine all_leaf ?_ | (show within _ _ = true; with_unfolding_all exact rfl) | (show Act.among _ _; with_unfolding_all exact tb rfl) | refine raise_kinds _ _ (by exact tb rfl) ?_ | refine setF_kinds _ _ ?_ | refine (tbStep_kinds ..).mono ?_ | refine (updTb_kinds ..).mono ?_ | (show Nat.testBit _ _ = true; exact tb rfl) | (show lies _ _; (try dsimp only [F.TB_STAT_set_done]); first | refine lies_TB_STAT ?_ | refine lies_TB_EVENT ?_ | split) | exact all_skip_i | refine all_cons ?_ ?_ | exact all_nil | refine all_seq_i ?_ ?_ | refine all_read_i fun _ => ?_ | refine all_when_i ?_ | refine all_each_i fun _ => ?_ | refine all_ifSome_i fun _ => ?_ | split | dsimp only | contradiction

theorem tbState_kinds (st : Nat) : Prog.All (Act.among 0x404000000000000000000000000000001010) (tbState st) := by
  unfold tbState
  repeat' with_reducible first | refine all_leaf ?_ | (show within _ _ = true; with_unfolding_all exact rfl) | (show Act.among _ _; with_unfolding_all exact tb rfl) | refine raise_kinds _ _ (by exact tb rfl) ?_ | refine setF_kinds _ _ ?_ | refine (updTb_kinds ..).mono ?_ | (show Nat.testBit _ _ = true; exact tb rfl) | (show lies _ _; (try dsimp only [F.TB_STAT_state]); first | refine lies_TB_STAT ?_ | refine lies_TB_EVENT ?_ | split) | exact all_skip_i | refine all_cons ?_ ?_ | exact all_nil | refine all_seq_i ?_ ?_ | refine all_read_i fun _ => ?_ | refine all_when_i ?_ | refine all_each_i fun _ => ?_ | refine all_ifSome_i fun _ => ?_ | split | dsimp only | contradiction

theorem tbHoldover_kinds : Prog.All (Act.among 0x404000000000000000000000000000001010) (tbHoldover) := by
  unfold tbHoldover
  repeat' with_reducible first | refine all_leaf ?_ | (show within _ _ = true; with_unfolding_all exact rfl) | (show Act.among _ _; with_unfolding_all exact tb rfl) | refine (tbState_kinds ..).mono ?_ | exact all_skip_i | refine all_cons ?_ ?_ | exact all_nil | refine all_seq_i ?_ ?_ | refine all_read_i fun _ => ?_ | refine all_when_i ?_ | refine all_each_i fun _ => ?_ | refine all_ifSome_i fun _ => ?_ | split | dsimp only | contradiction

theorem tbPortLost_kinds (p : Nat) : Prog.All (Act.among 0x404000000000000000000000000000001010) (tbPortLost p) := by
  unfold tbPortLost
  repeat' with_reducible first | refine all_leaf ?_ | (show within _ _ = true; with_unfolding_all exact rfl) | (show Act.among _ _; with_unfolding_all exact tb rfl) | refine tbHoldover_kinds.mono ?_ | exact all_skip_i | refine all_cons ?_ ?_ | exact all_nil | refine all_seq_i ?_ ?_ | refine all_read_i fun _ => ?_ | refine all_when_i ?_ | refine all_each_i fun _ => ?_ | refine all_ifSome_i fun _ => ?_ | split | dsimp only | contradiction

theorem gptpSend_kinds (p kind n : Nat) (ingress : Option Int) : Prog.All (Act.among 0x40) (gptpSend p kind n ingress) := by
  unfold gptpSend
  repeat' with_reducible first | refine all_leaf ?_ | (show within _ _ = true; with_unfolding_all exact rfl) | (show Act.among _ _; with_unfolding_all exact tb rfl) | refine (updPort_kinds ..).mono ?_ | exact all_skip_i | refine all_cons ?_ ?_ | exact all_nil | refine all_seq_i ?_ ?_ | refine all_read_i fun _ => ?_ | refine all_when_i ?_ | refine all_each_i fun _ => ?_ | refine all_ifSome_i fun _ => ?_ | split | dsimp only | contradiction

theorem syncOn_kinds (d : Nat) (ingress : Option Int) (p : Nat) : Prog.All (Act.among 0x40) (syncOn d ingress p) := by
  unfold syncOn
  repeat' with_reducible first | refine all_leaf ?_ | (show within _ _ = true; with_unfolding_all exact rfl) | (show Act.among _ _; with_unfolding_all exact tb rfl) | refine (gptpSend_kinds ..).mono ?_ | exact all_skip_i | refine all_cons ?_ ?_ | exact all_nil | refine all_seq_i ?_ ?_ | refine all_read_i fun _ => ?_ | refine all_when_i ?_ | refine all_each_i fun _ => ?_ | refine all_ifSome_i fun _ => ?_ | split | dsimp only | contradiction

theorem syncReceived_kinds (d port : Nat) (offset domRate servo : Int) : Prog.All (Act.among 0x7464000000000000000000000000040001050) (syncReceived d port offset domRate servo) := by
  unfold syncReceived
  repeat' with_reducible first | refine all_leaf ?_ | (show within _ _ = true; with_unfolding_all exact rfl) | (show Act.among _ _; with_unfolding_all exact tb rfl) | refine setF_kinds _ _ ?_ | refine setWide_kinds _ _ _ ?_ | refine (syncOn_kinds ..).mono ?_ | refine (tbAdjust_kinds ..).mono ?_ | refine (tbState_kinds ..).mono ?_ | refine (tbStep_kinds ..).mono ?_ | refine (updTb_kinds ..).mono ?_ | refine lies_TB_DOM_OFFSET_words ?_ (by decide) | (show Nat.testBit _ _ = true; exact tb rfl) | (show lies _ _; (try dsimp only [F.TB_DOM_RATE_rate, F.TB_DOM_STAT_role, F.TB_DOM_STAT_slave_port, F.TB_DOM_STAT_slave_valid, F.TB_DOM_STAT_synced, F.TB_STAT_state]); first | refine lies_TB_DOM_STAT ?_ | refine lies_TB_DOM_OFFSET ?_ | refine lies_TB_DOM_OFFSET_at ?_ (by decide) (by decide) | refine lies_TB_DOM_RATE ?_ | split) | exact all_skip_i | refine all_cons ?_ ?_ | exact all_nil | refine all_seq_i ?_ ?_ | refine all_read_i fun _ => ?_ | refine all_when_i ?_ | refine all_each_i fun _ => ?_ | refine all_ifSome_i fun _ => ?_ | split | dsimp only | contradiction

theorem syncTimeout_kinds (d : Nat) : Prog.All (Act.among 0x1404000000000000000000000000000001010) (syncTimeout d) := by
  unfold syncTimeout
  repeat' with_reducible first | refine all_leaf ?_ | (show within _ _ = true; with_unfolding_all exact rfl) | (show Act.among _ _; with_unfolding_all exact tb rfl) | refine setF_kinds _ _ ?_ | refine tbHoldover_kinds.mono ?_ | (show Nat.testBit _ _ = true; exact tb rfl) | (show lies _ _; (try dsimp only [F.TB_DOM_STAT_role, F.TB_DOM_STAT_synced]); first | refine lies_TB_DOM_STAT ?_ | split) | exact all_skip_i | refine all_cons ?_ ?_ | exact all_nil | refine all_seq_i ?_ ?_ | refine all_read_i fun _ => ?_ | refine all_when_i ?_ | refine all_each_i fun _ => ?_ | refine all_ifSome_i fun _ => ?_ | split | dsimp only | contradiction

theorem holdoverExpire_kinds : Prog.All (Act.among 0x404000000000000000000000000000001010) (holdoverExpire) := by
  unfold holdoverExpire
  repeat' with_reducible first | refine all_leaf ?_ | (show within _ _ = true; with_unfolding_all exact rfl) | (show Act.among _ _; with_unfolding_all exact tb rfl) | refine (tbState_kinds ..).mono ?_ | exact all_skip_i | refine all_cons ?_ ?_ | exact all_nil | refine all_seq_i ?_ ?_ | refine all_read_i fun _ => ?_ | refine all_when_i ?_ | refine all_each_i fun _ => ?_ | refine all_ifSome_i fun _ => ?_ | split | dsimp only | contradiction

theorem setRole_kinds (d p role : Nat) : Prog.All (Act.among 0x20000000000000000000000000000000000000) (setRole d p role) := by
  unfold setRole
  repeat' with_reducible first | refine all_leaf ?_ | (show within _ _ = true; with_unfolding_all exact rfl) | (show Act.among _ _; with_unfolding_all exact tb rfl) | refine setF_kinds _ _ ?_ | (show Nat.testBit _ _ = true; exact tb rfl) | (show lies _ _; (try dsimp only [F.TB_PORT_ROLES_roles]); first | refine lies_TB_PORT_ROLES ?_ | split) | exact all_skip_i | refine all_cons ?_ ?_ | exact all_nil | refine all_seq_i ?_ ?_ | refine all_read_i fun _ => ?_ | refine all_when_i ?_ | refine all_each_i fun _ => ?_ | refine all_ifSome_i fun _ => ?_ | split | dsimp only | contradiction

theorem gmChange_kinds (d : Nat) (slave : Option Nat) (masters steps gmId : Nat) : Prog.All (Act.among 0x29404000000000000000000000000000001010) (gmChange d slave masters steps gmId) := by
  unfold gmChange
  repeat' with_reducible first | refine all_leaf ?_ | (show within _ _ = true; with_unfolding_all exact rfl) | (show Act.among _ _; with_unfolding_all exact tb rfl) | refine raise_kinds _ _ (by exact tb rfl) ?_ | refine setF_kinds _ _ ?_ | refine (setRole_kinds ..).mono ?_ | refine setWide_kinds _ _ _ ?_ | refine tbHoldover_kinds.mono ?_ | refine (tbState_kinds ..).mono ?_ | refine lies_TB_DOM_GM_ID_words ?_ (by decide) | (show Nat.testBit _ _ = true; exact tb rfl) | (show lies _ _; (try dsimp only [F.TB_DOM_STAT_role, F.TB_DOM_STAT_slave_port, F.TB_DOM_STAT_slave_valid, F.TB_DOM_STAT_stepsRemoved, F.TB_STAT_slave_port, F.TB_STAT_slave_valid]); first | refine lies_TB_STAT ?_ | refine lies_TB_EVENT ?_ | refine lies_TB_DOM_STAT ?_ | refine lies_TB_DOM_GM_ID ?_ | refine lies_TB_DOM_GM_ID_at ?_ (by decide) (by decide) | split) | exact all_skip_i | refine all_cons ?_ ?_ | exact all_nil | refine all_seq_i ?_ ?_ | refine all_read_i fun _ => ?_ | refine all_when_i ?_ | refine all_each_i fun _ => ?_ | refine all_ifSome_i fun _ => ?_ | split | dsimp only | contradiction

theorem syncSend_kinds (d : Nat) : Prog.All (Act.among 0x40) (syncSend d) := by
  unfold syncSend
  repeat' with_reducible first | refine all_leaf ?_ | (show within _ _ = true; with_unfolding_all exact rfl) | (show Act.among _ _; with_unfolding_all exact tb rfl) | refine (syncOn_kinds ..).mono ?_ | exact all_skip_i | refine all_cons ?_ ?_ | exact all_nil | refine all_seq_i ?_ ?_ | refine all_read_i fun _ => ?_ | refine all_when_i ?_ | refine all_each_i fun _ => ?_ | refine all_ifSome_i fun _ => ?_ | split | dsimp only | contradiction

theorem pdelayMeasure_kinds (p delay : Nat) : Prog.All (Act.among 0x40000000000000000000000000000000000040) (pdelayMeasure p delay) := by
  unfold pdelayMeasure
  repeat' with_reducible first | refine all_leaf ?_ | (show within _ _ = true; with_unfolding_all exact rfl) | (show Act.among _ _; with_unfolding_all exact tb rfl) | refine (gptpSend_kinds ..).mono ?_ | refine setF_kinds _ _ ?_ | (show Nat.testBit _ _ = true; exact tb rfl) | (show lies _ _; (try dsimp only [F.TB_CFG_gptp_en, F.TB_PORT_PDELAY_delay, F.TB_PORT_PDELAY_valid, F.TB_PORT_ROLES_roles]); first | refine lies_TB_PORT_PDELAY ?_ | split) | exact all_skip_i | refine all_cons ?_ ?_ | exact all_nil | refine all_seq_i ?_ ?_ | refine all_read_i fun _ => ?_ | refine all_when_i ?_ | refine all_each_i fun _ => ?_ | refine all_ifSome_i fun _ => ?_ | split | dsimp only | contradiction

theorem ppsOut_kinds : Prog.All (Act.among 0x100000000) (ppsOut) := by
  unfold ppsOut
  repeat' with_reducible first | refine all_leaf ?_ | (show within _ _ = true; with_unfolding_all exact rfl) | (show Act.among _ _; with_unfolding_all exact tb rfl) | refine (send_kinds ..).mono ?_ | exact all_skip_i | refine all_cons ?_ ?_ | exact all_nil | refine all_seq_i ?_ ?_ | refine all_read_i fun _ => ?_ | refine all_when_i ?_ | refine all_each_i fun _ => ?_ | refine all_ifSome_i fun _ => ?_ | split | dsimp only | contradiction

theorem ppsIn_kinds (servo : Int) : Prog.All (Act.among 0x760000000000000000000000000240001010) (ppsIn servo) := by
  unfold ppsIn
  repeat' with_reducible first | refine all_leaf ?_ | (show within _ _ = true; with_unfolding_all exact rfl) | (show Act.among _ _; with_unfolding_all exact tb rfl) | refine raise_kinds _ _ (by exact tb rfl) ?_ | refine setReg_kinds _ _ ?_ | refine setWide_kinds _ _ _ ?_ | refine (tbAdjust_kinds ..).mono ?_ | refine (tbStep_kinds ..).mono ?_ | refine (updTb_kinds ..).mono ?_ | refine lies_TB_PPS_IN_words ?_ (by decide) | (show Nat.testBit _ _ = true; exact tb rfl) | (show lies _ _; (try dsimp only [F.TB_CFG_pps_discipline, F.TB_PPS_CFG_pps_in_en, F.TB_STAT_state]); first | refine lies_TB_PPS_IN ?_ | refine lies_TB_PPS_IN_at ?_ (by decide) (by decide) | refine lies_TB_PPS_IN_OFS ?_ | refine lies_TB_EVENT ?_ | split) | exact all_skip_i | refine all_cons ?_ ?_ | exact all_nil | refine all_seq_i ?_ ?_ | refine all_read_i fun _ => ?_ | refine all_when_i ?_ | refine all_each_i fun _ => ?_ | refine all_ifSome_i fun _ => ?_ | refine withFree_among ?_ fun _ => ?_ | (show Nat.testBit _ _ = true; exact tb rfl) | split | dsimp only | contradiction

theorem gclRefresh_kinds (p : Nat) : Prog.All (Act.among 0x100000000000000000000000000000000000000000) (gclRefresh p) := by
  unfold gclRefresh
  repeat' with_reducible first | refine all_leaf ?_ | (show within _ _ = true; with_unfolding_all exact rfl) | (show Act.among _ _; with_unfolding_all exact tb rfl) | refine setF_kinds _ _ ?_ | (show Nat.testBit _ _ = true; exact tb rfl) | (show lies _ _; (try dsimp only [F.LCH_GCL_CFG_CTRL_en, F.LCH_GCL_STAT_entry, F.LCH_GCL_STAT_running]); first | refine lies_LCH_GCL_STAT ?_ | split) | exact all_skip_i | refine all_cons ?_ ?_ | exact all_nil | refine all_seq_i ?_ ?_ | refine all_read_i fun _ => ?_ | refine all_when_i ?_ | refine all_each_i fun _ => ?_ | refine all_ifSome_i fun _ => ?_ | split | dsimp only | contradiction

theorem tapQueue_kinds (p : Nat) : Prog.All (Act.among 0x40) (tapQueue p) := by
  unfold tapQueue
  repeat' with_reducible first | refine all_leaf ?_ | (show within _ _ = true; with_unfolding_all exact rfl) | (show Act.among _ _; with_unfolding_all exact tb rfl) | refine (updPort_kinds ..).mono ?_ | exact all_skip_i | refine all_cons ?_ ?_ | exact all_nil | refine all_seq_i ?_ ?_ | refine all_read_i fun _ => ?_ | refine all_when_i ?_ | refine all_each_i fun _ => ?_ | refine all_ifSome_i fun _ => ?_ | split | dsimp only | contradiction

theorem endLoop_kinds (p result : Nat) : Prog.All (Act.among 0x4000000000000000000000000000000000000000000000000000000000000000000000000000000000000000000000000000440) (endLoop p result) := by
  unfold endLoop
  repeat' with_reducible first | refine all_leaf ?_ | (show within _ _ = true; with_unfolding_all exact rfl) | (show Act.among _ _; with_unfolding_all exact tb rfl) | refine setF_kinds _ _ ?_ | refine (updPort_kinds ..).mono ?_ | (show Nat.testBit _ _ = true; exact tb rfl) | (show lies _ _; (try dsimp only [F.PORT_LOOP_STAT_result, F.PORT_LOOP_STAT_state]); first | refine lies_PORT_LOOP_STAT ?_ | split) | exact all_skip_i | refine all_cons ?_ ?_ | exact all_nil | refine all_seq_i ?_ ?_ | refine all_read_i fun _ => ?_ | refine all_when_i ?_ | refine all_each_i fun _ => ?_ | refine all_ifSome_i fun _ => ?_ | split | dsimp only | contradiction

theorem loopCounted_kinds (p : Nat) : Prog.All (Act.among 0x18000000000000000000000000000000000000000000000000000000000000000000000000000000000000000000000200000000) (loopCounted p) := by
  unfold loopCounted
  repeat' with_reducible first | refine all_leaf ?_ | (show within _ _ = true; with_unfolding_all exact rfl) | (show Act.among _ _; with_unfolding_all exact tb rfl) | refine setWide_kinds _ _ _ ?_ | refine lies_PORT_LOOP_BITS_words ?_ (by decide) | refine lies_PORT_LOOP_ERRS_words ?_ (by decide) | (show Nat.testBit _ _ = true; exact tb rfl) | (show lies _ _; (try dsimp only [F.PORT_LOOP_CTL_source]); first | refine lies_PORT_LOOP_BITS ?_ | refine lies_PORT_LOOP_BITS_at ?_ (by decide) (by decide) | refine lies_PORT_LOOP_ERRS ?_ | refine lies_PORT_LOOP_ERRS_at ?_ (by decide) (by decide) | split) | exact all_skip_i | refine all_cons ?_ ?_ | exact all_nil | refine all_seq_i ?_ ?_ | refine all_read_i fun _ => ?_ | refine all_when_i ?_ | refine all_each_i fun _ => ?_ | refine all_ifSome_i fun _ => ?_ | refine withFree_among ?_ fun _ => ?_ | (show Nat.testBit _ _ = true; exact tb rfl) | split | dsimp only | contradiction

theorem abortLoop_kinds (p : Nat) : Prog.All (Act.among 0x1C000000000000000000000000000000000000000000000000000000000000000000000000000000000000000000000200000440) (abortLoop p) := by
  unfold abortLoop
  repeat' with_reducible first | refine all_leaf ?_ | (show within _ _ = true; with_unfolding_all exact rfl) | (show Act.among _ _; with_unfolding_all exact tb rfl) | refine (endLoop_kinds ..).mono ?_ | refine (loopCounted_kinds ..).mono ?_ | refine setF_kinds _ _ ?_ | (show Nat.testBit _ _ = true; exact tb rfl) | (show lies _ _; (try dsimp only [F.PORT_LOOP_STAT_result, F.PORT_LOOP_STAT_state]); first | refine lies_PORT_LOOP_STAT ?_ | split) | exact all_skip_i | refine all_cons ?_ ?_ | exact all_nil | refine all_seq_i ?_ ?_ | refine all_read_i fun _ => ?_ | refine all_when_i ?_ | refine all_each_i fun _ => ?_ | refine all_ifSome_i fun _ => ?_ | split | dsimp only | contradiction

theorem annealAbort_kinds (p : Nat) : Prog.All (Act.among 0x2500000000000000000000000004200000000000000000000000000000000000000000000000000750) (annealAbort p) := by
  unfold annealAbort
  repeat' with_reducible first | refine all_leaf ?_ | (show within _ _ = true; with_unfolding_all exact rfl) | (show Act.among _ _; with_unfolding_all exact tb rfl) | refine raise_kinds _ _ (by exact tb rfl) ?_ | refine (refreshBundleOf_kinds ..).mono ?_ | refine setF_kinds _ _ ?_ | refine (updPort_kinds ..).mono ?_ | (show Nat.testBit _ _ = true; exact tb rfl) | (show lies _ _; (try dsimp only [F.CAL_PORT_STAT_result, F.CAL_PORT_STAT_state]); first | refine lies_CAL_EVENT ?_ | refine lies_CAL_PORT_STAT ?_ | split) | exact all_skip_i | refine all_cons ?_ ?_ | exact all_nil | refine all_seq_i ?_ ?_ | refine all_read_i fun _ => ?_ | refine all_when_i ?_ | refine all_each_i fun _ => ?_ | refine all_ifSome_i fun _ => ?_ | split | dsimp only | contradiction

theorem reclaimAsk_kinds (p : Nat) : Prog.All (Act.among 0x240) (reclaimAsk p) := by
  unfold reclaimAsk
  repeat' with_reducible first | refine all_leaf ?_ | (show within _ _ = true; with_unfolding_all exact rfl) | (show Act.among _ _; with_unfolding_all exact tb rfl) | refine (updFur_kinds ..).mono ?_ | refine (updPort_kinds ..).mono ?_ | exact all_skip_i | refine all_cons ?_ ?_ | exact all_nil | refine all_seq_i ?_ ?_ | refine all_read_i fun _ => ?_ | refine all_when_i ?_ | refine all_each_i fun _ => ?_ | refine all_ifSome_i fun _ => ?_ | split | dsimp only | contradiction

theorem linkDark_kinds (p : Nat) : Prog.All (Act.among 0x22008400000000000000000000000000000000000000000000000C000000000000000000404000000000000000000000000000003650) (linkDark p) := by
  unfold linkDark
  repeat' with_reducible first | refine all_leaf ?_ | (show within _ _ = true; with_unfolding_all exact rfl) | (show Act.among _ _; with_unfolding_all exact tb rfl) | refine (calQuiet_kinds ..).mono ?_ | refine (endLoop_kinds ..).mono ?_ | refine (reclaimAsk_kinds ..).mono ?_ | refine (segIdle_kinds ..).mono ?_ | refine setF_kinds _ _ ?_ | refine (tbPortLost_kinds ..).mono ?_ | refine (updPort_kinds ..).mono ?_ | (show Nat.testBit _ _ = true; exact tb rfl) | (show lies _ _; (try dsimp only [F.PORT_LPI_STAT_deep, F.PORT_LPI_STAT_quick, F.PORT_LPI_STAT_rx_lpi, F.PORT_LPI_STAT_tx_lpi, F.PORT_TC10_STAT_hs]); first | refine lies_PORT_LPI_STAT ?_ | refine lies_PORT_TC10_STAT ?_ | split) | exact all_skip_i | refine all_cons ?_ ?_ | exact all_nil | refine all_seq_i ?_ ?_ | refine all_read_i fun _ => ?_ | refine all_when_i ?_ | refine all_each_i fun _ => ?_ | refine all_ifSome_i fun _ => ?_ | split | dsimp only | contradiction

theorem caneDrop_kinds (p : Nat) : Prog.All (Act.among 0x220084300003CA381800000401250000000000000000000000000C000000000000000000404000000000000000000000000040003750) (caneDrop p) := by
  unfold caneDrop
  repeat' with_reducible first | refine all_leaf ?_ | (show within _ _ = true; with_unfolding_all exact rfl) | (show Act.among _ _; with_unfolding_all exact tb rfl) | refine (dropCore_kinds ..).mono ?_ | refine (laneDark_kinds ..).mono ?_ | refine (linkDark_kinds ..).mono ?_ | refine (refreshBundleOf_kinds ..).mono ?_ | refine (tapQueue_kinds ..).mono ?_ | exact all_skip_i | refine all_cons ?_ ?_ | exact all_nil | refine all_seq_i ?_ ?_ | refine all_read_i fun _ => ?_ | refine all_when_i ?_ | refine all_each_i fun _ => ?_ | refine all_ifSome_i fun _ => ?_ | split | dsimp only | contradiction

theorem linkLost_kinds (p : Nat) : Prog.All (Act.among 0x220084300003CA381800000409250000000000000000000000000C0000000000000000004040000000000000000000000003400037D0) (linkLost p) := by
  unfold linkLost
  repeat' with_reducible first | refine all_leaf ?_ | (show within _ _ = true; with_unfolding_all exact rfl) | (show Act.among _ _; with_unfolding_all exact tb rfl) | refine (caneDrop_kinds ..).mono ?_ | refine caneLeftUp_kinds (K := _) ?_ _ _ ?_ | refine (linkDark_kinds ..).mono ?_ | exact all_skip_i | refine all_cons ?_ ?_ | exact all_nil | refine all_seq_i ?_ ?_ | refine all_read_i fun _ => ?_ | refine all_when_i ?_ | refine all_each_i fun _ => ?_ | refine all_ifSome_i fun _ => ?_ | intro _ | split | dsimp only | contradiction

theorem refreshNear_kinds (p : Nat) : Prog.All (Act.among 0x2500000000000000000000000000000000000000000000000000000000000000000000000000000310) (refreshNear p) := by
  unfold refreshNear
  repeat' with_reducible first | refine all_leaf ?_ | (show within _ _ = true; with_unfolding_all exact rfl) | (show Act.among _ _; with_unfolding_all exact tb rfl) | refine (refreshBundleOf_kinds ..).mono ?_ | exact all_skip_i | refine all_cons ?_ ?_ | exact all_nil | refine all_seq_i ?_ ?_ | refine all_read_i fun _ => ?_ | refine all_when_i ?_ | refine all_each_i fun _ => ?_ | refine all_ifSome_i fun _ => ?_ | split | dsimp only | contradiction

theorem movePort_kinds {K : Nat} (hK : within 0x220084300003CA381800000409250000000000000000000000000C0000000000000000004040000000000000000000000003400037D0 K = true) (p : Nat) (change : Prog) (h_change : Prog.All (Act.among K) (change)) : Prog.All (Act.among K) (movePort p change) := by
  unfold movePort
  repeat' with_reducible first | refine all_leaf ?_ | (show Act.among _ _; with_unfolding_all exact testBit_within hK (tb rfl)) | exact within_trans (by with_unfolding_all exact rfl) hK | exact h_change | refine (linkLost_kinds ..).mono ?_ | refine (refreshNear_kinds ..).mono ?_ | refine (tapQueue_kinds ..).mono ?_ | exact all_skip_i | refine all_cons ?_ ?_ | exact all_nil | refine all_seq_i ?_ ?_ | refine all_read_i fun _ => ?_ | refine all_when_i ?_ | refine all_each_i fun _ => ?_ | refine all_ifSome_i fun _ => ?_ | split | dsimp only | contradiction

theorem portDrop_kinds (p cause uncLast : Nat) : Prog.All (Act.among 0x220084300003CA381800000409250000000000000000000000000C0000000000000000004040000000000000000000000003400037D0) (portDrop p cause uncLast) := by
  unfold portDrop
  repeat' with_reducible first | refine all_leaf ?_ | (show within _ _ = true; with_unfolding_all exact rfl) | (show Act.among _ _; with_unfolding_all exact tb rfl) | refine (dropCore_kinds ..).mono ?_ | refine movePort_kinds (K := _) ?_ _ _ ?_ | exact all_skip_i | refine all_cons ?_ ?_ | exact all_nil | refine all_seq_i ?_ ?_ | refine all_read_i fun _ => ?_ | refine all_when_i ?_ | refine all_each_i fun _ => ?_ | refine all_ifSome_i fun _ => ?_ | intro _ | split | dsimp only | contradiction

theorem portDropNow_kinds (p cause : Nat) : Prog.All (Act.among 0x220084300003CA381800000409250000000000000000000000000C0000000000000000004040000000000000000000000003400037D0) (portDropNow p cause) := by
  unfold portDropNow
  repeat' with_reducible first | refine all_leaf ?_ | (show within _ _ = true; with_unfolding_all exact rfl) | (show Act.among _ _; with_unfolding_all exact tb rfl) | refine (portDrop_kinds ..).mono ?_ | exact all_skip_i | refine all_cons ?_ ?_ | exact all_nil | refine all_seq_i ?_ ?_ | refine all_read_i fun _ => ?_ | refine all_when_i ?_ | refine all_each_i fun _ => ?_ | refine all_ifSome_i fun _ => ?_ | split | dsimp only | contradiction

theorem toListen_kinds (p : Nat) (afterFailure : Bool) : Prog.All (Act.among 0x220084300003CA381800000409250000000000000000000000000C0000000000000000004040000000000000000000000003400037D0) (toListen p afterFailure) := by
  unfold toListen
  repeat' with_reducible first | refine all_leaf ?_ | (show within _ _ = true; with_unfolding_all exact rfl) | (show Act.among _ _; with_unfolding_all exact tb rfl) | refine (enterListen_kinds ..).mono ?_ | refine movePort_kinds (K := _) ?_ _ _ ?_ | exact all_skip_i | refine all_cons ?_ ?_ | exact all_nil | refine all_seq_i ?_ ?_ | refine all_read_i fun _ => ?_ | refine all_when_i ?_ | refine all_each_i fun _ => ?_ | refine all_ifSome_i fun _ => ?_ | intro _ | split | dsimp only | contradiction

theorem toDisabled_kinds (p : Nat) : Prog.All (Act.among 0x220084300003CA381800000409250000000000000000000000000C0000000000000000004040000000000000000000000003400037D0) (toDisabled p) := by
  unfold toDisabled
  repeat' with_reducible first | refine all_leaf ?_ | (show within _ _ = true; with_unfolding_all exact rfl) | (show Act.among _ _; with_unfolding_all exact tb rfl) | refine (clearExcluded_kinds ..).mono ?_ | refine (enterRest_kinds ..).mono ?_ | refine movePort_kinds (K := _) ?_ _ _ ?_ | refine setF_kinds _ _ ?_ | refine (setPending_kinds ..).mono ?_ | refine (updPort_kinds ..).mono ?_ | (show Nat.testBit _ _ = true; exact tb rfl) | (show lies _ _; (try dsimp only [F.PORT_STATE_held]); first | refine lies_PORT_STATE ?_ | split) | exact all_skip_i | refine all_cons ?_ ?_ | exact all_nil | refine all_seq_i ?_ ?_ | refine all_read_i fun _ => ?_ | refine all_when_i ?_ | refine all_each_i fun _ => ?_ | refine all_ifSome_i fun _ => ?_ | intro _ | split | dsimp only | contradiction

theorem toSleep_kinds (p lastSleep : Nat) : Prog.All (Act.among 0x220084300003CA381800000409250000000000000000000000000C0000000000000000004040000000000000000000000003400037D0) (toSleep p lastSleep) := by
  unfold toSleep
  repeat' with_reducible first | refine all_leaf ?_ | (show within _ _ = true; with_unfolding_all exact rfl) | (show Act.among _ _; with_unfolding_all exact tb rfl) | refine (clearExcluded_kinds ..).mono ?_ | refine movePort_kinds (K := _) ?_ _ _ ?_ | refine setF_kinds _ _ ?_ | refine (sleepRest_kinds ..).mono ?_ | (show Nat.testBit _ _ = true; exact tb rfl) | (show lies _ _; (try dsimp only [F.PORT_TC10_STAT_last_sleep]); first | refine lies_PORT_TC10_STAT ?_ | split) | exact all_skip_i | refine all_cons ?_ ?_ | exact all_nil | refine all_seq_i ?_ ?_ | refine all_read_i fun _ => ?_ | refine all_when_i ?_ | refine all_each_i fun _ => ?_ | refine all_ifSome_i fun _ => ?_ | intro _ | split | dsimp only | contradiction

theorem exitSleep_kinds (p : Nat) : Prog.All (Act.among 0x220084300003CA381800000409250000000000000000000000000C0000000000000000004040000000000000000000000003400037D0) (exitSleep p) := by
  unfold exitSleep
  repeat' with_reducible first | refine all_leaf ?_ | (show within _ _ = true; with_unfolding_all exact rfl) | (show Act.among _ _; with_unfolding_all exact tb rfl) | refine (clearExcluded_kinds ..).mono ?_ | refine setF_kinds _ _ ?_ | refine (setPending_kinds ..).mono ?_ | refine (toListen_kinds ..).mono ?_ | refine (updPort_kinds ..).mono ?_ | (show Nat.testBit _ _ = true; exact tb rfl) | (show lies _ _; (try dsimp only [F.PORT_CTL_admin, F.PORT_STATE_held]); first | refine lies_PORT_CTL ?_ | refine lies_PORT_STATE ?_ | split) | exact all_skip_i | refine all_cons ?_ ?_ | exact all_nil | refine all_seq_i ?_ ?_ | refine all_read_i fun _ => ?_ | refine all_when_i ?_ | refine all_each_i fun _ => ?_ | refine all_ifSome_i fun _ => ?_ | split | dsimp only | contradiction

theorem tryLeave_kinds (p : Nat) : Prog.All (Act.among 0x220084300003CA381800000409250000000000000000000000000C0000000000000000004040000000000000000000000003400037D0) (tryLeave p) := by
  unfold tryLeave
  repeat' with_reducible first | refine all_leaf ?_ | (show within _ _ = true; with_unfolding_all exact rfl) | (show Act.among _ _; with_unfolding_all exact tb rfl) | refine (exitSleep_kinds ..).mono ?_ | refine (reclaimAsk_kinds ..).mono ?_ | refine setF_kinds _ _ ?_ | (show Nat.testBit _ _ = true; exact tb rfl) | (show lies _ _; (try dsimp only [F.PORT_STATE_held]); first | refine lies_PORT_STATE ?_ | split) | exact all_skip_i | refine all_cons ?_ ?_ | exact all_nil | refine all_seq_i ?_ ?_ | refine all_read_i fun _ => ?_ | refine all_when_i ?_ | refine all_each_i fun _ => ?_ | refine all_ifSome_i fun _ => ?_ | split | dsimp only | contradiction

theorem askLeave_kinds (p : Nat) (wake : Bool) : Prog.All (Act.among 0x220084300003CA381800000409250000000000000000000000000C0000000000000000004040000000000000000000000003400037D0) (askLeave p wake) := by
  unfold askLeave
  repeat' with_reducible first | refine all_leaf ?_ | (show within _ _ = true; with_unfolding_all exact rfl) | (show Act.among _ _; with_unfolding_all exact tb rfl) | refine (tryLeave_kinds ..).mono ?_ | refine (updPort_kinds ..).mono ?_ | exact all_skip_i | refine all_cons ?_ ?_ | exact all_nil | refine all_seq_i ?_ ?_ | refine all_read_i fun _ => ?_ | refine all_when_i ?_ | refine all_each_i fun _ => ?_ | refine all_ifSome_i fun _ => ?_ | split | dsimp only | contradiction

theorem keepPartner_kinds (p : Nat) : Prog.All (Act.among 0x2000000) (keepPartner p) := by
  unfold keepPartner
  repeat' with_reducible first | refine all_leaf ?_ | (show within _ _ = true; with_unfolding_all exact rfl) | (show Act.among _ _; with_unfolding_all exact tb rfl) | refine (updPower_kinds ..).mono ?_ | exact all_skip_i | refine all_cons ?_ ?_ | exact all_nil | refine all_seq_i ?_ ?_ | refine all_read_i fun _ => ?_ | refine all_when_i ?_ | refine all_each_i fun _ => ?_ | refine all_ifSome_i fun _ => ?_ | split | dsimp only | contradiction

theorem comparePartner_kinds (p : Nat) : Prog.All (Act.among 0x201C000000000000000000000000000000000000000000000000000000000000000000000000000000000000002000010) (comparePartner p) := by
  unfold comparePartner
  repeat' with_reducible first | refine all_leaf ?_ | (show within _ _ = true; with_unfolding_all exact rfl) | (show Act.among _ _; with_unfolding_all exact tb rfl) | refine (keepPartner_kinds ..).mono ?_ | refine raise_kinds _ _ (by exact tb rfl) ?_ | refine setReg_kinds _ _ ?_ | refine setWide_kinds _ _ _ ?_ | refine lies_PORT_PARTNER_REF_ID_words ?_ (by decide) | (show Nat.testBit _ _ = true; exact tb rfl) | (show lies _ _; (try dsimp only [F.PORT_PARTNER_REF_FLAGS_valid]); first | refine lies_PORT_PARTNER_REF_ABIL ?_ | refine lies_PORT_PARTNER_REF_FLAGS ?_ | refine lies_PORT_PARTNER_REF_ID ?_ | refine lies_PORT_PARTNER_REF_ID_at ?_ (by decide) (by decide) | refine lies_PORT_EVENT ?_ | split) | exact all_skip_i | refine all_cons ?_ ?_ | exact all_nil | refine all_seq_i ?_ ?_ | refine all_read_i fun _ => ?_ | refine all_when_i ?_ | refine all_each_i fun _ => ?_ | refine all_ifSome_i fun _ => ?_ | split | dsimp only | contradiction

theorem lpiToUp_kinds (p : Nat) : Prog.All (Act.among 0x201C010000000000000000000000000000000000000000000000000000000000000000000000000000000000002000010) (lpiToUp p) := by
  unfold lpiToUp
  repeat' with_reducible first | refine all_leaf ?_ | (show within _ _ = true; with_unfolding_all exact rfl) | (show Act.among _ _; with_unfolding_all exact tb rfl) | refine (comparePartner_kinds ..).mono ?_ | refine setF_kinds _ _ ?_ | (show Nat.testBit _ _ = true; exact tb rfl) | (show lies _ _; (try dsimp only [F.PORT_STATE_state]); first | refine lies_PORT_STATE ?_ | split) | exact all_skip_i | refine all_cons ?_ ?_ | exact all_nil | refine all_seq_i ?_ ?_ | refine all_read_i fun _ => ?_ | refine all_when_i ?_ | refine all_each_i fun _ => ?_ | refine all_ifSome_i fun _ => ?_ | split | dsimp only | contradiction

theorem startHandshake_kinds (p : Nat) : Prog.All (Act.among 0x22000000000201C010000000002500000000000000000000000000000000000000000000000000000000000000000000000102000350) (startHandshake p) := by
  unfold startHandshake
  repeat' with_reducible first | refine all_leaf ?_ | (show within _ _ = true; with_unfolding_all exact rfl) | (show Act.among _ _; with_unfolding_all exact tb rfl) | refine (lpiToUp_kinds ..).mono ?_ | refine (refreshBundleOf_kinds ..).mono ?_ | refine (send_kinds ..).mono ?_ | refine setF_kinds _ _ ?_ | refine (updPort_kinds ..).mono ?_ | (show Nat.testBit _ _ = true; exact tb rfl) | (show lies _ _; (try dsimp only [F.PORT_LPI_STAT_deep, F.PORT_LPI_STAT_tx_lpi, F.PORT_TC10_STAT_hs]); first | refine lies_PORT_LPI_STAT ?_ | refine lies_PORT_TC10_STAT ?_ | split) | exact all_skip_i | refine all_cons ?_ ?_ | exact all_nil | refine all_seq_i ?_ ?_ | refine all_read_i fun _ => ?_ | refine all_when_i ?_ | refine all_each_i fun _ => ?_ | refine all_ifSome_i fun _ => ?_ | split | dsimp only | contradiction

theorem adminMove_kinds (p a : Nat) : Prog.All (Act.among 0x220084300003CBF81800000409250000000000000000000000000C0000000000000000004040000000000000000000000003420037D0) (adminMove p a) := by
  unfold adminMove
  repeat' with_reducible first | refine all_leaf ?_ | (show within _ _ = true; with_unfolding_all exact rfl) | (show Act.among _ _; with_unfolding_all exact tb rfl) | refine (askLeave_kinds ..).mono ?_ | refine (clearExcluded_kinds ..).mono ?_ | refine (startHandshake_kinds ..).mono ?_ | refine (toDisabled_kinds ..).mono ?_ | refine (toListen_kinds ..).mono ?_ | refine (toSleep_kinds ..).mono ?_ | refine (updPort_kinds ..).mono ?_ | exact all_skip_i | refine all_cons ?_ ?_ | exact all_nil | refine all_seq_i ?_ ?_ | refine all_read_i fun _ => ?_ | refine all_when_i ?_ | refine all_each_i fun _ => ?_ | refine all_ifSome_i fun _ => ?_ | split | dsimp only | contradiction

theorem leaveFault_kinds (p : Nat) : Prog.All (Act.among 0x220084300003CA381800000409250000000000000000000000000C0000000000000000004040000000000000000000000003400037D0) (leaveFault p) := by
  unfold leaveFault
  repeat' with_reducible first | refine all_leaf ?_ | (show within _ _ = true; with_unfolding_all exact rfl) | (show Act.among _ _; with_unfolding_all exact tb rfl) | refine (toDisabled_kinds ..).mono ?_ | refine (toListen_kinds ..).mono ?_ | refine (toSleep_kinds ..).mono ?_ | exact all_skip_i | refine all_cons ?_ ?_ | exact all_nil | refine all_seq_i ?_ ?_ | refine all_read_i fun _ => ?_ | refine all_when_i ?_ | refine all_each_i fun _ => ?_ | refine all_ifSome_i fun _ => ?_ | split | dsimp only | contradiction

theorem flapRelease_kinds (p : Nat) : Prog.All (Act.among 0x40) (flapRelease p) := by
  unfold flapRelease
  repeat' with_reducible first | refine all_leaf ?_ | (show within _ _ = true; with_unfolding_all exact rfl) | (show Act.among _ _; with_unfolding_all exact tb rfl) | refine (updPort_kinds ..).mono ?_ | exact all_skip_i | refine all_cons ?_ ?_ | exact all_nil | refine all_seq_i ?_ ?_ | refine all_read_i fun _ => ?_ | refine all_when_i ?_ | refine all_each_i fun _ => ?_ | refine all_ifSome_i fun _ => ?_ | split | dsimp only | contradiction

theorem portAdminWrite_kinds (p a : Nat) : Prog.All (Act.among 0x22009C300003CBF81800000409250000000000000000000000000C2000000000000000004040000000000000000000000003420037D0) (portAdminWrite p a) := by
  unfold portAdminWrite
  repeat' with_reducible first | refine all_leaf ?_ | (show within _ _ = true; with_unfolding_all exact rfl) | (show Act.among _ _; with_unfolding_all exact tb rfl) | refine (abortLoop_kinds ..).mono ?_ | refine (adminMove_kinds ..).mono ?_ | refine (annealAbort_kinds ..).mono ?_ | refine setF_kinds _ _ ?_ | (show Nat.testBit _ _ = true; exact tb rfl) | (show lies _ _; (try dsimp only [F.PORT_CTL_admin]); first | refine lies_PORT_CTL ?_ | split) | exact all_skip_i | refine all_cons ?_ ?_ | exact all_nil | refine all_seq_i ?_ ?_ | refine all_read_i fun _ => ?_ | refine all_when_i ?_ | refine all_each_i fun _ => ?_ | refine all_ifSome_i fun _ => ?_ | split | dsimp only | contradiction

theorem portRestart_kinds (p : Nat) : Prog.All (Act.among 0x220084300003CA381800000409250000000000000000000000000C0000000000000000004040000000000000000000000003400037D0) (portRestart p) := by
  unfold portRestart
  repeat' with_reducible first | refine all_leaf ?_ | (show within _ _ = true; with_unfolding_all exact rfl) | (show Act.among _ _; with_unfolding_all exact tb rfl) | refine (clearExcluded_kinds ..).mono ?_ | refine (flapRelease_kinds ..).mono ?_ | refine (leaveFault_kinds ..).mono ?_ | refine (portDropNow_kinds ..).mono ?_ | refine (toListen_kinds ..).mono ?_ | exact all_skip_i | refine all_cons ?_ ?_ | exact all_nil | refine all_seq_i ?_ ?_ | refine all_read_i fun _ => ?_ | refine all_when_i ?_ | refine all_each_i fun _ => ?_ | refine all_ifSome_i fun _ => ?_ | split | dsimp only | contradiction

theorem clearCounters_kinds (p : Nat) : Prog.All (Act.among 0xE00003FF0000000000000000000000000000000000000000000000000000000000000000000000000000000000000000000000000) (clearCounters p) := by
  unfold clearCounters
  repeat' with_reducible first | refine all_leaf ?_ | (show within _ _ = true; with_unfolding_all exact rfl) | (show Act.among _ _; with_unfolding_all exact tb rfl) | refine setWide_kinds _ _ _ ?_ | refine lies_PORT_RX_FRAMES_words ?_ (by decide) | refine lies_PORT_RX_BYTES_words ?_ (by decide) | refine lies_PORT_RX_FCS_ERR_words ?_ (by decide) | refine lies_PORT_RX_RUNT_words ?_ (by decide) | refine lies_PORT_RX_OVERSIZE_words ?_ (by decide) | refine lies_PORT_RX_ORPHAN_DROP_words ?_ (by decide) | refine lies_PORT_RX_PAUSE_words ?_ (by decide) | refine lies_PORT_TX_FRAMES_words ?_ (by decide) | refine lies_PORT_TX_BYTES_words ?_ (by decide) | refine lies_PORT_TX_OVERSIZE_words ?_ (by decide) | refine lies_PORT_SEG_COLL_words ?_ (by decide) | refine lies_PORT_SEG_LATE_words ?_ (by decide) | refine lies_PORT_SEG_EXCESS_words ?_ (by decide) | (show Nat.testBit _ _ = true; exact tb rfl) | (show lies _ _; first | refine lies_PORT_RX_FRAMES ?_ | refine lies_PORT_RX_FRAMES_at ?_ (by decide) (by decide) | refine lies_PORT_RX_BYTES ?_ | refine lies_PORT_RX_BYTES_at ?_ (by decide) (by decide) | refine lies_PORT_RX_FCS_ERR ?_ | refine lies_PORT_RX_FCS_ERR_at ?_ (by decide) (by decide) | refine lies_PORT_RX_RUNT ?_ | refine lies_PORT_RX_RUNT_at ?_ (by decide) (by decide) | refine lies_PORT_RX_OVERSIZE ?_ | refine lies_PORT_RX_OVERSIZE_at ?_ (by decide) (by decide) | refine lies_PORT_RX_ORPHAN_DROP ?_ | refine lies_PORT_RX_ORPHAN_DROP_at ?_ (by decide) (by decide) | refine lies_PORT_RX_PAUSE ?_ | refine lies_PORT_RX_PAUSE_at ?_ (by decide) (by decide) | refine lies_PORT_TX_FRAMES ?_ | refine lies_PORT_TX_FRAMES_at ?_ (by decide) (by decide) | refine lies_PORT_TX_BYTES ?_ | refine lies_PORT_TX_BYTES_at ?_ (by decide) (by decide) | refine lies_PORT_TX_OVERSIZE ?_ | refine lies_PORT_TX_OVERSIZE_at ?_ (by decide) (by decide) | refine lies_PORT_SEG_COLL ?_ | refine lies_PORT_SEG_COLL_at ?_ (by decide) (by decide) | refine lies_PORT_SEG_LATE ?_ | refine lies_PORT_SEG_LATE_at ?_ (by decide) (by decide) | refine lies_PORT_SEG_EXCESS ?_ | refine lies_PORT_SEG_EXCESS_at ?_ (by decide) (by decide) | split) | exact all_skip_i | refine all_cons ?_ ?_ | exact all_nil | refine all_seq_i ?_ ?_ | refine all_read_i fun _ => ?_ | refine all_when_i ?_ | refine all_each_i fun _ => ?_ | refine all_ifSome_i fun _ => ?_ | split | dsimp only | contradiction

theorem loadModes_kinds (p : Nat) : Prog.All (Act.among 0x60000000000000000000000000000000000000000000000000000000000000000000000000000000000000000002) (loadModes p) := by
  unfold loadModes
  repeat' with_reducible first | refine all_leaf ?_ | (show within _ _ = true; with_unfolding_all exact rfl) | (show Act.among _ _; with_unfolding_all exact tb rfl) | refine setActiveF_kinds _ _ (by exact tb rfl) ?_ | refine (stageF_kinds ..).mono ?_ | (show Nat.testBit _ _ = true; exact tb rfl) | (show lies _ _; (try dsimp only [F.PORT_ADV_modes, F.PORT_MODE_CFG_forced_mode]); first | refine lies_PORT_MODE_CFG ?_ | refine lies_PORT_ADV ?_ | split) | exact all_skip_i | refine all_cons ?_ ?_ | exact all_nil | refine all_seq_i ?_ ?_ | refine all_read_i fun _ => ?_ | refine all_when_i ?_ | refine all_each_i fun _ => ?_ | refine all_ifSome_i fun _ => ?_ | split | dsimp only | contradiction

theorem portResetBegin_kinds (p : Nat) : Prog.All (Act.among 0x2E2F9C303FF3FA387800000409250000000000000000000000000C2000000000000000004040000000000000000000000003400037D2) (portResetBegin p) := by
  unfold portResetBegin
  repeat' with_reducible first | refine all_leaf ?_ | (show within _ _ = true; with_unfolding_all exact rfl) | (show Act.among _ _; with_unfolding_all exact tb rfl) | refine (abortLoop_kinds ..).mono ?_ | refine (annealAbort_kinds ..).mono ?_ | refine (censusClear_kinds ..).mono ?_ | refine (clearCounters_kinds ..).mono ?_ | refine (clearExcluded_kinds ..).mono ?_ | refine (clearPartner_kinds ..).mono ?_ | refine (dropRecord_kinds ..).mono ?_ | refine (enterRest_kinds ..).mono ?_ | refine (loadModes_kinds ..).mono ?_ | refine movePort_kinds (K := _) ?_ _ _ ?_ | refine (qualIdle_kinds ..).mono ?_ | refine resetReg_kinds _ (by exact tb rfl) (by exact tb rfl) ?_ | refine setF_kinds _ _ ?_ | refine setWide_kinds _ _ _ ?_ | refine (updPort_kinds ..).mono ?_ | refine lies_PORT_FEC_CORR_words ?_ (by decide) | refine lies_PORT_FEC_UNCORR_words ?_ (by decide) | refine lies_PORT_LPI_TIME_words ?_ (by decide) | (show Nat.testBit _ _ = true; exact tb rfl) | (show lies _ _; (try dsimp only [F.PORT_CTL_reset, F.PORT_LINK_QUAL_sqi_min, F.PORT_STATE_fail_count]); first | refine lies_PORT_CTL ?_ | refine lies_PORT_STATE ?_ | refine lies_PORT_LINK_QUAL ?_ | refine lies_PORT_FEC_CORR ?_ | refine lies_PORT_FEC_CORR_at ?_ (by decide) (by decide) | refine lies_PORT_FEC_UNCORR ?_ | refine lies_PORT_FEC_UNCORR_at ?_ (by decide) (by decide) | refine lies_PORT_LPI_ENTRIES ?_ | refine lies_PORT_LPI_TIME ?_ | refine lies_PORT_LPI_TIME_at ?_ (by decide) (by decide) | split) | exact all_skip_i | refine all_cons ?_ ?_ | exact all_nil | refine all_seq_i ?_ ?_ | refine all_read_i fun _ => ?_ | refine all_when_i ?_ | refine all_each_i fun _ => ?_ | refine all_ifSome_i fun _ => ?_ | intro _ | split | dsimp only | contradiction

theorem portResetEnd_kinds (p : Nat) : Prog.All (Act.among 0x220084300003CBF81800000409250000000000000000000000000C0000000000000000004040000000000000000000000003420037D0) (portResetEnd p) := by
  unfold portResetEnd
  repeat' with_reducible first | refine all_leaf ?_ | (show within _ _ = true; with_unfolding_all exact rfl) | (show Act.among _ _; with_unfolding_all exact tb rfl) | refine (adminMove_kinds ..).mono ?_ | refine (leaveFault_kinds ..).mono ?_ | refine setF_kinds _ _ ?_ | refine (updPort_kinds ..).mono ?_ | (show Nat.testBit _ _ = true; exact tb rfl) | (show lies _ _; (try dsimp only [F.PORT_CTL_admin, F.PORT_CTL_reset]); first | refine lies_PORT_CTL ?_ | split) | exact all_skip_i | refine all_cons ?_ ?_ | exact all_nil | refine all_seq_i ?_ ?_ | refine all_read_i fun _ => ?_ | refine all_when_i ?_ | refine all_each_i fun _ => ?_ | refine all_ifSome_i fun _ => ?_ | split | dsimp only | contradiction

theorem flapHoldExpire_kinds (p : Nat) : Prog.All (Act.among 0x220084300003CA381800000409250000000000000000000000000C0000000000000000004040000000000000000000000003400037D0) (flapHoldExpire p) := by
  unfold flapHoldExpire
  repeat' with_reducible first | refine all_leaf ?_ | (show within _ _ = true; with_unfolding_all exact rfl) | (show Act.among _ _; with_unfolding_all exact tb rfl) | refine (flapRelease_kinds ..).mono ?_ | refine (leaveFault_kinds ..).mono ?_ | exact all_skip_i | refine all_cons ?_ ?_ | exact all_nil | refine all_seq_i ?_ ?_ | refine all_read_i fun _ => ?_ | refine all_when_i ?_ | refine all_each_i fun _ => ?_ | refine all_ifSome_i fun _ => ?_ | split | dsimp only | contradiction

theorem portResetWrite_kinds (p a : Nat) : Prog.All (Act.among 0x2E2F9C303FF3FBF87800000409250000000000000000000000000C2000000000000000004040000000000000000000000003420037D2) (portResetWrite p a) := by
  unfold portResetWrite
  repeat' with_reducible first | refine all_leaf ?_ | (show within _ _ = true; with_unfolding_all exact rfl) | (show Act.among _ _; with_unfolding_all exact tb rfl) | refine (portAdminWrite_kinds ..).mono ?_ | refine (portResetBegin_kinds ..).mono ?_ | refine setF_kinds _ _ ?_ | (show Nat.testBit _ _ = true; exact tb rfl) | (show lies _ _; (try dsimp only [F.PORT_CTL_admin]); first | refine lies_PORT_CTL ?_ | split) | exact all_skip_i | refine all_cons ?_ ?_ | exact all_nil | refine all_seq_i ?_ ?_ | refine all_read_i fun _ => ?_ | refine all_when_i ?_ | refine all_each_i fun _ => ?_ | refine all_ifSome_i fun _ => ?_ | split | dsimp only | contradiction

theorem tapApply_kinds (p : Nat) : Prog.All (Act.among 0x40000000000000000000000000000000000000000000000000000000000000000000000000000000000000000000000000040) (tapApply p) := by
  unfold tapApply
  repeat' with_reducible first | refine all_leaf ?_ | (show within _ _ = true; with_unfolding_all exact rfl) | (show Act.among _ _; with_unfolding_all exact tb rfl) | refine setF_kinds _ _ ?_ | refine (updPort_kinds ..).mono ?_ | (show Nat.testBit _ _ = true; exact tb rfl) | (show lies _ _; (try dsimp only [F.PORT_TAP_ACTIVE_src, F.PORT_TAP_ACTIVE_taps]); first | refine lies_PORT_TAP_ACTIVE ?_ | split) | exact all_skip_i | refine all_cons ?_ ?_ | exact all_nil | refine all_seq_i ?_ ?_ | refine all_read_i fun _ => ?_ | refine all_when_i ?_ | refine all_each_i fun _ => ?_ | refine all_ifSome_i fun _ => ?_ | split | dsimp only | contradiction

theorem tapWrite_kinds (p : Nat) (man : Bool) (w : Nat) : Prog.All (Act.among 0x430000000000000000000000000000000000000000000000000000000000000000000000000000000000000000000000000050) (tapWrite p man w) := by
  unfold tapWrite
  repeat' with_reducible first | refine all_leaf ?_ | (show within _ _ = true; with_unfolding_all exact rfl) | (show Act.among _ _; with_unfolding_all exact tb rfl) | refine raise_kinds _ _ (by exact tb rfl) ?_ | refine setReg_kinds _ _ ?_ | refine (tapQueue_kinds ..).mono ?_ | (show Nat.testBit _ _ = true; exact tb rfl) | (show lies _ _; first | refine lies_PORT_TAP_MAN ?_ | refine lies_PORT_TAP_STD ?_ | refine lies_PORT_TRK_EVENT ?_ | split) | exact all_skip_i | refine all_cons ?_ ?_ | exact all_nil | refine all_seq_i ?_ ?_ | refine all_read_i fun _ => ?_ | refine all_when_i ?_ | refine all_each_i fun _ => ?_ | refine all_ifSome_i fun _ => ?_ | split | dsimp only | contradiction

theorem enterTrain_kinds (p mode role : Nat) : Prog.All (Act.among 0x8000008001000000000000000000000000000000000000C000000000000000000000000000000000000000000000000002040) (enterTrain p mode role) := by
  unfold enterTrain
  repeat' with_reducible first | refine all_leaf ?_ | (show within _ _ = true; with_unfolding_all exact rfl) | (show Act.among _ _; with_unfolding_all exact tb rfl) | refine (calFamily_kinds ..).mono ?_ | refine setF_kinds _ _ ?_ | refine (setMode_kinds ..).mono ?_ | refine setReg_kinds _ _ ?_ | refine (tapQueue_kinds ..).mono ?_ | refine (updPort_kinds ..).mono ?_ | (show Nat.testBit _ _ = true; exact tb rfl) | (show lies _ _; (try dsimp only [F.PORT_STATE_state]); first | refine lies_PORT_STATE ?_ | refine lies_PORT_TAP_STAT ?_ | split) | exact all_skip_i | refine all_cons ?_ ?_ | exact all_nil | refine all_seq_i ?_ ?_ | refine all_read_i fun _ => ?_ | refine all_when_i ?_ | refine all_each_i fun _ => ?_ | refine all_ifSome_i fun _ => ?_ | split | dsimp only | contradiction

theorem noMode_kinds (p : Nat) : Prog.All (Act.among 0x2000000000000000000000000000000000000000000000000000000000000000000000000000000000000000000000050) (noMode p) := by
  unfold noMode
  repeat' with_reducible first | refine all_leaf ?_ | (show within _ _ = true; with_unfolding_all exact rfl) | (show Act.among _ _; with_unfolding_all exact tb rfl) | refine raise_kinds _ _ (by exact tb rfl) ?_ | refine (updPort_kinds ..).mono ?_ | (show Nat.testBit _ _ = true; exact tb rfl) | (show lies _ _; first | refine lies_PORT_EVENT ?_ | split) | exact all_skip_i | refine all_cons ?_ ?_ | exact all_nil | refine all_seq_i ?_ ?_ | refine all_read_i fun _ => ?_ | refine all_when_i ?_ | refine all_each_i fun _ => ?_ | refine all_ifSome_i fun _ => ?_ | split | dsimp only | contradiction

theorem sendPages_kinds (p : Nat) : Prog.All (Act.among 0x100000000) (sendPages p) := by
  unfold sendPages
  repeat' with_reducible first | refine all_leaf ?_ | (show within _ _ = true; with_unfolding_all exact rfl) | (show Act.among _ _; with_unfolding_all exact tb rfl) | refine (send_kinds ..).mono ?_ | exact all_skip_i | refine all_cons ?_ ?_ | exact all_nil | refine all_seq_i ?_ ?_ | refine all_read_i fun _ => ?_ | refine all_when_i ?_ | refine all_each_i fun _ => ?_ | refine all_ifSome_i fun _ => ?_ | split | dsimp only | contradiction

theorem startAttempt_kinds (p : Nat) : Prog.All (Act.among 0x8000208181000000000000000000000000000000000000C000000000000000000000000000000000000000000000100002050) (startAttempt p) := by
  unfold startAttempt
  repeat' with_reducible first | refine all_leaf ?_ | (show within _ _ = true; with_unfolding_all exact rfl) | (show Act.among _ _; with_unfolding_all exact tb rfl) | refine (enterTrain_kinds ..).mono ?_ | refine (noMode_kinds ..).mono ?_ | refine (send_kinds ..).mono ?_ | refine (sendPages_kinds ..).mono ?_ | refine setF_kinds _ _ ?_ | refine setReg_kinds _ _ ?_ | refine (updPort_kinds ..).mono ?_ | (show Nat.testBit _ _ = true; exact tb rfl) | (show lies _ _; (try dsimp only [F.PORT_LPI_CFG_eee_adv, F.PORT_MODE_CFG_an_en, F.PORT_MODE_CFG_role, F.PORT_PARTNER_FLAGS_valid, F.PORT_STATE_state]); first | refine lies_PORT_STATE ?_ | refine lies_PORT_PARTNER_ABIL ?_ | refine lies_PORT_PARTNER_FLAGS ?_ | split) | exact all_skip_i | refine all_cons ?_ ?_ | exact all_nil | refine all_seq_i ?_ ?_ | refine all_read_i fun _ => ?_ | refine all_when_i ?_ | refine all_each_i fun _ => ?_ | refine all_ifSome_i fun _ => ?_ | split | dsimp only | contradiction

theorem listenWaitEnd_kinds (p : Nat) : Prog.All (Act.among 0x220084380003CA381800000409250000000000000000000000000C0000000000000000004040000000000000000000000003400037D0) (listenWaitEnd p) := by
  unfold listenWaitEnd
  repeat' with_reducible first | refine all_leaf ?_ | (show within _ _ = true; with_unfolding_all exact rfl) | (show Act.among _ _; with_unfolding_all exact tb rfl) | refine movePort_kinds (K := _) ?_ _ _ ?_ | refine (startAttempt_kinds ..).mono ?_ | exact all_skip_i | refine all_cons ?_ ?_ | exact all_nil | refine all_seq_i ?_ ?_ | refine all_read_i fun _ => ?_ | refine all_when_i ?_ | refine all_each_i fun _ => ?_ | refine all_ifSome_i fun _ => ?_ | intro _ | split | dsimp only | contradiction

theorem anFail_kinds (p : Nat) : Prog.All (Act.among 0x220084300003CA381800000409250000000000000000000000000C0000000000000000004040000000000000000000000003400037D0) (anFail p) := by
  unfold anFail
  repeat' with_reducible first | refine all_leaf ?_ | (show within _ _ = true; with_unfolding_all exact rfl) | (show Act.among _ _; with_unfolding_all exact tb rfl) | refine raise_kinds _ _ (by exact tb rfl) ?_ | refine satAdd_kinds _ _ ?_ | refine (toListen_kinds ..).mono ?_ | (show Nat.testBit _ _ = true; exact tb rfl) | (show lies _ _; (try dsimp only [F.PORT_STATE_fail_count]); first | refine lies_PORT_STATE ?_ | refine lies_PORT_EVENT ?_ | split) | exact all_skip_i | refine all_cons ?_ ?_ | exact all_nil | refine all_seq_i ?_ ?_ | refine all_read_i fun _ => ?_ | refine all_when_i ?_ | refine all_each_i fun _ => ?_ | refine all_ifSome_i fun _ => ?_ | split | dsimp only | contradiction

theorem resolve_kinds (p : Nat) (seedMaster : Bool) : Prog.All (Act.among 0x220084780003CA381800000409250000000000000000000000000C0000000000000000004040000000000000000000000003400037D0) (resolve p seedMaster) := by
  unfold resolve
  repeat' with_reducible first | refine all_leaf ?_ | (show within _ _ = true; with_unfolding_all exact rfl) | (show Act.among _ _; with_unfolding_all exact tb rfl) | refine (anFail_kinds ..).mono ?_ | refine (enterTrain_kinds ..).mono ?_ | refine movePort_kinds (K := _) ?_ _ _ ?_ | refine raise_kinds _ _ (by exact tb rfl) ?_ | (show Nat.testBit _ _ = true; exact tb rfl) | (show lies _ _; (try dsimp only [F.PORT_MODE_CFG_role, F.PORT_PARTNER_ABIL_modes, F.PORT_PARTNER_ABIL_role_adv, F.PORT_PARTNER_ABIL_vendor_page, F.PORT_X50_STAT_p_x50]); first | refine lies_PORT_EVENT ?_ | refine lies_PORT_TRK_EVENT ?_ | split) | exact all_skip_i | refine all_cons ?_ ?_ | exact all_nil | refine all_seq_i ?_ ?_ | refine all_read_i fun _ => ?_ | refine all_when_i ?_ | refine all_each_i fun _ => ?_ | refine all_ifSome_i fun _ => ?_ | intro _ | split | dsimp only | contradiction

theorem anBase_kinds (p modes role : Nat) (eee : Bool) : Prog.All (Act.among 0x1800000000000000000000000000000000000000000000000000000000000000000000000000000000000000000040) (anBase p modes role eee) := by
  unfold anBase
  repeat' with_reducible first | refine all_leaf ?_ | (show within _ _ = true; with_unfolding_all exact rfl) | (show Act.among _ _; with_unfolding_all exact tb rfl) | refine setF_kinds _ _ ?_ | refine setReg_kinds _ _ ?_ | refine (updPort_kinds ..).mono ?_ | (show Nat.testBit _ _ = true; exact tb rfl) | (show lies _ _; (try dsimp only [F.PORT_PARTNER_FLAGS_valid]); first | refine lies_PORT_PARTNER_ABIL ?_ | refine lies_PORT_PARTNER_FLAGS ?_ | split) | exact all_skip_i | refine all_cons ?_ ?_ | exact all_nil | refine all_seq_i ?_ ?_ | refine all_read_i fun _ => ?_ | refine all_when_i ?_ | refine all_each_i fun _ => ?_ | refine all_ifSome_i fun _ => ?_ | split | dsimp only | contradiction

theorem anX50_kinds (p w : Nat) : Prog.All (Act.among 0x100000000800000000000000000000000000000000000000000000000000000000000000000000000000000000000000000000) (anX50 p w) := by
  unfold anX50
  repeat' with_reducible first | refine all_leaf ?_ | (show within _ _ = true; with_unfolding_all exact rfl) | (show Act.among _ _; with_unfolding_all exact tb rfl) | refine setF_kinds _ _ ?_ | refine setFBit_kinds _ _ _ ?_ | (show Nat.testBit _ _ = true; exact tb rfl) | (show lies _ _; (try dsimp only [F.PORT_PARTNER_ABIL_modes, F.PORT_X50_STAT_p_fast_exit, F.PORT_X50_STAT_p_quick_refresh, F.PORT_X50_STAT_p_reach_15, F.PORT_X50_STAT_p_tap_train, F.PORT_X50_STAT_p_x50]); first | refine lies_PORT_PARTNER_ABIL ?_ | refine lies_PORT_X50_STAT ?_ | split) | exact all_skip_i | refine all_cons ?_ ?_ | exact all_nil | refine all_seq_i ?_ ?_ | refine all_read_i fun _ => ?_ | refine all_when_i ?_ | refine all_each_i fun _ => ?_ | refine all_ifSome_i fun _ => ?_ | split | dsimp only | contradiction

theorem anTimeout_kinds (p : Nat) : Prog.All (Act.among 0x220084300003CA381800000409250000000000000000000000000C0000000000000000004040000000000000000000000003400037D0) (anTimeout p) := by
  unfold anTimeout
  repeat' with_reducible first | refine all_leaf ?_ | (show within _ _ = true; with_unfolding_all exact rfl) | (show Act.among _ _; with_unfolding_all exact tb rfl) | refine (anFail_kinds ..).mono ?_ | exact all_skip_i | refine all_cons ?_ ?_ | exact all_nil | refine all_seq_i ?_ ?_ | refine all_read_i fun _ => ?_ | refine all_when_i ?_ | refine all_each_i fun _ => ?_ | refine all_ifSome_i fun _ => ?_ | split | dsimp only | contradiction

theorem trainFail_kinds (p : Nat) : Prog.All (Act.among 0x220084300003CA381800000409250000000000000000000000000C0000000000000000004040000000000000000000000003400037D0) (trainFail p) := by
  unfold trainFail
  repeat' with_reducible first | refine all_leaf ?_ | (show within _ _ = true; with_unfolding_all exact rfl) | (show Act.among _ _; with_unfolding_all exact tb rfl) | refine raise_kinds _ _ (by exact tb rfl) ?_ | refine satAdd_kinds _ _ ?_ | refine setF_kinds _ _ ?_ | refine (toListen_kinds ..).mono ?_ | refine (updPort_kinds ..).mono ?_ | (show Nat.testBit _ _ = true; exact tb rfl) | (show lies _ _; (try dsimp only [F.PORT_ADV_modes, F.PORT_MODE_CFG_an_en, F.PORT_STATE_excluded, F.PORT_STATE_fail_count, F.PORT_TIMERS2_train_fail_limit]); first | refine lies_PORT_STATE ?_ | refine lies_PORT_EVENT ?_ | split) | exact all_skip_i | refine all_cons ?_ ?_ | exact all_nil | refine all_seq_i ?_ ?_ | refine all_read_i fun _ => ?_ | refine all_when_i ?_ | refine all_each_i fun _ => ?_ | refine all_ifSome_i fun _ => ?_ | split | dsimp only | contradiction

theorem trainTimeout_kinds (p : Nat) : Prog.All (Act.among 0x220084300003CA381800000409250000000000000000000000000C0000000000000000004040000000000000000000000003400037D0) (trainTimeout p) := by
  unfold trainTimeout
  repeat' with_reducible first | refine all_leaf ?_ | (show within _ _ = true; with_unfolding_all exact rfl) | (show Act.among _ _; with_unfolding_all exact tb rfl) | refine (trainFail_kinds ..).mono ?_ | exact all_skip_i | refine all_cons ?_ ?_ | exact all_nil | refine all_seq_i ?_ ?_ | refine all_read_i fun _ => ?_ | refine all_when_i ?_ | refine all_each_i fun _ => ?_ | refine all_ifSome_i fun _ => ?_ | split | dsimp only | contradiction

theorem partnerRestart_kinds (p : Nat) : Prog.All (Act.among 0x220084300003CA381800000409250000000000000000000000000C0000000000000000004040000000000000000000000003400037D0) (partnerRestart p) := by
  unfold partnerRestart
  repeat' with_reducible first | refine all_leaf ?_ | (show within _ _ = true; with_unfolding_all exact rfl) | (show Act.among _ _; with_unfolding_all exact tb rfl) | refine (anFail_kinds ..).mono ?_ | refine (trainFail_kinds ..).mono ?_ | exact all_skip_i | refine all_cons ?_ ?_ | exact all_nil | refine all_seq_i ?_ ?_ | refine all_read_i fun _ => ?_ | refine all_when_i ?_ | refine all_each_i fun _ => ?_ | refine all_ifSome_i fun _ => ?_ | split | dsimp only | contradiction

theorem trainStoredTimeout_kinds (p : Nat) : Prog.All (Act.among 0x40) (trainStoredTimeout p) := by
  unfold trainStoredTimeout
  repeat' with_reducible first | refine all_leaf ?_ | (show within _ _ = true; with_unfolding_all exact rfl) | (show Act.among _ _; with_unfolding_all exact tb rfl) | refine (tapQueue_kinds ..).mono ?_ | refine (updPort_kinds ..).mono ?_ | exact all_skip_i | refine all_cons ?_ ?_ | exact all_nil | refine all_seq_i ?_ ?_ | refine all_read_i fun _ => ?_ | refine all_when_i ?_ | refine all_each_i fun _ => ?_ | refine all_ifSome_i fun _ => ?_ | split | dsimp only | contradiction

theorem setQuality_kinds (p margin : Nat) : Prog.All (Act.among 0x2020000000000000000000000000000000000000000000000000000000000000000000000000000000000000000000050) (setQuality p margin) := by
  unfold setQuality
  repeat' with_reducible first | refine all_leaf ?_ | (show within _ _ = true; with_unfolding_all exact rfl) | (show Act.among _ _; with_unfolding_all exact tb rfl) | refine raise_kinds _ _ (by exact tb rfl) ?_ | refine setF_kinds _ _ ?_ | refine (updPort_kinds ..).mono ?_ | (show Nat.testBit _ _ = true; exact tb rfl) | (show lies _ _; (try dsimp only [F.PORT_LINK_QUAL_mse_margin, F.PORT_LINK_QUAL_sqi, F.PORT_LINK_QUAL_sqi_min, F.PORT_QUAL_CFG_sqi_warn]); first | refine lies_PORT_LINK_QUAL ?_ | refine lies_PORT_EVENT ?_ | split) | exact all_skip_i | refine all_cons ?_ ?_ | exact all_nil | refine all_seq_i ?_ ?_ | refine all_read_i fun _ => ?_ | refine all_when_i ?_ | refine all_each_i fun _ => ?_ | refine all_ifSome_i fun _ => ?_ | split | dsimp only | contradiction

theorem trainComplete_kinds (p margin : Nat) (d : TrainData) : Prog.All (Act.among 0x2000060000203D0100000000F250000000000000000000380009C34000000000000000000000000000000000000000000034200E3D0) (trainComplete p margin d) := by
  unfold trainComplete
  repeat' with_reducible first | refine all_leaf ?_ | (show within _ _ = true; with_unfolding_all exact rfl) | (show Act.among _ _; with_unfolding_all exact tb rfl) | refine (caneEnteredUp_kinds ..).mono ?_ | refine (comparePartner_kinds ..).mono ?_ | refine (ilWrite_kinds ..).mono ?_ | refine profileDone_kinds (K := _) ?_ _ _ _ _ _ _ _ _ _ ?_ | refine raise_kinds _ _ (by exact tb rfl) ?_ | refine (refreshNear_kinds ..).mono ?_ | refine setF_kinds _ _ ?_ | refine (setQuality_kinds ..).mono ?_ | refine (tapQueue_kinds ..).mono ?_ | refine (trainSets_kinds ..).mono ?_ | refine (updFur_kinds ..).mono ?_ | refine (updPort_kinds ..).mono ?_ | refine (writeRecord_kinds ..).mono ?_ | (show Nat.testBit _ _ = true; exact tb rfl) | (show lies _ _; (try dsimp only [F.PORT_AM_STAT_am_lock, F.PORT_LPI_STAT_partner_eee, F.PORT_LPI_STAT_quick, F.PORT_PARTNER_FLAGS_fp_match, F.PORT_QUAL_CFG_sqi_drop, F.PORT_STATE_fail_count, F.PORT_STATE_state, F.PORT_X50_STAT_p_quick_refresh]); first | refine lies_PORT_STATE ?_ | refine lies_PORT_PARTNER_FLAGS ?_ | refine lies_PORT_EVENT ?_ | refine lies_PORT_TRK_EVENT ?_ | refine lies_PORT_LPI_STAT ?_ | split) | exact all_skip_i | refine all_cons ?_ ?_ | exact all_nil | refine all_seq_i ?_ ?_ | refine all_read_i fun _ => ?_ | refine all_when_i ?_ | refine all_each_i fun _ => ?_ | refine all_ifSome_i fun _ => ?_ | intro _ | split | dsimp only | contradiction

theorem linkQualInterval_kinds (p margin corr uncorr : Nat) : Prog.All (Act.among 0x2320000000000000000000000000000000000000000000000000000000000000000000000000000000000000000000050) (linkQualInterval p margin corr uncorr) := by
  unfold linkQualInterval
  repeat' with_reducible first | refine all_leaf ?_ | (show within _ _ = true; with_unfolding_all exact rfl) | (show Act.among _ _; with_unfolding_all exact tb rfl) | refine addWide_kinds _ _ _ ?_ | refine (setQuality_kinds ..).mono ?_ | refine (updPort_kinds ..).mono ?_ | refine lies_PORT_FEC_CORR_words ?_ (by decide) | refine lies_PORT_FEC_UNCORR_words ?_ (by decide) | (show Nat.testBit _ _ = true; exact tb rfl) | (show lies _ _; first | refine lies_PORT_FEC_CORR ?_ | refine lies_PORT_FEC_CORR_at ?_ (by decide) (by decide) | refine lies_PORT_FEC_UNCORR ?_ | refine lies_PORT_FEC_UNCORR_at ?_ (by decide) (by decide) | split) | exact all_skip_i | refine all_cons ?_ ?_ | exact all_nil | refine all_seq_i ?_ ?_ | refine all_read_i fun _ => ?_ | refine all_when_i ?_ | refine all_each_i fun _ => ?_ | refine all_ifSome_i fun _ => ?_ | split | dsimp only | contradiction

theorem blockLock_kinds (p uncLast : Nat) : Prog.All (Act.among 0x220084300003CA381800000409250000000000000000000000000C0000000000000000004040000000000000000000000003400037D0) (blockLock p uncLast) := by
  unfold blockLock
  repeat' with_reducible first | refine all_leaf ?_ | (show within _ _ = true; with_unfolding_all exact rfl) | (show Act.among _ _; with_unfolding_all exact tb rfl) | refine (portDrop_kinds ..).mono ?_ | exact all_skip_i | refine all_cons ?_ ?_ | exact all_nil | refine all_seq_i ?_ ?_ | refine all_read_i fun _ => ?_ | refine all_when_i ?_ | refine all_each_i fun _ => ?_ | refine all_ifSome_i fun _ => ?_ | split | dsimp only | contradiction

theorem fecBurst_kinds (p n : Nat) : Prog.All (Act.among 0x220084300003CA381800000409250000000000000000000000000C0000000000000000004040000000000000000000000003400037D0) (fecBurst p n) := by
  unfold fecBurst
  repeat' with_reducible first | refine all_leaf ?_ | (show within _ _ = true; with_unfolding_all exact rfl) | (show Act.among _ _; with_unfolding_all exact tb rfl) | refine (portDrop_kinds ..).mono ?_ | exact all_skip_i | refine all_cons ?_ ?_ | exact all_nil | refine all_seq_i ?_ ?_ | refine all_read_i fun _ => ?_ | refine all_when_i ?_ | refine all_each_i fun _ => ?_ | refine all_ifSome_i fun _ => ?_ | split | dsimp only | contradiction

theorem sqiLow_kinds (p uncLast : Nat) : Prog.All (Act.among 0x220084300003CA381800000409250000000000000000000000000C0000000000000000004040000000000000000000000003400037D0) (sqiLow p uncLast) := by
  unfold sqiLow
  repeat' with_reducible first | refine all_leaf ?_ | (show within _ _ = true; with_unfolding_all exact rfl) | (show Act.among _ _; with_unfolding_all exact tb rfl) | refine (portDrop_kinds ..).mono ?_ | exact all_skip_i | refine all_cons ?_ ?_ | exact all_nil | refine all_seq_i ?_ ?_ | refine all_read_i fun _ => ?_ | refine all_when_i ?_ | refine all_each_i fun _ => ?_ | refine all_ifSome_i fun _ => ?_ | split | dsimp only | contradiction

theorem partnerDown_kinds (p uncLast : Nat) : Prog.All (Act.among 0x220084300003CA381800000409250000000000000000000000000C0000000000000000004040000000000000000000000003400037D0) (partnerDown p uncLast) := by
  unfold partnerDown
  repeat' with_reducible first | refine all_leaf ?_ | (show within _ _ = true; with_unfolding_all exact rfl) | (show Act.among _ _; with_unfolding_all exact tb rfl) | refine (portDrop_kinds ..).mono ?_ | exact all_skip_i | refine all_cons ?_ ?_ | exact all_nil | refine all_seq_i ?_ ?_ | refine all_read_i fun _ => ?_ | refine all_when_i ?_ | refine all_each_i fun _ => ?_ | refine all_ifSome_i fun _ => ?_ | split | dsimp only | contradiction

theorem counterClear_kinds (p : Nat) : Prog.All (Act.among 0xE00003FF0000000000000000000000000000000000000000000000000000000000000000000000000000000000000000000000000) (counterClear p) := by
  unfold counterClear
  repeat' with_reducible first | refine all_leaf ?_ | (show within _ _ = true; with_unfolding_all exact rfl) | (show Act.among _ _; with_unfolding_all exact tb rfl) | refine (clearCounters_kinds ..).mono ?_ | exact all_skip_i | refine all_cons ?_ ?_ | exact all_nil | refine all_seq_i ?_ ?_ | refine all_read_i fun _ => ?_ | refine all_when_i ?_ | refine all_each_i fun _ => ?_ | refine all_ifSome_i fun _ => ?_ | split | dsimp only | contradiction

theorem modeCommitted_kinds (p : Nat) : Prog.All (Act.among 0x220084380003CA381800000409250000000000000000000000000C0000000000000000004040000000000000000000000003400037D0) (modeCommitted p) := by
  unfold modeCommitted
  repeat' with_reducible first | refine all_leaf ?_ | (show within _ _ = true; with_unfolding_all exact rfl) | (show Act.among _ _; with_unfolding_all exact tb rfl) | refine (caneModeCommit_kinds ..).mono ?_ | refine (clearPartner_kinds ..).mono ?_ | refine movePort_kinds (K := _) ?_ _ _ ?_ | refine (noMode_kinds ..).mono ?_ | refine (qualIdle_kinds ..).mono ?_ | refine raise_kinds _ _ (by exact tb rfl) ?_ | refine setF_kinds _ _ ?_ | refine (setMode_kinds ..).mono ?_ | refine (startAttempt_kinds ..).mono ?_ | refine (toListen_kinds ..).mono ?_ | refine (updPort_kinds ..).mono ?_ | (show Nat.testBit _ _ = true; exact tb rfl) | (show lies _ _; (try dsimp only [F.PORT_STATE_state]); first | refine lies_PORT_STATE ?_ | refine lies_PORT_EVENT ?_ | split) | exact all_skip_i | refine all_cons ?_ ?_ | exact all_nil | refine all_seq_i ?_ ?_ | refine all_read_i fun _ => ?_ | refine all_when_i ?_ | refine all_each_i fun _ => ?_ | refine all_ifSome_i fun _ => ?_ | intro _ | split | dsimp only | contradiction

theorem orphanEnter_kinds (p : Nat) : Prog.All (Act.among 0x220084300003CBF81800000409250000000000000000000000000C0000000000000000004040000000000000000000000003420037D0) (orphanEnter p) := by
  unfold orphanEnter
  repeat' with_reducible first | refine all_leaf ?_ | (show within _ _ = true; with_unfolding_all exact rfl) | (show Act.among _ _; with_unfolding_all exact tb rfl) | refine raise_kinds _ _ (by exact tb rfl) ?_ | refine setF_kinds _ _ ?_ | refine (startHandshake_kinds ..).mono ?_ | refine (toSleep_kinds ..).mono ?_ | refine (updPort_kinds ..).mono ?_ | (show Nat.testBit _ _ = true; exact tb rfl) | (show lies _ _; (try dsimp only [F.PORT_STATE_orphan]); first | refine lies_PORT_STATE ?_ | refine lies_PORT_EVENT ?_ | split) | exact all_skip_i | refine all_cons ?_ ?_ | exact all_nil | refine all_seq_i ?_ ?_ | refine all_read_i fun _ => ?_ | refine all_when_i ?_ | refine all_each_i fun _ => ?_ | refine all_ifSome_i fun _ => ?_ | split | dsimp only | contradiction

theorem orphanExit_kinds (p : Nat) : Prog.All (Act.among 0x2000010000000000000000000000000000000000000000000000000000000000000000000000000000000000000000050) (orphanExit p) := by
  unfold orphanExit
  repeat' with_reducible first | refine all_leaf ?_ | (show within _ _ = true; with_unfolding_all exact rfl) | (show Act.among _ _; with_unfolding_all exact tb rfl) | refine raise_kinds _ _ (by exact tb rfl) ?_ | refine setF_kinds _ _ ?_ | refine (updPort_kinds ..).mono ?_ | (show Nat.testBit _ _ = true; exact tb rfl) | (show lies _ _; (try dsimp only [F.PORT_STATE_held, F.PORT_STATE_orphan]); first | refine lies_PORT_STATE ?_ | refine lies_PORT_EVENT ?_ | split) | exact all_skip_i | refine all_cons ?_ ?_ | exact all_nil | refine all_seq_i ?_ ?_ | refine all_read_i fun _ => ?_ | refine all_when_i ?_ | refine all_each_i fun _ => ?_ | refine all_ifSome_i fun _ => ?_ | split | dsimp only | contradiction

theorem orphanEdge_kinds : Prog.All (Act.among 0x220084300003CA381800000409250000000000000000000000000C0000000000000000004040000000000000000000000003400037D0) (orphanEdge) := by
  unfold orphanEdge
  repeat' with_reducible first | refine all_leaf ?_ | (show within _ _ = true; with_unfolding_all exact rfl) | (show Act.among _ _; with_unfolding_all exact tb rfl) | refine (toSleep_kinds ..).mono ?_ | exact all_skip_i | refine all_cons ?_ ?_ | exact all_nil | refine all_seq_i ?_ ?_ | refine all_read_i fun _ => ?_ | refine all_when_i ?_ | refine all_each_i fun _ => ?_ | refine all_ifSome_i fun _ => ?_ | split | dsimp only | contradiction

theorem launchSet_kinds (p : Nat) : Prog.All (Act.among 0x100000000) (launchSet p) := by
  unfold launchSet
  repeat' with_reducible first | refine all_leaf ?_ | (show within _ _ = true; with_unfolding_all exact rfl) | (show Act.among _ _; with_unfolding_all exact tb rfl) | refine (send_kinds ..).mono ?_ | exact all_skip_i | refine all_cons ?_ ?_ | exact all_nil | refine all_seq_i ?_ ?_ | refine all_read_i fun _ => ?_ | refine all_when_i ?_ | refine all_each_i fun _ => ?_ | refine all_ifSome_i fun _ => ?_ | split | dsimp only | contradiction

theorem txAmpWrite_kinds (p amp : Nat) (override : Bool) : Prog.All (Act.among 0x2000200000000000000000000000000000000000000000000000000000000000000000000000000000000000140000010) (txAmpWrite p amp override) := by
  unfold txAmpWrite
  repeat' with_reducible first | refine all_leaf ?_ | (show within _ _ = true; with_unfolding_all exact rfl) | (show Act.among _ _; with_unfolding_all exact tb rfl) | refine (governorClamp_kinds ..).mono ?_ | refine (launchSet_kinds ..).mono ?_ | refine raise_kinds _ _ (by exact tb rfl) ?_ | refine setF_kinds _ _ ?_ | (show Nat.testBit _ _ = true; exact tb rfl) | (show lies _ _; (try dsimp only [F.PORT_TX_AMP_amp, F.PORT_TX_AMP_override]); first | refine lies_PORT_TX_AMP ?_ | refine lies_PORT_EVENT ?_ | split) | exact all_skip_i | refine all_cons ?_ ?_ | exact all_nil | refine all_seq_i ?_ ?_ | refine all_read_i fun _ => ?_ | refine all_when_i ?_ | refine all_each_i fun _ => ?_ | refine all_ifSome_i fun _ => ?_ | split | dsimp only | contradiction

theorem sendTraining_kinds (p : Nat) : Prog.All (Act.among 0x300000040) (sendTraining p) := by
  unfold sendTraining
  repeat' with_reducible first | refine all_leaf ?_ | (show within _ _ = true; with_unfolding_all exact rfl) | (show Act.among _ _; with_unfolding_all exact tb rfl) | refine (send_kinds ..).mono ?_ | refine (updPort_kinds ..).mono ?_ | exact all_skip_i | refine all_cons ?_ ?_ | exact all_nil | refine all_seq_i ?_ ?_ | refine all_read_i fun _ => ?_ | refine all_when_i ?_ | refine all_each_i fun _ => ?_ | refine all_ifSome_i fun _ => ?_ | refine withFree_among ?_ fun _ => ?_ | (show Nat.testBit _ _ = true; exact tb rfl) | split | dsimp only | contradiction

theorem trainingFrame_kinds (p body : Nat) : Prog.All (Act.among 0x80000000000000000000000000000000000000000000000000000000000000000000000000000000000000000000000000040) (trainingFrame p body) := by
  unfold trainingFrame
  repeat' with_reducible first | refine all_leaf ?_ | (show within _ _ = true; with_unfolding_all exact rfl) | (show Act.among _ _; with_unfolding_all exact tb rfl) | refine satAdd_kinds _ _ ?_ | refine (tapQueue_kinds ..).mono ?_ | refine (updPort_kinds ..).mono ?_ | (show Nat.testBit _ _ = true; exact tb rfl) | (show lies _ _; (try dsimp only [F.PORT_STATE_role, F.PORT_TAP_CTL_override, F.PORT_TAP_CTL_train_en, F.PORT_TAP_STAT_exchanges, F.PORT_TAP_STAT_limit_hits]); first | refine lies_PORT_TAP_STAT ?_ | split) | exact all_skip_i | refine all_cons ?_ ?_ | exact all_nil | refine all_seq_i ?_ ?_ | refine all_read_i fun _ => ?_ | refine all_when_i ?_ | refine all_each_i fun _ => ?_ | refine all_ifSome_i fun _ => ?_ | split | dsimp only | contradiction

theorem pam6Switch_kinds (p : Nat) : Prog.All (Act.among 0x40) (pam6Switch p) := by
  unfold pam6Switch
  repeat' with_reducible first | refine all_leaf ?_ | (show within _ _ = true; with_unfolding_all exact rfl) | (show Act.among _ _; with_unfolding_all exact tb rfl) | refine (updPort_kinds ..).mono ?_ | exact all_skip_i | refine all_cons ?_ ?_ | exact all_nil | refine all_seq_i ?_ ?_ | refine all_read_i fun _ => ?_ | refine all_when_i ?_ | refine all_each_i fun _ => ?_ | refine all_ifSome_i fun _ => ?_ | split | dsimp only | contradiction

theorem ledgerRequest_kinds {K : Nat} (hK : within 0xA0000000000000000000000000000000000000000000000000000410 K = true) (b : Booking) (noWait : Bool) (granted queued refused : Prog) (h_granted : Prog.All (Act.among K) (granted)) (h_queued : Prog.All (Act.among K) (queued)) (h_refused : Prog.All (Act.among K) (refused)) : Prog.All (Act.among K) (ledgerRequest b noWait granted queued refused) := by
  unfold ledgerRequest
  repeat' with_reducible first | refine all_leaf ?_ | (show Act.among _ _; with_unfolding_all exact testBit_within hK (tb rfl)) | exact within_trans (by with_unfolding_all exact rfl) hK | exact h_granted | exact h_queued | exact h_refused | refine raise_kinds _ _ (by exact testBit_within hK (tb rfl)) ?_ | refine satAdd_kinds _ _ ?_ | refine setF_kinds _ _ ?_ | (show Nat.testBit _ _ = true; exact testBit_within hK (tb rfl)) | (show lies _ _; (try dsimp only [F.DIAG_LEDGER_STAT_full_count, F.DIAG_LEDGER_STAT_last_refusal]); first | refine lies_DIAG_LEDGER_STAT ?_ | refine lies_DIAG_EVENT ?_ | split) | exact all_skip_i | refine all_cons ?_ ?_ | exact all_nil | refine all_seq_i ?_ ?_ | refine all_read_i fun _ => ?_ | refine all_when_i ?_ | refine all_each_i fun _ => ?_ | refine all_ifSome_i fun _ => ?_ | split | dsimp only | contradiction

theorem loopRun_kinds (p : Nat) : Prog.All (Act.among 0x22009C300003CA381800000409250000000000000000000000000C0000000000000000004040000000000000000000000003400037D0) (loopRun p) := by
  unfold loopRun
  repeat' with_reducible first | refine all_leaf ?_ | (show within _ _ = true; with_unfolding_all exact rfl) | (show Act.among _ _; with_unfolding_all exact tb rfl) | refine (caneDrop_kinds ..).mono ?_ | refine loseLane_kinds (K := _) ?_ _ _ _ ?_ | refine (portDropNow_kinds ..).mono ?_ | refine (refreshNear_kinds ..).mono ?_ | refine setF_kinds _ _ ?_ | refine setWide_kinds _ _ _ ?_ | refine (toListen_kinds ..).mono ?_ | refine (updPort_kinds ..).mono ?_ | refine lies_PORT_LOOP_BITS_words ?_ (by decide) | refine lies_PORT_LOOP_ERRS_words ?_ (by decide) | (show Nat.testBit _ _ = true; exact tb rfl) | (show lies _ _; (try dsimp only [F.PORT_LOOP_CTL_kind, F.PORT_LOOP_STAT_result, F.PORT_LOOP_STAT_state]); first | refine lies_PORT_LOOP_STAT ?_ | refine lies_PORT_LOOP_BITS ?_ | refine lies_PORT_LOOP_BITS_at ?_ (by decide) (by decide) | refine lies_PORT_LOOP_ERRS ?_ | refine lies_PORT_LOOP_ERRS_at ?_ (by decide) (by decide) | split) | exact all_skip_i | refine all_cons ?_ ?_ | exact all_nil | refine all_seq_i ?_ ?_ | refine all_read_i fun _ => ?_ | refine all_when_i ?_ | refine all_each_i fun _ => ?_ | refine all_ifSome_i fun _ => ?_ | intro _ | split | dsimp only | contradiction

theorem loopStart_kinds (req p : Nat) : Prog.All (Act.among 0x22009C300003CA38180000040925000000000000000000000000AC0000000000000000004040000000000000000000000003400037D0) (loopStart req p) := by
  unfold loopStart
  repeat' with_reducible first | refine all_leaf ?_ | (show within _ _ = true; with_unfolding_all exact rfl) | (show Act.among _ _; with_unfolding_all exact tb rfl) | refine ledgerRequest_kinds (K := _) ?_ _ _ _ _ _ ?_ ?_ ?_ | refine (loopRun_kinds ..).mono ?_ | refine setF_kinds _ _ ?_ | (show Nat.testBit _ _ = true; exact tb rfl) | (show lies _ _; (try dsimp only [F.PORT_LOOP_CTL_kind, F.PORT_LOOP_CTL_no_wait, F.PORT_LOOP_STAT_result, F.PORT_LOOP_STAT_state]); first | refine lies_PORT_LOOP_STAT ?_ | split) | exact all_skip_i | refine all_cons ?_ ?_ | exact all_nil | refine all_seq_i ?_ ?_ | refine all_read_i fun _ => ?_ | refine all_when_i ?_ | refine all_each_i fun _ => ?_ | refine all_ifSome_i fun _ => ?_ | intro _ | split | dsimp only | contradiction

theorem loopStop_kinds (p : Nat) : Prog.All (Act.among 0x1C000000000000000000002500000000000000000000000000000000000000000000000000000000000000000000000200000750) (loopStop p) := by
  unfold loopStop
  repeat' with_reducible first | refine all_leaf ?_ | (show within _ _ = true; with_unfolding_all exact rfl) | (show Act.among _ _; with_unfolding_all exact tb rfl) | refine (abortLoop_kinds ..).mono ?_ | refine (refreshNear_kinds ..).mono ?_ | exact all_skip_i | refine all_cons ?_ ?_ | exact all_nil | refine all_seq_i ?_ ?_ | refine all_read_i fun _ => ?_ | refine all_when_i ?_ | refine all_each_i fun _ => ?_ | refine all_ifSome_i fun _ => ?_ | split | dsimp only | contradiction

theorem loopDurationExpire_kinds (p bits errs : Nat) : Prog.All (Act.among 0x1C000000000000000000002500000000000000000000000000000000000000000000000000000000000000000000000000000750) (loopDurationExpire p bits errs) := by
  unfold loopDurationExpire
  repeat' with_reducible first | refine all_leaf ?_ | (show within _ _ = true; with_unfolding_all exact rfl) | (show Act.among _ _; with_unfolding_all exact tb rfl) | refine addWide_kinds _ _ _ ?_ | refine (endLoop_kinds ..).mono ?_ | refine (refreshNear_kinds ..).mono ?_ | refine lies_PORT_LOOP_BITS_words ?_ (by decide) | refine lies_PORT_LOOP_ERRS_words ?_ (by decide) | (show Nat.testBit _ _ = true; exact tb rfl) | (show lies _ _; (try dsimp only [F.PORT_LOOP_CTL_source]); first | refine lies_PORT_LOOP_BITS ?_ | refine lies_PORT_LOOP_BITS_at ?_ (by decide) (by decide) | refine lies_PORT_LOOP_ERRS ?_ | refine lies_PORT_LOOP_ERRS_at ?_ (by decide) (by decide) | split) | exact all_skip_i | refine all_cons ?_ ?_ | exact all_nil | refine all_seq_i ?_ ?_ | refine all_read_i fun _ => ?_ | refine all_when_i ?_ | refine all_each_i fun _ => ?_ | refine all_ifSome_i fun _ => ?_ | split | dsimp only | contradiction

theorem potReturnDone_kinds (p : Nat) : Prog.All (Act.among 0x240) (potReturnDone p) := by
  unfold potReturnDone
  repeat' with_reducible first | refine all_leaf ?_ | (show within _ _ = true; with_unfolding_all exact rfl) | (show Act.among _ _; with_unfolding_all exact tb rfl) | refine (updPort_kinds ..).mono ?_ | refine (writeRecord_kinds ..).mono ?_ | exact all_skip_i | refine all_cons ?_ ?_ | exact all_nil | refine all_seq_i ?_ ?_ | refine all_read_i fun _ => ?_ | refine all_when_i ?_ | refine all_each_i fun _ => ?_ | refine all_ifSome_i fun _ => ?_ | split | dsimp only | contradiction

theorem potReclaimDone_kinds (p q : Nat) : Prog.All (Act.among 0x220084300003CA381800000409250000000000000000000000000C0000000000000000004040000000000000000000000003400037D0) (potReclaimDone p q) := by
  unfold potReclaimDone
  repeat' with_reducible first | refine all_leaf ?_ | (show within _ _ = true; with_unfolding_all exact rfl) | (show Act.among _ _; with_unfolding_all exact tb rfl) | refine (tryLeave_kinds ..).mono ?_ | refine (updFur_kinds ..).mono ?_ | refine (updPort_kinds ..).mono ?_ | exact all_skip_i | refine all_cons ?_ ?_ | exact all_nil | refine all_seq_i ?_ ?_ | refine all_read_i fun _ => ?_ | refine all_when_i ?_ | refine all_each_i fun _ => ?_ | refine all_ifSome_i fun _ => ?_ | split | dsimp only | contradiction

theorem ownerLost_kinds (o : Nat) : Prog.All (Act.among 0x220084300003CA381800000409250000000000000000000000000C0000000000000000004040000000000000000000000003400037D0) (ownerLost o) := by
  unfold ownerLost
  repeat' with_reducible first | refine all_leaf ?_ | (show within _ _ = true; with_unfolding_all exact rfl) | (show Act.among _ _; with_unfolding_all exact tb rfl) | refine (clearRecord_kinds ..).mono ?_ | refine (portDropNow_kinds ..).mono ?_ | refine (portRestart_kinds ..).mono ?_ | refine (refreshBundle_kinds ..).mono ?_ | refine (updBnd_kinds ..).mono ?_ | refine (updPort_kinds ..).mono ?_ | exact all_skip_i | refine all_cons ?_ ?_ | exact all_nil | refine all_seq_i ?_ ?_ | refine all_read_i fun _ => ?_ | refine all_when_i ?_ | refine all_each_i fun _ => ?_ | refine all_ifSome_i fun _ => ?_ | split | dsimp only | contradiction

theorem eccCorr_kinds (n syndrome addr : Nat) : Prog.All (Act.among 0x2000000000000000000000000000000000000000000040000000) (eccCorr n syndrome addr) := by
  unfold eccCorr
  repeat' with_reducible first | refine all_leaf ?_ | (show within _ _ = true; with_unfolding_all exact rfl) | (show Act.among _ _; with_unfolding_all exact tb rfl) | refine (emit_kinds ..).mono ?_ | refine satAdd_kinds _ _ ?_ | (show Nat.testBit _ _ = true; exact tb rfl) | (show lies _ _; (try dsimp only [F.POT_ECC_corr]); first | refine lies_POT_ECC ?_ | split) | exact all_skip_i | refine all_cons ?_ ?_ | exact all_nil | refine all_seq_i ?_ ?_ | refine all_read_i fun _ => ?_ | refine all_when_i ?_ | refine all_each_i fun _ => ?_ | refine all_ifSome_i fun _ => ?_ | split | dsimp only | contradiction

theorem eccUncorr_kinds (n syndrome : Nat) : Prog.All (Act.among 0x220084300003CA381800000409250000000000000000000000000C00304E0000000000004040000000000000000000000003400037D0) (eccUncorr n syndrome) := by
  unfold eccUncorr
  repeat' with_reducible first | refine all_leaf ?_ | (show within _ _ = true; with_unfolding_all exact rfl) | (show Act.among _ _; with_unfolding_all exact tb rfl) | refine (emit_kinds ..).mono ?_ | refine (ownerLost_kinds ..).mono ?_ | refine raise_kinds _ _ (by exact tb rfl) ?_ | refine satAdd_kinds _ _ ?_ | refine setF_kinds _ _ ?_ | refine setFBit_kinds _ _ _ ?_ | (show Nat.testBit _ _ = true; exact tb rfl) | (show lies _ _; (try dsimp only [F.FUR_QTR_DEAD_dead, F.FUR_QTR_SPARE_mapped, F.FUR_QTR_SPARE_pot, F.FUR_QTR_STAT_spare, F.POT_ECC_uncorr, F.POT_STAT_dead, F.POT_STAT_spare]); first | refine lies_FUR_QTR_STAT ?_ | refine lies_FUR_QTR_SPARE ?_ | refine lies_FUR_QTR_DEAD ?_ | refine lies_FUR_EVENT ?_ | refine lies_POT_STAT ?_ | refine lies_POT_ECC ?_ | split) | exact all_skip_i | refine all_cons ?_ ?_ | exact all_nil | refine all_seq_i ?_ ?_ | refine all_read_i fun _ => ?_ | refine all_when_i ?_ | refine all_each_i fun _ => ?_ | refine all_ifSome_i fun _ => ?_ | split | dsimp only | contradiction

theorem selftestRun_kinds (q : Nat) : Prog.All (Act.among 0x20000000000000000000000000000000000000000000000200) (selftestRun q) := by
  unfold selftestRun
  repeat' with_reducible first | refine all_leaf ?_ | (show within _ _ = true; with_unfolding_all exact rfl) | (show Act.among _ _; with_unfolding_all exact tb rfl) | refine setFBit_kinds _ _ _ ?_ | refine (updFur_kinds ..).mono ?_ | (show Nat.testBit _ _ = true; exact tb rfl) | (show lies _ _; (try dsimp only [F.FUR_SELFTEST_busy, F.FUR_SELFTEST_refused]); first | refine lies_FUR_SELFTEST ?_ | split) | exact all_skip_i | refine all_cons ?_ ?_ | exact all_nil | refine all_seq_i ?_ ?_ | refine all_read_i fun _ => ?_ | refine all_when_i ?_ | refine all_each_i fun _ => ?_ | refine all_ifSome_i fun _ => ?_ | split | dsimp only | contradiction

theorem potSelftestStart_kinds (req mask : Nat) : Prog.All (Act.among 0xA0000020000000000000000000000000000000000000000000000610) (potSelftestStart req mask) := by
  unfold potSelftestStart
  repeat' with_reducible first | refine all_leaf ?_ | (show within _ _ = true; with_unfolding_all exact rfl) | (show Act.among _ _; with_unfolding_all exact tb rfl) | refine ledgerRequest_kinds (K := _) ?_ _ _ _ _ _ ?_ ?_ ?_ | refine (selftestRun_kinds ..).mono ?_ | refine setFBit_kinds _ _ _ ?_ | (show Nat.testBit _ _ = true; exact tb rfl) | (show lies _ _; (try dsimp only [F.FUR_SELFTEST_refused]); first | refine lies_FUR_SELFTEST ?_ | split) | exact all_skip_i | refine all_cons ?_ ?_ | exact all_nil | refine all_seq_i ?_ ?_ | refine all_read_i fun _ => ?_ | refine all_when_i ?_ | refine all_each_i fun _ => ?_ | refine all_ifSome_i fun _ => ?_ | intro _ | split | dsimp only | contradiction

theorem selftestMarks_kinds (q failed : Nat) (spareFailed : Bool) : Prog.All (Act.among 0x104E000000000000000000000000000000000000000040000010) (selftestMarks q failed spareFailed) := by
  unfold selftestMarks
  repeat' with_reducible first | refine all_leaf ?_ | (show within _ _ = true; with_unfolding_all exact rfl) | (show Act.among _ _; with_unfolding_all exact tb rfl) | refine (emit_kinds ..).mono ?_ | refine raise_kinds _ _ (by exact tb rfl) ?_ | refine setF_kinds _ _ ?_ | refine setFBit_kinds _ _ _ ?_ | (show Nat.testBit _ _ = true; exact tb rfl) | (show lies _ _; (try dsimp only [F.FUR_QTR_DEAD_dead, F.FUR_QTR_SPARE_mapped, F.FUR_QTR_SPARE_pot, F.FUR_QTR_STAT_spare, F.POT_STAT_dead, F.POT_STAT_spare]); first | refine lies_FUR_QTR_STAT ?_ | refine lies_FUR_QTR_SPARE ?_ | refine lies_FUR_QTR_DEAD ?_ | refine lies_FUR_EVENT ?_ | refine lies_POT_STAT ?_ | split) | exact all_skip_i | refine all_cons ?_ ?_ | exact all_nil | refine all_seq_i ?_ ?_ | refine all_read_i fun _ => ?_ | refine all_when_i ?_ | refine all_each_i fun _ => ?_ | refine all_ifSome_i fun _ => ?_ | split | dsimp only | contradiction

theorem potSelftestDone_kinds (q failed : Nat) (spareFailed : Bool) : Prog.All (Act.among 0x250000000000000000000000000000106E000000000000000000000000000000000000000040000750) (potSelftestDone q failed spareFailed) := by
  unfold potSelftestDone
  repeat' with_reducible first | refine all_leaf ?_ | (show within _ _ = true; with_unfolding_all exact rfl) | (show Act.among _ _; with_unfolding_all exact tb rfl) | refine (clearQuarter_kinds ..).mono ?_ | refine raise_kinds _ _ (by exact tb rfl) ?_ | refine refreshBundles_kinds.mono ?_ | refine (selftestMarks_kinds ..).mono ?_ | refine setFBit_kinds _ _ _ ?_ | refine (updFur_kinds ..).mono ?_ | refine (updPort_kinds ..).mono ?_ | (show Nat.testBit _ _ = true; exact tb rfl) | (show lies _ _; (try dsimp only [F.FUR_QTR_DEAD_dead, F.FUR_QTR_STAT_spare, F.FUR_SELFTEST_busy, F.FUR_SELFTEST_failed]); first | refine lies_FUR_SELFTEST ?_ | refine lies_FUR_EVENT ?_ | split) | exact all_skip_i | refine all_cons ?_ ?_ | exact all_nil | refine all_seq_i ?_ ?_ | refine all_read_i fun _ => ?_ | refine all_when_i ?_ | refine all_each_i fun _ => ?_ | refine all_ifSome_i fun _ => ?_ | split | dsimp only | contradiction

theorem cancellerActive_kinds (b i depth : Nat) : Prog.All (Act.among 0x2500000000000000000000000000000000000000000000000000000000000000000000000000000310) (cancellerActive b i depth) := by
  unfold cancellerActive
  repeat' with_reducible first | refine all_leaf ?_ | (show within _ _ = true; with_unfolding_all exact rfl) | (show Act.among _ _; with_unfolding_all exact tb rfl) | refine raise_kinds _ _ (by exact tb rfl) ?_ | refine (refreshBundle_kinds ..).mono ?_ | refine (updBnd_kinds ..).mono ?_ | (show Nat.testBit _ _ = true; exact tb rfl) | (show lies _ _; (try dsimp only [F.BND_PAIR_CFG_kind, F.BND_STAT_mode]); first | refine lies_BND_EVENT ?_ | split) | exact all_skip_i | refine all_cons ?_ ?_ | exact all_nil | refine all_seq_i ?_ ?_ | refine all_read_i fun _ => ?_ | refine all_when_i ?_ | refine all_each_i fun _ => ?_ | refine all_ifSome_i fun _ => ?_ | split | dsimp only | contradiction

theorem cancellerDepth_kinds (b i depth : Nat) : Prog.All (Act.among 0x2500000000000000000000000000000000000000000000000000000000000000000000000000000310) (cancellerDepth b i depth) := by
  unfold cancellerDepth
  repeat' with_reducible first | refine all_leaf ?_ | (show within _ _ = true; with_unfolding_all exact rfl) | (show Act.among _ _; with_unfolding_all exact tb rfl) | refine (bundleEdge_kinds ..).mono ?_ | refine (cancellerActive_kinds ..).mono ?_ | refine setF_kinds _ _ ?_ | refine (updBnd_kinds ..).mono ?_ | (show Nat.testBit _ _ = true; exact tb rfl) | (show lies _ _; (try dsimp only [F.BND_PAIR_STAT_depth, F.BND_PAIR_STAT_state]); first | refine lies_BND_PAIR_STAT ?_ | split) | exact all_skip_i | refine all_cons ?_ ?_ | exact all_nil | refine all_seq_i ?_ ?_ | refine all_read_i fun _ => ?_ | refine all_when_i ?_ | refine all_each_i fun _ => ?_ | refine all_ifSome_i fun _ => ?_ | split | dsimp only | contradiction

theorem convergenceMax_kinds (b i : Nat) : Prog.All (Act.among 0x2500000000000000000000000000000000000000000000000000000000000000000000000000000310) (convergenceMax b i) := by
  unfold convergenceMax
  repeat' with_reducible first | refine all_leaf ?_ | (show within _ _ = true; with_unfolding_all exact rfl) | (show Act.among _ _; with_unfolding_all exact tb rfl) | refine (bundleEdge_kinds ..).mono ?_ | refine (cancellerActive_kinds ..).mono ?_ | exact all_skip_i | refine all_cons ?_ ?_ | exact all_nil | refine all_seq_i ?_ ?_ | refine all_read_i fun _ => ?_ | refine all_when_i ?_ | refine all_each_i fun _ => ?_ | refine all_ifSome_i fun _ => ?_ | split | dsimp only | contradiction

theorem bundleRestart_kinds (b : Nat) : Prog.All (Act.among 0x2500000000000000000000000000000000000000000000000000000000000000000000000000000310) (bundleRestart b) := by
  unfold bundleRestart
  repeat' with_reducible first | refine all_leaf ?_ | (show within _ _ = true; with_unfolding_all exact rfl) | (show Act.among _ _; with_unfolding_all exact tb rfl) | refine (bundleEdge_kinds ..).mono ?_ | refine (clearRecord_kinds ..).mono ?_ | refine (refreshBundle_kinds ..).mono ?_ | refine (updBnd_kinds ..).mono ?_ | exact all_skip_i | refine all_cons ?_ ?_ | exact all_nil | refine all_seq_i ?_ ?_ | refine all_read_i fun _ => ?_ | refine all_when_i ?_ | refine all_each_i fun _ => ?_ | refine all_ifSome_i fun _ => ?_ | split | dsimp only | contradiction

theorem derivePort_kinds (p : Nat) : Prog.All (Act.among 0x60000000000268000000000000000000000000000000000000000000000000000000000000000000000000000000000100000002) (derivePort p) := by
  unfold derivePort
  repeat' with_reducible first | refine all_leaf ?_ | (show within _ _ = true; with_unfolding_all exact rfl) | (show Act.among _ _; with_unfolding_all exact tb rfl) | refine (launchSet_kinds ..).mono ?_ | refine loadF_kinds _ _ (by exact tb rfl) ?_ | refine (loadModes_kinds ..).mono ?_ | (show Nat.testBit _ _ = true; exact tb rfl) | (show lies _ _; (try dsimp only [F.PORT_CTL_admin, F.PORT_MODE_CFG_an_en, F.PORT_MODE_CFG_ramp_mode, F.PORT_MODE_CFG_role, F.PORT_MODE_CFG_top_mode, F.PORT_SEG_CFG_coordinator, F.PORT_SEG_CFG_node_count, F.PORT_SEG_CFG_node_id, F.PORT_SEG_CFG_plca_en, F.PORT_SEG_CFG_term, F.PORT_SEG_TIMING_max_burst, F.PORT_SEG_TIMING_to_timer, F.PORT_TX_AMP_amp, F.PORT_TX_AMP_amp_default]); first | refine lies_PORT_CTL ?_ | refine lies_PORT_MODE_CFG ?_ | refine lies_PORT_TX_AMP ?_ | refine lies_PORT_SEG_CFG ?_ | refine lies_PORT_SEG_TIMING ?_ | split) | exact all_skip_i | refine all_cons ?_ ?_ | exact all_nil | refine all_seq_i ?_ ?_ | refine all_read_i fun _ => ?_ | refine all_when_i ?_ | refine all_each_i fun _ => ?_ | refine all_ifSome_i fun _ => ?_ | split | dsimp only | contradiction

theorem deriveCane_kinds (k : Nat) : Prog.All (Act.among 0x4000000000000000000000000000000000000000000000000000000000000000000000000000000000) (deriveCane k) := by
  unfold deriveCane
  repeat' with_reducible first | refine all_leaf ?_ | (show within _ _ = true; with_unfolding_all exact rfl) | (show Act.among _ _; with_unfolding_all exact tb rfl) | refine setF_kinds _ _ ?_ | (show Nat.testBit _ _ = true; exact tb rfl) | (show lies _ _; (try dsimp only [F.CANE_CFG_members, F.CANE_CFG_policy, F.CANE_CFG_valid]); first | refine lies_CANE_CFG ?_ | split) | exact all_skip_i | refine all_cons ?_ ?_ | exact all_nil | refine all_seq_i ?_ ?_ | refine all_read_i fun _ => ?_ | refine all_when_i ?_ | refine all_each_i fun _ => ?_ | refine all_ifSome_i fun _ => ?_ | split | dsimp only | contradiction

theorem derivePair_kinds (b i : Nat) : Prog.All (Act.among 0x2000000000000000000000000000000000000000000000000000000000000000000000000000000000) (derivePair b i) := by
  unfold derivePair
  repeat' with_reducible first | refine all_leaf ?_ | (show within _ _ = true; with_unfolding_all exact rfl) | (show Act.among _ _; with_unfolding_all exact tb rfl) | refine setF_kinds _ _ ?_ | (show Nat.testBit _ _ = true; exact tb rfl) | (show lies _ _; (try dsimp only [F.BND_PAIR_CFG_kind, F.BND_PAIR_STAT_state]); first | refine lies_BND_PAIR_STAT ?_ | split) | exact all_skip_i | refine all_cons ?_ ?_ | exact all_nil | refine all_seq_i ?_ ?_ | refine all_read_i fun _ => ?_ | refine all_when_i ?_ | refine all_each_i fun _ => ?_ | refine all_ifSome_i fun _ => ?_ | split | dsimp only | contradiction

theorem deriveBnd_kinds (b : Nat) : Prog.All (Act.among 0x30E0000000000000000000000000000000000000000000000000000000000000000000000000000002) (deriveBnd b) := by
  unfold deriveBnd
  repeat' with_reducible first | refine all_leaf ?_ | (show within _ _ = true; with_unfolding_all exact rfl) | (show Act.among _ _; with_unfolding_all exact tb rfl) | refine (derivePair_kinds ..).mono ?_ | refine loadF_kinds _ _ (by exact tb rfl) ?_ | refine setF_kinds _ _ ?_ | refine setReg_kinds _ _ ?_ | (show Nat.testBit _ _ = true; exact tb rfl) | (show lies _ _; (try dsimp only [F.BND_CFG_mode, F.BND_CFG_pairs, F.BND_CFG_quarter, F.BND_CFG_valid, F.BND_PAIR_CFG_aggressor, F.BND_PAIR_CFG_kind, F.BND_PAIR_CFG_victim]); first | refine lies_BND_CFG ?_ | refine lies_BND_MEMBERS_LO ?_ | refine lies_BND_MEMBERS_HI ?_ | refine lies_BND_PAIR_CFG ?_ | split) | exact all_skip_i | refine all_cons ?_ ?_ | exact all_nil | refine all_seq_i ?_ ?_ | refine all_read_i fun _ => ?_ | refine all_when_i ?_ | refine all_each_i fun _ => ?_ | refine all_ifSome_i fun _ => ?_ | split | dsimp only | contradiction

theorem deriveFur_kinds : Prog.All (Act.among 0x4040000000000000000000000000000000000000000000000012) (deriveFur) := by
  unfold deriveFur
  repeat' with_reducible first | refine all_leaf ?_ | (show within _ _ = true; with_unfolding_all exact rfl) | (show Act.among _ _; with_unfolding_all exact tb rfl) | refine raise_kinds _ _ (by exact tb rfl) ?_ | refine setReg_kinds _ _ ?_ | (show Nat.testBit _ _ = true; exact tb rfl) | (show lies _ _; first | refine lies_FUR_EVENT ?_ | refine lies_FUR_SLOT ?_ | split) | exact all_skip_i | refine all_cons ?_ ?_ | exact all_nil | refine all_seq_i ?_ ?_ | refine all_read_i fun _ => ?_ | refine all_when_i ?_ | refine all_each_i fun _ => ?_ | refine all_ifSome_i fun _ => ?_ | split | dsimp only | contradiction

theorem deriveQp_kinds (q : Nat) : Prog.All (Act.among 0x11022000000000000000000000000000000000000000000000000000000000000000000000000000000000000000000000000000000000000) (deriveQp q) := by
  unfold deriveQp
  repeat' with_reducible first | refine all_leaf ?_ | (show within _ _ = true; with_unfolding_all exact rfl) | (show Act.among _ _; with_unfolding_all exact tb rfl) | refine setF_kinds _ _ ?_ | (show Nat.testBit _ _ = true; exact tb rfl) | (show lies _ _; (try dsimp only [F.QP_RX_CFG_landing, F.QP_RX_CFG_pri, F.QP_RX_CFG_size_log2, F.QP_RX_CFG_vec, F.QP_RX_MOD_count, F.QP_RX_MOD_timer_us, F.QP_TX_CFG_landing, F.QP_TX_CFG_pri, F.QP_TX_CFG_size_log2, F.QP_TX_CFG_vec, F.QP_TX_MOD_count, F.QP_TX_MOD_timer_us]); first | refine lies_QP_RX_CFG ?_ | refine lies_QP_RX_MOD ?_ | refine lies_QP_TX_CFG ?_ | refine lies_QP_TX_MOD ?_ | split) | exact all_skip_i | refine all_cons ?_ ?_ | exact all_nil | refine all_seq_i ?_ ?_ | refine all_read_i fun _ => ?_ | refine all_when_i ?_ | refine all_each_i fun _ => ?_ | refine all_ifSome_i fun _ => ?_ | split | dsimp only | contradiction

theorem deriveHead_kinds (h : Nat) : Prog.All (Act.among 0x8C00000000000000000000000000000000000000000000000000000000000000000000000002) (deriveHead h) := by
  unfold deriveHead
  repeat' with_reducible first | refine all_leaf ?_ | (show within _ _ = true; with_unfolding_all exact rfl) | (show Act.among _ _; with_unfolding_all exact tb rfl) | refine loadF_kinds _ _ (by exact tb rfl) ?_ | refine setF_kinds _ _ ?_ | (show Nat.testBit _ _ = true; exact tb rfl) | (show lies _ _; (try dsimp only [F.GLB_STRAPS_headcfg, F.HEAD_LANES_first_lane, F.HEAD_LANES_strap_width, F.HEAD_REQ_CFG_max_out, F.HEAD_STAT_deputy, F.HEAD_STAT_steward]); first | refine lies_HEAD_STAT ?_ | refine lies_HEAD_LANES ?_ | refine lies_HEAD_REQ_CFG ?_ | split) | exact all_skip_i | refine all_cons ?_ ?_ | exact all_nil | refine all_seq_i ?_ ?_ | refine all_read_i fun _ => ?_ | refine all_when_i ?_ | refine all_each_i fun _ => ?_ | refine all_ifSome_i fun _ => ?_ | split | dsimp only | contradiction

theorem derivePortDef_kinds (p : Nat) : Prog.All (Act.among 0x40000000000000000000000000000000000000000000000000000000000000000000000000) (derivePortDef p) := by
  unfold derivePortDef
  repeat' with_reducible first | refine all_leaf ?_ | (show within _ _ = true; with_unfolding_all exact rfl) | (show Act.among _ _; with_unfolding_all exact tb rfl) | refine setF_kinds _ _ ?_ | refine setReg_kinds _ _ ?_ | (show Nat.testBit _ _ = true; exact tb rfl) | (show lies _ _; (try dsimp only [F.PKT_PORT_DEF_qp, F.PKT_PORT_DEF_valid]); first | refine lies_PKT_PORT_DEF ?_ | split) | exact all_skip_i | refine all_cons ?_ ?_ | exact all_nil | refine all_seq_i ?_ ?_ | refine all_read_i fun _ => ?_ | refine all_when_i ?_ | refine all_each_i fun _ => ?_ | refine all_ifSome_i fun _ => ?_ | split | dsimp only | contradiction

theorem deriveCls_kinds : Prog.All (Act.among 0x200000000000000000000000000000000000000000000000000000000000000000000000000) (deriveCls) := by
  unfold deriveCls
  repeat' with_reducible first | refine all_leaf ?_ | (show within _ _ = true; with_unfolding_all exact rfl) | (show Act.among _ _; with_unfolding_all exact tb rfl) | refine setWide_kinds _ _ _ ?_ | refine lies_PKT_CLS_words ?_ (by decide) | (show Nat.testBit _ _ = true; exact tb rfl) | (show lies _ _; first | refine lies_PKT_CLS ?_ | refine lies_PKT_CLS_at ?_ (by decide) (by decide) | split) | exact all_skip_i | refine all_cons ?_ ?_ | exact all_nil | refine all_seq_i ?_ ?_ | refine all_read_i fun _ => ?_ | refine all_when_i ?_ | refine all_each_i fun _ => ?_ | refine all_ifSome_i fun _ => ?_ | split | dsimp only | contradiction

theorem deriveCel_kinds : Prog.All (Act.among 0x60000000000000000000000000000000000000000000000000000000000000000000000) (deriveCel) := by
  unfold deriveCel
  repeat' with_reducible first | refine all_leaf ?_ | (show within _ _ = true; with_unfolding_all exact rfl) | (show Act.among _ _; with_unfolding_all exact tb rfl) | refine setF_kinds _ _ ?_ | (show Nat.testBit _ _ = true; exact tb rfl) | (show lies _ _; (try dsimp only [F.CEL_HEAD_RX_guar, F.CEL_HEAD_RX_max, F.CEL_HEAD_TX_guar, F.CEL_HEAD_TX_max]); first | refine lies_CEL_HEAD_RX ?_ | refine lies_CEL_HEAD_TX ?_ | split) | exact all_skip_i | refine all_cons ?_ ?_ | exact all_nil | refine all_seq_i ?_ ?_ | refine all_read_i fun _ => ?_ | refine all_when_i ?_ | refine all_each_i fun _ => ?_ | refine all_ifSome_i fun _ => ?_ | split | dsimp only | contradiction

theorem deriveTb_kinds : Prog.All (Act.among 0x2108C000000000000000000000000000000000) (deriveTb) := by
  unfold deriveTb
  repeat' with_reducible first | refine all_leaf ?_ | (show within _ _ = true; with_unfolding_all exact rfl) | (show Act.among _ _; with_unfolding_all exact tb rfl) | refine setF_kinds _ _ ?_ | refine (setRole_kinds ..).mono ?_ | (show Nat.testBit _ _ = true; exact tb rfl) | (show lies _ _; (try dsimp only [F.TB_CFG_gptp_en, F.TB_CFG_holdover_s, F.TB_CFG_work_domain, F.TB_DOM_STAT_domainNumber, F.TB_DOM_STAT_role, F.TB_DOM_STAT_slave_port, F.TB_DOM_STAT_slave_valid, F.TB_DOM_STAT_valid, F.TB_PPS_CFG_pps_out_en, F.TB_STAT_slave_port, F.TB_STAT_slave_valid]); first | refine lies_TB_STAT ?_ | refine lies_TB_CFG ?_ | refine lies_TB_PPS_CFG ?_ | refine lies_TB_DOM_STAT ?_ | split) | exact all_skip_i | refine all_cons ?_ ?_ | exact all_nil | refine all_seq_i ?_ ?_ | refine all_read_i fun _ => ?_ | refine all_when_i ?_ | refine all_each_i fun _ => ?_ | refine all_ifSome_i fun _ => ?_ | refine all_append ?_ ?_ | refine all_map fun _ => ?_ | split | dsimp only | contradiction

theorem deriveLch_kinds : Prog.All (Act.among 0x360000000000000000000000000000000000000002) (deriveLch) := by
  unfold deriveLch
  repeat' with_reducible first | refine all_leaf ?_ | (show within _ _ = true; with_unfolding_all exact rfl) | (show Act.among _ _; with_unfolding_all exact tb rfl) | refine (gclRefresh_kinds ..).mono ?_ | refine loadF_kinds _ _ (by exact tb rfl) ?_ | (show Nat.testBit _ _ = true; exact tb rfl) | (show lies _ _; (try dsimp only [F.LCH_GCL_CFG_CTRL_en, F.LCH_GCL_CFG_CYCLE_cycle, F.LCH_GCL_gates, F.LCH_GCL_interval]); first | refine lies_LCH_GCL_CFG_CTRL ?_ | refine lies_LCH_GCL_CFG_CYCLE ?_ | refine lies_LCH_GCL ?_ | split) | exact all_skip_i | refine all_cons ?_ ?_ | exact all_nil | refine all_seq_i ?_ ?_ | refine all_read_i fun _ => ?_ | refine all_when_i ?_ | refine all_each_i fun _ => ?_ | refine all_ifSome_i fun _ => ?_ | split | dsimp only | contradiction

theorem deriveWake_kinds : Prog.All (Act.among 0x3C1800000000000000000000000000000000000000000000000000000000000000000000000000000000000) (deriveWake) := by
  unfold deriveWake
  repeat' with_reducible first | refine all_leaf ?_ | (show within _ _ = true; with_unfolding_all exact rfl) | (show Act.among _ _; with_unfolding_all exact tb rfl) | refine setF_kinds _ _ ?_ | refine setReg_kinds _ _ ?_ | refine setWide_kinds _ _ _ ?_ | refine lies_WAKE_FWD_MASK_words ?_ (by decide) | (show Nat.testBit _ _ = true; exact tb rfl) | (show lies _ _; (try dsimp only [F.WAKE_CFG_retries, F.WAKE_CFG_spacing_ms]); first | refine lies_WAKE_CFG ?_ | refine lies_WAKE_IN_CFG ?_ | refine lies_WAKE_PARK_DET ?_ | refine lies_WAKE_PGROUP ?_ | refine lies_WAKE_TABLE ?_ | refine lies_WAKE_FWD_MASK ?_ | refine lies_WAKE_FWD_MASK_at ?_ (by decide) (by decide) | split) | exact all_skip_i | refine all_cons ?_ ?_ | exact all_nil | refine all_seq_i ?_ ?_ | refine all_read_i fun _ => ?_ | refine all_when_i ?_ | refine all_each_i fun _ => ?_ | refine all_ifSome_i fun _ => ?_ | split | dsimp only | contradiction

theorem deriveDetEn_kinds : Prog.All (Act.among 0x2000000000000000000000000000000000000000000000000000000000000000000000000000000000000) (deriveDetEn) := by
  unfold deriveDetEn
  repeat' with_reducible first | refine all_leaf ?_ | (show within _ _ = true; with_unfolding_all exact rfl) | (show Act.among _ _; with_unfolding_all exact tb rfl) | refine setWide_kinds _ _ _ ?_ | refine lies_WAKE_DET_EN_words ?_ (by decide) | (show Nat.testBit _ _ = true; exact tb rfl) | (show lies _ _; first | refine lies_WAKE_DET_EN ?_ | refine lies_WAKE_DET_EN_at ?_ (by decide) (by decide) | split) | exact all_skip_i | refine all_cons ?_ ?_ | exact all_nil | refine all_seq_i ?_ ?_ | refine all_read_i fun _ => ?_ | refine all_when_i ?_ | refine all_each_i fun _ => ?_ | refine all_ifSome_i fun _ => ?_ | split | dsimp only | contradiction

theorem deriveFlt_kinds : Prog.All (Act.among 0x400000000000000000000000000000000) (deriveFlt) := by
  unfold deriveFlt
  repeat' with_reducible first | refine all_leaf ?_ | (show within _ _ = true; with_unfolding_all exact rfl) | (show Act.among _ _; with_unfolding_all exact tb rfl) | refine setReg_kinds _ _ ?_ | (show Nat.testBit _ _ = true; exact tb rfl) | (show lies _ _; (try dsimp only [F.FLT_REACT_bytes]); first | refine lies_FLT_REACT ?_ | split) | exact all_skip_i | refine all_cons ?_ ?_ | exact all_nil | refine all_seq_i ?_ ?_ | refine all_read_i fun _ => ?_ | refine all_when_i ?_ | refine all_each_i fun _ => ?_ | refine all_ifSome_i fun _ => ?_ | split | dsimp only | contradiction

theorem deriveMld_kinds : Prog.All (Act.among 0xEF9007400000000000000000000000000000000000000000) (deriveMld) := by
  unfold deriveMld
  repeat' with_reducible first | refine all_leaf ?_ | (show within _ _ = true; with_unfolding_all exact rfl) | (show Act.among _ _; with_unfolding_all exact tb rfl) | refine setF_kinds _ _ ?_ | refine setReg_kinds _ _ ?_ | refine setWide_kinds _ _ _ ?_ | refine lies_MLD_ACTIVE_GEN_words ?_ (by decide) | refine lies_MLD_ACTIVE_DIGEST_words ?_ (by decide) | refine lies_MLD_GOV_TXEN_words ?_ (by decide) | refine lies_MLD_GOV_WIN_BASE_words ?_ (by decide) | refine lies_MLD_GOV_WIN_LIMIT_words ?_ (by decide) | (show Nat.testBit _ _ = true; exact tb rfl) | (show lies _ _; (try dsimp only [F.GLB_STRAPS_headcfg, F.MLD_ACTIVE_GEN_full_gen, F.MLD_ACTIVE_GEN_partial_gen, F.MLD_GOV_STEP_step_us, F.MLD_GOV_TIME_freq_ppb, F.MLD_GOV_TIME_interval_ms, F.MLD_GOV_WAKE_spacing_ms, F.MLD_KEYS_used, F.MLD_STATUS_src, F.MLD_STATUS_state, F.MLD_WARN_head_over]); first | refine lies_MLD_STATUS ?_ | refine lies_MLD_WARN ?_ | refine lies_MLD_ACTIVE_GEN ?_ | refine lies_MLD_ACTIVE_GEN_at ?_ (by decide) (by decide) | refine lies_MLD_ACTIVE_DIGEST ?_ | refine lies_MLD_ACTIVE_DIGEST_at ?_ (by decide) (by decide) | refine lies_MLD_KEYS ?_ | refine lies_MLD_GOV_TXEN ?_ | refine lies_MLD_GOV_TXEN_at ?_ (by decide) (by decide) | refine lies_MLD_GOV_AMP ?_ | refine lies_MLD_GOV_WAKE ?_ | refine lies_MLD_GOV_TIME ?_ | refine lies_MLD_GOV_STEP ?_ | refine lies_MLD_GOV_WIN_BASE ?_ | refine lies_MLD_GOV_WIN_BASE_at ?_ (by decide) (by decide) | refine lies_MLD_GOV_WIN_LIMIT ?_ | refine lies_MLD_GOV_WIN_LIMIT_at ?_ (by decide) (by decide) | refine lies_MLD_GOV_WIN_FLAGS ?_ | split) | exact all_skip_i | refine all_cons ?_ ?_ | exact all_nil | refine all_seq_i ?_ ?_ | refine all_read_i fun _ => ?_ | refine all_when_i ?_ | refine all_each_i fun _ => ?_ | refine all_ifSome_i fun _ => ?_ | split | dsimp only | contradiction

theorem deriveKeys_kinds : Prog.All (Act.among 0x1000000000000000000000000000000000000000000000) (deriveKeys) := by
  unfold deriveKeys
  repeat' with_reducible first | refine all_leaf ?_ | (show within _ _ = true; with_unfolding_all exact rfl) | (show Act.among _ _; with_unfolding_all exact tb rfl) | refine setF_kinds _ _ ?_ | (show Nat.testBit _ _ = true; exact tb rfl) | (show lies _ _; (try dsimp only [F.MLD_KEYS_programmed, F.MLD_KEYS_revoked]); first | refine lies_MLD_KEYS ?_ | split) | exact all_skip_i | refine all_cons ?_ ?_ | exact all_nil | refine all_seq_i ?_ ?_ | refine all_read_i fun _ => ?_ | refine all_when_i ?_ | refine all_each_i fun _ => ?_ | refine all_ifSome_i fun _ => ?_ | split | dsimp only | contradiction

theorem deriveGlb_kinds : Prog.All (Act.among 0x100000000000000000) (deriveGlb) := by
  unfold deriveGlb
  repeat' with_reducible first | refine all_leaf ?_ | (show within _ _ = true; with_unfolding_all exact rfl) | (show Act.among _ _; with_unfolding_all exact tb rfl) | refine setF_kinds _ _ ?_ | (show Nat.testBit _ _ = true; exact tb rfl) | (show lies _ _; (try dsimp only [F.GLB_MODE_deputy, F.GLB_MODE_steward]); first | refine lies_GLB_MODE ?_ | split) | exact all_skip_i | refine all_cons ?_ ?_ | exact all_nil | refine all_seq_i ?_ ?_ | refine all_read_i fun _ => ?_ | refine all_when_i ?_ | refine all_each_i fun _ => ?_ | refine all_ifSome_i fun _ => ?_ | split | dsimp only | contradiction

theorem deriveAll_kinds : Prog.All (Act.among 0x110220000600000000002680003C38070E0008E40000000000000000000004040EF900776002108C400000000000000100000000100000012) (deriveAll) := by
  unfold deriveAll
  repeat' with_reducible first | refine all_leaf ?_ | (show within _ _ = true; with_unfolding_all exact rfl) | (show Act.among _ _; with_unfolding_all exact tb rfl) | refine (deriveBnd_kinds ..).mono ?_ | refine (deriveCane_kinds ..).mono ?_ | refine deriveCls_kinds.mono ?_ | refine deriveDetEn_kinds.mono ?_ | refine deriveFlt_kinds.mono ?_ | refine deriveFur_kinds.mono ?_ | refine deriveGlb_kinds.mono ?_ | refine (deriveHead_kinds ..).mono ?_ | refine deriveLch_kinds.mono ?_ | refine deriveMld_kinds.mono ?_ | refine (derivePort_kinds ..).mono ?_ | refine (derivePortDef_kinds ..).mono ?_ | refine (deriveQp_kinds ..).mono ?_ | refine deriveTb_kinds.mono ?_ | refine deriveWake_kinds.mono ?_ | exact all_skip_i | refine all_cons ?_ ?_ | exact all_nil | refine all_seq_i ?_ ?_ | refine all_read_i fun _ => ?_ | refine all_when_i ?_ | refine all_each_i fun _ => ?_ | refine all_ifSome_i fun _ => ?_ | split | dsimp only | contradiction

theorem lpiState_kinds (p : Nat) : Prog.All (Act.among 0x440000000000000010000000002500000000000000000000000000000000000000000000000000000000000000000000000000000310) (lpiState p) := by
  unfold lpiState
  repeat' with_reducible first | refine all_leaf ?_ | (show within _ _ = true; with_unfolding_all exact rfl) | (show Act.among _ _; with_unfolding_all exact tb rfl) | refine raise_kinds _ _ (by exact tb rfl) ?_ | refine (refreshBundleOf_kinds ..).mono ?_ | refine satAdd_kinds _ _ ?_ | refine setF_kinds _ _ ?_ | (show Nat.testBit _ _ = true; exact tb rfl) | (show lies _ _; (try dsimp only [F.PORT_LPI_ENTRIES_entries, F.PORT_LPI_STAT_rx_lpi, F.PORT_LPI_STAT_tx_lpi, F.PORT_STATE_state]); first | refine lies_PORT_STATE ?_ | refine lies_PORT_LPI_ENTRIES ?_ | refine lies_PORT_TC10_EVENT ?_ | split) | exact all_skip_i | refine all_cons ?_ ?_ | exact all_nil | refine all_seq_i ?_ ?_ | refine all_read_i fun _ => ?_ | refine all_when_i ?_ | refine all_each_i fun _ => ?_ | refine all_ifSome_i fun _ => ?_ | split | dsimp only | contradiction

theorem lpiEntry_kinds (p : Nat) : Prog.All (Act.among 0x460000000000000010000000002500000000000000000000000000000000000000000000000000000000000000000000000100000310) (lpiEntry p) := by
  unfold lpiEntry
  repeat' with_reducible first | refine all_leaf ?_ | (show within _ _ = true; with_unfolding_all exact rfl) | (show Act.among _ _; with_unfolding_all exact tb rfl) | refine (lpiState_kinds ..).mono ?_ | refine (send_kinds ..).mono ?_ | refine setF_kinds _ _ ?_ | (show Nat.testBit _ _ = true; exact tb rfl) | (show lies _ _; (try dsimp only [F.PORT_LPI_CFG_lpi_allow, F.PORT_LPI_STAT_tx_lpi]); first | refine lies_PORT_LPI_STAT ?_ | split) | exact all_skip_i | refine all_cons ?_ ?_ | exact all_nil | refine all_seq_i ?_ ?_ | refine all_read_i fun _ => ?_ | refine all_when_i ?_ | refine all_each_i fun _ => ?_ | refine all_ifSome_i fun _ => ?_ | split | dsimp only | contradiction

theorem receiveQuiet_kinds (p : Nat) : Prog.All (Act.among 0x460000000000000010000000002500000000000000000000000000000000000000000000000000000000000000000000000000000310) (receiveQuiet p) := by
  unfold receiveQuiet
  repeat' with_reducible first | refine all_leaf ?_ | (show within _ _ = true; with_unfolding_all exact rfl) | (show Act.among _ _; with_unfolding_all exact tb rfl) | refine (lpiState_kinds ..).mono ?_ | refine setF_kinds _ _ ?_ | (show Nat.testBit _ _ = true; exact tb rfl) | (show lies _ _; (try dsimp only [F.PORT_LPI_STAT_rx_lpi]); first | refine lies_PORT_LPI_STAT ?_ | split) | exact all_skip_i | refine all_cons ?_ ?_ | exact all_nil | refine all_seq_i ?_ ?_ | refine all_read_i fun _ => ?_ | refine all_when_i ?_ | refine all_each_i fun _ => ?_ | refine all_ifSome_i fun _ => ?_ | split | dsimp only | contradiction

theorem wakeSignal_kinds (p : Nat) : Prog.All (Act.among 0x100000000) (wakeSignal p) := by
  unfold wakeSignal
  repeat' with_reducible first | refine all_leaf ?_ | (show within _ _ = true; with_unfolding_all exact rfl) | (show Act.among _ _; with_unfolding_all exact tb rfl) | refine (send_kinds ..).mono ?_ | exact all_skip_i | refine all_cons ?_ ?_ | exact all_nil | refine all_seq_i ?_ ?_ | refine all_read_i fun _ => ?_ | refine all_when_i ?_ | refine all_each_i fun _ => ?_ | refine all_ifSome_i fun _ => ?_ | split | dsimp only | contradiction

theorem lpiExitBegin_kinds (p : Nat) : Prog.All (Act.among 0x20000000000000000000000002500000000000000000000000000000000000000000000000000000000000000000000000100000350) (lpiExitBegin p) := by
  unfold lpiExitBegin
  repeat' with_reducible first | refine all_leaf ?_ | (show within _ _ = true; with_unfolding_all exact rfl) | (show Act.among _ _; with_unfolding_all exact tb rfl) | refine (reclaimAsk_kinds ..).mono ?_ | refine (refreshBundleOf_kinds ..).mono ?_ | refine setF_kinds _ _ ?_ | refine (updPort_kinds ..).mono ?_ | refine (wakeSignal_kinds ..).mono ?_ | (show Nat.testBit _ _ = true; exact tb rfl) | (show lies _ _; (try dsimp only [F.PORT_LPI_STAT_tx_lpi]); first | refine lies_PORT_LPI_STAT ?_ | split) | exact all_skip_i | refine all_cons ?_ ?_ | exact all_nil | refine all_seq_i ?_ ?_ | refine all_read_i fun _ => ?_ | refine all_when_i ?_ | refine all_each_i fun _ => ?_ | refine all_ifSome_i fun _ => ?_ | split | dsimp only | contradiction

theorem lpiEarlyExit_kinds (p : Nat) : Prog.All (Act.among 0x20000000000000000000000002500000000000000000000000000000000000000000000000000000000000000000000000100000350) (lpiEarlyExit p) := by
  unfold lpiEarlyExit
  repeat' with_reducible first | refine all_leaf ?_ | (show within _ _ = true; with_unfolding_all exact rfl) | (show Act.among _ _; with_unfolding_all exact tb rfl) | refine (lpiExitBegin_kinds ..).mono ?_ | exact all_skip_i | refine all_cons ?_ ?_ | exact all_nil | refine all_seq_i ?_ ?_ | refine all_read_i fun _ => ?_ | refine all_when_i ?_ | refine all_each_i fun _ => ?_ | refine all_ifSome_i fun _ => ?_ | split | dsimp only | contradiction

theorem lpiWakeSignal_kinds (p : Nat) : Prog.All (Act.among 0x20000000000000000000000002500000000000000000000000000000000000000000000000000000000000000000000000000000350) (lpiWakeSignal p) := by
  unfold lpiWakeSignal
  repeat' with_reducible first | refine all_leaf ?_ | (show within _ _ = true; with_unfolding_all exact rfl) | (show Act.among _ _; with_unfolding_all exact tb rfl) | refine (reclaimAsk_kinds ..).mono ?_ | refine (refreshBundleOf_kinds ..).mono ?_ | refine setF_kinds _ _ ?_ | refine (updPort_kinds ..).mono ?_ | (show Nat.testBit _ _ = true; exact tb rfl) | (show lies _ _; (try dsimp only [F.PORT_LPI_STAT_rx_lpi, F.PORT_LPI_STAT_tx_lpi]); first | refine lies_PORT_LPI_STAT ?_ | split) | exact all_skip_i | refine all_cons ?_ ?_ | exact all_nil | refine all_seq_i ?_ ?_ | refine all_read_i fun _ => ?_ | refine all_when_i ?_ | refine all_each_i fun _ => ?_ | refine all_ifSome_i fun _ => ?_ | split | dsimp only | contradiction

theorem lpiExitComplete_kinds (p : Nat) : Prog.All (Act.among 0x2000000000201C010000000002500000000000000000000000000000000000000000000000000000000000000000000000002000350) (lpiExitComplete p) := by
  unfold lpiExitComplete
  repeat' with_reducible first | refine all_leaf ?_ | (show within _ _ = true; with_unfolding_all exact rfl) | (show Act.among _ _; with_unfolding_all exact tb rfl) | refine (lpiToUp_kinds ..).mono ?_ | refine (refreshBundleOf_kinds ..).mono ?_ | refine setF_kinds _ _ ?_ | refine (updPort_kinds ..).mono ?_ | (show Nat.testBit _ _ = true; exact tb rfl) | (show lies _ _; (try dsimp only [F.PORT_LPI_STAT_deep, F.PORT_LPI_STAT_tx_lpi]); first | refine lies_PORT_LPI_STAT ?_ | split) | exact all_skip_i | refine all_cons ?_ ?_ | exact all_nil | refine all_seq_i ?_ ?_ | refine all_read_i fun _ => ?_ | refine all_when_i ?_ | refine all_each_i fun _ => ?_ | refine all_ifSome_i fun _ => ?_ | split | dsimp only | contradiction

theorem lpiExitTimeout_kinds (p : Nat) : Prog.All (Act.among 0x220084300003CA381800000409250000000000000000000000000C0000000000000000004040000000000000000000000003400037D0) (lpiExitTimeout p) := by
  unfold lpiExitTimeout
  repeat' with_reducible first | refine all_leaf ?_ | (show within _ _ = true; with_unfolding_all exact rfl) | (show Act.among _ _; with_unfolding_all exact tb rfl) | refine (portDropNow_kinds ..).mono ?_ | exact all_skip_i | refine all_cons ?_ ?_ | exact all_nil | refine all_seq_i ?_ ?_ | refine all_read_i fun _ => ?_ | refine all_when_i ?_ | refine all_each_i fun _ => ?_ | refine all_ifSome_i fun _ => ?_ | split | dsimp only | contradiction

theorem quickRefresh_kinds (p : Nat) : Prog.All (Act.among 0x2500000000000000000000000000000000000000000000000000000000000000000000000100000350) (quickRefresh p) := by
  unfold quickRefresh
  repeat' with_reducible first | refine all_leaf ?_ | (show within _ _ = true; with_unfolding_all exact rfl) | (show Act.among _ _; with_unfolding_all exact tb rfl) | refine (refreshBundleOf_kinds ..).mono ?_ | refine (send_kinds ..).mono ?_ | refine (updPort_kinds ..).mono ?_ | exact all_skip_i | refine all_cons ?_ ?_ | exact all_nil | refine all_seq_i ?_ ?_ | refine all_read_i fun _ => ?_ | refine all_when_i ?_ | refine all_each_i fun _ => ?_ | refine all_ifSome_i fun _ => ?_ | split | dsimp only | contradiction

theorem refreshEnd_kinds (p : Nat) : Prog.All (Act.among 0x2500000000000000000000000000000000000000000000000000000000000000000000000000000350) (refreshEnd p) := by
  unfold refreshEnd
  repeat' with_reducible first | refine all_leaf ?_ | (show within _ _ = true; with_unfolding_all exact rfl) | (show Act.among _ _; with_unfolding_all exact tb rfl) | refine (refreshBundleOf_kinds ..).mono ?_ | refine (updPort_kinds ..).mono ?_ | exact all_skip_i | refine all_cons ?_ ?_ | exact all_nil | refine all_seq_i ?_ ?_ | refine all_read_i fun _ => ?_ | refine all_when_i ?_ | refine all_each_i fun _ => ?_ | refine all_ifSome_i fun _ => ?_ | split | dsimp only | contradiction

theorem deepLpiEntry_kinds (p : Nat) : Prog.All (Act.among 0x420000000000000000000000000000000000000000000000000000000000000000000000000000000000000000000000000000000010) (deepLpiEntry p) := by
  unfold deepLpiEntry
  repeat' with_reducible first | refine all_leaf ?_ | (show within _ _ = true; with_unfolding_all exact rfl) | (show Act.among _ _; with_unfolding_all exact tb rfl) | refine raise_kinds _ _ (by exact tb rfl) ?_ | refine setF_kinds _ _ ?_ | (show Nat.testBit _ _ = true; exact tb rfl) | (show lies _ _; (try dsimp only [F.PORT_LPI_CFG_deep_en, F.PORT_LPI_STAT_deep]); first | refine lies_PORT_LPI_STAT ?_ | refine lies_PORT_TC10_EVENT ?_ | split) | exact all_skip_i | refine all_cons ?_ ?_ | exact all_nil | refine all_seq_i ?_ ?_ | refine all_read_i fun _ => ?_ | refine all_when_i ?_ | refine all_each_i fun _ => ?_ | refine all_ifSome_i fun _ => ?_ | split | dsimp only | contradiction

theorem sleepReplyReceived_kinds (p : Nat) (ack : Bool) : Prog.All (Act.among 0x600000000000000000000000000000000000000000000000000000000000000000000000000000000000000000000000000100000010) (sleepReplyReceived p ack) := by
  unfold sleepReplyReceived
  repeat' with_reducible first | refine all_leaf ?_ | (show within _ _ = true; with_unfolding_all exact rfl) | (show Act.among _ _; with_unfolding_all exact tb rfl) | refine raise_kinds _ _ (by exact tb rfl) ?_ | refine (send_kinds ..).mono ?_ | refine setF_kinds _ _ ?_ | (show Nat.testBit _ _ = true; exact tb rfl) | (show lies _ _; (try dsimp only [F.PORT_TC10_STAT_hs, F.PORT_TC10_STAT_last_sleep]); first | refine lies_PORT_TC10_STAT ?_ | refine lies_PORT_TC10_EVENT ?_ | split) | exact all_skip_i | refine all_cons ?_ ?_ | exact all_nil | refine all_seq_i ?_ ?_ | refine all_read_i fun _ => ?_ | refine all_when_i ?_ | refine all_each_i fun _ => ?_ | refine all_ifSome_i fun _ => ?_ | split | dsimp only | contradiction

theorem groupSleep_kinds (g : List Nat) (last : Nat → Nat) (timeout : Bool) : Prog.All (Act.among 0x620084300003CA381800000409250000000000000000000000000C0000000000000000004040000000000000000000000003400037D0) (groupSleep g last timeout) := by
  unfold groupSleep
  repeat' with_reducible first | refine all_leaf ?_ | (show within _ _ = true; with_unfolding_all exact rfl) | (show Act.among _ _; with_unfolding_all exact tb rfl) | refine raise_kinds _ _ (by exact tb rfl) ?_ | refine (toSleep_kinds ..).mono ?_ | (show Nat.testBit _ _ = true; exact tb rfl) | (show lies _ _; first | refine lies_PORT_TC10_EVENT ?_ | split) | exact all_skip_i | refine all_cons ?_ ?_ | exact all_nil | refine all_seq_i ?_ ?_ | refine all_read_i fun _ => ?_ | refine all_when_i ?_ | refine all_each_i fun _ => ?_ | refine all_ifSome_i fun _ => ?_ | split | dsimp only | contradiction

theorem partnerSilence_kinds (p : Nat) : Prog.All (Act.among 0x620084300003CA381800000409250000000000000000000000000C0000000000000000004040000000000000000000000003400037D0) (partnerSilence p) := by
  unfold partnerSilence
  repeat' with_reducible first | refine all_leaf ?_ | (show within _ _ = true; with_unfolding_all exact rfl) | (show Act.among _ _; with_unfolding_all exact tb rfl) | refine (groupSleep_kinds ..).mono ?_ | exact all_skip_i | refine all_cons ?_ ?_ | exact all_nil | refine all_seq_i ?_ ?_ | refine all_read_i fun _ => ?_ | refine all_when_i ?_ | refine all_each_i fun _ => ?_ | refine all_ifSome_i fun _ => ?_ | split | dsimp only | contradiction

theorem sleepTimeout_kinds (p : Nat) : Prog.All (Act.among 0x620084300003CA381800000409250000000000000000000000000C0000000000000000004040000000000000000000000003400037D0) (sleepTimeout p) := by
  unfold sleepTimeout
  repeat' with_reducible first | refine all_leaf ?_ | (show within _ _ = true; with_unfolding_all exact rfl) | (show Act.among _ _; with_unfolding_all exact tb rfl) | refine (groupSleep_kinds ..).mono ?_ | exact all_skip_i | refine all_cons ?_ ?_ | exact all_nil | refine all_seq_i ?_ ?_ | refine all_read_i fun _ => ?_ | refine all_when_i ?_ | refine all_each_i fun _ => ?_ | refine all_ifSome_i fun _ => ?_ | split | dsimp only | contradiction

theorem sleepRequestReceived_kinds (p : Nat) : Prog.All (Act.among 0x62000000000201C010000000002500000000000000000000000000000000000000000000000000000000000000000000000102000350) (sleepRequestReceived p) := by
  unfold sleepRequestReceived
  repeat' with_reducible first | refine all_leaf ?_ | (show within _ _ = true; with_unfolding_all exact rfl) | (show Act.among _ _; with_unfolding_all exact tb rfl) | refine (lpiToUp_kinds ..).mono ?_ | refine raise_kinds _ _ (by exact tb rfl) ?_ | refine (refreshBundleOf_kinds ..).mono ?_ | refine (send_kinds ..).mono ?_ | refine setF_kinds _ _ ?_ | refine (updPort_kinds ..).mono ?_ | (show Nat.testBit _ _ = true; exact tb rfl) | (show lies _ _; (try dsimp only [F.PORT_LPI_STAT_rx_lpi, F.PORT_LPI_STAT_tx_lpi, F.PORT_TC10_CFG_accept_sleep, F.PORT_TC10_STAT_hs]); first | refine lies_PORT_LPI_STAT ?_ | refine lies_PORT_TC10_STAT ?_ | refine lies_PORT_TC10_EVENT ?_ | split) | exact all_skip_i | refine all_cons ?_ ?_ | exact all_nil | refine all_seq_i ?_ ?_ | refine all_read_i fun _ => ?_ | refine all_when_i ?_ | refine all_each_i fun _ => ?_ | refine all_ifSome_i fun _ => ?_ | split | dsimp only | contradiction

theorem partnerSleepTimeout_kinds (p : Nat) : Prog.All (Act.among 0x620084300003CA381800000409250000000000000000000000000C0000000000000000004040000000000000000000000003400037D0) (partnerSleepTimeout p) := by
  unfold partnerSleepTimeout
  repeat' with_reducible first | refine all_leaf ?_ | (show within _ _ = true; with_unfolding_all exact rfl) | (show Act.among _ _; with_unfolding_all exact tb rfl) | refine (groupSleep_kinds ..).mono ?_ | exact all_skip_i | refine all_cons ?_ ?_ | exact all_nil | refine all_seq_i ?_ ?_ | refine all_read_i fun _ => ?_ | refine all_when_i ?_ | refine all_each_i fun _ => ?_ | refine all_ifSome_i fun _ => ?_ | split | dsimp only | contradiction

theorem pulse_kinds (p : Nat) (wup : Bool) : Prog.All (Act.among 0x410000000000000000000000000000000000000100000000000000000000000000000000000000140000050) (pulse p wup) := by
  unfold pulse
  repeat' with_reducible first | refine all_leaf ?_ | (show within _ _ = true; with_unfolding_all exact rfl) | (show Act.among _ _; with_unfolding_all exact tb rfl) | refine (governorClamp_kinds ..).mono ?_ | refine raise_kinds _ _ (by exact tb rfl) ?_ | refine satAdd_kinds _ _ ?_ | refine (send_kinds ..).mono ?_ | refine (updPort_kinds ..).mono ?_ | (show Nat.testBit _ _ = true; exact tb rfl) | (show lies _ _; (try dsimp only [F.MLD_GOV_CLAMP_COUNT_count, F.WAKE_PCOUNT_held, F.WAKE_PCOUNT_sent]); first | refine lies_MLD_GOV_CLAMP_COUNT ?_ | refine lies_WAKE_EVENT ?_ | refine lies_WAKE_PCOUNT ?_ | split) | exact all_skip_i | refine all_cons ?_ ?_ | exact all_nil | refine all_seq_i ?_ ?_ | refine all_read_i fun _ => ?_ | refine all_when_i ?_ | refine all_each_i fun _ => ?_ | refine all_ifSome_i fun _ => ?_ | split | dsimp only | contradiction

theorem markPending_kinds (p : Nat) (byForward : Bool) : Prog.All (Act.among 0x10000004000000000000000000000000000000000000000000000000000000000000000000000000000000000040) (markPending p byForward) := by
  unfold markPending
  repeat' with_reducible first | refine all_leaf ?_ | (show within _ _ = true; with_unfolding_all exact rfl) | (show Act.among _ _; with_unfolding_all exact tb rfl) | refine setF_kinds _ _ ?_ | refine (setPending_kinds ..).mono ?_ | refine (updPort_kinds ..).mono ?_ | (show Nat.testBit _ _ = true; exact tb rfl) | (show lies _ _; (try dsimp only [F.PORT_STATE_held]); first | refine lies_PORT_STATE ?_ | split) | exact all_skip_i | refine all_cons ?_ ?_ | exact all_nil | refine all_seq_i ?_ ?_ | refine all_read_i fun _ => ?_ | refine all_when_i ?_ | refine all_each_i fun _ => ?_ | refine all_ifSome_i fun _ => ?_ | split | dsimp only | contradiction

theorem markCane_kinds (p : Nat) : Prog.All (Act.among 0x10000004000000000000000000000000000000000000000000000000000000000000000000000000000000000040) (markCane p) := by
  unfold markCane
  repeat' with_reducible first | refine all_leaf ?_ | (show within _ _ = true; with_unfolding_all exact rfl) | (show Act.among _ _; with_unfolding_all exact tb rfl) | refine (markPending_kinds ..).mono ?_ | exact all_skip_i | refine all_cons ?_ ?_ | exact all_nil | refine all_seq_i ?_ ?_ | refine all_read_i fun _ => ?_ | refine all_when_i ?_ | refine all_each_i fun _ => ?_ | refine all_ifSome_i fun _ => ?_ | split | dsimp only | contradiction

theorem forwardTo_kinds (p : Nat) : Prog.All (Act.among 0x20000000000000010000414002500000000000000000000000000000000100000000000000000000000000000000000000140000350) (forwardTo p) := by
  unfold forwardTo
  repeat' with_reducible first | refine all_leaf ?_ | (show within _ _ = true; with_unfolding_all exact rfl) | (show Act.among _ _; with_unfolding_all exact tb rfl) | refine (lpiExitBegin_kinds ..).mono ?_ | refine (markCane_kinds ..).mono ?_ | refine (markPending_kinds ..).mono ?_ | refine (pulse_kinds ..).mono ?_ | refine raise_kinds _ _ (by exact tb rfl) ?_ | refine satAdd_kinds _ _ ?_ | (show Nat.testBit _ _ = true; exact tb rfl) | (show lies _ _; (try dsimp only [F.WAKE_PCOUNT_suppressed]); first | refine lies_WAKE_EVENT ?_ | refine lies_WAKE_PCOUNT ?_ | split) | exact all_skip_i | refine all_cons ?_ ?_ | exact all_nil | refine all_seq_i ?_ ?_ | refine all_read_i fun _ => ?_ | refine all_when_i ?_ | refine all_each_i fun _ => ?_ | refine all_ifSome_i fun _ => ?_ | split | dsimp only | contradiction

theorem forwardGroup_kinds (g : Nat) : Prog.All (Act.among 0x20000000000000010000414002500000000000000000000000000000000100000000000000000000000000000000000000140000350) (forwardGroup g) := by
  unfold forwardGroup
  repeat' with_reducible first | refine all_leaf ?_ | (show within _ _ = true; with_unfolding_all exact rfl) | (show Act.among _ _; with_unfolding_all exact tb rfl) | refine (forwardTo_kinds ..).mono ?_ | refine raise_kinds _ _ (by exact tb rfl) ?_ | (show Nat.testBit _ _ = true; exact tb rfl) | (show lies _ _; first | refine lies_WAKE_EVENT ?_ | split) | exact all_skip_i | refine all_cons ?_ ?_ | exact all_nil | refine all_seq_i ?_ ?_ | refine all_read_i fun _ => ?_ | refine all_when_i ?_ | refine all_each_i fun _ => ?_ | refine all_ifSome_i fun _ => ?_ | split | dsimp only | contradiction

theorem wakeCause_kinds (kind index : Nat) : Prog.All (Act.among 0x18000000000000000000000000000000000000000000000000000000000000000000000000000000000010) (wakeCause kind index) := by
  unfold wakeCause
  repeat' with_reducible first | refine all_leaf ?_ | (show within _ _ = true; with_unfolding_all exact rfl) | (show Act.among _ _; with_unfolding_all exact tb rfl) | refine raise_kinds _ _ (by exact tb rfl) ?_ | refine setF_kinds _ _ ?_ | (show Nat.testBit _ _ = true; exact tb rfl) | (show lies _ _; (try dsimp only [F.WAKE_CAUSE_from_park, F.WAKE_CAUSE_index, F.WAKE_CAUSE_kind]); first | refine lies_WAKE_CAUSE ?_ | refine lies_WAKE_EVENT ?_ | split) | exact all_skip_i | refine all_cons ?_ ?_ | exact all_nil | refine all_seq_i ?_ ?_ | refine all_read_i fun _ => ?_ | refine all_when_i ?_ | refine all_each_i fun _ => ?_ | refine all_ifSome_i fun _ => ?_ | split | dsimp only | contradiction

theorem wakeActs_kinds (detector : Option Nat) (group : Nat) : Prog.All (Act.among 0x20000000000000010000414002500000000000000000000000000000000100000000000000000000000000000000000000140000350) (wakeActs detector group) := by
  unfold wakeActs
  repeat' with_reducible first | refine all_leaf ?_ | (show within _ _ = true; with_unfolding_all exact rfl) | (show Act.among _ _; with_unfolding_all exact tb rfl) | refine (forwardGroup_kinds ..).mono ?_ | refine (markCane_kinds ..).mono ?_ | refine (markPending_kinds ..).mono ?_ | refine satAdd_kinds _ _ ?_ | refine (updPort_kinds ..).mono ?_ | (show Nat.testBit _ _ = true; exact tb rfl) | (show lies _ _; (try dsimp only [F.WAKE_PCOUNT_received]); first | refine lies_WAKE_PCOUNT ?_ | split) | exact all_skip_i | refine all_cons ?_ ?_ | exact all_nil | refine all_seq_i ?_ ?_ | refine all_read_i fun _ => ?_ | refine all_when_i ?_ | refine all_each_i fun _ => ?_ | refine all_ifSome_i fun _ => ?_ | split | dsimp only | contradiction

theorem latchWake_kinds (kind index group : Nat) : Prog.All (Act.among 0x100000000000002000000) (latchWake kind index group) := by
  unfold latchWake
  repeat' with_reducible first | refine all_leaf ?_ | (show within _ _ = true; with_unfolding_all exact rfl) | (show Act.among _ _; with_unfolding_all exact tb rfl) | refine satAdd_kinds _ _ ?_ | refine setF_kinds _ _ ?_ | refine (updPower_kinds ..).mono ?_ | (show Nat.testBit _ _ = true; exact tb rfl) | (show lies _ _; (try dsimp only [F.PWR_WAKE_LATCH_count, F.PWR_WAKE_LATCH_index, F.PWR_WAKE_LATCH_kind, F.PWR_WAKE_LATCH_valid]); first | refine lies_PWR_WAKE_LATCH ?_ | split) | exact all_skip_i | refine all_cons ?_ ?_ | exact all_nil | refine all_seq_i ?_ ?_ | refine all_read_i fun _ => ?_ | refine all_when_i ?_ | refine all_each_i fun _ => ?_ | refine all_ifSome_i fun _ => ?_ | split | dsimp only | contradiction

theorem wurReceived_kinds (p : Nat) : Prog.All (Act.among 0x42000000000000001000041C002500000000000000000000000000000000100000000000000000000000000100000000000142000350) (wurReceived p) := by
  unfold wurReceived
  repeat' with_reducible first | refine all_leaf ?_ | (show within _ _ = true; with_unfolding_all exact rfl) | (show Act.among _ _; with_unfolding_all exact tb rfl) | refine (forwardGroup_kinds ..).mono ?_ | refine (latchWake_kinds ..).mono ?_ | refine raise_kinds _ _ (by exact tb rfl) ?_ | refine satAdd_kinds _ _ ?_ | refine (wakeCause_kinds ..).mono ?_ | (show Nat.testBit _ _ = true; exact tb rfl) | (show lies _ _; (try dsimp only [F.PORT_TC10_CFG_wur_fwd, F.WAKE_PCOUNT_received]); first | refine lies_WAKE_PCOUNT ?_ | refine lies_PORT_TC10_EVENT ?_ | split) | exact all_skip_i | refine all_cons ?_ ?_ | exact all_nil | refine all_seq_i ?_ ?_ | refine all_read_i fun _ => ?_ | refine all_when_i ?_ | refine all_each_i fun _ => ?_ | refine all_ifSome_i fun _ => ?_ | split | dsimp only | contradiction

theorem wakeServe_kinds (p : Nat) : Prog.All (Act.among 0x220084300003CA381800041409250000000000000000000000000C0000001000000000004040000000000000000000000003400037D0) (wakeServe p) := by
  unfold wakeServe
  repeat' with_reducible first | refine all_leaf ?_ | (show within _ _ = true; with_unfolding_all exact rfl) | (show Act.among _ _; with_unfolding_all exact tb rfl) | refine (askLeave_kinds ..).mono ?_ | refine (pulse_kinds ..).mono ?_ | refine setF_kinds _ _ ?_ | refine (updPort_kinds ..).mono ?_ | (show Nat.testBit _ _ = true; exact tb rfl) | (show lies _ _; (try dsimp only [F.PORT_STATE_held, F.WAKE_CFG_retries]); first | refine lies_PORT_STATE ?_ | split) | exact all_skip_i | refine all_cons ?_ ?_ | exact all_nil | refine all_seq_i ?_ ?_ | refine all_read_i fun _ => ?_ | refine all_when_i ?_ | refine all_each_i fun _ => ?_ | refine all_ifSome_i fun _ => ?_ | split | dsimp only | contradiction

theorem wupEnd_kinds (p : Nat) : Prog.All (Act.among 0x220084300003CA381800000409250000000000000000000000000C0000000000000000004040000000000000000000000003400037D0) (wupEnd p) := by
  unfold wupEnd
  repeat' with_reducible first | refine all_leaf ?_ | (show within _ _ = true; with_unfolding_all exact rfl) | (show Act.among _ _; with_unfolding_all exact tb rfl) | refine (tryLeave_kinds ..).mono ?_ | refine (updPort_kinds ..).mono ?_ | exact all_skip_i | refine all_cons ?_ ?_ | exact all_nil | refine all_seq_i ?_ ?_ | refine all_read_i fun _ => ?_ | refine all_when_i ?_ | refine all_each_i fun _ => ?_ | refine all_ifSome_i fun _ => ?_ | split | dsimp only | contradiction

theorem pulseSpacingRelease_kinds (p : Nat) : Prog.All (Act.among 0x410000000000000000000000000000000000000100000000000000000000000000000000000000140000050) (pulseSpacingRelease p) := by
  unfold pulseSpacingRelease
  repeat' with_reducible first | refine all_leaf ?_ | (show within _ _ = true; with_unfolding_all exact rfl) | (show Act.among _ _; with_unfolding_all exact tb rfl) | refine (pulse_kinds ..).mono ?_ | refine (updPort_kinds ..).mono ?_ | exact all_skip_i | refine all_cons ?_ ?_ | exact all_nil | refine all_seq_i ?_ ?_ | refine all_read_i fun _ => ?_ | refine all_when_i ?_ | refine all_each_i fun _ => ?_ | refine all_ifSome_i fun _ => ?_ | split | dsimp only | contradiction

theorem wupRetry_kinds (p : Nat) : Prog.All (Act.among 0x410000000000000000000000000000000000000100000000000000000000000000000000000000140000050) (wupRetry p) := by
  unfold wupRetry
  repeat' with_reducible first | refine all_leaf ?_ | (show within _ _ = true; with_unfolding_all exact rfl) | (show Act.among _ _; with_unfolding_all exact tb rfl) | refine (pulse_kinds ..).mono ?_ | refine raise_kinds _ _ (by exact tb rfl) ?_ | refine (updPort_kinds ..).mono ?_ | (show Nat.testBit _ _ = true; exact tb rfl) | (show lies _ _; (try dsimp only [F.PORT_PARTNER_FLAGS_valid]); first | refine lies_WAKE_EVENT ?_ | split) | exact all_skip_i | refine all_cons ?_ ?_ | exact all_nil | refine all_seq_i ?_ ?_ | refine all_read_i fun _ => ?_ | refine all_when_i ?_ | refine all_each_i fun _ => ?_ | refine all_ifSome_i fun _ => ?_ | split | dsimp only | contradiction

end Sys2Proof.Machine
end

