-- ==== Sys2Proof/Laws/KindsCare.lean ====
section
/-!
SUPPORT. What each operation can touch. Moulds, segments, anneals, diagnostics, commits.
-/
set_option Elab.async false
namespace Sys2Proof.Machine

set_option linter.unusedTactic false
set_option linter.unreachableTactic false

theorem loadFails_kinds (b : BadMould) (src : Nat) : Prog.All (Act.among 0xC00000000000000000000000000000000040000000) (loadFails b src) := by
  unfold loadFails
  repeat' with_reducible first | refine all_leaf ?_ | (show within _ _ = true; with_unfolding_all exact rfl) | (show Act.among _ _; with_unfolding_all exact tb rfl) | refine (emit_kinds ..).mono ?_ | refine setF_kinds _ _ ?_ | (show Nat.testBit _ _ = true; exact tb rfl) | (show lies _ _; (try dsimp only [F.MLD_ERR_DETAIL_record, F.MLD_ERR_DETAIL_section, F.MLD_STATUS_err, F.MLD_STATUS_src]); first | refine lies_MLD_STATUS ?_ | refine lies_MLD_ERR_DETAIL ?_ | split) | exact all_skip_i | refine all_cons ?_ ?_ | exact all_nil | refine all_seq_i ?_ ?_ | refine all_read_i fun _ => ?_ | refine all_when_i ?_ | refine all_each_i fun _ => ?_ | refine all_ifSome_i fun _ => ?_ | split | dsimp only | contradiction

theorem loadEnds_kinds : Prog.All (Act.among 0x410000000000000000000000000000000000000000810) (loadEnds) := by
  unfold loadEnds
  repeat' with_reducible first | refine all_leaf ?_ | (show within _ _ = true; with_unfolding_all exact rfl) | (show Act.among _ _; with_unfolding_all exact tb rfl) | refine raise_kinds _ _ (by exact tb rfl) ?_ | refine setF_kinds _ _ ?_ | refine (updMld_kinds ..).mono ?_ | (show Nat.testBit _ _ = true; exact tb rfl) | (show lies _ _; (try dsimp only [F.MLD_LOAD_CTL_start]); first | refine lies_MLD_LOAD_CTL ?_ | refine lies_MLD_EVENT ?_ | split) | exact all_skip_i | refine all_cons ?_ ?_ | exact all_nil | refine all_seq_i ?_ ?_ | refine all_read_i fun _ => ?_ | refine all_when_i ?_ | refine all_each_i fun _ => ?_ | refine all_ifSome_i fun _ => ?_ | split | dsimp only | contradiction

theorem loadSlots_kinds (slots : List Nat) : Prog.All (Act.among 0x10400000000000000000000000000000000000000800) (loadSlots slots) := by
  unfold loadSlots
  repeat' with_reducible first | refine all_leaf ?_ | (show within _ _ = true; with_unfolding_all exact rfl) | (show Act.among _ _; with_unfolding_all exact tb rfl) | refine setF_kinds _ _ ?_ | refine (updMld_kinds ..).mono ?_ | (show Nat.testBit _ _ = true; exact tb rfl) | (show lies _ _; (try dsimp only [F.MLD_LOAD_CTL_start, F.MLD_STATUS_state]); first | refine lies_MLD_STATUS ?_ | refine lies_MLD_LOAD_CTL ?_ | split) | exact all_skip_i | refine all_cons ?_ ?_ | exact all_nil | refine all_seq_i ?_ ?_ | refine all_read_i fun _ => ?_ | refine all_when_i ?_ | refine all_each_i fun _ => ?_ | refine all_ifSome_i fun _ => ?_ | split | dsimp only | contradiction

theorem mouldColdLoad_kinds : Prog.All (Act.among 0x410C00000000000000000000000000000000040000810) (mouldColdLoad) := by
  unfold mouldColdLoad
  repeat' with_reducible first | refine all_leaf ?_ | (show within _ _ = true; with_unfolding_all exact rfl) | (show Act.among _ _; with_unfolding_all exact tb rfl) | refine loadEnds_kinds.mono ?_ | refine (loadFails_kinds ..).mono ?_ | refine (loadSlots_kinds ..).mono ?_ | refine setF_kinds _ _ ?_ | (show Nat.testBit _ _ = true; exact tb rfl) | (show lies _ _; (try dsimp only [F.MLD_STATUS_state]); first | refine lies_MLD_STATUS ?_ | split) | exact all_skip_i | refine all_cons ?_ ?_ | exact all_nil | refine all_seq_i ?_ ?_ | refine all_read_i fun _ => ?_ | refine all_when_i ?_ | refine all_each_i fun _ => ?_ | refine all_ifSome_i fun _ => ?_ | split | dsimp only | contradiction

theorem mouldLoadStart_kinds (path kind : Nat) (start : Bool) : Prog.All (Act.among 0x10400000000000000000000000000000000140000800) (mouldLoadStart path kind start) := by
  unfold mouldLoadStart
  repeat' with_reducible first | refine all_leaf ?_ | (show within _ _ = true; with_unfolding_all exact rfl) | (show Act.among _ _; with_unfolding_all exact tb rfl) | refine (denied_kinds ..).mono ?_ | refine (send_kinds ..).mono ?_ | refine setF_kinds _ _ ?_ | refine (updMld_kinds ..).mono ?_ | (show Nat.testBit _ _ = true; exact tb rfl) | (show lies _ _; (try dsimp only [F.MLD_LOAD_CTL_kind, F.MLD_LOAD_CTL_start, F.MLD_STATUS_state]); first | refine lies_MLD_STATUS ?_ | refine lies_MLD_LOAD_CTL ?_ | split) | exact all_skip_i | refine all_cons ?_ ?_ | exact all_nil | refine all_seq_i ?_ ?_ | refine all_read_i fun _ => ?_ | refine all_when_i ?_ | refine all_each_i fun _ => ?_ | refine all_ifSome_i fun _ => ?_ | split | dsimp only | contradiction

theorem writeBanks_kinds : Prog.All (Act.among 0x10000) (writeBanks) := by
  unfold writeBanks
  repeat' with_reducible first | refine all_leaf ?_ | (show within _ _ = true; with_unfolding_all exact rfl) | (show Act.among _ _; with_unfolding_all exact tb rfl) | exact all_skip_i | refine all_cons ?_ ?_ | exact all_nil | refine all_seq_i ?_ ?_ | refine all_read_i fun _ => ?_ | refine all_when_i ?_ | refine all_each_i fun _ => ?_ | refine all_ifSome_i fun _ => ?_ | split | dsimp only | contradiction

theorem installMould_kinds (l : List Byte) (secs : List (Nat × List Byte)) (src : Nat) : Prog.All (Act.among 0x1102200006000000000026C0003C38070E0008E40000000000000000000004040EF9007F6002108C400000000000001100000000100050812) (installMould l secs src) := by
  unfold installMould
  repeat' with_reducible first | refine all_leaf ?_ | (show within _ _ = true; with_unfolding_all exact rfl) | (show Act.among _ _; with_unfolding_all exact tb rfl) | refine deriveAll_kinds.mono ?_ | refine deriveKeys_kinds.mono ?_ | refine raise_kinds _ _ (by exact tb rfl) ?_ | refine setF_kinds _ _ ?_ | refine setReg_kinds _ _ ?_ | refine setWide_kinds _ _ _ ?_ | refine (updMld_kinds ..).mono ?_ | refine lies_AON_MOULD_DIGEST_words ?_ (by decide) | (show Nat.testBit _ _ = true; exact tb rfl) | (show lies _ _; (try dsimp only [F.GLB_MODE_deputy, F.GLB_MODE_holder, F.GLB_MODE_mould_ok, F.MLD_STATUS_err]); first | refine lies_GLB_MODE ?_ | refine lies_GLB_EVENT ?_ | refine lies_MLD_STATUS ?_ | refine lies_MLD_ERR_DETAIL ?_ | refine lies_AON_MOULD_DIGEST ?_ | refine lies_AON_MOULD_DIGEST_at ?_ (by decide) (by decide) | split) | exact all_skip_i | refine all_cons ?_ ?_ | exact all_nil | refine all_seq_i ?_ ?_ | refine all_read_i fun _ => ?_ | refine all_when_i ?_ | refine all_each_i fun _ => ?_ | refine all_ifSome_i fun _ => ?_ | split | dsimp only | contradiction

theorem underive_kinds : Prog.All (Act.among 0x40000004000000000000000000000000008F100340000000000000000000000010800000000000001E) (underive) := by
  unfold underive
  repeat' with_reducible first | refine all_leaf ?_ | (show within _ _ = true; with_unfolding_all exact rfl) | (show Act.among _ _; with_unfolding_all exact tb rfl) | refine (resetRange_kinds ..).mono ?_ | refine resetReg_kinds _ (by exact tb rfl) (by exact tb rfl) ?_ | refine setF_kinds _ _ ?_ | refine lies_MLD_ACTIVE_GEN_words ?_ (by decide) | (show Nat.testBit _ _ = true; exact tb rfl) | (show lies _ _; (try dsimp only [F.GLB_MODE_deputy, F.GLB_MODE_holder, F.GLB_MODE_steward, F.HEAD_STAT_deputy, F.HEAD_STAT_steward, F.MLD_ACTIVE_GEN_full_gen, F.MLD_ACTIVE_GEN_partial_gen, F.MLD_GOV_STEP_step_us, F.MLD_GOV_TIME_freq_ppb, F.MLD_GOV_TIME_interval_ms, F.MLD_GOV_WAKE_spacing_ms, F.MLD_KEYS_used, F.MLD_STATUS_state, F.MLD_WARN_head_over]); first | refine lies_GLB_MODE ?_ | refine lies_MLD_STATUS ?_ | refine lies_MLD_WARN ?_ | refine lies_MLD_ACTIVE_GEN ?_ | refine lies_MLD_ACTIVE_GEN_at ?_ (by decide) (by decide) | refine lies_MLD_KEYS ?_ | refine lies_MLD_GOV_AMP ?_ | refine lies_MLD_GOV_WAKE ?_ | refine lies_MLD_GOV_TIME ?_ | refine lies_MLD_GOV_STEP ?_ | refine lies_MLD_GOV_WIN_FLAGS ?_ | refine lies_HEAD_STAT ?_ | refine lies_CANE_CFG ?_ | refine lies_any ?_ | split) | exact all_skip_i | refine all_cons ?_ ?_ | exact all_nil | refine all_seq_i ?_ ?_ | refine all_read_i fun _ => ?_ | refine all_when_i ?_ | refine all_each_i fun _ => ?_ | refine all_ifSome_i fun _ => ?_ | split | dsimp only | contradiction

theorem turnCold_kinds : Prog.All (Act.among 0x110222200E4300003CA3A78106BC78975E0008E4000000000000000000C014040EF900776002148C400000040000000108000000342003FDE) (turnCold) := by
  unfold turnCold
  repeat' with_reducible first | refine all_leaf ?_ | (show within _ _ = true; with_unfolding_all exact rfl) | (show Act.among _ _; with_unfolding_all exact tb rfl) | refine deriveAll_kinds.mono ?_ | refine setF_kinds _ _ ?_ | refine (toDisabled_kinds ..).mono ?_ | refine underive_kinds.mono ?_ | refine (updFur_kinds ..).mono ?_ | refine (updMld_kinds ..).mono ?_ | refine (updPower_kinds ..).mono ?_ | (show Nat.testBit _ _ = true; exact tb rfl) | (show lies _ _; (try dsimp only [F.AON_MODE_start_kind, F.AON_RET_SEAL_valid, F.AON_START_CTL_force_cold, F.AON_START_STAT_warm_fails, F.CAL_STAT_anneal, F.GLB_MODE_mould_ok, F.GLB_MODE_start_kind, F.RST_CAUSE_start_kind]); first | refine lies_GLB_MODE ?_ | refine lies_RST_CAUSE ?_ | refine lies_CAL_STAT ?_ | refine lies_AON_MODE ?_ | refine lies_AON_START_CTL ?_ | refine lies_AON_START_STAT ?_ | refine lies_AON_RET_SEAL ?_ | refine lies_any ?_ | split) | exact all_skip_i | refine all_cons ?_ ?_ | exact all_nil | refine all_seq_i ?_ ?_ | refine all_read_i fun _ => ?_ | refine all_when_i ?_ | refine all_each_i fun _ => ?_ | refine all_ifSome_i fun _ => ?_ | split | dsimp only | contradiction

theorem mouldLoadDone_kinds (readOk : Bool) (host : List Byte) : Prog.All (Act.among 0x110222200E4300003CA3A7C106BC78975E0008E4000000000000000000C214040EF9417F6002148C400000040000001108000000342053FDE) (mouldLoadDone readOk host) := by
  unfold mouldLoadDone
  repeat' with_reducible first | refine all_leaf ?_ | (show within _ _ = true; with_unfolding_all exact rfl) | (show Act.among _ _; with_unfolding_all exact tb rfl) | refine (installMould_kinds ..).mono ?_ | refine loadEnds_kinds.mono ?_ | refine (loadFails_kinds ..).mono ?_ | refine (loadSlots_kinds ..).mono ?_ | refine mouldColdLoad_kinds.mono ?_ | refine raise_kinds _ _ (by exact tb rfl) ?_ | refine setF_kinds _ _ ?_ | refine turnCold_kinds.mono ?_ | refine verifyBegin_kinds.mono ?_ | (show Nat.testBit _ _ = true; exact tb rfl) | (show lies _ _; (try dsimp only [F.GLB_STRAPS_headcfg, F.MLD_STATUS_state]); first | refine lies_MLD_STATUS ?_ | refine lies_MLD_EVENT ?_ | refine lies_any ?_ | split) | exact all_skip_i | refine all_cons ?_ ?_ | exact all_nil | refine all_seq_i ?_ ?_ | refine all_read_i fun _ => ?_ | refine all_when_i ?_ | refine all_each_i fun _ => ?_ | refine all_ifSome_i fun _ => ?_ | split | dsimp only | contradiction

theorem mouldReload_kinds : Prog.All (Act.among 0x110222200E4300003CA3A78106BC78975E0008E4000000000000000000C014040EF9417F6002148C400000040000000108000000342003FDE) (mouldReload) := by
  unfold mouldReload
  repeat' with_reducible first | refine all_leaf ?_ | (show within _ _ = true; with_unfolding_all exact rfl) | (show Act.among _ _; with_unfolding_all exact tb rfl) | refine (loadSlots_kinds ..).mono ?_ | refine mouldColdLoad_kinds.mono ?_ | refine turnCold_kinds.mono ?_ | refine (updMld_kinds ..).mono ?_ | (show Nat.testBit _ _ = true; exact tb rfl) | (show lies _ _; first | refine lies_any ?_ | split) | exact all_skip_i | refine all_cons ?_ ?_ | exact all_nil | refine all_seq_i ?_ ?_ | refine all_read_i fun _ => ?_ | refine all_when_i ?_ | refine all_each_i fun _ => ?_ | refine all_ifSome_i fun _ => ?_ | split | dsimp only | contradiction

theorem refusedMould_kinds (b : BadMould) : Prog.All (Act.among 0x400000000000000000000000000000000000040000010) (refusedMould b) := by
  unfold refusedMould
  repeat' with_reducible first | refine all_leaf ?_ | (show within _ _ = true; with_unfolding_all exact rfl) | (show Act.among _ _; with_unfolding_all exact tb rfl) | refine (emit_kinds ..).mono ?_ | refine raise_kinds _ _ (by exact tb rfl) ?_ | (show Nat.testBit _ _ = true; exact tb rfl) | (show lies _ _; first | refine lies_MLD_EVENT ?_ | split) | exact all_skip_i | refine all_cons ?_ ?_ | exact all_nil | refine all_seq_i ?_ ?_ | refine all_read_i fun _ => ?_ | refine all_when_i ?_ | refine all_each_i fun _ => ?_ | refine all_ifSome_i fun _ => ?_ | split | dsimp only | contradiction

theorem remouldRefused_kinds (b : BadMould) : Prog.All (Act.among 0x480800000000000000000000000000000000040000010) (remouldRefused b) := by
  unfold remouldRefused
  repeat' with_reducible first | refine all_leaf ?_ | (show within _ _ = true; with_unfolding_all exact rfl) | (show Act.among _ _; with_unfolding_all exact tb rfl) | refine (refusedMould_kinds ..).mono ?_ | refine setF_kinds _ _ ?_ | (show Nat.testBit _ _ = true; exact tb rfl) | (show lies _ _; (try dsimp only [F.MLD_ERR_DETAIL_record, F.MLD_ERR_DETAIL_section, F.MLD_REMOULD_STAT_err, F.MLD_REMOULD_STAT_state]); first | refine lies_MLD_ERR_DETAIL ?_ | refine lies_MLD_REMOULD_STAT ?_ | split) | exact all_skip_i | refine all_cons ?_ ?_ | exact all_nil | refine all_seq_i ?_ ?_ | refine all_read_i fun _ => ?_ | refine all_when_i ?_ | refine all_each_i fun _ => ?_ | refine all_ifSome_i fun _ => ?_ | split | dsimp only | contradiction

theorem remouldStart_kinds (kind cg hold : Nat) : Prog.All (Act.among 0x4C0800000000000000000000000000000000040000810) (remouldStart kind cg hold) := by
  unfold remouldStart
  repeat' with_reducible first | refine all_leaf ?_ | (show within _ _ = true; with_unfolding_all exact rfl) | (show Act.among _ _; with_unfolding_all exact tb rfl) | refine (refusedMould_kinds ..).mono ?_ | refine (remouldRefused_kinds ..).mono ?_ | refine setF_kinds _ _ ?_ | refine (updMld_kinds ..).mono ?_ | (show Nat.testBit _ _ = true; exact tb rfl) | (show lies _ _; (try dsimp only [F.MLD_ADOPT_STAT_state, F.MLD_REMOULD_CTL_cg, F.MLD_REMOULD_CTL_hold_ms, F.MLD_REMOULD_CTL_kind, F.MLD_REMOULD_STAT_err, F.MLD_REMOULD_STAT_state]); first | refine lies_MLD_REMOULD_CTL ?_ | refine lies_MLD_REMOULD_STAT ?_ | split) | exact all_skip_i | refine all_cons ?_ ?_ | exact all_nil | refine all_seq_i ?_ ?_ | refine all_read_i fun _ => ?_ | refine all_when_i ?_ | refine all_each_i fun _ => ?_ | refine all_ifSome_i fun _ => ?_ | split | dsimp only | contradiction

theorem remouldCheckDone_kinds (readOk : Bool) : Prog.All (Act.among 0x480800000000000000000000000000000000040000810) (remouldCheckDone readOk) := by
  unfold remouldCheckDone
  repeat' with_reducible first | refine all_leaf ?_ | (show within _ _ = true; with_unfolding_all exact rfl) | (show Act.among _ _; with_unfolding_all exact tb rfl) | refine (remouldRefused_kinds ..).mono ?_ | refine setF_kinds _ _ ?_ | refine (updMld_kinds ..).mono ?_ | (show Nat.testBit _ _ = true; exact tb rfl) | (show lies _ _; (try dsimp only [F.GLB_STRAPS_headcfg, F.MLD_REMOULD_STAT_state]); first | refine lies_MLD_REMOULD_STAT ?_ | split) | exact all_skip_i | refine all_cons ?_ ?_ | exact all_nil | refine all_seq_i ?_ ?_ | refine all_read_i fun _ => ?_ | refine all_when_i ?_ | refine all_each_i fun _ => ?_ | refine all_ifSome_i fun _ => ?_ | split | dsimp only | contradiction

theorem leaveStaged_kinds (st : Nat) (ps : List Nat) : Prog.All (Act.among 0x220084300003CA381800041409250000000000000000000000000C000000100080000000404000000000000000000000000340003FD0) (leaveStaged st ps) := by
  unfold leaveStaged
  repeat' with_reducible first | refine all_leaf ?_ | (show within _ _ = true; with_unfolding_all exact rfl) | (show Act.among _ _; with_unfolding_all exact tb rfl) | refine setF_kinds _ _ ?_ | refine (tryLeave_kinds ..).mono ?_ | refine (updMld_kinds ..).mono ?_ | refine (wakeServe_kinds ..).mono ?_ | (show Nat.testBit _ _ = true; exact tb rfl) | (show lies _ _; (try dsimp only [F.MLD_REMOULD_STAT_state]); first | refine lies_MLD_REMOULD_STAT ?_ | split) | exact all_skip_i | refine all_cons ?_ ?_ | exact all_nil | refine all_seq_i ?_ ?_ | refine all_read_i fun _ => ?_ | refine all_when_i ?_ | refine all_each_i fun _ => ?_ | refine all_ifSome_i fun _ => ?_ | split | dsimp only | contradiction

theorem remouldExpire_kinds : Prog.All (Act.among 0x220084300003CA381800041409250000000000000000000000000C000000100480000000404000000000000000000000000340003FD0) (remouldExpire) := by
  unfold remouldExpire
  repeat' with_reducible first | refine all_leaf ?_ | (show within _ _ = true; with_unfolding_all exact rfl) | (show Act.among _ _; with_unfolding_all exact tb rfl) | refine (leaveStaged_kinds ..).mono ?_ | refine raise_kinds _ _ (by exact tb rfl) ?_ | (show Nat.testBit _ _ = true; exact tb rfl) | (show lies _ _; (try dsimp only [F.MLD_REMOULD_STAT_state]); first | refine lies_MLD_EVENT ?_ | split) | exact all_skip_i | refine all_cons ?_ ?_ | exact all_nil | refine all_seq_i ?_ ?_ | refine all_read_i fun _ => ?_ | refine all_when_i ?_ | refine all_each_i fun _ => ?_ | refine all_ifSome_i fun _ => ?_ | split | dsimp only | contradiction

theorem remouldCancel_kinds : Prog.All (Act.among 0x220084300003CA381800041409250000000000000000000000000C000000100480000000404000000000000000000000000340003FD0) (remouldCancel) := by
  unfold remouldCancel
  repeat' with_reducible first | refine all_leaf ?_ | (show within _ _ = true; with_unfolding_all exact rfl) | (show Act.among _ _; with_unfolding_all exact tb rfl) | refine (leaveStaged_kinds ..).mono ?_ | refine raise_kinds _ _ (by exact tb rfl) ?_ | (show Nat.testBit _ _ = true; exact tb rfl) | (show lies _ _; (try dsimp only [F.MLD_REMOULD_STAT_state]); first | refine lies_MLD_EVENT ?_ | split) | exact all_skip_i | refine all_cons ?_ ?_ | exact all_nil | refine all_seq_i ?_ ?_ | refine all_read_i fun _ => ?_ | refine all_when_i ?_ | refine all_each_i fun _ => ?_ | refine all_ifSome_i fun _ => ?_ | split | dsimp only | contradiction

theorem adoptStart_kinds (slot : Nat) : Prog.All (Act.among 0x300000000000000000000000000000000000000000800) (adoptStart slot) := by
  unfold adoptStart
  repeat' with_reducible first | refine all_leaf ?_ | (show within _ _ = true; with_unfolding_all exact rfl) | (show Act.among _ _; with_unfolding_all exact tb rfl) | refine setF_kinds _ _ ?_ | refine (updMld_kinds ..).mono ?_ | (show Nat.testBit _ _ = true; exact tb rfl) | (show lies _ _; (try dsimp only [F.MLD_ADOPT_CTL_slot, F.MLD_ADOPT_STAT_err, F.MLD_ADOPT_STAT_state]); first | refine lies_MLD_ADOPT_CTL ?_ | refine lies_MLD_ADOPT_STAT ?_ | split) | exact all_skip_i | refine all_cons ?_ ?_ | exact all_nil | refine all_seq_i ?_ ?_ | refine all_read_i fun _ => ?_ | refine all_when_i ?_ | refine all_each_i fun _ => ?_ | refine all_ifSome_i fun _ => ?_ | split | dsimp only | contradiction

theorem adoptCheckDone_kinds (readOk : Bool) : Prog.All (Act.among 0x600800000000000000000000000000000000040000810) (adoptCheckDone readOk) := by
  unfold adoptCheckDone
  repeat' with_reducible first | refine all_leaf ?_ | (show within _ _ = true; with_unfolding_all exact rfl) | (show Act.among _ _; with_unfolding_all exact tb rfl) | refine raise_kinds _ _ (by exact tb rfl) ?_ | refine (refusedMould_kinds ..).mono ?_ | refine setF_kinds _ _ ?_ | refine (updMld_kinds ..).mono ?_ | (show Nat.testBit _ _ = true; exact tb rfl) | (show lies _ _; (try dsimp only [F.GLB_STRAPS_headcfg, F.MLD_ADOPT_STAT_err, F.MLD_ADOPT_STAT_heads_left, F.MLD_ADOPT_STAT_state, F.MLD_ERR_DETAIL_record, F.MLD_ERR_DETAIL_section]); first | refine lies_MLD_ERR_DETAIL ?_ | refine lies_MLD_ADOPT_STAT ?_ | refine lies_MLD_EVENT ?_ | split) | exact all_skip_i | refine all_cons ?_ ?_ | exact all_nil | refine all_seq_i ?_ ?_ | refine all_read_i fun _ => ?_ | refine all_when_i ?_ | refine all_each_i fun _ => ?_ | refine all_ifSome_i fun _ => ?_ | split | dsimp only | contradiction

theorem adoptFinish_kinds : Prog.All (Act.among 0x4000000000000000300000000000000000000000000EF9607400000000000000000000000000000000000010810) (adoptFinish) := by
  unfold adoptFinish
  repeat' with_reducible first | refine all_leaf ?_ | (show within _ _ = true; with_unfolding_all exact rfl) | (show Act.among _ _; with_unfolding_all exact tb rfl) | refine deriveCls_kinds.mono ?_ | refine deriveMld_kinds.mono ?_ | refine raise_kinds _ _ (by exact tb rfl) ?_ | refine setF_kinds _ _ ?_ | refine setReg_kinds _ _ ?_ | refine setWide_kinds _ _ _ ?_ | refine (updMld_kinds ..).mono ?_ | refine writeBanks_kinds.mono ?_ | refine lies_AON_MOULD_DIGEST_words ?_ (by decide) | (show Nat.testBit _ _ = true; exact tb rfl) | (show lies _ _; (try dsimp only [F.MLD_ADOPT_STAT_heads_left, F.MLD_ADOPT_STAT_state]); first | refine lies_MLD_ADOPT_STAT ?_ | refine lies_MLD_EVENT ?_ | refine lies_PKT_CLS_HIT ?_ | refine lies_AON_MOULD_DIGEST ?_ | refine lies_AON_MOULD_DIGEST_at ?_ (by decide) (by decide) | split) | exact all_skip_i | refine all_cons ?_ ?_ | exact all_nil | refine all_seq_i ?_ ?_ | refine all_read_i fun _ => ?_ | refine all_when_i ?_ | refine all_each_i fun _ => ?_ | refine all_ifSome_i fun _ => ?_ | split | dsimp only | contradiction

theorem adoptHead_kinds (h : Nat) : Prog.All (Act.among 0x40000000000000000000000000000200000000000000000000000000000000000000000800) (adoptHead h) := by
  unfold adoptHead
  repeat' with_reducible first | refine all_leaf ?_ | (show within _ _ = true; with_unfolding_all exact rfl) | (show Act.among _ _; with_unfolding_all exact tb rfl) | refine (derivePortDef_kinds ..).mono ?_ | refine setF_kinds _ _ ?_ | refine (updMld_kinds ..).mono ?_ | (show Nat.testBit _ _ = true; exact tb rfl) | (show lies _ _; (try dsimp only [F.MLD_ADOPT_STAT_heads_left, F.MLD_ADOPT_STAT_state]); first | refine lies_MLD_ADOPT_STAT ?_ | split) | exact all_skip_i | refine all_cons ?_ ?_ | exact all_nil | refine all_seq_i ?_ ?_ | refine all_read_i fun _ => ?_ | refine all_when_i ?_ | refine all_each_i fun _ => ?_ | refine all_ifSome_i fun _ => ?_ | split | dsimp only | contradiction

theorem keyProgStart_kinds (slot : Nat) (start : Bool) : Prog.All (Act.among 0x4000000000000000000000000000000000000000000000) (keyProgStart slot start) := by
  unfold keyProgStart
  repeat' with_reducible first | refine all_leaf ?_ | (show within _ _ = true; with_unfolding_all exact rfl) | (show Act.among _ _; with_unfolding_all exact tb rfl) | refine setF_kinds _ _ ?_ | (show Nat.testBit _ _ = true; exact tb rfl) | (show lies _ _; (try dsimp only [F.MLD_KEY_PROG_CTL_result, F.MLD_KEY_PROG_CTL_slot, F.MLD_KEY_PROG_CTL_start]); first | refine lies_MLD_KEY_PROG_CTL ?_ | split) | exact all_skip_i | refine all_cons ?_ ?_ | exact all_nil | refine all_seq_i ?_ ?_ | refine all_read_i fun _ => ?_ | refine all_when_i ?_ | refine all_each_i fun _ => ?_ | refine all_ifSome_i fun _ => ?_ | split | dsimp only | contradiction

theorem keyProgDone_kinds (verified : Bool) : Prog.All (Act.among 0x5000000000000000000000000000000000000000040000) (keyProgDone verified) := by
  unfold keyProgDone
  repeat' with_reducible first | refine all_leaf ?_ | (show within _ _ = true; with_unfolding_all exact rfl) | (show Act.among _ _; with_unfolding_all exact tb rfl) | refine deriveKeys_kinds.mono ?_ | refine setF_kinds _ _ ?_ | (show Nat.testBit _ _ = true; exact tb rfl) | (show lies _ _; (try dsimp only [F.MLD_KEY_PROG_CTL_result, F.MLD_KEY_PROG_CTL_slot, F.MLD_KEY_PROG_CTL_start]); first | refine lies_MLD_KEY_PROG_CTL ?_ | split) | exact all_skip_i | refine all_cons ?_ ?_ | exact all_nil | refine all_seq_i ?_ ?_ | refine all_read_i fun _ => ?_ | refine all_when_i ?_ | refine all_each_i fun _ => ?_ | refine all_ifSome_i fun _ => ?_ | split | dsimp only | contradiction

theorem segUp_kinds (p : Nat) (plca : Bool) : Prog.All (Act.among 0x80000002080010000000000000000000000000000000000000000000000000000000000000000000000000000000000000000010) (segUp p plca) := by
  unfold segUp
  repeat' with_reducible first | refine all_leaf ?_ | (show within _ _ = true; with_unfolding_all exact rfl) | (show Act.among _ _; with_unfolding_all exact tb rfl) | refine raise_kinds _ _ (by exact tb rfl) ?_ | refine setF_kinds _ _ ?_ | refine (setMode_kinds ..).mono ?_ | (show Nat.testBit _ _ = true; exact tb rfl) | (show lies _ _; (try dsimp only [F.PORT_SEG_STAT_beacon_ok, F.PORT_SEG_STAT_csma, F.PORT_SEG_STAT_plca_active, F.PORT_STATE_fail_count, F.PORT_STATE_state]); first | refine lies_PORT_STATE ?_ | refine lies_PORT_EVENT ?_ | refine lies_PORT_SEG_STAT ?_ | split) | exact all_skip_i | refine all_cons ?_ ?_ | exact all_nil | refine all_seq_i ?_ ?_ | refine all_read_i fun _ => ?_ | refine all_when_i ?_ | refine all_each_i fun _ => ?_ | refine all_ifSome_i fun _ => ?_ | split | dsimp only | contradiction

theorem segWaitEnd_kinds (p : Nat) : Prog.All (Act.among 0x80000002080010000000000000000000000000000000000000000000000000000000000000000000000000000000000000000050) (segWaitEnd p) := by
  unfold segWaitEnd
  repeat' with_reducible first | refine all_leaf ?_ | (show within _ _ = true; with_unfolding_all exact rfl) | (show Act.among _ _; with_unfolding_all exact tb rfl) | refine (noMode_kinds ..).mono ?_ | refine (segUp_kinds ..).mono ?_ | refine (updPort_kinds ..).mono ?_ | exact all_skip_i | refine all_cons ?_ ?_ | exact all_nil | refine all_seq_i ?_ ?_ | refine all_read_i fun _ => ?_ | refine all_when_i ?_ | refine all_each_i fun _ => ?_ | refine all_ifSome_i fun _ => ?_ | split | dsimp only | contradiction

theorem serveLatched_kinds (p : Nat) : Prog.All (Act.among 0x410000000000000000000000000000000000000100000000000000000000000000000000000000140000050) (serveLatched p) := by
  unfold serveLatched
  repeat' with_reducible first | refine all_leaf ?_ | (show within _ _ = true; with_unfolding_all exact rfl) | (show Act.among _ _; with_unfolding_all exact tb rfl) | refine (pulse_kinds ..).mono ?_ | refine (updPort_kinds ..).mono ?_ | exact all_skip_i | refine all_cons ?_ ?_ | exact all_nil | refine all_seq_i ?_ ?_ | refine all_read_i fun _ => ?_ | refine all_when_i ?_ | refine all_each_i fun _ => ?_ | refine all_ifSome_i fun _ => ?_ | split | dsimp only | contradiction

theorem anyWaitEnd_kinds (p : Nat) : Prog.All (Act.among 0x220084380003CA381800041409250000000000000000000000000C0000001000000000004040000000000000000000000003400037D0) (anyWaitEnd p) := by
  unfold anyWaitEnd
  repeat' with_reducible first | refine all_leaf ?_ | (show within _ _ = true; with_unfolding_all exact rfl) | (show Act.among _ _; with_unfolding_all exact tb rfl) | refine (listenWaitEnd_kinds ..).mono ?_ | refine (segWaitEnd_kinds ..).mono ?_ | refine (serveLatched_kinds ..).mono ?_ | exact all_skip_i | refine all_cons ?_ ?_ | exact all_nil | refine all_seq_i ?_ ?_ | refine all_read_i fun _ => ?_ | refine all_when_i ?_ | refine all_each_i fun _ => ?_ | refine all_ifSome_i fun _ => ?_ | split | dsimp only | contradiction

theorem segCycle_kinds (p us : Nat) : Prog.All (Act.among 0x100000000000000000000000000000000000000000000000000000000000000000000000000000000000000000000000000000000) (segCycle p us) := by
  unfold segCycle
  repeat' with_reducible first | refine all_leaf ?_ | (show within _ _ = true; with_unfolding_all exact rfl) | (show Act.among _ _; with_unfolding_all exact tb rfl) | refine setF_kinds _ _ ?_ | (show Nat.testBit _ _ = true; exact tb rfl) | (show lies _ _; (try dsimp only [F.PORT_SEG_CYCLE_last_us, F.PORT_SEG_CYCLE_max_us, F.PORT_SEG_STAT_plca_active]); first | refine lies_PORT_SEG_CYCLE ?_ | split) | exact all_skip_i | refine all_cons ?_ ?_ | exact all_nil | refine all_seq_i ?_ ?_ | refine all_read_i fun _ => ?_ | refine all_when_i ?_ | refine all_each_i fun _ => ?_ | refine all_ifSome_i fun _ => ?_ | split | dsimp only | contradiction

theorem beaconReceived_kinds (p us : Nat) : Prog.All (Act.among 0x180000002080010000000000000000000000000000000000000000000000000000000000000000000000000000000000000000050) (beaconReceived p us) := by
  unfold beaconReceived
  repeat' with_reducible first | refine all_leaf ?_ | (show within _ _ = true; with_unfolding_all exact rfl) | (show Act.among _ _; with_unfolding_all exact tb rfl) | refine (segCycle_kinds ..).mono ?_ | refine (segUp_kinds ..).mono ?_ | refine setF_kinds _ _ ?_ | refine (updPort_kinds ..).mono ?_ | (show Nat.testBit _ _ = true; exact tb rfl) | (show lies _ _; (try dsimp only [F.PORT_SEG_CFG_coordinator, F.PORT_SEG_CFG_plca_en, F.PORT_SEG_STAT_beacon_ok, F.PORT_SEG_STAT_csma, F.PORT_SEG_STAT_plca_active]); first | refine lies_PORT_SEG_STAT ?_ | split) | exact all_skip_i | refine all_cons ?_ ?_ | exact all_nil | refine all_seq_i ?_ ?_ | refine all_read_i fun _ => ?_ | refine all_when_i ?_ | refine all_each_i fun _ => ?_ | refine all_ifSome_i fun _ => ?_ | split | dsimp only | contradiction

theorem plcaCycleStart_kinds (p us : Nat) : Prog.All (Act.among 0x180000002080010000000000000000000000000000000000000000000000000000000000000000000000000000000000100000050) (plcaCycleStart p us) := by
  unfold plcaCycleStart
  repeat' with_reducible first | refine all_leaf ?_ | (show within _ _ = true; with_unfolding_all exact rfl) | (show Act.among _ _; with_unfolding_all exact tb rfl) | refine (segCycle_kinds ..).mono ?_ | refine (segUp_kinds ..).mono ?_ | refine (send_kinds ..).mono ?_ | refine (updPort_kinds ..).mono ?_ | exact all_skip_i | refine all_cons ?_ ?_ | exact all_nil | refine all_seq_i ?_ ?_ | refine all_read_i fun _ => ?_ | refine all_when_i ?_ | refine all_each_i fun _ => ?_ | refine all_ifSome_i fun _ => ?_ | split | dsimp only | contradiction

theorem transmitOpportunity_kinds (p : Nat) : Prog.All (Act.among 0x40) (transmitOpportunity p) := by
  unfold transmitOpportunity
  repeat' with_reducible first | refine all_leaf ?_ | (show within _ _ = true; with_unfolding_all exact rfl) | (show Act.among _ _; with_unfolding_all exact tb rfl) | refine (updPort_kinds ..).mono ?_ | exact all_skip_i | refine all_cons ?_ ?_ | exact all_nil | refine all_seq_i ?_ ?_ | refine all_read_i fun _ => ?_ | refine all_when_i ?_ | refine all_each_i fun _ => ?_ | refine all_ifSome_i fun _ => ?_ | split | dsimp only | contradiction

theorem beaconLoss_kinds (p uncLast : Nat) : Prog.All (Act.among 0x224084300003CA381800000409250000000000000000000000000C0000000000000000004040000000000000000000000003400037D0) (beaconLoss p uncLast) := by
  unfold beaconLoss
  repeat' with_reducible first | refine all_leaf ?_ | (show within _ _ = true; with_unfolding_all exact rfl) | (show Act.among _ _; with_unfolding_all exact tb rfl) | refine (portDrop_kinds ..).mono ?_ | refine raise_kinds _ _ (by exact tb rfl) ?_ | refine setF_kinds _ _ ?_ | (show Nat.testBit _ _ = true; exact tb rfl) | (show lies _ _; (try dsimp only [F.PORT_SEG_CFG_coordinator, F.PORT_SEG_CFG_fallback, F.PORT_SEG_STAT_beacon_ok, F.PORT_SEG_STAT_csma, F.PORT_SEG_STAT_plca_active]); first | refine lies_PORT_SEG_STAT ?_ | refine lies_PORT_SEG_EVENT ?_ | split) | exact all_skip_i | refine all_cons ?_ ?_ | exact all_nil | refine all_seq_i ?_ ?_ | refine all_read_i fun _ => ?_ | refine all_when_i ?_ | refine all_each_i fun _ => ?_ | refine all_ifSome_i fun _ => ?_ | split | dsimp only | contradiction

theorem foreignBeacon_kinds (p : Nat) : Prog.All (Act.among 0x4080000000000000000000000000000000000000000000000000000000000000000000000000000000000000000000000000000010) (foreignBeacon p) := by
  unfold foreignBeacon
  repeat' with_reducible first | refine all_leaf ?_ | (show within _ _ = true; with_unfolding_all exact rfl) | (show Act.among _ _; with_unfolding_all exact tb rfl) | refine raise_kinds _ _ (by exact tb rfl) ?_ | refine satAdd_kinds _ _ ?_ | (show Nat.testBit _ _ = true; exact tb rfl) | (show lies _ _; (try dsimp only [F.PORT_SEG_CFG_coordinator, F.PORT_SEG_STAT_foreign_beacons, F.PORT_SEG_STAT_plca_active]); first | refine lies_PORT_SEG_STAT ?_ | refine lies_PORT_SEG_EVENT ?_ | split) | exact all_skip_i | refine all_cons ?_ ?_ | exact all_nil | refine all_seq_i ?_ ?_ | refine all_read_i fun _ => ?_ | refine all_when_i ?_ | refine all_each_i fun _ => ?_ | refine all_ifSome_i fun _ => ?_ | split | dsimp only | contradiction

theorem countSeen_kinds (p : Nat) : Prog.All (Act.among 0x80000000000000000000000000000000000000000000000000000000000000000000000000000000000000000000000000000000) (countSeen p) := by
  unfold countSeen
  repeat' with_reducible first | refine all_leaf ?_ | (show within _ _ = true; with_unfolding_all exact rfl) | (show Act.among _ _; with_unfolding_all exact tb rfl) | refine setF_kinds _ _ ?_ | (show Nat.testBit _ _ = true; exact tb rfl) | (show lies _ _; (try dsimp only [F.PORT_SEG_CENSUS_seen, F.PORT_SEG_STAT_nodes_seen]); first | refine lies_PORT_SEG_STAT ?_ | split) | exact all_skip_i | refine all_cons ?_ ?_ | exact all_nil | refine all_seq_i ?_ ?_ | refine all_read_i fun _ => ?_ | refine all_when_i ?_ | refine all_each_i fun _ => ?_ | refine all_ifSome_i fun _ => ?_ | split | dsimp only | contradiction

theorem censusRecord_kinds (p n sqi : Nat) : Prog.All (Act.among 0x6080000000000000000000000000000000000000000000000000000000000000000000000000000000000000000000000000000050) (censusRecord p n sqi) := by
  unfold censusRecord
  repeat' with_reducible first | refine all_leaf ?_ | (show within _ _ = true; with_unfolding_all exact rfl) | (show Act.among _ _; with_unfolding_all exact tb rfl) | refine (countSeen_kinds ..).mono ?_ | refine raise_kinds _ _ (by exact tb rfl) ?_ | refine satAdd_kinds _ _ ?_ | refine setF_kinds _ _ ?_ | refine (updPort_kinds ..).mono ?_ | (show Nat.testBit _ _ = true; exact tb rfl) | (show lies _ _; (try dsimp only [F.PORT_SEG_CENSUS_frames, F.PORT_SEG_CENSUS_seen, F.PORT_SEG_CENSUS_silent, F.PORT_SEG_CENSUS_sqi, F.PORT_SEG_STAT_plca_active]); first | refine lies_PORT_SEG_CENSUS ?_ | refine lies_PORT_SEG_EVENT ?_ | split) | exact all_skip_i | refine all_cons ?_ ?_ | exact all_nil | refine all_seq_i ?_ ?_ | refine all_read_i fun _ => ?_ | refine all_when_i ?_ | refine all_each_i fun _ => ?_ | refine all_ifSome_i fun _ => ?_ | split | dsimp only | contradiction

theorem censusWindowEnd_kinds (p : Nat) : Prog.All (Act.among 0x6080000000000000000000000000000000000000000000000000000000000000000000000000000000000000000000000000000050) (censusWindowEnd p) := by
  unfold censusWindowEnd
  repeat' with_reducible first | refine all_leaf ?_ | (show within _ _ = true; with_unfolding_all exact rfl) | (show Act.among _ _; with_unfolding_all exact tb rfl) | refine (countSeen_kinds ..).mono ?_ | refine raise_kinds _ _ (by exact tb rfl) ?_ | refine setF_kinds _ _ ?_ | refine (updPort_kinds ..).mono ?_ | (show Nat.testBit _ _ = true; exact tb rfl) | (show lies _ _; (try dsimp only [F.PORT_SEG_CENSUS_seen, F.PORT_SEG_CENSUS_silent, F.PORT_SEG_STAT_plca_active]); first | refine lies_PORT_SEG_CENSUS ?_ | refine lies_PORT_SEG_EVENT ?_ | split) | exact all_skip_i | refine all_cons ?_ ?_ | exact all_nil | refine all_seq_i ?_ ?_ | refine all_read_i fun _ => ?_ | refine all_when_i ?_ | refine all_each_i fun _ => ?_ | refine all_ifSome_i fun _ => ?_ | split | dsimp only | contradiction

theorem markDuplicate_kinds (p n : Nat) : Prog.All (Act.among 0x6000000000000000000000000000000000000000000000000000000000000000000000000000000000000000000000000000000010) (markDuplicate p n) := by
  unfold markDuplicate
  repeat' with_reducible first | refine all_leaf ?_ | (show within _ _ = true; with_unfolding_all exact rfl) | (show Act.among _ _; with_unfolding_all exact tb rfl) | refine raise_kinds _ _ (by exact tb rfl) ?_ | refine setF_kinds _ _ ?_ | (show Nat.testBit _ _ = true; exact tb rfl) | (show lies _ _; (try dsimp only [F.PORT_SEG_CENSUS_duplicate, F.PORT_SEG_STAT_plca_active]); first | refine lies_PORT_SEG_CENSUS ?_ | refine lies_PORT_SEG_EVENT ?_ | split) | exact all_skip_i | refine all_cons ?_ ?_ | exact all_nil | refine all_seq_i ?_ ?_ | refine all_read_i fun _ => ?_ | refine all_when_i ?_ | refine all_each_i fun _ => ?_ | refine all_ifSome_i fun _ => ?_ | split | dsimp only | contradiction

theorem collision_kinds {K : Nat} (hK : within 0x6A00000000000000000000000000000000000000000000000000000000000000000000000000000000000000000000000100000050 K = true) (p n : Nat) (own : Bool) (requeue discard : Prog) (h_requeue : Prog.All (Act.among K) (requeue)) (h_discard : Prog.All (Act.among K) (discard)) : Prog.All (Act.among K) (collision p n own requeue discard) := by
  unfold collision
  repeat' with_reducible first | refine all_leaf ?_ | (show Act.among _ _; with_unfolding_all exact testBit_within hK (tb rfl)) | exact within_trans (by with_unfolding_all exact rfl) hK | exact h_requeue | exact h_discard | refine addWide_kinds _ _ _ ?_ | refine (markDuplicate_kinds ..).mono ?_ | refine (send_kinds ..).mono ?_ | refine (updPort_kinds ..).mono ?_ | refine lies_PORT_SEG_COLL_words ?_ (by decide) | refine lies_PORT_SEG_EXCESS_words ?_ (by decide) | (show Nat.testBit _ _ = true; exact testBit_within hK (tb rfl)) | (show lies _ _; first | refine lies_PORT_SEG_COLL ?_ | refine lies_PORT_SEG_COLL_at ?_ (by decide) (by decide) | refine lies_PORT_SEG_EXCESS ?_ | refine lies_PORT_SEG_EXCESS_at ?_ (by decide) (by decide) | split) | exact all_skip_i | refine all_cons ?_ ?_ | exact all_nil | refine all_seq_i ?_ ?_ | refine all_read_i fun _ => ?_ | refine all_when_i ?_ | refine all_each_i fun _ => ?_ | refine all_ifSome_i fun _ => ?_ | split | dsimp only | contradiction

theorem lateCollision_kinds {K : Nat} (hK : within 0x6C00000000000000000000000000000000000000000000000000000000000000000000000000000000000000000000000000000050 K = true) (p n : Nat) (own : Bool) (discard : Prog) (h_discard : Prog.All (Act.among K) (discard)) : Prog.All (Act.among K) (lateCollision p n own discard) := by
  unfold lateCollision
  repeat' with_reducible first | refine all_leaf ?_ | (show Act.among _ _; with_unfolding_all exact testBit_within hK (tb rfl)) | exact within_trans (by with_unfolding_all exact rfl) hK | exact h_discard | refine addWide_kinds _ _ _ ?_ | refine (markDuplicate_kinds ..).mono ?_ | refine (updPort_kinds ..).mono ?_ | refine lies_PORT_SEG_LATE_words ?_ (by decide) | refine lies_PORT_SEG_EXCESS_words ?_ (by decide) | (show Nat.testBit _ _ = true; exact testBit_within hK (tb rfl)) | (show lies _ _; first | refine lies_PORT_SEG_LATE ?_ | refine lies_PORT_SEG_LATE_at ?_ (by decide) (by decide) | refine lies_PORT_SEG_EXCESS ?_ | refine lies_PORT_SEG_EXCESS_at ?_ (by decide) (by decide) | split) | exact all_skip_i | refine all_cons ?_ ?_ | exact all_nil | refine all_seq_i ?_ ?_ | refine all_read_i fun _ => ?_ | refine all_when_i ?_ | refine all_each_i fun _ => ?_ | refine all_ifSome_i fun _ => ?_ | split | dsimp only | contradiction

theorem segmentSleep_kinds (p : Nat) : Prog.All (Act.among 0x220084300003CA381800000409250000000000000000000000000C0000000000000000004040000000000000000000000003400037D0) (segmentSleep p) := by
  unfold segmentSleep
  repeat' with_reducible first | refine all_leaf ?_ | (show within _ _ = true; with_unfolding_all exact rfl) | (show Act.among _ _; with_unfolding_all exact tb rfl) | refine (toSleep_kinds ..).mono ?_ | refine (updPort_kinds ..).mono ?_ | exact all_skip_i | refine all_cons ?_ ?_ | exact all_nil | refine all_seq_i ?_ ?_ | refine all_read_i fun _ => ?_ | refine all_when_i ?_ | refine all_each_i fun _ => ?_ | refine all_ifSome_i fun _ => ?_ | split | dsimp only | contradiction

theorem segQualInterval_kinds (p : Nat) : Prog.All (Act.among 0x2020000000000000000000000000000000000000000000000000000000000000000000000000000000000000000000050) (segQualInterval p) := by
  unfold segQualInterval
  repeat' with_reducible first | refine all_leaf ?_ | (show within _ _ = true; with_unfolding_all exact rfl) | (show Act.among _ _; with_unfolding_all exact tb rfl) | refine (setQuality_kinds ..).mono ?_ | refine (updPort_kinds ..).mono ?_ | exact all_skip_i | refine all_cons ?_ ?_ | exact all_nil | refine all_seq_i ?_ ?_ | refine all_read_i fun _ => ?_ | refine all_when_i ?_ | refine all_each_i fun _ => ?_ | refine all_ifSome_i fun _ => ?_ | split | dsimp only | contradiction

theorem segMargin_kinds (p margin : Nat) : Prog.All (Act.among 0x40) (segMargin p margin) := by
  unfold segMargin
  repeat' with_reducible first | refine all_leaf ?_ | (show within _ _ = true; with_unfolding_all exact rfl) | (show Act.among _ _; with_unfolding_all exact tb rfl) | refine (updPort_kinds ..).mono ?_ | exact all_skip_i | refine all_cons ?_ ?_ | exact all_nil | refine all_seq_i ?_ ?_ | refine all_read_i fun _ => ?_ | refine all_when_i ?_ | refine all_each_i fun _ => ?_ | refine all_ifSome_i fun _ => ?_ | split | dsimp only | contradiction

theorem annealRefused_kinds (p code : Nat) : Prog.All (Act.among 0x4000000000000000000000000000000000000000000000000000000) (annealRefused p code) := by
  unfold annealRefused
  repeat' with_reducible first | refine all_leaf ?_ | (show within _ _ = true; with_unfolding_all exact rfl) | (show Act.among _ _; with_unfolding_all exact tb rfl) | refine setF_kinds _ _ ?_ | (show Nat.testBit _ _ = true; exact tb rfl) | (show lies _ _; (try dsimp only [F.CAL_PORT_STAT_result, F.CAL_PORT_STAT_state]); first | refine lies_CAL_PORT_STAT ?_ | split) | exact all_skip_i | refine all_cons ?_ ?_ | exact all_nil | refine all_seq_i ?_ ?_ | refine all_read_i fun _ => ?_ | refine all_when_i ?_ | refine all_each_i fun _ => ?_ | refine all_ifSome_i fun _ => ?_ | split | dsimp only | contradiction

theorem forceListen_kinds (p : Nat) : Prog.All (Act.among 0x220084300003CA381800000409250000000000000000000000000C0000000000000000004040000000000000000000000003400037D0) (forceListen p) := by
  unfold forceListen
  repeat' with_reducible first | refine all_leaf ?_ | (show within _ _ = true; with_unfolding_all exact rfl) | (show Act.among _ _; with_unfolding_all exact tb rfl) | refine (caneDrop_kinds ..).mono ?_ | refine loseLane_kinds (K := _) ?_ _ _ _ ?_ | refine (portDropNow_kinds ..).mono ?_ | refine (toListen_kinds ..).mono ?_ | refine (updPort_kinds ..).mono ?_ | exact all_skip_i | refine all_cons ?_ ?_ | exact all_nil | refine all_seq_i ?_ ?_ | refine all_read_i fun _ => ?_ | refine all_when_i ?_ | refine all_each_i fun _ => ?_ | refine all_ifSome_i fun _ => ?_ | intro _ | split | dsimp only | contradiction

theorem annealRun_kinds (p : Nat) : Prog.All (Act.among 0x220084300003CA381800000409250000000000000000000000000C0000000000000000004040000000000000000000000003400037D0) (annealRun p) := by
  unfold annealRun
  repeat' with_reducible first | refine all_leaf ?_ | (show within _ _ = true; with_unfolding_all exact rfl) | (show Act.among _ _; with_unfolding_all exact tb rfl) | refine (forceListen_kinds ..).mono ?_ | refine (refreshNear_kinds ..).mono ?_ | refine setF_kinds _ _ ?_ | refine (updPort_kinds ..).mono ?_ | (show Nat.testBit _ _ = true; exact tb rfl) | (show lies _ _; (try dsimp only [F.CAL_PORT_STAT_result, F.CAL_PORT_STAT_state]); first | refine lies_CAL_PORT_STAT ?_ | split) | exact all_skip_i | refine all_cons ?_ ?_ | exact all_nil | refine all_seq_i ?_ ?_ | refine all_read_i fun _ => ?_ | refine all_when_i ?_ | refine all_each_i fun _ => ?_ | refine all_ifSome_i fun _ => ?_ | split | dsimp only | contradiction

theorem annealStart_kinds (req p : Nat) : Prog.All (Act.among 0x220084300003CA38180000040925000000000000000000000000AC0000000000000000004040000000000000000000000003400037D0) (annealStart req p) := by
  unfold annealStart
  repeat' with_reducible first | refine all_leaf ?_ | (show within _ _ = true; with_unfolding_all exact rfl) | (show Act.among _ _; with_unfolding_all exact tb rfl) | refine (annealRefused_kinds ..).mono ?_ | refine (annealRun_kinds ..).mono ?_ | refine ledgerRequest_kinds (K := _) ?_ _ _ _ _ _ ?_ ?_ ?_ | refine setF_kinds _ _ ?_ | (show Nat.testBit _ _ = true; exact tb rfl) | (show lies _ _; (try dsimp only [F.CAL_PORT_CTL_no_wait, F.CAL_PORT_STAT_result, F.CAL_PORT_STAT_state]); first | refine lies_CAL_PORT_STAT ?_ | split) | exact all_skip_i | refine all_cons ?_ ?_ | exact all_nil | refine all_seq_i ?_ ?_ | refine all_read_i fun _ => ?_ | refine all_when_i ?_ | refine all_each_i fun _ => ?_ | refine all_ifSome_i fun _ => ?_ | intro _ | split | dsimp only | contradiction

theorem portFreed_kinds (p : Nat) : Prog.All (Act.among 0x220084300003CA381800000409250000000000000000000000000C0000000000000000004040000000000000000000000003400037D0) (portFreed p) := by
  unfold portFreed
  repeat' with_reducible first | refine all_leaf ?_ | (show within _ _ = true; with_unfolding_all exact rfl) | (show Act.among _ _; with_unfolding_all exact tb rfl) | refine (refreshNear_kinds ..).mono ?_ | refine (setPending_kinds ..).mono ?_ | refine (tryLeave_kinds ..).mono ?_ | refine (updPort_kinds ..).mono ?_ | exact all_skip_i | refine all_cons ?_ ?_ | exact all_nil | refine all_seq_i ?_ ?_ | refine all_read_i fun _ => ?_ | refine all_when_i ?_ | refine all_each_i fun _ => ?_ | refine all_ifSome_i fun _ => ?_ | split | dsimp only | contradiction

theorem annealDone_kinds (p : Nat) (sets : List CalSet) : Prog.All (Act.among 0x220084300003CA381800000409250000000000000000000000001C34000000000000000040400000000000000000000000034000B7D0) (annealDone p sets) := by
  unfold annealDone
  repeat' with_reducible first | refine all_leaf ?_ | (show within _ _ = true; with_unfolding_all exact rfl) | (show Act.among _ _; with_unfolding_all exact tb rfl) | refine (calOffer_kinds ..).mono ?_ | refine (portFreed_kinds ..).mono ?_ | refine raise_kinds _ _ (by exact tb rfl) ?_ | refine setF_kinds _ _ ?_ | refine (updPort_kinds ..).mono ?_ | (show Nat.testBit _ _ = true; exact tb rfl) | (show lies _ _; (try dsimp only [F.CAL_PORT_STAT_result, F.CAL_PORT_STAT_state]); first | refine lies_CAL_EVENT ?_ | refine lies_CAL_PORT_STAT ?_ | split) | exact all_skip_i | refine all_cons ?_ ?_ | exact all_nil | refine all_seq_i ?_ ?_ | refine all_read_i fun _ => ?_ | refine all_when_i ?_ | refine all_each_i fun _ => ?_ | refine all_ifSome_i fun _ => ?_ | split | dsimp only | contradiction

theorem stageRun_kinds (p : Nat) : Prog.All (Act.among 0x220084300003CA381800000409250000000000000000000000000C0000000000000000004040000000000000000000000003400037D0) (stageRun p) := by
  unfold stageRun
  repeat' with_reducible first | refine all_leaf ?_ | (show within _ _ = true; with_unfolding_all exact rfl) | (show Act.among _ _; with_unfolding_all exact tb rfl) | refine setF_kinds _ _ ?_ | refine (toListen_kinds ..).mono ?_ | (show Nat.testBit _ _ = true; exact tb rfl) | (show lies _ _; (try dsimp only [F.CAL_PORT_STAT_state]); first | refine lies_CAL_PORT_STAT ?_ | split) | exact all_skip_i | refine all_cons ?_ ?_ | exact all_nil | refine all_seq_i ?_ ?_ | refine all_read_i fun _ => ?_ | refine all_when_i ?_ | refine all_each_i fun _ => ?_ | refine all_ifSome_i fun _ => ?_ | split | dsimp only | contradiction

theorem stageBegin_kinds (k : Nat) : Prog.All (Act.among 0x220084300003CA38180000040925000000000000000000000000AC0000000000000000004040000000000000000000000003400037D0) (stageBegin k) := by
  unfold stageBegin
  repeat' with_reducible first | refine all_leaf ?_ | (show within _ _ = true; with_unfolding_all exact rfl) | (show Act.among _ _; with_unfolding_all exact tb rfl) | refine ledgerRequest_kinds (K := _) ?_ _ _ _ _ _ ?_ ?_ ?_ | refine setF_kinds _ _ ?_ | refine (stageRun_kinds ..).mono ?_ | (show Nat.testBit _ _ = true; exact tb rfl) | (show lies _ _; (try dsimp only [F.CAL_PORT_STAT_state]); first | refine lies_CAL_PORT_STAT ?_ | split) | exact all_skip_i | refine all_cons ?_ ?_ | exact all_nil | refine all_seq_i ?_ ?_ | refine all_read_i fun _ => ?_ | refine all_when_i ?_ | refine all_each_i fun _ => ?_ | refine all_ifSome_i fun _ => ?_ | intro _ | split | dsimp only | contradiction

theorem stageEnds_kinds (p : Nat) : Prog.All (Act.among 0x25000000000000000000000000000000000000000000000000A410) (stageEnds p) := by
  unfold stageEnds
  repeat' with_reducible first | refine all_leaf ?_ | (show within _ _ = true; with_unfolding_all exact rfl) | (show Act.among _ _; with_unfolding_all exact tb rfl) | refine atticAfterAnneal_kinds.mono ?_ | refine raise_kinds _ _ (by exact tb rfl) ?_ | refine satAdd_kinds _ _ ?_ | refine setF_kinds _ _ ?_ | refine (updCal_kinds ..).mono ?_ | (show Nat.testBit _ _ = true; exact tb rfl) | (show lies _ _; (try dsimp only [F.CAL_STAT_anneal, F.CAL_STAT_ports_done]); first | refine lies_CAL_STAT ?_ | refine lies_CAL_EVENT ?_ | split) | exact all_skip_i | refine all_cons ?_ ?_ | exact all_nil | refine all_seq_i ?_ ?_ | refine all_read_i fun _ => ?_ | refine all_when_i ?_ | refine all_each_i fun _ => ?_ | refine all_ifSome_i fun _ => ?_ | split | dsimp only | contradiction

theorem stageDrop_kinds (p : Nat) : Prog.All (Act.among 0x25000000000000000000000000000000000000000000000000A410) (stageDrop p) := by
  unfold stageDrop
  repeat' with_reducible first | refine all_leaf ?_ | (show within _ _ = true; with_unfolding_all exact rfl) | (show Act.among _ _; with_unfolding_all exact tb rfl) | refine (stageEnds_kinds ..).mono ?_ | exact all_skip_i | refine all_cons ?_ ?_ | exact all_nil | refine all_seq_i ?_ ?_ | refine all_read_i fun _ => ?_ | refine all_when_i ?_ | refine all_each_i fun _ => ?_ | refine all_ifSome_i fun _ => ?_ | split | dsimp only | contradiction

theorem fullAnneal_kinds (order : List Nat) : Prog.All (Act.among 0x220084300003CA38180000040925000000000000000000000000AC25000000000000000040400000000000000000000000034000B7D0) (fullAnneal order) := by
  unfold fullAnneal
  repeat' with_reducible first | refine all_leaf ?_ | (show within _ _ = true; with_unfolding_all exact rfl) | (show Act.among _ _; with_unfolding_all exact tb rfl) | refine atticAfterAnneal_kinds.mono ?_ | refine raise_kinds _ _ (by exact tb rfl) ?_ | refine setF_kinds _ _ ?_ | refine (stageBegin_kinds ..).mono ?_ | refine (updCal_kinds ..).mono ?_ | refine (updPort_kinds ..).mono ?_ | (show Nat.testBit _ _ = true; exact tb rfl) | (show lies _ _; (try dsimp only [F.CAL_STAT_anneal, F.CAL_STAT_ports_done]); first | refine lies_CAL_STAT ?_ | refine lies_CAL_EVENT ?_ | split) | exact all_skip_i | refine all_cons ?_ ?_ | exact all_nil | refine all_seq_i ?_ ?_ | refine all_read_i fun _ => ?_ | refine all_when_i ?_ | refine all_each_i fun _ => ?_ | refine all_ifSome_i fun _ => ?_ | split | dsimp only | contradiction

theorem stageAdd_kinds (p : Nat) : Prog.All (Act.among 0x220084300003CA38180000040925000000000000000000000000AC0000000000000000004040000000000000000000000003400037D0) (stageAdd p) := by
  unfold stageAdd
  repeat' with_reducible first | refine all_leaf ?_ | (show within _ _ = true; with_unfolding_all exact rfl) | (show Act.among _ _; with_unfolding_all exact tb rfl) | refine (stageBegin_kinds ..).mono ?_ | refine (updCal_kinds ..).mono ?_ | refine (updPort_kinds ..).mono ?_ | exact all_skip_i | refine all_cons ?_ ?_ | exact all_nil | refine all_seq_i ?_ ?_ | refine all_read_i fun _ => ?_ | refine all_when_i ?_ | refine all_each_i fun _ => ?_ | refine all_ifSome_i fun _ => ?_ | split | dsimp only | contradiction

theorem converterStageDone_kinds (p : Nat) (sets : List CalSet) : Prog.All (Act.among 0x220084300003CBF8180000040925000000000000000000000000BC35000000000000000040400000000000000000000000034200B7D0) (converterStageDone p sets) := by
  unfold converterStageDone
  repeat' with_reducible first | refine all_leaf ?_ | (show within _ _ = true; with_unfolding_all exact rfl) | (show Act.among _ _; with_unfolding_all exact tb rfl) | refine (adminMove_kinds ..).mono ?_ | refine (calOffer_kinds ..).mono ?_ | refine (refreshNear_kinds ..).mono ?_ | refine setF_kinds _ _ ?_ | refine (stageBegin_kinds ..).mono ?_ | refine (stageEnds_kinds ..).mono ?_ | refine (updPort_kinds ..).mono ?_ | (show Nat.testBit _ _ = true; exact tb rfl) | (show lies _ _; (try dsimp only [F.CAL_PORT_STAT_result, F.CAL_PORT_STAT_state, F.PORT_CTL_admin]); first | refine lies_CAL_PORT_STAT ?_ | split) | exact all_skip_i | refine all_cons ?_ ?_ | exact all_nil | refine all_seq_i ?_ ?_ | refine all_read_i fun _ => ?_ | refine all_when_i ?_ | refine all_each_i fun _ => ?_ | refine all_ifSome_i fun _ => ?_ | split | dsimp only | contradiction

theorem verifyPort_kinds (p : Nat) : Prog.All (Act.among 0x220084300003CA38180000040925000000000000000000000000AC3100000000000000004040000000000000000000000003400037D0) (verifyPort p) := by
  unfold verifyPort
  repeat' with_reducible first | refine all_leaf ?_ | (show within _ _ = true; with_unfolding_all exact rfl) | (show Act.among _ _; with_unfolding_all exact tb rfl) | refine (calRefresh_kinds ..).mono ?_ | refine (calReject_kinds ..).mono ?_ | refine setF_kinds _ _ ?_ | refine setFBit_kinds _ _ _ ?_ | refine (stageAdd_kinds ..).mono ?_ | refine (updCal_kinds ..).mono ?_ | refine (verifyEnds_kinds ..).mono ?_ | (show Nat.testBit _ _ = true; exact tb rfl) | (show lies _ _; (try dsimp only [F.CAL_PORT_STAT_families]); first | refine lies_CAL_PORT_STAT ?_ | split) | exact all_skip_i | refine all_cons ?_ ?_ | exact all_nil | refine all_seq_i ?_ ?_ | refine all_read_i fun _ => ?_ | refine all_when_i ?_ | refine all_each_i fun _ => ?_ | refine all_ifSome_i fun _ => ?_ | split | dsimp only | contradiction

theorem verifyStale_kinds : Prog.All (Act.among 0x220084300003CA38180000040925000000000000000000000000AC3100000000000000004040000000000000000000000003400037D0) (verifyStale) := by
  unfold verifyStale
  repeat' with_reducible first | refine all_leaf ?_ | (show within _ _ = true; with_unfolding_all exact rfl) | (show Act.among _ _; with_unfolding_all exact tb rfl) | refine (verifyPort_kinds ..).mono ?_ | exact all_skip_i | refine all_cons ?_ ?_ | exact all_nil | refine all_seq_i ?_ ?_ | refine all_read_i fun _ => ?_ | refine all_when_i ?_ | refine all_each_i fun _ => ?_ | refine all_ifSome_i fun _ => ?_ | split | dsimp only | contradiction

theorem atticWriteDone_kinds (ok : Bool) (uid : Nat) : Prog.All (Act.among 0x27000000000000000000000000000000000000000000024000A010) (atticWriteDone ok uid) := by
  unfold atticWriteDone
  repeat' with_reducible first | refine all_leaf ?_ | (show within _ _ = true; with_unfolding_all exact rfl) | (show Act.among _ _; with_unfolding_all exact tb rfl) | refine (bankCopy_kinds ..).mono ?_ | refine (busErrorOpen_kinds ..).mono ?_ | refine raise_kinds _ _ (by exact tb rfl) ?_ | refine setF_kinds _ _ ?_ | refine (updCal_kinds ..).mono ?_ | (show Nat.testBit _ _ = true; exact tb rfl) | (show lies _ _; (try dsimp only [F.CAL_ATTIC_CTL_result, F.CAL_ATTIC_CTL_write, F.CAL_ATTIC_GEN_gen, F.CAL_STAT_attic_copy, F.CAL_STAT_attic_state]); first | refine lies_CAL_STAT ?_ | refine lies_CAL_ATTIC_GEN ?_ | refine lies_CAL_ATTIC_CTL ?_ | refine lies_CAL_EVENT ?_ | split) | exact all_skip_i | refine all_cons ?_ ?_ | exact all_nil | refine all_seq_i ?_ ?_ | refine all_read_i fun _ => ?_ | refine all_when_i ?_ | refine all_each_i fun _ => ?_ | refine all_ifSome_i fun _ => ?_ | split | dsimp only | contradiction

theorem loadSets_kinds (p bank : Nat) (l : List (Nat × Nat × List Int)) : Prog.All (Act.among 0x2000) (loadSets p bank l) := by
  unfold loadSets
  repeat' with_reducible first | refine all_leaf ?_ | (show within _ _ = true; with_unfolding_all exact rfl) | (show Act.among _ _; with_unfolding_all exact tb rfl) | refine (updCal_kinds ..).mono ?_ | exact all_skip_i | refine all_cons ?_ ?_ | exact all_nil | refine all_seq_i ?_ ?_ | refine all_read_i fun _ => ?_ | refine all_when_i ?_ | refine all_each_i fun _ => ?_ | refine all_ifSome_i fun _ => ?_ | split | dsimp only | contradiction

theorem atticRead_kinds (uid : Nat) : Prog.All (Act.among 0xC030000000000000000000000000000000000000000000040002000) (atticRead uid) := by
  unfold atticRead
  repeat' with_reducible first | refine all_leaf ?_ | (show within _ _ = true; with_unfolding_all exact rfl) | (show Act.among _ _; with_unfolding_all exact tb rfl) | refine (calRefresh_kinds ..).mono ?_ | refine (emit_kinds ..).mono ?_ | refine (loadSets_kinds ..).mono ?_ | refine setF_kinds _ _ ?_ | refine (updCal_kinds ..).mono ?_ | (show Nat.testBit _ _ = true; exact tb rfl) | (show lies _ _; (try dsimp only [F.CAL_ATTIC_GEN_gen, F.CAL_STAT_attic_copy, F.CAL_STAT_attic_state]); first | refine lies_CAL_STAT ?_ | refine lies_CAL_ATTIC_GEN ?_ | split) | exact all_skip_i | refine all_cons ?_ ?_ | exact all_nil | refine all_seq_i ?_ ?_ | refine all_read_i fun _ => ?_ | refine all_when_i ?_ | refine all_each_i fun _ => ?_ | refine all_ifSome_i fun _ => ?_ | split | dsimp only | contradiction

theorem tdrRun_kinds (p : Nat) : Prog.All (Act.among 0x220084300003CA381800000409250000000000000000000020000C0000000000000000004040000000000000000000000003400037D0) (tdrRun p) := by
  unfold tdrRun
  repeat' with_reducible first | refine all_leaf ?_ | (show within _ _ = true; with_unfolding_all exact rfl) | (show Act.among _ _; with_unfolding_all exact tb rfl) | refine (forceListen_kinds ..).mono ?_ | refine (refreshNear_kinds ..).mono ?_ | refine setF_kinds _ _ ?_ | (show Nat.testBit _ _ = true; exact tb rfl) | (show lies _ _; (try dsimp only [F.DIAG_TDR_STAT_result, F.DIAG_TDR_STAT_state]); first | refine lies_DIAG_TDR_STAT ?_ | split) | exact all_skip_i | refine all_cons ?_ ?_ | exact all_nil | refine all_seq_i ?_ ?_ | refine all_read_i fun _ => ?_ | refine all_when_i ?_ | refine all_each_i fun _ => ?_ | refine all_ifSome_i fun _ => ?_ | split | dsimp only | contradiction

theorem tdrRefused_kinds (p code : Nat) : Prog.All (Act.among 0x200000000000000000000000000000000000000000000000000000000000) (tdrRefused p code) := by
  unfold tdrRefused
  repeat' with_reducible first | refine all_leaf ?_ | (show within _ _ = true; with_unfolding_all exact rfl) | (show Act.among _ _; with_unfolding_all exact tb rfl) | refine setF_kinds _ _ ?_ | (show Nat.testBit _ _ = true; exact tb rfl) | (show lies _ _; (try dsimp only [F.DIAG_TDR_STAT_result, F.DIAG_TDR_STAT_state]); first | refine lies_DIAG_TDR_STAT ?_ | split) | exact all_skip_i | refine all_cons ?_ ?_ | exact all_nil | refine all_seq_i ?_ ?_ | refine all_read_i fun _ => ?_ | refine all_when_i ?_ | refine all_each_i fun _ => ?_ | refine all_ifSome_i fun _ => ?_ | split | dsimp only | contradiction

theorem tdrStart_kinds (req p : Nat) : Prog.All (Act.among 0x220084300003CA38180000040925000000000000000000002000AC0000000000000000004040000000000000000000000003400037D0) (tdrStart req p) := by
  unfold tdrStart
  repeat' with_reducible first | refine all_leaf ?_ | (show within _ _ = true; with_unfolding_all exact rfl) | (show Act.among _ _; with_unfolding_all exact tb rfl) | refine ledgerRequest_kinds (K := _) ?_ _ _ _ _ _ ?_ ?_ ?_ | refine setF_kinds _ _ ?_ | refine (tdrRefused_kinds ..).mono ?_ | refine (tdrRun_kinds ..).mono ?_ | (show Nat.testBit _ _ = true; exact tb rfl) | (show lies _ _; (try dsimp only [F.DIAG_TDR_CTL_force, F.DIAG_TDR_CTL_no_wait, F.DIAG_TDR_STAT_result, F.DIAG_TDR_STAT_state]); first | refine lies_DIAG_TDR_STAT ?_ | split) | exact all_skip_i | refine all_cons ?_ ?_ | exact all_nil | refine all_seq_i ?_ ?_ | refine all_read_i fun _ => ?_ | refine all_when_i ?_ | refine all_each_i fun _ => ?_ | refine all_ifSome_i fun _ => ?_ | intro _ | split | dsimp only | contradiction

theorem tdrStop_kinds (p : Nat) : Prog.All (Act.among 0x220084300003CA381800000409250000000000000000000020000C0000000000000000004040000000000000000000000003400037D0) (tdrStop p) := by
  unfold tdrStop
  repeat' with_reducible first | refine all_leaf ?_ | (show within _ _ = true; with_unfolding_all exact rfl) | (show Act.among _ _; with_unfolding_all exact tb rfl) | refine (portFreed_kinds ..).mono ?_ | refine setF_kinds _ _ ?_ | (show Nat.testBit _ _ = true; exact tb rfl) | (show lies _ _; (try dsimp only [F.DIAG_TDR_STAT_result, F.DIAG_TDR_STAT_state]); first | refine lies_DIAG_TDR_STAT ?_ | split) | exact all_skip_i | refine all_cons ?_ ?_ | exact all_nil | refine all_seq_i ?_ ?_ | refine all_read_i fun _ => ?_ | refine all_when_i ?_ | refine all_each_i fun _ => ?_ | refine all_ifSome_i fun _ => ?_ | split | dsimp only | contradiction

theorem tdrResult_kinds (p : Nat) (d : TdrData) : Prog.All (Act.among 0x360008000000000000000000000000000000000000000000000024000C010) (tdrResult p d) := by
  unfold tdrResult
  repeat' with_reducible first | refine all_leaf ?_ | (show within _ _ = true; with_unfolding_all exact rfl) | (show Act.among _ _; with_unfolding_all exact tb rfl) | refine profileDone_kinds (K := _) ?_ _ _ _ _ _ _ _ _ _ ?_ | refine setF_kinds _ _ ?_ | refine setReg_kinds _ _ ?_ | (show Nat.testBit _ _ = true; exact tb rfl) | (show lies _ _; (try dsimp only [F.DIAG_TDR_CFG_step_thresh, F.DIAG_TDR_STAT_clean_pct, F.DIAG_TDR_STAT_events, F.DIAG_TDR_STAT_result, F.DIAG_TDR_STAT_state, F.DIAG_TDR_STAT_summary, F.PORT_LINK_QUAL_mse_margin]); first | refine lies_DIAG_TDR_STAT ?_ | refine lies_DIAG_TDR_EVT ?_ | split) | exact all_skip_i | refine all_cons ?_ ?_ | exact all_nil | refine all_seq_i ?_ ?_ | refine all_read_i fun _ => ?_ | refine all_when_i ?_ | refine all_each_i fun _ => ?_ | refine all_ifSome_i fun _ => ?_ | intro _ | split | dsimp only | contradiction

theorem tdrDone_kinds (p : Nat) (d : TdrData) : Prog.All (Act.among 0x220084300003CA381800000409250000000000000000000360008C00000000000000000040400000000000000000000000034000F7D0) (tdrDone p d) := by
  unfold tdrDone
  repeat' with_reducible first | refine all_leaf ?_ | (show within _ _ = true; with_unfolding_all exact rfl) | (show Act.among _ _; with_unfolding_all exact tb rfl) | refine (portFreed_kinds ..).mono ?_ | refine raise_kinds _ _ (by exact tb rfl) ?_ | refine (tdrResult_kinds ..).mono ?_ | (show Nat.testBit _ _ = true; exact tb rfl) | (show lies _ _; (try dsimp only [F.DIAG_TDR_STAT_state]); first | refine lies_DIAG_EVENT ?_ | split) | exact all_skip_i | refine all_cons ?_ ?_ | exact all_nil | refine all_seq_i ?_ ?_ | refine all_read_i fun _ => ?_ | refine all_when_i ?_ | refine all_each_i fun _ => ?_ | refine all_ifSome_i fun _ => ?_ | split | dsimp only | contradiction

theorem sweepRun_kinds : Prog.All (Act.among 0x220084300003CA381800000409250000000000000000000001000C0000000000000000004040000000000000000000000003400077D0) (sweepRun) := by
  unfold sweepRun
  repeat' with_reducible first | refine all_leaf ?_ | (show within _ _ = true; with_unfolding_all exact rfl) | (show Act.among _ _; with_unfolding_all exact tb rfl) | refine (forceListen_kinds ..).mono ?_ | refine (refreshNear_kinds ..).mono ?_ | refine setF_kinds _ _ ?_ | refine (updDiag_kinds ..).mono ?_ | (show Nat.testBit _ _ = true; exact tb rfl) | (show lies _ _; (try dsimp only [F.DIAG_SWEEP_CTL_arm, F.DIAG_SWEEP_STAT_result, F.DIAG_SWEEP_STAT_state]); first | refine lies_DIAG_SWEEP_STAT ?_ | split) | exact all_skip_i | refine all_cons ?_ ?_ | exact all_nil | refine all_seq_i ?_ ?_ | refine all_read_i fun _ => ?_ | refine all_when_i ?_ | refine all_each_i fun _ => ?_ | refine all_ifSome_i fun _ => ?_ | split | dsimp only | contradiction

theorem sweepRefused_kinds (pos code : Nat) : Prog.All (Act.among 0x11000000000000000000000000000000000000000000000000000000000) (sweepRefused pos code) := by
  unfold sweepRefused
  repeat' with_reducible first | refine all_leaf ?_ | (show within _ _ = true; with_unfolding_all exact rfl) | (show Act.among _ _; with_unfolding_all exact tb rfl) | refine setF_kinds _ _ ?_ | (show Nat.testBit _ _ = true; exact tb rfl) | (show lies _ _; (try dsimp only [F.DIAG_SWEEP_CTL_arm, F.DIAG_SWEEP_STAT_bad_pos, F.DIAG_SWEEP_STAT_result, F.DIAG_SWEEP_STAT_state]); first | refine lies_DIAG_SWEEP_CTL ?_ | refine lies_DIAG_SWEEP_STAT ?_ | split) | exact all_skip_i | refine all_cons ?_ ?_ | exact all_nil | refine all_seq_i ?_ ?_ | refine all_read_i fun _ => ?_ | refine all_when_i ?_ | refine all_each_i fun _ => ?_ | refine all_ifSome_i fun _ => ?_ | split | dsimp only | contradiction

theorem sweepStart_kinds (req : Nat) (arm : Bool) : Prog.All (Act.among 0x220084300003CA38180000040925000000000000000000000110AC0000000000000000004040000000000000000000000003400077D0) (sweepStart req arm) := by
  unfold sweepStart
  repeat' with_reducible first | refine all_leaf ?_ | (show within _ _ = true; with_unfolding_all exact rfl) | (show Act.among _ _; with_unfolding_all exact tb rfl) | refine ledgerRequest_kinds (K := _) ?_ _ _ _ _ _ ?_ ?_ ?_ | refine setF_kinds _ _ ?_ | refine (sweepRefused_kinds ..).mono ?_ | refine sweepRun_kinds.mono ?_ | (show Nat.testBit _ _ = true; exact tb rfl) | (show lies _ _; (try dsimp only [F.DIAG_SWEEP_CTL_arm, F.DIAG_SWEEP_CTL_no_wait, F.DIAG_SWEEP_STAT_result, F.DIAG_SWEEP_STAT_state]); first | refine lies_DIAG_SWEEP_CTL ?_ | refine lies_DIAG_SWEEP_STAT ?_ | split) | exact all_skip_i | refine all_cons ?_ ?_ | exact all_nil | refine all_seq_i ?_ ?_ | refine all_read_i fun _ => ?_ | refine all_when_i ?_ | refine all_each_i fun _ => ?_ | refine all_ifSome_i fun _ => ?_ | intro _ | split | dsimp only | contradiction

theorem sweepFree_kinds : Prog.All (Act.among 0x220084300003CA381800000409250000000000000000000000100C0000000000000000004040000000000000000000000003400077D0) (sweepFree) := by
  unfold sweepFree
  repeat' with_reducible first | refine all_leaf ?_ | (show within _ _ = true; with_unfolding_all exact rfl) | (show Act.among _ _; with_unfolding_all exact tb rfl) | refine (portFreed_kinds ..).mono ?_ | refine setF_kinds _ _ ?_ | refine (updDiag_kinds ..).mono ?_ | (show Nat.testBit _ _ = true; exact tb rfl) | (show lies _ _; (try dsimp only [F.DIAG_SWEEP_CTL_arm]); first | refine lies_DIAG_SWEEP_CTL ?_ | split) | exact all_skip_i | refine all_cons ?_ ?_ | exact all_nil | refine all_seq_i ?_ ?_ | refine all_read_i fun _ => ?_ | refine all_when_i ?_ | refine all_each_i fun _ => ?_ | refine all_ifSome_i fun _ => ?_ | split | dsimp only | contradiction

theorem sweepStop_kinds : Prog.All (Act.among 0x220084300003CA381800000409250000000000000000000001100C0000000000000000004040000000000000000000000003400077D0) (sweepStop) := by
  unfold sweepStop
  repeat' with_reducible first | refine all_leaf ?_ | (show within _ _ = true; with_unfolding_all exact rfl) | (show Act.among _ _; with_unfolding_all exact tb rfl) | refine setF_kinds _ _ ?_ | refine sweepFree_kinds.mono ?_ | (show Nat.testBit _ _ = true; exact tb rfl) | (show lies _ _; (try dsimp only [F.DIAG_SWEEP_CTL_arm, F.DIAG_SWEEP_STAT_result, F.DIAG_SWEEP_STAT_state]); first | refine lies_DIAG_SWEEP_CTL ?_ | refine lies_DIAG_SWEEP_STAT ?_ | split) | exact all_skip_i | refine all_cons ?_ ?_ | exact all_nil | refine all_seq_i ?_ ?_ | refine all_read_i fun _ => ?_ | refine all_when_i ?_ | refine all_each_i fun _ => ?_ | refine all_ifSome_i fun _ => ?_ | split | dsimp only | contradiction

theorem sweepFire_kinds (groups : Nat) : Prog.All (Act.among 0x1000000000000000000000000000000000000000000000000000004000) (sweepFire groups) := by
  unfold sweepFire
  repeat' with_reducible first | refine all_leaf ?_ | (show within _ _ = true; with_unfolding_all exact rfl) | (show Act.among _ _; with_unfolding_all exact tb rfl) | refine setF_kinds _ _ ?_ | refine (updDiag_kinds ..).mono ?_ | (show Nat.testBit _ _ = true; exact tb rfl) | (show lies _ _; (try dsimp only [F.DIAG_SWEEP_CTL_arm, F.DIAG_SWEEP_CTL_cg, F.DIAG_SWEEP_STAT_state]); first | refine lies_DIAG_SWEEP_CTL ?_ | split) | exact all_skip_i | refine all_cons ?_ ?_ | exact all_nil | refine all_seq_i ?_ ?_ | refine all_read_i fun _ => ?_ | refine all_when_i ?_ | refine all_each_i fun _ => ?_ | refine all_ifSome_i fun _ => ?_ | split | dsimp only | contradiction

theorem mapWrite_kinds (share : Nat) (c : Coupling) : Prog.All (Act.among 0x80000000000000000000000000000000000000000000000000000000000) (mapWrite share c) := by
  unfold mapWrite
  repeat' with_reducible first | refine all_leaf ?_ | (show within _ _ = true; with_unfolding_all exact rfl) | (show Act.among _ _; with_unfolding_all exact tb rfl) | refine setReg_kinds _ _ ?_ | refine lies_DIAG_MAP_words ?_ (by decide) | (show Nat.testBit _ _ = true; exact tb rfl) | (show lies _ _; first | refine lies_DIAG_MAP ?_ | refine lies_DIAG_MAP_at ?_ (by decide) (by decide) | split) | exact all_skip_i | refine all_cons ?_ ?_ | exact all_nil | refine all_seq_i ?_ ?_ | refine all_read_i fun _ => ?_ | refine all_when_i ?_ | refine all_each_i fun _ => ?_ | refine all_ifSome_i fun _ => ?_ | split | dsimp only | contradiction

theorem sweepDone_kinds (pairs : List Coupling) (profiles : List (Fin 8 × TdrData)) : Prog.All (Act.among 0x220084300003CA381800000409250000000000000000000369108C00000000000000000040400000000000000000000000034000F7D0) (sweepDone pairs profiles) := by
  unfold sweepDone
  repeat' with_reducible first | refine all_leaf ?_ | (show within _ _ = true; with_unfolding_all exact rfl) | (show Act.among _ _; with_unfolding_all exact tb rfl) | refine (mapWrite_kinds ..).mono ?_ | refine raise_kinds _ _ (by exact tb rfl) ?_ | refine setF_kinds _ _ ?_ | refine setReg_kinds _ _ ?_ | refine sweepFree_kinds.mono ?_ | refine (tdrResult_kinds ..).mono ?_ | refine lies_DIAG_MAP_words ?_ (by decide) | (show Nat.testBit _ _ = true; exact tb rfl) | (show lies _ _; (try dsimp only [F.DIAG_SWEEP_CFG_share_db, F.DIAG_SWEEP_STAT_result, F.DIAG_SWEEP_STAT_state]); first | refine lies_DIAG_EVENT ?_ | refine lies_DIAG_SWEEP_STAT ?_ | refine lies_DIAG_MAP ?_ | refine lies_DIAG_MAP_at ?_ (by decide) (by decide) | split) | exact all_skip_i | refine all_cons ?_ ?_ | exact all_nil | refine all_seq_i ?_ ?_ | refine all_read_i fun _ => ?_ | refine all_when_i ?_ | refine all_each_i fun _ => ?_ | refine all_ifSome_i fun _ => ?_ | split | dsimp only | contradiction

theorem flashBookRequest_kinds : Prog.All (Act.among 0xE0000000000000000000000000000000000000000000000000000410) (flashBookRequest) := by
  unfold flashBookRequest
  repeat' with_reducible first | refine all_leaf ?_ | (show within _ _ = true; with_unfolding_all exact rfl) | (show Act.among _ _; with_unfolding_all exact tb rfl) | refine ledgerRequest_kinds (K := _) ?_ _ _ _ _ _ ?_ ?_ ?_ | refine setF_kinds _ _ ?_ | (show Nat.testBit _ _ = true; exact tb rfl) | (show lies _ _; (try dsimp only [F.DIAG_FLASH_BOOK_granted, F.DIAG_FLASH_BOOK_request]); first | refine lies_DIAG_FLASH_BOOK ?_ | split) | exact all_skip_i | refine all_cons ?_ ?_ | exact all_nil | refine all_seq_i ?_ ?_ | refine all_read_i fun _ => ?_ | refine all_when_i ?_ | refine all_each_i fun _ => ?_ | refine all_ifSome_i fun _ => ?_ | intro _ | split | dsimp only | contradiction

theorem flashBookRelease_kinds : Prog.All (Act.among 0x40000000000000000000000000000000000000000000000000000400) (flashBookRelease) := by
  unfold flashBookRelease
  repeat' with_reducible first | refine all_leaf ?_ | (show within _ _ = true; with_unfolding_all exact rfl) | (show Act.among _ _; with_unfolding_all exact tb rfl) | refine setF_kinds _ _ ?_ | (show Nat.testBit _ _ = true; exact tb rfl) | (show lies _ _; (try dsimp only [F.DIAG_FLASH_BOOK_granted, F.DIAG_FLASH_BOOK_request]); first | refine lies_DIAG_FLASH_BOOK ?_ | split) | exact all_skip_i | refine all_cons ?_ ?_ | exact all_nil | refine all_seq_i ?_ ?_ | refine all_read_i fun _ => ?_ | refine all_when_i ?_ | refine all_each_i fun _ => ?_ | refine all_ifSome_i fun _ => ?_ | split | dsimp only | contradiction

theorem ownerChanged_kinds (old : List (Nat × Nat)) (o : Nat) : Prog.All (Act.among 0x220084300003CA381800000409250000000000000000000000000C0000400000000000004040000000000000000000000003400037D0) (ownerChanged old o) := by
  unfold ownerChanged
  repeat' with_reducible first | refine all_leaf ?_ | (show within _ _ = true; with_unfolding_all exact rfl) | (show Act.among _ _; with_unfolding_all exact tb rfl) | refine (ownerLost_kinds ..).mono ?_ | refine (portDropNow_kinds ..).mono ?_ | refine (portRestart_kinds ..).mono ?_ | refine raise_kinds _ _ (by exact tb rfl) ?_ | refine (refreshBundle_kinds ..).mono ?_ | refine (updBnd_kinds ..).mono ?_ | (show Nat.testBit _ _ = true; exact tb rfl) | (show lies _ _; (try dsimp only [F.BND_CFG_quarter]); first | refine lies_FUR_EVENT ?_ | split) | exact all_skip_i | refine all_cons ?_ ?_ | exact all_nil | refine all_seq_i ?_ ?_ | refine all_read_i fun _ => ?_ | refine all_when_i ?_ | refine all_each_i fun _ => ?_ | refine all_ifSome_i fun _ => ?_ | split | dsimp only | contradiction

theorem slotMapChanged_kinds (old : List (Nat × Nat)) : Prog.All (Act.among 0x220084300003CA381800000409250000000000000000000000000C0000400000000000004040000000000000000000000003400037D0) (slotMapChanged old) := by
  unfold slotMapChanged
  repeat' with_reducible first | refine all_leaf ?_ | (show within _ _ = true; with_unfolding_all exact rfl) | (show Act.among _ _; with_unfolding_all exact tb rfl) | refine (ownerChanged_kinds ..).mono ?_ | exact all_skip_i | refine all_cons ?_ ?_ | exact all_nil | refine all_seq_i ?_ ?_ | refine all_read_i fun _ => ?_ | refine all_when_i ?_ | refine all_each_i fun _ => ?_ | refine all_ifSome_i fun _ => ?_ | split | dsimp only | contradiction

theorem blockEffects_kinds (b : Nat) (before : State) : Prog.All (Act.among 0x220084380003CA381800000409250000000000000000000000000C0000400000001000004040000000000000000000000003400037D0) (blockEffects b before) := by
  unfold blockEffects
  repeat' with_reducible first | refine all_leaf ?_ | (show within _ _ = true; with_unfolding_all exact rfl) | (show Act.among _ _; with_unfolding_all exact tb rfl) | refine (gclRefresh_kinds ..).mono ?_ | refine (lpiExitBegin_kinds ..).mono ?_ | refine (modeCommitted_kinds ..).mono ?_ | refine refreshBundles_kinds.mono ?_ | refine (slotMapChanged_kinds ..).mono ?_ | exact all_skip_i | refine all_cons ?_ ?_ | exact all_nil | refine all_seq_i ?_ ?_ | refine all_read_i fun _ => ?_ | refine all_when_i ?_ | refine all_each_i fun _ => ?_ | refine all_ifSome_i fun _ => ?_ | split | dsimp only | contradiction

theorem writeBlock_kinds (b : Nat) (kept : SMap Word) (ws : List (Nat × Word × Bool)) : Prog.All (Act.among 0x220084380003CA381800000409250000000000000000000000000C0000400000001000004040000000000000000080000003400037D2) (writeBlock b kept ws) := by
  unfold writeBlock
  repeat' with_reducible first | refine all_leaf ?_ | (show within _ _ = true; with_unfolding_all exact rfl) | (show Act.among _ _; with_unfolding_all exact tb rfl) | refine (blockEffects_kinds ..).mono ?_ | refine setReg_kinds _ _ ?_ | (show Nat.testBit _ _ = true; exact tb rfl) | (show lies _ _; first | refine lies_any ?_ | split) | exact all_skip_i | refine all_cons ?_ ?_ | exact all_nil | refine all_seq_i ?_ ?_ | refine all_read_i fun _ => ?_ | refine all_when_i ?_ | refine all_each_i fun _ => ?_ | refine all_ifSome_i fun _ => ?_ | split | dsimp only | contradiction

theorem blkCommit_kinds (b seq : Nat) (late pending : Bool) : Prog.All (Act.among 0x4000000000000000) (blkCommit b seq late pending) := by
  unfold blkCommit
  repeat' with_reducible first | refine all_leaf ?_ | (show within _ _ = true; with_unfolding_all exact rfl) | (show Act.among _ _; with_unfolding_all exact tb rfl) | refine setReg_kinds _ _ ?_ | (show Nat.testBit _ _ = true; exact tb rfl) | (show lies _ _; first | refine lies_commit ?_ | split) | exact all_skip_i | refine all_cons ?_ ?_ | exact all_nil | refine all_seq_i ?_ ?_ | refine all_read_i fun _ => ?_ | refine all_when_i ?_ | refine all_each_i fun _ => ?_ | refine all_ifSome_i fun _ => ?_ | split | dsimp only | contradiction

theorem commitStat_kinds : Prog.All (Act.among 0x800000000000000000) (commitStat) := by
  unfold commitStat
  repeat' with_reducible first | refine all_leaf ?_ | (show within _ _ = true; with_unfolding_all exact rfl) | (show Act.among _ _; with_unfolding_all exact tb rfl) | refine setF_kinds _ _ ?_ | (show Nat.testBit _ _ = true; exact tb rfl) | (show lies _ _; (try dsimp only [F.GLB_COMMIT_STAT_commit_seq, F.GLB_COMMIT_STAT_late, F.GLB_COMMIT_STAT_pending]); first | refine lies_GLB_COMMIT_STAT ?_ | split) | exact all_skip_i | refine all_cons ?_ ?_ | exact all_nil | refine all_seq_i ?_ ?_ | refine all_read_i fun _ => ?_ | refine all_when_i ?_ | refine all_each_i fun _ => ?_ | refine all_ifSome_i fun _ => ?_ | split | dsimp only | contradiction

theorem commitClose_kinds (seq : Nat) : Prog.All (Act.among 0x1800000000000080010) (commitClose seq) := by
  unfold commitClose
  repeat' with_reducible first | refine all_leaf ?_ | (show within _ _ = true; with_unfolding_all exact rfl) | (show Act.among _ _; with_unfolding_all exact tb rfl) | refine commitStat_kinds.mono ?_ | refine raise_kinds _ _ (by exact tb rfl) ?_ | refine (updCommit_kinds ..).mono ?_ | (show Nat.testBit _ _ = true; exact tb rfl) | (show lies _ _; first | refine lies_GLB_EVENT ?_ | split) | exact all_skip_i | refine all_cons ?_ ?_ | exact all_nil | refine all_seq_i ?_ ?_ | refine all_read_i fun _ => ?_ | refine all_when_i ?_ | refine all_each_i fun _ => ?_ | refine all_ifSome_i fun _ => ?_ | split | dsimp only | contradiction

theorem blockClosed_kinds (b : Nat) : Prog.All (Act.among 0x1800000000000080010) (blockClosed b) := by
  unfold blockClosed
  repeat' with_reducible first | refine all_leaf ?_ | (show within _ _ = true; with_unfolding_all exact rfl) | (show Act.among _ _; with_unfolding_all exact tb rfl) | refine commitStat_kinds.mono ?_ | refine raise_kinds _ _ (by exact tb rfl) ?_ | refine (updCommit_kinds ..).mono ?_ | (show Nat.testBit _ _ = true; exact tb rfl) | (show lies _ _; first | refine lies_GLB_EVENT ?_ | split) | exact all_skip_i | refine all_cons ?_ ?_ | exact all_nil | refine all_seq_i ?_ ?_ | refine all_read_i fun _ => ?_ | refine all_when_i ?_ | refine all_each_i fun _ => ?_ | refine all_ifSome_i fun _ => ?_ | split | dsimp only | contradiction

theorem applyTarget_kinds (seq : Nat) (b : Nat) : Prog.All (Act.among 0x220084380003CA381800000409250000000000000000000000000C00004000000010000040400000000000000000C0000003400837D2) (applyTarget seq b) := by
  unfold applyTarget
  repeat' with_reducible first | refine all_leaf ?_ | (show within _ _ = true; with_unfolding_all exact rfl) | (show Act.among _ _; with_unfolding_all exact tb rfl) | refine (blkCommit_kinds ..).mono ?_ | refine setF_kinds _ _ ?_ | refine (updCommit_kinds ..).mono ?_ | refine (writeBlock_kinds ..).mono ?_ | (show Nat.testBit _ _ = true; exact tb rfl) | (show lies _ _; first | refine lies_any ?_ | refine lies_commit ?_ | split) | exact all_skip_i | refine all_cons ?_ ?_ | exact all_nil | refine all_seq_i ?_ ?_ | refine all_read_i fun _ => ?_ | refine all_when_i ?_ | refine all_each_i fun _ => ?_ | refine all_ifSome_i fun _ => ?_ | split | dsimp only | contradiction

theorem groupsCount_kinds (b : Nat) : Prog.All (Act.among 0xA400000000000000000000000000000000000010) (groupsCount b) := by
  unfold groupsCount
  repeat' with_reducible first | refine all_leaf ?_ | (show within _ _ = true; with_unfolding_all exact rfl) | (show Act.among _ _; with_unfolding_all exact tb rfl) | refine raise_kinds _ _ (by exact tb rfl) ?_ | refine setF_kinds _ _ ?_ | refine setWide_kinds _ _ _ ?_ | refine lies_LCH_LG_APPLIED_words ?_ (by decide) | (show Nat.testBit _ _ = true; exact tb rfl) | (show lies _ _; (try dsimp only [F.LCH_LG_STAT_state]); first | refine lies_LCH_LG_STAT ?_ | refine lies_LCH_LG_APPLIED ?_ | refine lies_LCH_LG_APPLIED_at ?_ (by decide) (by decide) | refine lies_LCH_EVENT ?_ | split) | exact all_skip_i | refine all_cons ?_ ?_ | exact all_nil | refine all_seq_i ?_ ?_ | refine all_read_i fun _ => ?_ | refine all_when_i ?_ | refine all_each_i fun _ => ?_ | refine all_ifSome_i fun _ => ?_ | split | dsimp only | contradiction

theorem undoBlock_kinds (b : Nat) : Prog.All (Act.among 0x220084380003CA381800000409250000000000000000000000000C0000400000001000004040000000000000000080000003400037D2) (undoBlock b) := by
  unfold undoBlock
  repeat' with_reducible first | refine all_leaf ?_ | (show within _ _ = true; with_unfolding_all exact rfl) | (show Act.among _ _; with_unfolding_all exact tb rfl) | refine (blockEffects_kinds ..).mono ?_ | refine setReg_kinds _ _ ?_ | (show Nat.testBit _ _ = true; exact tb rfl) | (show lies _ _; first | refine lies_any ?_ | split) | exact all_skip_i | refine all_cons ?_ ?_ | exact all_nil | refine all_seq_i ?_ ?_ | refine all_read_i fun _ => ?_ | refine all_when_i ?_ | refine all_each_i fun _ => ?_ | refine all_ifSome_i fun _ => ?_ | split | dsimp only | contradiction

theorem rollBlock_kinds (seq : Nat) (b : Nat) : Prog.All (Act.among 0x220084380003CA381800000409250000000000000000000000000C00004000000010A40040400000000000000180C0000003400837D2) (rollBlock seq b) := by
  unfold rollBlock
  repeat' with_reducible first | refine all_leaf ?_ | (show within _ _ = true; with_unfolding_all exact rfl) | (show Act.among _ _; with_unfolding_all exact tb rfl) | refine (blkCommit_kinds ..).mono ?_ | refine (blockClosed_kinds ..).mono ?_ | refine (groupsCount_kinds ..).mono ?_ | refine setF_kinds _ _ ?_ | refine (undoBlock_kinds ..).mono ?_ | refine (updCommit_kinds ..).mono ?_ | (show Nat.testBit _ _ = true; exact tb rfl) | (show lies _ _; first | refine lies_any ?_ | refine lies_commit ?_ | split) | exact all_skip_i | refine all_cons ?_ ?_ | exact all_nil | refine all_seq_i ?_ ?_ | refine all_read_i fun _ => ?_ | refine all_when_i ?_ | refine all_each_i fun _ => ?_ | refine all_ifSome_i fun _ => ?_ | split | dsimp only | contradiction

theorem pendingApply_kinds (b : Nat) : Prog.All (Act.among 0x220084380003CA381800000409250000000000000000000000000C0000400000001000004040000000000000000080000003400837D2) (pendingApply b) := by
  unfold pendingApply
  repeat' with_reducible first | refine all_leaf ?_ | (show within _ _ = true; with_unfolding_all exact rfl) | (show Act.among _ _; with_unfolding_all exact tb rfl) | refine (blockEffects_kinds ..).mono ?_ | refine setReg_kinds _ _ ?_ | refine (updCommit_kinds ..).mono ?_ | (show Nat.testBit _ _ = true; exact tb rfl) | (show lies _ _; first | refine lies_any ?_ | split) | exact all_skip_i | refine all_cons ?_ ?_ | exact all_nil | refine all_seq_i ?_ ?_ | refine all_read_i fun _ => ?_ | refine all_when_i ?_ | refine all_each_i fun _ => ?_ | refine all_ifSome_i fun _ => ?_ | split | dsimp only | contradiction

theorem lateApply_kinds (b : Nat) : Prog.All (Act.among 0x220084380003CA381800000409250000000000000000000000000C00004000000010A40040400000000000000180C0000003400837D2) (lateApply b) := by
  unfold lateApply
  repeat' with_reducible first | refine all_leaf ?_ | (show within _ _ = true; with_unfolding_all exact rfl) | (show Act.among _ _; with_unfolding_all exact tb rfl) | refine (blkCommit_kinds ..).mono ?_ | refine (blockClosed_kinds ..).mono ?_ | refine (groupsCount_kinds ..).mono ?_ | refine (pendingApply_kinds ..).mono ?_ | refine raise_kinds _ _ (by exact tb rfl) ?_ | refine (undoBlock_kinds ..).mono ?_ | refine (updCommit_kinds ..).mono ?_ | (show Nat.testBit _ _ = true; exact tb rfl) | (show lies _ _; first | refine lies_GLB_EVENT ?_ | refine lies_any ?_ | split) | exact all_skip_i | refine all_cons ?_ ?_ | exact all_nil | refine all_seq_i ?_ ?_ | refine all_read_i fun _ => ?_ | refine all_when_i ?_ | refine all_each_i fun _ => ?_ | refine all_ifSome_i fun _ => ?_ | split | dsimp only | contradiction

theorem bundleRemould_kinds (old new : SMap (List Byte)) (b : Nat) : Prog.All (Act.among 0x3500000000000000000000000000000000000000000000000000000000000000000000000000000310) (bundleRemould old new b) := by
  unfold bundleRemould
  repeat' with_reducible first | refine all_leaf ?_ | (show within _ _ = true; with_unfolding_all exact rfl) | (show Act.among _ _; with_unfolding_all exact tb rfl) | refine (clearRecord_kinds ..).mono ?_ | refine raise_kinds _ _ (by exact tb rfl) ?_ | refine (recordBundle_kinds ..).mono ?_ | refine setF_kinds _ _ ?_ | refine setReg_kinds _ _ ?_ | refine (updBnd_kinds ..).mono ?_ | (show Nat.testBit _ _ = true; exact tb rfl) | (show lies _ _; (try dsimp only [F.BND_PAIR_STAT_depth, F.BND_PAIR_STAT_state, F.BND_STAT_mode, F.BND_STAT_state]); first | refine lies_BND_STAT ?_ | refine lies_BND_EVENT ?_ | refine lies_BND_PAIR_CFG ?_ | refine lies_BND_PAIR_STAT ?_ | split) | exact all_skip_i | refine all_cons ?_ ?_ | exact all_nil | refine all_seq_i ?_ ?_ | refine all_read_i fun _ => ?_ | refine all_when_i ?_ | refine all_each_i fun _ => ?_ | refine all_ifSome_i fun _ => ?_ | split | dsimp only | contradiction

theorem remouldSlots_kinds (kept : SMap Word) (words : List (Nat × Word)) : Prog.All (Act.among 0x220084380003CA381800000409250000000000000000000000000C00004000000010000040400000000000000000C0000003400837D2) (remouldSlots kept words) := by
  unfold remouldSlots
  repeat' with_reducible first | refine all_leaf ?_ | (show within _ _ = true; with_unfolding_all exact rfl) | (show Act.among _ _; with_unfolding_all exact tb rfl) | refine (blkCommit_kinds ..).mono ?_ | refine setF_kinds _ _ ?_ | refine (updCommit_kinds ..).mono ?_ | refine (writeBlock_kinds ..).mono ?_ | (show Nat.testBit _ _ = true; exact tb rfl) | (show lies _ _; (try dsimp only [F.GLB_COMMIT_STAT_commit_seq]); first | refine lies_any ?_ | refine lies_commit ?_ | split) | exact all_skip_i | refine all_cons ?_ ?_ | exact all_nil | refine all_seq_i ?_ ?_ | refine all_read_i fun _ => ?_ | refine all_when_i ?_ | refine all_each_i fun _ => ?_ | refine all_ifSome_i fun _ => ?_ | split | dsimp only | contradiction

theorem remouldApply_kinds (done : List Nat) : Prog.All (Act.among 0x11022220084380003CA38180004140935E000000000000000000000000C00004010048210000040400000000000000100C000000340093FD2) (remouldApply done) := by
  unfold remouldApply
  repeat' with_reducible first | refine all_leaf ?_ | (show within _ _ = true; with_unfolding_all exact rfl) | (show Act.among _ _; with_unfolding_all exact tb rfl) | refine (blkCommit_kinds ..).mono ?_ | refine (bundleRemould_kinds ..).mono ?_ | refine (deriveBnd_kinds ..).mono ?_ | refine (deriveQp_kinds ..).mono ?_ | refine (leaveStaged_kinds ..).mono ?_ | refine raise_kinds _ _ (by exact tb rfl) ?_ | refine (remouldSlots_kinds ..).mono ?_ | refine setF_kinds _ _ ?_ | refine (updMld_kinds ..).mono ?_ | refine writeBanks_kinds.mono ?_ | refine lies_MLD_ACTIVE_GEN_words ?_ (by decide) | (show Nat.testBit _ _ = true; exact tb rfl) | (show lies _ _; (try dsimp only [F.GLB_COMMIT_STAT_commit_seq, F.MLD_ACTIVE_GEN_partial_gen]); first | refine lies_GLB_EVENT ?_ | refine lies_MLD_ACTIVE_GEN ?_ | refine lies_MLD_ACTIVE_GEN_at ?_ (by decide) (by decide) | refine lies_MLD_EVENT ?_ | refine lies_FUR_EVENT ?_ | refine lies_any ?_ | split) | exact all_skip_i | refine all_cons ?_ ?_ | exact all_nil | refine all_seq_i ?_ ?_ | refine all_read_i fun _ => ?_ | refine all_when_i ?_ | refine all_each_i fun _ => ?_ | refine all_ifSome_i fun _ => ?_ | split | dsimp only | contradiction

theorem wakeLand_kinds : Prog.All (Act.among 0x3C1800000000000000000000000000000000000000000000000000000000000000000000000000000000800) (wakeLand) := by
  unfold wakeLand
  repeat' with_reducible first | refine all_leaf ?_ | (show within _ _ = true; with_unfolding_all exact rfl) | (show Act.among _ _; with_unfolding_all exact tb rfl) | refine deriveWake_kinds.mono ?_ | refine (updMld_kinds ..).mono ?_ | exact all_skip_i | refine all_cons ?_ ?_ | exact all_nil | refine all_seq_i ?_ ?_ | refine all_read_i fun _ => ?_ | refine all_when_i ?_ | refine all_each_i fun _ => ?_ | refine all_ifSome_i fun _ => ?_ | split | dsimp only | contradiction

theorem commitEdge_kinds (ms : List (Nat × Nat)) (seq : Nat) (bs : List Nat) : Prog.All (Act.among 0x11022220084380003CA38180004140935E000000000000000000000100C00004010048210000040400000000000000100C000000340097FD2) (commitEdge ms seq bs) := by
  unfold commitEdge
  repeat' with_reducible first | refine all_leaf ?_ | (show within _ _ = true; with_unfolding_all exact rfl) | (show Act.among _ _; with_unfolding_all exact tb rfl) | refine (applyTarget_kinds ..).mono ?_ | refine (remouldApply_kinds ..).mono ?_ | refine (sweepFire_kinds ..).mono ?_ | (show Nat.testBit _ _ = true; exact tb rfl) | (show lies _ _; (try dsimp only [F.MLD_REMOULD_CTL_cg, F.MLD_REMOULD_STAT_state]); first | refine lies_any ?_ | split) | exact all_skip_i | refine all_cons ?_ ?_ | exact all_nil | refine all_seq_i ?_ ?_ | refine all_read_i fun _ => ?_ | refine all_when_i ?_ | refine all_each_i fun _ => ?_ | refine all_ifSome_i fun _ => ?_ | split | dsimp only | contradiction

theorem commit_kinds (path mask : Nat) : Prog.All (Act.among 0x11022220084380003CA38180004140935E000000000000000000000100C00004010048210000040400000000000000180C000000340097FD2) (commit path mask) := by
  unfold commit
  repeat' with_reducible first | refine all_leaf ?_ | (show within _ _ = true; with_unfolding_all exact rfl) | (show Act.among _ _; with_unfolding_all exact tb rfl) | refine (commitClose_kinds ..).mono ?_ | refine (commitEdge_kinds ..).mono ?_ | refine setF_kinds _ _ ?_ | (show Nat.testBit _ _ = true; exact tb rfl) | (show lies _ _; (try dsimp only [F.GLB_COMMIT_STAT_commit_seq, F.GLB_COMMIT_STAT_last_path]); first | refine lies_GLB_COMMIT_STAT ?_ | refine lies_any ?_ | split) | exact all_skip_i | refine all_cons ?_ ?_ | exact all_nil | refine all_seq_i ?_ ?_ | refine all_read_i fun _ => ?_ | refine all_when_i ?_ | refine all_each_i fun _ => ?_ | refine all_ifSome_i fun _ => ?_ | split | dsimp only | contradiction

theorem fireGroups_kinds (gs : List (Nat × Bool)) (stamp : Nat) : Prog.All (Act.among 0x11022220084380003CA38180004140935E000000000000000000000100C00004010048210FC0040400000000000000180C000000340097FD2) (fireGroups gs stamp) := by
  unfold fireGroups
  repeat' with_reducible first | refine all_leaf ?_ | (show within _ _ = true; with_unfolding_all exact rfl) | (show Act.among _ _; with_unfolding_all exact tb rfl) | refine (commitClose_kinds ..).mono ?_ | refine (commitEdge_kinds ..).mono ?_ | refine (emit_kinds ..).mono ?_ | refine raise_kinds _ _ (by exact tb rfl) ?_ | refine (rollBlock_kinds ..).mono ?_ | refine (send_kinds ..).mono ?_ | refine setF_kinds _ _ ?_ | refine setWide_kinds _ _ _ ?_ | refine lies_LCH_LG_FIRED_AT_words ?_ (by decide) | refine lies_LCH_LG_TARGET_words ?_ (by decide) | refine lies_LCH_LG_APPLIED_words ?_ (by decide) | refine lies_LCH_LG_LATE_words ?_ (by decide) | (show Nat.testBit _ _ = true; exact tb rfl) | (show lies _ _; (try dsimp only [F.GLB_COMMIT_STAT_commit_seq, F.GLB_COMMIT_STAT_last_path, F.LCH_LG_CTL_armer, F.LCH_LG_CTL_kind, F.LCH_LG_CTL_out_, F.LCH_LG_STAT_commit_seq, F.LCH_LG_STAT_late_count, F.LCH_LG_STAT_missed, F.LCH_LG_STAT_state]); first | refine lies_GLB_COMMIT_STAT ?_ | refine lies_LCH_LG_STAT ?_ | refine lies_LCH_LG_FIRED_AT ?_ | refine lies_LCH_LG_FIRED_AT_at ?_ (by decide) (by decide) | refine lies_LCH_LG_TARGET ?_ | refine lies_LCH_LG_TARGET_at ?_ (by decide) (by decide) | refine lies_LCH_LG_APPLIED ?_ | refine lies_LCH_LG_APPLIED_at ?_ (by decide) (by decide) | refine lies_LCH_LG_LATE ?_ | refine lies_LCH_LG_LATE_at ?_ (by decide) (by decide) | refine lies_LCH_EVENT ?_ | refine lies_any ?_ | split) | exact all_skip_i | refine all_cons ?_ ?_ | exact all_nil | refine all_seq_i ?_ ?_ | refine all_read_i fun _ => ?_ | refine all_when_i ?_ | refine all_each_i fun _ => ?_ | refine all_ifSome_i fun _ => ?_ | split | dsimp only | contradiction

theorem fireDue_kinds (gs : List (Nat × Bool)) : Prog.All (Act.among 0x11022220084380003CA38180004140935E000000000000000000000100C00004010048210FC0040400000000000000180C000000340097FD2) (fireDue gs) := by
  unfold fireDue
  repeat' with_reducible first | refine all_leaf ?_ | (show within _ _ = true; with_unfolding_all exact rfl) | (show Act.among _ _; with_unfolding_all exact tb rfl) | refine (fireGroups_kinds ..).mono ?_ | (show Nat.testBit _ _ = true; exact tb rfl) | (show lies _ _; (try dsimp only [F.LCH_LG_CTL_kind]); first | refine lies_any ?_ | split) | exact all_skip_i | refine all_cons ?_ ?_ | exact all_nil | refine all_seq_i ?_ ?_ | refine all_read_i fun _ => ?_ | refine all_when_i ?_ | refine all_each_i fun _ => ?_ | refine all_ifSome_i fun _ => ?_ | split | dsimp only | contradiction

theorem lgFire_kinds (groups : Nat) : Prog.All (Act.among 0x11022220084380003CA38180004140935E000000000000000000000100C00004010048210FC0040400000000000000180C000000340097FD2) (lgFire groups) := by
  unfold lgFire
  repeat' with_reducible first | refine all_leaf ?_ | (show within _ _ = true; with_unfolding_all exact rfl) | (show Act.among _ _; with_unfolding_all exact tb rfl) | refine (fireDue_kinds ..).mono ?_ | (show Nat.testBit _ _ = true; exact tb rfl) | (show lies _ _; first | refine lies_any ?_ | split) | exact all_skip_i | refine all_cons ?_ ?_ | exact all_nil | refine all_seq_i ?_ ?_ | refine all_read_i fun _ => ?_ | refine all_when_i ?_ | refine all_each_i fun _ => ?_ | refine all_ifSome_i fun _ => ?_ | split | dsimp only | contradiction

theorem launchIn_kinds : Prog.All (Act.among 0x11022220084380003CA38180004140935E000000000000000000000100C00004010048210FC0040400000000000000180C000000340097FD2) (launchIn) := by
  unfold launchIn
  repeat' with_reducible first | refine all_leaf ?_ | (show within _ _ = true; with_unfolding_all exact rfl) | (show Act.among _ _; with_unfolding_all exact tb rfl) | refine (fireDue_kinds ..).mono ?_ | refine raise_kinds _ _ (by exact tb rfl) ?_ | refine (updTb_kinds ..).mono ?_ | (show Nat.testBit _ _ = true; exact tb rfl) | (show lies _ _; first | refine lies_TB_EVENT ?_ | refine lies_any ?_ | split) | exact all_skip_i | refine all_cons ?_ ?_ | exact all_nil | refine all_seq_i ?_ ?_ | refine all_read_i fun _ => ?_ | refine all_when_i ?_ | refine all_each_i fun _ => ?_ | refine all_ifSome_i fun _ => ?_ | split | dsimp only | contradiction

theorem lgFields_kinds (g src kind out : Nat) : Prog.All (Act.among 0x80000000000000000000000000000000000000) (lgFields g src kind out) := by
  unfold lgFields
  repeat' with_reducible first | refine all_leaf ?_ | (show within _ _ = true; with_unfolding_all exact rfl) | (show Act.among _ _; with_unfolding_all exact tb rfl) | refine setF_kinds _ _ ?_ | (show Nat.testBit _ _ = true; exact tb rfl) | (show lies _ _; (try dsimp only [F.LCH_LG_CTL_kind, F.LCH_LG_CTL_out_, F.LCH_LG_CTL_src]); first | refine lies_LCH_LG_CTL ?_ | split) | exact all_skip_i | refine all_cons ?_ ?_ | exact all_nil | refine all_seq_i ?_ ?_ | refine all_read_i fun _ => ?_ | refine all_when_i ?_ | refine all_each_i fun _ => ?_ | refine all_ifSome_i fun _ => ?_ | split | dsimp only | contradiction

theorem lgArm_kinds (path g src kind out : Nat) : Prog.All (Act.among 0x11022220084380003CA38180004140935E000000000000000000000100C00004010048210FD8040400000000000000180C000000340097FD2) (lgArm path g src kind out) := by
  unfold lgArm
  repeat' with_reducible first | refine all_leaf ?_ | (show within _ _ = true; with_unfolding_all exact rfl) | (show Act.among _ _; with_unfolding_all exact tb rfl) | refine (denied_kinds ..).mono ?_ | refine (fireDue_kinds ..).mono ?_ | refine (lgFields_kinds ..).mono ?_ | refine setF_kinds _ _ ?_ | (show Nat.testBit _ _ = true; exact tb rfl) | (show lies _ _; (try dsimp only [F.LCH_LG_CTL_armer, F.LCH_LG_CTL_src, F.LCH_LG_MASK_groups, F.LCH_LG_STAT_state]); first | refine lies_LCH_LG_CTL ?_ | refine lies_LCH_LG_MASK ?_ | refine lies_LCH_LG_STAT ?_ | refine lies_any ?_ | split) | exact all_skip_i | refine all_cons ?_ ?_ | exact all_nil | refine all_seq_i ?_ ?_ | refine all_read_i fun _ => ?_ | refine all_when_i ?_ | refine all_each_i fun _ => ?_ | refine all_ifSome_i fun _ => ?_ | split | dsimp only | contradiction

theorem lgDisarm_kinds (g : Nat) : Prog.All (Act.among 0x8400000000000000000000000000000000000010) (lgDisarm g) := by
  unfold lgDisarm
  repeat' with_reducible first | refine all_leaf ?_ | (show within _ _ = true; with_unfolding_all exact rfl) | (show Act.among _ _; with_unfolding_all exact tb rfl) | refine raise_kinds _ _ (by exact tb rfl) ?_ | refine setF_kinds _ _ ?_ | (show Nat.testBit _ _ = true; exact tb rfl) | (show lies _ _; (try dsimp only [F.LCH_LG_STAT_state]); first | refine lies_LCH_LG_STAT ?_ | refine lies_LCH_EVENT ?_ | split) | exact all_skip_i | refine all_cons ?_ ?_ | exact all_nil | refine all_seq_i ?_ ?_ | refine all_read_i fun _ => ?_ | refine all_when_i ?_ | refine all_each_i fun _ => ?_ | refine all_ifSome_i fun _ => ?_ | split | dsimp only | contradiction

theorem disarmHead_kinds (h : Nat) : Prog.All (Act.among 0x8400000000000000000000000000000000000010) (disarmHead h) := by
  unfold disarmHead
  repeat' with_reducible first | refine all_leaf ?_ | (show within _ _ = true; with_unfolding_all exact rfl) | (show Act.among _ _; with_unfolding_all exact tb rfl) | refine raise_kinds _ _ (by exact tb rfl) ?_ | refine setF_kinds _ _ ?_ | (show Nat.testBit _ _ = true; exact tb rfl) | (show lies _ _; (try dsimp only [F.LCH_LG_CTL_armer, F.LCH_LG_STAT_state]); first | refine lies_LCH_LG_STAT ?_ | refine lies_LCH_EVENT ?_ | split) | exact all_skip_i | refine all_cons ?_ ?_ | exact all_nil | refine all_seq_i ?_ ?_ | refine all_read_i fun _ => ?_ | refine all_when_i ?_ | refine all_each_i fun _ => ?_ | refine all_ifSome_i fun _ => ?_ | split | dsimp only | contradiction

theorem lgAllIdle_kinds : Prog.All (Act.among 0x400000000000000000000000000000000000000) (lgAllIdle) := by
  unfold lgAllIdle
  repeat' with_reducible first | refine all_leaf ?_ | (show within _ _ = true; with_unfolding_all exact rfl) | (show Act.among _ _; with_unfolding_all exact tb rfl) | refine setF_kinds _ _ ?_ | (show Nat.testBit _ _ = true; exact tb rfl) | (show lies _ _; (try dsimp only [F.LCH_LG_STAT_state]); first | refine lies_LCH_LG_STAT ?_ | split) | exact all_skip_i | refine all_cons ?_ ?_ | exact all_nil | refine all_seq_i ?_ ?_ | refine all_read_i fun _ => ?_ | refine all_when_i ?_ | refine all_each_i fun _ => ?_ | refine all_ifSome_i fun _ => ?_ | split | dsimp only | contradiction

theorem furBoundary_kinds : Prog.All (Act.among 0x220084380003CA381800000409250000000000000000000000000C00004000000010A40040400000000000000180C0000003400837D2) (furBoundary) := by
  unfold furBoundary
  repeat' with_reducible first | refine all_leaf ?_ | (show within _ _ = true; with_unfolding_all exact rfl) | (show Act.among _ _; with_unfolding_all exact tb rfl) | refine (lateApply_kinds ..).mono ?_ | (show Nat.testBit _ _ = true; exact tb rfl) | (show lies _ _; first | refine lies_any ?_ | split) | exact all_skip_i | refine all_cons ?_ ?_ | exact all_nil | refine all_seq_i ?_ ?_ | refine all_read_i fun _ => ?_ | refine all_when_i ?_ | refine all_each_i fun _ => ?_ | refine all_ifSome_i fun _ => ?_ | split | dsimp only | contradiction

end Sys2Proof.Machine
end

