-- ==== Sys2Proof/Laws/KindsHost.lean ====
section
/-!
SUPPORT. What each operation can touch. Rings, frames, the flash port, management DMA, heads.
-/
set_option Elab.async false
namespace Sys2Proof.Machine

set_option linter.unusedTactic false
set_option linter.unreachableTactic false

theorem updQ_kinds (q d : Nat) (g : RingX → RingX) : Prog.All (Act.among 0x200000) (updQ q d g) := by
  unfold updQ
  repeat' with_reducible first | refine all_leaf ?_ | (show within _ _ = true; with_unfolding_all exact rfl) | (show Act.among _ _; with_unfolding_all exact tb rfl) | refine (updRing_kinds ..).mono ?_ | exact all_skip_i | refine all_cons ?_ ?_ | exact all_nil | refine all_seq_i ?_ ?_ | refine all_read_i fun _ => ?_ | refine all_when_i ?_ | refine all_each_i fun _ => ?_ | refine all_ifSome_i fun _ => ?_ | split | dsimp only | contradiction

theorem setRg_kinds (q d v : Nat) : Prog.All (Act.among 0x40080000000000000000000000000000000000000000000000000000000000000000000000000000000000000000000000000000000000000) (setRg q d v) := by
  unfold setRg
  repeat' with_reducible first | refine all_leaf ?_ | (show within _ _ = true; with_unfolding_all exact rfl) | (show Act.among _ _; with_unfolding_all exact tb rfl) | refine setF_kinds _ _ ?_ | (show Nat.testBit _ _ = true; exact tb rfl) | (show lies _ _; (try dsimp only [F.QP_RX_STATE_state, rf]); first | refine lies_ring_QP_RX_STATE ?_ ?_ | refine lies_QP_RX_STATE ?_ | split) | exact all_skip_i | refine all_cons ?_ ?_ | exact all_nil | refine all_seq_i ?_ ?_ | refine all_read_i fun _ => ?_ | refine all_when_i ?_ | refine all_each_i fun _ => ?_ | refine all_ifSome_i fun _ => ?_ | split | dsimp only | contradiction

theorem takeUnits_kinds (h n : Nat) : Prog.All (Act.among 0x10000000000000000000000000000000000000000000000000000000000000000000000000000) (takeUnits h n) := by
  unfold takeUnits
  repeat' with_reducible first | refine all_leaf ?_ | (show within _ _ = true; with_unfolding_all exact rfl) | (show Act.among _ _; with_unfolding_all exact tb rfl) | refine setF_kinds _ _ ?_ | (show Nat.testBit _ _ = true; exact tb rfl) | (show lies _ _; (try dsimp only [F.HEAD_REQ_STAT_now, F.HEAD_REQ_STAT_peak]); first | refine lies_HEAD_REQ_STAT ?_ | split) | exact all_skip_i | refine all_cons ?_ ?_ | exact all_nil | refine all_seq_i ?_ ?_ | refine all_read_i fun _ => ?_ | refine all_when_i ?_ | refine all_each_i fun _ => ?_ | refine all_ifSome_i fun _ => ?_ | split | dsimp only | contradiction

theorem freeUnits_kinds (h n : Nat) : Prog.All (Act.among 0x10000000000000000000000000000000000000000000000000000000000000000000000000000) (freeUnits h n) := by
  unfold freeUnits
  repeat' with_reducible first | refine all_leaf ?_ | (show within _ _ = true; with_unfolding_all exact rfl) | (show Act.among _ _; with_unfolding_all exact tb rfl) | refine setF_kinds _ _ ?_ | (show Nat.testBit _ _ = true; exact tb rfl) | (show lies _ _; (try dsimp only [F.HEAD_REQ_STAT_now]); first | refine lies_HEAD_REQ_STAT ?_ | split) | exact all_skip_i | refine all_cons ?_ ?_ | exact all_nil | refine all_seq_i ?_ ?_ | refine all_read_i fun _ => ?_ | refine all_when_i ?_ | refine all_each_i fun _ => ?_ | refine all_ifSome_i fun _ => ?_ | split | dsimp only | contradiction

theorem winClamp_kinds (off h : Nat) : Prog.All (Act.among 0x40000000) (winClamp off h) := by
  unfold winClamp
  repeat' with_reducible first | refine all_leaf ?_ | (show within _ _ = true; with_unfolding_all exact rfl) | (show Act.among _ _; with_unfolding_all exact tb rfl) | refine (governorClamp_kinds ..).mono ?_ | exact all_skip_i | refine all_cons ?_ ?_ | exact all_nil | refine all_seq_i ?_ ?_ | refine all_read_i fun _ => ?_ | refine all_when_i ?_ | refine all_each_i fun _ => ?_ | refine all_ifSome_i fun _ => ?_ | split | dsimp only | contradiction

theorem atcShow_kinds (h : Nat) : Prog.All (Act.among 0x100000000000000000000000000000000000000000000000000000000000000000000000000000) (atcShow h) := by
  unfold atcShow
  repeat' with_reducible first | refine all_leaf ?_ | (show within _ _ = true; with_unfolding_all exact rfl) | (show Act.among _ _; with_unfolding_all exact tb rfl) | refine setF_kinds _ _ ?_ | (show Nat.testBit _ _ = true; exact tb rfl) | (show lies _ _; (try dsimp only [F.HEAD_ATC_STAT_valid]); first | refine lies_HEAD_ATC_STAT ?_ | split) | exact all_skip_i | refine all_cons ?_ ?_ | exact all_nil | refine all_seq_i ?_ ?_ | refine all_read_i fun _ => ?_ | refine all_when_i ?_ | refine all_each_i fun _ => ?_ | refine all_ifSome_i fun _ => ?_ | split | dsimp only | contradiction

theorem atcUse_kinds (h : Nat) (e : Nat × Nat) : Prog.All (Act.among 0x100000000000000000000000000000000000000000000000000000000000000000000000100000) (atcUse h e) := by
  unfold atcUse
  repeat' with_reducible first | refine all_leaf ?_ | (show within _ _ = true; with_unfolding_all exact rfl) | (show Act.among _ _; with_unfolding_all exact tb rfl) | refine (atcShow_kinds ..).mono ?_ | refine (updHead_kinds ..).mono ?_ | exact all_skip_i | refine all_cons ?_ ?_ | exact all_nil | refine all_seq_i ?_ ?_ | refine all_read_i fun _ => ?_ | refine all_when_i ?_ | refine all_each_i fun _ => ?_ | refine all_ifSome_i fun _ => ?_ | split | dsimp only | contradiction

theorem atcFlush_kinds (h : Nat) : Prog.All (Act.among 0x100000000000000000000000000000000000000000000000000000000000000000000000100000) (atcFlush h) := by
  unfold atcFlush
  repeat' with_reducible first | refine all_leaf ?_ | (show within _ _ = true; with_unfolding_all exact rfl) | (show Act.among _ _; with_unfolding_all exact tb rfl) | refine (atcShow_kinds ..).mono ?_ | refine (updHead_kinds ..).mono ?_ | exact all_skip_i | refine all_cons ?_ ?_ | exact all_nil | refine all_seq_i ?_ ?_ | refine all_read_i fun _ => ?_ | refine all_when_i ?_ | refine all_each_i fun _ => ?_ | refine all_ifSome_i fun _ => ?_ | split | dsimp only | contradiction

theorem translate_kinds {K : Nat} (hK : within 0x110000000000000000000000000000000000000000000000000000000000000000000100300000 K = true) (q d h addr n : Nat) (go : Prog) (h_go : Prog.All (Act.among K) (go)) : Prog.All (Act.among K) (translate q d h addr n go) := by
  unfold translate
  repeat' with_reducible first | refine all_leaf ?_ | (show Act.among _ _; with_unfolding_all exact testBit_within hK (tb rfl)) | exact within_trans (by with_unfolding_all exact rfl) hK | exact h_go | refine (atcUse_kinds ..).mono ?_ | refine (send_kinds ..).mono ?_ | refine (takeUnits_kinds ..).mono ?_ | refine (updQ_kinds ..).mono ?_ | exact all_skip_i | refine all_cons ?_ ?_ | exact all_nil | refine all_seq_i ?_ ?_ | refine all_read_i fun _ => ?_ | refine all_when_i ?_ | refine all_each_i fun _ => ?_ | refine all_ifSome_i fun _ => ?_ | split | dsimp only | contradiction

theorem msix_kinds (h vec : Nat) : Prog.All (Act.among 0x100100000) (msix h vec) := by
  unfold msix
  repeat' with_reducible first | refine all_leaf ?_ | (show within _ _ = true; with_unfolding_all exact rfl) | (show Act.among _ _; with_unfolding_all exact tb rfl) | refine (send_kinds ..).mono ?_ | refine (updHead_kinds ..).mono ?_ | exact all_skip_i | refine all_cons ?_ ?_ | exact all_nil | refine all_seq_i ?_ ?_ | refine all_read_i fun _ => ?_ | refine all_when_i ?_ | refine all_each_i fun _ => ?_ | refine all_ifSome_i fun _ => ?_ | split | dsimp only | contradiction

theorem ringIrq_kinds (q d : Nat) : Prog.All (Act.among 0x20040000000000000000000000000000000000000000000000000000000000000000000000000000000000000000000000000000100100000) (ringIrq q d) := by
  unfold ringIrq
  repeat' with_reducible first | refine all_leaf ?_ | (show within _ _ = true; with_unfolding_all exact rfl) | (show Act.among _ _; with_unfolding_all exact tb rfl) | refine (msix_kinds ..).mono ?_ | refine setF_kinds _ _ ?_ | (show Nat.testBit _ _ = true; exact tb rfl) | (show lies _ _; (try dsimp only [F.QP_RX_CFG_vec, F.QP_RX_STAT_armed, F.QP_RX_STAT_due, rf]); first | refine lies_ring_QP_RX_STAT ?_ ?_ | refine lies_QP_RX_STAT ?_ | split) | exact all_skip_i | refine all_cons ?_ ?_ | exact all_nil | refine all_seq_i ?_ ?_ | refine all_read_i fun _ => ?_ | refine all_when_i ?_ | refine all_each_i fun _ => ?_ | refine all_ifSome_i fun _ => ?_ | split | dsimp only | contradiction

theorem completed_kinds (q d n : Nat) : Prog.All (Act.among 0xA4148000000000000000000000000000000000000000000000000000000000000000000000000000000000000000000000000000100300000) (completed q d n) := by
  unfold completed
  repeat' with_reducible first | refine all_leaf ?_ | (show within _ _ = true; with_unfolding_all exact rfl) | (show Act.among _ _; with_unfolding_all exact tb rfl) | refine addWide_kinds _ _ _ ?_ | refine (ringIrq_kinds ..).mono ?_ | refine setF_kinds _ _ ?_ | refine (updQ_kinds ..).mono ?_ | refine lies_ring_QP_RX_FRAMES_words ?_ ?_ (by decide) | refine lies_QP_RX_FRAMES_words ?_ (by decide) | (show Nat.testBit _ _ = true; exact tb rfl) | (show lies _ _; (try dsimp only [F.QP_RX_HEAD_IDX_head, F.QP_RX_MOD_timer_us, rf]); first | refine lies_ring_QP_RX_HEAD_IDX ?_ ?_ | refine lies_QP_RX_HEAD_IDX ?_ | refine lies_ring_QP_RX_FRAMES ?_ ?_ | refine lies_ring_QP_RX_FRAMES_at ?_ ?_ (by decide) (by decide) | refine lies_QP_RX_FRAMES ?_ | refine lies_QP_RX_FRAMES_at ?_ (by decide) (by decide) | split) | exact all_skip_i | refine all_cons ?_ ?_ | exact all_nil | refine all_seq_i ?_ ?_ | refine all_read_i fun _ => ?_ | refine all_when_i ?_ | refine all_each_i fun _ => ?_ | refine all_ifSome_i fun _ => ?_ | split | dsimp only | contradiction

theorem moderationTimer_kinds (q d : Nat) : Prog.All (Act.among 0x20040000000000000000000000000000000000000000000000000000000000000000000000000000000000000000000000000000100300000) (moderationTimer q d) := by
  unfold moderationTimer
  repeat' with_reducible first | refine all_leaf ?_ | (show within _ _ = true; with_unfolding_all exact rfl) | (show Act.among _ _; with_unfolding_all exact tb rfl) | refine (ringIrq_kinds ..).mono ?_ | refine (updQ_kinds ..).mono ?_ | exact all_skip_i | refine all_cons ?_ ?_ | exact all_nil | refine all_seq_i ?_ ?_ | refine all_read_i fun _ => ?_ | refine all_when_i ?_ | refine all_each_i fun _ => ?_ | refine all_ifSome_i fun _ => ?_ | split | dsimp only | contradiction

theorem ringAck_kinds (q d ack : Nat) : Prog.All (Act.among 0x28050000000000000000000000000000000000000000000000000000000000000000000000000000000000000000000000000000100300000) (ringAck q d ack) := by
  unfold ringAck
  repeat' with_reducible first | refine all_leaf ?_ | (show within _ _ = true; with_unfolding_all exact rfl) | (show Act.among _ _; with_unfolding_all exact tb rfl) | refine (ringIrq_kinds ..).mono ?_ | refine setF_kinds _ _ ?_ | refine (updQ_kinds ..).mono ?_ | (show Nat.testBit _ _ = true; exact tb rfl) | (show lies _ _; (try dsimp only [F.QP_RX_ACK_ack, F.QP_RX_MOD_timer_us, F.QP_RX_STAT_armed, rf]); first | refine lies_ring_QP_RX_ACK ?_ ?_ | refine lies_QP_RX_ACK ?_ | refine lies_ring_QP_RX_STAT ?_ ?_ | refine lies_QP_RX_STAT ?_ | split) | exact all_skip_i | refine all_cons ?_ ?_ | exact all_nil | refine all_seq_i ?_ ?_ | refine all_read_i fun _ => ?_ | refine all_when_i ?_ | refine all_each_i fun _ => ?_ | refine all_ifSome_i fun _ => ?_ | split | dsimp only | contradiction

theorem badStatus_kinds (q d status n : Nat) : Prog.All (Act.among 0x600400000000000000000000000000000000000000000000000000000000000000000000000000000000000000000000000000000040000010) (badStatus q d status n) := by
  unfold badStatus
  repeat' with_reducible first | refine all_leaf ?_ | (show within _ _ = true; with_unfolding_all exact rfl) | (show Act.among _ _; with_unfolding_all exact tb rfl) | refine (emit_kinds ..).mono ?_ | refine raise_kinds _ _ (by exact tb rfl) ?_ | refine satAdd_kinds _ _ ?_ | (show Nat.testBit _ _ = true; exact tb rfl) | (show lies _ _; (try dsimp only [F.QP_RX_BAD_count, rf]); first | refine lies_ring_QP_RX_BAD ?_ ?_ | refine lies_QP_RX_BAD ?_ | refine lies_QP_EVENT ?_ | split) | exact all_skip_i | refine all_cons ?_ ?_ | exact all_nil | refine all_seq_i ?_ ?_ | refine all_read_i fun _ => ?_ | refine all_when_i ?_ | refine all_each_i fun _ => ?_ | refine all_ifSome_i fun _ => ?_ | split | dsimp only | contradiction

theorem writeDescs_kinds (s : State) (q d h : Nat) (w : WbX) (cache : Bool) : Prog.All (Act.among 0x100000000) (writeDescs s q d h w cache) := by
  unfold writeDescs
  repeat' with_reducible first | refine all_leaf ?_ | (show within _ _ = true; with_unfolding_all exact rfl) | (show Act.among _ _; with_unfolding_all exact tb rfl) | refine (send_kinds ..).mono ?_ | exact all_skip_i | refine all_cons ?_ ?_ | exact all_nil | refine all_seq_i ?_ ?_ | refine all_read_i fun _ => ?_ | refine all_when_i ?_ | refine all_each_i fun _ => ?_ | refine all_ifSome_i fun _ => ?_ | split | dsimp only | contradiction

theorem wbTry_kinds (q d : Nat) : Prog.All (Act.among 0xA4148000000000000000000000000000000110000000000000000000000000000000000000000000000000000000000000000000100300000) (wbTry q d) := by
  unfold wbTry
  repeat' with_reducible first | refine all_leaf ?_ | (show within _ _ = true; with_unfolding_all exact rfl) | (show Act.among _ _; with_unfolding_all exact tb rfl) | refine (completed_kinds ..).mono ?_ | refine (takeUnits_kinds ..).mono ?_ | refine translate_kinds (K := _) ?_ _ _ _ _ _ _ ?_ | refine (updQ_kinds ..).mono ?_ | refine (writeDescs_kinds ..).mono ?_ | exact all_skip_i | refine all_cons ?_ ?_ | exact all_nil | refine all_seq_i ?_ ?_ | refine all_read_i fun _ => ?_ | refine all_when_i ?_ | refine all_each_i fun _ => ?_ | refine all_ifSome_i fun _ => ?_ | intro _ | split | dsimp only | contradiction

theorem writeBack_kinds (q d : Nat) (w : WbX) : Prog.All (Act.among 0xA4148000000000000000000000000000000110000000000000000000000000000000000000000000000000000000000000000000140300000) (writeBack q d w) := by
  unfold writeBack
  repeat' with_reducible first | refine all_leaf ?_ | (show within _ _ = true; with_unfolding_all exact rfl) | (show Act.among _ _; with_unfolding_all exact tb rfl) | refine (completed_kinds ..).mono ?_ | refine (updQ_kinds ..).mono ?_ | refine (wbTry_kinds ..).mono ?_ | refine (winClamp_kinds ..).mono ?_ | refine (writeDescs_kinds ..).mono ?_ | exact all_skip_i | refine all_cons ?_ ?_ | exact all_nil | refine all_seq_i ?_ ?_ | refine all_read_i fun _ => ?_ | refine all_when_i ?_ | refine all_each_i fun _ => ?_ | refine all_ifSome_i fun _ => ?_ | split | dsimp only | contradiction

theorem showPrefetched_kinds (q d : Nat) : Prog.All (Act.among 0x20040000000000000000000000000000000000000000000000000000000000000000000000000000000000000000000000000000000000000) (showPrefetched q d) := by
  unfold showPrefetched
  repeat' with_reducible first | refine all_leaf ?_ | (show within _ _ = true; with_unfolding_all exact rfl) | (show Act.among _ _; with_unfolding_all exact tb rfl) | refine setF_kinds _ _ ?_ | (show Nat.testBit _ _ = true; exact tb rfl) | (show lies _ _; (try dsimp only [F.QP_RX_STAT_prefetched, rf]); first | refine lies_ring_QP_RX_STAT ?_ ?_ | refine lies_QP_RX_STAT ?_ | split) | exact all_skip_i | refine all_cons ?_ ?_ | exact all_nil | refine all_seq_i ?_ ?_ | refine all_read_i fun _ => ?_ | refine all_when_i ?_ | refine all_each_i fun _ => ?_ | refine all_ifSome_i fun _ => ?_ | split | dsimp only | contradiction

theorem fetchMore_kinds (q d : Nat) (again : Bool) : Prog.All (Act.among 0x20040000000000000000000000000000000010000000000000000000000000000000000000000000000000000000000000000000140200000) (fetchMore q d again) := by
  unfold fetchMore
  repeat' with_reducible first | refine all_leaf ?_ | (show within _ _ = true; with_unfolding_all exact rfl) | (show Act.among _ _; with_unfolding_all exact tb rfl) | refine (send_kinds ..).mono ?_ | refine (showPrefetched_kinds ..).mono ?_ | refine (takeUnits_kinds ..).mono ?_ | refine (updQ_kinds ..).mono ?_ | refine (winClamp_kinds ..).mono ?_ | exact all_skip_i | refine all_cons ?_ ?_ | exact all_nil | refine all_seq_i ?_ ?_ | refine all_read_i fun _ => ?_ | refine all_when_i ?_ | refine all_each_i fun _ => ?_ | refine all_ifSome_i fun _ => ?_ | split | dsimp only | contradiction

theorem dropQueued_kinds (q : Nat) : Prog.All (Act.among 0x40) (dropQueued q) := by
  unfold dropQueued
  repeat' with_reducible first | refine all_leaf ?_ | (show within _ _ = true; with_unfolding_all exact rfl) | (show Act.among _ _; with_unfolding_all exact tb rfl) | refine (updPort_kinds ..).mono ?_ | exact all_skip_i | refine all_cons ?_ ?_ | exact all_nil | refine all_seq_i ?_ ?_ | refine all_read_i fun _ => ?_ | refine all_when_i ?_ | refine all_each_i fun _ => ?_ | refine all_ifSome_i fun _ => ?_ | split | dsimp only | contradiction

theorem discardFetched_kinds (q d : Nat) (count : Bool) : Prog.All (Act.among 0x120240000000000000000000000000000000000000000000000000000000000000000000000000000000000000000000000000000000200040) (discardFetched q d count) := by
  unfold discardFetched
  repeat' with_reducible first | refine all_leaf ?_ | (show within _ _ = true; with_unfolding_all exact rfl) | (show Act.among _ _; with_unfolding_all exact tb rfl) | refine addWide_kinds _ _ _ ?_ | refine (dropQueued_kinds ..).mono ?_ | refine setF_kinds _ _ ?_ | refine (updQ_kinds ..).mono ?_ | refine lies_ring_QP_RX_DROPS_words ?_ ?_ (by decide) | refine lies_QP_RX_DROPS_words ?_ (by decide) | (show Nat.testBit _ _ = true; exact tb rfl) | (show lies _ _; (try dsimp only [F.QP_RX_STAT_own_wait, F.QP_RX_STAT_prefetched, rf]); first | refine lies_ring_QP_RX_STAT ?_ ?_ | refine lies_QP_RX_STAT ?_ | refine lies_ring_QP_RX_DROPS ?_ ?_ | refine lies_ring_QP_RX_DROPS_at ?_ ?_ (by decide) (by decide) | refine lies_QP_RX_DROPS ?_ | refine lies_QP_RX_DROPS_at ?_ (by decide) (by decide) | split) | exact all_skip_i | refine all_cons ?_ ?_ | exact all_nil | refine all_seq_i ?_ ?_ | refine all_read_i fun _ => ?_ | refine all_when_i ?_ | refine all_each_i fun _ => ?_ | refine all_ifSome_i fun _ => ?_ | split | dsimp only | contradiction

theorem ringFault_kinds (q d cause : Nat) : Prog.All (Act.among 0x5602C0000000000000000000000000000000000000000000000000000000000000000000000000000000000000000000000000000040200050) (ringFault q d cause) := by
  unfold ringFault
  repeat' with_reducible first | refine all_leaf ?_ | (show within _ _ = true; with_unfolding_all exact rfl) | (show Act.among _ _; with_unfolding_all exact tb rfl) | refine (discardFetched_kinds ..).mono ?_ | refine (emit_kinds ..).mono ?_ | refine raise_kinds _ _ (by exact tb rfl) ?_ | refine setF_kinds _ _ ?_ | refine (setRg_kinds ..).mono ?_ | refine (updQ_kinds ..).mono ?_ | (show Nat.testBit _ _ = true; exact tb rfl) | (show lies _ _; (try dsimp only [F.QP_RX_STAT_fault_cause, rf]); first | refine lies_ring_QP_RX_STAT ?_ ?_ | refine lies_QP_RX_STAT ?_ | refine lies_QP_EVENT ?_ | split) | exact all_skip_i | refine all_cons ?_ ?_ | exact all_nil | refine all_seq_i ?_ ?_ | refine all_read_i fun _ => ?_ | refine all_when_i ?_ | refine all_each_i fun _ => ?_ | refine all_ifSome_i fun _ => ?_ | split | dsimp only | contradiction

theorem ringDisable_kinds (q d : Nat) : Prog.All (Act.among 0x1622C4000000000000000000000000000000000000000000000000000000000000000000000000000000000000000000000000000000200040) (ringDisable q d) := by
  unfold ringDisable
  repeat' with_reducible first | refine all_leaf ?_ | (show within _ _ = true; with_unfolding_all exact rfl) | (show Act.among _ _; with_unfolding_all exact tb rfl) | refine (discardFetched_kinds ..).mono ?_ | refine setF_kinds _ _ ?_ | refine (setRg_kinds ..).mono ?_ | (show Nat.testBit _ _ = true; exact tb rfl) | (show lies _ _; (try dsimp only [F.QP_RX_CTL_en, rf]); first | refine lies_ring_QP_RX_CTL ?_ ?_ | refine lies_QP_RX_CTL ?_ | split) | exact all_skip_i | refine all_cons ?_ ?_ | exact all_nil | refine all_seq_i ?_ ?_ | refine all_read_i fun _ => ?_ | refine all_when_i ?_ | refine all_each_i fun _ => ?_ | refine all_ifSome_i fun _ => ?_ | split | dsimp only | contradiction

theorem ringStopped_kinds (q d : Nat) : Prog.All (Act.among 0x440080000000000000000000000000000000010000000000000000000000000000000000000000000000000000000000000000000000200010) (ringStopped q d) := by
  unfold ringStopped
  repeat' with_reducible first | refine all_leaf ?_ | (show within _ _ = true; with_unfolding_all exact rfl) | (show Act.among _ _; with_unfolding_all exact tb rfl) | refine (freeUnits_kinds ..).mono ?_ | refine raise_kinds _ _ (by exact tb rfl) ?_ | refine (setRg_kinds ..).mono ?_ | refine (updQ_kinds ..).mono ?_ | (show Nat.testBit _ _ = true; exact tb rfl) | (show lies _ _; first | refine lies_QP_EVENT ?_ | split) | exact all_skip_i | refine all_cons ?_ ?_ | exact all_nil | refine all_seq_i ?_ ?_ | refine all_read_i fun _ => ?_ | refine all_when_i ?_ | refine all_each_i fun _ => ?_ | refine all_ifSome_i fun _ => ?_ | split | dsimp only | contradiction

theorem ringEnable_kinds (q d : Nat) : Prog.All (Act.among 0x620C4000000000000000000000000000000010000000000000000000000000000000000000000000000000000000000000000000140300000) (ringEnable q d) := by
  unfold ringEnable
  repeat' with_reducible first | refine all_leaf ?_ | (show within _ _ = true; with_unfolding_all exact rfl) | (show Act.among _ _; with_unfolding_all exact tb rfl) | refine (fetchMore_kinds ..).mono ?_ | refine (ringIrq_kinds ..).mono ?_ | refine setF_kinds _ _ ?_ | refine (setRg_kinds ..).mono ?_ | refine (updQ_kinds ..).mono ?_ | (show Nat.testBit _ _ = true; exact tb rfl) | (show lies _ _; (try dsimp only [F.QP_RX_CTL_en, F.QP_RX_STAT_armed, F.QP_RX_STAT_own_wait, F.QP_RX_STAT_refused, F.QP_TX_CFG_port, F.QP_TX_CFG_tclass, rf]); first | refine lies_ring_QP_RX_CTL ?_ ?_ | refine lies_QP_RX_CTL ?_ | refine lies_ring_QP_RX_STAT ?_ ?_ | refine lies_QP_RX_STAT ?_ | split) | exact all_skip_i | refine all_cons ?_ ?_ | exact all_nil | refine all_seq_i ?_ ?_ | refine all_read_i fun _ => ?_ | refine all_when_i ?_ | refine all_each_i fun _ => ?_ | refine all_ifSome_i fun _ => ?_ | split | dsimp only | contradiction

theorem unlinkQp_kinds (q : Nat) : Prog.All (Act.among 0x40) (unlinkQp q) := by
  unfold unlinkQp
  repeat' with_reducible first | refine all_leaf ?_ | (show within _ _ = true; with_unfolding_all exact rfl) | (show Act.among _ _; with_unfolding_all exact tb rfl) | refine (updPort_kinds ..).mono ?_ | exact all_skip_i | refine all_cons ?_ ?_ | exact all_nil | refine all_seq_i ?_ ?_ | refine all_read_i fun _ => ?_ | refine all_when_i ?_ | refine all_each_i fun _ => ?_ | refine all_ifSome_i fun _ => ?_ | split | dsimp only | contradiction

theorem resetRing_kinds (q d : Nat) : Prog.All (Act.among 0x3FFFFF000000000000000000000000000000000000000000000000000000000000000000000000000000000000000000000000000000000012) (resetRing q d) := by
  unfold resetRing
  repeat' with_reducible first | refine all_leaf ?_ | (show within _ _ = true; with_unfolding_all exact rfl) | (show Act.among _ _; with_unfolding_all exact tb rfl) | refine resetReg_kinds _ (by exact tb rfl) (by exact tb rfl) ?_ | refine lies_ring_QP_RX_BASE_words ?_ ?_ (by decide) | refine lies_QP_RX_BASE_words ?_ (by decide) | refine lies_ring_QP_RX_FRAMES_words ?_ ?_ (by decide) | refine lies_QP_RX_FRAMES_words ?_ (by decide) | refine lies_ring_QP_RX_DROPS_words ?_ ?_ (by decide) | refine lies_QP_RX_DROPS_words ?_ (by decide) | (show Nat.testBit _ _ = true; exact tb rfl) | (show lies _ _; first | refine lies_ring_QP_RX_BASE ?_ ?_ | refine lies_ring_QP_RX_BASE_at ?_ ?_ (by decide) (by decide) | refine lies_QP_RX_BASE ?_ | refine lies_QP_RX_BASE_at ?_ (by decide) (by decide) | refine lies_ring_QP_RX_CFG ?_ ?_ | refine lies_QP_RX_CFG ?_ | refine lies_ring_QP_RX_CTL ?_ ?_ | refine lies_QP_RX_CTL ?_ | refine lies_ring_QP_RX_HEAD_IDX ?_ ?_ | refine lies_QP_RX_HEAD_IDX ?_ | refine lies_ring_QP_RX_ACK ?_ ?_ | refine lies_QP_RX_ACK ?_ | refine lies_ring_QP_RX_MOD ?_ ?_ | refine lies_QP_RX_MOD ?_ | refine lies_ring_QP_RX_STAT ?_ ?_ | refine lies_QP_RX_STAT ?_ | refine lies_ring_QP_RX_STATE ?_ ?_ | refine lies_QP_RX_STATE ?_ | refine lies_ring_QP_RX_FRAMES ?_ ?_ | refine lies_ring_QP_RX_FRAMES_at ?_ ?_ (by decide) (by decide) | refine lies_QP_RX_FRAMES ?_ | refine lies_QP_RX_FRAMES_at ?_ (by decide) (by decide) | refine lies_ring_QP_RX_DROPS ?_ ?_ | refine lies_ring_QP_RX_DROPS_at ?_ ?_ (by decide) (by decide) | refine lies_QP_RX_DROPS ?_ | refine lies_QP_RX_DROPS_at ?_ (by decide) (by decide) | refine lies_ring_QP_RX_BAD ?_ ?_ | refine lies_QP_RX_BAD ?_ | split) | exact all_skip_i | refine all_cons ?_ ?_ | exact all_nil | refine all_seq_i ?_ ?_ | refine all_read_i fun _ => ?_ | refine all_when_i ?_ | refine all_each_i fun _ => ?_ | refine all_ifSome_i fun _ => ?_ | split | dsimp only | contradiction

theorem resetQp_kinds (q : Nat) : Prog.All (Act.among 0xFFFFFF000000000000000000000000000000000000000000000000000000000000000000000000000000000000000000000000000000200052) (resetQp q) := by
  unfold resetQp
  repeat' with_reducible first | refine all_leaf ?_ | (show within _ _ = true; with_unfolding_all exact rfl) | (show Act.among _ _; with_unfolding_all exact tb rfl) | refine (deriveQp_kinds ..).mono ?_ | refine resetReg_kinds _ (by exact tb rfl) (by exact tb rfl) ?_ | refine (resetRing_kinds ..).mono ?_ | refine (unlinkQp_kinds ..).mono ?_ | (show Nat.testBit _ _ = true; exact tb rfl) | (show lies _ _; first | refine lies_QP_EVENT ?_ | refine lies_QP_EVENT_MASK ?_ | split) | exact all_skip_i | refine all_cons ?_ ?_ | exact all_nil | refine all_seq_i ?_ ?_ | refine all_read_i fun _ => ?_ | refine all_when_i ?_ | refine all_each_i fun _ => ?_ | refine all_ifSome_i fun _ => ?_ | split | dsimp only | contradiction

theorem latency_kinds (h p ns : Nat) : Prog.All (Act.among 0x1E000000000000000000000000000000000000000000000000000000000000000000000010) (latency h p ns) := by
  unfold latency
  repeat' with_reducible first | refine all_leaf ?_ | (show within _ _ = true; with_unfolding_all exact rfl) | (show Act.among _ _; with_unfolding_all exact tb rfl) | refine raise_kinds _ _ (by exact tb rfl) ?_ | refine satAdd_kinds _ _ ?_ | refine setF_kinds _ _ ?_ | (show Nat.testBit _ _ = true; exact tb rfl) | (show lies _ _; (try dsimp only [F.PKT_LAT_CFG_threshold_ns, F.PKT_LAT_MEASURED_measured, F.PKT_LAT_MINMAX_max_ns, F.PKT_LAT_MINMAX_min_ns, F.PKT_LAT_OVER_over]); first | refine lies_PKT_LAT_MINMAX ?_ | refine lies_PKT_LAT_OVER ?_ | refine lies_PKT_LAT_MEASURED ?_ | refine lies_PKT_EVENT ?_ | split) | exact all_skip_i | refine all_cons ?_ ?_ | exact all_nil | refine all_seq_i ?_ ?_ | refine all_read_i fun _ => ?_ | refine all_when_i ?_ | refine all_each_i fun _ => ?_ | refine all_ifSome_i fun _ => ?_ | split | dsimp only | contradiction

theorem rxComplete_kinds (q h : Nat) (f : RxFrameX) (len status : Nat) : Prog.All (Act.among 0x6A454800000000000000000000000000000011001E000000000000000000000000000000000000000000000000000000000000000140300010) (rxComplete q h f len status) := by
  unfold rxComplete
  repeat' with_reducible first | refine all_leaf ?_ | (show within _ _ = true; with_unfolding_all exact rfl) | (show Act.among _ _; with_unfolding_all exact tb rfl) | refine (badStatus_kinds ..).mono ?_ | refine (latency_kinds ..).mono ?_ | refine (showPrefetched_kinds ..).mono ?_ | refine (updQ_kinds ..).mono ?_ | refine (writeBack_kinds ..).mono ?_ | exact all_skip_i | refine all_cons ?_ ?_ | exact all_nil | refine all_seq_i ?_ ?_ | refine all_read_i fun _ => ?_ | refine all_when_i ?_ | refine all_each_i fun _ => ?_ | refine all_ifSome_i fun _ => ?_ | split | dsimp only | contradiction

theorem rxOne_kinds (q : Nat) (refused : Bool) : Prog.All (Act.among 0x7E47C800000000000000000000000000000011001E000000000000000000000000000000000000000000000000000000000000000340300050) (rxOne q refused) := by
  unfold rxOne
  repeat' with_reducible first | refine all_leaf ?_ | (show within _ _ = true; with_unfolding_all exact rfl) | (show Act.among _ _; with_unfolding_all exact tb rfl) | refine (ringFault_kinds ..).mono ?_ | refine (rxComplete_kinds ..).mono ?_ | refine (send_kinds ..).mono ?_ | refine (takeUnits_kinds ..).mono ?_ | refine translate_kinds (K := _) ?_ _ _ _ _ _ _ ?_ | refine (updQ_kinds ..).mono ?_ | refine (winClamp_kinds ..).mono ?_ | exact all_skip_i | refine all_cons ?_ ?_ | exact all_nil | refine all_seq_i ?_ ?_ | refine all_read_i fun _ => ?_ | refine all_when_i ?_ | refine all_each_i fun _ => ?_ | refine all_ifSome_i fun _ => ?_ | intro _ | split | dsimp only | contradiction

theorem rxServe_kinds (q : Nat) (n : Nat) : Prog.All (Act.among 0x7E47C800000000000000000000000000000011001E000000000000000000000000000000000000000000000000000000000000000340300050) (rxServe q n) := by
  induction n with
  | zero => unfold rxServe; repeat' with_reducible first | refine all_leaf ?_ | (show within _ _ = true; with_unfolding_all exact rfl) | (show Act.among _ _; with_unfolding_all exact tb rfl) | refine (fetchMore_kinds ..).mono ?_ | refine (rxOne_kinds ..).mono ?_ | exact all_skip_i | refine all_cons ?_ ?_ | exact all_nil | refine all_seq_i ?_ ?_ | refine all_read_i fun _ => ?_ | refine all_when_i ?_ | refine all_each_i fun _ => ?_ | refine all_ifSome_i fun _ => ?_ | split | dsimp only | contradiction
  | succ n ih => unfold rxServe; repeat' with_reducible first | refine all_leaf ?_ | (show within _ _ = true; with_unfolding_all exact rfl) | (show Act.among _ _; with_unfolding_all exact tb rfl) | refine (fetchMore_kinds ..).mono ?_ | refine (rxOne_kinds ..).mono ?_ | exact ih | exact all_skip_i | refine all_cons ?_ ?_ | exact all_nil | refine all_seq_i ?_ ?_ | refine all_read_i fun _ => ?_ | refine all_when_i ?_ | refine all_each_i fun _ => ?_ | refine all_ifSome_i fun _ => ?_ | split | dsimp only | contradiction

theorem rxServeAll_kinds (q : Nat) : Prog.All (Act.among 0x7E47C800000000000000000000000000000011001E000000000000000000000000000000000000000000000000000000000000000340300050) (rxServeAll q) := by
  unfold rxServeAll
  repeat' with_reducible first | refine all_leaf ?_ | (show within _ _ = true; with_unfolding_all exact rfl) | (show Act.among _ _; with_unfolding_all exact tb rfl) | refine (rxServe_kinds ..).mono ?_ | exact all_skip_i | refine all_cons ?_ ?_ | exact all_nil | refine all_seq_i ?_ ?_ | refine all_read_i fun _ => ?_ | refine all_when_i ?_ | refine all_each_i fun _ => ?_ | refine all_ifSome_i fun _ => ?_ | split | dsimp only | contradiction

theorem txFlush_kinds (q : Nat) (n : Nat) : Prog.All (Act.among 0x6A4548000000000000000000000000000000110000000000000000000000000000000000000000000000000000000000000000000140300010) (txFlush q n) := by
  induction n with
  | zero => unfold txFlush; repeat' with_reducible first | refine all_leaf ?_ | (show within _ _ = true; with_unfolding_all exact rfl) | (show Act.among _ _; with_unfolding_all exact tb rfl) | refine (badStatus_kinds ..).mono ?_ | refine (updQ_kinds ..).mono ?_ | refine (writeBack_kinds ..).mono ?_ | exact all_skip_i | refine all_cons ?_ ?_ | exact all_nil | refine all_seq_i ?_ ?_ | refine all_read_i fun _ => ?_ | refine all_when_i ?_ | refine all_each_i fun _ => ?_ | refine all_ifSome_i fun _ => ?_ | split | dsimp only | contradiction
  | succ n ih => unfold txFlush; repeat' with_reducible first | refine all_leaf ?_ | (show within _ _ = true; with_unfolding_all exact rfl) | (show Act.among _ _; with_unfolding_all exact tb rfl) | refine (badStatus_kinds ..).mono ?_ | refine (updQ_kinds ..).mono ?_ | refine (writeBack_kinds ..).mono ?_ | exact ih | exact all_skip_i | refine all_cons ?_ ?_ | exact all_nil | refine all_seq_i ?_ ?_ | refine all_read_i fun _ => ?_ | refine all_when_i ?_ | refine all_each_i fun _ => ?_ | refine all_ifSome_i fun _ => ?_ | split | dsimp only | contradiction

theorem txFlushAll_kinds (q : Nat) : Prog.All (Act.among 0x6A4548000000000000000000000000000000110000000000000000000000000000000000000000000000000000000000000000000140300010) (txFlushAll q) := by
  unfold txFlushAll
  repeat' with_reducible first | refine all_leaf ?_ | (show within _ _ = true; with_unfolding_all exact rfl) | (show Act.among _ _; with_unfolding_all exact tb rfl) | refine (txFlush_kinds ..).mono ?_ | exact all_skip_i | refine all_cons ?_ ?_ | exact all_nil | refine all_seq_i ?_ ?_ | refine all_read_i fun _ => ?_ | refine all_when_i ?_ | refine all_each_i fun _ => ?_ | refine all_ifSome_i fun _ => ?_ | split | dsimp only | contradiction

theorem txGathered_kinds (q : Nat) (status : Option Nat) : Prog.All (Act.among 0x6A4548000000000000000000000000000000110000000000000000000000000000000000000000000000000000000000000000000140300010) (txGathered q status) := by
  unfold txGathered
  repeat' with_reducible first | refine all_leaf ?_ | (show within _ _ = true; with_unfolding_all exact rfl) | (show Act.among _ _; with_unfolding_all exact tb rfl) | refine (txFlushAll_kinds ..).mono ?_ | refine (updQ_kinds ..).mono ?_ | exact all_skip_i | refine all_cons ?_ ?_ | exact all_nil | refine all_seq_i ?_ ?_ | refine all_read_i fun _ => ?_ | refine all_when_i ?_ | refine all_each_i fun _ => ?_ | refine all_ifSome_i fun _ => ?_ | split | dsimp only | contradiction

theorem txGather_kinds (q : Nat) (n : Nat) : Prog.All (Act.among 0x7E47C8000000000000000000000000000000110000000000000000000000000000000000000000000000000000000000000000000140300050) (txGather q n) := by
  induction n with
  | zero => unfold txGather; repeat' with_reducible first | refine all_leaf ?_ | (show within _ _ = true; with_unfolding_all exact rfl) | (show Act.among _ _; with_unfolding_all exact tb rfl) | refine (fetchMore_kinds ..).mono ?_ | refine (ringFault_kinds ..).mono ?_ | refine (send_kinds ..).mono ?_ | refine setF_kinds _ _ ?_ | refine (showPrefetched_kinds ..).mono ?_ | refine (takeUnits_kinds ..).mono ?_ | refine (txGathered_kinds ..).mono ?_ | refine (updQ_kinds ..).mono ?_ | refine (winClamp_kinds ..).mono ?_ | (show Nat.testBit _ _ = true; exact tb rfl) | (show lies _ _; (try dsimp only [F.QP_RX_HEAD_IDX_head, rf]); first | refine lies_ring_QP_RX_HEAD_IDX ?_ ?_ | refine lies_QP_RX_HEAD_IDX ?_ | split) | exact all_skip_i | refine all_cons ?_ ?_ | exact all_nil | refine all_seq_i ?_ ?_ | refine all_read_i fun _ => ?_ | refine all_when_i ?_ | refine all_each_i fun _ => ?_ | refine all_ifSome_i fun _ => ?_ | split | dsimp only | contradiction
  | succ n ih => unfold txGather; repeat' with_reducible first | refine all_leaf ?_ | (show within _ _ = true; with_unfolding_all exact rfl) | (show Act.among _ _; with_unfolding_all exact tb rfl) | refine (fetchMore_kinds ..).mono ?_ | refine (ringFault_kinds ..).mono ?_ | refine (send_kinds ..).mono ?_ | refine setF_kinds _ _ ?_ | refine (showPrefetched_kinds ..).mono ?_ | refine (takeUnits_kinds ..).mono ?_ | refine (txGathered_kinds ..).mono ?_ | refine (updQ_kinds ..).mono ?_ | refine (winClamp_kinds ..).mono ?_ | exact ih | (show Nat.testBit _ _ = true; exact tb rfl) | (show lies _ _; (try dsimp only [F.QP_RX_HEAD_IDX_head, rf]); first | refine lies_ring_QP_RX_HEAD_IDX ?_ ?_ | refine lies_QP_RX_HEAD_IDX ?_ | split) | exact all_skip_i | refine all_cons ?_ ?_ | exact all_nil | refine all_seq_i ?_ ?_ | refine all_read_i fun _ => ?_ | refine all_when_i ?_ | refine all_each_i fun _ => ?_ | refine all_ifSome_i fun _ => ?_ | split | dsimp only | contradiction

theorem txServe_kinds (q : Nat) : Prog.All (Act.among 0x7E47C8000000000000000000000000000000110000000000000000000000000000000000000000000000000000000000000000000140300050) (txServe q) := by
  unfold txServe
  repeat' with_reducible first | refine all_leaf ?_ | (show within _ _ = true; with_unfolding_all exact rfl) | (show Act.among _ _; with_unfolding_all exact tb rfl) | refine (txGather_kinds ..).mono ?_ | exact all_skip_i | refine all_cons ?_ ?_ | exact all_nil | refine all_seq_i ?_ ?_ | refine all_read_i fun _ => ?_ | refine all_when_i ?_ | refine all_each_i fun _ => ?_ | refine all_ifSome_i fun _ => ?_ | split | dsimp only | contradiction

theorem serve_kinds (q d : Nat) : Prog.All (Act.among 0x7E47C800000000000000000000000000000011001E000000000000000000000000000000000000000000000000000000000000000340300050) (serve q d) := by
  unfold serve
  repeat' with_reducible first | refine all_leaf ?_ | (show within _ _ = true; with_unfolding_all exact rfl) | (show Act.among _ _; with_unfolding_all exact tb rfl) | refine (rxServeAll_kinds ..).mono ?_ | refine (txServe_kinds ..).mono ?_ | exact all_skip_i | refine all_cons ?_ ?_ | exact all_nil | refine all_seq_i ?_ ?_ | refine all_read_i fun _ => ?_ | refine all_when_i ?_ | refine all_each_i fun _ => ?_ | refine all_ifSome_i fun _ => ?_ | split | dsimp only | contradiction

theorem serveRing_kinds (h : Nat) (r : Nat × Nat) : Prog.All (Act.among 0x7E47C800000000000000000000000000000011001E000000000000000000000000000000000000000000000000000000000000000340300050) (serveRing h r) := by
  unfold serveRing
  repeat' with_reducible first | refine all_leaf ?_ | (show within _ _ = true; with_unfolding_all exact rfl) | (show Act.among _ _; with_unfolding_all exact tb rfl) | refine (fetchMore_kinds ..).mono ?_ | refine (serve_kinds ..).mono ?_ | refine (updHead_kinds ..).mono ?_ | exact all_skip_i | refine all_cons ?_ ?_ | exact all_nil | refine all_seq_i ?_ ?_ | refine all_read_i fun _ => ?_ | refine all_when_i ?_ | refine all_each_i fun _ => ?_ | refine all_ifSome_i fun _ => ?_ | split | dsimp only | contradiction

theorem serveHead_kinds (h : Nat) : Prog.All (Act.among 0x7E47C800000000000000000000000000000011001E000000000000000000000000000000000000000000000000000000000000000340300050) (serveHead h) := by
  unfold serveHead
  repeat' with_reducible first | refine all_leaf ?_ | (show within _ _ = true; with_unfolding_all exact rfl) | (show Act.among _ _; with_unfolding_all exact tb rfl) | refine (serveRing_kinds ..).mono ?_ | exact all_skip_i | refine all_cons ?_ ?_ | exact all_nil | refine all_seq_i ?_ ?_ | refine all_read_i fun _ => ?_ | refine all_when_i ?_ | refine all_each_i fun _ => ?_ | refine all_ifSome_i fun _ => ?_ | split | dsimp only | contradiction

theorem descriptorFetchDone_kinds (q d : Nat) (failed : Bool) (ds : List (Nat × Nat × Nat × Nat)) : Prog.All (Act.among 0x7E47C800000000000000000000000000000011001E000000000000000000000000000000000000000000000000000000000000000340300050) (descriptorFetchDone q d failed ds) := by
  unfold descriptorFetchDone
  repeat' with_reducible first | refine all_leaf ?_ | (show within _ _ = true; with_unfolding_all exact rfl) | (show Act.among _ _; with_unfolding_all exact tb rfl) | refine (fetchMore_kinds ..).mono ?_ | refine (freeUnits_kinds ..).mono ?_ | refine raise_kinds _ _ (by exact tb rfl) ?_ | refine (serve_kinds ..).mono ?_ | refine (serveHead_kinds ..).mono ?_ | refine setF_kinds _ _ ?_ | refine (showPrefetched_kinds ..).mono ?_ | refine (updQ_kinds ..).mono ?_ | (show Nat.testBit _ _ = true; exact tb rfl) | (show lies _ _; (try dsimp only [F.QP_RX_STAT_own_wait, rf]); first | refine lies_ring_QP_RX_STAT ?_ ?_ | refine lies_QP_RX_STAT ?_ | refine lies_QP_EVENT ?_ | split) | exact all_skip_i | refine all_cons ?_ ?_ | exact all_nil | refine all_seq_i ?_ ?_ | refine all_read_i fun _ => ?_ | refine all_when_i ?_ | refine all_each_i fun _ => ?_ | refine all_ifSome_i fun _ => ?_ | split | dsimp only | contradiction

theorem ownRecheck_kinds (q d : Nat) : Prog.All (Act.among 0x20040000000000000000000000000000000010000000000000000000000000000000000000000000000000000000000000000000140200000) (ownRecheck q d) := by
  unfold ownRecheck
  repeat' with_reducible first | refine all_leaf ?_ | (show within _ _ = true; with_unfolding_all exact rfl) | (show Act.among _ _; with_unfolding_all exact tb rfl) | refine (fetchMore_kinds ..).mono ?_ | exact all_skip_i | refine all_cons ?_ ?_ | exact all_nil | refine all_seq_i ?_ ?_ | refine all_read_i fun _ => ?_ | refine all_when_i ?_ | refine all_each_i fun _ => ?_ | refine all_ifSome_i fun _ => ?_ | split | dsimp only | contradiction

theorem doorbell_kinds (h q d v : Nat) : Prog.All (Act.among 0x7E47C800000000000000000000000000000011001E000000000000000000000000000000000000000000000000000000000000000340300050) (doorbell h q d v) := by
  unfold doorbell
  repeat' with_reducible first | refine all_leaf ?_ | (show within _ _ = true; with_unfolding_all exact rfl) | (show Act.among _ _; with_unfolding_all exact tb rfl) | refine (emit_kinds ..).mono ?_ | refine (fetchMore_kinds ..).mono ?_ | refine (serve_kinds ..).mono ?_ | refine setF_kinds _ _ ?_ | (show Nat.testBit _ _ = true; exact tb rfl) | (show lies _ _; (try dsimp only [F.QP_RX_HEAD_IDX_tail, rf]); first | refine lies_ring_QP_RX_HEAD_IDX ?_ ?_ | refine lies_QP_RX_HEAD_IDX ?_ | split) | exact all_skip_i | refine all_cons ?_ ?_ | exact all_nil | refine all_seq_i ?_ ?_ | refine all_read_i fun _ => ?_ | refine all_when_i ?_ | refine all_each_i fun _ => ?_ | refine all_ifSome_i fun _ => ?_ | split | dsimp only | contradiction

theorem dataReadCompletion_kinds (q : Nat) (failed : Bool) (bytes : List Byte) : Prog.All (Act.among 0x7E47C800000000000000000000000000000011001E000000000000000000000000000000000000000000000000000000000000000340300050) (dataReadCompletion q failed bytes) := by
  unfold dataReadCompletion
  repeat' with_reducible first | refine all_leaf ?_ | (show within _ _ = true; with_unfolding_all exact rfl) | (show Act.among _ _; with_unfolding_all exact tb rfl) | refine (freeUnits_kinds ..).mono ?_ | refine (serveHead_kinds ..).mono ?_ | refine (txGathered_kinds ..).mono ?_ | refine (txServe_kinds ..).mono ?_ | refine (updQ_kinds ..).mono ?_ | exact all_skip_i | refine all_cons ?_ ?_ | exact all_nil | refine all_seq_i ?_ ?_ | refine all_read_i fun _ => ?_ | refine all_when_i ?_ | refine all_each_i fun _ => ?_ | refine all_ifSome_i fun _ => ?_ | split | dsimp only | contradiction

theorem goResponse_kinds (q d : Nat) : Prog.All (Act.among 0x7E47C800000000000000000000000000000011001E000000000000000000000000000000000000000000000000000000000000000340300050) (goResponse q d) := by
  unfold goResponse
  repeat' with_reducible first | refine all_leaf ?_ | (show within _ _ = true; with_unfolding_all exact rfl) | (show Act.among _ _; with_unfolding_all exact tb rfl) | refine (freeUnits_kinds ..).mono ?_ | refine (serve_kinds ..).mono ?_ | refine (serveHead_kinds ..).mono ?_ | refine (updHead_kinds ..).mono ?_ | refine (updQ_kinds ..).mono ?_ | refine (wbTry_kinds ..).mono ?_ | exact all_skip_i | refine all_cons ?_ ?_ | exact all_nil | refine all_seq_i ?_ ?_ | refine all_read_i fun _ => ?_ | refine all_when_i ?_ | refine all_each_i fun _ => ?_ | refine all_ifSome_i fun _ => ?_ | split | dsimp only | contradiction

theorem translated_kinds (q d : Nat) (ok : Bool) : Prog.All (Act.among 0x7E47C800000000000000000000000000000011001E000000000000000000000000000000000000000000000000000000000000000340300050) (translated q d ok) := by
  unfold translated
  repeat' with_reducible first | refine all_leaf ?_ | (show within _ _ = true; with_unfolding_all exact rfl) | (show Act.among _ _; with_unfolding_all exact tb rfl) | refine (badStatus_kinds ..).mono ?_ | refine (completed_kinds ..).mono ?_ | refine (rxOne_kinds ..).mono ?_ | refine (serve_kinds ..).mono ?_ | refine (updQ_kinds ..).mono ?_ | refine (wbTry_kinds ..).mono ?_ | exact all_skip_i | refine all_cons ?_ ?_ | exact all_nil | refine all_seq_i ?_ ?_ | refine all_read_i fun _ => ?_ | refine all_when_i ?_ | refine all_each_i fun _ => ?_ | refine all_ifSome_i fun _ => ?_ | split | dsimp only | contradiction

theorem translationCompletion_kinds (h addr len : Nat) (write : Bool) : Prog.All (Act.among 0x7E47C800000000000000000000000000000011001E000000000000000000000000000000000000000000000000000000000000000340300050) (translationCompletion h addr len write) := by
  unfold translationCompletion
  repeat' with_reducible first | refine all_leaf ?_ | (show within _ _ = true; with_unfolding_all exact rfl) | (show Act.among _ _; with_unfolding_all exact tb rfl) | refine (atcUse_kinds ..).mono ?_ | refine (freeUnits_kinds ..).mono ?_ | refine (serveHead_kinds ..).mono ?_ | refine (translated_kinds ..).mono ?_ | exact all_skip_i | refine all_cons ?_ ?_ | exact all_nil | refine all_seq_i ?_ ?_ | refine all_read_i fun _ => ?_ | refine all_when_i ?_ | refine all_each_i fun _ => ?_ | refine all_ifSome_i fun _ => ?_ | split | dsimp only | contradiction

theorem ringTimeout_kinds (h q d : Nat) (data : Bool) (tag : Nat) : Prog.All (Act.among 0x7E47C800000000000000000000000000000091001E000000000000000000000000000000000000000000000000000000000000000340300050) (ringTimeout h q d data tag) := by
  unfold ringTimeout
  repeat' with_reducible first | refine all_leaf ?_ | (show within _ _ = true; with_unfolding_all exact rfl) | (show Act.among _ _; with_unfolding_all exact tb rfl) | refine (dataReadCompletion_kinds ..).mono ?_ | refine (emit_kinds ..).mono ?_ | refine (freeUnits_kinds ..).mono ?_ | refine raise_kinds _ _ (by exact tb rfl) ?_ | refine (serve_kinds ..).mono ?_ | refine (serveHead_kinds ..).mono ?_ | refine (showPrefetched_kinds ..).mono ?_ | refine (updQ_kinds ..).mono ?_ | (show Nat.testBit _ _ = true; exact tb rfl) | (show lies _ _; first | refine lies_HEAD_EVENT ?_ | split) | exact all_skip_i | refine all_cons ?_ ?_ | exact all_nil | refine all_seq_i ?_ ?_ | refine all_read_i fun _ => ?_ | refine all_when_i ?_ | refine all_each_i fun _ => ?_ | refine all_ifSome_i fun _ => ?_ | split | dsimp only | contradiction

theorem atsOffRings_kinds (h : Nat) : Prog.All (Act.among 0x5602C0000000000000000000000000000000000000000000000000000000000000000000000000000000000000000000000000000040200050) (atsOffRings h) := by
  unfold atsOffRings
  repeat' with_reducible first | refine all_leaf ?_ | (show within _ _ = true; with_unfolding_all exact rfl) | (show Act.among _ _; with_unfolding_all exact tb rfl) | refine (ringFault_kinds ..).mono ?_ | exact all_skip_i | refine all_cons ?_ ?_ | exact all_nil | refine all_seq_i ?_ ?_ | refine all_read_i fun _ => ?_ | refine all_when_i ?_ | refine all_each_i fun _ => ?_ | refine all_ifSome_i fun _ => ?_ | split | dsimp only | contradiction

theorem celCfgWrite_kinds (path kcells : Nat) : Prog.All (Act.among 0x2000000000000000000000000000000000000000000000000000000000000040000000) (celCfgWrite path kcells) := by
  unfold celCfgWrite
  repeat' with_reducible first | refine all_leaf ?_ | (show within _ _ = true; with_unfolding_all exact rfl) | (show Act.among _ _; with_unfolding_all exact tb rfl) | refine (denied_kinds ..).mono ?_ | refine setF_kinds _ _ ?_ | (show Nat.testBit _ _ = true; exact tb rfl) | (show lies _ _; (try dsimp only [F.CEL_CFG_rx_kcells, F.QP_RX_CTL_en, F.QP_TX_CTL_en]); first | refine lies_CEL_CFG ?_ | split) | exact all_skip_i | refine all_cons ?_ ?_ | exact all_nil | refine all_seq_i ?_ ?_ | refine all_read_i fun _ => ?_ | refine all_when_i ?_ | refine all_each_i fun _ => ?_ | refine all_ifSome_i fun _ => ?_ | split | dsimp only | contradiction

theorem celShareWrite_kinds (path h d max_ guar : Nat) : Prog.All (Act.among 0x60000000000000000000000000000000000000000000000000000000000000040000000) (celShareWrite path h d max_ guar) := by
  unfold celShareWrite
  repeat' with_reducible first | refine all_leaf ?_ | (show within _ _ = true; with_unfolding_all exact rfl) | (show Act.among _ _; with_unfolding_all exact tb rfl) | refine (denied_kinds ..).mono ?_ | refine setF_kinds _ _ ?_ | (show Nat.testBit _ _ = true; exact tb rfl) | (show lies _ _; first | refine lies_CEL_HEAD_RX ?_ | refine lies_CEL_HEAD_TX ?_ | split) | exact all_skip_i | refine all_cons ?_ ?_ | exact all_nil | refine all_seq_i ?_ ?_ | refine all_read_i fun _ => ?_ | refine all_when_i ?_ | refine all_each_i fun _ => ?_ | refine all_ifSome_i fun _ => ?_ | split | dsimp only | contradiction

theorem cellError_kinds (ecc syndrome cell : Nat) : Prog.All (Act.among 0x600000000000000000000000000000000000000000000000000000000000000040000010) (cellError ecc syndrome cell) := by
  unfold cellError
  repeat' with_reducible first | refine all_leaf ?_ | (show within _ _ = true; with_unfolding_all exact rfl) | (show Act.among _ _; with_unfolding_all exact tb rfl) | refine (emit_kinds ..).mono ?_ | refine raise_kinds _ _ (by exact tb rfl) ?_ | refine satAdd_kinds _ _ ?_ | (show Nat.testBit _ _ = true; exact tb rfl) | (show lies _ _; (try dsimp only [F.CEL_ECC_corr, F.CEL_ECC_uncorr]); first | refine lies_CEL_ECC ?_ | refine lies_CEL_EVENT ?_ | split) | exact all_skip_i | refine all_cons ?_ ?_ | exact all_nil | refine all_seq_i ?_ ?_ | refine all_read_i fun _ => ?_ | refine all_when_i ?_ | refine all_each_i fun _ => ?_ | refine all_ifSome_i fun _ => ?_ | split | dsimp only | contradiction

theorem rxDrop_kinds (q : Nat) : Prog.All (Act.among 0x400200000000000000000000000000000000000000000000000000000000000000000000000000000000000000000000000000000000000010) (rxDrop q) := by
  unfold rxDrop
  repeat' with_reducible first | refine all_leaf ?_ | (show within _ _ = true; with_unfolding_all exact rfl) | (show Act.among _ _; with_unfolding_all exact tb rfl) | refine addWide_kinds _ _ _ ?_ | refine raise_kinds _ _ (by exact tb rfl) ?_ | refine lies_QP_RX_DROPS_words ?_ (by decide) | (show Nat.testBit _ _ = true; exact tb rfl) | (show lies _ _; first | refine lies_QP_RX_DROPS ?_ | refine lies_QP_RX_DROPS_at ?_ (by decide) (by decide) | refine lies_QP_EVENT ?_ | split) | exact all_skip_i | refine all_cons ?_ ?_ | exact all_nil | refine all_seq_i ?_ ?_ | refine all_read_i fun _ => ?_ | refine all_when_i ?_ | refine all_each_i fun _ => ?_ | refine all_ifSome_i fun _ => ?_ | split | dsimp only | contradiction

theorem toRing_kinds (q p need : Nat) (f : RxFrameX) (e : MacFrame) : Prog.All (Act.among 0x7E47C800000000000000000000000000000011001E700000000000000000000000000000000000000000000000000000000000000340300050) (toRing q p need f e) := by
  unfold toRing
  repeat' with_reducible first | refine all_leaf ?_ | (show within _ _ = true; with_unfolding_all exact rfl) | (show Act.among _ _; with_unfolding_all exact tb rfl) | refine addWide_kinds _ _ _ ?_ | refine (cellError_kinds ..).mono ?_ | refine raise_kinds _ _ (by exact tb rfl) ?_ | refine (rxDrop_kinds ..).mono ?_ | refine (rxServeAll_kinds ..).mono ?_ | refine (updQ_kinds ..).mono ?_ | refine lies_CEL_DROPS_words ?_ (by decide) | (show Nat.testBit _ _ = true; exact tb rfl) | (show lies _ _; first | refine lies_CEL_DROPS ?_ | refine lies_CEL_DROPS_at ?_ (by decide) (by decide) | refine lies_CEL_EVENT ?_ | split) | exact all_skip_i | refine all_cons ?_ ?_ | exact all_nil | refine all_seq_i ?_ ?_ | refine all_read_i fun _ => ?_ | refine all_when_i ?_ | refine all_each_i fun _ => ?_ | refine all_ifSome_i fun _ => ?_ | split | dsimp only | contradiction

theorem deliver_kinds (p : Nat) (f : MacFrame) (status : Nat) : Prog.All (Act.among 0x7E47C800000000043000000000000000000011019E700000000000000000000000000000000000000000000000000000000000000340300050) (deliver p f status) := by
  unfold deliver
  repeat' with_reducible first | refine all_leaf ?_ | (show within _ _ = true; with_unfolding_all exact rfl) | (show Act.among _ _; with_unfolding_all exact tb rfl) | refine addWide_kinds _ _ _ ?_ | refine raise_kinds _ _ (by exact tb rfl) ?_ | refine satAdd_kinds _ _ ?_ | refine (send_kinds ..).mono ?_ | refine (toRing_kinds ..).mono ?_ | refine lies_PORT_RX_FRAMES_words ?_ (by decide) | refine lies_PORT_RX_BYTES_words ?_ (by decide) | refine lies_PORT_RX_PAUSE_words ?_ (by decide) | (show Nat.testBit _ _ = true; exact tb rfl) | (show lies _ _; (try dsimp only [F.PKT_CLS_HIT_count, F.PKT_NOMATCH_count, F.PKT_PORT_DEF_qp, F.PKT_PORT_DEF_valid, F.PORT_MAC_CFG_max_len, F.PORT_MAC_CFG_stag_en]); first | refine lies_PKT_EVENT ?_ | refine lies_PKT_NOMATCH ?_ | refine lies_PKT_CLS_HIT ?_ | refine lies_PORT_RX_FRAMES ?_ | refine lies_PORT_RX_FRAMES_at ?_ (by decide) (by decide) | refine lies_PORT_RX_BYTES ?_ | refine lies_PORT_RX_BYTES_at ?_ (by decide) (by decide) | refine lies_PORT_RX_PAUSE ?_ | refine lies_PORT_RX_PAUSE_at ?_ (by decide) (by decide) | split) | exact all_skip_i | refine all_cons ?_ ?_ | exact all_nil | refine all_seq_i ?_ ?_ | refine all_read_i fun _ => ?_ | refine all_when_i ?_ | refine all_each_i fun _ => ?_ | refine all_ifSome_i fun _ => ?_ | split | dsimp only | contradiction

theorem macFrameReceive_kinds (p : Nat) (f : MacFrame) : Prog.All (Act.among 0x7E47C80060800007F000000000000020000011019E700000000000000000000000000000000000000000000000000000000000000340300050) (macFrameReceive p f) := by
  unfold macFrameReceive
  repeat' with_reducible first | refine all_leaf ?_ | (show within _ _ = true; with_unfolding_all exact rfl) | (show Act.among _ _; with_unfolding_all exact tb rfl) | refine addWide_kinds _ _ _ ?_ | refine (censusRecord_kinds ..).mono ?_ | refine (deliver_kinds ..).mono ?_ | refine (segMargin_kinds ..).mono ?_ | refine (send_kinds ..).mono ?_ | refine lies_CANE_LOSS_FRAMES_words ?_ (by decide) | refine lies_PORT_RX_FCS_ERR_words ?_ (by decide) | refine lies_PORT_RX_RUNT_words ?_ (by decide) | refine lies_PORT_RX_OVERSIZE_words ?_ (by decide) | refine lies_PORT_RX_ORPHAN_DROP_words ?_ (by decide) | (show Nat.testBit _ _ = true; exact tb rfl) | (show lies _ _; (try dsimp only [F.PORT_MAC_CFG_max_len, F.PORT_MAC_CFG_stag_en, F.PORT_STATE_orphan]); first | refine lies_CANE_LOSS_FRAMES ?_ | refine lies_CANE_LOSS_FRAMES_at ?_ (by decide) (by decide) | refine lies_PORT_RX_FCS_ERR ?_ | refine lies_PORT_RX_FCS_ERR_at ?_ (by decide) (by decide) | refine lies_PORT_RX_RUNT ?_ | refine lies_PORT_RX_RUNT_at ?_ (by decide) (by decide) | refine lies_PORT_RX_OVERSIZE ?_ | refine lies_PORT_RX_OVERSIZE_at ?_ (by decide) (by decide) | refine lies_PORT_RX_ORPHAN_DROP ?_ | refine lies_PORT_RX_ORPHAN_DROP_at ?_ (by decide) (by decide) | split) | exact all_skip_i | refine all_cons ?_ ?_ | exact all_nil | refine all_seq_i ?_ ?_ | refine all_read_i fun _ => ?_ | refine all_when_i ?_ | refine all_each_i fun _ => ?_ | refine all_ifSome_i fun _ => ?_ | split | dsimp only | contradiction

theorem txFinish_kinds (owner : Option (Nat × Nat)) (status ts : Nat) : Prog.All (Act.among 0x7E47C8000000000000000000000000000000110000000000000000000000000000000000000000000000000000000000000000000140300050) (txFinish owner status ts) := by
  unfold txFinish
  repeat' with_reducible first | refine all_leaf ?_ | (show within _ _ = true; with_unfolding_all exact rfl) | (show Act.among _ _; with_unfolding_all exact tb rfl) | refine (txFlushAll_kinds ..).mono ?_ | refine (txServe_kinds ..).mono ?_ | refine (updQ_kinds ..).mono ?_ | exact all_skip_i | refine all_cons ?_ ?_ | exact all_nil | refine all_seq_i ?_ ?_ | refine all_read_i fun _ => ?_ | refine all_when_i ?_ | refine all_each_i fun _ => ?_ | refine all_ifSome_i fun _ => ?_ | split | dsimp only | contradiction

theorem txHeads_kinds (p c : Nat) (n : Nat) : Prog.All (Act.among 0x7E47C8000000002000000000000000000000110000000000000000000000000000000000100000000000000000000000000000000140300050) (txHeads p c n) := by
  induction n with
  | zero => unfold txHeads; repeat' with_reducible first | refine all_leaf ?_ | (show within _ _ = true; with_unfolding_all exact rfl) | (show Act.among _ _; with_unfolding_all exact tb rfl) | refine addWide_kinds _ _ _ ?_ | refine satAdd_kinds _ _ ?_ | refine (txFinish_kinds ..).mono ?_ | refine (updPort_kinds ..).mono ?_ | refine lies_PORT_TX_OVERSIZE_words ?_ (by decide) | (show Nat.testBit _ _ = true; exact tb rfl) | (show lies _ _; (try dsimp only [F.LCH_GCL_STAT_too_long]); first | refine lies_LCH_GCL_STAT ?_ | refine lies_PORT_TX_OVERSIZE ?_ | refine lies_PORT_TX_OVERSIZE_at ?_ (by decide) (by decide) | split) | exact all_skip_i | refine all_cons ?_ ?_ | exact all_nil | refine all_seq_i ?_ ?_ | refine all_read_i fun _ => ?_ | refine all_when_i ?_ | refine all_each_i fun _ => ?_ | refine all_ifSome_i fun _ => ?_ | split | dsimp only | contradiction
  | succ n ih => unfold txHeads; repeat' with_reducible first | refine all_leaf ?_ | (show within _ _ = true; with_unfolding_all exact rfl) | (show Act.among _ _; with_unfolding_all exact tb rfl) | refine addWide_kinds _ _ _ ?_ | refine satAdd_kinds _ _ ?_ | refine (txFinish_kinds ..).mono ?_ | refine (updPort_kinds ..).mono ?_ | exact ih | refine lies_PORT_TX_OVERSIZE_words ?_ (by decide) | (show Nat.testBit _ _ = true; exact tb rfl) | (show lies _ _; (try dsimp only [F.LCH_GCL_STAT_too_long]); first | refine lies_LCH_GCL_STAT ?_ | refine lies_PORT_TX_OVERSIZE ?_ | refine lies_PORT_TX_OVERSIZE_at ?_ (by decide) (by decide) | split) | exact all_skip_i | refine all_cons ?_ ?_ | exact all_nil | refine all_seq_i ?_ ?_ | refine all_read_i fun _ => ?_ | refine all_when_i ?_ | refine all_each_i fun _ => ?_ | refine all_ifSome_i fun _ => ?_ | split | dsimp only | contradiction

theorem txLost_kinds (p : Nat) : Prog.All (Act.among 0x7E47C8000000000000000000000000000000110000000000000000000000000000000000000000000000000000000000000000000140300050) (txLost p) := by
  unfold txLost
  repeat' with_reducible first | refine all_leaf ?_ | (show within _ _ = true; with_unfolding_all exact rfl) | (show Act.among _ _; with_unfolding_all exact tb rfl) | refine (txFinish_kinds ..).mono ?_ | refine (updPort_kinds ..).mono ?_ | exact all_skip_i | refine all_cons ?_ ?_ | exact all_nil | refine all_seq_i ?_ ?_ | refine all_read_i fun _ => ?_ | refine all_when_i ?_ | refine all_each_i fun _ => ?_ | refine all_ifSome_i fun _ => ?_ | split | dsimp only | contradiction

theorem gateRelease_kinds (p : Nat) : Prog.All (Act.among 0x40) (gateRelease p) := by
  unfold gateRelease
  repeat' with_reducible first | refine all_leaf ?_ | (show within _ _ = true; with_unfolding_all exact rfl) | (show Act.among _ _; with_unfolding_all exact tb rfl) | refine (updPort_kinds ..).mono ?_ | exact all_skip_i | refine all_cons ?_ ?_ | exact all_nil | refine all_seq_i ?_ ?_ | refine all_read_i fun _ => ?_ | refine all_when_i ?_ | refine all_each_i fun _ => ?_ | refine all_ifSome_i fun _ => ?_ | split | dsimp only | contradiction

theorem txLook_kinds (p : Nat) : Prog.All (Act.among 0x7E47C8020000002000000000000000002500110000000000000000000000000000000000100000000000000000000000000000000140300350) (txLook p) := by
  unfold txLook
  repeat' with_reducible first | refine all_leaf ?_ | (show within _ _ = true; with_unfolding_all exact rfl) | (show Act.among _ _; with_unfolding_all exact tb rfl) | refine (gateRelease_kinds ..).mono ?_ | refine (lpiExitBegin_kinds ..).mono ?_ | refine (txHeads_kinds ..).mono ?_ | refine (txLost_kinds ..).mono ?_ | exact all_skip_i | refine all_cons ?_ ?_ | exact all_nil | refine all_seq_i ?_ ?_ | refine all_read_i fun _ => ?_ | refine all_when_i ?_ | refine all_each_i fun _ => ?_ | refine all_ifSome_i fun _ => ?_ | split | dsimp only | contradiction

theorem txLookAll_kinds : Prog.All (Act.among 0x7E47C8020000002000000000000000002500110000000000000000000000000000000000100000000000000000000000000000000140300350) (txLookAll) := by
  unfold txLookAll
  repeat' with_reducible first | refine all_leaf ?_ | (show within _ _ = true; with_unfolding_all exact rfl) | (show Act.among _ _; with_unfolding_all exact tb rfl) | refine (txLook_kinds ..).mono ?_ | exact all_skip_i | refine all_cons ?_ ?_ | exact all_nil | refine all_seq_i ?_ ?_ | refine all_read_i fun _ => ?_ | refine all_when_i ?_ | refine all_each_i fun _ => ?_ | refine all_ifSome_i fun _ => ?_ | split | dsimp only | contradiction

theorem txFrameFetched_kinds (q : Nat) : Prog.All (Act.among 0x7E47C8020000002000000000000000002500110000000000000000000000000000000000100000000000000000000000000000000140300350) (txFrameFetched q) := by
  unfold txFrameFetched
  repeat' with_reducible first | refine all_leaf ?_ | (show within _ _ = true; with_unfolding_all exact rfl) | (show Act.among _ _; with_unfolding_all exact tb rfl) | refine (txGathered_kinds ..).mono ?_ | refine (txLook_kinds ..).mono ?_ | refine (txServe_kinds ..).mono ?_ | refine (updPort_kinds ..).mono ?_ | exact all_skip_i | refine all_cons ?_ ?_ | exact all_nil | refine all_seq_i ?_ ?_ | refine all_read_i fun _ => ?_ | refine all_when_i ?_ | refine all_each_i fun _ => ?_ | refine all_ifSome_i fun _ => ?_ | split | dsimp only | contradiction

theorem txFrameStart_kinds (p ecc syndrome cell : Nat) : Prog.All (Act.among 0x7E47C8026080002000000000000000002500110000600000000000000000000000000000100000000000000000000000000000000140300350) (txFrameStart p ecc syndrome cell) := by
  unfold txFrameStart
  repeat' with_reducible first | refine all_leaf ?_ | (show within _ _ = true; with_unfolding_all exact rfl) | (show Act.among _ _; with_unfolding_all exact tb rfl) | refine (cellError_kinds ..).mono ?_ | refine (censusRecord_kinds ..).mono ?_ | refine (txFinish_kinds ..).mono ?_ | refine (txLook_kinds ..).mono ?_ | refine (updPort_kinds ..).mono ?_ | exact all_skip_i | refine all_cons ?_ ?_ | exact all_nil | refine all_seq_i ?_ ?_ | refine all_read_i fun _ => ?_ | refine all_when_i ?_ | refine all_each_i fun _ => ?_ | refine all_ifSome_i fun _ => ?_ | split | dsimp only | contradiction

theorem toLine_kinds (p : Nat) (f : TxFrame) (bytes : List Byte) : Prog.All (Act.among 0x1000000C0) (toLine p f bytes) := by
  unfold toLine
  repeat' with_reducible first | refine all_leaf ?_ | (show within _ _ = true; with_unfolding_all exact rfl) | (show Act.among _ _; with_unfolding_all exact tb rfl) | refine (pcsSend_kinds ..).mono ?_ | refine (send_kinds ..).mono ?_ | refine (updCane_kinds ..).mono ?_ | exact all_skip_i | refine all_cons ?_ ?_ | exact all_nil | refine all_seq_i ?_ ?_ | refine all_read_i fun _ => ?_ | refine all_when_i ?_ | refine all_each_i fun _ => ?_ | refine all_ifSome_i fun _ => ?_ | split | dsimp only | contradiction

theorem txFrameSent_kinds (p age : Nat) : Prog.All (Act.among 0x7E47C8026080003FF000000000000020250011019E7000000000000000000000000000001000000000000000000000000000000003403003D0) (txFrameSent p age) := by
  unfold txFrameSent
  repeat' with_reducible first | refine all_leaf ?_ | (show within _ _ = true; with_unfolding_all exact rfl) | (show Act.among _ _; with_unfolding_all exact tb rfl) | refine addWide_kinds _ _ _ ?_ | refine (macFrameReceive_kinds ..).mono ?_ | refine (toLine_kinds ..).mono ?_ | refine (txFinish_kinds ..).mono ?_ | refine (txLook_kinds ..).mono ?_ | refine (updPort_kinds ..).mono ?_ | refine lies_PORT_TX_FRAMES_words ?_ (by decide) | refine lies_PORT_TX_BYTES_words ?_ (by decide) | (show Nat.testBit _ _ = true; exact tb rfl) | (show lies _ _; (try dsimp only [F.PORT_SEG_TIMING_burst_timer, F.TB_PORT_ADJ_tx_adj]); first | refine lies_PORT_TX_FRAMES ?_ | refine lies_PORT_TX_FRAMES_at ?_ (by decide) (by decide) | refine lies_PORT_TX_BYTES ?_ | refine lies_PORT_TX_BYTES_at ?_ (by decide) (by decide) | split) | exact all_skip_i | refine all_cons ?_ ?_ | exact all_nil | refine all_seq_i ?_ ?_ | refine all_read_i fun _ => ?_ | refine all_when_i ?_ | refine all_each_i fun _ => ?_ | refine all_ifSome_i fun _ => ?_ | split | dsimp only | contradiction

theorem launchTime_kinds (p : Nat) : Prog.All (Act.among 0x7E47C8020000002000000000000000002500110000000000000000000000000000000000100000000000000000000000000000000140300350) (launchTime p) := by
  unfold launchTime
  repeat' with_reducible first | refine all_leaf ?_ | (show within _ _ = true; with_unfolding_all exact rfl) | (show Act.among _ _; with_unfolding_all exact tb rfl) | refine (txLook_kinds ..).mono ?_ | refine (updPort_kinds ..).mono ?_ | exact all_skip_i | refine all_cons ?_ ?_ | exact all_nil | refine all_seq_i ?_ ?_ | refine all_read_i fun _ => ?_ | refine all_when_i ?_ | refine all_each_i fun _ => ?_ | refine all_ifSome_i fun _ => ?_ | split | dsimp only | contradiction

theorem collisionAt_kinds (p n : Nat) (own late : Bool) : Prog.All (Act.among 0x7E47C8026E00002000000000000000002500110000000000000000000000000000000000100000000000000000000000000000000140300350) (collisionAt p n own late) := by
  unfold collisionAt
  repeat' with_reducible first | refine all_leaf ?_ | (show within _ _ = true; with_unfolding_all exact rfl) | (show Act.among _ _; with_unfolding_all exact tb rfl) | refine collision_kinds (K := _) ?_ _ _ _ _ _ ?_ ?_ | refine lateCollision_kinds (K := _) ?_ _ _ _ _ ?_ | refine (txFinish_kinds ..).mono ?_ | refine (txLook_kinds ..).mono ?_ | refine (updPort_kinds ..).mono ?_ | exact all_skip_i | refine all_cons ?_ ?_ | exact all_nil | refine all_seq_i ?_ ?_ | refine all_read_i fun _ => ?_ | refine all_when_i ?_ | refine all_each_i fun _ => ?_ | refine all_ifSome_i fun _ => ?_ | intro _ | split | dsimp only | contradiction

theorem flashError_kinds (a : Nat) : Prog.All (Act.among 0x40000000) (flashError a) := by
  unfold flashError
  repeat' with_reducible first | refine all_leaf ?_ | (show within _ _ = true; with_unfolding_all exact rfl) | (show Act.among _ _; with_unfolding_all exact tb rfl) | refine (emit_kinds ..).mono ?_ | exact all_skip_i | refine all_cons ?_ ?_ | exact all_nil | refine all_seq_i ?_ ?_ | refine all_read_i fun _ => ?_ | refine all_when_i ?_ | refine all_each_i fun _ => ?_ | refine all_ifSome_i fun _ => ?_ | split | dsimp only | contradiction

theorem flashShow_kinds (client : Nat) : Prog.All (Act.among 0x100000000000000000000000000000000000000000000000000000000000000000) (flashShow client) := by
  unfold flashShow
  repeat' with_reducible first | refine all_leaf ?_ | (show within _ _ = true; with_unfolding_all exact rfl) | (show Act.among _ _; with_unfolding_all exact tb rfl) | refine setF_kinds _ _ ?_ | (show Nat.testBit _ _ = true; exact tb rfl) | (show lies _ _; (try dsimp only [F.FSPI_STAT_buffered, F.FSPI_STAT_client, F.FSPI_STAT_suspended, F.FSPI_STAT_wip]); first | refine lies_FSPI_STAT ?_ | split) | exact all_skip_i | refine all_cons ?_ ?_ | exact all_nil | refine all_seq_i ?_ ?_ | refine all_read_i fun _ => ?_ | refine all_when_i ?_ | refine all_each_i fun _ => ?_ | refine all_ifSome_i fun _ => ?_ | split | dsimp only | contradiction

theorem flashReads_kinds : Prog.All (Act.among 0x101000000) (flashReads) := by
  unfold flashReads
  repeat' with_reducible first | refine all_leaf ?_ | (show within _ _ = true; with_unfolding_all exact rfl) | (show Act.among _ _; with_unfolding_all exact tb rfl) | refine (send_kinds ..).mono ?_ | refine (updFlash_kinds ..).mono ?_ | exact all_skip_i | refine all_cons ?_ ?_ | exact all_nil | refine all_seq_i ?_ ?_ | refine all_read_i fun _ => ?_ | refine all_when_i ?_ | refine all_each_i fun _ => ?_ | refine all_ifSome_i fun _ => ?_ | split | dsimp only | contradiction

theorem flashBegin_kinds (o : FlashOp) : Prog.All (Act.among 0x100000000000000000000000000000000000000000000000000000000101000000) (flashBegin o) := by
  unfold flashBegin
  repeat' with_reducible first | refine all_leaf ?_ | (show within _ _ = true; with_unfolding_all exact rfl) | (show Act.among _ _; with_unfolding_all exact tb rfl) | refine (flashShow_kinds ..).mono ?_ | refine (send_kinds ..).mono ?_ | refine (updFlash_kinds ..).mono ?_ | exact all_skip_i | refine all_cons ?_ ?_ | exact all_nil | refine all_seq_i ?_ ?_ | refine all_read_i fun _ => ?_ | refine all_when_i ?_ | refine all_each_i fun _ => ?_ | refine all_ifSome_i fun _ => ?_ | split | dsimp only | contradiction

theorem flashNext_kinds : Prog.All (Act.among 0x100000000000000000000000000000000000000000000000000000000101000000) (flashNext) := by
  unfold flashNext
  repeat' with_reducible first | refine all_leaf ?_ | (show within _ _ = true; with_unfolding_all exact rfl) | (show Act.among _ _; with_unfolding_all exact tb rfl) | refine (flashBegin_kinds ..).mono ?_ | refine flashReads_kinds.mono ?_ | refine (flashShow_kinds ..).mono ?_ | refine (updFlash_kinds ..).mono ?_ | exact all_skip_i | refine all_cons ?_ ?_ | exact all_nil | refine all_seq_i ?_ ?_ | refine all_read_i fun _ => ?_ | refine all_when_i ?_ | refine all_each_i fun _ => ?_ | refine all_ifSome_i fun _ => ?_ | split | dsimp only | contradiction

theorem flashDue_kinds : Prog.All (Act.among 0x100000000000000000000000000000000000000000000000000000000101000000) (flashDue) := by
  unfold flashDue
  repeat' with_reducible first | refine all_leaf ?_ | (show within _ _ = true; with_unfolding_all exact rfl) | (show Act.among _ _; with_unfolding_all exact tb rfl) | refine flashNext_kinds.mono ?_ | refine (updFlash_kinds ..).mono ?_ | exact all_skip_i | refine all_cons ?_ ?_ | exact all_nil | refine all_seq_i ?_ ?_ | refine all_read_i fun _ => ?_ | refine all_when_i ?_ | refine all_each_i fun _ => ?_ | refine all_ifSome_i fun _ => ?_ | split | dsimp only | contradiction

theorem windowByte_kinds (a : Nat) (b : Byte) : Prog.All (Act.among 0x1000000) (windowByte a b) := by
  unfold windowByte
  repeat' with_reducible first | refine all_leaf ?_ | (show within _ _ = true; with_unfolding_all exact rfl) | (show Act.among _ _; with_unfolding_all exact tb rfl) | refine (updFlash_kinds ..).mono ?_ | exact all_skip_i | refine all_cons ?_ ?_ | exact all_nil | refine all_seq_i ?_ ?_ | refine all_read_i fun _ => ?_ | refine all_when_i ?_ | refine all_each_i fun _ => ?_ | refine all_ifSome_i fun _ => ?_ | split | dsimp only | contradiction

theorem flashWindowWrite_kinds (a : Nat) (l : List Byte) : Prog.All (Act.among 0x4100000000000000000000000000000000000000000000000000000000141000010) (flashWindowWrite a l) := by
  unfold flashWindowWrite
  repeat' with_reducible first | refine all_leaf ?_ | (show within _ _ = true; with_unfolding_all exact rfl) | (show Act.among _ _; with_unfolding_all exact tb rfl) | refine (emit_kinds ..).mono ?_ | refine flashNext_kinds.mono ?_ | refine raise_kinds _ _ (by exact tb rfl) ?_ | refine (windowByte_kinds ..).mono ?_ | (show Nat.testBit _ _ = true; exact tb rfl) | (show lies _ _; first | refine lies_FSPI_EVENT ?_ | split) | exact all_skip_i | refine all_cons ?_ ?_ | exact all_nil | refine all_seq_i ?_ ?_ | refine all_read_i fun _ => ?_ | refine all_when_i ?_ | refine all_each_i fun _ => ?_ | refine all_ifSome_i fun _ => ?_ | split | dsimp only | contradiction

theorem flashWindowRead_kinds (a n : Nat) (ok : Bool) : Prog.All (Act.among 0x100000000000000000000000000000000000000000000000000000000141000000) (flashWindowRead a n ok) := by
  unfold flashWindowRead
  repeat' with_reducible first | refine all_leaf ?_ | (show within _ _ = true; with_unfolding_all exact rfl) | (show Act.among _ _; with_unfolding_all exact tb rfl) | refine flashDue_kinds.mono ?_ | refine (flashError_kinds ..).mono ?_ | refine flashNext_kinds.mono ?_ | refine (send_kinds ..).mono ?_ | refine (updFlash_kinds ..).mono ?_ | exact all_skip_i | refine all_cons ?_ ?_ | exact all_nil | refine all_seq_i ?_ ?_ | refine all_read_i fun _ => ?_ | refine all_when_i ?_ | refine all_each_i fun _ => ?_ | refine all_ifSome_i fun _ => ?_ | split | dsimp only | contradiction

theorem pageProgram_kinds : Prog.All (Act.among 0x100000000000000000000000000000000000000000000000000000000101000000) (pageProgram) := by
  unfold pageProgram
  repeat' with_reducible first | refine all_leaf ?_ | (show within _ _ = true; with_unfolding_all exact rfl) | (show Act.among _ _; with_unfolding_all exact tb rfl) | refine flashDue_kinds.mono ?_ | exact all_skip_i | refine all_cons ?_ ?_ | exact all_nil | refine all_seq_i ?_ ?_ | refine all_read_i fun _ => ?_ | refine all_when_i ?_ | refine all_each_i fun _ => ?_ | refine all_ifSome_i fun _ => ?_ | split | dsimp only | contradiction

theorem fspiFlush_kinds : Prog.All (Act.among 0x100000000000000000000000000000000000000000000000000000000101000000) (fspiFlush) := by
  unfold fspiFlush
  repeat' with_reducible first | refine all_leaf ?_ | (show within _ _ = true; with_unfolding_all exact rfl) | (show Act.among _ _; with_unfolding_all exact tb rfl) | refine flashDue_kinds.mono ?_ | exact all_skip_i | refine all_cons ?_ ?_ | exact all_nil | refine all_seq_i ?_ ?_ | refine all_read_i fun _ => ?_ | refine all_when_i ?_ | refine all_each_i fun _ => ?_ | refine all_ifSome_i fun _ => ?_ | split | dsimp only | contradiction

theorem flashErase_kinds (size : Nat) (go : Bool) : Prog.All (Act.among 0x5100000000000000000000000000000000000000000000000000000000101000010) (flashErase size go) := by
  unfold flashErase
  repeat' with_reducible first | refine all_leaf ?_ | (show within _ _ = true; with_unfolding_all exact rfl) | (show Act.among _ _; with_unfolding_all exact tb rfl) | refine flashNext_kinds.mono ?_ | refine raise_kinds _ _ (by exact tb rfl) ?_ | refine setF_kinds _ _ ?_ | refine (updFlash_kinds ..).mono ?_ | (show Nat.testBit _ _ = true; exact tb rfl) | (show lies _ _; (try dsimp only [F.FSPI_ERASE_ADDR_addr, F.FSPI_ERASE_CTL_go, F.FSPI_ERASE_CTL_result, F.FSPI_ERASE_CTL_size]); first | refine lies_FSPI_ERASE_CTL ?_ | refine lies_FSPI_EVENT ?_ | split) | exact all_skip_i | refine all_cons ?_ ?_ | exact all_nil | refine all_seq_i ?_ ?_ | refine all_read_i fun _ => ?_ | refine all_when_i ?_ | refine all_each_i fun _ => ?_ | refine all_ifSome_i fun _ => ?_ | split | dsimp only | contradiction

theorem flashEffect_kinds (o : FlashOp) (ok : Bool) : Prog.All (Act.among 0x200008000) (flashEffect o ok) := by
  unfold flashEffect
  repeat' with_reducible first | refine all_leaf ?_ | (show within _ _ = true; with_unfolding_all exact rfl) | (show Act.among _ _; with_unfolding_all exact tb rfl) | exact all_skip_i | refine all_cons ?_ ?_ | exact all_nil | refine all_seq_i ?_ ?_ | refine all_read_i fun _ => ?_ | refine all_when_i ?_ | refine all_each_i fun _ => ?_ | refine all_ifSome_i fun _ => ?_ | split | dsimp only | contradiction

theorem eraseEnds_kinds (result : Nat) : Prog.All (Act.among 0x5000000000000000000000000000000000000000000000000000000000000000010) (eraseEnds result) := by
  unfold eraseEnds
  repeat' with_reducible first | refine all_leaf ?_ | (show within _ _ = true; with_unfolding_all exact rfl) | (show Act.among _ _; with_unfolding_all exact tb rfl) | refine raise_kinds _ _ (by exact tb rfl) ?_ | refine setF_kinds _ _ ?_ | (show Nat.testBit _ _ = true; exact tb rfl) | (show lies _ _; (try dsimp only [F.FSPI_ERASE_CTL_go, F.FSPI_ERASE_CTL_result]); first | refine lies_FSPI_ERASE_CTL ?_ | refine lies_FSPI_EVENT ?_ | split) | exact all_skip_i | refine all_cons ?_ ?_ | exact all_nil | refine all_seq_i ?_ ?_ | refine all_read_i fun _ => ?_ | refine all_when_i ?_ | refine all_each_i fun _ => ?_ | refine all_ifSome_i fun _ => ?_ | split | dsimp only | contradiction

theorem programComplete_kinds (failed : Bool) : Prog.All (Act.among 0x5100000000000000000000000000000000000000000000000000000000341008010) (programComplete failed) := by
  unfold programComplete
  repeat' with_reducible first | refine all_leaf ?_ | (show within _ _ = true; with_unfolding_all exact rfl) | (show Act.among _ _; with_unfolding_all exact tb rfl) | refine (eraseEnds_kinds ..).mono ?_ | refine (flashEffect_kinds ..).mono ?_ | refine (flashError_kinds ..).mono ?_ | refine flashNext_kinds.mono ?_ | refine raise_kinds _ _ (by exact tb rfl) ?_ | refine (updFlash_kinds ..).mono ?_ | (show Nat.testBit _ _ = true; exact tb rfl) | (show lies _ _; (try dsimp only [F.FSPI_FAIL_CFG_fail_bit]); first | refine lies_FSPI_EVENT ?_ | split) | exact all_skip_i | refine all_cons ?_ ?_ | exact all_nil | refine all_seq_i ?_ ?_ | refine all_read_i fun _ => ?_ | refine all_when_i ?_ | refine all_each_i fun _ => ?_ | refine all_ifSome_i fun _ => ?_ | split | dsimp only | contradiction

theorem flashTimeout_kinds : Prog.All (Act.among 0x5000000000000000000000000000000000000000000000000000000000241008010) (flashTimeout) := by
  unfold flashTimeout
  repeat' with_reducible first | refine all_leaf ?_ | (show within _ _ = true; with_unfolding_all exact rfl) | (show Act.among _ _; with_unfolding_all exact tb rfl) | refine (eraseEnds_kinds ..).mono ?_ | refine (flashEffect_kinds ..).mono ?_ | refine (flashError_kinds ..).mono ?_ | refine raise_kinds _ _ (by exact tb rfl) ?_ | refine (updFlash_kinds ..).mono ?_ | (show Nat.testBit _ _ = true; exact tb rfl) | (show lies _ _; first | refine lies_FSPI_EVENT ?_ | split) | exact all_skip_i | refine all_cons ?_ ?_ | exact all_nil | refine all_seq_i ?_ ?_ | refine all_read_i fun _ => ?_ | refine all_when_i ?_ | refine all_each_i fun _ => ?_ | refine all_ifSome_i fun _ => ?_ | split | dsimp only | contradiction

theorem eraseSuspend_kinds : Prog.All (Act.among 0x100000000000000000000000000000000000000000000000000000000101000000) (eraseSuspend) := by
  unfold eraseSuspend
  repeat' with_reducible first | refine all_leaf ?_ | (show within _ _ = true; with_unfolding_all exact rfl) | (show Act.among _ _; with_unfolding_all exact tb rfl) | refine flashNext_kinds.mono ?_ | refine (send_kinds ..).mono ?_ | refine (updFlash_kinds ..).mono ?_ | exact all_skip_i | refine all_cons ?_ ?_ | exact all_nil | refine all_seq_i ?_ ?_ | refine all_read_i fun _ => ?_ | refine all_when_i ?_ | refine all_each_i fun _ => ?_ | refine all_ifSome_i fun _ => ?_ | split | dsimp only | contradiction

theorem eraseResume_kinds : Prog.All (Act.among 0x100000000000000000000000000000000000000000000000000000000101000000) (eraseResume) := by
  unfold eraseResume
  repeat' with_reducible first | refine all_leaf ?_ | (show within _ _ = true; with_unfolding_all exact rfl) | (show Act.among _ _; with_unfolding_all exact tb rfl) | refine (flashShow_kinds ..).mono ?_ | refine (send_kinds ..).mono ?_ | refine (updFlash_kinds ..).mono ?_ | exact all_skip_i | refine all_cons ?_ ?_ | exact all_nil | refine all_seq_i ?_ ?_ | refine all_read_i fun _ => ?_ | refine all_when_i ?_ | refine all_each_i fun _ => ?_ | refine all_ifSome_i fun _ => ?_ | split | dsimp only | contradiction

theorem flashReset_kinds : Prog.All (Act.among 0x301008000) (flashReset) := by
  unfold flashReset
  repeat' with_reducible first | refine all_leaf ?_ | (show within _ _ = true; with_unfolding_all exact rfl) | (show Act.among _ _; with_unfolding_all exact tb rfl) | refine (flashEffect_kinds ..).mono ?_ | refine (send_kinds ..).mono ?_ | refine (updFlash_kinds ..).mono ?_ | exact all_skip_i | refine all_cons ?_ ?_ | exact all_nil | refine all_seq_i ?_ ?_ | refine all_read_i fun _ => ?_ | refine all_when_i ?_ | refine all_each_i fun _ => ?_ | refine all_ifSome_i fun _ => ?_ | split | dsimp only | contradiction

theorem windowClamp_kinds (s : State) (c a n : Nat) (write : Bool) : Prog.All (Act.among 0x40000000) (windowClamp s c a n write) := by
  unfold windowClamp
  repeat' with_reducible first | refine all_leaf ?_ | (show within _ _ = true; with_unfolding_all exact rfl) | (show Act.among _ _; with_unfolding_all exact tb rfl) | refine (winClamp_kinds ..).mono ?_ | exact all_skip_i | refine all_cons ?_ ?_ | exact all_nil | refine all_seq_i ?_ ?_ | refine all_read_i fun _ => ?_ | refine all_when_i ?_ | refine all_each_i fun _ => ?_ | refine all_ifSome_i fun _ => ?_ | split | dsimp only | contradiction

theorem chanFree_kinds (c : Nat) : Prog.All (Act.among 0x10000000000000000000000000000000000000000000000000000000000000000000000400000) (chanFree c) := by
  unfold chanFree
  repeat' with_reducible first | refine all_leaf ?_ | (show within _ _ = true; with_unfolding_all exact rfl) | (show Act.among _ _; with_unfolding_all exact tb rfl) | refine (freeUnits_kinds ..).mono ?_ | refine (updChan_kinds ..).mono ?_ | exact all_skip_i | refine all_cons ?_ ?_ | exact all_nil | refine all_seq_i ?_ ?_ | refine all_read_i fun _ => ?_ | refine all_when_i ?_ | refine all_each_i fun _ => ?_ | refine all_ifSome_i fun _ => ?_ | split | dsimp only | contradiction

theorem chanHalt_kinds (c cause addr : Nat) : Prog.All (Act.among 0x10000000000000300000000000000000000000000000000000000000000000000000000400000) (chanHalt c cause addr) := by
  unfold chanHalt
  repeat' with_reducible first | refine all_leaf ?_ | (show within _ _ = true; with_unfolding_all exact rfl) | (show Act.among _ _; with_unfolding_all exact tb rfl) | refine (chanFree_kinds ..).mono ?_ | refine setF_kinds _ _ ?_ | refine setWide_kinds _ _ _ ?_ | refine (updChan_kinds ..).mono ?_ | refine lies_MCH_CUR_words ?_ (by decide) | (show Nat.testBit _ _ = true; exact tb rfl) | (show lies _ _; (try dsimp only [F.MCH_STAT_halt_cause, F.MCH_STAT_state]); first | refine lies_MCH_CUR ?_ | refine lies_MCH_CUR_at ?_ (by decide) (by decide) | refine lies_MCH_STAT ?_ | split) | exact all_skip_i | refine all_cons ?_ ?_ | exact all_nil | refine all_seq_i ?_ ?_ | refine all_read_i fun _ => ?_ | refine all_when_i ?_ | refine all_each_i fun _ => ?_ | refine all_ifSome_i fun _ => ?_ | split | dsimp only | contradiction

theorem chanFault_kinds (c sub addr : Nat) : Prog.All (Act.among 0x10000000000020300000000000000000000000000000000000000000000000000000040400010) (chanFault c sub addr) := by
  unfold chanFault
  repeat' with_reducible first | refine all_leaf ?_ | (show within _ _ = true; with_unfolding_all exact rfl) | (show Act.among _ _; with_unfolding_all exact tb rfl) | refine (chanHalt_kinds ..).mono ?_ | refine (emit_kinds ..).mono ?_ | refine raise_kinds _ _ (by exact tb rfl) ?_ | (show Nat.testBit _ _ = true; exact tb rfl) | (show lies _ _; first | refine lies_MCH_EVENT ?_ | split) | exact all_skip_i | refine all_cons ?_ ?_ | exact all_nil | refine all_seq_i ?_ ?_ | refine all_read_i fun _ => ?_ | refine all_when_i ?_ | refine all_each_i fun _ => ?_ | refine all_ifSome_i fun _ => ?_ | split | dsimp only | contradiction

theorem chanFetch_kinds (c a : Nat) : Prog.All (Act.among 0x10000000000020300000000000000000000000000000000000000000000000000000140400010) (chanFetch c a) := by
  unfold chanFetch
  repeat' with_reducible first | refine all_leaf ?_ | (show within _ _ = true; with_unfolding_all exact rfl) | (show Act.among _ _; with_unfolding_all exact tb rfl) | refine (chanFault_kinds ..).mono ?_ | refine (chanHalt_kinds ..).mono ?_ | refine (emit_kinds ..).mono ?_ | refine raise_kinds _ _ (by exact tb rfl) ?_ | refine (send_kinds ..).mono ?_ | refine (takeUnits_kinds ..).mono ?_ | refine (updChan_kinds ..).mono ?_ | refine (windowClamp_kinds ..).mono ?_ | (show Nat.testBit _ _ = true; exact tb rfl) | (show lies _ _; (try dsimp only [F.MCH_HOPS_hops]); first | refine lies_MCH_EVENT ?_ | split) | exact all_skip_i | refine all_cons ?_ ?_ | exact all_nil | refine all_seq_i ?_ ?_ | refine all_read_i fun _ => ?_ | refine all_when_i ?_ | refine all_each_i fun _ => ?_ | refine all_ifSome_i fun _ => ?_ | split | dsimp only | contradiction

theorem chanTake_kinds (c : Nat) : Prog.All (Act.among 0x10000000000000000000000000000000000000000000000000000000000000000000000400000) (chanTake c) := by
  unfold chanTake
  repeat' with_reducible first | refine all_leaf ?_ | (show within _ _ = true; with_unfolding_all exact rfl) | (show Act.among _ _; with_unfolding_all exact tb rfl) | refine (takeUnits_kinds ..).mono ?_ | refine (updChan_kinds ..).mono ?_ | exact all_skip_i | refine all_cons ?_ ?_ | exact all_nil | refine all_seq_i ?_ ?_ | refine all_read_i fun _ => ?_ | refine all_when_i ?_ | refine all_each_i fun _ => ?_ | refine all_ifSome_i fun _ => ?_ | split | dsimp only | contradiction

theorem mdmaDescFetched_kinds (c : Nat) (failed : Bool) (words : Nat × Nat × Nat × Nat) : Prog.All (Act.among 0x10000000000020F00000000000000000000000000000000000000000000000000000040400010) (mdmaDescFetched c failed words) := by
  unfold mdmaDescFetched
  repeat' with_reducible first | refine all_leaf ?_ | (show within _ _ = true; with_unfolding_all exact rfl) | (show Act.among _ _; with_unfolding_all exact tb rfl) | refine (chanFault_kinds ..).mono ?_ | refine (chanFree_kinds ..).mono ?_ | refine (chanTake_kinds ..).mono ?_ | refine setF_kinds _ _ ?_ | refine setWide_kinds _ _ _ ?_ | refine (updChan_kinds ..).mono ?_ | refine lies_MCH_CUR_words ?_ (by decide) | (show Nat.testBit _ _ = true; exact tb rfl) | (show lies _ _; (try dsimp only [F.MCH_HOPS_hops, F.MCH_REMAIN_bytes]); first | refine lies_MCH_CUR ?_ | refine lies_MCH_CUR_at ?_ (by decide) (by decide) | refine lies_MCH_HOPS ?_ | refine lies_MCH_REMAIN ?_ | split) | exact all_skip_i | refine all_cons ?_ ?_ | exact all_nil | refine all_seq_i ?_ ?_ | refine all_read_i fun _ => ?_ | refine all_when_i ?_ | refine all_each_i fun _ => ?_ | refine all_ifSome_i fun _ => ?_ | split | dsimp only | contradiction

theorem regionWrite_kinds (a : Nat) (l : List Byte) : Prog.All (Act.among 0x100038000) (regionWrite a l) := by
  unfold regionWrite
  repeat' with_reducible first | refine all_leaf ?_ | (show within _ _ = true; with_unfolding_all exact rfl) | (show Act.among _ _; with_unfolding_all exact tb rfl) | refine (send_kinds ..).mono ?_ | exact all_skip_i | refine all_cons ?_ ?_ | exact all_nil | refine all_seq_i ?_ ?_ | refine all_read_i fun _ => ?_ | refine all_when_i ?_ | refine all_each_i fun _ => ?_ | refine all_ifSome_i fun _ => ?_ | split | dsimp only | contradiction

theorem refusedNote_kinds (s : State) (c a n reason : Nat) (write : Bool) : Prog.All (Act.among 0x40000000) (refusedNote s c a n reason write) := by
  unfold refusedNote
  repeat' with_reducible first | refine all_leaf ?_ | (show within _ _ = true; with_unfolding_all exact rfl) | (show Act.among _ _; with_unfolding_all exact tb rfl) | refine (flashError_kinds ..).mono ?_ | refine (windowClamp_kinds ..).mono ?_ | exact all_skip_i | refine all_cons ?_ ?_ | exact all_nil | refine all_seq_i ?_ ?_ | refine all_read_i fun _ => ?_ | refine all_when_i ?_ | refine all_each_i fun _ => ?_ | refine all_ifSome_i fun _ => ?_ | split | dsimp only | contradiction

theorem mdmaMove_kinds {K : Nat} (hK : within 0x4000000000000000000000000000000000000000000000000000000000340038010 K = true) (c mode : Nat) (k : Nat → Nat → Nat → Prog) (w0 : Nat) (x : MdmaData)
    (l : List Run) (hs hd : List Byte) (done : Nat) (h_k : ∀ a b d, Prog.All (Act.among K) (k a b d)) :
    Prog.All (Act.among K) (mdmaMove c mode k w0 x l hs hd done) := by
  induction l generalizing hs hd done with
  | nil => exact h_k _ _ _
  | cons a t ih =>
    cases a <;> unfold mdmaMove <;> repeat' with_reducible first | refine all_leaf ?_ | (show Act.among _ _; with_unfolding_all exact testBit_within hK (tb rfl)) | exact within_trans (by with_unfolding_all exact rfl) hK | exact h_k _ _ _ | exact ih _ _ _ | refine (flashError_kinds ..).mono ?_ | refine raise_kinds _ _ (by exact testBit_within hK (tb rfl)) ?_ | refine (refusedNote_kinds ..).mono ?_ | refine (regionWrite_kinds ..).mono ?_ | (show Nat.testBit _ _ = true; exact testBit_within hK (tb rfl)) | (show lies _ _; first | refine lies_FSPI_EVENT ?_ | split) | exact all_skip_i | refine all_cons ?_ ?_ | exact all_nil | refine all_seq_i ?_ ?_ | refine all_read_i fun _ => ?_ | refine all_when_i ?_ | refine all_each_i fun _ => ?_ | refine all_ifSome_i fun _ => ?_ | split | dsimp only | contradiction

theorem cellarFilled_kinds (a n : Nat) : Prog.All (Act.among 0x404000000000000000000000000000000000000000000000000000000000000000800010) (cellarFilled a n) := by
  unfold cellarFilled
  repeat' with_reducible first | refine all_leaf ?_ | (show within _ _ = true; with_unfolding_all exact rfl) | (show Act.among _ _; with_unfolding_all exact tb rfl) | refine raise_kinds _ _ (by exact tb rfl) ?_ | refine setF_kinds _ _ ?_ | (show Nat.testBit _ _ = true; exact tb rfl) | (show lies _ _; (try dsimp only [F.CEL_STAT_init_done]); first | refine lies_CEL_STAT ?_ | refine lies_CEL_EVENT ?_ | split) | exact all_skip_i | refine all_cons ?_ ?_ | exact all_nil | refine all_seq_i ?_ ?_ | refine all_read_i fun _ => ?_ | refine all_when_i ?_ | refine all_each_i fun _ => ?_ | refine all_ifSome_i fun _ => ?_ | split | dsimp only | contradiction

theorem sideFilled_kinds (l : List (Nat × Nat)) (n : Nat) : Prog.All (Act.among 0x404000000000000000000000000000000000000000000000000000000000000000800010) (sideFilled l n) := by
  induction l generalizing n with
  | nil => exact trivial
  | cons a t ih =>
    obtain ⟨a, m⟩ := a
    unfold sideFilled
    refine all_cons (all_when_i ?_) (all_cons (ih _) all_nil)
    with_reducible refine (cellarFilled_kinds ..).mono ?_
    with_unfolding_all exact rfl

theorem reread_kinds {K : Nat} (hK : within 0x10000000000020300000000000000000000000000000000000000000000000000000040400010 K = true) (c a : Nat) (host : Option Nat) (k : Option Nat → Prog) (h_k : ∀ v0, Prog.All (Act.among K) (k v0)) : Prog.All (Act.among K) (reread c a host k) := by
  unfold reread
  repeat' with_reducible first | refine all_leaf ?_ | (show Act.among _ _; with_unfolding_all exact testBit_within hK (tb rfl)) | exact within_trans (by with_unfolding_all exact rfl) hK | exact h_k _ | refine (chanFault_kinds ..).mono ?_ | exact all_skip_i | refine all_cons ?_ ?_ | exact all_nil | refine all_seq_i ?_ ?_ | refine all_read_i fun _ => ?_ | refine all_when_i ?_ | refine all_each_i fun _ => ?_ | refine all_ifSome_i fun _ => ?_ | split | dsimp only | contradiction

theorem chanNext_kinds (c a : Nat) (d : DescX) (host : Option Nat) : Prog.All (Act.among 0x10000000000020300000000000000000000000000000000000000000000000000000140400010) (chanNext c a d host) := by
  unfold chanNext
  repeat' with_reducible first | refine all_leaf ?_ | (show within _ _ = true; with_unfolding_all exact rfl) | (show Act.among _ _; with_unfolding_all exact tb rfl) | refine (chanFetch_kinds ..).mono ?_ | refine raise_kinds _ _ (by exact tb rfl) ?_ | refine reread_kinds (K := _) ?_ _ _ _ _ ?_ | refine setF_kinds _ _ ?_ | refine (updChan_kinds ..).mono ?_ | (show Nat.testBit _ _ = true; exact tb rfl) | (show lies _ _; (try dsimp only [F.MCH_STAT_state]); first | refine lies_MCH_STAT ?_ | refine lies_MCH_EVENT ?_ | split) | exact all_skip_i | refine all_cons ?_ ?_ | exact all_nil | refine all_seq_i ?_ ?_ | refine all_read_i fun _ => ?_ | refine all_when_i ?_ | refine all_each_i fun _ => ?_ | refine all_ifSome_i fun _ => ?_ | intro _ | split | dsimp only | contradiction

theorem chanFinish_kinds (c status reason done : Nat) (wbFail : Bool) (host : Option Nat) : Prog.All (Act.among 0x1000000000003FB00000000000000000000000000000000000000000000000000000140438010) (chanFinish c status reason done wbFail host) := by
  unfold chanFinish
  repeat' with_reducible first | refine all_leaf ?_ | (show within _ _ = true; with_unfolding_all exact rfl) | (show Act.among _ _; with_unfolding_all exact tb rfl) | refine addWide_kinds _ _ _ ?_ | refine (chanFault_kinds ..).mono ?_ | refine (chanFree_kinds ..).mono ?_ | refine (chanHalt_kinds ..).mono ?_ | refine (chanNext_kinds ..).mono ?_ | refine (emit_kinds ..).mono ?_ | refine raise_kinds _ _ (by exact tb rfl) ?_ | refine (regionWrite_kinds ..).mono ?_ | refine (send_kinds ..).mono ?_ | refine setF_kinds _ _ ?_ | refine setWide_kinds _ _ _ ?_ | refine wrapAdd_kinds _ _ ?_ | refine lies_MCH_DONE_words ?_ (by decide) | refine lies_MCH_BYTES_words ?_ (by decide) | refine lies_MCH_LAST_BAD_words ?_ (by decide) | (show Nat.testBit _ _ = true; exact tb rfl) | (show lies _ _; (try dsimp only [F.MCH_CFG_halt_mismatch, F.MCH_CMP_OFS_ofs, F.MCH_IRQ_COUNT_count, F.MCH_REMAIN_bytes, F.MCH_STAT_bad_reason]); first | refine lies_MCH_STAT ?_ | refine lies_MCH_REMAIN ?_ | refine lies_MCH_DONE ?_ | refine lies_MCH_DONE_at ?_ (by decide) (by decide) | refine lies_MCH_BYTES ?_ | refine lies_MCH_BYTES_at ?_ (by decide) (by decide) | refine lies_MCH_IRQ_COUNT ?_ | refine lies_MCH_CMP_OFS ?_ | refine lies_MCH_LAST_BAD ?_ | refine lies_MCH_LAST_BAD_at ?_ (by decide) (by decide) | refine lies_MCH_EVENT ?_ | split) | exact all_skip_i | refine all_cons ?_ ?_ | exact all_nil | refine all_seq_i ?_ ?_ | refine all_read_i fun _ => ?_ | refine all_when_i ?_ | refine all_each_i fun _ => ?_ | refine all_ifSome_i fun _ => ?_ | split | dsimp only | contradiction

theorem chanMoved_kinds (c : Nat) (dst : Side) (wbFail : Bool) (host : Option Nat) (status reason done : Nat) : Prog.All (Act.among 0x1000040400003FB00000000000000000000000000000000000000000000000000000140C38010) (chanMoved c dst wbFail host status reason done) := by
  unfold chanMoved
  repeat' with_reducible first | refine all_leaf ?_ | (show within _ _ = true; with_unfolding_all exact rfl) | (show Act.among _ _; with_unfolding_all exact tb rfl) | refine (chanFinish_kinds ..).mono ?_ | refine (send_kinds ..).mono ?_ | refine (sideFilled_kinds ..).mono ?_ | refine (takeUnits_kinds ..).mono ?_ | refine (updChan_kinds ..).mono ?_ | exact all_skip_i | refine all_cons ?_ ?_ | exact all_nil | refine all_seq_i ?_ ?_ | refine all_read_i fun _ => ?_ | refine all_when_i ?_ | refine all_each_i fun _ => ?_ | refine all_ifSome_i fun _ => ?_ | split | dsimp only | contradiction

theorem mdmaDescComplete_kinds (c : Nat) (x : MdmaData) (wbFail : Bool) (host : Option Nat) : Prog.All (Act.among 0x1000040400403FB00000000000000000000000000000000000000000000000000000340C38010) (mdmaDescComplete c x wbFail host) := by
  unfold mdmaDescComplete
  repeat' with_reducible first | refine all_leaf ?_ | (show within _ _ = true; with_unfolding_all exact rfl) | (show Act.among _ _; with_unfolding_all exact tb rfl) | refine (chanMoved_kinds ..).mono ?_ | refine mdmaMove_kinds ?_ _ _ _ _ _ _ _ _ _ ?_ | exact all_skip_i | refine all_cons ?_ ?_ | exact all_nil | refine all_seq_i ?_ ?_ | refine all_read_i fun _ => ?_ | refine all_when_i ?_ | refine all_each_i fun _ => ?_ | refine all_ifSome_i fun _ => ?_ | intro _ | split | dsimp only | contradiction

theorem mdmaSyncCompletion_kinds (c h : Nat) (failed wbFail : Bool) (host : Option Nat) : Prog.All (Act.among 0x1000000000003FB00000000000000000000000000000000000000000000000000000140438010) (mdmaSyncCompletion c h failed wbFail host) := by
  unfold mdmaSyncCompletion
  repeat' with_reducible first | refine all_leaf ?_ | (show within _ _ = true; with_unfolding_all exact rfl) | (show Act.among _ _; with_unfolding_all exact tb rfl) | refine (chanFinish_kinds ..).mono ?_ | refine (freeUnits_kinds ..).mono ?_ | refine (updChan_kinds ..).mono ?_ | exact all_skip_i | refine all_cons ?_ ?_ | exact all_nil | refine all_seq_i ?_ ?_ | refine all_read_i fun _ => ?_ | refine all_when_i ?_ | refine all_each_i fun _ => ?_ | refine all_ifSome_i fun _ => ?_ | split | dsimp only | contradiction

theorem mchEnable_kinds (c : Nat) : Prog.All (Act.among 0x10000000000023F08000000000000000000000000000000000000000000000000000140400010) (mchEnable c) := by
  unfold mchEnable
  repeat' with_reducible first | refine all_leaf ?_ | (show within _ _ = true; with_unfolding_all exact rfl) | (show Act.among _ _; with_unfolding_all exact tb rfl) | refine (chanFetch_kinds ..).mono ?_ | refine setF_kinds _ _ ?_ | refine setWide_kinds _ _ _ ?_ | refine (updChan_kinds ..).mono ?_ | refine lies_MCH_CUR_words ?_ (by decide) | refine lies_MCH_DONE_words ?_ (by decide) | refine lies_MCH_BYTES_words ?_ (by decide) | (show Nat.testBit _ _ = true; exact tb rfl) | (show lies _ _; (try dsimp only [F.MCH_CTL_en, F.MCH_HOPS_hops, F.MCH_REMAIN_bytes, F.MCH_STAT_halt_cause, F.MCH_STAT_state]); first | refine lies_MCH_CTL ?_ | refine lies_MCH_CUR ?_ | refine lies_MCH_CUR_at ?_ (by decide) (by decide) | refine lies_MCH_STAT ?_ | refine lies_MCH_HOPS ?_ | refine lies_MCH_REMAIN ?_ | refine lies_MCH_DONE ?_ | refine lies_MCH_DONE_at ?_ (by decide) (by decide) | refine lies_MCH_BYTES ?_ | refine lies_MCH_BYTES_at ?_ (by decide) (by decide) | split) | exact all_skip_i | refine all_cons ?_ ?_ | exact all_nil | refine all_seq_i ?_ ?_ | refine all_read_i fun _ => ?_ | refine all_when_i ?_ | refine all_each_i fun _ => ?_ | refine all_ifSome_i fun _ => ?_ | split | dsimp only | contradiction

theorem undefinedDst_kinds (c : Nat) (d : DescX) : Prog.All (Act.among 0x200038000) (undefinedDst c d) := by
  unfold undefinedDst
  repeat' with_reducible first | refine all_leaf ?_ | (show within _ _ = true; with_unfolding_all exact rfl) | (show Act.among _ _; with_unfolding_all exact tb rfl) | exact all_skip_i | refine all_cons ?_ ?_ | exact all_nil | refine all_seq_i ?_ ?_ | refine all_read_i fun _ => ?_ | refine all_when_i ?_ | refine all_each_i fun _ => ?_ | refine all_ifSome_i fun _ => ?_ | split | dsimp only | contradiction

theorem mchDisable_kinds (c : Nat) : Prog.All (Act.among 0x10000000000003F08000000000000000000000000000000000000000000000000000200438000) (mchDisable c) := by
  unfold mchDisable
  repeat' with_reducible first | refine all_leaf ?_ | (show within _ _ = true; with_unfolding_all exact rfl) | (show Act.among _ _; with_unfolding_all exact tb rfl) | refine (chanFree_kinds ..).mono ?_ | refine freeReg_kinds _ (by exact tb rfl) ?_ | refine (freeUnits_kinds ..).mono ?_ | refine setF_kinds _ _ ?_ | refine (undefinedDst_kinds ..).mono ?_ | refine (updChan_kinds ..).mono ?_ | refine lies_MCH_CUR_words ?_ (by decide) | refine lies_MCH_DONE_words ?_ (by decide) | refine lies_MCH_BYTES_words ?_ (by decide) | (show Nat.testBit _ _ = true; exact tb rfl) | (show lies _ _; (try dsimp only [F.MCH_CTL_en, F.MCH_HOPS_hops, F.MCH_STAT_halt_cause, F.MCH_STAT_state]); first | refine lies_MCH_CTL ?_ | refine lies_MCH_CUR ?_ | refine lies_MCH_CUR_at ?_ (by decide) (by decide) | refine lies_MCH_STAT ?_ | refine lies_MCH_HOPS ?_ | refine lies_MCH_REMAIN ?_ | refine lies_MCH_DONE ?_ | refine lies_MCH_DONE_at ?_ (by decide) (by decide) | refine lies_MCH_BYTES ?_ | refine lies_MCH_BYTES_at ?_ (by decide) (by decide) | split) | exact all_skip_i | refine all_cons ?_ ?_ | exact all_nil | refine all_seq_i ?_ ?_ | refine all_read_i fun _ => ?_ | refine all_when_i ?_ | refine all_each_i fun _ => ?_ | refine all_ifSome_i fun _ => ?_ | refine withFree_among ?_ fun _ => ?_ | (show Nat.testBit _ _ = true; exact tb rfl) | split | dsimp only | contradiction

theorem mdmaStop_kinds : Prog.All (Act.among 0x10000000000003F08000000000000000000000000000000000000000000000000000200438000) (mdmaStop) := by
  unfold mdmaStop
  repeat' with_reducible first | refine all_leaf ?_ | (show within _ _ = true; with_unfolding_all exact rfl) | (show Act.among _ _; with_unfolding_all exact tb rfl) | refine (mchDisable_kinds ..).mono ?_ | exact all_skip_i | refine all_cons ?_ ?_ | exact all_nil | refine all_seq_i ?_ ?_ | refine all_read_i fun _ => ?_ | refine all_when_i ?_ | refine all_each_i fun _ => ?_ | refine all_ifSome_i fun _ => ?_ | split | dsimp only | contradiction

theorem mchDoorbell_kinds (c : Nat) (host : Option Nat) : Prog.All (Act.among 0x10000000000020700000000000000000000000000000000000000000000000000000140400010) (mchDoorbell c host) := by
  unfold mchDoorbell
  repeat' with_reducible first | refine all_leaf ?_ | (show within _ _ = true; with_unfolding_all exact rfl) | (show Act.among _ _; with_unfolding_all exact tb rfl) | refine (chanFetch_kinds ..).mono ?_ | refine reread_kinds (K := _) ?_ _ _ _ _ ?_ | refine setF_kinds _ _ ?_ | refine (updChan_kinds ..).mono ?_ | (show Nat.testBit _ _ = true; exact tb rfl) | (show lies _ _; (try dsimp only [F.MCH_HOPS_hops, F.MCH_STAT_state]); first | refine lies_MCH_STAT ?_ | refine lies_MCH_HOPS ?_ | split) | exact all_skip_i | refine all_cons ?_ ?_ | exact all_nil | refine all_seq_i ?_ ?_ | refine all_read_i fun _ => ?_ | refine all_when_i ?_ | refine all_each_i fun _ => ?_ | refine all_ifSome_i fun _ => ?_ | intro _ | split | dsimp only | contradiction

theorem mdmaTimeout_kinds (c h tag : Nat) : Prog.All (Act.among 0x81000000000003FB00000000000000000000000000000000000000000000000000000140438010) (mdmaTimeout c h tag) := by
  unfold mdmaTimeout
  repeat' with_reducible first | refine all_leaf ?_ | (show within _ _ = true; with_unfolding_all exact rfl) | (show Act.among _ _; with_unfolding_all exact tb rfl) | refine (chanFault_kinds ..).mono ?_ | refine (chanFree_kinds ..).mono ?_ | refine (emit_kinds ..).mono ?_ | refine (mdmaSyncCompletion_kinds ..).mono ?_ | refine raise_kinds _ _ (by exact tb rfl) ?_ | refine (updChan_kinds ..).mono ?_ | (show Nat.testBit _ _ = true; exact tb rfl) | (show lies _ _; first | refine lies_HEAD_EVENT ?_ | split) | exact all_skip_i | refine all_cons ?_ ?_ | exact all_nil | refine all_seq_i ?_ ?_ | refine all_read_i fun _ => ?_ | refine all_when_i ?_ | refine all_each_i fun _ => ?_ | refine all_ifSome_i fun _ => ?_ | split | dsimp only | contradiction

theorem mdmaHeadLost_kinds (h : Nat) : Prog.All (Act.among 0x1000000000003FB00000000000000000000000000000000000000000000000000000140438010) (mdmaHeadLost h) := by
  unfold mdmaHeadLost
  repeat' with_reducible first | refine all_leaf ?_ | (show within _ _ = true; with_unfolding_all exact rfl) | (show Act.among _ _; with_unfolding_all exact tb rfl) | refine (chanFault_kinds ..).mono ?_ | refine (chanFree_kinds ..).mono ?_ | refine (mdmaSyncCompletion_kinds ..).mono ?_ | refine (updChan_kinds ..).mono ?_ | exact all_skip_i | refine all_cons ?_ ?_ | exact all_nil | refine all_seq_i ?_ ?_ | refine all_read_i fun _ => ?_ | refine all_when_i ?_ | refine all_each_i fun _ => ?_ | refine all_ifSome_i fun _ => ?_ | split | dsimp only | contradiction

theorem mdmaServe_kinds : Prog.All (Act.among 0x10000000000020300000000000000000000000000000000000000000000000000000140400010) (mdmaServe) := by
  unfold mdmaServe
  repeat' with_reducible first | refine all_leaf ?_ | (show within _ _ = true; with_unfolding_all exact rfl) | (show Act.among _ _; with_unfolding_all exact tb rfl) | refine (chanFetch_kinds ..).mono ?_ | refine (chanTake_kinds ..).mono ?_ | exact all_skip_i | refine all_cons ?_ ?_ | exact all_nil | refine all_seq_i ?_ ?_ | refine all_read_i fun _ => ?_ | refine all_when_i ?_ | refine all_each_i fun _ => ?_ | refine all_ifSome_i fun _ => ?_ | split | dsimp only | contradiction

theorem resetBlock_kinds (b : Nat) (keep : Nat → Bool) : Prog.All (Act.among 0x800000000000001E) (resetBlock b keep) := by
  unfold resetBlock
  repeat' with_reducible first | refine all_leaf ?_ | (show within _ _ = true; with_unfolding_all exact rfl) | (show Act.among _ _; with_unfolding_all exact tb rfl) | refine (resetRange_kinds ..).mono ?_ | (show Nat.testBit _ _ = true; exact tb rfl) | (show lies _ _; first | refine lies_any ?_ | split) | exact all_skip_i | refine all_cons ?_ ?_ | exact all_nil | refine all_seq_i ?_ ?_ | refine all_read_i fun _ => ?_ | refine all_when_i ?_ | refine all_each_i fun _ => ?_ | refine all_ifSome_i fun _ => ?_ | split | dsimp only | contradiction

theorem voteShow_kinds : Prog.All (Act.among 0x80000000000000000000) (voteShow) := by
  unfold voteShow
  repeat' with_reducible first | refine all_leaf ?_ | (show within _ _ = true; with_unfolding_all exact rfl) | (show Act.among _ _; with_unfolding_all exact tb rfl) | refine setF_kinds _ _ ?_ | (show Nat.testBit _ _ = true; exact tb rfl) | (show lies _ _; (try dsimp only [F.PWR_VOTES_target]); first | refine lies_PWR_VOTES ?_ | split) | exact all_skip_i | refine all_cons ?_ ?_ | exact all_nil | refine all_seq_i ?_ ?_ | refine all_read_i fun _ => ?_ | refine all_when_i ?_ | refine all_each_i fun _ => ?_ | refine all_ifSome_i fun _ => ?_ | split | dsimp only | contradiction

theorem setVote_kinds (h : Nat) (v : Option Nat) : Prog.All (Act.among 0x80000000000000000000) (setVote h v) := by
  unfold setVote
  repeat' with_reducible first | refine all_leaf ?_ | (show within _ _ = true; with_unfolding_all exact rfl) | (show Act.among _ _; with_unfolding_all exact tb rfl) | refine setF_kinds _ _ ?_ | refine voteShow_kinds.mono ?_ | (show Nat.testBit _ _ = true; exact tb rfl) | (show lies _ _; (try dsimp only [F.PWR_VOTES_heads]); first | refine lies_PWR_VOTES ?_ | split) | exact all_skip_i | refine all_cons ?_ ?_ | exact all_nil | refine all_seq_i ?_ ?_ | refine all_read_i fun _ => ?_ | refine all_when_i ?_ | refine all_each_i fun _ => ?_ | refine all_ifSome_i fun _ => ?_ | split | dsimp only | contradiction

theorem hostReqWrite_kinds (v : Nat) : Prog.All (Act.among 0xA0000000000000000000) (hostReqWrite v) := by
  unfold hostReqWrite
  repeat' with_reducible first | refine all_leaf ?_ | (show within _ _ = true; with_unfolding_all exact rfl) | (show Act.among _ _; with_unfolding_all exact tb rfl) | refine setF_kinds _ _ ?_ | refine (setVote_kinds ..).mono ?_ | (show Nat.testBit _ _ = true; exact tb rfl) | (show lies _ _; (try dsimp only [F.PWR_HOST_REQ_vote]); first | refine lies_PWR_HOST_REQ ?_ | split) | exact all_skip_i | refine all_cons ?_ ?_ | exact all_nil | refine all_seq_i ?_ ?_ | refine all_read_i fun _ => ?_ | refine all_when_i ?_ | refine all_each_i fun _ => ?_ | refine all_ifSome_i fun _ => ?_ | split | dsimp only | contradiction

theorem keeperReqWrite_kinds (v : Nat) (force : Bool) : Prog.All (Act.among 0xC0000000000000000000) (keeperReqWrite v force) := by
  unfold keeperReqWrite
  repeat' with_reducible first | refine all_leaf ?_ | (show within _ _ = true; with_unfolding_all exact rfl) | (show Act.among _ _; with_unfolding_all exact tb rfl) | refine setF_kinds _ _ ?_ | refine voteShow_kinds.mono ?_ | (show Nat.testBit _ _ = true; exact tb rfl) | (show lies _ _; (try dsimp only [F.FLT_STAT_safe, F.PWR_KEEPER_REQ_force, F.PWR_KEEPER_REQ_vote, F.PWR_VOTES_keeper, F.PWR_VOTES_keeper_force]); first | refine lies_PWR_KEEPER_REQ ?_ | refine lies_PWR_VOTES ?_ | split) | exact all_skip_i | refine all_cons ?_ ?_ | exact all_nil | refine all_seq_i ?_ ?_ | refine all_read_i fun _ => ?_ | refine all_when_i ?_ | refine all_each_i fun _ => ?_ | refine all_ifSome_i fun _ => ?_ | split | dsimp only | contradiction

theorem rightsShow_kinds : Prog.All (Act.among 0x400000000000000000000000000000000000000000000000000000000000000000000000000) (rightsShow) := by
  unfold rightsShow
  repeat' with_reducible first | refine all_leaf ?_ | (show within _ _ = true; with_unfolding_all exact rfl) | (show Act.among _ _; with_unfolding_all exact tb rfl) | refine setF_kinds _ _ ?_ | (show Nat.testBit _ _ = true; exact tb rfl) | (show lies _ _; (try dsimp only [F.HEAD_STAT_rights]); first | refine lies_HEAD_STAT ?_ | split) | exact all_skip_i | refine all_cons ?_ ?_ | exact all_nil | refine all_seq_i ?_ ?_ | refine all_read_i fun _ => ?_ | refine all_when_i ?_ | refine all_each_i fun _ => ?_ | refine all_ifSome_i fun _ => ?_ | split | dsimp only | contradiction

theorem holderInit_kinds : Prog.All (Act.among 0x400000000000000000000000000000000000000000000000000000000100000000000000000) (holderInit) := by
  unfold holderInit
  repeat' with_reducible first | refine all_leaf ?_ | (show within _ _ = true; with_unfolding_all exact rfl) | (show Act.among _ _; with_unfolding_all exact tb rfl) | refine rightsShow_kinds.mono ?_ | refine setF_kinds _ _ ?_ | (show Nat.testBit _ _ = true; exact tb rfl) | (show lies _ _; (try dsimp only [F.GLB_MODE_holder]); first | refine lies_GLB_MODE ?_ | split) | exact all_skip_i | refine all_cons ?_ ?_ | exact all_nil | refine all_seq_i ?_ ?_ | refine all_read_i fun _ => ?_ | refine all_when_i ?_ | refine all_each_i fun _ => ?_ | refine all_ifSome_i fun _ => ?_ | split | dsimp only | contradiction

theorem holderUpdate_kinds : Prog.All (Act.among 0x800400000000000000000000000000000000008400000000040000000001100000000000000010) (holderUpdate) := by
  unfold holderUpdate
  repeat' with_reducible first | refine all_leaf ?_ | (show within _ _ = true; with_unfolding_all exact rfl) | (show Act.among _ _; with_unfolding_all exact tb rfl) | refine (disarmHead_kinds ..).mono ?_ | refine raise_kinds _ _ (by exact tb rfl) ?_ | refine rightsShow_kinds.mono ?_ | refine setF_kinds _ _ ?_ | (show Nat.testBit _ _ = true; exact tb rfl) | (show lies _ _; (try dsimp only [F.FLT_IRQ_REARM_rearm, F.GLB_MODE_holder]); first | refine lies_GLB_MODE ?_ | refine lies_GLB_EVENT ?_ | refine lies_FLT_IRQ_REARM ?_ | refine lies_HEAD_EVENT ?_ | split) | exact all_skip_i | refine all_cons ?_ ?_ | exact all_nil | refine all_seq_i ?_ ?_ | refine all_read_i fun _ => ?_ | refine all_when_i ?_ | refine all_each_i fun _ => ?_ | refine all_ifSome_i fun _ => ?_ | split | dsimp only | contradiction

theorem mbxReply_kinds (m status : Nat) (payload : List Word) : Prog.All (Act.among 0x14800000001480000000000000000000000000000000000000000000000000000000000100100010) (mbxReply m status payload) := by
  unfold mbxReply
  repeat' with_reducible first | refine all_leaf ?_ | (show within _ _ = true; with_unfolding_all exact rfl) | (show Act.among _ _; with_unfolding_all exact tb rfl) | refine (msix_kinds ..).mono ?_ | refine raise_kinds _ _ (by exact tb rfl) ?_ | refine setF_kinds _ _ ?_ | refine setReg_kinds _ _ ?_ | refine (updHead_kinds ..).mono ?_ | (show Nat.testBit _ _ = true; exact tb rfl) | (show lies _ _; (try dsimp only [F.HEAD_IRQ_CFG_mbx_vec]); first | refine lies_HSPI_KEVENT ?_ | refine lies_HSPI_MBX_STAT ?_ | refine lies_HSPI_MBX_RSP ?_ | refine lies_HEAD_EVENT ?_ | refine lies_HEAD_MBX_STAT ?_ | refine lies_HEAD_MBX_RSP ?_ | refine lies_mbxState ?_ ?_ | refine lies_mbxRsp ?_ ?_ | split) | exact all_skip_i | refine all_cons ?_ ?_ | exact all_nil | refine all_seq_i ?_ ?_ | refine all_read_i fun _ => ?_ | refine all_when_i ?_ | refine all_each_i fun _ => ?_ | refine all_ifSome_i fun _ => ?_ | split | dsimp only | contradiction

theorem mbxPost_kinds (path m : Nat) : Prog.All (Act.among 0x4000000000400000000000000000000000000000000000000000000000000000000000040000000) (mbxPost path m) := by
  unfold mbxPost
  repeat' with_reducible first | refine all_leaf ?_ | (show within _ _ = true; with_unfolding_all exact rfl) | (show Act.among _ _; with_unfolding_all exact tb rfl) | refine (denied_kinds ..).mono ?_ | refine setF_kinds _ _ ?_ | (show Nat.testBit _ _ = true; exact tb rfl) | (show lies _ _; first | refine lies_HSPI_MBX_STAT ?_ | refine lies_HEAD_MBX_STAT ?_ | refine lies_mbxState ?_ ?_ | refine lies_mbxTag ?_ ?_ | split) | exact all_skip_i | refine all_cons ?_ ?_ | exact all_nil | refine all_seq_i ?_ ?_ | refine all_read_i fun _ => ?_ | refine all_when_i ?_ | refine all_each_i fun _ => ?_ | refine all_ifSome_i fun _ => ?_ | split | dsimp only | contradiction

theorem mbxAck_kinds (path m : Nat) : Prog.All (Act.among 0x4000000000400000000000000000000000000000000000000000000000000000000000040000000) (mbxAck path m) := by
  unfold mbxAck
  repeat' with_reducible first | refine all_leaf ?_ | (show within _ _ = true; with_unfolding_all exact rfl) | (show Act.among _ _; with_unfolding_all exact tb rfl) | refine (denied_kinds ..).mono ?_ | refine setF_kinds _ _ ?_ | (show Nat.testBit _ _ = true; exact tb rfl) | (show lies _ _; first | refine lies_HSPI_MBX_STAT ?_ | refine lies_HEAD_MBX_STAT ?_ | refine lies_mbxState ?_ ?_ | split) | exact all_skip_i | refine all_cons ?_ ?_ | exact all_nil | refine all_seq_i ?_ ?_ | refine all_read_i fun _ => ?_ | refine all_when_i ?_ | refine all_each_i fun _ => ?_ | refine all_ifSome_i fun _ => ?_ | split | dsimp only | contradiction

theorem mbxEnds_kinds (m : Nat) : Prog.All (Act.among 0x14800000001480000000000000000000000000008400000000000000000000000000000100100010) (mbxEnds m) := by
  unfold mbxEnds
  repeat' with_reducible first | refine all_leaf ?_ | (show within _ _ = true; with_unfolding_all exact rfl) | (show Act.among _ _; with_unfolding_all exact tb rfl) | refine (lgDisarm_kinds ..).mono ?_ | refine (mbxReply_kinds ..).mono ?_ | exact all_skip_i | refine all_cons ?_ ?_ | exact all_nil | refine all_seq_i ?_ ?_ | refine all_read_i fun _ => ?_ | refine all_when_i ?_ | refine all_each_i fun _ => ?_ | refine all_ifSome_i fun _ => ?_ | split | dsimp only | contradiction

theorem mbxAbort_kinds (m : Nat) : Prog.All (Act.among 0x14800000001480000000000000000000000000008400000000000000000000000000000100100010) (mbxAbort m) := by
  unfold mbxAbort
  repeat' with_reducible first | refine all_leaf ?_ | (show within _ _ = true; with_unfolding_all exact rfl) | (show Act.among _ _; with_unfolding_all exact tb rfl) | refine (mbxEnds_kinds ..).mono ?_ | exact all_skip_i | refine all_cons ?_ ?_ | exact all_nil | refine all_seq_i ?_ ?_ | refine all_read_i fun _ => ?_ | refine all_when_i ?_ | refine all_each_i fun _ => ?_ | refine all_ifSome_i fun _ => ?_ | split | dsimp only | contradiction

theorem mbxNoFw_kinds (m : Nat) : Prog.All (Act.among 0x14800000001480000000000000000000000000000000000000000000000000000000000100100010) (mbxNoFw m) := by
  unfold mbxNoFw
  repeat' with_reducible first | refine all_leaf ?_ | (show within _ _ = true; with_unfolding_all exact rfl) | (show Act.among _ _; with_unfolding_all exact tb rfl) | refine (mbxReply_kinds ..).mono ?_ | exact all_skip_i | refine all_cons ?_ ?_ | exact all_nil | refine all_seq_i ?_ ?_ | refine all_read_i fun _ => ?_ | refine all_when_i ?_ | refine all_each_i fun _ => ?_ | refine all_ifSome_i fun _ => ?_ | split | dsimp only | contradiction

theorem mbxTake_kinds (m : Nat) : Prog.All (Act.among 0x4000000000400000000000000000000000000000000000000000000000000000000000000000000) (mbxTake m) := by
  unfold mbxTake
  repeat' with_reducible first | refine all_leaf ?_ | (show within _ _ = true; with_unfolding_all exact rfl) | (show Act.among _ _; with_unfolding_all exact tb rfl) | refine setF_kinds _ _ ?_ | (show Nat.testBit _ _ = true; exact tb rfl) | (show lies _ _; first | refine lies_HSPI_MBX_STAT ?_ | refine lies_HEAD_MBX_STAT ?_ | refine lies_mbxState ?_ ?_ | split) | exact all_skip_i | refine all_cons ?_ ?_ | exact all_nil | refine all_seq_i ?_ ?_ | refine all_read_i fun _ => ?_ | refine all_when_i ?_ | refine all_each_i fun _ => ?_ | refine all_ifSome_i fun _ => ?_ | split | dsimp only | contradiction

theorem headLost_kinds (h cause newState : Nat) : Prog.All (Act.among 0xFFFFFF220084300003CBF81800000409251481040000148003FB0000000C00000000000000840040400004000000008110000000034273B7D2) (headLost h cause newState) := by
  unfold headLost
  repeat' with_reducible first | refine all_leaf ?_ | (show within _ _ = true; with_unfolding_all exact rfl) | (show Act.among _ _; with_unfolding_all exact tb rfl) | refine (emit_kinds ..).mono ?_ | refine holderUpdate_kinds.mono ?_ | refine (mbxEnds_kinds ..).mono ?_ | refine (mdmaHeadLost_kinds ..).mono ?_ | refine (orphanEnter_kinds ..).mono ?_ | refine raise_kinds _ _ (by exact tb rfl) ?_ | refine (resetQp_kinds ..).mono ?_ | refine setF_kinds _ _ ?_ | refine (setVote_kinds ..).mono ?_ | (show Nat.testBit _ _ = true; exact tb rfl) | (show lies _ _; (try dsimp only [F.HEAD_REQ_STAT_now, F.HEAD_STAT_draining, F.HEAD_STAT_lost_cause, F.HEAD_STAT_state]); first | refine lies_HEAD_STAT ?_ | refine lies_HEAD_REQ_STAT ?_ | refine lies_HEAD_EVENT ?_ | split) | exact all_skip_i | refine all_cons ?_ ?_ | exact all_nil | refine all_seq_i ?_ ?_ | refine all_read_i fun _ => ?_ | refine all_when_i ?_ | refine all_each_i fun _ => ?_ | refine all_ifSome_i fun _ => ?_ | split | dsimp only | contradiction

theorem detach_kinds (h : Nat) : Prog.All (Act.among 0xFFFFFF220084300003CBF81800000409251481040000148003FB0000000C00000000000000840040400004000000008110000000034273B7D2) (detach h) := by
  unfold detach
  repeat' with_reducible first | refine all_leaf ?_ | (show within _ _ = true; with_unfolding_all exact rfl) | (show Act.among _ _; with_unfolding_all exact tb rfl) | refine (headLost_kinds ..).mono ?_ | exact all_skip_i | refine all_cons ?_ ?_ | exact all_nil | refine all_seq_i ?_ ?_ | refine all_read_i fun _ => ?_ | refine all_when_i ?_ | refine all_each_i fun _ => ?_ | refine all_ifSome_i fun _ => ?_ | split | dsimp only | contradiction

theorem heartbeatExpire_kinds (h : Nat) : Prog.All (Act.among 0xFFFFFF220084300003CBF81800000409251481040000148003FB0000000C00000000000000840040400004000000008110000000034273B7D2) (heartbeatExpire h) := by
  unfold heartbeatExpire
  repeat' with_reducible first | refine all_leaf ?_ | (show within _ _ = true; with_unfolding_all exact rfl) | (show Act.among _ _; with_unfolding_all exact tb rfl) | refine (headLost_kinds ..).mono ?_ | exact all_skip_i | refine all_cons ?_ ?_ | exact all_nil | refine all_seq_i ?_ ?_ | refine all_read_i fun _ => ?_ | refine all_when_i ?_ | refine all_each_i fun _ => ?_ | refine all_ifSome_i fun _ => ?_ | split | dsimp only | contradiction

theorem bmeClear_kinds (h : Nat) : Prog.All (Act.among 0xFFFFFF220084300003CBF81800000409251481040000148003FB0000000C00000000000000840040400004000000008110000000034273B7D2) (bmeClear h) := by
  unfold bmeClear
  repeat' with_reducible first | refine all_leaf ?_ | (show within _ _ = true; with_unfolding_all exact rfl) | (show Act.among _ _; with_unfolding_all exact tb rfl) | refine (headLost_kinds ..).mono ?_ | refine (updHead_kinds ..).mono ?_ | exact all_skip_i | refine all_cons ?_ ?_ | exact all_nil | refine all_seq_i ?_ ?_ | refine all_read_i fun _ => ?_ | refine all_when_i ?_ | refine all_each_i fun _ => ?_ | refine all_ifSome_i fun _ => ?_ | split | dsimp only | contradiction

theorem hbRestart_kinds (h : Nat) : Prog.All (Act.among 0x100000) (hbRestart h) := by
  unfold hbRestart
  repeat' with_reducible first | refine all_leaf ?_ | (show within _ _ = true; with_unfolding_all exact rfl) | (show Act.among _ _; with_unfolding_all exact tb rfl) | refine (updHead_kinds ..).mono ?_ | exact all_skip_i | refine all_cons ?_ ?_ | exact all_nil | refine all_seq_i ?_ ?_ | refine all_read_i fun _ => ?_ | refine all_when_i ?_ | refine all_each_i fun _ => ?_ | refine all_ifSome_i fun _ => ?_ | split | dsimp only | contradiction

theorem hbKick_kinds (h : Nat) : Prog.All (Act.among 0x100000) (hbKick h) := by
  unfold hbKick
  repeat' with_reducible first | refine all_leaf ?_ | (show within _ _ = true; with_unfolding_all exact rfl) | (show Act.among _ _; with_unfolding_all exact tb rfl) | refine (hbRestart_kinds ..).mono ?_ | exact all_skip_i | refine all_cons ?_ ?_ | exact all_nil | refine all_seq_i ?_ ?_ | refine all_read_i fun _ => ?_ | refine all_when_i ?_ | refine all_each_i fun _ => ?_ | refine all_ifSome_i fun _ => ?_ | split | dsimp only | contradiction

theorem headRegs_kinds (h : Nat) (keep : Bool) : Prog.All (Act.among 0x8C0000000000000000000000000000000000000000000000000000000000800000000010001E) (headRegs h keep) := by
  unfold headRegs
  repeat' with_reducible first | refine all_leaf ?_ | (show within _ _ = true; with_unfolding_all exact rfl) | (show Act.among _ _; with_unfolding_all exact tb rfl) | refine (deriveHead_kinds ..).mono ?_ | refine (resetRange_kinds ..).mono ?_ | refine setF_kinds _ _ ?_ | (show Nat.testBit _ _ = true; exact tb rfl) | (show lies _ _; (try dsimp only [F.HEAD_STAT_epoch, F.HEAD_STAT_lost_cause]); first | refine lies_HEAD_STAT ?_ | refine lies_any ?_ | split) | exact all_skip_i | refine all_cons ?_ ?_ | exact all_nil | refine all_seq_i ?_ ?_ | refine all_read_i fun _ => ?_ | refine all_when_i ?_ | refine all_each_i fun _ => ?_ | refine all_ifSome_i fun _ => ?_ | split | dsimp only | contradiction

theorem headReset_kinds (h cause : Nat) : Prog.All (Act.among 0xFFFFFF220084300003CBF81C000004092514818F4000148003FB0000000C000000EF960740840040400004000000008110800000034273BFDE) (headReset h cause) := by
  unfold headReset
  repeat' with_reducible first | refine all_leaf ?_ | (show within _ _ = true; with_unfolding_all exact rfl) | (show Act.among _ _; with_unfolding_all exact tb rfl) | refine adoptFinish_kinds.mono ?_ | refine (adoptHead_kinds ..).mono ?_ | refine (disarmHead_kinds ..).mono ?_ | refine (headLost_kinds ..).mono ?_ | refine (headRegs_kinds ..).mono ?_ | refine holderUpdate_kinds.mono ?_ | refine (orphanEnter_kinds ..).mono ?_ | refine (orphanExit_kinds ..).mono ?_ | refine (resetQp_kinds ..).mono ?_ | refine setF_kinds _ _ ?_ | refine (updHead_kinds ..).mono ?_ | (show Nat.testBit _ _ = true; exact tb rfl) | (show lies _ _; (try dsimp only [F.HEAD_STAT_draining, F.HEAD_STAT_lost_cause, F.HEAD_STAT_state]); first | refine lies_HEAD_STAT ?_ | refine lies_any ?_ | split) | exact all_skip_i | refine all_cons ?_ ?_ | exact all_nil | refine all_seq_i ?_ ?_ | refine all_read_i fun _ => ?_ | refine all_when_i ?_ | refine all_each_i fun _ => ?_ | refine all_ifSome_i fun _ => ?_ | split | dsimp only | contradiction

theorem headResetEvent_kinds (h cause : Nat) : Prog.All (Act.among 0xFFFFFF220084300003CBF81C000004092514818F4000148003FB0000000C000000EF960740840040400004000000008110800000034273BFDE) (headResetEvent h cause) := by
  unfold headResetEvent
  repeat' with_reducible first | refine all_leaf ?_ | (show within _ _ = true; with_unfolding_all exact rfl) | (show Act.among _ _; with_unfolding_all exact tb rfl) | refine (emit_kinds ..).mono ?_ | refine (headReset_kinds ..).mono ?_ | refine raise_kinds _ _ (by exact tb rfl) ?_ | (show Nat.testBit _ _ = true; exact tb rfl) | (show lies _ _; first | refine lies_HEAD_EVENT ?_ | refine lies_any ?_ | split) | exact all_skip_i | refine all_cons ?_ ?_ | exact all_nil | refine all_seq_i ?_ ?_ | refine all_read_i fun _ => ?_ | refine all_when_i ?_ | refine all_each_i fun _ => ?_ | refine all_ifSome_i fun _ => ?_ | split | dsimp only | contradiction

theorem headResetEnd_kinds (h : Nat) : Prog.All (Act.among 0x220084380003CA381800000409250000000000000000000000000C00004000000010A40040400000000000000180C0000003401837D2) (headResetEnd h) := by
  unfold headResetEnd
  repeat' with_reducible first | refine all_leaf ?_ | (show within _ _ = true; with_unfolding_all exact rfl) | (show Act.among _ _; with_unfolding_all exact tb rfl) | refine (lateApply_kinds ..).mono ?_ | refine (updHead_kinds ..).mono ?_ | (show Nat.testBit _ _ = true; exact tb rfl) | (show lies _ _; first | refine lies_any ?_ | split) | exact all_skip_i | refine all_cons ?_ ?_ | exact all_nil | refine all_seq_i ?_ ?_ | refine all_read_i fun _ => ?_ | refine all_when_i ?_ | refine all_each_i fun _ => ?_ | refine all_ifSome_i fun _ => ?_ | split | dsimp only | contradiction

theorem drainDone_kinds (h : Nat) : Prog.All (Act.among 0x400000000000000000000000000000000000000000000000000000000000000000000000000) (drainDone h) := by
  unfold drainDone
  repeat' with_reducible first | refine all_leaf ?_ | (show within _ _ = true; with_unfolding_all exact rfl) | (show Act.among _ _; with_unfolding_all exact tb rfl) | refine setF_kinds _ _ ?_ | (show Nat.testBit _ _ = true; exact tb rfl) | (show lies _ _; (try dsimp only [F.HEAD_STAT_draining]); first | refine lies_HEAD_STAT ?_ | split) | exact all_skip_i | refine all_cons ?_ ?_ | exact all_nil | refine all_seq_i ?_ ?_ | refine all_read_i fun _ => ?_ | refine all_when_i ?_ | refine all_each_i fun _ => ?_ | refine all_ifSome_i fun _ => ?_ | split | dsimp only | contradiction

theorem linkL0_kinds (h rate width : Nat) : Prog.All (Act.among 0x400000000000000000000000000000000000000000000000000000000000000000000000000) (linkL0 h rate width) := by
  unfold linkL0
  repeat' with_reducible first | refine all_leaf ?_ | (show within _ _ = true; with_unfolding_all exact rfl) | (show Act.among _ _; with_unfolding_all exact tb rfl) | refine setF_kinds _ _ ?_ | (show Nat.testBit _ _ = true; exact tb rfl) | (show lies _ _; (try dsimp only [F.HEAD_STAT_rate, F.HEAD_STAT_state, F.HEAD_STAT_width]); first | refine lies_HEAD_STAT ?_ | split) | exact all_skip_i | refine all_cons ?_ ?_ | exact all_nil | refine all_seq_i ?_ ?_ | refine all_read_i fun _ => ?_ | refine all_when_i ?_ | refine all_each_i fun _ => ?_ | refine all_ifSome_i fun _ => ?_ | split | dsimp only | contradiction

theorem hostCfg_kinds (h : Nat) (bme ats fnMask : Bool) (vecs : List Nat) : Prog.All (Act.among 0x400000000000000000000000000000000000000000000000000000000000000000000100000) (hostCfg h bme ats fnMask vecs) := by
  unfold hostCfg
  repeat' with_reducible first | refine all_leaf ?_ | (show within _ _ = true; with_unfolding_all exact rfl) | (show Act.among _ _; with_unfolding_all exact tb rfl) | refine setF_kinds _ _ ?_ | refine (updHead_kinds ..).mono ?_ | (show Nat.testBit _ _ = true; exact tb rfl) | (show lies _ _; (try dsimp only [F.HEAD_STAT_ats_en]); first | refine lies_HEAD_STAT ?_ | split) | exact all_skip_i | refine all_cons ?_ ?_ | exact all_nil | refine all_seq_i ?_ ?_ | refine all_read_i fun _ => ?_ | refine all_when_i ?_ | refine all_each_i fun _ => ?_ | refine all_ifSome_i fun _ => ?_ | split | dsimp only | contradiction

theorem attach_kinds (h : Nat) (bme ats fnMask : Bool) (vecs : List Nat) : Prog.All (Act.among 0x2000010000000000000891400000000000000000000000000000000008400000000040000000081100000000000100050) (attach h bme ats fnMask vecs) := by
  unfold attach
  repeat' with_reducible first | refine all_leaf ?_ | (show within _ _ = true; with_unfolding_all exact rfl) | (show Act.among _ _; with_unfolding_all exact tb rfl) | refine (hbRestart_kinds ..).mono ?_ | refine holderUpdate_kinds.mono ?_ | refine (hostCfg_kinds ..).mono ?_ | refine (orphanExit_kinds ..).mono ?_ | refine raise_kinds _ _ (by exact tb rfl) ?_ | refine setF_kinds _ _ ?_ | refine (setVote_kinds ..).mono ?_ | refine wrapAdd_kinds _ _ ?_ | (show Nat.testBit _ _ = true; exact tb rfl) | (show lies _ _; (try dsimp only [F.FLT_IRQ_REARM_rearm, F.HEAD_ATTACH_result, F.HEAD_IRQ_REARM_rearm, F.HEAD_REQ_STAT_now, F.HEAD_REQ_STAT_peak, F.HEAD_STAT_draining, F.HEAD_STAT_epoch, F.HEAD_STAT_state]); first | refine lies_FLT_IRQ_REARM ?_ | refine lies_HEAD_STAT ?_ | refine lies_HEAD_ATTACH ?_ | refine lies_HEAD_REQ_STAT ?_ | refine lies_HEAD_IRQ_REARM ?_ | refine lies_HEAD_EVENT ?_ | split) | exact all_skip_i | refine all_cons ?_ ?_ | exact all_nil | refine all_seq_i ?_ ?_ | refine all_read_i fun _ => ?_ | refine all_when_i ?_ | refine all_each_i fun _ => ?_ | refine all_ifSome_i fun _ => ?_ | split | dsimp only | contradiction

theorem cxlMemRequest_kinds (h : Nat) : Prog.All (Act.among 0xC00000000000000000000000000000000000000000000000000000000000000000000100000010) (cxlMemRequest h) := by
  unfold cxlMemRequest
  repeat' with_reducible first | refine all_leaf ?_ | (show within _ _ = true; with_unfolding_all exact rfl) | (show Act.among _ _; with_unfolding_all exact tb rfl) | refine raise_kinds _ _ (by exact tb rfl) ?_ | refine satAdd_kinds _ _ ?_ | refine (send_kinds ..).mono ?_ | (show Nat.testBit _ _ = true; exact tb rfl) | (show lies _ _; (try dsimp only [F.HEAD_MEM_REJ_count]); first | refine lies_HEAD_MEM_REJ ?_ | refine lies_HEAD_EVENT ?_ | split) | exact all_skip_i | refine all_cons ?_ ?_ | exact all_nil | refine all_seq_i ?_ ?_ | refine all_read_i fun _ => ?_ | refine all_when_i ?_ | refine all_each_i fun _ => ?_ | refine all_ifSome_i fun _ => ?_ | split | dsimp only | contradiction

theorem h2dSnoop_kinds (h addr : Nat) : Prog.All (Act.among 0x100000000) (h2dSnoop h addr) := by
  unfold h2dSnoop
  repeat' with_reducible first | refine all_leaf ?_ | (show within _ _ = true; with_unfolding_all exact rfl) | (show Act.among _ _; with_unfolding_all exact tb rfl) | refine (send_kinds ..).mono ?_ | exact all_skip_i | refine all_cons ?_ ?_ | exact all_nil | refine all_seq_i ?_ ?_ | refine all_read_i fun _ => ?_ | refine all_when_i ?_ | refine all_each_i fun _ => ?_ | refine all_ifSome_i fun _ => ?_ | split | dsimp only | contradiction

theorem invalidateRequest_kinds (h addr len : Nat) : Prog.All (Act.among 0x100000000000000000000000000000000000000000000000000000000000000000000000100000) (invalidateRequest h addr len) := by
  unfold invalidateRequest
  repeat' with_reducible first | refine all_leaf ?_ | (show within _ _ = true; with_unfolding_all exact rfl) | (show Act.among _ _; with_unfolding_all exact tb rfl) | refine (atcShow_kinds ..).mono ?_ | refine (updHead_kinds ..).mono ?_ | exact all_skip_i | refine all_cons ?_ ?_ | exact all_nil | refine all_seq_i ?_ ?_ | refine all_read_i fun _ => ?_ | refine all_when_i ?_ | refine all_each_i fun _ => ?_ | refine all_ifSome_i fun _ => ?_ | split | dsimp only | contradiction

theorem invalidateComplete_kinds (h : Nat) : Prog.All (Act.among 0x100000000000000000000000000000000000000000000000000000000000000000000100100000) (invalidateComplete h) := by
  unfold invalidateComplete
  repeat' with_reducible first | refine all_leaf ?_ | (show within _ _ = true; with_unfolding_all exact rfl) | (show Act.among _ _; with_unfolding_all exact tb rfl) | refine satAdd_kinds _ _ ?_ | refine (send_kinds ..).mono ?_ | refine (updHead_kinds ..).mono ?_ | (show Nat.testBit _ _ = true; exact tb rfl) | (show lies _ _; (try dsimp only [F.HEAD_ATC_STAT_invals]); first | refine lies_HEAD_ATC_STAT ?_ | split) | exact all_skip_i | refine all_cons ?_ ?_ | exact all_nil | refine all_seq_i ?_ ?_ | refine all_read_i fun _ => ?_ | refine all_when_i ?_ | refine all_each_i fun _ => ?_ | refine all_ifSome_i fun _ => ?_ | split | dsimp only | contradiction

theorem atcFlushWrite_kinds (h : Nat) : Prog.All (Act.among 0x100000000000000000000000000000000000000000000000000000000000000000000000100000) (atcFlushWrite h) := by
  unfold atcFlushWrite
  repeat' with_reducible first | refine all_leaf ?_ | (show within _ _ = true; with_unfolding_all exact rfl) | (show Act.among _ _; with_unfolding_all exact tb rfl) | refine (atcFlush_kinds ..).mono ?_ | exact all_skip_i | refine all_cons ?_ ?_ | exact all_nil | refine all_seq_i ?_ ?_ | refine all_read_i fun _ => ?_ | refine all_when_i ?_ | refine all_each_i fun _ => ?_ | refine all_ifSome_i fun _ => ?_ | split | dsimp only | contradiction

theorem atsEnableChange_kinds (h : Nat) (on : Bool) : Prog.All (Act.among 0x5602C0000000000000000000000000000000100400000000000000000000000000000000000000000000000000000000000000000040300050) (atsEnableChange h on) := by
  unfold atsEnableChange
  repeat' with_reducible first | refine all_leaf ?_ | (show within _ _ = true; with_unfolding_all exact rfl) | (show Act.among _ _; with_unfolding_all exact tb rfl) | refine (atcFlush_kinds ..).mono ?_ | refine (atsOffRings_kinds ..).mono ?_ | refine setF_kinds _ _ ?_ | (show Nat.testBit _ _ = true; exact tb rfl) | (show lies _ _; (try dsimp only [F.HEAD_STAT_ats_en]); first | refine lies_HEAD_STAT ?_ | split) | exact all_skip_i | refine all_cons ?_ ?_ | exact all_nil | refine all_seq_i ?_ ?_ | refine all_read_i fun _ => ?_ | refine all_when_i ?_ | refine all_each_i fun _ => ?_ | refine all_ifSome_i fun _ => ?_ | split | dsimp only | contradiction

theorem msixUnmask_kinds (h : Nat) (vec : Option Nat) : Prog.All (Act.among 0x100100000) (msixUnmask h vec) := by
  unfold msixUnmask
  repeat' with_reducible first | refine all_leaf ?_ | (show within _ _ = true; with_unfolding_all exact rfl) | (show Act.among _ _; with_unfolding_all exact tb rfl) | refine (send_kinds ..).mono ?_ | refine (updHead_kinds ..).mono ?_ | exact all_skip_i | refine all_cons ?_ ?_ | exact all_nil | refine all_seq_i ?_ ?_ | refine all_read_i fun _ => ?_ | refine all_when_i ?_ | refine all_each_i fun _ => ?_ | refine all_ifSome_i fun _ => ?_ | split | dsimp only | contradiction

theorem summaryIrq_kinds : Prog.All (Act.among 0x80000000000000000000000000000000000000000000000000000000000000000000100100000) (summaryIrq) := by
  unfold summaryIrq
  repeat' with_reducible first | refine all_leaf ?_ | (show within _ _ = true; with_unfolding_all exact rfl) | (show Act.among _ _; with_unfolding_all exact tb rfl) | refine (msix_kinds ..).mono ?_ | refine setF_kinds _ _ ?_ | (show Nat.testBit _ _ = true; exact tb rfl) | (show lies _ _; (try dsimp only [F.HEAD_IRQ_CFG_sum_vec, F.HEAD_IRQ_REARM_rearm, F.HEAD_IRQ_SUM_MASK_mask]); first | refine lies_HEAD_IRQ_REARM ?_ | split) | exact all_skip_i | refine all_cons ?_ ?_ | exact all_nil | refine all_seq_i ?_ ?_ | refine all_read_i fun _ => ?_ | refine all_when_i ?_ | refine all_each_i fun _ => ?_ | refine all_ifSome_i fun _ => ?_ | split | dsimp only | contradiction

theorem irqRearm_kinds (h : Nat) : Prog.All (Act.among 0x80000000000000000000000000000000000000000000000000000000000000000000000000000) (irqRearm h) := by
  unfold irqRearm
  repeat' with_reducible first | refine all_leaf ?_ | (show within _ _ = true; with_unfolding_all exact rfl) | (show Act.among _ _; with_unfolding_all exact tb rfl) | refine setF_kinds _ _ ?_ | (show Nat.testBit _ _ = true; exact tb rfl) | (show lies _ _; (try dsimp only [F.HEAD_IRQ_REARM_rearm]); first | refine lies_HEAD_IRQ_REARM ?_ | split) | exact all_skip_i | refine all_cons ?_ ?_ | exact all_nil | refine all_seq_i ?_ ?_ | refine all_read_i fun _ => ?_ | refine all_when_i ?_ | refine all_each_i fun _ => ?_ | refine all_ifSome_i fun _ => ?_ | split | dsimp only | contradiction

theorem spdmRequest_kinds (h : Nat) (r : SpdmReq) : Prog.All (Act.among 0x400000000000000000000000000000000000000000000000000000000000000000100100000) (spdmRequest h r) := by
  unfold spdmRequest
  repeat' with_reducible first | refine all_leaf ?_ | (show within _ _ = true; with_unfolding_all exact rfl) | (show Act.among _ _; with_unfolding_all exact tb rfl) | refine (send_kinds ..).mono ?_ | refine setF_kinds _ _ ?_ | refine (updHead_kinds ..).mono ?_ | (show Nat.testBit _ _ = true; exact tb rfl) | (show lies _ _; (try dsimp only [F.FLT_STAT_safe, F.HEAD_STAT_ide_cache, F.HEAD_STAT_ide_io]); first | refine lies_HEAD_STAT ?_ | split) | exact all_skip_i | refine all_cons ?_ ?_ | exact all_nil | refine all_seq_i ?_ ?_ | refine all_read_i fun _ => ?_ | refine all_when_i ?_ | refine all_each_i fun _ => ?_ | refine all_ifSome_i fun _ => ?_ | split | dsimp only | contradiction

theorem mbxRun_kinds {K : Nat} (hK : within 0x14800000001480000000000000000000000000000000000000000000000000000000000100100010 K = true) (m cmd : Nat) (headsOnly inSafe : Bool) (k : State → Prog) (h_k : ∀ v0, Prog.All (Act.among K) (k v0)) : Prog.All (Act.among K) (mbxRun m cmd headsOnly inSafe k) := by
  unfold mbxRun
  repeat' with_reducible first | refine all_leaf ?_ | (show Act.among _ _; with_unfolding_all exact testBit_within hK (tb rfl)) | exact within_trans (by with_unfolding_all exact rfl) hK | exact h_k _ | refine (mbxReply_kinds ..).mono ?_ | exact all_skip_i | refine all_cons ?_ ?_ | exact all_nil | refine all_seq_i ?_ ?_ | refine all_read_i fun _ => ?_ | refine all_when_i ?_ | refine all_each_i fun _ => ?_ | refine all_ifSome_i fun _ => ?_ | split | dsimp only | contradiction

theorem mbxGetInfo_kinds (m : Nat) : Prog.All (Act.among 0x14800000001480000000000000000000000000000000000000000000000000000000000100100010) (mbxGetInfo m) := by
  unfold mbxGetInfo
  repeat' with_reducible first | refine all_leaf ?_ | (show within _ _ = true; with_unfolding_all exact rfl) | (show Act.among _ _; with_unfolding_all exact tb rfl) | refine (mbxReply_kinds ..).mono ?_ | refine mbxRun_kinds (K := _) ?_ _ _ _ _ _ ?_ | exact all_skip_i | refine all_cons ?_ ?_ | exact all_nil | refine all_seq_i ?_ ?_ | refine all_read_i fun _ => ?_ | refine all_when_i ?_ | refine all_each_i fun _ => ?_ | refine all_ifSome_i fun _ => ?_ | intro _ | split | dsimp only | contradiction

theorem mbxModeVote_kinds (m : Nat) : Prog.All (Act.among 0x14800000001480000000000000000000000000000000000000000000000080000000000100100010) (mbxModeVote m) := by
  unfold mbxModeVote
  repeat' with_reducible first | refine all_leaf ?_ | (show within _ _ = true; with_unfolding_all exact rfl) | (show Act.among _ _; with_unfolding_all exact tb rfl) | refine (mbxReply_kinds ..).mono ?_ | refine mbxRun_kinds (K := _) ?_ _ _ _ _ _ ?_ | refine setF_kinds _ _ ?_ | refine (setVote_kinds ..).mono ?_ | refine voteShow_kinds.mono ?_ | (show Nat.testBit _ _ = true; exact tb rfl) | (show lies _ _; (try dsimp only [F.GLB_MODE_mode, F.PWR_VOTES_keeper, F.PWR_VOTES_keeper_force]); first | refine lies_PWR_VOTES ?_ | split) | exact all_skip_i | refine all_cons ?_ ?_ | exact all_nil | refine all_seq_i ?_ ?_ | refine all_read_i fun _ => ?_ | refine all_when_i ?_ | refine all_each_i fun _ => ?_ | refine all_ifSome_i fun _ => ?_ | intro _ | split | dsimp only | contradiction

theorem portReply_kinds (m cmd p : Nat) : Prog.All (Act.among 0x14800000001480000000000000000000000000000000000000000000000000000000000100100010) (portReply m cmd p) := by
  unfold portReply
  repeat' with_reducible first | refine all_leaf ?_ | (show within _ _ = true; with_unfolding_all exact rfl) | (show Act.among _ _; with_unfolding_all exact tb rfl) | refine (mbxReply_kinds ..).mono ?_ | refine (updHead_kinds ..).mono ?_ | exact all_skip_i | refine all_cons ?_ ?_ | exact all_nil | refine all_seq_i ?_ ?_ | refine all_read_i fun _ => ?_ | refine all_when_i ?_ | refine all_each_i fun _ => ?_ | refine all_ifSome_i fun _ => ?_ | split | dsimp only | contradiction

theorem mbxPort_kinds (m cmd : Nat) : Prog.All (Act.among 0x220084300003CA38180000040925148000000014800000003000AE0000000000000000004040000000000000000000000003401037D0) (mbxPort m cmd) := by
  unfold mbxPort
  repeat' with_reducible first | refine all_leaf ?_ | (show within _ _ = true; with_unfolding_all exact rfl) | (show Act.among _ _; with_unfolding_all exact tb rfl) | refine (annealStart_kinds ..).mono ?_ | refine (mbxReply_kinds ..).mono ?_ | refine mbxRun_kinds (K := _) ?_ _ _ _ _ _ ?_ | refine (portReply_kinds ..).mono ?_ | refine setF_kinds _ _ ?_ | refine (tdrStart_kinds ..).mono ?_ | (show Nat.testBit _ _ = true; exact tb rfl) | (show lies _ _; (try dsimp only [F.CAL_PORT_CTL_force, F.CAL_PORT_CTL_no_wait, F.CAL_PORT_STAT_state, F.DIAG_TDR_CTL_force, F.DIAG_TDR_CTL_no_wait, F.DIAG_TDR_STAT_state]); first | refine lies_CAL_PORT_CTL ?_ | refine lies_DIAG_TDR_CTL ?_ | split) | exact all_skip_i | refine all_cons ?_ ?_ | exact all_nil | refine all_seq_i ?_ ?_ | refine all_read_i fun _ => ?_ | refine all_when_i ?_ | refine all_each_i fun _ => ?_ | refine all_ifSome_i fun _ => ?_ | intro _ | split | dsimp only | contradiction

theorem mbxPortAnneal_kinds (m : Nat) : Prog.All (Act.among 0x220084300003CA38180000040925148000000014800000003000AE0000000000000000004040000000000000000000000003401037D0) (mbxPortAnneal m) := by
  unfold mbxPortAnneal
  repeat' with_reducible first | refine all_leaf ?_ | (show within _ _ = true; with_unfolding_all exact rfl) | (show Act.among _ _; with_unfolding_all exact tb rfl) | refine (mbxPort_kinds ..).mono ?_ | exact all_skip_i | refine all_cons ?_ ?_ | exact all_nil | refine all_seq_i ?_ ?_ | refine all_read_i fun _ => ?_ | refine all_when_i ?_ | refine all_each_i fun _ => ?_ | refine all_ifSome_i fun _ => ?_ | split | dsimp only | contradiction

theorem mbxPortTdr_kinds (m : Nat) : Prog.All (Act.among 0x220084300003CA38180000040925148000000014800000003000AE0000000000000000004040000000000000000000000003401037D0) (mbxPortTdr m) := by
  unfold mbxPortTdr
  repeat' with_reducible first | refine all_leaf ?_ | (show within _ _ = true; with_unfolding_all exact rfl) | (show Act.among _ _; with_unfolding_all exact tb rfl) | refine (mbxPort_kinds ..).mono ?_ | exact all_skip_i | refine all_cons ?_ ?_ | exact all_nil | refine all_seq_i ?_ ?_ | refine all_read_i fun _ => ?_ | refine all_when_i ?_ | refine all_each_i fun _ => ?_ | refine all_ifSome_i fun _ => ?_ | split | dsimp only | contradiction

theorem mbxLaunch_kinds (m : Nat) : Prog.All (Act.among 0x11022220084380003CA38180004140935F480000000148000000000100C00004010048210FF8040400000000000000180C000000340197FD2) (mbxLaunch m) := by
  unfold mbxLaunch
  repeat' with_reducible first | refine all_leaf ?_ | (show within _ _ = true; with_unfolding_all exact rfl) | (show Act.among _ _; with_unfolding_all exact tb rfl) | refine (lgArm_kinds ..).mono ?_ | refine (mbxReply_kinds ..).mono ?_ | refine mbxRun_kinds (K := _) ?_ _ _ _ _ _ ?_ | refine setF_kinds _ _ ?_ | refine setWide_kinds _ _ _ ?_ | refine (updHead_kinds ..).mono ?_ | refine lies_LCH_LG_TIME_words ?_ (by decide) | (show Nat.testBit _ _ = true; exact tb rfl) | (show lies _ _; (try dsimp only [F.LCH_LG_MASK_groups]); first | refine lies_LCH_LG_MASK ?_ | refine lies_LCH_LG_TIME ?_ | refine lies_LCH_LG_TIME_at ?_ (by decide) (by decide) | refine lies_any ?_ | split) | exact all_skip_i | refine all_cons ?_ ?_ | exact all_nil | refine all_seq_i ?_ ?_ | refine all_read_i fun _ => ?_ | refine all_when_i ?_ | refine all_each_i fun _ => ?_ | refine all_ifSome_i fun _ => ?_ | intro _ | split | dsimp only | contradiction

theorem launchReply_kinds (m g : Nat) : Prog.All (Act.among 0x14800000001480000000000000000000000000000000000000000000000000000000000100100010) (launchReply m g) := by
  unfold launchReply
  repeat' with_reducible first | refine all_leaf ?_ | (show within _ _ = true; with_unfolding_all exact rfl) | (show Act.among _ _; with_unfolding_all exact tb rfl) | refine (mbxReply_kinds ..).mono ?_ | exact all_skip_i | refine all_cons ?_ ?_ | exact all_nil | refine all_seq_i ?_ ?_ | refine all_read_i fun _ => ?_ | refine all_when_i ?_ | refine all_each_i fun _ => ?_ | refine all_ifSome_i fun _ => ?_ | split | dsimp only | contradiction

theorem launchReplyTimeout_kinds (m : Nat) : Prog.All (Act.among 0x14800000001480000000000000000000000000000000000000000000000000000000000100100010) (launchReplyTimeout m) := by
  unfold launchReplyTimeout
  repeat' with_reducible first | refine all_leaf ?_ | (show within _ _ = true; with_unfolding_all exact rfl) | (show Act.among _ _; with_unfolding_all exact tb rfl) | refine (launchReply_kinds ..).mono ?_ | exact all_skip_i | refine all_cons ?_ ?_ | exact all_nil | refine all_seq_i ?_ ?_ | refine all_read_i fun _ => ?_ | refine all_when_i ?_ | refine all_each_i fun _ => ?_ | refine all_ifSome_i fun _ => ?_ | split | dsimp only | contradiction

theorem mbxEcho_kinds (m : Nat) : Prog.All (Act.among 0x14800000001480000000000000000000000000000000000000000000000000000000000100100010) (mbxEcho m) := by
  unfold mbxEcho
  repeat' with_reducible first | refine all_leaf ?_ | (show within _ _ = true; with_unfolding_all exact rfl) | (show Act.among _ _; with_unfolding_all exact tb rfl) | refine (mbxReply_kinds ..).mono ?_ | refine mbxRun_kinds (K := _) ?_ _ _ _ _ _ ?_ | exact all_skip_i | refine all_cons ?_ ?_ | exact all_nil | refine all_seq_i ?_ ?_ | refine all_read_i fun _ => ?_ | refine all_when_i ?_ | refine all_each_i fun _ => ?_ | refine all_ifSome_i fun _ => ?_ | intro _ | split | dsimp only | contradiction

theorem mbxReplyDue_kinds (m : Nat) : Prog.All (Act.among 0x14800000001480000000000000000000000000000000000000000000000000000000000100100010) (mbxReplyDue m) := by
  unfold mbxReplyDue
  repeat' with_reducible first | refine all_leaf ?_ | (show within _ _ = true; with_unfolding_all exact rfl) | (show Act.among _ _; with_unfolding_all exact tb rfl) | refine (launchReply_kinds ..).mono ?_ | refine (mbxReply_kinds ..).mono ?_ | refine (portReply_kinds ..).mono ?_ | exact all_skip_i | refine all_cons ?_ ?_ | exact all_nil | refine all_seq_i ?_ ?_ | refine all_read_i fun _ => ?_ | refine all_when_i ?_ | refine all_each_i fun _ => ?_ | refine all_ifSome_i fun _ => ?_ | split | dsimp only | contradiction

end Sys2Proof.Machine
end

