-- ==== Sys2Proof/Laws/KindsDevice.lean ====
section
/-!
SUPPORT. What each operation can touch. The collector, resets, power, starts, clocks, accesses, the serial port.
-/
set_option Elab.async false
namespace Sys2Proof.Machine

set_option linter.unusedTactic false
set_option linter.unreachableTactic false

theorem logMsg_kinds (m : Msg) : Prog.All (Act.among 0x900016000000000000000000008000010) (logMsg m) := by
  unfold logMsg
  repeat' with_reducible first | refine all_leaf ?_ | (show within _ _ = true; with_unfolding_all exact rfl) | (show Act.among _ _; with_unfolding_all exact tb rfl) | refine raise_kinds _ _ (by exact tb rfl) ?_ | refine satAdd_kinds _ _ ?_ | refine setF_kinds _ _ ?_ | refine setReg_kinds _ _ ?_ | refine (updFault_kinds ..).mono ?_ | refine lies_FLT_FIRST_words ?_ (by decide) | refine lies_FLT_LOG_words ?_ (by decide) | (show Nat.testBit _ _ = true; exact tb rfl) | (show lies _ _; (try dsimp only [F.FLT_LOG_STAT_next, F.FLT_LOG_STAT_since_clear, F.FLT_LOG_STAT_wrapped, F.FLT_LOG_repeats, F.FLT_LOG_total, F.FLT_LOG_valid, F.FLT_STAT_total]); first | refine lies_FLT_STAT ?_ | refine lies_FLT_LOG_STAT ?_ | refine lies_FLT_FIRST ?_ | refine lies_FLT_FIRST_at ?_ (by decide) (by decide) | refine lies_FLT_EVENT ?_ | refine lies_FLT_LOG ?_ | refine lies_FLT_LOG_at ?_ (by decide) (by decide) | split) | exact all_skip_i | refine all_cons ?_ ?_ | exact all_nil | refine all_seq_i ?_ ?_ | refine all_read_i fun _ => ?_ | refine all_when_i ?_ | refine all_each_i fun _ => ?_ | refine all_ifSome_i fun _ => ?_ | split | dsimp only | contradiction

theorem logClear_kinds : Prog.All (Act.among 0x800014000000000000000000008000000) (logClear) := by
  unfold logClear
  repeat' with_reducible first | refine all_leaf ?_ | (show within _ _ = true; with_unfolding_all exact rfl) | (show Act.among _ _; with_unfolding_all exact tb rfl) | refine setReg_kinds _ _ ?_ | refine setWide_kinds _ _ _ ?_ | refine (updFault_kinds ..).mono ?_ | refine lies_FLT_FIRST_words ?_ (by decide) | refine lies_FLT_LOG_words ?_ (by decide) | (show Nat.testBit _ _ = true; exact tb rfl) | (show lies _ _; first | refine lies_FLT_LOG_STAT ?_ | refine lies_FLT_FIRST ?_ | refine lies_FLT_FIRST_at ?_ (by decide) (by decide) | refine lies_FLT_LOG ?_ | refine lies_FLT_LOG_at ?_ (by decide) (by decide) | split) | exact all_skip_i | refine all_cons ?_ ?_ | exact all_nil | refine all_seq_i ?_ ?_ | refine all_read_i fun _ => ?_ | refine all_when_i ?_ | refine all_each_i fun _ => ?_ | refine all_ifSome_i fun _ => ?_ | split | dsimp only | contradiction

theorem recordBegin_kinds (r : RecordX) : Prog.All (Act.among 0x8000000) (recordBegin r) := by
  unfold recordBegin
  repeat' with_reducible first | refine all_leaf ?_ | (show within _ _ = true; with_unfolding_all exact rfl) | (show Act.among _ _; with_unfolding_all exact tb rfl) | refine (updFault_kinds ..).mono ?_ | exact all_skip_i | refine all_cons ?_ ?_ | exact all_nil | refine all_seq_i ?_ ?_ | refine all_read_i fun _ => ?_ | refine all_when_i ?_ | refine all_each_i fun _ => ?_ | refine all_ifSome_i fun _ => ?_ | split | dsimp only | contradiction

theorem recordWrite_kinds (r : RecordX) (failed : Bool) : Prog.All (Act.among 0x130000000000000000000000308008010) (recordWrite r failed) := by
  unfold recordWrite
  repeat' with_reducible first | refine all_leaf ?_ | (show within _ _ = true; with_unfolding_all exact rfl) | (show Act.among _ _; with_unfolding_all exact tb rfl) | refine raise_kinds _ _ (by exact tb rfl) ?_ | refine satAdd_kinds _ _ ?_ | refine (send_kinds ..).mono ?_ | refine setF_kinds _ _ ?_ | refine (updFault_kinds ..).mono ?_ | (show Nat.testBit _ _ = true; exact tb rfl) | (show lies _ _; (try dsimp only [F.FLT_REC_CTL_write, F.FLT_REC_STAT_result, F.FLT_REC_STAT_sequence, F.FLT_REC_STAT_skipped, F.FLT_REC_STAT_used]); first | refine lies_FLT_REC_STAT ?_ | refine lies_FLT_REC_CTL ?_ | refine lies_FLT_EVENT ?_ | split) | exact all_skip_i | refine all_cons ?_ ?_ | exact all_nil | refine all_seq_i ?_ ?_ | refine all_read_i fun _ => ?_ | refine all_when_i ?_ | refine all_each_i fun _ => ?_ | refine all_ifSome_i fun _ => ?_ | split | dsimp only | contradiction

theorem recordRequest_kinds : Prog.All (Act.among 0x20000000000000000000000008000000) (recordRequest) := by
  unfold recordRequest
  repeat' with_reducible first | refine all_leaf ?_ | (show within _ _ = true; with_unfolding_all exact rfl) | (show Act.among _ _; with_unfolding_all exact tb rfl) | refine (recordBegin_kinds ..).mono ?_ | refine setF_kinds _ _ ?_ | (show Nat.testBit _ _ = true; exact tb rfl) | (show lies _ _; (try dsimp only [F.FLT_REC_CTL_write]); first | refine lies_FLT_REC_CTL ?_ | split) | exact all_skip_i | refine all_cons ?_ ?_ | exact all_nil | refine all_seq_i ?_ ?_ | refine all_read_i fun _ => ?_ | refine all_when_i ?_ | refine all_each_i fun _ => ?_ | refine all_ifSome_i fun _ => ?_ | split | dsimp only | contradiction

theorem recNextWrite_kinds (sector : Nat) : Prog.All (Act.among 0x18000000000000000000000000000000) (recNextWrite sector) := by
  unfold recNextWrite
  repeat' with_reducible first | refine all_leaf ?_ | (show within _ _ = true; with_unfolding_all exact rfl) | (show Act.among _ _; with_unfolding_all exact tb rfl) | refine setF_kinds _ _ ?_ | (show Nat.testBit _ _ = true; exact tb rfl) | (show lies _ _; (try dsimp only [F.FLT_REC_NEXT_sector, F.FLT_REC_STAT_used]); first | refine lies_FLT_REC_NEXT ?_ | refine lies_FLT_REC_STAT ?_ | split) | exact all_skip_i | refine all_cons ?_ ?_ | exact all_nil | refine all_seq_i ?_ ?_ | refine all_read_i fun _ => ?_ | refine all_when_i ?_ | refine all_each_i fun _ => ?_ | refine all_ifSome_i fun _ => ?_ | split | dsimp only | contradiction

theorem deviceMode_kinds (m : Nat) : Prog.All (Act.among 0x800000000000000000080000000000000000000000000000000000000000000000000100000000000000010) (deviceMode m) := by
  unfold deviceMode
  repeat' with_reducible first | refine all_leaf ?_ | (show within _ _ = true; with_unfolding_all exact rfl) | (show Act.among _ _; with_unfolding_all exact tb rfl) | refine raise_kinds _ _ (by exact tb rfl) ?_ | refine setF_kinds _ _ ?_ | (show Nat.testBit _ _ = true; exact tb rfl) | (show lies _ _; (try dsimp only [F.AON_MODE_mode, F.GLB_MODE_mode]); first | refine lies_GLB_MODE ?_ | refine lies_HSPI_KEVENT ?_ | refine lies_AON_MODE ?_ | split) | exact all_skip_i | refine all_cons ?_ ?_ | exact all_nil | refine all_seq_i ?_ ?_ | refine all_read_i fun _ => ?_ | refine all_when_i ?_ | refine all_each_i fun _ => ?_ | refine all_ifSome_i fun _ => ?_ | split | dsimp only | contradiction

theorem avsStep_kinds : Prog.All (Act.among 0x102000000) (avsStep) := by
  unfold avsStep
  repeat' with_reducible first | refine all_leaf ?_ | (show within _ _ = true; with_unfolding_all exact rfl) | (show Act.among _ _; with_unfolding_all exact tb rfl) | refine (send_kinds ..).mono ?_ | refine (updPower_kinds ..).mono ?_ | exact all_skip_i | refine all_cons ?_ ?_ | exact all_nil | refine all_seq_i ?_ ?_ | refine all_read_i fun _ => ?_ | refine all_when_i ?_ | refine all_each_i fun _ => ?_ | refine all_ifSome_i fun _ => ?_ | split | dsimp only | contradiction

theorem avsFixed_kinds (mv : Nat) : Prog.All (Act.among 0x10000000000000102000000) (avsFixed mv) := by
  unfold avsFixed
  repeat' with_reducible first | refine all_leaf ?_ | (show within _ _ = true; with_unfolding_all exact rfl) | (show Act.among _ _; with_unfolding_all exact tb rfl) | refine avsStep_kinds.mono ?_ | refine setF_kinds _ _ ?_ | refine (updPower_kinds ..).mono ?_ | (show Nat.testBit _ _ = true; exact tb rfl) | (show lies _ _; (try dsimp only [F.PWR_AVS_STAT_loop]); first | refine lies_PWR_AVS_STAT ?_ | split) | exact all_skip_i | refine all_cons ?_ ?_ | exact all_nil | refine all_seq_i ?_ ?_ | refine all_read_i fun _ => ?_ | refine all_when_i ?_ | refine all_each_i fun _ => ?_ | refine all_ifSome_i fun _ => ?_ | split | dsimp only | contradiction

theorem avsAck_kinds (want : Nat) : Prog.All (Act.among 0x10000000000000102000000) (avsAck want) := by
  unfold avsAck
  repeat' with_reducible first | refine all_leaf ?_ | (show within _ _ = true; with_unfolding_all exact rfl) | (show Act.among _ _; with_unfolding_all exact tb rfl) | refine avsStep_kinds.mono ?_ | refine setF_kinds _ _ ?_ | refine (updPower_kinds ..).mono ?_ | (show Nat.testBit _ _ = true; exact tb rfl) | (show lies _ _; (try dsimp only [F.PWR_AVS_STAT_bus_fail, F.PWR_AVS_STAT_loop, F.PWR_AVS_STAT_target_mv]); first | refine lies_PWR_AVS_STAT ?_ | split) | exact all_skip_i | refine all_cons ?_ ?_ | exact all_nil | refine all_seq_i ?_ ?_ | refine all_read_i fun _ => ?_ | refine all_when_i ?_ | refine all_each_i fun _ => ?_ | refine all_ifSome_i fun _ => ?_ | split | dsimp only | contradiction

theorem avsTimeout_kinds : Prog.All (Act.among 0x30000000000000042000010) (avsTimeout) := by
  unfold avsTimeout
  repeat' with_reducible first | refine all_leaf ?_ | (show within _ _ = true; with_unfolding_all exact rfl) | (show Act.among _ _; with_unfolding_all exact tb rfl) | refine (emit_kinds ..).mono ?_ | refine raise_kinds _ _ (by exact tb rfl) ?_ | refine setF_kinds _ _ ?_ | refine (updPower_kinds ..).mono ?_ | (show Nat.testBit _ _ = true; exact tb rfl) | (show lies _ _; (try dsimp only [F.PWR_AVS_STAT_bus_fail, F.PWR_AVS_STAT_loop]); first | refine lies_PWR_AVS_STAT ?_ | refine lies_PWR_EVENT ?_ | split) | exact all_skip_i | refine all_cons ?_ ?_ | exact all_nil | refine all_seq_i ?_ ?_ | refine all_read_i fun _ => ?_ | refine all_when_i ?_ | refine all_each_i fun _ => ?_ | refine all_ifSome_i fun _ => ?_ | split | dsimp only | contradiction

theorem avsRetry_kinds : Prog.All (Act.among 0x102000000) (avsRetry) := by
  unfold avsRetry
  repeat' with_reducible first | refine all_leaf ?_ | (show within _ _ = true; with_unfolding_all exact rfl) | (show Act.among _ _; with_unfolding_all exact tb rfl) | refine (send_kinds ..).mono ?_ | refine (updPower_kinds ..).mono ?_ | exact all_skip_i | refine all_cons ?_ ?_ | exact all_nil | refine all_seq_i ?_ ?_ | refine all_read_i fun _ => ?_ | refine all_when_i ?_ | refine all_each_i fun _ => ?_ | refine all_ifSome_i fun _ => ?_ | split | dsimp only | contradiction

theorem mbistAborted_kinds : Prog.All (Act.among 0x4000000000000000000000000000000000000102000000000000000000000000800010) (mbistAborted) := by
  unfold mbistAborted
  repeat' with_reducible first | refine all_leaf ?_ | (show within _ _ = true; with_unfolding_all exact rfl) | (show Act.among _ _; with_unfolding_all exact tb rfl) | refine raise_kinds _ _ (by exact tb rfl) ?_ | refine setF_kinds _ _ ?_ | (show Nat.testBit _ _ = true; exact tb rfl) | (show lies _ _; (try dsimp only [F.CEL_STAT_init_done, F.FLT_MBIST_STAT_result, F.FLT_MBIST_STAT_state]); first | refine lies_FLT_MBIST_STAT ?_ | refine lies_FLT_EVENT ?_ | refine lies_CEL_STAT ?_ | split) | exact all_skip_i | refine all_cons ?_ ?_ | exact all_nil | refine all_seq_i ?_ ?_ | refine all_read_i fun _ => ?_ | refine all_when_i ?_ | refine all_each_i fun _ => ?_ | refine all_ifSome_i fun _ => ?_ | split | dsimp only | contradiction

theorem stagesAborted_kinds : Prog.All (Act.among 0x220084300003CBF81800000409250000000000000000000000000C25000000000000000040400000000000000000000000034200B7D0) (stagesAborted) := by
  unfold stagesAborted
  repeat' with_reducible first | refine all_leaf ?_ | (show within _ _ = true; with_unfolding_all exact rfl) | (show Act.among _ _; with_unfolding_all exact tb rfl) | refine (adminMove_kinds ..).mono ?_ | refine setF_kinds _ _ ?_ | refine (stageEnds_kinds ..).mono ?_ | refine (updPort_kinds ..).mono ?_ | (show Nat.testBit _ _ = true; exact tb rfl) | (show lies _ _; (try dsimp only [F.CAL_PORT_STAT_result, F.CAL_PORT_STAT_state, F.PORT_CTL_admin]); first | refine lies_CAL_PORT_STAT ?_ | split) | exact all_skip_i | refine all_cons ?_ ?_ | exact all_nil | refine all_seq_i ?_ ?_ | refine all_read_i fun _ => ?_ | refine all_when_i ?_ | refine all_each_i fun _ => ?_ | refine all_ifSome_i fun _ => ?_ | split | dsimp only | contradiction

theorem activityAbort_kinds (b : Booking) : Prog.All (Act.among 0x22009C300003CA381800000409250000000000400000000021104C2000600000000000004041020000000000000000000003408077D0) (activityAbort b) := by
  unfold activityAbort
  repeat' with_reducible first | refine all_leaf ?_ | (show within _ _ = true; with_unfolding_all exact rfl) | (show Act.among _ _; with_unfolding_all exact tb rfl) | refine (abortLoop_kinds ..).mono ?_ | refine (annealAbort_kinds ..).mono ?_ | refine (clearQuarter_kinds ..).mono ?_ | refine mbistAborted_kinds.mono ?_ | refine raise_kinds _ _ (by exact tb rfl) ?_ | refine (refreshNear_kinds ..).mono ?_ | refine setF_kinds _ _ ?_ | refine setFBit_kinds _ _ _ ?_ | refine sweepStop_kinds.mono ?_ | refine (tdrStop_kinds ..).mono ?_ | refine (updFur_kinds ..).mono ?_ | (show Nat.testBit _ _ = true; exact tb rfl) | (show lies _ _; (try dsimp only [F.DIAG_FLASH_BOOK_granted, F.DIAG_FLASH_BOOK_request, F.FUR_SELFTEST_busy]); first | refine lies_FUR_SELFTEST ?_ | refine lies_FUR_EVENT ?_ | refine lies_DIAG_FLASH_BOOK ?_ | split) | exact all_skip_i | refine all_cons ?_ ?_ | exact all_nil | refine all_seq_i ?_ ?_ | refine all_read_i fun _ => ?_ | refine all_when_i ?_ | refine all_each_i fun _ => ?_ | refine all_ifSome_i fun _ => ?_ | split | dsimp only | contradiction

theorem ledgerAbortAll_kinds : Prog.All (Act.among 0x22009C300003CBF81800000409250000000000400000000021104C25006000000000000040410200000000000000000000034280F7D0) (ledgerAbortAll) := by
  unfold ledgerAbortAll
  repeat' with_reducible first | refine all_leaf ?_ | (show within _ _ = true; with_unfolding_all exact rfl) | (show Act.among _ _; with_unfolding_all exact tb rfl) | refine (activityAbort_kinds ..).mono ?_ | refine stagesAborted_kinds.mono ?_ | exact all_skip_i | refine all_cons ?_ ?_ | exact all_nil | refine all_seq_i ?_ ?_ | refine all_read_i fun _ => ?_ | refine all_when_i ?_ | refine all_each_i fun _ => ?_ | refine all_ifSome_i fun _ => ?_ | split | dsimp only | contradiction

theorem packetReset_kinds : Prog.All (Act.among 0xFFFFFF000000000000000000000000000000010000000000000000000000000000000000000000000000000000000000000000000000200052) (packetReset) := by
  unfold packetReset
  repeat' with_reducible first | refine all_leaf ?_ | (show within _ _ = true; with_unfolding_all exact rfl) | (show Act.among _ _; with_unfolding_all exact tb rfl) | refine (freeUnits_kinds ..).mono ?_ | refine (resetQp_kinds ..).mono ?_ | refine setWide_kinds _ _ _ ?_ | refine lies_ring_QP_RX_DROPS_words ?_ ?_ (by decide) | refine lies_QP_RX_DROPS_words ?_ (by decide) | refine lies_QP_TX_DROPS_words ?_ (by decide) | (show Nat.testBit _ _ = true; exact tb rfl) | (show lies _ _; first | refine lies_ring_QP_RX_DROPS ?_ ?_ | refine lies_ring_QP_RX_DROPS_at ?_ ?_ (by decide) (by decide) | refine lies_QP_RX_DROPS ?_ | refine lies_QP_RX_DROPS_at ?_ (by decide) (by decide) | refine lies_QP_TX_DROPS ?_ | refine lies_QP_TX_DROPS_at ?_ (by decide) (by decide) | split) | exact all_skip_i | refine all_cons ?_ ?_ | exact all_nil | refine all_seq_i ?_ ?_ | refine all_read_i fun _ => ?_ | refine all_when_i ?_ | refine all_each_i fun _ => ?_ | refine all_ifSome_i fun _ => ?_ | split | dsimp only | contradiction

theorem safeStat_kinds (cls reason src kind detail : Nat) : Prog.All (Act.among 0x800000000000000000000000000000000000000000000000000000000000002000000000000000000008000000) (safeStat cls reason src kind detail) := by
  unfold safeStat
  repeat' with_reducible first | refine all_leaf ?_ | (show within _ _ = true; with_unfolding_all exact rfl) | (show Act.among _ _; with_unfolding_all exact tb rfl) | refine setF_kinds _ _ ?_ | refine (updFault_kinds ..).mono ?_ | (show Nat.testBit _ _ = true; exact tb rfl) | (show lies _ _; (try dsimp only [F.AON_SAFE_STAT_class_, F.AON_SAFE_STAT_detail, F.AON_SAFE_STAT_kind, F.AON_SAFE_STAT_reason, F.AON_SAFE_STAT_source, F.FLT_STAT_safe_class, F.FLT_STAT_safe_reason]); first | refine lies_FLT_STAT ?_ | refine lies_AON_SAFE_STAT ?_ | split) | exact all_skip_i | refine all_cons ?_ ?_ | exact all_nil | refine all_seq_i ?_ ?_ | refine all_read_i fun _ => ?_ | refine all_when_i ?_ | refine all_each_i fun _ => ?_ | refine all_ifSome_i fun _ => ?_ | split | dsimp only | contradiction

theorem safePort_kinds (p : Nat) : Prog.All (Act.among 0x22009C300003CBF81800000409250000000000000000000000000C2000000000000000004040000000000000000000000003420037D0) (safePort p) := by
  unfold safePort
  repeat' with_reducible first | refine all_leaf ?_ | (show within _ _ = true; with_unfolding_all exact rfl) | (show Act.among _ _; with_unfolding_all exact tb rfl) | refine (portAdminWrite_kinds ..).mono ?_ | refine (updPort_kinds ..).mono ?_ | exact all_skip_i | refine all_cons ?_ ?_ | exact all_nil | refine all_seq_i ?_ ?_ | refine all_read_i fun _ => ?_ | refine all_when_i ?_ | refine all_each_i fun _ => ?_ | refine all_ifSome_i fun _ => ?_ | split | dsimp only | contradiction

theorem safeSteps_kinds : Prog.All (Act.among 0xFFFFFF22009C300003CBF818800804092500010000000080003F0800000C20000000000000040040400000200001000010000000034A63B7D2) (safeSteps) := by
  unfold safeSteps
  repeat' with_reducible first | refine all_leaf ?_ | (show within _ _ = true; with_unfolding_all exact rfl) | (show Act.among _ _; with_unfolding_all exact tb rfl) | refine (avsFixed_kinds ..).mono ?_ | refine (deviceMode_kinds ..).mono ?_ | refine lgAllIdle_kinds.mono ?_ | refine mdmaStop_kinds.mono ?_ | refine packetReset_kinds.mono ?_ | refine raise_kinds _ _ (by exact tb rfl) ?_ | refine (recordBegin_kinds ..).mono ?_ | refine (safePort_kinds ..).mono ?_ | refine (send_kinds ..).mono ?_ | refine setF_kinds _ _ ?_ | refine (updPower_kinds ..).mono ?_ | (show Nat.testBit _ _ = true; exact tb rfl) | (show lies _ _; (try dsimp only [F.AON_SAFE_STAT_class_, F.AON_SAFE_STAT_pending, F.AON_SAFE_STAT_reason, F.AON_SAFE_STAT_safe, F.FLT_STAT_safe, F.HEAD_IRQ_CFG_sum_vec]); first | refine lies_FLT_STAT ?_ | refine lies_HSPI_KEVENT ?_ | refine lies_AON_SAFE_STAT ?_ | split) | exact all_skip_i | refine all_cons ?_ ?_ | exact all_nil | refine all_seq_i ?_ ?_ | refine all_read_i fun _ => ?_ | refine all_when_i ?_ | refine all_each_i fun _ => ?_ | refine all_ifSome_i fun _ => ?_ | split | dsimp only | contradiction

theorem enterSafe_kinds (cls reason src kind detail : Nat) : Prog.All (Act.among 0xFFFFFF22009C300003CBF818800804092500010000000080003F0800000C20000000000000040040400000200001000010000000034A63B7D2) (enterSafe cls reason src kind detail) := by
  unfold enterSafe
  repeat' with_reducible first | refine all_leaf ?_ | (show within _ _ = true; with_unfolding_all exact rfl) | (show Act.among _ _; with_unfolding_all exact tb rfl) | refine (safeStat_kinds ..).mono ?_ | refine safeSteps_kinds.mono ?_ | refine setF_kinds _ _ ?_ | refine (updFault_kinds ..).mono ?_ | (show Nat.testBit _ _ = true; exact tb rfl) | (show lies _ _; (try dsimp only [F.AON_SAFE_STAT_class_, F.AON_SAFE_STAT_safe, F.FLT_STAT_safe_class]); first | refine lies_FLT_STAT ?_ | refine lies_AON_SAFE_STAT ?_ | split) | exact all_skip_i | refine all_cons ?_ ?_ | exact all_nil | refine all_seq_i ?_ ?_ | refine all_read_i fun _ => ?_ | refine all_when_i ?_ | refine all_each_i fun _ => ?_ | refine all_ifSome_i fun _ => ?_ | split | dsimp only | contradiction

theorem quarterReset_kinds (q : Nat) : Prog.All (Act.among 0x220084300003CA381800000409250000000000000000000000000C0000000000000000004040000000000000000000000003400037D0) (quarterReset q) := by
  unfold quarterReset
  repeat' with_reducible first | refine all_leaf ?_ | (show within _ _ = true; with_unfolding_all exact rfl) | (show Act.among _ _; with_unfolding_all exact tb rfl) | refine (portDropNow_kinds ..).mono ?_ | refine (portRestart_kinds ..).mono ?_ | refine (refreshBundle_kinds ..).mono ?_ | refine (updBnd_kinds ..).mono ?_ | exact all_skip_i | refine all_cons ?_ ?_ | exact all_nil | refine all_seq_i ?_ ?_ | refine all_read_i fun _ => ?_ | refine all_when_i ?_ | refine all_each_i fun _ => ?_ | refine all_ifSome_i fun _ => ?_ | split | dsimp only | contradiction

theorem blockEffect_kinds (src : Nat) : Prog.All (Act.among 0xFFFFFF2E2F9C303FF3FBF87C000414092514818F4000548003FF0821104C2D0060FF9E97F6842148C102040000000081108000000363F3FFDE) (blockEffect src) := by
  unfold blockEffect
  repeat' with_reducible first | refine all_leaf ?_ | (show within _ _ = true; with_unfolding_all exact rfl) | (show Act.among _ _; with_unfolding_all exact tb rfl) | refine (activityAbort_kinds ..).mono ?_ | refine deriveLch_kinds.mono ?_ | refine deriveMld_kinds.mono ?_ | refine deriveTb_kinds.mono ?_ | refine flashReset_kinds.mono ?_ | refine (headReset_kinds ..).mono ?_ | refine (leaveStaged_kinds ..).mono ?_ | refine lgAllIdle_kinds.mono ?_ | refine (mbxEnds_kinds ..).mono ?_ | refine mdmaStop_kinds.mono ?_ | refine packetReset_kinds.mono ?_ | refine (portResetBegin_kinds ..).mono ?_ | refine (quarterReset_kinds ..).mono ?_ | refine (resetBlock_kinds ..).mono ?_ | refine resetReg_kinds _ (by exact tb rfl) (by exact tb rfl) ?_ | refine setF_kinds _ _ ?_ | refine stagesAborted_kinds.mono ?_ | refine (tbState_kinds ..).mono ?_ | refine (updMld_kinds ..).mono ?_ | refine (updTb_kinds ..).mono ?_ | (show Nat.testBit _ _ = true; exact tb rfl) | (show lies _ _; (try dsimp only [F.CAL_BANDGAP_trim, F.MLD_LOAD_CTL_start, F.MLD_REMOULD_STAT_state]); first | refine lies_MLD_STATUS ?_ | refine lies_MLD_ERR_DETAIL ?_ | refine lies_MLD_LOAD_CTL ?_ | refine lies_MLD_REMOULD_STAT ?_ | refine lies_MLD_EVENT ?_ | refine lies_MLD_EVENT_MASK ?_ | refine lies_CAL_BANDGAP ?_ | refine lies_any ?_ | refine lies_commit ?_ | split) | exact all_skip_i | refine all_cons ?_ ?_ | exact all_nil | refine all_seq_i ?_ ?_ | refine all_read_i fun _ => ?_ | refine all_when_i ?_ | refine all_each_i fun _ => ?_ | refine all_ifSome_i fun _ => ?_ | split | dsimp only | contradiction

theorem blockReset_kinds {K : Nat} (hK : within 0xFFFFFF2E2F9C303FF3FBF87C000414092514818F4000548003FF0821104C2D0060FF9E97F6842148C10204020000008110800000036BF3FFDE K = true) (src : Nat) (chip : Prog) (h_chip : Prog.All (Act.among K) (chip)) : Prog.All (Act.among K) (blockReset src chip) := by
  unfold blockReset
  repeat' with_reducible first | refine all_leaf ?_ | (show Act.among _ _; with_unfolding_all exact testBit_within hK (tb rfl)) | exact within_trans (by with_unfolding_all exact rfl) hK | exact h_chip | refine (blockEffect_kinds ..).mono ?_ | refine setF_kinds _ _ ?_ | refine (updFault_kinds ..).mono ?_ | (show Nat.testBit _ _ = true; exact testBit_within hK (tb rfl)) | (show lies _ _; (try dsimp only [F.RST_BLOCK_STAT_busy, F.RST_BLOCK_STAT_source]); first | refine lies_RST_BLOCK_STAT ?_ | refine lies_any ?_ | split) | exact all_skip_i | refine all_cons ?_ ?_ | exact all_nil | refine all_seq_i ?_ ?_ | refine all_read_i fun _ => ?_ | refine all_when_i ?_ | refine all_each_i fun _ => ?_ | refine all_ifSome_i fun _ => ?_ | split | dsimp only | contradiction

theorem blockResetEnd_kinds (src : Nat) : Prog.All (Act.among 0x220084380003CBF81800000409250000000000000000000000000C00004000000010A400404000000A0000000180C00000034A1837D2) (blockResetEnd src) := by
  unfold blockResetEnd
  repeat' with_reducible first | refine all_leaf ?_ | (show within _ _ = true; with_unfolding_all exact rfl) | (show Act.among _ _; with_unfolding_all exact tb rfl) | refine (headResetEnd_kinds ..).mono ?_ | refine (lateApply_kinds ..).mono ?_ | refine (portResetEnd_kinds ..).mono ?_ | refine raise_kinds _ _ (by exact tb rfl) ?_ | refine setF_kinds _ _ ?_ | refine (updFault_kinds ..).mono ?_ | (show Nat.testBit _ _ = true; exact tb rfl) | (show lies _ _; (try dsimp only [F.RST_BLOCK_STAT_busy]); first | refine lies_RST_BLOCK_STAT ?_ | refine lies_RST_EVENT ?_ | refine lies_any ?_ | split) | exact all_skip_i | refine all_cons ?_ ?_ | exact all_nil | refine all_seq_i ?_ ?_ | refine all_read_i fun _ => ?_ | refine all_when_i ?_ | refine all_each_i fun _ => ?_ | refine all_ifSome_i fun _ => ?_ | split | dsimp only | contradiction

theorem domainGates_kinds (d : Nat) (on : Bool) : Prog.All (Act.among 0x8000000000000000000000000) (domainGates d on) := by
  unfold domainGates
  repeat' with_reducible first | refine all_leaf ?_ | (show within _ _ = true; with_unfolding_all exact rfl) | (show Act.among _ _; with_unfolding_all exact tb rfl) | refine setFBit_kinds _ _ _ ?_ | (show Nat.testBit _ _ = true; exact tb rfl) | (show lies _ _; (try dsimp only [F.CLK_GATE_gate]); first | refine lies_CLK_GATE ?_ | split) | exact all_skip_i | refine all_cons ?_ ?_ | exact all_nil | refine all_seq_i ?_ ?_ | refine all_read_i fun _ => ?_ | refine all_when_i ?_ | refine all_each_i fun _ => ?_ | refine all_ifSome_i fun _ => ?_ | split | dsimp only | contradiction

theorem restoreSet_kinds (p : Nat) (m : SMap Word) : Prog.All (Act.among 0x8000000000000002) (restoreSet p m) := by
  unfold restoreSet
  repeat' with_reducible first | refine all_leaf ?_ | (show within _ _ = true; with_unfolding_all exact rfl) | (show Act.among _ _; with_unfolding_all exact tb rfl) | refine setReg_kinds _ _ ?_ | (show Nat.testBit _ _ = true; exact tb rfl) | (show lies _ _; first | refine lies_any ?_ | split) | exact all_skip_i | refine all_cons ?_ ?_ | exact all_nil | refine all_seq_i ?_ ?_ | refine all_read_i fun _ => ?_ | refine all_when_i ?_ | refine all_each_i fun _ => ?_ | refine all_ifSome_i fun _ => ?_ | split | dsimp only | contradiction

theorem portHold_kinds (p : Nat) : Prog.All (Act.among 0x40) (portHold p) := by
  unfold portHold
  repeat' with_reducible first | refine all_leaf ?_ | (show within _ _ = true; with_unfolding_all exact rfl) | (show Act.among _ _; with_unfolding_all exact tb rfl) | refine (updPort_kinds ..).mono ?_ | exact all_skip_i | refine all_cons ?_ ?_ | exact all_nil | refine all_seq_i ?_ ?_ | refine all_read_i fun _ => ?_ | refine all_when_i ?_ | refine all_each_i fun _ => ?_ | refine all_ifSome_i fun _ => ?_ | split | dsimp only | contradiction

theorem portOff_kinds (p : Nat) (keep : Bool) : Prog.All (Act.among 0x22009C300003CA381800000409250000000000000000000000000C25000000000000000040400000000000000000800000034000B7DE) (portOff p keep) := by
  unfold portOff
  repeat' with_reducible first | refine all_leaf ?_ | (show within _ _ = true; with_unfolding_all exact rfl) | (show Act.among _ _; with_unfolding_all exact tb rfl) | refine (abortLoop_kinds ..).mono ?_ | refine (annealAbort_kinds ..).mono ?_ | refine (enterRest_kinds ..).mono ?_ | refine movePort_kinds (K := _) ?_ _ _ ?_ | refine (portHold_kinds ..).mono ?_ | refine (refreshNear_kinds ..).mono ?_ | refine (resetRange_kinds ..).mono ?_ | refine setF_kinds _ _ ?_ | refine (stageDrop_kinds ..).mono ?_ | refine (updPort_kinds ..).mono ?_ | (show Nat.testBit _ _ = true; exact tb rfl) | (show lies _ _; (try dsimp only [F.PORT_STATE_orphan]); first | refine lies_PORT_STATE ?_ | refine lies_any ?_ | split) | exact all_skip_i | refine all_cons ?_ ?_ | exact all_nil | refine all_seq_i ?_ ?_ | refine all_read_i fun _ => ?_ | refine all_when_i ?_ | refine all_each_i fun _ => ?_ | refine all_ifSome_i fun _ => ?_ | intro _ | split | dsimp only | contradiction

theorem portOn_kinds (p : Nat) : Prog.All (Act.among 0x2200E4380003CA3A780000040925000000400000000000000000AC31004000000010A40040400000000000000180C0000003400837D2) (portOn p) := by
  unfold portOn
  repeat' with_reducible first | refine all_leaf ?_ | (show within _ _ = true; with_unfolding_all exact rfl) | (show Act.among _ _; with_unfolding_all exact tb rfl) | refine (derivePort_kinds ..).mono ?_ | refine (derivePortDef_kinds ..).mono ?_ | refine (lateApply_kinds ..).mono ?_ | refine (refreshNear_kinds ..).mono ?_ | refine (restoreSet_kinds ..).mono ?_ | refine setF_kinds _ _ ?_ | refine setReg_kinds _ _ ?_ | refine (updPort_kinds ..).mono ?_ | refine (verifyPort_kinds ..).mono ?_ | (show Nat.testBit _ _ = true; exact tb rfl) | (show lies _ _; (try dsimp only [F.PORT_CTL_admin, F.PORT_STATE_state]); first | refine lies_PORT_CTL ?_ | refine lies_PORT_STATE ?_ | refine lies_any ?_ | split) | exact all_skip_i | refine all_cons ?_ ?_ | exact all_nil | refine all_seq_i ?_ ?_ | refine all_read_i fun _ => ?_ | refine all_when_i ?_ | refine all_each_i fun _ => ?_ | refine all_ifSome_i fun _ => ?_ | split | dsimp only | contradiction

theorem quarterRecords_kinds (q : Nat) : Prog.All (Act.among 0x200) (quarterRecords q) := by
  unfold quarterRecords
  repeat' with_reducible first | refine all_leaf ?_ | (show within _ _ = true; with_unfolding_all exact rfl) | (show Act.among _ _; with_unfolding_all exact tb rfl) | refine (recordQuarter_kinds ..).mono ?_ | refine (writeRecord_kinds ..).mono ?_ | exact all_skip_i | refine all_cons ?_ ?_ | exact all_nil | refine all_seq_i ?_ ?_ | refine all_read_i fun _ => ?_ | refine all_when_i ?_ | refine all_each_i fun _ => ?_ | refine all_ifSome_i fun _ => ?_ | split | dsimp only | contradiction

theorem quarterOff_kinds (q : Nat) (forced : Bool) : Prog.All (Act.among 0x220084300003CA381800000409250000000000000000000000000C0020100000000000004040000000000000000000000003400037D2) (quarterOff q forced) := by
  unfold quarterOff
  repeat' with_reducible first | refine all_leaf ?_ | (show within _ _ = true; with_unfolding_all exact rfl) | (show Act.among _ _; with_unfolding_all exact tb rfl) | refine (portDropNow_kinds ..).mono ?_ | refine (quarterRecords_kinds ..).mono ?_ | refine (refreshBundle_kinds ..).mono ?_ | refine resetReg_kinds _ (by exact tb rfl) (by exact tb rfl) ?_ | refine setF_kinds _ _ ?_ | refine (toListen_kinds ..).mono ?_ | refine (updBnd_kinds ..).mono ?_ | refine (updFur_kinds ..).mono ?_ | refine (updPort_kinds ..).mono ?_ | (show Nat.testBit _ _ = true; exact tb rfl) | (show lies _ _; (try dsimp only [F.BND_CFG_quarter, F.BND_CFG_valid, F.FUR_QTR_STORE_sealed]); first | refine lies_FUR_QTR_STORE ?_ | refine lies_POT_ECC ?_ | split) | exact all_skip_i | refine all_cons ?_ ?_ | exact all_nil | refine all_seq_i ?_ ?_ | refine all_read_i fun _ => ?_ | refine all_when_i ?_ | refine all_each_i fun _ => ?_ | refine all_ifSome_i fun _ => ?_ | split | dsimp only | contradiction

theorem quarterOn_kinds (q : Nat) (sealOk : Bool) : Prog.All (Act.among 0x250000000000000000000000000000105E000000000000000000000000000000000000000040000352) (quarterOn q sealOk) := by
  unfold quarterOn
  repeat' with_reducible first | refine all_leaf ?_ | (show within _ _ = true; with_unfolding_all exact rfl) | (show Act.among _ _; with_unfolding_all exact tb rfl) | refine (clearQuarter_kinds ..).mono ?_ | refine (emit_kinds ..).mono ?_ | refine raise_kinds _ _ (by exact tb rfl) ?_ | refine refreshBundles_kinds.mono ?_ | refine resetReg_kinds _ (by exact tb rfl) (by exact tb rfl) ?_ | refine setF_kinds _ _ ?_ | refine (updFur_kinds ..).mono ?_ | refine (updPort_kinds ..).mono ?_ | (show Nat.testBit _ _ = true; exact tb rfl) | (show lies _ _; (try dsimp only [F.FUR_QTR_STAT_spare, F.FUR_QTR_STORE_seal_fail, F.FUR_QTR_STORE_sealed]); first | refine lies_FUR_QTR_STAT ?_ | refine lies_FUR_QTR_SPARE ?_ | refine lies_FUR_QTR_DEAD ?_ | refine lies_FUR_QTR_STORE ?_ | refine lies_FUR_EVENT ?_ | refine lies_POT_STAT ?_ | split) | exact all_skip_i | refine all_cons ?_ ?_ | exact all_nil | refine all_seq_i ?_ ?_ | refine all_read_i fun _ => ?_ | refine all_when_i ?_ | refine all_each_i fun _ => ?_ | refine all_ifSome_i fun _ => ?_ | split | dsimp only | contradiction

theorem headsOff_kinds : Prog.All (Act.among 0xFFFFFF000000000000000000000000000000818C0000000003FB0000000000000000000000840000000004000000008110800000014073805E) (headsOff) := by
  unfold headsOff
  repeat' with_reducible first | refine all_leaf ?_ | (show within _ _ = true; with_unfolding_all exact rfl) | (show Act.among _ _; with_unfolding_all exact tb rfl) | refine (headRegs_kinds ..).mono ?_ | refine holderUpdate_kinds.mono ?_ | refine (mdmaHeadLost_kinds ..).mono ?_ | refine (resetQp_kinds ..).mono ?_ | refine (setVote_kinds ..).mono ?_ | (show Nat.testBit _ _ = true; exact tb rfl) | (show lies _ _; first | refine lies_any ?_ | split) | exact all_skip_i | refine all_cons ?_ ?_ | exact all_nil | refine all_seq_i ?_ ?_ | refine all_read_i fun _ => ?_ | refine all_when_i ?_ | refine all_each_i fun _ => ?_ | refine all_ifSome_i fun _ => ?_ | split | dsimp only | contradiction

theorem packetOff_kinds : Prog.All (Act.among 0xFFFFFF000000000000000000000000000000010000000000000000000000000000000000000000000000000000000000008000000000A2005E) (packetOff) := by
  unfold packetOff
  repeat' with_reducible first | refine all_leaf ?_ | (show within _ _ = true; with_unfolding_all exact rfl) | (show Act.among _ _; with_unfolding_all exact tb rfl) | refine packetReset_kinds.mono ?_ | refine (resetBlock_kinds ..).mono ?_ | refine (resetRange_kinds ..).mono ?_ | refine (updPort_kinds ..).mono ?_ | (show Nat.testBit _ _ = true; exact tb rfl) | (show lies _ _; first | refine lies_any ?_ | split) | exact all_skip_i | refine all_cons ?_ ?_ | exact all_nil | refine all_seq_i ?_ ?_ | refine all_read_i fun _ => ?_ | refine all_when_i ?_ | refine all_each_i fun _ => ?_ | refine all_ifSome_i fun _ => ?_ | split | dsimp only | contradiction

theorem packetOn_kinds : Prog.All (Act.among 0x11022000000000000000000000000000000000240060000000000000000000000000000000000000000000000000000000000000000000000) (packetOn) := by
  unfold packetOn
  repeat' with_reducible first | refine all_leaf ?_ | (show within _ _ = true; with_unfolding_all exact rfl) | (show Act.among _ _; with_unfolding_all exact tb rfl) | refine deriveCel_kinds.mono ?_ | refine deriveCls_kinds.mono ?_ | refine (derivePortDef_kinds ..).mono ?_ | refine (deriveQp_kinds ..).mono ?_ | exact all_skip_i | refine all_cons ?_ ?_ | exact all_nil | refine all_seq_i ?_ ?_ | refine all_read_i fun _ => ?_ | refine all_when_i ?_ | refine all_each_i fun _ => ?_ | refine all_ifSome_i fun _ => ?_ | split | dsimp only | contradiction

theorem domainOff_kinds (d : Nat) (forced : Bool) : Prog.All (Act.among 0xFFFFFF22009C300003CBF81C000004092514818F4000148003FB0000000C252010EF9607408400404000040008080881108000000342F3BFDE) (domainOff d forced) := by
  unfold domainOff
  repeat' with_reducible first | refine all_leaf ?_ | (show within _ _ = true; with_unfolding_all exact rfl) | (show Act.among _ _; with_unfolding_all exact tb rfl) | refine (domainGates_kinds ..).mono ?_ | refine (headResetEvent_kinds ..).mono ?_ | refine headsOff_kinds.mono ?_ | refine packetOff_kinds.mono ?_ | refine (portOff_kinds ..).mono ?_ | refine (quarterOff_kinds ..).mono ?_ | refine setFBit_kinds _ _ _ ?_ | refine (updPower_kinds ..).mono ?_ | (show Nat.testBit _ _ = true; exact tb rfl) | (show lies _ _; (try dsimp only [F.CLK_READY_ready, F.PWR_DOM_STAT_domains]); first | refine lies_PWR_DOM_STAT ?_ | refine lies_CLK_READY ?_ | refine lies_any ?_ | split) | exact all_skip_i | refine all_cons ?_ ?_ | exact all_nil | refine all_seq_i ?_ ?_ | refine all_read_i fun _ => ?_ | refine all_when_i ?_ | refine all_each_i fun _ => ?_ | refine all_ifSome_i fun _ => ?_ | split | dsimp only | contradiction

theorem domainWant_kinds (d : Nat) : Prog.All (Act.among 0x1000000000000002000000) (domainWant d) := by
  unfold domainWant
  repeat' with_reducible first | refine all_leaf ?_ | (show within _ _ = true; with_unfolding_all exact rfl) | (show Act.among _ _; with_unfolding_all exact tb rfl) | refine setFBit_kinds _ _ _ ?_ | refine (updPower_kinds ..).mono ?_ | (show Nat.testBit _ _ = true; exact tb rfl) | (show lies _ _; (try dsimp only [F.PWR_DOM_FORCE_domains, F.PWR_DOM_PEND_domains]); first | refine lies_PWR_DOM_PEND ?_ | split) | exact all_skip_i | refine all_cons ?_ ?_ | exact all_nil | refine all_seq_i ?_ ?_ | refine all_read_i fun _ => ?_ | refine all_when_i ?_ | refine all_each_i fun _ => ?_ | refine all_ifSome_i fun _ => ?_ | split | dsimp only | contradiction

theorem domReqWrite_kinds (path v : Nat) : Prog.All (Act.among 0x1400000000000042000000) (domReqWrite path v) := by
  unfold domReqWrite
  repeat' with_reducible first | refine all_leaf ?_ | (show within _ _ = true; with_unfolding_all exact rfl) | (show Act.among _ _; with_unfolding_all exact tb rfl) | refine (denied_kinds ..).mono ?_ | refine (domainWant_kinds ..).mono ?_ | refine setF_kinds _ _ ?_ | refine setFBit_kinds _ _ _ ?_ | refine (updPower_kinds ..).mono ?_ | (show Nat.testBit _ _ = true; exact tb rfl) | (show lies _ _; (try dsimp only [F.PWR_DOM_PEND_domains, F.PWR_DOM_REQ_domains]); first | refine lies_PWR_DOM_REQ ?_ | refine lies_PWR_DOM_PEND ?_ | split) | exact all_skip_i | refine all_cons ?_ ?_ | exact all_nil | refine all_seq_i ?_ ?_ | refine all_read_i fun _ => ?_ | refine all_when_i ?_ | refine all_each_i fun _ => ?_ | refine all_ifSome_i fun _ => ?_ | split | dsimp only | contradiction

theorem domainPowerGood_kinds (d : Nat) (sealOk : Bool) : Prog.All (Act.among 0x110222200E4380003CA3A78000004092500008E400600000000000000AC31105E00000010A40040400000000800180180C0000003420837D2) (domainPowerGood d sealOk) := by
  unfold domainPowerGood
  repeat' with_reducible first | refine all_leaf ?_ | (show within _ _ = true; with_unfolding_all exact rfl) | (show Act.among _ _; with_unfolding_all exact tb rfl) | refine (deriveHead_kinds ..).mono ?_ | refine (domainGates_kinds ..).mono ?_ | refine (lateApply_kinds ..).mono ?_ | refine packetOn_kinds.mono ?_ | refine (portOn_kinds ..).mono ?_ | refine (quarterOn_kinds ..).mono ?_ | refine setFBit_kinds _ _ _ ?_ | refine (tryLeave_kinds ..).mono ?_ | refine (updPower_kinds ..).mono ?_ | (show Nat.testBit _ _ = true; exact tb rfl) | (show lies _ _; (try dsimp only [F.PWR_DOM_PEND_domains, F.PWR_DOM_STAT_domains]); first | refine lies_PWR_DOM_STAT ?_ | refine lies_PWR_DOM_PEND ?_ | refine lies_any ?_ | split) | exact all_skip_i | refine all_cons ?_ ?_ | exact all_nil | refine all_seq_i ?_ ?_ | refine all_read_i fun _ => ?_ | refine all_when_i ?_ | refine all_each_i fun _ => ?_ | refine all_ifSome_i fun _ => ?_ | split | dsimp only | contradiction

theorem domainSwitchOff_kinds (d : Nat) : Prog.All (Act.among 0xFFFFFF22009C300003CBF81C000004092514818F4000148003FB0000000C252010EF9607408400404000040008081881108000000342F3BFDE) (domainSwitchOff d) := by
  unfold domainSwitchOff
  repeat' with_reducible first | refine all_leaf ?_ | (show within _ _ = true; with_unfolding_all exact rfl) | (show Act.among _ _; with_unfolding_all exact tb rfl) | refine (domainOff_kinds ..).mono ?_ | refine setFBit_kinds _ _ _ ?_ | (show Nat.testBit _ _ = true; exact tb rfl) | (show lies _ _; (try dsimp only [F.PWR_DOM_PEND_domains, F.PWR_DOM_REQ_domains]); first | refine lies_PWR_DOM_PEND ?_ | refine lies_any ?_ | split) | exact all_skip_i | refine all_cons ?_ ?_ | exact all_nil | refine all_seq_i ?_ ?_ | refine all_read_i fun _ => ?_ | refine all_when_i ?_ | refine all_each_i fun _ => ?_ | refine all_ifSome_i fun _ => ?_ | split | dsimp only | contradiction

theorem domForceWrite_kinds (path v : Nat) : Prog.All (Act.among 0xFFFFFF22009C300003CBF81C000004092514818F4000148003FB0000000C252010EF96074084004040000400080A3881108000000342F3BFDE) (domForceWrite path v) := by
  unfold domForceWrite
  repeat' with_reducible first | refine all_leaf ?_ | (show within _ _ = true; with_unfolding_all exact rfl) | (show Act.among _ _; with_unfolding_all exact tb rfl) | refine (denied_kinds ..).mono ?_ | refine (domainOff_kinds ..).mono ?_ | refine (domainWant_kinds ..).mono ?_ | refine raise_kinds _ _ (by exact tb rfl) ?_ | refine setF_kinds _ _ ?_ | refine setFBit_kinds _ _ _ ?_ | (show Nat.testBit _ _ = true; exact tb rfl) | (show lies _ _; (try dsimp only [F.PWR_DOM_FORCE_domains, F.PWR_DOM_PEND_domains, F.PWR_DOM_REQ_domains]); first | refine lies_PWR_DOM_PEND ?_ | refine lies_PWR_DOM_FORCE ?_ | refine lies_PWR_EVENT ?_ | refine lies_any ?_ | split) | exact all_skip_i | refine all_cons ?_ ?_ | exact all_nil | refine all_seq_i ?_ ?_ | refine all_read_i fun _ => ?_ | refine all_when_i ?_ | refine all_each_i fun _ => ?_ | refine all_ifSome_i fun _ => ?_ | split | dsimp only | contradiction

theorem clearMain_kinds (park : Bool) : Prog.All (Act.among 0x800000030FFBFFDE) (clearMain park) := by
  unfold clearMain
  repeat' with_reducible first | refine all_leaf ?_ | (show within _ _ = true; with_unfolding_all exact rfl) | (show Act.among _ _; with_unfolding_all exact tb rfl) | refine (flashEffect_kinds ..).mono ?_ | refine (resetRange_kinds ..).mono ?_ | refine (send_kinds ..).mono ?_ | refine (updCal_kinds ..).mono ?_ | refine (updClock_kinds ..).mono ?_ | refine (updFault_kinds ..).mono ?_ | refine (updFur_kinds ..).mono ?_ | refine (updMld_kinds ..).mono ?_ | refine (updPort_kinds ..).mono ?_ | refine (updPower_kinds ..).mono ?_ | (show Nat.testBit _ _ = true; exact tb rfl) | (show lies _ _; first | refine lies_any ?_ | split) | exact all_skip_i | refine all_cons ?_ ?_ | exact all_nil | refine all_seq_i ?_ ?_ | refine all_read_i fun _ => ?_ | refine all_when_i ?_ | refine all_each_i fun _ => ?_ | refine all_ifSome_i fun _ => ?_ | split | dsimp only | contradiction

theorem rails_kinds (on : Bool) : Prog.All (Act.among 0x102000000) (rails on) := by
  unfold rails
  repeat' with_reducible first | refine all_leaf ?_ | (show within _ _ = true; with_unfolding_all exact rfl) | (show Act.among _ _; with_unfolding_all exact tb rfl) | refine (send_kinds ..).mono ?_ | refine (updPower_kinds ..).mono ?_ | exact all_skip_i | refine all_cons ?_ ?_ | exact all_nil | refine all_seq_i ?_ ?_ | refine all_read_i fun _ => ?_ | refine all_when_i ?_ | refine all_each_i fun _ => ?_ | refine all_ifSome_i fun _ => ?_ | split | dsimp only | contradiction

theorem beginStart_kinds (cause src : Nat) : Prog.All (Act.among 0x90680000000000000000000000000000000000000000000000000000000000004000020000800000030FFBFFDE) (beginStart cause src) := by
  unfold beginStart
  repeat' with_reducible first | refine all_leaf ?_ | (show within _ _ = true; with_unfolding_all exact rfl) | (show Act.among _ _; with_unfolding_all exact tb rfl) | refine (clearMain_kinds ..).mono ?_ | refine setF_kinds _ _ ?_ | refine setReg_kinds _ _ ?_ | refine (updPower_kinds ..).mono ?_ | (show Nat.testBit _ _ = true; exact tb rfl) | (show lies _ _; (try dsimp only [F.AON_MODE_entering, F.AON_MODE_mode, F.AON_MODE_start_kind, F.AON_RET_SEAL_valid, F.AON_SAFE_STAT_pending, F.AON_SAFE_STAT_safe, F.AON_START_CTL_force_cold, F.AON_START_CTL_ok, F.AON_START_STAT_warm_fails, F.PWR_RET_STATUS_lost, F.WAKE_TABLE_action]); first | refine lies_PWR_RET_STATUS ?_ | refine lies_RST_CAUSE ?_ | refine lies_AON_MODE ?_ | refine lies_AON_START_CTL ?_ | refine lies_AON_START_STAT ?_ | refine lies_AON_RET_SEAL ?_ | refine lies_AON_SAFE_STAT ?_ | refine lies_any ?_ | split) | exact all_skip_i | refine all_cons ?_ ?_ | exact all_nil | refine all_seq_i ?_ ?_ | refine all_read_i fun _ => ?_ | refine all_when_i ?_ | refine all_each_i fun _ => ?_ | refine all_ifSome_i fun _ => ?_ | split | dsimp only | contradiction

theorem heldTaken_kinds : Prog.All (Act.among 0xFFFFFF22009C300003CBF818800804092500010000000080003F0800000C20000000000000040040490001600001000010000000034A63B7D2) (heldTaken) := by
  unfold heldTaken
  repeat' with_reducible first | refine all_leaf ?_ | (show within _ _ = true; with_unfolding_all exact rfl) | (show Act.among _ _; with_unfolding_all exact tb rfl) | refine (enterSafe_kinds ..).mono ?_ | refine (logMsg_kinds ..).mono ?_ | refine (updFault_kinds ..).mono ?_ | exact all_skip_i | refine all_cons ?_ ?_ | exact all_nil | refine all_seq_i ?_ ?_ | refine all_read_i fun _ => ?_ | refine all_when_i ?_ | refine all_each_i fun _ => ?_ | refine all_ifSome_i fun _ => ?_ | split | dsimp only | contradiction

theorem bringUp_kinds (fresh : Bool) : Prog.All (Act.among 0xFFFFFF2200FC300003CBFA78800BC78975E0018E40000080083F0800000C294040EF900776042148CD0001600C090C001C000000034A63B7D2) (bringUp fresh) := by
  unfold bringUp
  repeat' with_reducible first | refine all_leaf ?_ | (show within _ _ = true; with_unfolding_all exact rfl) | (show Act.among _ _; with_unfolding_all exact tb rfl) | refine avsStep_kinds.mono ?_ | refine deriveAll_kinds.mono ?_ | refine (deriveHead_kinds ..).mono ?_ | refine deriveKeys_kinds.mono ?_ | refine (domainGates_kinds ..).mono ?_ | refine (emit_kinds ..).mono ?_ | refine heldTaken_kinds.mono ?_ | refine holderInit_kinds.mono ?_ | refine (safeStat_kinds ..).mono ?_ | refine safeSteps_kinds.mono ?_ | refine setF_kinds _ _ ?_ | refine (updPower_kinds ..).mono ?_ | refine (updTb_kinds ..).mono ?_ | refine verifyBegin_kinds.mono ?_ | (show Nat.testBit _ _ = true; exact tb rfl) | (show lies _ _; (try dsimp only [F.AON_MODE_start_kind, F.AON_SAFE_STAT_class_, F.AON_SAFE_STAT_detail, F.AON_SAFE_STAT_kind, F.AON_SAFE_STAT_pending, F.AON_SAFE_STAT_reason, F.AON_SAFE_STAT_source, F.CAL_BANDGAP_trim, F.CLK_PLL_EN_en, F.CLK_READY_ready, F.FSPI_CFG_proto, F.GLB_LIFECYCLE_state, F.GLB_LIFECYCLE_test_mode_seen, F.GLB_MODE_mode, F.GLB_MODE_mould_ok, F.GLB_MODE_start_kind, F.GLB_STRAPS_bootsrc, F.GLB_STRAPS_headcfg, F.PWR_DOM_REQ_domains, F.PWR_DOM_STAT_domains]); first | refine lies_GLB_LIFECYCLE ?_ | refine lies_GLB_STRAPS ?_ | refine lies_GLB_MODE ?_ | refine lies_PWR_DOM_REQ ?_ | refine lies_PWR_DOM_STAT ?_ | refine lies_CLK_READY ?_ | refine lies_CLK_PLL_EN ?_ | refine lies_CAL_BANDGAP ?_ | refine lies_FSPI_CFG ?_ | split) | exact all_skip_i | refine all_cons ?_ ?_ | exact all_nil | refine all_seq_i ?_ ?_ | refine all_read_i fun _ => ?_ | refine all_when_i ?_ | refine all_each_i fun _ => ?_ | refine all_ifSome_i fun _ => ?_ | split | dsimp only | contradiction

theorem chipReset_kinds (cause src : Nat) : Prog.All (Act.among 0xFFFFFF2200FC300003CBFA78906BC78975E0018E40000080083F0800000C294040EF900776042148CD0001644C090E001C800000034FFBFFDE) (chipReset cause src) := by
  unfold chipReset
  repeat' with_reducible first | refine all_leaf ?_ | (show within _ _ = true; with_unfolding_all exact rfl) | (show Act.among _ _; with_unfolding_all exact tb rfl) | refine (beginStart_kinds ..).mono ?_ | refine (bringUp_kinds ..).mono ?_ | refine (rails_kinds ..).mono ?_ | refine satAdd_kinds _ _ ?_ | refine setF_kinds _ _ ?_ | (show Nat.testBit _ _ = true; exact tb rfl) | (show lies _ _; (try dsimp only [F.GLB_LIFECYCLE_test_mode_seen, F.RST_COUNT_chip]); first | refine lies_GLB_LIFECYCLE ?_ | refine lies_RST_COUNT ?_ | refine lies_any ?_ | split) | exact all_skip_i | refine all_cons ?_ ?_ | exact all_nil | refine all_seq_i ?_ ?_ | refine all_read_i fun _ => ?_ | refine all_when_i ?_ | refine all_each_i fun _ => ?_ | refine all_ifSome_i fun _ => ?_ | split | dsimp only | contradiction

theorem failStart_kinds (code : Nat) : Prog.All (Act.among 0xFFFFFF2200FC300003CBFA78906BC78975E0018E40000080083F0800000C294040EF900776042148CD0001644C090E001C800000034FFBFFDE) (failStart code) := by
  unfold failStart
  repeat' with_reducible first | refine all_leaf ?_ | (show within _ _ = true; with_unfolding_all exact rfl) | (show Act.among _ _; with_unfolding_all exact tb rfl) | refine (chipReset_kinds ..).mono ?_ | refine (enterSafe_kinds ..).mono ?_ | refine (logMsg_kinds ..).mono ?_ | refine (rails_kinds ..).mono ?_ | refine setF_kinds _ _ ?_ | refine (updFault_kinds ..).mono ?_ | refine (updPower_kinds ..).mono ?_ | (show Nat.testBit _ _ = true; exact tb rfl) | (show lies _ _; (try dsimp only [F.AON_MODE_start_kind, F.AON_SAFE_STAT_safe, F.AON_START_STAT_cold_fails, F.AON_START_STAT_last_reason, F.AON_START_STAT_warm_fails]); first | refine lies_AON_START_STAT ?_ | refine lies_any ?_ | split) | exact all_skip_i | refine all_cons ?_ ?_ | exact all_nil | refine all_seq_i ?_ ?_ | refine all_read_i fun _ => ?_ | refine all_when_i ?_ | refine all_each_i fun _ => ?_ | refine all_ifSome_i fun _ => ?_ | split | dsimp only | contradiction

theorem powerOn_kinds (headcfg bootsrc : Nat) (testMode : Bool) (flash : List (Nat × List Byte)) : Prog.All (Act.among 0x90680000000000000000000000000000000000000000000000000000000000004000020000800000031FFBFFDE) (powerOn headcfg bootsrc testMode flash) := by
  unfold powerOn
  repeat' with_reducible first | refine all_leaf ?_ | (show within _ _ = true; with_unfolding_all exact rfl) | (show Act.among _ _; with_unfolding_all exact tb rfl) | refine (beginStart_kinds ..).mono ?_ | refine (rails_kinds ..).mono ?_ | refine (updClock_kinds ..).mono ?_ | refine (updPower_kinds ..).mono ?_ | (show Nat.testBit _ _ = true; exact tb rfl) | (show lies _ _; first | refine lies_any ?_ | split) | exact all_skip_i | refine all_cons ?_ ?_ | exact all_nil | refine all_seq_i ?_ ?_ | refine all_read_i fun _ => ?_ | refine all_when_i ?_ | refine all_each_i fun _ => ?_ | refine all_ifSome_i fun _ => ?_ | split | dsimp only | contradiction

theorem vaonFall_kinds : Prog.All (Act.among 0x800000032FFBFFFE) (vaonFall) := by
  unfold vaonFall
  repeat' with_reducible first | refine all_leaf ?_ | (show within _ _ = true; with_unfolding_all exact rfl) | (show Act.among _ _; with_unfolding_all exact tb rfl) | refine (clearMain_kinds ..).mono ?_ | refine (resetRange_kinds ..).mono ?_ | refine (send_kinds ..).mono ?_ | (show Nat.testBit _ _ = true; exact tb rfl) | (show lies _ _; first | refine lies_any ?_ | split) | exact all_skip_i | refine all_cons ?_ ?_ | exact all_nil | refine all_seq_i ?_ ?_ | refine all_read_i fun _ => ?_ | refine all_when_i ?_ | refine all_each_i fun _ => ?_ | refine all_ifSome_i fun _ => ?_ | split | dsimp only | contradiction

theorem vmainOkRise_kinds : Prog.All (Act.among 0xFFFFFF2200FC300003CBFA78800BC78975E0018E40000080083F0800000C294040EF900776042148CD0001600C090C001C000000034A63B7D2) (vmainOkRise) := by
  unfold vmainOkRise
  repeat' with_reducible first | refine all_leaf ?_ | (show within _ _ = true; with_unfolding_all exact rfl) | (show Act.among _ _; with_unfolding_all exact tb rfl) | refine (bringUp_kinds ..).mono ?_ | refine (updPower_kinds ..).mono ?_ | exact all_skip_i | refine all_cons ?_ ?_ | exact all_nil | refine all_seq_i ?_ ?_ | refine all_read_i fun _ => ?_ | refine all_when_i ?_ | refine all_each_i fun _ => ?_ | refine all_ifSome_i fun _ => ?_ | split | dsimp only | contradiction

theorem vmainTimeout_kinds : Prog.All (Act.among 0xFFFFFF2200FC300003CBFA78906BC78975E0018E40000080083F0800000C294040EF900776042148CD0001644C090E001C800000034FFBFFDE) (vmainTimeout) := by
  unfold vmainTimeout
  repeat' with_reducible first | refine all_leaf ?_ | (show within _ _ = true; with_unfolding_all exact rfl) | (show Act.among _ _; with_unfolding_all exact tb rfl) | refine (failStart_kinds ..).mono ?_ | (show Nat.testBit _ _ = true; exact tb rfl) | (show lies _ _; first | refine lies_any ?_ | split) | exact all_skip_i | refine all_cons ?_ ?_ | exact all_nil | refine all_seq_i ?_ ?_ | refine all_read_i fun _ => ?_ | refine all_when_i ?_ | refine all_each_i fun _ => ?_ | refine all_ifSome_i fun _ => ?_ | split | dsimp only | contradiction

theorem minOffExpire_kinds : Prog.All (Act.among 0x90681800000000000000000000000000000000000000000000000000000000004000020000800000030FFBFFDE) (minOffExpire) := by
  unfold minOffExpire
  repeat' with_reducible first | refine all_leaf ?_ | (show within _ _ = true; with_unfolding_all exact rfl) | (show Act.among _ _; with_unfolding_all exact tb rfl) | refine (beginStart_kinds ..).mono ?_ | refine (rails_kinds ..).mono ?_ | refine raise_kinds _ _ (by exact tb rfl) ?_ | refine setF_kinds _ _ ?_ | (show Nat.testBit _ _ = true; exact tb rfl) | (show lies _ _; (try dsimp only [F.WAKE_CAUSE_from_park, F.WAKE_CAUSE_index, F.WAKE_CAUSE_kind]); first | refine lies_WAKE_CAUSE ?_ | refine lies_WAKE_EVENT ?_ | refine lies_any ?_ | split) | exact all_skip_i | refine all_cons ?_ ?_ | exact all_nil | refine all_seq_i ?_ ?_ | refine all_read_i fun _ => ?_ | refine all_when_i ?_ | refine all_each_i fun _ => ?_ | refine all_ifSome_i fun _ => ?_ | split | dsimp only | contradiction

theorem mainRailLoss_kinds : Prog.All (Act.among 0x80000000000000000000000000000000000000000000000000000000000040000000000800000030FFBFFDE) (mainRailLoss) := by
  unfold mainRailLoss
  repeat' with_reducible first | refine all_leaf ?_ | (show within _ _ = true; with_unfolding_all exact rfl) | (show Act.among _ _; with_unfolding_all exact tb rfl) | refine (clearMain_kinds ..).mono ?_ | refine (rails_kinds ..).mono ?_ | refine satAdd_kinds _ _ ?_ | refine setF_kinds _ _ ?_ | refine (updPower_kinds ..).mono ?_ | (show Nat.testBit _ _ = true; exact tb rfl) | (show lies _ _; (try dsimp only [F.AON_MODE_entering, F.AON_SAFE_STAT_class_, F.AON_SAFE_STAT_safe, F.PWR_MODE_STAT_entering, F.RST_COUNT_main_loss]); first | refine lies_RST_COUNT ?_ | refine lies_AON_MODE ?_ | refine lies_any ?_ | split) | exact all_skip_i | refine all_cons ?_ ?_ | exact all_nil | refine all_seq_i ?_ ?_ | refine all_read_i fun _ => ?_ | refine all_when_i ?_ | refine all_each_i fun _ => ?_ | refine all_ifSome_i fun _ => ?_ | split | dsimp only | contradiction

theorem resetNow_kinds : Prog.All (Act.among 0x40000000000800000030FFBFFDE) (resetNow) := by
  unfold resetNow
  repeat' with_reducible first | refine all_leaf ?_ | (show within _ _ = true; with_unfolding_all exact rfl) | (show Act.among _ _; with_unfolding_all exact tb rfl) | refine (clearMain_kinds ..).mono ?_ | refine resetN_kinds.mono ?_ | refine satAdd_kinds _ _ ?_ | refine (updPower_kinds ..).mono ?_ | (show Nat.testBit _ _ = true; exact tb rfl) | (show lies _ _; (try dsimp only [F.RST_COUNT_reset_n]); first | refine lies_RST_COUNT ?_ | refine lies_any ?_ | split) | exact all_skip_i | refine all_cons ?_ ?_ | exact all_nil | refine all_seq_i ?_ ?_ | refine all_read_i fun _ => ?_ | refine all_when_i ?_ | refine all_each_i fun _ => ?_ | refine all_ifSome_i fun _ => ?_ | split | dsimp only | contradiction

theorem resetN_kinds : Prog.All (Act.among 0x40000000000800000030FFBFFDE) (resetN) := by
  unfold resetN
  repeat' with_reducible first | refine all_leaf ?_ | (show within _ _ = true; with_unfolding_all exact rfl) | (show Act.among _ _; with_unfolding_all exact tb rfl) | refine resetNow_kinds.mono ?_ | refine (updPower_kinds ..).mono ?_ | (show Nat.testBit _ _ = true; exact tb rfl) | (show lies _ _; first | refine lies_any ?_ | split) | exact all_skip_i | refine all_cons ?_ ?_ | exact all_nil | refine all_seq_i ?_ ?_ | refine all_read_i fun _ => ?_ | refine all_when_i ?_ | refine all_each_i fun _ => ?_ | refine all_ifSome_i fun _ => ?_ | split | dsimp only | contradiction

theorem resetRelease_kinds : Prog.All (Act.among 0xFFFFFF2200FC300003CBFA78906BC78975E0018E40000080083F0800000C294040EF900776042148CD0001604C090E001C800000034FFBFFDE) (resetRelease) := by
  unfold resetRelease
  repeat' with_reducible first | refine all_leaf ?_ | (show within _ _ = true; with_unfolding_all exact rfl) | (show Act.among _ _; with_unfolding_all exact tb rfl) | refine (beginStart_kinds ..).mono ?_ | refine (bringUp_kinds ..).mono ?_ | refine (rails_kinds ..).mono ?_ | (show Nat.testBit _ _ = true; exact tb rfl) | (show lies _ _; first | refine lies_any ?_ | split) | exact all_skip_i | refine all_cons ?_ ?_ | exact all_nil | refine all_seq_i ?_ ?_ | refine all_read_i fun _ => ?_ | refine all_when_i ?_ | refine all_each_i fun _ => ?_ | refine all_ifSome_i fun _ => ?_ | split | dsimp only | contradiction

theorem resetNRelease_kinds : Prog.All (Act.among 0xFFFFFF2200FC300003CBFA78906BC78975E0018E40000080083F0800000C294040EF900776042148CD0001644C090E001C800000034FFBFFDE) (resetNRelease) := by
  unfold resetNRelease
  repeat' with_reducible first | refine all_leaf ?_ | (show within _ _ = true; with_unfolding_all exact rfl) | (show Act.among _ _; with_unfolding_all exact tb rfl) | refine resetN_kinds.mono ?_ | refine resetRelease_kinds.mono ?_ | refine (updPower_kinds ..).mono ?_ | (show Nat.testBit _ _ = true; exact tb rfl) | (show lies _ _; first | refine lies_any ?_ | split) | exact all_skip_i | refine all_cons ?_ ?_ | exact all_nil | refine all_seq_i ?_ ?_ | refine all_read_i fun _ => ?_ | refine all_when_i ?_ | refine all_each_i fun _ => ?_ | refine all_ifSome_i fun _ => ?_ | split | dsimp only | contradiction

theorem chipWrite_kinds (path key : Nat) (go : Bool) : Prog.All (Act.among 0xFFFFFF2200FC300003CBFA78906BC78975E0018E40000080083F0800000C294040EF900776042148CD0001644C090E001C800000034FFBFFDE) (chipWrite path key go) := by
  unfold chipWrite
  repeat' with_reducible first | refine all_leaf ?_ | (show within _ _ = true; with_unfolding_all exact rfl) | (show Act.among _ _; with_unfolding_all exact tb rfl) | refine (chipReset_kinds ..).mono ?_ | refine (denied_kinds ..).mono ?_ | refine (updPower_kinds ..).mono ?_ | (show Nat.testBit _ _ = true; exact tb rfl) | (show lies _ _; (try dsimp only [F.FLT_STAT_safe]); first | refine lies_any ?_ | split) | exact all_skip_i | refine all_cons ?_ ?_ | exact all_nil | refine all_seq_i ?_ ?_ | refine all_read_i fun _ => ?_ | refine all_when_i ?_ | refine all_each_i fun _ => ?_ | refine all_ifSome_i fun _ => ?_ | split | dsimp only | contradiction

theorem annealBegins_kinds : Prog.All (Act.among 0x220084300003CA38180000040925000000000000000000000000AC25000000000000000040400000000000000000000000034000B7D0) (annealBegins) := by
  unfold annealBegins
  repeat' with_reducible first | refine all_leaf ?_ | (show within _ _ = true; with_unfolding_all exact rfl) | (show Act.among _ _; with_unfolding_all exact tb rfl) | refine (fullAnneal_kinds ..).mono ?_ | exact all_skip_i | refine all_cons ?_ ?_ | exact all_nil | refine all_seq_i ?_ ?_ | refine all_read_i fun _ => ?_ | refine all_when_i ?_ | refine all_each_i fun _ => ?_ | refine all_ifSome_i fun _ => ?_ | split | dsimp only | contradiction

theorem retentionCheckDone_kinds (lost : Nat) : Prog.All (Act.among 0x110222200E4300003CABA78106BC78975E0008E4000000000000000000C034040EF9417F6002148C400000040020200108000000342013FDE) (retentionCheckDone lost) := by
  unfold retentionCheckDone
  repeat' with_reducible first | refine all_leaf ?_ | (show within _ _ = true; with_unfolding_all exact rfl) | (show Act.among _ _; with_unfolding_all exact tb rfl) | refine (atticRead_kinds ..).mono ?_ | refine (emit_kinds ..).mono ?_ | refine mouldReload_kinds.mono ?_ | refine raise_kinds _ _ (by exact tb rfl) ?_ | refine setF_kinds _ _ ?_ | refine (updPower_kinds ..).mono ?_ | (show Nat.testBit _ _ = true; exact tb rfl) | (show lies _ _; (try dsimp only [F.AON_MODE_start_kind, F.AON_RET_SEAL_mask, F.PORT_PARTNER_REF_FLAGS_valid, F.PWR_RET_STATUS_lost]); first | refine lies_PWR_RET_STATUS ?_ | refine lies_PWR_EVENT ?_ | refine lies_PORT_PARTNER_REF_FLAGS ?_ | refine lies_any ?_ | split) | exact all_skip_i | refine all_cons ?_ ?_ | exact all_nil | refine all_seq_i ?_ ?_ | refine all_read_i fun _ => ?_ | refine all_when_i ?_ | refine all_each_i fun _ => ?_ | refine all_ifSome_i fun _ => ?_ | split | dsimp only | contradiction

theorem firmwareVerified_kinds (a b : Option (Nat × List Byte)) : Prog.All (Act.among 0xFFFFFF2200FC300003CBFA78906BC78975E0018E40000082483F0800000C294040EF9417F6042148CD0001644C090E001C800000034FFBFFDE) (firmwareVerified a b) := by
  unfold firmwareVerified
  repeat' with_reducible first | refine all_leaf ?_ | (show within _ _ = true; with_unfolding_all exact rfl) | (show Act.among _ _; with_unfolding_all exact tb rfl) | refine (failStart_kinds ..).mono ?_ | refine mouldColdLoad_kinds.mono ?_ | refine setF_kinds _ _ ?_ | refine setWide_kinds _ _ _ ?_ | refine turnCold_kinds.mono ?_ | refine (updFlash_kinds ..).mono ?_ | refine (updPower_kinds ..).mono ?_ | refine lies_FSPI_CMDS_words ?_ (by decide) | (show Nat.testBit _ _ = true; exact tb rfl) | (show lies _ _; (try dsimp only [F.AON_FW_GEN_gen, F.AON_MODE_start_kind, F.FSPI_CFG_dummy, F.FSPI_CFG_page_log2, F.FSPI_CFG_proto, F.FSPI_CFG_size_log2, F.FSPI_CFG_suspend_en, F.FSPI_FAIL_CFG_fail_bit, F.MLD_STATUS_state]); first | refine lies_FSPI_CFG ?_ | refine lies_FSPI_FAIL_CFG ?_ | refine lies_FSPI_CMDS ?_ | refine lies_FSPI_CMDS_at ?_ (by decide) (by decide) | refine lies_any ?_ | split) | exact all_skip_i | refine all_cons ?_ ?_ | exact all_nil | refine all_seq_i ?_ ?_ | refine all_read_i fun _ => ?_ | refine all_when_i ?_ | refine all_each_i fun _ => ?_ | refine all_ifSome_i fun _ => ?_ | split | dsimp only | contradiction

theorem gafferResetRelease_kinds : Prog.All (Act.among 0xFFFFFF2200FC300003CBFA78906BC78975E0018E40000080083F090000AC2F4040EF900776042148CD0001644C090E001C800000034FFBFFDE) (gafferResetRelease) := by
  unfold gafferResetRelease
  repeat' with_reducible first | refine all_leaf ?_ | (show within _ _ = true; with_unfolding_all exact rfl) | (show Act.among _ _; with_unfolding_all exact tb rfl) | refine annealBegins_kinds.mono ?_ | refine (atticRead_kinds ..).mono ?_ | refine (chipReset_kinds ..).mono ?_ | refine (shelfLoad_kinds ..).mono ?_ | refine (updFault_kinds ..).mono ?_ | refine (updPower_kinds ..).mono ?_ | (show Nat.testBit _ _ = true; exact tb rfl) | (show lies _ _; (try dsimp only [F.AON_MODE_start_kind, F.GLB_STRAPS_headcfg]); first | refine lies_any ?_ | split) | exact all_skip_i | refine all_cons ?_ ?_ | exact all_nil | refine all_seq_i ?_ ?_ | refine all_read_i fun _ => ?_ | refine all_when_i ?_ | refine all_each_i fun _ => ?_ | refine all_ifSome_i fun _ => ?_ | split | dsimp only | contradiction

theorem startOk_kinds : Prog.All (Act.among 0x22009C300003CBF81830600409250000000000008000000000000C2000000000000000004040000000000000000000000003420437D0) (startOk) := by
  unfold startOk
  repeat' with_reducible first | refine all_leaf ?_ | (show within _ _ = true; with_unfolding_all exact rfl) | (show Act.among _ _; with_unfolding_all exact tb rfl) | refine (portAdminWrite_kinds ..).mono ?_ | refine raise_kinds _ _ (by exact tb rfl) ?_ | refine setF_kinds _ _ ?_ | refine (updPower_kinds ..).mono ?_ | (show Nat.testBit _ _ = true; exact tb rfl) | (show lies _ _; (try dsimp only [F.AON_FW_GEN_gen, F.AON_MODE_start_kind, F.AON_RET_SEAL_valid, F.AON_START_CTL_ok, F.AON_START_STAT_cold_fails, F.AON_START_STAT_warm_fails]); first | refine lies_HSPI_KEVENT ?_ | refine lies_AON_START_CTL ?_ | refine lies_AON_START_STAT ?_ | refine lies_AON_RET_SEAL ?_ | refine lies_AON_FW_GEN ?_ | split) | exact all_skip_i | refine all_cons ?_ ?_ | exact all_nil | refine all_seq_i ?_ ?_ | refine all_read_i fun _ => ?_ | refine all_when_i ?_ | refine all_each_i fun _ => ?_ | refine all_ifSome_i fun _ => ?_ | split | dsimp only | contradiction

theorem deadline_kinds : Prog.All (Act.among 0xFFFFFF2200FC300003CBFA78906BC78975E0018E40000080083F0800000C294040EF900776042148CD0001644C090E001C800000034FFBFFDE) (deadline) := by
  unfold deadline
  repeat' with_reducible first | refine all_leaf ?_ | (show within _ _ = true; with_unfolding_all exact rfl) | (show Act.among _ _; with_unfolding_all exact tb rfl) | refine (failStart_kinds ..).mono ?_ | (show Nat.testBit _ _ = true; exact tb rfl) | (show lies _ _; (try dsimp only [F.AON_START_CTL_ok]); first | refine lies_any ?_ | split) | exact all_skip_i | refine all_cons ?_ ?_ | exact all_nil | refine all_seq_i ?_ ?_ | refine all_read_i fun _ => ?_ | refine all_when_i ?_ | refine all_each_i fun _ => ?_ | refine all_ifSome_i fun _ => ?_ | split | dsimp only | contradiction

theorem modeReqWrite_kinds (target : Nat) : Prog.All (Act.among 0x220084300003CA38180008040925000000000000800000000000AC35000000000000000040400000000003001810000000034000B7D0) (modeReqWrite target) := by
  unfold modeReqWrite
  repeat' with_reducible first | refine all_leaf ?_ | (show within _ _ = true; with_unfolding_all exact rfl) | (show Act.among _ _; with_unfolding_all exact tb rfl) | refine atticOccasion_kinds.mono ?_ | refine (deviceMode_kinds ..).mono ?_ | refine raise_kinds _ _ (by exact tb rfl) ?_ | refine setF_kinds _ _ ?_ | refine verifyStale_kinds.mono ?_ | (show Nat.testBit _ _ = true; exact tb rfl) | (show lies _ _; (try dsimp only [F.PWR_AVS_STAT_loop, F.PWR_MODE_REQ_target, F.PWR_MODE_STAT_last_refusal]); first | refine lies_PWR_MODE_REQ ?_ | refine lies_PWR_MODE_STAT ?_ | refine lies_PWR_AVS_STAT ?_ | refine lies_PWR_EVENT ?_ | split) | exact all_skip_i | refine all_cons ?_ ?_ | exact all_nil | refine all_seq_i ?_ ?_ | refine all_read_i fun _ => ?_ | refine all_when_i ?_ | refine all_each_i fun _ => ?_ | refine all_ifSome_i fun _ => ?_ | split | dsimp only | contradiction

theorem modeEntryWfi_kinds : Prog.All (Act.among 0xFFFFFF22009C300003CBF81C000804092514818F4000548003FF0821104C252070EF9607408400404102040008080991108000000342F3FFDE) (modeEntryWfi) := by
  unfold modeEntryWfi
  repeat' with_reducible first | refine all_leaf ?_ | (show within _ _ = true; with_unfolding_all exact rfl) | (show Act.among _ _; with_unfolding_all exact tb rfl) | refine (domainOff_kinds ..).mono ?_ | refine ledgerAbortAll_kinds.mono ?_ | refine mdmaStop_kinds.mono ?_ | refine setF_kinds _ _ ?_ | refine setReg_kinds _ _ ?_ | refine (updPower_kinds ..).mono ?_ | (show Nat.testBit _ _ = true; exact tb rfl) | (show lies _ _; (try dsimp only [F.AON_MODE_entering, F.PWR_MODE_REQ_target, F.PWR_MODE_STAT_entering, F.PWR_STBY_OFF_mask]); first | refine lies_PWR_MODE_STAT ?_ | refine lies_PWR_WAKE_LATCH ?_ | refine lies_AON_MODE ?_ | refine lies_any ?_ | split) | exact all_skip_i | refine all_cons ?_ ?_ | exact all_nil | refine all_seq_i ?_ ?_ | refine all_read_i fun _ => ?_ | refine all_when_i ?_ | refine all_each_i fun _ => ?_ | refine all_ifSome_i fun _ => ?_ | split | dsimp only | contradiction

theorem replayWake_kinds (w : Nat × Nat × Nat) : Prog.All (Act.among 0x2000000000000001000041C002500000000000000000000000000000000100000000000000000000000000000000000000140000350) (replayWake w) := by
  unfold replayWake
  repeat' with_reducible first | refine all_leaf ?_ | (show within _ _ = true; with_unfolding_all exact rfl) | (show Act.among _ _; with_unfolding_all exact tb rfl) | refine (wakeActs_kinds ..).mono ?_ | refine (wakeCause_kinds ..).mono ?_ | exact all_skip_i | refine all_cons ?_ ?_ | exact all_nil | refine all_seq_i ?_ ?_ | refine all_read_i fun _ => ?_ | refine all_when_i ?_ | refine all_each_i fun _ => ?_ | refine all_ifSome_i fun _ => ?_ | split | dsimp only | contradiction

theorem latchedReset_kinds : Prog.All (Act.among 0xFFFFFF2200FC300003CBFA78906BC78975E0018E40000080083F0800000C294040EF900776042148CD0001644C090E001C800000034FFBFFDE) (latchedReset) := by
  unfold latchedReset
  repeat' with_reducible first | refine all_leaf ?_ | (show within _ _ = true; with_unfolding_all exact rfl) | (show Act.among _ _; with_unfolding_all exact tb rfl) | refine (chipReset_kinds ..).mono ?_ | refine resetN_kinds.mono ?_ | refine resetNow_kinds.mono ?_ | refine resetRelease_kinds.mono ?_ | refine (updPower_kinds ..).mono ?_ | (show Nat.testBit _ _ = true; exact tb rfl) | (show lies _ _; first | refine lies_any ?_ | split) | exact all_skip_i | refine all_cons ?_ ?_ | exact all_nil | refine all_seq_i ?_ ?_ | refine all_read_i fun _ => ?_ | refine all_when_i ?_ | refine all_each_i fun _ => ?_ | refine all_ifSome_i fun _ => ?_ | split | dsimp only | contradiction

theorem standbyEntryDone_kinds : Prog.All (Act.among 0xFFFFFF2200FC300003CBFA78906FDF8975E0018E40000080083F0800000C294040FF900776042148CD0001644C0B0E101C800000034FFBFFDE) (standbyEntryDone) := by
  unfold standbyEntryDone
  repeat' with_reducible first | refine all_leaf ?_ | (show within _ _ = true; with_unfolding_all exact rfl) | (show Act.among _ _; with_unfolding_all exact tb rfl) | refine (avsFixed_kinds ..).mono ?_ | refine (deviceMode_kinds ..).mono ?_ | refine latchedReset_kinds.mono ?_ | refine raise_kinds _ _ (by exact tb rfl) ?_ | refine (replayWake_kinds ..).mono ?_ | refine safeSteps_kinds.mono ?_ | refine setF_kinds _ _ ?_ | refine (updFault_kinds ..).mono ?_ | refine (updPower_kinds ..).mono ?_ | refine wrapAdd_kinds _ _ ?_ | (show Nat.testBit _ _ = true; exact tb rfl) | (show lies _ _; (try dsimp only [F.AON_MODE_entering, F.PWR_MODE_STAT_entering, F.PWR_MODE_STAT_entries]); first | refine lies_PWR_MODE_STAT ?_ | refine lies_PWR_EVENT ?_ | refine lies_AON_MODE ?_ | refine lies_any ?_ | split) | exact all_skip_i | refine all_cons ?_ ?_ | exact all_nil | refine all_seq_i ?_ ?_ | refine all_read_i fun _ => ?_ | refine all_when_i ?_ | refine all_each_i fun _ => ?_ | refine all_ifSome_i fun _ => ?_ | split | dsimp only | contradiction

theorem parkMark_kinds (p : Nat) (fwd : Bool) : Prog.All (Act.among 0x4000000000000000000000000000000000000000000000000000000000000000000000000000000000040) (parkMark p fwd) := by
  unfold parkMark
  repeat' with_reducible first | refine all_leaf ?_ | (show within _ _ = true; with_unfolding_all exact rfl) | (show Act.among _ _; with_unfolding_all exact tb rfl) | refine (setPending_kinds ..).mono ?_ | refine (updPort_kinds ..).mono ?_ | exact all_skip_i | refine all_cons ?_ ?_ | exact all_nil | refine all_seq_i ?_ ?_ | refine all_read_i fun _ => ?_ | refine all_when_i ?_ | refine all_each_i fun _ => ?_ | refine all_ifSome_i fun _ => ?_ | split | dsimp only | contradiction

theorem parkActs_kinds (kind index group : Nat) : Prog.All (Act.among 0x414000000000000000000000000000000000000000000000000000000000000000000000000000000000050) (parkActs kind index group) := by
  unfold parkActs
  repeat' with_reducible first | refine all_leaf ?_ | (show within _ _ = true; with_unfolding_all exact rfl) | (show Act.among _ _; with_unfolding_all exact tb rfl) | refine (parkMark_kinds ..).mono ?_ | refine raise_kinds _ _ (by exact tb rfl) ?_ | refine satAdd_kinds _ _ ?_ | (show Nat.testBit _ _ = true; exact tb rfl) | (show lies _ _; (try dsimp only [F.WAKE_PCOUNT_received]); first | refine lies_WAKE_EVENT ?_ | refine lies_WAKE_PCOUNT ?_ | split) | exact all_skip_i | refine all_cons ?_ ?_ | exact all_nil | refine all_seq_i ?_ ?_ | refine all_read_i fun _ => ?_ | refine all_when_i ?_ | refine all_each_i fun _ => ?_ | refine all_ifSome_i fun _ => ?_ | split | dsimp only | contradiction

theorem parkWake_kinds (kind index group : Nat) : Prog.All (Act.among 0x906C1C00000000000000000000000000000000000000000000000000000000004000020000800000030FFBFFDE) (parkWake kind index group) := by
  unfold parkWake
  repeat' with_reducible first | refine all_leaf ?_ | (show within _ _ = true; with_unfolding_all exact rfl) | (show Act.among _ _; with_unfolding_all exact tb rfl) | refine (beginStart_kinds ..).mono ?_ | refine (parkActs_kinds ..).mono ?_ | refine (rails_kinds ..).mono ?_ | refine raise_kinds _ _ (by exact tb rfl) ?_ | refine setF_kinds _ _ ?_ | (show Nat.testBit _ _ = true; exact tb rfl) | (show lies _ _; (try dsimp only [F.WAKE_CAUSE_from_park, F.WAKE_CAUSE_index, F.WAKE_CAUSE_kind]); first | refine lies_WAKE_CAUSE ?_ | refine lies_WAKE_EVENT ?_ | refine lies_any ?_ | split) | exact all_skip_i | refine all_cons ?_ ?_ | exact all_nil | refine all_seq_i ?_ ?_ | refine all_read_i fun _ => ?_ | refine all_when_i ?_ | refine all_each_i fun _ => ?_ | refine all_ifSome_i fun _ => ?_ | split | dsimp only | contradiction

theorem parkEntryDone_kinds : Prog.All (Act.among 0xFFFFFF2200FC300003CBFA7A906FD78975E0018E40000080083F0800000C294050EF900776042148CD0001644C090E001C800000034FFBFFDE) (parkEntryDone) := by
  unfold parkEntryDone
  repeat' with_reducible first | refine all_leaf ?_ | (show within _ _ = true; with_unfolding_all exact rfl) | (show Act.among _ _; with_unfolding_all exact tb rfl) | refine (clearMain_kinds ..).mono ?_ | refine latchedReset_kinds.mono ?_ | refine (parkActs_kinds ..).mono ?_ | refine (portHold_kinds ..).mono ?_ | refine (quarterRecords_kinds ..).mono ?_ | refine (rails_kinds ..).mono ?_ | refine setF_kinds _ _ ?_ | refine setReg_kinds _ _ ?_ | refine (updPower_kinds ..).mono ?_ | (show Nat.testBit _ _ = true; exact tb rfl) | (show lies _ _; (try dsimp only [F.AON_MODE_entering, F.AON_MODE_mode, F.AON_RET_SEAL_mask, F.AON_RET_SEAL_valid, F.AON_SAFE_STAT_pending, F.FUR_QTR_STORE_sealed, F.PWR_MODE_STAT_entering, F.PWR_RET_STATUS_sealed, F.WAKE_PARK_DET_port, F.WAKE_PARK_DET_valid]); first | refine lies_PWR_RET_STATUS ?_ | refine lies_FUR_QTR_STORE ?_ | refine lies_AON_MODE ?_ | refine lies_AON_RET_SEAL ?_ | refine lies_AON_SAFE_STAT ?_ | refine lies_AON_RET_CRC ?_ | refine lies_any ?_ | split) | exact all_skip_i | refine all_cons ?_ ?_ | exact all_nil | refine all_seq_i ?_ ?_ | refine all_read_i fun _ => ?_ | refine all_when_i ?_ | refine all_each_i fun _ => ?_ | refine all_ifSome_i fun _ => ?_ | split | dsimp only | contradiction

theorem policySettle_kinds : Prog.All (Act.among 0x22009C300003CBF81800000409250000000000000000000000000C2000000000000000004040000000000000000000000003420037D0) (policySettle) := by
  unfold policySettle
  repeat' with_reducible first | refine all_leaf ?_ | (show within _ _ = true; with_unfolding_all exact rfl) | (show Act.among _ _; with_unfolding_all exact tb rfl) | refine (portAdminWrite_kinds ..).mono ?_ | exact all_skip_i | refine all_cons ?_ ?_ | exact all_nil | refine all_seq_i ?_ ?_ | refine all_read_i fun _ => ?_ | refine all_when_i ?_ | refine all_each_i fun _ => ?_ | refine all_ifSome_i fun _ => ?_ | split | dsimp only | contradiction

theorem wupQualified_kinds (p : Nat) : Prog.All (Act.among 0x20000000000000010906C1C00250000000000000000000000000000000010000000000000000000004000030000800000034FFBFFDE) (wupQualified p) := by
  unfold wupQualified
  repeat' with_reducible first | refine all_leaf ?_ | (show within _ _ = true; with_unfolding_all exact rfl) | (show Act.among _ _; with_unfolding_all exact tb rfl) | refine (latchWake_kinds ..).mono ?_ | refine (markPending_kinds ..).mono ?_ | refine (parkWake_kinds ..).mono ?_ | refine (wakeActs_kinds ..).mono ?_ | refine (wakeCause_kinds ..).mono ?_ | (show Nat.testBit _ _ = true; exact tb rfl) | (show lies _ _; first | refine lies_any ?_ | split) | exact all_skip_i | refine all_cons ?_ ?_ | exact all_nil | refine all_seq_i ?_ ?_ | refine all_read_i fun _ => ?_ | refine all_when_i ?_ | refine all_each_i fun _ => ?_ | refine all_ifSome_i fun _ => ?_ | split | dsimp only | contradiction

theorem carrierWake_kinds (p : Nat) : Prog.All (Act.among 0x20000000000000010906C1C00250000000000000000000000000000000010000000000000000000004000030000800000034FFBFFDE) (carrierWake p) := by
  unfold carrierWake
  repeat' with_reducible first | refine all_leaf ?_ | (show within _ _ = true; with_unfolding_all exact rfl) | (show Act.among _ _; with_unfolding_all exact tb rfl) | refine (wupQualified_kinds ..).mono ?_ | (show Nat.testBit _ _ = true; exact tb rfl) | (show lies _ _; (try dsimp only [F.PORT_SEG_CFG_wake_any]); first | refine lies_any ?_ | split) | exact all_skip_i | refine all_cons ?_ ?_ | exact all_nil | refine all_seq_i ?_ ?_ | refine all_read_i fun _ => ?_ | refine all_when_i ?_ | refine all_each_i fun _ => ?_ | refine all_ifSome_i fun _ => ?_ | split | dsimp only | contradiction

theorem wakeInEdge_kinds (i : Nat) : Prog.All (Act.among 0x20000000000000010906C1C00250000000000000000000000000000000010000000000000000000004000030000800000034FFBFFDE) (wakeInEdge i) := by
  unfold wakeInEdge
  repeat' with_reducible first | refine all_leaf ?_ | (show within _ _ = true; with_unfolding_all exact rfl) | (show Act.among _ _; with_unfolding_all exact tb rfl) | refine (latchWake_kinds ..).mono ?_ | refine (parkWake_kinds ..).mono ?_ | refine (wakeActs_kinds ..).mono ?_ | refine (wakeCause_kinds ..).mono ?_ | (show Nat.testBit _ _ = true; exact tb rfl) | (show lies _ _; first | refine lies_any ?_ | split) | exact all_skip_i | refine all_cons ?_ ?_ | exact all_nil | refine all_seq_i ?_ ?_ | refine all_read_i fun _ => ?_ | refine all_when_i ?_ | refine all_each_i fun _ => ?_ | refine all_ifSome_i fun _ => ?_ | split | dsimp only | contradiction

theorem csWake_kinds : Prog.All (Act.among 0x906C1C00000000000000000000000000000000000000000000000000000000004000030000800000030FFBFFDE) (csWake) := by
  unfold csWake
  repeat' with_reducible first | refine all_leaf ?_ | (show within _ _ = true; with_unfolding_all exact rfl) | (show Act.among _ _; with_unfolding_all exact tb rfl) | refine (latchWake_kinds ..).mono ?_ | refine (parkWake_kinds ..).mono ?_ | (show Nat.testBit _ _ = true; exact tb rfl) | (show lies _ _; (try dsimp only [F.AON_PARK_CFG_cs_wake, F.PWR_MODE_STAT_entering]); first | refine lies_any ?_ | split) | exact all_skip_i | refine all_cons ?_ ?_ | exact all_nil | refine all_seq_i ?_ ?_ | refine all_read_i fun _ => ?_ | refine all_when_i ?_ | refine all_each_i fun _ => ?_ | refine all_ifSome_i fun _ => ?_ | split | dsimp only | contradiction

theorem alarmMatch_kinds : Prog.All (Act.among 0x906C1C00000000000000000000000000000000000000000000000000000000004002030000800000030FFBFFDE) (alarmMatch) := by
  unfold alarmMatch
  repeat' with_reducible first | refine all_leaf ?_ | (show within _ _ = true; with_unfolding_all exact rfl) | (show Act.among _ _; with_unfolding_all exact tb rfl) | refine (latchWake_kinds ..).mono ?_ | refine (parkWake_kinds ..).mono ?_ | refine raise_kinds _ _ (by exact tb rfl) ?_ | (show Nat.testBit _ _ = true; exact tb rfl) | (show lies _ _; (try dsimp only [F.AON_ALARM_CTL_en, F.AON_ALARM_seconds, F.AON_PARK_CFG_alarm_wake, F.PWR_MODE_STAT_entering]); first | refine lies_PWR_EVENT ?_ | refine lies_any ?_ | split) | exact all_skip_i | refine all_cons ?_ ?_ | exact all_nil | refine all_seq_i ?_ ?_ | refine all_read_i fun _ => ?_ | refine all_when_i ?_ | refine all_each_i fun _ => ?_ | refine all_ifSome_i fun _ => ?_ | split | dsimp only | contradiction

theorem pllWant_kinds (i : Nat) : Prog.All (Act.among 0x4000000000000000000000000) (pllWant i) := by
  unfold pllWant
  repeat' with_reducible first | refine all_leaf ?_ | (show within _ _ = true; with_unfolding_all exact rfl) | (show Act.among _ _; with_unfolding_all exact tb rfl) | refine setFBit_kinds _ _ _ ?_ | (show Nat.testBit _ _ = true; exact tb rfl) | (show lies _ _; (try dsimp only [F.CLK_PLL_EN_en]); first | refine lies_CLK_PLL_EN ?_ | split) | exact all_skip_i | refine all_cons ?_ ?_ | exact all_nil | refine all_seq_i ?_ ?_ | refine all_read_i fun _ => ?_ | refine all_when_i ?_ | refine all_each_i fun _ => ?_ | refine all_ifSome_i fun _ => ?_ | split | dsimp only | contradiction

theorem tableDomain_kinds (d : Nat) : Prog.All (Act.among 0x1400000000000002000000) (tableDomain d) := by
  unfold tableDomain
  repeat' with_reducible first | refine all_leaf ?_ | (show within _ _ = true; with_unfolding_all exact rfl) | (show Act.among _ _; with_unfolding_all exact tb rfl) | refine (domainWant_kinds ..).mono ?_ | refine setFBit_kinds _ _ _ ?_ | (show Nat.testBit _ _ = true; exact tb rfl) | (show lies _ _; (try dsimp only [F.PWR_DOM_REQ_domains]); first | refine lies_PWR_DOM_REQ ?_ | split) | exact all_skip_i | refine all_cons ?_ ?_ | exact all_nil | refine all_seq_i ?_ ?_ | refine all_read_i fun _ => ?_ | refine all_when_i ?_ | refine all_each_i fun _ => ?_ | refine all_ifSome_i fun _ => ?_ | split | dsimp only | contradiction

theorem wakeTableAction_kinds (i : Nat) : Prog.All (Act.among 0x220084300003CA381800041409250000000000000000000000000C0000001000000000004040000000040014000000000003420037D0) (wakeTableAction i) := by
  unfold wakeTableAction
  repeat' with_reducible first | refine all_leaf ?_ | (show within _ _ = true; with_unfolding_all exact rfl) | (show Act.among _ _; with_unfolding_all exact tb rfl) | refine (pllWant_kinds ..).mono ?_ | refine (setPending_kinds ..).mono ?_ | refine (tableDomain_kinds ..).mono ?_ | refine (updPort_kinds ..).mono ?_ | refine (updPower_kinds ..).mono ?_ | refine (wakeServe_kinds ..).mono ?_ | exact all_skip_i | refine all_cons ?_ ?_ | exact all_nil | refine all_seq_i ?_ ?_ | refine all_read_i fun _ => ?_ | refine all_when_i ?_ | refine all_each_i fun _ => ?_ | refine all_ifSome_i fun _ => ?_ | split | dsimp only | contradiction

theorem setReady_kinds (i : Nat) (b : Bool) : Prog.All (Act.among 0x80000000000000000000000) (setReady i b) := by
  unfold setReady
  repeat' with_reducible first | refine all_leaf ?_ | (show within _ _ = true; with_unfolding_all exact rfl) | (show Act.among _ _; with_unfolding_all exact tb rfl) | refine setFBit_kinds _ _ _ ?_ | (show Nat.testBit _ _ = true; exact tb rfl) | (show lies _ _; (try dsimp only [F.CLK_READY_ready]); first | refine lies_CLK_READY ?_ | split) | exact all_skip_i | refine all_cons ?_ ?_ | exact all_nil | refine all_seq_i ?_ ?_ | refine all_read_i fun _ => ?_ | refine all_when_i ?_ | refine all_each_i fun _ => ?_ | refine all_ifSome_i fun _ => ?_ | split | dsimp only | contradiction

theorem clockReady_kinds (i : Nat) (crystal : Bool) : Prog.All (Act.among 0x400000000000000000000000000000000000000000000000000000000000000000080000000000000004000000) (clockReady i crystal) := by
  unfold clockReady
  repeat' with_reducible first | refine all_leaf ?_ | (show within _ _ = true; with_unfolding_all exact rfl) | (show Act.among _ _; with_unfolding_all exact tb rfl) | refine setF_kinds _ _ ?_ | refine (setReady_kinds ..).mono ?_ | refine (updClock_kinds ..).mono ?_ | (show Nat.testBit _ _ = true; exact tb rfl) | (show lies _ _; (try dsimp only [F.AON_SLCK_CFG_rc_ok, F.AON_SLCK_CFG_src, F.AON_SLCK_CFG_xtal_ok]); first | refine lies_AON_SLCK_CFG ?_ | split) | exact all_skip_i | refine all_cons ?_ ?_ | exact all_nil | refine all_seq_i ?_ ?_ | refine all_read_i fun _ => ?_ | refine all_when_i ?_ | refine all_each_i fun _ => ?_ | refine all_ifSome_i fun _ => ?_ | split | dsimp only | contradiction

theorem sourceLost_kinds (i cls : Nat) : Prog.All (Act.among 0x10080000000000000040000010) (sourceLost i cls) := by
  unfold sourceLost
  repeat' with_reducible first | refine all_leaf ?_ | (show within _ _ = true; with_unfolding_all exact rfl) | (show Act.among _ _; with_unfolding_all exact tb rfl) | refine (emit_kinds ..).mono ?_ | refine raise_kinds _ _ (by exact tb rfl) ?_ | refine (setReady_kinds ..).mono ?_ | (show Nat.testBit _ _ = true; exact tb rfl) | (show lies _ _; first | refine lies_CLK_EVENT ?_ | split) | exact all_skip_i | refine all_cons ?_ ?_ | exact all_nil | refine all_seq_i ?_ ?_ | refine all_read_i fun _ => ?_ | refine all_when_i ?_ | refine all_each_i fun _ => ?_ | refine all_ifSome_i fun _ => ?_ | split | dsimp only | contradiction

theorem rclkLost_kinds : Prog.All (Act.among 0x10C80000000000000040000010) (rclkLost) := by
  unfold rclkLost
  repeat' with_reducible first | refine all_leaf ?_ | (show within _ _ = true; with_unfolding_all exact rfl) | (show Act.among _ _; with_unfolding_all exact tb rfl) | refine raise_kinds _ _ (by exact tb rfl) ?_ | refine setF_kinds _ _ ?_ | refine (sourceLost_kinds ..).mono ?_ | (show Nat.testBit _ _ = true; exact tb rfl) | (show lies _ _; (try dsimp only [F.CLK_REF_LOST_lost, F.CLK_RLOOP_STAT_state]); first | refine lies_CLK_RLOOP_STAT ?_ | refine lies_CLK_REF_LOST ?_ | refine lies_CLK_EVENT ?_ | split) | exact all_skip_i | refine all_cons ?_ ?_ | exact all_nil | refine all_seq_i ?_ ?_ | refine all_read_i fun _ => ?_ | refine all_when_i ?_ | refine all_each_i fun _ => ?_ | refine all_ifSome_i fun _ => ?_ | split | dsimp only | contradiction

theorem rclkWatch_kinds : Prog.All (Act.among 0x10C80000000000000040000010) (rclkWatch) := by
  unfold rclkWatch
  repeat' with_reducible first | refine all_leaf ?_ | (show within _ _ = true; with_unfolding_all exact rfl) | (show Act.among _ _; with_unfolding_all exact tb rfl) | refine rclkLost_kinds.mono ?_ | exact all_skip_i | refine all_cons ?_ ?_ | exact all_nil | refine all_seq_i ?_ ?_ | refine all_read_i fun _ => ?_ | refine all_when_i ?_ | refine all_each_i fun _ => ?_ | refine all_ifSome_i fun _ => ?_ | split | dsimp only | contradiction

theorem rclkReady_kinds (offset : Int) : Prog.All (Act.among 0x10C80000000000000044000010) (rclkReady offset) := by
  unfold rclkReady
  repeat' with_reducible first | refine all_leaf ?_ | (show within _ _ = true; with_unfolding_all exact rfl) | (show Act.among _ _; with_unfolding_all exact tb rfl) | refine rclkLost_kinds.mono ?_ | refine (setReady_kinds ..).mono ?_ | refine (updClock_kinds ..).mono ?_ | exact all_skip_i | refine all_cons ?_ ?_ | exact all_nil | refine all_seq_i ?_ ?_ | refine all_read_i fun _ => ?_ | refine all_when_i ?_ | refine all_each_i fun _ => ?_ | refine all_ifSome_i fun _ => ?_ | split | dsimp only | contradiction

theorem switchRefused_kinds (sw id : Nat) : Prog.All (Act.among 0x12000000000000000000000010) (switchRefused sw id) := by
  unfold switchRefused
  repeat' with_reducible first | refine all_leaf ?_ | (show within _ _ = true; with_unfolding_all exact rfl) | (show Act.among _ _; with_unfolding_all exact tb rfl) | refine raise_kinds _ _ (by exact tb rfl) ?_ | refine setF_kinds _ _ ?_ | (show Nat.testBit _ _ = true; exact tb rfl) | (show lies _ _; (try dsimp only [F.CLK_SW_STAT_refused_id, F.CLK_SW_STAT_refused_sw]); first | refine lies_CLK_SW_STAT ?_ | refine lies_CLK_EVENT ?_ | split) | exact all_skip_i | refine all_cons ?_ ?_ | exact all_nil | refine all_seq_i ?_ ?_ | refine all_read_i fun _ => ?_ | refine all_when_i ?_ | refine all_each_i fun _ => ?_ | refine all_ifSome_i fun _ => ?_ | split | dsimp only | contradiction

theorem lrefSelect_kinds (rclkOut lref : Nat) : Prog.All (Act.among 0x12E00000000000000000000010) (lrefSelect rclkOut lref) := by
  unfold lrefSelect
  repeat' with_reducible first | refine all_leaf ?_ | (show within _ _ = true; with_unfolding_all exact rfl) | (show Act.among _ _; with_unfolding_all exact tb rfl) | refine setF_kinds _ _ ?_ | refine (switchRefused_kinds ..).mono ?_ | (show Nat.testBit _ _ = true; exact tb rfl) | (show lies _ _; (try dsimp only [F.CLK_REF_LOST_lost, F.CLK_RLOOP_STAT_state, F.CLK_SEL_LINE_lref, F.CLK_SEL_LINE_rclk_out]); first | refine lies_CLK_SEL_LINE ?_ | refine lies_CLK_RLOOP_STAT ?_ | refine lies_CLK_REF_LOST ?_ | split) | exact all_skip_i | refine all_cons ?_ ?_ | exact all_nil | refine all_seq_i ?_ ?_ | refine all_read_i fun _ => ?_ | refine all_when_i ?_ | refine all_each_i fun _ => ?_ | refine all_ifSome_i fun _ => ?_ | split | dsimp only | contradiction

theorem rloopSlew_kinds : Prog.All (Act.among 0x400000000000000000000000) (rloopSlew) := by
  unfold rloopSlew
  repeat' with_reducible first | refine all_leaf ?_ | (show within _ _ = true; with_unfolding_all exact rfl) | (show Act.among _ _; with_unfolding_all exact tb rfl) | refine setF_kinds _ _ ?_ | (show Nat.testBit _ _ = true; exact tb rfl) | (show lies _ _; (try dsimp only [F.CLK_RLOOP_STAT_offset]); first | refine lies_CLK_RLOOP_STAT ?_ | split) | exact all_skip_i | refine all_cons ?_ ?_ | exact all_nil | refine all_seq_i ?_ ?_ | refine all_read_i fun _ => ?_ | refine all_when_i ?_ | refine all_each_i fun _ => ?_ | refine all_ifSome_i fun _ => ?_ | split | dsimp only | contradiction

theorem switchStart_kinds (sw : Nat) : Prog.All (Act.among 0x4000000) (switchStart sw) := by
  unfold switchStart
  repeat' with_reducible first | refine all_leaf ?_ | (show within _ _ = true; with_unfolding_all exact rfl) | (show Act.among _ _; with_unfolding_all exact tb rfl) | refine (updClock_kinds ..).mono ?_ | exact all_skip_i | refine all_cons ?_ ?_ | exact all_nil | refine all_seq_i ?_ ?_ | refine all_read_i fun _ => ?_ | refine all_when_i ?_ | refine all_each_i fun _ => ?_ | refine all_ifSome_i fun _ => ?_ | split | dsimp only | contradiction

theorem switchMark_kinds (sw : Nat) (forced : Bool) : Prog.All (Act.among 0x400000000000000000000000000000000000000000000000000000000000000001000000000000000000000000) (switchMark sw forced) := by
  unfold switchMark
  repeat' with_reducible first | refine all_leaf ?_ | (show within _ _ = true; with_unfolding_all exact rfl) | (show Act.among _ _; with_unfolding_all exact tb rfl) | refine setF_kinds _ _ ?_ | refine setFBit_kinds _ _ _ ?_ | (show Nat.testBit _ _ = true; exact tb rfl) | (show lies _ _; (try dsimp only [F.AON_SLCK_CFG_forced]); first | refine lies_CLK_SWITCH_FORCED ?_ | refine lies_AON_SLCK_CFG ?_ | split) | exact all_skip_i | refine all_cons ?_ ?_ | exact all_nil | refine all_seq_i ?_ ?_ | refine all_read_i fun _ => ?_ | refine all_when_i ?_ | refine all_each_i fun _ => ?_ | refine all_ifSome_i fun _ => ?_ | split | dsimp only | contradiction

theorem coreSwitch_kinds (sw v : Nat) : Prog.All (Act.among 0x12100000000000000004000010) (coreSwitch sw v) := by
  unfold coreSwitch
  repeat' with_reducible first | refine all_leaf ?_ | (show within _ _ = true; with_unfolding_all exact rfl) | (show Act.among _ _; with_unfolding_all exact tb rfl) | refine setF_kinds _ _ ?_ | refine (switchRefused_kinds ..).mono ?_ | refine (switchStart_kinds ..).mono ?_ | (show Nat.testBit _ _ = true; exact tb rfl) | (show lies _ _; first | refine lies_CLK_SEL_CORE ?_ | split) | exact all_skip_i | refine all_cons ?_ ?_ | exact all_nil | refine all_seq_i ?_ ?_ | refine all_read_i fun _ => ?_ | refine all_when_i ?_ | refine all_each_i fun _ => ?_ | refine all_ifSome_i fun _ => ?_ | split | dsimp only | contradiction

theorem clockSwitchWrite_kinds (fabric gaffer : Nat) : Prog.All (Act.among 0x12100000000000000004000010) (clockSwitchWrite fabric gaffer) := by
  unfold clockSwitchWrite
  repeat' with_reducible first | refine all_leaf ?_ | (show within _ _ = true; with_unfolding_all exact rfl) | (show Act.among _ _; with_unfolding_all exact tb rfl) | refine (coreSwitch_kinds ..).mono ?_ | exact all_skip_i | refine all_cons ?_ ?_ | exact all_nil | refine all_seq_i ?_ ?_ | refine all_read_i fun _ => ?_ | refine all_when_i ?_ | refine all_each_i fun _ => ?_ | refine all_ifSome_i fun _ => ?_ | split | dsimp only | contradiction

theorem slckSwitch_kinds (src : Nat) : Prog.All (Act.among 0x400000000000000000000000000000000000000000000000000000000000000012000000000000000004000010) (slckSwitch src) := by
  unfold slckSwitch
  repeat' with_reducible first | refine all_leaf ?_ | (show within _ _ = true; with_unfolding_all exact rfl) | (show Act.among _ _; with_unfolding_all exact tb rfl) | refine setF_kinds _ _ ?_ | refine (switchRefused_kinds ..).mono ?_ | refine (switchStart_kinds ..).mono ?_ | (show Nat.testBit _ _ = true; exact tb rfl) | (show lies _ _; (try dsimp only [F.AON_SLCK_CFG_rc_ok, F.AON_SLCK_CFG_src, F.AON_SLCK_CFG_xtal_ok]); first | refine lies_AON_SLCK_CFG ?_ | split) | exact all_skip_i | refine all_cons ?_ ?_ | exact all_nil | refine all_seq_i ?_ ?_ | refine all_read_i fun _ => ?_ | refine all_when_i ?_ | refine all_each_i fun _ => ?_ | refine all_ifSome_i fun _ => ?_ | split | dsimp only | contradiction

theorem switchComplete_kinds (sw : Nat) : Prog.All (Act.among 0x400000000000000000000000000000000000000000000000000000000000000001000000000000000004000000) (switchComplete sw) := by
  unfold switchComplete
  repeat' with_reducible first | refine all_leaf ?_ | (show within _ _ = true; with_unfolding_all exact rfl) | (show Act.among _ _; with_unfolding_all exact tb rfl) | refine (switchMark_kinds ..).mono ?_ | refine (updClock_kinds ..).mono ?_ | exact all_skip_i | refine all_cons ?_ ?_ | exact all_nil | refine all_seq_i ?_ ?_ | refine all_read_i fun _ => ?_ | refine all_when_i ?_ | refine all_each_i fun _ => ?_ | refine all_ifSome_i fun _ => ?_ | split | dsimp only | contradiction

theorem switchForced_kinds (sw : Nat) : Prog.All (Act.among 0x400000000000000000000000000000000000000000000000000000000000000011000000000000000004000010) (switchForced sw) := by
  unfold switchForced
  repeat' with_reducible first | refine all_leaf ?_ | (show within _ _ = true; with_unfolding_all exact rfl) | (show Act.among _ _; with_unfolding_all exact tb rfl) | refine raise_kinds _ _ (by exact tb rfl) ?_ | refine (switchMark_kinds ..).mono ?_ | refine (updClock_kinds ..).mono ?_ | (show Nat.testBit _ _ = true; exact tb rfl) | (show lies _ _; first | refine lies_CLK_EVENT ?_ | split) | exact all_skip_i | refine all_cons ?_ ?_ | exact all_nil | refine all_seq_i ?_ ?_ | refine all_read_i fun _ => ?_ | refine all_when_i ?_ | refine all_each_i fun _ => ?_ | refine all_ifSome_i fun _ => ?_ | split | dsimp only | contradiction

theorem lineDrop_kinds (uses : Nat → Bool) : Prog.All (Act.among 0x220084300003CA381800000409250000000000000000000000000C0000000000000000004040000000000000000000000003400037D0) (lineDrop uses) := by
  unfold lineDrop
  repeat' with_reducible first | refine all_leaf ?_ | (show within _ _ = true; with_unfolding_all exact rfl) | (show Act.among _ _; with_unfolding_all exact tb rfl) | refine (portDropNow_kinds ..).mono ?_ | refine (toListen_kinds ..).mono ?_ | exact all_skip_i | refine all_cons ?_ ?_ | exact all_nil | refine all_seq_i ?_ ?_ | refine all_read_i fun _ => ?_ | refine all_when_i ?_ | refine all_each_i fun _ => ?_ | refine all_ifSome_i fun _ => ?_ | split | dsimp only | contradiction

theorem coreToFrc_kinds (forced : Bool) : Prog.All (Act.among 0x400000000000000000000000000000000000000000000000000000000000000011100000000000000004000010) (coreToFrc forced) := by
  unfold coreToFrc
  repeat' with_reducible first | refine all_leaf ?_ | (show within _ _ = true; with_unfolding_all exact rfl) | (show Act.among _ _; with_unfolding_all exact tb rfl) | refine raise_kinds _ _ (by exact tb rfl) ?_ | refine setF_kinds _ _ ?_ | refine (switchMark_kinds ..).mono ?_ | refine (updClock_kinds ..).mono ?_ | (show Nat.testBit _ _ = true; exact tb rfl) | (show lies _ _; first | refine lies_CLK_SEL_CORE ?_ | refine lies_CLK_EVENT ?_ | split) | exact all_skip_i | refine all_cons ?_ ?_ | exact all_nil | refine all_seq_i ?_ ?_ | refine all_read_i fun _ => ?_ | refine all_when_i ?_ | refine all_each_i fun _ => ?_ | refine all_ifSome_i fun _ => ?_ | split | dsimp only | contradiction

theorem clockLoss_kinds (i : Nat) : Prog.All (Act.among 0x400000000000000000000000000000000000000000000000000000000000000011D8000000000000004C000010) (clockLoss i) := by
  unfold clockLoss
  repeat' with_reducible first | refine all_leaf ?_ | (show within _ _ = true; with_unfolding_all exact rfl) | (show Act.among _ _; with_unfolding_all exact tb rfl) | refine (coreToFrc_kinds ..).mono ?_ | refine raise_kinds _ _ (by exact tb rfl) ?_ | refine rclkLost_kinds.mono ?_ | refine setF_kinds _ _ ?_ | refine (setReady_kinds ..).mono ?_ | refine (sourceLost_kinds ..).mono ?_ | refine (switchMark_kinds ..).mono ?_ | refine (updClock_kinds ..).mono ?_ | refine (updFault_kinds ..).mono ?_ | (show Nat.testBit _ _ = true; exact tb rfl) | (show lies _ _; (try dsimp only [F.AON_SLCK_CFG_rc_ok, F.AON_SLCK_CFG_src, F.AON_SLCK_CFG_xtal_ok, F.CLK_SEL_CORE_fabric]); first | refine lies_CLK_EVENT ?_ | refine lies_AON_SLCK_CFG ?_ | split) | exact all_skip_i | refine all_cons ?_ ?_ | exact all_nil | refine all_seq_i ?_ ?_ | refine all_read_i fun _ => ?_ | refine all_when_i ?_ | refine all_each_i fun _ => ?_ | refine all_ifSome_i fun _ => ?_ | split | dsimp only | contradiction

theorem loopGone_kinds (i : Nat) : Prog.All (Act.among 0xFFFFFF220084300003CBF81C400004092514818F4000148003FB0000000C000000EF960740840040400004001118008110800000034673BFDE) (loopGone i) := by
  unfold loopGone
  repeat' with_reducible first | refine all_leaf ?_ | (show within _ _ = true; with_unfolding_all exact rfl) | (show Act.among _ _; with_unfolding_all exact tb rfl) | refine (coreToFrc_kinds ..).mono ?_ | refine (headReset_kinds ..).mono ?_ | refine (lineDrop_kinds ..).mono ?_ | refine (setReady_kinds ..).mono ?_ | refine (tbState_kinds ..).mono ?_ | (show Nat.testBit _ _ = true; exact tb rfl) | (show lies _ _; first | refine lies_any ?_ | split) | exact all_skip_i | refine all_cons ?_ ?_ | exact all_nil | refine all_seq_i ?_ ?_ | refine all_read_i fun _ => ?_ | refine all_when_i ?_ | refine all_each_i fun _ => ?_ | refine all_ifSome_i fun _ => ?_ | split | dsimp only | contradiction

theorem pllUnlock_kinds (i : Nat) : Prog.All (Act.among 0xFFFFFF220084300003CBF81C400004092514818F4000148003FB0000000C000000EF960740840040400004001118008110800000034673BFDE) (pllUnlock i) := by
  unfold pllUnlock
  repeat' with_reducible first | refine all_leaf ?_ | (show within _ _ = true; with_unfolding_all exact rfl) | (show Act.among _ _; with_unfolding_all exact tb rfl) | refine (emit_kinds ..).mono ?_ | refine (loopGone_kinds ..).mono ?_ | refine raise_kinds _ _ (by exact tb rfl) ?_ | (show Nat.testBit _ _ = true; exact tb rfl) | (show lies _ _; first | refine lies_CLK_EVENT ?_ | refine lies_any ?_ | split) | exact all_skip_i | refine all_cons ?_ ?_ | exact all_nil | refine all_seq_i ?_ ?_ | refine all_read_i fun _ => ?_ | refine all_when_i ?_ | refine all_each_i fun _ => ?_ | refine all_ifSome_i fun _ => ?_ | split | dsimp only | contradiction

theorem pllRelock_kinds (i : Nat) : Prog.All (Act.among 0x10080000000000000000000010) (pllRelock i) := by
  unfold pllRelock
  repeat' with_reducible first | refine all_leaf ?_ | (show within _ _ = true; with_unfolding_all exact rfl) | (show Act.among _ _; with_unfolding_all exact tb rfl) | refine raise_kinds _ _ (by exact tb rfl) ?_ | refine (setReady_kinds ..).mono ?_ | (show Nat.testBit _ _ = true; exact tb rfl) | (show lies _ _; first | refine lies_CLK_EVENT ?_ | split) | exact all_skip_i | refine all_cons ?_ ?_ | exact all_nil | refine all_seq_i ?_ ?_ | refine all_read_i fun _ => ?_ | refine all_when_i ?_ | refine all_each_i fun _ => ?_ | refine all_ifSome_i fun _ => ?_ | split | dsimp only | contradiction

theorem gateWrite_kinds (v : Nat) : Prog.All (Act.among 0x220084300003CA381800000409250000000000000000000000000C0000000000000000004040000000180000000000000003400037D0) (gateWrite v) := by
  unfold gateWrite
  repeat' with_reducible first | refine all_leaf ?_ | (show within _ _ = true; with_unfolding_all exact rfl) | (show Act.among _ _; with_unfolding_all exact tb rfl) | refine (lineDrop_kinds ..).mono ?_ | refine raise_kinds _ _ (by exact tb rfl) ?_ | refine setF_kinds _ _ ?_ | (show Nat.testBit _ _ = true; exact tb rfl) | (show lies _ _; (try dsimp only [F.CLK_GATE_gate]); first | refine lies_CLK_GATE ?_ | refine lies_CLK_EVENT ?_ | split) | exact all_skip_i | refine all_cons ?_ ?_ | exact all_nil | refine all_seq_i ?_ ?_ | refine all_read_i fun _ => ?_ | refine all_when_i ?_ | refine all_each_i fun _ => ?_ | refine all_ifSome_i fun _ => ?_ | split | dsimp only | contradiction

theorem pllEnWrite_kinds (v : Nat) : Prog.All (Act.among 0xFFFFFF220084300003CBF81C400004092514818F4000148003FB0000000C000000EF960740840040400004001518008110800000034673BFDE) (pllEnWrite v) := by
  unfold pllEnWrite
  repeat' with_reducible first | refine all_leaf ?_ | (show within _ _ = true; with_unfolding_all exact rfl) | (show Act.among _ _; with_unfolding_all exact tb rfl) | refine (loopGone_kinds ..).mono ?_ | refine raise_kinds _ _ (by exact tb rfl) ?_ | refine setF_kinds _ _ ?_ | (show Nat.testBit _ _ = true; exact tb rfl) | (show lies _ _; (try dsimp only [F.CLK_PLL_EN_en, F.CLK_SEL_CORE_fabric, F.CLK_SEL_CORE_gaffer]); first | refine lies_CLK_PLL_EN ?_ | refine lies_CLK_EVENT ?_ | refine lies_any ?_ | split) | exact all_skip_i | refine all_cons ?_ ?_ | exact all_nil | refine all_seq_i ?_ ?_ | refine all_read_i fun _ => ?_ | refine all_when_i ?_ | refine all_each_i fun _ => ?_ | refine all_ifSome_i fun _ => ?_ | split | dsimp only | contradiction

theorem faultInterrupt_kinds : Prog.All (Act.among 0x100040000000000000000000100100010) (faultInterrupt) := by
  unfold faultInterrupt
  repeat' with_reducible first | refine all_leaf ?_ | (show within _ _ = true; with_unfolding_all exact rfl) | (show Act.among _ _; with_unfolding_all exact tb rfl) | refine (msix_kinds ..).mono ?_ | refine raise_kinds _ _ (by exact tb rfl) ?_ | refine (send_kinds ..).mono ?_ | refine setF_kinds _ _ ?_ | (show Nat.testBit _ _ = true; exact tb rfl) | (show lies _ _; (try dsimp only [F.FLT_IRQ_CFG_vec, F.FLT_IRQ_REARM_rearm]); first | refine lies_FLT_IRQ_REARM ?_ | refine lies_FLT_EVENT ?_ | split) | exact all_skip_i | refine all_cons ?_ ?_ | exact all_nil | refine all_seq_i ?_ ?_ | refine all_read_i fun _ => ?_ | refine all_when_i ?_ | refine all_each_i fun _ => ?_ | refine all_ifSome_i fun _ => ?_ | split | dsimp only | contradiction

theorem dmaStop_kinds : Prog.All (Act.among 0x5622C4000000000000000000000000000000010000000000003F08000000000000000000000000000000000000000000000000000200638050) (dmaStop) := by
  unfold dmaStop
  repeat' with_reducible first | refine all_leaf ?_ | (show within _ _ = true; with_unfolding_all exact rfl) | (show Act.among _ _; with_unfolding_all exact tb rfl) | refine mdmaStop_kinds.mono ?_ | refine (ringDisable_kinds ..).mono ?_ | refine (ringStopped_kinds ..).mono ?_ | exact all_skip_i | refine all_cons ?_ ?_ | exact all_nil | refine all_seq_i ?_ ?_ | refine all_read_i fun _ => ?_ | refine all_when_i ?_ | refine all_each_i fun _ => ?_ | refine all_ifSome_i fun _ => ?_ | split | dsimp only | contradiction

theorem chipReaction_kinds (m : Msg) : Prog.All (Act.among 0xFFFFFF22009C300003CBF818800804092500010000000080003F0800000C20000000000000040040400000200001000010000000034A63B7D2) (chipReaction m) := by
  unfold chipReaction
  repeat' with_reducible first | refine all_leaf ?_ | (show within _ _ = true; with_unfolding_all exact rfl) | (show Act.among _ _; with_unfolding_all exact tb rfl) | refine dmaStop_kinds.mono ?_ | refine (enterSafe_kinds ..).mono ?_ | refine (recordBegin_kinds ..).mono ?_ | exact all_skip_i | refine all_cons ?_ ?_ | exact all_nil | refine all_seq_i ?_ ?_ | refine all_read_i fun _ => ?_ | refine all_when_i ?_ | refine all_each_i fun _ => ?_ | refine all_ifSome_i fun _ => ?_ | split | dsimp only | contradiction

theorem react_kinds (ms : List Msg) : Prog.All (Act.among 0xFFFFFF2E2F9C303FF3FBF87C800C14092514818F4000548003FF0821104C2D0060FF9E97F6842148C10204220001008110800000036BF3FFDE) (react ms) := by
  unfold react
  repeat' with_reducible first | refine all_leaf ?_ | (show within _ _ = true; with_unfolding_all exact rfl) | (show Act.among _ _; with_unfolding_all exact tb rfl) | refine blockReset_kinds (K := _) ?_ _ _ ?_ | refine (chipReaction_kinds ..).mono ?_ | refine (enterSafe_kinds ..).mono ?_ | refine faultInterrupt_kinds.mono ?_ | refine (send_kinds ..).mono ?_ | refine (updFault_kinds ..).mono ?_ | (show Nat.testBit _ _ = true; exact tb rfl) | (show lies _ _; (try dsimp only [F.AON_SAFE_STAT_safe]); first | refine lies_any ?_ | split) | exact all_skip_i | refine all_cons ?_ ?_ | exact all_nil | refine all_seq_i ?_ ?_ | refine all_read_i fun _ => ?_ | refine all_when_i ?_ | refine all_each_i fun _ => ?_ | refine all_ifSome_i fun _ => ?_ | intro _ | split | dsimp only | contradiction

theorem takeMessages_kinds : Prog.All (Act.among 0xFFFFFF2E2F9C303FF3FBF87C800C14092514818F4000548003FF0821104C2D0060FF9E97F6842148C9020562000100811080000003EBF3FFDE) (takeMessages) := by
  unfold takeMessages
  repeat' with_reducible first | refine all_leaf ?_ | (show within _ _ = true; with_unfolding_all exact rfl) | (show Act.among _ _; with_unfolding_all exact tb rfl) | refine (logMsg_kinds ..).mono ?_ | refine (react_kinds ..).mono ?_ | refine (updFault_kinds ..).mono ?_ | (show Nat.testBit _ _ = true; exact tb rfl) | (show lies _ _; first | refine lies_any ?_ | split) | exact all_skip_i | refine all_cons ?_ ?_ | exact all_nil | refine all_seq_i ?_ ?_ | refine all_read_i fun _ => ?_ | refine all_when_i ?_ | refine all_each_i fun _ => ?_ | refine all_ifSome_i fun _ => ?_ | split | dsimp only | contradiction

theorem collect_kinds (n : Nat) : Prog.All (Act.among 0xFFFFFF2E2F9C303FF3FBF87C800C14092514818F4000548003FF0821104C2D0060FF9E97F6842148C9020562000100811080000003EBF3FFDE) (collect n) := by
  induction n with
  | zero => unfold collect; repeat' with_reducible first | refine all_leaf ?_ | (show within _ _ = true; with_unfolding_all exact rfl) | (show Act.among _ _; with_unfolding_all exact tb rfl) | refine takeMessages_kinds.mono ?_ | (show Nat.testBit _ _ = true; exact tb rfl) | (show lies _ _; first | refine lies_any ?_ | split) | exact all_skip_i | refine all_cons ?_ ?_ | exact all_nil | refine all_seq_i ?_ ?_ | refine all_read_i fun _ => ?_ | refine all_when_i ?_ | refine all_each_i fun _ => ?_ | refine all_ifSome_i fun _ => ?_ | split | dsimp only | contradiction
  | succ n ih => unfold collect; repeat' with_reducible first | refine all_leaf ?_ | (show within _ _ = true; with_unfolding_all exact rfl) | (show Act.among _ _; with_unfolding_all exact tb rfl) | refine takeMessages_kinds.mono ?_ | exact ih | (show Nat.testBit _ _ = true; exact tb rfl) | (show lies _ _; first | refine lies_any ?_ | split) | exact all_skip_i | refine all_cons ?_ ?_ | exact all_nil | refine all_seq_i ?_ ?_ | refine all_read_i fun _ => ?_ | refine all_when_i ?_ | refine all_each_i fun _ => ?_ | refine all_ifSome_i fun _ => ?_ | split | dsimp only | contradiction

theorem faultEdge_kinds : Prog.All (Act.among 0x80000000000000000000000000000000000000000000000000000000000008000010) (faultEdge) := by
  unfold faultEdge
  repeat' with_reducible first | refine all_leaf ?_ | (show within _ _ = true; with_unfolding_all exact rfl) | (show Act.among _ _; with_unfolding_all exact tb rfl) | refine raise_kinds _ _ (by exact tb rfl) ?_ | refine (updFault_kinds ..).mono ?_ | (show Nat.testBit _ _ = true; exact tb rfl) | (show lies _ _; first | refine lies_HSPI_KEVENT ?_ | split) | exact all_skip_i | refine all_cons ?_ ?_ | exact all_nil | refine all_seq_i ?_ ?_ | refine all_read_i fun _ => ?_ | refine all_when_i ?_ | refine all_each_i fun _ => ?_ | refine all_ifSome_i fun _ => ?_ | split | dsimp only | contradiction

theorem keeperPin_kinds : Prog.All (Act.among 0x108000000) (keeperPin) := by
  unfold keeperPin
  repeat' with_reducible first | refine all_leaf ?_ | (show within _ _ = true; with_unfolding_all exact rfl) | (show Act.among _ _; with_unfolding_all exact tb rfl) | refine (send_kinds ..).mono ?_ | refine (updFault_kinds ..).mono ?_ | exact all_skip_i | refine all_cons ?_ ?_ | exact all_nil | refine all_seq_i ?_ ?_ | refine all_read_i fun _ => ?_ | refine all_when_i ?_ | refine all_each_i fun _ => ?_ | refine all_ifSome_i fun _ => ?_ | split | dsimp only | contradiction

theorem settle_kinds : Prog.All (Act.among 0xFFFFFF2E2F9C303FF3FBF87C800C14092514898F4000548003FF0821104C2D0060FF9E97F6842148C9020562000100811080000003EBF3FFDE) (settle) := by
  unfold settle
  repeat' with_reducible first | refine all_leaf ?_ | (show within _ _ = true; with_unfolding_all exact rfl) | (show Act.among _ _; with_unfolding_all exact tb rfl) | refine (collect_kinds ..).mono ?_ | refine faultEdge_kinds.mono ?_ | refine keeperPin_kinds.mono ?_ | refine summaryIrq_kinds.mono ?_ | (show Nat.testBit _ _ = true; exact tb rfl) | (show lies _ _; first | refine lies_any ?_ | split) | exact all_skip_i | refine all_cons ?_ ?_ | exact all_nil | refine all_seq_i ?_ ?_ | refine all_read_i fun _ => ?_ | refine all_when_i ?_ | refine all_each_i fun _ => ?_ | refine all_ifSome_i fun _ => ?_ | split | dsimp only | contradiction

theorem mbistRun_kinds : Prog.All (Act.among 0x2000000000000000000000000000000) (mbistRun) := by
  unfold mbistRun
  repeat' with_reducible first | refine all_leaf ?_ | (show within _ _ = true; with_unfolding_all exact rfl) | (show Act.among _ _; with_unfolding_all exact tb rfl) | refine setF_kinds _ _ ?_ | (show Nat.testBit _ _ = true; exact tb rfl) | (show lies _ _; (try dsimp only [F.FLT_MBIST_STAT_result, F.FLT_MBIST_STAT_state]); first | refine lies_FLT_MBIST_STAT ?_ | split) | exact all_skip_i | refine all_cons ?_ ?_ | exact all_nil | refine all_seq_i ?_ ?_ | refine all_read_i fun _ => ?_ | refine all_when_i ?_ | refine all_each_i fun _ => ?_ | refine all_ifSome_i fun _ => ?_ | split | dsimp only | contradiction

theorem mbistRefused_kinds (why : Nat) : Prog.All (Act.among 0x2000000000000000000000000000000) (mbistRefused why) := by
  unfold mbistRefused
  repeat' with_reducible first | refine all_leaf ?_ | (show within _ _ = true; with_unfolding_all exact rfl) | (show Act.among _ _; with_unfolding_all exact tb rfl) | refine setF_kinds _ _ ?_ | (show Nat.testBit _ _ = true; exact tb rfl) | (show lies _ _; (try dsimp only [F.FLT_MBIST_STAT_result, F.FLT_MBIST_STAT_state]); first | refine lies_FLT_MBIST_STAT ?_ | split) | exact all_skip_i | refine all_cons ?_ ?_ | exact all_nil | refine all_seq_i ?_ ?_ | refine all_read_i fun _ => ?_ | refine all_when_i ?_ | refine all_each_i fun _ => ?_ | refine all_ifSome_i fun _ => ?_ | split | dsimp only | contradiction

theorem grantQueued_kinds (b : Booking) : Prog.All (Act.among 0x22009C300003CA381800000409250000000000000000000021104C0000200000000000004040020000000000000000000003400077D0) (grantQueued b) := by
  unfold grantQueued
  repeat' with_reducible first | refine all_leaf ?_ | (show within _ _ = true; with_unfolding_all exact rfl) | (show Act.among _ _; with_unfolding_all exact tb rfl) | refine (annealRefused_kinds ..).mono ?_ | refine (annealRun_kinds ..).mono ?_ | refine (loopRun_kinds ..).mono ?_ | refine (mbistRefused_kinds ..).mono ?_ | refine mbistRun_kinds.mono ?_ | refine (selftestRun_kinds ..).mono ?_ | refine setF_kinds _ _ ?_ | refine setFBit_kinds _ _ _ ?_ | refine (stageRun_kinds ..).mono ?_ | refine (sweepRefused_kinds ..).mono ?_ | refine sweepRun_kinds.mono ?_ | refine (tdrRefused_kinds ..).mono ?_ | refine (tdrRun_kinds ..).mono ?_ | (show Nat.testBit _ _ = true; exact tb rfl) | (show lies _ _; (try dsimp only [F.DIAG_FLASH_BOOK_granted, F.DIAG_TDR_CTL_force, F.FUR_SELFTEST_refused, F.PORT_LOOP_STAT_result, F.PORT_LOOP_STAT_state]); first | refine lies_FUR_SELFTEST ?_ | refine lies_DIAG_FLASH_BOOK ?_ | refine lies_PORT_LOOP_STAT ?_ | split) | exact all_skip_i | refine all_cons ?_ ?_ | exact all_nil | refine all_seq_i ?_ ?_ | refine all_read_i fun _ => ?_ | refine all_when_i ?_ | refine all_each_i fun _ => ?_ | refine all_ifSome_i fun _ => ?_ | split | dsimp only | contradiction

theorem ledgerServe_kinds (n : Nat) : Prog.All (Act.among 0x22009C300003CA381800000409250000000000000000000021104C0000200000000000004040020000000000000000000003400077D0) (ledgerServe n) := by
  induction n with
  | zero => unfold ledgerServe; repeat' with_reducible first | refine all_leaf ?_ | (show within _ _ = true; with_unfolding_all exact rfl) | (show Act.among _ _; with_unfolding_all exact tb rfl) | refine (grantQueued_kinds ..).mono ?_ | exact all_skip_i | refine all_cons ?_ ?_ | exact all_nil | refine all_seq_i ?_ ?_ | refine all_read_i fun _ => ?_ | refine all_when_i ?_ | refine all_each_i fun _ => ?_ | refine all_ifSome_i fun _ => ?_ | split | dsimp only | contradiction
  | succ n ih => unfold ledgerServe; repeat' with_reducible first | refine all_leaf ?_ | (show within _ _ = true; with_unfolding_all exact rfl) | (show Act.among _ _; with_unfolding_all exact tb rfl) | refine (grantQueued_kinds ..).mono ?_ | exact ih | exact all_skip_i | refine all_cons ?_ ?_ | exact all_nil | refine all_seq_i ?_ ?_ | refine all_read_i fun _ => ?_ | refine all_when_i ?_ | refine all_each_i fun _ => ?_ | refine all_ifSome_i fun _ => ?_ | split | dsimp only | contradiction

theorem pump_kinds : Prog.All (Act.among 0x7E47C822009C302003CA38180000040F25001100000000000203002110EC000020000000100000404002000010C800000000000003407077D0) (pump) := by
  unfold pump
  repeat' with_reducible first | refine all_leaf ?_ | (show within _ _ = true; with_unfolding_all exact rfl) | (show Act.among _ _; with_unfolding_all exact tb rfl) | refine (caneEdge_kinds ..).mono ?_ | refine (ledgerServe_kinds ..).mono ?_ | refine mdmaServe_kinds.mono ?_ | refine orphanEdge_kinds.mono ?_ | refine rclkWatch_kinds.mono ?_ | refine (stageBegin_kinds ..).mono ?_ | refine txLookAll_kinds.mono ?_ | exact all_skip_i | refine all_cons ?_ ?_ | exact all_nil | refine all_seq_i ?_ ?_ | refine all_read_i fun _ => ?_ | refine all_when_i ?_ | refine all_each_i fun _ => ?_ | refine all_ifSome_i fun _ => ?_ | split | dsimp only | contradiction

theorem faultRecordDone_kinds (failed : Bool) : Prog.All (Act.among 0xFFFFFF2200FC300003CBFA79906BC78975E0018E40000080083F0800000C294040EF900776042148CD3001644C090E001C800000034FFBFFDE) (faultRecordDone failed) := by
  unfold faultRecordDone
  repeat' with_reducible first | refine all_leaf ?_ | (show within _ _ = true; with_unfolding_all exact rfl) | (show Act.among _ _; with_unfolding_all exact tb rfl) | refine (chipReset_kinds ..).mono ?_ | refine (failStart_kinds ..).mono ?_ | refine (recordWrite_kinds ..).mono ?_ | refine satAdd_kinds _ _ ?_ | refine (updFault_kinds ..).mono ?_ | refine (updPower_kinds ..).mono ?_ | (show Nat.testBit _ _ = true; exact tb rfl) | (show lies _ _; (try dsimp only [F.AON_REACT_RESETS_count, F.AON_SAFE_STAT_safe]); first | refine lies_AON_REACT_RESETS ?_ | refine lies_any ?_ | split) | exact all_skip_i | refine all_cons ?_ ?_ | exact all_nil | refine all_seq_i ?_ ?_ | refine all_read_i fun _ => ?_ | refine all_when_i ?_ | refine all_each_i fun _ => ?_ | refine all_ifSome_i fun _ => ?_ | split | dsimp only | contradiction

theorem reactWindow_kinds : Prog.All (Act.among 0x1000000000000000000000000000000000000000000000000000000000000000000000000000000000000000000) (reactWindow) := by
  unfold reactWindow
  repeat' with_reducible first | refine all_leaf ?_ | (show within _ _ = true; with_unfolding_all exact rfl) | (show Act.among _ _; with_unfolding_all exact tb rfl) | refine setF_kinds _ _ ?_ | (show Nat.testBit _ _ = true; exact tb rfl) | (show lies _ _; (try dsimp only [F.AON_REACT_RESETS_count]); first | refine lies_AON_REACT_RESETS ?_ | split) | exact all_skip_i | refine all_cons ?_ ?_ | exact all_nil | refine all_seq_i ?_ ?_ | refine all_read_i fun _ => ?_ | refine all_when_i ?_ | refine all_each_i fun _ => ?_ | refine all_ifSome_i fun _ => ?_ | split | dsimp only | contradiction

theorem collectorSelf_kinds (part : Nat) : Prog.All (Act.among 0xFFFFFF22009C300003CBF818800804092500010000000080003F0800000C20000000000000040040400000200001000010000000034A63B7D2) (collectorSelf part) := by
  unfold collectorSelf
  repeat' with_reducible first | refine all_leaf ?_ | (show within _ _ = true; with_unfolding_all exact rfl) | (show Act.among _ _; with_unfolding_all exact tb rfl) | refine (enterSafe_kinds ..).mono ?_ | refine setF_kinds _ _ ?_ | (show Nat.testBit _ _ = true; exact tb rfl) | (show lies _ _; (try dsimp only [F.FLT_STAT_self_fault]); first | refine lies_FLT_STAT ?_ | split) | exact all_skip_i | refine all_cons ?_ ?_ | exact all_nil | refine all_seq_i ?_ ?_ | refine all_read_i fun _ => ?_ | refine all_when_i ?_ | refine all_each_i fun _ => ?_ | refine all_ifSome_i fun _ => ?_ | split | dsimp only | contradiction

theorem supplyFault_kinds (rail : Nat) : Prog.All (Act.among 0x40000000) (supplyFault rail) := by
  unfold supplyFault
  repeat' with_reducible first | refine all_leaf ?_ | (show within _ _ = true; with_unfolding_all exact rfl) | (show Act.among _ _; with_unfolding_all exact tb rfl) | refine (emit_kinds ..).mono ?_ | exact all_skip_i | refine all_cons ?_ ?_ | exact all_nil | refine all_seq_i ?_ ?_ | refine all_read_i fun _ => ?_ | refine all_when_i ?_ | refine all_each_i fun _ => ?_ | refine all_ifSome_i fun _ => ?_ | split | dsimp only | contradiction

theorem thermCross_kinds (i v thr cls : Nat) : Prog.All (Act.among 0x48000000) (thermCross i v thr cls) := by
  unfold thermCross
  repeat' with_reducible first | refine all_leaf ?_ | (show within _ _ = true; with_unfolding_all exact rfl) | (show Act.among _ _; with_unfolding_all exact tb rfl) | refine (emit_kinds ..).mono ?_ | refine (updFault_kinds ..).mono ?_ | exact all_skip_i | refine all_cons ?_ ?_ | exact all_nil | refine all_seq_i ?_ ?_ | refine all_read_i fun _ => ?_ | refine all_when_i ?_ | refine all_each_i fun _ => ?_ | refine all_ifSome_i fun _ => ?_ | split | dsimp only | contradiction

theorem overtemp_kinds (tj : List Nat) : Prog.All (Act.among 0x40000000000000000000000048000000) (overtemp tj) := by
  unfold overtemp
  repeat' with_reducible first | refine all_leaf ?_ | (show within _ _ = true; with_unfolding_all exact rfl) | (show Act.among _ _; with_unfolding_all exact tb rfl) | refine setF_kinds _ _ ?_ | refine (thermCross_kinds ..).mono ?_ | (show Nat.testBit _ _ = true; exact tb rfl) | (show lies _ _; (try dsimp only [F.FLT_THERM_max_tj, F.FLT_THERM_now_tj, F.FLT_THERM_sensor]); first | refine lies_FLT_THERM ?_ | split) | exact all_skip_i | refine all_cons ?_ ?_ | exact all_nil | refine all_seq_i ?_ ?_ | refine all_read_i fun _ => ?_ | refine all_when_i ?_ | refine all_each_i fun _ => ?_ | refine all_ifSome_i fun _ => ?_ | split | dsimp only | contradiction

theorem aliveToggle_kinds : Prog.All (Act.among 0x108000000) (aliveToggle) := by
  unfold aliveToggle
  repeat' with_reducible first | refine all_leaf ?_ | (show within _ _ = true; with_unfolding_all exact rfl) | (show Act.among _ _; with_unfolding_all exact tb rfl) | refine (send_kinds ..).mono ?_ | refine (updFault_kinds ..).mono ?_ | exact all_skip_i | refine all_cons ?_ ?_ | exact all_nil | refine all_seq_i ?_ ?_ | refine all_read_i fun _ => ?_ | refine all_when_i ?_ | refine all_each_i fun _ => ?_ | refine all_ifSome_i fun _ => ?_ | split | dsimp only | contradiction

theorem watchdogExpire_kinds : Prog.All (Act.among 0x200000000000000000000048000000) (watchdogExpire) := by
  unfold watchdogExpire
  repeat' with_reducible first | refine all_leaf ?_ | (show within _ _ = true; with_unfolding_all exact rfl) | (show Act.among _ _; with_unfolding_all exact tb rfl) | refine (emit_kinds ..).mono ?_ | refine setF_kinds _ _ ?_ | refine (updFault_kinds ..).mono ?_ | (show Nat.testBit _ _ = true; exact tb rfl) | (show lies _ _; (try dsimp only [F.FLT_WDOG_CFG_timeout_ms, F.FLT_WDOG_STAT_expired]); first | refine lies_FLT_WDOG_STAT ?_ | split) | exact all_skip_i | refine all_cons ?_ ?_ | exact all_nil | refine all_seq_i ?_ ?_ | refine all_read_i fun _ => ?_ | refine all_when_i ?_ | refine all_each_i fun _ => ?_ | refine all_ifSome_i fun _ => ?_ | split | dsimp only | contradiction

theorem watchdogKick_kinds (key : Nat) : Prog.All (Act.among 0x20000000000000000000004A000000) (watchdogKick key) := by
  unfold watchdogKick
  repeat' with_reducible first | refine all_leaf ?_ | (show within _ _ = true; with_unfolding_all exact rfl) | (show Act.among _ _; with_unfolding_all exact tb rfl) | refine (updFault_kinds ..).mono ?_ | refine (updPower_kinds ..).mono ?_ | refine watchdogExpire_kinds.mono ?_ | exact all_skip_i | refine all_cons ?_ ?_ | exact all_nil | refine all_seq_i ?_ ?_ | refine all_read_i fun _ => ?_ | refine all_when_i ?_ | refine all_each_i fun _ => ?_ | refine all_ifSome_i fun _ => ?_ | split | dsimp only | contradiction

theorem lockstep_kinds (pc : Nat) : Prog.All (Act.among 0x42000000) (lockstep pc) := by
  unfold lockstep
  repeat' with_reducible first | refine all_leaf ?_ | (show within _ _ = true; with_unfolding_all exact rfl) | (show Act.among _ _; with_unfolding_all exact tb rfl) | refine (emit_kinds ..).mono ?_ | refine (updPower_kinds ..).mono ?_ | exact all_skip_i | refine all_cons ?_ ?_ | exact all_nil | refine all_seq_i ?_ ?_ | refine all_read_i fun _ => ?_ | refine all_when_i ?_ | refine all_each_i fun _ => ?_ | refine all_ifSome_i fun _ => ?_ | split | dsimp only | contradiction

theorem checkerEnd_kinds (result : Nat) : Prog.All (Act.among 0x100800000000000000000000000000010) (checkerEnd result) := by
  unfold checkerEnd
  repeat' with_reducible first | refine all_leaf ?_ | (show within _ _ = true; with_unfolding_all exact rfl) | (show Act.among _ _; with_unfolding_all exact tb rfl) | refine raise_kinds _ _ (by exact tb rfl) ?_ | refine setF_kinds _ _ ?_ | (show Nat.testBit _ _ = true; exact tb rfl) | (show lies _ _; (try dsimp only [F.FLT_CHK_STAT_remaining, F.FLT_CHK_STAT_result, F.FLT_CHK_STAT_state]); first | refine lies_FLT_CHK_STAT ?_ | refine lies_FLT_EVENT ?_ | split) | exact all_skip_i | refine all_cons ?_ ?_ | exact all_nil | refine all_seq_i ?_ ?_ | refine all_read_i fun _ => ?_ | refine all_when_i ?_ | refine all_each_i fun _ => ?_ | refine all_ifSome_i fun _ => ?_ | split | dsimp only | contradiction

theorem checkerStart_kinds (checker count limit : Nat) (start : Bool) : Prog.All (Act.among 0xC00000000000000000000008000000) (checkerStart checker count limit start) := by
  unfold checkerStart
  repeat' with_reducible first | refine all_leaf ?_ | (show within _ _ = true; with_unfolding_all exact rfl) | (show Act.among _ _; with_unfolding_all exact tb rfl) | refine setF_kinds _ _ ?_ | refine (updFault_kinds ..).mono ?_ | (show Nat.testBit _ _ = true; exact tb rfl) | (show lies _ _; (try dsimp only [F.FLT_CHK_CTL_checker, F.FLT_CHK_CTL_count, F.FLT_CHK_CTL_limit_ms, F.FLT_CHK_STAT_detected, F.FLT_CHK_STAT_remaining, F.FLT_CHK_STAT_result, F.FLT_CHK_STAT_state]); first | refine lies_FLT_CHK_CTL ?_ | refine lies_FLT_CHK_STAT ?_ | split) | exact all_skip_i | refine all_cons ?_ ?_ | exact all_nil | refine all_seq_i ?_ ?_ | refine all_read_i fun _ => ?_ | refine all_when_i ?_ | refine all_each_i fun _ => ?_ | refine all_ifSome_i fun _ => ?_ | split | dsimp only | contradiction

theorem checkerTest_kinds (detected corr : Bool) (at_ w1 : Nat) : Prog.All (Act.among 0x100800000000000000000000040000010) (checkerTest detected corr at_ w1) := by
  unfold checkerTest
  repeat' with_reducible first | refine all_leaf ?_ | (show within _ _ = true; with_unfolding_all exact rfl) | (show Act.among _ _; with_unfolding_all exact tb rfl) | refine (checkerEnd_kinds ..).mono ?_ | refine (emit_kinds ..).mono ?_ | refine satAdd_kinds _ _ ?_ | refine setF_kinds _ _ ?_ | (show Nat.testBit _ _ = true; exact tb rfl) | (show lies _ _; (try dsimp only [F.FLT_CHK_STAT_detected, F.FLT_CHK_STAT_remaining, F.FLT_CHK_STAT_state]); first | refine lies_FLT_CHK_STAT ?_ | split) | exact all_skip_i | refine all_cons ?_ ?_ | exact all_nil | refine all_seq_i ?_ ?_ | refine all_read_i fun _ => ?_ | refine all_when_i ?_ | refine all_each_i fun _ => ?_ | refine all_ifSome_i fun _ => ?_ | split | dsimp only | contradiction

theorem checkerTimeout_kinds : Prog.All (Act.among 0x100800000000000000000000000000010) (checkerTimeout) := by
  unfold checkerTimeout
  repeat' with_reducible first | refine all_leaf ?_ | (show within _ _ = true; with_unfolding_all exact rfl) | (show Act.among _ _; with_unfolding_all exact tb rfl) | refine (checkerEnd_kinds ..).mono ?_ | exact all_skip_i | refine all_cons ?_ ?_ | exact all_nil | refine all_seq_i ?_ ?_ | refine all_read_i fun _ => ?_ | refine all_when_i ?_ | refine all_each_i fun _ => ?_ | refine all_ifSome_i fun _ => ?_ | split | dsimp only | contradiction

theorem mbistStart_kinds (req : Nat) (noWait : Bool) : Prog.All (Act.among 0xA0000000000000000000000003000000000000000000000000000410) (mbistStart req noWait) := by
  unfold mbistStart
  repeat' with_reducible first | refine all_leaf ?_ | (show within _ _ = true; with_unfolding_all exact rfl) | (show Act.among _ _; with_unfolding_all exact tb rfl) | refine ledgerRequest_kinds (K := _) ?_ _ _ _ _ _ ?_ ?_ ?_ | refine (mbistRefused_kinds ..).mono ?_ | refine mbistRun_kinds.mono ?_ | refine setF_kinds _ _ ?_ | (show Nat.testBit _ _ = true; exact tb rfl) | (show lies _ _; (try dsimp only [F.FLT_MBIST_CTL_no_wait, F.FLT_MBIST_STAT_result, F.FLT_MBIST_STAT_state]); first | refine lies_FLT_MBIST_CTL ?_ | refine lies_FLT_MBIST_STAT ?_ | split) | exact all_skip_i | refine all_cons ?_ ?_ | exact all_nil | refine all_seq_i ?_ ?_ | refine all_read_i fun _ => ?_ | refine all_when_i ?_ | refine all_each_i fun _ => ?_ | refine all_ifSome_i fun _ => ?_ | intro _ | split | dsimp only | contradiction

theorem mbistStop_kinds : Prog.All (Act.among 0x22009C300003CA381800000409250000000000400000000021104C2000600000000000004041020000000000000000000003408077D0) (mbistStop) := by
  unfold mbistStop
  repeat' with_reducible first | refine all_leaf ?_ | (show within _ _ = true; with_unfolding_all exact rfl) | (show Act.among _ _; with_unfolding_all exact tb rfl) | refine (activityAbort_kinds ..).mono ?_ | exact all_skip_i | refine all_cons ?_ ?_ | exact all_nil | refine all_seq_i ?_ ?_ | refine all_read_i fun _ => ?_ | refine all_when_i ?_ | refine all_each_i fun _ => ?_ | refine all_ifSome_i fun _ => ?_ | split | dsimp only | contradiction

theorem mbistDone_kinds (fails first : Nat) : Prog.All (Act.among 0x4000000000000000000000000000000000000106000000000000000000000040820410) (mbistDone fails first) := by
  unfold mbistDone
  repeat' with_reducible first | refine all_leaf ?_ | (show within _ _ = true; with_unfolding_all exact rfl) | (show Act.among _ _; with_unfolding_all exact tb rfl) | refine (emit_kinds ..).mono ?_ | refine raise_kinds _ _ (by exact tb rfl) ?_ | refine setF_kinds _ _ ?_ | (show Nat.testBit _ _ = true; exact tb rfl) | (show lies _ _; (try dsimp only [F.CEL_STAT_init_done, F.FLT_MBIST_FAIL_cell, F.FLT_MBIST_STAT_fail_cells, F.FLT_MBIST_STAT_result, F.FLT_MBIST_STAT_state]); first | refine lies_FLT_MBIST_STAT ?_ | refine lies_FLT_MBIST_FAIL ?_ | refine lies_FLT_EVENT ?_ | refine lies_CEL_STAT ?_ | split) | exact all_skip_i | refine all_cons ?_ ?_ | exact all_nil | refine all_seq_i ?_ ?_ | refine all_read_i fun _ => ?_ | refine all_when_i ?_ | refine all_each_i fun _ => ?_ | refine all_ifSome_i fun _ => ?_ | split | dsimp only | contradiction

theorem injectWrite_kinds (path checker bit : Nat) (double start : Bool) : Prog.All (Act.among 0x80000000000000000000000040000000) (injectWrite path checker bit double start) := by
  unfold injectWrite
  repeat' with_reducible first | refine all_leaf ?_ | (show within _ _ = true; with_unfolding_all exact rfl) | (show Act.among _ _; with_unfolding_all exact tb rfl) | refine (denied_kinds ..).mono ?_ | refine setF_kinds _ _ ?_ | (show Nat.testBit _ _ = true; exact tb rfl) | (show lies _ _; (try dsimp only [F.FLT_INJ_CTL_bit, F.FLT_INJ_CTL_checker, F.FLT_INJ_CTL_double, F.FLT_INJ_CTL_start]); first | refine lies_FLT_INJ_CTL ?_ | split) | exact all_skip_i | refine all_cons ?_ ?_ | exact all_nil | refine all_seq_i ?_ ?_ | refine all_read_i fun _ => ?_ | refine all_when_i ?_ | refine all_each_i fun _ => ?_ | refine all_ifSome_i fun _ => ?_ | split | dsimp only | contradiction

theorem injectRead_kinds (at_ syndrome w1 : Nat) : Prog.All (Act.among 0xFFFFFF22009C300003CBF818800804092500010000000080003F0800000C20304E00000000040040408000200001000010000000034A63B7D2) (injectRead at_ syndrome w1) := by
  unfold injectRead
  repeat' with_reducible first | refine all_leaf ?_ | (show within _ _ = true; with_unfolding_all exact rfl) | (show Act.among _ _; with_unfolding_all exact tb rfl) | refine (collectorSelf_kinds ..).mono ?_ | refine (eccCorr_kinds ..).mono ?_ | refine (eccUncorr_kinds ..).mono ?_ | refine (emit_kinds ..).mono ?_ | refine (lockstep_kinds ..).mono ?_ | refine satAdd_kinds _ _ ?_ | refine setF_kinds _ _ ?_ | (show Nat.testBit _ _ = true; exact tb rfl) | (show lies _ _; (try dsimp only [F.FLT_INJ_CTL_checker, F.FLT_INJ_CTL_double, F.FLT_INJ_CTL_start, F.FLT_STAT_total]); first | refine lies_FLT_STAT ?_ | refine lies_FLT_INJ_CTL ?_ | split) | exact all_skip_i | refine all_cons ?_ ?_ | exact all_nil | refine all_seq_i ?_ ?_ | refine all_read_i fun _ => ?_ | refine all_when_i ?_ | refine all_each_i fun _ => ?_ | refine all_ifSome_i fun _ => ?_ | split | dsimp only | contradiction

theorem blockWrite_kinds (src : Nat) (go : Bool) : Prog.All (Act.among 0xFFFFFF2E2FFC303FF3FBFA7C906FD78975F4818F400054800BFF0821104C2D4060FF9E97F6842148CD02056F4C090E811C800000036FFBFFDE) (blockWrite src go) := by
  unfold blockWrite
  repeat' with_reducible first | refine all_leaf ?_ | (show within _ _ = true; with_unfolding_all exact rfl) | (show Act.among _ _; with_unfolding_all exact tb rfl) | refine blockReset_kinds (K := _) ?_ _ _ ?_ | refine (chipReset_kinds ..).mono ?_ | refine raise_kinds _ _ (by exact tb rfl) ?_ | refine setF_kinds _ _ ?_ | refine (updPower_kinds ..).mono ?_ | (show Nat.testBit _ _ = true; exact tb rfl) | (show lies _ _; (try dsimp only [F.RST_BLOCK_STAT_refused, F.RST_BLOCK_source]); first | refine lies_RST_BLOCK ?_ | refine lies_RST_BLOCK_STAT ?_ | refine lies_RST_EVENT ?_ | refine lies_any ?_ | split) | exact all_skip_i | refine all_cons ?_ ?_ | exact all_nil | refine all_seq_i ?_ ?_ | refine all_read_i fun _ => ?_ | refine all_when_i ?_ | refine all_each_i fun _ => ?_ | refine all_ifSome_i fun _ => ?_ | intro _ | split | dsimp only | contradiction

theorem readWord_kinds {K : Nat} (hK : within 0x8 K = true) (path off : Nat) (k : Word → Prog) (h_k : ∀ v0, Prog.All (Act.among K) (k v0)) : Prog.All (Act.among K) (readWord path off k) := by
  unfold readWord
  repeat' with_reducible first | refine all_leaf ?_ | (show Act.among _ _; with_unfolding_all exact testBit_within hK (tb rfl)) | exact within_trans (by with_unfolding_all exact rfl) hK | exact h_k _ | exact all_skip_i | refine all_cons ?_ ?_ | exact all_nil | refine all_seq_i ?_ ?_ | refine all_read_i fun _ => ?_ | refine all_when_i ?_ | refine all_each_i fun _ => ?_ | refine all_ifSome_i fun _ => ?_ | split | dsimp only | contradiction

theorem accessOff_kinds (path off : Nat) : Prog.All (Act.among 0x40000000) (accessOff path off) := by
  unfold accessOff
  repeat' with_reducible first | refine all_leaf ?_ | (show within _ _ = true; with_unfolding_all exact rfl) | (show Act.among _ _; with_unfolding_all exact tb rfl) | refine (emit_kinds ..).mono ?_ | exact all_skip_i | refine all_cons ?_ ?_ | exact all_nil | refine all_seq_i ?_ ?_ | refine all_read_i fun _ => ?_ | refine all_when_i ?_ | refine all_each_i fun _ => ?_ | refine all_ifSome_i fun _ => ?_ | split | dsimp only | contradiction

theorem access_kinds {K : Nat} (hK : within 0x40000000 K = true) (path off : Nat) (p : Prog) (h_p : Prog.All (Act.among K) (p)) : Prog.All (Act.among K) (access path off p) := by
  unfold access
  repeat' with_reducible first | refine all_leaf ?_ | (show Act.among _ _; with_unfolding_all exact testBit_within hK (tb rfl)) | exact within_trans (by with_unfolding_all exact rfl) hK | exact h_p | refine (accessOff_kinds ..).mono ?_ | refine (denied_kinds ..).mono ?_ | exact all_skip_i | refine all_cons ?_ ?_ | exact all_nil | refine all_seq_i ?_ ?_ | refine all_read_i fun _ => ?_ | refine all_when_i ?_ | refine all_each_i fun _ => ?_ | refine all_ifSome_i fun _ => ?_ | split | dsimp only | contradiction

theorem storeWord_kinds (o : Nat) (shadow : Bool) (w : Word) : Prog.All (Act.among 0x8000000000000002) (storeWord o shadow w) := by
  unfold storeWord
  repeat' with_reducible first | refine all_leaf ?_ | (show within _ _ = true; with_unfolding_all exact rfl) | (show Act.among _ _; with_unfolding_all exact tb rfl) | refine setReg_kinds _ _ ?_ | (show Nat.testBit _ _ = true; exact tb rfl) | (show lies _ _; first | refine lies_any ?_ | split) | exact all_skip_i | refine all_cons ?_ ?_ | exact all_nil | refine all_seq_i ?_ ?_ | refine all_read_i fun _ => ?_ | refine all_when_i ?_ | refine all_each_i fun _ => ?_ | refine all_ifSome_i fun _ => ?_ | split | dsimp only | contradiction

theorem portAdminAsk_kinds (p a : Nat) : Prog.All (Act.among 0x22009C300003CBF81800000409250000000000000000000000000C2000000000000000004040000000000000000000000003420037D0) (portAdminAsk p a) := by
  unfold portAdminAsk
  repeat' with_reducible first | refine all_leaf ?_ | (show within _ _ = true; with_unfolding_all exact rfl) | (show Act.among _ _; with_unfolding_all exact tb rfl) | refine (governorClamp_kinds ..).mono ?_ | refine (portAdminWrite_kinds ..).mono ?_ | exact all_skip_i | refine all_cons ?_ ?_ | exact all_nil | refine all_seq_i ?_ ?_ | refine all_read_i fun _ => ?_ | refine all_when_i ?_ | refine all_each_i fun _ => ?_ | refine all_ifSome_i fun _ => ?_ | split | dsimp only | contradiction

theorem portCtlWrite_kinds (p : Nat) (w : Word) : Prog.All (Act.among 0x2E2F9C303FF3FBF87800000409250000000000000000000000000C2000000000000000004040000000000000000000000003420037D2) (portCtlWrite p w) := by
  unfold portCtlWrite
  repeat' with_reducible first | refine all_leaf ?_ | (show within _ _ = true; with_unfolding_all exact rfl) | (show Act.among _ _; with_unfolding_all exact tb rfl) | refine (governorClamp_kinds ..).mono ?_ | refine (portAdminAsk_kinds ..).mono ?_ | refine (portResetWrite_kinds ..).mono ?_ | refine (portRestart_kinds ..).mono ?_ | exact all_skip_i | refine all_cons ?_ ?_ | exact all_nil | refine all_seq_i ?_ ?_ | refine all_read_i fun _ => ?_ | refine all_when_i ?_ | refine all_each_i fun _ => ?_ | refine all_ifSome_i fun _ => ?_ | split | dsimp only | contradiction

theorem lgCtlWrite_kinds (path g : Nat) (w : Word) : Prog.All (Act.among 0x11022220084380003CA38180004140935E000000000000000000000100C00004010048210FD8040400000000000000180C000000340097FD2) (lgCtlWrite path g w) := by
  unfold lgCtlWrite
  repeat' with_reducible first | refine all_leaf ?_ | (show within _ _ = true; with_unfolding_all exact rfl) | (show Act.among _ _; with_unfolding_all exact tb rfl) | refine (denied_kinds ..).mono ?_ | refine (lgArm_kinds ..).mono ?_ | refine (lgDisarm_kinds ..).mono ?_ | refine (lgFields_kinds ..).mono ?_ | (show Nat.testBit _ _ = true; exact tb rfl) | (show lies _ _; first | refine lies_any ?_ | split) | exact all_skip_i | refine all_cons ?_ ?_ | exact all_nil | refine all_seq_i ?_ ?_ | refine all_read_i fun _ => ?_ | refine all_when_i ?_ | refine all_each_i fun _ => ?_ | refine all_ifSome_i fun _ => ?_ | split | dsimp only | contradiction

theorem remouldCtlWrite_kinds (w : Word) : Prog.All (Act.among 0x220084300003CA381800041409250000000000000000000000000C0000001004C0800000404000000000000000000000000340003FD0) (remouldCtlWrite w) := by
  unfold remouldCtlWrite
  repeat' with_reducible first | refine all_leaf ?_ | (show within _ _ = true; with_unfolding_all exact rfl) | (show Act.among _ _; with_unfolding_all exact tb rfl) | refine remouldCancel_kinds.mono ?_ | refine (remouldStart_kinds ..).mono ?_ | refine setF_kinds _ _ ?_ | (show Nat.testBit _ _ = true; exact tb rfl) | (show lies _ _; (try dsimp only [F.MLD_REMOULD_CTL_cg, F.MLD_REMOULD_CTL_hold_ms, F.MLD_REMOULD_CTL_kind, F.MLD_REMOULD_STAT_state]); first | refine lies_MLD_REMOULD_CTL ?_ | split) | exact all_skip_i | refine all_cons ?_ ?_ | exact all_nil | refine all_seq_i ?_ ?_ | refine all_read_i fun _ => ?_ | refine all_when_i ?_ | refine all_each_i fun _ => ?_ | refine all_ifSome_i fun _ => ?_ | split | dsimp only | contradiction

theorem annealCtlWrite_kinds (path p noWait force : Nat) (start stop : Bool) : Prog.All (Act.among 0x220084300003CA38180000040925000000000000000000000000AE2000000000000000004040000000000000000000000003400037D0) (annealCtlWrite path p noWait force start stop) := by
  unfold annealCtlWrite
  repeat' with_reducible first | refine all_leaf ?_ | (show within _ _ = true; with_unfolding_all exact rfl) | (show Act.among _ _; with_unfolding_all exact tb rfl) | refine (annealAbort_kinds ..).mono ?_ | refine (annealStart_kinds ..).mono ?_ | refine setF_kinds _ _ ?_ | (show Nat.testBit _ _ = true; exact tb rfl) | (show lies _ _; (try dsimp only [F.CAL_PORT_CTL_force, F.CAL_PORT_CTL_no_wait]); first | refine lies_CAL_PORT_CTL ?_ | split) | exact all_skip_i | refine all_cons ?_ ?_ | exact all_nil | refine all_seq_i ?_ ?_ | refine all_read_i fun _ => ?_ | refine all_when_i ?_ | refine all_each_i fun _ => ?_ | refine all_ifSome_i fun _ => ?_ | split | dsimp only | contradiction

theorem tdrCtlWrite_kinds (path p noWait force : Nat) (start stop : Bool) : Prog.All (Act.among 0x220084300003CA38180000040925000000000000000000003000AC0000000000000000004040000000000000000000000003400037D0) (tdrCtlWrite path p noWait force start stop) := by
  unfold tdrCtlWrite
  repeat' with_reducible first | refine all_leaf ?_ | (show within _ _ = true; with_unfolding_all exact rfl) | (show Act.among _ _; with_unfolding_all exact tb rfl) | refine setF_kinds _ _ ?_ | refine (tdrStart_kinds ..).mono ?_ | refine (tdrStop_kinds ..).mono ?_ | (show Nat.testBit _ _ = true; exact tb rfl) | (show lies _ _; (try dsimp only [F.DIAG_TDR_CTL_force, F.DIAG_TDR_CTL_no_wait]); first | refine lies_DIAG_TDR_CTL ?_ | split) | exact all_skip_i | refine all_cons ?_ ?_ | exact all_nil | refine all_seq_i ?_ ?_ | refine all_read_i fun _ => ?_ | refine all_when_i ?_ | refine all_each_i fun _ => ?_ | refine all_ifSome_i fun _ => ?_ | split | dsimp only | contradiction

theorem sweepCtlWrite_kinds (path cg noWait force : Nat) (start arm stop : Bool) : Prog.All (Act.among 0x220084300003CA38180000040925000000000000000000000110AC0000000000000000004040000000000000000000000003400077D0) (sweepCtlWrite path cg noWait force start arm stop) := by
  unfold sweepCtlWrite
  repeat' with_reducible first | refine all_leaf ?_ | (show within _ _ = true; with_unfolding_all exact rfl) | (show Act.among _ _; with_unfolding_all exact tb rfl) | refine setF_kinds _ _ ?_ | refine (sweepStart_kinds ..).mono ?_ | refine sweepStop_kinds.mono ?_ | (show Nat.testBit _ _ = true; exact tb rfl) | (show lies _ _; (try dsimp only [F.DIAG_SWEEP_CTL_cg, F.DIAG_SWEEP_CTL_force, F.DIAG_SWEEP_CTL_no_wait]); first | refine lies_DIAG_SWEEP_CTL ?_ | split) | exact all_skip_i | refine all_cons ?_ ?_ | exact all_nil | refine all_seq_i ?_ ?_ | refine all_read_i fun _ => ?_ | refine all_when_i ?_ | refine all_each_i fun _ => ?_ | refine all_ifSome_i fun _ => ?_ | split | dsimp only | contradiction

theorem loopCtlWrite_kinds (path p mode noWait force source kind : Nat) (start stop : Bool) : Prog.All (Act.among 0x22009D300003CA38180000040925000000000000000000000000AC0000000000000000004040000000000000000000000003400037D0) (loopCtlWrite path p mode noWait force source kind start stop) := by
  unfold loopCtlWrite
  repeat' with_reducible first | refine all_leaf ?_ | (show within _ _ = true; with_unfolding_all exact rfl) | (show Act.among _ _; with_unfolding_all exact tb rfl) | refine (loopStart_kinds ..).mono ?_ | refine (loopStop_kinds ..).mono ?_ | refine setF_kinds _ _ ?_ | (show Nat.testBit _ _ = true; exact tb rfl) | (show lies _ _; (try dsimp only [F.PORT_LOOP_CTL_force, F.PORT_LOOP_CTL_kind, F.PORT_LOOP_CTL_mode, F.PORT_LOOP_CTL_no_wait, F.PORT_LOOP_CTL_source]); first | refine lies_PORT_LOOP_CTL ?_ | split) | exact all_skip_i | refine all_cons ?_ ?_ | exact all_nil | refine all_seq_i ?_ ?_ | refine all_read_i fun _ => ?_ | refine all_when_i ?_ | refine all_each_i fun _ => ?_ | refine all_ifSome_i fun _ => ?_ | split | dsimp only | contradiction

theorem mbistCtlWrite_kinds (path noWait : Nat) (start stop : Bool) : Prog.All (Act.among 0x22009C300003CA38180000040925000000000040000000002110EC2000600000000000004041030000000000000000000003408077D0) (mbistCtlWrite path noWait start stop) := by
  unfold mbistCtlWrite
  repeat' with_reducible first | refine all_leaf ?_ | (show within _ _ = true; with_unfolding_all exact rfl) | (show Act.among _ _; with_unfolding_all exact tb rfl) | refine (mbistStart_kinds ..).mono ?_ | refine mbistStop_kinds.mono ?_ | refine setF_kinds _ _ ?_ | (show Nat.testBit _ _ = true; exact tb rfl) | (show lies _ _; (try dsimp only [F.FLT_MBIST_CTL_no_wait]); first | refine lies_FLT_MBIST_CTL ?_ | split) | exact all_skip_i | refine all_cons ?_ ?_ | exact all_nil | refine all_seq_i ?_ ?_ | refine all_read_i fun _ => ?_ | refine all_when_i ?_ | refine all_each_i fun _ => ?_ | refine all_ifSome_i fun _ => ?_ | split | dsimp only | contradiction

theorem fpCtlWrite_kinds (p : Nat) (capture clear : Bool) : Prog.All (Act.among 0x300000000000000000000000000000000000000000000000000000000C000) (fpCtlWrite p capture clear) := by
  unfold fpCtlWrite
  repeat' with_reducible first | refine all_leaf ?_ | (show within _ _ = true; with_unfolding_all exact rfl) | (show Act.among _ _; with_unfolding_all exact tb rfl) | refine (fpClear_kinds ..).mono ?_ | refine setF_kinds _ _ ?_ | (show Nat.testBit _ _ = true; exact tb rfl) | (show lies _ _; (try dsimp only [F.DIAG_FP_CTL_capture]); first | refine lies_DIAG_FP_CTL ?_ | split) | exact all_skip_i | refine all_cons ?_ ?_ | exact all_nil | refine all_seq_i ?_ ?_ | refine all_read_i fun _ => ?_ | refine all_when_i ?_ | refine all_each_i fun _ => ?_ | refine all_ifSome_i fun _ => ?_ | split | dsimp only | contradiction

theorem mbxCtlWrite_kinds (path m : Nat) (w : Word) : Prog.All (Act.among 0x14800000001480000000000000000000000000008400000000000000000000000000000140100010) (mbxCtlWrite path m w) := by
  unfold mbxCtlWrite
  repeat' with_reducible first | refine all_leaf ?_ | (show within _ _ = true; with_unfolding_all exact rfl) | (show Act.among _ _; with_unfolding_all exact tb rfl) | refine (mbxAbort_kinds ..).mono ?_ | refine (mbxAck_kinds ..).mono ?_ | refine (mbxPost_kinds ..).mono ?_ | exact all_skip_i | refine all_cons ?_ ?_ | exact all_nil | refine all_seq_i ?_ ?_ | refine all_read_i fun _ => ?_ | refine all_when_i ?_ | refine all_each_i fun _ => ?_ | refine all_ifSome_i fun _ => ?_ | split | dsimp only | contradiction

theorem ringCtlWrite_kinds (path q d en : Nat) : Prog.All (Act.among 0x1622C4000000000000000000000000000000010000000000000000000000000000000000000000000000000000000000000000000140300040) (ringCtlWrite path q d en) := by
  unfold ringCtlWrite
  repeat' with_reducible first | refine all_leaf ?_ | (show within _ _ = true; with_unfolding_all exact rfl) | (show Act.among _ _; with_unfolding_all exact tb rfl) | refine (denied_kinds ..).mono ?_ | refine (ringDisable_kinds ..).mono ?_ | refine (ringEnable_kinds ..).mono ?_ | exact all_skip_i | refine all_cons ?_ ?_ | exact all_nil | refine all_seq_i ?_ ?_ | refine all_read_i fun _ => ?_ | refine all_when_i ?_ | refine all_each_i fun _ => ?_ | refine all_ifSome_i fun _ => ?_ | split | dsimp only | contradiction

theorem wdogCfgWrite_kinds (lock timeout : Nat) : Prog.All (Act.among 0x80000000000000000000000000000) (wdogCfgWrite lock timeout) := by
  unfold wdogCfgWrite
  repeat' with_reducible first | refine all_leaf ?_ | (show within _ _ = true; with_unfolding_all exact rfl) | (show Act.among _ _; with_unfolding_all exact tb rfl) | refine setF_kinds _ _ ?_ | (show Nat.testBit _ _ = true; exact tb rfl) | (show lies _ _; (try dsimp only [F.FLT_WDOG_CFG_lock, F.FLT_WDOG_CFG_timeout_ms]); first | refine lies_FLT_WDOG_CFG ?_ | split) | exact all_skip_i | refine all_cons ?_ ?_ | exact all_nil | refine all_seq_i ?_ ?_ | refine all_read_i fun _ => ?_ | refine all_when_i ?_ | refine all_each_i fun _ => ?_ | refine all_ifSome_i fun _ => ?_ | split | dsimp only | contradiction

theorem wakeCfgWrite_kinds (retries spacing : Nat) : Prog.All (Act.among 0x800000000000000000000000000000000000000000000000000000000000000000000000000040000000) (wakeCfgWrite retries spacing) := by
  unfold wakeCfgWrite
  repeat' with_reducible first | refine all_leaf ?_ | (show within _ _ = true; with_unfolding_all exact rfl) | (show Act.among _ _; with_unfolding_all exact tb rfl) | refine (governorClamp_kinds ..).mono ?_ | refine setF_kinds _ _ ?_ | (show Nat.testBit _ _ = true; exact tb rfl) | (show lies _ _; (try dsimp only [F.MLD_GOV_WAKE_spacing_ms, F.WAKE_CFG_retries, F.WAKE_CFG_spacing_ms]); first | refine lies_WAKE_CFG ?_ | split) | exact all_skip_i | refine all_cons ?_ ?_ | exact all_nil | refine all_seq_i ?_ ?_ | refine all_read_i fun _ => ?_ | refine all_when_i ?_ | refine all_each_i fun _ => ?_ | refine all_ifSome_i fun _ => ?_ | split | dsimp only | contradiction

theorem latCfgWrite_kinds (threshold : Nat) (clear : Bool) : Prog.All (Act.among 0xF000000000000000000000000000000000000000000000000000000000000000000000012) (latCfgWrite threshold clear) := by
  unfold latCfgWrite
  repeat' with_reducible first | refine all_leaf ?_ | (show within _ _ = true; with_unfolding_all exact rfl) | (show Act.among _ _; with_unfolding_all exact tb rfl) | refine resetReg_kinds _ (by exact tb rfl) (by exact tb rfl) ?_ | refine setF_kinds _ _ ?_ | (show Nat.testBit _ _ = true; exact tb rfl) | (show lies _ _; (try dsimp only [F.PKT_LAT_CFG_threshold_ns]); first | refine lies_PKT_LAT_CFG ?_ | refine lies_PKT_LAT_MINMAX ?_ | refine lies_PKT_LAT_OVER ?_ | refine lies_PKT_LAT_MEASURED ?_ | split) | exact all_skip_i | refine all_cons ?_ ?_ | exact all_nil | refine all_seq_i ?_ ?_ | refine all_read_i fun _ => ?_ | refine all_when_i ?_ | refine all_each_i fun _ => ?_ | refine all_ifSome_i fun _ => ?_ | split | dsimp only | contradiction

theorem qualCfgWrite_kinds (p : Nat) (w : Word) : Prog.All (Act.among 0x2040000000000000000000000000000000000000000000000000000000000000000000000000000008000000000000052) (qualCfgWrite p w) := by
  unfold qualCfgWrite
  repeat' with_reducible first | refine all_leaf ?_ | (show within _ _ = true; with_unfolding_all exact rfl) | (show Act.among _ _; with_unfolding_all exact tb rfl) | refine raise_kinds _ _ (by exact tb rfl) ?_ | refine (storeWord_kinds ..).mono ?_ | refine (updPort_kinds ..).mono ?_ | (show Nat.testBit _ _ = true; exact tb rfl) | (show lies _ _; (try dsimp only [F.PORT_LINK_QUAL_sqi, F.PORT_QUAL_CFG_sqi_warn]); first | refine lies_PORT_QUAL_CFG ?_ | refine lies_PORT_EVENT ?_ | refine lies_any ?_ | split) | exact all_skip_i | refine all_cons ?_ ?_ | exact all_nil | refine all_seq_i ?_ ?_ | refine all_read_i fun _ => ?_ | refine all_when_i ?_ | refine all_each_i fun _ => ?_ | refine all_ifSome_i fun _ => ?_ | split | dsimp only | contradiction

theorem closed_kinds (s : State) (path off : Nat) (l : Loc) {p : Prog} (h : State.closed s path off l = some p) : Prog.All (Act.among 0x40000000) p := by
  revert h
  unfold State.closed
  dsimp only
  split <;> intro h <;> (try split at h) <;> cases h <;> repeat' with_reducible first | refine all_leaf ?_ | (show within _ _ = true; with_unfolding_all exact rfl) | (show Act.among _ _; with_unfolding_all exact tb rfl) | refine (denied_kinds ..).mono ?_ | exact all_skip_i | refine all_cons ?_ ?_ | exact all_nil | refine all_seq_i ?_ ?_ | refine all_read_i fun _ => ?_ | refine all_when_i ?_ | refine all_each_i fun _ => ?_ | refine all_ifSome_i fun _ => ?_ | split | dsimp only | contradiction

theorem lifecycleWrite_kinds (path key target : Nat) (go : Bool) : Prog.All (Act.among 0x240000000040040000) (lifecycleWrite path key target go) := by
  unfold lifecycleWrite
  repeat' with_reducible first | refine all_leaf ?_ | (show within _ _ = true; with_unfolding_all exact rfl) | (show Act.among _ _; with_unfolding_all exact tb rfl) | refine (denied_kinds ..).mono ?_ | refine setF_kinds _ _ ?_ | (show Nat.testBit _ _ = true; exact tb rfl) | (show lies _ _; (try dsimp only [F.GLB_LIFECYCLE_CTL_go, F.GLB_LIFECYCLE_CTL_result, F.GLB_LIFECYCLE_CTL_target, F.GLB_LIFECYCLE_state, F.GLB_LIFECYCLE_test_mode_seen]); first | refine lies_GLB_LIFECYCLE ?_ | refine lies_GLB_LIFECYCLE_CTL ?_ | split) | exact all_skip_i | refine all_cons ?_ ?_ | exact all_nil | refine all_seq_i ?_ ?_ | refine all_read_i fun _ => ?_ | refine all_when_i ?_ | refine all_each_i fun _ => ?_ | refine all_ifSome_i fun _ => ?_ | split | dsimp only | contradiction

theorem lifecycleFuseDone_kinds (verified : Bool) : Prog.All (Act.among 0x200000000000000000) (lifecycleFuseDone verified) := by
  unfold lifecycleFuseDone
  repeat' with_reducible first | refine all_leaf ?_ | (show within _ _ = true; with_unfolding_all exact rfl) | (show Act.among _ _; with_unfolding_all exact tb rfl) | refine setF_kinds _ _ ?_ | (show Nat.testBit _ _ = true; exact tb rfl) | (show lies _ _; (try dsimp only [F.GLB_LIFECYCLE_CTL_go, F.GLB_LIFECYCLE_CTL_result]); first | refine lies_GLB_LIFECYCLE_CTL ?_ | split) | exact all_skip_i | refine all_cons ?_ ?_ | exact all_nil | refine all_seq_i ?_ ?_ | refine all_read_i fun _ => ?_ | refine all_when_i ?_ | refine all_each_i fun _ => ?_ | refine all_ifSome_i fun _ => ?_ | split | dsimp only | contradiction

theorem attachWrite_kinds (h : Nat) (w : Word) : Prog.All (Act.among 0xFFFFFF220084300003CBF81800000409251489140000148003FB0000000C00000000000000840040400004000000008110000000034273B7D2) (attachWrite h w) := by
  unfold attachWrite
  repeat' with_reducible first | refine all_leaf ?_ | (show within _ _ = true; with_unfolding_all exact rfl) | (show Act.among _ _; with_unfolding_all exact tb rfl) | refine (attach_kinds ..).mono ?_ | refine (detach_kinds ..).mono ?_ | exact all_skip_i | refine all_cons ?_ ?_ | exact all_nil | refine all_seq_i ?_ ?_ | refine all_read_i fun _ => ?_ | refine all_when_i ?_ | refine all_each_i fun _ => ?_ | refine all_ifSome_i fun _ => ?_ | split | dsimp only | contradiction

theorem control_kinds (path off : Nat) (l : Loc) (w : Word) {p : Prog} (h : control path off l w = some p) : Prog.All (Act.among 0xFFFFFF2E3FFD7B3FF3FFFA7CF06FD78977F4999F4F0674851BFF0B3110EE3D6070FFDFD7F6FDA14ECDBBED6F5FFB3EF9BCC00000036FFFFFDE) p := by
  revert h
  unfold control
  dsimp only
  split <;> intro h <;> (try split at h) <;> cases h <;> repeat' with_reducible first | refine all_leaf ?_ | (show within _ _ = true; with_unfolding_all exact rfl) | (show Act.among _ _; with_unfolding_all exact tb rfl) | refine (adoptStart_kinds ..).mono ?_ | refine (annealCtlWrite_kinds ..).mono ?_ | refine (atcFlushWrite_kinds ..).mono ?_ | refine (attachWrite_kinds ..).mono ?_ | refine atticWrite_kinds.mono ?_ | refine (blockWrite_kinds ..).mono ?_ | refine (bundleRestart_kinds ..).mono ?_ | refine (celCfgWrite_kinds ..).mono ?_ | refine (celShareWrite_kinds ..).mono ?_ | refine (censusClear_kinds ..).mono ?_ | refine (checkerStart_kinds ..).mono ?_ | refine (chipWrite_kinds ..).mono ?_ | refine (clockSwitchWrite_kinds ..).mono ?_ | refine (commit_kinds ..).mono ?_ | refine (counterClear_kinds ..).mono ?_ | refine (domForceWrite_kinds ..).mono ?_ | refine (domReqWrite_kinds ..).mono ?_ | refine flashBookRelease_kinds.mono ?_ | refine flashBookRequest_kinds.mono ?_ | refine (flashErase_kinds ..).mono ?_ | refine (fpCtlWrite_kinds ..).mono ?_ | refine fspiFlush_kinds.mono ?_ | refine (gateWrite_kinds ..).mono ?_ | refine (hbKick_kinds ..).mono ?_ | refine (hbRestart_kinds ..).mono ?_ | refine (hostReqWrite_kinds ..).mono ?_ | refine (injectWrite_kinds ..).mono ?_ | refine (irqRearm_kinds ..).mono ?_ | refine (keeperReqWrite_kinds ..).mono ?_ | refine (keyProgStart_kinds ..).mono ?_ | refine (latCfgWrite_kinds ..).mono ?_ | refine (lgCtlWrite_kinds ..).mono ?_ | refine (lifecycleWrite_kinds ..).mono ?_ | refine logClear_kinds.mono ?_ | refine (loopCtlWrite_kinds ..).mono ?_ | refine (lrefSelect_kinds ..).mono ?_ | refine (mbistCtlWrite_kinds ..).mono ?_ | refine (mbxCtlWrite_kinds ..).mono ?_ | refine (mchDisable_kinds ..).mono ?_ | refine (mchDoorbell_kinds ..).mono ?_ | refine (mchEnable_kinds ..).mono ?_ | refine (modeReqWrite_kinds ..).mono ?_ | refine (mouldLoadStart_kinds ..).mono ?_ | refine (pllEnWrite_kinds ..).mono ?_ | refine (portCtlWrite_kinds ..).mono ?_ | refine (potSelftestStart_kinds ..).mono ?_ | refine (qualCfgWrite_kinds ..).mono ?_ | refine (recNextWrite_kinds ..).mono ?_ | refine recordRequest_kinds.mono ?_ | refine (refreshBundle_kinds ..).mono ?_ | refine (remouldCtlWrite_kinds ..).mono ?_ | refine (ringAck_kinds ..).mono ?_ | refine (ringCtlWrite_kinds ..).mono ?_ | refine (ringIrq_kinds ..).mono ?_ | refine setF_kinds _ _ ?_ | refine (slckSwitch_kinds ..).mono ?_ | refine startOk_kinds.mono ?_ | refine (storeWord_kinds ..).mono ?_ | refine (sweepCtlWrite_kinds ..).mono ?_ | refine (tapQueue_kinds ..).mono ?_ | refine (tapWrite_kinds ..).mono ?_ | refine (tbAdjust_kinds ..).mono ?_ | refine (tbStep_kinds ..).mono ?_ | refine (tdrCtlWrite_kinds ..).mono ?_ | refine (txAmpWrite_kinds ..).mono ?_ | refine (updCal_kinds ..).mono ?_ | refine (wakeCfgWrite_kinds ..).mono ?_ | refine (watchdogKick_kinds ..).mono ?_ | refine (wdogCfgWrite_kinds ..).mono ?_ | (show Nat.testBit _ _ = true; exact tb rfl) | (show lies _ _; (try dsimp only [F.AON_START_CTL_force_cold, F.BND_CTL_freeze, F.FLT_IRQ_REARM_rearm, F.MLD_ADOPT_CTL_slot, F.PORT_SEG_CENSUS_CTL_window_ms]); first | refine lies_FLT_IRQ_REARM ?_ | refine lies_MLD_ADOPT_CTL ?_ | refine lies_BND_CTL ?_ | refine lies_AON_START_CTL ?_ | refine lies_PORT_SEG_CENSUS_CTL ?_ | refine lies_any ?_ | split) | exact all_skip_i | refine all_cons ?_ ?_ | exact all_nil | refine all_seq_i ?_ ?_ | refine all_read_i fun _ => ?_ | refine all_when_i ?_ | refine all_each_i fun _ => ?_ | refine all_ifSome_i fun _ => ?_ | refine withFree_among ?_ fun _ => ?_ | (show Nat.testBit _ _ = true; exact tb rfl) | split | dsimp only | contradiction

theorem wideDone_kinds (o : Nat) (l : Loc) (shadow : Bool) (ws : List Word) : Prog.All (Act.among 0x424000000000000000008000000040001012) (wideDone o l shadow ws) := by
  unfold wideDone
  repeat' with_reducible first | refine all_leaf ?_ | (show within _ _ = true; with_unfolding_all exact rfl) | (show Act.among _ _; with_unfolding_all exact tb rfl) | refine (storeWord_kinds ..).mono ?_ | refine (tbSet_kinds ..).mono ?_ | (show Nat.testBit _ _ = true; exact tb rfl) | (show lies _ _; first | refine lies_any ?_ | split) | exact all_skip_i | refine all_cons ?_ ?_ | exact all_nil | refine all_seq_i ?_ ?_ | refine all_read_i fun _ => ?_ | refine all_when_i ?_ | refine all_each_i fun _ => ?_ | refine all_ifSome_i fun _ => ?_ | split | dsimp only | contradiction

theorem wideWrite_kinds (off : Nat) (l : Loc) (w : Word) : Prog.All (Act.among 0x42400000000000000000800000004000101A) (wideWrite off l w) := by
  unfold wideWrite
  repeat' with_reducible first | refine all_leaf ?_ | (show within _ _ = true; with_unfolding_all exact rfl) | (show Act.among _ _; with_unfolding_all exact tb rfl) | refine (wideDone_kinds ..).mono ?_ | (show Nat.testBit _ _ = true; exact tb rfl) | (show lies _ _; first | refine lies_any ?_ | split) | exact all_skip_i | refine all_cons ?_ ?_ | exact all_nil | refine all_seq_i ?_ ?_ | refine all_read_i fun _ => ?_ | refine all_when_i ?_ | refine all_each_i fun _ => ?_ | refine all_ifSome_i fun _ => ?_ | split | dsimp only | contradiction

theorem writeWord_kinds (path off : Nat) (w : Word) : Prog.All (Act.among 0xFFFFFF2E3FFD7B3FF3FFFA7CF06FD78977F4999F4F0674851BFF0B3110EE3D6070FFDFD7F6FDA14ECDBBED6F5FFB3EF9BCC00000036FFFFFDE) (writeWord path off w) := by
  unfold writeWord
  repeat' with_reducible first | refine all_leaf ?_ | (show within _ _ = true; with_unfolding_all exact rfl) | (show Act.among _ _; with_unfolding_all exact tb rfl) | refine setReg_kinds _ _ ?_ | refine sqWriteBack_kinds _ _ _ (by exact tb rfl) ?_ | refine (storeWord_kinds ..).mono ?_ | refine (wideWrite_kinds ..).mono ?_ | exact (closed_kinds _ _ _ _ (by assumption)).mono (by with_unfolding_all exact rfl) | exact (control_kinds _ _ _ _ (by assumption)).mono (by with_unfolding_all exact rfl) | (show Nat.testBit _ _ = true; exact tb rfl) | (show lies _ _; first | refine lies_any ?_ | split) | exact all_skip_i | refine all_cons ?_ ?_ | exact all_nil | refine all_seq_i ?_ ?_ | refine all_read_i fun _ => ?_ | refine all_when_i ?_ | refine all_each_i fun _ => ?_ | refine all_ifSome_i fun _ => ?_ | split | dsimp only | contradiction

theorem acWrite_kinds (path off : Nat) (w : Word) : Prog.All (Act.among 0x40000020) (acWrite path off w) := by
  unfold acWrite
  repeat' with_reducible first | refine all_leaf ?_ | (show within _ _ = true; with_unfolding_all exact rfl) | (show Act.among _ _; with_unfolding_all exact tb rfl) | refine (denied_kinds ..).mono ?_ | exact all_skip_i | refine all_cons ?_ ?_ | exact all_nil | refine all_seq_i ?_ ?_ | refine all_read_i fun _ => ?_ | refine all_when_i ?_ | refine all_each_i fun _ => ?_ | refine all_ifSome_i fun _ => ?_ | split | dsimp only | contradiction

theorem grantedWrite_kinds (path off : Nat) (w : Word) : Prog.All (Act.among 0xFFFFFF2E3FFD7B3FF3FFFA7CF06FD78977F4999F4F0674851BFF0B3110EE3D6070FFDFD7F6FDA14ECDBBED6F5FFB3EF9BCC00000036FFFFFFE) (grantedWrite path off w) := by
  unfold grantedWrite
  repeat' with_reducible first | refine all_leaf ?_ | (show within _ _ = true; with_unfolding_all exact rfl) | (show Act.among _ _; with_unfolding_all exact tb rfl) | refine (acWrite_kinds ..).mono ?_ | refine (writeWord_kinds ..).mono ?_ | (show Nat.testBit _ _ = true; exact tb rfl) | (show lies _ _; first | refine lies_any ?_ | split) | exact all_skip_i | refine all_cons ?_ ?_ | exact all_nil | refine all_seq_i ?_ ?_ | refine all_read_i fun _ => ?_ | refine all_when_i ?_ | refine all_each_i fun _ => ?_ | refine all_ifSome_i fun _ => ?_ | split | dsimp only | contradiction

theorem regWrite_kinds (path off : Nat) (w : Word) : Prog.All (Act.among 0xFFFFFF2E3FFD7B3FF3FFFA7CF06FD78977F4999F4F0674851BFF0B3110EE3D6070FFDFD7F6FDA14ECDBBED6F5FFB3EF9BCC00000036FFFFFFE) (regWrite path off w) := by
  unfold regWrite
  repeat' with_reducible first | refine all_leaf ?_ | (show within _ _ = true; with_unfolding_all exact rfl) | (show Act.among _ _; with_unfolding_all exact tb rfl) | refine access_kinds (K := _) ?_ _ _ _ ?_ | refine (grantedWrite_kinds ..).mono ?_ | (show Nat.testBit _ _ = true; exact tb rfl) | (show lies _ _; first | refine lies_any ?_ | split) | exact all_skip_i | refine all_cons ?_ ?_ | exact all_nil | refine all_seq_i ?_ ?_ | refine all_read_i fun _ => ?_ | refine all_when_i ?_ | refine all_each_i fun _ => ?_ | refine all_ifSome_i fun _ => ?_ | intro _ | split | dsimp only | contradiction

theorem acWriteLand_kinds : Prog.All (Act.among 0xFFFFFF2E3FFD7B3FF3FFFA7CF06FD78977F4999F4F0674851BFF0B3110EE3D6070FFDFD7F6FDA14ECDBBED6F5FFB3EF9BCC00000036FFFFFFE) (acWriteLand) := by
  unfold acWriteLand
  repeat' with_reducible first | refine all_leaf ?_ | (show within _ _ = true; with_unfolding_all exact rfl) | (show Act.among _ _; with_unfolding_all exact tb rfl) | refine wakeLand_kinds.mono ?_ | refine (writeWord_kinds ..).mono ?_ | (show Nat.testBit _ _ = true; exact tb rfl) | (show lies _ _; first | refine lies_any ?_ | split) | exact all_skip_i | refine all_cons ?_ ?_ | exact all_nil | refine all_seq_i ?_ ?_ | refine all_read_i fun _ => ?_ | refine all_when_i ?_ | refine all_each_i fun _ => ?_ | refine all_ifSome_i fun _ => ?_ | split | dsimp only | contradiction

theorem voteField_kinds (off : Nat) (f : FieldRow) (c : Word × Word × Word) : Prog.All (Act.among 0xFFFFFF22009C300003CBF818800804092500010000000080003F0800000C20000000000000040040400000200001000010800000034A63B7D2) (voteField off f c) := by
  unfold voteField
  repeat' with_reducible first | refine all_leaf ?_ | (show within _ _ = true; with_unfolding_all exact rfl) | (show Act.among _ _; with_unfolding_all exact tb rfl) | refine (collectorSelf_kinds ..).mono ?_ | refine (emit_kinds ..).mono ?_ | refine setF_kinds _ _ ?_ | (show Nat.testBit _ _ = true; exact tb rfl) | (show lies _ _; first | refine lies_any ?_ | split) | exact all_skip_i | refine all_cons ?_ ?_ | exact all_nil | refine all_seq_i ?_ ?_ | refine all_read_i fun _ => ?_ | refine all_when_i ?_ | refine all_each_i fun _ => ?_ | refine all_ifSome_i fun _ => ?_ | refine withFree_among ?_ fun _ => ?_ | (show Nat.testBit _ _ = true; exact tb rfl) | split | dsimp only | contradiction

theorem vote_kinds (off : Nat) (u : Word × Word × Word) : Prog.All (Act.among 0xFFFFFF22009C300003CBF818800804092500010000000080003F0800000C20000000000000040040400000200001000010800000034A63B7D6) (vote off u) := by
  unfold vote
  repeat' with_reducible first | refine all_leaf ?_ | (show within _ _ = true; with_unfolding_all exact rfl) | (show Act.among _ _; with_unfolding_all exact tb rfl) | refine (voteField_kinds ..).mono ?_ | (show Nat.testBit _ _ = true; exact tb rfl) | (show lies _ _; first | refine lies_any ?_ | split) | exact all_skip_i | refine all_cons ?_ ?_ | exact all_nil | refine all_seq_i ?_ ?_ | refine all_read_i fun _ => ?_ | refine all_when_i ?_ | refine all_each_i fun _ => ?_ | refine all_ifSome_i fun _ => ?_ | split | dsimp only | contradiction

theorem tmrScrub_kinds (off : Nat) (u : Word × Word × Word) : Prog.All (Act.among 0xFFFFFF22009C300003CBF818800804092500010000000080003F0800000C20000000000000040040400000200001000010800000034A63B7D6) (tmrScrub off u) := by
  unfold tmrScrub
  repeat' with_reducible first | refine all_leaf ?_ | (show within _ _ = true; with_unfolding_all exact rfl) | (show Act.among _ _; with_unfolding_all exact tb rfl) | refine (vote_kinds ..).mono ?_ | (show Nat.testBit _ _ = true; exact tb rfl) | (show lies _ _; first | refine lies_any ?_ | split) | exact all_skip_i | refine all_cons ?_ ?_ | exact all_nil | refine all_seq_i ?_ ?_ | refine all_read_i fun _ => ?_ | refine all_when_i ?_ | refine all_each_i fun _ => ?_ | refine all_ifSome_i fun _ => ?_ | split | dsimp only | contradiction

theorem fetch_kinds {K : Nat} (hK : within 0xFFFFFF22009C300003CBF818800804092500010000000080003F0800000C20000000000000040040400000200001000010800000034A63B7DE K = true) (path off : Nat) (u : Word × Word × Word) (k : Word → Bool → Prog) (h_k : ∀ v0 v1, Prog.All (Act.among K) (k v0 v1)) : Prog.All (Act.among K) (fetch path off u k) := by
  unfold fetch
  repeat' with_reducible first | refine all_leaf ?_ | (show Act.among _ _; with_unfolding_all exact testBit_within hK (tb rfl)) | exact within_trans (by with_unfolding_all exact rfl) hK | exact h_k _ _ | refine (accessOff_kinds ..).mono ?_ | refine (denied_kinds ..).mono ?_ | refine readWord_kinds (K := _) ?_ _ _ _ ?_ | refine (vote_kinds ..).mono ?_ | (show Nat.testBit _ _ = true; exact testBit_within hK (tb rfl)) | (show lies _ _; first | refine lies_any ?_ | split) | exact all_skip_i | refine all_cons ?_ ?_ | exact all_nil | refine all_seq_i ?_ ?_ | refine all_read_i fun _ => ?_ | refine all_when_i ?_ | refine all_each_i fun _ => ?_ | refine all_ifSome_i fun _ => ?_ | intro _ | split | dsimp only | contradiction

theorem regRead_kinds (path off : Nat) (u : Word × Word × Word) : Prog.All (Act.among 0xFFFFFF22009C300003CBF818800804092500010000000080003F0800000C20000000000000040040400000200001000010800000034A63B7DE) (regRead path off u) := by
  unfold regRead
  repeat' with_reducible first | refine all_leaf ?_ | (show within _ _ = true; with_unfolding_all exact rfl) | (show Act.among _ _; with_unfolding_all exact tb rfl) | refine fetch_kinds (K := _) ?_ _ _ _ _ ?_ | refine (send_kinds ..).mono ?_ | (show Nat.testBit _ _ = true; exact tb rfl) | (show lies _ _; first | refine lies_any ?_ | split) | exact all_skip_i | refine all_cons ?_ ?_ | exact all_nil | refine all_seq_i ?_ ?_ | refine all_read_i fun _ => ?_ | refine all_when_i ?_ | refine all_each_i fun _ => ?_ | refine all_ifSome_i fun _ => ?_ | intro _ | split | dsimp only | contradiction

theorem frameEnds_kinds (miso : List Byte) (words : Nat) (reasons : List Nat) : Prog.All (Act.among 0x60000000000000000000000000000000000000000000000000000000000320000000) (frameEnds miso words reasons) := by
  unfold frameEnds
  repeat' with_reducible first | refine all_leaf ?_ | (show within _ _ = true; with_unfolding_all exact rfl) | (show Act.among _ _; with_unfolding_all exact tb rfl) | refine satAdd_kinds _ _ ?_ | refine (send_kinds ..).mono ?_ | refine setF_kinds _ _ ?_ | refine wrapAdd_kinds _ _ ?_ | (show Nat.testBit _ _ = true; exact tb rfl) | (show lies _ _; (try dsimp only [F.HSPI_COUNT_frames, F.HSPI_COUNT_rejected, F.HSPI_LAST_reason, F.HSPI_LAST_words]); first | refine lies_HSPI_LAST ?_ | refine lies_HSPI_COUNT ?_ | split) | exact all_skip_i | refine all_cons ?_ ?_ | exact all_nil | refine all_seq_i ?_ ?_ | refine all_read_i fun _ => ?_ | refine all_when_i ?_ | refine all_each_i fun _ => ?_ | refine all_ifSome_i fun _ => ?_ | refine withFree_among ?_ fun _ => ?_ | (show Nat.testBit _ _ = true; exact tb rfl) | split | dsimp only | contradiction

theorem fetchWords_kinds {K : Nat} (hK : within 0xFFFFFF22009C300003CBF818800804092500010000000080003F0800000C20000000000000040040400000200001000010800000034A63B7DE K = true) (n a : Nat) (ups : List (Word × Word × Word)) (k : List (Word × Bool) → Prog)
    (h_k : ∀ l, Prog.All (Act.among K) (k l)) : Prog.All (Act.among K) (fetchWords n a ups k) := by
  induction n generalizing a ups k with
  | zero => exact h_k _
  | succ n ih => unfold fetchWords; repeat' with_reducible first | refine all_leaf ?_ | (show Act.among _ _; with_unfolding_all exact testBit_within hK (tb rfl)) | exact within_trans (by with_unfolding_all exact rfl) hK | exact h_k _ | refine ih _ _ _ fun _ => ?_ | refine fetch_kinds (K := _) ?_ _ _ _ _ ?_ | (show Nat.testBit _ _ = true; exact testBit_within hK (tb rfl)) | (show lies _ _; first | refine lies_any ?_ | split) | exact all_skip_i | refine all_cons ?_ ?_ | exact all_nil | refine all_seq_i ?_ ?_ | refine all_read_i fun _ => ?_ | refine all_when_i ?_ | refine all_each_i fun _ => ?_ | refine all_ifSome_i fun _ => ?_ | intro _ | split | dsimp only | contradiction

theorem readFrame_kinds (crc : Bool) (a clocked : Nat) (done ahead : Bool) (ups : List (Word × Word × Word)) : Prog.All (Act.among 0xFFFFFF22009C300003CBF8188008040925000100000000E0003F0800000C20000000000000040040400000200001000010800000036A63B7DE) (readFrame crc a clocked done ahead ups) := by
  unfold readFrame
  repeat' with_reducible first | refine all_leaf ?_ | (show within _ _ = true; with_unfolding_all exact rfl) | (show Act.among _ _; with_unfolding_all exact tb rfl) | refine fetchWords_kinds (K := _) ?_ _ _ _ _ ?_ | refine (frameEnds_kinds ..).mono ?_ | (show Nat.testBit _ _ = true; exact tb rfl) | (show lies _ _; first | refine lies_any ?_ | split) | exact all_skip_i | refine all_cons ?_ ?_ | exact all_nil | refine all_seq_i ?_ ?_ | refine all_read_i fun _ => ?_ | refine all_when_i ?_ | refine all_each_i fun _ => ?_ | refine all_ifSome_i fun _ => ?_ | intro _ | split | dsimp only | contradiction

theorem writeEnds_kinds (cmd : Byte) (crc : Bool) (bytes : List Byte) (midByte : Bool) : Prog.All (Act.among 0x60000000000000000000000000000000000000000000000000000000000320000000) (writeEnds cmd crc bytes midByte) := by
  unfold writeEnds
  repeat' with_reducible first | refine all_leaf ?_ | (show within _ _ = true; with_unfolding_all exact rfl) | (show Act.among _ _; with_unfolding_all exact tb rfl) | refine (frameEnds_kinds ..).mono ?_ | exact all_skip_i | refine all_cons ?_ ?_ | exact all_nil | refine all_seq_i ?_ ?_ | refine all_read_i fun _ => ?_ | refine all_when_i ?_ | refine all_each_i fun _ => ?_ | refine all_ifSome_i fun _ => ?_ | split | dsimp only | contradiction

theorem statusFrame_kinds (clocked : Nat) (reasons : List Nat) : Prog.All (Act.among 0x60000000000000000000000000000000000000000000000000000000000320000000) (statusFrame clocked reasons) := by
  unfold statusFrame
  repeat' with_reducible first | refine all_leaf ?_ | (show within _ _ = true; with_unfolding_all exact rfl) | (show Act.among _ _; with_unfolding_all exact tb rfl) | refine (frameEnds_kinds ..).mono ?_ | exact all_skip_i | refine all_cons ?_ ?_ | exact all_nil | refine all_seq_i ?_ ?_ | refine all_read_i fun _ => ?_ | refine all_when_i ?_ | refine all_each_i fun _ => ?_ | refine all_ifSome_i fun _ => ?_ | split | dsimp only | contradiction

theorem framed_kinds {K : Nat} (hK : within 0x0 K = true) (p : Prog) (h_p : Prog.All (Act.among K) (p)) : Prog.All (Act.among K) (framed p) := by
  unfold framed
  repeat' with_reducible first | refine all_leaf ?_ | (show Act.among _ _; with_unfolding_all exact testBit_within hK (tb rfl)) | exact within_trans (by with_unfolding_all exact rfl) hK | exact h_p | exact all_skip_i | refine all_cons ?_ ?_ | exact all_nil | refine all_seq_i ?_ ?_ | refine all_read_i fun _ => ?_ | refine all_when_i ?_ | refine all_each_i fun _ => ?_ | refine all_ifSome_i fun _ => ?_ | split | dsimp only | contradiction

theorem outsideSafe_kinds {K : Nat} (hK : within 0x0 K = true) (p : Prog) (h_p : Prog.All (Act.among K) (p)) : Prog.All (Act.among K) (outsideSafe p) := by
  unfold outsideSafe
  repeat' with_reducible first | refine all_leaf ?_ | (show Act.among _ _; with_unfolding_all exact testBit_within hK (tb rfl)) | exact within_trans (by with_unfolding_all exact rfl) hK | exact h_p | exact all_skip_i | refine all_cons ?_ ?_ | exact all_nil | refine all_seq_i ?_ ?_ | refine all_read_i fun _ => ?_ | refine all_when_i ?_ | refine all_each_i fun _ => ?_ | refine all_ifSome_i fun _ => ?_ | split | dsimp only | contradiction

theorem inFactory_kinds {K : Nat} (hK : within 0x40000000 K = true) (c off : Nat) (p : Prog) (h_p : Prog.All (Act.among K) (p)) : Prog.All (Act.among K) (inFactory c off p) := by
  unfold inFactory
  repeat' with_reducible first | refine all_leaf ?_ | (show Act.among _ _; with_unfolding_all exact testBit_within hK (tb rfl)) | exact within_trans (by with_unfolding_all exact rfl) hK | exact h_p | refine (denied_kinds ..).mono ?_ | exact all_skip_i | refine all_cons ?_ ?_ | exact all_nil | refine all_seq_i ?_ ?_ | refine all_read_i fun _ => ?_ | refine all_when_i ?_ | refine all_each_i fun _ => ?_ | refine all_ifSome_i fun _ => ?_ | split | dsimp only | contradiction

end Sys2Proof.Machine
end

