-- ==== Sys2Proof/Laws/Touch.lean ====
section
/-!
SUPPORT. What a program leaves as it was, from the kinds of its actions: registers outside the tables of its mask, parts of
the state whose bit its mask does not have. What it emits and sends is only added.
-/
set_option Elab.async false
namespace Sys2Proof.Machine

set_option linter.unusedTactic false
set_option linter.unreachableTactic false

/-- The bit of a part in the masks of `Act.among`. -/
def Part.bit : Part → Nat
  | .shadows => 1 | .votes => 2 | .wide => 3 | .windows => 4 | .aonQueue => 5 | .ports => 6 | .canes => 7 | .bundles => 8
  | .furnace => 9 | .ledger => 10 | .mould => 11 | .timebase => 12 | .calibration => 13 | .diagnostics => 14 | .flash => 15
  | .sram => 16 | .cellar => 17 | .otp => 18 | .commits => 19 | .heads => 20 | .rings => 21 | .channels => 22 | .fills => 23
  | .flashPort => 24 | .power => 25 | .clocks => 26 | .collector => 27 | .pins => 28 | .frames => 29 | .messages => 30
  | .sent => 32 | .draws => 33

variable {K : Nat} {p : Prog} {s : State}

/-- A part that no action of the mask is about is as before. -/
theorem run_part {α : Type} (f : State → α) (n : Nat) (hn : K.testBit n = false)
    (hf : ∀ a t, (K.testBit n = true → False) → a.among K → f (apply a t) = f t) (hp : Prog.All (Act.among K) p) (s : State) :
    f (run p s) = f s :=
  run_frame f (fun a t ha => hf a t (by simp [hn]) ha) p hp s

theorem run_staged_of (hp : Prog.All (Act.among K) p) (h : K.testBit 1 = false) : (run p s).staged = s.staged :=
  run_part (·.staged) 1 h (fun a t hn ha => by cases a <;> first | rfl | exact absurd ha hn | (simp only [apply]; split <;> first | rfl | exact absurd ha hn)) hp s
theorem run_undo_of (hp : Prog.All (Act.among K) p) (h : K.testBit 1 = false) : (run p s).undo = s.undo :=
  run_part (·.undo) 1 h (fun a t hn ha => by cases a <;> first | rfl | exact absurd ha hn | (simp only [apply]; split <;> first | rfl | exact absurd ha hn)) hp s
theorem run_undoBlocks_of (hp : Prog.All (Act.among K) p) (h : K.testBit 1 = false) : (run p s).undoBlocks = s.undoBlocks :=
  run_part (·.undoBlocks) 1 h (fun a t hn ha => by cases a <;> first | rfl | exact absurd ha hn | (simp only [apply]; split <;> first | rfl | exact absurd ha hn)) hp s
theorem run_snaps_of (hp : Prog.All (Act.among K) p) (h : K.testBit 3 = false) : (run p s).snaps = s.snaps :=
  run_part (·.snaps) 3 h (fun a t hn ha => by cases a <;> first | rfl | exact absurd ha hn | (simp only [apply]; split <;> first | rfl | exact absurd ha hn)) hp s
theorem run_held_of (hp : Prog.All (Act.among K) p) (h : K.testBit 3 = false) : (run p s).held = s.held :=
  run_part (·.held) 3 h (fun a t hn ha => by cases a <;> first | rfl | exact absurd ha hn | (simp only [apply]; split <;> first | rfl | exact absurd ha hn)) hp s
theorem run_sqWin_of (hp : Prog.All (Act.among K) p) (h : K.testBit 4 = false) : (run p s).sqWin = s.sqWin :=
  run_part (·.sqWin) 4 h (fun a t hn ha => by cases a <;> first | rfl | exact absurd ha hn | (simp only [apply]; split <;> first | rfl | exact absurd ha hn)) hp s
theorem run_acQueue_of (hp : Prog.All (Act.among K) p) (h : K.testBit 5 = false) : (run p s).acQueue = s.acQueue :=
  run_part (·.acQueue) 5 h (fun a t hn ha => by cases a <;> first | rfl | exact absurd ha hn | (simp only [apply]; split <;> first | rfl | exact absurd ha hn)) hp s
theorem run_acCopy_of (hp : Prog.All (Act.among K) p) (h : K.testBit 5 = false) : (run p s).acCopy = s.acCopy :=
  run_part (·.acCopy) 5 h (fun a t hn ha => by cases a <;> first | rfl | exact absurd ha hn | (simp only [apply]; split <;> first | rfl | exact absurd ha hn)) hp s
theorem run_ports_of (hp : Prog.All (Act.among K) p) (h : K.testBit 6 = false) : (run p s).ports = s.ports :=
  run_part (·.ports) 6 h (fun a t hn ha => by cases a <;> first | rfl | exact absurd ha hn | (simp only [apply]; split <;> first | rfl | exact absurd ha hn)) hp s
theorem run_canes_of (hp : Prog.All (Act.among K) p) (h : K.testBit 7 = false) : (run p s).canes = s.canes :=
  run_part (·.canes) 7 h (fun a t hn ha => by cases a <;> first | rfl | exact absurd ha hn | (simp only [apply]; split <;> first | rfl | exact absurd ha hn)) hp s
theorem run_bnds_of (hp : Prog.All (Act.among K) p) (h : K.testBit 8 = false) : (run p s).bnds = s.bnds :=
  run_part (·.bnds) 8 h (fun a t hn ha => by cases a <;> first | rfl | exact absurd ha hn | (simp only [apply]; split <;> first | rfl | exact absurd ha hn)) hp s
theorem run_fur_of (hp : Prog.All (Act.among K) p) (h : K.testBit 9 = false) : (run p s).fur = s.fur :=
  run_part (·.fur) 9 h (fun a t hn ha => by cases a <;> first | rfl | exact absurd ha hn | (simp only [apply]; split <;> first | rfl | exact absurd ha hn)) hp s
theorem run_ledger_of (hp : Prog.All (Act.among K) p) (h : K.testBit 10 = false) : (run p s).ledger = s.ledger :=
  run_part (·.ledger) 10 h (fun a t hn ha => by cases a <;> first | rfl | exact absurd ha hn | (simp only [apply]; split <;> first | rfl | exact absurd ha hn)) hp s
theorem run_mld_of (hp : Prog.All (Act.among K) p) (h : K.testBit 11 = false) : (run p s).mld = s.mld :=
  run_part (·.mld) 11 h (fun a t hn ha => by cases a <;> first | rfl | exact absurd ha hn | (simp only [apply]; split <;> first | rfl | exact absurd ha hn)) hp s
theorem run_tb_of (hp : Prog.All (Act.among K) p) (h : K.testBit 12 = false) : (run p s).tb = s.tb :=
  run_part (·.tb) 12 h (fun a t hn ha => by cases a <;> first | rfl | exact absurd ha hn | (simp only [apply]; split <;> first | rfl | exact absurd ha hn)) hp s
theorem run_cal_of (hp : Prog.All (Act.among K) p) (h : K.testBit 13 = false) : (run p s).cal = s.cal :=
  run_part (·.cal) 13 h (fun a t hn ha => by cases a <;> first | rfl | exact absurd ha hn | (simp only [apply]; split <;> first | rfl | exact absurd ha hn)) hp s
theorem run_diag_of (hp : Prog.All (Act.among K) p) (h : K.testBit 14 = false) : (run p s).diag = s.diag :=
  run_part (·.diag) 14 h (fun a t hn ha => by cases a <;> first | rfl | exact absurd ha hn | (simp only [apply]; split <;> first | rfl | exact absurd ha hn)) hp s
theorem run_flash_of (hp : Prog.All (Act.among K) p) (h : K.testBit 15 = false) : (run p s).flash = s.flash :=
  run_part (·.flash) 15 h (fun a t hn ha => by cases a <;> first | rfl | exact absurd ha hn | (simp only [apply]; split <;> first | rfl | exact absurd ha hn)) hp s
theorem run_sram_of (hp : Prog.All (Act.among K) p) (h : K.testBit 16 = false) : (run p s).sram = s.sram :=
  run_part (·.sram) 16 h (fun a t hn ha => by cases a <;> first | rfl | exact absurd ha hn | (simp only [apply]; split <;> first | rfl | exact absurd ha hn)) hp s
theorem run_cellar_of (hp : Prog.All (Act.among K) p) (h : K.testBit 17 = false) : (run p s).cellar = s.cellar :=
  run_part (·.cellar) 17 h (fun a t hn ha => by cases a <;> first | rfl | exact absurd ha hn | (simp only [apply]; split <;> first | rfl | exact absurd ha hn)) hp s
theorem run_otp_of (hp : Prog.All (Act.among K) p) (h : K.testBit 18 = false) : (run p s).otp = s.otp :=
  run_part (·.otp) 18 h (fun a t hn ha => by cases a <;> first | rfl | exact absurd ha hn | (simp only [apply]; split <;> first | rfl | exact absurd ha hn)) hp s
theorem run_commit_of (hp : Prog.All (Act.among K) p) (h : K.testBit 19 = false) : (run p s).commit = s.commit :=
  run_part (·.commit) 19 h (fun a t hn ha => by cases a <;> first | rfl | exact absurd ha hn | (simp only [apply]; split <;> first | rfl | exact absurd ha hn)) hp s
theorem run_heads_of (hp : Prog.All (Act.among K) p) (h : K.testBit 20 = false) : (run p s).heads = s.heads :=
  run_part (·.heads) 20 h (fun a t hn ha => by cases a <;> first | rfl | exact absurd ha hn | (simp only [apply]; split <;> first | rfl | exact absurd ha hn)) hp s
theorem run_rings_of (hp : Prog.All (Act.among K) p) (h : K.testBit 21 = false) : (run p s).rings = s.rings :=
  run_part (·.rings) 21 h (fun a t hn ha => by cases a <;> first | rfl | exact absurd ha hn | (simp only [apply]; split <;> first | rfl | exact absurd ha hn)) hp s
theorem run_chans_of (hp : Prog.All (Act.among K) p) (h : K.testBit 22 = false) : (run p s).chans = s.chans :=
  run_part (·.chans) 22 h (fun a t hn ha => by cases a <;> first | rfl | exact absurd ha hn | (simp only [apply]; split <;> first | rfl | exact absurd ha hn)) hp s
theorem run_filled_of (hp : Prog.All (Act.among K) p) (h : K.testBit 23 = false) : (run p s).filled = s.filled :=
  run_part (·.filled) 23 h (fun a t hn ha => by cases a <;> first | rfl | exact absurd ha hn | (simp only [apply]; split <;> first | rfl | exact absurd ha hn)) hp s
theorem run_fport_of (hp : Prog.All (Act.among K) p) (h : K.testBit 24 = false) : (run p s).fport = s.fport :=
  run_part (·.fport) 24 h (fun a t hn ha => by cases a <;> first | rfl | exact absurd ha hn | (simp only [apply]; split <;> first | rfl | exact absurd ha hn)) hp s
theorem run_power_of (hp : Prog.All (Act.among K) p) (h : K.testBit 25 = false) : (run p s).power = s.power :=
  run_part (·.power) 25 h (fun a t hn ha => by cases a <;> first | rfl | exact absurd ha hn | (simp only [apply]; split <;> first | rfl | exact absurd ha hn)) hp s
theorem run_clock_of (hp : Prog.All (Act.among K) p) (h : K.testBit 26 = false) : (run p s).clock = s.clock :=
  run_part (·.clock) 26 h (fun a t hn ha => by cases a <;> first | rfl | exact absurd ha hn | (simp only [apply]; split <;> first | rfl | exact absurd ha hn)) hp s
theorem run_fault_of (hp : Prog.All (Act.among K) p) (h : K.testBit 27 = false) : (run p s).fault = s.fault :=
  run_part (·.fault) 27 h (fun a t hn ha => by cases a <;> first | rfl | exact absurd ha hn | (simp only [apply]; split <;> first | rfl | exact absurd ha hn)) hp s
theorem run_pins_of (hp : Prog.All (Act.among K) p) (h : K.testBit 28 = false) : (run p s).pins = s.pins :=
  run_part (·.pins) 28 h (fun a t hn ha => by cases a <;> first | rfl | exact absurd ha hn | (simp only [apply]; split <;> first | rfl | exact absurd ha hn)) hp s
theorem run_spiRejected_of (hp : Prog.All (Act.among K) p) (h : K.testBit 29 = false) : (run p s).spiRejected = s.spiRejected :=
  run_part (·.spiRejected) 29 h (fun a t hn ha => by cases a <;> first | rfl | exact absurd ha hn | (simp only [apply]; split <;> first | rfl | exact absurd ha hn)) hp s
theorem run_out_of (hp : Prog.All (Act.among K) p) (h : K.testBit 32 = false) : (run p s).out = s.out :=
  run_part (·.out) 32 h (fun a t hn ha => by cases a <;> first | rfl | exact absurd ha hn | (simp only [apply]; split <;> first | rfl | exact absurd ha hn)) hp s
theorem run_free_of (hp : Prog.All (Act.among K) p) (h : K.testBit 33 = false) : (run p s).free = s.free :=
  run_part (·.free) 33 h (fun a t hn ha => by cases a <;> first | rfl | exact absurd ha hn | (simp only [apply]; split <;> first | rfl | exact absurd ha hn)) hp s
theorem run_intake_of (hp : Prog.All (Act.among K) p) (h : K.testBit 30 = false) (h' : K.testBit 31 = false) : (run p s).intake = s.intake :=
  run_frame (·.intake) (fun a t ha => by
    have hn : ¬ K.testBit 30 = true := by simp [h]
    have hn' : ¬ K.testBit 31 = true := by simp [h']
    cases a <;> first | rfl | exact absurd ha hn | exact absurd ha hn' | (simp only [apply]; split <;> rfl)) p hp s

theorem tv_apply (a : Act) (t : State) (ht : t.tv.sorted = true) (hn : K.testBit 2 = false) (ha : a.among K) (off : Nat) :
    (apply a t).tv.sorted = true ∧ ((apply a t).tv.get? off = t.tv.get? off ∨ (apply a t).tv.get? off = none) := by
  have hn' : ¬ K.testBit 2 = true := by simp [hn]
  cases a
  case reg o w =>
    refine ⟨SMap.sorted_del _ _ ht, ?_⟩
    by_cases e : off = o
    · subst e; exact .inr (SMap.get?_del_same _ _ ht)
    · exact .inl (SMap.get?_del_ne _ e ht)
  case tvSet => exact absurd ha hn'
  case tvClear => exact absurd ha hn'
  all_goals first
    | exact ⟨ht, .inl rfl⟩
    | (simp only [apply]; split <;> exact ⟨ht, .inl rfl⟩)

theorem run_tv_of (hp : Prog.All (Act.among K) p) (h : K.testBit 2 = false) (ht : s.tv.sorted = true) (off : Nat) :
    (run p s).tv.get? off = s.tv.get? off ∨ (run p s).tv.get? off = none := by
  refine (run_keeps (C := Act.among K) (P := fun t => t.tv.sorted = true ∧ (t.tv.get? off = s.tv.get? off ∨ t.tv.get? off = none)) ?_ p hp s
    ⟨ht, .inl rfl⟩).2
  intro a t ha hs
  have h1 := tv_apply a t hs.1 h ha off
  refine ⟨h1.1, ?_⟩
  rcases h1.2 with e | e
  · rw [e]; exact hs.2
  · exact .inr e

theorem ok_tv {s : State} (h : s.ok = true) : s.tv.sorted = true := by
  have := State.ok_maps h
  simp only [State.mapsOk, Bool.and_eq_true] at this
  tauto

/-- The parts that a program leaves as they were. -/
theorem run_keeps_parts (hp : Prog.All (Act.among K) p) (hs : s.ok = true) (parts : List Part) (ht : K.testBit 31 = false)
    (h : ∀ q : Part, q ∉ parts → K.testBit q.bit = false) : Keeps parts s (run p s) := by
  refine ⟨run_pending p s, run_now p s, fun q hq => ?_⟩
  have hb := h q hq
  cases q
  case shadows => exact ⟨run_staged_of hp hb, run_undo_of hp hb, run_undoBlocks_of hp hb⟩
  case votes => exact fun off => run_tv_of hp hb (ok_tv hs) off
  case wide => exact ⟨run_snaps_of hp hb, run_held_of hp hb⟩
  case windows => exact run_sqWin_of hp hb
  case aonQueue => exact ⟨run_acQueue_of hp hb, run_acCopy_of hp hb⟩
  case ports => exact run_ports_of hp hb
  case canes => exact run_canes_of hp hb
  case bundles => exact run_bnds_of hp hb
  case furnace => exact run_fur_of hp hb
  case ledger => exact run_ledger_of hp hb
  case mould => exact run_mld_of hp hb
  case timebase => exact run_tb_of hp hb
  case calibration => exact run_cal_of hp hb
  case diagnostics => exact run_diag_of hp hb
  case flash => exact fun a => by rw [run_flash_of hp hb]
  case sram => exact fun a => by rw [run_sram_of hp hb]
  case cellar => exact fun a => by rw [run_cellar_of hp hb]
  case otp => exact run_otp_of hp hb
  case commits => exact run_commit_of hp hb
  case heads => exact run_heads_of hp hb
  case rings => exact run_rings_of hp hb
  case channels => exact run_chans_of hp hb
  case fills => exact run_filled_of hp hb
  case flashPort => exact run_fport_of hp hb
  case power => exact run_power_of hp hb
  case clocks => exact run_clock_of hp hb
  case collector => exact run_fault_of hp hb
  case pins => exact run_pins_of hp hb
  case frames => exact run_spiRejected_of hp hb
  case messages => exact run_intake_of hp hb ht
  case sent => exact run_out_of hp hb
  case draws => exact run_free_of hp hb

/-! Registers. -/

/-- No word at an offset is admitted by a mask. -/
theorem run_reg_of (hp : Prog.All (Act.among K) p) (hs : s.regs.sorted = true) {off : Nat} (h : ¬ lies off K) :
    (run p s).reg off = s.reg off :=
  run_reg_frame off p (hp.imp fun a ha hw => by
    cases a
    case reg o w => exact h (by rw [← (show o = off from hw)]; exact ha)
    all_goals exact hw) s hs

/-- The tables of a mask are among those of a list. -/
def covers (ids : List RegId) (K : Nat) : Bool :=
  (allRows.map (·.id)).zipIdx.all fun e => !K.testBit (64 + e.2) || decide (e.1 ∈ ids)

theorem run_only_regs (hp : Prog.All (Act.among K) p) (hs : s.regs.sorted = true) (ids : List RegId) (h63 : K.testBit 63 = false)
    (h62 : K.testBit 62 = false) (hc : covers ids K = true) : OnlyRegs ids s (run p s) := by
  intro off hoff hno
  refine run_reg_of hp hs ?_
  rintro (h | h | ⟨h, _⟩ | ⟨k, r, hk, hr, hh⟩)
  · omega
  · simp [h63] at h
  · simp [h62] at h
  · have hm : r ∈ allRows := List.mem_of_getElem? hr
    have hid : r.id ∈ ids := by
      unfold covers at hc
      rw [List.all_eq_true] at hc
      have hmem : (r.id, k) ∈ (allRows.map (·.id)).zipIdx := by
        rw [List.mk_mem_zipIdx_iff_getElem?]
        simp [hr]
      have := hc _ hmem
      simpa [hk] using this
    rw [hno r hm hid] at hh
    cases hh

/-- The frame of a program, from its mask. -/
theorem run_frame_of (hp : Prog.All (Act.among K) p) (hs : s.ok = true) (ids : List RegId) (parts : List Part) (ht : K.testBit 31 = false)
    (h63 : K.testBit 63 = false) (h62 : K.testBit 62 = false) (hc : covers ids K = true)
    (h : ∀ q : Part, q ∉ parts → K.testBit q.bit = false) : Frame ids parts s (run p s) :=
  ⟨run_only_regs hp (State.ok_regs_sorted hs) ids h63 h62 hc, run_keeps_parts hp hs parts ht h⟩

/-! What is raised and sent is only added. -/

theorem intake_grows (hp : Prog.All (Act.among K) p) (h : K.testBit 31 = false) (s : State) : ∃ l, (run p s).intake = s.intake ++ l :=
  run_keeps (C := Act.among K) (P := fun t => ∃ l, t.intake = s.intake ++ l) (fun a t ha ht => by
    have hn : ¬ K.testBit 31 = true := by simp [h]
    obtain ⟨l, hl⟩ := ht
    cases a <;> first
      | exact ⟨l, hl⟩
      | exact absurd ha hn
      | (rename_i m; exact ⟨l ++ [m], by simp only [apply, hl, List.append_assoc]⟩)
      | (simp only [apply]; split <;> exact ⟨l, hl⟩)) p hp s ⟨[], by simp⟩

theorem out_grows (p : Prog) (s : State) : ∃ l, (run p s).out = s.out ++ l :=
  run_always (P := fun t => ∃ l, t.out = s.out ++ l) (fun a t ht => by
    obtain ⟨l, hl⟩ := ht
    cases a <;> first
      | exact ⟨l, hl⟩
      | (rename_i m; exact ⟨l ++ [m], by simp only [apply, hl, List.append_assoc]⟩)
      | (simp only [apply]; split <;> exact ⟨l, hl⟩)) p s ⟨[], by simp⟩

theorem Raised.trans {m : Msg} {s t u : State} (h : Raised m s t) (hu : ∃ l, u.intake = t.intake ++ l) : Raised m s u := by
  obtain ⟨l, h1, h2⟩ := h
  obtain ⟨k, h3⟩ := hu
  exact ⟨l ++ k, by rw [h3, h1, List.append_assoc], List.mem_append_left _ h2⟩

theorem Raised.later {m : Msg} {s t u : State} (hs : ∃ l, t.intake = s.intake ++ l) (h : Raised m t u) : Raised m s u := by
  obtain ⟨l, h1, h2⟩ := h
  obtain ⟨k, h3⟩ := hs
  exact ⟨k ++ l, by rw [h1, h3, List.append_assoc], List.mem_append_right _ h2⟩

theorem Sent.trans {o : Out} {s t u : State} (h : Sent o s t) (hu : ∃ l, u.out = t.out ++ l) : Sent o s u := by
  obtain ⟨l, h1, h2⟩ := h
  obtain ⟨k, h3⟩ := hu
  exact ⟨l ++ k, by rw [h3, h1, List.append_assoc], List.mem_append_left _ h2⟩

theorem Sent.later {o : Out} {s t u : State} (hs : ∃ l, t.out = s.out ++ l) (h : Sent o t u) : Sent o s u := by
  obtain ⟨l, h1, h2⟩ := h
  obtain ⟨k, h3⟩ := hs
  exact ⟨k ++ l, by rw [h1, h3, List.append_assoc], List.mem_append_right _ h2⟩

theorem raised_emit (src kind cls detail w1 : Nat) (s : State) : Raised ⟨src, kind, cls, detail, w1⟩ s (run (emit src kind cls detail w1) s) :=
  ⟨[_], rfl, List.mem_singleton.2 rfl⟩

theorem sent_send (o : Out) (s : State) : Sent o s (run (send o) s) := ⟨[o], rfl, List.mem_singleton.2 rfl⟩

/-! Commands. -/

theorem acts_finish {c : Instr} {s : State} {Q : State → Prop} (p : Prog) (he : exec c s = finish p s) (hq : Q (run p s)) : Acts c s Q :=
  ⟨_, he, hq⟩

/-- A granted write runs its program. -/
theorem wrote_granted {path : Path} {off : Nat} {s : State} (p : Nat → Prog) (h : Granted path off s) :
    wrote path off p s = finish (p (pathCode path)) s := by
  unfold Granted at h
  unfold wrote finish access
  simp only [run_read, h]

theorem acts_wrote {c : Instr} {s : State} {Q : State → Prop} {path : Path} {off : Nat} (p : Nat → Prog) (h : Granted path off s)
    (he : exec c s = wrote path off p s) (hq : Q (run (p (pathCode path)) s)) : Acts c s Q :=
  acts_finish _ (he.trans (wrote_granted p h)) hq

end Sys2Proof.Machine
end

