-- ==== Sys2Proof/WellFormed.lean ====
section
/-!
DEFINITION. Well-formed commands: what the types of the operands leave open.
-/
namespace Sys2Proof

/-- An access is of 1, 2, 4 or 8 bytes (R41, R42). -/
def widthOk (size : Nat) : Bool := [1, 2, 4, 8].contains size

/-- A set names a kind of R258 and a family of R259, with a residual for each element. -/
def setOk (c : CalSet) : Bool := decide (1 ≤ c.kind ∧ c.kind ≤ 8) && decide (c.family ≤ 3) && c.vals.length == c.resid.length

/-- A profile has at most 255 bins of int16 (R302). -/
def profileOk (l : List Int) : Bool := decide (l.length ≤ 255) && l.all fun v => decide (-32768 ≤ v ∧ v < 32768)

/-- What a training has measured. -/
def trainOk (d : TrainData) : Bool := profileOk d.profile && d.sets.all setOk

/-- What a TDR has captured. -/
def tdrOk (d : TdrData) : Bool := decide (d.clean ≤ d.windows) && profileOk d.profile

/-- A received frame: its margin is 16 bits, its opportunity 8, the cell error of R421 one of three, its first block on one of four lanes. -/
def frameOk (f : MacFrame) : Bool :=
  decide (f.margin < 65536) && decide (f.opportunity < 256) && decide (f.ecc ≤ 2) && decide (f.syndrome < 256) && decide (f.lane < 4)

/-- A cane page names 2 or 4 members (R180). -/
def pageOk : AnPage → Bool
  | .cane _ members _ _ _ => members.toNat == 2 || members.toNat == 4
  | .base .. | .vendor | .x50 .. | .ident .. => true

/-- A message that a source produces (R525, R527). COLLECTOR_SELF is a command of its own. -/
def producible (src kind cls : Nat) : Bool :=
  let port := decide (0x40 ≤ src ∧ src < 0x80)
  let mem := [0x01, 0x08, 0x09, 0x0A, 0x10, 0x11, 0x12, 0x13].contains src
  let any := decide (src ≤ 0x17) || port
  let head := decide (0x0C ≤ src ∧ src ≤ 0x0F)
  match kind with
  | 0x01 => mem && cls == 1
  | 0x02 => mem && src != 1 && (if src = 9 then cls == 3 else cls == 2)
  | 0x03 => any && (if src ≤ 7 ∨ src = 0x16 ∨ src = 0x17 then cls == 3 else cls == 2)
  | 0x04 => any && cls == 1
  | 0x05 => any && cls == 4
  | 0x06 | 0x07 => src == 9 && cls == 3
  | 0x08 | 0x09 => any && cls == 0
  | 0x0A => any && cls == 2
  | 0x0B => (src == 0x07 || head || src == 0x14 || src == 0x15) && (if src = 0x14 ∨ src = 0x15 then cls == 1 else cls == 2)
  | 0x0C => (src == 0x08 || src == 0x0B) && cls == 0
  | 0x0D => src == 0x08 && cls == 2
  | 0x0E => src == 0x03 && (cls == 1 || cls == 3)
  | 0x0F => src == 0x03 && (cls == 2 || cls == 3)
  | 0x10 | 0x11 => src == 0x04 && (cls == 2 || cls == 3)
  | 0x12 => (decide (0x10 ≤ src ∧ src ≤ 0x13) || src == 0x17) && cls == 1
  | 0x13 => src == 0x14 && (cls == 1 || cls == 2)
  | 0x14 => (port || head) && cls == 0
  | 0x15 => src == 0x16 && cls == 1
  | 0x16 => any && cls == 0
  | 0x17 => (src == 0x14 || src == 0x15) && cls == 0
  | 0x19 => src == 0x05 && (cls == 0 || cls == 2)
  | 0x1A => (src == 0x08 || src == 0x0B) && cls == 2
  | 0x1B => src == 0x17 && (cls == 1 || cls == 4)
  | 0x1C => any && (cls == 1 || cls == 2)
  | 0x1D => src == 0x00 && cls == 0
  | _ => false

/-- A command as the outside can send it. -/
def Instr.wf : Instr → Bool
  | .registerWrite _ _ size data => widthOk size && decide (data.toNat < 256 ^ size)
  | .seqWriteBack _ off _ => off.toNat % 4 == 0
  | .acWriteLand => true
  | .tmrScrub off _ => off.toNat % 4 == 0
  | .commit _ _ => true
  | .commitLateApply _ => true
  | .mouldLoadStart _ _ => true
  | .mouldLoadDone _ _ => true
  | .remouldStart _ _ _ _ => true
  | .remouldCheckDone _ => true
  | .remouldExpire => true
  | .remouldCancel _ => true
  | .adoptStart _ _ => true
  | .adoptCheckDone _ => true
  | .keyProgStart _ _ => true
  | .keyProgDone _ => true
  | .portAdminWrite _ _ _ => true
  | .portRestart _ _ => true
  | .portReset _ _ => true
  | .portResetEnd _ => true
  | .listenWaitEnd _ => true
  | .anPageReceived _ page _ _ => pageOk page
  | .anTimeout _ => true
  | .trainComplete _ _ found => trainOk found
  | .trainStoredTimeout _ => true
  | .trainTimeout _ => true
  | .blockLock _ _ => true
  | .fecBurst _ _ => true
  | .sqiLow _ _ => true
  | .partnerDown _ _ => true
  | .flapHoldExpire _ => true
  | .linkQualInterval _ _ _ _ => true
  | .macFrameReceive _ frame => frameOk frame
  | .counterClear _ _ => true
  | .trainingFrame _ _ => true
  | .pam6Switch _ => true
  | .tapWrite _ _ _ _ => true
  | .tapApply _ => true
  | .alignmentMarker _ _ _ _ _ _ bipErrors => decide (bipErrors ≤ 8)
  | .markerMiss _ => true
  | .formWaitExpire _ => true
  | .rejoinHoldExpire _ => true
  | .loopStart _ _ _ _ _ _ _ => true
  | .loopStop _ _ => true
  | .loopDurationExpire _ bits errs => decide (errs ≤ bits)
  | .potReturnDone _ => true
  | .potReclaimDone _ _ => true
  | .potSelftestStart _ _ => true
  | .potSelftestDone _ _ _ => true
  | .eccCorr _ _ _ => true
  | .eccUncorr _ _ => true
  | .cancellerDepthInterval _ _ _ => true
  | .convergenceMaxExpire _ _ => true
  | .bundleRestart _ _ _ => true
  | .beaconReceived _ _ => true
  | .plcaCycleStart _ _ => true
  | .transmitOpportunity _ => true
  | .beaconLoss _ _ => true
  | .foreignBeacon _ => true
  | .collision _ _ _ => true
  | .lateCollision _ _ _ => true
  | .segmentSleep _ => true
  | .censusWindowEnd _ => true
  | .censusClear _ _ _ => true
  | .segQualInterval _ => true
  | .converterStageDone _ sets => sets.all setOk
  | .backgroundAnnealOffer _ sets => sets.all setOk
  | .pendingSetApply _ _ => true
  | .structWait _ kind _ => decide (1 ≤ kind.toNat ∧ kind.toNat ≤ 8)
  | .portAnnealStart _ _ _ _ => true
  | .portAnnealStop _ _ => true
  | .portAnnealDone _ sets => sets.all setOk
  | .atticWrite _ => true
  | .atticWriteDone _ => true
  | .tdrStart _ _ _ _ => true
  | .tdrStop _ _ => true
  | .tdrDone _ found => tdrOk found
  | .ilEstimate _ _ _ => true
  | .fpCapture _ _ => true
  | .fpClear _ _ => true
  | .sweepStart _ _ _ _ => true
  | .sweepArm _ _ _ _ => true
  | .sweepStop _ => true
  | .sweepDone pairs profiles => pairs.all (fun c => decide (c.a ≠ c.v)) && profiles.all (fun e => tdrOk e.2)
  | .flashBookRequest _ => true
  | .flashBookRelease _ => true
  | .lpiEntry _ => true
  | .lpiEarlyExit _ => true
  | .lpiWakeSignal _ => true
  | .quickRefresh _ => true
  | .deepLpiEntry _ => true
  | .lpiExitTimeout _ => true
  | .sleepReplyReceived _ _ => true
  | .partnerSilence _ => true
  | .sleepTimeout _ => true
  | .sleepRequestReceived _ => true
  | .partnerSleepTimeout _ => true
  | .wupQualified _ => true
  | .wurReceived _ => true
  | .wakeInEdge _ => true
  | .wakeServe _ => true
  | .wupEnd _ => true
  | .pulseSpacingRelease _ => true
  | .wupRetry _ => true
  | .tbSet _ _ => true
  | .tbStep _ _ => true
  | .tbAdj _ _ => true
  | .syncReceived _ _ _ _ _ => true
  | .syncTimeout _ => true
  | .holdoverExpire => true
  | .gmChange _ _ _ _ _ => true
  | .syncSend _ => true
  | .pdelayMeasure _ _ => true
  | .ppsOut => true
  | .ppsIn _ => true
  | .launchIn => true
  | .lgArm _ _ _ _ _ => true
  | .lgDisarm _ _ => true
  | .lgFire _ => true
  | .gclEntryBoundary _ => true
  | .linkL0 _ rate width => decide (rate ≠ 0) && [1, 2, 4, 8, 16].contains width.toNat
  | .headReset _ _ => true
  | .headResetEnd _ => true
  | .drainDone _ => true
  | .detach _ _ => true
  | .heartbeatExpire _ => true
  | .hbKick _ _ => true
  | .bmeClear _ => true
  | .attach _ _ cfg => decide cfg.vecs.Nodup
  | .doorbell _ _ _ _ => true
  | .cxlMemRequest _ => true
  | .invalidateRequest _ _ len => decide (0 < len) && len % 4096 == 0
  | .invalidateComplete _ => true
  | .translationCompletion _ _ len _ => decide (0 < len) && len % 4096 == 0
  | .atcFlush _ _ => true
  | .atsEnableChange _ _ => true
  | .spdmRequest _ _ => true
  | .msixUnmask _ _ => true
  | .irqRearm _ _ => true
  | .completionTimeout _ _ _ => true
  | .goResponse _ _ => true
  | .mbxPost _ _ => true
  | .mbxTake _ => true
  | .mbxReply _ => true
  | .mbxAck _ _ => true
  | .mbxAbort _ _ => true
  | .noFw _ => true
  | .getInfo _ => true
  | .modeVote _ => true
  | .portAnneal _ => true
  | .portTdr _ => true
  | .launch _ => true
  | .echo _ => true
  | .descriptorFetchDone _ _ _ descs => decide (descs.length ≤ 8)
  | .ownRecheck _ _ => true
  | .dataReadCompletion _ _ bytes => decide (bytes.length < 65536)
  | .txFrameFetched _ => true
  | .txFrameStart _ _ _ _ => true
  | .launchTime _ => true
  | .txFrameSent _ _ => true
  | .moderationTimer _ _ => true
  | .ringAck _ _ _ _ => true
  | .ringEnable _ _ _ => true
  | .ringDisable _ _ _ => true
  | .ringStopped _ _ => true
  | .celCfgWrite _ _ => true
  | .celShareWrite _ _ _ _ _ => true
  | .mchEnable _ _ => true
  | .mchDisable _ _ => true
  | .mchDoorbell _ _ _ => true
  | .mdmaDescFetched _ _ _ => true
  | .mdmaDescComplete _ data _ _ => data.srcList.all (fun e => decide (e.2 < 2 ^ 32)) && data.dstList.all (fun e => decide (e.2 < 2 ^ 32))
  | .mdmaSyncCompletion _ _ _ _ _ => true
  | .modeReqWrite _ _ => true
  | .modeEntryWfi => true
  | .standbyEntryDone => true
  | .parkEntryDone => true
  | .minOffExpire => true
  | .hostReqWrite _ _ => true
  | .keeperReqWrite _ _ _ => true
  | .policySettle => true
  | .domReqWrite _ _ => true
  | .domainPowerGood _ _ => true
  | .domainSwitchOff _ => true
  | .domForceWrite _ _ => true
  | .avsAck _ => true
  | .avsTimeout => true
  | .avsRetry => true
  | .csWake => true
  | .alarmMatch => true
  | .vmainOkRise => true
  | .vmainTimeout => true
  | .wakeTableAction _ => true
  | .retentionCheckDone _ => true
  | .firmwareVerified _ _ => true
  | .gafferResetRelease => true
  | .startOk _ => true
  | .deadline => true
  | .clockReady _ _ => true
  | .rclkReady _ => true
  | .clockSwitchWrite _ _ => true
  | .switchComplete _ => true
  | .switchForced _ => true
  | .lrefSelect _ _ _ => true
  | .clockLoss _ => true
  | .pllUnlock i => decide (4 ≤ i.val)
  | .pllRelock i => decide (4 ≤ i.val)
  | .gateWrite _ _ => true
  | .pllEnWrite _ _ => true
  | .powerOn _ _ _ _ => true
  | .vaonFall => true
  | .mainRailLoss => true
  | .resetN => true
  | .resetNRelease => true
  | .chipReset _ _ _ => true
  | .blockReset _ _ _ => true
  | .blockResetEnd source => decide (source.toNat ≤ 0x17 ∨ 0x40 ≤ source.toNat)
  | .faultMessage src kind cls _ _ => producible src.toNat kind.toNat cls
  | .reactResetWindow => true
  | .collectorSelf part => decide (part ≠ 0)
  | .supply rail => decide (rail ≠ 0)
  | .overtemp tj => decide (tj.length = 8)
  | .aliveToggle => true
  | .watchdogKick _ _ => true
  | .watchdog => true
  | .lockstep _ => true
  | .logClear _ => true
  | .faultRecordRequest _ => true
  | .faultRecordDone _ => true
  | .recNextWrite _ _ => true
  | .fltIrqRearm _ => true
  | .checkerTestStart _ _ _ _ => true
  | .checkerTest _ _ _ _ => true
  | .checkerTestTimeout => true
  | .mbistStart _ _ => true
  | .mbistStop _ => true
  | .mbistDone fails _ => decide (fails ≤ 262144)
  | .faultInject _ => true
  | .read _ _ _ _ _ => true
  | .readCrc _ _ _ _ _ => true
  | .write _ _ => true
  | .writeCrc _ _ => true
  | .status _ => true
  | .unknownCommand cmd _ => !(List.contains [0x03, 0x83, 0x02, 0x82, 0x05] cmd.toNat)
  | .flashWindowRead _ len _ => decide (0 < len)
  | .flashWindowWrite _ bytes => !bytes.isEmpty
  | .pageProgram => true
  | .fspiFlush _ => true
  | .programComplete _ => true
  | .flashTimeout => true
  | .erase _ _ => true
  | .eraseSuspend => true
  | .eraseResume => true
  | .lifecycleAdvance _ _ _ => true
  | .lifecycleFuseDone _ => true
  | .registerRead _ _ size _ _ => widthOk size
  | .lpiExitComplete _ => true
  | .receiveQuiet _ => true
  | .partnerRestart _ => true
  | .h2dSnoop _ _ => true
  | .launchReplyTimeout _ => true

end Sys2Proof
end

