-- ==== Sys2Proof/Tests/Slice0.lean ====
section
/-!
SUPPORT. Tests: ill-formed commands that WellFormed refuses, states that meet the hypotheses of the statements, and a few
commands run on small states. A state here is a short block of actions after `live`.
-/
namespace Sys2Proof.Tests
open Sys2Proof Sys2Proof.Machine

set_option maxRecDepth 10000
set_option Elab.async false

/-- A block that has been powered: every domain on, every clock ready. -/
def live : State := run (block [setF F.PWR_DOM_STAT_domains 0xFFFFFF, setReg R.CLK_GATE 0x1FFFFF, setReg R.CLK_READY 0xFFF,
  updPower fun x => { x with vaon := true, pwrEn := true, vmainOk := true, resetN := true, gaffer := true }]) State.reset

theorem live_ok : live.ok = true := run_ok _ _ (by decide +kernel)

/-- A state a few actions after `live`. -/
def after (l : List Prog) : State := run (block l) live

/-- Head h holds every port and every queue pair. -/
def wholeHead (h : Nat) : Prog := updMld fun x => { x with headRec := [(h, [0, 0] ++ leBytes 8 (2 ^ 64 - 1) ++ leBytes 2 0 ++ leBytes 2 512 ++ List.replicate 50 0xFF)] }

/-- A window of head h that admits everything. -/
def openWindow (h : Nat) : Prog := block [setWide (R.MLD_GOV_WIN_LIMIT h 0) 2 (2 ^ 63), setReg (R.MLD_GOV_WIN_FLAGS h 0) 15]

/-- A good boot header (R569). -/
def bootHeader : List Byte :=
  let l := leBytes 4 0x48424458 ++ leBytes 2 1 ++ [0, 8, 27, 8, 1, 0] ++ leBytes 16 0x0506 ++ List.replicate 32 0
  l ++ leBytes 4 (crc32c l)

theorem after_ok (l : List Prog) : (after l).ok = true := run_ok _ _ live_ok

theorem meets_PortAdminAndResets :
    (let path : Path := .gaffer; let p : Port := 9; let s : State := after [updMld fun x => { x with active := x.active.put 0x0001 (List.replicate 1024 0x01#8) }, setReg R.MLD_GOV_TXEN 0xFFFFFF00]; s.ok = true ∧ Granted path (R.PORT_CTL p) s) ∧
    (let path : Path := .gaffer; let p : Port := 9; let s : State := after [setF (F.PORT_STATE_state p) 5]; s.ok = true ∧ Granted path (R.PORT_CTL p) s ∧ (s.port p).localSleep = false ∧ (s.port p).partnerSleep = false) ∧
    (let path : Path := .gaffer; let p : Port := 9; let s : State := after [setF (F.PORT_STATE_state p) 5]; s.ok = true ∧ Granted path (R.PORT_CTL p) s ∧ (s.port p).resetting = false) ∧
    (let p : Port := 9; let s : State := after [setF (F.PORT_STATE_state p) 7, setF (F.PORT_CTL_reset p) 1, updPort p fun x => { x with resetting := true, flapHold := false }, setF F.FLT_STAT_safe 0]; s.ok = true ∧ (s.port p).resetting = true ∧ (s.port p).flapHold = false ∧ s.pst p = stFault ∧ s.f F.FLT_STAT_safe = 0 ∧ s.commit.pend.get? p = none) ∧
    (let p : Port := 9; let s : State := after [setF (F.PORT_STATE_state p) 7, setF (F.PORT_TIMERS_flap_hold_s p) 60, updPort p fun x => { x with resetting := false, flapHold := true }]; s.ok = true ∧ (s.port p).flapHold = true ∧ (s.port p).resetting = false ∧ s.f (F.PORT_TIMERS_flap_hold_s p) ≠ 0 ∧ s.pst p = stFault) :=
  ⟨⟨after_ok _, by decide +kernel⟩,
   ⟨after_ok _, by decide +kernel⟩,
   ⟨after_ok _, by decide +kernel⟩,
   ⟨after_ok _, by decide +kernel⟩,
   ⟨after_ok _, by decide +kernel⟩⟩

theorem meets_NegotiationMovesPort :
    (let p : Port := 9; let s : State := after [setF (F.PORT_STATE_state p) 2, setF (F.PORT_MODE_CFG_an_en p) 1, setF (F.PORT_ADV_modes p) 1, setF (F.PORT_STATE_excluded p) 0, setReg (R.FUR_SLOT 0) (BitVec.ofNat 32 (0x4000 + p.val)), updPort p fun x => { x with wait := some false, stage := false }]; s.ok = true ∧ portClass p ≠ .segment ∧ s.portPowered p = true ∧ (s.port p).returned = false ∧ s.pst p = stListen ∧ (s.port p).wait.isSome = true ∧ s.heldByLedger p = false ∧ (s.port p).stage = false ∧ s.lineClock p = true ∧ s.f (F.PORT_MODE_CFG_an_en p) = 1 ∧ s.offeredFit p ≠ 0) ∧
    (let p : Port := 9; let last : Bool := false; let s : State := after [setF (F.PORT_STATE_state p) 3]; s.ok = true ∧ s.pst p = stNegotiate ∧ last = false) ∧
    (let p : Port := 9; let s : State := after [setF (F.PORT_STATE_state p) 3]; s.ok = true ∧ s.pst p = stNegotiate) ∧
    (let p : Port := 9; let s : State := after [setF (F.PORT_STATE_state p) 4]; s.ok = true ∧ s.pst p = stTrain) ∧
    (let p : Port := 9; let s : State := after [setF (F.PORT_STATE_state p) 4]; s.ok = true ∧ (s.pst p = stNegotiate ∨ s.pst p = stTrain)) :=
  ⟨⟨after_ok _, by decide +kernel⟩,
   ⟨after_ok _, by decide +kernel⟩,
   ⟨after_ok _, by decide +kernel⟩,
   ⟨after_ok _, by decide +kernel⟩,
   ⟨after_ok _, by decide +kernel⟩⟩

theorem meets_TrainingEndsInUp :
    (let p : Port := 9; let margin : BitVec 16 := 80; let s : State := after [setF (F.PORT_STATE_state p) 4, setF (F.PORT_STATE_mode p) 3]; s.ok = true ∧ s.pst p = stTrain ∧ s.caneOf p = none ∧ (s.pmode p = 7 → (s.port p).pam6 = true) ∧ s.f (F.PORT_QUAL_CFG_sqi_drop p) ≤ sqiOf (signed 16 margin.toNat)) ∧
    (let p : Port := 1; let s : State := after [setF (F.PORT_STATE_state p) 4, updPort p fun x => { x with fromStored := true }]; s.ok = true ∧ s.pst p = stTrain ∧ (s.port p).fromStored = true) ∧
    (let p : Port := 9; let s : State := after [setF (F.PORT_STATE_state p) 5]; s.ok = true ∧ s.linkUp p = true ∧ portClass p ≠ .segment) ∧
    (let p : Port := 9; let frame : MacFrame := { bytes := List.replicate 60 0x11#8, fcsOk := true, cut := false, age := 0, latency := 0, margin := 0, opportunity := 0, ecc := 0, syndrome := 0, cell := 0, lane := 0 }; let s : State := after [setF (F.PORT_STATE_state p) 5, updPort p fun x => { x with loop := 0 }]; s.ok = true ∧ portClass p ≠ .segment ∧ s.caneOf p = none ∧ s.macUp p = true ∧ (s.port p).loop ≠ 3 ∧ frame.cut = false) ∧
    (let path : Path := .gaffer; let p : Port := 9; let s : State := after []; s.ok = true ∧ Granted path (R.PORT_CNT_CTL p) s) :=
  ⟨⟨after_ok _, by decide +kernel⟩,
   ⟨after_ok _, by decide +kernel⟩,
   ⟨after_ok _, by decide +kernel⟩,
   ⟨after_ok _, by decide +kernel⟩,
   ⟨after_ok _, by decide +kernel⟩⟩

theorem meets_LinkDrops :
    (let p : Port := 9; let s : State := after [setF (F.PORT_STATE_state p) 5, updPort p fun x => { x with localSleep := false, partnerSleep := false }]; s.ok = true ∧ s.linkUp p = true ∧ (s.port p).localSleep = false ∧ (s.port p).partnerSleep = false ∧ s.caneOf p = none ∧ portClass p ≠ .segment) ∧
    (let p : Port := 9; let n : BitVec 16 := 5; let s : State := after [setF (F.PORT_STATE_state p) 5, updPort p fun x => { x with localSleep := false, partnerSleep := false }, setF (F.PORT_QUAL_CFG_unc_burst p) 2]; s.ok = true ∧ s.linkUp p = true ∧ (s.port p).localSleep = false ∧ (s.port p).partnerSleep = false ∧ s.caneOf p = none ∧ portClass p ≠ .segment ∧ s.f (F.PORT_QUAL_CFG_unc_burst p) ≠ 0 ∧ s.f (F.PORT_QUAL_CFG_unc_burst p) ≤ n.toNat) ∧
    (let p : Port := 9; let s : State := after [setF (F.PORT_STATE_state p) 5, updPort p fun x => { x with localSleep := false, partnerSleep := false }, setF (F.PORT_LINK_QUAL_sqi p) 1, setF (F.PORT_QUAL_CFG_sqi_drop p) 3]; s.ok = true ∧ s.linkUp p = true ∧ (s.port p).localSleep = false ∧ (s.port p).partnerSleep = false ∧ s.caneOf p = none ∧ portClass p ≠ .segment ∧ s.f (F.PORT_LINK_QUAL_sqi p) < s.f (F.PORT_QUAL_CFG_sqi_drop p)) ∧
    (let p : Port := 9; let s : State := after [setF (F.PORT_STATE_state p) 5, updPort p fun x => { x with localSleep := false, partnerSleep := false }]; s.ok = true ∧ s.linkUp p = true ∧ (s.port p).localSleep = false ∧ (s.port p).partnerSleep = false ∧ s.caneOf p = none ∧ portClass p ≠ .segment) :=
  ⟨⟨after_ok _, by decide +kernel⟩,
   ⟨after_ok _, by decide +kernel⟩,
   ⟨after_ok _, by decide +kernel⟩,
   ⟨after_ok _, by decide +kernel⟩⟩

theorem meets_TrunkTapsAndTraining :
    (let p : Port := 1; let body : BitVec 48 := 0; let s : State := after [setF (F.PORT_STATE_state p) 4, setF (F.PORT_STATE_mode p) 7]; s.ok = true ∧ s.pst p = stTrain ∧ s.pmode p = 7 ∧ p.val < 8 ∧ crc8 0 (leBytes 5 (body.toNat % 2 ^ 40)) = body.toNat / 2 ^ 40) ∧
    (let p : Port := 1; let s : State := after [setF (F.PORT_STATE_state p) 4, setF (F.PORT_STATE_mode p) 7, updPort p fun x => { x with rxReady := true, ownReady := true, pam6Count := 0 }]; s.ok = true ∧ s.pst p = stTrain ∧ s.pmode p = 7 ∧ (s.port p).rxReady = true ∧ (s.port p).ownReady = true ∧ (s.port p).pam6Count ≠ 255) ∧
    (let path : Path := .gaffer; let p : Port := 1; let man : Bool := false; let s : State := after []; s.ok = true ∧ (Granted path (if man then R.PORT_TAP_MAN p else R.PORT_TAP_STD p) s) ∧ p.val < 8) ∧
    (let p : Port := 1; let s : State := after [updPort p fun x => { x with tapNext := some (0xFC0, 2) }]; s.ok = true ∧ (s.port p).tapNext.isSome = true) :=
  ⟨⟨after_ok _, by decide +kernel⟩,
   ⟨after_ok _, by decide +kernel⟩,
   ⟨after_ok _, by decide +kernel⟩,
   ⟨after_ok _, by decide +kernel⟩⟩

theorem meets_CaneLanesAndMarkers :
    (let p : Port := 1; let s : State := after [setF (F.CANE_CFG_valid 0) 1, setF (F.CANE_CFG_members 0) 3, setF (F.PORT_STATE_state p) 5, setF (F.PORT_STATE_mode p) 7, updPort p fun x => { x with canePage := some (5, 2, 1, 255, 0), goodRow := 1 }]; s.ok = true ∧ s.caneOf p ≠ none ∧ s.pst p = stUp ∧ bondMode (s.pmode p) = true) ∧
    (let p : Port := 1; let s : State := after [setF (F.CANE_CFG_valid 0) 1, setF (F.CANE_CFG_members 0) 3, setF (F.PORT_AM_STAT_am_lock p) 1]; s.ok = true ∧ s.caneOf p ≠ none ∧ s.bit (F.PORT_AM_STAT_am_lock p) = true) ∧
    (let k : Fin 4 := 0; let s : State := after [setF (F.CANE_STAT_state k) 2, setF (F.CANE_CFG_policy k) 0, updCane k fun x => { x with formWait := true }]; s.ok = true ∧ s.cst k = cnForming ∧ (s.cane k).formWait = true ∧ s.bit (F.CANE_CFG_policy k) = false) ∧
    (let p : Port := 1; let s : State := after [setF (F.CANE_CFG_valid 0) 1, setF (F.CANE_CFG_members 0) 3, setF (F.PORT_STATE_state p) 5, setF (F.PORT_STATE_mode p) 7, setF (F.PORT_AM_STAT_am_lock p) 1, setF (F.PORT_AM_STAT_tag_ok p) 1, updPort p fun x => { x with rejoin := 1, loopHeld := false, canePage := some (5, 2, 1, 255, 0) }, updPort (1 - p) fun x => { x with canePage := some (5, 2, 0, 255, 0) }, updCane 0 fun x => { x with bond := 0 }]; s.ok = true ∧ (s.port p).rejoin = 1 ∧ ((match s.caneOf p with | some kj => s.laneMeets kj.1 kj.2 | none => false) = true)) :=
  ⟨⟨after_ok _, by decide +kernel⟩,
   ⟨after_ok _, by decide +kernel⟩,
   ⟨after_ok _, by decide +kernel⟩,
   ⟨after_ok _, by decide +kernel⟩⟩

theorem meets_TestLoops :
    (let path : Path := .gaffer; let p : Port := 9; let kind : BitVec 2 := 3; let s : State := after [setF (F.PORT_STATE_state p) 5, updPort p fun x => { x with loop := 0 }, setF (F.PORT_LOOP_STAT_state p) 0, updMld fun x => { x with active := x.active.put 0x0001 (List.replicate 1024 0x03#8) }]; s.ok = true ∧ Granted path (R.PORT_LOOP_CTL p) s ∧ (s.port p).loop = 0 ∧ s.f (F.PORT_LOOP_STAT_state p) ≠ 1 ∧ portClass p ≠ .segment ∧ kind.toNat ≠ 0) ∧
    (let path : Path := .gaffer; let p : Port := 9; let s : State := after [setF (F.PORT_STATE_state p) 5, updPort p fun x => { x with loop := 3 }, setF (F.PORT_LOOP_STAT_state p) 2]; s.ok = true ∧ Granted path (R.PORT_LOOP_CTL p) s) ∧
    (let p : Port := 9; let s : State := after [setF (F.PORT_STATE_state p) 2, updPort p fun x => { x with loop := 1 }, setReg (R.PORT_LOOP_TIME p) 5]; s.ok = true ∧ (s.port p).loop ≠ 0 ∧ s.reg (R.PORT_LOOP_TIME p) ≠ 0) ∧
    (let path : Path := .gaffer; let quarters : BitVec 4 := 2; let s : State := after []; s.ok = true ∧ Granted path (R.FUR_SELFTEST) s ∧ quarters.toNat = 2 ^ (quarters.toNat.log2)) ∧
    (let q : Fin 4 := 0; let s : State := after [updFur fun x => { x with testing := [q.val] }, setFBit F.FUR_SELFTEST_busy q true]; s.ok = true ∧ s.fur.testing.contains q.val = true ∧ s.fur.testing.Nodup ∧ s.domOn (domFur q) = true ∧ bitOf (s.f F.FUR_SELFTEST_busy) q = true) :=
  ⟨⟨after_ok _, by decide +kernel⟩,
   ⟨after_ok _, by decide +kernel⟩,
   ⟨after_ok _, by decide +kernel⟩,
   ⟨after_ok _, by decide +kernel⟩,
   ⟨after_ok _, by decide +kernel⟩⟩

theorem meets_PotsAndCancellers :
    (let p : Port := 9; let s : State := after [setF (F.PORT_STATE_state p) 1, setF (F.FUR_RETURN_on_sleep p) 1, setReg (R.FUR_SLOT 0) (BitVec.ofNat 32 (0x4000 + p.val)), updPort p fun x => { x with returned := false, leaving := false, coeffMode := 3 }]; s.ok = true ∧ s.pst p = stSleep ∧ s.bit (F.FUR_RETURN_on_sleep p) = true ∧ (s.port p).returned = false ∧ (s.usable p).isEmpty = false ∧ (s.port p).leaving = false) ∧
    (let p : Port := 9; let s : State := after [setF (F.PORT_STATE_state p) 6, setF (F.PORT_LPI_STAT_deep p) 1, setF (F.FUR_RETURN_on_deep_lpi p) 1, setReg (R.FUR_SLOT 0) (BitVec.ofNat 32 (0x4000 + p.val)), updPort p fun x => { x with returned := false, leaving := false, coeffMode := 3 }]; s.ok = true ∧ s.pst p = stLpi ∧ s.bit (F.PORT_LPI_STAT_deep p) = true ∧ s.bit (F.FUR_RETURN_on_deep_lpi p) = true ∧ (s.port p).returned = false ∧ (s.usable p).isEmpty = false ∧ (s.port p).leaving = false) ∧
    (let p : Port := 9; let q : Fin 4 := 0; let s : State := after [updFur fun x => { x with reclaims := [(q.val, [p.val])] }, updPort p fun x => { x with reclaimLeft := [q.val], returned := true }]; s.ok = true ∧ (s.fur.reclaims.getD q []).head? = some p.val ∧ s.fur.reclaims.sorted = true ∧ s.portPowered p = true ∧ s.heldByRemould p = false) ∧
    (let pot : Fin 128 := 0; let s : State := after []; s.ok = true ∧ s.domOn (domFur (pot.val / 32)) = true) ∧
    (let pot : Fin 128 := 0; let s : State := after []; s.ok = true ∧ s.domOn (domFur (pot.val / 32)) = true) ∧
    (let b : Fin 16 := 0; let pair : Fin 56 := 0; let s : State := after [setF (F.BND_PAIR_STAT_state b pair) 7]; s.ok = true ∧ (s.bnd b).hold = false ∧ (s.f (F.BND_PAIR_STAT_state b pair) = pcActive ∨ s.f (F.BND_PAIR_STAT_state b pair) = pcFrozen)) ∧
    (let b : Fin 16 := 0; let pair : Fin 56 := 0; let s : State := after [setReg (R.BND_MEMBERS_LO b) 0x00008B8A, setF (F.PORT_STATE_state 10) 5, setF (F.PORT_STATE_mode 10) 1, setF (F.PORT_STATE_state 11) 5, setF (F.PORT_STATE_mode 11) 1, setF (F.BND_CFG_pairs b) 1, setF (F.BND_PAIR_CFG_kind b pair) 1, setF (F.BND_PAIR_CFG_victim b pair) 1, setF (F.BND_PAIR_CFG_en b pair) 1, setReg (R.FUR_SLOT 0) 0x8000, setF (F.BND_PAIR_STAT_state b pair) 6, setF (F.BND_CFG_valid b) 1, updBnd b fun y => { y with pairs := [(pair.val, { adapted := 1, started := true, depths := [90, 91] })] }]; s.ok = true ∧ (s.bnd b).hold = false ∧ (s.bnd b).pairs.sorted = true ∧ s.f (F.BND_PAIR_STAT_state b pair) = pcConverging ∧ s.bit (F.BND_CFG_valid b) = true ∧ pair.val < s.f (F.BND_CFG_pairs b) ∧ s.pairState b pair = pcConverging ∧ ((s.bnd b).pairs.getD pair {}).started = true) ∧
    (let b : Fin 16 := 0; let pair : Fin 56 := 0; let s : State := after [setReg (R.BND_MEMBERS_LO b) 0x00008B8A, setF (F.PORT_STATE_state 10) 5, setF (F.PORT_STATE_mode 10) 1, setF (F.PORT_STATE_state 11) 5, setF (F.PORT_STATE_mode 11) 1, setF (F.BND_CFG_pairs b) 1, setF (F.BND_PAIR_CFG_kind b pair) 1, setF (F.BND_PAIR_CFG_victim b pair) 1, setF (F.BND_PAIR_CFG_en b pair) 1, setReg (R.FUR_SLOT 0) 0x8000, setF (F.BND_PAIR_STAT_state b pair) 6, setF (F.BND_CFG_valid b) 1, updBnd b fun y => { y with pairs := [(pair.val, { adapted := 1, started := true })] }]; s.ok = true ∧ (s.bnd b).hold = false ∧ (s.bnd b).pairs.sorted = true ∧ s.f (F.BND_PAIR_STAT_state b pair) = pcConverging ∧ s.bit (F.BND_CFG_valid b) = true ∧ pair.val < s.f (F.BND_CFG_pairs b) ∧ s.pairState b pair = pcConverging ∧ ((s.bnd b).pairs.getD pair {}).started = true) ∧
    (let path : Path := .gaffer; let b : Fin 16 := 0; let s : State := after [setF (F.BND_CFG_valid b) 1]; s.ok = true ∧ Granted path (R.BND_CTL b) s ∧ (s.bnd b).hold = false) :=
  ⟨⟨after_ok _, by decide +kernel⟩,
   ⟨after_ok _, by decide +kernel⟩,
   ⟨after_ok _, by decide +kernel⟩,
   ⟨after_ok _, by decide +kernel⟩,
   ⟨after_ok _, by decide +kernel⟩,
   ⟨after_ok _, by decide +kernel⟩,
   ⟨after_ok _, by decide +kernel⟩,
   ⟨after_ok _, by decide +kernel⟩,
   ⟨after_ok _, by decide +kernel⟩⟩

theorem meets_SegmentPlca :
    (let p : SegPort := 0; let s : State := after [setF (F.PORT_STATE_state (56 + p.val)) 5, setF (F.PORT_SEG_CFG_plca_en (56 + p.val)) 1, setF (F.PORT_SEG_CFG_coordinator (56 + p.val)) 0]; s.ok = true ∧ s.pst (56 + p.val) = stUp ∧ s.bit (F.PORT_SEG_CFG_plca_en (56 + p.val)) = true ∧ s.bit (F.PORT_SEG_CFG_coordinator (56 + p.val)) = false) ∧
    (let p : SegPort := 0; let s : State := after [setF (F.PORT_STATE_state (56 + p.val)) 2, setF (F.PORT_SEG_CFG_plca_en (56 + p.val)) 1, setF (F.PORT_SEG_CFG_coordinator (56 + p.val)) 1, setF (F.PORT_SEG_CFG_node_id (56 + p.val)) 0, setF (F.PORT_SEG_CFG_node_count (56 + p.val)) 8, setF (F.PORT_SEG_TIMING_burst_timer (56 + p.val)) 128, setF (F.PORT_SEG_TIMING_to_timer (56 + p.val)) 32, updPort (56 + p.val) fun x => { x with wait := none, stage := false }]; s.ok = true ∧ s.pst (56 + p.val) = stListen ∧ s.segReady (56 + p.val) true = true) ∧
    (let p : SegPort := 0; let s : State := after [setF (F.PORT_STATE_state (56 + p.val)) 5, setF (F.PORT_SEG_CFG_plca_en (56 + p.val)) 1, setF (F.PORT_SEG_STAT_plca_active (56 + p.val)) 1]; s.ok = true ∧ s.pst (56 + p.val) = stUp ∧ s.bit (F.PORT_SEG_STAT_plca_active (56 + p.val)) = true) ∧
    (let p : SegPort := 0; let s : State := after [setF (F.PORT_STATE_state (56 + p.val)) 5, setF (F.PORT_SEG_CFG_plca_en (56 + p.val)) 1, setF (F.PORT_SEG_STAT_plca_active (56 + p.val)) 1, setF (F.PORT_SEG_CFG_coordinator (56 + p.val)) 0, updPort (56 + p.val) fun x => { x with localSleep := false, partnerSleep := false }]; s.ok = true ∧ s.pst (56 + p.val) = stUp ∧ s.bit (F.PORT_SEG_STAT_plca_active (56 + p.val)) = true ∧ s.bit (F.PORT_SEG_CFG_coordinator (56 + p.val)) = false ∧ (s.port (56 + p.val)).localSleep = false ∧ (s.port (56 + p.val)).partnerSleep = false) ∧
    (let p : SegPort := 0; let s : State := after [setF (F.PORT_STATE_state (56 + p.val)) 5, setF (F.PORT_SEG_CFG_plca_en (56 + p.val)) 1, setF (F.PORT_SEG_STAT_plca_active (56 + p.val)) 1, setF (F.PORT_SEG_CFG_coordinator (56 + p.val)) 1]; s.ok = true ∧ s.pst (56 + p.val) = stUp ∧ s.bit (F.PORT_SEG_STAT_plca_active (56 + p.val)) = true ∧ s.bit (F.PORT_SEG_CFG_coordinator (56 + p.val)) = true) :=
  ⟨⟨after_ok _, by decide +kernel⟩,
   ⟨after_ok _, by decide +kernel⟩,
   ⟨after_ok _, by decide +kernel⟩,
   ⟨after_ok _, by decide +kernel⟩,
   ⟨after_ok _, by decide +kernel⟩⟩

theorem meets_SegmentCollisionsAndCensus :
    (let p : SegPort := 0; let s : State := after [setF (F.PORT_STATE_state (56 + p.val)) 5, setF (F.PORT_SEG_CFG_plca_en (56 + p.val)) 1, updPort (56 + p.val) fun x => { x with sending := some { owner := none, cls := 0, bytes := [1#8], launch := none, seen := true, tries := 3 } }]; s.ok = true ∧ s.pst (56 + p.val) = stUp) ∧
    (let p : SegPort := 0; let s : State := after [setF (F.PORT_STATE_state (56 + p.val)) 5, setF (F.PORT_SEG_CFG_plca_en (56 + p.val)) 1, updPort (56 + p.val) fun x => { x with sending := some { owner := none, cls := 0, bytes := [1#8], launch := none, seen := true, tries := 3 } }]; s.ok = true ∧ s.pst (56 + p.val) = stUp) ∧
    (let p : SegPort := 0; let s : State := after [setF (F.PORT_STATE_state (56 + p.val)) 5, setF (F.PORT_SEG_CFG_plca_en (56 + p.val)) 1, updPort (56 + p.val) fun x => { x with sleepWait := true }]; s.ok = true ∧ (s.port (56 + p.val)).sleepWait = true ∧ s.pst (56 + p.val) = stUp) ∧
    (let p : SegPort := 0; let s : State := after [setF (F.PORT_STATE_state (56 + p.val)) 5, setF (F.PORT_SEG_CFG_plca_en (56 + p.val)) 1, setF (F.PORT_SEG_STAT_plca_active (56 + p.val)) 1, updPort (56 + p.val) fun x => { x with censusSeen := 5, censusPrev := 3 }]; s.ok = true ∧ s.bit (F.PORT_SEG_STAT_plca_active (56 + p.val)) = true) ∧
    (let path : Path := .gaffer; let p : SegPort := 0; let s : State := after []; s.ok = true ∧ Granted path (R.PORT_SEG_CENSUS_CTL (56 + p.val)) s) ∧
    (let p : SegPort := 0; let s : State := after [setF (F.PORT_STATE_state (56 + p.val)) 5, setF (F.PORT_SEG_CFG_plca_en (56 + p.val)) 1, updPort (56 + p.val) fun x => { x with windowMin := some 32800 }]; s.ok = true ∧ s.pst (56 + p.val) = stUp) :=
  ⟨⟨after_ok _, by decide +kernel⟩,
   ⟨after_ok _, by decide +kernel⟩,
   ⟨after_ok _, by decide +kernel⟩,
   ⟨after_ok _, by decide +kernel⟩,
   ⟨after_ok _, by decide +kernel⟩,
   ⟨after_ok _, by decide +kernel⟩⟩

theorem meets_CalibrationSets :
    (let p : Port := 9; let s : State := after [setF (F.PORT_STATE_state p) 2, setF (F.PORT_CTL_admin p) 2, updPort p fun x => { x with stage := true }, .act (.grant { req := 6, act := 3, port := p.val, bundle := 31, ports := [p.val], blines := [], qtrs := [], flash := false, cellar := false }), updCal fun x => { x with seqs := [(seqOf p, [p.val])], full := [p.val] }]; s.ok = true ∧ (s.port p).stage = true ∧ ((s.ledger.books.any fun b => b.act == 3 && b.req == 6 && b.ports.contains p) = true) ∧ s.pst p = stListen) ∧
    (let p : Port := 57; let sets : List CalSet := [{ kind := 8, family := 0, vals := [3], resid := [0], short := false, spares := 8 }]; let s : State := after [setF (F.PORT_STATE_state p) 5]; s.ok = true ∧ s.linkUp p = true ∧ s.heldByLedger p = false ∧ s.portQuiet p = false ∧ portClass p = .segment ∧ sets.length = 1) ∧
    (let p : Port := 9; let s : State := after [setF (F.PORT_STATE_state p) 5]; s.ok = true ∧ s.linkUp p = true ∧ s.heldByLedger p = false ∧ s.portQuiet p = false) ∧
    (let p : Port := 57; let at_ : Boundary := .quiet; let s : State := after [setF (F.PORT_STATE_state p) 2, updCal fun x => { x with sets := [(calKey 1 p 8 0, { kind := 8, family := 0, vals := [5], resid := [0], short := false, spares := 8 })] }]; s.ok = true ∧ ((match at_ with | .quiet => decide (s.linkUp p = false) | .lpi => decide (s.pst p = stLpi) | .idleGap | .codeword => decide (s.pst p = stUp)) = true)) ∧
    (let p : Port := 9; let kind : BitVec 4 := 5; let family : BitVec 2 := 0; let s : State := after [updCal fun x => { x with sets := [(calKey 1 p 5 0, { kind := 5, family := 0, vals := [], resid := [], short := false, spares := 8 })], waited := [] }]; s.ok = true ∧ ((match s.cal.sets.get? (calKey bkPending p kind.toNat (if perFamily kind.toNat then family.toNat else 0)) with | some c => !s.hitless p c && !s.cal.waited.contains (calKey bkPending p kind.toNat (if perFamily kind.toNat then family.toNat else 0)) | none => false) = true)) :=
  ⟨⟨after_ok _, by decide +kernel⟩,
   ⟨after_ok _, by decide +kernel⟩,
   ⟨after_ok _, by decide +kernel⟩,
   ⟨after_ok _, by decide +kernel⟩,
   ⟨after_ok _, by decide +kernel⟩⟩

theorem meets_AnnealsAndAttic :
    (let path : Path := .gaffer; let p : Port := 57; let s : State := after [setF (F.PORT_STATE_state p) 2, setF (F.CAL_PORT_STAT_state p) 0]; s.ok = true ∧ Granted path (R.CAL_PORT_CTL p) s ∧ s.f (F.CAL_PORT_STAT_state p) ≠ 1 ∧ s.f (F.CAL_PORT_STAT_state p) ≠ 2) ∧
    (let path : Path := .gaffer; let p : Port := 9; let s : State := after [setF (F.PORT_STATE_state p) 2, updPort p fun x => { x with fg := true }]; s.ok = true ∧ Granted path (R.CAL_PORT_CTL p) s) ∧
    (let p : Port := 9; let s : State := after [setF (F.PORT_STATE_state p) 0, updPort p fun x => { x with fg := true }]; s.ok = true ∧ (s.port p).fg = true ∧ (s.pst p = stDisabled ∨ s.pst p = stListen)) ∧
    (let path : Path := .gaffer; let s : State := after [setF F.CAL_ATTIC_CTL_write 0]; s.ok = true ∧ Granted path (R.CAL_ATTIC_CTL) s ∧ s.bit F.CAL_ATTIC_CTL_write = false ∧ s.cal.newer ≤ 1) ∧
    (let s : State := after [setF F.CAL_ATTIC_CTL_write 1]; s.ok = true ∧ s.bit F.CAL_ATTIC_CTL_write = true) :=
  ⟨⟨after_ok _, by decide +kernel⟩,
   ⟨after_ok _, by decide +kernel⟩,
   ⟨after_ok _, by decide +kernel⟩,
   ⟨after_ok _, by decide +kernel⟩,
   ⟨after_ok _, by decide +kernel⟩⟩

theorem meets_CableTests :
    (let path : Path := .gaffer; let p : Port := 9; let s : State := after [setF (F.PORT_STATE_state p) 2, setF (F.DIAG_TDR_STAT_state p) 0, setReg R.MLD_GOV_TXEN 0xFFFFFFFF, setF F.FLT_STAT_safe 0]; s.ok = true ∧ Granted path (R.DIAG_TDR_CTL p) s ∧ s.f (F.DIAG_TDR_STAT_state p) ≠ 1 ∧ s.f (F.DIAG_TDR_STAT_state p) ≠ 2) ∧
    (let path : Path := .gaffer; let p : Port := 9; let s : State := after [setF (F.DIAG_TDR_STAT_state p) 2]; s.ok = true ∧ Granted path (R.DIAG_TDR_CTL p) s ∧ (s.f (F.DIAG_TDR_STAT_state p) = 1 ∨ s.f (F.DIAG_TDR_STAT_state p) = 2)) ∧
    (let p : Port := 9; let s : State := after [setF (F.DIAG_TDR_STAT_state p) 2]; s.ok = true ∧ s.f (F.DIAG_TDR_STAT_state p) = 2) ∧
    (let p : Port := 9; let s : State := after [setF (F.PORT_STATE_state p) 5]; s.ok = true ∧ s.pst p = stUp ∧ portClass p ≠ .segment) ∧
    (let path : Path := .gaffer; let p : Port := 9; let s : State := after [setF (F.DIAG_FP_STAT_ref p) 1]; s.ok = true ∧ Granted path (R.DIAG_FP_CTL p) s ∧ s.diag.refs.sorted = true) ∧
    (let path : Path := .gaffer; let p : Port := 9; let s : State := after []; s.ok = true ∧ Granted path (R.DIAG_FP_CTL p) s) :=
  ⟨⟨after_ok _, by decide +kernel⟩,
   ⟨after_ok _, by decide +kernel⟩,
   ⟨after_ok _, by decide +kernel⟩,
   ⟨after_ok _, by decide +kernel⟩,
   ⟨after_ok _, by decide +kernel⟩,
   ⟨after_ok _, by decide +kernel⟩⟩

theorem meets_SweepsAndFlashBooking :
    (let path : Path := .gaffer; let s : State := after [setReg R.DIAG_SWEEP_SET_LO 0x00008A89, setReg R.DIAG_SWEEP_SET_HI 0, setF (F.PORT_STATE_state 9) 2, setF (F.PORT_STATE_state 10) 2, setF F.DIAG_SWEEP_STAT_state 0, setReg R.MLD_GOV_TXEN 0xFFFFFFFF, setF F.FLT_STAT_safe 0]; s.ok = true ∧ Granted path (R.DIAG_SWEEP_CTL) s ∧ s.f F.DIAG_SWEEP_STAT_state ≠ 1 ∧ s.f F.DIAG_SWEEP_STAT_state ≠ 2 ∧ s.sweepSetOk = true) ∧
    (let path : Path := .gaffer; let s : State := after [setReg R.DIAG_SWEEP_SET_LO 0x00008A89, setReg R.DIAG_SWEEP_SET_HI 0, setF (F.PORT_STATE_state 9) 2, setF (F.PORT_STATE_state 10) 2, setF F.DIAG_SWEEP_STAT_state 0, setReg R.MLD_GOV_TXEN 0xFFFFFFFF, setF F.FLT_STAT_safe 0]; s.ok = true ∧ Granted path (R.DIAG_SWEEP_CTL) s ∧ s.f F.DIAG_SWEEP_STAT_state ≠ 1 ∧ s.f F.DIAG_SWEEP_STAT_state ≠ 2 ∧ s.sweepSetOk = true) ∧
    (let path : Path := .gaffer; let s : State := after [setF F.DIAG_SWEEP_STAT_state 2]; s.ok = true ∧ Granted path (R.DIAG_SWEEP_CTL) s ∧ (s.f F.DIAG_SWEEP_STAT_state = 1 ∨ s.f F.DIAG_SWEEP_STAT_state = 2)) ∧
    (let s : State := after [setF F.DIAG_SWEEP_STAT_state 2, updDiag fun x => { x with fired := true }]; s.ok = true ∧ s.f F.DIAG_SWEEP_STAT_state = 2 ∧ s.diag.fired = true) ∧
    (let path : Path := .gaffer; let s : State := after [setF F.DIAG_FLASH_BOOK_request 0]; s.ok = true ∧ Granted path (R.DIAG_FLASH_BOOK) s ∧ s.bit F.DIAG_FLASH_BOOK_request = false) ∧
    (let path : Path := .gaffer; let s : State := after [.act (.grant flashBooking), setF F.DIAG_FLASH_BOOK_granted 1]; s.ok = true ∧ Granted path (R.DIAG_FLASH_BOOK) s) :=
  ⟨⟨after_ok _, by decide +kernel⟩,
   ⟨after_ok _, by decide +kernel⟩,
   ⟨after_ok _, by decide +kernel⟩,
   ⟨after_ok _, by decide +kernel⟩,
   ⟨after_ok _, by decide +kernel⟩,
   ⟨after_ok _, by decide +kernel⟩⟩

theorem meets_LowPowerIdle :
    (let p : Port := 9; let s : State := after [setF (F.PORT_STATE_state p) 5, setF (F.PORT_STATE_mode p) 4, setF (F.PORT_LPI_CFG_eee_adv p) 1, setF (F.PORT_LPI_CFG_lpi_allow p) 1, updPort p fun x => { x with partnerEee := true, localSleep := false, partnerSleep := false, exiting := false, txq := [], sending := none }, setReg (R.CANE_CFG 0) 0]; s.ok = true ∧ s.lpiAgreed p = true ∧ portClass p ≠ .segment ∧ s.caneOf p = none ∧ s.pst p = stUp ∧ s.bit (F.PORT_LPI_CFG_lpi_allow p) = true ∧ (s.port p).localSleep = false ∧ (s.port p).partnerSleep = false ∧ (s.port p).exiting = false ∧ (s.port p).txq = [] ∧ (s.port p).sending = none) ∧
    (let p : Port := 9; let s : State := after [setF (F.PORT_STATE_state p) 5, setF (F.PORT_STATE_mode p) 4, setF (F.PORT_LPI_CFG_eee_adv p) 1, setF (F.PORT_LPI_CFG_lpi_allow p) 1, updPort p fun x => { x with partnerEee := true, localSleep := false, partnerSleep := false, exiting := false, txq := [], sending := none }, setReg (R.CANE_CFG 0) 0]; s.ok = true ∧ s.lpiAgreed p = true ∧ portClass p ≠ .segment ∧ s.caneOf p = none ∧ s.pst p = stUp) ∧
    (let p : Port := 9; let s : State := after [setF (F.PORT_STATE_state p) 5, setF (F.PORT_STATE_mode p) 4, setF (F.PORT_LPI_CFG_eee_adv p) 1, setF (F.PORT_LPI_CFG_lpi_allow p) 1, updPort p fun x => { x with partnerEee := true, localSleep := false, partnerSleep := false, exiting := false, txq := [], sending := none }, setReg (R.CANE_CFG 0) 0, setF (F.PORT_LPI_STAT_tx_lpi p) 1]; s.ok = true ∧ s.caneOf p = none ∧ s.linkUp p = true ∧ s.bit (F.PORT_LPI_STAT_tx_lpi p) = true) ∧
    (let p : Port := 9; let s : State := after [setF (F.PORT_STATE_state p) 5, setF (F.PORT_STATE_mode p) 4, setF (F.PORT_LPI_CFG_eee_adv p) 1, setF (F.PORT_LPI_CFG_lpi_allow p) 1, updPort p fun x => { x with partnerEee := true, localSleep := false, partnerSleep := false, exiting := false, txq := [], sending := none }, setReg (R.CANE_CFG 0) 0, setF (F.PORT_LPI_STAT_rx_lpi p) 1, setF (F.PORT_STATE_state p) 6]; s.ok = true ∧ s.caneOf p = none ∧ s.linkUp p = true ∧ s.bit (F.PORT_LPI_STAT_rx_lpi p) = true) ∧
    (let p : Port := 9; let s : State := after [setF (F.PORT_STATE_state p) 5, setF (F.PORT_STATE_mode p) 4, setF (F.PORT_LPI_CFG_eee_adv p) 1, setF (F.PORT_LPI_CFG_lpi_allow p) 1, updPort p fun x => { x with partnerEee := true, localSleep := false, partnerSleep := false, exiting := false, txq := [], sending := none }, setReg (R.CANE_CFG 0) 0, setF (F.PORT_STATE_state p) 6, updPort p fun x => { x with exiting := true }]; s.ok = true ∧ s.caneOf p = none ∧ s.linkUp p = true ∧ (s.port p).exiting = true ∧ (s.port p).returned = false) ∧
    (let p : Port := 1; let s : State := after [setF (F.PORT_STATE_state p) 6, setF (F.PORT_STATE_mode p) 7, setF (F.PORT_LPI_STAT_quick p) 1]; s.ok = true ∧ s.pst p = stLpi ∧ s.pmode p = 7 ∧ s.bit (F.PORT_LPI_STAT_quick p) = true) ∧
    (let p : Port := 9; let s : State := after [setF (F.PORT_STATE_state p) 6, setF (F.PORT_LPI_CFG_deep_en p) 1, setF (F.PORT_LPI_STAT_deep p) 0]; s.ok = true ∧ s.pst p = stLpi ∧ s.bit (F.PORT_LPI_CFG_deep_en p) = true ∧ s.bit (F.PORT_LPI_STAT_deep p) = false) ∧
    (let p : Port := 9; let s : State := after [setF (F.PORT_STATE_state p) 5, updPort p fun x => { x with localSleep := false, partnerSleep := false }, updPort p fun x => { x with exiting := true }]; s.ok = true ∧ s.linkUp p = true ∧ (s.port p).localSleep = false ∧ (s.port p).partnerSleep = false ∧ s.caneOf p = none ∧ (s.port p).exiting = true) :=
  ⟨⟨after_ok _, by decide +kernel⟩,
   ⟨after_ok _, by decide +kernel⟩,
   ⟨after_ok _, by decide +kernel⟩,
   ⟨after_ok _, by decide +kernel⟩,
   ⟨after_ok _, by decide +kernel⟩,
   ⟨after_ok _, by decide +kernel⟩,
   ⟨after_ok _, by decide +kernel⟩,
   ⟨after_ok _, by decide +kernel⟩⟩

theorem meets_SleepHandshake :
    (let p : Port := 9; let s : State := after [setF (F.PORT_STATE_state p) 5, setReg (R.CANE_CFG 0) 0, updPort p fun x => { x with localSleep := true, partnerSleep := false }, setF (F.PORT_TC10_STAT_hs p) 1]; s.ok = true ∧ (s.port p).localSleep = true ∧ s.f (F.PORT_TC10_STAT_hs p) = 1) ∧
    (let p : Port := 9; let s : State := after [setF (F.PORT_STATE_state p) 5, setReg (R.CANE_CFG 0) 0, updPort p fun x => { x with localSleep := true, partnerSleep := false }, setF (F.PORT_TC10_STAT_hs p) 1, setF (F.PORT_TC10_STAT_hs p) 3]; s.ok = true ∧ s.caneOf p = none ∧ s.linkUp p = true ∧ (s.port p).localSleep = true ∧ s.f (F.PORT_TC10_STAT_hs p) = 3) ∧
    (let p : Port := 9; let s : State := after [setF (F.PORT_STATE_state p) 5, setReg (R.CANE_CFG 0) 0, updPort p fun x => { x with localSleep := true, partnerSleep := false }, setF (F.PORT_TC10_STAT_hs p) 1]; s.ok = true ∧ s.caneOf p = none ∧ s.linkUp p = true ∧ (s.port p).localSleep = true) ∧
    (let p : Port := 9; let s : State := after [setF (F.PORT_STATE_state p) 6, setReg (R.CANE_CFG 0) 0, setF (F.PORT_TC10_CFG_accept_sleep p) 1]; s.ok = true ∧ s.caneOf p = none ∧ s.linkUp p = true ∧ portClass p ≠ .segment) ∧
    (let p : Port := 9; let s : State := after [setF (F.PORT_STATE_state p) 5, setReg (R.CANE_CFG 0) 0, updPort p fun x => { x with partnerSleep := true }]; s.ok = true ∧ s.caneOf p = none ∧ s.linkUp p = true ∧ (s.port p).partnerSleep = true) :=
  ⟨⟨after_ok _, by decide +kernel⟩,
   ⟨after_ok _, by decide +kernel⟩,
   ⟨after_ok _, by decide +kernel⟩,
   ⟨after_ok _, by decide +kernel⟩,
   ⟨after_ok _, by decide +kernel⟩⟩

theorem meets_WakesAndPulses :
    (let p : Port := 9; let s : State := after [setF (F.PORT_STATE_state p) 1, updPower fun x => { x with park := false, stage := 0 }, setReg (R.WAKE_DET_EN) 0xFFFFFFFF, setReg (R.WAKE_DET_EN + 4) 0xFFFFFFFF, setReg (R.WAKE_PGROUP (p.val / 8)) 0, setF F.AON_MODE_mode 0, setF F.PWR_MODE_STAT_entering 0, setReg (R.CANE_CFG 0) 0]; s.ok = true ∧ s.detectorArmed p = true ∧ s.nearLoop p = false ∧ s.pst p = stSleep ∧ s.heldByRemould p = false ∧ s.caneOf p = none ∧ s.portGroup p = 0 ∧ s.parked = false ∧ s.entering = false) ∧
    (let p : Port := 9; let s : State := after [setF (F.PORT_STATE_state p) 5, setReg (R.WAKE_PGROUP (p.val / 8)) 0, setF (F.PORT_TC10_CFG_wur_fwd p) 1]; s.ok = true ∧ s.pst p = stUp ∧ s.portGroup p = 0) ∧
    (let i : Fin 4 := 0; let s : State := after [setReg R.WAKE_IN_CFG 0x01010101, setF F.AON_MODE_mode 0, setF F.PWR_MODE_STAT_entering 0, updPower fun x => { x with park := false, stage := 0 }]; s.ok = true ∧ s.parked = false ∧ s.entering = false ∧ s.domOn domMgt = true ∧ s.wakeIn i = (true, 0)) ∧
    (let p : Port := 9; let s : State := after [setF (F.PORT_STATE_state p) 1, setPending p true, updPort p fun x => { x with leaving := false, forwarded := false, returned := false, wupRunning := false }, setF (F.PORT_STATE_orphan p) 0]; s.ok = true ∧ s.pendingWake p = true ∧ s.pst p = stSleep ∧ s.heldByRemould p = false ∧ s.heldByOrphan p = false ∧ s.portPowered p = true ∧ (s.port p).leaving = false ∧ s.heldByLedger p = false ∧ (s.port p).forwarded = false ∧ (s.port p).returned = false ∧ (s.port p).wupRunning = false ∧ s.caneOf p = none) ∧
    (let p : Port := 9; let s : State := after [updPort p fun x => { x with wupRunning := true }]; s.ok = true ∧ (s.port p).wupRunning = true) ∧
    (let p : Port := 9; let s : State := after [updPort p fun x => { x with pulseHeld := true }, setReg R.MLD_GOV_TXEN 0xFFFFFFFF, setReg (R.MLD_GOV_TXEN + 4) 0xFFFFFFFF, setF F.FLT_STAT_safe 0]; s.ok = true ∧ (s.port p).pulseHeld = true ∧ s.mayTransmit p = true) ∧
    (let p : Port := 9; let s : State := after [setF (F.PORT_STATE_state p) 2, setF (F.PORT_PARTNER_FLAGS_valid p) 0, updPort p fun x => { x with retriesLeft := 2 }, setReg R.MLD_GOV_TXEN 0xFFFFFFFF]; s.ok = true ∧ s.pst p = stListen ∧ s.bit (F.PORT_PARTNER_FLAGS_valid p) = false) :=
  ⟨⟨after_ok _, by decide +kernel⟩,
   ⟨after_ok _, by decide +kernel⟩,
   ⟨after_ok _, by decide +kernel⟩,
   ⟨after_ok _, by decide +kernel⟩,
   ⟨after_ok _, by decide +kernel⟩,
   ⟨after_ok _, by decide +kernel⟩,
   ⟨after_ok _, by decide +kernel⟩⟩

theorem meets_TimebaseSteering :
    (let path : Path := .gaffer; let s : State := after [setF F.TB_STAT_set_done 0, setF F.FLT_STAT_safe 0]; s.ok = true ∧ Granted path (R.TB_SET + 12) s ∧ s.bit F.TB_STAT_set_done = false ∧ s.f F.FLT_STAT_safe = 0) ∧
    (let path : Path := .gaffer; let s : State := after [setF F.MLD_GOV_STEP_step_us 100]; s.ok = true ∧ Granted path (R.TB_STEP) s ∧ s.tb.lastStep = none) ∧
    (let path : Path := .gaffer; let s : State := after [setF F.MLD_GOV_TIME_freq_ppb 1000]; s.ok = true ∧ Granted path (R.TB_ADJ) s) ∧
    (let d : Fin 4 := 0; let p : Port := 9; let s : State := after [setF F.TB_CFG_gptp_en 1, setF (F.TB_DOM_STAT_valid d) 1, setF (F.TB_DOM_STAT_slave_valid d) 1, setF (F.TB_DOM_STAT_slave_port d) p, setF (F.PORT_STATE_state p) 5]; s.ok = true ∧ s.domainOn d = true ∧ s.bit (F.TB_DOM_STAT_slave_valid d) = true ∧ s.f (F.TB_DOM_STAT_slave_port d) = p ∧ s.linkUp p = true ∧ s.gptpPort p = true) ∧
    (let d : Fin 4 := 0; let s : State := after [setF F.TB_CFG_gptp_en 1, setF (F.TB_DOM_STAT_valid d) 1]; s.ok = true ∧ s.domainOn d = true) ∧
    (let s : State := after [setF F.TB_STAT_state 4]; s.ok = true ∧ s.f F.TB_STAT_state = tsHoldover) ∧
    (let d : Fin 4 := 0; let slave : Option Port := none; let s : State := after [setF F.TB_CFG_gptp_en 1, setF (F.TB_DOM_STAT_valid d) 1]; s.ok = true ∧ s.domainOn d = true ∧ (slave.all (fun p => s.gptpPort p) = true)) :=
  ⟨⟨after_ok _, by decide +kernel⟩,
   ⟨after_ok _, by decide +kernel⟩,
   ⟨after_ok _, by decide +kernel⟩,
   ⟨after_ok _, by decide +kernel⟩,
   ⟨after_ok _, by decide +kernel⟩,
   ⟨after_ok _, by decide +kernel⟩,
   ⟨after_ok _, by decide +kernel⟩⟩

theorem meets_GptpAndPins :
    (let d : Fin 4 := 0; let s : State := after [setF F.FLT_STAT_safe 0, setF F.TB_CFG_gptp_en 1, setF (F.TB_DOM_STAT_valid d) 1, setF (F.TB_DOM_STAT_role d) 2, setF (F.PORT_STATE_state 9) 5, setReg (R.TB_PORT_ROLES 9) 1]; s.ok = true ∧ s.f F.FLT_STAT_safe = 0 ∧ s.domainOn d = true ∧ s.f (F.TB_DOM_STAT_role d) = 2) ∧
    (let p : Port := 9; let s : State := after [setF F.FLT_STAT_safe 0, setF F.TB_CFG_gptp_en 1, setF (F.PORT_STATE_state p) 5, setReg (R.TB_PORT_ROLES p) 1]; s.ok = true ∧ s.f F.FLT_STAT_safe = 0 ∧ s.bit F.TB_CFG_gptp_en = true ∧ s.gptpPort p = true ∧ s.linkUp p = true ∧ s.f (F.TB_PORT_ROLES_roles p) ≠ 0) ∧
    (let s : State := after [setF F.FLT_STAT_safe 0, setF F.TB_PPS_CFG_pps_out_en 1]; s.ok = true ∧ s.f F.FLT_STAT_safe = 0 ∧ s.bit F.TB_PPS_CFG_pps_out_en = true) ∧
    (let s : State := after [setF F.TB_PPS_CFG_pps_in_en 1, setF F.TB_CFG_pps_discipline 0, updTb fun x => { x with ns := 250, frac := 32768 }]; s.ok = true ∧ s.bit F.TB_PPS_CFG_pps_in_en = true ∧ s.tb.lastPps = none ∧ s.tb.ns * 4 + s.tb.frac / 16384 < 2000000000 ∧ s.tb.frac < 65536 ∧ s.bit F.TB_CFG_pps_discipline = false) ∧
    (let p : Port := 9; let s : State := after [setF (F.LCH_GCL_CFG_CTRL_en p) 1]; s.ok = true ∧ True) :=
  ⟨⟨after_ok _, by decide +kernel⟩,
   ⟨after_ok _, by decide +kernel⟩,
   ⟨after_ok _, by decide +kernel⟩,
   ⟨after_ok _, by decide +kernel⟩,
   ⟨after_ok _, by decide +kernel⟩⟩

theorem meets_LaunchGroups :
    (let s : State := after []; s.ok = true ∧ s.tb.lastLaunch = none ∧ ((List.range 16).all (fun g => !s.lgWaits g 1) = true)) ∧
    (let path : Path := .gaffer; let g : Fin 16 := 0; let src : BitVec 2 := 1; let s : State := after [setF (F.LCH_LG_STAT_state g) 0]; s.ok = true ∧ Granted path (R.LCH_LG_CTL g) s ∧ s.lgLocked g = false ∧ (src.toNat = 1 ∨ src.toNat = 0 ∧ s.lgPast g = none)) ∧
    (let path : Path := .gaffer; let g : Fin 16 := 0; let s : State := after [setF (F.LCH_LG_STAT_state g) 1]; s.ok = true ∧ Granted path (R.LCH_LG_CTL g) s ∧ s.lgLocked g = true) ∧
    (let path : Path := .gaffer; let g : Fin 16 := 0; let s : State := after [setF (F.LCH_LG_STAT_state g) 1]; s.ok = true ∧ Granted path (R.LCH_LG_CTL g) s) ∧
    (let groups : BitVec 16 := 1; let s : State := after [setReg (R.LCH_LG_TIME groups.toNat.log2) 0, setReg (R.LCH_LG_TIME groups.toNat.log2 + 4) 0, setReg (R.LCH_LG_TIME groups.toNat.log2 + 8) 0, setReg (R.LCH_LG_TIME groups.toNat.log2 + 12) 0, updTb fun _ => {}, setF (F.LCH_LG_STAT_state groups.toNat.log2) 1, setF (F.LCH_LG_CTL_src groups.toNat.log2) 0, setF (F.LCH_LG_CTL_kind groups.toNat.log2) 0, setReg (R.LCH_LG_MASK groups.toNat.log2) 0, setF F.MLD_REMOULD_STAT_state 0, setF F.DIAG_SWEEP_STAT_state 0]; s.ok = true ∧ groups.toNat = 2 ^ groups.toNat.log2 ∧ s.lgWaits groups.toNat.log2 0 = true ∧ ((s.lgPast groups.toNat.log2).any (fun d => decide (d ≤ 65536000)) = true) ∧ s.bit (F.LCH_LG_CTL_kind groups.toNat.log2) = false ∧ s.targets (s.f (F.LCH_LG_CTL_armer groups.toNat.log2)) (effMask (s.f (F.LCH_LG_CTL_armer groups.toNat.log2)) (s.reg (R.LCH_LG_MASK groups.toNat.log2)).toNat) = [] ∧ s.commit.pend = [] ∧ s.commit.rolls = [] ∧ s.commit.opens = [] ∧ s.f F.MLD_REMOULD_STAT_state ≠ remouldStaged ∧ s.f F.DIAG_SWEEP_STAT_state ≠ 2) :=
  ⟨⟨after_ok _, by decide +kernel⟩,
   ⟨after_ok _, by decide +kernel⟩,
   ⟨after_ok _, by decide +kernel⟩,
   ⟨after_ok _, by decide +kernel⟩,
   ⟨after_ok _, by decide +kernel⟩⟩

theorem meets_HeadLinksAndResets :
    (let h : Head := 0; let rate : BitVec 2 := 3; let width : BitVec 5 := 8; let s : State := after [setF F.GLB_STRAPS_headcfg 0, setF (F.HEAD_STAT_state 0) 0, updHead 0 fun _ => {}]; s.ok = true ∧ s.headExists h = true ∧ s.domOn domCxp = true ∧ s.domOn domCxc = true ∧ (s.head h).resetting = false ∧ (s.hdState h = hdDown ∨ s.hdState h = hdLostDown) ∧ 1 ≤ rate.toNat ∧ [1, 2, 4, 8, 16].contains width.toNat = true ∧ width.toNat ≤ s.strapWidth h) ∧
    (let h : Head := 0; let cause : ResetCause := .perst; let s : State := after [setF F.GLB_STRAPS_headcfg 0, setF (F.HEAD_STAT_state 0) 1, setF (F.HEAD_HB_CFG_hb_ms 0) 77, setF F.MLD_ADOPT_STAT_heads_left 0]; s.ok = true ∧ s.hdState h = hdLink ∧ s.headExists h = true ∧ s.domOn domCxc = true ∧ cause ≠ .ide ∧ s.f F.MLD_ADOPT_STAT_heads_left = 0) ∧
    (let h : Head := 0; let s : State := after [updHead h fun x => { x with resetting := true }]; s.ok = true ∧ (s.head h).resetting = true ∧ s.commit.pend.get? (blkHead h) = none ∧ s.commit.rolls.get? (blkHead h) = none) ∧
    (let h : Head := 0; let s : State := after [setF (F.HEAD_STAT_draining h) 1]; s.ok = true ∧ True) :=
  ⟨⟨after_ok _, by decide +kernel⟩,
   ⟨after_ok _, by decide +kernel⟩,
   ⟨after_ok _, by decide +kernel⟩,
   ⟨after_ok _, by decide +kernel⟩⟩

theorem meets_HeadLossAndAttach :
    (let path : Path := .gaffer; let h : Head := 0; let cfg : HostCfg := { bme := true, ats := false, fnMask := false, vecs := [] }; let s : State := after [setF (F.HEAD_STAT_state h) 1, setF F.GLB_MODE_mould_ok 1, setF (F.HEAD_STAT_draining h) 0]; s.ok = true ∧ Granted path (R.HEAD_ATTACH h) s ∧ s.hdState h = hdLink ∧ s.mouldOk = true ∧ cfg.bme = true ∧ s.bit (F.HEAD_STAT_draining h) = false) ∧
    (let path : Path := .gaffer; let h : Head := 0; let s : State := after [setF (F.HEAD_STAT_state h) 2]; s.ok = true ∧ Granted path (R.HEAD_ATTACH h) s ∧ s.attached h = true) ∧
    (let h : Head := 0; let s : State := after [setF (F.HEAD_STAT_state h) 2, setF (F.HEAD_HB_CFG_hb_ms h) 5]; s.ok = true ∧ s.attached h = true ∧ s.f (F.HEAD_HB_CFG_hb_ms h) ≠ 0) ∧
    (let h : Head := 0; let s : State := after [setF (F.HEAD_STAT_state h) 2, updHead h fun x => { x with bme := true }]; s.ok = true ∧ (s.head h).bme = true) ∧
    (let path : Path := .gaffer; let h : Head := 0; let s : State := after []; s.ok = true ∧ Granted path (R.HEAD_HB_KICK h) s) :=
  ⟨⟨after_ok _, by decide +kernel⟩,
   ⟨after_ok _, by decide +kernel⟩,
   ⟨after_ok _, by decide +kernel⟩,
   ⟨after_ok _, by decide +kernel⟩,
   ⟨after_ok _, by decide +kernel⟩⟩

theorem meets_HeadProtocol :
    (let h : Head := 0; let s : State := after [setF (F.HEAD_STAT_state h) 1]; s.ok = true ∧ s.linkTrained h = true) ∧
    (let h : Head := 0; let s : State := after [setF (F.HEAD_STAT_state h) 1]; s.ok = true ∧ s.linkTrained h = true) ∧
    (let h : Head := 0; let s : State := after [setF (F.HEAD_STAT_state h) 1, updHead h fun x => { x with atc := [(0x10000, 0x1000), (0x40000, 0x1000)] }]; s.ok = true ∧ s.linkTrained h = true) ∧
    (let h : Head := 0; let s : State := after [updHead h fun x => { x with invalidating := true }]; s.ok = true ∧ (s.head h).invalidating = true ∧ (((s.head h).invRings.all fun r => s.qpHead r.1 != some h || !(s.ring r.1 r.2).goWait) = true)) ∧
    (let path : Path := .gaffer; let h : Head := 0; let s : State := after [updHead h fun x => { x with atc := [(0x10000, 0x1000)] }]; s.ok = true ∧ Granted path (R.HEAD_ATC_CTL h) s) ∧
    (let h : Head := 0; let on : Bool := false; let s : State := after [setF (F.HEAD_STAT_state h) 1, setF (F.HEAD_STAT_ats_en h) 1]; s.ok = true ∧ s.linkTrained h = true ∧ s.bit (F.HEAD_STAT_ats_en h) ≠ on) ∧
    (let h : Head := 0; let s : State := after [setF (F.HEAD_STAT_state h) 1, updPower fun x => { x with gaffer := true, halted := false }, updHead h fun x => { x with session := 2 }]; s.ok = true ∧ s.linkTrained h = true ∧ s.fwRuns = true) ∧
    (let h : Head := 0; let s : State := after [setF (F.HEAD_STAT_state h) 2, updHead h fun x => { x with fnMask := false, bme := true, pendVecs := [3] }]; s.ok = true ∧ s.linkTrained h = true) ∧
    (let path : Path := .gaffer; let h : Head := 0; let s : State := after [setF (F.HEAD_IRQ_REARM_rearm h) 0]; s.ok = true ∧ Granted path (R.HEAD_IRQ_REARM h) s) :=
  ⟨⟨after_ok _, by decide +kernel⟩,
   ⟨after_ok _, by decide +kernel⟩,
   ⟨after_ok _, by decide +kernel⟩,
   ⟨after_ok _, by decide +kernel⟩,
   ⟨after_ok _, by decide +kernel⟩,
   ⟨after_ok _, by decide +kernel⟩,
   ⟨after_ok _, by decide +kernel⟩,
   ⟨after_ok _, by decide +kernel⟩,
   ⟨after_ok _, by decide +kernel⟩⟩

theorem meets_RingsRun :
    (let h : Head := 0; let q : Qp := 0; let d : Dir := .rx; let s : State := after [wholeHead 0, openWindow 0, setF F.GLB_MODE_mould_ok 1, setF (F.HEAD_STAT_state 0) 2, setF (rf F.QP_RX_CFG_size_log2 q (dirCode d)) 5, setF (F.HEAD_REQ_CFG_max_out 0) 64, setF (F.HEAD_REQ_STAT_now 0) 0, setF (rf F.QP_RX_STATE_state q (dirCode d)) 1]; s.ok = true ∧ s.bit F.FLT_STAT_safe = false ∧ s.attached h = true) ∧
    (let q : Qp := 0; let d : Dir := .rx; let descs : List DescWords := [⟨0, 0, 0, 0⟩]; let s : State := after [wholeHead 0, openWindow 0, setF F.GLB_MODE_mould_ok 1, setF (F.HEAD_STAT_state 0) 2, setF (rf F.QP_RX_CFG_size_log2 q (dirCode d)) 5, setF (F.HEAD_REQ_CFG_max_out 0) 64, setF (F.HEAD_REQ_STAT_now 0) 0, setF (rf F.QP_RX_STATE_state q (dirCode d)) 1, updQ q (dirCode d) fun _ => { fetching := 2 }]; s.ok = true ∧ (s.ring q (dirCode d)).fetching ≠ 0 ∧ s.rgState q (dirCode d) = rgRunning ∧ (s.ring q (dirCode d)).descs = [] ∧ (s.ring q (dirCode d)).translating = none ∧ (s.ring q (dirCode d)).taken = 0 ∧ (s.ring q (dirCode d)).reading = 0 ∧ (s.ring q (dirCode d)).whole = false ∧ (s.ring q (dirCode d)).flights = [] ∧ (s.ring q (dirCode d)).held = [] ∧ (s.qpHead q).isSome = true) ∧
    (let q : Qp := 0; let d : Dir := .rx; let s : State := after [wholeHead 0, openWindow 0, setF F.GLB_MODE_mould_ok 1, setF (F.HEAD_STAT_state 0) 2, setF (rf F.QP_RX_CFG_size_log2 q (dirCode d)) 5, setF (F.HEAD_REQ_CFG_max_out 0) 64, setF (F.HEAD_REQ_STAT_now 0) 0, setF (rf F.QP_RX_STATE_state q (dirCode d)) 1, setF (rf F.QP_RX_STAT_own_wait q (dirCode d)) 1, setF (rf F.QP_RX_HEAD_IDX_tail q (dirCode d)) 4]; s.ok = true ∧ s.bit (rf F.QP_RX_STAT_own_wait q (dirCode d)) = true ∧ s.rgState q (dirCode d) = rgRunning ∧ (s.ring q (dirCode d)).fetching = 0 ∧ (s.ring q (dirCode d)).descs = []) ∧
    (let path : Path := .gaffer; let q : Qp := 0; let d : Dir := .rx; let s : State := after [wholeHead 0, openWindow 0, setF F.GLB_MODE_mould_ok 1, setF (F.HEAD_STAT_state 0) 2, setF (rf F.QP_RX_CFG_size_log2 q (dirCode d)) 5, setF (F.HEAD_REQ_CFG_max_out 0) 64, setF (F.HEAD_REQ_STAT_now 0) 0, setF (rf F.QP_RX_STATE_state q (dirCode d)) 0, setF F.CEL_STAT_init_done 1, setF (rf F.QP_RX_CFG_landing q (dirCode d)) 0, setReg R.MLD_REMOULD_STAT 0]; s.ok = true ∧ Granted path (ringOff (R.QP_RX_CTL q) (dirCode d)) s ∧ s.rgState q (dirCode d) = rgStopped ∧ s.remouldNames q = false) ∧
    (let path : Path := .gaffer; let q : Qp := 0; let d : Dir := .rx; let s : State := after [wholeHead 0, openWindow 0, setF F.GLB_MODE_mould_ok 1, setF (F.HEAD_STAT_state 0) 2, setF (rf F.QP_RX_CFG_size_log2 q (dirCode d)) 5, setF (F.HEAD_REQ_CFG_max_out 0) 64, setF (F.HEAD_REQ_STAT_now 0) 0, setF (rf F.QP_RX_STATE_state q (dirCode d)) 1]; s.ok = true ∧ Granted path (ringOff (R.QP_RX_CTL q) (dirCode d)) s ∧ (s.rgState q (dirCode d) = rgRunning ∨ s.rgState q (dirCode d) = rgFault)) ∧
    (let q : Qp := 0; let d : Dir := .rx; let s : State := after [wholeHead 0, openWindow 0, setF F.GLB_MODE_mould_ok 1, setF (F.HEAD_STAT_state 0) 2, setF (rf F.QP_RX_CFG_size_log2 q (dirCode d)) 5, setF (F.HEAD_REQ_CFG_max_out 0) 64, setF (F.HEAD_REQ_STAT_now 0) 0, setF (rf F.QP_RX_STATE_state q (dirCode d)) 2]; s.ok = true ∧ s.rgState q (dirCode d) = rgStopping ∧ (s.ring q (dirCode d)).held = [] ∧ (s.ring q (dirCode d)).flights = []) ∧
    (let path : Path := .gaffer; let q : Qp := 0; let d : Dir := .rx; let s : State := after [wholeHead 0, openWindow 0, setF F.GLB_MODE_mould_ok 1, setF (F.HEAD_STAT_state 0) 2, setF (rf F.QP_RX_CFG_size_log2 q (dirCode d)) 5, setF (F.HEAD_REQ_CFG_max_out 0) 64, setF (F.HEAD_REQ_STAT_now 0) 0, setF (rf F.QP_RX_STATE_state q (dirCode d)) 1]; s.ok = true ∧ Granted path (ringOff (R.QP_RX_ACK q) (dirCode d)) s) ∧
    (let q : Qp := 0; let d : Dir := .rx; let s : State := after [wholeHead 0, openWindow 0, setF F.GLB_MODE_mould_ok 1, setF (F.HEAD_STAT_state 0) 2, setF (rf F.QP_RX_CFG_size_log2 q (dirCode d)) 5, setF (F.HEAD_REQ_CFG_max_out 0) 64, setF (F.HEAD_REQ_STAT_now 0) 0, setF (rf F.QP_RX_STATE_state q (dirCode d)) 1, updQ q (dirCode d) fun _ => { timer := 1 }, setF (rf F.QP_RX_MOD_timer_us q (dirCode d)) 9]; s.ok = true ∧ (s.ring q (dirCode d)).timer = 1 ∧ s.f (rf F.QP_RX_MOD_timer_us q (dirCode d)) ≠ 0) :=
  ⟨⟨after_ok _, by decide +kernel⟩,
   ⟨after_ok _, by decide +kernel⟩,
   ⟨after_ok _, by decide +kernel⟩,
   ⟨after_ok _, by decide +kernel⟩,
   ⟨after_ok _, by decide +kernel⟩,
   ⟨after_ok _, by decide +kernel⟩,
   ⟨after_ok _, by decide +kernel⟩,
   ⟨after_ok _, by decide +kernel⟩⟩

theorem meets_TransmitFrames :
    (let q : Qp := 0; let s : State := after [wholeHead 0, openWindow 0, setF F.GLB_MODE_mould_ok 1, setF (F.HEAD_STAT_state 0) 2, setF (F.QP_TX_CFG_size_log2 q) 5, setF (F.QP_TX_STATE_state q) 1, setF (F.HEAD_REQ_CFG_max_out 0) 64, updQ q 1 fun _ => { reading := 1, cur := [⟨0, 64, 0, 2 ^ 62, 0⟩] }]; s.ok = true ∧ (s.ring q 1).reading ≠ 0 ∧ s.rgState q 1 = rgRunning ∧ (s.ring q 1).whole = false ∧ (s.qpHead q).isSome = true ∧ ((match (s.ring q 1).cur.getLast? with | some e => isLast e | none => false) = true)) ∧
    (let q : Qp := 0; let s : State := after [wholeHead 0, openWindow 0, setF F.GLB_MODE_mould_ok 1, setF (F.HEAD_STAT_state 0) 2, setF (F.QP_TX_CFG_size_log2 q) 5, setF (F.QP_TX_STATE_state q) 1, setF (F.HEAD_REQ_CFG_max_out 0) 64, setF (F.QP_TX_CFG_port q) 9, setF (F.PORT_STATE_state 9) 5, setReg R.MLD_GOV_TXEN 0xFFFFFFFF, setReg R.FLT_STAT 0, updPort 9 fun _ => {}, setF (F.PORT_STATE_mode 9) 4, setF (F.PORT_STATE_orphan 9) 0, setReg (R.PORT_MAC_CFG 9) 1518, setReg (R.CANE_CFG 0) 0, updQ q 1 fun _ => { whole := true, port := 9, cur := [⟨0, 64, 0, 2 ^ 62, 0⟩], data := List.replicate 64 7 }]; s.ok = true ∧ (s.ring q 1).whole = true ∧ s.rgState q 1 = rgRunning ∧ (s.ring q 1).descs = [] ∧ (s.ring q 1).flights = [] ∧ (s.port (s.ring q 1).port).txq = [] ∧ (s.port (s.ring q 1).port).sending = none ∧ ((match (s.ring q 1).cur.head? with | some e => decide (e.w1 / 2 ^ 16 % 2 = 0) | none => false) = true) ∧ s.txVerdict (s.ring q 1).port { owner := some (q, (s.ring q 1).nextId), cls := (s.ring q 1).cls, bytes := (s.ring q 1).data, launch := none } = stOk) ∧
    (let p : Port := 9; let ecc : Fin 3 := 0; let s : State := after [setF (F.PORT_STATE_state p) 5, setReg R.MLD_GOV_TXEN 0xFFFFFFFF, setReg R.FLT_STAT 0, updPort p fun _ => {}, setF (F.PORT_STATE_mode p) 4, setF (F.PORT_STATE_orphan p) 0, setReg (R.PORT_MAC_CFG p) 1518, setReg (R.CANE_CFG 0) 0, updPort p fun _ => { txq := [{ owner := none, cls := 3, bytes := List.replicate 64 7, launch := none, seen := true, released := true }] }, setReg (R.PORT_LPI_STAT p) 0]; s.ok = true ∧ ecc.val ≠ 2 ∧ (s.port p).sending = none ∧ s.macSends p = true ∧ (s.port p).exiting = false ∧ s.bit (F.PORT_LPI_STAT_tx_lpi p) = false ∧ s.bit (F.PORT_SEG_STAT_plca_active p) = false ∧ ((match (s.port p).txq with | [f] => f.seen && decide (s.txVerdict p f = stOk) | _ => false) = true) ∧ (s.txNext p).isSome = true) ∧
    (let p : Port := 9; let s : State := after [setF (F.PORT_STATE_state p) 5, setReg R.MLD_GOV_TXEN 0xFFFFFFFF, setReg R.FLT_STAT 0, updPort p fun _ => {}, setF (F.PORT_STATE_mode p) 4, setF (F.PORT_STATE_orphan p) 0, setReg (R.PORT_MAC_CFG p) 1518, setReg (R.CANE_CFG 0) 0, updPort p fun _ => { txq := [{ owner := none, cls := 3, bytes := List.replicate 64 7, launch := some 0, seen := true, waiting := true }] }]; s.ok = true ∧ ((match (s.port p).txq with | [f] => f.seen && f.waiting && f.launch.any (fun t => decide (tbAhead s.tb64 t ≤ 0)) && decide (s.txVerdict p f = stOk) | _ => false) = true) ∧ (s.port p).sending = none) ∧
    (let p : Port := 9; let s : State := after [setF (F.PORT_STATE_state p) 5, setReg R.MLD_GOV_TXEN 0xFFFFFFFF, setReg R.FLT_STAT 0, updPort p fun _ => {}, setF (F.PORT_STATE_mode p) 4, setF (F.PORT_STATE_orphan p) 0, setReg (R.PORT_MAC_CFG p) 1518, setReg (R.CANE_CFG 0) 0, updPort p fun _ => { sending := some { owner := none, cls := 3, bytes := List.replicate 20 7, launch := none, seen := true } }]; s.ok = true ∧ s.macUp p = true ∧ (s.port p).sending.isSome = true ∧ (s.port p).txq = []) :=
  ⟨⟨after_ok _, by decide +kernel⟩,
   ⟨after_ok _, by decide +kernel⟩,
   ⟨after_ok _, by decide +kernel⟩,
   ⟨after_ok _, by decide +kernel⟩,
   ⟨after_ok _, by decide +kernel⟩⟩

theorem meets_HostReadsAndCellar :
    (let q : Qp := 0; let d : Dir := .rx; let s : State := after [wholeHead 0, openWindow 0, setF F.GLB_MODE_mould_ok 1, setF (F.HEAD_STAT_state 0) 2, setF (rf F.QP_RX_CFG_size_log2 q (dirCode d)) 5, setF (F.HEAD_REQ_CFG_max_out 0) 64, setF (F.HEAD_REQ_STAT_now 0) 0, setF (rf F.QP_RX_STATE_state q (dirCode d)) 1, setF (rf F.QP_RX_CFG_landing q (dirCode d)) 1, updHead 0 fun x => { x with atc := [(0, 2 ^ 63)] }, updQ q (dirCode d) fun _ => { goWait := true, units := 1, held := [⟨0, [leBytes 32 5]⟩] }]; s.ok = true ∧ (s.ring q (dirCode d)).goWait = true ∧ (s.ring q (dirCode d)).translating = none ∧ (s.ring q (dirCode d)).frames = [] ∧ (s.ring q (dirCode d)).flights = [] ∧ (s.qpHead q).isSome = true) ∧
    (let h : Head := 0; let addr : BitVec 64 := 0x5000; let len : Nat := 4096; let s : State := after [wholeHead 0, openWindow 0, updQ 3 0 fun _ => { translating := some 0x5000 }]; s.ok = true ∧ len ≤ 2 ^ 30 ∧ ((s.liveRings.any fun r => s.qpHead r.1 == some h.val && (s.ring r.1 r.2).translating.any fun a => decide (addr.toNat ≤ a ∧ a < addr.toNat + len)) = true)) ∧
    (let path : Path := .gaffer; let s : State := after [setReg R.CEL_CFG 0]; s.ok = true ∧ Granted path (R.CEL_CFG) s) ∧
    (let path : Path := .gaffer; let h : Head := 0; let d : Dir := .rx; let s : State := after [setReg R.CEL_CFG 96]; s.ok = true ∧ (Granted path (match d with | .rx => R.CEL_HEAD_RX h | .tx => R.CEL_HEAD_TX h) s)) :=
  ⟨⟨after_ok _, by decide +kernel⟩,
   ⟨after_ok _, by decide +kernel⟩,
   ⟨after_ok _, by decide +kernel⟩,
   ⟨after_ok _, by decide +kernel⟩⟩

theorem meets_ManagementDma :
    (let path : Path := .gaffer; let ch : Fin 16 := 0; let s : State := after [setF (F.MCH_STAT_state ch) 0, setReg (R.MCH_FIRST ch) 64]; s.ok = true ∧ Granted path (R.MCH_CTL ch) s ∧ s.mcState ch = mcOff) ∧
    (let path : Path := .gaffer; let ch : Fin 16 := 0; let s : State := after [setF (F.MCH_STAT_state ch) 1]; s.ok = true ∧ Granted path (R.MCH_CTL ch) s) ∧
    (let path : Path := .gaffer; let ch : Fin 16 := 0; let s : State := after [setF (F.MCH_STAT_state ch) 2, updChan ch fun _ => { tail := some 0x100 }, .act (.sramWrite 0x118 (leBytes 8 0x200))]; s.ok = true ∧ Granted path (R.MCH_DOORBELL ch) s ∧ (s.mcState ch = mcRunning ∨ s.mcState ch = mcAtEnd)) ∧
    (let ch : Fin 16 := 0; let s : State := after [setF (F.MCH_STAT_state ch) 1, updChan ch fun _ => { want := some 0x100, fetching := true }, .act (.sramWrite 0x100 (leBytes 32 0))]; s.ok = true ∧ s.mcState ch = mcRunning ∧ (s.chan ch).fetching = true ∧ (s.chan ch).want.isSome = true) ∧
    (let ch : Fin 16 := 0; let data : MdmaData := ⟨[], [], [], [], none, none⟩; let wbFail : Bool := false; let s : State := after [setF (F.MCH_STAT_state ch) 1, updChan ch fun _ => { cur := some (0x100, ⟨0x1000, 0x2000, 16, 1, 0⟩) }, .act (.sramWrite 0x1000 [1, 2, 3, 4])]; s.ok = true ∧ s.mcState ch = mcRunning ∧ (s.chan ch).sync = [] ∧ (s.chan ch).lost = false ∧ stewardChan ch = false ∧ wbFail = false ∧ data.readFail = none ∧ ((match (s.chan ch).cur with | some (a, d) => decide (d.w2 / 2 ^ 32 = 0 ∧ 0 < d.w2 ∧ d.w2 ≤ 4096 ∧ d.w0 % 4096 + d.w2 ≤ 4096 ∧ d.w1 % 4096 + d.w2 ≤ 4096 ∧ d.w0 + d.w2 ≤ 0x400000 ∧ d.w1 + d.w2 ≤ 0x400000 ∧ a + 32 ≤ 0x400000 ∧ (a + 21 < d.w1 ∨ d.w1 + d.w2 ≤ a + 21)) | none => false) = true)) ∧
    (let ch : Fin 16 := 0; let h : Head := 0; let s : State := after [setF (F.MCH_STAT_state ch) 1, updChan ch fun _ => { cur := some (0x100, ⟨0x1000, 0x2000, 16, 1, 0⟩), sync := [h.val], result := (1, 0, 16) }]; s.ok = true ∧ (s.chan ch).sync = [h.val] ∧ ((match (s.chan ch).cur with | some (a, _) => (s.descRefusal ch a 32 true).isNone | none => false) = true)) :=
  ⟨⟨after_ok _, by decide +kernel⟩,
   ⟨after_ok _, by decide +kernel⟩,
   ⟨after_ok _, by decide +kernel⟩,
   ⟨after_ok _, by decide +kernel⟩,
   ⟨after_ok _, by decide +kernel⟩,
   ⟨after_ok _, by decide +kernel⟩⟩

theorem meets_MailboxHandshake :
    (let path : Path := .keeper; let m : Fin 5 := 4; let s : State := after [setF (mbxState m) 0]; s.ok = true ∧ Granted path (mbxBase m) s) ∧
    (let m : Fin 5 := 0; let s : State := after [setF (mbxState m) 1]; s.ok = true ∧ s.mbx m = mbPosted ∧ s.fwRuns = true) ∧
    (let m : Fin 5 := 0; let s : State := after [setF (mbxState m) 2, setReg (mbxReq m 0) 0x05000777, updHead m fun x => { x with waitPort := none, waitLaunch := none }, updPower fun x => { x with gaffer := true, halted := false }]; s.ok = true ∧ s.mbx m = mbBusy ∧ s.mbxCmd m = 0x0777 ∧ s.fwRuns = true ∧ (s.head m).waitPort = none ∧ (s.head m).waitLaunch = none) ∧
    (let path : Path := .keeper; let m : Fin 5 := 4; let s : State := after [setF (mbxState m) 3]; s.ok = true ∧ Granted path (mbxBase m) s) ∧
    (let path : Path := .keeper; let m : Fin 5 := 4; let s : State := after [setF (mbxState m) 2]; s.ok = true ∧ Granted path (mbxBase m) s) ∧
    (let m : Fin 5 := 0; let s : State := after [setF (mbxState m) 1]; s.ok = true ∧ s.mbx m = mbPosted) ∧
    (let m : Fin 5 := 0; let s : State := after [setF (mbxState m) 2, setReg (mbxReq m 0) 0x05000001, updHead m fun x => { x with waitPort := none, waitLaunch := none }, updPower fun x => { x with gaffer := true, halted := false }]; s.ok = true ∧ s.mbx m = mbBusy ∧ s.mbxCmd m = cmGetInfo ∧ s.fwRuns = true ∧ (s.head m).waitPort = none ∧ (s.head m).waitLaunch = none ∧ s.mbxLen m ≤ 63) ∧
    (let m : Fin 5 := 0; let s : State := after [setF (mbxState m) 2, setReg (mbxReq m 0) (0x050000F0 + 0x10000 * BitVec.ofNat 32 3), updHead m fun x => { x with waitPort := none, waitLaunch := none }, updPower fun x => { x with gaffer := true, halted := false }]; s.ok = true ∧ s.mbx m = mbBusy ∧ s.mbxCmd m = cmEcho ∧ s.fwRuns = true ∧ (s.head m).waitPort = none ∧ (s.head m).waitLaunch = none) ∧
    (let m : Fin 5 := 0; let s : State := after [setF (mbxState m) 2, setReg (mbxReq m 0) 0x05010010, updHead m fun x => { x with waitPort := none, waitLaunch := none }, updPower fun x => { x with gaffer := true, halted := false }, setReg (mbxReq m 1) 2, setF F.FLT_STAT_safe 0]; s.ok = true ∧ s.mbx m = mbBusy ∧ s.mbxCmd m = cmModeVote ∧ s.fwRuns = true ∧ (s.head m).waitPort = none ∧ (s.head m).waitLaunch = none ∧ s.mbxLen m ≤ 63 ∧ s.bit F.FLT_STAT_safe = false) :=
  ⟨⟨after_ok _, by decide +kernel⟩,
   ⟨after_ok _, by decide +kernel⟩,
   ⟨after_ok _, by decide +kernel⟩,
   ⟨after_ok _, by decide +kernel⟩,
   ⟨after_ok _, by decide +kernel⟩,
   ⟨after_ok _, by decide +kernel⟩,
   ⟨after_ok _, by decide +kernel⟩,
   ⟨after_ok _, by decide +kernel⟩,
   ⟨after_ok _, by decide +kernel⟩⟩

theorem meets_MailboxActivities :
    (let m : Fin 5 := 0; let s : State := after [setF (mbxState m) 2, setReg (mbxReq m 0) 0x05010020, updHead m fun x => { x with waitPort := none, waitLaunch := none }, updPower fun x => { x with gaffer := true, halted := false }, setReg (mbxReq m 1) 57, wholeHead m, setF F.FLT_STAT_safe 0, setF (F.PORT_STATE_state 57) 2, setF (F.CAL_PORT_STAT_state 57) 0]; s.ok = true ∧ s.mbx m = mbBusy ∧ s.mbxCmd m = cmAnneal ∧ s.fwRuns = true ∧ (s.head m).waitPort = none ∧ (s.head m).waitLaunch = none ∧ m.val < 4 ∧ s.mbxLen m ≤ 63 ∧ s.bit F.FLT_STAT_safe = false) ∧
    (let m : Fin 5 := 0; let s : State := after [setF (mbxState m) 2, setReg (mbxReq m 0) 0x05010021, updHead m fun x => { x with waitPort := none, waitLaunch := none }, updPower fun x => { x with gaffer := true, halted := false }, setReg (mbxReq m 1) 9, wholeHead m, setReg R.MLD_GOV_TXEN 0xFFFFFFFF, setF F.FLT_STAT_safe 0, setF (F.PORT_STATE_state 9) 2, setF (F.DIAG_TDR_STAT_state 9) 0]; s.ok = true ∧ s.mbx m = mbBusy ∧ s.mbxCmd m = cmTdr ∧ s.fwRuns = true ∧ (s.head m).waitPort = none ∧ (s.head m).waitLaunch = none ∧ m.val < 4 ∧ s.mbxLen m ≤ 63 ∧ s.bit F.FLT_STAT_safe = false) ∧
    (let m : Fin 5 := 0; let s : State := after [setF (mbxState m) 2, setReg (mbxReq m 0) 0x05060030, updHead m fun x => { x with waitPort := none, waitLaunch := none }, updPower fun x => { x with gaffer := true, halted := false }, setReg (mbxReq m 1) 1, setReg (mbxReq m 4) 0x00FFFFFF, setReg (mbxReq m 5) 0, setReg (mbxReq m 6) 1, wholeHead m, setF F.FLT_STAT_safe 0, setF (F.LCH_LG_STAT_state 0) 0, setF F.MLD_REMOULD_STAT_state 0, setF F.DIAG_SWEEP_STAT_state 0, updTb fun _ => {}]; s.ok = true ∧ s.mbx m = mbBusy ∧ s.mbxCmd m = cmLaunch ∧ s.fwRuns = true ∧ (s.head m).waitPort = none ∧ (s.head m).waitLaunch = none ∧ m.val < 4 ∧ s.mbxLen m ≤ 63 ∧ s.bit F.FLT_STAT_safe = false ∧ 6 ≤ s.mbxLen m ∧ s.mbxArg m 1 / 2 ^ 24 = 0 ∧ s.launchConflict m (s.mbxArg m 1) = false ∧ s.freeGroup.isSome = true ∧ s.tb.total < layoutTotal (s.wide (mbxReq m 2) 4)) ∧
    (let m : Fin 5 := 0; let s : State := after [setF (mbxState m) 2, setReg (mbxReq m 0) 0x05060030, updHead m fun x => { x with waitPort := none, waitLaunch := none }, updPower fun x => { x with gaffer := true, halted := false }, updHead m fun x => { x with waitLaunch := some 0 }, setF (F.LCH_LG_STAT_state 0) 2]; s.ok = true ∧ s.mbx m = mbBusy ∧ (s.head m).waitLaunch.isSome = true) ∧
    (let h : Head := 0; let read : HeadRead := .channel 0; let s : State := after [updChan 0 fun _ => { want := some 64, fetching := true, units := [(0, 1)] }]; s.ok = true ∧ ((match read with | .ring q d data => s.qpHead q.val == some h.val && (if data then d == .tx && (s.ring q (dirCode d)).reading != 0 else (s.ring q (dirCode d)).fetching != 0) | .channel c => (s.chan c).units.any (fun x => x.1 == h.val) || (s.chan c).sync.contains h.val) = true)) :=
  ⟨⟨after_ok _, by decide +kernel⟩,
   ⟨after_ok _, by decide +kernel⟩,
   ⟨after_ok _, by decide +kernel⟩,
   ⟨after_ok _, by decide +kernel⟩,
   ⟨after_ok _, by decide +kernel⟩⟩

theorem meets_ModeRequests :
    (let path : Path := .gaffer; let s : State := after [setF F.PWR_MODE_STAT_entering 0, setF F.AON_MODE_mode 4, setF F.GLB_MODE_mode 4]; s.ok = true ∧ Granted path (R.PWR_MODE_REQ) s) ∧
    (let path : Path := .gaffer; let s : State := after [setF (F.HEAD_STAT_state 0) 2, setF F.GLB_MODE_holder 0]; s.ok = true ∧ Granted path (R.PWR_HOST_REQ) s) ∧
    (let path : Path := .keeper; let s : State := after [setF F.FLT_STAT_safe 0]; s.ok = true ∧ Granted path (R.PWR_KEEPER_REQ) s) ∧
    (let s : State := after [setF F.PWR_MODE_STAT_entering 0, setF F.AON_MODE_mode 4, setF F.GLB_MODE_mode 4, setReg R.PWR_VOTES 0, setF F.PWR_VOTES_keeper 1]; s.ok = true ∧ s.fwRuns = true ∧ s.entering = false ∧ s.devMode = mdRun ∧ s.voteTarget = mdPark) ∧
    (let s : State := after [setF F.PWR_MODE_STAT_entering 0, setF F.AON_MODE_mode 4, setF F.GLB_MODE_mode 4, setF F.PWR_MODE_REQ_target 1]; s.ok = true ∧ s.fwRuns = true ∧ s.entering = false ∧ s.devMode = mdRun ∧ s.f F.PWR_MODE_REQ_target = mdPark) :=
  ⟨⟨after_ok _, by decide +kernel⟩,
   ⟨after_ok _, by decide +kernel⟩,
   ⟨after_ok _, by decide +kernel⟩,
   ⟨after_ok _, by decide +kernel⟩,
   ⟨after_ok _, by decide +kernel⟩⟩

theorem meets_StandbyAndPark :
    (let s : State := after [setF F.PWR_MODE_STAT_entering 2, updFault fun x => { x with safeDue := none }, updPower fun x => { x with latch := [], resetLatched := none }, setF F.AON_MODE_mode 4, setF F.GLB_MODE_mode 4]; s.ok = true ∧ s.f F.PWR_MODE_STAT_entering = mdStandby ∧ s.fault.safeDue = none ∧ s.power.latch = [] ∧ s.power.resetLatched = none) ∧
    (let s : State := after [setF F.PWR_MODE_STAT_entering 1, updFault fun x => { x with safeDue := none }, updPower fun x => { x with latch := [], resetLatched := none }, setF F.AON_MODE_mode 4, setF F.GLB_MODE_mode 4]; s.ok = true ∧ s.f F.PWR_MODE_STAT_entering = mdPark ∧ s.fault.safeDue = none ∧ s.power.latch = [] ∧ s.power.resetLatched = none) ∧
    (let s : State := after [updPower fun x => { x with stage := 8, offWait := some 2 }]; s.ok = true ∧ s.power.offWait = some rcMainLoss ∧ s.power.stage = sgMinOff) ∧
    (let s : State := after [setF F.AON_PARK_CFG_cs_wake 1, updPower fun x => { x with stage := 7, offWait := none }]; s.ok = true ∧ s.bit F.AON_PARK_CFG_cs_wake = true) ∧
    (let s : State := after [setF F.AON_PARK_CFG_alarm_wake 1, setF F.AON_ALARM_CTL_en 1, setReg R.AON_SECONDS 5, setReg (R.AON_SECONDS + 4) 0, setF F.AON_ALARM_seconds 5, updPower fun x => { x with stage := 7, offWait := none }]; s.ok = true ∧ s.power.vaon = true ∧ s.bit F.AON_ALARM_CTL_en = true ∧ s.wide R.AON_SECONDS 2 % 2 ^ 32 = s.f F.AON_ALARM_seconds ∧ s.bit F.AON_PARK_CFG_alarm_wake = true) :=
  ⟨⟨after_ok _, by decide +kernel⟩,
   ⟨after_ok _, by decide +kernel⟩,
   ⟨after_ok _, by decide +kernel⟩,
   ⟨after_ok _, by decide +kernel⟩,
   ⟨after_ok _, by decide +kernel⟩⟩

theorem meets_PowerDomains :
    (let path : Path := .gaffer; let s : State := after [setF F.PWR_DOM_STAT_domains 0xC00000]; s.ok = true ∧ Granted path (R.PWR_DOM_REQ) s) ∧
    (let d : Fin 22 := 14; let s : State := after [updPower fun x => { x with switching := [d.val] }]; s.ok = true ∧ (s.power.switching.take 2).contains d.val = true ∧ (s.needs d).all s.domOn = true) ∧
    (let d : Fin 22 := 0; let s : State := after [setFBit F.PWR_DOM_PEND_domains d true, setFBit F.PWR_DOM_REQ_domains d false]; s.ok = true ∧ bitOf (s.f F.PWR_DOM_PEND_domains) d = true ∧ bitOf (s.f F.PWR_DOM_REQ_domains) d = false ∧ s.domOn d = true ∧ s.mayGoOff d = true) ∧
    (let path : Path := .gaffer; let s : State := after []; s.ok = true ∧ Granted path (R.PWR_DOM_FORCE) s) :=
  ⟨⟨after_ok _, by decide +kernel⟩,
   ⟨after_ok _, by decide +kernel⟩,
   ⟨after_ok _, by decide +kernel⟩,
   ⟨after_ok _, by decide +kernel⟩⟩

theorem meets_CoreVoltage :
    (let s : State := after [setF F.AON_MODE_mode 4, setF F.GLB_MODE_mode 4, updPower fun x => { x with avsOut := some 740 }]; s.ok = true ∧ s.domOn domMgt = true) ∧
    (let s : State := after [updPower fun x => { x with avsOut := some 740 }, setF F.PWR_AVS_STAT_bus_fail 0]; s.ok = true ∧ s.domOn domMgt = true ∧ s.bit F.PWR_AVS_STAT_bus_fail = false ∧ s.power.avsOut.isSome = true) ∧
    (let s : State := after [updPower fun x => { x with avsOut := none }, setF F.PWR_AVS_STAT_bus_fail 1]; s.ok = true ∧ s.domOn domMgt = true ∧ s.bit F.PWR_AVS_STAT_bus_fail = true ∧ s.power.avsOut = none) :=
  ⟨⟨after_ok _, by decide +kernel⟩,
   ⟨after_ok _, by decide +kernel⟩,
   ⟨after_ok _, by decide +kernel⟩⟩

theorem meets_Starts :
    (let s : State := after [updPower fun x => { x with stage := 1 }, setF F.AON_SAFE_STAT_pending 0, setF F.AON_MODE_start_kind 0]; s.ok = true ∧ s.power.vaon = true ∧ s.power.pwrEn = true ∧ s.power.stage = sgRails ∧ s.bit F.AON_SAFE_STAT_pending = false ∧ s.fault.held = [] ∧ s.bit F.AON_MODE_start_kind = false) ∧
    (let s : State := after [updPower fun x => { x with stage := 1 }, updPower fun x => { x with vmainOk := false }, setF F.AON_MODE_start_kind 0, setReg R.AON_START_STAT 0]; s.ok = true ∧ s.bit F.AON_SAFE_STAT_safe = false ∧ s.power.stage = sgRails ∧ s.power.vmainOk = false ∧ s.bit F.AON_MODE_start_kind = false ∧ s.f F.AON_START_STAT_cold_fails < 2) ∧
    (let lost : BitVec 16 := 4; let s : State := after [updPower fun x => { x with stage := 2 }, setF F.AON_MODE_start_kind 1, setF F.AON_RET_SEAL_mask 3]; s.ok = true ∧ s.power.stage = sgCheck ∧ s.bit F.AON_MODE_start_kind = true ∧ Nat.land lost.toNat (s.f F.AON_RET_SEAL_mask) = 0) ∧
    (let lost : BitVec 16 := 0x8000; let s : State := after [updPower fun x => { x with stage := 2 }, setF F.AON_MODE_start_kind 1, setF F.AON_RET_SEAL_mask 0x8000]; s.ok = true ∧ s.power.stage = sgCheck ∧ bitOf lost.toNat 15 = true ∧ bitOf (s.f F.AON_RET_SEAL_mask) 15 = true) ∧
    (let a : Option (BitVec 32 × List Byte) := some (7, []); let b : Option (BitVec 32 × List Byte) := none; let s : State := after [updPower fun x => { x with stage := 3 }, .act (.flashReplace 0 bootHeader), setF F.AON_MODE_start_kind 1, setF F.AON_FW_GEN_gen 7]; s.ok = true ∧ s.power.stage = sgBoot ∧ s.domOn domMgt = true ∧ bootHeaderOk (s.flash.readBytes erased 0 64) = true ∧ a.isSome = true ∧ b = none ∧ ((if s.bit F.AON_MODE_start_kind then (a.map fun x => x.1.toNat) == some (s.f F.AON_FW_GEN_gen) else (s.mld.load.isSome || s.mouldOk)) = true)) ∧
    (let s : State := after [updPower fun x => { x with stage := 4 }, setF F.AON_MODE_start_kind 1, updMld fun x => { x with active := [] }]; s.ok = true ∧ s.power.stage = sgHeld ∧ s.bit F.AON_MODE_start_kind = true ∧ s.mld.active = []) ∧
    (let path : Path := .gaffer; let s : State := after [updPower fun x => { x with stage := 5 }, setF F.AON_MODE_start_kind 0, .act (.lifecycle 1)]; s.ok = true ∧ Granted path (R.AON_START_CTL) s ∧ s.power.stage = sgFirmware ∧ s.bit F.AON_MODE_start_kind = false ∧ s.otp.lifecycle ≠ 0) ∧
    (let s : State := after [updPower fun x => { x with stage := 5 }, setF F.PWR_MODE_STAT_entering 0, setF F.AON_START_CTL_ok 0, setF F.AON_SAFE_STAT_safe 0, setF F.AON_MODE_start_kind 0, setF F.AON_START_STAT_cold_fails 2]; s.ok = true ∧ s.power.stage = sgFirmware ∧ s.bit F.AON_START_CTL_ok = false ∧ s.bit F.AON_SAFE_STAT_safe = false ∧ s.entering = false) ∧
    (let i : Fin 16 := 0; let s : State := after [updPower fun x => { x with table := [i.val] }, setF (F.WAKE_TABLE_action i) 1, setF (F.WAKE_TABLE_target i) 4]; s.ok = true ∧ s.power.table.contains i.val = true ∧ ((s.power.table.any fun j => decide (j < i.val) && s.f (F.WAKE_TABLE_delay j) == s.f (F.WAKE_TABLE_delay i)) = false) ∧ s.domOn domMgt = true) :=
  ⟨⟨after_ok _, by decide +kernel⟩,
   ⟨after_ok _, by decide +kernel⟩,
   ⟨after_ok _, by decide +kernel⟩,
   ⟨after_ok _, by decide +kernel⟩,
   ⟨after_ok _, by decide +kernel⟩,
   ⟨after_ok _, by decide +kernel⟩,
   ⟨after_ok _, by decide +kernel⟩,
   ⟨after_ok _, by decide +kernel⟩,
   ⟨after_ok _, by decide +kernel⟩⟩

theorem meets_PowerOnAndResets :
    (let flash : List (BitVec 27 × List Byte) := []; let s : State := after [updPower fun _ => {}]; s.ok = true ∧ s.power.vaon = false ∧ flash = []) ∧
    (let s : State := after [.act (.sramWrite 64 [7])]; s.ok = true ∧ s.power.vaon = true ∧ s.fport.op = none ∧ ((s.sram.all fun e => decide (e.1 < 16 * bankSize)) = true) ∧ ((s.cellar.all fun e => decide (e.1 < 25165824)) = true)) ∧
    (let s : State := after [setF F.PWR_MODE_STAT_entering 0, setF F.AON_SAFE_STAT_safe 0]; s.ok = true ∧ s.power.pwrEn = true ∧ s.power.vmainOk = true ∧ s.f F.PWR_MODE_STAT_entering ≠ mdPark ∧ s.deadSafe = false) ∧
    (let s : State := after [setF F.PWR_MODE_STAT_entering 0, setF F.AON_SAFE_STAT_safe 0, updPower fun x => { x with resetN := false }]; s.ok = true ∧ s.power.vaon = true ∧ s.deadSafe = false ∧ s.power.resetN = false) ∧
    (let s : State := after [updPower fun x => { x with resetN := true, stage := 9 }, setF F.AON_SAFE_STAT_pending 0]; s.ok = true ∧ s.power.resetN = true ∧ s.power.stage = sgReset) ∧
    (let path : Path := .gaffer; let s : State := after [setF F.PWR_MODE_STAT_entering 0, setF F.AON_SAFE_STAT_safe 0, setF F.FLT_STAT_safe 0, setF F.AON_SAFE_STAT_pending 0]; s.ok = true ∧ Granted path (R.RST_CHIP) s) ∧
    (let path : Path := .gaffer; let s : State := after [updFault fun x => { x with resets := [] }, updPort 9 fun x => { x with resetting := false }]; s.ok = true ∧ Granted path (R.RST_BLOCK) s ∧ s.fault.resets = [] ∧ s.domOn (portDomain 9) = true ∧ (s.port 9).resetting = false) ∧
    (let source : BitVec 7 := 9; let s : State := after [updFault fun x => { x with resets := [9] }]; s.ok = true ∧ s.fault.resets.contains source.toNat = true ∧ (source.toNat = 0x09 ∨ source.toNat = 0x0A)) :=
  ⟨⟨after_ok _, by decide +kernel⟩,
   ⟨after_ok _, by decide +kernel⟩,
   ⟨after_ok _, by decide +kernel⟩,
   ⟨after_ok _, by decide +kernel⟩,
   ⟨after_ok _, by decide +kernel⟩,
   ⟨after_ok _, by decide +kernel⟩,
   ⟨after_ok _, by decide +kernel⟩,
   ⟨after_ok _, by decide +kernel⟩⟩

theorem meets_ClockSources :
    (let s : State := after []; s.ok = true ∧ s.clkOn = true ∧ s.power.vaon = true) ∧
    (let s : State := after [setF F.GLB_MODE_mould_ok 1, updMld fun x => { x with active := [(scTime, [0, 9])] }, setF (F.PORT_STATE_state 9) 5]; s.ok = true ∧ s.clkOn = true ∧ ((match s.anchor with | some p => s.pst p == stUp | none => false) = true)) ∧
    (let i : Fin 4 := 2; let s : State := after []; s.ok = true ∧ s.clkOn = true ∧ s.clkReady i = true) ∧
    (let i : Fin 12 := 5; let s : State := after []; s.ok = true ∧ 4 ≤ i.val ∧ s.clkOn = true ∧ s.clkReady i = true) ∧
    (let i : Fin 12 := 5; let s : State := after [setReg R.CLK_READY 6, setF F.CLK_PLL_EN_en 2]; s.ok = true ∧ 4 ≤ i.val ∧ s.clkOn = true ∧ s.clkReady i = false ∧ s.loopRuns i = true) :=
  ⟨⟨after_ok _, by decide +kernel⟩,
   ⟨after_ok _, by decide +kernel⟩,
   ⟨after_ok _, by decide +kernel⟩,
   ⟨after_ok _, by decide +kernel⟩,
   ⟨after_ok _, by decide +kernel⟩⟩

theorem meets_SwitchesAndGates :
    (let path : Path := .gaffer; let sw : SwitchWrite := .core 1 0; let s : State := after []; s.ok = true ∧ Granted path R.CLK_SEL_CORE s ∧ ((match sw with | .core .. => true | .slck _ => false) = true)) ∧
    (let sw : ClockSwitch := .fabric; let s : State := after [updClock fun x => { x with switching := [1, 2, 4] }]; s.ok = true ∧ s.clock.switching.contains (switchCode sw) = true) ∧
    (let sw : ClockSwitch := .slck; let s : State := after [updClock fun x => { x with switching := [1, 2, 4] }]; s.ok = true ∧ s.clock.switching.contains (switchCode sw) = true ∧ s.clkOn = true) ∧
    (let path : Path := .gaffer; let s : State := after []; s.ok = true ∧ Granted path (R.CLK_SEL_LINE) s) ∧
    (let path : Path := .gaffer; let s : State := after []; s.ok = true ∧ Granted path (R.CLK_GATE) s) ∧
    (let path : Path := .gaffer; let s : State := after []; s.ok = true ∧ Granted path (R.CLK_PLL_EN) s) :=
  ⟨⟨after_ok _, by decide +kernel⟩,
   ⟨after_ok _, by decide +kernel⟩,
   ⟨after_ok _, by decide +kernel⟩,
   ⟨after_ok _, by decide +kernel⟩,
   ⟨after_ok _, by decide +kernel⟩,
   ⟨after_ok _, by decide +kernel⟩⟩

theorem meets_FaultSources :
    (let s : State := after []; s.ok = true ∧ True) ∧
    (let s : State := after [setF F.AON_REACT_RESETS_count 2]; s.ok = true ∧ s.power.vaon = true) ∧
    (let s : State := after [setF F.PWR_MODE_STAT_entering 0, setF F.AON_SAFE_STAT_safe 0]; s.ok = true ∧ s.domOn domMgt = true ∧ s.bit F.AON_SAFE_STAT_safe = false ∧ s.entering = false) ∧
    (let s : State := after []; s.ok = true ∧ s.domOn domMgt = true) ∧
    (let tj : List Byte := [200, 1, 2, 3, 4, 5, 6, 7]; let s : State := after [updFault fun x => { x with hot := [] }]; s.ok = true ∧ s.domOn domMgt = true ∧ tj.length = 8) ∧
    (let s : State := after [updPower fun x => { x with kicked := true }, updFault fun x => { x with stopped := false }, setF F.AON_SAFE_STAT_safe 0, setF F.FLT_STAT_self_fault 0]; s.ok = true ∧ s.power.kicked = true ∧ s.fault.stopped = false ∧ s.bit F.AON_SAFE_STAT_safe = false ∧ s.clock.slck = true ∧ s.domOn domMgt = true ∧ s.bit F.FLT_STAT_self_fault = false) ∧
    (let path : Path := .gaffer; let s : State := after [updFault fun x => { x with wdog := some 0 }]; s.ok = true ∧ Granted path (R.FLT_WDOG_KICK) s) ∧
    (let s : State := after [updFault fun x => { x with wdog := some 0 }]; s.ok = true ∧ s.fault.wdog.isSome = true) ∧
    (let s : State := after []; s.ok = true ∧ s.fwRuns = true) ∧
    (let path : Path := .gaffer; let s : State := after []; s.ok = true ∧ Granted path (R.FLT_IRQ_REARM) s) :=
  ⟨⟨after_ok _, by decide +kernel⟩,
   ⟨after_ok _, by decide +kernel⟩,
   ⟨after_ok _, by decide +kernel⟩,
   ⟨after_ok _, by decide +kernel⟩,
   ⟨after_ok _, by decide +kernel⟩,
   ⟨after_ok _, by decide +kernel⟩,
   ⟨after_ok _, by decide +kernel⟩,
   ⟨after_ok _, by decide +kernel⟩,
   ⟨after_ok _, by decide +kernel⟩,
   ⟨after_ok _, by decide +kernel⟩⟩

theorem meets_LogAndRecords :
    (let path : Path := .gaffer; let s : State := after [setF (F.FLT_LOG_valid 3) 1]; s.ok = true ∧ Granted path (R.FLT_LOG_CTL) s) ∧
    (let path : Path := .gaffer; let s : State := after []; s.ok = true ∧ Granted path (R.FLT_REC_CTL) s ∧ s.bit F.FLT_REC_CTL_write = false) ∧
    (let s : State := after [updFault fun x => { x with recWait := [⟨3, 0, 0, 0⟩] }, setF F.FLT_REC_STAT_used 0]; s.ok = true ∧ s.domOn domMgt = true ∧ ((match s.fault.recWait with | [r] => r.andThen == 0 | _ => false) = true)) ∧
    (let path : Path := .gaffer; let s : State := after [setF F.FLT_REC_STAT_used 1]; s.ok = true ∧ Granted path (R.FLT_REC_NEXT) s) :=
  ⟨⟨after_ok _, by decide +kernel⟩,
   ⟨after_ok _, by decide +kernel⟩,
   ⟨after_ok _, by decide +kernel⟩,
   ⟨after_ok _, by decide +kernel⟩⟩

theorem meets_CheckersAndMbist :
    (let path : Path := .gaffer; let s : State := after [setF F.FLT_CHK_STAT_state 0]; s.ok = true ∧ Granted path (R.FLT_CHK_CTL) s) ∧
    (let s : State := after [setF F.FLT_CHK_STAT_state 1, setF F.FLT_CHK_STAT_remaining 1]; s.ok = true ∧ s.f F.FLT_CHK_STAT_state = 1) ∧
    (let s : State := after [setF F.FLT_CHK_STAT_state 1]; s.ok = true ∧ s.f F.FLT_CHK_STAT_state = 1) ∧
    (let path : Path := .gaffer; let s : State := after [setF F.AON_MODE_mode 2, setF F.GLB_MODE_mode 2, setF F.FLT_MBIST_STAT_state 0]; s.ok = true ∧ Granted path (R.FLT_MBIST_CTL) s ∧ s.f F.FLT_MBIST_STAT_state ≠ 1 ∧ s.f F.FLT_MBIST_STAT_state ≠ 2) ∧
    (let path : Path := .gaffer; let s : State := after [.act (.grant (mbistBooking 5)), setF F.FLT_MBIST_STAT_state 2]; s.ok = true ∧ Granted path (R.FLT_MBIST_CTL) s ∧ s.ledger.books = [mbistBooking 5] ∧ s.f F.FLT_MBIST_STAT_state = 2 ∧ s.ledger.queue = []) ∧
    (let s : State := after [setF F.FLT_MBIST_STAT_state 2]; s.ok = true ∧ s.f F.FLT_MBIST_STAT_state = 2) ∧
    (let what : Inject := .write .gaffer 0x14 1 false true; let s : State := after [.act (.pins ⟨0, 0, true⟩)]; s.ok = true ∧ ((match what with | .write path _ _ _ _ => decide (Granted path R.FLT_INJ_CTL s) | _ => s.bit F.FLT_INJ_CTL_start && decide (s.f F.FLT_INJ_CTL_checker = 0x14)) = true)) :=
  ⟨⟨after_ok _, by decide +kernel⟩,
   ⟨after_ok _, by decide +kernel⟩,
   ⟨after_ok _, by decide +kernel⟩,
   ⟨after_ok _, by decide +kernel⟩,
   ⟨after_ok _, by decide +kernel⟩,
   ⟨after_ok _, by decide +kernel⟩,
   ⟨after_ok _, by decide +kernel⟩⟩

theorem meets_KeeperReads :
    (let s : State := after [updPower fun x => { x with vaon := true }]; s.ok = true ∧ s.power.vaon = true) ∧
    (let s : State := after [updPower fun x => { x with vaon := true }]; s.ok = true ∧ s.power.vaon = true) :=
  ⟨⟨after_ok _, by decide +kernel⟩,
   ⟨after_ok _, by decide +kernel⟩⟩

theorem meets_KeeperWrites :
    (let bytes : List Byte := [3, 0x40, 0x3D, 0, 0, 0, 1]; let midByte : Bool := false; let s : State := after [updPower fun x => { x with vaon := true }]; s.ok = true ∧ s.power.vaon = true ∧ s.writeFaults 0x02 false bytes midByte = [] ∧ bytes.length = 7 ∧ (s.received 0x02 false bytes midByte).judge 6 (4 * beNat (bytes.take 3)) true = .granted ∧ (s.received 0x02 false bytes midByte).breaksRv 6 (4 * beNat (bytes.take 3)) (BitVec.ofNat 32 (beNat ((bytes.drop 3).take 4))) = false ∧ (s.received 0x02 false bytes midByte).plain 6 (4 * beNat (bytes.take 3)) (BitVec.ofNat 32 (beNat ((bytes.drop 3).take 4))) = true) ∧
    (let bytes : List Byte := [0, 0x40, 3, 0, 0]; let midByte : Bool := true; let s : State := after [updPower fun x => { x with vaon := true }]; s.ok = true ∧ s.power.vaon = true ∧ s.writeFaults 0x02 false bytes midByte ≠ []) ∧
    (let bytes : List Byte := [3, 0x40, 0x3D, 0, 0, 0, 1, spiCrc [0x82, 3, 0x40, 0x3D, 0, 0, 0, 1]]; let midByte : Bool := false; let s : State := after [updPower fun x => { x with vaon := true }]; s.ok = true ∧ s.power.vaon = true ∧ s.writeFaults 0x82 true bytes midByte = [] ∧ bytes.length = 8 ∧ (s.received 0x82 true bytes midByte).judge 6 (4 * beNat (bytes.take 3)) true = .granted ∧ (s.received 0x82 true bytes midByte).breaksRv 6 (4 * beNat (bytes.take 3)) (BitVec.ofNat 32 (beNat ((bytes.drop 3).take 4))) = false ∧ (s.received 0x82 true bytes midByte).plain 6 (4 * beNat (bytes.take 3)) (BitVec.ofNat 32 (beNat ((bytes.drop 3).take 4))) = true) ∧
    (let bytes : List Byte := [0, 0x40, 3, 0, 0]; let midByte : Bool := true; let s : State := after [updPower fun x => { x with vaon := true }]; s.ok = true ∧ s.power.vaon = true ∧ s.writeFaults 0x82 true bytes midByte ≠ []) ∧
    (let s : State := after [updPower fun x => { x with vaon := true }]; s.ok = true ∧ s.power.vaon = true) ∧
    (let cmd : Byte := 0x99; let s : State := after [updPower fun x => { x with vaon := true }]; s.ok = true ∧ s.power.vaon = true ∧ cmd ∉ frameCommands) :=
  ⟨⟨after_ok _, by decide +kernel⟩,
   ⟨after_ok _, by decide +kernel⟩,
   ⟨after_ok _, by decide +kernel⟩,
   ⟨after_ok _, by decide +kernel⟩,
   ⟨after_ok _, by decide +kernel⟩,
   ⟨after_ok _, by decide +kernel⟩⟩

theorem meets_FlashWindow :
    (let s : State := after []; s.ok = true ∧ s.domOn domMgt = true) ∧
    (let s : State := after [.act (.grant ⟨2, 1, 255, 31, [], [], [], true, false⟩)]; s.ok = true ∧ s.domOn domMgt = true) ∧
    (let s : State := after [updFlash fun x => { x with bufs := [(0x640000, [1, 2])] }]; s.ok = true ∧ True) ∧
    (let path : Path := .gaffer; let s : State := after [updFlash fun x => { x with bufs := [(0x640000, [1, 2])] }]; s.ok = true ∧ Granted path (R.FSPI_CTL) s) :=
  ⟨⟨after_ok _, by decide +kernel⟩,
   ⟨after_ok _, by decide +kernel⟩,
   ⟨after_ok _, by decide +kernel⟩,
   ⟨after_ok _, by decide +kernel⟩⟩

theorem meets_FlashOperations :
    (let s : State := after [updFlash fun x => { x with op := some ⟨false, 0x640000, [1, 2], 2, false⟩ }]; s.ok = true ∧ True) ∧
    (let s : State := after [updFlash fun x => { x with op := some ⟨true, 0x640000, [], 4096, false⟩ }]; s.ok = true ∧ True) ∧
    (let path : Path := .gaffer; let s : State := after [.act (.grant ⟨2, 1, 255, 31, [], [], [], true, false⟩), setF F.FSPI_ERASE_CTL_go 0, setF F.FSPI_ERASE_ADDR_addr 0x650000]; s.ok = true ∧ Granted path (R.FSPI_ERASE_CTL) s ∧ s.bit F.FSPI_ERASE_CTL_go = false) ∧
    (let s : State := after [setF F.FSPI_CFG_suspend_en 1, updFlash fun x => { x with canSuspend := true, op := some ⟨true, 0x640000, [], 4096, false⟩, reads := [(0, 4)] }]; s.ok = true ∧ (s.fport.op.any (fun o => o.erase && !o.late) = true) ∧ s.fport.suspended = false) ∧
    (let s : State := after [updFlash fun x => { x with suspended := true, op := some ⟨true, 0x640000, [], 4096, false⟩ }]; s.ok = true ∧ s.fport.op.isSome = true) :=
  ⟨⟨after_ok _, by decide +kernel⟩,
   ⟨after_ok _, by decide +kernel⟩,
   ⟨after_ok _, by decide +kernel⟩,
   ⟨after_ok _, by decide +kernel⟩,
   ⟨after_ok _, by decide +kernel⟩⟩

theorem meets_RegisterWrites :
    (let path : Path := .gaffer; let addr : BitVec 26 := (BitVec.ofNat 26 (R.MCH_HOP_MAX 9)); let size : Nat := 4; let data : BitVec 64 := 5; let s : State := after [setF (F.PORT_STATE_state 9) 0]; s.ok = true ∧ size = 4 ∧ addr.toNat % 4 = 0 ∧ Granted path addr.toNat s ∧ s.breaksRv (pathCode path) addr.toNat (BitVec.ofNat 32 data.toNat) = false ∧ ((addr.toNat < 0x160000 ∨ 0x180000 ≤ addr.toNat)) ∧ s.plain (pathCode path) addr.toNat (BitVec.ofNat 32 data.toNat) = true) ∧
    (let path : Path := .gaffer; let addr : BitVec 26 := 0x1097F04; let size : Nat := 4; let data : BitVec 64 := 5; let s : State := after []; s.ok = true ∧ size = 4 ∧ addr.toNat % 4 = 0 ∧ Granted path addr.toNat s ∧ s.breaksRv (pathCode path) addr.toNat (BitVec.ofNat 32 data.toNat) = false ∧ tableReg (plainOff addr.toNat) = none) ∧
    (let path : Path := .gaffer; let addr : BitVec 26 := (BitVec.ofNat 26 R.WAKE_CFG); let size : Nat := 4; let data : BitVec 64 := 0; let s : State := after []; s.ok = true ∧ size = 4 ∧ addr.toNat % 4 = 0 ∧ Granted path addr.toNat s ∧ s.breaksRv (pathCode path) addr.toNat (BitVec.ofNat 32 data.toNat) = false ∧ 0x160000 ≤ addr.toNat ∧ addr.toNat < 0x180000) ∧
    (let path : Path := .gaffer; let addr : BitVec 26 := (BitVec.ofNat 26 (R.MLD_REMOULD_SRC + 4)); let size : Nat := 4; let data : BitVec 64 := 5; let s : State := after [.act (.hold R.MLD_REMOULD_SRC 7)]; s.ok = true ∧ size = 4 ∧ addr.toNat % 4 = 0 ∧ Granted path addr.toNat s ∧ s.breaksRv (pathCode path) addr.toNat (BitVec.ofNat 32 data.toNat) = false ∧ ((addr.toNat < 0x160000 ∨ 0x180000 ≤ addr.toNat)) ∧ ((tableReg (plainOff addr.toNat)).any (fun l => isWide l && (s.closed (pathCode path) addr.toNat l).isNone && !(l.fields.any fun f => decide (f.acc = .sq))) = true)) ∧
    (let path : Path := .keeper; let addr : BitVec 26 := (BitVec.ofNat 26 (R.PORT_ADV 9)); let size : Nat := 4; let s : State := after []; s.ok = true ∧ size = 4 ∧ addr.toNat % 4 = 0 ∧ s.judge (pathCode path) addr.toNat true ≠ .granted) ∧
    (let path : Path := .gaffer; let addr : BitVec 26 := 2; let size : Nat := 4; let s : State := after []; s.ok = true ∧ badAccess (pathCode path) addr.toNat size true = true) :=
  ⟨⟨after_ok _, by decide +kernel⟩,
   ⟨after_ok _, by decide +kernel⟩,
   ⟨after_ok _, by decide +kernel⟩,
   ⟨after_ok _, by decide +kernel⟩,
   ⟨after_ok _, by decide +kernel⟩,
   ⟨after_ok _, by decide +kernel⟩⟩

theorem meets_RegisterReads :
    (let path : Path := .gaffer; let addr : BitVec 26 := (BitVec.ofNat 26 R.GLB_ID); let size : Nat := 4; let upset : Upset := ⟨0, 0, 0⟩; let s : State := after []; s.ok = true ∧ (size = 1 ∨ size = 2 ∨ size = 4) ∧ badAccess (pathCode path) addr.toNat size false = false ∧ (s.ready = true ∨ path = .keeper) ∧ ((upset = ⟨0, 0, 0⟩ ∧ SMap.get? s.tv (addr.toNat / 4 * 4) = none ∨ ((fieldsAt (addr.toNat / 4 * 4)).any (fun f => f.tv)) = false))) ∧
    (let path : Path := .gaffer; let addr : BitVec 26 := (BitVec.ofNat 26 (R.MLD_GOV_AMP 9)); let size : Nat := 4; let upset : Upset := ⟨2, 0, 0⟩; let s : State := after []; s.ok = true ∧ size = 4 ∧ addr.toNat % 4 = 0 ∧ (s.ready = true ∨ path = .keeper) ∧ isShadow addr.toNat = false ∧ s.judge (pathCode path) addr.toNat false = .granted ∧ SMap.get? s.tv addr.toNat = none ∧ ((upset.a = 0 ∧ upset.b = 0 ∨ upset.a = 0 ∧ upset.c = 0 ∨ upset.b = 0 ∧ upset.c = 0)) ∧ (((fieldsAt addr.toNat).any (fun f => f.tv && (bits upset.a f.hi f.lo != 0 || bits upset.b f.hi f.lo != 0 || bits upset.c f.hi f.lo != 0)) = true)) ∧ ((tableReg addr.toNat).all (fun l => !isWide l) = true)) ∧
    (let path : Path := .gaffer; let addr : BitVec 26 := 2; let size : Nat := 4; let s : State := after []; s.ok = true ∧ badAccess (pathCode path) addr.toNat size false = true) :=
  ⟨⟨after_ok _, by decide +kernel⟩,
   ⟨after_ok _, by decide +kernel⟩,
   ⟨after_ok _, by decide +kernel⟩⟩

theorem meets_LandingAndVotes :
    (let path : Path := .gaffer; let off : BitVec 26 := (BitVec.ofNat 26 (R.PORT_EVENT 9)); let s : State := after [setReg (R.PORT_EVENT 9) 0x05000003]; s.ok = true ∧ isSq off.toNat = true ∧ Granted path off.toNat s ∧ ((off.toNat < 0x160000 ∨ 0x180000 ≤ off.toNat))) ∧
    (let path : Path := .gaffer; let off : BitVec 26 := (BitVec.ofNat 26 R.WAKE_EVENT); let s : State := after []; s.ok = true ∧ isSq off.toNat = true ∧ Granted path off.toNat s ∧ 0x160000 ≤ off.toNat ∧ off.toNat < 0x180000) ∧
    (let s : State := after [.act (.acPush ⟨4, R.WAKE_IN_CFG, 5⟩)]; s.ok = true ∧ True) ∧
    (let off : BitVec 26 := (BitVec.ofNat 26 (R.MLD_GOV_AMP 9)); let s : State := after []; s.ok = true ∧ implemented off.toNat = true ∧ isShadow off.toNat = false ∧ ((s.ready = true ∨ 0x160000 ≤ off.toNat ∧ off.toNat < 0x180000)) ∧ s.blockOn off.toNat = true ∧ SMap.get? s.tv off.toNat = none) :=
  ⟨⟨after_ok _, by decide +kernel⟩,
   ⟨after_ok _, by decide +kernel⟩,
   ⟨after_ok _, by decide +kernel⟩,
   ⟨after_ok _, by decide +kernel⟩⟩

theorem meets_Commits :
    (let path : Path := .gaffer; let s : State := after [.act (.stage (R.PORT_ADV 9) 6), .act (.stage (R.PORT_MODE_CFG 9) 0x100), .act (.stage (R.PORT_LPI_CFG 57) 1), .act (.stage (R.PORT_ADV 57) 2), .act (.stage (R.HEAD_REQ_CFG 1) 90), setReg 0x1097F04 0xFF, setReg 0x1397F04 0x0F, setReg 0x117F04 0x3, setReg 0x67F04 1, setReg 0x147F04 2, setF F.MLD_REMOULD_STAT_state 0, updCommit fun _ => {}]; s.ok = true ∧ Granted path (R.GLB_COMMIT) s) ∧
    (let s : State := after [.act (.stage (R.PORT_ADV 9) 6), .act (.stage (R.PORT_MODE_CFG 9) 0x100), .act (.stage (R.PORT_LPI_CFG 57) 1), .act (.stage (R.PORT_ADV 57) 2), .act (.stage (R.HEAD_REQ_CFG 1) 90), setF F.FLT_STAT_safe 0, updCommit fun _ => { pend := [(9, 3)] }]; s.ok = true ∧ s.bit F.FLT_STAT_safe = false) :=
  ⟨⟨after_ok _, by decide +kernel⟩,
   ⟨after_ok _, by decide +kernel⟩⟩

theorem meets_MouldLoads :
    (let path : Path := .gaffer; let s : State := after [setF F.GLB_MODE_mould_ok 0]; s.ok = true ∧ Granted path (R.MLD_LOAD_CTL) s) ∧
    (let s : State := after [updMld fun x => { x with load := some (1, 0, 4), loadLeft := [], reload := false }]; s.ok = true ∧ s.mld.load.isSome = true) :=
  ⟨⟨after_ok _, by decide +kernel⟩,
   ⟨after_ok _, by decide +kernel⟩⟩

theorem meets_Remoulds :
    (let path : Path := .gaffer; let s : State := after [setF F.MLD_REMOULD_STAT_state 0]; s.ok = true ∧ Granted path (R.MLD_REMOULD_CTL) s) ∧
    (let s : State := after [setF F.MLD_REMOULD_STAT_state 1]; s.ok = true ∧ s.f F.MLD_REMOULD_STAT_state = 1) ∧
    (let s : State := after [setF F.MLD_REMOULD_STAT_state 2]; s.ok = true ∧ True) ∧
    (let path : Path := .gaffer; let s : State := after [setF F.MLD_REMOULD_STAT_state 2]; s.ok = true ∧ Granted path (R.MLD_REMOULD_CTL) s) :=
  ⟨⟨after_ok _, by decide +kernel⟩,
   ⟨after_ok _, by decide +kernel⟩,
   ⟨after_ok _, by decide +kernel⟩,
   ⟨after_ok _, by decide +kernel⟩⟩

theorem meets_AdoptionsKeysLifecycle :
    (let path : Path := .gaffer; let s : State := after [setF F.MLD_ADOPT_STAT_state 0]; s.ok = true ∧ Granted path (R.MLD_ADOPT_CTL) s) ∧
    (let s : State := after [setF F.MLD_ADOPT_STAT_state 1]; s.ok = true ∧ s.f F.MLD_ADOPT_STAT_state = 1) ∧
    (let path : Path := .gaffer; let s : State := after []; s.ok = true ∧ Granted path (R.MLD_KEY_PROG_CTL) s) ∧
    (let s : State := after [setF F.MLD_KEY_PROG_CTL_start 1]; s.ok = true ∧ True) ∧
    (let path : Path := .gaffer; let s : State := after [setF F.GLB_LIFECYCLE_CTL_go 0, .act (.lifecycle 1)]; s.ok = true ∧ Granted path (R.GLB_LIFECYCLE_CTL) s ∧ s.bit F.GLB_LIFECYCLE_CTL_go = false) ∧
    (let s : State := after [setF F.GLB_LIFECYCLE_CTL_go 1]; s.ok = true ∧ True) :=
  ⟨⟨after_ok _, by decide +kernel⟩,
   ⟨after_ok _, by decide +kernel⟩,
   ⟨after_ok _, by decide +kernel⟩,
   ⟨after_ok _, by decide +kernel⟩,
   ⟨after_ok _, by decide +kernel⟩,
   ⟨after_ok _, by decide +kernel⟩⟩

/-! Ill-formed commands: each check of WellFormed refuses one. -/

theorem test_wf_width : widthOk 3 = false := by decide
theorem test_wf_set_kind : setOk ⟨9, 0, [], [], false, 0⟩ = false := by decide
theorem test_wf_set_family : setOk ⟨1, 4, [], [], false, 0⟩ = false := by decide
theorem test_wf_set_residuals : setOk ⟨1, 0, [5], [], false, 0⟩ = false := by decide
theorem test_wf_profile_bins : profileOk (List.replicate 256 0) = false := by decide
theorem test_wf_profile_value : profileOk [32768] = false := by decide
theorem test_wf_train_profile : trainOk ⟨[32768], 0, 0, [], true⟩ = false := by decide
theorem test_wf_train_sets : trainOk ⟨[], 0, 0, [⟨0, 0, [], [], false, 0⟩], true⟩ = false := by decide
theorem test_wf_tdr_windows : tdrOk ⟨5, 4, [], [], true⟩ = false := by decide
theorem test_wf_tdr_profile : tdrOk ⟨4, 5, [], [40000], true⟩ = false := by decide
theorem test_wf_frame_margin : frameOk ⟨[], true, false, 0, 0, 65536, 0, 0, 0, 0, 0⟩ = false := by decide
theorem test_wf_frame_opportunity : frameOk ⟨[], true, false, 0, 0, 0, 256, 0, 0, 0, 0⟩ = false := by decide
theorem test_wf_frame_ecc : frameOk ⟨[], true, false, 0, 0, 0, 0, 3, 0, 0, 0⟩ = false := by decide
theorem test_wf_frame_syndrome : frameOk ⟨[], true, false, 0, 0, 0, 0, 1, 256, 0, 0⟩ = false := by decide
theorem test_wf_page_members : pageOk (.cane 0 3 0 0 0) = false := by decide
theorem test_wf_message_source : producible 0x18 0x08 0 = false := by decide
theorem test_wf_message_class : producible 0x09 0x06 2 = false := by decide
theorem test_wf_write_size : (Instr.registerWrite .gaffer 0 3 0).wf = false := by decide
theorem test_wf_write_data : (Instr.registerWrite .gaffer 0 2 0x10000).wf = false := by decide
theorem test_wf_read_size : (Instr.registerRead .gaffer 0 16 ⟨0, 0, 0⟩ ⟨0, 0, 0⟩).wf = false := by decide
theorem test_wf_seq_offset : (Instr.seqWriteBack .gaffer 2 1).wf = false := by decide
theorem test_wf_scrub_offset : (Instr.tmrScrub 1 ⟨0, 0, 0⟩).wf = false := by decide
theorem test_wf_an_page : (Instr.anPageReceived 0 (.cane 0 1 0 0 0) true true).wf = false := by decide
theorem test_wf_train : (Instr.trainComplete 0 0 ⟨[-32769], 0, 0, [], true⟩).wf = false := by decide
theorem test_wf_mac_frame : (Instr.macFrameReceive 0 ⟨[], true, false, 0, 0, 70000, 0, 0, 0, 0, 0⟩).wf = false := by decide
theorem test_wf_marker_errors : (Instr.alignmentMarker 0 0 0 0 0 0 9).wf = false := by decide
theorem test_wf_loop_errors : (Instr.loopDurationExpire 0 5 6).wf = false := by decide
theorem test_wf_converter_sets : (Instr.converterStageDone 0 [⟨0, 0, [], [], false, 0⟩]).wf = false := by decide
theorem test_wf_offered_sets : (Instr.backgroundAnnealOffer 0 [⟨1, 5, [], [], false, 0⟩]).wf = false := by decide
theorem test_wf_wait_kind : (Instr.structWait 0 9 0).wf = false := by decide
theorem test_wf_anneal_sets : (Instr.portAnnealDone 0 [⟨1, 0, [1], [], false, 0⟩]).wf = false := by decide
theorem test_wf_tdr : (Instr.tdrDone 0 ⟨2, 1, [], [], true⟩).wf = false := by decide
theorem test_wf_sweep_pair : (Instr.sweepDone [⟨1, 1, 0, 0, 0, false⟩] []).wf = false := by decide
theorem test_wf_sweep_profile : (Instr.sweepDone [] [(0, ⟨2, 1, [], [], true⟩)]).wf = false := by decide
theorem test_wf_link_rate : (Instr.linkL0 0 0 16).wf = false := by decide
theorem test_wf_link_width : (Instr.linkL0 0 1 3).wf = false := by decide
theorem test_wf_attach_vectors : (Instr.attach .gaffer 0 ⟨true, true, false, [3, 3]⟩).wf = false := by decide
theorem test_wf_invalidate_length : (Instr.invalidateRequest 0 0 100).wf = false := by decide
theorem test_wf_translation_length : (Instr.translationCompletion 0 0 0 false).wf = false := by decide
theorem test_wf_descriptors : (Instr.descriptorFetchDone 0 .rx false (List.replicate 9 ⟨0, 0, 0, 0⟩)).wf = false := by decide
theorem test_wf_descriptor_data : (Instr.mdmaDescComplete 0 ⟨[(0, 4294967296)], [], [], [], none, none⟩ false none).wf = false := by decide
theorem test_wf_unlock : (Instr.pllUnlock 3).wf = false := by decide
theorem test_wf_relock : (Instr.pllRelock 0).wf = false := by decide
theorem test_wf_block_source : (Instr.blockResetEnd 0x18).wf = false := by decide
theorem test_wf_message : (Instr.faultMessage 0x09 0x06 2 0 0).wf = false := by decide
theorem test_wf_collector_part : (Instr.collectorSelf 0).wf = false := by decide
theorem test_wf_supply_rail : (Instr.supply 0).wf = false := by decide
theorem test_wf_sensors : (Instr.overtemp [1, 2]).wf = false := by decide
theorem test_wf_mbist_fails : (Instr.mbistDone 262145 0).wf = false := by decide
theorem test_wf_frame_command : (Instr.unknownCommand 0x83 0).wf = false := by decide
theorem test_wf_window_length : (Instr.flashWindowRead 0 0 true).wf = false := by decide
theorem test_wf_window_bytes : (Instr.flashWindowWrite 0 []).wf = false := by decide

/-! States that meet the hypotheses of the statements about the step and about accesses. -/

theorem meets_StepRunsFront :
    State.reset.pending = [] ∧ (match Instr.remouldExpire with | .registerWrite .. | .write .. | .writeCrc .. => False | _ => True) := ⟨rfl, trivial⟩

theorem meets_StepKeepsOk : State.reset.ok = true ∧ ∃ t, step { State.reset with pending := [.pageProgram] } = .next t :=
  ⟨by decide, _, rfl⟩

theorem meets_FusesArePermanent : ∃ t, step { State.reset with pending := [.keyProgDone true] } = .next t := ⟨_, rfl⟩

theorem meets_DeviceIdentity :
    State.reset.reg R.GLB_ID = 0x645000B0 ∧ (∃ t, step { State.reset with pending := [.status 0] } = .next t) ∧
    (after []).reg R.GLB_ID = 0x645000B0 ∧ (after []).judge (pathCode .gaffer) R.GLB_ID false = .granted ∧
    (after []).judge (pathCode .keeper) R.GLB_ID false = .granted :=
  ⟨by decide +kernel, ⟨_, rfl⟩, by decide +kernel, by decide +kernel, by decide +kernel⟩

theorem meets_SplitAccesses :
    let s := after [setF F.GLB_MODE_mould_ok 1]
    s.ready = true ∧ (tableReg (plainOff R.TB_NOW)).any (fun l => isWide l && l.word == 0) = true ∧
    s.judge (0 : Head) R.TB_NOW false = .granted ∧ SMap.get? s.tv R.TB_NOW = none ∧
    (tableReg (plainOff (R.TB_NOW + 4))).any (fun l => isWide l && l.word != 0) = true ∧
    s.judge (3 : Head) (R.TB_NOW + 4) false = .granted ∧ SMap.get? s.tv (R.TB_NOW + 4) = none := by
  decide +kernel

theorem meets_BufferedPageReads :
    (let s := after [updFlash fun x => { x with bufs := [(0x640000, [1, 2])] }]
     s.domOn domMgt = true ∧ 0x640010 + 16 ≤ s.flashSize ∧ s.readHeld (0x640010, 16) = true) ∧
    (let s := after [updFlash fun x => { x with op := some ⟨false, 0x640000, [1, 2], 2, false⟩, reads := [(0x640000, 4)] }]
     ∃ o, s.fport.op = some o ∧ o.erase = false ∧ o.late = false ∧ s.fport.suspended = false ∧ s.readHeld (0x640000, 4) = false) :=
  ⟨by decide +kernel, _, rfl, rfl, rfl, by decide +kernel, by decide +kernel⟩

theorem meets_WritesAgree :
    (after []).breaksRv (pathCode .gaffer) (R.MCH_HOP_MAX 9) 0xFFFFFFFF = true ∧
    (after []).breaksRv (pathCode .gaffer) R.GLB_COMMIT 1 = false ∧ isSq (R.PORT_EVENT 9) = true ∧
    (after []).power.vaon = true ∧ (after []).writeFaults 0x02 false [3, 0x40, 0x3D, 0, 0, 0, 1] false = [] ∧
    (after []).writeFaults 0x82 true [3, 0x40, 0x3D, 0, 0, 0, 1, spiCrc [0x82, 3, 0x40, 0x3D, 0, 0, 0, 1]] false = [] := by
  decide +kernel

/-! Worked examples of the spec. -/

/-- The check value of the CRC of the frame interface (R564). -/
theorem test_crc8_check_value : spiCrc [0x31, 0x32, 0x33, 0x34, 0x35, 0x36, 0x37, 0x38, 0x39] = 0xDF := by decide +kernel

/-- The first frame of the second example after R567: six bytes, not a whole word. -/
theorem test_write_incomplete : State.reset.writeFaults 0x02 false [0x00, 0x40, 0x03, 0x00, 0x00] false = [rejIncomplete] := by decide +kernel

/-- Its third frame is whole. -/
theorem test_write_whole : State.reset.writeFaults 0x02 false [0x00, 0x40, 0x03, 0x00, 0x00, 0x00, 0x01] false = [] := by decide +kernel

/-- GLB.MODE of the first example after R567, as it travels. -/
theorem test_word_order : beBytes 0x00032203 = [0x00, 0x03, 0x22, 0x03] := by decide

/-- The NO_KEYS message of the example after R613. -/
theorem test_message_word : Msg.word0 ⟨0x05, 0x19, 2, 5, 0⟩ = 0x05194005 := by decide

/-- A write of SEQ clears the events and keeps SEQ; another value does nothing (R62). -/
theorem test_seq_clears : (run (sqWriteBack (R.PORT_EVENT 9) 0x05000000 (fun _ => 0)) (after [setReg (R.PORT_EVENT 9) 0x05000003])).reg (R.PORT_EVENT 9) = 0x05000000 := by
  decide +kernel
theorem test_seq_keeps : (run (sqWriteBack (R.PORT_EVENT 9) 0x04000000 (fun _ => 0)) (after [setReg (R.PORT_EVENT 9) 0x05000003])).reg (R.PORT_EVENT 9) = 0x05000003 := by
  decide +kernel

/-- SEQ wraps from 0xFF to 0x01 (R60). -/
theorem test_seq_wraps : (run (raise (R.PORT_EVENT 9) 2) (after [setReg (R.PORT_EVENT 9) 0xFF000000])).reg (R.PORT_EVENT 9) = 0x01000004 := by
  decide +kernel

/-- Programming only clears bits (R572). -/
theorem test_program_clears : (Memory.program [(5, 0x0F)] 5 [0x3C, 0x3C]).readBytes erased 5 2 = [0x0C, 0x3C] := by decide

/-- The off pattern is what the keeper reads of a block that is off (R46, check 2). -/
theorem test_off_pattern : (run (regRead 6 (R.GLB_MODE) (0, 0, 0)) State.reset).out = [.readData 6 R.GLB_MODE 0xD0FFD0FF] := by decide +kernel


end Sys2Proof.Tests
end

section
/-!
SUPPORT. Registers that a program leaves alone although its mask admits every register: a reset of a range writes no word
outside it, so the reset of a block, and what follows a command, leave the words of the other blocks as they are.
-/
set_option Elab.async false
namespace Sys2Proof.Machine

variable {off k m : Nat} {p : Prog}

/-- No action of a program writes the word at an offset. -/
abbrev Prog.Spares (off : Nat) (p : Prog) : Prop := Prog.All (fun a => ¬ a.writes off) p

/-- A program whose mask lies within one that does not have an offset spares it. -/
theorem spares_of (hp : Prog.All (Act.among k) p) (h : ¬ lies off m)
    (hk : within k m = true := by with_unfolding_all exact rfl) : p.Spares off :=
  hp.imp fun a ha hw => by
    cases a
    case reg o w => exact h (lies_mono hk (by rw [← (show o = off from hw)]; exact ha))
    all_goals exact hw

/-- Words reset one by one: only those are written. -/
theorem each_resetReg_spares {l : List Nat} (h : off ∉ l) : (each l resetReg).Spares off :=
  (all_each l resetReg).2 fun o ho => ⟨fun e : o = off => h (e ▸ ho), id, id, trivial⟩

/-- The reset of a range writes no word outside it. -/
theorem resetRange_spares {base len : Nat} {keep : Nat → Bool} (h : off < base ∨ base + len ≤ off) :
    (resetRange base len keep).Spares off := fun s => by
  refine ⟨each_resetReg_spares fun ho => ?_, all_each_i fun _ => id, all_each_i fun _ => id, all_each_i fun _ => id,
    all_each_i fun _ => id, trivial⟩
  simp only [List.mem_filter, List.mem_map, SMap.within, decide_eq_true_eq] at ho
  obtain ⟨⟨e, ⟨-, he⟩, rfl⟩, -⟩ := ho
  omega

theorem resetBlock_spares {b : Nat} {keep : Nat → Bool} (h : off < b * 0x10000 ∨ b * 0x10000 + 0x10000 ≤ off) :
    (resetBlock b keep).Spares off := ⟨resetRange_spares h, id, trivial⟩

/-- The tables that the effect of a block reset can write, the ranges that it resets aside. -/
def effectMask : Nat := 0xffffff2e2f9c303ff3fbf87c000414092514818f4000548003ff0821104c2d0060ff9e97f6842148c102040000000081100000000363f3ffde

/-- The offset is that of a word of the blocks PWR, CLK, RST and FLT which no block reset touches. -/
structure Untouched (off : Nat) : Prop where
  ge : 0x10000 ≤ off
  lt : off < 0x50000
  aside : ¬ lies off effectMask

/-- A field of a word that a mask admits is no field of a word that it does not. -/
theorem setF_spares {F : Field} {v : Nat} (h : ¬ lies off m) (hl : lies F.off m) : (setF F v).Spares off :=
  fun _ (e : F.off = off) => h (e ▸ hl)

theorem resetReg_spares {o : Nat} (h : ¬ lies off m) (hl : lies o m) : (resetReg o).Spares off :=
  ⟨fun e : o = off => h (e ▸ hl), id, id, trivial⟩

theorem setF_headStat_spares (hu : Untouched off) {F : Field} {v h : Nat} (hF : F.off = R.HEAD_STAT h) : (setF F v).Spares off :=
  setF_spares hu.aside (hF ▸ lies_HEAD_STAT (tb rfl))

theorem headRegs_spares (hu : Untouched off) (h : Nat) (keep : Bool) : (headRegs h keep).Spares off := fun _ =>
  ⟨resetRange_spares (.inl (by have := hu.lt; omega)), id,
    all_when_i ⟨setF_headStat_spares hu rfl, setF_headStat_spares hu rfl, trivial⟩,
    id, spares_of (deriveHead_kinds h) hu.aside, trivial⟩

theorem packetReset_spares (h : ¬ lies off effectMask) : packetReset.Spares off := by
  with_reducible exact spares_of packetReset_kinds h

/-- Rings reset one by one, under a condition. -/
theorem each_resetQp_spares (h : ¬ lies off effectMask) (c : Nat → Bool) :
    (each (List.range 512) fun q => when (c q) (resetQp q)).Spares off := by
  with_reducible exact all_each_i fun q => all_when_i (spares_of (resetQp_kinds q) h)

theorem headReset_spares (hu : Untouched off) (h cause : Nat) : (headReset h cause).Spares off := by
  refine ⟨fun _ => all_when_i (spares_of (headLost_kinds h cause hdLostDown) hu.aside), fun s => all_when_i ?_⟩
  exact ⟨headRegs_spares hu h true, setF_headStat_spares hu rfl, all_when_i (setF_headStat_spares hu rfl),
    setF_headStat_spares hu rfl, spares_of (disarmHead_kinds h) hu.aside, spares_of (adoptHead_kinds h) hu.aside,
    fun _ => all_each_i fun _ => ⟨all_when_i (spares_of (orphanEnter_kinds _) hu.aside),
      all_ifSome_i fun _ => all_when_i (spares_of (orphanExit_kinds _) hu.aside), trivial⟩,
    fun _ => by with_reducible exact each_resetQp_spares hu.aside _,
    spares_of adoptFinish_kinds hu.aside, spares_of (updHead_kinds _ _) hu.aside, spares_of holderUpdate_kinds hu.aside, trivial⟩

theorem resetBlock_spares_of_untouched (hu : Untouched off) {b : Nat} {keep : Nat → Bool} (hb : 5 ≤ b) : (resetBlock b keep).Spares off :=
  resetBlock_spares (.inl (by have := hu.lt; omega))

/-- A block reset, a chip reset aside, leaves the words of PWR, CLK, RST and FLT that its mask does not name. -/
theorem blockEffect_spares (hu : Untouched off) (src : Nat) : (blockEffect src).Spares off := fun s => by
  have ha := hu.aside
  have abort : ∀ b, (activityAbort b).Spares off := fun b => spares_of (activityAbort_kinds b) ha
  dsimp only
  split
  · exact all_when_i (spares_of (portResetBegin_kinds _) ha)
  split
  · exact all_when_i (spares_of (quarterReset_kinds _) ha)
  split
  · exact headReset_spares hu _ _
  split
  · with_reducible exact packetReset_spares ha
  · with_reducible exact packetReset_spares ha
  · exact ⟨spares_of mdmaStop_kinds ha, resetBlock_spares_of_untouched hu (by decide), all_each_i fun _ => id, trivial⟩
  · exact ⟨spares_of flashReset_kinds ha, resetBlock_spares_of_untouched hu (by decide), trivial⟩
  · exact ⟨resetBlock_spares_of_untouched hu (by decide), spares_of (mbxEnds_kinds 4) ha, id, trivial⟩
  · exact ⟨all_each_i fun _ => all_when_i (abort _), all_each_i fun _ => all_when_i (abort _), spares_of stagesAborted_kinds ha,
      resetBlock_spares_of_untouched hu (by decide), setF_spares ha (lies_CAL_BANDGAP (tb rfl)), trivial⟩
  · exact ⟨all_each_i fun _ => all_when_i (abort _), all_each_i abort, resetBlock_spares_of_untouched hu (by decide), trivial⟩
  · exact ⟨resetBlock_spares_of_untouched hu (by decide), spares_of deriveLch_kinds ha, spares_of lgAllIdle_kinds ha, trivial⟩
  · exact ⟨resetBlock_spares_of_untouched hu (by decide), spares_of deriveTb_kinds ha, spares_of (tbState_kinds _) ha, fun _ => id, trivial⟩
  · exact ⟨all_when_i (spares_of (leaveStaged_kinds _ _) ha), setF_spares ha (lies_MLD_REMOULD_STAT (tb rfl)),
      all_when_i fun _ => id, setF_spares ha (lies_MLD_LOAD_CTL (tb rfl)), resetReg_spares ha (lies_MLD_STATUS (tb rfl)),
      resetReg_spares ha (lies_MLD_ERR_DETAIL (tb rfl)), resetReg_spares ha (lies_MLD_EVENT (tb rfl)),
      resetReg_spares ha (lies_MLD_EVENT_MASK (tb rfl)), spares_of deriveMld_kinds ha, trivial⟩
  · exact trivial

/-- A block reset marks RST.BLOCK_STAT and has its effect. -/
theorem blockReset_spares (hu : Untouched off) (h : off ≠ R.RST_BLOCK_STAT) {src : Nat} {chip : Prog} (hc : chip.Spares off) :
    (blockReset src chip).Spares off := fun s => by
  dsimp only
  split
  · exact hc
  · exact all_when_i ⟨fun _ => id, fun _ e => h e.symm, fun _ e => h e.symm, blockEffect_spares hu src, trivial⟩

/-! What follows a command. -/

/-- The tables that what follows a command can write, the ranges that a block reset resets aside. -/
def aftermathMask : Nat := 0xffffff2e2f9c303ff3fbf87c800c140f2514998f4000548003ff082110ec2d0060ff9e97f6842148c902056210c900811000000003ebf3ffde

theorem untouched_of_aftermath (h1 : 0x10000 ≤ off) (h2 : off < 0x50000) (h : ¬ lies off aftermathMask) : Untouched off :=
  ⟨h1, h2, fun hl => h (lies_mono (by with_unfolding_all exact rfl) hl)⟩

theorem react_spares (h1 : 0x10000 ≤ off) (h2 : off < 0x50000) (h : ¬ lies off aftermathMask) (ms : List Msg) : (react ms).Spares off := by
  have safe : ∀ c r x k d, (enterSafe c r x k d).Spares off := fun c r x k d => spares_of (enterSafe_kinds c r x k d) h
  intro s
  dsimp only
  split
  · exact all_when_i (safe _ _ _ _ _)
  · refine ⟨all_when_i (spares_of faultInterrupt_kinds h), all_when_i (spares_of (send_kinds _) h), all_when_i fun _ => id, ?_, trivial⟩
    split
    · split <;> exact safe _ _ _ _ _
    · split
      · exact spares_of (chipReaction_kinds _) h
      · exact all_each_i fun _ => blockReset_spares (untouched_of_aftermath h1 h2 h)
          (fun e => h (e ▸ lies_RST_BLOCK_STAT (tb rfl))) trivial

theorem collect_spares (h1 : 0x10000 ≤ off) (h2 : off < 0x50000) (h : ¬ lies off aftermathMask) (n : Nat) : (collect n).Spares off := by
  induction n with
  | zero => exact trivial
  | succ n ih =>
    intro s
    dsimp only
    split
    · exact trivial
    · refine ⟨fun t => ?_, ih⟩
      dsimp only
      split
      · exact ⟨id, fun _ => id, trivial⟩
      · exact ⟨id, all_each_i fun m => spares_of (logMsg_kinds m) h, react_spares h1 h2 h _, trivial⟩

/-- What follows a command leaves a word of PWR, CLK, RST or FLT alone that its mask does not name. -/
theorem aftermath_spares (h1 : 0x10000 ≤ off) (h2 : off < 0x50000) (h : ¬ lies off aftermathMask) : (Prog.seq pump settle).Spares off :=
  ⟨spares_of pump_kinds h, collect_spares h1 h2 h 16, spares_of faultEdge_kinds h, spares_of summaryIrq_kinds h,
    spares_of keeperPin_kinds h, trivial⟩

theorem aftermath_eq (s : State) : aftermath s = run (.seq pump settle) s := rfl

end Sys2Proof.Machine
end

section
/-!
PROOFS. O32 fails: a domain that is forced off is left pending where another domain waits for it.
-/
set_option Elab.async false
namespace Sys2Proof.Machine

/-! Entries of the register store that no action writes keep their order, whatever the rest of the store is. -/

theorem SMap.filter_put {α : Type} {q : Nat × α → Bool} {k : Nat} {v : α} (hq : ∀ w, q (k, w) = false) (m : SMap α) :
    (m.put k v).filter q = m.filter q := by
  induction m with
  | nil => simp [SMap.put, hq]
  | cons e t ih =>
    obtain ⟨j, w⟩ := e
    simp only [SMap.put]
    split
    · subst_vars; simp [hq]
    · split
      · simp [hq]
      · simp [List.filter_cons, ih]

theorem SMap.filter_del {α : Type} {q : Nat × α → Bool} {k : Nat} (hq : ∀ w, q (k, w) = false) (m : SMap α) :
    (m.del k).filter q = m.filter q := by
  induction m with
  | nil => rfl
  | cons e t ih =>
    obtain ⟨j, w⟩ := e
    simp only [SMap.del]
    split
    · subst_vars; simp [hq]
    · split
      · rfl
      · simp [List.filter_cons, ih]

/-- The entries of the store between two offsets. -/
def State.regsBetween (s : State) (lo hi : Nat) : SMap Word := s.regs.filter fun e => decide (lo ≤ e.1 ∧ e.1 ≤ hi)

/-- A program that writes no word between two offsets keeps the entries there. -/
theorem regsBetween_run {lo hi : Nat} {p : Prog} (hp : ∀ off, lo ≤ off → off ≤ hi → p.Spares off) (s : State) :
    (run p s).regsBetween lo hi = s.regsBetween lo hi := by
  have step : ∀ (a : Act) (t : State), (∀ off, lo ≤ off → off ≤ hi → ¬ a.writes off) →
      (apply a t).regsBetween lo hi = t.regsBetween lo hi := by
    intro a t ha
    unfold State.regsBetween
    rw [apply_regs]
    split
    case h_1 o w =>
      have hq : ∀ w : Word, decide (lo ≤ o ∧ o ≤ hi) = false := fun _ => decide_eq_false fun h => ha o h.1 h.2 rfl
      unfold SMap.putD
      split
      · exact SMap.filter_del hq _
      · exact SMap.filter_put hq _
    case h_2 => rfl
  induction p generalizing s with
  | skip => rfl
  | act a => exact step a s hp
  | seq p q ihp ihq => exact (ihq (fun o h1 h2 => (hp o h1 h2).2) _).trans (ihp (fun o h1 h2 => (hp o h1 h2).1) s)
  | read k ih => exact ih s (fun o h1 h2 => hp o h1 h2 s) s

/-! The words of PWR.DOM_PEND and PWR.DOM_FORCE. -/

/-- Between DOM_PEND and DOM_FORCE lies no word of another table. -/
theorem rows_between_dom : ∀ off ∈ [0x10028, 0x10029, 0x1002A, 0x1002B, 0x1002C],
    (allRows.zipIdx.all fun e => !e.1.has off || e.2 == 20 || e.2 == 21) = true := by decide +kernel

theorem not_lies_between_dom {off K : Nat} (h1 : 0x10028 ≤ off) (h2 : off ≤ 0x1002C) (h63 : K.testBit 63 = false)
    (h84 : K.testBit 84 = false) (h85 : K.testBit 85 = false) : ¬ lies off K := by
  rintro (h | h | ⟨-, h⟩ | ⟨k, r, hk, hr, hh⟩)
  · unfold outside at h; omega
  · rw [h63] at h; cases h
  · unfold inHeader at h; omega
  · have hm : off ∈ [0x10028, 0x10029, 0x1002A, 0x1002B, 0x1002C] := by simp only [List.mem_cons, List.not_mem_nil]; omega
    have hall := List.all_eq_true.1 (rows_between_dom off hm) (r, k) (by rw [List.mk_mem_zipIdx_iff_getElem?]; exact hr)
    simp only [hh, Bool.not_true, Bool.false_or, Bool.or_eq_true, beq_iff_eq] at hall
    rcases hall with rfl | rfl
    · simp [h84] at hk
    · simp [h85] at hk

/-- What follows a command keeps the entries of DOM_PEND and DOM_FORCE. -/
theorem regsBetween_aftermath (s : State) : (aftermath s).regsBetween 0x10028 0x1002C = s.regsBetween 0x10028 0x1002C := by
  rw [aftermath_eq]
  exact regsBetween_run (fun off h1 h2 => aftermath_spares (by omega) (by omega)
    (not_lies_between_dom h1 h2 rfl rfl rfl)) s

/-- Of the entries between two offsets the first is found where the last is. -/
theorem SMap.get?_of_filter {α : Type} {lo hi : Nat} {a b : α} {l : SMap α} {m : SMap α} (hlo : lo ≤ hi)
    (hm : m.filter (fun e => decide (lo ≤ e.1 ∧ e.1 ≤ hi)) = (lo, a) :: l) (hb : m.get? hi = some b) : m.get? lo = some a := by
  induction m with
  | nil => cases hb
  | cons e t ih =>
    obtain ⟨j, w⟩ := e
    rcases Nat.lt_or_ge j lo with hj | hj
    · have h1 : lo ≠ j ∧ ¬ lo < j ∧ hi ≠ j ∧ ¬ hi < j ∧ ¬ lo ≤ j := by omega
      simp only [SMap.get?, h1, if_false, List.filter_cons, false_and, decide_false, Bool.false_eq_true] at hm hb ⊢
      exact ih hm hb
    · have hji : j ≤ hi := by
        by_contra hc
        have h1 : hi ≠ j ∧ hi < j := by omega
        simp [SMap.get?, h1] at hb
      simp only [List.filter_cons, hj, hji, and_self, decide_true, if_true, List.cons.injEq, Prod.mk.injEq] at hm
      obtain ⟨⟨rfl, rfl⟩, -⟩ := hm
      simp [SMap.get?]

/-! The state. -/

/-- A powered block with MGT and TBC on; CXC is off, requested, and waits to switch on. -/
def cxcWaits : State :=
  run (block [setReg R.PWR_DOM_STAT 0xC00000, setReg R.PWR_DOM_REQ 0xD00000, setReg R.PWR_DOM_PEND 0x100000,
    updPower fun x => { x with vaon := true, pwrEn := true, vmainOk := true, gaffer := true }]) State.reset

theorem cxcWaits_ok : cxcWaits.ok = true := run_ok _ _ (by decide +kernel)

theorem cxcWaits_granted : Granted .gaffer R.PWR_DOM_FORCE cxcWaits := by decide +kernel

/-- CXP is forced off: CXC, which needs it, marks it pending. -/
theorem cxcWaits_forced :
    (run (domForceWrite (pathCode .gaffer) 0x80000) cxcWaits).regsBetween 0x10028 0x1002C =
      [(0x10028, 0x180000), (0x1002C, 0x80000)] := by decide +kernel

end Sys2Proof.Machine

namespace Sys2Proof.Proofs
open Sys2Proof Sys2Proof.Machine

/-- Refutes O32: DOM_FORCE_WRITE of CXP while CXC is off, requested and pending. The domains that are not forced and wait are
asked for again, and the request of CXC sets the pending bit of CXP, which it needs and which is forced off: the bit that
the clause says is 0 is 1. -/
theorem not_powerDomains : ¬ Obligations.PowerDomains := by
  unfold Obligations.PowerDomains
  rintro ⟨-, -, -, h⟩
  obtain ⟨u, he, hforce, hoff, -, -⟩ := h .gaffer 0x80000 cxcWaits cxcWaits_ok cxcWaits_granted
  have he' : exec (.domForceWrite .gaffer 0x80000) cxcWaits = finish (domForceWrite (pathCode .gaffer) 0x80000) cxcWaits :=
    wrote_granted (fun c => domForceWrite c 0x80000) cxcWaits_granted
  have hu : aftermath (run (domForceWrite (pathCode .gaffer) 0x80000) cxcWaits) = aftermath u := by
    rw [he'] at he
    exact Host.Outcome.next.inj he
  have hb : u.regsBetween 0x10028 0x1002C = [(0x10028, 0x180000), (0x1002C, 0x80000)] := by
    rw [← regsBetween_aftermath u, ← hu, regsBetween_aftermath, cxcWaits_forced]
  have hpend : u.regs.get? R.PWR_DOM_PEND = some 0x180000 := by
    cases hf : u.regs.get? R.PWR_DOM_FORCE with
    | some b => exact SMap.get?_of_filter (by decide) hb hf
    | none =>
      have : resetWord R.PWR_DOM_FORCE = 0 := by decide +kernel
      simp [State.f, State.reg, SMap.getD, show F.PWR_DOM_FORCE_domains.off = R.PWR_DOM_FORCE from rfl, hf, this, bits] at hforce
  have h19 := (hoff 19 (by decide)).2
  simp only [State.f, State.reg, SMap.getD, show F.PWR_DOM_PEND_domains.off = R.PWR_DOM_PEND from rfl, hpend, Option.getD_some] at h19
  exact absurd h19 (by decide)

end Sys2Proof.Proofs
end

section
/-!
SUPPORT. Facts that programs bring about and keep. A program maintains a fact where the fact, true before, is true after; it
ensures a fact where the fact is true after it whatever was true before. What a block of programs ensures is what one of
them ensures and the later ones maintain.
-/
set_option Elab.async false
namespace Sys2Proof.Machine

/-- After the program, started where P holds, Q holds. -/
def Prog.Leads (P : State → Prop) (p : Prog) (Q : State → Prop) : Prop := ∀ s, s.ok = true → P s → Q (run p s)

/-- The program keeps a fact. -/
abbrev Prog.Maintains (I : State → Prop) (p : Prog) : Prop := p.Leads I I

/-- The program brings a fact about. -/
abbrev Prog.Ensures (Q : State → Prop) (p : Prog) : Prop := p.Leads (fun _ => True) Q

variable {P I Q R : State → Prop} {p q : Prog} {t : List Prog}

theorem leads_nil : (block []).Leads I I := fun _ _ h => h
theorem leads_skip : Prog.skip.Leads I I := fun _ _ h => h

theorem leads_cons (hp : p.Leads P R) (ht : (block t).Leads R Q) : (block (p :: t)).Leads P Q :=
  fun s hs h => ht _ (run_ok p s hs) (hp s hs h)

theorem Prog.Ensures.leads (h : p.Ensures Q) : p.Leads P Q := fun s hs _ => h s hs trivial

/-- A program chosen by the state it finds may use what is known of that state. -/
theorem leads_read {k : State → Prog} (h : ∀ s, s.ok = true → P s → (k s).Leads P Q) : (Prog.read k).Leads P Q :=
  fun s hs hp => h s hs hp s hs hp

theorem maintains_when {c : Bool} (h : c = true → p.Maintains I) : (when c p).Maintains I := by
  cases c
  · exact leads_skip
  · exact h rfl

theorem maintains_each {α : Type} {l : List α} {f : α → Prog} (h : ∀ x ∈ l, (f x).Maintains I) : (each l f).Maintains I := by
  induction l with
  | nil => exact leads_nil
  | cons x l ih => exact leads_cons (h x List.mem_cons_self) (ih fun y hy => h y (List.mem_cons_of_mem _ hy))

/-- What one element brings about and all keep. -/
theorem ensures_each {α : Type} {l : List α} {f : α → Prog} {x : α} (hx : x ∈ l) (h : (f x).Ensures Q) (hk : ∀ y ∈ l, (f y).Maintains Q) :
    (each l f).Ensures Q := by
  obtain ⟨l1, l2, rfl⟩ := List.append_of_mem hx
  induction l1 with
  | nil => exact leads_cons h (maintains_each fun y hy => hk y (List.mem_cons_of_mem _ hy))
  | cons y l1 ih =>
    exact leads_cons (fun _ _ _ => trivial)
      (ih (by simp) fun z hz => hk z (List.mem_cons_of_mem _ hz))

theorem maintains_ifSome {α : Type} {o : Option α} {f : α → Prog} (h : ∀ x, (f x).Maintains I) : (ifSome o f).Maintains I := by
  cases o
  · exact leads_skip
  · exact h _

/-- A fact about one register word is kept by a program that spares it. -/
theorem maintains_reg {off : Nat} {J : Word → Prop} (h : p.Spares off) : p.Maintains fun s => J (s.reg off) := fun s hs hj => by
  show J ((run p s).reg off)
  rwa [run_reg_frame off p h s (State.ok_regs_sorted hs)]

/-- A fact about the power controller is kept by a program whose mask leaves it alone. -/
theorem maintains_power {K : Nat} {J : PowerX → Prop} (hp : Prog.All (Act.among K) p) (h : K.testBit 25 = false) :
    p.Maintains fun s => J s.power := fun s _ hj => by
  show J (run p s).power
  rwa [run_power_of hp h]

/-- What the first program ensures and the rest maintains. -/
theorem ensures_now (hp : p.Ensures Q) (ht : (block t).Maintains Q) : (block (p :: t)).Ensures Q := leads_cons hp ht

/-- What the rest ensures. -/
theorem ensures_later (ht : (block t).Ensures Q) : (block (p :: t)).Ensures Q := leads_cons (fun _ _ _ => trivial) ht

/-- A field written holds what was written. -/
theorem ensures_setF {F : Field} {v : Nat} (hF : F.lo ≤ F.hi ∧ F.hi < 32 := by decide) : (setF F v).Ensures fun s => s.f F = v % 2 ^ (F.hi + 1 - F.lo) :=
  fun s hs _ => f_run_setF_same F v s hF (State.ok_regs_sorted hs)

/-- A field beside the one written, or of another word, is as before. -/
theorem maintains_setF {F G : Field} {v n : Nat} (hF : F.lo ≤ F.hi ∧ F.hi < 32 := by decide)
    (hne : F.off ≠ G.off ∨ G.hi < F.lo ∨ F.hi < G.lo := by decide) : (setF F v).Maintains fun s => s.f G = n := fun s hs h => by
  show (run (setF F v) s).f G = n
  rw [f_run_setF_ne F G v s hF (State.ok_regs_sorted hs) hne, h]

theorem maintains_f {G : Field} {n : Nat} (h : p.Spares G.off) : p.Maintains fun s => s.f G = n :=
  maintains_reg (J := fun w => bits w G.hi G.lo = n) h

/-! The words that small programs write. -/

variable {off : Nat}

@[simp] theorem spares_setReg {o : Nat} {w : Word} : (setReg o w).Spares off ↔ o ≠ off := Iff.rfl
@[simp] theorem spares_setF {F : Field} {v : Nat} : (setF F v).Spares off ↔ F.off ≠ off :=
  ⟨fun h => h State.reset, fun h _ => h⟩
@[simp] theorem spares_satAdd {F : Field} {k : Nat} : (satAdd F k).Spares off ↔ F.off ≠ off :=
  ⟨fun h => h State.reset State.reset, fun h _ _ => h⟩
@[simp] theorem spares_wrapAdd {F : Field} {k : Nat} : (wrapAdd F k).Spares off ↔ F.off ≠ off :=
  ⟨fun h => h State.reset State.reset, fun h _ _ => h⟩
@[simp] theorem spares_raise {o b : Nat} : (raise o b).Spares off ↔ o ≠ off :=
  ⟨fun h => (h State.reset).2.1, fun h _ => ⟨all_when_i id, h, trivial⟩⟩
@[simp] theorem spares_updPower {g : PowerX → PowerX} : (updPower g).Spares off := fun _ => id
@[simp] theorem spares_updFault {g : FaultX → FaultX} : (updFault g).Spares off := fun _ => id
@[simp] theorem spares_send {o : Out} : (send o).Spares off := id

end Sys2Proof.Machine
end

section
/-!
SUPPORT. What a reset of the main rails does (R519, R522, R523): the registers that it returns to their reset words, the
ones that it keeps, and every other fact that its actions keep.
-/
set_option Elab.async false
namespace Sys2Proof.Machine

variable {off base len : Nat} {keep : Nat → Bool} {P R Q T : State → Prop}

/-! A range of registers. -/

theorem resetReg_reg (o : Nat) {s : State} (hs : s.ok = true) :
    (run (resetReg o) s).reg off = if off = o then resetWord o else s.reg off := by
  have hr := State.ok_regs_sorted hs
  show (apply (.reg o (resetWord o)) s).reg off = _
  split
  next h => rw [h, reg_apply_same _ _ _ hr]
  next h => exact reg_apply_ne (.reg o _) s hr fun e : o = off => h e.symm

/-- Words reset one by one. -/
theorem each_resetReg_reg (l : List Nat) {s : State} (hs : s.ok = true) :
    (run (each l resetReg) s).reg off = if off ∈ l then resetWord off else s.reg off := by
  induction l generalizing s with
  | nil => simp
  | cons o l ih =>
    rw [run_each_cons, ih (run_ok _ _ hs), resetReg_reg o hs]
    by_cases h : off = o <;> simp [h]

/-- A register that a reset of a range keeps is not written. -/
theorem resetRange_spares_kept (h : keep off = true) : (resetRange base len keep).Spares off := fun s => by
  refine ⟨each_resetReg_spares fun ho => ?_, all_each_i fun _ => id, all_each_i fun _ => id, all_each_i fun _ => id,
    all_each_i fun _ => id, trivial⟩
  have := (List.mem_filter.1 ho).2
  simp [h] at this

/-- The copies, held words and windows of a range are cleared without a write of a register. -/
theorem clear_copies_reg (l1 l2 l3 l4 : List Nat) {s : State} (hs : s.regs.sorted = true) :
    (run (block [each l1 fun o => .act (.unstage o), each l2 fun o => .act (.tvClear o), each l3 fun o => .act (.unhold o),
      each l4 fun o => .act (.win o none)]) s).reg off = s.reg off := by
  refine run_reg_frame off _ ?_ s hs
  exact ⟨all_each_i fun _ => id, all_each_i fun _ => id, all_each_i fun _ => id, all_each_i fun _ => id, trivial⟩

/-- A register of the range that is not kept reads its reset word. -/
theorem resetRange_ensures (h1 : base ≤ off) (h2 : off < base + len) (h3 : keep off = false) :
    (resetRange base len keep).Ensures fun s => s.reg off = resetWord off := fun s hs _ => by
  simp only [resetRange, run_read]
  rw [run_block_cons, clear_copies_reg _ _ _ _ (run_regs_sorted _ _ (State.ok_regs_sorted hs)), each_resetReg_reg _ hs]
  split
  · rfl
  next hm =>
    have hn : s.regs.get? off = none := by
      refine SMap.get?_none fun e he heo => hm ?_
      refine List.mem_filter.2 ⟨List.mem_map.2 ⟨e, List.mem_filter.2 ⟨he, ?_⟩, heo⟩, by simp [h3]⟩
      exact decide_eq_true (by omega)
    simp [State.reg, SMap.getD, hn]

/-- A reset of a range leaves a register at its reset word where it was. -/
theorem resetRange_maintains : (resetRange base len keep).Maintains fun s => s.reg off = resetWord off := by
  by_cases h : keep off = true
  · exact maintains_reg (J := fun w => w = resetWord off) (resetRange_spares_kept h)
  by_cases h1 : base ≤ off ∧ off < base + len
  · exact fun s hs _ => resetRange_ensures h1.1 h1.2 (by simpa using h) s hs trivial
  · exact maintains_reg (J := fun w => w = resetWord off) (resetRange_spares (by omega))

/-! The main rails. -/

/-- The actions of `clearMain` beside the resets of registers, the flash operation that is cut short, the ports and the
power controller. -/
def Act.clears : Act → Prop
  | .undoDrop _ | .snapDrop | .cane .. | .bnd .. | .fur _ | .release _ | .dequeue _ | .mld _ | .tb _ | .cal _ | .diag _ | .commit _
  | .head .. | .ring .. | .chan .. | .filled _ | .cellarClear .. | .fport _ | .sramClear .. | .clock _ | .fault _ => True
  | _ => False

/-- What a loss of the main rails leaves of the power controller. -/
def clearedPower (park : Bool) (x : PowerX) : PowerX :=
  { x with switching := [], table := [], avsGoal := 750, avsOut := none, gaffer := false, halted := false, kicked := false, partnerRefs := if park then x.partnerRefs else [] }

/-- The memories are cleared, but for the banks that the mask names where the retention rail holds them. -/
def clearMemories (park : Bool) (mask : Nat) : Prog :=
  block [.act (.cellarClear 0 25165824), .act (.fport {}),
    each (List.range 16) fun n => when (!(park && bitOf mask n)) (.act (.sramClear (n * bankSize) bankSize))]

/-- What a reset of the main rails makes of a fact: the flash operation and ALIVE keep P, the two resets of ranges lead from P
to R and from R to Q, the rest keeps Q until the memories go, which lead to M; the power controller goes last. -/
theorem clearMain_leads_memory {M : State → Prop} (park : Bool) {s : State} (hs : s.ok = true) (hP : P s)
    (hflash : ∀ o ∈ s.fport.op, (flashEffect o false).Maintains P) (hout : ∀ o, (send o).Maintains P)
    (h1 : (resetRange 0 0x160000 (resetKeeps park)).Leads P R) (h2 : (resetRange 0x180000 0x2080000 fun _ => false).Leads R Q)
    (hact : ∀ a : Act, a.clears → (Prog.act a).Maintains Q) (hport : ∀ p ∈ s.ports.map (·.1), ∀ g, (updPort p g).Maintains Q)
    (hmem : ∀ mask, (clearMemories park mask).Leads Q M) (hclock : ∀ x, (Prog.act (.clock x)).Maintains M)
    (hfault : ∀ x, (Prog.act (.fault x)).Maintains M) (hpower : (updPower (clearedPower park)).Leads M T) : T (run (clearMain park) s) := by
  have act : ∀ a : Act, a.clears → (Prog.act a).Maintains Q := hact
  have upd : ∀ k : State → Act, (∀ t, (k t).clears) → (Prog.read fun t => .act (k t)).Maintains Q :=
    fun k hk => leads_read fun t _ _ => hact _ (hk t)
  have all : ∀ {α : Type} (l : List α) (f : α → Act), (∀ x, (f x).clears) → (each l fun x => .act (f x)).Maintains Q :=
    fun l f hf => maintains_each fun x _ => hact _ (hf x)
  have mem : ∀ {mask : Nat} {t : List Prog}, (block t).Leads M T → (block (.act (.cellarClear 0 25165824) :: .act (.fport {}) ::
      (each (List.range 16) fun n => when (!(park && bitOf mask n)) (.act (.sramClear (n * bankSize) bankSize))) :: t)).Leads Q T :=
    fun ht u hu hq => ht _ (run_ok (clearMemories park _) u hu) (hmem _ u hu hq)
  unfold clearMain
  rw [run_read]
  refine (?_ : Prog.Leads P (block _) T) s hs hP
  refine leads_cons (R := P) ?_ (leads_cons (R := P) (maintains_when fun _ => hout _) (leads_cons h1 (leads_cons h2 ?_)))
  · cases ho : s.fport.op with
    | none => exact leads_skip
    | some o => exact maintains_when fun _ => hflash o ho
  · exact leads_cons (all _ _ fun _ => trivial) <| leads_cons (act _ trivial) <| leads_cons (maintains_each fun p hp => hport p hp _) <|
      leads_cons (all _ _ fun _ => trivial) <| leads_cons (all _ _ fun _ => trivial) <| leads_cons (upd _ fun _ => trivial) <|
      leads_cons (all _ _ fun _ => trivial) <| leads_cons (all _ _ fun _ => trivial) <| leads_cons (upd _ fun _ => trivial) <|
      leads_cons (act _ trivial) <| leads_cons (upd _ fun _ => trivial) <| leads_cons (act _ trivial) <| leads_cons (act _ trivial) <|
      leads_cons (all _ _ fun _ => trivial) <| leads_cons (all _ _ fun _ => trivial) <| leads_cons (all _ _ fun _ => trivial) <|
      leads_cons (act _ trivial) <| mem <| leads_cons (leads_read fun _ _ _ => hclock _) <|
      leads_cons (leads_read fun _ _ _ => hfault _) <| leads_cons hpower leads_nil

/-- Of a fact that the clearing of the memories keeps too. -/
theorem clearMain_leads (park : Bool) {s : State} (hs : s.ok = true) (hP : P s)
    (hflash : ∀ o ∈ s.fport.op, (flashEffect o false).Maintains P) (hout : ∀ o, (send o).Maintains P)
    (h1 : (resetRange 0 0x160000 (resetKeeps park)).Leads P R) (h2 : (resetRange 0x180000 0x2080000 fun _ => false).Leads R Q)
    (hact : ∀ a : Act, a.clears → (Prog.act a).Maintains Q)
    (hport : ∀ p ∈ s.ports.map (·.1), ∀ g, (updPort p g).Maintains Q)
    (hpower : (updPower (clearedPower park)).Leads Q T) : T (run (clearMain park) s) :=
  clearMain_leads_memory (M := Q) park hs hP hflash hout h1 h2 hact hport
    (fun _ => leads_cons (hact _ trivial) <| leads_cons (hact _ trivial) <|
      leads_cons (maintains_each fun _ _ => maintains_when fun _ => hact _ trivial) leads_nil)
    (fun _ => hact _ trivial) (fun _ => hact _ trivial) hpower

/-- A flash operation that is cut short writes no register and nothing but the flash. -/
theorem flashEffect_spares (o : FlashOp) (ok : Bool) : (flashEffect o ok).Spares off := fun s => by
  dsimp only
  split
  · exact ⟨id, id, trivial⟩
  · split <;> exact id

/-- The register facts that the main rails' reset keeps. -/
theorem clearMain_reg_leads {J K : Word → Prop} (park : Bool)
    (h1 : (resetRange 0 0x160000 (resetKeeps park)).Leads (fun t => J (t.reg off)) (fun t => K (t.reg off)))
    (h2 : (resetRange 0x180000 0x2080000 fun _ => false).Maintains (fun t => K (t.reg off))) :
    (clearMain park).Leads (fun t => J (t.reg off)) (fun t => K (t.reg off)) := fun s hs hJ =>
  clearMain_leads (P := fun t => J (t.reg off)) (Q := fun t => K (t.reg off)) park hs hJ
    (fun _ _ => maintains_reg (flashEffect_spares _ _)) (fun _ => maintains_reg id) h1 h2
    (fun a ha t _ h => by cases a <;> first | exact ha.elim | exact h)
    (fun _ _ _ => maintains_reg fun _ => id) (maintains_reg fun _ => id)

/-- A word that neither range covers, or that is kept, is as before. -/
theorem clearMain_reg {park : Bool} (h : (0x160000 ≤ off ∧ off < 0x180000) ∨ (off < 0x160000 ∧ resetKeeps park off = true))
    {s : State} (hs : s.ok = true) : (run (clearMain park) s).reg off = s.reg off := by
  refine clearMain_reg_leads (J := fun w => w = s.reg off) (K := fun w => w = s.reg off) park ?_ ?_ s hs rfl
  · rcases h with h | h
    · exact maintains_reg (J := fun w => w = s.reg off) (resetRange_spares (by omega))
    · exact maintains_reg (J := fun w => w = s.reg off) (resetRange_spares_kept h.2)
  · exact maintains_reg (J := fun w => w = s.reg off) (resetRange_spares (by omega))

/-- Every other main-rail word reads its reset word. -/
theorem clearMain_low {park : Bool} (h : off < 0x160000) (hk : resetKeeps park off = false) :
    (clearMain park).Ensures fun t => t.reg off = resetWord off := fun s hs _ =>
  clearMain_reg_leads (J := fun _ => True) (K := fun w => w = resetWord off) park
    (resetRange_ensures (Nat.zero_le _) (by omega) hk) resetRange_maintains s hs trivial

theorem clearMain_high {park : Bool} (h1 : 0x180000 ≤ off) (h2 : off < 0x2200000) :
    (clearMain park).Ensures fun t => t.reg off = resetWord off := fun s hs _ =>
  clearMain_leads (P := fun _ => True) (R := fun _ => True) (Q := fun t => t.reg off = resetWord off) park hs trivial
    (fun _ _ _ _ h => h) (fun _ _ _ h => h) (fun _ _ h => h) (resetRange_ensures h1 (by omega) rfl)
    (fun a ha t _ h => by cases a <;> first | exact ha.elim | exact h)
    (fun _ _ _ => maintains_reg (J := fun w => w = resetWord off) fun _ => id)
    (maintains_reg (J := fun w => w = resetWord off) fun _ => id)

/-- The power controller after the reset of the main rails. -/
theorem clearMain_power (park : Bool) {s : State} (hs : s.ok = true) :
    (run (clearMain park) s).power = clearedPower park s.power := by
  refine clearMain_leads (P := fun t => t.power = s.power) (R := fun t => t.power = s.power) (Q := fun t => t.power = s.power)
    (T := fun t => t.power = clearedPower park s.power) park hs rfl (fun o _ => ?_) (fun _ _ _ h => h) ?_ ?_ ?_ (fun _ _ _ _ _ h => h) ?_
  · exact maintains_power (J := fun x => x = s.power) (flashEffect_kinds o false) rfl
  · exact maintains_power (J := fun x => x = s.power) (resetRange_kinds _ _ _) rfl
  · exact maintains_power (J := fun x => x = s.power) (resetRange_kinds _ _ _) rfl
  · exact fun a ha t _ h => by cases a <;> first | exact ha.elim | exact h
  · exact fun t _ h => congrArg (clearedPower park) h

end Sys2Proof.Machine
end

section
/-!
SUPPORT. What a start does (R485, R492, R514 to R516): the beginning, which resets the main rails and records the kind and the
cause, and the rails' coming up, which on a cold start ends in the fetch of the firmware with MGT and TBC on.
-/
set_option Elab.async false
namespace Sys2Proof.Machine

variable {off k K base n : Nat} {p : Prog} {P Q : State → Prop}

/-! Tables of one word that share it with no other. -/

/-- A program whose mask does not have a table leaves its only word alone. -/
theorem spares_word (ha : alone k = true) (hp : Prog.All (Act.among K) p) (h62 : K.testBit 62 = false) (h63 : K.testBit 63 = false)
    (h : K.testBit (64 + k) = false) (hk : shapes[k]? = some (base, [], 1) := by rfl) (ho : base + 4 ≤ outside := by decide) :
    p.Spares base := by
  have hb : ¬ lies (base + 0) K := not_lies_one ha hk rfl (by decide) ho h62 h63 h
  refine hp.imp fun a ha' hw => ?_
  cases a
  case reg o w => exact hb ((show o = base from hw) ▸ ha')
  all_goals exact hw

theorem alone_PWR_DOM_STAT : alone 19 = true := by decide +kernel
theorem alone_RST_CAUSE : alone 38 = true := by decide +kernel
theorem alone_RST_COUNT : alone 42 = true := by decide +kernel
theorem alone_AON_MODE : alone 283 = true := by decide +kernel

/-! The beginning of a start. -/

/-- The words that a start writes after the main rails' reset. -/
def startWords : List Nat :=
  [R.AON_START_STAT, R.AON_START_CTL, R.AON_RET_SEAL, R.RST_CAUSE, R.AON_MODE, R.AON_SAFE_STAT, R.PWR_RET_STATUS]

/-- A start for a cause is warm. -/
def State.warmFor (s : State) (cause : Nat) : Bool :=
  s.startsWarm (cause == rcParkWake || (cause == rcRetry && s.power.park))

theorem warmFor_cold {s : State} {cause : Nat} (h1 : cause ≠ rcParkWake) (h2 : cause ≠ rcRetry) : s.warmFor cause = false := by
  simp [State.warmFor, State.startsWarm, h1, h2]

/-- What the reset of the main rails brings about for a word that a start does not write, the start brings about. -/
theorem beginStart_reg_leads {J : Word → Prop} {cause src : Nat} (hoff : off ∉ startWords)
    (hc : ∀ s, P s → (clearMain (s.warmFor cause)).Leads P fun t => J (t.reg off)) :
    (beginStart cause src).Leads P fun t => J (t.reg off) := by
  simp only [startWords, List.mem_cons, List.not_mem_nil, or_false, not_or] at hoff
  obtain ⟨h1, h2, h3, h4, h5, h6, h7⟩ := hoff
  refine leads_read fun s _ hP => leads_cons (hc s hP) (maintains_reg ?_)
  refine ⟨all_when_i ⟨spares_setF.2 (Ne.symm h1), spares_setF.2 (Ne.symm h2), spares_setF.2 (Ne.symm h3), trivial⟩,
    spares_setF.2 (Ne.symm h2), spares_setReg.2 (Ne.symm h4), spares_setF.2 (Ne.symm h5), spares_setF.2 (Ne.symm h5),
    spares_setF.2 (Ne.symm h5), all_when_i (spares_setF.2 (Ne.symm h6)), spares_setF.2 (Ne.symm h7), spares_updPower, trivial⟩

/-- What AON backs is kept by every reset of the main rails. -/
theorem resetKeeps_of_false {park : Bool} (h : resetKeeps false off = true) : resetKeeps park off = true := by
  simp only [resetKeeps, Bool.false_and, Bool.or_false] at h
  simp only [resetKeeps, h, Bool.true_or]

/-- A word of AON, or one of RST that AON backs, that a start does not write is as before. -/
theorem beginStart_reg {cause src : Nat} (hoff : off ∉ startWords)
    (h : (0x160000 ≤ off ∧ off < 0x180000) ∨ (off < 0x160000 ∧ resetKeeps false off = true)) {s : State} (hs : s.ok = true) :
    (run (beginStart cause src) s).reg off = s.reg off :=
  beginStart_reg_leads (P := fun t => t.reg off = s.reg off) (J := fun w => w = s.reg off) hoff
    (fun _ _ _ ht he => (clearMain_reg (h.imp_right fun h => ⟨h.1, resetKeeps_of_false h.2⟩) ht).trans he) s hs rfl

/-- A cold start's main-rail registers are at reset. -/
theorem beginStart_low {cause src : Nat} (h1 : cause ≠ rcParkWake) (h2 : cause ≠ rcRetry) (h : off < 0x160000) (hk : resetKeeps false off = false) :
    (beginStart cause src).Ensures fun t => t.reg off = resetWord off := by
  have hoff : off ∉ startWords := by
    intro hm
    simp only [startWords, List.mem_cons, List.not_mem_nil, or_false] at hm
    rcases hm with rfl | rfl | rfl | rfl | rfl | rfl | rfl
    all_goals first | exact absurd h (by decide) | exact absurd hk (by decide)
  refine beginStart_reg_leads (J := fun w => w = resetWord off) hoff fun s _ => ?_
  rw [warmFor_cold h1 h2]
  exact clearMain_low h hk

theorem beginStart_high {cause src : Nat} (h1 : 0x180000 ≤ off) (h2 : off < 0x2200000) :
    (beginStart cause src).Ensures fun t => t.reg off = resetWord off := by
  have hoff : off ∉ startWords := by
    have hlt : ∀ o ∈ startWords, o < 0x180000 := by decide
    exact fun hm => absurd (hlt off hm) (by omega)
  exact beginStart_reg_leads (J := fun w => w = resetWord off) hoff fun _ _ => clearMain_high h1 h2

/-- What a start records in AON and RST. -/
structure Records (cause src : Nat) (warm : Bool) (t : State) : Prop where
  cause : t.reg R.RST_CAUSE = BitVec.ofNat 32 (cause + 2 ^ 7 * b2n warm + 2 ^ 16 * src)
  kind : t.f F.AON_MODE_start_kind = b2n warm
  mode : t.f F.AON_MODE_mode = mdRamp
  ok : t.f F.AON_START_CTL_ok = 0

theorem b2n_mod (b : Bool) : b2n b % 2 = b2n b := by cases b <;> rfl

theorem beginStart_records (cause src : Nat) {s : State} (hs : s.ok = true) :
    Records cause src (s.warmFor cause) (run (beginStart cause src) s) := by
  have other : ∀ {F : Field} {v : Nat} {o : Nat}, F.off ≠ o → (setF F v).Spares o := fun h => spares_setF.2 h
  have hcause : (beginStart cause src).Leads (fun t => t = s) fun t =>
      t.reg R.RST_CAUSE = BitVec.ofNat 32 (cause + 2 ^ 7 * b2n (s.warmFor cause) + 2 ^ 16 * src) := by
    refine leads_read fun t _ ht => ht ▸ Prog.Ensures.leads (ensures_later (ensures_later (ensures_later (ensures_now ?_ ?_))))
    · exact fun v hv _ => reg_apply_same _ _ _ (State.ok_regs_sorted hv)
    · exact maintains_reg (J := fun w => w = _) ⟨other (by decide), other (by decide), other (by decide), all_when_i (other (by decide)),
        other (by decide), spares_updPower, trivial⟩
  have hkind : (beginStart cause src).Leads (fun t => t = s) fun t => t.f F.AON_MODE_start_kind = b2n (s.warmFor cause) := by
    refine leads_read fun t _ ht => ht ▸ Prog.Ensures.leads
      (ensures_later (ensures_later (ensures_later (ensures_later (ensures_now ?_ ?_)))))
    · exact fun v hv h => (ensures_setF (by decide) v hv h).trans (b2n_mod _)
    · exact leads_cons (maintains_setF) (leads_cons (maintains_setF)
        (maintains_f ⟨all_when_i (other (by decide)), other (by decide), spares_updPower, trivial⟩))
  have hmode : (beginStart cause src).Leads (fun t => t = s) fun t => t.f F.AON_MODE_mode = mdRamp :=
    leads_read fun t _ _ => Prog.Ensures.leads <| ensures_later (ensures_later (ensures_later (ensures_later (ensures_later (ensures_now
      (ensures_setF) (leads_cons (maintains_setF)
        (maintains_f ⟨all_when_i (other (by decide)), other (by decide), spares_updPower, trivial⟩)))))))
  have hok : (beginStart cause src).Leads (fun t => t = s) fun t => t.f F.AON_START_CTL_ok = 0 :=
    leads_read fun t _ _ => Prog.Ensures.leads <| ensures_later (ensures_later (ensures_now (ensures_setF)
      (maintains_f ⟨spares_setReg.2 (by decide), other (by decide), other (by decide), other (by decide),
        all_when_i (other (by decide)), other (by decide), spares_updPower, trivial⟩)))
  exact ⟨hcause s hs rfl, hkind s hs rfl, hmode s hs rfl, hok s hs rfl⟩

theorem power_setReg (o : Nat) (w : Word) (s : State) : (run (setReg o w) s).power = s.power := rfl
theorem power_setF (F : Field) (v : Nat) (s : State) : (run (setF F v) s).power = s.power := rfl

/-- What a start keeps of the power controller, and where it waits. -/
structure Begun (x y : PowerX) : Prop where
  stage : y.stage = sgRails
  offWait : y.offWait = none
  vaon : y.vaon = x.vaon
  pwrEn : y.pwrEn = x.pwrEn
  vmainOk : y.vmainOk = x.vmainOk
  resetN : y.resetN = x.resetN

theorem beginStart_power (cause src : Nat) {s : State} (hs : s.ok = true) : Begun s.power (run (beginStart cause src) s).power := by
  refine (?_ : (beginStart cause src).Leads (fun t => t.power = s.power) fun t => Begun s.power t.power) s hs rfl
  have keep : ∀ {y : PowerX} (F : Field) (v : Nat), (setF F v).Maintains fun u => u.power = y :=
    fun F v u _ h => (power_setF F v u).trans h
  refine leads_read fun t _ _ => leads_cons (R := fun u => u.power = clearedPower (t.warmFor cause) s.power)
    (fun u hu h => (clearMain_power _ hu).trans (congrArg _ h)) ?_
  refine leads_cons (maintains_when fun _ => leads_cons (keep _ _) (leads_cons (keep _ _) (leads_cons (keep _ _) leads_nil))) <|
    leads_cons (keep _ _) <| leads_cons (fun u _ h => (power_setReg _ _ u).trans h) <| leads_cons (keep _ _) <| leads_cons (keep _ _) <| leads_cons (keep _ _) <|
    leads_cons (maintains_when fun _ => keep _ _) <| leads_cons (keep _ _) <| leads_cons (fun u _ h => ?_) leads_nil
  simp only [run_updPower, apply_power]
  rw [show u.power = clearedPower (t.warmFor cause) s.power from h]
  exact ⟨rfl, rfl, rfl, rfl, rfl, rfl⟩

/-! The rails come up. -/

/-- What the rails' coming up leaves as the start begins: the stage, the rails, RESET_N, the domains that are on, the kind. -/
structure Booting (x : PowerX) (t : State) : Prop where
  stage : t.power.stage = x.stage
  pwrEn : t.power.pwrEn = x.pwrEn
  vmainOk : t.power.vmainOk = x.vmainOk
  resetN : t.power.resetN = x.resetN
  domains : t.f F.PWR_DOM_STAT_domains = 3 * 2 ^ 22
  cold : t.f F.AON_MODE_start_kind = 0

variable {x : PowerX}

/-- A program that changes neither the power controller nor PWR.DOM_STAT nor AON.MODE. -/
theorem booting_of (hp : Prog.All (Act.among K) p) (h25 : K.testBit 25 = false) (h62 : K.testBit 62 = false) (h63 : K.testBit 63 = false)
    (h83 : K.testBit 83 = false) (h347 : K.testBit 347 = false) : p.Maintains (Booting x) := fun s hs h => by
  have hpow := run_power_of (s := s) hp h25
  refine ⟨hpow ▸ h.stage, hpow ▸ h.pwrEn, hpow ▸ h.vmainOk, hpow ▸ h.resetN, ?_, ?_⟩
  · exact maintains_f (G := F.PWR_DOM_STAT_domains) (spares_word alone_PWR_DOM_STAT hp h62 h63 h83) s hs h.domains
  · exact maintains_f (G := F.AON_MODE_start_kind) (spares_word alone_AON_MODE hp h62 h63 h347) s hs h.cold

/-- A change of the power controller elsewhere. -/
theorem booting_updPower {g : PowerX → PowerX} (h : ∀ y, (g y).stage = y.stage ∧ (g y).pwrEn = y.pwrEn ∧ (g y).vmainOk = y.vmainOk ∧
    (g y).resetN = y.resetN) : (updPower g).Maintains (Booting x) := fun _ _ hb =>
  ⟨(h _).1.trans hb.stage, (h _).2.1.trans hb.pwrEn, (h _).2.2.1.trans hb.vmainOk, (h _).2.2.2.trans hb.resetN, hb.domains, hb.cold⟩

/-- A field of another word than PWR.DOM_STAT, and beside the kind of the start in AON.MODE. -/
theorem booting_setF {F : Field} {v : Nat} (hF : F.lo ≤ F.hi ∧ F.hi < 32 := by decide) (h1 : F.off ≠ R.PWR_DOM_STAT := by decide)
    (h2 : F.off ≠ R.AON_MODE ∨ 8 < F.lo ∨ F.hi < 8 := by decide) :
    (setF F v).Maintains (Booting x) := fun s hs h =>
  ⟨h.stage, h.pwrEn, h.vmainOk, h.resetN, maintains_setF hF (.inl h1) s hs h.domains, maintains_setF hF h2 s hs h.cold⟩

theorem booting_avsStep : avsStep.Maintains (Booting x) :=
  leads_read fun _ _ _ => maintains_when fun _ => leads_cons (booting_updPower fun _ => ⟨rfl, rfl, rfl, rfl⟩)
    (leads_cons (booting_of (send_kinds _) rfl rfl rfl rfl rfl) leads_nil)

theorem booting_avsFixed (mv : Nat) : (avsFixed mv).Maintains (Booting x) :=
  leads_cons booting_setF (leads_cons (booting_updPower fun _ => ⟨rfl, rfl, rfl, rfl⟩) (leads_cons booting_avsStep leads_nil))

/-- An event of the keeper. -/
theorem booting_kevent (bit : Nat) : (raise R.HSPI_KEVENT bit).Maintains (Booting x) :=
  booting_of (raise_kinds (K := 0x80000000000000000000000000000000000000000000000000000000000000000010) _ _ rfl
    (lies_HSPI_KEVENT (tb rfl))) rfl rfl rfl rfl rfl

theorem booting_deviceMode (m : Nat) : (deviceMode m).Maintains (Booting x) :=
  leads_read fun _ _ _ => leads_cons booting_setF (leads_cons booting_setF (leads_cons (maintains_when fun _ =>
    booting_kevent _) leads_nil))

/-- The ports lie in domains that are not yet on. -/
theorem booting_domOff {t : State} (h : Booting x t) (p : Nat) : t.domOn (portDomain p) = false := by
  have hlt : portDomain p < 15 := by unfold portDomain; split_ifs <;> omega
  have hall : ∀ d < 15, bitOf (3 * 2 ^ 22) d = false := by decide
  show bitOf (t.f F.PWR_DOM_STAT_domains) _ = false
  rw [h.domains, hall _ hlt]

/-- SAFE's entry silences a port whose domain is off in its saved set only. -/
theorem booting_safePort (p : Nat) : (safePort p).Maintains (Booting x) := by
  refine leads_read fun t _ h => ?_
  rw [if_neg (by simp [booting_domOff h p])]
  refine maintains_ifSome fun m => ?_
  split
  · exact booting_of (updPort_kinds _ _) rfl rfl rfl rfl rfl
  · exact leads_skip

theorem booting_safeStat (c r i k d : Nat) : (safeStat c r i k d).Maintains (Booting x) :=
  booting_of (safeStat_kinds c r i k d) rfl rfl rfl rfl rfl

theorem booting_packetReset : packetReset.Maintains (Booting x) := by
  with_reducible exact booting_of packetReset_kinds rfl rfl rfl rfl rfl

theorem booting_send (o : Out) : (send o).Maintains (Booting x) := booting_of (send_kinds o) rfl rfl rfl rfl rfl

theorem booting_safeSteps : safeSteps.Maintains (Booting x) := by
  refine leads_read fun t _ _ => leads_cons booting_setF <| leads_cons booting_setF <| leads_cons (booting_deviceMode _) <|
    leads_cons (maintains_when fun _ => ?_) leads_nil
  refine leads_cons booting_setF <| leads_cons (booting_kevent _) <|
    leads_cons (maintains_each fun p _ => booting_safePort p) <| leads_cons booting_packetReset <|
    leads_cons (booting_of mdmaStop_kinds rfl rfl rfl rfl rfl) <| leads_cons (booting_of lgAllIdle_kinds rfl rfl rfl rfl rfl) <|
    leads_cons (maintains_each fun _ _ => maintains_when fun _ => booting_send _) <|
    leads_cons (maintains_when fun _ => booting_updPower fun _ => ⟨rfl, rfl, rfl, rfl⟩) <| leads_cons (booting_avsFixed _) <|
    leads_cons (booting_send _) <| leads_cons (booting_send _) <|
    leads_cons (maintains_when fun _ => booting_of (recordBegin_kinds _) rfl rfl rfl rfl rfl) leads_nil

theorem booting_updFault (g : FaultX → FaultX) : (updFault g).Maintains (Booting x) := booting_of (updFault_kinds g) rfl rfl rfl rfl rfl

theorem booting_enterSafe (c r i k d : Nat) : (enterSafe c r i k d).Maintains (Booting x) := by
  refine leads_read fun t _ _ => ?_
  split
  · exact maintains_when fun _ => leads_cons booting_setF (leads_cons booting_setF leads_nil)
  split
  · exact maintains_when fun _ => leads_cons (booting_safeStat _ _ _ _ _) (leads_cons (booting_updFault _) leads_nil)
  · exact leads_cons (booting_safeStat _ _ _ _ _) (leads_cons booting_safeSteps leads_nil)

theorem booting_heldTaken : heldTaken.Maintains (Booting x) :=
  leads_read fun _ _ _ => leads_cons (booting_updFault _) <| leads_cons (maintains_each fun m _ =>
    leads_cons (booting_of (logMsg_kinds m) rfl rfl rfl rfl rfl) <| leads_cons (maintains_when fun _ => booting_enterSafe _ _ _ _ _) leads_nil) leads_nil

/-- The rails come up for a cold start: the fetch begins. -/
theorem bringUp_cold {s : State} (hs : s.ok = true) (hk : s.f F.AON_MODE_start_kind = 0) :
    Booting { s.power with stage := sgBoot } (run (bringUp false) s) := by
  have hc : s.bit F.AON_MODE_start_kind = false := by simp [State.bit, hk]
  refine (?_ : (bringUp false).Leads (fun t => t = s) _) s hs rfl
  refine leads_read fun t _ ht => ?_
  subst ht
  dsimp only
  rw [hc]
  refine leads_cons (R := Booting t.power) (fun u hu hut => ?_) <| leads_cons booting_setF <|
    leads_cons (booting_of (domainGates_kinds _ _) rfl rfl rfl rfl rfl) <| leads_cons (booting_of (domainGates_kinds _ _) rfl rfl rfl rfl rfl) <|
    leads_cons booting_setF <| leads_cons booting_setF <| leads_cons booting_setF <| leads_cons booting_setF <| leads_cons booting_setF <|
    leads_cons booting_setF <| leads_cons booting_setF <| leads_cons booting_setF <|
    leads_cons (booting_of deriveKeys_kinds rfl rfl rfl rfl rfl) <| leads_cons booting_setF <| leads_cons booting_setF <|
    leads_cons (booting_of (updTb_kinds _) rfl rfl rfl rfl rfl) <| leads_cons (R := Booting { t.power with stage := sgBoot }) (fun u _ h => ?_) <|
    leads_cons (maintains_when fun h => absurd h (by simp)) <| leads_cons (maintains_each fun h _ => booting_of (deriveHead_kinds h) rfl rfl rfl rfl rfl) <|
    leads_cons booting_heldTaken <| leads_cons (maintains_when fun h => absurd h (by simp)) <|
    leads_cons (maintains_when fun _ => leads_cons (booting_safeStat _ _ _ _ _) <| leads_cons booting_safeSteps leads_nil) <|
    leads_cons booting_avsStep leads_nil
  · have hut : u = t := hut
    subst hut
    have hp := power_setF F.PWR_DOM_STAT_domains (3 * 2 ^ 22) u
    refine ⟨congrArg (·.stage) hp, congrArg (·.pwrEn) hp, congrArg (·.vmainOk) hp, congrArg (·.resetN) hp, ?_, maintains_setF (by decide) (by decide) u hu hk⟩
    exact (f_run_setF_same _ _ u (by unfold Field.ok; decide) (State.ok_regs_sorted hu)).trans (by decide)
  · exact ⟨rfl, h.pwrEn, h.vmainOk, h.resetN, h.domains, h.cold⟩

/-- The rails' coming up writes neither the cause nor the counts of RST. -/
theorem bringUp_spares_rst (fresh : Bool) : (bringUp fresh).Spares R.RST_CAUSE ∧ (bringUp fresh).Spares R.RST_COUNT :=
  ⟨spares_word alone_RST_CAUSE (bringUp_kinds fresh) rfl rfl rfl, spares_word alone_RST_COUNT (bringUp_kinds fresh) rfl rfl rfl⟩

end Sys2Proof.Machine
end

section
/-!
SUPPORT. Small programs of the power controller, and the parts of the state that a program's mask leaves alone.
-/
set_option Elab.async false
namespace Sys2Proof.Machine

variable {off K : Nat} {p : Prog}

/-! The parts. -/

/-- Every part of the state. -/
def allParts : List Part :=
  [.shadows, .votes, .wide, .windows, .aonQueue, .ports, .canes, .bundles, .furnace, .ledger, .mould, .timebase, .calibration,
   .diagnostics, .flash, .sram, .cellar, .otp, .commits, .heads, .rings, .channels, .fills, .flashPort, .power, .clocks,
   .collector, .pins, .frames, .messages, .sent, .draws]

theorem mem_allParts (q : Part) : q ∈ allParts := by cases q <;> decide

/-- The parts that a mask does not name are kept. -/
theorem keeps_of (hp : Prog.All (Act.among K) p) {s : State} (hs : s.ok = true) (parts : List Part) (h31 : K.testBit 31 = false := by decide +kernel)
    (h : (allParts.all fun q => decide (q ∈ parts) || !K.testBit q.bit) = true := by decide +kernel) : Keeps parts s (run p s) :=
  run_keeps_parts hp hs parts h31 fun q hq => by simpa [hq] using List.all_eq_true.1 h q (mem_allParts q)

/-! Event bits. -/

/-- An event raised is up. -/
theorem raised_raise {o b : Nat} (hb : b < 24) : (raise o b).Ensures fun s => s.raised o b = true := fun s hs _ => by
  have hr := run_regs_sorted (when (sqOpens s o) (.act (.win o (some s.now)))) s (State.ok_regs_sorted hs)
  have hbit : ∀ w : Word, bitOf w.toNat b = (bits w b b == 1) := fun w => by simp [bitOf, bits]
  show bitOf ((run (raise o b) s).reg o).toNat b = true
  simp only [raise, run_read, run_block_cons, run_block_nil, run_setReg, reg_apply_same _ _ _ hr, hbit]
  rw [bits_putBits_disjoint _ _ (by decide) (by decide) (by omega), bits_putBits_same _ _ (Nat.le_refl _) (by omega)]
  simp

/-- A counter that saturates. -/
theorem f_satAdd {F : Field} {k : Nat} {s : State} (hs : s.ok = true) (hF : F.lo ≤ F.hi ∧ F.hi < 32 := by decide) :
    (run (satAdd F k) s).f F = min (s.f F + k) (2 ^ (F.hi + 1 - F.lo) - 1) := by
  simp only [satAdd, run_read]
  rw [f_run_setF_same F _ s hF (State.ok_regs_sorted hs), Nat.mod_eq_of_lt]
  have := Nat.two_pow_pos (F.hi + 1 - F.lo)
  omega

/-! PWR_EN. -/

theorem rails_power (on : Bool) (s : State) : (run (rails on) s).power = { s.power with pwrEn := on } := rfl
theorem rails_reg (on : Bool) (s : State) : (run (rails on) s).reg off = s.reg off := rfl
theorem rails_sent (on : Bool) (s : State) : Sent (.pin "PWR_EN" (b2n on)) s (run (rails on) s) := ⟨[_], rfl, List.mem_singleton.2 rfl⟩

/-! Starts from off. -/

/-- A start whose rails are raised at once: its records, the power controller, what is sent. -/
theorem start_rails (cause src : Nat) {s : State} (hs : s.ok = true) :
    let u := run (rails true) (run (beginStart cause src) s)
    Records cause src (s.warmFor cause) u ∧ u.power.stage = sgRails ∧ u.power.offWait = none ∧ u.power.pwrEn = true ∧
      u.power.vaon = s.power.vaon ∧ Sent (.pin "PWR_EN" 1) s u := by
  have hr := beginStart_records cause src hs
  have hp := beginStart_power cause src hs
  exact ⟨⟨hr.cause, hr.kind, hr.mode, hr.ok⟩, hp.stage, hp.offWait, rfl, hp.vaon, Sent.later (out_grows _ s) (rails_sent true _)⟩

/-- The cause that a start records. -/
theorem Records.cause_eq {cause src : Nat} {w : Bool} {t : State} (h : Records cause src w t) (hc : cause < 128) (hs : src = 0) :
    (t.reg R.RST_CAUSE).toNat % 128 = cause := by
  rw [h.cause, hs, BitVec.toNat_ofNat]
  have : b2n w ≤ 1 := by cases w <;> decide
  omega

theorem atReset_low {cause src : Nat} (h1 : cause ≠ rcParkWake) (h2 : cause ≠ rcRetry) {s : State} (hs : s.ok = true) :
    AtReset 0 0x160000 (resetKeeps false) (run (rails true) (run (beginStart cause src) s)) := fun _ _ hlt hk =>
  (rails_reg true _).trans (beginStart_low h1 h2 hlt hk s hs trivial)

theorem atReset_high {cause src : Nat} {s : State} (hs : s.ok = true) :
    AtReset 0x180000 0x2080000 (fun _ => false) (run (rails true) (run (beginStart cause src) s)) := fun _ h1 h2 _ =>
  (rails_reg true _).trans (beginStart_high h1 (by omega) s hs trivial)

end Sys2Proof.Machine
end

section
/-!
PROOFS. O31: mode entries end, PARK is left.
-/
set_option Elab.async false
namespace Sys2Proof.Machine

variable {off : Nat}

/-! What the mode and the core voltage take. -/

theorem deviceMode_aon (m : Nat) : (deviceMode m).Ensures fun s => s.f F.AON_MODE_mode = m % 8 :=
  leads_read fun _ _ _ => ensures_later (ensures_now ensures_setF (maintains_f
    ⟨all_when_i (spares_raise.2 (by decide)), trivial⟩))

theorem deviceMode_glb (m : Nat) : (deviceMode m).Ensures fun s => s.f F.GLB_MODE_mode = m % 8 :=
  leads_read fun _ _ _ => ensures_now ensures_setF (maintains_f
    ⟨spares_setF.2 (by decide), all_when_i (spares_raise.2 (by decide)), trivial⟩)

theorem deviceMode_spares {m : Nat} (h1 : off ≠ R.GLB_MODE) (h2 : off ≠ R.AON_MODE) (h3 : off ≠ R.HSPI_KEVENT) : (deviceMode m).Spares off :=
  fun _ => ⟨spares_setF.2 (Ne.symm h1), spares_setF.2 (Ne.symm h2), all_when_i (spares_raise.2 (Ne.symm h3)), trivial⟩

theorem deviceMode_entering (m n : Nat) : (deviceMode m).Maintains fun s => s.f F.AON_MODE_entering = n :=
  leads_read fun _ _ _ => leads_cons maintains_setF (leads_cons maintains_setF (maintains_f
    ⟨all_when_i (spares_raise.2 (by decide)), trivial⟩))

theorem avsStep_spares : avsStep.Spares off := fun _ => all_when_i ⟨spares_updPower, spares_send, trivial⟩

theorem avsFixed_spares {mv : Nat} (h : off ≠ R.PWR_AVS_STAT) : (avsFixed mv).Spares off :=
  ⟨spares_setF.2 (Ne.symm h), spares_updPower, avsStep_spares, trivial⟩

/-- A fact that avsOut has no part in. -/
theorem avsStep_power {J : PowerX → Prop} (h : ∀ x v, J x → J { x with avsOut := v }) : avsStep.Maintains fun s => J s.power :=
  leads_read fun _ _ _ => maintains_when fun _ => leads_cons (fun _ _ hj => h _ _ hj) (leads_cons (fun _ _ hj => hj) leads_nil)

theorem avsFixed_goal (mv : Nat) : (avsFixed mv).Ensures fun s => s.power.avsGoal = mv :=
  ensures_later (ensures_now (fun _ _ _ => rfl) (leads_cons (avsStep_power (J := fun x => x.avsGoal = mv) fun _ _ h => h) leads_nil))

theorem avsFixed_loop (mv : Nat) : (avsFixed mv).Ensures fun s => s.f F.PWR_AVS_STAT_loop = 0 :=
  ensures_now ensures_setF (maintains_f ⟨spares_updPower, avsStep_spares, trivial⟩)

/-- A fact about the power controller that neither the goal nor avsOut has part in. -/
theorem avsFixed_power {J : PowerX → Prop} {mv : Nat} (hg : ∀ x, J x → J { x with avsGoal := mv }) (ho : ∀ x v, J x → J { x with avsOut := v }) :
    (avsFixed mv).Maintains fun s => J s.power :=
  leads_cons (fun t _ h => by show J _; rw [power_setF]; exact h) (leads_cons (fun _ _ h => hg _ h) (leads_cons (avsStep_power ho) leads_nil))

/-! STANDBY_ENTRY_DONE. -/

/-- The end of a STANDBY entry with nothing latched. -/
def standbyPlain : Prog :=
  block [setF F.PWR_MODE_STAT_entering 0, setF F.AON_MODE_entering 0, wrapAdd F.PWR_MODE_STAT_entries 1,
    deviceMode mdStandby, avsFixed 720, raise R.PWR_EVENT 0]

theorem standbyPlain_kinds : Prog.All (Act.among 0x800000000000000000080000000000000000000000000000000000000000000030010100000000102000010) standbyPlain :=
  ⟨setF_kinds _ _ (lies_PWR_MODE_STAT (tb rfl)), setF_kinds _ _ (lies_AON_MODE (tb rfl)), wrapAdd_kinds _ _ (lies_PWR_MODE_STAT (tb rfl)),
    (deviceMode_kinds _).mono (by with_unfolding_all exact rfl), (avsFixed_kinds _).mono (by with_unfolding_all exact rfl),
    raise_kinds _ _ (tb rfl) (lies_PWR_EVENT (tb rfl)), trivial⟩

/-- Nothing that the end of a STANDBY entry does latches a reset. -/
theorem standbyPlain_latched : standbyPlain.Maintains fun t => t.power.resetLatched = none := by
  have field : ∀ F v, (setF F v).Maintains fun t => t.power.resetLatched = none :=
    fun F v t _ h => (congrArg (·.resetLatched) (power_setF F v t)).trans h
  exact leads_cons (field _ _) <| leads_cons (field _ _) <| leads_cons (leads_read fun _ _ _ => field _ _) <|
    leads_cons (maintains_power (J := fun x => x.resetLatched = none) (deviceMode_kinds _) rfl) <|
    leads_cons (avsFixed_power (J := fun x => x.resetLatched = none) (fun _ h => h) (fun _ _ h => h)) <|
    leads_cons (maintains_power (K := 2 ^ 89 + 2 ^ 4) (J := fun x => x.resetLatched = none)
      (raise_kinds _ _ (tb rfl) (lies_PWR_EVENT (tb rfl))) (by decide)) leads_nil

/-- A reset that was not latched does not act. -/
theorem latchedReset_none {t : State} (h : t.power.resetLatched = none) : run latchedReset t = t := by
  simp only [latchedReset, run_read, h, run_ifSome_none]

/-- A block within a block, and one that is skipped. -/
theorem run_nested (a b c d e f g : Prog) (s : State) :
    run (block [a, b, c, block [d, e], f, .skip, g]) s = run g (run (block [a, b, c, d, e, f]) s) := rfl

theorem standbyEntryDone_then {s : State} (he : s.f F.PWR_MODE_STAT_entering = mdStandby) (hd : s.fault.safeDue = none)
    (hl : s.power.latch = []) : run standbyEntryDone s = run latchedReset (run standbyPlain s) := by
  simp only [standbyEntryDone, standbyPlain, run_read, he, hd, hl, beq_self_eq_true, Option.isSome_none, Bool.false_eq_true,
    List.isEmpty_nil, Bool.not_true, when, if_true, if_false]
  exact run_nested _ _ _ _ _ _ _ s

theorem standbyEntryDone_plain {s : State} (hs : s.ok = true) (he : s.f F.PWR_MODE_STAT_entering = mdStandby) (hd : s.fault.safeDue = none)
    (hl : s.power.latch = []) (hr : s.power.resetLatched = none) : run standbyEntryDone s = run standbyPlain s :=
  (standbyEntryDone_then he hd hl).trans (latchedReset_none (standbyPlain_latched s hs hr))

/-- The words that the end of a STANDBY entry writes. -/
theorem standbyPlain_only (s : State) (hs : s.ok = true) :
    OnlyWords [R.GLB_MODE, R.PWR_MODE_STAT, R.PWR_AVS_STAT, R.PWR_EVENT, R.HSPI_KEVENT, R.AON_MODE] s (run standbyPlain s) := by
  intro off hoff
  simp only [List.mem_cons, List.not_mem_nil, or_false, not_or] at hoff
  obtain ⟨h1, h2, h3, h4, h5, h6⟩ := hoff
  exact run_reg_frame off standbyPlain ⟨spares_setF.2 (Ne.symm h2), spares_setF.2 (Ne.symm h6), spares_wrapAdd.2 (Ne.symm h2),
    deviceMode_spares h1 h6 h5, avsFixed_spares h3, spares_raise.2 (Ne.symm h4), trivial⟩ s (State.ok_regs_sorted hs)

/-- The tail after the mode has been set leaves a word alone. -/
theorem standbyTail_spares (h1 : off ≠ R.PWR_AVS_STAT) (h2 : off ≠ R.PWR_EVENT) :
    (block [avsFixed 720, raise R.PWR_EVENT 0]).Spares off := ⟨avsFixed_spares h1, spares_raise.2 (Ne.symm h2), trivial⟩

theorem standbyPlain_entering : standbyPlain.Ensures fun t => t.f F.PWR_MODE_STAT_entering = 0 :=
  ensures_now ensures_setF <| leads_cons maintains_setF <| leads_cons (leads_read fun _ _ _ => maintains_setF) <|
    leads_cons (maintains_f (deviceMode_spares (by decide) (by decide) (by decide))) <| maintains_f (standbyTail_spares (by decide) (by decide))

theorem standbyPlain_aonEntering : standbyPlain.Ensures fun t => t.f F.AON_MODE_entering = 0 :=
  ensures_later <| ensures_now ensures_setF <| leads_cons (maintains_f (spares_wrapAdd.2 (by decide))) <|
    leads_cons (deviceMode_entering _ _) <| maintains_f (standbyTail_spares (by decide) (by decide))

/-- The count of entries wraps. -/
theorem standbyPlain_entries (n : Nat) :
    standbyPlain.Leads (fun t => t.f F.PWR_MODE_STAT_entries = n) fun t => t.f F.PWR_MODE_STAT_entries = (n + 1) % 256 :=
  leads_cons maintains_setF <| leads_cons maintains_setF <|
    leads_cons (leads_read fun _ _ h => h ▸ Prog.Ensures.leads ensures_setF) <|
    leads_cons (maintains_f (deviceMode_spares (by decide) (by decide) (by decide))) <| maintains_f (standbyTail_spares (by decide) (by decide))

theorem standbyPlain_mode : standbyPlain.Ensures fun t => t.f F.AON_MODE_mode = mdStandby :=
  ensures_later <| ensures_later <| ensures_later <| ensures_now (deviceMode_aon _) <| maintains_f (standbyTail_spares (by decide) (by decide))

theorem standbyPlain_glbMode : standbyPlain.Ensures fun t => t.f F.GLB_MODE_mode = mdStandby :=
  ensures_later <| ensures_later <| ensures_later <| ensures_now (deviceMode_glb _) <| maintains_f (standbyTail_spares (by decide) (by decide))

theorem standbyPlain_event : standbyPlain.Ensures fun t => t.raised R.PWR_EVENT 0 = true :=
  ensures_later <| ensures_later <| ensures_later <| ensures_later <| ensures_later <| ensures_now (raised_raise (by decide)) leads_nil

theorem standbyPlain_goal : standbyPlain.Ensures fun t => t.power.avsGoal = 720 :=
  ensures_later <| ensures_later <| ensures_later <| ensures_later <| ensures_now (avsFixed_goal _) <|
    leads_cons (maintains_power (K := 2 ^ 89 + 2 ^ 4) (J := fun x => x.avsGoal = 720)
      (raise_kinds _ _ (tb rfl) (lies_PWR_EVENT (tb rfl))) (by decide)) leads_nil

theorem standbyPlain_loop : standbyPlain.Ensures fun t => t.f F.PWR_AVS_STAT_loop = 0 :=
  ensures_later <| ensures_later <| ensures_later <| ensures_later <| ensures_now (avsFixed_loop _) <|
    maintains_f ⟨spares_raise.2 (by decide), trivial⟩

/-! MIN_OFF_EXPIRE. -/

theorem minOffExpire_starts {s : State} (ho : s.power.offWait = some rcMainLoss) (hst : s.power.stage = sgMinOff) :
    run minOffExpire s = run (rails true) (run (beginStart rcMainLoss 0) s) := by
  have hc : (rcMainLoss == rcParkWake) = false := by decide
  simp only [minOffExpire, run_read, ho, hst, run_ifSome_some, hc, beq_self_eq_true, Bool.or_true, when, if_true, Bool.false_eq_true, if_false]
  rfl

/-! Wakes in PARK. -/

/-- What a wake in PARK records before its start. -/
def wakeRecord (kind : Nat) : Prog :=
  block [setF F.WAKE_CAUSE_kind kind, setF F.WAKE_CAUSE_index 0, setF F.WAKE_CAUSE_from_park 1, raise R.WAKE_EVENT 0]

theorem wakeRecord_spares {kind : Nat} (h1 : off ≠ R.WAKE_CAUSE) (h2 : off ≠ R.WAKE_EVENT) : (wakeRecord kind).Spares off :=
  ⟨spares_setF.2 (Ne.symm h1), spares_setF.2 (Ne.symm h1), spares_setF.2 (Ne.symm h1), spares_raise.2 (Ne.symm h2), trivial⟩

theorem wakeRecord_kind (kind : Nat) : (wakeRecord kind).Ensures fun t => t.f F.WAKE_CAUSE_kind = kind % 16 :=
  ensures_now ensures_setF <| leads_cons maintains_setF <| leads_cons maintains_setF <| maintains_f ⟨spares_raise.2 (by decide), trivial⟩

theorem wakeRecord_fromPark (kind : Nat) : (wakeRecord kind).Ensures fun t => t.f F.WAKE_CAUSE_from_park = 1 :=
  ensures_later <| ensures_later <| ensures_now ensures_setF <| maintains_f ⟨spares_raise.2 (by decide), trivial⟩

/-- Whether a start is warm is a question to AON. -/
theorem startsWarm_wakeRecord (kind : Nat) {s : State} (hs : s.ok = true) : (run (wakeRecord kind) s).startsWarm true = s.startsWarm true := by
  have keep : ∀ G : Field, G.off ≠ R.WAKE_CAUSE → G.off ≠ R.WAKE_EVENT → (run (wakeRecord kind) s).f G = s.f G :=
    fun G h1 h2 => f_run_frame G _ (wakeRecord_spares h1 h2) s (State.ok_regs_sorted hs)
  simp only [State.startsWarm, State.bit, keep F.AON_RET_SEAL_valid (by decide) (by decide), keep F.AON_START_STAT_warm_fails (by decide) (by decide),
    keep F.AON_START_CTL_force_cold (by decide) (by decide), keep F.AON_SAFE_STAT_pending (by decide) (by decide)]

/-- A wake of no port and no group marks nothing. -/
theorem parkActs_none {kind : Nat} (hk : (kind == 1) = false) (s : State) : run (parkActs kind 0 0) s = s := by
  have h0 : ((0 : Nat) != 0) = false := rfl
  simp only [parkActs, run_read, hk, h0, run_block_cons, run_block_nil, when, Bool.false_eq_true, if_false, run_skip]

theorem run_two_blocks (p a b c d e f : Prog) (s : State) :
    run (block [p, block [a, b, c, d, e, f]]) s = run f (run e (run (block [a, b, c, d]) (run p s))) := rfl

/-- A wake of no port and no group, where PWR_EN waits for nothing. -/
theorem parkWake_starts {kind : Nat} (hk : (kind == 1) = false) {s : State} (ho : s.power.offWait = none) :
    run (parkWake kind 0 0) s = run (rails true) (run (beginStart rcParkWake 0) (run (wakeRecord kind) s)) := by
  simp only [parkWake, run_read, ho, Option.isNone_none, when, if_true]
  rw [run_two_blocks, parkActs_none hk, wakeRecord]

/-- What a wake in PARK leads to. -/
theorem parkWake_woken {kind : Nat} (hk : (kind == 1) = false) (h16 : kind % 16 = kind) {s : State} (hs : s.ok = true) (ho : s.power.offWait = none) :
    let u := run (parkWake kind 0 0) s
    u.f F.WAKE_CAUSE_kind = kind ∧ u.f F.WAKE_CAUSE_from_park = 1 ∧ u.power.stage = sgRails ∧ u.power.pwrEn = true ∧
      (u.reg R.RST_CAUSE).toNat % 128 = rcParkWake ∧ u.f F.AON_MODE_start_kind = b2n (s.startsWarm true) ∧ u.devMode = mdRamp := by
  have ht := run_ok (wakeRecord kind) s hs
  have hwarm : (run (wakeRecord kind) s).warmFor rcParkWake = s.startsWarm true := by
    rw [← startsWarm_wakeRecord kind hs]
    simp [State.warmFor]
  have hcause := beginStart_reg (off := R.WAKE_CAUSE) (cause := rcParkWake) (src := 0) (by decide) (.inl (by decide)) ht
  obtain ⟨hrec, hstage, -, hpwr, -, -⟩ := start_rails rcParkWake 0 ht
  have hkind := wakeRecord_kind kind s hs trivial
  have hfrom := wakeRecord_fromPark kind s hs trivial
  intro u
  have hu : u = run (rails true) (run (beginStart rcParkWake 0) (run (wakeRecord kind) s)) := parkWake_starts hk ho
  rw [hwarm] at hrec
  rw [← hu] at hrec hstage hpwr
  have hreg : u.reg R.WAKE_CAUSE = (run (wakeRecord kind) s).reg R.WAKE_CAUSE := by rw [hu, rails_reg, hcause]
  refine ⟨?_, ?_, hstage, hpwr, hrec.cause_eq (by decide) rfl, hrec.kind, hrec.mode⟩
  · rw [← h16, ← hkind]; exact congrArg (bits · _ _) hreg
  · rw [← hfrom]; exact congrArg (bits · _ _) hreg

/-! PARK_ENTRY_DONE. -/

/-- What a PARK entry writes before the rails go off: quarter stores, what the ports hold, the seals of the banks named. -/
def parkSealed (s : State) : Prog :=
  block [each (List.range 4) fun q => when (s.domOn (domFur q)) (block [quarterRecords q, setF (F.FUR_QTR_STORE_sealed q) 1]), each allPorts portHold,
    each (List.range 16) fun n => when (bitOf (leAt (s.sec scRetention) 0 2) n)
      (setReg (R.AON_RET_CRC n) (BitVec.ofNat 32 (crc32c (s.sram.readBytes blank (n * bankSize) bankSize)))),
    setF F.AON_RET_SEAL_valid 1, setF F.AON_RET_SEAL_mask (leAt (s.sec scRetention) 0 2), setF F.PWR_RET_STATUS_sealed (leAt (s.sec scRetention) 0 2)]

/-- The rails go off in PARK. -/
def parkOff (g : PowerX → PowerX) : Prog :=
  block [clearMain true, rails false, setF F.AON_MODE_mode mdPark, setF F.AON_MODE_entering 0, updPower g]

/-- A block in two parts, with two programs that have nothing to do. -/
theorem run_two_parts (a b c d e f g h i j k l : Prog) (s : State) :
    run (block [a, b, c, d, e, f, g, h, i, j, .skip, k, block [], l]) s = run l (run (block [g, h, i, j, k]) (run (block [a, b, c, d, e, f]) s)) := rfl

theorem each_nil {α : Type} (f : α → Prog) : each [] f = block [] := rfl

/-- What PARK makes of the power controller. -/
structure Parks (g : PowerX → PowerX) : Prop where
  stage : ∀ x, (g x).stage = sgPark
  pwrEn : ∀ x, (g x).pwrEn = x.pwrEn
  latched : ∀ x, (g x).resetLatched = x.resetLatched

theorem parkEntryDone_then {s : State} (he : s.f F.PWR_MODE_STAT_entering = mdPark) (hd : s.fault.safeDue = none) (hl : s.power.latch = []) :
    ∃ g, Parks g ∧ run parkEntryDone s = run latchedReset (run (parkOff g) (run (parkSealed s) s)) := by
  simp only [parkEntryDone, run_read, he, hd, hl, beq_self_eq_true, Option.isSome_none, each_nil]
  simp only [when, if_true, Bool.false_eq_true, if_false]
  refine ⟨_, ?_, run_two_parts _ _ _ _ _ _ _ _ _ _ _ _ s⟩
  exact ⟨fun _ => rfl, fun _ => rfl, fun _ => rfl⟩

/-! What the seals are. -/

theorem leNat_lt (l : List Byte) : leNat l < 256 ^ l.length := by
  induction l with
  | nil => decide
  | cons b t ih =>
    have := b.isLt
    simp only [leNat, List.length_cons, Nat.pow_succ]
    omega

theorem leAt_two_lt (l : List Byte) (i : Nat) : leAt l i 2 < 2 ^ 16 :=
  Nat.lt_of_lt_of_le (leNat_lt _) (Nat.le_trans (Nat.pow_le_pow_right (by decide) (List.length_take_le 2 _)) (by decide))

theorem parkSealed_valid (s : State) : (parkSealed s).Ensures fun t => t.f F.AON_RET_SEAL_valid = 1 :=
  ensures_later <| ensures_later <| ensures_later <| ensures_now ensures_setF <| leads_cons maintains_setF <| maintains_f
    ⟨spares_setF.2 (by decide), trivial⟩

theorem parkSealed_mask (s : State) : (parkSealed s).Ensures fun t => t.f F.AON_RET_SEAL_mask = leAt (s.sec scRetention) 0 2 := by
  refine ensures_later <| ensures_later <| ensures_later <| ensures_later <| ensures_now (fun t ht _ => ?_) <| maintains_f
    ⟨spares_setF.2 (by decide), trivial⟩
  exact (ensures_setF (by decide) t ht trivial).trans (Nat.mod_eq_of_lt (leAt_two_lt _ _))

/-- The CRC of a retained bank. -/
theorem parkSealed_crc (s : State) (n : Fin 16) (hn : bitOf (leAt (s.sec scRetention) 0 2) n = true) :
    (parkSealed s).Ensures fun t => t.reg (R.AON_RET_CRC n) = BitVec.ofNat 32 (crc32c (s.sram.readBytes blank (n.val * bankSize) bankSize)) := by
  have hoff : R.AON_RET_CRC n = 0x170080 + n.val * 4 := if_pos n.isLt
  have other : ∀ {F : Field} {v : Nat}, F.off < 0x170080 → (setF F v).Spares (R.AON_RET_CRC n) := fun h => spares_setF.2 (by omega)
  refine ensures_later <| ensures_later <| ensures_now ?_ <| maintains_reg (J := fun w => w = _)
    ⟨other (by decide), other (by decide), other (by decide), trivial⟩
  have hset : ∀ k : Nat, k = n.val → (setReg (R.AON_RET_CRC k) (BitVec.ofNat 32 (crc32c (s.sram.readBytes blank (k * bankSize) bankSize)))).Ensures
      fun t => t.reg (R.AON_RET_CRC n) = BitVec.ofNat 32 (crc32c (s.sram.readBytes blank (n.val * bankSize) bankSize)) :=
    fun k hk t ht _ => by subst hk; exact reg_apply_same _ _ _ (State.ok_regs_sorted ht)
  refine ensures_each (x := n.val) (List.mem_range.2 n.isLt) (by rw [hn]; exact hset n rfl) fun k hk => maintains_when fun _ => ?_
  by_cases hkn : k = n.val
  · exact (hset k hkn).leads
  · have hk16 : R.AON_RET_CRC k = 0x170080 + k * 4 := if_pos (List.mem_range.1 hk)
    exact maintains_reg (J := fun w => w = _) (spares_setReg.2 (by omega))

theorem parkSealed_power (s t : State) : (run (parkSealed s) t).power = t.power := by
  refine run_power_of (K := 2 ^ 63 + 0x240) (p := parkSealed s) ?_ (by decide)
  have any : ∀ off, lies off (2 ^ 63 + 0x240) := fun _ => .inr (.inl (by decide))
  exact ⟨all_each_i fun q => all_when_i ⟨(quarterRecords_kinds q).mono (by decide), setF_kinds _ _ (any _), trivial⟩,
    all_each_i fun p => (portHold_kinds p).mono (by decide), all_each_i fun _ => all_when_i (setReg_kinds _ _ (any _)),
    setF_kinds _ _ (any _), setF_kinds _ _ (any _), setF_kinds _ _ (any _), trivial⟩

/-! What the rails' going off leaves. -/

/-- The words of the park's end, the reset of the main rails aside. -/
theorem parkOff_tail_spares {g : PowerX → PowerX} (h : off ≠ R.AON_MODE) :
    (block [rails false, setF F.AON_MODE_mode mdPark, setF F.AON_MODE_entering 0, updPower g]).Spares off :=
  ⟨⟨spares_updPower, spares_send, trivial⟩, spares_setF.2 (Ne.symm h), spares_setF.2 (Ne.symm h), spares_updPower, trivial⟩

theorem parkOff_low (g : PowerX → PowerX) (h : off < 0x160000) (hk : resetKeeps true off = false) :
    (parkOff g).Ensures fun t => t.reg off = resetWord off :=
  ensures_now (clearMain_low h hk) (maintains_reg (J := fun w => w = resetWord off) (parkOff_tail_spares fun e => absurd (e ▸ h) (by decide)))

theorem parkOff_high (g : PowerX → PowerX) (h1 : 0x180000 ≤ off) (h2 : off < 0x2200000) :
    (parkOff g).Ensures fun t => t.reg off = resetWord off :=
  ensures_now (clearMain_high h1 h2) (maintains_reg (J := fun w => w = resetWord off) (parkOff_tail_spares fun e => absurd (e ▸ h1) (by decide)))

/-- A word of AON, AON.MODE aside, is as before. -/
theorem parkOff_aon (g : PowerX → PowerX) (h : 0x160000 ≤ off ∧ off < 0x180000) (hne : off ≠ R.AON_MODE) {s : State} (hs : s.ok = true) :
    (run (parkOff g) s).reg off = s.reg off :=
  (run_reg_frame off _ (parkOff_tail_spares (g := g) hne) _ (State.ok_regs_sorted (run_ok _ _ hs))).trans (clearMain_reg (.inl h) hs)

theorem parkOff_mode (g : PowerX → PowerX) : (parkOff g).Ensures fun t => t.f F.AON_MODE_mode = mdPark :=
  ensures_later <| ensures_later <| ensures_now ensures_setF <| leads_cons maintains_setF <| maintains_f ⟨spares_updPower, trivial⟩

theorem parkOff_entering (g : PowerX → PowerX) : (parkOff g).Ensures fun t => t.f F.AON_MODE_entering = 0 :=
  ensures_later <| ensures_later <| ensures_later <| ensures_now ensures_setF <| maintains_f ⟨spares_updPower, trivial⟩

theorem parkOff_power {g : PowerX → PowerX} {s : State} (hs : s.ok = true) :
    (run (parkOff g) s).power = g { clearedPower true s.power with pwrEn := false } := by
  simp only [parkOff, run_block_cons, run_block_nil, run_updPower, apply_power, power_setF, rails_power, clearMain_power true hs]

theorem parkOff_sent (g : PowerX → PowerX) (s : State) : Sent (.pin "PWR_EN" 0) s (run (parkOff g) s) :=
  Sent.later (out_grows (clearMain true) s) (Sent.trans (rails_sent false _)
    (out_grows (block [setF F.AON_MODE_mode mdPark, setF F.AON_MODE_entering 0, updPower g]) _))

end Sys2Proof.Machine
end

section
/-!
PROOFS. O31, clause by clause: STANDBY and PARK entries end, PWR_EN has been low long enough, the chip select and the alarm.
-/
set_option Elab.async false
namespace Sys2Proof.Machine

variable {s : State} {off : Nat}

/-- The parts that a reset of the chip takes, and what the start that follows raises. -/
abbrev resetParts : List Part := safeParts ++ [.votes, .wide, .mould, .diagnostics, .commits, .heads, .fills, .flashPort, .clocks]

/-- STANDBY is entered. -/
theorem standbyEntryDone_acts (hs : s.ok = true) (he : s.f F.PWR_MODE_STAT_entering = mdStandby) (hd : s.fault.safeDue = none)
    (hl : s.power.latch = []) (hr : s.power.resetLatched = none) :
    Acts .standbyEntryDone s fun u =>
      u.f F.PWR_MODE_STAT_entering = 0 ∧ u.f F.AON_MODE_entering = 0 ∧
      u.f F.PWR_MODE_STAT_entries = (s.f F.PWR_MODE_STAT_entries + 1) % 256 ∧ u.devMode = mdStandby ∧ u.f F.GLB_MODE_mode = mdStandby ∧
      u.raised R.PWR_EVENT 0 = true ∧ u.power.avsGoal = 720 ∧ u.f F.PWR_AVS_STAT_loop = 0 ∧
      OnlyWords [R.GLB_MODE, R.PWR_MODE_STAT, R.PWR_AVS_STAT, R.PWR_EVENT, R.HSPI_KEVENT, R.AON_MODE] s u ∧ Keeps [.windows, .power, .sent] s u := by
  refine acts_finish standbyEntryDone rfl ?_
  rw [standbyEntryDone_plain hs he hd hl hr]
  exact ⟨standbyPlain_entering s hs trivial, standbyPlain_aonEntering s hs trivial, standbyPlain_entries _ s hs rfl,
    standbyPlain_mode s hs trivial, standbyPlain_glbMode s hs trivial, standbyPlain_event s hs trivial, standbyPlain_goal s hs trivial,
    standbyPlain_loop s hs trivial, standbyPlain_only s hs, keeps_of standbyPlain_kinds hs _⟩

/-- PARK is entered. -/
theorem parkEntryDone_acts (hs : s.ok = true) (he : s.f F.PWR_MODE_STAT_entering = mdPark) (hd : s.fault.safeDue = none)
    (hl : s.power.latch = []) (hr : s.power.resetLatched = none) :
    Acts .parkEntryDone s fun u =>
      u.power.stage = sgPark ∧ u.power.pwrEn = false ∧ u.devMode = mdPark ∧ u.f F.AON_MODE_entering = 0 ∧
      u.f F.AON_RET_SEAL_valid = 1 ∧ u.f F.AON_RET_SEAL_mask = leAt (s.sec scRetention) 0 2 ∧
      (∀ n : Fin 16, bitOf (leAt (s.sec scRetention) 0 2) n = true → u.reg (R.AON_RET_CRC n) = BitVec.ofNat 32 (crc32c (s.sram.readBytes blank (n.val * bankSize) bankSize))) ∧
      Sent (.pin "PWR_EN" 0) s u ∧ AtReset 0 0x160000 (resetKeeps true) u ∧ (AtReset 0x180000 0x2080000 (fun _ => false) u) ∧
      Keeps resetParts s u := by
  refine acts_finish parkEntryDone rfl ?_
  have hkeeps : Keeps resetParts s (run parkEntryDone s) :=
    keeps_of parkEntryDone_kinds hs _
  obtain ⟨g, hg, hrun⟩ := parkEntryDone_then he hd hl
  have ht := run_ok (parkSealed s) s hs
  have hpow := parkOff_power (g := g) ht
  rw [parkSealed_power] at hpow
  have hlatched : (run (parkOff g) (run (parkSealed s) s)).power.resetLatched = none := by rw [hpow, hg.latched]; exact hr
  rw [hrun, latchedReset_none hlatched] at hkeeps ⊢
  have aon : ∀ {o : Nat}, 0x160000 ≤ o ∧ o < 0x180000 → o ≠ R.AON_MODE → (run (parkOff g) (run (parkSealed s) s)).reg o = (run (parkSealed s) s).reg o :=
    fun h hne => parkOff_aon g h hne ht
  refine ⟨by rw [hpow, hg.stage], by rw [hpow, hg.pwrEn], parkOff_mode g _ ht trivial, parkOff_entering g _ ht trivial, ?_, ?_, fun n hn => ?_,
    Sent.later (out_grows _ s) (parkOff_sent g _), fun _ _ h hk => parkOff_low g h hk _ ht trivial,
    fun _ h1 h2 _ => parkOff_high g h1 (by omega) _ ht trivial, hkeeps⟩
  · exact (congrArg (bits · _ _) (aon (by decide) (by decide))).trans (parkSealed_valid s s hs trivial)
  · exact (congrArg (bits · _ _) (aon (by decide) (by decide))).trans (parkSealed_mask s s hs trivial)
  · have hoff : R.AON_RET_CRC n = 0x170080 + n.val * 4 := if_pos n.isLt
    have hne : R.AON_RET_CRC n ≠ R.AON_MODE := fun e => absurd (hoff.symm.trans e) (by have : R.AON_MODE = 0x170000 := rfl; omega)
    exact (aon (by omega) hne).trans (parkSealed_crc s n hn s hs trivial)

/-- The parts that the reset of the main rails takes. -/
def railParts : List Part :=
  [.shadows, .votes, .wide, .windows, .ports, .canes, .bundles, .furnace, .ledger, .mould, .timebase, .calibration, .diagnostics, .flash, .sram,
   .cellar, .commits, .heads, .rings, .channels, .fills, .flashPort, .power, .clocks, .collector, .sent, .draws]

/-- PWR_EN rises again after a loss of the main rails. -/
theorem minOffExpire_acts (hs : s.ok = true) (ho : s.power.offWait = some rcMainLoss) (hst : s.power.stage = sgMinOff) :
    Acts .minOffExpire s fun u =>
      u.power.stage = sgRails ∧ u.power.offWait = none ∧ u.power.pwrEn = true ∧ (u.reg R.RST_CAUSE).toNat % 128 = rcMainLoss ∧
      u.f F.AON_MODE_start_kind = 0 ∧ u.devMode = mdRamp ∧ u.f F.AON_START_CTL_ok = 0 ∧ Sent (.pin "PWR_EN" 1) s u ∧
      AtReset 0 0x160000 (resetKeeps false) u ∧ Keeps railParts s u := by
  refine acts_finish minOffExpire rfl ?_
  have hkeeps : Keeps railParts s (run minOffExpire s) := keeps_of minOffExpire_kinds hs _
  rw [minOffExpire_starts ho hst] at hkeeps ⊢
  obtain ⟨hrec, hstage, hoff, hpwr, -, hsent⟩ := start_rails rcMainLoss 0 hs
  rw [warmFor_cold (by decide) (by decide)] at hrec
  exact ⟨hstage, hoff, hpwr, hrec.cause_eq (by decide) rfl, hrec.kind, hrec.mode, hrec.ok, hsent, atReset_low (by decide) (by decide) hs, hkeeps⟩

/-- What a wake in PARK of a kind leads to. -/
def Woken (kind : Nat) (s u : State) : Prop :=
  u.f F.WAKE_CAUSE_kind = kind ∧ u.f F.WAKE_CAUSE_from_park = 1 ∧ u.power.stage = sgRails ∧ u.power.pwrEn = true ∧
    (u.reg R.RST_CAUSE).toNat % 128 = rcParkWake ∧ u.f F.AON_MODE_start_kind = b2n (s.startsWarm true) ∧ u.devMode = mdRamp

theorem csWake_acts (hs : s.ok = true) (hc : s.bit F.AON_PARK_CFG_cs_wake = true) :
    Acts .csWake s fun u =>
      (s.parked = true → s.power.offWait = none → Woken 3 s u) ∧
      (s.parked = false → s.f F.PWR_MODE_STAT_entering ≠ mdPark → u = s) ∧ Keeps railParts s u := by
  refine acts_finish csWake rfl ⟨fun hp ho => ?_, fun hp he => ?_, keeps_of csWake_kinds hs _⟩
  · have hrun : run csWake s = run (parkWake 3 0 0) s := by simp only [csWake, run_read, hc, hp, when, if_true]
    rw [hrun]
    exact parkWake_woken rfl rfl hs ho
  · have hb : (s.f F.PWR_MODE_STAT_entering == mdPark) = false := by simpa using he
    simp only [csWake, run_read, hc, hp, hb, when, if_true, Bool.false_eq_true, if_false, run_skip]

theorem alarmMatch_acts (hs : s.ok = true) (hv : s.power.vaon = true) (hen : s.bit F.AON_ALARM_CTL_en = true)
    (hm : s.wide R.AON_SECONDS 2 % 2 ^ 32 = s.f F.AON_ALARM_seconds) (hw : s.bit F.AON_PARK_CFG_alarm_wake = true) :
    Acts .alarmMatch s fun u =>
      (s.parked = true → s.power.offWait = none → Woken 4 s u) ∧
      (s.parked = false → s.f F.PWR_MODE_STAT_entering ≠ mdPark → s.domOn domMgt = true → u.raised R.PWR_EVENT 5 = true ∧ OnlyWords [R.PWR_EVENT] s u) ∧
      Keeps railParts s u := by
  have hm' : (s.wide R.AON_SECONDS 2 % 2 ^ 32 == s.f F.AON_ALARM_seconds) = true := beq_iff_eq.2 hm
  refine acts_finish alarmMatch rfl ⟨fun hp ho => ?_, fun hp he hd => ?_, keeps_of alarmMatch_kinds hs _⟩
  · have hrun : run alarmMatch s = run (parkWake 4 0 0) s := by
      simp only [alarmMatch, run_read, hv, hen, hm', hp, hw, when, Bool.and_self, if_true]
    rw [hrun]
    exact parkWake_woken rfl rfl hs ho
  · have hb : (s.f F.PWR_MODE_STAT_entering == mdPark) = false := by simpa using he
    have hrun : run alarmMatch s = run (raise R.PWR_EVENT 5) s := by
      simp only [alarmMatch, run_read, hv, hen, hm', hp, hw, hb, hd, when, Bool.and_self, Bool.false_and, Bool.false_eq_true, if_true, if_false,
        run_block_cons, run_block_nil, run_skip]
    rw [hrun]
    exact ⟨raised_raise (by decide) s hs trivial, fun off hoff => run_reg_frame off (raise R.PWR_EVENT 5)
      (spares_raise.2 fun e => hoff (by simp [e])) s (State.ok_regs_sorted hs)⟩

end Sys2Proof.Machine

namespace Sys2Proof.Proofs
open Sys2Proof Sys2Proof.Machine

/-- Settles O31: each command runs to a short block whose facts are those of its last writes, or to the beginning of a start. -/
theorem standbyAndPark : Obligations.StandbyAndPark := by
  unfold Obligations.StandbyAndPark
  exact ⟨fun _ hs he hd hl hr => standbyEntryDone_acts hs he hd hl hr, fun _ hs he hd hl hr => parkEntryDone_acts hs he hd hl hr,
    fun _ hs ho hst => minOffExpire_acts hs ho hst, fun _ hs hc => csWake_acts hs hc,
    fun _ hs hv hen hm hw => alarmMatch_acts hs hv hen hm hw⟩

end Sys2Proof.Proofs
end

section
/-!
PROOFS. O35, VAON is lost (R36, R581): what the reset of the main rails leaves of the memories and the ports, and what goes
with the always-on domain.
-/
set_option Elab.async false
namespace Sys2Proof.Machine

variable {s : State} {off : Nat}

/-! Memories whose listed bytes lie in their ranges are cleared as a whole. -/

/-- Banks cleared one by one leave nothing of what lies in them. -/
theorem sramClear_each (l : List Nat) {c : Nat → Bool} (hc : ∀ n, c n = true) :
    (each l fun n => when (c n) (.act (.sramClear (n * bankSize) bankSize))).Leads
      (fun t => ∀ e ∈ t.sram, ∃ n ∈ l, n * bankSize ≤ e.1 ∧ e.1 < n * bankSize + bankSize) fun t => t.sram = [] := by
  induction l with
  | nil => exact fun t _ h => List.eq_nil_iff_forall_not_mem.2 fun e he => by simpa using h e he
  | cons n l ih =>
    refine leads_cons (R := fun t => ∀ e ∈ t.sram, ∃ k ∈ l, k * bankSize ≤ e.1 ∧ e.1 < k * bankSize + bankSize) (fun t _ h e he => ?_) ih
    simp only [run_when, hc, if_true, run_act] at he
    have hm : e ∈ t.sram ∧ (e.1 < n * bankSize ∨ n * bankSize + bankSize ≤ e.1) := by
      simpa [apply, Memory.clear, SMap.without] using he
    obtain ⟨k, hk, hlo⟩ := h e hm.1
    rcases List.mem_cons.1 hk with rfl | hk
    · omega
    · exact ⟨k, hk, hlo⟩

/-- Every listed byte of the SRAM and of the cellar lies in its range. -/
def State.bounded (s : State) : Prop := (∀ e ∈ s.sram, e.1 < 16 * bankSize) ∧ ∀ e ∈ s.cellar, e.1 < 25165824

theorem clearMemories_empty (mask : Nat) : (clearMemories false mask).Leads State.bounded fun t => t.sram = [] ∧ t.cellar = [] := by
  have hcell : (Prog.act (.cellarClear 0 25165824)).Leads State.bounded fun t =>
      (∀ e ∈ t.sram, ∃ n ∈ List.range 16, n * bankSize ≤ e.1 ∧ e.1 < n * bankSize + bankSize) ∧ t.cellar = [] := by
    refine fun t _ h => ⟨fun e he => ⟨e.1 / bankSize, List.mem_range.2 (Nat.div_lt_of_lt_mul (by rw [Nat.mul_comm]; exact h.1 e he)), ?_⟩, ?_⟩
    · have := Nat.div_add_mod e.1 bankSize
      have hlt := Nat.mod_lt e.1 (show bankSize > 0 by decide)
      rw [Nat.mul_comm] at this
      omega
    · refine List.eq_nil_iff_forall_not_mem.2 fun e he => ?_
      have hm : e ∈ t.cellar ∧ ¬ e.1 < 25165824 := by simpa [apply, Memory.clear, SMap.without] using he
      exact hm.2 (h.2 e hm.1)
  refine leads_cons hcell <| leads_cons (R := fun t =>
    (∀ e ∈ t.sram, ∃ n ∈ List.range 16, n * bankSize ≤ e.1 ∧ e.1 < n * bankSize + bankSize) ∧ t.cellar = []) (fun _ _ h => h) <|
    leads_cons (fun t ht h => ⟨?_, ?_⟩) leads_nil
  · exact sramClear_each (List.range 16) (fun n => by simp) t ht h.1
  · have keep : ∀ n, (Prog.act (.sramClear (n * bankSize) bankSize)).Maintains fun t => t.cellar = [] := fun _ _ _ h => h
    exact maintains_each (fun n _ => maintains_when fun _ => keep n) t ht h.2

/-- The reset of the main rails, no bank retained. -/
theorem clearMain_memories (hs : s.ok = true) (hb : s.bounded) (ho : s.fport.op = none) :
    (run (clearMain false) s).sram = [] ∧ (run (clearMain false) s).cellar = [] ∧ (run (clearMain false) s).flash = s.flash := by
  have kept : ∀ {b n : Nat} {k : Nat → Bool}, (resetRange b n k).Maintains fun t => t.bounded ∧ t.flash = s.flash := fun {b n k} t _ h => by
    have hk := resetRange_kinds b n k
    refine ⟨?_, (run_flash_of hk rfl).trans h.2⟩
    unfold State.bounded
    rw [run_sram_of hk rfl, run_cellar_of hk rfl]
    exact h.1
  have h : let u := run (clearMain false) s; (u.sram = [] ∧ u.cellar = []) ∧ u.flash = s.flash :=
    clearMain_leads_memory (P := fun t => t.bounded ∧ t.flash = s.flash) (R := fun t => t.bounded ∧ t.flash = s.flash)
      (Q := fun t => t.bounded ∧ t.flash = s.flash) (M := fun t => (t.sram = [] ∧ t.cellar = []) ∧ t.flash = s.flash)
      (T := fun t => (t.sram = [] ∧ t.cellar = []) ∧ t.flash = s.flash) false hs ⟨hb, rfl⟩ (fun o h => by simp [ho] at h) (fun _ _ _ h => h) kept kept
      (fun a ha t _ h => ?_) (fun _ _ _ _ _ h => h)
      (fun mask t ht h => ⟨clearMemories_empty mask t ht h.1, ?_⟩) (fun _ _ _ h => h) (fun _ _ _ h => h) (fun _ _ h => h)
  · exact ⟨h.1.1, h.1.2, h.2⟩
  · obtain ⟨⟨hsram, hcell⟩, hflash⟩ := h
    cases a
    case sramClear => exact ⟨⟨fun e he => hsram e (List.mem_filter.1 he).1, hcell⟩, hflash⟩
    case cellarClear => exact ⟨⟨hsram, fun e he => hcell e (List.mem_filter.1 he).1⟩, hflash⟩
    all_goals first | exact ha.elim | exact ⟨⟨hsram, hcell⟩, hflash⟩
  · exact (leads_cons (R := fun u => u.flash = s.flash) (fun _ _ h => h) <| leads_cons (R := fun u => u.flash = s.flash) (fun _ _ h => h) <|
      leads_cons (maintains_each (I := fun u => u.flash = s.flash) fun _ _ => maintains_when fun _ _ _ h => h) leads_nil :
      (clearMemories false mask).Maintains fun u => u.flash = s.flash) t ht h.2

/-! Ports. -/

/-- Every port that holds anything is among those of a list. -/
def State.portsAmong (l : List Nat) (t : State) : Prop := ∀ e ∈ t.ports, e.1 ∈ l

/-- A program that leaves the ports alone. -/
theorem portsAmong_of {K : Nat} {p : Prog} {l : List Nat} (hp : Prog.All (Act.among K) p) (h : K.testBit 6 = false) :
    p.Maintains (·.portsAmong l) := fun t _ ht => by
  show ∀ e ∈ (run p t).ports, e.1 ∈ l
  rw [run_ports_of hp h]
  exact ht

/-- The reset of the main rails makes no port that was not there. -/
theorem clearMain_ports (park : Bool) (hs : s.ok = true) : (run (clearMain park) s).portsAmong (s.ports.map (·.1)) := by
  refine clearMain_leads (P := (·.portsAmong (s.ports.map (·.1)))) (R := (·.portsAmong (s.ports.map (·.1)))) (Q := (·.portsAmong (s.ports.map (·.1))))
    (T := (·.portsAmong (s.ports.map (·.1)))) park hs (fun e he => List.mem_map_of_mem he) (fun o _ => portsAmong_of (flashEffect_kinds o false) rfl)
    (fun _ => portsAmong_of (send_kinds _) rfl) (portsAmong_of (resetRange_kinds _ _ _) rfl) (portsAmong_of (resetRange_kinds _ _ _) rfl)
    (fun a ha t _ h => ?_) (fun p hp g t _ h e he => ?_) (portsAmong_of (updPower_kinds _) rfl)
  · cases a <;> first | exact ha.elim | exact h
  · change e ∈ SMap.putD t.ports p (g (t.port p)) {} at he
    unfold SMap.putD at he
    split at he
    · exact h e (SMap.mem_del he)
    · rcases SMap.mem_put he with rfl | he
      · exact hp
      · exact h e he

theorem ok_ports_sorted (h : s.ok = true) : s.ports.sorted = true := by
  have := State.ok_maps h
  simp only [State.mapsOk, Bool.and_eq_true] at this
  tauto

/-- Ports removed one by one. -/
theorem ports_each (l : List Nat) : (each l fun p => .act (.port p {})).Leads (·.portsAmong l) fun t => t.ports = [] := by
  induction l with
  | nil => exact fun t _ h => List.eq_nil_iff_forall_not_mem.2 fun e he => by simpa using h e he
  | cons p l ih =>
    refine leads_cons (R := (·.portsAmong l)) (fun t ht h e he => ?_) ih
    have hdel : e ∈ t.ports.del p := by
      change e ∈ SMap.putD t.ports p {} {} at he
      simpa [SMap.putD] using he
    refine (List.mem_cons.1 (h e (SMap.mem_del hdel))).resolve_left fun hp => ?_
    have hsort := ok_ports_sorted ht
    have := SMap.get?_mem (SMap.sorted_del t.ports p hsort) hdel
    rw [hp, SMap.get?_del_same _ _ hsort] at this
    cases this

/-! VAON_FALL. -/

/-- What goes with the always-on domain, the last records aside. -/
def offHead (s : State) : Prog :=
  block [clearMain false, resetRange 0 0x2200000 fun _ => false, each (s.ports.map (·.1)) fun p => .act (.port p {}),
    each (List.range 4) fun _ => .act .acPop]

def offTail : Prog :=
  block [.act .acRefresh, .act (.power {}), .act (.clock {}), .act (.fault {}), .act (.mld {}), .act (.spiRejected false),
    send (.pin "PWR_EN" 0)]

theorem run_four_seven (a b c d e f g h i j k : Prog) (s : State) :
    run (block [a, b, c, d, e, f, g, h, i, j, k]) s = run (block [e, f, g, h, i, j, k]) (run (block [a, b, c, d]) s) := rfl

theorem vaonFall_then (hv : s.power.vaon = true) : run vaonFall s = run offTail (run (offHead s) s) := by
  simp only [vaonFall, run_read, hv, when, if_true]
  exact run_four_seven _ _ _ _ _ _ _ _ _ _ _ s

/-- The last records are written over everything that was there. -/
structure OffLast (t u : State) : Prop where
  power : u.power = {}
  clock : u.clock = {}
  fault : u.fault = {}
  mld : u.mld = {}
  queue : u.acQueue = t.acQueue
  ports : u.ports = t.ports
  sram : u.sram = t.sram
  cellar : u.cellar = t.cellar
  flash : u.flash = t.flash
  regs : u.regs = t.regs

theorem offTail_last (t : State) : OffLast t (run offTail t) := by
  constructor <;> simp [offTail]

theorem ok_queue (h : s.ok = true) : s.acQueue.length ≤ 4 := by
  simp only [State.ok, State.queueOk, Bool.and_eq_true, decide_eq_true_eq] at h
  tauto

theorem tail_four {α : Type} {l : List α} (h : l.length ≤ 4) : l.tail.tail.tail.tail = [] := by
  rw [← List.length_eq_zero_iff]
  simp only [List.length_tail]
  omega

/-- The parts of the state where nothing is left, and the flash. -/
structure Off (s t : State) : Prop where
  queue : t.acQueue = []
  ports : t.ports = []
  sram : t.sram = []
  cellar : t.cellar = []
  flash : t.flash = s.flash

theorem offHead_off (hs : s.ok = true) (hb : s.bounded) (ho : s.fport.op = none) : Off s (run (offHead s) s) := by
  obtain ⟨hsram, hcell, hflash⟩ := clearMain_memories hs hb ho
  have hk := resetRange_kinds 0 0x2200000 fun _ => false
  have hr := run_ok (resetRange 0 0x2200000 fun _ => false) _ (run_ok (clearMain false) s hs)
  have keys : Prog.All (Act.among 0x40) (each (s.ports.map (·.1)) fun p => .act (.port p {})) := all_each_i fun _ => tb rfl
  have pops : Prog.All (Act.among 0x20) (each (List.range 4) fun _ => .act .acPop) := all_each_i fun _ => tb rfl
  have four : ∀ t : State, (run (each (List.range 4) fun _ => .act .acPop) t).acQueue = t.acQueue.tail.tail.tail.tail := fun _ => rfl
  have hp := ports_each (s.ports.map (·.1)) _ hr (portsAmong_of hk rfl _ (run_ok _ s hs) (clearMain_ports false hs))
  simp only [offHead, run_block_cons, run_block_nil]
  refine ⟨?_, (run_ports_of pops rfl).trans hp, ?_, ?_, ?_⟩
  · rw [four, run_acQueue_of keys rfl, run_acQueue_of hk rfl, run_acQueue_of (clearMain_kinds false) rfl]
    exact tail_four (ok_queue hs)
  · rw [run_sram_of pops rfl, run_sram_of keys rfl, run_sram_of hk rfl, hsram]
  · rw [run_cellar_of pops rfl, run_cellar_of keys rfl, run_cellar_of hk rfl, hcell]
  · rw [run_flash_of pops rfl, run_flash_of keys rfl, run_flash_of hk rfl, hflash]

theorem offHead_reset (s : State) (h : off < 0x2200000) : (offHead s).Ensures fun t => t.reg off = resetWord off :=
  ensures_later <| ensures_now (resetRange_ensures (Nat.zero_le _) (by omega) rfl) <| maintains_reg (J := fun w => w = resetWord off)
    ⟨all_each_i fun _ => id, all_each_i fun _ => id, trivial⟩

/-- The parts that go with VAON: all but the fuses, the pins, the messages. -/
def vaonParts : List Part :=
  [.shadows, .votes, .wide, .windows, .aonQueue, .ports, .canes, .bundles, .furnace, .ledger, .mould, .timebase, .calibration, .diagnostics,
   .flash, .sram, .cellar, .commits, .heads, .rings, .channels, .fills, .flashPort, .power, .clocks, .collector, .frames, .sent, .draws]

/-- VAON is lost. -/
theorem vaonFall_acts (hs : s.ok = true) (hv : s.power.vaon = true) (ho : s.fport.op = none)
    (hsram : (s.sram.all fun e => decide (e.1 < 16 * bankSize)) = true) (hcell : (s.cellar.all fun e => decide (e.1 < 25165824)) = true) :
    Acts .vaonFall s fun u =>
      u.power = {} ∧ u.clock = {} ∧ u.fault = {} ∧ u.mld = {} ∧ u.acQueue = [] ∧ u.ports = [] ∧ u.sram = [] ∧ u.cellar = [] ∧ u.flash = s.flash ∧
      Sent (.pin "PWR_EN" 0) s u ∧ AtReset 0 0x2200000 (fun _ => false) u ∧
      Keeps vaonParts s u := by
  refine acts_finish vaonFall rfl ?_
  have hkeeps : Keeps vaonParts s (run vaonFall s) := keeps_of vaonFall_kinds hs _
  rw [vaonFall_then hv] at hkeeps ⊢
  have hb : s.bounded := ⟨fun e he => of_decide_eq_true (List.all_eq_true.1 hsram e he), fun e he => of_decide_eq_true (List.all_eq_true.1 hcell e he)⟩
  obtain ⟨hq, hports, hsr, hce, hfl⟩ := offHead_off hs hb ho
  obtain ⟨hpower, hclock, hfault, hmld, hq', hports', hsr', hce', hfl', hregs⟩ := offTail_last (run (offHead s) s)
  refine ⟨hpower, hclock, hfault, hmld, hq'.trans hq, hports'.trans hports, hsr'.trans hsr, hce'.trans hce, hfl'.trans hfl,
    Sent.later (out_grows (.seq (offHead s) (block [.act .acRefresh, .act (.power {}), .act (.clock {}), .act (.fault {}), .act (.mld {}),
      .act (.spiRejected false)])) s) (sent_send _ _), fun o _ h _ => ?_, hkeeps⟩
  have := offHead_reset s h s hs trivial
  rw [← this]
  simp only [State.reg, hregs]

end Sys2Proof.Machine
end

section
/-!
PROOFS. O35, the causes of a start: power on, the loss of the main rails, RESET_N and RST.CHIP (R36, R38, R514 to R517).
-/
set_option Elab.async false
namespace Sys2Proof.Machine

variable {s : State} {off : Nat}

/-! POWER_ON. -/

/-- The pins are sampled, VAON is up. -/
def vaonUp (pins : PinX) : Prog := block [.act (.pins pins), updPower fun _ => { vaon := true }, updClock fun _ => {}]

theorem run_six (a c d e f : Prog) (s : State) : run (block [a, block [], c, d, e, f]) s = run f (run e (run (block [a, c, d]) s)) := rfl

theorem powerOn_then (h b : Nat) (t : Bool) (hv : s.power.vaon = false) :
    run (powerOn h b t []) s = run (rails true) (run (beginStart rcPowerOn 0) (run (vaonUp ⟨h, b, t⟩) s)) := by
  simp only [powerOn, run_read, hv, each_nil, Bool.not_false, when, if_true]
  exact run_six _ _ _ _ _ s

/-- The parts that power on takes: those of the main rails, and the pins. -/
def powerOnParts : List Part :=
  [.shadows, .votes, .wide, .windows, .ports, .canes, .bundles, .furnace, .ledger, .mould, .timebase, .calibration, .diagnostics, .flash, .sram,
   .cellar, .commits, .heads, .rings, .channels, .fills, .flashPort, .power, .clocks, .collector, .pins, .sent, .draws]

theorem powerOn_acts (headcfg : BitVec 2) (bootsrc : BitVec 1) (testMode : Bool) (hs : s.ok = true) (hv : s.power.vaon = false) :
    Acts (.powerOn headcfg bootsrc testMode []) s fun u =>
      u.power.vaon = true ∧ u.power.pwrEn = true ∧ u.power.stage = sgRails ∧ u.pins = ⟨headcfg.toNat, bootsrc.toNat, testMode⟩ ∧
      (u.reg R.RST_CAUSE).toNat % 128 = rcPowerOn ∧ u.devMode = mdRamp ∧ u.f F.AON_MODE_start_kind = 0 ∧ Sent (.pin "PWR_EN" 1) s u ∧
      AtReset 0 0x160000 (resetKeeps false) u ∧ AtReset 0x180000 0x2080000 (fun _ => false) u ∧
      Keeps powerOnParts s u := by
  refine acts_finish (powerOn headcfg.toNat bootsrc.toNat testMode []) rfl ?_
  have hkeeps : Keeps powerOnParts s (run (powerOn headcfg.toNat bootsrc.toNat testMode []) s) :=
    keeps_of (powerOn_kinds headcfg.toNat bootsrc.toNat testMode []) hs _
  rw [powerOn_then _ _ _ hv] at hkeeps ⊢
  have ht := run_ok (vaonUp ⟨headcfg.toNat, bootsrc.toNat, testMode⟩) s hs
  obtain ⟨hrec, hstage, -, hpwr, hvaon, hsent⟩ := start_rails rcPowerOn 0 ht
  rw [warmFor_cold (by decide) (by decide)] at hrec
  have hpins : (run (rails true) (run (beginStart rcPowerOn 0) (run (vaonUp ⟨headcfg.toNat, bootsrc.toNat, testMode⟩) s))).pins =
      ⟨headcfg.toNat, bootsrc.toNat, testMode⟩ := (run_pins_of (rails_kinds true) rfl).trans (run_pins_of (beginStart_kinds rcPowerOn 0) rfl)
  exact ⟨hvaon, hpwr, hstage, hpins, hrec.cause_eq (by decide) rfl, hrec.mode, hrec.kind, Sent.later (out_grows _ s) hsent,
    atReset_low (by decide) (by decide) ht, atReset_high ht, hkeeps⟩

/-! MAIN_RAIL_LOSS. -/

/-- The power controller waits with PWR_EN low. -/
def lossPower (x : PowerX) : PowerX := { x with vmainOk := false, stage := sgMinOff, park := false, offWait := some rcMainLoss }

/-- The loss of the main rails, not in SAFE on C4. -/
def railsLost : Prog :=
  block [satAdd F.RST_COUNT_main_loss 1, clearMain false, rails false, setF F.AON_MODE_entering 0,
    updPower lossPower]

theorem mainRailLoss_then (h1 : s.power.pwrEn = true) (h2 : s.power.vmainOk = true) (h3 : s.f F.PWR_MODE_STAT_entering ≠ mdPark)
    (hd : s.deadSafe = false) : run mainRailLoss s = run railsLost s := by
  have h3' : (s.f F.PWR_MODE_STAT_entering != mdPark) = true := by simpa using h3
  have hd' : (s.bit F.AON_SAFE_STAT_safe && s.f F.AON_SAFE_STAT_class_ == 4) = false := hd
  simp only [mainRailLoss, run_read, h1, h2, h3', hd', when, Bool.and_self, if_true, Bool.false_eq_true, if_false]
  rw [railsLost, show lossPower = fun x => { x with vmainOk := false, stage := sgMinOff, park := false, offWait := some rcMainLoss } from rfl]

/-- What follows the reset of the main rails writes AON.MODE alone. -/
theorem railsLost_tail_spares {g : PowerX → PowerX} (h : off ≠ R.AON_MODE) :
    (block [rails false, setF F.AON_MODE_entering 0, updPower g]).Spares off :=
  ⟨⟨spares_updPower, spares_send, trivial⟩, spares_setF.2 (Ne.symm h), spares_updPower, trivial⟩

theorem railsLost_low (h : off < 0x160000) (hk : resetKeeps false off = false) : railsLost.Ensures fun t => t.reg off = resetWord off :=
  ensures_later <| ensures_now (clearMain_low h hk) <| maintains_reg (J := fun w => w = resetWord off)
    (railsLost_tail_spares fun e => absurd (e ▸ h) (by decide))

theorem railsLost_high (h1 : 0x180000 ≤ off) (h2 : off < 0x2200000) : railsLost.Ensures fun t => t.reg off = resetWord off :=
  ensures_later <| ensures_now (clearMain_high h1 h2) <| maintains_reg (J := fun w => w = resetWord off)
    (railsLost_tail_spares fun e => absurd (e ▸ h1) (by decide))

/-- A word that AON backs, AON.MODE aside, is as the count has left it. -/
theorem railsLost_reg (h : (0x160000 ≤ off ∧ off < 0x180000) ∨ (off < 0x160000 ∧ resetKeeps false off = true)) (hne : off ≠ R.AON_MODE)
    (hs : s.ok = true) : (run railsLost s).reg off = (run (satAdd F.RST_COUNT_main_loss 1) s).reg off := by
  have hc := run_ok (satAdd F.RST_COUNT_main_loss 1) s hs
  exact (run_reg_frame off _ (railsLost_tail_spares (g := lossPower) hne) _ (State.ok_regs_sorted (run_ok _ _ hc))).trans (clearMain_reg h hc)

/-- A count of RST is no word of AON. -/
theorem satAdd_aon {F : Field} {k : Nat} (hF : F.off < 0x160000) (h : 0x160000 ≤ off) (hs : s.ok = true) : (run (satAdd F k) s).reg off = s.reg off :=
  run_reg_frame off (satAdd F k) (spares_satAdd.2 (by omega)) s (State.ok_regs_sorted hs)

theorem power_last (p q : Prog) (F : Field) (v : Nat) (g : PowerX → PowerX) (t : State) :
    (run (block [p, q, rails false, setF F v, updPower g]) t).power = g { (run q (run p t)).power with pwrEn := false } := rfl

theorem power_satAdd (F : Field) (k : Nat) (t : State) : (run (satAdd F k) t).power = t.power := rfl

theorem railsLost_power (hs : s.ok = true) : (run railsLost s).power = lossPower { clearedPower false s.power with pwrEn := false } := by
  rw [railsLost, power_last, clearMain_power false (run_ok (satAdd F.RST_COUNT_main_loss 1) s hs), power_satAdd]

theorem mainRailLoss_acts (hs : s.ok = true) (h1 : s.power.pwrEn = true) (h2 : s.power.vmainOk = true)
    (h3 : s.f F.PWR_MODE_STAT_entering ≠ mdPark) (hd : s.deadSafe = false) :
    Acts .mainRailLoss s fun u =>
      u.f F.RST_COUNT_main_loss = min (s.f F.RST_COUNT_main_loss + 1) 255 ∧ u.power.stage = sgMinOff ∧ u.power.offWait = some rcMainLoss ∧
      u.power.pwrEn = false ∧ u.power.vmainOk = false ∧ AtReset 0 0x160000 (resetKeeps false) u ∧ AtReset 0x180000 0x2080000 (fun _ => false) u ∧
      SameRegs 0x160000 0x180000 [R.AON_MODE] s u ∧ Keeps railParts s u := by
  refine acts_finish mainRailLoss rfl ?_
  have hkeeps : Keeps railParts s (run mainRailLoss s) := keeps_of mainRailLoss_kinds hs _
  rw [mainRailLoss_then h1 h2 h3 hd] at hkeeps ⊢
  have hp := railsLost_power hs
  refine ⟨?_, hp ▸ rfl, hp ▸ rfl, hp ▸ rfl, hp ▸ rfl, fun o _ h hk => railsLost_low h hk s hs trivial,
    fun o h h' _ => railsLost_high h (by omega) s hs trivial, fun o h h' hne => ?_, hkeeps⟩
  · exact (congrArg (bits · 23 16) (railsLost_reg (.inr (by decide)) (by decide) hs)).trans (f_satAdd hs)
  · have hne' : o ≠ R.AON_MODE := fun e => hne (by simp [e])
    exact (railsLost_reg (.inl ⟨h, h'⟩) hne' hs).trans (satAdd_aon (by decide) h hs)

/-! RESET_N. -/

theorem resetN_then (hv : s.power.vaon = true) (hd : s.deadSafe = false) (hn : s.power.resetN = false) :
    run resetN s = if s.entering then run (updPower fun x => { x with resetN := true, resetLatched := some rcResetN }) s else run resetNow s := by
  simp only [resetN, run_read, hv, hd, hn, Bool.not_false, Bool.and_self, when, if_true]
  exact run_ite _ _ _ s

/-- A reset by RESET_N outside PARK resets the main rails. -/
theorem resetNow_low (hst : s.power.stage ≠ sgPark) (h : off < 0x160000) (hk : resetKeeps false off = false) :
    resetNow.Leads (fun t => t = s) fun t => t.reg off = resetWord off :=
  leads_read fun t _ e => by
    subst e
    exact (ensures_later <| ensures_now (by rw [when, if_pos (by simpa using hst)]; exact clearMain_low h hk) <|
      maintains_reg (J := fun w => w = resetWord off) (p := block [updPower _]) ⟨spares_updPower, trivial⟩).leads

theorem reg_updPower (g : PowerX → PowerX) (t : State) : (run (updPower g) t).reg off = t.reg off := rfl

/-- A word that AON backs is as the count has left it. -/
theorem resetNow_reg (h : (0x160000 ≤ off ∧ off < 0x180000) ∨ (off < 0x160000 ∧ resetKeeps false off = true)) (hs : s.ok = true) :
    (run resetNow s).reg off = (run (satAdd F.RST_COUNT_reset_n 1) s).reg off := by
  have hc := run_ok (satAdd F.RST_COUNT_reset_n 1) s hs
  simp only [resetNow, run_read, run_block_cons, run_block_nil, run_when, reg_updPower]
  split
  · exact clearMain_reg h hc
  · rfl

theorem resetNow_power (s : State) : (run resetNow s).power.stage = sgReset ∧ (run resetNow s).power.resetN = true := by
  simp only [resetNow, run_read, run_block_cons, run_block_nil, run_updPower, apply_power, and_self]

theorem resetN_acts (hs : s.ok = true) (hv : s.power.vaon = true) (hd : s.deadSafe = false) (hn : s.power.resetN = false) :
    Acts .resetN s fun u =>
      u.power.resetN = true ∧ (s.entering = true → u.power.resetLatched = some rcResetN ∧ OnlyWords [] s u) ∧
      (s.entering = false → u.power.stage = sgReset ∧ u.f F.RST_COUNT_reset_n = min (s.f F.RST_COUNT_reset_n + 1) 255) ∧
      (s.entering = false → s.power.stage ≠ sgPark → AtReset 0 0x160000 (resetKeeps false) u ∧ SameRegs 0x160000 0x180000 [] s u) ∧
      Keeps railParts s u := by
  refine acts_finish resetN rfl ?_
  have hkeeps : Keeps railParts s (run resetN s) := keeps_of resetN_kinds hs _
  rw [resetN_then hv hd hn] at hkeeps ⊢
  cases he : s.entering
  · simp only [he, Bool.false_eq_true, if_false] at hkeeps ⊢
    refine ⟨(resetNow_power s).2, fun h => absurd h (by decide), fun _ => ⟨(resetNow_power s).1, ?_⟩, fun _ hst =>
      ⟨fun o _ h hk => resetNow_low hst h hk s hs rfl, fun o h h' _ => ?_⟩, hkeeps⟩
    · exact (congrArg (bits · 15 8) (resetNow_reg (.inr (by decide)) hs)).trans (f_satAdd hs)
    · exact (resetNow_reg (.inl ⟨h, h'⟩) hs).trans (satAdd_aon (by decide) h hs)
  · simp only [he, if_true] at hkeeps ⊢
    exact ⟨rfl, fun _ => ⟨rfl, fun _ _ => rfl⟩, fun h => absurd h (by decide), fun h => absurd h (by decide), hkeeps⟩

end Sys2Proof.Machine
end

section
/-!
PROOFS. O35, the starts on rails that are up: RESET_N is released, RST.CHIP is written (R514 to R516, R546).
-/
set_option Elab.async false
namespace Sys2Proof.Machine

variable {s : State} {off : Nat}

/-- The rails' coming up for a cold start keeps what RST has recorded. -/
theorem bringUp_rst {t : State} (ht : t.ok = true) :
    (run (bringUp false) t).reg R.RST_CAUSE = t.reg R.RST_CAUSE ∧ (run (bringUp false) t).reg R.RST_COUNT = t.reg R.RST_COUNT := by
  have hr := State.ok_regs_sorted ht
  exact ⟨run_reg_frame _ _ (bringUp_spares_rst false).1 t hr, run_reg_frame _ _ (bringUp_spares_rst false).2 t hr⟩

/-! RESET_N_RELEASE. -/

/-- RESET_N is high. -/
def resetHigh : Prog := updPower fun x => { x with resetN := false }

theorem resetNRelease_then (h1 : s.power.resetN = true) (h2 : s.power.stage = sgReset) :
    run resetNRelease s = run resetRelease (run resetHigh s) := by
  simp only [resetNRelease, run_read, h1, h2, beq_self_eq_true, when, if_true]
  rfl

/-- What the start after RESET_N depends on. -/
theorem resetRelease_then (t : State) : run resetRelease t =
    if t.power.pwrEn then (if t.power.vmainOk then run (bringUp false) (run (beginStart rcResetN 0) t) else run (beginStart rcResetN 0) t)
    else run (rails true) (run (beginStart rcResetN 0) t) := by
  cases h : t.power.pwrEn <;> cases h' : t.power.vmainOk <;>
    simp only [resetRelease, run_read, run_block_cons, run_block_nil, h, h', when, if_true, Bool.false_eq_true, if_false, run_skip]

theorem resetRelease_starts {t : State} (ht : t.ok = true) (hn : t.power.resetN = false) :
    let u := run resetRelease t
    u.power.resetN = false ∧ (u.reg R.RST_CAUSE).toNat % 128 = rcResetN ∧ u.f F.AON_MODE_start_kind = 0 ∧
      (t.power.pwrEn = false → u.power.pwrEn = true ∧ u.power.stage = sgRails ∧ Sent (.pin "PWR_EN" 1) t u) ∧
      (t.power.pwrEn = true → t.power.vmainOk = true → u.power.stage = sgBoot ∧ u.f F.PWR_DOM_STAT_domains = 3 * 2 ^ 22) := by
  have hrec := beginStart_records rcResetN 0 ht
  rw [warmFor_cold (by decide) (by decide)] at hrec
  have hbeg := beginStart_power rcResetN 0 ht
  have hok := run_ok (beginStart rcResetN 0) t ht
  have hcause := hrec.cause_eq (by decide) rfl
  rw [resetRelease_then]
  cases hp : t.power.pwrEn
  · obtain ⟨-, hstage, -, hpwr, -, hsent⟩ := start_rails rcResetN 0 ht
    exact ⟨hbeg.resetN.trans hn, hcause, hrec.kind, fun _ => ⟨hpwr, hstage, hsent⟩, fun h => absurd h (by decide)⟩
  cases hv : t.power.vmainOk
  · exact ⟨hbeg.resetN.trans hn, hcause, hrec.kind, fun h => absurd h (by decide), fun _ h => absurd h (by decide)⟩
  · have hboot := bringUp_cold hok hrec.kind
    simp only [if_true]
    exact ⟨hboot.resetN.trans (hbeg.resetN.trans hn), by rw [(bringUp_rst hok).1]; exact hcause, hboot.cold, fun h => absurd h (by decide),
      fun _ _ => ⟨hboot.stage, hboot.domains⟩⟩

theorem resetNRelease_acts (hs : s.ok = true) (h1 : s.power.resetN = true) (h2 : s.power.stage = sgReset) :
    Acts .resetNRelease s fun u =>
      u.power.resetN = false ∧ (u.reg R.RST_CAUSE).toNat % 128 = rcResetN ∧ u.f F.AON_MODE_start_kind = 0 ∧
      (s.power.pwrEn = false → u.power.pwrEn = true ∧ u.power.stage = sgRails ∧ Sent (.pin "PWR_EN" 1) s u) ∧
      (s.power.pwrEn = true → s.power.vmainOk = true → u.power.stage = sgBoot ∧ u.f F.PWR_DOM_STAT_domains = 3 * 2 ^ 22) ∧
      Keeps resetParts s u := by
  refine acts_finish resetNRelease rfl ?_
  have hkeeps : Keeps resetParts s (run resetNRelease s) := keeps_of resetNRelease_kinds hs _
  rw [resetNRelease_then h1 h2] at hkeeps ⊢
  obtain ⟨hn, hcause, hkind, hoff, hup⟩ := resetRelease_starts (t := run resetHigh s) (run_ok resetHigh s hs) rfl
  exact ⟨hn, hcause, hkind, fun h => ⟨(hoff h).1, (hoff h).2.1, Sent.later (out_grows resetHigh s) (hoff h).2.2⟩, hup, hkeeps⟩

/-! CHIP_RESET. -/

/-- A chip reset begins: it is counted, the start begins, TEST_MODE's record stays. -/
def chipBegin (cause src seen : Nat) : Prog :=
  block [satAdd F.RST_COUNT_chip 1, beginStart cause src, setF F.GLB_LIFECYCLE_test_mode_seen seen]

theorem run_three_one (a b c d : Prog) (t : State) : run (block [a, b, c, d]) t = run d (run (block [a, b, c]) t) := rfl

/-- A chip reset with the main rails up. -/
theorem chipReset_up {cause src : Nat} (h1 : s.power.pwrEn = true) (h2 : s.power.vmainOk = true) :
    run (chipReset cause src) s = run (bringUp false) (run (chipBegin cause src (s.f F.GLB_LIFECYCLE_test_mode_seen)) s) := by
  simp only [chipReset, run_read, h1, h2, Bool.and_self, if_true]
  exact run_three_one _ _ _ _ s

/-- What a chip reset has done when its start has begun. -/
structure ChipBegun (cause : Nat) (s t : State) : Prop where
  cause : (t.reg R.RST_CAUSE).toNat % 128 = cause
  count : t.f F.RST_COUNT_chip = min (s.f F.RST_COUNT_chip + 1) 255
  kind : t.f F.AON_MODE_start_kind = 0
  pwrEn : t.power.pwrEn = s.power.pwrEn

theorem chipBegin_begun {cause seen : Nat} (h1 : cause ≠ rcParkWake) (h2 : cause ≠ rcRetry) (hlt : cause < 128) (hs : s.ok = true) :
    ChipBegun cause s (run (chipBegin cause 0 seen) s) := by
  have hc := run_ok (satAdd F.RST_COUNT_chip 1) s hs
  have hb := run_ok (beginStart cause 0) _ hc
  have hrec := beginStart_records cause 0 hc
  rw [warmFor_cold h1 h2] at hrec
  have other : ∀ {o : Nat} (u : State), u.ok = true → o ≠ R.GLB_LIFECYCLE → (run (setF F.GLB_LIFECYCLE_test_mode_seen seen) u).reg o = u.reg o :=
    fun {o} u hu h => run_reg_frame o _ (spares_setF.2 (Ne.symm h)) u (State.ok_regs_sorted hu)
  simp only [chipBegin, run_block_cons, run_block_nil]
  refine ⟨?_, ?_, ?_, (beginStart_power cause 0 hc).pwrEn⟩
  · rw [other _ hb (by decide)]
    exact hrec.cause_eq hlt rfl
  · have hr := (other _ hb (by decide)).trans (beginStart_reg (off := R.RST_COUNT) (cause := cause) (src := 0) (by decide) (.inr (by decide)) hc)
    exact (congrArg (bits · 7 0) hr).trans (f_satAdd hs)
  · exact (congrArg (bits · 8 8) (other (o := R.AON_MODE) _ hb (by decide))).trans hrec.kind

theorem chipWrite_denied {path key : Nat} (hk : key ≠ 0xC3) : run (chipWrite path key true) s = run (denied path R.RST_CHIP true) s := by
  simp only [chipWrite, run_read, when, if_true, hk, ne_eq, not_false_eq_true]

/-- The right key, where SAFE does not shut the write out. -/
theorem chipWrite_key {path : Nat} (hd : s.deadSafe = false) (hf : s.bit F.FLT_STAT_safe = false) : run (chipWrite path 0xC3 true) s =
    if s.entering then run (updPower fun x => { x with resetLatched := some rcChipWrite }) s else run (chipReset rcChipWrite 0) s := by
  cases he : s.entering <;>
    simp only [chipWrite, run_read, when, if_true, ne_eq, not_true_eq_false, if_false, hd, hf, Bool.false_and, Bool.or_self, Bool.false_eq_true, he]

theorem chipReset_acts {path : Path} {key : BitVec 8} {go : Bool} (hs : s.ok = true) (hg : Granted path R.RST_CHIP s) :
    Acts (.chipReset path key go) s fun u =>
      (go = false → u = s) ∧
      (go = true → key.toNat ≠ 0xC3 → Raised ⟨srcOf s R.RST_CHIP, kAccessDenied, 0, pathCode path + 8, R.RST_CHIP⟩ s u ∧ u.regs = s.regs) ∧
      (go = true → key.toNat = 0xC3 → s.deadSafe = false → s.bit F.FLT_STAT_safe = false → s.entering = true → u.power.resetLatched = some rcChipWrite ∧ u.regs = s.regs) ∧
      (go = true → key.toNat = 0xC3 → s.deadSafe = false → s.bit F.FLT_STAT_safe = false → s.entering = false → s.power.pwrEn = true → s.power.vmainOk = true →
        (u.reg R.RST_CAUSE).toNat % 128 = rcChipWrite ∧ u.f F.RST_COUNT_chip = min (s.f F.RST_COUNT_chip + 1) 255 ∧ u.f F.AON_MODE_start_kind = 0 ∧
        u.power.stage = sgBoot ∧ u.power.pwrEn = s.power.pwrEn ∧ u.f F.PWR_DOM_STAT_domains = 3 * 2 ^ 22) ∧
      Keeps resetParts s u := by
  refine acts_wrote (fun c => chipWrite c key.toNat go) hg rfl ⟨fun h => ?_, fun h hk => ?_, fun h hk hd hf he => ?_, fun h hk hd hf he h1 h2 => ?_,
    keeps_of (chipWrite_kinds _ _ _) hs _⟩
  · subst h; rfl
  · subst h
    rw [chipWrite_denied hk]
    exact ⟨⟨[_], rfl, List.mem_singleton.2 rfl⟩, rfl⟩
  · subst h
    rw [hk, chipWrite_key hd hf, he]
    exact ⟨rfl, rfl⟩
  · subst h
    rw [hk, chipWrite_key hd hf, he, if_neg (by decide), chipReset_up h1 h2]
    have ht := run_ok (chipBegin rcChipWrite 0 (s.f F.GLB_LIFECYCLE_test_mode_seen)) s hs
    obtain ⟨hcause, hcount, hkind, hpwr⟩ := chipBegin_begun (seen := s.f F.GLB_LIFECYCLE_test_mode_seen) (cause := rcChipWrite) (by decide) (by decide) (by decide) hs
    have hboot := bringUp_cold ht hkind
    obtain ⟨hr1, hr2⟩ := bringUp_rst ht
    exact ⟨by rw [hr1]; exact hcause, (congrArg (bits · 7 0) hr2).trans hcount, hboot.cold, hboot.stage, hboot.pwrEn.trans hpwr, hboot.domains⟩

end Sys2Proof.Machine
end

section
/-!
PROOFS. O35, block resets by RST.BLOCK (R518): what is recorded, what the reset of a port, of the launch groups and of the DMA
channels does, and their end.
-/
set_option Elab.async false
namespace Sys2Proof.Machine

variable {s : State} {off : Nat}

/-! BLOCK_RESET. -/

theorem alone_RST_BLOCK_STAT : alone 41 = true := by decide +kernel

/-- No block reset writes RST.BLOCK_STAT beside its own record. -/
theorem untouched_RST_BLOCK_STAT : Untouched R.RST_BLOCK_STAT where
  ge := by decide
  lt := by decide
  aside := not_lies_one (w := 0) (words := 1) alone_RST_BLOCK_STAT rfl rfl (by decide) (by decide) (by decide +kernel) (by decide +kernel) (by decide +kernel)

/-- The record of a block reset. -/
def blockBegin (src : Nat) : Prog :=
  block [setF F.RST_BLOCK_source src, setF F.RST_BLOCK_STAT_refused 0, updFault fun x => { x with resets := x.resets ++ [src] },
    setF F.RST_BLOCK_STAT_busy 1, setF F.RST_BLOCK_STAT_source src]

theorem blockWrite_idle (src : Nat) : run (blockWrite src false) s = run (setF F.RST_BLOCK_source src) s := rfl

/-- A source without a row. -/
def blockRefuse (src : Nat) : Prog :=
  block [setF F.RST_BLOCK_source src, setF F.RST_BLOCK_STAT_refused 1, raise R.RST_EVENT 1]

theorem run_pair_nested (a b c : Prog) (t : State) : run (block [a, block [b, c]]) t = run (block [a, b, c]) t := rfl

theorem blockWrite_refused {src : Nat} (h : resettable src = false) : run (blockWrite src true) s = run (blockRefuse src) s := by
  simp only [blockWrite, run_read, h, when, if_true, Bool.not_false]
  exact run_pair_nested _ _ _ s

theorem blockReset_begins {src : Nat} {chip : Prog} {t : State} (hc : chipSource src = false) (hr : t.fault.resets = []) :
    run (blockReset src chip) t = run (block [updFault fun x => { x with resets := x.resets ++ [src] },
      setF F.RST_BLOCK_STAT_busy 1, setF F.RST_BLOCK_STAT_source src, blockEffect src]) t := by
  simp only [blockReset, run_read, hc, hr, List.contains_nil, Bool.not_false, when, if_true, Bool.false_eq_true, if_false]

theorem run_regroup (a b c d e f : Prog) (t : State) :
    run (block [c, d, e, f]) (run b (run a t)) = run f (run (block [a, b, c, d, e]) t) := rfl

theorem blockWrite_begins {src : Nat} (h : resettable src = true) (hc : chipSource src = false) (hr : s.fault.resets = []) :
    run (blockWrite src true) s = run (blockEffect src) (run (blockBegin src) s) := by
  simp only [blockWrite, run_read, h, when, if_true, Bool.not_true, Bool.false_eq_true, if_false, run_block_cons, run_block_nil]
  rw [blockReset_begins (t := run (setF F.RST_BLOCK_STAT_refused 0) (run (setF F.RST_BLOCK_source src) s)) hc hr]
  exact run_regroup _ _ _ _ _ _ s

/-! The record. -/

theorem blockBegin_busy (src : Nat) : (blockBegin src).Ensures fun t => t.f F.RST_BLOCK_STAT_busy = 1 :=
  ensures_later <| ensures_later <| ensures_later <| ensures_now ensures_setF <| leads_cons maintains_setF leads_nil

theorem blockBegin_refused (src : Nat) : (blockBegin src).Ensures fun t => t.f F.RST_BLOCK_STAT_refused = 0 :=
  ensures_later <| ensures_now ensures_setF <| leads_cons (maintains_f spares_updFault) <| leads_cons maintains_setF <| leads_cons maintains_setF leads_nil

theorem blockBegin_source (src : Nat) : (blockBegin src).Ensures fun t => t.f F.RST_BLOCK_STAT_source = src % 2 ^ 7 :=
  ensures_later <| ensures_later <| ensures_later <| ensures_later <| ensures_now ensures_setF leads_nil

theorem blockBegin_fault (src : Nat) (t : State) : (run (blockBegin src) t).fault.resets = t.fault.resets ++ [src] := rfl

theorem blockBegin_ports (src : Nat) (t : State) : (run (blockBegin src) t).ports = t.ports := by
  simp only [blockBegin, run_block_cons, run_block_nil, run_setF, run_updFault, apply_ports]

/-- The words of the record are those of RST. -/
theorem blockBegin_spares {src : Nat} (h1 : off ≠ R.RST_BLOCK) (h2 : off ≠ R.RST_BLOCK_STAT) : (blockBegin src).Spares off :=
  ⟨spares_setF.2 (Ne.symm h1), spares_setF.2 (Ne.symm h2), spares_updFault, spares_setF.2 (Ne.symm h2), spares_setF.2 (Ne.symm h2), trivial⟩

theorem blockRefuse_only {src : Nat} (hs : s.ok = true) : OnlyWords [R.RST_BLOCK, R.RST_BLOCK_STAT, R.RST_EVENT] s (run (blockRefuse src) s) := by
  intro off hoff
  simp only [List.mem_cons, List.not_mem_nil, or_false, not_or] at hoff
  obtain ⟨h1, h2, h3⟩ := hoff
  exact run_reg_frame off (blockRefuse src) ⟨spares_setF.2 (Ne.symm h1), spares_setF.2 (Ne.symm h2), spares_raise.2 (Ne.symm h3), trivial⟩ s (State.ok_regs_sorted hs)

theorem blockRefuse_refused (src : Nat) : (blockRefuse src).Ensures fun t => t.f F.RST_BLOCK_STAT_refused = 1 :=
  ensures_later <| ensures_now ensures_setF <| maintains_f ⟨spares_raise.2 (by decide), trivial⟩

theorem blockRefuse_event (src : Nat) : (blockRefuse src).Ensures fun t => t.raised R.RST_EVENT 1 = true :=
  ensures_later <| ensures_later <| ensures_now (raised_raise (by decide)) leads_nil

/-! What the reset of a block brings about. -/

/-- What the last program of a block ensures. -/
theorem ensures_last {Q : State → Prop} {l : List Prog} {p : Prog} (h : l.getLast? = some p) (hp : p.Ensures Q) : (block l).Ensures Q := by
  induction l with
  | nil => cases h
  | cons q l ih =>
    cases l with
    | nil => cases h; exact ensures_now hp leads_nil
    | cons r l => exact ensures_later (ih h)

/-- The port is in its reset. -/
theorem portResetBegin_resets {p : Nat} (hs : s.ok = true) (h : (s.port p).resetting = false) : ((run (portResetBegin p) s).port p).resetting = true := by
  have last : ∀ g : PortX → PortX, (∀ x, (g x).resetting = true) → (updPort p g).Ensures fun t => (t.port p).resetting = true := fun g hg t ht _ => by
    show (((SMap.putD t.ports p (g (t.port p)) {}).getD p {}).resetting) = true
    rw [SMap.getD_putD_same _ _ _ _ (ok_ports_sorted ht), hg]
  refine (?_ : (portResetBegin p).Leads (fun t => t = s) fun t => (t.port p).resetting = true) s hs rfl
  refine leads_read fun t _ e => ?_
  subst e
  rw [when, if_pos (by simp [h])]
  exact (ensures_last rfl (last (fun x => { x with resetting := true, sqiArmed := true }) fun _ => rfl)).leads

theorem lgAllIdle_idle (g : Fin 16) : lgAllIdle.Ensures fun t => t.f (F.LCH_LG_STAT_state g) = lgIdle := by
  have hF : ∀ k, (F.LCH_LG_STAT_state k).lo ≤ (F.LCH_LG_STAT_state k).hi ∧ (F.LCH_LG_STAT_state k).hi < 32 :=
    fun _ => ⟨show 0 ≤ 2 by decide, show 2 < 32 by decide⟩
  have hoff : ∀ k < 16, R.LCH_LG_STAT k = 0x60020 + k * 0x80 := fun k hk => if_pos hk
  refine ensures_each (x := g.val) (List.mem_range.2 g.isLt) (ensures_setF (hF := hF _)) fun k hk => ?_
  by_cases hkg : k = g.val
  · subst hkg
    exact Prog.Ensures.leads (ensures_setF (hF := hF _))
  · have hne : (F.LCH_LG_STAT_state k).off ≠ (F.LCH_LG_STAT_state g).off := fun e => by
      have e' : R.LCH_LG_STAT k = R.LCH_LG_STAT g := e
      rw [hoff k (List.mem_range.1 hk), hoff g g.isLt] at e'
      omega
    exact maintains_setF (hF _) (.inl hne)

/-- Every channel is off after the reset of the DMA's block. -/
theorem mdmaReset_off (c : Fin 16) : (block [mdmaStop, resetBlock 0x0B headerKept, each (List.range 16) fun c => .act (.chan c {})]).Ensures
    fun t => t.mcState c = mcOff := by
  have hoff : ∀ c : Fin 16, 0xB0000 ≤ R.MCH_STAT c ∧ R.MCH_STAT c < 0xC0000 ∧ headerKept (R.MCH_STAT c) = false := by decide +kernel
  have hword : ∀ c : Fin 16, bits (resetWord (R.MCH_STAT c)) 1 0 = mcOff := by decide +kernel
  obtain ⟨h1, h2, h3⟩ := hoff c
  have hreset : (block [mdmaStop, resetBlock 0x0B headerKept, each (List.range 16) fun c => .act (.chan c {})]).Ensures
      fun t => t.reg (R.MCH_STAT c) = resetWord (R.MCH_STAT c) :=
    ensures_later <| ensures_now (ensures_now (resetRange_ensures h1 h2 h3) (maintains_reg (J := fun w => w = _) (p := block [.act (.undoDrop 0x0B)]) ⟨id, trivial⟩)) <|
      maintains_reg (J := fun w => w = _) ⟨all_each_i fun _ => id, trivial⟩
  exact fun t ht _ => (congrArg (bits · 1 0) (hreset t ht trivial)).trans (hword c)

theorem lchReset_idle (g : Fin 16) : (block [resetBlock 0x06 fun o => o == blkCommitOff 0x60000, deriveLch, lgAllIdle]).Ensures
    fun t => t.f (F.LCH_LG_STAT_state g) = lgIdle := ensures_last rfl (lgAllIdle_idle g)

/-- The effect of the reset of a port, of the launch groups, of the DMA. -/
theorem blockEffect_port {t : State} (h : t.domOn (portDomain 9) = true) : run (blockEffect 0x49) t = run (portResetBegin 9) t := by
  simp only [blockEffect, run_read, h, when, if_true, Nat.reduceSub, Nat.reduceLeDiff]

theorem blockEffect_lch (t : State) : run (blockEffect 0x16) t =
    run (block [resetBlock 0x06 fun o => o == blkCommitOff 0x60000, deriveLch, lgAllIdle]) t := rfl

theorem blockEffect_mdma (t : State) : run (blockEffect 0x08) t =
    run (block [mdmaStop, resetBlock 0x0B headerKept, each (List.range 16) fun c => .act (.chan c {})]) t := rfl

/-- What the block's reset has of its record. -/
structure Recorded (src : Nat) (t : State) : Prop where
  busy : t.f F.RST_BLOCK_STAT_busy = 1
  refused : t.f F.RST_BLOCK_STAT_refused = 0
  source : t.f F.RST_BLOCK_STAT_source = src % 2 ^ 7
  resets : t.fault.resets = [src]

/-- The effect of a block's reset leaves its record alone. -/
theorem blockEffect_recorded {src : Nat} (hs : s.ok = true) (hr : s.fault.resets = []) : Recorded src (run (blockEffect src) (run (blockBegin src) s)) := by
  have ht := run_ok (blockBegin src) s hs
  have hstat : (run (blockEffect src) (run (blockBegin src) s)).reg R.RST_BLOCK_STAT = (run (blockBegin src) s).reg R.RST_BLOCK_STAT :=
    run_reg_frame _ _ (blockEffect_spares untouched_RST_BLOCK_STAT src) _ (State.ok_regs_sorted ht)
  have hfault := run_fault_of (s := run (blockBegin src) s) (blockEffect_kinds src) (by decide +kernel)
  exact ⟨(congrArg (bits · 9 9) hstat).trans (blockBegin_busy src s hs trivial), (congrArg (bits · 8 8) hstat).trans (blockBegin_refused src s hs trivial),
    (congrArg (bits · 6 0) hstat).trans (blockBegin_source src s hs trivial), by rw [hfault, blockBegin_fault, hr]; rfl⟩

theorem blockReset_acts {path : Path} {source : BitVec 7} {go : Bool} (hs : s.ok = true) (hg : Granted path R.RST_BLOCK s) (hr : s.fault.resets = [])
    (hd : s.domOn (portDomain 9) = true) (hp : (s.port 9).resetting = false) :
    Acts (.blockReset path source go) s fun u =>
      (go = false → u.f F.RST_BLOCK_source = source.toNat ∧ OnlyWords [R.RST_BLOCK] s u) ∧
      (go = true → resettable source.toNat = false → u.f F.RST_BLOCK_STAT_refused = 1 ∧ u.raised R.RST_EVENT 1 = true ∧ OnlyWords [R.RST_BLOCK, R.RST_BLOCK_STAT, R.RST_EVENT] s u) ∧
      (go = true → resettable source.toNat = true → chipSource source.toNat = false → u.f F.RST_BLOCK_STAT_busy = 1 ∧ u.f F.RST_BLOCK_STAT_refused = 0 ∧ u.f F.RST_BLOCK_STAT_source = source.toNat ∧ u.fault.resets = [source.toNat]) ∧
      (go = true → source.toNat = 0x49 → (u.port 9).resetting = true) ∧
      (go = true → source.toNat = 0x16 → ∀ g : Fin 16, u.f (F.LCH_LG_STAT_state g) = lgIdle) ∧
      (go = true → source.toNat = 0x08 → ∀ c : Fin 16, u.mcState c = mcOff) ∧
      Keeps (resetParts ++ [.frames]) s u := by
  have hlt : source.toNat % 2 ^ 7 = source.toNat := Nat.mod_eq_of_lt source.isLt
  have hok : ∀ src, (run (blockBegin src) s).ok = true := fun src => run_ok _ s hs
  refine acts_wrote (fun _ => blockWrite source.toNat go) hg rfl ⟨fun h => ?_, fun h h1 => ?_, fun h h1 h2 => ?_, fun h h1 => ?_, fun h h1 => ?_, fun h h1 => ?_,
    keeps_of (blockWrite_kinds _ _) hs _⟩ <;> subst h
  · rw [blockWrite_idle]
    refine ⟨(ensures_setF (by decide) s hs trivial).trans hlt, fun off hoff => ?_⟩
    exact run_reg_frame off (setF F.RST_BLOCK_source source.toNat) (spares_setF.2 fun e => hoff (List.mem_singleton.2 e.symm)) s (State.ok_regs_sorted hs)
  · rw [blockWrite_refused h1]
    exact ⟨blockRefuse_refused _ s hs trivial, blockRefuse_event _ s hs trivial, blockRefuse_only hs⟩
  · rw [blockWrite_begins h1 h2 hr]
    obtain ⟨hb, hrf, hsrc, hres⟩ := blockEffect_recorded (src := source.toNat) hs hr
    exact ⟨hb, hrf, hsrc.trans hlt, hres⟩
  · rw [h1, blockWrite_begins (by decide) (by decide) hr]
    have hdom : (run (blockBegin 0x49) s).domOn (portDomain 9) = true := by
      have : (run (blockBegin 0x49) s).reg R.PWR_DOM_STAT = s.reg R.PWR_DOM_STAT :=
        run_reg_frame _ _ (blockBegin_spares (by decide) (by decide)) s (State.ok_regs_sorted hs)
      exact (congrArg (fun w => bitOf (bits w 23 0) (portDomain 9)) this).trans hd
    rw [blockEffect_port hdom]
    exact portResetBegin_resets (hok _) (by rw [State.port, blockBegin_ports]; exact hp)
  · rw [h1, blockWrite_begins (by decide) (by decide) hr, blockEffect_lch]
    exact fun g => lchReset_idle g _ (hok _) trivial
  · rw [h1, blockWrite_begins (by decide) (by decide) hr, blockEffect_mdma]
    exact fun c => mdmaReset_off c _ (hok _) trivial

/-! BLOCK_RESET_END. -/

/-- The end of the reset of a block, up to its own part. -/
def blockEnds (src : Nat) (one : Bool) (q : Prog) : Prog :=
  block [updFault fun x => { x with resets := x.resets.erase src }, when one (setF F.RST_BLOCK_STAT_busy 0), raise R.RST_EVENT 0, q]

/-- The watchdog starts (R539). -/
def wdogStart (now : Nat) : Prog := updFault fun x => { x with wdog := some now }

/-- The reset of the packet engine ends. -/
theorem blockResetEnd_packet (hc : s.fault.resets.contains 0x0A = true) :
    run (blockResetEnd 0x0A) s = run (blockEnds 0x0A (s.fault.resets.length == 1) .skip) s := by
  simp only [blockResetEnd, blockEnds, run_read, hc, when, if_true, Nat.reduceLeDiff, Nat.reduceEqDiff, false_and, if_false]

/-- The reset of the Gaffer ends. -/
theorem blockResetEnd_gaffer (hc : s.fault.resets.contains 0x09 = true) :
    run (blockResetEnd 0x09) s = run (blockEnds 0x09 (s.fault.resets.length == 1) (wdogStart s.now)) s := by
  simp only [blockResetEnd, blockEnds, wdogStart, run_read, hc, when, if_true, Nat.reduceLeDiff, Nat.reduceEqDiff, false_and, if_false]

section
variable {src : Nat} {one : Bool} {q : Prog}

/-- The parts and words of the end, where the block's own part changes the collector alone. -/
theorem blockEnds_kinds (hq : Prog.All (Act.among 0x8000000) q) : Prog.All (Act.among 0xa00000000000000000008000010) (blockEnds src one q) :=
  ⟨(updFault_kinds _).mono (by decide), all_when_i (setF_kinds _ _ (lies_RST_BLOCK_STAT (tb rfl))), raise_kinds _ _ (tb rfl) (lies_RST_EVENT (tb rfl)),
    hq.mono (by decide), trivial⟩

theorem blockEnds_only (hq : ∀ off, q.Spares off) (hs : s.ok = true) : OnlyWords [R.RST_BLOCK_STAT, R.RST_EVENT] s (run (blockEnds src one q) s) := by
  intro off hoff
  simp only [List.mem_cons, List.not_mem_nil, or_false, not_or] at hoff
  exact run_reg_frame off (blockEnds src one q) ⟨spares_updFault, all_when_i (spares_setF.2 (Ne.symm hoff.1)), spares_raise.2 (Ne.symm hoff.2),
    hq off, trivial⟩ s (State.ok_regs_sorted hs)

theorem blockEnds_event (hq : ∀ off, q.Spares off) : (blockEnds src one q).Ensures fun t => t.raised R.RST_EVENT 0 = true :=
  ensures_later <| ensures_later <| ensures_now (raised_raise (by decide)) <| maintains_reg (J := fun w => bitOf w.toNat 0 = true) ⟨hq _, trivial⟩

theorem blockEnds_busy (hq : ∀ off, q.Spares off) : (blockEnds src true q).Ensures fun t => t.f F.RST_BLOCK_STAT_busy = 0 :=
  ensures_later <| ensures_now (ensures_setF (F := F.RST_BLOCK_STAT_busy)) <| maintains_f ⟨spares_raise.2 (by decide), hq _, trivial⟩

/-- What the collector holds where the block's own part keeps a fact of it. -/
theorem blockEnds_resets (hq : ∀ t, (run q t).fault.resets = t.fault.resets) (s : State) :
    (run (blockEnds src one q) s).fault.resets = s.fault.resets.erase src := by
  simp only [blockEnds, run_block_cons, run_block_nil, hq]
  rw [run_fault_of (raise_kinds (K := 0x800000000000000000000000010) _ _ (tb rfl) (lies_RST_EVENT (tb rfl))) (by decide)]
  cases one <;> simp

theorem blockEnds_wdog (now : Nat) (s : State) : (run (blockEnds src one (wdogStart now)) s).fault.wdog = some now := by
  simp only [blockEnds, wdogStart, run_block_cons, run_block_nil, run_updFault, apply_fault]

/-- The end of a block's reset. -/
theorem blockEnds_acts (hk : Prog.All (Act.among 0x8000000) q) (hq : ∀ off, q.Spares off) (hr : ∀ t, (run q t).fault.resets = t.fault.resets) (hs : s.ok = true) :
    let u := run (blockEnds src (s.fault.resets.length == 1) q) s
    u.raised R.RST_EVENT 0 = true ∧ u.fault.resets = s.fault.resets.erase src ∧ (s.fault.resets = [src] → u.f F.RST_BLOCK_STAT_busy = 0) ∧
      OnlyWords [R.RST_BLOCK_STAT, R.RST_EVENT] s u ∧ Keeps [.windows, .collector] s u := by
  refine ⟨blockEnds_event hq s hs trivial, blockEnds_resets hr s, fun h => ?_, blockEnds_only hq hs, keeps_of (blockEnds_kinds hk) hs _⟩
  rw [h]
  exact blockEnds_busy hq s hs trivial

end

theorem blockResetEnd_acts {source : BitVec 7} (hs : s.ok = true) (hc : s.fault.resets.contains source.toNat = true)
    (h : source.toNat = 0x09 ∨ source.toNat = 0x0A) :
    Acts (.blockResetEnd source) s fun u =>
      u.raised R.RST_EVENT 0 = true ∧ u.fault.resets = s.fault.resets.erase source.toNat ∧ (s.fault.resets = [source.toNat] → u.f F.RST_BLOCK_STAT_busy = 0) ∧
      (source.toNat = 0x09 → u.fault.wdog = some s.now) ∧ OnlyWords [R.RST_BLOCK_STAT, R.RST_EVENT] s u ∧ Keeps [.windows, .collector] s u := by
  refine acts_finish (blockResetEnd source.toNat) rfl ?_
  rcases h with h | h <;> rw [h] at hc ⊢
  · rw [blockResetEnd_gaffer hc]
    obtain ⟨h1, h2, h3, h4, h5⟩ := blockEnds_acts (src := 0x09) (updFault_kinds _) (fun _ => spares_updFault) (q := wdogStart s.now) (fun _ => rfl) hs
    exact ⟨h1, h2, h3, fun _ => blockEnds_wdog _ s, h4, h5⟩
  · rw [blockResetEnd_packet hc]
    obtain ⟨h1, h2, h3, h4, h5⟩ := blockEnds_acts (src := 0x0A) (q := .skip) trivial (fun _ => trivial) (fun _ => rfl) hs
    exact ⟨h1, h2, h3, fun h => absurd h (by decide), h4, h5⟩

end Sys2Proof.Machine

namespace Sys2Proof.Proofs
open Sys2Proof Sys2Proof.Machine

/-- Settles O35: a start begins with the reset of the main rails and records its cause; where the rails are up it comes up at
once; the effect of a block's reset leaves its record alone. -/
theorem powerOnAndResets : Obligations.PowerOnAndResets := by
  unfold Obligations.PowerOnAndResets
  refine ⟨fun headcfg bootsrc testMode flash _ hs hv hf => ?_, fun _ hs hv ho h1 h2 => vaonFall_acts hs hv ho h1 h2,
    fun _ hs h1 h2 h3 hd => mainRailLoss_acts hs h1 h2 h3 hd, fun _ hs hv hd hn => resetN_acts hs hv hd hn,
    fun _ hs h1 h2 => resetNRelease_acts hs h1 h2, fun _ _ _ _ hs hg => chipReset_acts hs hg,
    fun _ _ _ _ hs hg hr hd hp => blockReset_acts hs hg hr hd hp, fun _ _ hs hc h => blockResetEnd_acts hs hc h⟩
  subst hf
  exact powerOn_acts headcfg bootsrc testMode hs hv

end Sys2Proof.Proofs
end

section
/-!
SUPPORT. Accesses to the register space (R41, R42, R46): an aligned word access of any path is well formed, a write of a word
acts as the one write of that word, a read of a word as the one read, and a 64-bit access of a head is two of them.
-/
set_option Elab.async false
namespace Sys2Proof.Machine

variable {path off addr data : Nat} {s : State} {w : Word}

/-! Words. -/

/-- Every path may move a whole aligned word (R41, R42). -/
theorem badAccess_word {write : Bool} (h : addr % 4 = 0) : badAccess path addr 4 write = false := by
  simp [badAccess, h]

/-- A head may move an aligned pair of words (R41). -/
theorem badAccess_pair {write : Bool} {h : Head} (ha : addr % 8 = 0) : badAccess h addr 8 write = false := by
  simp [badAccess, ha]
  omega

theorem registerWrite_word (h : addr % 4 = 0) : registerWrite path addr 4 data s = wordThen path addr (BitVec.ofNat 32 data) s .next := by
  simp [registerWrite, badAccess_word h]

theorem registerRead_word {u v : Word × Word × Word} (h : addr % 4 = 0) : registerRead path addr 4 u v s = finish (regRead path addr u) s := by
  simp [registerRead, badAccess_word h]

/-- A word that would change an RV field stops the machine (R53). -/
theorem wordThen_breaks {k : State → Host.Outcome State Fault Refusal} (h : s.breaksRv path off w = true) :
    wordThen path off w s k = .fault (.reservedField off) := by
  simp [wordThen, h]

/-- Any other is written. -/
theorem wordThen_writes (h : s.breaksRv path off w = false) :
    wordThen path off w s .next = finish (regWrite path off w) s := by
  simp [wordThen, h, finish]

/-- Further words follow where the word was written. -/
theorem wordThen_then (k : State → Host.Outcome State Fault Refusal) :
    wordThen path off w s k = match wordThen path off w s .next with
      | .next t => k t
      | o => o := by
  unfold wordThen
  split <;> rfl

/-- The word of 64 bits of data that hold no more. -/
theorem word_of_data : BitVec.ofNat 32 (BitVec.ofNat 64 w.toNat).toNat = w := by
  have := w.isLt
  rw [BitVec.toNat_ofNat, Nat.mod_eq_of_lt (by omega), BitVec.ofNat_toNat, BitVec.setWidth_eq]

/-- The second word of an aligned pair. -/
theorem toNat_add_four {a : BitVec 26} (h : a.toNat % 8 = 0) : (a + 4).toNat = a.toNat + 4 := by
  have := a.isLt
  rw [BitVec.toNat_add, show BitVec.toNat (4 : BitVec 26) = 4 from rfl]
  omega

/-! Writes. -/

/-- A write that the checks stop does the same whatever it would have written (R46). -/
theorem run_access_congr {p q : Prog} (h : s.judge path off true = .granted → run p s = run q s) :
    run (access path off p) s = run (access path off q) s := by
  simp only [access, run_read]
  split
  next hg => exact h hg
  all_goals rfl

/-- A granted write outside the always-on blocks is at once (R50, R68). -/
theorem grantedWrite_now (h : off < 0x160000 ∨ 0x180000 ≤ off) : grantedWrite path off w = writeWord path off w :=
  if_neg (by omega)

/-- An SQ register is a register of a table, in the normal view: the block headers have none (R45, R60). -/
theorem isSq_iff : isSq off = true ↔
    isShadow off = false ∧ ∃ l, tableReg off = some l ∧ (l.fields.any fun f => decide (f.acc = .sq)) = true := by
  have header : ((headerFields off).any fun f => decide (f.acc = .sq)) = false := by
    unfold headerFields
    split <;> decide
  unfold isSq fieldsAt
  rw [Bool.and_eq_true, Bool.not_eq_true']
  refine and_congr_right fun _ => ?_
  cases tableReg off with
  | some l => simp
  | none => cases isHeader off <;> simp_all

theorem plainOff_of_normal (h : isShadow off = false) : plainOff off = off := by simp [plainOff, h]

/-- The write of an SQ register is the write-back of its SEQ (R62). -/
theorem run_writeWord_sq (h : isSq off = true) : run (writeWord path off w) s = run (sqWriteBack off w (lasting off)) s := by
  obtain ⟨hn, l, hl, hf⟩ := isSq_iff.1 h
  simp only [writeWord, run_read, plainOff_of_normal hn, hl, hf, if_true, hn, Bool.not_false, run_when]

/-- A write-back looks at SEQ alone (R62). -/
theorem sqWriteBack_congr {w' : Word} {still : State → Nat} (h : bits w 31 24 = bits w' 31 24) :
    sqWriteBack off w still = sqWriteBack off w' still := by
  simp only [sqWriteBack, h]

/-- A write of an SQ register changes no RV field: it is no write of its bits (R62). -/
theorem breaksRv_sq (h : isSq off = true) : s.breaksRv path off w = false := by
  obtain ⟨hn, l, hl, hf⟩ := isSq_iff.1 h
  have : ((fieldsAt off).any fun f => decide (f.acc = .sq)) = true := by simpa [fieldsAt, hl] using hf
  simp only [State.breaksRv, plainOff_of_normal hn, this, Bool.not_true, Bool.and_false, Bool.false_and]

/-- The SEQ of the word that SEQ_WRITE_BACK writes. -/
theorem bits_seq (seq : BitVec 8) : bits (BitVec.ofNat 32 (seq.toNat * 2 ^ 24)) 31 24 = seq.toNat := by
  have := seq.isLt
  simp only [bits, BitVec.toNat_ofNat]
  omega

/-- A write of an SQ register outside the always-on blocks is SEQ_WRITE_BACK of its SEQ (R62). -/
theorem run_regWrite_sq {seq : BitVec 8} (hq : isSq off = true) (ho : off < 0x160000 ∨ 0x180000 ≤ off) (h : seq.toNat = bits w 31 24) :
    run (regWrite path off w) s = run (when (isSq off) (regWrite path off (BitVec.ofNat 32 (seq.toNat * 2 ^ 24)))) s := by
  simp only [hq, run_when, if_true, regWrite, grantedWrite_now ho]
  refine run_access_congr fun _ => ?_
  rw [run_writeWord_sq hq, run_writeWord_sq hq, sqWriteBack_congr (h.symm.trans (bits_seq seq).symm)]

/-- The row of GLB.COMMIT is one word whose write is a command of its own. -/
theorem commit_row : ∃ l, tableReg R.GLB_COMMIT = some l ∧ l.row.id = .GLB_COMMIT ∧ isWide l = false ∧
    (l.fields.any fun f => decide (f.acc = .sq)) = false := by
  have h : ((tableReg R.GLB_COMMIT).any fun l => decide (l.row.id = .GLB_COMMIT ∧ isWide l = false ∧
    (l.fields.any fun f => decide (f.acc = .sq)) = false)) = true := by decide +kernel
  obtain ⟨l, hl, hp⟩ := (Option.any_eq_true _ _).1 h
  exact ⟨l, hl, of_decide_eq_true hp⟩

theorem run_writeWord_commit : run (writeWord path R.GLB_COMMIT w) s = run (commit path w.toNat) s := by
  obtain ⟨l, hl, hid, hw, hf⟩ := commit_row
  have hn : isShadow R.GLB_COMMIT = false := by decide
  have hc : s.closed path R.GLB_COMMIT l = none := by simp only [State.closed, hid]
  have hk : control path R.GLB_COMMIT l w = some (commit path w.toNat) := by simp only [control, hid]
  simp only [writeWord, run_read, plainOff_of_normal hn, hl, hf, hc, hw, hn, hk, Bool.false_eq_true, if_false]

end Sys2Proof.Machine
end

section
/-!
PROOFS. O60: a write is its command, a frame its words.
-/
set_option Elab.async false
namespace Sys2Proof.Machine

variable {a : Nat} {s : State} {w : Word}

/-! Frames of the keeper. -/

/-- The words of a frame are written one after another, the first as the keeper's own write of it (R563). -/
theorem writeAll_cons {l : List Word} (h : a < 2 ^ 24) :
    writeAll a (w :: l) s = match exec (.registerWrite .keeper (BitVec.ofNat 26 (4 * a)) 4 (BitVec.ofNat 64 w.toNat)) s with
      | .next t => writeAll (a + 1) l t
      | o => o := by
  have ha : (BitVec.ofNat 26 (4 * a)).toNat = 4 * a := by rw [BitVec.toNat_ofNat]; omega
  have he : exec (.registerWrite .keeper (BitVec.ofNat 26 (4 * a)) 4 (BitVec.ofNat 64 w.toNat)) s = wordThen 6 (4 * a) w s .next := by
    show registerWrite 6 (BitVec.ofNat 26 (4 * a)).toNat 4 _ s = _
    rw [ha, registerWrite_word (by omega), word_of_data]
  rw [he, ← wordThen_then (writeAll (a + 1) l)]
  rfl

/-- A frame that nothing rejects is answered, and then its words are written (R563). -/
theorem writeFrame_accepted {cmd : Byte} {crc midByte : Bool} {bytes : List Byte} (hv : s.power.vaon = true)
    (h : s.writeFaults cmd crc bytes midByte = []) :
    writeFrame cmd crc bytes midByte s = writeAll (beNat (bytes.take 3)) (frameWords ((bytes.drop 3).take (bytes.length - 3 - b2n crc)))
      (s.received cmd crc bytes midByte) := by
  simp [writeFrame, hv, h, State.received]

end Sys2Proof.Machine

namespace Sys2Proof.Proofs
open Sys2Proof Sys2Proof.Machine

/-- Settles O60: each clause is one path of the keeper's word write, and the words of an accepted frame go by its recursion. -/
theorem writesAgree : Obligations.WritesAgree := by
  unfold Obligations.WritesAgree
  refine ⟨fun path a d s h4 hrv => ?_, fun path w s hrv => ?_, fun path off w s h4 hq ho => ?_, fun bytes midByte s hv hf => ?_,
    fun bytes midByte s hv hf => ?_, fun a w l s ha => writeAll_cons ha⟩
  · exact (registerWrite_word h4).trans (wordThen_breaks hrv)
  · show registerWrite (pathCode path) R.GLB_COMMIT 4 (BitVec.ofNat 64 w.toNat).toNat s = finish _ s
    rw [registerWrite_word (by decide), word_of_data, wordThen_writes hrv]
    exact congrArg (fun t => Host.Outcome.next (aftermath t)) (run_access_congr fun _ => run_writeWord_commit)
  · show registerWrite (pathCode path) off.toNat 4 (BitVec.ofNat 64 w.toNat).toNat s = finish _ s
    rw [registerWrite_word h4, word_of_data, wordThen_writes (breaksRv_sq hq)]
    refine congrArg (fun t => Host.Outcome.next (aftermath t)) (run_regWrite_sq hq ho ?_)
    rw [BitVec.toNat_ofNat]
    exact Nat.mod_eq_of_lt (bits_lt w 31 24)
  · refine (writeFrame_accepted hv hf).trans ?_
    rw [show b2n false = 0 from rfl, Nat.sub_zero, ← List.length_drop, List.take_length]
  · refine (writeFrame_accepted hv hf).trans ?_
    rw [List.dropLast_eq_take, List.length_drop]
    rfl

end Sys2Proof.Proofs
end

section
/-!
SUPPORT. The rows of the register tables: which row an offset finds, what holds of every field, and which words have
triplicated fields (R70): stored words of the normal view, none of them computed.
-/
set_option Elab.async false
namespace Sys2Proof.Machine

variable {off : Nat} {l : Loc} {f : FieldRow}

/-- The row that a list finds holds the offset. -/
theorem findIn_row {rows : List RegRow} (h : findIn rows off = some l) : l.row ∈ rows ∧ l.row.has off = true := by
  induction rows with
  | nil => cases h
  | cons r t ih =>
    unfold findIn at h
    split at h
    next hb =>
      split at h
      next ix w hl =>
        cases h
        exact ⟨List.mem_cons_self, by simp [RegRow.has, hb, hl]⟩
      next => exact (ih h).imp_left (List.mem_cons_of_mem _)
    next => exact (ih h).imp_left (List.mem_cons_of_mem _)

/-- The tables of each kind of block. -/
def blockRows : List (List RegRow) :=
  [rowsGlb, rowsPwr, rowsClk, rowsRst, rowsFlt, rowsTb, rowsLch, rowsMld, rowsFur, rowsCal, rowsDiag, rowsMdma,
   rowsFspi, rowsHspi, rowsCel, rowsPkt, rowsHead, rowsBnd, rowsCane, rowsWake, rowsAon, rowsPort, rowsQp]

theorem allRows_eq : allRows = blockRows.flatten := by decide +kernel

theorem rowsAt_block (off : Nat) : rowsAt off = [] ∨ rowsAt off ∈ blockRows := by
  unfold rowsAt blockRows
  split
  case h_21 =>
    split_ifs
    case neg => exact .inl rfl
    all_goals exact .inr (by simp only [List.mem_cons, true_or, or_true])
  all_goals exact .inr (by simp only [List.mem_cons, true_or, or_true])

theorem rowsAt_subset {r : RegRow} (h : r ∈ rowsAt off) : r ∈ allRows := by
  rw [allRows_eq]
  rcases rowsAt_block off with hb | hb
  · rw [hb] at h
    cases h
  · exact List.mem_flatten_of_mem hb h

/-- The register of a table at an offset is that of a row of the map. -/
theorem tableReg_row (h : tableReg off = some l) : l.row ∈ allRows ∧ l.row.has off = true := by
  unfold tableReg at h
  split at h
  · exact (findIn_row h).imp_left rowsAt_subset
  · cases h

theorem mem_fields (h : f ∈ l.fields) : ∃ w ∈ l.row.words, f ∈ w := by
  unfold Loc.fields at h
  rcases hw : l.row.words[l.word]? with _ | w
  · simp [hw] at h
  · exact ⟨w, List.mem_of_getElem? hw, by simpa [hw] using h⟩

/-- A word's field is one of a row of the map, or of a block header. -/
theorem mem_fieldsAt (h : f ∈ fieldsAt off) :
    (∃ l, tableReg off = some l ∧ f ∈ l.fields) ∨ (tableReg off = none ∧ f ∈ headerFields off) := by
  unfold fieldsAt at h
  split at h
  next l hl => exact .inl ⟨l, hl, h⟩
  next hn =>
    split at h
    · exact .inr ⟨hn, h⟩
    · cases h

/-- Every field of the map is well placed in its word. -/
theorem rows_fields_ok : ∀ r ∈ allRows, ∀ w ∈ r.words, ∀ f ∈ w, f.lo ≤ f.hi ∧ f.hi < 32 := by decide +kernel

theorem headerFields_plain (h : f ∈ headerFields off) : (f.lo ≤ f.hi ∧ f.hi < 32) ∧ f.tv = false := by
  revert h f
  unfold headerFields
  split <;> decide

theorem fieldsAt_ok (h : f ∈ fieldsAt off) : f.lo ≤ f.hi ∧ f.hi < 32 := by
  rcases mem_fieldsAt h with ⟨l, hl, hf⟩ | ⟨-, hf⟩
  · obtain ⟨w, hw, hfw⟩ := mem_fields hf
    exact rows_fields_ok _ (tableReg_row hl).1 w hw f hfw
  · exact (headerFields_plain hf).1

/-! Triplicated fields. -/

/-- The registers that have triplicated fields. -/
def tvIds : List RegId :=
  [.GLB_MODE, .PWR_MODE_REQ, .CLK_SEL_CORE, .CLK_SEL_LINE, .FLT_REACT, .MLD_GOV_TXEN, .MLD_GOV_AMP, .MLD_GOV_WAKE, .MLD_GOV_TIME,
   .MLD_GOV_STEP, .MLD_GOV_WIN_BASE, .MLD_GOV_WIN_LIMIT, .MLD_GOV_WIN_FLAGS, .WAKE_IN_CFG, .WAKE_PARK_DET, .WAKE_PGROUP,
   .WAKE_TABLE, .WAKE_FWD_MASK, .AON_MODE, .AON_SLCK_CFG]

/-- They lie below the block headers. -/
theorem tv_rows : ∀ r ∈ allRows, (∃ w ∈ r.words, ∃ f ∈ w, f.tv = true) →
    r.id ∈ tvIds ∧ r.base % 0x10000 + reach r.dims r.words.length ≤ 0x7F00 := by decide +kernel

/-- The word at an offset has a triplicated field. -/
def hasTv (off : Nat) : Bool := (fieldsAt off).any fun f => f.tv

theorem hasTv_row (h : hasTv off = true) : ∃ l, tableReg off = some l ∧ l.row.id ∈ tvIds ∧ off % 0x10000 < 0x7F00 := by
  obtain ⟨f, hf, ht⟩ := List.any_eq_true.1 h
  rcases mem_fieldsAt hf with ⟨l, hl, hf⟩ | ⟨-, hf⟩
  · obtain ⟨hr, hh⟩ := tableReg_row hl
    obtain ⟨w, hw, hfw⟩ := mem_fields hf
    obtain ⟨hid, hlow⟩ := tv_rows _ hr ⟨w, hw, f, hfw, ht⟩
    simp only [RegRow.has, Bool.and_eq_true, decide_eq_true_eq] at hh
    have := locate_reach hh.2
    exact ⟨l, hl, hid, by omega⟩
  · rw [(headerFields_plain hf).2] at ht
    cases ht

/-- No register with triplicated fields is computed when it is read. -/
theorem computed_of_tv (h : l.row.id ∈ tvIds) (s : State) (path : Nat) : s.computed path l = none := by
  simp only [tvIds, List.mem_cons, List.not_mem_nil, or_false] at h
  rcases h with h | h | h | h | h | h | h | h | h | h | h | h | h | h | h | h | h | h | h | h <;> simp only [State.computed, h]

theorem isHeader_of_low (h : off % 0x10000 < 0x7F00) : isHeader off = false := by
  have : off % 0x10000 ≠ 0x7F00 ∧ off % 0x10000 ≠ 0x7F04 ∧ off % 0x10000 ≠ 0x7F08 ∧ off % 0x10000 ≠ 0x7F0C := by omega
  simp [isHeader, this]

/-- A read finds the stored word, or the copy of it (R67). -/
theorem wordAt_of_tv (h : hasTv off = true) (hn : isShadow off = false) (s : State) (path : Nat) : s.wordAt path off =
    if s.undefinedBundle off then 0 else if fromCopy path off then s.acCopy.getD off (resetWord off) else s.reg off := by
  obtain ⟨l, hl, hid, hlow⟩ := hasTv_row h
  simp only [State.wordAt, plainOff_of_normal hn, hn, isHeader_of_low hlow, hl, computed_of_tv hid, Bool.false_eq_true, if_false]

end Sys2Proof.Machine
end

section
/-!
SUPPORT. Reads of the register space (R46, R74): a read answers by what the checks find, latches the upper words of a wide
value, and but for its votes writes no register.
-/
set_option Elab.async false
namespace Sys2Proof.Machine

variable {path off addr size : Nat} {s : State} {k : Word → Bool → Prog} {u v : Word × Word × Word} {p : Prog}

/-! What a read can do. -/

/-- The actions of a read whose votes find nothing: a snapshot, a message, an answer. -/
def Act.reading : Act → Prop
  | .snap .. | .emit _ | .out _ => True
  | _ => False

theorem reading_only (hp : Prog.All Act.reading p) (hs : s.ok = true) : OnlyWords [] s (run p s) := fun _ _ =>
  run_reg_frame _ p (hp.imp fun a ha hw => by
    cases a with
    | snap | emit | out => exact hw
    | _ => exact ha) s (State.ok_regs_sorted hs)

theorem reading_keeps (hp : Prog.All Act.reading p) (hs : s.ok = true) : Keeps [.wide, .sent, .messages] s (run p s) :=
  keeps_of (K := 0x140000008) (hp.imp fun a ha => by
    cases a with
    | snap | emit | out => exact tb rfl
    | _ => exact ha.elim) hs _

/-! Snapshots. -/

/-- A read of the lowest word of a wide value latches the upper ones (R74). -/
def latch (path off : Nat) (s : State) : Prog :=
  ifSome (tableReg (plainOff off)) fun l => when (isWide l && l.word == 0)
    (each (List.range (l.row.words.length - 1)) fun i => .act (.snap (snapKey path (off + 4 * (i + 1))) (s.wordAt path (off + 4 * (i + 1)))))

theorem latch_reading (path off : Nat) (s : State) : Prog.All Act.reading (latch path off s) :=
  all_ifSome_i fun _ => all_when_i (all_each_i fun _ => trivial)

/-- What a read finds, and what it latches. -/
theorem run_readWord (f : Word → Prog) : run (readWord path off f) s = run (f (s.found path off)) (run (latch path off s) s) := by
  simp only [readWord, run_read, State.found, latch]
  cases tableReg (plainOff off) with
  | none => rfl
  | some l =>
    by_cases hw : isWide l = true
    · by_cases h0 : l.word = 0 <;> simp [hw, h0]
    · simp [hw]

theorem snapKey_ne {i j : Nat} (h : i ≠ j) : snapKey path (off + 4 * i) ≠ snapKey path (off + 4 * j) := by
  unfold snapKey
  omega

/-- Words latched one by one: each is found again under its key. -/
theorem snaps_each (g : Nat → Word) (l : List Nat) {i : Nat} {t : State}
    (h : i ∈ l ∨ t.snaps.get? (snapKey path (off + 4 * (i + 1))) = some (g i)) :
    (run (each l fun j => .act (.snap (snapKey path (off + 4 * (j + 1))) (g j))) t).snaps.get? (snapKey path (off + 4 * (i + 1))) = some (g i) := by
  induction l generalizing t with
  | nil => simpa using h
  | cons j l ih =>
    rw [run_each_cons]
    refine ih ?_
    simp only [run_act, apply_snaps]
    by_cases hij : i = j
    · exact .inr (hij ▸ SMap.get?_put_same ..)
    · rw [SMap.get?_put_ne _ (snapKey_ne (by omega))]
      simpa [hij] using h

/-- After a read of the lowest word of a wide value the snapshot holds its upper words (R74). -/
theorem latch_snaps {l : Loc} (hl : tableReg (plainOff off) = some l) (hw : isWide l = true) (h0 : l.word = 0) {i : Nat} (hi : 0 < i)
    (hn : i < l.row.words.length) :
    (run (latch path off s) s).snaps.getD (snapKey path (off + 4 * i)) 0 = s.wordAt path (off + 4 * i) := by
  obtain ⟨j, rfl⟩ : ∃ j, i = j + 1 := ⟨i - 1, by omega⟩
  simp only [latch, hl, run_ifSome_some, hw, h0, beq_self_eq_true, Bool.and_self, run_when, if_true, SMap.getD]
  rw [snaps_each (fun j => s.wordAt path (off + 4 * (j + 1))) _ (.inl (List.mem_range.2 (by omega)))]
  rfl

/-! Checks. -/

/-- A read whose votes find nothing. -/
def calmFetch (path off : Nat) (k : Word → Bool → Prog) : Prog := .read fun s =>
  match s.judge path off false with
  | .off log => .seq (when log (accessOff path off)) (k 0xD0FFD0FF true)
  | .refused => .seq (denied path off false) (k 0 false)
  | .silent => k 0 false
  | .granted => .seq (latch path off s) (k (s.found path off) false)

theorem calmFetch_reading (h : ∀ w o, Prog.All Act.reading (k w o)) : Prog.All Act.reading (calmFetch path off k) := fun s => by
  dsimp only
  split
  · exact ⟨all_when_i fun _ => trivial, h _ _⟩
  · exact ⟨fun _ => trivial, h _ _⟩
  · exact h _ _
  · exact ⟨latch_reading _ _ _, h _ _⟩

/-- No copy of a word has flipped, or it has no triplicated field. -/
def Calm (off : Nat) (u : Word × Word × Word) (s : State) : Prop := (u = (0, 0, 0) ∧ s.tv.get? off = none) ∨ hasTv off = false

/-- Copies that agree are not voted. -/
theorem vote_calm (h : Calm off u s) : run (vote off u) s = s := by
  simp only [vote, run_read, run_when]
  rw [if_neg]
  rw [Bool.and_eq_true, not_and_or]
  rcases h with ⟨rfl, hv⟩ | h
  · right
    simp [SMap.getD, hv]
  · left
    have : (fieldsAt off).filter (·.tv) = [] := by
      rw [List.filter_eq_nil_iff]
      exact List.any_eq_false.1 h
    simp [this]

theorem run_fetch_calm (h : Calm off u s) : run (fetch path off u k) s = run (calmFetch path off k) s := by
  simp only [fetch, calmFetch, run_read]
  cases s.judge path off false with
  | granted => simp only [run_seq, run_when, vote_calm h, ite_self, run_readWord]
  | _ => rfl

/-- The answer of a read of some bytes: those of the word that is read (R42). -/
def answer (path addr size : Nat) (w : Word) : Prog := send (.readData path addr (BitVec.ofNat 32 (w.toNat / 256 ^ (addr % 4) % 256 ^ size)))

theorem answer_word {w : Word} (h : addr % 4 = 0) : answer path addr 4 w = send (.readData path addr w) := by
  have := w.isLt
  rw [answer, h, pow_zero, Nat.div_one, Nat.mod_eq_of_lt (by omega), BitVec.ofNat_toNat, BitVec.setWidth_eq]

theorem regRead_answers (hr : s.ready = true ∨ path = 6) (h : addr % 4 = 0) :
    run (regRead path addr u) s = run (fetch path addr u fun w _ => answer path addr 4 w) s := by
  have : (s.ready || path == 6) = true := by simpa using hr
  simp only [regRead, run_read, run_when, this, if_true, answer_word h]

theorem narrowRead_answers (hr : s.ready = true ∨ path = 6) :
    run (narrowRead path addr size u) s = run (fetch path (addr / 4 * 4) u fun w _ => answer path addr size w) s := by
  have : (s.ready || path == 6) = true := by simpa using hr
  simp only [narrowRead, run_read, run_when, this, if_true]
  rfl

/-- A read of a word or less is the read of its word, and answers with the bytes addressed (R42). -/
theorem registerRead_answers (hz : size = 1 ∨ size = 2 ∨ size = 4) (hb : badAccess path addr size false = false)
    (hr : s.ready = true ∨ path = 6) :
    registerRead path addr size u v s = finish (fetch path (addr / 4 * 4) u fun w _ => answer path addr size w) s := by
  have h8 : size ≠ 8 := by omega
  by_cases h4 : size = 4
  · subst h4
    have ha : addr % 4 = 0 := by simpa [badAccess] using hb
    have he : addr / 4 * 4 = addr := by omega
    rw [registerRead_word ha, he, finish, regRead_answers hr ha, finish]
  · simp only [registerRead, hb, h8, h4, Bool.false_eq_true, if_false, finish, narrowRead_answers hr]

theorem sent_answer (w : Word) (s : State) :
    Sent (.readData path addr (BitVec.ofNat 32 (w.toNat / 256 ^ (addr % 4) % 256 ^ size))) s (run (answer path addr size w) s) :=
  sent_send _ s

/-! Each answer of the checks. -/

theorem calmFetch_granted (h : s.judge path off false = .granted) :
    run (calmFetch path off k) s = run (k (s.found path off) false) (run (latch path off s) s) := by
  simp only [calmFetch, run_read, h, run_seq]

theorem calmFetch_refused (h : s.judge path off false = .refused) :
    run (calmFetch path off k) s = run (k 0 false) (run (denied path off false) s) := by
  simp only [calmFetch, run_read, h, run_seq]

theorem calmFetch_silent (h : s.judge path off false = .silent) : run (calmFetch path off k) s = run (k 0 false) s := by
  simp only [calmFetch, run_read, h]

theorem calmFetch_off {log : Bool} (h : s.judge path off false = .off log) :
    run (calmFetch path off k) s = run (k 0xD0FFD0FF true) (if log then run (accessOff path off) s else s) := by
  simp only [calmFetch, run_read, h, run_seq, run_when]

theorem latch_kinds (path off : Nat) (s : State) : Prog.All (Act.among 0x8) (latch path off s) :=
  all_ifSome_i fun _ => all_when_i (all_each_i fun _ => all_leaf)

theorem latch_intake (path off : Nat) (s t : State) : (run (latch path off s) t).intake = t.intake :=
  run_intake_of (latch_kinds path off s) rfl rfl

theorem latch_out (path off : Nat) (s t : State) : (run (latch path off s) t).out = t.out :=
  run_out_of (latch_kinds path off s) rfl

/-- An answer raises nothing. -/
theorem answer_intake (w : Word) (t : State) : (run (answer path addr size w) t).intake = t.intake := rfl

/-- An answer is sent whatever the checks did before it. -/
theorem Sent.answer {t : State} (w : Word) (h : t.out = s.out) :
    Sent (.readData path addr (BitVec.ofNat 32 (w.toNat / 256 ^ (addr % 4) % 256 ^ size))) s (run (answer path addr size w) t) := by
  obtain ⟨l, hl, hm⟩ := sent_answer (path := path) (addr := addr) (size := size) w t
  exact ⟨l, h ▸ hl, hm⟩

end Sys2Proof.Machine
end

section
/-!
SUPPORT. Votes (R70, R71): where one copy has flipped, every triplicated field is rewritten with the majority, which is what
the register holds, and each field that disagreed is reported.
-/
set_option Elab.async false
namespace Sys2Proof.Machine

variable {off : Nat} {f : FieldRow} {u : Word × Word × Word} {s t : State} {w : Word}

/-! Writing what is there. -/

theorem SMap.del_of_get?_none {α : Type} {m : SMap α} {k : Nat} (h : m.get? k = none) : m.del k = m := by
  induction m with
  | nil => rfl
  | cons e m ih =>
    obtain ⟨j, v⟩ := e
    simp only [SMap.get?] at h
    split_ifs at h with h1 h2
    · simp [SMap.del, h1, h2]
    · simp [SMap.del, h1, h2, ih h]

theorem SMap.put_of_get?_some {α : Type} {m : SMap α} {k : Nat} {v : α} (h : m.get? k = some v) : m.put k v = m := by
  induction m with
  | nil => cases h
  | cons e m ih =>
    obtain ⟨j, w⟩ := e
    simp only [SMap.get?] at h
    split_ifs at h with h1 h2
    · cases h
      simp [SMap.put, h1]
    · simp [SMap.put, h1, h2, ih h]

/-- A map that lists no default takes what it holds without a change. -/
theorem SMap.putD_getD {α : Type} [DecidableEq α] {m : SMap α} {k : Nat} {d : α} (h : ∀ e ∈ m, e.1 = k → e.2 ≠ d) : m.putD k (m.getD k d) d = m := by
  unfold SMap.putD SMap.getD
  cases hk : m.get? k with
  | none => simp [SMap.del_of_get?_none hk]
  | some v =>
    have hv : v ≠ d := h _ (SMap.mem_of_get? hk) rfl
    simp [hv, SMap.put_of_get?_some hk]

/-- A word written with what it holds is no change, where its copies agree. -/
theorem apply_reg_self (hs : s.ok = true) (hv : s.tv.get? off = none) : apply (.reg off (s.reg off)) s = s := by
  have hr : regsOk s.regs = true := by
    simp only [State.ok, Bool.and_eq_true] at hs
    exact hs.1.2
  have hd : s.regs.putD off (s.reg off) (resetWord off) = s.regs :=
    SMap.putD_getD fun e he hk => hk ▸ ((regsOk_iff _).1 hr).2 e he
  simp only [apply, hd, SMap.del_of_get?_none hv]

theorem run_setF_self {F : Field} (hs : s.ok = true) (hv : s.tv.get? F.off = none) (hF : F.lo ≤ F.hi ∧ F.hi < 32) :
    run (setF F (bits (s.reg F.off) F.hi F.lo)) s = s := by
  rw [run_setF, putBits_self _ hF.1 hF.2, apply_reg_self hs hv]

/-! One flipped copy. -/

/-- Two of the three copies are as they were. -/
def OneFlip (u : Word × Word × Word) : Prop := u.1 = 0 ∧ u.2.1 = 0 ∨ u.1 = 0 ∧ u.2.2 = 0 ∨ u.2.1 = 0 ∧ u.2.2 = 0

/-- Bits of a field have flipped in some copy. -/
def flipped (u : Word × Word × Word) (f : FieldRow) : Bool := bits u.1 f.hi f.lo != 0 || bits u.2.1 f.hi f.lo != 0 || bits u.2.2 f.hi f.lo != 0

/-- The copies of a word, with what has flipped in each. -/
def flip (w : Word) (u : Word × Word × Word) : Word × Word × Word := (w ^^^ u.1, w ^^^ u.2.1, w ^^^ u.2.2)

theorem bits_xor (x y : Word) (hi lo : Nat) : bits (x ^^^ y) hi lo = bits x hi lo ^^^ bits y hi lo := by
  refine Nat.eq_of_testBit_eq fun j => ?_
  rw [Nat.testBit_xor, testBit_bits, testBit_bits, testBit_bits, BitVec.toNat_xor, Nat.testBit_xor]
  cases decide (j < hi + 1 - lo) <;> simp

/-- A field reads otherwise where one of its bits has flipped. -/
theorem bits_xor_eq {x y : Word} {hi lo : Nat} : bits (x ^^^ y) hi lo = bits x hi lo ↔ bits y hi lo = 0 := by
  rw [bits_xor]
  refine ⟨fun h => ?_, fun h => by rw [h, Nat.xor_zero]⟩
  have := congrArg (bits x hi lo ^^^ ·) h
  simpa [← Nat.xor_assoc] using this

theorem bits_eq_xor {x y : Word} {hi lo : Nat} : bits x hi lo = bits (x ^^^ y) hi lo ↔ bits y hi lo = 0 := eq_comm.trans bits_xor_eq

theorem majority_of_two {a b c v : Nat} (h : a = v ∧ b = v ∨ a = v ∧ c = v ∨ b = v ∧ c = v) : majority a b c = some v := by
  unfold majority
  rcases h with ⟨rfl, rfl⟩ | ⟨rfl, rfl⟩ | ⟨rfl, hc⟩
  · simp
  · simp
  · by_cases h : a = b <;> simp [h, hc]

/-- The majority of the copies is what the register holds. -/
theorem majority_flip (h : OneFlip u) : majority (bits (flip w u).1 f.hi f.lo) (bits (flip w u).2.1 f.hi f.lo) (bits (flip w u).2.2 f.hi f.lo) =
    some (bits w f.hi f.lo) := by
  refine majority_of_two ?_
  unfold flip
  rcases h with ⟨h1, h2⟩ | ⟨h1, h2⟩ | ⟨h1, h2⟩ <;> simp [h1, h2]

/-- The copies disagree where one has flipped. -/
theorem disagree_flip (h : OneFlip u) :
    (!(bits (flip w u).1 f.hi f.lo == bits (flip w u).2.1 f.hi f.lo && bits (flip w u).1 f.hi f.lo == bits (flip w u).2.2 f.hi f.lo)) = flipped u f := by
  have h0 : bits 0#32 f.hi f.lo = 0 := by simp [bits]
  unfold flip flipped
  rcases h with ⟨h1, h2⟩ | ⟨h1, h2⟩ | ⟨h1, h2⟩ <;> rw [Bool.eq_iff_iff, h1, h2] <;> simp [bits_xor_eq, bits_eq_xor, h0]

/-! The vote. -/

/-- The report of a field that disagreed (R71). -/
def disagrees (off : Nat) (u : Word × Word × Word) (src : Nat) (f : FieldRow) : Prog := when (flipped u f) (emit src kTmrDisagree 1 0 off)

/-- The vote of a field leaves the register as it is. -/
theorem run_voteField (h : OneFlip u) (hs : s.ok = true) (hv : s.tv.get? off = none) (hf : f.lo ≤ f.hi ∧ f.hi < 32) :
    run (voteField off f (flip (s.reg off) u)) s = run (disagrees off u (srcOf s off) f) s := by
  simp only [voteField, run_read, majority_flip h, run_block_cons, run_block_nil, disagree_flip h]
  rw [run_setF_self (F := ⟨off, f.hi, f.lo⟩) hs hv hf]
  rfl

/-- A report changes nothing that a vote looks at. -/
theorem disagrees_quiet (src : Nat) : ∃ l, run (disagrees off u src f) s = { s with intake := s.intake ++ l } := by
  unfold disagrees
  rw [run_when]
  split
  · exact ⟨_, rfl⟩
  · exact ⟨[], by simp⟩

theorem run_voteFields (h : OneFlip u) (fs : List FieldRow) (hf : ∀ f ∈ fs, f.lo ≤ f.hi ∧ f.hi < 32) (hs : s.ok = true) (hv : s.tv.get? off = none) :
    run (each fs fun f => voteField off f (flip (s.reg off) u)) s = run (each fs (disagrees off u (srcOf s off))) s := by
  induction fs generalizing s with
  | nil => rfl
  | cons f fs ih =>
    rw [run_each_cons, run_each_cons, run_voteField h hs hv (hf f List.mem_cons_self)]
    obtain ⟨l, hl⟩ := disagrees_quiet (off := off) (u := u) (f := f) (s := s) (srcOf s off)
    have ht := run_ok (disagrees off u (srcOf s off) f) s hs
    rw [hl] at ht ⊢
    exact ih (fun g hg => hf g (List.mem_cons_of_mem _ hg)) ht hv

/-- Where one copy has flipped, the vote of a word reports the fields that disagreed. -/
theorem run_vote (h : OneFlip u) (hs : s.ok = true) (hv : s.tv.get? off = none) (hd : ((fieldsAt off).any fun f => f.tv && flipped u f) = true) :
    run (vote off u) s = run (each ((fieldsAt off).filter (·.tv)) (disagrees off u (srcOf s off))) s := by
  obtain ⟨f, hf, ht⟩ := List.any_eq_true.1 hd
  rw [Bool.and_eq_true] at ht
  have hm : f ∈ (fieldsAt off).filter (·.tv) := List.mem_filter.2 ⟨hf, ht.1⟩
  have hlost : (((fieldsAt off).filter (·.tv)).any fun f =>
      (majority (bits (flip (s.reg off) u).1 f.hi f.lo) (bits (flip (s.reg off) u).2.1 f.hi f.lo) (bits (flip (s.reg off) u).2.2 f.hi f.lo)).isNone) = false := by
    simp [majority_flip h]
  have hne : flip (s.reg off) u ≠ (s.reg off, s.reg off, s.reg off) := fun he => by
    have := disagree_flip (w := s.reg off) (f := f) h
    rw [he, ht.2] at this
    simp at this
  have hgo : (!((fieldsAt off).filter (·.tv)).isEmpty && decide (flip (s.reg off) u ≠ (s.reg off, s.reg off, s.reg off))) = true := by
    simp [hne, List.ne_nil_of_mem hm]
  have hc : s.tv.getD off (s.reg off, s.reg off, s.reg off) = (s.reg off, s.reg off, s.reg off) := by simp [SMap.getD, hv]
  simp only [vote, run_read, hc]
  change run (when (!((fieldsAt off).filter (·.tv)).isEmpty && decide (flip (s.reg off) u ≠ (s.reg off, s.reg off, s.reg off)))
    (block [each ((fieldsAt off).filter (·.tv)) fun f => voteField off f (flip (s.reg off) u), when (((fieldsAt off).filter (·.tv)).any fun f =>
      (majority (bits (flip (s.reg off) u).1 f.hi f.lo) (bits (flip (s.reg off) u).2.1 f.hi f.lo) (bits (flip (s.reg off) u).2.2 f.hi f.lo)).isNone)
      _])) s = _
  rw [hgo, hlost, run_when, if_pos rfl, run_block_cons, run_block_cons, run_when, run_block_nil,
    run_voteFields h _ (fun f hf => fieldsAt_ok (List.mem_filter.1 hf).1) hs hv]
  rfl

/-- What the vote does to the state: messages, one of each field that disagreed. -/
theorem reports_quiet (fs : List FieldRow) (src : Nat) : ∃ l, run (each fs (disagrees off u src)) s = { s with intake := s.intake ++ l } ∧
    ∀ f ∈ fs, flipped u f = true → (⟨src, kTmrDisagree, 1, 0, off⟩ : Msg) ∈ l := by
  induction fs generalizing s with
  | nil => exact ⟨[], by simp, by simp⟩
  | cons f fs ih =>
    obtain ⟨l, hl, hm⟩ := ih (s := run (disagrees off u src f) s)
    rw [run_each_cons, hl]
    by_cases hf : flipped u f = true
    · refine ⟨⟨src, kTmrDisagree, 1, 0, off⟩ :: l, ?_, ?_⟩
      · simp [disagrees, hf, apply]
      · simp only [List.mem_cons, forall_eq_or_imp]
        exact ⟨fun _ => .inl trivial, fun g hg hx => .inr (hm g hg hx)⟩
    · refine ⟨l, ?_, ?_⟩
      · simp [disagrees, hf]
      · simp only [List.mem_cons, forall_eq_or_imp]
        exact ⟨fun h => absurd h hf, hm⟩

theorem vote_repairs (h : OneFlip u) (hs : s.ok = true) (hv : s.tv.get? off = none) (hd : ((fieldsAt off).any fun f => f.tv && flipped u f) = true) :
    ∃ l, run (vote off u) s = { s with intake := s.intake ++ l } ∧ (⟨srcOf s off, kTmrDisagree, 1, 0, off⟩ : Msg) ∈ l := by
  obtain ⟨l, hl, hm⟩ := reports_quiet (off := off) (u := u) (s := s) ((fieldsAt off).filter (·.tv)) (srcOf s off)
  obtain ⟨f, hf, ht⟩ := List.any_eq_true.1 hd
  rw [Bool.and_eq_true] at ht
  exact ⟨l, (run_vote h hs hv hd).trans hl, hm f (List.mem_filter.2 ⟨hf, ht.1⟩) ht.2⟩

end Sys2Proof.Machine
end

section
/-!
PROOFS. O46: what a read returns, what it repairs, what it drops.
-/
set_option Elab.async false
namespace Sys2Proof.Machine

variable {path : Path} {addr : BitVec 26} {size off : Nat} {upset upsetHigh : Upset} {s : State} {u : Word × Word × Word}

theorem path_keeper (h : s.ready = true ∨ path = .keeper) : s.ready = true ∨ pathCode path = 6 := h.imp_right fun h => by rw [h]; rfl

/-! No copy has flipped. -/

/-- What a read answers with, as the checks find (R46). -/
theorem calmRead_acts (hs : s.ok = true) (hz : size = 1 ∨ size = 2 ∨ size = 4) (hb : badAccess (pathCode path) addr.toNat size false = false)
    (hr : s.ready = true ∨ path = .keeper) (hc : Calm (addr.toNat / 4 * 4) (copiesOf upset) s) :
    Acts (.registerRead path addr size upset upsetHigh) s fun u =>
      (s.judge (pathCode path) (addr.toNat / 4 * 4) false = .granted → Sent (.readData (pathCode path) addr.toNat (BitVec.ofNat 32 ((s.found (pathCode path) (addr.toNat / 4 * 4) : Word).toNat / 256 ^ (addr.toNat % 4) % 256 ^ size))) s u ∧ u.intake = s.intake) ∧
      (s.judge (pathCode path) (addr.toNat / 4 * 4) false = .refused → Sent (.readData (pathCode path) addr.toNat (BitVec.ofNat 32 ((0 : Word).toNat / 256 ^ (addr.toNat % 4) % 256 ^ size))) s u ∧ Raised ⟨srcOf s (addr.toNat / 4 * 4), kAccessDenied, 0, (pathCode path), (addr.toNat / 4 * 4)⟩ s u) ∧
      (s.judge (pathCode path) (addr.toNat / 4 * 4) false = .silent → Sent (.readData (pathCode path) addr.toNat (BitVec.ofNat 32 ((0 : Word).toNat / 256 ^ (addr.toNat % 4) % 256 ^ size))) s u ∧ u.intake = s.intake) ∧
      (s.judge (pathCode path) (addr.toNat / 4 * 4) false = .off true → Sent (.readData (pathCode path) addr.toNat (BitVec.ofNat 32 ((0xD0FFD0FF : Word).toNat / 256 ^ (addr.toNat % 4) % 256 ^ size))) s u ∧ Raised ⟨srcOf s (addr.toNat / 4 * 4), kAccessOff, 0, (pathCode path), (addr.toNat / 4 * 4)⟩ s u) ∧
      (s.judge (pathCode path) (addr.toNat / 4 * 4) false = .off false → Sent (.readData (pathCode path) addr.toNat (BitVec.ofNat 32 ((0xD0FFD0FF : Word).toNat / 256 ^ (addr.toNat % 4) % 256 ^ size))) s u ∧ u.intake = s.intake) ∧
      OnlyWords [] s u ∧ Keeps [.wide, .sent, .messages] s u := by
  refine ⟨run (calmFetch (pathCode path) (addr.toNat / 4 * 4) fun w _ => answer (pathCode path) addr.toNat size w) s, ?_, ?_⟩
  · rw [← run_fetch_calm hc]
    exact registerRead_answers hz hb (path_keeper hr)
  have hread := calmFetch_reading (path := pathCode path) (off := addr.toNat / 4 * 4) (k := fun w _ => answer (pathCode path) addr.toNat size w) fun _ _ => trivial
  refine ⟨fun h => ?_, fun h => ?_, fun h => ?_, fun h => ?_, fun h => ?_, reading_only hread hs, reading_keeps hread hs⟩
  · rw [calmFetch_granted h]
    exact ⟨.answer _ (latch_out _ _ _ _), latch_intake _ _ _ _⟩
  · rw [calmFetch_refused h]
    exact ⟨.answer _ rfl, raised_emit _ _ _ _ _ _⟩
  · rw [calmFetch_silent h]
    exact ⟨.answer _ rfl, rfl⟩
  · rw [calmFetch_off h]
    exact ⟨.answer _ rfl, raised_emit _ _ _ _ _ _⟩
  · rw [calmFetch_off h]
    exact ⟨.answer _ rfl, rfl⟩

/-! One copy has flipped. -/

theorem disagrees_kinds (off : Nat) (u : Word × Word × Word) (src : Nat) (f : FieldRow) : Prog.All (Act.among 0x40000000) (disagrees off u src f) :=
  all_when_i all_leaf

/-- The reports of a vote, then the answer. -/
def repairedRead (path off : Nat) (u : Word × Word × Word) (s : State) : Prog :=
  .seq (each ((fieldsAt off).filter (·.tv)) (disagrees off u (srcOf s off))) (answer path off 4 (s.wordAt path off))

theorem repairedRead_kinds (path off : Nat) (u : Word × Word × Word) (s : State) : Prog.All (Act.among 0x140000000) (repairedRead path off u s) :=
  ⟨all_each_i fun _ => (disagrees_kinds ..).sub, all_leaf⟩

/-- What the read of a word finds after reports have been raised. -/
theorem wordAt_reported {path : Nat} (ht : hasTv off = true) (hn : isShadow off = false) (l : List Msg) :
    State.wordAt { s with intake := l } path off = s.wordAt path off := by
  rw [wordAt_of_tv ht hn, wordAt_of_tv ht hn]
  rfl

theorem run_regRead_flipped {path : Nat} (hs : s.ok = true) (h4 : off % 4 = 0) (hr : s.ready = true ∨ path = 6) (hn : isShadow off = false)
    (hg : s.judge path off false = .granted) (hv : s.tv.get? off = none) (h : OneFlip u)
    (hd : ((fieldsAt off).any fun f => f.tv && flipped u f) = true) (hw : ((tableReg off).all fun l => !isWide l) = true) :
    run (regRead path off u) s = run (repairedRead path off u s) s := by
  have ht : hasTv off = true := by
    obtain ⟨f, hf, hb⟩ := List.any_eq_true.1 hd
    exact List.any_eq_true.2 ⟨f, hf, (Bool.and_eq_true _ _ ▸ hb).1⟩
  obtain ⟨l, hl, hid, hlow⟩ := hasTv_row ht
  have hwide : isWide l = false := by simpa [hl] using hw
  obtain ⟨ms, hms, -⟩ := vote_repairs h hs hv hd
  have hfound : (run (vote off u) s).found path off = s.wordAt path off := by
    simp only [State.found, plainOff_of_normal hn, hl, hwide, Bool.false_and, Bool.false_eq_true, if_false]
    rw [hms, wordAt_reported ht hn]
  have hlatch : ∀ t : State, run (latch path off t) t = t := fun t => by
    simp [latch, plainOff_of_normal hn, hl, hwide]
  rw [regRead_answers hr h4]
  simp only [fetch, run_read, hg, run_seq, hn, Bool.not_false, run_when, if_true, run_readWord, hlatch, hfound, repairedRead]
  rw [run_vote h hs hv hd]

theorem repairedRead_acts (hs : s.ok = true) (h4 : addr.toNat % 4 = 0) (hr : s.ready = true ∨ path = .keeper) (hn : isShadow addr.toNat = false)
    (hg : s.judge (pathCode path) addr.toNat false = .granted) (hv : s.tv.get? addr.toNat = none) (h : OneFlip (copiesOf upset))
    (hd : ((fieldsAt addr.toNat).any fun f => f.tv && flipped (copiesOf upset) f) = true) (hw : ((tableReg addr.toNat).all fun l => !isWide l) = true) :
    Acts (.registerRead path addr 4 upset upsetHigh) s fun u =>
      Raised ⟨srcOf s addr.toNat, kTmrDisagree, 1, 0, addr.toNat⟩ s u ∧ SMap.get? u.tv addr.toNat = none ∧
      Sent (.readData (pathCode path) addr.toNat (s.wordAt (pathCode path) addr.toNat)) s u ∧ OnlyWords [] s u ∧ Keeps [.votes, .sent, .messages] s u := by
  refine ⟨run (repairedRead (pathCode path) addr.toNat (copiesOf upset) s) s, ?_, ?_⟩
  · rw [← run_regRead_flipped hs h4 (path_keeper hr) hn hg hv h hd hw]
    exact registerRead_word h4
  obtain ⟨ms, hms, hm⟩ := vote_repairs h hs hv hd
  have hrun : run (repairedRead (pathCode path) addr.toNat (copiesOf upset) s) s =
      run (answer (pathCode path) addr.toNat 4 (s.wordAt (pathCode path) addr.toNat)) { s with intake := s.intake ++ ms } := by
    rw [repairedRead, run_seq, ← run_vote h hs hv hd, hms]
  have hk := keeps_of (repairedRead_kinds (pathCode path) addr.toNat (copiesOf upset) s) hs [.votes, .sent, .messages]
  rw [hrun] at hk ⊢
  refine ⟨⟨ms, rfl, hm⟩, hv, ?_, fun _ _ => rfl, hk⟩
  rw [answer_word h4]
  exact sent_send _ _

/-! A read that no path may make. -/

def droppedRead (path off : Nat) : Prog :=
  block [badlyFormed path off false, .read fun t => when t.ready (withFree fun w => send (.readData path off w))]

theorem droppedRead_kinds (path off : Nat) : Prog.All (Act.among 0x340000000) (droppedRead path off) :=
  ⟨fun _ => all_when_i fun _ => tb rfl, fun _ => all_when_i fun _ => ⟨tb rfl, tb rfl⟩, trivial⟩

theorem droppedRead_spares (path o : Nat) : (droppedRead path o).Spares off :=
  ⟨fun _ => all_when_i fun _ => id, fun _ => all_when_i fun _ => ⟨id, id⟩, trivial⟩

/-- It is logged and answered with a free value where the register side answers (R42, R46; log entries 26, 38). -/
theorem droppedRead_acts (hs : s.ok = true) (hb : badAccess (pathCode path) addr.toNat size false = true) :
    Acts (.registerRead path addr size upset upsetHigh) s fun u =>
      (s.ready = false → u = s) ∧
      (s.ready = true → Raised ⟨srcOf s addr.toNat, kAccessDenied, 0, (pathCode path), addr.toNat⟩ s u ∧ u.free = s.free + 1) ∧
      OnlyWords [] s u ∧ Keeps [.messages, .sent, .draws] s u := by
  refine acts_finish (droppedRead (pathCode path) addr.toNat) (if_pos hb) ⟨fun h => ?_, fun h => ?_, fun off _ => ?_,
    keeps_of (droppedRead_kinds _ _) hs _⟩
  · simp [droppedRead, badlyFormed, h]
  · have ht : (run (denied (pathCode path) addr.toNat false) s).ready = true := h
    simp only [droppedRead, badlyFormed, run_block_cons, run_block_nil, run_read, run_when, h, if_true, ht]
    exact ⟨⟨_, rfl, List.mem_singleton.2 rfl⟩, rfl⟩
  · exact run_reg_frame off _ (droppedRead_spares _ _) s (State.ok_regs_sorted hs)

end Sys2Proof.Machine

namespace Sys2Proof.Proofs
open Sys2Proof Sys2Proof.Machine

/-- Settles O46: a read whose vote finds nothing only latches and answers; where one copy has flipped, the vote repairs it first and the read is that of the repaired state. -/
theorem registerReads : Obligations.RegisterReads := by
  unfold Obligations.RegisterReads
  refine ⟨fun path addr size upset upsetHigh s hs hz hb hr hc => calmRead_acts hs hz hb hr (hc.imp_left fun h => ⟨by rw [h.1]; rfl, h.2⟩),
    fun path addr size upset upsetHigh s hs hz h4 hr hn hg hv h hd hw => ?_,
    fun path addr size upset upsetHigh s hs hb => droppedRead_acts hs hb⟩
  subst hz
  exact repairedRead_acts hs h4 hr hn hg hv h hd hw

end Sys2Proof.Proofs
end

section
/-!
PROOFS. O57: a 64-bit access of a head is two of its words; a wide value reads consistently.
-/
set_option Elab.async false
namespace Sys2Proof.Machine

variable {h : Head} {a : BitVec 26} {s : State}

theorem exec_read_word {path : Path} {x y : Upset} (h4 : a.toNat % 4 = 0) :
    exec (.registerRead path a 4 x y) s = finish (regRead (pathCode path) a.toNat (copiesOf x)) s := registerRead_word h4

/-- A 64-bit read is that of the low word and then, in what follows it, that of the high word (R76). -/
theorem read_pair {x y z : Upset} (h8 : a.toNat % 8 = 0) : exec (.registerRead (.head h) a 8 x y) s =
    match exec (.registerRead (.head h) a 4 x z) s with
    | .next t => exec (.registerRead (.head h) (a + 4) 4 y z) t
    | o => o := by
  have hlow : a.toNat % 4 = 0 := by omega
  have hhigh : (a + 4).toNat % 4 = 0 := by rw [toNat_add_four h8]; omega
  have hpair : exec (.registerRead (.head h) a 8 x y) s =
      finish (block [regRead h a.toNat (copiesOf x), pump, settle, regRead h (a.toNat + 4) (copiesOf y)]) s := by
    show registerRead h a.toNat 8 (copiesOf x) (copiesOf y) s = _
    simp only [registerRead, badAccess_pair h8, Bool.false_eq_true, if_false, if_true]
  rw [hpair, exec_read_word hlow]
  show _ = exec _ (aftermath (run (regRead h a.toNat (copiesOf x)) s))
  rw [exec_read_word hhigh, toNat_add_four h8]
  rfl

/-- A 64-bit write is that of the low word and then that of the high word, where the low one did not stop the machine (R76). -/
theorem write_pair {d : BitVec 64} (h8 : a.toNat % 8 = 0) : exec (.registerWrite (.head h) a 8 d) s =
    match exec (.registerWrite (.head h) a 4 (BitVec.ofNat 64 (d.toNat % 2 ^ 32))) s with
    | .next t => exec (.registerWrite (.head h) (a + 4) 4 (BitVec.ofNat 64 (d.toNat / 2 ^ 32))) t
    | o => o := by
  have hd := d.isLt
  have hlow : exec (.registerWrite (.head h) a 4 (BitVec.ofNat 64 (d.toNat % 2 ^ 32))) s = wordThen h a.toNat (BitVec.ofNat 32 d.toNat) s .next := by
    refine (registerWrite_word (by omega)).trans ?_
    congr 1
    apply BitVec.eq_of_toNat_eq
    simp only [BitVec.toNat_ofNat]
    omega
  have hhigh : ∀ t, exec (.registerWrite (.head h) (a + 4) 4 (BitVec.ofNat 64 (d.toNat / 2 ^ 32))) t =
      wordThen h (a.toNat + 4) (BitVec.ofNat 32 (d.toNat / 2 ^ 32)) t .next := fun t => by
    refine (registerWrite_word (by rw [toNat_add_four h8]; omega)).trans ?_
    rw [toNat_add_four h8, BitVec.toNat_ofNat, Nat.mod_eq_of_lt (by omega)]
    rfl
  have hpair : exec (.registerWrite (.head h) a 8 d) s = wordThen h a.toNat (BitVec.ofNat 32 d.toNat) s fun t =>
      wordThen h (a.toNat + 4) (BitVec.ofNat 32 (d.toNat / 2 ^ 32)) t .next := by
    show registerWrite h a.toNat 8 d.toNat s = _
    simp only [registerWrite, badAccess_pair h8, Bool.false_eq_true, if_false, if_true]
  rw [hpair, hlow, wordThen_then]
  cases wordThen h a.toNat (BitVec.ofNat 32 d.toNat) s .next with
  | next t => exact (hhigh t).symm
  | _ => rfl

/-- The read of a word whose copies agree. -/
theorem run_regRead_granted {path : Nat} {off : Nat} (hr : s.ready = true) (h4 : off % 4 = 0) (hg : s.judge path off false = .granted)
    (hv : s.tv.get? off = none) :
    run (regRead path off (0, 0, 0)) s = run (answer path off 4 (s.found path off)) (run (latch path off s) s) := by
  rw [regRead_answers (.inl hr) h4, run_fetch_calm (.inl ⟨rfl, hv⟩), calmFetch_granted hg]

end Sys2Proof.Machine

namespace Sys2Proof.Proofs
open Sys2Proof Sys2Proof.Machine

/-- Settles O57: the two words of an aligned pair pass the same checks, so the pair access falls into its two word accesses; a latched word is found again by the key it was put under. -/
theorem splitAccesses : Obligations.SplitAccesses := by
  unfold Obligations.SplitAccesses
  refine ⟨fun h a x y z s h8 => read_pair h8, fun h a d s h8 => write_pair h8, fun h a s l hr h8 hl hw h0 hg hv => ?_,
    fun h a s l hr h4 hl hw h0 hg hv => ?_⟩
  · refine acts_finish _ (exec_read_word (by omega)) fun i hi hn => ?_
    show (run (regRead h a.toNat (0, 0, 0)) s).snaps.getD _ 0 = _
    rw [run_regRead_granted hr (by omega) hg hv]
    exact latch_snaps hl hw h0 hi hn
  · refine acts_finish _ (exec_read_word h4) ?_
    show Sent _ s (run (regRead h a.toNat (0, 0, 0)) s)
    have hf : s.found h a.toNat = s.snaps.getD (snapKey h a.toNat) 0 := by simp [State.found, hl, hw, h0]
    rw [run_regRead_granted hr h4 hg hv, hf, answer_word h4]
    obtain ⟨l, hl, hm⟩ := sent_send (.readData h a.toNat (s.snaps.getD (snapKey h a.toNat) 0)) (run (latch h a.toNat s) s)
    exact ⟨l, (latch_out h a.toNat s s) ▸ hl, hm⟩

end Sys2Proof.Proofs
end

section
/-!
PROOFS. O47 fails: an SLCK edge on which a queued write lands is also the one on which WAKE takes what a remould left it (R109).
-/
set_option Elab.async false
namespace Sys2Proof.Machine

/-- What follows a command leaves the always-on copies as they are (R67). -/
theorem aftermath_acCopy (s : State) : (aftermath s).acCopy = s.acCopy :=
  (run_acCopy_of settle_kinds rfl).trans (run_acCopy_of pump_kinds rfl)

/-- A remould has left WAKE a section without ports in wake group 0, which until then holds two; a write of WAKE.EVENT_MASK is queued. -/
def wakeDueState : State :=
  run (block [setReg (R.WAKE_PGROUP 0) 5, updMld fun x => { x with wakeDue := true }, .act (.acPush ⟨4, R.WAKE_EVENT_MASK, 1⟩)]) State.reset

theorem wakeDueState_ok : wakeDueState.ok = true := run_ok _ _ (by decide +kernel)

theorem wakeDueState_group : wakeDueState.reg (R.WAKE_PGROUP 0) = 5 := by decide +kernel

/-- The queued write is a plain one. -/
theorem wakeDueState_plain : wakeDueState.acQueue = [⟨4, R.WAKE_EVENT_MASK, 1⟩] ∧ wakeDueState.clock.slck = true ∧
    wakeDueState.plain 4 R.WAKE_EVENT_MASK 1 = true := by decide +kernel

/-- The edge clears the group and lands the write; the copies show both. -/
theorem wakeDueState_lands : (run acWriteLand wakeDueState).acCopy = [(R.WAKE_EVENT_MASK, 1)] := by decide +kernel

end Sys2Proof.Machine

namespace Sys2Proof.Proofs
open Sys2Proof Sys2Proof.Machine

/-- Refutes O47: on the SLCK edge that lands a plain write of WAKE.EVENT_MASK, WAKE also takes the section a remould left it (R109), so WAKE.PGROUP changes beside the word written. -/
theorem not_landingAndVotes : ¬ Obligations.LandingAndVotes := by
  unfold Obligations.LandingAndVotes
  rintro ⟨-, -, h, -⟩
  obtain ⟨u, he, -, hcopy, hplain, -⟩ := h wakeDueState wakeDueState_ok
  obtain ⟨hq, hslck, hp⟩ := wakeDueState_plain
  have hmem : (⟨4, R.WAKE_EVENT_MASK, 1⟩ : AcWrite) ∈ wakeDueState.acQueue.head?.toList := by rw [hq]; exact List.mem_singleton.2 rfl
  have hend : aftermath (run acWriteLand wakeDueState) = aftermath u := Host.Outcome.next.inj he
  have hwords : aonWords u.regs = [(R.WAKE_EVENT_MASK, 1)] := by
    rw [← (hcopy _ hmem hslck).2, ← aftermath_acCopy u, ← hend, aftermath_acCopy, wakeDueState_lands]
  have hgroup : u.reg (R.WAKE_PGROUP 0) = 5 :=
    ((hplain _ hmem hslck hp).2 _ (by decide)).trans wakeDueState_group
  have hlisted : u.regs.get? (R.WAKE_PGROUP 0) = some 5 := by
    have : resetWord (R.WAKE_PGROUP 0) = 0 := by decide +kernel
    unfold State.reg SMap.getD at hgroup
    cases hr : u.regs.get? (R.WAKE_PGROUP 0) <;> simp_all
  have hin : (R.WAKE_PGROUP 0, (5 : Word)) ∈ aonWords u.regs :=
    List.mem_filter.2 ⟨SMap.mem_of_get? hlisted, by decide⟩
  rw [hwords] at hin
  exact absurd hin (by decide)

end Sys2Proof.Proofs
end

section
/-!
PROOFS. O48 fails: a block that the list of pending blocks names twice is pending still after it has applied.
-/
set_option Elab.async false
namespace Sys2Proof.Machine

/-- What follows a command leaves the open commits as they are. -/
theorem aftermath_commit (s : State) : (aftermath s).commit = s.commit :=
  (run_commit_of settle_kinds rfl).trans (run_commit_of pump_kinds rfl)

/-- BND is pending under two sequence numbers. -/
def pendingTwice : State := run (updCommit fun _ => { pend := [(blkBnd, 3), (blkBnd, 4)] }) State.reset

theorem pendingTwice_ok : pendingTwice.ok = true := run_ok _ _ (by decide +kernel)

theorem pendingTwice_waits : pendingTwice.bit F.FLT_STAT_safe = false ∧ pendingTwice.commit.pend.get? blkBnd = some 3 ∧
    pendingTwice.commit.rolls.get? blkBnd = none ∧ pendingTwice.cannotApply blkBnd = false := by decide +kernel

/-- Its boundary takes the first of the two. -/
theorem pendingTwice_applies : (run (outsideSafe (lateApply blkBnd)) pendingTwice).commit.pend.get? blkBnd = some 4 := by decide +kernel

end Sys2Proof.Machine

namespace Sys2Proof.Proofs
open Sys2Proof Sys2Proof.Machine

/-- Refutes O48: `State.ok` does not bound the list of pending blocks, and a block listed under two sequence numbers is pending still after it has applied. -/
theorem not_commits : ¬ Obligations.Commits := by
  unfold Obligations.Commits
  rintro ⟨-, h⟩
  obtain ⟨hsafe, hpend, hrolls, hcan⟩ := pendingTwice_waits
  obtain ⟨u, he, -, -, happly, -⟩ := h 84 pendingTwice pendingTwice_ok hsafe
  have hend : aftermath (run (outsideSafe (lateApply blkBnd)) pendingTwice) = aftermath u := Host.Outcome.next.inj he
  have hnone : u.commit.pend.get? blkBnd = none :=
    (happly 3 (Option.mem_toList.2 hpend) hrolls hcan (by decide) blkBnd (List.mem_singleton.2 rfl)).2.2.1
  rw [← aftermath_commit u, ← hend, aftermath_commit, pendingTwice_applies] at hnone
  cases hnone

end Sys2Proof.Proofs
end

section
/-!
SUPPORT. What every step keeps: a fact that each action keeps holds of the state after any command, and after a nanosecond
that passes.
-/
set_option Elab.async false
namespace Sys2Proof.Machine

/-- A fact of the next state, where there is one. -/
def Holds (P : State → Prop) : Host.Outcome State Fault Refusal → Prop
  | .next t => P t
  | .fault _ | .refused _ => True

section
variable {P : State → Prop} (h : ∀ a s, P s → P (apply a s)) {s : State}
include h

theorem aftermath_always (hs : P s) : P (aftermath s) := run_always h settle _ (run_always h pump _ hs)

theorem finish_always {p : Prog} (hs : P s) : Holds P (finish p s) := aftermath_always h (run_always h p _ hs)

/-- One word of a write, and what is done next. -/
theorem wordThen_always {path off : Nat} {w : Word} {k : State → Host.Outcome State Fault Refusal} (hk : ∀ t, P t → Holds P (k t))
    (hs : P s) : Holds P (wordThen path off w s k) := by
  unfold wordThen
  split
  · trivial
  · exact hk _ (aftermath_always h (run_always h _ _ hs))

theorem registerWrite_always {path addr size data : Nat} (hs : P s) : Holds P (registerWrite path addr size data s) := by
  unfold registerWrite
  split
  · exact finish_always h hs
  split
  · exact wordThen_always h (fun _ ht => wordThen_always h (fun _ hu => hu) ht) hs
  · exact wordThen_always h (fun _ ht => ht) hs

theorem registerRead_always {path addr size : Nat} {u v : Word × Word × Word} (hs : P s) : Holds P (registerRead path addr size u v s) := by
  unfold registerRead
  split
  · exact finish_always h hs
  split
  · exact finish_always h hs
  split <;> exact finish_always h hs

/-- The words of a frame, one after another. -/
theorem writeAll_always {a : Nat} {l : List Word} (hs : P s) : Holds P (writeAll a l s) := by
  induction l generalizing a s with
  | nil => exact hs
  | cons w t ih =>
    unfold writeAll
    split
    · trivial
    · exact ih (aftermath_always h (run_always h _ _ hs))

theorem writeFrame_always {cmd : Byte} {crc midByte : Bool} {bytes : List Byte} (hs : P s) : Holds P (writeFrame cmd crc bytes midByte s) := by
  have hr : P (aftermath (run (writeEnds cmd crc bytes midByte) s)) := aftermath_always h (run_always h _ _ hs)
  unfold writeFrame
  split
  · exact hs
  · dsimp only
    split
    · exact writeAll_always h hr
    · exact hr

/-- Every command but the accesses to the register space is one program with what follows it. -/
theorem exec_always (c : Instr) (hs : P s) : Holds P (exec c s) := by
  cases c
  case registerWrite => exact registerWrite_always h hs
  case registerRead => exact registerRead_always h hs
  case write => exact writeFrame_always h hs
  case writeCrc => exact writeFrame_always h hs
  all_goals exact finish_always h hs

/-- A step keeps what every action keeps, once the command is taken from the queue or the nanosecond has passed. -/
theorem step_always (htake : ∀ l, P { s with pending := l }) (htick : P { s with now := s.now + 1 }) : Holds P (step s) := by
  unfold step
  split
  · exact run_always h tick _ htick
  · exact exec_always h _ (htake _)

end

end Sys2Proof.Machine
end

section
/-!
PROOFS. O55: no action takes back a fuse (R91, R92, R94, R613).
-/
set_option Elab.async false
namespace Sys2Proof.Machine

/-- A key slot keeps its revocation, and once programmed its digest. -/
structure KeySlot.Kept (k k' : KeySlot) : Prop where
  revoked : k.revoked = true → k'.revoked = true
  programmed : k.programmed = true → k'.programmed = true ∧ k'.digest = k.digest

theorem KeySlot.Kept.refl (k : KeySlot) : k.Kept k := ⟨id, fun h => ⟨h, rfl⟩⟩

theorem KeySlot.Kept.trans {k l m : KeySlot} (h : k.Kept l) (h' : l.Kept m) : k.Kept m where
  revoked hr := h'.revoked (h.revoked hr)
  programmed hp := by
    obtain ⟨hl, hd⟩ := h.programmed hp
    obtain ⟨hm, hd'⟩ := h'.programmed hl
    exact ⟨hm, hd'.trans hd⟩

/-- No fuse of one OTP is taken back in another. -/
structure OtpX.Kept (o o' : OtpX) : Prop where
  lifecycle : o.lifecycle ≤ o'.lifecycle
  length : o'.keys.length = o.keys.length
  keys : ∀ (i : Nat) (k : KeySlot), o.keys[i]? = some k → ∃ k', o'.keys[i]? = some k' ∧ k.Kept k'

theorem OtpX.Kept.refl (o : OtpX) : o.Kept o := ⟨le_refl _, rfl, fun _ k h => ⟨k, h, .refl k⟩⟩

theorem OtpX.Kept.trans {o p q : OtpX} (h : o.Kept p) (h' : p.Kept q) : o.Kept q where
  lifecycle := h.lifecycle.trans h'.lifecycle
  length := h'.length.trans h.length
  keys i k hk := by
    obtain ⟨l, hl, hkl⟩ := h.keys i k hk
    obtain ⟨m, hm, hlm⟩ := h'.keys i l hl
    exact ⟨m, hm, hkl.trans hlm⟩

/-- The slots are changed one by one, each with its index. -/
theorem OtpX.Kept.of_each (o : OtpX) {g : KeySlot × Nat → KeySlot} (hg : ∀ (k : KeySlot) (i : Nat), k.Kept (g (k, i))) :
    o.Kept { o with keys := o.keys.zipIdx.map g } where
  lifecycle := le_refl _
  length := by simp
  keys i k hk := ⟨g (k, i), by simp [hk], hg k i⟩

/-- A fuse is blown in a blank slot only, and revocations and the lifecycle only grow. -/
theorem apply_otp_kept (a : Act) (s : State) : s.otp.Kept (apply a s).otp := by
  rw [apply_otp]
  split
  case h_1 i d =>
    refine .of_each _ fun k j => ?_
    dsimp only
    split
    next hc => exact ⟨id, fun hp => by simp [hp] at hc⟩
    next => exact .refl k
  case h_2 mask => exact .of_each _ fun k j => ⟨fun hr => by simp [hr], fun hp => ⟨hp, rfl⟩⟩
  case h_3 v => exact ⟨le_max_left _ _, rfl, fun _ k hk => ⟨k, hk, .refl k⟩⟩
  case h_4 l => exact ⟨le_refl _, rfl, fun _ k hk => ⟨k, hk, .refl k⟩⟩
  case h_5 => exact .refl _

theorem step_otp_kept (s : State) : Holds (fun t => s.otp.Kept t.otp) (step s) :=
  step_always (fun a t h => h.trans (apply_otp_kept a t)) (fun _ => .refl _) (.refl _)

end Sys2Proof.Machine

namespace Sys2Proof.Proofs
open Sys2Proof Sys2Proof.Machine

/-- Settles O55: every action keeps the fuses, and a step is made of actions. -/
theorem fusesArePermanent : Obligations.FusesArePermanent := by
  unfold Obligations.FusesArePermanent
  intro s t h
  have hk : Holds (fun t => s.otp.Kept t.otp) (step s) := step_otp_kept s
  rw [h] at hk
  obtain ⟨hlife, hlen, hkeys⟩ := hk
  refine ⟨hlife, hlen, fun i k hi => ?_⟩
  obtain ⟨k', hi', hkept⟩ := hkeys i k hi
  exact ⟨k', hi', hkept.revoked, hkept.programmed⟩

end Sys2Proof.Proofs
end

section
/-!
SUPPORT. What a block of small programs does: the words that it writes, the values that it leaves in their fields, the messages
that it emits.
-/
set_option Elab.async false
namespace Sys2Proof.Machine

variable {P Q R : State → Prop} {p : Prog} {t : List Prog} {K off : Nat} {s : State}

/-! The words that a program writes. -/

/-- A word that the action writes is one of those named. -/
def Act.inWords (offs : List Nat) : Act → Prop
  | .reg o _ => o ∈ offs
  | _ => True

/-- A program writes no words but those named. -/
abbrev Prog.Writes (offs : List Nat) (p : Prog) : Prop := Prog.All (Act.inWords offs) p

variable {offs : List Nat}

theorem Prog.Writes.spares (hp : p.Writes offs) (h : off ∉ offs) : p.Spares off :=
  hp.imp fun a ha hw => by
    cases a
    case reg o w => exact h ((show o = off from hw) ▸ ha)
    all_goals exact hw

theorem onlyWords_of (hp : p.Writes offs) (hs : s.ok = true) : OnlyWords offs s (run p s) := fun _ hoff =>
  run_reg_frame _ p (hp.spares hoff) s (State.ok_regs_sorted hs)

@[simp] theorem writes_setF {F : Field} {v : Nat} : (setF F v).Writes offs ↔ F.off ∈ offs :=
  ⟨fun h => h State.reset, fun h _ => h⟩
@[simp] theorem writes_raise {o b : Nat} : (raise o b).Writes offs ↔ o ∈ offs :=
  ⟨fun h => (h State.reset).2.1, fun h _ => ⟨all_when_i trivial, h, trivial⟩⟩
@[simp] theorem writes_emit {src kind cls detail w1 : Nat} : (emit src kind cls detail w1).Writes offs := trivial
@[simp] theorem writes_send {o : Out} : (send o).Writes offs := trivial
@[simp] theorem writes_denied {path o : Nat} {b : Bool} : (denied path o b).Writes offs := fun _ => trivial
@[simp] theorem writes_updMld {g : MldX → MldX} : (updMld g).Writes offs := fun _ => trivial
@[simp] theorem spares_updMld {g : MldX → MldX} : (updMld g).Spares off := fun _ => id
@[simp] theorem spares_denied {path o : Nat} {b : Bool} : (denied path o b).Spares off := fun _ => id
@[simp] theorem spares_emit {src kind cls detail w1 : Nat} : (emit src kind cls detail w1).Spares off := id

/-! The fields that a program leaves. -/

/-- Two fields share no bit. -/
def Field.apart (F G : Field) : Bool := decide (F.off ≠ G.off ∨ G.hi < F.lo ∨ F.hi < G.lo)

/-- Each field holds the value beside it, cut to its width. -/
def Shows : List (Field × Nat) → State → Prop
  | [], _ => True
  | e :: l, s => s.f e.1 = e.2 % 2 ^ (e.1.hi + 1 - e.1.lo) ∧ Shows l s

variable {l : List (Field × Nat)}

/-- A program that changes none of the fields. -/
theorem shows_kept (h : ∀ e ∈ l, ∀ n, p.Maintains fun s => s.f e.1 = n) : p.Maintains (Shows l) := by
  induction l with
  | nil => exact fun _ _ _ => trivial
  | cons e l ih =>
    exact fun s hs hl => ⟨h e List.mem_cons_self _ s hs hl.1, ih (fun d hd => h d (List.mem_cons_of_mem _ hd)) s hs hl.2⟩

/-- One that writes none of their words. -/
theorem shows_spared (h : ∀ e ∈ l, p.Spares e.1.off) : p.Maintains (Shows l) := shows_kept fun e he _ => maintains_f (h e he)

/-- A field written holds what was written, and the others what they held. -/
theorem shows_setF {F : Field} {v : Nat} (h : (l.all fun e => F.apart e.1) = true := by rfl) (hF : F.lo ≤ F.hi ∧ F.hi < 32 := by decide) :
    (setF F v).Leads (Shows l) (Shows ((F, v) :: l)) := fun s hs hl =>
  ⟨ensures_setF hF s hs trivial, shows_kept (fun e he _ => maintains_setF hF (of_decide_eq_true (List.all_eq_true.1 h e he))) s hs hl⟩

/-- The bits of a word after an event is raised: the event's own bit, and every bit but it below the SEQ. -/
theorem raise_bits {o b hi lo : Nat} (hhi : hi < 24) (hs : s.ok = true) :
    bits ((run (raise o b) s).reg o) hi lo = bits (putBits (s.reg o) b b 1) hi lo := by
  have hr := run_regs_sorted (when (sqOpens s o) (.act (.win o (some s.now)))) s (State.ok_regs_sorted hs)
  simp only [raise, run_read, run_block_cons, run_block_nil, run_setReg, reg_apply_same _ _ _ hr]
  exact bits_putBits_disjoint _ _ (by decide) (by decide) (by omega)

/-- An event raised is up, and the other fields hold what they held. -/
theorem shows_raise {o b : Nat} (hb : b < 24 := by decide)
    (h : (l.all fun e => decide (o ≠ e.1.off ∨ e.1.hi < 24 ∧ (e.1.hi < b ∨ b < e.1.lo))) = true := by rfl) :
    (raise o b).Leads (Shows l) (Shows ((⟨o, b, b⟩, 1) :: l)) := fun s hs hl => by
  refine ⟨?_, shows_kept (fun e he n => ?_) s hs hl⟩
  · show bits ((run (raise o b) s).reg o) b b = _
    rw [raise_bits hb hs, bits_putBits_same _ _ (le_refl _) (by omega)]
  · rcases of_decide_eq_true (List.all_eq_true.1 h e he) with ho | ⟨hhi, hd⟩
    · exact maintains_f (spares_raise.2 ho)
    · by_cases ho : o = e.1.off
      · subst ho
        intro t ht hn
        show bits ((run (raise e.1.off b) t).reg e.1.off) e.1.hi e.1.lo = n
        rw [raise_bits hhi ht, bits_putBits_disjoint _ _ (le_refl _) (by omega) hd]
        exact hn
      · exact maintains_f (spares_raise.2 ho)

theorem raised_iff {o b : Nat} : s.raised o b = true ↔ s.f ⟨o, b, b⟩ = 1 := by
  simp [State.raised, State.f, bitOf, bits]

/-- What a program shows, whatever it starts from. -/
theorem ensures_shows (h : p.Leads (Shows []) (Shows l)) : p.Ensures (Shows l) := fun s hs _ => h s hs trivial

/-! What a program emits. -/

/-- A program only adds to the messages. -/
def Prog.Adds (p : Prog) : Prop := ∀ s, ∃ l, (run p s).intake = s.intake ++ l

/-- A program raises a message. -/
def Prog.Emits (m : Msg) (p : Prog) : Prop := ∀ s, Raised m s (run p s)

variable {m : Msg}

theorem adds_of (hp : Prog.All (Act.among K) p) (h : K.testBit 31 = false := by decide) : p.Adds := intake_grows hp h

theorem adds_nil : (block []).Adds := fun _ => ⟨[], (List.append_nil _).symm⟩
theorem adds_cons (hp : p.Adds) (ht : (block t).Adds) : (block (p :: t)).Adds := fun s => by
  obtain ⟨l, hl⟩ := hp s
  obtain ⟨k, hk⟩ := ht (run p s)
  exact ⟨l ++ k, by rw [run_block_cons, hk, hl, List.append_assoc]⟩
theorem adds_setF (F : Field) (v : Nat) : (setF F v).Adds := fun _ => ⟨[], (List.append_nil _).symm⟩
theorem adds_raise (o b : Nat) : (raise o b).Adds :=
  adds_of (K := 2 ^ 63 + 2 ^ 4) (raise_kinds _ _ (tb rfl) (lies_any (tb rfl)))

theorem emits_emit (src kind cls detail w1 : Nat) : (emit src kind cls detail w1).Emits ⟨src, kind, cls, detail, w1⟩ :=
  raised_emit src kind cls detail w1

theorem emits_now (hp : p.Emits m) (ht : (block t).Adds) : (block (p :: t)).Emits m := fun s => (hp s).trans (ht _)
theorem emits_later (hp : p.Adds) (ht : (block t).Emits m) : (block (p :: t)).Emits m := fun s => .later (hp s) (ht _)

/-- An access that the checks refuse is logged. -/
theorem denied_raised (path off : Nat) (s : State) : Raised ⟨srcOf s off, kAccessDenied, 0, path + 8, off⟩ s (run (denied path off true) s) :=
  ⟨[_], rfl, List.mem_singleton.2 rfl⟩

/-! Parts that a program leaves alone. -/

/-- A fact about the loader's part, through a program that does not touch it. -/
theorem mld_kept {J : MldX → Prop} (h : ∀ t, (run p t).mld = t.mld) : p.Maintains fun t => J t.mld := fun t _ hj => by
  show J (run p t).mld
  rwa [h]

theorem setF_mld (F : Field) (v : Nat) (s : State) : (run (setF F v) s).mld = s.mld := by simp
@[simp] theorem raise_mld (o b : Nat) (s : State) : (run (raise o b) s).mld = s.mld :=
  run_mld_of (K := 2 ^ 63 + 2 ^ 4) (raise_kinds _ _ (tb rfl) (lies_any (tb rfl))) (by decide)

end Sys2Proof.Machine
end

section
/-!
SUPPORT. The verdict on an image (R101), and the programs of adoption, path by path (R113).
-/
set_option Elab.async false
namespace Sys2Proof.Machine

variable {s : State} {path slot : Nat}

/-! The verdict on an image. -/

/-- What the checks make of an image: its sections, or the first check that it fails (R101). `parsed` is what the checks of
the image by itself give, `more` what those of the mould that would result find. -/
def imageVerdict (readOk : Bool) (parsed : Except BadMould (List (Nat × List Byte))) (more : List (Nat × List Byte) → Option BadMould) :
    Except BadMould (List (Nat × List Byte)) :=
  if !readOk then .error ⟨1, 0, 0⟩ else
    match parsed with
    | .error b => .error b
    | .ok secs => match more secs with
      | some b => .error b
      | none => .ok secs

/-- The first check that it fails. -/
def imageFault (readOk : Bool) (parsed : Except BadMould (List (Nat × List Byte))) (more : List (Nat × List Byte) → Option BadMould) :
    Option BadMould :=
  if !readOk then some ⟨1, 0, 0⟩ else
    match parsed with
    | .error b => some b
    | .ok secs => more secs

section
variable {readOk : Bool} {parsed : Except BadMould (List (Nat × List Byte))} {more : List (Nat × List Byte) → Option BadMould}

theorem imageVerdict_error {b : BadMould} (h : imageFault readOk parsed more = some b) : imageVerdict readOk parsed more = .error b := by
  cases readOk
  · exact congrArg Except.error (Option.some.inj h)
  cases parsed with
  | error b' => exact congrArg Except.error (Option.some.inj h)
  | ok secs =>
    have hm : more secs = some b := h
    show (match more secs with | some b => Except.error b | none => Except.ok secs) = _
    rw [hm]

theorem imageVerdict_ok (h : imageFault readOk parsed more = none) : ∃ secs, parsed = .ok secs ∧ imageVerdict readOk parsed more = .ok secs := by
  cases readOk
  · cases h
  cases parsed with
  | error b => cases h
  | ok secs =>
    have hm : more secs = none := h
    refine ⟨secs, rfl, ?_⟩
    show (match more secs with | some b => Except.error b | none => Except.ok secs) = _
    rw [hm]

end

/-- An image that passes has the sections that its parsing gives (R80). -/
theorem checkImage_sections {part : Bool} {headcfg : Nat} {active : SMap (List Byte)} {keys : List KeySlot} {l : List Byte}
    {secs : List (Nat × List Byte)} (h : checkImage part headcfg active keys l = .ok secs) : holdSections secs = sectionsOf l := by
  have hs : imgSecs l = some secs := by
    unfold checkImage at h
    split at h
    · cases h
    split at h
    · cases h
    split at h
    · cases h
    split at h
    · cases h
    split at h
    · cases h
    split at h
    · cases h
    · cases h; assumption
  rw [sectionsOf, hs, Option.getD_some]

/-- The verdict on a full image. -/
def State.verdict (s : State) (readOk : Bool) (l : List Byte) : Except BadMould (List (Nat × List Byte)) :=
  imageVerdict readOk (checkImage false (s.f F.GLB_STRAPS_headcfg) [] s.otp.keys l) fun secs => checkMould (s.f F.GLB_STRAPS_headcfg) (holdSections secs)

theorem verdict_error {readOk : Bool} {l : List Byte} {b : BadMould} (h : s.fullFault readOk l = some b) : s.verdict readOk l = .error b :=
  imageVerdict_error h

theorem verdict_ok {readOk : Bool} {l : List Byte} (h : s.fullFault readOk l = none) :
    ∃ secs, s.verdict readOk l = .ok secs ∧ holdSections secs = sectionsOf l := by
  obtain ⟨secs, hc, hv⟩ := imageVerdict_ok (more := fun secs => checkMould (s.f F.GLB_STRAPS_headcfg) (holdSections secs)) h
  exact ⟨secs, hv, checkImage_sections hc⟩

/-! Adoption. -/

/-- An adoption begins. -/
def adoptBegins (slot : Nat) : Prog :=
  block [setF F.MLD_ADOPT_CTL_slot slot, setF F.MLD_ADOPT_STAT_state 1, setF F.MLD_ADOPT_STAT_err 0,
    updMld fun x => { x with adoptSlot := slot }]

theorem adoptStart_begins (h1 : s.f F.MLD_ADOPT_STAT_state ≠ 1) (h2 : s.f F.MLD_ADOPT_STAT_state ≠ 2) :
    run (adoptStart slot) s = run (adoptBegins slot) s := by
  have hc : (s.f F.MLD_ADOPT_STAT_state != 1 && s.f F.MLD_ADOPT_STAT_state != 2) = true := by simp [h1, h2]
  rw [adoptStart, run_read, hc]
  rfl

/-- It waits for the one that is CHECKING or PENDING (log entry 22). -/
theorem adoptStart_busy (h : s.f F.MLD_ADOPT_STAT_state = 1 ∨ s.f F.MLD_ADOPT_STAT_state = 2) : run (adoptStart slot) s = s := by
  have hc : (s.f F.MLD_ADOPT_STAT_state != 1 && s.f F.MLD_ADOPT_STAT_state != 2) = false := by rcases h with h | h <;> simp [h]
  rw [adoptStart, run_read, hc]
  rfl

theorem adoptStart_writes : (adoptStart slot).Writes [R.MLD_ADOPT_CTL, R.MLD_ADOPT_STAT] := fun _ =>
  all_when_i ⟨writes_setF.2 (by decide), writes_setF.2 (by decide), writes_setF.2 (by decide), writes_updMld, trivial⟩

theorem adoptBegins_shows : (adoptBegins slot).Ensures
    (Shows [(F.MLD_ADOPT_STAT_err, 0), (F.MLD_ADOPT_STAT_state, 1), (F.MLD_ADOPT_CTL_slot, slot)]) :=
  ensures_shows <| leads_cons shows_setF <| leads_cons shows_setF <| leads_cons shows_setF <|
    leads_cons (shows_spared fun _ _ => spares_updMld) leads_nil

theorem adoptBegins_slot : (run (adoptBegins slot) s).mld.adoptSlot = slot := rfl

/-- An adoption ends without a change of the mould in force: REFUSED, COLD_NEEDED or NO_CHANGE. -/
def adoptEnds (st : Nat) : Prog := block [setF F.MLD_ADOPT_STAT_state st, raise R.MLD_EVENT 4]

/-- An adoption is refused with the check that failed. -/
def adoptRefused (b : BadMould) : Prog :=
  block [setF F.MLD_ADOPT_STAT_err b.code, setF F.MLD_ERR_DETAIL_section b.sect, setF F.MLD_ERR_DETAIL_record b.index,
    refusedMould b, adoptEnds 4]

/-- An adoption waits for the heads whose records differ. -/
def adoptPending (l : List Byte) (secs : List (Nat × List Byte)) (heads : Nat) : Prog :=
  block [setF F.MLD_ADOPT_STAT_state 2, setF F.MLD_ADOPT_STAT_heads_left heads,
    updMld fun x => { x with adoptImage := holdSections secs, adoptGen := imgGen l, adoptDigest := Config.sha384 l, adoptUsed := sigSlot (SMap.getD secs scSignature []), adoptKey := (imgFlags l, imgMinRev l) }]

/-- What an image that no check stops leads to, against the full image in force. -/
def adoptJudged (s : State) (l : List Byte) (secs : List (Nat × List Byte)) : Prog :=
  if restDiffers s.mld.full (holdSections secs) || (imgFlags l, imgMinRev l) != s.mld.fullKey then adoptEnds 5
  else if headsDiffer s.mld.full (holdSections secs) = 0 then adoptEnds 6
  else adoptPending l secs (headsDiffer s.mld.full (holdSections secs))

theorem adoptCheckDone_eq (readOk : Bool) : adoptCheckDone readOk = .read fun s => when (s.f F.MLD_ADOPT_STAT_state == 1)
    (match s.verdict readOk (s.flashImage (slotBase s.mld.adoptSlot)) with
     | .error b => adoptRefused b
     | .ok secs => adoptJudged s (s.flashImage (slotBase s.mld.adoptSlot)) secs) := rfl

theorem adoptCheckDone_refused {readOk : Bool} {b : BadMould} (h : s.f F.MLD_ADOPT_STAT_state = 1)
    (hb : s.fullFault readOk (s.flashImage (slotBase s.mld.adoptSlot)) = some b) : run (adoptCheckDone readOk) s = run (adoptRefused b) s := by
  rw [adoptCheckDone_eq, run_read, h, verdict_error hb]
  rfl

theorem adoptCheckDone_judged {readOk : Bool} (h : s.f F.MLD_ADOPT_STAT_state = 1)
    (hn : s.fullFault readOk (s.flashImage (slotBase s.mld.adoptSlot)) = none) :
    ∃ secs, holdSections secs = sectionsOf (s.flashImage (slotBase s.mld.adoptSlot)) ∧
      run (adoptCheckDone readOk) s = run (adoptJudged s (s.flashImage (slotBase s.mld.adoptSlot)) secs) s := by
  obtain ⟨secs, hv, hm⟩ := verdict_ok hn
  refine ⟨secs, hm, ?_⟩
  rw [adoptCheckDone_eq, run_read, h, hv]
  rfl

end Sys2Proof.Machine
end

section
/-!
PROOFS. O51, clause by clause: adoption of a head layout, key programming, the lifecycle fuse (R92, R101, R113, R613).
-/
set_option Elab.async false
namespace Sys2Proof.Machine

variable {s : State} {path : Path}

theorem maskOf_lt (l : List Bool) : maskOf l < 2 ^ l.length := by
  induction l with
  | nil => decide
  | cons b t ih =>
    have : b2n b ≤ 1 := by cases b <;> decide
    simp only [maskOf, List.length_cons, Nat.pow_succ]
    omega

theorem headsDiffer_lt (a b : SMap (List Byte)) : headsDiffer a b < 2 ^ 4 := by
  simpa [headsDiffer] using maskOf_lt ((List.range 4).map fun h =>
    (headTable a).get? h != (headTable b).get? h || (headCls a h).map (·.2) != (headCls b h).map (·.2))

/-! Adoption. -/

theorem adoptStart_acts {slot : BitVec 1} (hs : s.ok = true) (hg : Granted path R.MLD_ADOPT_CTL s) :
    Acts (.adoptStart path slot) s fun u =>
      (s.f F.MLD_ADOPT_STAT_state = 1 ∨ s.f F.MLD_ADOPT_STAT_state = 2 → u = s) ∧
      (s.f F.MLD_ADOPT_STAT_state ≠ 1 → s.f F.MLD_ADOPT_STAT_state ≠ 2 → u.f F.MLD_ADOPT_STAT_state = 1 ∧ u.f F.MLD_ADOPT_STAT_err = 0 ∧ u.f F.MLD_ADOPT_CTL_slot = slot.toNat ∧ u.mld.adoptSlot = slot.toNat) ∧
      OnlyWords [R.MLD_ADOPT_CTL, R.MLD_ADOPT_STAT] s u ∧ Keeps [.mould, .messages] s u := by
  refine acts_wrote (fun _ => adoptStart slot.toNat) hg rfl ⟨adoptStart_busy, fun h1 h2 => ?_, onlyWords_of adoptStart_writes hs,
    keeps_of (adoptStart_kinds _) hs _⟩
  rw [adoptStart_begins h1 h2]
  obtain ⟨herr, hstate, hslot, -⟩ := adoptBegins_shows (slot := slot.toNat) s hs trivial
  exact ⟨hstate, herr, hslot.trans (Nat.mod_eq_of_lt slot.isLt), adoptBegins_slot⟩

theorem refusedMould_emits (b : BadMould) : (refusedMould b).Emits ⟨0x05, 0x19, 0, b.code, b.sect * 65536 + b.index⟩ :=
  emits_now (emits_emit _ _ _ _ _) (adds_cons (adds_raise _ _) adds_nil)

theorem adoptEnds_adds (st : Nat) : (adoptEnds st).Adds := adds_cons (adds_setF _ _) (adds_cons (adds_raise _ _) adds_nil)

theorem adoptRefused_emits (b : BadMould) : (adoptRefused b).Emits ⟨0x05, 0x19, 0, b.code, b.sect * 65536 + b.index⟩ :=
  emits_later (adds_setF _ _) <| emits_later (adds_setF _ _) <| emits_later (adds_setF _ _) <|
    emits_now (refusedMould_emits b) (adds_cons (adoptEnds_adds 4) adds_nil)

theorem adoptRefused_shows (b : BadMould) : (adoptRefused b).Ensures
    (Shows [(⟨R.MLD_EVENT, 4, 4⟩, 1), (F.MLD_ADOPT_STAT_state, 4), (⟨R.MLD_EVENT, 1, 1⟩, 1), (F.MLD_ERR_DETAIL_record, b.index),
      (F.MLD_ERR_DETAIL_section, b.sect), (F.MLD_ADOPT_STAT_err, b.code)]) :=
  ensures_shows <| leads_cons shows_setF <| leads_cons shows_setF <| leads_cons shows_setF <|
    leads_cons (leads_cons (shows_spared fun _ _ => spares_emit) <| leads_cons shows_raise leads_nil) <|
    leads_cons (leads_cons shows_setF <| leads_cons shows_raise leads_nil) leads_nil

theorem adoptEnds_shows {st : Nat} (h : st < 8) : (adoptEnds st).Ensures fun t => t.f F.MLD_ADOPT_STAT_state = st := fun s hs _ => by
  have hshow : (adoptEnds st).Ensures (Shows [(⟨R.MLD_EVENT, 4, 4⟩, 1), (F.MLD_ADOPT_STAT_state, st)]) :=
    ensures_shows <| leads_cons shows_setF <| leads_cons shows_raise leads_nil
  exact (hshow s hs trivial).2.1.trans (Nat.mod_eq_of_lt h)

@[simp] theorem refusedMould_mld (b : BadMould) (s : State) : (run (refusedMould b) s).mld = s.mld := raise_mld _ _ _
@[simp] theorem adoptEnds_mld (st : Nat) (s : State) : (run (adoptEnds st) s).mld = s.mld := raise_mld _ _ _
theorem adoptRefused_mld (b : BadMould) (s : State) : (run (adoptRefused b) s).mld = s.mld :=
  (adoptEnds_mld _ _).trans (refusedMould_mld b _)

theorem adoptPending_shows (l : List Byte) (secs : List (Nat × List Byte)) (heads : Nat) : (adoptPending l secs heads).Ensures
    (Shows [(F.MLD_ADOPT_STAT_heads_left, heads), (F.MLD_ADOPT_STAT_state, 2)]) :=
  ensures_shows <| leads_cons shows_setF <| leads_cons shows_setF <| leads_cons (shows_spared fun _ _ => spares_updMld) leads_nil

/-- Neither verdict touches the mould in force. -/
theorem adoptJudged_active (l : List Byte) (secs : List (Nat × List Byte)) (t : State) :
    (run (adoptJudged s l secs) t).mld.active = t.mld.active := by
  unfold adoptJudged
  split
  · exact congrArg (·.active) (adoptEnds_mld _ _)
  split
  · exact congrArg (·.active) (adoptEnds_mld _ _)
  · rfl

theorem adoptEnds_writes (st : Nat) : (adoptEnds st).Writes [R.MLD_ERR_DETAIL, R.MLD_ADOPT_STAT, R.MLD_EVENT] :=
  ⟨writes_setF.2 (by decide), writes_raise.2 (by decide), trivial⟩

theorem adoptCheckDone_writes (readOk : Bool) : (adoptCheckDone readOk).Writes [R.MLD_ERR_DETAIL, R.MLD_ADOPT_STAT, R.MLD_EVENT] := by
  rw [adoptCheckDone_eq]
  refine fun s => all_when_i ?_
  split
  · exact ⟨writes_setF.2 (by decide), writes_setF.2 (by decide), writes_setF.2 (by decide), ⟨writes_emit, writes_raise.2 (by decide), trivial⟩,
      adoptEnds_writes _, trivial⟩
  unfold adoptJudged
  split
  · exact adoptEnds_writes _
  split
  · exact adoptEnds_writes _
  · exact ⟨writes_setF.2 (by decide), writes_setF.2 (by decide), writes_updMld, trivial⟩

/-- The image that an adoption under check reads. -/
abbrev State.adoptBytes (s : State) : List Byte := s.flashImage (slotBase s.mld.adoptSlot)

theorem adoptCheckDone_acts {readOk : Bool} (hs : s.ok = true) (h : s.f F.MLD_ADOPT_STAT_state = 1) :
    Acts (.adoptCheckDone readOk) s fun u =>
      u.mld.active = s.mld.active ∧
      (∀ b ∈ (s.fullFault readOk s.adoptBytes).toList, u.f F.MLD_ADOPT_STAT_state = 4 ∧ u.f F.MLD_ADOPT_STAT_err = b.code % 64 ∧ u.f F.MLD_ERR_DETAIL_section = b.sect % 65536 ∧ u.f F.MLD_ERR_DETAIL_record = b.index % 65536 ∧ Raised ⟨0x05, 0x19, 0, b.code, b.sect * 65536 + b.index⟩ s u ∧ u.raised R.MLD_EVENT 1 = true ∧ u.mld = s.mld) ∧
      (s.fullFault readOk s.adoptBytes = none → restDiffers s.mld.full (sectionsOf s.adoptBytes) = true ∨ ¬ ((imgFlags s.adoptBytes, imgMinRev s.adoptBytes) = s.mld.fullKey) → u.f F.MLD_ADOPT_STAT_state = 5 ∧ u.mld = s.mld) ∧
      (s.fullFault readOk s.adoptBytes = none → restDiffers s.mld.full (sectionsOf s.adoptBytes) = false → ((imgFlags s.adoptBytes, imgMinRev s.adoptBytes) = s.mld.fullKey) → headsDiffer s.mld.full (sectionsOf s.adoptBytes) = 0 → u.f F.MLD_ADOPT_STAT_state = 6 ∧ u.mld = s.mld) ∧
      (s.fullFault readOk s.adoptBytes = none → restDiffers s.mld.full (sectionsOf s.adoptBytes) = false → ((imgFlags s.adoptBytes, imgMinRev s.adoptBytes) = s.mld.fullKey) → headsDiffer s.mld.full (sectionsOf s.adoptBytes) ≠ 0 → u.f F.MLD_ADOPT_STAT_state = 2 ∧ u.f F.MLD_ADOPT_STAT_heads_left = headsDiffer s.mld.full (sectionsOf s.adoptBytes) ∧ u.mld.adoptImage = sectionsOf s.adoptBytes) ∧
      OnlyWords [R.MLD_ERR_DETAIL, R.MLD_ADOPT_STAT, R.MLD_EVENT] s u ∧ Keeps [.windows, .mould, .messages] s u := by
  have hframe := And.intro (onlyWords_of (adoptCheckDone_writes readOk) hs) (keeps_of (adoptCheckDone_kinds readOk) hs [.windows, .mould, .messages])
  refine acts_finish (adoptCheckDone readOk) rfl ?_
  cases hv : s.fullFault readOk s.adoptBytes with
  | some b =>
    rw [adoptCheckDone_refused h hv] at hframe ⊢
    obtain ⟨-, hstate, hevent, hrecord, hsection, herr, -⟩ := adoptRefused_shows b s hs trivial
    refine ⟨congrArg (·.active) (adoptRefused_mld b s), fun b' hb' => ?_, nofun, nofun, nofun, hframe⟩
    rw [List.mem_singleton.1 hb']
    exact ⟨hstate, herr, hsection, hrecord, adoptRefused_emits b s, raised_iff.2 hevent, adoptRefused_mld b s⟩
  | none =>
    obtain ⟨secs, hm, hrun⟩ := adoptCheckDone_judged h hv
    rw [hrun] at hframe ⊢
    refine ⟨adoptJudged_active _ _ _, nofun, fun _ hd => ?_, fun _ hr hk hh => ?_, fun _ hr hk hh => ?_, hframe⟩
    · have hc : (restDiffers s.mld.full (holdSections secs) || (imgFlags s.adoptBytes, imgMinRev s.adoptBytes) != s.mld.fullKey) = true := by
        rw [hm]
        rcases hd with hd | hd
        · simp [hd]
        · simp [bne_iff_ne.2 hd]
      rw [adoptJudged, if_pos hc]
      exact ⟨adoptEnds_shows (by decide) s hs trivial, adoptEnds_mld _ _⟩
    all_goals
      have hc : ¬ (restDiffers s.mld.full (holdSections secs) || (imgFlags s.adoptBytes, imgMinRev s.adoptBytes) != s.mld.fullKey) = true := by
        simp [hm, hr, hk]
      rw [adoptJudged, if_neg hc]
    · rw [if_pos (by rw [hm]; exact hh)]
      exact ⟨adoptEnds_shows (by decide) s hs trivial, adoptEnds_mld _ _⟩
    · rw [if_neg (by rw [hm]; exact hh)]
      obtain ⟨hleft, hstate, -⟩ := adoptPending_shows s.adoptBytes secs (headsDiffer s.mld.full (holdSections secs)) s hs trivial
      exact ⟨hstate, by rw [hleft, hm]; exact Nat.mod_eq_of_lt (headsDiffer_lt _ _), hm⟩

end Sys2Proof.Machine
end

section
/-!
PROOFS. O51, clause by clause: the key fuses and the lifecycle fuse (R92, R613).
-/
set_option Elab.async false
namespace Sys2Proof.Machine

variable {s : State} {path : Path}

/-- A bit that is clear is a field that holds 0. -/
theorem shows_clear {F : Field} (hw : F.hi + 1 - F.lo = 1) (h : s.bit F = false) : Shows [(F, 0)] s := by
  have hlt : s.f F < 2 := by
    rw [State.f, bits, hw]
    exact Nat.mod_lt _ (by decide)
  have hne : s.f F ≠ 1 := by simpa [State.bit] using h
  have hz : s.f F = 0 := by omega
  exact ⟨hz.trans (Nat.zero_mod _).symm, trivial⟩

theorem bit_of_one {F : Field} (h : s.f F = 1) : s.bit F = true := by rw [State.bit, h]; rfl
theorem bit_of_zero {F : Field} (h : s.f F = 0) : s.bit F = false := by rw [State.bit, h]; rfl

/-! KEY_PROG_START. -/

/-- The fuse of a slot starts. -/
def keyFuseStarts (slot : Nat) : Prog :=
  block [setF F.MLD_KEY_PROG_CTL_slot slot, block [setF F.MLD_KEY_PROG_CTL_start 1, setF F.MLD_KEY_PROG_CTL_result 0]]

/-- A slot that is programmed is refused. -/
def keyProgRefused (slot : Nat) : Prog := block [setF F.MLD_KEY_PROG_CTL_slot slot, setF F.MLD_KEY_PROG_CTL_result 2]

/-- What the model asks of a slot: whether it is there and programmed. -/
theorem programmed_getD (o : Option KeySlot) : (o.getD {}).programmed = o.any (·.programmed) := by cases o <;> rfl

theorem keyProgStart_idle {slot : Nat} (h : s.bit F.MLD_KEY_PROG_CTL_start = false) : run (keyProgStart slot true) s =
    run (if (s.otp.keys[slot]?).any (·.programmed) then keyProgRefused slot else keyFuseStarts slot) s := by
  rw [keyProgStart, run_read, h, programmed_getD]
  cases (s.otp.keys[slot]?).any (·.programmed) <;> rfl

theorem keyProgStart_busy {slot : Nat} {b : Bool} (h : s.bit F.MLD_KEY_PROG_CTL_start = true) : run (keyProgStart slot b) s = s := by
  rw [keyProgStart, run_read, h]
  rfl

theorem inFactory_writes {c off : Nat} {p : Prog} {offs : List Nat} (h : p.Writes offs) : (inFactory c off p).Writes offs := fun s => by
  dsimp only
  split
  · exact h
  · exact writes_denied

theorem keyProgStart_writes (slot : Nat) (b : Bool) : (keyProgStart slot b).Writes [R.MLD_KEY_PROG_CTL] := fun s => by
  refine all_when_i ⟨writes_setF.2 (by decide), all_when_i ?_, trivial⟩
  split
  · exact writes_setF.2 (by decide)
  · exact ⟨writes_setF.2 (by decide), writes_setF.2 (by decide), trivial⟩

theorem keyFuseStarts_shows (slot : Nat) : (keyFuseStarts slot).Ensures
    (Shows [(F.MLD_KEY_PROG_CTL_result, 0), (F.MLD_KEY_PROG_CTL_start, 1), (F.MLD_KEY_PROG_CTL_slot, slot)]) :=
  ensures_shows <| leads_cons shows_setF <| leads_cons (leads_cons shows_setF <| leads_cons shows_setF leads_nil) leads_nil

theorem keyProgRefused_shows (slot : Nat) : (keyProgRefused slot).Leads (Shows [(F.MLD_KEY_PROG_CTL_start, 0)])
    (Shows [(F.MLD_KEY_PROG_CTL_result, 2), (F.MLD_KEY_PROG_CTL_slot, slot), (F.MLD_KEY_PROG_CTL_start, 0)]) :=
  leads_cons shows_setF <| leads_cons shows_setF leads_nil

theorem keyProgStart_acts {slot : BitVec 2} (hs : s.ok = true) (hg : Granted path R.MLD_KEY_PROG_CTL s) :
    Acts (.keyProgStart path slot) s fun u =>
      (s.otp.lifecycle ≠ 0 → Raised ⟨srcOf s R.MLD_KEY_PROG_CTL, kAccessDenied, 0, (pathCode path) + 8, R.MLD_KEY_PROG_CTL⟩ s u ∧ u.reg R.MLD_KEY_PROG_CTL = s.reg R.MLD_KEY_PROG_CTL) ∧
      (s.otp.lifecycle = 0 → s.bit F.MLD_KEY_PROG_CTL_start = true → u = s) ∧
      (s.otp.lifecycle = 0 → s.bit F.MLD_KEY_PROG_CTL_start = false → u.f F.MLD_KEY_PROG_CTL_slot = slot.toNat ∧ (((s.otp.keys[slot.toNat]?).any (fun k => k.programmed) = true) → u.f F.MLD_KEY_PROG_CTL_result = 2 ∧ u.bit F.MLD_KEY_PROG_CTL_start = false) ∧ (¬ ((s.otp.keys[slot.toNat]?).any (fun k => k.programmed) = true) → u.f F.MLD_KEY_PROG_CTL_result = 0 ∧ u.bit F.MLD_KEY_PROG_CTL_start = true)) ∧
      OnlyWords [R.MLD_KEY_PROG_CTL] s u ∧ Keeps [.messages] s u := by
  have hslot : slot.toNat % 2 ^ 2 = slot.toNat := Nat.mod_eq_of_lt slot.isLt
  have hframe := And.intro (onlyWords_of (inFactory_writes (c := pathCode path) (off := R.MLD_KEY_PROG_CTL) (keyProgStart_writes slot.toNat true)) hs)
    (keeps_of (inFactory_kinds rfl (pathCode path) R.MLD_KEY_PROG_CTL _ ((keyProgStart_kinds slot.toNat true).mono (m := 0x4000000000000000000000000000000000000040000000) rfl)) hs [.messages])
  refine acts_wrote (fun c => inFactory c R.MLD_KEY_PROG_CTL (keyProgStart slot.toNat true)) hg rfl ?_
  by_cases hl : s.otp.lifecycle = 0
  · have hrun : run (inFactory (pathCode path) R.MLD_KEY_PROG_CTL (keyProgStart slot.toNat true)) s = run (keyProgStart slot.toNat true) s := by
      rw [inFactory, run_read, if_pos hl]
    rw [hrun] at hframe ⊢
    refine ⟨fun h => absurd hl h, fun _ => keyProgStart_busy, fun _ hb => ?_, hframe⟩
    rw [keyProgStart_idle hb]
    split
    next hp =>
      obtain ⟨hres, hsl, hst, -⟩ := keyProgRefused_shows slot.toNat s hs (shows_clear rfl hb)
      exact ⟨hsl.trans hslot, fun _ => ⟨hres, bit_of_zero hst⟩, fun h => absurd hp h⟩
    next hp =>
      obtain ⟨hres, hst, hsl, -⟩ := keyFuseStarts_shows slot.toNat s hs trivial
      exact ⟨hsl.trans hslot, fun h => absurd h hp, fun _ => ⟨hres, bit_of_one hst⟩⟩
  · have hrun : run (inFactory (pathCode path) R.MLD_KEY_PROG_CTL (keyProgStart slot.toNat true)) s = run (denied (pathCode path) R.MLD_KEY_PROG_CTL true) s := by
      rw [inFactory, run_read, if_neg hl]
    rw [hrun] at hframe ⊢
    exact ⟨fun _ => ⟨denied_raised _ _ s, run_reg_frame _ _ spares_denied s (State.ok_regs_sorted hs)⟩, fun h => absurd h hl, fun h => absurd h hl, hframe⟩

/-! KEY_PROG_DONE. -/

/-- The fuse of a slot ends well. -/
def keyProgrammed (i : Nat) (d : List Byte) : Prog :=
  block [setF F.MLD_KEY_PROG_CTL_start 0, block [.act (.fuseKey i d), deriveKeys, setF F.MLD_KEY_PROG_CTL_result 1]]

/-- It fails its verify; the slot stays unprogrammed (log entry 23). -/
def keyProgFailed : Prog := block [setF F.MLD_KEY_PROG_CTL_start 0, setF F.MLD_KEY_PROG_CTL_result 3]

theorem keyProgDone_idle {verified : Bool} (h : s.bit F.MLD_KEY_PROG_CTL_start = false) : run (keyProgDone verified) s = s := by
  rw [keyProgDone, run_read, h]
  rfl

theorem keyProgDone_verified (h : s.bit F.MLD_KEY_PROG_CTL_start = true) :
    run (keyProgDone true) s = run (keyProgrammed (s.f F.MLD_KEY_PROG_CTL_slot) (leBytes 48 (s.wide R.MLD_KEY_PROG_DATA 12))) s := by
  rw [keyProgDone, run_read, h]
  rfl

theorem keyProgDone_failed (h : s.bit F.MLD_KEY_PROG_CTL_start = true) : run (keyProgDone false) s = run keyProgFailed s := by
  rw [keyProgDone, run_read, h]
  rfl

theorem deriveKeys_writes : deriveKeys.Writes [R.MLD_KEYS, R.MLD_KEY_PROG_CTL] := fun _ =>
  ⟨writes_setF.2 (by decide), writes_setF.2 (by decide), trivial⟩

theorem keyProgDone_writes (verified : Bool) : (keyProgDone verified).Writes [R.MLD_KEYS, R.MLD_KEY_PROG_CTL] := fun _ => by
  refine all_when_i ⟨writes_setF.2 (by decide), ?_, trivial⟩
  split
  · exact ⟨trivial, deriveKeys_writes, writes_setF.2 (by decide), trivial⟩
  · exact writes_setF.2 (by decide)

theorem deriveKeys_spares {off : Nat} (h : R.MLD_KEYS ≠ off) : deriveKeys.Spares off := fun _ => ⟨spares_setF.2 h, spares_setF.2 h, trivial⟩

/-- MLD.KEYS shows the slots that are programmed. -/
theorem deriveKeys_programmed : deriveKeys.Ensures fun t => t.f F.MLD_KEYS_programmed = maskOf (t.otp.keys.map (·.programmed)) % 16 := fun s hs _ => by
  have hshow : (block [setF F.MLD_KEYS_programmed (maskOf (s.otp.keys.map (·.programmed))),
      setF F.MLD_KEYS_revoked (maskOf (s.otp.keys.map (·.revoked)))]).Ensures
      (Shows [(F.MLD_KEYS_revoked, maskOf (s.otp.keys.map (·.revoked))), (F.MLD_KEYS_programmed, maskOf (s.otp.keys.map (·.programmed)))]) :=
    ensures_shows <| leads_cons shows_setF <| leads_cons shows_setF leads_nil
  exact (hshow s hs trivial).2.1

theorem keyProgrammed_shows (i : Nat) (d : List Byte) : (keyProgrammed i d).Ensures
    (Shows [(F.MLD_KEY_PROG_CTL_result, 1), (F.MLD_KEY_PROG_CTL_start, 0)]) :=
  ensures_shows <| leads_cons shows_setF <| leads_cons (leads_cons (shows_spared fun _ _ => id) <|
    leads_cons (shows_spared (List.forall_mem_singleton.2 (deriveKeys_spares (by decide)))) <| leads_cons shows_setF leads_nil) leads_nil

theorem keyProgrammed_derived (i : Nat) (d : List Byte) :
    (keyProgrammed i d).Ensures fun t => t.f F.MLD_KEYS_programmed = maskOf (t.otp.keys.map (·.programmed)) % 16 :=
  ensures_later <| ensures_now (ensures_later <| ensures_now deriveKeys_programmed <|
    leads_cons (fun s hs h => maintains_setF (n := maskOf (s.otp.keys.map (·.programmed)) % 16) (by decide) (by decide) s hs h) leads_nil) leads_nil

/-- The key slots after the fuse. -/
theorem keyProgrammed_keys (i j : Nat) (d : List Byte) : (run (keyProgrammed i d) s).otp.keys[j]? =
    (s.otp.keys[j]?).map fun k => if j = i ∧ k.programmed = false then { k with programmed := true, digest := d } else k := by
  show (s.otp.keys.zipIdx.map _)[j]? = _
  rw [List.getElem?_map, List.getElem?_zipIdx, Option.map_map]
  simp [Function.comp_def]

theorem keyProgFailed_otp : (run keyProgFailed s).otp = s.otp := by simp [keyProgFailed]

theorem keyProgFailed_shows : keyProgFailed.Ensures (Shows [(F.MLD_KEY_PROG_CTL_result, 3), (F.MLD_KEY_PROG_CTL_start, 0)]) :=
  ensures_shows <| leads_cons shows_setF <| leads_cons shows_setF leads_nil

theorem keyProgDone_acts {verified : Bool} (hs : s.ok = true) :
    Acts (.keyProgDone verified) s fun u =>
      (s.bit F.MLD_KEY_PROG_CTL_start = false → u = s) ∧
      (s.bit F.MLD_KEY_PROG_CTL_start = true → u.bit F.MLD_KEY_PROG_CTL_start = false) ∧
      (s.bit F.MLD_KEY_PROG_CTL_start = true → verified = false → u.f F.MLD_KEY_PROG_CTL_result = 3 ∧ u.otp = s.otp) ∧
      (s.bit F.MLD_KEY_PROG_CTL_start = true → verified = true → u.f F.MLD_KEY_PROG_CTL_result = 1 ∧ u.otp.chain = s.otp.chain ∧ u.otp.lifecycle = s.otp.lifecycle ∧ u.otp.keys.length = s.otp.keys.length ∧ u.f F.MLD_KEYS_programmed = maskOf (u.otp.keys.map (fun k => k.programmed)) % 16) ∧
      (s.bit F.MLD_KEY_PROG_CTL_start = true → verified = true → ∀ i : Fin 4, u.otp.keys[i.val]? = (s.otp.keys[i.val]?).map fun k => if i.val = s.f F.MLD_KEY_PROG_CTL_slot ∧ k.programmed = false then { k with programmed := true, digest := leBytes 48 (s.wide R.MLD_KEY_PROG_DATA 12) } else k) ∧
      OnlyWords [R.MLD_KEYS, R.MLD_KEY_PROG_CTL] s u ∧ Keeps [.otp] s u := by
  have hframe := And.intro (onlyWords_of (keyProgDone_writes verified) hs) (keeps_of (keyProgDone_kinds verified) hs [.otp])
  refine acts_finish (keyProgDone verified) rfl ⟨keyProgDone_idle, ?_, ?_, ?_, ?_, hframe⟩
  · intro h
    cases verified
    · rw [keyProgDone_failed h]
      exact bit_of_zero (keyProgFailed_shows s hs trivial).2.1
    · rw [keyProgDone_verified h]
      exact bit_of_zero (keyProgrammed_shows _ _ s hs trivial).2.1
  · rintro h rfl
    rw [keyProgDone_failed h]
    exact ⟨(keyProgFailed_shows s hs trivial).1, keyProgFailed_otp⟩
  · rintro h rfl
    rw [keyProgDone_verified h]
    refine ⟨(keyProgrammed_shows _ _ s hs trivial).1, rfl, rfl, ?_, keyProgrammed_derived _ _ s hs trivial⟩
    show (s.otp.keys.zipIdx.map _).length = _
    simp
  · rintro h rfl i
    rw [keyProgDone_verified h]
    exact keyProgrammed_keys _ _ _

/-! LIFECYCLE_ADVANCE. -/

/-- The steps that the fuse allows: FACTORY to FIELD and FIELD to RETURN. -/
abbrev State.Advances (s : State) (target : Nat) : Prop :=
  s.otp.lifecycle = 0 ∧ target = 1 ∧ s.otp.keys.any (fun k => k.programmed) = true ∧ s.otp.chain.isEmpty = false ∧ s.bit F.GLB_LIFECYCLE_test_mode_seen = false ∨
    s.otp.lifecycle = 1 ∧ target = 2

/-- A step of the lifecycle shows at once, and its fuse starts. -/
def lifecycleStarts (target : Nat) : Prog :=
  block [setF F.GLB_LIFECYCLE_CTL_target target,
    block [setF F.GLB_LIFECYCLE_CTL_go 1, setF F.GLB_LIFECYCLE_CTL_result 0, .act (.lifecycle target), setF F.GLB_LIFECYCLE_state target]]

/-- Any other step is refused and logged. -/
def lifecycleRefused (path target : Nat) : Prog :=
  block [setF F.GLB_LIFECYCLE_CTL_target target, block [setF F.GLB_LIFECYCLE_CTL_result 2, denied path R.GLB_LIFECYCLE_CTL true]]

/-- A wrong key drops the write. -/
theorem lifecycleWrite_wrongKey {p key target : Nat} (h : key ≠ 0x5A3C) : run (lifecycleWrite p key target true) s = s := by
  have hk : (key == 0x5A3C) = false := beq_false_of_ne h
  rw [lifecycleWrite, run_read, hk]
  rfl

theorem lifecycleWrite_key {p target : Nat} (h : s.bit F.GLB_LIFECYCLE_CTL_go = false) : run (lifecycleWrite p 0x5A3C target true) s =
    run (if s.Advances target then lifecycleStarts target else lifecycleRefused p target) s := by
  have hc : (((s.otp.lifecycle == 0 && target == 1) || (s.otp.lifecycle == 1 && target == 2)) &&
      (target != 1 || (s.otp.keys.any (·.programmed) && !s.otp.chain.isEmpty && !s.bit F.GLB_LIFECYCLE_test_mode_seen))) = decide (s.Advances target) := by
    rw [Bool.eq_iff_iff]
    by_cases ht : target = 1 <;> simp [State.Advances, ht, and_assoc]
  rw [lifecycleWrite, run_read, h]
  dsimp only
  rw [hc]
  by_cases ha : s.Advances target
  · rw [if_pos ha, decide_eq_true ha]; rfl
  · rw [if_neg ha, decide_eq_false ha]; rfl

theorem lifecycleWrite_writes (p key target : Nat) (go : Bool) : (lifecycleWrite p key target go).Writes [R.GLB_LIFECYCLE, R.GLB_LIFECYCLE_CTL] := fun s => by
  dsimp only
  split
  · exact all_when_i (writes_setF.2 (by decide))
  refine all_when_i ⟨writes_setF.2 (by decide), ?_, trivial⟩
  split
  · exact ⟨writes_setF.2 (by decide), writes_setF.2 (by decide), trivial, writes_setF.2 (by decide), trivial⟩
  · exact ⟨writes_setF.2 (by decide), writes_denied, trivial⟩

theorem lifecycleStarts_shows (target : Nat) : (lifecycleStarts target).Ensures
    (Shows [(F.GLB_LIFECYCLE_state, target), (F.GLB_LIFECYCLE_CTL_result, 0), (F.GLB_LIFECYCLE_CTL_go, 1), (F.GLB_LIFECYCLE_CTL_target, target)]) :=
  ensures_shows <| leads_cons shows_setF <| leads_cons (leads_cons shows_setF <| leads_cons shows_setF <|
    leads_cons (shows_spared fun _ _ => id) <| leads_cons shows_setF leads_nil) leads_nil

theorem lifecycleRefused_shows (p target : Nat) : (lifecycleRefused p target).Leads (Shows [(F.GLB_LIFECYCLE_CTL_go, 0)])
    (Shows [(F.GLB_LIFECYCLE_CTL_result, 2), (F.GLB_LIFECYCLE_CTL_target, target), (F.GLB_LIFECYCLE_CTL_go, 0)]) :=
  leads_cons shows_setF <| leads_cons (leads_cons shows_setF <| leads_cons (shows_spared fun _ _ => spares_denied) leads_nil) leads_nil

theorem lifecycleRefused_otp (p target : Nat) : (run (lifecycleRefused p target) s).otp = s.otp := by simp [lifecycleRefused, denied]

theorem lifecycleRefused_emits (p target : Nat) :
    (lifecycleRefused p target).Emits ⟨srcOf s R.GLB_LIFECYCLE_CTL, kAccessDenied, 0, p + 8, R.GLB_LIFECYCLE_CTL⟩ :=
  emits_later (adds_setF _ _) <| emits_now (emits_later (adds_setF _ _) <| emits_now (denied_raised _ _) adds_nil) adds_nil

theorem lifecycleAdvance_acts {key : BitVec 16} {target : BitVec 2} (hs : s.ok = true) (hg : Granted path R.GLB_LIFECYCLE_CTL s)
    (hgo : s.bit F.GLB_LIFECYCLE_CTL_go = false) :
    Acts (.lifecycleAdvance path key target) s fun u =>
      (key.toNat ≠ 0x5A3C → u = s) ∧
      (key.toNat = 0x5A3C → s.Advances target.toNat → u.otp.lifecycle = target.toNat ∧ u.otp.keys = s.otp.keys ∧ u.f F.GLB_LIFECYCLE_state = target.toNat ∧ u.bit F.GLB_LIFECYCLE_CTL_go = true ∧ u.f F.GLB_LIFECYCLE_CTL_result = 0) ∧
      (key.toNat = 0x5A3C → ¬ s.Advances target.toNat → u.otp = s.otp ∧ u.f F.GLB_LIFECYCLE_CTL_result = 2 ∧ u.bit F.GLB_LIFECYCLE_CTL_go = false ∧ Raised ⟨srcOf s R.GLB_LIFECYCLE_CTL, kAccessDenied, 0, (pathCode path) + 8, R.GLB_LIFECYCLE_CTL⟩ s u) ∧
      OnlyWords [R.GLB_LIFECYCLE, R.GLB_LIFECYCLE_CTL] s u ∧ Keeps [.otp, .messages] s u := by
  refine acts_wrote (fun c => lifecycleWrite c key.toNat target.toNat true) hg rfl ⟨lifecycleWrite_wrongKey, fun hk ha => ?_, fun hk ha => ?_,
    onlyWords_of (lifecycleWrite_writes _ _ _ _) hs, keeps_of (lifecycleWrite_kinds _ _ _ _) hs _⟩
  all_goals rw [hk, lifecycleWrite_key hgo]
  · rw [if_pos ha]
    obtain ⟨hstate, hres, hstart, -⟩ := lifecycleStarts_shows target.toNat s hs trivial
    have hmax : max s.otp.lifecycle target.toNat = target.toNat := by
      rcases ha with ⟨h0, h1, -⟩ | ⟨h1, h2⟩ <;> omega
    exact ⟨hmax, rfl, hstate.trans (Nat.mod_eq_of_lt target.isLt), bit_of_one hstart, hres⟩
  · rw [if_neg ha]
    obtain ⟨hres, -, hstart, -⟩ := lifecycleRefused_shows (pathCode path) target.toNat s hs (shows_clear rfl hgo)
    exact ⟨lifecycleRefused_otp _ _, hres, bit_of_zero hstart, lifecycleRefused_emits _ _ s⟩

/-! LIFECYCLE_FUSE_DONE. -/

theorem lifecycleFuseDone_writes (verified : Bool) : (lifecycleFuseDone verified).Writes [R.GLB_LIFECYCLE_CTL] := fun _ =>
  all_when_i ⟨writes_setF.2 (by decide), writes_setF.2 (by decide), trivial⟩

theorem lifecycleFuseDone_acts {verified : Bool} (hs : s.ok = true) :
    Acts (.lifecycleFuseDone verified) s fun u =>
      (s.bit F.GLB_LIFECYCLE_CTL_go = false → u = s) ∧
      (s.bit F.GLB_LIFECYCLE_CTL_go = true → u.bit F.GLB_LIFECYCLE_CTL_go = false ∧ u.f F.GLB_LIFECYCLE_CTL_result = if verified = true then 1 else 3) ∧
      OnlyWords [R.GLB_LIFECYCLE_CTL] s u ∧ Keeps [] s u := by
  refine acts_finish (lifecycleFuseDone verified) rfl ⟨fun h => ?_, fun h => ?_, onlyWords_of (lifecycleFuseDone_writes _) hs,
    keeps_of (lifecycleFuseDone_kinds _) hs _⟩
  · rw [lifecycleFuseDone, run_read, h]
    rfl
  · have hshow : (block [setF F.GLB_LIFECYCLE_CTL_go 0, setF F.GLB_LIFECYCLE_CTL_result (if verified then 1 else 3)]).Ensures
        (Shows [(F.GLB_LIFECYCLE_CTL_result, if verified then 1 else 3), (F.GLB_LIFECYCLE_CTL_go, 0)]) :=
      ensures_shows <| leads_cons shows_setF <| leads_cons shows_setF leads_nil
    rw [lifecycleFuseDone, run_read, h]
    obtain ⟨hres, hgo, -⟩ := hshow s hs trivial
    exact ⟨bit_of_zero hgo, by cases verified <;> exact hres⟩

end Sys2Proof.Machine
end

section
/-!
PROOFS. O51.
-/
set_option Elab.async false
namespace Sys2Proof.Proofs

open Sys2Proof Sys2Proof.Machine

/-- Settles O51: each command against the small program that it runs, path by path. -/
theorem adoptionsKeysLifecycle : Obligations.AdoptionsKeysLifecycle :=
  ⟨fun _ _ _ => adoptStart_acts, fun _ _ => adoptCheckDone_acts, fun _ _ _ => keyProgStart_acts, fun _ _ => keyProgDone_acts,
    fun _ _ _ _ => lifecycleAdvance_acts, fun _ _ => lifecycleFuseDone_acts⟩

end Sys2Proof.Proofs
end

section
/-!
SUPPORT. The programs of a partial remould, path by path (R103, R105, R106, R110).
-/
set_option Elab.async false
namespace Sys2Proof.Machine

variable {s : State} {kind cg hold st : Nat} {readOk : Bool} {b : BadMould}

/-! REMOULD_START. -/

/-- The source of a remould: bit 63..60 of its address names a bank. -/
abbrev State.remouldBank (s : State) : Nat := s.wide R.MLD_REMOULD_SRC 2 / 2 ^ 60 % 16

/-- The source of a start of a kind lies in the mould banks (R105). -/
abbrev State.SourceInMould (s : State) (kind : Nat) : Prop :=
  s.mouldOk = true ∧ kind = 1 ∧ (s.remouldBank = s.mouldBank ∨ s.remouldBank = s.mouldBank + 1)

/-- The parameters of a start. -/
def remouldParams (kind cg hold : Nat) (p : Prog) : Prog :=
  block [setF F.MLD_REMOULD_CTL_kind kind, setF F.MLD_REMOULD_CTL_cg cg, setF F.MLD_REMOULD_CTL_hold_ms hold, p]

/-- A start that finds the machine busy changes only err. -/
def remouldBusy : Prog := block [setF F.MLD_REMOULD_STAT_err 0x1B, refusedMould ⟨0x1B, 0, 0⟩]

/-- The check of the image begins. -/
def remouldBegins (kind addr : Nat) : Prog :=
  block [setF F.MLD_REMOULD_STAT_state 1, setF F.MLD_REMOULD_STAT_err 0, updMld fun x => { x with partialSrc := (kind, addr) }]

theorem remouldStart_busy (h : s.f F.MLD_REMOULD_STAT_state = 1 ∨ s.f F.MLD_REMOULD_STAT_state = 2 ∨ s.f F.MLD_ADOPT_STAT_state = 2) :
    run (remouldStart kind cg hold) s = run remouldBusy s := by
  rw [remouldStart, run_read]
  exact congrArg (run · s) (if_pos h)

theorem remouldStart_free (h1 : s.f F.MLD_REMOULD_STAT_state ≠ 1) (h2 : s.f F.MLD_REMOULD_STAT_state ≠ 2) (h3 : s.f F.MLD_ADOPT_STAT_state ≠ 2) :
    run (remouldStart kind cg hold) s =
      run (remouldParams kind cg hold (if s.SourceInMould kind then remouldRefused ⟨1, 0, 0⟩ else remouldBegins kind (s.wide R.MLD_REMOULD_SRC 2))) s := by
  have hfree : ¬ (s.f F.MLD_REMOULD_STAT_state = remouldChecking ∨ s.f F.MLD_REMOULD_STAT_state = remouldStaged ∨ s.f F.MLD_ADOPT_STAT_state = 2) := by
    simp [remouldChecking, remouldStaged, h1, h2, h3]
  have hc : (s.mouldOk && kind == 1 && (s.remouldBank == s.mouldBank || s.remouldBank == s.mouldBank + 1)) = decide (s.SourceInMould kind) := by
    rw [Bool.eq_iff_iff]
    simp [State.SourceInMould, and_assoc]
  rw [remouldStart, run_read]
  dsimp only
  rw [if_neg hfree, hc]
  by_cases hb : s.SourceInMould kind
  · rw [if_pos hb, decide_eq_true hb]; rfl
  · rw [if_neg hb, decide_eq_false hb]; rfl

/-- The words of MLD that a remould writes before it is staged. -/
abbrev remouldWords : List Nat := [R.MLD_ERR_DETAIL, R.MLD_REMOULD_STAT, R.MLD_EVENT]

theorem refusedMould_writes {offs : List Nat} (h : R.MLD_EVENT ∈ offs) : (refusedMould b).Writes offs := ⟨writes_emit, writes_raise.2 h, trivial⟩

theorem remouldRefused_writes : (remouldRefused b).Writes remouldWords :=
  ⟨writes_setF.2 (by decide), writes_setF.2 (by decide), writes_setF.2 (by decide), writes_setF.2 (by decide), refusedMould_writes (by decide), trivial⟩

theorem Prog.Writes.mono {p : Prog} {offs offs' : List Nat} (h : p.Writes offs) (hsub : offs ⊆ offs') : p.Writes offs' :=
  h.imp fun a ha => by
    cases a
    case reg o w => exact hsub ha
    all_goals trivial

theorem remouldStart_writes : (remouldStart kind cg hold).Writes [R.MLD_ERR_DETAIL, R.MLD_REMOULD_CTL, R.MLD_REMOULD_STAT, R.MLD_EVENT] := fun s => by
  dsimp only
  split
  · exact ⟨writes_setF.2 (by decide), refusedMould_writes (by decide), trivial⟩
  refine ⟨writes_setF.2 (by decide), writes_setF.2 (by decide), writes_setF.2 (by decide), ?_, trivial⟩
  split
  · exact remouldRefused_writes.mono (by decide)
  · exact ⟨writes_setF.2 (by decide), writes_setF.2 (by decide), writes_updMld, trivial⟩

/-- The fields of a start's parameters. -/
abbrev remouldFields (kind cg hold : Nat) : List (Field × Nat) :=
  [(F.MLD_REMOULD_CTL_hold_ms, hold), (F.MLD_REMOULD_CTL_cg, cg), (F.MLD_REMOULD_CTL_kind, kind)]

/-- What follows the parameters starts with them in their fields. -/
theorem remouldParams_leads {p : Prog} {Q : State → Prop} (h : p.Leads (Shows (remouldFields kind cg hold)) Q) :
    (remouldParams kind cg hold p).Ensures Q := fun s hs _ =>
  (leads_cons shows_setF <| leads_cons shows_setF <| leads_cons shows_setF <| leads_cons h leads_nil :
    (remouldParams kind cg hold p).Leads (Shows []) Q) s hs trivial

theorem remouldBusy_shows {n : Nat} : remouldBusy.Leads (Shows [(F.MLD_REMOULD_STAT_state, n)])
    (Shows [(⟨R.MLD_EVENT, 1, 1⟩, 1), (F.MLD_REMOULD_STAT_err, 0x1B), (F.MLD_REMOULD_STAT_state, n)]) :=
  leads_cons shows_setF <| leads_cons (leads_cons (shows_spared fun _ _ => spares_emit) <| leads_cons shows_raise leads_nil) leads_nil

/-- What a refusal shows. -/
abbrev refusedFields (b : BadMould) : List (Field × Nat) :=
  [(⟨R.MLD_EVENT, 1, 1⟩, 1), (F.MLD_ERR_DETAIL_record, b.index), (F.MLD_ERR_DETAIL_section, b.sect), (F.MLD_REMOULD_STAT_err, b.code),
    (F.MLD_REMOULD_STAT_state, 4)]

theorem remouldRefused_shows {l : List (Field × Nat)} (h : (l.all fun e => decide (e.1.off ∉ remouldWords)) = true := by rfl) :
    (remouldRefused b).Leads (Shows l) fun t => Shows (refusedFields b) t ∧ Shows l t := fun s hs hl =>
  ⟨(ensures_shows <| leads_cons shows_setF <| leads_cons shows_setF <| leads_cons shows_setF <| leads_cons shows_setF <|
      leads_cons (leads_cons (shows_spared fun _ _ => spares_emit) <| leads_cons shows_raise leads_nil) leads_nil :
      (remouldRefused b).Ensures (Shows (refusedFields b))) s hs trivial,
    shows_spared (fun e he => remouldRefused_writes.spares (of_decide_eq_true (List.all_eq_true.1 h e he))) s hs hl⟩

theorem remouldBegins_shows {l : List (Field × Nat)} {addr : Nat}
    (h : (l.all fun e => F.MLD_REMOULD_STAT_state.apart e.1) = true := by rfl)
    (h' : (((F.MLD_REMOULD_STAT_state, 1) :: l).all fun e => F.MLD_REMOULD_STAT_err.apart e.1) = true := by rfl) :
    (remouldBegins kind addr).Leads (Shows l) (Shows ((F.MLD_REMOULD_STAT_err, 0) :: (F.MLD_REMOULD_STAT_state, 1) :: l)) :=
  leads_cons (shows_setF h) <| leads_cons (shows_setF h') <| leads_cons (shows_spared fun _ _ => spares_updMld) leads_nil

theorem remouldBegins_src {addr : Nat} : (run (remouldParams kind cg hold (remouldBegins kind addr)) s).mld.partialSrc = (kind, addr) := rfl

theorem remouldRefused_emits (b : BadMould) : (remouldRefused b).Emits ⟨0x05, 0x19, 0, b.code, b.sect * 65536 + b.index⟩ :=
  emits_later (adds_setF _ _) <| emits_later (adds_setF _ _) <| emits_later (adds_setF _ _) <| emits_later (adds_setF _ _) <|
    emits_now (refusedMould_emits b) adds_nil

theorem remouldParams_emits {p : Prog} {m : Msg} (h : p.Emits m) : (remouldParams kind cg hold p).Emits m :=
  emits_later (adds_setF _ _) <| emits_later (adds_setF _ _) <| emits_later (adds_setF _ _) <| emits_now h adds_nil

@[simp] theorem remouldRefused_mld (b : BadMould) (s : State) : (run (remouldRefused b) s).mld = s.mld := raise_mld _ _ _

theorem remouldBusy_mld (s : State) : (run remouldBusy s).mld = s.mld := by simp [remouldBusy]

/-! REMOULD_CHECK_DONE. -/

/-- The verdict on a partial image. -/
def State.partialVerdict (s : State) (readOk : Bool) (l : List Byte) : Except BadMould (List (Nat × List Byte)) :=
  imageVerdict readOk (checkImage true (s.f F.GLB_STRAPS_headcfg) s.mld.active s.otp.keys l) fun secs =>
    orBad (liveFault s l (holdSections secs)) (checkMould (s.f F.GLB_STRAPS_headcfg) (mergeMould s.mld.active (holdSections secs)))

theorem partialVerdict_error {l : List Byte} (h : s.partialFault readOk l = some b) : s.partialVerdict readOk l = .error b :=
  imageVerdict_error h

theorem partialVerdict_ok {l : List Byte} (h : s.partialFault readOk l = none) :
    ∃ secs, s.partialVerdict readOk l = .ok secs ∧ holdSections secs = sectionsOf l := by
  obtain ⟨secs, hc, hv⟩ := imageVerdict_ok (more := fun secs => orBad (liveFault s l (holdSections secs))
    (checkMould (s.f F.GLB_STRAPS_headcfg) (mergeMould s.mld.active (holdSections secs)))) h
  exact ⟨secs, hv, checkImage_sections hc⟩

/-- A partial image is held for a commit. -/
def remouldStages (l : List Byte) (secs : List (Nat × List Byte)) : Prog :=
  block [setF F.MLD_REMOULD_STAT_state 2, updMld fun x => { x with partialImage := holdSections secs, partialGen := imgGen l }]

theorem remouldCheckDone_eq (readOk : Bool) : remouldCheckDone readOk = .read fun s => when (s.f F.MLD_REMOULD_STAT_state == remouldChecking)
    (match s.partialVerdict readOk s.partialBytes with
     | .error b => remouldRefused b
     | .ok secs => remouldStages s.partialBytes secs) := rfl

theorem remouldCheckDone_refused (h : s.f F.MLD_REMOULD_STAT_state = 1) (hb : s.partialFault readOk s.partialBytes = some b) :
    run (remouldCheckDone readOk) s = run (remouldRefused b) s := by
  rw [remouldCheckDone_eq, run_read, h, partialVerdict_error hb]
  rfl

theorem remouldCheckDone_stages (h : s.f F.MLD_REMOULD_STAT_state = 1) (hn : s.partialFault readOk s.partialBytes = none) :
    ∃ secs, holdSections secs = sectionsOf s.partialBytes ∧ run (remouldCheckDone readOk) s = run (remouldStages s.partialBytes secs) s := by
  obtain ⟨secs, hv, hm⟩ := partialVerdict_ok hn
  refine ⟨secs, hm, ?_⟩
  rw [remouldCheckDone_eq, run_read, h, hv]
  rfl

theorem remouldCheckDone_writes : (remouldCheckDone readOk).Writes remouldWords := by
  rw [remouldCheckDone_eq]
  refine fun s => all_when_i ?_
  split
  · exact remouldRefused_writes
  · exact ⟨writes_setF.2 (by decide), writes_updMld, trivial⟩

theorem remouldStages_state {l : List Byte} {secs : List (Nat × List Byte)} :
    (remouldStages l secs).Ensures fun t => t.f F.MLD_REMOULD_STAT_state = 2 :=
  ensures_now ensures_setF (leads_cons (maintains_f spares_updMld) leads_nil)

/-- The image in force is as before where a check of one ends. -/
theorem remouldCheckDone_active (h : s.f F.MLD_REMOULD_STAT_state = 1) : (run (remouldCheckDone readOk) s).mld.active = s.mld.active := by
  cases hv : s.partialFault readOk s.partialBytes with
  | some b =>
    rw [remouldCheckDone_refused h hv]
    exact congrArg (·.active) (remouldRefused_mld b s)
  | none =>
    obtain ⟨secs, -, hrun⟩ := remouldCheckDone_stages h hv
    rw [hrun]
    rfl

/-- The ports whose record a staged image changes are held (R107). -/
theorem remouldPorts_held {p : Nat} (h : s.f F.MLD_REMOULD_STAT_state = 2) (hp : p ∈ s.remouldPorts) : s.heldByRemould p = true := by
  unfold State.remouldPorts at hp
  split at hp
  · cases hp
  next hsome =>
    cases hl : s.mld.partialImage.get? scPots with
    | none => exact absurd (by rw [hl]; rfl) hsome
    | some l =>
      have hne := (List.mem_filter.1 hp).2
      have hd : s.mld.partialImage.getD scPots [] = l := by rw [SMap.getD, hl, Option.getD_some]
      rw [State.heldByRemould, h, show s.mld.partialImage.get? 0x0002 = some l from hl]
      rw [mPot, hd] at hne
      exact hne

/-- Two first checks with one refusal. -/
theorem firstBad_either {c d : Bool} {code sect index : Nat} {l : List (Option BadMould)} (h : (c || d) = true) :
    firstBad (badIf c code sect index :: badIf d code sect index :: l) = some ⟨code, sect, index⟩ := by
  cases c
  · cases d
    · cases h
    · rfl
  · rfl

/-- An image for another mould, or not newer than the partial image in force, is refused with 0x17 before any other check (R106). -/
theorem partialFault_base {l : List Byte} {secs : List (Nat × List Byte)}
    (hc : checkImage true (s.f F.GLB_STRAPS_headcfg) s.mld.active s.otp.keys l = .ok secs)
    (h : (imgBase l != s.mld.digest || decide (imgGen l ≤ s.f F.MLD_ACTIVE_GEN_partial_gen)) = true) :
    s.partialFault true l = some ⟨0x17, 0, 0⟩ := by
  have hlive : liveFault s l (holdSections secs) = some ⟨0x17, 0, 0⟩ := firstBad_either (by rw [Bool.or_assoc, h, Bool.or_true])
  simp only [State.partialFault, hc, hlive]
  rfl

/-! REMOULD_EXPIRE and REMOULD_CANCEL. -/

/-- A staged remould ends without effect, in a state. -/
def remouldEnds (st : Nat) (ps : List Nat) : Prog := block [leaveStaged st ps, raise R.MLD_EVENT 3]

theorem remouldExpire_idle (h : s.f F.MLD_REMOULD_STAT_state ≠ 2) : run remouldExpire s = s := by
  have hc : (s.f F.MLD_REMOULD_STAT_state == remouldStaged) = false := beq_false_of_ne h
  rw [remouldExpire, run_read, hc]
  rfl
theorem remouldCancel_idle (h : s.f F.MLD_REMOULD_STAT_state ≠ 2) : run remouldCancel s = s := by
  have hc : (s.f F.MLD_REMOULD_STAT_state == remouldStaged) = false := beq_false_of_ne h
  rw [remouldCancel, run_read, hc]
  rfl
theorem remouldExpire_staged (h : s.f F.MLD_REMOULD_STAT_state = 2) : run remouldExpire s = run (remouldEnds 6 s.remouldPorts) s := by
  rw [remouldExpire, run_read, h]
  rfl
theorem remouldCancel_staged (h : s.f F.MLD_REMOULD_STAT_state = 2) : run remouldCancel s = run (remouldEnds 5 s.remouldPorts) s := by
  rw [remouldCancel, run_read, h]
  rfl

theorem alone_MLD_REMOULD_STAT : alone 111 = true := by decide +kernel

/-- The wakes served as the remould leaves STAGED. -/
abbrev wakesServed (ps : List Nat) : Prog :=
  each ps fun p => .read fun t => if t.pendingWake p then wakeServe p else when (t.port p).leaving (tryLeave p)

theorem wakesServed_kinds (ps : List Nat) :
    Prog.All (Act.among 0x220084300003CA381800041409250000000000000000000000000C0000001000000000004040000000000000000000000003400037D0) (wakesServed ps) := by
  refine all_each_i fun p => all_read_i fun t => ?_
  split
  · exact wakeServe_kinds p
  · exact all_when_i ((tryLeave_kinds p).mono rfl)

theorem wakesServed_spares (ps : List Nat) : (wakesServed ps).Spares R.MLD_REMOULD_STAT :=
  spares_word alone_MLD_REMOULD_STAT (wakesServed_kinds ps) rfl rfl rfl

theorem wakesServed_mld (ps : List Nat) (s : State) : (run (wakesServed ps) s).mld = s.mld := run_mld_of (wakesServed_kinds ps) rfl

theorem leaveStaged_shows (st : Nat) (ps : List Nat) : (leaveStaged st ps).Ensures (Shows [(F.MLD_REMOULD_STAT_state, st)]) :=
  ensures_shows <| leads_cons shows_setF <| leads_cons (shows_spared fun _ _ => spares_updMld) <|
    leads_cons (shows_spared (List.forall_mem_singleton.2 (wakesServed_spares ps))) leads_nil

theorem leaveStaged_mld (st : Nat) (ps : List Nat) (s : State) :
    (run (leaveStaged st ps) s).mld = { s.mld with partialImage := [], partialGen := 0 } :=
  wakesServed_mld ps _

/-- What is left of a remould that ends without effect: its state, no image, no port held (R110). -/
theorem remouldEnds_leaves (ps : List Nat) (hst : st < 8) (h2 : st ≠ 2) (hs : s.ok = true) :
    (run (remouldEnds st ps) s).f F.MLD_REMOULD_STAT_state = st ∧ (run (remouldEnds st ps) s).mld.partialImage = [] ∧
      (run (remouldEnds st ps) s).mld.active = s.mld.active ∧ (run (remouldEnds st ps) s).raised R.MLD_EVENT 3 = true ∧
      ∀ p : Port, (run (remouldEnds st ps) s).heldByRemould p = false := by
  have hshow : (remouldEnds st ps).Ensures (Shows [(⟨R.MLD_EVENT, 3, 3⟩, 1), (F.MLD_REMOULD_STAT_state, st)]) :=
    fun t ht _ => (leads_cons ((leaveStaged_shows st ps).leads) <| leads_cons shows_raise leads_nil :
      (remouldEnds st ps).Leads (Shows []) _) t ht trivial
  obtain ⟨hevent, hstate, -⟩ := hshow s hs trivial
  have hstate : (run (remouldEnds st ps) s).f F.MLD_REMOULD_STAT_state = st := hstate.trans (Nat.mod_eq_of_lt hst)
  have hmld : (run (remouldEnds st ps) s).mld = { s.mld with partialImage := [], partialGen := 0 } :=
    (raise_mld _ _ _).trans (leaveStaged_mld st ps s)
  refine ⟨hstate, by rw [hmld], by rw [hmld], raised_iff.2 hevent, fun p => ?_⟩
  rw [State.heldByRemould, hstate, beq_false_of_ne h2, Bool.false_and]

end Sys2Proof.Machine
end

section
/-!
PROOFS. O50, clause by clause: partial remoulds (R103, R105, R106, R107, R110).
-/
set_option Elab.async false
namespace Sys2Proof.Machine

variable {s : State} {path : Path}

theorem remouldStart_acts {kind : BitVec 1} {cg : BitVec 5} {hold : BitVec 8} (hs : s.ok = true) (hg : Granted path R.MLD_REMOULD_CTL s) :
    Acts (.remouldStart path kind cg hold) s fun u =>
      ((s.f F.MLD_REMOULD_STAT_state = 1 ∨ s.f F.MLD_REMOULD_STAT_state = 2 ∨ s.f F.MLD_ADOPT_STAT_state = 2) → u.f F.MLD_REMOULD_STAT_err = 0x1B ∧ u.f F.MLD_REMOULD_STAT_state = s.f F.MLD_REMOULD_STAT_state ∧ Raised ⟨0x05, 0x19, 0, 0x1B, 0 * 65536 + 0⟩ s u ∧ u.raised R.MLD_EVENT 1 = true ∧ u.mld = s.mld) ∧
      (s.f F.MLD_REMOULD_STAT_state ≠ 1 → s.f F.MLD_REMOULD_STAT_state ≠ 2 → s.f F.MLD_ADOPT_STAT_state ≠ 2 → u.f F.MLD_REMOULD_CTL_kind = kind.toNat ∧ u.f F.MLD_REMOULD_CTL_cg = cg.toNat ∧ u.f F.MLD_REMOULD_CTL_hold_ms = hold.toNat) ∧
      (s.f F.MLD_REMOULD_STAT_state ≠ 1 → s.f F.MLD_REMOULD_STAT_state ≠ 2 → s.f F.MLD_ADOPT_STAT_state ≠ 2 → s.SourceInMould kind.toNat → u.f F.MLD_REMOULD_STAT_state = 4 ∧ u.f F.MLD_REMOULD_STAT_err = 1 ∧ Raised ⟨0x05, 0x19, 0, 1, 0 * 65536 + 0⟩ s u ∧ u.raised R.MLD_EVENT 1 = true) ∧
      (s.f F.MLD_REMOULD_STAT_state ≠ 1 → s.f F.MLD_REMOULD_STAT_state ≠ 2 → s.f F.MLD_ADOPT_STAT_state ≠ 2 → ¬ s.SourceInMould kind.toNat → u.f F.MLD_REMOULD_STAT_state = 1 ∧ u.f F.MLD_REMOULD_STAT_err = 0 ∧ u.mld.partialSrc = (kind.toNat, s.wide R.MLD_REMOULD_SRC 2)) ∧
      OnlyWords [R.MLD_ERR_DETAIL, R.MLD_REMOULD_CTL, R.MLD_REMOULD_STAT, R.MLD_EVENT] s u ∧ Keeps [.windows, .mould, .messages] s u := by
  refine acts_wrote (fun _ => remouldStart kind.toNat cg.toNat hold.toNat) hg rfl ⟨fun h => ?_, fun h1 h2 h3 => ?_, fun h1 h2 h3 hm => ?_,
    fun h1 h2 h3 hm => ?_, onlyWords_of remouldStart_writes hs, keeps_of (remouldStart_kinds _ _ _) hs _⟩
  · rw [remouldStart_busy h]
    have hstate : s.f F.MLD_REMOULD_STAT_state < 2 ^ 3 := Nat.mod_lt _ (by decide)
    obtain ⟨hevent, herr, hkept, -⟩ := remouldBusy_shows (n := s.f F.MLD_REMOULD_STAT_state) s hs ⟨(Nat.mod_eq_of_lt hstate).symm, trivial⟩
    exact ⟨herr, hkept.trans (Nat.mod_eq_of_lt hstate), emits_later (adds_setF _ _) (emits_now (refusedMould_emits _) adds_nil) s,
      raised_iff.2 hevent, remouldBusy_mld s⟩
  all_goals rw [remouldStart_free h1 h2 h3]
  · have hfields : (remouldParams kind.toNat cg.toNat hold.toNat
        (if s.SourceInMould kind.toNat then remouldRefused ⟨1, 0, 0⟩ else remouldBegins kind.toNat (s.wide R.MLD_REMOULD_SRC 2))).Ensures
        (Shows (remouldFields kind.toNat cg.toNat hold.toNat)) := by
      refine remouldParams_leads ?_
      split
      · exact fun t ht h => (remouldRefused_shows rfl t ht h).2
      · exact fun t ht h => (remouldBegins_shows rfl rfl t ht h).2.2
    obtain ⟨hhold, hcg, hkind, -⟩ := hfields s hs trivial
    exact ⟨hkind.trans (Nat.mod_eq_of_lt kind.isLt), hcg.trans (Nat.mod_eq_of_lt cg.isLt), hhold.trans (Nat.mod_eq_of_lt hold.isLt)⟩
  · rw [if_pos hm]
    obtain ⟨⟨hevent, -, -, herr, hstate, -⟩, -⟩ := remouldParams_leads remouldRefused_shows s hs trivial
    exact ⟨hstate, herr, remouldParams_emits (remouldRefused_emits _) s, raised_iff.2 hevent⟩
  · rw [if_neg hm]
    obtain ⟨herr, hstate, -⟩ := remouldParams_leads remouldBegins_shows s hs trivial
    exact ⟨hstate, herr, remouldBegins_src⟩

theorem remouldCheckDone_acts {readOk : Bool} (hs : s.ok = true) (h : s.f F.MLD_REMOULD_STAT_state = 1) :
    Acts (.remouldCheckDone readOk) s fun u =>
      u.mld.active = s.mld.active ∧
      (s.partialFault readOk s.partialBytes = none → u.f F.MLD_REMOULD_STAT_state = 2 ∧ u.mld.partialImage = sectionsOf s.partialBytes ∧ u.mld.partialGen = imgGen s.partialBytes ∧ ∀ p ∈ u.remouldPorts, u.heldByRemould p = true) ∧
      (readOk = true → (match checkImage true (s.f F.GLB_STRAPS_headcfg) s.mld.active s.otp.keys s.partialBytes with | .ok _ => imgBase s.partialBytes != s.mld.digest || decide (imgGen s.partialBytes ≤ s.f F.MLD_ACTIVE_GEN_partial_gen) | .error _ => false) = true → u.f F.MLD_REMOULD_STAT_state = 4 ∧ u.f F.MLD_REMOULD_STAT_err = 0x17) ∧
      (∀ b ∈ (s.partialFault readOk s.partialBytes).toList, u.f F.MLD_REMOULD_STAT_state = 4 ∧ u.f F.MLD_REMOULD_STAT_err = b.code % 64 ∧ u.f F.MLD_ERR_DETAIL_section = b.sect % 65536 ∧ u.f F.MLD_ERR_DETAIL_record = b.index % 65536 ∧ Raised ⟨0x05, 0x19, 0, b.code, b.sect * 65536 + b.index⟩ s u ∧ u.raised R.MLD_EVENT 1 = true ∧ u.mld = s.mld) ∧
      OnlyWords [R.MLD_ERR_DETAIL, R.MLD_REMOULD_STAT, R.MLD_EVENT] s u ∧ Keeps [.windows, .mould, .messages] s u := by
  have refused (b : BadMould) : Shows (refusedFields b) (run (remouldRefused b) s) := (remouldRefused_shows (l := []) rfl s hs trivial).1
  refine acts_finish (remouldCheckDone readOk) rfl ⟨remouldCheckDone_active h, fun hn => ?_, fun hread hbase => ?_, fun b hb => ?_,
    onlyWords_of remouldCheckDone_writes hs, keeps_of (remouldCheckDone_kinds readOk) hs _⟩
  · obtain ⟨secs, hm, hrun⟩ := remouldCheckDone_stages h hn
    rw [hrun]
    have hstate := remouldStages_state (l := s.partialBytes) (secs := secs) s hs trivial
    exact ⟨hstate, hm, rfl, fun p => remouldPorts_held hstate⟩
  · subst hread
    split at hbase
    next secs hc =>
      rw [remouldCheckDone_refused h (partialFault_base hc hbase)]
      obtain ⟨-, -, -, herr, hstate, -⟩ := refused ⟨0x17, 0, 0⟩
      exact ⟨hstate, herr⟩
    next => cases hbase
  · rw [remouldCheckDone_refused h (Option.mem_toList.1 hb)]
    obtain ⟨hevent, hrecord, hsection, herr, hstate, -⟩ := refused b
    exact ⟨hstate, herr, hsection, hrecord, remouldRefused_emits b s, raised_iff.2 hevent, remouldRefused_mld b s⟩

/-- The registers that the end of a staged remould may change: those of the ports whose wakes it serves, and the remould's own. -/
abbrev remouldEndIds : List RegId :=
  [.TB_STAT, .TB_EVENT, .MLD_REMOULD_STAT, .MLD_EVENT, .MLD_GOV_CLAMP_COUNT, .CAL_PORT_STAT, .CAL_PORT_QUAL, .BND_STAT, .BND_EVENT, .BND_PAIR_STAT, .CANE_STAT, .CANE_EVENT, .WAKE_PENDING, .WAKE_EVENT, .WAKE_PCOUNT, .PORT_CTL, .PORT_STATE, .PORT_PARTNER_ABIL, .PORT_PARTNER_FLAGS, .PORT_PARTNER_ID, .PORT_LINK_QUAL, .PORT_MSE_REF, .PORT_DROP_COUNT, .PORT_DROP_HIST_IDX, .PORT_DROP_HIST, .PORT_EVENT, .PORT_X50_STAT, .PORT_AM_STAT, .PORT_LOOP_STAT, .PORT_SEG_STAT, .PORT_LPI_STAT, .PORT_TC10_STAT]

/-- A program with the mask of REMOULD_EXPIRE and REMOULD_CANCEL changes these registers and the link's parts only. -/
theorem remouldEnd_frame {p : Prog}
    (hp : Prog.All (Act.among 0x220084300003CA381800041409250000000000000000000000000C000000100480000000404000000000000000000000000340003FD0) p)
    (hs : s.ok = true) : Frame remouldEndIds (linkParts ++ [.mould, .draws]) s (run p s) :=
  ⟨run_only_regs hp (State.ok_regs_sorted hs) _ rfl rfl (by decide +kernel), keeps_of hp hs _⟩

theorem remouldExpire_acts (hs : s.ok = true) :
    Acts .remouldExpire s fun u =>
      (s.f F.MLD_REMOULD_STAT_state ≠ 2 → u = s) ∧
      (s.f F.MLD_REMOULD_STAT_state = 2 → u.f F.MLD_REMOULD_STAT_state = 6 ∧ u.mld.partialImage = [] ∧ u.mld.active = s.mld.active ∧ u.raised R.MLD_EVENT 3 = true ∧ ∀ p : Port, u.heldByRemould p = false) ∧
      Frame remouldEndIds (linkParts ++ [.mould, .draws]) s u := by
  refine acts_finish remouldExpire rfl ⟨remouldExpire_idle, fun h => ?_, remouldEnd_frame remouldExpire_kinds hs⟩
  rw [remouldExpire_staged h]
  exact remouldEnds_leaves _ (by decide) (by decide) hs

theorem remouldCancel_acts (hs : s.ok = true) (hg : Granted path R.MLD_REMOULD_CTL s) :
    Acts (.remouldCancel path) s fun u =>
      (s.f F.MLD_REMOULD_STAT_state ≠ 2 → u = s) ∧
      (s.f F.MLD_REMOULD_STAT_state = 2 → u.f F.MLD_REMOULD_STAT_state = 5 ∧ u.mld.partialImage = [] ∧ u.mld.active = s.mld.active ∧ u.raised R.MLD_EVENT 3 = true ∧ ∀ p : Port, u.heldByRemould p = false) ∧
      Frame remouldEndIds (linkParts ++ [.mould, .draws]) s u := by
  refine acts_wrote (fun _ => remouldCancel) hg rfl ⟨remouldCancel_idle, fun h => ?_, remouldEnd_frame remouldCancel_kinds hs⟩
  rw [remouldCancel_staged h]
  exact remouldEnds_leaves _ (by decide) (by decide) hs

end Sys2Proof.Machine
end

section
/-!
PROOFS. O50.
-/
set_option Elab.async false
namespace Sys2Proof.Proofs

open Sys2Proof Sys2Proof.Machine

/-- Settles O50: each command against the program that it runs, path by path; a staged remould's end is one for both causes. -/
theorem remoulds : Obligations.Remoulds :=
  ⟨fun _ _ _ _ _ => remouldStart_acts, fun _ _ => remouldCheckDone_acts, fun _ => remouldExpire_acts, fun _ _ => remouldCancel_acts⟩

end Sys2Proof.Proofs
end

section
/-!
SUPPORT. The words that show a full load, through the programs that put a mould in force and those that follow a load (R94, R97,
R99, R101 to R103).
-/
set_option Elab.async false
namespace Sys2Proof.Machine

variable {s : State} {p : Prog} {K n off : Nat} {l : List (Field × Nat)}

/-! Programs that leave the words of a load alone. -/

theorem alone_GLB_MODE : alone 4 = true := by decide +kernel
theorem alone_GLB_EVENT : alone 8 = true := by decide +kernel
theorem alone_MLD_STATUS : alone 102 = true := by decide +kernel
theorem alone_MLD_ERR_DETAIL : alone 103 = true := by decide +kernel
theorem alone_MLD_LOAD_CTL : alone 108 = true := by decide +kernel
theorem alone_MLD_EVENT : alone 114 = true := by decide +kernel

/-- The words that show a load, and the mould's own bit. -/
def loadWords : List Nat := [R.GLB_MODE, R.GLB_EVENT, R.MLD_STATUS, R.MLD_ERR_DETAIL, R.MLD_LOAD_CTL, R.MLD_EVENT]

/-- A mask without their tables. -/
def sparesLoad (K : Nat) : Bool := [62, 63, 68, 72, 166, 167, 172, 178].all fun i => !K.testBit i

theorem spares_loadWords (hp : Prog.All (Act.among K) p) (hK : sparesLoad K = true) (h : off ∈ loadWords) : p.Spares off := by
  have hbit : ∀ i ∈ [62, 63, 68, 72, 166, 167, 172, 178], K.testBit i = false := fun i hi => by
    simpa using List.all_eq_true.1 hK i hi
  simp only [loadWords, List.mem_cons, List.not_mem_nil, or_false] at h
  have h62 := hbit 62 (by decide)
  have h63 := hbit 63 (by decide)
  rcases h with rfl | rfl | rfl | rfl | rfl | rfl
  · exact spares_word alone_GLB_MODE hp h62 h63 (hbit 68 (by decide))
  · exact spares_word alone_GLB_EVENT hp h62 h63 (hbit 72 (by decide))
  · exact spares_word alone_MLD_STATUS hp h62 h63 (hbit 166 (by decide))
  · exact spares_word alone_MLD_ERR_DETAIL hp h62 h63 (hbit 167 (by decide))
  · exact spares_word alone_MLD_LOAD_CTL hp h62 h63 (hbit 172 (by decide))
  · exact spares_word alone_MLD_EVENT hp h62 h63 (hbit 178 (by decide))

/-- Such a program keeps what these words show. -/
theorem shows_masked (hp : Prog.All (Act.among K) p) (hK : sparesLoad K = true := by decide +kernel)
    (hl : (l.all fun e => decide (e.1.off ∈ loadWords)) = true := by rfl) : p.Maintains (Shows l) :=
  shows_spared fun e he => spares_loadWords hp hK (of_decide_eq_true (List.all_eq_true.1 hl e he))

/-- A field written beside those shown. -/
theorem shows_beside {F : Field} {v : Nat} (h : (l.all fun e => F.apart e.1) = true := by rfl) (hF : F.lo ≤ F.hi ∧ F.hi < 32 := by decide) :
    (setF F v).Maintains (Shows l) := fun s hs hl => (shows_setF h hF s hs hl).2

/-! What the blocks take from a mould. -/

theorem setWide_spares {o v : Nat} (h : off < o) : (setWide o n v).Spares off := by
  induction n generalizing o v with
  | zero => exact trivial
  | succ n ih => exact ⟨spares_setReg.2 (by omega), ih (by omega)⟩

/-- The words of a table lie at its base or above. -/
theorem lt_at1 {base stride count i : Nat} (h : off < base ∧ off < outside := by decide) : off < at1 base stride count i := by
  unfold at1
  split <;> omega
theorem lt_at2 {base stride count stride2 count2 i j : Nat} (h : off < base ∧ off < outside := by decide) :
    off < at2 base stride count stride2 count2 i j := by
  unfold at2
  split <;> omega

/-- MLD shows the mould in force beside the check of the last load. -/
theorem deriveMld_err : deriveMld.Maintains fun s => s.f F.MLD_STATUS_err = n :=
  leads_read fun s _ _ => maintains_when fun _ =>
    leads_cons (maintains_f (setWide_spares (by decide))) <|
    leads_cons (maintains_f (all_each_i fun p => spares_setReg.2 (Nat.ne_of_gt lt_at1))) <|
    leads_cons maintains_setF <| leads_cons maintains_setF <| leads_cons maintains_setF <| leads_cons maintains_setF <|
    leads_cons (maintains_f (all_each_i fun k => ⟨setWide_spares lt_at2, setWide_spares lt_at2, spares_setReg.2 (Nat.ne_of_gt lt_at2), trivial⟩)) <|
    leads_cons maintains_setF <| leads_cons maintains_setF <|
    leads_cons (maintains_f (setWide_spares (by decide))) <|
    leads_cons maintains_setF <| leads_cons maintains_setF <| leads_cons maintains_setF <| leads_cons maintains_setF leads_nil

/-- The mould's bit, and the check of the last load. -/
abbrev installed : List (Field × Nat) := [(F.GLB_MODE_mould_ok, 1), (F.MLD_STATUS_err, 0)]

theorem deriveMld_installed : deriveMld.Maintains (Shows installed) := fun s hs ⟨hok, herr, h⟩ =>
  ⟨maintains_f (spares_word alone_GLB_MODE deriveMld_kinds rfl rfl rfl) s hs hok, deriveMld_err s hs herr, h⟩

theorem deriveGlb_installed : deriveGlb.Maintains (Shows installed) :=
  leads_read fun _ _ _ => maintains_when fun _ => leads_cons shows_beside <| leads_cons shows_beside leads_nil

theorem deriveCls_installed : deriveCls.Maintains (Shows installed) := by
  with_reducible exact shows_masked deriveCls_kinds (by decide +kernel) rfl

/-- What every block takes from a mould leaves its bit and the check of its load (R99, R520). -/
theorem deriveAll_installed : deriveAll.Maintains (Shows installed) :=
  leads_cons deriveMld_installed <| leads_cons deriveGlb_installed <| leads_cons (shows_masked deriveFlt_kinds) <|
    leads_cons (shows_masked deriveTb_kinds) <| leads_cons (shows_masked deriveFur_kinds) <|
    leads_cons (maintains_each fun _ _ => shows_masked (deriveCane_kinds _)) <|
    leads_cons (maintains_each fun _ _ => shows_masked (deriveBnd_kinds _)) <|
    leads_cons (maintains_each fun _ _ => shows_masked (derivePort_kinds _)) <|
    leads_cons (maintains_each fun _ _ => shows_masked (deriveHead_kinds _)) <|
    leads_cons (maintains_each fun _ _ => shows_masked (deriveQp_kinds _)) <|
    leads_cons (maintains_each fun _ _ => shows_masked (derivePortDef_kinds _)) <|
    leads_cons deriveCls_installed <| leads_cons (shows_masked deriveLch_kinds) <|
    leads_cons (shows_masked deriveWake_kinds) <| leads_cons (shows_masked deriveDetEn_kinds) leads_nil

/-- A mould put in force shows its bit, no failed check, and the event (R94, R102). -/
theorem installMould_shows (img : List Byte) (secs : List (Nat × List Byte)) (src : Nat) :
    (installMould img secs src).Ensures (Shows ((⟨R.GLB_EVENT, 3, 3⟩, 1) :: installed)) :=
  ensures_shows <| leads_cons (shows_spared fun _ _ => spares_updMld) <| leads_cons shows_setF <|
    leads_cons (shows_spared (List.forall_mem_singleton.2 (spares_setReg.2 (by decide)))) <|
    leads_cons (shows_spared fun _ _ _ => id) <|
    leads_cons (shows_spared (List.forall_mem_singleton.2 fun _ => setWide_spares (by decide))) <| leads_cons shows_setF <|
    leads_cons (maintains_when fun _ => shows_spared fun _ _ => id) <| leads_cons (shows_masked deriveKeys_kinds) <|
    leads_cons deriveAll_installed <| leads_cons (leads_read fun _ _ _ => shows_beside) <| leads_cons shows_raise leads_nil

/-! The end of a load. -/

theorem loadEnds_shows (h : (l.all fun e => F.MLD_LOAD_CTL_start.apart e.1) = true := by rfl)
    (h' : (((F.MLD_LOAD_CTL_start, 0) :: l).all fun e => decide (R.MLD_EVENT ≠ e.1.off ∨ e.1.hi < 24 ∧ (e.1.hi < 0 ∨ 0 < e.1.lo))) = true := by rfl) :
    loadEnds.Leads (Shows l) (Shows ((⟨R.MLD_EVENT, 0, 0⟩, 1) :: (F.MLD_LOAD_CTL_start, 0) :: l)) :=
  leads_cons (shows_setF h) <| leads_cons (shows_spared fun _ _ => spares_updMld) <| leads_cons (shows_raise (by decide) h') leads_nil

/-- A reloaded mould (R100): the event and the verify anneal. -/
def reloaded : Prog := block [raise R.MLD_EVENT 5, verifyBegin]

theorem reloaded_shows (h : (l.all fun e => decide (R.MLD_EVENT ≠ e.1.off)) = true := by rfl)
    (hl : (l.all fun e => decide (e.1.off ∈ loadWords)) = true := by rfl) : reloaded.Maintains (Shows l) :=
  leads_cons (shows_spared fun e he => spares_raise.2 (of_decide_eq_true (List.all_eq_true.1 h e he))) <|
    leads_cons (shows_masked verifyBegin_kinds (hl := hl)) leads_nil

/-- What follows a load: the holder's first value with a mould, and the anneal of a cold start. -/
abbrev afterLoad : Prog := block [holderInit, annealBegins]

theorem afterLoad_shows (h : (l.all fun e => F.GLB_MODE_holder.apart e.1) = true := by rfl)
    (hl : (l.all fun e => decide (e.1.off ∈ loadWords)) = true := by rfl) : afterLoad.Maintains (Shows l) :=
  leads_cons (leads_read fun _ _ _ => maintains_when fun _ =>
    leads_cons (shows_beside h) <| leads_cons (shows_masked rightsShow_kinds (hl := hl)) leads_nil) <|
  leads_cons (shows_masked annealBegins_kinds (hl := hl)) leads_nil

/-! The mould that the loader holds. -/

@[simp] theorem deriveKeys_mld (s : State) : (run deriveKeys s).mld = s.mld := run_mld_of deriveKeys_kinds rfl
@[simp] theorem deriveAll_mld (s : State) : (run deriveAll s).mld = s.mld := run_mld_of deriveAll_kinds rfl
@[simp] theorem verifyBegin_mld (s : State) : (run verifyBegin s).mld = s.mld := run_mld_of verifyBegin_kinds rfl
@[simp] theorem holderInit_mld (s : State) : (run holderInit s).mld = s.mld := run_mld_of holderInit_kinds rfl
@[simp] theorem annealBegins_mld (s : State) : (run annealBegins s).mld = s.mld := run_mld_of annealBegins_kinds rfl

end Sys2Proof.Machine
end

section
/-!
PROOFS. O49, clause by clause: full loads (R94, R95, R97, R99, R101 to R103).
-/
set_option Elab.async false
namespace Sys2Proof.Machine

variable {s : State} {path : Path} {readOk : Bool} {host : List Byte} {c kind src addr : Nat} {b : BadMould}

/-! MOULD_LOAD_START. -/

/-- A load begins, for a path. -/
def loadBegins (c kind addr : Nat) : Prog :=
  block [setF F.MLD_LOAD_CTL_kind kind, setF F.MLD_LOAD_CTL_start 1, setF F.MLD_STATUS_state 1,
    updMld fun x => { x with load := some (kind, addr, c), loadLeft := [] }, when (kind == 3) (send (.hostRead c addr 96))]

theorem mouldLoadStart_denied (h : s.mouldOk = true ∨ kind = 3 ∧ 4 ≤ c ∧ s.mld.load = none) :
    run (mouldLoadStart c kind true) s = run (denied c R.MLD_LOAD_CTL true) s := by
  rw [mouldLoadStart, run_read]
  cases hok : s.mouldOk
  · obtain ⟨rfl, hc, hl⟩ := h.resolve_left (by simp [hok])
    rw [hl, decide_eq_true hc]
    rfl
  · rfl

theorem mouldLoadStart_running (hok : s.mouldOk = false) (hl : s.mld.load.isSome = true) : run (mouldLoadStart c kind true) s = s := by
  rw [mouldLoadStart, run_read, hok, hl]
  rfl

theorem mouldLoadStart_begins (hok : s.mouldOk = false) (hl : s.mld.load = none) (hk : kind ≠ 3 ∨ c < 4) :
    run (mouldLoadStart c kind true) s = run (loadBegins c kind (s.wide R.MLD_LOAD_SRC 2)) s := by
  have hc : (true && kind == 3 && decide (4 ≤ c)) = false := by
    rcases hk with hk | hc
    · rw [beq_false_of_ne hk, Bool.and_false, Bool.false_and]
    · rw [decide_eq_false (Nat.not_le.2 hc), Bool.and_false]
  rw [mouldLoadStart, run_read, hok, hl, hc]
  rfl

theorem mouldLoadStart_writes : (mouldLoadStart c kind true).Writes [R.MLD_STATUS, R.MLD_LOAD_CTL] := fun s => by
  dsimp only
  split
  · exact writes_denied
  split
  · trivial
  split
  · exact writes_denied
  · exact ⟨writes_setF.2 (by decide), writes_setF.2 (by decide), writes_setF.2 (by decide), writes_updMld, all_when_i writes_send, trivial⟩

theorem loadBegins_shows : (loadBegins c kind addr).Ensures
    (Shows [(F.MLD_STATUS_state, 1), (F.MLD_LOAD_CTL_start, 1), (F.MLD_LOAD_CTL_kind, kind)]) :=
  ensures_shows <| leads_cons shows_setF <| leads_cons shows_setF <| leads_cons shows_setF <|
    leads_cons (shows_spared fun _ _ => spares_updMld) <| leads_cons (maintains_when fun _ => shows_spared fun _ _ => id) leads_nil

theorem loadBegins_load : (run (loadBegins c kind addr) s).mld.load = some (kind, addr, c) := by
  unfold loadBegins
  cases kind == 3 <;> rfl

theorem denied_mld (off : Nat) (w : Bool) : (run (denied c off w) s).mld = s.mld := by simp [denied]

theorem mouldLoadStart_acts {kind : BitVec 2} (hs : s.ok = true) (hg : Granted path R.MLD_LOAD_CTL s) :
    Acts (.mouldLoadStart path kind) s fun u =>
      (s.mouldOk = true ∨ kind.toNat = 3 ∧ 4 ≤ (pathCode path) ∧ s.mld.load = none → Raised ⟨srcOf s R.MLD_LOAD_CTL, kAccessDenied, 0, (pathCode path) + 8, R.MLD_LOAD_CTL⟩ s u ∧ u.mld = s.mld) ∧
      (s.mouldOk = false → s.mld.load.isSome = true → u = s) ∧
      (s.mouldOk = false → s.mld.load = none → kind.toNat ≠ 3 ∨ (pathCode path) < 4 → u.mld.load = some (kind.toNat, s.wide R.MLD_LOAD_SRC 2, (pathCode path)) ∧ u.f F.MLD_STATUS_state = 1 ∧ u.f F.MLD_LOAD_CTL_kind = kind.toNat ∧ u.bit F.MLD_LOAD_CTL_start = true) ∧
      OnlyWords [R.MLD_STATUS, R.MLD_LOAD_CTL] s u ∧ Keeps [.mould, .messages, .sent] s u := by
  refine acts_wrote (fun c => mouldLoadStart c kind.toNat true) hg rfl ⟨fun h => ?_, mouldLoadStart_running, fun hok hl hk => ?_,
    onlyWords_of mouldLoadStart_writes hs, keeps_of (mouldLoadStart_kinds _ _ _) hs _⟩
  · rw [mouldLoadStart_denied h]
    exact ⟨denied_raised _ _ s, denied_mld _ _⟩
  · rw [mouldLoadStart_begins hok hl hk]
    obtain ⟨hstate, hstart, hkind, -⟩ := loadBegins_shows s hs trivial
    exact ⟨loadBegins_load, hstate, hkind.trans (Nat.mod_eq_of_lt kind.isLt), bit_of_one hstart⟩

/-! MOULD_LOAD_DONE. -/

/-- An image that passes every check is put in force, and the load ends. -/
def loadInstalls (img : List Byte) (secs : List (Nat × List Byte)) (kind : Nat) (reload : Bool) : Prog :=
  block [installMould img secs kind, when reload reloaded, loadEnds]

/-- What follows a failed check: a reload becomes a cold start, and another slot is tried where one is left. -/
def loadNext (reload : Bool) (left : List Nat) : Prog :=
  if reload then block [loadEnds, turnCold, mouldColdLoad]
  else match left with
    | [] => block [setF F.MLD_STATUS_state 4, loadEnds]
    | t => loadSlots t

theorem loadBytes_of {c : Nat} (h : s.mld.load = some (kind, addr, c)) : s.loadBytes host =
    if kind < 2 then s.flashImage (slotBase kind) else if kind = 2 then s.bankImage addr else readImage fun o n => (host.drop o).take n := by
  rw [State.loadBytes, h]

/-- The end of a load, by the verdict on its image. -/
theorem mouldLoadDone_run {c : Nat} (h : s.mld.load = some (kind, addr, c)) : run (mouldLoadDone readOk host) s =
    run (match s.verdict readOk (s.loadBytes host) with
      | .ok secs => loadInstalls (s.loadBytes host) secs kind s.mld.reload
      | .error b => block [loadFails b kind, loadNext s.mld.reload s.mld.loadLeft]) s := by
  rw [mouldLoadDone, run_read, h, loadBytes_of h]
  rfl

theorem mouldLoadDone_installs {c : Nat} (h : s.mld.load = some (kind, addr, c)) (hn : s.fullFault readOk (s.loadBytes host) = none) :
    ∃ secs, holdSections secs = sectionsOf (s.loadBytes host) ∧
      run (mouldLoadDone readOk host) s = run (loadInstalls (s.loadBytes host) secs kind s.mld.reload) s := by
  obtain ⟨secs, hv, hm⟩ := verdict_ok hn
  exact ⟨secs, hm, by rw [mouldLoadDone_run h, hv]⟩

theorem mouldLoadDone_fails {c : Nat} (h : s.mld.load = some (kind, addr, c)) (hb : s.fullFault readOk (s.loadBytes host) = some b) :
    run (mouldLoadDone readOk host) s = run (block [loadFails b kind, loadNext s.mld.reload s.mld.loadLeft]) s := by
  rw [mouldLoadDone_run h, verdict_error hb]

/-- The whole of MOULD_LOAD_DONE. -/
abbrev loadDone (readOk : Bool) (host : List Byte) : Prog := block [mouldLoadDone readOk host, holderInit, annealBegins]

theorem loadDone_run : run (loadDone readOk host) s = run afterLoad (run (mouldLoadDone readOk host) s) := rfl

theorem afterLoad_mld : (run afterLoad s).mld = s.mld := by simp

/-! A load that ends well. -/

theorem loadInstalls_shows (img : List Byte) (secs : List (Nat × List Byte)) (kind : Nat) (reload : Bool) :
    (loadInstalls img secs kind reload).Ensures
      (Shows ((⟨R.MLD_EVENT, 0, 0⟩, 1) :: (F.MLD_LOAD_CTL_start, 0) :: (⟨R.GLB_EVENT, 3, 3⟩, 1) :: installed)) :=
  leads_cons (installMould_shows img secs kind) <| leads_cons (maintains_when fun _ => reloaded_shows) <| leads_cons loadEnds_shows leads_nil

theorem loadEnds_load : (run loadEnds s).mld.load = none := by simp [loadEnds]

@[simp] theorem setWide_mld (o n v : Nat) (s : State) : (run (setWide o n v) s).mld = s.mld := by
  induction n generalizing o v s with
  | zero => rfl
  | succ n ih => exact ih _ _ _

/-- The mould in force is the image's. -/
structure InForce (img : List Byte) (secs : List (Nat × List Byte)) (x : MldX) : Prop where
  active : x.active = holdSections secs
  digest : x.digest = Config.sha384 img
  gen : x.gen = imgGen img

theorem installMould_inForce (img : List Byte) (secs : List (Nat × List Byte)) (kind : Nat) :
    (installMould img secs kind).Ensures fun t => InForce img secs t.mld :=
  leads_cons (fun _ _ _ => ⟨rfl, rfl, rfl⟩) <| leads_cons (mld_kept (setF_mld _ _)) <| leads_cons (mld_kept fun _ => by simp) <|
    leads_cons (mld_kept fun _ => by simp) <| leads_cons (mld_kept fun _ => by simp) <| leads_cons (mld_kept (setF_mld _ _)) <|
    leads_cons (maintains_when fun _ => mld_kept fun _ => by simp) <| leads_cons (mld_kept deriveKeys_mld) <|
    leads_cons (mld_kept deriveAll_mld) <| leads_cons (mld_kept fun _ => by simp) <| leads_cons (mld_kept (raise_mld _ _)) leads_nil

theorem loadEnds_inForce {img : List Byte} {secs : List (Nat × List Byte)} : loadEnds.Maintains fun t => InForce img secs t.mld :=
  leads_cons (mld_kept (setF_mld _ _)) <| leads_cons (fun _ _ h => ⟨h.active, h.digest, h.gen⟩) <| leads_cons (mld_kept (raise_mld _ _)) leads_nil

theorem loadInstalls_inForce (img : List Byte) (secs : List (Nat × List Byte)) (kind : Nat) (reload : Bool) :
    (loadInstalls img secs kind reload).Ensures fun t => InForce img secs t.mld :=
  leads_cons (installMould_inForce img secs kind) <|
    leads_cons (maintains_when fun _ => leads_cons (mld_kept (raise_mld _ _)) <| leads_cons (mld_kept verifyBegin_mld) leads_nil) <|
    leads_cons loadEnds_inForce leads_nil

theorem loadInstalls_load (img : List Byte) (secs : List (Nat × List Byte)) (kind : Nat) (reload : Bool) :
    (run (loadInstalls img secs kind reload) s).mld.load = none := loadEnds_load

/-! A load that ends with a failed check. -/

/-- What a failed check shows, beside the mould's bit. -/
abbrev failedFields (b : BadMould) (kind n : Nat) : List (Field × Nat) :=
  [(F.MLD_ERR_DETAIL_record, b.index), (F.MLD_ERR_DETAIL_section, b.sect), (F.MLD_STATUS_src, kind), (F.MLD_STATUS_err, b.code),
    (F.GLB_MODE_mould_ok, n)]

theorem loadFails_shows {n : Nat} : (loadFails b kind).Leads (Shows [(F.GLB_MODE_mould_ok, n)]) (Shows (failedFields b kind n)) :=
  leads_cons shows_setF <| leads_cons shows_setF <| leads_cons shows_setF <| leads_cons shows_setF <|
    leads_cons (shows_spared fun _ _ => spares_emit) leads_nil

theorem loadFails_emits (b : BadMould) (kind : Nat) :
    (loadFails b kind).Emits ⟨0x05, 0x19, 2, b.code + 64 * kind, b.sect * 65536 + b.index⟩ :=
  emits_later (adds_setF _ _) <| emits_later (adds_setF _ _) <| emits_later (adds_setF _ _) <| emits_later (adds_setF _ _) <|
    emits_now (emits_emit _ _ _ _ _) adds_nil

@[simp] theorem loadFails_mld (b : BadMould) (kind : Nat) (s : State) : (run (loadFails b kind) s).mld = s.mld := by simp [loadFails]

/-- No slot is left: the load ends in the state of no mould. -/
theorem loadNext_nil {n : Nat} : (loadNext false []).Leads (Shows (failedFields b kind n))
    (Shows ((⟨R.MLD_EVENT, 0, 0⟩, 1) :: (F.MLD_LOAD_CTL_start, 0) :: (F.MLD_STATUS_state, 4) :: failedFields b kind n)) :=
  leads_cons shows_setF <| leads_cons loadEnds_shows leads_nil

/-- The next slot is tried. -/
theorem loadNext_cons {n k : Nat} {t : List Nat} : (loadNext false (k :: t)).Leads (Shows (failedFields b kind n))
    (Shows ((F.MLD_LOAD_CTL_start, 1) :: (F.MLD_STATUS_state, 1) :: failedFields b kind n)) :=
  leads_cons shows_setF <| leads_cons shows_setF <| leads_cons (shows_spared fun _ _ => spares_updMld) leads_nil

theorem loadNext_fields {n : Nat} (left : List Nat) : (loadNext false left).Maintains (Shows (failedFields b kind n)) := by
  cases left with
  | nil => exact fun t ht h => (loadNext_nil t ht h).2.2.2
  | cons k l => exact fun t ht h => (loadNext_cons t ht h).2.2

theorem loadNext_active (left : List Nat) : (run (loadNext false left) s).mld.active = s.mld.active := by
  cases left <;> simp [loadNext, loadSlots, loadEnds]

theorem loadNext_adds (reload : Bool) (left : List Nat) : (loadNext reload left).Adds := by
  cases reload
  · cases left with
    | nil => exact adds_cons (adds_setF _ _) (adds_cons (adds_of loadEnds_kinds) adds_nil)
    | cons k t => exact (adds_of (loadSlots_kinds (k :: t)) : (loadSlots (k :: t)).Adds)
  · exact adds_cons (adds_of loadEnds_kinds) (adds_cons (adds_of turnCold_kinds) (adds_cons (adds_of mouldColdLoad_kinds) adds_nil))

theorem afterLoad_adds : afterLoad.Adds := adds_cons (adds_of holderInit_kinds) (adds_cons (adds_of annealBegins_kinds) adds_nil)

/-- The end of a load, outside a reload, after a failed check. -/
abbrev loadFailed (b : BadMould) (kind : Nat) (left : List Nat) : Prog := block [loadFails b kind, loadNext false left, afterLoad]

theorem loadFailed_fields {n : Nat} (left : List Nat) :
    (loadFailed b kind left).Leads (Shows [(F.GLB_MODE_mould_ok, n)]) (Shows (failedFields b kind n)) :=
  leads_cons loadFails_shows <| leads_cons (loadNext_fields left) <| leads_cons afterLoad_shows leads_nil

theorem loadFailed_nil {n : Nat} : (loadFailed b kind []).Leads (Shows [(F.GLB_MODE_mould_ok, n)])
    (Shows ((⟨R.MLD_EVENT, 0, 0⟩, 1) :: (F.MLD_LOAD_CTL_start, 0) :: (F.MLD_STATUS_state, 4) :: failedFields b kind n)) :=
  leads_cons loadFails_shows <| leads_cons loadNext_nil <| leads_cons afterLoad_shows leads_nil

theorem loadFailed_cons {n k : Nat} {t : List Nat} : (loadFailed b kind (k :: t)).Leads (Shows [(F.GLB_MODE_mould_ok, n)])
    (Shows ((F.MLD_LOAD_CTL_start, 1) :: (F.MLD_STATUS_state, 1) :: failedFields b kind n)) :=
  leads_cons loadFails_shows <| leads_cons loadNext_cons <| leads_cons afterLoad_shows leads_nil

theorem loadFailed_mld (b : BadMould) (kind : Nat) (left : List Nat) (s : State) :
    (run (loadFailed b kind left) s).mld = (run (loadNext false left) (run (loadFails b kind) s)).mld := afterLoad_mld

theorem loadFailed_active (left : List Nat) : (run (loadFailed b kind left) s).mld.active = s.mld.active := by
  rw [loadFailed_mld, loadNext_active, loadFails_mld]

theorem loadFailed_nil_load : (run (loadFailed b kind []) s).mld.load = none := by
  rw [loadFailed_mld]
  exact loadEnds_load

theorem loadFailed_cons_load {k : Nat} {t : List Nat} :
    (run (loadFailed b kind (k :: t)) s).mld.load = some (k, 0, 4) ∧ (run (loadFailed b kind (k :: t)) s).mld.loadLeft = t := by
  rw [loadFailed_mld]
  exact ⟨rfl, rfl⟩

/-! Both ends. -/

theorem loadDone_kinds (readOk : Bool) (host : List Byte) :
    Prog.All (Act.among 0x110222200e4300003ca3a7c106bc78975e0008e400000000000000000ac254040ef9417f6002148c40000004000000110800000034205bfde) (loadDone readOk host) :=
  ⟨(mouldLoadDone_kinds readOk host).mono rfl, holderInit_kinds.mono rfl, annealBegins_kinds.mono rfl, trivial⟩

theorem loadDone_fails {c : Nat} (h : s.mld.load = some (kind, addr, c)) (hr : s.mld.reload = false)
    (hb : s.fullFault readOk (s.loadBytes host) = some b) : run (loadDone readOk host) s = run (loadFailed b kind s.mld.loadLeft) s := by
  rw [loadDone_run, mouldLoadDone_fails h hb, hr]
  rfl

theorem mouldLoadDone_acts (hs : s.ok = true) (hl : s.mld.load.isSome = true) :
    Acts (.mouldLoadDone readOk host) s fun u =>
      (s.fullFault readOk (s.loadBytes host) = none → u.mouldOk = true ∧ u.mld.active = sectionsOf (s.loadBytes host) ∧ u.mld.digest = Config.sha384 (s.loadBytes host) ∧ u.mld.gen = imgGen (s.loadBytes host) ∧ u.f F.MLD_STATUS_err = 0 ∧ u.mld.load = none ∧ u.bit F.MLD_LOAD_CTL_start = false ∧ u.raised R.MLD_EVENT 0 = true ∧ u.raised R.GLB_EVENT 3 = true) ∧
      (∀ x ∈ s.mld.load.toList, ∀ b ∈ (s.fullFault readOk (s.loadBytes host)).toList, Raised ⟨0x05, 0x19, 2, b.code + 64 * x.1, b.sect * 65536 + b.index⟩ s u) ∧
      (∀ x ∈ s.mld.load.toList, ∀ b ∈ (s.fullFault readOk (s.loadBytes host)).toList, s.mld.reload = false → u.mld.active = s.mld.active ∧ u.mouldOk = s.mouldOk ∧ u.f F.MLD_STATUS_err = b.code % 64 ∧ u.f F.MLD_STATUS_src = x.1 % 8 ∧ u.f F.MLD_ERR_DETAIL_section = b.sect % 65536 ∧ u.f F.MLD_ERR_DETAIL_record = b.index % 65536 ∧ (s.mld.loadLeft = [] → u.f F.MLD_STATUS_state = 4 ∧ u.mld.load = none ∧ u.raised R.MLD_EVENT 0 = true) ∧ (∀ k ∈ s.mld.loadLeft.head?.toList, u.f F.MLD_STATUS_state = 1 ∧ u.mld.load = some (k, 0, 4) ∧ u.mld.loadLeft = s.mld.loadLeft.tail)) ∧
      Keeps (linkParts ++ [.shadows, .votes, .wide, .mould, .flash, .sram, .otp, .power, .draws]) s u := by
  obtain ⟨⟨kind, addr, c⟩, hx⟩ := Option.isSome_iff_exists.1 hl
  refine acts_finish (loadDone readOk host) rfl ⟨fun hn => ?_, fun x hx' b hb => ?_, fun x hx' b hb hr => ?_, keeps_of (loadDone_kinds _ _) hs _⟩
  · obtain ⟨secs, hm, hrun⟩ := mouldLoadDone_installs hx hn
    rw [loadDone_run, hrun, afterLoad_mld]
    have hmld := loadInstalls_inForce (s.loadBytes host) secs kind s.mld.reload s hs trivial
    have hs' := run_ok (loadInstalls (s.loadBytes host) secs kind s.mld.reload) s hs
    obtain ⟨hdone, hstart, hglb, hok, herr, -⟩ := afterLoad_shows rfl rfl _ hs' (loadInstalls_shows _ _ _ _ s hs trivial)
    exact ⟨bit_of_one hok, hmld.active.trans hm, hmld.digest, hmld.gen, herr, loadInstalls_load _ _ _ _, bit_of_zero hstart, raised_iff.2 hdone,
      raised_iff.2 hglb⟩
  all_goals obtain rfl : x = (kind, addr, c) := Option.some.inj ((Option.mem_toList.1 hx').symm.trans hx)
  · rw [loadDone_run, mouldLoadDone_fails hx (Option.mem_toList.1 hb)]
    exact (emits_now (loadFails_emits b kind) (adds_cons (loadNext_adds _ _) adds_nil) s).trans (afterLoad_adds _)
  · rw [loadDone_fails hx hr (Option.mem_toList.1 hb)]
    have hbit : s.f F.GLB_MODE_mould_ok % 2 ^ 1 = s.f F.GLB_MODE_mould_ok := Nat.mod_mod _ _
    have hstart : Shows [(F.GLB_MODE_mould_ok, s.f F.GLB_MODE_mould_ok)] s := ⟨hbit.symm, trivial⟩
    obtain ⟨hrecord, hsection, hsrc, herr, hok, -⟩ := loadFailed_fields (b := b) (kind := kind) s.mld.loadLeft s hs hstart
    refine ⟨loadFailed_active _, congrArg (· == 1) (hok.trans hbit), herr, hsrc, hsection, hrecord, fun hleft => ?_, fun k hk => ?_⟩
    · rw [hleft]
      obtain ⟨hdone, -, hstate, -⟩ := loadFailed_nil (b := b) (kind := kind) s hs hstart
      exact ⟨hstate, loadFailed_nil_load, raised_iff.2 hdone⟩
    · obtain ⟨t, ht⟩ := List.head?_eq_some_iff.1 (Option.mem_toList.1 hk)
      rw [ht]
      obtain ⟨-, hstate, -⟩ := loadFailed_cons (b := b) (kind := kind) s hs hstart
      exact ⟨hstate, loadFailed_cons_load⟩

end Sys2Proof.Machine
end

section
/-!
PROOFS. O49.
-/
set_option Elab.async false
namespace Sys2Proof.Proofs

open Sys2Proof Sys2Proof.Machine

/-- Settles O49: the start by its four answers, the end by the verdict on the image. -/
theorem mouldLoads : Obligations.MouldLoads :=
  ⟨fun _ _ _ => mouldLoadStart_acts, fun _ _ _ => mouldLoadDone_acts⟩

end Sys2Proof.Proofs
end

section
/-!
SUPPORT. Where the programs of a port write: in the block of the port itself, or outside the blocks of the ports; no other port's
words and no cane's settings. Where a port is in no cane, what its own moves do keeps it so.
-/
set_option Elab.async false
namespace Sys2Proof.Machine

variable {p q off K w base : Nat} {s : State} {prog change : Prog}

/-- The offset is in the block of a port or outside every port's block, and is no word of a cane's settings, which say what
cane the port is a member of. -/
def ownWord (p off : Nat) : Prop :=
  (off < 0x1000000 ∨ 0x1400000 ≤ off ∨ off / 0x10000 = 0x100 + p) ∧ ∀ k < 4, off ≠ R.CANE_CFG k

/-- A word that the action writes is the port's own, or no port's. -/
def Act.ofPort (p : Nat) : Act → Prop
  | .reg o _ => ownWord p o
  | _ => True

/-- A program writes in the block of no other port, and no cane's settings. -/
abbrev Prog.Confined (p : Nat) (prog : Prog) : Prop := Prog.All (Act.ofPort p) prog

theorem Prog.Confined.spares (h : prog.Confined p) (ho : ¬ ownWord p off) : prog.Spares off :=
  h.imp fun a ha hw => by
    cases a
    case reg o w => exact ho ((show o = off from hw) ▸ ha)
    all_goals exact hw

/-- A register of a port's block, by its offset in the block of port 0. -/
theorem ownWord_at1 (hb : 0x1000000 ≤ base ∧ base + w < 0x1010000 := by decide) : ownWord p (at1 base 0x10000 64 p + w) := by
  have hc : ∀ k < 4, R.CANE_CFG k = 0x150000 + k * 0x100 := fun k hk => if_pos hk
  unfold at1 outside
  constructor
  · split <;> omega
  · intro k hk
    rw [hc k hk]
    split <;> omega

theorem ownWord_home (hb : 0x1000000 ≤ base ∧ base < 0x1010000 := by decide) : ownWord p (at1 base 0x10000 64 p) := ownWord_at1 (w := 0) hb

/-- A word of a table of several rows in a port's block. -/
theorem ownWord_at2 {st m i : Nat} (hb : 0x1000000 ≤ base ∧ base + m * st + w < 0x1010000 := by decide) :
    ownWord p (at2 base 0x10000 64 st m p i + w) := by
  have hc : ∀ k < 4, R.CANE_CFG k = 0x150000 + k * 0x100 := fun k hk => if_pos hk
  have hi : i < m → i * st ≤ m * st := fun h => Nat.mul_le_mul_right _ h.le
  unfold at2 outside
  constructor
  · split
    · have := hi (by omega); omega
    · omega
  · intro k hk
    rw [hc k hk]
    split
    · have := hi (by omega); omega
    · omega

/-! Masks. -/

theorem alone_CANE_CFG : alone 262 = true := by decide +kernel

theorem apart_CANE_CFG {k : Nat} (hk : k < 4) (h62 : K.testBit 62 = false) (h63 : K.testBit 63 = false) (h : K.testBit 326 = false) :
    ¬ lies (R.CANE_CFG k) K :=
  not_lies_at1 (k := 262) (words := 1) (w := 0) alone_CANE_CFG rfl hk (by decide) (by decide) (by decide) (by decide) h62 h63 h

/-- The tables of a mask lie outside the blocks of the ports, and the settings of the canes are not among them. -/
def portless (K : Nat) : Bool :=
  !K.testBit 62 && !K.testBit 63 && !K.testBit 326 &&
  shapes.zipIdx.all fun e => !K.testBit (64 + e.2) || decide (e.1.1 + reach e.1.2.1 e.1.2.2 ≤ 0x1000000 ∨ 0x1400000 ≤ e.1.1)

theorem ownWord_of_lies (hK : portless K = true) (h : lies off K) : ownWord p off := by
  simp only [portless, Bool.and_eq_true, Bool.not_eq_true', List.all_eq_true, Bool.or_eq_true, decide_eq_true_eq] at hK
  obtain ⟨⟨⟨h62, h63⟩, h326⟩, hsh⟩ := hK
  refine ⟨?_, fun k hk e => apart_CANE_CFG hk h62 h63 h326 (e ▸ h)⟩
  rcases h with ho | h | ⟨h, -⟩ | ⟨k, r, hk, hr, hh⟩
  · exact .inr (.inl (le_trans (by decide) ho))
  · simp [h63] at h
  · simp [h62] at h
  · have hm : (r.shape, k) ∈ shapes.zipIdx := by rw [List.mk_mem_zipIdx_iff_getElem?, ← shape_at, hr]; rfl
    simp only [RegRow.has, Bool.and_eq_true, decide_eq_true_eq] at hh
    have hl := locate_reach hh.2
    rcases hsh _ hm with he | he
    · simp [hk] at he
    · rcases he with he | he
      · exact .inl (by change r.base + reach r.dims r.words.length ≤ _ at he; omega)
      · exact .inr (.inl (le_trans he hh.1))

/-- A program whose mask has no table of the ports. -/
theorem confined_of (hp : Prog.All (Act.among K) prog) (hK : portless K = true := by decide +kernel) : prog.Confined p :=
  hp.imp fun a ha => by
    cases a
    case reg o w => exact ownWord_of_lies hK ha
    all_goals exact trivial

/-! Small programs. -/

theorem setWide_confined {v : Nat} (hb : 0x1000000 ≤ base ∧ base + 4 < 0x1010000 := by decide) :
    (setWide (at1 base 0x10000 64 p) 2 v).Confined p :=
  ⟨ownWord_home ⟨hb.1, by omega⟩, ownWord_at1 hb, trivial⟩

theorem setF_confined {hi lo v : Nat} (hb : 0x1000000 ≤ base ∧ base < 0x1010000 := by decide) :
    (setF ⟨at1 base 0x10000 64 p, hi, lo⟩ v).Confined p := fun _ => ownWord_home hb

theorem satAdd_confined {hi lo v : Nat} (hb : 0x1000000 ≤ base ∧ base < 0x1010000 := by decide) :
    (satAdd ⟨at1 base 0x10000 64 p, hi, lo⟩ v).Confined p := fun _ _ => ownWord_home hb

theorem setReg_confined {v : Word} (hb : 0x1000000 ≤ base ∧ base < 0x1010000 := by decide) :
    (setReg (at1 base 0x10000 64 p) v).Confined p := ownWord_home hb

theorem raise_confined {b : Nat} (hb : 0x1000000 ≤ base ∧ base < 0x1010000 := by decide) :
    (raise (at1 base 0x10000 64 p) b).Confined p := fun _ => ⟨all_when_i trivial, ownWord_home hb, trivial⟩

theorem updPort_confined {g : PortX → PortX} : (updPort q g).Confined p := fun _ => trivial

/-! What entering and leaving a state does to a port's registers. -/

theorem qualIdle_confined : (qualIdle p).Confined p := ⟨setF_confined, setF_confined, trivial⟩

theorem clearPartner_confined : (clearPartner p).Confined p :=
  ⟨setReg_confined, setReg_confined, setWide_confined,
    all_when_i ⟨setF_confined, setF_confined, setF_confined, setF_confined, setF_confined, trivial⟩, updPort_confined, trivial⟩

theorem setMode_confined {mode role : Nat} : (setMode p mode role).Confined p :=
  ⟨setF_confined, setF_confined, setF_confined, trivial⟩

theorem enterListen_confined {b : Bool} : (enterListen p b).Confined p :=
  ⟨setF_confined, setMode_confined, qualIdle_confined, clearPartner_confined, updPort_confined, trivial⟩

theorem enterRest_confined {st : Nat} : (enterRest p st).Confined p :=
  ⟨setF_confined, setMode_confined, qualIdle_confined, updPort_confined, all_when_i raise_confined, trivial⟩

theorem clearExcluded_confined : (clearExcluded p).Confined p := ⟨setF_confined, updPort_confined, trivial⟩

theorem dropEntry_confined {cause unc : Nat} {flap : Bool} : (dropEntry p cause unc flap).Confined p := fun _ =>
  ⟨⟨ownWord_at2 (w := 0), ownWord_at2, trivial⟩, ownWord_at2 (w := 8), ownWord_at2 (w := 12), setF_confined, all_when_i setF_confined, trivial⟩

theorem dropRecord_confined {cause unc : Nat} : (dropRecord p cause unc).Confined p := fun _ =>
  ⟨dropEntry_confined, satAdd_confined, raise_confined, trivial, updPort_confined, trivial⟩

theorem setPending_confined {b : Bool} : (setPending q b).Confined p := confined_of (setPending_kinds q b)

theorem sleepRest_confined : (sleepRest p).Confined p := fun _ =>
  ⟨enterRest_confined, setF_confined, all_when_i ⟨setPending_confined, updPort_confined, trivial⟩, trivial⟩

theorem dropCore_confined {cause unc : Nat} : (dropCore p cause unc).Confined p := fun _ => by
  dsimp only
  split
  · exact ⟨updPort_confined, sleepRest_confined, trivial⟩
  · refine ⟨dropRecord_confined, ?_, trivial⟩
    split
    · exact ⟨raise_confined, enterRest_confined, trivial⟩
    · exact enterListen_confined

theorem segIdle_confined : (segIdle p).Confined p := ⟨setF_confined, setF_confined, setF_confined, updPort_confined, trivial⟩

/-! What goes with a link. -/

theorem tapQueue_confined : (tapQueue q).Confined p := confined_of (tapQueue_kinds q)
theorem refreshBundleOf_confined : (refreshBundleOf q).Confined p := confined_of (refreshBundleOf_kinds q)
theorem refreshNear_confined : (refreshNear q).Confined p := confined_of (refreshNear_kinds q)
theorem calQuiet_confined : (calQuiet q).Confined p := confined_of (calQuiet_kinds q)
theorem tbPortLost_confined : (tbPortLost q).Confined p := confined_of (tbPortLost_kinds q)
theorem reclaimAsk_confined : (reclaimAsk q).Confined p := confined_of (reclaimAsk_kinds q)
theorem annealAbort_confined : (annealAbort q).Confined p := confined_of (annealAbort_kinds q)

theorem endLoop_confined {r : Nat} : (endLoop p r).Confined p := fun _ =>
  all_when_i ⟨setF_confined, setF_confined, all_ifSome_i fun _ => trivial, all_when_i updPort_confined, updPort_confined, trivial⟩

theorem loopCounted_confined : (loopCounted p).Confined p := fun _ =>
  all_when_i fun _ => ⟨trivial, fun _ => ⟨trivial, setWide_confined, setWide_confined, trivial⟩⟩

theorem abortLoop_confined : (abortLoop p).Confined p := fun _ =>
  ⟨loopCounted_confined, endLoop_confined,
    all_when_i ⟨setF_confined, setF_confined, all_ifSome_i fun _ => trivial, trivial⟩, trivial⟩

theorem linkDark_confined : (linkDark p).Confined p := fun _ =>
  ⟨all_when_i endLoop_confined, setF_confined, setF_confined, setF_confined, setF_confined, setF_confined, updPort_confined,
    all_when_i segIdle_confined, calQuiet_confined, tbPortLost_confined, fun _ => all_when_i reclaimAsk_confined, trivial⟩

theorem laneDark_confined : (laneDark p).Confined p := fun _ =>
  all_ifSome_i fun _ => ⟨setF_confined, setF_confined, updPort_confined, confined_of (upLanes_kinds _), trivial⟩

theorem caneDrop_confined : (caneDrop p).Confined p := fun _ =>
  ⟨dropCore_confined, linkDark_confined, laneDark_confined, all_when_i tapQueue_confined, refreshBundleOf_confined, trivial⟩

end Sys2Proof.Machine
end

section
/-!
SUPPORT. A port in no cane: its moves change no other port's words.
-/
set_option Elab.async false
namespace Sys2Proof.Machine

variable {p off : Nat} {s t : State} {prog change : Prog}

/-- The words of the other ports and the settings of the canes are as before. -/
def Apart (p : Nat) (s t : State) : Prop := ∀ off, ¬ ownWord p off → t.reg off = s.reg off

theorem Apart.refl : Apart p s s := fun _ _ => rfl

theorem Prog.Confined.apart (h : prog.Confined p) : prog.Maintains (Apart p s) := fun _ ht ha off ho =>
  (run_reg_frame off prog (h.spares ho) _ (State.ok_regs_sorted ht)).trans (ha off ho)

/-- A port's place in a cane depends on the settings of the canes alone. -/
theorem caneOf_congr {q : Nat} (h : ∀ k < 4, t.reg (R.CANE_CFG k) = s.reg (R.CANE_CFG k)) : t.caneOf q = s.caneOf q := by
  have e : ∀ k < 4, t.bit (F.CANE_CFG_valid k) = s.bit (F.CANE_CFG_valid k) ∧ t.f (F.CANE_CFG_members k) = s.f (F.CANE_CFG_members k) :=
    fun k hk => by simp only [State.bit, State.f, F.CANE_CFG_valid, F.CANE_CFG_members, h k hk, and_self]
  unfold State.caneOf
  rw [List.find?_congr fun k hk => by obtain ⟨e1, e2⟩ := e k (List.mem_range.1 hk); rw [e1, e2]]

theorem Apart.caneOf (h : Apart p s t) (q : Nat) : t.caneOf q = s.caneOf q :=
  caneOf_congr fun k hk => h _ fun ho => ho.2 k hk rfl

theorem Apart.onlyPort (h : Apart p s t) : OnlyPort p s t := fun off h1 h2 h3 => h off fun ho => by
  rcases ho.1 with h' | h' | h' <;> omega

/-- A program that keeps the other ports' words where the port is in no cane. -/
theorem onlyPort_of (h : s.caneOf p = none → prog.Maintains (Apart p s)) (hs : s.ok = true) :
    s.caneOf p = none → OnlyPort p s (run prog s) := fun hc => (h hc s hs .refl).onlyPort

theorem flapRelease_confined : (flapRelease p).Confined p := confined_of (flapRelease_kinds p)

section
variable (hc : s.caneOf p = none)
include hc

theorem caneLeftUp_apart {drop : Nat → Prog} : (caneLeftUp p drop).Maintains (Apart p s) := leads_read fun t _ ht => by
  rw [ht.caneOf, hc]; exact leads_skip

theorem linkLost_apart : (linkLost p).Maintains (Apart p s) :=
  leads_cons linkDark_confined.apart (leads_cons (caneLeftUp_apart hc) leads_nil)

theorem movePort_apart (h : change.Maintains (Apart p s)) : (movePort p change).Maintains (Apart p s) := leads_read fun _ _ _ =>
  leads_cons h <| leads_cons (leads_read fun _ _ _ => maintains_when fun _ => linkLost_apart hc) <|
    leads_cons (leads_read fun _ _ _ => maintains_when fun _ => tapQueue_confined.apart) <|
    leads_cons refreshNear_confined.apart leads_nil

theorem portDrop_apart {cause unc : Nat} : (portDrop p cause unc).Maintains (Apart p s) := leads_read fun _ _ _ =>
  maintains_when fun _ => movePort_apart hc dropCore_confined.apart

theorem toListen_apart {b : Bool} : (toListen p b).Maintains (Apart p s) := movePort_apart hc enterListen_confined.apart

theorem toDisabled_apart : (toDisabled p).Maintains (Apart p s) := leads_read fun _ _ _ =>
  leads_cons (maintains_when fun _ => clearExcluded_confined.apart) <| leads_cons (movePort_apart hc enterRest_confined.apart) <|
    leads_cons setPending_confined.apart <| leads_cons (Prog.Confined.apart setF_confined) <| leads_cons updPort_confined.apart leads_nil

theorem toSleep_apart {n : Nat} : (toSleep p n).Maintains (Apart p s) := leads_read fun _ _ _ =>
  leads_cons (maintains_when fun _ => clearExcluded_confined.apart) <| leads_cons (movePort_apart hc sleepRest_confined.apart) <|
    leads_cons (Prog.Confined.apart setF_confined) leads_nil

theorem leaveFault_apart : (leaveFault p).Maintains (Apart p s) := leads_read fun t _ _ => maintains_when fun _ => by
  split
  · exact toDisabled_apart hc
  · exact toSleep_apart hc
  · split
    · exact toSleep_apart hc
    · exact toListen_apart hc

end

end Sys2Proof.Machine
end

section
/-!
SUPPORT. What a move of a port leaves behind its change of state: what goes with a link that ends leaves the port's control, its state,
its drop count and its events alone, in a cane too.
-/
set_option Elab.async false
namespace Sys2Proof.Machine

variable {p off : Nat} {s t : State} {prog change : Prog} {P J : State → Prop}

/-- The tables that the moves, the resets and the negotiations of a port write, its control, state, drop count and events aside. -/
def asideMask : Nat := 0x2e2f9c783ff1bbf86000041409250000000000000000000000000c2000001000000000004040000000000000000000000003420037d2

/-- A word of a port that no other port's moves write and that is in none of those tables. -/
structure Stays (p off : Nat) : Prop where
  aside : ¬ lies off asideMask
  home : ∀ q, q ≠ p → ¬ ownWord q off

theorem not_ownWord {q base : Nat} (hp : p < 64) (hq : q ≠ p) (hb : 0x1000000 ≤ base ∧ base < 0x1010000 := by decide) :
    ¬ ownWord q (at1 base 0x10000 64 p) := fun h => by
  have := h.1
  unfold at1 at this
  rw [if_pos hp] at this
  omega

theorem stays_CTL (hp : p < 64) : Stays p (R.PORT_CTL p) :=
  ⟨apart_PORT_CTL hp (by decide) (by decide) (by decide), fun _ hq => not_ownWord hp hq⟩
theorem stays_STATE (hp : p < 64) : Stays p (R.PORT_STATE p) :=
  ⟨apart_PORT_STATE hp (by decide) (by decide) (by decide), fun _ hq => not_ownWord hp hq⟩
theorem stays_DROP_COUNT (hp : p < 64) : Stays p (R.PORT_DROP_COUNT p) :=
  ⟨apart_PORT_DROP_COUNT hp (by decide) (by decide) (by decide), fun _ hq => not_ownWord hp hq⟩
theorem stays_EVENT (hp : p < 64) : Stays p (R.PORT_EVENT p) :=
  ⟨apart_PORT_EVENT hp (by decide) (by decide) (by decide), fun _ hq => not_ownWord hp hq⟩

/-- A member's place gives back its port. -/
theorem port_of_caneOf {k j : Nat} (h : s.caneOf p = some (k, j)) : p = 2 * k + j := by
  unfold State.caneOf at h
  split at h
  · obtain ⟨k', hk, e⟩ := Option.map_eq_some_iff.1 h
    have := List.find?_some hk
    simp only [Bool.and_eq_true, decide_eq_true_eq] at this
    cases e
    omega
  · cases h

variable (h : Stays p off)
include h

theorem loseLane_spares {k j : Nat} (hp : p = 2 * k + j) : (loseLane k j caneDrop).Spares off := fun s => by
  have ha := h.aside
  have hc : ∀ st, (setCane k st).Spares off := fun st => spares_of (setCane_kinds k st) ha
  refine all_when_i ⟨setF_spares ha (lies_CANE_STAT (tb rfl)), setF_spares ha (lies_PORT_AM_STAT (tb rfl)), fun _ => id, fun _ => id, ?_,
    all_when_i (all_each_i fun i t => (all_when _ _).2 fun hi => ?_), spares_of (remap_kinds k) ha, spares_of (upLanes_kinds k) ha, trivial⟩
  · split
    · exact hc _
    · exact all_when_i (hc _)
  · simp only [Bool.and_eq_true, bne_iff_ne, ne_eq] at hi
    exact caneDrop_confined.spares (h.home _ (by omega))

theorem linkLost_spares : (linkLost p).Spares off := by
  have ha := h.aside
  refine ⟨spares_of (linkDark_kinds p) ha, fun s => (all_ifSome _ _).2 fun kj hkj => ?_, trivial⟩
  obtain ⟨k, j⟩ := kj
  exact ⟨all_when_i (spares_of (setCane_kinds k _) ha), loseLane_spares h (port_of_caneOf hkj),
    spares_of (laneDark_kinds p) ha, trivial⟩

omit h in
/-- What follows a port's change of state, from the state before the change. -/
def afterMove (s : State) (p : Nat) : Prog :=
  block [.read fun t => when (s.linkUp p && !t.linkUp p) (linkLost p), .read fun t => when (s.pmode p == 7 && t.pmode p != 7) (tapQueue p),
    refreshNear p]

omit h in
theorem run_movePort : run (movePort p change) s = run (afterMove s p) (run change s) := rfl

theorem afterMove_spares : (afterMove s p).Spares off :=
  ⟨fun _ => all_when_i (linkLost_spares h), fun _ => all_when_i (spares_of (tapQueue_kinds p) h.aside), spares_of (refreshNear_kinds p) h.aside, trivial⟩

omit h in
/-- What follows a change keeps what the loss of the link, the tap queue and the bundles keep. -/
theorem afterMove_maintains (hl : s.linkUp p = true → (linkLost p).Maintains J) (ht : (tapQueue p).Maintains J) (hr : (refreshNear p).Maintains J) :
    (afterMove s p).Maintains J :=
  leads_cons (leads_read fun _ _ _ => maintains_when fun hc => hl (by simp only [Bool.and_eq_true] at hc; exact hc.1)) <|
    leads_cons (leads_read fun _ _ _ => maintains_when fun _ => ht) <| leads_cons hr leads_nil

theorem movePort_spares (hc : change.Spares off) : (movePort p change).Spares off := fun _ => ⟨hc, afterMove_spares h⟩

/-- A word that stays is as the change leaves it. -/
theorem reg_movePort (hs : s.ok = true) : (run (movePort p change) s).reg off = (run change s).reg off :=
  run_reg_frame off _ (afterMove_spares h) _ (State.ok_regs_sorted (run_ok change s hs))

theorem f_movePort {hi lo : Nat} (hs : s.ok = true) :
    (run (movePort p change) s).f ⟨off, hi, lo⟩ = (run change s).f ⟨off, hi, lo⟩ := congrArg (bits · hi lo) (reg_movePort h hs)

end Sys2Proof.Machine
end

section
/-!
SUPPORT. What the changes of a port's state leave in its state, drop count and event words.
-/
set_option Elab.async false
namespace Sys2Proof.Machine

variable {p off : Nat} {s t : State} {prog change : Prog} {P J : State → Prop}

/-! Two words of a port. -/

theorem home_ne {a b : Nat} (hp : p < 64) (hab : a ≠ b := by decide) : at1 a 0x10000 64 p ≠ at1 b 0x10000 64 p := by
  unfold at1
  rw [if_pos hp, if_pos hp]
  omega

/-- The same for the second word of a value. -/
theorem home_ne_word {a b w : Nat} (hp : p < 64) (hab : a ≠ b + w := by decide) : at1 a 0x10000 64 p ≠ at1 b 0x10000 64 p + w := by
  unfold at1
  rw [if_pos hp, if_pos hp]
  omega

/-- A program whose own mask does not have an offset spares it. -/
theorem spares_own {k : Nat} (h : Prog.All (Act.among k) prog) (ho : ¬ lies off k) : prog.Spares off :=
  spares_of h ho (by simp [within])

/-! Fields of a word, written and kept. -/

theorem setF_ensures {o hi lo v : Nat} (hv : v < 2 ^ (hi + 1 - lo) := by decide) (h : lo ≤ hi ∧ hi < 32 := by decide) :
    (setF ⟨o, hi, lo⟩ v).Ensures fun s => s.f ⟨o, hi, lo⟩ = v := fun s hs _ => (ensures_setF h s hs trivial).trans (Nat.mod_eq_of_lt hv)

theorem setF_beside {o hi lo v hi' lo' n : Nat} (hd : hi' < lo ∨ hi < lo' := by decide) (h : lo ≤ hi ∧ hi < 32 := by decide) :
    (setF ⟨o, hi, lo⟩ v).Maintains fun s => s.f ⟨o, hi', lo'⟩ = n := maintains_setF h (.inr hd)

theorem satAdd_leads {o hi lo k n : Nat} (h : lo ≤ hi ∧ hi < 32 := by decide) :
    (satAdd ⟨o, hi, lo⟩ k).Leads (fun s => s.f ⟨o, hi, lo⟩ = n) fun s => s.f ⟨o, hi, lo⟩ = min (n + k) (2 ^ (hi + 1 - lo) - 1) := fun s hs hn => by
  show (run (satAdd ⟨o, hi, lo⟩ k) s).f ⟨o, hi, lo⟩ = _
  rw [f_satAdd hs h, hn]

theorem maintains_raise_low {o b hi lo n : Nat} (hhi : hi < 24) (hb : b < 24) (hd : hi < b ∨ b < lo) :
    (raise o b).Maintains fun s => s.f ⟨o, hi, lo⟩ = n := fun s hs hn => by
  show bits ((run (raise o b) s).reg o) hi lo = n
  rw [raise_bits hhi hs, bits_putBits_disjoint _ _ (le_refl _) (by omega) hd]
  exact hn

/-- An event that is up stays up when another is raised. -/
theorem maintains_raised {o b c : Nat} (hb : b < 24 := by decide) (hc : c < 24 := by decide) : (raise o c).Maintains fun s => s.raised o b = true :=
  fun s hs h => by
    by_cases e : b = c
    · subst e
      exact raised_raise hb s hs trivial
    · exact raised_iff.2 (maintains_raise_low hb hc (by omega) s hs (raised_iff.1 h))

theorem raised_spared {o b : Nat} (h : prog.Spares o) : prog.Maintains fun s => s.raised o b = true :=
  maintains_reg (J := fun w => bitOf w.toNat b = true) h

theorem Prog.Leads.imp {Q R : State → Prop} (h : prog.Leads P Q) (hi : ∀ s, Q s → R s) : prog.Leads P R := fun s hs hp => hi _ (h s hs hp)

/-! The state of a port. -/

section
variable (hp : p < 64)
include hp

theorem qualIdle_state : (qualIdle p).Spares (R.PORT_STATE p) := spares_of (qualIdle_kinds p) (stays_STATE hp).aside
theorem clearPartner_state : (clearPartner p).Spares (R.PORT_STATE p) := spares_of (clearPartner_kinds p) (stays_STATE hp).aside

/-- The mode and role fields lie above the state's own field and below its other fields. -/
theorem setMode_pst {mode role n : Nat} : (setMode p mode role).Maintains fun s => s.pst p = n :=
  leads_cons (setF_beside) <| leads_cons (setF_beside) <|
    leads_cons (maintains_f (setF_spares (stays_STATE hp).aside (lies_PORT_MSE_REF (tb rfl)))) leads_nil

theorem setMode_above {mode role hi lo n : Nat} (hl : 9 < lo) : (setMode p mode role).Maintains fun s => s.f ⟨R.PORT_STATE p, hi, lo⟩ = n :=
  leads_cons (setF_beside (.inr (by omega))) <| leads_cons (setF_beside (.inr hl)) <|
    leads_cons (maintains_f (setF_spares (stays_STATE hp).aside (lies_PORT_MSE_REF (tb rfl)))) leads_nil

theorem enterListen_pst {b : Bool} : (enterListen p b).Ensures fun s => s.pst p = stListen :=
  ensures_now (setF_ensures) <| leads_cons (setMode_pst hp) <| leads_cons (maintains_f (qualIdle_state hp)) <|
    leads_cons (maintains_f (clearPartner_state hp)) <| leads_cons (maintains_f fun _ => id) leads_nil

theorem enterListen_above {b : Bool} {hi lo n : Nat} (hl : 9 < lo) : (enterListen p b).Maintains fun s => s.f ⟨R.PORT_STATE p, hi, lo⟩ = n :=
  leads_cons (setF_beside (.inr (by omega))) <| leads_cons (setMode_above hp hl) <| leads_cons (maintains_f (qualIdle_state hp)) <|
    leads_cons (maintains_f (clearPartner_state hp)) <| leads_cons (maintains_f fun _ => id) leads_nil

theorem raise_event_state {b : Nat} : (raise (R.PORT_EVENT p) b).Spares (R.PORT_STATE p) := spares_raise.2 (home_ne hp)

theorem enterRest_pst {st : Nat} (hst : st < 8) : (enterRest p st).Ensures fun s => s.pst p = st :=
  ensures_now (setF_ensures hst) <| leads_cons (setMode_pst hp) <| leads_cons (maintains_f (qualIdle_state hp)) <|
    leads_cons (maintains_f fun _ => id) <| leads_cons (maintains_when fun _ => maintains_f (raise_event_state hp)) leads_nil

theorem enterRest_above {st hi lo n : Nat} (hl : 9 < lo) : (enterRest p st).Maintains fun s => s.f ⟨R.PORT_STATE p, hi, lo⟩ = n :=
  leads_cons (setF_beside (.inr (by omega))) <| leads_cons (setMode_above hp hl) <| leads_cons (maintains_f (qualIdle_state hp)) <|
    leads_cons (maintains_f fun _ => id) <| leads_cons (maintains_when fun _ => maintains_f (raise_event_state hp)) leads_nil

end

end Sys2Proof.Machine
end

section
/-!
SUPPORT. A link drop outside a sleep handshake (R141 to R143): the state that the port comes to, the count, the event, the message.
-/
set_option Elab.async false
namespace Sys2Proof.Machine

variable {p cause unc : Nat} {s t : State} {prog change : Prog}

/-- The port runs no sleep handshake. -/
def State.awake (s : State) (p : Nat) : Prop := (s.port p).localSleep = false ∧ (s.port p).partnerSleep = false

theorem dropCore_awake (h : s.awake p) : run (dropCore p cause unc) s = run (block [dropRecord p cause unc,
    if s.flapTrips p cause then block [raise (R.PORT_EVENT p) 9, enterRest p stFault] else enterListen p true]) s := by
  obtain ⟨h1, h2⟩ := h
  simp only [dropCore, run_read, h1, h2, Bool.or_self, Bool.false_eq_true, if_false]

/-- What the record of a drop brings about and the new state keeps, for a port that is awake. -/
theorem dropCore_leads {P J K : State → Prop} (hrec : (dropRecord p cause unc).Leads P K)
    (htrip : s.flapTrips p cause = true → (block [raise (R.PORT_EVENT p) 9, enterRest p stFault]).Leads K J)
    (hlisten : s.flapTrips p cause = false → (enterListen p true).Leads K J)
    (hs : s.ok = true) (ha : s.awake p) (hP : P s) : J (run (dropCore p cause unc) s) := by
  rw [dropCore_awake ha]
  refine leads_cons hrec (leads_cons ?_ leads_nil) s hs hP
  cases hf : s.flapTrips p cause
  · exact hlisten hf
  · exact htrip hf

section
variable (hp : p < 64)
include hp

theorem dropCore_pst (hs : s.ok = true) (ha : s.awake p) :
    (run (dropCore p cause unc) s).pst p = if s.flapTrips p cause then stFault else stListen := by
  refine dropCore_leads (P := fun _ => True) (K := fun _ => True) (J := fun t => t.pst p = _) (fun _ _ _ => trivial) (fun hf => ?_) (fun hf => ?_) hs ha trivial
  · rw [hf]; exact ensures_later (ensures_now (enterRest_pst hp (by decide)) leads_nil)
  · rw [hf]; exact enterListen_pst hp

/-- The record of a drop writes no other field of the state. -/
theorem dropRecord_state : (dropRecord p cause unc).Spares (R.PORT_STATE p) := fun _ =>
  ⟨spares_of (dropEntry_kinds p _ _ _) (stays_STATE hp).aside, spares_satAdd.2 (home_ne hp), raise_event_state hp, id, fun _ => id, trivial⟩

theorem enterRest_count {st : Nat} : (enterRest p st).Spares (R.PORT_DROP_COUNT p) :=
  ⟨spares_setF.2 (home_ne hp), ⟨spares_setF.2 (home_ne hp), spares_setF.2 (home_ne hp), spares_setF.2 (home_ne hp), trivial⟩,
    spares_of (qualIdle_kinds p) (stays_DROP_COUNT hp).aside, fun _ => id, all_when_i (spares_raise.2 (home_ne hp)), trivial⟩

theorem enterListen_count {b : Bool} : (enterListen p b).Spares (R.PORT_DROP_COUNT p) :=
  spares_own (enterListen_kinds p b) (apart_PORT_DROP_COUNT hp (by decide) (by decide) (by decide))

theorem dropCore_count (hs : s.ok = true) (ha : s.awake p) : (run (dropCore p cause unc) s).f (F.PORT_DROP_COUNT_count p)
    = min (s.f (F.PORT_DROP_COUNT_count p) + 1) (2 ^ 32 - 1) := by
  refine dropCore_leads (P := fun t => t.f (F.PORT_DROP_COUNT_count p) = s.f (F.PORT_DROP_COUNT_count p))
    (K := fun t => t.f (F.PORT_DROP_COUNT_count p) = min (s.f (F.PORT_DROP_COUNT_count p) + 1) (2 ^ 32 - 1))
    (J := fun t => t.f (F.PORT_DROP_COUNT_count p) = _) (leads_read fun _ _ _ => ?_) (fun _ => ?_) (fun _ => ?_) hs ha rfl
  · exact leads_cons (maintains_f (spares_of (dropEntry_kinds p _ _ _) (stays_DROP_COUNT hp).aside)) <| leads_cons satAdd_leads <|
      leads_cons (maintains_f (spares_raise.2 (home_ne hp))) <| leads_cons (maintains_f spares_emit) <| leads_cons (maintains_f fun _ => id) leads_nil
  · exact leads_cons (maintains_f (spares_raise.2 (home_ne hp))) (leads_cons (maintains_f (enterRest_count hp)) leads_nil)
  · exact maintains_f (enterListen_count hp)

theorem enterRest_raised {st b : Nat} (hb : b < 24) : (enterRest p st).Maintains fun s => s.raised (R.PORT_EVENT p) b = true :=
  leads_cons (raised_spared (spares_setF.2 (home_ne hp))) <|
    leads_cons (leads_cons (raised_spared (spares_setF.2 (home_ne hp))) <| leads_cons (raised_spared (spares_setF.2 (home_ne hp))) <|
      leads_cons (raised_spared (spares_setF.2 (home_ne hp))) leads_nil) <|
    leads_cons (raised_spared (spares_of (qualIdle_kinds p) (stays_EVENT hp).aside)) <| leads_cons (raised_spared fun _ => id) <|
    leads_cons (maintains_when fun _ => maintains_raised hb) leads_nil

theorem enterListen_event {b : Bool} : (enterListen p b).Spares (R.PORT_EVENT p) :=
  spares_own (enterListen_kinds p b) (apart_PORT_EVENT hp (by decide) (by decide) (by decide))

theorem dropCore_raised (hs : s.ok = true) (ha : s.awake p) : (run (dropCore p cause unc) s).raised (R.PORT_EVENT p) 1 = true := by
  refine dropCore_leads (P := fun _ => True) (K := fun t => t.raised (R.PORT_EVENT p) 1 = true) (J := fun t => t.raised (R.PORT_EVENT p) 1 = true)
    (leads_read fun _ _ _ => ?_) (fun _ => ?_) (fun _ => ?_) hs ha trivial
  · exact ensures_later <| ensures_later <| ensures_now (raised_raise (by decide)) <| leads_cons (raised_spared spares_emit) <|
      leads_cons (raised_spared fun _ => id) leads_nil
  · exact leads_cons maintains_raised (leads_cons (enterRest_raised hp (by decide)) leads_nil)
  · exact raised_spared (enterListen_event hp)

end

/-- A drop of a port that is awake is reported with its cause and the flap guard's verdict. -/
theorem dropCore_emits (ha : s.awake p) :
    Raised ⟨0x40 + p, kLinkDrop, 0, cause + 256 * b2n (s.flapTrips p cause), p⟩ s (run (dropCore p cause unc) s) := by
  rw [dropCore_awake ha]
  have hrec : Raised ⟨0x40 + p, kLinkDrop, 0, cause + 256 * b2n (s.flapTrips p cause), p⟩ s (run (dropRecord p cause unc) s) := by
    simp only [dropRecord, run_read]
    exact emits_later (adds_of (dropEntry_kinds p _ _ _)) (emits_later (fun _ => ⟨[], (List.append_nil _).symm⟩) <|
      emits_later (adds_raise _ _) <| emits_now (emits_emit _ _ _ _ _) <| adds_cons (adds_of (updPort_kinds p _)) adds_nil) s
  rw [run_block_cons]
  refine hrec.trans (adds_cons ?_ adds_nil _)
  split
  · exact adds_cons (adds_raise _ _) (adds_cons (adds_of (enterRest_kinds p _)) adds_nil)
  · exact adds_of (enterListen_kinds p _)

end Sys2Proof.Machine
end

section
/-!
PROOFS. O4: a link drop by its cause, the record, the state after it (R141 to R143).
-/
set_option Elab.async false
namespace Sys2Proof.Machine

variable {p cause unc K : Nat} {s : State} {prog change : Prog}

/-- The tables that a move of a port can write. -/
def moveTables : List RegId :=
  [.TB_STAT, .TB_EVENT, .CAL_PORT_STAT, .CAL_PORT_QUAL, .BND_STAT, .BND_EVENT, .BND_PAIR_STAT, .CANE_STAT, .CANE_EVENT, .WAKE_PENDING, .PORT_CTL,
   .PORT_STATE, .PORT_PARTNER_ABIL, .PORT_PARTNER_FLAGS, .PORT_PARTNER_ID, .PORT_LINK_QUAL, .PORT_MSE_REF, .PORT_DROP_COUNT, .PORT_DROP_HIST_IDX,
   .PORT_DROP_HIST, .PORT_EVENT, .PORT_X50_STAT, .PORT_AM_STAT, .PORT_LOOP_STAT, .PORT_SEG_STAT, .PORT_LPI_STAT, .PORT_TC10_STAT]

/-- The kinds of the actions of a move. -/
def moveMask : Nat := 0x220084300003CA381800000409250000000000000000000000000C0000000000000000004040000000000000000000000003400037D0

/-- What a move leaves as it was. -/
theorem frame_of_move (h : Prog.All (Act.among moveMask) prog) (hs : s.ok = true) : Frame moveTables (linkParts ++ [.draws]) s (run prog s) :=
  run_frame_of h hs _ _ (by decide) (by decide) (by decide) (by decide +kernel) fun q => by cases q <;> decide

/-- What a move adds to the messages. -/
theorem adds_of_move (h : Prog.All (Act.among moveMask) prog) : prog.Adds := adds_of h

/-- A message that the change raises is raised by the move. -/
theorem movePort_emits {m : Msg} (hc : Raised m s (run change s)) : Raised m s (run (movePort p change) s) := by
  have h : Prog.All (Act.among moveMask) (afterMove s p) :=
    ⟨fun _ => all_when_i ((linkLost_kinds p).sub), fun _ => all_when_i ((tapQueue_kinds p).sub), (refreshNear_kinds p).sub, trivial⟩
  exact hc.trans (adds_of_move h _)

/-- What a link drop with a cause leaves: the state, the report, the count, the event. -/
def Dropped (p cause : Nat) (s u : State) : Prop :=
  ((s.flapTrips p cause = true → u.pst p = stFault) ∧ (s.flapTrips p cause = false → u.pst p = stListen)) ∧
  Raised ⟨0x40 + p, kLinkDrop, 0, cause + 256 * b2n (s.flapTrips p cause), p⟩ s u ∧
  u.f (F.PORT_DROP_COUNT_count p) = min (s.f (F.PORT_DROP_COUNT_count p) + 1) (2 ^ 32 - 1) ∧
  u.raised (R.PORT_EVENT p) 1 = true

theorem portDrop_dropped (hp : p < 64) (hs : s.ok = true) (hup : s.linkUp p = true) (ha : s.awake p) :
    Dropped p cause s (run (portDrop p cause unc) s) := by
  have e : run (portDrop p cause unc) s = run (movePort p (dropCore p cause unc)) s := by simp only [portDrop, run_read, hup, run_when, if_true]
  rw [e]
  have hst : (run (movePort p (dropCore p cause unc)) s).pst p = if s.flapTrips p cause then stFault else stListen :=
    (f_movePort (stays_STATE hp) hs).trans (dropCore_pst hp hs ha)
  exact ⟨⟨fun h => by rw [hst, if_pos h], fun h => by rw [hst, h]; rfl⟩, movePort_emits (dropCore_emits ha),
    (f_movePort (stays_DROP_COUNT hp) hs).trans (dropCore_count hp hs ha),
    (congrArg (fun w : Word => bitOf w.toNat 1) (reg_movePort (stays_EVENT hp) hs)).trans (dropCore_raised hp hs ha)⟩

/-- A link drop that a command orders, its frame included. -/
theorem drop_acts {c : Instr} (hp : p < 64) (hs : s.ok = true) (hup : s.linkUp p = true) (ha : s.awake p)
    (he : exec c s = finish (portDrop p cause unc) s) :
    Acts c s fun u => ((s.flapTrips p cause = true → u.pst p = stFault) ∧ (s.flapTrips p cause = false → u.pst p = stListen)) ∧
      Raised ⟨0x40 + p, kLinkDrop, 0, cause + 256 * b2n (s.flapTrips p cause), p⟩ s u ∧
      u.f (F.PORT_DROP_COUNT_count p) = min (s.f (F.PORT_DROP_COUNT_count p) + 1) (2 ^ 32 - 1) ∧
      u.raised (R.PORT_EVENT p) 1 = true ∧ Frame moveTables (linkParts ++ [.draws]) s u ∧ (s.caneOf p = none → OnlyPort p s u) := by
  obtain ⟨h1, h2, h3, h4⟩ := portDrop_dropped (cause := cause) (unc := unc) hp hs hup ha
  exact acts_finish _ he ⟨h1, h2, h3, h4, frame_of_move (portDrop_kinds p cause unc) hs, onlyPort_of (fun hc => portDrop_apart hc) hs⟩

end Sys2Proof.Machine

namespace Sys2Proof.Proofs
open Sys2Proof Sys2Proof.Machine

/-- Settles O4: each cause runs the one program of a link drop, which records, counts, reports and moves the port before what
goes with the link ends. -/
theorem linkDrops : Obligations.LinkDrops := by
  refine ⟨fun p unc s hs hup hl hr _ hseg => ?_, fun p n s hs hup hl hr _ hseg hb hn => ?_, fun p unc s hs hup hl hr _ hseg hq => ?_,
    fun p unc s hs hup hl hr _ hseg => ?_⟩
  · exact drop_acts (unc := unc.toNat) p.isLt hs hup ⟨hl, hr⟩ (by simp [exec, execBlockLock, blockLock, hseg, when])
  · refine drop_acts (unc := n.toNat) p.isLt hs hup ⟨hl, hr⟩ ?_
    simp [exec, execFecBurst, fecBurst, finish, hseg, hb, hn]
  · refine drop_acts (unc := unc.toNat) p.isLt hs hup ⟨hl, hr⟩ ?_
    simp [exec, execSqiLow, sqiLow, finish, hseg, hq]
  · exact drop_acts (unc := unc.toNat) p.isLt hs hup ⟨hl, hr⟩ (by simp [exec, execPartnerDown, partnerDown, hseg, when])

end Sys2Proof.Proofs
end

section
/-!
SUPPORT. What moves of a port whose link is down leave in what the port holds.
-/
set_option Elab.async false
namespace Sys2Proof.Machine

variable {p q K off : Nat} {s t : State} {prog change : Prog} {P J : State → Prop} {A B : PortX → Prop}

theorem port_updPort {g : PortX → PortX} (hs : s.ok = true) : (run (updPort p g) s).port p = g (s.port p) := by
  simp only [run_updPort, State.port, apply_ports]
  exact SMap.getD_putD_same _ _ _ _ (ok_ports_sorted hs)

theorem updPort_leads {g : PortX → PortX} (h : ∀ x, A x → B (g x)) : (updPort p g).Leads (fun s => A (s.port p)) fun s => B (s.port p) :=
  fun s hs ha => by
    show B ((run (updPort p g) s).port p)
    rw [port_updPort hs]
    exact h _ ha

theorem updPort_ensures {g : PortX → PortX} (h : ∀ x, B (g x)) : (updPort p g).Ensures fun s => B (s.port p) :=
  fun s hs _ => updPort_leads (A := fun _ => True) (fun x _ => h x) s hs trivial

/-- A program that touches no port keeps what a port holds. -/
theorem maintains_port (h : Prog.All (Act.among K) prog) (h6 : K.testBit 6 = false := by decide) : prog.Maintains fun s => A (s.port p) :=
  fun s _ ha => by
    show A ((run prog s).port p)
    unfold State.port
    rw [run_ports_of h h6]
    exact ha

theorem setReg_port {o : Nat} {w : Word} : (setReg o w).Maintains fun s => A (s.port p) := fun _ _ h => h
theorem setWide_port {o n v : Nat} : (setWide o n v).Maintains fun s => A (s.port p) :=
  maintains_port (setWide_kinds (K := 2 ^ 63) _ _ _ fun _ _ => lies_any (tb rfl)) (by decide)
theorem setF_port {F : Field} {v : Nat} : (setF F v).Maintains fun s => A (s.port p) := fun _ _ h => h

theorem raise_port {o b : Nat} : (raise o b).Maintains fun s => A (s.port p) :=
  maintains_port (raise_kinds (K := 2 ^ 63 + 2 ^ 4) o b (tb rfl) (lies_any (tb rfl))) (by decide)

/-- A change of a port's state that starts with its link down: the bundles of the port follow, and the taps in force. -/
theorem movePort_down (hd : ∀ s, P s → s.linkUp p = false) (hc : change.Leads P J) (ht : (tapQueue p).Maintains J)
    (hr : (refreshNear p).Maintains J) : (movePort p change).Leads P J := fun s hs hP =>
  afterMove_maintains (fun h => absurd h (by simp [hd s hP])) ht hr _ (run_ok change s hs) (hc s hs hP)

/-- What a port holds beside its next taps, after such a change. -/
theorem movePort_port (hd : ∀ s, P s → s.linkUp p = false) (hB : ∀ x v, B x → B { x with tapNext := v })
    (hc : change.Leads P fun s => B (s.port p)) : (movePort p change).Leads P fun s => B (s.port p) :=
  movePort_down hd hc (leads_read fun _ _ _ => maintains_when fun _ => updPort_leads fun x h => hB x _ h)
    (maintains_port (refreshNear_kinds p) (by decide))

theorem linkUp_eq_false {n : Nat} (h : s.pst p = n) (hn : n ≠ stUp ∧ n ≠ stLpi := by decide) : s.linkUp p = false := by
  simp [State.linkUp, h, hn.1, hn.2]

theorem enterListen_port {b : Bool} (h : ∀ x, A x → B { x with canePage := none, partnerEee := false, wait := some b, noModeRaised := false, fromStored := false, pam6 := false, exiting := false, rxQuiet := false, txQuiet := false }) :
    (enterListen p b).Leads (fun s => A (s.port p)) fun s => B (s.port p) :=
  leads_cons setF_port <| leads_cons (maintains_port (setMode_kinds p 0 0)) <| leads_cons (maintains_port (qualIdle_kinds p)) <|
    leads_cons (R := fun s => ∃ x, A x ∧ s.port p = { x with canePage := none, partnerEee := false })
      (leads_cons setReg_port <| leads_cons setReg_port <|
        leads_cons setWide_port <|
        leads_cons (maintains_when fun _ => leads_cons setF_port <| leads_cons setF_port <| leads_cons setF_port <| leads_cons setF_port <|
          leads_cons setF_port leads_nil) <|
        leads_cons (updPort_leads (B := fun y => ∃ x, A x ∧ y = { x with canePage := none, partnerEee := false }) fun x hx => ⟨x, hx, rfl⟩) leads_nil) <|
    leads_cons (updPort_leads (A := fun y => ∃ x, A x ∧ y = { x with canePage := none, partnerEee := false }) fun y ⟨x, hx, e⟩ => e ▸ h x hx) leads_nil

end Sys2Proof.Machine
end

section
/-!
SUPPORT. Moves to LISTEN, and the failures of negotiations and trainings that end in it (R129, R132, R137).
-/
set_option Elab.async false
namespace Sys2Proof.Machine

variable {p off : Nat} {s t : State} {P : State → Prop} {A : PortX → Prop}

section
variable (hp : p < 64)
include hp

theorem toListen_pst {b : Bool} : (toListen p b).Ensures fun s => s.pst p = stListen := fun s hs _ =>
  (f_movePort (stays_STATE hp) hs).trans (enterListen_pst hp s hs trivial)

theorem toListen_above {b : Bool} {hi lo n : Nat} (hl : 9 < lo) : (toListen p b).Maintains fun s => s.f ⟨R.PORT_STATE p, hi, lo⟩ = n := fun s hs hn =>
  (f_movePort (stays_STATE hp) hs).trans (enterListen_above hp hl s hs hn)

theorem toListen_event {b : Bool} : (toListen p b).Spares (R.PORT_EVENT p) := movePort_spares (stays_EVENT hp) (enterListen_event hp)

omit hp in
/-- LISTEN from a state without a link begins its wait. -/
theorem toListen_wait {b : Bool} : (toListen p b).Leads (fun s => s.linkUp p = false) fun s => (s.port p).wait = some b :=
  movePort_port (B := fun x => x.wait = some b) (fun _ h => h) (fun _ _ h => h)
    fun s hs _ => enterListen_port (A := fun _ => True) (B := fun x => x.wait = some b) (fun _ _ => rfl) s hs trivial

omit hp in
theorem toListen_fails {b : Bool} {m n : Nat} : (toListen p b).Leads (fun s => s.linkUp p = false ∧ (s.port p).trainFails.getD m 0 = n)
    fun s => (s.port p).trainFails.getD m 0 = n :=
  movePort_port (B := fun x => x.trainFails.getD m 0 = n) (fun _ h => h.1) (fun _ _ h => h)
    fun s hs h => enterListen_port (A := fun x => x.trainFails.getD m 0 = n) (B := fun x => x.trainFails.getD m 0 = n) (fun _ h => h) s hs h.2

omit hp in
theorem satAdd_pst {lo hi k n : Nat} (hl : 2 < lo) (h : lo ≤ hi ∧ hi < 32) : (satAdd ⟨R.PORT_STATE p, hi, lo⟩ k).Maintains fun s => s.pst p = n :=
  leads_read fun _ _ _ => setF_beside (.inl hl) h

/-! A failed negotiation. -/

theorem anFail_pst : (anFail p).Ensures fun s => s.pst p = stListen :=
  ensures_later <| ensures_later <| ensures_now (toListen_pst hp) leads_nil

theorem anFail_count {n : Nat} : (anFail p).Leads (fun s => s.f (F.PORT_STATE_fail_count p) = n) fun s => s.f (F.PORT_STATE_fail_count p) = min (n + 1) 255 :=
  leads_cons (maintains_f (raise_event_state hp)) <| leads_cons satAdd_leads <| leads_cons (toListen_above hp (by decide)) leads_nil

theorem anFail_raised : (anFail p).Ensures fun s => s.raised (R.PORT_EVENT p) 5 = true :=
  ensures_now (raised_raise (by decide)) <| leads_cons (raised_spared (spares_satAdd.2 (home_ne hp))) <|
    leads_cons (raised_spared (toListen_event hp)) leads_nil

theorem anFail_wait : (anFail p).Leads (fun s => s.pst p = stNegotiate) fun s => (s.port p).wait = some true :=
  leads_cons (maintains_f (raise_event_state hp)) <| leads_cons (satAdd_pst (by decide) (by decide)) <|
    leads_cons (fun s hs h => toListen_wait s hs (linkUp_eq_false h)) leads_nil

omit hp in
theorem anFail_apart (hc : s.caneOf p = none) : (anFail p).Maintains (Apart p s) :=
  leads_cons (Prog.Confined.apart raise_confined) <| leads_cons (Prog.Confined.apart satAdd_confined) <| leads_cons (toListen_apart hc) leads_nil

/-! A failed training: its event and count, what the limit of failures excludes, LISTEN. -/

/-- The exclusion of a mode at the limit of its failures. -/
def excludeMode (s : State) (p : Nat) : Prog :=
  let m := s.pmode p
  let limit := s.f (F.PORT_TIMERS2_train_fail_limit p)
  let keeps := if s.bit (F.PORT_MODE_CFG_an_en p) then lowBit 8 (s.f (F.PORT_ADV_modes p) * 2) == some m else true
  when (limit != 0 && decide (limit ≤ (s.port p).trainFails.getD m 0 + 1) && !keeps && !bitOf (s.f (F.PORT_STATE_excluded p)) m)
    (block [setF (F.PORT_STATE_excluded p) (setBit (s.f (F.PORT_STATE_excluded p)) m), raise (R.PORT_EVENT p) 8])

omit hp in
theorem trainFail_eq : trainFail p = .read fun s => block [raise (R.PORT_EVENT p) 6, satAdd (F.PORT_STATE_fail_count p) 1,
    when (s.f (F.PORT_TIMERS2_train_fail_limit p) != 0)
      (updPort p fun x => { x with trainFails := x.trainFails.put (s.pmode p) ((s.port p).trainFails.getD (s.pmode p) 0 + 1) }),
    excludeMode s p, toListen p true] := rfl

/-- The exclusion writes the excluded modes of the state alone. -/
theorem excludeMode_state {hi lo n : Nat} (h : hi < 16 ∨ 23 < lo) : (excludeMode s p).Maintains fun s => s.f ⟨R.PORT_STATE p, hi, lo⟩ = n :=
  maintains_when fun _ => leads_cons (setF_beside h) <| leads_cons (maintains_f (raise_event_state hp)) leads_nil

theorem trainFail_pst : (trainFail p).Ensures fun s => s.pst p = stListen := leads_read fun _ _ _ =>
  ensures_later <| ensures_later <| ensures_later <| ensures_later <| ensures_now (toListen_pst hp) leads_nil

theorem trainFail_count {n : Nat} : (trainFail p).Leads (fun s => s.f (F.PORT_STATE_fail_count p) = n)
    fun s => s.f (F.PORT_STATE_fail_count p) = min (n + 1) 255 := leads_read fun _ _ _ =>
  leads_cons (maintains_f (raise_event_state hp)) <| leads_cons satAdd_leads <|
    leads_cons (maintains_when fun _ => maintains_f fun _ => id) <| leads_cons (excludeMode_state hp (.inr (by decide))) <|
    leads_cons (toListen_above hp (by decide)) leads_nil

theorem trainFail_raised : (trainFail p).Ensures fun s => s.raised (R.PORT_EVENT p) 6 = true := leads_read fun _ _ _ =>
  ensures_now (raised_raise (by decide)) <| leads_cons (raised_spared (spares_satAdd.2 (home_ne hp))) <|
    leads_cons (maintains_when fun _ => raised_spared fun _ => id) <|
    leads_cons (maintains_when fun _ => leads_cons (raised_spared (spares_setF.2 (home_ne hp))) <| leads_cons maintains_raised leads_nil) <|
    leads_cons (raised_spared (toListen_event hp)) leads_nil

omit hp in
/-- A program that keeps the port in TRAIN and its failures. -/
theorem failing_kept {prog : Prog} {m n : Nat} (h1 : prog.Maintains fun t => t.pst p = stTrain)
    (h2 : prog.Maintains fun t => (t.port p).trainFails.getD m 0 = n) :
    prog.Maintains fun t => t.pst p = stTrain ∧ (t.port p).trainFails.getD m 0 = n := fun t ht h => ⟨h1 t ht h.1, h2 t ht h.2⟩

omit hp in
theorem setF_fails {F : Field} {v m n : Nat} : (setF F v).Maintains fun t => (t.port p).trainFails.getD m 0 = n :=
  setF_port (A := fun x => x.trainFails.getD m 0 = n)

omit hp in
theorem raise_fails {o b m n : Nat} : (raise o b).Maintains fun t => (t.port p).trainFails.getD m 0 = n :=
  raise_port (A := fun x => x.trainFails.getD m 0 = n)

omit hp in
theorem put_fails {m n : Nat} : (updPort p fun x => { x with trainFails := x.trainFails.put m (n + 1) }).Leads (fun t => t.pst p = stTrain ∧ (t.port p).trainFails.getD m 0 = n)
    fun t => t.pst p = stTrain ∧ (t.port p).trainFails.getD m 0 = n + 1 := fun t ht h =>
  ⟨h.1, updPort_ensures (B := fun x => x.trainFails.getD m 0 = n + 1) (fun x => by simp [SMap.getD]) t ht trivial⟩

/-- The failures of the mode in use count where a limit is set. -/
theorem trainFail_fails (hs : s.ok = true) (h : s.pst p = stTrain) : ((run (trainFail p) s).port p).trainFails.getD (s.pmode p) 0
    = (s.port p).trainFails.getD (s.pmode p) 0 + if s.f (F.PORT_TIMERS2_train_fail_limit p) = 0 then 0 else 1 := by
  rw [trainFail_eq, run_read]
  generalize hn : (s.port p).trainFails.getD (s.pmode p) 0 = n
  refine (?_ : Prog.Leads (fun t => t.pst p = stTrain ∧ (t.port p).trainFails.getD (s.pmode p) 0 = n) (block _)
    fun t => (t.port p).trainFails.getD (s.pmode p) 0 = n + if s.f (F.PORT_TIMERS2_train_fail_limit p) = 0 then 0 else 1) s hs ⟨h, hn⟩
  refine leads_cons (failing_kept (maintains_f (raise_event_state hp)) raise_fails) <|
    leads_cons (failing_kept (satAdd_pst (lo := 24) (hi := 31) (by decide) (by decide)) (leads_read fun _ _ _ => setF_fails)) <|
    leads_cons (R := fun t => t.pst p = stTrain ∧ (t.port p).trainFails.getD (s.pmode p) 0 = n + if s.f (F.PORT_TIMERS2_train_fail_limit p) = 0 then 0 else 1) ?_ <|
    leads_cons (failing_kept (excludeMode_state hp (.inl (by decide)))
      (maintains_when fun _ => leads_cons setF_fails <| leads_cons raise_fails leads_nil)) <|
    leads_cons (fun t ht e => toListen_fails t ht ⟨linkUp_eq_false e.1, e.2⟩) leads_nil
  by_cases hl : s.f (F.PORT_TIMERS2_train_fail_limit p) = 0
  · rw [hl]; exact leads_skip
  · rw [if_neg hl, bne_iff_ne.2 hl]; exact put_fails

omit hp in
theorem trainFail_apart (hc : s.caneOf p = none) : (trainFail p).Maintains (Apart p s) := leads_read fun _ _ _ =>
  leads_cons (Prog.Confined.apart raise_confined) <| leads_cons (Prog.Confined.apart satAdd_confined) <|
    leads_cons (maintains_when fun _ => updPort_confined.apart) <|
    leads_cons (maintains_when fun _ => leads_cons (Prog.Confined.apart setF_confined) <| leads_cons (Prog.Confined.apart raise_confined) leads_nil) <|
    leads_cons (toListen_apart hc) leads_nil

end

end Sys2Proof.Machine
end

section
/-!
SUPPORT. Values of two words; the pages of a partner (R122, R124, R144, R168, R180).
-/
set_option Elab.async false
namespace Sys2Proof.Machine

variable {p off n v K : Nat} {s t : State} {prog : Prog}

theorem wide_two : s.wide off 2 = (s.reg off).toNat + 2 ^ 32 * (s.reg (off + 4)).toNat := by simp only [State.wide, Nat.mul_zero, Nat.add_zero]

/-- A value written reads as what was written, cut to its two words. -/
theorem setWide_ensures : (setWide off 2 v).Ensures fun s => s.wide off 2 = v % 2 ^ 64 := fun s hs _ => by
  have hr := State.ok_regs_sorted hs
  simp only [wide_two, setWide, run_seq, run_skip, run_setReg]
  rw [reg_apply_same _ _ _ (apply_regs_sorted _ _ hr), reg_apply_ne (.reg (off + 4) _) _ (apply_regs_sorted _ _ hr) (fun e : off + 4 = off => by omega),
    reg_apply_same _ _ _ hr, BitVec.toNat_ofNat, BitVec.toNat_ofNat]
  omega

theorem setWide_ensures_zero : (setWide off 2 0).Ensures fun s => s.wide off 2 = 0 := setWide_ensures

theorem maintains_wide (h : prog.Spares off) (h4 : prog.Spares (off + 4)) : prog.Maintains fun s => s.wide off 2 = n := fun s hs hn => by
  have hr := State.ok_regs_sorted hs
  show (run prog s).wide off 2 = n
  rw [wide_two, run_reg_frame _ _ h s hr, run_reg_frame _ _ h4 s hr, ← wide_two]
  exact hn

theorem spares_setWide {o : Nat} (h : o ≠ off) (h4 : o + 4 ≠ off) : (setWide o 2 v).Spares off := ⟨h, h4, trivial⟩

/-- Adding to a value wraps at its two words. -/
theorem addWide_leads {k : Nat} : (addWide off 2 k).Leads (fun s => s.wide off 2 = n) fun s => s.wide off 2 = (n + k) % 2 ^ 64 :=
  leads_read fun s hs hn => by rw [hn]; exact setWide_ensures.leads

/-! Pages. -/

/-- What a page of the partner does to the port's record of it. -/
def takePage (s : State) (p : Nat) (page : AnPage) : Prog :=
  let answered := s.bit (F.PORT_PARTNER_ABIL_vendor_page p)
  match page with
  | .base modes role eee => anBase p modes.toNat role.toNat eee
  | .vendor => setF (F.PORT_PARTNER_ABIL_vendor_page p) 1
  | .x50 word => when (answered && decide (p < 8)) (anX50 p word.toNat)
  | .cane tag members lane modes policy => when answered (updPort p fun x => { x with canePage := some (tag.toNat, members.toNat, lane.toNat, modes.toNat, policy.toNat), pageAt := 1 + (List.range 8).foldl (fun n i => max n (s.port i).pageAt) 0 })
  | .ident id => when answered (block [setWide (R.PORT_PARTNER_ID p) 2 id.toNat, setF (F.PORT_PARTNER_FLAGS_id_valid p) 1])

/-- A page that is not the last one only fills the record. -/
theorem run_anPage {page : AnPage} {seedMaster : Bool} (h : s.pst p = stNegotiate) :
    run (anPage p page false seedMaster) s = run (takePage s p page) s := by
  have hn : (s.pst p == stNegotiate) = true := by simp [h]
  unfold anPage
  simp only [run_read, run_when, hn, if_true]
  rfl

theorem anX50_confined {w : Nat} : (anX50 p w).Confined p :=
  ⟨setF_confined, setF_confined, setF_confined, setF_confined, setF_confined, setF_confined, trivial⟩

theorem anBase_confined {modes role : Nat} {eee : Bool} : (anBase p modes role eee).Confined p :=
  ⟨setReg_confined, setF_confined, updPort_confined, trivial⟩

theorem takePage_confined {page : AnPage} : (takePage s p page).Confined p := by
  cases page with
  | base modes role eee => exact anBase_confined
  | vendor => exact setF_confined
  | x50 word => exact all_when_i anX50_confined
  | cane => exact all_when_i updPort_confined
  | ident id => exact all_when_i ⟨setWide_confined, setF_confined, trivial⟩

/-- The kinds of the actions of a page: those of the record and of what the port holds. -/
theorem takePage_kinds {page : AnPage} : Prog.All (Act.among 0x100000003800000000000000000000000000000000000000000000000000000000000000000000000000000000000000000040) (takePage s p page) := by
  cases page with
  | base modes role eee => exact (anBase_kinds p _ _ _).sub
  | vendor => exact setF_kinds _ _ (lies_PORT_PARTNER_ABIL (tb rfl))
  | x50 word => exact all_when_i (anX50_kinds p _).sub
  | cane => exact all_when_i (updPort_kinds p _).sub
  | ident id =>
    exact all_when_i ⟨setWide_kinds _ _ _ (lies_PORT_PARTNER_ID_words (tb rfl) (le_refl _)),
      setF_kinds _ _ (lies_PORT_PARTNER_FLAGS (tb rfl)), trivial⟩

/-- The base page fills the abilities, marks the record valid and notes the EEE ability. -/
theorem anBase_fills (hp : p < 64) {modes role : Nat} {eee : Bool} (hs : s.ok = true) :
    (run (anBase p modes role eee) s).reg (R.PORT_PARTNER_ABIL p) = BitVec.ofNat 32 (modes / 2 * 2 % 128 + 2 ^ 8 * (role % 4) + 2 ^ 10) ∧
    (run (anBase p modes role eee) s).f (F.PORT_PARTNER_FLAGS_valid p) = 1 ∧ ((run (anBase p modes role eee) s).port p).partnerEee = eee := by
  refine ⟨?_, ?_, ?_⟩
  · refine (leads_cons (fun t ht _ => reg_apply_same _ _ t (State.ok_regs_sorted ht)) <| leads_cons (maintains_reg (J := (· = _)) (spares_setF.2 (home_ne hp))) <|
      leads_cons (maintains_reg (J := (· = _)) fun _ => id) leads_nil : (anBase p modes role eee).Ensures fun t => t.reg (R.PORT_PARTNER_ABIL p) = _) s hs trivial
  · exact (ensures_later (ensures_now setF_ensures (leads_cons (maintains_f fun _ => id) leads_nil)) :
      (anBase p modes role eee).Ensures fun t => t.f (F.PORT_PARTNER_FLAGS_valid p) = 1) s hs trivial
  · exact (ensures_later (ensures_later (ensures_now (updPort_ensures (B := fun x => x.partnerEee = eee) fun _ => rfl) leads_nil)) :
      (anBase p modes role eee).Ensures fun t => (t.port p).partnerEee = eee) s hs trivial

end Sys2Proof.Machine
end

section
/-!
SUPPORT. The end of the wait in LISTEN (R137): a latched wake that is served changes nothing of what the start looks at.
-/
set_option Elab.async false
namespace Sys2Proof.Machine

variable {p off : Nat} {s t : State}

/-! What a latched wake that is served changes (R134, R137). -/

/-- The words that serving a latched wake can write. -/
def latchWords (p : Nat) : List Nat := [R.WAKE_PCOUNT p, R.MLD_GOV_CLAMP_COUNT, R.WAKE_EVENT]

theorem satAdd_writes {F : Field} {k : Nat} {offs : List Nat} (h : F.off ∈ offs) : (satAdd F k).Writes offs := fun _ _ => h

/-- A pulse comes too early after the last one. -/
def State.pulseEarly (s : State) (p : Nat) : Bool :=
  match (s.port p).lastPulse with
  | some t => decide (s.now < t + s.spacing * 1000000)
  | none => false

/-- The last clamp of a port's pulses is a second ago or more. -/
def State.clampDue (s : State) (p : Nat) : Bool :=
  match (s.port p).lastClamp with
  | some t => decide (t + 1000000000 ≤ s.now)
  | none => true

/-- A pulse that is held back is counted. -/
def pulseHold (s : State) (p : Nat) : Prog :=
  block [updPort p fun y => { y with pulseHeld := true }, satAdd (F.WAKE_PCOUNT_held p) 1,
    satAdd F.MLD_GOV_CLAMP_COUNT_count 1, raise R.WAKE_EVENT 2,
    when (s.clampDue p) (block [governorClamp R.WAKE_CFG 2 p, updPort p fun y => { y with lastClamp := some s.now }])]

/-- A pulse that leaves. -/
def pulseSend (s : State) (p : Nat) (wup : Bool) : Prog :=
  block [updPort p fun y => { y with lastPulse := some s.now, wupRunning := y.wupRunning || wup },
    satAdd (F.WAKE_PCOUNT_sent p) 1, send (.line p (if wup then "wup" else "wur") 1)]

theorem pulse_eq {wup : Bool} : pulse p wup = .read fun s =>
    if !s.mayTransmit p then .skip else if (s.port p).pulseHeld then .skip
    else if s.pulseEarly p then pulseHold s p else pulseSend s p wup := rfl

theorem pulse_writes {wup : Bool} : (pulse p wup).Writes (latchWords p) := by
  rw [pulse_eq]
  intro s
  dsimp only
  split
  · exact trivial
  split
  · exact trivial
  split
  · exact ⟨fun _ => trivial, satAdd_writes (by simp [latchWords, F.WAKE_PCOUNT_held]), satAdd_writes (by simp [latchWords, F.MLD_GOV_CLAMP_COUNT_count]),
      writes_raise.2 (by simp [latchWords]), all_when_i ⟨fun _ => trivial, fun _ => trivial, trivial⟩, trivial⟩
  · exact ⟨fun _ => trivial, satAdd_writes (by simp [latchWords, F.WAKE_PCOUNT_sent]), trivial, trivial⟩

theorem serveLatched_writes : (serveLatched p).Writes (latchWords p) := fun _ =>
  all_when_i ⟨fun _ => trivial, all_when_i pulse_writes, trivial⟩

/-- The registers outside the mould loader and the wake controller. -/
def awayFromWake (off : Nat) : Prop := off < 0x70000 ∨ 0x80000 ≤ off ∧ off < 0x160000 ∨ 0x170000 ≤ off

theorem serveLatched_spares (hp : p < 64) (h : awayFromWake off) : (serveLatched p).Spares off := serveLatched_writes.spares fun hm => by
  have e : R.WAKE_PCOUNT p = 0x160400 + p * 4 := if_pos hp
  simp only [latchWords, e, R.MLD_GOV_CLAMP_COUNT, R.WAKE_EVENT, List.mem_cons, List.not_mem_nil, or_false] at hm
  unfold awayFromWake at h
  omega

/-- What the start of a port looks at, its own part aside. -/
structure StartsAlike (s t : State) : Prop where
  reg : ∀ off, awayFromWake off → t.reg off = s.reg off
  slots : t.slots = s.slots
  ledger : t.ledger = s.ledger

theorem StartsAlike.f (h : StartsAlike s t) (F : Field) (hF : awayFromWake F.off) : t.f F = s.f F := congrArg (bits · F.hi F.lo) (h.reg _ hF)

theorem within_eq_between (s : State) (lo hi : Nat) : s.regs.within lo (hi + 1) = s.regsBetween lo hi := by
  simp only [SMap.within, State.regsBetween, Nat.lt_succ_iff]

theorem serveLatched_alike (hp : p < 64) (hs : s.ok = true) : StartsAlike s (run (serveLatched p) s) where
  reg off h := run_reg_frame off _ (serveLatched_spares hp h) s (State.ok_regs_sorted hs)
  slots := by
    simp only [State.slots, show (0x84800 : Nat) = 0x847FF + 1 from rfl, within_eq_between]
    rw [regsBetween_run fun off h1 h2 => serveLatched_spares hp (.inr (.inl ⟨by omega, by omega⟩))]
  ledger := run_ledger_of (serveLatched_kinds p) (by decide)

/-- What of a port the start looks at. -/
def Waits (w : Option Bool) (a b : Bool) (x : PortX) : Prop := x.wait = w ∧ x.stage = a ∧ x.returned = b

theorem satAdd_port {F : Field} {k : Nat} {A : PortX → Prop} : (satAdd F k).Maintains fun s => A (s.port p) := fun _ _ h => h

/-- Serving a latched wake keeps it. -/
theorem serveLatched_waits {w : Option Bool} {a b : Bool} : (serveLatched p).Maintains fun s => Waits w a b (s.port p) := by
  have upd : ∀ {g : PortX → PortX}, (∀ x, Waits w a b x → Waits w a b (g x)) → (updPort p g).Maintains fun s => Waits w a b (s.port p) := updPort_leads
  refine leads_read fun s _ _ => maintains_when fun _ => leads_cons (upd fun _ h => h) <| leads_cons (maintains_when fun _ => ?_) leads_nil
  rw [pulse_eq]
  refine leads_read fun s _ _ => ?_
  split
  · exact leads_skip
  split
  · exact leads_skip
  split
  · exact leads_cons (upd fun _ h => h) <| leads_cons satAdd_port <| leads_cons satAdd_port <| leads_cons raise_port <|
      leads_cons (maintains_when fun _ => leads_cons (maintains_port (governorClamp_kinds _ _ _)) <| leads_cons (upd fun _ h => h) leads_nil) leads_nil
  · exact leads_cons (upd fun _ h => h) <| leads_cons satAdd_port <| leads_cons (maintains_port (send_kinds _)) leads_nil

/-! What the start looks at (R137, R202, R204). -/

theorem away_home {a : Nat} (ha : 0x1000000 ≤ a := by decide) : awayFromWake (at1 a 0x10000 64 p) := by
  unfold at1 outside
  exact .inr (.inr (by split <;> omega))

theorem StartsAlike.slotDead (h : StartsAlike s t) (n : Nat) : t.slotDead n = s.slotDead n := by
  unfold State.slotDead
  rw [h.f _ (by show awayFromWake (at1 0x80008 0x10 4 _); unfold at1 outside awayFromWake; split <;> omega)]

theorem StartsAlike.usable (h : StartsAlike s t) (p : Nat) : t.usable p = s.usable p := by
  simp only [State.usable, usableOn, countIn, h.slots, h.slotDead]

theorem StartsAlike.offeredFit (h : StartsAlike s t) (p : Nat) : t.offeredFit p = s.offeredFit p := by
  have e : t.offered p = s.offered p := by simp only [State.offered, h.f (F.PORT_ADV_modes p) away_home, h.f (F.PORT_STATE_excluded p) away_home]
  have ef : ∀ m, t.fits p m = s.fits p m := fun m => by unfold State.fits State.usableTotal; rw [h.usable]
  simp only [State.offeredFit, e, ef]

theorem StartsAlike.lineClock (h : StartsAlike s t) (p : Nat) : t.lineClock p = s.lineClock p := by
  simp only [State.lineClock, h.f F.CLK_READY_ready (.inl (by decide)), h.usable]

theorem StartsAlike.portPowered (h : StartsAlike s t) (p : Nat) : t.portPowered p = s.portPowered p := by
  simp only [State.portPowered, State.domOn, h.f F.PWR_DOM_STAT_domains (.inl (by decide)), h.usable]

theorem StartsAlike.heldByLedger (h : StartsAlike s t) (p : Nat) : t.heldByLedger p = s.heldByLedger p := by
  simp only [State.heldByLedger, h.ledger]

end Sys2Proof.Machine
end

section
/-!
PROOFS. O2: the start of a negotiation, its pages, its failures and those of a training (R122, R125, R132, R137, R139, R144).
-/
set_option Elab.async false
namespace Sys2Proof.Machine

variable {p : Nat} {s t : State}

/-! The start of a negotiation. -/

/-- The base page that a port sends. -/
def State.basePage (s : State) (p : Nat) : Nat :=
  s.offeredFit p % 128 + 2 ^ 8 * s.f (F.PORT_MODE_CFG_role p) + 2 ^ 10 * s.f (F.PORT_LPI_CFG_eee_adv p)

/-- What a port does that starts to negotiate. -/
def negotiateFrom (s : State) (p : Nat) : Prog :=
  block [setF (F.PORT_STATE_state p) stNegotiate, updPort p fun x => { x with wait := none }, send (.line p "base_page" (s.basePage p)), sendPages p]

theorem run_startAttempt (h : s.f (F.PORT_MODE_CFG_an_en p) = 1) (ho : s.offeredFit p ≠ 0) :
    run (startAttempt p) s = run (negotiateFrom s p) s := by
  unfold startAttempt
  rw [run_read, bit_of_one h, if_pos rfl, if_neg ho]
  rfl

theorem negotiateFrom_pst (hp : p < 64) (x : State) : (negotiateFrom x p).Ensures fun t => t.pst p = stNegotiate :=
  ensures_now setF_ensures <| leads_cons (maintains_f fun _ => id) <| leads_cons (maintains_f spares_send) <|
    leads_cons (maintains_f (spares_of (sendPages_kinds p) (stays_STATE hp).aside)) leads_nil

theorem negotiateFrom_wait (x : State) : (negotiateFrom x p).Ensures fun t => (t.port p).wait = none :=
  ensures_later <| ensures_now (updPort_ensures (B := fun x => x.wait = none) fun _ => rfl) <|
    leads_cons (maintains_port (A := fun x => x.wait = none) (send_kinds _)) <|
    leads_cons (maintains_port (A := fun x => x.wait = none) (sendPages_kinds p) (by decide)) leads_nil

/-- A program that sends, whatever runs before and after it. -/
theorem negotiateFrom_sends (x s : State) : Sent (.line p "base_page" (x.basePage p)) s (run (negotiateFrom x p) s) :=
  .later (out_grows (block [setF (F.PORT_STATE_state p) stNegotiate, updPort p fun x => { x with wait := none }]) s) <|
    (sent_send _ _).trans (out_grows (block [sendPages p]) _)

theorem enterTrain_confined {mode role : Nat} : (enterTrain p mode role).Confined p := fun _ =>
  ⟨setF_confined, setMode_confined, updPort_confined, all_when_i ⟨setReg_confined, updPort_confined, trivial⟩,
    confined_of (calFamily_kinds p mode), tapQueue_confined, trivial⟩

theorem noMode_confined : (noMode p).Confined p := fun _ => all_when_i ⟨raise_confined, updPort_confined, trivial⟩

theorem startAttempt_confined : (startAttempt p).Confined p := fun s => by
  dsimp only
  split
  · split
    · exact noMode_confined
    · exact ⟨setF_confined, updPort_confined, trivial, confined_of (sendPages_kinds p), trivial⟩
  · split
    · exact noMode_confined
    · exact ⟨enterTrain_confined, setReg_confined, setF_confined, trivial⟩

theorem listenWaitEnd_apart (hc : s.caneOf p = none) : (listenWaitEnd p).Maintains (Apart p s) := leads_read fun _ _ _ =>
  maintains_when fun _ => movePort_apart hc startAttempt_confined.apart

/-- A port whose wait ends with nothing to hold it. -/
structure Ready (s : State) (p : Nat) : Prop where
  listens : s.pst p = stListen
  waits : (s.port p).wait.isSome = true
  free : s.heldByLedger p = false
  stage : (s.port p).stage = false
  clock : s.lineClock p = true
  powered : s.portPowered p = true
  pots : (s.port p).returned = false
  line : portClass p ≠ .segment
  auto : s.f (F.PORT_MODE_CFG_an_en p) = 1
  offers : s.offeredFit p ≠ 0

theorem Ready.run_listenWaitEnd (h : Ready s p) : run (listenWaitEnd p) s = run (movePort p (startAttempt p)) s := by
  obtain ⟨h1, h2, h3, h4, h5, h6, h7, h8, -, -⟩ := h
  simp [listenWaitEnd, h1, h2, h3, h4, h5, h6, h7, h8]

/-- Serving a latched wake leaves it ready, with the same base page to send. -/
theorem Ready.served (hp : p < 64) (hs : s.ok = true) (h : Ready s p) :
    Ready (run (serveLatched p) s) p ∧ (run (serveLatched p) s).basePage p = s.basePage p := by
  have ha := serveLatched_alike (p := p) hp hs
  obtain ⟨hw, hst, hret⟩ := serveLatched_waits (p := p) s hs ⟨rfl, h.stage, h.pots⟩
  refine ⟨⟨(ha.f _ away_home).trans h.listens, hw ▸ h.waits, (ha.heldByLedger p).trans h.free, hst, (ha.lineClock p).trans h.clock,
    (ha.portPowered p).trans h.powered, hret, h.line, (ha.f _ away_home).trans h.auto, (ha.offeredFit p).trans_ne h.offers⟩, ?_⟩
  simp only [State.basePage, ha.offeredFit, ha.f (F.PORT_MODE_CFG_role p) away_home, ha.f (F.PORT_LPI_CFG_eee_adv p) away_home]

/-- A ready port starts to negotiate. -/
theorem Ready.starts (hp : p < 64) (hs : s.ok = true) (h : Ready s p) :
    (run (listenWaitEnd p) s).pst p = stNegotiate ∧ ((run (listenWaitEnd p) s).port p).wait = none ∧
      Sent (.line p "base_page" (s.basePage p)) s (run (listenWaitEnd p) s) := by
  rw [h.run_listenWaitEnd]
  have e := run_startAttempt h.auto h.offers
  refine ⟨?_, ?_, ?_⟩
  · exact (f_movePort (stays_STATE hp) hs).trans (e ▸ negotiateFrom_pst hp s s hs trivial)
  · refine movePort_port (P := (· = s)) (B := fun x => x.wait = none) (fun t ht => ht ▸ linkUp_eq_false h.listens) (fun _ _ h => h) (fun t ht et => ?_) s hs rfl
    subst et
    rw [e]
    exact negotiateFrom_wait t t ht trivial
  · rw [run_movePort, e]
    exact (negotiateFrom_sends s s).trans (out_grows _ _)

/-- The wait of a ready port ends. -/
theorem Ready.waitEnds (hp : p < 64) (hs : s.ok = true) (h : Ready s p) : (run (anyWaitEnd p) s).pst p = stNegotiate ∧
    ((run (anyWaitEnd p) s).port p).wait = none ∧ Sent (.line p "base_page" (s.basePage p)) s (run (anyWaitEnd p) s) := by
  obtain ⟨hr, hb⟩ := h.served hp hs
  obtain ⟨h1, h2, h3⟩ := hr.starts hp (run_ok _ s hs)
  have e : run (anyWaitEnd p) s = run (listenWaitEnd p) (run (serveLatched p) s) := by
    rw [anyWaitEnd, if_neg h.line]; rfl
  rw [e]
  exact ⟨h1, h2, .later (out_grows _ s) (hb ▸ h3)⟩

theorem anyWaitEnd_apart (hl : portClass p ≠ .segment) (hc : s.caneOf p = none) : (anyWaitEnd p).Maintains (Apart p s) := by
  rw [anyWaitEnd, if_neg hl]
  exact leads_cons (Prog.Confined.apart (confined_of (serveLatched_kinds p))) (leads_cons (listenWaitEnd_apart hc) leads_nil)

/-! The pages of the partner. -/

theorem identPage_fills (hp : p < 64) {id : BitVec 64} (hs : s.ok = true) (hv : s.bit (F.PORT_PARTNER_ABIL_vendor_page p) = true) :
    (run (takePage s p (.ident id)) s).wide (R.PORT_PARTNER_ID p) 2 = id.toNat ∧
      (run (takePage s p (.ident id)) s).f (F.PORT_PARTNER_FLAGS_id_valid p) = 1 := by
  simp only [takePage, hv, run_when, if_true]
  refine ⟨?_, ?_⟩
  · exact ((leads_cons setWide_ensures <| leads_cons (maintains_wide (spares_setF.2 (home_ne hp)) (spares_setF.2 (home_ne_word hp))) leads_nil :
      (block [_, _]).Ensures fun t => t.wide (R.PORT_PARTNER_ID p) 2 = id.toNat % 2 ^ 64) s hs trivial).trans (Nat.mod_eq_of_lt id.isLt)
  · exact (ensures_later (ensures_now setF_ensures leads_nil) : (block [_, _]).Ensures fun t => t.f (F.PORT_PARTNER_FLAGS_id_valid p) = 1) s hs trivial

end Sys2Proof.Machine

namespace Sys2Proof.Proofs
open Sys2Proof Sys2Proof.Machine

/-- Settles O2: the wait's end starts from what a served wake leaves as it was; a page fills the record; every failure counts, raises its
event and ends in LISTEN. -/
theorem negotiationMovesPort : Obligations.NegotiationMovesPort := by
  refine ⟨fun p s hs hl hpw hret hst hw hfree hstage hclk han hoff => ?_, fun p page last sm s hs hst hlast => ?_,
    fun p s hs hst => ?_, fun p s hs hst => ?_, fun p s hs hst => ?_⟩
  · obtain ⟨h1, h2, h3⟩ := Ready.waitEnds p.isLt hs ⟨hst, hw, hfree, hstage, hclk, hpw, hret, hl, han, hoff⟩
    exact acts_finish _ rfl ⟨h1, h2, h3, run_frame_of (anyWaitEnd_kinds p) hs _ _ (by decide) (by decide) (by decide) (by decide +kernel)
      (fun q => by cases q <;> decide), onlyPort_of (anyWaitEnd_apart hl) hs⟩
  · subst hlast
    refine acts_finish _ rfl ?_
    rw [run_anPage hst]
    refine ⟨?_, run_frame_of takePage_kinds hs _ _ (by decide) (by decide) (by decide) (by decide +kernel) (fun q => by cases q <;> decide),
      onlyPort_of (fun _ => takePage_confined.apart) hs⟩
    cases page with
    | base modes role eee =>
      obtain ⟨h1, h2, h3⟩ := anBase_fills p.isLt (modes := modes.toNat) (role := role.toNat) (eee := eee) hs
      rw [Nat.mod_eq_of_lt role.isLt] at h1
      exact decide_eq_true ⟨h1, h2, h3⟩
    | vendor =>
      exact bit_of_one ((setF_ensures : (setF (F.PORT_PARTNER_ABIL_vendor_page p) 1).Ensures _) s hs trivial)
    | x50 word => rfl
    | cane => rfl
    | ident id =>
      cases hv : s.bit (F.PORT_PARTNER_ABIL_vendor_page p)
      · rfl
      · exact decide_eq_true (identPage_fills p.isLt hs hv)
  · have e : run (anTimeout p) s = run (anFail p) s := by simp [anTimeout, hst]
    refine acts_finish (anTimeout p) rfl ?_
    rw [e]
    exact ⟨anFail_pst p.isLt s hs trivial, anFail_count p.isLt s hs rfl, anFail_raised p.isLt s hs trivial, anFail_wait p.isLt s hs hst,
      frame_of_move (anFail_kinds p) hs, onlyPort_of anFail_apart hs⟩
  · have e : run (trainTimeout p) s = run (trainFail p) s := by simp [trainTimeout, hst]
    refine acts_finish (trainTimeout p) rfl ?_
    rw [e]
    exact ⟨trainFail_pst p.isLt s hs trivial, trainFail_count p.isLt s hs rfl, trainFail_raised p.isLt s hs trivial, trainFail_fails p.isLt hs hst,
      frame_of_move (trainFail_kinds p) hs, onlyPort_of trainFail_apart hs⟩
  · refine acts_finish (partnerRestart p) rfl ?_
    by_cases ht : s.pst p = stTrain
    · have e : run (partnerRestart p) s = run (trainFail p) s := by simp [partnerRestart, ht]
      rw [e, if_pos ht]
      exact ⟨trainFail_pst p.isLt s hs trivial, trainFail_count p.isLt s hs rfl, trainFail_raised p.isLt s hs trivial,
        frame_of_move (trainFail_kinds p) hs, onlyPort_of trainFail_apart hs⟩
    · have hn := hst.resolve_right ht
      have e : run (partnerRestart p) s = run (anFail p) s := by rw [partnerRestart, run_read, if_neg ht, hn]; rfl
      rw [e, if_neg ht]
      exact ⟨anFail_pst p.isLt s hs trivial, anFail_count p.isLt s hs rfl, anFail_raised p.isLt s hs trivial,
        frame_of_move (anFail_kinds p) hs, onlyPort_of anFail_apart hs⟩

end Sys2Proof.Proofs
end

section
/-!
SUPPORT. Moves to rest: DISABLED, SLEEP, and the ways out of FAULT and DISABLED that CTL.admin names (R132, R157, R323).
-/
set_option Elab.async false
namespace Sys2Proof.Machine

variable {p off : Nat} {s t : State} {prog : Prog} {P : State → Prop} {A : PortX → Prop}

section
variable (hp : p < 64)
include hp

/-! The state word. -/

theorem setPending_state {b : Bool} : (setPending p b).Spares (R.PORT_STATE p) := spares_of (setPending_kinds p b) (stays_STATE hp).aside

theorem setF_ctl_state {hi lo v : Nat} : (setF ⟨R.PORT_CTL p, hi, lo⟩ v).Spares (R.PORT_STATE p) := spares_setF.2 (home_ne hp)

theorem sleepRest_pst : (sleepRest p).Ensures fun s => s.pst p = stSleep := leads_read fun _ _ _ =>
  ensures_now (enterRest_pst hp (by decide)) <| leads_cons (maintains_f (setF_ctl_state hp)) <|
    leads_cons (maintains_when fun _ => leads_cons (maintains_f (setPending_state hp)) <| leads_cons (maintains_f fun _ => id) leads_nil) leads_nil

theorem sleepRest_above {hi lo n : Nat} (hl : 9 < lo) : (sleepRest p).Maintains fun s => s.f ⟨R.PORT_STATE p, hi, lo⟩ = n := leads_read fun _ _ _ =>
  leads_cons (enterRest_above hp hl) <| leads_cons (maintains_f (setF_ctl_state hp)) <|
    leads_cons (maintains_when fun _ => leads_cons (maintains_f (setPending_state hp)) <| leads_cons (maintains_f fun _ => id) leads_nil) leads_nil

theorem movePort_rest {st : Nat} (hst : st < 8) : (movePort p (enterRest p st)).Ensures fun s => s.pst p = st := fun s hs _ =>
  (f_movePort (stays_STATE hp) hs).trans (enterRest_pst hp hst s hs trivial)

theorem movePort_above {change : Prog} {hi lo n : Nat} (h : change.Maintains fun s => s.f ⟨R.PORT_STATE p, hi, lo⟩ = n) :
    (movePort p change).Maintains fun s => s.f ⟨R.PORT_STATE p, hi, lo⟩ = n := fun s hs hn =>
  (f_movePort (stays_STATE hp) hs).trans (h s hs hn)

theorem toDisabled_pst : (toDisabled p).Ensures fun s => s.pst p = stDisabled := leads_read fun _ _ _ =>
  ensures_later <| ensures_now (movePort_rest hp (by decide)) <| leads_cons (maintains_f (setPending_state hp)) <|
    leads_cons setF_beside <| leads_cons (maintains_f fun _ => id) leads_nil

theorem toSleep_pst {n : Nat} : (toSleep p n).Ensures fun s => s.pst p = stSleep := leads_read fun _ _ _ =>
  ensures_later <| ensures_now (fun _ hs _ => (f_movePort (stays_STATE hp) hs).trans (sleepRest_pst hp _ hs trivial)) <|
    leads_cons (maintains_f (setF_spares (stays_STATE hp).aside (lies_PORT_TC10_STAT (tb rfl)))) leads_nil

omit hp in
/-- The excluded modes are cleared. -/
theorem clearExcluded_excluded : (clearExcluded p).Ensures fun s => s.f (F.PORT_STATE_excluded p) = 0 :=
  ensures_now setF_ensures (leads_cons (maintains_f fun _ => id) leads_nil)

omit hp in
theorem clearExcluded_state {hi lo n : Nat} (h : hi < 16 ∨ 23 < lo) : (clearExcluded p).Maintains fun s => s.f ⟨R.PORT_STATE p, hi, lo⟩ = n :=
  leads_cons (setF_beside h) <| leads_cons (maintains_f fun _ => id) leads_nil

theorem toDisabled_excluded : (toDisabled p).Maintains fun s => s.f (F.PORT_STATE_excluded p) = 0 := leads_read fun _ _ _ =>
  leads_cons (maintains_when fun _ => clearExcluded_excluded.leads) <| leads_cons (movePort_above hp (enterRest_above hp (by decide))) <|
    leads_cons (maintains_f (setPending_state hp)) <| leads_cons setF_beside <| leads_cons (maintains_f fun _ => id) leads_nil

theorem toSleep_excluded {n : Nat} : (toSleep p n).Maintains fun s => s.f (F.PORT_STATE_excluded p) = 0 := leads_read fun _ _ _ =>
  leads_cons (maintains_when fun _ => clearExcluded_excluded.leads) <| leads_cons (movePort_above hp (sleepRest_above hp (by decide))) <|
    leads_cons (maintains_f (setF_spares (stays_STATE hp).aside (lies_PORT_TC10_STAT (tb rfl)))) leads_nil

/-! The control word. -/

theorem clearExcluded_ctl : (clearExcluded p).Spares (R.PORT_CTL p) := ⟨spares_setF.2 (home_ne hp), fun _ => id, trivial⟩

theorem enterRest_ctl {st : Nat} : (enterRest p st).Spares (R.PORT_CTL p) := spares_own (enterRest_kinds p st) (apart_PORT_CTL hp (by decide) (by decide) (by decide))

theorem enterListen_ctl {b : Bool} : (enterListen p b).Spares (R.PORT_CTL p) := spares_own (enterListen_kinds p b) (apart_PORT_CTL hp (by decide) (by decide) (by decide))

theorem toListen_ctl {b : Bool} : (toListen p b).Spares (R.PORT_CTL p) := movePort_spares (stays_CTL hp) (enterListen_ctl hp)

theorem toDisabled_ctl : (toDisabled p).Spares (R.PORT_CTL p) := fun _ =>
  ⟨all_when_i (clearExcluded_ctl hp), movePort_spares (stays_CTL hp) (enterRest_ctl hp), spares_of (setPending_kinds p _) (stays_CTL hp).aside,
    spares_setF.2 (home_ne hp), fun _ => id, trivial⟩

/-- SLEEP writes CTL.admin = 0b01. -/
theorem sleepRest_admin : (sleepRest p).Ensures fun s => s.f (F.PORT_CTL_admin p) = 1 := leads_read fun _ _ _ =>
  ensures_later <| ensures_now setF_ensures <| leads_cons (maintains_when fun _ =>
    leads_cons (maintains_f (spares_of (setPending_kinds p _) (stays_CTL hp).aside)) <| leads_cons (maintains_f fun _ => id) leads_nil) leads_nil

theorem toSleep_admin {n : Nat} : (toSleep p n).Ensures fun s => s.f (F.PORT_CTL_admin p) = 1 := leads_read fun _ _ _ =>
  ensures_later <| ensures_now (fun _ hs _ => (f_movePort (stays_CTL hp) hs).trans (sleepRest_admin hp _ hs trivial)) <|
    leads_cons (maintains_f (setF_spares (stays_CTL hp).aside (lies_PORT_TC10_STAT (tb rfl)))) leads_nil

/-! The way out of FAULT. -/

/-- Where a port goes by CTL.admin. -/
def LeavesBy (p admin : Nat) (held : Bool) (u : State) : Prop :=
  (admin = 0 → u.pst p = stDisabled) ∧ (admin = 1 → u.pst p = stSleep) ∧ (2 ≤ admin → u.pst p = if held then stSleep else stListen)

omit hp in
/-- The move out of FAULT. -/
def faultExit (s : State) (p : Nat) : Prog :=
  match s.f (F.PORT_CTL_admin p) with
  | 0 => toDisabled p
  | 1 => toSleep p (s.f (F.PORT_TC10_STAT_last_sleep p))
  | _ => if s.heldByOrphan p then toSleep p 5 else toListen p false

omit hp in
theorem run_leaveFault (h : s.pst p = stFault) (hr : (s.port p).resetting = false) : run (leaveFault p) s = run (faultExit s p) s := by
  unfold leaveFault
  rw [run_read, run_when, if_pos (by simp [h, hr])]
  rfl

theorem leaveFault_leaves (hs : s.ok = true) (h : s.pst p = stFault) (hr : (s.port p).resetting = false) :
    LeavesBy p (s.f (F.PORT_CTL_admin p)) (s.heldByOrphan p) (run (leaveFault p) s) := by
  rw [run_leaveFault h hr, faultExit]
  generalize s.f (F.PORT_CTL_admin p) = a
  match a with
  | 0 => exact ⟨fun _ => toDisabled_pst hp s hs trivial, fun e => absurd e (by decide), fun e => absurd e (by decide)⟩
  | 1 => exact ⟨fun e => absurd e (by decide), fun _ => toSleep_pst hp s hs trivial, fun e => absurd e (by decide)⟩
  | n + 2 =>
    refine ⟨fun e => absurd e (by omega), fun e => absurd e (by omega), fun _ => ?_⟩
    cases s.heldByOrphan p
    · exact toListen_pst hp s hs trivial
    · exact toSleep_pst hp s hs trivial

theorem leaveFault_excluded : (leaveFault p).Maintains fun s => s.f (F.PORT_STATE_excluded p) = 0 := leads_read fun _ _ _ => maintains_when fun _ => by
  split
  · exact toDisabled_excluded hp
  · exact toSleep_excluded hp
  · split
    · exact toSleep_excluded hp
    · exact toListen_above hp (by decide)

end

/-! What the admission of a move looks at. -/

/-- The state of a port, its place in a cane and its PORTS record are as before. -/
structure SameFor (p : Nat) (s t : State) : Prop where
  state : t.reg (R.PORT_STATE p) = s.reg (R.PORT_STATE p)
  canes : ∀ k < 4, t.reg (R.CANE_CFG k) = s.reg (R.CANE_CFG k)
  mld : t.mld = s.mld

theorem SameFor.f (h : SameFor p s t) (hi lo : Nat) : t.f ⟨R.PORT_STATE p, hi, lo⟩ = s.f ⟨R.PORT_STATE p, hi, lo⟩ := congrArg (bits · hi lo) h.state

theorem SameFor.pst (h : SameFor p s t) : t.pst p = s.pst p := h.f 2 0

theorem SameFor.caneOf (h : SameFor p s t) (q : Nat) : t.caneOf q = s.caneOf q := caneOf_congr h.canes

theorem SameFor.portEnabled (h : SameFor p s t) (q : Nat) : t.portEnabled q = s.portEnabled q := by
  simp only [State.portEnabled, State.portByte, State.sec, h.mld]

theorem SameFor.heldByOrphan (h : SameFor p s t) : t.heldByOrphan p = s.heldByOrphan p := by
  have e : t.bit (F.PORT_STATE_orphan p) = s.bit (F.PORT_STATE_orphan p) := congrArg (· == 1) (h.f 12 12)
  simp only [State.heldByOrphan, e, State.macPort, h.caneOf, State.orphanSleep, State.portByte, State.sec, h.mld]

/-- A program that touches none of them, from its mask. -/
theorem sameFor_of {K : Nat} (hk : Prog.All (Act.among K) prog) (hst : prog.Spares (R.PORT_STATE p)) (hs : s.ok = true)
    (h62 : K.testBit 62 = false := by decide) (h63 : K.testBit 63 = false := by decide)
    (h326 : K.testBit 326 = false := by decide) (h11 : K.testBit 11 = false := by decide) : SameFor p s (run prog s) where
  state := run_reg_frame _ prog hst s (State.ok_regs_sorted hs)
  canes _ hk4 := run_reg_frame _ prog (spares_own hk (apart_CANE_CFG hk4 h62 h63 h326)) s (State.ok_regs_sorted hs)
  mld := run_mld_of hk h11

end Sys2Proof.Machine
end

section
/-!
SUPPORT. A write of CTL.admin: the loop and the anneal that it ends, and the move (R19, R132, R157, R199).
-/
set_option Elab.async false
namespace Sys2Proof.Machine

variable {p off a : Nat} {s t : State} {prog : Prog} {A : PortX → Prop}

/-! The loop and the anneal that end. -/

/-- What a port holds that neither a loop nor an anneal is about. -/
theorem endLoop_port {r : Nat} (hA : ∀ x w b l, A x → A { x with wait := w, loopHeld := b, loop := l }) : (endLoop p r).Maintains fun s => A (s.port p) :=
  leads_read fun _ _ _ => maintains_when fun _ => leads_cons setF_port <| leads_cons setF_port <|
    leads_cons (maintains_ifSome fun _ => maintains_port (K := 0x400) (tb rfl)) <|
    leads_cons (maintains_when fun _ => updPort_leads fun x h => hA x _ x.loopHeld x.loop h) <|
    leads_cons (updPort_leads fun x h => hA x x.wait _ _ h) leads_nil

theorem abortLoop_port (hA : ∀ x w b l, A x → A { x with wait := w, loopHeld := b, loop := l }) : (abortLoop p).Maintains fun s => A (s.port p) :=
  leads_read fun _ _ _ => leads_cons (maintains_port (loopCounted_kinds p) (by decide)) <| leads_cons (endLoop_port hA) <|
    leads_cons (maintains_when fun _ => leads_cons setF_port <| leads_cons setF_port <|
      leads_cons (maintains_ifSome fun _ => maintains_port (K := 0x400) (tb rfl)) leads_nil) leads_nil

theorem annealAbort_port (hA : ∀ x f b w, A x → A { x with fg := f, loopHeld := b, wait := w }) : (annealAbort p).Maintains fun s => A (s.port p) :=
  leads_read fun _ _ _ => leads_cons (maintains_when fun _ => leads_cons (updPort_leads fun x h => hA x _ _ _ h) <| leads_cons setF_port <|
      leads_cons setF_port <| leads_cons raise_port <| leads_cons (maintains_ifSome fun _ => maintains_port (K := 0x400) (tb rfl)) leads_nil) <|
    leads_cons (maintains_when fun _ => leads_cons setF_port <| leads_cons setF_port <|
      leads_cons (maintains_ifSome fun _ => maintains_port (K := 0x400) (tb rfl)) leads_nil) <|
    leads_cons (maintains_port (refreshBundleOf_kinds p) (by decide)) leads_nil

/-- What comes before the move: CTL.admin takes its value, a loop and an anneal end. -/
def adminTaken (p a : Nat) : Prog := block [setF (F.PORT_CTL_admin p) a, abortLoop p, annealAbort p]

theorem run_portAdminWrite : run (portAdminWrite p a) s = run (adminMove p a) (run (adminTaken p a) s) := rfl

/-- The kinds of its actions. -/
theorem adminTaken_kinds : Prog.All (Act.among 0x1c000000000008000000002500000000000000000000000004200000000000000000000000000000000000000000000200000750) (adminTaken p a) :=
  ⟨setF_kinds _ _ (lies_PORT_CTL (tb rfl)), (abortLoop_kinds p).sub, (annealAbort_kinds p).sub, trivial⟩

theorem adminTaken_same (hp : p < 64) (hs : s.ok = true) : SameFor p s (run (adminTaken p a) s) :=
  sameFor_of adminTaken_kinds (spares_own adminTaken_kinds (apart_PORT_STATE hp (by decide) (by decide) (by decide))) hs

theorem adminTaken_resetting {b : Bool} : (adminTaken p a).Maintains fun s => (s.port p).resetting = b :=
  leads_cons (setF_port (A := fun x => x.resetting = b)) <|
    leads_cons (abortLoop_port (A := fun x => x.resetting = b) fun _ _ _ _ h => h) <|
    leads_cons (annealAbort_port (A := fun x => x.resetting = b) fun _ _ _ _ h => h) leads_nil

theorem adminTaken_admin (hp : p < 64) (ha : a < 4) : (adminTaken p a).Ensures fun s => s.f (F.PORT_CTL_admin p) = a :=
  ensures_now (setF_ensures ha) <| leads_cons (maintains_f (spares_of (abortLoop_kinds p) (stays_CTL hp).aside)) <|
    leads_cons (maintains_f (spares_of (annealAbort_kinds p) (stays_CTL hp).aside)) leads_nil

theorem adminTaken_confined : (adminTaken p a).Confined p := ⟨setF_confined, abortLoop_confined, annealAbort_confined, trivial⟩

/-! The move, branch by branch (R132). -/

theorem run_adminMove_zero : run (adminMove p 0) s = run (toDisabled p) s := by
  unfold adminMove; rw [run_read, if_pos (by simp)]

theorem run_adminMove_sleep (he : s.portEnabled p = true) (h : s.pst p = stDisabled) :
    run (adminMove p 1) s = run (toSleep p (s.f (F.PORT_TC10_STAT_last_sleep p))) s := by
  unfold adminMove; rw [run_read, if_neg (by simp [he]), if_pos rfl, if_pos h]

/-- The way from DISABLED into service. -/
def intoService (s : State) (p : Nat) : Prog :=
  block [clearExcluded p, updPort p fun x => { x with returned := false }, if s.heldByOrphan p then toSleep p 5 else toListen p false]

theorem run_adminMove_service (ha : 2 ≤ a) (he : s.portEnabled p = true) (h : s.pst p = stDisabled) (hr : (s.port p).resetting = false) :
    run (adminMove p a) s = run (intoService s p) s := by
  unfold adminMove
  rw [run_read, if_neg (by simp [he]; omega), if_neg (by omega), if_pos h, hr]
  rfl

theorem intoService_pst (hp : p < 64) : (intoService s p).Ensures fun u => u.pst p = if s.heldByOrphan p then stSleep else stListen := by
  refine ensures_later <| ensures_later <| ensures_now ?_ leads_nil
  cases s.heldByOrphan p
  · exact toListen_pst hp
  · exact toSleep_pst hp

theorem intoService_ctl (hp : p < 64) (h : s.heldByOrphan p = false) : (intoService s p).Spares (R.PORT_CTL p) :=
  ⟨clearExcluded_ctl hp, fun _ => id, by rw [h]; exact toListen_ctl hp, trivial⟩

/-! The write. -/

theorem portAdminWrite_zero (hp : p < 64) : (portAdminWrite p 0).Ensures fun u => u.pst p = stDisabled ∧ u.f (F.PORT_CTL_admin p) = 0 := fun s hs _ => by
  have ht := run_ok (adminTaken p 0) s hs
  show State.pst (run (portAdminWrite p 0) s) p = _ ∧ State.f (run (portAdminWrite p 0) s) _ = _
  rw [run_portAdminWrite, run_adminMove_zero]
  exact ⟨toDisabled_pst hp _ ht trivial, maintains_f (toDisabled_ctl hp) _ ht (adminTaken_admin hp (by decide) s hs trivial)⟩

theorem portAdminWrite_sleep (hp : p < 64) (hs : s.ok = true) (he : s.portEnabled p = true) (h : s.pst p = stDisabled) :
    (run (portAdminWrite p 1) s).pst p = stSleep ∧ (run (portAdminWrite p 1) s).f (F.PORT_CTL_admin p) = 1 := by
  have hsame := adminTaken_same (a := 1) hp hs
  have ht := run_ok (adminTaken p 1) s hs
  rw [run_portAdminWrite, run_adminMove_sleep ((hsame.portEnabled p).trans he) (hsame.pst.trans h)]
  exact ⟨toSleep_pst hp _ ht trivial, toSleep_admin hp _ ht trivial⟩

theorem portAdminWrite_service (hp : p < 64) (hs : s.ok = true) (ha : 2 ≤ a) (ha4 : a < 4) (he : s.portEnabled p = true) (h : s.pst p = stDisabled)
    (hr : (s.port p).resetting = false) :
    (run (portAdminWrite p a) s).pst p = (if s.heldByOrphan p then stSleep else stListen) ∧
      (s.heldByOrphan p = false → (run (portAdminWrite p a) s).f (F.PORT_CTL_admin p) = a) := by
  have hsame := adminTaken_same (a := a) hp hs
  have ht := run_ok (adminTaken p a) s hs
  rw [run_portAdminWrite, run_adminMove_service ha ((hsame.portEnabled p).trans he) (hsame.pst.trans h) (adminTaken_resetting s hs hr)]
  refine ⟨hsame.heldByOrphan ▸ intoService_pst hp _ ht trivial, fun hh => ?_⟩
  exact maintains_f (intoService_ctl hp (hsame.heldByOrphan.trans hh)) _ ht (adminTaken_admin hp ha4 s hs trivial)

/-! The governor's check before it (R19, R115). -/

theorem portAdminAsk_let (h : 2 ≤ a → bitOf (s.wide R.MLD_GOV_TXEN 2) p = true) : run (portAdminAsk p a) s = run (portAdminWrite p a) s := by
  unfold portAdminAsk
  rw [run_read, if_neg]
  simp only [Bool.and_eq_true, decide_eq_true_eq, Bool.not_eq_true', not_and, Bool.not_eq_false]
  exact h

theorem portAdminAsk_clamped (ha : 2 ≤ a) (h : bitOf (s.wide R.MLD_GOV_TXEN 2) p = false) :
    run (portAdminAsk p a) s = run (portAdminWrite p 0) (run (governorClamp (R.PORT_CTL p) 1 p) s) := by
  unfold portAdminAsk
  rw [run_read, if_pos (by simp [ha, h])]
  rfl

theorem srcOf_port (hp : p < 64) : srcOf s (R.PORT_CTL p) = 0x40 + p := by
  have e : R.PORT_CTL p / 0x10000 = 0x100 + p := by
    have : R.PORT_CTL p = 0x1000000 + p * 0x10000 := if_pos hp
    omega
  unfold srcOf
  rw [e]
  interval_cases p <;> rfl

end Sys2Proof.Machine
end

section
/-!
PROOFS. O1, writes of CTL.admin, CTL.restart and the end of the flap guard's hold (R19, R129, R132, R141).
-/
set_option Elab.async false
namespace Sys2Proof.Machine

variable {p a : Nat} {s t : State}

/-! The other ports. -/

theorem keepPartner_confined : (keepPartner p).Confined p := confined_of (keepPartner_kinds p)

theorem comparePartner_confined : (comparePartner p).Confined p := fun _ => by
  refine ⟨?_, setReg_confined, setReg_confined, setWide_confined, all_when_i keepPartner_confined, trivial⟩
  split
  · exact raise_confined
  · exact all_when_i raise_confined

theorem lpiToUp_confined : (lpiToUp p).Confined p := fun _ => all_when_i ⟨setF_confined, comparePartner_confined, trivial⟩

section
variable (hc : s.caneOf p = none)
include hc

theorem startHandshake_apart : (startHandshake p).Maintains (Apart p s) := leads_read fun t _ ht => by
  rw [ht.caneOf, hc]
  refine maintains_each fun g hg => ?_
  obtain rfl := List.mem_singleton.1 hg
  exact leads_read fun _ _ _ => maintains_when fun _ => leads_cons lpiToUp_confined.apart <| leads_cons (Prog.Confined.apart setF_confined) <|
    leads_cons (Prog.Confined.apart setF_confined) <| leads_cons (Prog.Confined.apart setF_confined) <| leads_cons updPort_confined.apart <|
    leads_cons (Prog.Confined.apart trivial) <| leads_cons refreshBundleOf_confined.apart leads_nil

theorem exitSleep_apart : (exitSleep p).Maintains (Apart p s) := leads_read fun _ _ _ =>
  leads_cons (maintains_when fun _ => Prog.Confined.apart setF_confined) <| leads_cons clearExcluded_confined.apart <|
    leads_cons (toListen_apart hc) <| leads_cons setPending_confined.apart <| leads_cons (Prog.Confined.apart setF_confined) <|
    leads_cons updPort_confined.apart leads_nil

theorem tryLeave_apart : (tryLeave p).Maintains (Apart p s) := leads_read fun _ _ _ => maintains_when fun _ => by
  split
  · exact Prog.Confined.apart setF_confined
  split
  · exact leads_cons (Prog.Confined.apart setF_confined) <| leads_cons reclaimAsk_confined.apart leads_nil
  refine leads_cons reclaimAsk_confined.apart (leads_cons ?_ leads_nil)
  split
  · exact Prog.Confined.apart setF_confined
  · exact exitSleep_apart hc

theorem askLeave_apart {b : Bool} : (askLeave p b).Maintains (Apart p s) := leads_cons updPort_confined.apart (leads_cons (tryLeave_apart hc) leads_nil)

theorem adminMove_apart : (adminMove p a).Maintains (Apart p s) := leads_read fun t _ _ => by
  have upd : ∀ {g : PortX → PortX}, (updPort p g).Maintains (Apart p s) := updPort_confined.apart
  dsimp only
  split
  · exact toDisabled_apart hc
  split
  · split
    · exact toSleep_apart hc
    split
    · split
      · exact upd
      · exact startHandshake_apart hc
    split
    · exact leads_skip
    split
    · exact toSleep_apart hc
    · exact leads_skip
  split
  · refine maintains_when fun _ => leads_cons clearExcluded_confined.apart <| leads_cons upd <| leads_cons ?_ leads_nil
    split
    · exact toSleep_apart hc
    · exact toListen_apart hc
  split
  · exact askLeave_apart hc
  · exact upd

theorem portAdminWrite_apart : (portAdminWrite p a).Maintains (Apart p s) := fun t ht h =>
  adminMove_apart hc _ (run_ok (adminTaken p a) t ht) (adminTaken_confined.apart t ht h)

theorem portAdminAsk_apart : (portAdminAsk p a).Maintains (Apart p s) := leads_read fun _ _ _ => by
  split
  · exact leads_cons (Prog.Confined.apart fun _ => trivial) <| leads_cons (portAdminWrite_apart hc) leads_nil
  · exact portAdminWrite_apart hc

theorem portRestart_apart : (portRestart p).Maintains (Apart p s) := leads_read fun _ _ _ => by
  refine leads_cons clearExcluded_confined.apart (leads_cons ?_ leads_nil)
  split
  · exact leads_read fun _ _ _ => portDrop_apart hc
  split
  · exact toListen_apart hc
  · exact leads_cons flapRelease_confined.apart (leads_cons (leaveFault_apart hc) leads_nil)

theorem flapHoldExpire_apart : (flapHoldExpire p).Maintains (Apart p s) := leads_read fun _ _ _ => maintains_when fun _ =>
  leads_cons flapRelease_confined.apart (leads_cons (leaveFault_apart hc) leads_nil)

end

/-! A write of CTL.admin. -/

theorem portAdminAsk_disables (hp : p < 64) (hs : s.ok = true) (ha : a = 0) :
    (run (portAdminAsk p a) s).pst p = stDisabled ∧ (run (portAdminAsk p a) s).f (F.PORT_CTL_admin p) = 0 := by
  subst ha
  rw [portAdminAsk_let fun h => absurd h (by decide)]
  exact portAdminWrite_zero hp s hs trivial

theorem portAdminAsk_sleeps (hp : p < 64) (hs : s.ok = true) (ha : a = 1) (he : s.portEnabled p = true) (h : s.pst p = stDisabled) :
    (run (portAdminAsk p a) s).pst p = stSleep ∧ (run (portAdminAsk p a) s).f (F.PORT_CTL_admin p) = 1 := by
  subst ha
  rw [portAdminAsk_let fun h => absurd h (by decide)]
  exact portAdminWrite_sleep hp hs he h

theorem portAdminAsk_serves (hp : p < 64) (hs : s.ok = true) (ha4 : a < 4) (ha : 2 ≤ a) (hx : bitOf (s.wide R.MLD_GOV_TXEN 2) p = true)
    (he : s.portEnabled p = true) (h : s.pst p = stDisabled) (hr : (s.port p).resetting = false) :
    (run (portAdminAsk p a) s).pst p = (if s.heldByOrphan p then stSleep else stListen) ∧
      (s.heldByOrphan p = false → (run (portAdminAsk p a) s).f (F.PORT_CTL_admin p) = a) := by
  rw [portAdminAsk_let fun _ => hx]
  exact portAdminWrite_service hp hs ha ha4 he h hr

/-- A transmit enable outside the mask is clamped to 0 and reported (R19, R115). -/
theorem portAdminAsk_clamps (hp : p < 64) (hs : s.ok = true) (ha : 2 ≤ a) (h : bitOf (s.wide R.MLD_GOV_TXEN 2) p = false) :
    (run (portAdminAsk p a) s).pst p = stDisabled ∧ Raised ⟨0x40 + p, kGovernorClamp, 2, 1, p⟩ s (run (portAdminAsk p a) s) := by
  rw [portAdminAsk_clamped ha h]
  refine ⟨(portAdminWrite_zero hp _ (run_ok _ s hs) trivial).1, ?_⟩
  have hr : Raised ⟨srcOf s (R.PORT_CTL p), kGovernorClamp, 2, 1, p⟩ s (run (governorClamp (R.PORT_CTL p) 1 p) s) := raised_emit ..
  rw [srcOf_port hp] at hr
  exact hr.trans ((adds_of (portAdminWrite_kinds p 0) : (portAdminWrite p 0).Adds) _)

/-! A restart (R129, R132, R141). -/

theorem dropCore_above (hp : p < 64) {cause unc hi lo n : Nat} (hl : 9 < lo) : (dropCore p cause unc).Maintains fun s => s.f ⟨R.PORT_STATE p, hi, lo⟩ = n :=
  leads_read fun _ _ _ => by
    split
    · exact leads_cons (maintains_f fun _ => id) <| leads_cons (sleepRest_above hp hl) leads_nil
    refine leads_cons (maintains_f (dropRecord_state hp)) (leads_cons ?_ leads_nil)
    split
    · exact leads_cons (maintains_f (raise_event_state hp)) <| leads_cons (enterRest_above hp hl) leads_nil
    · exact enterListen_above hp hl

/-- A restart first clears the excluded modes; then the link drops, an attempt ends, or a hold in FAULT ends. -/
def restartFrom (s : State) (p : Nat) : Prog :=
  if s.linkUp p then portDropNow p 7
  else if s.pst p = stNegotiate ∨ s.pst p = stTrain then toListen p false
  else block [flapRelease p, leaveFault p]

theorem run_portRestart : run (portRestart p) s = run (restartFrom s p) (run (clearExcluded p) s) := rfl

theorem restartFrom_excluded (hp : p < 64) : (restartFrom s p).Maintains fun t => t.f (F.PORT_STATE_excluded p) = 0 := by
  unfold restartFrom
  split
  · exact leads_read fun _ _ _ => leads_read fun _ _ _ => maintains_when fun _ => movePort_above hp (dropCore_above hp (by decide))
  split
  · exact toListen_above hp (by decide)
  · exact leads_cons (maintains_f (spares_of (flapRelease_kinds p) (stays_STATE hp).aside)) <| leads_cons (leaveFault_excluded hp) leads_nil

theorem portRestart_excluded (hp : p < 64) (hs : s.ok = true) : (run (portRestart p) s).f (F.PORT_STATE_excluded p) = 0 :=
  restartFrom_excluded hp _ (run_ok (clearExcluded p) s hs) (clearExcluded_excluded s hs trivial)

theorem clearExcluded_pst (hs : s.ok = true) : (run (clearExcluded p) s).pst p = s.pst p := clearExcluded_state (.inl (by decide)) s hs rfl

theorem clearExcluded_port {A : PortX → Prop} (hA : ∀ x, A x → A { x with trainFails := [] }) : (clearExcluded p).Maintains fun s => A (s.port p) :=
  leads_cons setF_port (leads_cons (updPort_leads hA) leads_nil)

/-- An up link drops with cause RESTART, which the flap guard does not count. -/
theorem portRestart_drops (hp : p < 64) (hs : s.ok = true) (hup : s.linkUp p = true) (ha : s.awake p) :
    (run (portRestart p) s).pst p = stListen ∧ Raised ⟨0x40 + p, kLinkDrop, 0, 7, p⟩ s (run (portRestart p) s) := by
  have ht := run_ok (clearExcluded p) s hs
  have hpst := clearExcluded_pst (p := p) hs
  have hup' : (run (clearExcluded p) s).linkUp p = true := by rw [← hup]; simp only [State.linkUp, hpst]
  have ha' : (run (clearExcluded p) s).awake p :=
    clearExcluded_port (A := fun x => x.localSleep = false ∧ x.partnerSleep = false) (fun _ h => h) s hs ha
  obtain ⟨⟨-, hl⟩, hr, -⟩ := portDrop_dropped (cause := 7) (unc := (run (clearExcluded p) s).uncLast p) hp ht hup' ha'
  have e : run (portRestart p) s = run (portDrop p 7 ((run (clearExcluded p) s).uncLast p)) (run (clearExcluded p) s) := by
    rw [run_portRestart, restartFrom, if_pos hup, portDropNow, run_read]
  rw [e]
  have hf : (run (clearExcluded p) s).flapTrips p 7 = false := by simp [State.flapTrips]
  rw [hf] at hr
  exact ⟨hl rfl, .later ((adds_of (clearExcluded_kinds p) : (clearExcluded p).Adds) s) hr⟩

/-- An attempt ends in LISTEN. -/
theorem portRestart_ends (hp : p < 64) (hs : s.ok = true) (h : s.pst p = stNegotiate ∨ s.pst p = stTrain) : (run (portRestart p) s).pst p = stListen := by
  have hd : s.linkUp p = false := h.elim linkUp_eq_false linkUp_eq_false
  rw [run_portRestart, restartFrom, if_neg (by simp [hd]), if_pos h]
  exact toListen_pst hp _ (run_ok _ s hs) trivial

/-! The end of the flap guard's hold. -/

/-- What holds a port in FAULT. -/
def HeldBy (flap reset : Bool) (x : PortX) : Prop := x.flapHold = flap ∧ x.resetting = reset

variable {c d : Bool}

theorem updPort_heldBy {g : PortX → PortX} (h : ∀ x, HeldBy c d x → HeldBy c d (g x)) : (updPort p g).Maintains fun s => HeldBy c d (s.port p) := updPort_leads h

/-- A change of state from a state without a link keeps what holds the port. -/
theorem movePort_heldBy {n : Nat} (hn : n ≠ stUp ∧ n ≠ stLpi) {change : Prog} (hc : change.Maintains fun s => HeldBy c d (s.port p)) :
    (movePort p change).Leads (fun s => s.pst p = n ∧ HeldBy c d (s.port p)) fun s => HeldBy c d (s.port p) :=
  movePort_port (B := HeldBy c d) (fun _ h => linkUp_eq_false h.1 hn) (fun _ _ h => h) fun s hs h => hc s hs h.2

theorem enterListen_heldBy {b : Bool} : (enterListen p b).Maintains fun s => HeldBy c d (s.port p) :=
  enterListen_port (A := HeldBy c d) (B := HeldBy c d) fun _ h => h

theorem enterRest_heldBy {st : Nat} : (enterRest p st).Maintains fun s => HeldBy c d (s.port p) :=
  leads_cons setF_port <| leads_cons (maintains_port (setMode_kinds p 0 0)) <| leads_cons (maintains_port (qualIdle_kinds p)) <|
    leads_cons (updPort_heldBy fun _ h => h) <| leads_cons (maintains_when fun _ => raise_port) leads_nil

theorem setPending_heldBy {b : Bool} : (setPending p b).Maintains fun s => HeldBy c d (s.port p) := maintains_port (setPending_kinds p b) (by decide)

theorem sleepRest_heldBy : (sleepRest p).Maintains fun s => HeldBy c d (s.port p) := leads_read fun _ _ _ =>
  leads_cons enterRest_heldBy <| leads_cons setF_port <|
    leads_cons (maintains_when fun _ => leads_cons setPending_heldBy <| leads_cons (updPort_heldBy fun _ h => h) leads_nil) leads_nil

theorem toDisabled_heldBy {n : Nat} (hn : n ≠ stUp ∧ n ≠ stLpi ∧ n ≠ stSleep) :
    (toDisabled p).Leads (fun s => s.pst p = n ∧ HeldBy c d (s.port p)) fun s => HeldBy c d (s.port p) := leads_read fun _ _ hP =>
  leads_cons (maintains_when fun h => absurd (hP.1.symm.trans (beq_iff_eq.1 h)) hn.2.2) <|
    leads_cons (movePort_heldBy ⟨hn.1, hn.2.1⟩ enterRest_heldBy) <| leads_cons setPending_heldBy <| leads_cons setF_port <|
    leads_cons (updPort_heldBy fun _ h => h) leads_nil

theorem toSleep_heldBy {n m : Nat} (hn : n ≠ stUp ∧ n ≠ stLpi ∧ n ≠ stDisabled) :
    (toSleep p m).Leads (fun s => s.pst p = n ∧ HeldBy c d (s.port p)) fun s => HeldBy c d (s.port p) := leads_read fun _ _ hP =>
  leads_cons (maintains_when fun h => absurd (hP.1.symm.trans (beq_iff_eq.1 h)) hn.2.2) <|
    leads_cons (movePort_heldBy ⟨hn.1, hn.2.1⟩ sleepRest_heldBy) <| leads_cons setF_port leads_nil

theorem toListen_heldBy {n : Nat} {b : Bool} (hn : n ≠ stUp ∧ n ≠ stLpi) :
    (toListen p b).Leads (fun s => s.pst p = n ∧ HeldBy c d (s.port p)) fun s => HeldBy c d (s.port p) := movePort_heldBy hn enterListen_heldBy

/-- The way out of FAULT keeps what held the port there. -/
theorem leaveFault_heldBy (hs : s.ok = true) (h : s.pst p = stFault) (hr : (s.port p).resetting = false) (hh : HeldBy c d (s.port p)) :
    HeldBy c d ((run (leaveFault p) s).port p) := by
  rw [run_leaveFault h hr, faultExit]
  generalize s.f (F.PORT_CTL_admin p) = a
  match a with
  | 0 => exact toDisabled_heldBy (by decide) s hs ⟨h, hh⟩
  | 1 => exact toSleep_heldBy (by decide) s hs ⟨h, hh⟩
  | n + 2 =>
    cases s.heldByOrphan p
    · exact toListen_heldBy (by decide) s hs ⟨h, hh⟩
    · exact toSleep_heldBy (by decide) s hs ⟨h, hh⟩

/-- The hold ends and the port leaves FAULT (R132, R141). -/
theorem flapHoldExpire_leaves (hp : p < 64) (hs : s.ok = true) (hf : (s.port p).flapHold = true) (hr : (s.port p).resetting = false)
    (ht : s.f (F.PORT_TIMERS_flap_hold_s p) ≠ 0) (h : s.pst p = stFault) :
    ((run (flapHoldExpire p) s).port p).flapHold = false ∧ LeavesBy p (s.f (F.PORT_CTL_admin p)) (s.heldByOrphan p) (run (flapHoldExpire p) s) := by
  let u := run (updPort p fun x => { x with flapHold := false, dropTimes := [] }) s
  have hu : u.ok = true := run_ok _ s hs
  have hport : u.port p = { s.port p with flapHold := false, dropTimes := [] } := port_updPort hs
  have e : run (flapHoldExpire p) s = run (leaveFault p) u := by
    simp only [flapHoldExpire, flapRelease, run_read, run_when, run_block_cons, run_block_nil, hf, Bool.true_and, bne_iff_ne, ne_eq, ht, not_false_eq_true, if_true]
    rfl
  have hsame : SameFor p s u := ⟨rfl, fun _ _ => rfl, rfl⟩
  have hur : (u.port p).resetting = false := by rw [hport]; exact hr
  rw [e]
  refine ⟨(leaveFault_heldBy (c := false) (d := false) hu (hsame.pst.trans h) hur ⟨by rw [hport], hur⟩).1, ?_⟩
  rw [← hsame.heldByOrphan]
  exact leaveFault_leaves hp hu (hsame.pst.trans h) hur

end Sys2Proof.Machine
end

section
/-!
SUPPORT. The counters of a port, and the reset of a port: what it clears, where it leaves the port (R155, R159).
-/
set_option Elab.async false
namespace Sys2Proof.Machine

variable {p n a b v K : Nat} {s t : State} {prog : Prog}

/-! Values of two words of a port. -/

/-- A value of a port written leaves the port's other values. -/
theorem setWide_beside (hp : p < 64) (hab : a ≠ b ∧ a ≠ b + 4 ∧ a + 4 ≠ b := by decide) :
    (setWide (at1 a 0x10000 64 p) 2 v).Maintains fun s => s.wide (at1 b 0x10000 64 p) 2 = n := by
  obtain ⟨h1, h2, h3⟩ := hab
  have e : ∀ x, at1 x 0x10000 64 p = x + p * 0x10000 := fun x => if_pos hp
  exact maintains_wide (spares_setWide (by rw [e, e]; omega) (by rw [e, e]; omega)) (spares_setWide (by rw [e, e]; omega) (by rw [e, e]; omega))

/-- The values of a port at some offsets of its block are zeroed. -/
def zeroAll (p : Nat) (l : List Nat) : Prog := block (l.map fun a => setWide (at1 a 0x10000 64 p) 2 0)

/-- The counters of the MAC and the segment, by their offset in a port's block. -/
def macCounters : List Nat :=
  [0x1000130, 0x1000138, 0x1000140, 0x1000148, 0x1000150, 0x1000158, 0x1000160, 0x1000168, 0x1000170, 0x1000178]
def segCounters : List Nat := [0x1000410, 0x1000418, 0x1000420]

theorem zeroAll_beside (hp : p < 64) {l : List Nat} (h : ∀ a ∈ l, a ≠ b ∧ a ≠ b + 4 ∧ a + 4 ≠ b) :
    (zeroAll p l).Maintains fun s => s.wide (at1 b 0x10000 64 p) 2 = n := maintains_each fun a ha => setWide_beside hp (h a ha)

theorem zeroAll_zeroes (hp : p < 64) {l : List Nat} (hb : b ∈ l) (h : ∀ a ∈ l, a = b ∨ a ≠ b ∧ a ≠ b + 4 ∧ a + 4 ≠ b) :
    (zeroAll p l).Ensures fun s => s.wide (at1 b 0x10000 64 p) 2 = 0 :=
  ensures_each hb setWide_ensures_zero fun a ha => by
    rcases h a ha with rfl | hab
    · exact setWide_ensures_zero.leads
    · exact setWide_beside hp hab

theorem run_clearCounters : run (clearCounters p) s = run (when (decide (56 ≤ p)) (zeroAll p segCounters)) (run (zeroAll p macCounters) s) := rfl

/-- Every counter of the MAC is zero after a clear. -/
theorem clearCounters_zeroes (hp : p < 64) (hb : b ∈ macCounters) : (clearCounters p).Ensures fun s => s.wide (at1 b 0x10000 64 p) 2 = 0 := fun s hs _ => by
  show State.wide (run (clearCounters p) s) _ 2 = 0
  rw [run_clearCounters]
  refine maintains_when (fun _ => zeroAll_beside hp ?_) _ (run_ok _ s hs) (zeroAll_zeroes hp hb ?_ s hs trivial)
  · revert b; decide
  · revert b; decide

/-! The reset (R159). -/

theorem alone_PORT_RX_FRAMES : alone 324 = true := by decide +kernel
theorem alone_PORT_TX_BYTES : alone 332 = true := by decide +kernel

/-- What the reset of a port clears after the counters, and the start of its 50 µs. -/
def resetClears (p : Nat) : Prog :=
  block [resetReg (R.PORT_LPI_ENTRIES p), setWide (R.PORT_LPI_TIME p) 2 0, when (decide (56 ≤ p)) (censusClear p), setWide (R.PORT_FEC_CORR p) 2 0,
    setWide (R.PORT_FEC_UNCORR p) 2 0, clearPartner p, clearExcluded p,
    setF (F.PORT_STATE_fail_count p) 0, setF (F.PORT_LINK_QUAL_sqi_min p) 7, qualIdle p, loadModes p,
    setF (F.PORT_CTL_reset p) 1, updPort p fun x => { x with resetting := true, sqiArmed := true }]

/-- The change of state of a reset: the drop of a link that was up, then FAULT, but from DISABLED (R159). -/
def resetChange (s : State) (p : Nat) : Prog :=
  block [when (s.linkUp p) (dropRecord p 9 (s.uncLast p)), when (s.pst p != stDisabled) (enterRest p stFault)]

/-- The reset of a port, part after part. -/
def resetStages (s : State) (p : Nat) : Prog :=
  block [abortLoop p, annealAbort p, movePort p (resetChange s p), clearCounters p, resetClears p]

theorem run_portResetBegin (h : (s.port p).resetting = false) : run (portResetBegin p) s = run (resetStages s p) s := by
  unfold portResetBegin
  rw [run_read, run_when, h, Bool.not_false, if_pos rfl]
  rfl

/-- The kinds of what it clears. -/
theorem resetClears_kinds : Prog.All (Act.among 0xc2180100000323878000000000000000000000000000000000000000000000000000000000000000000000000000000000000000052) (resetClears p) :=
  ⟨resetReg_kinds _ (tb rfl) (tb rfl) (lies_PORT_LPI_ENTRIES (tb rfl)), setWide_kinds _ _ _ (lies_PORT_LPI_TIME_words (tb rfl) (le_refl _)),
    all_when_i (censusClear_kinds p).sub, setWide_kinds _ _ _ (lies_PORT_FEC_CORR_words (tb rfl) (le_refl _)),
    setWide_kinds _ _ _ (lies_PORT_FEC_UNCORR_words (tb rfl) (le_refl _)), (clearPartner_kinds p).sub, (clearExcluded_kinds p).sub,
    setF_kinds _ _ (lies_PORT_STATE (tb rfl)), setF_kinds _ _ (lies_PORT_LINK_QUAL (tb rfl)), (qualIdle_kinds p).sub, (loadModes_kinds p).sub,
    setF_kinds _ _ (lies_PORT_CTL (tb rfl)), fun _ => tb rfl, trivial⟩

/-- The counters of frames and bytes are in none of its tables. -/
theorem resetClears_frames (hp : p < 64) {w : Nat} (h4 : w % 4 = 0) (hw : w < 8) : (resetClears p).Spares (R.PORT_RX_FRAMES p + w) :=
  spares_own resetClears_kinds (not_lies_at1 (k := 324) (words := 2) alone_PORT_RX_FRAMES rfl hp h4 hw (by decide) (by decide) (by decide) (by decide) (by decide))

theorem resetClears_bytes (hp : p < 64) {w : Nat} (h4 : w % 4 = 0) (hw : w < 8) : (resetClears p).Spares (R.PORT_TX_BYTES p + w) :=
  spares_own resetClears_kinds (not_lies_at1 (k := 332) (words := 2) alone_PORT_TX_BYTES rfl hp h4 hw (by decide) (by decide) (by decide) (by decide) (by decide))

section
variable (hp : p < 64)
include hp

/-- Its parts that are about other words than the state. -/
theorem clearWide_state {o : Nat} (ho : o ≠ 0x1000004 ∧ o + 4 ≠ 0x1000004 := by decide) : (setWide (at1 o 0x10000 64 p) 2 v).Spares (R.PORT_STATE p) := by
  obtain ⟨h1, h2⟩ := ho
  have e : ∀ x, at1 x 0x10000 64 p = x + p * 0x10000 := fun x => if_pos hp
  exact spares_setWide (by rw [e, R.PORT_STATE, e]; omega) (by rw [e, R.PORT_STATE, e]; omega)

theorem resetClears_failCount : (resetClears p).Ensures fun s => s.f (F.PORT_STATE_fail_count p) = 0 := by
  have ha := (stays_STATE hp).aside
  refine ensures_later <| ensures_later <| ensures_later <| ensures_later <| ensures_later <| ensures_later <| ensures_later <|
    ensures_now setF_ensures <| leads_cons (maintains_f (spares_setF.2 (home_ne hp))) <| leads_cons (maintains_f (spares_of (qualIdle_kinds p) ha)) <|
    leads_cons (maintains_f (spares_of (loadModes_kinds p) ha)) <| leads_cons (maintains_f (setF_ctl_state hp)) <|
    leads_cons (maintains_f fun _ => id) leads_nil

theorem resetClears_pst : (resetClears p).Maintains fun s => s.pst p = n := by
  have ha := (stays_STATE hp).aside
  exact leads_cons (maintains_f ⟨home_ne hp, id, id, trivial⟩) <| leads_cons (maintains_f (clearWide_state hp)) <|
    leads_cons (maintains_when fun _ => maintains_f (spares_of (censusClear_kinds p) ha)) <| leads_cons (maintains_f (clearWide_state hp)) <|
    leads_cons (maintains_f (clearWide_state hp)) <| leads_cons (maintains_f (clearPartner_state hp)) <|
    leads_cons (clearExcluded_state (.inl (by decide))) <| leads_cons setF_beside <| leads_cons (maintains_f (spares_setF.2 (home_ne hp))) <|
    leads_cons (maintains_f (spares_of (qualIdle_kinds p) ha)) <| leads_cons (maintains_f (spares_of (loadModes_kinds p) ha)) <|
    leads_cons (maintains_f (setF_ctl_state hp)) <| leads_cons (maintains_f fun _ => id) leads_nil

omit hp in
theorem resetClears_resetBit : (resetClears p).Ensures fun s => s.f (F.PORT_CTL_reset p) = 1 := by
  refine ensures_later <| ensures_later <| ensures_later <| ensures_later <| ensures_later <| ensures_later <| ensures_later <|
    ensures_later <| ensures_later <| ensures_later <| ensures_later <| ensures_now setF_ensures <| leads_cons (maintains_f fun _ => id) leads_nil

/-- The state after the change: DISABLED stays, every other state is FAULT. -/
theorem resetChange_pst : (resetChange s p).Leads (fun t => t.pst p = s.pst p) fun t => t.pst p = if s.pst p = stDisabled then stDisabled else stFault := by
  refine leads_cons (maintains_when fun _ => maintains_f (dropRecord_state hp)) (leads_cons ?_ leads_nil)
  split
  next h => rw [h]; exact leads_skip
  next h => rw [bne_iff_ne.2 h]; exact (enterRest_pst hp (by decide)).leads

theorem resetStages_pst : (resetStages s p).Leads (fun t => t.pst p = s.pst p) fun t => t.pst p = if s.pst p = stDisabled then stDisabled else stFault := by
  have ha := (stays_STATE hp).aside
  exact leads_cons (maintains_f (spares_of (abortLoop_kinds p) ha)) <| leads_cons (maintains_f (spares_of (annealAbort_kinds p) ha)) <|
    leads_cons (fun t ht h => (f_movePort (stays_STATE hp) ht).trans (resetChange_pst hp t ht h)) <|
    leads_cons (maintains_f (spares_of (clearCounters_kinds p) ha)) <| leads_cons (resetClears_pst hp) leads_nil

end

/-- What a reset leaves of a port that was in none. -/
theorem portResetBegin_leaves (hp : p < 64) (hs : s.ok = true) (h : (s.port p).resetting = false) :
    (run (portResetBegin p) s).f (F.PORT_CTL_reset p) = 1 ∧ ((run (portResetBegin p) s).port p).resetting = true ∧
    (run (portResetBegin p) s).f (F.PORT_STATE_fail_count p) = 0 ∧ (run (portResetBegin p) s).wide (R.PORT_RX_FRAMES p) 2 = 0 ∧
    (run (portResetBegin p) s).wide (R.PORT_TX_BYTES p) 2 = 0 ∧
    (run (portResetBegin p) s).pst p = if s.pst p = stDisabled then stDisabled else stFault := by
  have hreset := portResetBegin_resets hs h
  rw [run_portResetBegin h] at hreset ⊢
  have last : ∀ {Q : State → Prop}, (resetClears p).Ensures Q → Q (run (resetStages s p) s) := fun hq =>
    (ensures_later <| ensures_later <| ensures_later <| ensures_later <| ensures_now hq leads_nil : (resetStages s p).Ensures _) s hs trivial
  have counter : ∀ {Q : State → Prop}, (clearCounters p).Ensures Q → (resetClears p).Maintains Q → Q (run (resetStages s p) s) := fun hq hk =>
    (ensures_later <| ensures_later <| ensures_later <| ensures_now hq <| leads_cons hk leads_nil : (resetStages s p).Ensures _) s hs trivial
  refine ⟨last resetClears_resetBit, hreset, last (resetClears_failCount hp), ?_, ?_, resetStages_pst hp s hs rfl⟩
  · exact counter (Q := fun t => t.wide (R.PORT_RX_FRAMES p) 2 = 0) (clearCounters_zeroes hp (by decide))
      (maintains_wide (resetClears_frames hp (w := 0) (by decide) (by decide)) (resetClears_frames hp (w := 4) (by decide) (by decide)))
  · exact counter (Q := fun t => t.wide (R.PORT_TX_BYTES p) 2 = 0) (clearCounters_zeroes hp (by decide))
      (maintains_wide (resetClears_bytes hp (w := 0) (by decide) (by decide)) (resetClears_bytes hp (w := 4) (by decide) (by decide)))

/-! The other ports. -/

theorem clearCounters_confined : (clearCounters p).Confined p :=
  ⟨setWide_confined, setWide_confined, setWide_confined, setWide_confined, setWide_confined, setWide_confined, setWide_confined, setWide_confined,
    setWide_confined, setWide_confined, all_when_i ⟨setWide_confined, setWide_confined, setWide_confined, trivial⟩, trivial⟩

theorem censusClear_confined : (censusClear p).Confined p :=
  ⟨all_each_i fun n => ownWord_at2 (w := 0), setReg_confined, setF_confined, updPort_confined, trivial⟩

theorem setActiveF_confined {hi lo v : Nat} (hb : 0x1000000 ≤ a ∧ a < 0x1010000 := by decide) : (setActiveF ⟨at1 a 0x10000 64 p, hi, lo⟩ v).Confined p := fun _ =>
  ⟨all_when_i trivial, all_when_i trivial, setF_confined hb, trivial⟩

theorem loadModes_confined : (loadModes p).Confined p := fun _ =>
  ⟨setActiveF_confined, setActiveF_confined, fun _ => trivial, fun _ => trivial, trivial⟩

theorem resetClears_confined : (resetClears p).Confined p :=
  ⟨⟨ownWord_home, trivial, trivial, trivial⟩, setWide_confined, all_when_i censusClear_confined, setWide_confined, setWide_confined,
    clearPartner_confined, clearExcluded_confined, setF_confined, setF_confined, qualIdle_confined, loadModes_confined, setF_confined,
    updPort_confined, trivial⟩

theorem resetChange_confined : (resetChange s p).Confined p :=
  ⟨all_when_i dropRecord_confined, all_when_i enterRest_confined, trivial⟩

theorem portResetBegin_apart {s : State} (hc : s.caneOf p = none) : (portResetBegin p).Maintains (Apart p s) := leads_read fun t _ _ => maintains_when fun _ =>
  leads_cons abortLoop_confined.apart <| leads_cons annealAbort_confined.apart <| leads_cons (movePort_apart hc (resetChange_confined (s := t)).apart) <|
    leads_cons clearCounters_confined.apart <| fun u hu ha => resetClears_confined.apart u hu ha

end Sys2Proof.Machine
end

section
/-!
SUPPORT. The end of a port's reset (R159), and what a block that applies late leaves of a port that has just left it (R358, R360, R365).
-/
set_option Elab.async false
namespace Sys2Proof.Machine

variable {p q K off : Nat} {s t : State} {prog : Prog} {A : PortX → Prop}

/-! A port at rest: what a late apply of its block leaves alone. -/

/-- The control and state words of a port and its reset are as before. -/
structure AtRest (p : Nat) (s t : State) : Prop where
  ctl : t.reg (R.PORT_CTL p) = s.reg (R.PORT_CTL p)
  state : t.reg (R.PORT_STATE p) = s.reg (R.PORT_STATE p)
  resetting : (t.port p).resetting = (s.port p).resetting

theorem AtRest.pst (h : AtRest p s t) : t.pst p = s.pst p := congrArg (bits · 2 0) h.state

theorem atRest_of (hc : prog.Spares (R.PORT_CTL p)) (hst : prog.Spares (R.PORT_STATE p)) (hr : ∀ b, prog.Maintains fun t => (t.port p).resetting = b) :
    prog.Maintains (AtRest p s) := fun t ht h =>
  ⟨(run_reg_frame _ prog hc t (State.ok_regs_sorted ht)).trans h.ctl, (run_reg_frame _ prog hst t (State.ok_regs_sorted ht)).trans h.state,
    (hr _ t ht rfl).trans h.resetting⟩

/-- A program whose mask has neither of the words, nor the ports. -/
theorem atRest_of_mask (hp : p < 64) (hk : Prog.All (Act.among K) prog) (h62 : K.testBit 62 = false := by decide) (h63 : K.testBit 63 = false := by decide)
    (hc : K.testBit 363 = false := by decide) (hst : K.testBit 364 = false := by decide) (h6 : K.testBit 6 = false := by decide) :
    prog.Maintains (AtRest p s) :=
  atRest_of (spares_own hk (apart_PORT_CTL hp h62 h63 hc)) (spares_own hk (apart_PORT_STATE hp h62 h63 hst))
    fun b => maintains_port (A := fun x => x.resetting = b) hk h6

/-- A change of what any port holds that keeps a fact about it. -/
theorem updPort_any {g : PortX → PortX} (h : ∀ x, A x → A (g x)) : (updPort q g).Maintains fun s => A (s.port p) := by
  by_cases e : q = p
  · exact e ▸ updPort_leads h
  · intro s hs ha
    have hne : (run (updPort q g) s).port p = s.port p := by
      simp only [run_updPort, State.port, apply_ports]
      exact SMap.getD_putD_ne _ (Ne.symm e) _ _ _ (ok_ports_sorted hs)
    show A ((run (updPort q g) s).port p)
    rw [hne]
    exact ha

theorem updPort_atRest {g : PortX → PortX} (h : ∀ x, (g x).resetting = x.resetting) : (updPort q g).Maintains (AtRest p s) :=
  atRest_of (fun _ => id) (fun _ => id) fun _ => updPort_any fun x hx => (h x).trans hx

section
variable (hp : p < 64)
include hp

theorem reclaimAsk_atRest : (reclaimAsk q).Maintains (AtRest p s) := leads_read fun _ _ _ => maintains_when fun _ => by
  split
  · exact updPort_atRest fun _ => rfl
  · exact leads_cons (updPort_atRest fun _ => rfl) <| leads_cons (maintains_each fun _ _ => atRest_of_mask hp (updFur_kinds _)) leads_nil

theorem lpiExitBegin_atRest : (lpiExitBegin q).Maintains (AtRest p s) := leads_read fun _ _ _ => maintains_each fun g _ => maintains_when fun _ =>
  leads_cons (atRest_of_mask (K := 0x20000000000000000000000000000000000000000000000000000000000000000000000000000000000000000000000000000000000) hp (setF_kinds _ _ (lies_PORT_LPI_STAT (tb rfl)))) <| leads_cons (updPort_atRest fun _ => rfl) <|
    leads_cons (atRest_of_mask hp (wakeSignal_kinds g)) <| leads_cons (reclaimAsk_atRest hp) <| leads_cons (atRest_of_mask hp (refreshBundleOf_kinds g)) leads_nil

theorem event_atRest {b : Nat} : (raise (R.PORT_EVENT p) b).Maintains (AtRest p s) :=
  atRest_of (spares_raise.2 (home_ne hp)) (raise_event_state hp) fun _ => raise_port (A := fun x => x.resetting = _)

theorem noMode_atRest : (noMode p).Maintains (AtRest p s) := leads_read fun _ _ _ => maintains_when fun _ =>
  leads_cons (event_atRest hp) <| leads_cons (updPort_atRest fun _ => rfl) leads_nil

/-- A change of mode fields does not move a port in DISABLED, SLEEP or LISTEN (R132, R136). -/
theorem modeCommitted_atRest (h : s.pst p ≤ stListen) : (modeCommitted p).Maintains (AtRest p s) := leads_read fun t _ ht => by
  have hpst : ¬ (stNegotiate ≤ t.pst p ∧ t.pst p ≤ stLpi) := fun e => absurd (ht.pst ▸ e.1) (by simp only [stNegotiate, stListen] at *; omega)
  refine leads_cons (event_atRest hp) <| leads_cons (atRest_of_mask hp (caneModeCommit_kinds p)) <| leads_cons (maintains_when fun _ =>
    leads_cons (updPort_atRest fun _ => rfl) <| leads_cons (maintains_when fun _ => noMode_atRest hp) leads_nil) <| leads_cons ?_ leads_nil
  rw [decide_eq_false hpst]
  exact leads_skip

theorem blockEffects_atRest (h : s.pst p ≤ stListen) {before : State} : (blockEffects p before).Maintains (AtRest p s) := leads_read fun _ _ _ => by
  rw [if_pos hp]
  exact leads_cons (maintains_when fun _ => modeCommitted_atRest hp h) <| leads_cons (maintains_when fun _ => lpiExitBegin_atRest hp) leads_nil

omit hp in
/-- The control and the state of a port hold no field that a commit sets. -/
theorem wsBits_rest : ∀ q : Fin 64, wsBits (R.PORT_CTL q) = 0 ∧ wsBits (R.PORT_STATE q) = 0 := by decide +kernel

omit hp in
theorem mergeWs_none {a b : Word} (h : wsBits off = 0) : mergeWs off a b = a := by
  unfold mergeWs
  rw [h]
  show a &&& ~~~0#32 ||| b &&& 0#32 = a
  rw [BitVec.and_zero, BitVec.or_zero, BitVec.not_zero, BitVec.and_allOnes]

omit hp in
/-- A word that is written back with the value it has. -/
theorem setReg_kept {o : Nat} {w : Word} (h : o = off → w = s.reg off) : (setReg o w).Maintains fun t => t.reg off = s.reg off := fun t ht e => by
  by_cases ho : o = off
  · subst ho
    exact (reg_apply_same _ _ t (State.ok_regs_sorted ht)).trans (h rfl)
  · exact (run_reg_frame off (setReg o w) ho t (State.ok_regs_sorted ht)).trans e

/-- The words of an undo shadow, written back. -/
theorem undone_atRest {o : Nat} {w : Word} (ht : AtRest p s t) : (setReg o (mergeWs o (t.reg o) w)).Maintains (AtRest p s) := fun u hu h => by
  obtain ⟨hc, hst⟩ := wsBits_rest ⟨p, hp⟩
  refine ⟨setReg_kept (fun e => ?_) u hu h.ctl, setReg_kept (fun e => ?_) u hu h.state, h.resetting⟩
  · rw [e, mergeWs_none hc, ht.ctl]
  · rw [e, mergeWs_none hst, ht.state]

theorem undoBlock_atRest (h : s.pst p ≤ stListen) : (undoBlock p).Maintains (AtRest p s) := leads_read fun t _ ht => maintains_when fun _ =>
  leads_cons (maintains_each fun _ _ _ _ h => ⟨h.ctl, h.state, h.resetting⟩) <|
    leads_cons (maintains_each fun e he => by
      obtain ⟨e', -, rfl⟩ := List.mem_map.1 he
      exact undone_atRest hp ht) <|
    leads_cons (fun _ _ h => ⟨h.ctl, h.state, h.resetting⟩) <| leads_cons (blockEffects_atRest hp h) leads_nil

theorem blkCommit_atRest {seq : Nat} {a b : Bool} : (blkCommit p seq a b).Maintains (AtRest p s) := by
  have e : ∀ x, at1 x 0x10000 64 p = x + p * 0x10000 := fun x => if_pos hp
  have ho : blkCommitOff (blockBase p) = 0x1000000 + p * 0x10000 + 0x7F08 := by rw [blkCommitOff, blockBase, if_pos hp]
  refine atRest_of ?_ ?_ fun _ _ _ h => h
  · show blkCommitOff (blockBase p) ≠ at1 0x1000000 0x10000 64 p
    rw [ho, e]; omega
  · show blkCommitOff (blockBase p) ≠ at1 0x1000004 0x10000 64 p
    rw [ho, e]; omega

/-- A late apply of the port's block with no commit to apply, a rollback at most, leaves a port at rest as it is. -/
theorem lateApply_atRest (hs : s.ok = true) (hl : s.pst p ≤ stListen) (hpend : s.commit.pend.get? p = none) : AtRest p s (run (lateApply p) s) := by
  have hroll : ∀ _ : Nat, (block [undoBlock p, updCommit fun x => { x with rolls := x.rolls.del p }]).Maintains (AtRest p s) := fun _ =>
    leads_cons (undoBlock_atRest hp hl) <| leads_cons (fun _ _ h => ⟨h.ctl, h.state, h.resetting⟩) leads_nil
  have hdone : ∀ n : Nat, (Prog.read fun t => when (t.commit.pend.get? p).isNone
      (block [blkCommit p n true false, raise R.GLB_EVENT 1, groupsCount p, blockClosed p])).Maintains (AtRest p s) := fun n =>
    leads_read fun _ _ _ => maintains_when fun _ => leads_cons (blkCommit_atRest hp) <|
      leads_cons (atRest_of_mask (K := 0x1000000000000000010) hp (raise_kinds _ _ (tb rfl) (lies_GLB_EVENT (tb rfl)))) <|
      leads_cons (atRest_of_mask hp (groupsCount_kinds p)) <| leads_cons (atRest_of_mask hp (blockClosed_kinds p)) leads_nil
  have h : (block [ifSome (s.commit.rolls.get? p) fun _ => block [undoBlock p, updCommit fun x => { x with rolls := x.rolls.del p }],
      ifSome (s.commit.pend.get? p) fun _ => pendingApply p,
      ifSome (s.commit.rolls.get? p) fun n => .read fun t => when (t.commit.pend.get? p).isNone
        (block [blkCommit p n true false, raise R.GLB_EVENT 1, groupsCount p, blockClosed p])]).Maintains (AtRest p s) := by
    rw [hpend]
    exact leads_cons (maintains_ifSome hroll) <| leads_cons leads_skip <| leads_cons (maintains_ifSome hdone) leads_nil
  have hself : AtRest p s s := ⟨rfl, rfl, rfl⟩
  unfold lateApply
  rw [run_read, run_when]
  split
  · simp only [hpend] at h ⊢
    exact h s hs hself
  · exact hself

end

end Sys2Proof.Machine
end

section
/-!
PROOFS. O1: a port reset ends; the obligation from its parts (R159, chapter 4).
-/
set_option Elab.async false
namespace Sys2Proof.Machine

variable {p : Nat} {s t : State}

/-! The end of a reset. -/

theorem sleepRest_resetBit (hp : p < 64) {n : Nat} : (sleepRest p).Maintains fun s => s.f (F.PORT_CTL_reset p) = n := leads_read fun _ _ _ =>
  leads_cons (maintains_f (enterRest_ctl hp)) <| leads_cons setF_beside <|
    leads_cons (maintains_when fun _ => leads_cons (maintains_f (spares_of (setPending_kinds p _) (stays_CTL hp).aside)) <|
      leads_cons (maintains_f fun _ => id) leads_nil) leads_nil

theorem toSleep_resetBit (hp : p < 64) {n m : Nat} : (toSleep p m).Maintains fun s => s.f (F.PORT_CTL_reset p) = n := leads_read fun _ _ _ =>
  leads_cons (maintains_when fun _ => maintains_f (clearExcluded_ctl hp)) <|
    leads_cons (fun s hs h => (f_movePort (stays_CTL hp) hs).trans (sleepRest_resetBit hp s hs h)) <|
    leads_cons (maintains_f (setF_spares (stays_CTL hp).aside (lies_PORT_TC10_STAT (tb rfl)))) leads_nil

theorem leaveFault_resetBit (hp : p < 64) {n : Nat} : (leaveFault p).Maintains fun s => s.f (F.PORT_CTL_reset p) = n :=
  leads_read fun _ _ _ => maintains_when fun _ => by
    split
    · exact maintains_f (toDisabled_ctl hp)
    · exact toSleep_resetBit hp
    · split
      · exact toSleep_resetBit hp
      · exact maintains_f (toListen_ctl hp)

/-- The state once the reset bit and the reset are over. -/
def resetOver (p : Nat) : Prog := block [setF (F.PORT_CTL_reset p) 0, updPort p fun x => { x with resetting := false }]

theorem run_portResetEnd (hr : (s.port p).resetting = true) (hf : (s.port p).flapHold = false) (h : s.pst p = stFault) :
    run (portResetEnd p) s = run (leaveFault p) (run (resetOver p) s) := by
  unfold portResetEnd
  simp only [run_read, run_when, run_block_cons, run_block_nil, hr, hf, h, if_true, Bool.not_false]
  rfl

/-- The port leaves FAULT as CTL.admin names, at rest. -/
theorem portResetEnd_leaves (hp : p < 64) (hs : s.ok = true) (hr : (s.port p).resetting = true) (hf : (s.port p).flapHold = false)
    (h : s.pst p = stFault) : ((run (portResetEnd p) s).port p).resetting = false ∧ (run (portResetEnd p) s).f (F.PORT_CTL_reset p) = 0 ∧
      LeavesBy p (s.f (F.PORT_CTL_admin p)) (s.heldByOrphan p) (run (portResetEnd p) s) := by
  rw [run_portResetEnd hr hf h]
  have hu := run_ok (resetOver p) s hs
  have hheld : HeldBy false false ((run (resetOver p) s).port p) :=
    (leads_cons (setF_port (A := fun x => x.flapHold = false)) <|
      leads_cons (updPort_leads (A := fun x => x.flapHold = false) (B := HeldBy false false) fun _ h => ⟨h, rfl⟩) leads_nil :
      (resetOver p).Leads (fun t => (t.port p).flapHold = false) fun t => HeldBy false false (t.port p)) s hs hf
  have hctl : (resetOver p).Spares (R.PORT_STATE p) := ⟨setF_ctl_state hp, fun _ => id, trivial⟩
  have hsame : SameFor p s (run (resetOver p) s) :=
    sameFor_of (K := 0x8000000000000000000000000000000000000000000000000000000000000000000000000000000000000000040)
      ⟨setF_kinds _ _ (lies_PORT_CTL (tb rfl)), (updPort_kinds p _).sub, trivial⟩ hctl hs
  have hadmin : (run (resetOver p) s).f (F.PORT_CTL_admin p) = s.f (F.PORT_CTL_admin p) :=
    (leads_cons setF_beside <| leads_cons (maintains_f fun _ => id) leads_nil : (resetOver p).Maintains fun t => t.f (F.PORT_CTL_admin p) = _) s hs rfl
  have hbit : (run (resetOver p) s).f (F.PORT_CTL_reset p) = 0 :=
    (ensures_now setF_ensures <| leads_cons (maintains_f fun _ => id) leads_nil : (resetOver p).Ensures fun t => t.f (F.PORT_CTL_reset p) = 0) s hs trivial
  have hpst := hsame.pst.trans h
  refine ⟨(leaveFault_heldBy (c := false) (d := false) hu hpst hheld.2 hheld).2, leaveFault_resetBit hp _ hu hbit, ?_⟩
  have hl := leaveFault_leaves hp hu hpst hheld.2
  rwa [hadmin, hsame.heldByOrphan] at hl

/-- A port that left FAULT is at rest. -/
theorem LeavesBy.atRest {admin : Nat} {held : Bool} (h : LeavesBy p admin held t) : t.pst p ≤ stListen := by
  obtain ⟨h0, h1, h2⟩ := h
  rcases (by omega : admin = 0 ∨ admin = 1 ∨ 2 ≤ admin) with e | e | e
  · rw [h0 e]; decide
  · rw [h1 e]; decide
  · rw [h2 e]; cases held <;> decide

/-- The end of the reset with the late apply that waited for it (R360). -/
def resetEndEdge (p : Nat) : Prog := block [portResetEnd p, outsideSafe (lateApply p)]

theorem resetEndEdge_leaves (hp : p < 64) (hs : s.ok = true) (hr : (s.port p).resetting = true) (hf : (s.port p).flapHold = false)
    (h : s.pst p = stFault) (hpend : s.commit.pend.get? p = none) :
    ((run (resetEndEdge p) s).port p).resetting = false ∧ (run (resetEndEdge p) s).f (F.PORT_CTL_reset p) = 0 ∧
      LeavesBy p (s.f (F.PORT_CTL_admin p)) (s.heldByOrphan p) (run (resetEndEdge p) s) := by
  obtain ⟨h1, h2, h3⟩ := portResetEnd_leaves hp hs hr hf h
  have hc : (run (portResetEnd p) s).commit.pend.get? p = none := by rw [run_commit_of (portResetEnd_kinds p) (by decide)]; exact hpend
  have hrest : AtRest p (run (portResetEnd p) s) (run (resetEndEdge p) s) := by
    show AtRest p _ (run (when (!(run (portResetEnd p) s).bit F.FLT_STAT_safe) (lateApply p)) (run (portResetEnd p) s))
    rw [run_when]
    split
    · exact lateApply_atRest hp (run_ok _ s hs) h3.atRest hc
    · exact ⟨rfl, rfl, rfl⟩
  refine ⟨hrest.resetting.trans h1, (congrArg (bits · 5 5) hrest.ctl).trans h2, ?_⟩
  obtain ⟨g0, g1, g2⟩ := h3
  exact ⟨fun e => hrest.pst.trans (g0 e), fun e => hrest.pst.trans (g1 e), fun e => hrest.pst.trans (g2 e)⟩

/-- The kinds of its actions. -/
theorem resetEndEdge_kinds : Prog.All (Act.among (0x220084300003CBF81800000409250000000000000000000000000C0000000000000000004040000000000000000000000003420037D0 ||| 0x220084380003CA381800000409250000000000000000000000000C00004000000010A40040400000000000000180C0000003400837D2)) (resetEndEdge p) :=
  ⟨(portResetEnd_kinds p).sub, fun _ => all_when_i (lateApply_kinds p).sub, trivial⟩

end Sys2Proof.Machine

namespace Sys2Proof.Proofs
open Sys2Proof Sys2Proof.Machine

/-- Settles O1: each write and each end of a hold is its program, whose parts say where the port goes; what goes with a link that ends
leaves the port's control, state and events alone. -/
theorem portAdminAndResets : Obligations.PortAdminAndResets := by
  refine ⟨fun path p admin s hs hg => ?_, fun path p s hs hg hl hpr => ?_, fun path p s hs hg hr => ?_, fun p s hs hr hf h _ hpend => ?_,
    fun p s hs hf hr ht h => ?_⟩
  · exact acts_wrote (fun _ => portAdminAsk p admin.toNat) hg rfl ⟨portAdminAsk_disables p.isLt hs, portAdminAsk_sleeps p.isLt hs,
      portAdminAsk_serves p.isLt hs admin.isLt, fun ha hx => portAdminAsk_clamps p.isLt hs ha hx,
      run_frame_of (portAdminAsk_kinds p _) hs _ _ (by decide) (by decide) (by decide) (by decide +kernel) (fun q => by cases q <;> decide),
      onlyPort_of portAdminAsk_apart hs⟩
  · exact acts_wrote (fun _ => portRestart p) hg rfl ⟨portRestart_excluded p.isLt hs, fun hup _ => portRestart_drops p.isLt hs hup ⟨hl, hpr⟩,
      fun h => portRestart_ends p.isLt hs h, frame_of_move (portRestart_kinds p) hs, onlyPort_of portRestart_apart hs⟩
  · obtain ⟨h1, h2, h3, h4, h5, h6⟩ := portResetBegin_leaves p.isLt hs hr
    exact acts_wrote (fun _ => portResetBegin p) hg rfl ⟨h1, h2, h3, h4, h5, fun _ => h6,
      run_frame_of (portResetBegin_kinds p) hs _ _ (by decide) (by decide) (by decide) (by decide +kernel) (fun q => by cases q <;> decide),
      onlyPort_of portResetBegin_apart hs⟩
  · obtain ⟨h1, h2, h3, h4, h5⟩ := resetEndEdge_leaves p.isLt hs hr hf h hpend
    exact acts_finish (resetEndEdge p) rfl ⟨h1, h2, h3, h4, h5, keeps_of resetEndEdge_kinds hs _⟩
  · obtain ⟨h1, h2, h3, h4⟩ := flapHoldExpire_leaves p.isLt hs hf hr ht h
    exact acts_finish (flapHoldExpire p) rfl ⟨h1, h2, h3, h4, frame_of_move (flapHoldExpire_kinds p) hs, onlyPort_of flapHoldExpire_apart hs⟩

end Sys2Proof.Proofs
end

section
/-!
SUPPORT. Training from stored coefficients that fails, the quality of a link, the counters of the MAC cleared (R140, R147 to R150, R155).
-/
set_option Elab.async false
namespace Sys2Proof.Machine

variable {p n margin k : Nat} {s t : State} {prog : Prog} {offs : List Nat}

/-! The words that small programs write. -/

theorem writes_setWide {o v : Nat} (h : o ∈ offs) (h4 : o + 4 ∈ offs) : (setWide o 2 v).Writes offs := ⟨h, h4, trivial⟩

theorem writes_addWide {o v : Nat} (h : o ∈ offs) (h4 : o + 4 ∈ offs) : (addWide o 2 v).Writes offs := fun _ => writes_setWide h h4

theorem writes_updPort {g : PortX → PortX} : (updPort p g).Writes offs := fun _ => trivial

/-! Stored coefficients (R140). -/

/-- Training goes on from the defaults. -/
def fromDefaults (s : State) (p : Nat) : Prog :=
  block [updPort p fun x => { x with fromStored := false, trainedTaps := if s.pmode p = 7 then some 0xFC0 else x.trainedTaps }, tapQueue p]

theorem run_trainStoredTimeout (h : s.pst p = stTrain) (hf : (s.port p).fromStored = true) :
    run (trainStoredTimeout p) s = run (fromDefaults s p) s := by
  unfold trainStoredTimeout
  simp only [run_read, run_when, h, hf, beq_self_eq_true, Bool.and_self, if_true]
  rfl

theorem tapQueue_port {A : PortX → Prop} (h : ∀ x v, A x → A { x with tapNext := v }) : (tapQueue p).Maintains fun s => A (s.port p) :=
  leads_read fun _ _ _ => maintains_when fun _ => updPort_leads fun x hx => h x _ hx

theorem fromDefaults_stored : (fromDefaults s p).Ensures fun u => (u.port p).fromStored = false :=
  ensures_now (updPort_ensures (B := fun x => x.fromStored = false) fun _ => rfl) <|
    leads_cons (tapQueue_port (A := fun x => x.fromStored = false) fun _ _ hx => hx) leads_nil

theorem fromDefaults_taps (h7 : s.pmode p = 7) : (fromDefaults s p).Ensures fun u => (u.port p).trainedTaps = some 0xFC0 :=
  ensures_now (updPort_ensures (B := fun x => x.trainedTaps = some 0xFC0) fun _ => if_pos h7) <|
    leads_cons (tapQueue_port (A := fun x => x.trainedTaps = some 0xFC0) fun _ _ hx => hx) leads_nil

theorem trainStoredTimeout_writes : (trainStoredTimeout p).Writes [] := fun _ =>
  all_when_i ⟨writes_updPort, fun _ => all_when_i writes_updPort, trivial⟩

/-! The quality of a link (R147 to R149). -/

theorem setQuality_writes (hq : R.PORT_LINK_QUAL p ∈ offs) (he : R.PORT_EVENT p ∈ offs) : (setQuality p margin).Writes offs := fun _ =>
  ⟨writes_setF.2 hq, writes_setF.2 hq, writes_setF.2 hq, all_when_i ⟨writes_raise.2 he, writes_updPort, trivial⟩, all_when_i writes_updPort, trivial⟩

/-- What the quality leaves alone. -/
theorem setQuality_spares {o : Nat} (hq : R.PORT_LINK_QUAL p ≠ o) (he : R.PORT_EVENT p ≠ o) : (setQuality p margin).Spares o := fun _ =>
  ⟨spares_setF.2 hq, spares_setF.2 hq, spares_setF.2 hq, all_when_i ⟨spares_raise.2 he, fun _ => id, trivial⟩, all_when_i fun _ => id, trivial⟩

theorem leads_append {P Q R : State → Prop} {l l' : List Prog} (h : (block l).Leads P R) (h' : (block l').Leads R Q) : (block (l ++ l')).Leads P Q := by
  induction l generalizing P with
  | nil => exact fun s hs hp => h' s hs (h s hs hp)
  | cons c l ih => exact leads_cons (R := fun t => R (run (block l) t)) h (ih fun _ _ ht => ht)

/-- A quality of a port as measured, with the least since. -/
structure Measured (p m old : Nat) (u : State) : Prop where
  margin : u.f (F.PORT_LINK_QUAL_mse_margin p) = m
  sqi : u.f (F.PORT_LINK_QUAL_sqi p) = sqiOf (signed 16 m)
  least : u.f (F.PORT_LINK_QUAL_sqi_min p) = min (sqiOf (signed 16 m)) old

theorem sqiOf_lt (m : Int) : sqiOf m < 8 := by
  unfold sqiOf
  split
  · decide
  · omega

theorem Measured.kept {m old : Nat} (h : prog.Spares (R.PORT_LINK_QUAL p)) : prog.Maintains (Measured p m old) := fun s hs hm =>
  ⟨maintains_f h s hs hm.margin, maintains_f h s hs hm.sqi, maintains_f h s hs hm.least⟩

section
variable (hp : p < 64)
include hp

/-- The three fields lie apart; the warning writes no other word of the port than its events. -/
theorem setQuality_measures {m old : Nat} (hm : m < 2 ^ 16) :
    (setQuality p m).Leads (fun s => s.f (F.PORT_LINK_QUAL_sqi_min p) = old) (Measured p m old) := leads_read fun s _ hold => by
  dsimp only
  rw [hold]
  have hq := sqiOf_lt (signed 16 m)
  have hword : (block [setF (F.PORT_LINK_QUAL_mse_margin p) m, setF (F.PORT_LINK_QUAL_sqi p) (sqiOf (signed 16 m)),
      setF (F.PORT_LINK_QUAL_sqi_min p) (min (sqiOf (signed 16 m)) old)]).Ensures (Measured p m old) := fun t ht _ =>
    ⟨(ensures_now (setF_ensures hm) <| leads_cons setF_beside <| leads_cons setF_beside leads_nil :
        (block [_, _, _]).Ensures fun t => t.f (F.PORT_LINK_QUAL_mse_margin p) = m) t ht trivial,
      (ensures_later <| ensures_now (setF_ensures hq) <| leads_cons setF_beside leads_nil :
        (block [_, _, _]).Ensures fun t => t.f (F.PORT_LINK_QUAL_sqi p) = _) t ht trivial,
      (ensures_later <| ensures_later <| ensures_now (setF_ensures (lt_of_le_of_lt (min_le_left _ _) hq)) leads_nil :
        (block [_, _, _]).Ensures fun t => t.f (F.PORT_LINK_QUAL_sqi_min p) = _) t ht trivial⟩
  have hrest : ∀ a b : Bool, (block [when a (block [raise (R.PORT_EVENT p) 4, updPort p fun x => { x with sqiArmed := false }]),
      when b (updPort p fun x => { x with sqiArmed := true })]).Maintains (Measured p m old) := fun _ _ =>
    .kept ⟨all_when_i ⟨spares_raise.2 (home_ne hp), fun _ => id, trivial⟩, all_when_i fun _ => id, trivial⟩
  exact leads_append (l := [_, _, _]) hword.leads (hrest _ _)

/-! The interval (R147, R150). -/

/-- What an interval does to a port that is up. -/
def intervalTaken (s : State) (p margin corr uncorr : Nat) : Prog :=
  block [setQuality p margin,
    when (s.pmode p != 1) (block [addWide (R.PORT_FEC_CORR p) 2 corr, addWide (R.PORT_FEC_UNCORR p) 2 uncorr,
      updPort p fun x => { x with unc := (s.now, uncorr) :: x.unc.filter fun e => decide (s.now < e.1 + 1000000) }])]

omit hp in
theorem run_linkQualInterval {c u : Nat} (h : s.linkUp p = true) (hl : portClass p ≠ .segment) :
    run (linkQualInterval p margin c u) s = run (intervalTaken s p margin c u) s := by
  unfold linkQualInterval
  simp only [run_read, run_when, h, hl, ne_eq, not_false_eq_true, decide_true, Bool.and_self, if_true]
  rfl

theorem addWide_quality {o : Nat} (ho : o ≠ 0x1000060 ∧ o + 4 ≠ 0x1000060 := by decide) :
    (addWide (at1 o 0x10000 64 p) 2 k).Spares (R.PORT_LINK_QUAL p) := fun _ => by
  obtain ⟨h1, h2⟩ := ho
  have e : ∀ x, at1 x 0x10000 64 p = x + p * 0x10000 := fun x => if_pos hp
  exact spares_setWide (by rw [e, R.PORT_LINK_QUAL, e]; omega) (by rw [e, R.PORT_LINK_QUAL, e]; omega)

theorem addWide_beside {a b : Nat} (hab : a ≠ b ∧ a ≠ b + 4 ∧ a + 4 ≠ b := by decide) :
    (addWide (at1 a 0x10000 64 p) 2 k).Maintains fun s => s.wide (at1 b 0x10000 64 p) 2 = n := leads_read fun _ _ _ => setWide_beside hp hab

theorem setQuality_wide {m b : Nat} (hb : b ≠ 0x1000060 ∧ b + 4 ≠ 0x1000060 ∧ b ≠ 0x1000110 ∧ b + 4 ≠ 0x1000110 := by decide) :
    (setQuality p m).Maintains fun s => s.wide (at1 b 0x10000 64 p) 2 = n := by
  obtain ⟨h1, h2, h3, h4⟩ := hb
  have e : ∀ x, at1 x 0x10000 64 p = x + p * 0x10000 := fun x => if_pos hp
  exact maintains_wide (setQuality_spares (by rw [e, R.PORT_LINK_QUAL, e]; omega) (by rw [e, R.PORT_EVENT, e]; omega))
    (setQuality_spares (by rw [e, R.PORT_LINK_QUAL, e]; omega) (by rw [e, R.PORT_EVENT, e]; omega))

variable {corr uncorr : Nat}

theorem intervalTaken_measures (hm : margin < 2 ^ 16) :
    (intervalTaken s p margin corr uncorr).Leads (fun t => t.f (F.PORT_LINK_QUAL_sqi_min p) = n) (Measured p margin n) :=
  leads_cons (setQuality_measures hp hm) <| leads_cons (Measured.kept (all_when_i ⟨addWide_quality hp, addWide_quality hp, fun _ => id, trivial⟩)) leads_nil

theorem intervalTaken_corrected (h : s.pmode p ≠ 1) : (intervalTaken s p margin corr uncorr).Leads (fun t => t.wide (R.PORT_FEC_CORR p) 2 = n)
    fun t => t.wide (R.PORT_FEC_CORR p) 2 = (n + corr) % 2 ^ 64 :=
  leads_cons (setQuality_wide hp) <| leads_cons (by
    rw [bne_iff_ne.2 h]
    exact leads_cons addWide_leads <| leads_cons (addWide_beside hp) <| leads_cons (maintains_wide (fun _ => id) fun _ => id) leads_nil) leads_nil

theorem intervalTaken_uncorrected (h : s.pmode p ≠ 1) : (intervalTaken s p margin corr uncorr).Leads (fun t => t.wide (R.PORT_FEC_UNCORR p) 2 = n)
    fun t => t.wide (R.PORT_FEC_UNCORR p) 2 = (n + uncorr) % 2 ^ 64 :=
  leads_cons (setQuality_wide hp) <| leads_cons (by
    rw [bne_iff_ne.2 h]
    exact leads_cons (addWide_beside hp) <| leads_cons addWide_leads <| leads_cons (maintains_wide (fun _ => id) fun _ => id) leads_nil) leads_nil

/-- In mode 1 there is no FEC to count. -/
theorem intervalTaken_uncounted (h : s.pmode p = 1) : (intervalTaken s p margin corr uncorr).Maintains fun t => t.wide (R.PORT_FEC_CORR p) 2 = n :=
  leads_cons (setQuality_wide hp) <| leads_cons (by rw [h]; exact leads_skip) leads_nil

end

theorem linkQualInterval_writes {c u : Nat} : (linkQualInterval p margin c u).Writes
    [R.PORT_LINK_QUAL p, R.PORT_FEC_CORR p, R.PORT_FEC_CORR p + 4, R.PORT_FEC_UNCORR p, R.PORT_FEC_UNCORR p + 4, R.PORT_EVENT p] := fun _ =>
  all_when_i ⟨setQuality_writes (by simp) (by simp), all_when_i ⟨writes_addWide (by simp) (by simp), writes_addWide (by simp) (by simp),
    writes_updPort, trivial⟩, trivial⟩

/-! The counters of the MAC (R155). -/

theorem clearCounters_writes : (clearCounters p).Writes
    [R.PORT_RX_FRAMES p, R.PORT_RX_FRAMES p + 4, R.PORT_RX_BYTES p, R.PORT_RX_BYTES p + 4, R.PORT_RX_FCS_ERR p, R.PORT_RX_FCS_ERR p + 4,
     R.PORT_RX_RUNT p, R.PORT_RX_RUNT p + 4, R.PORT_RX_OVERSIZE p, R.PORT_RX_OVERSIZE p + 4, R.PORT_RX_ORPHAN_DROP p, R.PORT_RX_ORPHAN_DROP p + 4,
     R.PORT_RX_PAUSE p, R.PORT_RX_PAUSE p + 4, R.PORT_TX_FRAMES p, R.PORT_TX_FRAMES p + 4, R.PORT_TX_BYTES p, R.PORT_TX_BYTES p + 4,
     R.PORT_TX_OVERSIZE p, R.PORT_TX_OVERSIZE p + 4, R.PORT_SEG_COLL p, R.PORT_SEG_COLL p + 4, R.PORT_SEG_LATE p, R.PORT_SEG_LATE p + 4,
     R.PORT_SEG_EXCESS p, R.PORT_SEG_EXCESS p + 4] := by
  refine ⟨writes_setWide ?_ ?_, writes_setWide ?_ ?_, writes_setWide ?_ ?_, writes_setWide ?_ ?_, writes_setWide ?_ ?_, writes_setWide ?_ ?_,
    writes_setWide ?_ ?_, writes_setWide ?_ ?_, writes_setWide ?_ ?_, writes_setWide ?_ ?_,
    all_when_i ⟨writes_setWide ?_ ?_, writes_setWide ?_ ?_, writes_setWide ?_ ?_, trivial⟩, trivial⟩
  all_goals simp only [List.mem_cons, true_or, or_true]

end Sys2Proof.Machine
end

section
/-!
SUPPORT. A frame that the MAC of a port in no cane receives whole: what counts it (R150, R151, R156, R157).
-/
set_option Elab.async false
namespace Sys2Proof.Machine

variable {p n b K : Nat} {s t : State} {f : MacFrame} {prog : Prog}

/-- A port that takes frames: it is a trunk or a branch in no cane, its MAC is up and no near-end loop takes the frame. -/
structure Takes (s : State) (p : Nat) (f : MacFrame) : Prop where
  line : portClass p ≠ .segment
  alone : s.caneOf p = none
  up : s.macUp p = true
  unlooped : (s.port p).loop ≠ 3
  whole : f.cut = false

/-- What such a port does with a frame, in the order of the checks, where the sum fits (R151, R157). -/
def frameTaken (s : State) (p : Nat) (f : MacFrame) : Prog :=
  if f.bytes.length + 4 < 64 then addWide (R.PORT_RX_RUNT p) 2 1
  else if s.f (F.PORT_MAC_CFG_max_len p) < f.bytes.length + 4 then addWide (R.PORT_RX_OVERSIZE p) 2 1
  else if s.bit (F.PORT_STATE_orphan p) then
    (if s.isProto p (beAt f.bytes (frameTag (s.bit (F.PORT_MAC_CFG_stag_en p)) f.bytes).1) then send (.toGaffer p f.bytes)
      else addWide (R.PORT_RX_ORPHAN_DROP p) 2 1)
  else deliver p f stOk

theorem run_when_false {c : Bool} {q : Prog} (h : c = false) : run (when c q) s = s := by rw [h]; rfl

/-- The carrier wakes segments only. -/
theorem run_carrierWake (h : portClass p ≠ .segment) : run (carrierWake p) s = s := by
  unfold carrierWake
  rw [run_read]
  exact run_when_false (by simp [h])

theorem Takes.run_received (h : Takes s p f) (hk : f.bytes.length + 4 < 64 ∨ s.f (F.PORT_MAC_CFG_max_len p) < f.bytes.length + 4 ∨ f.fcsOk = true) :
    run (macFrameReceive p f) s = run (frameTaken s p f) s := by
  obtain ⟨hl, hc, hu, hlp, hw⟩ := h
  have hm : s.macPort p = p := by simp [State.macPort, hc]
  unfold macFrameReceive frameTaken
  simp only [run_read, if_neg hlp, hm, hu, hw, hc, hl, beq_self_eq_true, Bool.and_self, run_when, if_true, decide_false, run_block_cons,
    run_block_nil, Bool.false_eq_true, if_false, Bool.false_and, Bool.or_false]
  split_ifs <;> simp_all

/-! A frame delivered (R150). -/

theorem alone_PORT_RX_BYTES : alone 325 = true := by decide +kernel

/-- The counts of frames and bytes received. -/
def Counted (p frames bytes : Nat) (s : State) : Prop := s.wide (R.PORT_RX_FRAMES p) 2 = frames ∧ s.wide (R.PORT_RX_BYTES p) 2 = bytes

/-- A program of other tables keeps them. -/
theorem counted_of {frames bytes : Nat} (hp : p < 64) (hk : Prog.All (Act.among K) prog) (h62 : K.testBit 62 = false := by decide)
    (h63 : K.testBit 63 = false := by decide) (hf : K.testBit 388 = false := by decide) (hb : K.testBit 389 = false := by decide) :
    prog.Maintains (Counted p frames bytes) := by
  have hF : ∀ w, w % 4 = 0 → w < 8 → prog.Spares (R.PORT_RX_FRAMES p + w) := fun w h4 hw => spares_own hk
    (not_lies_at1 (k := 324) (words := 2) alone_PORT_RX_FRAMES rfl hp h4 hw (by decide) (by decide) h62 h63 hf)
  have hB : ∀ w, w % 4 = 0 → w < 8 → prog.Spares (R.PORT_RX_BYTES p + w) := fun w h4 hw => spares_own hk
    (not_lies_at1 (k := 325) (words := 2) alone_PORT_RX_BYTES rfl hp h4 hw (by decide) (by decide) h62 h63 hb)
  exact fun s hs h => ⟨maintains_wide (hF 0 (by decide) (by decide)) (hF 4 (by decide) (by decide)) s hs h.1,
    maintains_wide (hB 0 (by decide) (by decide)) (hB 4 (by decide) (by decide)) s hs h.2⟩

/-- The way to a ring touches neither count. -/
theorem deliver_counts {frames bytes status : Nat} (hp : p < 64) : (deliver p f status).Leads (Counted p frames bytes)
    (Counted p ((frames + 1) % 2 ^ 64) ((bytes + (f.bytes.length + 4)) % 2 ^ 64)) := leads_read fun s _ _ => by
  refine leads_cons (R := Counted p ((frames + 1) % 2 ^ 64) bytes) (fun t ht h => ⟨addWide_leads t ht h.1, addWide_beside hp (by decide) t ht h.2⟩) <|
    leads_cons (R := Counted p ((frames + 1) % 2 ^ 64) ((bytes + (f.bytes.length + 4)) % 2 ^ 64))
      (fun t ht h => ⟨addWide_beside hp (by decide) t ht h.1, addWide_leads t ht h.2⟩) <|
    leads_cons (maintains_when fun _ => fun t ht h => ⟨addWide_beside hp (by decide) t ht h.1, addWide_beside hp (by decide) t ht h.2⟩) <|
    leads_cons (maintains_when fun _ => counted_of hp (send_kinds _)) <| leads_cons (maintains_when fun _ => ?_) leads_nil
  split
  · exact leads_cons (counted_of (K := 0x100000000000000000000000000000000000000000000000000000000000000000000000000) hp (satAdd_kinds _ _ (lies_PKT_CLS_HIT (tb rfl)))) <|
      leads_cons (maintains_when fun _ => counted_of hp (toRing_kinds _ _ _ _ _)) leads_nil
  · refine maintains_when fun _ => ?_
    split
    · exact counted_of hp (toRing_kinds _ _ _ _ _)
    · exact leads_cons (counted_of (K := 0x80000000000000000000000000000000000000000000000000000000000000000000000000) hp (satAdd_kinds _ _ (lies_PKT_NOMATCH (tb rfl)))) <|
        leads_cons (counted_of (K := 0x10000000000000000000000000000000000000000000000000000000000000000000000010) hp (raise_kinds _ _ (tb rfl) (lies_PKT_EVENT (tb rfl)))) leads_nil

/-! The counts of a frame. -/

section
variable (h : Takes s p f) (hs : s.ok = true)
include h hs

theorem Takes.runt (hlen : f.bytes.length + 4 < 64) :
    (run (macFrameReceive p f) s).wide (R.PORT_RX_RUNT p) 2 = (s.wide (R.PORT_RX_RUNT p) 2 + 1) % 2 ^ 64 := by
  rw [h.run_received (.inl hlen), frameTaken, if_pos hlen]
  exact addWide_leads s hs rfl

theorem Takes.oversize (hlen : 64 ≤ f.bytes.length + 4) (hmax : s.f (F.PORT_MAC_CFG_max_len p) < f.bytes.length + 4) :
    (run (macFrameReceive p f) s).wide (R.PORT_RX_OVERSIZE p) 2 = (s.wide (R.PORT_RX_OVERSIZE p) 2 + 1) % 2 ^ 64 := by
  rw [h.run_received (.inr (.inl hmax)), frameTaken, if_neg (not_lt.2 hlen), if_pos hmax]
  exact addWide_leads s hs rfl

variable (hlen : 64 ≤ f.bytes.length + 4) (hmax : f.bytes.length + 4 ≤ s.f (F.PORT_MAC_CFG_max_len p)) (hfcs : f.fcsOk = true)
include hlen hmax hfcs

theorem Takes.orphaned (ho : s.bit (F.PORT_STATE_orphan p) = true) :
    if s.isProto p (beAt f.bytes (frameTag (s.bit (F.PORT_MAC_CFG_stag_en p)) f.bytes).1) then
      Sent (.toGaffer p f.bytes) s (run (macFrameReceive p f) s) ∧ (run (macFrameReceive p f) s).wide (R.PORT_RX_ORPHAN_DROP p) 2 = s.wide (R.PORT_RX_ORPHAN_DROP p) 2
    else (run (macFrameReceive p f) s).wide (R.PORT_RX_ORPHAN_DROP p) 2 = (s.wide (R.PORT_RX_ORPHAN_DROP p) 2 + 1) % 2 ^ 64 := by
  rw [h.run_received (.inr (.inr hfcs)), frameTaken, if_neg (not_lt.2 hlen), if_neg (not_lt.2 hmax), if_pos ho]
  by_cases hg : s.isProto p (beAt f.bytes (frameTag (s.bit (F.PORT_MAC_CFG_stag_en p)) f.bytes).1) = true
  · rw [if_pos hg, if_pos hg]
    exact ⟨sent_send _ _, maintains_wide spares_send spares_send s hs rfl⟩
  · rw [if_neg hg, if_neg hg]
    exact addWide_leads s hs rfl

theorem Takes.delivered (hp : p < 64) (ho : s.bit (F.PORT_STATE_orphan p) = false) :
    (run (macFrameReceive p f) s).wide (R.PORT_RX_FRAMES p) 2 = (s.wide (R.PORT_RX_FRAMES p) 2 + 1) % 2 ^ 64 ∧
      (run (macFrameReceive p f) s).wide (R.PORT_RX_BYTES p) 2 = (s.wide (R.PORT_RX_BYTES p) 2 + f.bytes.length + 4) % 2 ^ 64 := by
  rw [h.run_received (.inr (.inr hfcs)), frameTaken, if_neg (not_lt.2 hlen), if_neg (not_lt.2 hmax), if_neg (by simp [ho]), Nat.add_assoc _ f.bytes.length 4]
  exact deliver_counts hp s hs ⟨rfl, rfl⟩

end

end Sys2Proof.Machine
end

section
/-!
SUPPORT. The words that a training writes which converges: those of the calibration, of the shelf and of the port's own block
(R145, R147, R261, R265, R300, R304).
-/
set_option Elab.async false
namespace Sys2Proof.Machine

variable {p : Nat} {s t : State} {prog : Prog} {offs : List Nat}

/-- The words that the end of a training writes, those of the bundles and canes aside. -/
def trainWords (p : Nat) : List Nat :=
  [R.CAL_ATTIC_CTL, R.CAL_REJECTS, R.CAL_EVENT, R.CAL_PORT_STAT p, R.CAL_PORT_QUAL p, R.CAL_PORT_TIME p, R.DIAG_EVENT, R.DIAG_IL p,
   R.DIAG_FP_STAT p, R.DIAG_FP_CTL p, R.PORT_STATE p, R.PORT_PARTNER_FLAGS p, R.PORT_PARTNER_REF_ABIL p, R.PORT_PARTNER_REF_FLAGS p,
   R.PORT_PARTNER_REF_ID p, R.PORT_PARTNER_REF_ID p + 4, R.PORT_LINK_QUAL p, R.PORT_EVENT p, R.PORT_AM_STAT p, R.PORT_TRK_EVENT p, R.PORT_LPI_STAT p]

/-- A program that writes no words but these. -/
abbrev Prog.Trains (p : Nat) (prog : Prog) : Prop := prog.Writes (trainWords p)

section
variable {o hi lo v b k n : Nat}

theorem setF_trains (h : o ∈ trainWords p := by simp [trainWords]) : (setF ⟨o, hi, lo⟩ v).Trains p := writes_setF.2 h
theorem raise_trains (h : o ∈ trainWords p := by simp [trainWords]) : (raise o b).Trains p := writes_raise.2 h
theorem satAdd_trains (h : o ∈ trainWords p := by simp [trainWords]) : (satAdd ⟨o, hi, lo⟩ k).Trains p := fun _ _ => h
theorem setFBit_trains {c : Bool} (h : o ∈ trainWords p := by simp [trainWords]) : (setFBit ⟨o, hi, lo⟩ n c).Trains p := fun _ => h
theorem updCal_trains {g : CalX → CalX} : (updCal g).Trains p := fun _ => trivial
theorem updDiag_trains {g : DiagX → DiagX} : (updDiag g).Trains p := fun _ => trivial
theorem withFree_trains {k : Word → Prog} (h : ∀ w, (k w).Trains p) : (withFree k).Trains p := fun _ => ⟨trivial, h _⟩

end

/-! Calibration. -/

theorem calRefresh_trains : (calRefresh p).Trains p := fun _ =>
  ⟨setF_trains, setF_trains, all_ifSome_i fun _ => setF_trains, all_when_i setF_trains, setF_trains, setF_trains, trivial⟩

theorem calReject_trains {c : CalSet} {i r : Nat} : (calReject p c i r).Trains p := ⟨writes_emit, satAdd_trains, raise_trains, trivial⟩

theorem calAge_trains {c : CalSet} {i r : Nat} : (calAge p c i r).Trains p := fun _ =>
  all_when_i ⟨updCal_trains, writes_emit, raise_trains, trivial⟩

theorem calAging_trains {c : CalSet} : (calAging p c).Trains p := by
  unfold calAging
  dsimp only
  split_ifs
  · exact all_each_i fun _ => all_when_i calAge_trains
  · exact all_when_i calAge_trains
  · exact all_each_i fun _ => all_when_i calAge_trains

theorem calPlace_trains {c : CalSet} : (calPlace p c).Trains p := fun _ => ⟨updCal_trains, calRefresh_trains, trivial⟩

theorem atticOccasion_trains : atticOccasion.Trains p := fun _ => all_when_i fun _ =>
  all_when_i ⟨setF_trains, updCal_trains, updCal_trains, trivial, trivial⟩

theorem atticAfterStruct_trains : atticAfterStruct.Trains p := fun _ => all_when_i atticOccasion_trains

theorem atticAfterAnneal_trains : atticAfterAnneal.Trains p := fun _ => all_when_i ⟨updCal_trains, atticOccasion_trains, trivial⟩

theorem calOffer_trains {ph : CalPhase} {r : Option (List Int)} {c : CalSet} : (calOffer p ph r c).Trains p := fun _ => all_when_i (by
  split
  · exact calReject_trains
  · exact ⟨all_when_i writes_emit, all_when_i updCal_trains, setF_trains, calAging_trains, calPlace_trains, all_when_i atticAfterStruct_trains, trivial⟩)

theorem trainSets_trains {m : Nat} {l : List CalSet} : (trainSets p m l).Trains p := fun _ =>
  ⟨all_each_i fun _ _ => by
    dsimp only
    split
    · exact calOffer_trains
    · exact all_when_i calOffer_trains, all_when_i setFBit_trains, updCal_trains, atticAfterAnneal_trains, trivial⟩

/-! The shelf. -/

theorem ilWrite_trains {loss limit : Nat} : (ilWrite p loss limit).Trains p := fun _ =>
  all_when_i ⟨setF_trains, setF_trains, setF_trains, all_when_i raise_trains, updDiag_trains, trivial⟩

theorem shelfFail_trains : shelfFail.Trains p := ⟨raise_trains, withFree_trains fun _ => withFree_trains fun _ => writes_emit, trivial⟩

theorem wearCheck_trains : (wearCheck p).Trains p := fun _ => all_when_i ⟨raise_trains, writes_emit, updDiag_trains, trivial⟩

theorem trendAppend_trains {corr rms source sqi margin bin : Nat} {change : Int} {ok : Bool} :
    (trendAppend p corr rms source sqi margin bin change ok).Trains p := fun _ => by
  dsimp only
  split
  · exact ⟨all_when_i trivial, trivial, updDiag_trains, wearCheck_trains, trivial⟩
  · exact shelfFail_trains

theorem fpCompare_trains {bins : List Int} {source sqi margin : Nat} {ok : Bool} {k : Nat → Prog} (hk : ∀ c, (k c).Trains p) :
    (fpCompare p bins source sqi margin ok k).Trains p := fun _ => by
  have go : ∀ a b c d : Nat, ∀ x y : Bool, ∀ q : Prog, q.Trains p → (block [setF (F.DIAG_FP_STAT_correlation p) a, setF (F.DIAG_FP_STAT_worst p) b,
      setF (F.DIAG_FP_STAT_match_ p) c, when x (raise R.DIAG_EVENT 2), when y q, k d]).Trains p := fun _ _ _ _ _ _ _ hq =>
    ⟨setF_trains, setF_trains, setF_trains, all_when_i raise_trains, all_when_i hq, hk _, trivial⟩
  dsimp only
  split
  · exact ⟨setF_trains, hk 0, trivial⟩
  · split
    · exact ⟨setF_trains, hk 0, trivial⟩
    · split
      · exact go _ _ _ _ _ _ _ trendAppend_trains
      · exact withFree_trains fun _ => go _ _ _ _ _ _ _ trendAppend_trains

theorem takeReference_trains {bins : List Int} {source mode : Nat} {ok : Bool} : (takeReference p bins source mode ok).Trains p := fun _ => by
  dsimp only
  split
  · exact ⟨trivial, trivial, updDiag_trains, setF_trains, setF_trains, trivial⟩
  · exact shelfFail_trains

theorem profileDone_trains {bins : List Int} {source mode sqi margin : Nat} {always ok : Bool} {k : Nat → Prog} (hk : ∀ c, (k c).Trains p) :
    (profileDone p bins source mode sqi margin always ok k).Trains p := fun _ =>
  ⟨fpCompare_trains hk, all_when_i takeReference_trains, trivial⟩

/-! The port. -/

theorem comparePartner_trains : (comparePartner p).Trains p := fun s => by
  refine ⟨?_, (by simp [trainWords] : R.PORT_PARTNER_REF_ABIL p ∈ trainWords p), (by simp [trainWords] : R.PORT_PARTNER_REF_FLAGS p ∈ trainWords p),
    writes_setWide (by simp [trainWords]) (by simp [trainWords]), all_when_i fun _ _ => trivial, trivial⟩
  split
  · exact raise_trains
  · exact all_when_i raise_trains

theorem setQuality_trains {m : Nat} : (setQuality p m).Trains p := setQuality_writes (by simp [trainWords]) (by simp [trainWords])

end Sys2Proof.Machine
end

section
/-!
SUPPORT. A training that converges: its program, and the words that it leaves alone where the port is in no cane (R132, R140, R145, R169).
-/
set_option Elab.async false
namespace Sys2Proof.Machine

variable {p m n K off : Nat} {s t : State} {prog : Prog} {d : TrainData}

/-! The program of a training that converges, stage by stage. -/

/-- The measurements: the sets, the insertion loss, the profile and its match. -/
def trainMeasured (s : State) (p m : Nat) (d : TrainData) : Prog :=
  block [trainSets p (s.pmode p) d.sets, ilWrite p d.loss d.limit,
    profileDone p d.profile 1 (s.pmode p) (sqiOf (signed 16 m)) m false d.shelfOk fun c => setF (F.PORT_PARTNER_FLAGS_fp_match p) c]

/-- UP, with the failures forgotten, the taps and the pots in force, the event. -/
def trainEntered (s : State) (p : Nat) : Prog :=
  block [setF (F.PORT_STATE_state p) stUp, setF (F.PORT_STATE_fail_count p) 0,
    updPort p fun x => { x with trainFails := x.trainFails.del (s.pmode p), coeffMode := s.pmode p, unc := [] },
    when (decide (p < 8) && s.pmode p == 7) (updFur fun x => { x with taps := x.taps.put p ((s.port p).trainedTaps.getD 0xFC0) }),
    writeRecord p (s.pmode p) ((s.usable p).map (·.1)), raise (R.PORT_EVENT p) 0]

/-- What goes with a link that is up. -/
def trainSettled (s : State) (p : Nat) : Prog :=
  block [when (decide (p < 8) && s.pmode p == 7 && (s.port p).tapLimit) (raise (R.PORT_TRK_EVENT p) 2),
    .read fun t => block [
      setF (F.PORT_LPI_STAT_partner_eee p) (b2n (if s.pmode p = 7 then t.bit (F.PORT_X50_STAT_p_quick_refresh p) else (t.port p).partnerEee)),
      setF (F.PORT_LPI_STAT_quick p) (b2n (s.pmode p == 7 && t.lpiAgreed p))],
    tapQueue p, caneEnteredUp p, refreshNear p]

def trainStages (s : State) (p m : Nat) (d : TrainData) : Prog :=
  block [trainMeasured s p m d, trainEntered s p, comparePartner p, setQuality p m, trainSettled s p]

/-- A training whose measure is good enough, of a port in no cane. -/
structure Converges (s : State) (p m : Nat) : Prop where
  trains : s.pst p = stTrain
  alone : s.caneOf p = none
  switched : s.pmode p = 7 → (s.port p).pam6 = true
  good : s.f (F.PORT_QUAL_CFG_sqi_drop p) ≤ sqiOf (signed 16 m)

theorem run_grouped {a b c e f g h i j k l q r u v w : Prog} : run (block [a, b, c, e, f, g, h, i, j, k, l, q, r, u, v, w]) s =
    run (block [block [a, b, c], block [e, f, g, h, i, j], k, l, block [q, r, u, v, w]]) s := rfl

theorem Converges.run_trainComplete (h : Converges s p m) : run (trainComplete p m d) s = run (trainStages s p m d) s := by
  obtain ⟨ht, hc, hw, hq⟩ := h
  have hsw : (s.pmode p != 7 || (s.port p).pam6) = true := by
    by_cases h7 : s.pmode p = 7
    · simp [hw h7]
    · simp [h7]
  unfold trainComplete
  rw [run_read]
  dsimp only
  rw [run_when, if_pos (by rw [hc, hsw, ht]; simp [hq])]
  exact run_grouped

/-! The words beside those of the training: the bundles and the canes, which a port in no cane leaves. -/

/-- The tables of the bundles and the canes. -/
def trainTables : List RegId := [.BND_STAT, .BND_EVENT, .BND_PAIR_STAT, .CANE_STAT, .CANE_SKEW_A, .CANE_SKEW_B, .CANE_EVENT]

/-- The bits of these tables in a mask, with the parts of the state that a bundle touches. -/
def trainMask : Nat := 0xf2500000000000000000000000000000000000000000000000000000000000000000000000000000310

/-- The words outside the training's own and outside these tables are as before. -/
def TrainOnly (p : Nat) (s t : State) : Prop := ∀ off, off ∉ trainWords p → ¬ lies off trainMask → t.reg off = s.reg off

theorem Prog.Trains.trainOnly (h : prog.Trains p) : prog.Maintains (TrainOnly p s) := fun _ ht hu off ho hl =>
  (run_reg_frame off prog (Prog.Writes.spares h ho) _ (State.ok_regs_sorted ht)).trans (hu off ho hl)

theorem trainOnly_of (h : Prog.All (Act.among trainMask) prog) : prog.Maintains (TrainOnly p s) := fun _ ht hu off ho hl =>
  (run_reg_of h (State.ok_regs_sorted ht) hl).trans (hu off ho hl)

/-- The training's own words lie in the converters' and the shelf's blocks or in the port's. -/
theorem trainWords_place (hp : p < 64) (h : off ∈ trainWords p) : off < 0x150000 ∨ 0x1000000 ≤ off := by
  have e : ∀ b st, at1 b st 64 p = b + p * st := fun b st => if_pos hp
  simp only [trainWords, List.mem_cons, List.not_mem_nil, or_false, R.CAL_ATTIC_CTL, R.CAL_REJECTS, R.CAL_EVENT, R.CAL_PORT_STAT, R.CAL_PORT_QUAL,
    R.CAL_PORT_TIME, R.DIAG_EVENT, R.DIAG_IL, R.DIAG_FP_STAT, R.DIAG_FP_CTL, R.PORT_STATE, R.PORT_PARTNER_FLAGS, R.PORT_PARTNER_REF_ABIL,
    R.PORT_PARTNER_REF_FLAGS, R.PORT_PARTNER_REF_ID, R.PORT_LINK_QUAL, R.PORT_EVENT, R.PORT_AM_STAT, R.PORT_TRK_EVENT, R.PORT_LPI_STAT, e] at h
  omega

theorem TrainOnly.caneOf (hp : p < 64) (h : TrainOnly p s t) (q : Nat) : t.caneOf q = s.caneOf q := caneOf_congr fun k hk =>
  h _ (fun hm => by
    have e : R.CANE_CFG k = 0x150000 + k * 0x100 := if_pos hk
    have := trainWords_place hp hm
    omega) (apart_CANE_CFG hk (by decide) (by decide) (by decide))

/-- A word outside the tables that a mask covers is not of the mask. -/
theorem not_lies_of_covers {ids : List RegId} (hoff : off < outside) (hno : ∀ r ∈ allRows, r.id ∈ ids → r.has off = false)
    (h62 : K.testBit 62 = false) (h63 : K.testBit 63 = false) (hc : covers ids K = true) : ¬ lies off K := by
  rintro (h | h | ⟨h, -⟩ | ⟨k, r, hk, hr, hh⟩)
  · omega
  · simp [h63] at h
  · simp [h62] at h
  · have hid := List.all_eq_true.1 hc (r.id, k) (List.mk_mem_zipIdx_iff_getElem?.2 (by simp [hr]))
    simp only [hk, Bool.not_true, Bool.false_or, decide_eq_true_eq] at hid
    simp [hno r (List.mem_of_getElem? hr) hid] at hh

theorem TrainOnly.onlyIn (h : TrainOnly p s t) : OnlyIn (trainWords p) trainTables s t := fun off hoff ho hno =>
  h off ho (not_lies_of_covers hoff hno (by decide) (by decide) (by decide +kernel))

theorem trainMeasured_trains : (trainMeasured s p m d).Trains p := ⟨trainSets_trains, ilWrite_trains, profileDone_trains fun _ => setF_trains, trivial⟩

theorem trainEntered_trains : (trainEntered s p).Trains p :=
  ⟨setF_trains, setF_trains, writes_updPort, all_when_i fun _ => trivial, fun _ => trivial, raise_trains, trivial⟩

theorem caneEnteredUp_alone (h : s.caneOf p = none) : run (caneEnteredUp p) s = s := by
  unfold caneEnteredUp
  rw [run_read, h]
  rfl

theorem trainStages_only (hp : p < 64) (hc : s.caneOf p = none) : (trainStages s p m d).Maintains (TrainOnly p s) :=
  leads_cons trainMeasured_trains.trainOnly <| leads_cons trainEntered_trains.trainOnly <| leads_cons comparePartner_trains.trainOnly <|
    leads_cons setQuality_trains.trainOnly <| leads_cons
      (leads_cons (maintains_when fun _ => Prog.Trains.trainOnly (p := p) raise_trains) <|
        leads_cons (leads_read fun _ _ _ => leads_cons (Prog.Trains.trainOnly (p := p) setF_trains) <| leads_cons (Prog.Trains.trainOnly (p := p) setF_trains) leads_nil) <|
        leads_cons (Prog.Trains.trainOnly fun _ => all_when_i writes_updPort) <|
        leads_cons (fun t _ hu => by
          show TrainOnly p s (run (caneEnteredUp p) t)
          rw [caneEnteredUp_alone ((hu.caneOf hp p).trans hc)]
          exact hu) <|
        leads_cons (trainOnly_of (refreshNear_kinds p).sub) leads_nil) leads_nil

end Sys2Proof.Machine
end

section
/-!
PROOFS. O3: what a training that converges leaves of the port; the obligation from its parts (R132, R140, R145, R147, R148, R155).
-/
set_option Elab.async false
namespace Sys2Proof.Machine

variable {p m n off : Nat} {s t : State} {prog : Prog} {d : TrainData}

/-! The words of the partner's reference (R145). -/

/-- The tables that the canes and the bundles of a port that comes up can write. -/
def upMask : Nat := 0x2000000000000000000f25000000000000000000000000000000000000000000000000000000000000000000000003000003d0

theorem alone_PORT_PARTNER_REF_ABIL : alone 310 = true := by decide +kernel
theorem alone_PORT_PARTNER_REF_FLAGS : alone 311 = true := by decide +kernel

theorem setReg_ensures {o : Nat} {w : Word} : (setReg o w).Ensures fun s => s.reg o = w := fun _ hs _ => reg_apply_same _ _ _ (State.ok_regs_sorted hs)

theorem keepPartner_spares : (keepPartner p).Spares off := fun _ _ => id

section
variable (hp : p < 64)
include hp

theorem setReg_home {a b : Nat} {w : Word} (h : a ≠ b := by decide) : (setReg (at1 a 0x10000 64 p) w).Spares (at1 b 0x10000 64 p) := home_ne hp h

theorem setWide_home {a b v : Nat} (h : a ≠ b ∧ a + 4 ≠ b := by decide) : (setWide (at1 a 0x10000 64 p) 2 v).Spares (at1 b 0x10000 64 p) := by
  obtain ⟨h1, h2⟩ := h
  have e : ∀ x, at1 x 0x10000 64 p = x + p * 0x10000 := fun x => if_pos hp
  exact spares_setWide (by rw [e, e]; omega) (by rw [e, e]; omega)

/-- The reference takes the abilities of the partner. -/
theorem comparePartner_abil {w : Word} : (comparePartner p).Leads (fun t => t.reg (R.PORT_PARTNER_ABIL p) = w) fun t => t.reg (R.PORT_PARTNER_REF_ABIL p) = w :=
  leads_read fun s _ hw => by
    rw [hw]
    exact (ensures_later <| ensures_now setReg_ensures <| leads_cons (maintains_reg (J := (· = w)) (setReg_home hp)) <|
      leads_cons (maintains_reg (J := (· = w)) (setWide_home hp)) <|
      leads_cons (maintains_when fun _ => maintains_reg (J := (· = w)) keepPartner_spares) leads_nil).leads

/-- The reference is valid. -/
theorem comparePartner_valid : (comparePartner p).Ensures fun t => t.f (F.PORT_PARTNER_REF_FLAGS_valid p) = 1 := leads_read fun s _ _ =>
  ensures_later <| ensures_later <| ensures_now (fun t ht _ => by
    show bits ((run (setReg (R.PORT_PARTNER_REF_FLAGS p) _) t).reg (R.PORT_PARTNER_REF_FLAGS p)) 3 3 = 1
    rw [setReg_ensures t ht trivial, bits_putBits_same _ _ (by decide) (by decide)]
    rfl) <|
    leads_cons (maintains_f (setWide_home hp)) <| leads_cons (maintains_when fun _ => maintains_f keepPartner_spares) leads_nil

theorem comparePartner_state : (comparePartner p).Spares (R.PORT_STATE p) :=
  spares_own (comparePartner_kinds p) (apart_PORT_STATE hp (by decide) (by decide) (by decide))

theorem comparePartner_raised {b : Nat} (hb : b < 24) : (comparePartner p).Maintains fun t => t.raised (R.PORT_EVENT p) b = true := leads_read fun _ _ _ =>
  leads_cons (by
    split
    · exact maintains_raised hb
    · exact maintains_when fun _ => maintains_raised hb) <|
  leads_cons (raised_spared (home_ne hp)) <| leads_cons (raised_spared (home_ne hp)) <| leads_cons (raised_spared (setWide_home hp)) <|
    leads_cons (maintains_when fun _ => raised_spared keepPartner_spares) leads_nil

theorem setQuality_raised {b : Nat} (hb : b < 24) : (setQuality p m).Maintains fun t => t.raised (R.PORT_EVENT p) b = true := leads_read fun _ _ _ =>
  leads_cons (raised_spared (spares_setF.2 (home_ne hp))) <| leads_cons (raised_spared (spares_setF.2 (home_ne hp))) <|
    leads_cons (raised_spared (spares_setF.2 (home_ne hp))) <|
    leads_cons (maintains_when fun _ => leads_cons (maintains_raised hb) <| leads_cons (raised_spared fun _ => id) leads_nil) <|
    leads_cons (maintains_when fun _ => raised_spared fun _ => id) leads_nil

/-! The stages after the measurements. -/

omit hp in
/-- What goes with the link writes the port's track events and its LPI state, and the tables of the canes and the bundles. -/
theorem trainSettled_spares (ht : R.PORT_TRK_EVENT p ≠ off) (hl : R.PORT_LPI_STAT p ≠ off) (hu : ¬ lies off upMask) : (trainSettled s p).Spares off :=
  ⟨all_when_i (spares_raise.2 ht), fun _ => ⟨spares_setF.2 hl, spares_setF.2 hl, trivial⟩, fun _ => all_when_i fun _ => id,
    spares_own (k := upMask) (caneEnteredUp_kinds p).sub hu, spares_own (k := upMask) (refreshNear_kinds p).sub hu, trivial⟩

theorem trainSettled_state : (trainSettled s p).Spares (R.PORT_STATE p) :=
  trainSettled_spares (home_ne hp) (home_ne hp) (apart_PORT_STATE hp (by decide) (by decide) (by decide))
theorem trainSettled_event : (trainSettled s p).Spares (R.PORT_EVENT p) :=
  trainSettled_spares (home_ne hp) (home_ne hp) (apart_PORT_EVENT hp (by decide) (by decide) (by decide))
theorem trainSettled_quality : (trainSettled s p).Spares (R.PORT_LINK_QUAL p) :=
  trainSettled_spares (home_ne hp) (home_ne hp) (apart_PORT_LINK_QUAL hp (by decide) (by decide) (by decide))
theorem trainSettled_refAbil : (trainSettled s p).Spares (R.PORT_PARTNER_REF_ABIL p) := trainSettled_spares (home_ne hp) (home_ne hp)
  (not_lies_at1 (k := 310) (words := 1) (w := 0) alone_PORT_PARTNER_REF_ABIL rfl hp (by decide) (by decide) (by decide) (by decide) (by decide) (by decide) (by decide))
theorem trainSettled_refFlags : (trainSettled s p).Spares (R.PORT_PARTNER_REF_FLAGS p) := trainSettled_spares (home_ne hp) (home_ne hp)
  (not_lies_at1 (k := 311) (words := 1) (w := 0) alone_PORT_PARTNER_REF_FLAGS rfl hp (by decide) (by decide) (by decide) (by decide) (by decide) (by decide) (by decide))

theorem trainEntered_pst : (trainEntered s p).Ensures fun t => t.pst p = stUp :=
  ensures_now setF_ensures <| leads_cons setF_beside <| leads_cons (maintains_f fun _ => id) <|
    leads_cons (maintains_when fun _ => maintains_f fun _ => id) <| leads_cons (maintains_f fun _ => id) <| leads_cons (maintains_f (raise_event_state hp)) leads_nil

theorem trainEntered_fails : (trainEntered s p).Ensures fun t => t.f (F.PORT_STATE_fail_count p) = 0 :=
  ensures_later <| ensures_now setF_ensures <| leads_cons (maintains_f fun _ => id) <|
    leads_cons (maintains_when fun _ => maintains_f fun _ => id) <| leads_cons (maintains_f fun _ => id) <| leads_cons (maintains_f (raise_event_state hp)) leads_nil

omit hp in
theorem trainEntered_raised : (trainEntered s p).Ensures fun t => t.raised (R.PORT_EVENT p) 0 = true :=
  ensures_later <| ensures_later <| ensures_later <| ensures_later <| ensures_later <| ensures_now (raised_raise (by decide)) leads_nil

theorem setQuality_state : (setQuality p m).Spares (R.PORT_STATE p) := setQuality_spares (home_ne hp) (home_ne hp)

/-- The partner's abilities are not among the words of a training. -/
theorem abil_not_trained : R.PORT_PARTNER_ABIL p ∉ trainWords p := fun h => by
  have e : ∀ b st, at1 b st 64 p = b + p * st := fun b st => if_pos hp
  simp only [trainWords, List.mem_cons, List.not_mem_nil, or_false, R.CAL_ATTIC_CTL, R.CAL_REJECTS, R.CAL_EVENT, R.CAL_PORT_STAT, R.CAL_PORT_QUAL,
    R.CAL_PORT_TIME, R.DIAG_EVENT, R.DIAG_IL, R.DIAG_FP_STAT, R.DIAG_FP_CTL, R.PORT_STATE, R.PORT_PARTNER_FLAGS, R.PORT_PARTNER_REF_ABIL,
    R.PORT_PARTNER_REF_FLAGS, R.PORT_PARTNER_REF_ID, R.PORT_LINK_QUAL, R.PORT_EVENT, R.PORT_AM_STAT, R.PORT_TRK_EVENT, R.PORT_LPI_STAT,
    R.PORT_PARTNER_ABIL, e] at h
  omega

/-! The whole. -/

omit hp in
/-- A fact that UP brings and the later stages keep. -/
theorem trainStages_of_entered {Q : State → Prop} (he : (trainEntered s p).Ensures Q) (hc : (comparePartner p).Maintains Q)
    (hq : (setQuality p m).Maintains Q) (hl : (trainSettled s p).Maintains Q) : (trainStages s p m d).Ensures Q :=
  ensures_later <| ensures_now he <| leads_cons hc <| leads_cons hq <| leads_cons hl leads_nil

theorem trainStages_pst : (trainStages s p m d).Ensures fun t => t.pst p = stUp :=
  trainStages_of_entered (trainEntered_pst hp) (maintains_f (comparePartner_state hp)) (maintains_f (setQuality_state hp)) (maintains_f (trainSettled_state hp))

theorem trainStages_fails : (trainStages s p m d).Ensures fun t => t.f (F.PORT_STATE_fail_count p) = 0 :=
  trainStages_of_entered (trainEntered_fails hp) (maintains_f (comparePartner_state hp)) (maintains_f (setQuality_state hp)) (maintains_f (trainSettled_state hp))

theorem trainStages_raised : (trainStages s p m d).Ensures fun t => t.raised (R.PORT_EVENT p) 0 = true :=
  trainStages_of_entered trainEntered_raised (comparePartner_raised hp (by decide)) (setQuality_raised hp (by decide)) (raised_spared (trainSettled_event hp))

theorem trainStages_measures (hm : m < 2 ^ 16) : (trainStages s p m d).Ensures fun t => ∃ old, Measured p m old t :=
  ensures_later <| ensures_later <| ensures_later <| ensures_now (fun t ht _ => ⟨_, setQuality_measures hp hm t ht rfl⟩) <|
    leads_cons (fun t ht ⟨old, h⟩ => ⟨old, Measured.kept (trainSettled_quality hp) t ht h⟩) leads_nil

theorem trainStages_valid : (trainStages s p m d).Ensures fun t => t.f (F.PORT_PARTNER_REF_FLAGS_valid p) = 1 :=
  ensures_later <| ensures_later <| ensures_now (comparePartner_valid hp) <| leads_cons (maintains_f (setQuality_spares (home_ne hp) (home_ne hp))) <|
    leads_cons (maintains_f (trainSettled_refFlags hp)) leads_nil

/-- The reference's abilities are those that the partner's record held before. -/
theorem trainStages_abil {w : Word} : (trainStages s p m d).Leads (fun t => t.reg (R.PORT_PARTNER_ABIL p) = w) fun t => t.reg (R.PORT_PARTNER_REF_ABIL p) = w :=
  leads_cons (maintains_reg (J := (· = w)) (trainMeasured_trains.spares (abil_not_trained hp))) <|
    leads_cons (maintains_reg (J := (· = w)) (trainEntered_trains.spares (abil_not_trained hp))) <| leads_cons (comparePartner_abil hp) <|
    leads_cons (maintains_reg (J := (· = w)) (setQuality_spares (home_ne hp) (home_ne hp))) <|
    leads_cons (maintains_reg (J := (· = w)) (trainSettled_refAbil hp)) leads_nil

end

end Sys2Proof.Machine

namespace Sys2Proof.Proofs
open Sys2Proof Sys2Proof.Machine

/-- Settles O3: each command runs one program; a training that converges measures, enters UP, compares the partner and shows the quality,
and what follows keeps these words. -/
theorem trainingEndsInUp : Obligations.TrainingEndsInUp := by
  refine ⟨fun p margin found s hs ht hc hsw hq => ?_, fun p s hs ht hf => ?_, fun p margin c u s hs hl hseg => ?_,
    fun p frame s hs hseg hc hup hlp hcut => ?_, fun path p s hs hg => ?_⟩
  · have e := Converges.run_trainComplete (d := found) ⟨ht, hc, hsw, hq⟩
    refine acts_finish (trainComplete p margin.toNat found) rfl ⟨?_, ?_, ?_, ?_, ?_, ?_, ?_, ?_, keeps_of (trainComplete_kinds p _ _) hs _⟩
    all_goals rw [e]
    · exact trainStages_pst p.isLt s hs trivial
    · exact trainStages_fails p.isLt s hs trivial
    · exact trainStages_raised p.isLt s hs trivial
    · obtain ⟨_, h⟩ := trainStages_measures (d := found) p.isLt margin.isLt s hs trivial
      exact h.margin
    · obtain ⟨_, h⟩ := trainStages_measures (d := found) p.isLt margin.isLt s hs trivial
      exact h.sqi
    · exact trainStages_valid p.isLt s hs trivial
    · exact congrArg (bits · _ _) (trainStages_abil p.isLt s hs rfl)
    · exact (trainStages_only p.isLt hc s hs fun _ _ _ => rfl).onlyIn
  · have e := run_trainStoredTimeout ht hf
    refine acts_finish (trainStoredTimeout p) rfl ⟨?_, ?_, fun h7 => ?_, onlyWords_of trainStoredTimeout_writes hs, keeps_of (trainStoredTimeout_kinds p) hs _⟩
    · rw [e]; exact fromDefaults_stored s hs trivial
    · exact maintains_f (trainStoredTimeout_writes.spares List.not_mem_nil) s hs ht
    · rw [e]; exact fromDefaults_taps h7 s hs trivial
  · have e := run_linkQualInterval (margin := margin.toNat) (c := c) (u := u) hl hseg
    refine acts_finish (linkQualInterval p margin.toNat c u) rfl ⟨?_, ?_, ?_, fun h1 => ⟨?_, ?_⟩, fun h1 => ?_, onlyWords_of linkQualInterval_writes hs,
      keeps_of (linkQualInterval_kinds p _ _ _) hs _⟩
    all_goals rw [e]
    · exact (intervalTaken_measures p.isLt margin.isLt s hs rfl).margin
    · exact (intervalTaken_measures p.isLt margin.isLt s hs rfl).sqi
    · exact (intervalTaken_measures p.isLt margin.isLt s hs rfl).least
    · exact intervalTaken_corrected p.isLt h1 s hs rfl
    · exact intervalTaken_uncorrected p.isLt h1 s hs rfl
    · exact intervalTaken_uncounted p.isLt h1 s hs rfl
  · have ht : Takes s p frame := ⟨hseg, hc, hup, hlp, hcut⟩
    have e : run (block [macFrameReceive p frame, carrierWake p]) s = run (macFrameReceive p frame) s := run_carrierWake hseg
    refine acts_finish (block [macFrameReceive p frame, carrierWake p]) rfl ?_
    rw [e]
    exact ⟨ht.runt hs, ht.oversize hs, fun h1 h2 h3 => ht.orphaned hs h1 h2 h3, fun h1 h2 h3 => ht.delivered hs h1 h2 h3 p.isLt,
      keeps_of (macFrameReceive_kinds p frame) hs _⟩
  · exact acts_wrote (fun _ => counterClear p) hg rfl ⟨clearCounters_zeroes p.isLt (by decide) s hs trivial,
      clearCounters_zeroes p.isLt (by decide) s hs trivial, clearCounters_zeroes p.isLt (by decide) s hs trivial,
      clearCounters_zeroes p.isLt (by decide) s hs trivial, clearCounters_zeroes p.isLt (by decide) s hs trivial,
      clearCounters_zeroes p.isLt (by decide) s hs trivial, onlyWords_of clearCounters_writes hs, keeps_of (counterClear_kinds p) hs _⟩

end Sys2Proof.Proofs
end

section
/-!
PROOFS. O5: a training frame that is heard, the switch to PAM6, the taps that are written and applied (R140, R170, R174, R175, R176).
-/
set_option Elab.async false
namespace Sys2Proof.Machine

variable {p body w : Nat} {s : State}

/-! Training frames (R170, R174). -/

/-- What a port in `role` holds of a training frame: the reply it owes, its own requests left, the readiness and the count heard. -/
def frameHeard (body reply role : Nat) (limit : Bool) (x : PortX) : PortX :=
  { x with
    tapReply := reply, heard := true, ownReq := unanswered x.ownReq (body / 2 ^ 6 % 64), rxReady := x.rxReady || bitOf body 12
    pam6Count := if body / 2 ^ 13 % 256 ≠ 255 ∧ role ≠ 1 then body / 2 ^ 13 % 256 else x.pam6Count
    tapLimit := x.tapLimit || limit }

/-- A frame that is acted on, with the reply, the taps and the limits that its requests come to. -/
def frameTrained (p body role reply limits taps : Nat) (allowed asked : Bool) : Prog :=
  block [
    when allowed (updPort p fun x => { x with trainedTaps := some taps }),
    updPort p (frameHeard body reply role (decide (0 < limits))),
    when asked (satAdd (F.PORT_TAP_STAT_exchanges p) 1),
    satAdd (F.PORT_TAP_STAT_limit_hits p) limits, tapQueue p]

/-- Taps are trained where TAP_CTL lets them. -/
def State.tapsTrained (s : State) (p : Nat) : Bool := s.bit (F.PORT_TAP_CTL_train_en p) && !s.bit (F.PORT_TAP_CTL_override p)

/-- A frame that a port acts on: a trunk in X50 TRAIN, a CRC that fits. -/
structure Hears (s : State) (p body : Nat) : Prop where
  trains : s.pst p = stTrain
  x50 : s.pmode p = 7
  trunk : p < 8
  sum : crc8 0 (leBytes 5 (body % 2 ^ 40)) = body / 2 ^ 40 % 256

/-- Where no tap may move, and where nothing is asked, the reply is 0. -/
theorem Hears.run_trainingFrame (h : Hears s p body) : ∃ reply limits taps asked,
    run (trainingFrame p body) s = run (frameTrained p body (s.f (F.PORT_STATE_role p)) reply limits taps (s.tapsTrained p) asked) s ∧
      (s.tapsTrained p = false → reply = 0) ∧ (body % 64 = 0 → reply = 0) := by
  obtain ⟨ht, h7, hp, hcrc⟩ := h
  unfold trainingFrame
  rw [run_read]
  dsimp only
  rw [run_when, if_pos (by simp only [ht, h7, hcrc, hp, beq_self_eq_true, decide_true, Bool.and_self])]
  refine ⟨_, _, _, _, rfl, fun ha => ?_, fun hb => ?_⟩
  · unfold State.tapsTrained at ha
    simp [ha]
  · have h1 : body % 4 = 0 := by omega
    have h2 : body / 4 % 4 = 0 := by omega
    have h3 : body / 16 % 4 = 0 := by omega
    simp [h1, h2, h3]

/-- The same but for the taps trained and the taps queued; where no tap may move, those trained are the same too. -/
def TapsAside (allowed : Bool) (x y : PortX) : Prop :=
  ∃ tr next, y = { x with trainedTaps := tr, tapNext := next } ∧ (allowed = false → tr = x.trainedTaps)

theorem tapQueue_aside {allowed : Bool} {x : PortX} : (tapQueue p).Maintains fun s => TapsAside allowed x (s.port p) :=
  tapQueue_port (A := TapsAside allowed x) fun _ v ⟨tr, _, e, h⟩ => ⟨tr, v, by rw [e], h⟩

/-- What the port holds after the frame. -/
theorem frameTrained_port {x : PortX} {role reply limits taps : Nat} {allowed asked : Bool} :
    (frameTrained p body role reply limits taps allowed asked).Leads (fun s => s.port p = x)
      fun u => TapsAside allowed (frameHeard body reply role (decide (0 < limits)) x) (u.port p) := by
  refine leads_cons (R := fun t => TapsAside allowed x (t.port p)) ?_ <|
    leads_cons (updPort_leads (B := TapsAside allowed (frameHeard body reply role (decide (0 < limits)) x))
      fun y ⟨tr, next, e, h⟩ => ⟨tr, next, by rw [e]; rfl, h⟩) <|
    leads_cons (maintains_when fun _ => satAdd_port (A := TapsAside _ _)) <| leads_cons (satAdd_port (A := TapsAside _ _)) <| leads_cons tapQueue_aside leads_nil
  cases allowed
  · exact fun t _ ht => ⟨x.trainedTaps, x.tapNext, ht, fun _ => rfl⟩
  · exact updPort_leads (A := (· = x)) (B := TapsAside true x) fun y e => ⟨some taps, x.tapNext, by rw [e], fun h => absurd h (by decide)⟩

theorem tapQueue_writes {offs : List Nat} : (tapQueue p).Writes offs := fun _ => all_when_i writes_updPort

theorem trainingFrame_writes : (trainingFrame p body).Writes [R.PORT_TAP_STAT p] := fun _ =>
  all_when_i ⟨all_when_i writes_updPort, writes_updPort, all_when_i (satAdd_writes (List.mem_singleton.2 rfl)),
    satAdd_writes (List.mem_singleton.2 rfl), tapQueue_writes, trivial⟩

/-! The switch to PAM6 (R170). -/

theorem run_pam6Switch (ht : s.pst p = stTrain) (h7 : s.pmode p = 7) (hr : (s.port p).rxReady = true) (ho : (s.port p).ownReady = true)
    (hc : (s.port p).pam6Count ≠ 255) : run (pam6Switch p) s = run (updPort p fun x => { x with pam6 := true, pam6Count := 0 }) s := by
  unfold pam6Switch
  rw [run_read]
  dsimp only
  rw [run_when, if_pos (by simp [ht, h7, hr, ho, hc])]

theorem pam6Switch_writes : (pam6Switch p).Writes [] := fun _ => all_when_i writes_updPort

/-! Taps written and applied (R175, R176). -/

/-- The word stored is the word written, or less. -/
theorem tapStore_le {v : Nat} (h : tapStore w = some v) : v ≤ w := by
  unfold tapStore at h
  dsimp only at h
  split_ifs at h <;> cases h <;> omega

theorem tapQueue_queues (hp : p < 8) : (tapQueue p).Ensures fun u => (u.port p).tapNext.isSome = true := leads_read fun _ _ _ => by
  rw [decide_eq_true hp]
  exact updPort_ensures (g := fun x => { x with tapNext := some _ }) (B := fun x => x.tapNext.isSome = true) fun _ => rfl

theorem tapQueue_spares {off : Nat} : (tapQueue p).Spares off := fun _ => all_when_i fun _ => id

/-- A word of taps is stored as R175 says, and the taps are queued; a word refused changes no taps, and raises its event. -/
theorem tapWrite_stores {man : Bool} (hp : p < 8) (hw : w < 2 ^ 18) (hs : s.ok = true) :
    (match tapStore w with
      | some v => decide (((run (tapWrite p man w) s).reg (if man then R.PORT_TAP_MAN p else R.PORT_TAP_STD p)).toNat = v) &&
          ((run (tapWrite p man w) s).port p).tapNext.isSome
      | none => decide ((run (tapWrite p man w) s).raised (R.PORT_TRK_EVENT p) 0 = true ∧
          (run (tapWrite p man w) s).reg (R.PORT_TAP_MAN p) = s.reg (R.PORT_TAP_MAN p) ∧
          (run (tapWrite p man w) s).reg (R.PORT_TAP_STD p) = s.reg (R.PORT_TAP_STD p))) = true := by
  unfold tapWrite
  rw [Nat.mod_eq_of_lt hw]
  cases hv : tapStore w with
  | none =>
    have h64 : p < 64 := by omega
    simp only [decide_eq_true_eq]
    exact ⟨raised_raise (by decide) s hs trivial, maintains_reg (J := (· = s.reg _)) (spares_raise.2 (home_ne h64)) s hs rfl,
      maintains_reg (J := (· = s.reg _)) (spares_raise.2 (home_ne h64)) s hs rfl⟩
  | some v =>
    have hlt : v < 2 ^ 32 := by have := tapStore_le hv; omega
    simp only [Bool.and_eq_true, decide_eq_true_eq]
    constructor
    · have h : (block [setReg (if man then R.PORT_TAP_MAN p else R.PORT_TAP_STD p) (BitVec.ofNat 32 v), tapQueue p]).Ensures
          fun u => u.reg (if man then R.PORT_TAP_MAN p else R.PORT_TAP_STD p) = BitVec.ofNat 32 v :=
        ensures_now setReg_ensures <| leads_cons (maintains_reg (J := (· = BitVec.ofNat 32 v)) tapQueue_spares) leads_nil
      rw [h s hs trivial, BitVec.toNat_ofNat, Nat.mod_eq_of_lt hlt]
    · exact (ensures_later <| ensures_now (tapQueue_queues hp) leads_nil : (block [setReg _ (BitVec.ofNat 32 v), tapQueue p]).Ensures _) s hs trivial

/-- The other of the two words is spared. -/
theorem tapWrite_spares {man : Bool} (hp : p < 64) : (tapWrite p man w).Spares (if man then R.PORT_TAP_STD p else R.PORT_TAP_MAN p) := by
  have hne : (if man then R.PORT_TAP_MAN p else R.PORT_TAP_STD p) ≠ if man then R.PORT_TAP_STD p else R.PORT_TAP_MAN p := by
    cases man
    · exact home_ne hp
    · exact home_ne hp
  have hev : R.PORT_TRK_EVENT p ≠ if man then R.PORT_TAP_STD p else R.PORT_TAP_MAN p := by
    cases man
    · exact home_ne hp
    · exact home_ne hp
  unfold tapWrite
  cases tapStore (w % 2 ^ 18) with
  | none => exact spares_raise.2 hev
  | some v => exact ⟨hne, tapQueue_spares, trivial⟩

theorem tapWrite_writes {man : Bool} : (tapWrite p man w).Writes [R.PORT_TAP_MAN p, R.PORT_TAP_STD p, R.PORT_TRK_EVENT p] := by
  unfold tapWrite
  cases tapStore (w % 2 ^ 18) with
  | none => exact writes_raise.2 (by simp)
  | some v =>
    refine ⟨?_, tapQueue_writes, trivial⟩
    show (if man then R.PORT_TAP_MAN p else R.PORT_TAP_STD p) ∈ [R.PORT_TAP_MAN p, R.PORT_TAP_STD p, R.PORT_TRK_EVENT p]
    cases man <;> simp

/-- The queued taps in force, with their source. -/
def tapsApplied (p : Nat) (v : Nat × Nat) : Prog :=
  block [setF (F.PORT_TAP_ACTIVE_taps p) v.1, setF (F.PORT_TAP_ACTIVE_src p) v.2, updPort p fun x => { x with tapNext := none }]

theorem run_tapApply {v : Nat × Nat} (h : (s.port p).tapNext = some v) : run (tapApply p) s = run (tapsApplied p v) s := by
  unfold tapApply
  rw [run_read, h]
  rfl

/-- A field takes the low bits of a value. -/
theorem setF_cuts {o hi lo v : Nat} (h : lo ≤ hi ∧ hi < 32 := by decide) : (setF ⟨o, hi, lo⟩ v).Ensures fun s => s.f ⟨o, hi, lo⟩ = v % 2 ^ (hi + 1 - lo) :=
  ensures_setF h

theorem tapsApplied_taps {v : Nat × Nat} : (tapsApplied p v).Ensures fun u => u.f (F.PORT_TAP_ACTIVE_taps p) = v.1 % 2 ^ 18 :=
  ensures_now setF_cuts <| leads_cons setF_beside <| leads_cons (maintains_f fun _ => id) leads_nil

theorem tapsApplied_source {v : Nat × Nat} : (tapsApplied p v).Ensures fun u => u.f (F.PORT_TAP_ACTIVE_src p) = v.2 % 4 :=
  ensures_later <| ensures_now setF_cuts <| leads_cons (maintains_f fun _ => id) leads_nil

theorem tapsApplied_next {v : Nat × Nat} : (tapsApplied p v).Ensures fun u => (u.port p).tapNext = none :=
  ensures_later <| ensures_later <| ensures_now (updPort_ensures (B := fun x => x.tapNext = none) fun _ => rfl) leads_nil

theorem tapApply_writes : (tapApply p).Writes [R.PORT_TAP_ACTIVE p] := fun _ => all_ifSome_i fun _ =>
  ⟨writes_setF.2 (List.mem_singleton.2 rfl), writes_setF.2 (List.mem_singleton.2 rfl), writes_updPort, trivial⟩

end Sys2Proof.Machine

namespace Sys2Proof.Proofs
open Sys2Proof Sys2Proof.Machine

/-- Settles O5: a training frame that is acted on leaves its port as `frameHeard` says, the trained and the queued taps aside; the switch,
the write and the apply run their own few actions. -/
theorem trunkTapsAndTraining : Obligations.TrunkTapsAndTraining := by
  refine ⟨fun p body s hs ht h7 hp hcrc => ?_, fun p s hs ht h7 hr ho hc => ?_, fun path p man taps s hs hg hp => ?_, fun p s hs hn => ?_⟩
  · have hsum : body.toNat / 2 ^ 40 % 256 = body.toNat / 2 ^ 40 := by have := body.isLt; omega
    obtain ⟨reply, limits, taps, asked, e, hoff, hquiet⟩ := Hears.run_trainingFrame (body := body.toNat) ⟨ht, h7, hp, hcrc.trans hsum.symm⟩
    obtain ⟨tr, next, hx, htr⟩ := e ▸ frameTrained_port (body := body.toNat) (role := s.f (F.PORT_STATE_role p)) (reply := reply) (limits := limits)
      (taps := taps) (allowed := s.tapsTrained p) (asked := asked) s hs rfl
    have hen : s.bit (F.PORT_TAP_CTL_train_en p) = false → s.tapsTrained p = false := fun h => by rw [State.tapsTrained, h, Bool.false_and]
    refine acts_finish (trainingFrame p body.toNat) rfl ⟨⟨?_, ?_⟩, ?_, ?_, fun h => ?_, fun h => ?_, fun h => ?_, onlyWords_of trainingFrame_writes hs,
      keeps_of (trainingFrame_kinds p _) hs _⟩
    all_goals rw [hx]
    · rfl
    · rfl
    · rfl
    · rfl
    · exact htr (hen h)
    · exact hoff (hen h)
    · exact hquiet h
  · have e := run_pam6Switch ht h7 hr ho hc
    have hx : ((run (pam6Switch p) s).port p).pam6 = true ∧ ((run (pam6Switch p) s).port p).pam6Count = 0 := by
      rw [e]
      exact updPort_ensures (B := fun x => x.pam6 = true ∧ x.pam6Count = 0) (fun _ => ⟨rfl, rfl⟩) s hs trivial
    exact acts_finish (pam6Switch p) rfl ⟨hx.1, hx.2, maintains_f (pam6Switch_writes.spares List.not_mem_nil) s hs ht, onlyWords_of pam6Switch_writes hs,
      keeps_of (pam6Switch_kinds p) hs _⟩
  · exact acts_wrote (fun _ => tapWrite p man taps.toNat) hg rfl ⟨tapWrite_stores hp taps.isLt hs,
      maintains_reg (J := (· = s.reg _)) (tapWrite_spares p.isLt) s hs rfl, onlyWords_of tapWrite_writes hs, keeps_of (tapWrite_kinds p man _) hs _⟩
  · obtain ⟨v, hv⟩ := Option.isSome_iff_exists.1 hn
    refine acts_finish (tapApply p) rfl ⟨?_, ?_, ?_, onlyWords_of tapApply_writes hs, keeps_of (tapApply_kinds p) hs _⟩
    all_goals rw [run_tapApply hv]
    · rw [hv]; exact tapsApplied_taps s hs trivial
    · rw [hv]; exact tapsApplied_source s hs trivial
    · exact tapsApplied_next s hs trivial

end Sys2Proof.Proofs
end

section
/-!
SUPPORT. The marker word of a cane's member: what the moves of its cane leave of it, the admission aside (R181 to R188).
-/
set_option Elab.async false
namespace Sys2Proof.Machine

variable {p k j i hi lo n v b K : Nat} {s : State} {prog : Prog}

theorem alone_PORT_AM_STAT : alone 341 = true := by decide +kernel
theorem alone_PORT_TRK_EVENT : alone 342 = true := by decide +kernel

section
variable (hp : p < 64)
include hp

theorem apart_PORT_AM_STAT (h62 : K.testBit 62 = false) (h63 : K.testBit 63 = false) (h : K.testBit 405 = false) : ¬ lies (R.PORT_AM_STAT p) K :=
  not_lies_at1 (k := 341) (words := 1) (w := 0) alone_PORT_AM_STAT rfl hp (by decide) (by decide) (by decide) (by decide) h62 h63 h

theorem apart_PORT_TRK_EVENT (h62 : K.testBit 62 = false) (h63 : K.testBit 63 = false) (h : K.testBit 406 = false) : ¬ lies (R.PORT_TRK_EVENT p) K :=
  not_lies_at1 (k := 342) (words := 1) (w := 0) alone_PORT_TRK_EVENT rfl hp (by decide) (by decide) (by decide) (by decide) h62 h63 h

/-- A program of other tables leaves a port's marker word. -/
theorem mark_of (hk : Prog.All (Act.among K) prog) (h62 : K.testBit 62 = false := by decide) (h63 : K.testBit 63 = false := by decide)
    (h : K.testBit 405 = false := by decide) : prog.Maintains fun s => s.f ⟨R.PORT_AM_STAT p, hi, lo⟩ = n :=
  maintains_f (spares_own hk (apart_PORT_AM_STAT hp h62 h63 h))

/-! Programs that write a cane's words and what a cane holds, but no port's marker word. -/

/-- The kinds of the actions on a cane's state, its events, and what a cane holds. -/
def caneMask : Nat := 0x90000000000000000000000000000000000000000000000000000000000000000000000000000000090

theorem caneStat_mark {hi' lo' : Nat} : (setF ⟨R.CANE_STAT k, hi', lo'⟩ v).Maintains fun s => s.f ⟨R.PORT_AM_STAT p, hi, lo⟩ = n :=
  mark_of (K := caneMask) hp (setF_kinds _ _ (lies_CANE_STAT (tb rfl)))

theorem caneEvent_mark : (raise (R.CANE_EVENT k) b).Maintains fun s => s.f ⟨R.PORT_AM_STAT p, hi, lo⟩ = n :=
  mark_of (K := caneMask) hp (raise_kinds _ _ (tb rfl) (lies_CANE_EVENT (tb rfl)))

theorem updCane_mark {g : CaneX → CaneX} : (updCane k g).Maintains fun s => s.f ⟨R.PORT_AM_STAT p, hi, lo⟩ = n :=
  mark_of (K := caneMask) hp (updCane_kinds k g).sub

omit hp in
theorem updPort_mark {g : PortX → PortX} : (updPort i g).Maintains fun s => s.f ⟨R.PORT_AM_STAT p, hi, lo⟩ = n := maintains_f fun _ => id

/-! Admission is bit 2; a field beside it is kept by what admits lanes and by what loses them. -/

variable (hb : hi < 2 ∨ 2 < lo)
include hb

theorem setAdmitted_mark : (setF (F.PORT_AM_STAT_admitted i) v).Maintains fun s => s.f ⟨R.PORT_AM_STAT p, hi, lo⟩ = n := by
  by_cases e : i = p
  · subst e; exact setF_beside hb
  · exact maintains_f (Prog.Confined.spares setF_confined (not_ownWord hp e))

theorem setCane_mark {st : Nat} : (setCane k st).Maintains fun s => s.f ⟨R.PORT_AM_STAT p, hi, lo⟩ = n := leads_read fun _ _ _ => by
  refine leads_cons (caneStat_mark hp) (leads_cons ?_ leads_nil)
  split
  · exact leads_cons (caneEvent_mark hp) <| leads_cons (maintains_when fun _ => caneEvent_mark hp) <| leads_cons (caneStat_mark hp) <|
      leads_cons (maintains_each fun _ _ => setAdmitted_mark hp hb) <| leads_cons (caneStat_mark hp) <| leads_cons (updCane_mark hp) leads_nil
  · split
    · exact leads_cons (caneEvent_mark hp) <| leads_cons (caneStat_mark hp) leads_nil
    · split
      · exact leads_cons (caneEvent_mark hp) <| leads_cons (updCane_mark hp) leads_nil
      · split
        · exact leads_cons (caneEvent_mark hp) <| leads_cons (updCane_mark hp) leads_nil
        · exact updCane_mark hp

theorem admitLane_mark : (admitLane k j).Maintains fun s => s.f ⟨R.PORT_AM_STAT p, hi, lo⟩ = n := leads_read fun _ _ _ =>
  leads_cons (caneStat_mark hp) <| leads_cons (setAdmitted_mark hp hb) <| leads_cons updPort_mark <| leads_cons (updCane_mark hp) <|
    leads_cons (maintains_when fun _ => leads_cons (updCane_mark hp) <| leads_cons (caneStat_mark hp) leads_nil) <|
    leads_cons (maintains_when fun _ => setCane_mark hp hb) <|
    leads_cons (leads_read fun _ _ _ => maintains_when fun _ => setCane_mark hp hb) <| leads_cons (mark_of hp (upLanes_kinds k)) <|
    leads_cons (mark_of hp (reportSkew_kinds k)) <| leads_cons (mark_of hp (remap_kinds k)) leads_nil

theorem tryAdmit_mark : (tryAdmit k j).Maintains fun s => s.f ⟨R.PORT_AM_STAT p, hi, lo⟩ = n := leads_read fun _ _ _ => maintains_when fun _ => by
  split
  · exact admitLane_mark hp hb
  · exact caneEvent_mark hp

/-- The ports that are dropped with a lane are the cane's other members, whose drops stay in their own blocks. -/
theorem loseLane_mark (e : p = 2 * k + j) : (loseLane k j caneDrop).Maintains fun s => s.f ⟨R.PORT_AM_STAT p, hi, lo⟩ = n :=
  leads_read fun _ _ _ => maintains_when fun _ => by
    refine leads_cons (caneStat_mark hp) <| leads_cons (setAdmitted_mark hp hb) <| leads_cons updPort_mark <| leads_cons (updCane_mark hp) <|
      leads_cons ?_ <| leads_cons (maintains_when fun _ => maintains_each fun i _ => leads_read fun _ _ _ => maintains_when fun hi => ?_) <|
      leads_cons (mark_of hp (remap_kinds k)) <| leads_cons (mark_of hp (upLanes_kinds k)) leads_nil
    · split
      · exact setCane_mark hp hb
      · exact maintains_when fun _ => setCane_mark hp hb
    · simp only [Bool.and_eq_true, bne_iff_ne, ne_eq] at hi
      exact maintains_f (caneDrop_confined.spares (not_ownWord hp (by omega)))

end

/-- A lane that is lost leaves the port's track events. -/
theorem loseLane_track (hp : p < 64) : (loseLane k j caneDrop).Spares (R.PORT_TRK_EVENT p) :=
  spares_own (k := moveMask) (loseLane_kinds (by decide +kernel) k j caneDrop fun q => (caneDrop_kinds q).sub)
    (apart_PORT_TRK_EVENT hp (by decide) (by decide) (by decide))

/-! What a cane holds. -/

theorem ok_canes_sorted (h : s.ok = true) : s.canes.sorted = true := by
  have := State.ok_maps h
  simp only [State.mapsOk, Bool.and_eq_true] at this
  tauto

theorem updCane_ensures {g : CaneX → CaneX} {A : CaneX → Prop} (h : ∀ x, A (g x)) : (updCane k g).Ensures fun s => A (s.cane k) := fun s hs _ => by
  show A ((run (updCane k g) s).cane k)
  have e : (run (updCane k g) s).cane k = g (s.cane k) := SMap.getD_putD_same _ _ _ _ (ok_canes_sorted hs)
  rw [e]
  exact h _

end Sys2Proof.Machine
end

section
/-!
PROOFS. O6: alignment markers, their loss, and the waits of a cane (R169, R181, R183 to R185).
-/
set_option Elab.async false
namespace Sys2Proof.Machine

variable {p k j lane tag map rxOk arrival bip hi lo n : Nat} {s : State} {prog : Prog} {good ok : Bool}

/-! A marker, stage by stage. -/

/-- The marker as its port shows it. -/
def markerShown (p lane tag map rxOk : Nat) (ok : Bool) : Prog :=
  block [setF (F.PORT_AM_STAT_tag_rx p) tag, setF (F.PORT_AM_STAT_rx_ok_rx p) rxOk, setF (F.PORT_AM_STAT_map_rx p) map,
    setF (F.PORT_AM_STAT_lane_rx p) lane, setF (F.PORT_AM_STAT_tag_ok p) (b2n ok)]

/-- The marker as its cane takes it. -/
def markerTaken (s : State) (k j map rxOk arrival bip : Nat) (good ok : Bool) : Prog :=
  block [satAdd (F.CANE_AM_ERR_bip_errors k j) bip,
    updCane k fun x => { x with arrival := x.arrival.put j arrival, rxOk := if good then rxOk else x.rxOk },
    when (good && Nat.land map (s.cane k).lostLanes == 0) (updCane k fun x => { x with lossWait := false, lostLanes := 0 }),
    when (!ok) (raise (R.CANE_EVENT k) 6)]

/-- Two good markers in a row lock, two bad ones lose the lock and the lane. -/
def markerJudged (s : State) (p k j : Nat) (good : Bool) : Prog :=
  if good then
    block [updPort p fun x => { x with goodRow := min 2 (x.goodRow + 1), badRow := 0 },
      when (decide ((s.port p).goodRow ≥ 1)) (setF (F.PORT_AM_STAT_am_lock p) 1)]
  else
    block [updPort p fun x => { x with goodRow := 0, badRow := min 2 (x.badRow + 1) },
      when (decide ((s.port p).badRow ≥ 1))
        (block [when (s.bit (F.PORT_AM_STAT_am_lock p)) (block [setF (F.PORT_AM_STAT_am_lock p) 0, raise (R.PORT_TRK_EVENT p) 1]),
          loseLane k j caneDrop])]

/-- The lane is lost by its skew, admitted, or waits; the cane reports and maps its lanes. -/
def markerServed (p k j : Nat) : Prog :=
  block [.read fun t => when (bitOf (t.admitted k) j && !t.skewFits k j) (block [raise (R.CANE_EVENT k) 5, loseLane k j caneDrop]),
    .read fun t =>
      if t.cst k == cnDown || t.cst k == cnForming then when (t.pst p == stUp) (tryAdmit k j)
      else when (t.laneMeets k j && !bitOf (t.admitted k) j && t.cst k != cnSingle)
        (if (t.port p).rejoin = 2 then tryAdmit k j
         else when ((t.port p).rejoin == 0) (updPort p fun x => { x with rejoin := 1 })),
    .read fun t => when (!t.laneMeets k j) (updPort p fun x => { x with rejoin := 0 }),
    reportSkew k, remap k]

def markerStages (s : State) (p k j lane tag map rxOk arrival bip : Nat) (good ok : Bool) : Prog :=
  block [markerShown p lane tag map rxOk ok, markerTaken s k j map rxOk arrival bip good ok, markerJudged s p k j good, markerServed p k j]

theorem run_markerGrouped {a b c d e f g h i l m n o q r : Prog} : run (block [a, b, c, d, e, f, g, h, i, l, m, n, o, q, r]) s =
    run (block [block [a, b, c, d, e], block [f, g, h, i], l, block [m, n, o, q, r]]) s := rfl

/-- The marker of a member in UP; it is good where its tag and its lane are those of the partner's page. -/
theorem run_alignmentMarker (hk : s.caneOf p = some (k, j)) (hup : s.pst p = stUp) (hm : bondMode (s.pmode p) = true) : ∃ good ok,
    run (alignmentMarker p lane tag map rxOk arrival bip caneDrop) s = run (markerStages s p k j lane tag map rxOk arrival bip good ok) s ∧
      ((s.port p).canePage.map (fun g => (g.1, g.2.2.1)) = some (tag, lane) → good = true) := by
  unfold alignmentMarker
  rw [run_read, hk]
  dsimp only
  rw [run_ifSome_some, run_when, if_pos (by simp [State.linkUp, hup, hm])]
  refine ⟨_, _, run_markerGrouped, fun hg => ?_⟩
  obtain ⟨g, hg, e⟩ := Option.map_eq_some_iff.1 hg
  simp only [Prod.mk.injEq] at e
  simp [hg, e.1, e.2]

/-! What its port shows after it. -/

/-- A port shows a marker. -/
structure MarkShown (p lane tag map rxOk : Nat) (s : State) : Prop where
  tag : s.f (F.PORT_AM_STAT_tag_rx p) = tag
  lane : s.f (F.PORT_AM_STAT_lane_rx p) = lane
  map : s.f (F.PORT_AM_STAT_map_rx p) = map
  rxOk : s.f (F.PORT_AM_STAT_rx_ok_rx p) = rxOk

/-- What keeps the fields above the admission keeps the marker shown. -/
theorem MarkShown.kept (h : ∀ {hi lo n}, 2 < lo → prog.Maintains fun s => s.f ⟨R.PORT_AM_STAT p, hi, lo⟩ = n) :
    prog.Maintains (MarkShown p lane tag map rxOk) := fun s hs ⟨h1, h2, h3, h4⟩ =>
  ⟨h (by decide) s hs h1, h (by decide) s hs h2, h (by decide) s hs h3, h (by decide) s hs h4⟩

theorem markerShown_shows (ht : tag < 2 ^ 16) (hl : lane < 2 ^ 2) (hm : map < 2 ^ 4) (hr : rxOk < 2 ^ 4) :
    (markerShown p lane tag map rxOk ok).Ensures (MarkShown p lane tag map rxOk) := fun s hs _ =>
  ⟨(ensures_now (setF_ensures ht) <| leads_cons setF_beside <| leads_cons setF_beside <| leads_cons setF_beside <| leads_cons setF_beside leads_nil :
      (markerShown p lane tag map rxOk ok).Ensures fun s => s.f (F.PORT_AM_STAT_tag_rx p) = tag) s hs trivial,
    (ensures_later <| ensures_later <| ensures_later <| ensures_now (setF_ensures hl) <| leads_cons setF_beside leads_nil :
      (markerShown p lane tag map rxOk ok).Ensures fun s => s.f (F.PORT_AM_STAT_lane_rx p) = lane) s hs trivial,
    (ensures_later <| ensures_later <| ensures_now (setF_ensures hm) <| leads_cons setF_beside <| leads_cons setF_beside leads_nil :
      (markerShown p lane tag map rxOk ok).Ensures fun s => s.f (F.PORT_AM_STAT_map_rx p) = map) s hs trivial,
    (ensures_later <| ensures_now (setF_ensures hr) <| leads_cons setF_beside <| leads_cons setF_beside <| leads_cons setF_beside leads_nil :
      (markerShown p lane tag map rxOk ok).Ensures fun s => s.f (F.PORT_AM_STAT_rx_ok_rx p) = rxOk) s hs trivial⟩

section
variable (hp : p < 64)
include hp

theorem markerTaken_mark : (markerTaken s k j map rxOk arrival bip good ok).Maintains fun s => s.f ⟨R.PORT_AM_STAT p, hi, lo⟩ = n :=
  leads_cons (mark_of (K := 0x400000000000000000000000000000000000000000000000000000000000000000000000000000000000) hp (satAdd_kinds _ _ (lies_CANE_AM_ERR (tb rfl)))) <|
    leads_cons (updCane_mark hp) <| leads_cons (maintains_when fun _ => updCane_mark hp) <| leads_cons (maintains_when fun _ => caneEvent_mark hp) leads_nil

variable (e : p = 2 * k + j)
include e

theorem markerJudged_mark (hb : 2 < lo) : (markerJudged s p k j good).Maintains fun s => s.f ⟨R.PORT_AM_STAT p, hi, lo⟩ = n := by
  unfold markerJudged
  split
  · exact leads_cons updPort_mark <| leads_cons (maintains_when fun _ => setF_beside (.inr (by omega))) leads_nil
  · exact leads_cons updPort_mark <| leads_cons (maintains_when fun _ =>
      leads_cons (maintains_when fun _ => leads_cons (setF_beside (.inr (by omega))) <| leads_cons (maintains_f (spares_raise.2 (home_ne hp))) leads_nil) <|
      leads_cons (loseLane_mark hp (.inr hb) e) leads_nil) leads_nil

theorem markerServed_mark (hb : hi < 2 ∨ 2 < lo) : (markerServed p k j).Maintains fun s => s.f ⟨R.PORT_AM_STAT p, hi, lo⟩ = n := by
  refine leads_cons (leads_read fun _ _ _ => maintains_when fun _ => leads_cons (caneEvent_mark hp) <| leads_cons (loseLane_mark hp hb e) leads_nil) <|
    leads_cons (leads_read fun _ _ _ => ?_) <| leads_cons (leads_read fun _ _ _ => maintains_when fun _ => updPort_mark) <|
    leads_cons (mark_of hp (reportSkew_kinds k)) <| leads_cons (mark_of hp (remap_kinds k)) leads_nil
  split
  · exact maintains_when fun _ => tryAdmit_mark hp hb
  · refine maintains_when fun _ => ?_
    split
    · exact tryAdmit_mark hp hb
    · exact maintains_when fun _ => updPort_mark

theorem markerStages_shows (ht : tag < 2 ^ 16) (hl : lane < 2 ^ 2) (hm : map < 2 ^ 4) (hr : rxOk < 2 ^ 4) :
    (markerStages s p k j lane tag map rxOk arrival bip good ok).Ensures (MarkShown p lane tag map rxOk) :=
  ensures_now (markerShown_shows ht hl hm hr) <| leads_cons (MarkShown.kept fun _ => markerTaken_mark hp) <|
    leads_cons (MarkShown.kept (markerJudged_mark hp e)) <| leads_cons (MarkShown.kept fun hb => markerServed_mark hp e (.inr hb)) leads_nil

/-- The second good marker in a row. -/
theorem markerStages_locks (hg : (s.port p).goodRow ≥ 1) :
    (markerStages s p k j lane tag map rxOk arrival bip true ok).Ensures fun t => t.f (F.PORT_AM_STAT_am_lock p) = 1 := by
  refine ensures_later <| ensures_later <| ensures_now (ensures_later <| ensures_now ?_ leads_nil) <| leads_cons (markerServed_mark hp e (.inl (by decide))) leads_nil
  rw [decide_eq_true hg]
  exact setF_ensures

end

/-! A lock that is lost (R184). -/

/-- The lock goes with its event, then the lane. -/
def lockLost (p k j : Nat) : Prog :=
  block [setF (F.PORT_AM_STAT_am_lock p) 0, raise (R.PORT_TRK_EVENT p) 1, updPort p fun x => { x with goodRow := 0, badRow := 0, rejoin := 0 },
    loseLane k j caneDrop]

theorem run_markerMiss (hk : s.caneOf p = some (k, j)) (hl : s.bit (F.PORT_AM_STAT_am_lock p) = true) :
    run (markerMiss p caneDrop) s = run (lockLost p k j) s := by
  unfold markerMiss
  rw [run_read, hk, run_ifSome_some, run_when, if_pos hl]
  rfl

theorem lockLost_unlocked (hp : p < 64) (e : p = 2 * k + j) : (lockLost p k j).Ensures fun t => t.f (F.PORT_AM_STAT_am_lock p) = 0 :=
  ensures_now setF_ensures <| leads_cons (maintains_f (spares_raise.2 (home_ne hp))) <| leads_cons updPort_mark <|
    leads_cons (loseLane_mark hp (.inl (by decide)) e) leads_nil

theorem lockLost_raised (hp : p < 64) : (lockLost p k j).Ensures fun t => t.raised (R.PORT_TRK_EVENT p) 1 = true :=
  ensures_later <| ensures_now (raised_raise (by decide)) <| leads_cons (raised_spared fun _ => id) <| leads_cons (raised_spared (loseLane_track hp)) leads_nil

/-! The waits (R183, R184). -/

/-- The entry of DEGRADED. -/
def caneDegrades (k : Nat) : Prog :=
  block [setF (F.CANE_STAT_state k) cnDegraded, block [raise (R.CANE_EVENT k) 1, updCane k fun x => { x with formWait := false }]]

theorem run_formWaitExpire (hf : s.cst k = cnForming) (hw : (s.cane k).formWait = true) (hd : s.bit (F.CANE_CFG_policy k) = false) :
    run (formWaitExpire k) s = run (caneDegrades k) s := by
  unfold formWaitExpire
  rw [run_read, run_when, if_pos (by simp [hf, hw, hd])]
  rfl

theorem caneDegrades_writes : (caneDegrades k).Writes [R.CANE_STAT k, R.CANE_EVENT k] :=
  ⟨writes_setF.2 (by simp [F.CANE_STAT_state]), ⟨writes_raise.2 (by simp), fun _ => trivial, trivial⟩, trivial⟩

theorem caneDegrades_state (hk : k < 4) : (caneDegrades k).Ensures fun t => t.cst k = cnDegraded := by
  have hne : R.CANE_EVENT k ≠ R.CANE_STAT k := by
    simp only [R.CANE_EVENT, R.CANE_STAT, at1, if_pos hk]
    omega
  exact ensures_now setF_ensures <| leads_cons (leads_cons (maintains_f (spares_raise.2 hne)) <| leads_cons (maintains_f fun _ => id) leads_nil) leads_nil

theorem caneDegrades_waitless : (caneDegrades k).Ensures fun t => (t.cane k).formWait = false :=
  ensures_later <| ensures_now (ensures_later <| ensures_now (updCane_ensures (A := fun x => x.formWait = false) fun _ => rfl) leads_nil) leads_nil

theorem caneDegrades_raised : (caneDegrades k).Ensures fun t => t.raised (R.CANE_EVENT k) 1 = true :=
  ensures_later <| ensures_now (ensures_now (raised_raise (by decide)) <| leads_cons (raised_spared fun _ => id) leads_nil) leads_nil

theorem rejoinHoldExpire_writes : (rejoinHoldExpire p).Writes [] := fun _ => all_ifSome_i fun _ => all_when_i writes_updPort

theorem run_rejoinHoldExpire (hk : s.caneOf p = some (k, j)) (hr : (s.port p).rejoin = 1) (hm : s.laneMeets k j = true) :
    run (rejoinHoldExpire p) s = run (updPort p fun x => { x with rejoin := 2 }) s := by
  unfold rejoinHoldExpire
  rw [run_read, hk, run_ifSome_some, run_when, if_pos (by simp [hr, hm])]

end Sys2Proof.Machine

namespace Sys2Proof.Proofs
open Sys2Proof Sys2Proof.Machine

/-- Settles O6: a marker and a lost lock are shown first, and the moves of the cane that follow write only the admission of the same word;
the two waits run their own few actions. -/
theorem caneLanesAndMarkers : Obligations.CaneLanesAndMarkers := by
  refine ⟨fun p lane tag map rxOk arrival bip s hs hc hup hm => ?_, fun p s hs hc hl => ?_, fun k s hs hf hw hd => ?_, fun p s hs hr hm => ?_⟩
  · obtain ⟨⟨k, j⟩, hk⟩ := Option.ne_none_iff_exists'.1 hc
    have e := port_of_caneOf hk
    obtain ⟨good, ok, er, hgood⟩ := run_alignmentMarker (lane := lane.toNat) (tag := tag.toNat) (map := map.toNat) (rxOk := rxOk.toNat)
      (arrival := arrival) (bip := bip) hk hup hm
    obtain ⟨h1, h2, h3, h4⟩ := markerStages_shows (s := s) (arrival := arrival) (bip := bip) (good := good) (ok := ok) p.isLt e tag.isLt lane.isLt map.isLt
      rxOk.isLt s hs trivial
    rw [← er] at h1 h2 h3 h4
    refine acts_finish (alignmentMarker p lane.toNat tag.toNat map.toNat rxOk.toNat arrival bip caneDrop) rfl ⟨h1, h2, h3, h4, fun hpage hrow => ?_,
      run_frame_of (K := 0x6000000000000000004F00000000000000000000000000000000000000000000000000000000000000000000000003000000D0 ||| moveMask)
        (alignmentMarker_kinds (by decide +kernel) _ _ _ _ _ _ _ caneDrop fun q => (caneDrop_kinds q).sub) hs _ _ (by decide) (by decide) (by decide)
        (by decide +kernel) (fun q => by cases q <;> decide), fun h => absurd h hc⟩
    rw [er, hgood hpage]
    exact markerStages_locks p.isLt e hrow s hs trivial
  · obtain ⟨⟨k, j⟩, hk⟩ := Option.ne_none_iff_exists'.1 hc
    refine acts_finish (markerMiss p caneDrop) rfl ⟨?_, ?_,
      run_frame_of (K := 0x6000000000000000000900000000000000000000000000000000000000000000000000000000000000000000000003000000D0 ||| moveMask)
        (markerMiss_kinds (by decide +kernel) _ caneDrop fun q => (caneDrop_kinds q).sub) hs _ _ (by decide) (by decide) (by decide)
        (by decide +kernel) (fun q => by cases q <;> decide), fun h => absurd h hc⟩
    · rw [run_markerMiss hk hl]
      exact lockLost_unlocked p.isLt (port_of_caneOf hk) s hs trivial
    · rw [run_markerMiss hk hl]
      exact lockLost_raised p.isLt s hs trivial
  · have er := run_formWaitExpire hf hw hd
    refine acts_finish (formWaitExpire k) rfl ⟨?_, ?_, ?_, ?_, keeps_of (formWaitExpire_kinds k) hs _⟩
    all_goals rw [er]
    · exact caneDegrades_state k.isLt s hs trivial
    · exact caneDegrades_waitless s hs trivial
    · exact caneDegrades_raised s hs trivial
    · exact fun off _ hoff _ => onlyWords_of caneDegrades_writes hs off hoff
  · split at hm
    next kj hk =>
      have er := run_rejoinHoldExpire (k := kj.1) (j := kj.2) hk hr hm
      refine acts_finish (rejoinHoldExpire p) rfl ⟨?_, onlyWords_of rejoinHoldExpire_writes hs, keeps_of (rejoinHoldExpire_kinds p) hs _⟩
      rw [er]
      exact updPort_ensures (B := fun x => x.rejoin = 2) (fun _ => rfl) s hs trivial
    next => cases hm

end Sys2Proof.Proofs
end

section
/-!
SUPPORT. Programs that change what one port holds alone; programs that write words of a list or of a few tables (R190, R195 to R199).
-/
set_option Elab.async false
namespace Sys2Proof.Machine

variable {p q k j K off n : Nat} {s t : State} {prog : Prog} {A : PortX → Prop} {offs : List Nat} {ids : List RegId}

/-! Programs that change what one port holds. -/

/-- An action that changes what a port holds is about port q. -/
def Act.onPort (q : Nat) : Act → Prop
  | .port r _ => r = q
  | _ => True

/-- A program changes what port q holds, and no other port. -/
abbrev Prog.OnPort (q : Nat) (prog : Prog) : Prop := Prog.All (Act.onPort q) prog

theorem onPort_of (h : Prog.All (Act.among K) prog) (h6 : K.testBit 6 = false := by decide) : prog.OnPort q := h.imp fun a ha => by
  cases a
  case port r x => exact absurd (show K.testBit 6 = true from ha) (by simp [h6])
  all_goals exact trivial

theorem apply_port_ne {a : Act} (h : a.onPort q) (hne : q ≠ p) (hs : s.ok = true) : (apply a s).port p = s.port p := by
  unfold State.port
  rw [apply_ports]
  split
  · obtain rfl : _ = q := h
    exact SMap.getD_putD_ne _ (Ne.symm hne) _ _ _ (ok_ports_sorted hs)
  · rfl

/-- Another port holds what it held. -/
theorem Prog.OnPort.others (h : prog.OnPort q) (hne : q ≠ p) : prog.Maintains fun s => A (s.port p) := fun s hs ha =>
  (run_keeps (P := fun t => t.ok = true ∧ A (t.port p))
    (fun a t hc ⟨ht, hx⟩ => ⟨apply_ok a t ht, (apply_port_ne hc hne ht).symm ▸ hx⟩) prog h s ⟨hs, ha⟩).2

theorem setMode_onPort {mode role : Nat} : (setMode q mode role).OnPort q := onPort_of (setMode_kinds q mode role)

theorem qualIdle_onPort : (qualIdle q).OnPort q := onPort_of (qualIdle_kinds q)

theorem raise_onPort {o b : Nat} : (raise o b).OnPort q := fun _ => ⟨all_when_i trivial, trivial, trivial⟩

theorem updPort_onPort {g : PortX → PortX} : (updPort q g).OnPort q := fun _ => rfl

theorem setF_onPort {F : Field} {v : Nat} : (setF F v).OnPort q := fun _ => trivial

theorem enterRest_onPort {st : Nat} : (enterRest q st).OnPort q :=
  ⟨setF_onPort, setMode_onPort, qualIdle_onPort, updPort_onPort, all_when_i raise_onPort, trivial⟩

theorem clearPartner_onPort : (clearPartner q).OnPort q :=
  ⟨trivial, trivial, ⟨trivial, trivial, trivial⟩, all_when_i ⟨setF_onPort, setF_onPort, setF_onPort, setF_onPort, setF_onPort, trivial⟩,
    updPort_onPort, trivial⟩

theorem enterListen_onPort {b : Bool} : (enterListen q b).OnPort q :=
  ⟨setF_onPort, setMode_onPort, qualIdle_onPort, clearPartner_onPort, updPort_onPort, trivial⟩

theorem dropRecord_onPort {cause unc : Nat} : (dropRecord q cause unc).OnPort q := fun _ =>
  ⟨onPort_of (dropEntry_kinds q _ _ _), fun _ => setF_onPort, raise_onPort, trivial, updPort_onPort, trivial⟩

theorem sleepRest_onPort : (sleepRest q).OnPort q := fun _ =>
  ⟨enterRest_onPort, setF_onPort, all_when_i ⟨onPort_of (setPending_kinds q _), updPort_onPort, trivial⟩, trivial⟩

theorem dropCore_onPort {cause unc : Nat} : (dropCore q cause unc).OnPort q := fun _ => by
  dsimp only
  split
  · exact ⟨updPort_onPort, sleepRest_onPort, trivial⟩
  · refine ⟨dropRecord_onPort, ?_, trivial⟩
    split
    · exact ⟨raise_onPort, enterRest_onPort, trivial⟩
    · exact enterListen_onPort

theorem endLoop_onPort {r : Nat} : (endLoop q r).OnPort q := fun _ =>
  all_when_i ⟨setF_onPort, setF_onPort, all_ifSome_i fun _ => trivial, all_when_i updPort_onPort, updPort_onPort, trivial⟩

theorem segIdle_onPort : (segIdle q).OnPort q := ⟨setF_onPort, setF_onPort, setF_onPort, updPort_onPort, trivial⟩

theorem reclaimAsk_onPort : (reclaimAsk q).OnPort q := fun _ => all_when_i (by
  split
  · exact updPort_onPort
  · exact ⟨updPort_onPort, all_each_i fun _ => onPort_of (updFur_kinds _), trivial⟩)

theorem linkDark_onPort : (linkDark q).OnPort q := fun _ =>
  ⟨all_when_i endLoop_onPort, setF_onPort, setF_onPort, setF_onPort, setF_onPort, setF_onPort, updPort_onPort, all_when_i segIdle_onPort,
    onPort_of (calQuiet_kinds q), onPort_of (tbPortLost_kinds q), fun _ => all_when_i reclaimAsk_onPort, trivial⟩

theorem laneDark_onPort : (laneDark q).OnPort q := fun _ =>
  all_ifSome_i fun _ => ⟨setF_onPort, setF_onPort, updPort_onPort, onPort_of (upLanes_kinds _), trivial⟩

theorem caneDrop_onPort : (caneDrop q).OnPort q := fun _ =>
  ⟨dropCore_onPort, linkDark_onPort, laneDark_onPort, all_when_i fun _ => all_when_i updPort_onPort, onPort_of (refreshBundleOf_kinds q), trivial⟩

/-- A lane that is lost leaves its port what a forgotten rejoin lets it keep: the ports dropped with it are others, and the markers sent
are extra ones. -/
theorem loseLane_port (e : p = 2 * k + j) (hr : ∀ x, A x → A { x with rejoin := 0 }) :
    (loseLane k j caneDrop).Maintains fun s => A (s.port p) := leads_read fun _ _ _ => maintains_when fun _ => by
  have hc : ∀ st, (setCane k st).Maintains fun s => A (s.port p) := fun st => maintains_port (setCane_kinds k st)
  have hmark : ∀ i, (sendMarker k i true).Maintains fun s => A (s.port p) := fun i => leads_read fun _ _ _ => leads_read fun _ _ _ =>
    leads_cons (fun _ _ h => h) <| leads_cons (fun _ _ h => h) <| leads_cons leads_skip leads_nil
  refine leads_cons setF_port <| leads_cons setF_port <| leads_cons (updPort_any hr) <| leads_cons (maintains_port (updCane_kinds k _)) <|
    leads_cons ?_ <| leads_cons (maintains_when fun _ => maintains_each fun i _ => leads_read fun _ _ _ => maintains_when fun hi => ?_) <|
    leads_cons (leads_read fun _ _ _ => maintains_when fun _ => leads_cons (maintains_port (updCane_kinds k _)) <| leads_cons raise_port <|
      leads_cons (maintains_each fun i _ => hmark i) leads_nil) <|
    leads_cons (maintains_port (upLanes_kinds k)) leads_nil
  · split
    · exact hc _
    · exact maintains_when fun _ => hc _
  · simp only [Bool.and_eq_true, bne_iff_ne, ne_eq] at hi
    exact caneDrop_onPort.others (by omega)

/-! Words of a list, and words of a few tables. -/

/-- A word that the action writes is one of those named, or lies in a table of the mask. -/
def Act.inside (offs : List Nat) (K : Nat) (a : Act) : Prop := a.inWords offs ∨ a.among K

/-- A program that writes no words but those named and those of the mask's tables. -/
abbrev Prog.Inside (offs : List Nat) (K : Nat) (prog : Prog) : Prop := Prog.All (Act.inside offs K) prog

theorem Prog.Writes.inside (h : prog.Writes offs) : prog.Inside offs K := h.imp fun _ => .inl

theorem inside_of (h : Prog.All (Act.among K) prog) : prog.Inside offs K := h.imp fun _ => .inr

theorem Prog.Inside.spares (h : prog.Inside offs K) (ho : off ∉ offs) (hl : ¬ lies off K) : prog.Spares off := h.imp fun a ha hw => by
  cases a
  case reg o w =>
    obtain rfl : o = off := hw
    exact ha.elim ho hl
  all_goals exact hw

/-- What such a program leaves as it was. -/
theorem Prog.Inside.onlyIn (h : prog.Inside offs K) (hs : s.ok = true) (h62 : K.testBit 62 = false := by decide) (h63 : K.testBit 63 = false := by decide)
    (hc : covers ids K = true := by decide +kernel) : OnlyIn offs ids s (run prog s) := fun off hoff ho hno =>
  run_reg_frame off prog (h.spares ho (not_lies_of_covers hoff hno h62 h63 hc)) s (State.ok_regs_sorted hs)

end Sys2Proof.Machine
end

section
/-!
SUPPORT. Test loops: what refuses one, what starts one, what ends one (R195 to R199).
-/
set_option Elab.async false
namespace Sys2Proof.Machine

variable {p k j n r c K req kind mode force source noWait errs : Nat} {s t : State} {prog granted queued refused : Prog} {b : Booking}
  {P Q : State → Prop} {offs : List Nat}

theorem alone_PORT_LOOP_CTL : alone 344 = true := by decide +kernel
theorem alone_PORT_LOOP_STAT : alone 346 = true := by decide +kernel
theorem alone_PORT_LOOP_BITS : alone 347 = true := by decide +kernel

section
variable (hp : p < 64)
include hp

theorem apart_PORT_LOOP_CTL (h62 : K.testBit 62 = false) (h63 : K.testBit 63 = false) (h : K.testBit 408 = false) : ¬ lies (R.PORT_LOOP_CTL p) K :=
  not_lies_at1 (k := 344) (words := 1) (w := 0) alone_PORT_LOOP_CTL rfl hp (by decide) (by decide) (by decide) (by decide) h62 h63 h

theorem apart_PORT_LOOP_STAT (h62 : K.testBit 62 = false) (h63 : K.testBit 63 = false) (h : K.testBit 410 = false) : ¬ lies (R.PORT_LOOP_STAT p) K :=
  not_lies_at1 (k := 346) (words := 1) (w := 0) alone_PORT_LOOP_STAT rfl hp (by decide) (by decide) (by decide) (by decide) h62 h63 h

/-- The bundles of a port leave its loop words. -/
theorem refreshNear_loopStat : (refreshNear p).Spares (R.PORT_LOOP_STAT p) :=
  spares_own (refreshNear_kinds p) (apart_PORT_LOOP_STAT hp (by decide) (by decide) (by decide))

theorem refreshNear_loopBits : (refreshNear p).Maintains fun s => s.wide (R.PORT_LOOP_BITS p) 2 = n :=
  maintains_wide
    (spares_own (refreshNear_kinds p) (not_lies_at1 (k := 347) (words := 2) (w := 0) alone_PORT_LOOP_BITS rfl hp (by decide) (by decide) (by decide)
      (by decide) (by decide) (by decide) (by decide)))
    (spares_own (refreshNear_kinds p) (not_lies_at1 (k := 347) (words := 2) (w := 4) alone_PORT_LOOP_BITS rfl hp (by decide) (by decide) (by decide)
      (by decide) (by decide) (by decide) (by decide)))

end

/-- A field of a word of the port beside a value of two words. -/
theorem setF_besideWide {x y hi lo v : Nat} (hp : p < 64) (h : x ≠ y ∧ x ≠ y + 4 := by decide) :
    (setF ⟨at1 x 0x10000 64 p, hi, lo⟩ v).Maintains fun s => s.wide (at1 y 0x10000 64 p) 2 = n := by
  obtain ⟨h1, h2⟩ := h
  have e : ∀ a, at1 a 0x10000 64 p = a + p * 0x10000 := fun a => if_pos hp
  have h0 : at1 x 0x10000 64 p ≠ at1 y 0x10000 64 p := by rw [e, e]; omega
  have h4 : at1 x 0x10000 64 p ≠ at1 y 0x10000 64 p + 4 := by rw [e, e]; omega
  exact maintains_wide (spares_setF.2 h0) (spares_setF.2 h4)

/-! A request to the ledger. -/

/-- The kinds of the actions of a request to the ledger. -/
def ledgerMask : Nat := 0xA0000000000000000000000000000000000000000000000000000410

/-- What each answer of the ledger brings about, where its own actions keep the premise. -/
theorem ledgerRequest_leads (hk : ∀ {prog}, Prog.All (Act.among ledgerMask) prog → prog.Maintains P) (hg : granted.Leads P Q) (hq : queued.Leads P Q)
    (hr : refused.Leads P Q) {nw : Bool} : (ledgerRequest b nw granted queued refused).Leads P Q := leads_read fun _ _ _ => by
  have hstat : ∀ {F : Field} {v : Nat}, F.off = R.DIAG_LEDGER_STAT → (setF F v).Maintains P := fun e =>
    hk (setF_kinds _ _ (e ▸ lies_DIAG_LEDGER_STAT (tb rfl)))
  split
  · exact leads_cons (hk (tb rfl : ledgerMask.testBit 10 = true)) <| leads_cons hg leads_nil
  · split
    · exact leads_cons (hstat rfl) <| leads_cons hr leads_nil
    · split
      · exact leads_cons (hstat rfl) <| leads_cons (leads_read fun _ _ _ => hstat rfl) <|
          leads_cons (hk (raise_kinds _ _ (tb rfl) (lies_DIAG_EVENT (tb rfl)))) <| leads_cons hr leads_nil
      · exact leads_cons (hk (tb rfl : ledgerMask.testBit 10 = true)) <| leads_cons hq leads_nil

/-! The start of a loop. -/

/-- The settings of a loop, as a start writes them. -/
def loopSet (p mode noWait force source kind : Nat) : Prog :=
  block [setF (F.PORT_LOOP_CTL_mode p) mode, setF (F.PORT_LOOP_CTL_no_wait p) noWait, setF (F.PORT_LOOP_CTL_force p) force,
    setF (F.PORT_LOOP_CTL_source p) source, setF (F.PORT_LOOP_CTL_kind p) kind]

/-- A loop that is refused with its code. -/
def loopRefused (p c : Nat) : Prog := block [setF (F.PORT_LOOP_STAT_state p) 4, setF (F.PORT_LOOP_STAT_result p) c]

/-- A loop that R196 lets start: the ledger grants it, queues it, or refuses it. -/
def loopAsked (s : State) (req p : Nat) : Prog :=
  ledgerRequest (portBooking s req (loopAct (s.f (F.PORT_LOOP_CTL_kind p))) p) (s.bit (F.PORT_LOOP_CTL_no_wait p)) (loopRun p)
    (setF (F.PORT_LOOP_STAT_state p) 1) (loopRefused p 7)

/-- A trunk or branch that runs no loop and waits for none. -/
structure LoopFree (s : State) (p : Nat) : Prop where
  idle : (s.port p).loop = 0
  unqueued : s.f (F.PORT_LOOP_STAT_state p) ≠ 1
  line : portClass p ≠ .segment

theorem run_loopCtlWrite (h : (s.port p).loop = 0) : run (loopCtlWrite req p mode noWait force source kind true false) s =
    run (loopStart req p) (run (loopSet p mode noWait force source kind) s) := by
  unfold loopCtlWrite
  rw [run_read, h]
  rfl

theorem LoopFree.run_loopStart (h : LoopFree s p) (hk : s.f (F.PORT_LOOP_CTL_kind p) ≠ 0) :
    run (loopStart req p) s = run (if s.loopRefusal p ≠ 0 then loopRefused p (s.loopRefusal p) else loopAsked s req p) s := by
  obtain ⟨h0, h1, hl⟩ := h
  unfold loopStart
  rw [run_read]
  dsimp only
  rw [run_when, if_pos (by simp [h0, h1, hl, hk])]
  rfl

theorem loopSet_kind (hk : kind < 2 ^ 2) : (loopSet p mode noWait force source kind).Ensures fun s => s.f (F.PORT_LOOP_CTL_kind p) = kind :=
  ensures_later <| ensures_later <| ensures_later <| ensures_later <| ensures_now (setF_ensures hk) leads_nil

theorem loopSet_mode (hm : mode < 2 ^ 4) : (loopSet p mode noWait force source kind).Ensures fun s => s.f (F.PORT_LOOP_CTL_mode p) = mode :=
  ensures_now (setF_ensures hm) <| leads_cons setF_beside <| leads_cons setF_beside <| leads_cons setF_beside <| leads_cons setF_beside leads_nil

/-- The settings are one word. -/
theorem loopSet_writes : (loopSet p mode noWait force source kind).Writes [R.PORT_LOOP_CTL p] :=
  ⟨writes_setF.2 (List.mem_singleton.2 rfl), writes_setF.2 (List.mem_singleton.2 rfl), writes_setF.2 (List.mem_singleton.2 rfl),
    writes_setF.2 (List.mem_singleton.2 rfl), writes_setF.2 (List.mem_singleton.2 rfl), trivial⟩

/-- Its codes are those of R196. -/
theorem loopRefusal_lt : s.loopRefusal p < 16 := by
  unfold State.loopRefusal
  dsimp only
  split_ifs <;> decide

/-- A far-end loop needs a link. -/
theorem loopRefusal_farEnd (hk : s.f (F.PORT_LOOP_CTL_kind p) = 3) (h : s.pst p ≠ stUp) : s.loopRefusal p = 4 := by
  simp [State.loopRefusal, hk, h]

/-- What a start may leave: the loop queued, running with its counters zero, or refused with a code. -/
def LoopAnswered (p kind : Nat) (u : State) : Prop :=
  u.f (F.PORT_LOOP_STAT_state p) = 1 ∨
  (u.f (F.PORT_LOOP_STAT_state p) = 2 ∧ (u.port p).loop = kind ∧ u.wide (R.PORT_LOOP_BITS p) 2 = 0) ∨
  (u.f (F.PORT_LOOP_STAT_state p) = 4 ∧ u.f (F.PORT_LOOP_STAT_result p) ≠ 0 ∧ (u.port p).loop = 0)

theorem loopRefused_shows (hc : c < 16) : (loopRefused p c).Ensures fun u => u.f (F.PORT_LOOP_STAT_state p) = 4 ∧ u.f (F.PORT_LOOP_STAT_result p) = c :=
  fun s hs _ => ⟨(ensures_now setF_ensures <| leads_cons setF_beside leads_nil : (loopRefused p c).Ensures fun u => u.f (F.PORT_LOOP_STAT_state p) = 4) s hs trivial,
    (ensures_later <| ensures_now (setF_ensures hc) leads_nil : (loopRefused p c).Ensures fun u => u.f (F.PORT_LOOP_STAT_result p) = c) s hs trivial⟩

theorem loopQueued_state : (setF (F.PORT_LOOP_STAT_state p) 1).Ensures fun u => u.f (F.PORT_LOOP_STAT_state p) = 1 := setF_ensures

theorem loopRefused_port : (loopRefused p c).Maintains fun s => (s.port p).loop = n :=
  leads_cons (setF_port (A := fun x => x.loop = n)) <| leads_cons (setF_port (A := fun x => x.loop = n)) leads_nil

theorem loopRefused_answers (h0 : c ≠ 0) (hc : c < 16) : (loopRefused p c).Leads (fun s => (s.port p).loop = 0) (LoopAnswered p kind) := fun s hs h =>
  have ⟨h1, h2⟩ := loopRefused_shows hc s hs trivial
  .inr (.inr ⟨h1, fun e => h0 (h2.symm.trans e), loopRefused_port s hs h⟩)

/-- The lane that its port loses. -/
def loopLane (p : Nat) : Prog := .read fun t => ifSome (t.caneOf p) fun kj => loseLane kj.1 kj.2 caneDrop

theorem loopLane_loop : (loopLane p).Maintains fun s => (s.port p).loop = n := leads_read fun t _ _ => by
  cases hk : t.caneOf p with
  | none => exact leads_skip
  | some kj => exact loseLane_port (A := fun x => x.loop = n) (port_of_caneOf hk) fun _ h => h

/-- A loop runs: its counters from zero, its state, the bundles near its port. -/
def loopRunning (p : Nat) : Prog :=
  block [setWide (R.PORT_LOOP_BITS p) 2 0, setWide (R.PORT_LOOP_ERRS p) 2 0, setF (F.PORT_LOOP_STAT_state p) 2, setF (F.PORT_LOOP_STAT_result p) 0,
    refreshNear p]

theorem loopRunning_loop : (loopRunning p).Maintains fun u => (u.port p).loop = n :=
  leads_cons (setWide_port (A := fun x => x.loop = n)) <| leads_cons (setWide_port (A := fun x => x.loop = n)) <|
    leads_cons (setF_port (A := fun x => x.loop = n)) <| leads_cons (setF_port (A := fun x => x.loop = n)) <|
    leads_cons (maintains_port (A := fun x => x.loop = n) (refreshNear_kinds p)) leads_nil

section
variable (hp : p < 64)
include hp

theorem loopRunning_state : (loopRunning p).Ensures fun u => u.f (F.PORT_LOOP_STAT_state p) = 2 :=
  ensures_later <| ensures_later <| ensures_now setF_ensures <| leads_cons setF_beside <| leads_cons (maintains_f (refreshNear_loopStat hp)) leads_nil

theorem loopRunning_bits : (loopRunning p).Ensures fun u => u.wide (R.PORT_LOOP_BITS p) 2 = 0 :=
  ensures_now setWide_ensures_zero <| leads_cons (setWide_beside hp) <| leads_cons (setF_besideWide hp) <| leads_cons (setF_besideWide hp) <|
    leads_cons (refreshNear_loopBits hp) leads_nil

/-- A granted loop runs as its kind, from zero; its link and its lane go first. -/
theorem loopRun_answers : (loopRun p).Leads (fun s => s.f (F.PORT_LOOP_CTL_kind p) = kind) (LoopAnswered p kind) := leads_read fun _ _ hk =>
  leads_cons (R := fun _ => True) (fun _ _ _ => trivial) <| leads_cons (R := fun _ => True) (fun _ _ _ => trivial) <|
    leads_cons (updPort_ensures (B := fun x => x.loop = kind) fun _ => hk) <| leads_cons loopLane_loop fun t ht h =>
      .inr (.inl ⟨loopRunning_state hp t ht trivial, loopRunning_loop t ht h, loopRunning_bits hp t ht trivial⟩)

/-- What a start answers where its settings hold. -/
theorem loopStart_answers (hs : s.ok = true) (h : LoopFree s p) (hk0 : kind ≠ 0) (hk : s.f (F.PORT_LOOP_CTL_kind p) = kind) :
    LoopAnswered p kind (run (loopStart req p) s) := by
  rw [h.run_loopStart (hk ▸ hk0)]
  split
  next hc => exact loopRefused_answers hc loopRefusal_lt s hs h.idle
  next =>
    refine ledgerRequest_leads (P := fun t => t.f (F.PORT_LOOP_CTL_kind p) = kind ∧ (t.port p).loop = 0) (Q := LoopAnswered p kind) (fun hm t ht ha => ?_)
      (fun t ht ha => loopRun_answers hp t ht ha.1) (fun t ht _ => .inl (loopQueued_state t ht trivial))
      (fun t ht ha => loopRefused_answers (by decide) (by decide) t ht ha.2) s hs ⟨hk, h.idle⟩
    exact ⟨maintains_f (spares_own hm (apart_PORT_LOOP_CTL hp (by decide) (by decide) (by decide))) t ht ha.1,
      maintains_port (A := fun x => x.loop = 0) hm (by decide) t ht ha.2⟩

/-- A start leaves the settings. -/
theorem loopStart_settings : (loopStart req p).Spares (R.PORT_LOOP_CTL p) :=
  spares_own (loopStart_kinds req p) (apart_PORT_LOOP_CTL hp (by decide) (by decide) (by decide))

omit hp in
theorem loopStart_farEnd (hs : s.ok = true) (h : LoopFree s p) (hk : s.f (F.PORT_LOOP_CTL_kind p) = 3) (hup : s.pst p ≠ stUp) :
    (run (loopStart req p) s).f (F.PORT_LOOP_STAT_state p) = 4 ∧ (run (loopStart req p) s).f (F.PORT_LOOP_STAT_result p) = 4 := by
  rw [h.run_loopStart (by rw [hk]; decide), loopRefusal_farEnd hk hup]
  exact loopRefused_shows (by decide) s hs trivial

theorem loopSet_stat : (loopSet p mode noWait force source kind).Spares (R.PORT_LOOP_STAT p) := loopSet_writes.spares fun h =>
  (home_ne hp : R.PORT_LOOP_STAT p ≠ R.PORT_LOOP_CTL p) (List.mem_singleton.1 h)

theorem loopSet_state : (loopSet p mode noWait force source kind).Spares (R.PORT_STATE p) := loopSet_writes.spares fun h =>
  (home_ne hp : R.PORT_STATE p ≠ R.PORT_LOOP_CTL p) (List.mem_singleton.1 h)

/-- The settings written leave the port as free as it was. -/
theorem LoopFree.set (h : LoopFree s p) (hs : s.ok = true) : LoopFree (run (loopSet p mode noWait force source kind) s) p :=
  have e : (run (loopSet p mode noWait force source kind) s).f (F.PORT_LOOP_STAT_state p) = s.f (F.PORT_LOOP_STAT_state p) := maintains_f (loopSet_stat hp) s hs rfl
  ⟨h.idle, e.trans_ne h.unqueued, h.line⟩

end

/-! The other ports. -/

theorem loopRun_apart (hc : s.caneOf p = none) : (loopRun p).Maintains (Apart p s) := leads_read fun _ _ _ =>
  leads_cons (maintains_when fun _ => leads_read fun _ _ _ => portDrop_apart hc) <| leads_cons (maintains_when fun _ => toListen_apart hc) <|
    leads_cons updPort_confined.apart <| leads_cons (leads_read fun t _ ht => by rw [ht.caneOf, hc]; exact leads_skip) <|
    leads_cons (Prog.Confined.apart setWide_confined) <| leads_cons (Prog.Confined.apart setWide_confined) <|
    leads_cons (Prog.Confined.apart setF_confined) <| leads_cons (Prog.Confined.apart setF_confined) <| leads_cons refreshNear_confined.apart leads_nil

theorem loopRefused_confined : (loopRefused p c).Confined p := ⟨setF_confined, setF_confined, trivial⟩

theorem loopStart_apart (hc : s.caneOf p = none) : (loopStart req p).Maintains (Apart p s) := leads_read fun _ _ _ => maintains_when fun _ => by
  split
  · exact loopRefused_confined.apart
  · exact ledgerRequest_leads (fun hm => (confined_of hm).apart) (loopRun_apart hc) (Prog.Confined.apart setF_confined) loopRefused_confined.apart

theorem loopStop_confined : (loopStop p).Confined p := ⟨abortLoop_confined, refreshNear_confined, trivial⟩

theorem loopCtlWrite_apart {start stop : Bool} (hc : s.caneOf p = none) :
    (loopCtlWrite req p mode noWait force source kind start stop).Maintains (Apart p s) := leads_read fun _ _ _ =>
  leads_cons (maintains_when fun _ => loopStop_confined.apart) <| leads_cons (maintains_when fun _ => Prog.Confined.apart
    ⟨setF_confined, setF_confined, setF_confined, setF_confined, setF_confined, trivial⟩) <| leads_cons (maintains_when fun _ => loopStart_apart hc) leads_nil

/-! The end of a loop. -/

/-- A loop has ended with a result. -/
structure LoopEnded (p r : Nat) (u : State) : Prop where
  idle : (u.port p).loop = 0
  state : u.f (F.PORT_LOOP_STAT_state p) = 3
  result : u.f (F.PORT_LOOP_STAT_result p) = r

/-- A program of other words and other parts. -/
theorem LoopEnded.kept (h : prog.Spares (R.PORT_LOOP_STAT p)) (hx : prog.Maintains fun s => (s.port p).loop = 0) : prog.Maintains (LoopEnded p r) :=
  fun s hs ⟨h1, h2, h3⟩ => ⟨hx s hs h1, maintains_f h s hs h2, maintains_f h s hs h3⟩

theorem endLoop_ends (hr : r < 16) : (endLoop p r).Leads (fun s => (s.port p).loop ≠ 0) (LoopEnded p r) := leads_read fun s _ h => by
  rw [bne_iff_ne.2 h]
  have hw : ∀ {g : PortX → PortX} {c : Bool} {n hi lo : Nat}, (when c (updPort p g)).Maintains fun u => u.f ⟨R.PORT_LOOP_STAT p, hi, lo⟩ = n := fun {_ _ _ _ _} =>
    maintains_when fun _ => maintains_f fun _ => id
  have hl : ∀ {n hi lo : Nat}, (ifSome (s.loopBooking p) fun b => .act (.release b)).Maintains fun u => u.f ⟨R.PORT_LOOP_STAT p, hi, lo⟩ = n := fun {_ _ _} =>
    maintains_ifSome fun _ _ _ e => e
  refine fun t ht _ => ⟨?_, ?_, ?_⟩
  · exact (ensures_later <| ensures_later <| ensures_later <| ensures_later <| ensures_now (updPort_ensures (B := fun x => x.loop = 0) fun _ => rfl) leads_nil :
      (block [_, _, _, _, _]).Ensures fun u => (u.port p).loop = 0) t ht trivial
  · exact (ensures_now setF_ensures <| leads_cons setF_beside <| leads_cons hl <| leads_cons hw <| leads_cons (maintains_f fun _ => id) leads_nil :
      (block [_, _, _, _, _]).Ensures fun u => u.f (F.PORT_LOOP_STAT_state p) = 3) t ht trivial
  · exact (ensures_later <| ensures_now (setF_ensures hr) <| leads_cons hl <| leads_cons hw <| leads_cons (maintains_f fun _ => id) leads_nil :
      (block [_, _, _, _, _]).Ensures fun u => u.f (F.PORT_LOOP_STAT_result p) = r) t ht trivial

/-- A queued loop leaves the queue ABORTED. -/
def loopUnqueued (s : State) (p : Nat) : Prog :=
  block [setF (F.PORT_LOOP_STAT_state p) 3, setF (F.PORT_LOOP_STAT_result p) 2,
    ifSome (s.ledger.queue.find? fun b => (b.act == 4 || b.act == 5 || b.act == 6) && b.ports.contains p) fun b => .act (.dequeue b)]

theorem loopUnqueued_shows : (loopUnqueued s p).Ensures fun u => u.f (F.PORT_LOOP_STAT_state p) = 3 ∧ u.f (F.PORT_LOOP_STAT_result p) = 2 := fun t ht _ =>
  ⟨(ensures_now setF_ensures <| leads_cons setF_beside <| leads_cons (maintains_ifSome fun _ _ _ e => e) leads_nil :
      (loopUnqueued s p).Ensures fun u => u.f (F.PORT_LOOP_STAT_state p) = 3) t ht trivial,
    (ensures_later <| ensures_now setF_ensures <| leads_cons (maintains_ifSome fun _ _ _ e => e) leads_nil :
      (loopUnqueued s p).Ensures fun u => u.f (F.PORT_LOOP_STAT_result p) = 2) t ht trivial⟩

theorem loopUnqueued_port : (loopUnqueued s p).Maintains fun u => (u.port p).loop = 0 :=
  leads_cons (setF_port (A := fun x => x.loop = 0)) <| leads_cons (setF_port (A := fun x => x.loop = 0)) <| leads_cons (maintains_ifSome fun _ _ _ e => e) leads_nil

theorem abortLoop_ends : (abortLoop p).Leads (fun s => (s.port p).loop ≠ 0) (LoopEnded p 2) := leads_read fun s _ _ =>
  leads_cons (maintains_port (A := fun x => x.loop ≠ 0) (loopCounted_kinds p)) <| leads_cons (endLoop_ends (by decide)) <|
    leads_cons (maintains_when fun _ t ht h =>
      have ⟨h1, h2⟩ := loopUnqueued_shows (s := s) t ht trivial
      ⟨loopUnqueued_port (s := s) t ht h.idle, h1, h2⟩) leads_nil

theorem abortLoop_unqueues (h : s.f (F.PORT_LOOP_STAT_state p) = 1) (hs : s.ok = true) :
    (run (abortLoop p) s).f (F.PORT_LOOP_STAT_state p) = 3 ∧ (run (abortLoop p) s).f (F.PORT_LOOP_STAT_result p) = 2 := by
  unfold abortLoop
  rw [run_read, h]
  exact (ensures_later <| ensures_later <| ensures_now (loopUnqueued_shows (s := s)) leads_nil : (block [_, _, loopUnqueued s p]).Ensures _) s hs trivial

/-- The words of a loop. -/
def loopWords (p : Nat) : List Nat :=
  [R.PORT_LOOP_STAT p, R.PORT_LOOP_BITS p, R.PORT_LOOP_BITS p + 4, R.PORT_LOOP_ERRS p, R.PORT_LOOP_ERRS p + 4]

theorem endLoop_writes : (endLoop p r).Writes (loopWords p) := fun _ =>
  all_when_i ⟨writes_setF.2 List.mem_cons_self, writes_setF.2 List.mem_cons_self, all_ifSome_i fun _ => trivial, all_when_i writes_updPort, writes_updPort,
    trivial⟩

theorem abortLoop_writes : (abortLoop p).Writes (loopWords p) := fun _ =>
  ⟨fun _ => all_when_i fun _ => ⟨trivial, fun _ => ⟨trivial, writes_setWide (by simp [loopWords]) (by simp [loopWords]),
      writes_setWide (by simp [loopWords]) (by simp [loopWords]), trivial⟩⟩, endLoop_writes,
    all_when_i ⟨writes_setF.2 List.mem_cons_self, writes_setF.2 List.mem_cons_self, all_ifSome_i fun _ => trivial, trivial⟩, trivial⟩

/-- The tables of the bundles. -/
def bundleMask : Nat := 0x2500000000000000000000000000000000000000000000000000000000000000000000000000000310

theorem loopStop_inside : (loopStop p).Inside (loopWords p) bundleMask :=
  ⟨abortLoop_writes.inside, inside_of (refreshNear_kinds p), trivial⟩

theorem refreshNear_ended (hp : p < 64) : (refreshNear p).Maintains (LoopEnded p r) :=
  .kept (refreshNear_loopStat hp) (maintains_port (A := fun x => x.loop = 0) (refreshNear_kinds p))

theorem loopStop_ends (hp : p < 64) : (loopStop p).Leads (fun s => (s.port p).loop ≠ 0) (LoopEnded p 2) :=
  leads_cons abortLoop_ends <| leads_cons (refreshNear_ended hp) leads_nil

theorem loopStop_unqueues (hp : p < 64) (h : s.f (F.PORT_LOOP_STAT_state p) = 1) (hs : s.ok = true) :
    (run (loopStop p) s).f (F.PORT_LOOP_STAT_state p) = 3 ∧ (run (loopStop p) s).f (F.PORT_LOOP_STAT_result p) = 2 := by
  obtain ⟨h1, h2⟩ := abortLoop_unqueues h hs
  have hu := run_ok (abortLoop p) s hs
  show (run (refreshNear p) (run (abortLoop p) s)).f _ = 3 ∧ (run (refreshNear p) (run (abortLoop p) s)).f _ = 2
  exact ⟨maintains_f (refreshNear_loopStat hp) _ hu h1, maintains_f (refreshNear_loopStat hp) _ hu h2⟩

/-! The duration of a loop. -/

/-- A loop that has run its time: its bits and errors are counted where it sends PRBS31, then it ends DONE. -/
def loopExpired (s : State) (p bits errs : Nat) : Prog :=
  block [when ((s.port p).loop != 3 && s.f (F.PORT_LOOP_CTL_source p) == 0)
      (block [addWide (R.PORT_LOOP_BITS p) 2 bits, addWide (R.PORT_LOOP_ERRS p) 2 errs]),
    endLoop p 1, refreshNear p]

theorem run_loopDurationExpire (h : (s.port p).loop ≠ 0) (ht : s.reg (R.PORT_LOOP_TIME p) ≠ 0) :
    run (loopDurationExpire p n errs) s = run (loopExpired s p n errs) s := by
  have h' : (s.reg (R.PORT_LOOP_TIME p)).toNat ≠ 0 := fun e => ht (BitVec.eq_of_toNat_eq e)
  unfold loopDurationExpire
  rw [run_read, run_when, if_pos (by simp [h, h'])]
  rfl

theorem loopExpired_ends (hp : p < 64) : (loopExpired s p n errs).Leads (fun t => (t.port p).loop ≠ 0) (LoopEnded p 1) :=
  leads_cons (maintains_when fun _ => leads_cons (leads_read fun _ _ _ => setWide_port (A := fun x => x.loop ≠ 0)) <|
      leads_cons (leads_read fun _ _ _ => setWide_port (A := fun x => x.loop ≠ 0)) leads_nil) <|
    leads_cons (endLoop_ends (by decide)) <| leads_cons (refreshNear_ended hp) leads_nil

theorem endLoop_loopBits (hp : p < 64) : (endLoop p r).Maintains fun s => s.wide (R.PORT_LOOP_BITS p) 2 = n := leads_read fun _ _ _ => maintains_when fun _ =>
  leads_cons (setF_besideWide hp) <| leads_cons (setF_besideWide hp) <| leads_cons (maintains_ifSome fun _ _ _ e => e) <|
    leads_cons (maintains_when fun _ => maintains_wide (fun _ => id) fun _ => id) <| leads_cons (maintains_wide (fun _ => id) fun _ => id) leads_nil

theorem loopExpired_counts (hp : p < 64) (hl : (s.port p).loop ≠ 3) (hsrc : s.f (F.PORT_LOOP_CTL_source p) = 0) {m : Nat} :
    (loopExpired s p n errs).Leads (fun t => t.wide (R.PORT_LOOP_BITS p) 2 = m) fun t => t.wide (R.PORT_LOOP_BITS p) 2 = (m + n) % 2 ^ 64 := by
  refine leads_cons ?_ <| leads_cons (endLoop_loopBits hp) <| leads_cons (refreshNear_loopBits hp) leads_nil
  rw [bne_iff_ne.2 hl, hsrc]
  exact leads_cons addWide_leads <| leads_cons (addWide_beside hp) leads_nil

theorem loopDurationExpire_inside :
    (loopDurationExpire p n errs).Inside (loopWords p) bundleMask := fun _ =>
  all_when_i ⟨Prog.Writes.inside (all_when_i ⟨writes_addWide (by simp [loopWords]) (by simp [loopWords]), writes_addWide (by simp [loopWords]) (by simp [loopWords]),
    trivial⟩), endLoop_writes.inside, inside_of (refreshNear_kinds p), trivial⟩

end Sys2Proof.Machine
end

section
/-!
SUPPORT. The self-tests of the quarters: what starts one, what ends one (R221, R225).
-/
set_option Elab.async false
namespace Sys2Proof.Machine

variable {q i j b K req failed mask : Nat} {s : State} {prog granted queued refused : Prog} {E G : Field} {c d fresh spareFailed : Bool}
  {l offs : List Nat}

/-! One bit of a field. -/

/-- A bit of a field is the bit of its word. -/
theorem bitOf_bits {w : Word} {hi lo : Nat} (h : lo + i ≤ hi) : bitOf (bits w hi lo) i = (bits w (lo + i) (lo + i) == 1) := by
  have hd : 2 ^ i * 2 ∣ 2 ^ (hi + 1 - lo) := ⟨2 ^ (hi - lo - i), by rw [← pow_succ, ← pow_add]; congr 1; omega⟩
  unfold bitOf bits
  rw [Nat.add_sub_cancel_left, pow_one, ← Nat.mod_mul_right_div_self, Nat.mod_mod_of_dvd _ hd, Nat.mod_mul_right_div_self, Nat.div_div_eq_div_mul, ← pow_add]

theorem bitOf_f (h : E.lo + i ≤ E.hi) : bitOf (s.f E) i = s.bit ⟨E.off, E.lo + i, E.lo + i⟩ := bitOf_bits h

theorem setFBit_ensures (h : E.lo + i ≤ E.hi ∧ E.hi < 32) : (setFBit E i c).Ensures fun s => bitOf (s.f E) i = c := fun s hs _ => by
  show bitOf ((run (setFBit E i c) s).f E) i = c
  rw [bitOf_f h.1]
  have e : (run (setFBit E i c) s).f ⟨E.off, E.lo + i, E.lo + i⟩ = b2n c :=
    setF_ensures (by cases c <;> simp [b2n]) ⟨le_refl _, by omega⟩ s hs trivial
  rw [State.bit, e]
  cases c <;> rfl

/-- A bit of another word, or another bit of the word. -/
theorem setFBit_beside (h : E.lo + i < 32 ∧ G.lo + j ≤ G.hi) (hne : E.lo + i ≠ G.lo + j) :
    (setFBit E i c).Maintains fun s => bitOf (s.f G) j = d := fun s hs e => by
  show bitOf ((run (setFBit E i c) s).f G) j = d
  change bitOf (s.f G) j = d at e
  rw [bitOf_f h.2, State.bit] at e ⊢
  have hm := maintains_setF (F := ⟨E.off, E.lo + i, E.lo + i⟩) (G := ⟨G.off, G.lo + j, G.lo + j⟩) (v := b2n c)
    (n := s.f ⟨G.off, G.lo + j, G.lo + j⟩) ⟨le_refl _, h.1⟩ (.inr (by simp only; omega)) s hs rfl
  rw [show (run (setFBit E i c) s).f _ = _ from hm]
  exact e

theorem maintains_bitOf (h : prog.Spares E.off) : prog.Maintains fun s => bitOf (s.f E) i = c := maintains_reg (J := fun w => bitOf (bits w E.hi E.lo) i = c) h

/-- A mask of one quarter. -/
theorem oneQuarter : ∀ m < 16, m = 2 ^ m.log2 → ∃ q < 4, bitList 4 m = [q] := by decide

/-! The start of a self-test. -/

/-- A test of quarter q is booked or waits. -/
def State.testBooked (s : State) (q : Nat) : Bool := (s.ledger.books ++ s.ledger.queue).any fun b => b.act == 7 && b.qtrs.contains q

/-- A quarter that is asked for. -/
def selftestAsked (s : State) (req q : Nat) : Prog :=
  when (!s.testBooked q)
    (if s.quarterBusy q then setFBit F.FUR_SELFTEST_refused q true
     else ledgerRequest (selftestBooking req q) false (selftestRun q) .skip (setFBit F.FUR_SELFTEST_refused q true))

theorem run_potSelftestStart (h : bitList 4 mask = [q]) : run (potSelftestStart req mask) s = run (selftestAsked s req q) s := by
  unfold potSelftestStart
  rw [h, run_each_cons, run_each_nil, run_read]
  rfl

theorem selftestAsked_refused (h : s.testBooked q = false) (hb : s.quarterBusy q = true) :
    run (selftestAsked s req q) s = run (setFBit F.FUR_SELFTEST_refused q true) s := by
  unfold selftestAsked
  rw [h, hb]
  rfl

/-- An empty ledger grants at once. -/
theorem selftestAsked_granted (hbk : s.ledger.books = []) (hq : s.ledger.queue = []) (hb : s.quarterBusy q = false) :
    run (selftestAsked s req q) s = run (selftestRun q) (run (.act (.grant (selftestBooking req q))) s) := by
  unfold selftestAsked State.testBooked ledgerRequest
  simp only [hbk, hq, hb, List.append_nil, List.any_nil, Bool.not_false, run_when, if_true, Bool.false_eq_true, if_false, run_read, grantable, List.all_nil,
    List.length_nil, Nat.zero_lt_succ, decide_true, Bool.and_self]
  rfl

theorem updFur_ensures {g : FurX → FurX} {A : FurX → Prop} (h : ∀ x, A (g x)) : (updFur g).Ensures fun s => A s.fur := fun s _ _ => h s.fur

theorem selftestRun_busy (hq : q < 4) : (selftestRun q).Ensures fun u => bitOf (u.f F.FUR_SELFTEST_busy) q = true :=
  ensures_later <| ensures_now (setFBit_ensures ⟨by simp only [F.FUR_SELFTEST_busy]; omega, by decide⟩) <|
    leads_cons (setFBit_beside ⟨by simp only [F.FUR_SELFTEST_refused]; omega, by simp only [F.FUR_SELFTEST_busy]; omega⟩
      (by simp only [F.FUR_SELFTEST_refused, F.FUR_SELFTEST_busy]; omega)) leads_nil

theorem selftestRun_tests : (selftestRun q).Ensures fun u => u.fur.testing.contains q = true :=
  ensures_now (updFur_ensures (A := fun x => x.testing.contains q = true) fun x => by
    dsimp only
    split
    next h => exact h
    next => simp) <| leads_cons (fun _ _ h => h) <| leads_cons (fun _ _ h => h) leads_nil

theorem selftestRun_writes : (selftestRun q).Writes [R.FUR_SELFTEST, R.DIAG_LEDGER_STAT, R.DIAG_EVENT] :=
  ⟨fun _ => trivial, writes_setF.2 List.mem_cons_self, writes_setF.2 List.mem_cons_self, trivial⟩

theorem ledgerRequest_writes (hs : R.DIAG_LEDGER_STAT ∈ offs) (he : R.DIAG_EVENT ∈ offs) (hg : granted.Writes offs) (hq : queued.Writes offs)
    (hr : refused.Writes offs) {bk : Booking} {nw : Bool} : (ledgerRequest bk nw granted queued refused).Writes offs := fun _ => by
  dsimp only
  split
  · exact ⟨trivial, hg, trivial⟩
  · split
    · exact ⟨writes_setF.2 hs, hr, trivial⟩
    · split
      · exact ⟨writes_setF.2 hs, satAdd_writes hs, writes_raise.2 he, hr, trivial⟩
      · exact ⟨trivial, hq, trivial⟩

theorem potSelftestStart_writes : (potSelftestStart req mask).Writes [R.FUR_SELFTEST, R.DIAG_LEDGER_STAT, R.DIAG_EVENT] := all_each_i fun q _ => all_when_i (by
  have hr : (setFBit F.FUR_SELFTEST_refused q true).Writes [R.FUR_SELFTEST, R.DIAG_LEDGER_STAT, R.DIAG_EVENT] := writes_setF.2 List.mem_cons_self
  split
  · exact hr
  · exact ledgerRequest_writes (by simp) (by simp) selftestRun_writes all_skip_i hr)

/-! The end of a self-test. -/

/-- The tests that run are the list. -/
def Testing (l : List Nat) (s : State) : Prop := s.fur.testing = l

/-- A change of the furnace that keeps its tests. -/
theorem updFur_testing {g : FurX → FurX} (h : ∀ x, (g x).testing = x.testing) : (updFur g).Maintains (Testing l) := fun s _ e => (h s.fur).trans e

theorem testing_of (h : Prog.All (Act.among K) prog) (h9 : K.testBit 9 = false := by decide) : prog.Maintains (Testing l) := fun _ _ e =>
  (congrArg FurX.testing (run_fur_of h h9)).trans e

theorem raise_testing {o b : Nat} : (raise o b).Maintains (Testing l) := testing_of (raise_kinds (K := 2 ^ 63 + 2 ^ 4) o b (tb rfl) (lies_any (tb rfl)))

theorem setF_testing {v : Nat} : (setF E v).Maintains (Testing l) := fun _ _ e => e

theorem refreshBundle_testing : (refreshBundle b).Maintains (Testing l) := leads_read fun _ _ _ => maintains_when fun _ =>
  leads_cons (maintains_when fun _ => leads_read fun _ _ _ => maintains_each fun _ _ => maintains_when fun _ => updFur_testing fun _ => rfl) <|
    leads_cons (maintains_each fun i _ => testing_of (refreshPair_kinds b i)) <| leads_cons (leads_read fun _ _ _ =>
      leads_cons setF_testing <| leads_cons setF_testing <| leads_cons setF_testing <| leads_cons setF_testing <|
      leads_cons (maintains_when fun _ => raise_testing) <| leads_cons (maintains_when fun _ => raise_testing) <|
      leads_cons (maintains_when fun _ => raise_testing) leads_nil) leads_nil

theorem refreshBundles_testing : refreshBundles.Maintains (Testing l) := maintains_each fun _ _ => refreshBundle_testing

/-- A requested test that ends: no longer busy, its result, its event, its booking released. -/
def selftestTold (s : State) (q : Nat) (fresh : Bool) : Prog :=
  block [setFBit F.FUR_SELFTEST_busy q false, setFBit F.FUR_SELFTEST_failed q fresh, raise R.FUR_EVENT 6,
    ifSome (s.ledger.books.find? fun b => b.act == 7 && b.qtrs.contains q) fun b => .act (.release b)]

/-- A test of quarter q finds a failure that was not known (R221). -/
def State.findsNew (s : State) (q failed : Nat) (spareFailed : Bool) : Bool :=
  (bitList 32 failed).any (fun i => !bitOf (s.f (F.FUR_QTR_DEAD_dead q)) i) || (spareFailed && s.f (F.FUR_QTR_STAT_spare q) == 0)

/-- A test ends: its marks, what it tells, the bundles. -/
def selftestEnds (s : State) (q failed : Nat) (spareFailed : Bool) : Prog :=
  block [updFur fun x => { x with testing := x.testing.erase q }, clearQuarter q,
    each allPorts fun p => .read fun t => when ((t.portQuarters p).contains q) (updPort p fun x => { x with coeffMode := 0 }),
    selftestMarks q failed spareFailed, selftestTold s q (s.findsNew q failed spareFailed), refreshBundles]

theorem run_potSelftestDone (ht : s.fur.testing.contains q = true) (hd : s.domOn (domFur q) = true) (hb : bitOf (s.f F.FUR_SELFTEST_busy) q = true) :
    run (potSelftestDone q failed spareFailed) s = run (selftestEnds s q failed spareFailed) s := by
  unfold potSelftestDone
  rw [run_read]
  dsimp only
  rw [run_when, if_pos (by simp only [ht, hd, Bool.and_self]), hb]
  rfl

theorem selftestTold_busy (hq : q < 4) : (selftestTold s q fresh).Ensures fun u => bitOf (u.f F.FUR_SELFTEST_busy) q = false :=
  ensures_now (setFBit_ensures ⟨by simp only [F.FUR_SELFTEST_busy]; omega, by decide⟩) <|
    leads_cons (setFBit_beside ⟨by simp only [F.FUR_SELFTEST_failed]; omega, by simp only [F.FUR_SELFTEST_busy]; omega⟩
      (by simp only [F.FUR_SELFTEST_failed, F.FUR_SELFTEST_busy]; omega)) <|
    leads_cons (maintains_bitOf (spares_raise.2 (by decide))) <| leads_cons (maintains_ifSome fun _ _ _ e => e) leads_nil

theorem selftestTold_failed (hq : q < 4) : (selftestTold s q fresh).Ensures fun u => bitOf (u.f F.FUR_SELFTEST_failed) q = fresh :=
  ensures_later <| ensures_now (setFBit_ensures ⟨by simp only [F.FUR_SELFTEST_failed]; omega, by decide⟩) <|
    leads_cons (maintains_bitOf (spares_raise.2 (by decide))) <| leads_cons (maintains_ifSome fun _ _ _ e => e) leads_nil

theorem selftestTold_raised : (selftestTold s q fresh).Ensures fun u => u.raised R.FUR_EVENT 6 = true :=
  ensures_later <| ensures_later <| ensures_now (raised_raise (by decide)) <| leads_cons (maintains_ifSome fun _ _ _ e => e) leads_nil

theorem alone_FUR_SELFTEST : alone 133 = true := by decide +kernel
theorem alone_FUR_EVENT : alone 134 = true := by decide +kernel

theorem refreshBundles_selftest : refreshBundles.Spares R.FUR_SELFTEST := spares_word alone_FUR_SELFTEST refreshBundles_kinds (by decide) (by decide) (by decide)
theorem refreshBundles_furEvent : refreshBundles.Spares R.FUR_EVENT := spares_word alone_FUR_EVENT refreshBundles_kinds (by decide) (by decide) (by decide)

/-- What a test tells, the bundles keep. -/
theorem selftestEnds_tells {Q : State → Prop} (h : (selftestTold s q (s.findsNew q failed spareFailed)).Ensures Q) (hk : refreshBundles.Maintains Q) :
    (selftestEnds s q failed spareFailed).Ensures Q :=
  ensures_later <| ensures_later <| ensures_later <| ensures_later <| ensures_now h <| leads_cons hk leads_nil

/-- The test of the quarter runs no longer. -/
theorem selftestEnds_testing : (selftestEnds s q failed spareFailed).Leads (Testing l) (Testing (l.erase q)) :=
  leads_cons (fun _ _ e => congrArg (List.erase · q) e) <| leads_cons (updFur_testing fun _ => rfl) <|
    leads_cons (maintains_each fun p _ => leads_read fun _ _ _ => maintains_when fun _ => testing_of (updPort_kinds p _)) <|
    leads_cons (testing_of (selftestMarks_kinds q failed spareFailed)) <|
    leads_cons (leads_cons setF_testing <| leads_cons setF_testing <| leads_cons raise_testing <| leads_cons (maintains_ifSome fun _ _ _ e => e) leads_nil) <|
    leads_cons refreshBundles_testing leads_nil

/-! The words of a test that ends. -/

/-- The words of quarter q that a test may write, those of its pots aside. -/
def testWords (q : Nat) : List Nat := [R.FUR_QTR_STAT q, R.FUR_QTR_SPARE q, R.FUR_QTR_DEAD q, R.FUR_SELFTEST, R.FUR_EVENT]

/-- The tables of the pots and of the bundles. -/
def testMask : Nat := 0x2500000000000000000000000000001000000000000000000000000000000000000000000000000310

theorem selftest_written {hi lo v : Nat} : (setF ⟨R.FUR_SELFTEST, hi, lo⟩ v).Writes (testWords q) := writes_setF.2 (by simp [testWords])

theorem selftestMarks_inside : (selftestMarks q failed spareFailed).Inside (testWords q) testMask := fun _ => by
  have hword : ∀ {o hi lo v : Nat}, o ∈ testWords q → (setF ⟨o, hi, lo⟩ v).Inside (testWords q) testMask := fun h => Prog.Writes.inside (writes_setF.2 h)
  have hpot : ∀ {i hi lo v : Nat}, (setF ⟨R.POT_STAT i, hi, lo⟩ v).Inside (testWords q) testMask := fun {_ _ _ _} =>
    inside_of (setF_kinds _ _ (lies_POT_STAT (tb rfl)))
  have hemit : ∀ {a b c d e : Nat}, (emit a b c d e).Inside (testWords q) testMask := fun {_ _ _ _ _} => Prog.Writes.inside writes_emit
  refine ⟨all_when_i ⟨hword (by simp [testWords]), hemit, trivial⟩, all_each_i fun i => ?_, trivial⟩
  split
  · exact ⟨hword (by simp [testWords]), hword (by simp [testWords]), hword (by simp [testWords]), hpot, hemit, trivial⟩
  · exact ⟨hword (o := R.FUR_QTR_DEAD q) (by simp [testWords]), hpot, Prog.Writes.inside (writes_raise.2 (by simp [testWords])), hemit, trivial⟩

theorem potSelftestDone_inside : (potSelftestDone q failed spareFailed).Inside (testWords q) testMask := fun _ => all_when_i
  ⟨Prog.Writes.inside (fun _ => trivial), Prog.Writes.inside (fun _ => trivial), all_each_i fun _ _ => all_when_i (Prog.Writes.inside writes_updPort),
    selftestMarks_inside, all_when_i (Prog.Writes.inside ⟨selftest_written, selftest_written,
      writes_raise.2 (by simp [testWords]), all_ifSome_i fun _ => trivial, trivial⟩), inside_of refreshBundles_kinds.sub, trivial⟩

end Sys2Proof.Machine
end

section
/-!
PROOFS. O7: the test loops and the self-tests of the pots (R195 to R199, R221, R225).
-/
set_option Elab.async false
namespace Sys2Proof.Proofs
open Sys2Proof Sys2Proof.Machine

/-- Settles O7: a start writes its settings and then refuses, asks the ledger or runs; every end of a loop is `endLoop`, and what follows keeps
its words; a self-test of one quarter is one step of the walk over the mask. -/
theorem testLoops : Obligations.TestLoops := by
  refine ⟨fun path p kind source force noWait mode s hs hg h0 h1 hl hk => ?_, fun path p s hs hg => ?_, fun p n errs s hs hl ht => ?_,
    fun path quarters s hs hg hq => ?_, fun q failed spareFailed s hs ht hnd hd hb => ?_⟩
  · refine acts_wrote (fun c => loopCtlWrite c p mode.toNat noWait.toNat force.toNat source.toNat kind.toNat true false) hg rfl ?_
    have e := run_loopCtlWrite (req := pathCode path) (mode := mode.toNat) (noWait := noWait.toNat) (force := force.toNat) (source := source.toNat)
      (kind := kind.toNat) h0
    have hu := run_ok (loopSet p mode.toNat noWait.toNat force.toNat source.toNat kind.toNat) s hs
    have hfree : LoopFree (run (loopSet p mode.toNat noWait.toNat force.toNat source.toNat kind.toNat) s) p := LoopFree.set p.isLt ⟨h0, h1, hl⟩ hs
    have hkind := loopSet_kind (p := p) (mode := mode.toNat) (noWait := noWait.toNat) (force := force.toNat) (source := source.toNat) kind.isLt s hs trivial
    have hmode := loopSet_mode (p := p) (noWait := noWait.toNat) (force := force.toNat) (source := source.toNat) (kind := kind.toNat) mode.isLt s hs trivial
    refine ⟨?_, ?_, ?_, fun h3 hup => ?_, run_frame_of (loopCtlWrite_kinds _ _ _ _ _ _ _ _ _) hs _ _ (by decide) (by decide) (by decide) (by decide +kernel)
      (fun q => by cases q <;> decide), onlyPort_of (fun hc => loopCtlWrite_apart hc) hs⟩
    all_goals rw [e]
    · exact maintains_f (loopStart_settings p.isLt) _ hu hkind
    · exact maintains_f (loopStart_settings p.isLt) _ hu hmode
    · exact loopStart_answers p.isLt hu hfree hk hkind
    · refine loopStart_farEnd hu hfree (hkind.trans h3) fun h => hup ?_
      rw [← h]
      exact (maintains_f (loopSet_state p.isLt) s hs rfl).symm
  · exact acts_wrote (fun _ => loopStop p) hg rfl ⟨fun h => have ⟨h1, h2, h3⟩ := loopStop_ends p.isLt s hs h; ⟨h1, h2, h3⟩,
      fun h => loopStop_unqueues p.isLt h hs, loopStop_inside.onlyIn hs, keeps_of (loopStop_kinds p) hs _⟩
  · have e := run_loopDurationExpire (n := n) (errs := errs) hl ht
    obtain ⟨h1, h2, h3⟩ := loopExpired_ends (s := s) (n := n) (errs := errs) p.isLt s hs hl
    rw [← e] at h1 h2 h3
    refine acts_finish (loopDurationExpire p n errs) rfl ⟨h1, h2, h3, fun hl3 hsrc => ?_, loopDurationExpire_inside.onlyIn hs,
      keeps_of (loopDurationExpire_kinds p n errs) hs _⟩
    rw [e]
    exact loopExpired_counts p.isLt hl3 hsrc s hs rfl
  · obtain ⟨q, hq4, hlist⟩ := oneQuarter _ quarters.isLt hq
    have hlow : lowBit 4 quarters.toNat = some q := by rw [lowBit, hlist]; rfl
    have e := run_potSelftestStart (req := pathCode path) (s := s) hlist
    rw [hlow]
    refine acts_wrote (fun c => potSelftestStart c quarters.toNat) hg rfl ⟨fun h => ?_, fun h => ?_, onlyWords_of potSelftestStart_writes hs,
      keeps_of (potSelftestStart_kinds _ _) hs _⟩
    all_goals rw [e]
    · simp only [Bool.and_eq_true, Bool.not_eq_true', beq_iff_eq] at h
      rw [selftestAsked_refused h.1 h.2]
      exact ⟨setFBit_ensures ⟨by simp only [F.FUR_SELFTEST_refused]; omega, by decide⟩ s hs trivial, rfl⟩
    · simp only [Bool.and_eq_true, Bool.not_eq_true', List.isEmpty_iff] at h
      rw [selftestAsked_granted h.1.1 h.1.2 h.2]
      exact ⟨selftestRun_busy hq4 _ (run_ok _ s hs) trivial, selftestRun_tests _ (run_ok _ s hs) trivial⟩
  · have hst : s.startTest q = false := by simp only [State.startTest, hb, Bool.not_true, Bool.and_false, Bool.false_and]
    have e : run (.seq (potSelftestDone q failed.toNat spareFailed) (when (s.startTest q) (.seq deriveFur refreshBundles))) s =
        run (potSelftestDone q failed.toNat spareFailed) s := run_when_false hst
    have e' := run_potSelftestDone (failed := failed.toNat) (spareFailed := spareFailed) ht hd hb
    refine acts_finish (.seq (potSelftestDone q failed.toNat spareFailed) (when (s.startTest q) (.seq deriveFur refreshBundles))) rfl ?_
    rw [e]
    refine ⟨?_, ?_, ?_, ?_, potSelftestDone_inside.onlyIn hs, keeps_of (potSelftestDone_kinds q _ _) hs _⟩
    all_goals rw [e']
    · rw [show (run (selftestEnds s q failed.toNat spareFailed) s).fur.testing = _ from selftestEnds_testing s hs rfl]
      simpa using hnd.not_mem_erase
    · exact selftestEnds_tells (selftestTold_busy q.isLt) (maintains_bitOf refreshBundles_selftest) s hs trivial
    · exact selftestEnds_tells (selftestTold_failed q.isLt) (maintains_bitOf refreshBundles_selftest) s hs trivial
    · exact selftestEnds_tells selftestTold_raised (raised_spared refreshBundles_furEvent) s hs trivial

end Sys2Proof.Proofs
end

section
/-!
SUPPORT. What follows a command leaves the slot map as it is: no reaction of the collector resets the block FUR, and no other program
that runs then writes FUR.SLOT (R208, R518).
-/
set_option Elab.async false
namespace Sys2Proof.Machine

variable {off : Nat}

/-! A range of offsets that only one table reaches. -/

/-- No table but table k reaches into a range of offsets. -/
def aloneIn (k lo hi : Nat) : Bool :=
  shapes.zipIdx.all fun e => e.2 == k || decide (e.1.1 + reach e.1.2.1 e.1.2.2 ≤ lo) || decide (hi ≤ e.1.1)

/-- There a mask without that table admits no offset, outside the block headers. -/
theorem not_lies_in {k lo hi K : Nat} (ha : aloneIn k lo hi = true) (h1 : lo ≤ off) (h2 : off < hi) (ho : hi ≤ outside) (hh : ¬ inHeader off)
    (h63 : K.testBit 63 = false) (h : K.testBit (64 + k) = false) : ¬ lies off K := by
  rintro (h' | h' | ⟨-, h'⟩ | ⟨j, r, hj, hr, hoff⟩)
  · omega
  · rw [h63] at h'; cases h'
  · exact hh h'
  · have hm : (r.shape, j) ∈ shapes.zipIdx := by rw [List.mk_mem_zipIdx_iff_getElem?, ← shape_at, hr]; rfl
    have hfar := List.all_eq_true.1 ha _ hm
    simp only [RegRow.has, Bool.and_eq_true, decide_eq_true_eq] at hoff
    have hreach := locate_reach hoff.2
    simp only [Bool.or_eq_true, beq_iff_eq, RegRow.shape] at hfar
    rcases hfar with (rfl | hfar) | hfar
    · rw [h] at hj; cases hj
    · have := of_decide_eq_true hfar
      omega
    · have := of_decide_eq_true hfar
      omega

theorem aloneIn_FUR_SLOT : aloneIn 142 0x84000 0x84800 = true := by decide +kernel

/-! The reactions. -/

/-- A word of the block FUR that the mask of what follows a command does not name. -/
structure FurWord (off : Nat) : Prop where
  ge : 0x80000 ≤ off
  lt : off < 0x90000
  aside : ¬ lies off aftermathMask

theorem furWord_slot (h1 : 0x84000 ≤ off) (h2 : off < 0x84800) : FurWord off where
  ge := by omega
  lt := by omega
  aside := not_lies_in aloneIn_FUR_SLOT h1 h2 (by decide) (by unfold inHeader; omega) rfl rfl

section
variable (hw : FurWord off)
include hw

theorem FurWord.not_effect : ¬ lies off effectMask := fun h => hw.aside (lies_mono (by with_unfolding_all exact rfl) h)

/-- The reset of a block other than FUR. -/
theorem FurWord.spares_resetBlock {b : Nat} {keep : Nat → Bool} (hb : b < 8 ∨ 8 < b) : (resetBlock b keep).Spares off :=
  resetBlock_spares (by have := hw.ge; have := hw.lt; omega)

theorem FurWord.spares_headRegs (h : Nat) (keep : Bool) : (headRegs h keep).Spares off := fun _ =>
  ⟨resetRange_spares (.inl (by have := hw.lt; omega)), id,
    all_when_i ⟨setF_spares hw.aside (lies_HEAD_STAT (tb rfl)), setF_spares hw.aside (lies_HEAD_STAT (tb rfl)), trivial⟩,
    id, spares_of (deriveHead_kinds h) hw.aside, trivial⟩

theorem FurWord.spares_headReset (h cause : Nat) : (headReset h cause).Spares off := by
  have ha := hw.aside
  refine ⟨fun _ => all_when_i (spares_of (headLost_kinds h cause hdLostDown) ha), fun _ => all_when_i ?_⟩
  exact ⟨hw.spares_headRegs h true, setF_spares ha (lies_HEAD_STAT (tb rfl)), all_when_i (setF_spares ha (lies_HEAD_STAT (tb rfl))),
    setF_spares ha (lies_HEAD_STAT (tb rfl)), spares_of (disarmHead_kinds h) ha, spares_of (adoptHead_kinds h) ha,
    fun _ => all_each_i fun _ => ⟨all_when_i (spares_of (orphanEnter_kinds _) ha),
      all_ifSome_i fun _ => all_when_i (spares_of (orphanExit_kinds _) ha), trivial⟩,
    fun _ => by with_reducible exact each_resetQp_spares hw.not_effect _,
    spares_of adoptFinish_kinds ha, spares_of (updHead_kinds _ _) ha, spares_of holderUpdate_kinds ha, trivial⟩

/-- The reset of a quarter restarts its owners and leaves the map; every other block's reset ends short of FUR. -/
theorem FurWord.spares_blockEffect (src : Nat) : (blockEffect src).Spares off := fun s => by
  have ha := hw.aside
  have abort : ∀ b, (activityAbort b).Spares off := fun b => spares_of (activityAbort_kinds b) ha
  dsimp only
  split
  · exact all_when_i (spares_of (portResetBegin_kinds _) ha)
  split
  · exact all_when_i (spares_of (quarterReset_kinds _) ha)
  split
  · exact hw.spares_headReset _ _
  split
  · with_reducible exact packetReset_spares hw.not_effect
  · with_reducible exact packetReset_spares hw.not_effect
  · exact ⟨spares_of mdmaStop_kinds ha, hw.spares_resetBlock (by decide), all_each_i fun _ => id, trivial⟩
  · exact ⟨spares_of flashReset_kinds ha, hw.spares_resetBlock (by decide), trivial⟩
  · exact ⟨hw.spares_resetBlock (by decide), spares_of (mbxEnds_kinds 4) ha, id, trivial⟩
  · exact ⟨all_each_i fun _ => all_when_i (abort _), all_each_i fun _ => all_when_i (abort _), spares_of stagesAborted_kinds ha,
      hw.spares_resetBlock (by decide), setF_spares ha (lies_CAL_BANDGAP (tb rfl)), trivial⟩
  · exact ⟨all_each_i fun _ => all_when_i (abort _), all_each_i abort, hw.spares_resetBlock (by decide), trivial⟩
  · exact ⟨hw.spares_resetBlock (by decide), spares_of deriveLch_kinds ha, spares_of lgAllIdle_kinds ha, trivial⟩
  · exact ⟨hw.spares_resetBlock (by decide), spares_of deriveTb_kinds ha, spares_of (tbState_kinds _) ha, fun _ => id, trivial⟩
  · exact ⟨all_when_i (spares_of (leaveStaged_kinds _ _) ha), setF_spares ha (lies_MLD_REMOULD_STAT (tb rfl)),
      all_when_i fun _ => id, setF_spares ha (lies_MLD_LOAD_CTL (tb rfl)), resetReg_spares ha (lies_MLD_STATUS (tb rfl)),
      resetReg_spares ha (lies_MLD_ERR_DETAIL (tb rfl)), resetReg_spares ha (lies_MLD_EVENT (tb rfl)),
      resetReg_spares ha (lies_MLD_EVENT_MASK (tb rfl)), spares_of deriveMld_kinds ha, trivial⟩
  · exact trivial

theorem FurWord.spares_blockReset (src : Nat) : (blockReset src .skip).Spares off := fun _ => by
  have stat : ∀ {F : Field} {v : Nat}, F.off = R.RST_BLOCK_STAT → (setF F v).Spares off := fun e =>
    spares_setF.2 fun e' => hw.aside (e' ▸ e ▸ lies_RST_BLOCK_STAT (tb rfl))
  dsimp only
  split
  · exact trivial
  · exact all_when_i ⟨spares_updFault, stat rfl, stat rfl, hw.spares_blockEffect src, trivial⟩

theorem FurWord.spares_react (ms : List Msg) : (react ms).Spares off := by
  have safe : ∀ c r x k d, (enterSafe c r x k d).Spares off := fun c r x k d => spares_of (enterSafe_kinds c r x k d) hw.aside
  intro s
  dsimp only
  split
  · exact all_when_i (safe _ _ _ _ _)
  · refine ⟨all_when_i (spares_of faultInterrupt_kinds hw.aside), all_when_i spares_send, all_when_i spares_updFault, ?_, trivial⟩
    split
    · split <;> exact safe _ _ _ _ _
    split
    · exact spares_of (chipReaction_kinds _) hw.aside
    · exact all_each_i fun _ => hw.spares_blockReset _

theorem FurWord.spares_collect (n : Nat) : (collect n).Spares off := by
  induction n with
  | zero => exact trivial
  | succ n ih =>
    intro s
    dsimp only
    split
    · exact trivial
    · refine ⟨fun t => ?_, ih⟩
      dsimp only
      split
      · exact ⟨id, spares_updFault, trivial⟩
      · exact ⟨id, all_each_i fun m => spares_of (logMsg_kinds m) hw.aside, hw.spares_react _, trivial⟩

theorem FurWord.spares_aftermath : (Prog.seq pump settle).Spares off :=
  ⟨spares_of pump_kinds hw.aside, hw.spares_collect 16, spares_of faultEdge_kinds hw.aside, spares_of summaryIrq_kinds hw.aside,
    spares_of keeperPin_kinds hw.aside, trivial⟩

end

/-- What follows a command leaves the slot map as it is, whatever the state. -/
theorem slots_aftermath (s : State) : (aftermath s).slots = s.slots := by
  simp only [State.slots, show (0x84800 : Nat) = 0x847FF + 1 from rfl, within_eq_between, aftermath_eq]
  rw [regsBetween_run fun _ h1 h2 => (furWord_slot h1 (by omega)).spares_aftermath]

end Sys2Proof.Machine
end

section
/-!
PROOFS. O8 fails: a slot map whose commit edge came while a port's pots were being returned applies at the end of the return (R213).
-/
set_option Elab.async false
namespace Sys2Proof.Machine

/-- Port 9 sleeps and returns its pots, slot 0, while a commit edge of a map that frees the slot comes: FUR waits for the return. -/
def mapWaits : State :=
  run (block [setReg (R.FUR_SLOT 0) 0x4009, setF (F.PORT_STATE_state 9) stSleep, setF (F.FUR_RETURN_on_sleep 9) 1,
    .act (.stage (R.FUR_SLOT 0) 0), applyTarget 1 blkFur]) State.reset

theorem mapWaits_ok : mapWaits.ok = true := run_ok _ _ (by decide +kernel)

/-- The commit edge has left the map, and FUR is pending. -/
theorem mapWaits_pending : mapWaits.slots = [(0, 9)] ∧ mapWaits.commit.pend = [(blkFur, 1)] := by decide +kernel

/-- The port's return is running. -/
theorem mapWaits_returns : mapWaits.pst 9 = stSleep ∧ mapWaits.bit (F.FUR_RETURN_on_sleep 9) = true ∧ (mapWaits.port 9).returned = false ∧
    (mapWaits.usable 9).isEmpty = false ∧ (mapWaits.port 9).leaving = false := by decide +kernel

/-- With its end the new map is in force. -/
theorem mapWaits_applies : (run (block [potReturnDone 9, outsideSafe furBoundary]) mapWaits).slots = [] := by decide +kernel

end Sys2Proof.Machine

namespace Sys2Proof.Proofs
open Sys2Proof Sys2Proof.Machine

/-- Refutes O8: POT_RETURN_DONE of a sleeping port for whose return a slot map waits. The end of the return is the boundary at which the map
applies (R213), so the slots that the first clause keeps are not kept. -/
theorem not_potsAndCancellers : ¬ Obligations.PotsAndCancellers := by
  unfold Obligations.PotsAndCancellers
  rintro ⟨h, -⟩
  obtain ⟨hst, hon, hret, hus, hlv⟩ := mapWaits_returns
  obtain ⟨hmap, -⟩ := mapWaits_pending
  obtain ⟨u, he, -, -, hslots, -⟩ := h 9 mapWaits mapWaits_ok hst hon hret hus hlv
  have hend : aftermath (run (block [potReturnDone 9, outsideSafe furBoundary]) mapWaits) = aftermath u := Host.Outcome.next.inj he
  have hfreed : u.slots = [] := by rw [← slots_aftermath u, ← hend, slots_aftermath, mapWaits_applies]
  rw [hslots, hmap] at hfreed
  cases hfreed

end Sys2Proof.Proofs
end

section
/-!
SUPPORT. A device whose MGT is off: the collector only holds what it takes and no reaction runs, so that what follows a command leaves every
word that the command's own sequels do not name (R618).
-/
set_option Elab.async false
namespace Sys2Proof.Machine

variable {off : Nat} {s t : State} {prog : Prog}

/-- The register store has no entry at an offset. -/
def State.unwritten (s : State) (off : Nat) : Prop := s.regsBetween off off = []

/-- The word there reads its reset word. -/
theorem State.unwritten.reg (h : s.unwritten off) : s.reg off = resetWord off := by
  have hn : s.regs.get? off = none := SMap.get?_none fun e he heo => by
    have hm : e ∈ s.regsBetween off off := List.mem_filter.2 ⟨he, decide_eq_true ⟨heo.ge, heo.le⟩⟩
    rw [h] at hm
    cases hm
  simp [State.reg, SMap.getD, hn]

/-- A program that spares the word has an entry there after it exactly where there was one before. -/
theorem unwritten_run (h : prog.Spares off) : (run prog s).unwritten off ↔ s.unwritten off := by
  unfold State.unwritten
  rw [regsBetween_run (fun o h1 h2 => (show off = o by omega) ▸ h) s]

theorem unwritten_congr (h : t.regs = s.regs) : t.unwritten off ↔ s.unwritten off := by
  unfold State.unwritten State.regsBetween
  rw [h]

/-- Where DOM_STAT was never written, every domain is off. -/
theorem State.unwritten.domOff (h : s.unwritten R.PWR_DOM_STAT) (d : Nat) : s.domOn d = false := by
  have hz : resetWord R.PWR_DOM_STAT = 0 := by decide +kernel
  simp [State.domOn, State.f, h.reg, show F.PWR_DOM_STAT_domains.off = R.PWR_DOM_STAT from rfl, hz, bits, bitOf]

/-- While MGT is off the collector writes no register. -/
theorem collect_regs_off (n : Nat) (h : s.unwritten R.PWR_DOM_STAT) : (run (collect n) s).regs = s.regs := by
  induction n generalizing s with
  | zero => rfl
  | succ n ih =>
    unfold collect
    rw [run_read]
    split
    · rfl
    · have ht : (run takeMessages s).regs = s.regs := by
        unfold takeMessages
        rw [run_read]
        simp only [h.domOff, Bool.not_false, if_true]
        rfl
      rw [run_seq, ih ((unwritten_congr ht).2 h), ht]

/-- A word that neither the pump nor the ends of the settling write. -/
structure Settled (off : Nat) : Prop where
  pumped : pump.Spares off
  edge : faultEdge.Spares off
  raisedSummary : summaryIrq.Spares off
  pin : keeperPin.Spares off

theorem pump_domStat : pump.Spares R.PWR_DOM_STAT := spares_word alone_PWR_DOM_STAT pump_kinds (by decide) (by decide) (by decide)

/-- While MGT is off what follows a command leaves such a word. -/
theorem Settled.unwritten_aftermath (ho : Settled off) (h : s.unwritten R.PWR_DOM_STAT) : (aftermath s).unwritten off ↔ s.unwritten off := by
  have hc := collect_regs_off 16 ((unwritten_run pump_domStat).2 h)
  show (run keeperPin (run summaryIrq (run faultEdge (run (collect 16) (run pump s))))).unwritten off ↔ _
  rw [unwritten_run ho.pin, unwritten_run ho.raisedSummary, unwritten_run ho.edge, unwritten_congr hc, unwritten_run ho.pumped]

/-- No command's sequels write DOM_STAT. -/
theorem unwritten_domStat_aftermath : (aftermath s).unwritten R.PWR_DOM_STAT ↔ s.unwritten R.PWR_DOM_STAT := by
  rw [aftermath_eq]
  exact unwritten_run (aftermath_spares (by decide) (by decide)
    (not_lies_one (k := 19) (words := 1) (w := 0) alone_PWR_DOM_STAT rfl (by decide) (by decide) (by decide) (by decide) (by decide) (by decide)))

theorem alone_PORT_SEG_CYCLE : alone 352 = true := by decide +kernel

/-- The cycle of a segment is such a word. -/
theorem settled_SEG_CYCLE {p : Nat} (hp : p < 64) : Settled (R.PORT_SEG_CYCLE p) := by
  have h : ∀ {K : Nat}, K.testBit 62 = false → K.testBit 63 = false → K.testBit 416 = false → ¬ lies (R.PORT_SEG_CYCLE p) K := fun h62 h63 h =>
    not_lies_at1 (k := 352) (words := 1) (w := 0) alone_PORT_SEG_CYCLE rfl hp (by decide) (by decide) (by decide) (by decide) h62 h63 h
  exact ⟨spares_own pump_kinds (h (by decide) (by decide) (by decide)), spares_own faultEdge_kinds (h (by decide) (by decide) (by decide)),
    spares_own summaryIrq_kinds (h (by decide) (by decide) (by decide)), spares_own keeperPin_kinds (h (by decide) (by decide) (by decide))⟩

end Sys2Proof.Machine
end

section
/-!
PROOFS. O9 fails: a beacon that fires an armed detector in PARK begins a start, which resets the port (R256, R483, R485).
-/
set_option Elab.async false
namespace Sys2Proof.Machine

/-- In PARK, T1S off, the detector of S0 armed for any carrier; the words of S0 show a follower in UP under PLCA. -/
def parkedFollower : State :=
  run (block [setF (F.PORT_STATE_state 56) stUp, setF (F.PORT_SEG_CFG_plca_en 56) 1, setF (F.PORT_SEG_CFG_coordinator 56) 0,
    setF (F.PORT_SEG_STAT_plca_active 56) 1, updPort 56 fun x => { x with offSleep := some true },
    updPower fun x => { x with stage := sgPark, armed := [56] }]) State.reset

theorem parkedFollower_ok : parkedFollower.ok = true := run_ok _ _ (by decide +kernel)

theorem parkedFollower_up : parkedFollower.pst 56 = stUp ∧ parkedFollower.bit (F.PORT_SEG_CFG_plca_en 56) = true ∧
    parkedFollower.bit (F.PORT_SEG_CFG_coordinator 56) = false ∧ parkedFollower.bit (F.PORT_SEG_STAT_plca_active 56) = true := by decide +kernel

/-- The state that a beacon which ends a cycle of 5 µs leaves. -/
def parkedBeacon : State := run (block [beaconReceived 56 5, carrierWake 56]) parkedFollower

/-- The start that it begins has reset the words of the domains and of the port. -/
theorem parkedBeacon_resets : parkedBeacon.unwritten R.PWR_DOM_STAT ∧ parkedBeacon.unwritten (R.PORT_SEG_CYCLE 56) := by
  unfold State.unwritten
  decide +kernel

end Sys2Proof.Machine

namespace Sys2Proof.Proofs
open Sys2Proof Sys2Proof.Machine

/-- Refutes O9: BEACON_RECEIVED of a port that reads UP while the device is in PARK with the port's detector armed. The beacon is a carrier: the
wake begins a start (R483), whose reset of the main rails takes the cycle that the beacon has just measured. -/
theorem not_segmentPlca : ¬ Obligations.SegmentPlca := by
  unfold Obligations.SegmentPlca
  rintro ⟨h, -⟩
  obtain ⟨hup, hen, hco, hact⟩ := parkedFollower_up
  obtain ⟨hdom, hcyc⟩ := parkedBeacon_resets
  obtain ⟨u, he, -, -, -, -, hlast, -⟩ := h 0 5 parkedFollower parkedFollower_ok hup hen hco
  have hend : aftermath parkedBeacon = aftermath u := Host.Outcome.next.inj he
  have hoff : u.unwritten R.PWR_DOM_STAT := by
    rw [← unwritten_domStat_aftermath, ← hend, unwritten_domStat_aftermath]
    exact hdom
  have hcycle := settled_SEG_CYCLE (p := 56) (by decide)
  have hreset : u.unwritten (R.PORT_SEG_CYCLE 56) := by
    rw [← hcycle.unwritten_aftermath hoff, ← hend, hcycle.unwritten_aftermath hdom]
    exact hcyc
  have hfive : u.f (F.PORT_SEG_CYCLE_last_us 56) = 5 := hlast hact
  have hzero : u.f (F.PORT_SEG_CYCLE_last_us 56) = 0 :=
    (congrArg (bits · 15 0) hreset.reg).trans (by decide +kernel)
  exact absurd (hfive.symm.trans hzero) (by decide)

end Sys2Proof.Proofs
end

section
/-!
SUPPORT. The transmit path of a port: what it leaves of the frame on the bus, and the words that it writes on a segment (R247, R255, R312, R416).
-/
set_option Elab.async false
namespace Sys2Proof.Machine

variable {p q n : Nat} {s t : State} {prog : Prog} {A : PortX → Prop} {offs : List Nat}

theorem addWide_port {o k : Nat} : (addWide o 2 k).Maintains fun s => A (s.port p) := leads_read fun _ _ _ => setWide_port

theorem updQ_port {d : Nat} {g : RingX → RingX} : (updQ q d g).Maintains fun s => A (s.port p) := maintains_port (updQ_kinds q d g)

/-! What the transmit path leaves of a port: the rings change its queue only. -/

section
variable (hq : ∀ x l, A x → A { x with txq := l })
include hq

theorem dropQueued_port : (dropQueued q).Maintains fun s => A (s.port p) := leads_read fun _ _ _ =>
  maintains_each fun _ _ => updPort_any fun x h => hq x _ h

theorem discardFetched_port {d : Nat} {b : Bool} : (discardFetched q d b).Maintains fun s => A (s.port p) := leads_read fun _ _ _ =>
  leads_cons (maintains_when fun _ => dropQueued_port hq) <| leads_cons (maintains_when fun _ => addWide_port) <|
    leads_cons updQ_port <| leads_cons setF_port <| leads_cons setF_port leads_nil

theorem ringFault_port {d c : Nat} : (ringFault q d c).Maintains fun s => A (s.port p) :=
  leads_cons setF_port <| leads_cons setF_port <| leads_cons (discardFetched_port hq) <| leads_cons updQ_port <|
    leads_cons raise_port <| leads_cons (maintains_port (emit_kinds _ _ _ _ _)) leads_nil

omit hq in
/-- A descriptor taken. -/
theorem gatherTake_port {g : RingX → RingX} : (block [updQ q 1 g, showPrefetched q 1, fetchMore q 1 false]).Maintains fun s => A (s.port p) :=
  leads_cons updQ_port <| leads_cons (maintains_port (showPrefetched_kinds q 1)) <|
    leads_cons (maintains_port (fetchMore_kinds q 1 false)) leads_nil

theorem txGather_port : (txGather q n).Maintains fun s => A (s.port p) := by
  induction n with
  | zero => exact leads_skip
  | succ n ih =>
    refine leads_read fun s _ _ => maintains_when fun _ => ?_
    have hend : ∀ st, (block [txGathered q st, txGather q n]).Maintains fun s => A (s.port p) := fun st =>
      leads_cons (maintains_port (txGathered_kinds q st)) <| leads_cons ih leads_nil
    have hafter : ∀ e, (Prog.read fun u => if isLast e then
        (if (u.ring q 1).skip then block [txGathered q (some stBadDesc), txGather q n]
         else if (u.ring q 1).err then block [txGathered q (some stDataErr), txGather q n]
         else when ((u.ring q 1).reading == 0) (updQ q 1 fun z => { z with whole := true }))
        else when ((u.ring q 1).reading == 0) (txGather q n)).Maintains fun s => A (s.port p) := fun e => leads_read fun u _ _ => by
      by_cases hl : isLast e = true
      · rw [if_pos hl]
        split
        · exact hend _
        · split
          · exact hend _
          · exact maintains_when fun _ => updQ_port
      · rw [if_neg hl]
        exact maintains_when fun _ => ih
    split
    · dsimp only
      split
      · exact maintains_when fun _ => leads_cons setF_port <| leads_cons (ringFault_port hq) leads_nil
      · split
        · exact leads_cons updQ_port <| leads_cons gatherTake_port <| leads_cons (hafter _) leads_nil
        · split
          · exact leads_cons gatherTake_port <| leads_cons (hafter _) leads_nil
          · split
            · exact leads_cons (maintains_port (winClamp_kinds _ _)) <| leads_cons updQ_port <|
                leads_cons gatherTake_port <| leads_cons (hafter _) leads_nil
            · exact maintains_when fun _ => leads_cons gatherTake_port <| leads_cons (maintains_port (takeUnits_kinds _ _)) <|
                leads_cons updQ_port <| leads_cons (maintains_port (send_kinds _)) leads_nil
    · exact leads_skip

theorem txFinish_port {o : Option (Nat × Nat)} {st ts : Nat} : (txFinish o st ts).Maintains fun s => A (s.port p) := maintains_ifSome fun _ =>
  leads_cons updQ_port <| leads_cons (maintains_port (txFlushAll_kinds _)) <|
    leads_cons (leads_read fun _ _ _ => txGather_port hq) leads_nil

theorem txHeads_port {c : Nat} : (txHeads q c n).Maintains fun s => A (s.port p) := by
  induction n with
  | zero => exact leads_skip
  | succ n ih =>
    refine leads_read fun _ _ _ => maintains_ifSome fun f => ?_
    dsimp only
    split
    · exact leads_cons (updPort_any fun x h => hq x _ h) <| leads_cons (maintains_when fun _ => addWide_port) <|
        leads_cons (maintains_when fun _ => satAdd_port) <| leads_cons (txFinish_port hq) <| leads_cons ih leads_nil
    · exact maintains_when fun _ => updPort_any fun x h => hq x _ h

theorem gateRelease_port : (gateRelease q).Maintains fun s => A (s.port p) := leads_read fun _ _ _ => maintains_when fun _ =>
  maintains_each fun _ _ => maintains_ifSome fun _ => maintains_when fun _ => updPort_any fun x h => hq x _ h

end

theorem reclaimAsk_port (h : ∀ x b l, A x → A { x with returned := b, reclaimLeft := l }) : (reclaimAsk q).Maintains fun s => A (s.port p) :=
  leads_read fun _ _ _ => maintains_when fun _ => by
    split
    · exact updPort_any fun x hx => h x _ x.reclaimLeft hx
    · exact leads_cons (updPort_any fun x hx => h x x.returned _ hx) <|
        leads_cons (maintains_each fun _ _ => maintains_port (updFur_kinds _)) leads_nil

/-- No frame of the port is on its line. -/
def State.lineFree (s : State) (p : Nat) : Prop := (s.port p).sending = none

theorem lpiExitBegin_free : (lpiExitBegin q).Maintains fun s => s.lineFree p := leads_read fun _ _ _ =>
  maintains_each fun _ _ => maintains_when fun _ => leads_cons (setF_port (A := fun x => x.sending = none)) <|
    leads_cons (updPort_any (A := fun x => x.sending = none) fun _ h => h) <|
    leads_cons (maintains_port (A := fun x => x.sending = none) (wakeSignal_kinds _)) <|
    leads_cons (reclaimAsk_port (A := fun x => x.sending = none) fun _ _ _ h => h) <|
    leads_cons (maintains_port (A := fun x => x.sending = none) (refreshBundleOf_kinds _)) leads_nil

theorem txFinish_free {o : Option (Nat × Nat)} {st ts : Nat} : (txFinish o st ts).Maintains fun s => s.lineFree p :=
  txFinish_port (A := fun x => x.sending = none) fun _ _ h => h

/-- A look at the queues starts no frame. -/
theorem txLook_free : (txLook q).Maintains fun s => s.lineFree p := leads_read fun _ _ _ =>
  leads_cons (leads_read fun _ _ _ => maintains_ifSome fun _ => maintains_when fun _ =>
      leads_cons (updPort_any (A := fun x => x.sending = none) fun _ _ => rfl) <| leads_cons txFinish_free leads_nil) <|
    leads_cons (maintains_each fun _ _ => txHeads_port (A := fun x => x.sending = none) fun _ _ h => h) <|
    leads_cons (gateRelease_port (A := fun x => x.sending = none) fun _ _ h => h) <|
    leads_cons (leads_read fun _ _ _ => maintains_when fun _ => lpiExitBegin_free) leads_nil

/-! The words that it writes. -/

/-- The words of a port that a collision, and the frame that it ends, may write. -/
def busWords (p : Nat) : List Nat :=
  [R.LCH_GCL_STAT p, R.PORT_TX_OVERSIZE p, R.PORT_TX_OVERSIZE p + 4, R.PORT_SEG_COLL p, R.PORT_SEG_COLL p + 4, R.PORT_SEG_LATE p, R.PORT_SEG_LATE p + 4,
    R.PORT_SEG_EXCESS p, R.PORT_SEG_EXCESS p + 4, R.PORT_SEG_EVENT p, R.PORT_LPI_STAT p]

/-- The tables beside them: the rings, the bundles and the census. -/
def busTables : List RegId :=
  [.HEAD_REQ_STAT, .HEAD_ATC_STAT, .BND_STAT, .BND_EVENT, .BND_PAIR_STAT, .PORT_SEG_CENSUS, .QP_RX_HEAD_IDX, .QP_RX_STAT, .QP_RX_STATE, .QP_RX_FRAMES,
    .QP_RX_DROPS, .QP_RX_BAD, .QP_TX_HEAD_IDX, .QP_TX_STAT, .QP_TX_STATE, .QP_TX_FRAMES, .QP_TX_DROPS, .QP_TX_BAD, .QP_EVENT]

/-- Their kinds, and those of the parts that go with them. -/
def busMask : Nat := 0x7e47c8002000000000000000000000002500110000000000000000000000000000000000000000000000000000000000000000000140300350

/-- A program that writes no words but these. -/
abbrev Prog.OnBus (p : Nat) (prog : Prog) : Prop := prog.Inside (busWords p) busMask

theorem setF_onBus {F : Field} {v : Nat} (h : F.off ∈ busWords p) : (setF F v).OnBus p := Prog.Writes.inside (writes_setF.2 h)

theorem addWide_onBus {o k : Nat} (h : o ∈ busWords p) (h4 : o + 4 ∈ busWords p) : (addWide o 2 k).OnBus p := (writes_addWide h h4).inside

theorem updPort_onBus {g : PortX → PortX} : (updPort q g).OnBus p := writes_updPort.inside

theorem txFinish_onBus {o : Option (Nat × Nat)} {st ts : Nat} : (txFinish o st ts).OnBus p := inside_of (txFinish_kinds o st ts).sub

theorem txHeads_onBus {c : Nat} : (txHeads p c n).OnBus p := by
  induction n with
  | zero => exact trivial
  | succ n ih =>
    refine fun s => all_ifSome_i fun f => ?_
    dsimp only
    split
    · exact ⟨updPort_onBus, all_when_i (addWide_onBus (by simp [busWords]) (by simp [busWords])),
        all_when_i fun _ => setF_onBus (by simp [busWords, F.LCH_GCL_STAT_too_long]), txFinish_onBus, ih, trivial⟩
    · exact all_when_i updPort_onBus

/-- A port of no trunk is in no cane, so that its LPI group is itself. -/
theorem lpiGroup_alone (h8 : 8 ≤ p) : s.lpiGroup p = [p] := by
  simp [State.lpiGroup, State.caneOf, Nat.not_lt.2 h8]

theorem lpiExitBegin_onBus (h8 : 8 ≤ p) : (lpiExitBegin p).OnBus p := fun s => by
  show Prog.OnBus p (each (s.lpiGroup p) _)
  rw [lpiGroup_alone h8]
  exact ⟨all_when_i ⟨setF_onBus (by simp [busWords, F.PORT_LPI_STAT_tx_lpi]), updPort_onBus, inside_of (wakeSignal_kinds p).sub,
    inside_of (reclaimAsk_kinds p).sub, inside_of (refreshBundleOf_kinds p).sub, trivial⟩, trivial⟩

theorem txLook_onBus (h8 : 8 ≤ p) : (txLook p).OnBus p := fun _ =>
  ⟨inside_of (txLost_kinds p).sub, all_each_i fun _ => txHeads_onBus, inside_of (gateRelease_kinds p).sub,
    fun _ => all_when_i (lpiExitBegin_onBus h8), trivial⟩

end Sys2Proof.Machine
end

section
/-!
SUPPORT. Collisions of a segment: what they count, what becomes of the port's own frame (R247 to R249).
-/
set_option Elab.async false
namespace Sys2Proof.Machine

variable {p n v : Nat} {f : TxFrame} {own : Bool} {s t : State} {prog : Prog}

theorem alone_PORT_SEG_COLL : alone 353 = true := by decide +kernel
theorem alone_PORT_SEG_LATE : alone 354 = true := by decide +kernel
theorem alone_PORT_SEG_EXCESS : alone 355 = true := by decide +kernel
theorem alone_PORT_SEG_EVENT : alone 358 = true := by decide +kernel

/-- The frame goes back to the head of its queue with one try more. -/
def frameBack (p : Nat) (f : TxFrame) : Prog := updPort p fun x => { x with sending := none, txq := { f with tries := f.tries + 1 } :: x.txq }

/-- The frame is given up. -/
def frameDrop (p : Nat) (f : TxFrame) : Prog :=
  block [updPort p fun x => { x with sending := none }, txFinish f.owner stCollisions 0, txLook p]

/-- The port's own part in a collision. -/
def frameJammed (p : Nat) (f : TxFrame) : Prog :=
  block [send (.line p "jam" 0), updPort p fun x => { x with opportunity := 0 },
    if f.tries + 1 < 16 then frameBack p f else block [addWide (R.PORT_SEG_EXCESS p) 2 1, frameDrop p f]]

/-- The port's own part in a late one. -/
def frameLate (p : Nat) (f : TxFrame) : Prog :=
  block [addWide (R.PORT_SEG_LATE p) 2 1, addWide (R.PORT_SEG_EXCESS p) 2 1, updPort p fun x => { x with opportunity := 0 }, frameDrop p f]

/-- What the port does that was sending a frame, if it was. -/
def ownPart (s : State) (p : Nat) (own : Bool) (k : TxFrame → Prog) : Prog := when own (ifSome (s.port p).sending k)

/-- What a collision does to a port that is up. -/
def collided (s : State) (p n : Nat) (own : Bool) : Prog :=
  block [addWide (R.PORT_SEG_COLL p) 2 1, markDuplicate p n, ownPart s p own (frameJammed p)]

/-- What a late one does. -/
def collidedLate (s : State) (p n : Nat) (own : Bool) : Prog := block [markDuplicate p n, ownPart s p own (frameLate p)]

theorem run_collision (hl : portClass p = .segment) (h : s.pst p = stUp) : run (collisionAt p n own false) s = run (collided s p n own) s := by
  cases own <;> cases hf : (s.port p).sending <;>
    simp [collisionAt, collision, collided, ownPart, frameJammed, frameBack, frameDrop, hl, h, hf]

theorem run_lateCollision (hl : portClass p = .segment) (h : s.pst p = stUp) : run (collisionAt p n own true) s = run (collidedLate s p n own) s := by
  cases own <;> cases hf : (s.port p).sending <;>
    simp [collisionAt, lateCollision, collidedLate, ownPart, frameLate, frameDrop, hl, h, hf]

/-! The words that they write. -/

theorem markDuplicate_onBus : (markDuplicate p n).OnBus p := fun _ =>
  all_when_i ⟨inside_of (setF_kinds _ _ (lies_PORT_SEG_CENSUS (tb rfl))), Prog.Writes.inside (writes_raise.2 (by simp [busWords])), trivial⟩

theorem frameDrop_onBus (h8 : 8 ≤ p) : (frameDrop p f).OnBus p := ⟨updPort_onBus, txFinish_onBus, txLook_onBus h8, trivial⟩

theorem frameJammed_onBus (h8 : 8 ≤ p) : (frameJammed p f).OnBus p := by
  refine ⟨inside_of (send_kinds _).sub, updPort_onBus, ?_, trivial⟩
  split
  · exact updPort_onBus
  · exact ⟨addWide_onBus (by simp [busWords]) (by simp [busWords]), frameDrop_onBus h8, trivial⟩

theorem frameLate_onBus (h8 : 8 ≤ p) : (frameLate p f).OnBus p :=
  ⟨addWide_onBus (by simp [busWords]) (by simp [busWords]), addWide_onBus (by simp [busWords]) (by simp [busWords]), updPort_onBus,
    frameDrop_onBus h8, trivial⟩

theorem ownPart_onBus {k : TxFrame → Prog} (h : ∀ f, (k f).OnBus p) : (ownPart s p own k).OnBus p := all_when_i (all_ifSome_i h)

theorem collided_onBus (h8 : 8 ≤ p) : (collided s p n own).OnBus p :=
  ⟨addWide_onBus (by simp [busWords]) (by simp [busWords]), markDuplicate_onBus, ownPart_onBus fun _ => frameJammed_onBus h8, trivial⟩

theorem collidedLate_onBus (h8 : 8 ≤ p) : (collidedLate s p n own).OnBus p := ⟨markDuplicate_onBus, ownPart_onBus fun _ => frameLate_onBus h8, trivial⟩

/-! What they leave. -/

/-- A frame given up writes no word beside those of the queues and of LPI. -/
theorem frameDrop_spares {off : Nat}
    (h : ¬ lies off 0x7E47C8020000002000000000000000002500110000000000000000000000000000000000100000000000000000000000000000000140300350) :
    (frameDrop p f).Spares off :=
  ⟨fun _ => id, spares_of (txFinish_kinds _ _ _) h, spares_own (txLook_kinds p) h, trivial⟩

/-- A word that the end of the frame and its count spare. -/
theorem frameJammed_spares {off : Nat} (hd : (frameDrop p f).Spares off) (he : (addWide (R.PORT_SEG_EXCESS p) 2 1).Spares off) :
    (frameJammed p f).Spares off := by
  refine ⟨id, fun _ => id, ?_, trivial⟩
  split
  · exact fun _ => id
  · exact ⟨he, hd, trivial⟩

theorem ownPart_maintains {I : State → Prop} {k : TxFrame → Prog} (h : ∀ f, (k f).Maintains I) : (ownPart s p own k).Maintains I :=
  maintains_when fun _ => maintains_ifSome h

theorem ownPart_some {k : TxFrame → Prog} (h : (s.port p).sending = some f) : ownPart s p true k = k f := by
  rw [ownPart, h]
  rfl

/-- Under PLCA the mark raises its event. -/
theorem markDuplicate_raises (hn : n < 32) :
    (markDuplicate p n).Leads (fun s => s.bit (F.PORT_SEG_STAT_plca_active p) = true) fun s => s.raised (R.PORT_SEG_EVENT p) 2 = true :=
  leads_read fun s _ hb => by
    rw [hb, decide_eq_true hn]
    exact (ensures_later (ensures_now (raised_raise (by decide)) leads_nil)).leads

/-- The mark leaves the counters. -/
theorem markDuplicate_wide {o : Nat} (ho : ∀ w, w % 4 = 0 → w < 8 →
    ¬ lies (o + w) 0x6000000000000000000000000000000000000000000000000000000000000000000000000000000000000000000000000000000010) :
    (markDuplicate p n).Maintains fun s => s.wide o 2 = v :=
  maintains_wide (spares_own (markDuplicate_kinds p n) (ho 0 (by decide) (by decide))) (spares_own (markDuplicate_kinds p n) (ho 4 (by decide) (by decide)))

theorem frameDrop_wide {o : Nat} (ho : ∀ w, w % 4 = 0 → w < 8 →
    ¬ lies (o + w) 0x7E47C8020000002000000000000000002500110000000000000000000000000000000000100000000000000000000000000000000140300350) :
    (frameDrop p f).Maintains fun s => s.wide o 2 = v :=
  maintains_wide (frameDrop_spares (ho 0 (by decide) (by decide))) (frameDrop_spares (ho 4 (by decide) (by decide)))

/-- What the port holds is no matter of the mark. -/
theorem markDuplicate_port {A : PortX → Prop} : (markDuplicate p n).Maintains fun s => A (s.port p) := maintains_port (markDuplicate_kinds p n)

/-! The frame on the bus. -/

/-- A frame given up leaves the line free. -/
theorem frameDrop_free : (frameDrop p f).Ensures fun s => s.lineFree p :=
  ensures_now (updPort_ensures (B := fun x => x.sending = none) fun _ => rfl) <| leads_cons txFinish_free <| leads_cons txLook_free leads_nil

theorem frameJammed_free : (frameJammed p f).Ensures fun s => s.lineFree p := by
  refine ensures_later <| ensures_later <| ensures_now ?_ leads_nil
  split
  · exact updPort_ensures (B := fun x => x.sending = none) fun _ => rfl
  · exact ensures_later <| ensures_now frameDrop_free leads_nil

theorem frameLate_free : (frameLate p f).Ensures fun s => s.lineFree p :=
  ensures_later <| ensures_later <| ensures_later <| ensures_now frameDrop_free leads_nil

/-- A jam is sent before anything else. -/
theorem frameJammed_jams : Sent (.line p "jam" 0) s (run (frameJammed p f) s) := (sent_send _ s).trans (out_grows (block [_, _]) _)

/-- Before its sixteenth attempt the frame is the first of its queue again. -/
theorem frameJammed_requeues {l : List TxFrame} (h : f.tries < 15) : (frameJammed p f).Leads (fun s => (s.port p).txq = l)
    fun s => (s.port p).txq = { f with tries := f.tries + 1 } :: l := by
  have hb : frameJammed p f = block [send (.line p "jam" 0), updPort p fun x => { x with opportunity := 0 }, frameBack p f] := by
    rw [frameJammed, if_pos (by omega)]
  rw [hb]
  exact leads_cons (maintains_port (A := fun x => x.txq = l) (send_kinds _)) <|
    leads_cons (updPort_leads (A := fun x => x.txq = l) (B := fun x => x.txq = l) fun _ h => h) <|
    leads_cons (updPort_leads (A := fun x => x.txq = l) (B := fun x => x.txq = { f with tries := f.tries + 1 } :: l) fun _ h => by rw [h]) leads_nil

section
variable (hp : p < 64)
include hp

/-! The counters and the event of a segment are of no other table. -/

theorem apart_PORT_SEG_COLL {K w : Nat} (h62 : K.testBit 62 = false) (h63 : K.testBit 63 = false) (h : K.testBit 417 = false) (h4 : w % 4 = 0)
    (hw : w < 8) : ¬ lies (R.PORT_SEG_COLL p + w) K :=
  not_lies_at1 (k := 353) (words := 2) alone_PORT_SEG_COLL rfl hp h4 hw (by decide) (by decide) h62 h63 h

theorem apart_PORT_SEG_LATE {K w : Nat} (h62 : K.testBit 62 = false) (h63 : K.testBit 63 = false) (h : K.testBit 418 = false) (h4 : w % 4 = 0)
    (hw : w < 8) : ¬ lies (R.PORT_SEG_LATE p + w) K :=
  not_lies_at1 (k := 354) (words := 2) alone_PORT_SEG_LATE rfl hp h4 hw (by decide) (by decide) h62 h63 h

theorem apart_PORT_SEG_EXCESS {K w : Nat} (h62 : K.testBit 62 = false) (h63 : K.testBit 63 = false) (h : K.testBit 419 = false) (h4 : w % 4 = 0)
    (hw : w < 8) : ¬ lies (R.PORT_SEG_EXCESS p + w) K :=
  not_lies_at1 (k := 355) (words := 2) alone_PORT_SEG_EXCESS rfl hp h4 hw (by decide) (by decide) h62 h63 h

theorem markDuplicate_COLL : (markDuplicate p n).Maintains fun s => s.wide (R.PORT_SEG_COLL p) 2 = v :=
  markDuplicate_wide fun _ => apart_PORT_SEG_COLL hp (by decide) (by decide) (by decide)

theorem markDuplicate_LATE : (markDuplicate p n).Maintains fun s => s.wide (R.PORT_SEG_LATE p) 2 = v :=
  markDuplicate_wide fun _ => apart_PORT_SEG_LATE hp (by decide) (by decide) (by decide)

theorem markDuplicate_EXCESS : (markDuplicate p n).Maintains fun s => s.wide (R.PORT_SEG_EXCESS p) 2 = v :=
  markDuplicate_wide fun _ => apart_PORT_SEG_EXCESS hp (by decide) (by decide) (by decide)

theorem frameDrop_COLL : (frameDrop p f).Maintains fun s => s.wide (R.PORT_SEG_COLL p) 2 = v :=
  frameDrop_wide fun _ => apart_PORT_SEG_COLL hp (by decide) (by decide) (by decide)

theorem frameDrop_LATE : (frameDrop p f).Maintains fun s => s.wide (R.PORT_SEG_LATE p) 2 = v :=
  frameDrop_wide fun _ => apart_PORT_SEG_LATE hp (by decide) (by decide) (by decide)

theorem frameDrop_EXCESS : (frameDrop p f).Maintains fun s => s.wide (R.PORT_SEG_EXCESS p) 2 = v :=
  frameDrop_wide fun _ => apart_PORT_SEG_EXCESS hp (by decide) (by decide) (by decide)

theorem frameDrop_EVENT : (frameDrop p f).Spares (R.PORT_SEG_EVENT p) :=
  frameDrop_spares (not_lies_at1 (k := 358) (words := 1) (w := 0) alone_PORT_SEG_EVENT rfl hp (by decide) (by decide) (by decide) (by decide)
    (by decide) (by decide) (by decide))

/-- A value of a port added to leaves the port's other words. -/
theorem addWide_word {a b k : Nat} (hab : a ≠ b ∧ a + 4 ≠ b := by decide) : (addWide (at1 a 0x10000 64 p) 2 k).Spares (at1 b 0x10000 64 p) := fun _ => by
  have e : ∀ x, at1 x 0x10000 64 p = x + p * 0x10000 := fun x => if_pos hp
  exact spares_setWide (by rw [e, e]; omega) (by rw [e, e]; omega)

theorem frameJammed_COLL : (frameJammed p f).Maintains fun s => s.wide (R.PORT_SEG_COLL p) 2 = v := by
  refine leads_cons (maintains_wide id id) <| leads_cons (maintains_wide (fun _ => id) fun _ => id) <| leads_cons ?_ leads_nil
  split
  · exact maintains_wide (fun _ => id) fun _ => id
  · exact leads_cons (addWide_beside hp) <| leads_cons (frameDrop_COLL hp) leads_nil

theorem frameJammed_EVENT : (frameJammed p f).Spares (R.PORT_SEG_EVENT p) := frameJammed_spares (frameDrop_EVENT hp) (addWide_word hp)

theorem frameLate_EVENT : (frameLate p f).Spares (R.PORT_SEG_EVENT p) :=
  ⟨addWide_word hp, addWide_word hp, fun _ => id, frameDrop_EVENT hp, trivial⟩

/-- After its sixteenth attempt the frame counts as given up. -/
theorem frameJammed_gives (h : 15 ≤ f.tries) : (frameJammed p f).Leads (fun s => s.wide (R.PORT_SEG_EXCESS p) 2 = v)
    fun s => s.wide (R.PORT_SEG_EXCESS p) 2 = (v + 1) % 2 ^ 64 := by
  refine leads_cons (maintains_wide id id) <| leads_cons (maintains_wide (fun _ => id) fun _ => id) <| leads_cons ?_ leads_nil
  rw [if_neg (by omega)]
  exact leads_cons addWide_leads <| leads_cons (frameDrop_EXCESS hp) leads_nil

theorem frameLate_LATE : (frameLate p f).Leads (fun s => s.wide (R.PORT_SEG_LATE p) 2 = v) fun s => s.wide (R.PORT_SEG_LATE p) 2 = (v + 1) % 2 ^ 64 :=
  leads_cons addWide_leads <| leads_cons (addWide_beside hp) <| leads_cons (maintains_wide (fun _ => id) fun _ => id) <|
    leads_cons (frameDrop_LATE hp) leads_nil

theorem frameLate_EXCESS : (frameLate p f).Leads (fun s => s.wide (R.PORT_SEG_EXCESS p) 2 = v)
    fun s => s.wide (R.PORT_SEG_EXCESS p) 2 = (v + 1) % 2 ^ 64 :=
  leads_cons (addWide_beside hp) <| leads_cons addWide_leads <| leads_cons (maintains_wide (fun _ => id) fun _ => id) <|
    leads_cons (frameDrop_EXCESS hp) leads_nil

/-! COLLISION and LATE_COLLISION. -/

theorem collided_counts : (collided s p n own).Leads (fun t => t.wide (R.PORT_SEG_COLL p) 2 = v) fun t => t.wide (R.PORT_SEG_COLL p) 2 = (v + 1) % 2 ^ 64 :=
  leads_cons addWide_leads <| leads_cons (markDuplicate_COLL hp) <| leads_cons (ownPart_maintains fun _ => frameJammed_COLL hp) leads_nil

theorem collided_marks (hn : n < 32) : (collided s p n own).Leads (fun t => t.bit (F.PORT_SEG_STAT_plca_active p) = true)
    fun t => t.raised (R.PORT_SEG_EVENT p) 2 = true :=
  leads_cons (maintains_reg (J := fun w => (bits w 0 0 == 1) = true) (addWide_word hp)) <| leads_cons (markDuplicate_raises hn) <|
    leads_cons (ownPart_maintains fun _ => raised_spared (frameJammed_EVENT hp)) leads_nil

theorem collidedLate_marks (hn : n < 32) : (collidedLate s p n own).Leads (fun t => t.bit (F.PORT_SEG_STAT_plca_active p) = true)
    fun t => t.raised (R.PORT_SEG_EVENT p) 2 = true :=
  leads_cons (markDuplicate_raises hn) <| leads_cons (ownPart_maintains fun _ => raised_spared (frameLate_EVENT hp)) leads_nil

/-- A collision of others leaves the count of late ones. -/
theorem collidedLate_others : (collidedLate s p n false).Maintains fun t => t.wide (R.PORT_SEG_LATE p) 2 = v :=
  leads_cons (markDuplicate_LATE hp) <| leads_cons leads_skip leads_nil

section
variable (hf : (s.port p).sending = some f)
include hf

omit hp in
theorem collided_jams : Sent (.line p "jam" 0) s (run (collided s p n true) s) := by
  rw [collided, ownPart_some hf]
  exact .later (out_grows (block [_, _]) s) frameJammed_jams

omit hp in
theorem collided_free : (collided s p n true).Ensures fun t => t.lineFree p := by
  rw [collided, ownPart_some hf]
  exact ensures_later <| ensures_later <| ensures_now frameJammed_free leads_nil

omit hp in
theorem collided_requeues {l : List TxFrame} (h : f.tries < 15) : (collided s p n true).Leads (fun t => (t.port p).txq = l)
    fun t => (t.port p).txq = { f with tries := f.tries + 1 } :: l := by
  rw [collided, ownPart_some hf]
  exact leads_cons (addWide_port (A := fun x => x.txq = l)) <| leads_cons (markDuplicate_port (A := fun x => x.txq = l)) <|
    leads_cons (frameJammed_requeues h) leads_nil

theorem collided_gives (h : 15 ≤ f.tries) : (collided s p n true).Leads (fun t => t.wide (R.PORT_SEG_EXCESS p) 2 = v)
    fun t => t.wide (R.PORT_SEG_EXCESS p) 2 = (v + 1) % 2 ^ 64 := by
  rw [collided, ownPart_some hf]
  exact leads_cons (addWide_beside hp) <| leads_cons (markDuplicate_EXCESS hp) <| leads_cons (frameJammed_gives hp h) leads_nil

theorem collidedLate_LATE : (collidedLate s p n true).Leads (fun t => t.wide (R.PORT_SEG_LATE p) 2 = v)
    fun t => t.wide (R.PORT_SEG_LATE p) 2 = (v + 1) % 2 ^ 64 := by
  rw [collidedLate, ownPart_some hf]
  exact leads_cons (markDuplicate_LATE hp) <| leads_cons (frameLate_LATE hp) leads_nil

theorem collidedLate_EXCESS : (collidedLate s p n true).Leads (fun t => t.wide (R.PORT_SEG_EXCESS p) 2 = v)
    fun t => t.wide (R.PORT_SEG_EXCESS p) 2 = (v + 1) % 2 ^ 64 := by
  rw [collidedLate, ownPart_some hf]
  exact leads_cons (markDuplicate_EXCESS hp) <| leads_cons (frameLate_EXCESS hp) leads_nil

omit hp in
theorem collidedLate_free : (collidedLate s p n true).Ensures fun t => t.lineFree p := by
  rw [collidedLate, ownPart_some hf]
  exact ensures_later <| ensures_now frameLate_free leads_nil

end

end

end Sys2Proof.Machine
end

section
/-!
SUPPORT. A segment that its sleep request takes to SLEEP (R245, R323).
-/
set_option Elab.async false
namespace Sys2Proof.Machine

variable {p n : Nat} {s : State} {A : PortX → Prop}

section
variable (hA : ∀ x y : PortX, y.sleepWait = x.sleepWait → A x → A y)
include hA

/-- Nothing that goes with a link changes the request to sleep. -/
theorem linkDark_sleepWait : (linkDark p).Maintains fun s => A (s.port p) := leads_read fun _ _ _ =>
  leads_cons (maintains_when fun _ => endLoop_port fun x _ _ _ h => hA x _ rfl h) <|
    leads_cons setF_port <| leads_cons setF_port <| leads_cons setF_port <| leads_cons setF_port <| leads_cons setF_port <|
    leads_cons (updPort_leads fun x h => hA x _ rfl h) <|
    leads_cons (maintains_when fun _ => leads_cons setF_port <| leads_cons setF_port <| leads_cons setF_port <|
      leads_cons (updPort_leads fun x h => hA x _ rfl h) leads_nil) <|
    leads_cons (maintains_port (calQuiet_kinds p)) <| leads_cons (maintains_port (tbPortLost_kinds p)) <|
    leads_cons (leads_read fun _ _ _ => maintains_when fun _ => reclaimAsk_port fun x _ _ h => hA x _ rfl h) leads_nil

/-- A port of no trunk has no place in a cane to leave. -/
theorem linkLost_sleepWait (h8 : 8 ≤ p) : (linkLost p).Maintains fun s => A (s.port p) :=
  leads_cons (linkDark_sleepWait hA) <| leads_cons (leads_read fun s _ _ => by
    rw [show s.caneOf p = none by simp [State.caneOf, Nat.not_lt.2 h8]]
    exact leads_skip) leads_nil

theorem sleepRest_sleepWait : (sleepRest p).Maintains fun s => A (s.port p) := leads_read fun _ _ _ =>
  leads_cons (leads_cons setF_port <| leads_cons (maintains_port (setMode_kinds p 0 0)) <| leads_cons (maintains_port (qualIdle_kinds p)) <|
      leads_cons (updPort_leads fun x h => hA x _ rfl h) <| leads_cons (maintains_when fun _ => raise_port) leads_nil) <|
    leads_cons setF_port <|
    leads_cons (maintains_when fun _ => leads_cons (maintains_port (setPending_kinds p true)) <|
      leads_cons (updPort_leads fun x h => hA x _ rfl h) leads_nil) leads_nil

theorem toSleep_sleepWait (h8 : 8 ≤ p) : (toSleep p n).Maintains fun s => A (s.port p) := leads_read fun _ _ _ =>
  leads_cons (maintains_when fun _ => leads_cons setF_port <| leads_cons (updPort_leads fun x h => hA x _ rfl h) leads_nil) <|
    leads_cons (leads_read fun _ _ _ => leads_cons (sleepRest_sleepWait hA) <| afterMove_maintains (fun _ => linkLost_sleepWait hA h8)
      (tapQueue_port fun x _ h => hA x _ rfl h) (maintains_port (refreshNear_kinds p))) <|
    leads_cons setF_port leads_nil

end

theorem toSleep_last (hn : n < 8) : (toSleep p n).Ensures fun s => s.f (F.PORT_TC10_STAT_last_sleep p) = n := leads_read fun _ _ _ =>
  ensures_later <| ensures_later <| ensures_now (setF_ensures hn) leads_nil

/-- What a served request does. -/
def sleepServed (p : Nat) : Prog := block [updPort p fun x => { x with sleepWait := false }, toSleep p 5]

theorem run_segmentSleep (hl : portClass p = .segment) (hw : (s.port p).sleepWait = true) (h : s.pst p = stUp) :
    run (segmentSleep p) s = run (sleepServed p) s := by
  simp [segmentSleep, sleepServed, hl, hw, h]

theorem sleepServed_apart (hc : s.caneOf p = none) : (sleepServed p).Maintains (Apart p s) :=
  leads_cons updPort_confined.apart <| leads_cons (toSleep_apart hc) leads_nil

/-- The request is served. -/
theorem sleepServed_served (h8 : 8 ≤ p) : (sleepServed p).Ensures fun s => (s.port p).sleepWait = false :=
  ensures_now (updPort_ensures (B := fun x => x.sleepWait = false) fun _ => rfl) <|
    leads_cons (toSleep_sleepWait (A := fun x => x.sleepWait = false) (fun _ _ e h => e.trans h) h8) leads_nil

end Sys2Proof.Machine
end

section
/-!
SUPPORT. The census of a segment and the quality of its interval (R251, R252).
-/
set_option Elab.async false
namespace Sys2Proof.Machine

variable {p m n v : Nat} {s : State} {prog : Prog}

theorem alone_PORT_SEG_CENSUS_CTL : alone 356 = true := by decide +kernel

section
variable (hp : p < 64)
include hp

theorem census_off (hn : n < 32) : R.PORT_SEG_CENSUS p n = 0x1000440 + p * 0x10000 + n * 4 := if_pos ⟨hp, hn⟩

theorem census_ne (hm : m < 32) (hn : n < 32) (h : m ≠ n) : R.PORT_SEG_CENSUS p m ≠ R.PORT_SEG_CENSUS p n := by
  rw [census_off hp hm, census_off hp hn]
  omega

/-- The census lies beside the other words of its port. -/
theorem home_ne_census {a : Nat} (hn : n < 32) (ha : a < 0x1000440 ∨ (0x10004C0 ≤ a ∧ a < 0x1010000) := by decide) :
    at1 a 0x10000 64 p ≠ R.PORT_SEG_CENSUS p n := by
  rw [census_off hp hn, at1, if_pos hp]
  omega

end

/-! CENSUS_WINDOW_END. -/

/-- What the end of a window does to one entry. -/
def censusEntry (s : State) (p n : Nat) : Prog :=
  block [setF (F.PORT_SEG_CENSUS_seen p n) (b2n (bitOf (s.port p).censusSeen n)),
    when (!bitOf (s.port p).censusSeen n && bitOf (s.port p).censusPrev n)
      (block [setF (F.PORT_SEG_CENSUS_silent p n) 1, raise (R.PORT_SEG_EVENT p) 1])]

/-- What the end of a window does under PLCA. -/
def windowEnded (s : State) (p : Nat) : Prog :=
  block [each (List.range 32) (censusEntry s p), updPort p fun x => { x with censusPrev := x.censusSeen, censusSeen := 0 }, countSeen p]

theorem run_censusWindowEnd (hl : portClass p = .segment) (h : s.bit (F.PORT_SEG_STAT_plca_active p) = true) :
    run (censusWindowEnd p) s = run (windowEnded s p) s := by
  unfold censusWindowEnd
  rw [run_read, run_when, if_pos (by simp [hl, h])]
  rfl

/-- The entries agree with the bits of a window. -/
def SeenAs (p c : Nat) (s : State) : Prop := ∀ n : Fin 32, s.f (F.PORT_SEG_CENSUS_seen p n) = b2n (bitOf c n)

theorem b2n_bit_lt (b : Bool) : b2n b < 2 ^ (31 + 1 - 31) := by cases b <;> decide

section
variable (hp : p < 64)
include hp

theorem censusEntry_spares (hm : m < 32) (hn : n < 32) (h : m ≠ n) : (censusEntry s p m).Spares (R.PORT_SEG_CENSUS p n) :=
  ⟨spares_setF.2 (census_ne hp hm hn h), all_when_i ⟨spares_setF.2 (census_ne hp hm hn h), spares_raise.2 (home_ne_census hp hn), trivial⟩, trivial⟩

theorem censusEntry_seen (hn : n < 32) :
    (censusEntry s p n).Ensures fun t => t.f (F.PORT_SEG_CENSUS_seen p n) = b2n (bitOf (s.port p).censusSeen n) :=
  ensures_now (setF_ensures (b2n_bit_lt _)) <| leads_cons (maintains_when fun _ =>
    leads_cons setF_beside <| leads_cons (maintains_f (spares_raise.2 (home_ne_census hp hn))) leads_nil) leads_nil

theorem censusEntries_seen : (each (List.range 32) (censusEntry s p)).Ensures (SeenAs p (s.port p).censusSeen) := fun t ht _ n => by
  have h : (each (List.range 32) (censusEntry s p)).Ensures fun t => t.f (F.PORT_SEG_CENSUS_seen p n) = b2n (bitOf (s.port p).censusSeen n) :=
    ensures_each (List.mem_range.2 n.isLt) (censusEntry_seen hp n.isLt) fun m hm => by
      by_cases e : m = n
      · rw [e]
        exact (censusEntry_seen hp n.isLt).leads
      · exact maintains_f (censusEntry_spares hp (List.mem_range.1 hm) n.isLt e)
  exact h t ht trivial

omit hp in
/-- What a program leaves that writes no entry. -/
theorem seenAs_kept {c : Nat} (h : ∀ n < 32, prog.Spares (R.PORT_SEG_CENSUS p n)) : prog.Maintains (SeenAs p c) := fun t ht hs n =>
  maintains_f (h n n.isLt) t ht (hs n)

theorem countSeen_seen {c : Nat} : (countSeen p).Maintains (SeenAs p c) := seenAs_kept fun _ hn _ => spares_setF.2 (home_ne_census hp hn)

theorem windowEnded_seen : (windowEnded s p).Ensures (SeenAs p (s.port p).censusSeen) :=
  ensures_now (censusEntries_seen hp) <| leads_cons (seenAs_kept fun _ _ _ => id) <| leads_cons (countSeen_seen hp) leads_nil

end

/-- The entries counted are the bits of the window. -/
theorem SeenAs.count {c : Nat} (h : SeenAs p c s) : ((List.range 32).filter fun n => s.bit (F.PORT_SEG_CENSUS_seen p n)).length = popcount 32 c := by
  unfold popcount
  congr 1
  refine List.filter_congr fun n hn => ?_
  rw [State.bit, h ⟨n, List.mem_range.1 hn⟩]
  cases bitOf c n <;> rfl

theorem popcount_lt {c : Nat} : popcount 32 c < 2 ^ (13 + 1 - 8) :=
  lt_of_le_of_lt (List.length_filter_le _ _) (by decide)

theorem countSeen_counts {c : Nat} : (countSeen p).Leads (SeenAs p c) fun s => s.f (F.PORT_SEG_STAT_nodes_seen p) = popcount 32 c :=
  leads_read fun s _ h => by
    rw [h.count]
    exact (setF_ensures popcount_lt).leads

theorem windowEnded_counts (hp : p < 64) : (windowEnded s p).Ensures fun t => t.f (F.PORT_SEG_STAT_nodes_seen p) = popcount 32 (s.port p).censusSeen :=
  leads_cons (censusEntries_seen hp) <| leads_cons (seenAs_kept fun _ _ _ => id) <| leads_cons countSeen_counts leads_nil

/-- The window becomes the one before. -/
theorem windowEnded_turns {c : Nat} : (windowEnded s p).Leads (fun t => (t.port p).censusSeen = c)
    fun t => (t.port p).censusPrev = c ∧ (t.port p).censusSeen = 0 :=
  leads_cons (maintains_each fun _ _ => leads_cons (setF_port (A := fun x => x.censusSeen = c)) <| leads_cons (maintains_when fun _ =>
      leads_cons (setF_port (A := fun x => x.censusSeen = c)) <| leads_cons (raise_port (A := fun x => x.censusSeen = c)) leads_nil) leads_nil) <|
    leads_cons (updPort_leads (A := fun x => x.censusSeen = c) (B := fun x => x.censusPrev = c ∧ x.censusSeen = 0) fun _ h => ⟨h, rfl⟩) <|
    leads_cons (leads_read fun _ _ _ => setF_port (A := fun x => x.censusPrev = c ∧ x.censusSeen = 0)) leads_nil

/-! The words that the census writes. -/

/-- The census alone. -/
def censusMask : Nat := 0x2000000000000000000000000000000000000000000000000000000000000000000000000000000000000000000000000000000000

theorem setF_census {offs : List Nat} {hi lo : Nat} : (setF ⟨R.PORT_SEG_CENSUS p n, hi, lo⟩ v).Inside offs censusMask :=
  inside_of (setF_kinds _ _ (lies_PORT_SEG_CENSUS (tb rfl)))

theorem windowEnded_inside : (windowEnded s p).Inside [R.PORT_SEG_STAT p, R.PORT_SEG_EVENT p] censusMask :=
  ⟨all_each_i fun _ => ⟨setF_census, all_when_i ⟨setF_census, Prog.Writes.inside (writes_raise.2 (by simp)), trivial⟩, trivial⟩,
    writes_updPort.inside, fun _ => Prog.Writes.inside (writes_setF.2 (by simp [F.PORT_SEG_STAT_nodes_seen])), trivial⟩

/-! CENSUS_CLEAR. -/

/-- A window stored and the census cleared. -/
def windowStored (p w : Nat) : Prog := block [setF (F.PORT_SEG_CENSUS_CTL_window_ms p) w, censusClear p]

theorem windowStored_inside : (windowStored p v).Inside [R.PORT_SEG_STAT p, R.PORT_SEG_CYCLE p, R.PORT_SEG_CENSUS_CTL p] censusMask :=
  ⟨Prog.Writes.inside (writes_setF.2 (by simp [F.PORT_SEG_CENSUS_CTL_window_ms])),
    ⟨all_each_i fun _ => inside_of (setReg_kinds _ _ (lies_PORT_SEG_CENSUS (tb rfl))),
      Prog.Writes.inside (show R.PORT_SEG_CYCLE p ∈ _ by simp), Prog.Writes.inside (writes_setF.2 (by simp [F.PORT_SEG_STAT_nodes_seen])),
      writes_updPort.inside, trivial⟩, trivial⟩

theorem windowStored_kinds : Prog.All (Act.among 0x3180000000000000000000000000000000000000000000000000000000000000000000000000000000000000000000000000000040) (windowStored p v) :=
  ⟨setF_kinds _ _ (lies_PORT_SEG_CENSUS_CTL (tb rfl)), (censusClear_kinds p).sub, trivial⟩

theorem windowStored_window (hp : p < 64) (hv : v < 2 ^ 16) : (windowStored p v).Ensures fun s => s.f (F.PORT_SEG_CENSUS_CTL_window_ms p) = v :=
  ensures_now (setF_ensures hv) <| leads_cons (maintains_f (spares_own (censusClear_kinds p)
    (not_lies_at1 (k := 356) (words := 1) (w := 0) alone_PORT_SEG_CENSUS_CTL rfl hp (by decide) (by decide) (by decide) (by decide) (by decide)
      (by decide) (by decide)))) leads_nil

theorem windowStored_entries (hp : p < 64) (hn : n < 32) : (windowStored p v).Ensures fun s => s.reg (R.PORT_SEG_CENSUS p n) = 0 := by
  have h0 : ∀ m, (setReg (R.PORT_SEG_CENSUS p m) 0).Maintains fun s => s.reg (R.PORT_SEG_CENSUS p n) = 0 := fun m => by
    by_cases e : R.PORT_SEG_CENSUS p m = R.PORT_SEG_CENSUS p n
    · rw [e]; exact setReg_ensures.leads
    · exact maintains_reg (J := (· = 0)) (spares_setReg.2 e)
  exact ensures_later <| ensures_now (ensures_now (ensures_each (List.mem_range.2 hn) setReg_ensures fun m _ => h0 m) <|
    leads_cons (maintains_reg (J := (· = 0)) (spares_setReg.2 (home_ne_census hp hn))) <|
    leads_cons (maintains_reg (J := (· = 0)) (spares_setF.2 (home_ne_census hp hn))) <|
    leads_cons (maintains_reg (J := (· = 0)) fun _ => id) leads_nil) leads_nil

theorem windowStored_nodes : (windowStored p v).Ensures fun s => s.f (F.PORT_SEG_STAT_nodes_seen p) = 0 :=
  ensures_later <| ensures_now (ensures_later <| ensures_later <| ensures_now setF_ensures <| leads_cons (maintains_f fun _ => id) leads_nil) leads_nil

theorem windowStored_ever : (windowStored p v).Ensures fun s => (s.port p).censusEver = 0 :=
  ensures_later <| ensures_now (ensures_later <| ensures_later <| ensures_later <|
    ensures_now (updPort_ensures (B := fun x => x.censusEver = 0) fun _ => rfl) leads_nil) leads_nil

/-! SEG_QUAL_INTERVAL. -/

/-- What an interval does to a segment that is up. -/
def segInterval (s : State) (p : Nat) : Prog :=
  block [ifSome (s.port p).windowMin fun m => setQuality p (unsigned 16 ((m : Int) - 32768)), updPort p fun x => { x with windowMin := none }]

theorem run_segQualInterval (hl : portClass p = .segment) (h : s.pst p = stUp) : run (segQualInterval p) s = run (segInterval s p) s := by
  unfold segQualInterval
  rw [run_read, run_when, if_pos (by simp [hl, h])]
  rfl

theorem segInterval_writes : (segInterval s p).Writes [R.PORT_LINK_QUAL p, R.PORT_EVENT p] :=
  ⟨all_ifSome_i fun _ => setQuality_writes (by simp) (by simp), writes_updPort, trivial⟩

theorem segInterval_ends : (segInterval s p).Ensures fun t => (t.port p).windowMin = none :=
  ensures_later <| ensures_now (updPort_ensures (B := fun x => x.windowMin = none) fun _ => rfl) leads_nil

theorem unsigned_lt (i : Int) : unsigned n i < 2 ^ n := by
  have h := Int.emod_lt_of_pos i (show (0 : Int) < ((2 ^ n : Nat) : Int) by exact_mod_cast Nat.two_pow_pos n)
  have h0 := Int.emod_nonneg i (show ((2 ^ n : Nat) : Int) ≠ 0 by exact_mod_cast (Nat.two_pow_pos n).ne')
  unfold unsigned
  omega

/-- The lowest margin of the interval is shown. -/
theorem segInterval_margin (hp : p < 64) (hm : (s.port p).windowMin = some m) :
    (segInterval s p).Ensures fun t => t.f (F.PORT_LINK_QUAL_mse_margin p) = unsigned 16 ((m : Int) - 32768) := by
  rw [segInterval, hm]
  exact ensures_now (fun t ht _ => (setQuality_measures hp (unsigned_lt _) t ht rfl).margin) <| leads_cons (maintains_f fun _ => id) leads_nil

/-- An interval without a frame keeps the values. -/
theorem segInterval_keeps (hm : (s.port p).windowMin = none) : (segInterval s p).Spares (R.PORT_LINK_QUAL p) := by
  rw [segInterval, hm]
  exact ⟨trivial, fun _ => id, trivial⟩

end Sys2Proof.Machine
end

section
/-!
PROOFS. Collisions, the census, quality and sleep of a segment (O10).
-/
set_option Elab.async false
namespace Sys2Proof.Machine

/-- A segment is one of the last eight ports. -/
theorem segPort_facts (p : SegPort) : 56 + p.val < 64 ∧ 8 ≤ 56 + p.val ∧ portClass (56 + p.val) = .segment :=
  ⟨by omega, by omega, by simp [portClass]; omega⟩

end Sys2Proof.Machine

namespace Sys2Proof.Proofs
open Sys2Proof Sys2Proof.Machine

/-- Settles O10: each command runs what it does to a segment that is up, and each of those programs is followed part by part. -/
theorem segmentCollisionsAndCensus : Obligations.SegmentCollisionsAndCensus := by
  unfold Obligations.SegmentCollisionsAndCensus
  refine ⟨fun p n own s hs hup => ?_, fun p n own s hs hup => ?_, fun p s hs hw hup => ?_, fun p s hs hact => ?_, fun path p window s hs hgr => ?_,
    fun p s hs hup => ?_⟩ <;> obtain ⟨hp, h8, hl⟩ := segPort_facts p
  · refine acts_finish (collisionAt _ n.toNat own false) rfl ?_
    have hk := keeps_of (collisionAt_kinds (56 + p.val) n.toNat own false) hs (ringParts ++ [.bundles, .furnace])
    rw [run_collision hl hup] at hk ⊢
    refine ⟨collided_counts hp s hs rfl, ?_, fun hact hn => collided_marks hp hn s hs hact, (collided_onBus h8).onlyIn hs, hk⟩
    rintro rfl f hf
    have hf := Option.mem_toList.1 hf
    exact ⟨collided_jams hf, collided_free hf s hs trivial, fun h => collided_requeues hf h s hs rfl, fun h => collided_gives hp hf h s hs rfl⟩
  · refine acts_finish (collisionAt _ n.toNat own true) rfl ?_
    have hk := keeps_of (collisionAt_kinds (56 + p.val) n.toNat own true) hs (ringParts ++ [.bundles, .furnace])
    rw [run_lateCollision hl hup] at hk ⊢
    refine ⟨?_, fun hact hn => collidedLate_marks hp hn s hs hact, ?_, (collidedLate_onBus h8).onlyIn hs, hk⟩
    · rintro rfl hsend
      obtain ⟨f, hf⟩ := Option.isSome_iff_exists.1 hsend
      exact ⟨collidedLate_LATE hp hf s hs rfl, collidedLate_EXCESS hp hf s hs rfl, collidedLate_free hf s hs trivial⟩
    · rintro rfl
      exact collidedLate_others hp s hs rfl
  · refine acts_finish (segmentSleep _) rfl ?_
    have hframe := frame_of_move (segmentSleep_kinds (56 + p.val)) hs
    rw [run_segmentSleep hl hw hup] at hframe ⊢
    exact ⟨ensures_later (ensures_now (toSleep_pst hp) leads_nil) s hs trivial, ensures_later (ensures_now (toSleep_admin hp) leads_nil) s hs trivial,
      ensures_later (ensures_now (toSleep_last (by decide)) leads_nil) s hs trivial, sleepServed_served h8 s hs trivial, hframe,
      onlyPort_of sleepServed_apart hs⟩
  · refine acts_finish (censusWindowEnd _) rfl ?_
    have hk := keeps_of (censusWindowEnd_kinds (56 + p.val)) hs [.windows, .ports]
    rw [run_censusWindowEnd hl hact] at hk ⊢
    obtain ⟨hprev, hseen⟩ := windowEnded_turns (s := s) s hs rfl
    exact ⟨hprev, hseen, windowEnded_seen hp s hs trivial, windowEnded_counts hp s hs trivial, windowEnded_inside.onlyIn hs, hk⟩
  · exact acts_wrote (fun _ => windowStored (56 + p.val) window.toNat) hgr rfl
      ⟨windowStored_window hp window.isLt s hs trivial, fun n => windowStored_entries hp n.isLt s hs trivial, windowStored_nodes s hs trivial,
        windowStored_ever s hs trivial, windowStored_inside.onlyIn hs, keeps_of windowStored_kinds hs _⟩
  · refine acts_finish (segQualInterval _) rfl ?_
    have hk := keeps_of (segQualInterval_kinds (56 + p.val)) hs [.windows, .ports]
    rw [run_segQualInterval hl hup] at hk ⊢
    refine ⟨segInterval_ends s hs trivial, fun hsome => ?_, fun hnone => ?_, onlyWords_of segInterval_writes hs, hk⟩
    · obtain ⟨m, hm⟩ := Option.isSome_iff_exists.1 hsome
      rw [hm]
      exact congrArg Int.ofNat (segInterval_margin hp hm s hs trivial)
    · exact run_reg_frame _ _ (segInterval_keeps hnone) s (State.ok_regs_sorted hs)

end Sys2Proof.Proofs
end
